-- ==== Sys2Proof/Word.lean ====
section
/-! DEFINITION. The word types of the QN-5032 and their plainest arithmetic (R4, R5). -/

namespace Sys2Proof

/-- A register word: 32 bits, little-endian (R4). -/
abbrev Word := BitVec 32

/-- A byte of an on-line format or a DMA record (R4). -/
abbrev Byte := BitVec 8

/-- Bits `[lsb + width - 1 : lsb]` of a word, as a number (R4: bits are numbered from 0 at the least significant). -/
def bitsOf (w : Word) (lsb width : Nat) : Nat := (w.toNat >>> lsb) % 2 ^ width

/-- A word with bits `[lsb + width - 1 : lsb]` replaced by the low `width` bits of `v`. -/
def withBits (w : Word) (lsb width v : Nat) : Word :=
  let mask : Word := BitVec.ofNat 32 ((2 ^ width - 1) <<< lsb)
  (w &&& ~~~mask) ||| (BitVec.ofNat 32 ((v % 2 ^ width) <<< lsb) &&& mask)

/-- Bit `i` of a number. -/
def bitAt (n i : Nat) : Bool := Nat.testBit n i

/-- The signed value of the low `width` bits of `v` in two's complement. -/
def signedOf (width v : Nat) : Int :=
  let m := v % 2 ^ width
  if m < 2 ^ (width - 1) then (m : Int) else (m : Int) - 2 ^ width

/-- The low `width` bits, in two's complement, of a signed value. -/
def unsignedOf (width : Nat) (v : Int) : Nat := (v % (2 ^ width : Int)).toNat

/-- Ceiling division; 0 when the divisor is 0. -/
def ceilDiv (a b : Nat) : Nat := if b = 0 then 0 else (a + b - 1) / b

/-- Nearest integer to `a / b` for a positive `b`, ties rounded up (R73, R98). -/
def roundDiv (a : Int) (b : Nat) : Int := (2 * a + b).fdiv (2 * b)

/-- `a / b` truncated toward zero (R113). -/
def truncDiv (a : Int) (b : Nat) : Int := a.tdiv b

/-- Grid ticks in a frame (R5). -/
def gtPerFrame : Nat := 19440

/-- Fine steps in a grid tick (R5). -/
def finePerGt : Nat := 256

/-- Fine steps in a frame of nominal length (R5). -/
def finePerFrame : Nat := gtPerFrame * finePerGt

/-- Frames in a grid second (R70). -/
def framesPerSecond : Nat := 8000

end Sys2Proof
end

