-- ==== Sys2Proof/Syntax.lean ====
section
/-! DEFINITION. The commands of the QN-5032, one constructor per row of opcode_table.json, and the types of their
operands. A register command carries its origin (R284) and the instance it names; an event carries the facts that the
outside world brings (positions, what a lane found, what a frame holds). -/

namespace Sys2Proof

/-- The origin of a register access (R284, R295). -/
inductive Origin where
  | pf
  | vf (s : Nat)
  | jtag
  | boot
  | ucode (k : Nat)
  | peer (d : Nat)
  deriving DecidableEq, Repr

/-- A grid position f:t.u (R5). -/
structure Pos where
  frame : Nat
  tick : Nat
  fine : Nat
  deriving DecidableEq, Repr

/-- One framer pull of a frame: the channel and the bytes left in its frame (R192). `late` marks an answer that took
more than 64 core cycles; `cycle` is the core cycle of the frame in which the framer pulls (R141). -/
structure Pull where
  ch : Fin 96
  bytes : Nat
  late : Bool
  cycle : Nat
  deriving DecidableEq, Repr

/-- A header error check as the receiver finds it (R59). -/
inductive Hec where
  | ok
  | correctable
  | uncorrectable
  deriving DecidableEq, Repr

/-- One upstream FEC codeword (R59). -/
inductive Codeword where
  | clean
  | corrected (bits : Nat)
  | uncorrectable
  deriving DecidableEq, Repr

/-- The seal header and tag check of a sealed frame (R220, R222). -/
structure SealIn where
  ver : Nat
  pn : Nat
  tagOk : Bool
  deriving DecidableEq, Repr

/-- The 64-bit header of a bonding fragment, field by field, and whether its HEC is right (R139, R140). -/
structure FragHdr where
  ver : Nat
  first : Bool
  last : Bool
  seq : Nat
  group : Nat
  memH : Bool
  datum : Nat
  hecOk : Bool
  deriving DecidableEq, Repr

/-- One GEM or XGEM frame of a burst (R58 to R62). `len` is the length its header names. -/
structure GemIn where
  portId : Nat
  len : Nat
  hec : Hec
  first : Bool
  last : Bool
  keyIdx : Nat
  seal? : Option SealIn
  bytes : List Byte
  deriving DecidableEq, Repr

/-- A status report of a burst: the Alloc-ID, its figure converted to bytes, and whether it is the largest code (R125). -/
structure ReportIn where
  allocId : Nat
  bytes : Nat
  saturated : Bool
  deriving DecidableEq, Repr

/-- What arrives for one granted burst (R58, R85, R91). `found` lists the bit positions, relative to the predicted
delimiter start, at which the received bits lie at the given Hamming distance from the pattern. `cutAt` is the number of
payload bytes before the rise of the next BRST pulse when that pulse cuts the burst. -/
structure BurstIn where
  found : List (Int × Nat)
  phaseEnd : Nat
  peakEnd : Nat
  hdr : Hec
  bipErrors : Nat
  onuId : Nat
  codewords : List Codeword
  payload : Nat
  cutAt : Option Nat
  frames : List GemIn
  reports : List ReportIn
  reportLateTick : Bool
  ploams : List (List Byte × Bool)
  ploamWaiting : Bool
  bits : Nat
  deriving DecidableEq, Repr

/-- MACsec fields of a received uplink frame (R224). -/
structure MacsecIn where
  sci : Nat
  an : Fin 4
  pn : Nat
  tagOk : Bool
  deriving DecidableEq, Repr

/-- A frame received on an uplink port (R238). -/
structure UplinkIn where
  len : Nat
  bytes : List Byte
  fcsOk : Bool
  pause : Bool
  macsec : Option MacsecIn
  ptpEvent : Bool
  deriving DecidableEq, Repr

/-- One-step insertion of a frame leaving an uplink port (R47, R48): the encapsulation of the Sync or Delay_Req that the frame is. -/
inductive PtpKind where
  | none
  | ethernet
  | udp4
  | udp6
  deriving DecidableEq, Repr

/-- An H2D descriptor as fetched from host memory (R243), with the frame behind it. `left` says through which uplink port and at which
position the message timestamp point of the frame left, for a two-step timestamp (R47); none where it has not left. -/
structure H2dDesc where
  bufAddr : Nat
  bufLen : Nat
  pktLen : Nat
  tsReq : Bool
  direct : Bool
  queue : Nat
  meta_ : Nat
  bytes : List Byte
  dmaErr : Option (Fin 4)
  left : Option (Fin 24 × Pos)
  deriving DecidableEq, Repr

/-- One record of an image section (R309). -/
inductive ImageSection where
  | reg (recs : List (Nat × Word × Word))
  | ucs (mask : Nat) (bankB : Bool) (words : List (BitVec 160)) (vectors : List Nat) (crc : Word)
  | poll (recs : List (Nat × Word × Word))
  | note
  deriving DecidableEq, Repr

/-- A section entry of an image: its type code, place and length, and its body (R309). -/
structure ImageEntry where
  ty : Nat
  offset : Nat
  length : Nat
  body : ImageSection
  deriving DecidableEq, Repr

/-- An image as read into staging (R309, R310). `sigValid` says whether (r, s) verifies over the SHA-384 digest of the
signed part under `keyHash`'s key. -/
structure Image where
  response : Bool
  readError : Bool
  magic : Nat
  format : Nat
  device : Nat
  len : Nat
  sections : List ImageEntry
  strict : Bool
  ver : Word
  build : Word
  keyHash : BitVec 384
  sigValid : Bool
  deriving DecidableEq, Repr

/-- A context of an engine: cluster, engine (32 the spare), context (R3, R148). -/
structure CtxId where
  k : Fin 16
  e : Fin 33
  x : Fin 4
  deriving DecidableEq, Repr

/-- The units whose requests complete (R154, conditions 8 to 13). -/
inductive EngUnit where
  | mem
  | tbl
  | cip
  | bpm
  | tmq
  | hdr
  deriving DecidableEq, Repr

/-- The direction of a landing packet (R174). -/
inductive Dir where
  | downstream
  | upstream
  | host
  deriving DecidableEq, Repr

/-- A record of the mirror (R275). -/
inductive MirrorRec where
  | channel (port : Fin 32) (c : Fin 3) (usOffset : Nat)
  | onu (port : Fin 32) (i : Fin 512) (ch onuId state matchMode : Nat) (valid : Bool) (expSn seenSn : BitVec 64) (expReg : BitVec 288)
  | range (port : Fin 32) (i : Fin 512) (eqd : Nat) (res drift : Int)
  | key (node : Fin 16384) (dirUp : Bool) (slot mode : Nat) (key : BitVec 256) (salt pn lastPn : Nat)
  | demand (port : Fin 32) (d : Fin 2048) (demand : Nat) (sat : Bool)
  | map (port : Fin 32) (c : Fin 3) (count : Nat)
  | pair (port : Fin 32) (state : Nat) (syncDone : Bool) (leaseLeft : Nat) (frame : Nat)
  deriving DecidableEq, Repr

/-- The payload of a Hexca message by its virtual channel (R249, R262, R275, R308). -/
inductive HexcaBody where
  | mirror (frame : Nat) (recs : List MirrorRec)
  | grid (tTx tRx txCnt rxCnt : Nat) (master locked backup : Bool)
  | bulk (request : Bool)
  | other
  deriving DecidableEq, Repr

/-- A Hexca message as it arrives (R255). -/
structure HexcaMsg where
  startOk : Bool
  len : Nat
  crcOk : Bool
  vc : Nat
  seq : Nat
  body : HexcaBody
  deriving DecidableEq, Repr

/-- What a lane shows at the position where an alignment marker is looked for (R251): a marker with the lane number it names,
whether the marker period it closes holds no error (R256), and the trace identifier that completes with it, given with one of
the four lanes (R254). -/
inductive MarkerIn where
  | marker (lane : Fin 4) (blockOk : Bool) (trace : Option (BitVec 128))
  | absent
  deriving DecidableEq, Repr

/-- A TICK block (R249). -/
structure TickIn where
  dev : Fin 4
  count : Nat
  frame : Nat
  fault : Bool
  master : Bool
  deriving DecidableEq, Repr

/-- A party that recovery may fence: an owner tag of R203, or a scope of R322. -/
inductive Party where
  | ctx (c : CtxId)
  | engine (k : Fin 16) (e : Fin 33)
  | cluster (k : Fin 16)
  | port (p : Fin 32)
  | link (m : Fin 3)
  | tag (t : Nat)
  deriving DecidableEq, Repr

/-- The straps sampled at power good (R301, R341), and the level that TEST_EN is tied to (R333). -/
structure Straps where
  devId : Fin 4
  meshEn : Bool
  bootSrc : Fin 4
  testEn : Bool
  deriving DecidableEq, Repr

/-- The commands: one constructor per row of opcode_table.json, in its order. Each docstring names the row's rule. -/
inductive Instr where
  /-- R10. -/
  | registerWrite (o : Origin) (addr : Nat) (data : Word)
  /-- R10. -/
  | readClearAccess (o : Origin) (addr : Nat)
  /-- R71. -/
  | counterLowRead (o : Origin) (addr : Nat)
  /-- R281. -/
  | bitSetAliasWrite (o : Origin) (addr : Nat) (data : Word)
  /-- R281. -/
  | bitClearAliasWrite (o : Origin) (addr : Nat) (data : Word)
  /-- R9. -/
  | unalignedAccess (o : Origin) (addr size : Nat) (write : Bool)
  /-- R282. -/
  | unmappedAccess (o : Origin) (addr : Nat) (write : Option Word)
  /-- R349. -/
  | pageEnable (o : Origin) (base : Nat) (data : Word)
  /-- R21. -/
  | blockReset (o : Origin) (base : Nat)
  /-- R10. -/
  | pageLock (o : Origin) (base : Nat) (data : Word)
  /-- R324. -/
  | errInjectArm (o : Origin) (base : Nat) (data : Word)
  /-- R19. -/
  | timedActionFire (i : Nat)
  /-- R5. -/
  | frameBoundary (pulls : List Pull)
  /-- R70. -/
  | gridSecond
  /-- R31. -/
  | grefLost (b : Bool)
  /-- R31. -/
  | ppsLost (b : Bool)
  /-- R31. -/
  | refQualified (input : Fin 4)
  /-- R346. -/
  | ppsEdge (b : Bool) (freqPpt phase : Int)
  /-- R35. -/
  | stepCmd (o : Origin) (data : Word)
  /-- R35. -/
  | stepApply
  /-- R40. -/
  | nowRead (o : Origin) (pairs : List (Pos × Pos))
  /-- R40. -/
  | todNowRead (o : Origin) (pairs : List (Pos × Pos))
  /-- R50. -/
  | nsNowRead (o : Origin) (pairs : List (Pos × Pos))
  /-- R42. -/
  | baseCommit (o : Origin) (data : Word)
  /-- R42. -/
  | todBaseApply
  /-- R44. -/
  | todMessage (bytes : List Byte)
  /-- R51. -/
  | captureEdge (i : Fin 10) (rising : Bool)
  /-- R51. -/
  | capFifoRead (o : Origin)
  /-- R57. -/
  | ploamPush (o : Origin) (p : Fin 32) (c : Fin 3)
  /-- R57. -/
  | ploamPushRetry (p : Fin 32) (c : Fin 3)
  /-- R58. -/
  | burstReceive (p : Fin 32) (c : Fin 3) (b : BurstIn)
  /-- R113. -/
  | eqdRetry (p : Fin 32) (i : Fin 512)
  /-- R61. -/
  | reasmTimeout (x : Fin 262144)
  /-- R62. -/
  | xpRead (o : Origin) (p : Fin 32)
  /-- R62. -/
  | xpWrite (o : Origin) (p : Fin 32)
  /-- R62. -/
  | xpInvalidate (o : Origin) (p : Fin 32)
  /-- R72. -/
  | onuRead (o : Origin) (p : Fin 32)
  /-- R350. -/
  | onuWrite (o : Origin) (p : Fin 32)
  /-- R72. -/
  | onuCounterClear (o : Origin) (p : Fin 32)
  /-- R71. -/
  | cntClr (o : Origin) (base : Nat)
  /-- R358. -/
  | keySwGo (o : Origin) (p : Fin 32) (c : Fin 3)
  /-- R64. -/
  | keySwitch (p : Fin 32) (c : Fin 3)
  /-- R65. -/
  | keyGraceEnd (p : Fin 32) (i : Fin 512)
  /-- R76. -/
  | profileWrite (o : Origin) (p : Fin 32) (c : Fin 3) (j : Fin 4) (w : Fin 9) (data : Word)
  /-- R80. -/
  | brstPulse (p : Fin 32) (c : Fin 3)
  /-- R88. -/
  | phasePreload (p : Fin 32) (c : Fin 3)
  /-- R86. -/
  | phaseWriteBack (p : Fin 32) (c : Fin 3) (i : Fin 512) (phase : Fin 256) (peak : Fin 32)
  /-- R81. -/
  | sdLevelChange (p : Fin 32) (c : Fin 3) (level : Bool) (samples : Nat)
  /-- R82. -/
  | rssiGo (o : Origin) (p : Fin 32) (c : Fin 3)
  /-- R82. -/
  | rssiPulse (p : Fin 32) (c : Fin 3)
  /-- R93. -/
  | darkSlotTest (p : Fin 32) (c : Fin 3) (sdHigh : Bool) (lightRun : Nat)
  /-- R90. -/
  | pmRead (o : Origin) (p : Fin 32) (c : Fin 3)
  /-- R90. -/
  | pmWrite (o : Origin) (p : Fin 32) (c : Fin 3) (conflict : Bool)
  /-- R89. -/
  | pmInvalidate (o : Origin) (p : Fin 32) (c : Fin 3)
  /-- R96. -/
  | reachWrite (o : Origin) (p : Fin 32) (c : Fin 3) (off : Nat) (data : Word)
  /-- R109. -/
  | surveyWindowClose (p : Fin 32) (c : Fin 3) (lightUnaccounted badMessage : Bool)
  /-- R108. -/
  | snResponse (p : Fin 32) (c : Fin 3) (sn : BitVec 64) (hp : Int)
  /-- R100. -/
  | rangingGrantDue (p : Fin 32) (i : Fin 512)
  /-- R111. -/
  | rangingResponse (p : Fin 32) (i : Fin 512) (captureNs : BitVec 32) (captureFrac : BitVec 8)
  /-- R100. -/
  | rangingWindowClose (p : Fin 32) (i : Fin 512)
  /-- R100. -/
  | registrationReceived (p : Fin 32) (i : Fin 512) (id : BitVec 288)
  /-- R100. -/
  | registerTimeout (p : Fin 32) (i : Fin 512)
  /-- R115. -/
  | popupExpire (p : Fin 32) (i : Fin 512)
  /-- R116. -/
  | rgRead (o : Origin) (p : Fin 32) (c : Fin 3)
  /-- R355. -/
  | rgSetEqd (o : Origin) (p : Fin 32) (c : Fin 3) (conflict : Bool)
  /-- R355. -/
  | rgRerange (o : Origin) (p : Fin 32) (c : Fin 3)
  /-- R123. -/
  | mapInputDeadline (p : Fin 32) (c : Fin 3)
  /-- R124. -/
  | mapSealed (p : Fin 32) (c : Fin 3) (buildGt : Nat)
  /-- R122. -/
  | mapOutput (p : Fin 32) (c : Fin 3)
  /-- R120. -/
  | adRead (o : Origin) (p : Fin 32) (c : Fin 3)
  /-- R120. -/
  | adWrite (o : Origin) (p : Fin 32) (c : Fin 3)
  /-- R136. -/
  | adClearGranted (o : Origin) (p : Fin 32) (c : Fin 3)
  /-- R136. -/
  | obRead (o : Origin) (p : Fin 32) (c : Fin 3)
  /-- R136. -/
  | obWrite (o : Origin) (p : Fin 32) (c : Fin 3)
  /-- R133. -/
  | tplLoad (o : Origin) (p : Fin 32)
  /-- R134. -/
  | tplStop (o : Origin) (p : Fin 32)
  /-- R134. -/
  | tplBegin (p : Fin 32) (t : Fin 16)
  /-- R132. -/
  | entRead (o : Origin) (p : Fin 32)
  /-- R132. -/
  | entWrite (o : Origin) (p : Fin 32)
  /-- R147. -/
  | grpRead (o : Origin) (p : Fin 32)
  /-- R137. -/
  | grpWrite (o : Origin) (p : Fin 32)
  /-- R147. -/
  | grpCounterClear (o : Origin) (p : Fin 32)
  /-- R143. -/
  | bondFragmentArrive (p : Fin 32) (c : Fin 3) (portId : Nat) (hdr : FragHdr) (len : Nat) (mapFrame : Nat)
  /-- R144. -/
  | bondGapDeadline (p : Fin 32) (g : Fin 64)
  /-- R146. -/
  | memberFallback (p : Fin 32) (g : Fin 64)
  /-- R146. -/
  | groupDown (p : Fin 32) (g : Fin 64)
  /-- R146. -/
  | memberRejoin (p : Fin 32) (g : Fin 64)
  /-- R160. -/
  | packetLanding (src : Fin 17440) (dir : Dir) (len : Nat) (bytes : List Byte)
  /-- R159. -/
  | packetDispatch
  /-- R151. -/
  | aluOperation (x : CtxId)
  /-- R152. -/
  | seqGo (x : CtxId)
  /-- R156. -/
  | seqWait (x : CtxId)
  /-- R152. -/
  | seqBr (x : CtxId)
  /-- R152. -/
  | seqCall (x : CtxId)
  /-- R152. -/
  | seqRet (x : CtxId)
  /-- R152. -/
  | seqMway (x : CtxId)
  /-- R152. -/
  | seqLoop (x : CtxId)
  /-- R152. -/
  | seqDone (x : CtxId)
  /-- R152. -/
  | seqDrop (x : CtxId)
  /-- R152. -/
  | seqPunt (x : CtxId)
  /-- R152. -/
  | seqTrap (x : CtxId)
  /-- R151. -/
  | scratchRead (x : CtxId)
  /-- R150. -/
  | scratchWrite (x : CtxId) (conflict : Bool)
  /-- R150. -/
  | scratchFetchAdd (x : CtxId)
  /-- R175. -/
  | tblLegendMatch (x : CtxId)
  /-- R183. -/
  | tblGztLookup (x : CtxId)
  /-- R184. -/
  | tblGztLearn (x : CtxId)
  /-- R184. -/
  | tblGztRefresh (x : CtxId)
  /-- R184. -/
  | tblGztDelete (x : CtxId)
  /-- R151. -/
  | tblStateRead (x : CtxId)
  /-- R151. -/
  | tblStateWrite (x : CtxId)
  /-- R226. -/
  | cipCmac (x : CtxId)
  /-- R226. -/
  | cipCmacVerify (x : CtxId)
  /-- R226. -/
  | cipKeyDerive (x : CtxId)
  /-- R226. -/
  | cipRandom (x : CtxId)
  /-- R226. -/
  | cipKcv (x : CtxId)
  /-- R226. -/
  | cipStatus (x : CtxId)
  /-- R226. -/
  | cipInvalidate (x : CtxId)
  /-- R200. -/
  | bpmAllocate (x : CtxId)
  /-- R199. -/
  | bpmAllocateRepl (x : CtxId)
  /-- R204. -/
  | bpmFree (x : CtxId)
  /-- R203. -/
  | bpmRefInc (x : CtxId)
  /-- R203. -/
  | bpmRefDec (x : CtxId)
  /-- R203. -/
  | bpmPassOwnership (x : CtxId)
  /-- R206. -/
  | tmqEnqueue (x : CtxId)
  /-- R206. -/
  | tmqEnqueueReplica (x : CtxId)
  /-- R151. -/
  | tmqReadLevel (x : CtxId)
  /-- R213. -/
  | tmqReadBpLevel (x : CtxId)
  /-- R151. -/
  | tmqDequeue (x : CtxId)
  /-- R151. -/
  | hdrReplace (x : CtxId)
  /-- R151. -/
  | hdrInsert (x : CtxId)
  /-- R151. -/
  | hdrRemove (x : CtxId)
  /-- R151. -/
  | hdrPushTag (x : CtxId)
  /-- R151. -/
  | hdrPopTag (x : CtxId)
  /-- R151. -/
  | hdrSetLength (x : CtxId)
  /-- R151. -/
  | counterBump (x : CtxId)
  /-- R151. -/
  | microcodeEvent (x : CtxId)
  /-- R151. -/
  | flagSet (x : CtxId)
  /-- R151. -/
  | flagClear (x : CtxId)
  /-- R151. -/
  | flagToggle (x : CtxId)
  /-- R154. -/
  | unitCompletion (x : CtxId) (u : EngUnit)
  /-- R156. -/
  | waitConditionMet (x : CtxId)
  /-- R156. -/
  | waitTimeout (x : CtxId)
  /-- R157. -/
  | watchdog (x : CtxId)
  /-- R157. -/
  | runOver (x : CtxId)
  /-- R161. -/
  | reorderRelease (src : Fin 17440)
  /-- R163. -/
  | ucsLoadWord (o : Origin) (k : Fin 16) (data : Word)
  /-- R169. -/
  | ucsReadWord (o : Origin) (k : Fin 16) (data : Word)
  /-- R164. -/
  | swapCmd (o : Origin) (k : Fin 16)
  /-- R164. -/
  | swapDone (k : Fin 16)
  /-- R165. -/
  | spareRetire (o : Origin) (k : Fin 16) (e : Fin 32)
  /-- R165. -/
  | spareReinstate (o : Origin) (k : Fin 16) (e : Fin 32)
  /-- R165. -/
  | engineDrained (k : Fin 16) (e : Fin 33)
  /-- R166. -/
  | engineLost (k : Fin 16) (e : Fin 33)
  /-- R23. -/
  | roleMapWrite (o : Origin) (data : Word)
  /-- R167. -/
  | roleChangeApply
  /-- R178. -/
  | lgdRuleRead (o : Origin)
  /-- R178. -/
  | lgdRuleWrite (o : Origin)
  /-- R178. -/
  | lgdRuleInvalidate (o : Origin)
  /-- R179. -/
  | lgdMoveBlock (o : Origin)
  /-- R179. -/
  | lgdMoveDone
  /-- R190. -/
  | lgdHitClear (o : Origin)
  /-- R174. -/
  | vidSliceRead (o : Origin)
  /-- R174. -/
  | vidSliceWrite (o : Origin)
  /-- R184. -/
  | learnArbitration
  /-- R187. -/
  | relocGuardExpire (b : Nat)
  /-- R188. -/
  | ageEpoch
  /-- R190. -/
  | gztLookupCmd (o : Origin)
  /-- R186. -/
  | gztInsert (o : Origin)
  /-- R190. -/
  | gztDeleteCmd (o : Origin)
  /-- R190. -/
  | gztReadSlot (o : Origin)
  /-- R190. -/
  | gztFlushDomain (o : Origin)
  /-- R190. -/
  | gztFlushDest (o : Origin)
  /-- R190. -/
  | gztBulkDone
  /-- R185. -/
  | gztThaw (o : Origin)
  /-- R189. -/
  | gztSetDomainOwner (o : Origin)
  /-- R215. -/
  | queueRead (o : Origin)
  /-- R205. -/
  | queueWrite (o : Origin)
  /-- R215. -/
  | queueCounterClear (o : Origin)
  /-- R191. -/
  | tmqOnuRead (o : Origin)
  /-- R191. -/
  | tmqOnuWrite (o : Origin)
  /-- R215. -/
  | nodeRead (o : Origin)
  /-- R196. -/
  | nodeWrite (o : Origin)
  /-- R197. -/
  | nodeSettle (o : Origin)
  /-- R198. -/
  | settleEnd (level : Fin 5) (node : Nat)
  /-- R193. -/
  | uplinkEgressPull (q : Fin 24) (ptp : PtpKind)
  /-- R208. -/
  | prefetchMove (q : Fin 65536)
  /-- R210. -/
  | spillWrite
  /-- R201. -/
  | bufferWaitGrant (pool : Fin 4)
  /-- R211. -/
  | cxlMigrate (o : Origin) (x : Fin 4)
  /-- R211. -/
  | cxlCancel (o : Origin) (x : Fin 4)
  /-- R211. -/
  | cxlLinkDown (o : Origin) (x : Fin 4)
  /-- R246. -/
  | cxlLinkUp (o : Origin) (x : Fin 4) (capGib : Nat)
  /-- R246. -/
  | cxlTrainTimeout (x : Fin 4)
  /-- R211. -/
  | migrationDone (x : Fin 4)
  /-- R212. -/
  | expanderLinkLost (x : Fin 4)
  /-- R247. -/
  | stackFail (stack : Fin 4)
  /-- R231. -/
  | keyRead (o : Origin)
  /-- R217. -/
  | keyWrite (o : Origin) (conflict : Bool)
  /-- R217. -/
  | keyInvalidate (o : Origin)
  /-- R231. -/
  | saRead (o : Origin) (q : Fin 24)
  /-- R224. -/
  | saWrite (o : Origin) (q : Fin 24)
  /-- R231. -/
  | saInvalidate (o : Origin) (q : Fin 24)
  /-- R225. -/
  | txAnSwitch (q : Fin 24)
  /-- R227. -/
  | tamperAlarm (alarm : Fin 6)
  /-- R227. -/
  | keyZeroize (o : Origin) (data : Word)
  /-- R238. -/
  | uplinkReceiveFrame (q : Fin 24) (f : UplinkIn)
  /-- R239. -/
  | xoffRefresh (q : Fin 24)
  /-- R235. -/
  | marginScanGo (o : Origin) (l : Fin 268)
  /-- R235. -/
  | marginScanDone (l : Fin 268) (count : Nat)
  /-- R242. -/
  | doorbell (o : Origin) (data : Word)
  /-- R243. -/
  | h2dDescriptor (r : Fin 1024) (d : H2dDesc)
  /-- R244. -/
  | d2hDelivery (r : Fin 1024) (len bufLen : Nat)
  /-- R242. -/
  | ringCoalesceTimer (r : Fin 1024)
  /-- R245. -/
  | dmaError (r : Fin 1024) (cause : Fin 4)
  /-- R242. -/
  | ringRead (o : Origin)
  /-- R242. -/
  | ringWrite (o : Origin)
  /-- R245. -/
  | ringStart (o : Origin)
  /-- R242. -/
  | ringStop (o : Origin)
  /-- R241. -/
  | functionLevelReset (f : Fin 32)
  /-- R302. -/
  | perstDeassert
  /-- R248. -/
  | i2cRead (o : Origin) (j : Fin 8)
  /-- R248. -/
  | i2cWrite (o : Origin) (j : Fin 8)
  /-- R248. -/
  | i2cDone (j : Fin 8) (nack : Bool) (bytes : List Byte)
  /-- R248. -/
  | i2cTimeout (j : Fin 8)
  /-- R251. -/
  | alignmentMarker (m : Fin 3) (lane : Fin 4) (at_ : MarkerIn)
  /-- R252. -/
  | fillColumn (m : Fin 3) (insert : Bool)
  /-- R255. -/
  | hexcaMessageReceive (m : Fin 3) (msg : HexcaMsg)
  /-- R256. -/
  | linkDefectChange (m : Fin 3) (defect : Fin 6) (raised : Bool)
  /-- R257. -/
  | noticeResetReceive (m : Fin 3)
  /-- R258. -/
  | mirrorRead (m : Fin 3)
  /-- R268. -/
  | meshTickSend
  /-- R268. -/
  | meshTickReceive (m : Fin 3) (t : TickIn)
  /-- R268. -/
  | hbPulse (m : Fin 3) (widthGt : Nat) (offsetGt : Int)
  /-- R269. -/
  | peerFailDeclare (m : Fin 3)
  /-- R269. -/
  | darkNoticeReceive (m : Fin 3)
  /-- R264. -/
  | gmTake (o : Origin)
  /-- R264. -/
  | gmYield (o : Origin)
  /-- R263. -/
  | gmJoin (o : Origin) (force : Bool)
  /-- R279. -/
  | pairRead (o : Origin)
  /-- R265. -/
  | pairWrite (o : Origin)
  /-- R277. -/
  | pairYield (o : Origin)
  /-- R274. -/
  | pairReclaim (o : Origin)
  /-- R277. -/
  | pairResync (o : Origin)
  /-- R266. -/
  | pairClaim (o : Origin)
  /-- R266. -/
  | claimApply (p : Fin 32)
  /-- R271. -/
  | custodyTake (p : Fin 32)
  /-- R271. -/
  | laserSettleEnd (p : Fin 32)
  /-- R270. -/
  | leaseRundown (p : Fin 32)
  /-- R274. -/
  | checkWindowEnd (p : Fin 32)
  /-- R277. -/
  | syncComplete (p : Fin 32)
  /-- R277. -/
  | autoYield (p : Fin 32)
  /-- R291. -/
  | eventDeliver
  /-- R300. -/
  | evtRingRead (o : Origin)
  /-- R300. -/
  | evtRingWrite (o : Origin)
  /-- R300. -/
  | evtRingStart (o : Origin)
  /-- R300. -/
  | evtRingStop (o : Origin)
  /-- R297. -/
  | journalStream
  /-- R300. -/
  | journalRecordRead (o : Origin) (data : Word)
  /-- R299. -/
  | journalFlushDone
  /-- R293. -/
  | sliceEnWrite (o : Origin) (data : Word)
  /-- R294. -/
  | slcReadOwner (o : Origin)
  /-- R294. -/
  | slcAssign (o : Origin)
  /-- R300. -/
  | resetKey (o : Origin) (data : Word)
  /-- R300. -/
  | resetCmd (o : Origin) (data : Word)
  /-- R20. -/
  | chipReset
  /-- R301. -/
  | powerGood (st : Straps)
  /-- R303. -/
  | fuseLoadDone (groupsOk : Bool)
  /-- R305. -/
  | calibrationDone
  /-- R301. -/
  | hbmTrained (stack : Fin 4)
  /-- R310. -/
  | imageCheck (img : Image)
  /-- R308. -/
  | imageSourceTimeout
  /-- R312. -/
  | release
  /-- R307. -/
  | hostGo (o : Origin)
  /-- R307. -/
  | bootRelease (o : Origin)
  /-- R308. -/
  | meshCopyServe (m : Fin 3)
  /-- R304. -/
  | revokeKey (o : Origin) (data : Word)
  /-- R304. -/
  | revokeCmd (o : Origin) (data : Word)
  /-- R306. -/
  | calUnlock (o : Origin) (data : Word)
  /-- R306. -/
  | calUnlockTimeout
  /-- R305. -/
  | calRead (o : Origin)
  /-- R306. -/
  | calStoreWrite (o : Origin)
  /-- R306. -/
  | calReload (o : Origin)
  /-- R313. -/
  | powerFailWarning
  /-- R314. -/
  | powerWarnEnd
  /-- R314. -/
  | warnClr (o : Origin)
  /-- R338. -/
  | powerGoodFall
  /-- R317. -/
  | bankRead (o : Origin)
  /-- R316. -/
  | bankOn (o : Origin)
  /-- R317. -/
  | bankRetention (o : Origin)
  /-- R317. -/
  | bankOff (o : Origin)
  /-- R321. -/
  | faultSourceSet (src : Fin 64) (party : Option Party)
  /-- R322. -/
  | reclaim
  /-- R326. -/
  | memRegionTest (bad : Option Nat)
  /-- R325. -/
  | testStealTimeout
  /-- R326. -/
  | sweepLate
  /-- R328. -/
  | engCheck (k : Fin 16) (pass : Bool)
  /-- R329. -/
  | eyeScan (width : Fin 128)
  /-- R330. -/
  | pmcStart (o : Origin)
  /-- R330. -/
  | pmcStop (o : Origin)
  /-- R330. -/
  | pmcSnapshot (o : Origin)
  /-- R330. -/
  | pmcCounterRead (o : Origin)
  /-- R330. -/
  | pmcCounterWrite (o : Origin)
  /-- R330. -/
  | pmcGroupClear (o : Origin)
  /-- R330. -/
  | pmcGroupSnapshot (o : Origin)
  /-- R331. -/
  | traceRecordRead (o : Origin) (data : Word)
  /-- R331. -/
  | traceStream
  /-- R236. -/
  | uplinkLinkState (q : Fin 24) (up hiBer : Bool)
  /-- R240. -/
  | pcieLinkDown (up : Bool)
  /-- R233. -/
  | cdrLockChange (l : Fin 268) (locked : Bool)
  /-- R234. -/
  | prbsCheckerLock (l : Fin 268) (locked : Bool)
  /-- R211. -/
  | migrationBufferMove (x : Fin 4)
  /-- R339. -/
  | imageStageRestart
  deriving DecidableEq, Repr

end Sys2Proof
end

