-- ==== Sys2Proof/Decode.lean ====
section
/-! DEFINITION. The command that a word spells by the table's bits. No row of opcode_table.json gives bits (its rows are
register operations and events, told apart by page, offset and source, not by an encoding), so no word spells one. -/

namespace Sys2Proof

/-- The command a word of `nbits` bits spells: none, as no row of the table has bits. -/
def decodeTableWord (_nbits _w : Nat) : Option Instr := none

end Sys2Proof
end

