-- ==== Sys2Proof/Machine/RegMap.lean ====
section
/-! DEFINITION. The register map: the page types with their bases (R282), the common page header (R280), and every
field of every register table of the manual with its access code (R10), its reset value and, where the table states a
range, the values a plain write may store (R351 code 1). Words that the tables leave out read 0 (R8). -/

namespace Sys2Proof.Machine

/-- The 43 page types, in the order of their TYPE codes (R282). -/
inductive Page where
  | DEV
  | BOOT
  | FUSE
  | CAL
  | JRN
  | SLC
  | EVT
  | HST
  | FLT
  | PMC
  | TST
  | MEM
  | GRD
  | TOD
  | CAP
  | KEY
  | OPT
  | PRT
  | PON
  | CHG
  | CHX
  | CHH
  | BRX
  | RNG
  | ALC
  | TPL
  | BND
  | ENG
  | UCS
  | RDR
  | PRS
  | LGD
  | GZT
  | TMQ
  | TMS
  | BPM
  | HBM
  | CXL
  | CIP
  | MSC
  | ETH
  | SDS
  | MSH
  deriving DecidableEq, Repr

/-- The access codes of R10. `rwX` is RW on channel X and RO 0 elsewhere, `rwXH` is RW on X and H and RO 0 on G
(R116, R136). -/
inductive Acc where
  | rw | ro | wo | w1c | w1s | rc | rwl | rs | rwX | rwXH
  deriving DecidableEq, Repr

/-- One row of a register table: a field of `count` words at `off`, `off + stride`, …; `lo` and `hi` bound what a plain
write may store when `hi` is not 0. -/
structure FieldDef where
  off : Nat
  stride : Nat
  count : Nat
  lsb : Nat
  width : Nat
  acc : Acc
  rst : Nat
  lo : Nat
  hi : Nat
  deriving DecidableEq, Repr

/-- A field row without a range. -/
def fd (off stride count lsb width : Nat) (acc : Acc) (rst : Nat) : FieldDef :=
  ⟨off, stride, count, lsb, width, acc, rst, 0, 0⟩

/-- A field row with the range `lo` to `hi`. -/
def fr (off stride count lsb width : Nat) (acc : Acc) (rst lo hi : Nat) : FieldDef :=
  ⟨off, stride, count, lsb, width, acc, rst, lo, hi⟩

/-- The common page header (R280) (14_registers_journal.md). -/
def fieldsHeader : List FieldDef := [
  fd 0x0 0 1 0 4 .ro 1, fd 0x0 0 1 4 12 .ro 0, fd 0x0 0 1 16 16 .ro 0, fd 0x4 0 1 0 1 .rw 1, fd 0x4 0 1 1 1 .wo 0,
  fd 0x4 0 1 2 1 .rw 0, fd 0x4 0 1 3 1 .w1s 0, fd 0x8 0 1 0 5 .ro 0, fd 0x10 0 1 0 1 .w1c 0, fd 0x10 0 1 1 1 .w1c 0,
  fd 0x10 0 1 2 1 .w1c 0, fd 0x10 0 1 3 1 .w1c 0, fd 0x14 0 1 0 4 .rw 0, fd 0x18 0 1 0 1 .w1s 0,
  fd 0x18 0 1 1 1 .rw 0, fd 0x20 0 1 0 32 .ro 0, fd 0x24 0 1 0 1 .rw 1, fr 0x24 0 1 1 4 .rw 0 0 14,
  fd 0x24 0 1 5 4 .rw 0, fd 0x30 0 1 0 32 .rw 0, fd 0x34 0 1 0 16 .rc 0, fd 0x34 0 1 16 16 .rc 0,
  fd 0x38 0 1 0 16 .rc 0, fd 0x38 0 1 16 16 .rc 0]

/-- The block registers of DEV (14_registers_journal.md, R300). -/
def fieldsDEV : List FieldDef := [
  fd 0x40 0 1 0 16 .ro 0, fd 0x40 0 1 16 4 .ro 0, fd 0x44 0 1 0 2 .ro 0, fd 0x44 0 1 2 1 .ro 0,
  fd 0x44 0 1 3 2 .ro 0, fd 0x48 0 1 0 3 .ro 0, fd 0x4C 0 1 0 32 .rwl 2499805184, fd 0x50 0 1 0 32 .wo 0,
  fd 0x54 0 1 0 1 .wo 0, fd 0x58 4 2 0 32 .ro 0, fd 0x70 0 1 0 3 .w1c 0, fd 0xC0 4 3 0 16 .rc 0]

/-- The block registers of BOOT (15_startup_update.md, R318). -/
def fieldsBOOT : List FieldDef := [
  fd 0x40 0 1 0 2 .ro 0, fd 0x40 0 1 2 3 .ro 0, fd 0x40 0 1 5 3 .ro 0, fd 0x44 0 1 0 32 .ro 0,
  fd 0x48 0 1 0 32 .ro 0, fd 0x4C 0 1 0 32 .ro 0, fd 0x50 0 1 0 16 .ro 0, fd 0x54 0 1 2 30 .rw 0,
  fd 0x58 0 1 0 32 .rw 0, fd 0x5C 0 1 0 25 .rw 0, fd 0x60 0 1 0 1 .wo 0, fd 0x60 0 1 1 1 .wo 0,
  fd 0x60 0 1 2 1 .wo 0, fd 0x64 0 1 0 1 .rw 1, fd 0x64 0 1 1 1 .ro 0, fd 0x64 0 1 2 1 .ro 0, fd 0x68 0 1 0 20 .ro 0,
  fd 0x70 0 1 0 6 .w1c 0, fd 0xC0 4 6 0 16 .rc 0]

/-- The block registers of FUSE (15_startup_update.md, R318). -/
def fieldsFUSE : List FieldDef := [
  fd 0x40 0 1 0 1 .ro 0, fd 0x40 0 1 1 1 .ro 0, fd 0x40 0 1 2 2 .ro 0, fd 0x40 0 1 4 2 .ro 0, fd 0x44 0 1 0 13 .ro 0,
  fd 0x48 0 1 0 8 .ro 0, fd 0x48 0 1 8 8 .ro 0, fd 0x4C 0 1 0 32 .wo 0, fd 0x50 0 1 0 1 .wo 0, fd 0x50 0 1 1 1 .wo 0,
  fd 0x70 0 1 0 3 .w1c 0, fd 0x100 4 12 0 32 .ro 0, fd 0x140 4 12 0 32 .ro 0, fd 0xC0 4 3 0 16 .rc 0]

/-- The block registers of CAL (15_startup_update.md, R318). -/
def fieldsCAL : List FieldDef := [
  fd 0x40 0 1 0 1 .ro 0, fd 0x40 0 1 1 1 .ro 0, fd 0x44 0 1 0 32 .wo 0, fr 0x48 0 1 0 3 .rw 0 0 6,
  fd 0x48 0 1 3 10 .rw 0, fd 0x4C 0 1 0 2 .wo 0, fd 0x50 0 1 0 3 .ro 0, fd 0x54 0 1 0 32 .rw 0,
  fd 0x58 0 1 0 32 .rw 0, fd 0x70 0 1 0 3 .w1c 0, fd 0xC0 4 3 0 16 .rc 0]

/-- The block registers of JRN (14_registers_journal.md, R300). -/
def fieldsJRN : List FieldDef := [
  fd 0x40 0 1 0 1 .rw 0, fr 0x40 0 1 1 5 .rw 16 10 20, fd 0x44 0 1 12 20 .rw 0, fd 0x48 0 1 0 32 .rw 0,
  fd 0x4C 0 1 3 29 .rw 0, fd 0x50 0 1 0 32 .rw 0, fd 0x54 0 1 0 20 .rw 0, fd 0x58 0 1 0 32 .rs 0,
  fd 0x5C 0 1 0 16 .rs 0, fd 0x60 0 1 0 32 .rs 0, fd 0x64 0 1 0 16 .rs 0, fd 0x70 0 1 0 3 .w1c 0,
  fd 0x80 0 1 0 1 .rw 0, fd 0x80 0 1 1 12 .rw 0, fd 0x84 0 1 0 1 .ro 0, fd 0x84 0 1 1 2 .ro 0, fd 0x84 0 1 3 1 .ro 0,
  fd 0x88 0 1 0 32 .ro 0, fd 0x8C 0 1 0 16 .ro 0, fd 0x90 0 1 0 32 .ro 0, fd 0x94 0 1 0 16 .ro 0,
  fd 0x98 4 2 0 32 .ro 0, fd 0x100 4 8 0 32 .ro 0, fd 0x140 0 1 0 16 .rw 0, fd 0x180 4 8 0 32 .rs 0,
  fd 0xC0 4 3 0 16 .rc 0]

/-- The block registers of SLC (14_registers_journal.md, R300). -/
def fieldsSLC : List FieldDef := [
  fd 0x40 0 1 0 32 .rw 1, fd 0x70 0 1 0 2 .w1c 0, fd 0x80 0 1 0 2 .rw 0, fd 0x80 0 1 2 14 .rw 0,
  fd 0x80 0 1 16 5 .rw 0, fd 0x84 0 1 0 2 .wo 0, fd 0x88 0 1 0 2 .ro 0, fd 0x100 4 32 0 32 .rc 0,
  fd 0xC0 4 2 0 16 .rc 0]

/-- The block registers of EVT (14_registers_journal.md, R300). -/
def fieldsEVT : List FieldDef := [
  fd 0x40 0 1 0 14 .ro 0, fd 0x70 0 1 0 2 .w1c 0, fd 0x80 0 1 0 5 .rw 0, fr 0x80 0 1 5 4 .rw 0 0 14,
  fd 0x84 0 1 0 2 .wo 0, fd 0x88 0 1 0 2 .ro 0, fd 0x8C 0 1 0 5 .rw 6, fd 0x8C 0 1 5 1 .ro 0, fd 0x8C 0 1 8 8 .rw 1,
  fd 0x8C 0 1 16 16 .rw 0, fd 0x90 0 1 12 20 .rw 0, fd 0x94 0 1 0 32 .rw 0, fd 0x98 0 1 3 29 .rw 0,
  fd 0x9C 0 1 0 32 .rw 0, fd 0xA0 0 1 0 16 .rw 0, fd 0xA0 0 1 16 16 .ro 0, fd 0xA4 0 1 0 32 .rc 0,
  fd 0xC0 4 2 0 16 .rc 0]

/-- The block registers of HST (12_external_links.md, R260). -/
def fieldsHST : List FieldDef := [
  fd 0x40 0 1 0 3 .ro 0, fd 0x40 0 1 4 4 .ro 0, fd 0x40 0 1 8 1 .ro 0, fd 0x44 0 1 0 6 .ro 0, fd 0x48 0 1 0 10 .wo 0,
  fd 0x48 0 1 10 16 .wo 0, fd 0x4C 0 1 0 16 .ro 0, fd 0x70 0 1 0 6 .w1c 0, fd 0x80 0 1 0 10 .rw 0,
  fd 0x84 0 1 0 3 .wo 0, fd 0x88 0 1 0 3 .ro 0, fd 0x8C 0 1 0 1 .rw 0, fd 0x8C 0 1 1 5 .rw 6, fd 0x8C 0 1 6 2 .ro 0,
  fd 0x8C 0 1 8 8 .rw 16, fd 0x8C 0 1 16 16 .rw 8, fd 0x90 0 1 12 20 .rw 0, fd 0x94 0 1 0 32 .rw 0,
  fd 0x98 0 1 3 29 .rw 0, fd 0x9C 0 1 0 32 .rw 0, fd 0xA0 0 1 0 16 .ro 0, fd 0xA0 0 1 16 16 .ro 0,
  fd 0xA4 0 1 0 3 .ro 0, fd 0x100 4 8 0 32 .rs 0, fd 0xC0 4 6 0 16 .rc 0]

/-- The block registers of FLT (16_faults_test.md, R332). -/
def fieldsFLT : List FieldDef := [
  fd 0x40 4 2 0 32 .w1c 0, fr 0x48 0 1 0 7 .rw 110 85 120, fd 0x4C 0 1 0 1 .ro 0, fd 0x4C 0 1 1 7 .ro 0,
  fd 0x4C 0 1 8 1 .ro 0, fd 0x4C 0 1 9 1 .ro 0, fd 0x60 0 1 0 6 .ro 0, fd 0x60 0 1 16 16 .ro 0,
  fd 0x64 0 1 0 32 .ro 0, fd 0x68 0 1 0 16 .ro 0, fd 0x68 0 1 16 16 .ro 0, fd 0x70 0 1 0 3 .w1c 0,
  fd 0x100 4 64 0 5 .rw 0, fd 0x310 4 32 0 32 .rc 0, fd 0xC0 4 3 0 16 .rc 0]

/-- The block registers of PMC (16_faults_test.md, R332). -/
def fieldsPMC : List FieldDef := [
  fd 0x40 0 1 0 1 .rw 0, fd 0x40 0 1 1 8 .rw 255, fr 0x44 0 1 0 16 .rw 1024 1 65535, fd 0x48 0 1 0 2 .wo 0,
  fd 0x50 0 1 0 1 .rw 0, fr 0x50 0 1 1 5 .rw 12 10 20, fd 0x54 0 1 12 20 .rw 0, fd 0x58 0 1 0 32 .rw 0,
  fd 0x5C 0 1 3 29 .rw 0, fd 0x60 0 1 0 32 .rw 0, fd 0x64 0 1 0 20 .rw 0, fd 0x68 0 1 0 14 .ro 0,
  fd 0x70 0 1 0 3 .w1c 0, fd 0x80 0 1 0 6 .rw 0, fd 0x80 0 1 6 3 .rw 0, fd 0x84 0 1 0 3 .wo 0, fd 0x88 0 1 0 2 .ro 0,
  fd 0x8C 0 1 0 12 .rw 0, fd 0x8C 0 1 12 12 .rw 4095, fd 0x8C 0 1 24 1 .rw 0, fd 0x8C 0 1 25 1 .rw 0,
  fd 0x8C 0 1 26 1 .rw 0, fd 0x90 0 1 0 32 .rs 0, fd 0x94 0 1 0 16 .rs 0, fd 0xA0 0 1 0 13 .rw 0,
  fd 0x100 4 8 0 32 .rs 0, fd 0xC0 4 3 0 16 .rc 0]

/-- The block registers of TST (16_faults_test.md, R332). -/
def fieldsTST : List FieldDef := [
  fd 0x40 0 1 0 1 .rw 1, fd 0x40 0 1 1 1 .rw 1, fd 0x40 0 1 2 1 .rw 1, fr 0x44 0 1 0 16 .rw 2048 1 65535,
  fr 0x44 0 1 16 16 .rw 8000 1 65535, fr 0x48 0 1 0 16 .rw 8000 1 65535, fr 0x48 0 1 16 16 .rw 4096 256 65535,
  fd 0x4C 0 1 0 6 .rw 16, fd 0x50 0 1 0 18 .ro 0, fd 0x54 0 1 0 32 .ro 0, fd 0x58 0 1 0 4 .ro 0,
  fd 0x58 0 1 4 6 .ro 0, fd 0x5C 0 1 0 9 .ro 192, fd 0x5C 0 1 9 7 .ro 0, fd 0x70 0 1 0 8 .w1c 0,
  fr 0x80 0 1 0 11 .rw 0 0 1279, fd 0x84 0 1 0 3 .ro 0, fd 0xC0 4 8 0 16 .rc 0]

/-- The block registers of MEM (15_startup_update.md, R318). -/
def fieldsMEM : List FieldDef := [
  fd 0x40 0 1 0 11 .ro 0, fd 0x40 0 1 16 11 .ro 0, fd 0x44 0 1 0 11 .ro 0, fd 0x70 0 1 0 2 .w1c 0,
  fr 0x80 0 1 0 11 .rw 0 0 1279, fd 0x84 0 1 0 3 .wo 0, fd 0x88 0 1 0 2 .ro 0, fd 0x8C 0 1 0 2 .ro 0,
  fd 0x8C 0 1 2 16 .ro 0, fd 0x8C 0 1 18 1 .ro 0, fd 0x8C 0 1 19 3 .ro 0, fd 0xC0 4 2 0 16 .rc 0]

/-- The block registers of GRD (02_graticule.md, R51). -/
def fieldsGRD : List FieldDef := [
  fd 0x40 0 1 0 2 .rwl 0, fd 0x40 0 1 2 1 .rwl 1, fd 0x40 0 1 3 1 .rwl 0, fd 0x40 0 1 4 1 .rwl 0,
  fr 0x40 0 1 8 8 .rwl 10 1 255, fd 0x44 0 1 0 3 .ro 0, fd 0x44 0 1 3 1 .ro 0, fd 0x44 0 1 4 4 .ro 0,
  fd 0x44 0 1 8 1 .ro 0, fd 0x48 0 1 0 1 .w1c 0, fd 0x48 0 1 1 1 .w1c 0, fd 0x48 0 1 2 1 .w1c 0,
  fd 0x48 0 1 3 1 .w1c 0, fd 0x48 0 1 4 1 .w1c 0, fd 0x48 0 1 5 1 .w1c 0, fd 0x48 0 1 6 1 .w1c 0,
  fd 0x48 0 1 7 1 .w1c 0, fr 0x4C 0 1 0 9 .rwl 80 1 398, fr 0x50 0 1 0 15 .rwl 0 0 19439,
  fr 0x54 0 1 0 8 .rw 64 1 255, fd 0x58 0 1 0 32 .ro 0, fd 0x5C 0 1 0 32 .ro 0, fd 0x60 0 1 0 24 .wo 0,
  fd 0x60 0 1 24 1 .wo 0, fd 0x70 0 1 0 8 .rs 0, fd 0x70 0 1 8 15 .rs 0, fd 0x70 0 1 23 1 .rs 0,
  fd 0x70 0 1 24 1 .rs 0, fd 0x74 0 1 0 32 .rs 0, fd 0x78 0 1 0 19 .rs 0, fd 0xC0 4 8 0 16 .rc 0]

/-- The block registers of TOD (02_graticule.md, R51). -/
def fieldsTOD : List FieldDef := [
  fd 0x40 0 1 0 1 .rw 0, fd 0x40 0 1 1 1 .rw 0, fd 0x40 0 1 2 1 .rw 0, fd 0x44 0 1 0 1 .w1c 0,
  fd 0x44 0 1 1 1 .w1c 0, fd 0x44 0 1 2 1 .w1c 0, fd 0x44 0 1 3 1 .w1c 0, fd 0x44 0 1 4 1 .w1c 0,
  fd 0x48 0 1 0 16 .ro 0, fd 0x48 0 1 16 2 .ro 0, fd 0x48 0 1 18 1 .ro 0, fd 0x48 0 1 19 1 .ro 0,
  fd 0x50 0 1 0 32 .rw 0, fd 0x54 0 1 0 19 .rw 0, fd 0x58 0 1 0 32 .rw 0, fd 0x5C 0 1 0 16 .rw 0,
  fd 0x60 0 1 0 32 .rw 0, fd 0x64 0 1 0 16 .rw 0, fd 0x68 0 1 0 1 .wo 0, fd 0x70 0 1 0 16 .rs 0,
  fd 0x74 0 1 0 32 .rs 0, fd 0x78 0 1 0 32 .rs 0, fd 0x7C 0 1 0 16 .rs 0, fd 0x100 4 24 0 1 .rw 0,
  fd 0x100 4 24 1 1 .rw 0, fd 0x100 4 24 2 2 .rw 0, fd 0x100 4 24 4 1 .rw 0, fd 0xC0 4 5 0 16 .rc 0]

/-- The block registers of CAP (02_graticule.md, R51). -/
def fieldsCAP : List FieldDef := [
  fd 0x40 8 10 0 2 .rw 0, fd 0x40 8 10 2 1 .rw 0, fd 0x44 8 10 0 5 .ro 0, fd 0x44 8 10 5 1 .w1c 0,
  fd 0x44 8 10 6 1 .w1c 0, fd 0xC0 4 10 0 16 .rc 0, fd 0xC0 4 10 16 16 .rc 0, fd 0x90 0 1 0 4 .rw 0,
  fd 0x94 0 1 0 8 .rs 0, fd 0x94 0 1 8 15 .rs 0, fd 0x94 0 1 23 1 .rs 0, fd 0x94 0 1 24 1 .rs 0,
  fd 0x98 0 1 0 32 .rs 0, fd 0x9C 0 1 0 19 .rs 0, fd 0xB0 0 1 0 32 .rs 0, fd 0xB4 0 1 0 32 .rs 0]

/-- The block registers of KEY (11_cipher.md, R231). -/
def fieldsKEY : List FieldDef := [
  fd 0x80 0 1 0 14 .rw 0, fr 0x80 0 1 14 2 .rw 0 0 2, fd 0x80 0 1 16 2 .rw 0, fd 0x84 0 1 0 2 .wo 0,
  fd 0x88 0 1 0 5 .ro 0, fd 0x8C 0 1 0 2 .rw 0, fd 0x90 0 1 0 32 .rw 0, fd 0x94 0 1 0 16 .rw 0,
  fd 0x98 0 1 0 32 .rw 0, fd 0x9C 0 1 0 16 .rw 0, fd 0xA0 0 1 0 32 .ro 0, fd 0xA4 0 1 0 16 .ro 0,
  fd 0xA8 0 1 0 24 .ro 0, fd 0xB0 0 1 0 2 .ro 0, fd 0x100 4 8 0 32 .wo 0, fd 0x180 4 8 0 32 .rs 0,
  fd 0x70 0 1 0 6 .w1c 0, fd 0xC0 4 6 0 16 .rc 0]

/-- The block registers of OPT (12_external_links.md, R260). -/
def fieldsOPT : List FieldDef := [
  fd 0x40 0 1 0 8 .rw 255, fd 0x40 0 1 8 8 .rw 0, fd 0x40 0 1 16 7 .rw 112, fr 0x44 0 1 0 8 .rw 25 1 255,
  fd 0x70 0 1 0 4 .w1c 0, fd 0x80 16 8 0 5 .rw 0, fd 0x80 16 8 5 7 .rw 80, fd 0x80 16 8 12 8 .rw 0,
  fr 0x80 16 8 20 6 .rw 1 1 32, fd 0x80 16 8 26 1 .rw 0, fd 0x84 16 8 0 8 .rw 0, fd 0x84 16 8 8 8 .rw 0,
  fd 0x88 16 8 0 2 .wo 0, fd 0x8C 16 8 0 5 .ro 0, fd 0x200 32 8 0 32 .rw 0, fd 0x204 32 8 0 32 .rw 0,
  fd 0x208 32 8 0 32 .rw 0, fd 0x20C 32 8 0 32 .rw 0, fd 0x210 32 8 0 32 .rw 0, fd 0x214 32 8 0 32 .rw 0,
  fd 0x218 32 8 0 32 .rw 0, fd 0x21C 32 8 0 32 .rw 0]

/-- The block registers of PRT (13_mesh_protection.md, R279). -/
def fieldsPRT : List FieldDef := [
  fr 0x40 0 1 0 2 .rwl 0 0 2, fd 0x40 0 1 2 1 .rw 0, fd 0x44 0 1 0 2 .ro 0, fd 0x44 0 1 2 2 .ro 0,
  fd 0x44 0 1 4 2 .ro 3, fd 0x44 0 1 6 1 .ro 0, fd 0x48 0 1 0 32 .ro 0, fd 0x4C 0 1 0 32 .ro 0,
  fd 0x50 0 1 0 2 .wo 0, fd 0x50 0 1 2 1 .wo 0, fd 0x54 0 1 0 3 .rw 7, fr 0x54 0 1 3 4 .rw 8 0 8,
  fr 0x54 0 1 7 5 .rw 16 1 31, fd 0x54 0 1 12 1 .rw 1, fd 0x58 0 1 0 3 .ro 0, fd 0x58 0 1 3 3 .ro 0,
  fd 0x58 0 1 6 3 .ro 0, fd 0x70 0 1 0 15 .w1c 0, fd 0x80 0 1 0 5 .rw 0, fd 0x84 0 1 0 3 .wo 0,
  fd 0x88 0 1 0 1 .ro 0, fd 0x88 0 1 1 1 .ro 0, fd 0x8C 0 1 0 1 .rw 0, fd 0x8C 0 1 1 1 .rw 0, fd 0x8C 0 1 2 5 .rw 0,
  fd 0x8C 0 1 7 2 .rw 0, fd 0x8C 0 1 9 1 .rw 0, fd 0x8C 0 1 10 1 .rw 0, fd 0x8C 0 1 11 3 .ro 0,
  fd 0x8C 0 1 14 1 .ro 0, fd 0x90 0 1 0 9 .rw 32, fd 0x90 0 1 16 9 .ro 0, fd 0x94 0 1 0 24 .rw 0,
  fd 0x98 0 1 0 32 .ro 0, fd 0x9C 0 1 0 32 .ro 0, fd 0xA0 0 1 0 8 .rw 4, fd 0xC0 4 15 0 16 .rc 0]

/-- The block registers of PON (03_pon_channels.md, R72). -/
def fieldsPON : List FieldDef := [
  fd 0x40 0 1 0 3 .rw 0, fd 0x44 0 1 0 10 .ro 0, fr 0x48 0 1 0 4 .rw 5 3 8, fr 0x48 0 1 4 4 .rw 8 4 9,
  fr 0x4C 0 1 0 7 .rw 30 1 100, fd 0x4C 0 1 7 1 .rw 1, fd 0x50 0 1 0 9 .rw 0, fd 0x54 0 1 0 2 .wo 0,
  fd 0x58 0 1 0 1 .ro 0, fd 0x58 0 1 1 1 .ro 0, fd 0x58 0 1 2 1 .ro 0, fd 0x60 0 1 0 1 .w1c 0,
  fd 0x60 0 1 1 1 .w1c 0, fd 0x60 0 1 2 1 .w1c 0, fd 0x60 0 1 3 1 .w1c 0, fd 0x60 0 1 4 1 .w1c 0,
  fd 0x100 0 1 0 2 .rw 0, fd 0x100 0 1 2 10 .rw 0, fd 0x100 0 1 12 4 .ro 0, fd 0x100 0 1 16 2 .rw 0,
  fd 0x100 0 1 18 12 .ro 0, fd 0x100 0 1 30 1 .rw 0, fd 0x100 0 1 31 1 .ro 0, fd 0x104 4 11 0 32 .rw 0,
  fd 0x130 4 2 0 32 .ro 0, fd 0x180 4 64 0 32 .rs 0, fd 0x2C0 0 1 0 13 .rw 0, fd 0x2C4 0 1 0 2 .wo 0,
  fd 0x2C8 0 1 0 1 .ro 0, fd 0x2C8 0 1 1 1 .ro 0, fd 0x2C8 0 1 2 1 .ro 0, fd 0x2CC 0 1 0 16 .rw 0,
  fd 0x2CC 0 1 16 2 .rw 0, fd 0x2CC 0 1 18 9 .rw 0, fd 0x2CC 0 1 27 2 .rw 0, fd 0x2CC 0 1 29 1 .rw 0,
  fd 0x2CC 0 1 30 1 .rw 0, fd 0xC0 4 5 0 16 .rc 0]

/-- The block registers of CHG (03_pon_channels.md, R350). -/
def fieldsCHG : List FieldDef := [
  fd 0x40 0 1 0 1 .rw 0, fd 0x40 0 1 1 1 .rw 0, fd 0x40 0 1 2 1 .rw 1, fd 0x40 0 1 3 1 .rw 1,
  fr 0x40 0 1 4 2 .ro 0 0 2, fr 0x40 0 1 6 3 .ro 1 1 4, fr 0x44 0 1 0 14 .rw 9728 64 16383,
  fr 0x48 0 1 0 8 .rw 16 1 255, fr 0x48 0 1 8 8 .rw 8 1 255, fd 0x50 0 1 0 7 .ro 0, fd 0x50 0 1 8 7 .ro 0,
  fd 0x50 0 1 15 1 .ro 0, fd 0x54 0 1 0 1 .wo 0, fd 0x58 0 1 0 10 .rw 0, fd 0x58 0 1 10 2 .rw 0,
  fd 0x5C 0 1 0 32 .rw 0, fd 0x60 0 1 0 19 .rw 0, fd 0x64 0 1 0 1 .wo 0, fd 0x68 0 1 0 1 .ro 0,
  fd 0x68 0 1 1 1 .ro 0, fd 0x70 0 1 0 1 .w1c 0, fd 0x70 0 1 1 1 .w1c 0, fd 0x70 0 1 2 1 .w1c 0,
  fd 0x70 0 1 3 1 .w1c 0, fd 0x70 0 1 4 1 .w1c 0, fd 0x70 0 1 5 1 .w1c 0, fd 0x70 0 1 6 1 .w1c 0,
  fd 0x70 0 1 7 1 .w1c 0, fd 0x70 0 1 8 1 .w1c 0, fd 0x70 0 1 9 1 .w1c 0, fd 0x70 0 1 10 1 .w1c 0,
  fd 0x70 0 1 11 1 .w1c 0, fd 0x70 0 1 12 1 .w1c 0, fd 0x100 4 12 0 32 .rw 0,
  fd 0x300 0 1 0 1 .wo 0, fd 0xC0 4 13 0 16 .rc 0]

/-- The block registers of CHX (03_pon_channels.md, R350). -/
def fieldsCHX : List FieldDef := [
  fd 0x40 0 1 0 1 .rw 0, fd 0x40 0 1 1 1 .rw 0, fd 0x40 0 1 2 1 .ro 1, fd 0x40 0 1 3 1 .rw 1,
  fr 0x40 0 1 4 2 .rw 0 0 2, fr 0x40 0 1 6 3 .rw 2 1 4, fr 0x44 0 1 0 14 .rw 9728 64 16383,
  fr 0x48 0 1 0 8 .rw 16 1 255, fr 0x48 0 1 8 8 .rw 8 1 255, fd 0x50 0 1 0 7 .ro 0, fd 0x50 0 1 8 7 .ro 0,
  fd 0x50 0 1 15 1 .ro 0, fd 0x54 0 1 0 1 .wo 0, fd 0x58 0 1 0 10 .rw 0, fd 0x58 0 1 10 2 .rw 0,
  fd 0x5C 0 1 0 32 .rw 0, fd 0x60 0 1 0 19 .rw 0, fd 0x64 0 1 0 1 .wo 0, fd 0x68 0 1 0 1 .ro 0,
  fd 0x68 0 1 1 1 .ro 0, fd 0x70 0 1 0 1 .w1c 0, fd 0x70 0 1 1 1 .w1c 0, fd 0x70 0 1 2 1 .w1c 0,
  fd 0x70 0 1 3 1 .w1c 0, fd 0x70 0 1 4 1 .w1c 0, fd 0x70 0 1 5 1 .w1c 0, fd 0x70 0 1 6 1 .w1c 0,
  fd 0x70 0 1 7 1 .w1c 0, fd 0x70 0 1 8 1 .w1c 0, fd 0x70 0 1 9 1 .w1c 0, fd 0x70 0 1 10 1 .w1c 0,
  fd 0x70 0 1 11 1 .w1c 0, fd 0x70 0 1 12 1 .w1c 0, fd 0x100 4 12 0 32 .rw 0,
  fd 0x300 0 1 0 1 .wo 0, fd 0xC0 4 13 0 16 .rc 0]

/-- The block registers of CHH (03_pon_channels.md, R350). -/
def fieldsCHH : List FieldDef := [
  fd 0x40 0 1 0 1 .rw 0, fd 0x40 0 1 1 1 .rw 0, fd 0x40 0 1 2 1 .ro 1, fd 0x40 0 1 3 1 .rw 1,
  fr 0x40 0 1 4 2 .ro 0 0 2, fr 0x40 0 1 6 3 .rw 2 1 4, fr 0x44 0 1 0 14 .rw 9728 64 16383,
  fr 0x48 0 1 0 8 .rw 16 1 255, fr 0x48 0 1 8 8 .rw 8 1 255, fd 0x50 0 1 0 7 .ro 0, fd 0x50 0 1 8 7 .ro 0,
  fd 0x50 0 1 15 1 .ro 0, fd 0x54 0 1 0 1 .wo 0, fd 0x58 0 1 0 10 .rw 0, fd 0x58 0 1 10 2 .rw 0,
  fd 0x5C 0 1 0 32 .rw 0, fd 0x60 0 1 0 19 .rw 0, fd 0x64 0 1 0 1 .wo 0, fd 0x68 0 1 0 1 .ro 0,
  fd 0x68 0 1 1 1 .ro 0, fd 0x70 0 1 0 1 .w1c 0, fd 0x70 0 1 1 1 .w1c 0, fd 0x70 0 1 2 1 .w1c 0,
  fd 0x70 0 1 3 1 .w1c 0, fd 0x70 0 1 4 1 .w1c 0, fd 0x70 0 1 5 1 .w1c 0, fd 0x70 0 1 6 1 .w1c 0,
  fd 0x70 0 1 7 1 .w1c 0, fd 0x70 0 1 8 1 .w1c 0, fd 0x70 0 1 9 1 .w1c 0, fd 0x70 0 1 10 1 .w1c 0,
  fd 0x70 0 1 11 1 .w1c 0, fd 0x70 0 1 12 1 .w1c 0, fd 0x100 4 12 0 32 .rw 0,
  fd 0x300 0 1 0 1 .wo 0, fd 0xC0 4 13 0 16 .rc 0]

/-- The block registers of BRX (04_burst_receive.md, R95). -/
def fieldsBRX : List FieldDef := [
  fd 0x40 0 1 0 1 .rw 0, fd 0x40 0 1 1 1 .rw 1, fd 0x40 0 1 2 1 .rw 1, fd 0x40 0 1 3 1 .rw 1, fd 0x40 0 1 4 1 .rw 0,
  fd 0x40 0 1 5 3 .rw 2, fr 0x44 0 1 0 6 .rw 8 2 63, fr 0x44 0 1 8 6 .rw 8 2 63, fd 0x44 0 1 16 4 .ro 0,
  fr 0x48 0 1 0 13 .rw 2048 256 4096, fr 0x4C 0 1 0 7 .rw 8 0 64, fr 0x50 0 1 0 13 .rw 64 1 4096,
  fr 0x54 0 1 0 10 .rw 64 8 512, fr 0x54 0 1 16 7 .rw 8 0 64, fr 0x54 0 1 24 7 .rw 4 1 64,
  fr 0x58 0 1 0 13 .rw 8 1 8000, fd 0x58 0 1 16 1 .rw 0, fd 0x58 0 1 17 9 .rw 0, fr 0x5C 0 1 0 4 .rw 3 1 15,
  fr 0x5C 0 1 4 4 .rw 8 1 15, fd 0x5C 0 1 8 1 .ro 0, fd 0x60 0 1 0 9 .rw 0, fd 0x60 0 1 9 1 .rw 0,
  fd 0x60 0 1 10 8 .rw 16, fr 0x60 0 1 18 8 .rw 8 1 255, fd 0x64 0 1 0 1 .wo 0, fd 0x68 0 1 0 1 .ro 0,
  fd 0x70 0 1 0 1 .w1c 0, fd 0x70 0 1 1 1 .w1c 0, fd 0x70 0 1 2 1 .w1c 0, fd 0x70 0 1 3 1 .w1c 0,
  fd 0x70 0 1 4 1 .w1c 0, fd 0x70 0 1 5 1 .w1c 0, fd 0x70 0 1 6 1 .w1c 0, fd 0x70 0 1 7 1 .w1c 0,
  fd 0x70 0 1 8 1 .w1c 0, fd 0x70 0 1 9 1 .w1c 0, fd 0x80 0 1 0 9 .rw 0, fd 0x84 0 1 0 2 .wo 0,
  fd 0x88 0 1 0 1 .ro 0, fd 0x88 0 1 1 1 .ro 0, fd 0x88 0 1 2 1 .ro 0, fd 0x8C 0 1 0 8 .rw 0, fd 0x8C 0 1 8 5 .rw 0,
  fd 0x8C 0 1 13 3 .rw 0, fd 0x8C 0 1 16 1 .rw 0, fd 0x90 0 1 0 32 .rw 0, fd 0x100 64 4 0 3 .rw 0,
  fd 0x100 64 4 3 1 .rw 0, fd 0x100 64 4 4 1 .rw 0, fd 0x100 64 4 5 1 .rw 0, fd 0x100 64 4 6 8 .rw 64,
  fd 0x100 64 4 16 4 .rw 3, fd 0x104 64 4 0 16 .rw 0, fd 0x108 64 4 0 32 .rw 0, fd 0x10C 64 4 0 32 .rw 0,
  fd 0x110 64 4 0 32 .rw 0, fd 0x114 64 4 0 32 .rw 0, fd 0x118 64 4 0 32 .rw 0, fd 0x11C 64 4 0 32 .rw 0,
  fd 0x120 64 4 0 8 .ro 0, fd 0x120 64 4 8 8 .ro 0, fd 0xC0 4 10 0 16 .rc 0]

/-- The block registers of RNG (05_ranging.md, R116). -/
def fieldsRNG : List FieldDef := [
  fd 0x40 0 1 0 1 .rw 0, fd 0x40 0 1 1 1 .rw 1, fd 0x40 0 1 2 1 .rw 1, fd 0x40 0 1 3 1 .rw 0, fd 0x40 0 1 4 1 .rw 1,
  fd 0x40 0 1 5 1 .rw 1, fd 0x40 0 1 6 1 .rwX 0, fd 0x40 0 1 7 2 .rwXH 0, fd 0x40 0 1 9 2 .rwX 0,
  fd 0x44 0 1 0 16 .rw 0, fd 0x44 0 1 16 16 .rw 20000, fr 0x48 0 1 0 11 .rw 1523 1400 1600, fd 0x48 0 1 16 12 .rw 64,
  fd 0x4C 0 1 0 24 .rw 0, fd 0x50 0 1 0 18 .ro 0, fd 0x54 0 1 0 18 .ro 0, fr 0x58 0 1 0 13 .rw 800 1 8000,
  fr 0x58 0 1 16 13 .rw 8000 1 8000, fr 0x5C 0 1 0 4 .rw 10 1 15, fr 0x5C 0 1 4 5 .rw 8 1 16,
  fr 0x5C 0 1 10 10 .rw 512 64 1023, fd 0x60 0 1 0 13 .ro 7465, fd 0x60 0 1 16 13 .ro 800,
  fr 0x64 0 1 0 5 .rw 12 2 31, fr 0x64 0 1 5 4 .rw 3 1 15, fr 0x64 0 1 9 3 .rw 2 1 7,
  fr 0x68 0 1 0 15 .rw 800 1 32767, fr 0x68 0 1 15 16 .rw 8000 1 65535, fd 0x6C 0 1 0 3 .rw 3,
  fr 0x6C 0 1 4 8 .rw 4 1 255, fr 0x6C 0 1 12 8 .rw 2 1 255, fr 0x6C 0 1 20 12 .rw 512 1 4095,
  fd 0x70 0 1 0 12 .ro 0, fr 0x70 0 1 16 8 .rw 32 1 255, fd 0x74 0 1 0 4 .ro 0, fd 0x74 0 1 4 1 .ro 0,
  fd 0x78 0 1 0 1 .w1c 0, fd 0x78 0 1 1 1 .w1c 0, fd 0x78 0 1 2 1 .w1c 0, fd 0x78 0 1 3 1 .w1c 0,
  fd 0x78 0 1 4 1 .w1c 0, fd 0x78 0 1 5 1 .w1c 0, fd 0x78 0 1 6 1 .w1c 0, fd 0x78 0 1 7 1 .w1c 0,
  fd 0x78 0 1 8 1 .w1c 0, fd 0x78 0 1 9 1 .w1c 0, fd 0x78 0 1 10 1 .w1c 0, fd 0x78 0 1 11 1 .w1c 0,
  fd 0x80 0 1 0 32 .ro 0, fd 0x84 0 1 0 32 .ro 0, fd 0x90 0 1 0 9 .rw 0, fd 0x94 0 1 0 2 .wo 0,
  fd 0x98 0 1 0 1 .ro 0, fd 0x98 0 1 1 1 .ro 0, fd 0x98 0 1 2 1 .ro 0, fd 0x98 0 1 3 1 .ro 0, fd 0x98 0 1 4 1 .ro 0,
  fd 0x9C 0 1 0 25 .rw 0, fd 0xA0 0 1 0 16 .ro 0, fd 0xA0 0 1 16 1 .ro 0, fd 0xA0 0 1 17 2 .ro 0,
  fd 0xA4 0 1 0 16 .ro 0, fd 0xA8 0 1 0 32 .ro 0, fd 0xAC 0 1 0 32 .ro 0, fd 0xC0 4 12 0 16 .rc 0]

/-- The block registers of ALC (06_allocation.md, R136). -/
def fieldsALC : List FieldDef := [
  fd 0x40 0 1 0 1 .rw 0, fd 0x40 0 1 1 1 .rw 1, fr 0x44 0 1 0 14 .rw 1944 648 9720, fr 0x44 0 1 16 8 .rw 64 16 255,
  fr 0x48 0 1 0 7 .rw 90 1 100, fr 0x48 0 1 8 8 .rw 0 1 255, fd 0x4C 0 1 0 15 .ro 0, fd 0x4C 0 1 16 10 .ro 512,
  fd 0x50 0 1 0 10 .ro 0, fd 0x50 0 1 16 15 .ro 0, fd 0x54 0 1 0 14 .ro 0, fd 0x54 0 1 16 13 .ro 0,
  fd 0x58 0 1 0 9 .ro 0, fd 0x60 4 4 0 24 .ro 0, fd 0x70 0 1 0 1 .w1c 0, fd 0x70 0 1 1 1 .w1c 0,
  fd 0x70 0 1 2 1 .w1c 0, fd 0x70 0 1 3 1 .w1c 0, fd 0x70 0 1 4 1 .w1c 0, fd 0x70 0 1 5 1 .w1c 0,
  fd 0x70 0 1 6 1 .w1c 0, fd 0x70 0 1 7 1 .w1c 0, fd 0x80 0 1 0 11 .rw 0, fd 0x84 0 1 0 2 .wo 0,
  fd 0x88 0 1 0 1 .ro 0, fd 0x88 0 1 1 1 .ro 0, fd 0x88 0 1 2 1 .ro 0, fd 0x88 0 1 3 1 .ro 0, fd 0x8C 0 1 0 14 .rw 0,
  fd 0x8C 0 1 14 9 .rw 0, fd 0x8C 0 1 23 1 .rw 0, fd 0x8C 0 1 24 2 .rw 0, fd 0x90 0 1 0 20 .rw 0,
  fd 0x94 0 1 0 20 .rw 0, fd 0x98 0 1 0 20 .rw 0, fd 0x9C 0 1 0 16 .rw 1, fd 0x9C 0 1 16 13 .rw 0,
  fd 0xA0 0 1 0 24 .ro 0, fd 0xA0 0 1 24 1 .ro 0, fd 0xA0 0 1 25 2 .ro 0, fd 0xA8 0 1 0 32 .rs 0,
  fd 0xAC 0 1 0 16 .rs 0, fd 0x100 0 1 0 9 .rw 0, fd 0x104 0 1 0 2 .wo 0, fd 0x108 0 1 0 3 .ro 0,
  fd 0x10C 0 1 0 2 .rw 0, fd 0x10C 0 1 2 2 .rw 0, fd 0x10C 0 1 4 1 .rw 0, fd 0x10C 0 1 5 1 .rwX 0,
  fd 0xC0 4 8 0 16 .rc 0]

/-- The block registers of TPL (06_allocation.md, R136). -/
def fieldsTPL : List FieldDef := [
  fd 0x40 0 1 0 4 .rw 0, fd 0x44 0 1 0 2 .wo 0, fr 0x48 0 1 0 2 .rw 0 0 2, fr 0x48 0 1 2 13 .rw 1 1 8000,
  fd 0x4C 0 1 0 10 .rw 0, fd 0x4C 0 1 16 11 .rw 0, fd 0x50 0 1 0 32 .rw 0, fd 0x54 0 1 0 19 .rw 0,
  fd 0x58 0 1 0 2 .ro 0, fd 0x58 0 1 2 4 .ro 0, fd 0x5C 0 1 0 32 .ro 0, fd 0x60 0 1 0 19 .ro 0,
  fd 0x70 0 1 0 1 .w1c 0, fd 0x70 0 1 1 1 .w1c 0, fd 0x70 0 1 2 1 .w1c 0, fd 0x70 0 1 3 1 .w1c 0,
  fd 0x80 0 1 0 10 .rw 0, fd 0x84 0 1 0 2 .wo 0, fd 0x88 0 1 0 1 .ro 0, fd 0x8C 0 1 0 13 .rw 0,
  fd 0x8C 0 1 13 11 .rw 0, fd 0x90 0 1 0 15 .rw 0, fd 0x90 0 1 16 15 .rw 0, fd 0xC0 4 4 0 16 .rc 0]

/-- The block registers of BND (07_bonding.md, R147). -/
def fieldsBND : List FieldDef := [
  fd 0x40 0 1 0 1 .rw 0, fr 0x40 0 1 1 3 .rw 4 1 4, fr 0x40 0 1 4 8 .rw 8 1 255, fr 0x44 0 1 0 14 .rw 4096 256 8192,
  fd 0x48 0 1 0 4 .ro 0, fd 0x70 0 1 0 1 .w1c 0, fd 0x70 0 1 1 1 .w1c 0, fd 0x70 0 1 2 1 .w1c 0,
  fd 0x70 0 1 3 1 .w1c 0, fd 0x70 0 1 4 1 .w1c 0, fd 0x70 0 1 5 1 .w1c 0, fd 0x70 0 1 6 1 .w1c 0,
  fd 0x70 0 1 7 1 .w1c 0, fd 0x70 0 1 8 1 .w1c 0, fd 0x80 0 1 0 6 .rw 0, fd 0x84 0 1 0 2 .wo 0,
  fd 0x88 0 1 0 1 .ro 0, fd 0x88 0 1 1 1 .ro 0, fd 0x88 0 1 2 1 .ro 0, fd 0x8C 0 1 0 9 .rw 0, fd 0x8C 0 1 9 9 .rw 0,
  fd 0x8C 0 1 18 1 .rw 0, fd 0x8C 0 1 19 2 .ro 0, fd 0x90 0 1 0 16 .rw 0, fd 0x90 0 1 16 16 .rw 0,
  fd 0x94 0 1 0 8 .rw 1, fd 0x94 0 1 8 8 .rw 5, fd 0x94 0 1 16 14 .rw 1536, fd 0x98 0 1 0 16 .rw 0,
  fd 0x98 0 1 16 13 .rw 0, fd 0x9C 0 1 0 24 .ro 0, fd 0xA0 0 1 0 24 .ro 0, fd 0xA4 0 1 0 14 .ro 0,
  fd 0xA4 0 1 16 3 .ro 0, fd 0x100 4 32 0 32 .rs 0, fd 0xC0 4 9 0 16 .rc 0]

/-- The block registers of ENG (08_engines.md, R169). -/
def fieldsENG : List FieldDef := [
  fd 0x40 0 1 0 2 .ro 0, fd 0x40 0 1 2 1 .rw 1, fr 0x44 0 1 0 5 .rw 16 8 24, fd 0x48 0 1 0 16 .rw 0,
  fd 0x4C 0 1 0 5 .wo 0, fd 0x4C 0 1 5 2 .wo 0, fd 0x50 0 1 0 6 .ro 63, fd 0x50 0 1 6 1 .ro 0, fd 0x50 0 1 7 1 .ro 0,
  fd 0x54 0 1 0 32 .ro 0, fr 0x58 4 4 0 24 .rw 0 0 19439, fd 0x70 0 1 0 11 .w1c 0, fr 0x80 0 1 0 6 .rw 0 0 32,
  fd 0x80 0 1 6 2 .rw 0, fd 0x80 0 1 8 1 .rw 0, fd 0x84 0 1 0 3 .ro 0, fd 0x84 0 1 3 6 .ro 0, fd 0x84 0 1 9 1 .ro 0,
  fd 0x84 0 1 10 14 .ro 0, fd 0x84 0 1 24 4 .ro 0, fd 0x88 0 1 0 15 .ro 0, fd 0x88 0 1 16 16 .ro 0,
  fd 0xC0 4 11 0 16 .rc 0]

/-- The block registers of UCS (08_engines.md, R169). -/
def fieldsUCS : List FieldDef := [
  fd 0x40 0 1 0 1 .ro 0, fd 0x40 0 1 1 1 .ro 0, fd 0x44 0 1 0 1 .wo 0, fd 0x48 0 1 0 14 .rw 0,
  fd 0x4C 4 5 0 32 .wo 0, fd 0x60 0 1 0 32 .rw 0, fr 0x64 0 1 0 15 .rw 0 1 16384, fd 0x68 0 1 0 32 .ro 0,
  fd 0x70 0 1 0 5 .w1c 0, fd 0x80 4 8 0 14 .rw 0, fd 0xA0 4 8 0 14 .rw 0, fd 0x140 0 1 0 14 .rw 0,
  fd 0x140 0 1 16 1 .rw 0, fd 0x144 4 5 0 32 .rs 0, fd 0xC0 4 5 0 16 .rc 0]

/-- The block registers of RDR (08_engines.md, R169). -/
def fieldsRDR : List FieldDef := [
  fd 0x40 0 1 0 12 .ro 0, fd 0x44 0 1 0 12 .ro 2048, fd 0x48 0 1 0 15 .rw 0, fd 0x4C 0 1 0 16 .ro 0,
  fd 0x4C 0 1 16 12 .ro 0, fd 0x70 0 1 0 3 .w1c 0, fd 0xC0 4 3 0 16 .rc 0]

/-- The block registers of PRS (09_classification.md, R190). -/
def fieldsPRS : List FieldDef := [
  fd 0x40 0 1 0 32 .rw 0, fd 0x44 0 1 0 16 .rw 0, fd 0x44 0 1 16 16 .rw 0, fd 0x48 0 1 0 3 .rw 0,
  fr 0x48 0 1 3 2 .rw 1 0 2, fd 0x4C 0 1 0 12 .rw 0, fd 0x4C 0 1 12 5 .rw 0, fd 0x50 0 1 0 2 .wo 0,
  fd 0x70 0 1 0 16 .w1c 0, fd 0xC0 4 16 0 16 .rc 0]

/-- The block registers of LGD (09_classification.md, R190). -/
def fieldsLGD : List FieldDef := [
  fd 0x40 0 1 0 1 .rw 0, fd 0x44 4 3 0 25 .rw 0, fd 0x50 0 1 0 15 .ro 0, fd 0x70 0 1 0 3 .w1c 0,
  fd 0x80 0 1 0 14 .rw 0, fd 0x84 0 1 0 3 .wo 0, fd 0x88 0 1 0 1 .ro 0, fd 0x88 0 1 1 1 .ro 0, fd 0x88 0 1 2 1 .ro 0,
  fd 0x8C 0 1 0 14 .rw 0, fd 0x8C 0 1 16 14 .rw 0, fd 0x90 0 1 0 1 .rw 0, fd 0x90 0 1 1 5 .rw 0,
  fd 0x100 4 12 0 32 .rw 0, fd 0x140 4 12 0 32 .rw 0, fd 0x180 0 1 0 25 .rw 0, fd 0x188 0 1 0 32 .rs 0,
  fd 0x18C 0 1 0 16 .rs 0, fd 0xC0 4 3 0 16 .rc 0]

/-- The block registers of GZT (09_classification.md, R190). -/
def fieldsGZT : List FieldDef := [
  fd 0x40 0 1 0 1 .rw 0, fd 0x40 0 1 1 1 .rw 1, fd 0x40 0 1 2 1 .rw 0, fd 0x40 0 1 3 1 .rw 1, fd 0x40 0 1 4 1 .rw 1,
  fr 0x44 0 1 0 16 .rw 8000 1 65535, fd 0x44 0 1 16 16 .ro 0, fr 0x48 0 1 0 15 .rw 300 1 32767,
  fr 0x4C 0 1 0 8 .rw 4 1 255, fr 0x4C 0 1 8 8 .rw 10 1 255, fr 0x4C 0 1 16 8 .rw 60 1 255, fd 0x50 0 1 0 27 .ro 0,
  fd 0x54 0 1 0 22 .ro 0, fd 0x58 0 1 0 25 .ro 0, fd 0x70 0 1 0 9 .w1c 0, fd 0x80 0 1 0 4 .wo 0,
  fd 0x84 0 1 0 1 .ro 0, fd 0x84 0 1 1 1 .ro 0, fd 0x84 0 1 2 1 .ro 0, fd 0x84 0 1 3 1 .ro 0, fd 0x84 0 1 4 1 .ro 0,
  fd 0x88 0 1 0 3 .rw 0, fd 0x88 0 1 3 24 .rw 0, fd 0x88 0 1 27 1 .rw 0, fd 0x8C 0 1 0 25 .ro 0,
  fd 0x90 0 1 0 21 .rw 0, fd 0x100 0 1 0 16 .rw 0, fd 0x100 0 1 19 13 .rw 0, fd 0x104 4 7 0 32 .rw 0,
  fd 0xC0 4 9 0 16 .rc 0]

/-- The block registers of TMQ (10_queues_buffers.md, R215). -/
def fieldsTMQ : List FieldDef := [
  fd 0x40 0 1 0 1 .rw 0, fd 0x40 0 1 1 1 .rw 0, fr 0x44 0 1 0 17 .rw 65536 0 65536, fd 0x70 0 1 0 9 .w1c 0,
  fd 0x80 0 1 0 16 .rw 0, fd 0x80 0 1 16 1 .rw 0, fd 0x84 0 1 0 2 .wo 0, fd 0x88 0 1 0 1 .ro 0,
  fd 0x88 0 1 1 1 .ro 0, fd 0x88 0 1 2 1 .ro 0, fd 0x8C 0 1 0 14 .rw 0, fd 0x90 0 1 0 14 .rw 0,
  fd 0x90 0 1 16 14 .rw 64, fd 0x94 0 1 0 16 .rw 8192, fd 0x98 0 1 0 16 .rw 6144, fd 0x98 0 1 16 16 .rw 4096,
  fd 0x9C 0 1 0 14 .rw 4096, fd 0x9C 0 1 16 14 .rw 6144, fd 0xA0 0 1 0 28 .ro 0, fd 0xA4 0 1 0 28 .ro 0,
  fd 0xA8 0 1 0 2 .ro 0, fd 0xA8 0 1 2 1 .ro 0, fd 0xB0 0 1 0 14 .rw 0, fd 0xB4 0 1 0 2 .wo 0,
  fd 0xB8 0 1 0 16 .rw 0, fd 0xB8 0 1 16 7 .rw 0, fd 0xB8 0 1 23 1 .ro 0, fd 0x100 4 16 0 32 .rs 0,
  fd 0x140 4 24 0 13 .rw 0, fd 0xC0 4 9 0 16 .rc 0]

/-- The block registers of TMS (10_queues_buffers.md, R215). -/
def fieldsTMS : List FieldDef := [
  fr 0x40 0 1 0 8 .rw 64 1 255, fd 0x70 0 1 0 4 .w1c 0, fd 0x80 0 1 0 17 .rw 0, fr 0x80 0 1 17 3 .rw 0 0 4,
  fd 0x84 0 1 0 2 .wo 0, fd 0x88 0 1 0 3 .ro 0, fd 0x8C 0 1 0 16 .rw 1, fd 0x8C 0 1 16 7 .rw 0,
  fd 0x8C 0 1 23 1 .rw 0, fd 0x90 0 1 0 32 .rw 0, fd 0x94 0 1 0 24 .rw 16384, fd 0x98 0 1 0 24 .rw 16384,
  fd 0x9C 0 1 0 1 .ro 1, fd 0x9C 0 1 1 8 .ro 64, fd 0xA0 0 1 0 32 .rs 0, fd 0xA4 0 1 0 24 .rs 0,
  fd 0xA8 0 1 0 32 .rs 0, fd 0xAC 0 1 0 24 .rs 0, fd 0xB0 0 1 0 32 .rs 0, fd 0xB4 0 1 0 16 .rs 0,
  fd 0xC0 4 4 0 16 .rc 0]

/-- The block registers of BPM (10_queues_buffers.md, R215). -/
def fieldsBPM : List FieldDef := [
  fr 0x40 0 1 0 4 .rwl 6 4 10, fd 0x44 0 1 0 24 .rwl 16384, fd 0x50 0 1 0 32 .ro 0, fd 0x54 0 1 0 32 .ro 0,
  fd 0x58 0 1 0 32 .ro 0, fd 0x5C 0 1 0 32 .ro 0, fd 0x60 0 1 0 32 .ro 0, fd 0x70 0 1 0 7 .w1c 0,
  fd 0x80 0 1 0 32 .rs 0, fd 0x84 0 1 0 4 .rs 0, fd 0x88 0 1 0 16 .rs 0, fd 0x88 0 1 16 16 .rs 0,
  fd 0x100 4 25 0 1 .rw 0, fd 0x100 4 25 1 1 .rw 0, fd 0x100 4 25 8 13 .ro 0, fd 0xC0 4 7 0 16 .rc 0]

/-- The block registers of HBM (10_queues_buffers.md, R215). -/
def fieldsHBM : List FieldDef := [
  fd 0x40 0 1 0 4 .ro 0, fd 0x40 0 1 4 8 .ro 64, fd 0x40 0 1 12 8 .ro 32, fd 0x70 0 1 0 3 .w1c 0,
  fd 0xC0 4 3 0 16 .rc 0]

/-- The block registers of CXL (10_queues_buffers.md, R215). -/
def fieldsCXL : List FieldDef := [
  fd 0x40 0 1 0 3 .ro 0, fd 0x40 0 1 3 10 .ro 0, fd 0x44 0 1 0 3 .wo 0, fr 0x48 0 1 0 6 .rw 8 1 32,
  fd 0x4C 0 1 0 25 .ro 0, fd 0x50 0 1 0 25 .ro 0, fd 0x70 0 1 0 4 .w1c 0, fd 0xC0 4 4 0 16 .rc 0]

/-- The block registers of CIP (11_cipher.md, R231). -/
def fieldsCIP : List FieldDef := [
  fr 0x40 0 1 0 2 .rwl 2 0 2, fd 0x44 0 1 0 1 .wo 0, fd 0x48 0 1 0 6 .w1c 0, fd 0x48 0 1 6 1 .ro 0,
  fd 0x4C 0 1 0 2 .ro 0, fd 0x4C 0 1 2 1 .ro 0, fd 0x70 0 1 0 4 .w1c 0, fd 0xC0 4 4 0 16 .rc 0]

/-- The block registers of MSC (11_cipher.md, R231). -/
def fieldsMSC : List FieldDef := [
  fd 0x40 0 1 0 1 .rw 0, fd 0x40 0 1 1 1 .rw 0, fd 0x40 0 1 2 1 .rw 1, fr 0x40 0 1 3 2 .rw 0 0 2,
  fr 0x40 0 1 5 2 .rw 2 0 2, fd 0x40 0 1 7 1 .rw 1, fd 0x40 0 1 8 2 .rw 0, fd 0x44 0 1 0 30 .rw 0,
  fr 0x80 0 1 0 7 .rw 0 0 67, fd 0x84 0 1 0 2 .wo 0, fd 0x88 0 1 0 3 .ro 0, fd 0x8C 0 1 0 1 .rw 0,
  fd 0x90 4 2 0 32 .rw 0, fd 0x98 0 1 0 32 .rw 0, fd 0x9C 4 3 0 32 .wo 0, fd 0xA8 4 2 0 32 .rw 1,
  fd 0x100 4 8 0 32 .wo 0, fd 0x70 0 1 0 5 .w1c 0, fd 0xC0 4 5 0 16 .rc 0]

/-- The block registers of ETH (12_external_links.md, R260). -/
def fieldsETH : List FieldDef := [
  fd 0x40 0 1 0 4 .rw 0, fd 0x40 0 1 4 2 .rw 0, fd 0x40 0 1 6 1 .rw 0, fd 0x40 0 1 7 1 .rw 1,
  fr 0x40 0 1 8 2 .rw 0 0 2, fr 0x44 0 1 0 14 .rw 9746 1518 10240, fd 0x48 0 1 0 16 .rw 2048,
  fd 0x48 0 1 16 16 .rw 1024, fd 0x4C 0 1 0 8 .rw 255, fd 0x50 0 1 0 6 .ro 0, fd 0x70 0 1 0 7 .w1c 0,
  fd 0xC0 4 7 0 16 .rc 0]

/-- The block registers of SDS (12_external_links.md, R260). -/
def fieldsSDS : List FieldDef := [
  fd 0x40 0 1 0 5 .rw 0, fd 0x40 0 1 5 5 .rw 0, fd 0x40 0 1 10 5 .rw 0, fd 0x40 0 1 15 1 .rw 1,
  fd 0x40 0 1 16 5 .ro 0, fd 0x44 0 1 0 6 .rw 0, fd 0x44 0 1 8 6 .rw 48, fd 0x44 0 1 16 6 .rw 0,
  fd 0x44 0 1 24 1 .rw 0, fd 0x44 0 1 25 1 .rw 0, fd 0x48 0 1 0 3 .rw 0, fd 0x48 0 1 4 3 .rw 0,
  fd 0x4C 0 1 0 6 .rw 0, fd 0x4C 0 1 8 7 .rw 0, fd 0x4C 0 1 16 2 .rw 1, fr 0x4C 0 1 18 6 .rw 20 10 40,
  fd 0x50 0 1 0 1 .wo 0, fd 0x54 0 1 0 5 .ro 0, fd 0x60 0 1 0 32 .rs 0, fd 0x64 0 1 0 16 .rs 0,
  fd 0x68 0 1 0 32 .rs 0, fd 0x6C 0 1 0 16 .rs 0, fd 0x70 0 1 0 4 .w1c 0, fd 0xC0 4 4 0 16 .rc 0]

/-- The block registers of MSH (12_external_links.md, R260). -/
def fieldsMSH : List FieldDef := [
  fd 0x40 0 1 0 1 .rw 0, fd 0x40 0 1 1 1 .rw 1, fd 0x40 0 1 2 2 .ro 0, fr 0x40 0 1 4 4 .rw 8 4 9,
  fr 0x40 0 1 8 7 .rw 30 1 100, fd 0x44 0 1 0 2 .ro 0, fd 0x44 0 1 4 6 .ro 0, fd 0x44 0 1 10 6 .ro 0,
  fd 0x44 0 1 16 8 .ro 0, fd 0x48 0 1 0 3 .ro 0, fd 0x50 4 4 0 32 .rw 0, fd 0x60 4 4 0 32 .rw 0,
  fd 0x70 0 1 0 9 .w1c 0, fd 0xA0 4 4 0 32 .ro 0, fd 0xC0 4 9 0 16 .rc 0]

/-- The block registers of a page type. -/
def fieldsOf : Page → List FieldDef
  | .DEV => fieldsDEV
  | .BOOT => fieldsBOOT
  | .FUSE => fieldsFUSE
  | .CAL => fieldsCAL
  | .JRN => fieldsJRN
  | .SLC => fieldsSLC
  | .EVT => fieldsEVT
  | .HST => fieldsHST
  | .FLT => fieldsFLT
  | .PMC => fieldsPMC
  | .TST => fieldsTST
  | .MEM => fieldsMEM
  | .GRD => fieldsGRD
  | .TOD => fieldsTOD
  | .CAP => fieldsCAP
  | .KEY => fieldsKEY
  | .OPT => fieldsOPT
  | .PRT => fieldsPRT
  | .PON => fieldsPON
  | .CHG => fieldsCHG
  | .CHX => fieldsCHX
  | .CHH => fieldsCHH
  | .BRX => fieldsBRX
  | .RNG => fieldsRNG
  | .ALC => fieldsALC
  | .TPL => fieldsTPL
  | .BND => fieldsBND
  | .ENG => fieldsENG
  | .UCS => fieldsUCS
  | .RDR => fieldsRDR
  | .PRS => fieldsPRS
  | .LGD => fieldsLGD
  | .GZT => fieldsGZT
  | .TMQ => fieldsTMQ
  | .TMS => fieldsTMS
  | .BPM => fieldsBPM
  | .HBM => fieldsHBM
  | .CXL => fieldsCXL
  | .CIP => fieldsCIP
  | .MSC => fieldsMSC
  | .ETH => fieldsETH
  | .SDS => fieldsSDS
  | .MSH => fieldsMSH

/-- The TYPE code of a page (R282). -/
def Page.typeCode : Page → Nat
  | .DEV => 1 | .BOOT => 2 | .FUSE => 3 | .CAL => 4 | .JRN => 5 | .SLC => 6 | .EVT => 7 | .HST => 8 | .FLT => 9
  | .PMC => 10 | .TST => 11 | .MEM => 12 | .GRD => 13 | .TOD => 14 | .CAP => 15 | .KEY => 16 | .OPT => 17 | .PRT => 18
  | .PON => 19 | .CHG => 20 | .CHX => 21 | .CHH => 22 | .BRX => 23 | .RNG => 24 | .ALC => 25 | .TPL => 26 | .BND => 27
  | .ENG => 28 | .UCS => 29 | .RDR => 30 | .PRS => 31 | .LGD => 32 | .GZT => 33 | .TMQ => 34 | .TMS => 35 | .BPM => 36
  | .HBM => 37 | .CXL => 38 | .CIP => 39 | .MSC => 40 | .ETH => 41 | .SDS => 42 | .MSH => 43

/-- The offset of the FLAGS register of a page (R72, R95, R116 and the page tables). -/
def Page.flagsOff : Page → Nat
  | .GRD => 0x48 | .TOD => 0x44 | .PON => 0x60 | .RNG => 0x78 | _ => 0x70

/-- Base addresses of the pages (R282). -/
def pgDEV : Nat := 0x00000000
def pgBOOT : Nat := 0x00001000
def pgFUSE : Nat := 0x00002000
def pgCAL : Nat := 0x00003000
def pgJRN : Nat := 0x00004000
def pgSLC : Nat := 0x00005000
def pgEVT : Nat := 0x00006000
def pgHST : Nat := 0x00007000
def pgFLT : Nat := 0x00008000
def pgPMC : Nat := 0x00009000
def pgTST : Nat := 0x0000A000
def pgMEM : Nat := 0x0000B000
def pgGRD : Nat := 0x0000C000
def pgTOD : Nat := 0x0000D000
def pgCAP : Nat := 0x0000E000
def pgOPT : Nat := 0x0000F000
def pgPRT : Nat := 0x00010000
def pgPON (p : Nat) : Nat := 0x01000000 + p * 0x10000
def pgCH (p c : Nat) : Nat := pgPON p + 0x1000 + c * 0x4000
def pgBRX (p c : Nat) : Nat := pgPON p + 0x2000 + c * 0x4000
def pgRNG (p c : Nat) : Nat := pgPON p + 0x3000 + c * 0x4000
def pgALC (p c : Nat) : Nat := pgPON p + 0x4000 + c * 0x4000
def pgTPL (p : Nat) : Nat := pgPON p + 0xD000
def pgBND (p : Nat) : Nat := pgPON p + 0xE000
def pgENG (k : Nat) : Nat := 0x03000000 + k * 0x10000
def pgUCS (k : Nat) : Nat := pgENG k + 0x1000
def pgRDR (k : Nat) : Nat := pgENG k + 0x2000
def pgPRS : Nat := 0x04000000
def pgLGD : Nat := 0x04001000
def pgGZT : Nat := 0x04002000
def pgTMQ : Nat := 0x05000000
def pgTMS : Nat := 0x05001000
def pgBPM : Nat := 0x05002000
def pgHBM : Nat := 0x06000000
def pgCXL (x : Nat) : Nat := 0x06001000 + x * 0x1000
def pgCIP : Nat := 0x07000000
def pgKEY : Nat := 0x07001000
def pgMSC (q : Nat) : Nat := 0x07002000 + q * 0x1000
def pgETH (q : Nat) : Nat := 0x08000000 + q * 0x1000
def pgSDS (l : Nat) : Nat := 0x08100000 + l * 0x1000
def pgMSH (m : Nat) : Nat := 0x09000000 + m * 0x1000

/-- The global pages below 0x0001_1000, by page number (R282). -/
def globalPage : Nat → Option Page
  | 0 => some .DEV | 1 => some .BOOT | 2 => some .FUSE | 3 => some .CAL | 4 => some .JRN | 5 => some .SLC
  | 6 => some .EVT | 7 => some .HST | 8 => some .FLT | 9 => some .PMC | 10 => some .TST | 11 => some .MEM
  | 12 => some .GRD | 13 => some .TOD | 14 => some .CAP | 15 => some .OPT | 16 => some .PRT | _ => none

/-- The page of a port window, by its page number within the port, with the channel (R282). -/
def portPage : Nat → Option (Page × Nat)
  | 0 => some (.PON, 0) | 1 => some (.CHG, 0) | 2 => some (.BRX, 0) | 3 => some (.RNG, 0) | 4 => some (.ALC, 0)
  | 5 => some (.CHX, 1) | 6 => some (.BRX, 1) | 7 => some (.RNG, 1) | 8 => some (.ALC, 1)
  | 9 => some (.CHH, 2) | 10 => some (.BRX, 2) | 11 => some (.RNG, 2) | 12 => some (.ALC, 2)
  | 13 => some (.TPL, 0) | 14 => some (.BND, 0) | _ => none

/-- The page that holds an address, with its INSTANCE (R282): p for port pages, 3p + c for BRX, RNG and ALC. -/
def pageAt (addr : Nat) : Option (Page × Nat) :=
  let pn := addr / 0x1000
  if pn < 0x1000 then (globalPage pn).map (fun g => (g, 0))
  else if pn < 0x1200 then
    let p := (pn - 0x1000) / 16
    (portPage (pn % 16)).map (fun gc => match gc.1 with
      | .BRX | .RNG | .ALC => (gc.1, 3 * p + gc.2)
      | g => (g, p))
  else if 0x3000 ≤ pn ∧ pn < 0x3100 then
    let k := (pn - 0x3000) / 16
    match pn % 16 with
    | 0 => some (.ENG, k) | 1 => some (.UCS, k) | 2 => some (.RDR, k) | _ => none
  else if 0x4000 ≤ pn ∧ pn < 0x4003 then
    match pn % 16 with
    | 0 => some (.PRS, 0) | 1 => some (.LGD, 0) | _ => some (.GZT, 0)
  else if 0x5000 ≤ pn ∧ pn < 0x5003 then
    match pn % 16 with
    | 0 => some (.TMQ, 0) | 1 => some (.TMS, 0) | _ => some (.BPM, 0)
  else if pn = 0x6000 then some (.HBM, 0)
  else if 0x6001 ≤ pn ∧ pn < 0x6005 then some (.CXL, pn - 0x6001)
  else if pn = 0x7000 then some (.CIP, 0)
  else if pn = 0x7001 then some (.KEY, 0)
  else if 0x7002 ≤ pn ∧ pn < 0x701A then some (.MSC, pn - 0x7002)
  else if 0x8000 ≤ pn ∧ pn < 0x8018 then some (.ETH, pn - 0x8000)
  else if 0x8100 ≤ pn ∧ pn < 0x820C then some (.SDS, pn - 0x8100)
  else if 0x9000 ≤ pn ∧ pn < 0x9003 then some (.MSH, pn - 0x9000)
  else none

/-- Does a field row cover the word at offset `off`? -/
def FieldDef.covers (f : FieldDef) (off : Nat) : Bool :=
  if f.count ≤ 1 then off == f.off
  else f.off ≤ off && (off - f.off) % f.stride == 0 && (off - f.off) / f.stride < f.count

/-- The field rows of one register word of a page: the common header below 0x040, the block's tables above. -/
def wordFields (pg : Page) (off : Nat) : List FieldDef :=
  if off < 0x40 then fieldsHeader.filter (·.covers off) else (fieldsOf pg).filter (·.covers off)

/-- The access code in force for a field row of page instance `inst` (channel 3p + c gives c). -/
def FieldDef.accAt (f : FieldDef) (inst : Nat) : Acc :=
  match f.acc with
  | .rwX => if inst % 3 = 1 then .rw else .ro
  | .rwXH => if inst % 3 = 0 then .ro else .rw
  | a => a

/-- The role of cluster k after release (R22): 0 packet, 1 allocation, 2 supervision. -/
def roleReset (k : Nat) : Nat := if k < 12 then 0 else if k < 15 then 1 else 2

/-- REACT reset values (R321). -/
def reactReset (j : Nat) : Nat :=
  if j = 48 ∨ j = 63 then 0b10001 else if j = 53 then 0b01011 else if j = 55 then 0b10011
  else if j = 60 then 0b00011 else 0b00001

/-- Reset bits that depend on the instance or the entry: PAGE_ID (R280), channel constants (R52, R95, R116, R117, R136),
ENG role and RUN_MAX (R157, R169), BPM WAIT (R201), TMQ PORT_DEFQ (R215), FLT REACT (R321). -/
def specialReset (pg : Page) (inst off : Nat) : Nat :=
  if off = 0 then inst <<< 4 ||| pg.typeCode <<< 16
  else match pg with
  | .BRX => if off = 0x44 then (if inst % 3 = 0 then 0 else 8 <<< 16)
    else if off = 0x120 ∨ off = 0x160 ∨ off = 0x1A0 ∨ off = 0x1E0 then
      (if inst % 3 = 0 then 24 ||| 24 <<< 8 else 24 ||| 32 <<< 8) else 0
  | .RNG => if off = 0x70 then (if inst % 3 = 0 then 1280 else if inst % 3 = 1 then 640 else 128) else 0
  | .ALC => if off = 0x48 then (if inst % 3 = 0 then 20 else if inst % 3 = 1 then 16 else 4) <<< 8
    else if off = 0x4C then (if inst % 3 = 0 then 19440 else 9720) else 0
  | .ENG => if off = 0x40 then roleReset inst else if off = 0x48 then (if inst < 12 then 4096 else 0) else 0
  | .BPM => if 0x110 ≤ off ∧ off ≤ 0x160 then 1 else 0
  | .TMQ => if 0x140 ≤ off ∧ off ≤ 0x19C then (off - 0x140) / 4 else 0
  | .FLT => if 0x100 ≤ off ∧ off ≤ 0x1FC then reactReset ((off - 0x100) / 4) else 0
  | _ => 0

/-- The reset value of the register word at an address (R7). Burst profiles 1 to 3 of a G channel read 0 (R75). -/
def resetWord (addr : Nat) : Word :=
  match pageAt addr with
  | none => 0
  | some (pg, inst) =>
    let off := addr % 0x1000
    if pg = .BRX ∧ inst % 3 = 0 ∧ 0x140 ≤ off ∧ off < 0x200 then 0
    else BitVec.ofNat 32 ((wordFields pg off).foldl (fun a f => a ||| f.rst <<< f.lsb) (specialReset pg inst off))

end Sys2Proof.Machine
end

