-- ==== Sys2Proof/Machine/Fields.lean ====
section
/-! DEFINITION. Names of the register fields, the W1C flags and the counters that the meanings use, from the register
tables of the manual: a field is its page, its name and its place; a flag has its bit and its occurrence counter. -/

namespace Sys2Proof.Machine

/-- A register field of a page: offset, lowest bit, width, and the stride of an array of registers. -/
structure Fld where
  off : Nat
  lsb : Nat
  width : Nat
  stride : Nat := 0
  deriving DecidableEq, Repr

/-- Register `i` of an array. -/
def Fld.at (f : Fld) (i : Nat) : Fld := ⟨f.off + i * f.stride, f.lsb, f.width, 0⟩

/-- The following words of a field that spans several words. -/
def Fld.word (f : Fld) (i : Nat) : Fld := ⟨f.off + 4 * i, f.lsb, f.width, 0⟩

/-- A W1C flag (R10): its register, its bit, and its occurrence counter (R285). -/
structure Flag where
  off : Nat
  bit : Nat
  cntOff : Nat
  cntLsb : Nat
  deriving DecidableEq, Repr

/-! ### GRD -/

def GRD_SEL_MODE : Fld := ⟨0x040, 0, 2, 0⟩
def GRD_REVERTIVE : Fld := ⟨0x040, 2, 1, 0⟩
def GRD_DPLL_STATE : Fld := ⟨0x044, 0, 3, 0⟩
def GRD_ACTIVE_REF : Fld := ⟨0x044, 3, 1, 0⟩
def GRD_REF_OK : Fld := ⟨0x044, 4, 4, 0⟩
def GRD_ONU_IN_OP : Fld := ⟨0x044, 8, 1, 0⟩
def GRD_SLEW_MAX : Fld := ⟨0x04C, 0, 9, 0⟩
def GRD_OFFSET_GT : Fld := ⟨0x050, 0, 15, 0⟩
def GRD_WINDOW : Fld := ⟨0x054, 0, 8, 0⟩
def GRD_ERR : Fld := ⟨0x058, 0, 32, 0⟩
def GRD_OFF : Fld := ⟨0x05C, 0, 32, 0⟩
def GRD_STEP_FINE : Fld := ⟨0x060, 0, 24, 0⟩
def GRD_FINE : Fld := ⟨0x070, 0, 8, 0⟩
def GRD_TICK : Fld := ⟨0x070, 8, 15, 0⟩
def GRD_STABLE : Fld := ⟨0x070, 23, 1, 0⟩
def GRD_RETRY_FAIL : Fld := ⟨0x070, 24, 1, 0⟩
def GRD_FRAME_LO : Fld := ⟨0x074, 0, 32, 0⟩
def GRD_FRAME_HI : Fld := ⟨0x078, 0, 19, 0⟩
def GRD_F_REF_LOSS_A : Flag := ⟨0x48, 0, 0x0C0, 0⟩
def GRD_F_REF_LOSS_B : Flag := ⟨0x48, 1, 0x0C4, 0⟩
def GRD_F_HOLDOVER_ENTER : Flag := ⟨0x48, 2, 0x0C8, 0⟩
def GRD_F_LOCK : Flag := ⟨0x48, 3, 0x0CC, 0⟩
def GRD_F_STEP_DONE : Flag := ⟨0x48, 4, 0x0D0, 0⟩
def GRD_F_STEP_REJECT : Flag := ⟨0x48, 5, 0x0D4, 0⟩
def GRD_F_LATE_ACTION : Flag := ⟨0x48, 6, 0x0D8, 0⟩

/-! ### TOD -/

def TOD_TOD_IN_EN : Fld := ⟨0x040, 0, 1, 0⟩
def TOD_AUTO_BASE : Fld := ⟨0x040, 2, 1, 0⟩
def TOD_OFFSET : Fld := ⟨0x048, 0, 16, 0⟩
def TOD_LEAP : Fld := ⟨0x048, 16, 2, 0⟩
def TOD_TRACEABLE : Fld := ⟨0x048, 18, 1, 0⟩
def TOD_VALID : Fld := ⟨0x048, 19, 1, 0⟩
def TOD_BASE_FRAME_LO : Fld := ⟨0x050, 0, 32, 0⟩
def TOD_BASE_FRAME_HI : Fld := ⟨0x054, 0, 19, 0⟩
def TOD_BASE_SEC_LO : Fld := ⟨0x058, 0, 32, 0⟩
def TOD_BASE_SEC_HI : Fld := ⟨0x05C, 0, 16, 0⟩
def TOD_BASE_NS : Fld := ⟨0x060, 0, 32, 0⟩
def TOD_BASE_FRAC : Fld := ⟨0x064, 0, 16, 0⟩
def TOD_BASE_COMMIT : Fld := ⟨0x068, 0, 1, 0⟩
def TOD_FRAC : Fld := ⟨0x070, 0, 16, 0⟩
def TOD_NS : Fld := ⟨0x074, 0, 32, 0⟩
def TOD_SEC_LO : Fld := ⟨0x078, 0, 32, 0⟩
def TOD_SEC_HI : Fld := ⟨0x07C, 0, 16, 0⟩
def TOD_ONE_STEP_EN : Fld := ⟨0x100, 0, 1, 4⟩
def TOD_RX_TS_EN : Fld := ⟨0x100, 1, 1, 4⟩
def TOD_ENCAP : Fld := ⟨0x100, 2, 2, 4⟩
def TOD_V4_CSUM : Fld := ⟨0x100, 4, 1, 4⟩
def TOD_F_MSG_CRC : Flag := ⟨0x44, 0, 0x0C0, 0⟩
def TOD_F_MSG_LATE : Flag := ⟨0x44, 1, 0x0C4, 0⟩
def TOD_F_MSG_MISMATCH : Flag := ⟨0x44, 2, 0x0C8, 0⟩
def TOD_F_BASE_SET : Flag := ⟨0x44, 3, 0x0CC, 0⟩
def TOD_F_NO_TRAILER : Flag := ⟨0x44, 4, 0x0D0, 0⟩

/-! ### CAP -/

def CAP_EDGE : Fld := ⟨0x040, 0, 2, 8⟩
def CAP_EVT_EN : Fld := ⟨0x040, 2, 1, 8⟩
def CAP_FILL : Fld := ⟨0x044, 0, 5, 8⟩
def CAP_MERGED_CNT : Fld := ⟨0x0C0, 0, 16, 4⟩
def CAP_INPUT : Fld := ⟨0x090, 0, 4, 0⟩
def CAP_FINE : Fld := ⟨0x094, 0, 8, 0⟩
def CAP_TICK : Fld := ⟨0x094, 8, 15, 0⟩
def CAP_POL : Fld := ⟨0x094, 23, 1, 0⟩
def CAP_VALID : Fld := ⟨0x094, 24, 1, 0⟩
def CAP_FRAME_LO : Fld := ⟨0x098, 0, 32, 0⟩
def CAP_FRAME_HI : Fld := ⟨0x09C, 0, 19, 0⟩
def CAP_NS_LO : Fld := ⟨0x0B0, 0, 32, 0⟩
def CAP_NS_HI : Fld := ⟨0x0B4, 0, 32, 0⟩

/-! ### PON -/

def PON_CH_EN : Fld := ⟨0x040, 0, 3, 0⟩
def PON_ONU_IN_USE : Fld := ⟨0x044, 0, 10, 0⟩
def PON_SF_EXP : Fld := ⟨0x048, 0, 4, 0⟩
def PON_SD_EXP : Fld := ⟨0x048, 4, 4, 0⟩
def PON_SES_PCT : Fld := ⟨0x04C, 0, 7, 0⟩
def PON_PM_EN : Fld := ⟨0x04C, 7, 1, 0⟩
def PON_ONU_IDX : Fld := ⟨0x050, 0, 9, 0⟩
def PON_ONU_CMD : Fld := ⟨0x054, 0, 2, 0⟩
def PON_OWN_ERR : Fld := ⟨0x058, 1, 1, 0⟩
def PON_REJECT : Fld := ⟨0x058, 2, 1, 0⟩
def PON_ONU_REC : Fld := ⟨0x100, 0, 32, 0⟩
def PON_XP_IDX : Fld := ⟨0x2C0, 0, 13, 0⟩
def PON_XP_CMD : Fld := ⟨0x2C4, 0, 2, 0⟩
def PON_XP_OWN_ERR : Fld := ⟨0x2C8, 1, 1, 0⟩
def PON_XP_REJECT : Fld := ⟨0x2C8, 2, 1, 0⟩
def PON_PORT_ID : Fld := ⟨0x2CC, 0, 16, 0⟩
def PON_F_DEFECT_CHANGE : Flag := ⟨0x60, 0, 0x0C0, 0⟩
def PON_F_SNM : Flag := ⟨0x60, 1, 0x0C4, 0⟩
def PON_F_XGEM_REJ : Flag := ⟨0x60, 2, 0x0C8, 0⟩
def PON_F_DS_NO_PORT : Flag := ⟨0x60, 3, 0x0CC, 0⟩
def PON_F_US_UNKNOWN_PORT : Flag := ⟨0x60, 4, 0x0D0, 0⟩

/-! ### CHG, CHX and CHH -/

def CH_DS_EN : Fld := ⟨0x040, 0, 1, 0⟩
def CH_US_EN : Fld := ⟨0x040, 1, 1, 0⟩
def CH_DS_FEC : Fld := ⟨0x040, 2, 1, 0⟩
def CH_ENC_EN : Fld := ⟨0x040, 3, 1, 0⟩
def CH_X_US_MODE : Fld := ⟨0x040, 4, 2, 0⟩
def CH_PLOAM_PER_FRAME : Fld := ⟨0x040, 6, 3, 0⟩
def CH_SDU_MAX : Fld := ⟨0x044, 0, 14, 0⟩
def CH_TIMEOUT : Fld := ⟨0x048, 0, 8, 0⟩
def CH_KEY_GRACE : Fld := ⟨0x048, 8, 8, 0⟩
def CH_URG_FILL : Fld := ⟨0x050, 0, 7, 0⟩
def CH_NORM_FILL : Fld := ⟨0x050, 8, 7, 0⟩
def CH_PUSH_FULL : Fld := ⟨0x050, 15, 1, 0⟩
def CH_PLOAM_PUSH : Fld := ⟨0x054, 0, 1, 0⟩
def CH_KEY_ONU_ID : Fld := ⟨0x058, 0, 10, 0⟩
def CH_KEY_NEW_SLOT : Fld := ⟨0x058, 10, 2, 0⟩
def CH_KEY_F_LO : Fld := ⟨0x05C, 0, 32, 0⟩
def CH_KEY_F_HI : Fld := ⟨0x060, 0, 19, 0⟩
def CH_KEY_SW_GO : Fld := ⟨0x064, 0, 1, 0⟩
def CH_PENDING : Fld := ⟨0x068, 0, 1, 0⟩
def CH_LOS_CH_ACTIVE : Fld := ⟨0x068, 1, 1, 0⟩
def CH_PLOAM_BUF : Fld := ⟨0x100, 0, 32, 0⟩
def CH_F_LOS_CH : Flag := ⟨0x70, 0, 0x0C0, 0⟩
def CH_F_PLI_OVERRUN : Flag := ⟨0x70, 1, 0x0C4, 0⟩
def CH_F_BURST_TAIL : Flag := ⟨0x70, 2, 0x0C8, 0⟩
def CH_F_SDU_OVERSIZE : Flag := ⟨0x70, 3, 0x0CC, 0⟩
def CH_F_REASM_ABORT : Flag := ⟨0x70, 4, 0x0D0, 0⟩
def CH_F_REASM_TIMEOUT : Flag := ⟨0x70, 5, 0x0D4, 0⟩
def CH_F_KEY_LATE : Flag := ⟨0x70, 6, 0x0D8, 0⟩
def CH_F_KEY_DONE : Flag := ⟨0x70, 7, 0x0DC, 0⟩
def CH_F_PLOAM_OVF : Flag := ⟨0x70, 8, 0x0E0, 0⟩
def CH_F_PLOAMU_DROP : Flag := ⟨0x70, 9, 0x0E4, 0⟩
def CH_F_ID_MISMATCH : Flag := ⟨0x70, 10, 0x0E8, 0⟩
def CH_F_KEY_SLOT_BUSY : Flag := ⟨0x70, 11, 0x0EC, 0⟩
def CH_F_KEY_SW_REJ : Flag := ⟨0x70, 12, 0x0F0, 0⟩
def CH_C_ES : Nat := 21
def CH_C_DS_FRAMES : Nat := 24
def CH_C_DS_IDLE_BYTES : Nat := 25
def CH_C_DS_SDU : Nat := 26
def CH_C_DS_BYTES : Nat := 27
def CH_C_DS_PLOAM : Nat := 28
def CH_C_DS_FEC_CW : Nat := 29
def CH_C_LOS_CH_RAISES : Nat := 30
def CH_C_EMPTY_MAP_FRAMES : Nat := 31

/-! ### BRX -/

def BRX_RX_EN : Fld := ⟨0x040, 0, 1, 0⟩
def BRX_PM_EN : Fld := ⟨0x040, 1, 1, 0⟩
def BRX_DARK_EN : Fld := ⟨0x040, 2, 1, 0⟩
def BRX_ROGUE_ACT : Fld := ⟨0x040, 3, 1, 0⟩
def BRX_TXDIS_FORCE : Fld := ⟨0x040, 4, 1, 0⟩
def BRX_SD_FILT : Fld := ⟨0x040, 5, 3, 0⟩
def BRX_TAIL_GT : Fld := ⟨0x044, 0, 6, 0⟩
def BRX_SETTLE_GT : Fld := ⟨0x044, 8, 6, 0⟩
def BRX_RATE_SW_GT : Fld := ⟨0x044, 16, 4, 0⟩
def BRX_BRST_WIDTH : Fld := ⟨0x048, 0, 13, 0⟩
def BRX_DELIM_WIN : Fld := ⟨0x04C, 0, 7, 0⟩
def BRX_PM_MAXAGE : Fld := ⟨0x050, 0, 13, 0⟩
def BRX_DARK_LEN : Fld := ⟨0x054, 0, 10, 0⟩
def BRX_DARK_EDGE : Fld := ⟨0x054, 16, 7, 0⟩
def BRX_LIGHT_MIN : Fld := ⟨0x054, 24, 7, 0⟩
def BRX_DARK_PERIOD : Fld := ⟨0x058, 0, 13, 0⟩
def BRX_DARK_AFTER_EN : Fld := ⟨0x058, 16, 1, 0⟩
def BRX_DARK_AFTER_ONU : Fld := ⟨0x058, 17, 9, 0⟩
def BRX_ROGUE_THR : Fld := ⟨0x05C, 0, 4, 0⟩
def BRX_ROGUE_WIN : Fld := ⟨0x05C, 4, 4, 0⟩
def BRX_ROGUE_STATE : Fld := ⟨0x05C, 8, 1, 0⟩
def BRX_RSSI_ONU : Fld := ⟨0x060, 0, 9, 0⟩
def BRX_RSSI_DARK : Fld := ⟨0x060, 9, 1, 0⟩
def BRX_RSSI_DELAY_GT : Fld := ⟨0x060, 10, 8, 0⟩
def BRX_RSSI_WIDTH_GT : Fld := ⟨0x060, 18, 8, 0⟩
def BRX_RSSI_GO : Fld := ⟨0x064, 0, 1, 0⟩
def BRX_RSSI_PENDING : Fld := ⟨0x068, 0, 1, 0⟩
def BRX_PM_IDX : Fld := ⟨0x080, 0, 9, 0⟩
def BRX_PM_CMD : Fld := ⟨0x084, 0, 2, 0⟩
def BRX_CONFLICT : Fld := ⟨0x088, 1, 1, 0⟩
def BRX_OWN_ERR : Fld := ⟨0x088, 2, 1, 0⟩
def BRX_PHASE : Fld := ⟨0x08C, 0, 8, 0⟩
def BRX_PEAK : Fld := ⟨0x08C, 8, 5, 0⟩
def BRX_RATE : Fld := ⟨0x08C, 13, 3, 0⟩
def BRX_VALID : Fld := ⟨0x08C, 16, 1, 0⟩
def BRX_STAMP : Fld := ⟨0x090, 0, 32, 0⟩
def BRX_GUARD_SAME : Fld := ⟨0x120, 0, 8, 64⟩
def BRX_GUARD_SWITCH : Fld := ⟨0x120, 8, 8, 64⟩
def BRX_F_DELIM_MISS : Flag := ⟨0x70, 0, 0x0C0, 0⟩
def BRX_F_WARM_MISS : Flag := ⟨0x70, 1, 0x0C4, 0⟩
def BRX_F_GUARD_VIOL : Flag := ⟨0x70, 2, 0x0C8, 0⟩
def BRX_F_TAIL_CUT : Flag := ⟨0x70, 3, 0x0CC, 0⟩
def BRX_F_DARK_HIT : Flag := ⟨0x70, 4, 0x0D0, 0⟩
def BRX_F_ROGUE : Flag := ⟨0x70, 5, 0x0D4, 0⟩
def BRX_F_PROFILE_REJ : Flag := ⟨0x70, 6, 0x0D8, 0⟩
def BRX_F_RSSI_DONE : Flag := ⟨0x70, 7, 0x0DC, 0⟩
def BRX_F_RSSI_DEFER : Flag := ⟨0x70, 8, 0x0E0, 0⟩
def BRX_F_LATE_ACTION : Flag := ⟨0x70, 9, 0x0E4, 0⟩
def BRX_C_BURSTS : Nat := 0
def BRX_C_TAIL_CUT : Nat := 7
def BRX_C_DELIM_FOUND : Nat := 1
def BRX_C_RATE_SWITCHES : Nat := 8
def BRX_C_DELIM_MISS : Nat := 2
def BRX_C_DARK_SLOTS : Nat := 9
def BRX_C_WARM_BURSTS : Nat := 3
def BRX_C_DARK_HITS : Nat := 10
def BRX_C_WARM_MISS : Nat := 4
def BRX_C_ROGUE_RAISES : Nat := 11
def BRX_C_COLD_BURSTS : Nat := 5
def BRX_C_RSSI_TRIGS : Nat := 12
def BRX_C_GUARD_VIOL : Nat := 6
def BRX_C_LATE_ACTION : Nat := 13

/-! ### RNG -/

def RNG_SURVEY_EN : Fld := ⟨0x040, 0, 1, 0⟩
def RNG_ADAPT_EN : Fld := ⟨0x040, 1, 1, 0⟩
def RNG_SKIP_FULL : Fld := ⟨0x040, 2, 1, 0⟩
def RNG_SNM_BIND : Fld := ⟨0x040, 3, 1, 0⟩
def RNG_TRACK_EN : Fld := ⟨0x040, 4, 1, 0⟩
def RNG_EQD_CORR_EN : Fld := ⟨0x040, 5, 1, 0⟩
def RNG_PROFILE_B_EN : Fld := ⟨0x040, 6, 1, 0⟩
def RNG_SURVEY_PROFILE : Fld := ⟨0x040, 7, 2, 0⟩
def RNG_SURVEY_PROFILE_B : Fld := ⟨0x040, 9, 2, 0⟩
def RNG_REACH_MIN_M : Fld := ⟨0x044, 0, 16, 0⟩
def RNG_REACH_MAX_M : Fld := ⟨0x044, 16, 16, 0⟩
def RNG_GT_PER_KM : Fld := ⟨0x048, 0, 11, 0⟩
def RNG_EQ_MARGIN : Fld := ⟨0x048, 16, 12, 0⟩
def RNG_ZD_FINE : Fld := ⟨0x04C, 0, 24, 0⟩
def RNG_US_OFFSET : Fld := ⟨0x050, 0, 18, 0⟩
def RNG_SURVEY_LEN : Fld := ⟨0x054, 0, 18, 0⟩
def RNG_SURVEY_PERIOD : Fld := ⟨0x058, 0, 13, 0⟩
def RNG_SURVEY_PERIOD_MAX : Fld := ⟨0x058, 16, 13, 0⟩
def RNG_SKIP_AFTER : Fld := ⟨0x05C, 0, 4, 0⟩
def RNG_SN_PER_WIN : Fld := ⟨0x05C, 4, 5, 0⟩
def RNG_SN_BURST_GT : Fld := ⟨0x05C, 10, 10, 0⟩
def RNG_RAND_GT : Fld := ⟨0x060, 0, 13, 0⟩
def RNG_PERIOD_NOW : Fld := ⟨0x060, 16, 13, 0⟩
def RNG_RANGE_DELAY : Fld := ⟨0x064, 0, 5, 0⟩
def RNG_RANGE_TRIES : Fld := ⟨0x064, 5, 4, 0⟩
def RNG_OPER_DELAY : Fld := ⟨0x064, 9, 3, 0⟩
def RNG_T_POPUP : Fld := ⟨0x068, 0, 15, 0⟩
def RNG_T_REG : Fld := ⟨0x068, 15, 16, 0⟩
def RNG_DRIFT_SHIFT : Fld := ⟨0x06C, 0, 3, 0⟩
def RNG_TRIM_FINE : Fld := ⟨0x06C, 4, 8, 0⟩
def RNG_EQD_THR : Fld := ⟨0x06C, 12, 8, 0⟩
def RNG_DOW_FINE : Fld := ⟨0x06C, 20, 12, 0⟩
def RNG_T_EQD : Fld := ⟨0x070, 16, 8, 0⟩
def RNG_SKIP_LEVEL : Fld := ⟨0x074, 0, 4, 0⟩
def RNG_SUPPRESSED : Fld := ⟨0x074, 4, 1, 0⟩
def RNG_LAST_UNK_SN_HI : Fld := ⟨0x080, 0, 32, 0⟩
def RNG_LAST_UNK_SN_LO : Fld := ⟨0x084, 0, 32, 0⟩
def RNG_RG_IDX : Fld := ⟨0x090, 0, 9, 0⟩
def RNG_RG_CMD : Fld := ⟨0x094, 0, 2, 0⟩
def RNG_CONFLICT : Fld := ⟨0x098, 1, 1, 0⟩
def RNG_OWN_ERR : Fld := ⟨0x098, 2, 1, 0⟩
def RNG_CH_ERR : Fld := ⟨0x098, 3, 1, 0⟩
def RNG_REJECT : Fld := ⟨0x098, 4, 1, 0⟩
def RNG_EQD : Fld := ⟨0x09C, 0, 25, 0⟩
def RNG_RES : Fld := ⟨0x0A0, 0, 16, 0⟩
def RNG_ADJ_PENDING : Fld := ⟨0x0A0, 16, 1, 0⟩
def RNG_ADJ_SENDS : Fld := ⟨0x0A0, 17, 2, 0⟩
def RNG_DRIFT_AVG : Fld := ⟨0x0A4, 0, 16, 0⟩
def RNG_RTD_FINE : Fld := ⟨0x0A8, 0, 32, 0⟩
def RNG_RANGED_FRAME : Fld := ⟨0x0AC, 0, 32, 0⟩
def RNG_F_SN_COLLISION : Flag := ⟨0x78, 0, 0x0C0, 0⟩
def RNG_F_SN_EXCESS : Flag := ⟨0x78, 1, 0x0C4, 0⟩
def RNG_F_UNKNOWN_SN : Flag := ⟨0x78, 2, 0x0C8, 0⟩
def RNG_F_SN_DUP : Flag := ⟨0x78, 3, 0x0CC, 0⟩
def RNG_F_RANGE_FAIL : Flag := ⟨0x78, 4, 0x0D0, 0⟩
def RNG_F_RANGE_FAR : Flag := ⟨0x78, 5, 0x0D4, 0⟩
def RNG_F_SURVEY_DEFER : Flag := ⟨0x78, 6, 0x0D8, 0⟩
def RNG_F_DOW : Flag := ⟨0x78, 7, 0x0DC, 0⟩
def RNG_F_EQD_RETRY : Flag := ⟨0x78, 8, 0x0E0, 0⟩
def RNG_F_POPUP_EXPIRE : Flag := ⟨0x78, 9, 0x0E4, 0⟩
def RNG_F_REACH_REJ : Flag := ⟨0x78, 10, 0x0E8, 0⟩
def RNG_F_POPUP_REACQ : Flag := ⟨0x78, 11, 0x0EC, 0⟩
def RNG_C_SURVEY_WINDOWS : Nat := 0
def RNG_C_RANGE_FAR : Nat := 11
def RNG_C_SURVEY_SKIPPED : Nat := 1
def RNG_C_DRIFT_SAMPLES : Nat := 12
def RNG_C_SURVEY_DEFER : Nat := 2
def RNG_C_TRIMS : Nat := 13
def RNG_C_SN_RX : Nat := 3
def RNG_C_EQD_UPDATES : Nat := 14
def RNG_C_SN_COLLISION : Nat := 4
def RNG_C_EQD_RETRY : Nat := 15
def RNG_C_SN_EXCESS : Nat := 5
def RNG_C_DOW_RAISES : Nat := 16
def RNG_C_UNKNOWN_SN : Nat := 6
def RNG_C_POPUP_ENTER : Nat := 17
def RNG_C_SN_DUP : Nat := 7
def RNG_C_POPUP_RECOVER : Nat := 18
def RNG_C_RANGE_GRANTS : Nat := 8
def RNG_C_POPUP_REACQ : Nat := 19
def RNG_C_RANGE_OK : Nat := 9
def RNG_C_POPUP_EXPIRE : Nat := 20
def RNG_C_RANGE_FAIL : Nat := 10
def RNG_C_DEACTIVATIONS : Nat := 21

/-! ### ALC -/

def ALC_ALC_EN : Fld := ⟨0x040, 0, 1, 0⟩
def ALC_BP_EN : Fld := ⟨0x040, 1, 1, 0⟩
def ALC_BUILD_GT : Fld := ⟨0x044, 0, 14, 0⟩
def ALC_CLOSE_GT : Fld := ⟨0x044, 16, 8, 0⟩
def ALC_GUAR_PCT : Fld := ⟨0x048, 0, 7, 0⟩
def ALC_KA_UNITS : Fld := ⟨0x048, 8, 8, 0⟩
def ALC_LAST_STRUCTS : Fld := ⟨0x050, 0, 10, 0⟩
def ALC_LAST_IDLE_UNITS : Fld := ⟨0x050, 16, 15, 0⟩
def ALC_LAST_BUILD_GT : Fld := ⟨0x054, 0, 14, 0⟩
def ALC_S_MIN : Fld := ⟨0x054, 16, 13, 0⟩
def ALC_LAYOUT_PTR : Fld := ⟨0x058, 0, 9, 0⟩
def ALC_PPU : Fld := ⟨0x060, 0, 24, 4⟩
def ALC_AD_IDX : Fld := ⟨0x080, 0, 11, 0⟩
def ALC_AD_CMD : Fld := ⟨0x084, 0, 2, 0⟩
def ALC_OWN_ERR : Fld := ⟨0x088, 1, 1, 0⟩
def ALC_CH_ERR : Fld := ⟨0x088, 2, 1, 0⟩
def ALC_REJECT : Fld := ⟨0x088, 3, 1, 0⟩
def ALC_ALLOC_ID : Fld := ⟨0x08C, 0, 14, 0⟩
def ALC_ONU_IDX : Fld := ⟨0x08C, 14, 9, 0⟩
def ALC_VALID : Fld := ⟨0x08C, 23, 1, 0⟩
def ALC_TIER : Fld := ⟨0x08C, 24, 2, 0⟩
def ALC_FIXED : Fld := ⟨0x090, 0, 20, 0⟩
def ALC_ASSURED : Fld := ⟨0x094, 0, 20, 0⟩
def ALC_MAX : Fld := ⟨0x098, 0, 20, 0⟩
def ALC_WEIGHT : Fld := ⟨0x09C, 0, 16, 0⟩
def ALC_BP_Q : Fld := ⟨0x09C, 16, 13, 0⟩
def ALC_OB_IDX : Fld := ⟨0x100, 0, 9, 0⟩
def ALC_OB_CMD : Fld := ⟨0x104, 0, 2, 0⟩
def ALC_STAT : Fld := ⟨0x108, 0, 3, 0⟩
def ALC_COLD_PROF : Fld := ⟨0x10C, 0, 2, 0⟩
def ALC_WARM_PROF : Fld := ⟨0x10C, 2, 2, 0⟩
def ALC_WARM_EN : Fld := ⟨0x10C, 4, 1, 0⟩
def ALC_US_KIND : Fld := ⟨0x10C, 5, 1, 0⟩
def ALC_F_MISSED_DEADLINE : Flag := ⟨0x70, 0, 0x0C0, 0⟩
def ALC_F_STRUCT_CAP : Flag := ⟨0x70, 1, 0x0C4, 0⟩
def ALC_F_LAYOUT_CUT : Flag := ⟨0x70, 2, 0x0C8, 0⟩
def ALC_F_REFUSED : Flag := ⟨0x70, 3, 0x0CC, 0⟩
def ALC_F_GUAR_REJ : Flag := ⟨0x70, 4, 0x0D0, 0⟩
def ALC_F_SAT_REPORT : Flag := ⟨0x70, 5, 0x0D4, 0⟩
def ALC_F_BP_ACTIVE : Flag := ⟨0x70, 6, 0x0D8, 0⟩
def ALC_F_TPL_SKIP : Flag := ⟨0x70, 7, 0x0DC, 0⟩
def ALC_C_MAPS_BUILT : Nat := 0
def ALC_C_REPORTS : Nat := 8
def ALC_C_MISSED_DEADLINE : Nat := 1
def ALC_C_REPORTS_SAT : Nat := 9
def ALC_C_STRUCTS : Nat := 2
def ALC_C_BP_SUPPRESSED : Nat := 10
def ALC_C_STRUCT_CAP : Nat := 3
def ALC_C_KEEPALIVE_GRANTS : Nat := 11
def ALC_C_STRUCTS_DEFERRED : Nat := 4
def ALC_C_PLOAM_GRANTS : Nat := 12
def ALC_C_LAYOUT_CUT : Nat := 5
def ALC_C_GRANT_UNITS : Nat := 13
def ALC_C_REFUSED : Nat := 6
def ALC_C_IDLE_UNITS : Nat := 14
def ALC_C_GUAR_REJ : Nat := 7

/-! ### TPL -/

def TPL_TPL_SEL : Fld := ⟨0x040, 0, 4, 0⟩
def TPL_TPL_CMD : Fld := ⟨0x044, 0, 2, 0⟩
def TPL_CH : Fld := ⟨0x048, 0, 2, 0⟩
def TPL_CYCLE : Fld := ⟨0x048, 2, 13, 0⟩
def TPL_FIRST : Fld := ⟨0x04C, 0, 10, 0⟩
def TPL_COUNT : Fld := ⟨0x04C, 16, 11, 0⟩
def TPL_START_LO : Fld := ⟨0x050, 0, 32, 0⟩
def TPL_START_HI : Fld := ⟨0x054, 0, 19, 0⟩
def TPL_STATE : Fld := ⟨0x058, 0, 2, 0⟩
def TPL_REJ_CAUSE : Fld := ⟨0x058, 2, 4, 0⟩
def TPL_BEGIN_FRAME : Fld := ⟨0x05C, 0, 32, 0⟩
def TPL_ENT_IDX : Fld := ⟨0x080, 0, 10, 0⟩
def TPL_ENT_CMD : Fld := ⟨0x084, 0, 2, 0⟩
def TPL_FRAME_OFS : Fld := ⟨0x08C, 0, 13, 0⟩
def TPL_AD_IDX : Fld := ⟨0x08C, 13, 11, 0⟩
def TPL_START : Fld := ⟨0x090, 0, 15, 0⟩
def TPL_SIZE : Fld := ⟨0x090, 16, 15, 0⟩
def TPL_F_LATE : Flag := ⟨0x70, 0, 0x0C0, 0⟩
def TPL_F_TPL_REJ : Flag := ⟨0x70, 1, 0x0C4, 0⟩
def TPL_F_ENT_BUSY : Flag := ⟨0x70, 2, 0x0C8, 0⟩
def TPL_F_TPL_MISS : Flag := ⟨0x70, 3, 0x0CC, 0⟩
def TPL_C_TPL_GRANTS : Nat := 0
def TPL_C_TPL_SKIP : Nat := 1
def TPL_C_TPL_LOADS : Nat := 2
def TPL_C_TPL_LATE : Nat := 3
def TPL_C_TPL_REJ : Nat := 4
def TPL_C_TPL_MISS : Nat := 5

/-! ### BND -/

def BND_BND_EN : Fld := ⟨0x040, 0, 1, 0⟩
def BND_SKEW_FRAMES : Fld := ⟨0x040, 1, 3, 0⟩
def BND_REJOIN_FRAMES : Fld := ⟨0x040, 4, 8, 0⟩
def BND_HOLD_KIB : Fld := ⟨0x044, 0, 14, 0⟩
def BND_OFS_FRAMES : Fld := ⟨0x048, 0, 4, 0⟩
def BND_GRP_IDX : Fld := ⟨0x080, 0, 6, 0⟩
def BND_GRP_CMD : Fld := ⟨0x084, 0, 2, 0⟩
def BND_OWN_ERR : Fld := ⟨0x088, 1, 1, 0⟩
def BND_REJECT : Fld := ⟨0x088, 2, 1, 0⟩
def BND_ONU_X : Fld := ⟨0x08C, 0, 9, 0⟩
def BND_ONU_H : Fld := ⟨0x08C, 9, 9, 0⟩
def BND_VALID : Fld := ⟨0x08C, 18, 1, 0⟩
def BND_XGEM_X : Fld := ⟨0x090, 0, 16, 0⟩
def BND_XGEM_H : Fld := ⟨0x090, 16, 16, 0⟩
def BND_W_X : Fld := ⟨0x094, 0, 8, 0⟩
def BND_W_H : Fld := ⟨0x094, 8, 8, 0⟩
def BND_FRAG_MAX : Fld := ⟨0x094, 16, 14, 0⟩
def BND_DS_Q : Fld := ⟨0x098, 0, 16, 0⟩
def BND_US_Q : Fld := ⟨0x098, 16, 13, 0⟩
def BND_F_SEQ_LOSS : Flag := ⟨0x70, 0, 0x0C0, 0⟩
def BND_F_DUP_LATE : Flag := ⟨0x70, 1, 0x0C4, 0⟩
def BND_F_HDR_ERR : Flag := ⟨0x70, 2, 0x0C8, 0⟩
def BND_F_DATUM_ERR : Flag := ⟨0x70, 3, 0x0CC, 0⟩
def BND_F_MEMBER_DOWN : Flag := ⟨0x70, 4, 0x0D0, 0⟩
def BND_F_MEMBER_UP : Flag := ⟨0x70, 5, 0x0D4, 0⟩
def BND_F_GROUP_DOWN : Flag := ⟨0x70, 6, 0x0D8, 0⟩
def BND_F_HOLD_FULL : Flag := ⟨0x70, 7, 0x0DC, 0⟩
def BND_F_GRP_REJ : Flag := ⟨0x70, 8, 0x0E0, 0⟩
def BND_C_DS_FRAGS_X : Nat := 0
def BND_C_HDR_ERR : Nat := 8
def BND_C_DS_FRAGS_H : Nat := 1
def BND_C_DATUM_ERR : Nat := 9
def BND_C_DS_BYTES : Nat := 2
def BND_C_FALLBACKS : Nat := 10
def BND_C_US_FRAGS_X : Nat := 3
def BND_C_REJOINS : Nat := 11
def BND_C_US_FRAGS_H : Nat := 4
def BND_C_REASM_DISCARD : Nat := 12
def BND_C_US_SDU : Nat := 5
def BND_C_HOLD_FULL : Nat := 13
def BND_C_SEQ_LOSS : Nat := 6
def BND_C_US_BYTES : Nat := 14
def BND_C_DUP_LATE : Nat := 7

/-! ### ENG -/

def ENG_ROLE : Fld := ⟨0x040, 0, 2, 0⟩
def ENG_AUTO_SPARE : Fld := ⟨0x040, 2, 1, 0⟩
def ENG_WAIT_TMO : Fld := ⟨0x044, 0, 5, 0⟩
def ENG_RUN_MAX : Fld := ⟨0x048, 0, 16, 0⟩
def ENG_SPARE_CMD : Fld := ⟨0x04C, 5, 2, 0⟩
def ENG_SPARE_FOR : Fld := ⟨0x050, 0, 6, 0⟩
def ENG_DRAINING : Fld := ⟨0x050, 6, 1, 0⟩
def ENG_SPARE_BAD : Fld := ⟨0x050, 7, 1, 0⟩
def ENG_ENG_OK : Fld := ⟨0x054, 0, 32, 0⟩
def ENG_GRID_TMR : Fld := ⟨0x058, 0, 24, 4⟩
def ENG_CTX_ENG : Fld := ⟨0x080, 0, 6, 0⟩
def ENG_CTX_IDX : Fld := ⟨0x080, 6, 2, 0⟩
def ENG_STOP : Fld := ⟨0x080, 8, 1, 0⟩
def ENG_CTX_STATE : Fld := ⟨0x084, 0, 3, 0⟩
def ENG_CTX_WAIT : Fld := ⟨0x084, 3, 6, 0⟩
def ENG_CTX_BANK : Fld := ⟨0x084, 9, 1, 0⟩
def ENG_CTX_PC : Fld := ⟨0x084, 10, 14, 0⟩
def ENG_CTX_CAUSE : Fld := ⟨0x084, 24, 4, 0⟩
def ENG_CTX_SRC : Fld := ⟨0x088, 0, 15, 0⟩
def ENG_CTX_SEQ : Fld := ⟨0x088, 16, 16, 0⟩
def ENG_F_WAIT_TMO : Flag := ⟨0x70, 0, 0x0C0, 0⟩
def ENG_F_WATCHDOG : Flag := ⟨0x70, 1, 0x0C4, 0⟩
def ENG_F_RUN_OVER : Flag := ⟨0x70, 2, 0x0C8, 0⟩
def ENG_F_ILLEGAL_WORD : Flag := ⟨0x70, 3, 0x0CC, 0⟩
def ENG_F_NEST : Flag := ⟨0x70, 4, 0x0D0, 0⟩
def ENG_F_STACK : Flag := ⟨0x70, 5, 0x0D4, 0⟩
def ENG_F_TRAP : Flag := ⟨0x70, 6, 0x0D8, 0⟩
def ENG_F_ENGINE_LOST : Flag := ⟨0x70, 7, 0x0DC, 0⟩
def ENG_F_SPARE_REJ : Flag := ⟨0x70, 8, 0x0E0, 0⟩
def ENG_F_CS_ECC : Flag := ⟨0x70, 9, 0x0E4, 0⟩
def ENG_F_FENCED : Flag := ⟨0x70, 10, 0x0E8, 0⟩
def ENG_C_DISPATCHES : Nat := 0
def ENG_C_DONE : Nat := 1
def ENG_C_DROPS : Nat := 2
def ENG_C_PUNTS : Nat := 3
def ENG_C_FAULTS : Nat := 4
def ENG_C_WORDS : Nat := 5
def ENG_C_WAIT_CYCLES : Nat := 6
def ENG_C_IDLE_CYCLES : Nat := 7
def ENG_C_SPARE_SWAPS : Nat := 8
def ENG_C_MEM_CONFLICTS : Nat := 9

/-! ### UCS -/

def UCS_ACTIVE_BANK : Fld := ⟨0x040, 0, 1, 0⟩
def UCS_SWAP_PENDING : Fld := ⟨0x040, 1, 1, 0⟩
def UCS_SWAP_CMD : Fld := ⟨0x044, 0, 1, 0⟩
def UCS_LOAD_ADDR : Fld := ⟨0x048, 0, 14, 0⟩
def UCS_LOAD_DATA0_4 : Fld := ⟨0x04C, 0, 32, 0⟩
def UCS_LOAD_CRC : Fld := ⟨0x060, 0, 32, 0⟩
def UCS_LOAD_LEN : Fld := ⟨0x064, 0, 15, 0⟩
def UCS_CALC_CRC : Fld := ⟨0x068, 0, 32, 0⟩
def UCS_ENTRY_A : Fld := ⟨0x080, 0, 14, 4⟩
def UCS_ENTRY_B : Fld := ⟨0x0A0, 0, 14, 4⟩
def UCS_RD_ADDR : Fld := ⟨0x140, 0, 14, 0⟩
def UCS_RD_BANK : Fld := ⟨0x140, 16, 1, 0⟩
def UCS_RD_DATA0_4 : Fld := ⟨0x144, 0, 32, 0⟩
def UCS_F_SWAP_DONE : Flag := ⟨0x70, 0, 0x0C0, 0⟩
def UCS_F_SWAP_REJ : Flag := ⟨0x70, 1, 0x0C4, 0⟩
def UCS_F_LOAD_REJ : Flag := ⟨0x70, 2, 0x0C8, 0⟩
def UCS_F_CS_ECC_CORR : Flag := ⟨0x70, 3, 0x0CC, 0⟩
def UCS_F_CS_ECC_UNCORR : Flag := ⟨0x70, 4, 0x0D0, 0⟩
def UCS_C_SWAPS : Nat := 0
def UCS_C_CS_ECC_CORR : Nat := 1
def UCS_C_CS_ECC_UNCORR : Nat := 2
def UCS_C_WORDS_LOADED : Nat := 3

/-! ### RDR -/

def RDR_SLOTS_USED : Fld := ⟨0x040, 0, 12, 0⟩
def RDR_SLOTS_FREE : Fld := ⟨0x044, 0, 12, 0⟩
def RDR_SRC_SEL : Fld := ⟨0x048, 0, 15, 0⟩
def RDR_SRC_NEXT : Fld := ⟨0x04C, 0, 16, 0⟩
def RDR_SRC_INFLIGHT : Fld := ⟨0x04C, 16, 12, 0⟩
def RDR_F_SKIP : Flag := ⟨0x70, 0, 0x0C0, 0⟩
def RDR_F_SEQ_ERR : Flag := ⟨0x70, 1, 0x0C4, 0⟩
def RDR_F_SLOT_WAIT : Flag := ⟨0x70, 2, 0x0C8, 0⟩
def RDR_C_RELEASED : Nat := 0
def RDR_C_PUNTED : Nat := 1
def RDR_C_DROPPED : Nat := 2
def RDR_C_SKIPPED : Nat := 3
def RDR_C_HELD : Nat := 4
def RDR_C_SLOT_WAITS : Nat := 5
def RDR_C_SEQ_ERR : Nat := 6

/-! ### PRS -/

def PRS_CAUSE_ACT : Fld := ⟨0x040, 0, 32, 0⟩
def PRS_TPID_C1 : Fld := ⟨0x044, 0, 16, 0⟩
def PRS_TPID_C2 : Fld := ⟨0x044, 16, 16, 0⟩
def PRS_DEF_CLASS : Fld := ⟨0x048, 0, 3, 0⟩
def PRS_DEF_COLOUR : Fld := ⟨0x048, 3, 2, 0⟩
def PRS_VS_VID : Fld := ⟨0x04C, 0, 12, 0⟩
def PRS_VS_SLICE : Fld := ⟨0x04C, 12, 5, 0⟩
def PRS_VS_CMD : Fld := ⟨0x050, 0, 2, 0⟩
def PRS_MAL : Fld := ⟨0x070, 0, 16, 0⟩
def PRS_C_PARSED : Nat := 16
def PRS_C_IPV4 : Nat := 17
def PRS_C_IPV6 : Nat := 18
def PRS_C_PPPOE : Nat := 19
def PRS_C_TAG_DEPTH_3 : Nat := 20

/-! ### LGD -/

def LGD_LGD_EN : Fld := ⟨0x040, 0, 1, 0⟩
def LGD_DEFAULT : Fld := ⟨0x044, 0, 25, 0⟩
def LGD_RULES_VALID : Fld := ⟨0x050, 0, 15, 0⟩
def LGD_RULE_IDX : Fld := ⟨0x080, 0, 14, 0⟩
def LGD_CMD : Fld := ⟨0x084, 0, 3, 0⟩
def LGD_BUSY : Fld := ⟨0x088, 0, 1, 0⟩
def LGD_OWN_ERR : Fld := ⟨0x088, 1, 1, 0⟩
def LGD_REJECT : Fld := ⟨0x088, 2, 1, 0⟩
def LGD_MOVE_LAST : Fld := ⟨0x08C, 0, 14, 0⟩
def LGD_MOVE_DEST : Fld := ⟨0x08C, 16, 14, 0⟩
def LGD_VALID : Fld := ⟨0x090, 0, 1, 0⟩
def LGD_OWNER : Fld := ⟨0x090, 1, 5, 0⟩
def LGD_VALUE : Fld := ⟨0x100, 0, 32, 0⟩
def LGD_MASK : Fld := ⟨0x140, 0, 32, 0⟩
def LGD_ACTION : Fld := ⟨0x180, 0, 25, 0⟩
def LGD_HIT_CNT : Fld := ⟨0x188, 0, 32, 0⟩
def LGD_F_RULE_REJ : Flag := ⟨0x70, 0, 0x0C0, 0⟩
def LGD_F_QUEUE_RANGE : Flag := ⟨0x70, 1, 0x0C4, 0⟩
def LGD_F_MOVE_DONE : Flag := ⟨0x70, 2, 0x0C8, 0⟩
def LGD_C_MATCH_DS : Nat := 0
def LGD_C_MATCH_US : Nat := 1
def LGD_C_MATCH_HOST : Nat := 2
def LGD_C_MISSES : Nat := 3
def LGD_C_MALFORMED_SKIPS : Nat := 4
def LGD_C_QUEUE_RANGE : Nat := 5
def LGD_C_RULE_WRITES : Nat := 6
def LGD_C_RULE_REJ : Nat := 7

/-! ### GZT -/

def GZT_GZT_EN : Fld := ⟨0x040, 0, 1, 0⟩
def GZT_LEARN_EN : Fld := ⟨0x040, 1, 1, 0⟩
def GZT_EVICT_L2 : Fld := ⟨0x040, 2, 1, 0⟩
def GZT_EVICT_FLOW : Fld := ⟨0x040, 3, 1, 0⟩
def GZT_AGE_EN : Fld := ⟨0x040, 4, 1, 0⟩
def GZT_AGE_TICK : Fld := ⟨0x044, 0, 16, 0⟩
def GZT_AGE_NOW : Fld := ⟨0x044, 16, 16, 0⟩
def GZT_AGE_LIMIT : Fld := ⟨0x048, 0, 15, 0⟩
def GZT_MOVE_LIMIT : Fld := ⟨0x04C, 0, 8, 0⟩
def GZT_MOVE_WINDOW : Fld := ⟨0x04C, 8, 8, 0⟩
def GZT_FREEZE_EPOCHS : Fld := ⟨0x04C, 16, 8, 0⟩
def GZT_ENTRIES_USED : Fld := ⟨0x050, 0, 27, 0⟩
def GZT_OVF_USED : Fld := ⟨0x054, 0, 22, 0⟩
def GZT_CMD : Fld := ⟨0x080, 0, 4, 0⟩
def GZT_SWEEP_POS : Fld := ⟨0x058, 0, 25, 0⟩
def GZT_BUSY : Fld := ⟨0x084, 0, 1, 0⟩
def GZT_OWN_ERR : Fld := ⟨0x084, 1, 1, 0⟩
def GZT_HIT : Fld := ⟨0x084, 2, 1, 0⟩
def GZT_FULL : Fld := ⟨0x084, 3, 1, 0⟩
def GZT_REJECT : Fld := ⟨0x084, 4, 1, 0⟩
def GZT_SLOT : Fld := ⟨0x088, 0, 3, 0⟩
def GZT_BUCKET : Fld := ⟨0x088, 3, 24, 0⟩
def GZT_OVF : Fld := ⟨0x088, 27, 1, 0⟩
def GZT_BULK_POS : Fld := ⟨0x08C, 0, 25, 0⟩
def GZT_ARG : Fld := ⟨0x090, 0, 21, 0⟩
def GZT_ENTRY : Fld := ⟨0x100, 0, 32, 0⟩
def GZT_F_LEARN_FULL : Flag := ⟨0x70, 0, 0x0C0, 0⟩
def GZT_F_EVICT : Flag := ⟨0x70, 1, 0x0C4, 0⟩
def GZT_F_MOVE : Flag := ⟨0x70, 2, 0x0C8, 0⟩
def GZT_F_FREEZE : Flag := ⟨0x70, 3, 0x0CC, 0⟩
def GZT_F_SWEEP_LATE : Flag := ⟨0x70, 4, 0x0D0, 0⟩
def GZT_F_LEARN_DROP : Flag := ⟨0x70, 5, 0x0D4, 0⟩
def GZT_F_OWN_REJ : Flag := ⟨0x70, 6, 0x0D8, 0⟩
def GZT_F_BULK_DONE : Flag := ⟨0x70, 7, 0x0DC, 0⟩
def GZT_F_LEARN_STATIC : Flag := ⟨0x70, 8, 0x0E0, 0⟩
def GZT_C_LOOKUPS : Nat := 0
def GZT_C_HITS : Nat := 1
def GZT_C_OVF_READS : Nat := 2
def GZT_C_LOOKUP_RETRY : Nat := 3
def GZT_C_LEARNS : Nat := 4
def GZT_C_INSERTS : Nat := 5
def GZT_C_MOVES : Nat := 6
def GZT_C_FREEZES : Nat := 7
def GZT_C_EVICTIONS : Nat := 8
def GZT_C_AGED : Nat := 9
def GZT_C_RELOCATIONS : Nat := 10
def GZT_C_LEARN_FULL : Nat := 11
def GZT_C_LEARN_DROP : Nat := 12
def GZT_C_LEARN_STATIC : Nat := 13
def GZT_C_SWEEPS : Nat := 14
def GZT_C_SWEEP_LATE : Nat := 15

/-! ### TMQ -/

def TMQ_DS_EN : Fld := ⟨0x040, 0, 1, 0⟩
def TMQ_US_EN : Fld := ⟨0x040, 1, 1, 0⟩
def TMQ_SPILL_BACKLOG : Fld := ⟨0x044, 0, 17, 0⟩
def TMQ_Q_IDX : Fld := ⟨0x080, 0, 16, 0⟩
def TMQ_UPQ : Fld := ⟨0x080, 16, 1, 0⟩
def TMQ_Q_CMD : Fld := ⟨0x084, 0, 2, 0⟩
def TMQ_OWN_ERR : Fld := ⟨0x088, 1, 1, 0⟩
def TMQ_REJECT : Fld := ⟨0x088, 2, 1, 0⟩
def TMQ_PARENT : Fld := ⟨0x08C, 0, 14, 0⟩
def TMQ_RSV : Fld := ⟨0x090, 0, 14, 0⟩
def TMQ_WARM : Fld := ⟨0x090, 16, 14, 0⟩
def TMQ_MAX : Fld := ⟨0x094, 0, 16, 0⟩
def TMQ_YEL_T : Fld := ⟨0x098, 0, 16, 0⟩
def TMQ_RED_T : Fld := ⟨0x098, 16, 16, 0⟩
def TMQ_BP_T1 : Fld := ⟨0x09C, 0, 14, 0⟩
def TMQ_BP_T2 : Fld := ⟨0x09C, 16, 14, 0⟩
def TMQ_ONU_NODE : Fld := ⟨0x0B0, 0, 14, 0⟩
def TMQ_ONU_CMD : Fld := ⟨0x0B4, 0, 2, 0⟩
def TMQ_QBASE : Fld := ⟨0x0B8, 0, 16, 0⟩
def TMQ_QCOUNT : Fld := ⟨0x0B8, 16, 7, 0⟩
def TMQ_Q_CNT : Fld := ⟨0x100, 0, 32, 0⟩
def TMQ_PORT_DEFQ : Fld := ⟨0x140, 0, 13, 4⟩
def TMQ_F_TAIL_DROP : Flag := ⟨0x70, 0, 0x0C0, 0⟩
def TMQ_F_COLOUR_DROP : Flag := ⟨0x70, 1, 0x0C4, 0⟩
def TMQ_F_SPILL_BW_DROP : Flag := ⟨0x70, 2, 0x0C8, 0⟩
def TMQ_F_SPILL_HELD : Flag := ⟨0x70, 3, 0x0CC, 0⟩
def TMQ_F_NO_QUEUE : Flag := ⟨0x70, 4, 0x0D0, 0⟩
def TMQ_F_RSV_REJ : Flag := ⟨0x70, 5, 0x0D4, 0⟩
def TMQ_F_ONU_REJ : Flag := ⟨0x70, 6, 0x0D8, 0⟩
def TMQ_F_SHARED_OVER : Flag := ⟨0x70, 7, 0x0DC, 0⟩
def TMQ_F_LOST : Flag := ⟨0x70, 8, 0x0E0, 0⟩
def TMQ_C_ENQ_PKTS : Nat := 0
def TMQ_C_ENQ_BYTES : Nat := 1
def TMQ_C_DEQ_PKTS : Nat := 2
def TMQ_C_DEQ_BYTES : Nat := 3
def TMQ_C_TAIL_DROP_PKTS : Nat := 4
def TMQ_C_TAIL_DROP_BYTES : Nat := 5
def TMQ_C_COLOUR_DROP : Nat := 6
def TMQ_C_SPILL_BYTES : Nat := 7
def TMQ_C_PREFETCH_BYTES : Nat := 8
def TMQ_C_SPILL_HELD : Nat := 9
def TMQ_C_SPILL_BW_DROP : Nat := 10
def TMQ_C_NO_QUEUE : Nat := 11
def TMQ_C_LOST_PKTS : Nat := 12

/-! ### TMS -/

def TMS_SETTLE_FRAMES : Fld := ⟨0x040, 0, 8, 0⟩
def TMS_NODE_IDX : Fld := ⟨0x080, 0, 17, 0⟩
def TMS_LEVEL : Fld := ⟨0x080, 17, 3, 0⟩
def TMS_NODE_CMD : Fld := ⟨0x084, 0, 2, 0⟩
def TMS_STAT : Fld := ⟨0x088, 0, 3, 0⟩
def TMS_WEIGHT : Fld := ⟨0x08C, 0, 16, 0⟩
def TMS_LEN_ADJ : Fld := ⟨0x08C, 16, 7, 0⟩
def TMS_SHAPE_EN : Fld := ⟨0x08C, 23, 1, 0⟩
def TMS_RATE : Fld := ⟨0x090, 0, 32, 0⟩
def TMS_CREDIT_HI : Fld := ⟨0x094, 0, 24, 0⟩
def TMS_BURST : Fld := ⟨0x098, 0, 24, 0⟩
def TMS_F_PULL_LATE : Flag := ⟨0x70, 0, 0x0C0, 0⟩
def TMS_F_SETTLE_START : Flag := ⟨0x70, 1, 0x0C4, 0⟩
def TMS_F_SETTLE_END : Flag := ⟨0x70, 2, 0x0C8, 0⟩
def TMS_F_NODE_REJ : Flag := ⟨0x70, 3, 0x0CC, 0⟩
def TMS_C_PULLS : Nat := 0
def TMS_C_PULLS_EMPTY : Nat := 1
def TMS_C_PULL_LATE : Nat := 2
def TMS_C_CHOICES : Nat := 3
def TMS_C_SHAPER_HOLDS : Nat := 4
def TMS_C_SETTLES : Nat := 5

/-! ### BPM -/

def BPM_DRAIN_SHIFT : Fld := ⟨0x040, 0, 4, 0⟩
def BPM_REPL_GRANULES : Fld := ⟨0x044, 0, 24, 0⟩
def BPM_RSV_CAP : Fld := ⟨0x050, 0, 32, 0⟩
def BPM_RSV_SUM : Fld := ⟨0x054, 0, 32, 0⟩
def BPM_SHARED_USED : Fld := ⟨0x058, 0, 32, 0⟩
def BPM_STK_FREE : Fld := ⟨0x05C, 0, 32, 0⟩
def BPM_EXP_FREE : Fld := ⟨0x060, 0, 32, 0⟩
def BPM_LOG_HANDLE_LO : Fld := ⟨0x080, 0, 32, 0⟩
def BPM_LOG_HANDLE_HI : Fld := ⟨0x084, 0, 4, 0⟩
def BPM_LOG_OFFENDER : Fld := ⟨0x088, 0, 16, 0⟩
def BPM_LOG_OWNER : Fld := ⟨0x088, 16, 16, 0⟩
def BPM_WAIT : Fld := ⟨0x100, 0, 1, 4⟩
def BPM_PROMOTE : Fld := ⟨0x100, 1, 1, 4⟩
def BPM_WAITING : Fld := ⟨0x100, 8, 13, 4⟩
def BPM_F_BAD_FREE : Flag := ⟨0x70, 0, 0x0C0, 0⟩
def BPM_F_DOUBLE_FREE : Flag := ⟨0x70, 1, 0x0C4, 0⟩
def BPM_F_REFCNT_SAT : Flag := ⟨0x70, 2, 0x0C8, 0⟩
def BPM_F_REFUSED : Flag := ⟨0x70, 3, 0x0CC, 0⟩
def BPM_F_PROMOTED : Flag := ⟨0x70, 4, 0x0D0, 0⟩
def BPM_F_RESERVE_USED : Flag := ⟨0x70, 5, 0x0D4, 0⟩
def BPM_F_WAITQ_FULL : Flag := ⟨0x70, 6, 0x0D8, 0⟩
def BPM_C_ALLOCS : Nat := 0
def BPM_C_FREES : Nat := 1
def BPM_C_BAD_FREE : Nat := 2
def BPM_C_DOUBLE_FREE : Nat := 3
def BPM_C_REFUSED : Nat := 4
def BPM_C_WAITS : Nat := 5
def BPM_C_PROMOTED : Nat := 6
def BPM_C_RESERVE_ALLOCS : Nat := 7
def BPM_C_REFCNT_SAT : Nat := 8
def BPM_C_RECLAIMED : Nat := 9

/-! ### HBM -/

def HBM_STACK_OK : Fld := ⟨0x040, 0, 4, 0⟩
def HBM_BUF_GIB : Fld := ⟨0x040, 4, 8, 0⟩
def HBM_F_STACK_FAIL : Flag := ⟨0x70, 2, 0x0C8, 0⟩
def HBM_C_ECC_CORR : Nat := 0
def HBM_C_ECC_UNCORR : Nat := 1
def HBM_C_READ_BYTES : Nat := 2
def HBM_C_WRITE_BYTES : Nat := 3

/-! ### CXL -/

def CXL_STATE : Fld := ⟨0x040, 0, 3, 0⟩
def CXL_CAP_GIB : Fld := ⟨0x040, 3, 10, 0⟩
def CXL_CMD : Fld := ⟨0x044, 0, 3, 0⟩
def CXL_MIG_LEFT : Fld := ⟨0x04C, 0, 25, 0⟩
def CXL_USED_GRAN : Fld := ⟨0x050, 0, 25, 0⟩
def CXL_F_MIG_DONE : Flag := ⟨0x70, 0, 0x0C0, 0⟩
def CXL_F_REMOVE_REJ : Flag := ⟨0x70, 1, 0x0C4, 0⟩
def CXL_F_LINK_LOST : Flag := ⟨0x70, 2, 0x0C8, 0⟩
def CXL_F_LINK_UP : Flag := ⟨0x70, 3, 0x0CC, 0⟩
def CXL_C_SPILL_WR_BYTES : Nat := 0
def CXL_C_PREFETCH_RD_BYTES : Nat := 1
def CXL_C_MIGRATED_BYTES : Nat := 2
def CXL_C_LOST_PKTS : Nat := 3

/-! ### CIP -/

def CIP_SCA_LEVEL : Fld := ⟨0x040, 0, 2, 0⟩
def CIP_KEY_ZEROIZE : Fld := ⟨0x044, 0, 1, 0⟩
def CIP_CAUSE : Fld := ⟨0x048, 0, 6, 0⟩
def CIP_ZEROIZED : Fld := ⟨0x048, 6, 1, 0⟩
def CIP_SIG_STATUS : Fld := ⟨0x04C, 0, 2, 0⟩
def CIP_SIG_SLOT : Fld := ⟨0x04C, 2, 1, 0⟩
def CIP_F_TAMPER : Flag := ⟨0x70, 0, 0x0C0, 0⟩
def CIP_F_SIG_FAIL : Flag := ⟨0x70, 2, 0x0C8, 0⟩
def CIP_F_SCA_CHANGE : Flag := ⟨0x70, 3, 0x0CC, 0⟩
def CIP_C_TAMPER_EVENTS : Nat := 0
def CIP_C_SIG_CHECKS : Nat := 2
def CIP_C_SIG_FAIL : Nat := 3
def CIP_C_CIP_ISSUES : Nat := 4

/-! ### KEY -/

def KEY_KEY_IDX : Fld := ⟨0x080, 0, 14, 0⟩
def KEY_DIR : Fld := ⟨0x080, 14, 2, 0⟩
def KEY_SLOT : Fld := ⟨0x080, 16, 2, 0⟩
def KEY_CMD : Fld := ⟨0x084, 0, 2, 0⟩
def KEY_STAT : Fld := ⟨0x088, 0, 5, 0⟩
def KEY_MODE : Fld := ⟨0x08C, 0, 2, 0⟩
def KEY_SALT : Fld := ⟨0x090, 0, 32, 0⟩
def KEY_PN : Fld := ⟨0x098, 0, 32, 0⟩
def KEY_LAST_PN : Fld := ⟨0x0A0, 0, 32, 0⟩
def KEY_KCV : Fld := ⟨0x0A8, 0, 24, 0⟩
def KEY_ENTRY_FLAGS : Fld := ⟨0x0B0, 0, 2, 0⟩
def KEY_KEY_DATA : Fld := ⟨0x100, 0, 32, 0⟩
def KEY_SLOT_CNT : Fld := ⟨0x180, 0, 32, 0⟩
def KEY_F_PN_WARN : Flag := ⟨0x70, 0, 0x0C0, 0⟩
def KEY_F_PN_EXHAUST : Flag := ⟨0x70, 1, 0x0C4, 0⟩
def KEY_F_TAG_FAIL : Flag := ⟨0x70, 2, 0x0C8, 0⟩
def KEY_F_REPLAY : Flag := ⟨0x70, 3, 0x0CC, 0⟩
def KEY_F_SEAL_FMT : Flag := ⟨0x70, 4, 0x0D0, 0⟩
def KEY_F_KEY_REJ : Flag := ⟨0x70, 5, 0x0D4, 0⟩
def KEY_C_KEY_WRITES : Nat := 0
def KEY_C_KEY_REJ : Nat := 1
def KEY_C_SEAL_FMT : Nat := 2
def KEY_C_REPLAY : Nat := 3
def KEY_C_TAG_FAIL : Nat := 4
def KEY_C_SEAL_OK : Nat := 5

/-! ### MSC -/

def MSC_TX_EN : Fld := ⟨0x040, 0, 1, 0⟩
def MSC_RX_EN : Fld := ⟨0x040, 1, 1, 0⟩
def MSC_VALIDATE : Fld := ⟨0x040, 5, 2, 0⟩
def MSC_REPLAY_EN : Fld := ⟨0x040, 7, 1, 0⟩
def MSC_TX_AN : Fld := ⟨0x040, 8, 2, 0⟩
def MSC_REPLAY_WIN : Fld := ⟨0x044, 0, 30, 0⟩
def MSC_SA_IDX : Fld := ⟨0x080, 0, 7, 0⟩
def MSC_SA_CMD : Fld := ⟨0x084, 0, 2, 0⟩
def MSC_SA_STAT : Fld := ⟨0x088, 0, 3, 0⟩
def MSC_SUITE : Fld := ⟨0x08C, 0, 1, 0⟩
def MSC_SCI : Fld := ⟨0x090, 0, 32, 0⟩
def MSC_SSCI : Fld := ⟨0x098, 0, 32, 0⟩
def MSC_SALT : Fld := ⟨0x09C, 0, 32, 0⟩
def MSC_NEXT_PN : Fld := ⟨0x0A8, 0, 32, 0⟩
def MSC_SAK : Fld := ⟨0x100, 0, 32, 0⟩
def MSC_F_PN_WARN : Flag := ⟨0x70, 0, 0x0C0, 0⟩
def MSC_F_PN_EXHAUST : Flag := ⟨0x70, 1, 0x0C4, 0⟩
def MSC_F_TAG_FAIL : Flag := ⟨0x70, 2, 0x0C8, 0⟩
def MSC_F_REPLAY : Flag := ⟨0x70, 3, 0x0CC, 0⟩
def MSC_F_NO_SA : Flag := ⟨0x70, 4, 0x0D0, 0⟩
def MSC_C_TX_PROTECTED : Nat := 0
def MSC_C_TX_HELD : Nat := 1
def MSC_C_RX_OK : Nat := 2
def MSC_C_RX_TAG_FAIL : Nat := 3
def MSC_C_RX_REPLAY : Nat := 4
def MSC_C_RX_NO_SA : Nat := 5
def MSC_C_RX_UNTAGGED : Nat := 6
def MSC_C_RX_QUAR_DROP : Nat := 7

/-! ### ETH -/

def ETH_MODE : Fld := ⟨0x040, 0, 4, 0⟩
def ETH_FEC : Fld := ⟨0x040, 4, 2, 0⟩
def ETH_AN_EN : Fld := ⟨0x040, 6, 1, 0⟩
def ETH_LT_EN : Fld := ⟨0x040, 7, 1, 0⟩
def ETH_FC_MODE : Fld := ⟨0x040, 8, 2, 0⟩
def ETH_MAX_FRAME : Fld := ⟨0x044, 0, 14, 0⟩
def ETH_FC_HI : Fld := ⟨0x048, 0, 16, 0⟩
def ETH_FC_LO : Fld := ⟨0x048, 16, 16, 0⟩
def ETH_STATUS : Fld := ⟨0x050, 0, 6, 0⟩
def ETH_F_LINK_DOWN : Flag := ⟨0x70, 0, 0x0C0, 0⟩
def ETH_F_LINK_UP : Flag := ⟨0x70, 1, 0x0C4, 0⟩
def ETH_F_HI_BER : Flag := ⟨0x70, 2, 0x0C8, 0⟩
def ETH_F_FIFO_DROP : Flag := ⟨0x70, 3, 0x0CC, 0⟩
def ETH_F_PAUSE_RX : Flag := ⟨0x70, 4, 0x0D0, 0⟩
def ETH_F_OVERSIZE : Flag := ⟨0x70, 5, 0x0D4, 0⟩
def ETH_F_MODE_REJ : Flag := ⟨0x70, 6, 0x0D8, 0⟩
def ETH_C_RX_FRAMES : Nat := 0
def ETH_C_RX_BYTES : Nat := 1
def ETH_C_RX_FCS_ERR : Nat := 2
def ETH_C_RX_RUNT : Nat := 3
def ETH_C_RX_OVERSIZE : Nat := 4
def ETH_C_RX_PAUSE_IGNORED : Nat := 5
def ETH_C_RX_FIFO_DROP : Nat := 6
def ETH_C_TX_FRAMES : Nat := 7
def ETH_C_TX_BYTES : Nat := 8
def ETH_C_TX_OVERSIZE : Nat := 9
def ETH_C_TX_XOFF : Nat := 10
def ETH_C_FEC_CORR_CW : Nat := 11
def ETH_C_FEC_UNCORR_CW : Nat := 12

/-! ### SDS -/

def SDS_RX_PEAK : Fld := ⟨0x040, 0, 5, 0⟩
def SDS_PEAK_MIN : Fld := ⟨0x040, 5, 5, 0⟩
def SDS_PEAK_MAX : Fld := ⟨0x040, 10, 5, 0⟩
def SDS_ADAPT_EN : Fld := ⟨0x040, 15, 1, 0⟩
def SDS_PEAK_NOW : Fld := ⟨0x040, 16, 5, 0⟩
def SDS_TX_PRE : Fld := ⟨0x044, 0, 6, 0⟩
def SDS_TX_MAIN : Fld := ⟨0x044, 8, 6, 0⟩
def SDS_TX_POST : Fld := ⟨0x044, 16, 6, 0⟩
def SDS_PRBS_GEN : Fld := ⟨0x048, 0, 3, 0⟩
def SDS_PRBS_CHK : Fld := ⟨0x048, 4, 3, 0⟩
def SDS_MS_GO : Fld := ⟨0x050, 0, 1, 0⟩
def SDS_STATUS : Fld := ⟨0x054, 0, 5, 0⟩
def SDS_PRBS_ERR : Fld := ⟨0x060, 0, 32, 0⟩
def SDS_MS_ERR : Fld := ⟨0x068, 0, 32, 0⟩
def SDS_F_PRBS_REJ : Flag := ⟨0x70, 0, 0x0C0, 0⟩
def SDS_F_MS_DONE : Flag := ⟨0x70, 1, 0x0C4, 0⟩
def SDS_F_CDR_LOSS : Flag := ⟨0x70, 2, 0x0C8, 0⟩
def SDS_F_PEAK_CLAMP : Flag := ⟨0x70, 3, 0x0CC, 0⟩
def SDS_C_CDR_LOSSES : Nat := 0
def SDS_C_PEAK_CLAMPS : Nat := 1
def SDS_C_SCANS : Nat := 2

/-! ### HST -/

def HST_LINK_SPEED : Fld := ⟨0x040, 0, 3, 0⟩
def HST_LINK_WIDTH : Fld := ⟨0x040, 4, 4, 0⟩
def HST_LINK_UP : Fld := ⟨0x040, 8, 1, 0⟩
def HST_DB_RING : Fld := ⟨0x048, 0, 10, 0⟩
def HST_TS_SEC_HI : Fld := ⟨0x04C, 0, 16, 0⟩
def HST_RING_IDX : Fld := ⟨0x080, 0, 10, 0⟩
def HST_RING_CMD : Fld := ⟨0x084, 0, 3, 0⟩
def HST_STAT : Fld := ⟨0x088, 0, 3, 0⟩
def HST_DIR : Fld := ⟨0x08C, 0, 1, 0⟩
def HST_SIZE_LOG2 : Fld := ⟨0x08C, 1, 5, 0⟩
def HST_STATE : Fld := ⟨0x08C, 6, 2, 0⟩
def HST_COAL_CNT : Fld := ⟨0x08C, 8, 8, 0⟩
def HST_COAL_US : Fld := ⟨0x08C, 16, 16, 0⟩
def HST_BASE : Fld := ⟨0x090, 12, 20, 0⟩
def HST_HEAD_WB : Fld := ⟨0x098, 3, 29, 0⟩
def HST_HEAD : Fld := ⟨0x0A0, 0, 16, 0⟩
def HST_TAIL : Fld := ⟨0x0A0, 16, 16, 0⟩
def HST_ERR_CAUSE : Fld := ⟨0x0A4, 0, 3, 0⟩
def HST_RING_CNT : Fld := ⟨0x100, 0, 32, 0⟩
def HST_F_LEN_ERR : Flag := ⟨0x70, 0, 0x0C0, 0⟩
def HST_F_RING_FULL : Flag := ⟨0x70, 1, 0x0C4, 0⟩
def HST_F_DMA_ERR : Flag := ⟨0x70, 2, 0x0C8, 0⟩
def HST_F_FLR : Flag := ⟨0x70, 3, 0x0CC, 0⟩
def HST_F_LINK_DOWN : Flag := ⟨0x70, 4, 0x0D0, 0⟩
def HST_F_DB_REJ : Flag := ⟨0x70, 5, 0x0D4, 0⟩
def HST_C_H2D_FRAMES : Nat := 0
def HST_C_H2D_BYTES : Nat := 1
def HST_C_D2H_FRAMES : Nat := 2
def HST_C_D2H_BYTES : Nat := 3
def HST_C_LEN_ERR : Nat := 4
def HST_C_RING_FULL : Nat := 5
def HST_C_RX_TOO_BIG : Nat := 6
def HST_C_DMA_ERR : Nat := 7
def HST_C_DB_REJ : Nat := 8
def HST_C_FLR : Nat := 9

/-! ### OPT -/

def OPT_MUX_EN : Fld := ⟨0x040, 0, 8, 0⟩
def OPT_PORT : Fld := ⟨0x080, 0, 5, 16⟩
def OPT_LEN : Fld := ⟨0x080, 20, 6, 16⟩
def OPT_CMD : Fld := ⟨0x088, 0, 2, 16⟩
def OPT_STAT : Fld := ⟨0x08C, 0, 5, 16⟩
def OPT_DATA : Fld := ⟨0x200, 0, 32, 32⟩
def OPT_F_NACK : Flag := ⟨0x70, 0, 0xD00, 0⟩
def OPT_F_TIMEOUT : Flag := ⟨0x70, 1, 0xD04, 0⟩
def OPT_F_BUS_RECOVERED : Flag := ⟨0x70, 2, 0xD08, 0⟩
def OPT_F_OWN_REJ : Flag := ⟨0x70, 3, 0xD0C, 0⟩
def OPT_C_TRANSACTIONS : Nat := 0
def OPT_C_NACK : Nat := 1
def OPT_C_TIMEOUT : Nat := 2
def OPT_C_BYTES : Nat := 3

/-! ### MSH -/

def MSH_LINK_EN : Fld := ⟨0x040, 0, 1, 0⟩
def MSH_TIM_EN : Fld := ⟨0x040, 1, 1, 0⟩
def MSH_PEER_DEV : Fld := ⟨0x040, 2, 2, 0⟩
def MSH_SD_EXP : Fld := ⟨0x040, 4, 4, 0⟩
def MSH_SES_PCT : Fld := ⟨0x040, 8, 7, 0⟩
def MSH_STATE : Fld := ⟨0x044, 0, 2, 0⟩
def MSH_DEFECTS : Fld := ⟨0x044, 4, 6, 0⟩
def MSH_REPORTED : Fld := ⟨0x044, 10, 6, 0⟩
def MSH_SKEW_BLOCKS : Fld := ⟨0x044, 16, 8, 0⟩
def MSH_SLIP_FILL : Fld := ⟨0x048, 0, 3, 0⟩
def MSH_TRACE_TX : Fld := ⟨0x050, 0, 32, 0⟩
def MSH_TRACE_EXP : Fld := ⟨0x060, 0, 32, 0⟩
def MSH_TRACE_RX : Fld := ⟨0x0A0, 0, 32, 0⟩
def MSH_F_DEFECT_CHANGE : Flag := ⟨0x70, 0, 0x0C0, 0⟩
def MSH_F_RESET_RX : Flag := ⟨0x70, 1, 0x0C4, 0⟩
def MSH_F_FLUSH : Flag := ⟨0x70, 2, 0x0C8, 0⟩
def MSH_F_SLIP_REPEAT : Flag := ⟨0x70, 3, 0x0CC, 0⟩
def MSH_F_SLIP_DROP : Flag := ⟨0x70, 4, 0x0D0, 0⟩
def MSH_F_MIRROR_MISS : Flag := ⟨0x70, 5, 0x0D4, 0⟩
def MSH_F_MSG_CRC : Flag := ⟨0x70, 6, 0x0D8, 0⟩
def MSH_F_MSG_LOSS : Flag := ⟨0x70, 7, 0x0DC, 0⟩
def MSH_F_BAD_BLOCK : Flag := ⟨0x70, 8, 0x0E0, 0⟩
def MSH_C_TX_MSGS : Nat := 0
def MSH_C_RX_MSGS : Nat := 1
def MSH_C_MSG_CRC : Nat := 2
def MSH_C_MSG_LOSS : Nat := 3
def MSH_C_BAD_BLOCK : Nat := 4
def MSH_C_FILL_INSERT : Nat := 5
def MSH_C_FILL_DELETE : Nat := 6
def MSH_C_BIP_ERR : Nat := 7
def MSH_C_SLIP_REPEAT : Nat := 8
def MSH_C_SLIP_DROP : Nat := 9
def MSH_C_MIRROR_MISS : Nat := 10
def MSH_C_RESET_RX : Nat := 11
def MSH_C_FLUSHES : Nat := 12
def MSH_C_ES : Nat := 13
def MSH_C_TICKS_TX : Nat := 16
def MSH_C_TICKS_RX : Nat := 17

/-! ### PRT -/

def PRT_GM_ROLE : Fld := ⟨0x040, 0, 2, 0⟩
def PRT_GM_BACKUP : Fld := ⟨0x040, 2, 1, 0⟩
def PRT_CUR_ROLE : Fld := ⟨0x044, 0, 2, 0⟩
def PRT_MASTER_DEV : Fld := ⟨0x044, 2, 2, 0⟩
def PRT_MASTER_LINK : Fld := ⟨0x044, 4, 2, 0⟩
def PRT_GM_LOCKED : Fld := ⟨0x044, 6, 1, 0⟩
def PRT_GM_OFFSET : Fld := ⟨0x048, 0, 32, 0⟩
def PRT_GM_DELAY : Fld := ⟨0x04C, 0, 32, 0⟩
def PRT_GM_CMD : Fld := ⟨0x050, 0, 2, 0⟩
def PRT_HB_PIN_EN : Fld := ⟨0x054, 0, 3, 0⟩
def PRT_LASER_SETTLE : Fld := ⟨0x054, 3, 4, 0⟩
def PRT_ROLLCALL : Fld := ⟨0x054, 7, 5, 0⟩
def PRT_RECLAIM_EN : Fld := ⟨0x054, 12, 1, 0⟩
def PRT_HEARD_LINK : Fld := ⟨0x058, 0, 3, 0⟩
def PRT_HEARD_PIN : Fld := ⟨0x058, 3, 3, 0⟩
def PRT_PEER_FAILED : Fld := ⟨0x058, 6, 3, 0⟩
def PRT_PAIR_IDX : Fld := ⟨0x080, 0, 5, 0⟩
def PRT_PAIR_CMD : Fld := ⟨0x084, 0, 3, 0⟩
def PRT_REJECT : Fld := ⟨0x088, 1, 1, 0⟩
def PRT_EN : Fld := ⟨0x08C, 0, 1, 0⟩
def PRT_KIND : Fld := ⟨0x08C, 1, 1, 0⟩
def PRT_PEER_PORT : Fld := ⟨0x08C, 2, 5, 0⟩
def PRT_LINK : Fld := ⟨0x08C, 7, 2, 0⟩
def PRT_START_ACTIVE : Fld := ⟨0x08C, 9, 1, 0⟩
def PRT_AUTO_YIELD : Fld := ⟨0x08C, 10, 1, 0⟩
def PRT_STATE : Fld := ⟨0x08C, 11, 3, 0⟩
def PRT_ARMED : Fld := ⟨0x08C, 14, 1, 0⟩
def PRT_LEASE_FRAMES : Fld := ⟨0x090, 0, 9, 0⟩
def PRT_LEASE_LEFT : Fld := ⟨0x090, 16, 9, 0⟩
def PRT_DELTA_FINE : Fld := ⟨0x094, 0, 24, 0⟩
def PRT_LAST_TICK_RX : Fld := ⟨0x098, 0, 32, 0⟩
def PRT_LAST_TICK_TX : Fld := ⟨0x09C, 0, 32, 0⟩
def PRT_YIELD_LOS : Fld := ⟨0x0A0, 0, 8, 0⟩
def PRT_F_PEER_FAIL : Flag := ⟨0x70, 0, 0x0C0, 0⟩
def PRT_F_DARK_NOTICE_RX : Flag := ⟨0x70, 1, 0x0C4, 0⟩
def PRT_F_LEASE_RUNDOWN : Flag := ⟨0x70, 2, 0x0C8, 0⟩
def PRT_F_TAKEOVER : Flag := ⟨0x70, 3, 0x0CC, 0⟩
def PRT_F_BEGIN : Flag := ⟨0x70, 4, 0x0D0, 0⟩
def PRT_F_LIGHT_SEEN : Flag := ⟨0x70, 5, 0x0D4, 0⟩
def PRT_F_RECLAIM : Flag := ⟨0x70, 6, 0x0D8, 0⟩
def PRT_F_SYNC_DONE : Flag := ⟨0x70, 7, 0x0DC, 0⟩
def PRT_F_SYNC_LOST : Flag := ⟨0x70, 8, 0x0E0, 0⟩
def PRT_F_GM_CHANGE : Flag := ⟨0x70, 9, 0x0E4, 0⟩
def PRT_F_GM_CONFLICT : Flag := ⟨0x70, 10, 0x0E8, 0⟩
def PRT_F_GM_MISMATCH : Flag := ⟨0x70, 11, 0x0EC, 0⟩
def PRT_F_BAD_TICK : Flag := ⟨0x70, 12, 0x0F0, 0⟩
def PRT_F_PAIR_REJ : Flag := ⟨0x70, 13, 0x0F4, 0⟩
def PRT_F_TAKEOVER_BLOCKED : Flag := ⟨0x70, 14, 0x0F8, 0⟩
def PRT_C_TICKS_TX : Nat := 0
def PRT_C_TICKS_RX_LINK : Nat := 1
def PRT_C_TICKS_RX_PIN : Nat := 2
def PRT_C_SLOTS_MISSED : Nat := 3
def PRT_C_BAD_TICK : Nat := 4
def PRT_C_PEER_FAILS : Nat := 5
def PRT_C_DARK_NOTICES : Nat := 6
def PRT_C_LEASE_RUNDOWNS : Nat := 7
def PRT_C_TAKEOVERS : Nat := 8
def PRT_C_YIELDS : Nat := 9
def PRT_C_RECLAIMS : Nat := 10
def PRT_C_RESYNCS : Nat := 11
def PRT_C_STANDBY_DROP : Nat := 12
def PRT_C_GM_CHANGES : Nat := 13

/-! ### The common page header (R280) -/

def ANY_ENABLE : Fld := ⟨0x004, 0, 1, 0⟩
def ANY_LEGACY_EVT : Fld := ⟨0x004, 2, 1, 0⟩
def ANY_LOCK : Fld := ⟨0x004, 3, 1, 0⟩
def ANY_OWNER : Fld := ⟨0x008, 0, 5, 0⟩
def ANY_ERR_MASK : Fld := ⟨0x014, 0, 4, 0⟩
def ANY_ARM : Fld := ⟨0x018, 0, 1, 0⟩
def ANY_KIND : Fld := ⟨0x018, 1, 1, 0⟩
def ANY_EVT_SEQ : Fld := ⟨0x020, 0, 32, 0⟩
def ANY_EVT_EN : Fld := ⟨0x024, 0, 1, 0⟩
def ANY_OWN_RING : Fld := ⟨0x024, 1, 4, 0⟩
def ANY_PF_RING : Fld := ⟨0x024, 5, 4, 0⟩
def ANY_F_CORR : Flag := ⟨0x10, 0, 0x34, 0⟩
def ANY_F_UNCORR : Flag := ⟨0x10, 1, 0x34, 16⟩

/-! ### DEV -/

def DEV_DEVICE_ID : Fld := ⟨0x040, 0, 16, 0⟩
def DEV_STEPPING : Fld := ⟨0x040, 16, 4, 0⟩
def DEV_DEV_ID : Fld := ⟨0x044, 0, 2, 0⟩
def DEV_MESH_EN : Fld := ⟨0x044, 2, 1, 0⟩
def DEV_BOOT_SRC : Fld := ⟨0x044, 3, 2, 0⟩
def DEV_CHIP_STATE : Fld := ⟨0x048, 0, 3, 0⟩
def DEV_ROLE_MAP : Fld := ⟨0x04C, 0, 32, 0⟩
def DEV_RESET_KEY : Fld := ⟨0x050, 0, 32, 0⟩
def DEV_RESET_CMD : Fld := ⟨0x054, 0, 1, 0⟩
def DEV_UNIQUE_ID : Fld := ⟨0x058, 0, 32, 0⟩
def DEV_F_ROLE_REJ : Flag := ⟨0x70, 0, 0x0C0, 0⟩
def DEV_F_ROLE_DONE : Flag := ⟨0x70, 1, 0x0C4, 0⟩
def DEV_F_RESET_REJ : Flag := ⟨0x70, 2, 0x0C8, 0⟩
def DEV_C_CHIP_RESETS : Nat := 0
def DEV_C_ROLE_CHANGES : Nat := 1

/-! ### SLC -/

def SLC_SLICE_EN : Fld := ⟨0x040, 0, 32, 0⟩
def SLC_RES_KIND : Fld := ⟨0x080, 0, 2, 0⟩
def SLC_RES_IDX : Fld := ⟨0x080, 2, 14, 0⟩
def SLC_OWNER : Fld := ⟨0x080, 16, 5, 0⟩
def SLC_CMD : Fld := ⟨0x084, 0, 2, 0⟩
def SLC_STAT : Fld := ⟨0x088, 0, 2, 0⟩
def SLC_REJ_WRITES : Fld := ⟨0x100, 0, 32, 4⟩
def SLC_F_OWN_REJ : Flag := ⟨0x70, 0, 0x0C0, 0⟩
def SLC_F_ASSIGN_REJ : Flag := ⟨0x70, 1, 0x0C4, 0⟩
def SLC_C_ASSIGNS : Nat := 0
def SLC_C_ASSIGN_REJ : Nat := 1

/-! ### EVT -/

def EVT_FIFO_FILL : Fld := ⟨0x040, 0, 14, 0⟩
def EVT_EV_FUNC : Fld := ⟨0x080, 0, 5, 0⟩
def EVT_EV_RING : Fld := ⟨0x080, 5, 4, 0⟩
def EVT_EV_CMD : Fld := ⟨0x084, 0, 2, 0⟩
def EVT_STAT : Fld := ⟨0x088, 0, 2, 0⟩
def EVT_SIZE_LOG2 : Fld := ⟨0x08C, 0, 5, 0⟩
def EVT_STATE : Fld := ⟨0x08C, 5, 1, 0⟩
def EVT_COAL_CNT : Fld := ⟨0x08C, 8, 8, 0⟩
def EVT_COAL_US : Fld := ⟨0x08C, 16, 16, 0⟩
def EVT_BASE : Fld := ⟨0x090, 12, 20, 0⟩
def EVT_TAIL_WB : Fld := ⟨0x098, 3, 29, 0⟩
def EVT_HEAD : Fld := ⟨0x0A0, 0, 16, 0⟩
def EVT_TAIL : Fld := ⟨0x0A0, 16, 16, 0⟩
def EVT_RING_DROP_CNT : Fld := ⟨0x0A4, 0, 32, 0⟩
def EVT_F_FIFO_DROP : Flag := ⟨0x70, 0, 0x0C0, 0⟩
def EVT_F_RING_DROP : Flag := ⟨0x70, 1, 0x0C4, 0⟩
def EVT_C_POSTED : Nat := 0
def EVT_C_DELIVERED : Nat := 1
def EVT_C_COPIES : Nat := 2
def EVT_C_FIFO_DROP : Nat := 3
def EVT_C_RING_DROP : Nat := 4

/-! ### JRN -/

def JRN_STREAM_EN : Fld := ⟨0x040, 0, 1, 0⟩
def JRN_SIZE_LOG2 : Fld := ⟨0x040, 1, 5, 0⟩
def JRN_HEAD : Fld := ⟨0x054, 0, 20, 0⟩
def JRN_CSEQ_STREAMED : Fld := ⟨0x060, 0, 32, 0⟩
def JRN_MR_SLOT : Fld := ⟨0x080, 0, 1, 0⟩
def JRN_MR_IDX : Fld := ⟨0x080, 1, 12, 0⟩
def JRN_MR_VALID : Fld := ⟨0x084, 0, 1, 0⟩
def JRN_MR_CAUSE : Fld := ⟨0x084, 1, 2, 0⟩
def JRN_MR_NEWEST : Fld := ⟨0x084, 3, 1, 0⟩
def JRN_MR_FIRST : Fld := ⟨0x088, 0, 32, 0⟩
def JRN_MR_DATA : Fld := ⟨0x100, 0, 32, 0⟩
def JRN_RD_IDX : Fld := ⟨0x140, 0, 16, 0⟩
def JRN_RD_DATA : Fld := ⟨0x180, 0, 32, 0⟩
def JRN_F_LOST : Flag := ⟨0x70, 0, 0x0C0, 0⟩
def JRN_F_FLUSHED : Flag := ⟨0x70, 1, 0x0C4, 0⟩
def JRN_F_MR_BAD : Flag := ⟨0x70, 2, 0x0C8, 0⟩
def JRN_C_RECORDS : Nat := 0
def JRN_C_REJECTED : Nat := 1
def JRN_C_STREAMED : Nat := 2
def JRN_C_LOST : Nat := 3
def JRN_C_FLUSHES : Nat := 4

/-! ### BOOT -/

def BOOT_SRC_USED : Fld := ⟨0x040, 0, 2, 0⟩
def BOOT_STAGE : Fld := ⟨0x040, 2, 3, 0⟩
def BOOT_FAIL_CAUSE : Fld := ⟨0x040, 5, 3, 0⟩
def BOOT_IMAGE_LEN : Fld := ⟨0x044, 0, 32, 0⟩
def BOOT_IMAGE_VER : Fld := ⟨0x048, 0, 32, 0⟩
def BOOT_BUILD_ID : Fld := ⟨0x04C, 0, 32, 0⟩
def BOOT_APPLY_ERR_CNT : Fld := ⟨0x050, 0, 16, 0⟩
def BOOT_HOST_GO : Fld := ⟨0x060, 0, 1, 0⟩
def BOOT_RELEASE : Fld := ⟨0x060, 1, 1, 0⟩
def BOOT_SERVE_EN : Fld := ⟨0x064, 0, 1, 0⟩
def BOOT_WARN_ACTIVE : Fld := ⟨0x064, 1, 1, 0⟩
def BOOT_BUSY : Fld := ⟨0x064, 2, 1, 0⟩
def BOOT_LOAD_US : Fld := ⟨0x068, 0, 20, 0⟩
def BOOT_F_IMG_FAIL : Flag := ⟨0x70, 0, 0x0C0, 0⟩
def BOOT_F_SLOT1_USED : Flag := ⟨0x70, 1, 0x0C4, 0⟩
def BOOT_F_APPLY_ERR : Flag := ⟨0x70, 2, 0x0C8, 0⟩
def BOOT_F_PWR_WARN : Flag := ⟨0x70, 3, 0x0CC, 0⟩
def BOOT_F_WARN_END : Flag := ⟨0x70, 4, 0x0D0, 0⟩
def BOOT_F_SERVED : Flag := ⟨0x70, 5, 0x0D4, 0⟩
def BOOT_C_IMAGES_CHECKED : Nat := 0
def BOOT_C_IMG_FAIL : Nat := 1
def BOOT_C_COPIES_SERVED : Nat := 2
def BOOT_C_PWR_WARNS : Nat := 3

/-! ### FUSE -/

def FUSE_LOAD_DONE : Fld := ⟨0x040, 0, 1, 0⟩
def FUSE_INTEGRITY_OK : Fld := ⟨0x040, 1, 1, 0⟩
def FUSE_KEY_PROG : Fld := ⟨0x040, 2, 2, 0⟩
def FUSE_KEY_REVOKED : Fld := ⟨0x040, 4, 2, 0⟩
def FUSE_REPAIR_ROWS : Fld := ⟨0x044, 0, 13, 0⟩
def FUSE_VTRIM : Fld := ⟨0x048, 0, 8, 0⟩
def FUSE_TSENSE_TRIM : Fld := ⟨0x048, 8, 8, 0⟩
def FUSE_REVOKE_KEY : Fld := ⟨0x04C, 0, 32, 0⟩
def FUSE_REVOKE_CMD : Fld := ⟨0x050, 0, 1, 0⟩
def FUSE_KEY_HASH0 : Fld := ⟨0x100, 0, 32, 0⟩
def FUSE_KEY_HASH1 : Fld := ⟨0x140, 0, 32, 0⟩
def FUSE_F_INTEGRITY_FAIL : Flag := ⟨0x70, 0, 0x0C0, 0⟩
def FUSE_F_REVOKE_DONE : Flag := ⟨0x70, 1, 0x0C4, 0⟩
def FUSE_F_REVOKE_REJ : Flag := ⟨0x70, 2, 0x0C8, 0⟩

/-! ### CAL -/

def CAL_LOADED : Fld := ⟨0x040, 0, 1, 0⟩
def CAL_UNLOCKED : Fld := ⟨0x040, 1, 1, 0⟩
def CAL_UNLOCK : Fld := ⟨0x044, 0, 32, 0⟩
def CAL_KIND : Fld := ⟨0x048, 0, 3, 0⟩
def CAL_INDEX : Fld := ⟨0x048, 3, 10, 0⟩
def CAL_CMD : Fld := ⟨0x04C, 0, 2, 0⟩
def CAL_STAT : Fld := ⟨0x050, 0, 3, 0⟩
def CAL_DATA0 : Fld := ⟨0x054, 0, 32, 0⟩
def CAL_DATA1 : Fld := ⟨0x058, 0, 32, 0⟩
def CAL_F_CAL_BAD : Flag := ⟨0x70, 0, 0x0C0, 0⟩
def CAL_F_STORE_WRITTEN : Flag := ⟨0x70, 1, 0x0C4, 0⟩
def CAL_F_LOCKED_REJ : Flag := ⟨0x70, 2, 0x0C8, 0⟩
def CAL_C_STORE_WRITES : Nat := 0
def CAL_C_RELOADS : Nat := 1
def CAL_C_BAD_ITEMS : Nat := 2

/-! ### MEM -/

def MEM_BANKS_ON : Fld := ⟨0x040, 0, 11, 0⟩
def MEM_BANKS_RET : Fld := ⟨0x040, 16, 11, 0⟩
def MEM_BANKS_OFF : Fld := ⟨0x044, 0, 11, 0⟩
def MEM_BANK_IDX : Fld := ⟨0x080, 0, 11, 0⟩
def MEM_BANK_CMD : Fld := ⟨0x084, 0, 3, 0⟩
def MEM_STAT : Fld := ⟨0x088, 0, 2, 0⟩
def MEM_STATE : Fld := ⟨0x08C, 0, 2, 0⟩
def MEM_USER : Fld := ⟨0x08C, 2, 16, 0⟩
def MEM_IN_TEST : Fld := ⟨0x08C, 18, 1, 0⟩
def MEM_REPAIRED : Fld := ⟨0x08C, 19, 3, 0⟩
def MEM_F_BANK_REJ : Flag := ⟨0x70, 0, 0x0C0, 0⟩
def MEM_F_WAKE_STALL : Flag := ⟨0x70, 1, 0x0C4, 0⟩
def MEM_C_WAKES : Nat := 0
def MEM_C_STATE_CHANGES : Nat := 1
def MEM_C_BANK_REJ : Nat := 2

/-! ### FLT -/

def FLT_SRC_STATUS : Fld := ⟨0x040, 0, 32, 0⟩
def FLT_RECLAIM_BUSY : Fld := ⟨0x04C, 0, 1, 0⟩
def FLT_RQ_FILL : Fld := ⟨0x04C, 1, 7, 0⟩
def FLT_TRAP_PIN : Fld := ⟨0x04C, 8, 1, 0⟩
def FLT_ERR_PIN : Fld := ⟨0x04C, 9, 1, 0⟩
def FLT_LAST_SRC : Fld := ⟨0x060, 0, 6, 0⟩
def FLT_LAST_PARTY : Fld := ⟨0x060, 16, 16, 0⟩
def FLT_LAST_BUFS : Fld := ⟨0x064, 0, 32, 0⟩
def FLT_LAST_LOCKS : Fld := ⟨0x068, 0, 16, 0⟩
def FLT_LAST_SLOTS : Fld := ⟨0x068, 16, 16, 0⟩
def FLT_REACT : Fld := ⟨0x100, 0, 5, 4⟩
def FLT_SRC_CNT : Fld := ⟨0x310, 0, 32, 4⟩
def FLT_F_RECLAIM_DONE : Flag := ⟨0x70, 0, 0x0C0, 0⟩
def FLT_F_RECLAIM_QFULL : Flag := ⟨0x70, 1, 0x0C4, 0⟩
def FLT_F_TRAP_SENT : Flag := ⟨0x70, 2, 0x0C8, 0⟩
def FLT_C_FAULTS : Nat := 0
def FLT_C_FENCES : Nat := 1
def FLT_C_BUFS_RECLAIMED : Nat := 2
def FLT_C_LOCKS_RELEASED : Nat := 3
def FLT_C_SLOTS_SKIPPED : Nat := 4
def FLT_C_BLOCK_RESETS : Nat := 5
def FLT_C_TRAPS : Nat := 6
def FLT_C_INJECTIONS : Nat := 7

/-! ### TST -/

def TST_MEM_EN : Fld := ⟨0x040, 0, 1, 0⟩
def TST_ENG_EN : Fld := ⟨0x040, 1, 1, 0⟩
def TST_EYE_EN : Fld := ⟨0x040, 2, 1, 0⟩
def TST_EYE_MIN : Fld := ⟨0x04C, 0, 6, 0⟩
def TST_SWEEP_POS : Fld := ⟨0x050, 0, 18, 0⟩
def TST_LAST_SWEEP : Fld := ⟨0x054, 0, 32, 0⟩
def TST_ENG_K : Fld := ⟨0x058, 0, 4, 0⟩
def TST_ENG_E : Fld := ⟨0x058, 4, 6, 0⟩
def TST_EYE_LANE : Fld := ⟨0x05C, 0, 9, 0⟩
def TST_EYE_WIDTH : Fld := ⟨0x05C, 9, 7, 0⟩
def TST_BANK_IDX : Fld := ⟨0x080, 0, 11, 0⟩
def TST_SOFT_ROWS : Fld := ⟨0x084, 0, 3, 0⟩
def TST_F_MEM_FAIL : Flag := ⟨0x70, 0, 0x0C0, 0⟩
def TST_F_REPAIRED : Flag := ⟨0x70, 1, 0x0C4, 0⟩
def TST_F_UNREPAIRED : Flag := ⟨0x70, 2, 0x0C8, 0⟩
def TST_F_ENG_FAIL : Flag := ⟨0x70, 3, 0x0CC, 0⟩
def TST_F_EYE_LOW : Flag := ⟨0x70, 4, 0x0D0, 0⟩
def TST_F_SWEEP_DONE : Flag := ⟨0x70, 5, 0x0D4, 0⟩
def TST_F_SWEEP_LATE : Flag := ⟨0x70, 6, 0x0D8, 0⟩
def TST_F_DEFERRED : Flag := ⟨0x70, 7, 0x0DC, 0⟩
def TST_C_REGIONS_TESTED : Nat := 0
def TST_C_DEFERRED : Nat := 1
def TST_C_SKIPPED : Nat := 2
def TST_C_MEM_FAIL : Nat := 3
def TST_C_SOFT_REPAIRS : Nat := 4
def TST_C_UNREPAIRED : Nat := 5
def TST_C_ENG_CHECKS : Nat := 6
def TST_C_ENG_FAIL : Nat := 7
def TST_C_EYE_SCANS : Nat := 8
def TST_C_EYE_LOW : Nat := 9
def TST_C_SWEEPS : Nat := 10

/-! ### PMC -/

def PMC_MARK_EN : Fld := ⟨0x040, 0, 1, 0⟩
def PMC_POINT_EN : Fld := ⟨0x040, 1, 8, 0⟩
def PMC_MARK_N : Fld := ⟨0x044, 0, 16, 0⟩
def PMC_GO_CMD : Fld := ⟨0x048, 0, 2, 0⟩
def PMC_TR_STREAM_EN : Fld := ⟨0x050, 0, 1, 0⟩
def PMC_TR_SIZE_LOG2 : Fld := ⟨0x050, 1, 5, 0⟩
def PMC_TR_HEAD : Fld := ⟨0x064, 0, 20, 0⟩
def PMC_TR_FILL : Fld := ⟨0x068, 0, 14, 0⟩
def PMC_GRP : Fld := ⟨0x080, 0, 6, 0⟩
def PMC_CTR : Fld := ⟨0x080, 6, 3, 0⟩
def PMC_CMD : Fld := ⟨0x084, 0, 3, 0⟩
def PMC_STAT : Fld := ⟨0x088, 0, 2, 0⟩
def PMC_EVENT : Fld := ⟨0x08C, 0, 12, 0⟩
def PMC_INST : Fld := ⟨0x08C, 12, 12, 0⟩
def PMC_MODE : Fld := ⟨0x08C, 24, 1, 0⟩
def PMC_CHAIN : Fld := ⟨0x08C, 25, 1, 0⟩
def PMC_EN : Fld := ⟨0x08C, 26, 1, 0⟩
def PMC_VALUE : Fld := ⟨0x090, 0, 32, 0⟩
def PMC_TR_IDX : Fld := ⟨0x0A0, 0, 13, 0⟩
def PMC_TR_DATA : Fld := ⟨0x100, 0, 32, 0⟩
def PMC_F_OVF : Flag := ⟨0x70, 0, 0x0C0, 0⟩
def PMC_F_TRACE_DROP : Flag := ⟨0x70, 1, 0x0C4, 0⟩
def PMC_F_CFG_REJ : Flag := ⟨0x70, 2, 0x0C8, 0⟩
def PMC_C_MARKED : Nat := 0
def PMC_C_TRACE_RECORDS : Nat := 1
def PMC_C_TRACE_DROP : Nat := 2
def PMC_C_SNAPSHOTS : Nat := 3

/-! ### Per-ONU counters (R72) -/

def ONU_C_GRANTS : Nat := 0
def ONU_C_SDU_BYTES : Nat := 14
def ONU_C_BURSTS_OK : Nat := 1
def ONU_C_SDU_OVERSIZE : Nat := 15
def ONU_C_DELIM_MISS : Nat := 2
def ONU_C_REASM_ABORT : Nat := 16
def ONU_C_ID_MISMATCH : Nat := 3
def ONU_C_REASM_TIMEOUT : Nat := 17
def ONU_C_FEC_CW : Nat := 4
def ONU_C_KEY_IDX_ERR : Nat := 18
def ONU_C_FEC_CORR_CW : Nat := 5
def ONU_C_PLOAMU_OK : Nat := 19
def ONU_C_FEC_UNCORR_CW : Nat := 6
def ONU_C_PLOAMU_MIC_ERR : Nat := 20
def ONU_C_FEC_CORR_BITS : Nat := 7
def ONU_C_ES : Nat := 21
def ONU_C_HDR_ERR : Nat := 8
def ONU_C_XGEM_HEC_CORR : Nat := 9
def ONU_C_XGEM_HEC_UNCORR : Nat := 10
def ONU_C_DS_SDU : Nat := 24
def ONU_C_PLI_OVERRUN : Nat := 11
def ONU_C_DS_BYTES : Nat := 25
def ONU_C_TAIL_LOSS_BYTES : Nat := 12
def ONU_C_DS_PLOAM : Nat := 26
def ONU_C_SDU_OK : Nat := 13
def ONU_C_US_UNKNOWN_PORT : Nat := 27
def ONU_C_ORPHAN_FRAG : Nat := 28

end Sys2Proof.Machine
end

