-- ==== Sys2Proof/Config.lean ====
section
/-! DEFINITION. What an implementation fixes and what the manual leaves open: the free values (no body, so that nothing
in Lean can know a value of one) and the constants of the part that no chapter numbers. -/

namespace Sys2Proof.Config

/-- The n-th free value: what the manual leaves open after an operation that goes on (log entry 3). -/
opaque freeValue : Nat → BitVec 64

/-- The USER TYPE of SRAM bank b: which block type the floor plan gives the bank to (R316, R318 MEM; log entry 17). -/
opaque bankUser : Nat → BitVec 16

/-- The instance of that type whose block uses bank b (log entry 17). -/
opaque bankInst : Nat → Nat

/-- The granules of 40 KiB that the on-chip tier holds for landing and quarantine (R199; no chapter states it; log entry 21). -/
opaque onChipGranules : Nat

/-- The scheduler nodes whose state lies in memory region r: pairs of level and node (R326; the floor plan's, log entry 17). -/
opaque regionNodes : Nat → List (Nat × Nat)

/-- The content of a PLOAM message of the supervision cluster, as the PON standards lay it out: on channel c (0 G, 1 X, 2 H) the message
of kind k (0 Assign_ONU-ID, 1 Ranging_Time, 2 Deactivate_ONU-ID, 3 Key_switching_time, 4 idle) to an ONU-ID with an argument (log entry
25). -/
opaque ploamContent : Nat → Nat → Nat → Nat → BitVec 384

/-- The CRC of a G PLOAM message of 12 bytes, and the MIC of an X or H one of 40 bytes under a key (R56; log entry 25). -/
opaque ploamCrc : BitVec 96 → BitVec 8
opaque ploamMic : BitVec 128 → BitVec 320 → BitVec 64

/-- The broadcast default of the PLOAM integrity key (R56; log entry 25). -/
opaque ploamDefault : BitVec 128

/-- What link m's transmitter holds when its n-th sending begins (R250; log entry 44): 58 bits of the scrambler, then which block of a
column comes next. -/
opaque lineState : Nat → Nat → BitVec 60

/-- How IMM gives extract and insert their field's position and width (R151 names both and places neither; log entry 46). -/
opaque fieldPos : Nat → Nat
opaque fieldWidth : Nat → Nat

/-! What the fuses and the factory's calibration store of one part hold (R303, R305; log entry 23). -/

opaque stepping : BitVec 4
opaque uniqueId : BitVec 64
opaque keyProg : BitVec 2
opaque keyRevoked : BitVec 2
opaque keyHash : Nat → BitVec 384
opaque repairRows : Nat → Nat
opaque vTrim : BitVec 8
opaque tsenseTrim : BitVec 8
opaque engOk : Nat → BitVec 32
opaque spareBad : Nat → Bool
opaque calFactory : Nat → Nat → Nat × Nat
opaque calGood : Nat → Nat → Bool

end Sys2Proof.Config
end

