-- ==== Sys2Proof/Machine/Tbl.lean ====
section
/-! DEFINITION. A table of the device as plain data: key and value pairs in one canonical form. Keys rise strictly, and no
entry equals what an unlisted key reads as, so that equal tables are equal data. What an unlisted key reads as is given by
the table's own default function, from the reset column of the manual. -/

namespace Sys2Proof.Machine

/-- A sparse table. -/
abbrev Tbl (α : Type) := List (Nat × α)

/-- The value at key `k`; an unlisted key reads as `d k`. -/
def tget {α : Type} (d : Nat → α) : Tbl α → Nat → α
  | [], k => d k
  | (k', v) :: t, k => if k = k' then v else tget d t k

/-- The table without key `k`. -/
def tdel {α : Type} : Tbl α → Nat → Tbl α
  | [], _ => []
  | (k', v) :: t, k => if k = k' then tdel t k else (k', v) :: tdel t k

/-- The table with `v` listed at key `k`, in key order. -/
def tput {α : Type} : Tbl α → Nat → α → Tbl α
  | [], k, v => [(k, v)]
  | (k', v') :: t, k, v =>
    if k = k' then (k, v) :: t else if k < k' then (k, v) :: (k', v') :: t else (k', v') :: tput t k v

/-- Write `v` at key `k`, keeping the canonical form: a value equal to the default is not listed. -/
def tset {α : Type} [DecidableEq α] (d : Nat → α) (t : Tbl α) (k : Nat) (v : α) : Tbl α :=
  if v = d k then tdel t k else tput t k v

/-- Every key of the table is above `b`. -/
def tabove {α : Type} (b : Nat) (t : Tbl α) : Bool := t.all (fun e => b < e.1)

/-- The canonical form. -/
def twf {α : Type} [DecidableEq α] (d : Nat → α) : Tbl α → Bool
  | [] => true
  | (k, v) :: t => v != d k && tabove k t && twf d t

/-- The default of a table whose unlisted keys hold nothing. -/
def dnone {α : Type} : Nat → Option α := fun _ => none

/-- The default of a table of numbers. -/
def dzero : Nat → Nat := fun _ => 0

/-- The default of a table of lists. -/
def dnil {α : Type} : Nat → List α := fun _ => []

/-- The default of a table of flags. -/
def dfalse : Nat → Bool := fun _ => false

end Sys2Proof.Machine
end

