-- ==== Sys2Proof/Machine/State.lean ====
section
/-! DEFINITION. The state of the QN-5032 as plain data: every register, table, queue, buffer, counter, mode and pin that the
manual gives the device, by family, and the queue of the commands that wait. -/

namespace Sys2Proof.Machine

/-- The reasons the machine stops with a fault: none. The device has no state in which it stops answering; a command that
the device turns away is answered with a status, a flag or a reject code (R27, R282, R351). -/
inductive Fault where
  deriving DecidableEq, Repr

/-- The reasons the model gives a command no meaning. -/
inductive Refusal where
  /-- Raised only by an arm of exec whose command has no meaning yet; safe, since nothing is claimed of it. -/
  | notModelled (mnemonic : String)
  deriving DecidableEq, Repr

/-- An event record's code (R290). The chapters name events by the flag or the happening they announce and number none of
them; the closed list of names is the model's (log entry 5). -/
inductive EvCode where
  /-- The event that goes with a W1C flag of the page. -/
  | flag (off bit : Nat)
  /-- 0x0100 + the EVT field of a microword (R151). -/
  | micro (evt : Nat)
  | lateAction
  | capture
  | stepDone (forced : Bool)
  | baseChanged
  | defect (raised : Bool) (defect : Nat)
  | keyDone
  | keyLate
  | snUnknown
  | rogue (raised : Bool)
  | tplLate
  | memberDown
  | engineLost
  | swapDone
  | roleDone
  | freeze
  | noTrailer
  | linkChange
  | i2cDone
  | pairState (st : Nat)
  | gmChange
  | ownerChange
  | fault (src : Nat)
  | tamper
  | zeroized
  deriving DecidableEq, Repr

/-- An event record (R290): source PAGE_ID, code, slice, whether it is the copy, sequence number, the 64-bit stamp (R38), arguments. -/
structure EvRec where
  src : Nat
  code : EvCode
  dev : Nat
  copy : Bool
  slice : Nat
  seq : Nat
  stamp : Nat
  arg : List Nat
  ownRing : Nat
  pfRing : Nat
  deriving DecidableEq, Repr

/-- A journal record (R295). -/
structure JRec where
  cseq : Nat
  origin : Origin
  code : Nat
  stamp : Pos
  addr : Nat
  old : Word
  new : Word
  mask : Word
  deriving DecidableEq, Repr

/-- A slot of the eMRAM journal (R299). The records stand newest first. -/
structure FlushSlot where
  written : Bool
  headerOk : Bool
  recs : List JRec
  first : Nat
  last : Nat
  cause : Nat
  stamp : Pos
  deriving DecidableEq, Repr

/-- An empty eMRAM slot. -/
def FlushSlot.empty : FlushSlot := ⟨false, false, [], 0, 0, 0, ⟨0, 0, 0⟩⟩

/-- A flush in progress: the slot, the capture and its cause (R298). -/
structure Flush where
  slot : Nat
  recs : List JRec
  cause : Nat
  stamp : Pos
  deriving DecidableEq, Repr

/-- The change journal (R295 to R299): the on-chip ring newest first, the next CSEQ, how many records of the ring stream
still has to send, the host ring's tail, and the two eMRAM slots, which keep their contents without power (R1). -/
structure JrnSt where
  ring : List JRec
  cseq : Nat
  unsent : Nat
  tail : Nat
  slotA : FlushSlot
  slotB : FlushSlot
  flush : Option Flush
  deriving DecidableEq, Repr

/-- An event ring of a function (R290 to R292, R300); `pend` records wait for their interrupt since fine step `since`. -/
structure EvRing where
  sizeLog2 : Nat
  running : Bool
  coalCnt : Nat
  coalUs : Nat
  base : Nat
  tailWb : Nat
  head : Nat
  tail : Nat
  drops : Nat
  pend : Nat
  since : Nat
  deriving DecidableEq, Repr

/-- An event ring at reset (R300, EVT table). -/
def EvRing.init : Nat → EvRing := fun _ => ⟨6, false, 1, 0, 0, 0, 0, 0, 0, 0, 0⟩

/-- The event path: the on-chip FIFO, oldest first, and the rings of each function, 15 a function. -/
structure EvtSt where
  fifo : List EvRec
  rings : Tbl EvRing
  deriving DecidableEq, Repr

/-- What the device writes into host memory or sends toward the host (R242 to R244, R290, R297, R331). -/
inductive HostRec where
  | event (r : EvRec)
  | journal (r : JRec)
  | tail (n : Nat)
  | h2dDone (ring idx : Nat) (ts : Option Nat) (err : Nat)
  | d2hDone (ring idx len : Nat) (ts : Option Nat) (err : Nat)
  | head (n : Nat)
  | trace (page point mark arg stamp : Nat)
  | msix (fn vec : Nat)
  deriving DecidableEq, Repr

/-- How the last register access completed (R9, R282). -/
inductive Completion where
  | normal
  | unsupported
  deriving DecidableEq, Repr

/-- The register file and its accesses: every register word by its PF BAR0 address, the 48-bit counters by theirs, the
latched high words of two-word reads (R71), the last read's data and completion, and the origins whose last write was an
arming key (R300, R304) with the key's register address. -/
structure BusSt where
  regs : Tbl Word
  cnt : Tbl Nat
  latch : Tbl Nat
  data : Word
  done : Completion
  armed : List (Origin × Nat)
  hostOut : List (Nat × HostRec)
  deriving DecidableEq, Repr

/-- Owners that have no page of their own (R26, R294): ONUs by 512p + i, uplink-bound queues, host rings. -/
structure OwnSt where
  onu : Tbl Nat
  queue : Tbl Nat
  ring : Tbl Nat
  deriving DecidableEq, Repr

/-- A time of day: seconds, nanoseconds and 2^-16 ns (R41). -/
structure ToD where
  sec : Nat
  ns : Nat
  frac : Nat
  deriving DecidableEq, Repr

/-- A ToD base (R41, R42). -/
structure ToDBase where
  frame : Nat
  at_ : ToD
  deriving DecidableEq, Repr

/-- Who asked for a grid step: STEP_CMD, the first alignment, or a mesh join (R33, R35, R263). -/
inductive StepBy where
  | command
  | alignment
  | join
  deriving DecidableEq, Repr

/-- A pending step: its size in fine steps, the frame numbers it adds (a join adopts the master's, R263), FORCE, the frame
it applies to, and who asked (R35, R356). -/
structure StepReq where
  fine : Int
  jump : Int
  force : Bool
  frame : Nat
  by_ : StepBy
  deriving DecidableEq, Repr

/-- A captured edge (R51). -/
structure Cap where
  pos : Pos
  rising : Bool
  deriving DecidableEq, Repr

/-- What a posted timed action does when it fires (R19, R74). -/
inductive ActKind where
  | brst (p c : Nat)
  | preload (p c : Nat)
  | rssi (p c : Nat)
  | mapOut (p c : Nat)
  | tod (q : Nat)
  | other (src : Nat)
  deriving DecidableEq, Repr

/-- A posted timed action with its source page (R19). -/
structure Action where
  kind : ActKind
  base : Nat
  pos : Pos
  deriving DecidableEq, Repr

/-- The Graticule (R30 to R51). `residual` is the phase still to slew out, in fine steps; `fromFree` marks the acquisition
that follows FREE until its first alignment; `edges` counts the PPS edges of the active pair since acquisition began, `slewed` the
recent frames whose length a slew changed, `second` the grid second whose boundary was the last to be judged (R70). `epoch` is the
number of fine steps that the grid has run up to the present frame's start, `before` the number and the length of the frame before it,
`otherPhase` the phase error against the PPS of the pair that is not in use (R346), and `emptyMaps` the frames whose pending step was
replaced (R356). `lastPps` and `capLast` are counted as `epoch` is. `bcap` holds the captures of the 96 burst-capture channels: the
32-bit nanoseconds and the 8-bit fraction (R50). -/
structure GridSt where
  running : Bool
  now : Pos
  frameLen : Nat
  fromFree : Bool
  pulled : Bool
  edges : Nat
  good : Nat
  freqHist : List Int
  residual : Int
  step : Option StepReq
  base : ToDBase
  baseNext : Option (Nat × ToDBase)
  todSec : Option Nat
  mismatch : Nat
  lastPps : Option Nat
  capFifo : Tbl (List Cap)
  capLast : Tbl (Option Nat)
  posted : List Action
  slewed : List Nat
  second : Nat
  epoch : Nat
  before : Nat × Nat
  otherPhase : Option Int
  emptyMaps : List Nat
  bcap : Tbl (Nat × Nat)
  deriving DecidableEq, Repr

/-! ### PON channels (03_pon_channels.md) -/

/-- An ONU record (R72 ONU_REC): `defects` and `reported` hold bit 0 LOSi, 1 LOFi, 2 SNMi, 3 DOWi, 4 SFi, 5 SDi. -/
structure OnuRec where
  ch : Nat
  onuId : Nat
  state : Nat
  mtch : Nat
  defects : Nat
  reported : Nat
  valid : Bool
  held : Bool
  expSn : BitVec 64
  expReg : BitVec 288
  seenSn : BitVec 64
  deriving DecidableEq, Repr

/-- A record at reset (R72: ONU_REC resets to 0). -/
def OnuRec.init : Nat → OnuRec := fun _ => ⟨0, 0, 0, 0, 0, 0, false, false, 0, 0, 0⟩

/-- One second's classification in the 10-second commit pipeline (R70). -/
structure PmSec where
  es : Bool
  ses : Bool
  uas : Bool
  deriving DecidableEq, Repr

/-- What defect evaluation and performance monitoring keep of an ONU or a channel (R66, R70): the last granted frames without and
with light, runs over granted frames and bursts, the second's blocks, errored blocks, bits and bit errors, and the pipeline of seconds. -/
structure PmRec where
  darkFrame : Option Nat
  litFrame : Option Nat
  noLight : Nat
  noDelim : Nat
  goodRun : Nat
  delimRun : Nat
  blocks : Nat
  errored : Nat
  bits : Nat
  errs : Nat
  defect : Bool
  sesRun : Nat
  clearRun : Nat
  unavail : Bool
  secs : List PmSec
  deriving DecidableEq, Repr

/-- Nothing counted yet. -/
def PmRec.init : Nat → PmRec := fun _ => ⟨none, none, 0, 0, 0, 0, 0, 0, 0, 0, false, 0, 0, false, []⟩

/-- An XGEM or GEM port entry (R62). -/
structure XpEntry where
  portId : Nat
  ch : Nat
  onu : Nat
  dir : Nat
  mcast : Bool
  valid : Bool
  deriving DecidableEq, Repr

/-- An entry at reset. -/
def XpEntry.init : Nat → XpEntry := fun _ => ⟨0, 0, 0, 0, false, false⟩

/-- A reassembly context (R61): an open partial SDU, its bytes so far, the frame of its last fragment, and whether it has
passed SDU_MAX. -/
structure Reasm where
  bytes : List Byte
  len : Nat
  last : Nat
  tooLong : Bool
  deriving DecidableEq, Repr

/-- The content of a downstream PLOAM message (R56, R69, R98, R100). -/
inductive PloamBody where
  | assign
  | rangingTime (eqd : Nat)
  | deactivate
  | keySwitch (frame : Nat)
  | host (words : List Word)
  | idle
  deriving DecidableEq, Repr

/-- A downstream PLOAM message: what it says, the record it concerns (512 for none), the ONU-ID it names, and when its push
completed (R57). -/
structure Ploam where
  body : PloamBody
  onu : Nat
  onuId : Nat
  at_ : Pos
  deriving DecidableEq, Repr

/-- A PLOAM message as it is sent: its words and the CRC or MIC that the device computes (R56). -/
structure PloamTx where
  m : Ploam
  words : List Word
  check : Nat
  deriving DecidableEq, Repr

/-- A pending key switch (R63, R64, R358): the record it was bound to, its ONU-ID, the slot and the switch frame. -/
structure KeySw where
  onu : Nat
  onuId : Nat
  slot : Nat
  frame : Nat
  deriving DecidableEq, Repr

/-- A downstream SDU that a framer has taken and not finished (R55): its queue, the buffer that goes with its end, the port entry,
its length, the bytes left, its trace mark (R331), and the header bytes of a bonding fragment (R139). -/
structure DsPart where
  queue : Nat
  handle : Option Nat
  flow : Nat
  len : Nat
  left : Nat
  mark : Option (Nat × Nat × Nat)
  head : List Nat
  deriving DecidableEq, Repr

/-- A GEM or XGEM frame that a framer has put into the present frame (R52, R62, R64): the port identifier, the payload length, the key
index that it names (0 for clear), whether it is sealed, whether it is the SDU's last fragment, and the header bytes of a bonding
fragment that it begins with. -/
structure FragTx where
  portId : Nat
  len : Nat
  keyIdx : Nat
  sealed_ : Bool
  last : Bool
  head : List Nat
  deriving DecidableEq, Repr

/-- A channel's framer, PLOAM queues, key switch and LOS_CH run (R54 to R57, R64, R66, R348). `offer` is the SDU that TMS committed to
a pull that it answered late: ONU node, queue and buffer (R192). Of the present downstream frame `superframe` is the counter (R45),
`room` the payload bytes left, `frags` and `section_` what was sent in it, and `cut` by how many fine steps a grid step shortens
(negative) or idle-pads it (R36). -/
structure ChSt where
  urgent : List Ploam
  normal : List Ploam
  retry : List Ploam
  upq : List (List Byte)
  keySw : Option KeySw
  losRun : Nat
  granted : Bool
  gotBurst : Bool
  parts : List DsPart
  lastMap : Option Nat
  mapStructs : Nat
  offer : Option (Nat × Nat × Nat)
  superframe : Nat
  room : Nat
  frags : List FragTx
  section_ : List PloamTx
  cut : Int
  deriving DecidableEq, Repr

/-- A channel at reset. -/
def ChSt.init : Nat → ChSt := fun _ => ⟨[], [], [], [], none, 0, false, false, [], none, 0, none, 0, 0, [], [], 0⟩

/-! ### Burst reception (04_burst_receive.md) -/

/-- What a granted stretch of upstream is for (R127). -/
inductive BurstKind where
  | data
  | keepAlive
  | ploamOnly
  | template (t : Nat)
  | ranging
  | survey
  | dark
  deriving DecidableEq, Repr

/-- One granted burst, window or dark slot of a map (R73, R127, R357). `prof` is the profile and `words` its words as they
stood when the map was built; `allocs` are its Alloc-ID grants: slot, Alloc-ID value, payload bytes; `hp`, `ps` and `end_` are fine-step
indices; `open_` and `close` bound a window or slot. -/
structure Burst where
  kind : BurstKind
  onu : Nat
  onuId : Nat
  mapFrame : Nat
  start : Nat
  size : Nat
  prof : Nat
  words : List Word
  allocs : List (Nat × Nat × Nat)
  ploam : Bool
  warm : Bool
  hp : Nat
  ps : Nat
  end_ : Nat
  open_ : Nat
  close : Nat
  late : Bool
  pulsed : Bool
  loaded : Bool
  preload : Option (Nat × Nat)
  deriving DecidableEq, Repr

/-- A phase-memory entry (R86); `written` is 0 for one never written (R88). -/
structure PhaseEntry where
  phase : Nat
  peak : Nat
  rate : Nat
  stamp : Nat
  valid : Bool
  written : Bool
  deriving DecidableEq, Repr

/-- An entry at reset. -/
def PhaseEntry.init : Nat → PhaseEntry := fun _ => ⟨0, 0, 0, 0, false, false⟩

/-- A pending RSSI request (R82): an ONU index, or the next dark slot. -/
structure RssiReq where
  onu : Nat
  dark : Bool
  at_ : Nat
  deriving DecidableEq, Repr

/-- A burst received whose write-back is due (R86): the phase and peaking code that the lane held at its last bit, what trims have added
to the phase since, and whether the entry becomes valid (R115). -/
structure Back where
  b : Burst
  phase : Nat
  peak : Nat
  shift : Nat
  valid : Bool
  deriving DecidableEq, Repr

/-- A channel's burst receiver and lane (R78 to R94, R353): the rate of the last entry that has left the schedule (none while unknown), its phase and
peaking code, the SD level taken, the schedule of granted bursts, windows and dark slots in time order, the predicted end of
the last burst, the last BRST and RSSI_TRIG edges at the module's pins (fine-step indices), the dark-slot results (newest
first), bursts received whose write-back is due, and the phase-memory values that recent stores replaced, with the index and
the position of the store. -/
structure LaneSt where
  rate : Option Nat
  phase : Nat
  peak : Nat
  sd : Bool
  sched : List Burst
  lastEnd : Option Nat
  brstRise : Nat
  brstFall : Nat
  dark : List Bool
  rssi : Option RssiReq
  rssiRise : Nat
  rssiFall : Nat
  back : List Back
  stored : List (Nat × Nat × PhaseEntry)
  deriving DecidableEq, Repr

/-- A lane at reset (R88, R353). -/
def LaneSt.init : Nat → LaneSt := fun _ => ⟨none, 0x80, 16, false, [], none, 0, 0, [], none, 0, 0, [], []⟩

/-! ### Survey and ranging (05_ranging.md) -/

/-- The ranging values and the supervision progress of a record (R98 to R116). Frames are the frame numbers in which a
message was sent or a state entered; `drift` is A; `rtdHi` is RTD_hi in gt; `want` marks a ranging grant that waits to be
placed, `ranged` a response found whose Ranging_Time is not sent yet; `bitTime40` is the bit time of the fastest profile
granted since ranging, in 1/40 fine step, 0 before the first; `deactTo` the channel and the ONU-ID that Deactivate_ONU-ID names. -/
structure RngRec where
  eqd : Nat
  res : Int
  adj : Bool
  sends : Nat
  delta : Int
  drift : Rat
  rtd : Int
  rangedFrame : Nat
  rtdHi : Int
  prof : Nat
  tries : Nat
  reranging : Bool
  rerangeReq : Bool
  want : Bool
  ranged : Bool
  assignSent : Option Nat
  rangingSent : Option Nat
  grantFrame : Option Nat
  grantS : Nat
  since : Nat
  adjSent : Nat
  deacts : Nat
  bitTime40 : Nat
  deactTo : Option (Nat × Nat)
  deriving DecidableEq, Repr

/-- A record's ranging values at reset. -/
def RngRec.init : Nat → RngRec :=
  fun _ => ⟨0, 0, false, 0, 0, 0, 0, 0, 0, 0, 0, false, false, false, false, none, none, none, 0, 0, 0, 0, 0, none⟩

/-- An open Survey window (R103, R107 to R109): its map frame and StartTime, its profile, the serial numbers heard, whether a valid
serial number was found, its interval, the header point of the last response found, and whether light fell in a paused interval
(R354). -/
structure SurveyWin where
  mapFrame : Nat
  start : Nat
  prof : Nat
  heard : Nat
  valid : Bool
  open_ : Nat
  close : Nat
  found : Option Nat
  clash : Bool
  deriving DecidableEq, Repr

/-- A channel's Survey (R103 to R106): the map frame of the last window, the run of windows without light, which of the two
profiles is next, the open windows, oldest first, the quiet intervals reserved, as fine-step indices, and whether the window that is due
has been counted as deferred. -/
structure SurveySt where
  last : Option Nat
  run : Nat
  altB : Bool
  wins : List SurveyWin
  quiet : List (Nat × Nat)
  deferred : Bool
  deriving DecidableEq, Repr

/-- A channel's Survey at reset. -/
def SurveySt.init : Nat → SurveySt := fun _ => ⟨none, 0, false, [], [], false⟩

/-! ### Allocation (06_allocation.md) -/

/-- An Alloc-ID descriptor (R120, R125). `report` is the last report with the map frame of the burst that carried it, and
`recent` the payload bytes granted in the maps built since. -/
structure AdRec where
  allocId : Nat
  onu : Nat
  valid : Bool
  tier : Nat
  fixed : Nat
  assured : Nat
  max_ : Nat
  weight : Nat
  bpQ : Nat
  demand : Nat
  sat : Bool
  bpLevel : Nat
  granted : Nat
  report : Nat
  recent : List (Nat × Nat)
  deriving DecidableEq, Repr

/-- A descriptor at reset (R136: WEIGHT 1). -/
def AdRec.init : Nat → AdRec := fun _ => ⟨0, 0, false, 0, 0, 0, 0, 1, 0, 0, false, 0, 0, 0, []⟩

/-- An ONU's burst settings (R136 ALC ONU burst window). -/
structure ObRec where
  cold : Nat
  warm : Nat
  warmEn : Bool
  usKind : Nat
  deriving DecidableEq, Repr

/-- Burst settings at reset. -/
def ObRec.init : Nat → ObRec := fun _ => ⟨0, 0, false, 0⟩

/-- A bandwidth map (R122 to R131): its frame, its bursts, its structures and idle units, and how far it has come. -/
structure BwMap where
  frame : Nat
  bursts : List Burst
  structs : Nat
  idle : Nat
  templates : Nat
  sealed_ : Bool
  deriving DecidableEq, Repr

/-- A status report delivered and not yet taken into a map, with the position of its delivery, a fine-step index (R122, R125). -/
structure Report where
  allocId : Nat
  bytes : Nat
  sat : Bool
  mapFrame : Nat
  at_ : Nat
  deriving DecidableEq, Repr

/-- A channel's allocation engine (R122 to R130): the map being built, the reports of the open window, the ONUs whose last
burst flagged a waiting PLOAM, the two tier pointers, and the bank in which the pass began (R164). -/
structure AllocCh where
  map : Option BwMap
  reports : List Report
  waiting : List Nat
  ptr1 : Nat
  ptr2 : Nat
  bank : Bool
  deriving DecidableEq, Repr

/-- An engine at reset. -/
def AllocCh.init : Nat → AllocCh := fun _ => ⟨none, [], [], 0, 0, false⟩

/-- The schedule of a loaded template (R132, R134). -/
structure TplCfg where
  ch : Nat
  cycle : Nat
  first : Nat
  count : Nat
  start : Nat
  begin_ : Nat
  deriving DecidableEq, Repr

/-- A template slot (R134): the active schedule, the pending one, the frame it stops from, and the cause of the last load. -/
structure Tpl where
  active : Option TplCfg
  pending : Option TplCfg
  stopAt : Option Nat
  rej : Nat
  beginFrame : Nat
  deriving DecidableEq, Repr

/-- A template slot at reset. -/
def Tpl.init : Nat → Tpl := fun _ => ⟨none, none, none, 0, 0⟩

/-- A template entry (R132). -/
structure TplEntry where
  ofs : Nat
  ad : Nat
  start : Nat
  size : Nat
  deriving DecidableEq, Repr

/-- A template entry at reset. -/
def TplEntry.init : Nat → TplEntry := fun _ => ⟨0, 0, 0, 0⟩

/-! ### Bonding (07_bonding.md) -/

/-- A fragment held in the merge (R143), with the pool buffer it occupies (R144). -/
structure HeldFrag where
  seq : Nat
  datum : Nat
  mapFrame : Nat
  first : Bool
  last : Bool
  bytes : List Byte
  len : Nat
  handle : Option Nat
  deriving DecidableEq, Repr

/-- A bonded group (R137 to R147). `sX` and `sH` are the split counters, `upX` and `upH` the boundaries each member has been
up, `join` the fragments joined so far and `bad` whether the unit being joined has lost one; `freeing`
holds the fields written with VALID 0 until the frame boundary that frees the group (R146): ONU_X, ONU_H, XGEM_X, XGEM_H, W_X, W_H,
FRAG_MAX, DS_Q, US_Q. -/
structure Grp where
  onuX : Nat
  onuH : Nat
  valid : Bool
  state : Nat
  xgemX : Nat
  xgemH : Nat
  wX : Nat
  wH : Nat
  fragMax : Nat
  newW : Option (Nat × Nat × Nat)
  dsQ : Nat
  usQ : Nat
  dsSeq : Nat
  next : Nat
  maxSkew : Nat
  sX : Nat
  sH : Nat
  upX : Nat
  upH : Nat
  held : List HeldFrag
  join : Option (List Byte × Nat)
  bad : Bool
  freeing : Option (List Nat)
  cnts : List Nat
  deriving DecidableEq, Repr

/-- A group at reset (R147: W_X 1, W_H 5, FRAG_MAX 1,536). -/
def Grp.init : Nat → Grp := fun _ =>
  ⟨0, 0, false, 0, 0, 0, 1, 5, 1536, none, 0, 0, 0, 0, 0, 0, 0, 0, 0, [], none, false, none, List.replicate 16 0⟩

/-- An SDU handed to the packet engines and not landed yet (R13, R145): its source ONU node and its bytes. -/
structure UpSdu where
  src : Nat
  len : Nat
  bytes : List Byte
  deriving DecidableEq, Repr

/-- A fragment handed to the bonding merge and not arrived there yet (R58, R138): its port and channel, the XGEM port it came
on, its length, its map frame and its bytes. -/
structure BondIn where
  port : Nat
  ch : Nat
  portId : Nat
  len : Nat
  mapFrame : Nat
  bytes : List Byte
  deriving DecidableEq, Repr

/-- The PON side of the device. Records are keyed 512p + i, channels 3p + c, entries 8,192p + j, phase memory 512n + i,
descriptors 2,048p + slot, templates 16p + t, template entries 1,024p + e, groups 64p + g, ONU counters 32(512p + i) + j.
`txdis` is the state of TXDIS[p]: 0 not driven, 1 low, 2 high (R83); `custody` whether the port holds custody (R266). -/
structure PonSt where
  onu : Tbl OnuRec
  pm : Tbl PmRec
  onuCnt : Tbl Nat
  chPm : Tbl PmRec
  xp : Tbl XpEntry
  reasm : Tbl (Option Reasm)
  ch : Tbl ChSt
  lane : Tbl LaneSt
  phase : Tbl PhaseEntry
  rng : Tbl RngRec
  survey : Tbl SurveySt
  ad : Tbl AdRec
  ob : Tbl ObRec
  alloc : Tbl AllocCh
  tpl : Tbl Tpl
  ent : Tbl TplEntry
  grp : Tbl Grp
  txdis : Tbl Nat
  upSdu : List UpSdu
  bondIn : List BondIn
  deriving DecidableEq, Repr

/-- The PON side at reset: every table empty. -/
def PonSt.init : PonSt := ⟨[], [], [], [], [], [], [], [], [], [], [], [], [], [], [], [], [], [], [], []⟩

/-! ### Custody and protection (13_protection.md) -/

/-- A protected pair, by its local port (R265 to R277, R279). `expiry` is the frame at which an armed lease runs down,
`heard` the last slot heard from the peer, `due` the frame of the next timed change (custody point, end of SETTLE), `watch`
the CHECK window in frames, `light` whether light was seen in it, `rollcall` the roll-call maps still to build, `losRun` the
frames of LOS_CH on every enabled channel, `missRun` the consecutive mirror frames missed, `peer*` what the peer's PAIR
records said, `claim` the frame at which a claim applies, `outOfRange` the records marked OUT_OF_RANGE and `peerOfs` the peer's US_OFFSET
of each channel (R275, R276). `custody`
is what a port that belongs to no enabled pair holds by itself (R266). -/
structure PairSt where
  en : Bool
  kind : Nat
  peerPort : Nat
  link : Nat
  startActive : Bool
  autoYield : Bool
  state : Nat
  armed : Bool
  lease : Nat
  delta : Int
  next : Option (Nat × Int × Bool)
  expiry : Nat
  heard : Option Nat
  due : Option Nat
  watch : Option (Nat × Nat)
  light : Bool
  rollcall : Nat
  losRun : Nat
  missRun : Nat
  peerState : Nat
  peerSync : Bool
  resync : Bool
  claim : Option Nat
  outOfRange : List Nat
  peerOfs : List Nat
  custody : Bool
  deriving DecidableEq, Repr

/-- A pair at reset (R279: LEASE_FRAMES 32). -/
def PairSt.init : Nat → PairSt := fun _ =>
  ⟨false, 0, 0, 0, false, false, 0, false, 32, 0, none, 0, none, none, none, false, 0, 0, 0, 0, false, false, none, [], [0, 0, 0], false⟩

/-- Ticks on the two paths of a link (R268, R269): the slot last sent, the slot last heard on each path, the run of missed
slots, the slot last judged, the stamps of the last ticks for the GRID exchange (R262), the frame in which GRID_MASTER was
last heard, and the dark and the RESET notices sent (R257, R269). -/
structure TickSt where
  lastTx : Option Nat
  heardLink : Option Nat
  heardPin : Option Nat
  missed : Nat
  judged : Nat
  txStamp : Nat
  rxStamp : Nat
  rxCnt : Nat
  masterSeen : Option Nat
  notices : Nat
  resets : Nat
  deriving DecidableEq, Repr

/-- Ticks at reset. -/
def TickSt.init : Nat → TickSt := fun _ => ⟨none, none, none, 0, 0, 0, 0, 0, none, 0, 0⟩

/-- Pairs by local port and ticks by link; the last measured offset from the master's grid in fine steps, whole frames included
(R262, R263), and whether the master was declared failed and a backup has not taken over yet (R264). -/
structure ProtSt where
  pair : Tbl PairSt
  tick : Tbl TickSt
  offset : Option Int
  masterLost : Bool
  deriving DecidableEq, Repr


/-! ### Keys (11_cipher.md) -/

/-- A key slot (R217): MODE, key, SALT, PN, LAST_PN and its counters (FRAMES, SEAL_OK, TAG_FAIL, REPLAY). -/
structure KeySlot where
  mode : Nat
  key : BitVec 256
  salt : BitVec 48
  pn : Nat
  lastPn : Nat
  warned : Bool
  exhausted : Bool
  since : Nat
  cnts : List Nat
  deriving DecidableEq, Repr

/-- An empty slot. -/
def KeySlot.init : KeySlot := ⟨0, 0, 0, 0, 0, false, false, 0, List.replicate 4 0⟩

/-- The key entry of an ONU node (R63, R65, R217): downstream and upstream slots (first, second), the PLOAM integrity key,
the active slots, and the upstream slot in grace with the frame at which its grace ends. -/
structure KeyEntry where
  ds0 : KeySlot
  ds1 : KeySlot
  us0 : KeySlot
  us1 : KeySlot
  ploam : BitVec 128
  dsActive : Option Nat
  usActive : Option Nat
  grace : Option (Nat × Nat)
  deriving DecidableEq, Repr

/-- An empty entry. -/
def KeyEntry.init : Nat → KeyEntry := fun _ =>
  ⟨KeySlot.init, KeySlot.init, KeySlot.init, KeySlot.init, 0, none, none, none⟩

/-! ### Packets, queues, schedulers and buffers (09_classification.md, 10_queues_buffers.md) -/

/-- A packet on its way from landing to enqueue (R160, R171, R174, R177): source and sequence number, its direction and slice, its length and bytes,
its buffer, the parse record and the Legend key, class and colour, the queue selected (bit 16 set for an uplink-bound one, bit 17
for a host ring, bit 18 for none),
the destination kind and index, its flow, an offset still to be resolved against a destination, whether each
replica of it is resolved anew, its trace mark, and what a host descriptor passes to the microcode
(R243 META), and where a PTP event message arrived (R47). -/
structure Packet where
  src : Nat
  seq : Nat
  dir : Dir
  slice : Nat
  len : Nat
  bytes : List Byte
  handle : Option Nat
  record : Nat
  key : Nat
  cls : Nat
  colour : Nat
  qsel : Nat
  dest : Option (Nat × Nat)
  flow : Nat
  rel : Option Nat
  group : Bool
  mark : Option Nat
  meta_ : Nat
  at_ : Option Pos
  deriving DecidableEq, Repr

/-- The queue select of a packet for which no queue has been selected. -/
def noSelect : Nat := 2 ^ 18

/-- No packet. -/
def Packet.none : Packet := ⟨0, 0, .downstream, 0, 0, [], .none, 0, 0, 0, 0, noSelect, .none, 0, .none, false, .none, 0, .none⟩

/-- Where a queued frame's payload lies (R207, R209, R212): the stacked tier (its warm share), the stacked tier held back from
spilling, the staging area, an expander, or on an expander that was lost. -/
inductive Place where
  | stacked
  | held
  | staged
  | expander (x : Nat)
  | lost (x : Nat)
  deriving DecidableEq, Repr

/-- A frame in a queue (R206 to R208): its first buffer, its length, the bytes it is charged, the place of its payload, its
flow and bytes, the payload bytes already fragmented away by a bonded group (R141), and its trace mark with its source and
sequence (R331). -/
structure QFrame where
  handle : Nat
  len : Nat
  charge : Nat
  place : Place
  flow : Nat
  bytes : List Byte
  sent : Nat
  mark : Option (Nat × Nat × Nat)
  deriving DecidableEq, Repr

/-- A queue (R205 to R213): its settings, its occupancy in bytes, its frames, oldest first, and its 8 counters. PARENT is the
port node of an uplink-bound queue. -/
structure Queue where
  parent : Nat
  rsv : Nat
  warm : Nat
  max_ : Nat
  yel : Nat
  red : Nat
  t1 : Nat
  t2 : Nat
  occ : Nat
  frames : List QFrame
  cnts : List Nat
  deriving DecidableEq, Repr

/-- A queue at reset (R215). -/
def Queue.init : Nat → Queue := fun _ => ⟨0, 0, 64, 8192, 6144, 4096, 4096, 6144, 0, [], List.replicate 8 0⟩

/-- A scheduling node (R194 to R198). `mode` is true in token-bucket mode; `settle` is the settle period in force, its first
frame and its length (none: the one that release started); `start` is the virtual start of the head, `wt` and `adj` WEIGHT and
LEN_ADJ as they stood when it became the head, `f` the finish tag of the last head that has gone; `credit` in 2^-16 byte, as it
stood at gt `at_`; `busy` the gt until which the node sends. -/
structure Node where
  weight : Nat
  lenAdj : Int
  shapeEn : Bool
  rate : Nat
  creditHi : Nat
  burst : Nat
  mode : Bool
  settle : Option (Nat × Nat)
  start : Nat
  wt : Nat
  adj : Int
  f : Nat
  v : Nat
  credit : Int
  at_ : Nat
  busy : Nat
  deriving DecidableEq, Repr

/-- A node at reset (R215). -/
def Node.init : Nat → Node := fun _ => ⟨1, 0, false, 0, 16384, 16384, true, none, 0, 1, 0, 0, 0, 0, 0, 0⟩

/-- A buffer (R199, R203): its owner tag, the tag of each party that holds a reference, and the rest of its chain. -/
structure Buf where
  tag : Nat
  holders : List Nat
  chain : List Nat
  deriving DecidableEq, Repr

/-- A free buffer. -/
def Buf.init : Nat → Buf := fun _ => ⟨0, [], []⟩

/-- Who waits for a buffer (R201): a frame at the MACsec quarantine of an uplink port, a frame that lands, with where it arrived and
its META, a fragment for the bonding merge, an engine context for a buffer of its own, an enqueue, with the context that issued
it, if one did, a prefetch into a queue, or a migration off an expander. -/
inductive WaitFor where
  | quarantine (q : Nat) (f : UplinkIn) (at_ : Pos)
  | landing (src len : Nat) (bytes : List Byte) (at_ : Option Pos) (meta_ : Nat)
  | merge (p g : Nat) (f : HeldFrag)
  | engine (c : CtxId)
  | enqueue (q : Nat) (p : Packet) (repl : Bool) (owner : Nat) (c : Option CtxId)
  | prefetch (q : Nat)
  | migrate (x : Nat)
  deriving DecidableEq, Repr

/-- A request in a pool's wait queue (R201): the requester, the bytes asked for, and who waits. -/
structure WaitReq where
  req : Nat
  bytes : Nat
  who : WaitFor
  deriving DecidableEq, Repr

/-- The queue manager, the scheduler and the buffer pools. Queues are keyed q downstream and 65,536 + j uplink-bound; nodes
2^17 × level + index; ONU ranges by ONU node; buffers by handle; wait queues by pool. `drr` are the deficits of the slices in
spill and `drrAt` the slice in turn (R210); `settleAll` is the settle period that release started (R197); `exp` the frame in
which an expander's training began (R246). -/
structure QSt where
  q : Tbl Queue
  onu : Tbl (Nat × Nat)
  node : Tbl Node
  buf : Tbl Buf
  wait : Tbl (List WaitReq)
  drr : Tbl Nat
  drrAt : Nat
  settleAll : Nat × Nat
  exp : Tbl (Option Nat)
  deriving DecidableEq, Repr


/-! ### Engines (08_engines.md) -/

/-- What a unit answers a context (R154): lookup-result words, a general register, a destination select, a buffer handle, the
conditions it raises, and the MALFORMED status of a Legend match (R173). -/
structure UnitRes where
  lr : List (Nat × Nat)
  gp : Option (Nat × Nat)
  dst : Option (Nat × Nat)
  handle : Option (Option Nat)
  hit : Bool
  pass : Bool
  refused : Bool
  conflict : Bool
  malformed : Bool
  deriving DecidableEq, Repr

/-- An answer that carries nothing. -/
def UnitRes.plain : UnitRes := ⟨[], none, none, none, false, false, false, false, false⟩

/-- A context's request on a unit (R155): none, one that waits its turn, or one whose answer is on its way. -/
inductive Out where
  | idle
  | waiting
  | ready (r : UnitRes)
  deriving DecidableEq, Repr

/-- The operands of a word, taken before anything of the word acts, and its ALU results (R151). -/
structure Latch where
  a : Nat
  b : Nat
  c : Nat
  ra : Nat
  rb : Nat
  deriving DecidableEq, Repr

/-- A context (R148 to R157). `st` is 0 IDLE, 1 READY, 2 RUNNING, 3 WAITING, 4 FAULTED. `acted` has a bit for each field of
the word at pc that has acted; `conds` holds the conditions 1 to 15 and 40; the outstanding requests stand by unit;
`sinceSafe` and `words` count words since the last safe point and in the dispatch; `halted` that it stopped at a safe point;
`slot` whether it holds a reorder slot. -/
structure Ctx where
  st : Nat
  pc : Nat
  bank : Bool
  gp : Tbl Nat
  hw : Tbl Nat
  lr : Tbl Nat
  flags : Nat
  stack : List Nat
  loop : Nat
  prevA : Nat
  prevB : Nat
  conds : Nat
  latch : Option Latch
  acted : Nat
  mem : Out
  tbl : Out
  cip : Out
  bpm : Out
  tmq : Out
  hdr : Out
  wait : Option (Nat × Bool)
  sinceSafe : Nat
  words : Nat
  cause : Nat
  stop : Bool
  halted : Bool
  irq : Bool
  slot : Bool
  scratch : Tbl Nat
  pkt : Packet
  deriving DecidableEq, Repr

/-- A context at reset. -/
def Ctx.init : Nat → Ctx := fun _ =>
  ⟨0, 0, false, [], [], [], 0, [], 0, 0, 0, 0, none, 0, .idle, .idle, .idle, .idle, .idle, .idle, none, 0, 0, 0, false, false,
    false, false, [], Packet.none⟩

/-- A cluster (R148, R163 to R166): shared scratch by byte, shared registers, the two banks of the control store with the lengths of their
images, the engines
lost, whether the spare itself is lost or leaving service, and the engine that drains. -/
structure Cluster where
  scratch : Tbl Nat
  sh : Tbl Nat
  bankA : Tbl (BitVec 160)
  bankB : Tbl (BitVec 160)
  lenA : Nat
  lenB : Nat
  loadWord : List Word
  oldBank : Bool
  lost : List Nat
  leaving : Option Nat
  deriving DecidableEq, Repr

/-- A cluster at reset. -/
def Cluster.init : Nat → Cluster := fun _ => ⟨[], [], [], [], 0, 0, [0, 0, 0, 0], false, [], none⟩

/-- The default of a control store: words never loaded (log entry 12). -/
def dword : Nat → BitVec 160 := fun _ => 0

/-- What a context's end leaves in a reorder slot (R161): its packet, or the trace mark of one that is gone. -/
inductive Verdict where
  | forward (p : Packet)
  | punt (p : Packet)
  | drop (mark : Option Nat)
  | skip (mark : Option Nat)
  deriving DecidableEq, Repr

/-- A filled slot: its sequence number, whether it waited for a lower one, and its verdict (R161, R169). -/
structure Held where
  seq : Nat
  waited : Bool
  verdict : Verdict
  deriving DecidableEq, Repr

/-- A source in the reorder stage (R160, R161): the number the next landed packet takes, the number released next, the
verdicts held, the slots held. -/
structure RdrSrc where
  seq : Nat
  next : Nat
  held : List Held
  slots : Nat
  deriving DecidableEq, Repr

/-- A source at reset. -/
def RdrSrc.init : Nat → RdrSrc := fun _ => ⟨0, 0, [], 0⟩

/-- The engine array: contexts keyed 132k + 4e + x, clusters, the packets that wait in landing, oldest first, the place of the
dispatch order reached, the reorder sources, the role map that is to apply, with its frame (R167), the microcode's counter blocks,
keyed 2 × (64 × index + block), + 1 for the bytes (R151), the context that each engine looks at first for its next word, keyed
33k + e (R148), the source that each slice of the reorder stage looks at first, the state words of the microcode (R151 TBL 6, 7),
and the engine on which each channel's allocation runs: e, or 64 + e for context 1 of e (R165, R166). -/
structure EngSt where
  ctx : Tbl Ctx
  cl : Tbl Cluster
  landing : List Packet
  turn : Nat
  rdr : Tbl RdrSrc
  roles : Option (Word × Nat)
  ucnt : Tbl Nat
  pick : Tbl Nat
  rdrPick : Tbl Nat
  ustate : Tbl (BitVec 256)
  host : Tbl Nat
  deriving DecidableEq, Repr


/-! ### The Legend and the Gazetteer (09_classification.md) -/

/-- A Legend rule (R175). -/
structure LRule where
  value : BitVec 384
  mask : BitVec 384
  action : Word
  valid : Bool
  owner : Nat
  hits : Nat
  deriving DecidableEq, Repr

/-- A rule at reset. -/
def LRule.init : Nat → LRule := fun _ => ⟨0, 0, 0, false, 0, 0⟩

/-- What the learn arbiter is asked (R184): a learn, a refresh or a delete, or a host's insert of an entry image or thaw. -/
inductive LearnOp where
  | learn (key : BitVec 96) (ty : Nat) (dest : BitVec 112)
  | refresh (key : BitVec 96) (ty : Nat)
  | delete (key : BitVec 96) (ty : Nat)
  | insert (img : BitVec 256)
  | thaw (key : BitVec 96) (ty : Nat)
  deriving DecidableEq, Repr

/-- A request in the arbiter's queue (R184): its source ID, its slice and context (none: the host window), the result bank, and
when it arrived, as a fine-step index. -/
structure LearnReq where
  op : LearnOp
  src : Nat
  slice : Nat
  ctx : Option CtxId
  bank : Nat
  at_ : Nat
  deriving DecidableEq, Repr

/-- A promotion whose old copy still stands (R187): the primary bucket, the overflow entry, and when the guard ends. -/
structure Reloc where
  bucket : Nat
  slot : Nat
  until_ : Nat
  deriving DecidableEq, Repr

/-- A flush in the background (R190 CMD 5, 6): by domain or by destination, the argument, and the writing slice. -/
structure Bulk where
  byDest : Bool
  arg : Nat
  slice : Nat
  deriving DecidableEq, Repr

/-- The stores: rules by index, a block move in progress (first, last, new first), VID slices, primary entries keyed
4 × bucket + slot and overflow entries 8 × bucket + slot (a 256-bit entry, its OVF_CNT bits 0), OVF_CNT by bucket, domain
owners, the arbiter's queue and LFSR, promotions, the flush, whether a sweep has run, the frames counted toward the next epoch
(R188), and the places, overflow or not with their number, that the sweep still owes because their bucket was locked. -/
structure ClsSt where
  rule : Tbl LRule
  move : Option (Nat × Nat × Nat)
  vid : Tbl Nat
  prim : Tbl (BitVec 256)
  ovf : Tbl (BitVec 256)
  ovfCnt : Tbl Nat
  domain : Tbl Nat
  arb : List LearnReq
  lfsr : Nat
  reloc : List Reloc
  bulk : Option Bulk
  sweepDue : Nat
  ageFrames : Nat
  sweepOwed : List (Bool × Nat)
  deriving DecidableEq, Repr

/-- The default of an entry store: empty. -/
def dentry : Nat → BitVec 256 := fun _ => 0


/-! ### Links (11_cipher.md MACsec, 12_external_links.md) -/

/-- A MACsec SA (R224, R225). -/
structure MacSa where
  valid : Bool
  suite : Nat
  sci : BitVec 64
  ssci : Word
  salt : BitVec 96
  key : BitVec 256
  pn : Nat
  warned : Bool
  spent : Bool
  deriving DecidableEq, Repr

/-- An SA at reset (R231: NEXT_PN 1). -/
def MacSa.init : Nat → MacSa := fun _ => ⟨false, 0, 0, 0, 0, 0, 1, false, false⟩

/-- A frame that an uplink port received and that waits to land (R12, R238): its quarantine buffer, if MACsec took one, its length and bytes, and the
position of its arrival. -/
structure RxFrame where
  port : Nat
  handle : Option Nat
  len : Nat
  bytes : List Byte
  at_ : Pos
  ptp : Bool
  deriving DecidableEq, Repr

/-- The last frame an uplink port sent (R48, R49, R225): its length, its bytes with what one-step insertion wrote into them, the SA and PN
that protect it, what it is for PTP, and the time inserted. -/
structure TxFrame where
  len : Nat
  bytes : List Byte
  sa : Option (Nat × Nat)
  ptp : PtpKind
  tod : Option ToD
  deriving DecidableEq, Repr

/-- An uplink port (R225, R239): the transmit SA in force, when XOFF was last sent, and the last frame sent. -/
structure EthSt where
  an : Nat
  xoff : Option Nat
  sent : Option TxFrame
  deriving DecidableEq, Repr

/-- A port at reset. -/
def EthSt.init : Nat → EthSt := fun _ => ⟨0, none, none⟩

/-- A frame released toward a host ring (R244). -/
structure HostFrame where
  len : Nat
  bytes : List Byte
  reason : Nat
  cause : Nat
  src : Nat
  slice : Nat
  at_ : Option Pos
  handle : Option Nat
  deriving DecidableEq, Repr

/-- A frame that an H2D descriptor sent toward landing (R243): its ring, its length and bytes, and META. -/
structure H2dFrame where
  ring : Nat
  len : Nat
  bytes : List Byte
  meta_ : Nat
  deriving DecidableEq, Repr

/-- A host ring (R242): its configuration, its state, the completions not yet written back with the position of the oldest,
its 4 counters, and the frames on their way to it. -/
structure Ring where
  dir : Nat
  sizeLog2 : Nat
  state : Nat
  coalCnt : Nat
  coalUs : Nat
  base : Nat
  headWb : Nat
  head : Nat
  tail : Nat
  err : Nat
  pend : Nat
  since : Nat
  cnts : List Nat
  frames : List HostFrame
  deriving DecidableEq, Repr

/-- A ring at reset (R260). -/
def Ring.init : Nat → Ring := fun _ => ⟨0, 6, 0, 16, 8, 0, 0, 0, 0, 0, 0, 0, List.replicate 4 0, []⟩

/-- An I2C master (R248): the function whose command runs or ran last, whether it writes, and the port the mux was left on. -/
structure I2c where
  caller : Option Nat
  write : Bool
  mux : Option Nat
  deriving DecidableEq, Repr

/-- A master at reset. -/
def I2c.init : Nat → I2c := fun _ => ⟨none, false, none⟩

/-- A lane of a Hexca link in its alignment (R251): 0 HUNT, 1 and 2 PRESYNC, 3 SYNC, the run of missed markers, and the lane
number its marker names. -/
structure HexLane where
  st : Nat
  miss : Nat
  named : Option Nat
  deriving DecidableEq, Repr

/-- A mirror frame of the slip buffer (R258). -/
structure MirrorFrame where
  frame : Nat
  recs : List MirrorRec
  deriving DecidableEq, Repr

/-- A block on a lane (R249, R250): the lane, the sync header and the scrambled payload. -/
structure HexBlock where
  lane : Nat
  sync : Nat
  payload : Nat
  deriving DecidableEq, Repr

/-- A Hexca link (R249 to R259): the lanes, the runs of trace identifiers that differ from TRACE_EXP and that match, the next
SEQ of each VC sent and received, the slip buffer, the frame to read next and the one read last, whether this outage has been
flushed, the monitoring of the grid second, the blocks of the last sending, and how many sendings there were (the model's own, log entry
44). -/
structure HexSt where
  lanes : List HexLane
  timBad : Nat
  timGood : Nat
  seqTx : Tbl Nat
  seqRx : Tbl (Option Nat)
  slip : List MirrorFrame
  next : Option Nat
  last : Option MirrorFrame
  flushed : Bool
  pm : PmRec
  line : List HexBlock
  sent : Nat
  deriving DecidableEq, Repr

/-- A link at reset. -/
def HexSt.init : Nat → HexSt :=
  fun _ => ⟨List.replicate 4 ⟨0, 0, none⟩, 0, 0, [], [], [], none, none, false, PmRec.init 0, [], 0⟩

/-- The links: SAs keyed 68q + index, uplink ports, frames that wait to land, host rings, frames of the host that wait to land, I2C masters, Hexca links, and the
last pulse at each HB_OUT pin (fine-step indices of its edges). -/
structure LinkSt where
  sa : Tbl MacSa
  eth : Tbl EthSt
  rx : List RxFrame
  ring : Tbl Ring
  h2d : List H2dFrame
  i2c : Tbl I2c
  hex : Tbl HexSt
  hbOut : Tbl (Nat × Nat)
  deriving DecidableEq, Repr


/-! ### Power, boot and stores (15_startup_update.md) -/

/-- A calibration item as the store holds it (R305): its two data words and whether its CRC is right. -/
structure CalItem where
  d0 : Nat
  d1 : Nat
  good : Bool
  deriving DecidableEq, Repr

/-- An SRAM bank (R316, R317, R327): 0 off, 1 retention, 2 on; soft-repaired rows. -/
structure Bank where
  st : Nat
  soft : Nat
  deriving DecidableEq, Repr

/-- A bank at power on. -/
def Bank.init : Nat → Bank := fun _ => ⟨2, 0⟩

/-- Power and boot. What survives without power: the revoke bits blown and the calibration items written since the factory
(R304, R306). `powered` is PWRGD, `fuseOk` whether every fuse group passed, `perst` the level of PERST_N, `slot` the flash slot
and `link` the mesh link being tried, `applied` that the image's sections have been applied, `image` the staged or served image,
`warnPin` that PWR_WARN_N is low, `warn` that the warning is latched, `warnRose` when the pin last rose; `storeAt` is the
frame of the last store write of an open unlock (R306); `work` the working copies of the items that no register holds, keyed
1,024 × kind + index. -/
structure BootSt where
  powered : Bool
  straps : Straps
  fuseOk : Bool
  perst : Bool
  slot : Nat
  link : Nat
  applied : Bool
  image : Option Image
  warnPin : Bool
  warn : Bool
  warnRose : Option Nat
  storeAt : Option Nat
  revoked : Nat
  cal : Tbl (Option CalItem)
  work : Tbl (Nat × Nat)
  badItems : List (Nat × Nat)
  bank : Tbl Bank
  deriving DecidableEq, Repr


/-! ### Faults, tests and counters (16_faults_test.md) -/

/-- A party that waits for reclaim, with the source of its fault (R322), and whether its block reset has merged with one of the same
or an enclosing scope that came first (R21). -/
structure FaultReq where
  src : Nat
  party : Party
  merged : Bool
  deriving DecidableEq, Repr

/-- A performance counter (R330); `snap` says that its VALUE is a snapshot not read yet. -/
structure Pmc where
  event : Nat
  inst : Nat
  level : Bool
  chain : Bool
  en : Bool
  count : Nat
  value : Nat
  snap : Bool
  deriving DecidableEq, Repr

/-- A counter at reset (R332: INST 0xFFF). -/
def Pmc.init : Nat → Pmc := fun _ => ⟨0, 0xFFF, false, false, false, 0, 0, false⟩

/-- A trace record (R331). -/
structure TraceRec where
  page : Nat
  point : Nat
  verdict : Nat
  mark : Nat
  stamp : Pos
  src : Nat
  seq : Nat
  queue : Nat
  len : Nat
  arg : Nat
  deriving DecidableEq, Repr

/-- The fault collector, the regulation pass, the performance counters and the trace ring: the reclaim queue, oldest first,
and the parties outside it; the frame in which the memory sweep began and whether it is late; the engine in turn of each
cluster and the one under check (R328); counters keyed 8 × group + counter, whether they run and the start or stop that waits for a frame boundary; the
ring, newest first, with the records not streamed, its host tail, the next MARK_ID and the LFSR that marks
packets (R331). -/
structure TestSt where
  queue : List FaultReq
  outside : List FaultReq
  sweepFrom : Nat
  sweepLate : Bool
  engTurn : Tbl Nat
  check : Tbl (Option Nat)
  pmc : Tbl Pmc
  running : Bool
  go : Option Bool
  trace : List TraceRec
  unsent : Nat
  tail : Nat
  markId : Nat
  lfsr : Nat
  deriving DecidableEq, Repr


/-- The whole device. -/
structure State where
  /-- The commands that wait, first in first out. -/
  pending : List Instr
  /-- The model's own: how many free values have been drawn (log entry 3). -/
  freeCtr : Nat
  /-- The registers, the counters and the last access. -/
  bus : BusSt
  /-- The change journal. -/
  jrn : JrnSt
  /-- The event path. -/
  evt : EvtSt
  /-- Owners without a page of their own. -/
  own : OwnSt
  /-- The Graticule. -/
  grid : GridSt
  /-- The PON channels, burst receivers, ranging, allocation and bonding. -/
  pon : PonSt
  /-- The key store, by ONU node 512p + i (R217). -/
  keys : Tbl KeyEntry
  /-- Custody and protection. -/
  prot : ProtSt
  /-- Queues, schedulers and buffers. -/
  tm : QSt
  /-- The engine array, dispatch and reorder. -/
  eng : EngSt
  /-- The Legend and the Gazetteer. -/
  cls : ClsSt
  /-- The uplink, host, optics and Hexca links. -/
  link : LinkSt
  /-- Power, boot and the stores. -/
  boot : BootSt
  /-- Faults, regulation pass, counters and trace. -/
  tst : TestSt
  deriving DecidableEq, Repr

/-- The machine right after chip reset (R7, R20, R301): nothing released, the grid not running, every register at the value
of its table, every table empty, no command waiting. What the manual gives no reset value for stands in log entry 12. -/
def State.reset : State where
  pending := []
  freeCtr := 0
  bus := ⟨[], [], [], 0, .normal, [], []⟩
  jrn := ⟨[], 0, 0, 0, FlushSlot.empty, FlushSlot.empty, none⟩
  evt := ⟨[], []⟩
  own := ⟨[], [], []⟩
  grid := ⟨false, ⟨0, 0, 0⟩, finePerFrame, false, false, 0, 0, [], 0, none, ⟨0, ⟨0, 0, 0⟩⟩, none, none, 0, none, [], [], [], [], 0,
    0, (0, finePerFrame), none, [], []⟩
  pon := PonSt.init
  keys := []
  prot := ⟨[], [], none, false⟩
  tm := ⟨[], [], [], [], [], [], 0, (0, 64), []⟩
  eng := ⟨[], [], [], 0, [], none, [], [], [], [], []⟩
  cls := ⟨[], none, [], [], [], [], [], [], 1, [], none, 0, 0, []⟩
  link := ⟨[], [], [], [], [], [], [], []⟩
  boot := ⟨true, ⟨0, false, 0, false⟩, false, false, 0, 0, false, none, false, false, none, none, 0, [], [], [], []⟩
  tst := ⟨[], [], 0, false, [], [], [], false, none, [], 0, 0, 0, 1⟩

end Sys2Proof.Machine
end

