-- ==== Sys2Proof/Machine/Ops.lean ====
section
/-! DEFINITION. The named operations over the registers, the counters, the grid position and the journal. -/

namespace Sys2Proof

/-! ### Grid positions -/

/-- A position as fine steps from 0:0, in frames of nominal length (R5). -/
def Pos.fineIndex (p : Pos) : Nat := (p.frame * gtPerFrame + p.tick) * finePerGt + p.fine

/-- The position a number of fine steps from 0:0 (R5). -/
def posOfFine (n : Nat) : Pos :=
  ⟨n / finePerFrame, n % finePerFrame / finePerGt, n % finePerGt⟩

/-- The position `d` fine steps after another. -/
def Pos.plus (p : Pos) (d : Nat) : Pos := posOfFine (p.fineIndex + d)

/-- The 64-bit grid stamp (R38). -/
def Pos.stamp (p : Pos) : Nat := (p.frame % 2 ^ 41) * 2 ^ 23 + p.tick * 256 + p.fine

/-- Is stamp `a` earlier than stamp `b` (R39)? -/
def stampBefore (a b : Nat) : Bool :=
  let d := (b + 2 ^ 64 - a) % 2 ^ 64
  1 ≤ d && d ≤ 2 ^ 63 - 1

end Sys2Proof

namespace Sys2Proof.Machine

/-- The outcome of a command. -/
abbrev Res := Host.Outcome State Fault Refusal

/-! ### Registers -/

/-- The register word at an address. -/
def reg (s : State) (a : Nat) : Word := tget resetWord s.bus.regs a

/-- Store a register word. -/
def setReg (s : State) (a : Nat) (w : Word) : State :=
  { s with bus := { s.bus with regs := tset resetWord s.bus.regs a w } }

/-- A field of a page. -/
def fld (s : State) (base : Nat) (f : Fld) : Nat := bitsOf (reg s (base + f.off)) f.lsb f.width

/-- Is a one-bit field 1? -/
def isSet (s : State) (base : Nat) (f : Fld) : Bool := fld s base f == 1

/-- Is an enable field of a block in force: 1, with the block itself enabled (R280 PAGE_CTL.ENABLE)? -/
def active (s : State) (base : Nat) (f : Fld) : Bool := isSet s base ⟨4, 0, 1, 0⟩ && isSet s base f

/-- Store a field. -/
def setFld (s : State) (base : Nat) (f : Fld) (v : Nat) : State :=
  setReg s (base + f.off) (withBits (reg s (base + f.off)) f.lsb f.width v)

/-- Store a one-bit field. -/
def setBit (s : State) (base : Nat) (f : Fld) (b : Bool) : State := setFld s base f b.toNat

/-- A field read as signed (two's complement). -/
def fldS (s : State) (base : Nat) (f : Fld) : Int := signedOf f.width (fld s base f)

/-- A value of several register words, the low word first (R4). -/
def fldW (s : State) (base : Nat) (f : Fld) : Nat → Nat
  | 0 => 0
  | n + 1 => fldW s base f n + (fld s base (f.word n)) <<< (32 * n)

/-- Store a value over several register words, the low word first (R4). -/
def setFldW (s : State) (base : Nat) (f : Fld) (v : Nat) : Nat → State
  | 0 => s
  | n + 1 => setFld (setFldW s base f v n) base (f.word n) (v >>> (32 * n))

/-! ### Counters -/

/-- The largest value of a 48-bit counter (R71). -/
def cntMax : Nat := 2 ^ 48 - 1

/-- The 48-bit counter at an address. -/
def cntAt (s : State) (a : Nat) : Nat := tget dzero s.bus.cnt a

/-- The address of counter `i` of a page (R71, R300). -/
def cntAddr (base i : Nat) : Nat := base + 0x200 + 8 * i

/-- Store a counter. -/
def setCnt (s : State) (a n : Nat) : State :=
  { s with bus := { s.bus with cnt := tset dzero s.bus.cnt a n } }

/-- Count `n` in performance counter `k` (R330): past 2^48 − 1 it wraps, and a counter that chains the one below it counts the
overflow. Answers whether an overflow was left over. -/
def pmcAdd : Nat → Tbl Pmc → Nat → Nat → Tbl Pmc × Bool
  | 0, t, _, _ => (t, false)
  | fuel + 1, t, k, n =>
    let c := tget Pmc.init t k
    let v := c.count + n
    let t1 := tset Pmc.init t k { c with count := v % 2 ^ 48 }
    let u := tget Pmc.init t (k + 1)
    if v < 2 ^ 48 then (t1, false)
    else if k % 8 ≠ 7 ∧ u.chain ∧ u.en then pmcAdd fuel t1 (k + 1) (v / 2 ^ 48)
    else (t1, true)

/-- Does performance counter c count event e of a page (R330)? -/
def Pmc.counts (c : Pmc) (base e : Nat) : Bool :=
  c.en && !c.level && !c.chain &&
  match pageAt base with
  | some (pg, inst) => c.event == pg.typeCode % 64 * 64 + e && (c.inst == 0xFFF || c.inst == inst)
  | none => false

/-- Raise a saturating counter that is a register field. -/
def bumpFld (s : State) (base : Nat) (f : Fld) (n : Nat) : State :=
  setFld s base f (min (2 ^ f.width - 1) (fld s base f + n))

/-- The performance counters see event e of a page n times, while they run (R330). -/
def pmcCount (s : State) (base e n : Nat) : State :=
  if s.tst.running then
    s.tst.pmc.foldl (fun t x =>
      if x.2.counts base e then
        let r := pmcAdd 8 t.tst.pmc x.1 n
        let t1 : State := { t with tst := { t.tst with pmc := r.1 } }
        if r.2 then
          bumpFld (setFld t1 pgPMC ⟨PMC_F_OVF.off, PMC_F_OVF.bit, 1, 0⟩ 1) pgPMC ⟨PMC_F_OVF.cntOff, PMC_F_OVF.cntLsb, 16, 0⟩ 1
        else t1
      else t) s
  else s

/-- Raise counter `i` of a page by `n`, saturating (R71); the performance counters see it (R330). -/
def bump (s : State) (base i n : Nat) : State :=
  pmcCount (setCnt s (cntAddr base i) (min cntMax (cntAt s (cntAddr base i) + n))) base i n

/-! ### Free values -/

/-- The next free value, of at most 64 bits (log entry 3). -/
def freeVal (s : State) : Nat := (Config.freeValue s.freeCtr).toNat

/-- Count a free value as drawn. -/
def drawFree (s : State) : State := { s with freeCtr := s.freeCtr + 1 }

/-- The i-th free value from here on. -/
def freeAt (s : State) (i : Nat) : Nat := (Config.freeValue (s.freeCtr + i)).toNat

/-- Count n free values as drawn. -/
def drawFrees (s : State) (n : Nat) : State := { s with freeCtr := s.freeCtr + n }

/-! ### Grid positions -/

/-- The modulus of the frame number (R5, R37). -/
def frameMod : Nat := 2 ^ 51

/-- The present position. -/
def now (s : State) : Pos := s.grid.now

/-- The present frame number. -/
def frame (s : State) : Nat := s.grid.now.frame

/-- Is the device released (CHIP_STATE 3, R312)? -/
def released (s : State) : Bool := fld s pgDEV DEV_CHIP_STATE == 3

/-! ### The journal -/

/-- The records of the on-chip ring (R297). -/
def ringMax : Nat := 65536

/-- Enter one record in the on-chip ring with the next CSEQ (R295, R296). When an unsent record would be overwritten, it is
lost and LOST counts it (R297). -/
def journal (s : State) (o : Origin) (code addr : Nat) (old new mask : Word) : State :=
  let r : JRec := ⟨s.jrn.cseq, o, code, now s, addr, old, new, mask⟩
  let lost := s.jrn.unsent ≥ ringMax
  let s1 := bump s pgJRN JRN_C_RECORDS 1
  let s2 := if code = 0 then s1 else bump s1 pgJRN JRN_C_REJECTED 1
  let s3 := if lost then
      setReg (bumpFld (bump s2 pgJRN JRN_C_LOST 1) pgJRN ⟨JRN_F_LOST.cntOff, 0, 16, 0⟩ 1) (pgJRN + JRN_F_LOST.off)
        (reg s2 (pgJRN + JRN_F_LOST.off) ||| 1#32 <<< JRN_F_LOST.bit)
    else s2
  { s3 with jrn := { s.jrn with ring := (r :: s.jrn.ring).take ringMax, cseq := s.jrn.cseq + 1,
                                unsent := if lost then ringMax else s.jrn.unsent + 1 } }

end Sys2Proof.Machine
end

