-- ==== Sys2Proof/Machine/Flags.lean ====
section
/-! DEFINITION. Every flag and event rule: W1C flags with their occurrence counters (R10, R285), event records (R290 to
R292), and the page's error status (R280). -/

namespace Sys2Proof.Machine

/-- Set a W1C flag of a page: the bit becomes 1 and its occurrence counter counts the set, also when the bit was 1 already
(R285). -/
def flag (s : State) (base : Nat) (f : Flag) : State :=
  let s1 := bumpFld (setFld s base ⟨f.off, f.bit, 1, 0⟩ 1) base ⟨f.cntOff, f.cntLsb, 16, 0⟩ 1
  match pageAt base with
  | some (pg, _) => if f.off = pg.flagsOff then pmcCount s1 base (32 + f.bit) 1 else s1
  | none => s1

/-- Is a flag set? -/
def flagSet (s : State) (base : Nat) (f : Flag) : Bool := isSet s base ⟨f.off, f.bit, 1, 0⟩

/-- The on-chip event FIFO's size (R291). -/
def evtFifoMax : Nat := 8192

/-- The owning slice of a page (R280 PAGE_OWNER). -/
def pageOwner (s : State) (base : Nat) : Nat := fld s base ANY_OWNER

/-- Post an event for a resource of slice `slice`: it takes EVT_SEQ, which advances by 1 modulo 2^32 whether or not the
record is delivered; the record enters the FIFO unless EVT_EN is 0 or the FIFO is full, which FIFO_DROP counts (R291). -/
def postTo (s : State) (base slice : Nat) (code : EvCode) (arg : List Nat) : State :=
  let seq := fld s base ANY_EVT_SEQ
  let r : EvRec := ⟨(reg s base).toNat, code, fld s pgDEV DEV_DEV_ID, false, slice, seq, (now s).stamp, arg,
    fld s base ANY_OWN_RING, fld s base ANY_PF_RING⟩
  let room := s.evt.fifo.length < evtFifoMax
  let s1 := bump (setFld s base ANY_EVT_SEQ (seq + 1)) pgEVT EVT_C_POSTED 1
  if isSet s base ANY_EVT_EN then
    if room then
      let s2 := setFld s1 pgEVT EVT_FIFO_FILL (s.evt.fifo.length + 1)
      { s2 with evt := { s.evt with fifo := s.evt.fifo ++ [r] } }
    else bump (flag s1 pgEVT EVT_F_FIFO_DROP) pgEVT EVT_C_FIFO_DROP 1
  else s1

/-- Post an event of a page's own resource. -/
def post (s : State) (base : Nat) (code : EvCode) (arg : List Nat) : State :=
  postTo s base (pageOwner s base) code arg

/-- Set a flag and post the event that goes with it. -/
def raise (s : State) (base : Nat) (f : Flag) (arg : List Nat) : State :=
  post (flag s base f) base (.flag f.off f.bit) arg

/-- Set a flag, raise the counter of the same name, and nothing else. -/
def note (s : State) (base : Nat) (f : Flag) (i : Nat) : State := bump (flag s base f) base i 1

/-- A late action (R19): the posting block's event and, as a device-wide indication, GRD.FLAGS.LATE_ACTION; GRD posts no
event of its own. -/
def lateAction (s : State) (base : Nat) : State :=
  flag (post s base .lateAction []) pgGRD GRD_F_LATE_ACTION

/-- The block of a posting page sets its own LATE_ACTION flag, where its page has one (R19, R74). -/
def lateFlag (s : State) (base : Nat) : State :=
  match pageAt base with
  | some (.BRX, _) => note s base BRX_F_LATE_ACTION BRX_C_LATE_ACTION
  | _ => s

/-- Post a timed action: 16 gt or more ahead of now it is posted, otherwise it is discarded and reported (R19). -/
def postAction (s : State) (a : Action) : State :=
  if (now s).fineIndex + 16 * finePerGt ≤ a.pos.fineIndex then
    { s with grid := { s.grid with posted := s.grid.posted ++ [a] } }
  else lateAction (lateFlag s a.base) a.base

/-- The first posted action of a kind has fired (R19). -/
def unpost (s : State) (k : ActKind) : State :=
  match s.grid.posted.find? (fun a => a.kind == k) with
  | some a => { s with grid := { s.grid with posted := s.grid.posted.erase a } }
  | none => s

end Sys2Proof.Machine
end

