-- ==== Sys2Proof/Machine/Trace.lean ====
section
/-! DEFINITION. The packet trace (R331): marks and trace records. -/

namespace Sys2Proof.Machine

/-- The on-chip trace ring's size (R331). -/
def traceMax : Nat := 8192

/-- Enter a trace record of a page at a point in the on-chip ring; the point must be enabled, and a record that finds the ring
full of records not streamed is lost and counted. `m` is the packet's mark with its source and sequence. -/
def trace (s : State) (base point verdict : Nat) (m : Option (Nat × Nat × Nat)) (queue len arg : Nat) : State :=
  match m with
  | none => s
  | some (id, src, seq) =>
    if !bitAt (fld s pgPMC PMC_POINT_EN) (point - 1) then s
    else if traceMax ≤ s.tst.unsent then note s pgPMC PMC_F_TRACE_DROP PMC_C_TRACE_DROP
    else
      let r : TraceRec := ⟨(reg s base).toNat, point, verdict, id, now s, src, seq, queue, len, arg⟩
      let l := (r :: s.tst.trace).take traceMax
      setFld (bump { s with tst := { s.tst with trace := l, unsent := s.tst.unsent + 1 } } pgPMC PMC_C_TRACE_RECORDS 1)
        pgPMC PMC_TR_FILL l.length

/-- The queue that a trace record names when there is none. -/
def noQueue : Nat := 0xFFFF

/-- Draw a packet's mark at landing (R331): it is marked when the 32-bit LFSR, whose value is free, lies below
floor(2^32 / MARK_N), and takes the next MARK_ID. -/
def drawMark (s : State) : State × Option Nat :=
  if active s pgPMC PMC_MARK_EN then
    let v := freeVal s % 2 ^ 32
    let s1 := drawFree { s with tst := { s.tst with lfsr := v } }
    if v < 2 ^ 32 / max 1 (fld s pgPMC PMC_MARK_N) then
      (bump { s1 with tst := { s1.tst with markId := (s.tst.markId + 1) % 2 ^ 32 } } pgPMC PMC_C_MARKED 1, some s.tst.markId)
    else (s1, none)
  else (s, none)

/-- A packet's mark with its source and sequence. -/
def Packet.tag (p : Packet) : Option (Nat × Nat × Nat) := p.mark.map (fun m => (m, p.src, p.seq))

end Sys2Proof.Machine
end

