-- ==== Sys2Proof/Machine/Operands.lean ====
section
/-! DEFINITION. Every operand form of a register access: the origin and its slice (R25, R284), what a VF's BAR maps (R283,
R345), who may write what (R27), the reject codes in their order (R351), the window commands, and the journal record that
every write leaves (R295). -/

namespace Sys2Proof.Machine

/-- The slice an origin acts as: slice s through VF s, every other origin as slice 0 (R25, R345). -/
def Origin.slice : Origin → Nat
  | .vf v => v
  | _ => 0

/-- The owner of port p: PAGE_OWNER of its pages (R26, R280). -/
def portOwner (s : State) (p : Nat) : Nat := pageOwner s (pgPON p)

/-- The owner of ONU record i of port p (R26, R294): the port's, or on a port of slice 0 its own. -/
def onuOwner (s : State) (p i : Nat) : Nat := if portOwner s p = 0 then tget dzero s.own.onu (512 * p + i) else portOwner s p

/-- The owner of uplink-bound queue j (R26). -/
def queueOwner (s : State) (j : Nat) : Nat := tget dzero s.own.queue j

/-- The owner of host ring r (R26). -/
def ringOwner (s : State) (r : Nat) : Nat := tget dzero s.own.ring r

/-- Does the slice exist (R293)? -/
def sliceExists (s : State) (v : Nat) : Bool := v == 0 || bitAt (reg s (pgSLC + SLC_SLICE_EN.off)).toNat v

/-- Does slice v own an ONU on port p (R283)? -/
def ownsOnuOn (s : State) (v p : Nat) : Bool :=
  s.own.onu.any (fun e => e.1 / 512 == p && e.2 == v)

/-- May slice v name this ONU, ring, queue or entry, given its owner (R27)? Slice 0 may write every resource. -/
def mayUse (v owner : Nat) : Bool := v == 0 || v == owner

/-- The port of a port page (R282). -/
def pagePort (pg : Page) (inst : Nat) : Option Nat :=
  match pg with
  | .PON | .CHG | .CHX | .CHH | .TPL | .BND => some inst
  | .BRX | .RNG | .ALC => some (inst / 3)
  | .SDS => if inst < 192 then some (inst / 6) else none
  | _ => none

/-- The pages of a slice-0 port that a slice owning an ONU there sees (R283). -/
def onuSeesPage (pg : Page) : Bool :=
  match pg with
  | .PON | .CHG | .CHX | .CHH | .BRX | .RNG | .ALC | .TPL | .BND => true
  | _ => false

/-- Is the page mapped in the BAR of slice v (R283, R293)? -/
def vfMaps (s : State) (v : Nat) (pg : Page) (inst : Nat) : Bool :=
  match pg with
  | .DEV | .EVT | .HST => true
  | _ => sliceExists s v &&
    (match pg with
     | .LGD | .GZT | .TMQ | .TMS | .KEY | .OPT => true
     | _ => match pagePort pg inst with
       | some p => portOwner s p == v || (onuSeesPage pg && portOwner s p == 0 && ownsOnuOn s v p)
       | none => false)

/-- The windows that name one ONU, by page and offset (R345). -/
def onuWindow (pg : Page) (off : Nat) : Bool :=
  match pg with
  | .PON => (0x50 ≤ off && off ≤ 0x58) || (0x100 ≤ off && off ≤ 0x27C) || (0x2C0 ≤ off && off ≤ 0x2CC)
  | .CHG | .CHX | .CHH => 0x58 ≤ off && off ≤ 0x64
  | .BRX => 0x80 ≤ off && off ≤ 0x90
  | .RNG => 0x90 ≤ off && off ≤ 0xAC
  | .ALC => (0x80 ≤ off && off ≤ 0xAC) || (0x100 ≤ off && off ≤ 0x10C)
  | .BND => 0x80 ≤ off && off ≤ 0x17C
  | _ => false

/-- The windows of the shared global pages, whose index and data words every mapped slice may write: the entry behind a
command is checked at the command (R189, R191, R231, R241, R248, R292). -/
def sharedWindow (pg : Page) (off : Nat) : Bool :=
  match pg with
  | .EVT => 0x80 ≤ off && off ≤ 0xA4
  | .HST => (0x80 ≤ off && off ≤ 0xA4) || off == 0x48
  | .LGD => (0x80 ≤ off && off ≤ 0x90) || (0x100 ≤ off && off ≤ 0x18C)
  | .GZT => (0x80 ≤ off && off ≤ 0xBC) || (0x100 ≤ off && off ≤ 0x11C)
  | .TMQ => 0x80 ≤ off && off ≤ 0xBC
  | .TMS => 0x80 ≤ off && off ≤ 0xBC
  | .KEY => (0x80 ≤ off && off ≤ 0xB0) || (0x100 ≤ off && off ≤ 0x19C)
  | .OPT => (0x80 ≤ off && off ≤ 0xFC) || (0x200 ≤ off && off ≤ 0x2FC)
  | _ => false

/-- May slice v write this register of a mapped page (R27, R283, R345)? Index and data words of a window count as its own. -/
def vfMayWrite (s : State) (v : Nat) (pg : Page) (inst off : Nat) : Bool :=
  match pagePort pg inst with
  | some p => portOwner s p == v || onuWindow pg off
  | none => sharedWindow pg off

/-- The zone of an offset: plain, bit-set alias, bit-clear alias, or reserved (R280, R281). -/
inductive Zone where
  | plain | setAlias | clearAlias | reserved
  deriving DecidableEq, Repr

/-- The zone of an offset and the register's own offset. -/
def zoneOf (off : Nat) : Zone × Nat :=
  if off < 0x400 then (.plain, off) else if off < 0x800 then (.setAlias, off - 0x400)
  else if off < 0xC00 then (.clearAlias, off - 0x800) else (.reserved, off)

/-- The reserved offsets of every page (R280). -/
def reservedOff (off : Nat) : Bool :=
  off == 0x0C || off == 0x1C || off == 0x28 || off == 0x2C || off == 0x3C || 0xC00 ≤ off

/-- Before release only the host window is open to the PF: DEV, read-only, and BOOT, and only while STAGE is 6 (R301, R307).
JTAG, the boot loader and the device's own origins are not stopped. -/
def openNow (s : State) (o : Origin) (pg : Page) : Bool :=
  released s ||
  match o with
  | .pf => fld s pgBOOT BOOT_STAGE == 6 && (pg == .DEV || pg == .BOOT)
  | .vf _ => false
  | _ => true

/-- The page an access reaches, if any (R9, R282, R283): an aligned word of a mapped page. -/
def reach (s : State) (o : Origin) (addr : Nat) : Option (Page × Nat) :=
  if addr % 4 ≠ 0 then none else
  match pageAt addr with
  | none => none
  | some (pg, inst) =>
    let ok : Bool := match o with
      | .vf v => vfMaps s v pg inst
      | _ => true
    if ok && openNow s o pg then some (pg, inst) else none

/-- The first reject cause that the address and the origin give a write, in the order of R351: 6 no register, 5 reserved
offset, 2 ownership. -/
def addrReject (s : State) (o : Origin) (addr : Nat) : Option Nat :=
  match reach s o addr with
  | none => some 6
  | some (pg, inst) =>
    let off := (zoneOf (addr % 0x1000)).2
    if reservedOff off then some 5
    else
      let ok : Bool := match o with
        | .vf v => pg != .DEV && vfMayWrite s v pg inst off
        | .pf => released s || pg != .DEV
        | _ => true
      if ok then none else some 2

/-- What a rejected write with code 2 leaves on the SLC page (R300). -/
def noteOwnRej (s : State) (o : Origin) : State :=
  bumpFld (flag s pgSLC SLC_F_OWN_REJ) pgSLC (SLC_REJ_WRITES.at (Origin.slice o % 32)) 1

/-- The arming keys: a write of the key register arms its origin, and any other write by that origin disarms it (R300,
R304). -/
def disarm (s : State) (o : Origin) : State :=
  { s with bus := { s.bus with armed := s.bus.armed.filter (fun e => e.1 ≠ o) } }

/-- Was the origin's last write the key register at `addr`? -/
def armedBy (s : State) (o : Origin) (addr : Nat) : Bool := s.bus.armed.contains (o, addr)

/-- How an access completes (R9, R27, R282): unsupported-request for no register, otherwise normal. -/
def setDone (s : State) (c : Completion) (w : Word) : State :=
  { s with bus := { s.bus with done := c, data := w } }

/-- The journal record of a write, with the flags that its reject code sets, and the write's completion (R27, R295). -/
def record (s : State) (o : Origin) (code addr : Nat) (old new mask : Word) : State :=
  let s1 := journal s o code addr old new mask
  let s2 := if code = 2 then noteOwnRej s1 o else s1
  setDone (disarm s2 o) (if code = 6 then .unsupported else .normal) 0

/-- What a write of `data` leaves of one field in a word (R10): RW and RWL fields store, a set W1C bit of the data clears, a
set W1S bit sets, and fields of the other codes keep their value. -/
def FieldDef.write (f : FieldDef) (inst : Nat) (lock : Bool) (data w : Word) : Word :=
  let d := bitsOf data f.lsb f.width
  let v := bitsOf w f.lsb f.width
  match f.accAt inst with
  | .rw => withBits w f.lsb f.width d
  | .rwl => if lock then w else withBits w f.lsb f.width d
  | .w1c => withBits w f.lsb f.width (v ^^^ (v &&& d))
  | .w1s => withBits w f.lsb f.width (v ||| d)
  | _ => w

/-- What a write of `data` leaves of a register word (R10). -/
def writtenWord (pg : Page) (inst off : Nat) (lock : Bool) (data w : Word) : Word :=
  (wordFields pg off).foldl (fun w f => f.write inst lock data w) w

/-- All bits of a word. -/
def allOnes : Word := 0xFFFFFFFF#32

/-- A command write: the checks that its address and origin give, then `body`, which answers the next state and the command's
own reject code; then one record whose OLD is the window's index register and whose NEW is the register written, or OLD when the
command was rejected (R284, R295, R351). -/
def command (o : Origin) (addr idx : Nat) (body : State → State × Nat) (s : State) : State :=
  let old := reg s idx
  match addrReject s o addr with
  | some c => record s o c addr old old allOnes
  | none =>
    let r := body s
    record r.1 o r.2 addr old (if r.2 = 0 then reg r.1 addr else old) allOnes

/-- A write of a register that has a row of its own: the checks that its address and origin give, then `body`; the record
holds the register before and after (R295). -/
def ownWrite (o : Origin) (addr : Nat) (body : State → State × Nat) (s : State) : State :=
  let old := reg s addr
  match addrReject s o addr with
  | some c => record s o c addr old old allOnes
  | none =>
    let r := body s
    record r.1 o r.2 addr old (reg r.1 addr) allOnes

/-- A read by an origin: no register completes as unsupported-request (R282), otherwise `body` answers the data. -/
def readAccess (o : Origin) (addr : Nat) (body : State → State × Word) (s : State) : State :=
  match reach s o addr with
  | none => setDone s .unsupported 0
  | some _ => let r := body s; setDone r.1 .normal r.2

end Sys2Proof.Machine
end

