-- ==== Sys2Proof/Machine/Pon.lean ====
section
/-! DEFINITION. Shared operations of the PON side: records, counters, PLOAM queues, defects and their reports, state
changes of a record, the laser disable pin, and the key slots in use (R56, R57, R62 to R71, R83, R99 to R102). -/

namespace Sys2Proof.Machine

/-! ### Tables -/

def onu (s : State) (p i : Nat) : OnuRec := tget OnuRec.init s.pon.onu (512 * p + i)
def setOnu (s : State) (p i : Nat) (r : OnuRec) : State :=
  { s with pon := { s.pon with onu := tset OnuRec.init s.pon.onu (512 * p + i) r } }
def pmRec (s : State) (p i : Nat) : PmRec := tget PmRec.init s.pon.pm (512 * p + i)
def setPmRec (s : State) (p i : Nat) (r : PmRec) : State :=
  { s with pon := { s.pon with pm := tset PmRec.init s.pon.pm (512 * p + i) r } }
def chPm (s : State) (n : Nat) : PmRec := tget PmRec.init s.pon.chPm n
def setChPm (s : State) (n : Nat) (r : PmRec) : State :=
  { s with pon := { s.pon with chPm := tset PmRec.init s.pon.chPm n r } }
def rng (s : State) (p i : Nat) : RngRec := tget RngRec.init s.pon.rng (512 * p + i)
def setRng (s : State) (p i : Nat) (r : RngRec) : State :=
  { s with pon := { s.pon with rng := tset RngRec.init s.pon.rng (512 * p + i) r } }
def chSt (s : State) (p c : Nat) : ChSt := tget ChSt.init s.pon.ch (3 * p + c)
def setChSt (s : State) (p c : Nat) (r : ChSt) : State :=
  { s with pon := { s.pon with ch := tset ChSt.init s.pon.ch (3 * p + c) r } }
def lane (s : State) (p c : Nat) : LaneSt := tget LaneSt.init s.pon.lane (3 * p + c)
def setLane (s : State) (p c : Nat) (r : LaneSt) : State :=
  { s with pon := { s.pon with lane := tset LaneSt.init s.pon.lane (3 * p + c) r } }
def phaseMem (s : State) (p c i : Nat) : PhaseEntry := tget PhaseEntry.init s.pon.phase (512 * (3 * p + c) + i)
def setPhaseMem (s : State) (p c i : Nat) (r : PhaseEntry) : State :=
  { s with pon := { s.pon with phase := tset PhaseEntry.init s.pon.phase (512 * (3 * p + c) + i) r } }
def survey (s : State) (p c : Nat) : SurveySt := tget SurveySt.init s.pon.survey (3 * p + c)
def setSurvey (s : State) (p c : Nat) (r : SurveySt) : State :=
  { s with pon := { s.pon with survey := tset SurveySt.init s.pon.survey (3 * p + c) r } }
def xpEntry (s : State) (x : Nat) : XpEntry := tget XpEntry.init s.pon.xp x
def setXpEntry (s : State) (x : Nat) (r : XpEntry) : State :=
  { s with pon := { s.pon with xp := tset XpEntry.init s.pon.xp x r } }
def reasm (s : State) (x : Nat) : Option Reasm := tget dnone s.pon.reasm x
def setReasm (s : State) (x : Nat) (r : Option Reasm) : State :=
  { s with pon := { s.pon with reasm := tset dnone s.pon.reasm x r } }
def grp (s : State) (p g : Nat) : Grp := tget Grp.init s.pon.grp (64 * p + g)
def setGrp (s : State) (p g : Nat) (r : Grp) : State :=
  { s with pon := { s.pon with grp := tset Grp.init s.pon.grp (64 * p + g) r } }
def keyEntry (s : State) (u : Nat) : KeyEntry := tget KeyEntry.init s.keys u
def setKeyEntry (s : State) (u : Nat) (r : KeyEntry) : State := { s with keys := tset KeyEntry.init s.keys u r }

/-- The records of port p that the table lists, as (index, record). -/
def portOnus (s : State) (p : Nat) : List (Nat × OnuRec) :=
  (s.pon.onu.filter (fun e => e.1 / 512 == p)).map (fun e => (e.1 % 512, e.2))

/-- The grant unit of a channel in gt (R117). -/
def unitGt (c : Nat) : Nat := if c = 0 then 1 else 2

/-- The largest ONU-ID plus one (R350) and the broadcast ONU-ID (R103) of a channel. -/
def onuIdLimit (c : Nat) : Nat := if c = 0 then 254 else 1023
def broadcastId (c : Nat) : Nat := if c = 0 then 255 else 1023

/-! ### Counters -/

/-- Activation states (R99). -/
def stEmpty : Nat := 0
def stAssigned : Nat := 1
def stRanging : Nat := 2
def stRegister : Nat := 3
def stOperation : Nat := 4
def stPopup : Nat := 5
def stSnm : Nat := 6
def stDeact : Nat := 7

/-- The address-like key of per-ONU counter j. -/
def onuCntKey (p i j : Nat) : Nat := 32 * (512 * p + i) + j

/-- Per-ONU counter j (R71, R72). -/
def onuCnt (s : State) (p i j : Nat) : Nat := tget dzero s.pon.onuCnt (onuCntKey p i j)

/-- Store per-ONU counter j. -/
def setOnuCnt (s : State) (p i j n : Nat) : State :=
  { s with pon := { s.pon with onuCnt := tset dzero s.pon.onuCnt (onuCntKey p i j) n } }

/-- The channel of a record: one on its way out keeps the channel on which it is deactivated, whatever the write that removed it
stored (R100, R347). -/
def recCh (s : State) (p i : Nat) : Nat :=
  let r := onu s p i
  match (rng s p i).deactTo with
  | some x => if r.state = stDeact then x.1 else r.ch
  | none => r.ch

/-- Raise per-ONU counter j by n, and with it channel counter j for j = 0 to 20, which is the sum over the channel's ONUs
(R72). -/
def onuBump (s : State) (p i j n : Nat) : State :=
  let s1 := setOnuCnt s p i j (min cntMax (onuCnt s p i j + n))
  if j ≤ 20 ∧ recCh s p i < 3 then bump s1 (pgCH p (recCh s p i)) j n else s1

/-- The per-ONU and channel downstream counters of one SDU or PLOAM: per-ONU `j`, channel `k`. -/
def dsBump (s : State) (p c i j k n : Nat) : State :=
  bump (setOnuCnt s p i j (min cntMax (onuCnt s p i j + n))) (pgCH p c) k n

/-! ### Records in operation -/

/-- Does the record hold a delay that a grid step would invalidate (R101)? -/
def inOperation (s : State) (k : Nat) (r : OnuRec) : Bool :=
  r.state == stRegister || r.state == stOperation || r.state == stPopup ||
    (r.state == stRanging && (tget RngRec.init s.pon.rng k).reranging)

/-- Is an ONU of any port in operation (R101)? -/
def onuInOp (s : State) : Bool := s.pon.onu.any (fun e => inOperation s e.1 e.2)

/-- Bring GRD.STATE.ONU_IN_OP and PON.ONU_IN_USE up to date (R72, R101). -/
def refreshUse (s : State) (p : Nat) : State :=
  let s1 := setBit s pgGRD GRD_ONU_IN_OP (onuInOp s)
  setFld s1 (pgPON p) PON_ONU_IN_USE ((portOnus s p).countP (fun e => e.2.valid))

/-- Store a record and bring what depends on it up to date. -/
def putOnu (s : State) (p i : Nat) (r : OnuRec) : State := refreshUse (setOnu s p i r) p

/-- PERIOD_NOW starts at SURVEY_PERIOD (R105). -/
def surveyStart (s : State) (p c : Nat) : State :=
  let b := pgRNG p c
  let s1 := setFld (setFld s b RNG_PERIOD_NOW (fld s b RNG_SURVEY_PERIOD)) b RNG_SKIP_LEVEL 0
  setSurvey s1 p c { survey s p c with run := 0 }

/-- A run of windows without light ends, and PERIOD_NOW returns to SURVEY_PERIOD (R105), which it does with ADAPT_EN set alone. -/
def surveyBase (s : State) (p c : Nat) : State :=
  if isSet s (pgRNG p c) RNG_ADAPT_EN then surveyStart s p c else setSurvey s p c { survey s p c with run := 0 }

/-! ### PLOAM -/

/-- The size of each PLOAM queue (R56) and of the supervision queue (R348). -/
def ploamMax : Nat := 64
def supervisionMax : Nat := 256

/-- A push of the supervision cluster into the urgent queue. A full queue refuses it: PUSH_FULL reads 1, PLOAM_OVF is set,
and the message waits to be pushed again; so does a message behind one that waits, which keeps their order (R57). -/
def pushUrgent (s : State) (p c : Nat) (m : Ploam) : State :=
  let ch := chSt s p c
  if ch.retry ≠ [] then setChSt s p c { ch with retry := ch.retry ++ [m] }
  else if ch.urgent.length < ploamMax then
    let s1 := setFld (setFld s (pgCH p c) CH_URG_FILL (ch.urgent.length + 1)) (pgCH p c) CH_PUSH_FULL 0
    let s2 := setChSt s1 p c { ch with urgent := ch.urgent ++ [{ m with at_ := now s }] }
    if m.body = .assign then setOnu s2 p m.onu { onu s2 p m.onu with held := false } else s2
  else
    let s1 := flag (setFld s (pgCH p c) CH_PUSH_FULL 1) (pgCH p c) CH_F_PLOAM_OVF
    setChSt s1 p c { ch with retry := [m] }

/-- A message to a record's ONU. -/
def sendTo (s : State) (p i : Nat) (b : PloamBody) : State :=
  let r := onu s p i
  pushUrgent s p r.ch ⟨b, i, r.onuId, now s⟩

/-- A Deactivate_ONU-ID message, on the channel and with the ONU-ID that the record had when the deactivation began. -/
def sendDeact (s : State) (p i : Nat) : State :=
  match (rng s p i).deactTo with
  | some x => pushUrgent s p x.1 ⟨.deactivate, i, x.2, now s⟩
  | none => sendTo s p i .deactivate

/-- The first of three Deactivate_ONU-ID messages, one per frame (R69, R100). -/
def startDeact (s : State) (p i : Nat) : State :=
  sendDeact (setRng s p i { rng s p i with deacts := 0, deactTo := some ((onu s p i).ch, (onu s p i).onuId) }) p i

/-! ### Defects -/

/-- Bit numbers of the defects (R72), highest first (R66). -/
def dLOSi : Nat := 0
def dLOFi : Nat := 1
def dSNMi : Nat := 2
def dDOWi : Nat := 3
def dSFi : Nat := 4
def dSDi : Nat := 5

/-- Is a defect detected on a record? -/
def hasDefect (r : OnuRec) (d : Nat) : Bool := bitAt r.defects d

/-- Is a detected defect to be reported (R67): no higher defect of its ONU is detected, and LOS_CH does not hold it back? -/
def reportable (losCh : Bool) (defects d : Nat) : Bool :=
  bitAt defects d && defects % 2 ^ d == 0 && !(losCh && d ≤ 1)

/-- The set of defects to be reported. -/
def reportSet (losCh : Bool) (defects : Nat) : Nat :=
  (List.range 6).foldl (fun a d => if reportable losCh defects d then a ||| 1 <<< d else a) 0

/-- One report of a defect (R68): DEFECT_CHANGE, SNM for a raise of SNMi, and an event that names record and defect. -/
def reportDefect (s : State) (p i d : Nat) (raised : Bool) : State :=
  let s1 := flag s (pgPON p) PON_F_DEFECT_CHANGE
  let s2 := if raised && d == dSNMi then flag s1 (pgPON p) PON_F_SNM else s1
  let s3 := if raised && d == dDOWi then flag s2 (pgRNG p (onu s p i).ch) RNG_F_DOW else s2
  let s4 := if raised then setPmRec s3 p i { pmRec s3 p i with defect := true } else s3
  postTo s4 (pgPON p) (onuOwner s p i) (.defect raised d) [i, d]

/-- The reports of a record at a frame boundary (R67): a defect that is present and no longer held back is reported with its own
raise event, and what is held back or gone loses its REPORTED bit without an event. -/
def syncReports (s : State) (p i : Nat) : State :=
  let r := onu s p i
  let want := reportSet (isSet s (pgCH p r.ch) CH_LOS_CH_ACTIVE) r.defects
  let s1 := setOnu s p i { r with reported := want }
  (List.range 6).foldl (fun s d => if bitAt want d && !bitAt r.reported d then reportDefect s p i d true else s) s1

/-- Is a defect held back, or would it be if it were present (R67)? -/
def heldBack (losCh : Bool) (defects d : Nat) : Bool := defects % 2 ^ d != 0 || losCh && d ≤ 1

/-- A defect is detected; its raise is reported unless it is held back (R67, R68). -/
def detect (s : State) (p i d : Nat) : State :=
  let r := onu s p i
  let s1 := setOnu s p i { r with defects := r.defects ||| 1 <<< d }
  if heldBack (isSet s (pgCH p r.ch) CH_LOS_CH_ACTIVE) r.defects d then s1
  else reportDefect (setOnu s1 p i { onu s1 p i with reported := r.reported ||| 1 <<< d }) p i d true

/-- A defect is gone; its clear is reported when its raise was, unless it is held back (R67, R68). -/
def undetect (s : State) (p i d : Nat) : State :=
  let r := onu s p i
  let s1 := setOnu s p i { r with defects := r.defects - 1 <<< d }
  if !bitAt r.reported d || heldBack (isSet s (pgCH p r.ch) CH_LOS_CH_ACTIVE) r.defects d then s1
  else reportDefect (setOnu s1 p i { onu s1 p i with reported := r.reported - 1 <<< d }) p i d false

/-- Invalidate a phase-memory entry (R89). -/
def invalidatePhase (s : State) (p c i : Nat) : State :=
  if c < 3 then setPhaseMem s p c i { phaseMem s p c i with valid := false } else s

/-- A record changes state (R100, R101): entering EMPTY returns the channel's Survey to its base period (R105). -/
def setOnuState (s : State) (p i st : Nat) : State :=
  let s1 := putOnu s p i { onu s p i with state := st }
  if st = stEmpty ∧ (onu s p i).ch < 3 then surveyBase s1 p (onu s p i).ch else s1

/-- Raise a defect with its consequent actions (R66, R89, R100): LOSi in OPERATION enters POPUP. -/
def raiseDefect (s : State) (p i d : Nat) : State :=
  let r := onu s p i
  if hasDefect r d then s
  else
    let s1 := detect s p i d
    let s2 := if d ≤ 1 then invalidatePhase s1 p r.ch i else s1
    if d = dLOSi ∧ r.state = stOperation then
      let s3 := setRng s2 p i { rng s2 p i with since := frame s }
      bump (setOnuState s3 p i stPopup) (pgRNG p r.ch) RNG_C_POPUP_ENTER 1
    else s2

/-- Clear a defect (R66, R100): LOSi cleared in POPUP returns to OPERATION. -/
def clearDefect (s : State) (p i d : Nat) : State :=
  let r := onu s p i
  if !hasDefect r d then s
  else
    let s1 := undetect s p i d
    if d = dLOSi ∧ r.state = stPopup then
      bump (setOnuState s1 p i stOperation) (pgRNG p r.ch) RNG_C_POPUP_RECOVER 1
    else s1

/-- A record goes to EMPTY or is freed: its defects are dropped and each reported one is reported as cleared (R68). -/
def dropDefects (s : State) (p i : Nat) : State :=
  let r := onu s p i
  let s1 := setOnu s p i { r with defects := 0, reported := 0 }
  let s2 := (List.range 6).foldl (fun s d => if bitAt r.reported d then reportDefect s p i d false else s) s1
  setPmRec s2 p i { pmRec s2 p i with darkFrame := none, litFrame := none, noLight := 0, noDelim := 0, goodRun := 0, delimRun := 0 }

/-- Clear a record's delay, residual and phase memory (R100). -/
def clearRanging (s : State) (p i : Nat) : State :=
  invalidatePhase (setRng s p i (RngRec.init 0)) p (recCh s p i) i

/-- A record enters DEACT (R100): the first Deactivate_ONU-ID is pushed. -/
def enterDeact (s : State) (p i : Nat) : State :=
  let s1 := bump (setOnuState s p i stDeact) (pgRNG p (onu s p i).ch) RNG_C_DEACTIVATIONS 1
  startDeact (invalidatePhase s1 p (onu s p i).ch i) p i

/-- DEACT ends with the third Deactivate_ONU-ID (R100): the delay is cleared and the record is EMPTY, or free when VALID is
0. -/
def deactComplete (s : State) (p i : Nat) : State :=
  setOnuState (dropDefects (clearRanging s p i) p i) p i stEmpty

/-- A reset of the record's channel or port (R68, R89, R100): EMPTY at once, no messages. -/
def resetRecord (s : State) (p i : Nat) : State :=
  let s1 := setOnu s p i { onu s p i with held := false }
  setOnuState (dropDefects (clearRanging s1 p i) p i) p i stEmpty

/-- SNMi on a record that met a wrong serial number or registration ID (R69, R89): SEEN_SN stored by the caller, three
Deactivate_ONU-ID, state SNM. -/
def enterSnm (s : State) (p i : Nat) : State :=
  let s1 := setOnuState (raiseDefect s p i dSNMi) p i stSnm
  startDeact (invalidatePhase s1 p (onu s1 p i).ch i) p i

/-! ### LOS_CH -/

/-- Report a raise or clear of LOS_CH (R67, R68). -/
def reportLosCh (s : State) (p c : Nat) (raised : Bool) : State :=
  let b := pgCH p c
  let s1 := setBit s b CH_LOS_CH_ACTIVE raised
  let s2 := if raised then bump (flag s1 b CH_F_LOS_CH) b CH_C_LOS_CH_RAISES 1 else s1
  let s3 := if raised then setChPm s2 (3 * p + c) { chPm s2 (3 * p + c) with defect := true } else s2
  post s3 b (.defect raised 6) [3 * p + c]

/-! ### The laser disable pin -/

/-- TXDIS states (R83). -/
def txUndriven : Nat := 0
def txLow : Nat := 1
def txHigh : Nat := 2

/-- The state of TXDIS[p]. -/
def txdis (s : State) (p : Nat) : Nat := tget dzero s.pon.txdis p

/-- Drive TXDIS[p]. -/
def setTxdis (s : State) (p v : Nat) : State :=
  { s with pon := { s.pon with txdis := tset dzero s.pon.txdis p v } }

/-- Is TXDIS_FORCE set on any of the port's three BRX pages (R95)? -/
def txForced (s : State) (p : Nat) : Bool :=
  isSet s (pgBRX p 0) BRX_TXDIS_FORCE || isSet s (pgBRX p 1) BRX_TXDIS_FORCE || isSet s (pgBRX p 2) BRX_TXDIS_FORCE

/-! ### Custody -/

def pair (s : State) (p : Nat) : PairSt := tget PairSt.init s.prot.pair p
def setPair (s : State) (p : Nat) (r : PairSt) : State :=
  { s with prot := { s.prot with pair := tset PairSt.init s.prot.pair p r } }

/-- Pair states (R267). -/
def pOff : Nat := 0
def pSyncing : Nat := 1
def pStandby : Nat := 2
def pTakeover : Nat := 3
def pSettle : Nat := 4
def pActive : Nat := 5
def pDark : Nat := 6
def pCheck : Nat := 7

/-- Does a port hold custody of its tree (R266, R267)? -/
def holdsCustody (s : State) (p : Nat) : Bool :=
  let r := pair s p
  if r.en then r.state == pSettle || r.state == pActive else r.custody

/-- Does the port build full maps (R267): ACTIVE, or by itself past any SETTLE that a claim began (R266)? -/
def fullMaps (s : State) (p : Nat) : Bool :=
  let r := pair s p
  if r.en then r.state == pActive else r.custody && r.state != pSettle

/-- SD or a delimiter on a port: light seen inside the window of a side in CHECK (R274). -/
def noteLight (s : State) (p : Nat) (light : Bool) : State :=
  let r := pair s p
  match r.watch with
  | some (a, b) =>
    if light && r.state == pCheck && a ≤ frame s && frame s < b then setPair s p { r with light := true } else s
  | none => s

/-! ### Key slots in use -/

/-- The number a channel gives the first slot (R63): 0 on G, 1 on X and H. -/
def firstSlot (c : Nat) : Nat := if c = 0 then 0 else 1

/-- A slot of an entry, by direction and position 0 or 1. -/
def KeyEntry.slot (e : KeyEntry) (up : Bool) (j : Nat) : KeySlot :=
  if up then (if j = 0 then e.us0 else e.us1) else (if j = 0 then e.ds0 else e.ds1)

/-- Store a slot. -/
def KeyEntry.withSlot (e : KeyEntry) (up : Bool) (j : Nat) (k : KeySlot) : KeyEntry :=
  if up then (if j = 0 then { e with us0 := k } else { e with us1 := k })
  else (if j = 0 then { e with ds0 := k } else { e with ds1 := k })

/-- Is an upstream slot in its grace (R65)? The grace of a switch at F ends at F + KEY_GRACE. -/
def inGrace (s : State) (e : KeyEntry) (j : Nat) : Bool :=
  match e.grace with
  | some (k, f) => k == j && frame s < f
  | none => false

/-- Is an upstream slot usable (R65): the active one, or the old one in its grace, and not empty? -/
def slotUsable (s : State) (e : KeyEntry) (j : Nat) : Bool :=
  (e.usActive == some j || inGrace s e j) && (e.slot true j).mode != 0

/-- Is a slot busy, so that it may not be written (R65, R217)? -/
def slotBusy (s : State) (e : KeyEntry) (up : Bool) (j : Nat) : Bool :=
  if up then e.usActive == some j || inGrace s e j else e.dsActive == some j

end Sys2Proof.Machine
end

