-- ==== Sys2Proof/Machine/Offsets.lean ====
section
/-! DEFINITION. What a channel's registers give and what follows from them: burst profiles (R75 to R77), the guard (R84), the
payload of a grant unit (R117), the reach and the equalized offset (R97, R104, R119, R142), and what templates need (R132, R133). -/

namespace Sys2Proof.Machine

/-! ### Register words -/

/-- Consecutive register words. -/
def wordsAt (s : State) (a : Nat) : Nat → List Word
  | 0 => []
  | n + 1 => reg s a :: wordsAt s (a + 4) n

/-- The first n counters of a record as window words, the low word first (R4). -/
def cntWords (n : Nat) (l : List Nat) : List Word :=
  (List.range n).flatMap (fun i => [BitVec.ofNat 32 (l.getD i 0), BitVec.ofNat 32 (l.getD i 0 >>> 32)])

/-- Store consecutive register words. -/
def setWords (s : State) (a : Nat) : List Word → State
  | [] => s
  | w :: l => setWords (setReg s a w) (a + 4) l

/-! ### Profiles -/

/-- Bits per gt of a RATE code (R73); an unused code counts as the slowest. -/
def bitsPerGt : Nat → Nat
  | 0 => 8
  | 1 => 16
  | 2 => 64
  | 3 => 80
  | 4 => 160
  | 5 => 320
  | _ => 8

/-- The base address of profile j. -/
def profBase (p c j : Nat) : Nat := pgBRX p c + 0x100 + 0x40 * j

/-- The words of profile j as they stand. -/
def profWords (s : State) (p c j : Nat) : List Word := wordsAt s (profBase p c j) 8

/-- Word k of a profile. -/
def pw (l : List Word) (k : Nat) : Word := l.getD k 0

/-- The fields of a profile (R95). -/
def profRate (l : List Word) : Nat := bitsOf (pw l 0) 0 3
def profFec (l : List Word) : Bool := bitsOf (pw l 0) 3 1 == 1
def profWarm (l : List Word) : Bool := bitsOf (pw l 0) 4 1 == 1
def profValid (l : List Word) : Bool := bitsOf (pw l 0) 5 1 == 1
def profDelimLen (l : List Word) : Nat := bitsOf (pw l 0) 6 8
def profDelimThr (l : List Word) : Nat := bitsOf (pw l 0) 16 4
def profPre (l : List Word) : Nat := bitsOf (pw l 1) 0 16

/-- Bit k of a pattern that starts at word w, bit 31 (R95). -/
def patternBit (l : List Word) (w k : Nat) : Bool := bitAt (pw l (w + k / 32)).toNat (31 - k % 32)

/-- A bit of the string preamble + delimiter; position 0 is the first delimiter bit, and positions before the first
preamble bit belong to no burst (R76). -/
def streamBit (l : List Word) (q : Int) : Option Bool :=
  if 0 ≤ q then (if q < profDelimLen l then some (patternBit l 4 q.toNat) else none)
  else
    let k := q + profPre l
    if 0 ≤ k then some (patternBit l 2 (k.toNat % 64)) else none

/-- The Hamming distance of the delimiter pattern from the stream s bits early (R76). -/
def shiftDistance (l : List Word) (s : Nat) : Nat :=
  (List.range (profDelimLen l)).countP (fun (j : Nat) =>
    match streamBit l ((j : Int) - s) with
    | some b => b != patternBit l 4 j
    | none => false)

/-- Does the preamble hold a lookalike of the delimiter within the search window (R76)? -/
def lookalike (l : List Word) (win : Nat) : Bool :=
  (List.range win).any (fun s => shiftDistance l (s + 1) ≤ profDelimThr l)

/-- The least preamble of a rate, in bits (R77). -/
def preMin (rate : Nat) (warm : Bool) : Nat :=
  match rate with
  | 0 => if warm then 32 else 48
  | 1 => if warm then 64 else 160
  | 2 => if warm then 384 else 1600
  | 3 => if warm then 640 else 3200
  | 4 => if warm then 1280 else 6400
  | _ => if warm then 3200 else 19200

/-- May a channel use a rate (R76)? -/
def rateAllowed (c rate : Nat) : Bool :=
  if c = 0 then rate == 0 else if c = 1 then rate == 1 || rate == 2 else 3 ≤ rate && rate ≤ 5

/-- Does R76 reject a profile that its write leaves VALID? -/
def profRejected (s : State) (p c : Nat) (l : List Word) : Bool :=
  let mode := fld s (pgCH p c) CH_X_US_MODE
  !rateAllowed c (profRate l) ||
  (c == 1 && ((mode == 1 && profRate l == 2) || (mode == 2 && profRate l == 1))) ||
  profPre l < preMin (profRate l) (profWarm l) ||
  profDelimLen l % 8 != 0 || profDelimLen l < 16 || 128 < profDelimLen l || profDelimLen l / 8 < profDelimThr l ||
  lookalike l (fld s (pgBRX p c) BRX_DELIM_WIN)

/-- GUARD_MIN in gt (R84), after a burst at another rate (`sw`) or at the same. -/
def guardMin (s : State) (p c : Nat) (sw : Bool) : Nat :=
  let b := pgBRX p c
  fld s b BRX_TAIL_GT + ceilDiv (fld s b BRX_BRST_WIDTH) 256 + fld s b BRX_SETTLE_GT +
    (if sw then fld s b BRX_RATE_SW_GT else 0)

/-- Publish the guards of the channel's profiles (R84); profiles 1 to 3 of a G channel read 0 (R75). -/
def publishGuards (s : State) (p c : Nat) : State :=
  (List.range (if c = 0 then 1 else 4)).foldl (fun s j =>
    setFld (setFld s (pgBRX p c) (BRX_GUARD_SAME.at j) (guardMin s p c false)) (pgBRX p c) (BRX_GUARD_SWITCH.at j)
      (guardMin s p c true)) s

/-- RTT(x) of a fibre distance in metres, in gt (R97). -/
def rtt (s : State) (p c x : Nat) : Nat := ceilDiv (x * fld s (pgRNG p c) RNG_GT_PER_KM) 1000

/-- Recompute RNG.SURVEY_LEN (R104): RTT(max) − RTT(min) + RAND_GT + SN_BURST_GT + 2 × GUARD_SWITCH. -/
def publishSurveyLen (s : State) (p c : Nat) : State :=
  let b := pgRNG p c
  let d := rtt s p c (fld s b RNG_REACH_MAX_M) - rtt s p c (fld s b RNG_REACH_MIN_M)
  setFld s b RNG_SURVEY_LEN (d + fld s b RNG_RAND_GT + fld s b RNG_SN_BURST_GT + 2 * guardMin s p c true)

/-- The profile of the next Survey window (R103). -/
def surveyProfile (s : State) (p c : Nat) : Nat :=
  let b := pgRNG p c
  if c = 1 ∧ fld s (pgCH p c) CH_X_US_MODE = 0 ∧ isSet s b RNG_PROFILE_B_EN ∧ (survey s p c).altB then fld s b RNG_SURVEY_PROFILE_B
  else if c = 0 then 0 else fld s b RNG_SURVEY_PROFILE

/-- SUPPRESSED (R105): windows are withheld while the profile that the next would use is not VALID or is WARM. -/
def refreshSuppressed (s : State) (p c : Nat) : State :=
  let l := profWords s p c (surveyProfile s p c)
  setBit s (pgRNG p c) RNG_SUPPRESSED (isSet s (pgRNG p c) RNG_SURVEY_EN && (!profValid l || profWarm l))

/-! ### The equalized timeline -/

/-- BND.OFS_FRAMES (R142), recomputed with US_OFFSET. -/
def publishOfsFrames (s : State) (p : Nat) : State :=
  let m := max (fld s (pgRNG p 1) RNG_US_OFFSET) (fld s (pgRNG p 2) RNG_US_OFFSET)
  setFld s (pgBND p) BND_OFS_FRAMES (ceilDiv (m + gtPerFrame + 512) gtPerFrame)

/-- Recompute US_OFFSET (R97) with what follows from it: S_MIN (R119), SURVEY_LEN (R104), OFS_FRAMES (R142). -/
def publishUsOffset (s : State) (p c : Nat) : State :=
  let b := pgRNG p c
  let n := ceilDiv (fld s b RNG_ZD_FINE) 256 + rtt s p c (fld s b RNG_REACH_MAX_M) + fld s b RNG_EQ_MARGIN
  let s1 := setFld s b RNG_US_OFFSET n
  publishOfsFrames (publishSurveyLen (setFld s1 (pgALC p c) ALC_S_MIN (ceilDiv (256 - n) (unitGt c))) p c) p

/-! ### Grant units (R117) -/

/-- Grant units in a frame. -/
def unitsFrame (c : Nat) : Nat := if c = 0 then 19440 else 9720

/-- Line bytes per unit by RATE code. -/
def lineBytes : Nat → Nat
  | 0 => 1
  | 1 => 4
  | 2 => 16
  | 3 => 20
  | 4 => 40
  | _ => 80

/-- The code rate of the upstream FEC by RATE code: payload and whole of a codeword (R117 states LDPC's; the others are the
standards', log entry 25). -/
def fecRate : Nat → Nat × Nat
  | 0 => (239, 255)
  | 1 => (232, 248)
  | 2 => (216, 248)
  | _ => (14592, 17280)

/-- PPU of a profile: payload bytes per unit in 1/256 byte, 0 while it is not VALID. -/
def ppuOf (l : List Word) : Nat :=
  if profValid l then
    let r := if profFec l then fecRate (profRate l) else (1, 1)
    lineBytes (profRate l) * 256 * r.1 / r.2
  else 0

/-- Publish PPU of the channel's profiles. -/
def publishPpu (s : State) (p c : Nat) : State :=
  (List.range (if c = 0 then 1 else 4)).foldl (fun s j => setFld s (pgALC p c) (ALC_PPU.at j) (ppuOf (profWords s p c j))) s

/-- The overhead of a burst before its StartTime, in units: guard, preamble and delimiter (R118), with the guard widened by
`dow` gt (R114). -/
def overheadOf (s : State) (p c : Nat) (l : List Word) (sw : Bool) (dow : Nat) : Nat :=
  ceilDiv ((guardMin s p c sw + dow) * 256 * bitsPerGt (profRate l) + (profPre l + profDelimLen l) * 256)
    (unitGt c * 256 * bitsPerGt (profRate l))

/-- The worst-case overhead of a channel (R133): the largest of its cold profiles, after a rate switch. -/
def worstOverhead (s : State) (p c : Nat) : Nat :=
  (((List.range (if c = 0 then 1 else 4)).map (profWords s p c)).filter (fun l => profValid l && !profWarm l)).foldl
    (fun m l => max m (overheadOf s p c l true 0)) 0

/-! ### Templates in force (R132, R134) -/

def tpl (s : State) (p t : Nat) : Tpl := tget Tpl.init s.pon.tpl (16 * p + t)
def setTpl (s : State) (p t : Nat) (r : Tpl) : State :=
  { s with pon := { s.pon with tpl := tset Tpl.init s.pon.tpl (16 * p + t) r } }
def tplEntry (s : State) (p e : Nat) : TplEntry := tget TplEntry.init s.pon.ent (1024 * p + e)

/-- The schedules, active or pending, of a template slot. -/
def Tpl.cfgs (r : Tpl) : List TplCfg := r.active.toList ++ r.pending.toList

/-- The entries of a schedule. -/
def cfgEntries (s : State) (p : Nat) (g : TplCfg) : List TplEntry := (List.range g.count).map (fun j => tplEntry s p (g.first + j))

/-- Does an entry fail cause 1 of R133 (it ends past the frame), or cause 2 (it starts before it, or below S_MIN)? -/
def entryLate (c : Nat) (e : TplEntry) : Bool := gtPerFrame < (e.start + e.size) * unitGt c
def entryEarly (s : State) (p c : Nat) (e : TplEntry) : Bool :=
  e.start < worstOverhead s p c || e.start < fld s (pgALC p c) ALC_S_MIN

/-- Does an entry fail cause 1 or 2? -/
def entryBad (s : State) (p c : Nat) (e : TplEntry) : Bool := entryLate c e || entryEarly s p c e

/-- Does the step from `s` to `t` make an accepted entry of the channel fail cause 1 or 2 (R133)? -/
def entriesBroken (s t : State) (p c : Nat) : Bool :=
  (List.range 16).any (fun k => (tpl s p k).cfgs.any (fun g => g.ch == c &&
    (cfgEntries s p g).any (fun e => entryBad t p c e && !entryBad s p c e)))

end Sys2Proof.Machine
end

