-- ==== Sys2Proof/Machine/Buffers.lean ====
section
/-! DEFINITION. The buffer pool manager (R199 to R204): tiers, granules and pools, handles, requests and their waits, owner tags
and references, frees and reclaim; the reservation sums (R205). -/

namespace Sys2Proof.Machine

/-! ### Owner tags (R203) -/

def tagFree : Nat := 0
def tagLanding (req : Nat) : Nat := 0x1000 + req
def tagCtx (c : CtxId) : Nat := 0x2000 + c.k * 256 + c.e * 4 + c.x
def tagQueue (up : Bool) : Nat := 0x3000 + up.toNat
def tagChannel (n : Nat) : Nat := 0x4000 + n
def tagQuarantine : Nat := 0x5000
def tagBonding (p : Nat) : Nat := 0x6000 + p
def tagRing (r : Nat) : Nat := 0x7000 + r
def tagShared : Nat := 0x8000
def tagMigration (x : Nat) : Nat := 0x9000 + x

/-! ### Handles (R199) -/

/-- The bytes of a granule. -/
def granuleBytes : Nat := 40960

/-- The buffer size of a pool: 256, 2,048 and 10,240 bytes, and 256 of the replication pool. -/
def poolBytes : Nat → Nat
  | 1 => 2048
  | 2 => 10240
  | _ => 256

/-- The buffers of a granule in a pool. -/
def poolPer : Nat → Nat
  | 1 => 20
  | 2 => 4
  | _ => 160

/-- The granules of an expander of 512 GiB: expander x takes the granule numbers from x times this on (log entry 22). -/
def expSpan : Nat := 13421772

/-- A handle: POOL, TIER (0 on-chip, 1 stacked, 2 expander) and INDEX. -/
def mkHandle (pool tier index : Nat) : Nat :=
  pool * 2 ^ 34 + (if tier = 2 then 2 ^ 33 + index % 2 ^ 33 else tier * 2 ^ 32 + index % 2 ^ 32)

def handlePool (h : Nat) : Nat := h / 2 ^ 34 % 4
def handleTier (h : Nat) : Nat := min 2 (h / 2 ^ 32 % 4)
def handleIndex (h : Nat) : Nat := if handleTier h = 2 then h % 2 ^ 33 else h % 2 ^ 32
def handleGranule (h : Nat) : Nat := handleIndex h / poolPer (handlePool h)
def handleExp (h : Nat) : Nat := handleGranule h / expSpan

/-- A buffer's record. -/
def buf (s : State) (h : Nat) : Buf := tget Buf.init s.tm.buf h
def setBuf (s : State) (h : Nat) (b : Buf) : State :=
  { s with tm := { s.tm with buf := tset Buf.init s.tm.buf h b } }

/-! ### Tiers -/

/-- Expander states (R215 CXL). -/
def xOff : Nat := 0
def xTraining : Nat := 1
def xUp : Nat := 2
def xMigrating : Nat := 3
def xEmpty : Nat := 4
def xLost : Nat := 5

def expState (s : State) (x : Nat) : Nat := fld s (pgCXL x) CXL_STATE

/-- An expander's granules (R199, R246). -/
def expGranules (s : State) (x : Nat) : Nat := fld s (pgCXL x) CXL_CAP_GIB * 2 ^ 30 / granuleBytes

/-- The expanders that are up. -/
def expsUp (s : State) : List Nat := (List.range 4).filter (fun x => expState s x == xUp)

/-- Are all four stacks trained and in use (R247)? -/
def stacksUp (s : State) : Bool := fld s pgHBM HBM_STACK_OK == 15

/-- The granules of a tier (R199). -/
def tierGranules (s : State) (tier : Nat) : Nat :=
  match tier with
  | 0 => Config.onChipGranules
  | 1 => if stacksUp s then fld s pgHBM HBM_BUF_GIB * 2 ^ 30 / granuleBytes else 0
  | _ => ((expsUp s).map (expGranules s)).sum

/-- The replication pool's granules (R199). -/
def replGranules (s : State) : Nat := fld s pgBPM BPM_REPL_GRANULES

/-- The granules of a tier that pools 0 to 2 have in use. -/
def usedGranules (s : State) (tier : Nat) : List Nat :=
  ((s.tm.buf.filter (fun e => handleTier e.1 == tier && handlePool e.1 != 3)).map (fun e => handleGranule e.1)).dedup

/-- The granules in use on expander x. -/
def usedOn (s : State) (x : Nat) : List Nat := (usedGranules s 2).filter (fun g => g / expSpan == x)

/-- The free granules of a tier: of the stacked one without the replication pool, of the expander one on expanders up. -/
def freeGranules (s : State) (tier : Nat) : Nat :=
  match tier with
  | 0 => tierGranules s 0 - (usedGranules s 0).length
  | 1 => tierGranules s 1 - replGranules s - (usedGranules s 1).length
  | _ => ((expsUp s).map (fun x => expGranules s x - (usedOn s x).length)).sum

/-- The drain reserve of a tier, in granules (R202). -/
def drainReserve (s : State) (tier : Nat) : Nat := tierGranules s tier >>> fld s pgBPM BPM_DRAIN_SHIFT

/-! ### Reservation sums (R205) -/

/-- 4 KiB units in a GiB. -/
def unitsPerGib : Nat := 262144

/-- A capacity less its drain reserve, in 4 KiB units. -/
def lessReserve (s : State) (units : Nat) : Nat := units - units >>> fld s pgBPM BPM_DRAIN_SHIFT

/-- What an expander contributes to RSV_CAP (R205, R211). -/
def expShare (s : State) (x : Nat) : Nat := lessReserve s (fld s (pgCXL x) CXL_CAP_GIB * unitsPerGib)

/-- RSV_CAP in 4 KiB units: the installed stacked and expander bytes, less the drain reserves and the replication pool. -/
def rsvCap (s : State) : Nat :=
  (if stacksUp s then lessReserve s (fld s pgHBM HBM_BUF_GIB * unitsPerGib) - replGranules s * 10 else 0) +
  ((expsUp s).map (expShare s)).sum

/-- The queues that differ from reset. -/
def queueOf (s : State) (k : Nat) : Queue := tget Queue.init s.tm.q k
def setQueue (s : State) (k : Nat) (q : Queue) : State :=
  { s with tm := { s.tm with q := tset Queue.init s.tm.q k q } }

/-- RSV_SUM in 4 KiB units: every reservation, those of uplink-bound queues included. -/
def rsvSum (s : State) : Nat := (s.tm.q.map (fun e => e.2.rsv)).sum

/-- The bytes that the engines' own buffers hold, and those that wait in the reorder stage: charged to the shared remainder until
they are enqueued (R206). -/
def engineBytes (s : State) : Nat :=
  ((s.tm.buf.filter (fun e => e.2.tag / 4096 == 2 && handleTier e.1 != 0)).map (fun e => poolBytes (handlePool e.1))).sum +
  (s.eng.rdr.map (fun r => (r.2.held.map (fun x => match x.verdict with
    | .forward p | .punt p => match p.handle with
      | some h => if handleTier h = 0 then 0 else poolBytes (handlePool h)
      | none => 0
    | _ => 0)).sum)).sum

/-- The shared use in bytes: of every queue what lies beyond its reservation, and the engines' own buffers (R205, R206). -/
def sharedUse (s : State) : Nat := (s.tm.q.map (fun e => e.2.occ - e.2.rsv * 4096)).sum + engineBytes s

/-- The shared remainder in bytes, RSV_CAP less RSV_SUM (R205, R212: 0 when the sum is above the cap). -/
def sharedSize (s : State) : Nat := (rsvCap s - rsvSum s) * 4096

/-- Does shared use stand above the shared remainder, or the reservations above their cap (R205, R212)? -/
def sharedOver (s : State) : Bool := sharedSize s < sharedUse s || rsvCap s < rsvSum s

/-- Requests of requester r in the wait queues. -/
def waitingOf (s : State) (r : Nat) : Nat := (s.tm.wait.map (fun e => (e.2.filter (fun w => w.req == r)).length)).sum

/-- Publish what the pools hold: the sums and free granules of BPM, and the granules of each expander (R205, R215). -/
def publishPools (s : State) : State :=
  let b := pgBPM
  let s1 := setFld (setFld (setFld (setFld (setFld s b BPM_RSV_CAP (rsvCap s)) b BPM_RSV_SUM (rsvSum s)) b BPM_SHARED_USED
    (ceilDiv (sharedUse s) 4096)) b BPM_STK_FREE (freeGranules s 1)) b BPM_EXP_FREE (freeGranules s 2)
  let s2 := (List.range 4).foldl (fun t x =>
    let n := (usedOn s x).length
    setFld (setFld t (pgCXL x) CXL_USED_GRAN n) (pgCXL x) CXL_MIG_LEFT (if expState s x = xMigrating then n else 0)) s1
  (List.range 25).foldl (fun t r => setFld t b (BPM_WAITING.at r) (waitingOf s r)) s2

/-- Bring the published figures up to date after a change; SHARED_OVER is set when the change takes shared use above the
shared remainder (R205, R212). -/
def settlePools (before s : State) : State :=
  publishPools (if sharedOver s && !sharedOver before then flag s pgTMQ TMQ_F_SHARED_OVER else s)

/-! ### Requests -/

/-- Is a requester egress-side (R201)? Prefetch and enqueue are. -/
def egressSide (r : Nat) : Bool := r == 5 || r == 6

/-- The first number from `base` on, counted round `n` numbers from `start`, that is not used. -/
def pickFree (used : List Nat) (base n start : Nat) : Nat → Option Nat
  | 0 => none
  | k + 1 =>
    let g := base + (start + k) % n
    if used.contains g then pickFree used base n start k else some g

/-- The free buffers of a pool in the granules it has (R199), by index; of the expander tier on expanders up. -/
def freeSlots (s : State) (pool tier : Nat) : List Nat :=
  let used := (s.tm.buf.filter (fun e => handleTier e.1 == tier && handlePool e.1 == pool)).map (fun e => handleIndex e.1)
  let gs := ((used.map (· / poolPer pool)).dedup).filter (fun g => tier != 2 || expState s (g / expSpan) == xUp)
  (gs.flatMap (fun g => (List.range (poolPer pool)).map (fun j => g * poolPer pool + j))).filter (fun i => !used.contains i)

/-- A free granule of a tier, for a requester (R202). Which one is not stated: the free value picks. -/
def takeGranule (s : State) (tier : Nat) : Option Nat :=
  let used := usedGranules s tier
  match tier with
  | 2 =>
    let xs := (expsUp s).filter (fun x => (usedOn s x).length < expGranules s x)
    match xs[freeVal s % (max 1 xs.length)]? with
    | none => none
    | some x => pickFree used (x * expSpan) (expGranules s x) (freeVal s / 4) ((usedOn s x).length + 1)
  | _ =>
    let n := tierGranules s tier - (if tier = 1 then replGranules s else 0)
    if n = 0 then none else pickFree used 0 n (freeVal s) (used.length + 1)

/-- Note that the drain reserve was drawn on (R202). -/
def noteReserve (s : State) : State := note s pgBPM BPM_F_RESERVE_USED BPM_C_RESERVE_ALLOCS

/-- Enter a new buffer with its owner's tag and a count of 1 (R203). -/
def newBuf (s : State) (h tag : Nat) : State := bump (setBuf s h ⟨tag, [tag], []⟩) pgBPM BPM_C_ALLOCS 1

/-- One buffer of a pool in a tier for a requester (R199, R201, R202). -/
def allocOne (s : State) (r tag pool tier : Nat) : Option (Nat × State) :=
  let s1 := drawFree s
  if pool = 3 then
    let used := (s.tm.buf.filter (fun e => handlePool e.1 == 3)).map (fun e => handleIndex e.1)
    let n := if stacksUp s then replGranules s * 160 else 0
    if n ≤ used.length then none
    else (pickFree used 0 n (freeVal s) (used.length + 1)).map (fun i => (mkHandle 3 1 i, newBuf s1 (mkHandle 3 1 i) tag))
  else
    let slots := freeSlots s pool tier
    match slots[freeVal s % (max 1 slots.length)]? with
    | some i => some (mkHandle pool tier i, newBuf s1 (mkHandle pool tier i) tag)
    | none =>
      let free := freeGranules s tier
      let low : Bool := free ≤ drainReserve s tier
      if free = 0 || (low && !egressSide r) then none
      else (takeGranule s tier).map (fun g =>
        let h := mkHandle pool tier (g * poolPer pool)
        (h, newBuf (if low then noteReserve s1 else s1) h tag))

/-- The pool that fits s bytes (R200), the replication pool for requester 7 (R199). -/
def poolFor (r n : Nat) : Nat := if r = 7 then 3 else if n ≤ 256 then 0 else if n ≤ 2048 then 1 else 2

/-- The entries of a pool's wait queue (R201). -/
def waitMax : Nat := 4096

def waitQ (s : State) (pool : Nat) : List WaitReq := tget dnil s.tm.wait pool
def setWaitQ (s : State) (pool : Nat) (l : List WaitReq) : State :=
  { s with tm := { s.tm with wait := tset dnil s.tm.wait pool l } }

/-- One buffer of the smallest pool that fits or, with PROMOTE set, of the next larger ones (R200), in which nobody waits (R201). -/
def allocFit (s : State) (r tag tier n : Nat) : Option (Nat × State) :=
  let pool := poolFor r n
  let promoted := fun q =>
    if waitQ s q = [] then (allocOne s r tag q tier).map (fun x => (x.1, note x.2 pgBPM BPM_F_PROMOTED BPM_C_PROMOTED)) else none
  match allocOne s r tag pool tier with
  | some x => some x
  | none =>
    if isSet s pgBPM (BPM_PROMOTE.at r) && pool < 2 then
      match promoted (pool + 1) with
      | some x => some x
      | none => if pool = 0 then promoted 2 else none
    else none

/-- Buffers for n bytes, the first of the chain first (R200); 256-byte buffers chained for the replication pool. -/
def allocChain (r tag tier : Nat) : Nat → State → Nat → Option (List Nat × State)
  | 0, _, _ => none
  | k + 1, s, n =>
    let top := if r = 7 then 256 else 10240
    match allocFit s r tag tier (min n top) with
    | none => none
    | some (h, s1) =>
      if n ≤ top then some ([h], s1)
      else (allocChain r tag tier k s1 (n - top)).map (fun x => (h :: x.1, x.2))

/-- Buffers for n bytes as one chain, or none when a part of it is not to be had (R200). -/
def allocBytes (s : State) (r tag tier n : Nat) : Option (Nat × State) :=
  match allocChain r tag tier (n / 256 + 1) s n with
  | some (h :: l, s1) => some (h, setBuf s1 h { buf s1 h with chain := l })
  | _ => none

/-- The buffers of a chain, the first one first. -/
def chainOf (s : State) (h : Nat) : List Nat := h :: (buf s h).chain

/-- The bytes that a chain is charged: its buffers' sizes (R206). -/
def chargeOf (s : State) (h : Nat) : Nat := ((chainOf s h).map (fun x => poolBytes (handlePool x))).sum

/-- The tier in which a waiting request looks for its buffer first (R201): landing and quarantine are on-chip, a migration goes to
another expander. -/
def WaitReq.tier (w : WaitReq) : Nat :=
  match w.who with
  | .quarantine .. | .landing .. => 0
  | .migrate _ => 2
  | _ => 1

/-- Could a waiting request be granted now? A migration may also go to the stacked tier (R211). -/
def servable (s : State) (w : WaitReq) : Bool :=
  (allocBytes s w.req 0 w.tier w.bytes).isSome || (w.tier == 2 && (allocBytes s w.req 0 1 w.bytes).isSome)

/-- Buffers for a new request (R201): first come, first served, so one that a buffer can be had for and that waits in the pool's queue
goes first. -/
def askBytes (s : State) (r tag tier n : Nat) : Option (Nat × State) :=
  if (waitQ s (poolFor r n)).any (servable s) then none else allocBytes s r tag tier n

/-- A request that was not granted (R201): it waits in the pool's queue when its requester may wait and the queue has room;
otherwise it is refused. Answers whether it waits. -/
def waitOrRefuse (s : State) (w : WaitReq) : State × Bool :=
  let pool := poolFor w.req w.bytes
  let full : Bool := waitMax ≤ (waitQ s pool).length
  if isSet s pgBPM (BPM_WAIT.at w.req) && !full then
    (bump (setWaitQ s pool (waitQ s pool ++ [w])) pgBPM BPM_C_WAITS 1, true)
  else
    let s1 := note s pgBPM BPM_F_REFUSED BPM_C_REFUSED
    (if isSet s pgBPM (BPM_WAIT.at w.req) then flag s1 pgBPM BPM_F_WAITQ_FULL else s1, false)

/-! ### References, frees and reclaim (R203, R204) -/

/-- A buffer that is freed by itself leaves the chain it stands in. -/
def unchain (s : State) (h : Nat) : State :=
  match s.tm.buf.find? (fun e => e.2.chain.contains h) with
  | some (x, b) => setBuf s x { b with chain := b.chain.erase h }
  | none => s

/-- A buffer and the rest of its chain are free again. -/
def clearChain (s : State) (h : Nat) : State := unchain ((chainOf s h).foldl (fun t x => setBuf t x (Buf.init x)) s) h

/-- Return a buffer and the rest of its chain to their pools. -/
def releaseBuf (s : State) (h : Nat) : State := bump (clearChain s h) pgBPM BPM_C_FREES (chainOf s h).length

/-- Log the first bad free after the flags were clear (R204). -/
def logBad (s : State) (h party : Nat) : State :=
  let b := pgBPM
  if flagSet s b BPM_F_BAD_FREE || flagSet s b BPM_F_DOUBLE_FREE then s
  else setFld (setFld (setFld (setFld s b BPM_LOG_HANDLE_LO (h % 2 ^ 32)) b BPM_LOG_HANDLE_HI (h / 2 ^ 32 % 16)) b
    BPM_LOG_OFFENDER party) b BPM_LOG_OWNER (buf s h).tag

/-- The parties that may free a shared buffer: channels, the uplink egress and host rings (R203). -/
def freesShared (party : Nat) : Bool := party / 4096 == 4 || party == tagQueue true || party / 4096 == 7

/-- Give every buffer of a chain a tag and references: a chain is owned and counted as one (R200, R203). -/
def setRefs (s : State) (h tag : Nat) (l : List Nat) : State :=
  (chainOf s h).foldl (fun t x => setBuf t x { buf t x with tag := tag, holders := l }) s

/-- Take one reference of a party off a buffer; the buffer returns to its pool at 0 (R203). -/
def dropRef (s : State) (h party : Nat) : State :=
  let b := buf s h
  let l := b.holders.erase party
  if l = [] then releaseBuf s h else setRefs s h b.tag l

/-- A free, or a reference −1, by a party (R203, R204). -/
def freeBuf (s : State) (h party : Nat) (free : Bool) : State :=
  let b := buf s h
  if b.holders = [] then note (logBad s h party) pgBPM BPM_F_DOUBLE_FREE BPM_C_DOUBLE_FREE
  else if !b.holders.contains party || (free && b.tag == tagShared && !freesShared party) then
    note (logBad s h party) pgBPM BPM_F_BAD_FREE BPM_C_BAD_FREE
  else dropRef s h party

/-- Raise a buffer's count for a party (R203): refused at 255, and the tag becomes shared above 1. A free buffer has no count
to raise. Answers whether it was raised. -/
def addRef (s : State) (h party : Nat) : State × Bool :=
  let b := buf s h
  if b.holders = [] then (s, false)
  else if 255 ≤ b.holders.length then (note s pgBPM BPM_F_REFCNT_SAT BPM_C_REFCNT_SAT, false)
  else (setRefs s h tagShared (party :: b.holders), true)

/-- Pass a party's reference on (R203): the tag of a buffer that is not shared becomes the new owner's. -/
def passBuf (s : State) (h party heir : Nat) : State :=
  let b := buf s h
  if b.holders.contains party then
    setRefs s h (if b.tag = tagShared then tagShared else heir) (heir :: b.holders.erase party)
  else s

/-- The buffers that a fenced party's tag names, and the shared ones it holds a reference of. -/
def bufsOf (s : State) (party : Nat) : List Nat := (s.tm.buf.filter (fun e => e.2.holders.contains party)).map (·.1)

/-- Take every reference of a party off a buffer. -/
def dropAll (s : State) (h party : Nat) : State :=
  let b := buf s h
  let l := b.holders.filter (· != party)
  setBuf s h (if l = [] then Buf.init h else { b with holders := l })

/-- Reclaim after a fault (R158, R203): the references of the fenced party go; answers how many buffers were touched. -/
def reclaimBufs (s : State) (party : Nat) : State × Nat :=
  let l := bufsOf s party
  (bump (l.foldl (fun t h => dropAll t h party) s) pgBPM BPM_C_RECLAIMED l.length, l.length)

end Sys2Proof.Machine
end

