-- ==== Sys2Proof/Machine/Bytes.lean ====
section
/-! DEFINITION. Bytes and numbers (R4: on-line formats are in network order), the CRC-8 of the
on-line formats (R139, R249) and the CRC-32s (R182, R249). -/

namespace Sys2Proof.Machine

/-- Byte i of a frame; 0 past the end of the list (log entry 10). -/
def byteAt (l : List Byte) (i : Nat) : Nat := (l.getD i 0).toNat

/-- The number that n bytes from o on spell, the highest first. -/
def beAt (l : List Byte) (o n : Nat) : Nat := (List.range n).foldl (fun a i => a * 256 + byteAt l (o + i)) 0

/-- The k bytes of a number, the highest first. -/
def beBytes (n : Nat) : Nat → List Nat
  | 0 => []
  | k + 1 => (n / 256 ^ k) % 256 :: beBytes n k

/-- The number that bytes spell, the highest first. -/
def ofBytes (l : List Nat) : Nat := l.foldl (fun a b => a * 256 + b) 0

/-- The first 128 bytes of a packet as the words of the header window, byte 0 in [31:24]. -/
def hwOf (l : List Byte) : Tbl Nat := (List.range 32).foldl (fun t i => tset dzero t i (beAt l (4 * i) 4)) []

/-- Bytes of a value, the highest first. -/
def valueBytes (v n : Nat) : List Byte := (beBytes v n).map (BitVec.ofNat 8)

/-- Write bytes into a frame at offset o; a byte list that ends before them is filled with the 0 that it reads as. -/
def patchBytes (l : List Byte) (o : Nat) (v : List Byte) : List Byte :=
  l.take o ++ List.replicate (o - l.length) 0 ++ v ++ l.drop (o + v.length)

/-- One byte of the CRC-8 with polynomial x^8 + x^2 + x + 1. -/
def crc8Byte (c b : Nat) : Nat :=
  (List.range 8).foldl (fun r _ => if 128 ≤ r then (r * 2 % 256) ^^^ 7 else r * 2) (c ^^^ b)

/-- That CRC-8 of bytes, initial value 0. -/
def crc8 (l : List Nat) : Nat := l.foldl crc8Byte 0

/-- One byte into a reflected CRC-32 with polynomial `poly`. -/
def crc32Byte (poly c b : Nat) : Nat :=
  (List.range 8).foldl (fun c _ => if c % 2 = 1 then (c / 2) ^^^ poly else c / 2) (c ^^^ b)

/-- A CRC-32 over bytes: initial value and final complement all ones. -/
def crc32Of (poly : Nat) (l : List Nat) : Nat := (l.foldl (crc32Byte poly) 0xFFFFFFFF) ^^^ 0xFFFFFFFF

/-- CRC-32 of IEEE 802.3 and CRC-32C. -/
def crc32 (l : List Nat) : Nat := crc32Of 0xEDB88320 l
def crc32c (l : List Nat) : Nat := crc32Of 0x82F63B78 l

end Sys2Proof.Machine
end

