-- ==== Sys2Proof/Machine/Hexline.lean ====
section
/-! DEFINITION. What a Hexca link sends on its lanes: the blocks of ticks, notices and messages (R249), the lane of each and the
scrambler (R250). -/

namespace Sys2Proof.Machine

/-- A Hexca link. -/
def hex (s : State) (m : Nat) : HexSt := tget HexSt.init s.link.hex m
def setHex (s : State) (m : Nat) (r : HexSt) : State := { s with link := { s.link with hex := tset HexSt.init s.link.hex m r } }

/-! ### Blocks (R249) -/

/-- A control block: its type and bytes 1 to 7. -/
def ctlBlock (t : Nat) (l : List Nat) : Nat × Nat := (2, ofBytes (t :: l))

/-- A data block of 8 payload bytes. -/
def dataBlock (l : List Nat) : Nat × Nat := (1, ofBytes l)

/-- The TICK of slot f. -/
def tickBlock (d count f : Nat) (fault master : Bool) : Nat × Nat :=
  ctlBlock 0x2D (d :: beBytes count 2 ++ beBytes f 3 ++ [fault.toNat + 2 * master.toNat])

/-- NOTICE code 1 (RESET) or 2 (FAULT). -/
def noticeBlock (d code : Nat) : Nat × Nat := ctlBlock 0x33 [d, code, 0, 0, 0, 0, 0]

/-- START of a message of LEN bytes. -/
def startBlock (vc seq len : Nat) : Nat × Nat :=
  let l := 16 * vc :: beBytes seq 3 ++ beBytes len 2
  ctlBlock 0x78 (l ++ [crc8 (0x78 :: l)])

/-- END of a message. -/
def endBlock (crc : Nat) : Nat × Nat := ctlBlock 0x87 (beBytes crc 4 ++ [0, 0, 0])

/-! ### Lanes and scrambler (R250) -/

/-- One bit through the scrambler x^58 + x^39 + 1: `h` holds the last 58 bits sent, the latest in bit 0. -/
def scrambleBit (h : Nat) (b : Bool) : Nat × Bool :=
  let o := Bool.xor b (Bool.xor (h.testBit 38) (h.testBit 57))
  ((2 * h + o.toNat) % 2 ^ 58, o)

/-- The n low bits of a payload through the scrambler, the highest first. -/
def scramble (h v : Nat) : Nat → Nat × Nat
  | 0 => (h, 0)
  | n + 1 =>
    let x := scrambleBit h (v.testBit n)
    let y := scramble x.1 v n
    (y.1, x.2.toNat * 2 ^ n + y.2)

/-- Blocks from group block b on: block b on lane b mod 4, its payload scrambled, its sync header not. -/
def lineOf (h b : Nat) : List (Nat × Nat) → List HexBlock
  | [] => []
  | x :: l =>
    let y := scramble h x.2 64
    ⟨b % 4, x.1, y.2⟩ :: lineOf y.1 (b + 1) l

/-- Blocks leave on link m. Which group block the first of them is and what the scrambler holds come from the FILL columns, the markers and
the traces sent before, which the model does not count: free values (log entry 44). -/
def sendBlocks (s : State) (m : Nat) (l : List (Nat × Nat)) : State :=
  let x := hex s m
  let v := (Config.lineState m x.sent).toNat
  setHex s m { x with line := lineOf (v % 2 ^ 58) (v / 2 ^ 58) l, sent := x.sent + 1 }

end Sys2Proof.Machine
end

