-- ==== Sys2Proof/Machine/Reset.lean ====
section
/-! DEFINITION. The reset scopes (R20, R21, R7): what a reset of a page, a channel, a port, a cluster, an engine, a lane, an
expander, a Hexca link and the chip leaves; what a darkened side means for its peer (R269, R278). -/

namespace Sys2Proof.Machine

/-! ### Pages -/

/-- A page's registers at their reset values (R7). What a block reset leaves: LOCK, the owner, EVT_SEQ (R10, R280, R291). The
48-bit counters of every page survive it (R71). -/
def resetPage (s : State) (base : Nat) : State :=
  let lock := fld s base ⟨4, 3, 1, 0⟩
  let kept := s.bus.regs.filter (fun e => e.1 / 0x1000 != base / 0x1000 || e.1 % 0x1000 == 0x08 || e.1 % 0x1000 == 0x20)
  setFld { s with bus := { s.bus with regs := kept } } base ⟨4, 3, 1, 0⟩ lock

/-! ### Lanes in use -/

/-- The lanes of a port mode. -/
def modeLanes : Nat → Nat
  | 0 => 0
  | 3 | 6 | 9 => 4
  | 5 | 8 => 2
  | _ => 1

/-- The mode a port runs in: off while its block is disabled (R236, R280). -/
def portMode (s : State) (q : Nat) : Nat := if isSet s (pgETH q) ANY_ENABLE then fld s (pgETH q) ETH_MODE else 0

/-- Is the block of lane l enabled (R232 STATUS.IN_USE): the port's channel, an uplink port that takes the lane, the Hexca link,
PCIe out of its reset, the expander's link? -/
def laneUse (s : State) (l : Nat) : Bool :=
  if l < 192 then isSet s (pgPON (l / 6)) ANY_ENABLE && bitAt (fld s (pgPON (l / 6)) PON_CH_EN) (l % 6 / 2)
  else if l < 216 then (List.range 24).any (fun q => q ≤ l - 192 && l - 192 < q + modeLanes (portMode s q))
  else if l < 228 then active s (pgMSH ((l - 216) / 4)) MSH_LINK_EN
  else if l < 236 then s.boot.perst
  else expState s ((l - 236) / 8) != xOff

/-- Show IN_USE of n lanes from l. -/
def showUses (s : State) (l n : Nat) : State :=
  (List.range n).foldl (fun t i => setFld t (pgSDS (l + i)) ⟨SDS_STATUS.off, 4, 1, 0⟩ (laneUse t (l + i)).toNat) s

/-! ### Fuse and calibration values -/

/-- The fuse fields of a cluster's ENG page (R303). -/
def loadEngFuses (s : State) (k : Nat) : State :=
  if isSet s pgFUSE FUSE_LOAD_DONE then
    setBit (setFld s (pgENG k) ENG_ENG_OK (Config.engOk k).toNat) (pgENG k) ENG_SPARE_BAD (Config.spareBad k)
  else s

/-- An item of the calibration store (R305): as written since, or the factory's. -/
def calItem (s : State) (kind i : Nat) : CalItem :=
  match tget dnone s.boot.cal (1024 * kind + i) with
  | some x => x
  | none => ⟨(Config.calFactory kind i).1, (Config.calFactory kind i).2, Config.calGood kind i⟩

/-- What an item loads as: its data, or its default where its CRC fails (R305). -/
def calValue (s : State) (kind i : Nat) : Nat × Nat :=
  let x := calItem s kind i
  if x.good then (x.d0, x.d1) else if kind = 0 then (16 + 31 * 1024, 0) else (0, 0)

/-- Put an item into its working copy (R305): kind 0 into the lane's page, kind 2 into RNG.ZD, the others into the CAL page's
working copies. -/
def loadCal (s : State) (kind i : Nat) (v : Nat × Nat) : State :=
  if kind = 0 then
    setFld (setFld (setFld s (pgSDS i) SDS_RX_PEAK (v.1 % 32)) (pgSDS i) SDS_PEAK_MIN (v.1 / 32 % 32)) (pgSDS i) SDS_PEAK_MAX
      (v.1 / 1024 % 32)
  else if kind = 2 then setFld s (pgRNG (i / 3) (i % 3)) RNG_ZD_FINE v.1
  else { s with boot := { s.boot with work := tset (fun _ => (0, 0)) s.boot.work (1024 * kind + i) v } }

/-- The same at a reset: nothing is loaded before the calibration stage. -/
def reloadCal (s : State) (kind i : Nat) : State :=
  if isSet s pgCAL CAL_LOADED then loadCal s kind i (calValue s kind i) else s

/-! ### Scopes -/

/-- A lane (R20): idle, its page at reset; IN_USE is its block's. -/
def resetLane (s : State) (l : Nat) : State := showUses (reloadCal (resetPage s (pgSDS l)) 0 l) l 1

/-- What a channel holds besides its pages goes to reset: framer, lane, Survey, allocation, phase memory, monitoring and open
reassembly contexts. -/
def clearChannel (s : State) (p c : Nat) : State :=
  let n := 3 * p + c
  let t := s.pon
  { s with
    grid := { s.grid with posted := s.grid.posted.filter (fun a => match a.kind with
      | .brst p' c' | .preload p' c' | .rssi p' c' | .mapOut p' c' => p' != p || c' != c
      | _ => true) }
    pon := { t with
      ch := tset ChSt.init t.ch n (ChSt.init n), lane := tset LaneSt.init t.lane n (LaneSt.init n),
      survey := tset SurveySt.init t.survey n (SurveySt.init n), alloc := tset AllocCh.init t.alloc n (AllocCh.init n),
      chPm := tset PmRec.init t.chPm n (PmRec.init n),
      reasm := t.reasm.filter (fun e => e.1 / 8192 != p || (xpEntry s e.1).ch != c),
      phase := t.phase.filter (fun e => e.1 / 512 != n) } }

/-- A channel (R20, R315): its CHx, BRX, RNG and ALC pages and its two lanes; its ONUs return to EMPTY. -/
def resetChannel (s : State) (p c : Nat) : State :=
  let s1 := (portOnus s p).foldl (fun t e => if recCh s p e.1 == c then resetRecord t p e.1 else t) s
  let s2 := resetPage (resetPage (resetPage (resetPage s1 (pgCH p c)) (pgBRX p c)) (pgRNG p c)) (pgALC p c)
  let s3 := clearChannel (reloadCal s2 2 (3 * p + c)) p c
  let s4 := if isSet s pgCAL CAL_LOADED then publishUsOffset s3 p c else s3
  resetLane (resetLane s4 (6 * p + 2 * c)) (6 * p + 2 * c + 1)

/-- Post the state of a pair as an event (R267). -/
def setPairState (s : State) (p st : Nat) : State :=
  post (setPair s p { pair s p with state := st }) pgPRT (.pairState st) [p]

/-- A standby side begins to take custody, at frame `due` (R269). -/
def beginTakeover (s : State) (p due : Nat) : State :=
  let s1 := setPairState s p pTakeover
  flag (setPair s1 p { pair s1 p with due := some due }) pgPRT PRT_F_TAKEOVER

/-- What a dark notice does to one pair (R269). -/
def darkPair (s : State) (p : Nat) : State :=
  let r := pair s p
  if r.state = pStandby then beginTakeover s p (frame s + 3)
  else if r.state = pSyncing then flag s pgPRT PRT_F_TAKEOVER_BLOCKED
  else if r.state = pActive then setPair s p { r with armed := false }
  else s

/-- A port that goes dark tells the other port of a pair on the device (R278). -/
def darkLocalPeer (s : State) (p : Nat) : State :=
  let r := pair s p
  if r.en && r.kind == 0 then darkPair s r.peerPort else s

/-- The state a protected side comes back to after a reset (R277): SYNCING, or STANDBY where both ports are on the device and no
mirror is needed (R278). A side that held nothing yet stays OFF. -/
def pairAfterReset (s : State) (p : Nat) : State :=
  let r := pair s p
  if r.en && r.state != pOff then
    setPairState (setPair s p { r with armed := false, due := none, watch := none, rollcall := 0, resync := r.kind == 1 }) p
      (if r.kind = 1 then pSyncing else pStandby)
  else s

/-- The defects reported on a port's records. -/
def reportsOf (s : State) (p : Nat) : Nat := ((portOnus s p).map (fun e => (List.range 6).countP (bitAt e.2.reported ·))).sum

/-- A port (R20): PON[p], the pages of its channels, TPL and BND, its six lanes; TXDIS[p] not driven at once (R83). Each report of a
defect as cleared sets DEFECT_CHANGE on the page as the reset leaves it (R68). -/
def resetPort (s : State) (p : Nat) : State :=
  let s1 := darkLocalPeer (setTxdis s p txUndriven) p
  let s2 := (List.range 3).foldl (fun t c => resetChannel t p c) s1
  let s3 := (List.range (reportsOf s p)).foldl (fun t _ => flag t (pgPON p) PON_F_DEFECT_CHANGE)
    (resetPage (resetPage (resetPage s2 (pgPON p)) (pgTPL p)) (pgBND p))
  let t := s3.pon
  let far : Nat → Nat → Bool := fun n k => k / n != p
  let s4 : State := { s3 with
    pon := { t with
      onu := t.onu.filter (fun e => far 512 e.1), pm := t.pm.filter (fun e => far 512 e.1), xp := t.xp.filter (fun e => far 8192 e.1),
      reasm := t.reasm.filter (fun e => far 8192 e.1), rng := t.rng.filter (fun e => far 512 e.1),
      ad := t.ad.filter (fun e => far 2048 e.1), ob := t.ob.filter (fun e => far 512 e.1),
      tpl := t.tpl.filter (fun e => far 16 e.1), ent := t.ent.filter (fun e => far 1024 e.1),
      grp := t.grp.filter (fun e => far 64 e.1) } }
  pairAfterReset (publishOfsFrames (showUses s4 (6 * p) 6) p) p

/-! ### Contexts -/

/-- The key of a context. -/
def ctxKey (c : CtxId) : Nat := 132 * c.k + 4 * c.e + c.x

def ctx (s : State) (c : CtxId) : Ctx := tget Ctx.init s.eng.ctx (ctxKey c)

/-- Show the selected context of a cluster in its window (R169). -/
def showCtx (s : State) (k : Nat) : State :=
  let b := pgENG k
  let x := tget Ctx.init s.eng.ctx (132 * k + 4 * fld s b ENG_CTX_ENG + fld s b ENG_CTX_IDX)
  let s1 := setFld (setFld (setFld s b ENG_CTX_STATE x.st) b ENG_CTX_WAIT ((x.wait.map (·.1)).getD 0)) b ENG_CTX_PC x.pc
  setFld (setFld (setFld (setBit s1 b ENG_CTX_BANK x.bank) b ENG_CTX_CAUSE x.cause) b ENG_CTX_SRC x.pkt.src) b ENG_CTX_SEQ
    x.pkt.seq

/-- Store a context and bring its window up to date. -/
def setCtx (s : State) (c : CtxId) (x : Ctx) : State :=
  let b := pgENG c.k
  let s1 : State := { s with eng := { s.eng with ctx := tset Ctx.init s.eng.ctx (ctxKey c) x } }
  if fld s b ENG_CTX_ENG = c.e ∧ fld s b ENG_CTX_IDX = c.x then showCtx s1 c.k else s1

def cluster (s : State) (k : Nat) : Cluster := tget Cluster.init s.eng.cl k
def setCluster (s : State) (k : Nat) (c : Cluster) : State :=
  { s with eng := { s.eng with cl := tset Cluster.init s.eng.cl k c } }

/-- The contexts of an engine. -/
def ctxsOf (k : Fin 16) (e : Fin 33) : List CtxId := [⟨k, e, 0⟩, ⟨k, e, 1⟩, ⟨k, e, 2⟩, ⟨k, e, 3⟩]

/-- A source of the reorder stage (R160, R161). -/
def rdrSrc (s : State) (src : Nat) : RdrSrc := tget RdrSrc.init s.eng.rdr src
def setRdrSrc (s : State) (src : Nat) (r : RdrSrc) : State :=
  { s with eng := { s.eng with rdr := tset RdrSrc.init s.eng.rdr src r } }

/-- The slots held device-wide (R161). -/
def slotsHeld (s : State) : Nat := (s.eng.rdr.map (fun e => e.2.slots)).sum

/-- Show the slots and the selected source of every reorder slice (R169). -/
def showRdr (s : State) (k : Nat) : State :=
  let b := pgRDR k
  let src := fld s b RDR_SRC_SEL
  let r := if src % 16 = k then rdrSrc s src else RdrSrc.init 0
  let used := ((s.eng.rdr.filter (fun e => e.1 % 16 == k)).map (fun e => e.2.slots)).sum
  setFld (setFld (setFld s b RDR_SLOTS_USED used) b RDR_SRC_NEXT r.next) b RDR_SRC_INFLIGHT r.slots

/-- The free slots read alike on every slice. -/
def showSlots (s : State) (k : Nat) : State :=
  (List.range 16).foldl (fun t j => setFld t (pgRDR j) RDR_SLOTS_FREE (2048 - slotsHeld s)) (showRdr s k)

/-- The party that holds a packet's buffer in the reorder stage: the queue manager, for the side the packet goes to (log entry 14). -/
def rdrParty (p : Packet) : Nat := tagQueue (65536 ≤ p.qsel && p.qsel < 2 ^ 17)

/-- Free the buffer of a verdict that is never released. -/
def freeVerdict (s : State) (v : Verdict) : State :=
  match v with
  | .forward p | .punt p => match p.handle with
    | some h => freeBuf s h (rdrParty p) false
    | none => s
  | _ => s

/-- Number the landed packets of slice k's sources afresh, in landing order. -/
def renumber (k : Nat) : List Packet → Tbl RdrSrc → List Packet × Tbl RdrSrc
  | [], t => ([], t)
  | p :: l, t =>
    if p.src % 16 = k then
      let r := tget RdrSrc.init t p.src
      let (l1, t1) := renumber k l (tset RdrSrc.init t p.src { r with seq := (r.seq + 1) % 65536 })
      ({ p with seq := r.seq } :: l1, t1)
    else
      let (l1, t1) := renumber k l t
      (p :: l1, t1)

/-- RDR[k] (R20): its sources begin at 0 again, the verdicts that they hold are freed, and a context of another cluster that held one
of their slots passes its packet on without one (log entry 24). -/
def resetRdr (s : State) (k : Nat) : State :=
  let mine : Nat → Bool := fun src => src % 16 == k
  let s1 := (s.eng.rdr.filter (fun e => mine e.1)).foldl (fun t e => e.2.held.foldl (fun t x => freeVerdict t x.verdict) t) s
  let ctxs := (s1.eng.ctx.filter (fun e => e.2.slot && mine e.2.pkt.src)).foldl
    (fun l e => tset Ctx.init l e.1 { e.2 with slot := false }) s1.eng.ctx
  let (land, rdr) := renumber k s1.eng.landing (s1.eng.rdr.filter (fun e => !mine e.1))
  showSlots { s1 with eng := { s1.eng with ctx := ctxs, landing := land, rdr := rdr,
                                           rdrPick := tset dzero s1.eng.rdrPick k 0 } } k

/-- A cluster (R20): ENG[k], UCS[k], RDR[k] and its 33 engines. Its role is DEV's to give (R23), and RUN_MAX resets by it (R157). -/
def resetCluster (s : State) (k : Nat) : State :=
  let role := fld s (pgENG k) ENG_ROLE
  let s0 := resetPage (resetPage (resetPage s (pgENG k)) (pgUCS k)) (pgRDR k)
  let s1 := setFld (setFld s0 (pgENG k) ENG_ROLE role) (pgENG k) ENG_RUN_MAX (if role = 0 then 4096 else 0)
  let s2 := setCluster { s1 with eng := { s1.eng with ctx := s1.eng.ctx.filter (fun e => e.1 / 132 != k),
                                                      pick := s1.eng.pick.filter (fun e => e.1 / 33 != k) } } k (Cluster.init k)
  loadEngFuses (resetRdr s2 k) k

/-- An expander (R20): its page and link. -/
def resetExpander (s : State) (x : Nat) : State :=
  let s1 := resetPage s (pgCXL x)
  showUses { s1 with tm := { s1.tm with exp := s1.tm.exp.filter (fun e => e.1 != x) } } (236 + 8 * x) 8

/-- This device's number, as its notices carry it. -/
def devId (s : State) : Nat := fld s pgDEV DEV_DEV_ID

/-- Send NOTICE RESET in 8 consecutive block slots on link m (R20, R257). -/
def resetNotice (s : State) (m : Nat) : State :=
  let x := tget TickSt.init s.prot.tick m
  sendBlocks { s with prot := { s.prot with tick := tset TickSt.init s.prot.tick m { x with resets := x.resets + 1 } } } m
    (List.replicate 8 (noticeBlock (devId s) 1))

/-- A link that loses all but what it has sent. -/
def HexSt.quiet (x : HexSt) : HexSt := { HexSt.init 0 with line := x.line, sent := x.sent }

/-- A Hexca link (R20): the RESET notice goes out, then the lanes are quiet. -/
def resetLink (s : State) (m : Nat) : State :=
  let s1 := resetPage (resetNotice s m) (pgMSH m)
  showUses (setHex s1 m (hex s1 m).quiet) (216 + 4 * m) 4

/-! ### The chip -/

/-- The newest valid flush slot (R299): false for slot A. -/
def newestFlush (j : JrnSt) : Option Bool :=
  let a := j.slotA.written && j.slotA.headerOk
  let b := j.slotB.written && j.slotB.headerOk
  if a && b then some (j.slotA.last < j.slotB.last) else if a then some false else if b then some true else none

/-- Begin a journal flush of the last 4,096 records into the slot that does not hold the newest valid flush (R298, R299). A
second trigger during one is merged with it. -/
def beginFlush (s : State) (cause : Nat) : State :=
  match s.jrn.flush with
  | some _ => s
  | none =>
    let slot := if newestFlush s.jrn = some false then 1 else 0
    { s with jrn := { s.jrn with flush := some ⟨slot, s.jrn.ring.take 4096, cause, now s⟩ } }

/-- Send NOTICE FAULT (a dark notice, R269) on every link and FAULT pulses of 512 gt on every HB_OUT pin (R269), from now on. -/
def darkNotices (s : State) : State :=
  let t := (now s).fineIndex
  let hb := (List.range 3).foldl (fun l m => tset (fun _ => (0, 0)) l m (t, t + 512 * finePerGt)) s.link.hbOut
  let tk := (List.range 3).foldl (fun l m =>
    let r := tget TickSt.init l m
    tset TickSt.init l m { r with notices := r.notices + 1 }) s.prot.tick
  let t0 : State := { s with link := { s.link with hbOut := hb }, prot := { s.prot with tick := tk } }
  (List.range 3).foldl (fun t m => sendBlocks t m [noticeBlock (devId s) 2]) t0

/-- The straps as their register shows them. -/
def showStraps (s : State) : State :=
  let x := s.boot.straps
  setFld (setBit (setFld s pgDEV DEV_DEV_ID x.devId) pgDEV DEV_MESH_EN x.meshEn) pgDEV DEV_BOOT_SRC x.bootSrc

/-- Chip reset (R20): everything returns to its reset value but what eMRAM and the fuses keep, the straps, which are sampled at
power good alone, the levels at the input pins, the host's memory, CSEQ, which rises across chip resets (R296), and the flush in
progress. The counters are cleared and the reset is counted. -/
def resetChip (s : State) (cause : Nat) : State :=
  let d := (List.range 3).foldl resetNotice (darkNotices s)
  let f := (beginFlush s cause).jrn
  let z := State.reset
  let t : State := { z with
    pending := s.pending, freeCtr := s.freeCtr,
    bus := { z.bus with hostOut := s.bus.hostOut, done := s.bus.done, data := s.bus.data },
    jrn := { z.jrn with cseq := f.cseq, slotA := f.slotA, slotB := f.slotB, flush := f.flush },
    link := { z.link with hbOut := d.link.hbOut, hex := d.link.hex.map (fun e => (e.1, e.2.quiet)) },
    prot := { z.prot with tick := d.prot.tick.filterMap (fun e =>
      some (e.1, { TickSt.init e.1 with notices := e.2.notices, resets := e.2.resets })) },
    boot := { z.boot with powered := s.boot.powered, straps := s.boot.straps, perst := s.boot.perst, warnPin := s.boot.warnPin,
                          revoked := s.boot.revoked, cal := s.boot.cal } }
  bump (showUses (showStraps t) 228 8) pgDEV DEV_C_CHIP_RESETS 1

end Sys2Proof.Machine
end

