-- ==== Sys2Proof/Machine/Fault.lean ====
section
/-! DEFINITION. The fault collector (R319 to R323): source bits, pins and reactions; fence and reclaim; context faults (R158). -/

namespace Sys2Proof.Machine

/-! ### Sources and pins -/

/-- The reactions of source j (R320). -/
def react (s : State) (j : Nat) : Nat := fld s pgFLT (FLT_REACT.at j)

/-- Is source bit j set? -/
def sourceSet (s : State) (j : Nat) : Bool := isSet s pgFLT ⟨FLT_SRC_STATUS.off + 4 * (j / 32), j % 32, 1, 0⟩

/-- Is a pin low: a source bit is set whose reactions include it (R321)? -/
def pinLow (s : State) (bit : Nat) : Bool := (List.range 64).any (fun j => sourceSet s j && bitAt (react s j) bit)

/-- The pins FLT_TRAP_N and ERR_N as the source bits leave them (R321). -/
def refreshPins (s : State) : State :=
  setBit (setBit s pgFLT FLT_TRAP_PIN (pinLow s 1)) pgFLT FLT_ERR_PIN (pinLow s 4)

/-- A source bit sets (R319, R320, R321): its occurrence is counted, the pins are driven, and a trap message goes to the host
once per set. -/
def setSource (s : State) (j : Nat) : State :=
  let s1 := flag s pgFLT ⟨FLT_SRC_STATUS.off + 4 * (j / 32), j % 32, FLT_SRC_CNT.off + 4 * (j / 2), 16 * (j % 2)⟩
  let s2 := refreshPins (bump s1 pgFLT FLT_C_FAULTS 1)
  if bitAt (react s j) 1 then note s2 pgFLT FLT_F_TRAP_SENT FLT_C_TRAPS else s2

/-! ### Parties -/

/-- The contexts that a party takes with it (R322). -/
def partyCtxs : Party → List CtxId
  | .ctx c => [c]
  | .engine k e => ctxsOf k e
  | .cluster k => (List.finRange 33).flatMap (fun e => ctxsOf k e)
  | _ => []

/-- The owner tags of a party (R203, R322). -/
def partyTags : Party → List Nat
  | .port p => [tagChannel (3 * p), tagChannel (3 * p + 1), tagChannel (3 * p + 2), tagBonding p]
  | .link _ => []
  | .tag t => [t]
  | q => (partyCtxs q).map tagCtx

/-- The owner tag that a fault record names: the first one of the party, 0 for a link. -/
def partyTag (q : Party) : Nat := (partyTags q).headD 0

/-- The causes of R158, in its order from 1. -/
def cWaitTmo : Nat := 1
def cWatchdog : Nat := 2
def cRunOver : Nat := 3
def cIllegal : Nat := 4
def cNest : Nat := 5
def cStack : Nat := 6
def cCsEcc : Nat := 7
def cTrap : Nat := 8
def cFenced : Nat := 9

/-- The flag of ENG.FLAGS that a cause sets (R169). -/
def causeFlag : Nat → Flag
  | 1 => ENG_F_WAIT_TMO
  | 2 => ENG_F_WATCHDOG
  | 3 => ENG_F_RUN_OVER
  | 4 => ENG_F_ILLEGAL_WORD
  | 5 => ENG_F_NEST
  | 6 => ENG_F_STACK
  | 7 => ENG_F_CS_ECC
  | 8 => ENG_F_TRAP
  | _ => ENG_F_FENCED

/-- A context that is not IDLE halts at once, with cause FENCED unless it has faulted already (R157, R158). -/
def fenceCtx (s : State) (c : CtxId) : State :=
  let x := ctx s c
  if x.st = 0 ∨ x.st = 4 then s
  else setCtx (note s (pgENG c.k) ENG_F_FENCED ENG_C_FAULTS) c { x with cause := cFenced, st := 4 }

/-- Fence a party (R322): its contexts halt at once and issue nothing more (R157). -/
def fence (s : State) (q : Party) : State := bump ((partyCtxs q).foldl fenceCtx s) pgFLT FLT_C_FENCES 1

/-- Does a sequence number lie where no working device fills (R161)? -/
def seqBad (r : RdrSrc) (seq : Nat) : Bool := 2048 ≤ (seq + 65536 - r.next) % 65536

/-- Fill a slot (R161). -/
def fillSlot (s : State) (src seq : Nat) (v : Verdict) : State :=
  let r := rdrSrc s src
  let lower : Bool := (List.range ((seq + 65536 - r.next) % 65536)).any (fun d => !r.held.any (fun h => h.seq == (r.next + d) % 65536))
  setRdrSrc s src { r with held := r.held ++ [⟨seq, lower, v⟩] }

/-- Discard what a context has waiting in the pools' queues and in the learn arbiter (R189, R322); answers the locks released. -/
def dropRequests (s : State) (c : CtxId) : State × Nat :=
  let mine : WaitReq → Bool := fun w => match w.who with
    | .engine d => d == c
    | .enqueue _ _ _ _ d => d == some c
    | _ => false
  let s1 := (List.range 4).foldl (fun t q => setWaitQ t q ((waitQ t q).filter (fun w => !mine w))) s
  let arb := s1.cls.arb
  ({ s1 with cls := { s1.cls with arb := arb.filter (fun r => r.ctx != some c) } }, (arb.filter (fun r => r.ctx == some c)).length)

/-- Mark the slot that a context holds skip (R158, R161); answers how many. -/
def skipSlot (s : State) (c : CtxId) : State × Nat :=
  let x := ctx s c
  if x.slot then (fillSlot s x.pkt.src x.pkt.seq (.skip x.pkt.mark), 1) else (s, 0)

/-- A context that is IDLE again: its registers, flags, scratch, the cause of its last fault and STOP stay; nothing of the dispatch
is left. -/
def Ctx.ended (x : Ctx) : Ctx :=
  { x with st := 0, stack := [], conds := 0, latch := none, acted := 0, mem := .idle, tbl := .idle, cip := .idle, bpm := .idle,
           tmq := .idle, hdr := .idle, wait := none, sinceSafe := 0, words := 0, halted := false, slot := false,
           pkt := Packet.none }

/-- Reclaim one context (R158, R322): locks, slot, and IDLE with the cause of its last fault kept. -/
def reclaimCtx (s : State) (c : CtxId) : State × Nat × Nat :=
  let (s1, locks) := dropRequests s c
  let (s2, slots) := skipSlot s1 c
  (setCtx s2 c (ctx s c).ended, locks, slots)

/-- Post the fault record and latch its values (R323). -/
def faultRecord (s : State) (src tag bufs locks slots : Nat) : State :=
  let b := pgFLT
  let s1 := setFld (setFld (setFld (setFld (setFld s b FLT_LAST_SRC src) b FLT_LAST_PARTY tag) b FLT_LAST_BUFS bufs)
    b FLT_LAST_LOCKS locks) b FLT_LAST_SLOTS slots
  post s1 b (.fault src) [src, tag, bufs, locks, slots]

/-- Reclaim a party (R322, R323): its buffers, locks and slots, and the record. -/
def reclaimParty (s : State) (src : Nat) (q : Party) : State :=
  let (s1, bufs) := (partyTags q).foldl (fun a t => let r := reclaimBufs a.1 t; (r.1, a.2 + r.2)) (s, 0)
  let (s2, locks, slots) := (partyCtxs q).foldl
    (fun a c => let r := reclaimCtx a.1 c; (r.1, a.2.1 + r.2.1, a.2.2 + r.2.2)) (s1, 0, 0)
  let s3 := bump (bump (bump s2 pgFLT FLT_C_BUFS_RECLAIMED bufs) pgFLT FLT_C_LOCKS_RELEASED locks) pgFLT FLT_C_SLOTS_SKIPPED slots
  settlePools s (faultRecord (flag s3 pgFLT FLT_F_RECLAIM_DONE) src (partyTag q) bufs locks slots)

/-! ### Reactions -/

/-- The reset scopes below the chip that a page or a fault names (R20). -/
inductive Scope where
  | port (p : Nat)
  | channel (p c : Nat)
  | cluster (k : Nat)
  | lane (l : Nat)
  | expander (x : Nat)
  | link (m : Nat)
  deriving DecidableEq, Repr

/-- The party that is fenced and reclaimed before a scope is reset (R21, R322). A lane holds nothing. -/
def Scope.party : Scope → Party
  | .port p => .port (Fin.ofNat 32 p)
  | .channel p c => .tag (tagChannel (3 * p + c))
  | .cluster k => .cluster (Fin.ofNat 16 k)
  | .lane _ => .tag tagFree
  | .expander x => .tag (tagMigration x)
  | .link m => .link (Fin.ofNat 3 m)

/-- Reset a scope (R20). -/
def Scope.reset (s : State) : Scope → State
  | .port p => resetPort s p
  | .channel p c => resetChannel s p c
  | .cluster k => resetCluster s k
  | .lane l => resetLane s l
  | .expander x => settlePools s (resetExpander s x)
  | .link m => resetLink s m

/-- The scope that the block reset of a source resets (R319, R320): the cluster or the port of the source, or the link a party
names. -/
def reactScope (src : Nat) (q : Party) : Option Scope :=
  if src < 16 then some (.cluster src)
  else if src < 48 then some (.port (src - 16))
  else match q with
    | .link m => some (.link m)
    | _ => none

/-- The scope that a party in the reclaim queue will reset, if any. -/
def FaultReq.scope (s : State) (e : FaultReq) : Option Scope :=
  if bitAt (react s e.src) 2 && !e.merged then reactScope e.src e.party else none

/-- A reset of a scope merges with the ones of the same scope that wait for their reclaim: the block comes out of reset once (R21). -/
def mergeResets (s : State) (x : Scope) : State :=
  let f := fun (e : FaultReq) => if e.scope s == some x then { e with merged := true } else e
  { s with tst := { s.tst with queue := s.tst.queue.map f, outside := s.tst.outside.map f } }

/-- A block reset (R21, R322, R323): the whole scope is fenced and reclaimed by owner tag, unless `done` is that party and was reclaimed
just now; then the scope is reset. -/
def resetScope (s : State) (src : Nat) (x : Scope) (done : Option Party) : State :=
  let s1 := if done = some x.party then s else reclaimParty (fence s x.party) src x.party
  Scope.reset (bump (mergeResets s1 x) pgFLT FLT_C_BLOCK_RESETS 1) x

/-- The block reset reaction of a source (R320). -/
def blockReaction (s : State) (src : Nat) (q : Option Party) : State :=
  match reactScope src (q.getD (.tag tagFree)) with
  | some x => resetScope s src x q
  | none => s

/-- The last reactions (R321): block reset unless it has merged with another (R21) or chip reset supersedes it, then chip reset with its
journal flush. -/
def lastReactions (s : State) (src : Nat) (q : Option Party) (merged : Bool) : State :=
  let r := react s src
  if bitAt r 3 then resetChip s 3 else if bitAt r 2 && !merged then blockReaction s src q else s

/-- The reclaim queue's size (R322). -/
def reclaimMax : Nat := 64

/-- Show the reclaim queue. -/
def showQueue (s : State) : State :=
  setFld (setBit s pgFLT FLT_RECLAIM_BUSY (s.tst.queue != [])) pgFLT FLT_RQ_FILL s.tst.queue.length

/-- Queue a fenced party for reclaim (R322): one already queued merges with its entry, and a 65th waits outside. Its block reset
merges with one of the same scope that waits already (R21). -/
def enterQueue (s : State) (src : Nat) (q : Party) : State :=
  let all := s.tst.queue ++ s.tst.outside
  let e : FaultReq := ⟨src, q, false⟩
  let r := { e with merged := (e.scope s).isSome && all.any (fun x => x.scope s == e.scope s) }
  if all.any (fun e => e.party == q) then s
  else if s.tst.queue.length < reclaimMax then showQueue { s with tst := { s.tst with queue := s.tst.queue ++ [r] } }
  else flag { s with tst := { s.tst with outside := s.tst.outside ++ [r] } } pgFLT FLT_F_RECLAIM_QFULL

/-- A fault notice (R319, R321): the source bit sets and its reactions are taken in order. A party is fenced at once and
queued for reclaim; where the source names none, the record is posted with counts of 0 and block and chip reset follow. Chip
reset does not wait for a reclaim. -/
def notice (s : State) (src : Nat) (q : Option Party) : State :=
  let s1 := setSource s src
  match q with
  | none => lastReactions (faultRecord s1 src 0 0 0 0) src none false
  | some party =>
    let s2 := fence s1 party
    if bitAt (react s src) 3 then lastReactions (faultRecord s2 src (partyTag party) 0 0 0) src q false
    else enterQueue s2 src party

/-- The reclaim engine takes the party at the front (R322, R323), and a party waiting outside moves in; a block reset follows
where the source asks for it. -/
def reclaimNext (s : State) : State :=
  match s.tst.queue with
  | [] => s
  | e :: l =>
    let (inn, out) := match s.tst.outside with
      | [] => (l, [])
      | o :: os => (l ++ [o], os)
    let s1 := showQueue { s with tst := { s.tst with queue := inn, outside := out } }
    lastReactions (reclaimParty s1 e.src e.party) e.src (some e.party) e.merged

/-! ### Error lines (R280, R319, R324) -/

/-- The source that a page's error line belongs to (R319). -/
def sourceOf (pg : Page) (inst : Nat) : Nat :=
  match pg with
  | .ENG | .UCS | .RDR => inst
  | .PON | .CHG | .CHX | .CHH | .TPL | .BND => 16 + inst
  | .BRX | .RNG | .ALC => 16 + inst / 3
  | .GRD | .TOD | .CAP => 48
  | .PRS | .LGD => 49
  | .GZT => 50
  | .TMQ | .TMS => 51
  | .BPM => 52
  | .HBM => 53
  | .CXL => 54
  | .CIP | .KEY | .MSC => 56
  | .ETH => 57
  | .MSH | .PRT => 58
  | .HST | .EVT | .JRN => 59
  | .BOOT | .FUSE | .CAL | .MEM => 60
  | .TST => 61
  | .DEV | .SLC | .PMC | .OPT | .FLT => 62
  | .SDS => if inst < 192 then 16 + inst / 6 else if inst < 216 then 57 else if inst < 228 then 58 else if inst < 236 then 59 else 54

/-- The source of the page at an address. -/
def sourceAt (base : Nat) : Nat :=
  match pageAt base with
  | some (pg, inst) => sourceOf pg inst
  | none => 62

/-- A bit of ERR_STATUS sets (R280): unless masked it stands on the page's error line, which notifies the fault collector. -/
def noteErr (s : State) (base : Nat) (f : Flag) : State :=
  let s1 := flag s base f
  if bitAt (fld s base ANY_ERR_MASK) f.bit then s1 else notice s1 (sourceAt base) none

/-- A functional access to a checked memory of a page's block (R324): an armed injection is made, sets CORR or UNCORR, clears ARM
and is counted. Answers whether the access reads uncorrectable data. -/
def checkedAccess (s : State) (base : Nat) : State × Bool :=
  if isSet s base ANY_ARM then
    let s1 := bump (setBit s base ANY_ARM false) pgFLT FLT_C_INJECTIONS 1
    if isSet s base ANY_KIND then (noteErr s1 base ANY_F_UNCORR, true) else (noteErr s1 base ANY_F_CORR, false)
  else (s, false)

/-- Show how many of the 1,280 banks are on, in retention and off (R318). -/
def showBanks (s : State) : State :=
  let n := fun st => (s.boot.bank.filter (fun e => e.2.st == st)).length
  setFld (setFld (setFld s pgMEM MEM_BANKS_ON (1280 - n 1 - n 0)) pgMEM MEM_BANKS_RET (n 1)) pgMEM MEM_BANKS_OFF (n 0)

/-- An access to a memory of a block wakes its bank when that is in retention, and waits for it (R316), which WAKE_STALL notes (log entry
33). Which bank an access goes to is the floor
plan's: the free value picks among those in retention, or one that is on. -/
def wakeBank (s : State) (pg : Page) : State :=
  let l := s.boot.bank.filter (fun e => e.2.st == 1 && Config.bankUser e.1 == BitVec.ofNat 16 pg.typeCode)
  match l with
  | [] => s
  | _ =>
    match l[freeVal s % (l.length + 1)]? with
    | none => drawFree s
    | some (b, r) =>
      let s1 : State := drawFree { s with boot := { s.boot with bank := tset Bank.init s.boot.bank b { r with st := 2 } } }
      showBanks (bump (flag s1 pgMEM MEM_F_WAKE_STALL) pgMEM MEM_C_WAKES 1)

/-! ### Context faults (R158) -/

/-- A context faults (R158): its cause is recorded, it is fenced, and reclaim takes it at once unless other parties are ahead of
it in the queue (R322); it is then IDLE. -/
def ctxFault (s : State) (c : CtxId) (cause : Nat) : State :=
  let s1 := setCtx (note s (pgENG c.k) (causeFlag cause) ENG_C_FAULTS) c { ctx s c with cause := cause, st := 4 }
  let idle : Bool := s1.tst.queue == []
  let s2 := notice s1 c.k (some (.ctx c))
  if idle then reclaimNext s2 else s2

/-! ### Where a dispatch begins (R22, R164) -/

/-- The role of a cluster (R22): 0 packet, 1 allocation, 2 supervision. -/
def roleOf (s : State) (k : Nat) : Nat := fld s (pgENG k) ENG_ROLE

/-- The entry vector t of a bank (R164). -/
def entryVector (s : State) (k : Nat) (b : Bool) (t : Nat) : Nat := fld s (pgUCS k) ((if b then UCS_ENTRY_B else UCS_ENTRY_A).at t)

/-- The engine that stands at a place of the order: the spare for the one it replaces (R165). -/
def placed (s : State) (p : Fin 16 × Fin 33) : Fin 16 × Fin 33 :=
  if fld s (pgENG p.1) ENG_SPARE_FOR = p.2 then (p.1, ⟨32, by omega⟩) else p

/-- May an engine take work: in service by the fuses, and not lost (R166, R303)? -/
def engineServes (s : State) (p : Fin 16 × Fin 33) : Bool :=
  !(cluster s p.1).lost.contains p.2.val && (p.2.val == 32 || bitAt (fld s (pgENG p.1) ENG_ENG_OK) p.2)

/-- The number of words in the image of a bank. -/
def imageLen (s : State) (k : Nat) (b : Bool) : Nat := if b then (cluster s k).lenB else (cluster s k).lenA

/-- A context begins at entry vector t of the active bank (R159, R164, R168). -/
def beginAt (s : State) (c : CtxId) (t : Nat) : State :=
  let b := isSet s (pgUCS c.k) UCS_ACTIVE_BANK
  let v := entryVector s c.k b t
  let s1 := setCtx s c { ctx s c with st := 1, pc := v, bank := b }
  if imageLen s c.k b ≤ v then ctxFault s1 c cIllegal else s1

/-- A context begins work that lands no packet, at entry vector t (R22, R164): when it is IDLE and its cluster has an image (log entry
54). -/
def beginWork (s : State) (c : CtxId) (t : Nat) : State :=
  let b := isSet s (pgUCS c.k) UCS_ACTIVE_BANK
  if (ctx s c).st = 0 ∧ 0 < imageLen s c.k b then beginAt (bump s (pgENG c.k) ENG_C_DISPATCHES 1) c t else s

/-- The lowest IDLE context of a role's clusters that may take work and has an image to run. -/
def workCtx (s : State) (role : Nat) : Option CtxId :=
  ((List.finRange 16).filter (fun k => roleOf s k.val == role)).findSome? (fun (k : Fin 16) =>
    if 0 < imageLen s k (isSet s (pgUCS k) UCS_ACTIVE_BANK) then
      (List.finRange 32).findSome? (fun e =>
        let q := placed s (k, e.castSucc)
        if engineServes s q then (ctxsOf q.1 q.2).find? (fun c => (ctx s c).st == 0) else none)
    else none)

end Sys2Proof.Machine
end

