-- ==== Sys2Proof/Machine/Channel.lean ====
section
/-! DEFINITION. The commands of the channel MACs: PLOAM pushes, XGEM/GEM entries, ONU records, counters and key switches
(R56 to R65, R71, R72, R350, R358). -/

namespace Sys2Proof.Machine

/-! ### PLOAM pushes -/

/-- PLOAM_PUSH (R57): a host push into the normal queue, refused when the queue is full. -/
def execPloamPush (o : Origin) (p : Fin 32) (c : Fin 3) (s : State) : Res :=
  let b := pgCH p c
  .next (command o (b + CH_PLOAM_PUSH.off) (b + CH_PLOAM_PUSH.off) (fun s =>
    let ch := chSt s p c
    if ch.normal.length < ploamMax then
      let m : Ploam := ⟨.host (wordsAt s (b + CH_PLOAM_BUF.off) (if c.val = 0 then 3 else 12)), 512, 1024, now s⟩
      let s1 := setFld (setFld s b CH_NORM_FILL (ch.normal.length + 1)) b CH_PUSH_FULL 0
      (setChSt s1 p c { ch with normal := ch.normal ++ [m] }, 0)
    else (flag (setFld s b CH_PUSH_FULL 1) b CH_F_PLOAM_OVF, 8)) s)

/-- Push again, in order, the supervision messages that wait, as far as the urgent queue has room (R57). -/
def retryPushes (p c : Nat) : List Ploam → State → State
  | [], s => s
  | m :: l, s =>
    let s1 := pushUrgent s p c m
    if (chSt s1 p c).retry ≠ [] then setChSt s1 p c { chSt s1 p c with retry := m :: l }
    else retryPushes p c l s1

/-- PLOAM_PUSH_RETRY (R57). -/
def execPloamPushRetry (p : Fin 32) (c : Fin 3) (s : State) : Res :=
  let ch := chSt s p c
  .next (retryPushes p c ch.retry (setChSt s p c { ch with retry := [] }))

/-! ### Reassembly timeout -/

/-- Discard a partial SDU (R61). -/
def dropPartial (s : State) (x : Nat) : State := setReasm s x none

/-- REASM_TIMEOUT (R61): at (L + TIMEOUT + 1):0 for a partial whose last fragment came in frame L. -/
def execReasmTimeout (x : Fin 262144) (s : State) : Res :=
  let p := x.val / 8192
  let e := xpEntry s x
  match reasm s x with
  | none => .next s
  | some r =>
    if r.last + fld s (pgCH p e.ch) CH_TIMEOUT + 1 ≤ frame s then
      .next (onuBump (flag (dropPartial s x) (pgCH p e.ch) CH_F_REASM_TIMEOUT) p e.onu ONU_C_REASM_TIMEOUT 1)
    else .next s

/-! ### XGEM and GEM port entries -/

/-- The entry word of the window (R72, PON 0x2CC). -/
def XpEntry.word (e : XpEntry) : Word :=
  BitVec.ofNat 32 (e.portId + e.ch <<< 16 + e.onu <<< 18 + e.dir <<< 27 + e.mcast.toNat <<< 29 + e.valid.toNat <<< 30)

/-- The entry that a window word spells. -/
def xpOfWord (w : Word) : XpEntry :=
  ⟨bitsOf w 0 16, bitsOf w 16 2, bitsOf w 18 9, bitsOf w 27 2, bitsOf w 29 1 == 1, bitsOf w 30 1 == 1⟩

/-- The owner of a valid entry: of its ONU, or of the port for a multicast entry (R62). -/
def xpOwner (s : State) (p : Nat) (e : XpEntry) : Nat := if e.mcast then portOwner s p else onuOwner s p e.onu

/-- May slice v read an entry (R62)? One that is not valid is read by the owner of the port alone. -/
def xpReadable (s : State) (p v : Nat) (e : XpEntry) : Bool :=
  if e.valid then mayUse v (xpOwner s p e) else v == portOwner s p

/-- May slice v write content `n` over entry `e` (R62, R27)? -/
def xpWritable (s : State) (p v : Nat) (e n : XpEntry) : Bool :=
  (!e.valid || mayUse v (xpOwner s p e)) && mayUse v (xpOwner s p n)

/-- The valid entries of a port other than entry j. -/
def otherEntries (s : State) (p j : Nat) : List XpEntry :=
  ((s.pon.xp.filter (fun e => e.1 / 8192 == p && e.1 != 8192 * p + j)).map (·.2)).filter (·.valid)

/-- The valid groups of a port. -/
def validGroups (s : State) (p : Nat) : List (Nat × Grp) :=
  ((s.pon.grp.filter (fun e => e.1 / 64 == p)).map (fun e => (e.1 % 64, e.2))).filter (·.2.valid)

/-- Does a valid bonded group name the entry (R62, R137)? -/
def groupNames (s : State) (p : Nat) (e : XpEntry) : Bool :=
  (validGroups s p).any (fun g =>
    (e.ch == 1 && g.2.onuX == e.onu && g.2.xgemX == e.portId) ||
    (e.ch == 2 && g.2.onuH == e.onu && g.2.xgemH == e.portId))

/-- Does R62 reject a write with VALID 1? -/
def xpRejected (s : State) (p j : Nat) (e n : XpEntry) : Bool :=
  n.ch == 3 || n.dir == 0 ||
  (otherEntries s p j).any (fun o => o.ch == n.ch && o.portId == n.portId) ||
  (if n.ch = 0 then 4095 < n.portId else n.portId == 65535) ||
  (!n.mcast && (!(onu s p n.onu).valid || (onu s p n.onu).ch != n.ch)) ||
  (n.mcast && n.dir != 1) ||
  (e.valid && groupNames s p e && (e.ch != n.ch || e.portId != n.portId || e.onu != n.onu))

/-- Set the XP status bits. -/
def xpStat (s : State) (p : Nat) (own rej : Bool) : State :=
  setBit (setBit s (pgPON p) PON_XP_OWN_ERR own) (pgPON p) PON_XP_REJECT rej

/-- XP_READ (R62). -/
def execXpRead (o : Origin) (p : Fin 32) (s : State) : Res :=
  let b := pgPON p
  .next (command o (b + PON_XP_CMD.off) (b + PON_XP_IDX.off) (fun s =>
    let e := xpEntry s (8192 * p + fld s b PON_XP_IDX)
    if xpReadable s p (Origin.slice o) e then (setReg (xpStat s p false false) (b + PON_PORT_ID.off) e.word, 0)
    else (setReg (xpStat s p true false) (b + PON_PORT_ID.off) 0, 2)) s)

/-- XP_WRITE (R62, R347). -/
def execXpWrite (o : Origin) (p : Fin 32) (s : State) : Res :=
  let b := pgPON p
  .next (command o (b + PON_XP_CMD.off) (b + PON_XP_IDX.off) (fun s =>
    let j := fld s b PON_XP_IDX
    let e := xpEntry s (8192 * p + j)
    let n := xpOfWord (reg s (b + PON_PORT_ID.off))
    if !xpWritable s p (Origin.slice o) e n then (xpStat s p true false, 2)
    else if n.valid && xpRejected s p j e n then (flag (xpStat s p false true) b PON_F_XGEM_REJ, 1)
    else (setXpEntry (xpStat s p false false) (8192 * p + j) n, 0)) s)

/-- XP_INVALIDATE (R62). DESIGN CHOICE (log entry 35): R62 names reads and writes of an entry whose VALID is 0, not its invalidation,
which this model leaves to the owner of the port. -/
def execXpInvalidate (o : Origin) (p : Fin 32) (s : State) : Res :=
  let b := pgPON p
  .next (command o (b + PON_XP_CMD.off) (b + PON_XP_IDX.off) (fun s =>
    let j := fld s b PON_XP_IDX
    let e := xpEntry s (8192 * p + j)
    if mayUse (Origin.slice o) (if e.valid then xpOwner s p e else portOwner s p) then
      (setXpEntry (xpStat s p false false) (8192 * p + j) { e with valid := false }, 0)
    else (xpStat s p true false, 2)) s)

/-! ### ONU records -/

/-- The words of a bit vector, most significant word first. -/
def wordsOfBits (n v : Nat) : List Word :=
  (List.range n).map (fun i => BitVec.ofNat 32 (v >>> (32 * (n - 1 - i))))

/-- The number that words spell, most significant word first. -/
def bitsOfWords (l : List Word) : Nat := l.foldl (fun a w => a * 2 ^ 32 + w.toNat) 0

/-- Word 0 of a record (R72). -/
def OnuRec.word0 (r : OnuRec) : Word :=
  BitVec.ofNat 32 (r.ch + r.onuId <<< 2 + r.state <<< 12 + r.mtch <<< 16 + r.defects <<< 18 + r.reported <<< 24 +
    r.valid.toNat <<< 30 + r.held.toNat <<< 31)

/-- The 14 words of a record (R72). -/
def OnuRec.words (r : OnuRec) : List Word :=
  r.word0 :: (wordsOfBits 2 r.expSn.toNat ++ wordsOfBits 9 r.expReg.toNat ++ wordsOfBits 2 r.seenSn.toNat)

/-- The counters of an ONU as window words, the low word first. -/
def onuCntWords (s : State) (p i : Nat) : List Word :=
  (List.range 32).flatMap (fun j =>
    let n := onuCnt s p i j
    [BitVec.ofNat 32 n, BitVec.ofNat 32 (n >>> 32)])

/-- Set the status bits of the ONU window. -/
def onuStat (s : State) (p : Nat) (own rej : Bool) : State :=
  setBit (setBit s (pgPON p) PON_OWN_ERR own) (pgPON p) PON_REJECT rej

/-- ONU_READ (R72): the record and its counters, or zeros for a record of another slice. -/
def execOnuRead (o : Origin) (p : Fin 32) (s : State) : Res :=
  let b := pgPON p
  .next (command o (b + PON_ONU_CMD.off) (b + PON_ONU_IDX.off) (fun s =>
    let i := fld s b PON_ONU_IDX
    if mayUse (Origin.slice o) (onuOwner s p i) then
      (setWords (setWords (onuStat s p false false) (b + PON_ONU_REC.off) (onu s p i).words)
        (b + 0x180) (onuCntWords s p i), 0)
    else
      (setWords (setWords (onuStat s p true false) (b + PON_ONU_REC.off) (List.replicate 32 0))
        (b + 0x180) (List.replicate 64 0), 2)) s)

/-- The fields a record write may change, from the window (R72). -/
def onuOfWindow (s : State) (p : Nat) (r : OnuRec) : OnuRec :=
  let b := pgPON p + PON_ONU_REC.off
  let w := reg s b
  { r with
    ch := bitsOf w 0 2, onuId := bitsOf w 2 10, mtch := bitsOf w 16 2, valid := bitsOf w 30 1 == 1,
    expSn := BitVec.ofNat 64 (bitsOfWords (wordsAt s (b + 4) 2)),
    expReg := BitVec.ofNat 288 (bitsOfWords (wordsAt s (b + 12) 9)) }

/-- Does R350 reject a record write that leaves VALID at 1? -/
def onuRejected (s : State) (p i : Nat) (n : OnuRec) : Bool :=
  n.ch == 3 || onuIdLimit n.ch ≤ n.onuId ||
  (portOnus s p).any (fun e => e.1 != i && e.2.valid && e.2.ch == n.ch && e.2.onuId == n.onuId)

/-- An accepted record write (R66, R69, R102): a write that changes EXP_SN, EXP_REG or MATCH clears SNMi and takes SNM to
EMPTY; VALID 0 moves the record to DEACT, whose messages name the channel and ONU-ID of before, or frees it in EMPTY; the fields
written are stored unchecked (R347). -/
def writeOnu (s : State) (p i : Nat) (n : OnuRec) : State :=
  let r := onu s p i
  let changed := n.expSn != r.expSn || n.expReg != r.expReg || n.mtch != r.mtch
  if n.valid then
    let s1 := putOnu s p i n
    let s2 := if changed then clearDefect s1 p i dSNMi else s1
    if changed && r.state == stSnm then setOnuState (dropDefects s2 p i) p i stEmpty
    else if !r.valid && r.state == stEmpty then surveyBase s2 p n.ch else s2
  else if r.state = stEmpty then invalidatePhase (dropDefects (putOnu s p i n) p i) p r.ch i
  else
    let s1 := clearDefect s p i dSNMi
    let s2 := if r.state = stDeact then s1 else enterDeact s1 p i
    putOnu s2 p i { onu s2 p i with ch := n.ch, onuId := n.onuId, mtch := n.mtch, valid := false, expSn := n.expSn, expReg := n.expReg }

/-- ONU_WRITE (R27, R102, R350). -/
def execOnuWrite (o : Origin) (p : Fin 32) (s : State) : Res :=
  let b := pgPON p
  .next (command o (b + PON_ONU_CMD.off) (b + PON_ONU_IDX.off) (fun s =>
    let i := fld s b PON_ONU_IDX
    let n := onuOfWindow s p (onu s p i)
    if !mayUse (Origin.slice o) (onuOwner s p i) then (onuStat s p true false, 2)
    else if (onu s p i).held then (onuStat s p false true, 8)
    else if n.valid && onuRejected s p i n then (onuStat s p false true, 1)
    else (writeOnu (onuStat s p false false) p i n, 0)) s)

/-- Clear the 32 counters of an ONU. -/
def clearOnuCnt (s : State) (p i : Nat) : State :=
  (List.range 32).foldl (fun s j => setOnuCnt s p i j 0) s

/-- ONU_COUNTER_CLEAR (R71, R72). -/
def execOnuCounterClear (o : Origin) (p : Fin 32) (s : State) : Res :=
  let b := pgPON p
  .next (command o (b + PON_ONU_CMD.off) (b + PON_ONU_IDX.off) (fun s =>
    let i := fld s b PON_ONU_IDX
    if mayUse (Origin.slice o) (onuOwner s p i) then (clearOnuCnt (onuStat s p false false) p i, 0)
    else (onuStat s p true false, 2)) s)

/-- Clear the 32 counters of a page. -/
def clearCounters (s : State) (base : Nat) : State :=
  (List.range 32).foldl (fun s i => setCnt s (cntAddr base i) 0) s

/-- CNT_CLR (R71): a write of 1 to 0x300 of a page clears all its counters. Pages without counters hold no such register. -/
def execCntClr (o : Origin) (base : Nat) (s : State) : Res :=
  .next (command o (base + 0x300) (base + 0x300) (fun s => (clearCounters s base, 0)) s)

/-! ### Key switching -/

/-- The valid record of a channel with an ONU-ID. -/
def findOnu (s : State) (p c id : Nat) : Option Nat :=
  ((portOnus s p).find? (fun e => e.2.valid && e.2.ch == c && e.2.onuId == id)).map (·.1)

/-- The switch lead time in frames (R63). -/
def keyLead (c : Nat) : Nat := if c = 0 then 8 else 2

/-- A switch accepted (R63, R64): it replaces a pending one. On G the supervision cluster sends three
Key_switching_time messages that name F mod 2^30. -/
def acceptSwitch (s : State) (p c : Nat) (k : KeySw) : State :=
  let s1 := setFld (setChSt s p c { chSt s p c with keySw := some k }) (pgCH p c) CH_PENDING 1
  if c = 0 then
    let m : Ploam := ⟨.keySwitch (k.frame % 2 ^ 30), k.onu, k.onuId, now s⟩
    pushUrgent (pushUrgent (pushUrgent s1 p c m) p c m) p c m
  else s1

/-- KEY_SW_GO (R63, R358). -/
def execKeySwGo (o : Origin) (p : Fin 32) (c : Fin 3) (s : State) : Res :=
  let b := pgCH p c
  .next (command o (b + CH_KEY_SW_GO.off) (b + CH_KEY_ONU_ID.off) (fun s =>
    let id := fld s b CH_KEY_ONU_ID
    let slot := fld s b CH_KEY_NEW_SLOT
    let f := fld s b CH_KEY_F_LO + fld s b CH_KEY_F_HI * 2 ^ 32
    match findOnu s p c id with
    | none => (flag s b CH_F_KEY_SW_REJ, 1)
    | some i =>
      if !mayUse (Origin.slice o) (onuOwner s p i) then (s, 2)
      else if slot ≠ firstSlot c ∧ slot ≠ firstSlot c + 1 then (flag s b CH_F_KEY_SW_REJ, 1)
      else if (now s).fineIndex + keyLead c * finePerFrame ≤ f * finePerFrame then
        (acceptSwitch s p c ⟨i, id, slot, f⟩, 0)
      else (postTo (flag s b CH_F_KEY_LATE) b (onuOwner s p i) .keyLate [i, slot], 8)) s)

/-- The switch of an entry at F (R63, R65): the slot becomes active downstream and, on X and H, upstream, where the slot that
was active enters its grace. On G the slot's PN counts frames from F (R219). -/
def switchEntry (s : State) (p c : Nat) (k : KeySw) : KeyEntry :=
  let e := keyEntry s (512 * p + k.onu)
  let j := k.slot - firstSlot c
  if c = 0 then
    { (e.withSlot false j { e.slot false j with pn := 0, since := k.frame, warned := false, exhausted := false }) with
      dsActive := some j }
  else
    { e with dsActive := some j, usActive := some j,
             grace := match e.usActive with
               | some o => if o = j then none else some (o, k.frame + fld s (pgCH p c) CH_KEY_GRACE)
               | none => none }

/-- A switch whose frame has come (R64): at F:0 the bound record is checked again, and the switch applies or is dropped. -/
def switchKeys (s : State) (p c : Nat) : State :=
  let b := pgCH p c
  match (chSt s p c).keySw with
  | none => s
  | some k =>
    if k.frame ≤ frame s then
      let s1 := setFld (setChSt s p c { chSt s p c with keySw := none }) b CH_PENDING 0
      let r := onu s p k.onu
      if r.valid && r.ch == c && r.onuId == k.onuId then
        postTo (flag (setKeyEntry s1 (512 * p + k.onu) (switchEntry s p c k)) b CH_F_KEY_DONE) b
          (onuOwner s p k.onu) .keyDone [k.onu, k.slot]
      else
        postTo (flag s1 b CH_F_KEY_SW_REJ) b (onuOwner s p k.onu) (.flag CH_F_KEY_SW_REJ.off CH_F_KEY_SW_REJ.bit) [k.onu, k.slot]
    else s

/-- KEY_SWITCH (R64): a switch whose frame has come; a frame boundary brings about those of its frame before it opens the frames. -/
def execKeySwitch (p : Fin 32) (c : Fin 3) (s : State) : Res := .next (switchKeys s p c)

/-- KEY_GRACE_END (R65): the old upstream slot stops being usable and becomes writable. -/
def execKeyGraceEnd (p : Fin 32) (i : Fin 512) (s : State) : Res :=
  let e := keyEntry s (512 * p + i)
  match e.grace with
  | none => .next s
  | some (_, f) => if f ≤ frame s then .next (setKeyEntry s (512 * p + i) { e with grace := none }) else .next s

end Sys2Proof.Machine
end

