-- ==== Sys2Proof/Machine/Burst.lean ====
section
/-! DEFINITION. Burst reception: where a burst lands (R73), profiles (R75 to R77), the sideband pins (R78 to R83), the guard
(R84, R85), phase memory (R86 to R90), and dark slots (R92 to R94). -/

namespace Sys2Proof.Machine

/-! ### Profiles -/

/-- The phase-memory entries of the ONUs whose cold profile is j are invalid once it has another rate (R89). -/
def dropCold (s : State) (p c j : Nat) : State :=
  ((portOnus s p).filter (fun e => e.2.valid && e.2.ch == c && (c == 0 || (tget ObRec.init s.pon.ob (512 * p + e.1)).cold == j))).foldl
    (fun t e => invalidatePhase t p c e.1) s

/-- PROFILE_WRITE (R75, R76, R89, R133, R347, R357): word w of profile j. A write that leaves VALID at 1 is checked as the profile would
stand; maps built already keep the profile as they read it. -/
def execProfileWrite (o : Origin) (p : Fin 32) (c : Fin 3) (j : Fin 4) (w : Fin 9) (data : Word) (s : State) : Res :=
  let a := profBase p c j + 4 * w
  .next (ownWrite o a (fun s =>
    if c.val = 0 ∧ j.val ≠ 0 then (s, 1)
    else
      let s1 := setReg s a (writtenWord .BRX (3 * p + c) (a % 0x1000) false data (reg s a))
      let l := profWords s1 p c j
      if (profValid l && profRejected s p c l) || entriesBroken s s1 p c then
        (flag s (pgBRX p c) BRX_F_PROFILE_REJ, 1)
      else
        let s2 := refreshSuppressed (publishPpu s1 p c) p c
        (if profRate l = profRate (profWords s p c j) then s2 else dropCold s2 p c j, 0)) s)

/-! ### Where a burst lands -/

/-- The preamble start of a burst whose header point is `hp` (R73): nearest fine step, ties up. -/
def preambleStart (l : List Word) (hp : Nat) : Nat :=
  let b := bitsPerGt (profRate l)
  (roundDiv ((hp : Int) * b - (profPre l + profDelimLen l : Nat) * 256) b).toNat

/-- An edge position at the module's pin (R79): the nearest multiple of 4 fine steps, ties up. -/
def edgeAt (n : Nat) : Nat := (n + 2) / 4 * 4

/-- Is the kind a burst of an ONU? -/
def BurstKind.ofOnu : BurstKind → Bool
  | .data | .keepAlive | .ploamOnly | .template _ => true
  | _ => false

/-- Does a granted stretch of upstream need a rate switch on a lane that holds `r` (R80, R353)? A dark slot never. -/
def needsSwitch (r : Option Nat) (b : Burst) : Bool := b.kind != .dark && r != some (profRate b.words)

/-- Where the BRST pulse before a burst, window or slot rises (R80, R93). -/
def pulseRise (s : State) (p c : Nat) (sw : Bool) (b : Burst) : Nat :=
  let x := pgBRX p c
  edgeAt (b.ps - (fld s x BRX_SETTLE_GT + (if sw then fld s x BRX_RATE_SW_GT else 0)) * 256 - fld s x BRX_BRST_WIDTH)

/-- Change the first entry of a schedule that meets `q`. -/
def changeFirst (q : Burst → Bool) (g : Burst → Burst) : List Burst → List Burst
  | [] => []
  | b :: l => if q b then g b :: l else b :: changeFirst q g l

/-- The rate that counts as the previous one before the first entry that meets `q` (R353): that of the last burst or window granted
before it, late or not; `r` when there is none. -/
def rateBefore (q : Burst → Bool) (r : Option Nat) : List Burst → Option Nat
  | [] => r
  | b :: l => if q b then r else rateBefore q (if b.kind = .dark then r else some (profRate b.words)) l

/-- The lane's rate once an entry leaves the schedule (R353). -/
def LaneSt.leave (l : LaneSt) (b : Burst) : LaneSt :=
  { l with sched := l.sched.erase b, rate := if b.kind = .dark then l.rate else some (profRate b.words) }

/-- The predicted end of the entry before the first that meets `q`; `e` when that is the first. -/
def endBefore (q : Burst → Bool) (e : Option Nat) : List Burst → Option Nat
  | [] => e
  | b :: l => if q b then e else endBefore q (some b.end_) l

/-- Is a schedule entry the next to pulse: its timed actions were posted in time (R74) and its pulse has not come? -/
def awaitsPulse (b : Burst) : Bool := !b.pulsed && !b.late

/-- Does the earlier burst win (R85): the preamble starts less than GUARD_MIN after the previous predicted end? -/
def guardViolated (s : State) (p c : Nat) (prev : Option Nat) (sw : Bool) (b : Burst) : Bool :=
  b.kind.ofOnu &&
  match prev with
  | some e => b.ps < e + guardMin s p c sw * 256
  | none => false

/-- The pulse before the next granted burst, window or slot, and the rate switch after it (R80, R85, R93, R107). -/
def brstPulse (s : State) (p c : Nat) : State :=
  let l := lane s p c
  match l.sched.find? awaitsPulse with
  | none => s
  | some b =>
    let sw := needsSwitch (rateBefore awaitsPulse l.rate l.sched) b
    if guardViolated s p c (endBefore awaitsPulse l.lastEnd l.sched) sw b then
      let sched := changeFirst awaitsPulse (fun b => { b with pulsed := true, loaded := true }) l.sched
      note (setLane s p c { l with sched := sched }) (pgBRX p c) BRX_F_GUARD_VIOL BRX_C_GUARD_VIOL
    else
      let rise := pulseRise s p c sw b
      let l1 := { l with
        sched := changeFirst awaitsPulse (fun b => { b with pulsed := true }) l.sched,
        brstRise := rise, brstFall := rise + fld s (pgBRX p c) BRX_BRST_WIDTH }
      let s1 := setLane s p c l1
      if sw then bump s1 (pgBRX p c) BRX_C_RATE_SWITCHES 1 else s1

/-- BRST_PULSE (R80): the pulse at its posted position. -/
def execBrstPulse (p : Fin 32) (c : Fin 3) (s : State) : Res := .next (brstPulse (unpost s (.brst p c)) p c)

/-! ### Phase memory -/

/-- Store a phase-memory entry, keeping what it replaced for a preload whose read point lies before the store (R88). -/
def storePhase (s : State) (p c i : Nat) (e : PhaseEntry) : State :=
  let n := (now s).fineIndex
  let l := lane s p c
  let keep := l.stored.filter (fun x => n ≤ x.2.1 + 4 * finePerFrame)
  setPhaseMem (setLane s p c { l with stored := keep ++ [(i, n, phaseMem s p c i)] }) p c i e

/-- The entry as it stood at a position (R88): what the first later store replaced, or the entry as it stands. -/
def phaseAsOf (s : State) (p c i n : Nat) : PhaseEntry :=
  match (lane s p c).stored.find? (fun x => x.1 == i && n < x.2.1) with
  | some x => x.2.2
  | none => phaseMem s p c i

/-- Mid-phase and the peaking code of a lane without a preload (R88). -/
def midPhase : Nat := 128
def coldPeak : Nat := 16

/-- The values a lane loads for a burst (R88): those of the entry 32 gt before the preload point, whatever its VALID. -/
def preloadOf (s : State) (p c : Nat) (b : Burst) : Nat × Nat :=
  let e := phaseAsOf s p c b.onu (b.ps - (fld s (pgBRX p c) BRX_SETTLE_GT + 32) * 256)
  if isSet s (pgBRX p c) BRX_PM_EN && e.written then (e.phase, e.peak) else (midPhase, coldPeak)

/-- Does a schedule entry await its preload? -/
def awaitsPreload (b : Burst) : Bool := b.kind.ofOnu && b.pulsed && !b.loaded && !b.late

/-- The preload of the next burst on a lane (R88). -/
def phasePreload (s : State) (p c : Nat) : State :=
  let l := lane s p c
  match l.sched.find? awaitsPreload with
  | none => s
  | some b =>
    let v := preloadOf s p c b
    setLane s p c { l with
      sched := changeFirst awaitsPreload (fun b => { b with loaded := true, preload := some v }) l.sched,
      phase := v.1, peak := v.2 }

/-- PHASE_PRELOAD (R88): the preload at its posted position. -/
def execPhasePreload (p : Fin 32) (c : Fin 3) (s : State) : Res := .next (phasePreload (unpost s (.preload p c)) p c)

/-- Add the fraction of a bit that a trim of `t` fine steps leaves to a PHASE learned at `rate` (R86). -/
def trimmedPhase (rate phase : Nat) (t : Int) : Nat := (((phase : Int) + t * bitsPerGt rate) % 256).toNat

/-- Is a write-back due, of the phase and peaking code that the lane held at the burst's last bit (R86): 8 gt after its predicted
end? -/
def Back.due (x : Back) (s : State) (i phase peak : Nat) : Bool :=
  x.b.onu == i && x.phase == phase && x.peak == peak && x.b.end_ + 8 * finePerGt ≤ (now s).fineIndex

/-- PHASE_WRITE_BACK (R86, R115): the entry of a burst whose delimiter was found takes the phase and peaking code that the lane held at
its last bit, with what trims have added since. That of a burst granted to an ONU in POPUP leaves the entry invalid. -/
def execPhaseWriteBack (p : Fin 32) (c : Fin 3) (i : Fin 512) (phase : Fin 256) (peak : Fin 32) (s : State) : Res :=
  let l := lane s p c
  match l.back.find? (fun x => x.due s i phase peak) with
  | none => .next s
  | some x =>
    let s1 := setLane s p c { l with back := l.back.erase x }
    .next (storePhase s1 p c i ⟨(x.phase + x.shift) % 256, x.peak, profRate x.b.words, frame s % 2 ^ 32, x.valid, true⟩)

/-- Set OWN_ERR of the phase-memory window. -/
def pmOwn (s : State) (p c : Nat) (own : Bool) : State := setBit s (pgBRX p c) BRX_OWN_ERR own

/-- Set CONFLICT of the phase-memory window: what became of the last write. -/
def pmConflict (s : State) (p c : Nat) (conflict : Bool) : State := setBit s (pgBRX p c) BRX_CONFLICT conflict

/-- A phase-memory command: ownership of the entry first (R95). -/
def pmCommand (o : Origin) (p c : Nat) (body : Nat → State → State × Nat) (s : State) : State :=
  let b := pgBRX p c
  command o (b + BRX_PM_CMD.off) (b + BRX_PM_IDX.off) (fun s =>
    let i := fld s b BRX_PM_IDX
    if mayUse (Origin.slice o) (onuOwner s p i) then body i (pmOwn s p c false)
    else (setReg (setReg (pmOwn s p c true) (b + BRX_PHASE.off) 0) (b + BRX_STAMP.off) 0, 2)) s

/-- PM_READ (R90). -/
def execPmRead (o : Origin) (p : Fin 32) (c : Fin 3) (s : State) : Res :=
  let b := pgBRX p c
  .next (pmCommand o p c (fun i s =>
    let e := phaseMem s p c i
    let s1 := setFld (setFld s b BRX_PHASE e.phase) b BRX_PEAK e.peak
    let s2 := setBit (setFld s1 b BRX_RATE e.rate) b BRX_VALID e.valid
    (setFld s2 b BRX_STAMP e.stamp, 0)) s)

/-- PM_WRITE (R90): the hardware write-back of the same cycle wins. -/
def execPmWrite (o : Origin) (p : Fin 32) (c : Fin 3) (conflict : Bool) (s : State) : Res :=
  let b := pgBRX p c
  .next (pmCommand o p c (fun i s =>
    if conflict then (pmConflict s p c true, 4)
    else
      (storePhase (pmConflict s p c false) p c i ⟨fld s b BRX_PHASE, fld s b BRX_PEAK, fld s b BRX_RATE, fld s b BRX_STAMP,
        isSet s b BRX_VALID, true⟩, 0)) s)

/-- PM_INVALIDATE (R89). -/
def execPmInvalidate (o : Origin) (p : Fin 32) (c : Fin 3) (s : State) : Res :=
  .next (pmCommand o p c (fun i s => (invalidatePhase s p c i, 0)) s)

/-- Is an entry valid for a burst on profile words `l` that arrives in frame f (R87)? -/
def phaseValid (s : State) (p c i : Nat) (l : List Word) (f : Nat) : Bool :=
  let e := phaseMem s p c i
  e.valid && e.rate == profRate l && isSet s (pgBRX p c) BRX_PM_EN &&
    (f + 2 ^ 32 - e.stamp) % 2 ^ 32 ≤ fld s (pgBRX p c) BRX_PM_MAXAGE

/-! ### Received-power measurement -/

/-- The burst or dark slot that a request waits for: the first that starts at or after `at_` and whose actions are posted in time
(R74). -/
def rssiTarget (l : LaneSt) (r : RssiReq) : Option Burst :=
  l.sched.find? (fun b => (if r.dark then b.kind == .dark else b.kind.ofOnu && b.onu == r.onu) && r.at_ ≤ b.ps && !b.late)

/-- The pulse of a channel's pending request, rise and fall, when its burst or slot is scheduled (R79, R82). -/
def rssiPulseAt (s : State) (p c : Nat) : Option (Nat × Nat) :=
  let b := pgBRX p c
  match (lane s p c).rssi with
  | none => none
  | some r =>
    (rssiTarget (lane s p c) r).map (fun t =>
      let rise := edgeAt (t.ps + fld s b BRX_RSSI_DELAY_GT * 256)
      (rise, rise + fld s b BRX_RSSI_WIDTH_GT * 256))

/-- The calibrated sideband path delay of a channel (R79, R305 kind 3), by which every edge is driven earlier than it is to reach the
module's pin. -/
def sbDelay (s : State) (p c : Nat) : Nat := (tget (fun _ => (0, 0)) s.boot.work (1024 * 3 + 3 * p + c)).1

/-- Post the pulse of a channel's pending request once its burst or slot is scheduled, in place of what was posted for it (R19, R79,
R82). DESIGN CHOICE (log entry 36): a request whose pulse comes less than 16 gt ahead passes to the following burst or slot. -/
def postRssi (s : State) (p c : Nat) : State :=
  let s0 := unpost s (.rssi p c)
  match (lane s p c).rssi, rssiPulseAt s p c with
  | some r, some w =>
    let a : Action := ⟨.rssi p c, pgBRX p c, posOfFine (w.1 - sbDelay s p c)⟩
    if (now s).fineIndex + 16 * finePerGt ≤ a.pos.fineIndex then postAction s0 a
    else
      let t := ((rssiTarget (lane s p c) r).map (·.ps)).getD 0
      postAction (setLane s0 p c { lane s0 p c with rssi := some { r with at_ := t + 1 } }) a
  | _, _ => s0

/-- RSSI_GO (R82): a request replaces one pending on its channel. -/
def execRssiGo (o : Origin) (p : Fin 32) (c : Fin 3) (s : State) : Res :=
  let b := pgBRX p c
  .next (command o (b + BRX_RSSI_GO.off) (b + BRX_RSSI_GO.off) (fun s =>
    let dark := isSet s b BRX_RSSI_DARK
    let r : RssiReq := ⟨fld s b BRX_RSSI_ONU, dark, (now s).fineIndex + (if dark then 0 else 16 * finePerGt)⟩
    (postRssi (setLane (setBit s b BRX_RSSI_PENDING true) p c { lane s p c with rssi := some r }) p c, 0)) s)

/-- Do two pulses overlap? -/
def overlap (a b : Nat × Nat) : Bool := a.1 < b.2 && b.1 < a.2

/-- Defer a channel's request to the following burst or dark slot (R82). -/
def rssiDefer (s : State) (p c : Nat) : State :=
  let l := lane s p c
  match l.rssi with
  | none => s
  | some r =>
    match rssiTarget l r with
    | none => s
    | some t => flag (postRssi (setLane s p c { l with rssi := some { r with at_ := t.ps + 1 } }) p c) (pgBRX p c) BRX_F_RSSI_DEFER

/-- Does a lower channel's pulse, pending or just given, overlap one of channel c? -/
def rssiBlocked (s : State) (p c : Nat) (w : Nat × Nat) : Bool :=
  (List.range 3).any (fun d => d != c &&
    (overlap w ((lane s p d).rssiRise, (lane s p d).rssiFall) ||
      (d < c && match rssiPulseAt s p d with | some v => overlap w v | none => false)))

/-- The pulse of the channel's pending request (R82); of two that overlap the lower channel's fires. -/
def rssiPulse (s : State) (p c : Nat) : State :=
  match rssiPulseAt s p c with
  | none => s
  | some w =>
    if rssiBlocked s p c w then rssiDefer s p c
    else
      let b := pgBRX p c
      let s1 := (List.range 3).foldl (fun s d =>
        match (if c < d then rssiPulseAt s p d else none) with
        | some v => if overlap w v then rssiDefer s p d else s
        | none => s) s
      let s2 := setLane s1 p c { lane s1 p c with rssi := none, rssiRise := w.1, rssiFall := w.2 }
      flag (bump (setBit s2 b BRX_RSSI_PENDING false) b BRX_C_RSSI_TRIGS 1) b BRX_F_RSSI_DONE

/-- RSSI_PULSE (R82): the pulse at its posted position. -/
def execRssiPulse (p : Fin 32) (c : Fin 3) (s : State) : Res := .next (rssiPulse (unpost s (.rssi p c)) p c)

/-! ### Signal detect and dark slots -/

/-- SD_LEVEL_CHANGE (R81): a level that has held for SD_FILT consecutive samples is taken; SD_FILT 0 takes each sample. -/
def execSdLevelChange (p : Fin 32) (c : Fin 3) (level : Bool) (samples : Nat) (s : State) : Res :=
  if max 1 (fld s (pgBRX p c) BRX_SD_FILT) ≤ samples then
    .next (noteLight (setLane s p c { lane s p c with sd := level }) p level)
  else .next s

/-- ROGUE after one more dark slot (R94). -/
def evalRogue (s : State) (p c : Nat) : State :=
  let b := pgBRX p c
  let h := ((lane s p c).dark).take (fld s b BRX_ROGUE_WIN)
  if isSet s b BRX_ROGUE_STATE then
    if fld s b BRX_ROGUE_WIN ≤ h.length ∧ h.all (!·) then
      post (setBit s b BRX_ROGUE_STATE false) b (.rogue false) [3 * p + c]
    else s
  else if fld s b BRX_ROGUE_THR ≤ h.countP id then
    post (note (setBit s b BRX_ROGUE_STATE true) b BRX_F_ROGUE BRX_C_ROGUE_RAISES) b (.rogue true) [3 * p + c]
  else s

/-- DARK_SLOT_TEST (R81, R93, R94): the inner window of the slot that is due is tested for light: SD high at a sample in it, as the
operand says or as the level last taken stands, or the energy detector's. -/
def execDarkSlotTest (p : Fin 32) (c : Fin 3) (sdHigh : Bool) (lightRun : Nat) (s : State) : Res :=
  let b := pgBRX p c
  let l := lane s p c
  match l.sched.find? (fun x => x.kind == .dark) with
  | none => .next s
  | some d =>
    let inner := 2 * fld s b BRX_DARK_EDGE < d.size
    let light := inner && (sdHigh || l.sd || fld s b BRX_LIGHT_MIN ≤ lightRun)
    let l1 := { l.leave d with dark := (light :: l.dark).take 15, lastEnd := some d.end_ }
    let s1 := bump (setLane s p c l1) b BRX_C_DARK_SLOTS 1
    let q := posOfFine d.open_
    let s2 := if light then
        post (note s1 b BRX_F_DARK_HIT BRX_C_DARK_HITS) b (.flag BRX_F_DARK_HIT.off BRX_F_DARK_HIT.bit) [q.frame, q.tick, q.fine]
      else s1
    .next (evalRogue s2 p c)

end Sys2Proof.Machine
end

