-- ==== Sys2Proof/Machine/Grid.lean ====
section
/-! DEFINITION. The Graticule: references and the digital PLL (R30 to R33, R346), slew and step (R34 to R36, R356), reading
the grid (R40, R50), the time of day (R41 to R44) and capture (R51). -/

namespace Sys2Proof.Machine

/-! ### The digital PLL -/

/-- Is an input qualified (0 GREF_A, 1 GREF_B, 2 PPS_A, 3 PPS_B, the order of REF_OK)? -/
def refOk (s : State) (i : Nat) : Bool := bitAt (fld s pgGRD GRD_REF_OK) i

/-- Are both inputs of pair `x` (0 A, 1 B) qualified? -/
def pairOk (s : State) (x : Nat) : Bool := refOk s x && refOk s (2 + x)

/-- DPLL states (R33). -/
def dpllFree : Nat := 0
def dpllAcquire : Nat := 1
def dpllLocked : Nat := 2
def dpllHoldover : Nat := 3

/-- May the DPLL stay on pair `x`? In LOCKED the loss of the PPS alone is carried by frequency (R33, log entry 20). -/
def mayStay (s : State) (x : Nat) : Bool :=
  let st := fld s pgGRD GRD_DPLL_STATE
  (st == dpllAcquire || st == dpllLocked) && fld s pgGRD GRD_ACTIVE_REF == x &&
    refOk s x && (st == dpllLocked || refOk s (2 + x))

/-- The pair the DPLL is to use, if any (R32). -/
def chosenRef (s : State) : Option Nat :=
  match fld s pgGRD GRD_SEL_MODE with
  | 0 =>
    if mayStay s 0 then some 0
    else if mayStay s 1 then
      if isSet s pgGRD GRD_REVERTIVE && pairOk s 0 then some 0 else some 1
    else if pairOk s 0 then some 0 else if pairOk s 1 then some 1 else none
  | 1 => if mayStay s 0 || pairOk s 0 then some 0 else none
  | 2 => if mayStay s 1 || pairOk s 1 then some 1 else none
  | _ => none

/-- The average frequency over the last HOLD_AVG seconds (R33), in units of 10^-12, to the nearest unit. -/
def holdAverage (s : State) : Int :=
  let h := s.grid.freqHist.take (fld s pgGRD GRD_WINDOW)
  if h = [] then fldS s pgGRD GRD_OFF else roundDiv h.sum h.length

/-- Begin an acquisition on pair `x` (R33, R346). -/
def beginAcquire (s : State) (x : Nat) (fromFree : Bool) : State :=
  let s1 := setFld (setFld s pgGRD GRD_DPLL_STATE dpllAcquire) pgGRD GRD_ACTIVE_REF x
  { s1 with grid := { s1.grid with fromFree := fromFree, pulled := false, edges := 0, good := 0, otherPhase := none } }

/-- Set PHASE_ERR and the phase that is left to slew. -/
def setPhase (s : State) (e : Int) : State :=
  let s1 := setFld s pgGRD GRD_ERR (unsignedOf 32 e)
  { s1 with grid := { s1.grid with residual := e } }

/-- Change to pair `x` in LOCKED (R33, R346): the phase last measured against its PPS is what is left to slew from now on. -/
def switchRef (s : State) (x : Nat) : State :=
  let s1 := setFld s pgGRD GRD_ACTIVE_REF x
  match s.grid.otherPhase with
  | none => s1
  | some e => setPhase { s1 with grid := { s1.grid with otherPhase := none } } e

/-- Enter HOLDOVER with the frequency frozen at its average (R33). -/
def enterHoldover (s : State) : State :=
  let s1 := setFld (setFld s pgGRD GRD_DPLL_STATE dpllHoldover) pgGRD GRD_OFF (unsignedOf 32 (holdAverage s))
  flag { s1 with grid := { s1.grid with pulled := false, good := 0 } } pgGRD GRD_F_HOLDOVER_ENTER

/-- Does the device follow a grid master (R262)? Then its grid is locked to the master, not to its references. -/
def following (s : State) : Bool := fld s pgPRT PRT_CUR_ROLE == 2 && fld s pgPRT PRT_MASTER_LINK != 3

/-- The DPLL's transitions on a change of what is qualified or selected (R32, R33); none while a master is followed (R262). DESIGN
CHOICE (log entry 32): R33 has no transition from FREE to HOLDOVER, so SEL_MODE 3 written in FREE leaves the DPLL in FREE. -/
def evalRef (s : State) : State :=
  let st := fld s pgGRD GRD_DPLL_STATE
  if following s then s else match chosenRef s with
  | none => if st = dpllAcquire ∨ st = dpllLocked then enterHoldover s else s
  | some x =>
    if st = dpllFree ∨ st = dpllHoldover then
      if pairOk s x then beginAcquire s x (st == dpllFree) else s
    else if fld s pgGRD GRD_ACTIVE_REF = x then s
    else if st = dpllAcquire then beginAcquire s x s.grid.fromFree
    else switchRef s x

/-- Set or clear a REF_OK bit. -/
def setRefOk (s : State) (i : Nat) (b : Bool) : State :=
  let v := fld s pgGRD GRD_REF_OK
  setFld s pgGRD GRD_REF_OK (if b then v ||| 1 <<< i else if bitAt v i then v - 1 <<< i else v)

/-- The flag of a lost input: REF_LOSS_A for GREF_A and PPS_A, REF_LOSS_B for the others. -/
def lossFlag (b : Bool) : Flag := if b then GRD_F_REF_LOSS_B else GRD_F_REF_LOSS_A

/-- GREF_LOST (R31, R32): the input must qualify again; the DPLL switches or enters HOLDOVER. -/
def execGrefLost (b : Bool) (s : State) : Res :=
  .next (evalRef (raise (setRefOk s b.toNat false) pgGRD (lossFlag b) [b.toNat]))

/-- PPS_LOST (R31, R33). What was measured against a lost PPS that is not in use is forgotten. -/
def execPpsLost (b : Bool) (s : State) : Res :=
  let s1 : State := if fld s pgGRD GRD_ACTIVE_REF = b.toNat then s else { s with grid := { s.grid with otherPhase := none } }
  .next (evalRef (raise (setRefOk s1 (2 + b.toNat) false) pgGRD (lossFlag b) [2 + b.toNat]))

/-- REF_QUALIFIED (R31 to R33). -/
def execRefQualified (input : Fin 4) (s : State) : Res :=
  .next (evalRef (setRefOk s input true))

/-- A phase error brought within half a frame (R35, R346). -/
def wrapPhase (e : Int) : Int :=
  let r := e % (finePerFrame : Int)
  if r > (finePerFrame / 2 : Nat) then r - finePerFrame else r

/-- Is a phase error within ±20 ns (R33)? -/
def phaseGood (e : Int) : Bool := e.natAbs * 125000 ≤ 20 * finePerFrame

/-- Correct the frequency at a PPS edge and keep it for the holdover average (R33, R346). -/
def setFreq (s : State) (f : Int) : State :=
  let s1 := setFld s pgGRD GRD_OFF (unsignedOf 32 f)
  { s1 with grid := { s1.grid with freqHist := (f :: s1.grid.freqHist).take 255 } }

/-- The pull-in edge (R33, R346): the frequency is set, the phase is measured, and out of FREE the first alignment becomes a
pending step for the frame at the second boundary, unless a commanded step is pending already. DESIGN CHOICE (log entry 32): a phase
error of exactly 0 asks for no step. -/
def pullIn (s : State) (f e : Int) : State :=
  let s1 := setPhase (setFreq s f) e
  let st : Option StepReq :=
    if s1.grid.fromFree ∧ s1.grid.step = none ∧ e ≠ 0 then some ⟨e, 0, false, (frame s + 2) % frameMod, .alignment⟩
    else s1.grid.step
  { s1 with grid := { s1.grid with pulled := true, good := 0, step := st, fromFree := false } }

/-- An edge after pull-in (R33, R346): frequency and phase are corrected, and three consecutive good edges lock. -/
def trackEdge (s : State) (f e : Int) : State :=
  let ok := phaseGood e && (f - fldS s pgGRD GRD_OFF).natAbs ≤ 10000
  let s1 := setPhase (setFreq s f) e
  if fld s pgGRD GRD_DPLL_STATE = dpllLocked then s1
  else
    let n := if ok then s.grid.good + 1 else 0
    let s2 := { s1 with grid := { s1.grid with good := n } }
    if n ≥ 3 then raise (setFld s2 pgGRD GRD_DPLL_STATE dpllLocked) pgGRD GRD_F_LOCK [] else s2

/-- What a PPS edge of the active pair does to the DPLL (R346); nothing while a master is followed (R262). -/
def dpllEdge (s : State) (f e : Int) : State :=
  let st := fld s pgGRD GRD_DPLL_STATE
  let x := fld s pgGRD GRD_ACTIVE_REF
  if !following s ∧ (st = dpllAcquire ∨ st = dpllLocked) ∧ pairOk s x then
    let s0 := { s with grid := { s.grid with edges := s.grid.edges + 1 } }
    if s.grid.pulled then trackEdge s0 f e
    else if s.grid.edges = 0 then s0
    else pullIn s0 f e
  else s

/-! ### Time of day -/

/-- 2^-16 ns in a second. -/
def todUnit : Int := 1000000000 * 65536

/-- A time of day as one number of 2^-16 ns. -/
def ToD.total (t : ToD) : Int := (t.sec * 1000000000 + t.ns) * 65536 + t.frac

/-- A time of day from a number of 2^-16 ns, the seconds in 48 bits. -/
def todOf (n : Int) : ToD :=
  let m := n % todUnit
  ⟨((n / todUnit) % 2 ^ 48).toNat, (m / 65536).toNat, (m % 65536).toNat⟩

/-- The ToD of a grid position under a base (R41): rounded to the nearest 2^-16 ns, ties up. -/
def todAt (b : ToDBase) (p : Pos) : ToD :=
  todOf (ToD.total b.at_ + ((p.frame : Int) - b.frame) * (125000 * 65536) +
    roundDiv ((256 * p.tick + p.fine) * 125000 * 65536) 4976640)

/-- The ToD of superframe N on channel n (R46): that of N:0 and the calibrated transmit path delay of the channel. The host or the
supervision cluster computes it and sends it through the OMCI relay; the device neither holds nor checks it. -/
def superframeTod (s : State) (n frame : Nat) : ToD :=
  todOf (ToD.total (todAt s.grid.base ⟨frame, 0, 0⟩) + (tget (fun _ => (0, 0)) s.boot.work (1024 + n)).1 * 256)

/-- The truncated count of 1/256 ns (R50). -/
def fnsAt (p : Pos) : Nat := p.frame * 125000 * 256 + (256 * p.tick + p.fine) * 125000 * 256 / 4976640

/-- The grid nanosecond count (R50). -/
def nsAt (p : Pos) : Nat := fnsAt p / 256

/-- The frame whose boundary follows an edge at `p` by PPS_OFFSET (R42): the nearest boundary to that position. -/
def ppsFrame (s : State) (p : Pos) : Nat :=
  (2 * (p.fineIndex + fld s pgGRD GRD_OFFSET_GT * finePerGt) + finePerFrame) / (2 * finePerFrame)

/-- Put a ToD base in force; BASE_SET marks a base that changed (R42). -/
def setBase (s : State) (b : ToDBase) : State :=
  if s.grid.base = b then s
  else flag { s with grid := { s.grid with base := b } } pgTOD TOD_F_BASE_SET

/-- The base registers of a base that TOD_IN sets (R42). -/
def showBase (s : State) (b : ToDBase) : State :=
  let s1 := setFld (setFld s pgTOD TOD_BASE_FRAME_LO b.frame) pgTOD TOD_BASE_FRAME_HI (b.frame / 2 ^ 32)
  let s2 := setFld (setFld s1 pgTOD TOD_BASE_SEC_LO b.at_.sec) pgTOD TOD_BASE_SEC_HI (b.at_.sec / 2 ^ 32)
  setFld (setFld s2 pgTOD TOD_BASE_NS b.at_.ns) pgTOD TOD_BASE_FRAC b.at_.frac

/-- The automatic base of R42 at a PPS edge of the active pair: the named seconds, with PPS_OFFSET converted to time. After
mismatching messages the base changes only at the third, and that change posts an event (R44). -/
def autoBase (s : State) : State :=
  match s.grid.todSec with
  | none => s
  | some sec =>
    let s1 := { s with grid := { s.grid with todSec := none, mismatch := 0 } }
    if isSet s pgTOD TOD_AUTO_BASE then
      let off := roundDiv (fld s pgGRD GRD_OFFSET_GT * finePerGt * 125000 * 65536) 4976640
      let t := todOf off
      let b : ToDBase := ⟨ppsFrame s (now s), ⟨sec, t.ns, t.frac⟩⟩
      let s2 := setBase (showBase s1 b) b
      if s.grid.mismatch ≥ 3 then post s2 pgTOD .baseChanged [sec] else s2
    else s1

/-- The fine steps that the grid has run up to now, whatever steps and joins did to its positions. -/
def elapsed (s : State) : Nat := s.grid.epoch + s.grid.now.tick * finePerGt + s.grid.now.fine

/-- PPS_EDGE (R33, R42, R346): an edge on an input acts when it is the active pair's; one of the other pair is measured only. -/
def execPpsEdge (b : Bool) (freqPpt phase : Int) (s : State) : Res :=
  if fld s pgGRD GRD_ACTIVE_REF = b.toNat then
    let s1 := autoBase { s with grid := { s.grid with lastPps := some (elapsed s) } }
    .next (dpllEdge s1 freqPpt (wrapPhase phase))
  else .next { s with grid := { s.grid with otherPhase := some (wrapPhase phase) } }

/-! ### Steps -/

/-- The frames whose maps stay empty because their pending step is replaced now (R356). -/
def replacedSteps (s : State) : List Nat :=
  ((s.grid.step.map (·.frame)).toList ++ s.grid.emptyMaps).filter (frame s < ·)

/-- STEP_CMD (R35, R356): the step is pending for the frame at the second boundary and replaces any pending step. -/
def execStepCmd (o : Origin) (data : Word) (s : State) : Res :=
  let a := pgGRD + GRD_STEP_FINE.off
  .next (command o a a (fun s =>
    let n := signedOf 24 (bitsOf data 0 24)
    if n.natAbs ≤ finePerFrame / 2 then
      ({ s with grid := { s.grid with
          step := some ⟨n, 0, bitsOf data 24 1 == 1, (frame s + 2) % frameMod, .command⟩, emptyMaps := replacedSteps s } }, 0)
    else (s, 1)) s)

/-- The slew of a frame: at most SLEW_MAX fine steps toward the reference once frequency pull-in is complete, or toward the master
that is followed, and none while the first alignment's step is pending or in a frame with a step of its own (R33, R34, R262,
R346). -/
def slewOf (s : State) (f : Nat) : Int :=
  let st := fld s pgGRD GRD_DPLL_STATE
  let held : Bool := match s.grid.step with
    | some r => r.by_ == .alignment || r.frame == f
    | none => false
  if (following s || (st == dpllLocked || st == dpllAcquire) && s.grid.pulled) && !held then
    let m : Int := fld s pgGRD GRD_SLEW_MAX
    max (-m) (min m s.grid.residual)
  else 0

/-- The grid's part of a frame boundary (R5, R34): position f:0 of the next frame and what is left to slew. A slew stretches or shrinks
every tick of the frame alike, so all of its positions, and no others, exist: on the corrected grid it has its nominal length. -/
def gridBoundary (s : State) : State :=
  let f := (frame s + 1) % frameMod
  let d := slewOf s f
  let s1 := setFld s pgGRD GRD_ERR (unsignedOf 32 (s.grid.residual - d))
  { s1 with grid := { s1.grid with now := ⟨f, 0, 0⟩, frameLen := finePerFrame, residual := s.grid.residual - d,
                                   otherPhase := s.grid.otherPhase.map (· - d),
                                   epoch := s.grid.epoch + s.grid.frameLen, before := (frame s, s.grid.frameLen),
                                   slewed := if d = 0 then s.grid.slewed else (f :: s.grid.slewed).take 32 } }

/-- What a step does on an empty queue (log entry 2): while the grid runs, its position advances by one fine step, up to the
last fine step of the frame, where FRAME_BOUNDARY is due. -/
def idle (s : State) : State :=
  let n := s.grid.now.tick * finePerGt + s.grid.now.fine + 1
  if s.grid.running && n < s.grid.frameLen then
    { s with grid := { s.grid with now := ⟨s.grid.now.frame, n / finePerGt, n % finePerGt⟩ } }
  else s

/-! ### Reading the grid -/

/-- A position of the present frame or a neighbour in fine steps that the grid has run, with the lengths of those frames. -/
def elapsedAt (s : State) (p : Pos) : Int :=
  let off : Int := (p.tick * finePerGt + p.fine : Nat)
  let g := s.grid
  if p.frame = frame s then g.epoch + off
  else if p.frame = g.before.1 then g.epoch - g.before.2 + off
  else if p.frame = (frame s + 1) % frameMod then g.epoch + g.frameLen + off
  else g.epoch + ((p.frame : Int) - frame s) * finePerFrame + off

/-- Is a capture pair accepted (R40): the second sample equal to the first, or later by no more than 1 gt? -/
def pairStable (s : State) (p : Pos × Pos) : Bool :=
  elapsedAt s p.1 ≤ elapsedAt s p.2 && elapsedAt s p.2 ≤ elapsedAt s p.1 + finePerGt

/-- The capture pairs a read takes, up to 8 (R40): those that the sampling produced, then quiet ones. -/
def capturePairs (s : State) (pairs : List (Pos × Pos)) : List (Pos × Pos) :=
  (pairs ++ List.replicate 8 (now s, now s)).take 8

/-- The snapshot of a capture pair and whether it was accepted (R40): the first accepted pair, or the last second sample. -/
def snapshot (s : State) (pairs : List (Pos × Pos)) : Pos × Bool :=
  let l := capturePairs s pairs
  match l.find? (pairStable s) with
  | some p => (p.2, true)
  | none => ((l.getLastD (now s, now s)).2, false)

/-- Store a position in a three-word snapshot register (NOW_0 to NOW_2, FIFO_0 to FIFO_2). -/
def latchPos (s : State) (base : Nat) (fine tick lo hi : Fld) (p : Pos) : State :=
  setFld (setFld (setFld (setFld s base fine p.fine) base tick p.tick) base lo p.frame) base hi (p.frame / 2 ^ 32)

/-- NOW_READ (R40). -/
def execNowRead (o : Origin) (pairs : List (Pos × Pos)) (s : State) : Res :=
  .next (readAccess o (pgGRD + GRD_FINE.off) (fun s =>
    let r := snapshot s pairs
    let s1 := latchPos s pgGRD GRD_FINE GRD_TICK GRD_FRAME_LO GRD_FRAME_HI r.1
    let s2 := setBit (setBit s1 pgGRD GRD_STABLE r.2) pgGRD GRD_RETRY_FAIL (!r.2)
    (s2, reg s2 (pgGRD + GRD_FINE.off))) s)

/-- TOD_NOW_READ (R40, R41). -/
def execTodNowRead (o : Origin) (pairs : List (Pos × Pos)) (s : State) : Res :=
  .next (readAccess o (pgTOD + TOD_FRAC.off) (fun s =>
    let t := todAt s.grid.base (snapshot s pairs).1
    let s1 := setFld (setFld s pgTOD TOD_FRAC t.frac) pgTOD TOD_NS t.ns
    let s2 := setFld (setFld s1 pgTOD TOD_SEC_LO t.sec) pgTOD TOD_SEC_HI (t.sec / 2 ^ 32)
    (s2, reg s2 (pgTOD + TOD_FRAC.off))) s)

/-- NS_NOW_READ (R40, R50). -/
def execNsNowRead (o : Origin) (pairs : List (Pos × Pos)) (s : State) : Res :=
  .next (readAccess o (pgCAP + CAP_NS_LO.off) (fun s =>
    let n := nsAt (snapshot s pairs).1
    let s1 := setFld (setFld s pgCAP CAP_NS_LO n) pgCAP CAP_NS_HI (n / 2 ^ 32)
    (s1, reg s1 (pgCAP + CAP_NS_LO.off))) s)

/-! ### Setting the time of day -/

/-- BASE_COMMIT (R42): the written base applies from the next frame; BASE_NS above 999,999,999 makes the commit be
rejected. -/
def execBaseCommit (o : Origin) (data : Word) (s : State) : Res :=
  let a := pgTOD + TOD_BASE_COMMIT.off
  .next (command o a a (fun s =>
    if bitsOf data 0 1 = 0 then (s, 0)
    else if fld s pgTOD TOD_BASE_NS > 999999999 then (s, 1)
    else
      let b : ToDBase := ⟨fld s pgTOD TOD_BASE_FRAME_LO + fld s pgTOD TOD_BASE_FRAME_HI * 2 ^ 32,
        ⟨fld s pgTOD TOD_BASE_SEC_LO + fld s pgTOD TOD_BASE_SEC_HI * 2 ^ 32, fld s pgTOD TOD_BASE_NS,
         fld s pgTOD TOD_BASE_FRAC⟩⟩
      ({ s with grid := { s.grid with baseNext := some ((frame s + 1) % frameMod, b) } }, 0)) s)

/-- TOD_BASE_APPLY (R42): the committed base takes effect from the frame after the commit; the grid does not move. -/
def execTodBaseApply (s : State) : Res :=
  match s.grid.baseNext with
  | none => .next s
  | some (f, b) =>
    if f ≤ frame s then .next (setBase { s with grid := { s.grid with baseNext := none } } b) else .next s

/-- CRC-16 with polynomial 0x1021, one byte (R43). -/
def crc16Byte (c : Nat) (b : Byte) : Nat :=
  (List.range 8).foldl (fun c _ => if c ≥ 0x8000 then ((c * 2) % 0x10000) ^^^ 0x1021 else c * 2)
    (c ^^^ (b.toNat * 256))

/-- CRC-16 of a message, initial value 0xFFFF (R43). -/
def crc16 (l : List Byte) : Nat := l.foldl crc16Byte 0xFFFF

/-- A number sent most significant byte first (R4). -/
def beNat (l : List Byte) : Nat := l.foldl (fun a b => a * 256 + b.toNat) 0

/-- Did a message end between 100 ms and 900 ms after the last PPS edge (R44)? -/
def inTodWindow (s : State) : Bool :=
  match s.grid.lastPps with
  | none => false
  | some e =>
    let d := elapsed s - e
    800 * finePerFrame ≤ d && d ≤ 7200 * finePerFrame

/-- Take a good message (R42, R44): UTC data, the mismatch count, and the seconds that the next PPS edge is to set. -/
def takeTodMessage (s : State) (m : List Byte) : State :=
  let sec := beNat ((m.drop 4).take 6)
  let s1 := setFld s pgTOD TOD_OFFSET (beNat ((m.drop 10).take 2))
  let s2 := setFld (setFld s1 pgTOD TOD_LEAP (byteAt m 12 % 4)) pgTOD TOD_TRACEABLE (byteAt m 12 / 4 % 2)
  let s3 := setFld s2 pgTOD TOD_VALID 1
  let edge := (now s).plus (framesPerSecond * finePerFrame - (elapsed s - s.grid.lastPps.getD (elapsed s)))
  if sec = (todAt s.grid.base edge).sec then
    { s3 with grid := { s3.grid with todSec := some sec, mismatch := 0 } }
  else
    let n := s.grid.mismatch + 1
    let s4 := flag s3 pgTOD TOD_F_MSG_MISMATCH
    { s4 with grid := { s4.grid with todSec := if n ≥ 3 then some sec else none, mismatch := n } }

/-- TOD_MESSAGE (R43, R44). Characters that form no message of 16 bytes behind SYNC and LEN are no message. -/
def execTodMessage (bytes : List Byte) (s : State) : Res :=
  if !isSet s pgTOD TOD_TOD_IN_EN || bytes.length ≠ 16 || beNat (bytes.take 2) ≠ 0x4A57 || byteAt bytes 2 ≠ 10 then
    .next s
  else if crc16 ((bytes.drop 2).take 12) ≠ beNat (bytes.drop 14) || byteAt bytes 3 ≠ 1 then
    .next (flag s pgTOD TOD_F_MSG_CRC)
  else if !inTodWindow s then .next (flag s pgTOD TOD_F_MSG_LATE)
  else .next (takeTodMessage s bytes)

/-! ### Capture -/

/-- What a burst-capture channel records at a position (R50): the low 32 bits of the nanosecond count, and the fraction. -/
def capture (p : Pos) : Nat × Nat := (nsAt p % 2 ^ 32, fnsAt p % 256)

/-- Burst-capture channel n records a position (R50). -/
def setCapture (s : State) (n : Nat) (p : Pos) : State :=
  { s with grid := { s.grid with bcap := tset (fun _ => (0, 0)) s.grid.bcap n (capture p) } }

/-- The entries of a capture FIFO (R51). -/
def capFifoMax : Nat := 16

/-- The MERGED (bit 5) and OVF (bit 6) flags of a capture input, with their halves of IN_CNT (R51). -/
def capFlag (i bit lsb : Nat) : Flag := ⟨(CAP_FILL.at i).off, bit, (CAP_MERGED_CNT.at i).off, lsb⟩

/-- CAPTURE_EDGE (R51). -/
def execCaptureEdge (i : Fin 10) (rising : Bool) (s : State) : Res :=
  let wanted := bitAt (fld s pgCAP (CAP_EDGE.at i)) (if rising then 0 else 1)
  let q := tget dnil s.grid.capFifo i
  let near := match tget dnone s.grid.capLast i with
    | none => false
    | some p => elapsed s < p + 8 * finePerGt
  if !wanted then .next s
  else if near then .next (flag s pgCAP (capFlag i 5 0))
  else if q.length ≥ capFifoMax then .next (flag s pgCAP (capFlag i 6 16))
  else
    let s1 := { s with grid := { s.grid with
      capFifo := tset dnil s.grid.capFifo i (q ++ [⟨now s, rising⟩]),
      capLast := tset dnone s.grid.capLast i (some (elapsed s)) } }
    let s2 := setFld s1 pgCAP (CAP_FILL.at i) (q.length + 1)
    .next (if isSet s pgCAP (CAP_EVT_EN.at i) then post s2 pgCAP .capture [i] else s2)

/-- CAP_FIFO_READ (R51): pops one entry of the selected input; inputs 10 to 15 read empty. -/
def execCapFifoRead (o : Origin) (s : State) : Res :=
  .next (readAccess o (pgCAP + CAP_FINE.off) (fun s =>
    let i := fld s pgCAP CAP_INPUT
    match (if i < 10 then tget dnil s.grid.capFifo i else []) with
    | [] =>
      let s1 := setReg s (pgCAP + CAP_FINE.off) 0
      (s1, 0)
    | c :: q =>
      let s1 := { s with grid := { s.grid with capFifo := tset dnil s.grid.capFifo i q } }
      let s2 := latchPos (setFld s1 pgCAP (CAP_FILL.at i) q.length) pgCAP CAP_FINE CAP_TICK CAP_FRAME_LO CAP_FRAME_HI c.pos
      let s3 := setBit (setFld s2 pgCAP CAP_VALID 1) pgCAP CAP_POL c.rising
      (s3, reg s3 (pgCAP + CAP_FINE.off))) s)

end Sys2Proof.Machine
end

