-- ==== Sys2Proof/Machine/Ranging.lean ====
section
/-! DEFINITION. Reach and survey (R96 to R109), ranging and the activation states (R98 to R102, R110, R111, R355), and drift
tracking (R112 to R114). -/

namespace Sys2Proof.Machine

/-! ### The equalized timeline -/

/-- Is a record of the channel in ASSIGNED or a later state (R96)? -/
def reachHeld (s : State) (p c : Nat) : Bool :=
  (portOnus s p).any (fun e => e.2.ch == c && stAssigned ≤ e.2.state)

/-- Does R96 reject the values that REACH and FIBRE would hold? -/
def reachRejected (s : State) (p c : Nat) : Bool :=
  let b := pgRNG p c
  let lo := fld s b RNG_REACH_MIN_M
  let hi := fld s b RNG_REACH_MAX_M
  let k := fld s b RNG_GT_PER_KM
  60000 < hi || hi < lo || 40000 < hi - lo || k < 1400 || 1600 < k

/-- REACH_WRITE (R96, R97): a write of REACH, FIBRE or ZD; no other offset is a write of this kind. DESIGN CHOICE (log entry 7): a write
rejected for a record in ASSIGNED or a later state is journaled with code 1, since R96 rejects it under R2 as it does a value. -/
def execReachWrite (o : Origin) (p : Fin 32) (c : Fin 3) (off : Nat) (data : Word) (s : State) : Res :=
  let b := pgRNG p c
  let a := b + off
  if off = 0x44 ∨ off = 0x48 ∨ off = 0x4C then
    .next (ownWrite o a (fun s =>
      let s1 := setReg s a (writtenWord .RNG (3 * p + c) off false data (reg s a))
      if reachRejected s1 p c || reachHeld s p c then (flag s b RNG_F_REACH_REJ, 1)
      else (publishUsOffset s1 p c, 0)) s)
  else .next s

/-- The EqD unit in 1/40 fine step (R98). -/
def unit40 (c : Nat) : Nat := if c = 0 then 1280 else if c = 1 then 640 else 128

/-- A number of EqD units in fine steps, nearest with ties up (R98). -/
def unitsFine (c : Nat) (n : Int) : Int := roundDiv (n * unit40 c) 40

/-- A bit time in 1/40 fine step (R73). -/
def bit40 (rate : Nat) : Nat := 10240 / bitsPerGt rate

/-- EqD_fine (R98). -/
def eqdFine (s : State) (p c : Nat) (rtd : Int) : Int := 256 * fld s (pgRNG p c) RNG_US_OFFSET - rtd

/-! ### Delay corrections -/

/-- Raise DOWi and count it (R114). -/
def raiseDow (s : State) (p i : Nat) : State :=
  if hasDefect (onu s p i) dDOWi then s
  else bump (raiseDefect s p i dDOWi) (pgRNG p (onu s p i).ch) RNG_C_DOW_RAISES 1

/-- DOWi after a change of RES or of the pending correction (R114). -/
def evalDow (s : State) (p i : Nat) : State :=
  let g := rng s p i
  let d := fld s (pgRNG p (onu s p i).ch) RNG_DOW_FINE
  if d ≤ g.res.natAbs then raiseDow s p i
  else if 2 * g.res.natAbs < d ∧ g.adj = false then clearDefect s p i dDOWi
  else s

/-- A correction (R113, R114): delta = −trunc(RES / unit), limited to what the delimiter window can show. -/
def correct (s : State) (p i : Nat) : State :=
  let r := onu s p i
  let g := rng s p i
  let b := pgRNG p r.ch
  let u := unit40 r.ch
  let due := fld s b RNG_EQD_THR * u ≤ 40 * g.res.natAbs || hasDefect r dDOWi
  if r.state == stOperation && isSet s b RNG_EQD_CORR_EN && !g.adj && due then
    let bt := if g.bitTime40 = 0 then
        bit40 (profRate (profWords s p r.ch (tget ObRec.init s.pon.ob (512 * p + i)).cold))
      else g.bitTime40
    let lim : Int := fld s (pgBRX p r.ch) BRX_DELIM_WIN * bt / u
    let delta := max (-lim) (min lim (-(truncDiv (40 * g.res) u)))
    if delta = 0 then s
    else
      sendTo (setRng s p i { g with adj := true, sends := 1, delta := delta, adjSent := frame s }) p i
        (.rangingTime (g.eqd + delta).toNat)
  else s

/-- DOWi and the correction that it asks for, after anything that moves RES, its limit or the pending correction (R114). -/
def settleDow (s : State) (p i : Nat) : State := correct (evalDow s p i) p i

/-! ### Serial numbers -/

/-- A record matches a serial number at step 1 of R108. -/
def snMatches (r : OnuRec) (sn : BitVec 64) : Bool :=
  if r.mtch = 1 ∨ r.mtch = 2 then r.expSn == sn else r.seenSn == sn

/-- The records of a channel, by index. -/
def channelOnus (s : State) (p c : Nat) : List (Nat × OnuRec) :=
  (portOnus s p).filter (fun e => e.2.valid && e.2.ch == c)

/-- Step 1 of R108. -/
def snStep1 (s : State) (p c : Nat) (sn : BitVec 64) : Option Nat :=
  ((channelOnus s p c).find? (fun e => (e.2.state == stEmpty || e.2.state == stPopup) && snMatches e.2 sn)).map (·.1)

/-- Step 2 of R108. -/
def snStep2 (s : State) (p c : Nat) : Option Nat :=
  ((channelOnus s p c).find? (fun e => e.2.state == stEmpty && (e.2.mtch == 0 || e.2.mtch == 3))).map (·.1)

/-- Step 3 of R108. -/
def snStep3 (s : State) (p c : Nat) : Option Nat :=
  if isSet s (pgRNG p c) RNG_SNM_BIND then
    ((channelOnus s p c).find? (fun e => e.2.state == stEmpty && (e.2.mtch == 1 || e.2.mtch == 2))).map (·.1)
  else none

/-- Are records i and k the two members of one valid bonded group (R69, R137)? -/
def bondedTogether (s : State) (p i k : Nat) : Bool :=
  (validGroups s p).any (fun g => (g.2.onuX == i && g.2.onuH == k) || (g.2.onuX == k && g.2.onuH == i))

/-- Is the serial number in operation on another channel of the port, or taken there in this frame, by a record that is not
the other member of record i's bonded group (R69, R108)? -/
def snElsewhere (s : State) (p c i : Nat) (sn : BitVec 64) : Bool :=
  (portOnus s p).any (fun e =>
    e.2.ch != c && e.2.seenSn == sn && !bondedTogether s p i e.1 &&
      (inOperation s (512 * p + e.1) e.2 || (e.2.state == stAssigned && (rng s p e.1).since == frame s)))

/-- Assign_ONU-ID for a matched record (R100, R102): it is held until the message has been pushed, and RTD_hi and the window's
profile are kept for its ranging grant (R110). A record in POPUP is re-acquired: its EqD and RES are dropped. -/
def assignOnu (s : State) (p c i : Nat) (sn : BitVec 64) (w : SurveyWin) (hp : Int) : State :=
  let r := onu s p i
  let g := rng s p i
  let s0 := if r.state = stPopup then note s (pgRNG p c) RNG_F_POPUP_REACQ RNG_C_POPUP_REACQ else s
  let g1 : RngRec := { RngRec.init 0 with
    rtdHi := hp.fdiv 256, prof := w.prof, since := frame s, rtd := g.rtd, rangedFrame := g.rangedFrame }
  let s1 := setRng (setOnu s0 p i { r with seenSn := sn, held := true }) p i g1
  sendTo (evalDow (setOnuState s1 p i stAssigned) p i) p i .assign

/-- What a valid serial number does (R108, R69): the first step that finds a record decides. -/
def takeSerial (s : State) (p c : Nat) (sn : BitVec 64) (w : SurveyWin) (hp : Int) : State :=
  let b := pgRNG p c
  match (snStep1 s p c sn).orElse (fun _ => snStep2 s p c) with
  | some i =>
    if snElsewhere s p c i sn then enterSnm (setOnu s p i { onu s p i with seenSn := sn }) p i
    else assignOnu s p c i sn w hp
  | none =>
    match snStep3 s p c with
    | some i => enterSnm (assignOnu s p c i sn w hp) p i
    | none =>
      let s1 := setFld (setFld s b RNG_LAST_UNK_SN_HI (sn.toNat / 2 ^ 32)) b RNG_LAST_UNK_SN_LO sn.toNat
      post (note s1 b RNG_F_UNKNOWN_SN RNG_C_UNKNOWN_SN) b .snUnknown [sn.toNat]

/-- Replace the oldest open window of a channel. -/
def setWin (s : State) (p c : Nat) (w : SurveyWin) : State :=
  let v := survey s p c
  setSurvey s p c { v with wins := w :: v.wins.drop 1 }

/-- Where the search resumes after a response found at `at_` (R107): TAIL_GT after its predicted end. -/
def searchFrom (s : State) (p c at_ : Nat) : Nat :=
  at_ + (fld s (pgRNG p c) RNG_SN_BURST_GT + fld s (pgBRX p c) BRX_TAIL_GT) * 256

/-- A response found at a header point (R50, R107): the channel's burst capture records it, and a further BRST pulse fires where the
search resumes. -/
def foundResponse (s : State) (p c at_ : Nat) : State :=
  let rise := edgeAt (searchFrom s p c at_)
  setCapture (setLane s p c { lane s p c with brstRise := rise, brstFall := rise + fld s (pgBRX p c) BRX_BRST_WIDTH }) (3 * p + c)
    (posOfFine at_)

/-- SN_RESPONSE (R107 to R109, R354): a valid serial-number message heard in the oldest open window; `hp` is its header point in
fine steps after the window's f:0 + S × u_c. One outside the window's interval is not searched for, and one whose header point falls
where the search pauses is light that no message accounts for. The first SN_PER_WIN are taken; a record in OPERATION on the channel is
left alone. -/
def execSnResponse (p : Fin 32) (c : Fin 3) (sn : BitVec 64) (hp : Int) (s : State) : Res :=
  let b := pgRNG p c
  match (survey s p c).wins with
  | [] => .next s
  | w :: _ =>
    let at_ := (((w.mapFrame * finePerFrame + w.start * unitGt c * 256 : Nat) : Int) + hp).toNat
    let s1 := surveyBase (bump (foundResponse s p c at_) b RNG_C_SN_RX 1) p c
    let s2 := setWin s1 p c { w with heard := w.heard + 1, valid := true, found := some at_ }
    if at_ < w.open_ ∨ w.close < at_ then .next s
    else if (w.found.map (fun x => decide (at_ < searchFrom s p c x))).getD false then .next (setWin s p c { w with clash := true })
    else if fld s b RNG_SN_PER_WIN ≤ w.heard then .next (note s2 b RNG_F_SN_EXCESS RNG_C_SN_EXCESS)
    else if (channelOnus s p c).any (fun e => e.2.state == stOperation && e.2.seenSn == sn) then
      .next (bump (raise s2 b RNG_F_SN_DUP [sn.toNat]) b RNG_C_SN_DUP 1)
    else .next (takeSerial s2 p c sn w hp)

/-- The end of a run of windows without light (R105): with ADAPT_EN, PERIOD_NOW doubles up to SURVEY_PERIOD_MAX. -/
def quietWindow (s : State) (p c : Nat) : State :=
  let b := pgRNG p c
  let v := survey s p c
  let n := v.run + 1
  if isSet s b RNG_ADAPT_EN && fld s b RNG_SKIP_AFTER ≤ n then
    let t := min (2 * fld s b RNG_PERIOD_NOW) (fld s b RNG_SURVEY_PERIOD_MAX)
    let s1 := if t = fld s b RNG_PERIOD_NOW then s
      else setFld (setFld s b RNG_PERIOD_NOW t) b RNG_SKIP_LEVEL (fld s b RNG_SKIP_LEVEL + 1)
    setSurvey s1 p c { v with run := 0 }
  else setSurvey s p c { v with run := n }

/-- SURVEY_WINDOW_CLOSE (R105, R109, R354): light that no valid message accounts for, or a bad message, is one SN_COLLISION. -/
def execSurveyWindowClose (p : Fin 32) (c : Fin 3) (lightUnaccounted badMessage : Bool) (s : State) : Res :=
  let b := pgRNG p c
  match (survey s p c).wins with
  | [] => .next s
  | w :: ws =>
    let l := lane s p c
    let l1 := match l.sched.find? (fun x => x.kind == .survey) with
      | some x => { l.leave x with lastEnd := some x.close }
      | none => l
    let s1 := setLane (setSurvey s p c { survey s p c with wins := ws }) p c l1
    if lightUnaccounted || badMessage || w.clash then
      .next (surveyBase (note s1 b RNG_F_SN_COLLISION RNG_C_SN_COLLISION) p c)
    else if w.heard = 0 then .next (quietWindow s1 p c)
    else .next s1

/-! ### Ranging -/

/-- RANGING_GRANT_DUE (R100, R106): RANGE_DELAY frames after Assign_ONU-ID was sent, or after the last try, the ranging grant is to
be placed by the next map that has room for it; with the grant the record enters RANGING. -/
def execRangingGrantDue (p : Fin 32) (i : Fin 512) (s : State) : Res :=
  let r := onu s p i
  let g := rng s p i
  match g.assignSent with
  | none => .next s
  | some f =>
    if (r.state = stAssigned ∨ r.state = stRanging) ∧ g.grantFrame = none ∧ g.want = false ∧ g.ranged = false ∧
        f + fld s (pgRNG p r.ch) RNG_RANGE_DELAY ≤ frame s + 1 then
      .next (setRng s p i { g with want := true })
    else .next s

/-- Extend a 32-bit nanosecond capture against a 64-bit reference (R50). -/
def extendNs (r : Int) (c : Nat) : Int :=
  let d := (r - c) % 2 ^ 32
  r - (if d ≥ 2 ^ 31 then d - 2 ^ 32 else d)

/-- The header point of a capture, in fine steps (R111): nanoseconds and fraction at 4,976,640 / 125,000 fine steps per ns. -/
def captureFine (grantFrame ns frac : Nat) : Int :=
  roundDiv ((extendNs (grantFrame * 125000) ns * 256 + frac) * 4976640) (256 * 125000)

/-- The ranging window of a record on the lane's schedule. -/
def rangingWindow (s : State) (p c i : Nat) : Option Burst := (lane s p c).sched.find? (fun x => x.kind == .ranging && x.onu == i)

/-- Take the ranging window of a record off the lane's schedule. -/
def closeRangingWindow (s : State) (p c i : Nat) : State :=
  match rangingWindow s p c i with
  | some x => setLane s p c { (lane s p c).leave x with lastEnd := some x.close }
  | none => s

/-- Is a header point a response in the record's open ranging window, with the capture that its position gives (R50, R107)? -/
def heardInWindow (s : State) (p c i : Nat) (at_ : Int) (ns frac : Nat) : Bool :=
  match rangingWindow s p c i with
  | some x => (x.open_ : Int) ≤ at_ && at_ ≤ x.close && capture (posOfFine at_.toNat) == (ns, frac)
  | none => false

/-- RANGING_RESPONSE (R98, R100, R107, R111): a response found in the record's ranging window. RTD comes from the capture, then EqD and
RES; a negative EqD_fine is beyond reach. The record leaves RANGING in the frame in which Ranging_Time is sent. -/
def execRangingResponse (p : Fin 32) (i : Fin 512) (captureNs : BitVec 32) (captureFrac : BitVec 8) (s : State) : Res :=
  let r := onu s p i
  let g := rng s p i
  let b := pgRNG p r.ch
  match g.grantFrame with
  | none => .next s
  | some f =>
    let at_ := captureFine f captureNs.toNat captureFrac.toNat
    if r.state ≠ stRanging ∨ g.ranged = true ∨ heardInWindow s p r.ch i at_ captureNs.toNat captureFrac.toNat = false then .next s
    else
      let rtd := at_ - ((f * finePerFrame + g.grantS * unitGt r.ch * 256 : Nat) : Int)
      let x := eqdFine s p r.ch rtd
      let s1 := closeRangingWindow (foundResponse s p r.ch at_.toNat) p r.ch i
      if x < 0 then
        let s2 := setRng s1 p i { g with grantFrame := none, rtd := rtd }
        .next (enterDeact (note s2 b RNG_F_RANGE_FAR RNG_C_RANGE_FAR) p i)
      else
        let eqd := roundDiv (40 * x) (unit40 r.ch)
        let g1 := { g with
          eqd := eqd.toNat, res := roundDiv (eqd * unit40 r.ch - 40 * x) 40, adj := false, sends := 0, delta := 0,
          drift := 0, rtd := rtd, rangedFrame := frame s, grantFrame := none, ranged := true, bitTime40 := 0 }
        .next (sendTo (evalDow (bump (setRng s1 p i g1) b RNG_C_RANGE_OK 1) p i) p i (.rangingTime eqd.toNat))

/-- RANGING_WINDOW_CLOSE (R100): no response in the window; a new grant after RANGE_DELAY frames, up to RANGE_TRIES. -/
def execRangingWindowClose (p : Fin 32) (i : Fin 512) (s : State) : Res :=
  let r := onu s p i
  let g := rng s p i
  let b := pgRNG p r.ch
  if r.state = stRanging ∧ g.grantFrame ≠ none ∧ g.ranged = false then
    let s1 := note (closeRangingWindow s p r.ch i) b RNG_F_RANGE_FAIL RNG_C_RANGE_FAIL
    let s2 := setRng s1 p i { g with grantFrame := none, assignSent := some (frame s) }
    .next (if fld s b RNG_RANGE_TRIES ≤ g.tries then enterDeact s2 p i else s2)
  else .next s

/-- What a registration ID or password is compared on (R69): 36 bytes, or the first 10 on G. -/
def regMatches (c : Nat) (a b : BitVec 288) : Bool := if c = 0 then a >>> 208 == b >>> 208 else a == b

/-- REGISTRATION_RECEIVED (R69, R100). -/
def execRegistrationReceived (p : Fin 32) (i : Fin 512) (id : BitVec 288) (s : State) : Res :=
  let r := onu s p i
  if r.state = stRegister then
    .next (if regMatches r.ch r.expReg id then setOnuState s p i stOperation else enterSnm s p i)
  else .next s

/-- REGISTER_TIMEOUT (R100). -/
def execRegisterTimeout (p : Fin 32) (i : Fin 512) (s : State) : Res :=
  let r := onu s p i
  let b := pgRNG p r.ch
  if r.state = stRegister ∧ (rng s p i).since + fld s b RNG_T_REG ≤ frame s then
    .next (enterDeact (note s b RNG_F_RANGE_FAIL RNG_C_RANGE_FAIL) p i)
  else .next s

/-- POPUP_EXPIRE (R100, R115). -/
def execPopupExpire (p : Fin 32) (i : Fin 512) (s : State) : Res :=
  let r := onu s p i
  let b := pgRNG p r.ch
  if r.state = stPopup ∧ (rng s p i).since + fld s b RNG_T_POPUP ≤ frame s then
    .next (enterDeact (note s b RNG_F_POPUP_EXPIRE RNG_C_POPUP_EXPIRE) p i)
  else .next s

/-! ### The per-ONU window -/

/-- The states that RG_CMD 2 and 3 need (R355). -/
def rgStateOk (r : OnuRec) : Bool := r.state == stRegister || r.state == stOperation || r.state == stPopup

/-- Set OWN_ERR and CH_ERR of the RG window. -/
def rgStat (s : State) (p c : Nat) (own ch : Bool) : State :=
  setBit (setBit s (pgRNG p c) RNG_OWN_ERR own) (pgRNG p c) RNG_CH_ERR ch

/-- Set REJECT of the RG window: what became of the last RG_CMD 2 or 3. -/
def rgReject (s : State) (p c : Nat) (rej : Bool) : State := setBit s (pgRNG p c) RNG_REJECT rej

/-- Set CONFLICT of the RG window: what became of the last write. -/
def rgConflict (s : State) (p c : Nat) (conflict : Bool) : State := setBit s (pgRNG p c) RNG_CONFLICT conflict

/-- The data words of the RG window. -/
def rgWords (s : State) (p c : Nat) (g : RngRec) : State :=
  let b := pgRNG p c
  let s1 := setFld (setFld s b RNG_EQD g.eqd) b RNG_RES (unsignedOf 16 g.res)
  let s2 := setFld (setBit s1 b RNG_ADJ_PENDING g.adj) b RNG_ADJ_SENDS g.sends
  let s3 := setFld s2 b RNG_DRIFT_AVG (unsignedOf 16 (roundDiv g.drift.num g.drift.den))
  setFld (setFld s3 b RNG_RTD_FINE (unsignedOf 32 g.rtd)) b RNG_RANGED_FRAME g.rangedFrame

/-- An RG command (R116): ownership, then a record that is VALID on another channel. -/
def rgCommand (o : Origin) (p c : Nat) (body : Nat → State → State × Nat) (s : State) : State :=
  let b := pgRNG p c
  command o (b + RNG_RG_CMD.off) (b + RNG_RG_IDX.off) (fun s =>
    let i := fld s b RNG_RG_IDX
    let r := onu s p i
    if !mayUse (Origin.slice o) (onuOwner s p i) then (rgWords (rgStat s p c true false) p c (RngRec.init 0), 2)
    else if r.valid && r.ch != c then (rgWords (rgStat s p c false true) p c (RngRec.init 0), 1)
    else body i (rgStat s p c false false)) s

/-- RG_READ (R116). -/
def execRgRead (o : Origin) (p : Fin 32) (c : Fin 3) (s : State) : Res :=
  .next (rgCommand o p c (fun i s => (rgWords s p c (rng s p i), 0)) s)

/-- RG_SET_EQD (R116, R355): a hardware update of the same cycle wins. -/
def execRgSetEqd (o : Origin) (p : Fin 32) (c : Fin 3) (conflict : Bool) (s : State) : Res :=
  .next (rgCommand o p c (fun i s =>
    if conflict then (rgConflict s p c true, 4)
    else if !((onu s p i).valid && rgStateOk (onu s p i)) then (rgReject s p c true, 8)
    else
      let e := fld s (pgRNG p c) RNG_EQD
      let s1 := rgConflict (rgReject s p c false) p c false
      (evalDow (sendTo (setRng s1 p i { rng s p i with eqd := e, res := 0 }) p i (.rangingTime e)) p i, 0)) s)

/-- RG_RERANGE (R355): the re-range runs from the next T_IN. -/
def execRgRerange (o : Origin) (p : Fin 32) (c : Fin 3) (s : State) : Res :=
  .next (rgCommand o p c (fun i s =>
    if !((onu s p i).valid && rgStateOk (onu s p i)) then (rgReject s p c true, 8)
    else (setRng (rgReject s p c false) p i { rng s p i with rerangeReq := true }, 0)) s)

/-! ### Drift tracking -/

/-- The first later sample that lies nearer to the corrected delay marks the correction as applied (R113). -/
def seeCorrection (s : State) (p i : Nat) (d : Rat) : State × Rat :=
  let r := onu s p i
  let g := rng s p i
  let k := unitsFine r.ch g.delta
  if g.adj ∧ |d - (k : Rat)| < |d| then
    (bump (setRng s p i { g with eqd := (g.eqd + g.delta).toNat, res := g.res + k, adj := false, sends := 0 })
      (pgRNG p r.ch) RNG_C_EQD_UPDATES 1, d - k)
  else (s, d)

/-- A trim of `t` fine steps reaches the write-backs of ONU i that are still due (R86). -/
def shiftBacks (s : State) (p c i : Nat) (t : Int) : State :=
  let l := lane s p c
  setLane s p c { l with back := l.back.map (fun x =>
    if x.b.onu = i then { x with shift := trimmedPhase (profRate x.b.words) x.shift t } else x) }

/-- A moves toward the sample; at TRIM_FINE the residual takes its rounded value and the phase memory its fraction (R86,
R112). -/
def moveDrift (s : State) (p i : Nat) (d : Rat) : State :=
  let r := onu s p i
  let g := rng s p i
  let b := pgRNG p r.ch
  let a := g.drift + (d - g.drift) / (2 : Rat) ^ fld s b RNG_DRIFT_SHIFT
  if (fld s b RNG_TRIM_FINE : Rat) ≤ |a| then
    let t := roundDiv a.num a.den
    let e := phaseMem s p r.ch i
    let s1 := setPhaseMem (shiftBacks (setRng s p i { g with drift := 0, res := g.res + t }) p r.ch i t) p r.ch i
      { e with phase := if e.written then trimmedPhase e.rate e.phase t else e.phase }
    bump s1 b RNG_C_TRIMS 1
  else setRng s p i { g with drift := a }

/-- A drift sample (R112 to R114) of a burst of a record in OPERATION; one from a burst whose map frame or burst frame was slewed is
discarded. LOSi and LOFi freeze the tracking (R100), and TRACK_EN gates the average and its trims alone. -/
def driftSample (s : State) (p i mapFrame burstFrame : Nat) (d : Rat) : State :=
  let r := onu s p i
  let b := pgRNG p r.ch
  if r.state = stOperation ∧ !s.grid.slewed.contains mapFrame ∧ !s.grid.slewed.contains burstFrame then
    let s1 := bump s b RNG_C_DRIFT_SAMPLES 1
    if r.defects % 4 = 0 then
      let x := seeCorrection s1 p i d
      settleDow (if isSet s b RNG_TRACK_EN then moveDrift x.1 p i x.2 else x.1) p i
    else s1
  else s

/-- EQD_RETRY (R113, R114): a correction not seen within T_EQD frames is sent again, up to 3 sends; after the third it goes
unacknowledged and DOWi is raised. -/
def execEqdRetry (p : Fin 32) (i : Fin 512) (s : State) : Res :=
  let r := onu s p i
  let g := rng s p i
  let b := pgRNG p r.ch
  if g.adj = true ∧ g.adjSent + fld s b RNG_T_EQD ≤ frame s then
    if g.sends < 3 then
      .next (sendTo (note (setRng s p i { g with sends := g.sends + 1, adjSent := frame s }) b RNG_F_EQD_RETRY RNG_C_EQD_RETRY)
        p i (.rangingTime (g.eqd + g.delta).toNat))
    else .next (correct (raiseDow (setRng s p i { g with adj := false, sends := 0 }) p i) p i)
  else .next s

end Sys2Proof.Machine
end

