-- ==== Sys2Proof/Machine/Bonding.lean ====
section
/-! DEFINITION. Bonded groups (R137 to R147): the group window, the upstream merge with its gaps, and member loss. -/

namespace Sys2Proof.Machine

/-- Sequence numbers of fragments are counted modulo 2^24 (R139). -/
def seqMod : Nat := 2 ^ 24

/-- Raise counter j of a group, and with it counter j of the port (R147). -/
def grpBump (s : State) (p g j n : Nat) : State :=
  let r := grp s p g
  bump (setGrp s p g { r with cnts := r.cnts.set j (min cntMax (r.cnts.getD j 0 + n)) }) (pgBND p) j n

/-- Raise a group counter and set the page's flag of the same name. -/
def grpNote (s : State) (p g : Nat) (f : Flag) (j n : Nat) : State := grpBump (flag s (pgBND p) f) p g j n

/-- Hand an SDU to the packet engines (R13): it waits for its landing. -/
def handUp (s : State) (src len : Nat) (bytes : List Byte) : State :=
  { s with pon := { s.pon with upSdu := s.pon.upSdu ++ [⟨src, len, bytes⟩] } }

/-! ### The fragment header (R139, R140) -/

/-- The first 7 bytes of a fragment header, as a number: VER 1, F, L, SEQ, GROUP, MEM, DATUM. -/
def fragHead (h : FragHdr) : Nat :=
  1 * 2 ^ 52 + h.first.toNat * 2 ^ 51 + h.last.toNat * 2 ^ 50 + (h.seq % seqMod) * 2 ^ 24 + (h.group % 64) * 2 ^ 18 +
    h.memH.toNat * 2 ^ 17 + h.datum % 2 ^ 16

/-- The 8 bytes of a fragment header as sent, with their HEC. -/
def fragBytes (h : FragHdr) : List Byte :=
  let l := beBytes (fragHead h) 7
  valueBytes (ofBytes l * 256 + crc8 l) 8

/-- The header that the first 8 bytes of a fragment spell. -/
def fragHdrOf (l : List Byte) : FragHdr :=
  let n := beAt l 0 8
  ⟨n / 2 ^ 60, n / 2 ^ 59 % 2 == 1, n / 2 ^ 58 % 2 == 1, n / 2 ^ 32 % seqMod, n / 2 ^ 26 % 64, n / 2 ^ 25 % 2 == 1,
    n / 2 ^ 8 % 2 ^ 16, crc8 (beBytes (n / 256) 7) == n % 256⟩

/-! ### The merge -/

/-- A unit of the group is discarded for a lost fragment (R145). -/
def discardUnit (s : State) (p g : Nat) : State := grpBump s p g BND_C_REASM_DISCARD 1

/-- The L fragment of a unit (R145): a unit that lost a fragment is discarded, one beyond SDU_MAX as R61 lays down, and a
whole one is handed over with the H member's ONU as its source. -/
def endUnit (s : State) (p g : Nat) : State :=
  let r := grp s p g
  let s1 := setGrp s p g { r with join := none, bad := false }
  match r.join with
  | none => s1
  | some (bytes, len) =>
    if r.bad then discardUnit s1 p g
    else if fld s (pgCH p 2) CH_SDU_MAX < len then onuBump (flag s1 (pgCH p 2) CH_F_SDU_OVERSIZE) p r.onuH ONU_C_SDU_OVERSIZE 1
    else handUp (grpBump s1 p g BND_C_US_SDU 1) (512 * p + r.onuH) len bytes

/-- Join a released fragment to its unit (R145). A unit whose end was lost is discarded when the next one begins, and a
fragment without a beginning belongs to a unit that lost it. -/
def joinFrag (s : State) (p g : Nat) (f : HeldFrag) : State :=
  let r := grp s p g
  let late := frame s - (f.mapFrame + fld s (pgBND p) BND_OFS_FRAMES)
  let r1 := { r with next := (f.seq + 1) % seqMod, maxSkew := max r.maxSkew (min 7 late) }
  let s1 :=
    if f.first then
      let s1 := setGrp s p g { r1 with join := some (f.bytes, f.len), bad := false }
      if r.join = none then s1 else discardUnit s1 p g
    else
      match r.join with
      | none => setGrp s p g { r1 with join := some (f.bytes, f.len), bad := true }
      | some (b, n) => setGrp s p g { r1 with join := some (b ++ f.bytes, n + f.len) }
  if f.last then endUnit s1 p g else s1

/-- The pool buffer of a fragment that leaves the merge (R144). -/
def freeHeld (s : State) (p : Nat) (f : HeldFrag) : State :=
  match f.handle with
  | some h => freeBuf s h (tagBonding p) true
  | none => s

/-- Release held fragments as long as the next one is there (R143). -/
def releaseRun : Nat → State → Nat → Nat → State
  | 0, s, _, _ => s
  | n + 1, s, p, g =>
    let r := grp s p g
    match r.held.find? (fun f => f.seq == r.next) with
    | none => s
    | some f => releaseRun n (joinFrag (freeHeld (setGrp s p g { r with held := r.held.erase f }) p f) p g f) p g

/-- The distance of a sequence number above NEXT (R143). -/
def seqAhead (next q : Nat) : Nat := (q + seqMod - next) % seqMod

/-- The lowest held fragment above NEXT. -/
def lowestHeld (r : Grp) : Option Nat :=
  r.held.foldl (fun a f => match a with
    | none => some f.seq
    | some q => if seqAhead r.next f.seq < seqAhead r.next q then some f.seq else some q) none

/-- Declare the gap below the lowest held fragment lost (R144), and go on releasing. -/
def declareGap (s : State) (p g : Nat) : State :=
  let r := grp s p g
  match lowestHeld r with
  | none => s
  | some q =>
    let n := seqAhead r.next q
    let s1 := setGrp s p g { r with next := q, bad := r.bad || (r.join.isSome && 0 < n) }
    let s2 := if n = 0 then s1 else grpNote s1 p g BND_F_SEQ_LOSS BND_C_SEQ_LOSS n
    releaseRun r.held.length s2 p g

/-- Declare every gap of a group lost (R146). -/
def declareAll : Nat → State → Nat → Nat → State
  | 0, s, _, _ => s
  | n + 1, s, p, g => if (grp s p g).held = [] then s else declareAll n (declareGap s p g) p g

/-- Every gap below held fragments is lost; one declaration per held fragment suffices. -/
def flushGroup (s : State) (p g : Nat) : State := declareAll (grp s p g).held.length s p g

/-- The bytes held in a group's merge. -/
def heldBytes (r : Grp) : Nat := (r.held.map (·.len)).sum

/-- The group that owns an XGEM port on a channel, among the port's valid groups. -/
def groupOfXgem (s : State) (p c portId : Nat) : Option Nat :=
  ((validGroups s p).find? (fun g => if c = 1 then g.2.xgemX == portId else c == 2 && g.2.xgemH == portId)).map (·.1)

/-- Does a fragment header fail R140 on group g and channel c? -/
def fragRejected (g c : Nat) (h : FragHdr) : Bool := !h.hecOk || h.ver != 1 || h.group != g || h.memH != (c == 2)

/-- A fragment is taken by the merge, by its sequence number (R143, R144): released, discarded as late or a duplicate, or held in a
pool buffer; with HOLD_KIB held, the lowest gap is lost. None while no buffer for it is to be had. -/
def holdFragment (s : State) (p g : Nat) (f : HeldFrag) : Option State :=
  let r := grp s p g
  let d := seqAhead r.next f.seq
  if d = 0 then some (releaseRun r.held.length (joinFrag s p g f) p g)
  else if 2 ^ 23 ≤ d ∨ r.held.any (fun x => x.seq == f.seq) then some (grpNote s p g BND_F_DUP_LATE BND_C_DUP_LATE 1)
  else (askBytes s 4 (tagBonding p) 1 f.len).map (fun x =>
    let s1 := setGrp x.2 p g { r with held := r.held ++ [{ f with handle := some x.1 }] }
    if fld s (pgBND p) BND_HOLD_KIB * 1024 ≤ heldBytes (grp s1 p g) then
      declareGap (grpNote s1 p g BND_F_HOLD_FULL BND_C_HOLD_FULL 1) p g
    else s1)

/-- A fragment reaches the merge (R140, R143, R144). Without a buffer to hold it in it waits for one where requester 4 may; refused, it
is missing from then on (R201). -/
def mergeFragment (s : State) (p c g : Nat) (h : FragHdr) (len mapFrame : Nat) (bytes : List Byte) : State :=
  if fragRejected g c h then grpNote s p g BND_F_HDR_ERR BND_C_HDR_ERR 1
  else
    let s1 := grpBump (grpBump s p g (if c = 1 then BND_C_US_FRAGS_X else BND_C_US_FRAGS_H) 1) p g BND_C_US_BYTES (len - 8)
    let s2 := if h.datum = mapFrame % 2 ^ 16 then s1 else grpNote s1 p g BND_F_DATUM_ERR BND_C_DATUM_ERR 1
    let f : HeldFrag := ⟨h.seq, h.datum, mapFrame, h.first, h.last, bytes, len - 8, none⟩
    match holdFragment s2 p g f with
    | some t => t
    | none => (waitOrRefuse s2 ⟨4, len - 8, .merge p g f⟩).1

/-- BOND_FRAGMENT_ARRIVE (R138, R140, R142, R143): a fragment that the channel handed over leaves the hand-over queue and reaches the
merge of the group that owns its XGEM port; while BND_EN is 0 no group is merged. Its header stands in its first 8 bytes and its
datum is the map frame whose grant carried it; a command that names no fragment handed over changes nothing. -/
def execBondFragmentArrive (p : Fin 32) (c : Fin 3) (portId : Nat) (hdr : FragHdr) (len mapFrame : Nat) (s : State) : Res :=
  match s.pon.bondIn.find? (fun b => b.port == p.val && b.ch == c.val && b.portId == portId && b.len == len &&
      b.mapFrame == mapFrame && fragHdrOf b.bytes == hdr) with
  | none => .next s
  | some b =>
    let s1 : State := { s with pon := { s.pon with bondIn := s.pon.bondIn.erase b } }
    match (if active s (pgBND p) BND_BND_EN then groupOfXgem s p c portId else none) with
    | none => .next s1
    | some g => .next (settlePools s (mergeFragment s1 p c g hdr len mapFrame (b.bytes.drop 8)))

/-- The frame from which the oldest held fragment's gap counts as lost (R144). -/
def gapDeadline (s : State) (p : Nat) (r : Grp) : Option Nat :=
  r.held.foldl (fun a f => match a with
    | none => some (f.mapFrame + fld s (pgBND p) BND_OFS_FRAMES + fld s (pgBND p) BND_SKEW_FRAMES)
    | some d => some (min d (f.mapFrame + fld s (pgBND p) BND_OFS_FRAMES + fld s (pgBND p) BND_SKEW_FRAMES))) none

/-- BOND_GAP_DEADLINE (R144). -/
def execBondGapDeadline (p : Fin 32) (g : Fin 64) (s : State) : Res :=
  match gapDeadline s p (grp s p g) with
  | none => .next s
  | some d => .next (if d ≤ frame s then settlePools s (declareGap s p g) else s)

/-! ### Member loss -/

/-- Is a member's record down (R146)? The defect counts whether or not it is reported. -/
def memberDown (s : State) (p c i : Nat) : Bool :=
  let r := onu s p i
  hasDefect r dLOSi || hasDefect r dLOFi || r.state != stOperation || isSet s (pgCH p c) CH_LOS_CH_ACTIVE

/-- Group states (R147). -/
def gDown : Nat := 0
def gSingleX : Nat := 1
def gSingleH : Nat := 2
def gUp : Nat := 3

/-- An UP group with a member down falls to the other (R146). -/
def fallBack (s : State) (p g : Nat) : State :=
  let r := grp s p g
  let x := memberDown s p 1 r.onuX
  if r.valid ∧ r.state = gUp ∧ (x ∨ memberDown s p 2 r.onuH) then
    let s1 := flushGroup (setGrp s p g { r with state := if x then gSingleH else gSingleX, upX := 0, upH := 0 }) p g
    postTo (grpNote s1 p g BND_F_MEMBER_DOWN BND_C_FALLBACKS 1) (pgBND p) (onuOwner s p r.onuX) .memberDown [g, if x then 0 else 1]
  else s

/-- The survivor of a group goes down, and nothing of it is pulled (R146). -/
def goDown (s : State) (p g : Nat) : State :=
  let r := grp s p g
  if r.valid ∧ ((r.state = gSingleX ∧ memberDown s p 1 r.onuX) ∨ (r.state = gSingleH ∧ memberDown s p 2 r.onuH)) then
    flag (setGrp s p g { r with state := gDown, upX := 0, upH := 0 }) (pgBND p) BND_F_GROUP_DOWN
  else s

/-- A member that is up, and has been for REJOIN_FRAMES boundaries, rejoins with its split counter set to the survivor's (R146). -/
def rejoin (s : State) (p g : Nat) : State :=
  let r := grp s p g
  let n := fld s (pgBND p) BND_REJOIN_FRAMES
  let x : Bool := n ≤ r.upX && !memberDown s p 1 r.onuX
  let h : Bool := n ≤ r.upH && !memberDown s p 2 r.onuH
  let done := fun (r : Grp) => grpNote (setGrp s p g r) p g BND_F_MEMBER_UP BND_C_REJOINS 1
  if !r.valid then s
  else if r.state = gSingleX ∧ h then done { r with state := gUp, sH := r.sX }
  else if r.state = gSingleH ∧ x then done { r with state := gUp, sX := r.sH }
  else if r.state = gDown ∧ x then done { r with state := gSingleX }
  else if r.state = gDown ∧ h then done { r with state := gSingleH }
  else s

/-- Is this a frame boundary, at which a transition of a group takes effect (R146)? -/
def atBoundary (s : State) : Bool := (now s).tick == 0 && (now s).fine == 0

/-- MEMBER_FALLBACK (R146): at a frame boundary. -/
def execMemberFallback (p : Fin 32) (g : Fin 64) (s : State) : Res :=
  .next (if atBoundary s then settlePools s (fallBack s p g) else s)

/-- GROUP_DOWN (R146): at a frame boundary. -/
def execGroupDown (p : Fin 32) (g : Fin 64) (s : State) : Res := .next (if atBoundary s then goDown s p g else s)

/-- MEMBER_REJOIN (R146): at a frame boundary. -/
def execMemberRejoin (p : Fin 32) (g : Fin 64) (s : State) : Res := .next (if atBoundary s then rejoin s p g else s)

/-- A group with the fields that a write with VALID 0 left for it. -/
def Grp.withFields (r : Grp) (l : List Nat) : Grp :=
  let f := fun i => l.getD i 0
  { r with onuX := f 0, onuH := f 1, xgemX := f 2, xgemH := f 3, wX := f 4, wH := f 5, fragMax := f 6, dsQ := f 7, usQ := f 8,
           valid := false, newW := none }

/-- A group written with VALID 0 is freed at the boundary: its held fragments released with the gaps declared lost, and the fields as
they were written (R146, R347). -/
def freeGroup (s : State) (p g : Nat) : State :=
  match (grp s p g).freeing with
  | none => s
  | some l =>
    let s1 := flushGroup s p g
    setGrp s1 p g { (grp s1 p g).withFields l with state := gDown, join := none, bad := false, freeing := none }

/-- A group at a frame boundary (R137, R141, R146): one written with VALID 0 is freed; the boundaries each member has been up and new
weights in force; the transition that is due; both split counters lowered by the smaller. -/
def groupBoundary (s : State) (p g : Nat) : State :=
  let s0 := freeGroup s p g
  let r := grp s0 p g
  let w := r.newW.getD (r.wX, r.wH, r.fragMax)
  let s1 := setGrp s0 p g { r with
    upX := if memberDown s p 1 r.onuX then 0 else min 255 (r.upX + 1),
    upH := if memberDown s p 2 r.onuH then 0 else min 255 (r.upH + 1),
    wX := w.1, wH := w.2.1, fragMax := w.2.2, newW := none }
  let s2 := rejoin (goDown (fallBack s1 p g) p g) p g
  let t := grp s2 p g
  let m := min t.sX t.sH
  setGrp s2 p g { t with sX := t.sX - m, sH := t.sH - m }

/-! ### The group window -/

/-- The words 0x08C to 0x0A4 of a group; one written with VALID 0 shows what was written. -/
def Grp.words (r0 : Grp) : List Word :=
  let r := r0.freeing.elim r0 r0.withFields
  let w := r.newW.getD (r.wX, r.wH, r.fragMax)
  [BitVec.ofNat 32 (r.onuX + r.onuH <<< 9 + r.valid.toNat <<< 18 + r.state <<< 19),
   BitVec.ofNat 32 (r.xgemX + r.xgemH <<< 16), BitVec.ofNat 32 (w.1 + w.2.1 <<< 8 + w.2.2 <<< 16),
   BitVec.ofNat 32 (r.dsQ + r.usQ <<< 16), BitVec.ofNat 32 r.dsSeq, BitVec.ofNat 32 r.next,
   BitVec.ofNat 32 (ceilDiv (heldBytes r) 1024 + r.maxSkew <<< 16)]

/-- The counters of a group as window words. -/
def Grp.cntWords (r : Grp) : List Word :=
  (List.range 16).flatMap (fun j => [BitVec.ofNat 32 (r.cnts.getD j 0), BitVec.ofNat 32 (r.cnts.getD j 0 >>> 32)])

/-- The owner of a valid group: of its records (R137). -/
def grpOwner (s : State) (p : Nat) (r : Grp) : Nat := onuOwner s p r.onuX

/-- The group that the window words spell, over what group `r` keeps. -/
def grpOfWindow (s : State) (p : Nat) (r : Grp) : Grp :=
  let b := pgBND p
  { r with
    onuX := fld s b BND_ONU_X, onuH := fld s b BND_ONU_H, valid := isSet s b BND_VALID,
    xgemX := fld s b BND_XGEM_X, xgemH := fld s b BND_XGEM_H, wX := fld s b BND_W_X, wH := fld s b BND_W_H,
    fragMax := fld s b BND_FRAG_MAX, newW := none, dsQ := fld s b BND_DS_Q, usQ := fld s b BND_US_Q }

/-- Is an XGEM port the PORT_ID of a valid entry of a record with DIR 3 (R137)? -/
def xgemOfRecord (s : State) (p c i portId : Nat) : Bool :=
  (otherEntries s p 8192).any (fun e => e.ch == c && e.portId == portId && e.onu == i && !e.mcast && e.dir == 3)

/-- Does R137 reject a group with VALID 1? -/
def grpRejected (s : State) (p g : Nat) (n : Grp) : Bool :=
  let x := onu s p n.onuX
  let h := onu s p n.onuH
  let others := (validGroups s p).filter (fun e => e.1 != g)
  !x.valid || !h.valid || x.ch != 1 || h.ch != 2 || onuOwner s p n.onuX != onuOwner s p n.onuH ||
  others.any (fun e => e.2.onuX == n.onuX || e.2.onuH == n.onuH || e.2.xgemX == n.xgemX || e.2.xgemH == n.xgemH) ||
  !xgemOfRecord s p 1 n.onuX n.xgemX || !xgemOfRecord s p 2 n.onuH n.xgemH ||
  n.wX == 0 || n.wH == 0 || n.fragMax < 256 || 16375 < n.fragMax

/-- Does a write to a valid group change a field that may not change while VALID (R137)? -/
def grpFixedChanged (r n : Grp) : Bool :=
  r.onuX != n.onuX || r.onuH != n.onuH || r.xgemX != n.xgemX || r.xgemH != n.xgemH || r.dsQ != n.dsQ || r.usQ != n.usQ

/-- Set the status bits of the group window. -/
def grpStat (s : State) (p : Nat) (own rej : Bool) : State :=
  setBit (setBit s (pgBND p) BND_OWN_ERR own) (pgBND p) BND_REJECT rej

/-- The window of a group of another slice reads 0. -/
def grpHide (s : State) (p : Nat) : State :=
  setWords (setWords (grpStat s p true false) (pgBND p + 0x8C) (List.replicate 7 0)) (pgBND p + 0x100) (List.replicate 32 0)

/-- GRP_READ (R147). -/
def execGrpRead (o : Origin) (p : Fin 32) (s : State) : Res :=
  let b := pgBND p
  .next (command o (b + BND_GRP_CMD.off) (b + BND_GRP_IDX.off) (fun s =>
    let r := grp s p (fld s b BND_GRP_IDX)
    let v := Origin.slice o
    if (if r.valid then mayUse v (grpOwner s p r) else v == portOwner s p) then
      (setWords (setWords (grpStat s p false false) (b + 0x8C) r.words) (b + 0x100) r.cntWords, 0)
    else (grpHide s p, 2)) s)

/-- A rejected group write (R137). -/
def grpReject (s : State) (p : Nat) : State := flag (grpStat s p false true) (pgBND p) BND_F_GRP_REJ

/-- GRP_WRITE (R137, R146, R347). VALID 0 frees the group at the next frame boundary; until then a write with VALID 1 is refused (log
entry 39). A group that becomes VALID starts DOWN and comes up under R146. -/
def execGrpWrite (o : Origin) (p : Fin 32) (s : State) : Res :=
  let b := pgBND p
  .next (command o (b + BND_GRP_CMD.off) (b + BND_GRP_IDX.off) (fun s =>
    let g := fld s b BND_GRP_IDX
    let r := grp s p g
    let n := grpOfWindow s p r
    let v := Origin.slice o
    if !((!r.valid || mayUse v (grpOwner s p r)) && mayUse v (onuOwner s p n.onuX) && mayUse v (onuOwner s p n.onuH)) then
      (grpHide s p, 2)
    else if !n.valid then
      let l := [n.onuX, n.onuH, n.xgemX, n.xgemH, n.wX, n.wH, n.fragMax, n.dsQ, n.usQ]
      (grpStat (setGrp s p g (if r.valid then { r with freeing := some l } else n)) p false false, 0)
    else if r.freeing.isSome then (grpReject s p, 8)
    else if r.valid then
      if grpFixedChanged r n then (grpReject s p, 8)
      else if grpRejected s p g n then (grpReject s p, 1)
      else (grpStat (setGrp s p g { r with newW := some (n.wX, n.wH, n.fragMax) }) p false false, 0)
    else if grpRejected s p g n then (grpReject s p, 1)
    else
      (grpStat (setGrp s p g { n with
        state := gDown, dsSeq := 0, next := 0, maxSkew := 0, sX := 0, sH := 0, upX := 0, upH := 0, held := [],
        join := none, bad := false, freeing := none }) p false false, 0)) s)

/-- GRP_COUNTER_CLEAR (R147). -/
def execGrpCounterClear (o : Origin) (p : Fin 32) (s : State) : Res :=
  let b := pgBND p
  .next (command o (b + BND_GRP_CMD.off) (b + BND_GRP_IDX.off) (fun s =>
    let g := fld s b BND_GRP_IDX
    let r := grp s p g
    if mayUse (Origin.slice o) (if r.valid then grpOwner s p r else portOwner s p) then
      (setGrp (grpStat s p false false) p g { r with cnts := List.replicate 16 0 }, 0)
    else (grpHide s p, 2)) s)

end Sys2Proof.Machine
end

