-- ==== Sys2Proof/Machine/Sched.lean ====
section
/-! DEFINITION. The scheduling trees (R191 to R198): nodes, their tags and shapers, the choice of a frame, and what serving it
changes. -/

namespace Sys2Proof.Machine

/-! ### Nodes -/

/-- The levels of the scheduling trees (R215 LEVEL). -/
def lvChannel : Nat := 0
def lvOnu : Nat := 1
def lvQueue : Nat := 2
def lvPort : Nat := 3
def lvUp : Nat := 4

/-- The number of nodes of each level (R191, R193). -/
def levelNodes : Nat → Nat
  | 0 => 96
  | 1 => 16384
  | 2 => 65536
  | 3 => 24
  | 4 => 8192
  | _ => 0

def nodeKey (lv i : Nat) : Nat := 2 ^ 17 * lv + i
def node (s : State) (lv i : Nat) : Node := tget Node.init s.tm.node (nodeKey lv i)
def setNode (s : State) (lv i : Nat) (n : Node) : State :=
  { s with tm := { s.tm with node := tset Node.init s.tm.node (nodeKey lv i) n } }

/-- The key of an uplink-bound queue. -/
def upKey (j : Nat) : Nat := 65536 + j

/-- The ONU entry of a node: QBASE and QCOUNT (R191). -/
def onuRange (s : State) (u : Nat) : Nat × Nat := tget (fun _ => (0, 0)) s.tm.onu u

/-- The groups of which ONU u is a member: the port's valid groups, with the member's channel. -/
def groupsOf (s : State) (u : Nat) : List (Nat × Nat × Grp) :=
  (validGroups s (u / 512)).filterMap (fun e =>
    if e.2.onuX = u % 512 then some (e.1, 1, e.2) else if e.2.onuH = u % 512 then some (e.1, 2, e.2) else none)

/-- The queues under an ONU node (R191), by index: its range, and the DS_Q of a bonded group that it is a member of. -/
def queuesUnder (s : State) (u : Nat) : List Nat :=
  let r := onuRange s u
  (groupsOf s u).foldl (fun l g => l.filter (· < g.2.2.dsQ) ++ g.2.2.dsQ :: l.filter (g.2.2.dsQ < ·)) ((List.range r.2).map (r.1 + ·))

/-- The bonded group whose DS_Q is q, with its port. -/
def groupOfQueue (s : State) (q : Nat) : Option (Nat × Nat × Grp) :=
  (s.pon.grp.find? (fun e => e.2.valid && e.2.dsQ == q)).map (fun e => (e.1 / 64, e.1 % 64, e.2))

/-- The ONU nodes a downstream queue is served under: both members of a bonded group, member H first, otherwise the nodes
whose range names it, one on a port with custody first (R191). -/
def onusOf (s : State) (q : Nat) : List Nat :=
  match groupOfQueue s q with
  | some (p, _, r) => [512 * p + r.onuH, 512 * p + r.onuX]
  | none =>
    let l := (s.tm.onu.filter (fun e => e.2.1 ≤ q && q < e.2.1 + e.2.2)).map (·.1)
    l.filter (fun u => holdsCustody s (u / 512)) ++ l.filter (fun u => !holdsCustody s (u / 512))

/-- The channel node of an ONU node: the channel of its record (R191). -/
def channelOf (s : State) (u : Nat) : Nat := 3 * (u / 512) + (onu s (u / 512) (u % 512)).ch

/-- PARENT of a queue: the ONU node, member H for a group's queue, or the port node (R191, R193). -/
def parentOf (s : State) (k : Nat) : Nat := if k < 65536 then (onusOf s k).headD 0 else (queueOf s k).parent

/-- The owner of a queue: of its ONU, or its own for an uplink-bound one (R26, R191). A queue under no ONU belongs to slice
0. -/
def ownerOfQueue (s : State) (k : Nat) : Nat :=
  if k < 65536 then ((onusOf s k).head?.map (fun u => onuOwner s (u / 512) (u % 512))).getD 0 else queueOwner s (k - 65536)

/-- Does a queue hold a frame? -/
def backlogged (s : State) (k : Nat) : Bool := (queueOf s k).frames != []

/-- The uplink-bound queues under port node q that hold frames. -/
def upBacklog (s : State) (q : Nat) : List Nat :=
  (s.tm.q.filter (fun e => 65536 ≤ e.1 && e.2.parent == q && e.2.frames != [])).map (·.1)

/-- The ONU nodes of a channel that have a range or a group (R191). -/
def onusOn (s : State) (n : Nat) : List Nat :=
  (s.pon.onu.filter (fun e => e.1 / 512 == n / 3 && e.2.ch == n % 3 && e.2.valid)).map (·.1)

/-- Has a node a frame waiting below it (R196)? -/
def waiting (s : State) (lv i : Nat) : Bool :=
  match lv with
  | 0 => (onusOn s i).any (fun u => (queuesUnder s u).any (backlogged s))
  | 1 => (queuesUnder s i).any (backlogged s)
  | 2 => backlogged s i
  | 3 => upBacklog s i != []
  | _ => backlogged s (upKey i)

/-! ### Shaping (R196 to R198) -/

/-- The grid position in ticks from 0:0. -/
def gtNow (s : State) : Nat := (now s).frame * gtPerFrame + (now s).tick

/-- A node's credit at gt t (R196, R197): tokens rise to BURST in token-bucket mode; credit rises to CREDIT_HI while a frame waits and
the node is not sending, and a negative one to 0 while none waits. -/
def Node.creditAt (n : Node) (waits : Bool) (t : Nat) : Int :=
  let c := n.credit + (n.rate * (t - (if n.mode then n.at_ else max n.at_ n.busy)) : Nat)
  if n.mode then max n.credit (min c ((n.burst * 65536 : Nat) : Int))
  else if waits then max n.credit (min c ((n.creditHi * 65536 : Nat) : Int))
  else if n.credit < 0 then min c 0 else n.credit

/-- Bring a node's credit up to now. An unshaped node has none to keep. -/
def refreshNode (s : State) (lv i : Nat) : State :=
  let n := node s lv i
  if n.shapeEn then setNode s lv i { n with credit := n.creditAt (waiting s lv i) (gtNow s), at_ := gtNow s }
  else s

/-- The nodes over a queue, the queue's own first: for a downstream queue its ONU nodes and their channels, for an uplink-bound
one its port. -/
def nodesOver (s : State) (k : Nat) : List (Nat × Nat) :=
  if k < 65536 then (lvQueue, k) :: (onusOf s k).flatMap (fun u => [(lvOnu, u), (lvChannel, channelOf s u)])
  else [(lvUp, k - 65536), (lvPort, (queueOf s k).parent)]

/-- Bring the credit of every node over a queue up to now. -/
def refreshOver (s : State) (k : Nat) : State := (nodesOver s k).foldl (fun t e => refreshNode t e.1 e.2) s

/-- Is a node eligible for its shaper (R196, R197)? An unshaped one always is. -/
def shaperOk (s : State) (lv i : Nat) : Bool :=
  let n := node s lv i
  !n.shapeEn || 0 ≤ n.creditAt (waiting s lv i) (gtNow s)

/-- A frame of `len` bytes that a node sends for `gt` ticks costs a shaped one credit (R196, R197). -/
def chargeNode (s : State) (lv i len gt : Nat) : State :=
  let n := node s lv i
  if n.shapeEn then
    setNode s lv i { n with credit := n.credit - (if n.mode then (len : Int) else max 1 ((len : Int) + n.lenAdj)) * 65536,
                            busy := max n.busy (gtNow s) + gt }
  else s

/-- A node in credit mode that empties with a positive credit has it set to 0 (R196). -/
def emptyNode (s : State) (lv i : Nat) : State :=
  let n := node s lv i
  if n.shapeEn ∧ !n.mode ∧ 0 < n.credit ∧ !waiting s lv i then setNode s lv i { n with credit := 0 } else s

/-- The settle period of a node: its first frame and its length (R197). -/
def settleOf (s : State) (n : Node) : Nat × Nat := n.settle.getD s.tm.settleAll

/-- Frames left of a node's settle period (R215 SETTLE_LEFT). -/
def settleLeft (s : State) (n : Node) : Nat :=
  if n.mode then let x := settleOf s n; x.1 + x.2 - frame s else 0

/-- Start a settle period of one node (R197): token-bucket mode with tokens at 0; a trigger during one restarts its count. -/
def settleNode (s : State) (lv i : Nat) : State :=
  let n := node s lv i
  bump (setNode s lv i { n with mode := true, settle := some (frame s, fld s pgTMS TMS_SETTLE_FRAMES), credit := 0, at_ := gtNow s })
    pgTMS TMS_C_SETTLES 1

/-- A trigger of settle periods of several nodes (R197). -/
def startSettle (s : State) (l : List (Nat × Nat)) : State :=
  flag (l.foldl (fun t e => settleNode t e.1 e.2) s) pgTMS TMS_F_SETTLE_START

/-- The nodes of a port and below it (R197): its channel nodes, the ONU nodes that have a range, and their queues. -/
def portNodes (s : State) (p : Nat) : List (Nat × Nat) :=
  let us := (List.range 512).map (512 * p + ·)
  let qs := ((us.flatMap (queuesUnder s)).dedup).map (fun q => (lvQueue, q))
  (List.range 3).map (fun c => (lvChannel, 3 * p + c)) ++ us.map (fun u => (lvOnu, u)) ++ qs

/-! ### Tags (R194, R195) -/

/-- Tags and virtual times count modulo 2^56. -/
def tagMod : Nat := 2 ^ 56

/-- Is tag a smaller than tag b (R194)? -/
def tagLt (a b : Nat) : Bool :=
  let d := (b + tagMod - a) % tagMod
  1 ≤ d && d ≤ 2 ^ 55 - 1

/-- The larger of two tags. -/
def tagMax (a b : Nat) : Nat := if tagLt a b then b else a

/-- The finish tag of a head of `len` bytes (R194), with WEIGHT and LEN_ADJ as they stood when it became the head. -/
def Node.tagOf (n : Node) (len : Nat) : Nat :=
  (n.start + (max 1 ((len : Int) + n.adj)).toNat * 65536 / max 1 n.wt) % tagMod

/-- The bytes that a queue offers next: its head frame, or the next fragment of a bonded group's queue (R141). -/
def headLen (s : State) (k : Nat) : Nat :=
  match (queueOf s k).frames.head? with
  | none => 0
  | some f =>
    if k < 65536 then
      match groupOfQueue s k with
      | some (_, _, r) => min r.fragMax (f.len - f.sent)
      | none => f.len
    else f.len

/-- A queue's finish tag: of its head while it holds a frame, otherwise of the last head that went (R195). -/
def queueTag (s : State) (lv i k : Nat) : Nat :=
  let n := node s lv i
  if backlogged s k then n.tagOf (headLen s k) else n.f

/-- The child with the smallest tag, ties to the one listed first (R194). -/
def smallest (l : List (Nat × Nat)) : Option (Nat × Nat) :=
  l.foldl (fun a e => match a with
    | none => some e
    | some b => if tagLt e.2 b.2 then some e else some b) none

/-- Does a bonded group serve its member on channel c (R141, R146)? -/
def groupServes (s : State) (p c : Nat) (r : Grp) : Bool :=
  active s (pgBND p) BND_BND_EN &&
  (if r.state = gUp then
    (if c = 1 then r.sX ≤ r.sH + r.fragMax * 65536 / max 1 r.wX else r.sH ≤ r.sX + r.fragMax * 65536 / max 1 r.wH)
   else if c = 1 then r.state == gSingleX else r.state == gSingleH)

/-- Can a queue be served under ONU node u: a head that lies in the stacked memory (R208), its shaper, and the split of its
group (R141)? -/
def queueOffers (s : State) (u q : Nat) : Bool :=
  (match (queueOf s q).frames.head? with
   | none => false
   | some f => match f.place with
     | .expander _ | .lost _ => false
     | _ => true) &&
  shaperOk s lvQueue q &&
  (match groupOfQueue s q with
   | some (p, _, r) => groupServes s p (onu s (u / 512) (u % 512)).ch r
   | none => true)

/-- Is a downstream ONU held because its active slot is empty or spent (R219, R221)? Only an ONU with a key of its own is held:
one that no slot has ever been written for sends in clear. -/
def keyHeld (s : State) (u : Nat) : Bool :=
  let e := keyEntry s u
  match e.dsActive with
  | none => false
  | some j => (e.slot false j).mode == 0 || (e.slot false j).exhausted

/-- The queue that an ONU node offers, with its tag (R194). -/
def onuOffer (s : State) (u : Nat) : Option (Nat × Nat) :=
  smallest (((queuesUnder s u).filter (queueOffers s u)).map (fun q => (q, queueTag s lvQueue q q)))

/-- May an ONU node be served (R192, R219): its record in OPERATION, no key missing, its shaper, and a queue that offers? -/
def onuOffers (s : State) (u : Nat) : Bool :=
  (onu s (u / 512) (u % 512)).state == stOperation && !keyHeld s u && shaperOk s lvOnu u && (onuOffer s u).isSome

/-- An ONU node's finish tag. -/
def onuTag (s : State) (u : Nat) : Nat :=
  let n := node s lvOnu u
  match onuOffer s u with
  | some (q, _) => n.tagOf (headLen s q)
  | none => n.f

/-- The choice of channel node n (R194): the ONU node and its queue. -/
def channelChoice (s : State) (n : Nat) : Option (Nat × Nat) :=
  if !shaperOk s lvChannel n then none
  else
    match smallest (((onusOn s n).filter (onuOffers s)).map (fun u => (u, onuTag s u))) with
    | none => none
    | some (u, _) => (onuOffer s u).map (fun q => (u, q.1))

/-- The choice of port node q (R193, R194). -/
def portChoice (s : State) (q : Nat) : Option Nat :=
  if !shaperOk s lvPort q then none
  else (smallest (((upBacklog s q).filter (fun k => shaperOk s lvUp (k - 65536))).map
    (fun k => (k, queueTag s lvUp (k - 65536) k)))).map (·.1)

/-- A child takes a new head frame under a parent with virtual time v, its last tag being `f` (R194, R195). -/
def Node.newHead (n : Node) (v f : Nat) : Node := { n with start := tagMax v f, wt := n.weight, adj := n.lenAdj, f := f }

/-- A child wakes from empty. -/
def wakeNode (s : State) (lv i v : Nat) : State :=
  let n := node s lv i
  setNode s lv i (n.newHead v n.f)

/-- A child has sent its head of `len` bytes: its finish tag stands, and is its parent's virtual time (R194). -/
def finishNode (s : State) (lv i len : Nat) : State :=
  let n := node s lv i
  let f := n.tagOf len
  setNode s lv i (n.newHead f f)

/-- A child's head has gone without being served: it keeps the tag that the head was given (R195), and what follows begins by the
virtual time v of its parent. -/
def leaveNode (s : State) (lv i tag v : Nat) : State := setNode s lv i ((node s lv i).newHead v tag)

/-- The tags over queue k when its head goes without being served (R194, R195): the queue's own, and that of each ONU node that
offered this head. -/
def leaveTags (s : State) (k : Nat) : State :=
  if k < 65536 then
    let s1 := leaveNode s lvQueue k (queueTag s lvQueue k k) (node s lvOnu (parentOf s k)).v
    ((onusOf s k).filter (fun u => ((onuOffer s u).map (·.1)) == some k)).foldl
      (fun t u => leaveNode t lvOnu u (onuTag s u) (node s lvChannel (channelOf s u)).v) s1
  else leaveNode s lvUp (k - 65536) (queueTag s lvUp (k - 65536) k) (node s lvPort (queueOf s k).parent).v

/-- A parent's virtual time after a choice (R194). -/
def setV (s : State) (lv i v : Nat) : State := setNode s lv i { node s lv i with v := v }

/-- The ticks for which bytes are on a line of `rate` bits per gt (log entry 41). -/
def sendGt (len rate : Nat) : Nat := ceilDiv (len * 8) (max 1 rate)

/-- The line rate of a downstream channel, in bits per gt (R1): 16, 64 and 320. -/
def dsLineBits (c : Nat) : Nat := if c = 0 then 16 else if c = 1 then 64 else 320

/-- Settle every tag and credit of a served frame of `len` bytes of queue q under ONU node u (R192, R194, R196). -/
def serveTags (s : State) (u q len : Nat) : State :=
  let n := channelOf s u
  let gt := sendGt len (dsLineBits (n % 3))
  let s1 := refreshOver s q
  let s2 := finishNode (finishNode s1 lvQueue q len) lvOnu u len
  let s3 := setV (setV s2 lvOnu u (node s2 lvQueue q).f) lvChannel n (node s2 lvOnu u).f
  chargeNode (chargeNode (chargeNode s3 lvQueue q len gt) lvOnu u len gt) lvChannel n len gt

/-- The bits per gt of an uplink port in a mode (R1, R236): 10, 25, 50 and 100 Gb/s lanes, rounded down. -/
def upLineBits (s : State) (q : Nat) : Nat :=
  let m := portMode s q
  modeLanes m * (if m = 1 then 64 else if m ≤ 3 then 160 else if m ≤ 6 then 321 else 643)

/-- The same for an uplink-bound queue under port node q. -/
def serveUpTags (s : State) (q k len : Nat) : State :=
  let gt := sendGt len (upLineBits s q)
  let s1 := finishNode (refreshOver s k) lvUp (k - 65536) len
  chargeNode (chargeNode (setV s1 lvPort q (node s1 lvUp (k - 65536)).f) lvUp (k - 65536) len gt) lvPort q len gt

/-! ### Taking frames out of a queue -/

/-- Raise counter j of a queue. -/
def queueBump (s : State) (k j n : Nat) : State :=
  let q := queueOf s k
  setQueue s k { q with cnts := q.cnts.set j (min cntMax (q.cnts.getD j 0 + n)) }

/-- Count on the queue and on the page (R215). -/
def queueCount (s : State) (k j i n : Nat) : State := bump (queueBump s k j n) pgTMQ i n

/-- The party that holds a queue's buffers. -/
def queueParty (k : Nat) : Nat := tagQueue (65536 ≤ k)

/-- After a frame has gone: a node that emptied with a positive credit gives it up (R196). -/
def emptyOver (s : State) (k : Nat) : State := (nodesOver s k).foldl (fun t e => emptyNode t e.1 e.2) s

/-- Drop the frames at a queue's head whose payload was lost with its expander (R212). -/
def dropLost : Nat → State → Nat → State
  | 0, s, _ => s
  | n + 1, s, k =>
    let q := queueOf s k
    match q.frames with
    | [] => s
    | f :: l =>
      match f.place with
      | .lost x =>
        let s0 := leaveTags s k
        let s1 := emptyOver (clearChain (setQueue s0 k { q with frames := l, occ := q.occ - f.charge }) f.handle) k
        let s2 := queueCount (flag s1 pgTMQ TMQ_F_LOST) k 7 TMQ_C_LOST_PKTS 1
        dropLost n (bump s2 (pgCXL x) CXL_C_LOST_PKTS 1) k
      | _ => s

/-- Take the head frame out of a queue (R206, R212): its charge goes, and lost frames behind it are dropped. -/
def popHead (s : State) (k : Nat) : State :=
  let q := queueOf s k
  match q.frames with
  | [] => s
  | f :: l =>
    let s1 := setQueue s k { q with frames := l, occ := q.occ - f.charge }
    let s2 := queueCount (queueCount s1 k 2 TMQ_C_DEQ_PKTS 1) k 3 TMQ_C_DEQ_BYTES f.len
    dropLost l.length (trace s2 pgTMS 7 0 f.mark (k % 65536) f.len 0) k

/-- The part of a bonded unit that the served fragment carries (R139, R141): its payload bytes, and whether it is the first and
the last. The member's split counter and the group's sequence number move on. -/
def serveFragment (s : State) (p g c : Nat) (f : QFrame) : State × Nat × Bool :=
  let r := grp s p g
  let n := min r.fragMax (f.len - f.sent)
  let add := n * 65536 / max 1 (if c = 1 then r.wX else r.wH)
  let s1 := setGrp s p g { r with dsSeq := (r.dsSeq + 1) % seqMod,
                                  sX := if c = 1 then r.sX + add else r.sX, sH := if c = 2 then r.sH + add else r.sH }
  let s2 := grpBump (grpBump s1 p g (if c = 1 then BND_C_DS_FRAGS_X else BND_C_DS_FRAGS_H) 1) p g BND_C_DS_BYTES n
  (s2, n, f.len ≤ f.sent + n)

end Sys2Proof.Machine
end

