-- ==== Sys2Proof/Machine/Queue.lean ====
section
/-! DEFINITION. The queue manager (R205 to R213): admission, the two tiers, enqueue, prefetch, spill and migration. -/

namespace Sys2Proof.Machine

/-! ### Spill shares (R209, R210) -/

/-- The downstream queues that differ from reset. -/
def dsQueues (s : State) : List (Nat × Queue) := s.tm.q.filter (fun e => e.1 < 65536)

/-- w_s: the reservations of slice v's downstream queues. -/
def sliceRsv (s : State) (v : Nat) : Nat :=
  (((dsQueues s).filter (fun e => ownerOfQueue s e.1 == v)).map (fun e => e.2.rsv)).sum

/-- W: the reservations of every downstream queue. -/
def allRsv (s : State) : Nat := ((dsQueues s).map (fun e => e.2.rsv)).sum

/-- A slice's share of n bytes (R210). -/
def shareOf (s : State) (v n : Nat) : Nat := if allRsv s = 0 then 0 else n * sliceRsv s v / allRsv s

/-- The bytes of a queue's frames that lie in a place. -/
def Queue.bytesIn (q : Queue) (p : Place → Bool) : Nat := ((q.frames.filter (fun f => p f.place)).map (·.charge)).sum

/-- The bytes of a slice's frames that lie in a place. -/
def sliceBytes (s : State) (v : Nat) (p : Place → Bool) : Nat :=
  (((dsQueues s).filter (fun e => ownerOfQueue s e.1 == v)).map (fun e => e.2.bytesIn p)).sum

/-- All bytes that lie in a place. -/
def allBytes (s : State) (p : Place → Bool) : Nat := ((dsQueues s).map (fun e => e.2.bytesIn p)).sum

/-- The staging area in bytes (R210). -/
def stagingSize (s : State) : Nat := fld s pgTMQ TMQ_SPILL_BACKLOG * 4096

/-- HELD_POOL in 4 KiB units (R210): the stacked share less its drain reserve, the replication pool, the staging area and the
warm shares of all downstream queues. -/
def heldPool (s : State) : Int :=
  (lessReserve s (fld s pgHBM HBM_BUF_GIB * unitsPerGib) : Int) - (replGranules s * 10 : Nat) - (fld s pgTMQ TMQ_SPILL_BACKLOG : Nat) -
    (65536 * 64 : Nat) - ((dsQueues s).map (fun e => (e.2.warm : Int) - 64)).sum

/-- May a payload of c bytes be staged for slice v: within its share, or while the staging area has room (R209, R210)? -/
def mayStage (s : State) (v c : Nat) : Bool :=
  let st : Place → Bool := fun p => p == .staged
  sliceBytes s v st + c ≤ shareOf s v (stagingSize s) || allBytes s st + c ≤ stagingSize s

/-- May it be held in the stacked tier: within the slice's share, or from granules that no slice's share needs (R210)? -/
def mayHold (s : State) (v c : Nat) : Bool :=
  let h : Place → Bool := fun p => p == .held
  let pool := (heldPool s).toNat * 4096
  let mine := sliceBytes s v h
  mine + c ≤ shareOf s v pool ||
  (((List.range 32).map (fun w => max (sliceBytes s w h + (if w = v then c else 0)) (shareOf s w pool))).sum ≤ pool)

/-- Where a payload beyond the warm share goes (R207, R209, R210), none for a drop: to staging while an expander has a granule,
otherwise held in the stacked tier; either takes what the other may not. -/
def spillPlace (s : State) (v c : Nat) : Option Place :=
  let granule : Bool := drainReserve s 2 < freeGranules s 2 || 0 < freeGranules s 2
  let stage := if mayStage s v c then some Place.staged else none
  let hold := if mayHold s v c then some Place.held else none
  if granule then stage.or hold else hold.or stage

/-! ### Admission (R206, R213) -/

/-- What admission finds. -/
inductive Admit where
  | ok
  | colour
  | tail
  deriving DecidableEq, Repr

/-- The judgement of R206 for a charge of c bytes, with no shared admission while shared use stands above the shared remainder (R205); `own` is what the frame's own buffer already counts in the shared use. -/
def admitIn (s : State) (k c colour own : Nat) : Admit :=
  let q := queueOf s k
  let n := q.occ + c
  let limit := if colour = 2 then q.red else if colour = 1 then q.yel else q.max_
  if limit * 4096 < n then (if colour = 0 then .tail else .colour)
  else if n ≤ q.rsv * 4096 then .ok
  else
    let part := n - max q.occ (q.rsv * 4096)
    if !sharedOver s && sharedUse s - own + part ≤ sharedSize s then .ok else .tail

/-- The published level of an uplink-bound queue (R213). -/
def bpLevel (s : State) (j : Nat) : Nat :=
  let q := queueOf s (upKey j)
  if q.max_ * 4096 < q.occ + 10240 then 3 else if q.t2 * 4096 ≤ q.occ then 2 else if q.t1 * 4096 ≤ q.occ then 1 else 0

/-! ### Enqueue (R203, R206, R207) -/

/-- How an enqueue ended. -/
inductive EnqOut where
  | done
  | dropped
  | waits
  deriving DecidableEq, Repr

/-- A frame that a queue refuses: its buffer reference is freed (R206). -/
def refuseFrame (s : State) (p : Packet) (owner : Nat) : State :=
  match p.handle with
  | some h => freeBuf s h owner false
  | none => s

/-- Count a tail drop (R206, R213). -/
def tailDrop (s : State) (k len : Nat) : State :=
  bump (queueCount (flag s pgTMQ TMQ_F_TAIL_DROP) k 4 TMQ_C_TAIL_DROP_PKTS 1) pgTMQ TMQ_C_TAIL_DROP_BYTES len

/-- Wake the nodes over a queue that was empty (R195): the queue under its parent, and each ONU node that had nothing waiting
under its channel. `idle` are the ONU nodes that had nothing. -/
def wakeOver (s : State) (k : Nat) (idle : List Nat) : State :=
  if k < 65536 then
    let s1 := wakeNode s lvQueue k (node s lvOnu (parentOf s k)).v
    idle.foldl (fun t u => wakeNode t lvOnu u (node t lvChannel (channelOf t u)).v) s1
  else wakeNode s lvUp (k - 65536) (node s lvPort (queueOf s k).parent).v

/-- Link a frame into its queue. -/
def linkFrame (s : State) (k : Nat) (f : QFrame) : State :=
  let s1 := refreshOver s k
  let empty : Bool := !backlogged s k
  let idle := if k < 65536 then (onusOf s k).filter (fun u => !waiting s lvOnu u) else []
  let q := queueOf s1 k
  let s2 := setQueue s1 k { q with frames := q.frames ++ [f], occ := q.occ + f.charge }
  let s3 := queueCount (queueCount s2 k 0 TMQ_C_ENQ_PKTS 1) k 1 TMQ_C_ENQ_BYTES f.len
  let s4 := trace s3 pgTMQ 6 0 f.mark (k % 65536) f.len 0
  if empty then wakeOver s4 k idle else s4

/-- The bytes that a frame without a buffer in the stacked tier will be charged (R200, R206). -/
def chargeLen (n : Nat) : Nat := n / 10241 * 10240 + poolBytes (poolFor 0 (n - n / 10241 * 10240))

/-- Where an admitted frame's payload goes (R207): an uplink-bound queue keeps it in the stacked tier (R213); downstream below the
warm share it is stacked, beyond it it spills. -/
def placeOf (s : State) (k c : Nat) : Option Place :=
  if 65536 ≤ k then some .stacked
  else
    let q := queueOf s k
    if q.bytesIn (fun p => p == .stacked) < q.warm * 4096 then some .stacked else spillPlace s (ownerOfQueue s k) c

/-- The stacked buffer of an enqueued frame (R199, R203): the packet's own one passes to the queue; a replica shares it by its
count, or takes a buffer of the replication pool; a landing buffer is copied into a new one and freed. -/
def stackedBuf (s : State) (k : Nat) (p : Packet) (repl : Bool) (owner : Nat) : Option (Nat × State) :=
  let party := queueParty k
  let copy := fun r => askBytes s r party 1 p.len
  match p.handle with
  | none => copy (if repl then 7 else 6)
  | some h =>
    if repl then
      if handleTier h = 1 then
        let a := addRef s h party
        if a.2 then some (h, a.1) else (askBytes a.1 7 party 1 p.len)
      else copy 7
    else if handleTier h = 1 then some (h, passBuf s h owner party)
    else (copy 6).map (fun x => (x.1, freeBuf x.2 h owner false))

/-- The payload's place and counts when it leaves the warm share (R207, R209). -/
def notePlace (s : State) (pl : Place) : State :=
  if pl = .held then note s pgTMQ TMQ_F_SPILL_HELD TMQ_C_SPILL_HELD else s

/-- Is enqueue on for a queue (R215 DS_EN, US_EN), and does it take traffic: the side of a pair in SYNCING or STANDBY takes none
(R267)? -/
def standbyPort (s : State) (k : Nat) : Bool :=
  k < 65536 && (onusOf s k).any (fun u =>
    let r := pair s (u / 512)
    r.en && (r.state == pSyncing || r.state == pStandby)) &&
  !(onusOf s k).any (fun u => let r := pair s (u / 512); !r.en || !(r.state == pSyncing || r.state == pStandby))

/-- Does a packet name an ONU that has no queue (R206)? -/
def noQueueFor (s : State) (p : Packet) : Bool :=
  match p.dest with
  | some (0, u) => (onuRange s u).2 == 0 && (groupsOf s u) == []
  | _ => false

/-- The bytes of a packet that the shared remainder is charged with already (R206). -/
def ownCharge (s : State) (p : Packet) : Nat :=
  match p.handle with
  | some h => if (buf s h).tag / 4096 = 2 && handleTier h = 1 then chargeOf s h else 0
  | none => 0

/-- The bytes a packet is charged in a queue (R206). -/
def chargeFor (s : State) (p : Packet) : Nat :=
  match p.handle with
  | some h => if handleTier h = 1 then chargeOf s h else chargeLen p.len
  | none => chargeLen p.len

/-- A packet that is not queued: the trace record of its drop, and its buffer goes unless it is a replica. -/
def dropPacket (k : Nat) (p : Packet) (repl : Bool) (owner : Nat) (s : State) : State :=
  let s1 := trace s pgTMQ 6 1 p.tag (k % 65536) p.len 0
  if repl then s1 else refuseFrame s1 p owner

/-- R206 to R213 whole, with the trace record of point 6 (R331): enqueue packet p to queue k. `owner`
is the party that passes the buffer on, `c` the context that waits for the outcome. A frame for an ONU without queues, or for no
queue at all, is dropped (R191). -/
def enqueue (s : State) (k : Nat) (p : Packet) (repl : Bool) (owner : Nat) (c : Option CtxId) : State × EnqOut :=
  let drop := dropPacket k p repl owner
  if noQueueFor s p || 65536 + 8192 ≤ k then (drop (note s pgTMQ TMQ_F_NO_QUEUE TMQ_C_NO_QUEUE), .dropped)
  else if !active s pgTMQ (if k < 65536 then TMQ_DS_EN else TMQ_US_EN) then (drop (tailDrop s k p.len), .dropped)
  else if standbyPort s k then (drop (bump s pgPRT PRT_C_STANDBY_DROP 1), .dropped)
  else
    let charge := chargeFor s p
    match admitIn s k charge p.colour (ownCharge s p) with
    | .colour => (drop (queueCount (flag s pgTMQ TMQ_F_COLOUR_DROP) k 5 TMQ_C_COLOUR_DROP 1), .dropped)
    | .tail => (drop (tailDrop s k p.len), .dropped)
    | .ok =>
      match placeOf s k charge with
      | none => (drop (queueCount (flag s pgTMQ TMQ_F_SPILL_BW_DROP) k 6 TMQ_C_SPILL_BW_DROP 1), .dropped)
      | some pl =>
        match stackedBuf s k p repl owner with
        | some (h, s1) =>
          (linkFrame (notePlace s1 pl) k ⟨h, p.len, charge, pl, p.flow, p.bytes, 0, p.tag⟩, .done)
        | none =>
          let w := waitOrRefuse s ⟨if repl then 7 else 6, p.len, .enqueue k p repl owner c⟩
          if w.2 then (w.1, .waits) else (drop (tailDrop w.1 k p.len), .dropped)

/-! ### Tier moves (R208, R210, R211) -/

/-- Replace frame i of a queue. -/
def setFrame (s : State) (k i : Nat) (f : QFrame) : State :=
  let q := queueOf s k
  setQueue s k { q with frames := q.frames.set i f }

/-- Move frame i of a queue to buffers of another tier (R208): write the new copy, relink the record, free the old buffer.
`none` when the requester finds no buffer. -/
def moveFrame (s : State) (k i r tier : Nat) (f : QFrame) : Option State :=
  match askBytes s r (queueParty k) tier f.len with
  | none => none
  | some (h, s1) =>
    let pl := if tier = 1 then Place.stacked else Place.expander (handleExp h)
    some (dropRef (setFrame s1 k i { f with handle := h, place := pl }) f.handle (queueParty k))

/-- The first frame of a list, with its position, that satisfies a test. -/
def firstFrame (t : QFrame → Bool) : Nat → List QFrame → Option (Nat × QFrame)
  | _, [] => none
  | i, f :: l => if t f then some (i, f) else firstFrame t (i + 1) l

/-- The frames within 8 KiB of a queue's head (R208). -/
def nearHead : Nat → List QFrame → List QFrame
  | _, [] => []
  | n, f :: l => if n < 8192 then f :: nearHead (n + f.len) l else []

/-- The expander a frame's payload lies on. -/
def QFrame.exp? (f : QFrame) : Option Nat :=
  match f.place with
  | .expander x => some x
  | _ => none

/-- Prefetch the first expander-resident frame near a queue's head (R208). Answers whether it found a buffer. -/
def prefetch (s : State) (k : Nat) : Option State :=
  match firstFrame (fun f => f.exp?.isSome) 0 (nearHead 0 (queueOf s k).frames) with
  | none => some s
  | some (i, f) =>
    (moveFrame s k i 5 1 f).map (fun s1 =>
      bump (bump s1 pgTMQ TMQ_C_PREFETCH_BYTES f.len) (pgCXL (f.exp?.getD 0)) CXL_C_PREFETCH_RD_BYTES f.len)

/-- A frame on expander x, with its queue and place (R211). -/
def frameOn (s : State) (x : Nat) : Option (Nat × Nat × QFrame) :=
  (dsQueues s).findSome? (fun e => (firstFrame (fun f => f.exp? == some x) 0 e.2.frames).map (fun r => (e.1, r.1, r.2)))

/-- Move one buffer off expander x (R211): to another expander, or else to the stacked tier. -/
def migrateOne (s : State) (x : Nat) : Option State :=
  match frameOn s x with
  | none => some s
  | some (k, i, f) =>
    ((moveFrame s k i 24 2 f).or (moveFrame s k i 24 1 f)).map (fun s1 => bump s1 (pgCXL x) CXL_C_MIGRATED_BYTES f.len)

/-- The oldest staged frame of slice v, with its queue and place. -/
def stagedOf (s : State) (v : Nat) : Option (Nat × Nat × QFrame) :=
  ((dsQueues s).filter (fun e => ownerOfQueue s e.1 == v)).findSome? (fun e =>
    (firstFrame (fun f => f.place == .staged) 0 e.2.frames).map (fun r => (e.1, r.1, r.2)))

/-- The slices with staged payloads that have reservations, or all of them where none of those has one (R210). -/
def spillSlices (s : State) : List Nat :=
  let l := (List.range 32).filter (fun v => (stagedOf s v).isSome)
  let g := l.filter (fun v => 0 < sliceRsv s v)
  if g = [] then l else g

/-- The deficit round robin of R210 from the slice in turn: a slice whose deficit covers its oldest staged payload is served,
otherwise its deficit grows by its reservation and the turn passes. -/
def drrPick (s : State) (l : List Nat) : Nat → Tbl Nat → Nat → Option (Nat × Tbl Nat × Nat)
  | 0, _, _ => none
  | n + 1, d, at_ =>
    match l.find? (fun v => at_ ≤ v) with
    | none => match l.head? with
      | none => none
      | some _ => drrPick s l n d 0
    | some v =>
      let c := match stagedOf s v with
        | some (_, _, f) => f.charge
        | none => 0
      let have_ := tget dzero d v
      if c ≤ have_ then some (v, tset dzero d v (have_ - c), v)
      else drrPick s l n (tset dzero d v (have_ + max 4096 (sliceRsv s v * 4096))) (v + 1)

/-- One spill write (R209, R210). -/
def spillOne (s : State) : State :=
  match drrPick s (spillSlices s) 1024 s.tm.drr s.tm.drrAt with
  | none => s
  | some (v, d, at_) =>
    match stagedOf s v with
    | none => s
    | some (k, i, f) =>
      match moveFrame s k i 6 2 f with
      | none => s
      | some s1 =>
        let x := handleExp ((queueOf s1 k).frames.getD i f).handle
        bump (bump { s1 with tm := { s1.tm with drr := d, drrAt := at_ } } pgTMQ TMQ_C_SPILL_BYTES f.len) (pgCXL x)
          CXL_C_SPILL_WR_BYTES f.len

/-! ### Loss of an expander (R212) -/

/-- Every frame whose payload lay on x is lost. -/
def loseFrames (s : State) (x : Nat) : State :=
  (dsQueues s).foldl (fun t e =>
    let s1 := setQueue t e.1 { e.2 with
      frames := e.2.frames.map (fun f => if f.exp? = some x then { f with place := .lost x } else f) }
    dropLost e.2.frames.length s1 e.1) s

/-- An expander link lost without migration (R212): STATE 5, LINK_LOST, the fault collector is notified, its frames are dropped at
the head of their queues, and RSV_CAP falls at once. -/
def loseExpander (s : State) (x : Nat) : State :=
  let s1 := raise (setFld s (pgCXL x) CXL_STATE xLost) (pgCXL x) CXL_F_LINK_LOST []
  notice (settlePools s (loseFrames s1 x)) 54 none

end Sys2Proof.Machine
end

