-- ==== Sys2Proof/Machine/QueueCmd.lean ====
section
/-! DEFINITION. The commands of the queue manager, the schedulers, the buffer pools and the expanders (R191, R196 to R198,
R201, R205, R208 to R213, R215, R246, R247). -/

namespace Sys2Proof.Machine

/-! ### The queue window (R215 TMQ) -/

/-- Set the status bits of the queue window. -/
def qStat (s : State) (own rej : Bool) : State :=
  setBit (setBit s pgTMQ TMQ_OWN_ERR own) pgTMQ TMQ_REJECT rej

/-- The queue that the window names, if there is one: 65,536 downstream and 8,192 uplink-bound queues. -/
def qSel (s : State) : Option Nat :=
  let i := fld s pgTMQ TMQ_Q_IDX
  if isSet s pgTMQ TMQ_UPQ then (if i < 8192 then some (upKey i) else none) else some i

/-- The state words of the window, 0x08C to 0x0A8, as a queue shows them. -/
def queueWords (s : State) (k : Nat) : List Word :=
  let q := queueOf s k
  let lvl := if 65536 ≤ k then bpLevel s (k - 65536) else 0
  [BitVec.ofNat 32 (parentOf s k), BitVec.ofNat 32 (q.rsv + q.warm <<< 16), BitVec.ofNat 32 q.max_,
   BitVec.ofNat 32 (q.yel + q.red <<< 16), BitVec.ofNat 32 (q.t1 + q.t2 <<< 16), BitVec.ofNat 32 q.occ,
   BitVec.ofNat 32 (q.bytesIn (fun p => match p with | .expander _ => true | _ => false)),
   BitVec.ofNat 32 (lvl + (q.frames != []).toNat <<< 2)]

/-- Put words into the queue window. -/
def showQueueWords (s : State) (ws cs : List Word) : State :=
  setWords (setWords s (pgTMQ + TMQ_PARENT.off) ws) (pgTMQ + TMQ_Q_CNT.off) cs

/-- A command of the queue window: the queue must exist and be the slice's. -/
def queueCmd (o : Origin) (body : State → Nat → State × Nat) (s : State) : State :=
  command o (pgTMQ + TMQ_Q_CMD.off) (pgTMQ + TMQ_Q_IDX.off) (fun s =>
    match qSel s with
    | none => (qStat s false true, 1)
    | some k =>
      if mayUse (Origin.slice o) (ownerOfQueue s k) then body s k
      else (showQueueWords (qStat s true false) (List.replicate 8 0) (List.replicate 16 0), 2)) s

/-- QUEUE_READ (R215): Q_CMD 1. -/
def execQueueRead (o : Origin) (s : State) : Res :=
  .next (queueCmd o (fun s k =>
    (showQueueWords (qStat s false false) (queueWords s k) (cntWords 8 (queueOf s k).cnts), 0)) s)

/-- The queue that the window's words set up (R205, R213): PARENT and the thresholds belong to uplink-bound queues, WARM to
downstream ones. -/
def queueOfWindow (s : State) (k : Nat) : Queue :=
  let q := queueOf s k
  let f := fld s pgTMQ
  let r := { q with rsv := f TMQ_RSV, max_ := f TMQ_MAX, yel := f TMQ_YEL_T, red := f TMQ_RED_T }
  if 65536 ≤ k then { r with parent := f TMQ_PARENT, t1 := f TMQ_BP_T1, t2 := f TMQ_BP_T2 }
  else { r with warm := f TMQ_WARM }

/-- Is a queue's setting outside the ranges of R205 and R213? -/
def queueBad (k : Nat) (q : Queue) : Bool :=
  8192 < q.rsv ||
  (if 65536 ≤ k then 23 < q.parent || 8192 < q.max_ || q.t2 < q.t1 || q.max_ < q.t2 else 8192 < q.warm)

/-- Does the write take the reservations above their cap (R205), or the held pool below 0 (R210)? A write that does not raise RSV
or change WARM is not stopped by a sum that a lost expander left too high. -/
def rsvRejected (s : State) (k : Nat) (n : Queue) : Bool :=
  let q := queueOf s k
  let t := setQueue s k n
  (q.rsv < n.rsv && rsvCap t < rsvSum t) || (n.warm != q.warm && heldPool t < 0)

/-- QUEUE_WRITE (R205, R210, R213): Q_CMD 2. -/
def execQueueWrite (o : Origin) (s : State) : Res :=
  .next (queueCmd o (fun s k =>
    let n := queueOfWindow s k
    if queueBad k n then (qStat s false true, 1)
    else if rsvRejected s k n then (flag (qStat s false true) pgTMQ TMQ_F_RSV_REJ, 1)
    else (settlePools s (setQueue (qStat s false false) k n), 0)) s)

/-- QUEUE_COUNTER_CLEAR (R215): Q_CMD 3. -/
def execQueueCounterClear (o : Origin) (s : State) : Res :=
  .next (queueCmd o (fun s k =>
    (setQueue (qStat s false false) k { queueOf s k with cnts := List.replicate 8 0 }, 0)) s)

/-! ### ONU entries (R191) -/

/-- The entry of the same record on the other port of an enabled pair with both ports on the device (R191, R278). -/
def twinOf (s : State) (u : Nat) : Option Nat :=
  let r := pair s (u / 512)
  if r.en && r.kind == 0 then some (512 * r.peerPort + u % 512) else none

/-- Do two ranges share a queue? -/
def rangesMeet (a b : Nat × Nat) : Bool := a.2 != 0 && b.2 != 0 && a.1 < b.1 + b.2 && b.1 < a.1 + a.2

/-- Does R191 reject range `n` for entry u? -/
def onuRangeRejected (s : State) (u : Nat) (n : Nat × Nat) : Bool :=
  64 < n.2 || 65536 < n.1 + n.2 ||
  s.tm.onu.any (fun e => e.1 != u &&
    (if twinOf s u = some e.1 then n.2 != 0 && e.2.2 != 0 && e.2 != n else rangesMeet n e.2)) ||
  s.pon.grp.any (fun e => e.2.valid && n.1 ≤ e.2.dsQ && e.2.dsQ < n.1 + n.2 &&
    512 * (e.1 / 64) + e.2.onuX != u && 512 * (e.1 / 64) + e.2.onuH != u)

/-- A command of the ONU window of TMQ. -/
def tmqOnuCmd (o : Origin) (body : State → Nat → State × Nat) (s : State) : State :=
  command o (pgTMQ + TMQ_ONU_CMD.off) (pgTMQ + TMQ_ONU_NODE.off) (fun s =>
    let u := fld s pgTMQ TMQ_ONU_NODE
    if mayUse (Origin.slice o) (onuOwner s (u / 512) (u % 512)) then body (qStat s false false) u
    else (setReg (qStat s true false) (pgTMQ + TMQ_QBASE.off) 0, 2)) s

/-- TMQ_ONU_READ (R191): ONU_CMD 1. -/
def execTmqOnuRead (o : Origin) (s : State) : Res :=
  .next (tmqOnuCmd o (fun s u =>
    let r := onuRange s u
    (setFld (setFld s pgTMQ TMQ_QBASE r.1) pgTMQ TMQ_QCOUNT r.2, 0)) s)

/-- TMQ_ONU_WRITE (R191): ONU_CMD 2. -/
def execTmqOnuWrite (o : Origin) (s : State) : Res :=
  .next (tmqOnuCmd o (fun s u =>
    let n := (fld s pgTMQ TMQ_QBASE, fld s pgTMQ TMQ_QCOUNT)
    if onuRangeRejected s u n then (flag (qStat s false true) pgTMQ TMQ_F_ONU_REJ, 1)
    else ({ s with tm := { s.tm with onu := tset (fun _ => (0, 0)) s.tm.onu u n } }, 0)) s)

/-! ### Nodes (R194 to R198) -/

/-- Set the status bits of the node window. -/
def nodeStat (s : State) (own rej : Bool) : State := setFld s pgTMS TMS_STAT (2 * own.toNat + 4 * rej.toNat)

/-- The owner of a node: of its port, its ONU or its queue (R26, R215). -/
def ownerOfNode (s : State) (lv i : Nat) : Nat :=
  match lv with
  | 0 => portOwner s (i / 3)
  | 1 => onuOwner s (i / 512) (i % 512)
  | 2 => ownerOfQueue s i
  | 3 => pageOwner s (pgETH i)
  | _ => queueOwner s i

/-- The words of the node window, 0x08C to 0x0B4. -/
def nodeWords (s : State) (lv i : Nat) : List Word :=
  let n := node (refreshNode s lv i) lv i
  let f := if lv = 2 then queueTag s lv i i else if lv = 4 then queueTag s lv i (upKey i) else if lv = 1 then onuTag s i else n.f
  let c := unsignedOf 48 n.credit
  [BitVec.ofNat 32 (n.weight + unsignedOf 7 n.lenAdj <<< 16 + n.shapeEn.toNat <<< 23), BitVec.ofNat 32 n.rate,
   BitVec.ofNat 32 n.creditHi, BitVec.ofNat 32 n.burst, BitVec.ofNat 32 (n.mode.toNat + settleLeft s n <<< 1),
   BitVec.ofNat 32 f, BitVec.ofNat 32 (f >>> 32), BitVec.ofNat 32 n.v, BitVec.ofNat 32 (n.v >>> 32),
   BitVec.ofNat 32 c, BitVec.ofNat 32 (c >>> 32)]

/-- A command of the node window: LEVEL and the node must exist, and the node be the slice's. -/
def nodeCmd (o : Origin) (body : State → Nat → Nat → State × Nat) (s : State) : State :=
  command o (pgTMS + TMS_NODE_CMD.off) (pgTMS + TMS_NODE_IDX.off) (fun s =>
    let lv := fld s pgTMS TMS_LEVEL
    let i := fld s pgTMS TMS_NODE_IDX
    if levelNodes lv ≤ i then (flag (nodeStat s false true) pgTMS TMS_F_NODE_REJ, 1)
    else if mayUse (Origin.slice o) (ownerOfNode s lv i) then body (nodeStat s false false) lv i
    else (setWords (nodeStat s true false) (pgTMS + TMS_WEIGHT.off) (List.replicate 11 0), 2)) s

/-- NODE_READ (R215): NODE_CMD 1. -/
def execNodeRead (o : Origin) (s : State) : Res :=
  .next (nodeCmd o (fun s lv i => (setWords s (pgTMS + TMS_WEIGHT.off) (nodeWords s lv i), 0)) s)

/-- The node that the window's words set up. -/
def nodeOfWindow (s : State) (n : Node) : Node :=
  { n with weight := fld s pgTMS TMS_WEIGHT, lenAdj := fldS s pgTMS TMS_LEN_ADJ, shapeEn := isSet s pgTMS TMS_SHAPE_EN,
           rate := fld s pgTMS TMS_RATE, creditHi := fld s pgTMS TMS_CREDIT_HI, burst := fld s pgTMS TMS_BURST }

/-- NODE_WRITE (R194, R196, R197): NODE_CMD 2. WEIGHT 0, and SHAPE_EN with RATE 0, are rejected; a write that turns shaping on
starts a settle period. -/
def execNodeWrite (o : Origin) (s : State) : Res :=
  .next (nodeCmd o (fun s lv i =>
    let s1 := refreshNode s lv i
    let n := nodeOfWindow s (node s1 lv i)
    if n.weight = 0 ∨ (n.shapeEn ∧ n.rate = 0) then (flag (nodeStat s false true) pgTMS TMS_F_NODE_REJ, 1)
    else
      let s2 := setNode s1 lv i { n with at_ := gtNow s }
      (if n.shapeEn && !(node s lv i).shapeEn then startSettle s2 [(lv, i)] else s2, 0)) s)

/-- NODE_SETTLE (R197): NODE_CMD 3. -/
def execNodeSettle (o : Origin) (s : State) : Res :=
  .next (nodeCmd o (fun s lv i => (startSettle s [(lv, i)], 0)) s)

/-- SETTLE_END (R198): at the end of its settle period a node's credit takes min(tokens, CREDIT_HI), the node returns to credit
mode, and an empty node gives up a positive credit. -/
def execSettleEnd (level : Fin 5) (i : Nat) (s : State) : Res :=
  let n := node s level i
  if i < levelNodes level ∧ n.mode ∧ (settleOf s n).1 + (settleOf s n).2 ≤ frame s then
    let s1 := refreshNode s level i
    let m := node s1 level i
    let s2 := setNode s1 level i { m with mode := false, credit := min m.credit ((m.creditHi * 65536 : Nat) : Int), at_ := gtNow s }
    .next (flag (emptyNode s2 level i) pgTMS TMS_F_SETTLE_END)
  else .next s

/-! ### Tier moves and waits -/

/-- Does a prefetch into queue k wait already? -/
def prefetchWaits (s : State) (k : Nat) : Bool :=
  s.tm.wait.any (fun e => e.2.any (fun w => w.who == .prefetch k))

/-- PREFETCH_MOVE (R208): without a buffer the move waits in the pool's queue (R201). -/
def execPrefetchMove (q : Fin 65536) (s : State) : Res :=
  match prefetch s q with
  | some s1 => .next (settlePools s s1)
  | none =>
    if prefetchWaits s q then .next s
    else
      let n := match firstFrame (fun f => f.exp?.isSome) 0 (nearHead 0 (queueOf s q).frames) with
        | some (_, f) => f.len
        | none => 0
      .next (publishPools (waitOrRefuse s ⟨5, n, .prefetch q⟩).1)

/-- SPILL_WRITE (R209, R210). -/
def execSpillWrite (s : State) : Res := .next (settlePools s (spillOne s))

/-- Answer a context's buffer request with its handle (R154, R155). -/
def answerBpm (s : State) (c : CtxId) (r : UnitRes) : State := if (ctx s c).bpm = .waiting then setCtx s c { ctx s c with bpm := .ready r } else s

/-- Answer a context's enqueue (R155): refused when the frame was dropped. -/
def answerTmq (s : State) (c : Option CtxId) (out : EnqOut) : State :=
  match c with
  | none => s
  | some x =>
    if (ctx s x).tmq = .waiting then setCtx s x { ctx s x with tmq := .ready { UnitRes.plain with refused := out == .dropped } } else s

/-! ### Expanders (R211, R212, R246) -/

/-- A command of an expander's page. -/
def cxlCmd (o : Origin) (x : Fin 4) (body : State → State × Nat) (s : State) : State :=
  command o (pgCXL x + CXL_CMD.off) (pgCXL x + CXL_CMD.off) body s

/-- CXL_MIGRATE (R211): CMD 1 takes effect on an expander that is up, unless the reservations need its share. -/
def execCxlMigrate (o : Origin) (x : Fin 4) (s : State) : Res :=
  .next (cxlCmd o x (fun s =>
    if expState s x ≠ xUp then (s, 8)
    else if rsvCap s - expShare s x < rsvSum s then (flag s (pgCXL x) CXL_F_REMOVE_REJ, 1)
    else (settlePools s (setFld s (pgCXL x) CXL_STATE xMigrating), 0)) s)

/-- CXL_CANCEL (R211): CMD 2 ends a migration. -/
def execCxlCancel (o : Origin) (x : Fin 4) (s : State) : Res :=
  .next (cxlCmd o x (fun s =>
    if expState s x ≠ xMigrating then (s, 8) else (settlePools s (setFld s (pgCXL x) CXL_STATE xUp), 0)) s)

/-- CXL_LINK_DOWN (R211, R212): CMD 3 resets an empty expander; one that still holds payload is lost. -/
def execCxlLinkDown (o : Origin) (x : Fin 4) (s : State) : Res :=
  .next (cxlCmd o x (fun s =>
    if (expState s x = xUp ∨ expState s x = xMigrating) ∧ usedOn s x ≠ [] then (loseExpander s x, 0)
    else (resetScope s (54) (.expander x) none, 0)) s)

/-- CXL_LINK_UP (R246): CMD 4 trains the link and reads the capacity; up to 512 GiB of it is used. `capGib` 0 stands for a link
that does not train. -/
def execCxlLinkUp (o : Origin) (x : Fin 4) (capGib : Nat) (s : State) : Res :=
  .next (cxlCmd o x (fun s =>
    if expState s x = xTraining ∨ expState s x = xUp ∨ expState s x = xMigrating then (s, 8)
    else if capGib = 0 then
      let s1 := setFld s (pgCXL x) CXL_STATE xTraining
      let s2 : State := { s1 with tm := { s1.tm with exp := tset dnone s1.tm.exp x (some (frame s)) } }
      (showUses s2 (236 + 8 * x) 8, 0)
    else
      let s1 := setFld (setFld s (pgCXL x) CXL_STATE xUp) (pgCXL x) CXL_CAP_GIB (min 512 capGib)
      (settlePools s (raise (showUses s1 (236 + 8 * x) 8) (pgCXL x) CXL_F_LINK_UP []), 0)) s)

/-- CXL_TRAIN_TIMEOUT (R246): training not finished within 100 ms, which is 800 frames. -/
def execCxlTrainTimeout (x : Fin 4) (s : State) : Res :=
  match tget dnone s.tm.exp x with
  | none => .next s
  | some f =>
    if expState s x = xTraining ∧ f + 800 ≤ frame s then
      let s1 := showUses (setFld s (pgCXL x) CXL_STATE xOff) (236 + 8 * x) 8
      .next (flag { s1 with tm := { s1.tm with exp := tset dnone s1.tm.exp x none } }
        (pgCXL x) CXL_F_LINK_LOST)
    else .next s

/-- MIGRATION_DONE (R211): the last granule has left the expander. -/
def execMigrationDone (x : Fin 4) (s : State) : Res :=
  if expState s x = xMigrating ∧ usedOn s x = [] then
    .next (publishPools (raise (setFld s (pgCXL x) CXL_STATE xEmpty) (pgCXL x) CXL_F_MIG_DONE []))
  else .next s

/-- MIGRATION_BUFFER_MOVE (R208, R211): one buffer leaves the expander; without a buffer to move it to, the move waits (R201). -/
def execMigrationBufferMove (x : Fin 4) (s : State) : Res :=
  if expState s x ≠ xMigrating then .next s
  else
    match migrateOne s x with
    | some s1 => .next (settlePools s s1)
    | none =>
      if s.tm.wait.any (fun e => e.2.any (fun w => w.who == .migrate x)) then .next s
      else
        let n := match frameOn s x with
          | some (_, _, f) => f.len
          | none => 0
        .next (publishPools (waitOrRefuse s ⟨24, n, .migrate x⟩).1)

/-- EXPANDER_LINK_LOST (R212): an expander that is up, migrating or empty loses its link. -/
def execExpanderLinkLost (x : Fin 4) (s : State) : Res :=
  if expState s x = xUp ∨ expState s x = xMigrating ∨ expState s x = xEmpty then .next (loseExpander s x) else .next s

/-- STACK_FAIL (R247): the stack is out of use and the fault collector's HBM source sets; its default reaction is chip reset. -/
def execStackFail (stack : Fin 4) (s : State) : Res :=
  let ok := fld s pgHBM HBM_STACK_OK
  let s1 := setFld s pgHBM HBM_STACK_OK (if bitAt ok stack then ok - 2 ^ stack.val else ok)
  .next (notice (flag s1 pgHBM HBM_F_STACK_FAIL) 53 none)

end Sys2Proof.Machine
end

