-- ==== Sys2Proof/Machine/Receive.lean ====
section
/-! DEFINITION. One burst, from delimiter search to SDUs (R58 to R62, R65, R85, R91, R125, R222, R348), with the defects and
the performance counts that it feeds (R66, R70). -/

namespace Sys2Proof.Machine

/-- The flow index of the valid upstream entry of the granted ONU that carries a port ID (R62). -/
def usEntry (s : State) (p c i portId : Nat) : Option Nat :=
  (s.pon.xp.find? (fun e => e.1 / 8192 == p && e.2.valid && e.2.ch == c && e.2.portId == portId && e.2.onu == i &&
    !e.2.mcast && (e.2.dir == 2 || e.2.dir == 3))).map (·.1)

/-! ### Reassembly -/

/-- Discard a held partial SDU and count REASM_ABORT, once for the context (R61). -/
def abortPartial (s : State) (p i x : Nat) : State :=
  match reasm s x with
  | none => s
  | some _ => onuBump (flag (dropPartial s x) (pgCH p (onu s p i).ch) CH_F_REASM_ABORT) p i ONU_C_REASM_ABORT 1

/-- Discard every partial held for a port of the granted ONU (R61). -/
def abortAll (s : State) (p i : Nat) : State :=
  (s.pon.reasm.filter (fun e => e.1 / 8192 == p && (xpEntry s e.1).onu == i)).foldl (fun s e => abortPartial s p i e.1) s

/-- A whole SDU (R58): a bonded fragment goes to the merge, any other SDU to the packet engines. -/
def deliver (s : State) (p c i portId mapFrame len : Nat) (bytes : List Byte) : State :=
  let s1 := onuBump (onuBump s p i ONU_C_SDU_OK 1) p i ONU_C_SDU_BYTES len
  if (groupOfXgem s p c portId).isSome then
    { s1 with pon := { s1.pon with bondIn := s1.pon.bondIn ++ [⟨p, c, portId, len, mapFrame, bytes⟩] } }
  else handUp s1 (512 * p + i) len bytes

/-- One fragment of a port (R61). -/
def reassemble (s : State) (p c i x portId mapFrame : Nat) (first last : Bool) (len : Nat) (bytes : List Byte) : State :=
  let max := fld s (pgCH p c) CH_SDU_MAX
  let s0 := if first then abortPartial s p i x else s
  match (if first then some (⟨[], 0, frame s, false⟩ : Reasm) else reasm s0 x) with
  | none => onuBump s0 p i ONU_C_ORPHAN_FRAG 1
  | some r =>
    let n := r.len + len
    let long := r.tooLong || max < n
    let s1 := setReasm s0 x (if last then none else
      some ⟨if long then [] else r.bytes ++ bytes, n, frame s, long⟩)
    if !last then s1
    else if long then onuBump (flag s1 (pgCH p c) CH_F_SDU_OVERSIZE) p i ONU_C_SDU_OVERSIZE 1
    else deliver s1 p c i portId mapFrame n (r.bytes ++ bytes)

/-! ### Decryption -/

/-- Raise counter j of an upstream key slot. -/
def slotBump (e : KeyEntry) (j k : Nat) : KeyEntry :=
  let w := e.slot true j
  e.withSlot true j { w with cnts := w.cnts.set k (min cntMax (w.cnts.getD k 0 + 1)) }

/-- Is an ONU's upstream in sealed mode (R217, R220)? -/
def sealedUp (e : KeyEntry) : Bool := e.us0.mode == 2 || e.us1.mode == 2

/-- The check of an encrypted frame (R65, R222): the state after it, and the plaintext length when it passes. DESIGN CHOICE (log entry 35):
a frame that names a key index while ENC_EN is 0 is taken as clear, and no slot is checked. -/
def decrypt (s : State) (p c i : Nat) (g : GemIn) : State × Option Nat :=
  let u := 512 * p + i
  let e := keyEntry s u
  let j := g.keyIdx - firstSlot c
  let usable := firstSlot c ≤ g.keyIdx && j ≤ 1 && slotUsable s e j
  let idxErr := onuBump s p i ONU_C_KEY_IDX_ERR 1
  if c = 0 || g.keyIdx = 0 || !isSet s (pgCH p c) CH_ENC_EN then (s, some g.len)
  else if sealedUp e then
    match g.seal? with
    | none => (note s pgKEY KEY_F_SEAL_FMT KEY_C_SEAL_FMT, none)
    | some h =>
      if h.ver ≠ 1 ∨ g.len < 32 then (note s pgKEY KEY_F_SEAL_FMT KEY_C_SEAL_FMT, none)
      else if !usable then (idxErr, none)
      else if h.pn ≤ (e.slot true j).lastPn then
        (note (setKeyEntry s u (slotBump e j 3)) pgKEY KEY_F_REPLAY KEY_C_REPLAY, none)
      else if !h.tagOk then (note (setKeyEntry s u (slotBump e j 2)) pgKEY KEY_F_TAG_FAIL KEY_C_TAG_FAIL, none)
      else
        let e1 := slotBump (slotBump e j 0) j 1
        let e2 := e1.withSlot true j { e1.slot true j with lastPn := h.pn }
        (bump (setKeyEntry s u e2) pgKEY KEY_C_SEAL_OK 1, some (g.len - 24))
  else if !usable then (idxErr, none)
  else (setKeyEntry s u (slotBump e j 0), some g.len)

/-! ### Frames -/

/-- One GEM or XGEM frame whose header and length are good (R58, R62, R65): its port, its key, its reassembly. -/
def takeFrame (s : State) (p c i mapFrame : Nat) (g : GemIn) : State :=
  match usEntry s p c i g.portId with
  | none => onuBump (flag s (pgPON p) PON_F_US_UNKNOWN_PORT) p i ONU_C_US_UNKNOWN_PORT 1
  | some x =>
    match decrypt s p c i g with
    | (s1, some n) => reassemble s1 p c i x g.portId mapFrame g.first g.last n (g.bytes.take n)
    | (s1, none) => abortPartial s1 p i x

/-- Header bytes of a GEM or XGEM frame (R52). -/
def gemHeader (c : Nat) : Nat := if c = 0 then 5 else 8

/-- Delineation is lost `n` bytes before the burst's end (R59 to R61). -/
def loseTail (s : State) (p c i n : Nat) : State :=
  abortAll (onuBump (flag s (pgCH p c) CH_F_BURST_TAIL) p i ONU_C_TAIL_LOSS_BYTES n) p i

/-- The frames of a burst in order, with `left` payload bytes before its end (R59, R60, R85): the state after them, and
whether all of them could be delineated. The last `dead` bytes lie in a codeword that a tail cut made uncorrectable: a header there fails
its HEC. -/
def takeFrames (p c i mapFrame dead : Nat) : List GemIn → Nat → State → State × Bool
  | [], _, s => (s, true)
  | g :: l, left, s =>
    if left = 0 then (s, true)
    else if g.hec = .uncorrectable || left ≤ dead then (loseTail (onuBump s p i ONU_C_XGEM_HEC_UNCORR 1) p c i left, false)
    else
      let s1 := if g.hec = .correctable then onuBump s p i ONU_C_XGEM_HEC_CORR 1 else s
      if left < gemHeader c + g.len then
        (loseTail (onuBump (flag s1 (pgCH p c) CH_F_PLI_OVERRUN) p i ONU_C_PLI_OVERRUN 1) p c i left, false)
      else takeFrames p c i mapFrame dead l (left - (gemHeader c + g.len)) (takeFrame s1 p c i mapFrame g)

/-! ### FEC, reports, PLOAMs -/

/-- Bits a codeword had corrected. -/
def Codeword.bits : Codeword → Nat
  | .corrected n => n
  | _ => 0

/-- Payload bytes of an upstream codeword (R117, log entry 25). -/
def codewordBytes (rate : Nat) : Nat := if rate < 3 then (fecRate rate).1 else (fecRate rate).1 / 8

/-- The codewords of a burst that a tail cut ends after `n` payload bytes (R85): those wholly before the rise as they were received, and
the one that the rise cuts as uncorrectable. -/
def cutCodewords (rate n : Nat) (l : List Codeword) : List Codeword :=
  let k := codewordBytes rate
  l.take (n / k) ++ (if n % k ≠ 0 ∧ n / k < l.length then [.uncorrectable] else [])

/-- The codewords of a burst (R59). -/
def takeCodewords (s : State) (p i : Nat) (l : List Codeword) : State :=
  let corr := l.countP (fun w => match w with | .corrected _ => true | _ => false)
  let s1 := onuBump (onuBump s p i ONU_C_FEC_CW l.length) p i ONU_C_FEC_CORR_CW corr
  onuBump (onuBump s1 p i ONU_C_FEC_UNCORR_CW (l.countP (· == .uncorrectable))) p i ONU_C_FEC_CORR_BITS
    (l.map Codeword.bits).sum

/-- An upstream PLOAM (R59, R348): a bad check discards it, a full supervision queue drops it. -/
def takePloam (p c i : Nat) (s : State) (m : List Byte × Bool) : State :=
  let ch := chSt s p c
  if !m.2 then onuBump s p i ONU_C_PLOAMU_MIC_ERR 1
  else if supervisionMax ≤ ch.upq.length then flag s (pgCH p c) CH_F_PLOAMU_DROP
  else onuBump (setChSt s p c { ch with upq := ch.upq ++ [m.1] }) p i ONU_C_PLOAMU_OK 1

/-- Take the oldest message of a channel's supervision queue into an IDLE context, as its work item (R348, log entry 54). -/
def serveSupervision (s : State) (p c : Nat) : State :=
  let ch := chSt s p c
  match ch.upq, workCtx s 2 with
  | m :: l, some x =>
    let s1 := setChSt s p c { ch with upq := l }
    beginWork (setCtx s1 x { ctx s1 x with hw := hwOf m }) x 4
  | _, _ => s

/-- The supervision microcode takes messages while contexts are IDLE (R348). -/
def drainSupervision (s : State) (p c : Nat) : State :=
  (List.range (chSt s p c).upq.length).foldl (fun s _ => serveSupervision s p c) s

/-- An engine of a channel. -/
def allocCh (s : State) (p c : Nat) : AllocCh := tget AllocCh.init s.pon.alloc (3 * p + c)
def setAllocCh (s : State) (p c : Nat) (r : AllocCh) : State :=
  { s with pon := { s.pon with alloc := tset AllocCh.init s.pon.alloc (3 * p + c) r } }

/-- T_IN of the map of the next frame, as a fine-step index (R122). -/
def tInIndex (s : State) (p c : Nat) : Nat :=
  frame s * finePerFrame + (gtPerFrame - fld s (pgALC p c) ALC_BUILD_GT) * finePerGt

/-- A status report reaches the allocation engine (R122, R125), now; `late` marks one in the cycle of T_IN. -/
def takeReport (p c mapFrame : Nat) (late : Bool) (s : State) (r : ReportIn) : State :=
  let a := allocCh s p c
  let n := (now s).fineIndex
  let at_ := if late then max n (tInIndex s p c) else n
  let s1 := bump (setAllocCh s p c { a with reports := a.reports ++ [⟨r.allocId, r.bytes, r.saturated, mapFrame, at_⟩] })
    (pgALC p c) ALC_C_REPORTS 1
  if r.saturated then note s1 (pgALC p c) ALC_F_SAT_REPORT ALC_C_REPORTS_SAT else s1

/-! ### Defects and counts of a burst -/

/-- What a granted burst showed (R66): its light, its delimiter, and whether it was a valid burst. -/
def burstSeen (s : State) (p i mapFrame : Nat) (light found valid : Bool) : State :=
  let m := pmRec s p i
  let dark := !light && !found
  let m1 : PmRec := { m with
    litFrame := if dark then m.litFrame else some mapFrame,
    darkFrame := if dark then some mapFrame else none,
    noLight := if dark then
        (if m.darkFrame = some mapFrame ∨ m.litFrame = some mapFrame then m.noLight else m.noLight + 1)
      else 0,
    noDelim := if light && !found then m.noDelim + 1 else 0,
    goodRun := if valid then m.goodRun + 1 else 0,
    delimRun := if found then m.delimRun + 1 else 0 }
  let s1 := setPmRec s p i m1
  let s2 := if 4 ≤ m1.noLight then raiseDefect s1 p i dLOSi else s1
  let s3 := if 4 ≤ m1.noDelim then raiseDefect s2 p i dLOFi else s2
  let s4 := if 2 ≤ m1.goodRun then clearDefect s3 p i dLOSi else s3
  if 2 ≤ m1.delimRun then clearDefect s4 p i dLOFi else s4

/-- Count blocks, errored blocks, bits and bit errors of a burst for ES, SES, SFi and SDi (R66, R70). -/
def countBlocks (s : State) (p c i blocks errored bits errs : Nat) : State :=
  let m := pmRec s p i
  let n := chPm s (3 * p + c)
  let s1 := setPmRec s p i { m with
    blocks := m.blocks + blocks, errored := m.errored + errored, bits := m.bits + bits, errs := m.errs + errs }
  setChPm s1 (3 * p + c) { n with
    blocks := n.blocks + blocks, errored := n.errored + errored, bits := n.bits + bits, errs := n.errs + errs }

/-! ### The burst -/

/-- The earliest position within ±DELIM_WIN whose distance is at most DELIM_THR (R91). -/
def delimFound (win thr : Nat) (l : List (Int × Nat)) : Option Int :=
  (l.filter (fun e => e.1.natAbs ≤ win && e.2 ≤ thr)).foldl (fun a e =>
    match a with
    | none => some e.1
    | some q => some (min q e.1)) none

/-- The payload bytes of a burst that a BRST pulse cuts short (R85): the operand's, once a pulse has risen since the burst's preamble
start. -/
def tailCut (s : State) (p c : Nat) (g : Burst) (b : BurstIn) : Option Nat :=
  if g.ps < (lane s p c).brstRise then b.cutAt.map (min b.payload) else none

/-- Steps 2 to 7 of R58 on a burst with a good header, whose payload a tail cut may end early. -/
def takePayload (s : State) (p c : Nat) (g : Burst) (b : BurstIn) (cut : Option Nat) (hdrErr : Bool) : State :=
  let i := g.onu
  let fec := profFec g.words
  let rate := profRate g.words
  let codewords := (cut.map (fun n => cutCodewords rate n b.codewords)).getD b.codewords
  let dead := (cut.map (fun n => if fec then n % codewordBytes rate else 0)).getD 0
  let s1 := onuBump s p i ONU_C_BURSTS_OK 1
  let s2 := if fec then takeCodewords s1 p i codewords else s1
  let r := takeFrames p c i g.mapFrame dead b.frames (cut.getD b.payload) s2
  let s3 := b.reports.foldl (takeReport p c g.mapFrame b.reportLateTick) r.1
  let s4 := drainSupervision (b.ploams.foldl (takePloam p c i) s3) p c
  let a := allocCh s4 p c
  let w := a.waiting.filter (· ≠ i)
  let s5 := setAllocCh s4 p c { a with waiting := if b.ploamWaiting then w ++ [i] else w }
  if fec then
    countBlocks s5 p c i codewords.length (codewords.countP (· == .uncorrectable)) b.bits (codewords.map Codeword.bits).sum
  else
    countBlocks s5 p c i 1 (if hdrErr || !r.2 then 1 else 0) b.bits
      (if c = 0 then b.bipErrors else if b.hdr = .correctable then 1 else 0)

/-- The header of a burst (R58, R59): BIP-8 errors on G let it through, an uncorrectable header on X and H or an ONU-ID that
is not the grant's discards the whole burst. -/
def takeBurst (s : State) (p c : Nat) (g : Burst) (b : BurstIn) (cut : Option Nat) : State × Bool :=
  let i := g.onu
  let fec := profFec g.words
  let hdrErr := if c = 0 then b.bipErrors != 0 else b.hdr == .uncorrectable
  let s1 := if hdrErr then onuBump s p i ONU_C_HDR_ERR 1 else s
  let e := if !fec && hdrErr then 1 else 0
  let lost := fun s => (abortAll (countBlocks s p c i (if fec then 0 else 1) e b.bits e) p i, false)
  if c ≠ 0 ∧ hdrErr then lost s1
  else if b.onuId ≠ g.onuId then lost (onuBump (flag s1 (pgCH p c) CH_F_ID_MISMATCH) p i ONU_C_ID_MISMATCH 1)
  else (takePayload s1 p c g b cut hdrErr, true)

/-- Was the burst's preload an entry valid under R87, as it stood at the read point (R352)? -/
def preloadValid (s : State) (p c : Nat) (g : Burst) : Bool :=
  let e := phaseAsOf s p c g.onu (g.ps - (fld s (pgBRX p c) BRX_SETTLE_GT + 32) * 256)
  g.preload.isSome && isSet s (pgBRX p c) BRX_PM_EN && e.valid && e.rate == profRate g.words &&
    (g.hp / finePerFrame + 2 ^ 32 - e.stamp) % 2 ^ 32 ≤ fld s (pgBRX p c) BRX_PM_MAXAGE

/-- A burst whose delimiter is not found (R88, R89, R91, R352): discarded, and its partials with it. -/
def missBurst (s : State) (p c : Nat) (g : Burst) : State :=
  let b := pgBRX p c
  let s1 := onuBump (note s b BRX_F_DELIM_MISS BRX_C_DELIM_MISS) p g.onu ONU_C_DELIM_MISS 1
  let s2 := if profWarm g.words && !preloadValid s p c g then
      invalidatePhase (note s1 b BRX_F_WARM_MISS BRX_C_WARM_MISS) p c g.onu
    else s1
  burstSeen (abortAll s2 p g.onu) p g.onu g.mapFrame (lane s p c).sd false false

/-- The drift sample of a found burst, in fine steps (R112): the offset in bits and the change of PHASE from the preload, at
the burst's bit time. -/
def driftOf (g : Burst) (lanePhase : Nat) (off : Int) (phaseEnd : Nat) : Rat :=
  let p0 := (g.preload.map (·.1)).getD lanePhase
  let dp := signedOf 8 (phaseEnd + 256 - p0)
  ((off * 256 + dp : Int) : Rat) / bitsPerGt (profRate g.words)

/-- The header point of a burst whose delimiter was found `off` bits from where it was predicted, as a fine-step index. -/
def heardAt (g : Burst) (off : Int) : Nat := ((g.hp : Int) + roundDiv (off * 256) (bitsPerGt (profRate g.words))).toNat

/-- A burst whose delimiter is found (R50, R85, R86, R91, R112, R115): its arrival is captured, its write-back is due, it gives a drift
sample, and its payload goes to the channel while US_EN is 1. DESIGN CHOICE (log entry 36): it is a valid burst of R66 when its header is
good and carries the granted ONU-ID. -/
def foundBurst (s : State) (p c : Nat) (g : Burst) (b : BurstIn) (off : Int) : State :=
  let l := lane s p c
  let x := pgBRX p c
  let w : Back := ⟨g, b.phaseEnd % 256, b.peakEnd % 32, 0, (onu s p g.onu).state ≠ stPopup⟩
  let cut := tailCut s p c g b
  let s0 := setCapture (setLane s p c { l with back := l.back ++ [w], phase := w.phase, peak := w.peak }) (3 * p + c)
    (posOfFine (heardAt g off))
  let s1 := bump s0 x BRX_C_DELIM_FOUND 1
  let s2 := noteLight (if cut.isSome then note s1 x BRX_F_TAIL_CUT BRX_C_TAIL_CUT else s1) p true
  let s3 := driftSample s2 p g.onu g.mapFrame (g.hp / finePerFrame) (driftOf g l.phase off b.phaseEnd)
  if active s (pgCH p c) CH_US_EN then
    let r := takeBurst s3 p c g b cut
    let s4 := if r.2 then setChSt r.1 p c { chSt r.1 p c with gotBurst := true } else r.1
    burstSeen s4 p g.onu g.mapFrame true true r.2
  else s3

/-- BURST_RECEIVE (R58): the next granted burst on the lane's schedule arrives, or its place passes without it. While RX_EN
is 0 the receiver is off. -/
def execBurstReceive (p : Fin 32) (c : Fin 3) (b : BurstIn) (s : State) : Res :=
  let l := lane s p c
  let x := pgBRX p c
  match l.sched.find? (fun g => g.kind.ofOnu) with
  | none => .next s
  | some g =>
    let s1 := setLane s p c { l.leave g with lastEnd := some g.end_ }
    if !active s x BRX_RX_EN then .next s1
    else
      let s2 := setChSt s1 p c { chSt s1 p c with granted := true }
      let s3 := bump (bump s2 x BRX_C_BURSTS 1) x (if profWarm g.words then BRX_C_WARM_BURSTS else BRX_C_COLD_BURSTS) 1
      match delimFound (fld s x BRX_DELIM_WIN) (profDelimThr g.words) b.found with
      | none => .next (missBurst s3 p c g)
      | some off => .next (foundBurst s3 p c g b off)

end Sys2Proof.Machine
end

