-- ==== Sys2Proof/Machine/Alloc.lean ====
section
/-! DEFINITION. The allocation pass (R117 to R131, R135, R356, with R92, R103 to R106, R110, R355): demand, windows, the map's
layout, its sealing and its output. -/

namespace Sys2Proof.Machine

/-! ### Tables -/

def ad (s : State) (p i : Nat) : AdRec := tget AdRec.init s.pon.ad (2048 * p + i)
def setAd (s : State) (p i : Nat) (r : AdRec) : State :=
  { s with pon := { s.pon with ad := tset AdRec.init s.pon.ad (2048 * p + i) r } }
def ob (s : State) (p i : Nat) : ObRec := tget ObRec.init s.pon.ob (512 * p + i)
def setOb (s : State) (p i : Nat) (r : ObRec) : State :=
  { s with pon := { s.pon with ob := tset ObRec.init s.pon.ob (512 * p + i) r } }

/-- The descriptors of port p that grant on channel c: valid ones whose record is VALID there (R120). -/
def channelAds (s : State) (p c : Nat) : List (Nat × AdRec) :=
  ((s.pon.ad.filter (fun e => e.1 / 2048 == p)).map (fun e => (e.1 % 2048, e.2))).filter (fun e =>
    e.2.valid && (onu s p e.2.onu).valid && (onu s p e.2.onu).ch == c)

/-- Bytes as units of a profile (R117); a profile that is not VALID gives none. -/
def unitsOf (ppu n : Nat) : Nat := ceilDiv (n * 256) ppu

/-- The start of the upstream frame of map f, in fine steps (R73, R117). -/
def upStart (s : State) (p c f : Nat) : Nat := f * finePerFrame + fld s (pgRNG p c) RNG_US_OFFSET * 256

/-- The widening of an ONU's guard while it has DOWi, in gt (R114). -/
def dowGt (s : State) (p i : Nat) : Nat :=
  if hasDefect (onu s p i) dDOWi then ceilDiv (rng s p i).res.natAbs 256 else 0

/-- The profile of an ONU's burst at StartTime u of the map of frame f (R87, R127): the warm one when the entry is valid in the frame in
which the burst arrives. Every burst on G uses profile 0 (R75). -/
def pickProfile (s : State) (p c i f u : Nat) : Nat :=
  let r := ob s p i
  if c = 0 then 0
  else if r.warmEn && phaseValid s p c i (profWords s p c r.warm) ((upStart s p c f + u * unitGt c * 256) / finePerFrame) then r.warm
  else r.cold

/-- The profile of an ONU's keep-alive, PLOAM-only or data burst, which the sizing needs before its StartTime is known: the one that is
right wherever in the frame it comes to lie (DESIGN CHOICE, log entry 38). -/
def dataProfile (s : State) (p c i f : Nat) : Nat := pickProfile s p c i f (unitsFrame c - 1)

/-- The cold profile of an ONU. -/
def coldProfile (s : State) (p c i : Nat) : Nat := if c = 0 then 0 else (ob s p i).cold

/-- Does R131 refuse a structure that names profile j for ONU i? -/
def refuses (s : State) (p c i j : Nat) : Bool :=
  let l := profWords s p c j
  let k := (ob s p i).usKind
  !profValid l ||
  (c == 1 && ((k == 0 && profRate l == 2) || (k == 1 && fld s (pgCH p c) CH_X_US_MODE == 2 && profRate l == 1)))

/-- Count a refused structure (R131). -/
def noteRefused (s : State) (p c : Nat) : State := note s (pgALC p c) ALC_F_REFUSED ALC_C_REFUSED

/-! ### The map under construction -/

/-- A stretch of the upstream frame that is taken, in units: its ends, the rate that the lane holds after it (none: it leaves the
rate as it was), and whether its own guard allows for no rate switch. -/
structure Occ where
  from_ : Nat
  to_ : Nat
  rate : Option Nat
  tight : Bool
  deriving DecidableEq, Repr

/-- A map under construction. `dark` is the dark slot's stretch while it stands at the end of the frame, `due` says that the slot is
not placed yet, and `waste` counts the units of refused template structures, which stay idle (R131). -/
structure Build where
  occ : List Occ
  bursts : List Burst
  structs : Nat
  dark : Option Occ
  due : Bool
  waste : Nat
  deriving Repr

/-- A free stretch: its ends, the rate that the lane holds before it, and the rate of the burst after it when that has no room
for a rate switch. -/
structure Gap where
  from_ : Nat
  to_ : Nat
  prev : Option Nat
  next : Option Nat
  deriving Repr

/-- Two stretches overlap. -/
def Occ.meets (a b : Occ) : Bool := a.from_ < b.to_ && b.from_ < a.to_

/-- The taken stretches in order. -/
def Build.sorted (b : Build) : List Occ := b.occ.insertionSort (fun x y => x.from_ ≤ y.from_)

/-- The free stretches between taken ones that stand in order, from unit `cur` on. -/
def gapsFrom (units : Nat) : List Occ → Nat → Option Nat → List Gap
  | [], cur, prev => if cur < units then [⟨cur, units, prev, none⟩] else []
  | o :: l, cur, prev =>
    let rest := gapsFrom units l (max cur o.to_) (if cur ≤ o.to_ then o.rate.or prev else prev)
    if cur < o.from_ then ⟨cur, o.from_, prev, if o.tight then o.rate else none⟩ :: rest else rest

/-- The units that no stretch takes. -/
def freeUnits (units : Nat) (b : Build) : Nat := ((gapsFrom units b.sorted 0 none).map (fun g => g.to_ - g.from_)).sum

/-- The units of a map that carry nothing: those that no stretch takes, and those of refused structures (R131). -/
def idleUnits (units : Nat) (b : Build) : Nat := freeUnits units b + b.waste

/-- The rate that the lane will hold when the map's upstream frame begins (R353): of the last stretch handed over. -/
def laneRate (s : State) (p c : Nat) : Option Nat :=
  let l := lane s p c
  match (l.sched.filter (fun x => x.kind != .dark)).getLast? with
  | some x => some (profRate x.words)
  | none => l.rate

/-- An interval of grid positions as a stretch of the upstream frame of map f; none outside it. -/
def blockOf (s : State) (p c f : Nat) (rate : Option Nat) (q : Nat × Nat) : Option Occ :=
  let u0 := upStart s p c f
  let w := unitGt c * 256
  let a := (q.1 - u0) / w
  let z := min (unitsFrame c) (ceilDiv (q.2 - u0) w)
  if a < z ∧ u0 < q.2 then some ⟨a, z, rate, false⟩ else none

/-- What a lane schedules between two positions gives it this rate. -/
def rateOfQuiet (s : State) (p c : Nat) (q : Nat × Nat) : Option Nat :=
  ((lane s p c).sched.find? (fun x => x.open_ == q.1 && x.close == q.2)).map (fun x => profRate x.words)

/-- The quiet intervals that reach into the upstream frame of map f (R127 step 2). -/
def quietOccs (s : State) (p c f : Nat) : List Occ :=
  (survey s p c).quiet.filterMap (fun q => blockOf s p c f (rateOfQuiet s p c q) q)

/-- A burst of an ONU in the map. -/
def mkBurst (s : State) (p c f i : Nat) (k : BurstKind) (start size j : Nat) (allocs : List (Nat × Nat × Nat)) (flagPloam : Bool) : Burst :=
  ⟨k, i, (onu s p i).onuId, f, start, size, j, profWords s p c j, allocs, flagPloam, profWarm (profWords s p c j), 0, 0, 0, 0, 0,
    false, false, false, none⟩

/-! ### Step 1: templates -/

/-- The schedule of a slot in force in frame f (R134). -/
def Tpl.inForce (r : Tpl) (f : Nat) : Option TplCfg :=
  let stopped := fun (g : TplCfg) => match r.stopAt with
    | some x => decide (g.begin_ < x ∧ x ≤ f)
    | none => false
  match r.pending with
  | some g => if g.begin_ ≤ f then (if stopped g then none else some g) else r.active.filter (fun g => !stopped g)
  | none => r.active.filter (fun g => !stopped g)

/-- The template entries due on a channel in frame f (R133), with their slot. -/
def dueEntries (s : State) (p c f : Nat) : List (Nat × TplEntry) :=
  (List.range 16).flatMap (fun t =>
    match (tpl s p t).inForce f with
    | some g => if g.ch = c then ((cfgEntries s p g).filter (fun e => e.ofs == (f - g.begin_) % g.cycle)).map (t, ·) else []
    | none => [])

/-- The stretch that an entry reserves: its footprint with the channel's worst-case overhead, and both sides widened for DOWi (R114). -/
def entryOcc (s : State) (p c : Nat) (e : TplEntry) (rate : Option Nat) : Occ :=
  let w := ceilDiv (dowGt s p (ad s p e.ad).onu) (unitGt c)
  ⟨e.start - worstOverhead s p c - w, e.start + e.size + w, rate, false⟩

/-- Does an entry's footprint lie in the upstream frame, at or after S_MIN (R118, R119)? -/
def entryFits (s : State) (p c : Nat) (e : TplEntry) : Bool :=
  let w := ceilDiv (dowGt s p (ad s p e.ad).onu) (unitGt c)
  worstOverhead s p c + w ≤ e.start && e.start + e.size + w ≤ unitsFrame c && fld s (pgALC p c) ALC_S_MIN ≤ e.start

/-- Does an ONU take its template grants (R127, R135)? -/
def templateOk (s : State) (p c i : Nat) : Bool :=
  let r := onu s p i
  r.valid && r.ch == c && r.state == stOperation && r.defects % 4 == 0

/-- Count an entry that places nothing (R127, R135, R356). -/
def noteSkip (s : State) (p c : Nat) : State :=
  bump (flag s (pgALC p c) ALC_F_TPL_SKIP) (pgTPL p) TPL_C_TPL_SKIP 1

/-- Place one template entry (R118, R119, R127 step 1, R131, R135). An entry accepted earlier whose footprint no longer fits the frame or
meets an earlier one is lost to the layout (log entry 38). -/
def placeEntry (p c f : Nat) (a : State × Build) (te : Nat × TplEntry) : State × Build :=
  let s := a.1
  let b := a.2
  let e := te.2
  let d := ad s p e.ad
  let i := d.onu
  let j := pickProfile s p c i f e.start
  let l := profWords s p c j
  let o := entryOcc s p c e (some (profRate l))
  let hold : Build := { b with occ := b.occ ++ [{ o with rate := none }] }
  if !d.valid || !templateOk s p c i then (noteSkip s p c, hold)
  else if refuses s p c i j then (noteRefused s p c, { hold with waste := b.waste + (o.to_ - o.from_) })
  else if !entryFits s p c e || b.occ.any (o.meets ·) then (note s (pgALC p c) ALC_F_LAYOUT_CUT ALC_C_LAYOUT_CUT, b)
  else
    let x := mkBurst s p c f i (.template te.1) e.start e.size j [(e.ad, d.allocId, e.size * ppuOf l / 256)] false
    (s, { b with occ := b.occ ++ [o], bursts := b.bursts ++ [x], structs := b.structs + 1 })

/-! ### Step 2: ranging and Survey -/

/-- A re-range asked for by the host begins at this T_IN (R355). -/
def beginReranges (s : State) (p c : Nat) : State :=
  (channelOnus s p c).foldl (fun t e =>
    let g := rng t p e.1
    if g.rerangeReq then
      let t1 := setRng t p e.1 { g with
        rerangeReq := false, reranging := true, want := true, rtdHi := g.rtd.fdiv 256, tries := 0, ranged := false, grantFrame := none,
        adj := false, sends := 0 }
      setOnuState t1 p e.1 stRanging
    else t) s

/-- The quiet interval of a ranging grant (R110). DESIGN CHOICE (log entry 37): its StartTime is S_MIN. -/
def rangeQuiet (s : State) (p c f i : Nat) : Nat × Nat :=
  let b := pgRNG p c
  let g := rng s p i
  let gsw := guardMin s p c true
  let base : Int := (f * gtPerFrame + fld s (pgALC p c) ALC_S_MIN * unitGt c : Nat) + g.rtdHi
  (((base - (fld s b RNG_RAND_GT + gsw : Nat)) * 256).toNat, ((base + (1 + fld s b RNG_SN_BURST_GT + gsw : Nat)) * 256).toNat)

/-- The quiet interval of a Survey window (R103). DESIGN CHOICE (log entry 37): its StartTime is S_MIN. -/
def surveyQuiet (s : State) (p c f : Nat) : Nat × Nat :=
  let b := pgRNG p c
  let gsw := guardMin s p c true
  let base := f * finePerFrame + fld s (pgALC p c) ALC_S_MIN * unitGt c * 256 + fld s b RNG_ZD_FINE
  (base + rtt s p c (fld s b RNG_REACH_MIN_M) * 256 - gsw * 256,
   base + (rtt s p c (fld s b RNG_REACH_MAX_M) + fld s b RNG_RAND_GT + fld s b RNG_SN_BURST_GT + gsw) * 256)

/-- The upstream frames that an interval touches. -/
def framesOf (s : State) (p c : Nat) (q : Nat × Nat) : List Nat :=
  let u := fld s (pgRNG p c) RNG_US_OFFSET * 256
  let a := (q.1 - u) / finePerFrame
  (List.range ((q.2 - u) / finePerFrame - a + 1)).map (a + ·)

/-- Is an interval free of reserved intervals and of template footprints, in every frame it touches (R106)? -/
def quietFree (s : State) (p c : Nat) (q : Nat × Nat) : Bool :=
  !(survey s p c).quiet.any (overlap q) &&
  !(framesOf s p c q).any (fun g =>
    match blockOf s p c g none q with
    | none => false
    | some o => (dueEntries s p c g).any (fun e => o.meets (entryOcc s p c e.2 none)))

/-- Is an interval clear of what the maps before have granted? -/
def grantedFree (s : State) (p c : Nat) (q : Nat × Nat) : Bool := !(lane s p c).sched.any (fun x => overlap q (x.ps, x.end_))

/-- Reserve an interval (R127 step 2), forgetting those that ended before the map's frame. -/
def reserveQuiet (s : State) (p c f : Nat) (q : Nat × Nat) : State :=
  let v := survey s p c
  setSurvey s p c { v with quiet := (v.quiet.filter (fun x => f * finePerFrame ≤ x.2)) ++ [q] }

/-- A window as an entry of the map: its interval, with the pulse placed as for a preamble that starts GUARD_SWITCH after it
opens (R107). -/
def windowBurst (s : State) (p c f : Nat) (k : BurstKind) (i id j : Nat) (q : Nat × Nat) : Burst :=
  ⟨k, i, id, f, fld s (pgALC p c) ALC_S_MIN, 0, j, profWords s p c j, [], true, false, 0, q.1 + guardMin s p c true * 256, q.2, q.1, q.2,
    false, false, false, none⟩

/-- Add a window to the map. -/
def addWindow (s : State) (p c f : Nat) (b : Build) (x : Burst) : Build :=
  { b with occ := b.occ ++ (blockOf s p c f (some (profRate x.words)) (x.open_, x.close)).toList, bursts := b.bursts ++ [x],
           structs := b.structs + 1 }

/-- The intervals of the windows that a map has so far. -/
def Build.windows (b : Build) : List (Nat × Nat) := (b.bursts.filter (fun x => !x.kind.ofOnu)).map (fun x => (x.open_, x.close))

/-- The records that wait for a ranging grant, lowest first (R106). -/
def rangeWaiting (s : State) (p c : Nat) : List (Nat × OnuRec) :=
  (channelOnus s p c).filter (fun e => (rng s p e.1).want && (e.2.state == stAssigned || e.2.state == stRanging))

/-- The ranging grant of the map (R106, R110, R131): of the records that wait for one, the lowest whose whole interval is free. -/
def placeRanging (p c f : Nat) (a : State × Build) : State × Build :=
  let s := a.1
  let l := rangeWaiting s p c
  let bad := fun (e : Nat × OnuRec) => refuses s p c e.1 (rng s p e.1).prof
  let s1 := (l.filter bad).foldl (fun t _ => noteRefused t p c) s
  let free := fun (e : Nat × OnuRec) =>
    let q := rangeQuiet s p c f e.1
    !bad e && quietFree s p c q && grantedFree s p c q
  match l.find? free with
  | none => (s1, a.2)
  | some (i, r) => (s1, addWindow s p c f a.2 (windowBurst s p c f .ranging i r.onuId (rng s p i).prof (rangeQuiet s p c f i)))

/-- Is a Survey window due in the map of frame f (R105)? DESIGN CHOICE (log entry 37): the first one, when none was opened before, is due
at once. -/
def surveyDue (s : State) (p c f : Nat) : Bool :=
  let b := pgRNG p c
  let l := profWords s p c (surveyProfile s p c)
  let open_ : Bool := active s b RNG_SURVEY_EN && holdsCustody s p && profValid l && !profWarm l &&
    !(isSet s (pgBRX p c) BRX_ROGUE_STATE && isSet s (pgBRX p c) BRX_ROGUE_ACT) &&
    (!isSet s b RNG_SKIP_FULL || (channelOnus s p c).any (fun e => e.2.state == stEmpty || e.2.state == stPopup))
  open_ && match (survey s p c).last with
    | some l => l + fld s b RNG_PERIOD_NOW ≤ f
    | none => true

/-- The Survey grant of the map (R103 to R106): a window that would overlap a template grant, a ranging window or another reserved
interval is deferred, which counts once; one that maps already sent leave no room for waits until the stretch kept for it is clear. -/
def placeSurvey (p c f : Nat) (a : State × Build) : State × Build :=
  let s := a.1
  let b := pgRNG p c
  let v := survey s p c
  let j := surveyProfile s p c
  let q := surveyQuiet s p c f
  if !surveyDue s p c f then a
  else if !quietFree s p c q || a.2.windows.any (overlap q) then
    if v.deferred then a else (note (setSurvey s p c { v with deferred := true }) b RNG_F_SURVEY_DEFER RNG_C_SURVEY_DEFER, a.2)
  else if !grantedFree s p c q then a
  else (s, addWindow s p c f a.2 (windowBurst s p c f .survey 512 (broadcastId c) j q))

/-- How many maps ahead a window's interval can reach back into (R103, R110): an upstream frame begins at most so many frames after its
map. -/
def reachBack : Nat := 4

/-- The intervals that the Survey window and the ranging grant next due would take in the maps after f (R127 step 2): kept free in the
upstream frame of map f, which they may touch (DESIGN CHOICE, log entry 37). -/
def aheadOccs (s : State) (p c f : Nat) (b : Build) : List Occ :=
  (List.range reachBack).flatMap (fun n =>
    let g := f + n + 1
    let sv := if surveyDue s p c g && !b.bursts.any (fun x => x.kind == .survey) then [surveyQuiet s p c g] else []
    let done := fun (i : Nat) => b.bursts.any (fun x => x.kind == .ranging && x.onu == i)
    let rg := (rangeWaiting s p c).find? (fun e => !done e.1 && !refuses s p c e.1 (rng s p e.1).prof)
    ((sv ++ (rg.map (fun e => rangeQuiet s p c g e.1)).toList).filter (quietFree s p c)).filterMap (blockOf s p c f none))

/-! ### Step 3: the dark slot -/

/-- The lengths of the dark slot and of the guard before it, in units. -/
def darkUnits (s : State) (p c : Nat) : Nat × Nat :=
  (ceilDiv (fld s (pgBRX p c) BRX_DARK_LEN) (unitGt c), ceilDiv (guardMin s p c false) (unitGt c))

/-- The dark slot from gt `at_` of the upstream frame on. -/
def darkBurst (s : State) (p c f at_ : Nat) : Burst :=
  let o := upStart s p c f + at_ * 256
  let n := fld s (pgBRX p c) BRX_DARK_LEN
  ⟨.dark, 512, 0, f, at_ / unitGt c, n, 0, [], [], false, false, 0, o, o + n * 256, o, o + n * 256, false, false, true, none⟩

/-- The dark slot behind a burst that ends at unit `e`, on whose far side DOWi widens the guard by `dow` gt: GUARD_SAME after it (R92,
R114, R127 step 3). -/
def darkBehind (s : State) (p c f e dow : Nat) : Burst := darkBurst s p c f (e * unitGt c + dow + guardMin s p c false)

/-- The units that the slot behind a burst and the guard before it take. -/
def darkRoom (s : State) (p c : Nat) : Nat :=
  ceilDiv (guardMin s p c false + fld s (pgBRX p c) BRX_DARK_LEN) (unitGt c)

/-- Does the slot follow the burst of ONU i (R92)? -/
def darkAfter (s : State) (p c i : Nat) : Bool :=
  isSet s (pgBRX p c) BRX_DARK_AFTER_EN && fld s (pgBRX p c) BRX_DARK_AFTER_ONU == i

/-- The dark slot is due in a frame (R127 step 3): it is kept at the frame's end, unless an earlier claim lies there. -/
def reserveDark (s : State) (p c f : Nat) (b : Build) : Build :=
  let x := pgBRX p c
  let n := darkUnits s p c
  let o : Occ := ⟨unitsFrame c - n.1 - n.2, unitsFrame c, none, false⟩
  if isSet s x BRX_DARK_EN ∧ f % max 1 (fld s x BRX_DARK_PERIOD) = 0 then
    if b.occ.any (o.meets ·) then { b with due := true } else { b with occ := b.occ ++ [o], dark := some o, due := true }
  else b

/-- Give up the stretch kept at the frame's end, for a slot that is placed elsewhere. -/
def Build.freeDark (b : Build) : Build :=
  { b with occ := match b.dark with
      | some o => b.occ.erase o
      | none => b.occ, dark := none, due := false }

/-- The dark slot moves behind a template burst of the ONU that it is to follow, where it fits there. -/
def darkBehindTemplate (s : State) (p c f : Nat) (b : Build) : Build :=
  match b.due, b.bursts.find? (fun x => x.kind.ofOnu && darkAfter s p c x.onu) with
  | true, some x =>
    let e := x.start + x.size
    let t := dowGt s p x.onu
    let d := b.freeDark
    let q : Occ := ⟨e + ceilDiv t (unitGt c), e + ceilDiv t (unitGt c) + darkRoom s p c, none, false⟩
    if q.to_ ≤ unitsFrame c ∧ !d.occ.any (q.meets ·) then
      { d with occ := d.occ ++ [q], bursts := d.bursts ++ [darkBehind s p c f e t] }
    else b
  | _, _ => b

/-! ### Layout (R130) -/

/-- Where a burst of `size` units fits in a gap: its StartTime and the room behind it. -/
def Gap.fit (s : State) (p c : Nat) (l : List Word) (dow after : Nat) (g : Gap) : Nat × Nat :=
  let r := some (profRate l)
  let start := max (g.from_ + overheadOf s p c l (g.prev != r) dow) (fld s (pgALC p c) ALC_S_MIN)
  let sw := if g.next.isSome && g.next != r then ceilDiv (fld s (pgBRX p c) BRX_RATE_SW_GT) (unitGt c) else 0
  (start, g.to_ - (ceilDiv dow (unitGt c) + after + sw) - start)

/-- The earliest gap that holds the burst, or else the largest one. -/
def chooseGap (size : Nat) : List (Nat × Nat) → Option (Nat × Nat)
  | l => (l.find? (fun x => size ≤ x.2)).or (l.foldl (fun a x => match a with
    | none => some x
    | some y => if y.2 < x.2 then some x else some y) none)

/-- Lay out a burst of ONU i on profile j (R130): its StartTime and its size, which is cut to no less than `least`; a cut or a
loss is counted. The dark slot that follows the ONU's burst comes with it. -/
def layout (p c f i j size least : Nat) (a : State × Build) : State × Build × Option (Nat × Nat) :=
  let s := a.1
  let l := profWords s p c j
  let follow : Bool := a.2.due && darkAfter s p c i
  let b := if follow then a.2.freeDark else a.2
  let after := if follow then darkRoom s p c else 0
  let dow := dowGt s p i
  let gaps := gapsFrom (unitsFrame c) b.sorted 0 (laneRate s p c)
  let cut := note s (pgALC p c) ALC_F_LAYOUT_CUT ALC_C_LAYOUT_CUT
  match chooseGap size (gaps.map (Gap.fit s p c l dow after)) with
  | none => (cut, a.2, none)
  | some (start, room) =>
    if room < max 1 least then (cut, a.2, none)
    else
      let m := min size room
      let t := ceilDiv dow (unitGt c)
      let prev := ((gaps.filter (fun g => g.from_ ≤ start)).getLast?).bind (·.prev)
      let ov := overheadOf s p c l (prev != some (profRate l)) dow
      let o : Occ := ⟨start - ov, start + m + t, some (profRate l), prev == some (profRate l)⟩
      let e := start + m + t
      let b1 := if follow then
          { b with occ := b.occ ++ [o, ⟨e, e + after, none, false⟩], bursts := b.bursts ++ [darkBehind s p c f (start + m) dow] }
        else { b with occ := b.occ ++ [o] }
      (if m < size then cut else s, b1, some (start, m))

/-! ### Steps 4 and 5 -/

/-- Is an ONU's grant reduced to a keep-alive (R66, R127 step 4)? -/
def wantsKeepAlive (r : OnuRec) : Bool :=
  r.state == stPopup || ((r.state == stOperation || r.state == stRegister) && r.defects % 4 != 0)

/-- May an ONU be named in data grants of the map of frame f (R111, R127)? -/
def dataOk (s : State) (p c f : Nat) (e : Nat × OnuRec) : Bool :=
  (e.2.state == stOperation || e.2.state == stRegister) && e.2.defects % 4 == 0 &&
  match (rng s p e.1).rangingSent with
  | some g => g + fld s (pgRNG p c) RNG_OPER_DELAY ≤ f
  | none => true

/-- The structures a map holds (R129). -/
def structMax : Nat := 512

/-- Lay out one keep-alive or PLOAM-only burst of KA_UNITS on the ONU's cold profile. -/
def placeSmall (p c f : Nat) (k : BurstKind) (a : State × Build) (i : Nat) : State × Build :=
  let s := a.1
  let j := coldProfile s p c i
  let n := fld s (pgALC p c) ALC_KA_UNITS
  if refuses s p c i j then (noteRefused s p c, a.2)
  else
    match layout p c f i j n n a with
    | (s1, b, none) => (s1, b)
    | (s1, b, some (start, m)) =>
      (s1, { b with bursts := b.bursts ++ [mkBurst s p c f i k start m j [] true], structs := b.structs + 1 })

/-! ### Step 6: the tiers -/

/-- An Alloc-ID in the pass: its descriptor, its profile's PPU, its level, the units given, those of FIXED and ASSURED among
them, and what its tier still needs. -/
structure Ask where
  slot : Nat
  d : AdRec
  ppu : Nat
  lvl : Nat
  q : Nat
  got : Nat
  firm : Nat
  need : Nat
  placed : Bool
  deferred : Bool
  deriving Repr

/-- The pass: what is left of the frame, the structures so far, the Alloc-IDs. -/
structure Pass where
  avail : Nat
  structs : Nat
  asks : List Ask
  deriving Repr

/-- Give n units to the Alloc-ID of a slot (R127, R129): nothing once the map holds its last structure. -/
def Pass.give (x : Pass) (slot n : Nat) (firm : Bool) : Pass :=
  match x.asks.find? (fun a => a.slot == slot) with
  | none => x
  | some a =>
    let put := fun (b : Ask) => { x with asks := x.asks.map (fun y => if y.slot = slot then b else y) }
    if n = 0 then x
    else if !a.placed && structMax ≤ x.structs then put { a with deferred := true }
    else
      let b := { a with got := a.got + n, firm := if firm then a.firm + n else a.firm, need := a.need - n, placed := true }
      { put b with avail := x.avail - n, structs := if a.placed then x.structs else x.structs + 1 }

/-- The slots of a tier, from its pointer (R128). -/
def tierSlots (x : Pass) (t ptr : Nat) : List Nat :=
  let l := (x.asks.filter (fun a => a.d.tier == t)).map (·.slot)
  l.filter (ptr ≤ ·) ++ l.filter (· < ptr)

/-- The ask of a slot. -/
def Pass.ask (x : Pass) (slot : Nat) : Option Ask := x.asks.find? (fun a => a.slot == slot)

/-- What a slot of a tier still needs. -/
def Pass.needOf (x : Pass) (slot : Nat) : Nat := ((x.ask slot).map (·.need)).getD 0

/-- The guaranteed demand of an Alloc-ID beyond FIXED (R127). -/
def Ask.assured (a : Ask) : Nat := if 2 ≤ a.lvl then 0 else min (unitsOf a.ppu a.d.assured) (unitsOf a.ppu (a.q - a.d.fixed))

/-- The tier demand of an Alloc-ID, before what it was given (R126, R127). -/
def Ask.tierUnits (a : Ask) : Nat :=
  if 1 ≤ a.lvl ∨ a.d.tier = 0 then 0 else unitsOf a.ppu (min a.q a.d.max_)

/-- One weighted round: every share from the units that stood at its start. -/
def Pass.round (x : Pass) (slots : List Nat) : Pass :=
  let live := slots.filter (fun k => 0 < x.needOf k)
  let w := (live.map (fun k => ((x.ask k).map (·.d.weight)).getD 0)).sum
  live.foldl (fun y k =>
    match x.ask k with
    | none => y
    | some a => y.give k (min a.need (x.avail * a.d.weight / max 1 w)) false) x

/-- One tier (R127, R128, R129): two rounds, then the rest from the pointer; answers the new pointer. -/
def Pass.tier (x : Pass) (t ptr : Nat) : Pass × Nat :=
  let x0 := { x with asks := x.asks.map (fun a => if a.d.tier = t then { a with need := a.tierUnits - a.got } else a) }
  let slots := tierSlots x0 t ptr
  let x2 := (x0.round slots).round slots
  let r := slots.foldl (fun (a : Pass × Nat) k =>
    let n := min (a.1.needOf k) a.1.avail
    let y := a.1.give k n false
    (y, if n ≠ 0 ∧ y.avail < a.1.avail then (k + 1) % 2048 else a.2)) (x2, ptr)
  match slots.find? (fun k => ((r.1.ask k).map (·.deferred)).getD false) with
  | some k => (r.1, k)
  | none => r

/-- The whole of step 6: FIXED, ASSURED, the two tiers. -/
def Pass.run (x : Pass) (ptr1 ptr2 : Nat) : Pass × Nat × Nat :=
  let x1 := x.asks.foldl (fun y a => y.give a.slot (unitsOf a.ppu a.d.fixed) true) x
  let x2 := x1.asks.foldl (fun y a => y.give a.slot a.assured true) x1
  let r1 := x2.tier 1 ptr1
  let r2 := r1.1.tier 2 ptr2
  (r2.1, r1.2, r2.2)

/-- Does an Alloc-ID's level hold back something it would be given (R126): assured units, or tier units beyond those of FIXED and ASSURED? -/
def Ask.limited (a : Ask) : Bool :=
  let firm := min (unitsOf a.ppu a.d.assured) (unitsOf a.ppu (a.q - a.d.fixed))
  (2 ≤ a.lvl && 0 < firm) || (1 ≤ a.lvl && a.d.tier != 0 && unitsOf a.ppu a.d.fixed + firm < unitsOf a.ppu (min a.q a.d.max_))

/-! ### Demand (R122, R125) -/

/-- A descriptor after a report that names its Alloc-ID. -/
def AdRec.withReport (d : AdRec) (r : Report) : AdRec :=
  { d with report := r.bytes, sat := r.sat, recent := d.recent.filter (fun e => r.mapFrame < e.1) }

/-- Q (R125): saturated demand is MAX; otherwise the last report less what was granted since. -/
def AdRec.q (d : AdRec) : Nat := if d.sat then d.max_ else d.report - (d.recent.map (·.2)).sum

/-- Forget grants that are too old for a report on them to come, keeping Q (R125). -/
def AdRec.fold (d : AdRec) (f : Nat) : AdRec :=
  { d with report := d.report - ((d.recent.filter (fun e => e.1 + 64 < f)).map (·.2)).sum,
           recent := d.recent.filter (fun e => f ≤ e.1 + 64) }

/-- A report of the window goes to the descriptor of its Alloc-ID (R122, R125). -/
def foldReport (p c : Nat) (s : State) (r : Report) : State :=
  match (channelAds s p c).find? (fun e => e.2.allocId == r.allocId) with
  | some e => setAd s p e.1 (e.2.withReport r)
  | none => s

/-- Take the reports of the window into the descriptors (R122): those delivered before T_IN; one delivered at T_IN or later stays for the
next. -/
def takeReports (s : State) (p c f : Nat) : State :=
  let a := allocCh s p c
  let t := tInIndex s p c
  let s1 := (a.reports.filter (fun r => r.at_ < t)).foldl (foldReport p c) s
  let s2 := setAllocCh s1 p c { a with reports := a.reports.filter (fun r => t ≤ r.at_) }
  (channelAds s2 p c).foldl (fun t e =>
    let d := e.2.fold f
    setAd t p e.1 { d with demand := min 16777215 d.q, bpLevel := bpLevel t d.bpQ }) s2

/-! ### The pass -/

/-- The asks of the ONUs that data grants may name. -/
def asksOf (s : State) (p c f : Nat) (onus : List (Nat × OnuRec)) : List Ask :=
  (channelAds s p c).filterMap (fun e =>
    if onus.any (fun o => o.1 == e.2.onu) then
      let ppu := ppuOf (profWords s p c (dataProfile s p c e.2.onu f))
      some ⟨e.1, e.2, ppu, if isSet s (pgALC p c) ALC_BP_EN then e.2.bpLevel else 0, e.2.q, 0, 0, 0, false, false⟩
    else none)

/-- Does an Alloc-ID claim anything? -/
def Ask.claims (a : Ask) : Bool := unitsOf a.ppu a.d.fixed != 0 || a.assured != 0 || a.tierUnits != 0

/-- An Alloc-ID whose profile is not VALID claims bytes that no unit can carry. -/
def Ask.dead (a : Ask) : Bool :=
  a.ppu == 0 && (a.d.fixed != 0 || (a.lvl < 2 && min a.d.assured (a.q - a.d.fixed) != 0) ||
    (a.lvl == 0 && a.d.tier != 0 && min a.q a.d.max_ != 0))

/-- Cut tier units off an ONU's Alloc-IDs, the last one first (R130). -/
def cutTiers (n : Nat) : List Ask → List Ask
  | [] => []
  | a :: l =>
    let rest := cutTiers n l
    let done := (l.map (·.got)).sum - (rest.map (·.got)).sum
    { a with got := a.got - min (n - done) (a.got - a.firm) } :: rest

/-- Lay out the data burst of one ONU (R130, R131). -/
def placeData (p c f : Nat) (asks : List Ask) (ploam : List Nat) (a : State × Build) (i : Nat) : State × Build :=
  let s := a.1
  let j := dataProfile s p c i f
  let l := profWords s p c j
  let mine := asks.filter (fun x => x.d.onu == i)
  let l1 := mine.filter (fun x => x.got != 0)
  if refuses s p c i j then
    ((mine.filter (fun x => x.got != 0 || x.dead)).foldl (fun t _ => noteRefused t p c) s, a.2)
  else if l1 = [] then a
  else
    let total := (l1.map (·.got)).sum
    match layout p c f i j total (l1.map (·.firm)).sum a with
    | (s1, b, none) => (s1, b)
    | (s1, b, some (start, m)) =>
      let l2 := (cutTiers (total - m) l1).filter (fun x => x.got != 0)
      let x := mkBurst s p c f i .data start m j (l2.map (fun y => (y.slot, y.d.allocId, y.got * ppuOf l / 256))) (ploam.contains i)
      (s1, { b with bursts := b.bursts ++ [x], structs := b.structs + l2.length })

/-- The keep-alive and PLOAM-only bursts that the structure cap lets stand (R129). -/
def capSmall (structs : Nat) (l : List (BurstKind × Nat × Nat)) : List (BurstKind × Nat × Nat) := l.take (structMax - structs)

/-- The sizing figure of a burst before the layout: overhead at its own rate and its widened guard (R118, R127). -/
def sizing (s : State) (p c i j : Nat) : Nat :=
  let dow := dowGt s p i
  overheadOf s p c (profWords s p c j) false dow + ceilDiv dow (unitGt c)

/-- Is the map a roll-call (R271)? -/
def rollCall (s : State) (p : Nat) : Bool := 0 < (pair s p).rollcall

/-- The next record of a channel after index `ptr`, round the table: LAYOUT_PTR advances by one ONU (R130). -/
def nextOnu (s : State) (p c ptr : Nat) : Nat :=
  let l := (channelOnus s p c).map (·.1)
  ((l.find? (ptr < ·)).or l.head?).getD ptr

/-- What steps 4 to 6 work on: the keep-alive and PLOAM-only bursts that the structure cap lets stand, how many it left out, and the
sized pass with its new pointers (R127 to R129). -/
structure Sized where
  small : List (BurstKind × Nat)
  dropped : Nat
  pass : Pass
  ptr1 : Nat
  ptr2 : Nat
  deriving Repr

/-- Size a map: `po` get PLOAM-only grants, `asks` are those of the ONUs that data grants may name (R127). -/
def sizeOnce (s : State) (p c f : Nat) (b : Build) (ka po : List Nat) (asks : List Ask) : Sized :=
  let n := unitsFrame c
  let small := ka.map (fun i => (BurstKind.keepAlive, i)) ++ po.map (fun i => (BurstKind.ploamOnly, i))
  let kept := small.take (structMax - b.structs)
  let wants := ((asks.filter (·.claims)).map (·.d.onu)).dedup
  let used := n - freeUnits n b +
    (kept.map (fun k => sizing s p c k.2 (coldProfile s p c k.2) + fld s (pgALC p c) ALC_KA_UNITS)).sum +
    (wants.map (fun i => sizing s p c i (dataProfile s p c i f))).sum
  let al := allocCh s p c
  let r := Pass.run ⟨n - used, b.structs + kept.length, asks⟩ al.ptr1 al.ptr2
  ⟨kept, small.length - kept.length, r.1, r.2.1, r.2.2⟩

/-- Size a map until every ONU that flagged a waiting PLOAM and comes to no data structure has a PLOAM-only grant (R127 step 5); each turn
adds one of them. -/
def sizeMap (s : State) (p c f : Nat) (b : Build) (ka waiting : List Nat) : Nat → List Nat → List Ask → Sized
  | 0, po, asks => sizeOnce s p c f b ka po asks
  | n + 1, po, asks =>
    let r := sizeOnce s p c f b ka po asks
    let bare := fun (i : Nat) => !po.contains i && !r.pass.asks.any (fun a => a.d.onu == i && a.got != 0)
    match waiting.find? bare with
    | none => r
    | some i => sizeMap s p c f b ka waiting n (po ++ [i]) (asks.filter (fun a => a.d.onu != i))

/-- Steps 3 to 6 and the layout, on the templates and windows of the map (R127 to R131). -/
def fillMap (s : State) (p c f : Nat) (b : Build) : State × Build :=
  let x := pgALC p c
  let b0 := darkBehindTemplate s p c f (reserveDark s p c f b)
  let all := (channelOnus s p c).insertionSort (fun a b => a.1 ≤ b.1)
  let ka := (all.filter (fun e => wantsKeepAlive e.2)).map (·.1)
  let rc := if rollCall s p then (all.filter (fun e => e.2.state == stOperation && e.2.defects % 4 == 0)).map (·.1) else []
  let data := all.filter (fun e => dataOk s p c f e && !rc.contains e.1)
  let asks := asksOf s p c f data
  let s1 := asks.foldl (fun t a => if a.limited then note t x ALC_F_BP_ACTIVE ALC_C_BP_SUPPRESSED else t) s
  let ploam := (allocCh s p c).waiting
  let waiting := (data.map (·.1)).filter ploam.contains
  let r := sizeMap s p c f b0 ka waiting waiting.length rc asks
  let left := r.pass.asks.countP (·.deferred)
  let s2 := setAllocCh s1 p c { allocCh s p c with ptr1 := r.ptr1, ptr2 := r.ptr2 }
  let s3 := if left ≠ 0 ∨ r.dropped ≠ 0 then bump (note s2 x ALC_F_STRUCT_CAP ALC_C_STRUCT_CAP) x ALC_C_STRUCTS_DEFERRED left else s2
  let a4 := r.small.foldl (fun a k => placeSmall p c f k.1 a k.2) (s3, b0)
  let ptr := fld s x ALC_LAYOUT_PTR
  let order := (data.map (·.1)).filter (ptr ≤ ·) ++ (data.map (·.1)).filter (· < ptr)
  let a5 := order.foldl (fun a i => placeData p c f r.pass.asks ploam a i) a4
  let b6 := if a5.2.dark.isSome then
      { a5.2 with
        dark := none, due := false, bursts := a5.2.bursts ++ [darkBurst s p c f (gtPerFrame - fld s (pgBRX p c) BRX_DARK_LEN)] }
    else a5.2
  (setFld a5.1 x ALC_LAYOUT_PTR (nextOnu s p c ptr), b6)

/-- The empty map. -/
def emptyBuild : Build := ⟨[], [], 0, none, false, 0⟩

/-- The map of a frame for which a step is pending, or was until a later write replaced it, is empty (R356). -/
def stepPending (s : State) (f : Nat) : Bool := s.grid.step.any (fun r => r.frame == f) || s.grid.emptyMaps.contains f

/-- Build the map of frame f from what stands at T_IN (R123, R127). -/
def buildMap (s : State) (p c f : Nat) : State × Build :=
  let s0 := takeReports s p c f
  if !active s (pgALC p c) ALC_ALC_EN || !fullMaps s p then (s0, emptyBuild)
  else if stepPending s f then ((dueEntries s0 p c f).foldl (fun t _ => noteSkip t p c) s0, emptyBuild)
  else
    let s1 := beginReranges s0 p c
    let a1 := (dueEntries s1 p c f).foldl (placeEntry p c f) (s1, emptyBuild)
    let a2 := placeSurvey p c f (placeRanging p c f (a1.1, { a1.2 with occ := a1.2.occ ++ quietOccs s1 p c f }))
    fillMap a2.1 p c f { a2.2 with occ := a2.2.occ ++ aheadOccs a2.1 p c f a2.2 }

/-! ### The engine that runs a pass (R22, R164 to R166) -/

/-- The cluster whose engines run a channel's passes: of the clusters with the allocation role, in ascending order, the one for its 32
channels (R22). -/
def allocCluster (s : State) (n : Nat) : Option (Fin 16) :=
  ((List.finRange 16).filter (fun k => roleOf s k.val == 1))[n / 32]?

/-- The engine on which a channel's allocation runs: e, or 64 + e for context 1 of e. -/
def channelHost (s : State) (n : Nat) : Nat := tget (fun i => i % 32) s.eng.host n

/-- The host that a channel has from its T_IN on: its own engine, the spare that stands for it (R165), or context 1 of the next engine
when it is lost (R166). -/
def hostNow (s : State) (n : Nat) : Nat :=
  let e := n % 32
  match allocCluster s n with
  | none => e
  | some k => if fld s (pgENG k) ENG_SPARE_FOR = e then 32 else if (cluster s k).lost.contains e then 64 + (e + 1) % 32 else e

/-- The context that runs a pass of a channel. -/
def passCtx (s : State) (n : Nat) : Option CtxId :=
  let h := channelHost s n
  (allocCluster s n).map (fun k => if 64 ≤ h then ⟨k, Fin.ofNat 33 (h - 64), 1⟩ else ⟨k, Fin.ofNat 33 h, 0⟩)

/-- A pass begins at T_IN (R123, R164): the channel changes to its host of now, the pass takes the active bank, and the host's context
begins at entry vector 3. -/
def startPass (s : State) (p c : Nat) : State :=
  let n := 3 * p + c
  let s1 : State := { s with eng := { s.eng with host := tset (fun i => i % 32) s.eng.host n (hostNow s n) } }
  match passCtx s1 n with
  | none => s1
  | some x =>
    let b := isSet s1 (pgUCS x.k) UCS_ACTIVE_BANK
    beginWork (setAllocCh s1 p c { allocCh s1 p c with bank := b }) x 3

/-- Does a tick lie in the present frame, which a grid step may shorten (R36)? -/
def tickInFrame (s : State) (t : Nat) : Bool := t * finePerGt < s.grid.frameLen

/-- A happening that the manual places at tick `t` of the frame brings the grid to that tick, when it stands before it and the frame has
it. -/
def reachTick (s : State) (t : Nat) : State :=
  if s.grid.running && s.grid.now.tick < t && tickInFrame s t then { s with grid := { s.grid with now := ⟨frame s, t, 0⟩ } } else s

/-- T_OUT of a map, as a tick of the frame before (R122). -/
def tOut : Nat := 19408

/-- The structures of a burst (R129): one for each Alloc-ID of a data burst, none for a dark slot. -/
def Burst.structs (b : Burst) : Nat :=
  match b.kind with
  | .data => b.allocs.length
  | .dark => 0
  | _ => 1

/-- Is a burst a template's? -/
def Burst.isTemplate (b : Burst) : Bool :=
  match b.kind with
  | .template _ => true
  | _ => false

/-- What a map leaves on the page (R136). -/
def showMap (s : State) (p c structs idle : Nat) : State :=
  setFld (setFld s (pgALC p c) ALC_LAST_STRUCTS structs) (pgALC p c) ALC_LAST_IDLE_UNITS idle

/-- A sealed map shows on the page and is counted (R136). -/
def publishMap (s : State) (p c : Nat) (m : BwMap) : State :=
  let x := pgALC p c
  let s1 := bump (bump (showMap s p c m.structs m.idle) x ALC_C_MAPS_BUILT 1) x ALC_C_STRUCTS m.structs
  bump (bump s1 x ALC_C_GRANT_UNITS ((m.bursts.filter (·.kind.ofOnu)).map (·.size)).sum) x ALC_C_IDLE_UNITS m.idle

/-- MAP_INPUT_DEADLINE (R122, R123, R127): T_IN of the next frame's map is f:(19,440 − BUILD_GT). The pass runs on the snapshot of that
moment; MAP_SEALED says when it was done. While ALC_EN is 0 the map is the empty one. A frame that a step has shortened may end before
its T_IN, which then does not act (R36, log entry 32). -/
def execMapInputDeadline (p : Fin 32) (c : Fin 3) (s : State) : Res :=
  let f := frame s + 1
  let t := gtPerFrame - fld s (pgALC p c) ALC_BUILD_GT
  if tOut ≤ (now s).tick || (allocCh s p c).map.any (fun m => f ≤ m.frame) then .next s
  else if !tickInFrame s t then .next (lateAction s (pgALC p c))
  else
    let on : Bool := active s (pgALC p c) ALC_ALC_EN
    let r := buildMap (reachTick s t) p c f
    let idle := idleUnits (unitsFrame c) r.2
    let s1 := if on then r.1 else showMap r.1 p c 0 idle
    let m : BwMap := ⟨f, r.2.bursts, r.2.structs, idle, r.2.bursts.countP Burst.isTemplate, !on⟩
    .next (startPass (setAllocCh s1 p c { allocCh s1 p c with map := some m }) p c)

/-- A map whose pass was closed before its last structures were added (R124): its first n bursts stand, and the units charged for the
others are idle. -/
def BwMap.cut (m : BwMap) (s : State) (p c n : Nat) : BwMap :=
  let kept := m.bursts.take n
  let lost := (m.bursts.drop n).filter (·.kind.ofOnu)
  { m with
    bursts := kept, structs := (kept.map Burst.structs).sum,
    idle := m.idle + (lost.map (fun b => sizing s p c b.onu b.prof + b.size)).sum }

/-- MAP_SEALED (R124): the pass has ended, `buildGt` after T_IN. One that runs to T_OUT − CLOSE_GT is closed there, with as many of its
structures as it had by then: a free value (log entry 3). -/
def execMapSealed (p : Fin 32) (c : Fin 3) (buildGt : Nat) (s : State) : Res :=
  let x := pgALC p c
  match (allocCh s p c).map with
  | none => .next s
  | some m =>
    if m.sealed_ || m.frame != frame s + 1 then .next s
    else
      let most := fld s x ALC_BUILD_GT - 32 - fld s x ALC_CLOSE_GT
      let n := min buildGt most
      let s1 := reachTick s (gtPerFrame - fld s x ALC_BUILD_GT + n)
      let s2 := if most < buildGt then drawFree s1 else s1
      let m1 := if most < buildGt then m.cut s1 p c (freeVal s1 % (m.bursts.length + 1)) else m
      let s3 := setAllocCh s2 p c { allocCh s p c with map := some { m1 with sealed_ := true } }
      .next (setFld (publishMap s3 p c m1) x ALC_LAST_BUILD_GT n)

/-! ### Output (R74, R122, R124) -/

/-- A burst as the BRX predicts it (R73, R86, R118). Windows and dark slots have their positions already. -/
def predict (s : State) (p c : Nat) (b : Burst) : Burst :=
  if b.kind.ofOnu then
    let res := (rng s p b.onu).res
    let hp := ((upStart s p c b.mapFrame + b.start * unitGt c * 256 : Nat) + res).toNat
    { b with hp := hp, ps := preambleStart b.words hp,
             end_ := ((upStart s p c b.mapFrame + (b.start + b.size) * unitGt c * 256 : Nat) + res).toNat }
  else b

/-- Insert an entry in a schedule that stands in the order of preamble starts. -/
def insertSched (b : Burst) : List Burst → List Burst
  | [] => [b]
  | x :: l => if b.ps < x.ps then b :: x :: l else x :: insertSched b l

/-- The payload that a burst grants to the descriptors that still stand for the Alloc-IDs it names (R125), and the fastest rate used since
ranging (R113). -/
def commitGrants (s : State) (p c : Nat) (b : Burst) : State :=
  let s1 := b.allocs.foldl (fun t e =>
    let d := ad t p e.1
    if d.valid && d.allocId == e.2.1 && d.onu == b.onu then
      setAd t p e.1 { d with granted := min cntMax (d.granted + e.2.2), recent := d.recent ++ [(b.mapFrame, e.2.2)] }
    else t) s
  match b.kind with
  | .data | .template _ =>
    let g := rng s1 p b.onu
    let t := bit40 (profRate b.words)
    setRng s1 p b.onu { g with bitTime40 := if g.bitTime40 = 0 then t else min t g.bitTime40 }
  | _ => s1

/-- A Survey window opens (R103 to R105). SURVEY_SKIPPED counts what the adaptive period left out before it. -/
def openSurvey (s : State) (p c : Nat) (b : Burst) : State :=
  let x := pgRNG p c
  let v := survey s p c
  let w : SurveyWin := ⟨b.mapFrame, b.start, b.prof, 0, false, b.open_, b.close, none, false⟩
  let s1 := setSurvey s p c { v with last := some b.mapFrame, altB := !v.altB, wins := v.wins ++ [w], deferred := false }
  let left := fld s x RNG_PERIOD_NOW / max 1 (fld s x RNG_SURVEY_PERIOD) - 1
  bump (bump (refreshSuppressed s1 p c) x RNG_C_SURVEY_WINDOWS 1) x RNG_C_SURVEY_SKIPPED left

/-- A ranging grant is given (R100, R110): the record is in RANGING. -/
def openRanging (s : State) (p c : Nat) (b : Burst) : State :=
  let g := rng s p b.onu
  let s1 := setRng s p b.onu { g with want := false, grantFrame := some b.mapFrame, grantS := b.start, tries := g.tries + 1 }
  let s2 := if (onu s p b.onu).state = stAssigned then setOnuState s1 p b.onu stRanging else s1
  bump s2 (pgRNG p c) RNG_C_RANGE_GRANTS 1

/-- What an entry of the map counts and begins when it is handed over (R72, R100, R105, R136). -/
def countGrant (s : State) (p c : Nat) (b : Burst) : State :=
  let x := pgALC p c
  match b.kind with
  | .data => onuBump s p b.onu ONU_C_GRANTS 1
  | .template _ => onuBump (bump s (pgTPL p) TPL_C_TPL_GRANTS 1) p b.onu ONU_C_GRANTS 1
  | .keepAlive => onuBump (bump s x ALC_C_KEEPALIVE_GRANTS 1) p b.onu ONU_C_GRANTS 1
  | .ploamOnly => onuBump (bump s x ALC_C_PLOAM_GRANTS 1) p b.onu ONU_C_GRANTS 1
  | .ranging => onuBump (openRanging (reserveQuiet s p c b.mapFrame (b.open_, b.close)) p c b) p b.onu ONU_C_GRANTS 1
  | .survey => openSurvey (reserveQuiet s p c b.mapFrame (b.open_, b.close)) p c b
  | .dark => s

/-- The rate that the lane holds before an entry of the schedule (R353). -/
def endRate (l : LaneSt) (b : Burst) : Option Nat :=
  match ((l.sched.filter (fun y => y.kind != .dark && y.ps ≤ b.ps))).getLast? with
  | some y => some (profRate y.words)
  | none => l.rate

/-- Post the pulse of a pending RSSI request that has found its burst or slot (R82). -/
def findRssi (s : State) (p c : Nat) : State :=
  if (lane s p c).rssi.isSome && !s.grid.posted.any (fun a => a.kind == .rssi p c) then postRssi s p c else s

/-- Hand one entry of the map to the BRX (R74, R79): its pulse and its preload are posted 16 gt ahead or not at all. -/
def handBurst (p c : Nat) (s : State) (b : Burst) : State :=
  let x := pgBRX p c
  let b1 := predict s p c b
  let l := lane s p c
  let rise := pulseRise s p c (needsSwitch (endRate l b1) b1) b1 - sbDelay s p c
  let late : Bool := rise < (now s).fineIndex + 16 * finePerGt
  let s1 := countGrant (commitGrants (setLane s p c { l with sched := insertSched { b1 with late := late } l.sched }) p c b1) p c b1
  if late then lateAction (lateFlag s1 x) x
  else
    let s2 := postAction s1 ⟨.brst p c, x, posOfFine rise⟩
    let s3 := if b1.kind.ofOnu then postAction s2 ⟨.preload p c, x, posOfFine (b1.ps - fld s x BRX_SETTLE_GT * 256)⟩ else s2
    findRssi s3 p c

/-- Count the template grants of a lost map (R124). -/
def noteMisses (s : State) (p n : Nat) : State :=
  (List.range n).foldl (fun t _ => note t (pgTPL p) TPL_F_TPL_MISS TPL_C_TPL_MISS) s

/-- The map of the next frame is not sent (R124). -/
def loseMap (s : State) (p c : Nat) : State := note s (pgALC p c) ALC_F_MISSED_DEADLINE ALC_C_MISSED_DEADLINE

/-- The emission of a map at the boundary of its frame (R19). -/
def mapAction (p c f : Nat) : Action := ⟨.mapOut p c, pgALC p c, ⟨f, 0, 0⟩⟩

/-- MAP_OUTPUT (R19, R36, R122, R124): at f:19,408 the sealed map of the next frame goes to the framer and the BRX, and its emission is
posted for the boundary; a map that is not sealed, or whose emission would be posted late, is not sent. A frame that a step has shortened
may end before T_OUT. -/
def execMapOutput (p : Fin 32) (c : Fin 3) (s : State) : Res :=
  let s0 := reachTick s tOut
  let a := allocCh s p c
  let f := frame s + 1
  let late : Bool := !tickInFrame s tOut || (mapAction p c f).pos.fineIndex < (now s0).fineIndex + 16 * finePerGt
  let none_ := if active s (pgALC p c) ALC_ALC_EN && (chSt s p c).lastMap != some f then loseMap s0 p c else s0
  match a.map with
  | none => .next none_
  | some m =>
    if m.frame ≠ f then .next none_
    else
      let s1 := setAllocCh s0 p c { a with map := none }
      if m.sealed_ && !late then
        let s2 := (m.bursts.insertionSort (fun x y => x.start ≤ y.start)).foldl (handBurst p c) (postAction s1 (mapAction p c f))
        .next (setChSt s2 p c { chSt s2 p c with lastMap := some f, mapStructs := m.structs })
      else
        let s2 := if m.sealed_ then lateAction s1 (pgALC p c) else s1
        .next (noteMisses (loseMap s2 p c) p m.templates)

end Sys2Proof.Machine
end

