-- ==== Sys2Proof/Machine/AllocCmd.lean ====
section
/-! DEFINITION. The commands of the allocation pages and of templates (R120, R121, R132 to R136). -/

namespace Sys2Proof.Machine

/-! ### The guaranteed limit (R121) -/

/-- Two classes of frames that a number of frames belongs to both of: residue and cycle. -/
def coincide (a b : Nat × Nat) : Bool :=
  let d := Nat.gcd a.2 b.2
  a.1 % max 1 d == b.1 % max 1 d

/-- Frames that repeat, from a first one to an end (none: without one), with the weight that falls on each. -/
structure Run where
  first : Nat
  cycle : Nat
  stop : Option Nat
  weight : Nat
  deriving Repr

/-- The earlier of two ends. -/
def earlier : Option Nat → Option Nat → Option Nat
  | some a, some b => some (min a b)
  | a, none => a
  | none, b => b

/-- The frames that two runs share, with their weights together. -/
def Run.meet (a b : Run) : Option Run :=
  let m := max 1 a.cycle
  let from_ := a.first + ceilDiv (b.first - a.first) m * m
  match (List.range (max 1 b.cycle)).find? (fun k => (from_ + k * m) % max 1 b.cycle == b.first % max 1 b.cycle) with
  | none => none
  | some k =>
    let x := from_ + k * m
    let stop := earlier a.stop b.stop
    if stop.all (x < ·) then some ⟨x, Nat.lcm m (max 1 b.cycle), stop, a.weight + b.weight⟩ else none

/-- The runs of a schedule, by offset, from frame `from_` on. -/
def cfgRuns (s : State) (p : Nat) (weight : TplEntry → Nat) (g : TplCfg) (from_ : Nat) (stop : Option Nat) : List Run :=
  (((cfgEntries s p g).map (·.ofs)).dedup).map (fun o =>
    let a := g.begin_ + o
    ⟨a + ceilDiv (from_ - a) (max 1 g.cycle) * max 1 g.cycle, g.cycle, stop,
      (((cfgEntries s p g).filter (fun e => e.ofs == o)).map weight).sum⟩)

/-- The runs of a template slot on a channel (R134): the active schedule up to where the pending one begins or a stop takes effect, then
the pending one. They are never due in one frame. -/
def slotRuns (s : State) (p c : Nat) (weight : TplEntry → Nat) (r : Tpl) : List Run :=
  let n := frame s + 1
  let stopOf := fun (g : TplCfg) => r.stopAt.filter (g.begin_ < ·)
  let on := fun (g : TplCfg) (stop : Option Nat) => if g.ch = c then cfgRuns s p weight g n stop else []
  let act := match r.active with
    | some g => on g (earlier (r.pending.map (·.begin_)) (stopOf g))
    | none => []
  let pen := match r.pending with
    | some g => on g (stopOf g)
    | none => []
  act ++ pen

/-- The weight of the busiest frame among those of `r`: of each slot at most one run. -/
def busiest : List (List Run) → Run → Nat
  | [], r => r.weight
  | t :: ts, r => t.foldl (fun m e => match r.meet e with
    | some q => max m (busiest ts q)
    | none => m) (busiest ts r)

/-- The busiest frame of a channel with schedule `g` in slot t, if one is given (R121, R133). -/
def busiestFrame (s : State) (p c t : Nat) (weight : TplEntry → Nat) (g : Option TplCfg) : Nat :=
  let others := ((List.range 16).filter (· != t)).map (fun u => slotRuns s p c weight (tpl s p u))
  let mine := match g with
    | some g => cfgRuns s p weight g g.begin_ none
    | none => []
  busiest (mine :: others) ⟨frame s + 1, 1, none, 0⟩

/-- The schedules of a channel, active or pending, without slot t. -/
def otherCfgs (s : State) (p c t : Nat) : List TplCfg :=
  ((List.range 16).filter (· != t)).flatMap (fun u => (tpl s p u).cfgs.filter (fun g => g.ch == c))

/-- The sum of R121 with given descriptors and busiest template frame, none when a guarantee has no VALID cold profile to be sized on. -/
def guarSum (s : State) (p c : Nat) (ads : List (Nat × AdRec)) (t : Nat) : Option Nat :=
  let live := ads.filter (fun e => e.2.fixed + e.2.assured != 0)
  let ppu := fun (e : Nat × AdRec) => ppuOf (profWords s p c (coldProfile s p c e.2.onu))
  if live.any (fun e => ppu e == 0) then none
  else
    let a := (live.map (fun e => unitsOf (ppu e) (e.2.fixed + e.2.assured))).sum
    let k := ((channelOnus s p c).map (fun e =>
      overheadOf s p c (profWords s p c (coldProfile s p c e.1)) true 0 + fld s (pgALC p c) ALC_KA_UNITS)).sum
    some (a + t + k)

/-- Is the sum above GUAR_PCT % of the units per frame? -/
def guarBad (s : State) (p c : Nat) (sum : Option Nat) : Bool :=
  match sum with
  | none => true
  | some n => fld s (pgALC p c) ALC_GUAR_PCT * unitsFrame c < n * 100

/-! ### Descriptors -/

/-- Is a value a unicast Alloc-ID of the channel's standard (R120, log entry 25)? -/
def unicastAlloc (c n : Nat) : Bool :=
  if c = 0 then n ≤ 253 || (256 ≤ n && n ≤ 4095) else n ≤ 1022 || (1024 ≤ n && n ≤ 16383)

/-- Set the status bits of the descriptor window. -/
def adStat (s : State) (p c : Nat) (own ch rej : Bool) : State :=
  let b := pgALC p c
  setBit (setBit (setBit s b ALC_OWN_ERR own) b ALC_CH_ERR ch) b ALC_REJECT rej

/-- The data words of the descriptor window, 0x08C to 0x0AC. -/
def AdRec.words (d : AdRec) : List Word :=
  [BitVec.ofNat 32 (d.allocId + d.onu <<< 14 + d.valid.toNat <<< 23 + d.tier <<< 24), BitVec.ofNat 32 d.fixed,
   BitVec.ofNat 32 d.assured, BitVec.ofNat 32 d.max_, BitVec.ofNat 32 (d.weight + d.bpQ <<< 16),
   BitVec.ofNat 32 (d.demand + d.sat.toNat <<< 24 + d.bpLevel <<< 25), 0#32, BitVec.ofNat 32 d.granted,
   BitVec.ofNat 32 (d.granted >>> 32)]

/-- Does a descriptor become valid anew, or name another Alloc-ID or ONU than before (R125)? -/
def newAlloc (d n : AdRec) : Bool := !(d.valid && n.allocId == d.allocId && n.onu == d.onu)

/-- Forget the reports of an Alloc-ID that wait for T_IN (R125): an Alloc-ID that has become valid has sent none since. -/
def dropReports (s : State) (p c allocId : Nat) : State :=
  let a := allocCh s p c
  setAllocCh s p c { a with reports := a.reports.filter (·.allocId != allocId) }

/-- The descriptor that the window spells, over the present one: a new Alloc-ID or ONU has sent no report (R125). -/
def adOfWindow (s : State) (p c : Nat) (d : AdRec) : AdRec :=
  let f := fld s (pgALC p c)
  let n := { d with
    allocId := f ALC_ALLOC_ID, onu := f ALC_ONU_IDX, valid := f ALC_VALID == 1, tier := f ALC_TIER, fixed := f ALC_FIXED,
    assured := f ALC_ASSURED, max_ := f ALC_MAX, weight := f ALC_WEIGHT, bpQ := f ALC_BP_Q }
  if n.valid && !newAlloc d n then n
  else { n with demand := 0, sat := false, bpLevel := 0, report := 0, recent := [] }

/-- May slice v read a descriptor (R120, R62)? One that is not valid is read by the owner of the port alone. -/
def adReadable (s : State) (p v : Nat) (d : AdRec) : Bool :=
  if d.valid then mayUse v (onuOwner s p d.onu) else v == portOwner s p

/-- Does a descriptor name a record that is VALID on another channel (R136)? -/
def adElsewhere (s : State) (p c : Nat) (d : AdRec) : Bool :=
  d.valid && (onu s p d.onu).valid && (onu s p d.onu).ch != c

/-- A command of the descriptor window, `ok` its ownership check. -/
def adCommand (o : Origin) (p c : Nat) (ok : Nat → AdRec → State → Bool) (body : Nat → State → State × Nat) (s : State) : State :=
  let b := pgALC p c
  command o (b + ALC_AD_CMD.off) (b + ALC_AD_IDX.off) (fun s =>
    let i := fld s b ALC_AD_IDX
    let d := ad s p i
    let zero := fun t => setWords t (b + ALC_ALLOC_ID.off) (List.replicate 9 0)
    if !ok i d s then (zero (adStat s p c true false false), 2)
    else if adElsewhere s p c d then (zero (adStat s p c false true false), 1)
    else body i (adStat s p c false false false)) s

/-- AD_READ (R120, R136). -/
def execAdRead (o : Origin) (p : Fin 32) (c : Fin 3) (s : State) : Res :=
  .next (adCommand o p c (fun _ d s => adReadable s p (Origin.slice o) d) (fun i s =>
    (setWords s (pgALC p c + ALC_ALLOC_ID.off) (ad s p i).words, 0)) s)

/-- Does R120 reject a write with VALID 1? -/
def adRejected (s : State) (p c i : Nat) (n : AdRec) : Bool :=
  n.tier == 3 || n.weight == 0 || n.max_ < n.fixed + n.assured || !unicastAlloc c n.allocId || !(onu s p n.onu).valid ||
  (channelAds s p c).any (fun e => e.1 != i && e.2.allocId == n.allocId)

/-- The valid descriptors of a channel with descriptor i replaced. -/
def adsWith (s : State) (p c i : Nat) (n : AdRec) : List (Nat × AdRec) :=
  (i, n) :: (channelAds s p c).filter (fun e => e.1 != i)

/-- AD_WRITE (R120, R121, R347). -/
def execAdWrite (o : Origin) (p : Fin 32) (c : Fin 3) (s : State) : Res :=
  let v := Origin.slice o
  .next (adCommand o p c (fun _ d s =>
      (!d.valid || mayUse v (onuOwner s p d.onu)) && mayUse v (onuOwner s p (adOfWindow s p c d).onu)) (fun i s =>
    let n := adOfWindow s p c (ad s p i)
    if adElsewhere s p c n then (setWords (adStat s p c false true false) (pgALC p c + ALC_ALLOC_ID.off) (List.replicate 9 0), 1)
    else if n.valid && adRejected s p c i n then (adStat s p c false false true, 1)
    else if n.valid && guarBad s p c (guarSum s p c (adsWith s p c i n) (busiestFrame s p c 16 (·.size) none)) then
      (note (adStat s p c false false true) (pgALC p c) ALC_F_GUAR_REJ ALC_C_GUAR_REJ, 1)
    else (setAd (if n.valid && newAlloc (ad s p i) n then dropReports s p c n.allocId else s) p i n, 0)) s)

/-- AD_CLEAR_GRANTED (R136): AD_CMD 3. -/
def execAdClearGranted (o : Origin) (p : Fin 32) (c : Fin 3) (s : State) : Res :=
  .next (adCommand o p c (fun _ d s => mayUse (Origin.slice o) (if d.valid then onuOwner s p d.onu else portOwner s p))
    (fun i s => (setAd s p i { ad s p i with granted := 0 }, 0)) s)

/-! ### ONU burst settings -/

/-- A command of the ONU burst window (R136). -/
def obCommand (o : Origin) (p c : Nat) (body : Nat → State → State × Nat) (s : State) : State :=
  let b := pgALC p c
  command o (b + ALC_OB_CMD.off) (b + ALC_OB_IDX.off) (fun s =>
    let i := fld s b ALC_OB_IDX
    let r := onu s p i
    let fail := fun (t : State) n => setReg (setFld t b ALC_STAT n) (b + ALC_COLD_PROF.off) 0
    if !mayUse (Origin.slice o) (onuOwner s p i) then (fail s 2, 2)
    else if r.valid && r.ch != c then (fail s 4, 1)
    else body i (setFld s b ALC_STAT 0)) s

/-- OB_READ (R136). -/
def execObRead (o : Origin) (p : Fin 32) (c : Fin 3) (s : State) : Res :=
  let b := pgALC p c
  .next (obCommand o p c (fun i s =>
    let r := ob s p i
    let s1 := setFld (setFld s b ALC_COLD_PROF r.cold) b ALC_WARM_PROF r.warm
    (setFld (setBit s1 b ALC_WARM_EN r.warmEn) b ALC_US_KIND r.usKind, 0)) s)

/-- OB_WRITE (R89, R136, R347): the cold profile must be VALID with WARM 0; a change to another rate invalidates the ONU's
phase-memory entry. -/
def execObWrite (o : Origin) (p : Fin 32) (c : Fin 3) (s : State) : Res :=
  let b := pgALC p c
  .next (obCommand o p c (fun i s =>
    let n : ObRec := ⟨fld s b ALC_COLD_PROF, fld s b ALC_WARM_PROF, isSet s b ALC_WARM_EN, if c.val = 1 then fld s b ALC_US_KIND else 0⟩
    let l := profWords s p c n.cold
    let old := profWords s p c (ob s p i).cold
    if (onu s p i).valid && (!profValid l || profWarm l) then (s, 1)
    else
      let s1 := setOb s p i n
      (if (onu s p i).valid && profRate old != profRate l then invalidatePhase s1 p c i else s1, 0)) s)

/-! ### Templates -/

/-- Show the selected template (R136 TPL). A load that waits shows as pending. -/
def showTpl (s : State) (p : Nat) : State :=
  let b := pgTPL p
  let r := tpl s p (fld s b TPL_TPL_SEL)
  let st := if r.pending.isSome then 1 else if r.active.isSome then 2 else 0
  setFldW (setFld (setFld s b TPL_STATE st) b TPL_REJ_CAUSE r.rej) b TPL_BEGIN_FRAME r.beginFrame 2

/-- The stretch of the frame that an entry takes, in units (R133). -/
def entrySpan (s : State) (p c : Nat) (e : TplEntry) : Nat × Nat := (e.start - worstOverhead s p c, e.start + e.size)

/-- Do two entries of schedules meet in some frame? -/
def entriesMeet (s : State) (p c : Nat) (g : TplCfg) (e : TplEntry) (h : TplCfg) (x : TplEntry) : Bool :=
  coincide (g.begin_ + e.ofs, g.cycle) (h.begin_ + x.ofs, h.cycle) && overlap (entrySpan s p c e) (entrySpan s p c x)

/-- Does an entry of a list meet a later one of it? -/
def selfMeet (s : State) (p c : Nat) (g : TplCfg) : List TplEntry → Bool
  | [] => false
  | e :: l => l.any (entriesMeet s p c g e g) || selfMeet s p c g l

/-- The first cause for which R133 rejects a load of schedule g into slot t by slice v, 0 for none. -/
def loadCause (s : State) (p t v : Nat) (g : TplCfg) : Nat :=
  let c := g.ch
  let es := cfgEntries s p { g with count := min g.count (1024 - g.first) }
  let others := otherCfgs s p c t
  if es.any (entryLate c) then 1
  else if es.any (entryEarly s p c) then 2
  else if selfMeet s p c g es || others.any (fun h => (cfgEntries s p h).any (fun x => es.any (fun e => entriesMeet s p c g e h x))) then 3
  else if es.any (fun e => let d := ad s p e.ad
      !d.valid || !(onu s p d.onu).valid || (onu s p d.onu).ch != c || !mayUse v (onuOwner s p d.onu)) then 4
  else if 256 < busiestFrame s p c t (fun _ => 1) (some { g with count := min g.count (1024 - g.first) }) then 5
  else if g.count = 0 || 1024 < g.first + g.count || es.any (fun e => g.cycle ≤ e.ofs) then 6
  else if guarBad s p c (guarSum s p c (channelAds s p c) (busiestFrame s p c t (·.size) (some g))) then 7
  else 0

/-- The frame in which a load that completes now begins (R134): START, or the first congruent frame at or after w + 2. -/
def beginFrame (w start cycle : Nat) : Nat :=
  if w + 2 ≤ start then start else start + ceilDiv (w + 2 - start) cycle * cycle

/-- TPL_LOAD (R133, R134): TPL_CMD 1. -/
def execTplLoad (o : Origin) (p : Fin 32) (s : State) : Res :=
  let b := pgTPL p
  .next (command o (b + TPL_TPL_CMD.off) (b + TPL_TPL_SEL.off) (fun s =>
    let t := fld s b TPL_TPL_SEL
    let start := fld s b TPL_START_LO + fld s b TPL_START_HI * 2 ^ 32
    let w := frame s
    let cycle := max 1 (fld s b TPL_CYCLE)
    let g : TplCfg := ⟨fld s b TPL_CH, cycle, fld s b TPL_FIRST, fld s b TPL_COUNT, start, beginFrame w start cycle⟩
    let r := tpl s p t
    let cause := loadCause s p t (Origin.slice o) g
    if cause ≠ 0 then
      let s1 := setTpl (note s b TPL_F_TPL_REJ TPL_C_TPL_REJ) p t { r with rej := cause }
      let s2 := if cause = 7 then note s1 (pgALC p g.ch) ALC_F_GUAR_REJ ALC_C_GUAR_REJ else s1
      (showTpl s2 p, 1)
    else
      let s1 := setTpl (bump s b TPL_C_TPL_LOADS 1) p t { r with pending := some g, rej := 0, beginFrame := g.begin_ }
      let s2 := if w + 2 ≤ start then s1 else post (note s1 b TPL_F_LATE TPL_C_TPL_LATE) b .tplLate [t, g.begin_]
      (showTpl s2 p, 0)) s)

/-- The frame from which a stop in frame w ends a slot's template (R134): w + 2, or where an earlier stop ends it already. -/
def Tpl.stopFrom (r : Tpl) (w : Nat) : Nat :=
  let g := (r.pending.filter (fun g => g.begin_ < w + 2)).or r.active
  match r.stopAt with
  | some x => if g.any (fun g => g.begin_ < x) then min x (w + 2) else w + 2
  | none => w + 2

/-- TPL_STOP (R134): TPL_CMD 2 stops the template from frame w + 2; a load that would begin later never does. -/
def execTplStop (o : Origin) (p : Fin 32) (s : State) : Res :=
  let b := pgTPL p
  .next (command o (b + TPL_TPL_CMD.off) (b + TPL_TPL_SEL.off) (fun s =>
    let t := fld s b TPL_TPL_SEL
    let r := tpl s p t
    (showTpl (setTpl s p t { r with stopAt := some (r.stopFrom (frame s)), pending := r.pending.filter (fun g => g.begin_ < frame s + 2) }) p,
      0)) s)

/-- TPL_BEGIN (R134): from frame F on the loaded schedule is the active one; a stopped one has ended. -/
def execTplBegin (p : Fin 32) (t : Fin 16) (s : State) : Res :=
  let r := tpl s p t
  let r1 : Tpl := match r.pending with
    | some g => if g.begin_ ≤ frame s then
        { r with active := some g, pending := none, stopAt := r.stopAt.filter (fun x => g.begin_ < x) }
      else r
    | none => r
  let r2 : Tpl := match r1.stopAt with
    | some x => if x ≤ frame s then { r1 with active := none, stopAt := none } else r1
    | none => r1
  .next (showTpl (setTpl s p t r2) p)

/-- ENT_READ (R132). -/
def execEntRead (o : Origin) (p : Fin 32) (s : State) : Res :=
  let b := pgTPL p
  .next (command o (b + TPL_ENT_CMD.off) (b + TPL_ENT_IDX.off) (fun s =>
    let e := tplEntry s p (fld s b TPL_ENT_IDX)
    (setFld (setFld (setFld (setFld s b TPL_FRAME_OFS e.ofs) b TPL_AD_IDX e.ad) b TPL_START e.start) b TPL_SIZE e.size, 0)) s)

/-- Does an entry lie in the range of an active or pending template (R132)? -/
def entryBusy (s : State) (p e : Nat) : Bool :=
  (List.range 16).any (fun t => (tpl s p t).cfgs.any (fun g => g.first ≤ e && e < g.first + g.count))

/-- ENT_WRITE (R132). -/
def execEntWrite (o : Origin) (p : Fin 32) (s : State) : Res :=
  let b := pgTPL p
  .next (command o (b + TPL_ENT_CMD.off) (b + TPL_ENT_IDX.off) (fun s =>
    let e := fld s b TPL_ENT_IDX
    if entryBusy s p e then (flag s b TPL_F_ENT_BUSY, 8)
    else
      let n : TplEntry := ⟨fld s b TPL_FRAME_OFS, fld s b TPL_AD_IDX, fld s b TPL_START, fld s b TPL_SIZE⟩
      ({ s with pon := { s.pon with ent := tset TplEntry.init s.pon.ent (1024 * p + e) n } }, 0)) s)

end Sys2Proof.Machine
end

