-- ==== Sys2Proof/Machine/Events.lean ====
section
/-! DEFINITION. The event rings (R290 to R292, R300), the change journal's stream, window and flush (R297 to R299), slices and ownership
(R293, R294), and the chip reset commands (R300). -/

namespace Sys2Proof.Machine

/-- What the device writes toward the host under a function. -/
def hostRec (s : State) (f : Nat) (x : HostRec) : State :=
  { s with bus := { s.bus with hostOut := s.bus.hostOut ++ [(f, x)] } }

/-! ### Event rings -/

/-- Ring r of function f. -/
def evRing (s : State) (f r : Nat) : EvRing := tget EvRing.init s.evt.rings (15 * f + r)
def setEvRing (s : State) (f r : Nat) (x : EvRing) : State :=
  { s with evt := { s.evt with rings := tset EvRing.init s.evt.rings (15 * f + r) x } }

/-- The records of a ring. -/
def EvRing.size (x : EvRing) : Nat := 2 ^ x.sizeLog2

/-- Is a ring full: TAIL + 1 equals HEAD (R300)? -/
def EvRing.full (x : EvRing) : Bool := (x.tail + 1) % x.size == x.head % x.size

/-- Is an interrupt of a ring due (R300): COAL_CNT records wait, or the oldest has waited COAL_US? -/
def EvRing.due (x : EvRing) (t : Nat) : Bool :=
  x.pend != 0 && (x.coalCnt ≤ x.pend || x.coalUs * finePerFrame ≤ (t - x.since) * 125)

/-- Raise MSI-X vector r of function f when its ring's interrupt is due (R241, R300). -/
def ringIrq (s : State) (f r : Nat) : State :=
  let x := evRing s f r
  if x.due (now s).fineIndex then hostRec (setEvRing s f r { x with pend := 0 }) f (.msix f r) else s

/-- A record goes to ring r of function f, with the tail written back; a stopped or full ring drops it (R291, R300). -/
def deliverTo (s : State) (f r counter : Nat) (e : EvRec) : State :=
  let x := evRing s f r
  if !x.running || x.full then
    bump (flag (setEvRing s f r { x with drops := min (2 ^ 32 - 1) (x.drops + 1) }) pgEVT EVT_F_RING_DROP) pgEVT EVT_C_RING_DROP 1
  else
    let tail := (x.tail + 1) % x.size
    let s1 := setEvRing s f r { x with tail := tail, pend := x.pend + 1, since := if x.pend = 0 then (now s).fineIndex else x.since }
    bump (ringIrq (hostRec (hostRec s1 f (.event e)) f (.tail tail)) f r) pgEVT counter 1

/-- EVENT_DELIVER (R29, R291): the oldest record of the FIFO, to its owner's ring and, for a slice, as a copy to the PF. -/
def execEventDeliver (s : State) : Res :=
  match s.evt.fifo with
  | [] => .next s
  | e :: l =>
    if !released s then .next s
    else
      let s1 := setFld { s with evt := { s.evt with fifo := l } } pgEVT EVT_FIFO_FILL l.length
      let s2 := deliverTo s1 e.slice e.ownRing EVT_C_DELIVERED e
      .next (if e.slice = 0 then s2 else deliverTo s2 0 e.pfRing EVT_C_COPIES { e with copy := true })

/-- Set the status of the event ring window. -/
def evtStat (s : State) (rej : Bool) : State := setFld s pgEVT EVT_STAT (2 * rej.toNat)

/-- A value in two words, the low one first. -/
def twoWords (n : Nat) : List Word := [BitVec.ofNat 32 n, BitVec.ofNat 32 (n >>> 32)]

/-- Show a ring in the window. -/
def showEvRing (s : State) (x : EvRing) : State :=
  let b := pgEVT
  let s1 := setFld (setBit (setFld s b EVT_SIZE_LOG2 x.sizeLog2) b EVT_STATE x.running) b EVT_COAL_CNT x.coalCnt
  let s2 := setWords (setWords (setFld s1 b EVT_COAL_US x.coalUs) (b + 0x090) (twoWords x.base)) (b + 0x098) (twoWords x.tailWb)
  setFld (setFld (setFld s2 b EVT_HEAD x.head) b EVT_TAIL x.tail) b EVT_RING_DROP_CNT x.drops

/-- A command of the event ring window; the window of a VF selects its own function (R300). -/
def evtCmd (o : Origin) (body : State → Nat → Nat → State × Nat) (s : State) : State :=
  command o (pgEVT + EVT_EV_CMD.off) (pgEVT + EVT_EV_FUNC.off) (fun s =>
    let f := match o with
      | .vf v => v
      | _ => fld s pgEVT EVT_EV_FUNC
    body (setFld (evtStat s false) pgEVT EVT_EV_FUNC f) f (fld s pgEVT EVT_EV_RING)) s

/-- EVT_RING_READ (R300): EV_CMD 1. -/
def execEvtRingRead (o : Origin) (s : State) : Res := .next (evtCmd o (fun s f r => (showEvRing s (evRing s f r), 0)) s)

/-- The configuration that the window holds. -/
def EvRing.ofWindow (x : EvRing) (s : State) : EvRing :=
  let b := pgEVT
  { x with sizeLog2 := fld s b EVT_SIZE_LOG2, coalCnt := fld s b EVT_COAL_CNT, coalUs := fld s b EVT_COAL_US,
           base := fld s b EVT_BASE * 4096 + (reg s (b + 0x094)).toNat * 2 ^ 32,
           tailWb := fld s b EVT_TAIL_WB * 8 + (reg s (b + 0x09C)).toNat * 2 ^ 32 }

/-- EVT_RING_WRITE (R300): EV_CMD 2. While a ring runs only HEAD, with which the host frees records, may change. -/
def execEvtRingWrite (o : Origin) (s : State) : Res :=
  .next (evtCmd o (fun s f r =>
    let x := evRing s f r
    let w := x.ofWindow s
    let head := fld s pgEVT EVT_HEAD
    if x.running && w != x then (evtStat s true, 8)
    else if w.sizeLog2 < 6 || 16 < w.sizeLog2 || w.coalCnt == 0 || w.size ≤ head then (evtStat s true, 1)
    else (setEvRing s f r { w with head := head, tail := x.tail % w.size }, 0)) s)

/-- EVT_RING_START (R300): EV_CMD 3. -/
def execEvtRingStart (o : Origin) (s : State) : Res :=
  .next (evtCmd o (fun s f r => (setEvRing s f r { evRing s f r with running := true }, 0)) s)

/-- EVT_RING_STOP (R300): EV_CMD 4. -/
def execEvtRingStop (o : Origin) (s : State) : Res :=
  .next (evtCmd o (fun s f r => (setEvRing s f r { evRing s f r with running := false }, 0)) s)

/-! ### The journal -/

/-- A CSEQ as two register words (R300). -/
def setCseq (s : State) (f : Fld) (n : Nat) : State := setWords s (pgJRN + f.off) (twoWords (n % 2 ^ 48))

/-- JOURNAL_STREAM (R297): a batch of the unstreamed records, oldest first, as far as the host ring has room; the tail after it. -/
def execJournalStream (s : State) : Res :=
  let b := pgJRN
  let size := 2 ^ fld s b JRN_SIZE_LOG2
  let room := (fld s b JRN_HEAD + size - s.jrn.tail % size - 1) % size
  let l := ((s.jrn.ring.take s.jrn.unsent).reverse).take room
  if !released s || !active s b JRN_STREAM_EN || l == [] then .next s
  else
    let tail := (s.jrn.tail + l.length) % size
    let s1 := l.foldl (fun t r => hostRec t 0 (.journal r)) s
    let s2 : State := { s1 with jrn := { s1.jrn with tail := tail, unsent := s1.jrn.unsent - l.length } }
    .next (bump (setCseq (hostRec s2 0 (.tail tail)) JRN_CSEQ_STREAMED ((l.getLast?.map (·.cseq)).getD 0)) b JRN_C_STREAMED l.length)

/-- The ORIGIN byte of a journal record (R295). -/
def Origin.byte : Origin → Nat
  | .pf => 0
  | .vf v => 1 + 8 * v
  | .peer d => 2 + 8 * d
  | .boot => 3
  | .ucode k => 4 + 8 * k
  | .jtag => 5

/-- A journal record as eight words (R295). -/
def JRec.words (r : JRec) : List Word :=
  let st := r.stamp.stamp
  [BitVec.ofNat 32 r.cseq, BitVec.ofNat 32 (r.cseq / 2 ^ 32 % 2 ^ 16 + (Origin.byte r.origin % 256) * 2 ^ 16 + r.code * 2 ^ 24),
   BitVec.ofNat 32 st, BitVec.ofNat 32 (st / 2 ^ 32), BitVec.ofNat 32 r.addr, r.old, r.new, r.mask]

/-- Eight free words (log entry 3). -/
def freeWords (s : State) : List Word := (List.range 8).map (fun i => BitVec.ofNat 32 (freeAt s i))

/-- JOURNAL_RECORD_READ (R300): RD_IDX counts back from the newest record before this write's own. A record that was never entered
reads as free values. -/
def execJournalRecordRead (o : Origin) (data : Word) (s : State) : Res :=
  .next (ownWrite o (pgJRN + JRN_RD_IDX.off) (fun s =>
    let i := bitsOf data 0 16
    let s1 := setFld s pgJRN JRN_RD_IDX i
    match s.jrn.ring[i]? with
    | some r => (setWords s1 (pgJRN + JRN_RD_DATA.off) r.words, 0)
    | none => (drawFrees (setWords s1 (pgJRN + JRN_RD_DATA.off) (freeWords s1)) 8, 0)) s)

/-- Show the eMRAM slot and record that the window selects (R299, R300). A slot never written shows nothing. -/
def showMr (s : State) : State :=
  let b := pgJRN
  let i := fld s b JRN_MR_SLOT
  let x := if i = 1 then s.jrn.slotB else s.jrn.slotA
  let ok := x.written && x.headerOk
  let s1 := setBit (setFld (setBit s b JRN_MR_VALID ok) b JRN_MR_CAUSE x.cause) b JRN_MR_NEWEST (newestFlush s.jrn == some (i == 1))
  let s2 := setWords s1 (b + JRN_MR_FIRST.off) (twoWords x.first ++ twoWords x.last ++ twoWords x.stamp.stamp)
  let r := (x.recs.reverse)[fld s b JRN_MR_IDX]?
  setWords s2 (b + JRN_MR_DATA.off) ((r.map JRec.words).getD (List.replicate 8 0))

/-- JOURNAL_FLUSH_DONE (R298, R299): the records, then the header, stand in the slot. -/
def execJournalFlushDone (s : State) : Res :=
  match s.jrn.flush with
  | none => .next s
  | some f =>
    let x : FlushSlot := ⟨true, true, f.recs, (f.recs.getLast?.map (·.cseq)).getD 0, (f.recs.head?.map (·.cseq)).getD 0, f.cause, f.stamp⟩
    let j := if f.slot = 1 then { s.jrn with slotB := x, flush := none } else { s.jrn with slotA := x, flush := none }
    .next (showMr (note { s with jrn := j } pgJRN JRN_F_FLUSHED JRN_C_FLUSHES))

/-! ### Slices -/

/-- The pages of a port (R20, R232, R282). -/
def portPages (p : Nat) : List Nat :=
  [pgPON p, pgTPL p, pgBND p] ++ (List.range 3).flatMap (fun c => [pgCH p c, pgBRX p c, pgRNG p c, pgALC p c]) ++
    (List.range 6).map (fun l => pgSDS (6 * p + l))

/-- Does slice v own any resource (R26, R293)? -/
def ownsAny (s : State) (v : Nat) : Bool :=
  (List.range 32).any (fun p => portOwner s p == v) ||
  s.own.onu.any (fun e => e.2 == v) || s.own.queue.any (fun e => e.2 == v) || s.own.ring.any (fun e => e.2 == v) ||
  s.cls.rule.any (fun e => e.2.owner == v) || s.cls.domain.any (fun e => e.2 == v)

/-- SLICE_EN_WRITE (R293): bit 0 reads 1; a slice that owns a resource stays. -/
def execSliceEnWrite (o : Origin) (data : Word) (s : State) : Res :=
  .next (ownWrite o (pgSLC + SLC_SLICE_EN.off) (fun s =>
    let old := (reg s (pgSLC + SLC_SLICE_EN.off)).toNat
    if (List.range 32).any (fun v => v != 0 && bitAt old v && !bitAt data.toNat v && ownsAny s v) then (s, 1)
    else (setReg s (pgSLC + SLC_SLICE_EN.off) (data ||| 1), 0)) s)

/-- Set REJECT of the slice window. -/
def slcStat (s : State) (rej : Bool) : State := setFld s pgSLC SLC_STAT (2 * rej.toNat)

/-- How many resources a kind has (R300). -/
def resCount (kind : Nat) : Nat := [32, 16384, 8192, 1024].getD kind 0

/-- The owner of a resource of the slice window (R294). -/
def resOwner (s : State) (kind i : Nat) : Nat :=
  match kind with
  | 0 => portOwner s i
  | 1 => onuOwner s (i / 512) (i % 512)
  | 2 => queueOwner s i
  | _ => ringOwner s i

/-- SLC_READ_OWNER (R294): CMD 1. -/
def execSlcReadOwner (o : Origin) (s : State) : Res :=
  .next (command o (pgSLC + SLC_CMD.off) (pgSLC + 0x080) (fun s =>
    let kind := fld s pgSLC SLC_RES_KIND
    let i := fld s pgSLC SLC_RES_IDX
    if i < resCount kind then (setFld (slcStat s false) pgSLC SLC_OWNER (resOwner s kind i), 0) else (slcStat s true, 1)) s)

/-- Does R293 or R294 refuse an assignment? -/
def assignRefused (s : State) (kind i v : Nat) : Bool :=
  resCount kind ≤ i || !sliceExists s v || (kind == 1 && portOwner s (i / 512) != 0) ||
  (kind == 0 && s.own.onu.any (fun e => e.1 / 512 == i && e.2 != 0 && e.2 != v))

/-- Give a resource to a slice: the ONUs of a port follow it (R294). -/
def assign (s : State) (kind i v : Nat) : State :=
  match kind with
  | 0 =>
    let s1 := (portPages i).foldl (fun t b => setFld t b ANY_OWNER v) s
    { s1 with own := { s1.own with onu := s1.own.onu.filter (fun e => e.1 / 512 != i) } }
  | 1 => { s with own := { s.own with onu := tset dzero s.own.onu i v } }
  | 2 => { s with own := { s.own with queue := tset dzero s.own.queue i v } }
  | _ => { s with own := { s.own with ring := tset dzero s.own.ring i v } }

/-- SLC_ASSIGN (R28, R294): CMD 2, at its change sequence number. -/
def execSlcAssign (o : Origin) (s : State) : Res :=
  .next (command o (pgSLC + SLC_CMD.off) (pgSLC + 0x080) (fun s =>
    let kind := fld s pgSLC SLC_RES_KIND
    let i := fld s pgSLC SLC_RES_IDX
    let v := fld s pgSLC SLC_OWNER
    if assignRefused s kind i v then (note (slcStat s true) pgSLC SLC_F_ASSIGN_REJ SLC_C_ASSIGN_REJ, 1)
    else (postTo (bump (assign (slcStat s false) kind i v) pgSLC SLC_C_ASSIGNS 1) pgSLC v .ownerChange [kind, i, v], 0)) s)

/-! ### Chip reset -/

/-- The keys of R300 and R304. -/
def resetKeyValue : Word := 0x0000C41F#32
def revokeKeyValue : Word := 0x00007E11#32

/-- A write of a key register: its value arms the origin's next write; nothing is stored. -/
def armKey (o : Origin) (addr : Nat) (data value : Word) (s : State) : State :=
  let s1 := ownWrite o addr (fun s => (s, 0)) s
  if data = value ∧ addrReject s o addr = none then { s1 with bus := { s1.bus with armed := (o, addr) :: s1.bus.armed } } else s1

/-- RESET_KEY (R300). -/
def execResetKey (o : Origin) (data : Word) (s : State) : Res :=
  .next (armKey o (pgDEV + DEV_RESET_KEY.off) data resetKeyValue s)

/-- RESET_CMD (R300): performed directly after its key from the same origin; otherwise RESET_REJ. -/
def execResetCmd (o : Origin) (data : Word) (s : State) : Res :=
  let armed := armedBy s o (pgDEV + DEV_RESET_KEY.off)
  let addr := pgDEV + DEV_RESET_CMD.off
  let go := bitsOf data 0 1 == 1
  let s1 := command o addr addr (fun s => if !go || armed then (s, 0) else (flag s pgDEV DEV_F_RESET_REJ, 8)) s
  .next (if go && armed && addrReject s o addr == none then resetChip s1 2 else s1)

/-- CHIP_RESET (R20). -/
def execChipReset (s : State) : Res := .next (resetChip s 2)

end Sys2Proof.Machine
end

