-- ==== Sys2Proof/Machine/Aes.lean ====
section
/-! DEFINITION. AES and AES-CMAC as the cipher block computes them (R218, R226): the forward cipher with keys of 128 and 256 bits
by FIPS-197 and the message authentication code of RFC 4493 (PRESUMED: the manual names them and restates neither, log entry 11). -/

namespace Sys2Proof.Machine

/-- 32 entries of the substitution box, the lowest in the low byte. -/
def sboxRow : Nat → Nat
  | 0 => 0xC072A49CAFA2D4ADF04759FA7DC982CA76ABD7FE2B670130C56F6BF27B777C63
  | 1 => 0x75B227EBE28012079A059618C323C7041531D871F1E5A534CCF73F362693FDB7
  | 2 => 0xCF584C4A39BECB6A5BB1FC20ED00D153842FE329B3D63B52A05A6E1B1A2C8309
  | 3 => 0xD2F3FF1021DAB6BCF5389D928F40A351A89F3C507F02F94585334D43FBAAEFD0
  | 4 => 0xDB0B5EDE14B8EE4688902A22DC4F816073195D643D7EA7C41744975FEC130CCD
  | 5 => 0x08AE7A65EAF4566CA94ED58D6D37C8E779E4959162ACD3C25C2406490A3A32E0
  | 6 => 0x9E1DC186B95735610EF6034866B53E708A8BBD4B1F74DDE8C6B4A61C2E2578BA
  | _ => 0x16BB54B00F2D99416842E6BF0D89A18CDF2855CEE9871E9B948ED9691198F8E1

/-- The substitution box. -/
def sbox (x : Nat) : Nat := (sboxRow (x / 32 % 8) >>> (8 * (x % 32))) % 256

/-- Multiplication by x in the field of AES. -/
def xtime (b : Nat) : Nat := if 2 * b < 256 then 2 * b else (2 * b) ^^^ 0x11B

/-- Two byte strings added bit by bit. -/
def xorBytes (a b : List Nat) : List Nat := List.zipWith (· ^^^ ·) a b

/-- Rows shifted: the state is held by columns. -/
def shiftRows (s : List Nat) : List Nat := (List.range 16).map (fun i => s.getD ((i + 4 * (i % 4)) % 16) 0)

/-- One column mixed. -/
def mixColumn : List Nat → List Nat
  | [a, b, c, d] =>
    let t := a ^^^ b ^^^ c ^^^ d
    [a ^^^ t ^^^ xtime (a ^^^ b), b ^^^ t ^^^ xtime (b ^^^ c), c ^^^ t ^^^ xtime (c ^^^ d), d ^^^ t ^^^ xtime (d ^^^ a)]
  | l => l

/-- The four columns mixed. -/
def mixColumns (s : List Nat) : List Nat :=
  mixColumn (s.take 4) ++ mixColumn ((s.drop 4).take 4) ++ mixColumn ((s.drop 8).take 4) ++ mixColumn (s.drop 12)

/-- The next word of the key schedule: `ws` are the words so far, newest first, `i` the number of the next, `nk` the key's words,
`rc` the round constant. -/
def nextKeyWord (ws : List (List Nat)) (i nk rc : Nat) : List Nat :=
  let t := ws.headD []
  let u :=
    if i % nk = 0 then
      match t.map sbox with
      | [a, b, c, d] => [b ^^^ rc, c, d, a]
      | l => l
    else if nk = 8 ∧ i % 8 = 4 then t.map sbox
    else t
  xorBytes (ws.getD (nk - 1) []) u

/-- The key schedule, newest word first. -/
def keyWords (nk : Nat) : Nat → Nat → Nat → List (List Nat) → List (List Nat)
  | 0, _, _, ws => ws
  | n + 1, i, rc, ws =>
    keyWords nk n (i + 1) (if i % nk = 0 then xtime rc else rc) (nextKeyWord ws i nk rc :: ws)

/-- A byte string cut into pieces of n bytes. -/
def pieces (n : Nat) : Nat → List Nat → List (List Nat)
  | 0, _ => []
  | k + 1, l => l.take n :: pieces n k (l.drop n)

/-- The round keys, the first one first. -/
def roundKeys (key : List Nat) : List (List Nat) :=
  let nk := key.length / 4
  let all := (keyWords nk (4 * (nk + 7) - nk) nk 1 (pieces 4 nk key).reverse).reverse
  pieces 16 (nk + 7) all.flatten

/-- The rounds of AES after the first key has been added. -/
def aesRounds : List (List Nat) → List Nat → List Nat
  | [], s => s
  | [k], s => xorBytes (shiftRows (s.map sbox)) k
  | k :: ks, s => aesRounds ks (xorBytes (mixColumns (shiftRows (s.map sbox))) k)

/-- AES of one block of 16 bytes under a key of 16 or 32 bytes. -/
def aes (key block : List Nat) : List Nat :=
  match roundKeys key with
  | [] => block
  | k :: ks => aesRounds ks (xorBytes block k)

/-- A CMAC subkey from the one before it. -/
def cmacDouble (l : List Nat) : List Nat :=
  let n := 2 * ofBytes l
  beBytes (if n < 2 ^ 128 then n else (n % 2 ^ 128) ^^^ 0x87) 16

/-- The last block of a message with its subkey added: whole, or padded with 0x80 and zeros. -/
def cmacLast (key m : List Nat) : List Nat :=
  let k1 := cmacDouble (aes key (List.replicate 16 0))
  if m.length = 16 then xorBytes m k1
  else xorBytes (m ++ [0x80] ++ List.replicate (15 - m.length) 0) (cmacDouble k1)

/-- The chaining of CMAC over `n` further blocks. -/
def cmacChain (key : List Nat) : Nat → List Nat → List Nat → List Nat
  | 0, x, m => aes key (xorBytes x (cmacLast key m))
  | n + 1, x, m => cmacChain key n (aes key (xorBytes x (m.take 16))) (m.drop 16)

/-- AES-CMAC of a message (R226). -/
def cmac (key m : List Nat) : List Nat := cmacChain key ((m.length - 1) / 16) (List.replicate 16 0) m

/-- The key check value of a key: the first 24 bits of AES of the zero block (R218). -/
def kcvOf (key : List Nat) : Nat := ofBytes ((aes key (List.replicate 16 0)).take 3)

end Sys2Proof.Machine
end

