-- ==== Sys2Proof/Machine/Keys.lean ====
section
/-! DEFINITION. The key store (R217 to R219, R231), MACsec SAs (R224, R225) and zeroization (R227, R228). -/

namespace Sys2Proof.Machine

/-! ### Slots (R217, R218) -/

/-- The key of a slot as bytes: 16 in counter mode, 32 in sealed mode, none when empty. -/
def KeySlot.bytes (k : KeySlot) : List Nat :=
  if k.mode = 1 then beBytes k.key.toNat 16 else if k.mode = 2 then beBytes k.key.toNat 32 else []

/-- The key check value of a slot (R218); 0 for an empty one. -/
def KeySlot.kcv (k : KeySlot) : Nat := if k.mode = 0 then 0 else kcvOf k.bytes

/-- A slot emptied: MODE, key and SALT read 0. -/
def KeySlot.cleared (k : KeySlot) : KeySlot := { k with mode := 0, key := 0, salt := 0 }

/-- Does any tamper alarm stand (R217, R227)? -/
def tampered (s : State) : Bool := fld s pgCIP CIP_CAUSE != 0

/-- A key write as a window or the microcode asks for it: node, DIR, SLOT, MODE, key, SALT and PN. -/
structure KeyReq where
  u : Nat
  dir : Nat
  slot : Nat
  mode : Nat
  key : BitVec 256
  salt : BitVec 48
  pn : Nat
  deriving DecidableEq, Repr

/-- The record of a key entry's ONU. -/
def keyRecord (s : State) (u : Nat) : OnuRec := onu s (u / 512) (u % 512)

/-- The slot that a request names: the first or the second of its direction; none where SLOT names none (R63). -/
def KeyReq.index (r : KeyReq) (s : State) : Option Nat :=
  let c := (keyRecord s r.u).ch
  if firstSlot c ≤ r.slot ∧ r.slot ≤ firstSlot c + 1 then some (r.slot - firstSlot c) else none

/-- A refused key command: REJECT, KEY_REJ (R217). -/
def rejectKey (s : State) : State := note (setFld s pgKEY ⟨KEY_STAT.off, 2, 1, 0⟩ 1) pgKEY KEY_F_KEY_REJ KEY_C_KEY_REJ

/-- A write of a slot that is active or in grace (R65). -/
def busySlot (s : State) (u : Nat) : State :=
  rejectKey (flag s (pgCH (u / 512) (keyRecord s u).ch) CH_F_KEY_SLOT_BUSY)

/-- Does the other slot of the direction hold another non-empty MODE (R217)? -/
def modeClash (e : KeyEntry) (up : Bool) (j mode : Nat) : Bool :=
  let m := (e.slot up (1 - j)).mode
  mode != 0 && m != 0 && m != mode

/-- The slot that a write leaves (R217, R221, R222): counters go on; a sealed key written with PN 0 starts at 1; a G slot counts the
frames it is used for. -/
def KeyReq.fill (r : KeyReq) (s : State) (old : KeySlot) : KeySlot :=
  let c := (keyRecord s r.u).ch
  if r.mode = 0 then old.cleared
  else
    { old with mode := r.mode, key := if r.mode = 1 then BitVec.ofNat 256 (r.key.toNat % 2 ^ 128) else r.key, salt := r.salt,
               pn := if c = 0 then 0 else if r.mode = 2 ∧ r.pn = 0 then 1 else r.pn,
               lastPn := 0, warned := false, exhausted := false, since := frame s }

/-- A key write (R217): its state and its reject code. -/
def writeKey (s : State) (r : KeyReq) : State × Nat :=
  let rec_ := keyRecord s r.u
  let e := keyEntry s r.u
  if tampered s then (rejectKey s, 7)
  else if !rec_.valid then (rejectKey s, 8)
  else if r.dir = 2 then
    (bump (setKeyEntry s r.u { e with ploam := BitVec.ofNat 128 r.key.toNat }) pgKEY KEY_C_KEY_WRITES 1, 0)
  else
    let up : Bool := r.dir == 1
    match r.index s with
    | none => (rejectKey s, 1)
    | some j =>
      if slotBusy s e up j then (busySlot s r.u, 8)
      else if modeClash e up j r.mode then (rejectKey s, 8)
      else if r.dir = 3 ∨ r.mode = 3 ∨ (rec_.ch = 0 ∧ (r.mode = 2 ∨ up)) then (rejectKey s, 1)
      else
        (bump (setKeyEntry s r.u (e.withSlot up j (r.fill s (e.slot up j)))) pgKEY KEY_C_KEY_WRITES 1, 0)

/-- An invalidation of a slot that is neither active nor in grace (R217). -/
def invalidateKey (s : State) (r : KeyReq) : State × Nat :=
  let e := keyEntry s r.u
  if r.dir = 2 then (setKeyEntry s r.u { e with ploam := 0 }, 0)
  else
    let up : Bool := r.dir == 1
    match r.index s with
    | none => (rejectKey s, 1)
    | some j =>
      if slotBusy s e up j then (busySlot s r.u, 8)
      else if r.dir = 3 then (rejectKey s, 1)
      else (setKeyEntry s r.u (e.withSlot up j (e.slot up j).cleared), 0)

/-! ### The key window (R231) -/

/-- The request that the window's words spell. -/
def keyOfWindow (s : State) : KeyReq :=
  let b := pgKEY
  let key := ofBytes ((wordsAt s (b + KEY_KEY_DATA.off) 8).flatMap (fun w => beBytes w.toNat 4))
  let mode := fld s b KEY_MODE
  let long := reg s (b + KEY_PN.off + 4)
  ⟨fld s b KEY_KEY_IDX, fld s b KEY_DIR, fld s b KEY_SLOT, mode,
   BitVec.ofNat 256 (if mode = 2 ∧ fld s b KEY_DIR ≠ 2 then key else key / 2 ^ 128),
   BitVec.ofNat 48 ((reg s (b + KEY_SALT.off)).toNat + (bitsOf (reg s (b + KEY_SALT.off + 4)) 0 16) * 2 ^ 32),
   (reg s (b + KEY_PN.off)).toNat + bitsOf long 0 16 * 2 ^ 32⟩

/-- Show a slot in the window. -/
def showSlot (s : State) (k : KeySlot) (kcv : Nat) (active : Bool) : State :=
  let b := pgKEY
  let two := fun n => [BitVec.ofNat 32 n, BitVec.ofNat 32 (n >>> 32)]
  let s1 := setFld (setFld s b KEY_MODE k.mode) b KEY_KCV kcv
  let s2 := setWords (setWords (setWords s1 (b + KEY_SALT.off) (two k.salt.toNat)) (b + KEY_PN.off) (two k.pn)) (b + KEY_LAST_PN.off)
    (two k.lastPn)
  let s3 := setFld s2 b KEY_ENTRY_FLAGS (k.warned.toNat + 2 * k.exhausted.toNat)
  setFld (setWords s3 (b + KEY_SLOT_CNT.off) (cntWords 4 k.cnts)) b ⟨KEY_STAT.off, 4, 1, 0⟩ active.toNat

/-- A command of the key window: the entry must be the slice's, otherwise OWN_ERR is set and the words read 0 (R231). -/
def keyCmd (o : Origin) (body : State → KeyReq → State × Nat) (s : State) : State :=
  command o (pgKEY + KEY_CMD.off) (pgKEY + KEY_KEY_IDX.off) (fun s =>
    let r := keyOfWindow s
    let s1 := setFld s pgKEY KEY_STAT 0
    if mayUse (Origin.slice o) (onuOwner s (r.u / 512) (r.u % 512)) then body s1 r
    else (setFld (showSlot s1 KeySlot.init 0 false) pgKEY ⟨KEY_STAT.off, 1, 1, 0⟩ 1, 2)) s

/-- KEY_READ (R218, R231): CMD 1. -/
def execKeyRead (o : Origin) (s : State) : Res :=
  .next (keyCmd o (fun s r =>
    let e := keyEntry s r.u
    if r.dir = 2 then (showSlot s KeySlot.init (kcvOf (beBytes e.ploam.toNat 16)) false, 0)
    else if r.dir = 3 then (rejectKey s, 1)
    else
      let up : Bool := r.dir == 1
      match r.index s with
      | none => (rejectKey s, 1)
      | some j =>
        let k := e.slot up j
        (showSlot s k k.kcv ((if up then e.usActive else e.dsActive) == some j), 0)) s)

/-- KEY_WRITE (R217, R218): CMD 2. `conflict` says that the supervision cluster's write to the same entry won the cycle. -/
def execKeyWrite (o : Origin) (conflict : Bool) (s : State) : Res :=
  .next (keyCmd o (fun s r =>
    if conflict then (setFld s pgKEY ⟨KEY_STAT.off, 3, 1, 0⟩ 1, 4) else writeKey s r) s)

/-- KEY_INVALIDATE (R217): CMD 3. -/
def execKeyInvalidate (o : Origin) (s : State) : Res := .next (keyCmd o invalidateKey s)

/-! ### MACsec SAs (R224, R225, R231) -/

/-- The SAs of a port. -/
def saAt (s : State) (q i : Nat) : MacSa := tget MacSa.init s.link.sa (68 * q + i)
def setSa (s : State) (q i : Nat) (r : MacSa) : State :=
  { s with link := { s.link with sa := tset MacSa.init s.link.sa (68 * q + i) r } }

/-- Set the status of an SA window: REJECT and VALID. -/
def saStat (s : State) (q : Nat) (rej valid : Bool) : State := setFld s (pgMSC q) MSC_SA_STAT (2 * rej.toNat + 4 * valid.toNat)

/-- A command of an SA window; there are 4 transmit and 64 receive SAs. -/
def saCmd (o : Origin) (q : Nat) (body : State → Nat → State × Nat) (s : State) : State :=
  let b := pgMSC q
  command o (b + MSC_SA_CMD.off) (b + MSC_SA_IDX.off) (fun s =>
    let i := fld s b MSC_SA_IDX
    if 68 ≤ i then (saStat s q true false, 1) else body s i) s

/-- SA_READ (R231): SA_CMD 1; SALT and SAK read 0. -/
def execSaRead (o : Origin) (q : Fin 24) (s : State) : Res :=
  let b := pgMSC q
  .next (saCmd o q (fun s i =>
    let r := saAt s q i
    let two := fun n => [BitVec.ofNat 32 n, BitVec.ofNat 32 (n >>> 32)]
    let s1 := setReg (setFld (saStat s q false r.valid) b MSC_SUITE r.suite) (b + MSC_SSCI.off) r.ssci
    (setWords (setWords s1 (b + MSC_SCI.off) (two r.sci.toNat)) (b + MSC_NEXT_PN.off) (two r.pn), 0)) s)

/-- The SA that the window's words spell. -/
def saOfWindow (s : State) (q : Nat) : MacSa :=
  let b := pgMSC q
  let low := fun (l : List Word) => l.foldr (fun w a => a * 2 ^ 32 + w.toNat) 0
  ⟨true, fld s b MSC_SUITE, BitVec.ofNat 64 (low (wordsAt s (b + MSC_SCI.off) 2)), reg s (b + MSC_SSCI.off),
   BitVec.ofNat 96 (low (wordsAt s (b + MSC_SALT.off) 3)),
   BitVec.ofNat 256 (ofBytes ((wordsAt s (b + MSC_SAK.off) 8).flatMap (fun w => beBytes w.toNat 4))),
   low (wordsAt s (b + MSC_NEXT_PN.off) 2), false, false⟩

/-- SA_WRITE (R224, R228): SA_CMD 2; rejected while a tamper alarm stands. -/
def execSaWrite (o : Origin) (q : Fin 24) (s : State) : Res :=
  .next (saCmd o q (fun s i =>
    if tampered s then (saStat s q true (saAt s q i).valid, 7)
    else (setSa (saStat s q false true) q i (saOfWindow s q), 0)) s)

/-- SA_INVALIDATE (R231): SA_CMD 3. -/
def execSaInvalidate (o : Origin) (q : Fin 24) (s : State) : Res :=
  .next (saCmd o q (fun s i =>
    (setSa (saStat s q false false) q i { saAt s q i with valid := false, key := 0, salt := 0 }, 0)) s)

/-- An uplink port. -/
def eth (s : State) (q : Nat) : EthSt := tget EthSt.init s.link.eth q
def setEth (s : State) (q : Nat) (r : EthSt) : State :=
  { s with link := { s.link with eth := tset EthSt.init s.link.eth q r } }

/-- TX_AN_SWITCH (R225): at the port's frame boundary the SA that TX_AN names takes over, when it is valid. -/
def execTxAnSwitch (q : Fin 24) (s : State) : Res :=
  let an := fld s (pgMSC q) MSC_TX_AN
  if (saAt s q an).valid then .next (setEth s q { eth s q with an := an }) else .next s

/-! ### Tamper (R227, R228) -/

/-- Every slot, key and SALT of an entry reads zero (R228). -/
def KeyEntry.zeroed (e : KeyEntry) : KeyEntry :=
  { e with ds0 := e.ds0.cleared, ds1 := e.ds1.cleared, us0 := e.us0.cleared, us1 := e.us1.cleared, ploam := 0 }

/-- The key store and the SAs are emptied; ZEROIZED is set and an event is posted (R228). -/
def zeroize (s : State) : State :=
  let keys := s.keys.foldl (fun t e => tset KeyEntry.init t e.1 e.2.zeroed) s.keys
  let sa := s.link.sa.foldl (fun t e => tset MacSa.init t e.1 { e.2 with valid := false, key := 0, salt := 0 }) s.link.sa
  post (setBit { s with keys := keys, link := { s.link with sa := sa } } pgCIP CIP_ZEROIZED true) pgCIP .zeroized []

/-- A tamper alarm (R227, R228): its CAUSE bit, the fault collector's tamper source, and zeroization. -/
def tamper (s : State) (alarm : Nat) : State :=
  let s1 := setFld s pgCIP CIP_CAUSE (fld s pgCIP CIP_CAUSE ||| 2 ^ alarm)
  let s2 := post (note s1 pgCIP CIP_F_TAMPER CIP_C_TAMPER_EVENTS) pgCIP .tamper [alarm]
  zeroize (notice s2 55 none)

/-- TAMPER_ALARM (R227). -/
def execTamperAlarm (alarm : Fin 6) (s : State) : Res := .next (tamper s alarm)

/-- KEY_ZEROIZE (R227): a write of 1 to CIP.KEY_ZEROIZE raises alarm 5. -/
def execKeyZeroize (o : Origin) (data : Word) (s : State) : Res :=
  .next (ownWrite o (pgCIP + CIP_KEY_ZEROIZE.off) (fun s => (if data.getLsbD 0 then tamper s 5 else s, 0)) s)

end Sys2Proof.Machine
end

