-- ==== Sys2Proof/Machine/Pairs.lean ====
section
/-! DEFINITION. Custody and protected pairs (R83, R265 to R267, R269 to R271, R274, R276 to R279): the pair window and its commands,
taking and losing custody, the lease, CHECK, and what a peer's PAIR record does. -/

namespace Sys2Proof.Machine

/-! ### The laser (R83, R271) -/

/-- What TXDIS[p] is to be (R83). -/
def txWanted (s : State) (p : Nat) : Nat :=
  if !released s then txUndriven
  else if fld s (pgPON p) PON_CH_EN = 0 || !isSet s (pgPON p) ANY_ENABLE || !holdsCustody s p || s.boot.warnPin || s.boot.warn || txForced s p then txHigh
  else txLow

/-- Drive TXDIS[p] as it is to be. -/
def refreshTx (s : State) (p : Nat) : State := setTxdis s p (txWanted s p)

/-- The same where R83 names no exception: the low state is left at the next frame boundary. -/
def settleTx (s : State) (p : Nat) : State := if txdis s p = txLow ∧ txWanted s p ≠ txLow then s else refreshTx s p

/-- The frames that a side's laser settles. -/
def laserSettle (s : State) : Nat := fld s pgPRT PRT_LASER_SETTLE

/-- A side takes custody (R265, R266, R271): TXDIS goes low, it enters SETTLE, a settle period starts, and its lease is disarmed. -/
def takeCustody (s : State) (p : Nat) : State :=
  let r := pair s p
  let s1 := setPairState (setPair s p { r with armed := false, due := some (frame s + laserSettle s), watch := none, light := false,
                                               claim := none, custody := r.custody || !r.en }) p pSettle
  startSettle (refreshTx s1 p) (portNodes s1 p)

/-- CUSTODY_TAKE (R269, R271): at its custody point a side in TAKEOVER takes the tree. -/
def execCustodyTake (p : Fin 32) (s : State) : Res :=
  let r := pair s p
  match r.due with
  | some f => if r.en && r.state == pTakeover && f ≤ frame s then .next (bump (takeCustody s p) pgPRT PRT_C_TAKEOVERS 1) else .next s
  | none => .next s

/-- CLAIM_APPLY (R266). -/
def execClaimApply (p : Fin 32) (s : State) : Res :=
  let r := pair s p
  match r.claim with
  | some f => if !r.en && f ≤ frame s then .next (takeCustody s p) else .next s
  | none => .next s

/-- LASER_SETTLE_END (R271): ACTIVE, with the roll-call maps to come. A port without a pair is past its SETTLE. -/
def execLaserSettleEnd (p : Fin 32) (s : State) : Res :=
  let r := pair s p
  match r.due with
  | some f =>
    if r.state == pSettle && f ≤ frame s then
      let s1 := setPair s p { r with due := none, rollcall := fld s pgPRT PRT_ROLLCALL, armed := false }
      .next (flag (setPairState s1 p (if r.en then pActive else pOff)) pgPRT PRT_F_BEGIN)
    else .next s
  | none => .next s

/-! ### Two sides (R265, R267, R278) -/

/-- The other port of an enabled pair on the device, when it is enabled and names this one (R278). -/
def localPeer (s : State) (p : Nat) : Option Nat :=
  let r := pair s p
  let x := pair s r.peerPort
  if r.en && r.kind == 0 && x.en && x.kind == 0 && x.peerPort == p then some r.peerPort else none

/-- Does a state stand for custody held or being taken? -/
def custodyState (st : Nat) : Bool := st == pTakeover || st == pSettle || st == pActive

/-- A side goes to SYNCING with a full image requested (R277), or to STANDBY where no mirror is needed (R278). It takes part in no
custody. -/
def standBy (s : State) (p : Nat) : State :=
  let r := pair s p
  let s1 := setPair s p { r with armed := false, due := none, watch := none, rollcall := 0, resync := r.kind == 1 }
  refreshTx (setPairState s1 p (if r.kind = 1 then pSyncing else pStandby)) p

/-- Who takes a tree of which neither side holds custody (R265): the side with START_ACTIVE alone, otherwise the lower. -/
def startsHere (mine peers : Bool) (lower : Bool) : Bool := if mine = peers then lower else mine

/-- Both sides of a pair on the device are enabled: the one that starts takes custody, the other stands by. -/
def decideLocal (s : State) (p q : Nat) : State :=
  let a := pair s p
  let b := pair s q
  if custodyState b.state then standBy s p
  else if custodyState a.state then standBy s q
  else if startsHere a.startActive b.startActive (p < q) then standBy (takeCustody s p) q
  else standBy (takeCustody s q) p

/-! ### The window (R265, R279) -/

/-- Set REJECT of the pair window. -/
def pairStat (s : State) (rej : Bool) : State := setBit s pgPRT PRT_REJECT rej

/-- A refused pair write (R265). -/
def rejectPair (s : State) : State := flag (pairStat s true) pgPRT PRT_F_PAIR_REJ

/-- A command of the pair window. -/
def pairCmd (o : Origin) (body : State → Nat → State × Nat) (s : State) : State :=
  command o (pgPRT + PRT_PAIR_CMD.off) (pgPRT + PRT_PAIR_IDX.off) (fun s => body (pairStat s false) (fld s pgPRT PRT_PAIR_IDX)) s

/-- The ticks of a link. -/
def tick (s : State) (m : Nat) : TickSt := tget TickSt.init s.prot.tick m
def setTick (s : State) (m : Nat) (r : TickSt) : State :=
  { s with prot := { s.prot with tick := tset TickSt.init s.prot.tick m r } }

/-- Show a pair. -/
def showPair (s : State) (p : Nat) : State :=
  let b := pgPRT
  let r := pair s p
  let t := tick s r.link
  let s1 := setFld (setBit (setFld (setFld (setBit s b PRT_EN r.en) b PRT_KIND r.kind) b PRT_PEER_PORT r.peerPort) b PRT_START_ACTIVE
    r.startActive) b PRT_LINK r.link
  let s2 := setBit (setFld (setBit s1 b PRT_AUTO_YIELD r.autoYield) b PRT_STATE r.state) b PRT_ARMED r.armed
  let s3 := setFld (setFld s2 b PRT_LEASE_FRAMES r.lease) b PRT_LEASE_LEFT (if r.armed then r.expiry - frame s else 0)
  let s4 := setFld s3 b PRT_DELTA_FINE (unsignedOf 24 r.delta)
  setFld (setFld s4 b PRT_LAST_TICK_RX (r.heard.getD 0)) b PRT_LAST_TICK_TX (t.lastTx.getD 0)

/-- PAIR_READ (R279): PAIR_CMD 1. -/
def execPairRead (o : Origin) (s : State) : Res := .next (pairCmd o (fun s p => (showPair s p, 0)) s)

/-- Does port p belong to an enabled pair of another port on the device? -/
def inOtherPair (s : State) (p : Nat) : Bool :=
  s.prot.pair.any (fun e => e.1 != p && e.2.en && e.2.kind == 0 && e.2.peerPort == p)

/-- Has a link a known peer (R261): it is up and a TICK has named one? -/
def knownPeer (s : State) (m : Nat) : Bool := fld s (pgMSH m) MSH_STATE == 3 && (tick s m).heardLink.isSome

/-- The pair that the window holds. -/
def pairOfWindow (s : State) (r : PairSt) : PairSt :=
  let b := pgPRT
  { r with kind := fld s b PRT_KIND, peerPort := fld s b PRT_PEER_PORT, link := fld s b PRT_LINK,
           startActive := isSet s b PRT_START_ACTIVE, autoYield := isSet s b PRT_AUTO_YIELD, lease := fld s b PRT_LEASE_FRAMES,
           delta := signedOf 24 (fld s b PRT_DELTA_FINE) }

/-- Is LEASE_FRAMES within its range (R265)? -/
def leaseOk (n : Nat) : Bool := 8 ≤ n && n ≤ 256

/-- May the window's pair be enabled on port p (R265)? -/
def pairOk? (s : State) (p : Nat) (w : PairSt) : Bool :=
  leaseOk w.lease &&
  (if w.kind = 0 then
    w.peerPort != p && !(s.prot.pair.any (fun e => e.1 != w.peerPort && e.2.en && e.2.kind == 0 && e.2.peerPort == p)) &&
      !(s.prot.pair.any (fun e => e.1 != p && e.2.en && e.2.kind == 0 && e.2.peerPort == w.peerPort)) &&
      (let x := pair s w.peerPort; !x.en || (x.kind == 0 && x.peerPort == p))
   else w.link != 3 && knownPeer s w.link && isSet s pgPRT PRT_GM_LOCKED && !inOtherPair s p)

/-- A pair is enabled (R265, R266): a port that held its tree by itself is ACTIVE unless the other side holds custody; otherwise it is
OFF until both sides are known to be enabled. -/
def enablePair (s : State) (p : Nat) (w : PairSt) : State :=
  let held := holdsCustody s p
  let s1 := setPairState (setPair s p { w with en := true, custody := false, armed := false, claim := none, due := none, next := none,
                                               heard := none, peerState := pOff, peerSync := false, missRun := 0, losRun := 0 }) p
    (if held then pActive else pOff)
  match localPeer s1 p with
  | some q => decideLocal s1 p q
  | none => settleTx s1 p

/-- A pair is disabled (R266): an ACTIVE side keeps its tree by itself, any other is dark. -/
def disablePair (s : State) (p : Nat) (w : PairSt) : State :=
  let r := pair s p
  let s1 := setPairState (setPair s p { w with en := false, custody := r.state == pActive, armed := false, due := none, watch := none,
                                               rollcall := 0, next := none, resync := false }) p pOff
  settleTx s1 p

/-- PAIR_WRITE (R265, R266): PAIR_CMD 2. While EN is 1 only LEASE_FRAMES, DELTA_FINE and AUTO_YIELD change, from the next tick. -/
def execPairWrite (o : Origin) (s : State) : Res :=
  .next (pairCmd o (fun s p =>
    let r := pair s p
    let w := pairOfWindow s r
    if isSet s pgPRT PRT_EN then
      if r.en then
        if !leaseOk w.lease then (rejectPair s, 1)
        else if w.kind ≠ r.kind ∨ w.peerPort ≠ r.peerPort ∨ w.link ≠ r.link ∨ w.startActive ≠ r.startActive then (rejectPair s, 8)
        else (setPair s p { r with next := some (w.lease, w.delta, w.autoYield) }, 0)
      else if pairOk? s p w then (enablePair s p w, 0)
      else (rejectPair s, 1)
    else if r.en then (disablePair s p w, 0)
    else (setPair s p w, 0)) s)

/-- A value written while the pair was enabled applies at a tick (R265). -/
def applyNext (s : State) (p : Nat) : State :=
  let r := pair s p
  match r.next with
  | some (l, d, a) => setPair s p { r with lease := l, delta := d, autoYield := a, next := none }
  | none => s

/-! ### Yield, resync, claim (R266, R277) -/

/-- The state that the peer side reports; the other port's own on the device. -/
def peerReports (s : State) (p : Nat) : Nat :=
  match localPeer s p with
  | some q => (pair s q).state
  | none => (pair s p).peerState

/-- The ACTIVE side yields (R277): TXDIS high at once, DARK, and a PAIR record that the peer takes as a dark notice. -/
def yieldPair (s : State) (p : Nat) : State :=
  let s1 := setPairState (setPair (setTxdis s p txHigh) p { pair s p with armed := false, watch := none }) p pDark
  let s2 := bump s1 pgPRT PRT_C_YIELDS 1
  match localPeer s p with
  | some q => darkPair s2 q
  | none => s2

/-- May a side yield: ACTIVE, with its peer in STANDBY? -/
def mayYield (s : State) (p : Nat) : Bool := (pair s p).en && (pair s p).state == pActive && peerReports s p == pStandby

/-- PAIR_YIELD (R277): PAIR_CMD 3. -/
def execPairYield (o : Origin) (s : State) : Res :=
  .next (pairCmd o (fun s p => if mayYield s p then (yieldPair s p, 0) else (pairStat s true, 8)) s)

/-- AUTO_YIELD (R277). -/
def execAutoYield (p : Fin 32) (s : State) : Res :=
  let r := pair s p
  if r.autoYield && max 1 (fld s pgPRT PRT_YIELD_LOS) ≤ r.losRun && mayYield s p then .next (yieldPair s p) else .next s

/-- PAIR_RESYNC (R277): PAIR_CMD 5 asks for a full image again. -/
def execPairResync (o : Origin) (s : State) : Res :=
  .next (pairCmd o (fun s p =>
    let r := pair s p
    if r.en && r.kind == 1 && (r.state == pStandby || r.state == pSyncing) then (bump (standBy s p) pgPRT PRT_C_RESYNCS 1, 0)
    else (pairStat s true, 8)) s)

/-- PAIR_CLAIM (R266): PAIR_CMD 6. -/
def execPairClaim (o : Origin) (s : State) : Res :=
  .next (pairCmd o (fun s p =>
    if (pair s p).en || inOtherPair s p then (pairStat s true, 8)
    else (setPair s p { pair s p with claim := some (frame s + 2) }, 0)) s)

/-! ### The lease (R270, R274) -/

/-- The CHECK window after the last slot heard (R274). -/
def checkWindow (s : State) (p : Nat) : Nat × Nat :=
  let r := pair s p
  let a := r.heard.getD (frame s - r.lease) + r.lease + 2 + laserSettle s
  (a, a + fld s pgPRT PRT_ROLLCALL + 10)

/-- Has the device declared the peer on link m failed? -/
def peerFailed (s : State) (m : Nat) : Bool := bitAt (fld s pgPRT PRT_PEER_FAILED) m

/-- LEASE_RUNDOWN (R270, R274): TXDIS high at once and DARK; CHECK when the peer has been declared failed. -/
def execLeaseRundown (p : Fin 32) (s : State) : Res :=
  let r := pair s p
  if r.en && r.armed && r.expiry ≤ frame s then
    let s1 := setPair (setTxdis s p txHigh) p { r with armed := false, watch := some (checkWindow s p), light := false }
    let s2 := setPairState s1 p (if r.kind = 1 && peerFailed s r.link then pCheck else pDark)
    .next (notice (bump (raise s2 pgPRT PRT_F_LEASE_RUNDOWN [p]) pgPRT PRT_C_LEASE_RUNDOWNS 1) 58 none)
  else .next s

/-- A side in CHECK takes its tree back (R274). -/
def reclaimTree (s : State) (p : Nat) : State := note (takeCustody s p) pgPRT PRT_F_RECLAIM PRT_C_RECLAIMS

/-- Is the CHECK window of a side over? -/
def checkOver (s : State) (p : Nat) : Bool :=
  let r := pair s p
  r.en && r.state == pCheck && r.watch.any (fun w => w.2 ≤ frame s)

/-- CHECK_WINDOW_END (R274). -/
def execCheckWindowEnd (p : Fin 32) (s : State) : Res :=
  let r := pair s p
  if !checkOver s p then .next s
  else if r.light then .next (flag (setPairState (setPair s p { r with watch := none }) p pDark) pgPRT PRT_F_LIGHT_SEEN)
  else .next (if isSet s pgPRT PRT_RECLAIM_EN then reclaimTree s p else s)

/-- PAIR_RECLAIM (R274): PAIR_CMD 4, for a side whose CHECK has ended without light. -/
def execPairReclaim (o : Origin) (s : State) : Res :=
  .next (pairCmd o (fun s p => if checkOver s p && !(pair s p).light then (reclaimTree s p, 0) else (pairStat s true, 8)) s)

/-- A tick of slot f was heard on link m (R270): each pair toward that peer notes it, and an armed lease is rewound. -/
def rewind (s : State) (m f : Nat) : State :=
  (List.range 32).foldl (fun t p =>
    let r := pair t p
    if r.en && r.kind == 1 && r.link == m then
      setPair t p { r with heard := some (max f (r.heard.getD 0)), expiry := if r.armed then max r.expiry (f + r.lease) else r.expiry }
    else t) s

/-! ### The peer's side (R265, R270, R275, R277) -/

/-- A full image is complete (R277): SYNC_DONE goes out and the side is in STANDBY. -/
def syncDone (s : State) (p : Nat) : State :=
  let r := pair s p
  flag (setPairState (setPair s p { r with resync := false, missRun := 0, peerSync := true }) p pStandby) pgPRT PRT_F_SYNC_DONE

/-- SYNC_COMPLETE (R277). -/
def execSyncComplete (p : Fin 32) (s : State) : Res :=
  let r := pair s p
  if r.en && r.kind == 1 && r.state == pSyncing then .next (syncDone s p) else .next s

/-- Is this device the lower one of a link's two ends? -/
def lowerHere (s : State) (m : Nat) : Bool := fld s pgDEV DEV_DEV_ID < fld s (pgMSH m) MSH_PEER_DEV

/-- The peer's PAIR record (R265, R270, R275, R277). The peer's START_ACTIVE is in no record: it is free (log entry 3). -/
def peerRecord (s : State) (p st : Nat) (sync : Bool) : State :=
  let r := pair s p
  let s1 := setPair s p { r with peerState := st, peerSync := sync }
  let neither : Bool := (r.state == pOff || r.state == pDark) && r.watch.isNone && !custodyState st && st != pSyncing && st != pStandby
  if r.state = pActive then
    if st = pStandby then
      if r.armed then s1 else setPair s1 p { r with peerState := st, peerSync := sync, armed := true, expiry := frame s + r.lease }
    else setPair s1 p { r with peerState := st, peerSync := sync, armed := false }
  else if (r.state = pStandby ∨ r.state = pSyncing) ∧ st = pDark then darkPair s1 p
  else if (r.state = pOff ∨ r.state = pDark ∨ r.state = pCheck) ∧ custodyState st then standBy s1 p
  else if neither && st == pOff then
    let s2 := drawFree s1
    if startsHere r.startActive (bitAt (freeVal s1) 0) (lowerHere s r.link) then takeCustody s2 p else s2
  else s1

/-! ### A peer declared failed (R269, R274) -/

/-- What a declaration does to a pair: after missed slots, or on a dark notice. -/
def failPair (s : State) (p : Nat) (dark : Bool) : State :=
  let r := pair s p
  if dark then darkPair s p
  else if r.state = pStandby then beginTakeover s p ((tick s r.link).lastTx.getD (frame s) + r.lease + 2)
  else if r.state = pSyncing then flag s pgPRT PRT_F_TAKEOVER_BLOCKED
  else if r.state = pDark && r.watch.isSome then setPairState s p pCheck
  else s

/-- The enabled pairs toward the peer of link m. -/
def pairsToward (s : State) (m : Nat) : List Nat :=
  (List.range 32).filter (fun p => let r := pair s p; r.en && r.kind == 1 && r.link == m)

/-- A peer is declared failed (R269): PEER_FAIL, and each pair toward it acts. -/
def declareFail (s : State) (m : Nat) (dark : Bool) : State :=
  let s1 := setFld s pgPRT PRT_PEER_FAILED (fld s pgPRT PRT_PEER_FAILED ||| 2 ^ m)
  let s2 := bump (raise s1 pgPRT PRT_F_PEER_FAIL [m]) pgPRT PRT_C_PEER_FAILS 1
  (pairsToward s2 m).foldl (fun t p => failPair t p dark) s2

end Sys2Proof.Machine
end

