-- ==== Sys2Proof/Machine/Mesh.lean ====
section
/-! DEFINITION. One grid for the board (R261 to R264) and the ticks on two paths (R268, R269). -/

namespace Sys2Proof.Machine

/-! ### Links -/

/-- Is a link UP? In any other state its consumers see no valid data (R257). -/
def hexUp (s : State) (m : Nat) : Bool := fld s (pgMSH m) MSH_STATE == 3

/-- The data blocks of a message, the last one zero-padded, and its END (R249). -/
def bodyBlocks (l : List Nat) : List (Nat × Nat) :=
  (List.range (ceilDiv l.length 8)).map (fun i => dataBlock ((List.range 8).map (fun j => l.getD (8 * i + j) 0))) ++ [endBlock (crc32 l)]

/-- A message of a virtual channel leaves on link m after the blocks `before` (R249, R255): its START, and where the model holds its payload
as bytes the blocks of it. -/
def sendMsg (s0 : State) (m vc : Nat) (before : List (Nat × Nat)) (len : Nat) (payload : Option (List Nat)) : State :=
  let seq := tget dzero (hex s0 m).seqTx vc
  let s := sendBlocks s0 m (before ++ startBlock vc seq len :: (payload.map bodyBlocks).getD [])
  let h := hex s m
  bump (setHex s m { h with seqTx := tset dzero h.seqTx vc ((tget dzero h.seqTx vc + 1) % 2 ^ 24) }) (pgMSH m) MSH_C_TX_MSGS 1

/-! ### Mastership (R264) -/

/-- Roles (R279 GM_ROLE). -/
def gmAlone : Nat := 0
def gmMaster : Nat := 1
def gmFollower : Nat := 2
def noLink : Nat := 3

def gmRole (s : State) : Nat := fld s pgPRT PRT_CUR_ROLE

/-- Mastership has moved: the flag and its event. -/
def noteGm (s : State) (d : Nat) : State := post (note s pgPRT PRT_F_GM_CHANGE PRT_C_GM_CHANGES) pgPRT .gmChange [d]

/-- This device becomes master (R262, R264): GM_LOCKED reads 1, and its DPLL takes its own references. -/
def becomeMaster (s : State) : State :=
  let b := pgPRT
  let d := fld s pgDEV DEV_DEV_ID
  let s1 := setFld (setFld (setFld s b PRT_CUR_ROLE gmMaster) b PRT_MASTER_DEV d) b PRT_MASTER_LINK noLink
  let s2 := { setBit s1 b PRT_GM_LOCKED true with prot := { s1.prot with masterLost := false } }
  evalRef (noteGm s2 d)

/-- This device becomes a follower of no master yet. -/
def becomeFollower (s : State) : State :=
  let b := pgPRT
  setBit (setFld (setFld s b PRT_CUR_ROLE gmFollower) b PRT_MASTER_LINK noLink) b PRT_GM_LOCKED false

/-- This device follows the master heard on link m. -/
def follow (s : State) (m d : Nat) : State :=
  let b := pgPRT
  let known := fld s b PRT_MASTER_LINK == m && fld s b PRT_MASTER_DEV == d
  let s1 := setFld (setFld (setFld s b PRT_CUR_ROLE gmFollower) b PRT_MASTER_DEV d) b PRT_MASTER_LINK m
  if known then s1 else noteGm { s1 with prot := { s1.prot with masterLost := false } } d

/-- GRID_MASTER was heard on link m from device d (R262, R264): a follower follows it; a master follows a lower-numbered one, with
GM_CONFLICT. -/
def hearMaster (s : State) (m d : Nat) : State :=
  let s1 := setTick s m { tick s m with masterSeen := some (frame s) }
  if gmRole s = gmFollower then
    if fld s pgPRT PRT_MASTER_LINK = noLink ∨ fld s pgPRT PRT_MASTER_LINK = m then follow s1 m d else s1
  else if gmRole s = gmMaster ∧ d < fld s pgDEV DEV_DEV_ID then
    raise (follow (becomeFollower s1) m d) pgPRT PRT_F_GM_CONFLICT [d]
  else s1

/-- The frames of 3 ticks. -/
def masterGap : Nat := 6

/-- A follower that has heard no master on any link for 3 consecutive ticks holds over (R264). -/
def checkMaster (s : State) : State :=
  let quiet := fun m => (tick s m).masterSeen.all (fun f => f + masterGap ≤ frame s)
  if gmRole s = gmFollower ∧ fld s pgPRT PRT_MASTER_LINK ≠ noLink ∧ (List.range 3).all quiet then
    enterHoldover (setBit (setFld s pgPRT PRT_MASTER_LINK noLink) pgPRT PRT_GM_LOCKED false)
  else s

/-- GM_TAKE (R264): GM_CMD 1. -/
def execGmTake (o : Origin) (s : State) : Res :=
  .next (ownWrite o (pgPRT + PRT_GM_CMD.off) (fun s => (if gmRole s = gmMaster then s else becomeMaster s, 0)) s)

/-- GM_YIELD (R264): GM_CMD 2, on the current master. -/
def execGmYield (o : Origin) (s : State) : Res :=
  .next (ownWrite o (pgPRT + PRT_GM_CMD.off) (fun s =>
    if gmRole s = gmMaster then (noteGm (becomeFollower s) (fld s pgDEV DEV_DEV_ID), 0) else (s, 8)) s)

/-- The step that brings the grid to the master's (R263): whole frames and the rest of the measured offset. -/
def joinStep (s : State) (d : Int) (force : Bool) : StepReq :=
  let fine := wrapPhase d
  ⟨fine, -((d - fine) / (finePerFrame : Int)), force, (frame s + 2) % frameMod, .join⟩

/-- GM_JOIN (R263): GM_CMD 3, for a follower that has measured its offset. -/
def execGmJoin (o : Origin) (force : Bool) (s : State) : Res :=
  .next (ownWrite o (pgPRT + PRT_GM_CMD.off) (fun s =>
    match s.prot.offset with
    | some d =>
      if gmRole s = gmFollower then ({ s with grid := { s.grid with step := some (joinStep s d force), emptyMaps := replacedSteps s } }, 0) else (s, 8)
    | none => (s, 8)) s)

/-! ### GRID messages (R262) -/

/-- A grid stamp as fine steps from 0:0 (R38). -/
def stampFine (n : Nat) : Int := (n / 2 ^ 23 : Nat) * finePerFrame + (n % 2 ^ 23 : Nat)

/-- The grid that stamps can tell apart, in fine steps. -/
def stampSpan : Int := 2 ^ 41 * finePerFrame

/-- A difference of two stamps, centred. -/
def stampDiff (a b : Int) : Int :=
  let d := (a - b) % stampSpan
  if stampSpan / 2 < d then d - stampSpan else d

/-- A calibrated delay of 2^-8 ns in fine steps (R262, R305). -/
def delayFine (n : Nat) : Int := roundDiv (n * 4976640) (125000 * 256)

/-- The calibrated mesh path delays of link m, sending and receiving. -/
def meshDelays (s : State) (m : Nat) : Nat × Nat := tget (fun _ => (0, 0)) s.boot.work (1024 * 5 + m)

/-- A GRID message (R262): the follower takes offset and link delay, slews the offset out, and is locked while it is at most
20 ns with the frame numbers agreeing. `t1` and `t4` are this device's own stamps, corrected by its mesh path delays. -/
def takeGrid (s : State) (m tTx tRx txCnt rxCnt : Nat) (master : Bool) : State :=
  let t := tick s m
  let delays := meshDelays s m
  if gmRole s ≠ gmFollower ∨ fld s pgPRT PRT_MASTER_LINK ≠ m ∨ !master ∨ txCnt ≠ t.rxCnt ∨ t.lastTx.isNone ∨
      rxCnt ≠ (t.lastTx.getD 0) / 2 % 65536 then s
  else
    let t1 := stampFine t.txStamp + delayFine delays.1
    let t4 := stampFine t.rxStamp - delayFine delays.2
    let down := stampDiff t4 (stampFine tTx)
    let up := stampDiff (stampFine tRx) t1
    let off := (down - up) / 2
    let s1 := setFld (setFld s pgPRT PRT_GM_OFFSET (unsignedOf 32 off)) pgPRT PRT_GM_DELAY (unsignedOf 32 ((up + down) / 2))
    let s2 := setBit { s1 with prot := { s1.prot with offset := some off } } pgPRT PRT_GM_LOCKED (phaseGood off)
    { s2 with grid := { s2.grid with residual := wrapPhase off } }

/-! ### Sending ticks (R268) -/

/-- The tick count that a TICK of slot f carries. -/
def tickCount (f : Nat) : Nat := f / 2 % 65536

/-- Was a tick of slot f heard on either path of a link? -/
def heardSlot (s : State) (m f : Nat) : Bool := (tick s m).heardLink == some f || (tick s m).heardPin == some f

/-- Does the device send the tick of slot f on link m (R268)? -/
def sendsTick (s : State) (m f : Nat) : Bool :=
  active s (pgMSH m) MSH_LINK_EN && (tick s m).lastTx != some f &&
  ((pairsToward s m).all (fun p => !(pair s p).armed) || (2 ≤ f && heardSlot s m (f - 2)))

/-- A grid stamp of so many fine steps from 0:0 (R38). -/
def stampOf (n : Int) : Nat :=
  let k := (n % stampSpan).toNat
  k / finePerFrame * 2 ^ 23 + k % finePerFrame

/-- The payload of the GRID message that follows the TICK of slot f on link m (R262), its stamps corrected by the calibrated mesh path
delays. -/
def gridMessage (s : State) (m f : Nat) : List Nat :=
  let t := tick s m
  let d := meshDelays s m
  let flags := (gmRole s == gmMaster).toNat + 2 * (fld s pgGRD GRD_DPLL_STATE == dpllLocked).toNat + 4 * (isSet s pgPRT PRT_GM_BACKUP).toNat
  beBytes (stampOf (stampFine t.txStamp + delayFine d.1)) 8 ++ beBytes (stampOf (stampFine t.rxStamp - delayFine d.2)) 8 ++
    beBytes (tickCount f) 2 ++ beBytes t.rxCnt 2 ++ [flags, 0, 0, 0]

/-- The tick of slot f leaves on link m (R268): a TICK block, a pulse of 16 gt at HB_OUT, and a GRID message after it (R262). -/
def sendTick (s : State) (m f : Nat) : State :=
  let at_ := (⟨f, 0, 0⟩ : Pos)
  let s1 := setTick s m { tick s m with lastTx := some f, txStamp := at_.stamp }
  let hb := tset (fun _ => (0, 0)) s1.link.hbOut m (at_.fineIndex, at_.fineIndex + 16 * finePerGt)
  let s2 := if bitAt (fld s pgPRT PRT_HB_PIN_EN) m then { s1 with link := { s1.link with hbOut := hb } } else s1
  let s3 := bump (bump s2 pgPRT PRT_C_TICKS_TX 1) (pgMSH m) MSH_C_TICKS_TX 1
  let s4 := (pairsToward s3 m).foldl applyNext s3
  let block := tickBlock (fld s pgDEV DEV_DEV_ID) (tickCount f) f false (gmRole s == gmMaster)
  sendMsg s4 m 1 [block] 24 (some (gridMessage s4 m f))

/-- MESH_TICK_SEND (R264, R268): in frame F with F even, the tick of slot F on every link that it is due on. A backup takes the
mastership of a failed master with its tick. -/
def execMeshTickSend (s : State) : Res :=
  let f := frame s
  if !released s || f % 2 != 0 then .next s
  else
    let s1 := if s.prot.masterLost && isSet s pgPRT PRT_GM_BACKUP then becomeMaster s else checkMaster s
    .next ((List.range 3).foldl (fun t m => if sendsTick t m f then sendTick t m f else t) s1)

/-! ### Hearing ticks (R268, R269) -/

/-- BAD_TICK (R268). -/
def badTick (s : State) : State := note s pgPRT PRT_F_BAD_TICK PRT_C_BAD_TICK

/-- The slot of frame f. -/
def slotOf (f : Nat) : Nat := f - f % 2

/-- A slot was heard on link m: its leases are rewound, and the peer is no longer held failed. -/
def heard (s : State) (m f : Nat) : State :=
  let failed := fld s pgPRT PRT_PEER_FAILED
  let s1 := setFld s pgPRT PRT_PEER_FAILED (if bitAt failed m then failed - 2 ^ m else failed)
  rewind (setTick s1 m { tick s1 m with missed := 0 }) m f

/-- A dark notice from the peer on link m (R269). -/
def darkNotice (s : State) (m : Nat) : State := declareFail (note s pgPRT PRT_F_DARK_NOTICE_RX PRT_C_DARK_NOTICES) m true

/-- The loss of the master with its device (R264). -/
def loseMaster (s : State) (m : Nat) : State :=
  if gmRole s = gmFollower ∧ fld s pgPRT PRT_MASTER_LINK = m then
    let s1 := setBit (setFld s pgPRT PRT_MASTER_LINK noLink) pgPRT PRT_GM_LOCKED false
    { s1 with prot := { s1.prot with masterLost := true } }
  else s

/-- A dark notice, with the loss of the master when it comes from it. -/
def peerDark (s : State) (m : Nat) : State := loseMaster (darkNotice s m) m

/-- MESH_TICK_RECEIVE (R249, R261, R264, R268, R269): a TICK names a slot by its frame number [23:0]. One more than a slot away from
the slot now running is bad; one of a slot that has closed does not count. -/
def execMeshTickReceive (m : Fin 3) (t : TickIn) (s : State) : Res :=
  if !hexUp s m then .next s
  else
    let s1 := setFld (bump s (pgMSH m) MSH_C_TICKS_RX 1) (pgMSH m) MSH_PEER_DEV t.dev
    let e := slotOf (frame s)
    let d := signedOf 24 ((t.frame + 2 ^ 24 - e % 2 ^ 24) % 2 ^ 24)
    let s2 := if t.master then hearMaster s1 m t.dev else s1
    let s3 := setTick s2 m { tick s2 m with rxStamp := (now s).stamp, rxCnt := t.count }
    if t.fault then .next (peerDark s3 m)
    else if d < -2 ∨ 2 < d ∨ d % 2 ≠ 0 then .next (badTick s3)
    else if d < 0 then .next s3
    else
      let f := ((e : Int) + d).toNat
      .next (heard (setTick (bump s3 pgPRT PRT_C_TICKS_RX_LINK 1) m { tick s3 m with heardLink := some f }) m f)

/-- HB_PULSE (R268, R269): a pulse at HB_IN[m] whose rising edge lies `offsetGt` from a slot's boundary: a dark notice from 256 gt on,
a tick from 8 to 64 gt within ±64 gt of the boundary, bad otherwise. -/
def execHbPulse (m : Fin 3) (widthGt : Nat) (offsetGt : Int) (s : State) : Res :=
  if !bitAt (fld s pgPRT PRT_HB_PIN_EN) m then .next s
  else if 256 ≤ widthGt then .next (peerDark s m)
  else if widthGt < 8 ∨ 64 < widthGt ∨ 64 < offsetGt.natAbs then .next (badTick s)
  else
    let f := if offsetGt < 0 then slotOf (frame s) + 2 else slotOf (frame s)
    .next (heard (setTick (bump s pgPRT PRT_C_TICKS_RX_PIN 1) m { tick s m with heardPin := some f }) m f)

/-- DARK_NOTICE_RECEIVE (R269). -/
def execDarkNoticeReceive (m : Fin 3) (s : State) : Res := .next (peerDark s m)

/-- The boundary f:0 closes slot f − 2 on link m (R268): heard on a path, or missed. -/
def judgeSlot (s : State) (m : Nat) : State :=
  let f := frame s
  let t := tick s m
  if f % 2 = 0 && 2 ≤ f && active s (pgMSH m) MSH_LINK_EN && t.judged < f then
    let onLink := t.heardLink == some (f - 2)
    let onPin := t.heardPin == some (f - 2)
    let bit := fun (v : Nat) (b : Bool) => if bitAt v m then (if b then v else v - 2 ^ m) else (if b then v + 2 ^ m else v)
    let s1 := setFld (setFld s pgPRT PRT_HEARD_LINK (bit (fld s pgPRT PRT_HEARD_LINK) onLink)) pgPRT PRT_HEARD_PIN
      (bit (fld s pgPRT PRT_HEARD_PIN) onPin)
    if onLink || onPin then setTick s1 m { t with missed := 0, judged := f }
    else setTick (bump s1 pgPRT PRT_C_SLOTS_MISSED 1) m { t with missed := t.missed + 1, judged := f }
  else s

/-- PEER_FAIL_DECLARE (R269): three consecutive slots missed. -/
def execPeerFailDeclare (m : Fin 3) (s : State) : Res :=
  if 3 ≤ (tick s m).missed && !peerFailed s m then .next (loseMaster (declareFail s m false) m) else .next s

end Sys2Proof.Machine
end

