-- ==== Sys2Proof/Machine/Hexca.lean ====
section
/-! DEFINITION. The Hexca link: lane alignment, trace identifiers and messages (R251 to R255), its defects and flush (R256, R257), and
the slip buffer with the records of the mirror (R258, R275 to R277). -/

namespace Sys2Proof.Machine

/-! ### Defects and state (R254, R256, R257) -/

/-- The defects of a link, highest first (R256). -/
def lLOS : Nat := 0
def lLOL : Nat := 1
def lLOF : Nat := 2
def lLOA : Nat := 3
def lTIM : Nat := 4
def lSD : Nat := 5

/-- Is a defect detected? -/
def linkDefect (s : State) (m d : Nat) : Bool := bitAt (fld s (pgMSH m) MSH_DEFECTS) d

/-- The highest defect of a word, the one that is reported (R67, R256). -/
def reportedOf (v : Nat) : Nat :=
  match (List.range 6).find? (bitAt v ·) with
  | some d => 2 ^ d
  | none => 0

/-- Is a defect from LOS to LOA in a word? -/
def blocking (v : Nat) : Bool := v % 16 != 0

/-- Does the link check trace identifiers: TIM_EN, which the boot loader's links treat as 0 until release (R254, R308)? -/
def checksTrace (s : State) (m : Nat) : Bool := released s && isSet s (pgMSH m) MSH_TIM_EN

/-- The state of a link (R254, R257): off, down, verify, up. -/
def linkStateOf (en timEn : Bool) (timGood was v : Nat) : Nat :=
  if !en then 0
  else if blocking v || bitAt v lTIM then 1
  else if !timEn || was == 3 || 3 ≤ timGood then 3
  else 2

/-- A link flushes (R257): slip buffer, message assembly and heartbeat state; FLUSH, and an event that names its reason. -/
def flushLink (s : State) (m reason : Nat) : State :=
  let s1 := setHex s m { hex s m with slip := [], next := none, last := none, flushed := true }
  let s2 := setTick s1 m { tick s1 m with heardLink := none, heardPin := none, missed := 0, rxStamp := 0, rxCnt := 0 }
  bump (raise (setFld s2 (pgMSH m) MSH_SLIP_FILL 0) (pgMSH m) MSH_F_FLUSH [reason]) (pgMSH m) MSH_C_FLUSHES 1

/-- The reports of a link after its defects changed (R67, R256): a defect that appears or clears is reported with its event; one held
back is not. -/
def reportLink (s : State) (m old new : Nat) : State :=
  let b := pgMSH m
  let was := fld s b MSH_REPORTED
  let is_ := reportedOf new
  let s1 := setFld s b MSH_REPORTED is_
  let gone := fun (t : State) (d : Nat) =>
    if bitAt was d && !bitAt new d then post (flag t b MSH_F_DEFECT_CHANGE) b (.defect false d) [] else t
  let come := fun (t : State) (d : Nat) =>
    if bitAt is_ d && !bitAt was d then post (flag t b MSH_F_DEFECT_CHANGE) b (.defect true d) [] else t
  if old = new && was = is_ then s else (List.range 6).foldl come ((List.range 6).foldl gone s1)

/-- Put a word of defects in force, and with it the state of the link (R254, R256, R257). Entering a defect from LOS to LOA flushes
the link unless this outage has been flushed. -/
def setLinkDefects (s : State) (m v : Nat) : State :=
  let b := pgMSH m
  let old := fld s b MSH_DEFECTS
  let h := hex s m
  let h1 := if blocking v then { h with timGood := 0, timBad := 0 } else h
  let was := fld s b MSH_STATE
  let st := linkStateOf (active s b MSH_LINK_EN) (checksTrace s m) h1.timGood was v
  let h2 := if st = 3 then { h1 with flushed := false } else h1
  let h3 := if v % 32 != 0 then { h2 with pm := { h2.pm with defect := true } } else h2
  let s1 := reportLink (setFld (setFld (setHex s m h3) b MSH_DEFECTS v) b MSH_STATE st) m old v
  let s2 := if st = 3 ∧ was ≠ 3 then raise s1 b MSH_F_DEFECT_CHANGE [] else s1
  if blocking v && !h.flushed then flushLink s2 m ((List.range 4).find? (fun d => bitAt v d && !bitAt old d) |>.getD lLOF) else s2

/-- A defect of a link is raised or cleared. -/
def setLinkDefect (s : State) (m d : Nat) (raised : Bool) : State :=
  let v := fld s (pgMSH m) MSH_DEFECTS
  setLinkDefects s m (if bitAt v d then (if raised then v else v - 2 ^ d) else (if raised then v + 2 ^ d else v))

/-- LINK_EN or TIM_EN was written (R254, R279): a link that is switched on is down until its lanes align; one that is switched off has
no defects; without TIM_EN there is no TIM. -/
def linkEnables (s : State) (m : Nat) : State :=
  let b := pgMSH m
  if !active s b MSH_LINK_EN then
    setHex (setFld (setFld (setFld (setFld s b MSH_DEFECTS 0) b MSH_REPORTED 0) b MSH_STATE 0) b MSH_SLIP_FILL 0) m
      { HexSt.init m with seqTx := (hex s m).seqTx, seqRx := (hex s m).seqRx, pm := (hex s m).pm, line := (hex s m).line, sent := (hex s m).sent }
  else if fld s b MSH_STATE = 0 then
    setLinkDefects (setHex s m { hex s m with flushed := true }) m (2 ^ lLOF + 2 ^ lLOA)
  else if !checksTrace s m then setLinkDefect s m lTIM false
  else s

/-! ### Alignment (R251, R253, R254) -/

/-- A lane after what stands at its marker position (R251): its state, the markers missed and the lane it was named. -/
def HexLane.next (l : HexLane) (x : MarkerIn) : HexLane :=
  match x with
  | .marker n _ _ =>
    if l.st = 3 then { l with miss := 0, named := some n.val }
    else { st := l.st + 1, miss := 0, named := some n.val }
  | .absent => if l.st = 3 && l.miss < 3 then { l with miss := l.miss + 1 } else { st := 0, miss := 0, named := none }

/-- Count a block of R256 on a lane in SYNC. -/
def countBlock (s : State) (m : Nat) (ok : Bool) : State :=
  let h := hex s m
  let s1 := setHex s m { h with pm := { h.pm with blocks := h.pm.blocks + 1, errored := h.pm.errored + if ok then 0 else 1 } }
  if ok then s1 else bump s1 (pgMSH m) MSH_C_BIP_ERR 1

/-- The deskew of the lanes (R251, R253): LOF while a lane is out of SYNC; LOA until all are in SYNC with four different names. The
largest skew is a measurement: free within the 128 blocks that deskew absorbs (log entry 3). -/
def deskew (s : State) (m : Nat) : State :=
  let ls := (hex s m).lanes
  let v := fld s (pgMSH m) MSH_DEFECTS
  let rest := v - v / 4 % 4 * 4
  if !ls.all (fun l => l.st == 3) then setLinkDefects s m (rest + 2 ^ lLOF + 2 ^ lLOA)
  else if !(ls.map (·.named)).Nodup then setLinkDefects s m (rest + 2 ^ lLOA)
  else if v = rest then s
  else
    let s1 := setFld s (pgMSH m) MSH_SKEW_BLOCKS (freeVal s % 129)
    setLinkDefects (drawFree s1) m rest

/-- A trace identifier completes (R254). -/
def takeTrace (s : State) (m : Nat) (t : BitVec 128) : State :=
  let b := pgMSH m
  let ws := (List.range 4).map (fun i => BitVec.ofNat 32 (t.toNat >>> (32 * (3 - i))))
  let s1 := setWords s (b + MSH_TRACE_RX.off) ws
  let v := fld s b MSH_DEFECTS
  if blocking v || !checksTrace s m then s1
  else
    let h := hex s1 m
    if ws = wordsAt s (b + MSH_TRACE_EXP.off) 4 then
      let s2 := setHex s1 m { h with timGood := h.timGood + 1, timBad := 0 }
      if 3 ≤ h.timGood + 1 then setLinkDefect s2 m lTIM false else s2
    else
      let s2 := setHex s1 m { h with timBad := h.timBad + 1, timGood := 0 }
      if 3 ≤ h.timBad + 1 then setLinkDefect s2 m lTIM true else s2

/-- ALIGNMENT_MARKER (R251, R253, R254, R256): what a lane shows at the position where its marker is looked for. -/
def execAlignmentMarker (m : Fin 3) (i : Fin 4) (x : MarkerIn) (s : State) : Res :=
  if !active s (pgMSH m) MSH_LINK_EN then .next s
  else
    let h := hex s m
    let l := h.lanes.getD i ⟨0, 0, none⟩
    let s1 := match x with
      | .marker _ ok _ => if l.st = 3 then countBlock s m ok else s
      | .absent => s
    let s2 := setHex s1 m { hex s1 m with lanes := h.lanes.set i (l.next x) }
    let s3 := deskew s2 m
    match x with
    | .marker _ _ (some t) => .next (takeTrace s3 m t)
    | _ => .next s3

/-- LINK_DEFECT_CHANGE (R256): LOF goes with its lanes (R251). -/
def execLinkDefectChange (m : Fin 3) (d : Fin 6) (raised : Bool) (s : State) : Res :=
  if !active s (pgMSH m) MSH_LINK_EN then .next s
  else
    let h := hex s m
    let h1 :=
      if d.val = lLOF then { h with lanes := (List.range 4).map (fun i => ⟨if raised then 0 else 3, 0, if raised then none else some i⟩) }
      else if d.val = lTIM then { h with timGood := if raised then 0 else 3, timBad := if raised then 3 else 0 }
      else h
    let s1 := setHex s m h1
    let s2 := if d.val = lLOA && !raised then drawFree (setFld s1 (pgMSH m) MSH_SKEW_BLOCKS (freeVal s1 % 129)) else s1
    .next (setLinkDefect s2 m d raised)

/-- FILL_COLUMN (R252). -/
def execFillColumn (m : Fin 3) (insert : Bool) (s : State) : Res :=
  if active s (pgMSH m) MSH_LINK_EN then .next (bump s (pgMSH m) (if insert then MSH_C_FILL_INSERT else MSH_C_FILL_DELETE) 1)
  else .next s

/-- The reason of a flush that a notice names. -/
def byNotice : Nat := 8

/-- NOTICE_RESET_RECEIVE (R257, R269): RESET_RX, one flush for the outage, and a dark notice. -/
def execNoticeResetReceive (m : Fin 3) (s : State) : Res :=
  if !active s (pgMSH m) MSH_LINK_EN then .next s
  else
    let s1 := note s (pgMSH m) MSH_F_RESET_RX MSH_C_RESET_RX
    let s2 := if (hex s1 m).flushed then s1 else flushLink s1 m byNotice
    .next (peerDark s2 m)

/-! ### Messages (R255) -/

/-- The sender writes a mirror frame into the slip buffer (R258). -/
def slipWrite (s : State) (m f : Nat) (recs : List MirrorRec) : State :=
  let h := hex s m
  let r := h.next.getD (f - 1)
  let l : List MirrorFrame := h.slip.filter (fun e => e.frame != f) ++ [⟨f, recs⟩]
  let s1 := if r + 4 ≤ f then
      let h1 := { h with slip := l.filter (fun e => f < e.frame + 4), next := some (f - 3) }
      note (setHex s m h1) (pgMSH m) MSH_F_SLIP_DROP MSH_C_SLIP_DROP
    else setHex s m { h with slip := l.drop (l.length - 4) }
  setFld s1 (pgMSH m) MSH_SLIP_FILL (hex s1 m).slip.length

/-- HEXCA_MESSAGE_RECEIVE (R249, R255, R257, R258, R262). -/
def execHexcaMessageReceive (m : Fin 3) (x : HexcaMsg) (s : State) : Res :=
  let b := pgMSH m
  if !hexUp s m then .next s
  else if !x.startOk || 16384 < x.len || !x.crcOk then .next (note s b MSH_F_MSG_CRC MSH_C_MSG_CRC)
  else if 3 ≤ x.vc then .next (note s b MSH_F_BAD_BLOCK MSH_C_BAD_BLOCK)
  else
    let h := hex s m
    let missing := match tget dnone h.seqRx x.vc with
      | some e => (x.seq + 2 ^ 24 - e % 2 ^ 24) % 2 ^ 24
      | none => 0
    let s1 := setHex s m { h with seqRx := tset dnone h.seqRx x.vc (some ((x.seq + 1) % 2 ^ 24)) }
    let s2 := if missing = 0 then s1 else bump (flag s1 b MSH_F_MSG_LOSS) b MSH_C_MSG_LOSS missing
    let s3 := bump s2 b MSH_C_RX_MSGS 1
    .next (match x.body with
      | .mirror f recs => if x.vc = 0 then slipWrite s3 m f recs else s3
      | .grid tTx tRx txCnt rxCnt master _ _ => if x.vc = 1 then takeGrid s3 m tTx tRx txCnt rxCnt master else s3
      | .bulk _ => s3
      | .other => s3)

/-! ### The mirror (R275, R276) -/

/-- The local port that a record of the peer's port on link m is for. -/
def mirrorPort (s : State) (m q : Nat) : Option Nat :=
  (pairsToward s m).find? (fun p => (pair s p).peerPort == q)

/-- Does a side take the peer's records: SYNCING or STANDBY (R276, R277)? -/
def mirrors (s : State) (p : Nat) : Bool := (pair s p).state == pSyncing || (pair s p).state == pStandby

/-- The standby's residual for a RANGE record (R276). -/
def standbyRes (s : State) (p i : Nat) (res : Int) : Int :=
  let c := (onu s p i).ch
  let r := pair s p
  256 * (((r.peerOfs.getD c 0 : Nat) : Int) - (fld s (pgRNG p c) RNG_US_OFFSET : Nat)) + res + r.delta

/-- A RANGE record (R276): a residual out of range marks the record, which then needs ranging after a takeover. -/
def mirrorRange (s : State) (p i eqd : Nat) (res drift : Int) : State :=
  let r := pair s p
  let v := standbyRes s p i res
  let out := r.outOfRange.filter (· != i)
  if 32767 < v.natAbs then setPair s p { r with outOfRange := i :: out }
  else
    let s1 := setPair s p { r with outOfRange := out }
    setRng s1 p i { rng s1 p i with eqd := eqd, res := v, drift := drift }

/-- The slot of a KEY record. -/
def mirrorKey (s : State) (u : Nat) (up : Bool) (slot mode : Nat) (key : BitVec 256) (salt pn lastPn : Nat) : State :=
  let e := keyEntry s u
  let j := slot - firstSlot (keyRecord s u).ch
  setKeyEntry s u (e.withSlot up j { e.slot up j with mode := mode, key := key, salt := BitVec.ofNat 48 salt, pn := pn, lastPn := lastPn })

/-- The sender's port of a record. -/
def recPort : MirrorRec → Nat
  | .channel q _ _ => q
  | .onu q _ _ _ _ _ _ _ _ _ => q
  | .range q _ _ _ _ => q
  | .key n _ _ _ _ _ _ _ => n.val / 512
  | .demand q _ _ _ => q
  | .map q _ _ => q
  | .pair q _ _ _ _ => q

/-- A record for the local port p (R275, R276). -/
def applyTo (s : State) (p : Nat) : MirrorRec → State
  | .channel _ c v => if mirrors s p then setPair s p { pair s p with peerOfs := (pair s p).peerOfs.set c v } else s
  | .onu _ i ch id st mm valid sn seen reg =>
    if mirrors s p then
      putOnu s p i { onu s p i with ch := ch, onuId := id, state := st, mtch := mm, valid := valid, expSn := sn, seenSn := seen, expReg := reg }
    else s
  | .range _ i eqd res drift => if mirrors s p then mirrorRange s p i eqd res drift else s
  | .key n up slot mode key salt pn lastPn =>
    if mirrors s p then mirrorKey s (512 * p + n.val % 512) up slot mode key salt pn lastPn else s
  | .demand _ d demand sat => if mirrors s p then setAd s p d { ad s p d with demand := demand, sat := sat } else s
  | .map _ _ _ => s
  | .pair _ st sync _ _ => peerRecord s p st sync

/-- A record of link m. -/
def applyRec (m : Nat) (s : State) (r : MirrorRec) : State :=
  match mirrorPort s m (recPort r) with
  | some p => applyTo s p r
  | none => s

/-- A mirror frame is applied. -/
def applyFrame (s : State) (m : Nat) (f : MirrorFrame) : State := f.recs.foldl (applyRec m) s

/-- Runs of missed mirror frames of the pairs on a link (R277): the 64th returns a STANDBY to SYNCING. -/
def mirrorRun (s : State) (m : Nat) (miss : Bool) : State :=
  (pairsToward s m).foldl (fun t p =>
    let r := pair t p
    let n := if miss then r.missRun + 1 else 0
    let t1 := setPair t p { r with missRun := n }
    if 64 ≤ n && r.state == pStandby then flag (standBy (setPair t p { r with missRun := 0 }) p) pgPRT PRT_F_SYNC_LOST else t1) s

/-- MIRROR_READ (R258): what the reader takes at the boundary F:0. -/
def execMirrorRead (m : Fin 3) (s : State) : Res :=
  let b := pgMSH m
  let h := hex s m
  if !active s b MSH_LINK_EN || frame s < 2 then .next s
  else
    let r := h.next.getD (frame s - 2)
    let later := h.slip.filter (fun e => r < e.frame)
    let held := fun (t : State) => setFld t b MSH_SLIP_FILL (hex t m).slip.length
    match h.slip.find? (·.frame == r) with
    | some f =>
      let s1 := held (setHex s m { h with slip := later, next := some (r + 1), last := some f })
      .next (mirrorRun (applyFrame s1 m f) m false)
    | none =>
      if later ≠ [] then
        let s1 := held (setHex s m { h with slip := later, next := some (r + 1) })
        .next (mirrorRun (note s1 b MSH_F_MIRROR_MISS MSH_C_MIRROR_MISS) m true)
      else match h.last with
        | some f => .next (applyFrame (note s b MSH_F_SLIP_REPEAT MSH_C_SLIP_REPEAT) m f)
        | none => .next s

end Sys2Proof.Machine
end

