-- ==== Sys2Proof/Machine/Boot.lean ====
section
/-! DEFINITION. From power good to release (R301 to R308, R312), fuses (R303, R304), the calibration store (R305, R306), the power-fail
warning (R313, R314, R338, R339) and the memory banks (R316, R317). -/

namespace Sys2Proof.Machine

/-! ### Power good and power off (R301, R338) -/

/-- The CSEQ that follows the eMRAM journal (R296): 1 above its highest, or 0. -/
def cseqAfter (j : JrnSt) : Nat :=
  match newestFlush j with
  | some b => (if b then j.slotB.last else j.slotA.last) + 1
  | none => 0

/-- A flush in progress when the power goes leaves its slot's header invalid (R299). -/
def cutFlush (j : JrnSt) : JrnSt :=
  match j.flush with
  | none => j
  | some f =>
    let x : FlushSlot := ⟨true, false, f.recs, 0, 0, f.cause, f.stamp⟩
    if f.slot = 1 then { j with slotB := x, flush := none } else { j with slotA := x, flush := none }

/-- The device without power: what eMRAM and the fuses keep, the pins that others drive, and the host's memory. -/
def unpowered (s : State) : State :=
  let z := State.reset
  let j := cutFlush s.jrn
  { z with
    pending := s.pending, freeCtr := s.freeCtr,
    bus := { z.bus with hostOut := s.bus.hostOut, done := s.bus.done, data := s.bus.data },
    jrn := { z.jrn with slotA := j.slotA, slotB := j.slotB },
    boot := { z.boot with powered := false, perst := s.boot.perst, warnPin := s.boot.warnPin, revoked := s.boot.revoked, cal := s.boot.cal } }

/-- POWER_GOOD_FALL (R338): every output high-impedance, and the device held in reset. -/
def execPowerGoodFall (s : State) : Res := .next (unpowered s)

/-- POWER_GOOD (R301): the straps are sampled once and fuse load starts. -/
def execPowerGood (st : Straps) (s : State) : Res :=
  let t := unpowered s
  .next (showUses (showStraps { t with
    jrn := { t.jrn with cseq := cseqAfter t.jrn },
    boot := { t.boot with powered := true, straps := st } }) 228 8)

/-! ### Fuses (R303, R304) -/

/-- The words of a 48-byte key hash, the first byte in [31:24] of the first. -/
def hashWords (h : BitVec 384) : List Word := (List.range 12).map (fun i => BitVec.ofNat 32 (h.toNat >>> (32 * (11 - i))))

/-- The revoke bits: the factory's and those blown since (R304). -/
def revokedBits (s : State) : Nat := Config.keyRevoked.toNat ||| s.boot.revoked

/-- The fuse values into their registers (R303). -/
def loadFuses (s : State) : State :=
  let d := pgDEV
  let b := pgFUSE
  let s1 := setFld (setFld s d DEV_DEVICE_ID 0x5032) d DEV_STEPPING Config.stepping.toNat
  let s2 := setWords s1 (d + DEV_UNIQUE_ID.off) (twoWords Config.uniqueId.toNat)
  let s3 := setFld (setFld s2 b FUSE_KEY_PROG Config.keyProg.toNat) b FUSE_KEY_REVOKED (revokedBits s)
  let s4 := setFld s3 b FUSE_REPAIR_ROWS ((List.range 1280).map Config.repairRows).sum
  let s5 := setFld (setFld s4 b FUSE_VTRIM Config.vTrim.toNat) b FUSE_TSENSE_TRIM Config.tsenseTrim.toNat
  let s6 := setWords (setWords s5 (b + FUSE_KEY_HASH0.off) (hashWords (Config.keyHash 0))) (b + FUSE_KEY_HASH1.off)
    (hashWords (Config.keyHash 1))
  (List.range 16).foldl loadEngFuses (setBit s6 b FUSE_LOAD_DONE true)

/-- FUSE_LOAD_DONE (R301, R303): a group that fails its check raises tamper alarm 3, and the device will not release. With TEST_EN left
high the device never leaves fuse load (R333). -/
def execFuseLoadDone (groupsOk : Bool) (s : State) : Res :=
  if !s.boot.powered || s.boot.straps.testEn || fld s pgDEV DEV_CHIP_STATE != 0 then .next s
  else
    let s1 := loadFuses s
    let s2 := setBit { s1 with boot := { s1.boot with fuseOk := groupsOk } } pgFUSE FUSE_INTEGRITY_OK groupsOk
    let s3 := setFld (setFld s2 pgDEV DEV_CHIP_STATE 1) pgBOOT BOOT_STAGE 1
    .next (if groupsOk then s3 else tamper (flag s3 pgFUSE FUSE_F_INTEGRITY_FAIL) 3)

/-- REVOKE_KEY (R304). -/
def execRevokeKey (o : Origin) (data : Word) (s : State) : Res :=
  .next (armKey o (pgFUSE + FUSE_REVOKE_KEY.off) data revokeKeyValue s)

/-- May slot j be revoked: the other one is programmed and not revoked, after release (R304)? -/
def mayRevoke (s : State) (j : Nat) : Bool :=
  released s && bitAt Config.keyProg.toNat (1 - j) && !bitAt (revokedBits s) (1 - j)

/-- REVOKE_CMD (R304): directly after its key from the same origin. -/
def execRevokeCmd (o : Origin) (data : Word) (s : State) : Res :=
  let armed := armedBy s o (pgFUSE + FUSE_REVOKE_KEY.off)
  let a := pgFUSE + FUSE_REVOKE_CMD.off
  .next (command o a a (fun s =>
    let j := bitsOf data 1 1
    if bitsOf data 0 1 = 0 then (s, 0)
    else if armed && mayRevoke s j then
      let s1 : State := { s with boot := { s.boot with revoked := s.boot.revoked ||| 2 ^ j } }
      (flag (setFld s1 pgFUSE FUSE_KEY_REVOKED (revokedBits s1)) pgFUSE FUSE_F_REVOKE_DONE, 0)
    else (flag s pgFUSE FUSE_F_REVOKE_REJ, 8)) s)

/-! ### The calibration store (R305, R306) -/

/-- How many items a kind has (R305). -/
def calCount (kind : Nat) : Nat := [268, 96, 96, 96, 24, 3, 32].getD kind 0

/-- Every item of the store. -/
def calItems : List (Nat × Nat) := (List.range 7).flatMap (fun k => (List.range (calCount k)).map (fun i => (k, i)))

/-- An item goes into its working copy at the calibration stage; one whose CRC fails is noted (R305). -/
def loadItem (s : State) (x : Nat × Nat) : State :=
  let s1 := loadCal s x.1 x.2 (calValue s x.1 x.2)
  if (calItem s x.1 x.2).good then s1
  else
    let s2 := note s1 pgCAL CAL_F_CAL_BAD CAL_C_BAD_ITEMS
    { s2 with boot := { s2.boot with badItems := s2.boot.badItems ++ [x] } }

/-- US_OFFSET of every channel (R97). -/
def publishAllOffsets (s : State) : State := (List.range 96).foldl (fun t n => publishUsOffset t (n / 3) (n % 3)) s

/-- An unlock of the store ends (R306). -/
def lockStore (s : State) : State := setBit { s with boot := { s.boot with storeAt := none } } pgCAL CAL_UNLOCKED false

/-- The two words of the unlock (R306). -/
def unlockFirst : Word := 0x00005AC3#32
def unlockSecond : Word := 0x0000A53C#32

/-- CAL_UNLOCK (R306): the second word directly after the first from the same origin unlocks the store, unless the page is locked; any
other value ends an unlock. -/
def execCalUnlock (o : Origin) (data : Word) (s : State) : Res :=
  let a := pgCAL + CAL_UNLOCK.off
  let armed := armedBy s o a
  if data = unlockFirst then .next (armKey o a data unlockFirst s)
  else
    .next (ownWrite o a (fun s =>
      if data = unlockSecond ∧ armed ∧ !isSet s pgCAL ANY_LOCK then
        (setBit { s with boot := { s.boot with storeAt := some (frame s) } } pgCAL CAL_UNLOCKED true, 0)
      else (lockStore s, 0)) s)

/-- The frames that an unlock lasts without a store write (R306). -/
def unlockFrames : Nat := 65536

/-- CAL_UNLOCK_TIMEOUT (R306). -/
def execCalUnlockTimeout (s : State) : Res :=
  match s.boot.storeAt with
  | some f => if f + unlockFrames ≤ frame s then .next (lockStore s) else .next s
  | none => .next s

/-- Set REJECT and ITEM_BAD of the CAL window. -/
def calStat (s : State) (rej bad : Bool) : State := setFld s pgCAL CAL_STAT (2 * rej.toNat + 4 * bad.toNat)

/-- A command of the CAL window on an item of the table. -/
def calCmd (o : Origin) (body : State → Nat → Nat → State × Nat) (s : State) : State :=
  command o (pgCAL + CAL_CMD.off) (pgCAL + CAL_KIND.off) (fun s =>
    let k := fld s pgCAL CAL_KIND
    let i := fld s pgCAL CAL_INDEX
    if i < calCount k then body s k i else (calStat s true false, 1)) s

/-- CAL_READ (R305): CMD 1. -/
def execCalRead (o : Origin) (s : State) : Res :=
  .next (calCmd o (fun s k i =>
    let x := calItem s k i
    (setFld (setFld (calStat s false (!x.good)) pgCAL CAL_DATA0 x.d0) pgCAL CAL_DATA1 x.d1, 0)) s)

/-- Does R96 hold back a write of an item: KIND 2 is a write of RNG.ZD? -/
def zdHeld (s : State) (k i : Nat) : Bool := k == 2 && reachHeld s (i / 3) (i % 3)

/-- A refused write of RNG.ZD through the store (R96, R306). -/
def rejectZd (s : State) (i : Nat) : State × Nat := (flag (calStat s true false) (pgRNG (i / 3) (i % 3)) RNG_F_REACH_REJ, 1)

/-- Is a peaking value with its limits allowed (R233)? -/
def peakOk (v : Nat) : Bool := v / 32 % 32 ≤ v % 32 && v % 32 ≤ v / 1024 % 32

/-- A value goes into its working copy, with what depends on it (R97, R306). -/
def putWorking (s : State) (k i : Nat) (v : Nat × Nat) : State :=
  let s1 := loadCal s k i v
  if k = 2 then publishUsOffset s1 (i / 3) (i % 3) else s1

/-- CAL_STORE_WRITE (R306): CMD 2. -/
def execCalStoreWrite (o : Origin) (s : State) : Res :=
  .next (calCmd o (fun s k i =>
    let v := (fld s pgCAL CAL_DATA0, fld s pgCAL CAL_DATA1)
    if !isSet s pgCAL CAL_UNLOCKED then (flag (calStat s true false) pgCAL CAL_F_LOCKED_REJ, 8)
    else if s.boot.warnPin then (calStat s true false, 8)
    else if zdHeld s k i then rejectZd s i
    else if k = 0 && !peakOk v.1 then (calStat s true false, 1)
    else
      let s1 : State := { s with boot := { s.boot with cal := tset dnone s.boot.cal (1024 * k + i) (some ⟨v.1, v.2, true⟩),
                                                       storeAt := some (frame s) } }
      (putWorking (note (calStat s1 false false) pgCAL CAL_F_STORE_WRITTEN CAL_C_STORE_WRITES) k i v, 0)) s)

/-- CAL_RELOAD (R306): CMD 3. -/
def execCalReload (o : Origin) (s : State) : Res :=
  .next (calCmd o (fun s k i =>
    if zdHeld s k i then rejectZd s i
    else (putWorking (bump (calStat s false (!(calItem s k i).good)) pgCAL CAL_C_RELOADS 1) k i (calValue s k i), 0)) s)

/-! ### The image stage (R301, R307, R308) -/

/-- STAGE values (R318). -/
def stRead : Nat := 2
def stCheck : Nat := 3
def stApply : Nat := 4
def stDone : Nat := 5
def stHost : Nat := 6

/-- The boot sources as SRC_USED names them. -/
def srcSpi : Nat := 0
def srcHost : Nat := 1
def srcMesh : Nat := 2
def srcJtag : Nat := 3

/-- The host window opens (R302, R307). -/
def hostWindow (s : State) : State :=
  setFld (setFld { s with boot := { s.boot with image := none, applied := false } } pgBOOT BOOT_STAGE stHost) pgBOOT BOOT_SRC_USED srcHost

/-- The default trace identifier of a device (R308): the 16 characters "JS-QN5032-BOOT-d". -/
def bootTrace (d : Nat) : List Word := [0x4A532D51#32, 0x4E353033#32, 0x322D424F#32, BitVec.ofNat 32 (0x4F542D30 + d)]

/-- The boot loader's links run for the mesh copy (R308). -/
def bootLinks (s : State) : State :=
  (List.range 3).foldl (fun t m =>
    let b := pgMSH m
    let t1 := setBit (setWords t (b + MSH_TRACE_TX.off) (bootTrace (fld t pgDEV DEV_DEV_ID))) b MSH_LINK_EN true
    linkEnables (showUses t1 (216 + 4 * m) 4) m) s

/-- The image stage begins at its first source (R307, R308). -/
def beginImage (s : State) : State :=
  let b := pgBOOT
  let x := s.boot.straps
  let s1 := setFld { s with boot := { s.boot with slot := 0, link := 0, image := none, applied := false } } b BOOT_STAGE stRead
  match x.bootSrc.val with
  | 0 => setFld s1 b BOOT_SRC_USED srcSpi
  | 1 => hostWindow s1
  | 2 => if x.meshEn then bootLinks (setFld s1 b BOOT_SRC_USED srcMesh) else hostWindow s1
  | _ => setFld s1 b BOOT_SRC_USED srcJtag

/-- CALIBRATION_DONE (R301, R305): every item into its working copy, and the image stage begins. -/
def execCalibrationDone (s : State) : Res :=
  if !s.boot.powered || fld s pgDEV DEV_CHIP_STATE != 1 then .next s
  else
    let s1 := setBit (calItems.foldl loadItem s) pgCAL CAL_LOADED true
    .next (beginImage (setFld (publishAllOffsets s1) pgDEV DEV_CHIP_STATE 2))

/-- An image or a source failed (R310). -/
def imageFail (s : State) (cause : Nat) : State :=
  note (setFld { s with boot := { s.boot with image := none, applied := false } } pgBOOT BOOT_FAIL_CAUSE cause) pgBOOT BOOT_F_IMG_FAIL
    BOOT_C_IMG_FAIL

/-- The loader turns to the next source (R307, R308): SPI slot 1 after slot 0, the next link after a copy, then the host window, which
stays open for the host to retry. -/
def nextSource (s : State) : State :=
  let b := pgBOOT
  match fld s b BOOT_SRC_USED with
  | 0 =>
    if s.boot.slot = 0 then setFld { s with boot := { s.boot with slot := 1 } } b BOOT_STAGE stRead
    else hostWindow s
  | 2 =>
    if s.boot.link < 2 then setFld { s with boot := { s.boot with link := s.boot.link + 1 } } b BOOT_STAGE stRead
    else hostWindow s
  | 3 => s
  | _ => hostWindow s

/-- Does the image stage run: CHIP_STATE 2 and no power-fail warning (R301, R339)? -/
def imageStage (s : State) : Bool :=
  s.boot.powered && fld s pgDEV DEV_CHIP_STATE == 2 && !s.boot.warnPin && !s.boot.warn

/-- IMAGE_SOURCE_TIMEOUT (R308): a copy or a link did not come within 2 s. -/
def execImageSourceTimeout (s : State) : Res :=
  if imageStage s && fld s pgBOOT BOOT_SRC_USED == srcMesh && fld s pgBOOT BOOT_STAGE == stRead then .next (nextSource (imageFail s 5))
  else .next s

/-- HOST_GO (R307): in the host window, and not while a read is in progress. -/
def hostGoBody (s : State) : State × Nat :=
  if isSet s pgBOOT BOOT_BUSY then (s, 4)
  else if imageStage s && fld s pgBOOT BOOT_STAGE == stHost then (setBit s pgBOOT BOOT_BUSY true, 0)
  else (s, 8)

/-- The address of HOST_GO, RELEASE and WARN_CLR. -/
def bootGo : Nat := pgBOOT + BOOT_HOST_GO.off

/-- HOST_GO (R307). -/
def execHostGo (o : Origin) (s : State) : Res := .next (command o bootGo bootGo hostGoBody s)

/-! ### Release (R312) -/

/-- The block's page at a type and an instance (R282). -/
def pageBase (ty i : Nat) : Option Nat :=
  match ty with
  | 1 => some pgDEV | 2 => some pgBOOT | 3 => some pgFUSE | 4 => some pgCAL | 5 => some pgJRN | 6 => some pgSLC | 7 => some pgEVT
  | 8 => some pgHST | 9 => some pgFLT | 10 => some pgPMC | 11 => some pgTST | 12 => some pgMEM | 13 => some pgGRD | 14 => some pgTOD
  | 15 => some pgCAP | 16 => some pgKEY | 17 => some pgOPT | 18 => some pgPRT | 19 => some (pgPON i) | 20 => some (pgCH i 0)
  | 21 => some (pgCH i 1) | 22 => some (pgCH i 2) | 23 => some (pgBRX (i / 3) (i % 3)) | 24 => some (pgRNG (i / 3) (i % 3))
  | 25 => some (pgALC (i / 3) (i % 3)) | 26 => some (pgTPL i) | 27 => some (pgBND i) | 28 => some (pgENG i) | 29 => some (pgUCS i)
  | 30 => some (pgRDR i) | 31 => some pgPRS | 32 => some pgLGD | 33 => some pgGZT | 34 => some pgTMQ | 35 => some pgTMS
  | 36 => some pgBPM | 37 => some pgHBM | 38 => some (pgCXL i) | 39 => some pgCIP | 40 => some (pgMSC i) | 41 => some (pgETH i)
  | 42 => some (pgSDS i) | 43 => some (pgMSH i)
  | _ => none

/-- The page whose block uses a bank, if any (R318 USER). -/
def bankBase (b : Nat) : Option Nat := pageBase (Config.bankUser b).toNat (Config.bankInst b)

/-- Every bank with no user goes off (R316). -/
def dropBanks (s : State) : State :=
  let t := (List.range 1280).foldl (fun l b => if bankBase b = none then tset Bank.init l b { tget Bank.init l b with st := 0 } else l)
    s.boot.bank
  showBanks { s with boot := { s.boot with bank := t } }

/-- Every shaper starts a settle period (R197, R312). -/
def settleAllNodes (s : State) : State :=
  let t := s.tm.node.foldl (fun l e => tset Node.init l e.1 { e.2 with mode := true, settle := none, credit := 0, at_ := 0 }) s.tm.node
  flag { s with tm := { s.tm with node := t, settleAll := (0, fld s pgTMS TMS_SETTLE_FRAMES) } } pgTMS TMS_F_SETTLE_START

/-- Every port without an enabled pair holds custody from release (R266), and TXDIS follows R83. -/
def giveCustody (s : State) (p : Nat) : State :=
  refreshTx (if (pair s p).en then s else setPair s p { pair s p with custody := true }) p

/-- GM_ROLE takes effect (R264): a master that hears another at release follows. -/
def beginRole (s : State) : State :=
  let heardOne := (List.range 3).any (fun m => (tick s m).masterSeen.isSome)
  match fld s pgPRT PRT_GM_ROLE with
  | 1 => if heardOne then becomeFollower s else becomeMaster s
  | 2 => becomeFollower s
  | _ => s

/-- The events of the items that loaded with their default, once the event path is open (R305). -/
def postBadItems (s : State) : State :=
  s.boot.badItems.foldl (fun t x => post t pgCAL (.flag CAL_F_CAL_BAD.off CAL_F_CAL_BAD.bit) [x.1, x.2])
    { s with boot := { s.boot with badItems := [] } }

/-- A slot header that failed its CRC at release (R300 MR_BAD). -/
def noteBadSlot (s : State) (x : FlushSlot) : State := if x.written && !x.headerOk then flag s pgJRN JRN_F_MR_BAD else s

/-- Release at one grid instant, in the order of R312. LOAD_US is a measured time: free (log entry 3). -/
def release (s : State) : State :=
  let g : GridSt := { s.grid with running := true, now := ⟨0, 0, 0⟩, frameLen := finePerFrame, residual := 0, step := none }
  let s1 := settleAllNodes (evalRef { s with grid := g })
  let s2 : State := { s1 with jrn := { s1.jrn with cseq := max s1.jrn.cseq (cseqAfter s1.jrn) } }
  let s3 := showMr (noteBadSlot (noteBadSlot s2 s2.jrn.slotA) s2.jrn.slotB)
  let s4 : State := { s3 with
    boot := { s3.boot with image := if isSet s3 pgBOOT BOOT_SERVE_EN then s3.boot.image else none, warn := false },
    tst := { s3.tst with sweepFrom := 0 } }
  let s5 := setFld (drawFree (setFld s4 pgBOOT BOOT_LOAD_US (freeVal s4))) pgBOOT BOOT_STAGE stDone
  let s6 := (List.range 32).foldl giveCustody (setFld s5 pgDEV DEV_CHIP_STATE 3)
  postBadItems (beginRole (dropBanks s6))

/-- May the device release (R301, R303, R312): its image applied, or held for JTAG; fuses sound; every stack trained; no warning? -/
def mayRelease (s : State) : Bool :=
  imageStage s && s.boot.fuseOk && stacksUp s && (s.boot.applied || s.boot.straps.bootSrc == 3)

/-- RELEASE (R312). -/
def execRelease (s : State) : Res := .next (if mayRelease s && s.boot.applied then release s else s)

/-- BOOT.RELEASE (R307): BOOT_SRC 11 only. -/
def bootReleaseBody (s : State) : State × Nat :=
  if s.boot.straps.bootSrc == 3 && mayRelease s then (release s, 0) else (s, 8)

/-- BOOT_RELEASE (R307). -/
def execBootRelease (o : Origin) (s : State) : Res := .next (command o bootGo bootGo bootReleaseBody s)

/-- MESH_COPY_SERVE (R308): the image leaves on VC 2 in messages of at most 16,384 bytes. -/
def execMeshCopyServe (m : Fin 3) (s : State) : Res :=
  match s.boot.image with
  | none => .next s
  | some x =>
    if released s && isSet s pgBOOT BOOT_SERVE_EN && hexUp s m then
      .next (note ((List.range (ceilDiv x.len 16384)).foldl (fun t i => sendMsg t m 2 [] (min 16384 (x.len - 16384 * i)) none) s) pgBOOT BOOT_F_SERVED BOOT_C_COPIES_SERVED)
    else .next s

/-! ### The power-fail warning (R313, R314, R339) -/

/-- A side that sends a dark notice holds its tree no longer (R314). -/
def darkenPair (s : State) (p : Nat) : State :=
  let r := pair s p
  if r.en && r.kind == 1 && custodyState r.state then
    setPairState (setPair s p { r with armed := false, due := none, watch := none, rollcall := 0 }) p pDark
  else s

/-- POWER_FAIL_WARNING (R313, R339): TXDIS high, then dark notices; the flush; store writes are refused while the pin is low. -/
def execPowerFailWarning (s : State) : Res :=
  let s0 : State := { s with boot := { s.boot with warnPin := true, warn := true, warnRose := none } }
  let s1 := setBit (note s0 pgBOOT BOOT_F_PWR_WARN BOOT_C_PWR_WARNS) pgBOOT BOOT_WARN_ACTIVE true
  if released s then
    let s2 := (List.range 32).foldl refreshTx s1
    .next (beginFlush (darkNotices ((List.range 32).foldl darkenPair s2)) 1)
  else .next (beginFlush s1 1)

/-- POWER_WARN_END (R314): PWR_WARN_N rises; the lasers stay off. -/
def execPowerWarnEnd (s : State) : Res :=
  if s.boot.warnPin then
    .next (flag { s with boot := { s.boot with warnPin := false, warnRose := some (now s).fineIndex } } pgBOOT BOOT_F_WARN_END)
  else .next s

/-- 1 ms in fine steps. -/
def warnHold : Nat := 8 * finePerFrame

/-- WARN_CLR (R314): rejected before PWR_WARN_N has been high for 1 ms. -/
def warnClrBody (s : State) : State × Nat :=
  if !s.boot.warn then (s, 0)
  else match s.boot.warnRose with
    | some t =>
      if s.boot.warnPin || (now s).fineIndex < t + warnHold then (s, 8)
      else (setBit { s with boot := { s.boot with warn := false, warnRose := none } } pgBOOT BOOT_WARN_ACTIVE false, 0)
    | none => (s, 8)

/-- WARN_CLR (R314): TXDIS goes low again at a frame boundary (R83). -/
def execWarnClr (o : Origin) (s : State) : Res := .next (command o bootGo bootGo warnClrBody s)

/-- IMAGE_STAGE_RESTART (R339): before release, after PWR_WARN_N has been high for 1 ms. -/
def execImageStageRestart (s : State) : Res :=
  if !released s && fld s pgDEV DEV_CHIP_STATE == 2 && s.boot.warn && !s.boot.warnPin then
    let s1 : State := { s with boot := { s.boot with warn := false, warnRose := none } }
    .next (beginImage (setBit (setBit s1 pgBOOT BOOT_WARN_ACTIVE false) pgBOOT BOOT_BUSY false))
  else .next s

/-! ### Memory banks (R316, R317) -/

/-- An SRAM bank. -/
def bankAt (s : State) (b : Nat) : Bank := tget Bank.init s.boot.bank b
def setBankAt (s : State) (b : Nat) (r : Bank) : State :=
  showBanks { s with boot := { s.boot with bank := tset Bank.init s.boot.bank b r } }

/-- Set REJECT of the bank window. -/
def memStat (s : State) (rej : Bool) : State := setFld s pgMEM MEM_STAT (2 * rej.toNat)

/-- A command of the bank window. -/
def memCmd (o : Origin) (body : State → Nat → State × Nat) (s : State) : State :=
  command o (pgMEM + MEM_BANK_CMD.off) (pgMEM + MEM_BANK_IDX.off) (fun s => body (memStat s false) (fld s pgMEM MEM_BANK_IDX)) s

/-- A bank changes state. -/
def moveBank (s : State) (b st : Nat) : State :=
  let r := bankAt s b
  if r.st = st then s else bump (setBankAt s b { r with st := st }) pgMEM MEM_C_STATE_CHANGES 1

/-- A refused bank command (R317). -/
def rejectBank (s : State) : State × Nat := (note (memStat s true) pgMEM MEM_F_BANK_REJ MEM_C_BANK_REJ, 8)

/-- BANK_READ (R317, R318): BANK_CMD 1. -/
def execBankRead (o : Origin) (s : State) : Res :=
  .next (memCmd o (fun s b =>
    let s1 := setFld (setFld s pgMEM MEM_STATE (bankAt s b).st) pgMEM MEM_USER (Config.bankUser b).toNat
    (setFld (setFld s1 pgMEM MEM_IN_TEST 0) pgMEM MEM_REPAIRED (Config.repairRows b), 0)) s)

/-- BANK_ON (R316): BANK_CMD 2. -/
def execBankOn (o : Origin) (s : State) : Res := .next (memCmd o (fun s b => (moveBank s b 2, 0)) s)

/-- Is the block that uses a bank enabled (R317)? -/
def userEnabled (s : State) (b : Nat) : Bool := (bankBase b).any (fun a => isSet s a ANY_ENABLE)

/-- BANK_RETENTION (R317): BANK_CMD 3. -/
def execBankRetention (o : Origin) (s : State) : Res :=
  .next (memCmd o (fun s b => if userEnabled s b then rejectBank s else (moveBank s b 1, 0)) s)

/-- BANK_OFF (R317): BANK_CMD 4. -/
def execBankOff (o : Origin) (s : State) : Res :=
  .next (memCmd o (fun s b => if (bankBase b).isSome then rejectBank s else (moveBank s b 0, 0)) s)

end Sys2Proof.Machine
end

