-- ==== Sys2Proof/Machine/Parse.lean ====
section
/-! DEFINITION. The parser (R170 to R174): what it recognises in the first 256 bytes of a frame, the causes for which a frame is
malformed, the parse record and the Legend key. -/

namespace Sys2Proof.Machine

/-- What the parser has found. `cause` is the first cause of R172; `tags` holds the tags' 16-bit control words, outermost first. -/
structure Parse where
  cause : Option Nat
  mcast : Bool
  tags : List Nat
  etype : Nat
  pppoe : Bool
  v4 : Bool
  v6 : Bool
  l4 : Bool
  frag : Bool
  l3Ofs : Nat
  l4Ofs : Nat
  ipSrc : Nat
  ipDst : Nat
  dscp : Nat
  proto : Nat
  l4Src : Nat
  l4Dst : Nat
  tcpFlags : Nat
  deriving DecidableEq, Repr

/-- Nothing found yet. -/
def Parse.init : Parse := ⟨none, false, [], 0, false, false, false, false, false, 0, 0, 0, 0, 0, 0, 0, 0, 0⟩

/-- End parsing with a cause. -/
def Parse.bad (r : Parse) (c : Nat) : Parse := { r with cause := some c }

/-- The bytes that the parser reads (R170). -/
def parseMax : Nat := 256

/-- UDP and TCP (R170, R172): `o` is the header's offset, `len` the frame's length, `pay` the bytes of IP payload from there on and
`whole` whether the datagram is unfragmented. No byte past the first 256 is read: a header whose deciding bytes lie beyond them is
PARSE_DEPTH. -/
def parseL4 (l : List Byte) (len o pay : Nat) (whole : Bool) (r : Parse) : Parse :=
  if r.proto = 17 then
    if !whole && pay < 8 then r.bad 11
    else if len < o + 8 then r.bad 12
    else if parseMax < o + 6 then r.bad 15
    else if beAt l (o + 4) 2 < 8 || (whole && pay < beAt l (o + 4) 2) then r.bad 13
    else if parseMax < o + 8 then r.bad 15
    else { r with l4 := true, l4Ofs := o, l4Src := beAt l o 2, l4Dst := beAt l (o + 2) 2 }
  else if r.proto = 6 then
    let n := 4 * (byteAt l (o + 12) / 16)
    if !whole && pay < 20 then r.bad 11
    else if len < o + 20 then r.bad 12
    else if parseMax < o + 13 then r.bad 15
    else if !whole && pay < n then r.bad 11
    else if n < 20 then r.bad 14
    else if len < o + n then r.bad 12
    else if parseMax < o + 14 then r.bad 15
    else if byteAt l (o + 13) % 4 = 3 then r.bad 14
    else if parseMax < o + n then r.bad 15
    else { r with l4 := true, l4Ofs := o, l4Src := beAt l o 2, l4Dst := beAt l (o + 2) 2, tcpFlags := byteAt l (o + 13) }
  else r

/-- The one's complement sum of a header's 16-bit words. -/
def onesSum (l : List Byte) (o n : Nat) : Nat :=
  let t := ((List.range (n / 2)).map (fun i => beAt l (o + 2 * i) 2)).sum
  let u := t % 65536 + t / 65536
  u % 65536 + u / 65536

/-- IPv4 at offset `a` (R170, R172 causes 4 to 7 and 11). -/
def parseV4 (l : List Byte) (len a : Nat) (r : Parse) : Parse :=
  let h := 4 * (byteAt l a % 16)
  let total := beAt l (a + 2) 2
  let src := beAt l (a + 12) 4
  let more := bitAt (byteAt l (a + 6)) 5
  let ofs := beAt l (a + 6) 2 % 8192
  if byteAt l a / 16 ≠ 4 || h < 20 then r.bad 4
  else if total < h || len - a < total then r.bad 5
  else if parseMax < a + h then r.bad 15
  else if onesSum l a h ≠ 0xFFFF then r.bad 6
  else if (224 ≤ byteAt l (a + 12) && byteAt l (a + 12) < 240) || src == 0xFFFFFFFF || byteAt l (a + 12) == 127 then r.bad 7
  else
    let r1 := { r with v4 := true, l3Ofs := a, frag := more || ofs != 0, ipSrc := src, ipDst := beAt l (a + 16) 4,
                       dscp := byteAt l (a + 1) / 4, proto := byteAt l (a + 9) }
    if 65535 < ofs * 8 + (total - h) then r1.bad 11
    else if ofs = 0 then parseL4 l len (a + h) (total - h) (!more) r1
    else r1

/-- Is a next-header value an extension header that the parser recognises (R170)? -/
def extHeader (n : Nat) : Bool := n == 0 || n == 43 || n == 44 || n == 60

/-- The extension headers of IPv6 and what follows (R170, R172 causes 9 to 11): `o` the next header's offset, `stop` the end of the
payload, `seen` how many were parsed. -/
def parseExt (l : List Byte) (len stop : Nat) : Nat → Nat → Parse → Parse
  | 0, _, r => r.bad 9
  | fuel + 1, o, r =>
    if !extHeader r.proto then parseL4 l len o (stop - o) (!r.frag) r
    else if fuel = 0 then r.bad 9
    else
      let n := if r.proto = 44 then 8 else 8 * (byteAt l (o + 1) + 1)
      if len < o + 8 then r.bad 10
      else if parseMax < o + 2 then r.bad 15
      else if len < o + n then r.bad 10
      else if parseMax < o + n then r.bad 15
      else
        let r1 := { r with proto := byteAt l o }
        if r.proto = 44 then
          let ofs := beAt l (o + 2) 2 / 8
          let more := beAt l (o + 2) 2 % 2 == 1
          let r2 := { r1 with frag := r1.frag || more || ofs != 0 }
          if 65535 < ofs * 8 + (stop - (o + 8)) then r2.bad 11
          else if ofs = 0 then parseExt l len stop fuel (o + n) r2
          else r2
        else parseExt l len stop fuel (o + n) r1

/-- IPv6 at offset `a` (R170, R172 cause 8). -/
def parseV6 (l : List Byte) (len a : Nat) (r : Parse) : Parse :=
  let plen := beAt l (a + 4) 2
  if len < a + 40 || len < a + 40 + plen then r.bad 8
  else if parseMax < a + 40 then r.bad 15
  else
    parseExt l len (a + 40 + plen) 4 (a + 40)
      { r with v6 := true, l3Ofs := a, ipSrc := beAt l (a + 8) 16, ipDst := beAt l (a + 24) 16,
               dscp := beAt l a 2 / 64 % 64, proto := byteAt l (a + 6) }

/-- What follows the last EtherType, which stands at offset `o` (R170, R172 causes 2 and 3). -/
def parseL3 (l : List Byte) (len o : Nat) (r : Parse) : Parse :=
  let e := beAt l o 2
  let p := o + 2
  if e < 0x600 then (if len - p < e then r.bad 2 else r)
  else
    let r1 := { r with etype := e }
    if e = 0x0800 then parseV4 l len p r1
    else if e = 0x86DD then parseV6 l len p r1
    else if e = 0x8864 then
      let n := beAt l (p + 4) 2
      if len < p + 6 || byteAt l p != 0x11 || byteAt l (p + 1) != 0 || len < p + 6 + n then r1.bad 3
      else
        let r2 := { r1 with pppoe := true }
        if n < 2 then r2
        else if beAt l (p + 6) 2 = 0x0021 then parseV4 l len (p + 8) r2
        else if beAt l (p + 6) 2 = 0x0057 then parseV6 l len (p + 8) r2
        else r2
    else r1

/-- The tags from offset `o` on (R170, R172 causes 0 and 1); c1 and c2 are the extra TPIDs. -/
def parseTags (l : List Byte) (len c1 c2 : Nat) : Nat → Nat → Parse → Parse
  | fuel, o, r =>
    let t := beAt l o 2
    let tag : Bool := t == 0x8100 || t == 0x88A8 || (c1 != 0 && t == c1) || (c2 != 0 && t == c2)
    if !tag then parseL3 l len o r
    else match fuel with
      | 0 => r.bad 1
      | k + 1 => if len < o + 6 then r.bad 0
        else parseTags l len c1 c2 k (o + 4) { r with tags := r.tags ++ [beAt l (o + 2) 2] }

/-- Parse a frame of `len` bytes (R170, R172). -/
def parse (l : List Byte) (len c1 c2 : Nat) : Parse :=
  let r := { Parse.init with mcast := 0 < len && byteAt l 0 % 2 == 1 }
  if len < 14 then r.bad 0 else parseTags l len c1 c2 3 12 r

/-- The parser result bits (R171 bits [7:0]). -/
def Parse.bits (r : Parse) : Nat :=
  r.cause.isSome.toNat + 2 * (r.tags != []).toNat + 4 * r.pppoe.toNat + 8 * r.v4.toNat + 16 * r.v6.toNat + 32 * r.l4.toNat +
    64 * r.frag.toNat + 128 * r.mcast.toNat

/-- The parse record (R171). -/
def Parse.record (r : Parse) (slice : Nat) : Nat :=
  r.bits + (r.cause.getD 0) * 2 ^ 8 + r.tags.length * 2 ^ 12 + (r.l3Ofs % 256) * 2 ^ 14 + (r.l4Ofs % 256) * 2 ^ 22 +
    slice * 2 ^ 30 + r.etype * 2 ^ 48

/-- The VID and the priority of tag i; 0 where there is no such tag. -/
def Parse.vid (r : Parse) (i : Nat) : Nat := r.tags.getD i 0 % 4096
def Parse.pcp (r : Parse) (i : Nat) : Nat := r.tags.getD i 0 / 8192

/-- The code of a direction (R174 DIR). -/
def dirCode : Dir → Nat
  | .downstream => 0
  | .upstream => 1
  | .host => 2

/-- The Legend key (R174). -/
def Parse.legendKey (r : Parse) (dir : Dir) (src : Nat) : Nat :=
  r.ipSrc * 2 ^ 256 + r.ipDst * 2 ^ 128 + r.l4Src * 2 ^ 112 + r.l4Dst * 2 ^ 96 + r.tags.length * 2 ^ 94 +
    r.vid 0 * 2 ^ 82 + r.vid 1 * 2 ^ 70 + r.pcp 0 * 2 ^ 67 + r.pcp 1 * 2 ^ 64 + r.etype * 2 ^ 48 + r.dscp * 2 ^ 41 +
    r.proto * 2 ^ 33 + r.tcpFlags * 2 ^ 25 + r.bits * 2 ^ 17 + dirCode dir * 2 ^ 15 + src

end Sys2Proof.Machine
end

