-- ==== Sys2Proof/Machine/Legend.lean ====
section
/-! DEFINITION. The Legend (R174 to R179, R190): the match, the queue that an action selects, the rule window, the block move
and the VID table. -/

namespace Sys2Proof.Machine

/-! ### The match (R175, R176, R178) -/

/-- A rule. -/
def rule (s : State) (i : Nat) : LRule := tget LRule.init s.cls.rule i
def setRule (s : State) (i : Nat) (r : LRule) : State :=
  { s with cls := { s.cls with rule := tset LRule.init s.cls.rule i r } }

/-- The rules of the Legend. -/
def ruleMax : Nat := 16384

/-- The rule index that a miss returns (R178). -/
def missIndex : Nat := 0x3FFF

/-- Does a rule match a key for a packet of a slice (R175)? -/
def LRule.matches (r : LRule) (key : BitVec 384) (slice : Nat) : Bool :=
  r.valid && ((key ^^^ r.value) &&& r.mask == 0) && (r.owner == 0 || r.owner == slice)

/-- The rule that wins: the lowest index that matches (R175). -/
def winner (s : State) (key : BitVec 384) (slice : Nat) : Option (Nat × LRule) :=
  s.cls.rule.find? (fun e => e.2.matches key slice)

/-! ### The action (R176, R177) -/

/-- Note that a relative queue was out of range (R177). -/
def noteRange (s : State) : State := note s pgLGD LGD_F_QUEUE_RANGE LGD_C_QUEUE_RANGE

/-- The queue of an offset relative to ONU node u (R177). -/
def onuQueue (s : State) (u off : Nat) : State × Nat :=
  let r := onuRange s u
  if off < r.2 then (s, r.1 + off) else (noteRange s, r.1)

/-- Count a relative queue for which there is no ONU (R177). -/
def countRange (s : State) : State := bump s pgLGD LGD_C_QUEUE_RANGE 1

/-- Resolve a relative queue once the destination is known (R177): the queue of an ONU; the default queue of an uplink port; of a
host ring that ring, and none for a drop. For a replication group the offset stays: each replica is resolved by its own
destination. -/
def resolveQueue (s : State) (p : Packet) (off : Nat) (dest : Nat × Nat) : State × Packet :=
  let q := { p with rel := none, group := false }
  match dest.1 with
  | 0 => let r := onuQueue s dest.2 off; (r.1, { q with qsel := r.2 })
  | 1 => (countRange s, { q with qsel := upKey (fld s pgTMQ (TMQ_PORT_DEFQ.at dest.2)) })
  | 2 => (countRange s, { q with qsel := 2 ^ 17 + dest.2 })
  | 3 => (countRange s, { p with rel := some off, group := true })
  | _ => (countRange s, { q with qsel := noSelect })

/-- What an action does to its packet (R176, R177). A relative queue waits for the ONU: of an upstream packet that is the source, of
the others the destination from the Gazetteer. -/
def applyAction (s : State) (p : Packet) (a : Nat) : State × Packet :=
  let p1 := if bitAt a 3 then { p with cls := a % 8 } else p
  let p2 := if bitAt a 6 then { p1 with colour := a / 16 % 4 } else p1
  let q := a / 512 % 65536
  match a / 128 % 4 with
  | 1 => (s, { p2 with qsel := if p.dir = .upstream then upKey q else q, rel := none, group := false })
  | 2 =>
    if p.dir = .upstream then let r := onuQueue s p.src q; (r.1, { p2 with qsel := r.2, rel := none })
    else match p.dest with
      | some d => resolveQueue s p2 q d
      | none => (s, { p2 with rel := some q })
  | _ => (s, p2)

/-- The miss action of a direction (R178). -/
def missAction (s : State) (d : Dir) : Nat := fld s pgLGD ⟨LGD_DEFAULT.off + 4 * dirCode d, 0, 25, 0⟩

/-- The counter of matches of a direction (R190). -/
def matchCounter : Dir → Nat
  | .downstream => LGD_C_MATCH_DS
  | .upstream => LGD_C_MATCH_US
  | .host => LGD_C_MATCH_HOST

/-- A Legend match of a packet (R175, R178): the packet with the action applied, the action word, the rule index and whether a rule
matched. A malformed packet is compared with no rule and keeps the default class and colour that it took at dispatch (R173); what its
two words hold beside the MALFORMED status is free (log entry 3). -/
def legendMatch (s : State) (p : Packet) : State × Packet × Nat × Nat × Bool :=
  if p.record % 2 = 1 then
    (drawFree (bump s pgLGD LGD_C_MALFORMED_SKIPS 1), p, freeVal s % 2 ^ 32, freeVal s / 2 ^ 32, false)
  else
    let miss :=
      let a := missAction s p.dir
      let r := applyAction (bump s pgLGD LGD_C_MISSES 1) p a
      (trace r.1 pgLGD 3 0 p.tag noQueue p.len missIndex, r.2, a, missIndex, false)
    if !active s pgLGD LGD_LGD_EN then miss
    else match winner s (BitVec.ofNat 384 p.key) p.slice with
      | none => miss
      | some (i, x) =>
        let s1 := setRule (bump s pgLGD (matchCounter p.dir) 1) i { x with hits := min cntMax (x.hits + 1) }
        let r := applyAction s1 p x.action.toNat
        (trace r.1 pgLGD 3 0 p.tag noQueue p.len i, r.2, x.action.toNat, i, true)

/-! ### The rule window (R178, R190) -/

/-- Set the status bits of the rule window. -/
def lgdStat (s : State) (own rej : Bool) : State := setBit (setBit s pgLGD LGD_OWN_ERR own) pgLGD LGD_REJECT rej

/-- The words of a wide value, the highest word first. -/
def wideWords (n : Nat) : Nat → List Word
  | 0 => []
  | k + 1 => BitVec.ofNat 32 (n >>> (32 * k)) :: wideWords n k

/-- The value that words spell, the highest word first. -/
def wideValue (l : List Word) : Nat := l.foldl (fun a w => a * 2 ^ 32 + w.toNat) 0

/-- Show a rule in the window. -/
def showRule (s : State) (r : LRule) : State :=
  let b := pgLGD
  let s1 := setFld (setBit s b LGD_VALID r.valid) b LGD_OWNER r.owner
  let s2 := setWords (setWords s1 (b + LGD_VALUE.off) (wideWords r.value.toNat 12)) (b + LGD_MASK.off) (wideWords r.mask.toNat 12)
  setWords (setReg s2 (b + LGD_ACTION.off) r.action) (b + LGD_HIT_CNT.off) [BitVec.ofNat 32 r.hits, BitVec.ofNat 32 (r.hits >>> 32)]

/-- Does index i lie in the block from `first` to `last`? -/
def inBlock (first last i : Nat) : Bool := first ≤ i && i ≤ last

/-- A command of the rule window; refused while BUSY. -/
def lgdCmd (o : Origin) (body : State → Nat → State × Nat) (s : State) : State :=
  command o (pgLGD + LGD_CMD.off) (pgLGD + LGD_RULE_IDX.off) (fun s =>
    if isSet s pgLGD LGD_BUSY then (s, 4) else body s (fld s pgLGD LGD_RULE_IDX)) s

/-- A command that writes a rule; one that meets a block move and names a rule of the block sets REJECT (R179). -/
def lgdWrite (o : Origin) (body : State → Nat → State × Nat) (s : State) : State :=
  let meets : Bool := s.cls.move.any (fun m => inBlock m.1 m.2.1 (fld s pgLGD LGD_RULE_IDX))
  lgdCmd o body (if (addrReject s o (pgLGD + LGD_CMD.off)).isNone && isSet s pgLGD LGD_BUSY && meets then setBit s pgLGD LGD_REJECT true else s)

/-- LGD_RULE_READ (R178, R27): CMD 1; a rule of another slice reads 0 with OWN_ERR. -/
def execLgdRuleRead (o : Origin) (s : State) : Res :=
  .next (lgdCmd o (fun s i =>
    if mayUse (Origin.slice o) (rule s i).owner then (showRule (lgdStat s false false) (rule s i), 0)
    else (showRule (lgdStat s true false) (LRule.init 0), 2)) s)

/-- The number of valid rules. -/
def showValid (s : State) : State :=
  setFld s pgLGD LGD_RULES_VALID ((s.cls.rule.filter (fun e => e.2.valid)).length)

/-- A refused rule write (R178). -/
def rejectRule (s : State) (own : Bool) : State := note (lgdStat s own true) pgLGD LGD_F_RULE_REJ LGD_C_RULE_REJ

/-- The rule that the window holds; only slice 0 writes OWNER. -/
def ruleOfWindow (s : State) (o : Origin) (old : LRule) : LRule :=
  let b := pgLGD
  { old with value := BitVec.ofNat 384 (wideValue (wordsAt s (b + LGD_VALUE.off) 12)),
             mask := BitVec.ofNat 384 (wideValue (wordsAt s (b + LGD_MASK.off) 12)),
             action := reg s (b + LGD_ACTION.off), valid := isSet s b LGD_VALID,
             owner := if Origin.slice o = 0 then fld s b LGD_OWNER else old.owner }

/-- The queue number of an action. -/
def LRule.q (r : LRule) : Nat := r.action.toNat / 512 % 65536

/-- May a rule match a packet of a direction, by its VALUE and MASK of DIR (R174, R175)? -/
def LRule.meets (r : LRule) (d : Dir) : Bool := ((dirCode d ^^^ r.value.toNat / 2 ^ 15) &&& r.mask.toNat / 2 ^ 15) % 4 == 0

/-- The queues that a rule with QMODE 1 selects (R176, R178): the downstream queue for the packets downstream and of the host, the
uplink-bound one, where there is one of that number, for those upstream (log entry 53). -/
def LRule.queues (r : LRule) : List Nat :=
  (if r.meets .downstream || r.meets .host then [r.q] else []) ++ (if r.meets .upstream && r.q < 8192 then [upKey r.q] else [])

/-- Does a rule with QMODE 1 select no queue that there is? -/
def LRule.queueless (r : LRule) : Bool := r.queues == []

/-- Does R178 reject the action word of a rule? -/
def LRule.badAction (r : LRule) : Bool :=
  r.action.toNat / 16 % 4 == 3 || r.action.toNat / 128 % 4 == 3 || (r.action.toNat / 128 % 4 == 1 && r.queueless)

/-- Does a rule name a queue that its owner does not own (R178)? -/
def foreignQueue (s : State) (r : LRule) : Bool := r.action.toNat / 128 % 4 == 1 && r.queues.any (fun q => ownerOfQueue s q != r.owner)

/-- LGD_RULE_WRITE (R178, R347): CMD 2; the ownership checks apply to every write, the value checks to a rule that is left valid. -/
def execLgdRuleWrite (o : Origin) (s : State) : Res :=
  .next (lgdWrite o (fun s i =>
    let old := rule s i
    let n := ruleOfWindow s o old
    if !mayUse (Origin.slice o) old.owner then (rejectRule s true, 2)
    else if foreignQueue s n then (rejectRule s false, if Origin.slice o = 0 then 1 else 2)
    else if n.valid && n.badAction then (rejectRule s false, 1)
    else (showValid (bump (setRule (lgdStat s false false) i n) pgLGD LGD_C_RULE_WRITES 1), 0)) s)

/-- LGD_RULE_INVALIDATE (R178): CMD 3. -/
def execLgdRuleInvalidate (o : Origin) (s : State) : Res :=
  .next (lgdWrite o (fun s i =>
    if mayUse (Origin.slice o) (rule s i).owner then
      (showValid (setRule (lgdStat s false false) i { rule s i with valid := false }), 0)
    else (lgdStat s true false, 2)) s)

/-- LGD_HIT_CLEAR (R190): CMD 5. -/
def execLgdHitClear (o : Origin) (s : State) : Res :=
  .next (lgdCmd o (fun s i =>
    if mayUse (Origin.slice o) (rule s i).owner then (setRule (lgdStat s false false) i { rule s i with hits := 0 }, 0)
    else (lgdStat s true false, 2)) s)

/-! ### The block move (R179) -/

/-- LGD_MOVE_BLOCK (R179): CMD 4 starts the move unless the block passes the last rule or a destination rule is valid. -/
def execLgdMoveBlock (o : Origin) (s : State) : Res :=
  .next (lgdCmd o (fun s first =>
    let last := fld s pgLGD LGD_MOVE_LAST
    let dest := fld s pgLGD LGD_MOVE_DEST
    let n := last + 1 - first
    let touched := fun i => inBlock first last i || inBlock dest (dest + n - 1) i
    let foreign : Bool := Origin.slice o != 0 &&
      ((List.range ruleMax).any (fun i => touched i && (rule s i).owner != Origin.slice o))
    let valid : Bool := s.cls.rule.any (fun e => e.2.valid && inBlock dest (dest + n - 1) e.1 && !inBlock first last e.1)
    if foreign then (lgdStat s true false, 2)
    else if last < first then (lgdStat s false true, 1)
    else if valid then (lgdStat s false true, 8)
    else if ruleMax < dest + n then (lgdStat s false true, 1)
    else
      let s1 := setBit (lgdStat s false false) pgLGD LGD_BUSY true
      ({ s1 with cls := { s1.cls with move := some (first, last, dest) } }, 0)) s)

/-- The rules after a block has moved (R179): each destination holds its source, also one at its reset value; the sources that the block
does not cover at its new place are invalid. -/
def movedRules (s : State) (first last dest : Nat) : Tbl LRule :=
  let target := inBlock dest (dest + (last - first))
  let block := s.cls.rule.filter (fun e => inBlock first last e.1)
  let kept := s.cls.rule.filter (fun e => !target e.1)
  let freed := block.foldl (fun t e => if target e.1 then t else tset LRule.init t e.1 { e.2 with valid := false }) kept
  block.foldl (fun t e => tset LRule.init t (dest + (e.1 - first)) e.2) freed

/-- LGD_MOVE_DONE (R179): the last copy and invalidation are made and MOVE_DONE is set. -/
def execLgdMoveDone (s : State) : Res :=
  match s.cls.move with
  | none => .next s
  | some (first, last, dest) =>
    let s1 : State := { s with cls := { s.cls with rule := movedRules s first last dest, move := none } }
    .next (showValid (flag (setBit s1 pgLGD LGD_BUSY false) pgLGD LGD_F_MOVE_DONE))

/-! ### VID_SLICE (R174, R190 PRS) -/

/-- The slice of an outer VID. -/
def vidSlice (s : State) (v : Nat) : Nat := tget dzero s.cls.vid v

/-- A command of the VID table. -/
def vidCmd (o : Origin) (body : State → State × Nat) (s : State) : State :=
  command o (pgPRS + PRS_VS_CMD.off) (pgPRS + PRS_VS_VID.off) body s

/-- VID_SLICE_READ (R174): VS_CMD 1. -/
def execVidSliceRead (o : Origin) (s : State) : Res :=
  .next (vidCmd o (fun s => (setFld s pgPRS PRS_VS_SLICE (vidSlice s (fld s pgPRS PRS_VS_VID)), 0)) s)

/-- VID_SLICE_WRITE (R174): VS_CMD 2. -/
def execVidSliceWrite (o : Origin) (s : State) : Res :=
  .next (vidCmd o (fun s =>
    ({ s with cls := { s.cls with vid := tset dzero s.cls.vid (fld s pgPRS PRS_VS_VID) (fld s pgPRS PRS_VS_SLICE) } }, 0)) s)

end Sys2Proof.Machine
end

