-- ==== Sys2Proof/Machine/Gazetteer.lean ====
section
/-! DEFINITION. The Gazetteer (R180 to R190): keys, buckets, lookup, the learn arbiter, station moves, eviction, promotion, aging
and the host window. -/

namespace Sys2Proof.Machine

/-! ### Entries (R181) -/

/-- A field of an entry. -/
def entF (e : BitVec 256) (lsb width : Nat) : Nat := (e.toNat >>> lsb) % 2 ^ width

/-- An entry with one field replaced. -/
def setEntF (e : BitVec 256) (lsb width v : Nat) : BitVec 256 :=
  let m : BitVec 256 := BitVec.ofNat 256 ((2 ^ width - 1) <<< lsb)
  (e &&& ~~~m) ||| (BitVec.ofNat 256 ((v % 2 ^ width) <<< lsb) &&& m)

def entType (e : BitVec 256) : Nat := entF e 254 2
def entStatic (e : BitVec 256) : Bool := entF e 253 1 == 1
def entFrozen (e : BitVec 256) : Bool := entF e 252 1 == 1
def entOwner (e : BitVec 256) : Nat := entF e 243 5
def entAge (e : BitVec 256) : Nat := entF e 224 16
def entMoves (e : BitVec 256) : Nat := entF e 216 8
def entEpoch (e : BitVec 256) : Nat := entF e 208 8
def entKey (e : BitVec 256) : Nat := entF e 112 96

/-- The destination of an entry: kind and index. -/
def entDest (e : BitVec 256) : Nat × Nat := (entF e 109 3, entF e 91 18)

/-- DEST_KIND, DEST, XGEM and DATA: what a learn supplies (R184). -/
def entBody (e : BitVec 256) : Nat := entF e 0 112

/-- A learned entry (R185): dynamic, not frozen, its window starting now. -/
def learned (ty owner age key body : Nat) : BitVec 256 :=
  setEntF (setEntF (setEntF (setEntF (setEntF (setEntF 0 254 2 ty) 243 5 owner) 224 16 age) 208 8 age) 112 96 key) 0 112 body

/-! ### Buckets (R182) -/

/-- The primary bucket and the overflow bucket of a key, taken as 12 bytes in network order. -/
def bucketH1 (key : Nat) : Nat := crc32c (beBytes key 12) % 2 ^ 24
def bucketH2 (key : Nat) : Nat := crc32 (beBytes key 12) % 2 ^ 18

def prim (s : State) (i : Nat) : BitVec 256 := tget dentry s.cls.prim i
def ovf (s : State) (i : Nat) : BitVec 256 := tget dentry s.cls.ovf i
def ovfCnt (s : State) (b : Nat) : Nat := tget dzero s.cls.ovfCnt b

/-- Where an entry stands: in the overflow store or not, and its number there. -/
abbrev Loc := Bool × Nat

def entAt (s : State) (l : Loc) : BitVec 256 := if l.1 then ovf s l.2 else prim s l.2

/-- Write an entry in its place. -/
def putEnt (s : State) (l : Loc) (e : BitVec 256) : State :=
  if l.1 then { s with cls := { s.cls with ovf := tset dentry s.cls.ovf l.2 e } }
  else { s with cls := { s.cls with prim := tset dentry s.cls.prim l.2 e } }

def setOvfCnt (s : State) (b n : Nat) : State := { s with cls := { s.cls with ovfCnt := tset dzero s.cls.ovfCnt b n } }

/-- The slots of a primary bucket and of an overflow bucket, in slot order. -/
def primSlots (b : Nat) : List Loc := (List.range 4).map (fun j => (false, 4 * b + j))
def ovfSlots (b : Nat) : List Loc := (List.range 8).map (fun j => (true, 8 * b + j))

/-- Does a slot hold this key? -/
def holdsKey (s : State) (key ty : Nat) (l : Loc) : Bool := entType (entAt s l) == ty && entKey (entAt s l) == key

/-- Find a key (R183): the primary bucket first; the overflow bucket when the primary one counts entries there. -/
def locate (s : State) (key ty : Nat) : Option Loc :=
  ((primSlots (bucketH1 key)).find? (holdsKey s key ty)).or
    (if ovfCnt s (bucketH1 key) = 0 then none else (ovfSlots (bucketH2 key)).find? (holdsKey s key ty))

/-- Bring ENTRIES_USED and OVF_USED up to date. -/
def showUsed (s : State) : State :=
  let n := fun (t : Tbl (BitVec 256)) => (t.filter (fun e => entType e.2 != 0)).length
  setFld (setFld s pgGZT GZT_ENTRIES_USED (n s.cls.prim + n s.cls.ovf)) pgGZT GZT_OVF_USED (n s.cls.ovf)

/-- The current epoch. -/
def ageNow (s : State) : Nat := fld s pgGZT GZT_AGE_NOW

/-- The owner that a key's prefix names (R189): of the bridge domain, or of the port entry. -/
def keyOwner (s : State) (key ty : Nat) : Nat :=
  let x := key / 2 ^ 78
  if ty = 1 then tget dzero s.cls.domain (x % 65536)
  else xpOwner s (x / 8192) (tget XpEntry.init s.pon.xp x)

/-! ### Lookup (R183) -/

/-- An entry as it is read: slot 0 of a primary bucket shows OVF_CNT (R181). -/
def shownEnt (s : State) (l : Loc) : BitVec 256 :=
  let e := entAt s l
  if !l.1 && l.2 % 4 == 0 then setEntF e 248 4 (ovfCnt s (l.2 / 4)) else e

/-- A lookup with its counts; while GZT_EN is 0 every lookup misses (R190). -/
def gztLookup (s : State) (key ty : Nat) : State × Option Loc :=
  let s1 := bump s pgGZT GZT_C_LOOKUPS 1
  if !active s pgGZT GZT_GZT_EN then (s1, none)
  else
    let hitPrim : Bool := (primSlots (bucketH1 key)).any (holdsKey s key ty)
    let s2 := if !hitPrim && ovfCnt s (bucketH1 key) != 0 then bump s1 pgGZT GZT_C_OVF_READS 1 else s1
    match locate s key ty with
    | some l => (bump s2 pgGZT GZT_C_HITS 1, some l)
    | none => (s2, none)

/-! ### Promotion (R187) -/

/-- The overflow entries of primary bucket b that may be promoted: not static, and not the old copy of an earlier promotion. -/
def promotable (s : State) (b : Nat) : List Nat :=
  (s.cls.ovf.filter (fun e => entType e.2 != 0 && !entStatic e.2 && bucketH1 (entKey e.2) == b &&
    !s.cls.reloc.any (fun r => r.slot == e.1))).map (·.1)

/-- A primary slot of bucket b was freed (R187): when the overflow store holds an entry of b, one of them, picked by the free value,
is copied there and OVF_CNT falls; the old copy stands until the guard ends. -/
def promote (s : State) (b slot : Nat) : State :=
  if ovfCnt s b = 0 then s
  else
    let l := promotable s b
    match l[freeVal s % max 1 l.length]? with
    | none => s
    | some o =>
      let s1 := setOvfCnt (putEnt (drawFree s) (false, slot) (ovf s o)) b (ovfCnt s b - 1)
      { s1 with cls := { s1.cls with reloc := s1.cls.reloc ++ [⟨b, o, (now s).fineIndex + 32 * finePerGt⟩] } }

/-- The old copy of a promotion goes, and its lock (R187). -/
def endReloc (s : State) (r : Reloc) : State :=
  let s1 := putEnt s (true, r.slot) 0
  showUsed (bump { s1 with cls := { s1.cls with reloc := s1.cls.reloc.erase r } } pgGZT GZT_C_RELOCATIONS 1)

/-- Is this place the old copy of a promotion, which its guard keeps (R187)? -/
def oldCopy (s : State) (l : Loc) : Bool := l.1 && s.cls.reloc.any (fun r => r.slot == l.2)

/-- Remove an entry: the overflow count of its bucket falls with an overflow entry, and a primary slot that is freed draws a
promotion (R186, R187). -/
def removeEnt (s : State) (l : Loc) : State :=
  let b := bucketH1 (entKey (entAt s l))
  let s1 := putEnt s l 0
  showUsed (if l.1 then setOvfCnt s1 b (ovfCnt s b - 1) else promote s1 b l.2)

/-! ### Insert and eviction (R186) -/

/-- A free place for a key: the lowest free primary slot; else, with OVF_CNT below 15, the lowest free overflow slot. -/
def freePlace (s : State) (key : Nat) : Option Loc :=
  let free := fun l => entType (entAt s l) == 0
  ((primSlots (bucketH1 key)).find? free).or
    (if 15 ≤ ovfCnt s (bucketH1 key) then none else (ovfSlots (bucketH2 key)).find? free)

/-- Put a new entry in a free place; the count of its bucket rises after an overflow entry is written. -/
def placeEnt (s : State) (l : Loc) (e : BitVec 256) : State :=
  let b := bucketH1 (entKey e)
  showUsed (if l.1 then setOvfCnt (putEnt s l e) b (ovfCnt s b + 1) else putEnt s l e)

/-- The entries that a learn may evict: non-static ones of its primary bucket, and of its overflow bucket those of its own primary
bucket. -/
def victims (s : State) (key : Nat) : List Loc :=
  (primSlots (bucketH1 key) ++ ovfSlots (bucketH2 key)).filter (fun l =>
    let e := entAt s l
    entType e != 0 && !entStatic e && (!l.1 || bucketH1 (entKey e) == bucketH1 key))

/-- How old an entry is. -/
def entAgeOf (s : State) (l : Loc) : Nat := (ageNow s + 65536 - entAge (entAt s l)) % 65536

/-- The oldest of some places: ties to the primary slot, then to the lower slot, which come first. -/
def oldest (s : State) : List Loc → Option Loc
  | [] => none
  | l :: ls => match oldest s ls with
    | none => some l
    | some m => if entAgeOf s m ≤ entAgeOf s l then some l else some m

/-- The victim that the table's policy selects; the LFSR of the random policy takes a free value (log entry 3). -/
def pickVictim (s : State) (key ty : Nat) : State × Option Loc :=
  let l := victims s key
  if isSet s pgGZT (if ty = 1 then GZT_EVICT_L2 else GZT_EVICT_FLOW) then (s, oldest s l)
  else
    let v := freeVal s % 2 ^ 16
    let s1 := drawFree { s with cls := { s.cls with lfsr := v } }
    (s1, l[v % max 1 l.length]?)

/-! ### The learn arbiter (R184, R185) -/

/-- Note a station move (R185). -/
def noteMove (s : State) : State := note s pgGZT GZT_F_MOVE GZT_C_MOVES

/-- A learn that finds its key with another destination (R185); a freeze is an event of the key's owner (R29). -/
def stationMove (s : State) (l : Loc) (body : Nat) : State × Nat :=
  let e := entAt s l
  let age := ageNow s
  if entFrozen e then (s, 3)
  else
    let s1 := noteMove s
    let fresh : Bool := fld s pgGZT GZT_MOVE_WINDOW ≤ (age + 256 - entEpoch e) % 256
    let n := if fresh then 1 else entMoves e + 1
    if fld s pgGZT GZT_MOVE_LIMIT < n then
      let s2 := putEnt s1 l (setEntF (setEntF e 252 1 1) 208 8 age)
      (postTo (note s2 pgGZT GZT_F_FREEZE GZT_C_FREEZES) pgGZT (keyOwner s (entKey e) (entType e)) .freeze [entKey e], 3)
    else
      let e1 := setEntF (setEntF (setEntF e 0 112 body) 224 16 age) 216 8 n
      (putEnt s1 l (if fresh then setEntF e1 208 8 age else e1), 2)

/-- A learn that finds nothing inserts, evicts or is full (R186). -/
def learnNew (s : State) (key ty body : Nat) : State × Nat :=
  let e := learned ty (keyOwner s key ty) (ageNow s) key body
  match freePlace s key with
  | some l => (bump (placeEnt s l e) pgGZT GZT_C_INSERTS 1, 0)
  | none =>
    match pickVictim s key ty with
    | (s1, some l) =>
      (bump (note (showUsed (putEnt s1 l e)) pgGZT GZT_F_EVICT GZT_C_EVICTIONS) pgGZT GZT_C_INSERTS 1, 6)
    | (s1, none) => (note s1 pgGZT GZT_F_LEARN_FULL GZT_C_LEARN_FULL, 5)

/-- Note a request of a slice that does not own what it names (R184 code 7, R189). -/
def rejectLearn (s : State) : State := flag s pgGZT GZT_F_OWN_REJ

/-- A learn, begun by the arbiter: its outcome code (R184). -/
def learn (s0 : State) (slice key ty body : Nat) : State × Nat :=
  let s := bump s0 pgGZT GZT_C_LEARNS 1
  if !active s pgGZT GZT_GZT_EN || !isSet s pgGZT GZT_LEARN_EN then (s, 5)
  else if !mayUse slice (keyOwner s key ty) then (rejectLearn s, 7)
  else match locate s key ty with
    | none => learnNew s key ty body
    | some l =>
      let e := entAt s l
      if entStatic e then (note s pgGZT GZT_F_LEARN_STATIC GZT_C_LEARN_STATIC, 4)
      else if entF e 91 21 = body / 2 ^ 91 then (putEnt s l (setEntF e 224 16 (ageNow s)), 1)
      else stationMove s l body

/-- The key and the type that a request names. -/
def LearnOp.key : LearnOp → Nat × Nat
  | .learn k ty _ => (k.toNat, ty)
  | .refresh k ty => (k.toNat, ty)
  | .delete k ty => (k.toNat, ty)
  | .insert e => (entKey e, entType e)
  | .thaw k ty => (k.toNat, ty)

/-- The bucket that a request locks. -/
def LearnReq.bucket (r : LearnReq) : Nat := bucketH1 r.op.key.1

/-- A host insert puts its entry image in its key's place or a free one; else FULL says why not (R186, R190). OVF_CNT is the bucket's and
OWNER the key's. -/
def hostInsert (s : State) (e : BitVec 256) : State :=
  let n := setEntF (setEntF (setEntF e 248 4 0) 243 5 (keyOwner s (entKey e) (entType e))) 240 3 0
  match locate s (entKey e) (entType e) with
  | some l => setBit (putEnt s l n) pgGZT GZT_FULL false
  | none => match freePlace s (entKey e) with
    | some l => setBit (bump (placeEnt s l n) pgGZT GZT_C_INSERTS 1) pgGZT GZT_FULL false
    | none => setBit s pgGZT GZT_FULL true

/-- A host delete shows in HIT whether it found the key (R190). -/
def hostDelete (s : State) (key ty : Nat) : State :=
  match locate s key ty with
  | some l => setBit (removeEnt s l) pgGZT GZT_HIT true
  | none => setBit s pgGZT GZT_HIT false

/-- A thaw clears FROZEN and the moves (R185). -/
def thawKey (s : State) (key ty : Nat) : State :=
  match locate s key ty with
  | some l => putEnt s l (setEntF (setEntF (entAt s l) 252 1 0) 216 8 0)
  | none => s

/-- What a request does once it is begun, and the result words it leaves: a learn its outcome code in word 0. The ownership of a host
request was checked at its command. -/
def runLearn (s : State) (r : LearnReq) : State × UnitRes :=
  match r.op with
  | .learn k ty d =>
    let x := learn s r.slice k.toNat ty d.toNat
    (x.1, { UnitRes.plain with lr := [(8 * r.bank, x.2)] })
  | .refresh k ty =>
    if !mayUse r.slice (keyOwner s k.toNat ty) then (rejectLearn s, UnitRes.plain)
    else match locate s k.toNat ty with
      | some l => (putEnt s l (setEntF (entAt s l) 224 16 (ageNow s)), UnitRes.plain)
      | none => (s, UnitRes.plain)
  | .delete k ty =>
    if r.ctx.isNone then (hostDelete s k.toNat ty, UnitRes.plain)
    else if !mayUse r.slice (keyOwner s k.toNat ty) then (rejectLearn s, UnitRes.plain)
    else match locate s k.toNat ty with
      | some l => (removeEnt s l, UnitRes.plain)
      | none => (s, UnitRes.plain)
  | .insert e => (hostInsert s e, UnitRes.plain)
  | .thaw k ty => (thawKey s k.toNat ty, UnitRes.plain)

/-- Answer a context's table request, if it still waits for one; a host request's answer is the end of BUSY (R190). -/
def answerTbl (s : State) (c : Option CtxId) (r : UnitRes) : State :=
  match c with
  | some c => if (ctx s c).tbl = .waiting then setCtx s c { ctx s c with tbl := .ready r } else s
  | none => setBit s pgGZT GZT_BUSY false

/-- Begin one request of the queue and complete it. -/
def beginLearn (s : State) (r : LearnReq) : State :=
  let x := runLearn { s with cls := { s.cls with arb := s.cls.arb.erase r } } r
  answerTbl x.1 r.ctx x.2

/-- Does a promotion hold the lock of a bucket (R187)? -/
def promoting (s : State) (b : Nat) : Bool := s.cls.reloc.any (fun x => x.bucket == b)

/-- Is a bucket locked: by a promotion, or by a request that waits for the arbiter (R184, R187)? -/
def bucketBusy (s : State) (b : Nat) : Bool := promoting s b || s.cls.arb.any (fun r => r.bucket == b)

/-- Is a request that of a fenced context? It is not begun, and it keeps its bucket's lock until the reclaim (R158, R189). -/
def fencedReq (s : State) (r : LearnReq) : Bool := r.ctx.any (fun c => (ctx s c).st == 4)

/-- The first request of a queue that may begin (R184): not a fenced context's, its bucket in no promotion, and no request before it on
the same bucket; `held` are the buckets of those passed over. -/
def pickReq (s : State) : List LearnReq → List Nat → Option LearnReq
  | [], _ => none
  | r :: l, held =>
    if fencedReq s r || promoting s r.bucket || held.contains r.bucket then pickReq s l (r.bucket :: held) else some r

/-- The request that the arbiter begins next. -/
def nextReq (s : State) : Option LearnReq := pickReq s s.cls.arb []

/-- The learn arbiter's queue (R184). -/
def arbMax : Nat := 4096

/-- The queue with a request that arrives: behind all before it, but of those of the same cycle behind the lower sources only
(R184; the model tells cycles apart by the fine step, log entry 42). -/
def arrive (r : LearnReq) : List LearnReq → List LearnReq
  | [] => [r]
  | x :: l => if (x :: l).all (fun y => y.at_ == r.at_ && r.src < y.src) then r :: x :: l else x :: arrive r l

/-- Enter a request in the queue. -/
def queueLearn (s : State) (r : LearnReq) : State :=
  { s with cls := { s.cls with arb := arrive r s.cls.arb } }

/-- Enter a context's request (R184): a learn that finds the queue full completes at once with code 8; a refresh or a delete then
completes with nothing done. -/
def enterLearn (s : State) (r : LearnReq) : State × Out :=
  if arbMax ≤ s.cls.arb.length then
    match r.op with
    | .learn _ _ _ => (note s pgGZT GZT_F_LEARN_DROP GZT_C_LEARN_DROP, .ready { UnitRes.plain with lr := [(8 * r.bank, 8)] })
    | _ => (s, .ready UnitRes.plain)
  else (queueLearn s r, .waiting)

/-! ### Aging (R188) -/

/-- Every place that holds an entry. -/
def allPlaces (s : State) : List Loc :=
  (s.cls.prim.filter (fun e => entType e.2 != 0)).map (fun e => (false, e.1)) ++
  (s.cls.ovf.filter (fun e => entType e.2 != 0)).map (fun e => (true, e.1))

/-- The sweeper at one entry (R185, R188): an aged one goes; a frozen one thaws after FREEZE_EPOCHS. The old copy of a promotion is
no entry of its own. -/
def sweepEnt (s : State) (l : Loc) : State :=
  let e := entAt s l
  if entType e = 0 || oldCopy s l then s
  else if isSet s pgGZT GZT_AGE_EN && !entStatic e && fld s pgGZT GZT_AGE_LIMIT ≤ entAgeOf s l then
    bump (removeEnt s l) pgGZT GZT_C_AGED 1
  else if entFrozen e && fld s pgGZT GZT_FREEZE_EPOCHS ≤ (ageNow s + 256 - entEpoch e) % 256 then
    putEnt s l (setEntF (setEntF e 252 1 0) 216 8 0)
  else s

/-- The sweeper at one place: where the entry's bucket is locked, it comes back (R184, R187). -/
def sweepAt (s : State) (l : Loc) : State :=
  if bucketBusy s (bucketH1 (entKey (entAt s l))) then { s with cls := { s.cls with sweepOwed := s.cls.sweepOwed ++ [l] } }
  else sweepEnt s l

/-- The bucket of a place as SWEEP_POS and BULK_POS number it: overflow buckets follow the primary ones (R190). -/
def placeNumber (l : Loc) : Nat := if l.1 then 2 ^ 24 + l.2 / 8 else l.2 / 4

/-- The buckets of both stores (R188). -/
def bucketsAll : Nat := 17039360

/-- The position reached by a pass over both stores: the first bucket it still owes, or the last of all. -/
def posOf (owed : List Loc) : Nat := match owed with
  | [] => bucketsAll - 1
  | l :: _ => placeNumber l

/-- The sweeper at some places, and SWEEP_POS after it. -/
def sweepOver (s : State) (ls : List Loc) : State :=
  let t := ls.foldl sweepAt s
  setFld t pgGZT GZT_SWEEP_POS (posOf t.cls.sweepOwed)

/-- The sweeper at the places it owes. -/
def resweep (s : State) : State :=
  if s.cls.sweepOwed = [] then s
  else sweepOver { s with cls := { s.cls with sweepOwed := [] } } s.cls.sweepOwed

/-- LEARN_ARBITRATION (R184): the arbiter begins the next request. -/
def execLearnArbitration (s : State) : Res :=
  match nextReq s with
  | some r => .next (resweep (beginLearn s r))
  | none => .next (resweep s)

/-- RELOC_GUARD_EXPIRE (R187): RELOC_GUARD after the copy. -/
def execRelocGuardExpire (b : Nat) (s : State) : Res :=
  match s.cls.reloc.find? (fun r => r.bucket == b && r.until_ ≤ (now s).fineIndex) with
  | some r => .next (resweep (endReloc s r))
  | none => .next s

/-- A frame boundary counts toward the next epoch (R188). -/
def ageFrame (s : State) : State := { s with cls := { s.cls with ageFrames := s.cls.ageFrames + 1 } }

/-- AGE_EPOCH (R188): AGE_TICK frames after the last one AGE_NOW advances; before that nothing happens. The sweep of the epoch that ends
has finished or not, which is free, as is the position it has reached then: a late one is noted and carries on; otherwise the next
sweep runs. -/
def execAgeEpoch (s : State) : Res :=
  if s.cls.ageFrames < fld s pgGZT GZT_AGE_TICK then .next s
  else
    let s0 : State := { s with cls := { s.cls with ageFrames := s.cls.ageFrames - fld s pgGZT GZT_AGE_TICK } }
    let s1 := setFld s0 pgGZT GZT_AGE_NOW (ageNow s + 1)
    let late : Bool := s.cls.sweepDue == 1 && (s.cls.sweepOwed != [] || freeVal s % 2 == 1)
    let s2 := if s.cls.sweepDue = 1 then drawFree s1 else s1
    if late then .next (setFld (note s2 pgGZT GZT_F_SWEEP_LATE GZT_C_SWEEP_LATE) pgGZT GZT_SWEEP_POS (freeVal s / 2 % bucketsAll))
    else
      let s3 := if s.cls.sweepDue = 1 then bump s2 pgGZT GZT_C_SWEEPS 1 else s2
      .next (sweepOver { s3 with cls := { s3.cls with sweepDue := 1 } } (allPlaces s3))

/-! ### The host window (R184, R189, R190) -/

/-- Set the status bits that every command of the window sets; HIT and FULL are of the last lookup, delete or insert (R190). -/
def gztStat (s : State) (own rej : Bool) : State := setBit (setBit s pgGZT GZT_OWN_ERR own) pgGZT GZT_REJECT rej

/-- The entry image of the window, and an entry shown there. -/
def gztImage (s : State) : BitVec 256 := BitVec.ofNat 256 (wideValue (wordsAt s (pgGZT + GZT_ENTRY.off) 8))
def showEnt (s : State) (e : BitVec 256) : State := setWords s (pgGZT + GZT_ENTRY.off) (wideWords e.toNat 8)

/-- A command of the window that names a key or a domain of a slice (R189, R190): refused while BUSY; another slice's reads 0 and sets
OWN_ERR. -/
def gztCmd (o : Origin) (owner : State → Nat) (body : State → State × Nat) (s : State) : State :=
  command o (pgGZT + GZT_CMD.off) (pgGZT + GZT_SLOT.off) (fun s =>
    if isSet s pgGZT GZT_BUSY then (s, 4)
    else if mayUse (Origin.slice o) (owner s) then body s
    else (showEnt (gztStat s true false) 0, 2)) s

/-- The owner of the key in the window. -/
def imageOwner (s : State) : Nat := keyOwner s (entKey (gztImage s)) (entType (gztImage s))

/-- Does an entry image name no key: its type empty or reserved, or its key not of the form of R180? -/
def keyBad (e : BitVec 256) : Bool :=
  entType e == 0 || entType e == 3 || entKey e / 2 ^ 72 % 64 != 0 || (entType e == 1 && 65536 ≤ entKey e / 2 ^ 78)

/-- Is an entry image malformed (R180, R181, R190)? -/
def imageBad (e : BitVec 256) : Bool := keyBad e || 4 < (entDest e).1

/-- A command on the key of the window (R190): a malformed image is rejected with code 1. -/
def keyedCmd (o : Origin) (body : State → Nat → Nat → State) (s : State) : State :=
  gztCmd o imageOwner (fun s =>
    let e := gztImage s
    if keyBad e then (gztStat s false true, 1) else (body (gztStat s false false) (entKey e) (entType e), 0)) s

/-- A host request passes through the arbiter (R184): where its bucket is locked it waits in the queue with BUSY, otherwise it runs at
once. -/
def hostAsk (s : State) (o : Origin) (op : LearnOp) : State :=
  let r : LearnReq := ⟨op, 32767, Origin.slice o, none, 0, (now s).fineIndex⟩
  if bucketBusy s r.bucket then queueLearn (setBit s pgGZT GZT_BUSY true) r else (runLearn s r).1

/-- GZT_LOOKUP_CMD (R183, R190): CMD 1. -/
def execGztLookupCmd (o : Origin) (s : State) : Res :=
  .next (keyedCmd o (fun s key ty =>
    let r := gztLookup s key ty
    match r.2 with
    | some l => setBit (showEnt r.1 (shownEnt s l)) pgGZT GZT_HIT true
    | none => setBit r.1 pgGZT GZT_HIT false) s)

/-- The most entries that a host insert may reach (R186). -/
def hostEntries : Nat := 33554432

/-- GZT_INSERT (R186, R190): CMD 2; it never evicts. -/
def execGztInsert (o : Origin) (s : State) : Res :=
  .next (gztCmd o imageOwner (fun s =>
    let e := gztImage s
    if imageBad e || hostEntries ≤ fld s pgGZT GZT_ENTRIES_USED then (gztStat s false true, 1)
    else (hostAsk (gztStat s false false) o (.insert e), 0)) s)

/-- GZT_DELETE_CMD (R190): CMD 3. -/
def execGztDeleteCmd (o : Origin) (s : State) : Res :=
  .next (keyedCmd o (fun s key ty => hostAsk s o (.delete (BitVec.ofNat 96 key) ty)) s)

/-- The place that the window names, if there is one. -/
def windowPlace (s : State) : Option Loc :=
  let b := fld s pgGZT GZT_BUCKET
  let j := fld s pgGZT GZT_SLOT
  if isSet s pgGZT GZT_OVF then (if b < 2 ^ 18 then some (true, 8 * b + j) else none)
  else if j < 4 then some (false, 4 * b + j) else none

/-- The owner of what stands in the window's place; an empty slot is anyone's to read. -/
def placeOwner (o : Origin) (s : State) : Nat :=
  match windowPlace s with
  | some l =>
    let e := entAt s l
    if entType e = 0 then Origin.slice o else keyOwner s (entKey e) (entType e)
  | none => Origin.slice o

/-- GZT_READ_SLOT (R190): CMD 4. -/
def execGztReadSlot (o : Origin) (s : State) : Res :=
  .next (gztCmd o (placeOwner o) (fun s =>
    match windowPlace s with
    | some l => (showEnt (gztStat s false false) (shownEnt s l), 0)
    | none => (gztStat s false true, 1)) s)

/-- Begin a flush in the background (R190); one at a time. -/
def beginBulk (s : State) (b : Bulk) : State × Nat :=
  match s.cls.bulk with
  | some _ => (gztStat s false true, 4)
  | none =>
    let s1 := setFld (gztStat s false false) pgGZT GZT_BULK_POS 0
    ({ s1 with cls := { s1.cls with bulk := some b } }, 0)

/-- GZT_FLUSH_DOMAIN (R190): CMD 5. -/
def execGztFlushDomain (o : Origin) (s : State) : Res :=
  .next (gztCmd o (fun s => tget dzero s.cls.domain (fld s pgGZT GZT_ARG % 65536))
    (fun s => beginBulk s ⟨false, fld s pgGZT GZT_ARG % 65536, Origin.slice o⟩) s)

/-- GZT_FLUSH_DEST (R190): CMD 6; a slice other than 0 flushes its own entries. -/
def execGztFlushDest (o : Origin) (s : State) : Res :=
  .next (gztCmd o (fun _ => Origin.slice o) (fun s => beginBulk s ⟨true, fld s pgGZT GZT_ARG, Origin.slice o⟩) s)

/-- Does a flush take an entry: a dynamic one of the domain or with the destination (R190)? -/
def Bulk.takes (b : Bulk) (s : State) (e : BitVec 256) : Bool :=
  entType e != 0 && !entStatic e && mayUse b.slice (keyOwner s (entKey e) (entType e)) &&
  (if b.byDest then (entDest e).1 * 2 ^ 18 + (entDest e).2 == b.arg else entType e == 1 && entKey e / 2 ^ 78 == b.arg)

/-- The flush at one place: an entry that it takes goes, unless its bucket is locked. -/
def flushAt (b : Bulk) (s : State) (l : Loc) : State :=
  if b.takes s (entAt s l) && !oldCopy s l && !bucketBusy s (bucketH1 (entKey (entAt s l))) then removeEnt s l else s

/-- What a flush still owes: entries that it takes and whose bucket was locked when it passed, or that a promotion brought behind it. -/
def bulkOwed (s : State) (b : Bulk) : List Loc := (allPlaces s).filter (fun l => b.takes s (entAt s l) && !oldCopy s l)

/-- GZT_BULK_DONE (R190): the flush passes every bucket. While it still owes entries it goes on, with BULK_POS at the first of them;
otherwise BULK_DONE is set. -/
def execGztBulkDone (s : State) : Res :=
  match s.cls.bulk with
  | none => .next s
  | some b =>
    let s1 := (allPlaces s).foldl (flushAt b) s
    let owed := bulkOwed s1 b
    let s2 := setFld s1 pgGZT GZT_BULK_POS (posOf owed)
    .next (if owed = [] then flag { s2 with cls := { s2.cls with bulk := none } } pgGZT GZT_F_BULK_DONE else s2)

/-- GZT_THAW (R185, R190): CMD 7. -/
def execGztThaw (o : Origin) (s : State) : Res :=
  .next (keyedCmd o (fun s key ty => hostAsk s o (.thaw (BitVec.ofNat 96 key) ty)) s)

/-- GZT_SET_DOMAIN_OWNER (R189, R190): CMD 8, slice 0 only; ARG holds the owner in [4:0] and the domain above it. The entries of the
domain go with it. -/
def execGztSetDomainOwner (o : Origin) (s : State) : Res :=
  .next (gztCmd o (fun _ => 0) (fun s =>
    let d := fld s pgGZT GZT_ARG / 32 % 65536
    let v := fld s pgGZT GZT_ARG % 32
    let s1 := gztStat { s with cls := { s.cls with domain := tset dzero s.cls.domain d v } } false false
    ((allPlaces s1).foldl (fun t l =>
      let e := entAt t l
      if entType e = 1 ∧ entKey e / 2 ^ 78 = d then putEnt t l (setEntF e 243 5 v) else t) s1, 0)) s)

end Sys2Proof.Machine
end

