-- ==== Sys2Proof/Machine/HostRings.lean ====
section
/-! DEFINITION. The host rings (R240 to R245, R260 HST): doorbells, descriptors both ways, completions, the ring window, function
level reset and the PCIe link. -/

namespace Sys2Proof.Machine

/-! ### Rings (R242) -/

def ring (s : State) (r : Nat) : Ring := tget Ring.init s.link.ring r
def setRing (s : State) (r : Nat) (x : Ring) : State :=
  { s with link := { s.link with ring := tset Ring.init s.link.ring r x } }

/-- Ring states (R260 STATE). -/
def ringStopped : Nat := 0
def ringRunning : Nat := 1
def ringError : Nat := 2

/-- The descriptors of a ring. -/
def Ring.size (x : Ring) : Nat := 2 ^ x.sizeLog2

/-- The descriptors posted and not taken. -/
def Ring.posted (x : Ring) : Nat := (x.tail + x.size - x.head) % x.size

/-- Raise counter i of a ring: FRAMES, BYTES, DROPS, LEN_ERR. -/
def ringBump (s : State) (r i n : Nat) : State :=
  let x := ring s r
  setRing s r { x with cnts := x.cnts.set i (min cntMax (x.cnts.getD i 0 + n)) }

/-- What the device writes toward the host for ring r, under the function of the ring's owner (R241). -/
def hostWrite (s : State) (r : Nat) (x : HostRec) : State :=
  { s with bus := { s.bus with hostOut := s.bus.hostOut ++ [(ringOwner s r, x)] } }

/-- Write HEAD back and raise the ring's vector, 16 + r (R241, R242). -/
def flushCompletions (s : State) (r : Nat) : State :=
  let x := ring s r
  if x.pend = 0 then s
  else hostWrite (hostWrite (setRing s r { x with pend := 0 }) r (.head x.head)) r (.msix (ringOwner s r) (16 + r))

/-- A descriptor completes (R242, R245): HEAD advances, and after COAL_CNT completions the batch is announced. -/
def complete (s : State) (r : Nat) (rec_ : HostRec) : State :=
  let x := ring s r
  let s1 := hostWrite (setRing s r { x with head := (x.head + 1) % x.size, pend := x.pend + 1,
                                            since := if x.pend = 0 then (now s).fineIndex else x.since }) r rec_
  if x.coalCnt ≤ x.pend + 1 then flushCompletions s1 r else s1

/-- RING_COALESCE_TIMER (R242): COAL_US have passed. -/
def execRingCoalesceTimer (r : Fin 1024) (s : State) : Res := .next (flushCompletions s r)

/-- A time of day as a descriptor's timestamp: seconds, nanoseconds and 2^-16 ns (R243). -/
def ToD.stamp (t : ToD) : Nat := t.sec * 2 ^ 48 + t.ns * 2 ^ 16 + t.frac

/-- The seconds [47:32] of the last timestamp written (R243 TS_SEC_HI). -/
def noteTsHigh (s : State) (t : Option Nat) : State :=
  match t with
  | some n => setFld s pgHST HST_TS_SEC_HI (n / 2 ^ 80)
  | none => s

/-! ### Toward the host (R244) -/

/-- The buffer of a frame toward the host passes from one party to another (R203). -/
def passHost (s : State) (f : HostFrame) (party heir : Nat) : State :=
  match f.handle with
  | some h => passBuf s h party heir
  | none => s

/-- A party frees the buffer of a frame toward the host (R203). -/
def freeHost (s : State) (f : HostFrame) (party : Nat) : State :=
  match f.handle with
  | some h => settlePools s (freeBuf s h party true)
  | none => s

/-- A frame that `party` releases toward a ring: it needs a running ring and a posted descriptor that no earlier frame will take, and its
buffer passes to the ring; otherwise it is discarded and counted. -/
def toRing (s : State) (r : Nat) (f : HostFrame) (party : Nat) : State :=
  let x := ring s r
  if x.state = ringRunning ∧ x.dir = 1 ∧ x.frames.length < x.posted then
    setRing (passHost s f party (tagRing r)) r { x with frames := x.frames ++ [f] }
  else ringBump (note (freeHost s f party) pgHST HST_F_RING_FULL HST_C_RING_FULL) r 2 1

/-- The device-to-host rings that a slice owns. -/
def slicesRings (s : State) (v : Nat) : List Nat :=
  (s.link.ring.filter (fun e => e.2.dir == 1 && ringOwner s e.1 == v)).map (·.1)

/-- A frame punted for a slice (R173, R244): to the host ring of the slice; where it has several, the free value picks. -/
def puntFrame (s : State) (v : Nat) (f : HostFrame) (party : Nat) : State :=
  let l := slicesRings s v
  match l with
  | [] => note (freeHost s f party) pgHST HST_F_RING_FULL HST_C_RING_FULL
  | [r] => toRing s r f party
  | _ => toRing (drawFree s) (l.getD (freeVal s % l.length) 0) f party

/-- The receive timestamp of a frame of uplink port q that arrived at position p (R47, R305): the time at the ball, earlier than the
position by the calibrated ingress delay, in 2^-8 ns. -/
def rxStamp (s : State) (q : Nat) (p : Pos) : Nat :=
  let delay := (tget (fun _ => (0, 0)) s.boot.work (1024 * 4 + q)).2
  (todOf (ToD.total (todAt s.grid.base p) - (delay * 256 : Nat))).stamp

/-- The time at the ball of a message whose timestamp point passed the insertion point of uplink port q at position p (R47, R48): the time
of the position and the calibrated egress delay, in 2^-8 ns. -/
def egressTime (s : State) (q : Nat) (p : Pos) : ToD :=
  let delay := (tget (fun _ => (0, 0)) s.boot.work (1024 * 4 + q)).1
  todOf (ToD.total (todAt s.grid.base p) + (delay * 256 : Nat))

/-- D2H_DELIVERY (R203, R244): the oldest frame on its way to a ring is written into the next posted buffer, of `bufLen` bytes; the ring
frees the frame's buffer. -/
def execD2hDelivery (r : Fin 1024) (len bufLen : Nat) (s : State) : Res :=
  let x := ring s r
  match x.frames with
  | [] => .next s
  | f :: l =>
    if x.state ≠ ringRunning ∨ f.len ≠ len then .next s
    else
      let s1 := freeHost (setRing s r { x with frames := l }) f (tagRing r)
      if bufLen < len then .next (ringBump (bump s1 pgHST HST_C_RX_TOO_BIG 1) r 2 1)
      else
        let ts := f.at_.map (rxStamp s (f.src - 16384))
        let s2 := ringBump (ringBump (bump (bump s1 pgHST HST_C_D2H_FRAMES 1) pgHST HST_C_D2H_BYTES len) r 0 1) r 1 len
        .next (complete (noteTsHigh s2 ts) r (.d2hDone r x.head len ts f.reason))

/-! ### From the host (R242, R243) -/

/-- DOORBELL (R242): the new TAIL of a running ring that the writing function owns. -/
def execDoorbell (o : Origin) (data : Word) (s : State) : Res :=
  .next (ownWrite o (pgHST + HST_DB_RING.off) (fun s =>
    let r := bitsOf data 0 10
    let x := ring s r
    let rej := note s pgHST HST_F_DB_REJ HST_C_DB_REJ
    if ringOwner s r ≠ Origin.slice o then (rej, 2)
    else if x.state ≠ ringRunning then (rej, 8)
    else (setRing s r { x with tail := bitsOf data 10 16 % x.size }, 0)) s)

/-- A ring stops on a DMA error (R245): STATE 2, its cause from 1, DMA_ERR. -/
def dmaError (s : State) (r cause : Nat) : State :=
  let x := ring s r
  note (setRing s r { x with state := ringError, err := cause + 1 }) pgHST HST_F_DMA_ERR HST_C_DMA_ERR

/-- Status values of an H2D completion (R243). -/
def h2dSent : Nat := 0
def h2dLenErr : Nat := 1
def h2dOwnErr : Nat := 2
def h2dDmaErr : Nat := 3

/-- A frame that a descriptor sends: to landing, or with DIRECT set straight into an uplink-bound queue (R243). -/
def sendH2d (s : State) (r : Nat) (d : H2dDesc) : State :=
  let s1 := ringBump (ringBump (bump (bump s pgHST HST_C_H2D_FRAMES 1) pgHST HST_C_H2D_BYTES d.pktLen) r 0 1) r 1 d.pktLen
  if d.direct then
    (enqueue s1 (upKey d.queue)
      { Packet.none with src := 16416 + r, dir := .host, slice := ringOwner s r, len := d.pktLen, bytes := d.bytes }
      false (tagRing r) none).1
  else { s1 with link := { s1.link with h2d := s1.link.h2d ++ [⟨r, d.pktLen, d.bytes, d.meta_⟩] } }

/-- H2D_DESCRIPTOR (R47, R243): the descriptor at HEAD is fetched, its frame sent, and the completion written. A transmit timestamp that was
asked for is the time at the ball of the frame's departure; where the command names no departure its value is free (log entry 3). -/
def execH2dDescriptor (r : Fin 1024) (d : H2dDesc) (s : State) : Res :=
  let x := ring s r
  if x.state ≠ ringRunning ∨ x.dir ≠ 0 ∨ x.posted = 0 then .next s
  else
    let done := fun (t : State) (ts : Option Nat) (st : Nat) => complete t r (.h2dDone r x.head ts st)
    match d.dmaErr with
    | some c => .next (dmaError (hostWrite s r (.h2dDone r x.head none h2dDmaErr)) r c)
    | none =>
      if d.bufLen < d.pktLen ∨ d.pktLen < 14 ∨ 10240 < d.pktLen then
        .next (done (ringBump (note s pgHST HST_F_LEN_ERR HST_C_LEN_ERR) r 3 1) none h2dLenErr)
      else if d.direct && (8192 ≤ d.queue || queueOwner s d.queue != ringOwner s r) then .next (done s none h2dOwnErr)
      else
        let s1 := settlePools s (sendH2d s r d)
        if d.tsReq then
          let ts := match d.left with
            | some (q, p) => (egressTime s1 q p).stamp
            | none => freeVal s1
          .next (done (noteTsHigh (drawFree s1) (some ts)) (some ts) h2dSent)
        else .next (done s1 none h2dSent)

/-- DMA_ERROR (R245): a DMA of a running ring ends in an error. -/
def execDmaError (r : Fin 1024) (cause : Fin 4) (s : State) : Res :=
  if (ring s r).state = ringRunning then .next (dmaError s r cause) else .next s

/-! ### The ring window (R242, R260) -/

/-- Set the status bits of the ring window. -/
def hstStat (s : State) (own rej : Bool) : State := setFld s pgHST HST_STAT (2 * own.toNat + 4 * rej.toNat)

/-- Show a ring in the window. -/
def showRing (s : State) (x : Ring) : State :=
  let b := pgHST
  let two := fun n => [BitVec.ofNat 32 n, BitVec.ofNat 32 (n >>> 32)]
  let s1 := setFld (setFld (setFld s b HST_DIR x.dir) b HST_SIZE_LOG2 x.sizeLog2) b HST_STATE x.state
  let s2 := setFld (setFld s1 b HST_COAL_CNT x.coalCnt) b HST_COAL_US x.coalUs
  let s3 := setWords (setWords s2 (b + 0x090) (two x.base)) (b + 0x098) (two x.headWb)
  let s4 := setFld (setFld (setFld s3 b HST_HEAD x.head) b HST_TAIL x.tail) b HST_ERR_CAUSE x.err
  setWords s4 (b + HST_RING_CNT.off) (cntWords 4 x.cnts)

/-- The words of a ring of another slice. -/
def hideRing (s : State) : State := setWords (setWords s (pgHST + 0x08C) (List.replicate 7 0)) (pgHST + HST_RING_CNT.off) (List.replicate 8 0)

/-- A command of the ring window: the ring must be the slice's. -/
def ringCmd (o : Origin) (body : State → Nat → State × Nat) (s : State) : State :=
  command o (pgHST + HST_RING_CMD.off) (pgHST + HST_RING_IDX.off) (fun s =>
    let r := fld s pgHST HST_RING_IDX
    if mayUse (Origin.slice o) (ringOwner s r) then body (hstStat s false false) r
    else (hideRing (hstStat s true false), 2)) s

/-- RING_READ (R242): RING_CMD 1. -/
def execRingRead (o : Origin) (s : State) : Res := .next (ringCmd o (fun s r => (showRing s (ring s r), 0)) s)

/-- RING_WRITE (R242): RING_CMD 2; rejected while the ring runs. -/
def execRingWrite (o : Origin) (s : State) : Res :=
  .next (ringCmd o (fun s r =>
    let b := pgHST
    let x := ring s r
    let size := fld s b HST_SIZE_LOG2
    if x.state = ringRunning then (hstStat s false true, 8)
    else if size < 6 ∨ 16 < size ∨ fld s b HST_COAL_CNT = 0 then (hstStat s false true, 1)
    else
      (setRing s r { x with dir := fld s b HST_DIR, sizeLog2 := size, coalCnt := fld s b HST_COAL_CNT, coalUs := fld s b HST_COAL_US,
                            base := fld s b HST_BASE * 4096 + (reg s (b + 0x094)).toNat * 2 ^ 32,
                            headWb := fld s b HST_HEAD_WB * 8 + (reg s (b + 0x09C)).toNat * 2 ^ 32,
                            head := x.head % 2 ^ size, tail := x.tail % 2 ^ size }, 0)) s)

/-- RING_START (R245): RING_CMD 3 starts a ring, or restarts it from HEAD. -/
def execRingStart (o : Origin) (s : State) : Res :=
  .next (ringCmd o (fun s r => (setRing s r { ring s r with state := ringRunning, err := 0 }, 0)) s)

/-- RING_STOP (R242): RING_CMD 4. -/
def execRingStop (o : Origin) (s : State) : Res :=
  .next (ringCmd o (fun s r => (setRing s r { ring s r with state := ringStopped }, 0)) s)

/-! ### Functions and the link -/

/-- FUNCTION_LEVEL_RESET (R241): every host ring of the function stops, and FLR is counted. -/
def execFunctionLevelReset (f : Fin 32) (s : State) : Res :=
  let s1 := s.link.ring.foldl (fun t e =>
    if ringOwner s e.1 = f then setRing t e.1 { ring t e.1 with state := ringStopped } else t) s
  .next (note s1 pgHST HST_F_FLR HST_C_FLR)

/-- Show the PCIe link: speed and width are what training found, within the table's values (R240); which is free. -/
def showPcie (s : State) (up : Bool) : State :=
  let b := pgHST
  if up then
    setBit (setFld (setFld (drawFree s) b HST_LINK_SPEED (3 + freeVal s % 3)) b HST_LINK_WIDTH (2 ^ (freeVal s / 3 % 4))) b HST_LINK_UP
      true
  else setBit s b HST_LINK_UP false

/-- PERST_DEASSERT (R302): PERST_N rises and the link trains. -/
def execPerstDeassert (s : State) : Res :=
  .next (showPcie (showUses { s with boot := { s.boot with perst := true } } 228 8) true)

/-- PCIE_LINK_DOWN (R240): after release the data link drops, which sets LINK_DOWN, or returns. -/
def execPcieLinkDown (up : Bool) (s : State) : Res :=
  if !released s then .next s
  else .next (if up then showPcie s true else flag (showPcie s false) pgHST HST_F_LINK_DOWN)

end Sys2Proof.Machine
end

