-- ==== Sys2Proof/Machine/Ethernet.lean ====
section
/-! DEFINITION. The uplink ports (R17, R47 to R49, R193, R223 to R225, R236 to R239): receive checks and the MACsec quarantine, flow
control, egress with one-step insertion and MACsec, and the link. -/

namespace Sys2Proof.Machine

/-! ### Modes (R236, R237) -/

/-- Is a port on (R236 MODE)? -/
def portOn (s : State) (q : Nat) : Bool := portMode s q != 0

/-- The SDS lanes of port q (R232, R236). -/
def portLanes (s : State) (q : Nat) : List Nat := (List.range (modeLanes (portMode s q))).map (fun i => 192 + q + i)

/-! ### Flow control (R239) -/

/-- The bytes of a port in its receive FIFO and quarantine: of the frames that wait to land. -/
def rxFill (s : State) (q : Nat) : Nat := ((s.link.rx.filter (fun f => f.port == q)).map (·.len)).sum

/-- Bits of ETH STATUS. -/
def setEthStatus (s : State) (q bit : Nat) (b : Bool) : State := setFld s (pgETH q) ⟨ETH_STATUS.off, bit, 1, 0⟩ b.toNat
def ethStatus (s : State) (q bit : Nat) : Bool := bitAt (fld s (pgETH q) ETH_STATUS) bit

/-- The STATUS bits. -/
def esLink : Nat := 0
def esBlock : Nat := 1
def esAm : Nat := 2
def esBer : Nat := 3
def esAn : Nat := 4
def esXoff : Nat := 5

/-- Does a port send flow control? -/
def flowOn (s : State) (q : Nat) : Bool := fld s (pgETH q) ETH_FC_MODE == 1 || fld s (pgETH q) ETH_FC_MODE == 2

/-- XOFF is sent. -/
def sendXoff (s : State) (q : Nat) : State :=
  bump (setEthStatus (setEth s q { eth s q with xoff := some (now s).fineIndex }) q esXoff true) (pgETH q) ETH_C_TX_XOFF 1

/-- After a change of the fill: XOFF once it reaches FC_HI KiB, XON when it falls below FC_LO KiB. -/
def checkFlow (s : State) (q : Nat) : State :=
  let b := pgETH q
  let held := (eth s q).xoff.isSome
  if !held && flowOn s q && fld s b ETH_FC_HI * 1024 ≤ rxFill s q then sendXoff s q
  else if held && rxFill s q < fld s b ETH_FC_LO * 1024 then setEthStatus (setEth s q { eth s q with xoff := none }) q esXoff false
  else s

/-- XOFF_REFRESH (R239): half a pause quantum has passed since the last XOFF, and the fill stays at or above FC_LO. -/
def execXoffRefresh (q : Fin 24) (s : State) : Res :=
  if (eth s q).xoff.isSome && flowOn s q && fld s (pgETH q) ETH_FC_LO * 1024 ≤ rxFill s q then .next (sendXoff s q) else .next s

/-! ### Receive (R17, R223, R224, R238) -/

/-- A frame that arrived at a position waits to land. -/
def queueRx (s : State) (q : Nat) (h : Option Nat) (f : UplinkIn) (at_ : Pos) : State :=
  let ts := f.ptpEvent && isSet s pgTOD (TOD_RX_TS_EN.at q)
  checkFlow { s with link := { s.link with rx := s.link.rx ++ [⟨q, h, f.len, f.bytes, at_, ts⟩] } } q

/-- VALIDATE: Disabled and Strict; 1 is Check. -/
def vDisabled : Nat := 0
def vStrict : Nat := 2

/-- The receive SA of a SecTAG: a valid one of that AN in the channel of that SCI. -/
def rxSa (s : State) (q : Nat) (m : MacsecIn) : Option Nat :=
  ((List.range 16).map (fun sc => 4 + 4 * sc + m.an.val)).find? (fun i =>
    let a := saAt s q i
    a.valid && a.sci.toNat == m.sci)

/-- MACsec verification through the quarantine (R223, R224): replay first, then the tag; only a frame whose tag passed goes on. None
while no quarantine buffer is to be had. -/
def quarantine (s : State) (q : Nat) (f : UplinkIn) (m : MacsecIn) (at_ : Pos) : Option State :=
  let b := pgMSC q
  match rxSa s q m with
  | none => some (note s b MSC_F_NO_SA MSC_C_RX_NO_SA)
  | some i =>
    let a := saAt s q i
    if isSet s b MSC_REPLAY_EN && m.pn + fld s b MSC_REPLAY_WIN < a.pn then some (note s b MSC_F_REPLAY MSC_C_RX_REPLAY)
    else (askBytes s 0 tagQuarantine 0 f.len).map (fun x =>
      if m.tagOk then
        let s1 := setSa x.2 q i { a with pn := max a.pn (min (2 ^ 64 - 1) (m.pn + 1)) }
        queueRx (bump s1 b MSC_C_RX_OK 1) q (some x.1) f at_
      else note (freeBuf x.2 x.1 tagQuarantine true) b MSC_F_TAG_FAIL MSC_C_RX_TAG_FAIL)

/-- A MACsec frame: without a quarantine buffer it waits for one where it may, otherwise it is dropped at the receiving FIFO (R17,
R201). -/
def verify (s : State) (q : Nat) (f : UplinkIn) (m : MacsecIn) : State :=
  match quarantine s q f m (now s) with
  | some t => t
  | none =>
    let w := waitOrRefuse s ⟨0, f.len, .quarantine q f (now s)⟩
    if w.2 then w.1 else bump (note w.1 (pgETH q) ETH_F_FIFO_DROP ETH_C_RX_FIFO_DROP) (pgMSC q) MSC_C_RX_QUAR_DROP 1

/-- UPLINK_RECEIVE_FRAME (R238, R224): the checks in order; a frame that passes goes on to landing, through the quarantine where
MACsec verifies. -/
def execUplinkReceiveFrame (q : Fin 24) (f : UplinkIn) (s : State) : Res :=
  let b := pgETH q
  if !portOn s q then .next s
  else if !f.fcsOk then .next (bump s b ETH_C_RX_FCS_ERR 1)
  else if f.len < 64 then .next (bump s b ETH_C_RX_RUNT 1)
  else if fld s b ETH_MAX_FRAME < f.len then .next (note s b ETH_F_OVERSIZE ETH_C_RX_OVERSIZE)
  else if f.pause then .next (note s b ETH_F_PAUSE_RX ETH_C_RX_PAUSE_IGNORED)
  else
    let s1 := bump (bump s b ETH_C_RX_FRAMES 1) b ETH_C_RX_BYTES f.len
    let x := pgMSC q
    if !active s x MSC_RX_EN || fld s x MSC_VALIDATE == vDisabled then .next (queueRx s1 q none f (now s))
    else match f.macsec with
      | some m => .next (settlePools s (verify s1 q f m))
      | none =>
        let s2 := bump s1 x MSC_C_RX_UNTAGGED 1
        .next (if fld s x MSC_VALIDATE = vStrict then s2 else queueRx s2 q none f (now s))

/-! ### Egress (R48, R49, R193, R225) -/

/-- Does one-step insertion apply to a frame of this kind on port q? -/
def insertsOn (s : State) (q : Nat) (k : PtpKind) : Bool :=
  let e := fld s pgTOD (TOD_ENCAP.at q)
  isSet s pgTOD (TOD_ONE_STEP_EN.at q) &&
  match k with
  | .none => false
  | .ethernet => e == 0 || e == 3
  | .udp4 => e == 1 || e == 3
  | .udp6 => e == 2 || e == 3

/-- The insertion of a frame that leaves now, posted as a timed action (R19): its start-of-frame delimiter passes the insertion point as
far ahead as posting needs (DESIGN CHOICE, log entry 43). -/
def insertAction (s : State) (q : Nat) : Action := ⟨.tod q, pgTOD, posOfFine ((now s).fineIndex + 16 * finePerGt)⟩

/-- The time inserted (R48): the ToD of the position of the insertion and the port's egress delay. -/
def insertTime (s : State) (q : Nat) : ToD := egressTime s q (insertAction s q).pos

/-! What insertion writes (R48, R49; the places of the fields are those of IEEE 1588, UDP and IP, log entry 43). -/

/-- Where the payload of a frame begins, behind its EtherType and up to two VLAN tags. -/
def l3At (l : List Byte) : Nat :=
  let tag := fun (o : Nat) => beAt l o 2 == 0x8100 || beAt l o 2 == 0x88A8
  if tag 12 then (if tag 16 then 22 else 18) else 14

/-- Where the UDP header of a frame begins. -/
def udpAt (k : PtpKind) (l : List Byte) : Nat :=
  match k with
  | .udp4 => l3At l + byteAt l (l3At l) % 16 * 4
  | _ => l3At l + 40

/-- Where the PTP message of a frame begins. -/
def ptpAt (k : PtpKind) (l : List Byte) : Nat :=
  match k with
  | .udp4 | .udp6 => udpAt k l + 8
  | _ => l3At l

/-- The bytes of a UDP payload. -/
def udpPayload (k : PtpKind) (l : List Byte) : Nat := beAt l (udpAt k l + 4) 2 - 8

/-- Is the UDP payload too short for a trailer behind the PTP message (R49)? -/
def noTrailer (l : List Byte) : Bool := udpPayload .udp6 l < beAt l (ptpAt .udp6 l + 2) 2 + 2

/-- Write the seconds and nanoseconds into originTimestamp and add the fraction to correctionField (R48), in the message at o. -/
def stampMessage (l : List Byte) (o : Nat) (t : ToD) : List Byte :=
  let l1 := patchBytes l (o + 8) (valueBytes ((beAt l (o + 8) 8 + t.frac) % 2 ^ 64) 8)
  patchBytes (patchBytes l1 (o + 34) (valueBytes t.sec 6)) (o + 40) (valueBytes t.ns 4)

/-- The sum of 16-bit numbers in ones' complement. -/
def onesAdd (a b : Nat) : Nat := (a + b) % 65536 + (a + b) / 65536

/-- The 16-bit words of a message that insertion writes: of correctionField and originTimestamp. -/
def stampWords (l : List Byte) (o : Nat) : List Nat := [8, 10, 12, 14, 34, 36, 38, 40, 42].map (fun i => beAt l (o + i) 2)

/-- By how much insertion changes the ones' complement sum of a message: the new words, less the old ones. -/
def stampDelta (old new : List Byte) (o : Nat) : Nat :=
  ((stampWords new o) ++ (stampWords old o).map (65535 - ·)).foldl onesAdd 0

/-- A frame with an IPv4 UDP checksum after insertion (R49): zero, or corrected incrementally; a zero one stands for none and stays. -/
def fixV4 (keep : Bool) (old new : List Byte) : List Byte :=
  let o := udpAt .udp4 old + 6
  let c := beAt old o 2
  let c1 := 65535 - onesAdd (65535 - c) (stampDelta old new (ptpAt .udp4 old))
  if !keep || c = 0 then patchBytes new o (valueBytes 0 2)
  else patchBytes new o (valueBytes (if c1 = 0 then 65535 else c1) 2)

/-- A frame over IPv6 after insertion (R49): the last two bytes of the UDP payload take up the change. Where they stand across two words of
the sum their bytes count exchanged. -/
def fixV6 (old new : List Byte) : List Byte :=
  let n := udpPayload .udp6 old
  let o := ptpAt .udp6 old + n - 2
  let d := 65535 - stampDelta old new (ptpAt .udp6 old)
  patchBytes new o (valueBytes (onesAdd (beAt old o 2) (if n % 2 = 0 then d else d % 256 * 256 + d / 256)) 2)

/-- The bytes of a frame after the insertion of a time (R48, R49). -/
def stamped (s : State) (q : Nat) (k : PtpKind) (t : ToD) (l : List Byte) : List Byte :=
  let new := stampMessage l (ptpAt k l) t
  match k with
  | .udp4 => fixV4 (isSet s pgTOD (TOD_V4_CSUM.at q)) l new
  | .udp6 => fixV6 l new
  | _ => new

/-- One-step insertion (R19, R48, R49): the time inserted, if any, and the frame's bytes after it. -/
def oneStep (s : State) (q : Nat) (k : PtpKind) (l : List Byte) : State × Option ToD × List Byte :=
  if !insertsOn s q k then (s, none, l)
  else if k == .udp6 && noTrailer l then (post (flag s pgTOD TOD_F_NO_TRAILER) pgTOD .noTrailer [q], none, l)
  else (postAction s (insertAction s q), some (insertTime s q), stamped s q k (insertTime s q) l)

/-- The last PN of an SA, and the PN at which it warns (R225). -/
def pnLast : Nat := 2 ^ 64 - 1
def pnWarnAt : Nat := 2 ^ 64 - 2 ^ 48

/-- May port q send: without MACsec, or with a valid SA in force that is not spent (R225)? -/
def egressOpen (s : State) (q : Nat) : Bool :=
  !active s (pgMSC q) MSC_TX_EN ||
  let a := saAt s q (eth s q).an
  a.valid && !a.spent

/-- A frame takes the next PN of the SA in force (R225). -/
def protect (s : State) (q : Nat) : State × Option (Nat × Nat) :=
  let b := pgMSC q
  if !active s b MSC_TX_EN then (s, none)
  else
    let an := (eth s q).an
    let a := saAt s q an
    let s1 := bump (setSa s q an { a with pn := min pnLast (a.pn + 1), warned := a.warned || pnWarnAt ≤ a.pn, spent := a.pn == pnLast }) b
      MSC_C_TX_PROTECTED 1
    let s2 := if pnWarnAt ≤ a.pn && !a.warned then raise s1 b MSC_F_PN_WARN [an] else s1
    (if a.pn = pnLast then flag s2 b MSC_F_PN_EXHAUST else s2, some (an, a.pn))

/-- A frame of queue k leaves port q, or is discarded where it is longer than MAX_FRAME (R238); its buffer is freed. -/
def sendFrame (s : State) (q k : Nat) (f : QFrame) (ptp : PtpKind) : State :=
  let b := pgETH q
  let s1 := emptyOver (freeBuf (popHead (serveUpTags s q k f.len) k) f.handle (queueParty k) true) k
  if fld s b ETH_MAX_FRAME < f.len then trace (bump s1 b ETH_C_TX_OVERSIZE 1) b 8 1 f.mark (k % 65536) f.len 0
  else
    let (s2, tod, bytes) := oneStep s1 q ptp f.bytes
    let (s3, sa) := protect s2 q
    let x : TxFrame := ⟨f.len, bytes, sa, ptp, tod⟩
    let s4 := setEth s3 q { eth s3 q with sent := some x }
    trace (bump (bump s4 b ETH_C_TX_FRAMES 1) b ETH_C_TX_BYTES f.len) b 8 0 f.mark (k % 65536) f.len 0

/-- UPLINK_EGRESS_PULL (R17, R193, R225): the frame that the port node chooses leaves the port. A port node without an SA to protect
with is held, and nothing is sent in clear. -/
def execUplinkEgressPull (q : Fin 24) (ptp : PtpKind) (s : State) : Res :=
  if !portOn s q then .next s
  else match portChoice s q with
    | none => .next s
    | some k =>
      if !egressOpen s q then .next (bump s (pgMSC q) MSC_C_TX_HELD 1)
      else match (queueOf s k).frames with
        | [] => .next s
        | f :: _ => .next (settlePools s (sendFrame (bump s pgTMS TMS_C_CHOICES 1) q k f ptp))

/-! ### The link (R236) -/

/-- Does a mode carry alignment markers: every one but the two single-lane NRZ rates? -/
def modeMarkers (m : Nat) : Bool := 3 ≤ m

/-- Link training leaves its settings in a lane's transmitter (R260 TX_PRE): they are free (log entry 3). -/
def trainLane (s : State) (l : Nat) : State :=
  let b := pgSDS l
  let v := freeVal s
  setFld (setFld (setFld (drawFree s) b SDS_TX_PRE (v % 64)) b SDS_TX_MAIN (v / 64 % 64)) b SDS_TX_POST (v / 4096 % 64)

/-- The link of port q comes up. -/
def linkUp (s : State) (q : Nat) : State :=
  let b := pgETH q
  let s1 := if isSet s b ETH_LT_EN then (portLanes s q).foldl trainLane s else s
  let s2 := setEthStatus (setEthStatus s1 q esLink true) q esBlock true
  let s3 := setEthStatus (setEthStatus s2 q esAm (modeMarkers (fld s b ETH_MODE))) q esAn (isSet s b ETH_AN_EN)
  post (flag s3 b ETH_F_LINK_UP) b .linkChange [1]

/-- The link of port q goes down. -/
def linkDown (s : State) (q : Nat) : State :=
  let b := pgETH q
  let s1 := [esLink, esBlock, esAm, esAn].foldl (fun t i => setEthStatus t q i false) s
  post (flag s1 b ETH_F_LINK_DOWN) b .linkChange [0]

/-- UPLINK_LINK_STATE (R236). -/
def execUplinkLinkState (q : Fin 24) (up hiBer : Bool) (s : State) : Res :=
  if !portOn s q then .next s
  else
    let was := ethStatus s q esLink
    let s1 := if up && !was then linkUp s q else if !up && was then linkDown s q else s
    let s2 := setEthStatus s1 q esBer hiBer
    .next (if hiBer && !ethStatus s q esBer then flag s2 (pgETH q) ETH_F_HI_BER else s2)

end Sys2Proof.Machine
end

