-- ==== Sys2Proof/Machine/Microcode.lean ====
section
/-! DEFINITION. The microword (R148 to R155): its fields, the operands, the two ALUs, the units it issues to and what each field of a
word does. A word acts field by field; its ALUs act first, and what sequences it comes last (R152). -/

namespace Sys2Proof.Machine

/-! ### Fields of a word (R151) -/

def mw (w : BitVec 160) (lsb width : Nat) : Nat := (w.toNat >>> lsb) % 2 ^ width

def mwNext (w : BitVec 160) : Nat := mw w 146 14
def mwSeq (w : BitVec 160) : Nat := mw w 142 4
def mwWait (w : BitVec 160) : Nat := mw w 136 6
def mwPol (w : BitVec 160) : Bool := mw w 135 1 == 1
def mwSafe (w : BitVec 160) : Bool := mw w 134 1 == 1
def mwAluA (w : BitVec 160) : Nat := mw w 126 8
def mwAluB (w : BitVec 160) : Nat := mw w 118 8
def mwSrcA (w : BitVec 160) : Nat := mw w 111 7
def mwSrcB (w : BitVec 160) : Nat := mw w 104 7
def mwSrcC (w : BitVec 160) : Nat := mw w 97 7
def mwDstA (w : BitVec 160) : Nat := mw w 91 6
def mwDstB (w : BitVec 160) : Nat := mw w 85 6
def mwImm (w : BitVec 160) : Nat := mw w 61 24
def mwMem (w : BitVec 160) : Nat := mw w 51 10
def mwMemOp (w : BitVec 160) : Nat := mw w 59 2
def mwTbl (w : BitVec 160) : Nat := mw w 48 3
def mwTblWord (w : BitVec 160) : Nat := mw w 43 5
def mwBank (w : BitVec 160) : Nat := mw w 41 2
def mwCip (w : BitVec 160) : Nat := mw w 37 4
def mwBpm (w : BitVec 160) : Nat := mw w 33 4
def mwTmq (w : BitVec 160) : Nat := mw w 29 4
def mwHdr (w : BitVec 160) : Nat := mw w 26 3
def mwHdrOfs (w : BitVec 160) : Nat := mw w 19 7
def mwCnt (w : BitVec 160) : Nat := mw w 17 2
def mwCntBlock (w : BitVec 160) : Nat := mw w 11 6
def mwEvt (w : BitVec 160) : Nat := mw w 5 6
def mwFlg (w : BitVec 160) : Nat := mw w 3 2
def mwFlag (w : BitVec 160) : Nat := mw w 0 3

/-- The word of a bank at an address. -/
def csWord (s : State) (k : Nat) (b : Bool) (a : Nat) : BitVec 160 :=
  tget dword (if b then (cluster s k).bankB else (cluster s k).bankA) a

/-- The word at a context's address. -/
def wordOf (s : State) (c : CtxId) : BitVec 160 := csWord s c.k (ctx s c).bank (ctx s c).pc

/-! ### Reserved encodings (R151 to R154, R168, R180, R226) -/

def badSrc (n : Nat) : Bool := 114 ≤ n
def badDst (n : Nat) : Bool := 44 ≤ n && n ≤ 62

/-- The Gazetteer key that a word asks for (R180): 1 to 9 bytes, key type 1 or 2. -/
def badKeyForm (w : BitVec 160) : Bool :=
  let n := mwImm w % 16
  let ty := mwImm w / 64 % 4
  2 ≤ mwTbl w && mwTbl w ≤ 5 && (ty == 0 || ty == 3 || n == 0 || 9 < n)

/-- Does a word use a reserved encoding, or an operation of another role? A reserved SEQ faults when the word is sequenced, after its
fields have acted (R152). -/
def illegalWord (s : State) (k : Nat) (w : BitVec 160) : Bool :=
  let macLen := mwImm w % 256
  (44 ≤ mwWait w && mwWait w ≤ 55) || 0x16 ≤ mwAluA w % 64 || 0x16 ≤ mwAluB w % 64 ||
  badSrc (mwSrcA w) || badSrc (mwSrcB w) || badSrc (mwSrcC w) || badDst (mwDstA w) || badDst (mwDstB w) ||
  8 ≤ mwCip w || 7 ≤ mwBpm w || 6 ≤ mwTmq w || mwHdr w == 7 || badKeyForm w ||
  (1 ≤ mwCip w && mwCip w ≤ 3 && (macLen == 0 || 128 < macLen)) ||
  ((mwCip w == 3 || mwCip w == 7 || mwTmq w == 5) && roleOf s k != 2)

/-- Does a word issue to a unit on which the context has a request outstanding (R155)? -/
def nests (x : Ctx) (w : BitVec 160) : Bool :=
  (mwMemOp w != 0 && x.mem != .idle) || (mwTbl w != 0 && x.tbl != .idle) || (mwCip w != 0 && x.cip != .idle) ||
  (mwBpm w != 0 && x.bpm != .idle) || (mwTmq w != 0 && x.tmq != .idle)

/-! ### Operands (R148, R153) -/

/-- A byte of the header window; 0 beyond its 128 bytes. -/
def Ctx.hwByte (x : Ctx) (i : Nat) : Nat := if 128 ≤ i then 0 else (tget dzero x.hw (i / 4) >>> (8 * (3 - i % 4))) % 256

/-- An operand (R153). -/
def operand (s : State) (c : CtxId) (imm n : Nat) : Nat :=
  let x := ctx s c
  if n < 32 then tget dzero x.gp n
  else if n < 64 then tget dzero x.hw (n - 32)
  else if n < 96 then tget dzero x.lr (n - 64)
  else if n < 104 then tget dzero (cluster s c.k).sh (n - 96)
  else match n with
    | 104 => imm
    | 105 => unsignedOf 64 (signedOf 24 imm)
    | 107 => x.prevA
    | 108 => x.prevB
    | 109 => x.loop
    | 110 => x.pkt.src * 2 ^ 32 + x.pkt.seq
    | 111 => (frame s % 65536) * 2 ^ 23 + (now s).tick * 256 + (now s).fine
    | 112 => x.pkt.len
    | 113 => x.pkt.handle.getD 0
    | _ => 0

/-- Write a destination (R153). -/
def writeDst (s : State) (c : CtxId) (d v : Nat) : State :=
  let x := ctx s c
  if d < 32 then setCtx s c { x with gp := tset dzero x.gp d v }
  else if d < 40 then setCluster s c.k { cluster s c.k with sh := tset dzero (cluster s c.k).sh (d - 32) v }
  else match d with
    | 40 => setCtx s c { x with loop := v }
    | 41 => setCtx s c { x with pkt := { x.pkt with qsel := v % 2 ^ 17, rel := none, group := false } }
    | 42 => setCtx s c { x with pkt := { x.pkt with handle := some (v % 2 ^ 36) } }
    | 43 => setCtx s c { x with pkt := { x.pkt with len := v % 2 ^ 16 } }
    | _ => s

/-! ### The ALUs (R151) -/

/-- One of two readings of an operation: the value where both agree, otherwise the free bit picks. -/
def pick (f u v : Nat) : Nat := if u = v then u else if bitAt f 0 then u else v

/-- A signed value held between the limits of a width. -/
def clampSigned (w : Nat) (v : Int) : Nat := unsignedOf w (max (-(2 ^ (w - 1) : Int)) (min (2 ^ (w - 1) - 1 : Int) v))

/-- How many of the low w bits are 1. -/
def popCount (w a : Nat) : Nat := (List.range w).countP (fun i => bitAt a i)

/-- Does a signed value overflow a width? -/
def signedOverflow (w : Nat) (v : Int) : Bool := v < -(2 ^ (w - 1) : Int) || (2 ^ (w - 1) : Int) ≤ v

/-- The field that IMM names, taken from a value, and put into another in place of what stands there (R151 extract, insert). -/
def takeField (imm a : Nat) : Nat := (a >>> Config.fieldPos imm) % 2 ^ Config.fieldWidth imm
def putField (imm a b : Nat) : Nat :=
  a - takeField imm a <<< Config.fieldPos imm + (b % 2 ^ Config.fieldWidth imm) <<< Config.fieldPos imm

/-- Compare sets flags only (R151). -/
def opCompare : Nat := 0x0B

/-- An ALU operation at width w with the word's IMM: the result, carry and overflow. What an operation's name leaves open is the free value `f`, and the
free bits of `g` are the carry and overflow that the manual does not state (log entry 3). -/
def alu (op w imm a0 b0 f g : Nat) : Nat × Bool × Bool :=
  let m := 2 ^ w
  let a := a0 % m
  let b := b0 % m
  let sa := signedOf w a
  let sb := signedOf w b
  let cf := bitAt g 0
  let vf := bitAt g 1
  let plain := fun (r : Nat) => (r % m, cf, vf)
  match op with
  | 0x00 => plain a
  | 0x01 => ((a + b) % m, m ≤ a + b, signedOverflow w (sa + sb))
  | 0x02 | 0x0B => ((a + m - b) % m, cf, signedOverflow w (sa - sb))
  | 0x03 => plain (a &&& b)
  | 0x04 => plain (a ||| b)
  | 0x05 => plain (a ^^^ b)
  | 0x06 => plain (if b < w then a <<< b else f)
  | 0x07 => plain (if b < w then a >>> b else f)
  | 0x08 => plain (if b < w then unsignedOf w (sa.fdiv (2 ^ b)) else f)
  | 0x09 => plain (pick f (min a b) (if sa < sb then a else b))
  | 0x0A => plain (pick f (max a b) (if sa < sb then b else a))
  | 0x0C => plain (takeField imm a)
  | 0x0D => plain (pick f (putField imm a b) (putField imm b a))
  | 0x0E => plain (popCount w a)
  | 0x11 => plain (a * b)
  | 0x12 => plain (pick f (a * b / m) (unsignedOf w ((sa * sb).fdiv m)))
  | 0x14 => plain (pick f (min (a + b) (m - 1)) (clampSigned w (sa + sb)))
  | 0x15 => plain (pick f (a - b) (clampSigned w (sa - sb)))
  | _ => plain f

/-- The width of an ALU field. -/
def aluWidth (n : Nat) : Nat := 8 * 2 ^ (n / 64)

/-- Set or clear a condition. -/
def Ctx.cond (x : Ctx) (i : Nat) (b : Bool) : Ctx :=
  { x with conds := if b then x.conds ||| 2 ^ i else x.conds &&& (2 ^ 41 - 1 - 2 ^ i) }

/-- Is the top bit of a width set? -/
def topBit (w v : Nat) : Bool := bitAt v (w - 1)

/-- The two ALUs of a word (R151): the results, conditions 1 to 6, the destinations; DST_B wins (R153). -/
def doAlu (s : State) (c : CtxId) (w : BitVec 160) : State :=
  let x := ctx s c
  let l := x.latch.getD ⟨0, 0, 0, 0, 0⟩
  let wa := aluWidth (mwAluA w)
  let wb := aluWidth (mwAluB w)
  let (ra, ca, va) := alu (mwAluA w % 64) wa (mwImm w) l.a l.b (freeAt s 0) (freeAt s 1)
  let (rb, _, _) := alu (mwAluB w % 64) wb (mwImm w) l.c ra (freeAt s 2) (freeAt s 3)
  let y := ((((({ x with latch := some { l with ra := ra, rb := rb } }.cond 1 (ra == 0)).cond 2 (topBit wa ra)).cond 3 ca).cond 4
    va).cond 5 (rb == 0)).cond 6 (topBit wb rb)
  let s1 := setCtx (drawFrees s 4) c y
  let s2 := if mwAluA w % 64 = opCompare then s1 else writeDst s1 c (mwDstA w) ra
  if mwAluB w % 64 = opCompare then s2 else writeDst s2 c (mwDstB w) rb

/-! ### Scratch (R148, R150, R151 MEM) -/

/-- The byte addresses of an access of n bytes: an access past the end goes on at the start (log entry 26). -/
def scratchAddrs (size a n : Nat) : List Nat := (List.range n).map (fun i => (a + i) % size)

/-- A scratch memory read and written by bytes, the low byte first (log entry 26). -/
def readBytes (t : Tbl Nat) (l : List Nat) : Nat := l.foldr (fun i v => v * 256 + tget dzero t i) 0
def writeBytes (t : Tbl Nat) (l : List Nat) (v : Nat) : Tbl Nat :=
  (l.foldl (fun p i => (tset dzero p.1 i (p.2 % 256), p.2 / 256)) (t, v)).1

def localSize : Nat := 4096
def sharedSizeBytes : Nat := 524288

/-- Does a MEM field address cluster-shared scratch? -/
def memShared (w : BitVec 160) : Bool := bitAt (mwMem w) 5

/-- The addresses of a MEM field: SRC_C + IMM[15:0]. -/
def memAddrs (x : Ctx) (w : BitVec 160) : List Nat :=
  let a := (x.latch.map (·.c)).getD 0 + mwImm w % 65536
  scratchAddrs (if memShared w then sharedSizeBytes else localSize) a (2 ^ (mwMem w / 64 % 4))

/-- The scratch that a MEM field addresses, and a new content for it. -/
def memOf (s : State) (c : CtxId) (w : BitVec 160) : Tbl Nat :=
  if memShared w then (cluster s c.k).scratch else (ctx s c).scratch
def setMem (s : State) (c : CtxId) (w : BitVec 160) (t : Tbl Nat) : State :=
  if memShared w then setCluster s c.k { cluster s c.k with scratch := t } else setCtx s c { ctx s c with scratch := t }

/-- Issue to MEM: the request is outstanding until it completes (R154, R155). -/
def issueMem (s : State) (c : CtxId) (r : UnitRes) : State := setCtx s c { (ctx s c).cond 8 false with mem := .ready r }

/-- A MEM field (R150, R151): a read, a write of the ALU B result, or a fetch-add of it that answers the old value. `conflict` says
that a lower port wrote the same word in this cycle. Shared scratch is a checked memory (R324) in banks of its own (R316). -/
def doMem (conflict : Bool) (s0 : State) (c : CtxId) (w : BitVec 160) : State :=
  if mwMemOp w = 0 then s0
  else
    let (s, bad) := if memShared w then checkedAccess (wakeBank s0 .ENG) (pgENG c.k) else (s0, false)
    let x := ctx s c
    let l := memAddrs x w
    let t := memOf s c w
    let n := 2 ^ (8 * l.length)
    let rb := (x.latch.map (·.rb)).getD 0
    let old := if bad then freeVal s % n else readBytes t l
    let s1 := if bad then drawFree s else s
    let gp := mwMem w % 32
    match mwMemOp w with
    | 1 => issueMem s1 c { UnitRes.plain with gp := some (gp, old) }
    | 2 =>
      if conflict && memShared w then
        issueMem (bump s1 (pgENG c.k) ENG_C_MEM_CONFLICTS 1) c { UnitRes.plain with conflict := true }
      else issueMem (setMem s1 c w (writeBytes t l rb)) c UnitRes.plain
    | _ => issueMem (setMem s1 c w (writeBytes t l ((old + rb) % n))) c { UnitRes.plain with gp := some (gp, old) }

/-! ### Tables (R175, R180, R183, R184 TBL) -/

/-- The key of TBL codes 2 to 5 (R180). -/
def tblKey (x : Ctx) (w : BitVec 160) : Nat :=
  let pre := (x.latch.map (·.c)).getD 0 % 2 ^ 18
  let n := mwImm w % 16
  let at_ := 4 * mwTblWord w + mwImm w / 16 % 4
  pre * 2 ^ 78 + (List.range 9).foldl (fun a i => a * 256 + (if i < n then x.hwByte (at_ + i) else 0)) 0

/-- The key type of a word. -/
def tblType (w : BitVec 160) : Nat := mwImm w / 64 % 4

/-- The 8 words of a value in a result bank, the highest first (R181). -/
def bankWords (bank v n : Nat) : List (Nat × Nat) := (List.range n).map (fun i => (8 * bank + i, (v >>> (32 * (n - 1 - i))) % 2 ^ 32))

/-- Issue to TBL: completion and hit are clear until it completes. -/
def issueTbl (s : State) (c : CtxId) (o : Out) : State := setCtx s c { ((ctx s c).cond 9 false).cond 14 false with tbl := o }

/-- Replace a context's packet. -/
def setPkt (s : State) (c : CtxId) (p : Packet) : State := setCtx s c { ctx s c with pkt := p }

/-- A request of this context to the learn arbiter. -/
def askLearn (s : State) (c : CtxId) (w : BitVec 160) (op : LearnOp) : State :=
  let x := ctx s c
  let r := enterLearn s ⟨op, x.pkt.src, x.pkt.slice, some c, mwBank w, (now s).fineIndex⟩
  issueTbl r.1 c r.2

/-- The 112 bits that a learn takes from words 4 to 7 of the result bank (R184). -/
def learnBody (x : Ctx) (bank : Nat) : Nat :=
  ((List.range 4).foldl (fun a i => a * 2 ^ 32 + tget dzero x.lr (8 * bank + 4 + i)) 0) % 2 ^ 112

/-- A hit gives the packet its destination and flow, and resolves a relative queue, for each replica of a group anew (R177, R181). -/
def takeDest (s : State) (p : Packet) (e : BitVec 256) : State × Packet :=
  let q := { p with dest := some (entDest e), flow := entF e 73 18 }
  let r := match p.rel with
    | some off =>
      let x := resolveQueue s q off (entDest e)
      (x.1, if p.group then { x.2 with rel := some off, group := true } else x.2)
    | none => (s, q)
  (trace r.1 pgGZT 4 0 p.tag noQueue p.len (entDest e).2, r.2)

/-- The state words that codes 6 and 7 name: they are told apart by the key that R180 forms (log entry 46). -/
def stateKey (x : Ctx) (w : BitVec 160) : Nat := tblType w * 2 ^ 96 + tblKey x w

/-- The 8 words of a result bank as one value, the highest first. -/
def bankValue (x : Ctx) (bank : Nat) : BitVec 256 :=
  BitVec.ofNat 256 ((List.range 8).foldl (fun a i => a * 2 ^ 32 + tget dzero x.lr (8 * bank + i)) 0)

/-- A TBL field. A state write stores the words of the result bank, and a state read answers them (R151). -/
def doTbl (s : State) (c : CtxId) (w : BitVec 160) : State :=
  let x := ctx s c
  let key := tblKey x w
  let ty := tblType w
  let bank := mwBank w
  match mwTbl w with
  | 1 =>
    let (s1, p, a, i, hit) := legendMatch s x.pkt
    issueTbl (setPkt s1 c p) c (.ready { UnitRes.plain with lr := [(8 * bank, a), (8 * bank + 1, i)], hit := hit, malformed := x.pkt.record % 2 == 1 })
  | 2 =>
    let r := gztLookup s key ty
    match r.2 with
    | none => issueTbl r.1 c (.ready UnitRes.plain)
    | some l =>
      let e := shownEnt s l
      let d := takeDest r.1 x.pkt e
      issueTbl (setPkt d.1 c d.2) c (.ready { UnitRes.plain with lr := bankWords bank e.toNat 8, hit := true })
  | 3 => askLearn s c w (.learn (BitVec.ofNat 96 key) ty (BitVec.ofNat 112 (learnBody x bank)))
  | 4 => askLearn s c w (.refresh (BitVec.ofNat 96 key) ty)
  | 5 => askLearn s c w (.delete (BitVec.ofNat 96 key) ty)
  | 6 => issueTbl s c (.ready { UnitRes.plain with lr := bankWords bank (tget dentry s.eng.ustate (stateKey x w)).toNat 8 })
  | 7 =>
    let t := tset dentry s.eng.ustate (stateKey x w) (bankValue x bank)
    issueTbl { s with eng := { s.eng with ustate := t } } c (.ready UnitRes.plain)
  | _ => s

/-! ### Ciphers (R226 CIP) -/

/-- Issue to CIP: completion and pass are clear until it completes. -/
def issueCip (s : State) (c : CtxId) (r : UnitRes) : State :=
  bump (setCtx s c { ((ctx s c).cond 10 false).cond 15 false with cip := .ready r }) pgCIP CIP_C_CIP_ISSUES 1

/-- The key entry that SRC_C names. -/
def cipNode (x : Ctx) : Nat := (x.latch.map (·.c)).getD 0 % 16384

/-- The MAC of the header window (R226 code 1). -/
def cipMac (s : State) (x : Ctx) (w : BitVec 160) : Nat :=
  ofBytes (cmac (beBytes (keyEntry s (cipNode x)).ploam.toNat 16) ((List.range (mwImm w % 256)).map x.hwByte))

/-- The slot that lr word 4 names, laid out as in the index of the key window (R231; log entry 27), with a key to write. -/
def cipSlot (x : Ctx) (key : Nat) : KeyReq :=
  let n := tget dzero x.lr 4
  ⟨cipNode x, n / 2 ^ 14 % 4, n / 2 ^ 16 % 4, 1, BitVec.ofNat 256 key, 0, 0⟩

/-- A key command of the microcode is journaled as the host's are (R218, R295), with the index as OLD and NEW. -/
def recordKey (s : State) (k : Nat) (r : KeyReq) (code : Nat) : State :=
  let i : Word := BitVec.ofNat 32 (r.u + r.dir * 2 ^ 14 + r.slot * 2 ^ 16)
  journal s (.ucode k) code (pgKEY + KEY_CMD.off) i i allOnes

/-- A CIP field. -/
def doCip (s : State) (c : CtxId) (w : BitVec 160) : State :=
  let x := ctx s c
  let bank := mwBank w
  let node := cipNode x
  match mwCip w with
  | 1 => issueCip s c { UnitRes.plain with lr := bankWords bank (cipMac s x w) 4 }
  | 2 =>
    let want := (List.range 4).foldl (fun a i => a * 2 ^ 32 + tget dzero x.lr i) 0
    issueCip s c { UnitRes.plain with pass := cipMac s x w == want }
  | 3 =>
    let r := cipSlot x (cipMac s x w)
    let y := writeKey s r
    issueCip (recordKey y.1 c.k r y.2) c UnitRes.plain
  | 4 => issueCip (drawFree s) c { UnitRes.plain with dst := some (mwDstA w, freeVal s) }
  | 5 =>
    let r := cipSlot x 0
    let e := keyEntry s node
    let v := if r.dir = 2 then kcvOf (beBytes e.ploam.toNat 16)
      else match r.index s with
        | some j => (e.slot (r.dir == 1) j).kcv
        | none => 0
    issueCip s c { UnitRes.plain with dst := some (mwDstA w, v) }
  | 6 =>
    let l := (List.range 8).map (fun i => (8 * bank + i, freeAt s i % 2 ^ 32))
    issueCip (drawFrees s 8) c { UnitRes.plain with lr := l }
  | 7 =>
    let r := cipSlot x 0
    let y := invalidateKey s r
    issueCip (recordKey y.1 c.k r y.2) c { UnitRes.plain with pass := y.2 == 0 }
  | _ => s

/-! ### Buffers and queues (R199 to R206 BPM, TMQ) -/

/-- Issue to BPM: completion and refusal are clear until it completes. -/
def issueBpm (s : State) (c : CtxId) (o : Out) : State := setCtx s c { ((ctx s c).cond 11 false).cond 40 false with bpm := o }

/-- A buffer request of n bytes through requester r (R201). -/
def askBuffer (s : State) (c : CtxId) (r n : Nat) : State :=
  match askBytes s r (tagCtx c) 1 n with
  | some (h, s1) => issueBpm (settlePools s s1) c (.ready { UnitRes.plain with handle := some (some h) })
  | none =>
    let x := waitOrRefuse s ⟨r, n, .engine c⟩
    issueBpm (settlePools s x.1) c (if x.2 then .waiting else .ready { UnitRes.plain with refused := true })

/-- The queue that a number names: bit 16 marks an uplink-bound one. -/
def queueArg (n : Nat) : Nat := n % 2 ^ 17

/-- A BPM field. -/
def doBpm (s : State) (c : CtxId) (w : BitVec 160) : State :=
  let x := ctx s c
  let n := (x.latch.map (·.c)).getD 0
  let h := x.pkt.handle.getD 0
  let me := tagCtx c
  let gone := fun (t : State) => setPkt t c { (ctx t c).pkt with handle := none }
  let plain := fun (t : State) => issueBpm (settlePools s t) c (.ready UnitRes.plain)
  match mwBpm w with
  | 1 => askBuffer s c (8 + c.k) n
  | 2 => askBuffer s c 7 n
  | 3 => plain (gone (freeBuf s h me true))
  | 4 => plain (addRef s h me).1
  | 5 => plain (freeBuf s h me false)
  | 6 => plain (gone (passBuf s h me (queueParty (queueArg n))))
  | _ => s

/-- Issue to TMQ. -/
def issueTmq (s : State) (c : CtxId) (o : Out) : State := setCtx s c { ((ctx s c).cond 12 false) with tmq := o }

/-- How an enqueue answers. -/
def enqAnswer : EnqOut → Out
  | .waits => .waiting
  | .dropped => .ready { UnitRes.plain with refused := true }
  | .done => .ready UnitRes.plain

/-- TMQ 5 on the supervision role: the head frame of a queue passes to the context. -/
def dequeueTo (s : State) (c : CtxId) (k : Nat) : State :=
  match (queueOf s k).frames with
  | [] => issueTmq s c (.ready { UnitRes.plain with refused := true })
  | f :: _ =>
    let s1 := passBuf (emptyOver (popHead (leaveTags s k) k) k) f.handle (queueParty k) (tagCtx c)
    let y := ctx s1 c
    let p := { y.pkt with handle := some f.handle, len := f.len, bytes := f.bytes, flow := f.flow }
    issueTmq (settlePools s (setCtx s1 c { y with hw := hwOf f.bytes, pkt := p })) c (.ready UnitRes.plain)

/-- A TMQ field. A frame enqueued is the context's no more; a replica leaves it with its own. -/
def doTmq (s : State) (c : CtxId) (w : BitVec 160) : State :=
  let x := ctx s c
  let k := queueArg ((x.latch.map (·.c)).getD 0)
  match mwTmq w with
  | 1 =>
    let r := enqueue s k x.pkt false (tagCtx c) (some c)
    issueTmq (setPkt (settlePools s r.1) c { x.pkt with handle := none }) c (enqAnswer r.2)
  | 2 =>
    let r := enqueue s k x.pkt true (tagCtx c) (some c)
    issueTmq (settlePools s r.1) c (enqAnswer r.2)
  | 3 => issueTmq s c (.ready { UnitRes.plain with dst := some (mwDstA w, (queueOf s k).occ) })
  | 4 => issueTmq s c (.ready { UnitRes.plain with dst := some (mwDstA w, bpLevel s (k % 65536)) })
  | 5 => dequeueTo s c k
  | _ => s

/-! ### The header editor (R151 HDR) -/

/-- Give a context's packet new bytes and a new length; the header window follows. -/
def editPkt (s : State) (c : CtxId) (l : List Byte) (len : Nat) : State :=
  let x := (ctx s c).cond 13 false
  setCtx s c { x with hw := hwOf l, hdr := .ready UnitRes.plain, pkt := { x.pkt with bytes := l, len := len } }

/-- An HDR field: the bytes come from the ALU B result at ALU B's width; a tag is 4 bytes (log entry 28). -/
def doHdr (s : State) (c : CtxId) (w : BitVec 160) : State :=
  let x := ctx s c
  let l := x.pkt.bytes
  let o := mwHdrOfs w
  let rb := (x.latch.map (·.rb)).getD 0
  let n := aluWidth (mwAluB w) / 8
  let insert := fun (k : Nat) => editPkt s c (l.take o ++ valueBytes rb k ++ l.drop o) (x.pkt.len + k)
  let remove := fun (k : Nat) => editPkt s c (l.take o ++ l.drop (o + k)) (x.pkt.len - k)
  match mwHdr w with
  | 1 => editPkt s c (l.take o ++ valueBytes rb n ++ l.drop (o + n)) x.pkt.len
  | 2 => insert n
  | 3 => remove n
  | 4 => insert 4
  | 5 => remove 4
  | 6 => editPkt s c l (rb % 2 ^ 16)
  | _ => s

/-! ### Counters, events, flags -/

/-- Raise a microcode counter: packets at 2 × (64 × index + block), bytes beside it. -/
def ucntAdd (s : State) (i n : Nat) : State :=
  { s with eng := { s.eng with ucnt := tset dzero s.eng.ucnt i (min cntMax (tget dzero s.eng.ucnt i + n)) } }

/-- A CNT field (R151). -/
def doCnt (s : State) (c : CtxId) (w : BitVec 160) : State :=
  let x := ctx s c
  let i := 2 * (64 * (x.latch.map (·.c)).getD 0 + mwCntBlock w)
  let s1 := if bitAt (mwCnt w) 0 then ucntAdd s i 1 else s
  if bitAt (mwCnt w) 1 then ucntAdd s1 (i + 1) x.pkt.len else s1

/-- An EVT field (R151): a microcode event with the ENG source. -/
def doEvt (s : State) (c : CtxId) (w : BitVec 160) : State := if mwEvt w = 0 then s else post s (pgENG c.k) (.micro (mwEvt w)) []

/-- A FLG field (R151). -/
def doFlg (s : State) (c : CtxId) (w : BitVec 160) : State :=
  let x := ctx s c
  let b := 2 ^ mwFlag w
  match mwFlg w with
  | 1 => setCtx s c { x with flags := x.flags ||| b }
  | 2 => setCtx s c { x with flags := x.flags &&& (255 - b) }
  | 3 => setCtx s c { x with flags := x.flags ^^^ b }
  | _ => s

/-! ### Issue (R148, R155, R157, R158) -/

/-- May a context issue a word: READY or RUNNING and not stopped? -/
def Ctx.canIssue (x : Ctx) : Bool := (x.st == 1 || x.st == 2) && !x.halted

/-- The contexts of an engine in the order in which it looks at them for its next word: round robin from the one after the last
(R148). -/
def pickOrder (s : State) (c : CtxId) : List CtxId :=
  let l := ctxsOf c.k c.e
  let n := tget dzero s.eng.pick (33 * c.k + c.e)
  l.drop n ++ l.take n

/-- Has this context its engine's turn: its word is under way, or no word of the engine is and it is the first that may issue (R148)? -/
def hasTurn (s : State) (c : CtxId) : Bool :=
  match (ctxsOf c.k c.e).find? (fun d => (ctx s d).canIssue && (ctx s d).latch.isSome) with
  | some d => d == c
  | none => (pickOrder s c).find? (fun d => (ctx s d).canIssue) == some c

/-- May a context issue: it is READY or RUNNING, not stopped, and has its engine's turn? A command for another context issues
nothing (log entry 54). -/
def mayIssue (s : State) (c : CtxId) : Bool := (ctx s c).canIssue && hasTurn s c

/-- The engine has picked a context: it looks at the one after it first. -/
def turnOn (s : State) (c : CtxId) : State :=
  { s with eng := { s.eng with pick := tset dzero s.eng.pick (33 * c.k + c.e) ((c.x + 1) % 4) } }

/-- The engine runs this context; another one that ran is READY (R149). -/
def runCtx (s : State) (c : CtxId) : State :=
  (ctxsOf c.k c.e).foldl (fun t d =>
    let x := ctx t d
    if d = c then setCtx t d { x with st := 2 } else if x.st = 2 then setCtx t d { x with st := 1 } else t) s

/-- The read of the word from the control store (R324, R158 CS_ECC). Answers whether it was uncorrectable. -/
def readStore (s : State) (c : CtxId) : State × Bool :=
  let armed := isSet s (pgUCS c.k) ANY_ARM
  let (s1, bad) := checkedAccess (wakeBank s .UCS) (pgUCS c.k)
  if bad then (note s1 (pgUCS c.k) UCS_F_CS_ECC_UNCORR UCS_C_CS_ECC_UNCORR, true)
  else if armed then (note s1 (pgUCS c.k) UCS_F_CS_ECC_CORR UCS_C_CS_ECC_CORR, false)
  else (s1, false)

/-- The 1,024th word since the last safe point that is none faults (R157). -/
def watchdogMax : Nat := 1024

/-- A word that runs past RUN_MAX words of its dispatch (R157). -/
def overRun (s : State) (c : CtxId) : Bool :=
  let m := fld s (pgENG c.k) ENG_RUN_MAX
  m != 0 && m < (ctx s c).words + 1

/-- Would the next word be the one that the watchdog faults? -/
def overWatch (s : State) (c : CtxId) : Bool := watchdogMax ≤ (ctx s c).sinceSafe + 1 && !mwSafe (wordOf s c)

/-- The first field of a word issues it: the checks of R155, R157, R158 and R168, then the operands are taken (R151). Answers
whether the word goes on. -/
def beginWord (s : State) (c : CtxId) : State × Bool :=
  if (ctx s c).latch.isSome then (s, true)
  else
    let w := wordOf s c
    let (s1, bad) := readStore s c
    if bad then (ctxFault s1 c cCsEcc, false)
    else if illegalWord s1 c.k w then (ctxFault s1 c cIllegal, false)
    else if overRun s1 c then (ctxFault s1 c cRunOver, false)
    else if overWatch s1 c then (ctxFault s1 c cWatchdog, false)
    else if nests (ctx s1 c) w then (ctxFault s1 c cNest, false)
    else
      let s2 := bump (runCtx (turnOn s1 c) c) (pgENG c.k) ENG_C_WORDS 1
      let op := operand s2 c (mwImm w)
      let l : Latch := ⟨op (mwSrcA w), op (mwSrcB w), op (mwSrcC w), 0, 0⟩
      (setCtx s2 c { ctx s2 c with latch := some l, acted := 0 }, true)

/-- A field of the word acts, once. -/
def doField (i : Nat) (f : State → CtxId → BitVec 160 → State) (s : State) (c : CtxId) (w : BitVec 160) : State :=
  let x := ctx s c
  if bitAt x.acted i then s else f (setCtx s c { x with acted := x.acted ||| 2 ^ i }) c w

/-- Every field of a word that has not acted yet, the ALUs first (R152). -/
def restOfWord (s : State) (c : CtxId) (w : BitVec 160) : State :=
  let s1 := doField 2 doTbl (doField 1 (doMem false) (doField 0 doAlu s c w) c w) c w
  let s2 := doField 5 doTmq (doField 4 doBpm (doField 3 doCip s1 c w) c w) c w
  doField 9 doFlg (doField 8 doEvt (doField 7 doCnt (doField 6 doHdr s2 c w) c w) c w) c w

/-- One field of the word at a context's address acts, after its ALUs. A word without that operation, or whose field has acted, is
left as it is. -/
def fieldStep (i : Nat) (has : BitVec 160 → Bool) (f : State → CtxId → BitVec 160 → State) (c : CtxId) (s : State) : State :=
  let x := ctx s c
  let w := wordOf s c
  if !mayIssue s c || !has w || (x.latch.isSome && bitAt x.acted i) then s
  else
    let r := beginWord s c
    if r.2 then doField i f (doField 0 doAlu r.1 c w) c w else r.1

/-! ### Completion (R154) -/

/-- What an answer leaves in its context. -/
def deliverUnit (s : State) (c : CtxId) (r : UnitRes) : State :=
  let x := ctx s c
  let y := { x with
    lr := r.lr.foldl (fun t e => tset dzero t e.1 e.2) x.lr,
    gp := match r.gp with
      | some (i, v) => tset dzero x.gp i v
      | none => x.gp,
    pkt := match r.handle with
      | some h => { x.pkt with handle := h }
      | none => x.pkt }
  let s1 := setCtx s c y
  match r.dst with
  | some (d, v) => writeDst s1 c d v
  | none => s1

/-- A context's request on a unit, and the context without it. -/
def Ctx.out (x : Ctx) : EngUnit → Out
  | .mem => x.mem | .tbl => x.tbl | .cip => x.cip | .bpm => x.bpm | .tmq => x.tmq | .hdr => x.hdr
def Ctx.clearOut (x : Ctx) : EngUnit → Ctx
  | .mem => { x with mem := .idle } | .tbl => { x with tbl := .idle } | .cip => { x with cip := .idle }
  | .bpm => { x with bpm := .idle } | .tmq => { x with tmq := .idle } | .hdr => { x with hdr := .idle }

/-- The completion condition of a unit (R154, 8 to 13). -/
def unitCond : EngUnit → Nat
  | .mem => 8 | .tbl => 9 | .cip => 10 | .bpm => 11 | .tmq => 12 | .hdr => 13

/-- The conditions that an answer raises. -/
def raiseConds (x : Ctx) (u : EngUnit) (r : UnitRes) : Ctx :=
  let y := x.cond (unitCond u) true
  match u with
  | .mem => y.cond 7 r.conflict
  | .tbl => y.cond 14 r.hit
  | .cip => y.cond 15 r.pass
  | .bpm => y.cond 40 r.refused
  | _ => y

/-- UNIT_COMPLETION (R154): an answer on its way arrives. -/
def execUnitCompletion (c : CtxId) (u : EngUnit) (s : State) : Res :=
  let x := ctx s c
  match x.out u with
  | .ready r =>
    let s1 := deliverUnit (setCtx s c (x.clearOut u)) c r
    .next (setCtx s1 c (raiseConds (ctx s1 c) u r))
  | _ => .next s

/-! ### The commands of the fields -/

def memIs (n : Nat) (w : BitVec 160) : Bool := mwMemOp w == n
def tblIs (n : Nat) (w : BitVec 160) : Bool := mwTbl w == n
def cipIs (n : Nat) (w : BitVec 160) : Bool := mwCip w == n
def bpmIs (n : Nat) (w : BitVec 160) : Bool := mwBpm w == n
def tmqIs (n : Nat) (w : BitVec 160) : Bool := mwTmq w == n
def hdrIs (n : Nat) (w : BitVec 160) : Bool := mwHdr w == n
def flgIs (n : Nat) (w : BitVec 160) : Bool := mwFlg w == n

/-- ALU_OPERATION (R151, R153). -/
def execAluOperation (c : CtxId) (s : State) : Res := .next (fieldStep 0 (fun _ => true) doAlu c s)
/-- SCRATCH_READ (R151). -/
def execScratchRead (c : CtxId) (s : State) : Res := .next (fieldStep 1 (memIs 1) (doMem false) c s)
/-- SCRATCH_WRITE (R150). -/
def execScratchWrite (c : CtxId) (conflict : Bool) (s : State) : Res := .next (fieldStep 1 (memIs 2) (doMem conflict) c s)
/-- SCRATCH_FETCH_ADD (R150). -/
def execScratchFetchAdd (c : CtxId) (s : State) : Res := .next (fieldStep 1 (memIs 3) (doMem false) c s)
/-- TBL_LEGEND_MATCH (R175). -/
def execTblLegendMatch (c : CtxId) (s : State) : Res := .next (fieldStep 2 (tblIs 1) doTbl c s)
/-- TBL_GZT_LOOKUP (R183). -/
def execTblGztLookup (c : CtxId) (s : State) : Res := .next (fieldStep 2 (tblIs 2) doTbl c s)
/-- TBL_GZT_LEARN (R184). -/
def execTblGztLearn (c : CtxId) (s : State) : Res := .next (fieldStep 2 (tblIs 3) doTbl c s)
/-- TBL_GZT_REFRESH (R184). -/
def execTblGztRefresh (c : CtxId) (s : State) : Res := .next (fieldStep 2 (tblIs 4) doTbl c s)
/-- TBL_GZT_DELETE (R184). -/
def execTblGztDelete (c : CtxId) (s : State) : Res := .next (fieldStep 2 (tblIs 5) doTbl c s)
/-- TBL_STATE_READ (R151). -/
def execTblStateRead (c : CtxId) (s : State) : Res := .next (fieldStep 2 (tblIs 6) doTbl c s)
/-- TBL_STATE_WRITE (R151). -/
def execTblStateWrite (c : CtxId) (s : State) : Res := .next (fieldStep 2 (tblIs 7) doTbl c s)
/-- CIP_CMAC (R226). -/
def execCipCmac (c : CtxId) (s : State) : Res := .next (fieldStep 3 (cipIs 1) doCip c s)
/-- CIP_CMAC_VERIFY (R226). -/
def execCipCmacVerify (c : CtxId) (s : State) : Res := .next (fieldStep 3 (cipIs 2) doCip c s)
/-- CIP_KEY_DERIVE (R226). -/
def execCipKeyDerive (c : CtxId) (s : State) : Res := .next (fieldStep 3 (cipIs 3) doCip c s)
/-- CIP_RANDOM (R226). -/
def execCipRandom (c : CtxId) (s : State) : Res := .next (fieldStep 3 (cipIs 4) doCip c s)
/-- CIP_KCV (R226). -/
def execCipKcv (c : CtxId) (s : State) : Res := .next (fieldStep 3 (cipIs 5) doCip c s)
/-- CIP_STATUS (R226). -/
def execCipStatus (c : CtxId) (s : State) : Res := .next (fieldStep 3 (cipIs 6) doCip c s)
/-- CIP_INVALIDATE (R226). -/
def execCipInvalidate (c : CtxId) (s : State) : Res := .next (fieldStep 3 (cipIs 7) doCip c s)
/-- BPM_ALLOCATE (R200). -/
def execBpmAllocate (c : CtxId) (s : State) : Res := .next (fieldStep 4 (bpmIs 1) doBpm c s)
/-- BPM_ALLOCATE_REPL (R199). -/
def execBpmAllocateRepl (c : CtxId) (s : State) : Res := .next (fieldStep 4 (bpmIs 2) doBpm c s)
/-- BPM_FREE (R204). -/
def execBpmFree (c : CtxId) (s : State) : Res := .next (fieldStep 4 (bpmIs 3) doBpm c s)
/-- BPM_REF_INC (R203). -/
def execBpmRefInc (c : CtxId) (s : State) : Res := .next (fieldStep 4 (bpmIs 4) doBpm c s)
/-- BPM_REF_DEC (R203). -/
def execBpmRefDec (c : CtxId) (s : State) : Res := .next (fieldStep 4 (bpmIs 5) doBpm c s)
/-- BPM_PASS_OWNERSHIP (R203). -/
def execBpmPassOwnership (c : CtxId) (s : State) : Res := .next (fieldStep 4 (bpmIs 6) doBpm c s)
/-- TMQ_ENQUEUE (R206). -/
def execTmqEnqueue (c : CtxId) (s : State) : Res := .next (fieldStep 5 (tmqIs 1) doTmq c s)
/-- TMQ_ENQUEUE_REPLICA (R206). -/
def execTmqEnqueueReplica (c : CtxId) (s : State) : Res := .next (fieldStep 5 (tmqIs 2) doTmq c s)
/-- TMQ_READ_LEVEL (R151). -/
def execTmqReadLevel (c : CtxId) (s : State) : Res := .next (fieldStep 5 (tmqIs 3) doTmq c s)
/-- TMQ_READ_BP_LEVEL (R213). -/
def execTmqReadBpLevel (c : CtxId) (s : State) : Res := .next (fieldStep 5 (tmqIs 4) doTmq c s)
/-- TMQ_DEQUEUE (R151). -/
def execTmqDequeue (c : CtxId) (s : State) : Res := .next (fieldStep 5 (tmqIs 5) doTmq c s)
/-- HDR_REPLACE (R151). -/
def execHdrReplace (c : CtxId) (s : State) : Res := .next (fieldStep 6 (hdrIs 1) doHdr c s)
/-- HDR_INSERT (R151). -/
def execHdrInsert (c : CtxId) (s : State) : Res := .next (fieldStep 6 (hdrIs 2) doHdr c s)
/-- HDR_REMOVE (R151). -/
def execHdrRemove (c : CtxId) (s : State) : Res := .next (fieldStep 6 (hdrIs 3) doHdr c s)
/-- HDR_PUSH_TAG (R151). -/
def execHdrPushTag (c : CtxId) (s : State) : Res := .next (fieldStep 6 (hdrIs 4) doHdr c s)
/-- HDR_POP_TAG (R151). -/
def execHdrPopTag (c : CtxId) (s : State) : Res := .next (fieldStep 6 (hdrIs 5) doHdr c s)
/-- HDR_SET_LENGTH (R151). -/
def execHdrSetLength (c : CtxId) (s : State) : Res := .next (fieldStep 6 (hdrIs 6) doHdr c s)
/-- COUNTER_BUMP (R151). -/
def execCounterBump (c : CtxId) (s : State) : Res := .next (fieldStep 7 (fun w => mwCnt w != 0) doCnt c s)
/-- MICROCODE_EVENT (R151). -/
def execMicrocodeEvent (c : CtxId) (s : State) : Res := .next (fieldStep 8 (fun w => mwEvt w != 0) doEvt c s)
/-- FLAG_SET (R151). -/
def execFlagSet (c : CtxId) (s : State) : Res := .next (fieldStep 9 (flgIs 1) doFlg c s)
/-- FLAG_CLEAR (R151). -/
def execFlagClear (c : CtxId) (s : State) : Res := .next (fieldStep 9 (flgIs 2) doFlg c s)
/-- FLAG_TOGGLE (R151). -/
def execFlagToggle (c : CtxId) (s : State) : Res := .next (fieldStep 9 (flgIs 3) doFlg c s)

end Sys2Proof.Machine
end

