-- ==== Sys2Proof/Machine/Engine.lean ====
section
/-! DEFINITION. The engines (R152 to R162): sequencing and conditions, the end of a dispatch, landing, dispatch and reorder. -/

namespace Sys2Proof.Machine

/-! ### Conditions (R154) -/

/-- The channel of a context on a cluster of the allocation role (R22, R165, R166): the clusters of that role in ascending order take 32
channels each, and each channel has its host engine. Context 1 of an engine that stands in for a lost one has that one's channel. -/
def ctxChannel (s : State) (c : CtxId) : Option Nat :=
  if roleOf s c.k = 1 then
    let rank := (List.range c.k).countP (fun j => roleOf s j == 1)
    let mine := (List.range 32).map (32 * rank + ·)
    if rank < 3 then
      match (if c.x = 1 then mine.find? (fun n => channelHost s n == 64 + c.e) else none) with
      | some n => some n
      | none => mine.find? (fun n => channelHost s n == c.e)
    else none
  else none

/-- The tick of the frame at which a grid condition from 56 on holds, if it has one. -/
def gridTick (s : State) (c : CtxId) (n : Nat) : Option Nat :=
  let alc := (ctxChannel s c).map (fun m => pgALC (m / 3) (m % 3))
  match n with
  | 56 => alc.map (fun b => gtPerFrame - fld s b ALC_BUILD_GT)
  | 57 => alc.map (fun b => tOut - fld s b ALC_CLOSE_GT)
  | 58 | 59 => some 0
  | 60 | 61 | 62 | 63 => some (fld s (pgENG c.k) (ENG_GRID_TMR.at (n - 60)))
  | _ => none

/-- The frames of a grid second. -/
def framesPerSecond : Nat := 8000

/-- Does condition n hold for a context (R154)? -/
def condHolds (s : State) (c : CtxId) (n : Nat) : Bool :=
  let x := ctx s c
  if n = 0 then true
  else if n < 16 || n = 40 then bitAt x.conds n
  else if n < 24 then bitAt x.pkt.record (n - 16)
  else if n < 32 then bitAt x.flags (n - 24)
  else if n < 40 then bitAt (tget dzero (cluster s c.k).sh (n - 32)) 0
  else match n with
    | 41 => x.stack == []
    | 42 => x.loop == 0
    | 43 => x.irq
    | 59 => (now s).tick == 0 && frame s % framesPerSecond == 0
    | _ => gridTick s c n == some (now s).tick

/-- Does the condition that a word selects hold, with its polarity? -/
def wordCond (s : State) (c : CtxId) (w : BitVec 160) : Bool := condHolds s c (mwWait w) != mwPol w

/-! ### Sequencing (R152, R156, R157) -/

/-- The call stack's depth (R148). -/
def stackMax : Nat := 8

/-- A word is done: its ALU results become the previous ones, and the counts of words go up. -/
def wordDone (s : State) (c : CtxId) (w : BitVec 160) : State :=
  let x := ctx s c
  let l := x.latch.getD ⟨0, 0, 0, 0, 0⟩
  setCtx s c { x with prevA := l.ra, prevB := l.rb, latch := none, acted := 0, words := x.words + 1,
                      sinceSafe := if mwSafe w then 0 else x.sinceSafe + 1 }

/-- Go to the next address. At a safe point a pending interrupt is taken by a call of its entry vector, and a context that the host
stops is stopped (R157). -/
def goTo (s : State) (c : CtxId) (w : BitVec 160) (next : Nat) : State :=
  let x := ctx s c
  let a := next % 2 ^ 14
  if !mwSafe w then setCtx s c { x with pc := a }
  else if x.irq && stackMax ≤ x.stack.length then ctxFault s c cStack
  else
    let y := if x.irq then { x with stack := a :: x.stack, pc := entryVector s c.k x.bank 5, irq := false } else { x with pc := a }
    setCtx s c { y with halted := y.stop }

/-- MEM_CONFLICT holds for one word, the next one issued (R150): it is clear again after it. -/
def seenConflict (s : State) (c : CtxId) : State := setCtx s c ((ctx s c).cond 7 false)

/-- The first reserved SEQ code (R152). -/
def seqReserved : Nat := 11

/-- The word of a sequencing command: it acts whole, then `next` does what SEQ says (R152). A word with a reserved SEQ acts whole and
faults, whichever command issues it. -/
def seqStep (code : Nat) (next : State → CtxId → BitVec 160 → State) (c : CtxId) (s : State) : State :=
  let w := wordOf s c
  if !mayIssue s c || (mwSeq w != code && mwSeq w < seqReserved) then s
  else
    let r := beginWord s c
    if r.2 then
      let t := wordDone (restOfWord r.1 c w) c w
      seenConflict (if mwSeq w < seqReserved then next t c w else ctxFault t c cIllegal) c
    else r.1

/-- This address + 1. -/
def nextPc (s : State) (c : CtxId) : Nat := (ctx s c).pc + 1

/-- SEQ_GO (R152). -/
def execSeqGo (c : CtxId) (s : State) : Res := .next (seqStep 0 (fun s c w => goTo s c w (mwNext w)) c s)

/-- SEQ_WAIT (R152, R156): a condition that already holds costs no wait. -/
def execSeqWait (c : CtxId) (s : State) : Res :=
  .next (seqStep 1 (fun s c w =>
    if wordCond s c w then goTo s c w (mwNext w)
    else setCtx s c { ctx s c with st := 3, wait := some (mwWait w, mwPol w) }) c s)

/-- SEQ_BR (R152). -/
def execSeqBr (c : CtxId) (s : State) : Res :=
  .next (seqStep 2 (fun s c w => goTo s c w (if wordCond s c w then mwNext w else nextPc s c)) c s)

/-- SEQ_CALL (R152, R158): a call with 8 entries pushed faults. -/
def execSeqCall (c : CtxId) (s : State) : Res :=
  .next (seqStep 3 (fun s c w =>
    let x := ctx s c
    if stackMax ≤ x.stack.length then ctxFault s c cStack
    else goTo (setCtx s c { x with stack := (nextPc s c % 2 ^ 14) :: x.stack }) c w (mwNext w)) c s)

/-- SEQ_RET (R152, R158): a return on an empty stack faults. -/
def execSeqRet (c : CtxId) (s : State) : Res :=
  .next (seqStep 4 (fun s c w =>
    match (ctx s c).stack with
    | [] => ctxFault s c cStack
    | a :: l => goTo (setCtx s c { ctx s c with stack := l }) c w a) c s)

/-- SEQ_MWAY (R152): the low 4 bits of the ALU A result choose among 16 addresses. -/
def execSeqMway (c : CtxId) (s : State) : Res :=
  .next (seqStep 5 (fun s c w => goTo s c w (mwNext w + (ctx s c).prevA % 16)) c s)

/-- SEQ_LOOP (R152). -/
def execSeqLoop (c : CtxId) (s : State) : Res :=
  .next (seqStep 6 (fun s c w =>
    let n := ((ctx s c).loop + 2 ^ 64 - 1) % 2 ^ 64
    goTo (setCtx s c { ctx s c with loop := n }) c w (if n ≠ 0 then mwNext w else nextPc s c)) c s)

/-- SEQ_TRAP (R152, R158). -/
def execSeqTrap (c : CtxId) (s : State) : Res := .next (seqStep 10 (fun s c _ => ctxFault s c cTrap) c s)

/-- A wait on a grid condition is not timed (R156). -/
def untimed (n : Nat) : Bool := 56 ≤ n

/-- WAIT_CONDITION_MET (R149, R156): the condition holds and the context is READY. A grid condition brings the grid to its tick. How
many cycles the wait took is free (log entry 3). -/
def execWaitConditionMet (c : CtxId) (s : State) : Res :=
  let x := ctx s c
  match x.st, x.wait with
  | 3, some (n, pol) =>
    let s1 := match gridTick s c n with
      | some t => if pol || n = 58 || n = 59 then s else reachTick s t
      | none => s
    if condHolds s1 c n == pol then .next s
    else
      let w := wordOf s c
      let most := if untimed n then cntMax else 2 ^ fld s (pgENG c.k) ENG_WAIT_TMO - 1
      let s2 := bump (drawFree s1) (pgENG c.k) ENG_C_WAIT_CYCLES (min most (freeVal s1))
      .next (goTo (setCtx s2 c { ctx s2 c with st := 1, wait := none }) c w (mwNext w))
  | _, _ => .next s

/-- WAIT_TIMEOUT (R156): a timed wait has reached WAIT_TMO cycles. -/
def execWaitTimeout (c : CtxId) (s : State) : Res :=
  let x := ctx s c
  match x.st, x.wait with
  | 3, some (n, _) =>
    if untimed n then .next s
    else .next (ctxFault (bump s (pgENG c.k) ENG_C_WAIT_CYCLES (2 ^ fld s (pgENG c.k) ENG_WAIT_TMO)) c cWaitTmo)
  | _, _ => .next s

/-- WATCHDOG (R157): the word about to issue is the 1,024th since the last safe point and is none. -/
def execWatchdog (c : CtxId) (s : State) : Res :=
  if mayIssue s c && (ctx s c).latch.isNone && overWatch s c then .next (ctxFault s c cWatchdog) else .next s

/-- RUN_OVER (R157): the word about to issue would be past RUN_MAX words. -/
def execRunOver (c : CtxId) (s : State) : Res :=
  if mayIssue s c && (ctx s c).latch.isNone && overRun s c then .next (ctxFault s c cRunOver) else .next s

/-! ### Reorder (R161) -/

/-- The reason and the cause that a punted packet's descriptor gives (R244). -/
def puntReason (p : Packet) : Nat × Nat :=
  if p.record % 2 = 1 then (1, p.record / 256 % 16) else if p.at_.isSome then (2, 0) else (0, 0)

/-- A packet as a frame toward the host. -/
def toHostFrame (p : Packet) : HostFrame :=
  ⟨p.len, p.bytes, (puntReason p).1, (puntReason p).2, p.src, p.slice, p.at_, p.handle⟩

/-- Free the buffer of a packet that leaves the stage without being queued. -/
def freePacket (s : State) (p : Packet) (party : Nat) : State :=
  match p.handle with
  | some h => settlePools s (freeBuf s h party false)
  | none => s

/-- A forwarded packet passes to enqueue or, with a host ring selected, to that ring. One whose microcode has enqueued it itself has
no buffer left, and nothing more happens to it. -/
def forward (s : State) (p : Packet) (party : Nat) : State :=
  if p.handle = none then s
  else if 2 ^ 17 ≤ p.qsel && p.qsel < noSelect then toRing s (p.qsel - 2 ^ 17) (toHostFrame p) party
  else settlePools s (enqueue s p.qsel p false party none).1

/-- A punted packet goes to the host ring of its slice (R244). -/
def punt (s : State) (p : Packet) (party : Nat) : State := puntFrame s p.slice (toHostFrame p) party

/-- What the release of a verdict does (R161), with the trace record of point 5 (R331). -/
def releaseVerdict (s : State) (b src seq : Nat) (v : Verdict) : State :=
  match v with
  | .forward p => forward (trace (bump s b RDR_C_RELEASED 1) b 5 0 p.tag noQueue p.len 0) p (rdrParty p)
  | .punt p => punt (trace (bump s b RDR_C_PUNTED 1) b 5 2 p.tag noQueue p.len 0) p (rdrParty p)
  | .drop m => trace (bump s b RDR_C_DROPPED 1) b 5 1 (m.map (fun i => (i, src, seq))) noQueue 0 0
  | .skip m => trace (note s b RDR_F_SKIP RDR_C_SKIPPED) b 5 3 (m.map (fun i => (i, src, seq))) noQueue 0 0

/-- The verdict of a source that can be released: of its next packet, if the slot is filled. -/
def RdrSrc.ready (r : RdrSrc) : Option Held := r.held.find? (fun h => h.seq == r.next)

/-- The source that slice k releases from next: round robin over its sources with a packet to release, from the one after the last
(R161). -/
def rdrTurn (s : State) (k : Nat) : Option Nat :=
  let l := (s.eng.rdr.filter (fun e => e.1 % 16 == k && e.2.ready.isSome)).map (·.1)
  (l.find? (fun src => tget dzero s.eng.rdrPick k ≤ src)).or l.head?

/-- REORDER_RELEASE (R161): the next packet of a source, if its slot is filled and the source has its slice's turn; a command for
another one releases nothing (log entry 54). -/
def execReorderRelease (src : Fin 17440) (s : State) : Res :=
  let r := rdrSrc s src
  let k := src.val % 16
  match (if rdrTurn s k = some src.val then r.ready else none) with
  | none => .next s
  | some h =>
    let b := pgRDR k
    let s0 : State := { s with eng := { s.eng with rdrPick := tset dzero s.eng.rdrPick k (src + 1) } }
    let s1 := setRdrSrc s0 src { r with held := r.held.erase h, next := (r.next + 1) % 65536, slots := r.slots - 1 }
    let s2 := if h.waited then bump s1 b RDR_C_HELD 1 else s1
    .next (showSlots (releaseVerdict s2 b src h.seq h.verdict) k)

/-- Fill the slot of a packet (R161). A number that no working device fills drops the packet, sets SEQ_ERR and notifies the fault
collector; the slot it held is free. -/
def fill (s : State) (p : Packet) (v : Verdict) : State :=
  let k := p.src % 16
  let r := rdrSrc s p.src
  if seqBad r p.seq then
    let s1 := freePacket (setRdrSrc s p.src { r with slots := r.slots - 1 }) p (rdrParty p)
    notice (showSlots (note s1 (pgRDR k) RDR_F_SEQ_ERR RDR_C_SEQ_ERR) k) k none
  else showSlots (fillSlot s p.src p.seq v) k

/-! ### The end of a dispatch (R152) -/

/-- The verdicts of SEQ 7 to 9. -/
inductive Ending where
  | done
  | drop
  | punt
  deriving DecidableEq, Repr

/-- The counter of an ending (R169). -/
def Ending.counter : Ending → Nat
  | .done => ENG_C_DONE
  | .drop => ENG_C_DROPS
  | .punt => ENG_C_PUNTS

/-- The verdict that an ending leaves. -/
def Ending.verdict (e : Ending) (p : Packet) : Verdict :=
  match e with
  | .done => .forward p
  | .punt => .punt p
  | .drop => .drop p.mark

/-- Forget the requests of a context that wait for a buffer. -/
def dropWaits (s : State) (c : CtxId) : State :=
  { (dropRequests s c).1 with cls := s.cls }

/-- A context's dispatch ends (R12, R149, R152, R161): its packet's buffer passes to the reorder stage, or is freed by a drop; its slot
is filled; it is IDLE. A context without a slot passes its packet on at once (R161). -/
def endDispatch (s : State) (c : CtxId) (e : Ending) : State :=
  let x := ctx s c
  let p := x.pkt
  let s1 := setCtx (dropWaits (bump s (pgENG c.k) e.counter 1) c) c x.ended
  let s2 := match p.handle with
    | some h => if e = .drop then settlePools s1 (freeBuf s1 h (tagCtx c) false) else passBuf s1 h (tagCtx c) (rdrParty p)
    | none => s1
  if x.slot then fill s2 (if e = .drop then { p with handle := none } else p) (e.verdict p)
  else match e with
    | .done => forward s2 p (rdrParty p)
    | .punt => punt s2 p (rdrParty p)
    | .drop => s2

/-- SEQ_DONE (R152). -/
def execSeqDone (c : CtxId) (s : State) : Res := .next (seqStep 7 (fun s c _ => endDispatch s c .done) c s)
/-- SEQ_DROP (R152). -/
def execSeqDrop (c : CtxId) (s : State) : Res := .next (seqStep 8 (fun s c _ => endDispatch s c .drop) c s)
/-- SEQ_PUNT (R152). -/
def execSeqPunt (c : CtxId) (s : State) : Res := .next (seqStep 9 (fun s c _ => endDispatch s c .punt) c s)

/-! ### Landing (R160, R170 to R174) -/

/-- The direction of a source (R160, R174); none for the reserved numbers. -/
def srcDir (src : Nat) : Option Dir :=
  if src < 16384 then some .upstream else if src < 16408 then some .downstream else if src < 16416 then none else some .host

/-- The requester that asks for a landing buffer (R201). -/
def landingReq : Dir → Nat
  | .downstream => 1
  | .upstream => 2
  | .host => 3

/-- What an earlier stage handed over with a frame: its quarantine buffer, where it arrived, and META. -/
structure Arrival where
  handle : Option Nat
  at_ : Option Pos
  meta_ : Nat
  deriving DecidableEq, Repr

/-- Take the oldest frame that an earlier stage handed over from this source with this length and these bytes (R12, R13, R243); a frame
that none handed over lands as it is (log entry 13). -/
def takeArrival (s : State) (src len : Nat) (bytes : List Byte) : State × Arrival :=
  match srcDir src with
  | some .upstream =>
    match s.pon.upSdu.find? (fun f => f.src == src && f.len == len && f.bytes == bytes) with
    | some f => ({ s with pon := { s.pon with upSdu := s.pon.upSdu.erase f } }, ⟨none, none, 0⟩)
    | none => (s, ⟨none, none, 0⟩)
  | some .downstream =>
    match s.link.rx.find? (fun f => 16384 + f.port == src && f.len == len && f.bytes == bytes) with
    | some f => (checkFlow { s with link := { s.link with rx := s.link.rx.erase f } } f.port, ⟨f.handle, if f.ptp then some f.at_ else none, 0⟩)
    | none => (s, ⟨none, none, 0⟩)
  | _ =>
    match s.link.h2d.find? (fun f => 16416 + f.ring == src && f.len == len && f.bytes == bytes) with
    | some f => ({ s with link := { s.link with h2d := s.link.h2d.erase f } }, ⟨none, none, f.meta_⟩)
    | none => (s, ⟨none, none, 0⟩)

/-- The slice of a packet (R174): the owner of an ONU or a host ring; of an uplink frame what VID_SLICE gives for its outer VID. -/
def packetSlice (s : State) (src : Nat) (r : Parse) : Nat :=
  if src < 16384 then onuOwner s (src / 512) (src % 512)
  else if src < 16416 then (if r.tags = [] then 0 else vidSlice s (r.vid 0))
  else ringOwner s (src - 16416)

/-- Count what the parser found (R172, R190 PRS). -/
def countParse (s : State) (r : Parse) : State :=
  let b := pgPRS
  let one := fun (t : State) (yes : Bool) (i : Nat) => if yes then bump t b i 1 else t
  let s1 := one (one (one (one (bump s b PRS_C_PARSED 1) r.v4 PRS_C_IPV4) r.v6 PRS_C_IPV6) r.pppoe PRS_C_PPPOE)
    (r.tags.length == 3) PRS_C_TAG_DEPTH_3
  match r.cause with
  | some j => bump (flag s1 b ⟨PRS_MAL.off, j, 0x0C0 + 4 * j, 0⟩) b j 1
  | none => s1

/-- A refused landing buffer is a tail drop at the receiving FIFO (R201). -/
def landingDrop (s : State) (src : Nat) : State :=
  if 16384 ≤ src && src < 16408 then note s (pgETH (src - 16384)) ETH_F_FIFO_DROP ETH_C_RX_FIFO_DROP else s

/-- A landed frame as a packet (R160, R171, R174): it takes the next number of its source. -/
def land (s : State) (src : Nat) (d : Dir) (len : Nat) (bytes : List Byte) (h : Nat) (a : Arrival) : State :=
  let r := parse bytes len (fld s pgPRS PRS_TPID_C1) (fld s pgPRS PRS_TPID_C2)
  let slice := packetSlice s src r
  let x := rdrSrc s src
  let (s1, mark) := drawMark (setRdrSrc (countParse s r) src { x with seq := (x.seq + 1) % 65536 })
  let p : Packet := { Packet.none with
    src := src, seq := x.seq, dir := d, slice := slice, len := len, bytes := bytes, handle := some h, record := r.record slice,
    key := r.legendKey d src, mark := mark, meta_ := a.meta_, at_ := a.at_ }
  trace { s1 with eng := { s1.eng with landing := s1.eng.landing ++ [p] } } pgPRS 1 0 p.tag noQueue len 0

/-- PACKET_LANDING (R12, R13, R160, R174): the frame takes a landing buffer, or keeps the one its quarantine took. -/
def execPacketLanding (src : Fin 17440) (dir : Dir) (len : Nat) (bytes : List Byte) (s : State) : Res :=
  if srcDir src ≠ some dir then .next s
  else
    let req := landingReq dir
    let (s1, a) := takeArrival s src len bytes
    match a.handle with
    | some h => .next (settlePools s (land (passBuf s1 h tagQuarantine (tagLanding req)) src dir len bytes h a))
    | none =>
      match askBytes s1 req (tagLanding req) 0 len with
      | some (h, s2) => .next (settlePools s (land s2 src dir len bytes h a))
      | none =>
        let w := waitOrRefuse s1 ⟨req, len, .landing src len bytes a.at_ a.meta_⟩
        .next (publishPools (if w.2 then w.1 else landingDrop w.1 src))

/-- Grant a request of a pool's wait queue, when a buffer for it is to be had (R201); `pre` are the requests ahead of it, which no buffer
can be had for, and `post` the ones behind. -/
def grantWait (s : State) (pool : Nat) (pre : List WaitReq) (w : WaitReq) (post : List WaitReq) : State :=
  let s0 := setWaitQ s pool pre
  let behind := fun (t : State) => setWaitQ t pool (pre ++ post)
  match w.who with
  | .quarantine q f at_ => (f.macsec.elim (some s0) (fun m => quarantine s0 q f m at_)).elim s behind
  | .landing src len bytes at_ m =>
    match srcDir src with
    | none => behind s0
    | some d =>
      match allocBytes s0 w.req (tagLanding w.req) 0 len with
      | some (h, s1) => behind (land s1 src d len bytes h ⟨none, at_, m⟩)
      | none => s
  | .merge p g f => (holdFragment s0 p g f).elim s behind
  | .engine c =>
    match allocBytes s0 w.req (tagCtx c) 1 w.bytes with
    | some (h, s1) => behind (answerBpm s1 c { UnitRes.plain with handle := some (some h) })
    | none => s
  | .enqueue k p repl owner c =>
    match enqueue s0 k p repl owner c with
    | (_, .waits) => s
    | (s1, out) => behind (answerTmq s1 c out)
  | .prefetch k => (prefetch s0 k).elim s behind
  | .migrate x => (migrateOne s0 x).elim s behind

/-- BUFFER_WAIT_GRANT (R201): first come, first served among the requests that a buffer can be had for. -/
def execBufferWaitGrant (pool : Fin 4) (s : State) : Res :=
  let l := waitQ s pool
  match l.dropWhile (fun w => !servable s w) with
  | [] => .next s
  | w :: post => .next (settlePools s (grantWait s pool (l.takeWhile (fun w => !servable s w)) w post))

/-! ### Dispatch (R159) -/

/-- The engines in dispatch order: engine 0 of every packet cluster, then engine 1, and so on. -/
def dispatchOrder (s : State) : List (Fin 16 × Fin 33) :=
  let ks : List (Fin 16) := (List.finRange 16).filter (fun k => roleOf s k.val == 0)
  (List.finRange 32).flatMap (fun e => ks.map (fun k => (k, ⟨e.val, by omega⟩)))

/-- The lowest IDLE context of an engine. -/
def idleCtx (s : State) (p : Fin 16 × Fin 33) : Option CtxId := (ctxsOf p.1 p.2).find? (fun c => (ctx s c).st == 0)

/-- The next context in the order from a place on, with the place after it (R159). -/
def nextCtx (s : State) (l : List (Fin 16 × Fin 33)) (at_ : Nat) : Option (CtxId × Nat) :=
  (List.range l.length).findSome? (fun i =>
    let j := (at_ + i) % l.length
    match l[j]? with
    | none => none
    | some p =>
      let q := placed s p
      if engineServes s q then (idleCtx s q).map (fun c => (c, (j + 1) % l.length)) else none)

/-- The packet as a context holds it: the parse record in lr30 and lr31 (R171), its first 128 bytes in the header window (R148), META of
a host descriptor in gp0 (R243). -/
def loadPacket (s : State) (c : CtxId) (p : Packet) : State :=
  let x := ctx s c
  setCtx s c { x with
    lr := tset dzero (tset dzero x.lr 30 (p.record / 2 ^ 32)) 31 (p.record % 2 ^ 32), hw := hwOf p.bytes,
    gp := if p.dir = .host then tset dzero x.gp 0 p.meta_ else x.gp, slot := true, pkt := p }

/-- The action of a malformed packet (R173). -/
def causeAction (s : State) (p : Packet) : Nat := fld s pgPRS PRS_CAUSE_ACT / 4 ^ (p.record / 256 % 16) % 4

/-- Hand a packet to a context (R12, R159, R173). -/
def dispatch (s : State) (c : CtxId) (p : Packet) : State :=
  let r := rdrSrc s p.src
  let s1 := showSlots (setRdrSrc s p.src { r with slots := r.slots + 1 }) (p.src % 16)
  let s2 := match p.handle with
    | some h => passBuf s1 h (tagLanding (landingReq p.dir)) (tagCtx c)
    | none => s1
  let s3 := trace (loadPacket (bump s2 (pgENG c.k) ENG_C_DISPATCHES 1) c p) (pgENG c.k) 2 0 p.tag noQueue p.len 0
  if p.record % 2 = 0 then beginAt s3 c (dirCode p.dir)
  else if causeAction s p = 0 then endDispatch s3 c .drop
  else if causeAction s p = 1 then endDispatch s3 c .punt
  else beginAt (setPkt s3 c { p with cls := fld s pgPRS PRS_DEF_CLASS, colour := fld s pgPRS PRS_DEF_COLOUR }) c (dirCode p.dir)

/-- PACKET_DISPATCH (R159): the oldest landed packet, when there is an IDLE context and a free slot. -/
def execPacketDispatch (s : State) : Res :=
  match s.eng.landing with
  | [] => .next s
  | p :: l =>
    match nextCtx s (dispatchOrder s) s.eng.turn with
    | none => .next s
    | some (c, t) =>
      if 2048 ≤ slotsHeld s then .next (note s (pgRDR (p.src % 16)) RDR_F_SLOT_WAIT RDR_C_SLOT_WAITS)
      else .next (settlePools s (dispatch { s with eng := { s.eng with landing := l, turn := t } } c p))

end Sys2Proof.Machine
end

