-- ==== Sys2Proof/Machine/EngineCmd.lean ====
section
/-! DEFINITION. Changing engines and microcode in service (R23, R163 to R167): the control store's load and read, the swap, the spare,
a lost engine and the role map. -/

namespace Sys2Proof.Machine

/-! ### The control store (R163, R164) -/

/-- Is bank B the inactive one of a cluster? -/
def inactiveB (s : State) (k : Nat) : Bool := !isSet s (pgUCS k) UCS_ACTIVE_BANK

/-- A bank's words, and new ones for it. -/
def bankOf (s : State) (k : Nat) (b : Bool) : Tbl (BitVec 160) := if b then (cluster s k).bankB else (cluster s k).bankA
def setBank (s : State) (k : Nat) (b : Bool) (t : Tbl (BitVec 160)) : State :=
  setCluster s k (if b then { cluster s k with bankB := t } else { cluster s k with bankA := t })

/-- A microword from its data words, data word 0 first (R151). -/
def joinWord (l : List Word) : BitVec 160 := BitVec.ofNat 160 (l.foldr (fun w a => a * 2 ^ 32 + w.toNat) 0)

/-- The data words of a microword, data word 0 first. -/
def splitWord (w : BitVec 160) : List Word := (List.range 5).map (fun i => BitVec.ofNat 32 (w.toNat >>> (32 * i)))

/-- The CRC of an image of n words (R163): 20 bytes a word, data word 4 first. -/
def imageCrc (t : Tbl (BitVec 160)) (n : Nat) : Nat := crc32 ((List.range n).flatMap (fun i => beBytes (tget dword t i).toNat 20))

/-- A refused load write. -/
def rejectLoad (s : State) (k : Nat) : State := flag s (pgUCS k) UCS_F_LOAD_REJ

/-- UCS_LOAD_WORD (R163, R168): the write of data word 4 stores a word in the inactive bank. Refused while a swap is pending and beyond
LOAD_LEN. -/
def execUcsLoadWord (o : Origin) (k : Fin 16) (data : Word) (s : State) : Res :=
  let b := pgUCS k
  .next (ownWrite o (b + UCS_LOAD_DATA0_4.off + 16) (fun s =>
    let a := fld s b UCS_LOAD_ADDR
    let n := fld s b UCS_LOAD_LEN
    if isSet s b UCS_SWAP_PENDING then (rejectLoad s k, 8)
    else if n ≤ a then (rejectLoad s k, 1)
    else
      let i := inactiveB s k
      let t := tset dword (bankOf s k i) a (joinWord ((cluster s k).loadWord ++ [data]))
      let s1 := setFld (setFld (setBank s k i t) b UCS_LOAD_ADDR (a + 1)) b UCS_CALC_CRC (imageCrc t n)
      (bump s1 b UCS_C_WORDS_LOADED 1, 0)) s)

/-- UCS_READ_WORD (R169): a write of RD_ADDR and RD_BANK latches the word. -/
def execUcsReadWord (o : Origin) (k : Fin 16) (data : Word) (s : State) : Res :=
  let b := pgUCS k
  .next (ownWrite o (b + UCS_RD_ADDR.off) (fun s =>
    let s1 := setFld (setFld s b UCS_RD_ADDR (bitsOf data 0 14)) b UCS_RD_BANK (bitsOf data 16 1)
    (setWords s1 (b + UCS_RD_DATA0_4.off) (splitWord (tget dword (bankOf s k (bitsOf data 16 1 == 1)) (bitsOf data 0 14))), 0)) s)

/-- SWAP_CMD (R164). The image of the new bank is LOAD_LEN words long. -/
def execSwapCmd (o : Origin) (k : Fin 16) (s : State) : Res :=
  let b := pgUCS k
  .next (ownWrite o (b + UCS_SWAP_CMD.off) (fun s =>
    if isSet s b UCS_SWAP_PENDING || fld s b UCS_CALC_CRC != fld s b UCS_LOAD_CRC then (flag s b UCS_F_SWAP_REJ, 8)
    else
      let old := isSet s b UCS_ACTIVE_BANK
      let x := cluster s k
      let n := fld s b UCS_LOAD_LEN
      let y := if old then { x with lenA := n } else { x with lenB := n }
      let s1 := setCluster s k { y with oldBank := old }
      (bump (setBit (setBit s1 b UCS_ACTIVE_BANK (!old)) b UCS_SWAP_PENDING true) b UCS_C_SWAPS 1, 0)) s)

/-- The contexts of a cluster. -/
def clusterCtxs (k : Fin 16) : List CtxId := (List.finRange 33).flatMap (fun e => ctxsOf k e)

/-- Runs an allocation pass of a cluster in the old bank still: begun in it, and its map not sealed (R164)? -/
def passRuns (s : State) (k : Nat) : Bool :=
  roleOf s k == 1 &&
  let rank := (List.range k).countP (fun j => roleOf s j == 1)
  (List.range 32).any (fun e =>
    let n := 32 * rank + e
    let a := allocCh s (n / 3) (n % 3)
    a.bank == (cluster s k).oldBank && a.map.any (fun m => !m.sealed_))

/-- SWAP_DONE (R164): no context of the cluster runs in the old bank any more. -/
def execSwapDone (k : Fin 16) (s : State) : Res :=
  let b := pgUCS k
  let busy := passRuns s k || (clusterCtxs k).any (fun c =>
    let x := ctx s c
    x.st != 0 && x.bank == (cluster s k).oldBank)
  if !isSet s b UCS_SWAP_PENDING || busy then .next s
  else .next (post (flag (setBit s b UCS_SWAP_PENDING false) b UCS_F_SWAP_DONE) b .swapDone [])

/-! ### The spare (R165, R166) -/

/-- SPARE_FOR of a cluster whose spare replaces none. -/
def spareNone : Nat := 63

/-- The engine of a cluster that the regulation pass checks (R328). -/
def checked (s : State) (k : Nat) : Option Nat := tget dnone s.tst.check k

/-- Is the spare free to replace an engine (R165): it replaces none, does not drain, works, is not lost and not under check itself? -/
def spareFree (s : State) (k : Nat) : Bool :=
  fld s (pgENG k) ENG_SPARE_FOR == spareNone && (cluster s k).leaving != some 32 && !isSet s (pgENG k) ENG_SPARE_BAD &&
    !(cluster s k).lost.contains 32 && checked s k != some 32

/-- An engine begins to drain. -/
def drainFrom (s : State) (k e : Nat) : State :=
  setBit (setCluster s k { cluster s k with leaving := some e }) (pgENG k) ENG_DRAINING true

/-- The spare takes an engine's place (R165). -/
def retire (s : State) (k e : Nat) : State :=
  bump (setFld (drainFrom s k e) (pgENG k) ENG_SPARE_FOR e) (pgENG k) ENG_C_SPARE_SWAPS 1

/-- SPARE_RETIRE (R165): SPARE_CMD 1. -/
def execSpareRetire (o : Origin) (k : Fin 16) (e : Fin 32) (s : State) : Res :=
  .next (ownWrite o (pgENG k + ENG_SPARE_CMD.off) (fun s =>
    if spareFree s k then (retire s k e, 0) else (flag s (pgENG k) ENG_F_SPARE_REJ, 8)) s)

/-- An engine that the spare replaces is back in service from the next dispatch, and the spare drains (R165). -/
def reinstate (s : State) (k e : Nat) : State :=
  let s1 := setFld s (pgENG k) ENG_SPARE_FOR spareNone
  drainFrom (setCluster s1 k { cluster s1 k with lost := (cluster s1 k).lost.filter (· != e) }) k 32

/-- SPARE_REINSTATE (R165): SPARE_CMD 2. An engine that the spare does not replace is not retired, and nothing changes. -/
def execSpareReinstate (o : Origin) (k : Fin 16) (e : Fin 32) (s : State) : Res :=
  .next (ownWrite o (pgENG k + ENG_SPARE_CMD.off) (fun s =>
    if fld s (pgENG k) ENG_SPARE_FOR = e then (reinstate s k e, 0) else (s, 8)) s)

/-- ENGINE_DRAINED (R165): all four contexts of the engine that drains are IDLE. One that the regulation pass checks begins its check
routine at entry vector 6 (R328). -/
def execEngineDrained (k : Fin 16) (e : Fin 33) (s : State) : Res :=
  if (cluster s k).leaving = some e.val ∧ (ctxsOf k e).all (fun c => (ctx s c).st == 0) then
    let s1 := setBit (setCluster s k { cluster s k with leaving := none }) (pgENG k) ENG_DRAINING false
    .next (if checked s k = some e.val then beginWork s1 ⟨k, e, 0⟩ 6 else s1)
  else .next s

/-- ENGINE_LOST (R166): its contexts fault, and the spare is retired in where it may. -/
def execEngineLost (k : Fin 16) (e : Fin 33) (s : State) : Res :=
  let x := cluster s k
  let s1 := setCluster s k { x with lost := if x.lost.contains e.val then x.lost else e.val :: x.lost }
  let s2 := (ctxsOf k e).foldl (fun t c => ctxFault t c cFenced) s1
  if e.val < 32 && fld s2 (pgENG k) ENG_SPARE_FOR == e.val then .next s2
  else if e.val < 32 && spareFree s2 k && isSet s2 (pgENG k) ENG_AUTO_SPARE then .next (retire s2 k e)
  else .next (post (flag s2 (pgENG k) ENG_F_ENGINE_LOST) (pgENG k) .engineLost [e])

/-! ### Roles (R22, R23, R167) -/

/-- The role that a map gives cluster k. -/
def mapRole (w : Word) (k : Nat) : Nat := bitsOf w (2 * k) 2

/-- Does a role map hold exactly three allocation clusters, one supervision cluster and no reserved code (R23)? -/
def rolesOk (w : Word) : Bool :=
  let l := (List.range 16).map (mapRole w)
  l.count 1 == 3 && l.count 2 == 1 && l.count 3 == 0

/-- ROLE_MAP_WRITE (R23, R167): an accepted map takes effect at the second frame boundary after the write. -/
def execRoleMapWrite (o : Origin) (data : Word) (s : State) : Res :=
  .next (ownWrite o (pgDEV + DEV_ROLE_MAP.off) (fun s =>
    if data = reg s (pgDEV + DEV_ROLE_MAP.off) then (s, 0)
    else if isSet s pgDEV ANY_LOCK then (s, 3)
    else if rolesOk data then
      let s1 := setReg s (pgDEV + DEV_ROLE_MAP.off) data
      ({ s1 with eng := { s1.eng with roles := some (data, frame s + 2) } }, 0)
    else (flag s pgDEV DEV_F_ROLE_REJ, 1)) s)

/-- ROLE_CHANGE_APPLY (R167). -/
def execRoleChangeApply (s : State) : Res :=
  match s.eng.roles with
  | none => .next s
  | some (w, f) =>
    if frame s < f then .next s
    else
      let s1 := (List.range 16).foldl (fun t k => setFld t (pgENG k) ENG_ROLE (mapRole w k)) s
      let s2 : State := { s1 with eng := { s1.eng with roles := none } }
      .next (post (note s2 pgDEV DEV_F_ROLE_DONE DEV_C_ROLE_CHANGES) pgDEV .roleDone [])

end Sys2Proof.Machine
end

