-- ==== Sys2Proof/Machine/Frame.lean ====
section
/-! DEFINITION. The grid's own doings: a timed action that fires (R19), the frame boundary with the downstream frames, defects, ticks
and mirror (R5, R14, R45, R54 to R57, R62, R64, R66, R67, R83, R141, R192, R219, R275, R278), the step of a frame (R35, R36), and the grid
second (R66, R70, R256, R259). -/

namespace Sys2Proof.Machine

/-! ### Timed actions -/

/-- What fires (R19): the sideband pulses and preloads of the burst receiver act; a map emission and a ToD insertion were made when they
were posted, for this position. -/
def fireAction (s : State) (a : Action) : State :=
  match a.kind with
  | .brst p c => brstPulse s p c
  | .preload p c => phasePreload s p c
  | .rssi p c => rssiPulse s p c
  | _ => s

/-- TIMED_ACTION_FIRE (R19): posted action i, in posting order, once the grid has reached its position. -/
def execTimedActionFire (i : Nat) (s : State) : Res :=
  match s.grid.posted[i]? with
  | none => .next s
  | some a =>
    if a.pos.fineIndex ≤ (now s).fineIndex then
      .next (fireAction { s with grid := { s.grid with posted := s.grid.posted.eraseIdx i } } a)
    else .next s

/-! ### PLOAM messages of a frame (R56, R57, R100) -/

/-- May a message enter the frame whose PLOAM section starts now: its push completed at least 32 gt before (R57)? DESIGN CHOICE (log
entry 35): the section counts as starting at f:0, although the frame's header and map come before it. -/
def ploamReady (s : State) (m : Ploam) : Bool := m.at_.fineIndex + 32 * finePerGt ≤ (now s).fineIndex

/-- Ranging_Time has gone out (R100, R111): a record ranged goes to REGISTER or OPERATION; a correction counts from here. -/
def rangingSent (s : State) (p i : Nat) : State :=
  let r := onu s p i
  let g := rng s p i
  let g1 := if g.adj then { g with adjSent := frame s } else g
  if g.ranged && r.state == stRanging then
    let s1 := setRng s p i { g1 with ranged := false, reranging := false, rangingSent := some (frame s), since := frame s }
    setOnuState s1 p i (if r.mtch = 2 ∨ r.mtch = 3 then stRegister else stOperation)
  else setRng s p i g1

/-- A Deactivate_ONU-ID has gone out (R69, R100): the next of the three is pushed, and the third ends DEACT. -/
def deactSent (s : State) (p i : Nat) : State :=
  let n := (rng s p i).deacts + 1
  let s1 := setRng s p i { rng s p i with deacts := n }
  if n < 3 then sendTo s1 p i .deactivate
  else if (onu s1 p i).state = stDeact then deactComplete s1 p i
  else s1

/-- What the sending of a message does to the record it concerns. -/
def ploamEffect (s : State) (p : Nat) (m : Ploam) : State :=
  match m.body with
  | .assign => setRng s p m.onu { rng s p m.onu with assignSent := some (frame s) }
  | .rangingTime _ => rangingSent s p m.onu
  | .deactivate => deactSent s p m.onu
  | .keySwitch _ => s
  | .host _ => s
  | .idle => s

/-- The record that a message counts for: the one it concerns, or the one whose ONU-ID the host wrote (log entry 25). -/
def ploamRecord (s : State) (p c : Nat) (m : Ploam) : Option Nat :=
  match m.body with
  | .host ws =>
    let w := ws.headD 0
    findOnu s p c (if c = 0 then bitsOf w 24 8 else bitsOf w 16 10)
  | _ => some m.onu

/-- The kind and the argument of a message of the supervision cluster, as Config.ploamContent numbers them. -/
def PloamBody.kind : PloamBody → Nat × Nat
  | .assign => (0, 0)
  | .rangingTime n => (1, n)
  | .deactivate => (2, 0)
  | .keySwitch f => (3, f)
  | .host _ | .idle => (4, 0)

/-- The words of a message: 3 on G, 12 on X and H, whose last two are the MIC's place (R56). -/
def ploamWords (c : Nat) (m : Ploam) : List Word :=
  match m.body with
  | .host ws => ws
  | b => (wordsOfBits 12 (Config.ploamContent c b.kind.1 m.onuId b.kind.2).toNat).take (if c = 0 then 3 else 12)

/-- The key of a message's MIC (R56): the integrity key of the ONU it concerns, or the broadcast default where it concerns none or that
ONU has none. -/
def ploamKey (s : State) (p c : Nat) (m : Ploam) : BitVec 128 :=
  match ploamRecord s p c m with
  | some i => if (keyEntry s (512 * p + i)).ploam = 0 then Config.ploamDefault else (keyEntry s (512 * p + i)).ploam
  | none => Config.ploamDefault

/-- A message with the CRC or the MIC that the device computes for it (R56). -/
def signPloam (s : State) (p c : Nat) (m : Ploam) : PloamTx :=
  let ws := ploamWords c m
  ⟨m, ws, if c = 0 then (Config.ploamCrc (BitVec.ofNat 96 (bitsOfWords (ws.take 3)))).toNat
    else (Config.ploamMic (ploamKey s p c m) (BitVec.ofNat 320 (bitsOfWords (ws.take 10)))).toNat⟩

/-- Put a message into the PLOAM section of the present frame. -/
def addSection (s : State) (p c : Nat) (m : Ploam) : State :=
  setChSt s p c { chSt s p c with section_ := (chSt s p c).section_ ++ [signPloam s p c m] }

/-- The idle PLOAM of a G frame for which no message is ready (R56); it is not counted. -/
def idlePloam (s : State) : Ploam := ⟨.idle, 512, 255, now s⟩

/-- One message goes out (R56, R72). -/
def sendPloam (p c : Nat) (s0 : State) (m : Ploam) : State :=
  let s := addSection s0 p c m
  let s1 := match ploamRecord s p c m with
    | some i => dsBump s p c i ONU_C_DS_PLOAM CH_C_DS_PLOAM 1
    | none => bump s (pgCH p c) CH_C_DS_PLOAM 1
  ploamEffect s1 p m

/-- The PLOAM section of a frame (R56): one message on G, an idle one where none is ready, up to PLOAM_PER_FRAME on X and H, the urgent
queue first. -/
def sendPloams (s : State) (p c : Nat) : State :=
  let b := pgCH p c
  let ch := chSt s p c
  let cap := if c = 0 then 1 else fld s b CH_PLOAM_PER_FRAME
  let u := (ch.urgent.takeWhile (ploamReady s)).take cap
  let n := (ch.normal.takeWhile (ploamReady s)).take (cap - u.length)
  let ch1 := { ch with urgent := ch.urgent.drop u.length, normal := ch.normal.drop n.length }
  let s1 := setFld (setFld (setChSt s p c ch1) b CH_URG_FILL ch1.urgent.length) b CH_NORM_FILL ch1.normal.length
  if c = 0 ∧ u ++ n = [] then addSection s1 p c (idlePloam s) else (u ++ n).foldl (sendPloam p c) s1

/-! ### Keys downstream (R219 to R221) -/

/-- The longest payload of a GEM or XGEM frame (R52). -/
def gemMax (c : Nat) : Nat := if c = 0 then 4095 else 16383

/-- What sealing adds to a payload (R220). -/
def sealBytes : Nat := 24

/-- The PN at which a sealed slot warns, and the last one (R221). -/
def sealWarnAt : Nat := 2 ^ 48 - 2 ^ 32
def sealLast : Nat := 2 ^ 48 - 1

/-- The frames of use of a G key, and what is left at its warning (R219). -/
def gSpan : Nat := 2 ^ 30
def gLeft : Nat := 2 ^ 14

/-- A flag of the KEY page, with its event to the owner of ONU node u. -/
def keyRaise (s : State) (u : Nat) (f : Flag) : State :=
  postTo (flag s pgKEY f) pgKEY (onuOwner s (u / 512) (u % 512)) (.flag f.off f.bit) [u]

/-- Store a downstream slot with its marks, raising PN_WARN and PN_EXHAUST as they come up. -/
def putSlot (s : State) (u j : Nat) (k : KeySlot) (warn spent : Bool) : State :=
  let e := keyEntry s u
  let s1 := setKeyEntry s u (e.withSlot false j { k with warned := k.warned || warn, exhausted := k.exhausted || spent })
  let s2 := if warn && !k.warned then keyRaise s1 u KEY_F_PN_WARN else s1
  if spent && !k.exhausted then keyRaise s2 u KEY_F_PN_EXHAUST else s2

/-- The slot that encrypts what goes to ONU node u on channel c (R63, R219, R221): its number and MODE. -/
def dsSlot (s : State) (p c u : Nat) : Option (Nat × Nat) :=
  let e := keyEntry s u
  match e.dsActive with
  | none => none
  | some j =>
    let m := (e.slot false j).mode
    if m = 0 || !isSet s (pgCH p c) CH_ENC_EN then none else some (j, m)

/-- One encrypted frame leaves (R221): a sealed one takes the slot's PN. -/
def useSlot (s : State) (u j m : Nat) : State :=
  let k := (keyEntry s u).slot false j
  let k1 := { k with cnts := k.cnts.set 0 (min cntMax (k.cnts.getD 0 0 + 1)) }
  if m = 2 then putSlot s u j { k1 with pn := min sealLast (k.pn + 1) } (sealWarnAt ≤ k.pn + 1) (k.pn == sealLast)
  else putSlot s u j k1 false false

/-- A G key at a frame boundary (R219): its PN counts the frames of its use. -/
def countKey (s : State) (u : Nat) : State :=
  let e := keyEntry s u
  match e.dsActive with
  | none => s
  | some j =>
    let k := e.slot false j
    let n := min gSpan ((frame s + frameMod - k.since) % frameMod)
    if (onu s (u / 512) (u % 512)).ch = 0 && k.mode != 0 && !k.exhausted then
      putSlot s u j { k with pn := n } (gSpan - gLeft ≤ n) (n == gSpan)
    else s

/-! ### Payload of a frame (R55, R62, R141, R192) -/

/-- The payload bytes of the next fragment of `left` bytes where `room` bytes of payload fit (R55); 0 where none is sent. -/
def cutOf (room left : Nat) : Nat :=
  if room < 8 then 0
  else if left ≤ room then left
  else if left < 16 then 0
  else
    let n := if left - room < 8 then left - 8 else room
    if n < 8 then 0 else n

/-- The ONU node that an entry's frames are encrypted for. -/
def entryNode (p : Nat) (e : XpEntry) : Option Nat := if e.mcast then none else some (512 * p + e.onu)

/-- Note a GEM or XGEM frame in what the present downstream frame carries. -/
def addFrag (s : State) (p c : Nat) (g : FragTx) : State := setChSt s p c { chSt s p c with frags := (chSt s p c).frags ++ [g] }

/-- The key index that a frame encrypted in slot j carries (R63, R64); on G, whose header has no key index, the slot's number and 1. -/
def keyIndex (c j : Nat) : Nat := if c = 0 then j + 1 else firstSlot c + j

/-- Send what fits of an SDU into the `b` bytes left of the frame (R55, R64): the bytes left after it. One whose key is spent waits
(R221). -/
def sendPart (p c : Nat) : Nat → State → DsPart → Nat → State × DsPart × Nat
  | 0, s, x, b => (s, x, b)
  | fuel + 1, s, x, b =>
    let node := entryNode p (xpEntry s x.flow)
    let key := node.bind (fun u => (dsSlot s p c u).map (fun k => (u, k)))
    let extra := match key with
      | some (_, _, 2) => sealBytes
      | _ => 0
    let n := if (node.map (keyHeld s)).getD false then 0 else cutOf (min (b - gemHeader c - extra) (gemMax c - extra)) x.left
    if n = 0 then (s, x, b)
    else
      let s1 := match key with
        | some (u, j, m) => useSlot s u j m
        | none => s
      let x1 := { x with left := x.left - n }
      let s2 := addFrag s1 p c ⟨(xpEntry s x.flow).portId, n, (key.map (fun k => keyIndex c k.2.1)).getD 0,
        (key.map (fun k => k.2.2 == 2)).getD false, x1.left == 0, if x.left = x.len then x.head else []⟩
      let b1 := b - (gemHeader c + extra + n)
      if x1.left = 0 then (s2, x1, b1) else sendPart p c fuel s2 x1 b1

/-- The channel frees the buffer of an SDU that it has done with (R12, R203, R204). -/
def freePart (s : State) (p c : Nat) (x : DsPart) : State :=
  match x.handle with
  | some h => settlePools s (freeBuf s h (tagChannel (3 * p + c)) true)
  | none => s

/-- The last byte of an SDU has left (R72, R203, R331): its buffer is freed. -/
def endPart (s : State) (p c : Nat) (x : DsPart) : State :=
  let e := xpEntry s x.flow
  let s1 := match entryNode p e with
    | some u => dsBump (dsBump s p c (u % 512) ONU_C_DS_SDU CH_C_DS_SDU 1) p c (u % 512) ONU_C_DS_BYTES CH_C_DS_BYTES x.len
    | none => bump (bump s (pgCH p c) CH_C_DS_SDU 1) (pgCH p c) CH_C_DS_BYTES x.len
  trace (freePart s1 p c x) (pgCH p c) 8 0 x.mark (x.queue % 65536) x.len 0

/-- The payload bytes that are left in a channel's present frame. -/
def roomOf (s : State) (p c : Nat) : Nat := (chSt s p c).room
def setRoom (s : State) (p c n : Nat) : State := setChSt s p c { chSt s p c with room := n }

/-- The last n bytes of a frame are idle (R54, R55): nothing more goes into it. -/
def idleFill (s : State) (p c n : Nat) : State := setRoom (bump s (pgCH p c) CH_C_DS_IDLE_BYTES n) p c 0

/-- Send an SDU into the frame, keeping what does not fit for the next frame (R55). -/
def framePart (p c : Nat) (a : State × Nat) (x : DsPart) : State × Nat :=
  match sendPart p c 8 a.1 x a.2 with
  | (s, y, b) =>
    if y.left = 0 then (endPart s p c y, b)
    else (setChSt s p c { chSt s p c with parts := (chSt s p c).parts ++ [y] }, b)

/-- The SDUs begun before continue first (R55). -/
def continueParts (s : State) (p c b : Nat) : State × Nat :=
  (chSt s p c).parts.foldl (framePart p c) (setChSt s p c { chSt s p c with parts := [] }, b)

/-- The entry of a bonded member's XGEM port. -/
def memberEntry (s : State) (p c portId : Nat) : Option Nat :=
  (s.pon.xp.find? (fun e => e.1 / 8192 == p && e.2.valid && e.2.ch == c && e.2.portId == portId)).map (·.1)

/-- Does an entry carry downstream traffic (R62)? -/
def entryDown (e : XpEntry) : Bool := e.valid && (e.dir == 1 || e.dir == 3)

/-- The header of the next fragment of a unit of group g, in the present frame on channel c (R139). -/
def headOf (s : State) (r : Grp) (g c : Nat) (f : QFrame) (last : Bool) : List Nat :=
  (fragBytes ⟨1, f.sent == 0, last, r.dsSeq, g, c == 2, frame s % 65536, true⟩).map (·.toNat)

/-- The framer's pull passes the buffer of an SDU to the channel (R12, R203). -/
def pullBuf (s : State) (p c q h : Nat) : State := passBuf s h (queueParty q) (tagChannel (3 * p + c))

/-- Take the chosen head frame of queue q under ONU node u out of its queue: an SDU, or the next fragment of a bonded group's unit with
its 8-byte header (R139, R141). The whole length is charged (R192), and the buffer passes to the channel (R12, R203). -/
def takeSdu (s : State) (p c u q : Nat) (f : QFrame) : State × DsPart :=
  match groupOfQueue s q with
  | some (gp, g, r) =>
    let s1 := serveTags s u q (headLen s q)
    match serveFragment s1 gp g c f with
    | (s2, n, last) =>
      let flow := (memberEntry s p c (if c = 1 then r.xgemX else r.xgemH)).getD (8192 * p)
      let s3 := if last then pullBuf (popHead s2 q) p c q f.handle else setFrame s2 q 0 { f with sent := f.sent + n }
      (s3, ⟨q, if last then some f.handle else none, flow, n + 8, n + 8, if last then f.mark else none, headOf s r g c f last⟩)
  | none => (pullBuf (popHead (serveTags s u q f.len) q) p c q f.handle, ⟨q, some f.handle, f.flow, f.len, f.len, f.mark, []⟩)

/-- An SDU without a downstream entry is dropped at the pull and its buffer freed (R62). -/
def dropNoPort (s : State) (p c : Nat) (x : DsPart) : State :=
  trace (freePart (flag s (pgPON p) PON_F_DS_NO_PORT) p c x) (pgCH p c) 8 1 x.mark (x.queue % 65536) x.len 0

/-- The answer to a pull (R192): the chosen SDU into the `b` bytes left of the frame. One that is dropped leaves them for the next pull. -/
def servePull (s : State) (p c u q b : Nat) : State :=
  match (queueOf s q).frames with
  | [] => idleFill s p c b
  | f :: _ =>
    match takeSdu s p c u q f with
    | (s1, x) =>
      let s2 := emptyOver s1 q
      if entryDown (xpEntry s2 x.flow) then
        match framePart p c (s2, b) x with
        | (s3, b1) => if (chSt s3 p c).parts.length = (chSt s2 p c).parts.length then setRoom s3 p c b1 else idleFill s3 p c b1
      else setRoom (dropNoPort s2 p c x) p c b

/-- Does a channel's framer send frames: its page and DS_EN on, the channel enabled on its port (R54, R72)? -/
def framerOn (s : State) (p c : Nat) : Bool :=
  active s (pgCH p c) CH_DS_EN && isSet s (pgPON p) ANY_ENABLE && bitAt (fld s (pgPON p) PON_CH_EN) c

/-- Does a framer pull: the port's laser on, and the port past its SETTLE (R192, R271)? -/
def framerPulls (s : State) (p : Nat) : Bool := txdis s p == txLow && fullMaps s p

/-- The SDU that TMS committed to an earlier pull and answered late, while it stands at the head of its queue still (R192). -/
def offered (s : State) (p c : Nat) : Option (Nat × Nat) :=
  match (chSt s p c).offer with
  | some (u, q, h) => if (queueOf s q).frames.head?.any (fun f => f.handle == h) then some (u, q) else none
  | none => none

/-- What a pull gets (R192): the SDU that is offered again, or a new choice, which is committed and counted. -/
def choose (s : State) (p c : Nat) : State × Option (Nat × Nat) :=
  match offered s p c with
  | some x => (s, some x)
  | none =>
    match channelChoice s (3 * p + c) with
    | some (u, q) => (bump s pgTMS TMS_C_CHOICES 1, some (u, q))
    | none => (s, none)

/-- Keep the SDU that a late answer chose for the next pull, or forget it (R192). -/
def keepOffer (s : State) (p c : Nat) (x : Option (Nat × Nat)) : State :=
  let o := x.bind (fun y => (queueOf s y.2).frames.head?.map (fun f => (y.1, y.2, f.handle)))
  setChSt s p c { chSt s p c with offer := o }

/-- A pull that finds nothing to serve (R192, R196). -/
def emptyPull (s : State) (p c b : Nat) : State :=
  let n := 3 * p + c
  let s1 := if waiting s lvChannel n && !shaperOk s lvChannel n then bump s pgTMS TMS_C_SHAPER_HOLDS 1 else s
  idleFill (bump s1 pgTMS TMS_C_PULLS_EMPTY 1) p c b

/-- One pull of channel `x.ch`, which names the bytes left in the frame (R192), of which it cannot have more than are left; what it leaves
out is idle. There is none where not even a header with 8 bytes fits (R55). A late answer leaves its SDU to the next pull. -/
def framePull (s : State) (x : Pull) : State :=
  let p := x.ch.val / 3
  let c := x.ch.val % 3
  let room := roomOf s p c
  let b0 := min x.bytes room
  if !framerOn s p c || room = 0 then s
  else if !framerPulls s p then idleFill s p c room
  else match continueParts (bump s (pgCH p c) CH_C_DS_IDLE_BYTES (room - b0)) p c b0 with
    | (s1, b) =>
      if b < gemHeader c + 8 then idleFill s1 p c b
      else
        match choose (bump s1 pgTMS TMS_C_PULLS 1) p c with
        | (s2, pick) =>
          if x.late then idleFill (keepOffer (note s2 pgTMS TMS_F_PULL_LATE TMS_C_PULL_LATE) p c pick) p c b
          else match pick with
            | some (u, q) => servePull (keepOffer s2 p c none) p c u q b
            | none => emptyPull s2 p c b

/-- Does pull y go before pull x, of the same core cycle and the other member of a bonded group that both would be served from (R141): the
lower S first, ties to X? -/
def goesFirst (s : State) (x y : Pull) : Bool :=
  x.cycle == y.cycle && x.ch.val / 3 == y.ch.val / 3 && x.ch.val % 3 + y.ch.val % 3 == 3 && x.ch != y.ch &&
  match channelChoice s x.ch, channelChoice s y.ch with
  | some (_, q), some (_, k) =>
    q == k && (match groupOfQueue s q with
      | some (_, _, r) => if y.ch.val % 3 = 1 then r.sX ≤ r.sH else r.sH < r.sX
      | none => false)
  | _, _ => false

/-- Pulls in order, those of one cycle as R141 lays down. -/
def runPulls : Nat → List Pull → State → State
  | 0, _, s => s
  | _ + 1, [], s => s
  | n + 1, x :: l, s =>
    match l.find? (goesFirst s x) with
    | some y => runPulls n (x :: l.erase y) (framePull s y)
    | none => runPulls n l (framePull s x)

/-- The pulls of a frame, by cycle. -/
def takePulls (s : State) (l : List Pull) : State := runPulls l.length (l.insertionSort (fun x y => x.cycle ≤ y.cycle)) s

/-- The framers with room left in their frame go on pulling, each once a turn, until nothing is offered (R54, R192): then idle fills
what is left (log entry 41). -/
def fillFrames (l : List Nat) : Nat → State → State
  | 0, s => s
  | n + 1, s =>
    let open_ := l.filter (fun k => roomOf s (k / 3) (k % 3) != 0)
    if open_ = [] then s
    else fillFrames l n (takePulls s (open_.map (fun k => ⟨Fin.ofNat 96 k, roomOf s (k / 3) (k % 3), false, 0⟩)))

/-- More turns than a frame has room for: an H frame of 777,600 bytes, an XGEM frame of at least 16. -/
def pullsMost : Nat := 50000

/-- The FEC codewords of a downstream frame (R52, R54; log entry 25). -/
def fecPerFrame (c : Nat) : Nat := if c = 0 then 153 else if c = 1 then 628 else 360

/-- The bytes of a downstream frame on the line, and the parity bytes of its FEC (R52; log entry 25). -/
def dsFrameBytes (c : Nat) : Nat := if c = 0 then 38880 else if c = 1 then 155520 else 777600
def fecBytes (c : Nat) : Nat := fecPerFrame c * (if c = 0 then 16 else if c = 1 then 32 else 336)

/-- The header bytes of a downstream frame without its map and PLOAM section, of a structure of the map, and of a PLOAM message (R52, R56;
log entry 25). -/
def frameHeader (c : Nat) : Nat := if c = 0 then 17 else 28
def structBytes : Nat := 8
def ploamBytes (c : Nat) : Nat := if c = 0 then 13 else 48

/-- The payload bytes of a channel's frame (R54): what its map of `n` structures, its PLOAM section and its FEC leave. -/
def payloadBytes (s : State) (p c n : Nat) : Nat :=
  dsFrameBytes c - (if isSet s (pgCH p c) CH_DS_FEC then fecBytes c else 0) - frameHeader c - structBytes * n -
    ploamBytes c * (chSt s p c).section_.length

/-- The superframe counter of a channel in a frame (R45). -/
def superframeOf (c f : Nat) : Nat := if c = 0 then f % 2 ^ 30 else f

/-- A new downstream frame: its superframe counter (R45), and nothing in it yet. -/
def newFrame (s : State) (p c : Nat) : State :=
  setChSt s p c { chSt s p c with superframe := superframeOf c (frame s), room := 0, frags := [], section_ := [], cut := 0 }

/-- A channel's framer begins its frame (R54): the map of this frame, or an empty one that is counted, FEC, the PLOAM section, and the
room for payload. The emission of the map was posted for this boundary (R19). -/
def openFrame (s : State) (p c : Nat) : State :=
  let b := pgCH p c
  let s0 := newFrame (unpost s (.mapOut p c)) p c
  if !framerOn s p c then s0
  else
    let s1 := bump s0 b CH_C_DS_FRAMES 1
    let mapped : Bool := (chSt s p c).lastMap == some (frame s)
    let s2 := if mapped then s1 else bump s1 b CH_C_EMPTY_MAP_FRAMES 1
    let s3 := sendPloams (if isSet s b CH_DS_FEC then bump s2 b CH_C_DS_FEC_CW (fecPerFrame c) else s2) p c
    setRoom s3 p c (payloadBytes s3 p c (if mapped then (chSt s p c).mapStructs else 0))

/-! ### Defects of a frame (R66, R67) -/

/-- LOS_CH of a channel (R66): four frames with grants outstanding and no valid burst raise it, a valid burst clears it. -/
def evalLosCh (s : State) (p c : Nat) : State :=
  let ch := chSt s p c
  let n := if ch.gotBurst then 0 else if ch.granted then min 4 (ch.losRun + 1) else ch.losRun
  let s1 := setChSt s p c { ch with losRun := n, granted := false, gotBurst := false }
  let is_ := isSet s (pgCH p c) CH_LOS_CH_ACTIVE
  if is_ && ch.gotBurst then reportLosCh s1 p c false
  else if !is_ && 4 ≤ n then reportLosCh s1 p c true
  else s1

/-- The frames of LOS_CH on every enabled channel of a port in a pair (R277). -/
def countLos (s : State) (p : Nat) : State :=
  let r := pair s p
  let on := (List.range 3).filter (bitAt (fld s (pgPON p) PON_CH_EN) ·)
  if !r.en then s
  else if on != [] && on.all (fun c => isSet s (pgCH p c) CH_LOS_CH_ACTIVE) then setPair s p { r with losRun := min 255 (r.losRun + 1) }
  else setPair s p { r with losRun := 0 }

/-- The reports of every record with a defect, brought up to date at the boundary (R67). -/
def syncAll (s : State) : State :=
  (s.pon.onu.filter (fun e => e.2.defects != 0 || e.2.reported != 0)).foldl (fun t e => syncReports t (e.1 / 512) (e.1 % 512)) s

/-! ### Pairs at the boundary (R268 to R271, R275, R278) -/

/-- The records of the standby port of a pair on the device follow those of the active port, with the residual of R276 (R278). -/
def copyRecords (s : State) (p q : Nat) : State :=
  let move := fun (k : Nat) => 512 * q + k % 512
  let s1 : State := { s with pon := { s.pon with
    onu := (s.pon.onu.filter (fun e => e.1 / 512 == p)).foldl (fun t e => tset OnuRec.init t (move e.1) e.2)
      (s.pon.onu.filter (fun e => e.1 / 512 != q))
    rng := (s.pon.rng.filter (fun e => e.1 / 512 == p)).foldl (fun t e =>
        let c := (onu s p (e.1 % 512)).ch
        let res := 256 * ((fld s (pgRNG p c) RNG_US_OFFSET : Int) - (fld s (pgRNG q c) RNG_US_OFFSET : Nat)) + e.2.res + (pair s q).delta
        tset RngRec.init t (move e.1) { e.2 with res := res })
      (s.pon.rng.filter (fun e => e.1 / 512 != q)) } }
  refreshUse s1 q

/-- A KIND 0 pair on internal paths (R278): the active side hears the standby side's tick, which rewinds its lease; its lease is armed
while its peer is in STANDBY; the standby side's records follow. -/
def internalPair (s : State) (p : Nat) : State :=
  match localPeer s p with
  | none => s
  | some q =>
    let f := frame s
    let r := pair s p
    let ready : Bool := (pair s q).state == pStandby
    let s1 := if f % 2 = 0 then applyNext (setPair s p { r with heard := some f }) p else s
    let r1 := pair s1 p
    let s2 :=
      if r1.state = pActive then
        setPair s1 p { r1 with armed := ready, expiry := if ready && (f % 2 == 0 || !r1.armed) then f + r1.lease else r1.expiry }
      else s1
    if ready && (r1.state == pActive || r1.state == pSettle) then copyRecords s2 p q else s2

/-- A KIND 1 pair sends its records in a VC 0 message every frame (R275). -/
def sendMirror (s : State) (p : Nat) : State :=
  let r := pair s p
  if r.en && r.kind == 1 && hexUp s r.link then sendMsg s r.link 0 [] (freeVal s % 16384 + 1) none else s

/-- One roll-call map fewer is to come (R271). -/
def countRollcall (s : State) (p : Nat) : State :=
  let r := pair s p
  if r.rollcall = 0 then s else setPair s p { r with rollcall := r.rollcall - 1 }

/-! ### The frame boundary -/

/-- The commanded start or stop of the performance counters (R330). -/
def goCounters (s : State) : State :=
  match s.tst.go with
  | some b => { s with tst := { s.tst with running := b, go := none } }
  | none => s

/-- What a port does at a boundary. -/
def portBoundary (s : State) (p : Nat) : State :=
  let s1 := countRollcall (internalPair (countLos s p) p) p
  let s2 := (List.range 3).foldl (fun t c => openFrame t p c) (refreshTx (sendMirror s1 p) p)
  (validGroups s2 p).foldl (fun t g => groupBoundary t p g.1) s2

/-- The interrupts that records wait for (R300). -/
def ringBoundary (s : State) : State :=
  (s.evt.rings.filter (fun e => e.2.pend != 0)).foldl (fun t e => ringIrq t (e.1 / 15) (e.1 % 15)) s

/-- The ports on which something is set up: those whose pages or records differ from reset, and those in a pair. -/
def portsInUse (s : State) : List Nat :=
  (List.range 32).filter (fun p =>
    fld s (pgPON p) PON_CH_EN != 0 || (portOnus s p) != [] || (pair s p).en || (pair s p).custody || txdis s p != txUndriven ||
      (validGroups s p) != [])

/-- The channels of the ports in use. -/
def channelsInUse (s : State) : List Nat := (portsInUse s).flatMap (fun p => (List.range 3).map (3 * p + ·))

/-- The channels that hold something, by their number. -/
def channelsKept (s : State) : List Nat := s.pon.ch.map (·.1)

/-- FRAME_BOUNDARY (R5): the grid reaches f:0 of the next frame, and the per-frame work runs: key switches that are due come before the
frames (R64). `pulls` are pulls of the framers in this frame with their core cycles (R141, R192); what they leave of a frame its framer
goes on to fill. -/
def execFrameBoundary (pulls : List Pull) (s : State) : Res :=
  if !s.grid.running then .next s
  else
    let s1 := goCounters (gridBoundary s)
    let s2 := (List.range 3).foldl judgeSlot s1
    let s3 := (List.range 96).foldl (fun t n =>
      if tget ChSt.init t.pon.ch n = ChSt.init n then t else evalLosCh t (n / 3) (n % 3)) s2
    let s4 := (channelsKept s3).foldl (fun t n => switchKeys t (n / 3) (n % 3)) (ageFrame (syncAll s3))
    let s5 := (s4.keys.map (·.1)).foldl countKey s4
    if !released s then .next (ringBoundary s5)
    else
      let s6 := (channelsKept s5).foldl (fun t n => drainSupervision t (n / 3) (n % 3)) s5
      let s7 := (portsInUse s6).foldl portBoundary s6
      .next (ringBoundary (fillFrames (channelsInUse s7) pullsMost (takePulls s7 pulls)))

/-! ### The step of a frame (R35, R36) -/

/-- The bytes that a downstream line carries in a gt. -/
def dsByteGt (c : Nat) : Nat := dsLineBits c / 8

/-- A step shortens or lengthens the downstream frame of a channel (R36): a lengthened one is padded with idle. -/
def stepFrame (fine : Int) (s : State) (n : Nat) : State :=
  let p := n / 3
  let c := n % 3
  let s1 := setChSt s p c { chSt s p c with superframe := superframeOf c (frame s), cut := fine }
  if framerOn s p c then bump s1 (pgCH p c) CH_C_DS_IDLE_BYTES (fine.toNat * dsByteGt c / finePerGt) else s1

/-- Apply a step to the frame that begins now (R35, R36): the frame lasts 19,440 gt plus the step; posted actions that a shortened frame
cuts off do not fire and each posts a late-action event; the framers truncate or pad their frames. -/
def applyStep (s : State) (st : StepReq) : State :=
  let len := ((finePerFrame : Int) + st.fine).toNat
  let f := ((((frame s : Int) + st.jump) % (frameMod : Int))).toNat
  let cut := fun (a : Action) => a.pos.frame == frame s && len ≤ a.pos.tick * finePerGt + a.pos.fine
  let s1 := { s with grid := { s.grid with
    frameLen := len, residual := s.grid.residual - st.fine, otherPhase := s.grid.otherPhase.map (· - st.fine),
    now := { s.grid.now with frame := f }, posted := s.grid.posted.filter (fun a => !cut a) } }
  let s2 := (s.grid.posted.filter cut).foldl (fun s a => lateAction s a.base) s1
  (channelsInUse s2).foldl (stepFrame st.fine) s2

/-- STEP_APPLY (R33, R35, R263): at the boundary of the step frame ONU_IN_OP decides. -/
def execStepApply (s : State) : Res :=
  match s.grid.step with
  | none => .next s
  | some st =>
    if frame s = st.frame ∧ s.grid.now.tick = 0 ∧ s.grid.now.fine = 0 then
      let inOp := isSet s pgGRD GRD_ONU_IN_OP
      let s0 := { s with grid := { s.grid with step := none } }
      if !inOp || st.force then
        .next (post (flag (applyStep s0 st) pgGRD GRD_F_STEP_DONE) pgGRD (.stepDone (inOp && st.force)) [])
      else
        .next (match st.by_ with
          | .command => raise s0 pgGRD GRD_F_STEP_REJECT []
          | .alignment => s0
          | .join => raise s0 pgPRT PRT_F_GM_MISMATCH [])
    else .next s

/-! ### The grid second (R66, R70, R256, R259) -/

/-- Seconds that the counters are committed late, and of consecutive SES or none that begin or end unavailability (R70). -/
def pmDelay : Nat := 10

/-- The first `n` seconds of a pipeline, newest first, count as unavailable or not. -/
def markUas (n : Nat) (b : Bool) (l : List PmSec) : List PmSec := ((l.take n).map (fun x => { x with uas := b })) ++ l.drop n

/-- Classify the second just ended (R70) and take it into the pipeline, with the one that is committed. -/
def PmRec.second (m : PmRec) (pct : Nat) : PmRec × Option PmSec :=
  let es : Bool := m.errored != 0
  let ses : Bool := (m.blocks != 0 && pct * m.blocks ≤ 100 * m.errored) || m.defect
  let sr := if ses then m.sesRun + 1 else 0
  let cr := if ses then 0 else m.clearRun + 1
  let l : List PmSec := ⟨es, ses, m.unavail⟩ :: m.secs
  let m1 : PmRec :=
    if !m.unavail && pmDelay ≤ sr then { m with unavail := true, secs := markUas pmDelay true l }
    else if m.unavail && pmDelay ≤ cr then { m with unavail := false, secs := markUas pmDelay false l }
    else { m with secs := l }
  let m2 := { m1 with sesRun := min pmDelay sr, clearRun := min pmDelay cr }
  ({ m2 with secs := m2.secs.take pmDelay }, m2.secs[pmDelay]?)

/-- Clear what a second counted; `defect` is what is still reported. -/
def PmRec.fresh (m : PmRec) (defect : Bool) : PmRec := { m with blocks := 0, errored := 0, bits := 0, errs := 0, defect := defect }

/-- The counters of a committed second: of ES, SES and UAS those to raise, as offsets 0 to 2 (R70). -/
def PmSec.counts (x : PmSec) : List Nat := if x.uas then [2] else (if x.es then [0] else []) ++ (if x.ses then [1] else [])

/-- Is the ratio errs / n at least 10^-x, or below 10^-(x+1)? -/
def ratioBad (errs n x : Nat) : Bool := n ≤ errs * 10 ^ x
def ratioGood (errs n x : Nat) : Bool := errs * 10 ^ (x + 1) < n

/-- SFi or SDi of a record after a second with bits (R66). -/
def signalFail (s : State) (p i d x : Nat) (m : PmRec) : State :=
  if m.bits = 0 then s
  else if ratioBad m.errs m.bits x then raiseDefect s p i d
  else if ratioGood m.errs m.bits x then clearDefect s p i d
  else s

/-- The second of a record. -/
def onuSecond (s : State) (p i : Nat) : State :=
  let b := pgPON p
  let m := pmRec s p i
  if !(onu s p i).valid then setPmRec s p i (PmRec.init 0)
  else
    let r := if isSet s b PON_PM_EN then m.second (fld s b PON_SES_PCT) else (m, none)
    let s1 := setPmRec s p i r.1
    let s2 := ((r.2.map PmSec.counts).getD []).foldl (fun t j => onuBump t p i (ONU_C_ES + j) 1) s1
    let s3 := signalFail (signalFail s2 p i dSFi (fld s b PON_SF_EXP) m) p i dSDi (fld s b PON_SD_EXP) m
    setPmRec s3 p i ((pmRec s3 p i).fresh ((onu s3 p i).reported != 0))

/-- The second of a channel (R70). DESIGN CHOICE (log entry 35): its SES counts errored blocks and LOS_CH, and no defect reported of an
ONU. -/
def channelSecond (s : State) (p c : Nat) : State :=
  let b := pgPON p
  let n := 3 * p + c
  let r := if isSet s b PON_PM_EN then (chPm s n).second (fld s b PON_SES_PCT) else (chPm s n, none)
  let s1 := setChPm s n (r.1.fresh (isSet s (pgCH p c) CH_LOS_CH_ACTIVE))
  ((r.2.map PmSec.counts).getD []).foldl (fun t j => bump t (pgCH p c) (CH_C_ES + j) 1) s1

/-- The second of a Hexca link (R256, R259). -/
def linkSecond (s : State) (m : Nat) : State :=
  let b := pgMSH m
  let h := hex s m
  if !active s b MSH_LINK_EN then s
  else
    let r := h.pm.second (fld s b MSH_SES_PCT)
    let s1 := setHex s m { h with pm := r.1.fresh (fld s b MSH_DEFECTS % 32 != 0) }
    let s2 := ((r.2.map PmSec.counts).getD []).foldl (fun t j => bump t b (MSH_C_ES + j) 1) s1
    let x := fld s b MSH_SD_EXP
    if h.pm.blocks = 0 then s2
    else if ratioBad h.pm.errored h.pm.blocks x then setLinkDefect s2 m lSD true
    else if ratioGood h.pm.errored h.pm.blocks x then setLinkDefect s2 m lSD false
    else s2

/-- GRID_SECOND (R70): at the boundary of a frame whose number is a multiple of 8,000, once. -/
def execGridSecond (s : State) : Res :=
  let k := frame s / framesPerSecond
  if !s.grid.running || frame s % framesPerSecond != 0 || s.grid.second == k then .next s
  else
    let s0 : State := { s with grid := { s.grid with second := k } }
    let s1 := (s.pon.pm.map (·.1)).foldl (fun t e => onuSecond t (e / 512) (e % 512)) s0
    let s2 := (s.pon.chPm.map (·.1)).foldl (fun t n => channelSecond t (n / 3) (n % 3)) s1
    .next ((List.range 3).foldl linkSecond s2)

end Sys2Proof.Machine
end

