-- ==== Sys2Proof/Machine/Optics.lean ====
section
/-! DEFINITION. The SerDes lanes (R232 to R235) and the optics' I2C masters (R248). -/

namespace Sys2Proof.Machine

/-! ### Lanes -/

/-- The STATUS bits of a lane (R260 SDS). -/
def lsSig : Nat := 0
def lsCdr : Nat := 1
def lsPrbs : Nat := 2
def lsScan : Nat := 3
def lsUse : Nat := 4

def laneStatus (s : State) (l bit : Nat) : Bool := bitAt (fld s (pgSDS l) SDS_STATUS) bit
def setLaneStatus (s : State) (l bit : Nat) (b : Bool) : State := setFld s (pgSDS l) ⟨SDS_STATUS.off, bit, 1, 0⟩ b.toNat

/-- MARGIN_SCAN_GO (R235): a write of MS_GO; refused while MS_BUSY is 1. -/
def execMarginScanGo (o : Origin) (l : Fin 268) (s : State) : Res :=
  .next (ownWrite o (pgSDS l + SDS_MS_GO.off) (fun s =>
    if laneStatus s l lsScan then (s, 4) else (setLaneStatus s l lsScan true, 0)) s)

/-- MARGIN_SCAN_DONE (R235). MS_ERR is a 48-bit value that its low word latches. -/
def execMarginScanDone (l : Fin 268) (count : Nat) (s : State) : Res :=
  if laneStatus s l lsScan then
    let s1 := setCnt (setLaneStatus s l lsScan false) (pgSDS l + SDS_MS_ERR.off) (min cntMax count)
    .next (note s1 (pgSDS l) SDS_F_MS_DONE SDS_C_SCANS)
  else .next s

/-- The peaking code after adaptation (R233): what the signal asks for is free; a code beyond a limit stops there. -/
def adapt (s : State) (l : Nat) : State :=
  let b := pgSDS l
  let lo := fld s b SDS_PEAK_MIN
  let hi := fld s b SDS_PEAK_MAX
  let v := freeVal s % 32
  let s1 := setFld (drawFree s) b SDS_PEAK_NOW (max lo (min hi v))
  if v < lo || hi < v then note s1 b SDS_F_PEAK_CLAMP SDS_C_PEAK_CLAMPS else s1

/-- CDR_LOCK_CHANGE (R233): a continuous receive lane locks and starts from RX_PEAK, or loses lock. -/
def execCdrLockChange (l : Fin 268) (locked : Bool) (s : State) : Res :=
  let b := pgSDS l
  if l.val < 192 || laneStatus s l lsCdr == locked then .next s
  else if locked then
    let s1 := setLaneStatus (setLaneStatus s l lsSig true) l lsCdr true
    .next (if isSet s b SDS_ADAPT_EN then adapt s1 l else setFld s1 b SDS_PEAK_NOW (fld s b SDS_RX_PEAK))
  else .next (note (setLaneStatus s l lsCdr false) b SDS_F_CDR_LOSS SDS_C_CDR_LOSSES)

/-- Has a lane a PRBS checker (R234): uplink, Hexca and PON lanes do? -/
def hasPrbs (l : Nat) : Bool := l < 228

/-- Errors that a locked checker has counted: how many is free (log entry 3). -/
def countPrbs (s : State) (l : Nat) : State :=
  let a := pgSDS l + SDS_PRBS_ERR.off
  setCnt (drawFree s) a (min cntMax (cntAt s a + freeVal s % 2 ^ 48))

/-- PRBS_CHECKER_LOCK (R234). -/
def execPrbsCheckerLock (l : Fin 268) (locked : Bool) (s : State) : Res :=
  if !hasPrbs l || laneStatus s l lsPrbs == locked then .next s
  else if locked then
    .next (if fld s (pgSDS l) SDS_PRBS_CHK = 0 then s else setLaneStatus s l lsPrbs true)
  else .next (setLaneStatus (countPrbs s l) l lsPrbs false)

/-! ### I2C (R248) -/

def i2c (s : State) (j : Nat) : I2c := tget I2c.init s.link.i2c j
def setI2c (s : State) (j : Nat) (r : I2c) : State := { s with link := { s.link with i2c := tset I2c.init s.link.i2c j r } }

/-- The STAT bits of a window: BUSY, DONE, NACK, TIMEOUT, OWN_ERR. -/
def i2cStat (s : State) (j v : Nat) : State := setFld s pgOPT (OPT_STAT.at j) v
def i2cBusy (s : State) (j : Nat) : Bool := bitAt (fld s pgOPT (OPT_STAT.at j)) 0

/-- A command of window j: the port must be one of the master's and of the caller's; the mux is left on it. -/
def i2cCmd (o : Origin) (j : Nat) (write : Bool) (s : State) : State :=
  command o (pgOPT + (OPT_CMD.at j).off) (pgOPT + (OPT_PORT.at j).off) (fun s =>
    let p := fld s pgOPT (OPT_PORT.at j)
    let n := fld s pgOPT (OPT_LEN.at j)
    if i2cBusy s j then (s, 4)
    else if !mayUse (Origin.slice o) (portOwner s p) then (flag (i2cStat s j 16) pgOPT OPT_F_OWN_REJ, 2)
    else if p / 4 ≠ j || n = 0 || 32 < n then (s, 1)
    else
      let x := i2c s j
      let mux := if bitAt (fld s pgOPT OPT_MUX_EN) j then some p else x.mux
      (bump (i2cStat (setI2c s j ⟨some (Origin.slice o), write, mux⟩) j 1) pgOPT OPT_C_TRANSACTIONS 1, 0)) s

/-- I2C_READ (R248): CMD 1. -/
def execI2cRead (o : Origin) (j : Fin 8) (s : State) : Res := .next (i2cCmd o j false s)

/-- I2C_WRITE (R248): CMD 2. -/
def execI2cWrite (o : Origin) (j : Fin 8) (s : State) : Res := .next (i2cCmd o j true s)

/-- The words that hold bytes, the first in [31:24]; `old` keeps what no byte covers. -/
def putBytes : List Byte → List Word → List Word
  | _, [] => []
  | l, w :: ws =>
    let v := (l.take 4).zipIdx.foldl (fun a x => withBits a (24 - 8 * x.2) 8 x.1.toNat) w
    v :: putBytes (l.drop 4) ws

/-- The event at a transaction's end, to the slice that commanded it (R29). -/
def i2cEvent (s : State) (j : Nat) : State := postTo s pgOPT ((i2c s j).caller.getD 0) .i2cDone [j]

/-- I2C_DONE (R248): the transaction ends with DONE, or with NACK. -/
def execI2cDone (j : Fin 8) (nack : Bool) (bytes : List Byte) (s : State) : Res :=
  if !i2cBusy s j then .next s
  else
    let done := fun (t : State) => i2cEvent t j
    if nack then .next (done (note (i2cStat s j 4) pgOPT OPT_F_NACK OPT_C_NACK))
    else
      let n := fld s pgOPT (OPT_LEN.at j)
      let a := pgOPT + (OPT_DATA.at j).off
      let s1 := if (i2c s j).write then s
        else (putBytes (bytes.take n) ((List.range 8).map (fun i => reg s (a + 4 * i)))).zipIdx.foldl
          (fun t x => setReg t (a + 4 * x.2) x.1) s
      .next (done (bump (i2cStat s1 j 2) pgOPT OPT_C_BYTES n))

/-- I2C_TIMEOUT (R248): SCL stays low; the bus is recovered and the mux selection forgotten. -/
def execI2cTimeout (j : Fin 8) (s : State) : Res :=
  if !i2cBusy s j then .next s
  else
    let s1 := note (i2cStat (setI2c s j { i2c s j with mux := none }) j 8) pgOPT OPT_F_TIMEOUT OPT_C_TIMEOUT
    .next (i2cEvent (flag s1 pgOPT OPT_F_BUS_RECOVERED) j)

end Sys2Proof.Machine
end

