-- ==== Sys2Proof/Machine/SelfTest.lean ====
section
/-! DEFINITION. Fault sources and reclaim as commands (R321, R322), the regulation pass (R325 to R329), the performance counters and the
trace ring (R330, R331). -/

namespace Sys2Proof.Machine

/-! ### Faults -/

/-- FAULT_SOURCE_SET (R319, R321). -/
def execFaultSourceSet (src : Fin 64) (party : Option Party) (s : State) : Res := .next (notice s src party)

/-- RECLAIM (R322): the reclaim engine takes the party at the front of its queue. -/
def execReclaim (s : State) : Res := .next (reclaimNext s)

/-! ### The memory pass (R325 to R327) -/

/-- Regions of 1 KiB in a bank, and on the device (R326). -/
def regionsPerBank : Nat := 128
def regionCount : Nat := 163840

/-- Show the soft repairs of the bank that the TST window names. -/
def showSoft (s : State) : State := setFld s pgTST TST_SOFT_ROWS (bankAt s (fld s pgTST TST_BANK_IDX)).soft

/-- The sweep moves to region n; past the last one it is done (R326). -/
def sweepTo (s : State) (n : Nat) : State :=
  let b := pgTST
  if n < regionCount then setFld s b TST_SWEEP_POS n
  else
    let s1 := setFld (setFld s b TST_SWEEP_POS 0) b TST_LAST_SWEEP (frame s - s.tst.sweepFrom)
    note { s1 with tst := { s1.tst with sweepFrom := frame s, sweepLate := false } } b TST_F_SWEEP_DONE TST_C_SWEEPS

/-- A word that fails goes to a spare row that fuses and earlier repairs have left free, until chip reset (R327). -/
def repair (s : State) (bank row : Nat) : State :=
  let b := pgTST
  let s1 := note s b TST_F_MEM_FAIL TST_C_MEM_FAIL
  let r := bankAt s bank
  if Config.repairRows bank + r.soft < 4 then
    let s2 := bump (raise (setBankAt s1 bank { r with soft := r.soft + 1 }) b TST_F_REPAIRED [bank, row]) b TST_C_SOFT_REPAIRS 1
    showSoft s2
  else notice (note s1 b TST_F_UNREPAIRED TST_C_UNREPAIRED) 61 none

/-- A tested region that holds scheduler nodes starts their settle period (R197, R326). -/
def settleRegion (s : State) (n : Nat) : State :=
  if Config.bankUser (n / regionsPerBank) = BitVec.ofNat 16 Page.TMS.typeCode then startSettle s (Config.regionNodes n) else s

/-- MEM_REGION_TEST (R326, R327): the region at SWEEP_POS; banks that are off or in retention are skipped. -/
def execMemRegionTest (bad : Option Nat) (s : State) : Res :=
  let b := pgTST
  let n := fld s b TST_SWEEP_POS
  let bank := n / regionsPerBank
  if !released s || !active s b TST_MEM_EN then .next s
  else if (bankAt s bank).st ≠ 2 then .next (sweepTo (bump s b TST_C_SKIPPED 1) ((bank + 1) * regionsPerBank))
  else
    let s1 := bump s b TST_C_REGIONS_TESTED 1
    let s2 := match bad with
      | some row => repair s1 bank row
      | none => s1
    .next (sweepTo (settleRegion s2 n) (n + 1))

/-- TEST_STEAL_TIMEOUT (R325): the region test at SWEEP_POS is abandoned and retried at the next interval. -/
def execTestStealTimeout (s : State) : Res :=
  if released s && active s pgTST TST_MEM_EN then .next (note s pgTST TST_F_DEFERRED TST_C_DEFERRED) else .next s

/-- 24 hours in frames. -/
def sweepLimit : Nat := 24 * 3600 * 8000

/-- SWEEP_LATE (R326): once for a sweep that has not ended 24 h after it began. -/
def execSweepLate (s : State) : Res :=
  if active s pgTST TST_MEM_EN && !s.tst.sweepLate && s.tst.sweepFrom + sweepLimit ≤ frame s then
    .next (flag { s with tst := { s.tst with sweepLate := true } } pgTST TST_F_SWEEP_LATE)
  else .next s

/-! ### Engine checks and eye scans (R328, R329) -/

/-- An engine that failed its check stays retired and counts as lost (R166, R328). -/
def failEngine (s : State) (k : Fin 16) (e : Nat) : State :=
  let x := cluster s k
  let s1 := setCluster s k { x with lost := if x.lost.contains e then x.lost else e :: x.lost }
  let s2 := if e < 32 then setFld s1 (pgENG k) ENG_SPARE_FOR e else s1
  bump (raise s2 pgTST TST_F_ENG_FAIL [k, e]) pgTST TST_C_ENG_FAIL 1

/-- Set the engine of a cluster that is under check. -/
def setChecked (s : State) (k : Nat) (e : Option Nat) : State :=
  { s with tst := { s.tst with check := tset dnone s.tst.check k e } }

/-- A check begins (R328): the engine in turn is retired, and its routine follows once it has drained; a spare that is not in use is
checked directly. -/
def beginCheck (s : State) (k : Fin 16) : State :=
  let e := tget dzero s.tst.engTurn k % 33
  let s1 := setChecked (setFld (setFld s pgTST TST_ENG_K k) pgTST TST_ENG_E e) k (some e)
  if e < 32 then retire s1 k e else beginWork s1 ⟨k, 32, 0⟩ 6

/-- A check ends with its result (R328): the engine is reinstated, or stays retired. -/
def endCheck (s : State) (k : Fin 16) (e : Nat) (pass : Bool) : State :=
  let s1 := setChecked (bump s pgTST TST_C_ENG_CHECKS 1) k none
  let s2 : State := { s1 with tst := { s1.tst with engTurn := tset dzero s1.tst.engTurn k ((e + 1) % 33) } }
  if pass then (if e < 32 then reinstate s2 k e else s2) else failEngine s2 k e

/-- ENG_CHECK (R328): the check of the engine whose turn it is in cluster k begins, skipped while the spare may not serve; for one under
check it ends, once the engine has drained and its contexts are idle, with the result that the command names. -/
def execEngCheck (k : Fin 16) (pass : Bool) (s : State) : Res :=
  if !released s || !active s pgTST TST_ENG_EN then .next s
  else match checked s k with
    | none => .next (if spareFree s k then beginCheck s k else s)
    | some e =>
      if (cluster s k).leaving != some e && (ctxsOf k (Fin.ofNat 33 e)).all (fun c => (ctx s c).st == 0) then
        .next (endCheck s k e pass)
      else .next s

/-- The uplink and Hexca lanes in the order of the scans that follow lane l. -/
def lanesAfter (l : Nat) : List Nat := (List.range 36).map (fun i => 192 + (l - 192 + 1 + i) % 36)

/-- EYE_SCAN (R329): the next lane in use; a width below EYE_MIN is reported. -/
def execEyeScan (width : Fin 128) (s : State) : Res :=
  let b := pgTST
  if !released s || !active s b TST_EYE_EN then .next s
  else match (lanesAfter (fld s b TST_EYE_LANE)).find? (fun l => laneStatus s l lsUse) with
    | none => .next s
    | some l =>
      let s1 := bump (setFld (setFld s b TST_EYE_LANE l) b TST_EYE_WIDTH width) b TST_C_EYE_SCANS 1
      if width < fld s b TST_EYE_MIN then .next (bump (raise s1 b TST_F_EYE_LOW [l, width]) b TST_C_EYE_LOW 1) else .next s1

/-! ### Performance counters (R330) -/

def pmc (s : State) (k : Nat) : Pmc := tget Pmc.init s.tst.pmc k
def setPmc (s : State) (k : Nat) (c : Pmc) : State := { s with tst := { s.tst with pmc := tset Pmc.init s.tst.pmc k c } }

/-- GO_CMD: its own word holds no index, so its record shows 0. -/
def goCmd (o : Origin) (body : State → State) (s : State) : State :=
  command o (pgPMC + PMC_GO_CMD.off) (pgPMC + PMC_GO_CMD.off) (fun s => (body s, 0)) s

/-- PMC_START (R330): at the next frame boundary. -/
def execPmcStart (o : Origin) (s : State) : Res := .next (goCmd o (fun s => { s with tst := { s.tst with go := some true } }) s)

/-- PMC_STOP (R330): at the next frame boundary. -/
def execPmcStop (o : Origin) (s : State) : Res := .next (goCmd o (fun s => { s with tst := { s.tst with go := some false } }) s)

/-- A counter in level mode counts core cycles, which the model does not: its count is free from its start on (log entry 19). -/
def levelCount (s : State) (k : Nat) : State :=
  let c := pmc s k
  if c.level && c.en then setPmc (drawFree s) k { c with count := freeVal s % 2 ^ 48 } else s

/-- Latch counter k into VALUE. -/
def latchPmc (s : State) (k : Nat) : State :=
  let s1 := levelCount s k
  setPmc s1 k { pmc s1 k with value := (pmc s1 k).count, snap := true }

/-- A snapshot of counters. -/
def snapPmc (s : State) (l : List Nat) : State := bump (l.foldl latchPmc s) pgPMC PMC_C_SNAPSHOTS 1

/-- The counters that have ever been set, the only ones that a snapshot can change. -/
def pmcKeys (s : State) : List Nat := s.tst.pmc.map (·.1)

/-- PMC_SNAPSHOT (R330): GO_CMD 3, all 512 counters at once. -/
def execPmcSnapshot (o : Origin) (s : State) : Res := .next (goCmd o (fun s => snapPmc s (pmcKeys s)) s)

/-- Set REJECT of the counter window. -/
def pmcStat (s : State) (rej : Bool) : State := setFld s pgPMC PMC_STAT (2 * rej.toNat)

/-- A command of the counter window: the group and the counter's key. -/
def pmcCmd (o : Origin) (body : State → Nat → Nat → State × Nat) (s : State) : State :=
  command o (pgPMC + PMC_CMD.off) (pgPMC + PMC_GRP.off) (fun s =>
    let g := fld s pgPMC PMC_GRP
    body (pmcStat s false) g (8 * g + fld s pgPMC PMC_CTR)) s

/-- Show a counter: its settings and VALUE. -/
def showPmc (s : State) (c : Pmc) : State :=
  let b := pgPMC
  let s1 := setBit (setFld (setFld s b PMC_EVENT c.event) b PMC_INST c.inst) b PMC_MODE c.level
  setWords (setBit (setBit s1 b PMC_CHAIN c.chain) b PMC_EN c.en) (b + PMC_VALUE.off) (twoWords c.value)

/-- PMC_COUNTER_READ (R330, R332): CMD 1. VALUE is the snapshot taken since the counter was last read, or else the count now. -/
def execPmcCounterRead (o : Origin) (s : State) : Res :=
  .next (pmcCmd o (fun s _ k =>
    let s1 := if (pmc s k).snap then s else latchPmc s k
    let s2 := setPmc s1 k { pmc s1 k with snap := false }
    (showPmc s2 (pmc s2 k), 0)) s)

/-- PMC_COUNTER_WRITE (R330): CMD 2; level mode needs a flag, and counter 0 of a group has none below it to chain. -/
def execPmcCounterWrite (o : Origin) (s : State) : Res :=
  .next (pmcCmd o (fun s _ k =>
    let b := pgPMC
    let e := fld s b PMC_EVENT
    let level := isSet s b PMC_MODE
    let chain := isSet s b PMC_CHAIN
    if (level && e % 64 < 32) || (chain && k % 8 == 0) then (flag (pmcStat s true) b PMC_F_CFG_REJ, 1)
    else
      (setPmc s k { pmc s k with event := e, inst := fld s b PMC_INST, level := level, chain := chain, en := isSet s b PMC_EN }, 0)) s)

/-- The counters of a group. -/
def groupKeys (g : Nat) : List Nat := (List.range 8).map (8 * g + ·)

/-- PMC_GROUP_CLEAR (R330): CMD 3. -/
def execPmcGroupClear (o : Origin) (s : State) : Res :=
  .next (pmcCmd o (fun s g _ => ((groupKeys g).foldl (fun t k => setPmc t k { pmc t k with count := 0 }) s, 0)) s)

/-- PMC_GROUP_SNAPSHOT (R330): CMD 4. -/
def execPmcGroupSnapshot (o : Origin) (s : State) : Res := .next (pmcCmd o (fun s g _ => (snapPmc s (groupKeys g), 0)) s)

/-! ### The trace ring (R331) -/

/-- The owner of the page that a PAGE_ID names: of its port, or slice 0. -/
def pageIdOwner (s : State) (id : Nat) : Nat :=
  let ty := id / 2 ^ 16
  let inst := id / 16 % 2 ^ 12
  if ty = 23 ∨ ty = 24 ∨ ty = 25 then portOwner s (inst / 3)
  else if 19 ≤ ty ∧ ty ≤ 27 then portOwner s inst
  else 0

/-- A trace record as eight words (R331). -/
def TraceRec.words (s : State) (r : TraceRec) : List Word :=
  let st := r.stamp.stamp
  let info := fld s pgDEV DEV_DEV_ID + 8 * pageIdOwner s r.page
  [BitVec.ofNat 32 r.page, BitVec.ofNat 32 (r.point + r.verdict * 2 ^ 8 + info * 2 ^ 16), BitVec.ofNat 32 r.mark,
   BitVec.ofNat 32 st, BitVec.ofNat 32 (st / 2 ^ 32), BitVec.ofNat 32 (r.src + r.seq * 2 ^ 16), BitVec.ofNat 32 (r.queue + r.len * 2 ^ 16),
   BitVec.ofNat 32 r.arg]

/-- TRACE_RECORD_READ (R332): TR_IDX counts back from the newest record; one never written reads as free values. -/
def execTraceRecordRead (o : Origin) (data : Word) (s : State) : Res :=
  .next (ownWrite o (pgPMC + PMC_TR_IDX.off) (fun s =>
    let i := bitsOf data 0 13
    let s1 := setFld s pgPMC PMC_TR_IDX i
    match s.tst.trace[i]? with
    | some r => (setWords s1 (pgPMC + PMC_TR_DATA.off) (r.words s), 0)
    | none => (drawFrees (setWords s1 (pgPMC + PMC_TR_DATA.off) (freeWords s1)) 8, 0)) s)

/-- TRACE_STREAM (R331): as the journal's stream (R297). -/
def execTraceStream (s : State) : Res :=
  let b := pgPMC
  let size := 2 ^ fld s b PMC_TR_SIZE_LOG2
  let room := (fld s b PMC_TR_HEAD + size - s.tst.tail % size - 1) % size
  let l := ((s.tst.trace.take s.tst.unsent).reverse).take room
  if !released s || !active s b PMC_TR_STREAM_EN || l == [] then .next s
  else
    let tail := (s.tst.tail + l.length) % size
    let s1 := l.foldl (fun t r => hostRec t 0 (.trace r.page r.point r.mark r.arg r.stamp.stamp)) s
    .next (hostRec { s1 with tst := { s1.tst with tail := tail, unsent := s1.tst.unsent - l.length } } 0 (.tail tail))

end Sys2Proof.Machine
end

