-- ==== Sys2Proof/Machine/Route.lean ====
section
/-! DEFINITION. Where a register write is a command (R10 WO, R284): the command registers of every page and the registers whose
write has a row of its own. A write of code 0 asks for nothing, and a code that the page does not offer is rejected with code 1
(R351). -/

namespace Sys2Proof.Machine

/-- What a register write runs. -/
abbrev Cmd := State → Res

/-- Port, channel and the other instance numbers as operands. -/
def portOf (n : Nat) : Fin 32 := Fin.ofNat 32 n
def chanOf (n : Nat) : Fin 3 := Fin.ofNat 3 n

/-- A write that asks for nothing, and one for what the page does not offer. -/
def noCmd (o : Origin) (addr idx : Nat) : Cmd := fun s => .next (command o addr idx (fun s => (s, 0)) s)
def badCmd (o : Origin) (addr idx : Nat) : Cmd := fun s => .next (command o addr idx (fun s => (s, 1)) s)

/-- The commands of a window, by code from 1. -/
def byCode (o : Origin) (addr idx code : Nat) (l : List Cmd) : Cmd :=
  if code = 0 then noCmd o addr idx else l.getD (code - 1) (badCmd o addr idx)

/-- A command behind one bit. -/
def onBit (o : Origin) (addr idx : Nat) (b : Bool) (c : Cmd) : Cmd := if b then c else noCmd o addr idx

/-- A WO data word: the write reaches the window behind it, and the register reads 0 before and after (R10, R295). -/
def woWord (o : Origin) (addr : Nat) (body : State → State) : Cmd := fun s =>
  .next (match addrReject s o addr with
    | some c => record s o c addr 0 0 allOnes
    | none => record (body s) o 0 addr 0 0 allOnes)

/-- The boot command register (R307, R314): its bits act in the order of the bits, and the first one rejected is named. -/
def bootCmd (o : Origin) (data : Word) : Cmd := fun s =>
  let one := fun (b : Nat) (f : State → State × Nat) (x : State × Nat) =>
    if data.getLsbD b then
      let r := f x.1
      (r.1, if x.2 = 0 then r.2 else x.2)
    else x
  .next (command o bootGo bootGo (fun s => one 2 warnClrBody (one 1 bootReleaseBody (one 0 hostGoBody (s, 0)))) s)

/-- The commands of the global pages. -/
def globalCmd (o : Origin) (pg : Page) (off a : Nat) (data : Word) : Option Cmd :=
  let code := fun n => bitsOf data 0 n
  match pg with
  | .DEV => if off = 0x4C then some (execRoleMapWrite o data) else if off = 0x50 then some (execResetKey o data)
    else if off = 0x54 then some (execResetCmd o data) else none
  | .BOOT => if off = 0x60 then some (bootCmd o data) else none
  | .FUSE => if off = 0x4C then some (execRevokeKey o data) else if off = 0x50 then some (execRevokeCmd o data) else none
  | .CAL => if off = 0x44 then some (execCalUnlock o data)
    else if off = 0x4C then some (byCode o a (pgCAL + 0x48) (code 2) [execCalRead o, execCalStoreWrite o, execCalReload o]) else none
  | .JRN => if off = 0x140 then some (execJournalRecordRead o data) else none
  | .SLC => if off = 0x40 then some (execSliceEnWrite o data)
    else if off = 0x84 then some (byCode o a (pgSLC + 0x80) (code 2) [execSlcReadOwner o, execSlcAssign o]) else none
  | .EVT => if off = 0x84 then
      some (byCode o a (pgEVT + 0x80) (code 3) [execEvtRingRead o, execEvtRingWrite o, execEvtRingStart o, execEvtRingStop o])
    else none
  | .HST => if off = 0x48 then some (execDoorbell o data)
    else if off = 0x84 then
      some (byCode o a (pgHST + 0x80) (code 3) [execRingRead o, execRingWrite o, execRingStart o, execRingStop o])
    else none
  | .PMC => if off = 0x48 then some (byCode o a a (code 2) [execPmcStart o, execPmcStop o, execPmcSnapshot o])
    else if off = 0x84 then
      some (byCode o a (pgPMC + 0x80) (code 3) [execPmcCounterRead o, execPmcCounterWrite o, execPmcGroupClear o, execPmcGroupSnapshot o])
    else if off = 0xA0 then some (execTraceRecordRead o data) else none
  | .MEM => if off = 0x84 then
      some (byCode o a (pgMEM + 0x80) (code 3) [execBankRead o, execBankOn o, execBankRetention o, execBankOff o])
    else none
  | .GRD => if off = 0x60 then some (execStepCmd o data) else none
  | .TOD => if off = 0x68 then some (execBaseCommit o data) else none
  | .KEY => if off = 0x84 then some (byCode o a (pgKEY + 0x80) (code 2) [execKeyRead o, execKeyWrite o false, execKeyInvalidate o])
    else if 0x100 ≤ off ∧ off < 0x120 then some (woWord o a (fun s => setReg s a data)) else none
  | .OPT => if 0x80 ≤ off ∧ off < 0x100 ∧ off % 16 = 8 then
      let j : Fin 8 := Fin.ofNat 8 ((off - 0x80) / 16)
      some (byCode o a (a - 8) (code 2) [execI2cRead o j, execI2cWrite o j])
    else none
  | .PRT => if off = 0x50 then some (byCode o a a (code 2) [execGmTake o, execGmYield o, execGmJoin o (data.getLsbD 2)])
    else if off = 0x84 then
      some (byCode o a (pgPRT + 0x80) (code 3)
        [execPairRead o, execPairWrite o, execPairYield o, execPairReclaim o, execPairResync o, execPairClaim o])
    else none
  | .PRS => if off = 0x50 then some (byCode o a (pgPRS + 0x4C) (code 2) [execVidSliceRead o, execVidSliceWrite o]) else none
  | .LGD => if off = 0x84 then
      some (byCode o a (pgLGD + 0x80) (code 3)
        [execLgdRuleRead o, execLgdRuleWrite o, execLgdRuleInvalidate o, execLgdMoveBlock o, execLgdHitClear o])
    else none
  | .GZT => if off = 0x80 then
      some (byCode o a a (code 4)
        [execGztLookupCmd o, execGztInsert o, execGztDeleteCmd o, execGztReadSlot o, execGztFlushDomain o, execGztFlushDest o,
         execGztThaw o, execGztSetDomainOwner o])
    else none
  | .TMQ => if off = 0x84 then some (byCode o a (pgTMQ + 0x80) (code 2) [execQueueRead o, execQueueWrite o, execQueueCounterClear o])
    else if off = 0xB4 then some (byCode o a (pgTMQ + 0xB0) (code 2) [execTmqOnuRead o, execTmqOnuWrite o]) else none
  | .TMS => if off = 0x84 then some (byCode o a (pgTMS + 0x80) (code 2) [execNodeRead o, execNodeWrite o, execNodeSettle o]) else none
  | .CIP => if off = 0x44 then some (execKeyZeroize o data) else none
  | _ => none

/-- The commands of the pages of a channel. -/
def channelCmd (o : Origin) (pg : Page) (p : Fin 32) (c : Fin 3) (off a : Nat) (data : Word) : Option Cmd :=
  let code := fun n => bitsOf data 0 n
  let base := a - off
  match pg with
  | .CHG | .CHX | .CHH => if off = 0x54 then some (onBit o a a (data.getLsbD 0) (execPloamPush o p c))
    else if off = 0x64 then some (onBit o a (base + 0x58) (data.getLsbD 0) (execKeySwGo o p c)) else none
  | .BRX => if off = 0x64 then some (onBit o a (base + 0x60) (data.getLsbD 0) (execRssiGo o p c))
    else if off = 0x84 then some (byCode o a (base + 0x80) (code 2) [execPmRead o p c, execPmWrite o p c false, execPmInvalidate o p c])
    else if 0x100 ≤ off ∧ off < 0x200 ∧ off % 0x40 ≤ 0x20 then
      some (execProfileWrite o p c (Fin.ofNat 4 ((off - 0x100) / 0x40)) (Fin.ofNat 9 (off % 0x40 / 4)) data)
    else none
  | .RNG => if 0x44 ≤ off ∧ off ≤ 0x4C then some (execReachWrite o p c off data)
    else if off = 0x94 then some (byCode o a (base + 0x90) (code 2) [execRgRead o p c, execRgSetEqd o p c false, execRgRerange o p c])
    else none
  | .ALC => if off = 0x84 then some (byCode o a (base + 0x80) (code 2) [execAdRead o p c, execAdWrite o p c, execAdClearGranted o p c])
    else if off = 0x104 then some (byCode o a (base + 0x100) (code 2) [execObRead o p c, execObWrite o p c]) else none
  | _ => none

/-- The commands of the other pages that have instances. -/
def instanceCmd (o : Origin) (pg : Page) (i off a : Nat) (data : Word) : Option Cmd :=
  let code := fun n => bitsOf data 0 n
  let base := a - off
  match pg with
  | .PON => if off = 0x54 then
      some (byCode o a (base + 0x50) (code 2) [execOnuRead o (portOf i), execOnuWrite o (portOf i), execOnuCounterClear o (portOf i)])
    else if off = 0x2C4 then
      some (byCode o a (base + 0x2C0) (code 2) [execXpRead o (portOf i), execXpWrite o (portOf i), execXpInvalidate o (portOf i)])
    else none
  | .TPL => if off = 0x44 then some (byCode o a (base + 0x40) (code 2) [execTplLoad o (portOf i), execTplStop o (portOf i)])
    else if off = 0x84 then some (byCode o a (base + 0x80) (code 2) [execEntRead o (portOf i), execEntWrite o (portOf i)]) else none
  | .BND => if off = 0x84 then
      some (byCode o a (base + 0x80) (code 2) [execGrpRead o (portOf i), execGrpWrite o (portOf i), execGrpCounterClear o (portOf i)])
    else none
  | .ENG => if off = 0x4C then
      let e : Fin 32 := Fin.ofNat 32 (bitsOf data 0 5)
      some (byCode o a a (bitsOf data 5 2) [execSpareRetire o (Fin.ofNat 16 i) e, execSpareReinstate o (Fin.ofNat 16 i) e])
    else none
  | .UCS => if off = 0x44 then some (onBit o a a (data.getLsbD 0) (execSwapCmd o (Fin.ofNat 16 i)))
    else if 0x4C ≤ off ∧ off < 0x5C then
      some (woWord o a (fun s => setCluster s i { cluster s i with loadWord := (cluster s i).loadWord.set ((off - 0x4C) / 4) data }))
    else if off = 0x5C then some (execUcsLoadWord o (Fin.ofNat 16 i) data)
    else if off = 0x140 then some (execUcsReadWord o (Fin.ofNat 16 i) data) else none
  | .CXL => if off = 0x44 then
      let x : Fin 4 := Fin.ofNat 4 i
      some (byCode o a a (code 3) [execCxlMigrate o x, execCxlCancel o x, execCxlLinkDown o x, execCxlLinkUp o x 0])
    else none
  | .MSC => if off = 0x84 then
      let q : Fin 24 := Fin.ofNat 24 i
      some (byCode o a (base + 0x80) (code 2) [execSaRead o q, execSaWrite o q, execSaInvalidate o q])
    else if (0x9C ≤ off ∧ off < 0xA8) ∨ (0x100 ≤ off ∧ off < 0x120) then some (woWord o a (fun s => setReg s a data)) else none
  | .SDS => if off = 0x50 then some (onBit o a a (data.getLsbD 0) (execMarginScanGo o (Fin.ofNat 268 i))) else none
  | _ => none

/-- The pages without counters (R71, and the page tables): 0x300 is no CNT_CLR there. -/
def noCounters (pg : Page) : Bool :=
  match pg with
  | .PON | .FUSE | .GRD | .TOD | .CAP => true
  | _ => false

/-- The command that a write of a register is, if it is one. -/
def cmdAt (o : Origin) (addr : Nat) (data : Word) : Option Cmd :=
  match pageAt addr with
  | none => none
  | some (pg, i) =>
    let off := addr % 0x1000
    if off = 0x300 ∧ !noCounters pg then some (onBit o addr addr (data.getLsbD 0) (execCntClr o (addr - off)))
    else match pg with
      | .CHG => channelCmd o pg (portOf i) 0 off addr data
      | .CHX => channelCmd o pg (portOf i) 1 off addr data
      | .CHH => channelCmd o pg (portOf i) 2 off addr data
      | .BRX | .RNG | .ALC => channelCmd o pg (portOf (i / 3)) (chanOf i) off addr data
      | .PON | .TPL | .BND | .ENG | .UCS | .CXL | .MSC | .SDS => instanceCmd o pg i off addr data
      | _ => globalCmd o pg off addr data

/-- A command always ends in a next state; its state. -/
def ran (r : Res) (s : State) : State :=
  match r with
  | .next t => t
  | _ => s

end Sys2Proof.Machine
end

