-- ==== Sys2Proof/Machine/Registers.lean ====
section
/-! DEFINITION. The register commands: plain writes with the values they may store (R2, R10, R351) and what follows from them, alias
writes (R281), the page header (R280: ENABLE, BLOCK_RESET, LOCK, ERR_INJECT), and reads (R10, R71, R9, R282). -/

namespace Sys2Proof.Machine

/-! ### What a plain write may store -/

/-- Does a write store into a field with this access code? -/
def Acc.stores : Acc → Bool
  | .rw | .rwl => true
  | _ => false

/-- Is a field left outside its range (R351 code 1)? -/
def FieldDef.outside (f : FieldDef) (inst : Nat) (w : Word) : Bool :=
  f.hi != 0 && (f.accAt inst).stores && !(f.lo ≤ bitsOf w f.lsb f.width && bitsOf w f.lsb f.width ≤ f.hi)

/-- May a mode use a FEC code (R236)? -/
def fecOk (mode fec : Nat) : Bool :=
  match mode with
  | 0 | 2 => true
  | 1 => fec ≤ 2
  | 3 => fec == 0 || fec == 3
  | _ => fec == 0

/-- Do the uplink ports keep the rules of R236 and R237? -/
def modesOk (s : State) : Bool :=
  (List.range 24).all (fun q =>
    let m := fld s (pgETH q) ETH_MODE
    let n := modeLanes m
    m ≤ 9 && fecOk m (fld s (pgETH q) ETH_FEC) &&
      (m == 0 || (q % n == 0 && (List.range (n - 1)).all (fun i => fld s (pgETH (q + 1 + i)) ETH_MODE == 0))))

/-- May a profile serve Survey (R104): VALID and cold? -/
def surveyFit (s : State) (p c j : Nat) : Bool := profValid (profWords s p c j) && !profWarm (profWords s p c j)

/-- Does a channel's Survey run on profiles that may not serve it? -/
def surveyUnfit (s : State) (p c : Nat) : Bool :=
  let b := pgRNG p c
  isSet s b RNG_SURVEY_EN && !(surveyFit s p c (fld s b RNG_SURVEY_PROFILE) &&
    (!isSet s b RNG_PROFILE_B_EN || surveyFit s p c (fld s b RNG_SURVEY_PROFILE_B)))

/-- No sign of a rejection beyond the code. -/
def quiet : State → State := id

/-- What the blocks refuse, given the state before a write and the state it would leave: the reject code, 0 for none, and what the
refusal sets (R2 and the rules of each register). -/
def refused (s t : State) (pg : Page) (i off base : Nat) : Nat × (State → State) :=
  let one := fun (b : Bool) => (if b then 1 else 0, quiet)
  match pg with
  | .JRN => (if off = 0x40 ∧ isSet s base JRN_STREAM_EN ∧ fld s base JRN_SIZE_LOG2 ≠ fld t base JRN_SIZE_LOG2 then 8 else 0, quiet)
  | .PMC => (if off = 0x50 ∧ isSet s base PMC_TR_STREAM_EN ∧ fld s base PMC_TR_SIZE_LOG2 ≠ fld t base PMC_TR_SIZE_LOG2 then 8 else 0,
      quiet)
  | .FLT => one (0x100 ≤ off && off < 0x200 &&
      (let j := (off - 0x100) / 4
       bitAt (react t j) 2 && ((48 ≤ j && j ≤ 57) || 59 ≤ j)))
  | .PON =>
    if off = 0x48 then (if fld t base PON_SD_EXP ≤ fld t base PON_SF_EXP then 1 else 0, fun x => setBit x base PON_REJECT true)
    else (0, quiet)
  | .BRX => one ((off == 0x48 && fld t base BRX_BRST_WIDTH % 4 != 0) || (off == 0x5C && fld t base BRX_ROGUE_WIN < fld t base BRX_ROGUE_THR))
  | .RNG => one ((off == 0x40 && surveyUnfit t (i / 3) (i % 3)) ||
      (off == 0x58 && fld t base RNG_SURVEY_PERIOD_MAX < fld t base RNG_SURVEY_PERIOD) ||
      (off == 0x6C && fld t base RNG_DOW_FINE * 40 ≤ fld t base RNG_EQD_THR * unit40 (i % 3)))
  | .UCS =>
    if 0x80 ≤ off ∧ off < 0xC0 then
      if isSet s base UCS_SWAP_PENDING || isSet s base UCS_ACTIVE_BANK == (0xA0 ≤ off : Bool) then
        (8, fun x => flag x base UCS_F_LOAD_REJ)
      else (0, quiet)
    else (0, quiet)
  | .LGD => one (0x44 ≤ off && off ≤ 0x4C && (bitsOf (reg t (base + off)) 4 2 == 3 || bitsOf (reg t (base + off)) 7 2 == 3))
  | .PRS => one (off == 0x40 && (List.range 16).any (fun j => bitsOf (reg t (base + 0x40)) (2 * j) 2 == 3))
  | .TMQ => if off = 0x44 ∧ heldPool t < 0 then (1, fun x => flag x base TMQ_F_RSV_REJ) else (0, quiet)
  | .ETH =>
    if off = 0x40 ∧ !modesOk t then (1, fun x => flag x base ETH_F_MODE_REJ)
    else one (off == 0x48 && fld t base ETH_FC_HI < fld t base ETH_FC_LO)
  | .SDS =>
    if off = 0x48 ∧ fld t base SDS_PRBS_GEN ≠ 0 ∧ bitAt (fld s base SDS_STATUS) 4 then (8, fun x => flag x base SDS_F_PRBS_REJ)
    else if off = 0x48 ∧ fld t base SDS_PRBS_GEN ≠ 0 ∧ 228 ≤ i then (1, fun x => flag x base SDS_F_PRBS_REJ)
    else one (off == 0x40 && !(fld t base SDS_PEAK_MIN ≤ fld t base SDS_RX_PEAK && fld t base SDS_RX_PEAK ≤ fld t base SDS_PEAK_MAX))
  | .OPT => one (0x80 ≤ off && off < 0x100 && off % 16 == 0 && fld t (base + (off - 0x80)) OPT_PORT / 4 != (off - 0x80) / 16)
  | _ => (0, quiet)

/-! ### What follows from a plain write -/

/-- A fault line stands high: an unmasked bit of ERR_STATUS on some page of the source (R280, R319). -/
def lineHigh (s : State) (j : Nat) : Bool :=
  s.bus.regs.any (fun e =>
    let b := e.1 - 0x10
    e.1 % 0x1000 == 0x10 && sourceAt b == j && e.2.toNat % 16 &&& (15 - fld s b ANY_ERR_MASK) != 0)

/-- Does the cause of a source bit stand still (R321)? -/
def causeStands (s : State) (j : Nat) : Bool := (j == 55 && fld s pgCIP CIP_CAUSE != 0) || lineHigh s j

/-- Source bits were cleared (R321): one whose cause stands sets again at once, and the pins follow. -/
def afterSources (s t : State) : State :=
  let again := (List.range 64).filter (fun j => sourceSet s j && !sourceSet t j && causeStands t j)
  refreshPins (again.foldl setSource t)

/-- The selected context stops at its next safe point, or goes on (R157). -/
def stopCtx (s : State) (k : Nat) : State :=
  let b := pgENG k
  let n := 132 * k + 4 * fld s b ENG_CTX_ENG + fld s b ENG_CTX_IDX
  let x := tget Ctx.init s.eng.ctx n
  let st := isSet s b ENG_STOP
  let y := { x with stop := st, halted := x.halted && st }
  showCtx { s with eng := { s.eng with ctx := tset Ctx.init s.eng.ctx n y } } k

/-- What a write changes beyond its register. DESIGN CHOICE (log entry 37): R105 says that PERIOD_NOW starts at SURVEY_PERIOD; it does so
when SURVEY_EN goes to 1, and a write of the periods starts it again. -/
def follow_ (s t : State) (pg : Page) (i off base : Nat) : State :=
  if off = 0x14 then
    let up := fun (x : State) => fld x base ⟨0x10, 0, 4, 0⟩ &&& (15 - fld x base ANY_ERR_MASK) != 0
    if up t && !up s then notice t (sourceAt base) none else t
  else if off < 0x40 then t
  else match pg with
  | .GRD => if off = 0x40 then evalRef t else t
  | .PON =>
    if off = 0x40 then
      let t1 := showUses t (6 * i) 6
      if txdis t1 i = txLow ∨ txWanted t1 i = txLow then t1 else refreshTx t1 i
    else if off = 0x48 then setBit t base PON_REJECT false
    else t
  | .BRX =>
    let t1 := publishSurveyLen (publishGuards t (i / 3) (i % 3)) (i / 3) (i % 3)
    if off = 0x40 ∧ txdis t1 (i / 3) ≠ txLow ∧ txWanted t1 (i / 3) ≠ txLow then refreshTx t1 (i / 3) else t1
  | .RNG =>
    let p := i / 3
    let c := i % 3
    let t1 := publishSurveyLen t p c
    let t2 := if off = 0x40 then refreshSuppressed t1 p c else t1
    let t3 := if off = 0x6C then (channelOnus t2 p c).foldl (fun u e => settleDow u p e.1) t2 else t2
    if off = 0x58 ∨ (off = 0x40 ∧ isSet t base RNG_SURVEY_EN ∧ !isSet s base RNG_SURVEY_EN) then surveyStart t3 p c else t3
  | .CHX => if off = 0x40 then refreshSuppressed t i 1 else t
  | .TPL => if off = 0x40 then showTpl t i else t
  | .ENG => if off = 0x80 then stopCtx t i else t
  | .RDR => if off = 0x48 then showRdr t i else t
  | .BPM => settlePools s t
  | .CIP =>
    if off = 0x48 then (if fld t base CIP_CAUSE = 0 then setBit t base CIP_ZEROIZED false else t)
    else if off = 0x40 ∧ fld t base CIP_SCA_LEVEL ≠ fld s base CIP_SCA_LEVEL then flag t base CIP_F_SCA_CHANGE else t
  | .ETH =>
    if off = 0x40 ∧ fld t base ETH_MODE ≠ fld s base ETH_MODE then showUses (setFld t base ETH_STATUS 0) 192 24
    else if off = 0x40 ∨ off = 0x48 then checkFlow t i else t
  | .MSH => if off = 0x40 then linkEnables (showUses t (216 + 4 * i) 4) i else t
  | .TST =>
    if off = 0x40 ∧ isSet t base TST_MEM_EN ∧ !isSet s base TST_MEM_EN then { t with tst := { t.tst with sweepFrom := frame t } }
    else if off = 0x80 then showSoft t else t
  | .JRN => if off = 0x80 then showMr t else t
  | .FLT => if off = 0x40 ∨ off = 0x44 then afterSources s t else if 0x100 ≤ off ∧ off < 0x200 then refreshPins t else t
  | _ => t

/-! ### Plain and alias writes -/

/-- The bits that a plain write could change (R295 MASK): the W1C bits carry the data. -/
def writeMask (pg : Page) (inst off : Nat) (data : Word) : Word :=
  (wordFields pg off).foldl (fun m f => if f.accAt inst = .w1c then withBits m f.lsb f.width (bitsOf data f.lsb f.width) else m) allOnes

/-- The data of a write with the fields that only slice 0 writes left as they stand: OWNER of a Legend rule's window (R190). -/
def dataFor (o : Origin) (pg : Page) (off : Nat) (data old : Word) : Word :=
  if pg = .LGD ∧ off = LGD_OWNER.off ∧ Origin.slice o ≠ 0 then withBits data LGD_OWNER.lsb LGD_OWNER.width (bitsOf old LGD_OWNER.lsb LGD_OWNER.width)
  else data

/-- A write of `data` at a register without a row of its own, written as `addr` with the given MASK (R10, R351): range and block
checks, then the lock; a write that the lock stops in part is performed in part. -/
def storeWord (o : Origin) (pg : Page) (i regAddr addr : Nat) (data0 mask : Word) (s : State) : State :=
  let off := regAddr % 0x1000
  let base := regAddr - off
  let old := reg s regAddr
  let data := dataFor o pg off data0 old
  let w := writtenWord pg i off (isSet s base ANY_LOCK) data old
  let held := w != writtenWord pg i off false data old
  let t := setReg s regAddr w
  let r := refused s t pg i off base
  let bad := (wordFields pg off).any (·.outside i w)
  let code := if held then 3 else if r.1 ≠ 0 then r.1 else if bad then 1 else 0
  if r.1 ≠ 0 || bad then record (r.2 s) o code addr old old mask
  else
    let u := follow_ s t pg i off base
    record u o code addr old w mask

/-- The value that an alias write gives the RW and RWL fields of a register (R281); fields of other codes see zeros. -/
def aliasData (pg : Page) (i off : Nat) (set : Bool) (data old : Word) : Word :=
  (wordFields pg off).foldl (fun w f =>
    if (f.accAt i).stores then
      let v := bitsOf old f.lsb f.width
      let d := bitsOf data f.lsb f.width
      withBits w f.lsb f.width (if set then v ||| d else v ^^^ (v &&& d))
    else w) 0

/-! ### The page header (R280) -/

/-- The enable fields or the condition that stop ENABLE 0 (R349); none for a page type without an enable function. -/
def enableHeld (s : State) (pg : Page) (i base : Nat) : Option Bool :=
  match pg with
  | .PON => some (fld s base PON_CH_EN != 0)
  | .CHG | .CHX | .CHH => some (isSet s base CH_DS_EN || isSet s base CH_US_EN)
  | .BRX => some (isSet s base BRX_RX_EN)
  | .RNG => some (isSet s base RNG_SURVEY_EN)
  | .ALC => some (isSet s base ALC_ALC_EN)
  | .TPL => some ((List.range 16).any (fun t => (tpl s i t).pending.isSome || (tpl s i t).active.isSome))
  | .BND => some (isSet s base BND_BND_EN)
  | .LGD => some (isSet s base LGD_LGD_EN)
  | .GZT => some (isSet s base GZT_GZT_EN)
  | .TMQ => some (isSet s base TMQ_DS_EN || isSet s base TMQ_US_EN)
  | .MSC => some (isSet s base MSC_TX_EN || isSet s base MSC_RX_EN)
  | .ETH => some (fld s base ETH_MODE != 0)
  | .SDS => some (bitAt (fld s base SDS_STATUS) 4)
  | .CXL => some (fld s base CXL_STATE != 0)
  | .MSH => some (isSet s base MSH_LINK_EN)
  | .HST => some (s.link.ring.any (fun e => e.2.state == ringRunning))
  | .EVT => some (s.evt.rings.any (fun e => e.2.running))
  | .JRN => some (isSet s base JRN_STREAM_EN)
  | .PMC => some (isSet s base PMC_MARK_EN || isSet s base PMC_TR_STREAM_EN || s.tst.pmc.any (fun e => e.2.en))
  | .TST => some (isSet s base TST_MEM_EN || isSet s base TST_ENG_EN || isSet s base TST_EYE_EN)
  | _ => none

/-- The banks of a block go to retention when it is disabled (R316). -/
def retainBanks (s : State) (base : Nat) : State :=
  let t := (List.range 1280).foldl (fun l b =>
    if bankBase b = some base ∧ (tget Bank.init l b).st = 2 then tset Bank.init l b { tget Bank.init l b with st := 1 } else l) s.boot.bank
  showBanks { s with boot := { s.boot with bank := t } }

/-- The innermost scope of a page; none where the chip is the only one. -/
def scopeOf (pg : Page) (i : Nat) : Option Scope :=
  match pg with
  | .PON | .TPL | .BND => some (.port i)
  | .CHG => some (.channel i 0)
  | .CHX => some (.channel i 1)
  | .CHH => some (.channel i 2)
  | .BRX | .RNG | .ALC => some (.channel (i / 3) (i % 3))
  | .ENG | .UCS | .RDR => some (.cluster i)
  | .SDS => some (.lane i)
  | .CXL => some (.expander i)
  | .MSH => some (.link i)
  | _ => none

/-- May a scope be reset (R315): a cluster in the packet role, an expander whose queues have migrated? -/
def Scope.ready (s : State) : Scope → Bool
  | .cluster k => fld s (pgENG k) ENG_ROLE == 0
  | .expander x => expState s x == xOff || expState s x == xEmpty || expState s x == xLost
  | _ => true

/-- A commanded block reset (R21, R322, R323): fence, reclaim with its record, reset. -/
def blockReset (s : State) (base : Nat) (x : Scope) : State := resetScope s (sourceAt base) x none

/-- A write of PAGE_CTL (R280): every refusal leaves all of it; then ENABLE with its banks, LEGACY_EVT and LOCK are stored, and the
block reset follows. -/
def pageCtl (pg : Page) (i base : Nat) (data : Word) (s : State) : State × Nat :=
  let off := !data.getLsbD 0 && isSet s base ANY_ENABLE
  let rst := data.getLsbD 1
  let x := scopeOf pg i
  if off && enableHeld s pg i base == some true then (s, 8)
  else if rst && x.any (fun y => !y.ready s) then (s, 8)
  else if (!data.getLsbD 0 && (enableHeld s pg i base).isNone) || (rst && x.isNone) then (s, 1)
  else
    let s1 := setBit (setBit s base ANY_ENABLE (data.getLsbD 0)) base ANY_LEGACY_EVT (data.getLsbD 2)
    let s2 := if off then retainBanks s1 base else s1
    let s3 := if data.getLsbD 3 then (if pg = .CAL then lockStore (setBit s2 base ANY_LOCK true) else setBit s2 base ANY_LOCK true) else s2
    let s4 := follow_ s s3 pg i 0x40 base
    (match rst, x with
      | true, some y => blockReset s4 base y
      | _, _ => s4, 0)

/-- A write of PAGE_CTL by any row that names it. -/
def writePageCtl (o : Origin) (base : Nat) (data : Word) (s : State) : State :=
  ownWrite o (base + 4) (fun s =>
    match pageAt base with
    | some (pg, i) => pageCtl pg i base data s
    | none => (s, 0)) s

/-- A write of ERR_INJECT (R324): ARM while ARM is 1 changes nothing. -/
def writeInject (o : Origin) (base : Nat) (data : Word) (s : State) : State :=
  ownWrite o (base + 0x18) (fun s =>
    if data.getLsbD 0 && isSet s base ANY_ARM then (s, 0)
    else
      let s1 := setBit s base ANY_KIND (data.getLsbD 1)
      (if data.getLsbD 0 then setBit s1 base ANY_ARM true else s1, 0)) s

/-! ### The write commands -/

/-- What a plain write of a register runs where its write has a row of its own. -/
def routed (o : Origin) (regAddr : Nat) (data : Word) : Option (State → State) :=
  let off := regAddr % 0x1000
  if off = 4 then some (writePageCtl o (regAddr - 4) data)
  else if off = 0x18 then some (writeInject o (regAddr - 0x18) data)
  else (cmdAt o regAddr data).map (fun c s => ran (c s) s)

/-- A write that names no register it may write (R9, R27, R280, R282): its record, with nothing changed. -/
def turnedAway (o : Origin) (code addr : Nat) (mask : Word) (s : State) : State :=
  let old := if code = 2 then reg s (addr - addr % 0x1000 + (zoneOf (addr % 0x1000)).2) else 0
  record s o code addr old old mask

/-- An alias write (R281). A register whose write has a row of its own takes the value so formed; the record names the alias and
carries the data as its MASK (R295). Nothing of a command register is RW, so nothing happens there. -/
def aliasWrite (o : Origin) (addr : Nat) (data : Word) (s : State) : State :=
  match addrReject s o addr, pageAt addr with
  | some c, _ => turnedAway o c addr data s
  | none, none => turnedAway o 6 addr data s
  | none, some (pg, i) =>
    let off := addr % 0x1000
    let z := zoneOf off
    let regAddr := addr - off + z.2
    let old := reg s regAddr
    let d := aliasData pg i z.2 (z.1 == .setAlias) data old
    let rw := (wordFields pg z.2).any (fun f => (f.accAt i).stores)
    if rw then
      match routed o regAddr d with
      | some f =>
        let t := f s
        match t.jrn.ring with
        | r :: l => { t with jrn := { t.jrn with ring := { r with addr := addr, mask := data } :: l } }
        | [] => t
      | none => storeWord o pg i regAddr addr d data s
    else record s o 0 addr old old data

/-- A plain write (R10). -/
def plainWrite (o : Origin) (addr : Nat) (data : Word) (s : State) : State :=
  match addrReject s o addr, pageAt addr with
  | some c, _ => turnedAway o c addr allOnes s
  | none, none => turnedAway o 6 addr allOnes s
  | none, some (pg, i) =>
    match routed o addr data with
    | some f => f s
    | none => storeWord o pg i addr addr data (writeMask pg i (addr % 0x1000) data) s

/-- A write at any address, as its zone says (R280, R281). -/
def writeAt (o : Origin) (addr : Nat) (data : Word) (s : State) : State :=
  match (zoneOf (addr % 0x1000)).1 with
  | .setAlias | .clearAlias => aliasWrite o addr data s
  | _ => plainWrite o addr data s

/-- REGISTER_WRITE (R10). -/
def execRegisterWrite (o : Origin) (addr : Nat) (data : Word) (s : State) : Res := .next (writeAt o addr data s)

/-- BIT_SET_ALIAS_WRITE (R281): `addr` is the alias, 0x400 above the register. An address elsewhere is written as its zone says. -/
def execBitSetAliasWrite (o : Origin) (addr : Nat) (data : Word) (s : State) : Res := .next (writeAt o addr data s)

/-- BIT_CLEAR_ALIAS_WRITE (R281): `addr` is the alias, 0x800 above the register. -/
def execBitClearAliasWrite (o : Origin) (addr : Nat) (data : Word) (s : State) : Res := .next (writeAt o addr data s)

/-- PAGE_ENABLE (R280, R349): a write of PAGE_CTL. -/
def execPageEnable (o : Origin) (base : Nat) (data : Word) (s : State) : Res := .next (writePageCtl o base data s)

/-- BLOCK_RESET (R20, R21): a write of PAGE_CTL with BLOCK_RESET set and the other fields as they stand. -/
def execBlockReset (o : Origin) (base : Nat) (s : State) : Res :=
  .next (writePageCtl o base (reg s (base + 4) ||| 2) s)

/-- PAGE_LOCK (R10, R280): a write of PAGE_CTL. -/
def execPageLock (o : Origin) (base : Nat) (data : Word) (s : State) : Res := .next (writePageCtl o base data s)

/-- ERR_INJECT_ARM (R324). -/
def execErrInjectArm (o : Origin) (base : Nat) (data : Word) (s : State) : Res := .next (writeInject o base data s)

/-! ### The access commands -/

/-- An access that names no whole register completes with unsupported-request status; a write of the kind is journaled with code
6 (R9, R282, R295). -/
def unsupported (o : Origin) (addr : Nat) (write : Option Word) (s : State) : State :=
  match write with
  | some _ => record s o 6 addr 0 0 allOnes
  | none => setDone s .unsupported 0

/-- UNALIGNED_ACCESS (R9): `size` bytes. An aligned word is no unaligned access, and nothing happens. -/
def execUnalignedAccess (o : Origin) (addr size : Nat) (write : Bool) (s : State) : Res :=
  .next (if addr % 4 = 0 ∧ size = 4 then s else unsupported o addr (if write then some 0 else none) s)

/-- UNMAPPED_ACCESS (R282): an address that holds no page of the origin. Where there is one, nothing happens. -/
def execUnmappedAccess (o : Origin) (addr : Nat) (write : Option Word) (s : State) : Res :=
  .next (if (reach s o addr).isSome then s else unsupported o addr write s)

/-- The counter whose low word is at an address (R71, R234, R235): the 48-bit counters at 0x200 + 8i of a page, where the page's table
holds no field, and PRBS_ERR and MS_ERR of a lane. -/
def isCounter (pg : Page) (off : Nat) : Bool :=
  (0x200 ≤ off && off < 0x300 && off % 8 == 0 && !noCounters pg && wordFields pg off == []) ||
  (pg == .SDS && (off == 0x60 || off == 0x68))

/-- A value of 64 bits that a register of a page shows (R296, R297, R332): the sequence numbers of the journal and the source bits of the
fault collector, whose low word's read latches the high one. -/
def wideAt (s : State) (pg : Page) (off : Nat) : Option Nat :=
  if pg = .JRN ∧ off = 0x58 then some s.jrn.cseq
  else if pg = .JRN ∧ off = 0x60 then some (fldW s pgJRN JRN_CSEQ_STREAMED 2)
  else if pg = .FLT ∧ off = 0x40 then some (fldW s pgFLT FLT_SRC_STATUS 2)
  else none

/-- Does the hardware itself move a counter that no command of the model moves (R234 PRBS_ERR of a locked checker, R169 IDLE_CYCLES, the
stacked memory's traffic and ECC events, a lookup's late overflow read in LOOKUP_RETRY (R183), the FEC codewords of an uplink port): what
it reads is free (log entry 3)? -/
def freeCounter (s : State) (pg : Page) (i off : Nat) : Bool :=
  match pg with
  | .SDS => off == 0x60 && bitAt (fld s (pgSDS i) SDS_STATUS) 2
  | .ENG => off == 0x200 + 8 * ENG_C_IDLE_CYCLES
  | .HBM => [HBM_C_ECC_CORR, HBM_C_ECC_UNCORR, HBM_C_READ_BYTES, HBM_C_WRITE_BYTES].any (fun j => off == 0x200 + 8 * j)
  | .GZT => off == 0x200 + 8 * GZT_C_LOOKUP_RETRY
  | .ETH => off == 0x200 + 8 * ETH_C_FEC_CORR_CW || off == 0x200 + 8 * ETH_C_FEC_UNCORR_CW
  | _ => false

/-- The low word of a counter is read and latches the high word. -/
def readLow (s : State) (a n : Nat) : State × Word :=
  ({ s with bus := { s.bus with latch := tset dzero s.bus.latch (a + 4) (n >>> 32) } }, BitVec.ofNat 32 n)

/-- COUNTER_LOW_READ (R71). Through an alias the register is read (R281). -/
def readWord (pg : Page) (i a : Nat) (s : State) : State × Word :=
  let off := a % 0x1000
  if isCounter pg off then
    if freeCounter s pg i off then
      let n := freeVal s % 2 ^ 48
      readLow (setCnt (drawFree s) a n) a n
    else readLow s a (cntAt s a)
  else match wideAt s pg off with
  | some n => readLow s a n
  | none =>
    if 4 ≤ off ∧ (isCounter pg (off - 4) ∨ (wideAt s pg (off - 4)).isSome) then (s, BitVec.ofNat 32 (tget dzero s.bus.latch a))
    else
      let w := reg s a
      let fs := wordFields pg off
      let shown := fs.foldl (fun v f => if f.acc = .wo then withBits v f.lsb f.width 0 else v) w
      let left := fs.foldl (fun v f => if f.acc = .rc then withBits v f.lsb f.width 0 else v) w
      (if left = w then s else setReg s a left, shown)

/-- What a function's read of an I2C data word gives: the bytes of another function's transaction read 0 (R248, R283). -/
def hidden (s : State) (o : Origin) (pg : Page) (off : Nat) : Bool :=
  pg == .OPT && 0x200 ≤ off && off < 0x300 &&
    (tget I2c.init s.link.i2c ((off - 0x200) / 32)).caller.any (fun v => v != Origin.slice o && Origin.slice o != 0)

/-- The drops of the ring shown in the event window clear with their register (R300 EVT 0x0A4). -/
def clearDrops (s : State) (o : Origin) (pg : Page) (off : Nat) : State :=
  if pg = .EVT ∧ off = 0xA4 then
    let r := 15 * Origin.slice o + fld s pgEVT EVT_EV_RING
    { s with evt := { s.evt with rings := tset EvRing.init s.evt.rings r { tget EvRing.init s.evt.rings r with drops := 0 } } }
  else s

/-- A read of a register word by an origin (R10, R27, R71, R280, R281). -/
def readReg (o : Origin) (addr : Nat) (s : State) : State :=
  readAccess o addr (fun s =>
    match pageAt addr with
    | none => (s, 0)
    | some (pg, i) =>
      let off := addr % 0x1000
      let z := zoneOf off
      if reservedOff z.2 then (s, 0)
      else
        let r := readWord pg i (addr - off + z.2) s
        (clearDrops r.1 o pg z.2, if hidden s o pg z.2 then 0 else r.2)) s

/-- READ_CLEAR_ACCESS (R10). A register without an RC field is read with nothing cleared. -/
def execReadClearAccess (o : Origin) (addr : Nat) (s : State) : Res := .next (readReg o addr s)

/-- COUNTER_LOW_READ (R71). -/
def execCounterLowRead (o : Origin) (addr : Nat) (s : State) : Res := .next (readReg o addr s)

end Sys2Proof.Machine
end

