-- ==== Sys2Proof/Machine/Image.lean ====
section
/-! DEFINITION. The image (R230, R301, R309 to R311): its checks, the application of its sections, and the training of the stacked
memory that application waits for. -/

namespace Sys2Proof.Machine

/-! ### The checks (R230, R310) -/

/-- Does a section's LENGTH fit its TYPE (R309)? -/
def lengthOk (e : ImageEntry) : Bool :=
  match e.ty, e.body with
  | 1, .reg l => e.length == 12 * l.length
  | 2, .ucs _ _ ws vs _ => e.length == 20 * ws.length + 36 && 1 ≤ ws.length && ws.length ≤ 16384 && vs.length == 8
  | 3, .poll l => e.length == 16 * l.length
  | 4, .note => true
  | _, _ => false

/-- Does a section lie inside the signed part, word-aligned, behind the table of n entries (R310)? -/
def placeOk (n len : Nat) (e : ImageEntry) : Bool :=
  e.offset % 4 == 0 && 256 + 16 * n ≤ e.offset && e.offset + e.length ≤ len - 96

/-- Do two sections overlap? -/
def entriesOverlap (a b : ImageEntry) : Bool := a.offset < b.offset + b.length && b.offset < a.offset + a.length

/-- Do the sections of a table overlap? -/
def anyMeet : List ImageEntry → Bool
  | [] => false
  | e :: l => l.any (entriesOverlap e) || anyMeet l

/-- Are IMAGE_LEN, SECTIONS and every section as R309 has them? -/
def shapeOk (x : Image) : Bool :=
  let n := x.sections.length
  x.len % 4 == 0 && 1024 ≤ x.len && x.len ≤ 16777216 && 1 ≤ n && n ≤ 1024 &&
    x.sections.all (fun e => lengthOk e && placeOk n x.len e) && !anyMeet x.sections

/-- The key-hash slot that holds an image's key (R230). -/
def keySlotOf (x : Image) : Option Nat :=
  (List.range 2).find? (fun j => bitAt Config.keyProg.toNat j && Config.keyHash j == x.keyHash)

/-- SIG_STATUS (R230). -/
def sigStatus (s : State) (x : Image) : Nat :=
  match keySlotOf x with
  | none => 1
  | some j => if bitAt (revokedBits s) j then 2 else if x.sigValid then 0 else 3

/-- The signature check with what it shows (R231 CIP). -/
def checkSig (s : State) (x : Image) : State :=
  let n := sigStatus s x
  let s1 := setFld (setFld s pgCIP CIP_SIG_STATUS n) pgCIP CIP_SIG_SLOT ((keySlotOf x).getD 0)
  let s2 := bump s1 pgCIP CIP_C_SIG_CHECKS 1
  if n = 0 then s2 else note s2 pgCIP CIP_F_SIG_FAIL CIP_C_SIG_FAIL

/-- The header's fields, once it has been read (R318 BOOT). -/
def showHeader (s : State) (x : Image) : State :=
  setReg (setReg (setReg s (pgBOOT + BOOT_IMAGE_LEN.off) (BitVec.ofNat 32 x.len)) (pgBOOT + BOOT_IMAGE_VER.off) x.ver)
    (pgBOOT + BOOT_BUILD_ID.off) x.build

/-- "FOSR" as bytes 0 to 3 of a header, little-endian (R309). -/
def imageMagic : Nat := 0x52534F46

/-- The checks in their order: what they set and the FAIL_CAUSE, 0 for none (R310). Reading comes before checking. -/
def checkImage (s : State) (x : Image) : State × Nat :=
  if !x.response then (s, 1)
  else if x.readError then (s, 7)
  else
    let s1 := showHeader (bump s pgBOOT BOOT_C_IMAGES_CHECKED 1) x
    if x.magic ≠ imageMagic then (s1, 1)
    else if x.format ≠ 1 ∨ x.device ≠ 0x5032 then (s1, 2)
    else if !shapeOk x then (s1, 3)
    else (checkSig s1 x, if sigStatus s1 x = 0 then 0 else 4)

/-! ### Applying the sections (R309, R311) -/

/-- An error of the application (R311). -/
def applyError (s : State) : State := flag (bumpFld s pgBOOT BOOT_APPLY_ERR_CNT 1) pgBOOT BOOT_F_APPLY_ERR

/-- The last write was rejected (R295). -/
def lastRejected (s : State) : Bool := s.jrn.ring.head?.any (fun r => r.code != 0)

/-- A REG record: the register takes (old AND NOT MASK) OR (VALUE AND MASK); W1C bits outside MASK are not touched. Answers whether the
write failed. -/
def applyReg (s : State) (r : Nat × Word × Word) : State × Bool :=
  let a := r.1
  let keep := match pageAt a with
    | some (pg, i) => writeMask pg i (a % 0x1000) 0
    | none => 0
  let t := writeAt .boot a ((reg s a &&& ~~~r.2.1 &&& keep) ||| (r.2.2 &&& r.2.1)) s
  (t, lastRejected t)

/-- A POLL record: the value stands, or it comes before TIMEOUT_US, or it does not; which of the two is the hardware's, and free (log
entry 3). -/
def applyPoll (s : State) (r : Nat × Word × Word) : State × Bool :=
  let t := readReg .boot r.1 s
  if t.bus.data &&& r.2.1 = r.2.2 then (t, false) else (drawFree t, freeVal t % 2 == 1)

/-- A UCS section for one cluster: the bank is loaded, its entry vectors are set and it becomes active; a bank whose CRC differs is
passed over. -/
def applyUcs (b : Bool) (ws : List (BitVec 160)) (vs : List Nat) (crc : Word) (s : State) (k : Nat) : State × Bool :=
  let t := ws.zipIdx.foldl (fun t x => tset dword t x.2 x.1) []
  let base := pgUCS k
  let sum := imageCrc t ws.length
  let s1 := setFld (setFld (setFld s base UCS_LOAD_LEN ws.length) base UCS_LOAD_CRC crc.toNat) base UCS_CALC_CRC sum
  if sum ≠ crc.toNat then (s1, true)
  else
    let s2 := bump (setBank s1 k b t) base UCS_C_WORDS_LOADED ws.length
    let x := cluster s2 k
    let s3 := setCluster s2 k (if b then { x with lenB := ws.length } else { x with lenA := ws.length })
    let s4 := vs.zipIdx.foldl (fun u v => setFld u base ((if b then UCS_ENTRY_B else UCS_ENTRY_A).at v.2) v.1) s3
    (setBit s4 base UCS_ACTIVE_BANK b, false)

/-- Every block is reset with calibration and fuses kept (R311): EVT_SEQ, LOCK and the counters stand as at any block reset (R10, R71,
R280), the journal goes on, and the boot loader, the stores and the stacked memory keep their pages. -/
def resetBlocks (s : State) : State :=
  let z := State.reset
  let whole : Nat → Bool := fun a => [pgDEV, pgBOOT, pgFUSE, pgCAL, pgHBM, pgJRN].contains (a / 0x1000 * 0x1000)
  let kept := s.bus.regs.filterMap (fun e =>
    if whole e.1 || e.1 % 0x1000 == 0x20 then some e
    else if e.1 % 0x1000 == 4 && e.2.getLsbD 3 then some (e.1, (9#32)) else none)
  let t : State := { z with
    pending := s.pending, freeCtr := s.freeCtr, jrn := s.jrn, boot := s.boot,
    bus := { s.bus with regs := kept, latch := [], armed := [] } }
  let t1 := calItems.foldl (fun u x => reloadCal u x.1 x.2) t
  showUses ((List.range 16).foldl loadEngFuses (publishAllOffsets t1)) 228 8

/-- The first error of a STRICT image ends the stage (R311). -/
def strictAbort (s : State) : State := hostWindow (imageFail (resetBlocks s) 6)

/-- Apply a list of records; with STRICT the first error ends the list. -/
def applyList {α : Type} (f : State → α → State × Bool) (strict : Bool) : List α → State → State × Bool
  | [], s => (s, false)
  | r :: l, s =>
    let (t, bad) := f s r
    if bad && strict then (applyError t, true)
    else applyList f strict l (if bad then applyError t else t)

/-- Apply a section; answers whether the stage ends. -/
def applySection (strict : Bool) (s : State) (e : ImageEntry) : State × Bool :=
  match e.body with
  | .reg l => applyList applyReg strict l s
  | .poll l => applyList applyPoll strict l s
  | .ucs mask b ws vs crc => applyList (applyUcs b ws vs crc) strict ((List.range 16).filter (bitAt mask ·)) s
  | .note => (s, false)

/-- The sections in table order; a write that resets the chip ends the stage with it. -/
def applySections (strict : Bool) : List ImageEntry → State → State × Bool
  | [], s => (s, false)
  | e :: l, s =>
    let (t, stop) := applySection strict s e
    if stop then (t, true)
    else if fld t pgDEV DEV_CHIP_STATE != 2 then (t, false)
    else applySections strict l t

/-- Apply the staged image once every stack is trained (R301). -/
def applyImage (s : State) : State :=
  match s.boot.image with
  | none => s
  | some x =>
    if s.boot.applied || !stacksUp s || fld s pgBOOT BOOT_STAGE != stApply then s
    else
      let (t, stop) := applySections x.strict x.sections s
      if stop then strictAbort t
      else if fld t pgDEV DEV_CHIP_STATE == 2 then { t with boot := { t.boot with applied := true } } else t

/-! ### The commands -/

/-- Does the loader wait for an image: from SPI or a mesh peer while reading, from the host while BUSY (R307)? -/
def readsImage (s : State) : Bool :=
  imageStage s && (fld s pgBOOT BOOT_STAGE == stRead || (fld s pgBOOT BOOT_STAGE == stHost && isSet s pgBOOT BOOT_BUSY))

/-- IMAGE_CHECK (R310): the image read, or what came in its place, is checked; one that passes is applied, one that fails sends the
loader to its next source. -/
def execImageCheck (img : Image) (s : State) : Res :=
  if !readsImage s then .next s
  else
    let b := pgBOOT
    let (s1, cause) := checkImage (setBit s b BOOT_BUSY false) img
    if cause ≠ 0 then .next (nextSource (imageFail s1 cause))
    else
      let s2 := setFld (setFld s1 b BOOT_FAIL_CAUSE 0) b BOOT_STAGE stApply
      let s3 := if fld s2 b BOOT_SRC_USED = srcSpi ∧ s2.boot.slot = 1 then flag s2 b BOOT_F_SLOT1_USED else s2
      .next (applyImage { s3 with boot := { s3.boot with image := some img, applied := false } })

/-- HBM_TRAINED (R301): a stack has trained; with the last one a staged image is applied. -/
def execHbmTrained (stack : Fin 4) (s : State) : Res :=
  if !s.boot.powered || released s then .next s
  else
    let s1 := setFld s pgHBM ⟨HBM_STACK_OK.off, HBM_STACK_OK.lsb + stack.val, 1, 0⟩ 1
    .next (if imageStage s1 then applyImage (settlePools s s1) else settlePools s s1)

end Sys2Proof.Machine
end

