-- ==== Sys2Proof/Machine/Dispatch.lean ====
section
/-! DEFINITION. The dispatch: one arm per command, each one direct call of that command's meaning. -/

namespace Sys2Proof.Machine

def exec (i : Instr) (s : State) : Host.Outcome State Fault Refusal :=
  match i with
  | .registerWrite o addr data => Sys2Proof.Machine.execRegisterWrite o addr data s
  | .readClearAccess o addr => Sys2Proof.Machine.execReadClearAccess o addr s
  | .counterLowRead o addr => Sys2Proof.Machine.execCounterLowRead o addr s
  | .bitSetAliasWrite o addr data => Sys2Proof.Machine.execBitSetAliasWrite o addr data s
  | .bitClearAliasWrite o addr data => Sys2Proof.Machine.execBitClearAliasWrite o addr data s
  | .unalignedAccess o addr size write => Sys2Proof.Machine.execUnalignedAccess o addr size write s
  | .unmappedAccess o addr write => Sys2Proof.Machine.execUnmappedAccess o addr write s
  | .pageEnable o base data => Sys2Proof.Machine.execPageEnable o base data s
  | .blockReset o base => Sys2Proof.Machine.execBlockReset o base s
  | .pageLock o base data => Sys2Proof.Machine.execPageLock o base data s
  | .errInjectArm o base data => Sys2Proof.Machine.execErrInjectArm o base data s
  | .timedActionFire ix => Sys2Proof.Machine.execTimedActionFire ix s
  | .frameBoundary pulls => Sys2Proof.Machine.execFrameBoundary pulls s
  | .gridSecond => Sys2Proof.Machine.execGridSecond s
  | .grefLost b => Sys2Proof.Machine.execGrefLost b s
  | .ppsLost b => Sys2Proof.Machine.execPpsLost b s
  | .refQualified input => Sys2Proof.Machine.execRefQualified input s
  | .ppsEdge b freqPpt phase => Sys2Proof.Machine.execPpsEdge b freqPpt phase s
  | .stepCmd o data => Sys2Proof.Machine.execStepCmd o data s
  | .stepApply => Sys2Proof.Machine.execStepApply s
  | .nowRead o pairs => Sys2Proof.Machine.execNowRead o pairs s
  | .todNowRead o pairs => Sys2Proof.Machine.execTodNowRead o pairs s
  | .nsNowRead o pairs => Sys2Proof.Machine.execNsNowRead o pairs s
  | .baseCommit o data => Sys2Proof.Machine.execBaseCommit o data s
  | .todBaseApply => Sys2Proof.Machine.execTodBaseApply s
  | .todMessage bytes => Sys2Proof.Machine.execTodMessage bytes s
  | .captureEdge ix rising => Sys2Proof.Machine.execCaptureEdge ix rising s
  | .capFifoRead o => Sys2Proof.Machine.execCapFifoRead o s
  | .ploamPush o p c => Sys2Proof.Machine.execPloamPush o p c s
  | .ploamPushRetry p c => Sys2Proof.Machine.execPloamPushRetry p c s
  | .burstReceive p c b => Sys2Proof.Machine.execBurstReceive p c b s
  | .eqdRetry p ix => Sys2Proof.Machine.execEqdRetry p ix s
  | .reasmTimeout x => Sys2Proof.Machine.execReasmTimeout x s
  | .xpRead o p => Sys2Proof.Machine.execXpRead o p s
  | .xpWrite o p => Sys2Proof.Machine.execXpWrite o p s
  | .xpInvalidate o p => Sys2Proof.Machine.execXpInvalidate o p s
  | .onuRead o p => Sys2Proof.Machine.execOnuRead o p s
  | .onuWrite o p => Sys2Proof.Machine.execOnuWrite o p s
  | .onuCounterClear o p => Sys2Proof.Machine.execOnuCounterClear o p s
  | .cntClr o base => Sys2Proof.Machine.execCntClr o base s
  | .keySwGo o p c => Sys2Proof.Machine.execKeySwGo o p c s
  | .keySwitch p c => Sys2Proof.Machine.execKeySwitch p c s
  | .keyGraceEnd p ix => Sys2Proof.Machine.execKeyGraceEnd p ix s
  | .profileWrite o p c j w data => Sys2Proof.Machine.execProfileWrite o p c j w data s
  | .brstPulse p c => Sys2Proof.Machine.execBrstPulse p c s
  | .phasePreload p c => Sys2Proof.Machine.execPhasePreload p c s
  | .phaseWriteBack p c ix phase peak => Sys2Proof.Machine.execPhaseWriteBack p c ix phase peak s
  | .sdLevelChange p c level samples => Sys2Proof.Machine.execSdLevelChange p c level samples s
  | .rssiGo o p c => Sys2Proof.Machine.execRssiGo o p c s
  | .rssiPulse p c => Sys2Proof.Machine.execRssiPulse p c s
  | .darkSlotTest p c sdHigh lightRun => Sys2Proof.Machine.execDarkSlotTest p c sdHigh lightRun s
  | .pmRead o p c => Sys2Proof.Machine.execPmRead o p c s
  | .pmWrite o p c conflict => Sys2Proof.Machine.execPmWrite o p c conflict s
  | .pmInvalidate o p c => Sys2Proof.Machine.execPmInvalidate o p c s
  | .reachWrite o p c off data => Sys2Proof.Machine.execReachWrite o p c off data s
  | .surveyWindowClose p c lightUnaccounted badMessage => Sys2Proof.Machine.execSurveyWindowClose p c lightUnaccounted badMessage s
  | .snResponse p c sn hp => Sys2Proof.Machine.execSnResponse p c sn hp s
  | .rangingGrantDue p ix => Sys2Proof.Machine.execRangingGrantDue p ix s
  | .rangingResponse p ix captureNs captureFrac => Sys2Proof.Machine.execRangingResponse p ix captureNs captureFrac s
  | .rangingWindowClose p ix => Sys2Proof.Machine.execRangingWindowClose p ix s
  | .registrationReceived p ix id => Sys2Proof.Machine.execRegistrationReceived p ix id s
  | .registerTimeout p ix => Sys2Proof.Machine.execRegisterTimeout p ix s
  | .popupExpire p ix => Sys2Proof.Machine.execPopupExpire p ix s
  | .rgRead o p c => Sys2Proof.Machine.execRgRead o p c s
  | .rgSetEqd o p c conflict => Sys2Proof.Machine.execRgSetEqd o p c conflict s
  | .rgRerange o p c => Sys2Proof.Machine.execRgRerange o p c s
  | .mapInputDeadline p c => Sys2Proof.Machine.execMapInputDeadline p c s
  | .mapSealed p c buildGt => Sys2Proof.Machine.execMapSealed p c buildGt s
  | .mapOutput p c => Sys2Proof.Machine.execMapOutput p c s
  | .adRead o p c => Sys2Proof.Machine.execAdRead o p c s
  | .adWrite o p c => Sys2Proof.Machine.execAdWrite o p c s
  | .adClearGranted o p c => Sys2Proof.Machine.execAdClearGranted o p c s
  | .obRead o p c => Sys2Proof.Machine.execObRead o p c s
  | .obWrite o p c => Sys2Proof.Machine.execObWrite o p c s
  | .tplLoad o p => Sys2Proof.Machine.execTplLoad o p s
  | .tplStop o p => Sys2Proof.Machine.execTplStop o p s
  | .tplBegin p t => Sys2Proof.Machine.execTplBegin p t s
  | .entRead o p => Sys2Proof.Machine.execEntRead o p s
  | .entWrite o p => Sys2Proof.Machine.execEntWrite o p s
  | .grpRead o p => Sys2Proof.Machine.execGrpRead o p s
  | .grpWrite o p => Sys2Proof.Machine.execGrpWrite o p s
  | .grpCounterClear o p => Sys2Proof.Machine.execGrpCounterClear o p s
  | .bondFragmentArrive p c portId hdr len mapFrame => Sys2Proof.Machine.execBondFragmentArrive p c portId hdr len mapFrame s
  | .bondGapDeadline p g => Sys2Proof.Machine.execBondGapDeadline p g s
  | .memberFallback p g => Sys2Proof.Machine.execMemberFallback p g s
  | .groupDown p g => Sys2Proof.Machine.execGroupDown p g s
  | .memberRejoin p g => Sys2Proof.Machine.execMemberRejoin p g s
  | .packetLanding src dir len bytes => Sys2Proof.Machine.execPacketLanding src dir len bytes s
  | .packetDispatch => Sys2Proof.Machine.execPacketDispatch s
  | .aluOperation x => Sys2Proof.Machine.execAluOperation x s
  | .seqGo x => Sys2Proof.Machine.execSeqGo x s
  | .seqWait x => Sys2Proof.Machine.execSeqWait x s
  | .seqBr x => Sys2Proof.Machine.execSeqBr x s
  | .seqCall x => Sys2Proof.Machine.execSeqCall x s
  | .seqRet x => Sys2Proof.Machine.execSeqRet x s
  | .seqMway x => Sys2Proof.Machine.execSeqMway x s
  | .seqLoop x => Sys2Proof.Machine.execSeqLoop x s
  | .seqDone x => Sys2Proof.Machine.execSeqDone x s
  | .seqDrop x => Sys2Proof.Machine.execSeqDrop x s
  | .seqPunt x => Sys2Proof.Machine.execSeqPunt x s
  | .seqTrap x => Sys2Proof.Machine.execSeqTrap x s
  | .scratchRead x => Sys2Proof.Machine.execScratchRead x s
  | .scratchWrite x conflict => Sys2Proof.Machine.execScratchWrite x conflict s
  | .scratchFetchAdd x => Sys2Proof.Machine.execScratchFetchAdd x s
  | .tblLegendMatch x => Sys2Proof.Machine.execTblLegendMatch x s
  | .tblGztLookup x => Sys2Proof.Machine.execTblGztLookup x s
  | .tblGztLearn x => Sys2Proof.Machine.execTblGztLearn x s
  | .tblGztRefresh x => Sys2Proof.Machine.execTblGztRefresh x s
  | .tblGztDelete x => Sys2Proof.Machine.execTblGztDelete x s
  | .tblStateRead x => Sys2Proof.Machine.execTblStateRead x s
  | .tblStateWrite x => Sys2Proof.Machine.execTblStateWrite x s
  | .cipCmac x => Sys2Proof.Machine.execCipCmac x s
  | .cipCmacVerify x => Sys2Proof.Machine.execCipCmacVerify x s
  | .cipKeyDerive x => Sys2Proof.Machine.execCipKeyDerive x s
  | .cipRandom x => Sys2Proof.Machine.execCipRandom x s
  | .cipKcv x => Sys2Proof.Machine.execCipKcv x s
  | .cipStatus x => Sys2Proof.Machine.execCipStatus x s
  | .cipInvalidate x => Sys2Proof.Machine.execCipInvalidate x s
  | .bpmAllocate x => Sys2Proof.Machine.execBpmAllocate x s
  | .bpmAllocateRepl x => Sys2Proof.Machine.execBpmAllocateRepl x s
  | .bpmFree x => Sys2Proof.Machine.execBpmFree x s
  | .bpmRefInc x => Sys2Proof.Machine.execBpmRefInc x s
  | .bpmRefDec x => Sys2Proof.Machine.execBpmRefDec x s
  | .bpmPassOwnership x => Sys2Proof.Machine.execBpmPassOwnership x s
  | .tmqEnqueue x => Sys2Proof.Machine.execTmqEnqueue x s
  | .tmqEnqueueReplica x => Sys2Proof.Machine.execTmqEnqueueReplica x s
  | .tmqReadLevel x => Sys2Proof.Machine.execTmqReadLevel x s
  | .tmqReadBpLevel x => Sys2Proof.Machine.execTmqReadBpLevel x s
  | .tmqDequeue x => Sys2Proof.Machine.execTmqDequeue x s
  | .hdrReplace x => Sys2Proof.Machine.execHdrReplace x s
  | .hdrInsert x => Sys2Proof.Machine.execHdrInsert x s
  | .hdrRemove x => Sys2Proof.Machine.execHdrRemove x s
  | .hdrPushTag x => Sys2Proof.Machine.execHdrPushTag x s
  | .hdrPopTag x => Sys2Proof.Machine.execHdrPopTag x s
  | .hdrSetLength x => Sys2Proof.Machine.execHdrSetLength x s
  | .counterBump x => Sys2Proof.Machine.execCounterBump x s
  | .microcodeEvent x => Sys2Proof.Machine.execMicrocodeEvent x s
  | .flagSet x => Sys2Proof.Machine.execFlagSet x s
  | .flagClear x => Sys2Proof.Machine.execFlagClear x s
  | .flagToggle x => Sys2Proof.Machine.execFlagToggle x s
  | .unitCompletion x u => Sys2Proof.Machine.execUnitCompletion x u s
  | .waitConditionMet x => Sys2Proof.Machine.execWaitConditionMet x s
  | .waitTimeout x => Sys2Proof.Machine.execWaitTimeout x s
  | .watchdog x => Sys2Proof.Machine.execWatchdog x s
  | .runOver x => Sys2Proof.Machine.execRunOver x s
  | .reorderRelease src => Sys2Proof.Machine.execReorderRelease src s
  | .ucsLoadWord o k data => Sys2Proof.Machine.execUcsLoadWord o k data s
  | .ucsReadWord o k data => Sys2Proof.Machine.execUcsReadWord o k data s
  | .swapCmd o k => Sys2Proof.Machine.execSwapCmd o k s
  | .swapDone k => Sys2Proof.Machine.execSwapDone k s
  | .spareRetire o k e => Sys2Proof.Machine.execSpareRetire o k e s
  | .spareReinstate o k e => Sys2Proof.Machine.execSpareReinstate o k e s
  | .engineDrained k e => Sys2Proof.Machine.execEngineDrained k e s
  | .engineLost k e => Sys2Proof.Machine.execEngineLost k e s
  | .roleMapWrite o data => Sys2Proof.Machine.execRoleMapWrite o data s
  | .roleChangeApply => Sys2Proof.Machine.execRoleChangeApply s
  | .lgdRuleRead o => Sys2Proof.Machine.execLgdRuleRead o s
  | .lgdRuleWrite o => Sys2Proof.Machine.execLgdRuleWrite o s
  | .lgdRuleInvalidate o => Sys2Proof.Machine.execLgdRuleInvalidate o s
  | .lgdMoveBlock o => Sys2Proof.Machine.execLgdMoveBlock o s
  | .lgdMoveDone => Sys2Proof.Machine.execLgdMoveDone s
  | .lgdHitClear o => Sys2Proof.Machine.execLgdHitClear o s
  | .vidSliceRead o => Sys2Proof.Machine.execVidSliceRead o s
  | .vidSliceWrite o => Sys2Proof.Machine.execVidSliceWrite o s
  | .learnArbitration => Sys2Proof.Machine.execLearnArbitration s
  | .relocGuardExpire b => Sys2Proof.Machine.execRelocGuardExpire b s
  | .ageEpoch => Sys2Proof.Machine.execAgeEpoch s
  | .gztLookupCmd o => Sys2Proof.Machine.execGztLookupCmd o s
  | .gztInsert o => Sys2Proof.Machine.execGztInsert o s
  | .gztDeleteCmd o => Sys2Proof.Machine.execGztDeleteCmd o s
  | .gztReadSlot o => Sys2Proof.Machine.execGztReadSlot o s
  | .gztFlushDomain o => Sys2Proof.Machine.execGztFlushDomain o s
  | .gztFlushDest o => Sys2Proof.Machine.execGztFlushDest o s
  | .gztBulkDone => Sys2Proof.Machine.execGztBulkDone s
  | .gztThaw o => Sys2Proof.Machine.execGztThaw o s
  | .gztSetDomainOwner o => Sys2Proof.Machine.execGztSetDomainOwner o s
  | .queueRead o => Sys2Proof.Machine.execQueueRead o s
  | .queueWrite o => Sys2Proof.Machine.execQueueWrite o s
  | .queueCounterClear o => Sys2Proof.Machine.execQueueCounterClear o s
  | .tmqOnuRead o => Sys2Proof.Machine.execTmqOnuRead o s
  | .tmqOnuWrite o => Sys2Proof.Machine.execTmqOnuWrite o s
  | .nodeRead o => Sys2Proof.Machine.execNodeRead o s
  | .nodeWrite o => Sys2Proof.Machine.execNodeWrite o s
  | .nodeSettle o => Sys2Proof.Machine.execNodeSettle o s
  | .settleEnd level node => Sys2Proof.Machine.execSettleEnd level node s
  | .uplinkEgressPull q ptp => Sys2Proof.Machine.execUplinkEgressPull q ptp s
  | .prefetchMove q => Sys2Proof.Machine.execPrefetchMove q s
  | .spillWrite => Sys2Proof.Machine.execSpillWrite s
  | .bufferWaitGrant pool => Sys2Proof.Machine.execBufferWaitGrant pool s
  | .cxlMigrate o x => Sys2Proof.Machine.execCxlMigrate o x s
  | .cxlCancel o x => Sys2Proof.Machine.execCxlCancel o x s
  | .cxlLinkDown o x => Sys2Proof.Machine.execCxlLinkDown o x s
  | .cxlLinkUp o x capGib => Sys2Proof.Machine.execCxlLinkUp o x capGib s
  | .cxlTrainTimeout x => Sys2Proof.Machine.execCxlTrainTimeout x s
  | .migrationDone x => Sys2Proof.Machine.execMigrationDone x s
  | .expanderLinkLost x => Sys2Proof.Machine.execExpanderLinkLost x s
  | .stackFail stack => Sys2Proof.Machine.execStackFail stack s
  | .keyRead o => Sys2Proof.Machine.execKeyRead o s
  | .keyWrite o conflict => Sys2Proof.Machine.execKeyWrite o conflict s
  | .keyInvalidate o => Sys2Proof.Machine.execKeyInvalidate o s
  | .saRead o q => Sys2Proof.Machine.execSaRead o q s
  | .saWrite o q => Sys2Proof.Machine.execSaWrite o q s
  | .saInvalidate o q => Sys2Proof.Machine.execSaInvalidate o q s
  | .txAnSwitch q => Sys2Proof.Machine.execTxAnSwitch q s
  | .tamperAlarm alarm => Sys2Proof.Machine.execTamperAlarm alarm s
  | .keyZeroize o data => Sys2Proof.Machine.execKeyZeroize o data s
  | .uplinkReceiveFrame q f => Sys2Proof.Machine.execUplinkReceiveFrame q f s
  | .xoffRefresh q => Sys2Proof.Machine.execXoffRefresh q s
  | .marginScanGo o l => Sys2Proof.Machine.execMarginScanGo o l s
  | .marginScanDone l count => Sys2Proof.Machine.execMarginScanDone l count s
  | .doorbell o data => Sys2Proof.Machine.execDoorbell o data s
  | .h2dDescriptor r d => Sys2Proof.Machine.execH2dDescriptor r d s
  | .d2hDelivery r len bufLen => Sys2Proof.Machine.execD2hDelivery r len bufLen s
  | .ringCoalesceTimer r => Sys2Proof.Machine.execRingCoalesceTimer r s
  | .dmaError r cause => Sys2Proof.Machine.execDmaError r cause s
  | .ringRead o => Sys2Proof.Machine.execRingRead o s
  | .ringWrite o => Sys2Proof.Machine.execRingWrite o s
  | .ringStart o => Sys2Proof.Machine.execRingStart o s
  | .ringStop o => Sys2Proof.Machine.execRingStop o s
  | .functionLevelReset f => Sys2Proof.Machine.execFunctionLevelReset f s
  | .perstDeassert => Sys2Proof.Machine.execPerstDeassert s
  | .i2cRead o j => Sys2Proof.Machine.execI2cRead o j s
  | .i2cWrite o j => Sys2Proof.Machine.execI2cWrite o j s
  | .i2cDone j nack bytes => Sys2Proof.Machine.execI2cDone j nack bytes s
  | .i2cTimeout j => Sys2Proof.Machine.execI2cTimeout j s
  | .alignmentMarker m lane at_ => Sys2Proof.Machine.execAlignmentMarker m lane at_ s
  | .fillColumn m insert => Sys2Proof.Machine.execFillColumn m insert s
  | .hexcaMessageReceive m msg => Sys2Proof.Machine.execHexcaMessageReceive m msg s
  | .linkDefectChange m defect raised => Sys2Proof.Machine.execLinkDefectChange m defect raised s
  | .noticeResetReceive m => Sys2Proof.Machine.execNoticeResetReceive m s
  | .mirrorRead m => Sys2Proof.Machine.execMirrorRead m s
  | .meshTickSend => Sys2Proof.Machine.execMeshTickSend s
  | .meshTickReceive m t => Sys2Proof.Machine.execMeshTickReceive m t s
  | .hbPulse m widthGt offsetGt => Sys2Proof.Machine.execHbPulse m widthGt offsetGt s
  | .peerFailDeclare m => Sys2Proof.Machine.execPeerFailDeclare m s
  | .darkNoticeReceive m => Sys2Proof.Machine.execDarkNoticeReceive m s
  | .gmTake o => Sys2Proof.Machine.execGmTake o s
  | .gmYield o => Sys2Proof.Machine.execGmYield o s
  | .gmJoin o force => Sys2Proof.Machine.execGmJoin o force s
  | .pairRead o => Sys2Proof.Machine.execPairRead o s
  | .pairWrite o => Sys2Proof.Machine.execPairWrite o s
  | .pairYield o => Sys2Proof.Machine.execPairYield o s
  | .pairReclaim o => Sys2Proof.Machine.execPairReclaim o s
  | .pairResync o => Sys2Proof.Machine.execPairResync o s
  | .pairClaim o => Sys2Proof.Machine.execPairClaim o s
  | .claimApply p => Sys2Proof.Machine.execClaimApply p s
  | .custodyTake p => Sys2Proof.Machine.execCustodyTake p s
  | .laserSettleEnd p => Sys2Proof.Machine.execLaserSettleEnd p s
  | .leaseRundown p => Sys2Proof.Machine.execLeaseRundown p s
  | .checkWindowEnd p => Sys2Proof.Machine.execCheckWindowEnd p s
  | .syncComplete p => Sys2Proof.Machine.execSyncComplete p s
  | .autoYield p => Sys2Proof.Machine.execAutoYield p s
  | .eventDeliver => Sys2Proof.Machine.execEventDeliver s
  | .evtRingRead o => Sys2Proof.Machine.execEvtRingRead o s
  | .evtRingWrite o => Sys2Proof.Machine.execEvtRingWrite o s
  | .evtRingStart o => Sys2Proof.Machine.execEvtRingStart o s
  | .evtRingStop o => Sys2Proof.Machine.execEvtRingStop o s
  | .journalStream => Sys2Proof.Machine.execJournalStream s
  | .journalRecordRead o data => Sys2Proof.Machine.execJournalRecordRead o data s
  | .journalFlushDone => Sys2Proof.Machine.execJournalFlushDone s
  | .sliceEnWrite o data => Sys2Proof.Machine.execSliceEnWrite o data s
  | .slcReadOwner o => Sys2Proof.Machine.execSlcReadOwner o s
  | .slcAssign o => Sys2Proof.Machine.execSlcAssign o s
  | .resetKey o data => Sys2Proof.Machine.execResetKey o data s
  | .resetCmd o data => Sys2Proof.Machine.execResetCmd o data s
  | .chipReset => Sys2Proof.Machine.execChipReset s
  | .powerGood st => Sys2Proof.Machine.execPowerGood st s
  | .fuseLoadDone groupsOk => Sys2Proof.Machine.execFuseLoadDone groupsOk s
  | .calibrationDone => Sys2Proof.Machine.execCalibrationDone s
  | .hbmTrained stack => Sys2Proof.Machine.execHbmTrained stack s
  | .imageCheck img => Sys2Proof.Machine.execImageCheck img s
  | .imageSourceTimeout => Sys2Proof.Machine.execImageSourceTimeout s
  | .release => Sys2Proof.Machine.execRelease s
  | .hostGo o => Sys2Proof.Machine.execHostGo o s
  | .bootRelease o => Sys2Proof.Machine.execBootRelease o s
  | .meshCopyServe m => Sys2Proof.Machine.execMeshCopyServe m s
  | .revokeKey o data => Sys2Proof.Machine.execRevokeKey o data s
  | .revokeCmd o data => Sys2Proof.Machine.execRevokeCmd o data s
  | .calUnlock o data => Sys2Proof.Machine.execCalUnlock o data s
  | .calUnlockTimeout => Sys2Proof.Machine.execCalUnlockTimeout s
  | .calRead o => Sys2Proof.Machine.execCalRead o s
  | .calStoreWrite o => Sys2Proof.Machine.execCalStoreWrite o s
  | .calReload o => Sys2Proof.Machine.execCalReload o s
  | .powerFailWarning => Sys2Proof.Machine.execPowerFailWarning s
  | .powerWarnEnd => Sys2Proof.Machine.execPowerWarnEnd s
  | .warnClr o => Sys2Proof.Machine.execWarnClr o s
  | .powerGoodFall => Sys2Proof.Machine.execPowerGoodFall s
  | .bankRead o => Sys2Proof.Machine.execBankRead o s
  | .bankOn o => Sys2Proof.Machine.execBankOn o s
  | .bankRetention o => Sys2Proof.Machine.execBankRetention o s
  | .bankOff o => Sys2Proof.Machine.execBankOff o s
  | .faultSourceSet src party => Sys2Proof.Machine.execFaultSourceSet src party s
  | .reclaim => Sys2Proof.Machine.execReclaim s
  | .memRegionTest bad => Sys2Proof.Machine.execMemRegionTest bad s
  | .testStealTimeout => Sys2Proof.Machine.execTestStealTimeout s
  | .sweepLate => Sys2Proof.Machine.execSweepLate s
  | .engCheck k pass => Sys2Proof.Machine.execEngCheck k pass s
  | .eyeScan width => Sys2Proof.Machine.execEyeScan width s
  | .pmcStart o => Sys2Proof.Machine.execPmcStart o s
  | .pmcStop o => Sys2Proof.Machine.execPmcStop o s
  | .pmcSnapshot o => Sys2Proof.Machine.execPmcSnapshot o s
  | .pmcCounterRead o => Sys2Proof.Machine.execPmcCounterRead o s
  | .pmcCounterWrite o => Sys2Proof.Machine.execPmcCounterWrite o s
  | .pmcGroupClear o => Sys2Proof.Machine.execPmcGroupClear o s
  | .pmcGroupSnapshot o => Sys2Proof.Machine.execPmcGroupSnapshot o s
  | .traceRecordRead o data => Sys2Proof.Machine.execTraceRecordRead o data s
  | .traceStream => Sys2Proof.Machine.execTraceStream s
  | .uplinkLinkState q up hiBer => Sys2Proof.Machine.execUplinkLinkState q up hiBer s
  | .pcieLinkDown up => Sys2Proof.Machine.execPcieLinkDown up s
  | .cdrLockChange l locked => Sys2Proof.Machine.execCdrLockChange l locked s
  | .prbsCheckerLock l locked => Sys2Proof.Machine.execPrbsCheckerLock l locked s
  | .migrationBufferMove x => Sys2Proof.Machine.execMigrationBufferMove x s
  | .imageStageRestart => Sys2Proof.Machine.execImageStageRestart s

end Sys2Proof.Machine
end

