-- ==== Sys2Proof/Safety.lean ====
section
/-! DEFINITION. The terms in which statements speak: that a command completes and what it leaves, the journal record that a register
command leaves, the parts of the state and what stands still (frames), and the invariants of the device. -/

namespace Sys2Proof.Machine

/-- The command ends in a next state of which `P` holds. -/
def Completes (c : Instr) (s : State) (P : State → Prop) : Prop := ∃ t, exec c s = .next t ∧ P t

/-! ### The journal record of a register command (R295, R296) -/

/-- Exactly one record was entered: the origin's, with this reject code and register address, under the next CSEQ, at this
position. -/
def Entered (s t : State) (o : Origin) (code addr : Nat) : Prop :=
  t.jrn.cseq = s.jrn.cseq + 1 ∧
  ∃ old new mask, t.jrn.ring = (⟨s.jrn.cseq, o, code, now s, addr, old, new, mask⟩ :: s.jrn.ring).take ringMax

/-- The record of a write of one register with its values before and after. -/
def EnteredAs (s t : State) (o : Origin) (code addr : Nat) (old new mask : Word) : Prop :=
  t.jrn.cseq = s.jrn.cseq + 1 ∧
  t.jrn.ring = (⟨s.jrn.cseq, o, code, now s, addr, old, new, mask⟩ :: s.jrn.ring).take ringMax

/-- A write with this reject code (0 for accepted) was recorded and completed, as R27 and R282 say. -/
def Answered (s t : State) (o : Origin) (code addr : Nat) : Prop :=
  Entered s t o code addr ∧ t.bus.done = if code = 6 then .unsupported else .normal

/-! ### Frames -/

/-- The parts of the state. -/
inductive Part where
  | pending
  | freeCtr
  | regs
  | cnt
  | latch
  | access
  | armed
  | hostOut
  | jrn
  | fifo
  | evtRings
  | own
  | grid
  | onu
  | pm
  | onuCnt
  | chPm
  | xp
  | reasm
  | ch
  | lane
  | phase
  | rng
  | survey
  | ad
  | ob
  | alloc
  | tpl
  | ent
  | grp
  | txdis
  | upSdu
  | bondIn
  | keys
  | pair
  | tick
  | master
  | queue
  | onuRange
  | node
  | buf
  | wait
  | spill
  | settle
  | exp
  | ctx
  | cluster
  | landing
  | turn
  | rdr
  | roles
  | ucnt
  | pick
  | rdrPick
  | ustate
  | hosts
  | rule
  | move
  | vid
  | prim
  | ovf
  | domain
  | arb
  | reloc
  | bulk
  | age
  | sa
  | eth
  | rx
  | ring
  | h2d
  | i2c
  | hex
  | hbOut
  | boot
  | faults
  | sweep
  | check
  | pmc
  | pmcGo
  | trace
  | marks
  deriving DecidableEq, Repr

/-- A part is the same in two states. -/
def Part.same (s t : State) : Part → Prop
  | .pending => t.pending = s.pending
  | .freeCtr => t.freeCtr = s.freeCtr
  | .regs => t.bus.regs = s.bus.regs
  | .cnt => t.bus.cnt = s.bus.cnt
  | .latch => t.bus.latch = s.bus.latch
  | .access => (t.bus.data, t.bus.done) = (s.bus.data, s.bus.done)
  | .armed => t.bus.armed = s.bus.armed
  | .hostOut => t.bus.hostOut = s.bus.hostOut
  | .jrn => t.jrn = s.jrn
  | .fifo => t.evt.fifo = s.evt.fifo
  | .evtRings => t.evt.rings = s.evt.rings
  | .own => t.own = s.own
  | .grid => t.grid = s.grid
  | .onu => t.pon.onu = s.pon.onu
  | .pm => t.pon.pm = s.pon.pm
  | .onuCnt => t.pon.onuCnt = s.pon.onuCnt
  | .chPm => t.pon.chPm = s.pon.chPm
  | .xp => t.pon.xp = s.pon.xp
  | .reasm => t.pon.reasm = s.pon.reasm
  | .ch => t.pon.ch = s.pon.ch
  | .lane => t.pon.lane = s.pon.lane
  | .phase => t.pon.phase = s.pon.phase
  | .rng => t.pon.rng = s.pon.rng
  | .survey => t.pon.survey = s.pon.survey
  | .ad => t.pon.ad = s.pon.ad
  | .ob => t.pon.ob = s.pon.ob
  | .alloc => t.pon.alloc = s.pon.alloc
  | .tpl => t.pon.tpl = s.pon.tpl
  | .ent => t.pon.ent = s.pon.ent
  | .grp => t.pon.grp = s.pon.grp
  | .txdis => t.pon.txdis = s.pon.txdis
  | .upSdu => t.pon.upSdu = s.pon.upSdu
  | .bondIn => t.pon.bondIn = s.pon.bondIn
  | .keys => t.keys = s.keys
  | .pair => t.prot.pair = s.prot.pair
  | .tick => t.prot.tick = s.prot.tick
  | .master => (t.prot.offset, t.prot.masterLost) = (s.prot.offset, s.prot.masterLost)
  | .queue => t.tm.q = s.tm.q
  | .onuRange => t.tm.onu = s.tm.onu
  | .node => t.tm.node = s.tm.node
  | .buf => t.tm.buf = s.tm.buf
  | .wait => t.tm.wait = s.tm.wait
  | .spill => (t.tm.drr, t.tm.drrAt) = (s.tm.drr, s.tm.drrAt)
  | .settle => t.tm.settleAll = s.tm.settleAll
  | .exp => t.tm.exp = s.tm.exp
  | .ctx => t.eng.ctx = s.eng.ctx
  | .cluster => t.eng.cl = s.eng.cl
  | .landing => t.eng.landing = s.eng.landing
  | .turn => t.eng.turn = s.eng.turn
  | .rdr => t.eng.rdr = s.eng.rdr
  | .roles => t.eng.roles = s.eng.roles
  | .ucnt => t.eng.ucnt = s.eng.ucnt
  | .pick => t.eng.pick = s.eng.pick
  | .rdrPick => t.eng.rdrPick = s.eng.rdrPick
  | .ustate => t.eng.ustate = s.eng.ustate
  | .hosts => t.eng.host = s.eng.host
  | .rule => t.cls.rule = s.cls.rule
  | .move => t.cls.move = s.cls.move
  | .vid => t.cls.vid = s.cls.vid
  | .prim => t.cls.prim = s.cls.prim
  | .ovf => (t.cls.ovf, t.cls.ovfCnt) = (s.cls.ovf, s.cls.ovfCnt)
  | .domain => t.cls.domain = s.cls.domain
  | .arb => (t.cls.arb, t.cls.lfsr) = (s.cls.arb, s.cls.lfsr)
  | .reloc => t.cls.reloc = s.cls.reloc
  | .bulk => (t.cls.bulk, t.cls.sweepDue) = (s.cls.bulk, s.cls.sweepDue)
  | .age => (t.cls.ageFrames, t.cls.sweepOwed) = (s.cls.ageFrames, s.cls.sweepOwed)
  | .sa => t.link.sa = s.link.sa
  | .eth => t.link.eth = s.link.eth
  | .rx => t.link.rx = s.link.rx
  | .ring => t.link.ring = s.link.ring
  | .h2d => t.link.h2d = s.link.h2d
  | .i2c => t.link.i2c = s.link.i2c
  | .hex => t.link.hex = s.link.hex
  | .hbOut => t.link.hbOut = s.link.hbOut
  | .boot => t.boot = s.boot
  | .faults => (t.tst.queue, t.tst.outside) = (s.tst.queue, s.tst.outside)
  | .sweep => (t.tst.sweepFrom, t.tst.sweepLate, t.tst.engTurn) = (s.tst.sweepFrom, s.tst.sweepLate, s.tst.engTurn)
  | .check => t.tst.check = s.tst.check
  | .pmc => t.tst.pmc = s.tst.pmc
  | .pmcGo => (t.tst.running, t.tst.go) = (s.tst.running, s.tst.go)
  | .trace => (t.tst.trace, t.tst.unsent, t.tst.tail) = (s.tst.trace, s.tst.unsent, s.tst.tail)
  | .marks => (t.tst.markId, t.tst.lfsr) = (s.tst.markId, s.tst.lfsr)

/-- Every part outside the list is unchanged. -/
def Only (l : List Part) (s t : State) : Prop := ∀ p, p ∉ l → p.same s t

/-- What the record of any register write may touch beside its effect: the journal with its counters, flags and LOST count, the last
access, the arming keys, and the performance counters. -/
def books : List Part := [.regs, .cnt, .jrn, .access, .armed, .pmc]

/-- What setting flags, raising counters and posting events may touch. -/
def alerts : List Part := [.regs, .cnt, .fifo, .pmc]

/-- Every register outside the named pages and addresses is unchanged. The record of a write may touch the journal page, its rejection
the SLC page, and the performance counters the overflow flags of PMC, so that those pages are named wherever a command is recorded. -/
def RegsOnly (pages addrs : List Nat) (s t : State) : Prop :=
  ∀ a, a ∉ addrs → (∀ b ∈ pages, a / 0x1000 ≠ b / 0x1000) → reg t a = reg s a

/-- The pages that the record of a write may touch. -/
def bookPages : List Nat := [pgJRN, pgSLC, pgPMC]

/-- A table is unchanged outside one key. -/
def TblOnly {α : Type} (d : Nat → α) (k : Nat) (a b : Tbl α) : Prop := ∀ j, j ≠ k → tget d b j = tget d a j

/-! ### Events -/

/-- The newest record of the event FIFO is one of this code from this page with these arguments, under the page's EVT_SEQ as it was (R290,
R291). -/
def Posted (s t : State) (base : Nat) (code : EvCode) (arg : List Nat) : Prop :=
  ∃ r, t.evt.fifo = s.evt.fifo ++ [r] ∧ r.code = code ∧ r.arg = arg ∧ r.seq = fld s base ANY_EVT_SEQ ∧ r.stamp = (now s).stamp

/-! ### Microwords -/

/-- The field commands of a microword: the context, the number of the field, and which words have the operation (R151). -/
def fieldOf : Instr → Option (CtxId × Nat × (BitVec 160 → Bool))
  | .aluOperation c => some (c, 0, fun _ => true)
  | .scratchRead c => some (c, 1, memIs 1)
  | .scratchWrite c _ => some (c, 1, memIs 2)
  | .scratchFetchAdd c => some (c, 1, memIs 3)
  | .tblLegendMatch c => some (c, 2, tblIs 1)
  | .tblGztLookup c => some (c, 2, tblIs 2)
  | .tblGztLearn c => some (c, 2, tblIs 3)
  | .tblGztRefresh c => some (c, 2, tblIs 4)
  | .tblGztDelete c => some (c, 2, tblIs 5)
  | .tblStateRead c => some (c, 2, tblIs 6)
  | .tblStateWrite c => some (c, 2, tblIs 7)
  | .cipCmac c => some (c, 3, cipIs 1)
  | .cipCmacVerify c => some (c, 3, cipIs 2)
  | .cipKeyDerive c => some (c, 3, cipIs 3)
  | .cipRandom c => some (c, 3, cipIs 4)
  | .cipKcv c => some (c, 3, cipIs 5)
  | .cipStatus c => some (c, 3, cipIs 6)
  | .cipInvalidate c => some (c, 3, cipIs 7)
  | .bpmAllocate c => some (c, 4, bpmIs 1)
  | .bpmAllocateRepl c => some (c, 4, bpmIs 2)
  | .bpmFree c => some (c, 4, bpmIs 3)
  | .bpmRefInc c => some (c, 4, bpmIs 4)
  | .bpmRefDec c => some (c, 4, bpmIs 5)
  | .bpmPassOwnership c => some (c, 4, bpmIs 6)
  | .tmqEnqueue c => some (c, 5, tmqIs 1)
  | .tmqEnqueueReplica c => some (c, 5, tmqIs 2)
  | .tmqReadLevel c => some (c, 5, tmqIs 3)
  | .tmqReadBpLevel c => some (c, 5, tmqIs 4)
  | .tmqDequeue c => some (c, 5, tmqIs 5)
  | .hdrReplace c => some (c, 6, hdrIs 1)
  | .hdrInsert c => some (c, 6, hdrIs 2)
  | .hdrRemove c => some (c, 6, hdrIs 3)
  | .hdrPushTag c => some (c, 6, hdrIs 4)
  | .hdrPopTag c => some (c, 6, hdrIs 5)
  | .hdrSetLength c => some (c, 6, hdrIs 6)
  | .counterBump c => some (c, 7, fun w => mwCnt w != 0)
  | .microcodeEvent c => some (c, 8, fun w => mwEvt w != 0)
  | .flagSet c => some (c, 9, flgIs 1)
  | .flagClear c => some (c, 9, flgIs 2)
  | .flagToggle c => some (c, 9, flgIs 3)
  | _ => none

/-- Field i of the word at a context's address has its turn (R151, R152): the context may issue, the field has not acted, and the
word passes the checks of its issue. -/
def fieldDue (s : State) (c : CtxId) (i : Nat) : Bool :=
  mayIssue s c && !((ctx s c).latch.isSome && bitAt (ctx s c).acted i) && (beginWord s c).2

/-- The state in which field i of the word acts: the word issued, its ALUs done, the field marked as acting. -/
def atField (s : State) (c : CtxId) (i : Nat) : State :=
  let u := doField 0 doAlu (beginWord s c).1 c (wordOf s c)
  setCtx u c { ctx u c with acted := (ctx u c).acted ||| 2 ^ i }

/-- What SRC_C of the word gave. -/
def srcC (x : Ctx) : Nat := (x.latch.map (·.c)).getD 0

/-- The result of ALU B. -/
def resB (x : Ctx) : Nat := (x.latch.map (·.rb)).getD 0

/-- The sequencing commands of a microword: the context and the code of SEQ (R152). -/
def seqOf : Instr → Option (CtxId × Nat)
  | .seqGo c => some (c, 0)
  | .seqWait c => some (c, 1)
  | .seqBr c => some (c, 2)
  | .seqCall c => some (c, 3)
  | .seqRet c => some (c, 4)
  | .seqMway c => some (c, 5)
  | .seqLoop c => some (c, 6)
  | .seqDone c => some (c, 7)
  | .seqDrop c => some (c, 8)
  | .seqPunt c => some (c, 9)
  | .seqTrap c => some (c, 10)
  | _ => none

/-- The word is to be sequenced by this code (R152): the context may issue, the word passes the checks of its issue. -/
def seqDue (s : State) (c : CtxId) (code : Nat) : Bool :=
  mayIssue s c && mwSeq (wordOf s c) == code && (beginWord s c).2

/-- The state in which the word is sequenced: every field has acted and the word is done. -/
def atSeq (s : State) (c : CtxId) : State :=
  wordDone (restOfWord (beginWord s c).1 c (wordOf s c)) c (wordOf s c)

/-- A fault of cluster k's source is recorded and its party reclaimed at once (R319 to R322): the reclaim queue is empty, and the reactions
ask for neither a block reset nor a chip reset. -/
def faultsAlone (s : State) (k : Nat) : Bool :=
  s.tst.queue == [] && s.tst.outside == [] && !bitAt (react s k) 2 && !bitAt (react s k) 3

/-- A context has faulted with a cause (R158, R322): it is IDLE again, the cause stands, its flag is set and the fault is counted. -/
def Faulted (s t : State) (c : CtxId) (cause : Nat) : Prop :=
  (ctx t c).st = 0 ∧ (ctx t c).cause = cause ∧ flagSet t (pgENG c.k) (causeFlag cause) = true ∧
  cntAt t (cntAddr (pgENG c.k) ENG_C_FAULTS) = min cntMax (cntAt s (cntAddr (pgENG c.k) ENG_C_FAULTS) + 1)

/-- The fragment that a channel handed over for the merge, waiting for it (R138). -/
def handedOver (s : State) (p c portId : Nat) (h : FragHdr) (len mapFrame : Nat) : Option BondIn :=
  s.pon.bondIn.find? (fun b => b.port == p && b.ch == c && b.portId == portId && b.len == len && b.mapFrame == mapFrame &&
    fragHdrOf b.bytes == h)

/-- A frame whose payload was lost with its expander (R212). -/
def lostFrame (f : QFrame) : Bool :=
  match f.place with
  | .lost _ => true
  | _ => false

/-- Only one context is changed, besides the window that shows the selected context of its cluster. -/
def CtxOnly (c : CtxId) (s t : State) : Prop :=
  TblOnly Ctx.init (ctxKey c) s.eng.ctx t.eng.ctx ∧ RegsOnly [pgENG c.k] [] s t ∧ Only [.ctx, .regs] s t

end Sys2Proof.Machine
end

