-- ==== Sys2Proof/Certificates/Slice0/Obligations.lean ====
section
/-! DEFINITION. The statements for the provers. Every statement about a command gives a state in which the command completes and what it
leaves; the journal record, the registers and the parts that stand still are named with it (Safety.lean). -/

open Sys2Proof Sys2Proof.Machine

/-- On every page, an accepted REGISTER_WRITE of PAGE_SCRATCH (offset 0x030) leaves the register at the data, BIT_SET_ALIAS_WRITE at its address plus 0x400 leaves old OR data, BIT_CLEAR_ALIAS_WRITE at plus 0x800 leaves old AND NOT data (R281). Each leaves one journal record with code 0, the register before and after, and the MASK of R295, and completes normally. -/
def Obligations.PlainWriteOfScratchStores : Prop :=
  (∀ (s : State) (o : Origin) (base : Nat) (pg : Page) (i : Nat) (data : Word),
     pageAt base = some (pg, i) →
     base % 0x1000 = 0 →
     addrReject s o (base + 0x30) = none →
     Completes (.registerWrite o (base + 0x30) data) s (fun t =>
       reg t (base + 0x30) = data ∧
       EnteredAs s t o 0 (base + 0x30) (reg s (base + 0x30)) data allOnes ∧
       t.bus.done = .normal)) ∧
  (∀ (s : State) (o : Origin) (base : Nat) (pg : Page) (i : Nat) (data : Word),
     pageAt base = some (pg, i) →
     base % 0x1000 = 0 →
     addrReject s o (base + 0x430) = none →
     Completes (.bitSetAliasWrite o (base + 0x430) data) s (fun t =>
       reg t (base + 0x30) = reg s (base + 0x30) ||| data ∧
       EnteredAs s t o 0 (base + 0x430) (reg s (base + 0x30)) (reg s (base + 0x30) ||| data) data ∧
       t.bus.done = .normal)) ∧
  (∀ (s : State) (o : Origin) (base : Nat) (pg : Page) (i : Nat) (data : Word),
     pageAt base = some (pg, i) →
     base % 0x1000 = 0 →
     addrReject s o (base + 0x830) = none →
     Completes (.bitClearAliasWrite o (base + 0x830) data) s (fun t =>
       reg t (base + 0x30) = reg s (base + 0x30) &&& ~~~data ∧
       EnteredAs s t o 0 (base + 0x830) (reg s (base + 0x30)) (reg s (base + 0x30) &&& ~~~data) data ∧
       t.bus.done = .normal))

/-- For every field of at most 32 bits in a word, a write leaves the data in a RW field, the old value in a RO, WO, RC or RS field and in a RWL field while LOCK is 1, clears the bits of a W1C field that the data sets and sets those of a W1S field; a RWL field takes the data while LOCK is 0. Bits outside the field are unchanged. -/
def Obligations.AccessCodesOfAWrite : Prop :=
  ∀ (f : FieldDef) (inst : Nat) (lock : Bool) (d w : Word), f.lsb + f.width ≤ 32 →
    (f.accAt inst = .rw → bitsOf (f.write inst lock d w) f.lsb f.width = bitsOf d f.lsb f.width) ∧
    (f.accAt inst = .rwl → bitsOf (f.write inst lock d w) f.lsb f.width =
      if lock then bitsOf w f.lsb f.width else bitsOf d f.lsb f.width) ∧
    (f.accAt inst = .w1c → ∀ k < f.width, Nat.testBit (bitsOf (f.write inst lock d w) f.lsb f.width) k =
      (Nat.testBit (bitsOf w f.lsb f.width) k && !Nat.testBit (bitsOf d f.lsb f.width) k)) ∧
    (f.accAt inst = .w1s → ∀ k < f.width, Nat.testBit (bitsOf (f.write inst lock d w) f.lsb f.width) k =
      (Nat.testBit (bitsOf w f.lsb f.width) k || Nat.testBit (bitsOf d f.lsb f.width) k)) ∧
    (f.accAt inst ∈ [Acc.ro, .wo, .rc, .rs] → f.write inst lock d w = w) ∧
    (∀ k < 32, k < f.lsb ∨ f.lsb + f.width ≤ k → (f.write inst lock d w).getLsbD k = w.getLsbD k)

/-- READ_CLEAR_ACCESS of ERR_CNT_0 of any page that the origin reaches gives the register and leaves it 0, and changes nothing else. COUNTER_LOW_READ of the low word of a 48-bit counter gives its low 32 bits and latches the rest for the high word, and a read of the high word gives what was latched; the counter itself stands, and nothing else changes. A counter that the hardware moves by itself (log entry 3) is not meant. -/
def Obligations.ReadsClearAndLatch : Prop :=
  (∀ (s : State) (o : Origin) (base : Nat) (pg : Page) (i : Nat),
     pageAt base = some (pg, i) →
     base % 0x1000 = 0 →
     (reach s o (base + 0x34)).isSome = true →
     Completes (.readClearAccess o (base + 0x34)) s (fun t =>
       t.bus.data = reg s (base + 0x34) ∧
       t.bus.done = .normal ∧
       reg t (base + 0x34) = 0 ∧
       RegsOnly [] [base + 0x34] s t ∧
       Only [.regs, .access] s t)) ∧
  (∀ (s : State) (o : Origin) (a : Nat) (pg : Page) (i : Nat),
     pageAt a = some (pg, i) →
     (reach s o a).isSome = true →
     a % 0x1000 < 0x400 →
     isCounter pg (a % 0x1000) = true →
     freeCounter s pg i (a % 0x1000) = false →
     Completes (.counterLowRead o a) s (fun t =>
       t.bus.data = BitVec.ofNat 32 (cntAt s a) ∧
       t.bus.done = .normal ∧
       tget dzero t.bus.latch (a + 4) = cntAt s a >>> 32 ∧
       cntAt t a = cntAt s a ∧
       Only [.latch, .access] s t)) ∧
  (∀ (s : State) (o : Origin) (a : Nat) (pg : Page) (i : Nat),
     pageAt a = some (pg, i) →
     (reach s o (a + 4)).isSome = true →
     a % 0x1000 < 0x3F0 →
     isCounter pg (a % 0x1000) = true →
     Completes (.counterLowRead o (a + 4)) s (fun t =>
       t.bus.data = BitVec.ofNat 32 (tget dzero s.bus.latch (a + 4)) ∧
       t.bus.done = .normal ∧
       Only [.access] s t))

/-- An access that is narrower than a word or unaligned, and an access at an address that holds no page of the origin, completes with unsupported-request status and has no effect on any register: the registers outside the journal and performance-counter pages stand, a read changes nothing but the last access, and a write leaves one journal record with reject code 6. -/
def Obligations.AccessesThatReachNoRegister : Prop :=
  (∀ (s : State) (o : Origin) (a n : Nat),
     ¬ (a % 4 = 0 ∧ n = 4) →
     Completes (.unalignedAccess o a n false) s (fun t =>
       t.bus.done = .unsupported ∧
       Only [.access] s t)) ∧
  (∀ (s : State) (o : Origin) (a n : Nat),
     ¬ (a % 4 = 0 ∧ n = 4) →
     Completes (.unalignedAccess o a n true) s (fun t =>
       Answered s t o 6 a ∧
       t.bus.done = .unsupported ∧
       RegsOnly [pgJRN, pgPMC] [] s t ∧
       Only books s t)) ∧
  (∀ (s : State) (o : Origin) (a : Nat),
     reach s o a = none →
     Completes (.unmappedAccess o a none) s (fun t =>
       t.bus.done = .unsupported ∧
       Only [.access] s t)) ∧
  (∀ (s : State) (o : Origin) (a : Nat) (d : Word),
     reach s o a = none →
     Completes (.unmappedAccess o a (some d)) s (fun t =>
       Answered s t o 6 a ∧
       t.bus.done = .unsupported ∧
       RegsOnly [pgJRN, pgPMC] [] s t ∧
       Only books s t))

/-- With the address accepted: PAGE_ENABLE with ENABLE 0 and without BLOCK_RESET clears ENABLE of a page whose enable fields are all 0, and with ENABLE 1 sets it; PAGE_LOCK with LOCK 1 sets LOCK; BLOCK_RESET of an enabled page whose scope may be reset returns PAGE_SCRATCH to its reset value and counts one block reset; ERR_INJECT_ARM with ARM 1 while ARM is 0 sets ARM and takes KIND, and while ARM is 1 changes no register outside the journal and performance-counter pages. Each leaves one journal record with code 0 at the register named. -/
def Obligations.PageControlWrites : Prop :=
  (∀ (s : State) (o : Origin) (base : Nat) (pg : Page) (i : Nat) (d : Word),
     pageAt base = some (pg, i) →
     base % 0x1000 = 0 →
     addrReject s o (base + 4) = none →
     enableHeld s pg i base = some false →
     d.getLsbD 0 = false →
     d.getLsbD 1 = false →
     Completes (.pageEnable o base d) s (fun t =>
       isSet t base ANY_ENABLE = false ∧
       Answered s t o 0 (base + 4))) ∧
  (∀ (s : State) (o : Origin) (base : Nat) (pg : Page) (i : Nat) (d : Word),
     pageAt base = some (pg, i) →
     base % 0x1000 = 0 →
     addrReject s o (base + 4) = none →
     d.getLsbD 0 = true →
     d.getLsbD 1 = false →
     Completes (.pageEnable o base d) s (fun t =>
       isSet t base ANY_ENABLE = true ∧
       Answered s t o 0 (base + 4))) ∧
  (∀ (s : State) (o : Origin) (base : Nat) (pg : Page) (i : Nat) (d : Word),
     pageAt base = some (pg, i) →
     base % 0x1000 = 0 →
     addrReject s o (base + 4) = none →
     d.getLsbD 0 = true →
     d.getLsbD 1 = false →
     d.getLsbD 3 = true →
     Completes (.pageLock o base d) s (fun t =>
       isSet t base ANY_LOCK = true ∧
       Answered s t o 0 (base + 4))) ∧
  (∀ (s : State) (o : Origin) (base : Nat) (pg : Page) (i : Nat) (y : Scope),
     pageAt base = some (pg, i) →
     base % 0x1000 = 0 →
     addrReject s o (base + 4) = none →
     scopeOf pg i = some y →
     y.ready s = true →
     isSet s base ANY_ENABLE = true →
     Completes (.blockReset o base) s (fun t =>
       reg t (base + 0x30) = 0 ∧
       cntAt t (cntAddr pgFLT FLT_C_BLOCK_RESETS) = min cntMax (cntAt s (cntAddr pgFLT FLT_C_BLOCK_RESETS) + 1) ∧
       Answered s t o 0 (base + 4))) ∧
  (∀ (s : State) (o : Origin) (base : Nat) (d : Word),
     base % 0x1000 = 0 →
     addrReject s o (base + 0x18) = none →
     d.getLsbD 0 = true →
     isSet s base ANY_ARM = false →
     Completes (.errInjectArm o base d) s (fun t =>
       isSet t base ANY_ARM = true ∧
       isSet t base ANY_KIND = d.getLsbD 1 ∧
       Answered s t o 0 (base + 0x18) ∧
       RegsOnly bookPages [base + 0x18] s t ∧
       Only books s t)) ∧
  (∀ (s : State) (o : Origin) (base : Nat) (d : Word),
     base % 0x1000 = 0 →
     addrReject s o (base + 0x18) = none →
     d.getLsbD 0 = true →
     isSet s base ANY_ARM = true →
     Completes (.errInjectArm o base d) s (fun t =>
       Answered s t o 0 (base + 0x18) ∧
       RegsOnly bookPages [] s t ∧
       Only books s t))

/-- With automatic selection and no grid master followed: GREF_LOST of the active input of a LOCKED grid with no other pair qualified clears its REF_OK bit, sets its REF_LOSS flag and enters HOLDOVER; PPS_LOST of the active pair leaves the grid LOCKED on frequency; REF_QUALIFIED that completes the first qualified pair out of FREE begins ACQUIRE on it; a PPS edge of the pair not active is measured only: its phase error is kept for a switch to that pair and nothing else changes; the third consecutive good edge of the active pair after pull-in locks. -/
def Obligations.ReferencesAndTheDpll : Prop :=
  (∀ (s : State) (b : Bool),
     following s = false →
     fld s pgGRD GRD_DPLL_STATE = dpllLocked →
     fld s pgGRD GRD_SEL_MODE = 0 →
     fld s pgGRD GRD_ACTIVE_REF = b.toNat →
     pairOk s (1 - b.toNat) = false →
     Completes (.grefLost b) s (fun t =>
       refOk t b.toNat = false ∧
       fld t pgGRD GRD_DPLL_STATE = dpllHoldover ∧
       flagSet t pgGRD (lossFlag b) = true ∧
       flagSet t pgGRD GRD_F_HOLDOVER_ENTER = true ∧
       Only (.grid :: alerts) s t)) ∧
  (∀ (s : State) (b : Bool),
     following s = false →
     fld s pgGRD GRD_DPLL_STATE = dpllLocked →
     fld s pgGRD GRD_SEL_MODE = 0 →
     fld s pgGRD GRD_ACTIVE_REF = b.toNat →
     refOk s b.toNat = true →
     pairOk s (1 - b.toNat) = false →
     Completes (.ppsLost b) s (fun t =>
       refOk t (2 + b.toNat) = false ∧
       fld t pgGRD GRD_DPLL_STATE = dpllLocked ∧
       flagSet t pgGRD (lossFlag b) = true ∧
       Only alerts s t)) ∧
  (∀ (s : State) (n : Fin 4),
     following s = false →
     fld s pgGRD GRD_DPLL_STATE = dpllFree →
     fld s pgGRD GRD_SEL_MODE = 0 →
     pairOk s 0 = false →
     pairOk s 1 = false →
     refOk s ((n.val + 2) % 4) = true →
     Completes (.refQualified n) s (fun t =>
       refOk t n = true ∧
       fld t pgGRD GRD_DPLL_STATE = dpllAcquire ∧
       fld t pgGRD GRD_ACTIVE_REF = n.val % 2 ∧
       RegsOnly [] [pgGRD + GRD_REF_OK.off, pgGRD + GRD_DPLL_STATE.off, pgGRD + GRD_ACTIVE_REF.off] s t ∧
       Only [.regs, .grid] s t)) ∧
  (∀ (s : State) (b : Bool) (f e : Int),
     fld s pgGRD GRD_ACTIVE_REF ≠ b.toNat →
     Completes (.ppsEdge b f e) s (fun t =>
       t.grid = { s.grid with otherPhase := some (wrapPhase e) } ∧
       Only [.grid] s t)) ∧
  (∀ (s : State) (b : Bool) (f e : Int),
     following s = false →
     fld s pgGRD GRD_ACTIVE_REF = b.toNat →
     pairOk s b.toNat = true →
     fld s pgGRD GRD_DPLL_STATE = dpllAcquire →
     s.grid.pulled = true →
     s.grid.good = 2 →
     s.grid.todSec = none →
     phaseGood (wrapPhase e) = true →
     (f - fldS s pgGRD GRD_OFF).natAbs ≤ 10000 →
     Completes (.ppsEdge b f e) s (fun t =>
       fld t pgGRD GRD_DPLL_STATE = dpllLocked ∧
       flagSet t pgGRD GRD_F_LOCK = true ∧
       fld t pgGRD GRD_OFF = unsignedOf 32 f ∧
       fld t pgGRD GRD_ERR = unsignedOf 32 (wrapPhase e) ∧
       t.grid.residual = wrapPhase e ∧
       Only (.grid :: alerts) s t))

/-- An accepted STEP_CMD of at most half a frame is pending for the frame at the second boundary and replaces any pending step; a larger one is rejected with code 1 and changes no pending step. STEP_APPLY at position 0 of the step frame sets the length of that frame to 19,440 gt plus the step and sets STEP_DONE when no ONU is in operation or FORCE is set; with an ONU in operation and without FORCE a commanded step is dropped with STEP_REJECT and the frame keeps its length. NOW_READ, TOD_NOW_READ and NS_NOW_READ each latch one snapshot of the grid over all words of their value, taken from the first capture pair that is stable: the position, its time of day under the base in force, or its nanosecond count. CAP_FIFO_READ pops the oldest entry of the selected input, with its position and polarity, and shows VALID and the remaining fill. The grid does not move and nothing else changes. -/
def Obligations.StepsAndReadsOfTheGrid : Prop :=
  (∀ (s : State) (o : Origin) (d : Word),
     addrReject s o (pgGRD + GRD_STEP_FINE.off) = none →
     (signedOf 24 (bitsOf d 0 24)).natAbs ≤ finePerFrame / 2 →
     Completes (.stepCmd o d) s (fun t =>
       t.grid.step = some ⟨signedOf 24 (bitsOf d 0 24), 0, d.getLsbD 24, (frame s + 2) % frameMod, .command⟩ ∧
       t.grid.frameLen = s.grid.frameLen ∧
       t.grid.now = s.grid.now ∧
       Answered s t o 0 (pgGRD + GRD_STEP_FINE.off) ∧
       RegsOnly bookPages [] s t ∧
       Only (.grid :: books) s t)) ∧
  (∀ (s : State) (o : Origin) (d : Word),
     addrReject s o (pgGRD + GRD_STEP_FINE.off) = none →
     finePerFrame / 2 < (signedOf 24 (bitsOf d 0 24)).natAbs →
     Completes (.stepCmd o d) s (fun t =>
       Answered s t o 1 (pgGRD + GRD_STEP_FINE.off) ∧
       RegsOnly bookPages [] s t ∧
       Only books s t)) ∧
  (∀ (s : State) (r : StepReq),
     s.grid.step = some r →
     frame s = r.frame →
     s.grid.now.tick = 0 →
     s.grid.now.fine = 0 →
     isSet s pgGRD GRD_ONU_IN_OP = false ∨ r.force = true →
     r.jump = 0 →
     Completes (.stepApply) s (fun t =>
       t.grid.frameLen = ((finePerFrame : Int) + r.fine).toNat ∧
       t.grid.step = none ∧
       t.grid.now.tick = 0 ∧
       flagSet t pgGRD GRD_F_STEP_DONE = true ∧
       Only (.grid :: .ch :: alerts) s t)) ∧
  (∀ (s : State) (r : StepReq),
     s.grid.step = some r →
     frame s = r.frame →
     s.grid.now.tick = 0 →
     s.grid.now.fine = 0 →
     isSet s pgGRD GRD_ONU_IN_OP = true →
     r.force = false →
     r.by_ = .command →
     Completes (.stepApply) s (fun t =>
       t.grid.frameLen = s.grid.frameLen ∧
       t.grid.step = none ∧
       t.grid.now = s.grid.now ∧
       flagSet t pgGRD GRD_F_STEP_REJECT = true ∧
       Only (.grid :: alerts) s t)) ∧
  (∀ (s : State) (o : Origin) (l : List (Pos × Pos)),
     (reach s o (pgGRD + GRD_FINE.off)).isSome = true →
     Completes (.nowRead o l) s (fun t =>
       fld t pgGRD GRD_FINE = (snapshot s l).1.fine % 2 ^ GRD_FINE.width ∧
       fld t pgGRD GRD_TICK = (snapshot s l).1.tick % 2 ^ GRD_TICK.width ∧
       fld t pgGRD GRD_FRAME_LO = (snapshot s l).1.frame % 2 ^ 32 ∧
       fld t pgGRD GRD_FRAME_HI = (snapshot s l).1.frame / 2 ^ 32 % 2 ^ GRD_FRAME_HI.width ∧
       isSet t pgGRD GRD_STABLE = (snapshot s l).2 ∧
       t.bus.data = reg t (pgGRD + GRD_FINE.off) ∧
       Only [.regs, .access] s t)) ∧
  (∀ (s : State) (o : Origin) (l : List (Pos × Pos)),
     (reach s o (pgTOD + TOD_FRAC.off)).isSome = true →
     Completes (.todNowRead o l) s (fun t =>
       fld t pgTOD TOD_FRAC = (todAt s.grid.base (snapshot s l).1).frac % 2 ^ TOD_FRAC.width ∧
       fld t pgTOD TOD_NS = (todAt s.grid.base (snapshot s l).1).ns % 2 ^ TOD_NS.width ∧
       fld t pgTOD TOD_SEC_LO = (todAt s.grid.base (snapshot s l).1).sec % 2 ^ 32 ∧
       fld t pgTOD TOD_SEC_HI = (todAt s.grid.base (snapshot s l).1).sec / 2 ^ 32 % 2 ^ TOD_SEC_HI.width ∧
       t.bus.data = reg t (pgTOD + TOD_FRAC.off) ∧
       Only [.regs, .access] s t)) ∧
  (∀ (s : State) (o : Origin) (l : List (Pos × Pos)),
     (reach s o (pgCAP + CAP_NS_LO.off)).isSome = true →
     Completes (.nsNowRead o l) s (fun t =>
       fld t pgCAP CAP_NS_LO = nsAt (snapshot s l).1 % 2 ^ 32 ∧
       fld t pgCAP CAP_NS_HI = nsAt (snapshot s l).1 / 2 ^ 32 % 2 ^ CAP_NS_HI.width ∧
       t.bus.data = reg t (pgCAP + CAP_NS_LO.off) ∧
       Only [.regs, .access] s t)) ∧
  (∀ (s : State) (o : Origin) (i : Fin 10) (c : Cap) (q : List Cap),
     (reach s o (pgCAP + CAP_FINE.off)).isSome = true →
     fld s pgCAP CAP_INPUT = i.val →
     tget dnil s.grid.capFifo i = c :: q →
     Completes (.capFifoRead o) s (fun t =>
       tget dnil t.grid.capFifo i = q ∧
       TblOnly dnil i s.grid.capFifo t.grid.capFifo ∧
       fld t pgCAP (CAP_FILL.at i) = q.length % 2 ^ CAP_FILL.width ∧
       isSet t pgCAP CAP_VALID = true ∧
       isSet t pgCAP CAP_POL = c.rising ∧
       fld t pgCAP CAP_TICK = c.pos.tick % 2 ^ CAP_TICK.width ∧
       fld t pgCAP CAP_FINE = c.pos.fine % 2 ^ CAP_FINE.width ∧
       Only [.regs, .access, .grid] s t))

/-- An accepted BASE_COMMIT with BASE_NS at most 999,999,999 makes the written base pending for the next frame, and TOD_BASE_APPLY puts a pending base that is due in force, with BASE_SET where it changes; the grid position does not move. A good time-of-day message in its window takes over the UTC data and sets VALID; one with a bad CRC sets MSG_CRC and leaves the time of day. A capture edge of a wanted polarity, 8 gt or more after the last entry, enters its position in the FIFO of its input. -/
def Obligations.TimeOfDayAndCapture : Prop :=
  (∀ (s : State) (o : Origin) (d : Word),
     addrReject s o (pgTOD + TOD_BASE_COMMIT.off) = none →
     bitsOf d 0 1 = 1 →
     fld s pgTOD TOD_BASE_NS ≤ 999999999 →
     Completes (.baseCommit o d) s (fun t =>
       t.grid.baseNext = some ((frame s + 1) % frameMod, ⟨fld s pgTOD TOD_BASE_FRAME_LO + fld s pgTOD TOD_BASE_FRAME_HI * 2 ^ 32, ⟨fld s pgTOD TOD_BASE_SEC_LO + fld s pgTOD TOD_BASE_SEC_HI * 2 ^ 32, fld s pgTOD TOD_BASE_NS, fld s pgTOD TOD_BASE_FRAC⟩⟩) ∧
       t.grid.base = s.grid.base ∧
       t.grid.now = s.grid.now ∧
       Answered s t o 0 (pgTOD + TOD_BASE_COMMIT.off) ∧
       RegsOnly bookPages [] s t ∧
       Only (.grid :: books) s t)) ∧
  (∀ (s : State) (f : Nat) (b : ToDBase),
     s.grid.baseNext = some (f, b) →
     f ≤ frame s →
     s.grid.base ≠ b →
     Completes (.todBaseApply) s (fun t =>
       t.grid.base = b ∧
       t.grid.baseNext = none ∧
       t.grid.now = s.grid.now ∧
       flagSet t pgTOD TOD_F_BASE_SET = true ∧
       Only [.regs, .pmc, .grid] s t)) ∧
  (∀ (s : State) (m : List Byte),
     isSet s pgTOD TOD_TOD_IN_EN = true →
     m.length = 16 →
     beNat (m.take 2) = 0x4A57 →
     byteAt m 2 = 10 →
     byteAt m 3 = 1 →
     crc16 ((m.drop 2).take 12) = beNat (m.drop 14) →
     inTodWindow s = true →
     Completes (.todMessage m) s (fun t =>
       fld t pgTOD TOD_OFFSET = beNat ((m.drop 10).take 2) % 2 ^ TOD_OFFSET.width ∧
       fld t pgTOD TOD_LEAP = byteAt m 12 % 4 ∧
       fld t pgTOD TOD_VALID = 1 ∧
       t.grid.now = s.grid.now ∧
       t.grid.base = s.grid.base ∧
       Only [.regs, .pmc, .grid] s t)) ∧
  (∀ (s : State) (m : List Byte),
     isSet s pgTOD TOD_TOD_IN_EN = true →
     m.length = 16 →
     beNat (m.take 2) = 0x4A57 →
     byteAt m 2 = 10 →
     crc16 ((m.drop 2).take 12) ≠ beNat (m.drop 14) →
     Completes (.todMessage m) s (fun t =>
       flagSet t pgTOD TOD_F_MSG_CRC = true ∧
       t.grid = s.grid ∧
       RegsOnly [pgPMC] [pgTOD + TOD_F_MSG_CRC.off, pgTOD + TOD_F_MSG_CRC.cntOff] s t ∧
       Only [.regs, .pmc] s t)) ∧
  (∀ (s : State) (i : Fin 10) (r : Bool),
     bitAt (fld s pgCAP (CAP_EDGE.at i)) (if r then 0 else 1) = true →
     (tget dnil s.grid.capFifo i).length < capFifoMax →
     (∀ p, tget dnone s.grid.capLast i = some p → p + 8 * finePerGt ≤ elapsed s) →
     Completes (.captureEdge i r) s (fun t =>
       tget dnil t.grid.capFifo i = tget dnil s.grid.capFifo i ++ [⟨now s, r⟩] ∧
       TblOnly dnil i s.grid.capFifo t.grid.capFifo ∧
       fld t pgCAP (CAP_FILL.at i) = ((tget dnil s.grid.capFifo i).length + 1) % 2 ^ CAP_FILL.width ∧
       t.grid.now = s.grid.now ∧
       Only (.grid :: alerts) s t))

/-- An accepted PLOAM_PUSH appends the words of the buffer to the normal queue of the channel while it holds fewer than 64 messages, and shows the fill; a full queue refuses it with code 8, PUSH_FULL and PLOAM_OVF. PLOAM_PUSH_RETRY moves the waiting supervision messages, in order, into an urgent queue that has room for all of them. REASM_TIMEOUT of a partial whose time has passed discards it, sets REASM_TIMEOUT and counts it for its ONU. -/
def Obligations.PloamQueues : Prop :=
  (∀ (s : State) (o : Origin) (p : Fin 32) (c : Fin 3),
     addrReject s o (pgCH p c + CH_PLOAM_PUSH.off) = none →
     (chSt s p c).normal.length < ploamMax →
     Completes (.ploamPush o p c) s (fun t =>
       (chSt t p c).normal = (chSt s p c).normal ++ [⟨.host (wordsAt s (pgCH p c + CH_PLOAM_BUF.off) (if c.val = 0 then 3 else 12)), 512, 1024, now s⟩] ∧
       (chSt t p c).urgent = (chSt s p c).urgent ∧
       fld t (pgCH p c) CH_NORM_FILL = (chSt s p c).normal.length + 1 ∧
       fld t (pgCH p c) CH_PUSH_FULL = 0 ∧
       TblOnly ChSt.init (3 * p + c) s.pon.ch t.pon.ch ∧
       Answered s t o 0 (pgCH p c + CH_PLOAM_PUSH.off) ∧
       RegsOnly bookPages [pgCH p c + CH_NORM_FILL.off, pgCH p c + CH_PUSH_FULL.off] s t ∧
       Only (.ch :: books) s t)) ∧
  (∀ (s : State) (o : Origin) (p : Fin 32) (c : Fin 3),
     addrReject s o (pgCH p c + CH_PLOAM_PUSH.off) = none →
     ploamMax ≤ (chSt s p c).normal.length →
     Completes (.ploamPush o p c) s (fun t =>
       chSt t p c = chSt s p c ∧
       fld t (pgCH p c) CH_PUSH_FULL = 1 ∧
       flagSet t (pgCH p c) CH_F_PLOAM_OVF = true ∧
       Answered s t o 8 (pgCH p c + CH_PLOAM_PUSH.off) ∧
       Only books s t)) ∧
  (∀ (s : State) (p : Fin 32) (c : Fin 3),
     (chSt s p c).urgent.length + (chSt s p c).retry.length ≤ ploamMax →
     Completes (.ploamPushRetry p c) s (fun t =>
       (chSt t p c).urgent = (chSt s p c).urgent ++ (chSt s p c).retry.map (fun m => { m with at_ := now s }) ∧
       (chSt t p c).retry = [] ∧
       (chSt t p c).normal = (chSt s p c).normal ∧
       TblOnly ChSt.init (3 * p + c) s.pon.ch t.pon.ch ∧
       Only [.regs, .ch, .onu] s t)) ∧
  (∀ (s : State) (x : Fin 262144) (r : Reasm),
     reasm s x = some r →
     r.last + fld s (pgCH (x.val / 8192) (xpEntry s x).ch) CH_TIMEOUT + 1 ≤ frame s →
     Completes (.reasmTimeout x) s (fun t =>
       reasm t x = none ∧
       TblOnly dnone x s.pon.reasm t.pon.reasm ∧
       flagSet t (pgCH (x.val / 8192) (xpEntry s x).ch) CH_F_REASM_TIMEOUT = true ∧
       onuCnt t (x.val / 8192) (xpEntry s x).onu ONU_C_REASM_TIMEOUT = min cntMax (onuCnt s (x.val / 8192) (xpEntry s x).onu ONU_C_REASM_TIMEOUT + 1) ∧
       Only [.regs, .cnt, .pmc, .onuCnt, .reasm] s t))

/-- XP_READ puts the selected entry into PORT_ID when the slice may read it, and otherwise shows OWN_ERR, reads 0 and is recorded with code 2. An XP_WRITE that the slice may make and that R62 does not reject stores the entry that the word spells and no other; one that R62 rejects stores nothing, sets XP REJECT and XGEM_REJ and is recorded with code 1. XP_INVALIDATE clears VALID of the selected entry and keeps its other fields. -/
def Obligations.PortEntries : Prop :=
  (∀ (s : State) (o : Origin) (p : Fin 32),
     addrReject s o (pgPON p + PON_XP_CMD.off) = none →
     xpReadable s p (Origin.slice o) (xpEntry s (8192 * p + fld s (pgPON p) PON_XP_IDX)) = true →
     Completes (.xpRead o p) s (fun t =>
       reg t (pgPON p + PON_PORT_ID.off) = (xpEntry s (8192 * p + fld s (pgPON p) PON_XP_IDX)).word ∧
       isSet t (pgPON p) PON_XP_OWN_ERR = false ∧
       Answered s t o 0 (pgPON p + PON_XP_CMD.off) ∧
       RegsOnly bookPages [pgPON p + PON_PORT_ID.off, pgPON p + PON_XP_OWN_ERR.off] s t ∧
       Only books s t)) ∧
  (∀ (s : State) (o : Origin) (p : Fin 32),
     addrReject s o (pgPON p + PON_XP_CMD.off) = none →
     xpReadable s p (Origin.slice o) (xpEntry s (8192 * p + fld s (pgPON p) PON_XP_IDX)) = false →
     Completes (.xpRead o p) s (fun t =>
       reg t (pgPON p + PON_PORT_ID.off) = 0 ∧
       isSet t (pgPON p) PON_XP_OWN_ERR = true ∧
       Answered s t o 2 (pgPON p + PON_XP_CMD.off) ∧
       RegsOnly bookPages [pgPON p + PON_PORT_ID.off, pgPON p + PON_XP_OWN_ERR.off] s t ∧
       Only books s t)) ∧
  (∀ (s : State) (o : Origin) (p : Fin 32) (n : XpEntry),
     addrReject s o (pgPON p + PON_XP_CMD.off) = none →
     n = xpOfWord (reg s (pgPON p + PON_PORT_ID.off)) →
     xpWritable s p (Origin.slice o) (xpEntry s (8192 * p + fld s (pgPON p) PON_XP_IDX)) n = true →
     (n.valid = true → xpRejected s p (fld s (pgPON p) PON_XP_IDX) (xpEntry s (8192 * p + fld s (pgPON p) PON_XP_IDX)) n = false) →
     Completes (.xpWrite o p) s (fun t =>
       xpEntry t (8192 * p + fld s (pgPON p) PON_XP_IDX) = n ∧
       TblOnly XpEntry.init (8192 * p + fld s (pgPON p) PON_XP_IDX) s.pon.xp t.pon.xp ∧
       isSet t (pgPON p) PON_XP_REJECT = false ∧
       Answered s t o 0 (pgPON p + PON_XP_CMD.off) ∧
       RegsOnly bookPages [pgPON p + PON_XP_OWN_ERR.off] s t ∧
       Only (.xp :: books) s t)) ∧
  (∀ (s : State) (o : Origin) (p : Fin 32) (n : XpEntry),
     addrReject s o (pgPON p + PON_XP_CMD.off) = none →
     n = xpOfWord (reg s (pgPON p + PON_PORT_ID.off)) →
     xpWritable s p (Origin.slice o) (xpEntry s (8192 * p + fld s (pgPON p) PON_XP_IDX)) n = true →
     n.valid = true →
     xpRejected s p (fld s (pgPON p) PON_XP_IDX) (xpEntry s (8192 * p + fld s (pgPON p) PON_XP_IDX)) n = true →
     Completes (.xpWrite o p) s (fun t =>
       isSet t (pgPON p) PON_XP_REJECT = true ∧
       flagSet t (pgPON p) PON_F_XGEM_REJ = true ∧
       Answered s t o 1 (pgPON p + PON_XP_CMD.off) ∧
       Only books s t)) ∧
  (∀ (s : State) (o : Origin) (p : Fin 32) (e : XpEntry),
     addrReject s o (pgPON p + PON_XP_CMD.off) = none →
     e = xpEntry s (8192 * p + fld s (pgPON p) PON_XP_IDX) →
     mayUse (Origin.slice o) (if e.valid then xpOwner s p e else portOwner s p) = true →
     Completes (.xpInvalidate o p) s (fun t =>
       xpEntry t (8192 * p + fld s (pgPON p) PON_XP_IDX) = { e with valid := false } ∧
       TblOnly XpEntry.init (8192 * p + fld s (pgPON p) PON_XP_IDX) s.pon.xp t.pon.xp ∧
       Answered s t o 0 (pgPON p + PON_XP_CMD.off) ∧
       RegsOnly bookPages [pgPON p + PON_XP_OWN_ERR.off] s t ∧
       Only (.xp :: books) s t))

/-- For the record that ONU_IDX selects and the slice may use: ONU_READ shows its 14 words and its 32 counters; ONU_WRITE of a record in EMPTY that is not held and that R350 does not reject stores channel, ONU-ID, MATCH, VALID, EXP_SN and EXP_REG from the window, clears its defects when VALID is 0, leaves its other fields and every other record, while a record held by the supervision cluster is left alone with REJECT and code 8; ONU_COUNTER_CLEAR clears its 32 counters and no other. CNT_CLR clears the 32 counters of a page; on the journal page the record of the command itself is then counted. -/
def Obligations.OnuRecords : Prop :=
  (∀ (s : State) (o : Origin) (p : Fin 32) (i : Nat),
     addrReject s o (pgPON p + PON_ONU_CMD.off) = none →
     i = fld s (pgPON p) PON_ONU_IDX →
     mayUse (Origin.slice o) (onuOwner s p i) = true →
     Completes (.onuRead o p) s (fun t =>
       wordsAt t (pgPON p + PON_ONU_REC.off) 14 = (onu s p i).words ∧
       wordsAt t (pgPON p + 0x180) 64 = onuCntWords s p i ∧
       isSet t (pgPON p) PON_OWN_ERR = false ∧
       Answered s t o 0 (pgPON p + PON_ONU_CMD.off) ∧
       Only books s t)) ∧
  (∀ (s : State) (o : Origin) (p : Fin 32) (i : Nat),
     addrReject s o (pgPON p + PON_ONU_CMD.off) = none →
     i = fld s (pgPON p) PON_ONU_IDX →
     mayUse (Origin.slice o) (onuOwner s p i) = true →
     (onu s p i).state = stEmpty →
     (onu s p i).held = false →
     hasDefect (onu s p i) dSNMi = false →
     ((onuOfWindow s p (onu s p i)).valid = true → onuRejected s p i (onuOfWindow s p (onu s p i)) = false) →
     Completes (.onuWrite o p) s (fun t =>
       onu t p i = (if (onuOfWindow s p (onu s p i)).valid then onuOfWindow s p (onu s p i)
         else { onuOfWindow s p (onu s p i) with defects := 0, reported := 0 }) ∧
       TblOnly OnuRec.init (512 * p + i) s.pon.onu t.pon.onu ∧
       isSet t (pgPON p) PON_REJECT = false ∧
       Answered s t o 0 (pgPON p + PON_ONU_CMD.off) ∧
       Only (.onu :: .survey :: .phase :: .pm :: .fifo :: books) s t)) ∧
  (∀ (s : State) (o : Origin) (p : Fin 32) (i : Nat),
     addrReject s o (pgPON p + PON_ONU_CMD.off) = none →
     i = fld s (pgPON p) PON_ONU_IDX →
     mayUse (Origin.slice o) (onuOwner s p i) = true →
     (onu s p i).held = true →
     Completes (.onuWrite o p) s (fun t =>
       isSet t (pgPON p) PON_REJECT = true ∧
       Answered s t o 8 (pgPON p + PON_ONU_CMD.off) ∧
       RegsOnly bookPages [pgPON p + PON_OWN_ERR.off] s t ∧
       Only books s t)) ∧
  (∀ (s : State) (o : Origin) (p : Fin 32) (i : Nat),
     addrReject s o (pgPON p + PON_ONU_CMD.off) = none →
     i = fld s (pgPON p) PON_ONU_IDX →
     mayUse (Origin.slice o) (onuOwner s p i) = true →
     Completes (.onuCounterClear o p) s (fun t =>
       (∀ j < 32, onuCnt t p i j = 0) ∧
       (∀ k, k / 32 ≠ 512 * p + i → tget dzero t.pon.onuCnt k = tget dzero s.pon.onuCnt k) ∧
       Answered s t o 0 (pgPON p + PON_ONU_CMD.off) ∧
       RegsOnly bookPages [pgPON p + PON_OWN_ERR.off] s t ∧
       Only (.onuCnt :: books) s t)) ∧
  (∀ (s : State) (o : Origin) (base : Nat),
     base % 0x1000 = 0 →
     base ≠ pgJRN →
     addrReject s o (base + 0x300) = none →
     Completes (.cntClr o base) s (fun t =>
       (∀ i < 32, cntAt t (cntAddr base i) = 0) ∧
       Answered s t o 0 (base + 0x300) ∧
       RegsOnly bookPages [] s t ∧
       Only books s t)) ∧
  (∀ (s : State) (o : Origin),
     addrReject s o (pgJRN + 0x300) = none →
     Completes (.cntClr o pgJRN) s (fun t =>
       cntAt t (cntAddr pgJRN JRN_C_RECORDS) = 1 ∧
       cntAt t (cntAddr pgJRN JRN_C_REJECTED) = 0 ∧
       Answered s t o 0 (pgJRN + 0x300) ∧
       Only books s t))

/-- A KEY_SW_GO for a valid record of the channel, a slot of it and a switch frame far enough ahead becomes the pending switch of the channel; one that comes too late for its lead time leaves the pending switch and is recorded with code 8 and KEY_LATE. KEY_SWITCH at its frame ends the pending switch: the bound record, still the same ONU, switches to the new slot and KEY_DONE is set; a record that changed keeps its keys and KEY_SW_REJ is set. KEY_GRACE_END ends a grace that is due and changes nothing else. -/
def Obligations.KeySwitches : Prop :=
  (∀ (s : State) (o : Origin) (p : Fin 32) (c : Fin 3) (i : Nat),
     addrReject s o (pgCH p c + CH_KEY_SW_GO.off) = none →
     findOnu s p c (fld s (pgCH p c) CH_KEY_ONU_ID) = some i →
     mayUse (Origin.slice o) (onuOwner s p i) = true →
     fld s (pgCH p c) CH_KEY_NEW_SLOT = firstSlot c ∨ fld s (pgCH p c) CH_KEY_NEW_SLOT = firstSlot c + 1 →
     (now s).fineIndex + keyLead c * finePerFrame ≤ (fld s (pgCH p c) CH_KEY_F_LO + fld s (pgCH p c) CH_KEY_F_HI * 2 ^ 32) * finePerFrame →
     Completes (.keySwGo o p c) s (fun t =>
       (chSt t p c).keySw = some ⟨i, fld s (pgCH p c) CH_KEY_ONU_ID, fld s (pgCH p c) CH_KEY_NEW_SLOT, fld s (pgCH p c) CH_KEY_F_LO + fld s (pgCH p c) CH_KEY_F_HI * 2 ^ 32⟩ ∧
       fld t (pgCH p c) CH_PENDING = 1 ∧
       Answered s t o 0 (pgCH p c + CH_KEY_SW_GO.off) ∧
       TblOnly ChSt.init (3 * p + c) s.pon.ch t.pon.ch ∧
       Only (.ch :: books) s t)) ∧
  (∀ (s : State) (o : Origin) (p : Fin 32) (c : Fin 3) (i : Nat),
     addrReject s o (pgCH p c + CH_KEY_SW_GO.off) = none →
     findOnu s p c (fld s (pgCH p c) CH_KEY_ONU_ID) = some i →
     mayUse (Origin.slice o) (onuOwner s p i) = true →
     fld s (pgCH p c) CH_KEY_NEW_SLOT = firstSlot c ∨ fld s (pgCH p c) CH_KEY_NEW_SLOT = firstSlot c + 1 →
     (fld s (pgCH p c) CH_KEY_F_LO + fld s (pgCH p c) CH_KEY_F_HI * 2 ^ 32) * finePerFrame < (now s).fineIndex + keyLead c * finePerFrame →
     Completes (.keySwGo o p c) s (fun t =>
       flagSet t (pgCH p c) CH_F_KEY_LATE = true ∧
       Answered s t o 8 (pgCH p c + CH_KEY_SW_GO.off) ∧
       Only (.fifo :: books) s t)) ∧
  (∀ (s : State) (p : Fin 32) (c : Fin 3) (k : KeySw),
     (chSt s p c).keySw = some k →
     k.frame ≤ frame s →
     (onu s p k.onu).valid = true →
     (onu s p k.onu).ch = c.val →
     (onu s p k.onu).onuId = k.onuId →
     Completes (.keySwitch p c) s (fun t =>
       keyEntry t (512 * p + k.onu) = switchEntry s p c k ∧
       TblOnly KeyEntry.init (512 * p + k.onu) s.keys t.keys ∧
       (chSt t p c).keySw = none ∧
       flagSet t (pgCH p c) CH_F_KEY_DONE = true ∧
       Only (.ch :: .keys :: alerts) s t)) ∧
  (∀ (s : State) (p : Fin 32) (c : Fin 3) (k : KeySw),
     (chSt s p c).keySw = some k →
     k.frame ≤ frame s →
     (onu s p k.onu).valid = false ∨ (onu s p k.onu).ch ≠ c.val ∨ (onu s p k.onu).onuId ≠ k.onuId →
     Completes (.keySwitch p c) s (fun t =>
       (chSt t p c).keySw = none ∧
       flagSet t (pgCH p c) CH_F_KEY_SW_REJ = true ∧
       Only (.ch :: alerts) s t)) ∧
  (∀ (s : State) (p : Fin 32) (i : Fin 512) (j f : Nat),
     (keyEntry s (512 * p + i)).grace = some (j, f) →
     f ≤ frame s →
     Completes (.keyGraceEnd p i) s (fun t =>
       keyEntry t (512 * p + i) = { keyEntry s (512 * p + i) with grace := none } ∧
       TblOnly KeyEntry.init (512 * p + i) s.keys t.keys ∧
       Only [.keys] s t))

/-- A PROFILE_WRITE that R27 lets through stores the word as the register codes say when the profile that results is not VALID or passes the checks of R76 and the write breaks no template entry, publishes PPU of the channel and is recorded with code 0; a profile that keeps its RATE leaves the phase memory (R89). One that leaves a VALID profile that R76 rejects stores nothing, sets PROFILE_REJECT, counts it and is recorded with code 1; so is a write of profile 1, 2 or 3 of a G channel, which sets no flag. -/
def Obligations.ProfileWrites : Prop :=
  (∀ (s : State) (o : Origin) (p : Fin 32) (c : Fin 3) (j : Fin 4) (w : Fin 9) (d : Word) (a : Nat) (s1 : State),
     a = profBase p c j + 4 * w →
     addrReject s o a = none →
     c.val ≠ 0 ∨ j.val = 0 →
     s1 = setReg s a (writtenWord .BRX (3 * p + c) (a % 0x1000) false d (reg s a)) →
     (profValid (profWords s1 p c j) = true → profRejected s p c (profWords s1 p c j) = false) →
     entriesBroken s s1 p c = false →
     Completes (.profileWrite o p c j w d) s (fun t =>
       reg t a = writtenWord .BRX (3 * p + c) (a % 0x1000) false d (reg s a) ∧
       (profRate (profWords s1 p c j) = profRate (profWords s p c j) → t.pon.phase = s.pon.phase) ∧
       Answered s t o 0 a ∧
       RegsOnly (pgALC p c :: pgRNG p c :: bookPages) [a] s t ∧
       Only (.phase :: books) s t)) ∧
  (∀ (s : State) (o : Origin) (p : Fin 32) (c : Fin 3) (j : Fin 4) (w : Fin 9) (d : Word) (a : Nat) (s1 : State),
     a = profBase p c j + 4 * w →
     addrReject s o a = none →
     c.val ≠ 0 ∨ j.val = 0 →
     s1 = setReg s a (writtenWord .BRX (3 * p + c) (a % 0x1000) false d (reg s a)) →
     profValid (profWords s1 p c j) = true →
     profRejected s p c (profWords s1 p c j) = true →
     Completes (.profileWrite o p c j w d) s (fun t =>
       reg t a = reg s a ∧
       flagSet t (pgBRX p c) BRX_F_PROFILE_REJ = true ∧
       Answered s t o 1 a ∧
       Only books s t)) ∧
  (∀ (s : State) (o : Origin) (p : Fin 32) (j : Fin 4) (w : Fin 9) (d : Word),
     addrReject s o (profBase p 0 j + 4 * w) = none →
     j.val ≠ 0 →
     Completes (.profileWrite o p 0 j w d) s (fun t =>
       reg t (profBase p 0 j + 4 * w) = reg s (profBase p 0 j + 4 * w) ∧
       Answered s t o 1 (profBase p 0 j + 4 * w) ∧
       RegsOnly bookPages [] s t ∧
       Only books s t))

/-- BRST_PULSE for the next burst, window or slot that awaits it: where the guard holds, the pulse rises at the rounded place SETTLE_GT (and RATE_SW_GT before a rate switch) and the pulse width before the preamble, and falls the width later; a rate switch, counted from the rate last granted on the lane (R353), is counted; where R85 drops the burst, no pulse rises, the burst awaits nothing and GUARD_VIOL is set and counted. PHASE_PRELOAD gives the lane the values of R88 for the next pulsed burst of an ONU. PHASE_WRITE_BACK of a burst whose write-back is due stores the phase and peaking code that the lane held at its last bit, with what trims have added, rate and frame in its entry, and makes it valid unless the burst was granted to an ONU in POPUP (R115). Each leaves everything else, the fired posted action of R19 apart. -/
def Obligations.PulsesAndPreloads : Prop :=
  (∀ (s : State) (p : Fin 32) (c : Fin 3) (l : LaneSt) (b : Burst) (sw : Bool),
     l = lane s p c →
     l.sched.find? awaitsPulse = some b →
     sw = needsSwitch (rateBefore awaitsPulse l.rate l.sched) b →
     guardViolated s p c (endBefore awaitsPulse l.lastEnd l.sched) sw b = false →
     Completes (.brstPulse p c) s (fun t =>
       (lane t p c).brstRise = pulseRise s p c sw b ∧
       (lane t p c).brstFall = pulseRise s p c sw b + fld s (pgBRX p c) BRX_BRST_WIDTH ∧
       (lane t p c).rate = l.rate ∧
       (lane t p c).sched = changeFirst awaitsPulse (fun b => { b with pulsed := true }) l.sched ∧
       cntAt t (cntAddr (pgBRX p c) BRX_C_RATE_SWITCHES) = (if sw then min cntMax (cntAt s (cntAddr (pgBRX p c) BRX_C_RATE_SWITCHES) + 1) else cntAt s (cntAddr (pgBRX p c) BRX_C_RATE_SWITCHES)) ∧
       TblOnly LaneSt.init (3 * p + c) s.pon.lane t.pon.lane ∧
       RegsOnly [pgPMC] [] s t ∧
       Only [.lane, .grid, .regs, .cnt, .pmc] s t)) ∧
  (∀ (s : State) (p : Fin 32) (c : Fin 3) (l : LaneSt) (b : Burst),
     l = lane s p c →
     l.sched.find? awaitsPulse = some b →
     guardViolated s p c (endBefore awaitsPulse l.lastEnd l.sched) (needsSwitch (rateBefore awaitsPulse l.rate l.sched) b) b = true →
     Completes (.brstPulse p c) s (fun t =>
       (lane t p c).sched = changeFirst awaitsPulse (fun b => { b with pulsed := true, loaded := true }) l.sched ∧
       (lane t p c).brstRise = l.brstRise ∧
       (lane t p c).rate = l.rate ∧
       flagSet t (pgBRX p c) BRX_F_GUARD_VIOL = true ∧
       cntAt t (cntAddr (pgBRX p c) BRX_C_GUARD_VIOL) = min cntMax (cntAt s (cntAddr (pgBRX p c) BRX_C_GUARD_VIOL) + 1) ∧
       TblOnly LaneSt.init (3 * p + c) s.pon.lane t.pon.lane ∧
       Only [.lane, .grid, .regs, .cnt, .pmc] s t)) ∧
  (∀ (s : State) (p : Fin 32) (c : Fin 3) (l : LaneSt) (b : Burst),
     l = lane s p c →
     l.sched.find? awaitsPreload = some b →
     Completes (.phasePreload p c) s (fun t =>
       ((lane t p c).phase, (lane t p c).peak) = preloadOf s p c b ∧
       (lane t p c).sched = changeFirst awaitsPreload (fun x => { x with loaded := true, preload := some (preloadOf s p c b) }) l.sched ∧
       TblOnly LaneSt.init (3 * p + c) s.pon.lane t.pon.lane ∧
       Only [.lane, .grid] s t)) ∧
  (∀ (s : State) (p : Fin 32) (c : Fin 3) (i : Fin 512) (ph : Fin 256) (pk : Fin 32) (b : Back),
     (lane s p c).back.find? (fun x => x.due s i ph pk) = some b →
     Completes (.phaseWriteBack p c i ph pk) s (fun t =>
       phaseMem t p c i = ⟨(b.phase + b.shift) % 256, b.peak, profRate b.b.words, frame s % 2 ^ 32, b.valid, true⟩ ∧
       (lane t p c).phase = (lane s p c).phase ∧
       (lane t p c).peak = (lane s p c).peak ∧
       (lane t p c).back = (lane s p c).back.erase b ∧
       (lane t p c).sched = (lane s p c).sched ∧
       TblOnly PhaseEntry.init (512 * (3 * p + c) + i) s.pon.phase t.pon.phase ∧
       TblOnly LaneSt.init (3 * p + c) s.pon.lane t.pon.lane ∧
       Only [.lane, .phase] s t))

/-- For the entry that PM_IDX selects and the slice may use: PM_READ shows its PHASE, PEAK, RATE, VALID and STAMP; PM_WRITE stores them from the window, and in the cycle of a hardware write-back stores nothing, shows CONFLICT and is recorded with code 4; PM_INVALIDATE clears VALID and keeps the rest. For an entry the slice may not use each shows OWN_ERR, data words of 0, and is recorded with code 2. No other entry changes. -/
def Obligations.PhaseMemoryWindow : Prop :=
  (∀ (s : State) (o : Origin) (p : Fin 32) (c : Fin 3) (e : PhaseEntry),
     addrReject s o (pgBRX p c + BRX_PM_CMD.off) = none →
     mayUse (Origin.slice o) (onuOwner s p (fld s (pgBRX p c) BRX_PM_IDX)) = true →
     e = phaseMem s p c (fld s (pgBRX p c) BRX_PM_IDX) →
     Completes (.pmRead o p c) s (fun t =>
       fld t (pgBRX p c) BRX_PHASE = e.phase % 2 ^ BRX_PHASE.width ∧
       fld t (pgBRX p c) BRX_PEAK = e.peak % 2 ^ BRX_PEAK.width ∧
       fld t (pgBRX p c) BRX_RATE = e.rate % 2 ^ BRX_RATE.width ∧
       isSet t (pgBRX p c) BRX_VALID = e.valid ∧
       fld t (pgBRX p c) BRX_STAMP = e.stamp % 2 ^ BRX_STAMP.width ∧
       Answered s t o 0 (pgBRX p c + BRX_PM_CMD.off) ∧
       Only books s t)) ∧
  (∀ (s : State) (o : Origin) (p : Fin 32) (c : Fin 3),
     addrReject s o (pgBRX p c + BRX_PM_CMD.off) = none →
     mayUse (Origin.slice o) (onuOwner s p (fld s (pgBRX p c) BRX_PM_IDX)) = true →
     Completes (.pmWrite o p c false) s (fun t =>
       phaseMem t p c (fld s (pgBRX p c) BRX_PM_IDX) = ⟨fld s (pgBRX p c) BRX_PHASE, fld s (pgBRX p c) BRX_PEAK, fld s (pgBRX p c) BRX_RATE, fld s (pgBRX p c) BRX_STAMP, isSet s (pgBRX p c) BRX_VALID, true⟩ ∧
       TblOnly PhaseEntry.init (512 * (3 * p + c) + (fld s (pgBRX p c) BRX_PM_IDX)) s.pon.phase t.pon.phase ∧
       Answered s t o 0 (pgBRX p c + BRX_PM_CMD.off) ∧
       Only (.phase :: .lane :: books) s t)) ∧
  (∀ (s : State) (o : Origin) (p : Fin 32) (c : Fin 3),
     addrReject s o (pgBRX p c + BRX_PM_CMD.off) = none →
     mayUse (Origin.slice o) (onuOwner s p (fld s (pgBRX p c) BRX_PM_IDX)) = true →
     Completes (.pmWrite o p c true) s (fun t =>
       isSet t (pgBRX p c) BRX_CONFLICT = true ∧
       Answered s t o 4 (pgBRX p c + BRX_PM_CMD.off) ∧
       Only books s t)) ∧
  (∀ (s : State) (o : Origin) (p : Fin 32) (c : Fin 3),
     addrReject s o (pgBRX p c + BRX_PM_CMD.off) = none →
     mayUse (Origin.slice o) (onuOwner s p (fld s (pgBRX p c) BRX_PM_IDX)) = true →
     Completes (.pmInvalidate o p c) s (fun t =>
       phaseMem t p c (fld s (pgBRX p c) BRX_PM_IDX) = { phaseMem s p c (fld s (pgBRX p c) BRX_PM_IDX) with valid := false } ∧
       TblOnly PhaseEntry.init (512 * (3 * p + c) + (fld s (pgBRX p c) BRX_PM_IDX)) s.pon.phase t.pon.phase ∧
       Answered s t o 0 (pgBRX p c + BRX_PM_CMD.off) ∧
       Only (.phase :: books) s t)) ∧
  (∀ (s : State) (o : Origin) (p : Fin 32) (c : Fin 3) (i : Instr),
     i = .pmRead o p c ∨ i = .pmWrite o p c false ∨ i = .pmInvalidate o p c →
     addrReject s o (pgBRX p c + BRX_PM_CMD.off) = none →
     mayUse (Origin.slice o) (onuOwner s p (fld s (pgBRX p c) BRX_PM_IDX)) = false →
     Completes (i) s (fun t =>
       reg t (pgBRX p c + BRX_PHASE.off) = 0 ∧
       reg t (pgBRX p c + BRX_STAMP.off) = 0 ∧
       Answered s t o 2 (pgBRX p c + BRX_PM_CMD.off) ∧
       Only books s t))

/-- An accepted RSSI_GO makes the request of RSSI_ONU and RSSI_DARK, for an ONU's burst 16 gt ahead or later, the pending one of its channel. RSSI_PULSE of a request whose burst is scheduled and that no pulse of another channel of the port overlaps gives the pulse, ends the request, counts it and sets RSSI_DONE; one whose pulse a lower channel takes is deferred past that burst. SD_LEVEL_CHANGE takes a level that has held SD_FILT samples and no shorter one. DARK_SLOT_TEST tests the next dark slot: light in its inner window sets DARK_HIT, and the slot leaves the schedule, is counted, and joins the window that ROGUE looks at. -/
def Obligations.RssiSignalDetectAndDarkSlots : Prop :=
  (∀ (s : State) (o : Origin) (p : Fin 32) (c : Fin 3),
     addrReject s o (pgBRX p c + BRX_RSSI_GO.off) = none →
     Completes (.rssiGo o p c) s (fun t =>
       (∃ x, (lane t p c).rssi = some x ∧ x.onu = fld s (pgBRX p c) BRX_RSSI_ONU ∧ x.dark = isSet s (pgBRX p c) BRX_RSSI_DARK ∧
         (now s).fineIndex + (if isSet s (pgBRX p c) BRX_RSSI_DARK then 0 else 16 * finePerGt) ≤ x.at_) ∧
       (lane t p c).sched = (lane s p c).sched ∧
       isSet t (pgBRX p c) BRX_RSSI_PENDING = true ∧
       TblOnly LaneSt.init (3 * p + c) s.pon.lane t.pon.lane ∧
       Answered s t o 0 (pgBRX p c + BRX_RSSI_GO.off) ∧
       Only (.lane :: .grid :: .fifo :: books) s t)) ∧
  (∀ (s : State) (p : Fin 32) (c : Fin 3) (w : Nat × Nat),
     rssiPulseAt s p c = some w →
     rssiBlocked s p c w = false →
     (List.range 3).all (fun d => d ≤ c.val || (rssiPulseAt s p d).all (fun v => !overlap w v)) = true →
     Completes (.rssiPulse p c) s (fun t =>
       ((lane t p c).rssiRise, (lane t p c).rssiFall) = w ∧
       (lane t p c).rssi = none ∧
       flagSet t (pgBRX p c) BRX_F_RSSI_DONE = true ∧
       cntAt t (cntAddr (pgBRX p c) BRX_C_RSSI_TRIGS) = min cntMax (cntAt s (cntAddr (pgBRX p c) BRX_C_RSSI_TRIGS) + 1) ∧
       TblOnly LaneSt.init (3 * p + c) s.pon.lane t.pon.lane ∧
       Only [.lane, .grid, .regs, .cnt, .pmc] s t)) ∧
  (∀ (s : State) (p : Fin 32) (c : Fin 3) (w : Nat × Nat) (r : RssiReq) (b : Burst),
     (lane s p c).rssi = some r →
     rssiTarget (lane s p c) r = some b →
     rssiPulseAt s p c = some w →
     rssiBlocked s p c w = true →
     Completes (.rssiPulse p c) s (fun t =>
       (∃ x, (lane t p c).rssi = some x ∧ x.onu = r.onu ∧ x.dark = r.dark ∧ b.ps < x.at_) ∧
       (lane t p c).rssiRise = (lane s p c).rssiRise ∧
       flagSet t (pgBRX p c) BRX_F_RSSI_DEFER = true ∧
       Only (.lane :: .grid :: alerts) s t)) ∧
  (∀ (s : State) (p : Fin 32) (c : Fin 3) (v : Bool) (n : Nat),
     max 1 (fld s (pgBRX p c) BRX_SD_FILT) ≤ n →
     Completes (.sdLevelChange p c v n) s (fun t =>
       (lane t p c).sd = v ∧
       lane t p c = { lane s p c with sd := v } ∧
       TblOnly LaneSt.init (3 * p + c) s.pon.lane t.pon.lane ∧
       Only [.lane, .pair] s t)) ∧
  (∀ (s : State) (p : Fin 32) (c : Fin 3) (v : Bool) (n : Nat),
     n < max 1 (fld s (pgBRX p c) BRX_SD_FILT) →
     Completes (.sdLevelChange p c v n) s (fun t =>
       t = s)) ∧
  (∀ (s : State) (p : Fin 32) (c : Fin 3) (sd : Bool) (n : Nat) (d : Burst) (light : Bool),
     (lane s p c).sched.find? (fun x => x.kind == .dark) = some d →
     light = (2 * fld s (pgBRX p c) BRX_DARK_EDGE < d.size && (sd || (lane s p c).sd || fld s (pgBRX p c) BRX_LIGHT_MIN ≤ n)) →
     Completes (.darkSlotTest p c sd n) s (fun t =>
       (lane t p c).dark = (light :: (lane s p c).dark).take 15 ∧
       (lane t p c).sched = (lane s p c).sched.erase d ∧
       cntAt t (cntAddr (pgBRX p c) BRX_C_DARK_SLOTS) = min cntMax (cntAt s (cntAddr (pgBRX p c) BRX_C_DARK_SLOTS) + 1) ∧
       (light = true → flagSet t (pgBRX p c) BRX_F_DARK_HIT = true) ∧
       TblOnly LaneSt.init (3 * p + c) s.pon.lane t.pon.lane ∧
       Only (.lane :: alerts) s t))

/-- A REACH_WRITE of REACH, FIBRE or ZD that R96 lets through while no ONU of the channel holds a delay stores the word and publishes US_OFFSET as R97 gives it; otherwise it stores nothing, sets REACH_REJ and is recorded with code 1 (for a record in ASSIGNED or a later state the code is the model's choice, log entry 7). An SN_RESPONSE whose header point lies in the oldest open window and where the search runs (R107, R354), while the window still takes serial numbers, for a record that step 1 or 2 of R108 finds and that is not in operation elsewhere, assigns that record: SEEN_SN, state ASSIGNED, RTD_hi; a serial number that no step finds is shown and announced as unknown. SURVEY_WINDOW_CLOSE ends the oldest window: light without account is one SN_COLLISION and with ADAPT_EN returns PERIOD_NOW to SURVEY_PERIOD, a quiet window counts toward SKIP_AFTER, and at SKIP_AFTER with ADAPT_EN the period doubles up to its maximum. -/
def Obligations.SurveyAnswers : Prop :=
  (∀ (s : State) (o : Origin) (p : Fin 32) (c : Fin 3) (off : Nat) (d : Word) (s1 : State),
     off = 0x44 ∨ off = 0x48 ∨ off = 0x4C →
     addrReject s o (pgRNG p c + off) = none →
     s1 = setReg s (pgRNG p c + off) (writtenWord .RNG (3 * p + c) off false d (reg s (pgRNG p c + off))) →
     reachRejected s1 p c = false →
     reachHeld s p c = false →
     Completes (.reachWrite o p c off d) s (fun t =>
       reg t (pgRNG p c + off) = writtenWord .RNG (3 * p + c) off false d (reg s (pgRNG p c + off)) ∧
       fld t (pgRNG p c) RNG_US_OFFSET = (ceilDiv (fld s1 (pgRNG p c) RNG_ZD_FINE) 256 + rtt s1 p c (fld s1 (pgRNG p c) RNG_REACH_MAX_M) + fld s1 (pgRNG p c) RNG_EQ_MARGIN) % 2 ^ RNG_US_OFFSET.width ∧
       Answered s t o 0 (pgRNG p c + off) ∧
       RegsOnly (pgBND p :: pgALC p c :: bookPages) [pgRNG p c + off, pgRNG p c + RNG_US_OFFSET.off, pgRNG p c + RNG_SURVEY_LEN.off] s t ∧
       Only books s t)) ∧
  (∀ (s : State) (o : Origin) (p : Fin 32) (c : Fin 3) (off : Nat) (d : Word) (s1 : State),
     off = 0x44 ∨ off = 0x48 ∨ off = 0x4C →
     addrReject s o (pgRNG p c + off) = none →
     s1 = setReg s (pgRNG p c + off) (writtenWord .RNG (3 * p + c) off false d (reg s (pgRNG p c + off))) →
     reachRejected s1 p c = true ∨ reachHeld s p c = true →
     Completes (.reachWrite o p c off d) s (fun t =>
       reg t (pgRNG p c + off) = reg s (pgRNG p c + off) ∧
       fld t (pgRNG p c) RNG_US_OFFSET = fld s (pgRNG p c) RNG_US_OFFSET ∧
       flagSet t (pgRNG p c) RNG_F_REACH_REJ = true ∧
       Answered s t o 1 (pgRNG p c + off) ∧
       Only books s t)) ∧
  (∀ (s : State) (p : Fin 32) (c : Fin 3) (sn : BitVec 64) (hp : Int) (w : SurveyWin) (ws : List SurveyWin) (i at_ : Nat),
     (survey s p c).wins = w :: ws →
     at_ = (((w.mapFrame * finePerFrame + w.start * unitGt c * 256 : Nat) : Int) + hp).toNat →
     w.open_ ≤ at_ →
     at_ ≤ w.close →
     (∀ x, w.found = some x → searchFrom s p c x ≤ at_) →
     w.heard < fld s (pgRNG p c) RNG_SN_PER_WIN →
     (channelOnus s p c).any (fun e => e.2.state == stOperation && e.2.seenSn == sn) = false →
     (snStep1 s p c sn).orElse (fun _ => snStep2 s p c) = some i →
     snElsewhere s p c i sn = false →
     hasDefect (onu s p i) dDOWi = false →
     0 < fld s (pgRNG p (onu s p i).ch) RNG_DOW_FINE →
     Completes (.snResponse p c sn hp) s (fun t =>
       (onu t p i).state = stAssigned ∧
       (onu t p i).seenSn = sn ∧
       (onu t p i).onuId = (onu s p i).onuId ∧
       (onu t p i).expSn = (onu s p i).expSn ∧
       (rng t p i).rtdHi = hp.fdiv 256 ∧
       (rng t p i).since = frame s ∧
       (survey t p c).wins = { w with heard := w.heard + 1, valid := true, found := some at_ } :: ws ∧
       TblOnly OnuRec.init (512 * p + i) s.pon.onu t.pon.onu ∧
       TblOnly RngRec.init (512 * p + i) s.pon.rng t.pon.rng ∧
       Only [.regs, .cnt, .pmc, .onu, .rng, .survey, .lane, .ch, .grid] s t)) ∧
  (∀ (s : State) (p : Fin 32) (c : Fin 3) (sn : BitVec 64) (hp : Int) (w : SurveyWin) (ws : List SurveyWin) (at_ : Nat),
     (survey s p c).wins = w :: ws →
     at_ = (((w.mapFrame * finePerFrame + w.start * unitGt c * 256 : Nat) : Int) + hp).toNat →
     w.open_ ≤ at_ →
     at_ ≤ w.close →
     (∀ x, w.found = some x → searchFrom s p c x ≤ at_) →
     w.heard < fld s (pgRNG p c) RNG_SN_PER_WIN →
     (channelOnus s p c).any (fun e => e.2.state == stOperation && e.2.seenSn == sn) = false →
     snStep1 s p c sn = none →
     snStep2 s p c = none →
     snStep3 s p c = none →
     Completes (.snResponse p c sn hp) s (fun t =>
       flagSet t (pgRNG p c) RNG_F_UNKNOWN_SN = true ∧
       reg t (pgRNG p c + RNG_LAST_UNK_SN_HI.off) = BitVec.ofNat 32 (sn.toNat / 2 ^ 32) ∧
       reg t (pgRNG p c + RNG_LAST_UNK_SN_LO.off) = BitVec.ofNat 32 sn.toNat ∧
       (isSet s (pgRNG p c) ANY_EVT_EN = true → s.evt.fifo.length < evtFifoMax → Posted s t (pgRNG p c) .snUnknown [sn.toNat]) ∧
       Only (.survey :: .lane :: .grid :: alerts) s t)) ∧
  (∀ (s : State) (p : Fin 32) (c : Fin 3) (u v : Bool) (w : SurveyWin) (ws : List SurveyWin),
     (survey s p c).wins = w :: ws →
     u = true ∨ v = true ∨ w.clash = true →
     Completes (.surveyWindowClose p c u v) s (fun t =>
       (survey t p c).wins = ws ∧
       (survey t p c).run = 0 ∧
       flagSet t (pgRNG p c) RNG_F_SN_COLLISION = true ∧
       (isSet s (pgRNG p c) RNG_ADAPT_EN = true →
         fld t (pgRNG p c) RNG_PERIOD_NOW = fld s (pgRNG p c) RNG_SURVEY_PERIOD ∧ fld t (pgRNG p c) RNG_SKIP_LEVEL = 0) ∧
       (isSet s (pgRNG p c) RNG_ADAPT_EN = false → fld t (pgRNG p c) RNG_PERIOD_NOW = fld s (pgRNG p c) RNG_PERIOD_NOW) ∧
       Only [.survey, .lane, .regs, .cnt, .pmc] s t)) ∧
  (∀ (s : State) (p : Fin 32) (c : Fin 3) (w : SurveyWin) (ws : List SurveyWin),
     (survey s p c).wins = w :: ws →
     w.heard = 0 →
     w.clash = false →
     (isSet s (pgRNG p c) RNG_ADAPT_EN && fld s (pgRNG p c) RNG_SKIP_AFTER ≤ (survey s p c).run + 1) = true →
     Completes (.surveyWindowClose p c false false) s (fun t =>
       (survey t p c).wins = ws ∧
       (survey t p c).run = 0 ∧
       fld t (pgRNG p c) RNG_PERIOD_NOW = min (2 * fld s (pgRNG p c) RNG_PERIOD_NOW) (fld s (pgRNG p c) RNG_SURVEY_PERIOD_MAX) ∧
       Only [.survey, .lane, .regs] s t)) ∧
  (∀ (s : State) (p : Fin 32) (c : Fin 3) (w : SurveyWin) (ws : List SurveyWin),
     (survey s p c).wins = w :: ws →
     w.clash = false →
     0 < w.heard ∨ (isSet s (pgRNG p c) RNG_ADAPT_EN && fld s (pgRNG p c) RNG_SKIP_AFTER ≤ (survey s p c).run + 1) = false →
     Completes (.surveyWindowClose p c false false) s (fun t =>
       (survey t p c).wins = ws ∧
       (survey t p c).run = (if w.heard = 0 then (survey s p c).run + 1 else (survey s p c).run) ∧
       Only [.survey, .lane] s t))

/-- RANGING_GRANT_DUE wants a ranging grant for an assigned or ranging record whose delay has passed, which the next map that has room places, and otherwise changes nothing. RANGING_RESPONSE of a record in RANGING, found in its window with the capture of its position, gives RTD from the capture; where EqD_fine is not negative the record takes EqD and RES as R98 rounds them and is counted in RANGE_OK; where it is negative the record goes to DEACT, RANGE_FAR is set and counted. RANGING_WINDOW_CLOSE without a response sets RANGE_FAIL and counts it, and the record waits for a new grant, or goes to DEACT at RANGE_TRIES. A registration ID that matches takes a record in REGISTER to OPERATION; one that does not raises SNMi and enters SNM. REGISTER_TIMEOUT and POPUP_EXPIRE of a record whose time has passed send it to DEACT, set and count RANGE_FAIL or POPUP_EXPIRE. EQD_RETRY of a correction not seen in T_EQD frames sends it again and counts it while fewer than 3 were sent; after the third the correction ends unacknowledged and DOWi is raised, and with EQD_CORR_EN 0 no new correction follows. -/
def Obligations.RangingAndActivationSteps : Prop :=
  (∀ (s : State) (p : Fin 32) (i : Fin 512) (f : Nat),
     (onu s p i).state = stAssigned ∨ (onu s p i).state = stRanging →
     (rng s p i).assignSent = some f →
     (rng s p i).grantFrame = none →
     (rng s p i).want = false →
     (rng s p i).ranged = false →
     f + fld s (pgRNG p (onu s p i).ch) RNG_RANGE_DELAY ≤ frame s + 1 →
     Completes (.rangingGrantDue p i) s (fun t =>
       rng t p i = { rng s p i with want := true } ∧
       TblOnly RngRec.init (512 * p + i) s.pon.rng t.pon.rng ∧
       Only [.rng] s t)) ∧
  (∀ (s : State) (p : Fin 32) (i : Fin 512),
     (rng s p i).assignSent = none ∨ (rng s p i).want = true ∨ (rng s p i).ranged = true →
     Completes (.rangingGrantDue p i) s (fun t =>
       t = s)) ∧
  (∀ (s : State) (p : Fin 32) (i : Fin 512) (ns : BitVec 32) (fr : BitVec 8) (f ch : Nat) (rtd x q : Int),
     ch = (onu s p i).ch →
     (onu s p i).state = stRanging →
     (rng s p i).ranged = false →
     (rng s p i).grantFrame = some f →
     rtd = captureFine f ns.toNat fr.toNat - ((f * finePerFrame + (rng s p i).grantS * unitGt ch * 256 : Nat) : Int) →
     heardInWindow s p ch i (captureFine f ns.toNat fr.toNat) ns.toNat fr.toNat = true →
     x = eqdFine s p ch rtd →
     0 ≤ x →
     q = roundDiv (40 * x) (unit40 ch) →
     hasDefect (onu s p i) dDOWi = false →
     (roundDiv (q * unit40 ch - 40 * x) 40).natAbs < fld s (pgRNG p ch) RNG_DOW_FINE →
     Completes (.rangingResponse p i ns fr) s (fun t =>
       (rng t p i).eqd = q.toNat ∧
       (rng t p i).res = roundDiv (q * unit40 ch - 40 * x) 40 ∧
       (rng t p i).rtd = rtd ∧
       (rng t p i).rangedFrame = frame s ∧
       (rng t p i).drift = 0 ∧
       (rng t p i).grantFrame = none ∧
       onu t p i = onu s p i ∧
       cntAt t (cntAddr (pgRNG p ch) RNG_C_RANGE_OK) = min cntMax (cntAt s (cntAddr (pgRNG p ch) RNG_C_RANGE_OK) + 1) ∧
       TblOnly RngRec.init (512 * p + i) s.pon.rng t.pon.rng ∧
       Only [.rng, .lane, .grid, .ch, .regs, .cnt, .pmc] s t)) ∧
  (∀ (s : State) (p : Fin 32) (i : Fin 512) (ns : BitVec 32) (fr : BitVec 8) (f ch : Nat) (rtd : Int),
     ch = (onu s p i).ch →
     (onu s p i).state = stRanging →
     (rng s p i).ranged = false →
     (rng s p i).grantFrame = some f →
     rtd = captureFine f ns.toNat fr.toNat - ((f * finePerFrame + (rng s p i).grantS * unitGt ch * 256 : Nat) : Int) →
     heardInWindow s p ch i (captureFine f ns.toNat fr.toNat) ns.toNat fr.toNat = true →
     eqdFine s p ch rtd < 0 →
     Completes (.rangingResponse p i ns fr) s (fun t =>
       onu t p i = { onu s p i with state := stDeact } ∧
       (rng t p i).eqd = (rng s p i).eqd ∧
       (rng t p i).grantFrame = none ∧
       flagSet t (pgRNG p ch) RNG_F_RANGE_FAR = true ∧
       cntAt t (cntAddr (pgRNG p ch) RNG_C_RANGE_FAR) = min cntMax (cntAt s (cntAddr (pgRNG p ch) RNG_C_RANGE_FAR) + 1) ∧
       Only (.lane :: .grid :: [.onu, .rng, .ch, .phase, .regs, .cnt, .pmc]) s t)) ∧
  (∀ (s : State) (p : Fin 32) (i : Fin 512),
     (onu s p i).state = stRanging →
     (rng s p i).grantFrame ≠ none →
     (rng s p i).ranged = false →
     (rng s p i).tries < fld s (pgRNG p (onu s p i).ch) RNG_RANGE_TRIES →
     Completes (.rangingWindowClose p i) s (fun t =>
       rng t p i = { rng s p i with grantFrame := none, assignSent := some (frame s) } ∧
       onu t p i = onu s p i ∧
       flagSet t (pgRNG p (onu s p i).ch) RNG_F_RANGE_FAIL = true ∧
       cntAt t (cntAddr (pgRNG p (onu s p i).ch) RNG_C_RANGE_FAIL) = min cntMax (cntAt s (cntAddr (pgRNG p (onu s p i).ch) RNG_C_RANGE_FAIL) + 1) ∧
       Only [.lane, .rng, .regs, .cnt, .pmc] s t)) ∧
  (∀ (s : State) (p : Fin 32) (i : Fin 512),
     (onu s p i).state = stRanging →
     (rng s p i).grantFrame ≠ none →
     (rng s p i).ranged = false →
     fld s (pgRNG p (onu s p i).ch) RNG_RANGE_TRIES ≤ (rng s p i).tries →
     Completes (.rangingWindowClose p i) s (fun t =>
       onu t p i = { onu s p i with state := stDeact } ∧
       flagSet t (pgRNG p (onu s p i).ch) RNG_F_RANGE_FAIL = true ∧
       Only (.lane :: [.onu, .rng, .ch, .phase, .regs, .cnt, .pmc]) s t)) ∧
  (∀ (s : State) (p : Fin 32) (i : Fin 512) (id : BitVec 288),
     (onu s p i).state = stRegister →
     regMatches (onu s p i).ch (onu s p i).expReg id = true →
     Completes (.registrationReceived p i id) s (fun t =>
       onu t p i = { onu s p i with state := stOperation } ∧
       TblOnly OnuRec.init (512 * p + i) s.pon.onu t.pon.onu ∧
       RegsOnly [] [pgGRD + GRD_ONU_IN_OP.off, pgPON p + PON_ONU_IN_USE.off] s t ∧
       Only [.onu, .regs] s t)) ∧
  (∀ (s : State) (p : Fin 32) (i : Fin 512) (id : BitVec 288),
     (onu s p i).state = stRegister →
     regMatches (onu s p i).ch (onu s p i).expReg id = false →
     Completes (.registrationReceived p i id) s (fun t =>
       (onu t p i).state = stSnm ∧
       hasDefect (onu t p i) dSNMi = true ∧
       TblOnly OnuRec.init (512 * p + i) s.pon.onu t.pon.onu ∧
       Only (.onu :: .pm :: .rng :: .ch :: .phase :: alerts) s t)) ∧
  (∀ (s : State) (p : Fin 32) (i : Fin 512),
     (onu s p i).state = stRegister →
     (rng s p i).since + fld s (pgRNG p (onu s p i).ch) RNG_T_REG ≤ frame s →
     Completes (.registerTimeout p i) s (fun t =>
       onu t p i = { onu s p i with state := stDeact } ∧
       flagSet t (pgRNG p (onu s p i).ch) RNG_F_RANGE_FAIL = true ∧
       TblOnly OnuRec.init (512 * p + i) s.pon.onu t.pon.onu ∧
       Only [.onu, .rng, .ch, .phase, .regs, .cnt, .pmc] s t)) ∧
  (∀ (s : State) (p : Fin 32) (i : Fin 512),
     (onu s p i).state = stPopup →
     (rng s p i).since + fld s (pgRNG p (onu s p i).ch) RNG_T_POPUP ≤ frame s →
     Completes (.popupExpire p i) s (fun t =>
       onu t p i = { onu s p i with state := stDeact } ∧
       flagSet t (pgRNG p (onu s p i).ch) RNG_F_POPUP_EXPIRE = true ∧
       cntAt t (cntAddr (pgRNG p (onu s p i).ch) RNG_C_POPUP_EXPIRE) = min cntMax (cntAt s (cntAddr (pgRNG p (onu s p i).ch) RNG_C_POPUP_EXPIRE) + 1) ∧
       TblOnly OnuRec.init (512 * p + i) s.pon.onu t.pon.onu ∧
       Only [.onu, .rng, .ch, .phase, .regs, .cnt, .pmc] s t)) ∧
  (∀ (s : State) (p : Fin 32) (i : Fin 512),
     (rng s p i).adj = true →
     (rng s p i).adjSent + fld s (pgRNG p (onu s p i).ch) RNG_T_EQD ≤ frame s →
     (rng s p i).sends < 3 →
     Completes (.eqdRetry p i) s (fun t =>
       rng t p i = { rng s p i with sends := (rng s p i).sends + 1, adjSent := frame s } ∧
       onu t p i = onu s p i ∧
       flagSet t (pgRNG p (onu s p i).ch) RNG_F_EQD_RETRY = true ∧
       cntAt t (cntAddr (pgRNG p (onu s p i).ch) RNG_C_EQD_RETRY) = min cntMax (cntAt s (cntAddr (pgRNG p (onu s p i).ch) RNG_C_EQD_RETRY) + 1) ∧
       TblOnly RngRec.init (512 * p + i) s.pon.rng t.pon.rng ∧
       Only [.rng, .ch, .regs, .cnt, .pmc] s t)) ∧
  (∀ (s : State) (p : Fin 32) (i : Fin 512),
     (rng s p i).adj = true →
     (rng s p i).adjSent + fld s (pgRNG p (onu s p i).ch) RNG_T_EQD ≤ frame s →
     3 ≤ (rng s p i).sends →
     Completes (.eqdRetry p i) s (fun t =>
       hasDefect (onu t p i) dDOWi = true ∧
       (isSet s (pgRNG p (onu s p i).ch) RNG_EQD_CORR_EN = false →
         rng t p i = { rng s p i with adj := false, sends := 0 } ∧ t.pon.ch = s.pon.ch) ∧
       (rng t p i).sends ≤ 1 ∧
       (rng t p i).eqd = (rng s p i).eqd ∧
       TblOnly RngRec.init (512 * p + i) s.pon.rng t.pon.rng ∧
       TblOnly OnuRec.init (512 * p + i) s.pon.onu t.pon.onu ∧
       Only (.rng :: .onu :: .pm :: .ch :: alerts) s t))

/-- For a valid record of the channel that the slice may use: RG_READ shows EQD, RES, the pending correction and the frame of ranging and changes nothing else; RG_SET_EQD in REGISTER, OPERATION or POPUP stores the EqD with RES 0 and sends Ranging_Time, which clears a DOWi that no pending correction keeps (R114), RG_RERANGE there asks for a re-range at the next T_IN, and in any other state both leave the record, show REJECT and are recorded with code 8; RG_SET_EQD in the cycle of a hardware update shows CONFLICT and is recorded with code 4. A record that is VALID on another channel gives CH_ERR and data words of 0 with code 1 (the code is the model's choice, log entry 18). -/
def Obligations.RangingWindow : Prop :=
  (∀ (s : State) (o : Origin) (p : Fin 32) (c : Fin 3),
     addrReject s o (pgRNG p c + RNG_RG_CMD.off) = none →
     mayUse (Origin.slice o) (onuOwner s p (fld s (pgRNG p c) RNG_RG_IDX)) = true →
     (onu s p (fld s (pgRNG p c) RNG_RG_IDX)).valid = true →
     (onu s p (fld s (pgRNG p c) RNG_RG_IDX)).ch = c.val →
     Completes (.rgRead o p c) s (fun t =>
       fld t (pgRNG p c) RNG_EQD = (rng s p (fld s (pgRNG p c) RNG_RG_IDX)).eqd % 2 ^ RNG_EQD.width ∧
       fld t (pgRNG p c) RNG_RES = unsignedOf 16 (rng s p (fld s (pgRNG p c) RNG_RG_IDX)).res ∧
       isSet t (pgRNG p c) RNG_ADJ_PENDING = (rng s p (fld s (pgRNG p c) RNG_RG_IDX)).adj ∧
       fld t (pgRNG p c) RNG_ADJ_SENDS = (rng s p (fld s (pgRNG p c) RNG_RG_IDX)).sends % 4 ∧
       fld t (pgRNG p c) RNG_RANGED_FRAME = (rng s p (fld s (pgRNG p c) RNG_RG_IDX)).rangedFrame % 2 ^ 32 ∧
       Answered s t o 0 (pgRNG p c + RNG_RG_CMD.off) ∧
       Only books s t)) ∧
  (∀ (s : State) (o : Origin) (p : Fin 32) (c : Fin 3),
     addrReject s o (pgRNG p c + RNG_RG_CMD.off) = none →
     mayUse (Origin.slice o) (onuOwner s p (fld s (pgRNG p c) RNG_RG_IDX)) = true →
     (onu s p (fld s (pgRNG p c) RNG_RG_IDX)).valid = true →
     (onu s p (fld s (pgRNG p c) RNG_RG_IDX)).ch = c.val →
     rgStateOk (onu s p (fld s (pgRNG p c) RNG_RG_IDX)) = true →
     Completes (.rgSetEqd o p c false) s (fun t =>
       rng t p (fld s (pgRNG p c) RNG_RG_IDX) = { rng s p (fld s (pgRNG p c) RNG_RG_IDX) with eqd := fld s (pgRNG p c) RNG_EQD, res := 0 } ∧
       (0 < fld s (pgRNG p c) RNG_DOW_FINE → hasDefect (onu s p (fld s (pgRNG p c) RNG_RG_IDX)) dDOWi = false →
         onu t p (fld s (pgRNG p c) RNG_RG_IDX) = onu s p (fld s (pgRNG p c) RNG_RG_IDX)) ∧
       (0 < fld s (pgRNG p c) RNG_DOW_FINE → (rng s p (fld s (pgRNG p c) RNG_RG_IDX)).adj = false →
         hasDefect (onu t p (fld s (pgRNG p c) RNG_RG_IDX)) dDOWi = false) ∧
       TblOnly OnuRec.init (512 * p + (fld s (pgRNG p c) RNG_RG_IDX)) s.pon.onu t.pon.onu ∧
       ((chSt s p c).retry = [] → (chSt s p c).urgent.length < ploamMax → (chSt t p c).urgent = (chSt s p c).urgent ++ [⟨.rangingTime (fld s (pgRNG p c) RNG_EQD), (fld s (pgRNG p c) RNG_RG_IDX), (onu s p (fld s (pgRNG p c) RNG_RG_IDX)).onuId, now s⟩]) ∧
       TblOnly RngRec.init (512 * p + (fld s (pgRNG p c) RNG_RG_IDX)) s.pon.rng t.pon.rng ∧
       Answered s t o 0 (pgRNG p c + RNG_RG_CMD.off) ∧
       Only (.rng :: .ch :: .onu :: .pm :: .fifo :: books) s t)) ∧
  (∀ (s : State) (o : Origin) (p : Fin 32) (c : Fin 3),
     addrReject s o (pgRNG p c + RNG_RG_CMD.off) = none →
     mayUse (Origin.slice o) (onuOwner s p (fld s (pgRNG p c) RNG_RG_IDX)) = true →
     (onu s p (fld s (pgRNG p c) RNG_RG_IDX)).valid = true →
     (onu s p (fld s (pgRNG p c) RNG_RG_IDX)).ch = c.val →
     Completes (.rgSetEqd o p c true) s (fun t =>
       isSet t (pgRNG p c) RNG_CONFLICT = true ∧
       Answered s t o 4 (pgRNG p c + RNG_RG_CMD.off) ∧
       Only books s t)) ∧
  (∀ (s : State) (o : Origin) (p : Fin 32) (c : Fin 3),
     addrReject s o (pgRNG p c + RNG_RG_CMD.off) = none →
     mayUse (Origin.slice o) (onuOwner s p (fld s (pgRNG p c) RNG_RG_IDX)) = true →
     (onu s p (fld s (pgRNG p c) RNG_RG_IDX)).valid = true →
     (onu s p (fld s (pgRNG p c) RNG_RG_IDX)).ch = c.val →
     rgStateOk (onu s p (fld s (pgRNG p c) RNG_RG_IDX)) = true →
     Completes (.rgRerange o p c) s (fun t =>
       rng t p (fld s (pgRNG p c) RNG_RG_IDX) = { rng s p (fld s (pgRNG p c) RNG_RG_IDX) with rerangeReq := true } ∧
       TblOnly RngRec.init (512 * p + (fld s (pgRNG p c) RNG_RG_IDX)) s.pon.rng t.pon.rng ∧
       Answered s t o 0 (pgRNG p c + RNG_RG_CMD.off) ∧
       Only (.rng :: books) s t)) ∧
  (∀ (s : State) (o : Origin) (p : Fin 32) (c : Fin 3) (i : Instr),
     i = .rgSetEqd o p c false ∨ i = .rgRerange o p c →
     addrReject s o (pgRNG p c + RNG_RG_CMD.off) = none →
     mayUse (Origin.slice o) (onuOwner s p (fld s (pgRNG p c) RNG_RG_IDX)) = true →
     (onu s p (fld s (pgRNG p c) RNG_RG_IDX)).valid = true →
     (onu s p (fld s (pgRNG p c) RNG_RG_IDX)).ch = c.val →
     rgStateOk (onu s p (fld s (pgRNG p c) RNG_RG_IDX)) = false →
     Completes (i) s (fun t =>
       isSet t (pgRNG p c) RNG_REJECT = true ∧
       Answered s t o 8 (pgRNG p c + RNG_RG_CMD.off) ∧
       Only books s t)) ∧
  (∀ (s : State) (o : Origin) (p : Fin 32) (c : Fin 3) (i : Instr),
     i = .rgRead o p c ∨ i = .rgSetEqd o p c false ∨ i = .rgRerange o p c →
     addrReject s o (pgRNG p c + RNG_RG_CMD.off) = none →
     mayUse (Origin.slice o) (onuOwner s p (fld s (pgRNG p c) RNG_RG_IDX)) = true →
     (onu s p (fld s (pgRNG p c) RNG_RG_IDX)).valid = true →
     (onu s p (fld s (pgRNG p c) RNG_RG_IDX)).ch ≠ c.val →
     Completes (i) s (fun t =>
       isSet t (pgRNG p c) RNG_CH_ERR = true ∧
       fld t (pgRNG p c) RNG_EQD = 0 ∧
       fld t (pgRNG p c) RNG_RANGED_FRAME = 0 ∧
       Answered s t o 1 (pgRNG p c + RNG_RG_CMD.off) ∧
       Only books s t))

/-- BURST_RECEIVE takes the next granted burst of an ONU off the schedule and moves the predicted end. With RX_EN 0 nothing else changes; with no burst scheduled nothing changes at all. With the receiver on it counts the burst, and one whose delimiter is nowhere within the window is counted in DELIM_MISS, flagged, and discarded with the partials of its ONU. One found is counted in DELIM_FOUND, its position is captured (R50), its phase and peaking code stand in the lane and its write-back is due; with US_EN 1 and the ONU-ID of the grant it counts as a good burst of its ONU, and one with another ONU-ID sets ID_MISMATCH and is discarded. -/
def Obligations.BurstReception : Prop :=
  (∀ (s : State) (p : Fin 32) (c : Fin 3) (b : BurstIn),
     (lane s p c).sched.find? (fun g => g.kind.ofOnu) = none →
     Completes (.burstReceive p c b) s (fun t =>
       t = s)) ∧
  (∀ (s : State) (p : Fin 32) (c : Fin 3) (b : BurstIn) (g : Burst),
     (lane s p c).sched.find? (fun g => g.kind.ofOnu) = some g →
     active s (pgBRX p c) BRX_RX_EN = false →
     Completes (.burstReceive p c b) s (fun t =>
       lane t p c = { (lane s p c).leave g with lastEnd := some g.end_ } ∧
       TblOnly LaneSt.init (3 * p + c) s.pon.lane t.pon.lane ∧
       Only [.lane] s t)) ∧
  (∀ (s : State) (p : Fin 32) (c : Fin 3) (b : BurstIn) (g : Burst),
     (lane s p c).sched.find? (fun g => g.kind.ofOnu) = some g →
     active s (pgBRX p c) BRX_RX_EN = true →
     delimFound (fld s (pgBRX p c) BRX_DELIM_WIN) (profDelimThr g.words) b.found = none →
     Completes (.burstReceive p c b) s (fun t =>
       (lane t p c).sched = (lane s p c).sched.erase g ∧
       (lane t p c).back = (lane s p c).back ∧
       (chSt t p c).granted = true ∧
       flagSet t (pgBRX p c) BRX_F_DELIM_MISS = true ∧
       cntAt t (cntAddr (pgBRX p c) BRX_C_BURSTS) = min cntMax (cntAt s (cntAddr (pgBRX p c) BRX_C_BURSTS) + 1) ∧
       cntAt t (cntAddr (pgBRX p c) BRX_C_DELIM_MISS) = min cntMax (cntAt s (cntAddr (pgBRX p c) BRX_C_DELIM_MISS) + 1) ∧
       onuCnt t p g.onu ONU_C_DELIM_MISS = min cntMax (onuCnt s p g.onu ONU_C_DELIM_MISS + 1) ∧
       Only (.lane :: .ch :: .onu :: .pm :: .rng :: .survey :: .onuCnt :: .reasm :: .phase :: alerts) s t)) ∧
  (∀ (s : State) (p : Fin 32) (c : Fin 3) (b : BurstIn) (g : Burst) (q : Int),
     (lane s p c).sched.find? (fun g => g.kind.ofOnu) = some g →
     active s (pgBRX p c) BRX_RX_EN = true →
     delimFound (fld s (pgBRX p c) BRX_DELIM_WIN) (profDelimThr g.words) b.found = some q →
     Completes (.burstReceive p c b) s (fun t =>
       (lane t p c).sched = (lane s p c).sched.erase g ∧
       (lane t p c).back.map (·.b) = (lane s p c).back.map (·.b) ++ [g] ∧
       tget (fun _ => (0, 0)) t.grid.bcap (3 * p + c) = capture (posOfFine (heardAt g q)) ∧
       (lane t p c).phase = b.phaseEnd % 256 ∧
       (lane t p c).peak = b.peakEnd % 32 ∧
       cntAt t (cntAddr (pgBRX p c) BRX_C_DELIM_FOUND) = min cntMax (cntAt s (cntAddr (pgBRX p c) BRX_C_DELIM_FOUND) + 1) ∧
       TblOnly LaneSt.init (3 * p + c) s.pon.lane t.pon.lane)) ∧
  (∀ (s : State) (p : Fin 32) (c : Fin 3) (b : BurstIn) (g : Burst) (q : Int),
     (lane s p c).sched.find? (fun g => g.kind.ofOnu) = some g →
     active s (pgBRX p c) BRX_RX_EN = true →
     active s (pgCH p c) CH_US_EN = true →
     delimFound (fld s (pgBRX p c) BRX_DELIM_WIN) (profDelimThr g.words) b.found = some q →
     c.val = 0 ∨ b.hdr ≠ .uncorrectable →
     b.onuId = g.onuId →
     Completes (.burstReceive p c b) s (fun t =>
       (chSt t p c).gotBurst = true ∧
       (chSt t p c).granted = true ∧
       onuCnt t p g.onu ONU_C_BURSTS_OK = min cntMax (onuCnt s p g.onu ONU_C_BURSTS_OK + 1))) ∧
  (∀ (s : State) (p : Fin 32) (c : Fin 3) (b : BurstIn) (g : Burst) (q : Int),
     (lane s p c).sched.find? (fun g => g.kind.ofOnu) = some g →
     active s (pgBRX p c) BRX_RX_EN = true →
     active s (pgCH p c) CH_US_EN = true →
     delimFound (fld s (pgBRX p c) BRX_DELIM_WIN) (profDelimThr g.words) b.found = some q →
     c.val = 0 ∨ b.hdr ≠ .uncorrectable →
     b.onuId ≠ g.onuId →
     Completes (.burstReceive p c b) s (fun t =>
       flagSet t (pgCH p c) CH_F_ID_MISMATCH = true ∧
       onuCnt t p g.onu ONU_C_ID_MISMATCH = min cntMax (onuCnt s p g.onu ONU_C_ID_MISMATCH + 1) ∧
       onuCnt t p g.onu ONU_C_BURSTS_OK = onuCnt s p g.onu ONU_C_BURSTS_OK ∧
       (chSt t p c).gotBurst = (chSt s p c).gotBurst))

/-- Before T_OUT, MAP_INPUT_DEADLINE of a channel that builds no map yet for the next frame starts it: with ALC_EN 1 one that is not sealed; with ALC_EN 0 an empty one, shown with no structures and the whole frame idle; where the step frame ends before T_IN it is a late action. MAP_SEALED ends the pass of the next frame's map within BUILD_GT - 32 - CLOSE_GT: it is sealed as it is, shown, counted in MAPS_BUILT, and LAST_BUILD_GT shows the build time; a pass that runs longer is closed there with the bursts that it has by then. MAP_OUTPUT hands a sealed map of the next frame over while its emission can be posted in time: it leaves the engine, its bursts join the schedule and it is the channel's last map; a map that is not sealed, or whose frame ends before T_OUT, is discarded, and MISSED_DEADLINE is set and counted. -/
def Obligations.MapPass : Prop :=
  (∀ (s : State) (p : Fin 32) (c : Fin 3),
     (now s).tick < tOut →
     (∀ m ∈ (allocCh s p c).map, m.frame < frame s + 1) →
     tickInFrame s (gtPerFrame - fld s (pgALC p c) ALC_BUILD_GT) = true →
     active s (pgALC p c) ALC_ALC_EN = true →
     Completes (.mapInputDeadline p c) s (fun t =>
       (allocCh t p c).map.map (fun m => (m.frame, m.sealed_)) = some (frame s + 1, false) ∧
       cntAt t (cntAddr (pgALC p c) ALC_C_MAPS_BUILT) = cntAt s (cntAddr (pgALC p c) ALC_C_MAPS_BUILT) ∧
       frame t = frame s)) ∧
  (∀ (s : State) (p : Fin 32) (c : Fin 3),
     (now s).tick < tOut →
     (∀ m ∈ (allocCh s p c).map, m.frame < frame s + 1) →
     tickInFrame s (gtPerFrame - fld s (pgALC p c) ALC_BUILD_GT) = true →
     active s (pgALC p c) ALC_ALC_EN = false →
     Completes (.mapInputDeadline p c) s (fun t =>
       (allocCh t p c).map = some ⟨frame s + 1, [], 0, unitsFrame c, 0, true⟩ ∧
       fld t (pgALC p c) ALC_LAST_STRUCTS = 0 ∧
       fld t (pgALC p c) ALC_LAST_IDLE_UNITS = unitsFrame c ∧
       frame t = frame s ∧
       TblOnly AllocCh.init (3 * p + c) s.pon.alloc t.pon.alloc ∧
       (allocCluster s (3 * p + c) = none → Only [.alloc, .ad, .grid, .regs, .hosts] s t))) ∧
  (∀ (s : State) (p : Fin 32) (c : Fin 3),
     (now s).tick < tOut →
     (∀ m ∈ (allocCh s p c).map, m.frame < frame s + 1) →
     tickInFrame s (gtPerFrame - fld s (pgALC p c) ALC_BUILD_GT) = false →
     Completes (.mapInputDeadline p c) s (fun t =>
       flagSet t pgGRD GRD_F_LATE_ACTION = true ∧
       allocCh t p c = allocCh s p c ∧
       Only alerts s t)) ∧
  (∀ (s : State) (p : Fin 32) (c : Fin 3) (n : Nat) (m : BwMap),
     (allocCh s p c).map = some m →
     m.sealed_ = false →
     m.frame = frame s + 1 →
     n ≤ fld s (pgALC p c) ALC_BUILD_GT - 32 - fld s (pgALC p c) ALC_CLOSE_GT →
     Completes (.mapSealed p c n) s (fun t =>
       (allocCh t p c).map = some { m with sealed_ := true } ∧
       fld t (pgALC p c) ALC_LAST_BUILD_GT = n ∧
       fld t (pgALC p c) ALC_LAST_STRUCTS = m.structs % 2 ^ ALC_LAST_STRUCTS.width ∧
       fld t (pgALC p c) ALC_LAST_IDLE_UNITS = m.idle % 2 ^ ALC_LAST_IDLE_UNITS.width ∧
       cntAt t (cntAddr (pgALC p c) ALC_C_MAPS_BUILT) = min cntMax (cntAt s (cntAddr (pgALC p c) ALC_C_MAPS_BUILT) + 1) ∧
       frame t = frame s ∧
       TblOnly AllocCh.init (3 * p + c) s.pon.alloc t.pon.alloc ∧
       RegsOnly [pgPMC] [pgALC p c + ALC_LAST_BUILD_GT.off, pgALC p c + ALC_LAST_STRUCTS.off] s t ∧
       Only [.alloc, .grid, .regs, .cnt, .pmc] s t)) ∧
  (∀ (s : State) (p : Fin 32) (c : Fin 3) (n : Nat) (m : BwMap),
     (allocCh s p c).map = some m →
     m.sealed_ = false →
     m.frame = frame s + 1 →
     fld s (pgALC p c) ALC_BUILD_GT - 32 - fld s (pgALC p c) ALC_CLOSE_GT < n →
     Completes (.mapSealed p c n) s (fun t =>
       (∃ k ≤ m.bursts.length, (allocCh t p c).map.map (fun x => (x.frame, x.bursts, x.sealed_)) = some (m.frame, m.bursts.take k, true)) ∧
       fld t (pgALC p c) ALC_LAST_BUILD_GT = fld s (pgALC p c) ALC_BUILD_GT - 32 - fld s (pgALC p c) ALC_CLOSE_GT ∧
       cntAt t (cntAddr (pgALC p c) ALC_C_MAPS_BUILT) = min cntMax (cntAt s (cntAddr (pgALC p c) ALC_C_MAPS_BUILT) + 1) ∧
       frame t = frame s ∧
       TblOnly AllocCh.init (3 * p + c) s.pon.alloc t.pon.alloc ∧
       RegsOnly [pgPMC] [pgALC p c + ALC_LAST_BUILD_GT.off, pgALC p c + ALC_LAST_STRUCTS.off] s t ∧
       Only [.alloc, .freeCtr, .grid, .regs, .cnt, .pmc] s t)) ∧
  (∀ (s : State) (p : Fin 32) (c : Fin 3) (m : BwMap),
     (allocCh s p c).map = some m →
     m.frame = frame s + 1 →
     m.sealed_ = true →
     tickInFrame s tOut = true →
     (now (reachTick s tOut)).fineIndex + 16 * finePerGt ≤ (mapAction p c (frame s + 1)).pos.fineIndex →
     Completes (.mapOutput p c) s (fun t =>
       (allocCh t p c).map = none ∧
       (chSt t p c).lastMap = some (frame s + 1) ∧
       (chSt t p c).mapStructs = m.structs ∧
       mapAction p c (frame s + 1) ∈ t.grid.posted ∧
       frame t = frame s ∧
       (lane t p c).sched.length = (lane s p c).sched.length + m.bursts.length)) ∧
  (∀ (s : State) (p : Fin 32) (c : Fin 3) (m : BwMap),
     (allocCh s p c).map = some m →
     m.frame = frame s + 1 →
     m.sealed_ = true →
     tickInFrame s tOut = false →
     Completes (.mapOutput p c) s (fun t =>
       (allocCh t p c).map = none ∧
       flagSet t (pgALC p c) ALC_F_MISSED_DEADLINE = true ∧
       flagSet t pgGRD GRD_F_LATE_ACTION = true ∧
       (lane t p c).sched = (lane s p c).sched ∧
       TblOnly AllocCh.init (3 * p + c) s.pon.alloc t.pon.alloc ∧
       Only (.alloc :: .grid :: alerts) s t)) ∧
  (∀ (s : State) (p : Fin 32) (c : Fin 3) (m : BwMap),
     (allocCh s p c).map = some m →
     m.frame = frame s + 1 →
     m.sealed_ = false →
     Completes (.mapOutput p c) s (fun t =>
       (allocCh t p c).map = none ∧
       flagSet t (pgALC p c) ALC_F_MISSED_DEADLINE = true ∧
       cntAt t (cntAddr (pgALC p c) ALC_C_MISSED_DEADLINE) = min cntMax (cntAt s (cntAddr (pgALC p c) ALC_C_MISSED_DEADLINE) + 1) ∧
       TblOnly AllocCh.init (3 * p + c) s.pon.alloc t.pon.alloc ∧
       Only [.alloc, .grid, .regs, .cnt, .pmc] s t))

/-- For a descriptor that AD_IDX selects, on the channel, that the slice may use: AD_READ shows its nine words; AD_WRITE of a descriptor that R120 does not reject and that keeps the guaranteed limit of R121 stores what the window spells, with no report left of an Alloc-ID that becomes valid anew (R125), and one that R120 rejects stores nothing, shows REJECT and is recorded with code 1; AD_CLEAR_GRANTED clears its granted bytes alone. For a record of the channel that OB_IDX selects: OB_READ shows its burst settings, OB_WRITE stores them (for a valid record only with a VALID profile that is not WARM as the cold one; otherwise code 1 and nothing stored). No other descriptor or record changes. -/
def Obligations.DescriptorsAndBurstSettings : Prop :=
  (∀ (s : State) (o : Origin) (p : Fin 32) (c : Fin 3) (d : AdRec),
     addrReject s o (pgALC p c + ALC_AD_CMD.off) = none →
     d = ad s p (fld s (pgALC p c) ALC_AD_IDX) →
     adReadable s p (Origin.slice o) d = true →
     adElsewhere s p c d = false →
     Completes (.adRead o p c) s (fun t =>
       wordsAt t (pgALC p c + ALC_ALLOC_ID.off) 9 = d.words ∧
       Answered s t o 0 (pgALC p c + ALC_AD_CMD.off) ∧
       Only books s t)) ∧
  (∀ (s : State) (o : Origin) (p : Fin 32) (c : Fin 3) (d n : AdRec),
     addrReject s o (pgALC p c + ALC_AD_CMD.off) = none →
     d = ad s p (fld s (pgALC p c) ALC_AD_IDX) →
     n = adOfWindow s p c d →
     (!d.valid || mayUse (Origin.slice o) (onuOwner s p d.onu)) = true →
     mayUse (Origin.slice o) (onuOwner s p n.onu) = true →
     adElsewhere s p c d = false →
     adElsewhere s p c n = false →
     (n.valid = true → adRejected s p c (fld s (pgALC p c) ALC_AD_IDX) n = false) →
     (n.valid = true → guarBad s p c (guarSum s p c (adsWith s p c (fld s (pgALC p c) ALC_AD_IDX) n) (busiestFrame s p c 16 (·.size) none)) = false) →
     Completes (.adWrite o p c) s (fun t =>
       ad t p (fld s (pgALC p c) ALC_AD_IDX) = n ∧
       allocCh t p c = (if n.valid && newAlloc d n then { allocCh s p c with reports := (allocCh s p c).reports.filter (·.allocId != n.allocId) } else allocCh s p c) ∧
       TblOnly AdRec.init (2048 * p + (fld s (pgALC p c) ALC_AD_IDX)) s.pon.ad t.pon.ad ∧
       TblOnly AllocCh.init (3 * p + c) s.pon.alloc t.pon.alloc ∧
       Answered s t o 0 (pgALC p c + ALC_AD_CMD.off) ∧
       RegsOnly bookPages [pgALC p c + ALC_REJECT.off] s t ∧
       Only (.ad :: .alloc :: books) s t)) ∧
  (∀ (s : State) (o : Origin) (p : Fin 32) (c : Fin 3) (d n : AdRec),
     addrReject s o (pgALC p c + ALC_AD_CMD.off) = none →
     d = ad s p (fld s (pgALC p c) ALC_AD_IDX) →
     n = adOfWindow s p c d →
     (!d.valid || mayUse (Origin.slice o) (onuOwner s p d.onu)) = true →
     mayUse (Origin.slice o) (onuOwner s p n.onu) = true →
     adElsewhere s p c d = false →
     adElsewhere s p c n = false →
     n.valid = true →
     adRejected s p c (fld s (pgALC p c) ALC_AD_IDX) n = true →
     Completes (.adWrite o p c) s (fun t =>
       isSet t (pgALC p c) ALC_REJECT = true ∧
       Answered s t o 1 (pgALC p c + ALC_AD_CMD.off) ∧
       RegsOnly bookPages [pgALC p c + ALC_REJECT.off] s t ∧
       Only books s t)) ∧
  (∀ (s : State) (o : Origin) (p : Fin 32) (c : Fin 3) (d : AdRec),
     addrReject s o (pgALC p c + ALC_AD_CMD.off) = none →
     d = ad s p (fld s (pgALC p c) ALC_AD_IDX) →
     mayUse (Origin.slice o) (if d.valid then onuOwner s p d.onu else portOwner s p) = true →
     adElsewhere s p c d = false →
     Completes (.adClearGranted o p c) s (fun t =>
       ad t p (fld s (pgALC p c) ALC_AD_IDX) = { d with granted := 0 } ∧
       TblOnly AdRec.init (2048 * p + (fld s (pgALC p c) ALC_AD_IDX)) s.pon.ad t.pon.ad ∧
       Answered s t o 0 (pgALC p c + ALC_AD_CMD.off) ∧
       Only (.ad :: books) s t)) ∧
  (∀ (s : State) (o : Origin) (p : Fin 32) (c : Fin 3),
     addrReject s o (pgALC p c + ALC_OB_CMD.off) = none →
     mayUse (Origin.slice o) (onuOwner s p (fld s (pgALC p c) ALC_OB_IDX)) = true →
     (onu s p (fld s (pgALC p c) ALC_OB_IDX)).valid = false ∨ (onu s p (fld s (pgALC p c) ALC_OB_IDX)).ch = c.val →
     Completes (.obRead o p c) s (fun t =>
       fld t (pgALC p c) ALC_COLD_PROF = (ob s p (fld s (pgALC p c) ALC_OB_IDX)).cold % 4 ∧
       fld t (pgALC p c) ALC_WARM_PROF = (ob s p (fld s (pgALC p c) ALC_OB_IDX)).warm % 4 ∧
       isSet t (pgALC p c) ALC_WARM_EN = (ob s p (fld s (pgALC p c) ALC_OB_IDX)).warmEn ∧
       fld t (pgALC p c) ALC_US_KIND = (ob s p (fld s (pgALC p c) ALC_OB_IDX)).usKind % 2 ∧
       Answered s t o 0 (pgALC p c + ALC_OB_CMD.off) ∧
       RegsOnly bookPages [pgALC p c + ALC_STAT.off, pgALC p c + ALC_COLD_PROF.off] s t ∧
       Only books s t)) ∧
  (∀ (s : State) (o : Origin) (p : Fin 32) (c : Fin 3),
     addrReject s o (pgALC p c + ALC_OB_CMD.off) = none →
     mayUse (Origin.slice o) (onuOwner s p (fld s (pgALC p c) ALC_OB_IDX)) = true →
     (onu s p (fld s (pgALC p c) ALC_OB_IDX)).valid = false ∨ (onu s p (fld s (pgALC p c) ALC_OB_IDX)).ch = c.val →
     ((onu s p (fld s (pgALC p c) ALC_OB_IDX)).valid = true → profValid (profWords s p c (fld s (pgALC p c) ALC_COLD_PROF)) = true ∧ profWarm (profWords s p c (fld s (pgALC p c) ALC_COLD_PROF)) = false) →
     Completes (.obWrite o p c) s (fun t =>
       ob t p (fld s (pgALC p c) ALC_OB_IDX) = ⟨fld s (pgALC p c) ALC_COLD_PROF, fld s (pgALC p c) ALC_WARM_PROF, isSet s (pgALC p c) ALC_WARM_EN, if c.val = 1 then fld s (pgALC p c) ALC_US_KIND else 0⟩ ∧
       TblOnly ObRec.init (512 * p + (fld s (pgALC p c) ALC_OB_IDX)) s.pon.ob t.pon.ob ∧
       TblOnly PhaseEntry.init (512 * (3 * p + c) + (fld s (pgALC p c) ALC_OB_IDX)) s.pon.phase t.pon.phase ∧
       Answered s t o 0 (pgALC p c + ALC_OB_CMD.off) ∧
       Only (.ob :: .phase :: books) s t)) ∧
  (∀ (s : State) (o : Origin) (p : Fin 32) (c : Fin 3),
     addrReject s o (pgALC p c + ALC_OB_CMD.off) = none →
     mayUse (Origin.slice o) (onuOwner s p (fld s (pgALC p c) ALC_OB_IDX)) = true →
     (onu s p (fld s (pgALC p c) ALC_OB_IDX)).valid = false ∨ (onu s p (fld s (pgALC p c) ALC_OB_IDX)).ch = c.val →
     (onu s p (fld s (pgALC p c) ALC_OB_IDX)).valid = true →
     profValid (profWords s p c (fld s (pgALC p c) ALC_COLD_PROF)) = false ∨ profWarm (profWords s p c (fld s (pgALC p c) ALC_COLD_PROF)) = true →
     Completes (.obWrite o p c) s (fun t =>
       Answered s t o 1 (pgALC p c + ALC_OB_CMD.off) ∧
       Only books s t))

/-- A TPL_LOAD that no cause of R133 rejects makes the schedule that the window spells the pending one of the selected slot, to begin at START or, when START comes too soon, at the next congruent frame, and counts it; one that R133 rejects leaves the schedules, shows the first cause and is recorded with code 1. TPL_STOP ends the schedule from frame w + 2, or where an earlier stop ends it already, and drops a load that would begin later. TPL_BEGIN at its frame makes the pending schedule the active one, and ends a stopped one. ENT_READ shows the selected entry; ENT_WRITE stores it, and one that lies in the range of an active or pending schedule stores nothing, sets ENT_BUSY and is recorded with code 8. -/
def Obligations.Templates : Prop :=
  (∀ (s : State) (o : Origin) (p : Fin 32) (x : Nat) (g : TplCfg),
     addrReject s o (pgTPL p + TPL_TPL_CMD.off) = none →
     x = fld s (pgTPL p) TPL_START_LO + fld s (pgTPL p) TPL_START_HI * 2 ^ 32 →
     g = ⟨fld s (pgTPL p) TPL_CH, max 1 (fld s (pgTPL p) TPL_CYCLE), fld s (pgTPL p) TPL_FIRST, fld s (pgTPL p) TPL_COUNT, x, beginFrame (frame s) x (max 1 (fld s (pgTPL p) TPL_CYCLE))⟩ →
     loadCause s p (fld s (pgTPL p) TPL_TPL_SEL) (Origin.slice o) g = 0 →
     Completes (.tplLoad o p) s (fun t =>
       tpl t p (fld s (pgTPL p) TPL_TPL_SEL) = { tpl s p (fld s (pgTPL p) TPL_TPL_SEL) with pending := some g, rej := 0, beginFrame := g.begin_ } ∧
       fld t (pgTPL p) TPL_STATE = 1 ∧
       fld t (pgTPL p) TPL_REJ_CAUSE = 0 ∧
       cntAt t (cntAddr (pgTPL p) TPL_C_TPL_LOADS) = min cntMax (cntAt s (cntAddr (pgTPL p) TPL_C_TPL_LOADS) + 1) ∧
       TblOnly Tpl.init (16 * p + (fld s (pgTPL p) TPL_TPL_SEL)) s.pon.tpl t.pon.tpl ∧
       Answered s t o 0 (pgTPL p + TPL_TPL_CMD.off) ∧
       Only (.tpl :: .fifo :: books) s t)) ∧
  (∀ (s : State) (o : Origin) (p : Fin 32) (x : Nat) (g : TplCfg),
     addrReject s o (pgTPL p + TPL_TPL_CMD.off) = none →
     x = fld s (pgTPL p) TPL_START_LO + fld s (pgTPL p) TPL_START_HI * 2 ^ 32 →
     g = ⟨fld s (pgTPL p) TPL_CH, max 1 (fld s (pgTPL p) TPL_CYCLE), fld s (pgTPL p) TPL_FIRST, fld s (pgTPL p) TPL_COUNT, x, beginFrame (frame s) x (max 1 (fld s (pgTPL p) TPL_CYCLE))⟩ →
     loadCause s p (fld s (pgTPL p) TPL_TPL_SEL) (Origin.slice o) g ≠ 0 →
     Completes (.tplLoad o p) s (fun t =>
       tpl t p (fld s (pgTPL p) TPL_TPL_SEL) = { tpl s p (fld s (pgTPL p) TPL_TPL_SEL) with rej := loadCause s p (fld s (pgTPL p) TPL_TPL_SEL) (Origin.slice o) g } ∧
       flagSet t (pgTPL p) TPL_F_TPL_REJ = true ∧
       cntAt t (cntAddr (pgTPL p) TPL_C_TPL_REJ) = min cntMax (cntAt s (cntAddr (pgTPL p) TPL_C_TPL_REJ) + 1) ∧
       TblOnly Tpl.init (16 * p + (fld s (pgTPL p) TPL_TPL_SEL)) s.pon.tpl t.pon.tpl ∧
       Answered s t o 1 (pgTPL p + TPL_TPL_CMD.off) ∧
       Only (.tpl :: books) s t)) ∧
  (∀ (s : State) (o : Origin) (p : Fin 32),
     addrReject s o (pgTPL p + TPL_TPL_CMD.off) = none →
     Completes (.tplStop o p) s (fun t =>
       tpl t p (fld s (pgTPL p) TPL_TPL_SEL) = { tpl s p (fld s (pgTPL p) TPL_TPL_SEL) with stopAt := some ((tpl s p (fld s (pgTPL p) TPL_TPL_SEL)).stopFrom (frame s)), pending := (tpl s p (fld s (pgTPL p) TPL_TPL_SEL)).pending.filter (fun g => g.begin_ < frame s + 2) } ∧
       TblOnly Tpl.init (16 * p + (fld s (pgTPL p) TPL_TPL_SEL)) s.pon.tpl t.pon.tpl ∧
       Answered s t o 0 (pgTPL p + TPL_TPL_CMD.off) ∧
       RegsOnly bookPages [pgTPL p + TPL_STATE.off, pgTPL p + TPL_BEGIN_FRAME.off, pgTPL p + TPL_BEGIN_FRAME.off + 4] s t ∧
       Only (.tpl :: books) s t)) ∧
  (∀ (s : State) (p : Fin 32) (k : Fin 16) (g : TplCfg),
     (tpl s p k).pending = some g →
     g.begin_ ≤ frame s →
     (tpl s p k).stopAt = none →
     Completes (.tplBegin p k) s (fun t =>
       tpl t p k = { tpl s p k with active := some g, pending := none } ∧
       TblOnly Tpl.init (16 * p + k) s.pon.tpl t.pon.tpl ∧
       Only [.tpl, .regs] s t)) ∧
  (∀ (s : State) (p : Fin 32) (k : Fin 16) (x : Nat),
     (tpl s p k).pending = none →
     (tpl s p k).stopAt = some x →
     x ≤ frame s →
     Completes (.tplBegin p k) s (fun t =>
       tpl t p k = { tpl s p k with active := none, stopAt := none } ∧
       TblOnly Tpl.init (16 * p + k) s.pon.tpl t.pon.tpl ∧
       Only [.tpl, .regs] s t)) ∧
  (∀ (s : State) (o : Origin) (p : Fin 32),
     addrReject s o (pgTPL p + TPL_ENT_CMD.off) = none →
     Completes (.entRead o p) s (fun t =>
       fld t (pgTPL p) TPL_FRAME_OFS = (tplEntry s p (fld s (pgTPL p) TPL_ENT_IDX)).ofs % 2 ^ TPL_FRAME_OFS.width ∧
       fld t (pgTPL p) TPL_AD_IDX = (tplEntry s p (fld s (pgTPL p) TPL_ENT_IDX)).ad % 2 ^ TPL_AD_IDX.width ∧
       fld t (pgTPL p) TPL_START = (tplEntry s p (fld s (pgTPL p) TPL_ENT_IDX)).start % 2 ^ TPL_START.width ∧
       fld t (pgTPL p) TPL_SIZE = (tplEntry s p (fld s (pgTPL p) TPL_ENT_IDX)).size % 2 ^ TPL_SIZE.width ∧
       Answered s t o 0 (pgTPL p + TPL_ENT_CMD.off) ∧
       RegsOnly bookPages [pgTPL p + TPL_FRAME_OFS.off, pgTPL p + TPL_START.off] s t ∧
       Only books s t)) ∧
  (∀ (s : State) (o : Origin) (p : Fin 32),
     addrReject s o (pgTPL p + TPL_ENT_CMD.off) = none →
     entryBusy s p (fld s (pgTPL p) TPL_ENT_IDX) = false →
     Completes (.entWrite o p) s (fun t =>
       tplEntry t p (fld s (pgTPL p) TPL_ENT_IDX) = ⟨fld s (pgTPL p) TPL_FRAME_OFS, fld s (pgTPL p) TPL_AD_IDX, fld s (pgTPL p) TPL_START, fld s (pgTPL p) TPL_SIZE⟩ ∧
       TblOnly TplEntry.init (1024 * p + (fld s (pgTPL p) TPL_ENT_IDX)) s.pon.ent t.pon.ent ∧
       Answered s t o 0 (pgTPL p + TPL_ENT_CMD.off) ∧
       RegsOnly bookPages [] s t ∧
       Only (.ent :: books) s t)) ∧
  (∀ (s : State) (o : Origin) (p : Fin 32),
     addrReject s o (pgTPL p + TPL_ENT_CMD.off) = none →
     entryBusy s p (fld s (pgTPL p) TPL_ENT_IDX) = true →
     Completes (.entWrite o p) s (fun t =>
       flagSet t (pgTPL p) TPL_F_ENT_BUSY = true ∧
       Answered s t o 8 (pgTPL p + TPL_ENT_CMD.off) ∧
       Only books s t))

/-- For a group that the slice may use: GRP_READ shows its words and its counters; GRP_WRITE with VALID 1 of a group that was not valid and that R137 does not reject takes the window and starts DOWN with nothing held, of a valid group with the same records, ports and queues takes the new weights for the next frame boundary, and with another of those fields changes nothing, sets GRP_REJ and is recorded with code 8; GRP_WRITE with VALID 0 of a valid group marks it to be freed at the next frame boundary (R146); GRP_COUNTER_CLEAR clears the counters of the group and no other. -/
def Obligations.GroupWindow : Prop :=
  (∀ (s : State) (o : Origin) (p : Fin 32),
     addrReject s o (pgBND p + BND_GRP_CMD.off) = none →
     (if (grp s p (fld s (pgBND p) BND_GRP_IDX)).valid then mayUse (Origin.slice o) (grpOwner s p (grp s p (fld s (pgBND p) BND_GRP_IDX))) else Origin.slice o == portOwner s p) = true →
     Completes (.grpRead o p) s (fun t =>
       wordsAt t (pgBND p + 0x8C) 7 = (grp s p (fld s (pgBND p) BND_GRP_IDX)).words ∧
       wordsAt t (pgBND p + 0x100) 32 = (grp s p (fld s (pgBND p) BND_GRP_IDX)).cntWords ∧
       Answered s t o 0 (pgBND p + BND_GRP_CMD.off) ∧
       Only books s t)) ∧
  (∀ (s : State) (o : Origin) (p : Fin 32) (n : Grp),
     addrReject s o (pgBND p + BND_GRP_CMD.off) = none →
     n = grpOfWindow s p (grp s p (fld s (pgBND p) BND_GRP_IDX)) →
     (grp s p (fld s (pgBND p) BND_GRP_IDX)).valid = false →
     n.valid = true →
     mayUse (Origin.slice o) (onuOwner s p n.onuX) = true →
     mayUse (Origin.slice o) (onuOwner s p n.onuH) = true →
     (grp s p (fld s (pgBND p) BND_GRP_IDX)).freeing = none →
     grpRejected s p (fld s (pgBND p) BND_GRP_IDX) n = false →
     Completes (.grpWrite o p) s (fun t =>
       grp t p (fld s (pgBND p) BND_GRP_IDX) = { n with state := gDown, dsSeq := 0, next := 0, maxSkew := 0, sX := 0, sH := 0, upX := 0, upH := 0, held := [], join := none, bad := false } ∧
       TblOnly Grp.init (64 * p + (fld s (pgBND p) BND_GRP_IDX)) s.pon.grp t.pon.grp ∧
       Answered s t o 0 (pgBND p + BND_GRP_CMD.off) ∧
       RegsOnly bookPages [pgBND p + BND_REJECT.off] s t ∧
       Only (.grp :: books) s t)) ∧
  (∀ (s : State) (o : Origin) (p : Fin 32) (n : Grp),
     addrReject s o (pgBND p + BND_GRP_CMD.off) = none →
     n = grpOfWindow s p (grp s p (fld s (pgBND p) BND_GRP_IDX)) →
     (grp s p (fld s (pgBND p) BND_GRP_IDX)).valid = true →
     n.valid = true →
     mayUse (Origin.slice o) (grpOwner s p (grp s p (fld s (pgBND p) BND_GRP_IDX))) = true →
     mayUse (Origin.slice o) (onuOwner s p n.onuX) = true →
     mayUse (Origin.slice o) (onuOwner s p n.onuH) = true →
     (grp s p (fld s (pgBND p) BND_GRP_IDX)).freeing = none →
     grpFixedChanged (grp s p (fld s (pgBND p) BND_GRP_IDX)) n = false →
     grpRejected s p (fld s (pgBND p) BND_GRP_IDX) n = false →
     Completes (.grpWrite o p) s (fun t =>
       grp t p (fld s (pgBND p) BND_GRP_IDX) = { grp s p (fld s (pgBND p) BND_GRP_IDX) with newW := some (n.wX, n.wH, n.fragMax) } ∧
       TblOnly Grp.init (64 * p + (fld s (pgBND p) BND_GRP_IDX)) s.pon.grp t.pon.grp ∧
       Answered s t o 0 (pgBND p + BND_GRP_CMD.off) ∧
       Only (.grp :: books) s t)) ∧
  (∀ (s : State) (o : Origin) (p : Fin 32) (n : Grp),
     addrReject s o (pgBND p + BND_GRP_CMD.off) = none →
     n = grpOfWindow s p (grp s p (fld s (pgBND p) BND_GRP_IDX)) →
     (grp s p (fld s (pgBND p) BND_GRP_IDX)).valid = true →
     n.valid = true →
     mayUse (Origin.slice o) (grpOwner s p (grp s p (fld s (pgBND p) BND_GRP_IDX))) = true →
     mayUse (Origin.slice o) (onuOwner s p n.onuX) = true →
     mayUse (Origin.slice o) (onuOwner s p n.onuH) = true →
     (grp s p (fld s (pgBND p) BND_GRP_IDX)).freeing = none →
     grpFixedChanged (grp s p (fld s (pgBND p) BND_GRP_IDX)) n = true →
     Completes (.grpWrite o p) s (fun t =>
       flagSet t (pgBND p) BND_F_GRP_REJ = true ∧
       isSet t (pgBND p) BND_REJECT = true ∧
       Answered s t o 8 (pgBND p + BND_GRP_CMD.off) ∧
       Only books s t)) ∧
  (∀ (s : State) (o : Origin) (p : Fin 32) (n : Grp),
     addrReject s o (pgBND p + BND_GRP_CMD.off) = none →
     n = grpOfWindow s p (grp s p (fld s (pgBND p) BND_GRP_IDX)) →
     (grp s p (fld s (pgBND p) BND_GRP_IDX)).valid = true →
     n.valid = false →
     mayUse (Origin.slice o) (grpOwner s p (grp s p (fld s (pgBND p) BND_GRP_IDX))) = true →
     mayUse (Origin.slice o) (onuOwner s p n.onuX) = true →
     mayUse (Origin.slice o) (onuOwner s p n.onuH) = true →
     Completes (.grpWrite o p) s (fun t =>
       grp t p (fld s (pgBND p) BND_GRP_IDX) = { grp s p (fld s (pgBND p) BND_GRP_IDX) with freeing := some [n.onuX, n.onuH, n.xgemX, n.xgemH, n.wX, n.wH, n.fragMax, n.dsQ, n.usQ] } ∧
       TblOnly Grp.init (64 * p + (fld s (pgBND p) BND_GRP_IDX)) s.pon.grp t.pon.grp ∧
       Answered s t o 0 (pgBND p + BND_GRP_CMD.off) ∧
       Only (.grp :: books) s t)) ∧
  (∀ (s : State) (o : Origin) (p : Fin 32),
     addrReject s o (pgBND p + BND_GRP_CMD.off) = none →
     mayUse (Origin.slice o) (if (grp s p (fld s (pgBND p) BND_GRP_IDX)).valid then grpOwner s p (grp s p (fld s (pgBND p) BND_GRP_IDX)) else portOwner s p) = true →
     Completes (.grpCounterClear o p) s (fun t =>
       grp t p (fld s (pgBND p) BND_GRP_IDX) = { grp s p (fld s (pgBND p) BND_GRP_IDX) with cnts := List.replicate 16 0 } ∧
       TblOnly Grp.init (64 * p + (fld s (pgBND p) BND_GRP_IDX)) s.pon.grp t.pon.grp ∧
       Answered s t o 0 (pgBND p + BND_GRP_CMD.off) ∧
       Only (.grp :: books) s t))

/-- BOND_FRAGMENT_ARRIVE takes a fragment that the channel handed over out of its queue, and without such a fragment changes nothing; while BND_EN is 0, or for a port that no valid group owns, it merges nothing. A fragment with a bad header is counted in HDR_ERR; one above NEXT by less than half the number space, not held yet, is held in a pool buffer while the hold has room and a buffer is to be had, and NEXT stands; a late or repeated one is counted in DUP_LATE. BOND_GAP_DEADLINE before its frame changes nothing. The transitions of a group take effect at a frame boundary alone, and off one the commands change nothing: MEMBER_FALLBACK of an UP group with a member down leaves it on the other member, with MEMBER_DOWN and FALLBACKS; GROUP_DOWN of a group whose survivor is down puts it DOWN; MEMBER_REJOIN of a member that is up and has been for REJOIN_FRAMES boundaries brings a single group UP with equal split counters. -/
def Obligations.BondedMergeAndMembers : Prop :=
  (∀ (s : State) (p : Fin 32) (c : Fin 3) (n : Nat) (h : FragHdr) (l f : Nat),
     handedOver s p c n h l f = none →
     Completes (.bondFragmentArrive p c n h l f) s (fun t =>
       t = s)) ∧
  (∀ (s : State) (p : Fin 32) (c : Fin 3) (n : Nat) (h : FragHdr) (l f : Nat) (b : BondIn),
     handedOver s p c n h l f = some b →
     active s (pgBND p) BND_BND_EN = false ∨ groupOfXgem s p c n = none →
     Completes (.bondFragmentArrive p c n h l f) s (fun t =>
       t.pon.bondIn = s.pon.bondIn.erase b ∧
       Only [.bondIn] s t)) ∧
  (∀ (s : State) (p : Fin 32) (c : Fin 3) (n : Nat) (h : FragHdr) (l f g : Nat) (b : BondIn),
     handedOver s p c n h l f = some b →
     active s (pgBND p) BND_BND_EN = true →
     groupOfXgem s p c n = some g →
     fragRejected g c h = true →
     Completes (.bondFragmentArrive p c n h l f) s (fun t =>
       (grp t p g).next = (grp s p g).next ∧
       (grp t p g).held = (grp s p g).held ∧
       flagSet t (pgBND p) BND_F_HDR_ERR = true ∧
       cntAt t (cntAddr (pgBND p) BND_C_HDR_ERR) = min cntMax (cntAt s (cntAddr (pgBND p) BND_C_HDR_ERR) + 1) ∧
       TblOnly Grp.init (64 * p + g) s.pon.grp t.pon.grp ∧
       Only [.grp, .bondIn, .regs, .cnt, .pmc] s t)) ∧
  (∀ (s : State) (p : Fin 32) (c : Fin 3) (n : Nat) (h : FragHdr) (l f g : Nat) (b : BondIn),
     handedOver s p c n h l f = some b →
     active s (pgBND p) BND_BND_EN = true →
     groupOfXgem s p c n = some g →
     fragRejected g c h = false →
     0 < seqAhead (grp s p g).next (h.seq % seqMod) →
     seqAhead (grp s p g).next (h.seq % seqMod) < 2 ^ 23 →
     (grp s p g).held.any (fun x => x.seq == h.seq % seqMod) = false →
     heldBytes (grp s p g) + (l - 8) < fld s (pgBND p) BND_HOLD_KIB * 1024 →
     (askBytes s 4 (tagBonding p) 1 (l - 8)).isSome = true →
     Completes (.bondFragmentArrive p c n h l f) s (fun t =>
       (grp t p g).held.map (·.seq) = (grp s p g).held.map (·.seq) ++ [h.seq % seqMod] ∧
       (grp t p g).next = (grp s p g).next ∧
       (grp t p g).join = (grp s p g).join ∧
       heldBytes (grp t p g) = heldBytes (grp s p g) + (l - 8) ∧
       t.pon.bondIn = s.pon.bondIn.erase b ∧
       TblOnly Grp.init (64 * p + g) s.pon.grp t.pon.grp ∧
       Only [.grp, .bondIn, .buf, .freeCtr, .regs, .cnt, .pmc] s t)) ∧
  (∀ (s : State) (p : Fin 32) (c : Fin 3) (n : Nat) (h : FragHdr) (l f g : Nat) (b : BondIn),
     handedOver s p c n h l f = some b →
     active s (pgBND p) BND_BND_EN = true →
     groupOfXgem s p c n = some g →
     fragRejected g c h = false →
     2 ^ 23 ≤ seqAhead (grp s p g).next (h.seq % seqMod) →
     Completes (.bondFragmentArrive p c n h l f) s (fun t =>
       (grp t p g).held = (grp s p g).held ∧
       (grp t p g).next = (grp s p g).next ∧
       flagSet t (pgBND p) BND_F_DUP_LATE = true ∧
       Only [.grp, .bondIn, .regs, .cnt, .pmc] s t)) ∧
  (∀ (s : State) (p : Fin 32) (g : Fin 64),
     (∀ d ∈ gapDeadline s p (grp s p g), frame s < d) →
     Completes (.bondGapDeadline p g) s (fun t =>
       t = s)) ∧
  (∀ (s : State) (p : Fin 32) (g : Fin 64) (f : HeldFrag) (d : Nat),
     (grp s p g).held = [f] →
     gapDeadline s p (grp s p g) = some d →
     d ≤ frame s →
     f.last = false →
     f.first = true →
     (grp s p g).join = none →
     Completes (.bondGapDeadline p g) s (fun t =>
       (grp t p g).held = [] ∧
       (grp t p g).next = (f.seq + 1) % seqMod ∧
       (grp t p g).join = some (f.bytes, f.len) ∧
       TblOnly Grp.init (64 * p + g) s.pon.grp t.pon.grp ∧
       Only [.grp, .onuCnt, .upSdu, .buf, .regs, .cnt, .pmc] s t)) ∧
  (∀ (s : State) (p : Fin 32) (g : Fin 64) (i : Instr),
     i = .memberFallback p g ∨ i = .groupDown p g ∨ i = .memberRejoin p g →
     atBoundary s = false →
     Completes (i) s (fun t =>
       t = s)) ∧
  (∀ (s : State) (p : Fin 32) (g : Fin 64),
     atBoundary s = true →
     (grp s p g).valid = true →
     (grp s p g).state = gUp →
     memberDown s p 1 (grp s p g).onuX = true ∨ memberDown s p 2 (grp s p g).onuH = true →
     Completes (.memberFallback p g) s (fun t =>
       (grp t p g).state = (if memberDown s p 1 (grp s p g).onuX then gSingleH else gSingleX) ∧
       (grp t p g).valid = true ∧
       flagSet t (pgBND p) BND_F_MEMBER_DOWN = true ∧
       cntAt t (cntAddr (pgBND p) BND_C_FALLBACKS) = min cntMax (cntAt s (cntAddr (pgBND p) BND_C_FALLBACKS) + 1) ∧
       TblOnly Grp.init (64 * p + g) s.pon.grp t.pon.grp ∧
       Only (.fifo :: [.grp, .onuCnt, .upSdu, .buf, .regs, .cnt, .pmc]) s t)) ∧
  (∀ (s : State) (p : Fin 32) (g : Fin 64),
     atBoundary s = true →
     (grp s p g).valid = true →
     ((grp s p g).state = gSingleX ∧ memberDown s p 1 (grp s p g).onuX = true) ∨ ((grp s p g).state = gSingleH ∧ memberDown s p 2 (grp s p g).onuH = true) →
     Completes (.groupDown p g) s (fun t =>
       grp t p g = { grp s p g with state := gDown, upX := 0, upH := 0 } ∧
       flagSet t (pgBND p) BND_F_GROUP_DOWN = true ∧
       TblOnly Grp.init (64 * p + g) s.pon.grp t.pon.grp ∧
       Only [.grp, .regs, .pmc] s t)) ∧
  (∀ (s : State) (p : Fin 32) (g : Fin 64),
     atBoundary s = true →
     (grp s p g).valid = true →
     ((grp s p g).state = gSingleX ∧ fld s (pgBND p) BND_REJOIN_FRAMES ≤ (grp s p g).upH ∧ memberDown s p 2 (grp s p g).onuH = false) ∨ ((grp s p g).state = gSingleH ∧ fld s (pgBND p) BND_REJOIN_FRAMES ≤ (grp s p g).upX ∧ memberDown s p 1 (grp s p g).onuX = false) →
     Completes (.memberRejoin p g) s (fun t =>
       (grp t p g).state = gUp ∧
       (grp t p g).sX = (if (grp s p g).state = gSingleX then (grp s p g).sX else (grp s p g).sH) ∧
       (grp t p g).sH = (if (grp s p g).state = gSingleX then (grp s p g).sX else (grp s p g).sH) ∧
       flagSet t (pgBND p) BND_F_MEMBER_UP = true ∧
       cntAt t (cntAddr (pgBND p) BND_C_REJOINS) = min cntMax (cntAt s (cntAddr (pgBND p) BND_C_REJOINS) + 1) ∧
       TblOnly Grp.init (64 * p + g) s.pon.grp t.pon.grp ∧
       Only [.grp, .regs, .cnt, .pmc] s t))

/-- A field command of a context that may not issue (it is not READY or RUNNING, is stopped, or its engine's turn is another's, R148), of a word without the operation, or of a field that has acted changes nothing. On a word not issued yet whose issue faults, every field command does what the issue does; where it does not fault, the field acts after the ALUs, as if ALU_OPERATION had come first. ALU_OPERATION issues the word (counted in WORDS, the context RUNNING), puts both results in their latch and destinations, and sets conditions 1 to 6 from them. A word with a reserved encoding faults the context with ILLEGAL_WORD. What an operation leaves open is free (log entry 3). -/
def Obligations.WordsIssueAndTheirAlusActFirst : Prop :=
  (∀ (s : State) (i : Instr) (c : CtxId) (n : Nat) (has : BitVec 160 → Bool),
     fieldOf i = some (c, n, has) →
     mayIssue s c = false ∨ has (wordOf s c) = false ∨ ((ctx s c).latch.isSome = true ∧ bitAt (ctx s c).acted n = true) →
     Completes (i) s (fun t =>
       t = s)) ∧
  (∀ (s : State) (i : Instr) (c : CtxId) (n : Nat) (has : BitVec 160 → Bool),
     fieldOf i = some (c, n, has) →
     has (wordOf s c) = true →
     mayIssue s c = true →
     (ctx s c).latch = none →
     Completes (i) s (fun t =>
       (∀ u, exec (.aluOperation c) s = .next u → (exec i u = .next t)))) ∧
  (∀ (s : State) (c : CtxId) (w : BitVec 160) (u : State) (l : Latch) (r q : Nat × Bool × Bool),
     mayIssue s c = true →
     ((ctx s c).latch.isSome = true → bitAt (ctx s c).acted 0 = false) →
     (beginWord s c).2 = true →
     w = wordOf s c →
     u = (beginWord s c).1 →
     (ctx u c).latch = some l →
     r = alu (mwAluA w % 64) (aluWidth (mwAluA w)) (mwImm w) l.a l.b (freeAt u 0) (freeAt u 1) →
     q = alu (mwAluB w % 64) (aluWidth (mwAluB w)) (mwImm w) l.c r.1 (freeAt u 2) (freeAt u 3) →
     Completes (.aluOperation c) s (fun t =>
       (ctx t c).latch = some { l with ra := r.1, rb := q.1 } ∧
       (ctx t c).acted = (ctx u c).acted ||| 1 ∧
       [1, 2, 3, 4, 5, 6].map (bitAt (ctx t c).conds) = [r.1 == 0, topBit (aluWidth (mwAluA w)) r.1, r.2.1, r.2.2, q.1 == 0, topBit (aluWidth (mwAluB w)) q.1] ∧
       (mwAluA w % 64 ≠ opCompare → mwDstA w < 32 → mwAluB w % 64 = opCompare ∨ mwDstB w ≠ mwDstA w → tget dzero (ctx t c).gp (mwDstA w) = r.1) ∧
       (mwAluB w % 64 ≠ opCompare → mwDstB w < 32 → tget dzero (ctx t c).gp (mwDstB w) = q.1) ∧
       (ctx t c).pc = (ctx u c).pc ∧
       t.freeCtr = u.freeCtr + 4 ∧
       Only [.ctx, .cluster, .freeCtr, .regs] u t)) ∧
  (∀ (s : State) (c : CtxId),
     mayIssue s c = true →
     (ctx s c).latch = none →
     (beginWord s c).2 = true →
     Completes (.aluOperation c) s (fun t =>
       (ctx t c).st = 2 ∧
       (ctx t c).pc = (ctx s c).pc ∧
       (ctx t c).words = (ctx s c).words ∧
       cntAt t (cntAddr (pgENG c.k) ENG_C_WORDS) = min cntMax (cntAt s (cntAddr (pgENG c.k) ENG_C_WORDS) + 1))) ∧
  (∀ (s : State) (c : CtxId) (u : State),
     mayIssue s c = true →
     (ctx s c).latch = none →
     u = (readStore s c).1 →
     (readStore s c).2 = false →
     illegalWord u c.k (wordOf s c) = true →
     faultsAlone u c.k = true →
     Completes (.aluOperation c) s (fun t =>
       Faulted u t c cIllegal))

/-- On their turn, on local scratch and on cluster-shared scratch whose bank is on and that has no injected error: a read puts the bytes at SRC_C + IMM, low byte first, on their way to the general register; a write stores the ALU B result there; a fetch-add stores the sum and answers the old value. A shared write that meets another in its cycle stores nothing, is counted in MEM_CONFLICTS and answers the conflict. In each case the completion condition is cleared and the request is outstanding; no other context changes, and of scratch only the bytes written. Wrapping past the end of a scratch is the model's choice (log entry 26). -/
def Obligations.ScratchFields : Prop :=
  (∀ (s : State) (c : CtxId) (w : BitVec 160) (u : State) (x : Ctx),
     fieldDue s c 1 = true →
     w = wordOf s c →
     memIs 1 w = true →
     u = atField s c 1 →
     x = ctx u c →
     memShared w = false →
     Completes (.scratchRead c) s (fun t =>
       ctx t c = { x.cond 8 false with mem := .ready { UnitRes.plain with gp := some (mwMem w % 32, readBytes x.scratch (memAddrs x w)) } } ∧
       CtxOnly c u t)) ∧
  (∀ (s : State) (c : CtxId) (w : BitVec 160) (u : State) (x : Ctx),
     fieldDue s c 1 = true →
     w = wordOf s c →
     memIs 1 w = true →
     u = atField s c 1 →
     x = ctx u c →
     memShared w = true →
     u.boot.bank.all (fun e => e.2.st != 1) = true →
     isSet u (pgENG c.k) ANY_ARM = false →
     Completes (.scratchRead c) s (fun t =>
       ctx t c = { x.cond 8 false with mem := .ready { UnitRes.plain with gp := some (mwMem w % 32, readBytes (cluster u c.k).scratch (memAddrs x w)) } } ∧
       CtxOnly c u t)) ∧
  (∀ (s : State) (c : CtxId) (w : BitVec 160) (u : State) (x : Ctx),
     fieldDue s c 1 = true →
     w = wordOf s c →
     memIs 2 w = true →
     u = atField s c 1 →
     x = ctx u c →
     memShared w = false →
     Completes (.scratchWrite c false) s (fun t =>
       ctx t c = { x.cond 8 false with scratch := writeBytes x.scratch (memAddrs x w) (resB x), mem := .ready UnitRes.plain } ∧
       CtxOnly c u t)) ∧
  (∀ (s : State) (c : CtxId) (w : BitVec 160) (u : State) (x : Ctx),
     fieldDue s c 1 = true →
     w = wordOf s c →
     memIs 2 w = true →
     u = atField s c 1 →
     x = ctx u c →
     memShared w = true →
     u.boot.bank.all (fun e => e.2.st != 1) = true →
     isSet u (pgENG c.k) ANY_ARM = false →
     Completes (.scratchWrite c false) s (fun t =>
       ctx t c = { x.cond 8 false with mem := .ready UnitRes.plain } ∧
       (cluster t c.k) = { cluster u c.k with scratch := writeBytes (cluster u c.k).scratch (memAddrs x w) (resB x) } ∧
       TblOnly Cluster.init c.k u.eng.cl t.eng.cl ∧
       Only [.ctx, .cluster, .regs] u t)) ∧
  (∀ (s : State) (c : CtxId) (w : BitVec 160) (u : State) (x : Ctx),
     fieldDue s c 1 = true →
     w = wordOf s c →
     memIs 2 w = true →
     u = atField s c 1 →
     x = ctx u c →
     memShared w = true →
     u.boot.bank.all (fun e => e.2.st != 1) = true →
     isSet u (pgENG c.k) ANY_ARM = false →
     Completes (.scratchWrite c true) s (fun t =>
       ctx t c = { x.cond 8 false with mem := .ready { UnitRes.plain with conflict := true } } ∧
       cntAt t (cntAddr (pgENG c.k) ENG_C_MEM_CONFLICTS) = min cntMax (cntAt u (cntAddr (pgENG c.k) ENG_C_MEM_CONFLICTS) + 1) ∧
       Only [.ctx, .regs, .cnt, .pmc] u t)) ∧
  (∀ (s : State) (c : CtxId) (w : BitVec 160) (u : State) (x : Ctx),
     fieldDue s c 1 = true →
     w = wordOf s c →
     memIs 3 w = true →
     u = atField s c 1 →
     x = ctx u c →
     memShared w = false →
     Completes (.scratchFetchAdd c) s (fun t =>
       ctx t c = { x.cond 8 false with scratch := writeBytes x.scratch (memAddrs x w) ((readBytes x.scratch (memAddrs x w) + resB x) % 2 ^ (8 * (memAddrs x w).length)), mem := .ready { UnitRes.plain with gp := some (mwMem w % 32, readBytes x.scratch (memAddrs x w)) } } ∧
       CtxOnly c u t)) ∧
  (∀ (s : State) (c : CtxId) (w : BitVec 160) (u : State) (x : Ctx),
     fieldDue s c 1 = true →
     w = wordOf s c →
     memIs 3 w = true →
     u = atField s c 1 →
     x = ctx u c →
     memShared w = true →
     u.boot.bank.all (fun e => e.2.st != 1) = true →
     isSet u (pgENG c.k) ANY_ARM = false →
     Completes (.scratchFetchAdd c) s (fun t =>
       ctx t c = { x.cond 8 false with mem := .ready { UnitRes.plain with gp := some (mwMem w % 32, readBytes (cluster u c.k).scratch (memAddrs x w)) } } ∧
       (cluster t c.k).scratch = writeBytes (cluster u c.k).scratch (memAddrs x w) ((readBytes (cluster u c.k).scratch (memAddrs x w) + resB x) % 2 ^ (8 * (memAddrs x w).length)) ∧
       TblOnly Cluster.init c.k u.eng.cl t.eng.cl ∧
       Only [.ctx, .cluster, .regs] u t))

/-- On their turn completion and hit are cleared, and the request is outstanding. A Legend match has on its way the action word and the index of the rule that wins, whether one did and whether the packet is malformed (R173), and gives the packet what the action says. A lookup that misses, or finds GZT_EN 0, answers no hit; one that hits answers the entry's eight words. A learn, a refresh and a delete enter the learn arbiter's queue and wait; a learn that finds the queue full answers code 8 at once, with LEARN_DROP. A state write stores the 8 words of the result bank under the word's key, and a state read answers those stored last under its key (the key is the model's reading, log entry 46). -/
def Obligations.TableFields : Prop :=
  (∀ (s : State) (c : CtxId) (w : BitVec 160) (u : State) (x : Ctx) (r : State × Packet × Nat × Nat × Bool),
     fieldDue s c 2 = true →
     w = wordOf s c →
     tblIs 1 w = true →
     u = atField s c 2 →
     x = ctx u c →
     r = legendMatch u x.pkt →
     Completes (.tblLegendMatch c) s (fun t =>
       (ctx t c).tbl = .ready { UnitRes.plain with lr := [(8 * mwBank w, r.2.2.1), (8 * mwBank w + 1, r.2.2.2.1)], hit := r.2.2.2.2, malformed := x.pkt.record % 2 == 1 } ∧
       (ctx t c).pkt = r.2.1 ∧
       bitAt (ctx t c).conds 9 = false ∧
       bitAt (ctx t c).conds 14 = false ∧
       TblOnly Ctx.init (ctxKey c) u.eng.ctx t.eng.ctx ∧
       Only [.ctx, .rule, .regs, .cnt, .pmc, .freeCtr, .trace] u t)) ∧
  (∀ (s : State) (c : CtxId) (w : BitVec 160) (u : State) (x : Ctx),
     fieldDue s c 2 = true →
     w = wordOf s c →
     tblIs 2 w = true →
     u = atField s c 2 →
     x = ctx u c →
     active u pgGZT GZT_GZT_EN = false ∨ locate u (tblKey x w) (tblType w) = none →
     Completes (.tblGztLookup c) s (fun t =>
       ctx t c = { (x.cond 9 false).cond 14 false with tbl := .ready UnitRes.plain } ∧
       cntAt t (cntAddr pgGZT GZT_C_LOOKUPS) = min cntMax (cntAt u (cntAddr pgGZT GZT_C_LOOKUPS) + 1) ∧
       cntAt t (cntAddr pgGZT GZT_C_HITS) = cntAt u (cntAddr pgGZT GZT_C_HITS) ∧
       Only [.ctx, .regs, .cnt, .pmc] u t)) ∧
  (∀ (s : State) (c : CtxId) (w : BitVec 160) (u : State) (x : Ctx) (l : Loc),
     fieldDue s c 2 = true →
     w = wordOf s c →
     tblIs 2 w = true →
     u = atField s c 2 →
     x = ctx u c →
     active u pgGZT GZT_GZT_EN = true →
     locate u (tblKey x w) (tblType w) = some l →
     Completes (.tblGztLookup c) s (fun t =>
       (ctx t c).tbl = .ready { UnitRes.plain with lr := bankWords (mwBank w) (shownEnt u l).toNat 8, hit := true } ∧
       (ctx t c).pkt.dest = some (entDest (shownEnt u l)) ∧
       (ctx t c).pkt.flow = entF (shownEnt u l) 73 18 ∧
       cntAt t (cntAddr pgGZT GZT_C_HITS) = min cntMax (cntAt u (cntAddr pgGZT GZT_C_HITS) + 1) ∧
       TblOnly Ctx.init (ctxKey c) u.eng.ctx t.eng.ctx ∧
       Only [.ctx, .regs, .cnt, .pmc, .trace] u t)) ∧
  (∀ (s : State) (c : CtxId) (w : BitVec 160) (u : State) (x : Ctx),
     fieldDue s c 2 = true →
     w = wordOf s c →
     tblIs 3 w = true →
     u = atField s c 2 →
     x = ctx u c →
     u.cls.arb.length < arbMax →
     Completes (.tblGztLearn c) s (fun t =>
       ctx t c = { (x.cond 9 false).cond 14 false with tbl := .waiting } ∧
       t.cls.arb = arrive ⟨.learn (BitVec.ofNat 96 (tblKey x w)) (tblType w) (BitVec.ofNat 112 (learnBody x (mwBank w))), x.pkt.src, x.pkt.slice, some c, mwBank w, (now u).fineIndex⟩ u.cls.arb ∧
       TblOnly Ctx.init (ctxKey c) u.eng.ctx t.eng.ctx ∧
       Only [.ctx, .arb, .regs] u t)) ∧
  (∀ (s : State) (c : CtxId) (w : BitVec 160) (u : State) (x : Ctx),
     fieldDue s c 2 = true →
     w = wordOf s c →
     tblIs 4 w = true →
     u = atField s c 2 →
     x = ctx u c →
     u.cls.arb.length < arbMax →
     Completes (.tblGztRefresh c) s (fun t =>
       ctx t c = { (x.cond 9 false).cond 14 false with tbl := .waiting } ∧
       t.cls.arb = arrive ⟨.refresh (BitVec.ofNat 96 (tblKey x w)) (tblType w), x.pkt.src, x.pkt.slice, some c, mwBank w, (now u).fineIndex⟩ u.cls.arb ∧
       TblOnly Ctx.init (ctxKey c) u.eng.ctx t.eng.ctx ∧
       Only [.ctx, .arb, .regs] u t)) ∧
  (∀ (s : State) (c : CtxId) (w : BitVec 160) (u : State) (x : Ctx),
     fieldDue s c 2 = true →
     w = wordOf s c →
     tblIs 5 w = true →
     u = atField s c 2 →
     x = ctx u c →
     u.cls.arb.length < arbMax →
     Completes (.tblGztDelete c) s (fun t =>
       ctx t c = { (x.cond 9 false).cond 14 false with tbl := .waiting } ∧
       t.cls.arb = arrive ⟨.delete (BitVec.ofNat 96 (tblKey x w)) (tblType w), x.pkt.src, x.pkt.slice, some c, mwBank w, (now u).fineIndex⟩ u.cls.arb ∧
       TblOnly Ctx.init (ctxKey c) u.eng.ctx t.eng.ctx ∧
       Only [.ctx, .arb, .regs] u t)) ∧
  (∀ (s : State) (c : CtxId) (w : BitVec 160) (u : State) (x : Ctx),
     fieldDue s c 2 = true →
     w = wordOf s c →
     tblIs 3 w = true →
     u = atField s c 2 →
     x = ctx u c →
     arbMax ≤ s.cls.arb.length →
     Completes (.tblGztLearn c) s (fun t =>
       ctx t c = { (x.cond 9 false).cond 14 false with tbl := .ready { UnitRes.plain with lr := [(8 * mwBank w, 8)] } } ∧
       flagSet t pgGZT GZT_F_LEARN_DROP = true ∧
       cntAt t (cntAddr pgGZT GZT_C_LEARN_DROP) = min cntMax (cntAt u (cntAddr pgGZT GZT_C_LEARN_DROP) + 1) ∧
       Only [.ctx, .regs, .cnt, .pmc] u t)) ∧
  (∀ (s : State) (c : CtxId) (w : BitVec 160) (u : State) (x : Ctx),
     fieldDue s c 2 = true →
     w = wordOf s c →
     tblIs 6 w = true →
     u = atField s c 2 →
     x = ctx u c →
     Completes (.tblStateRead c) s (fun t =>
       ctx t c = { (x.cond 9 false).cond 14 false with tbl := .ready { UnitRes.plain with lr := bankWords (mwBank w) (tget dentry u.eng.ustate (stateKey x w)).toNat 8 } } ∧
       CtxOnly c u t)) ∧
  (∀ (s : State) (c : CtxId) (w : BitVec 160) (u : State) (x : Ctx),
     fieldDue s c 2 = true →
     w = wordOf s c →
     tblIs 7 w = true →
     u = atField s c 2 →
     x = ctx u c →
     Completes (.tblStateWrite c) s (fun t =>
       ctx t c = { (x.cond 9 false).cond 14 false with tbl := .ready UnitRes.plain } ∧
       tget dentry t.eng.ustate (stateKey x w) = bankValue x (mwBank w) ∧
       TblOnly dentry (stateKey x w) u.eng.ustate t.eng.ustate ∧
       TblOnly Ctx.init (ctxKey c) u.eng.ctx t.eng.ctx ∧
       Only [.ctx, .ustate, .regs] u t))

/-- On its turn each clears completion and pass, is counted in CIP_ISSUES and has its answer on its way: the MAC of the header window's bytes under the ONU's integrity key; whether it equals lr words 0 to 3; a random value, which is free; the check value of a key; status words, which the manual leaves open (log entry 3). A key derivation that R217 allows writes the slot that lr word 4 names, one that R217 refuses writes none, and either is journaled under the cluster; an invalidation of a slot that is neither active nor in grace empties it and passes. The layout of lr word 4 is the model's reading (log entry 27). -/
def Obligations.CipherFields : Prop :=
  (∀ (s : State) (c : CtxId) (w : BitVec 160) (u : State) (x : Ctx),
     fieldDue s c 3 = true →
     w = wordOf s c →
     cipIs 1 w = true →
     u = atField s c 3 →
     x = ctx u c →
     Completes (.cipCmac c) s (fun t =>
       (ctx t c).cip = .ready { UnitRes.plain with lr := bankWords (mwBank w) (cipMac u x w) 4 } ∧
       bitAt (ctx t c).conds 10 = false ∧
       bitAt (ctx t c).conds 15 = false ∧
       cntAt t (cntAddr pgCIP CIP_C_CIP_ISSUES) = min cntMax (cntAt u (cntAddr pgCIP CIP_C_CIP_ISSUES) + 1) ∧
       TblOnly Ctx.init (ctxKey c) u.eng.ctx t.eng.ctx ∧
       Only [.ctx, .regs, .cnt, .pmc] u t)) ∧
  (∀ (s : State) (c : CtxId) (w : BitVec 160) (u : State) (x : Ctx),
     fieldDue s c 3 = true →
     w = wordOf s c →
     cipIs 2 w = true →
     u = atField s c 3 →
     x = ctx u c →
     Completes (.cipCmacVerify c) s (fun t =>
       (ctx t c).cip = .ready { UnitRes.plain with pass := cipMac u x w == (List.range 4).foldl (fun a i => a * 2 ^ 32 + tget dzero x.lr i) 0 } ∧
       bitAt (ctx t c).conds 10 = false ∧
       bitAt (ctx t c).conds 15 = false ∧
       cntAt t (cntAddr pgCIP CIP_C_CIP_ISSUES) = min cntMax (cntAt u (cntAddr pgCIP CIP_C_CIP_ISSUES) + 1) ∧
       TblOnly Ctx.init (ctxKey c) u.eng.ctx t.eng.ctx ∧
       Only [.ctx, .regs, .cnt, .pmc] u t)) ∧
  (∀ (s : State) (c : CtxId) (w : BitVec 160) (u : State) (x : Ctx) (r : KeyReq),
     fieldDue s c 3 = true →
     w = wordOf s c →
     cipIs 3 w = true →
     u = atField s c 3 →
     x = ctx u c →
     r = cipSlot x (cipMac u x w) →
     (writeKey u r).2 = 0 →
     Completes (.cipKeyDerive c) s (fun t =>
       (ctx t c).cip = .ready UnitRes.plain ∧
       bitAt (ctx t c).conds 10 = false ∧
       bitAt (ctx t c).conds 15 = false ∧
       cntAt t (cntAddr pgCIP CIP_C_CIP_ISSUES) = min cntMax (cntAt u (cntAddr pgCIP CIP_C_CIP_ISSUES) + 1) ∧
       TblOnly Ctx.init (ctxKey c) u.eng.ctx t.eng.ctx ∧
       t.keys = (writeKey u r).1.keys ∧
       TblOnly KeyEntry.init r.u u.keys t.keys ∧
       Entered u t (.ucode c.k) 0 (pgKEY + KEY_CMD.off) ∧
       Only [.ctx, .keys, .jrn, .regs, .cnt, .pmc] u t)) ∧
  (∀ (s : State) (c : CtxId) (w : BitVec 160) (u : State) (x : Ctx) (r : KeyReq),
     fieldDue s c 3 = true →
     w = wordOf s c →
     cipIs 3 w = true →
     u = atField s c 3 →
     x = ctx u c →
     r = cipSlot x (cipMac u x w) →
     (writeKey u r).2 ≠ 0 →
     Completes (.cipKeyDerive c) s (fun t =>
       (ctx t c).cip = .ready UnitRes.plain ∧
       t.keys = u.keys ∧
       Entered u t (.ucode c.k) (writeKey u r).2 (pgKEY + KEY_CMD.off) ∧
       flagSet t pgKEY KEY_F_KEY_REJ = true ∧
       Only [.ctx, .jrn, .regs, .cnt, .pmc] u t)) ∧
  (∀ (s : State) (c : CtxId) (w : BitVec 160) (u : State) (x : Ctx),
     fieldDue s c 3 = true →
     w = wordOf s c →
     cipIs 4 w = true →
     u = atField s c 3 →
     x = ctx u c →
     Completes (.cipRandom c) s (fun t =>
       (ctx t c).cip = .ready { UnitRes.plain with dst := some (mwDstA w, freeVal u) } ∧
       bitAt (ctx t c).conds 10 = false ∧
       bitAt (ctx t c).conds 15 = false ∧
       cntAt t (cntAddr pgCIP CIP_C_CIP_ISSUES) = min cntMax (cntAt u (cntAddr pgCIP CIP_C_CIP_ISSUES) + 1) ∧
       TblOnly Ctx.init (ctxKey c) u.eng.ctx t.eng.ctx ∧
       t.freeCtr = u.freeCtr + 1 ∧
       Only [.ctx, .freeCtr, .regs, .cnt, .pmc] u t)) ∧
  (∀ (s : State) (c : CtxId) (w : BitVec 160) (u : State) (x : Ctx) (r : KeyReq) (j : Nat),
     fieldDue s c 3 = true →
     w = wordOf s c →
     cipIs 5 w = true →
     u = atField s c 3 →
     x = ctx u c →
     r = cipSlot x 0 →
     r.dir ≠ 2 →
     r.index u = some j →
     Completes (.cipKcv c) s (fun t =>
       (ctx t c).cip = .ready { UnitRes.plain with dst := some (mwDstA w, ((keyEntry u (cipNode x)).slot (r.dir == 1) j).kcv) } ∧
       bitAt (ctx t c).conds 10 = false ∧
       bitAt (ctx t c).conds 15 = false ∧
       cntAt t (cntAddr pgCIP CIP_C_CIP_ISSUES) = min cntMax (cntAt u (cntAddr pgCIP CIP_C_CIP_ISSUES) + 1) ∧
       TblOnly Ctx.init (ctxKey c) u.eng.ctx t.eng.ctx ∧
       Only [.ctx, .regs, .cnt, .pmc] u t)) ∧
  (∀ (s : State) (c : CtxId) (w : BitVec 160) (u : State) (x : Ctx),
     fieldDue s c 3 = true →
     w = wordOf s c →
     cipIs 6 w = true →
     u = atField s c 3 →
     x = ctx u c →
     Completes (.cipStatus c) s (fun t =>
       (ctx t c).cip = .ready { UnitRes.plain with lr := (List.range 8).map (fun i => (8 * mwBank w + i, freeAt u i % 2 ^ 32)) } ∧
       bitAt (ctx t c).conds 10 = false ∧
       bitAt (ctx t c).conds 15 = false ∧
       cntAt t (cntAddr pgCIP CIP_C_CIP_ISSUES) = min cntMax (cntAt u (cntAddr pgCIP CIP_C_CIP_ISSUES) + 1) ∧
       TblOnly Ctx.init (ctxKey c) u.eng.ctx t.eng.ctx ∧
       t.freeCtr = u.freeCtr + 8 ∧
       Only [.ctx, .freeCtr, .regs, .cnt, .pmc] u t)) ∧
  (∀ (s : State) (c : CtxId) (w : BitVec 160) (u : State) (x : Ctx) (r : KeyReq) (j : Nat),
     fieldDue s c 3 = true →
     w = wordOf s c →
     cipIs 7 w = true →
     u = atField s c 3 →
     x = ctx u c →
     r = cipSlot x 0 →
     r.dir < 2 →
     r.index u = some j →
     slotBusy u (keyEntry u r.u) (r.dir == 1) j = false →
     Completes (.cipInvalidate c) s (fun t =>
       (ctx t c).cip = .ready { UnitRes.plain with pass := true } ∧
       bitAt (ctx t c).conds 10 = false ∧
       bitAt (ctx t c).conds 15 = false ∧
       cntAt t (cntAddr pgCIP CIP_C_CIP_ISSUES) = min cntMax (cntAt u (cntAddr pgCIP CIP_C_CIP_ISSUES) + 1) ∧
       TblOnly Ctx.init (ctxKey c) u.eng.ctx t.eng.ctx ∧
       keyEntry t r.u = (keyEntry u r.u).withSlot (r.dir == 1) j ((keyEntry u r.u).slot (r.dir == 1) j).cleared ∧
       TblOnly KeyEntry.init r.u u.keys t.keys ∧
       Entered u t (.ucode c.k) 0 (pgKEY + KEY_CMD.off) ∧
       Only [.ctx, .keys, .jrn, .regs, .cnt, .pmc] u t))

/-- On their turn completion and refusal are cleared. An allocation (requester 8 + cluster, for a replica requester 7) has the buffer on its way that the pools give; where they give none it waits in the wait queue of its pool if its requester may, and is otherwise refused with REFUSED. A free, or a reference −1, by the only holder returns the chain to its pools; a reference −1 by one holder of several leaves the rest; by a party that is no holder nothing is freed, BAD_FREE is set and counted. A reference +1 adds the context as a holder and marks the chain shared; a pass of ownership makes the queue manager the holder of the chain instead. A packet whose buffer is freed or passed has no handle. -/
def Obligations.BufferFields : Prop :=
  (∀ (s : State) (c : CtxId) (w : BitVec 160) (u : State) (x : Ctx) (h : Nat) (v : State),
     fieldDue s c 4 = true →
     w = wordOf s c →
     bpmIs 1 w = true →
     u = atField s c 4 →
     x = ctx u c →
     askBytes u (8 + c.k.val) (tagCtx c) 1 (srcC x) = some (h, v) →
     Completes (.bpmAllocate c) s (fun t =>
       ctx t c = { (x.cond 11 false).cond 40 false with bpm := .ready { UnitRes.plain with handle := some (some h) } } ∧
       t.tm.buf = v.tm.buf ∧
       t.freeCtr = v.freeCtr ∧
       Only [.ctx, .buf, .freeCtr, .regs, .cnt, .pmc] u t)) ∧
  (∀ (s : State) (c : CtxId) (w : BitVec 160) (u : State) (x : Ctx) (h : Nat) (v : State),
     fieldDue s c 4 = true →
     w = wordOf s c →
     bpmIs 2 w = true →
     u = atField s c 4 →
     x = ctx u c →
     askBytes u (7) (tagCtx c) 1 (srcC x) = some (h, v) →
     Completes (.bpmAllocateRepl c) s (fun t =>
       ctx t c = { (x.cond 11 false).cond 40 false with bpm := .ready { UnitRes.plain with handle := some (some h) } } ∧
       t.tm.buf = v.tm.buf ∧
       t.freeCtr = v.freeCtr ∧
       Only [.ctx, .buf, .freeCtr, .regs, .cnt, .pmc] u t)) ∧
  (∀ (s : State) (c : CtxId) (w : BitVec 160) (u : State) (x : Ctx),
     fieldDue s c 4 = true →
     w = wordOf s c →
     bpmIs 1 w = true →
     u = atField s c 4 →
     x = ctx u c →
     askBytes u (8 + c.k.val) (tagCtx c) 1 (srcC x) = none →
     isSet u pgBPM (BPM_WAIT.at (8 + c.k.val)) = false →
     Completes (.bpmAllocate c) s (fun t =>
       ctx t c = { (x.cond 11 false).cond 40 false with bpm := .ready { UnitRes.plain with refused := true } } ∧
       flagSet t pgBPM BPM_F_REFUSED = true ∧
       cntAt t (cntAddr pgBPM BPM_C_REFUSED) = min cntMax (cntAt u (cntAddr pgBPM BPM_C_REFUSED) + 1) ∧
       Only [.ctx, .regs, .cnt, .pmc] u t)) ∧
  (∀ (s : State) (c : CtxId) (w : BitVec 160) (u : State) (x : Ctx),
     fieldDue s c 4 = true →
     w = wordOf s c →
     bpmIs 2 w = true →
     u = atField s c 4 →
     x = ctx u c →
     askBytes u (7) (tagCtx c) 1 (srcC x) = none →
     isSet u pgBPM (BPM_WAIT.at (7)) = false →
     Completes (.bpmAllocateRepl c) s (fun t =>
       ctx t c = { (x.cond 11 false).cond 40 false with bpm := .ready { UnitRes.plain with refused := true } } ∧
       flagSet t pgBPM BPM_F_REFUSED = true ∧
       cntAt t (cntAddr pgBPM BPM_C_REFUSED) = min cntMax (cntAt u (cntAddr pgBPM BPM_C_REFUSED) + 1) ∧
       Only [.ctx, .regs, .cnt, .pmc] u t)) ∧
  (∀ (s : State) (c : CtxId) (w : BitVec 160) (u : State) (x : Ctx) (p : Nat),
     fieldDue s c 4 = true →
     w = wordOf s c →
     bpmIs 1 w = true →
     u = atField s c 4 →
     x = ctx u c →
     askBytes u (8 + c.k.val) (tagCtx c) 1 (srcC x) = none →
     isSet u pgBPM (BPM_WAIT.at (8 + c.k.val)) = true →
     p = poolFor (8 + c.k.val) (srcC x) →
     (waitQ u p).length < waitMax →
     Completes (.bpmAllocate c) s (fun t =>
       ctx t c = { (x.cond 11 false).cond 40 false with bpm := .waiting } ∧
       waitQ t p = waitQ u p ++ [⟨8 + c.k.val, srcC x, .engine c⟩] ∧
       TblOnly dnil p u.tm.wait t.tm.wait ∧
       Only [.ctx, .wait, .regs, .cnt, .pmc] u t)) ∧
  (∀ (s : State) (c : CtxId) (w : BitVec 160) (u : State) (x : Ctx) (h : Nat),
     fieldDue s c 4 = true →
     w = wordOf s c →
     bpmIs 3 w = true →
     u = atField s c 4 →
     x = ctx u c →
     x.pkt.handle = some h →
     (buf u h).holders = [tagCtx c] →
     (buf u h).tag ≠ tagShared →
     Completes (.bpmFree c) s (fun t =>
       (ctx t c).bpm = .ready UnitRes.plain ∧
       (ctx t c).pkt = { x.pkt with handle := none } ∧
       (chainOf u h).all (fun b => buf t b == Buf.init b) = true ∧
       cntAt t (cntAddr pgBPM BPM_C_FREES) = min cntMax (cntAt u (cntAddr pgBPM BPM_C_FREES) + (chainOf u h).length) ∧
       Only [.ctx, .buf, .regs, .cnt, .pmc] u t)) ∧
  (∀ (s : State) (c : CtxId) (w : BitVec 160) (u : State) (x : Ctx) (h : Nat),
     fieldDue s c 4 = true →
     w = wordOf s c →
     bpmIs 3 w = true →
     u = atField s c 4 →
     x = ctx u c →
     x.pkt.handle = some h →
     (buf u h).holders ≠ [] →
     (buf u h).holders.contains (tagCtx c) = false →
     Completes (.bpmFree c) s (fun t =>
       (ctx t c).bpm = .ready UnitRes.plain ∧
       t.tm.buf = u.tm.buf ∧
       flagSet t pgBPM BPM_F_BAD_FREE = true ∧
       cntAt t (cntAddr pgBPM BPM_C_BAD_FREE) = min cntMax (cntAt u (cntAddr pgBPM BPM_C_BAD_FREE) + 1) ∧
       Only [.ctx, .regs, .cnt, .pmc] u t)) ∧
  (∀ (s : State) (c : CtxId) (w : BitVec 160) (u : State) (x : Ctx) (h : Nat),
     fieldDue s c 4 = true →
     w = wordOf s c →
     bpmIs 4 w = true →
     u = atField s c 4 →
     x = ctx u c →
     h = x.pkt.handle.getD 0 →
     (buf u h).holders ≠ [] →
     (buf u h).holders.length < 255 →
     Completes (.bpmRefInc c) s (fun t =>
       ctx t c = { (x.cond 11 false).cond 40 false with bpm := .ready UnitRes.plain } ∧
       (∀ b ∈ chainOf u h, buf t b = { buf u b with tag := tagShared, holders := tagCtx c :: (buf u h).holders }) ∧
       (∀ b, b ∉ chainOf u h → buf t b = buf u b) ∧
       Only [.ctx, .buf, .regs, .cnt, .pmc] u t)) ∧
  (∀ (s : State) (c : CtxId) (w : BitVec 160) (u : State) (x : Ctx) (h : Nat),
     fieldDue s c 4 = true →
     w = wordOf s c →
     bpmIs 5 w = true →
     u = atField s c 4 →
     x = ctx u c →
     h = x.pkt.handle.getD 0 →
     (buf u h).holders.contains (tagCtx c) = true →
     (buf u h).holders.erase (tagCtx c) ≠ [] →
     Completes (.bpmRefDec c) s (fun t =>
       ctx t c = { (x.cond 11 false).cond 40 false with bpm := .ready UnitRes.plain } ∧
       (∀ b ∈ chainOf u h, buf t b = { buf u b with tag := (buf u h).tag, holders := (buf u h).holders.erase (tagCtx c) }) ∧
       (∀ b, b ∉ chainOf u h → buf t b = buf u b) ∧
       Only [.ctx, .buf, .regs, .cnt, .pmc] u t)) ∧
  (∀ (s : State) (c : CtxId) (w : BitVec 160) (u : State) (x : Ctx) (h q : Nat),
     fieldDue s c 4 = true →
     w = wordOf s c →
     bpmIs 6 w = true →
     u = atField s c 4 →
     x = ctx u c →
     x.pkt.handle = some h →
     (buf u h).holders.contains (tagCtx c) = true →
     (buf u h).tag ≠ tagShared →
     q = queueParty (queueArg (srcC x)) →
     Completes (.bpmPassOwnership c) s (fun t =>
       (ctx t c).bpm = .ready UnitRes.plain ∧
       (ctx t c).pkt = { x.pkt with handle := none } ∧
       (∀ b ∈ chainOf u h, buf t b = { buf u b with tag := q, holders := q :: (buf u h).holders.erase (tagCtx c) }) ∧
       (∀ b, b ∉ chainOf u h → buf t b = buf u b) ∧
       Only [.ctx, .buf, .regs, .cnt, .pmc] u t))

/-- On their turn completion is cleared. Enqueue of a packet that R206 admits links it at the tail of the queue, charges its occupancy with the buffer and, unless it is a replica, takes the handle from the packet; a queue block that is off, an occupancy limit or an ONU without queues drops it and answers refused. READ_LEVEL answers the queue's occupancy in bytes, READ_BP_LEVEL the published level of R213. Dequeue, on the supervision role, takes the head frame of the queue into the context with its buffer; an empty queue answers refused. -/
def Obligations.QueueFields : Prop :=
  (∀ (s : State) (c : CtxId) (w : BitVec 160) (u : State) (x : Ctx) (k h : Nat) (pl : Place) (v : State),
     fieldDue s c 5 = true →
     w = wordOf s c →
     tmqIs 1 w = true →
     u = atField s c 5 →
     x = ctx u c →
     k = queueArg (srcC x) →
     noQueueFor u x.pkt = false →
     k < 73728 →
     active u pgTMQ (if k < 65536 then TMQ_DS_EN else TMQ_US_EN) = true →
     standbyPort u k = false →
     admitIn u k (chargeFor u x.pkt) x.pkt.colour (ownCharge u x.pkt) = .ok →
     placeOf u k (chargeFor u x.pkt) = some pl →
     stackedBuf u k x.pkt false (tagCtx c) = some (h, v) →
     Completes (.tmqEnqueue c) s (fun t =>
       (queueOf t k).frames = (queueOf u k).frames ++ [⟨h, x.pkt.len, chargeFor u x.pkt, pl, x.pkt.flow, x.pkt.bytes, 0, x.pkt.tag⟩] ∧
       (queueOf t k).occ = (queueOf u k).occ + chargeFor u x.pkt ∧
       t.tm.buf = v.tm.buf ∧
       t.freeCtr = v.freeCtr ∧
       TblOnly Queue.init k u.tm.q t.tm.q ∧
       ctx t c = { x.cond 12 false with tmq := .ready UnitRes.plain, pkt := { x.pkt with handle := none } } ∧
       Only [.ctx, .queue, .node, .buf, .freeCtr, .regs, .cnt, .pmc, .trace] u t)) ∧
  (∀ (s : State) (c : CtxId) (w : BitVec 160) (u : State) (x : Ctx) (k h : Nat) (pl : Place) (v : State),
     fieldDue s c 5 = true →
     w = wordOf s c →
     tmqIs 2 w = true →
     u = atField s c 5 →
     x = ctx u c →
     k = queueArg (srcC x) →
     noQueueFor u x.pkt = false →
     k < 73728 →
     active u pgTMQ (if k < 65536 then TMQ_DS_EN else TMQ_US_EN) = true →
     standbyPort u k = false →
     admitIn u k (chargeFor u x.pkt) x.pkt.colour (ownCharge u x.pkt) = .ok →
     placeOf u k (chargeFor u x.pkt) = some pl →
     stackedBuf u k x.pkt true (tagCtx c) = some (h, v) →
     Completes (.tmqEnqueueReplica c) s (fun t =>
       (queueOf t k).frames = (queueOf u k).frames ++ [⟨h, x.pkt.len, chargeFor u x.pkt, pl, x.pkt.flow, x.pkt.bytes, 0, x.pkt.tag⟩] ∧
       (queueOf t k).occ = (queueOf u k).occ + chargeFor u x.pkt ∧
       t.tm.buf = v.tm.buf ∧
       t.freeCtr = v.freeCtr ∧
       TblOnly Queue.init k u.tm.q t.tm.q ∧
       ctx t c = { x.cond 12 false with tmq := .ready UnitRes.plain } ∧
       Only [.ctx, .queue, .node, .buf, .freeCtr, .regs, .cnt, .pmc, .trace] u t)) ∧
  (∀ (s : State) (c : CtxId) (w : BitVec 160) (u : State) (x : Ctx) (k : Nat),
     fieldDue s c 5 = true →
     w = wordOf s c →
     tmqIs 1 w = true →
     u = atField s c 5 →
     x = ctx u c →
     k = queueArg (srcC x) →
     noQueueFor u x.pkt = false →
     k < 65536 →
     active u pgTMQ TMQ_DS_EN = false →
     Completes (.tmqEnqueue c) s (fun t =>
       (ctx t c).tmq = .ready { UnitRes.plain with refused := true } ∧
       t.tm.q = tset Queue.init u.tm.q k (queueOf t k) ∧
       (queueOf t k).frames = (queueOf u k).frames ∧
       flagSet t pgTMQ TMQ_F_TAIL_DROP = true ∧
       Only [.ctx, .queue, .buf, .regs, .cnt, .pmc, .trace] u t)) ∧
  (∀ (s : State) (c : CtxId) (w : BitVec 160) (u : State) (x : Ctx) (k : Nat),
     fieldDue s c 5 = true →
     w = wordOf s c →
     tmqIs 2 w = true →
     u = atField s c 5 →
     x = ctx u c →
     k = queueArg (srcC x) →
     noQueueFor u x.pkt = false →
     k < 65536 →
     active u pgTMQ TMQ_DS_EN = false →
     Completes (.tmqEnqueueReplica c) s (fun t =>
       (ctx t c).tmq = .ready { UnitRes.plain with refused := true } ∧
       t.tm.q = tset Queue.init u.tm.q k (queueOf t k) ∧
       (queueOf t k).frames = (queueOf u k).frames ∧
       flagSet t pgTMQ TMQ_F_TAIL_DROP = true ∧
       Only [.ctx, .queue, .buf, .regs, .cnt, .pmc, .trace] u t)) ∧
  (∀ (s : State) (c : CtxId) (w : BitVec 160) (u : State) (x : Ctx),
     fieldDue s c 5 = true →
     w = wordOf s c →
     tmqIs 3 w = true →
     u = atField s c 5 →
     x = ctx u c →
     Completes (.tmqReadLevel c) s (fun t =>
       ctx t c = { x.cond 12 false with tmq := .ready { UnitRes.plain with dst := some (mwDstA w, (queueOf u (queueArg (srcC x))).occ) } } ∧
       CtxOnly c u t)) ∧
  (∀ (s : State) (c : CtxId) (w : BitVec 160) (u : State) (x : Ctx),
     fieldDue s c 5 = true →
     w = wordOf s c →
     tmqIs 4 w = true →
     u = atField s c 5 →
     x = ctx u c →
     Completes (.tmqReadBpLevel c) s (fun t =>
       ctx t c = { x.cond 12 false with tmq := .ready { UnitRes.plain with dst := some (mwDstA w, bpLevel u (queueArg (srcC x) % 65536)) } } ∧
       CtxOnly c u t)) ∧
  (∀ (s : State) (c : CtxId) (w : BitVec 160) (u : State) (x : Ctx) (k : Nat) (f : QFrame) (l : List QFrame),
     fieldDue s c 5 = true →
     w = wordOf s c →
     tmqIs 5 w = true →
     u = atField s c 5 →
     x = ctx u c →
     k = queueArg (srcC x) →
     (queueOf u k).frames = f :: l →
     l.any lostFrame = false →
     Completes (.tmqDequeue c) s (fun t =>
       (ctx t c).tmq = .ready UnitRes.plain ∧
       (ctx t c).pkt = { x.pkt with handle := some f.handle, len := f.len, bytes := f.bytes, flow := f.flow } ∧
       (ctx t c).hw = hwOf f.bytes ∧
       (queueOf t k).frames = l ∧
       (queueOf t k).occ = (queueOf u k).occ - f.charge ∧
       TblOnly Queue.init k u.tm.q t.tm.q ∧
       Only [.ctx, .queue, .node, .buf, .regs, .cnt, .pmc, .trace] u t)) ∧
  (∀ (s : State) (c : CtxId) (w : BitVec 160) (u : State) (x : Ctx),
     fieldDue s c 5 = true →
     w = wordOf s c →
     tmqIs 5 w = true →
     u = atField s c 5 →
     x = ctx u c →
     (queueOf u (queueArg (srcC x))).frames = [] →
     Completes (.tmqDequeue c) s (fun t =>
       ctx t c = { x.cond 12 false with tmq := .ready { UnitRes.plain with refused := true } } ∧
       CtxOnly c u t))

/-- On its turn a header operation replaces, inserts or removes bytes at the offset of the word, those of the ALU B result at its width (a tag is four bytes), or sets the length; the header window shows the packet's first 128 bytes and the request is outstanding (the byte order is the model's, log entry 28). A counter bump counts the packet in the block's counter that SRC_C selects, its length in the one beside it, or both. A microcode event is posted with its code by the ENG page. A flag operation sets, clears or toggles one of the context's eight flags. Nothing else changes. -/
def Obligations.HeaderCounterEventAndFlagFields : Prop :=
  (∀ (s : State) (c : CtxId) (w : BitVec 160) (u : State) (x : Ctx) (o n : Nat) (l : List Byte),
     fieldDue s c 6 = true →
     w = wordOf s c →
     hdrIs 1 w = true →
     u = atField s c 6 →
     x = ctx u c →
     o = mwHdrOfs w →
     n = aluWidth (mwAluB w) / 8 →
     l = x.pkt.bytes.take o ++ valueBytes (resB x) n ++ x.pkt.bytes.drop (o + n) →
     Completes (.hdrReplace c) s (fun t =>
       ctx t c = { x.cond 13 false with hw := hwOf l, hdr := .ready UnitRes.plain, pkt := { x.pkt with bytes := l, len := x.pkt.len } } ∧
       CtxOnly c u t)) ∧
  (∀ (s : State) (c : CtxId) (w : BitVec 160) (u : State) (x : Ctx) (o n : Nat) (l : List Byte),
     fieldDue s c 6 = true →
     w = wordOf s c →
     hdrIs 2 w = true →
     u = atField s c 6 →
     x = ctx u c →
     o = mwHdrOfs w →
     n = aluWidth (mwAluB w) / 8 →
     l = x.pkt.bytes.take o ++ valueBytes (resB x) n ++ x.pkt.bytes.drop o →
     Completes (.hdrInsert c) s (fun t =>
       ctx t c = { x.cond 13 false with hw := hwOf l, hdr := .ready UnitRes.plain, pkt := { x.pkt with bytes := l, len := x.pkt.len + n } } ∧
       CtxOnly c u t)) ∧
  (∀ (s : State) (c : CtxId) (w : BitVec 160) (u : State) (x : Ctx) (o n : Nat) (l : List Byte),
     fieldDue s c 6 = true →
     w = wordOf s c →
     hdrIs 3 w = true →
     u = atField s c 6 →
     x = ctx u c →
     o = mwHdrOfs w →
     n = aluWidth (mwAluB w) / 8 →
     l = x.pkt.bytes.take o ++ x.pkt.bytes.drop (o + n) →
     Completes (.hdrRemove c) s (fun t =>
       ctx t c = { x.cond 13 false with hw := hwOf l, hdr := .ready UnitRes.plain, pkt := { x.pkt with bytes := l, len := x.pkt.len - n } } ∧
       CtxOnly c u t)) ∧
  (∀ (s : State) (c : CtxId) (w : BitVec 160) (u : State) (x : Ctx) (o n : Nat) (l : List Byte),
     fieldDue s c 6 = true →
     w = wordOf s c →
     hdrIs 4 w = true →
     u = atField s c 6 →
     x = ctx u c →
     o = mwHdrOfs w →
     n = aluWidth (mwAluB w) / 8 →
     l = x.pkt.bytes.take o ++ valueBytes (resB x) 4 ++ x.pkt.bytes.drop o →
     Completes (.hdrPushTag c) s (fun t =>
       ctx t c = { x.cond 13 false with hw := hwOf l, hdr := .ready UnitRes.plain, pkt := { x.pkt with bytes := l, len := x.pkt.len + 4 } } ∧
       CtxOnly c u t)) ∧
  (∀ (s : State) (c : CtxId) (w : BitVec 160) (u : State) (x : Ctx) (o n : Nat) (l : List Byte),
     fieldDue s c 6 = true →
     w = wordOf s c →
     hdrIs 5 w = true →
     u = atField s c 6 →
     x = ctx u c →
     o = mwHdrOfs w →
     n = aluWidth (mwAluB w) / 8 →
     l = x.pkt.bytes.take o ++ x.pkt.bytes.drop (o + 4) →
     Completes (.hdrPopTag c) s (fun t =>
       ctx t c = { x.cond 13 false with hw := hwOf l, hdr := .ready UnitRes.plain, pkt := { x.pkt with bytes := l, len := x.pkt.len - 4 } } ∧
       CtxOnly c u t)) ∧
  (∀ (s : State) (c : CtxId) (w : BitVec 160) (u : State) (x : Ctx) (o n : Nat) (l : List Byte),
     fieldDue s c 6 = true →
     w = wordOf s c →
     hdrIs 6 w = true →
     u = atField s c 6 →
     x = ctx u c →
     o = mwHdrOfs w →
     n = aluWidth (mwAluB w) / 8 →
     l = x.pkt.bytes →
     Completes (.hdrSetLength c) s (fun t =>
       ctx t c = { x.cond 13 false with hw := hwOf l, hdr := .ready UnitRes.plain, pkt := { x.pkt with bytes := l, len := resB x % 2 ^ 16 } } ∧
       CtxOnly c u t)) ∧
  (∀ (s : State) (c : CtxId) (w : BitVec 160) (u : State) (x : Ctx) (d : Nat),
     fieldDue s c 7 = true →
     w = wordOf s c →
     (fun v => mwCnt v != 0) w = true →
     u = atField s c 7 →
     x = ctx u c →
     d = 2 * (64 * srcC x + mwCntBlock w) →
     Completes (.counterBump c) s (fun t =>
       tget dzero t.eng.ucnt d = (if bitAt (mwCnt w) 0 then min cntMax (tget dzero u.eng.ucnt d + 1) else tget dzero u.eng.ucnt d) ∧
       tget dzero t.eng.ucnt (d + 1) = (if bitAt (mwCnt w) 1 then min cntMax (tget dzero u.eng.ucnt (d + 1) + x.pkt.len) else tget dzero u.eng.ucnt (d + 1)) ∧
       (∀ j, j ≠ d → j ≠ d + 1 → tget dzero t.eng.ucnt j = tget dzero u.eng.ucnt j) ∧
       Only [.ucnt] u t)) ∧
  (∀ (s : State) (c : CtxId) (w : BitVec 160) (u : State) (x : Ctx),
     fieldDue s c 8 = true →
     w = wordOf s c →
     (fun v => mwEvt v != 0) w = true →
     u = atField s c 8 →
     x = ctx u c →
     isSet u (pgENG c.k) ANY_EVT_EN = true →
     u.evt.fifo.length < evtFifoMax →
     Completes (.microcodeEvent c) s (fun t =>
       Posted u t (pgENG c.k) (.micro (mwEvt w)) [] ∧
       Only [.regs, .cnt, .fifo, .pmc] u t)) ∧
  (∀ (s : State) (c : CtxId) (w : BitVec 160) (u : State) (x : Ctx),
     fieldDue s c 9 = true →
     w = wordOf s c →
     flgIs 1 w = true →
     u = atField s c 9 →
     x = ctx u c →
     Completes (.flagSet c) s (fun t =>
       ctx t c = { x with flags := x.flags ||| 2 ^ mwFlag w } ∧
       CtxOnly c u t)) ∧
  (∀ (s : State) (c : CtxId) (w : BitVec 160) (u : State) (x : Ctx),
     fieldDue s c 9 = true →
     w = wordOf s c →
     flgIs 2 w = true →
     u = atField s c 9 →
     x = ctx u c →
     Completes (.flagClear c) s (fun t =>
       ctx t c = { x with flags := x.flags &&& (255 - 2 ^ mwFlag w) } ∧
       CtxOnly c u t)) ∧
  (∀ (s : State) (c : CtxId) (w : BitVec 160) (u : State) (x : Ctx),
     fieldDue s c 9 = true →
     w = wordOf s c →
     flgIs 3 w = true →
     u = atField s c 9 →
     x = ctx u c →
     Completes (.flagToggle c) s (fun t =>
       ctx t c = { x with flags := x.flags ^^^ 2 ^ mwFlag w } ∧
       CtxOnly c u t))

/-- A sequencing command of a word of its code lets every field act, then goes on: GO at NEXT; WAIT at NEXT where the condition holds and else into WAITING; BR at NEXT or the following address; CALL pushes the following address, faulting with STACK at eight entries; RET pops, faulting when empty; MWAY adds the low four bits of the ALU A result to NEXT; LOOP counts the loop register down and branches until it is 0; TRAP faults the context. Whatever the code, MEM_CONFLICT (condition 7) holds for the word that follows a lost write and is clear after it (R150). At a safe point a pending interrupt calls entry vector 5, and a context that the host stops halts. A word with a reserved code lets every field act and then faults the context with ILLEGAL_WORD. A command of another code changes nothing. -/
def Obligations.Sequencing : Prop :=
  (∀ (s : State) (c : CtxId) (w : BitVec 160) (u : State) (x : Ctx),
     seqDue s c 0 = true →
     w = wordOf s c →
     u = atSeq s c →
     x = (ctx u c).cond 7 false →
     mwSafe w = false →
     Completes (.seqGo c) s (fun t =>
       ctx t c = { x with pc := mwNext w } ∧
       CtxOnly c u t)) ∧
  (∀ (s : State) (c : CtxId) (w : BitVec 160) (u : State) (x : Ctx),
     seqDue s c 0 = true →
     w = wordOf s c →
     u = atSeq s c →
     x = (ctx u c).cond 7 false →
     mwSafe w = true →
     x.irq = false →
     Completes (.seqGo c) s (fun t =>
       ctx t c = { x with pc := mwNext w, halted := x.stop } ∧
       CtxOnly c u t)) ∧
  (∀ (s : State) (c : CtxId) (w : BitVec 160) (u : State) (x : Ctx),
     seqDue s c 0 = true →
     w = wordOf s c →
     u = atSeq s c →
     x = (ctx u c).cond 7 false →
     mwSafe w = true →
     x.irq = true →
     x.stack.length < 8 →
     Completes (.seqGo c) s (fun t =>
       ctx t c = { x with pc := entryVector u c.k x.bank 5, stack := mwNext w :: x.stack, irq := false, halted := x.stop } ∧
       CtxOnly c u t)) ∧
  (∀ (s : State) (c : CtxId) (w : BitVec 160) (u : State) (x : Ctx),
     seqDue s c 1 = true →
     w = wordOf s c →
     u = atSeq s c →
     x = (ctx u c).cond 7 false →
     mwSafe w = false →
     wordCond u c w = true →
     Completes (.seqWait c) s (fun t =>
       ctx t c = { x with pc := mwNext w } ∧
       CtxOnly c u t)) ∧
  (∀ (s : State) (c : CtxId) (w : BitVec 160) (u : State) (x : Ctx),
     seqDue s c 1 = true →
     w = wordOf s c →
     u = atSeq s c →
     x = (ctx u c).cond 7 false →
     wordCond u c w = false →
     Completes (.seqWait c) s (fun t =>
       ctx t c = { x with st := 3, wait := some (mwWait w, mwPol w) } ∧
       CtxOnly c u t)) ∧
  (∀ (s : State) (c : CtxId) (w : BitVec 160) (u : State) (x : Ctx),
     seqDue s c 2 = true →
     w = wordOf s c →
     u = atSeq s c →
     x = (ctx u c).cond 7 false →
     mwSafe w = false →
     Completes (.seqBr c) s (fun t =>
       ctx t c = { x with pc := if wordCond u c w then mwNext w else (x.pc + 1) % 2 ^ 14 } ∧
       CtxOnly c u t)) ∧
  (∀ (s : State) (c : CtxId) (w : BitVec 160) (u : State) (x : Ctx),
     seqDue s c 3 = true →
     w = wordOf s c →
     u = atSeq s c →
     x = (ctx u c).cond 7 false →
     mwSafe w = false →
     x.stack.length < 8 →
     Completes (.seqCall c) s (fun t =>
       ctx t c = { x with pc := mwNext w, stack := ((x.pc + 1) % 2 ^ 14) :: x.stack } ∧
       CtxOnly c u t)) ∧
  (∀ (s : State) (c : CtxId) (w : BitVec 160) (u : State) (x : Ctx),
     seqDue s c 3 = true →
     w = wordOf s c →
     u = atSeq s c →
     x = (ctx u c).cond 7 false →
     8 ≤ x.stack.length →
     faultsAlone u c.k = true →
     Completes (.seqCall c) s (fun t =>
       Faulted u t c cStack)) ∧
  (∀ (s : State) (c : CtxId) (w : BitVec 160) (u : State) (x : Ctx) (a : Nat) (l : List Nat),
     seqDue s c 4 = true →
     w = wordOf s c →
     u = atSeq s c →
     x = (ctx u c).cond 7 false →
     mwSafe w = false →
     x.stack = a :: l →
     Completes (.seqRet c) s (fun t =>
       ctx t c = { x with pc := a % 2 ^ 14, stack := l } ∧
       CtxOnly c u t)) ∧
  (∀ (s : State) (c : CtxId) (w : BitVec 160) (u : State) (x : Ctx),
     seqDue s c 4 = true →
     w = wordOf s c →
     u = atSeq s c →
     x = (ctx u c).cond 7 false →
     x.stack = [] →
     faultsAlone u c.k = true →
     Completes (.seqRet c) s (fun t =>
       Faulted u t c cStack)) ∧
  (∀ (s : State) (c : CtxId) (w : BitVec 160) (u : State) (x : Ctx),
     seqDue s c 5 = true →
     w = wordOf s c →
     u = atSeq s c →
     x = (ctx u c).cond 7 false →
     mwSafe w = false →
     Completes (.seqMway c) s (fun t =>
       ctx t c = { x with pc := (mwNext w + x.prevA % 16) % 2 ^ 14 } ∧
       CtxOnly c u t)) ∧
  (∀ (s : State) (c : CtxId) (w : BitVec 160) (u : State) (x : Ctx) (n : Nat),
     seqDue s c 6 = true →
     w = wordOf s c →
     u = atSeq s c →
     x = (ctx u c).cond 7 false →
     mwSafe w = false →
     n = (x.loop + 2 ^ 64 - 1) % 2 ^ 64 →
     Completes (.seqLoop c) s (fun t =>
       ctx t c = { x with loop := n, pc := if n ≠ 0 then mwNext w else (x.pc + 1) % 2 ^ 14 } ∧
       CtxOnly c u t)) ∧
  (∀ (s : State) (c : CtxId) (w : BitVec 160) (u : State) (x : Ctx),
     seqDue s c 10 = true →
     w = wordOf s c →
     u = atSeq s c →
     x = (ctx u c).cond 7 false →
     faultsAlone u c.k = true →
     Completes (.seqTrap c) s (fun t =>
       Faulted u t c cTrap)) ∧
  (∀ (s : State) (i : Instr) (c : CtxId) (k : Nat),
     seqOf i = some (c, k) →
     mayIssue s c = true →
     (beginWord s c).2 = true →
     11 ≤ mwSeq (wordOf s c) →
     faultsAlone (atSeq s c) c.k = true →
     Completes (i) s (fun t =>
       Faulted (atSeq s c) t c cIllegal)) ∧
  (∀ (s : State) (i : Instr) (c : CtxId) (k : Nat),
     seqOf i = some (c, k) →
     mayIssue s c = false ∨ (mwSeq (wordOf s c) ≠ k ∧ mwSeq (wordOf s c) < 11) →
     Completes (i) s (fun t =>
       t = s))

/-- A waiting context whose condition holds with its polarity is READY at NEXT; how many cycles the wait took is free, at most what WAIT_TMO allows (log entry 3); a grid condition brings a running grid to its tick where the frame has it. A condition that does not hold, a context that does not wait, changes nothing. A timed wait that times out, the 1,024th word since a safe point, a word past RUN_MAX fault the context with their cause. A unit's answer that is on its way arrives: results in the registers, the unit idle, its completion condition 1, with the hit, pass, conflict or refusal it carries; where nothing is on its way, nothing happens. -/
def Obligations.WaitsGuardsAndCompletions : Prop :=
  (∀ (s : State) (c : CtxId) (w : BitVec 160) (x : Ctx) (n : Nat) (pol : Bool),
     x = ctx s c →
     w = wordOf s c →
     x.st = 3 →
     x.wait = some (n, pol) →
     n < 56 →
     condHolds s c n ≠ pol →
     mwSafe w = false →
     Completes (.waitConditionMet c) s (fun t =>
       ctx t c = { x with st := 1, wait := none, pc := mwNext w } ∧
       t.freeCtr = s.freeCtr + 1 ∧
       cntAt t (cntAddr (pgENG c.k) ENG_C_WAIT_CYCLES) = min cntMax (cntAt s (cntAddr (pgENG c.k) ENG_C_WAIT_CYCLES) + min (2 ^ fld s (pgENG c.k) ENG_WAIT_TMO - 1) (freeVal s)) ∧
       Only [.ctx, .freeCtr, .regs, .cnt, .pmc] s t)) ∧
  (∀ (s : State) (c : CtxId) (w : BitVec 160) (x : Ctx) (n : Nat) (pol : Bool) (g : Nat),
     x = ctx s c →
     w = wordOf s c →
     x.st = 3 →
     x.wait = some (n, false) →
     56 ≤ n →
     n ≠ 58 →
     n ≠ 59 →
     gridTick s c n = some g →
     s.grid.running = true →
     (now s).tick < g →
     tickInFrame s g = true →
     mwSafe w = false →
     pol = false →
     Completes (.waitConditionMet c) s (fun t =>
       now t = ⟨frame s, g, 0⟩ ∧
       (ctx t c).st = 1 ∧
       (ctx t c).wait = none ∧
       (ctx t c).pc = mwNext w ∧
       Only [.ctx, .grid, .freeCtr, .regs, .cnt, .pmc] s t)) ∧
  (∀ (s : State) (c : CtxId) (n : Nat) (pol : Bool),
     (ctx s c).st ≠ 3 ∨ ((ctx s c).wait = some (n, pol) ∧ n < 56 ∧ condHolds s c n = pol) →
     Completes (.waitConditionMet c) s (fun t =>
       t = s)) ∧
  (∀ (s : State) (c : CtxId) (n : Nat) (pol : Bool),
     (ctx s c).st = 3 →
     (ctx s c).wait = some (n, pol) →
     n < 56 →
     faultsAlone s c.k = true →
     Completes (.waitTimeout c) s (fun t =>
       Faulted s t c cWaitTmo ∧
       cntAt t (cntAddr (pgENG c.k) ENG_C_WAIT_CYCLES) = min cntMax (cntAt s (cntAddr (pgENG c.k) ENG_C_WAIT_CYCLES) + 2 ^ fld s (pgENG c.k) ENG_WAIT_TMO))) ∧
  (∀ (s : State) (c : CtxId) (n : Nat) (pol : Bool),
     (ctx s c).st ≠ 3 ∨ ((ctx s c).wait = some (n, pol) ∧ 56 ≤ n) →
     Completes (.waitTimeout c) s (fun t =>
       t = s)) ∧
  (∀ (s : State) (c : CtxId),
     mayIssue s c = true →
     (ctx s c).latch = none →
     1024 ≤ (ctx s c).sinceSafe + 1 →
     mwSafe (wordOf s c) = false →
     faultsAlone s c.k = true →
     Completes (.watchdog c) s (fun t =>
       Faulted s t c cWatchdog)) ∧
  (∀ (s : State) (c : CtxId),
     mayIssue s c = true →
     (ctx s c).latch = none →
     fld s (pgENG c.k) ENG_RUN_MAX ≠ 0 →
     fld s (pgENG c.k) ENG_RUN_MAX < (ctx s c).words + 1 →
     faultsAlone s c.k = true →
     Completes (.runOver c) s (fun t =>
       Faulted s t c cRunOver)) ∧
  (∀ (s : State) (i : Instr) (c : CtxId),
     i = .watchdog c ∨ i = .runOver c →
     mayIssue s c = false ∨ (i = .watchdog c ∧ (ctx s c).sinceSafe + 1 < 1024) ∨ (i = .runOver c ∧ fld s (pgENG c.k) ENG_RUN_MAX = 0) →
     Completes (i) s (fun t =>
       t = s)) ∧
  (∀ (s : State) (c : CtxId) (u : EngUnit) (x : Ctx) (r : UnitRes),
     x = ctx s c →
     x.out u = .ready r →
     r.dst = none →
     Completes (.unitCompletion c u) s (fun t =>
       ctx t c = raiseConds { x.clearOut u with lr := r.lr.foldl (fun a e => tset dzero a e.1 e.2) x.lr, gp := (match r.gp with | some (i, v) => tset dzero x.gp i v | none => x.gp), pkt := (match r.handle with | some h => { x.pkt with handle := h } | none => x.pkt) } u r ∧
       CtxOnly c s t)) ∧
  (∀ (s : State) (c : CtxId) (u : EngUnit) (x : Ctx) (r : UnitRes) (d v : Nat),
     x = ctx s c →
     x.out u = .ready r →
     r.dst = some (d, v) →
     d < 32 →
     Completes (.unitCompletion c u) s (fun t =>
       tget dzero (ctx t c).gp d = v ∧
       (ctx t c).out u = .idle ∧
       bitAt (ctx t c).conds (unitCond u) = true ∧
       CtxOnly c s t)) ∧
  (∀ (s : State) (c : CtxId) (u : EngUnit),
     (ctx s c).out u = .idle ∨ (ctx s c).out u = .waiting →
     Completes (.unitCompletion c u) s (fun t =>
       t = s))

/-- The end of a dispatch that holds a reorder slot leaves the context IDLE with nothing of the dispatch, is counted, and fills the slot with its verdict: to forward or punt the packet, whose buffer passes to the queue manager, or to drop it, whose buffer is freed. A sequence number 2,048 or more ahead fills nothing: SEQ_ERR, and the slot is free. A context without a slot forwards, punts or drops its packet at once. A release takes the filled slot of the next number of the source that has its slice's turn (R161): the number moves on, the slot is free, the verdict is counted, and the turn passes; where that slot is not filled or another source has the turn, nothing happens. -/
def Obligations.EndOfADispatch : Prop :=
  (∀ (s : State) (c : CtxId) (w : BitVec 160) (u : State) (x : Ctx) (p : Packet) (r : RdrSrc),
     seqDue s c 7 = true →
     w = wordOf s c →
     u = atSeq s c →
     x = ctx u c →
     x.slot = true →
     p = x.pkt →
     r = rdrSrc u p.src →
     seqBad r p.seq = false →
     Completes (.seqDone c) s (fun t =>
       ctx t c = x.ended ∧
       (rdrSrc t p.src).held.map (fun g => (g.seq, g.verdict)) = r.held.map (fun g => (g.seq, g.verdict)) ++ [(p.seq, Verdict.forward p)] ∧
       (rdrSrc t p.src).slots = r.slots ∧
       (rdrSrc t p.src).next = r.next ∧
       cntAt t (cntAddr (pgENG c.k) ENG_C_DONE) = min cntMax (cntAt u (cntAddr (pgENG c.k) ENG_C_DONE) + 1) ∧
       TblOnly RdrSrc.init p.src u.eng.rdr t.eng.rdr ∧
       (∀ h, p.handle = some h → (buf u h).holders.contains (tagCtx c) = true → (buf t h).holders = rdrParty p :: (buf u h).holders.erase (tagCtx c)) ∧
       Only [.ctx, .wait, .buf, .rdr, .regs, .cnt, .pmc] u t)) ∧
  (∀ (s : State) (c : CtxId) (w : BitVec 160) (u : State) (x : Ctx) (p : Packet) (r : RdrSrc),
     seqDue s c 8 = true →
     w = wordOf s c →
     u = atSeq s c →
     x = ctx u c →
     x.slot = true →
     p = x.pkt →
     r = rdrSrc u p.src →
     seqBad r p.seq = false →
     Completes (.seqDrop c) s (fun t =>
       ctx t c = x.ended ∧
       (rdrSrc t p.src).held.map (fun g => (g.seq, g.verdict)) = r.held.map (fun g => (g.seq, g.verdict)) ++ [(p.seq, Verdict.drop p.mark)] ∧
       (rdrSrc t p.src).slots = r.slots ∧
       (rdrSrc t p.src).next = r.next ∧
       cntAt t (cntAddr (pgENG c.k) ENG_C_DROPS) = min cntMax (cntAt u (cntAddr (pgENG c.k) ENG_C_DROPS) + 1) ∧
       TblOnly RdrSrc.init p.src u.eng.rdr t.eng.rdr ∧
       (∀ h, p.handle = some h → (buf u h).holders = [tagCtx c] → buf t h = Buf.init h) ∧
       Only [.ctx, .wait, .buf, .rdr, .regs, .cnt, .pmc] u t)) ∧
  (∀ (s : State) (c : CtxId) (w : BitVec 160) (u : State) (x : Ctx) (p : Packet) (r : RdrSrc),
     seqDue s c 9 = true →
     w = wordOf s c →
     u = atSeq s c →
     x = ctx u c →
     x.slot = true →
     p = x.pkt →
     r = rdrSrc u p.src →
     seqBad r p.seq = false →
     Completes (.seqPunt c) s (fun t =>
       ctx t c = x.ended ∧
       (rdrSrc t p.src).held.map (fun g => (g.seq, g.verdict)) = r.held.map (fun g => (g.seq, g.verdict)) ++ [(p.seq, Verdict.punt p)] ∧
       (rdrSrc t p.src).slots = r.slots ∧
       (rdrSrc t p.src).next = r.next ∧
       cntAt t (cntAddr (pgENG c.k) ENG_C_PUNTS) = min cntMax (cntAt u (cntAddr (pgENG c.k) ENG_C_PUNTS) + 1) ∧
       TblOnly RdrSrc.init p.src u.eng.rdr t.eng.rdr ∧
       (∀ h, p.handle = some h → (buf u h).holders.contains (tagCtx c) = true → (buf t h).holders = rdrParty p :: (buf u h).holders.erase (tagCtx c)) ∧
       Only [.ctx, .wait, .buf, .rdr, .regs, .cnt, .pmc] u t)) ∧
  (∀ (s : State) (i : Instr) (c : CtxId) (w : BitVec 160) (u : State) (x : Ctx) (p : Packet) (r : RdrSrc),
     i = .seqDone c →
     seqDue s c 7 = true →
     w = wordOf s c →
     u = atSeq s c →
     x = ctx u c →
     x.slot = true →
     p = x.pkt →
     r = rdrSrc u p.src →
     seqBad r p.seq = true →
     bitAt (react u (p.src % 16)) 2 = false →
     bitAt (react u (p.src % 16)) 3 = false →
     Completes (i) s (fun t =>
       ctx t c = x.ended ∧
       (rdrSrc t p.src).slots = r.slots - 1 ∧
       (rdrSrc t p.src).held = r.held ∧
       flagSet t (pgRDR (p.src % 16)) RDR_F_SEQ_ERR = true)) ∧
  (∀ (s : State) (i : Instr) (c : CtxId) (w : BitVec 160) (u : State) (x : Ctx) (p : Packet) (r : RdrSrc),
     i = .seqDrop c →
     seqDue s c 8 = true →
     w = wordOf s c →
     u = atSeq s c →
     x = ctx u c →
     x.slot = true →
     p = x.pkt →
     r = rdrSrc u p.src →
     seqBad r p.seq = true →
     bitAt (react u (p.src % 16)) 2 = false →
     bitAt (react u (p.src % 16)) 3 = false →
     Completes (i) s (fun t =>
       ctx t c = x.ended ∧
       (rdrSrc t p.src).slots = r.slots - 1 ∧
       (rdrSrc t p.src).held = r.held ∧
       flagSet t (pgRDR (p.src % 16)) RDR_F_SEQ_ERR = true)) ∧
  (∀ (s : State) (i : Instr) (c : CtxId) (w : BitVec 160) (u : State) (x : Ctx) (p : Packet) (r : RdrSrc),
     i = .seqPunt c →
     seqDue s c 9 = true →
     w = wordOf s c →
     u = atSeq s c →
     x = ctx u c →
     x.slot = true →
     p = x.pkt →
     r = rdrSrc u p.src →
     seqBad r p.seq = true →
     bitAt (react u (p.src % 16)) 2 = false →
     bitAt (react u (p.src % 16)) 3 = false →
     Completes (i) s (fun t =>
       ctx t c = x.ended ∧
       (rdrSrc t p.src).slots = r.slots - 1 ∧
       (rdrSrc t p.src).held = r.held ∧
       flagSet t (pgRDR (p.src % 16)) RDR_F_SEQ_ERR = true)) ∧
  (∀ (s : State) (c : CtxId) (w : BitVec 160) (u : State) (x : Ctx),
     seqDue s c 7 = true →
     w = wordOf s c →
     u = atSeq s c →
     x = ctx u c →
     x.slot = false →
     x.pkt.handle = none →
     Completes (.seqDone c) s (fun t =>
       ctx t c = x.ended ∧
       Only [.ctx, .wait, .regs, .cnt, .pmc] u t)) ∧
  (∀ (s : State) (c : CtxId) (w : BitVec 160) (u : State) (x : Ctx),
     seqDue s c 8 = true →
     w = wordOf s c →
     u = atSeq s c →
     x = ctx u c →
     x.slot = false →
     x.pkt.handle = none →
     Completes (.seqDrop c) s (fun t =>
       ctx t c = x.ended ∧
       Only [.ctx, .wait, .regs, .cnt, .pmc] u t)) ∧
  (∀ (s : State) (c : CtxId) (w : BitVec 160) (u : State) (x : Ctx) (f : HostFrame),
     seqDue s c 9 = true →
     w = wordOf s c →
     u = atSeq s c →
     x = ctx u c →
     x.slot = false →
     x.pkt.handle = none →
     f = toHostFrame x.pkt →
     slicesRings u f.slice = [3] →
     (ring u 3).state = 1 →
     (ring u 3).dir = 1 →
     (ring u 3).frames.length < (ring u 3).posted →
     Completes (.seqPunt c) s (fun t =>
       ctx t c = x.ended ∧
       ring t 3 = { ring u 3 with frames := (ring u 3).frames ++ [f] } ∧
       Only [.ctx, .wait, .ring, .regs, .cnt, .pmc] u t)) ∧
  (∀ (s : State) (src : Fin 17440) (h : Held) (r : RdrSrc),
     r = rdrSrc s src →
     r.held.find? (fun g => g.seq == r.next) = some h →
     rdrTurn s (src.val % 16) = some src.val →
     Completes (.reorderRelease src) s (fun t =>
       rdrSrc t src = { r with held := r.held.erase h, next := (r.next + 1) % 65536, slots := r.slots - 1 } ∧
       TblOnly RdrSrc.init src s.eng.rdr t.eng.rdr ∧
       (fun i => cntAt t (cntAddr (pgRDR (src.val % 16)) i) = min cntMax (cntAt s (cntAddr (pgRDR (src.val % 16)) i) + 1)) (match h.verdict with | .forward _ => RDR_C_RELEASED | .punt _ => RDR_C_PUNTED | .drop _ => RDR_C_DROPPED | .skip _ => RDR_C_SKIPPED) ∧
       tget dzero t.eng.rdrPick (src.val % 16) = src.val + 1 ∧
       Only [.rdr, .rdrPick, .regs, .cnt, .pmc, .trace, .buf, .queue, .node, .freeCtr, .wait, .ring] s t)) ∧
  (∀ (s : State) (src : Fin 17440),
     (rdrSrc s src).held.find? (fun g => g.seq == (rdrSrc s src).next) = none ∨ rdrTurn s (src.val % 16) ≠ some src.val →
     Completes (.reorderRelease src) s (fun t =>
       t = s))

/-- A landing frame of a direction its source has enters the landing queue as the newest packet, with the next sequence number of its source and either its quarantine buffer, now the landing stage's, or a buffer that the pools give; a frame that finds no buffer waits in the queue of its pool when its requester may, and is otherwise refused. Dispatch takes the oldest landed packet and the next IDLE context in order when fewer than 2,048 slots are held: the context is READY at the entry vector of its direction in the active bank, with the packet (with the default class and colour where it is malformed), its header bytes and parse record; a slot of its source is held. A malformed packet whose cause says drop or punt ends at once with that verdict. -/
def Obligations.LandingAndDispatch : Prop :=
  (∀ (s : State) (src : Fin 17440) (d : Dir) (len : Nat) (bytes : List Byte),
     srcDir src ≠ some d →
     Completes (.packetLanding src d len bytes) s (fun t =>
       t = s)) ∧
  (∀ (s : State) (src : Fin 17440) (d : Dir) (len : Nat) (bytes : List Byte) (h : Nat),
     srcDir src = some d →
     (takeArrival s src len bytes).2.handle = some h →
     Completes (.packetLanding src d len bytes) s (fun t =>
       t.eng.landing.map (fun p => (p.src, p.seq, p.dir)) = s.eng.landing.map (fun p => (p.src, p.seq, p.dir)) ++ [(src.val, (rdrSrc s src).seq, d)] ∧
       t.eng.landing.map (fun p => (p.len, p.bytes, p.handle)) = s.eng.landing.map (fun p => (p.len, p.bytes, p.handle)) ++ [(len, bytes, some h)] ∧
       rdrSrc t src = { rdrSrc s src with seq := ((rdrSrc s src).seq + 1) % 65536 } ∧
       TblOnly RdrSrc.init src s.eng.rdr t.eng.rdr ∧
       Only [.landing, .rdr, .buf, .freeCtr, .regs, .cnt, .pmc, .trace, .marks, .upSdu, .rx, .h2d, .eth] s t)) ∧
  (∀ (s : State) (src : Fin 17440) (d : Dir) (len : Nat) (bytes : List Byte) (h : Nat) (v : State),
     srcDir src = some d →
     (takeArrival s src len bytes).2.handle = none →
     askBytes (takeArrival s src len bytes).1 (landingReq d) (tagLanding (landingReq d)) 0 len = some (h, v) →
     Completes (.packetLanding src d len bytes) s (fun t =>
       t.eng.landing.map (fun p => (p.src, p.seq, p.dir)) = s.eng.landing.map (fun p => (p.src, p.seq, p.dir)) ++ [(src.val, (rdrSrc s src).seq, d)] ∧
       t.eng.landing.map (fun p => (p.len, p.bytes, p.handle)) = s.eng.landing.map (fun p => (p.len, p.bytes, p.handle)) ++ [(len, bytes, some h)] ∧
       rdrSrc t src = { rdrSrc s src with seq := ((rdrSrc s src).seq + 1) % 65536 } ∧
       TblOnly RdrSrc.init src s.eng.rdr t.eng.rdr ∧
       Only [.landing, .rdr, .buf, .freeCtr, .regs, .cnt, .pmc, .trace, .marks, .upSdu, .rx, .h2d, .eth] s t ∧
       t.tm.buf = v.tm.buf)) ∧
  (∀ (s : State) (src : Fin 17440) (d : Dir) (len : Nat) (bytes : List Byte),
     srcDir src = some d →
     (takeArrival s src len bytes).2.handle = none →
     askBytes (takeArrival s src len bytes).1 (landingReq d) (tagLanding (landingReq d)) 0 len = none →
     isSet s pgBPM (BPM_WAIT.at (landingReq d)) = false →
     Completes (.packetLanding src d len bytes) s (fun t =>
       t.eng.landing = s.eng.landing ∧
       t.eng.rdr = s.eng.rdr ∧
       flagSet t pgBPM BPM_F_REFUSED = true)) ∧
  (∀ (s : State) (src : Fin 17440) (d : Dir) (len : Nat) (bytes : List Byte) (p : Nat),
     srcDir src = some d →
     (takeArrival s src len bytes).2.handle = none →
     askBytes (takeArrival s src len bytes).1 (landingReq d) (tagLanding (landingReq d)) 0 len = none →
     isSet s pgBPM (BPM_WAIT.at (landingReq d)) = true →
     p = poolFor (landingReq d) len →
     (waitQ s p).length < waitMax →
     Completes (.packetLanding src d len bytes) s (fun t =>
       t.eng.landing = s.eng.landing ∧
       t.eng.rdr = s.eng.rdr ∧
       waitQ t p = waitQ s p ++ [⟨landingReq d, len, .landing src len bytes (takeArrival s src len bytes).2.at_ (takeArrival s src len bytes).2.meta_⟩] ∧
       TblOnly dnil p s.tm.wait t.tm.wait ∧
       cntAt t (cntAddr pgBPM BPM_C_WAITS) = min cntMax (cntAt s (cntAddr pgBPM BPM_C_WAITS) + 1))) ∧
  (∀ (s : State) (p : Packet) (l : List Packet) (c : CtxId) (n : Nat) (b : Bool) (v : Nat),
     s.eng.landing = p :: l →
     nextCtx s (dispatchOrder s) s.eng.turn = some (c, n) →
     slotsHeld s < 2048 →
     p.record % 2 = 0 ∨ 2 ≤ causeAction s p →
     b = isSet s (pgUCS c.k) UCS_ACTIVE_BANK →
     v = entryVector s c.k b (dirCode p.dir) →
     v < imageLen s c.k b →
     Completes (.packetDispatch) s (fun t =>
       ((ctx t c).st, (ctx t c).pc, (ctx t c).bank, (ctx t c).slot, (ctx t c).pkt) = (1, v, b, true, if p.record % 2 = 0 then p else { p with cls := fld s pgPRS PRS_DEF_CLASS, colour := fld s pgPRS PRS_DEF_COLOUR }) ∧
       (ctx t c).hw = hwOf p.bytes ∧
       tget dzero (ctx t c).lr 30 = p.record / 2 ^ 32 ∧
       tget dzero (ctx t c).lr 31 = p.record % 2 ^ 32 ∧
       (rdrSrc t p.src).slots = (rdrSrc s p.src).slots + 1 ∧
       TblOnly RdrSrc.init p.src s.eng.rdr t.eng.rdr ∧
       TblOnly Ctx.init (ctxKey c) s.eng.ctx t.eng.ctx ∧
       t.eng.landing = l ∧
       t.eng.turn = n ∧
       (rdrSrc t p.src).next = (rdrSrc s p.src).next ∧
       cntAt t (cntAddr (pgENG c.k) ENG_C_DISPATCHES) = min cntMax (cntAt s (cntAddr (pgENG c.k) ENG_C_DISPATCHES) + 1) ∧
       Only [.ctx, .landing, .turn, .rdr, .buf, .regs, .cnt, .pmc, .trace] s t)) ∧
  (∀ (s : State) (p : Packet) (l : List Packet) (c : CtxId) (n : Nat) (b : Bool),
     s.eng.landing = p :: l →
     nextCtx s (dispatchOrder s) s.eng.turn = some (c, n) →
     slotsHeld s < 2048 →
     p.record % 2 = 0 ∨ 2 ≤ causeAction s p →
     b = isSet s (pgUCS c.k) UCS_ACTIVE_BANK →
     imageLen s c.k b ≤ entryVector s c.k b (dirCode p.dir) →
     faultsAlone s c.k = true →
     Completes (.packetDispatch) s (fun t =>
       Faulted s t c cIllegal ∧
       t.eng.landing = l ∧
       t.eng.turn = n ∧
       (rdrSrc t p.src).next = (rdrSrc s p.src).next ∧
       cntAt t (cntAddr (pgENG c.k) ENG_C_DISPATCHES) = min cntMax (cntAt s (cntAddr (pgENG c.k) ENG_C_DISPATCHES) + 1))) ∧
  (∀ (s : State) (p : Packet) (l : List Packet) (c : CtxId) (n : Nat),
     s.eng.landing = p :: l →
     nextCtx s (dispatchOrder s) s.eng.turn = some (c, n) →
     slotsHeld s < 2048 →
     p.record % 2 = 1 →
     causeAction s p = 0 →
     seqBad (rdrSrc s p.src) p.seq = false →
     Completes (.packetDispatch) s (fun t =>
       (ctx t c).st = 0 ∧
       (rdrSrc t p.src).held.map (fun g => (g.seq, g.verdict)) = (rdrSrc s p.src).held.map (fun g => (g.seq, g.verdict)) ++ [(p.seq, .drop p.mark)] ∧
       (rdrSrc t p.src).slots = (rdrSrc s p.src).slots + 1 ∧
       t.eng.landing = l ∧
       t.eng.turn = n ∧
       (rdrSrc t p.src).next = (rdrSrc s p.src).next ∧
       cntAt t (cntAddr (pgENG c.k) ENG_C_DISPATCHES) = min cntMax (cntAt s (cntAddr (pgENG c.k) ENG_C_DISPATCHES) + 1))) ∧
  (∀ (s : State) (p : Packet) (l : List Packet) (c : CtxId) (n : Nat),
     s.eng.landing = p :: l →
     nextCtx s (dispatchOrder s) s.eng.turn = some (c, n) →
     slotsHeld s < 2048 →
     p.record % 2 = 1 →
     causeAction s p = 1 →
     seqBad (rdrSrc s p.src) p.seq = false →
     Completes (.packetDispatch) s (fun t =>
       (ctx t c).st = 0 ∧
       (rdrSrc t p.src).held.map (fun g => (g.seq, g.verdict)) = (rdrSrc s p.src).held.map (fun g => (g.seq, g.verdict)) ++ [(p.seq, .punt p)] ∧
       (rdrSrc t p.src).slots = (rdrSrc s p.src).slots + 1 ∧
       t.eng.landing = l ∧
       t.eng.turn = n ∧
       (rdrSrc t p.src).next = (rdrSrc s p.src).next ∧
       cntAt t (cntAddr (pgENG c.k) ENG_C_DISPATCHES) = min cntMax (cntAt s (cntAddr (pgENG c.k) ENG_C_DISPATCHES) + 1))) ∧
  (∀ (s : State) (p : Packet) (l : List Packet) (c : CtxId) (n : Nat),
     s.eng.landing = p :: l →
     nextCtx s (dispatchOrder s) s.eng.turn = some (c, n) →
     2048 ≤ slotsHeld s →
     Completes (.packetDispatch) s (fun t =>
       flagSet t (pgRDR (p.src % 16)) RDR_F_SLOT_WAIT = true ∧
       Only alerts s t)) ∧
  (∀ (s : State),
     s.eng.landing = [] ∨ nextCtx s (dispatchOrder s) s.eng.turn = none →
     Completes (.packetDispatch) s (fun t =>
       t = s))

/-- An accepted write of data word 4 joins it to the four words before it and stores the microword at LOAD_ADDR of the inactive bank; LOAD_ADDR steps on, CALC_CRC shows the CRC of the image's LOAD_LEN words, the word is counted. While a swap is pending (code 8), or beyond LOAD_LEN (code 1), nothing is stored and LOAD_REJ is set. A read shows the five words of the addressed microword. A swap needs CALC_CRC equal to LOAD_CRC and no swap pending: the other bank is active for dispatches to come and the swap is pending; otherwise code 8 and SWAP_REJ. It is done when no context of the cluster runs in the old bank and no allocation pass begun in it is open. -/
def Obligations.ControlStore : Prop :=
  (∀ (s : State) (o : Origin) (k : Fin 16) (data : Word) (a n : Nat) (i : Bool),
     addrReject s o (pgUCS k + UCS_LOAD_DATA0_4.off + 16) = none →
     isSet s (pgUCS k) UCS_SWAP_PENDING = false →
     a = fld s (pgUCS k) UCS_LOAD_ADDR →
     n = fld s (pgUCS k) UCS_LOAD_LEN →
     a < n →
     i = inactiveB s k →
     Completes (.ucsLoadWord o k data) s (fun t =>
       bankOf t k i = tset dword (bankOf s k i) a (joinWord ((cluster s k).loadWord ++ [data])) ∧
       bankOf t k (!i) = bankOf s k (!i) ∧
       TblOnly Cluster.init k s.eng.cl t.eng.cl ∧
       fld t (pgUCS k) UCS_LOAD_ADDR = (a + 1) % 2 ^ 14 ∧
       fld t (pgUCS k) UCS_CALC_CRC = imageCrc (bankOf t k i) n ∧
       cntAt t (cntAddr (pgUCS k) UCS_C_WORDS_LOADED) = min cntMax (cntAt s (cntAddr (pgUCS k) UCS_C_WORDS_LOADED) + 1) ∧
       Answered s t o 0 (pgUCS k + UCS_LOAD_DATA0_4.off + 16) ∧
       RegsOnly bookPages [pgUCS k + UCS_LOAD_ADDR.off, pgUCS k + UCS_CALC_CRC.off] s t ∧
       Only (.cluster :: books) s t)) ∧
  (∀ (s : State) (o : Origin) (k : Fin 16) (data : Word),
     addrReject s o (pgUCS k + UCS_LOAD_DATA0_4.off + 16) = none →
     isSet s (pgUCS k) UCS_SWAP_PENDING = true →
     Completes (.ucsLoadWord o k data) s (fun t =>
       flagSet t (pgUCS k) UCS_F_LOAD_REJ = true ∧
       Answered s t o 8 (pgUCS k + UCS_LOAD_DATA0_4.off + 16) ∧
       Only books s t)) ∧
  (∀ (s : State) (o : Origin) (k : Fin 16) (data : Word),
     addrReject s o (pgUCS k + UCS_LOAD_DATA0_4.off + 16) = none →
     isSet s (pgUCS k) UCS_SWAP_PENDING = false →
     fld s (pgUCS k) UCS_LOAD_LEN ≤ fld s (pgUCS k) UCS_LOAD_ADDR →
     Completes (.ucsLoadWord o k data) s (fun t =>
       flagSet t (pgUCS k) UCS_F_LOAD_REJ = true ∧
       Answered s t o 1 (pgUCS k + UCS_LOAD_DATA0_4.off + 16) ∧
       Only books s t)) ∧
  (∀ (s : State) (o : Origin) (k : Fin 16) (data : Word),
     addrReject s o (pgUCS k + UCS_RD_ADDR.off) = none →
     Completes (.ucsReadWord o k data) s (fun t =>
       wordsAt t (pgUCS k + UCS_RD_DATA0_4.off) 5 = splitWord (tget dword (bankOf s k (bitsOf data 16 1 == 1)) (bitsOf data 0 14)) ∧
       fld t (pgUCS k) UCS_RD_ADDR = bitsOf data 0 14 ∧
       fld t (pgUCS k) UCS_RD_BANK = bitsOf data 16 1 ∧
       Answered s t o 0 (pgUCS k + UCS_RD_ADDR.off) ∧
       Only books s t)) ∧
  (∀ (s : State) (o : Origin) (k : Fin 16) (b : Bool),
     addrReject s o (pgUCS k + UCS_SWAP_CMD.off) = none →
     isSet s (pgUCS k) UCS_SWAP_PENDING = false →
     fld s (pgUCS k) UCS_CALC_CRC = fld s (pgUCS k) UCS_LOAD_CRC →
     b = isSet s (pgUCS k) UCS_ACTIVE_BANK →
     Completes (.swapCmd o k) s (fun t =>
       isSet t (pgUCS k) UCS_ACTIVE_BANK = !b ∧
       isSet t (pgUCS k) UCS_SWAP_PENDING = true ∧
       imageLen t k (!b) = fld s (pgUCS k) UCS_LOAD_LEN ∧
       imageLen t k b = imageLen s k b ∧
       (cluster t k).oldBank = b ∧
       t.eng.ctx = s.eng.ctx ∧
       cntAt t (cntAddr (pgUCS k) UCS_C_SWAPS) = min cntMax (cntAt s (cntAddr (pgUCS k) UCS_C_SWAPS) + 1) ∧
       Answered s t o 0 (pgUCS k + UCS_SWAP_CMD.off) ∧
       RegsOnly bookPages [pgUCS k + UCS_ACTIVE_BANK.off] s t ∧
       Only (.cluster :: books) s t)) ∧
  (∀ (s : State) (o : Origin) (k : Fin 16),
     addrReject s o (pgUCS k + UCS_SWAP_CMD.off) = none →
     isSet s (pgUCS k) UCS_SWAP_PENDING = true ∨ fld s (pgUCS k) UCS_CALC_CRC ≠ fld s (pgUCS k) UCS_LOAD_CRC →
     Completes (.swapCmd o k) s (fun t =>
       flagSet t (pgUCS k) UCS_F_SWAP_REJ = true ∧
       Answered s t o 8 (pgUCS k + UCS_SWAP_CMD.off) ∧
       Only books s t)) ∧
  (∀ (s : State) (k : Fin 16),
     isSet s (pgUCS k) UCS_SWAP_PENDING = true →
     passRuns s k = false →
     (clusterCtxs k).all (fun c => (ctx s c).st == 0 || (ctx s c).bank != (cluster s k).oldBank) = true →
     Completes (.swapDone k) s (fun t =>
       isSet t (pgUCS k) UCS_SWAP_PENDING = false ∧
       isSet t (pgUCS k) UCS_ACTIVE_BANK = isSet s (pgUCS k) UCS_ACTIVE_BANK ∧
       flagSet t (pgUCS k) UCS_F_SWAP_DONE = true ∧
       Only alerts s t)) ∧
  (∀ (s : State) (k : Fin 16),
     isSet s (pgUCS k) UCS_SWAP_PENDING = false ∨ (clusterCtxs k).any (fun c => (ctx s c).st != 0 && (ctx s c).bank == (cluster s k).oldBank) = true →
     Completes (.swapDone k) s (fun t =>
       t = s))

/-- A retire with a free spare makes the spare stand for the engine, which drains; without one, code 8 and SPARE_REJ. A reinstate of the engine the spare stands for ends that and drains the spare; of another engine, code 8. An engine that drains with its four contexts IDLE has drained; one under check by the regulation pass then begins its check routine at entry vector 6. A lost engine faults its four contexts with FENCED; a free spare takes its place where AUTO_SPARE is set, otherwise ENGINE_LOST is set. A role map with three allocation clusters, one supervision cluster and no reserved code is taken and applies at the second frame boundary after the write; another has code 1 and ROLE_REJ. Applying gives every cluster its role and sets ROLE_DONE. -/
def Obligations.SparesAndRoles : Prop :=
  (∀ (s : State) (o : Origin) (k : Fin 16) (e : Fin 32),
     addrReject s o (pgENG k + ENG_SPARE_CMD.off) = none →
     spareFree s k = true →
     Completes (.spareRetire o k e) s (fun t =>
       fld t (pgENG k) ENG_SPARE_FOR = e.val ∧
       isSet t (pgENG k) ENG_DRAINING = true ∧
       (cluster t k).leaving = some e.val ∧
       cntAt t (cntAddr (pgENG k) ENG_C_SPARE_SWAPS) = min cntMax (cntAt s (cntAddr (pgENG k) ENG_C_SPARE_SWAPS) + 1) ∧
       Answered s t o 0 (pgENG k + ENG_SPARE_CMD.off) ∧
       RegsOnly bookPages [pgENG k + ENG_SPARE_FOR.off] s t ∧
       Only (.cluster :: books) s t)) ∧
  (∀ (s : State) (o : Origin) (k : Fin 16) (e : Fin 32),
     addrReject s o (pgENG k + ENG_SPARE_CMD.off) = none →
     spareFree s k = false →
     Completes (.spareRetire o k e) s (fun t =>
       flagSet t (pgENG k) ENG_F_SPARE_REJ = true ∧
       Answered s t o 8 (pgENG k + ENG_SPARE_CMD.off) ∧
       Only books s t)) ∧
  (∀ (s : State) (o : Origin) (k : Fin 16) (e : Fin 32),
     addrReject s o (pgENG k + ENG_SPARE_CMD.off) = none →
     fld s (pgENG k) ENG_SPARE_FOR = e.val →
     Completes (.spareReinstate o k e) s (fun t =>
       fld t (pgENG k) ENG_SPARE_FOR = 63 ∧
       isSet t (pgENG k) ENG_DRAINING = true ∧
       (cluster t k).leaving = some 32 ∧
       (cluster t k).lost.contains e.val = false ∧
       Answered s t o 0 (pgENG k + ENG_SPARE_CMD.off) ∧
       RegsOnly bookPages [pgENG k + ENG_SPARE_FOR.off] s t ∧
       Only (.cluster :: books) s t)) ∧
  (∀ (s : State) (o : Origin) (k : Fin 16) (e : Fin 32),
     addrReject s o (pgENG k + ENG_SPARE_CMD.off) = none →
     fld s (pgENG k) ENG_SPARE_FOR ≠ e.val →
     Completes (.spareReinstate o k e) s (fun t =>
       Answered s t o 8 (pgENG k + ENG_SPARE_CMD.off) ∧
       Only books s t)) ∧
  (∀ (s : State) (k : Fin 16) (e : Fin 33),
     (cluster s k).leaving = some e.val →
     (ctxsOf k e).all (fun c => (ctx s c).st == 0) = true →
     checked s k ≠ some e.val →
     Completes (.engineDrained k e) s (fun t =>
       (cluster t k).leaving = none ∧
       isSet t (pgENG k) ENG_DRAINING = false ∧
       RegsOnly [] [pgENG k + ENG_DRAINING.off] s t ∧
       Only [.cluster, .regs] s t)) ∧
  (∀ (s : State) (k : Fin 16) (e : Fin 33) (b : Bool),
     (cluster s k).leaving = some e.val →
     (ctxsOf k e).all (fun c => (ctx s c).st == 0) = true →
     checked s k = some e.val →
     b = isSet s (pgUCS k) UCS_ACTIVE_BANK →
     entryVector s k b 6 < imageLen s k b →
     Completes (.engineDrained k e) s (fun t =>
       (cluster t k).leaving = none ∧
       isSet t (pgENG k) ENG_DRAINING = false ∧
       ctx t ⟨k, e, 0⟩ = { ctx s ⟨k, e, 0⟩ with st := 1, pc := entryVector s k b 6, bank := b } ∧
       cntAt t (cntAddr (pgENG k) ENG_C_DISPATCHES) = min cntMax (cntAt s (cntAddr (pgENG k) ENG_C_DISPATCHES) + 1) ∧
       CtxOnly ⟨k, e, 0⟩ (setBit (setCluster (bump s (pgENG k) ENG_C_DISPATCHES 1) k { cluster s k with leaving := none }) (pgENG k) ENG_DRAINING false) t)) ∧
  (∀ (s : State) (k : Fin 16) (e : Fin 33),
     (cluster s k).leaving ≠ some e.val ∨ (ctxsOf k e).any (fun c => (ctx s c).st != 0) = true →
     Completes (.engineDrained k e) s (fun t =>
       t = s)) ∧
  (∀ (s : State) (k : Fin 16) (e : Fin 33),
     e.val < 32 →
     faultsAlone s k = true →
     spareFree s k = true →
     isSet s (pgENG k) ENG_AUTO_SPARE = true →
     Completes (.engineLost k e) s (fun t =>
       (cluster t k).lost.contains e.val = true ∧
       (ctxsOf k e).all (fun c => (ctx t c).st == 0 && (ctx t c).cause == cFenced) = true ∧
       fld t (pgENG k) ENG_SPARE_FOR = e.val ∧
       isSet t (pgENG k) ENG_DRAINING = true)) ∧
  (∀ (s : State) (k : Fin 16) (e : Fin 33),
     faultsAlone s k = true →
     fld s (pgENG k) ENG_SPARE_FOR ≠ e.val →
     e.val = 32 ∨ isSet s (pgENG k) ENG_AUTO_SPARE = false →
     Completes (.engineLost k e) s (fun t =>
       (cluster t k).lost.contains e.val = true ∧
       (ctxsOf k e).all (fun c => (ctx t c).st == 0 && (ctx t c).cause == cFenced) = true ∧
       fld t (pgENG k) ENG_SPARE_FOR = fld s (pgENG k) ENG_SPARE_FOR ∧
       flagSet t (pgENG k) ENG_F_ENGINE_LOST = true)) ∧
  (∀ (s : State) (o : Origin) (data : Word),
     addrReject s o (pgDEV + DEV_ROLE_MAP.off) = none →
     data ≠ reg s (pgDEV + DEV_ROLE_MAP.off) →
     isSet s pgDEV ANY_LOCK = false →
     rolesOk data = true →
     Completes (.roleMapWrite o data) s (fun t =>
       reg t (pgDEV + DEV_ROLE_MAP.off) = data ∧
       t.eng.roles = some (data, frame s + 2) ∧
       (List.range 16).all (fun j => roleOf t j == roleOf s j) = true ∧
       EnteredAs s t o 0 (pgDEV + DEV_ROLE_MAP.off) (reg s (pgDEV + DEV_ROLE_MAP.off)) data allOnes ∧
       RegsOnly bookPages [pgDEV + DEV_ROLE_MAP.off] s t ∧
       Only (.roles :: books) s t)) ∧
  (∀ (s : State) (o : Origin) (data : Word),
     addrReject s o (pgDEV + DEV_ROLE_MAP.off) = none →
     data ≠ reg s (pgDEV + DEV_ROLE_MAP.off) →
     isSet s pgDEV ANY_LOCK = false →
     rolesOk data = false →
     Completes (.roleMapWrite o data) s (fun t =>
       flagSet t pgDEV DEV_F_ROLE_REJ = true ∧
       reg t (pgDEV + DEV_ROLE_MAP.off) = reg s (pgDEV + DEV_ROLE_MAP.off) ∧
       Answered s t o 1 (pgDEV + DEV_ROLE_MAP.off) ∧
       Only books s t)) ∧
  (∀ (s : State) (o : Origin) (data : Word),
     addrReject s o (pgDEV + DEV_ROLE_MAP.off) = none →
     data ≠ reg s (pgDEV + DEV_ROLE_MAP.off) →
     isSet s pgDEV ANY_LOCK = true →
     Completes (.roleMapWrite o data) s (fun t =>
       reg t (pgDEV + DEV_ROLE_MAP.off) = reg s (pgDEV + DEV_ROLE_MAP.off) ∧
       Answered s t o 3 (pgDEV + DEV_ROLE_MAP.off) ∧
       Only books s t)) ∧
  (∀ (s : State) (w : Word) (f : Nat),
     s.eng.roles = some (w, f) →
     f ≤ frame s →
     Completes (.roleChangeApply) s (fun t =>
       t.eng.roles = none ∧
       (List.range 16).all (fun j => roleOf t j == mapRole w j) = true ∧
       flagSet t pgDEV DEV_F_ROLE_DONE = true ∧
       cntAt t (cntAddr pgDEV DEV_C_ROLE_CHANGES) = min cntMax (cntAt s (cntAddr pgDEV DEV_C_ROLE_CHANGES) + 1) ∧
       Only (.roles :: alerts) s t)) ∧
  (∀ (s : State),
     s.eng.roles.all (fun x => decide (frame s < x.2)) = true →
     Completes (.roleChangeApply) s (fun t =>
       t = s))

/-- On a rule that the slice may use and while no move runs: a read shows the rule whole; a write that R178 does not reject stores the rule of the window, keeping its hits, and no other; an invalidate clears VALID alone; HIT_CLEAR zeroes the hits. Another slice's rule has code 2 and OWN_ERR, a read of it shows zeros; a rejected write stores nothing, sets REJECT and RULE_REJ. A block move that R179 accepts sets BUSY and waits for LGD_MOVE_DONE, which copies the block, invalidates what it left, clears BUSY and sets MOVE_DONE. While BUSY every command has code 4, and a write or an invalidate of a rule of the moving block sets REJECT. VID_SLICE commands read and write the slice of one outer VID. -/
def Obligations.LegendWindow : Prop :=
  (∀ (s : State) (o : Origin) (i : Nat) (r : LRule),
     addrReject s o (pgLGD + LGD_CMD.off) = none →
     isSet s pgLGD LGD_BUSY = false →
     i = fld s pgLGD LGD_RULE_IDX →
     r = rule s i →
     mayUse (Origin.slice o) r.owner = true →
     Completes (.lgdRuleRead o) s (fun t =>
       isSet t pgLGD LGD_VALID = r.valid ∧
       fld t pgLGD LGD_OWNER = r.owner % 2 ^ 5 ∧
       wordsAt t (pgLGD + LGD_VALUE.off) 12 = wideWords r.value.toNat 12 ∧
       wordsAt t (pgLGD + LGD_MASK.off) 12 = wideWords r.mask.toNat 12 ∧
       reg t (pgLGD + LGD_ACTION.off) = r.action ∧
       wordsAt t (pgLGD + LGD_HIT_CNT.off) 2 = [BitVec.ofNat 32 r.hits, BitVec.ofNat 32 (r.hits >>> 32)] ∧
       isSet t pgLGD LGD_OWN_ERR = false ∧
       Answered s t o 0 (pgLGD + LGD_CMD.off) ∧
       Only books s t)) ∧
  (∀ (s : State) (o : Origin),
     addrReject s o (pgLGD + LGD_CMD.off) = none →
     isSet s pgLGD LGD_BUSY = false →
     mayUse (Origin.slice o) (rule s (fld s pgLGD LGD_RULE_IDX)).owner = false →
     Completes (.lgdRuleRead o) s (fun t =>
       isSet t pgLGD LGD_VALID = false ∧
       reg t (pgLGD + LGD_ACTION.off) = 0 ∧
       isSet t pgLGD LGD_OWN_ERR = true ∧
       Answered s t o 2 (pgLGD + LGD_CMD.off) ∧
       Only books s t)) ∧
  (∀ (s : State) (o : Origin) (i : Nat) (n : LRule),
     addrReject s o (pgLGD + LGD_CMD.off) = none →
     isSet s pgLGD LGD_BUSY = false →
     i = fld s pgLGD LGD_RULE_IDX →
     n = ruleOfWindow s o (rule s i) →
     mayUse (Origin.slice o) (rule s i).owner = true →
     foreignQueue s n = false →
     (n.valid = true → n.badAction = false) →
     Completes (.lgdRuleWrite o) s (fun t =>
       rule t i = n ∧
       n.hits = (rule s i).hits ∧
       TblOnly LRule.init i s.cls.rule t.cls.rule ∧
       isSet t pgLGD LGD_REJECT = false ∧
       cntAt t (cntAddr pgLGD LGD_C_RULE_WRITES) = min cntMax (cntAt s (cntAddr pgLGD LGD_C_RULE_WRITES) + 1) ∧
       Answered s t o 0 (pgLGD + LGD_CMD.off) ∧
       Only (.rule :: books) s t)) ∧
  (∀ (s : State) (o : Origin) (i c : Nat) (n : LRule),
     addrReject s o (pgLGD + LGD_CMD.off) = none →
     isSet s pgLGD LGD_BUSY = false →
     i = fld s pgLGD LGD_RULE_IDX →
     n = ruleOfWindow s o (rule s i) →
     (mayUse (Origin.slice o) (rule s i).owner = false ∧ c = 2) ∨
       (mayUse (Origin.slice o) (rule s i).owner = true ∧ foreignQueue s n = true ∧ c = if Origin.slice o = 0 then 1 else 2) ∨
       (mayUse (Origin.slice o) (rule s i).owner = true ∧ foreignQueue s n = false ∧ n.valid = true ∧ n.badAction = true ∧ c = 1) →
     Completes (.lgdRuleWrite o) s (fun t =>
       isSet t pgLGD LGD_REJECT = true ∧
       flagSet t pgLGD LGD_F_RULE_REJ = true ∧
       Answered s t o c (pgLGD + LGD_CMD.off) ∧
       Only books s t)) ∧
  (∀ (s : State) (o : Origin) (i : Nat),
     addrReject s o (pgLGD + LGD_CMD.off) = none →
     isSet s pgLGD LGD_BUSY = false →
     i = fld s pgLGD LGD_RULE_IDX →
     mayUse (Origin.slice o) (rule s i).owner = true →
     Completes (.lgdRuleInvalidate o) s (fun t =>
       rule t i = { rule s i with valid := false } ∧
       TblOnly LRule.init i s.cls.rule t.cls.rule ∧
       Answered s t o 0 (pgLGD + LGD_CMD.off) ∧
       Only (.rule :: books) s t)) ∧
  (∀ (s : State) (o : Origin) (i : Nat),
     addrReject s o (pgLGD + LGD_CMD.off) = none →
     isSet s pgLGD LGD_BUSY = false →
     i = fld s pgLGD LGD_RULE_IDX →
     mayUse (Origin.slice o) (rule s i).owner = true →
     Completes (.lgdHitClear o) s (fun t =>
       rule t i = { rule s i with hits := 0 } ∧
       TblOnly LRule.init i s.cls.rule t.cls.rule ∧
       Answered s t o 0 (pgLGD + LGD_CMD.off) ∧
       Only (.rule :: books) s t)) ∧
  (∀ (s : State) (o : Origin) (a b d : Nat),
     addrReject s o (pgLGD + LGD_CMD.off) = none →
     isSet s pgLGD LGD_BUSY = false →
     Origin.slice o = 0 →
     a = fld s pgLGD LGD_RULE_IDX →
     b = fld s pgLGD LGD_MOVE_LAST →
     d = fld s pgLGD LGD_MOVE_DEST →
     a ≤ b →
     d + (b + 1 - a) ≤ 16384 →
     s.cls.rule.any (fun e => e.2.valid && inBlock d (d + (b + 1 - a) - 1) e.1 && !inBlock a b e.1) = false →
     Completes (.lgdMoveBlock o) s (fun t =>
       t.cls.move = some (a, b, d) ∧
       isSet t pgLGD LGD_BUSY = true ∧
       t.cls.rule = s.cls.rule ∧
       Answered s t o 0 (pgLGD + LGD_CMD.off) ∧
       Only (.move :: books) s t)) ∧
  (∀ (s : State) (o : Origin) (a b d c : Nat),
     addrReject s o (pgLGD + LGD_CMD.off) = none →
     isSet s pgLGD LGD_BUSY = false →
     Origin.slice o = 0 →
     a = fld s pgLGD LGD_RULE_IDX →
     b = fld s pgLGD LGD_MOVE_LAST →
     d = fld s pgLGD LGD_MOVE_DEST →
     (b < a ∧ c = 1) ∨ (a ≤ b ∧ s.cls.rule.any (fun e => e.2.valid && inBlock d (d + (b + 1 - a) - 1) e.1 && !inBlock a b e.1) = true ∧ c = 8) →
     Completes (.lgdMoveBlock o) s (fun t =>
       t.cls.move = s.cls.move ∧
       isSet t pgLGD LGD_REJECT = true ∧
       Answered s t o c (pgLGD + LGD_CMD.off) ∧
       Only books s t)) ∧
  (∀ (s : State) (i : Instr) (o : Origin),
     i = .lgdRuleRead o ∨ i = .lgdRuleWrite o ∨ i = .lgdRuleInvalidate o ∨ i = .lgdMoveBlock o ∨ i = .lgdHitClear o →
     addrReject s o (pgLGD + LGD_CMD.off) = none →
     isSet s pgLGD LGD_BUSY = true →
     Completes (i) s (fun t =>
       Answered s t o 4 (pgLGD + LGD_CMD.off) ∧
       Only books s t)) ∧
  (∀ (s : State) (i : Instr) (o : Origin) (m : Nat × Nat × Nat),
     i = .lgdRuleWrite o ∨ i = .lgdRuleInvalidate o →
     addrReject s o (pgLGD + LGD_CMD.off) = none →
     isSet s pgLGD LGD_BUSY = true →
     s.cls.move = some m →
     inBlock m.1 m.2.1 (fld s pgLGD LGD_RULE_IDX) = true →
     Completes (i) s (fun t =>
       isSet t pgLGD LGD_REJECT = true ∧
       Answered s t o 4 (pgLGD + LGD_CMD.off) ∧
       Only books s t)) ∧
  (∀ (s : State) (a b d : Nat),
     s.cls.move = some (a, b, d) →
     Completes (.lgdMoveDone) s (fun t =>
       t.cls.rule = movedRules s a b d ∧
       t.cls.move = none ∧
       isSet t pgLGD LGD_BUSY = false ∧
       flagSet t pgLGD LGD_F_MOVE_DONE = true ∧
       Only [.rule, .move, .regs, .pmc] s t)) ∧
  (∀ (s : State),
     s.cls.move = none →
     Completes (.lgdMoveDone) s (fun t =>
       t = s)) ∧
  (∀ (s : State) (o : Origin),
     addrReject s o (pgPRS + PRS_VS_CMD.off) = none →
     Completes (.vidSliceRead o) s (fun t =>
       fld t pgPRS PRS_VS_SLICE = vidSlice s (fld s pgPRS PRS_VS_VID) % 2 ^ 5 ∧
       Answered s t o 0 (pgPRS + PRS_VS_CMD.off) ∧
       RegsOnly bookPages [pgPRS + PRS_VS_SLICE.off] s t ∧
       Only books s t)) ∧
  (∀ (s : State) (o : Origin),
     addrReject s o (pgPRS + PRS_VS_CMD.off) = none →
     Completes (.vidSliceWrite o) s (fun t =>
       vidSlice t (fld s pgPRS PRS_VS_VID) = fld s pgPRS PRS_VS_SLICE ∧
       TblOnly dzero (fld s pgPRS PRS_VS_VID) s.cls.vid t.cls.vid ∧
       Answered s t o 0 (pgPRS + PRS_VS_CMD.off) ∧
       Only (.vid :: books) s t))

/-- The next request that may begin (the first whose bucket no promotion holds, no request before it names, and whose context is not fenced) is done and leaves the queue; its context, if it still waits, has the outcome code in word 0 of its bank, and a host request clears BUSY. A learn of a new key with a free place writes the learned entry there (code 0); of a key with the same destination it refreshes the age (1); of a static entry it changes nothing (4); with learning off it does nothing (5). A refresh sets the age of the entry found; a delete frees its place. When a promotion's guard has passed, the old copy goes and is counted. An epoch advances AGE_NOW once AGE_TICK frames have been counted, not before, and marks the next sweep due; a sweep removes a dynamic entry that has reached AGE_LIMIT; where its bucket is locked the sweep still owes it, which the arbiter's next turn makes good, and an epoch that finds it owed is late. With nothing to do nothing changes. -/
def Obligations.LearnArbiter : Prop :=
  (∀ (s : State) (r : LearnReq) (k : BitVec 96) (ty : Nat) (d : BitVec 112) (l : Loc),
     nextReq s = some r →
     s.cls.sweepOwed = [] →
     r.op = .learn k ty d →
     active s pgGZT GZT_GZT_EN = true →
     isSet s pgGZT GZT_LEARN_EN = true →
     mayUse r.slice (keyOwner s k.toNat ty) = true →
     locate s k.toNat ty = none →
     freePlace s k.toNat = some l →
     Completes (.learnArbitration) s (fun t =>
       entAt t l = learned ty (keyOwner s k.toNat ty) (ageNow s) k.toNat d.toNat ∧
       cntAt t (cntAddr pgGZT GZT_C_INSERTS) = min cntMax (cntAt s (cntAddr pgGZT GZT_C_INSERTS) + 1) ∧
       t.cls.arb = s.cls.arb.erase r ∧
       (∀ c, r.ctx = some c → (ctx s c).tbl = .waiting → (ctx t c).tbl = .ready { UnitRes.plain with lr := [(8 * r.bank, 0)] }) ∧
       (r.ctx = none → isSet t pgGZT GZT_BUSY = false) ∧
       Only [.arb, .prim, .ovf, .ctx, .regs, .cnt, .pmc] s t)) ∧
  (∀ (s : State) (r : LearnReq) (k : BitVec 96) (ty : Nat) (d : BitVec 112) (l : Loc),
     nextReq s = some r →
     s.cls.sweepOwed = [] →
     r.op = .learn k ty d →
     active s pgGZT GZT_GZT_EN = true →
     isSet s pgGZT GZT_LEARN_EN = true →
     mayUse r.slice (keyOwner s k.toNat ty) = true →
     locate s k.toNat ty = some l →
     entStatic (entAt s l) = false →
     entF (entAt s l) 91 21 = d.toNat / 2 ^ 91 →
     Completes (.learnArbitration) s (fun t =>
       entAt t l = setEntF (entAt s l) 224 16 (ageNow s) ∧
       t.cls.arb = s.cls.arb.erase r ∧
       (∀ c, r.ctx = some c → (ctx s c).tbl = .waiting → (ctx t c).tbl = .ready { UnitRes.plain with lr := [(8 * r.bank, 1)] }) ∧
       (r.ctx = none → isSet t pgGZT GZT_BUSY = false) ∧
       Only [.arb, .prim, .ovf, .ctx, .regs, .cnt, .pmc] s t)) ∧
  (∀ (s : State) (r : LearnReq) (k : BitVec 96) (ty : Nat) (d : BitVec 112) (l : Loc),
     nextReq s = some r →
     s.cls.sweepOwed = [] →
     r.op = .learn k ty d →
     active s pgGZT GZT_GZT_EN = true →
     isSet s pgGZT GZT_LEARN_EN = true →
     mayUse r.slice (keyOwner s k.toNat ty) = true →
     locate s k.toNat ty = some l →
     entStatic (entAt s l) = true →
     Completes (.learnArbitration) s (fun t =>
       t.cls.prim = s.cls.prim ∧
       t.cls.ovf = s.cls.ovf ∧
       flagSet t pgGZT GZT_F_LEARN_STATIC = true ∧
       t.cls.arb = s.cls.arb.erase r ∧
       (∀ c, r.ctx = some c → (ctx s c).tbl = .waiting → (ctx t c).tbl = .ready { UnitRes.plain with lr := [(8 * r.bank, 4)] }) ∧
       (r.ctx = none → isSet t pgGZT GZT_BUSY = false))) ∧
  (∀ (s : State) (r : LearnReq) (k : BitVec 96) (ty : Nat) (d : BitVec 112),
     nextReq s = some r →
     s.cls.sweepOwed = [] →
     r.op = .learn k ty d →
     active s pgGZT GZT_GZT_EN = false ∨ isSet s pgGZT GZT_LEARN_EN = false →
     Completes (.learnArbitration) s (fun t =>
       t.cls.prim = s.cls.prim ∧
       t.cls.ovf = s.cls.ovf ∧
       t.cls.arb = s.cls.arb.erase r ∧
       (∀ c, r.ctx = some c → (ctx s c).tbl = .waiting → (ctx t c).tbl = .ready { UnitRes.plain with lr := [(8 * r.bank, 5)] }) ∧
       (r.ctx = none → isSet t pgGZT GZT_BUSY = false) ∧
       Only [.arb, .ctx, .regs, .cnt, .pmc] s t)) ∧
  (∀ (s : State) (r : LearnReq) (k : BitVec 96) (ty : Nat) (l : Loc),
     nextReq s = some r →
     s.cls.sweepOwed = [] →
     r.op = .refresh k ty →
     mayUse r.slice (keyOwner s k.toNat ty) = true →
     locate s k.toNat ty = some l →
     Completes (.learnArbitration) s (fun t =>
       entAt t l = setEntF (entAt s l) 224 16 (ageNow s) ∧
       t.cls.arb = s.cls.arb.erase r ∧
       (∀ c, r.ctx = some c → (ctx s c).tbl = .waiting → (ctx t c).tbl = .ready UnitRes.plain) ∧
       (r.ctx = none → isSet t pgGZT GZT_BUSY = false) ∧
       Only [.arb, .prim, .ovf, .ctx, .regs] s t)) ∧
  (∀ (s : State) (r : LearnReq) (k : BitVec 96) (ty : Nat) (l : Loc),
     nextReq s = some r →
     s.cls.sweepOwed = [] →
     r.op = .delete k ty →
     mayUse r.slice (keyOwner s k.toNat ty) = true →
     locate s k.toNat ty = some l →
     l.1 = true ∨ ovfCnt s (bucketH1 (entKey (entAt s l))) = 0 →
     Completes (.learnArbitration) s (fun t =>
       entAt t l = 0 ∧
       t.cls.arb = s.cls.arb.erase r ∧
       (∀ c, r.ctx = some c → (ctx s c).tbl = .waiting → (ctx t c).tbl = .ready UnitRes.plain) ∧
       (r.ctx = none → isSet t pgGZT GZT_BUSY = false) ∧
       Only [.arb, .prim, .ovf, .ctx, .regs] s t)) ∧
  (∀ (s : State),
     nextReq s = none →
     s.cls.sweepOwed = [] →
     Completes (.learnArbitration) s (fun t =>
       t = s)) ∧
  (∀ (s : State) (l : Loc),
     nextReq s = none →
     s.cls.sweepOwed = [l] →
     bucketBusy s (bucketH1 (entKey (entAt s l))) = false →
     oldCopy s l = false →
     entType (entAt s l) ≠ 0 →
     isSet s pgGZT GZT_AGE_EN = true →
     entStatic (entAt s l) = false →
     fld s pgGZT GZT_AGE_LIMIT ≤ entAgeOf s l →
     l.1 = true ∨ ovfCnt s (bucketH1 (entKey (entAt s l))) = 0 →
     Completes (.learnArbitration) s (fun t =>
       entAt t l = 0 ∧
       t.cls.sweepOwed = [] ∧
       fld t pgGZT GZT_SWEEP_POS = 17039359 ∧
       cntAt t (cntAddr pgGZT GZT_C_AGED) = min cntMax (cntAt s (cntAddr pgGZT GZT_C_AGED) + 1) ∧
       Only [.age, .prim, .ovf, .regs, .cnt, .pmc] s t)) ∧
  (∀ (s : State) (b : Nat) (r : Reloc),
     s.cls.reloc.find? (fun x => x.bucket == b && x.until_ ≤ (now s).fineIndex) = some r →
     s.cls.sweepOwed = [] →
     Completes (.relocGuardExpire b) s (fun t =>
       ovf t r.slot = 0 ∧
       t.cls.reloc = s.cls.reloc.erase r ∧
       TblOnly dentry r.slot s.cls.ovf t.cls.ovf ∧
       cntAt t (cntAddr pgGZT GZT_C_RELOCATIONS) = min cntMax (cntAt s (cntAddr pgGZT GZT_C_RELOCATIONS) + 1) ∧
       Only [.reloc, .ovf, .regs, .cnt, .pmc] s t)) ∧
  (∀ (s : State) (b : Nat),
     s.cls.reloc.find? (fun x => x.bucket == b && x.until_ ≤ (now s).fineIndex) = none →
     Completes (.relocGuardExpire b) s (fun t =>
       t = s)) ∧
  (∀ (s : State),
     s.cls.ageFrames < fld s pgGZT GZT_AGE_TICK →
     Completes (.ageEpoch) s (fun t =>
       t = s)) ∧
  (∀ (s : State),
     fld s pgGZT GZT_AGE_TICK ≤ s.cls.ageFrames →
     Completes (.ageEpoch) s (fun t =>
       ageNow t = (ageNow s + 1) % 65536 ∧
       t.cls.ageFrames = s.cls.ageFrames - fld s pgGZT GZT_AGE_TICK ∧
       t.cls.sweepDue = 1 ∧
       Only [.prim, .ovf, .reloc, .bulk, .age, .freeCtr, .regs, .cnt, .pmc] s t)) ∧
  (∀ (s : State) (l : Loc),
     fld s pgGZT GZT_AGE_TICK ≤ s.cls.ageFrames →
     s.cls.sweepDue = 0 →
     allPlaces s = [l] →
     bucketBusy s (bucketH1 (entKey (entAt s l))) = false →
     oldCopy s l = false →
     entType (entAt s l) ≠ 0 →
     isSet s pgGZT GZT_AGE_EN = true →
     entStatic (entAt s l) = false →
     fld s pgGZT GZT_AGE_LIMIT ≤ ((ageNow s + 1) % 65536 + 65536 - entAge (entAt s l)) % 65536 →
     l.1 = true ∨ ovfCnt s (bucketH1 (entKey (entAt s l))) = 0 →
     Completes (.ageEpoch) s (fun t =>
       entAt t l = 0 ∧
       cntAt t (cntAddr pgGZT GZT_C_AGED) = min cntMax (cntAt s (cntAddr pgGZT GZT_C_AGED) + 1))) ∧
  (∀ (s : State) (l : Loc),
     fld s pgGZT GZT_AGE_TICK ≤ s.cls.ageFrames →
     s.cls.sweepDue = 0 →
     s.cls.sweepOwed = [] →
     allPlaces s = [l] →
     bucketBusy s (bucketH1 (entKey (entAt s l))) = true →
     Completes (.ageEpoch) s (fun t =>
       t.cls.prim = s.cls.prim ∧
       t.cls.ovf = s.cls.ovf ∧
       t.cls.sweepOwed = [l] ∧
       Only [.bulk, .age, .regs, .cnt, .pmc] s t)) ∧
  (∀ (s : State),
     fld s pgGZT GZT_AGE_TICK ≤ s.cls.ageFrames →
     s.cls.sweepDue = 1 →
     s.cls.sweepOwed ≠ [] →
     Completes (.ageEpoch) s (fun t =>
       ageNow t = (ageNow s + 1) % 65536 ∧
       flagSet t pgGZT GZT_F_SWEEP_LATE = true ∧
       t.cls.sweepOwed = s.cls.sweepOwed ∧
       Only [.age, .freeCtr, .regs, .cnt, .pmc] s t))

/-- A lookup shows the entry of the window's key with HIT, or clears HIT. An insert, delete or thaw of a bucket that no promotion and no queued request holds runs at once, otherwise it is queued with BUSY, and while BUSY every command has code 4; a key not of the form of R180 has code 1: an insert overwrites the key's entry or takes a free place, owned as the key says, else shows FULL; a malformed image has code 1 and REJECT; a delete frees the place; a thaw clears FROZEN and the moves. READ_SLOT shows the place named, or has code 1. A flush begins in the background, one at a time (code 4), and GZT_BULK_DONE ends it unless it still owes an entry of a locked bucket. SET_DOMAIN_OWNER by slice 0 gives a domain its owner. A key or domain of another slice has code 2, OWN_ERR and reads 0. -/
def Obligations.GazetteerWindow : Prop :=
  (∀ (s : State) (o : Origin) (l : Loc),
     addrReject s o (pgGZT + GZT_CMD.off) = none →
     isSet s pgGZT GZT_BUSY = false →
     mayUse (Origin.slice o) (imageOwner s) = true →
     keyBad (gztImage s) = false →
     active s pgGZT GZT_GZT_EN = true →
     locate s (entKey (gztImage s)) (entType (gztImage s)) = some l →
     Completes (.gztLookupCmd o) s (fun t =>
       gztImage t = shownEnt s l ∧
       (isSet t pgGZT GZT_OWN_ERR, isSet t pgGZT GZT_REJECT) = (false, false) ∧
       isSet t pgGZT GZT_HIT = true ∧
       isSet t pgGZT GZT_FULL = isSet s pgGZT GZT_FULL ∧
       Answered s t o 0 (pgGZT + GZT_CMD.off) ∧
       Only books s t)) ∧
  (∀ (s : State) (o : Origin),
     addrReject s o (pgGZT + GZT_CMD.off) = none →
     isSet s pgGZT GZT_BUSY = false →
     mayUse (Origin.slice o) (imageOwner s) = true →
     keyBad (gztImage s) = false →
     active s pgGZT GZT_GZT_EN = false ∨ locate s (entKey (gztImage s)) (entType (gztImage s)) = none →
     Completes (.gztLookupCmd o) s (fun t =>
       gztImage t = gztImage s ∧
       (isSet t pgGZT GZT_OWN_ERR, isSet t pgGZT GZT_REJECT) = (false, false) ∧
       isSet t pgGZT GZT_HIT = false ∧
       isSet t pgGZT GZT_FULL = isSet s pgGZT GZT_FULL ∧
       Answered s t o 0 (pgGZT + GZT_CMD.off) ∧
       Only books s t)) ∧
  (∀ (s : State) (i : Instr) (o : Origin),
     i = .gztLookupCmd o ∨ i = .gztInsert o ∨ i = .gztDeleteCmd o ∨ i = .gztThaw o →
     addrReject s o (pgGZT + GZT_CMD.off) = none →
     isSet s pgGZT GZT_BUSY = false →
     mayUse (Origin.slice o) (imageOwner s) = false →
     Completes (i) s (fun t =>
       gztImage t = 0 ∧
       (isSet t pgGZT GZT_OWN_ERR, isSet t pgGZT GZT_REJECT) = (true, false) ∧
       isSet t pgGZT GZT_HIT = isSet s pgGZT GZT_HIT ∧
       isSet t pgGZT GZT_FULL = isSet s pgGZT GZT_FULL ∧
       Answered s t o 2 (pgGZT + GZT_CMD.off) ∧
       Only books s t)) ∧
  (∀ (s : State) (i : Instr) (o : Origin),
     i = .gztLookupCmd o ∨ i = .gztDeleteCmd o ∨ i = .gztThaw o →
     addrReject s o (pgGZT + GZT_CMD.off) = none →
     isSet s pgGZT GZT_BUSY = false →
     mayUse (Origin.slice o) (imageOwner s) = true →
     keyBad (gztImage s) = true →
     Completes (i) s (fun t =>
       (isSet t pgGZT GZT_OWN_ERR, isSet t pgGZT GZT_REJECT) = (false, true) ∧
       Answered s t o 1 (pgGZT + GZT_CMD.off) ∧
       Only books s t)) ∧
  (∀ (s : State) (i : Instr) (o : Origin),
     i = .gztLookupCmd o ∨ i = .gztInsert o ∨ i = .gztDeleteCmd o ∨ i = .gztReadSlot o ∨ i = .gztFlushDomain o ∨ i = .gztFlushDest o ∨
       i = .gztThaw o ∨ i = .gztSetDomainOwner o →
     addrReject s o (pgGZT + GZT_CMD.off) = none →
     isSet s pgGZT GZT_BUSY = true →
     Completes (i) s (fun t =>
       Answered s t o 4 (pgGZT + GZT_CMD.off) ∧
       Only books s t)) ∧
  (∀ (s : State) (i : Instr) (o : Origin) (e : BitVec 256) (op : LearnOp),
     e = gztImage s →
     (i = .gztInsert o ∧ op = .insert e ∧ imageBad e = false ∧ fld s pgGZT GZT_ENTRIES_USED < hostEntries) ∨
       (i = .gztDeleteCmd o ∧ op = .delete (BitVec.ofNat 96 (entKey e)) (entType e) ∧ keyBad e = false) ∨
       (i = .gztThaw o ∧ op = .thaw (BitVec.ofNat 96 (entKey e)) (entType e) ∧ keyBad e = false) →
     addrReject s o (pgGZT + GZT_CMD.off) = none →
     isSet s pgGZT GZT_BUSY = false →
     mayUse (Origin.slice o) (imageOwner s) = true →
     bucketBusy s (bucketH1 (entKey e)) = true →
     Completes (i) s (fun t =>
       isSet t pgGZT GZT_BUSY = true ∧
       t.cls.arb = arrive ⟨op, 32767, Origin.slice o, none, 0, (now s).fineIndex⟩ s.cls.arb ∧
       (isSet t pgGZT GZT_OWN_ERR, isSet t pgGZT GZT_REJECT) = (false, false) ∧
       Answered s t o 0 (pgGZT + GZT_CMD.off) ∧
       Only (.arb :: books) s t)) ∧
  (∀ (s : State) (o : Origin) (e : BitVec 256) (l : Loc),
     addrReject s o (pgGZT + GZT_CMD.off) = none →
     isSet s pgGZT GZT_BUSY = false →
     mayUse (Origin.slice o) (imageOwner s) = true →
     e = gztImage s →
     imageBad e = false →
     fld s pgGZT GZT_ENTRIES_USED < hostEntries →
     bucketBusy s (bucketH1 (entKey e)) = false →
     locate s (entKey e) (entType e) = none →
     freePlace s (entKey e) = some l →
     Completes (.gztInsert o) s (fun t =>
       entAt t l = setEntF (setEntF (setEntF e 248 4 0) 243 5 (keyOwner s (entKey e) (entType e))) 240 3 0 ∧
       (isSet t pgGZT GZT_OWN_ERR, isSet t pgGZT GZT_REJECT) = (false, false) ∧
       isSet t pgGZT GZT_HIT = isSet s pgGZT GZT_HIT ∧
       isSet t pgGZT GZT_FULL = false ∧
       cntAt t (cntAddr pgGZT GZT_C_INSERTS) = min cntMax (cntAt s (cntAddr pgGZT GZT_C_INSERTS) + 1) ∧
       Answered s t o 0 (pgGZT + GZT_CMD.off) ∧
       Only (.prim :: .ovf :: books) s t)) ∧
  (∀ (s : State) (o : Origin) (e : BitVec 256) (l : Loc),
     addrReject s o (pgGZT + GZT_CMD.off) = none →
     isSet s pgGZT GZT_BUSY = false →
     mayUse (Origin.slice o) (imageOwner s) = true →
     e = gztImage s →
     imageBad e = false →
     fld s pgGZT GZT_ENTRIES_USED < hostEntries →
     bucketBusy s (bucketH1 (entKey e)) = false →
     locate s (entKey e) (entType e) = some l →
     Completes (.gztInsert o) s (fun t =>
       entAt t l = setEntF (setEntF (setEntF e 248 4 0) 243 5 (keyOwner s (entKey e) (entType e))) 240 3 0 ∧
       (isSet t pgGZT GZT_OWN_ERR, isSet t pgGZT GZT_REJECT) = (false, false) ∧
       isSet t pgGZT GZT_HIT = isSet s pgGZT GZT_HIT ∧
       isSet t pgGZT GZT_FULL = false ∧
       Answered s t o 0 (pgGZT + GZT_CMD.off) ∧
       Only (.prim :: .ovf :: books) s t)) ∧
  (∀ (s : State) (o : Origin) (e : BitVec 256),
     addrReject s o (pgGZT + GZT_CMD.off) = none →
     isSet s pgGZT GZT_BUSY = false →
     mayUse (Origin.slice o) (imageOwner s) = true →
     e = gztImage s →
     imageBad e = false →
     fld s pgGZT GZT_ENTRIES_USED < hostEntries →
     bucketBusy s (bucketH1 (entKey e)) = false →
     locate s (entKey e) (entType e) = none →
     freePlace s (entKey e) = none →
     Completes (.gztInsert o) s (fun t =>
       (isSet t pgGZT GZT_OWN_ERR, isSet t pgGZT GZT_REJECT) = (false, false) ∧
       isSet t pgGZT GZT_FULL = true ∧
       Answered s t o 0 (pgGZT + GZT_CMD.off) ∧
       Only books s t)) ∧
  (∀ (s : State) (o : Origin),
     addrReject s o (pgGZT + GZT_CMD.off) = none →
     isSet s pgGZT GZT_BUSY = false →
     mayUse (Origin.slice o) (imageOwner s) = true →
     imageBad (gztImage s) = true ∨ hostEntries ≤ fld s pgGZT GZT_ENTRIES_USED →
     Completes (.gztInsert o) s (fun t =>
       (isSet t pgGZT GZT_OWN_ERR, isSet t pgGZT GZT_REJECT) = (false, true) ∧
       isSet t pgGZT GZT_HIT = isSet s pgGZT GZT_HIT ∧
       isSet t pgGZT GZT_FULL = isSet s pgGZT GZT_FULL ∧
       Answered s t o 1 (pgGZT + GZT_CMD.off) ∧
       Only books s t)) ∧
  (∀ (s : State) (o : Origin) (l : Loc),
     addrReject s o (pgGZT + GZT_CMD.off) = none →
     isSet s pgGZT GZT_BUSY = false →
     mayUse (Origin.slice o) (imageOwner s) = true →
     keyBad (gztImage s) = false →
     bucketBusy s (bucketH1 (entKey (gztImage s))) = false →
     locate s (entKey (gztImage s)) (entType (gztImage s)) = some l →
     l.1 = true ∨ ovfCnt s (bucketH1 (entKey (entAt s l))) = 0 →
     Completes (.gztDeleteCmd o) s (fun t =>
       entAt t l = 0 ∧
       (isSet t pgGZT GZT_OWN_ERR, isSet t pgGZT GZT_REJECT) = (false, false) ∧
       isSet t pgGZT GZT_HIT = true ∧
       isSet t pgGZT GZT_FULL = isSet s pgGZT GZT_FULL ∧
       Answered s t o 0 (pgGZT + GZT_CMD.off) ∧
       Only (.prim :: .ovf :: books) s t)) ∧
  (∀ (s : State) (o : Origin) (l : Loc),
     addrReject s o (pgGZT + GZT_CMD.off) = none →
     isSet s pgGZT GZT_BUSY = false →
     mayUse (Origin.slice o) (imageOwner s) = true →
     keyBad (gztImage s) = false →
     bucketBusy s (bucketH1 (entKey (gztImage s))) = false →
     locate s (entKey (gztImage s)) (entType (gztImage s)) = some l →
     Completes (.gztThaw o) s (fun t =>
       entAt t l = setEntF (setEntF (entAt s l) 252 1 0) 216 8 0 ∧
       (isSet t pgGZT GZT_OWN_ERR, isSet t pgGZT GZT_REJECT) = (false, false) ∧
       isSet t pgGZT GZT_HIT = isSet s pgGZT GZT_HIT ∧
       isSet t pgGZT GZT_FULL = isSet s pgGZT GZT_FULL ∧
       Answered s t o 0 (pgGZT + GZT_CMD.off) ∧
       Only (.prim :: .ovf :: books) s t)) ∧
  (∀ (s : State) (i : Instr) (o : Origin),
     i = .gztDeleteCmd o ∨ i = .gztThaw o →
     addrReject s o (pgGZT + GZT_CMD.off) = none →
     isSet s pgGZT GZT_BUSY = false →
     mayUse (Origin.slice o) (imageOwner s) = true →
     keyBad (gztImage s) = false →
     bucketBusy s (bucketH1 (entKey (gztImage s))) = false →
     locate s (entKey (gztImage s)) (entType (gztImage s)) = none →
     Completes (i) s (fun t =>
       (isSet t pgGZT GZT_OWN_ERR, isSet t pgGZT GZT_REJECT) = (false, false) ∧
       isSet t pgGZT GZT_HIT = (if i = .gztDeleteCmd o then false else isSet s pgGZT GZT_HIT) ∧
       isSet t pgGZT GZT_FULL = isSet s pgGZT GZT_FULL ∧
       Answered s t o 0 (pgGZT + GZT_CMD.off) ∧
       Only books s t)) ∧
  (∀ (s : State) (o : Origin) (l : Loc),
     addrReject s o (pgGZT + GZT_CMD.off) = none →
     isSet s pgGZT GZT_BUSY = false →
     mayUse (Origin.slice o) (placeOwner o s) = true →
     windowPlace s = some l →
     Completes (.gztReadSlot o) s (fun t =>
       gztImage t = shownEnt s l ∧
       (isSet t pgGZT GZT_OWN_ERR, isSet t pgGZT GZT_REJECT) = (false, false) ∧
       isSet t pgGZT GZT_HIT = isSet s pgGZT GZT_HIT ∧
       isSet t pgGZT GZT_FULL = isSet s pgGZT GZT_FULL ∧
       Answered s t o 0 (pgGZT + GZT_CMD.off) ∧
       Only books s t)) ∧
  (∀ (s : State) (o : Origin),
     addrReject s o (pgGZT + GZT_CMD.off) = none →
     isSet s pgGZT GZT_BUSY = false →
     windowPlace s = none →
     Completes (.gztReadSlot o) s (fun t =>
       (isSet t pgGZT GZT_OWN_ERR, isSet t pgGZT GZT_REJECT) = (false, true) ∧
       isSet t pgGZT GZT_HIT = isSet s pgGZT GZT_HIT ∧
       isSet t pgGZT GZT_FULL = isSet s pgGZT GZT_FULL ∧
       Answered s t o 1 (pgGZT + GZT_CMD.off) ∧
       Only books s t)) ∧
  (∀ (s : State) (i : Instr) (o : Origin) (b : Bulk),
     (i = .gztFlushDomain o ∧ b = ⟨false, fld s pgGZT GZT_ARG % 65536, Origin.slice o⟩ ∧ mayUse (Origin.slice o) (tget dzero s.cls.domain b.arg) = true) ∨ (i = .gztFlushDest o ∧ b = ⟨true, fld s pgGZT GZT_ARG, Origin.slice o⟩) →
     addrReject s o (pgGZT + GZT_CMD.off) = none →
     isSet s pgGZT GZT_BUSY = false →
     s.cls.bulk = none →
     Completes (i) s (fun t =>
       t.cls.bulk = some b ∧
       (isSet t pgGZT GZT_OWN_ERR, isSet t pgGZT GZT_REJECT) = (false, false) ∧
       isSet t pgGZT GZT_HIT = isSet s pgGZT GZT_HIT ∧
       isSet t pgGZT GZT_FULL = isSet s pgGZT GZT_FULL ∧
       Answered s t o 0 (pgGZT + GZT_CMD.off) ∧
       Only (.bulk :: books) s t)) ∧
  (∀ (s : State) (o : Origin) (b : Bulk),
     addrReject s o (pgGZT + GZT_CMD.off) = none →
     isSet s pgGZT GZT_BUSY = false →
     s.cls.bulk = some b →
     Completes (.gztFlushDest o) s (fun t =>
       (isSet t pgGZT GZT_OWN_ERR, isSet t pgGZT GZT_REJECT) = (false, true) ∧
       isSet t pgGZT GZT_HIT = isSet s pgGZT GZT_HIT ∧
       isSet t pgGZT GZT_FULL = isSet s pgGZT GZT_FULL ∧
       Answered s t o 4 (pgGZT + GZT_CMD.off) ∧
       Only books s t)) ∧
  (∀ (s : State) (o : Origin),
     addrReject s o (pgGZT + GZT_CMD.off) = none →
     isSet s pgGZT GZT_BUSY = false →
     Origin.slice o = 0 →
     Completes (.gztSetDomainOwner o) s (fun t =>
       tget dzero t.cls.domain (fld s pgGZT GZT_ARG / 32 % 65536) = fld s pgGZT GZT_ARG % 32 ∧
       TblOnly dzero (fld s pgGZT GZT_ARG / 32 % 65536) s.cls.domain t.cls.domain ∧
       (isSet t pgGZT GZT_OWN_ERR, isSet t pgGZT GZT_REJECT) = (false, false) ∧
       isSet t pgGZT GZT_HIT = isSet s pgGZT GZT_HIT ∧
       isSet t pgGZT GZT_FULL = isSet s pgGZT GZT_FULL ∧
       Answered s t o 0 (pgGZT + GZT_CMD.off) ∧
       Only (.domain :: .prim :: .ovf :: books) s t)) ∧
  (∀ (s : State) (b : Bulk) (l : Loc),
     s.cls.bulk = some b →
     allPlaces s = [l] →
     b.takes s (entAt s l) = true →
     bucketBusy s (bucketH1 (entKey (entAt s l))) = false →
     oldCopy s l = false →
     l.1 = true ∨ ovfCnt s (bucketH1 (entKey (entAt s l))) = 0 →
     Completes (.gztBulkDone) s (fun t =>
       entAt t l = 0 ∧
       t.cls.bulk = none ∧
       flagSet t pgGZT GZT_F_BULK_DONE = true)) ∧
  (∀ (s : State) (b : Bulk) (l : Loc),
     s.cls.bulk = some b →
     allPlaces s = [l] →
     b.takes s (entAt s l) = true →
     bucketBusy s (bucketH1 (entKey (entAt s l))) = true →
     oldCopy s l = false →
     Completes (.gztBulkDone) s (fun t =>
       t.cls.bulk = some b ∧
       entAt t l = entAt s l ∧
       fld t pgGZT GZT_BULK_POS = placeNumber l % 2 ^ 25 ∧
       Only [.regs] s t)) ∧
  (∀ (s : State) (b : Bulk),
     s.cls.bulk = some b →
     (allPlaces s).any (fun l => b.takes s (entAt s l)) = false →
     Completes (.gztBulkDone) s (fun t =>
       t.cls.bulk = none ∧
       flagSet t pgGZT GZT_F_BULK_DONE = true ∧
       fld t pgGZT GZT_BULK_POS = 17039359 ∧
       Only [.bulk, .regs, .pmc] s t)) ∧
  (∀ (s : State),
     s.cls.bulk = none →
     Completes (.gztBulkDone) s (fun t =>
       t = s))

/-- On a queue, an ONU entry or a node that exists and that the slice owns: a read shows it whole (of a queue also its eight counters); a queue write within the ranges of R205 and R213 that leaves the reservations within their cap sets the queue of the window and no other, else code 1 with REJECT, RSV_REJ for the cap; an ONU entry that R191 rejects has code 1 and ONU_REJ; a node write with WEIGHT not 0, and RATE not 0 where it shapes, sets the node, starting a settle period when shaping begins, else code 1 and NODE_REJ. NODE_SETTLE starts a settle period. A queue or node that does not exist has code 1, one of another slice code 2 and reads 0. -/
def Obligations.QueueAndNodeWindows : Prop :=
  (∀ (s : State) (o : Origin) (k : Nat),
     addrReject s o (pgTMQ + TMQ_Q_CMD.off) = none →
     qSel s = some k →
     mayUse (Origin.slice o) (ownerOfQueue s k) = true →
     Completes (.queueRead o) s (fun t =>
       wordsAt t (pgTMQ + TMQ_PARENT.off) 8 = queueWords s k ∧
       wordsAt t (pgTMQ + TMQ_Q_CNT.off) 16 = cntWords 8 (queueOf s k).cnts ∧
       (isSet t pgTMQ TMQ_OWN_ERR, isSet t pgTMQ TMQ_REJECT) = (false, false) ∧
       Answered s t o 0 (pgTMQ + TMQ_Q_CMD.off) ∧
       Only books s t)) ∧
  (∀ (s : State) (i : Instr) (o : Origin) (k : Nat),
     i = .queueRead o ∨ i = .queueWrite o ∨ i = .queueCounterClear o →
     addrReject s o (pgTMQ + TMQ_Q_CMD.off) = none →
     qSel s = some k →
     mayUse (Origin.slice o) (ownerOfQueue s k) = false →
     Completes (i) s (fun t =>
       wordsAt t (pgTMQ + TMQ_PARENT.off) 8 = List.replicate 8 0 ∧
       (isSet t pgTMQ TMQ_OWN_ERR, isSet t pgTMQ TMQ_REJECT) = (true, false) ∧
       Answered s t o 2 (pgTMQ + TMQ_Q_CMD.off) ∧
       Only books s t)) ∧
  (∀ (s : State) (i : Instr) (o : Origin),
     i = .queueRead o ∨ i = .queueWrite o ∨ i = .queueCounterClear o →
     addrReject s o (pgTMQ + TMQ_Q_CMD.off) = none →
     qSel s = none →
     Completes (i) s (fun t =>
       (isSet t pgTMQ TMQ_OWN_ERR, isSet t pgTMQ TMQ_REJECT) = (false, true) ∧
       Answered s t o 1 (pgTMQ + TMQ_Q_CMD.off) ∧
       Only books s t)) ∧
  (∀ (s : State) (o : Origin) (k : Nat) (n : Queue),
     addrReject s o (pgTMQ + TMQ_Q_CMD.off) = none →
     qSel s = some k →
     mayUse (Origin.slice o) (ownerOfQueue s k) = true →
     n = queueOfWindow s k →
     queueBad k n = false →
     rsvRejected s k n = false →
     Completes (.queueWrite o) s (fun t =>
       queueOf t k = n ∧
       TblOnly Queue.init k s.tm.q t.tm.q ∧
       (isSet t pgTMQ TMQ_OWN_ERR, isSet t pgTMQ TMQ_REJECT) = (false, false) ∧
       Answered s t o 0 (pgTMQ + TMQ_Q_CMD.off) ∧
       Only (.queue :: books) s t)) ∧
  (∀ (s : State) (o : Origin) (k : Nat) (n : Queue),
     addrReject s o (pgTMQ + TMQ_Q_CMD.off) = none →
     qSel s = some k →
     mayUse (Origin.slice o) (ownerOfQueue s k) = true →
     n = queueOfWindow s k →
     queueBad k n = true ∨ rsvRejected s k n = true →
     Completes (.queueWrite o) s (fun t =>
       (isSet t pgTMQ TMQ_OWN_ERR, isSet t pgTMQ TMQ_REJECT) = (false, true) ∧
       (queueBad k n = false → flagSet t pgTMQ TMQ_F_RSV_REJ = true) ∧
       Answered s t o 1 (pgTMQ + TMQ_Q_CMD.off) ∧
       Only books s t)) ∧
  (∀ (s : State) (o : Origin) (k : Nat),
     addrReject s o (pgTMQ + TMQ_Q_CMD.off) = none →
     qSel s = some k →
     mayUse (Origin.slice o) (ownerOfQueue s k) = true →
     Completes (.queueCounterClear o) s (fun t =>
       queueOf t k = { queueOf s k with cnts := List.replicate 8 0 } ∧
       TblOnly Queue.init k s.tm.q t.tm.q ∧
       Answered s t o 0 (pgTMQ + TMQ_Q_CMD.off) ∧
       Only (.queue :: books) s t)) ∧
  (∀ (s : State) (o : Origin) (u : Nat),
     addrReject s o (pgTMQ + TMQ_ONU_CMD.off) = none →
     u = fld s pgTMQ TMQ_ONU_NODE →
     mayUse (Origin.slice o) (onuOwner s (u / 512) (u % 512)) = true →
     Completes (.tmqOnuRead o) s (fun t =>
       fld t pgTMQ TMQ_QBASE = (onuRange s u).1 % 2 ^ 16 ∧
       fld t pgTMQ TMQ_QCOUNT = (onuRange s u).2 % 2 ^ 7 ∧
       Answered s t o 0 (pgTMQ + TMQ_ONU_CMD.off) ∧
       Only books s t)) ∧
  (∀ (s : State) (o : Origin) (u : Nat) (n : Nat × Nat),
     addrReject s o (pgTMQ + TMQ_ONU_CMD.off) = none →
     u = fld s pgTMQ TMQ_ONU_NODE →
     mayUse (Origin.slice o) (onuOwner s (u / 512) (u % 512)) = true →
     n = (fld s pgTMQ TMQ_QBASE, fld s pgTMQ TMQ_QCOUNT) →
     onuRangeRejected s u n = false →
     Completes (.tmqOnuWrite o) s (fun t =>
       onuRange t u = n ∧
       TblOnly (fun _ => (0, 0)) u s.tm.onu t.tm.onu ∧
       Answered s t o 0 (pgTMQ + TMQ_ONU_CMD.off) ∧
       Only (.onuRange :: books) s t)) ∧
  (∀ (s : State) (o : Origin) (u : Nat) (n : Nat × Nat),
     addrReject s o (pgTMQ + TMQ_ONU_CMD.off) = none →
     u = fld s pgTMQ TMQ_ONU_NODE →
     mayUse (Origin.slice o) (onuOwner s (u / 512) (u % 512)) = true →
     n = (fld s pgTMQ TMQ_QBASE, fld s pgTMQ TMQ_QCOUNT) →
     onuRangeRejected s u n = true →
     Completes (.tmqOnuWrite o) s (fun t =>
       flagSet t pgTMQ TMQ_F_ONU_REJ = true ∧
       (isSet t pgTMQ TMQ_OWN_ERR, isSet t pgTMQ TMQ_REJECT) = (false, true) ∧
       Answered s t o 1 (pgTMQ + TMQ_ONU_CMD.off) ∧
       Only books s t)) ∧
  (∀ (s : State) (o : Origin) (lv i : Nat),
     addrReject s o (pgTMS + TMS_NODE_CMD.off) = none →
     lv = fld s pgTMS TMS_LEVEL →
     i = fld s pgTMS TMS_NODE_IDX →
     i < levelNodes lv →
     mayUse (Origin.slice o) (ownerOfNode s lv i) = true →
     Completes (.nodeRead o) s (fun t =>
       wordsAt t (pgTMS + TMS_WEIGHT.off) 11 = nodeWords s lv i ∧
       fld t pgTMS TMS_STAT = 0 ∧
       Answered s t o 0 (pgTMS + TMS_NODE_CMD.off) ∧
       Only books s t)) ∧
  (∀ (s : State) (i : Instr) (o : Origin),
     i = .nodeRead o ∨ i = .nodeWrite o ∨ i = .nodeSettle o →
     addrReject s o (pgTMS + TMS_NODE_CMD.off) = none →
     levelNodes (fld s pgTMS TMS_LEVEL) ≤ fld s pgTMS TMS_NODE_IDX →
     Completes (i) s (fun t =>
       flagSet t pgTMS TMS_F_NODE_REJ = true ∧
       fld t pgTMS TMS_STAT = 4 ∧
       Answered s t o 1 (pgTMS + TMS_NODE_CMD.off) ∧
       Only books s t)) ∧
  (∀ (s : State) (o : Origin) (lv i : Nat) (n : Node),
     addrReject s o (pgTMS + TMS_NODE_CMD.off) = none →
     lv = fld s pgTMS TMS_LEVEL →
     i = fld s pgTMS TMS_NODE_IDX →
     i < levelNodes lv →
     mayUse (Origin.slice o) (ownerOfNode s lv i) = true →
     n = nodeOfWindow s (node (refreshNode s lv i) lv i) →
     n.weight ≠ 0 →
     (n.shapeEn = true → n.rate ≠ 0) →
     (n.shapeEn = true → (node s lv i).shapeEn = true) →
     Completes (.nodeWrite o) s (fun t =>
       node t lv i = { n with at_ := gtNow s } ∧
       TblOnly Node.init (nodeKey lv i) s.tm.node t.tm.node ∧
       Answered s t o 0 (pgTMS + TMS_NODE_CMD.off) ∧
       Only (.node :: books) s t)) ∧
  (∀ (s : State) (o : Origin) (lv i : Nat) (n : Node),
     addrReject s o (pgTMS + TMS_NODE_CMD.off) = none →
     lv = fld s pgTMS TMS_LEVEL →
     i = fld s pgTMS TMS_NODE_IDX →
     i < levelNodes lv →
     mayUse (Origin.slice o) (ownerOfNode s lv i) = true →
     n = nodeOfWindow s (node (refreshNode s lv i) lv i) →
     n.weight ≠ 0 →
     n.rate ≠ 0 →
     n.shapeEn = true →
     (node s lv i).shapeEn = false →
     Completes (.nodeWrite o) s (fun t =>
       node t lv i = { n with at_ := gtNow s, mode := true, settle := some (frame s, fld s pgTMS TMS_SETTLE_FRAMES), credit := 0 } ∧
       TblOnly Node.init (nodeKey lv i) s.tm.node t.tm.node ∧
       flagSet t pgTMS TMS_F_SETTLE_START = true ∧
       Answered s t o 0 (pgTMS + TMS_NODE_CMD.off) ∧
       Only (.node :: books) s t)) ∧
  (∀ (s : State) (o : Origin) (lv i : Nat) (n : Node),
     addrReject s o (pgTMS + TMS_NODE_CMD.off) = none →
     lv = fld s pgTMS TMS_LEVEL →
     i = fld s pgTMS TMS_NODE_IDX →
     i < levelNodes lv →
     mayUse (Origin.slice o) (ownerOfNode s lv i) = true →
     n = nodeOfWindow s (node (refreshNode s lv i) lv i) →
     n.weight = 0 ∨ (n.shapeEn = true ∧ n.rate = 0) →
     Completes (.nodeWrite o) s (fun t =>
       flagSet t pgTMS TMS_F_NODE_REJ = true ∧
       Answered s t o 1 (pgTMS + TMS_NODE_CMD.off) ∧
       Only books s t)) ∧
  (∀ (s : State) (o : Origin) (lv i : Nat),
     addrReject s o (pgTMS + TMS_NODE_CMD.off) = none →
     lv = fld s pgTMS TMS_LEVEL →
     i = fld s pgTMS TMS_NODE_IDX →
     i < levelNodes lv →
     mayUse (Origin.slice o) (ownerOfNode s lv i) = true →
     Completes (.nodeSettle o) s (fun t =>
       node t lv i = { node s lv i with mode := true, settle := some (frame s, fld s pgTMS TMS_SETTLE_FRAMES), credit := 0, at_ := gtNow s } ∧
       TblOnly Node.init (nodeKey lv i) s.tm.node t.tm.node ∧
       cntAt t (cntAddr pgTMS TMS_C_SETTLES) = min cntMax (cntAt s (cntAddr pgTMS TMS_C_SETTLES) + 1) ∧
       flagSet t pgTMS TMS_F_SETTLE_START = true ∧
       Answered s t o 0 (pgTMS + TMS_NODE_CMD.off) ∧
       Only (.node :: books) s t))

/-- At the end of its settle period a node returns to credit mode with at most CREDIT_HI, an empty one with none. An uplink port that is on sends the head frame of the queue its node chooses: the queue loses it and its charge, with the time stamped into its bytes where the port inserts one (NO_TRAILER where its trailer has no room), and a port held for want of an SA sends nothing and is counted. A prefetch brings the first expander-resident frame near a queue's head to a stacked buffer, or waits once for one; a spill writes the staged frame that the round robin picks to an expander; either keeps the order of the queue. The first request of a pool's wait queue that a buffer is to be had for is granted, and answers its context; the ones before and behind it stay. With nothing to do no frame moves. -/
def Obligations.FramesMoveAndWaitsEnd : Prop :=
  (∀ (s : State) (level : Fin 5) (i : Nat) (m : Node),
     m = node (refreshNode s level i) level i →
     i < levelNodes level →
     (node s level i).mode = true →
     (settleOf s (node s level i)).1 + (settleOf s (node s level i)).2 ≤ frame s →
     Completes (.settleEnd level i) s (fun t =>
       (node t level i).mode = false ∧
       (node t level i).credit = (if m.shapeEn && decide (0 < min m.credit ((m.creditHi * 65536 : Nat) : Int)) && !waiting s level i then 0 else min m.credit ((m.creditHi * 65536 : Nat) : Int)) ∧
       (node t level i).at_ = gtNow s ∧
       flagSet t pgTMS TMS_F_SETTLE_END = true ∧
       TblOnly Node.init (nodeKey level i) s.tm.node t.tm.node ∧
       Only [.node, .regs, .pmc] s t)) ∧
  (∀ (s : State) (level : Fin 5) (i : Nat),
     levelNodes level ≤ i ∨ (node s level i).mode = false ∨ frame s < (settleOf s (node s level i)).1 + (settleOf s (node s level i)).2 →
     Completes (.settleEnd level i) s (fun t =>
       t = s)) ∧
  (∀ (s : State) (q : Fin 24) (ptp : PtpKind) (k : Nat) (f : QFrame) (l : List QFrame) (ins : Bool),
     portOn s q = true →
     portChoice s q = some k →
     egressOpen s q = true →
     (queueOf s k).frames = f :: l →
     l.any lostFrame = false →
     ins = (insertsOn s q ptp && !(ptp == .udp6 && noTrailer f.bytes)) →
     Completes (.uplinkEgressPull q ptp) s (fun t =>
       (queueOf t k).frames = l ∧
       (queueOf t k).occ = (queueOf s k).occ - f.charge ∧
       TblOnly Queue.init k s.tm.q t.tm.q ∧
       (f.len ≤ fld s (pgETH q) ETH_MAX_FRAME →
         (eth t q).sent.map (fun x => (x.len, x.bytes, x.ptp, x.tod)) = some (if ins then (f.len, stamped s q ptp (insertTime s q) f.bytes, ptp, some (insertTime s q)) else (f.len, f.bytes, ptp, none)) ∧
         cntAt t (cntAddr (pgETH q) ETH_C_TX_FRAMES) = min cntMax (cntAt s (cntAddr (pgETH q) ETH_C_TX_FRAMES) + 1)) ∧
       (f.len ≤ fld s (pgETH q) ETH_MAX_FRAME → insertsOn s q ptp = true → ins = false → flagSet t pgTOD TOD_F_NO_TRAILER = true) ∧
       (fld s (pgETH q) ETH_MAX_FRAME < f.len → t.link.eth = s.link.eth ∧ cntAt t (cntAddr (pgETH q) ETH_C_TX_OVERSIZE) = min cntMax (cntAt s (cntAddr (pgETH q) ETH_C_TX_OVERSIZE) + 1)) ∧
       (ins = false → t.grid = s.grid) ∧
       Only [.queue, .node, .buf, .eth, .sa, .grid, .fifo, .regs, .cnt, .pmc, .trace] s t)) ∧
  (∀ (s : State) (q : Fin 24) (ptp : PtpKind),
     portOn s q = true →
     (portChoice s q).isSome = true →
     egressOpen s q = false →
     Completes (.uplinkEgressPull q ptp) s (fun t =>
       cntAt t (cntAddr (pgMSC q) MSC_C_TX_HELD) = min cntMax (cntAt s (cntAddr (pgMSC q) MSC_C_TX_HELD) + 1) ∧
       Only [.regs, .cnt, .pmc] s t)) ∧
  (∀ (s : State) (q : Fin 24) (ptp : PtpKind),
     portOn s q = false ∨ portChoice s q = none →
     Completes (.uplinkEgressPull q ptp) s (fun t =>
       t = s)) ∧
  (∀ (s : State) (q : Fin 65536) (i : Nat) (f : QFrame) (x h : Nat) (v : State),
     firstFrame (fun g => g.exp?.isSome) 0 (nearHead 0 (queueOf s q).frames) = some (i, f) →
     f.place = .expander x →
     askBytes s 5 (queueParty q) 1 f.len = some (h, v) →
     Completes (.prefetchMove q) s (fun t =>
       (queueOf t q).frames = (queueOf s q).frames.set i { f with handle := h, place := .stacked } ∧
       (queueOf t q).occ = (queueOf s q).occ ∧
       cntAt t (cntAddr pgTMQ TMQ_C_PREFETCH_BYTES) = min cntMax (cntAt s (cntAddr pgTMQ TMQ_C_PREFETCH_BYTES) + f.len) ∧
       TblOnly Queue.init q s.tm.q t.tm.q ∧
       Only [.queue, .buf, .freeCtr, .regs, .cnt, .pmc] s t)) ∧
  (∀ (s : State) (q : Fin 65536),
     firstFrame (fun g => g.exp?.isSome) 0 (nearHead 0 (queueOf s q).frames) = none →
     Completes (.prefetchMove q) s (fun t =>
       Only [.regs] s t)) ∧
  (∀ (s : State) (q : Fin 65536) (i : Nat) (f : QFrame) (pool : Nat),
     firstFrame (fun g => g.exp?.isSome) 0 (nearHead 0 (queueOf s q).frames) = some (i, f) →
     askBytes s 5 (queueParty q) 1 f.len = none →
     prefetchWaits s q = false →
     pool = poolFor 5 f.len →
     isSet s pgBPM (BPM_WAIT.at 5) = true →
     (waitQ s pool).length < waitMax →
     Completes (.prefetchMove q) s (fun t =>
       waitQ t pool = waitQ s pool ++ [⟨5, f.len, .prefetch q⟩] ∧
       TblOnly dnil pool s.tm.wait t.tm.wait ∧
       cntAt t (cntAddr pgBPM BPM_C_WAITS) = min cntMax (cntAt s (cntAddr pgBPM BPM_C_WAITS) + 1) ∧
       Only [.wait, .regs, .cnt, .pmc] s t)) ∧
  (∀ (s : State) (q : Fin 65536) (i : Nat) (f : QFrame),
     firstFrame (fun g => g.exp?.isSome) 0 (nearHead 0 (queueOf s q).frames) = some (i, f) →
     askBytes s 5 (queueParty q) 1 f.len = none →
     prefetchWaits s q = true →
     Completes (.prefetchMove q) s (fun t =>
       t = s)) ∧
  (∀ (s : State) (v k i d h : Nat) (dr : Tbl Nat) (f : QFrame) (w : State),
     drrPick s (spillSlices s) 1024 s.tm.drr s.tm.drrAt = some (v, dr, d) →
     stagedOf s v = some (k, i, f) →
     askBytes s 6 (queueParty k) 2 f.len = some (h, w) →
     Completes (.spillWrite) s (fun t =>
       (queueOf t k).frames = (queueOf s k).frames.set i { f with handle := h, place := .expander (handleExp h) } ∧
       (queueOf t k).occ = (queueOf s k).occ ∧
       (t.tm.drr, t.tm.drrAt) = (dr, d) ∧
       cntAt t (cntAddr pgTMQ TMQ_C_SPILL_BYTES) = min cntMax (cntAt s (cntAddr pgTMQ TMQ_C_SPILL_BYTES) + f.len) ∧
       TblOnly Queue.init k s.tm.q t.tm.q ∧
       Only [.queue, .spill, .buf, .freeCtr, .regs, .cnt, .pmc] s t)) ∧
  (∀ (s : State) (v k i d : Nat) (dr : Tbl Nat) (f : QFrame),
     drrPick s (spillSlices s) 1024 s.tm.drr s.tm.drrAt = some (v, dr, d) →
     stagedOf s v = some (k, i, f) →
     askBytes s 6 (queueParty k) 2 f.len = none →
     Completes (.spillWrite) s (fun t =>
       Only [.regs] s t)) ∧
  (∀ (s : State),
     drrPick s (spillSlices s) 1024 s.tm.drr s.tm.drrAt = none →
     Completes (.spillWrite) s (fun t =>
       Only [.regs] s t)) ∧
  (∀ (s : State) (pool : Fin 4) (w : WaitReq) (pre post : List WaitReq) (c : CtxId) (h : Nat) (v : State),
     waitQ s pool = pre ++ w :: post →
     pre.any (servable s) = false →
     servable s w = true →
     w.who = .engine c →
     allocBytes (setWaitQ s pool pre) w.req (tagCtx c) 1 w.bytes = some (h, v) →
     Completes (.bufferWaitGrant pool) s (fun t =>
       waitQ t pool = pre ++ post ∧
       TblOnly dnil pool s.tm.wait t.tm.wait ∧
       ((ctx s c).bpm = .waiting → (ctx t c).bpm = .ready { UnitRes.plain with handle := some (some h) }) ∧
       t.tm.buf = v.tm.buf ∧
       Only [.wait, .ctx, .buf, .freeCtr, .regs, .cnt, .pmc] s t)) ∧
  (∀ (s : State) (pool : Fin 4),
     (waitQ s pool).any (servable s) = false →
     Completes (.bufferWaitGrant pool) s (fun t =>
       t = s)) ∧
  (∀ (s : State) (pool : Fin 4),
     waitQ s pool = [] →
     Completes (.bufferWaitGrant pool) s (fun t =>
       t = s))

/-- Migration starts on an expander that is up when the reservations stand without its share, else code 8, or code 1 with REMOVE_REJ; a cancel ends it. A link-down command fences and resets an expander that holds no payload. A migration moves one frame to another expander, or else to the stacked tier. A link-up of an expander that is off or lost leaves it up with its capacity, at most 512 GiB, and LINK_UP, or training, which times out after 800 frames with LINK_LOST. Migration is done when no granule is left: EMPTY, MIG_DONE. A link lost while up, migrating or empty leaves STATE 5 with LINK_LOST. A failed stack is out of use with STACK_FAIL. In any other state nothing happens. -/
def Obligations.Expanders : Prop :=
  (∀ (s : State) (o : Origin) (x : Fin 4),
     addrReject s o (pgCXL x + CXL_CMD.off) = none →
     expState s x = 2 →
     rsvSum s ≤ rsvCap s - expShare s x →
     Completes (.cxlMigrate o x) s (fun t =>
       expState t x = 3 ∧
       (List.range 4).all (fun y => y == x.val || expState t y == expState s y) = true ∧
       Answered s t o 0 (pgCXL x + CXL_CMD.off) ∧
       Only books s t)) ∧
  (∀ (s : State) (o : Origin) (x : Fin 4),
     addrReject s o (pgCXL x + CXL_CMD.off) = none →
     expState s x = 2 →
     rsvCap s - expShare s x < rsvSum s →
     Completes (.cxlMigrate o x) s (fun t =>
       expState t x = 2 ∧
       flagSet t (pgCXL x) CXL_F_REMOVE_REJ = true ∧
       Answered s t o 1 (pgCXL x + CXL_CMD.off) ∧
       Only books s t)) ∧
  (∀ (s : State) (i : Instr) (o : Origin) (x : Fin 4),
     (i = .cxlMigrate o x ∧ expState s x ≠ 2) ∨ (i = .cxlCancel o x ∧ expState s x ≠ 3) →
     addrReject s o (pgCXL x + CXL_CMD.off) = none →
     Completes (i) s (fun t =>
       expState t x = expState s x ∧
       Answered s t o 8 (pgCXL x + CXL_CMD.off) ∧
       Only books s t)) ∧
  (∀ (s : State) (o : Origin) (x : Fin 4),
     addrReject s o (pgCXL x + CXL_CMD.off) = none →
     expState s x = 3 →
     Completes (.cxlCancel o x) s (fun t =>
       expState t x = 2 ∧
       (List.range 4).all (fun y => y == x.val || expState t y == expState s y) = true ∧
       Answered s t o 0 (pgCXL x + CXL_CMD.off) ∧
       Only books s t)) ∧
  (∀ (s : State) (o : Origin) (x : Fin 4),
     addrReject s o (pgCXL x + CXL_CMD.off) = none →
     (expState s x ≠ 2 ∧ expState s x ≠ 3) ∨ usedOn s x = [] →
     Completes (.cxlLinkDown o x) s (fun t =>
       expState t x = 0 ∧
       cntAt t (cntAddr pgFLT FLT_C_FENCES) = min cntMax (cntAt s (cntAddr pgFLT FLT_C_FENCES) + 1) ∧
       cntAt t (cntAddr pgFLT FLT_C_BLOCK_RESETS) = min cntMax (cntAt s (cntAddr pgFLT FLT_C_BLOCK_RESETS) + 1) ∧
       Answered s t o 0 (pgCXL x + CXL_CMD.off) ∧
       t.tm.q = s.tm.q)) ∧
  (∀ (s : State) (o : Origin) (x : Fin 4) (capGib : Nat),
     addrReject s o (pgCXL x + CXL_CMD.off) = none →
     expState s x = 0 ∨ expState s x = 4 ∨ expState s x = 5 →
     capGib ≠ 0 →
     Completes (.cxlLinkUp o x capGib) s (fun t =>
       expState t x = 2 ∧
       fld t (pgCXL x) CXL_CAP_GIB = min 512 capGib ∧
       flagSet t (pgCXL x) CXL_F_LINK_UP = true ∧
       Answered s t o 0 (pgCXL x + CXL_CMD.off) ∧
       t.tm = s.tm)) ∧
  (∀ (s : State) (o : Origin) (x : Fin 4),
     addrReject s o (pgCXL x + CXL_CMD.off) = none →
     expState s x = 0 ∨ expState s x = 4 ∨ expState s x = 5 →
     Completes (.cxlLinkUp o x 0) s (fun t =>
       expState t x = 1 ∧
       tget dnone t.tm.exp x = some (frame s) ∧
       Answered s t o 0 (pgCXL x + CXL_CMD.off))) ∧
  (∀ (s : State) (o : Origin) (x : Fin 4) (capGib : Nat),
     addrReject s o (pgCXL x + CXL_CMD.off) = none →
     expState s x = 1 ∨ expState s x = 2 ∨ expState s x = 3 →
     Completes (.cxlLinkUp o x capGib) s (fun t =>
       expState t x = expState s x ∧
       Answered s t o 8 (pgCXL x + CXL_CMD.off) ∧
       Only books s t)) ∧
  (∀ (s : State) (x : Fin 4) (f : Nat),
     tget dnone s.tm.exp x = some f →
     expState s x = 1 →
     f + 800 ≤ frame s →
     Completes (.cxlTrainTimeout x) s (fun t =>
       expState t x = 0 ∧
       flagSet t (pgCXL x) CXL_F_LINK_LOST = true ∧
       tget dnone t.tm.exp x = none)) ∧
  (∀ (s : State) (x : Fin 4),
     tget dnone s.tm.exp x = none ∨ expState s x ≠ 1 →
     Completes (.cxlTrainTimeout x) s (fun t =>
       t = s)) ∧
  (∀ (s : State) (x : Fin 4),
     expState s x = 3 →
     usedOn s x = [] →
     Completes (.migrationDone x) s (fun t =>
       expState t x = 4 ∧
       flagSet t (pgCXL x) CXL_F_MIG_DONE = true ∧
       (List.range 4).all (fun y => y == x.val || expState t y == expState s y) = true ∧
       Only alerts s t)) ∧
  (∀ (s : State) (x : Fin 4),
     expState s x ≠ 3 ∨ usedOn s x ≠ [] →
     Completes (.migrationDone x) s (fun t =>
       t = s)) ∧
  (∀ (s : State) (x : Fin 4) (k i h : Nat) (f : QFrame) (v : State),
     expState s x = 3 →
     frameOn s x = some (k, i, f) →
     askBytes s 24 (queueParty k) 2 f.len = some (h, v) →
     Completes (.migrationBufferMove x) s (fun t =>
       (queueOf t k).frames = (queueOf s k).frames.set i { f with handle := h, place := .expander (handleExp h) } ∧
       (queueOf t k).occ = (queueOf s k).occ ∧
       cntAt t (cntAddr (pgCXL x) CXL_C_MIGRATED_BYTES) = min cntMax (cntAt s (cntAddr (pgCXL x) CXL_C_MIGRATED_BYTES) + f.len) ∧
       TblOnly Queue.init k s.tm.q t.tm.q ∧
       Only [.queue, .buf, .freeCtr, .regs, .cnt, .pmc] s t)) ∧
  (∀ (s : State) (x : Fin 4) (k i h : Nat) (f : QFrame) (v : State),
     expState s x = 3 →
     frameOn s x = some (k, i, f) →
     askBytes s 24 (queueParty k) 2 f.len = none →
     askBytes s 24 (queueParty k) 1 f.len = some (h, v) →
     Completes (.migrationBufferMove x) s (fun t =>
       (queueOf t k).frames = (queueOf s k).frames.set i { f with handle := h, place := .stacked } ∧
       (queueOf t k).occ = (queueOf s k).occ ∧
       cntAt t (cntAddr (pgCXL x) CXL_C_MIGRATED_BYTES) = min cntMax (cntAt s (cntAddr (pgCXL x) CXL_C_MIGRATED_BYTES) + f.len) ∧
       TblOnly Queue.init k s.tm.q t.tm.q ∧
       Only [.queue, .buf, .freeCtr, .regs, .cnt, .pmc] s t)) ∧
  (∀ (s : State) (x : Fin 4),
     expState s x ≠ 3 →
     Completes (.migrationBufferMove x) s (fun t =>
       t = s)) ∧
  (∀ (s : State) (x : Fin 4),
     expState s x = 2 ∨ expState s x = 3 ∨ expState s x = 4 →
     usedOn s x = [] →
     bitAt (react s 54) 2 = false →
     bitAt (react s 54) 3 = false →
     Completes (.expanderLinkLost x) s (fun t =>
       expState t x = 5 ∧
       flagSet t (pgCXL x) CXL_F_LINK_LOST = true ∧
       sourceSet t 54 = true)) ∧
  (∀ (s : State) (x : Fin 4),
     expState s x = 0 ∨ expState s x = 1 ∨ expState s x = 5 →
     Completes (.expanderLinkLost x) s (fun t =>
       t = s)) ∧
  (∀ (s : State) (stack : Fin 4),
     bitAt (react s 53) 2 = false →
     bitAt (react s 53) 3 = false →
     Completes (.stackFail stack) s (fun t =>
       bitAt (fld t pgHBM HBM_STACK_OK) stack = false ∧
       flagSet t pgHBM HBM_F_STACK_FAIL = true ∧
       sourceSet t 53 = true ∧
       Only alerts s t))

/-- On an entry of an ONU that the slice owns, a read of a slot shows MODE, the check value, SALT, PN, LAST_PN, the entry flags and the four counters, and no key; a read of DIR 2 the check value of the PLOAM key. A write that R217 allows sets the slot (or the PLOAM key) of the window and no other, and is counted; while a tamper alarm stands it has code 7, of an invalid record or a slot active or in grace or of another mode code 8, of a slot that is none code 1, each with KEY_REJ and nothing written; one that loses its cycle has code 4. An invalidation empties a slot that is neither active nor in grace. Another slice's entry has code 2. -/
def Obligations.KeyWindow : Prop :=
  (∀ (s : State) (o : Origin) (r : KeyReq) (j : Nat) (k : KeySlot),
     addrReject s o (pgKEY + KEY_CMD.off) = none →
     r = keyOfWindow s →
     mayUse (Origin.slice o) (onuOwner s (r.u / 512) (r.u % 512)) = true →
     r.dir < 2 →
     r.index s = some j →
     k = (keyEntry s r.u).slot (r.dir == 1) j →
     Completes (.keyRead o) s (fun t =>
       fld t pgKEY KEY_MODE = k.mode % 4 ∧
       fld t pgKEY KEY_KCV = k.kcv % 2 ^ 24 ∧
       wordsAt t (pgKEY + KEY_SALT.off) 2 = [BitVec.ofNat 32 k.salt.toNat, BitVec.ofNat 32 (k.salt.toNat >>> 32)] ∧
       wordsAt t (pgKEY + KEY_PN.off) 2 = [BitVec.ofNat 32 k.pn, BitVec.ofNat 32 (k.pn >>> 32)] ∧
       wordsAt t (pgKEY + KEY_LAST_PN.off) 2 = [BitVec.ofNat 32 k.lastPn, BitVec.ofNat 32 (k.lastPn >>> 32)] ∧
       fld t pgKEY KEY_ENTRY_FLAGS = k.warned.toNat + 2 * k.exhausted.toNat ∧
       wordsAt t (pgKEY + KEY_SLOT_CNT.off) 8 = cntWords 4 k.cnts ∧
       wordsAt t (pgKEY + KEY_KEY_DATA.off) 8 = wordsAt s (pgKEY + KEY_KEY_DATA.off) 8 ∧
       Answered s t o 0 (pgKEY + KEY_CMD.off) ∧
       Only books s t)) ∧
  (∀ (s : State) (o : Origin) (r : KeyReq),
     addrReject s o (pgKEY + KEY_CMD.off) = none →
     r = keyOfWindow s →
     mayUse (Origin.slice o) (onuOwner s (r.u / 512) (r.u % 512)) = true →
     r.dir = 2 →
     Completes (.keyRead o) s (fun t =>
       fld t pgKEY KEY_KCV = kcvOf (beBytes (keyEntry s r.u).ploam.toNat 16) % 2 ^ 24 ∧
       fld t pgKEY KEY_MODE = 0 ∧
       Answered s t o 0 (pgKEY + KEY_CMD.off) ∧
       Only books s t)) ∧
  (∀ (s : State) (i : Instr) (o : Origin) (b : Bool),
     i = .keyRead o ∨ i = .keyWrite o b ∨ i = .keyInvalidate o →
     addrReject s o (pgKEY + KEY_CMD.off) = none →
     mayUse (Origin.slice o) (onuOwner s ((keyOfWindow s).u / 512) ((keyOfWindow s).u % 512)) = false →
     Completes (i) s (fun t =>
       fld t pgKEY KEY_STAT = 2 ∧
       fld t pgKEY KEY_MODE = 0 ∧
       Answered s t o 2 (pgKEY + KEY_CMD.off) ∧
       Only books s t)) ∧
  (∀ (s : State) (o : Origin) (r : KeyReq) (j : Nat) (e : KeyEntry),
     addrReject s o (pgKEY + KEY_CMD.off) = none →
     r = keyOfWindow s →
     mayUse (Origin.slice o) (onuOwner s (r.u / 512) (r.u % 512)) = true →
     tampered s = false →
     (keyRecord s r.u).valid = true →
     r.dir < 2 →
     r.index s = some j →
     e = keyEntry s r.u →
     slotBusy s e (r.dir == 1) j = false →
     modeClash e (r.dir == 1) j r.mode = false →
     r.mode ≠ 3 →
     ((keyRecord s r.u).ch = 0 → r.mode ≠ 2 ∧ r.dir = 0) →
     Completes (.keyWrite o false) s (fun t =>
       keyEntry t r.u = e.withSlot (r.dir == 1) j (r.fill s (e.slot (r.dir == 1) j)) ∧
       TblOnly KeyEntry.init r.u s.keys t.keys ∧
       cntAt t (cntAddr pgKEY KEY_C_KEY_WRITES) = min cntMax (cntAt s (cntAddr pgKEY KEY_C_KEY_WRITES) + 1) ∧
       Answered s t o 0 (pgKEY + KEY_CMD.off) ∧
       Only (.keys :: books) s t)) ∧
  (∀ (s : State) (o : Origin) (r : KeyReq),
     addrReject s o (pgKEY + KEY_CMD.off) = none →
     r = keyOfWindow s →
     mayUse (Origin.slice o) (onuOwner s (r.u / 512) (r.u % 512)) = true →
     tampered s = false →
     (keyRecord s r.u).valid = true →
     r.dir = 2 →
     Completes (.keyWrite o false) s (fun t =>
       keyEntry t r.u = { keyEntry s r.u with ploam := BitVec.ofNat 128 r.key.toNat } ∧
       TblOnly KeyEntry.init r.u s.keys t.keys ∧
       Answered s t o 0 (pgKEY + KEY_CMD.off) ∧
       Only (.keys :: books) s t)) ∧
  (∀ (s : State) (o : Origin) (r : KeyReq) (n : Nat),
     addrReject s o (pgKEY + KEY_CMD.off) = none →
     r = keyOfWindow s →
     mayUse (Origin.slice o) (onuOwner s (r.u / 512) (r.u % 512)) = true →
     (tampered s = true ∧ n = 7) ∨ (tampered s = false ∧ (keyRecord s r.u).valid = false ∧ n = 8) ∨ (tampered s = false ∧ (keyRecord s r.u).valid = true ∧ r.dir ≠ 2 ∧ r.index s = none ∧ n = 1) →
     Completes (.keyWrite o false) s (fun t =>
       flagSet t pgKEY KEY_F_KEY_REJ = true ∧
       Answered s t o n (pgKEY + KEY_CMD.off) ∧
       Only books s t)) ∧
  (∀ (s : State) (o : Origin) (r : KeyReq) (j : Nat),
     addrReject s o (pgKEY + KEY_CMD.off) = none →
     r = keyOfWindow s →
     mayUse (Origin.slice o) (onuOwner s (r.u / 512) (r.u % 512)) = true →
     tampered s = false →
     (keyRecord s r.u).valid = true →
     r.dir < 2 →
     r.index s = some j →
     slotBusy s (keyEntry s r.u) (r.dir == 1) j = true →
     Completes (.keyWrite o false) s (fun t =>
       flagSet t pgKEY KEY_F_KEY_REJ = true ∧
       flagSet t (pgCH (r.u / 512) (keyRecord s r.u).ch) CH_F_KEY_SLOT_BUSY = true ∧
       Answered s t o 8 (pgKEY + KEY_CMD.off) ∧
       Only books s t)) ∧
  (∀ (s : State) (o : Origin) (r : KeyReq),
     addrReject s o (pgKEY + KEY_CMD.off) = none →
     r = keyOfWindow s →
     mayUse (Origin.slice o) (onuOwner s (r.u / 512) (r.u % 512)) = true →
     Completes (.keyWrite o true) s (fun t =>
       fld t pgKEY KEY_STAT = 8 ∧
       Answered s t o 4 (pgKEY + KEY_CMD.off) ∧
       Only books s t)) ∧
  (∀ (s : State) (o : Origin) (r : KeyReq) (j : Nat),
     addrReject s o (pgKEY + KEY_CMD.off) = none →
     r = keyOfWindow s →
     mayUse (Origin.slice o) (onuOwner s (r.u / 512) (r.u % 512)) = true →
     r.dir < 2 →
     r.index s = some j →
     slotBusy s (keyEntry s r.u) (r.dir == 1) j = false →
     Completes (.keyInvalidate o) s (fun t =>
       keyEntry t r.u = (keyEntry s r.u).withSlot (r.dir == 1) j ((keyEntry s r.u).slot (r.dir == 1) j).cleared ∧
       TblOnly KeyEntry.init r.u s.keys t.keys ∧
       Answered s t o 0 (pgKEY + KEY_CMD.off) ∧
       Only (.keys :: books) s t)) ∧
  (∀ (s : State) (o : Origin) (r : KeyReq) (j : Nat),
     addrReject s o (pgKEY + KEY_CMD.off) = none →
     r = keyOfWindow s →
     mayUse (Origin.slice o) (onuOwner s (r.u / 512) (r.u % 512)) = true →
     r.dir < 2 →
     r.index s = some j →
     slotBusy s (keyEntry s r.u) (r.dir == 1) j = true →
     Completes (.keyInvalidate o) s (fun t =>
       flagSet t pgKEY KEY_F_KEY_REJ = true ∧
       Answered s t o 8 (pgKEY + KEY_CMD.off) ∧
       Only books s t))

/-- Of the 68 SAs of a port, a read shows SUITE, SSCI, SCI and NEXT_PN, and no key; a write makes the SA of the window valid, or, while a tamper alarm stands, has code 7 and REJECT; an invalidation clears valid, key and SALT; an index beyond has code 1. TX_AN takes over when the SA it names is valid. A tamper alarm, or KEY_ZEROIZE written with 1, empties every key slot, PLOAM key and SA key of the device and sets ZEROIZED; where the tamper source asks for no reset, CAUSE holds the alarm, and TAMPER and the source are set. -/
def Obligations.SecureAssociationsAndTamper : Prop :=
  (∀ (s : State) (o : Origin) (q : Fin 24) (i : Nat) (a : MacSa),
     addrReject s o (pgMSC q + MSC_SA_CMD.off) = none →
     i = fld s (pgMSC q) MSC_SA_IDX →
     i < 68 →
     a = saAt s q i →
     Completes (.saRead o q) s (fun t =>
       fld t (pgMSC q) MSC_SA_STAT = 4 * a.valid.toNat ∧
       fld t (pgMSC q) MSC_SUITE = a.suite % 2 ∧
       reg t (pgMSC q + MSC_SSCI.off) = a.ssci ∧
       wordsAt t (pgMSC q + MSC_SCI.off) 2 = [BitVec.ofNat 32 a.sci.toNat, BitVec.ofNat 32 (a.sci.toNat >>> 32)] ∧
       wordsAt t (pgMSC q + MSC_NEXT_PN.off) 2 = [BitVec.ofNat 32 a.pn, BitVec.ofNat 32 (a.pn >>> 32)] ∧
       wordsAt t (pgMSC q + MSC_SAK.off) 8 = wordsAt s (pgMSC q + MSC_SAK.off) 8 ∧
       Answered s t o 0 (pgMSC q + MSC_SA_CMD.off) ∧
       Only books s t)) ∧
  (∀ (s : State) (o : Origin) (q : Fin 24) (i : Nat),
     addrReject s o (pgMSC q + MSC_SA_CMD.off) = none →
     i = fld s (pgMSC q) MSC_SA_IDX →
     i < 68 →
     tampered s = false →
     Completes (.saWrite o q) s (fun t =>
       saAt t q i = saOfWindow s q ∧
       TblOnly MacSa.init (68 * q + i) s.link.sa t.link.sa ∧
       Answered s t o 0 (pgMSC q + MSC_SA_CMD.off) ∧
       Only (.sa :: books) s t)) ∧
  (∀ (s : State) (o : Origin) (q : Fin 24) (i : Nat),
     addrReject s o (pgMSC q + MSC_SA_CMD.off) = none →
     i = fld s (pgMSC q) MSC_SA_IDX →
     i < 68 →
     tampered s = true →
     Completes (.saWrite o q) s (fun t =>
       bitAt (fld t (pgMSC q) MSC_SA_STAT) 1 = true ∧
       Answered s t o 7 (pgMSC q + MSC_SA_CMD.off) ∧
       Only books s t)) ∧
  (∀ (s : State) (o : Origin) (q : Fin 24) (i : Nat),
     addrReject s o (pgMSC q + MSC_SA_CMD.off) = none →
     i = fld s (pgMSC q) MSC_SA_IDX →
     i < 68 →
     Completes (.saInvalidate o q) s (fun t =>
       saAt t q i = { saAt s q i with valid := false, key := 0, salt := 0 } ∧
       TblOnly MacSa.init (68 * q + i) s.link.sa t.link.sa ∧
       Answered s t o 0 (pgMSC q + MSC_SA_CMD.off) ∧
       Only (.sa :: books) s t)) ∧
  (∀ (s : State) (c : Instr) (o : Origin) (q : Fin 24),
     c = .saRead o q ∨ c = .saWrite o q ∨ c = .saInvalidate o q →
     addrReject s o (pgMSC q + MSC_SA_CMD.off) = none →
     68 ≤ fld s (pgMSC q) MSC_SA_IDX →
     Completes (c) s (fun t =>
       fld t (pgMSC q) MSC_SA_STAT = 2 ∧
       Answered s t o 1 (pgMSC q + MSC_SA_CMD.off) ∧
       Only books s t)) ∧
  (∀ (s : State) (q : Fin 24) (a : Nat),
     a = fld s (pgMSC q) MSC_TX_AN →
     (saAt s q a).valid = true →
     Completes (.txAnSwitch q) s (fun t =>
       eth t q = { eth s q with an := a } ∧
       TblOnly EthSt.init q s.link.eth t.link.eth ∧
       Only [.eth] s t)) ∧
  (∀ (s : State) (q : Fin 24),
     (saAt s q (fld s (pgMSC q) MSC_TX_AN)).valid = false →
     Completes (.txAnSwitch q) s (fun t =>
       t = s)) ∧
  (∀ (s : State) (alarm : Fin 6),
     Completes (.tamperAlarm alarm) s (fun t =>
       (∀ u, (keyEntry t u).zeroed = keyEntry t u) ∧
       (∀ j, (tget MacSa.init t.link.sa j).valid = false ∧ (tget MacSa.init t.link.sa j).key = 0 ∧ (tget MacSa.init t.link.sa j).salt = 0) ∧
       isSet t pgCIP CIP_ZEROIZED = true)) ∧
  (∀ (s : State) (alarm : Fin 6),
     bitAt (react s 55) 2 = false →
     bitAt (react s 55) 3 = false →
     Completes (.tamperAlarm alarm) s (fun t =>
       bitAt (fld t pgCIP CIP_CAUSE) alarm = true ∧
       flagSet t pgCIP CIP_F_TAMPER = true ∧
       sourceSet t 55 = true ∧
       Only (.keys :: .sa :: alerts) s t)) ∧
  (∀ (s : State) (o : Origin) (data : Word),
     addrReject s o (pgCIP + CIP_KEY_ZEROIZE.off) = none →
     data.getLsbD 0 = true →
     Completes (.keyZeroize o data) s (fun t =>
       (∀ u, (keyEntry t u).zeroed = keyEntry t u) ∧
       (∀ j, (tget MacSa.init t.link.sa j).valid = false ∧ (tget MacSa.init t.link.sa j).key = 0 ∧ (tget MacSa.init t.link.sa j).salt = 0) ∧
       isSet t pgCIP CIP_ZEROIZED = true)) ∧
  (∀ (s : State) (o : Origin) (data : Word),
     addrReject s o (pgCIP + CIP_KEY_ZEROIZE.off) = none →
     data.getLsbD 0 = true →
     bitAt (react s 55) 2 = false →
     bitAt (react s 55) 3 = false →
     Completes (.keyZeroize o data) s (fun t =>
       bitAt (fld t pgCIP CIP_CAUSE) 5 = true ∧
       Answered s t o 0 (pgCIP + CIP_KEY_ZEROIZE.off) ∧
       Only (.keys :: .sa :: .fifo :: books) s t)) ∧
  (∀ (s : State) (o : Origin) (data : Word),
     addrReject s o (pgCIP + CIP_KEY_ZEROIZE.off) = none →
     data.getLsbD 0 = false →
     Completes (.keyZeroize o data) s (fun t =>
       Answered s t o 0 (pgCIP + CIP_KEY_ZEROIZE.off) ∧
       Only books s t))

/-- A frame received on a port that is on is dropped and counted for a bad FCS, as a runt, as oversize, as a pause frame; otherwise it is counted with its bytes and waits to land, as the newest of its queue, with its arrival position; with MACsec verification on it does so in a quarantine buffer when its SA is known, its PN is inside the window and its tag is good, waits for such a buffer where it may, and else it is dropped with the counter of the reason. A refresh repeats XOFF while the fill stays at FC_LO. A link change sets the link bits with LINK_UP or LINK_DOWN. A margin scan runs until it is done, one at a time. Lane locks set CDR and PRBS status; the error count of a checker is free (log entry 3). -/
def Obligations.UplinkPortsAndLanes : Prop :=
  (∀ (s : State) (q : Fin 24) (f : UplinkIn),
     portOn s q = false →
     Completes (.uplinkReceiveFrame q f) s (fun t =>
       t = s)) ∧
  (∀ (s : State) (q : Fin 24) (f : UplinkIn),
     portOn s q = true →
     f.fcsOk = false →
     Completes (.uplinkReceiveFrame q f) s (fun t =>
       cntAt t (cntAddr (pgETH q) ETH_C_RX_FCS_ERR) = min cntMax (cntAt s (cntAddr (pgETH q) ETH_C_RX_FCS_ERR) + 1) ∧
       t.link.rx = s.link.rx ∧
       Only [.regs, .cnt, .pmc] s t)) ∧
  (∀ (s : State) (q : Fin 24) (f : UplinkIn),
     portOn s q = true →
     f.fcsOk = true →
     f.len < 64 →
     Completes (.uplinkReceiveFrame q f) s (fun t =>
       cntAt t (cntAddr (pgETH q) ETH_C_RX_RUNT) = min cntMax (cntAt s (cntAddr (pgETH q) ETH_C_RX_RUNT) + 1) ∧
       t.link.rx = s.link.rx ∧
       Only [.regs, .cnt, .pmc] s t)) ∧
  (∀ (s : State) (q : Fin 24) (f : UplinkIn),
     portOn s q = true →
     f.fcsOk = true →
     64 ≤ f.len →
     fld s (pgETH q) ETH_MAX_FRAME < f.len →
     Completes (.uplinkReceiveFrame q f) s (fun t =>
       cntAt t (cntAddr (pgETH q) ETH_C_RX_OVERSIZE) = min cntMax (cntAt s (cntAddr (pgETH q) ETH_C_RX_OVERSIZE) + 1) ∧
       t.link.rx = s.link.rx ∧
       Only [.regs, .cnt, .pmc] s t)) ∧
  (∀ (s : State) (q : Fin 24) (f : UplinkIn),
     portOn s q = true →
     f.fcsOk = true →
     64 ≤ f.len →
     f.len ≤ fld s (pgETH q) ETH_MAX_FRAME →
     f.pause = true →
     Completes (.uplinkReceiveFrame q f) s (fun t =>
       cntAt t (cntAddr (pgETH q) ETH_C_RX_PAUSE_IGNORED) = min cntMax (cntAt s (cntAddr (pgETH q) ETH_C_RX_PAUSE_IGNORED) + 1) ∧
       t.link.rx = s.link.rx ∧
       Only [.regs, .cnt, .pmc] s t)) ∧
  (∀ (s : State) (q : Fin 24) (f : UplinkIn),
     portOn s q = true →
     f.fcsOk = true →
     64 ≤ f.len →
     f.len ≤ fld s (pgETH q) ETH_MAX_FRAME →
     f.pause = false →
     active s (pgMSC q) MSC_RX_EN = false ∨ fld s (pgMSC q) MSC_VALIDATE = 0 →
     Completes (.uplinkReceiveFrame q f) s (fun t =>
       t.link.rx = s.link.rx ++ [⟨q.val, none, f.len, f.bytes, now s, f.ptpEvent && isSet s pgTOD (TOD_RX_TS_EN.at q)⟩] ∧
       cntAt t (cntAddr (pgETH q) ETH_C_RX_FRAMES) = min cntMax (cntAt s (cntAddr (pgETH q) ETH_C_RX_FRAMES) + 1) ∧
       cntAt t (cntAddr (pgETH q) ETH_C_RX_BYTES) = min cntMax (cntAt s (cntAddr (pgETH q) ETH_C_RX_BYTES) + f.len) ∧
       Only [.rx, .eth, .regs, .cnt, .pmc] s t)) ∧
  (∀ (s : State) (q : Fin 24) (f : UplinkIn) (m : MacsecIn) (i : Nat) (u : State) (h : Nat) (v : State),
     portOn s q = true →
     f.fcsOk = true →
     64 ≤ f.len →
     f.len ≤ fld s (pgETH q) ETH_MAX_FRAME →
     f.pause = false →
     active s (pgMSC q) MSC_RX_EN = true →
     fld s (pgMSC q) MSC_VALIDATE ≠ 0 →
     f.macsec = some m →
     u = bump (bump s (pgETH q) ETH_C_RX_FRAMES 1) (pgETH q) ETH_C_RX_BYTES f.len →
     rxSa s q m = some i →
     isSet s (pgMSC q) MSC_REPLAY_EN = false ∨ (saAt s q i).pn ≤ m.pn + fld s (pgMSC q) MSC_REPLAY_WIN →
     askBytes u 0 tagQuarantine 0 f.len = some (h, v) →
     m.tagOk = true →
     Completes (.uplinkReceiveFrame q f) s (fun t =>
       t.link.rx = s.link.rx ++ [⟨q.val, some h, f.len, f.bytes, now s, f.ptpEvent && isSet s pgTOD (TOD_RX_TS_EN.at q)⟩] ∧
       t.tm.buf = v.tm.buf ∧
       (saAt t q i).pn = max (saAt s q i).pn (min (2 ^ 64 - 1) (m.pn + 1)) ∧
       cntAt t (cntAddr (pgMSC q) MSC_C_RX_OK) = min cntMax (cntAt s (cntAddr (pgMSC q) MSC_C_RX_OK) + 1) ∧
       Only [.rx, .sa, .buf, .freeCtr, .eth, .regs, .cnt, .pmc] s t)) ∧
  (∀ (s : State) (q : Fin 24) (f : UplinkIn) (m : MacsecIn) (i : Nat) (u : State) (h : Nat) (v : State),
     portOn s q = true →
     f.fcsOk = true →
     64 ≤ f.len →
     f.len ≤ fld s (pgETH q) ETH_MAX_FRAME →
     f.pause = false →
     active s (pgMSC q) MSC_RX_EN = true →
     fld s (pgMSC q) MSC_VALIDATE ≠ 0 →
     f.macsec = some m →
     u = bump (bump s (pgETH q) ETH_C_RX_FRAMES 1) (pgETH q) ETH_C_RX_BYTES f.len →
     rxSa s q m = some i →
     isSet s (pgMSC q) MSC_REPLAY_EN = false ∨ (saAt s q i).pn ≤ m.pn + fld s (pgMSC q) MSC_REPLAY_WIN →
     askBytes u 0 tagQuarantine 0 f.len = some (h, v) →
     m.tagOk = false →
     Completes (.uplinkReceiveFrame q f) s (fun t =>
       t.link.rx = s.link.rx ∧
       t.link.sa = s.link.sa ∧
       flagSet t (pgMSC q) MSC_F_TAG_FAIL = true)) ∧
  (∀ (s : State) (q : Fin 24) (f : UplinkIn) (m : MacsecIn) (i : Nat) (u : State) (pool : Nat),
     portOn s q = true →
     f.fcsOk = true →
     64 ≤ f.len →
     f.len ≤ fld s (pgETH q) ETH_MAX_FRAME →
     f.pause = false →
     active s (pgMSC q) MSC_RX_EN = true →
     fld s (pgMSC q) MSC_VALIDATE ≠ 0 →
     f.macsec = some m →
     u = bump (bump s (pgETH q) ETH_C_RX_FRAMES 1) (pgETH q) ETH_C_RX_BYTES f.len →
     rxSa s q m = some i →
     isSet s (pgMSC q) MSC_REPLAY_EN = false ∨ (saAt s q i).pn ≤ m.pn + fld s (pgMSC q) MSC_REPLAY_WIN →
     askBytes u 0 tagQuarantine 0 f.len = none →
     pool = poolFor 0 f.len →
     isSet s pgBPM (BPM_WAIT.at 0) = true →
     (waitQ s pool).length < waitMax →
     Completes (.uplinkReceiveFrame q f) s (fun t =>
       t.link.rx = s.link.rx ∧
       waitQ t pool = waitQ s pool ++ [⟨0, f.len, .quarantine q f (now s)⟩] ∧
       TblOnly dnil pool s.tm.wait t.tm.wait ∧
       Only [.wait, .regs, .cnt, .pmc] s t)) ∧
  (∀ (s : State) (q : Fin 24) (f : UplinkIn) (m : MacsecIn) (i : Nat) (u : State),
     portOn s q = true →
     f.fcsOk = true →
     64 ≤ f.len →
     f.len ≤ fld s (pgETH q) ETH_MAX_FRAME →
     f.pause = false →
     active s (pgMSC q) MSC_RX_EN = true →
     fld s (pgMSC q) MSC_VALIDATE ≠ 0 →
     f.macsec = some m →
     u = bump (bump s (pgETH q) ETH_C_RX_FRAMES 1) (pgETH q) ETH_C_RX_BYTES f.len →
     rxSa s q m = some i →
     isSet s (pgMSC q) MSC_REPLAY_EN = false ∨ (saAt s q i).pn ≤ m.pn + fld s (pgMSC q) MSC_REPLAY_WIN →
     askBytes u 0 tagQuarantine 0 f.len = none →
     isSet s pgBPM (BPM_WAIT.at 0) = false ∨ waitMax ≤ (waitQ s (poolFor 0 f.len)).length →
     Completes (.uplinkReceiveFrame q f) s (fun t =>
       t.link.rx = s.link.rx ∧
       flagSet t (pgETH q) ETH_F_FIFO_DROP = true ∧
       cntAt t (cntAddr (pgMSC q) MSC_C_RX_QUAR_DROP) = min cntMax (cntAt s (cntAddr (pgMSC q) MSC_C_RX_QUAR_DROP) + 1) ∧
       Only [.regs, .cnt, .pmc] s t)) ∧
  (∀ (s : State) (q : Fin 24) (f : UplinkIn) (m : MacsecIn),
     portOn s q = true →
     f.fcsOk = true →
     64 ≤ f.len →
     f.len ≤ fld s (pgETH q) ETH_MAX_FRAME →
     f.pause = false →
     active s (pgMSC q) MSC_RX_EN = true →
     fld s (pgMSC q) MSC_VALIDATE ≠ 0 →
     f.macsec = some m →
     rxSa s q m = none ∨ (∃ i, rxSa s q m = some i ∧ isSet s (pgMSC q) MSC_REPLAY_EN = true ∧ m.pn + fld s (pgMSC q) MSC_REPLAY_WIN < (saAt s q i).pn) →
     Completes (.uplinkReceiveFrame q f) s (fun t =>
       t.link.rx = s.link.rx ∧
       t.link.sa = s.link.sa ∧
       flagSet t (pgMSC q) (if rxSa s q m = none then MSC_F_NO_SA else MSC_F_REPLAY) = true ∧
       Only [.regs, .cnt, .pmc] s t)) ∧
  (∀ (s : State) (q : Fin 24) (f : UplinkIn),
     portOn s q = true →
     f.fcsOk = true →
     64 ≤ f.len →
     f.len ≤ fld s (pgETH q) ETH_MAX_FRAME →
     f.pause = false →
     active s (pgMSC q) MSC_RX_EN = true →
     fld s (pgMSC q) MSC_VALIDATE ≠ 0 →
     f.macsec = none →
     fld s (pgMSC q) MSC_VALIDATE = 2 →
     Completes (.uplinkReceiveFrame q f) s (fun t =>
       t.link.rx = s.link.rx ∧
       cntAt t (cntAddr (pgMSC q) MSC_C_RX_UNTAGGED) = min cntMax (cntAt s (cntAddr (pgMSC q) MSC_C_RX_UNTAGGED) + 1) ∧
       Only [.regs, .cnt, .pmc] s t)) ∧
  (∀ (s : State) (q : Fin 24),
     (eth s q).xoff.isSome = true →
     flowOn s q = true →
     fld s (pgETH q) ETH_FC_LO * 1024 ≤ rxFill s q →
     Completes (.xoffRefresh q) s (fun t =>
       (eth t q).xoff = some (now s).fineIndex ∧
       cntAt t (cntAddr (pgETH q) ETH_C_TX_XOFF) = min cntMax (cntAt s (cntAddr (pgETH q) ETH_C_TX_XOFF) + 1) ∧
       Only [.eth, .regs, .cnt, .pmc] s t)) ∧
  (∀ (s : State) (q : Fin 24),
     (eth s q).xoff = none ∨ flowOn s q = false ∨ rxFill s q < fld s (pgETH q) ETH_FC_LO * 1024 →
     Completes (.xoffRefresh q) s (fun t =>
       t = s)) ∧
  (∀ (s : State) (q : Fin 24) (up hiBer : Bool),
     portOn s q = true →
     Completes (.uplinkLinkState q up hiBer) s (fun t =>
       ethStatus t q esLink = up ∧
       ethStatus t q esBer = hiBer ∧
       (up = true → ethStatus s q esLink = false → flagSet t (pgETH q) ETH_F_LINK_UP = true) ∧
       (up = false → ethStatus s q esLink = true → flagSet t (pgETH q) ETH_F_LINK_DOWN = true) ∧
       (hiBer = true → ethStatus s q esBer = false → flagSet t (pgETH q) ETH_F_HI_BER = true) ∧
       Only [.fifo, .freeCtr, .regs, .cnt, .pmc] s t)) ∧
  (∀ (s : State) (q : Fin 24) (up hiBer : Bool),
     portOn s q = false →
     Completes (.uplinkLinkState q up hiBer) s (fun t =>
       t = s)) ∧
  (∀ (s : State) (o : Origin) (l : Fin 268),
     addrReject s o (pgSDS l + SDS_MS_GO.off) = none →
     laneStatus s l lsScan = false →
     Completes (.marginScanGo o l) s (fun t =>
       laneStatus t l lsScan = true ∧
       Answered s t o 0 (pgSDS l + SDS_MS_GO.off) ∧
       RegsOnly bookPages [pgSDS l + SDS_STATUS.off] s t ∧
       Only books s t)) ∧
  (∀ (s : State) (o : Origin) (l : Fin 268),
     addrReject s o (pgSDS l + SDS_MS_GO.off) = none →
     laneStatus s l lsScan = true →
     Completes (.marginScanGo o l) s (fun t =>
       Answered s t o 4 (pgSDS l + SDS_MS_GO.off) ∧
       RegsOnly bookPages [] s t ∧
       Only books s t)) ∧
  (∀ (s : State) (l : Fin 268) (count : Nat),
     laneStatus s l lsScan = true →
     Completes (.marginScanDone l count) s (fun t =>
       laneStatus t l lsScan = false ∧
       cntAt t (pgSDS l + SDS_MS_ERR.off) = min cntMax count ∧
       flagSet t (pgSDS l) SDS_F_MS_DONE = true ∧
       cntAt t (cntAddr (pgSDS l) SDS_C_SCANS) = min cntMax (cntAt s (cntAddr (pgSDS l) SDS_C_SCANS) + 1) ∧
       Only [.regs, .cnt, .pmc] s t)) ∧
  (∀ (s : State) (l : Fin 268) (count : Nat),
     laneStatus s l lsScan = false →
     Completes (.marginScanDone l count) s (fun t =>
       t = s)) ∧
  (∀ (s : State) (l : Fin 268) (b : Bool),
     192 ≤ l.val →
     laneStatus s l lsCdr = !b →
     Completes (.cdrLockChange l b) s (fun t =>
       laneStatus t l lsCdr = b ∧
       (b = true → laneStatus t l lsSig = true) ∧
       (b = true → isSet s (pgSDS l) SDS_ADAPT_EN = false → fld t (pgSDS l) SDS_PEAK_NOW = fld s (pgSDS l) SDS_RX_PEAK) ∧
       (b = false → flagSet t (pgSDS l) SDS_F_CDR_LOSS = true) ∧
       Only [.freeCtr, .regs, .cnt, .pmc] s t)) ∧
  (∀ (s : State) (l : Fin 268) (b : Bool),
     l.val < 192 ∨ laneStatus s l lsCdr = b →
     Completes (.cdrLockChange l b) s (fun t =>
       t = s)) ∧
  (∀ (s : State) (l : Fin 268) (b : Bool),
     l.val < 228 →
     laneStatus s l lsPrbs = !b →
     (b = true → fld s (pgSDS l) SDS_PRBS_CHK ≠ 0) →
     Completes (.prbsCheckerLock l b) s (fun t =>
       laneStatus t l lsPrbs = b ∧
       (b = true → t.bus.cnt = s.bus.cnt) ∧
       (b = false → cntAt t (pgSDS l + SDS_PRBS_ERR.off) = min cntMax (cntAt s (pgSDS l + SDS_PRBS_ERR.off) + freeVal s % 2 ^ 48)) ∧
       RegsOnly [] [pgSDS l + SDS_STATUS.off] s t ∧
       Only [.freeCtr, .regs, .cnt] s t)) ∧
  (∀ (s : State) (l : Fin 268) (b : Bool),
     228 ≤ l.val ∨ laneStatus s l lsPrbs = b →
     Completes (.prbsCheckerLock l b) s (fun t =>
       t = s))

/-- A doorbell of the owner sets the TAIL of a running ring, else it has code 2 or 8 with DB_REJ. A descriptor of a running transmit ring with one posted sends its frame to landing (or to its queue) and completes: HEAD steps on, the completion is written and, after COAL_CNT of them, HEAD and the vector; a length or owner error completes with its status, a DMA error stops the ring. A delivery writes the oldest frame likewise, one too big is dropped and counted; either way the ring frees its buffer. The window reads, sets, starts and stops a ring of the slice. FLR stops the rings of a function. The link comes up with speed and width that are free (log entry 3). -/
def Obligations.HostRings : Prop :=
  (∀ (s : State) (o : Origin) (data : Word) (r : Nat),
     addrReject s o (pgHST + HST_DB_RING.off) = none →
     r = bitsOf data 0 10 →
     ringOwner s r = Origin.slice o →
     (ring s r).state = 1 →
     Completes (.doorbell o data) s (fun t =>
       ring t r = { ring s r with tail := bitsOf data 10 16 % (ring s r).size } ∧
       TblOnly Ring.init r s.link.ring t.link.ring ∧
       Answered s t o 0 (pgHST + HST_DB_RING.off) ∧
       Only (.ring :: books) s t)) ∧
  (∀ (s : State) (o : Origin) (data : Word) (r c : Nat),
     addrReject s o (pgHST + HST_DB_RING.off) = none →
     r = bitsOf data 0 10 →
     (ringOwner s r ≠ Origin.slice o ∧ c = 2) ∨ (ringOwner s r = Origin.slice o ∧ (ring s r).state ≠ 1 ∧ c = 8) →
     Completes (.doorbell o data) s (fun t =>
       flagSet t pgHST HST_F_DB_REJ = true ∧
       Answered s t o c (pgHST + HST_DB_RING.off) ∧
       Only books s t)) ∧
  (∀ (s : State) (r : Fin 1024) (x : Ring) (d : H2dDesc),
     x = ring s r →
     x.state = 1 →
     x.dir = 0 →
     x.posted ≠ 0 →
     d.dmaErr = none →
     14 ≤ d.pktLen →
     d.pktLen ≤ 10240 →
     d.pktLen ≤ d.bufLen →
     d.direct = false →
     Completes (.h2dDescriptor r d) s (fun t =>
       t.link.h2d = s.link.h2d ++ [⟨r, d.pktLen, d.bytes, d.meta_⟩] ∧
       t.bus.hostOut = s.bus.hostOut ++ (ringOwner s r, .h2dDone r x.head (if d.tsReq then some (d.left.elim (freeVal s) (fun w => (egressTime s w.1 w.2).stamp)) else none) 0) :: (if x.coalCnt ≤ x.pend + 1 then [(ringOwner s r, .head ((x.head + 1) % x.size)), (ringOwner s r, .msix (ringOwner s r) (16 + r))] else []) ∧
       cntAt t (cntAddr pgHST HST_C_H2D_FRAMES) = min cntMax (cntAt s (cntAddr pgHST HST_C_H2D_FRAMES) + 1) ∧
       cntAt t (cntAddr pgHST HST_C_H2D_BYTES) = min cntMax (cntAt s (cntAddr pgHST HST_C_H2D_BYTES) + d.pktLen) ∧
       (ring t r).head = (x.head + 1) % x.size ∧
       (ring t r).pend = (if x.coalCnt ≤ x.pend + 1 then 0 else x.pend + 1) ∧
       TblOnly Ring.init r s.link.ring t.link.ring ∧
       Only [.h2d, .ring, .hostOut, .freeCtr, .regs, .cnt, .pmc] s t)) ∧
  (∀ (s : State) (r : Fin 1024) (x : Ring) (d : H2dDesc),
     x = ring s r →
     x.state = 1 →
     x.dir = 0 →
     x.posted ≠ 0 →
     d.dmaErr = none →
     14 ≤ d.pktLen →
     d.pktLen ≤ 10240 →
     d.pktLen ≤ d.bufLen →
     d.direct = true →
     d.queue < 8192 →
     queueOwner s d.queue = ringOwner s r →
     d.tsReq = false →
     Completes (.h2dDescriptor r d) s (fun t =>
       t.bus.hostOut = s.bus.hostOut ++ (ringOwner s r, .h2dDone r x.head none 0) :: (if x.coalCnt ≤ x.pend + 1 then [(ringOwner s r, .head ((x.head + 1) % x.size)), (ringOwner s r, .msix (ringOwner s r) (16 + r))] else []) ∧
       t.link.h2d = s.link.h2d ∧
       cntAt t (cntAddr pgHST HST_C_H2D_FRAMES) = min cntMax (cntAt s (cntAddr pgHST HST_C_H2D_FRAMES) + 1) ∧
       (ring t r).head = (x.head + 1) % x.size ∧
       (ring t r).pend = (if x.coalCnt ≤ x.pend + 1 then 0 else x.pend + 1) ∧
       TblOnly Ring.init r s.link.ring t.link.ring)) ∧
  (∀ (s : State) (r : Fin 1024) (x : Ring) (d : H2dDesc),
     x = ring s r →
     x.state = 1 →
     x.dir = 0 →
     x.posted ≠ 0 →
     d.dmaErr = none →
     14 ≤ d.pktLen →
     d.pktLen ≤ 10240 →
     d.pktLen ≤ d.bufLen →
     d.direct = true →
     d.queue < 8192 →
     queueOwner s d.queue = ringOwner s r →
     d.tsReq = true →
     Completes (.h2dDescriptor r d) s (fun t =>
       (∃ ts, (∀ q p, d.left = some (q, p) → ts = (egressTime s q p).stamp) ∧
         t.bus.hostOut = s.bus.hostOut ++ (ringOwner s r, .h2dDone r x.head (some ts) 0) :: (if x.coalCnt ≤ x.pend + 1 then [(ringOwner s r, .head ((x.head + 1) % x.size)), (ringOwner s r, .msix (ringOwner s r) (16 + r))] else [])) ∧
       t.link.h2d = s.link.h2d ∧
       cntAt t (cntAddr pgHST HST_C_H2D_FRAMES) = min cntMax (cntAt s (cntAddr pgHST HST_C_H2D_FRAMES) + 1) ∧
       (ring t r).head = (x.head + 1) % x.size ∧
       (ring t r).pend = (if x.coalCnt ≤ x.pend + 1 then 0 else x.pend + 1) ∧
       TblOnly Ring.init r s.link.ring t.link.ring)) ∧
  (∀ (s : State) (r : Fin 1024) (x : Ring) (d : H2dDesc),
     x = ring s r →
     x.state = 1 →
     x.dir = 0 →
     x.posted ≠ 0 →
     d.dmaErr = none →
     14 ≤ d.pktLen →
     d.pktLen ≤ 10240 →
     d.pktLen ≤ d.bufLen →
     d.direct = true →
     8192 ≤ d.queue ∨ queueOwner s d.queue ≠ ringOwner s r →
     Completes (.h2dDescriptor r d) s (fun t =>
       t.bus.hostOut = s.bus.hostOut ++ (ringOwner s r, .h2dDone r x.head none 2) :: (if x.coalCnt ≤ x.pend + 1 then [(ringOwner s r, .head ((x.head + 1) % x.size)), (ringOwner s r, .msix (ringOwner s r) (16 + r))] else []) ∧
       (ring t r).head = (x.head + 1) % x.size ∧
       (ring t r).pend = (if x.coalCnt ≤ x.pend + 1 then 0 else x.pend + 1) ∧
       TblOnly Ring.init r s.link.ring t.link.ring ∧
       Only [.ring, .hostOut] s t)) ∧
  (∀ (s : State) (r : Fin 1024) (x : Ring) (d : H2dDesc),
     x = ring s r →
     x.state = 1 →
     x.dir = 0 →
     x.posted ≠ 0 →
     d.dmaErr = none →
     d.bufLen < d.pktLen ∨ d.pktLen < 14 ∨ 10240 < d.pktLen →
     Completes (.h2dDescriptor r d) s (fun t =>
       t.bus.hostOut = s.bus.hostOut ++ (ringOwner s r, .h2dDone r x.head none 1) :: (if x.coalCnt ≤ x.pend + 1 then [(ringOwner s r, .head ((x.head + 1) % x.size)), (ringOwner s r, .msix (ringOwner s r) (16 + r))] else []) ∧
       flagSet t pgHST HST_F_LEN_ERR = true ∧
       (ring t r).head = (x.head + 1) % x.size ∧
       (ring t r).pend = (if x.coalCnt ≤ x.pend + 1 then 0 else x.pend + 1) ∧
       TblOnly Ring.init r s.link.ring t.link.ring ∧
       Only [.ring, .hostOut, .regs, .cnt, .pmc] s t)) ∧
  (∀ (s : State) (r : Fin 1024) (x : Ring) (d : H2dDesc) (c : Fin 4),
     x = ring s r →
     x.state = 1 →
     x.dir = 0 →
     x.posted ≠ 0 →
     d.dmaErr = some c →
     Completes (.h2dDescriptor r d) s (fun t =>
       ring t r = { x with state := 2, err := c + 1 } ∧
       t.bus.hostOut = s.bus.hostOut ++ [(ringOwner s r, .h2dDone r x.head none 3)] ∧
       flagSet t pgHST HST_F_DMA_ERR = true ∧
       Only [.ring, .hostOut, .regs, .cnt, .pmc] s t)) ∧
  (∀ (s : State) (r : Fin 1024) (x : Ring) (d : H2dDesc),
     x = ring s r →
     x.state ≠ 1 ∨ x.dir ≠ 0 ∨ x.posted = 0 →
     Completes (.h2dDescriptor r d) s (fun t =>
       t = s)) ∧
  (∀ (s : State) (r : Fin 1024) (x : Ring) (f : HostFrame) (l : List HostFrame) (len bufLen : Nat),
     x = ring s r →
     x.state = 1 →
     x.frames = f :: l →
     f.len = len →
     len ≤ bufLen →
     Completes (.d2hDelivery r len bufLen) s (fun t =>
       (ring t r).frames = l ∧
       t.bus.hostOut = s.bus.hostOut ++ (ringOwner s r, .d2hDone r x.head len (f.at_.map (rxStamp s (f.src - 16384))) f.reason) :: (if x.coalCnt ≤ x.pend + 1 then [(ringOwner s r, .head ((x.head + 1) % x.size)), (ringOwner s r, .msix (ringOwner s r) (16 + r))] else []) ∧
       cntAt t (cntAddr pgHST HST_C_D2H_FRAMES) = min cntMax (cntAt s (cntAddr pgHST HST_C_D2H_FRAMES) + 1) ∧
       cntAt t (cntAddr pgHST HST_C_D2H_BYTES) = min cntMax (cntAt s (cntAddr pgHST HST_C_D2H_BYTES) + len) ∧
       (ring t r).head = (x.head + 1) % x.size ∧
       (ring t r).pend = (if x.coalCnt ≤ x.pend + 1 then 0 else x.pend + 1) ∧
       t.tm.buf = (freeHost s f (tagRing r)).tm.buf ∧
       TblOnly Ring.init r s.link.ring t.link.ring ∧
       Only [.ring, .buf, .hostOut, .regs, .cnt, .pmc] s t)) ∧
  (∀ (s : State) (r : Fin 1024) (x : Ring) (f : HostFrame) (l : List HostFrame) (len bufLen : Nat),
     x = ring s r →
     x.state = 1 →
     x.frames = f :: l →
     f.len = len →
     bufLen < len →
     Completes (.d2hDelivery r len bufLen) s (fun t =>
       (ring t r).frames = l ∧
       (ring t r).head = x.head ∧
       cntAt t (cntAddr pgHST HST_C_RX_TOO_BIG) = min cntMax (cntAt s (cntAddr pgHST HST_C_RX_TOO_BIG) + 1) ∧
       t.tm.buf = (freeHost s f (tagRing r)).tm.buf ∧
       Only [.ring, .buf, .regs, .cnt, .pmc] s t)) ∧
  (∀ (s : State) (r : Fin 1024) (len bufLen : Nat),
     (ring s r).state ≠ 1 ∨ (ring s r).frames.head?.map (·.len) ≠ some len →
     Completes (.d2hDelivery r len bufLen) s (fun t =>
       t = s)) ∧
  (∀ (s : State) (r : Fin 1024) (x : Ring),
     x = ring s r →
     x.pend ≠ 0 →
     Completes (.ringCoalesceTimer r) s (fun t =>
       ring t r = { x with pend := 0 } ∧
       t.bus.hostOut = s.bus.hostOut ++ [(ringOwner s r, .head x.head), (ringOwner s r, .msix (ringOwner s r) (16 + r))] ∧
       Only [.ring, .hostOut] s t)) ∧
  (∀ (s : State) (r : Fin 1024),
     (ring s r).pend = 0 →
     Completes (.ringCoalesceTimer r) s (fun t =>
       t = s)) ∧
  (∀ (s : State) (r : Fin 1024) (cause : Fin 4),
     (ring s r).state = 1 →
     Completes (.dmaError r cause) s (fun t =>
       ring t r = { ring s r with state := 2, err := cause + 1 } ∧
       TblOnly Ring.init r s.link.ring t.link.ring ∧
       flagSet t pgHST HST_F_DMA_ERR = true ∧
       Only [.ring, .regs, .cnt, .pmc] s t)) ∧
  (∀ (s : State) (r : Fin 1024) (cause : Fin 4),
     (ring s r).state ≠ 1 →
     Completes (.dmaError r cause) s (fun t =>
       t = s)) ∧
  (∀ (s : State) (o : Origin) (r : Nat) (x : Ring),
     addrReject s o (pgHST + HST_RING_CMD.off) = none →
     r = fld s pgHST HST_RING_IDX →
     mayUse (Origin.slice o) (ringOwner s r) = true →
     x = ring s r →
     Completes (.ringRead o) s (fun t =>
       [fld t pgHST HST_DIR, fld t pgHST HST_SIZE_LOG2, fld t pgHST HST_STATE, fld t pgHST HST_HEAD, fld t pgHST HST_TAIL, fld t pgHST HST_ERR_CAUSE] = [x.dir % 2, x.sizeLog2 % 32, x.state % 4, x.head % 65536, x.tail % 65536, x.err % 8] ∧
       wordsAt t (pgHST + 0x090) 4 = [BitVec.ofNat 32 x.base, BitVec.ofNat 32 (x.base >>> 32), BitVec.ofNat 32 x.headWb, BitVec.ofNat 32 (x.headWb >>> 32)] ∧
       wordsAt t (pgHST + HST_RING_CNT.off) 8 = cntWords 4 x.cnts ∧
       Answered s t o 0 (pgHST + HST_RING_CMD.off) ∧
       Only books s t)) ∧
  (∀ (s : State) (o : Origin) (r : Nat) (x : Ring) (z : Nat),
     addrReject s o (pgHST + HST_RING_CMD.off) = none →
     r = fld s pgHST HST_RING_IDX →
     mayUse (Origin.slice o) (ringOwner s r) = true →
     x = ring s r →
     z = fld s pgHST HST_SIZE_LOG2 →
     x.state ≠ 1 →
     6 ≤ z →
     z ≤ 16 →
     fld s pgHST HST_COAL_CNT ≠ 0 →
     Completes (.ringWrite o) s (fun t =>
       ((ring t r).dir, (ring t r).sizeLog2, (ring t r).coalCnt, (ring t r).coalUs) = (fld s pgHST HST_DIR, z, fld s pgHST HST_COAL_CNT, fld s pgHST HST_COAL_US) ∧
       (ring t r).base = fld s pgHST HST_BASE * 4096 + (reg s (pgHST + 0x094)).toNat * 2 ^ 32 ∧
       (ring t r).head = x.head % 2 ^ z ∧
       (ring t r).frames = x.frames ∧
       TblOnly Ring.init r s.link.ring t.link.ring ∧
       Answered s t o 0 (pgHST + HST_RING_CMD.off) ∧
       Only (.ring :: books) s t)) ∧
  (∀ (s : State) (o : Origin) (r : Nat) (c : Nat),
     addrReject s o (pgHST + HST_RING_CMD.off) = none →
     r = fld s pgHST HST_RING_IDX →
     mayUse (Origin.slice o) (ringOwner s r) = true →
     ((ring s r).state = 1 ∧ c = 8) ∨ ((ring s r).state ≠ 1 ∧ fld s pgHST HST_SIZE_LOG2 < 6 ∧ c = 1) →
     Completes (.ringWrite o) s (fun t =>
       fld t pgHST HST_STAT = 4 ∧
       Answered s t o c (pgHST + HST_RING_CMD.off) ∧
       Only books s t)) ∧
  (∀ (s : State) (o : Origin) (r : Nat),
     addrReject s o (pgHST + HST_RING_CMD.off) = none →
     r = fld s pgHST HST_RING_IDX →
     mayUse (Origin.slice o) (ringOwner s r) = true →
     Completes (.ringStart o) s (fun t =>
       ring t r = { ring s r with state := 1, err := 0 } ∧
       TblOnly Ring.init r s.link.ring t.link.ring ∧
       Answered s t o 0 (pgHST + HST_RING_CMD.off) ∧
       Only (.ring :: books) s t)) ∧
  (∀ (s : State) (o : Origin) (r : Nat),
     addrReject s o (pgHST + HST_RING_CMD.off) = none →
     r = fld s pgHST HST_RING_IDX →
     mayUse (Origin.slice o) (ringOwner s r) = true →
     Completes (.ringStop o) s (fun t =>
       ring t r = { ring s r with state := 0 } ∧
       TblOnly Ring.init r s.link.ring t.link.ring ∧
       Answered s t o 0 (pgHST + HST_RING_CMD.off) ∧
       Only (.ring :: books) s t)) ∧
  (∀ (s : State) (i : Instr) (o : Origin),
     i = .ringRead o ∨ i = .ringWrite o ∨ i = .ringStart o ∨ i = .ringStop o →
     addrReject s o (pgHST + HST_RING_CMD.off) = none →
     mayUse (Origin.slice o) (ringOwner s (fld s pgHST HST_RING_IDX)) = false →
     Completes (i) s (fun t =>
       fld t pgHST HST_STAT = 2 ∧
       wordsAt t (pgHST + 0x08C) 7 = List.replicate 7 0 ∧
       Answered s t o 2 (pgHST + HST_RING_CMD.off) ∧
       Only books s t)) ∧
  (∀ (s : State) (f : Fin 32),
     Completes (.functionLevelReset f) s (fun t =>
       (∀ r, ringOwner s r = f → (ring t r).state = 0) ∧
       (∀ r, ringOwner s r ≠ f → ring t r = ring s r) ∧
       flagSet t pgHST HST_F_FLR = true ∧
       cntAt t (cntAddr pgHST HST_C_FLR) = min cntMax (cntAt s (cntAddr pgHST HST_C_FLR) + 1) ∧
       Only [.ring, .regs, .cnt, .pmc] s t)) ∧
  (∀ (s : State),
     Completes (.perstDeassert) s (fun t =>
       t.boot.perst = true ∧
       isSet t pgHST HST_LINK_UP = true ∧
       (List.range 8).all (fun i => laneStatus t (228 + i) lsUse) = true ∧
       t.freeCtr = s.freeCtr + 1 ∧
       Only [.boot, .lane, .freeCtr, .regs] s t)) ∧
  (∀ (s : State) (up : Bool),
     released s = true →
     Completes (.pcieLinkDown up) s (fun t =>
       isSet t pgHST HST_LINK_UP = up ∧
       (up = false → flagSet t pgHST HST_F_LINK_DOWN = true) ∧
       Only [.freeCtr, .regs, .pmc] s t)) ∧
  (∀ (s : State) (up : Bool),
     released s = false →
     Completes (.pcieLinkDown up) s (fun t =>
       t = s))

/-- A transaction of an idle master on a port of its own and of the slice, of 1 to 32 bytes, begins: BUSY, the caller and direction held, the mux left on the port where MUX_EN says so, counted. A busy master has code 4, a port of another slice code 2 and OWN_REJ, a port of another master or a bad length code 1. A done transaction leaves DONE, its bytes counted and a read's bytes in DATA, or NACK; a timeout leaves TIMEOUT, the bus recovered and the mux selection forgotten; an idle master is left as it is. -/
def Obligations.OpticsBus : Prop :=
  (∀ (s : State) (o : Origin) (j : Fin 8) (p n : Nat),
     addrReject s o (pgOPT + (OPT_CMD.at j).off) = none →
     i2cBusy s j = false →
     p = fld s pgOPT (OPT_PORT.at j) →
     n = fld s pgOPT (OPT_LEN.at j) →
     mayUse (Origin.slice o) (portOwner s p) = true →
     p / 4 = j.val →
     n ≠ 0 →
     n ≤ 32 →
     Completes (.i2cRead o j) s (fun t =>
       fld t pgOPT (OPT_STAT.at j) = 1 ∧
       i2c t j = ⟨some (Origin.slice o), false, if bitAt (fld s pgOPT OPT_MUX_EN) j then some p else (i2c s j).mux⟩ ∧
       TblOnly I2c.init j s.link.i2c t.link.i2c ∧
       cntAt t (cntAddr pgOPT OPT_C_TRANSACTIONS) = min cntMax (cntAt s (cntAddr pgOPT OPT_C_TRANSACTIONS) + 1) ∧
       Answered s t o 0 (pgOPT + (OPT_CMD.at j).off) ∧
       Only (.i2c :: books) s t)) ∧
  (∀ (s : State) (o : Origin) (j : Fin 8) (p n : Nat),
     addrReject s o (pgOPT + (OPT_CMD.at j).off) = none →
     i2cBusy s j = false →
     p = fld s pgOPT (OPT_PORT.at j) →
     n = fld s pgOPT (OPT_LEN.at j) →
     mayUse (Origin.slice o) (portOwner s p) = true →
     p / 4 = j.val →
     n ≠ 0 →
     n ≤ 32 →
     Completes (.i2cWrite o j) s (fun t =>
       fld t pgOPT (OPT_STAT.at j) = 1 ∧
       i2c t j = ⟨some (Origin.slice o), true, if bitAt (fld s pgOPT OPT_MUX_EN) j then some p else (i2c s j).mux⟩ ∧
       TblOnly I2c.init j s.link.i2c t.link.i2c ∧
       cntAt t (cntAddr pgOPT OPT_C_TRANSACTIONS) = min cntMax (cntAt s (cntAddr pgOPT OPT_C_TRANSACTIONS) + 1) ∧
       Answered s t o 0 (pgOPT + (OPT_CMD.at j).off) ∧
       Only (.i2c :: books) s t)) ∧
  (∀ (s : State) (i : Instr) (o : Origin) (j : Fin 8) (c : Nat),
     i = .i2cRead o j ∨ i = .i2cWrite o j →
     addrReject s o (pgOPT + (OPT_CMD.at j).off) = none →
     (i2cBusy s j = true ∧ c = 4) ∨ (i2cBusy s j = false ∧ mayUse (Origin.slice o) (portOwner s (fld s pgOPT (OPT_PORT.at j))) = true ∧ fld s pgOPT (OPT_LEN.at j) = 0 ∧ c = 1) →
     Completes (i) s (fun t =>
       i2c t j = i2c s j ∧
       Answered s t o c (pgOPT + (OPT_CMD.at j).off) ∧
       Only books s t)) ∧
  (∀ (s : State) (i : Instr) (o : Origin) (j : Fin 8),
     i = .i2cRead o j ∨ i = .i2cWrite o j →
     addrReject s o (pgOPT + (OPT_CMD.at j).off) = none →
     i2cBusy s j = false →
     mayUse (Origin.slice o) (portOwner s (fld s pgOPT (OPT_PORT.at j))) = false →
     Completes (i) s (fun t =>
       fld t pgOPT (OPT_STAT.at j) = 16 ∧
       flagSet t pgOPT OPT_F_OWN_REJ = true ∧
       Answered s t o 2 (pgOPT + (OPT_CMD.at j).off) ∧
       Only books s t)) ∧
  (∀ (s : State) (j : Fin 8) (bytes : List Byte),
     i2cBusy s j = true →
     Completes (.i2cDone j true bytes) s (fun t =>
       fld t pgOPT (OPT_STAT.at j) = 4 ∧
       flagSet t pgOPT OPT_F_NACK = true ∧
       t.link.i2c = s.link.i2c ∧
       Only alerts s t)) ∧
  (∀ (s : State) (j : Fin 8) (bytes : List Byte),
     i2cBusy s j = true →
     Completes (.i2cDone j false bytes) s (fun t =>
       fld t pgOPT (OPT_STAT.at j) = 2 ∧
       wordsAt t (pgOPT + (OPT_DATA.at j).off) 8 = (if (i2c s j).write then wordsAt s (pgOPT + (OPT_DATA.at j).off) 8 else putBytes (bytes.take (fld s pgOPT (OPT_LEN.at j))) (wordsAt s (pgOPT + (OPT_DATA.at j).off) 8)) ∧
       cntAt t (cntAddr pgOPT OPT_C_BYTES) = min cntMax (cntAt s (cntAddr pgOPT OPT_C_BYTES) + fld s pgOPT (OPT_LEN.at j)) ∧
       Only alerts s t)) ∧
  (∀ (s : State) (j : Fin 8),
     i2cBusy s j = true →
     Completes (.i2cTimeout j) s (fun t =>
       fld t pgOPT (OPT_STAT.at j) = 8 ∧
       i2c t j = { i2c s j with mux := none } ∧
       flagSet t pgOPT OPT_F_TIMEOUT = true ∧
       flagSet t pgOPT OPT_F_BUS_RECOVERED = true ∧
       Only (.i2c :: alerts) s t)) ∧
  (∀ (s : State) (i : Instr) (j : Fin 8) (b : Bool) (bytes : List Byte),
     i = .i2cDone j b bytes ∨ i = .i2cTimeout j →
     i2cBusy s j = false →
     Completes (i) s (fun t =>
       t = s))

/-- On an enabled link an alignment position moves its lane, LOF and LOA standing while a lane is not in SYNC and BIP_ERR counting a bad block; fill columns are counted; a defect is put in force and from LOS to LOA takes the link down; a reset notice is counted. A good message on a link that is up is counted and moves its channel's sequence; a mirror frame enters the slip buffer, which the reader takes in order, noting a miss or a repeat. Ticks leave on enabled links in even frames, each with its GRID message, their blocks in turn on the lanes with scrambled payloads (R250); a tick or a pulse heard marks its slot, a bad one is BAD_TICK, three slots missed or a dark notice fail the peer. Mastership is taken, given up and joined as R263 and R264 say. -/
def Obligations.HexcaLinksAndMesh : Prop :=
  (∀ (s : State) (m : Fin 3) (i : Fin 4) (x : MarkerIn) (l : HexLane),
     active s (pgMSH m) MSH_LINK_EN = true →
     l = (hex s m).lanes.getD i ⟨0, 0, none⟩ →
     Completes (.alignmentMarker m i x) s (fun t =>
       (hex t m).lanes = (hex s m).lanes.set i (l.next x) ∧
       (((hex s m).lanes.set i (l.next x)).any (fun y => y.st != 3) = true → bitAt (fld t (pgMSH m) MSH_DEFECTS) 2 = true ∧ bitAt (fld t (pgMSH m) MSH_DEFECTS) 3 = true) ∧
       Only [.hex, .tick, .fifo, .freeCtr, .regs, .cnt, .pmc] s t)) ∧
  (∀ (s : State) (m : Fin 3) (i n : Fin 4) (tr : Option (BitVec 128)),
     active s (pgMSH m) MSH_LINK_EN = true →
     ((hex s m).lanes.getD i ⟨0, 0, none⟩).st = 3 →
     Completes (.alignmentMarker m i (.marker n false tr)) s (fun t =>
       cntAt t (cntAddr (pgMSH m) MSH_C_BIP_ERR) = min cntMax (cntAt s (cntAddr (pgMSH m) MSH_C_BIP_ERR) + 1))) ∧
  (∀ (s : State) (m : Fin 3) (insert : Bool),
     active s (pgMSH m) MSH_LINK_EN = true →
     Completes (.fillColumn m insert) s (fun t =>
       cntAt t (cntAddr (pgMSH m) (if insert then MSH_C_FILL_INSERT else MSH_C_FILL_DELETE)) = min cntMax (cntAt s (cntAddr (pgMSH m) (if insert then MSH_C_FILL_INSERT else MSH_C_FILL_DELETE)) + 1) ∧
       Only [.regs, .cnt, .pmc] s t)) ∧
  (∀ (s : State) (c : Instr) (m : Fin 3) (i : Fin 4) (x : MarkerIn) (b : Bool) (d : Fin 6),
     c = .alignmentMarker m i x ∨ c = .fillColumn m b ∨ c = .linkDefectChange m d b ∨ c = .noticeResetReceive m ∨ c = .mirrorRead m →
     active s (pgMSH m) MSH_LINK_EN = false →
     Completes (c) s (fun t =>
       t = s)) ∧
  (∀ (s : State) (m : Fin 3) (d : Fin 6) (b : Bool),
     active s (pgMSH m) MSH_LINK_EN = true →
     Completes (.linkDefectChange m d b) s (fun t =>
       linkDefect t m d = b ∧
       (b = true → d.val < 4 → fld t (pgMSH m) MSH_STATE = 1 ∧ (hex t m).flushed = true) ∧
       Only [.hex, .tick, .fifo, .freeCtr, .regs, .cnt, .pmc] s t)) ∧
  (∀ (s : State) (m : Fin 3),
     active s (pgMSH m) MSH_LINK_EN = true →
     Completes (.noticeResetReceive m) s (fun t =>
       flagSet t (pgMSH m) MSH_F_RESET_RX = true ∧
       (hex t m).flushed = true ∧
       cntAt t (cntAddr (pgMSH m) MSH_C_RESET_RX) = min cntMax (cntAt s (cntAddr (pgMSH m) MSH_C_RESET_RX) + 1) ∧
       peerFailed t m = true)) ∧
  (∀ (s : State) (m : Fin 3) (x : HexcaMsg),
     hexUp s m = true →
     x.startOk = true →
     x.len ≤ 16384 →
     x.crcOk = true →
     x.vc < 3 →
     x.body = .other ∨ x.body = .bulk true ∨ x.body = .bulk false →
     Completes (.hexcaMessageReceive m x) s (fun t =>
       cntAt t (cntAddr (pgMSH m) MSH_C_RX_MSGS) = min cntMax (cntAt s (cntAddr (pgMSH m) MSH_C_RX_MSGS) + 1) ∧
       tget dnone (hex t m).seqRx x.vc = some ((x.seq + 1) % 2 ^ 24) ∧
       (hex t m).slip = (hex s m).slip ∧
       Only [.hex, .regs, .cnt, .pmc] s t)) ∧
  (∀ (s : State) (m : Fin 3) (x : HexcaMsg) (f : Nat) (r : List MirrorRec),
     hexUp s m = true →
     x.startOk = true →
     x.len ≤ 16384 →
     x.crcOk = true →
     x.vc = 0 →
     x.body = .mirror f r →
     f < (hex s m).next.getD (f - 1) + 4 →
     Completes (.hexcaMessageReceive m x) s (fun t =>
       cntAt t (cntAddr (pgMSH m) MSH_C_RX_MSGS) = min cntMax (cntAt s (cntAddr (pgMSH m) MSH_C_RX_MSGS) + 1) ∧
       (hex t m).slip = ((hex s m).slip.filter (fun (e : MirrorFrame) => e.frame != f) ++ [(⟨f, r⟩ : MirrorFrame)]).drop (((hex s m).slip.filter (fun (e : MirrorFrame) => e.frame != f)).length + 1 - 4) ∧
       Only [.hex, .regs, .cnt, .pmc] s t)) ∧
  (∀ (s : State) (m : Fin 3) (x : HexcaMsg),
     hexUp s m = true →
     x.startOk = false ∨ 16384 < x.len ∨ x.crcOk = false →
     Completes (.hexcaMessageReceive m x) s (fun t =>
       flagSet t (pgMSH m) MSH_F_MSG_CRC = true ∧
       Only alerts s t)) ∧
  (∀ (s : State) (m : Fin 3) (x : HexcaMsg),
     hexUp s m = false →
     Completes (.hexcaMessageReceive m x) s (fun t =>
       t = s)) ∧
  (∀ (s : State) (m : Fin 3) (r : Nat) (f : MirrorFrame),
     active s (pgMSH m) MSH_LINK_EN = true →
     2 ≤ frame s →
     r = (hex s m).next.getD (frame s - 2) →
     (hex s m).slip.find? (fun e => e.frame == r) = some f →
     f.recs = [] →
     pairsToward s m = [] →
     Completes (.mirrorRead m) s (fun t =>
       (hex t m).slip = (hex s m).slip.filter (fun e => r < e.frame) ∧
       (hex t m).next = some (r + 1) ∧
       (hex t m).last = some f ∧
       Only [.hex, .regs] s t)) ∧
  (∀ (s : State) (m : Fin 3) (r : Nat),
     active s (pgMSH m) MSH_LINK_EN = true →
     2 ≤ frame s →
     r = (hex s m).next.getD (frame s - 2) →
     (hex s m).slip.find? (fun e => e.frame == r) = none →
     (hex s m).slip.any (fun e => r < e.frame) = true →
     Completes (.mirrorRead m) s (fun t =>
       (hex t m).next = some (r + 1) ∧
       flagSet t (pgMSH m) MSH_F_MIRROR_MISS = true)) ∧
  (∀ (s : State) (f : Nat),
     released s = true →
     f = frame s →
     f % 2 = 0 →
     (List.range 3).all (fun m => pairsToward s m == []) = true →
     s.prot.masterLost = false →
     gmRole s ≠ 2 →
     Completes (.meshTickSend) s (fun t =>
       (List.range 3).all (fun m => (tick t m).lastTx == if active s (pgMSH m) MSH_LINK_EN then some f else (tick s m).lastTx) = true)) ∧
  (∀ (s : State) (f : Nat) (m : Fin 3),
     released s = true →
     f = frame s →
     f % 2 = 0 →
     (List.range 3).all (fun m => pairsToward s m == []) = true →
     s.prot.masterLost = false →
     gmRole s ≠ 2 →
     active s (pgMSH m) MSH_LINK_EN = true →
     (tick s m).lastTx ≠ some f →
     Completes (.meshTickSend) s (fun t =>
       (∃ (h b : Nat) (l : List Nat), l.length = 24 ∧
         (hex t m).line = lineOf h b (tickBlock (fld s pgDEV DEV_DEV_ID) (tickCount f) f false (gmRole s == gmMaster) ::
           startBlock 1 (tget dzero (hex s m).seqTx 1) 24 :: bodyBlocks l) ∧
         (hex t m).line.map (fun x => (x.lane, x.sync)) = (List.range 6).map (fun i => ((b + i) % 4, if i = 2 ∨ i = 3 ∨ i = 4 then 1 else 2))) ∧
       tget dzero (hex t m).seqTx 1 = (tget dzero (hex s m).seqTx 1 + 1) % 2 ^ 24)) ∧
  (∀ (s : State),
     released s = false ∨ frame s % 2 ≠ 0 →
     Completes (.meshTickSend) s (fun t =>
       t = s)) ∧
  (∀ (s : State) (m : Fin 3) (x : TickIn),
     hexUp s m = true →
     x.fault = false →
     x.master = false →
     x.frame = slotOf (frame s) % 2 ^ 24 →
     Completes (.meshTickReceive m x) s (fun t =>
       (tick t m).heardLink = some (slotOf (frame s)) ∧
       (tick t m).missed = 0 ∧
       ((tick t m).rxStamp, (tick t m).rxCnt) = ((now s).stamp, x.count) ∧
       peerFailed t m = false ∧
       cntAt t (cntAddr (pgPRT) PRT_C_TICKS_RX_LINK) = min cntMax (cntAt s (cntAddr (pgPRT) PRT_C_TICKS_RX_LINK) + 1) ∧
       Only [.tick, .pair, .regs, .cnt, .pmc] s t)) ∧
  (∀ (s : State) (m : Fin 3) (x : TickIn),
     hexUp s m = true →
     x.fault = false →
     x.master = false →
     (x.frame + 2 ^ 24 - slotOf (frame s) % 2 ^ 24) % 2 ^ 24 ∈ [1, 3, 4] →
     Completes (.meshTickReceive m x) s (fun t =>
       flagSet t pgPRT PRT_F_BAD_TICK = true ∧
       (tick t m).heardLink = (tick s m).heardLink)) ∧
  (∀ (s : State) (m : Fin 3) (w : Nat) (d : Int),
     bitAt (fld s pgPRT PRT_HB_PIN_EN) m = true →
     8 ≤ w →
     w ≤ 64 →
     d.natAbs ≤ 64 →
     Completes (.hbPulse m w d) s (fun t =>
       (tick t m).heardPin = some (if d < 0 then slotOf (frame s) + 2 else slotOf (frame s)) ∧
       (tick t m).missed = 0 ∧
       cntAt t (cntAddr (pgPRT) PRT_C_TICKS_RX_PIN) = min cntMax (cntAt s (cntAddr (pgPRT) PRT_C_TICKS_RX_PIN) + 1) ∧
       Only [.tick, .pair, .regs, .cnt, .pmc] s t)) ∧
  (∀ (s : State) (m : Fin 3) (w : Nat) (d : Int),
     bitAt (fld s pgPRT PRT_HB_PIN_EN) m = true →
     w < 8 ∨ (64 < w ∧ w < 256) →
     Completes (.hbPulse m w d) s (fun t =>
       flagSet t pgPRT PRT_F_BAD_TICK = true ∧
       Only alerts s t)) ∧
  (∀ (s : State) (c : Instr) (m : Fin 3) (w : Nat) (d : Int) (x : TickIn),
     (c = .hbPulse m w d ∧ bitAt (fld s pgPRT PRT_HB_PIN_EN) m = false) ∨ (c = .meshTickReceive m x ∧ hexUp s m = false) ∨ (c = .peerFailDeclare m ∧ (tick s m).missed < 3) →
     Completes (c) s (fun t =>
       t = s)) ∧
  (∀ (s : State) (m : Fin 3),
     3 ≤ (tick s m).missed →
     peerFailed s m = false →
     pairsToward s m = [] →
     Completes (.peerFailDeclare m) s (fun t =>
       peerFailed t m = true ∧
       flagSet t pgPRT PRT_F_PEER_FAIL = true ∧
       cntAt t (cntAddr (pgPRT) PRT_C_PEER_FAILS) = min cntMax (cntAt s (cntAddr (pgPRT) PRT_C_PEER_FAILS) + 1) ∧
       Only (.master :: alerts) s t)) ∧
  (∀ (s : State) (m : Fin 3),
     pairsToward s m = [] →
     Completes (.darkNoticeReceive m) s (fun t =>
       peerFailed t m = true ∧
       flagSet t pgPRT PRT_F_DARK_NOTICE_RX = true ∧
       flagSet t pgPRT PRT_F_PEER_FAIL = true ∧
       cntAt t (cntAddr (pgPRT) PRT_C_DARK_NOTICES) = min cntMax (cntAt s (cntAddr (pgPRT) PRT_C_DARK_NOTICES) + 1) ∧
       Only (.master :: alerts) s t)) ∧
  (∀ (s : State) (o : Origin),
     addrReject s o (pgPRT + PRT_GM_CMD.off) = none →
     gmRole s ≠ 1 →
     Completes (.gmTake o) s (fun t =>
       gmRole t = 1 ∧
       fld t pgPRT PRT_MASTER_DEV = fld s pgDEV DEV_DEV_ID ∧
       fld t pgPRT PRT_MASTER_LINK = 3 ∧
       isSet t pgPRT PRT_GM_LOCKED = true ∧
       t.prot.masterLost = false ∧
       flagSet t pgPRT PRT_F_GM_CHANGE = true ∧
       Answered s t o 0 (pgPRT + PRT_GM_CMD.off))) ∧
  (∀ (s : State) (o : Origin),
     addrReject s o (pgPRT + PRT_GM_CMD.off) = none →
     gmRole s = 1 →
     Completes (.gmTake o) s (fun t =>
       Answered s t o 0 (pgPRT + PRT_GM_CMD.off) ∧
       Only books s t)) ∧
  (∀ (s : State) (o : Origin),
     addrReject s o (pgPRT + PRT_GM_CMD.off) = none →
     gmRole s = 1 →
     Completes (.gmYield o) s (fun t =>
       gmRole t = 2 ∧
       fld t pgPRT PRT_MASTER_LINK = 3 ∧
       isSet t pgPRT PRT_GM_LOCKED = false ∧
       flagSet t pgPRT PRT_F_GM_CHANGE = true ∧
       Answered s t o 0 (pgPRT + PRT_GM_CMD.off) ∧
       Only (.fifo :: books) s t)) ∧
  (∀ (s : State) (o : Origin),
     addrReject s o (pgPRT + PRT_GM_CMD.off) = none →
     gmRole s ≠ 1 →
     Completes (.gmYield o) s (fun t =>
       Answered s t o 8 (pgPRT + PRT_GM_CMD.off) ∧
       Only books s t)) ∧
  (∀ (s : State) (o : Origin) (force : Bool) (d : Int),
     addrReject s o (pgPRT + PRT_GM_CMD.off) = none →
     s.prot.offset = some d →
     gmRole s = 2 →
     Completes (.gmJoin o force) s (fun t =>
       t.grid.step = some (joinStep s d force) ∧
       now t = now s ∧
       Answered s t o 0 (pgPRT + PRT_GM_CMD.off) ∧
       Only (.grid :: books) s t)) ∧
  (∀ (s : State) (o : Origin) (force : Bool),
     addrReject s o (pgPRT + PRT_GM_CMD.off) = none →
     s.prot.offset = none ∨ gmRole s ≠ 2 →
     Completes (.gmJoin o force) s (fun t =>
       Answered s t o 8 (pgPRT + PRT_GM_CMD.off) ∧
       Only books s t))

/-- PAIR_READ shows the pair of PAIR_IDX. PAIR_WRITE enables a pair that may be enabled: a port that held its tree is ACTIVE; opposite a side with custody it stands by, and of two sides without custody the one that R265 names goes to SETTLE. While EN is 1 it holds LEASE_FRAMES, DELTA_FINE and AUTO_YIELD back for the next tick, and EN 0 disables the pair, an ACTIVE side keeping custody; either way a TXDIS that is low waits for the frame boundary. A write that R265 forbids has REJECT, PAIR_REJ and code 1 or 8. A yield of an ACTIVE side whose peer is in STANDBY leaves it DARK with TXDIS high; a reclaim after a CHECK window without light and a claim two frames later begin a SETTLE; a resync returns a KIND 1 side to SYNCING; each is refused with code 8 where its condition does not hold. -/
def Obligations.PairWindow : Prop :=
  (∀ (s : State) (o : Origin) (p : Nat) (r : PairSt),
     addrReject s o (pgPRT + PRT_PAIR_CMD.off) = none →
     p = fld s pgPRT PRT_PAIR_IDX →
     r = pair s p →
     Completes (.pairRead o) s (fun t =>
       (isSet t pgPRT PRT_EN, isSet t pgPRT PRT_START_ACTIVE, isSet t pgPRT PRT_AUTO_YIELD, isSet t pgPRT PRT_ARMED) = (r.en, r.startActive, r.autoYield, r.armed) ∧
       (fld t pgPRT PRT_KIND, fld t pgPRT PRT_PEER_PORT, fld t pgPRT PRT_LINK, fld t pgPRT PRT_STATE, fld t pgPRT PRT_LEASE_FRAMES) = (r.kind % 2, r.peerPort % 32, r.link % 4, r.state % 8, r.lease % 512) ∧
       fld t pgPRT PRT_LEASE_LEFT = (if r.armed then r.expiry - frame s else 0) % 512 ∧
       fld t pgPRT PRT_DELTA_FINE = unsignedOf 24 r.delta % 2 ^ 24 ∧
       (fld t pgPRT PRT_LAST_TICK_RX, fld t pgPRT PRT_LAST_TICK_TX) = (r.heard.getD 0 % 2 ^ 32, (tick s r.link).lastTx.getD 0 % 2 ^ 32) ∧
       Answered s t o 0 (pgPRT + PRT_PAIR_CMD.off) ∧
       Only books s t)) ∧
  (∀ (s : State) (o : Origin) (p : Nat) (r : PairSt),
     addrReject s o (pgPRT + PRT_PAIR_CMD.off) = none →
     p = fld s pgPRT PRT_PAIR_IDX →
     r = pair s p →
     isSet s pgPRT PRT_EN = true →
     r.en = false →
     pairOk? s p (pairOfWindow s r) = true →
     fld s pgPRT PRT_KIND = 1 ∨ (pair s (fld s pgPRT PRT_PEER_PORT)).en = false →
     Completes (.pairWrite o) s (fun t =>
       pair t p = { pairOfWindow s r with en := true, custody := false, armed := false, claim := none, due := none, next := none, heard := none, peerState := pOff, peerSync := false, missRun := 0, losRun := 0, state := if holdsCustody s p then pActive else pOff } ∧
       TblOnly PairSt.init p s.prot.pair t.prot.pair ∧
       tget dzero t.pon.txdis p = (if txdis s p = txLow then txLow else txWanted t p) ∧
       Answered s t o 0 (pgPRT + PRT_PAIR_CMD.off) ∧
       Only (.pair :: .txdis :: .fifo :: books) s t)) ∧
  (∀ (s : State) (o : Origin) (p : Nat) (r : PairSt) (q : Nat),
     addrReject s o (pgPRT + PRT_PAIR_CMD.off) = none →
     p = fld s pgPRT PRT_PAIR_IDX →
     r = pair s p →
     isSet s pgPRT PRT_EN = true →
     r.en = false →
     pairOk? s p (pairOfWindow s r) = true →
     fld s pgPRT PRT_KIND = 0 →
     q = fld s pgPRT PRT_PEER_PORT →
     (pair s q).en = true →
     custodyState (pair s q).state = true →
     Completes (.pairWrite o) s (fun t =>
       (pair t p).en = true ∧
       (pair t p).state = pStandby ∧
       pair t q = pair s q ∧
       tget dzero t.pon.txdis p = txWanted t p ∧
       Answered s t o 0 (pgPRT + PRT_PAIR_CMD.off) ∧
       Only (.pair :: .txdis :: .fifo :: books) s t)) ∧
  (∀ (s : State) (o : Origin) (p : Nat) (r : PairSt) (q : Nat),
     addrReject s o (pgPRT + PRT_PAIR_CMD.off) = none →
     p = fld s pgPRT PRT_PAIR_IDX →
     r = pair s p →
     isSet s pgPRT PRT_EN = true →
     r.en = false →
     pairOk? s p (pairOfWindow s r) = true →
     fld s pgPRT PRT_KIND = 0 →
     q = fld s pgPRT PRT_PEER_PORT →
     (pair s q).en = true →
     custodyState (pair s q).state = false →
     holdsCustody s p = false →
     startsHere (isSet s pgPRT PRT_START_ACTIVE) (pair s q).startActive (p < q) = true →
     Completes (.pairWrite o) s (fun t =>
       (pair t p).state = pSettle ∧
       (pair t p).due = some (frame s + laserSettle s) ∧
       (pair t q).state = pStandby ∧
       Answered s t o 0 (pgPRT + PRT_PAIR_CMD.off))) ∧
  (∀ (s : State) (o : Origin) (p : Nat) (r : PairSt),
     addrReject s o (pgPRT + PRT_PAIR_CMD.off) = none →
     p = fld s pgPRT PRT_PAIR_IDX →
     r = pair s p →
     isSet s pgPRT PRT_EN = true →
     r.en = true →
     leaseOk (fld s pgPRT PRT_LEASE_FRAMES) = true →
     (fld s pgPRT PRT_KIND, fld s pgPRT PRT_PEER_PORT, fld s pgPRT PRT_LINK, isSet s pgPRT PRT_START_ACTIVE) = (r.kind, r.peerPort, r.link, r.startActive) →
     Completes (.pairWrite o) s (fun t =>
       pair t p = { r with next := some (fld s pgPRT PRT_LEASE_FRAMES, signedOf 24 (fld s pgPRT PRT_DELTA_FINE), isSet s pgPRT PRT_AUTO_YIELD) } ∧
       TblOnly PairSt.init p s.prot.pair t.prot.pair ∧
       Answered s t o 0 (pgPRT + PRT_PAIR_CMD.off) ∧
       Only (.pair :: books) s t)) ∧
  (∀ (s : State) (o : Origin) (p : Nat) (r : PairSt) (c : Nat),
     addrReject s o (pgPRT + PRT_PAIR_CMD.off) = none →
     p = fld s pgPRT PRT_PAIR_IDX →
     r = pair s p →
     isSet s pgPRT PRT_EN = true →
     (r.en = false ∧ pairOk? s p (pairOfWindow s r) = false ∧ c = 1) ∨ (r.en = true ∧ leaseOk (fld s pgPRT PRT_LEASE_FRAMES) = false ∧ c = 1) ∨ (r.en = true ∧ leaseOk (fld s pgPRT PRT_LEASE_FRAMES) = true ∧ fld s pgPRT PRT_PEER_PORT ≠ r.peerPort ∧ c = 8) →
     Completes (.pairWrite o) s (fun t =>
       isSet t pgPRT PRT_REJECT = true ∧
       t.prot.pair = s.prot.pair ∧
       flagSet t pgPRT PRT_F_PAIR_REJ = true ∧
       Answered s t o c (pgPRT + PRT_PAIR_CMD.off) ∧
       Only books s t)) ∧
  (∀ (s : State) (o : Origin) (p : Nat) (r : PairSt),
     addrReject s o (pgPRT + PRT_PAIR_CMD.off) = none →
     p = fld s pgPRT PRT_PAIR_IDX →
     r = pair s p →
     isSet s pgPRT PRT_EN = false →
     r.en = true →
     Completes (.pairWrite o) s (fun t =>
       ((pair t p).en, (pair t p).custody, (pair t p).state, (pair t p).armed) = (false, r.state == pActive, pOff, false) ∧
       TblOnly PairSt.init p s.prot.pair t.prot.pair ∧
       tget dzero t.pon.txdis p = (if txdis s p = txLow then txLow else txWanted t p) ∧
       Answered s t o 0 (pgPRT + PRT_PAIR_CMD.off) ∧
       Only (.pair :: .txdis :: .fifo :: books) s t)) ∧
  (∀ (s : State) (o : Origin) (p : Nat) (r : PairSt),
     addrReject s o (pgPRT + PRT_PAIR_CMD.off) = none →
     p = fld s pgPRT PRT_PAIR_IDX →
     r = pair s p →
     isSet s pgPRT PRT_EN = false →
     r.en = false →
     Completes (.pairWrite o) s (fun t =>
       pair t p = pairOfWindow s r ∧
       TblOnly PairSt.init p s.prot.pair t.prot.pair ∧
       Answered s t o 0 (pgPRT + PRT_PAIR_CMD.off) ∧
       Only (.pair :: books) s t)) ∧
  (∀ (s : State) (o : Origin) (p : Nat) (r : PairSt),
     addrReject s o (pgPRT + PRT_PAIR_CMD.off) = none →
     p = fld s pgPRT PRT_PAIR_IDX →
     r = pair s p →
     mayYield s p = true →
     Completes (.pairYield o) s (fun t =>
       (pair t p).state = pDark ∧
       (pair t p).armed = false ∧
       tget dzero t.pon.txdis p = txHigh ∧
       cntAt t (cntAddr pgPRT PRT_C_YIELDS) = min cntMax (cntAt s (cntAddr pgPRT PRT_C_YIELDS) + 1) ∧
       Answered s t o 0 (pgPRT + PRT_PAIR_CMD.off))) ∧
  (∀ (s : State) (o : Origin) (p : Nat) (r : PairSt),
     addrReject s o (pgPRT + PRT_PAIR_CMD.off) = none →
     p = fld s pgPRT PRT_PAIR_IDX →
     r = pair s p →
     checkOver s p = true →
     r.light = false →
     Completes (.pairReclaim o) s (fun t =>
       (pair t p).state = pSettle ∧
       (pair t p).due = some (frame s + laserSettle s) ∧
       (pair t p).armed = false ∧
       TblOnly PairSt.init p s.prot.pair t.prot.pair ∧
       cntAt t (cntAddr pgPRT PRT_C_RECLAIMS) = min cntMax (cntAt s (cntAddr pgPRT PRT_C_RECLAIMS) + 1) ∧
       flagSet t pgPRT PRT_F_RECLAIM = true ∧
       Answered s t o 0 (pgPRT + PRT_PAIR_CMD.off))) ∧
  (∀ (s : State) (o : Origin) (p : Nat) (r : PairSt),
     addrReject s o (pgPRT + PRT_PAIR_CMD.off) = none →
     p = fld s pgPRT PRT_PAIR_IDX →
     r = pair s p →
     r.en = true →
     r.kind = 1 →
     r.state = pStandby ∨ r.state = pSyncing →
     Completes (.pairResync o) s (fun t =>
       ((pair t p).state, (pair t p).resync) = (pSyncing, true) ∧
       TblOnly PairSt.init p s.prot.pair t.prot.pair ∧
       cntAt t (cntAddr pgPRT PRT_C_RESYNCS) = min cntMax (cntAt s (cntAddr pgPRT PRT_C_RESYNCS) + 1) ∧
       Answered s t o 0 (pgPRT + PRT_PAIR_CMD.off) ∧
       Only (.pair :: .txdis :: .fifo :: books) s t)) ∧
  (∀ (s : State) (o : Origin) (p : Nat) (r : PairSt),
     addrReject s o (pgPRT + PRT_PAIR_CMD.off) = none →
     p = fld s pgPRT PRT_PAIR_IDX →
     r = pair s p →
     r.en = false →
     inOtherPair s p = false →
     Completes (.pairClaim o) s (fun t =>
       pair t p = { r with claim := some (frame s + 2) } ∧
       TblOnly PairSt.init p s.prot.pair t.prot.pair ∧
       Answered s t o 0 (pgPRT + PRT_PAIR_CMD.off) ∧
       Only (.pair :: books) s t)) ∧
  (∀ (s : State) (i : Instr) (o : Origin) (p : Nat) (r : PairSt),
     addrReject s o (pgPRT + PRT_PAIR_CMD.off) = none →
     p = fld s pgPRT PRT_PAIR_IDX →
     r = pair s p →
     (i = .pairYield o ∧ mayYield s p = false) ∨ (i = .pairReclaim o ∧ (checkOver s p = false ∨ r.light = true)) ∨ (i = .pairResync o ∧ (r.en = false ∨ r.kind ≠ 1 ∨ (r.state ≠ pStandby ∧ r.state ≠ pSyncing))) ∨ (i = .pairClaim o ∧ (r.en = true ∨ inOtherPair s p = true)) →
     Completes (i) s (fun t =>
       isSet t pgPRT PRT_REJECT = true ∧
       t.prot.pair = s.prot.pair ∧
       Answered s t o 8 (pgPRT + PRT_PAIR_CMD.off) ∧
       Only books s t))

/-- At its frame a claim of an unpaired port, and at its custody point a side in TAKEOVER, enters SETTLE with its lease disarmed and TXDIS as it is to be. LASER_SETTLE frames later it is ACTIVE with ROLLCALL maps to come (a port without a pair has ended its SETTLE), and BEGIN is set. A lease that runs out drives TXDIS high and leaves the side DARK, or in CHECK where the peer of its link has been declared failed, with LEASE_RUNDOWN and its source set. At the end of its window a side in CHECK goes DARK on light seen, takes its tree back with RECLAIM_EN, and stays otherwise. A KIND 1 side in SYNCING whose image is complete is in STANDBY; a side that lost its light for YIELD_LOS frames yields. Where its condition does not hold, each changes nothing. -/
def Obligations.CustodyLeaseAndCheck : Prop :=
  (∀ (s : State) (p : Fin 32) (r : PairSt) (f : Nat),
     r = pair s p →
     r.claim = some f →
     r.en = false →
     f ≤ frame s →
     Completes (.claimApply p) s (fun t =>
       (pair t p).state = pSettle ∧
       (pair t p).due = some (frame s + laserSettle s) ∧
       (pair t p).armed = false ∧
       TblOnly PairSt.init p s.prot.pair t.prot.pair ∧
       (pair t p).custody = true ∧
       tget dzero t.pon.txdis p = txWanted t p ∧
       Only [.pair, .txdis, .node, .fifo, .regs, .cnt, .pmc] s t)) ∧
  (∀ (s : State) (p : Fin 32) (r : PairSt) (f : Nat),
     r = pair s p →
     r.due = some f →
     r.en = true →
     r.state = pTakeover →
     f ≤ frame s →
     Completes (.custodyTake p) s (fun t =>
       (pair t p).state = pSettle ∧
       (pair t p).due = some (frame s + laserSettle s) ∧
       (pair t p).armed = false ∧
       TblOnly PairSt.init p s.prot.pair t.prot.pair ∧
       tget dzero t.pon.txdis p = txWanted t p ∧
       cntAt t (cntAddr pgPRT PRT_C_TAKEOVERS) = min cntMax (cntAt s (cntAddr pgPRT PRT_C_TAKEOVERS) + 1) ∧
       Only [.pair, .txdis, .node, .fifo, .regs, .cnt, .pmc] s t)) ∧
  (∀ (s : State) (p : Fin 32) (r : PairSt) (f : Nat),
     r = pair s p →
     r.due = some f →
     r.state = pSettle →
     f ≤ frame s →
     Completes (.laserSettleEnd p) s (fun t =>
       pair t p = { r with due := none, rollcall := fld s pgPRT PRT_ROLLCALL, armed := false, state := if r.en then pActive else pOff } ∧
       TblOnly PairSt.init p s.prot.pair t.prot.pair ∧
       flagSet t pgPRT PRT_F_BEGIN = true ∧
       Only (.pair :: alerts) s t)) ∧
  (∀ (s : State) (p : Fin 32) (r : PairSt),
     r = pair s p →
     r.en = true →
     r.armed = true →
     r.expiry ≤ frame s →
     bitAt (react s 58) 3 = false →
     Completes (.leaseRundown p) s (fun t =>
       pair t p = { r with armed := false, watch := some (checkWindow s p), light := false, state := if r.kind = 1 && peerFailed s r.link then pCheck else pDark } ∧
       TblOnly PairSt.init p s.prot.pair t.prot.pair ∧
       tget dzero t.pon.txdis p = txHigh ∧
       flagSet t pgPRT PRT_F_LEASE_RUNDOWN = true ∧
       cntAt t (cntAddr pgPRT PRT_C_LEASE_RUNDOWNS) = min cntMax (cntAt s (cntAddr pgPRT PRT_C_LEASE_RUNDOWNS) + 1) ∧
       sourceSet t 58 = true)) ∧
  (∀ (s : State) (p : Fin 32) (r : PairSt),
     r = pair s p →
     checkOver s p = true →
     r.light = true →
     Completes (.checkWindowEnd p) s (fun t =>
       pair t p = { r with watch := none, state := pDark } ∧
       flagSet t pgPRT PRT_F_LIGHT_SEEN = true ∧
       Only (.pair :: alerts) s t)) ∧
  (∀ (s : State) (p : Fin 32) (r : PairSt),
     r = pair s p →
     checkOver s p = true →
     r.light = false →
     isSet s pgPRT PRT_RECLAIM_EN = true →
     Completes (.checkWindowEnd p) s (fun t =>
       (pair t p).state = pSettle ∧
       (pair t p).due = some (frame s + laserSettle s) ∧
       (pair t p).armed = false ∧
       TblOnly PairSt.init p s.prot.pair t.prot.pair ∧
       cntAt t (cntAddr pgPRT PRT_C_RECLAIMS) = min cntMax (cntAt s (cntAddr pgPRT PRT_C_RECLAIMS) + 1) ∧
       Only [.pair, .txdis, .node, .fifo, .regs, .cnt, .pmc] s t)) ∧
  (∀ (s : State) (p : Fin 32) (r : PairSt),
     r = pair s p →
     r.en = true →
     r.kind = 1 →
     r.state = pSyncing →
     Completes (.syncComplete p) s (fun t =>
       pair t p = { r with resync := false, missRun := 0, peerSync := true, state := pStandby } ∧
       TblOnly PairSt.init p s.prot.pair t.prot.pair ∧
       flagSet t pgPRT PRT_F_SYNC_DONE = true ∧
       Only (.pair :: alerts) s t)) ∧
  (∀ (s : State) (p : Fin 32) (r : PairSt),
     r = pair s p →
     r.autoYield = true →
     max 1 (fld s pgPRT PRT_YIELD_LOS) ≤ r.losRun →
     mayYield s p = true →
     Completes (.autoYield p) s (fun t =>
       (pair t p).state = pDark ∧
       (pair t p).armed = false ∧
       tget dzero t.pon.txdis p = txHigh ∧
       cntAt t (cntAddr pgPRT PRT_C_YIELDS) = min cntMax (cntAt s (cntAddr pgPRT PRT_C_YIELDS) + 1) ∧
       Only (.pair :: .txdis :: alerts) s t)) ∧
  (∀ (s : State) (i : Instr) (p : Fin 32) (r : PairSt),
     r = pair s p →
     (i = .claimApply p ∧ r.claim = none) ∨ ((i = .custodyTake p ∨ i = .laserSettleEnd p) ∧ r.due = none) ∨ (i = .leaseRundown p ∧ (r.armed = false ∨ frame s < r.expiry)) ∨ (i = .checkWindowEnd p ∧ (checkOver s p = false ∨ (r.light = false ∧ isSet s pgPRT PRT_RECLAIM_EN = false))) ∨ (i = .syncComplete p ∧ r.state ≠ pSyncing) ∨ (i = .autoYield p ∧ mayYield s p = false) →
     Completes (i) s (fun t =>
       t = s))

/-- The oldest event goes to the running ring of its owner, with TAIL and, when due, its vector, and a slice's event is copied to the PF; a stopped or full ring drops and counts it. The ring window reads, configures, starts and stops a ring of the function, refusing sizes of code 1 and a change of a running ring (code 8). The stream sends the unsent records in order; RD_IDX shows a record's eight words, free values where none was entered (log entry 3); a finished flush stands in its slot. SLICE_EN keeps bit 0 and a slice that owns something; the owner window reads and assigns, a port's ONUs following it. The reset key arms the next write; an armed RESET_CMD and CHIP_RESET send the FAULT and RESET notices on every link and return everything to reset except straps, revocations, calibration store, CSEQ and flush slots; an unarmed one has RESET_REJ and code 8. -/
def Obligations.EventsJournalSlicesAndChipReset : Prop :=
  (∀ (s : State) (e : EvRec) (l : List EvRec) (x y : EvRing),
     s.evt.fifo = e :: l →
     released s = true →
     e.slice = 0 →
     x = evRing s 0 e.ownRing →
     x.running = true →
     x.full = false →
     y = { x with tail := (x.tail + 1) % x.size, pend := x.pend + 1, since := if x.pend = 0 then (now s).fineIndex else x.since } →
     Completes (.eventDeliver) s (fun t =>
       t.evt.fifo = l ∧
       evRing t 0 e.ownRing = (if y.due (now s).fineIndex then { y with pend := 0 } else y) ∧
       t.bus.hostOut = s.bus.hostOut ++ [(0, .event e), (0, .tail y.tail)] ++ (if y.due (now s).fineIndex then [(0, .msix 0 e.ownRing)] else []) ∧
       fld t pgEVT EVT_FIFO_FILL = l.length % 16384 ∧
       cntAt t (cntAddr pgEVT EVT_C_DELIVERED) = min cntMax (cntAt s (cntAddr pgEVT EVT_C_DELIVERED) + 1) ∧
       Only [.fifo, .evtRings, .hostOut, .regs, .cnt, .pmc] s t)) ∧
  (∀ (s : State) (e : EvRec) (l : List EvRec) (x : EvRing),
     s.evt.fifo = e :: l →
     released s = true →
     e.slice = 0 →
     x = evRing s 0 e.ownRing →
     x.running = false ∨ x.full = true →
     Completes (.eventDeliver) s (fun t =>
       t.evt.fifo = l ∧
       evRing t 0 e.ownRing = { x with drops := min (2 ^ 32 - 1) (x.drops + 1) } ∧
       flagSet t pgEVT EVT_F_RING_DROP = true ∧
       cntAt t (cntAddr pgEVT EVT_C_RING_DROP) = min cntMax (cntAt s (cntAddr pgEVT EVT_C_RING_DROP) + 1) ∧
       Only [.fifo, .evtRings, .regs, .cnt, .pmc] s t)) ∧
  (∀ (s : State) (e : EvRec) (l : List EvRec) (x y : EvRing),
     s.evt.fifo = e :: l →
     released s = true →
     e.slice ≠ 0 →
     15 * e.slice + e.ownRing ≠ e.pfRing →
     x = evRing s e.slice e.ownRing →
     y = evRing s 0 e.pfRing →
     x.running = true →
     x.full = false →
     y.running = true →
     y.full = false →
     Completes (.eventDeliver) s (fun t =>
       t.evt.fifo = l ∧
       (e.slice, .event e) ∈ t.bus.hostOut ∧
       (0, .event { e with copy := true }) ∈ t.bus.hostOut ∧
       cntAt t (cntAddr pgEVT EVT_C_DELIVERED) = min cntMax (cntAt s (cntAddr pgEVT EVT_C_DELIVERED) + 1) ∧
       cntAt t (cntAddr pgEVT EVT_C_COPIES) = min cntMax (cntAt s (cntAddr pgEVT EVT_C_COPIES) + 1))) ∧
  (∀ (s : State),
     s.evt.fifo = [] ∨ released s = false →
     Completes (.eventDeliver) s (fun t =>
       t = s)) ∧
  (∀ (s : State) (o : Origin) (f r : Nat) (x : EvRing),
     addrReject s o (pgEVT + EVT_EV_CMD.off) = none →
     f = (match o with | .vf v => v | _ => fld s pgEVT EVT_EV_FUNC) →
     r = fld s pgEVT EVT_EV_RING →
     x = evRing s f r →
     Completes (.evtRingRead o) s (fun t =>
       (fld t pgEVT EVT_EV_FUNC, fld t pgEVT EVT_STAT) = (f % 32, 0) ∧
       (fld t pgEVT EVT_SIZE_LOG2, isSet t pgEVT EVT_STATE, fld t pgEVT EVT_COAL_CNT, fld t pgEVT EVT_COAL_US) = (x.sizeLog2 % 32, x.running, x.coalCnt % 256, x.coalUs % 65536) ∧
       wordsAt t (pgEVT + 0x090) 4 = twoWords x.base ++ twoWords x.tailWb ∧
       (fld t pgEVT EVT_HEAD, fld t pgEVT EVT_TAIL, fld t pgEVT EVT_RING_DROP_CNT) = (x.head % 65536, x.tail % 65536, x.drops % 2 ^ 32) ∧
       Answered s t o 0 (pgEVT + EVT_EV_CMD.off) ∧
       Only books s t)) ∧
  (∀ (s : State) (o : Origin) (f r : Nat) (x : EvRing) (w : EvRing),
     addrReject s o (pgEVT + EVT_EV_CMD.off) = none →
     f = (match o with | .vf v => v | _ => fld s pgEVT EVT_EV_FUNC) →
     r = fld s pgEVT EVT_EV_RING →
     x = evRing s f r →
     w = x.ofWindow s →
     x.running = false ∨ w = x →
     6 ≤ w.sizeLog2 →
     w.sizeLog2 ≤ 16 →
     w.coalCnt ≠ 0 →
     fld s pgEVT EVT_HEAD < w.size →
     Completes (.evtRingWrite o) s (fun t =>
       evRing t f r = { w with head := fld s pgEVT EVT_HEAD, tail := x.tail % w.size } ∧
       TblOnly EvRing.init (15 * f + r) s.evt.rings t.evt.rings ∧
       Answered s t o 0 (pgEVT + EVT_EV_CMD.off) ∧
       Only (.evtRings :: books) s t)) ∧
  (∀ (s : State) (o : Origin) (f r : Nat) (x : EvRing) (w : EvRing) (c : Nat),
     addrReject s o (pgEVT + EVT_EV_CMD.off) = none →
     f = (match o with | .vf v => v | _ => fld s pgEVT EVT_EV_FUNC) →
     r = fld s pgEVT EVT_EV_RING →
     x = evRing s f r →
     w = x.ofWindow s →
     (x.running = true ∧ w ≠ x ∧ c = 8) ∨ (x.running = false ∧ (w.sizeLog2 < 6 ∨ 16 < w.sizeLog2 ∨ w.coalCnt = 0 ∨ w.size ≤ fld s pgEVT EVT_HEAD) ∧ c = 1) →
     Completes (.evtRingWrite o) s (fun t =>
       fld t pgEVT EVT_STAT = 2 ∧
       t.evt.rings = s.evt.rings ∧
       Answered s t o c (pgEVT + EVT_EV_CMD.off) ∧
       Only books s t)) ∧
  (∀ (s : State) (o : Origin) (f r : Nat) (x : EvRing),
     addrReject s o (pgEVT + EVT_EV_CMD.off) = none →
     f = (match o with | .vf v => v | _ => fld s pgEVT EVT_EV_FUNC) →
     r = fld s pgEVT EVT_EV_RING →
     x = evRing s f r →
     Completes (.evtRingStart o) s (fun t =>
       evRing t f r = { x with running := true } ∧
       TblOnly EvRing.init (15 * f + r) s.evt.rings t.evt.rings ∧
       Answered s t o 0 (pgEVT + EVT_EV_CMD.off) ∧
       Only (.evtRings :: books) s t)) ∧
  (∀ (s : State) (o : Origin) (f r : Nat) (x : EvRing),
     addrReject s o (pgEVT + EVT_EV_CMD.off) = none →
     f = (match o with | .vf v => v | _ => fld s pgEVT EVT_EV_FUNC) →
     r = fld s pgEVT EVT_EV_RING →
     x = evRing s f r →
     Completes (.evtRingStop o) s (fun t =>
       evRing t f r = { x with running := false } ∧
       TblOnly EvRing.init (15 * f + r) s.evt.rings t.evt.rings ∧
       Answered s t o 0 (pgEVT + EVT_EV_CMD.off) ∧
       Only (.evtRings :: books) s t)) ∧
  (∀ (s : State) (l : List JRec) (z : Nat),
     released s = true →
     active s pgJRN JRN_STREAM_EN = true →
     z = 2 ^ fld s pgJRN JRN_SIZE_LOG2 →
     l = ((s.jrn.ring.take s.jrn.unsent).reverse).take ((fld s pgJRN JRN_HEAD + z - s.jrn.tail % z - 1) % z) →
     l ≠ [] →
     Completes (.journalStream) s (fun t =>
       t.bus.hostOut = s.bus.hostOut ++ l.map (fun r => (0, .journal r)) ++ [(0, .tail ((s.jrn.tail + l.length) % z))] ∧
       t.jrn = { s.jrn with tail := (s.jrn.tail + l.length) % z, unsent := s.jrn.unsent - l.length } ∧
       wordsAt t (pgJRN + JRN_CSEQ_STREAMED.off) 2 = twoWords ((l.getLast?.map (·.cseq)).getD 0 % 2 ^ 48) ∧
       cntAt t (cntAddr pgJRN JRN_C_STREAMED) = min cntMax (cntAt s (cntAddr pgJRN JRN_C_STREAMED) + l.length) ∧
       Only [.hostOut, .jrn, .regs, .cnt, .pmc] s t)) ∧
  (∀ (s : State),
     released s = false ∨ active s pgJRN JRN_STREAM_EN = false ∨ s.jrn.unsent = 0 →
     Completes (.journalStream) s (fun t =>
       t = s)) ∧
  (∀ (s : State) (o : Origin) (data : Word) (r : JRec),
     addrReject s o (pgJRN + JRN_RD_IDX.off) = none →
     s.jrn.ring[bitsOf data 0 16]? = some r →
     Completes (.journalRecordRead o data) s (fun t =>
       wordsAt t (pgJRN + JRN_RD_DATA.off) 8 = r.words ∧
       fld t pgJRN JRN_RD_IDX = bitsOf data 0 16 ∧
       Answered s t o 0 (pgJRN + JRN_RD_IDX.off) ∧
       Only books s t)) ∧
  (∀ (s : State) (o : Origin) (data : Word),
     addrReject s o (pgJRN + JRN_RD_IDX.off) = none →
     s.jrn.ring[bitsOf data 0 16]? = none →
     Completes (.journalRecordRead o data) s (fun t =>
       wordsAt t (pgJRN + JRN_RD_DATA.off) 8 = freeWords s ∧
       t.freeCtr = s.freeCtr + 8 ∧
       Answered s t o 0 (pgJRN + JRN_RD_IDX.off) ∧
       Only (.freeCtr :: books) s t)) ∧
  (∀ (s : State) (x : Flush) (y : FlushSlot),
     s.jrn.flush = some x →
     y = ⟨true, true, x.recs, (x.recs.getLast?.map (·.cseq)).getD 0, (x.recs.head?.map (·.cseq)).getD 0, x.cause, x.stamp⟩ →
     Completes (.journalFlushDone) s (fun t =>
       t.jrn = { s.jrn with slotA := if x.slot = 1 then s.jrn.slotA else y, slotB := if x.slot = 1 then y else s.jrn.slotB, flush := none } ∧
       flagSet t pgJRN JRN_F_FLUSHED = true ∧
       cntAt t (cntAddr pgJRN JRN_C_FLUSHES) = min cntMax (cntAt s (cntAddr pgJRN JRN_C_FLUSHES) + 1) ∧
       Only [.jrn, .regs, .cnt, .pmc] s t)) ∧
  (∀ (s : State),
     s.jrn.flush = none →
     Completes (.journalFlushDone) s (fun t =>
       t = s)) ∧
  (∀ (s : State) (o : Origin) (data : Word),
     addrReject s o (pgSLC + SLC_SLICE_EN.off) = none →
     (List.range 32).all (fun v => v == 0 || !bitAt (reg s (pgSLC + SLC_SLICE_EN.off)).toNat v || bitAt data.toNat v || !ownsAny s v) = true →
     Completes (.sliceEnWrite o data) s (fun t =>
       reg t (pgSLC + SLC_SLICE_EN.off) = data ||| 1 ∧
       Answered s t o 0 (pgSLC + SLC_SLICE_EN.off) ∧
       Only books s t)) ∧
  (∀ (s : State) (o : Origin) (data : Word) (v : Fin 32),
     addrReject s o (pgSLC + SLC_SLICE_EN.off) = none →
     v.val ≠ 0 →
     bitAt (reg s (pgSLC + SLC_SLICE_EN.off)).toNat v = true →
     bitAt data.toNat v = false →
     ownsAny s v = true →
     Completes (.sliceEnWrite o data) s (fun t =>
       reg t (pgSLC + SLC_SLICE_EN.off) = reg s (pgSLC + SLC_SLICE_EN.off) ∧
       Answered s t o 1 (pgSLC + SLC_SLICE_EN.off) ∧
       Only books s t)) ∧
  (∀ (s : State) (o : Origin) (k i v : Nat),
     addrReject s o (pgSLC + SLC_CMD.off) = none →
     k = fld s pgSLC SLC_RES_KIND →
     i = fld s pgSLC SLC_RES_IDX →
     v = fld s pgSLC SLC_OWNER →
     i < resCount k →
     Completes (.slcReadOwner o) s (fun t =>
       fld t pgSLC SLC_OWNER = resOwner s k i % 32 ∧
       fld t pgSLC SLC_STAT = 0 ∧
       Answered s t o 0 (pgSLC + SLC_CMD.off) ∧
       Only books s t)) ∧
  (∀ (s : State) (o : Origin) (k i v : Nat),
     addrReject s o (pgSLC + SLC_CMD.off) = none →
     k = fld s pgSLC SLC_RES_KIND →
     i = fld s pgSLC SLC_RES_IDX →
     v = fld s pgSLC SLC_OWNER →
     assignRefused s k i v = false →
     k ≠ 0 →
     Completes (.slcAssign o) s (fun t =>
       resOwner t k i = v ∧
       fld t pgSLC SLC_STAT = 0 ∧
       cntAt t (cntAddr pgSLC SLC_C_ASSIGNS) = min cntMax (cntAt s (cntAddr pgSLC SLC_C_ASSIGNS) + 1) ∧
       Answered s t o 0 (pgSLC + SLC_CMD.off) ∧
       Only (.own :: .fifo :: books) s t)) ∧
  (∀ (s : State) (o : Origin) (k i v : Nat),
     addrReject s o (pgSLC + SLC_CMD.off) = none →
     k = fld s pgSLC SLC_RES_KIND →
     i = fld s pgSLC SLC_RES_IDX →
     v = fld s pgSLC SLC_OWNER →
     assignRefused s k i v = false →
     k = 0 →
     Completes (.slcAssign o) s (fun t =>
       portOwner t i = v ∧
       (∀ n, n < 512 → onuOwner t i n = v) ∧
       cntAt t (cntAddr pgSLC SLC_C_ASSIGNS) = min cntMax (cntAt s (cntAddr pgSLC SLC_C_ASSIGNS) + 1) ∧
       Answered s t o 0 (pgSLC + SLC_CMD.off) ∧
       Only (.own :: .fifo :: books) s t)) ∧
  (∀ (s : State) (o : Origin) (k i v : Nat),
     addrReject s o (pgSLC + SLC_CMD.off) = none →
     k = fld s pgSLC SLC_RES_KIND →
     i = fld s pgSLC SLC_RES_IDX →
     v = fld s pgSLC SLC_OWNER →
     assignRefused s k i v = true →
     Completes (.slcAssign o) s (fun t =>
       resOwner t k i = resOwner s k i ∧
       fld t pgSLC SLC_STAT = 2 ∧
       flagSet t pgSLC SLC_F_ASSIGN_REJ = true ∧
       cntAt t (cntAddr pgSLC SLC_C_ASSIGN_REJ) = min cntMax (cntAt s (cntAddr pgSLC SLC_C_ASSIGN_REJ) + 1) ∧
       Answered s t o 1 (pgSLC + SLC_CMD.off) ∧
       Only books s t)) ∧
  (∀ (s : State) (o : Origin),
     addrReject s o (pgSLC + SLC_CMD.off) = none →
     resCount (fld s pgSLC SLC_RES_KIND) ≤ fld s pgSLC SLC_RES_IDX →
     Completes (.slcReadOwner o) s (fun t =>
       fld t pgSLC SLC_STAT = 2 ∧
       Answered s t o 1 (pgSLC + SLC_CMD.off) ∧
       Only books s t)) ∧
  (∀ (s : State) (o : Origin) (data : Word),
     addrReject s o (pgDEV + DEV_RESET_KEY.off) = none →
     Completes (.resetKey o data) s (fun t =>
       armedBy t o (pgDEV + DEV_RESET_KEY.off) = (data == 0x0000C41F#32) ∧
       reg t (pgDEV + DEV_RESET_KEY.off) = reg s (pgDEV + DEV_RESET_KEY.off) ∧
       Answered s t o 0 (pgDEV + DEV_RESET_KEY.off) ∧
       Only books s t)) ∧
  (∀ (s : State) (o : Origin) (data : Word),
     addrReject s o (pgDEV + DEV_RESET_CMD.off) = none →
     data.getLsbD 0 = true →
     armedBy s o (pgDEV + DEV_RESET_KEY.off) = false →
     Completes (.resetCmd o data) s (fun t =>
       flagSet t pgDEV DEV_F_RESET_REJ = true ∧
       Answered s t o 8 (pgDEV + DEV_RESET_CMD.off) ∧
       Only books s t)) ∧
  (∀ (s : State) (o : Origin) (data : Word),
     addrReject s o (pgDEV + DEV_RESET_CMD.off) = none →
     data.getLsbD 0 = true →
     armedBy s o (pgDEV + DEV_RESET_KEY.off) = true →
     Completes (.resetCmd o data) s (fun t =>
       released t = false ∧
       t.pon = State.reset.pon ∧
       t.tm = State.reset.tm ∧
       t.eng = State.reset.eng ∧
       t.cls = State.reset.cls ∧
       t.keys = State.reset.keys ∧
       t.own = State.reset.own ∧
       t.evt = State.reset.evt ∧
       t.grid = State.reset.grid ∧
       t.prot.pair = [] ∧
       t.link.ring = [] ∧
       (List.range 3).all (fun m => ((tget TickSt.init t.prot.tick m).notices, (tget TickSt.init t.prot.tick m).resets) ==
         ((tget TickSt.init s.prot.tick m).notices + 1, (tget TickSt.init s.prot.tick m).resets + 1)) = true ∧
       (t.boot.straps, t.boot.revoked, t.boot.cal) = (s.boot.straps, s.boot.revoked, s.boot.cal) ∧
       cntAt t (cntAddr pgDEV DEV_C_CHIP_RESETS) = 1 ∧
       t.jrn.ring = [] ∧
       (t.bus.hostOut, t.pending) = (s.bus.hostOut, s.pending) ∧
       t.jrn.cseq = s.jrn.cseq + 1)) ∧
  (∀ (s : State),
     Completes (.chipReset) s (fun t =>
       released t = false ∧
       t.pon = State.reset.pon ∧
       t.tm = State.reset.tm ∧
       t.eng = State.reset.eng ∧
       t.cls = State.reset.cls ∧
       t.keys = State.reset.keys ∧
       t.own = State.reset.own ∧
       t.evt = State.reset.evt ∧
       t.grid = State.reset.grid ∧
       t.prot.pair = [] ∧
       t.link.ring = [] ∧
       (List.range 3).all (fun m => ((tget TickSt.init t.prot.tick m).notices, (tget TickSt.init t.prot.tick m).resets) ==
         ((tget TickSt.init s.prot.tick m).notices + 1, (tget TickSt.init s.prot.tick m).resets + 1)) = true ∧
       (t.boot.straps, t.boot.revoked, t.boot.cal) = (s.boot.straps, s.boot.revoked, s.boot.cal) ∧
       cntAt t (cntAddr pgDEV DEV_C_CHIP_RESETS) = 1 ∧
       t.jrn.ring = [] ∧
       (t.bus.hostOut, t.pending) = (s.bus.hostOut, s.pending) ∧
       t.jrn.cseq = s.jrn.cseq ∧
       (s.jrn.flush = none → t.jrn.flush = some ⟨if newestFlush s.jrn = some false then 1 else 0, s.jrn.ring.take 4096, 2, now s⟩)))

/-- Power good samples the straps and power loss drops everything but what eMRAM and fuses keep. Fuse load shows the fuse values and goes to CHIP_STATE 1, a bad group raising alarm 3; with TEST_EN high the device stays in fuse load (R333); calibration loads every item, goes to CHIP_STATE 2 and to the first image source. An image that fails a check has its FAIL_CAUSE and IMG_FAIL and the loader turns to its next source; one with a sound shape is staged when its signature verifies, and is applied once every stack is trained. A timeout of a mesh source is cause 5. RELEASE of an applied image, and BOOT_RELEASE held for JTAG, set CHIP_STATE 3 at frame 0 of a running grid, unpaired ports holding custody; HOST_GO sets BUSY in the host window. A served copy is counted. An armed REVOKE_CMD blows the slot's bit only if the other slot is programmed and not revoked. -/
def Obligations.FromPowerGoodToRelease : Prop :=
  (∀ (s : State) (x : Straps),
     Completes (.powerGood x) s (fun t =>
       t.boot.powered = true ∧
       t.boot.straps = x ∧
       (fld t pgDEV DEV_DEV_ID, fld t pgDEV DEV_BOOT_SRC, isSet t pgDEV DEV_MESH_EN) = (x.devId.val, x.bootSrc.val, x.meshEn) ∧
       fld t pgDEV DEV_CHIP_STATE = 0 ∧
       t.jrn.cseq = cseqAfter (cutFlush s.jrn) ∧
       t.pon = State.reset.pon ∧
       t.tm = State.reset.tm ∧
       t.eng = State.reset.eng ∧
       t.cls = State.reset.cls ∧
       t.keys = [] ∧
       (t.boot.revoked, t.boot.cal, t.boot.warnPin, t.boot.perst) = (s.boot.revoked, s.boot.cal, s.boot.warnPin, s.boot.perst))) ∧
  (∀ (s : State),
     Completes (.powerGoodFall) s (fun t =>
       t.boot.powered = false ∧
       released t = false ∧
       t.boot.straps = State.reset.boot.straps ∧
       (t.jrn.slotA, t.jrn.slotB) = ((cutFlush s.jrn).slotA, (cutFlush s.jrn).slotB) ∧
       t.pon = State.reset.pon ∧
       t.tm = State.reset.tm ∧
       t.eng = State.reset.eng ∧
       t.cls = State.reset.cls ∧
       t.keys = [] ∧
       (t.boot.revoked, t.boot.cal, t.boot.warnPin, t.boot.perst) = (s.boot.revoked, s.boot.cal, s.boot.warnPin, s.boot.perst))) ∧
  (∀ (s : State),
     s.boot.powered = true →
     s.boot.straps.testEn = false →
     fld s pgDEV DEV_CHIP_STATE = 0 →
     Completes (.fuseLoadDone true) s (fun t =>
       t.boot.fuseOk = true ∧
       (fld t pgDEV DEV_CHIP_STATE, fld t pgBOOT BOOT_STAGE) = (1, 1) ∧
       (isSet t pgFUSE FUSE_LOAD_DONE, isSet t pgFUSE FUSE_INTEGRITY_OK) = (true, true) ∧
       fld t pgDEV DEV_DEVICE_ID = 0x5032 ∧
       (fld t pgFUSE FUSE_KEY_PROG, fld t pgFUSE FUSE_KEY_REVOKED) = (Config.keyProg.toNat % 4, revokedBits s % 4) ∧
       Only [.boot, .regs] s t)) ∧
  (∀ (s : State),
     s.boot.powered = true →
     s.boot.straps.testEn = false →
     fld s pgDEV DEV_CHIP_STATE = 0 →
     bitAt (react s 55) 3 = false →
     Completes (.fuseLoadDone false) s (fun t =>
       t.boot.fuseOk = false ∧
       flagSet t pgFUSE FUSE_F_INTEGRITY_FAIL = true ∧
       bitAt (fld t pgCIP CIP_CAUSE) 3 = true ∧
       isSet t pgFUSE FUSE_INTEGRITY_OK = false)) ∧
  (∀ (s : State),
     s.boot.powered = true →
     fld s pgDEV DEV_CHIP_STATE = 1 →
     Completes (.calibrationDone) s (fun t =>
       fld t pgDEV DEV_CHIP_STATE = 2 ∧
       isSet t pgCAL CAL_LOADED = true ∧
       (fld t pgBOOT BOOT_STAGE, fld t pgBOOT BOOT_SRC_USED) = (match s.boot.straps.bootSrc.val with | 0 => (2, 0) | 1 => (6, 1) | 2 => if s.boot.straps.meshEn then (2, 2) else (6, 1) | _ => (2, 3)) ∧
       t.boot.image = none)) ∧
  (∀ (s : State) (k : Fin 4),
     s.boot.powered = true →
     released s = false →
     s.boot.image = none →
     Completes (.hbmTrained k) s (fun t =>
       bitAt (fld t pgHBM HBM_STACK_OK) k = true ∧
       t.boot = s.boot ∧
       (Only [.regs] s t ∨ flagSet t pgTMQ TMQ_F_SHARED_OVER = true))) ∧
  (∀ (s : State) (k : Fin 4) (x : Image),
     imageStage s = true →
     s.boot.image = some x →
     s.boot.applied = false →
     fld s pgBOOT BOOT_STAGE = stApply →
     fld s pgHBM HBM_STACK_OK ||| 2 ^ k.val = 15 →
     (∀ e ∈ x.sections, e.body = .note) →
     Completes (.hbmTrained k) s (fun t =>
       t.boot.applied = true ∧
       t.boot.image = some x ∧
       stacksUp t = true)) ∧
  (∀ (s : State) (x : Image) (c : Nat),
     readsImage s = true →
     (x.response = false ∧ c = 1) ∨ (x.response = true ∧ x.readError = true ∧ c = 7) ∨ (x.response = true ∧ x.readError = false ∧ x.magic ≠ imageMagic ∧ c = 1) ∨ (x.response = true ∧ x.readError = false ∧ x.magic = imageMagic ∧ (x.format ≠ 1 ∨ x.device ≠ 0x5032) ∧ c = 2) ∨ (x.response = true ∧ x.readError = false ∧ x.magic = imageMagic ∧ x.format = 1 ∧ x.device = 0x5032 ∧ shapeOk x = false ∧ c = 3) →
     fld s pgBOOT BOOT_SRC_USED = 0 →
     s.boot.slot = 0 →
     Completes (.imageCheck x) s (fun t =>
       fld t pgBOOT BOOT_FAIL_CAUSE = c % 8 ∧
       t.boot.image = none ∧
       flagSet t pgBOOT BOOT_F_IMG_FAIL = true ∧
       cntAt t (cntAddr pgBOOT BOOT_C_IMG_FAIL) = min cntMax (cntAt s (cntAddr pgBOOT BOOT_C_IMG_FAIL) + 1) ∧
       t.boot.slot = 1 ∧
       fld t pgBOOT BOOT_STAGE = 2)) ∧
  (∀ (s : State) (x : Image) (c : Nat),
     readsImage s = true →
     (x.response = false ∧ c = 1) ∨ (x.response = true ∧ x.readError = true ∧ c = 7) ∨ (x.response = true ∧ x.readError = false ∧ x.magic ≠ imageMagic ∧ c = 1) ∨ (x.response = true ∧ x.readError = false ∧ x.magic = imageMagic ∧ (x.format ≠ 1 ∨ x.device ≠ 0x5032) ∧ c = 2) ∨ (x.response = true ∧ x.readError = false ∧ x.magic = imageMagic ∧ x.format = 1 ∧ x.device = 0x5032 ∧ shapeOk x = false ∧ c = 3) →
     fld s pgBOOT BOOT_SRC_USED = 1 ∨ (fld s pgBOOT BOOT_SRC_USED = 0 ∧ s.boot.slot ≠ 0) ∨ (fld s pgBOOT BOOT_SRC_USED = 2 ∧ 2 ≤ s.boot.link) →
     Completes (.imageCheck x) s (fun t =>
       fld t pgBOOT BOOT_FAIL_CAUSE = c % 8 ∧
       t.boot.image = none ∧
       flagSet t pgBOOT BOOT_F_IMG_FAIL = true ∧
       cntAt t (cntAddr pgBOOT BOOT_C_IMG_FAIL) = min cntMax (cntAt s (cntAddr pgBOOT BOOT_C_IMG_FAIL) + 1) ∧
       (fld t pgBOOT BOOT_STAGE, fld t pgBOOT BOOT_SRC_USED, isSet t pgBOOT BOOT_BUSY) = (6, 1, false))) ∧
  (∀ (s : State) (x : Image),
     readsImage s = true →
     x.response = true →
     x.readError = false →
     x.magic = imageMagic →
     x.format = 1 →
     x.device = 0x5032 →
     shapeOk x = true →
     stacksUp s = false →
     Completes (.imageCheck x) s (fun t =>
       (sigStatus s x = 0 → fld t pgBOOT BOOT_STAGE = stApply ∧ t.boot.image = some x ∧ t.boot.applied = false ∧ fld t pgBOOT BOOT_FAIL_CAUSE = 0) ∧
       (sigStatus s x ≠ 0 → fld t pgBOOT BOOT_FAIL_CAUSE = 4 ∧ t.boot.image = none ∧ flagSet t pgBOOT BOOT_F_IMG_FAIL = true) ∧
       reg t (pgBOOT + BOOT_IMAGE_VER.off) = x.ver ∧
       fld t pgCIP CIP_SIG_STATUS = sigStatus s x ∧
       cntAt t (cntAddr pgBOOT BOOT_C_IMAGES_CHECKED) = min cntMax (cntAt s (cntAddr pgBOOT BOOT_C_IMAGES_CHECKED) + 1))) ∧
  (∀ (s : State),
     imageStage s = true →
     fld s pgBOOT BOOT_SRC_USED = srcMesh →
     fld s pgBOOT BOOT_STAGE = stRead →
     s.boot.link < 2 →
     Completes (.imageSourceTimeout) s (fun t =>
       t.boot.link = s.boot.link + 1 ∧
       (fld t pgBOOT BOOT_STAGE, fld t pgBOOT BOOT_SRC_USED, fld t pgBOOT BOOT_FAIL_CAUSE) = (2, 2, 5) ∧
       flagSet t pgBOOT BOOT_F_IMG_FAIL = true)) ∧
  (∀ (s : State),
     imageStage s = true →
     fld s pgBOOT BOOT_SRC_USED = srcMesh →
     fld s pgBOOT BOOT_STAGE = stRead →
     2 ≤ s.boot.link →
     Completes (.imageSourceTimeout) s (fun t =>
       (fld t pgBOOT BOOT_STAGE, fld t pgBOOT BOOT_SRC_USED, fld t pgBOOT BOOT_FAIL_CAUSE) = (6, 1, 5) ∧
       flagSet t pgBOOT BOOT_F_IMG_FAIL = true)) ∧
  (∀ (s : State),
     mayRelease s = true →
     s.boot.applied = true →
     Completes (.release) s (fun t =>
       released t = true ∧
       fld t pgBOOT BOOT_STAGE = 5 ∧
       t.grid.running = true ∧
       now t = ⟨0, 0, 0⟩ ∧
       t.boot.warn = false ∧
       s.jrn.cseq ≤ t.jrn.cseq ∧
       (List.range 32).all (fun p => (pair s p).en || holdsCustody t p) = true)) ∧
  (∀ (s : State) (o : Origin),
     addrReject s o (bootGo) = none →
     s.boot.straps.bootSrc = 3 →
     mayRelease s = true →
     Completes (.bootRelease o) s (fun t =>
       released t = true ∧
       fld t pgBOOT BOOT_STAGE = 5 ∧
       t.grid.running = true ∧
       now t = ⟨0, 0, 0⟩ ∧
       t.boot.warn = false ∧
       s.jrn.cseq ≤ t.jrn.cseq ∧
       (List.range 32).all (fun p => (pair s p).en || holdsCustody t p) = true ∧
       t.bus.done = .normal)) ∧
  (∀ (s : State) (o : Origin),
     addrReject s o (bootGo) = none →
     s.boot.straps.bootSrc ≠ 3 ∨ mayRelease s = false →
     Completes (.bootRelease o) s (fun t =>
       Answered s t o 8 bootGo ∧
       Only books s t)) ∧
  (∀ (s : State) (o : Origin),
     addrReject s o (bootGo) = none →
     imageStage s = true →
     fld s pgBOOT BOOT_STAGE = stHost →
     isSet s pgBOOT BOOT_BUSY = false →
     Completes (.hostGo o) s (fun t =>
       isSet t pgBOOT BOOT_BUSY = true ∧
       Answered s t o 0 bootGo ∧
       Only books s t)) ∧
  (∀ (s : State) (o : Origin) (c : Nat),
     addrReject s o (bootGo) = none →
     (isSet s pgBOOT BOOT_BUSY = true ∧ c = 4) ∨ (isSet s pgBOOT BOOT_BUSY = false ∧ (imageStage s = false ∨ fld s pgBOOT BOOT_STAGE ≠ stHost) ∧ c = 8) →
     Completes (.hostGo o) s (fun t =>
       Answered s t o c bootGo ∧
       Only books s t)) ∧
  (∀ (s : State) (m : Fin 3) (x : Image),
     s.boot.image = some x →
     released s = true →
     isSet s pgBOOT BOOT_SERVE_EN = true →
     hexUp s m = true →
     Completes (.meshCopyServe m) s (fun t =>
       flagSet t pgBOOT BOOT_F_SERVED = true ∧
       cntAt t (cntAddr pgBOOT BOOT_C_COPIES_SERVED) = min cntMax (cntAt s (cntAddr pgBOOT BOOT_C_COPIES_SERVED) + 1) ∧
       Only [.hex, .regs, .cnt, .pmc] s t)) ∧
  (∀ (s : State) (m : Fin 3),
     s.boot.image = none ∨ released s = false ∨ isSet s pgBOOT BOOT_SERVE_EN = false ∨ hexUp s m = false →
     Completes (.meshCopyServe m) s (fun t =>
       t = s)) ∧
  (∀ (s : State) (o : Origin) (data : Word),
     addrReject s o (pgFUSE + FUSE_REVOKE_KEY.off) = none →
     Completes (.revokeKey o data) s (fun t =>
       armedBy t o (pgFUSE + FUSE_REVOKE_KEY.off) = (data == 0x00007E11#32) ∧
       t.boot = s.boot ∧
       Answered s t o 0 (pgFUSE + FUSE_REVOKE_KEY.off) ∧
       Only books s t)) ∧
  (∀ (s : State) (o : Origin) (data : Word),
     addrReject s o (pgFUSE + FUSE_REVOKE_CMD.off) = none →
     data.getLsbD 0 = true →
     armedBy s o (pgFUSE + FUSE_REVOKE_KEY.off) = true →
     Completes (.revokeCmd o data) s (fun t =>
       (t.boot.revoked = if mayRevoke s (bitsOf data 1 1) then s.boot.revoked ||| 2 ^ bitsOf data 1 1 else s.boot.revoked) ∧
       Answered s t o (if mayRevoke s (bitsOf data 1 1) then 0 else 8) (pgFUSE + FUSE_REVOKE_CMD.off) ∧
       flagSet t pgFUSE (if mayRevoke s (bitsOf data 1 1) then FUSE_F_REVOKE_DONE else FUSE_F_REVOKE_REJ) = true ∧
       Only (.boot :: books) s t)) ∧
  (∀ (s : State) (o : Origin) (data : Word),
     addrReject s o (pgFUSE + FUSE_REVOKE_CMD.off) = none →
     data.getLsbD 0 = true →
     armedBy s o (pgFUSE + FUSE_REVOKE_KEY.off) = false →
     Completes (.revokeCmd o data) s (fun t =>
       flagSet t pgFUSE FUSE_F_REVOKE_REJ = true ∧
       Answered s t o 8 (pgFUSE + FUSE_REVOKE_CMD.off) ∧
       Only books s t)) ∧
  (∀ (s : State) (i : Instr) (b : Bool) (k : Fin 4) (x : Image),
     (i = .fuseLoadDone b ∧ (s.boot.powered = false ∨ s.boot.straps.testEn = true ∨ fld s pgDEV DEV_CHIP_STATE ≠ 0)) ∨ (i = .calibrationDone ∧ (s.boot.powered = false ∨ fld s pgDEV DEV_CHIP_STATE ≠ 1)) ∨ (i = .hbmTrained k ∧ (s.boot.powered = false ∨ released s = true)) ∨ (i = .imageCheck x ∧ readsImage s = false) ∨ (i = .imageSourceTimeout ∧ imageStage s = false) ∨ (i = .release ∧ mayRelease s = false) →
     Completes (i) s (fun t =>
       t = s))

/-- The first unlock word arms the second, which unlocks the store while the page is not locked; any other value locks it, as do 65,536 frames without a store write. A read shows an item that was written; a write of an unlocked store stores it with its working copy, and is refused with code 8 while the store is locked or PWR_WARN_N is low, with code 1 for a bad peaking value or where R96 holds ZD; a reload takes the working copy from the store; an index outside its kind has code 1. The warning sets WARN_ACTIVE and PWR_WARN, drives TXDIS high after release and begins the flush; its end leaves the lasers off until WARN_CLR, refused before 1 ms, or before release the image stage starts anew. -/
def Obligations.CalibrationStoreAndPowerWarning : Prop :=
  (∀ (s : State) (o : Origin),
     addrReject s o (pgCAL + CAL_UNLOCK.off) = none →
     Completes (.calUnlock o unlockFirst) s (fun t =>
       armedBy t o (pgCAL + CAL_UNLOCK.off) = true ∧
       t.boot = s.boot ∧
       Answered s t o 0 (pgCAL + CAL_UNLOCK.off) ∧
       Only books s t)) ∧
  (∀ (s : State) (o : Origin),
     addrReject s o (pgCAL + CAL_UNLOCK.off) = none →
     armedBy s o (pgCAL + CAL_UNLOCK.off) = true →
     isSet s pgCAL ANY_LOCK = false →
     Completes (.calUnlock o unlockSecond) s (fun t =>
       isSet t pgCAL CAL_UNLOCKED = true ∧
       t.boot = { s.boot with storeAt := some (frame s) } ∧
       Answered s t o 0 (pgCAL + CAL_UNLOCK.off) ∧
       Only (.boot :: books) s t)) ∧
  (∀ (s : State) (o : Origin) (data : Word),
     addrReject s o (pgCAL + CAL_UNLOCK.off) = none →
     data ≠ unlockFirst →
     data ≠ unlockSecond ∨ armedBy s o (pgCAL + CAL_UNLOCK.off) = false ∨ isSet s pgCAL ANY_LOCK = true →
     Completes (.calUnlock o data) s (fun t =>
       isSet t pgCAL CAL_UNLOCKED = false ∧
       t.boot = { s.boot with storeAt := none } ∧
       Answered s t o 0 (pgCAL + CAL_UNLOCK.off) ∧
       Only (.boot :: books) s t)) ∧
  (∀ (s : State) (f : Nat),
     s.boot.storeAt = some f →
     f + 65536 ≤ frame s →
     Completes (.calUnlockTimeout) s (fun t =>
       isSet t pgCAL CAL_UNLOCKED = false ∧
       t.boot = { s.boot with storeAt := none } ∧
       Only [.boot, .regs] s t)) ∧
  (∀ (s : State),
     s.boot.storeAt = none →
     Completes (.calUnlockTimeout) s (fun t =>
       t = s)) ∧
  (∀ (s : State) (o : Origin) (k i : Nat) (x : CalItem),
     addrReject s o (pgCAL + CAL_CMD.off) = none →
     k = fld s pgCAL CAL_KIND →
     i = fld s pgCAL CAL_INDEX →
     i < calCount k →
     tget dnone s.boot.cal (1024 * k + i) = some x →
     Completes (.calRead o) s (fun t =>
       (fld t pgCAL CAL_DATA0, fld t pgCAL CAL_DATA1) = (x.d0 % 2 ^ 32, x.d1 % 2 ^ 32) ∧
       (fld t pgCAL CAL_STAT = if x.good then 0 else 4) ∧
       Answered s t o 0 (pgCAL + CAL_CMD.off) ∧
       Only books s t)) ∧
  (∀ (s : State) (o : Origin) (k i : Nat) (d0 d1 : Nat),
     addrReject s o (pgCAL + CAL_CMD.off) = none →
     k = fld s pgCAL CAL_KIND →
     i = fld s pgCAL CAL_INDEX →
     i < calCount k →
     isSet s pgCAL CAL_UNLOCKED = true →
     s.boot.warnPin = false →
     zdHeld s k i = false →
     d0 = fld s pgCAL CAL_DATA0 →
     d1 = fld s pgCAL CAL_DATA1 →
     k ≠ 0 ∨ peakOk d0 = true →
     Completes (.calStoreWrite o) s (fun t =>
       tget dnone t.boot.cal (1024 * k + i) = some ⟨d0, d1, true⟩ ∧
       t.boot.storeAt = some (frame s) ∧
       flagSet t pgCAL CAL_F_STORE_WRITTEN = true ∧
       cntAt t (cntAddr pgCAL CAL_C_STORE_WRITES) = min cntMax (cntAt s (cntAddr pgCAL CAL_C_STORE_WRITES) + 1) ∧
       Answered s t o 0 (pgCAL + CAL_CMD.off) ∧
       (k = 0 → (fld t (pgSDS i) SDS_RX_PEAK, fld t (pgSDS i) SDS_PEAK_MIN, fld t (pgSDS i) SDS_PEAK_MAX) = (d0 % 32, d0 / 32 % 32, d0 / 1024 % 32)) ∧
       (k = 2 → fld t (pgRNG (i / 3) (i % 3)) RNG_ZD_FINE = d0 % 2 ^ RNG_ZD_FINE.width) ∧
       (k ≠ 0 → k ≠ 2 → tget (fun _ => (0, 0)) t.boot.work (1024 * k + i) = (d0, d1)))) ∧
  (∀ (s : State) (o : Origin) (k i : Nat) (c : Nat),
     addrReject s o (pgCAL + CAL_CMD.off) = none →
     k = fld s pgCAL CAL_KIND →
     i = fld s pgCAL CAL_INDEX →
     i < calCount k →
     (isSet s pgCAL CAL_UNLOCKED = false ∧ c = 8) ∨ (isSet s pgCAL CAL_UNLOCKED = true ∧ s.boot.warnPin = true ∧ c = 8) ∨ (isSet s pgCAL CAL_UNLOCKED = true ∧ s.boot.warnPin = false ∧ zdHeld s k i = true ∧ c = 1) ∨ (isSet s pgCAL CAL_UNLOCKED = true ∧ s.boot.warnPin = false ∧ k = 0 ∧ peakOk (fld s pgCAL CAL_DATA0) = false ∧ c = 1) →
     Completes (.calStoreWrite o) s (fun t =>
       t.boot = s.boot ∧
       fld t pgCAL CAL_STAT = 2 ∧
       Answered s t o c (pgCAL + CAL_CMD.off) ∧
       Only books s t)) ∧
  (∀ (s : State) (o : Origin) (k i : Nat) (x : CalItem),
     addrReject s o (pgCAL + CAL_CMD.off) = none →
     k = fld s pgCAL CAL_KIND →
     i = fld s pgCAL CAL_INDEX →
     i < calCount k →
     tget dnone s.boot.cal (1024 * k + i) = some x →
     zdHeld s k i = false →
     x.good = true →
     Completes (.calReload o) s (fun t =>
       (k = 0 → (fld t (pgSDS i) SDS_RX_PEAK, fld t (pgSDS i) SDS_PEAK_MIN, fld t (pgSDS i) SDS_PEAK_MAX) = (x.d0 % 32, x.d0 / 32 % 32, x.d0 / 1024 % 32)) ∧
       (k = 2 → fld t (pgRNG (i / 3) (i % 3)) RNG_ZD_FINE = x.d0 % 2 ^ RNG_ZD_FINE.width) ∧
       (k ≠ 0 → k ≠ 2 → tget (fun _ => (0, 0)) t.boot.work (1024 * k + i) = (x.d0, x.d1)) ∧
       t.boot.cal = s.boot.cal ∧
       cntAt t (cntAddr pgCAL CAL_C_RELOADS) = min cntMax (cntAt s (cntAddr pgCAL CAL_C_RELOADS) + 1) ∧
       Answered s t o 0 (pgCAL + CAL_CMD.off))) ∧
  (∀ (s : State) (c : Instr) (o : Origin),
     c = .calRead o ∨ c = .calStoreWrite o ∨ c = .calReload o →
     addrReject s o (pgCAL + CAL_CMD.off) = none →
     calCount (fld s pgCAL CAL_KIND) ≤ fld s pgCAL CAL_INDEX →
     Completes (c) s (fun t =>
       t.boot = s.boot ∧
       fld t pgCAL CAL_STAT = 2 ∧
       Answered s t o 1 (pgCAL + CAL_CMD.off) ∧
       Only books s t)) ∧
  (∀ (s : State),
     Completes (.powerFailWarning) s (fun t =>
       (t.boot.warnPin, t.boot.warn, t.boot.warnRose) = (true, true, none) ∧
       isSet t pgBOOT BOOT_WARN_ACTIVE = true ∧
       flagSet t pgBOOT BOOT_F_PWR_WARN = true ∧
       cntAt t (cntAddr pgBOOT BOOT_C_PWR_WARNS) = min cntMax (cntAt s (cntAddr pgBOOT BOOT_C_PWR_WARNS) + 1) ∧
       t.jrn = (beginFlush s 1).jrn ∧
       (released s = true → (List.range 32).all (fun p => tget dzero t.pon.txdis p == txHigh) = true))) ∧
  (∀ (s : State),
     s.boot.warnPin = true →
     Completes (.powerWarnEnd) s (fun t =>
       t.boot = { s.boot with warnPin := false, warnRose := some (now s).fineIndex } ∧
       flagSet t pgBOOT BOOT_F_WARN_END = true ∧
       t.pon.txdis = s.pon.txdis ∧
       Only [.boot, .regs, .pmc] s t)) ∧
  (∀ (s : State),
     s.boot.warnPin = false →
     Completes (.powerWarnEnd) s (fun t =>
       t = s)) ∧
  (∀ (s : State) (o : Origin) (w : Nat),
     addrReject s o (bootGo) = none →
     s.boot.warn = true →
     s.boot.warnRose = some w →
     s.boot.warnPin = false →
     w + warnHold ≤ (now s).fineIndex →
     Completes (.warnClr o) s (fun t =>
       t.boot = { s.boot with warn := false, warnRose := none } ∧
       isSet t pgBOOT BOOT_WARN_ACTIVE = false ∧
       Answered s t o 0 bootGo ∧
       Only (.boot :: books) s t)) ∧
  (∀ (s : State) (o : Origin),
     addrReject s o (bootGo) = none →
     s.boot.warn = true →
     s.boot.warnPin = true ∨ s.boot.warnRose.all (fun w => (now s).fineIndex < w + warnHold) = true →
     Completes (.warnClr o) s (fun t =>
       t.boot = s.boot ∧
       Answered s t o 8 bootGo ∧
       Only books s t)) ∧
  (∀ (s : State),
     released s = false →
     fld s pgDEV DEV_CHIP_STATE = 2 →
     s.boot.warn = true →
     s.boot.warnPin = false →
     Completes (.imageStageRestart) s (fun t =>
       t.boot.warn = false ∧
       isSet t pgBOOT BOOT_WARN_ACTIVE = false ∧
       isSet t pgBOOT BOOT_BUSY = false ∧
       (fld t pgBOOT BOOT_STAGE, fld t pgBOOT BOOT_SRC_USED) = (match s.boot.straps.bootSrc.val with | 0 => (2, 0) | 1 => (6, 1) | 2 => if s.boot.straps.meshEn then (2, 2) else (6, 1) | _ => (2, 3)) ∧
       t.boot.image = none)) ∧
  (∀ (s : State),
     released s = true ∨ s.boot.warn = false ∨ s.boot.warnPin = true →
     Completes (.imageStageRestart) s (fun t =>
       t = s))

/-- A bank is shown, turned on, put in retention unless its user block is enabled, or turned off unless it has a user; a refusal has code 8, REJECT and BANK_REJ. A fault without a party sets its source, posts its record and, where its reactions say so, resets a cluster that it has fenced and reclaimed; with a party it fences it and queues it once for reclaim, which takes the front, frees its entry and makes the block reset unless that merged with another. A region test counts and moves the sweep on, past the last region with SWEEP_DONE; a failing row takes a spare row while fuses and repairs leave one, else UNREPAIRED; banks not on are skipped. An abandoned test is DEFERRED, a sweep of 24 h is SWEEP_LATE once. An engine check retires the engine in turn, or begins on the spare, when the spare is free, and nothing else; once that engine has drained and its contexts are idle the check ends, counts and moves the turn: a passed engine is reinstated, a failed one is lost and stays retired; an eye scan takes the next lane in use and reports a low width. The bank user and spare rows are the floor plan's (Config). -/
def Obligations.BanksFaultsAndRegulation : Prop :=
  (∀ (s : State) (o : Origin) (b : Nat),
     addrReject s o (pgMEM + MEM_BANK_CMD.off) = none →
     b = fld s pgMEM MEM_BANK_IDX →
     Completes (.bankRead o) s (fun t =>
       (fld t pgMEM MEM_STATE, fld t pgMEM MEM_USER, fld t pgMEM MEM_REPAIRED, fld t pgMEM MEM_STAT) = ((bankAt s b).st % 4, (Config.bankUser b).toNat, Config.repairRows b % 8, 0) ∧
       Answered s t o 0 (pgMEM + MEM_BANK_CMD.off) ∧
       Only books s t)) ∧
  (∀ (s : State) (o : Origin) (b : Nat),
     addrReject s o (pgMEM + MEM_BANK_CMD.off) = none →
     b = fld s pgMEM MEM_BANK_IDX →
     Completes (.bankOn o) s (fun t =>
       bankAt t b = { bankAt s b with st := 2 } ∧
       TblOnly Bank.init b s.boot.bank t.boot.bank ∧
       Answered s t o 0 (pgMEM + MEM_BANK_CMD.off) ∧
       Only (.boot :: books) s t)) ∧
  (∀ (s : State) (o : Origin) (b : Nat),
     addrReject s o (pgMEM + MEM_BANK_CMD.off) = none →
     b = fld s pgMEM MEM_BANK_IDX →
     Completes (.bankRetention o) s (fun t =>
       (bankAt t b = if userEnabled s b then bankAt s b else { bankAt s b with st := 1 }) ∧
       (userEnabled s b = true → flagSet t pgMEM MEM_F_BANK_REJ = true) ∧
       TblOnly Bank.init b s.boot.bank t.boot.bank ∧
       Answered s t o (if userEnabled s b then 8 else 0) (pgMEM + MEM_BANK_CMD.off) ∧
       Only (.boot :: books) s t)) ∧
  (∀ (s : State) (o : Origin) (b : Nat),
     addrReject s o (pgMEM + MEM_BANK_CMD.off) = none →
     b = fld s pgMEM MEM_BANK_IDX →
     Completes (.bankOff o) s (fun t =>
       (bankAt t b = if (bankBase b).isSome then bankAt s b else { bankAt s b with st := 0 }) ∧
       ((bankBase b).isSome = true → flagSet t pgMEM MEM_F_BANK_REJ = true) ∧
       TblOnly Bank.init b s.boot.bank t.boot.bank ∧
       Answered s t o (if (bankBase b).isSome then 8 else 0) (pgMEM + MEM_BANK_CMD.off) ∧
       Only (.boot :: books) s t)) ∧
  (∀ (s : State) (j : Fin 64),
     bitAt (react s j) 2 = false →
     bitAt (react s j) 3 = false →
     Completes (.faultSourceSet j none) s (fun t =>
       sourceSet t j = true ∧
       (fld t pgFLT FLT_LAST_SRC, fld t pgFLT FLT_LAST_PARTY, fld t pgFLT FLT_LAST_BUFS) = (j.val, 0, 0) ∧
       t.tst.queue = s.tst.queue)) ∧
  (∀ (s : State) (j : Fin 64),
     bitAt (react s j) 2 = true →
     bitAt (react s j) 3 = false →
     j.val < 16 →
     Completes (.faultSourceSet j none) s (fun t =>
       sourceSet t j = true ∧
       cntAt t (cntAddr pgFLT FLT_C_BLOCK_RESETS) = min cntMax (cntAt s (cntAddr pgFLT FLT_C_BLOCK_RESETS) + 1) ∧
       cntAt t (cntAddr pgFLT FLT_C_FENCES) = min cntMax (cntAt s (cntAddr pgFLT FLT_C_FENCES) + 1) ∧
       fld t pgFLT FLT_LAST_PARTY = partyTag (.cluster (Fin.ofNat 16 j)) ∧
       t.tst.queue.map (·.party) = s.tst.queue.map (·.party))) ∧
  (∀ (s : State) (j : Fin 64) (q : Party),
     bitAt (react s j) 3 = false →
     s.tst.outside = [] →
     s.tst.queue.length < 64 →
     s.tst.queue.any (fun e => e.party == q) = false →
     Completes (.faultSourceSet j (some q)) s (fun t =>
       t.tst.queue = s.tst.queue ++ [⟨j, q, (FaultReq.scope s ⟨j, q, false⟩).isSome && s.tst.queue.any (fun x => x.scope s == FaultReq.scope s ⟨j, q, false⟩)⟩] ∧
       sourceSet t j = true ∧
       isSet t pgFLT FLT_RECLAIM_BUSY = true ∧
       fld t pgFLT FLT_RQ_FILL = s.tst.queue.length + 1 ∧
       cntAt t (cntAddr pgFLT FLT_C_FENCES) = min cntMax (cntAt s (cntAddr pgFLT FLT_C_FENCES) + 1))) ∧
  (∀ (s : State) (j : Fin 64) (q : Party),
     bitAt (react s j) 3 = false →
     s.tst.queue.any (fun e => e.party == q) = true →
     Completes (.faultSourceSet j (some q)) s (fun t =>
       t.tst.queue = s.tst.queue ∧
       t.tst.outside = s.tst.outside ∧
       sourceSet t j = true)) ∧
  (∀ (s : State) (e : FaultReq) (l : List FaultReq),
     s.tst.queue = e :: l →
     s.tst.outside = [] →
     bitAt (react s e.src) 2 = false →
     bitAt (react s e.src) 3 = false →
     Completes (.reclaim) s (fun t =>
       t.tst.queue = l ∧
       flagSet t pgFLT FLT_F_RECLAIM_DONE = true ∧
       (partyCtxs e.party).all (fun c => (ctx t c).st == 0) = true ∧
       (fld t pgFLT FLT_LAST_SRC, fld t pgFLT FLT_LAST_PARTY) = (e.src % 2 ^ FLT_LAST_SRC.width, partyTag e.party % 2 ^ FLT_LAST_PARTY.width))) ∧
  (∀ (s : State) (e : FaultReq) (l : List FaultReq),
     s.tst.queue = e :: l →
     s.tst.outside = [] →
     bitAt (react s e.src) 2 = true →
     bitAt (react s e.src) 3 = false →
     e.merged = true →
     Completes (.reclaim) s (fun t =>
       t.tst.queue = l ∧
       flagSet t pgFLT FLT_F_RECLAIM_DONE = true ∧
       cntAt t (cntAddr pgFLT FLT_C_BLOCK_RESETS) = cntAt s (cntAddr pgFLT FLT_C_BLOCK_RESETS))) ∧
  (∀ (s : State) (e : FaultReq) (l : List FaultReq),
     s.tst.queue = e :: l →
     s.tst.outside = [] →
     bitAt (react s e.src) 2 = true →
     bitAt (react s e.src) 3 = false →
     e.merged = false →
     e.src < 16 →
     Completes (.reclaim) s (fun t =>
       t.tst.queue.map (·.party) = l.map (·.party) ∧
       flagSet t pgFLT FLT_F_RECLAIM_DONE = true ∧
       cntAt t (cntAddr pgFLT FLT_C_BLOCK_RESETS) = min cntMax (cntAt s (cntAddr pgFLT FLT_C_BLOCK_RESETS) + 1))) ∧
  (∀ (s : State),
     s.tst.queue = [] →
     Completes (.reclaim) s (fun t =>
       t = s)) ∧
  (∀ (s : State) (n : Nat),
     released s = true →
     active s pgTST TST_MEM_EN = true →
     n = fld s pgTST TST_SWEEP_POS →
     (bankAt s (n / 128)).st = 2 →
     Completes (.memRegionTest none) s (fun t =>
       (fld t pgTST TST_SWEEP_POS = if n + 1 < regionCount then n + 1 else 0) ∧
       cntAt t (cntAddr pgTST TST_C_REGIONS_TESTED) = min cntMax (cntAt s (cntAddr pgTST TST_C_REGIONS_TESTED) + 1) ∧
       (n + 1 = regionCount → flagSet t pgTST TST_F_SWEEP_DONE = true ∧ t.tst.sweepFrom = frame s) ∧
       Only [.node, .sweep, .regs, .cnt, .pmc] s t)) ∧
  (∀ (s : State) (n row : Nat),
     released s = true →
     active s pgTST TST_MEM_EN = true →
     n = fld s pgTST TST_SWEEP_POS →
     (bankAt s (n / 128)).st = 2 →
     bitAt (react s 61) 3 = false →
     Completes (.memRegionTest (some row)) s (fun t =>
       (fld t pgTST TST_SWEEP_POS = if n + 1 < regionCount then n + 1 else 0) ∧
       flagSet t pgTST TST_F_MEM_FAIL = true ∧
       cntAt t (cntAddr pgTST TST_C_MEM_FAIL) = min cntMax (cntAt s (cntAddr pgTST TST_C_MEM_FAIL) + 1) ∧
       (Config.repairRows (n / 128) + (bankAt s (n / 128)).soft < 4 → bankAt t (n / 128) = ⟨2, (bankAt s (n / 128)).soft + 1⟩ ∧ flagSet t pgTST TST_F_REPAIRED = true) ∧
       (¬ Config.repairRows (n / 128) + (bankAt s (n / 128)).soft < 4 → bankAt t (n / 128) = bankAt s (n / 128) ∧ flagSet t pgTST TST_F_UNREPAIRED = true ∧ sourceSet t 61 = true))) ∧
  (∀ (s : State) (n : Nat) (bad : Option Nat),
     released s = true →
     active s pgTST TST_MEM_EN = true →
     n = fld s pgTST TST_SWEEP_POS →
     (bankAt s (n / 128)).st ≠ 2 →
     Completes (.memRegionTest bad) s (fun t =>
       (fld t pgTST TST_SWEEP_POS = if (n / 128 + 1) * 128 < regionCount then (n / 128 + 1) * 128 else 0) ∧
       cntAt t (cntAddr pgTST TST_C_SKIPPED) = min cntMax (cntAt s (cntAddr pgTST TST_C_SKIPPED) + 1) ∧
       Only [.sweep, .regs, .cnt, .pmc] s t)) ∧
  (∀ (s : State),
     released s = true →
     active s pgTST TST_MEM_EN = true →
     Completes (.testStealTimeout) s (fun t =>
       flagSet t pgTST TST_F_DEFERRED = true ∧
       cntAt t (cntAddr pgTST TST_C_DEFERRED) = min cntMax (cntAt s (cntAddr pgTST TST_C_DEFERRED) + 1) ∧
       fld t pgTST TST_SWEEP_POS = fld s pgTST TST_SWEEP_POS ∧
       Only [.regs, .cnt, .pmc] s t)) ∧
  (∀ (s : State),
     active s pgTST TST_MEM_EN = true →
     s.tst.sweepLate = false →
     s.tst.sweepFrom + 24 * 3600 * 8000 ≤ frame s →
     Completes (.sweepLate) s (fun t =>
       flagSet t pgTST TST_F_SWEEP_LATE = true ∧
       t.tst.sweepLate = true ∧
       Only [.sweep, .regs, .pmc] s t)) ∧
  (∀ (s : State) (k : Fin 16) (e : Fin 32) (pass : Bool),
     released s = true →
     active s pgTST TST_ENG_EN = true →
     checked s k = none →
     spareFree s k = true →
     tget dzero s.tst.engTurn k % 33 = e.val →
     Completes (.engCheck k pass) s (fun t =>
       (fld t pgTST TST_ENG_K, fld t pgTST TST_ENG_E) = (k.val, e.val) ∧
       checked t k = some e.val ∧
       fld t (pgENG k) ENG_SPARE_FOR = e.val ∧
       (cluster t k).leaving = some e.val ∧
       isSet t (pgENG k) ENG_DRAINING = true ∧
       cntAt t (cntAddr (pgENG k) ENG_C_SPARE_SWAPS) = min cntMax (cntAt s (cntAddr (pgENG k) ENG_C_SPARE_SWAPS) + 1) ∧
       Only [.cluster, .check, .regs, .cnt, .pmc] s t)) ∧
  (∀ (s : State) (k : Fin 16) (b pass : Bool),
     released s = true →
     active s pgTST TST_ENG_EN = true →
     checked s k = none →
     spareFree s k = true →
     tget dzero s.tst.engTurn k % 33 = 32 →
     b = isSet s (pgUCS k) UCS_ACTIVE_BANK →
     entryVector s k b 6 < imageLen s k b →
     (ctx s ⟨k, 32, 0⟩).st = 0 →
     Completes (.engCheck k pass) s (fun t =>
       (fld t pgTST TST_ENG_K, fld t pgTST TST_ENG_E) = (k.val, 32) ∧
       checked t k = some 32 ∧
       ctx t ⟨k, 32, 0⟩ = { ctx s ⟨k, 32, 0⟩ with st := 1, pc := entryVector s k b 6, bank := b } ∧
       cntAt t (cntAddr (pgENG k) ENG_C_DISPATCHES) = min cntMax (cntAt s (cntAddr (pgENG k) ENG_C_DISPATCHES) + 1) ∧
       Only [.ctx, .check, .regs, .cnt, .pmc] s t)) ∧
  (∀ (s : State) (k : Fin 16) (pass : Bool),
     checked s k = none →
     spareFree s k = false →
     Completes (.engCheck k pass) s (fun t =>
       t = s)) ∧
  (∀ (s : State) (k : Fin 16) (e : Fin 33),
     released s = true →
     active s pgTST TST_ENG_EN = true →
     checked s k = some e.val →
     (cluster s k).leaving ≠ some e.val →
     (ctxsOf k e).all (fun c => (ctx s c).st == 0) = true →
     Completes (.engCheck k true) s (fun t =>
       cntAt t (cntAddr pgTST TST_C_ENG_CHECKS) = min cntMax (cntAt s (cntAddr pgTST TST_C_ENG_CHECKS) + 1) ∧
       (tget dzero t.tst.engTurn k, checked t k) = ((e.val + 1) % 33, none) ∧
       (e.val < 32 → fld t (pgENG k) ENG_SPARE_FOR = spareNone ∧ (cluster t k).leaving = some 32 ∧ (cluster t k).lost.contains e.val = false) ∧
       (e.val = 32 → t.eng = s.eng) ∧
       Only [.cluster, .check, .sweep, .regs, .cnt, .pmc] s t)) ∧
  (∀ (s : State) (k : Fin 16) (e : Fin 33),
     released s = true →
     active s pgTST TST_ENG_EN = true →
     checked s k = some e.val →
     (cluster s k).leaving ≠ some e.val →
     (ctxsOf k e).all (fun c => (ctx s c).st == 0) = true →
     Completes (.engCheck k false) s (fun t =>
       cntAt t (cntAddr pgTST TST_C_ENG_CHECKS) = min cntMax (cntAt s (cntAddr pgTST TST_C_ENG_CHECKS) + 1) ∧
       (tget dzero t.tst.engTurn k, checked t k) = ((e.val + 1) % 33, none) ∧
       (cluster t k).lost.contains e.val = true ∧
       flagSet t pgTST TST_F_ENG_FAIL = true ∧
       (e.val < 32 → fld t (pgENG k) ENG_SPARE_FOR = e.val) ∧
       Only [.cluster, .check, .sweep, .fifo, .regs, .cnt, .pmc] s t)) ∧
  (∀ (s : State) (k : Fin 16) (e : Fin 33) (pass : Bool),
     checked s k = some e.val →
     (cluster s k).leaving = some e.val ∨ (ctxsOf k e).all (fun c => (ctx s c).st == 0) = false →
     Completes (.engCheck k pass) s (fun t =>
       t = s)) ∧
  (∀ (s : State) (w : Fin 128) (l : Nat),
     released s = true →
     active s pgTST TST_EYE_EN = true →
     (lanesAfter (fld s pgTST TST_EYE_LANE)).find? (fun l => laneStatus s l lsUse) = some l →
     Completes (.eyeScan w) s (fun t =>
       (fld t pgTST TST_EYE_LANE, fld t pgTST TST_EYE_WIDTH) = (l, w.val) ∧
       cntAt t (cntAddr pgTST TST_C_EYE_SCANS) = min cntMax (cntAt s (cntAddr pgTST TST_C_EYE_SCANS) + 1) ∧
       (w.val < fld s pgTST TST_EYE_MIN → flagSet t pgTST TST_F_EYE_LOW = true) ∧
       Only alerts s t)) ∧
  (∀ (s : State) (i : Instr) (bad : Option Nat) (k : Fin 16) (w : Fin 128) (b : Bool),
     released s = false →
     i = .memRegionTest bad ∨ i = .testStealTimeout ∨ i = .engCheck k b ∨ i = .eyeScan w →
     Completes (i) s (fun t =>
       t = s))

/-- START and STOP wait for the next frame boundary. A snapshot latches every counter that was ever set, a group snapshot the eight of its group, into VALUE (a counter in level mode has a free count, log entry 19); a counter read shows the settings and VALUE, which without an unread snapshot is the count now; a write sets a counter, level mode without a flag or a chain into counter 0 having code 1 and CFG_REJ; a clear zeroes a group. TR_IDX shows a trace record, free values where none was entered; the trace stream sends the unsent records in order. A timed action fires once its position is reached, leaves the list and acts once; before that nothing happens. FRAME_BOUNDARY takes the grid to tick 0 of the next frame, starts or stops the counters, counts the frame for the ages, and leaves journal, engines, the rest of the classifier and boot as they are where no supervision message waits; every channel of a port in use takes its superframe counter from the new frame number, 30 bits of it on G. GRID_SECOND is taken once in a second's first frame. -/
def Obligations.CountersTraceAndTheFrame : Prop :=
  (∀ (s : State) (o : Origin),
     addrReject s o (pgPMC + PMC_GO_CMD.off) = none →
     Completes (.pmcStart o) s (fun t =>
       t.tst.go = some true ∧
       t.tst.running = s.tst.running ∧
       Answered s t o 0 (pgPMC + PMC_GO_CMD.off) ∧
       Only (.pmcGo :: books) s t)) ∧
  (∀ (s : State) (o : Origin),
     addrReject s o (pgPMC + PMC_GO_CMD.off) = none →
     Completes (.pmcStop o) s (fun t =>
       t.tst.go = some false ∧
       t.tst.running = s.tst.running ∧
       Answered s t o 0 (pgPMC + PMC_GO_CMD.off) ∧
       Only (.pmcGo :: books) s t)) ∧
  (∀ (s : State) (o : Origin) (k : Nat),
     addrReject s o (pgPMC + PMC_GO_CMD.off) = none →
     k ∈ pmcKeys s →
     (pmc s k).level = false →
     Completes (.pmcSnapshot o) s (fun t =>
       ((pmc t k).value, (pmc t k).snap) = ((pmc s k).count, true) ∧
       Answered s t o 0 (pgPMC + PMC_GO_CMD.off) ∧
       Only (.freeCtr :: books) s t)) ∧
  (∀ (s : State) (o : Origin) (k : Nat) (x : Pmc),
     addrReject s o (pgPMC + PMC_CMD.off) = none →
     k = 8 * fld s pgPMC PMC_GRP + fld s pgPMC PMC_CTR →
     x = pmc s k →
     x.snap = true →
     Completes (.pmcCounterRead o) s (fun t =>
       (fld t pgPMC PMC_EVENT, fld t pgPMC PMC_INST, isSet t pgPMC PMC_MODE, isSet t pgPMC PMC_CHAIN, isSet t pgPMC PMC_EN) = (x.event % 4096, x.inst % 4096, x.level, x.chain, x.en) ∧
       wordsAt t (pgPMC + PMC_VALUE.off) 2 = twoWords x.value ∧
       (pmc t k).snap = false ∧
       Answered s t o 0 (pgPMC + PMC_CMD.off) ∧
       Only books s t)) ∧
  (∀ (s : State) (o : Origin) (k : Nat) (x : Pmc),
     addrReject s o (pgPMC + PMC_CMD.off) = none →
     k = 8 * fld s pgPMC PMC_GRP + fld s pgPMC PMC_CTR →
     x = pmc s k →
     x.snap = false →
     x.level = false →
     Completes (.pmcCounterRead o) s (fun t =>
       (fld t pgPMC PMC_EVENT, fld t pgPMC PMC_INST, isSet t pgPMC PMC_MODE, isSet t pgPMC PMC_CHAIN, isSet t pgPMC PMC_EN) = (x.event % 4096, x.inst % 4096, x.level, x.chain, x.en) ∧
       wordsAt t (pgPMC + PMC_VALUE.off) 2 = twoWords x.count ∧
       (pmc t k).snap = false ∧
       Answered s t o 0 (pgPMC + PMC_CMD.off) ∧
       Only books s t)) ∧
  (∀ (s : State) (o : Origin) (k : Nat) (x : Pmc),
     addrReject s o (pgPMC + PMC_CMD.off) = none →
     k = 8 * fld s pgPMC PMC_GRP + fld s pgPMC PMC_CTR →
     x = pmc s k →
     isSet s pgPMC PMC_MODE = false ∨ 32 ≤ fld s pgPMC PMC_EVENT % 64 →
     isSet s pgPMC PMC_CHAIN = false ∨ k % 8 ≠ 0 →
     Completes (.pmcCounterWrite o) s (fun t =>
       ((pmc t k).event, (pmc t k).inst, (pmc t k).level, (pmc t k).chain, (pmc t k).en) = (fld s pgPMC PMC_EVENT, fld s pgPMC PMC_INST, isSet s pgPMC PMC_MODE, isSet s pgPMC PMC_CHAIN, isSet s pgPMC PMC_EN) ∧
       fld t pgPMC PMC_STAT = 0 ∧
       Answered s t o 0 (pgPMC + PMC_CMD.off) ∧
       Only books s t)) ∧
  (∀ (s : State) (o : Origin) (k : Nat) (x : Pmc),
     addrReject s o (pgPMC + PMC_CMD.off) = none →
     k = 8 * fld s pgPMC PMC_GRP + fld s pgPMC PMC_CTR →
     x = pmc s k →
     (isSet s pgPMC PMC_MODE = true ∧ fld s pgPMC PMC_EVENT % 64 < 32) ∨ (isSet s pgPMC PMC_CHAIN = true ∧ k % 8 = 0) →
     Completes (.pmcCounterWrite o) s (fun t =>
       ((pmc t k).event, (pmc t k).en) = (x.event, x.en) ∧
       flagSet t pgPMC PMC_F_CFG_REJ = true ∧
       fld t pgPMC PMC_STAT = 2 ∧
       Answered s t o 1 (pgPMC + PMC_CMD.off) ∧
       Only books s t)) ∧
  (∀ (s : State) (o : Origin) (g k : Nat),
     addrReject s o (pgPMC + PMC_CMD.off) = none →
     g = fld s pgPMC PMC_GRP →
     k / 8 = g →
     s.tst.running = false →
     Completes (.pmcGroupClear o) s (fun t =>
       pmc t k = { pmc s k with count := 0 } ∧
       Answered s t o 0 (pgPMC + PMC_CMD.off) ∧
       Only books s t)) ∧
  (∀ (s : State) (o : Origin) (g k : Nat),
     addrReject s o (pgPMC + PMC_CMD.off) = none →
     g = fld s pgPMC PMC_GRP →
     k / 8 = g →
     (pmc s k).level = false →
     Completes (.pmcGroupSnapshot o) s (fun t =>
       ((pmc t k).value, (pmc t k).snap) = ((pmc s k).count, true) ∧
       Answered s t o 0 (pgPMC + PMC_CMD.off) ∧
       Only (.freeCtr :: books) s t)) ∧
  (∀ (s : State) (o : Origin) (data : Word) (r : TraceRec),
     addrReject s o (pgPMC + PMC_TR_IDX.off) = none →
     s.tst.trace[bitsOf data 0 13]? = some r →
     Completes (.traceRecordRead o data) s (fun t =>
       wordsAt t (pgPMC + PMC_TR_DATA.off) 8 = r.words s ∧
       Answered s t o 0 (pgPMC + PMC_TR_IDX.off) ∧
       Only books s t)) ∧
  (∀ (s : State) (o : Origin) (data : Word),
     addrReject s o (pgPMC + PMC_TR_IDX.off) = none →
     s.tst.trace[bitsOf data 0 13]? = none →
     Completes (.traceRecordRead o data) s (fun t =>
       wordsAt t (pgPMC + PMC_TR_DATA.off) 8 = freeWords s ∧
       t.freeCtr = s.freeCtr + 8 ∧
       Answered s t o 0 (pgPMC + PMC_TR_IDX.off) ∧
       Only (.freeCtr :: books) s t)) ∧
  (∀ (s : State) (l : List TraceRec) (z : Nat),
     released s = true →
     active s pgPMC PMC_TR_STREAM_EN = true →
     z = 2 ^ fld s pgPMC PMC_TR_SIZE_LOG2 →
     l = ((s.tst.trace.take s.tst.unsent).reverse).take ((fld s pgPMC PMC_TR_HEAD + z - s.tst.tail % z - 1) % z) →
     l ≠ [] →
     Completes (.traceStream) s (fun t =>
       t.bus.hostOut = s.bus.hostOut ++ l.map (fun r => (0, .trace r.page r.point r.mark r.arg r.stamp.stamp)) ++ [(0, .tail ((s.tst.tail + l.length) % z))] ∧
       (t.tst.tail, t.tst.unsent) = ((s.tst.tail + l.length) % z, s.tst.unsent - l.length) ∧
       t.tst.trace = s.tst.trace ∧
       Only [.hostOut, .trace] s t)) ∧
  (∀ (s : State) (i p c : Nat) (a : Action) (u : State),
     s.grid.posted[i]? = some a →
     u = { s with grid := { s.grid with posted := s.grid.posted.eraseIdx i } } →
     a.pos.fineIndex ≤ (now s).fineIndex →
     a.kind = .other p ∨ a.kind = .mapOut p c ∨ a.kind = .tod p →
     Completes (.timedActionFire i) s (fun t =>
       t = u)) ∧
  (∀ (s : State) (i p c : Nat) (a : Action) (u : State),
     s.grid.posted[i]? = some a →
     u = { s with grid := { s.grid with posted := s.grid.posted.eraseIdx i } } →
     a.pos.fineIndex ≤ (now s).fineIndex →
     a.kind = .brst p c →
     Completes (.timedActionFire i) s (fun t =>
       t = brstPulse u p c)) ∧
  (∀ (s : State) (i p c : Nat) (a : Action) (u : State),
     s.grid.posted[i]? = some a →
     u = { s with grid := { s.grid with posted := s.grid.posted.eraseIdx i } } →
     a.pos.fineIndex ≤ (now s).fineIndex →
     a.kind = .preload p c →
     Completes (.timedActionFire i) s (fun t =>
       t = phasePreload u p c)) ∧
  (∀ (s : State) (i p c : Nat) (a : Action) (u : State),
     s.grid.posted[i]? = some a →
     u = { s with grid := { s.grid with posted := s.grid.posted.eraseIdx i } } →
     a.pos.fineIndex ≤ (now s).fineIndex →
     a.kind = .rssi p c →
     Completes (.timedActionFire i) s (fun t =>
       t = rssiPulse u p c)) ∧
  (∀ (s : State) (i : Nat) (a : Action),
     s.grid.posted[i]? = some a →
     (now s).fineIndex < a.pos.fineIndex →
     Completes (.timedActionFire i) s (fun t =>
       t = s)) ∧
  (∀ (s : State) (i : Nat),
     s.grid.posted[i]? = none →
     Completes (.timedActionFire i) s (fun t =>
       t = s)) ∧
  (∀ (s : State) (pulls : List Pull),
     s.grid.running = true →
     released s = false ∨ s.pon.ch.all (fun e => e.2.upq == []) = true →
     Completes (.frameBoundary pulls) s (fun t =>
       now t = ⟨(frame s + 1) % frameMod, 0, 0⟩ ∧
       (t.tst.go, t.tst.running) = (none, s.tst.go.getD s.tst.running) ∧
       (t.jrn, t.own, t.boot) = (s.jrn, s.own, s.boot) ∧
       t.eng = s.eng ∧
       t.cls = { s.cls with ageFrames := s.cls.ageFrames + 1 })) ∧
  (∀ (s : State) (pulls : List Pull) (p : Fin 32) (c : Fin 3),
     s.grid.running = true →
     released s = true →
     s.pon.ch.all (fun e => e.2.upq == []) = true →
     fld s (pgPON p) PON_CH_EN ≠ 0 →
     Completes (.frameBoundary pulls) s (fun t =>
       (chSt t p c).superframe = if c.val = 0 then (frame s + 1) % frameMod % 2 ^ 30 else (frame s + 1) % frameMod)) ∧
  (∀ (s : State) (k : Nat),
     s.grid.running = true →
     frame s % Machine.framesPerSecond = 0 →
     k = frame s / Machine.framesPerSecond →
     s.grid.second ≠ k →
     Completes (.gridSecond) s (fun t =>
       t.grid = { s.grid with second := k } ∧
       (t.jrn, t.own, t.boot) = (s.jrn, s.own, s.boot))) ∧
  (∀ (s : State) (k n : Nat) (m : PmRec),
     s.grid.running = true →
     frame s % Machine.framesPerSecond = 0 →
     k = frame s / Machine.framesPerSecond →
     s.grid.second ≠ k →
     s.pon.pm = [] →
     s.pon.chPm = [(n, m)] →
     n < 96 →
     isSet s (pgPON (n / 3)) PON_PM_EN = true →
     Completes (.gridSecond) s (fun t =>
       chPm t n = (m.second (fld s (pgPON (n / 3)) PON_SES_PCT)).1.fresh (isSet s (pgCH (n / 3) (n % 3)) CH_LOS_CH_ACTIVE) ∧
       t.pon.onu = s.pon.onu)) ∧
  (∀ (s : State) (i : Instr) (pulls : List Pull),
     i = .frameBoundary pulls ∨ i = .gridSecond →
     s.grid.running = false →
     Completes (i) s (fun t =>
       t = s))

/-- For every command c and state s, a step with c at the front of the queue is exec of c on the state with the queue's rest. On an empty queue the block idles: while the grid runs and the frame is not at its last fine step, the position advances by one fine step, otherwise nothing changes (log entry 2). The machine after reset has power, holds no command, is not released, has no journal record and its grid does not run; its registers read their reset values, so CHIP_STATE reads 0 and PAGE_CTL.ENABLE of PON 3 reads 1. The table gives no row bits, so no word spells a command and placing one leaves the state as it is. -/
def Obligations.StepRunsTheFrontCommandAndReset : Prop :=
  (∀ (c : Instr) (rest : List Instr) (s : State),
    step { s with pending := c :: rest } = exec c { s with pending := rest }) ∧
  (∀ s : State, s.pending = [] →
    step s = .next (if s.grid.running ∧ s.grid.now.tick * finePerGt + s.grid.now.fine + 1 < s.grid.frameLen then
      { s with grid := { s.grid with now := ⟨s.grid.now.frame, (s.grid.now.tick * finePerGt + s.grid.now.fine + 1) / finePerGt,
        (s.grid.now.tick * finePerGt + s.grid.now.fine + 1) % finePerGt⟩ } }
      else s)) ∧
  (State.reset.pending = [] ∧ State.reset.boot.powered = true ∧ released State.reset = false ∧ State.reset.jrn.ring = [] ∧
    State.reset.grid.running = false ∧ fld State.reset pgDEV DEV_CHIP_STATE = 0 ∧ isSet State.reset (pgPON 3) ANY_ENABLE = true) ∧
  (∀ nbits w, decodeTableWord nbits w = none ∧ ∀ s : State, s.withFetchWord nbits w = s)

/-- For every state the step answers a next state: no command stops the block, whatever the state and its operands. Its queue is the queue without its front command: no command, image, fault, reset or loss of power adds a command, takes another one, or changes their order. The queue itself is the model's (log entry 2). -/
def Obligations.EveryStepTakesOneCommand : Prop :=
  ∀ s : State, ∃ t, step s = .next t ∧ t.pending = s.pending.tail

/-- For every state, every step leaves each bit of the revoked key slots that was set still set: resets, images, faults and loss of power keep it. A step whose command is neither POWER_GOOD nor POWER_GOOD_FALL leaves the straps as they were sampled. -/
def Obligations.RevokedKeysStayRevoked : Prop :=
  (∀ s t : State, step s = .next t → s.boot.revoked ||| t.boot.revoked = t.boot.revoked) ∧
  (∀ (c : Instr) (rest : List Instr) (s t : State), s.pending = c :: rest → step s = .next t →
    (∀ x, c ≠ .powerGood x) → c ≠ .powerGoodFall → t.boot.straps = s.boot.straps)
end

