-- ==== Sys2Proof/Laws/Bits.lean ====
section
/-! SUPPORT. The laws of bit fields: what a field reads after a field of the same word was written. -/

namespace Sys2Proof

theorem testBit_bitsOf (w : Word) (l n i : Nat) :
    (bitsOf w l n).testBit i = (decide (i < n) && w.toNat.testBit (l + i)) := by
  simp [bitsOf, Nat.testBit_mod_two_pow, Nat.testBit_shiftRight]

theorem testBit_withBits (w : Word) (l n v i : Nat) (h : l + n ≤ 32) :
    (withBits w l n v).toNat.testBit i =
      if l ≤ i ∧ i < l + n then v.testBit (i - l) else w.toNat.testBit i := by
  have hm : ((2 ^ n - 1) <<< l) % 2 ^ 32 = (2 ^ n - 1) <<< l := by
    apply Nat.mod_eq_of_lt
    rw [Nat.shiftLeft_eq]
    calc (2 ^ n - 1) * 2 ^ l < 2 ^ n * 2 ^ l := by
          apply Nat.mul_lt_mul_of_pos_right _ (by positivity)
          have : 0 < 2 ^ n := by positivity
          omega
      _ = 2 ^ (n + l) := by rw [pow_add]
      _ ≤ 2 ^ 32 := Nat.pow_le_pow_right (by norm_num) (by omega)
  simp only [withBits, BitVec.toNat_or, BitVec.toNat_and, BitVec.toNat_not, BitVec.toNat_ofNat, Nat.testBit_or, Nat.testBit_and, hm]
  by_cases hi : i < 32
  · rw [show 2 ^ 32 - 1 - (2 ^ n - 1) <<< l = 2 ^ 32 - ((2 ^ n - 1) <<< l + 1) by omega,
      Nat.testBit_two_pow_sub_succ (by omega)]
    simp only [Nat.testBit_mod_two_pow, Nat.testBit_shiftLeft, Nat.testBit_two_pow_sub_one, hi]
    split
    · rename_i hc
      have h1 : i - l < n := by omega
      simp [hc.1, h1]
    · rename_i hc
      by_cases hl : l ≤ i
      · have : ¬ (i - l < n) := by omega
        simp [hl, this]
      · simp [hl]
  · have hw : w.toNat.testBit i = false := Nat.testBit_lt_two_pow (lt_of_lt_of_le w.isLt (Nat.pow_le_pow_right (by norm_num) (by omega)))
    rw [if_neg (by omega), hw]
    simp only [Nat.testBit_mod_two_pow, hi]
    simp

/-- A field reads what was written into it. -/
theorem bitsOf_withBits_same (w : Word) (l n v : Nat) (h : l + n ≤ 32) : bitsOf (withBits w l n v) l n = v % 2 ^ n := by
  apply Nat.eq_of_testBit_eq
  intro i
  rw [testBit_bitsOf, testBit_withBits _ _ _ _ _ h, Nat.testBit_mod_two_pow]
  by_cases hi : i < n <;> simp [hi]

/-- A write of a field leaves a field beside it alone. -/
theorem bitsOf_withBits_other (w : Word) (l n v m k : Nat) (h : l + n ≤ 32) (hd : m + k ≤ l ∨ l + n ≤ m) :
    bitsOf (withBits w l n v) m k = bitsOf w m k := by
  apply Nat.eq_of_testBit_eq
  intro i
  rw [testBit_bitsOf, testBit_bitsOf, testBit_withBits _ _ _ _ _ h]
  by_cases hi : i < k
  · rw [if_neg (by omega)]
  · simp [hi]

theorem bitsOf_lt (w : Word) (l n : Nat) : bitsOf w l n < 2 ^ n := Nat.mod_lt _ (by positivity)

end Sys2Proof
end

