-- ==== Sys2Proof/Laws/State.lean ====
section
/-! SUPPORT. What each store of one record leaves alone: every other field of the state. -/

namespace Sys2Proof.Machine

@[simp] theorem setAd_frame (s : State) (p i : Nat) (r : AdRec) :
    (setAd s p i r).pending = s.pending ∧ (setAd s p i r).freeCtr = s.freeCtr ∧ (setAd s p i r).bus = s.bus ∧
    (setAd s p i r).jrn = s.jrn ∧ (setAd s p i r).evt = s.evt ∧ (setAd s p i r).own = s.own ∧
    (setAd s p i r).grid = s.grid ∧ (setAd s p i r).keys = s.keys ∧ (setAd s p i r).prot = s.prot ∧
    (setAd s p i r).tm = s.tm ∧ (setAd s p i r).eng = s.eng ∧ (setAd s p i r).cls = s.cls ∧ (setAd s p i r).link = s.link ∧
    (setAd s p i r).boot = s.boot ∧ (setAd s p i r).tst = s.tst :=
  ⟨rfl, rfl, rfl, rfl, rfl, rfl, rfl, rfl, rfl, rfl, rfl, rfl, rfl, rfl, rfl⟩

@[simp] theorem setOb_frame (s : State) (p i : Nat) (r : ObRec) :
    (setOb s p i r).pending = s.pending ∧ (setOb s p i r).freeCtr = s.freeCtr ∧ (setOb s p i r).bus = s.bus ∧
    (setOb s p i r).jrn = s.jrn ∧ (setOb s p i r).evt = s.evt ∧ (setOb s p i r).own = s.own ∧
    (setOb s p i r).grid = s.grid ∧ (setOb s p i r).keys = s.keys ∧ (setOb s p i r).prot = s.prot ∧
    (setOb s p i r).tm = s.tm ∧ (setOb s p i r).eng = s.eng ∧ (setOb s p i r).cls = s.cls ∧ (setOb s p i r).link = s.link ∧
    (setOb s p i r).boot = s.boot ∧ (setOb s p i r).tst = s.tst :=
  ⟨rfl, rfl, rfl, rfl, rfl, rfl, rfl, rfl, rfl, rfl, rfl, rfl, rfl, rfl, rfl⟩

@[simp] theorem handUp_frame (s : State) (src len : Nat) (bytes : List Byte) :
    (handUp s src len bytes).pending = s.pending ∧ (handUp s src len bytes).freeCtr = s.freeCtr ∧
    (handUp s src len bytes).bus = s.bus ∧ (handUp s src len bytes).jrn = s.jrn ∧ (handUp s src len bytes).evt = s.evt ∧
    (handUp s src len bytes).own = s.own ∧ (handUp s src len bytes).grid = s.grid ∧ (handUp s src len bytes).keys = s.keys ∧
    (handUp s src len bytes).prot = s.prot ∧ (handUp s src len bytes).tm = s.tm ∧ (handUp s src len bytes).eng = s.eng ∧
    (handUp s src len bytes).cls = s.cls ∧ (handUp s src len bytes).link = s.link ∧ (handUp s src len bytes).boot = s.boot ∧
    (handUp s src len bytes).tst = s.tst :=
  ⟨rfl, rfl, rfl, rfl, rfl, rfl, rfl, rfl, rfl, rfl, rfl, rfl, rfl, rfl, rfl⟩

@[simp] theorem setBuf_frame (s : State) (h : Nat) (b : Buf) :
    (setBuf s h b).pending = s.pending ∧ (setBuf s h b).freeCtr = s.freeCtr ∧ (setBuf s h b).bus = s.bus ∧
    (setBuf s h b).jrn = s.jrn ∧ (setBuf s h b).evt = s.evt ∧ (setBuf s h b).own = s.own ∧ (setBuf s h b).grid = s.grid ∧
    (setBuf s h b).pon = s.pon ∧ (setBuf s h b).keys = s.keys ∧ (setBuf s h b).prot = s.prot ∧ (setBuf s h b).eng = s.eng ∧
    (setBuf s h b).cls = s.cls ∧ (setBuf s h b).link = s.link ∧ (setBuf s h b).boot = s.boot ∧ (setBuf s h b).tst = s.tst :=
  ⟨rfl, rfl, rfl, rfl, rfl, rfl, rfl, rfl, rfl, rfl, rfl, rfl, rfl, rfl, rfl⟩

@[simp] theorem setQueue_frame (s : State) (k : Nat) (q : Queue) :
    (setQueue s k q).pending = s.pending ∧ (setQueue s k q).freeCtr = s.freeCtr ∧ (setQueue s k q).bus = s.bus ∧
    (setQueue s k q).jrn = s.jrn ∧ (setQueue s k q).evt = s.evt ∧ (setQueue s k q).own = s.own ∧
    (setQueue s k q).grid = s.grid ∧ (setQueue s k q).pon = s.pon ∧ (setQueue s k q).keys = s.keys ∧
    (setQueue s k q).prot = s.prot ∧ (setQueue s k q).eng = s.eng ∧ (setQueue s k q).cls = s.cls ∧
    (setQueue s k q).link = s.link ∧ (setQueue s k q).boot = s.boot ∧ (setQueue s k q).tst = s.tst :=
  ⟨rfl, rfl, rfl, rfl, rfl, rfl, rfl, rfl, rfl, rfl, rfl, rfl, rfl, rfl, rfl⟩

@[simp] theorem setWaitQ_frame (s : State) (pool : Nat) (l : List WaitReq) :
    (setWaitQ s pool l).pending = s.pending ∧ (setWaitQ s pool l).freeCtr = s.freeCtr ∧ (setWaitQ s pool l).bus = s.bus ∧
    (setWaitQ s pool l).jrn = s.jrn ∧ (setWaitQ s pool l).evt = s.evt ∧ (setWaitQ s pool l).own = s.own ∧
    (setWaitQ s pool l).grid = s.grid ∧ (setWaitQ s pool l).pon = s.pon ∧ (setWaitQ s pool l).keys = s.keys ∧
    (setWaitQ s pool l).prot = s.prot ∧ (setWaitQ s pool l).eng = s.eng ∧ (setWaitQ s pool l).cls = s.cls ∧
    (setWaitQ s pool l).link = s.link ∧ (setWaitQ s pool l).boot = s.boot ∧ (setWaitQ s pool l).tst = s.tst :=
  ⟨rfl, rfl, rfl, rfl, rfl, rfl, rfl, rfl, rfl, rfl, rfl, rfl, rfl, rfl, rfl⟩

@[simp] theorem hostRec_frame (s : State) (f : Nat) (x : HostRec) :
    (hostRec s f x).pending = s.pending ∧ (hostRec s f x).freeCtr = s.freeCtr ∧ (hostRec s f x).jrn = s.jrn ∧
    (hostRec s f x).evt = s.evt ∧ (hostRec s f x).own = s.own ∧ (hostRec s f x).grid = s.grid ∧
    (hostRec s f x).pon = s.pon ∧ (hostRec s f x).keys = s.keys ∧ (hostRec s f x).prot = s.prot ∧
    (hostRec s f x).tm = s.tm ∧ (hostRec s f x).eng = s.eng ∧ (hostRec s f x).cls = s.cls ∧ (hostRec s f x).link = s.link ∧
    (hostRec s f x).boot = s.boot ∧ (hostRec s f x).tst = s.tst :=
  ⟨rfl, rfl, rfl, rfl, rfl, rfl, rfl, rfl, rfl, rfl, rfl, rfl, rfl, rfl, rfl⟩

@[simp] theorem setEvRing_frame (s : State) (f r : Nat) (x : EvRing) :
    (setEvRing s f r x).pending = s.pending ∧ (setEvRing s f r x).freeCtr = s.freeCtr ∧ (setEvRing s f r x).bus = s.bus ∧
    (setEvRing s f r x).jrn = s.jrn ∧ (setEvRing s f r x).own = s.own ∧ (setEvRing s f r x).grid = s.grid ∧
    (setEvRing s f r x).pon = s.pon ∧ (setEvRing s f r x).keys = s.keys ∧ (setEvRing s f r x).prot = s.prot ∧
    (setEvRing s f r x).tm = s.tm ∧ (setEvRing s f r x).eng = s.eng ∧ (setEvRing s f r x).cls = s.cls ∧
    (setEvRing s f r x).link = s.link ∧ (setEvRing s f r x).boot = s.boot ∧ (setEvRing s f r x).tst = s.tst :=
  ⟨rfl, rfl, rfl, rfl, rfl, rfl, rfl, rfl, rfl, rfl, rfl, rfl, rfl, rfl, rfl⟩

@[simp] theorem setRdrSrc_frame (s : State) (src : Nat) (r : RdrSrc) :
    (setRdrSrc s src r).pending = s.pending ∧ (setRdrSrc s src r).freeCtr = s.freeCtr ∧ (setRdrSrc s src r).bus = s.bus ∧
    (setRdrSrc s src r).jrn = s.jrn ∧ (setRdrSrc s src r).evt = s.evt ∧ (setRdrSrc s src r).own = s.own ∧
    (setRdrSrc s src r).grid = s.grid ∧ (setRdrSrc s src r).pon = s.pon ∧ (setRdrSrc s src r).keys = s.keys ∧
    (setRdrSrc s src r).prot = s.prot ∧ (setRdrSrc s src r).tm = s.tm ∧ (setRdrSrc s src r).cls = s.cls ∧
    (setRdrSrc s src r).link = s.link ∧ (setRdrSrc s src r).boot = s.boot ∧ (setRdrSrc s src r).tst = s.tst :=
  ⟨rfl, rfl, rfl, rfl, rfl, rfl, rfl, rfl, rfl, rfl, rfl, rfl, rfl, rfl, rfl⟩

@[simp] theorem setOvfCnt_frame (s : State) (b n : Nat) :
    (setOvfCnt s b n).pending = s.pending ∧ (setOvfCnt s b n).freeCtr = s.freeCtr ∧ (setOvfCnt s b n).bus = s.bus ∧
    (setOvfCnt s b n).jrn = s.jrn ∧ (setOvfCnt s b n).evt = s.evt ∧ (setOvfCnt s b n).own = s.own ∧
    (setOvfCnt s b n).grid = s.grid ∧ (setOvfCnt s b n).pon = s.pon ∧ (setOvfCnt s b n).keys = s.keys ∧
    (setOvfCnt s b n).prot = s.prot ∧ (setOvfCnt s b n).tm = s.tm ∧ (setOvfCnt s b n).eng = s.eng ∧
    (setOvfCnt s b n).link = s.link ∧ (setOvfCnt s b n).boot = s.boot ∧ (setOvfCnt s b n).tst = s.tst :=
  ⟨rfl, rfl, rfl, rfl, rfl, rfl, rfl, rfl, rfl, rfl, rfl, rfl, rfl, rfl, rfl⟩

@[simp] theorem setRing_frame (s : State) (r : Nat) (x : Ring) :
    (setRing s r x).pending = s.pending ∧ (setRing s r x).freeCtr = s.freeCtr ∧ (setRing s r x).bus = s.bus ∧
    (setRing s r x).jrn = s.jrn ∧ (setRing s r x).evt = s.evt ∧ (setRing s r x).own = s.own ∧
    (setRing s r x).grid = s.grid ∧ (setRing s r x).pon = s.pon ∧ (setRing s r x).keys = s.keys ∧
    (setRing s r x).prot = s.prot ∧ (setRing s r x).tm = s.tm ∧ (setRing s r x).eng = s.eng ∧ (setRing s r x).cls = s.cls ∧
    (setRing s r x).boot = s.boot ∧ (setRing s r x).tst = s.tst :=
  ⟨rfl, rfl, rfl, rfl, rfl, rfl, rfl, rfl, rfl, rfl, rfl, rfl, rfl, rfl, rfl⟩

@[simp] theorem hostWrite_frame (s : State) (r : Nat) (x : HostRec) :
    (hostWrite s r x).pending = s.pending ∧ (hostWrite s r x).freeCtr = s.freeCtr ∧ (hostWrite s r x).jrn = s.jrn ∧
    (hostWrite s r x).evt = s.evt ∧ (hostWrite s r x).own = s.own ∧ (hostWrite s r x).grid = s.grid ∧
    (hostWrite s r x).pon = s.pon ∧ (hostWrite s r x).keys = s.keys ∧ (hostWrite s r x).prot = s.prot ∧
    (hostWrite s r x).tm = s.tm ∧ (hostWrite s r x).eng = s.eng ∧ (hostWrite s r x).cls = s.cls ∧
    (hostWrite s r x).link = s.link ∧ (hostWrite s r x).boot = s.boot ∧ (hostWrite s r x).tst = s.tst :=
  ⟨rfl, rfl, rfl, rfl, rfl, rfl, rfl, rfl, rfl, rfl, rfl, rfl, rfl, rfl, rfl⟩

@[simp] theorem setSa_frame (s : State) (q i : Nat) (r : MacSa) :
    (setSa s q i r).pending = s.pending ∧ (setSa s q i r).freeCtr = s.freeCtr ∧ (setSa s q i r).bus = s.bus ∧
    (setSa s q i r).jrn = s.jrn ∧ (setSa s q i r).evt = s.evt ∧ (setSa s q i r).own = s.own ∧
    (setSa s q i r).grid = s.grid ∧ (setSa s q i r).pon = s.pon ∧ (setSa s q i r).keys = s.keys ∧
    (setSa s q i r).prot = s.prot ∧ (setSa s q i r).tm = s.tm ∧ (setSa s q i r).eng = s.eng ∧ (setSa s q i r).cls = s.cls ∧
    (setSa s q i r).boot = s.boot ∧ (setSa s q i r).tst = s.tst :=
  ⟨rfl, rfl, rfl, rfl, rfl, rfl, rfl, rfl, rfl, rfl, rfl, rfl, rfl, rfl, rfl⟩

@[simp] theorem setEth_frame (s : State) (q : Nat) (r : EthSt) :
    (setEth s q r).pending = s.pending ∧ (setEth s q r).freeCtr = s.freeCtr ∧ (setEth s q r).bus = s.bus ∧
    (setEth s q r).jrn = s.jrn ∧ (setEth s q r).evt = s.evt ∧ (setEth s q r).own = s.own ∧ (setEth s q r).grid = s.grid ∧
    (setEth s q r).pon = s.pon ∧ (setEth s q r).keys = s.keys ∧ (setEth s q r).prot = s.prot ∧ (setEth s q r).tm = s.tm ∧
    (setEth s q r).eng = s.eng ∧ (setEth s q r).cls = s.cls ∧ (setEth s q r).boot = s.boot ∧ (setEth s q r).tst = s.tst :=
  ⟨rfl, rfl, rfl, rfl, rfl, rfl, rfl, rfl, rfl, rfl, rfl, rfl, rfl, rfl, rfl⟩

@[simp] theorem setRule_frame (s : State) (i : Nat) (r : LRule) :
    (setRule s i r).pending = s.pending ∧ (setRule s i r).freeCtr = s.freeCtr ∧ (setRule s i r).bus = s.bus ∧
    (setRule s i r).jrn = s.jrn ∧ (setRule s i r).evt = s.evt ∧ (setRule s i r).own = s.own ∧
    (setRule s i r).grid = s.grid ∧ (setRule s i r).pon = s.pon ∧ (setRule s i r).keys = s.keys ∧
    (setRule s i r).prot = s.prot ∧ (setRule s i r).tm = s.tm ∧ (setRule s i r).eng = s.eng ∧
    (setRule s i r).link = s.link ∧ (setRule s i r).boot = s.boot ∧ (setRule s i r).tst = s.tst :=
  ⟨rfl, rfl, rfl, rfl, rfl, rfl, rfl, rfl, rfl, rfl, rfl, rfl, rfl, rfl, rfl⟩

@[simp] theorem setHex_frame (s : State) (m : Nat) (r : HexSt) :
    (setHex s m r).pending = s.pending ∧ (setHex s m r).freeCtr = s.freeCtr ∧ (setHex s m r).bus = s.bus ∧
    (setHex s m r).jrn = s.jrn ∧ (setHex s m r).evt = s.evt ∧ (setHex s m r).own = s.own ∧ (setHex s m r).grid = s.grid ∧
    (setHex s m r).pon = s.pon ∧ (setHex s m r).keys = s.keys ∧ (setHex s m r).prot = s.prot ∧ (setHex s m r).tm = s.tm ∧
    (setHex s m r).eng = s.eng ∧ (setHex s m r).cls = s.cls ∧ (setHex s m r).boot = s.boot ∧ (setHex s m r).tst = s.tst :=
  ⟨rfl, rfl, rfl, rfl, rfl, rfl, rfl, rfl, rfl, rfl, rfl, rfl, rfl, rfl, rfl⟩

@[simp] theorem ucntAdd_frame (s : State) (i n : Nat) :
    (ucntAdd s i n).pending = s.pending ∧ (ucntAdd s i n).freeCtr = s.freeCtr ∧ (ucntAdd s i n).bus = s.bus ∧
    (ucntAdd s i n).jrn = s.jrn ∧ (ucntAdd s i n).evt = s.evt ∧ (ucntAdd s i n).own = s.own ∧
    (ucntAdd s i n).grid = s.grid ∧ (ucntAdd s i n).pon = s.pon ∧ (ucntAdd s i n).keys = s.keys ∧
    (ucntAdd s i n).prot = s.prot ∧ (ucntAdd s i n).tm = s.tm ∧ (ucntAdd s i n).cls = s.cls ∧
    (ucntAdd s i n).link = s.link ∧ (ucntAdd s i n).boot = s.boot ∧ (ucntAdd s i n).tst = s.tst :=
  ⟨rfl, rfl, rfl, rfl, rfl, rfl, rfl, rfl, rfl, rfl, rfl, rfl, rfl, rfl, rfl⟩

@[simp] theorem setTpl_frame (s : State) (p t : Nat) (r : Tpl) :
    (setTpl s p t r).pending = s.pending ∧ (setTpl s p t r).freeCtr = s.freeCtr ∧ (setTpl s p t r).bus = s.bus ∧
    (setTpl s p t r).jrn = s.jrn ∧ (setTpl s p t r).evt = s.evt ∧ (setTpl s p t r).own = s.own ∧
    (setTpl s p t r).grid = s.grid ∧ (setTpl s p t r).keys = s.keys ∧ (setTpl s p t r).prot = s.prot ∧
    (setTpl s p t r).tm = s.tm ∧ (setTpl s p t r).eng = s.eng ∧ (setTpl s p t r).cls = s.cls ∧
    (setTpl s p t r).link = s.link ∧ (setTpl s p t r).boot = s.boot ∧ (setTpl s p t r).tst = s.tst :=
  ⟨rfl, rfl, rfl, rfl, rfl, rfl, rfl, rfl, rfl, rfl, rfl, rfl, rfl, rfl, rfl⟩

@[simp] theorem disarm_frame (s : State) (o : Origin) :
    (disarm s o).pending = s.pending ∧ (disarm s o).freeCtr = s.freeCtr ∧ (disarm s o).jrn = s.jrn ∧
    (disarm s o).evt = s.evt ∧ (disarm s o).own = s.own ∧ (disarm s o).grid = s.grid ∧ (disarm s o).pon = s.pon ∧
    (disarm s o).keys = s.keys ∧ (disarm s o).prot = s.prot ∧ (disarm s o).tm = s.tm ∧ (disarm s o).eng = s.eng ∧
    (disarm s o).cls = s.cls ∧ (disarm s o).link = s.link ∧ (disarm s o).boot = s.boot ∧ (disarm s o).tst = s.tst :=
  ⟨rfl, rfl, rfl, rfl, rfl, rfl, rfl, rfl, rfl, rfl, rfl, rfl, rfl, rfl, rfl⟩

@[simp] theorem setDone_frame (s : State) (c : Completion) (w : Word) :
    (setDone s c w).pending = s.pending ∧ (setDone s c w).freeCtr = s.freeCtr ∧ (setDone s c w).jrn = s.jrn ∧
    (setDone s c w).evt = s.evt ∧ (setDone s c w).own = s.own ∧ (setDone s c w).grid = s.grid ∧
    (setDone s c w).pon = s.pon ∧ (setDone s c w).keys = s.keys ∧ (setDone s c w).prot = s.prot ∧
    (setDone s c w).tm = s.tm ∧ (setDone s c w).eng = s.eng ∧ (setDone s c w).cls = s.cls ∧ (setDone s c w).link = s.link ∧
    (setDone s c w).boot = s.boot ∧ (setDone s c w).tst = s.tst :=
  ⟨rfl, rfl, rfl, rfl, rfl, rfl, rfl, rfl, rfl, rfl, rfl, rfl, rfl, rfl, rfl⟩

@[simp] theorem setReg_frame (s : State) (a : Nat) (w : Word) :
    (setReg s a w).pending = s.pending ∧ (setReg s a w).freeCtr = s.freeCtr ∧ (setReg s a w).jrn = s.jrn ∧
    (setReg s a w).evt = s.evt ∧ (setReg s a w).own = s.own ∧ (setReg s a w).grid = s.grid ∧ (setReg s a w).pon = s.pon ∧
    (setReg s a w).keys = s.keys ∧ (setReg s a w).prot = s.prot ∧ (setReg s a w).tm = s.tm ∧ (setReg s a w).eng = s.eng ∧
    (setReg s a w).cls = s.cls ∧ (setReg s a w).link = s.link ∧ (setReg s a w).boot = s.boot ∧ (setReg s a w).tst = s.tst :=
  ⟨rfl, rfl, rfl, rfl, rfl, rfl, rfl, rfl, rfl, rfl, rfl, rfl, rfl, rfl, rfl⟩

@[simp] theorem setCnt_frame (s : State) (a n : Nat) :
    (setCnt s a n).pending = s.pending ∧ (setCnt s a n).freeCtr = s.freeCtr ∧ (setCnt s a n).jrn = s.jrn ∧
    (setCnt s a n).evt = s.evt ∧ (setCnt s a n).own = s.own ∧ (setCnt s a n).grid = s.grid ∧ (setCnt s a n).pon = s.pon ∧
    (setCnt s a n).keys = s.keys ∧ (setCnt s a n).prot = s.prot ∧ (setCnt s a n).tm = s.tm ∧ (setCnt s a n).eng = s.eng ∧
    (setCnt s a n).cls = s.cls ∧ (setCnt s a n).link = s.link ∧ (setCnt s a n).boot = s.boot ∧ (setCnt s a n).tst = s.tst :=
  ⟨rfl, rfl, rfl, rfl, rfl, rfl, rfl, rfl, rfl, rfl, rfl, rfl, rfl, rfl, rfl⟩

@[simp] theorem drawFree_frame (s : State) :
    (drawFree s).pending = s.pending ∧ (drawFree s).bus = s.bus ∧ (drawFree s).jrn = s.jrn ∧ (drawFree s).evt = s.evt ∧
    (drawFree s).own = s.own ∧ (drawFree s).grid = s.grid ∧ (drawFree s).pon = s.pon ∧ (drawFree s).keys = s.keys ∧
    (drawFree s).prot = s.prot ∧ (drawFree s).tm = s.tm ∧ (drawFree s).eng = s.eng ∧ (drawFree s).cls = s.cls ∧
    (drawFree s).link = s.link ∧ (drawFree s).boot = s.boot ∧ (drawFree s).tst = s.tst :=
  ⟨rfl, rfl, rfl, rfl, rfl, rfl, rfl, rfl, rfl, rfl, rfl, rfl, rfl, rfl, rfl⟩

@[simp] theorem drawFrees_frame (s : State) (n : Nat) :
    (drawFrees s n).pending = s.pending ∧ (drawFrees s n).bus = s.bus ∧ (drawFrees s n).jrn = s.jrn ∧
    (drawFrees s n).evt = s.evt ∧ (drawFrees s n).own = s.own ∧ (drawFrees s n).grid = s.grid ∧
    (drawFrees s n).pon = s.pon ∧ (drawFrees s n).keys = s.keys ∧ (drawFrees s n).prot = s.prot ∧
    (drawFrees s n).tm = s.tm ∧ (drawFrees s n).eng = s.eng ∧ (drawFrees s n).cls = s.cls ∧ (drawFrees s n).link = s.link ∧
    (drawFrees s n).boot = s.boot ∧ (drawFrees s n).tst = s.tst :=
  ⟨rfl, rfl, rfl, rfl, rfl, rfl, rfl, rfl, rfl, rfl, rfl, rfl, rfl, rfl, rfl⟩

@[simp] theorem setI2c_frame (s : State) (j : Nat) (r : I2c) :
    (setI2c s j r).pending = s.pending ∧ (setI2c s j r).freeCtr = s.freeCtr ∧ (setI2c s j r).bus = s.bus ∧
    (setI2c s j r).jrn = s.jrn ∧ (setI2c s j r).evt = s.evt ∧ (setI2c s j r).own = s.own ∧ (setI2c s j r).grid = s.grid ∧
    (setI2c s j r).pon = s.pon ∧ (setI2c s j r).keys = s.keys ∧ (setI2c s j r).prot = s.prot ∧ (setI2c s j r).tm = s.tm ∧
    (setI2c s j r).eng = s.eng ∧ (setI2c s j r).cls = s.cls ∧ (setI2c s j r).boot = s.boot ∧ (setI2c s j r).tst = s.tst :=
  ⟨rfl, rfl, rfl, rfl, rfl, rfl, rfl, rfl, rfl, rfl, rfl, rfl, rfl, rfl, rfl⟩

@[simp] theorem setTick_frame (s : State) (m : Nat) (r : TickSt) :
    (setTick s m r).pending = s.pending ∧ (setTick s m r).freeCtr = s.freeCtr ∧ (setTick s m r).bus = s.bus ∧
    (setTick s m r).jrn = s.jrn ∧ (setTick s m r).evt = s.evt ∧ (setTick s m r).own = s.own ∧
    (setTick s m r).grid = s.grid ∧ (setTick s m r).pon = s.pon ∧ (setTick s m r).keys = s.keys ∧
    (setTick s m r).tm = s.tm ∧ (setTick s m r).eng = s.eng ∧ (setTick s m r).cls = s.cls ∧ (setTick s m r).link = s.link ∧
    (setTick s m r).boot = s.boot ∧ (setTick s m r).tst = s.tst :=
  ⟨rfl, rfl, rfl, rfl, rfl, rfl, rfl, rfl, rfl, rfl, rfl, rfl, rfl, rfl, rfl⟩

@[simp] theorem setOnu_frame (s : State) (p i : Nat) (r : OnuRec) :
    (setOnu s p i r).pending = s.pending ∧ (setOnu s p i r).freeCtr = s.freeCtr ∧ (setOnu s p i r).bus = s.bus ∧
    (setOnu s p i r).jrn = s.jrn ∧ (setOnu s p i r).evt = s.evt ∧ (setOnu s p i r).own = s.own ∧
    (setOnu s p i r).grid = s.grid ∧ (setOnu s p i r).keys = s.keys ∧ (setOnu s p i r).prot = s.prot ∧
    (setOnu s p i r).tm = s.tm ∧ (setOnu s p i r).eng = s.eng ∧ (setOnu s p i r).cls = s.cls ∧
    (setOnu s p i r).link = s.link ∧ (setOnu s p i r).boot = s.boot ∧ (setOnu s p i r).tst = s.tst :=
  ⟨rfl, rfl, rfl, rfl, rfl, rfl, rfl, rfl, rfl, rfl, rfl, rfl, rfl, rfl, rfl⟩

@[simp] theorem setPmRec_frame (s : State) (p i : Nat) (r : PmRec) :
    (setPmRec s p i r).pending = s.pending ∧ (setPmRec s p i r).freeCtr = s.freeCtr ∧ (setPmRec s p i r).bus = s.bus ∧
    (setPmRec s p i r).jrn = s.jrn ∧ (setPmRec s p i r).evt = s.evt ∧ (setPmRec s p i r).own = s.own ∧
    (setPmRec s p i r).grid = s.grid ∧ (setPmRec s p i r).keys = s.keys ∧ (setPmRec s p i r).prot = s.prot ∧
    (setPmRec s p i r).tm = s.tm ∧ (setPmRec s p i r).eng = s.eng ∧ (setPmRec s p i r).cls = s.cls ∧
    (setPmRec s p i r).link = s.link ∧ (setPmRec s p i r).boot = s.boot ∧ (setPmRec s p i r).tst = s.tst :=
  ⟨rfl, rfl, rfl, rfl, rfl, rfl, rfl, rfl, rfl, rfl, rfl, rfl, rfl, rfl, rfl⟩

@[simp] theorem setChPm_frame (s : State) (n : Nat) (r : PmRec) :
    (setChPm s n r).pending = s.pending ∧ (setChPm s n r).freeCtr = s.freeCtr ∧ (setChPm s n r).bus = s.bus ∧
    (setChPm s n r).jrn = s.jrn ∧ (setChPm s n r).evt = s.evt ∧ (setChPm s n r).own = s.own ∧
    (setChPm s n r).grid = s.grid ∧ (setChPm s n r).keys = s.keys ∧ (setChPm s n r).prot = s.prot ∧
    (setChPm s n r).tm = s.tm ∧ (setChPm s n r).eng = s.eng ∧ (setChPm s n r).cls = s.cls ∧ (setChPm s n r).link = s.link ∧
    (setChPm s n r).boot = s.boot ∧ (setChPm s n r).tst = s.tst :=
  ⟨rfl, rfl, rfl, rfl, rfl, rfl, rfl, rfl, rfl, rfl, rfl, rfl, rfl, rfl, rfl⟩

@[simp] theorem setRng_frame (s : State) (p i : Nat) (r : RngRec) :
    (setRng s p i r).pending = s.pending ∧ (setRng s p i r).freeCtr = s.freeCtr ∧ (setRng s p i r).bus = s.bus ∧
    (setRng s p i r).jrn = s.jrn ∧ (setRng s p i r).evt = s.evt ∧ (setRng s p i r).own = s.own ∧
    (setRng s p i r).grid = s.grid ∧ (setRng s p i r).keys = s.keys ∧ (setRng s p i r).prot = s.prot ∧
    (setRng s p i r).tm = s.tm ∧ (setRng s p i r).eng = s.eng ∧ (setRng s p i r).cls = s.cls ∧
    (setRng s p i r).link = s.link ∧ (setRng s p i r).boot = s.boot ∧ (setRng s p i r).tst = s.tst :=
  ⟨rfl, rfl, rfl, rfl, rfl, rfl, rfl, rfl, rfl, rfl, rfl, rfl, rfl, rfl, rfl⟩

@[simp] theorem setChSt_frame (s : State) (p c : Nat) (r : ChSt) :
    (setChSt s p c r).pending = s.pending ∧ (setChSt s p c r).freeCtr = s.freeCtr ∧ (setChSt s p c r).bus = s.bus ∧
    (setChSt s p c r).jrn = s.jrn ∧ (setChSt s p c r).evt = s.evt ∧ (setChSt s p c r).own = s.own ∧
    (setChSt s p c r).grid = s.grid ∧ (setChSt s p c r).keys = s.keys ∧ (setChSt s p c r).prot = s.prot ∧
    (setChSt s p c r).tm = s.tm ∧ (setChSt s p c r).eng = s.eng ∧ (setChSt s p c r).cls = s.cls ∧
    (setChSt s p c r).link = s.link ∧ (setChSt s p c r).boot = s.boot ∧ (setChSt s p c r).tst = s.tst :=
  ⟨rfl, rfl, rfl, rfl, rfl, rfl, rfl, rfl, rfl, rfl, rfl, rfl, rfl, rfl, rfl⟩

@[simp] theorem setLane_frame (s : State) (p c : Nat) (r : LaneSt) :
    (setLane s p c r).pending = s.pending ∧ (setLane s p c r).freeCtr = s.freeCtr ∧ (setLane s p c r).bus = s.bus ∧
    (setLane s p c r).jrn = s.jrn ∧ (setLane s p c r).evt = s.evt ∧ (setLane s p c r).own = s.own ∧
    (setLane s p c r).grid = s.grid ∧ (setLane s p c r).keys = s.keys ∧ (setLane s p c r).prot = s.prot ∧
    (setLane s p c r).tm = s.tm ∧ (setLane s p c r).eng = s.eng ∧ (setLane s p c r).cls = s.cls ∧
    (setLane s p c r).link = s.link ∧ (setLane s p c r).boot = s.boot ∧ (setLane s p c r).tst = s.tst :=
  ⟨rfl, rfl, rfl, rfl, rfl, rfl, rfl, rfl, rfl, rfl, rfl, rfl, rfl, rfl, rfl⟩

@[simp] theorem setPhaseMem_frame (s : State) (p c i : Nat) (r : PhaseEntry) :
    (setPhaseMem s p c i r).pending = s.pending ∧ (setPhaseMem s p c i r).freeCtr = s.freeCtr ∧
    (setPhaseMem s p c i r).bus = s.bus ∧ (setPhaseMem s p c i r).jrn = s.jrn ∧ (setPhaseMem s p c i r).evt = s.evt ∧
    (setPhaseMem s p c i r).own = s.own ∧ (setPhaseMem s p c i r).grid = s.grid ∧ (setPhaseMem s p c i r).keys = s.keys ∧
    (setPhaseMem s p c i r).prot = s.prot ∧ (setPhaseMem s p c i r).tm = s.tm ∧ (setPhaseMem s p c i r).eng = s.eng ∧
    (setPhaseMem s p c i r).cls = s.cls ∧ (setPhaseMem s p c i r).link = s.link ∧ (setPhaseMem s p c i r).boot = s.boot ∧
    (setPhaseMem s p c i r).tst = s.tst :=
  ⟨rfl, rfl, rfl, rfl, rfl, rfl, rfl, rfl, rfl, rfl, rfl, rfl, rfl, rfl, rfl⟩

@[simp] theorem setSurvey_frame (s : State) (p c : Nat) (r : SurveySt) :
    (setSurvey s p c r).pending = s.pending ∧ (setSurvey s p c r).freeCtr = s.freeCtr ∧ (setSurvey s p c r).bus = s.bus ∧
    (setSurvey s p c r).jrn = s.jrn ∧ (setSurvey s p c r).evt = s.evt ∧ (setSurvey s p c r).own = s.own ∧
    (setSurvey s p c r).grid = s.grid ∧ (setSurvey s p c r).keys = s.keys ∧ (setSurvey s p c r).prot = s.prot ∧
    (setSurvey s p c r).tm = s.tm ∧ (setSurvey s p c r).eng = s.eng ∧ (setSurvey s p c r).cls = s.cls ∧
    (setSurvey s p c r).link = s.link ∧ (setSurvey s p c r).boot = s.boot ∧ (setSurvey s p c r).tst = s.tst :=
  ⟨rfl, rfl, rfl, rfl, rfl, rfl, rfl, rfl, rfl, rfl, rfl, rfl, rfl, rfl, rfl⟩

@[simp] theorem setXpEntry_frame (s : State) (x : Nat) (r : XpEntry) :
    (setXpEntry s x r).pending = s.pending ∧ (setXpEntry s x r).freeCtr = s.freeCtr ∧ (setXpEntry s x r).bus = s.bus ∧
    (setXpEntry s x r).jrn = s.jrn ∧ (setXpEntry s x r).evt = s.evt ∧ (setXpEntry s x r).own = s.own ∧
    (setXpEntry s x r).grid = s.grid ∧ (setXpEntry s x r).keys = s.keys ∧ (setXpEntry s x r).prot = s.prot ∧
    (setXpEntry s x r).tm = s.tm ∧ (setXpEntry s x r).eng = s.eng ∧ (setXpEntry s x r).cls = s.cls ∧
    (setXpEntry s x r).link = s.link ∧ (setXpEntry s x r).boot = s.boot ∧ (setXpEntry s x r).tst = s.tst :=
  ⟨rfl, rfl, rfl, rfl, rfl, rfl, rfl, rfl, rfl, rfl, rfl, rfl, rfl, rfl, rfl⟩

@[simp] theorem setReasm_frame (s : State) (x : Nat) (r : Option Reasm) :
    (setReasm s x r).pending = s.pending ∧ (setReasm s x r).freeCtr = s.freeCtr ∧ (setReasm s x r).bus = s.bus ∧
    (setReasm s x r).jrn = s.jrn ∧ (setReasm s x r).evt = s.evt ∧ (setReasm s x r).own = s.own ∧
    (setReasm s x r).grid = s.grid ∧ (setReasm s x r).keys = s.keys ∧ (setReasm s x r).prot = s.prot ∧
    (setReasm s x r).tm = s.tm ∧ (setReasm s x r).eng = s.eng ∧ (setReasm s x r).cls = s.cls ∧
    (setReasm s x r).link = s.link ∧ (setReasm s x r).boot = s.boot ∧ (setReasm s x r).tst = s.tst :=
  ⟨rfl, rfl, rfl, rfl, rfl, rfl, rfl, rfl, rfl, rfl, rfl, rfl, rfl, rfl, rfl⟩

@[simp] theorem setGrp_frame (s : State) (p g : Nat) (r : Grp) :
    (setGrp s p g r).pending = s.pending ∧ (setGrp s p g r).freeCtr = s.freeCtr ∧ (setGrp s p g r).bus = s.bus ∧
    (setGrp s p g r).jrn = s.jrn ∧ (setGrp s p g r).evt = s.evt ∧ (setGrp s p g r).own = s.own ∧
    (setGrp s p g r).grid = s.grid ∧ (setGrp s p g r).keys = s.keys ∧ (setGrp s p g r).prot = s.prot ∧
    (setGrp s p g r).tm = s.tm ∧ (setGrp s p g r).eng = s.eng ∧ (setGrp s p g r).cls = s.cls ∧
    (setGrp s p g r).link = s.link ∧ (setGrp s p g r).boot = s.boot ∧ (setGrp s p g r).tst = s.tst :=
  ⟨rfl, rfl, rfl, rfl, rfl, rfl, rfl, rfl, rfl, rfl, rfl, rfl, rfl, rfl, rfl⟩

@[simp] theorem setKeyEntry_frame (s : State) (u : Nat) (r : KeyEntry) :
    (setKeyEntry s u r).pending = s.pending ∧ (setKeyEntry s u r).freeCtr = s.freeCtr ∧ (setKeyEntry s u r).bus = s.bus ∧
    (setKeyEntry s u r).jrn = s.jrn ∧ (setKeyEntry s u r).evt = s.evt ∧ (setKeyEntry s u r).own = s.own ∧
    (setKeyEntry s u r).grid = s.grid ∧ (setKeyEntry s u r).pon = s.pon ∧ (setKeyEntry s u r).prot = s.prot ∧
    (setKeyEntry s u r).tm = s.tm ∧ (setKeyEntry s u r).eng = s.eng ∧ (setKeyEntry s u r).cls = s.cls ∧
    (setKeyEntry s u r).link = s.link ∧ (setKeyEntry s u r).boot = s.boot ∧ (setKeyEntry s u r).tst = s.tst :=
  ⟨rfl, rfl, rfl, rfl, rfl, rfl, rfl, rfl, rfl, rfl, rfl, rfl, rfl, rfl, rfl⟩

@[simp] theorem setOnuCnt_frame (s : State) (p i j n : Nat) :
    (setOnuCnt s p i j n).pending = s.pending ∧ (setOnuCnt s p i j n).freeCtr = s.freeCtr ∧
    (setOnuCnt s p i j n).bus = s.bus ∧ (setOnuCnt s p i j n).jrn = s.jrn ∧ (setOnuCnt s p i j n).evt = s.evt ∧
    (setOnuCnt s p i j n).own = s.own ∧ (setOnuCnt s p i j n).grid = s.grid ∧ (setOnuCnt s p i j n).keys = s.keys ∧
    (setOnuCnt s p i j n).prot = s.prot ∧ (setOnuCnt s p i j n).tm = s.tm ∧ (setOnuCnt s p i j n).eng = s.eng ∧
    (setOnuCnt s p i j n).cls = s.cls ∧ (setOnuCnt s p i j n).link = s.link ∧ (setOnuCnt s p i j n).boot = s.boot ∧
    (setOnuCnt s p i j n).tst = s.tst :=
  ⟨rfl, rfl, rfl, rfl, rfl, rfl, rfl, rfl, rfl, rfl, rfl, rfl, rfl, rfl, rfl⟩

@[simp] theorem setTxdis_frame (s : State) (p v : Nat) :
    (setTxdis s p v).pending = s.pending ∧ (setTxdis s p v).freeCtr = s.freeCtr ∧ (setTxdis s p v).bus = s.bus ∧
    (setTxdis s p v).jrn = s.jrn ∧ (setTxdis s p v).evt = s.evt ∧ (setTxdis s p v).own = s.own ∧
    (setTxdis s p v).grid = s.grid ∧ (setTxdis s p v).keys = s.keys ∧ (setTxdis s p v).prot = s.prot ∧
    (setTxdis s p v).tm = s.tm ∧ (setTxdis s p v).eng = s.eng ∧ (setTxdis s p v).cls = s.cls ∧
    (setTxdis s p v).link = s.link ∧ (setTxdis s p v).boot = s.boot ∧ (setTxdis s p v).tst = s.tst :=
  ⟨rfl, rfl, rfl, rfl, rfl, rfl, rfl, rfl, rfl, rfl, rfl, rfl, rfl, rfl, rfl⟩

@[simp] theorem setPair_frame (s : State) (p : Nat) (r : PairSt) :
    (setPair s p r).pending = s.pending ∧ (setPair s p r).freeCtr = s.freeCtr ∧ (setPair s p r).bus = s.bus ∧
    (setPair s p r).jrn = s.jrn ∧ (setPair s p r).evt = s.evt ∧ (setPair s p r).own = s.own ∧
    (setPair s p r).grid = s.grid ∧ (setPair s p r).pon = s.pon ∧ (setPair s p r).keys = s.keys ∧
    (setPair s p r).tm = s.tm ∧ (setPair s p r).eng = s.eng ∧ (setPair s p r).cls = s.cls ∧ (setPair s p r).link = s.link ∧
    (setPair s p r).boot = s.boot ∧ (setPair s p r).tst = s.tst :=
  ⟨rfl, rfl, rfl, rfl, rfl, rfl, rfl, rfl, rfl, rfl, rfl, rfl, rfl, rfl, rfl⟩

@[simp] theorem setAllocCh_frame (s : State) (p c : Nat) (r : AllocCh) :
    (setAllocCh s p c r).pending = s.pending ∧ (setAllocCh s p c r).freeCtr = s.freeCtr ∧ (setAllocCh s p c r).bus = s.bus ∧
    (setAllocCh s p c r).jrn = s.jrn ∧ (setAllocCh s p c r).evt = s.evt ∧ (setAllocCh s p c r).own = s.own ∧
    (setAllocCh s p c r).grid = s.grid ∧ (setAllocCh s p c r).keys = s.keys ∧ (setAllocCh s p c r).prot = s.prot ∧
    (setAllocCh s p c r).tm = s.tm ∧ (setAllocCh s p c r).eng = s.eng ∧ (setAllocCh s p c r).cls = s.cls ∧
    (setAllocCh s p c r).link = s.link ∧ (setAllocCh s p c r).boot = s.boot ∧ (setAllocCh s p c r).tst = s.tst :=
  ⟨rfl, rfl, rfl, rfl, rfl, rfl, rfl, rfl, rfl, rfl, rfl, rfl, rfl, rfl, rfl⟩

@[simp] theorem setCluster_frame (s : State) (k : Nat) (c : Cluster) :
    (setCluster s k c).pending = s.pending ∧ (setCluster s k c).freeCtr = s.freeCtr ∧ (setCluster s k c).bus = s.bus ∧
    (setCluster s k c).jrn = s.jrn ∧ (setCluster s k c).evt = s.evt ∧ (setCluster s k c).own = s.own ∧
    (setCluster s k c).grid = s.grid ∧ (setCluster s k c).pon = s.pon ∧ (setCluster s k c).keys = s.keys ∧
    (setCluster s k c).prot = s.prot ∧ (setCluster s k c).tm = s.tm ∧ (setCluster s k c).cls = s.cls ∧
    (setCluster s k c).link = s.link ∧ (setCluster s k c).boot = s.boot ∧ (setCluster s k c).tst = s.tst :=
  ⟨rfl, rfl, rfl, rfl, rfl, rfl, rfl, rfl, rfl, rfl, rfl, rfl, rfl, rfl, rfl⟩

@[simp] theorem setNode_frame (s : State) (lv i : Nat) (n : Node) :
    (setNode s lv i n).pending = s.pending ∧ (setNode s lv i n).freeCtr = s.freeCtr ∧ (setNode s lv i n).bus = s.bus ∧
    (setNode s lv i n).jrn = s.jrn ∧ (setNode s lv i n).evt = s.evt ∧ (setNode s lv i n).own = s.own ∧
    (setNode s lv i n).grid = s.grid ∧ (setNode s lv i n).pon = s.pon ∧ (setNode s lv i n).keys = s.keys ∧
    (setNode s lv i n).prot = s.prot ∧ (setNode s lv i n).eng = s.eng ∧ (setNode s lv i n).cls = s.cls ∧
    (setNode s lv i n).link = s.link ∧ (setNode s lv i n).boot = s.boot ∧ (setNode s lv i n).tst = s.tst :=
  ⟨rfl, rfl, rfl, rfl, rfl, rfl, rfl, rfl, rfl, rfl, rfl, rfl, rfl, rfl, rfl⟩

@[simp] theorem setPmc_frame (s : State) (k : Nat) (c : Pmc) :
    (setPmc s k c).pending = s.pending ∧ (setPmc s k c).freeCtr = s.freeCtr ∧ (setPmc s k c).bus = s.bus ∧
    (setPmc s k c).jrn = s.jrn ∧ (setPmc s k c).evt = s.evt ∧ (setPmc s k c).own = s.own ∧ (setPmc s k c).grid = s.grid ∧
    (setPmc s k c).pon = s.pon ∧ (setPmc s k c).keys = s.keys ∧ (setPmc s k c).prot = s.prot ∧ (setPmc s k c).tm = s.tm ∧
    (setPmc s k c).eng = s.eng ∧ (setPmc s k c).cls = s.cls ∧ (setPmc s k c).link = s.link ∧ (setPmc s k c).boot = s.boot :=
  ⟨rfl, rfl, rfl, rfl, rfl, rfl, rfl, rfl, rfl, rfl, rfl, rfl, rfl, rfl, rfl⟩

end Sys2Proof.Machine
end

