-- ==== Sys2Proof/Laws/Tbl.lean ====
section
/-! SUPPORT. The laws of a table: a read after a write, and the canonical form. -/

namespace Sys2Proof.Machine

variable {α : Type}

theorem tget_tput (d : Nat → α) (t : Tbl α) (k j : Nat) (v : α) :
    tget d (tput t k v) j = if j = k then v else tget d t j := by
  induction t with
  | nil => simp [tput, tget]
  | cons e t ih =>
    obtain ⟨k', v'⟩ := e
    unfold tput
    split
    · subst_vars; simp only [tget]; split <;> rfl
    · split
      · simp only [tget]
      · simp only [tget, ih]; split <;> split <;> simp_all

theorem tget_tdel (d : Nat → α) (t : Tbl α) (k j : Nat) : tget d (tdel t k) j = if j = k then d k else tget d t j := by
  induction t with
  | nil => simp only [tdel, tget]; split <;> simp_all
  | cons e t ih =>
    obtain ⟨k', v'⟩ := e
    unfold tdel
    split
    · subst_vars; simp only [ih, tget]; split <;> simp_all
    · simp only [tget, ih]; split <;> split <;> simp_all

/-- A read after a write: the value written at its key, every other key as before. -/
theorem tget_tset [DecidableEq α] (d : Nat → α) (t : Tbl α) (k j : Nat) (v : α) :
    tget d (tset d t k v) j = if j = k then v else tget d t j := by
  unfold tset
  split
  · rw [tget_tdel]; simp_all
  · exact tget_tput d t k j v

theorem tget_tset_same [DecidableEq α] (d : Nat → α) (t : Tbl α) (k : Nat) (v : α) : tget d (tset d t k v) k = v := by
  simp [tget_tset]

theorem tget_tset_other [DecidableEq α] (d : Nat → α) (t : Tbl α) (k j : Nat) (v : α) (h : j ≠ k) :
    tget d (tset d t k v) j = tget d t j := by
  simp [tget_tset, h]

theorem tabove_mono {b c : Nat} {t : Tbl α} (hbc : b ≤ c) (h : tabove c t = true) : tabove b t = true := by
  simp only [tabove, List.all_eq_true, decide_eq_true_eq] at *
  intro e he; have := h e he; omega

theorem tabove_tdel {b : Nat} (t : Tbl α) (k : Nat) (h : tabove b t = true) : tabove b (tdel t k) = true := by
  induction t with
  | nil => rfl
  | cons e t ih =>
    obtain ⟨k', v'⟩ := e
    simp only [tabove, List.all_cons, Bool.and_eq_true, decide_eq_true_eq] at h ih ⊢
    unfold tdel
    split
    · exact ih h.2
    · simp only [List.all_cons, Bool.and_eq_true, decide_eq_true_eq]; exact ⟨h.1, ih h.2⟩

theorem tabove_tput {b : Nat} (t : Tbl α) (k : Nat) (v : α) (hb : b < k) (h : tabove b t = true) :
    tabove b (tput t k v) = true := by
  induction t with
  | nil => simp [tput, tabove, hb]
  | cons e t ih =>
    obtain ⟨k', v'⟩ := e
    simp only [tabove, List.all_cons, Bool.and_eq_true, decide_eq_true_eq] at h ih
    unfold tput
    split
    · simp only [tabove, List.all_cons, Bool.and_eq_true, decide_eq_true_eq]; exact ⟨hb, h.2⟩
    · split
      · simp only [tabove, List.all_cons, Bool.and_eq_true, decide_eq_true_eq]; exact ⟨hb, h.1, h.2⟩
      · simp only [tabove, List.all_cons, Bool.and_eq_true, decide_eq_true_eq]; exact ⟨h.1, ih h.2⟩

variable [DecidableEq α]

theorem twf_tdel (d : Nat → α) (t : Tbl α) (k : Nat) (h : twf d t = true) : twf d (tdel t k) = true := by
  induction t with
  | nil => rfl
  | cons e t ih =>
    obtain ⟨k', v'⟩ := e
    simp only [twf, Bool.and_eq_true] at h
    unfold tdel
    split
    · exact ih h.2
    · simp only [twf, Bool.and_eq_true]; exact ⟨⟨h.1.1, tabove_tdel t k h.1.2⟩, ih h.2⟩

theorem twf_tput (d : Nat → α) (t : Tbl α) (k : Nat) (v : α) (hv : v ≠ d k) (h : twf d t = true) :
    twf d (tput t k v) = true := by
  induction t with
  | nil => simp [tput, twf, tabove, hv]
  | cons e t ih =>
    obtain ⟨k', v'⟩ := e
    have h' := h
    simp only [twf, Bool.and_eq_true] at h
    unfold tput
    split
    · subst_vars; simp only [twf, Bool.and_eq_true]; exact ⟨⟨by simpa using hv, h.1.2⟩, h.2⟩
    · split
      · rename_i hlt
        simp only [twf, Bool.and_eq_true, tabove, List.all_cons, decide_eq_true_eq]
        exact ⟨⟨by simpa using hv, hlt, tabove_mono (Nat.le_of_lt hlt) h.1.2⟩, ⟨h.1.1, h.1.2⟩, h.2⟩
      · simp only [twf, Bool.and_eq_true]
        exact ⟨⟨h.1.1, tabove_tput t k v (by omega) h.1.2⟩, ih h.2⟩

/-- A write keeps the canonical form. -/
theorem twf_tset (d : Nat → α) (t : Tbl α) (k : Nat) (v : α) (h : twf d t = true) : twf d (tset d t k v) = true := by
  unfold tset
  split
  · exact twf_tdel d t k h
  · rename_i hv; exact twf_tput d t k v hv h

end Sys2Proof.Machine
end

