-- ==== Sys2Proof/Laws/Ops.lean ====
section
/-! SUPPORT. What each shared operation over registers, counters, flags, events and the journal does, said once: what it leaves
alone, and what reads differently after it. -/

namespace Sys2Proof.Machine

/-! ### Registers -/

theorem reg_setReg (s : State) (a b : Nat) (w : Word) : reg (setReg s a w) b = if b = a then w else reg s b :=
  tget_tset resetWord s.bus.regs a b w

@[simp] theorem reg_setReg_same (s : State) (a : Nat) (w : Word) : reg (setReg s a w) a = w := by simp [reg_setReg]

theorem reg_setReg_other (s : State) (a b : Nat) (w : Word) (h : b ≠ a) : reg (setReg s a w) b = reg s b := by
  simp [reg_setReg, h]

@[simp] theorem setReg_bus (s : State) (a : Nat) (w : Word) :
    (setReg s a w).bus.cnt = s.bus.cnt ∧ (setReg s a w).bus.latch = s.bus.latch ∧ (setReg s a w).bus.data = s.bus.data ∧
    (setReg s a w).bus.done = s.bus.done ∧ (setReg s a w).bus.armed = s.bus.armed ∧
    (setReg s a w).bus.hostOut = s.bus.hostOut := ⟨rfl, rfl, rfl, rfl, rfl, rfl⟩

@[simp] theorem setFld_frame (s : State) (b : Nat) (f : Fld) (v : Nat) :
    (setFld s b f v).pending = s.pending ∧ (setFld s b f v).freeCtr = s.freeCtr ∧ (setFld s b f v).jrn = s.jrn ∧
    (setFld s b f v).evt = s.evt ∧ (setFld s b f v).own = s.own ∧ (setFld s b f v).grid = s.grid ∧
    (setFld s b f v).pon = s.pon ∧ (setFld s b f v).keys = s.keys ∧ (setFld s b f v).prot = s.prot ∧
    (setFld s b f v).tm = s.tm ∧ (setFld s b f v).eng = s.eng ∧ (setFld s b f v).cls = s.cls ∧
    (setFld s b f v).link = s.link ∧ (setFld s b f v).boot = s.boot ∧ (setFld s b f v).tst = s.tst := by
  simp [setFld]

@[simp] theorem setFld_bus (s : State) (b : Nat) (f : Fld) (v : Nat) :
    (setFld s b f v).bus.cnt = s.bus.cnt ∧ (setFld s b f v).bus.latch = s.bus.latch ∧
    (setFld s b f v).bus.data = s.bus.data ∧ (setFld s b f v).bus.done = s.bus.done ∧
    (setFld s b f v).bus.armed = s.bus.armed ∧ (setFld s b f v).bus.hostOut = s.bus.hostOut := by
  simp [setFld]

theorem reg_setFld (s : State) (b : Nat) (f : Fld) (v a : Nat) :
    reg (setFld s b f v) a = if a = b + f.off then withBits (reg s (b + f.off)) f.lsb f.width v else reg s a := by
  simp [setFld, reg_setReg]

theorem reg_setFld_other (s : State) (b : Nat) (f : Fld) (v a : Nat) (h : a ≠ b + f.off) :
    reg (setFld s b f v) a = reg s a := by simp [reg_setFld, h]

/-- A field reads what was written into it. -/
theorem fld_setFld_same (s : State) (b : Nat) (f : Fld) (v : Nat) (h : f.lsb + f.width ≤ 32) :
    fld (setFld s b f v) b f = v % 2 ^ f.width := by
  simp [fld, reg_setFld, bitsOf_withBits_same _ _ _ _ h]

/-- A write of a field leaves every field of another word, and every field beside it, alone. -/
theorem fld_setFld_other (s : State) (b c : Nat) (f g : Fld) (v : Nat) (h : f.lsb + f.width ≤ 32)
    (hd : c + g.off ≠ b + f.off ∨ g.lsb + g.width ≤ f.lsb ∨ f.lsb + f.width ≤ g.lsb) :
    fld (setFld s b f v) c g = fld s c g := by
  unfold fld
  rw [reg_setFld]
  split
  · rename_i he
    rw [bitsOf_withBits_other _ _ _ _ _ _ h (by tauto), he]
  · rfl

theorem fld_setReg_other (s : State) (a b : Nat) (w : Word) (g : Fld) (h : b + g.off ≠ a) :
    fld (setReg s a w) b g = fld s b g := by simp [fld, reg_setReg_other _ _ _ _ h]

@[simp] theorem setBit_frame (s : State) (b : Nat) (f : Fld) (v : Bool) :
    (setBit s b f v).pending = s.pending ∧ (setBit s b f v).freeCtr = s.freeCtr ∧ (setBit s b f v).jrn = s.jrn ∧
    (setBit s b f v).evt = s.evt ∧ (setBit s b f v).own = s.own ∧ (setBit s b f v).grid = s.grid ∧
    (setBit s b f v).pon = s.pon ∧ (setBit s b f v).keys = s.keys ∧ (setBit s b f v).prot = s.prot ∧
    (setBit s b f v).tm = s.tm ∧ (setBit s b f v).eng = s.eng ∧ (setBit s b f v).cls = s.cls ∧
    (setBit s b f v).link = s.link ∧ (setBit s b f v).boot = s.boot ∧ (setBit s b f v).tst = s.tst := by
  simp [setBit]

theorem isSet_setBit_same (s : State) (b : Nat) (f : Fld) (v : Bool) (hl : f.lsb < 32) (hw : f.width = 1) :
    isSet (setBit s b f v) b f = v := by
  rw [isSet, setBit, fld_setFld_same _ _ _ _ (by omega), hw]
  cases v <;> rfl

@[simp] theorem setWords_frame (s : State) (a : Nat) (l : List Word) :
    (setWords s a l).pending = s.pending ∧ (setWords s a l).freeCtr = s.freeCtr ∧ (setWords s a l).jrn = s.jrn ∧
    (setWords s a l).evt = s.evt ∧ (setWords s a l).own = s.own ∧ (setWords s a l).grid = s.grid ∧
    (setWords s a l).pon = s.pon ∧ (setWords s a l).keys = s.keys ∧ (setWords s a l).prot = s.prot ∧
    (setWords s a l).tm = s.tm ∧ (setWords s a l).eng = s.eng ∧ (setWords s a l).cls = s.cls ∧
    (setWords s a l).link = s.link ∧ (setWords s a l).boot = s.boot ∧ (setWords s a l).tst = s.tst := by
  induction l generalizing s a with
  | nil => simp [setWords]
  | cons w l ih => have := ih (setReg s a w) (a + 4); simpa [setWords] using this

theorem reg_setWords_below (s : State) (a b : Nat) (l : List Word) (h : b < a) : reg (setWords s a l) b = reg s b := by
  induction l generalizing s a with
  | nil => rfl
  | cons w l ih => rw [setWords, ih _ _ (by omega), reg_setReg_other _ _ _ _ (by omega)]

theorem reg_setWords_above (s : State) (a b : Nat) (l : List Word) (h : a + 4 * l.length ≤ b) :
    reg (setWords s a l) b = reg s b := by
  induction l generalizing s a with
  | nil => rfl
  | cons w l ih =>
    simp only [List.length_cons] at h
    rw [setWords, ih _ _ (by omega), reg_setReg_other _ _ _ _ (by omega)]

/-- Words written one after another read as they were written. -/
theorem wordsAt_setWords (s : State) (a : Nat) (l : List Word) : wordsAt (setWords s a l) a l.length = l := by
  induction l generalizing s a with
  | nil => rfl
  | cons w l ih =>
    simp only [setWords, List.length_cons, wordsAt]
    rw [ih, reg_setWords_below _ _ _ _ (by omega), reg_setReg_same]

theorem wordsAt_eq (s t : State) (a n : Nat) (h : ∀ b, a ≤ b → b < a + 4 * n → reg t b = reg s b) :
    wordsAt t a n = wordsAt s a n := by
  induction n generalizing a with
  | zero => rfl
  | succ n ih =>
    simp only [wordsAt]
    rw [h a (by omega) (by omega), ih (a + 4) (fun b h1 h2 => h b (by omega) (by omega))]

@[simp] theorem bumpFld_frame (s : State) (b : Nat) (f : Fld) (n : Nat) :
    (bumpFld s b f n).pending = s.pending ∧ (bumpFld s b f n).freeCtr = s.freeCtr ∧ (bumpFld s b f n).jrn = s.jrn ∧
    (bumpFld s b f n).evt = s.evt ∧ (bumpFld s b f n).own = s.own ∧ (bumpFld s b f n).grid = s.grid ∧
    (bumpFld s b f n).pon = s.pon ∧ (bumpFld s b f n).keys = s.keys ∧ (bumpFld s b f n).prot = s.prot ∧
    (bumpFld s b f n).tm = s.tm ∧ (bumpFld s b f n).eng = s.eng ∧ (bumpFld s b f n).cls = s.cls ∧
    (bumpFld s b f n).link = s.link ∧ (bumpFld s b f n).boot = s.boot ∧ (bumpFld s b f n).tst = s.tst := by
  simp [bumpFld]

/-! ### Counters -/

/-- The words that hold OVF of the performance counters and its occurrences. -/
def pmcWord (a : Nat) : Bool := a == pgPMC + PMC_F_OVF.off || a == pgPMC + PMC_F_OVF.cntOff

/-- A step of a fold keeps what each of its steps keeps. -/
theorem foldl_keeps {α β γ : Type} (g : β → γ) (f : β → α → β) (h : ∀ b a, g (f b a) = g b) (l : List α) (b : β) :
    g (l.foldl f b) = g b := by
  induction l generalizing b with
  | nil => rfl
  | cons a l ih => rw [List.foldl_cons, ih, h]

/-- What a performance count changes: the performance counters, and OVF with its occurrences. -/
theorem pmcCount_only (s : State) (b e n : Nat) :
    ∃ tst regs, pmcCount s b e n = { s with tst := tst, bus := { s.bus with regs := regs } } ∧
      ∀ a, pmcWord a = false → tget resetWord regs a = reg s a := by
  unfold pmcCount
  split
  · rename_i hr
    clear hr
    generalize s.tst.pmc = l
    have main : ∀ (l : List (Nat × Pmc)) (t : State),
        (∃ tst regs, t = { s with tst := tst, bus := { s.bus with regs := regs } } ∧
          ∀ a, pmcWord a = false → tget resetWord regs a = reg s a) →
        ∃ tst regs, l.foldl (fun t x =>
          if x.2.counts b e then
            let r := pmcAdd 8 t.tst.pmc x.1 n
            let t1 : State := { t with tst := { t.tst with pmc := r.1 } }
            if r.2 then
              bumpFld (setFld t1 pgPMC ⟨PMC_F_OVF.off, PMC_F_OVF.bit, 1, 0⟩ 1) pgPMC ⟨PMC_F_OVF.cntOff, PMC_F_OVF.cntLsb, 16, 0⟩ 1
            else t1
          else t) t = { s with tst := tst, bus := { s.bus with regs := regs } } ∧
          ∀ a, pmcWord a = false → tget resetWord regs a = reg s a := by
      intro l
      induction l with
      | nil => exact fun t h => h
      | cons x l ih =>
        intro t h
        apply ih
        obtain ⟨tst, regs, rfl, hr⟩ := h
        dsimp only
        split
        · split
          · refine ⟨_, _, rfl, fun a ha => ?_⟩
            simp only [pmcWord, Bool.or_eq_false_iff, beq_eq_false_iff_ne] at ha
            have h2 := hr a (by simp only [pmcWord, Bool.or_eq_false_iff, beq_eq_false_iff_ne]; exact ha)
            refine (reg_setFld_other _ _ _ _ _ (by exact ha.2)).trans ?_
            exact (tget_tset_other _ _ _ _ _ (by exact ha.1)).trans h2
          · exact ⟨_, _, rfl, hr⟩
        · exact ⟨_, _, rfl, hr⟩
    exact main l s ⟨s.tst, s.bus.regs, rfl, fun _ _ => rfl⟩
  · exact ⟨s.tst, s.bus.regs, rfl, fun _ _ => rfl⟩

@[simp] theorem pmcCount_frame (s : State) (b e n : Nat) :
    (pmcCount s b e n).pending = s.pending ∧ (pmcCount s b e n).freeCtr = s.freeCtr ∧ (pmcCount s b e n).jrn = s.jrn ∧
    (pmcCount s b e n).evt = s.evt ∧ (pmcCount s b e n).own = s.own ∧ (pmcCount s b e n).grid = s.grid ∧
    (pmcCount s b e n).pon = s.pon ∧ (pmcCount s b e n).keys = s.keys ∧ (pmcCount s b e n).prot = s.prot ∧
    (pmcCount s b e n).tm = s.tm ∧ (pmcCount s b e n).eng = s.eng ∧ (pmcCount s b e n).cls = s.cls ∧
    (pmcCount s b e n).link = s.link ∧ (pmcCount s b e n).boot = s.boot := by
  obtain ⟨_, _, h, _⟩ := pmcCount_only s b e n
  rw [h]; simp

@[simp] theorem pmcCount_bus (s : State) (b e n : Nat) :
    (pmcCount s b e n).bus.cnt = s.bus.cnt ∧ (pmcCount s b e n).bus.latch = s.bus.latch ∧
    (pmcCount s b e n).bus.data = s.bus.data ∧ (pmcCount s b e n).bus.done = s.bus.done ∧
    (pmcCount s b e n).bus.armed = s.bus.armed ∧ (pmcCount s b e n).bus.hostOut = s.bus.hostOut := by
  obtain ⟨_, _, h, _⟩ := pmcCount_only s b e n
  rw [h]; simp

theorem reg_pmcCount (s : State) (b e n a : Nat) (h : pmcWord a = false) : reg (pmcCount s b e n) a = reg s a := by
  obtain ⟨_, _, he, hr⟩ := pmcCount_only s b e n
  rw [he]; exact hr a h

@[simp] theorem bump_frame (s : State) (b i n : Nat) :
    (bump s b i n).pending = s.pending ∧ (bump s b i n).freeCtr = s.freeCtr ∧ (bump s b i n).jrn = s.jrn ∧
    (bump s b i n).evt = s.evt ∧ (bump s b i n).own = s.own ∧ (bump s b i n).grid = s.grid ∧
    (bump s b i n).pon = s.pon ∧ (bump s b i n).keys = s.keys ∧ (bump s b i n).prot = s.prot ∧
    (bump s b i n).tm = s.tm ∧ (bump s b i n).eng = s.eng ∧ (bump s b i n).cls = s.cls ∧
    (bump s b i n).link = s.link ∧ (bump s b i n).boot = s.boot := by
  simp [bump]

@[simp] theorem bump_bus (s : State) (b i n : Nat) :
    (bump s b i n).bus.latch = s.bus.latch ∧ (bump s b i n).bus.data = s.bus.data ∧
    (bump s b i n).bus.done = s.bus.done ∧ (bump s b i n).bus.armed = s.bus.armed ∧
    (bump s b i n).bus.hostOut = s.bus.hostOut := by
  simp [bump, setCnt]

theorem reg_bump (s : State) (b i n a : Nat) (h : pmcWord a = false) : reg (bump s b i n) a = reg s a := by
  rw [bump, reg_pmcCount _ _ _ _ _ h]; rfl

theorem cntAt_bump (s : State) (b i n a : Nat) :
    cntAt (bump s b i n) a = if a = cntAddr b i then min cntMax (cntAt s a + n) else cntAt s a := by
  simp only [cntAt, bump, pmcCount_bus, setCnt, tget_tset]
  split <;> simp_all

/-- A counter of a page counts, and saturates (R71). -/
theorem cntAt_bump_same (s : State) (b i n : Nat) :
    cntAt (bump s b i n) (cntAddr b i) = min cntMax (cntAt s (cntAddr b i) + n) := by simp [cntAt_bump]

@[simp] theorem cntAt_setReg (s : State) (a : Nat) (w : Word) (b : Nat) : cntAt (setReg s a w) b = cntAt s b := rfl
@[simp] theorem cntAt_setFld (s : State) (c : Nat) (f : Fld) (v b : Nat) : cntAt (setFld s c f v) b = cntAt s b := by
  simp [cntAt]

/-! ### Flags and events -/

@[simp] theorem flag_frame (s : State) (b : Nat) (f : Flag) :
    (flag s b f).pending = s.pending ∧ (flag s b f).freeCtr = s.freeCtr ∧ (flag s b f).jrn = s.jrn ∧
    (flag s b f).evt = s.evt ∧ (flag s b f).own = s.own ∧ (flag s b f).grid = s.grid ∧
    (flag s b f).pon = s.pon ∧ (flag s b f).keys = s.keys ∧ (flag s b f).prot = s.prot ∧
    (flag s b f).tm = s.tm ∧ (flag s b f).eng = s.eng ∧ (flag s b f).cls = s.cls ∧
    (flag s b f).link = s.link ∧ (flag s b f).boot = s.boot := by
  unfold flag
  dsimp only
  split
  · split <;> simp
  · simp

@[simp] theorem flag_bus (s : State) (b : Nat) (f : Flag) :
    (flag s b f).bus.cnt = s.bus.cnt ∧ (flag s b f).bus.latch = s.bus.latch ∧ (flag s b f).bus.data = s.bus.data ∧
    (flag s b f).bus.done = s.bus.done ∧ (flag s b f).bus.armed = s.bus.armed ∧
    (flag s b f).bus.hostOut = s.bus.hostOut := by
  unfold flag
  dsimp only
  split
  · split <;> simp [bumpFld]
  · simp [bumpFld]

@[simp] theorem cntAt_flag (s : State) (b : Nat) (f : Flag) (a : Nat) : cntAt (flag s b f) a = cntAt s a := by
  simp [cntAt]

theorem reg_flag (s : State) (b : Nat) (f : Flag) (a : Nat) (h1 : a ≠ b + f.off) (h2 : a ≠ b + f.cntOff) (h3 : pmcWord a = false) :
    reg (flag s b f) a = reg s a := by
  unfold flag
  dsimp only
  split
  · split
    · rw [reg_pmcCount _ _ _ _ _ h3, bumpFld, reg_setFld_other _ _ _ _ _ (by exact h2), reg_setFld_other _ _ _ _ _ (by exact h1)]
    · rw [bumpFld, reg_setFld_other _ _ _ _ _ (by exact h2), reg_setFld_other _ _ _ _ _ (by exact h1)]
  · rw [bumpFld, reg_setFld_other _ _ _ _ _ (by exact h2), reg_setFld_other _ _ _ _ _ (by exact h1)]

/-- A flag that was set reads 1 (R10, R285). -/
theorem flagSet_flag (s : State) (b : Nat) (f : Flag) (h1 : f.bit < 32) (h2 : f.off ≠ f.cntOff) (h3 : pmcWord (b + f.off) = false) :
    flagSet (flag s b f) b f = true := by
  have key : flagSet (bumpFld (setFld s b ⟨f.off, f.bit, 1, 0⟩ 1) b ⟨f.cntOff, f.cntLsb, 16, 0⟩ 1) b f = true := by
    unfold flagSet isSet bumpFld fld
    rw [reg_setFld_other _ _ _ _ _ (by simpa using h2), reg_setFld, if_pos rfl,
      bitsOf_withBits_same _ _ _ _ (by show f.bit + 1 ≤ 32; omega)]
    rfl
  unfold flag
  dsimp only
  split
  · split
    · have : ∀ t e, flagSet (pmcCount t b e 1) b f = flagSet t b f := by
        intro t e
        unfold flagSet isSet fld
        rw [reg_pmcCount _ _ _ _ _ (by exact h3)]
      rw [this]; exact key
    · exact key
  · exact key

@[simp] theorem note_frame (s : State) (b : Nat) (f : Flag) (i : Nat) :
    (note s b f i).pending = s.pending ∧ (note s b f i).freeCtr = s.freeCtr ∧ (note s b f i).jrn = s.jrn ∧
    (note s b f i).evt = s.evt ∧ (note s b f i).own = s.own ∧ (note s b f i).grid = s.grid ∧
    (note s b f i).pon = s.pon ∧ (note s b f i).keys = s.keys ∧ (note s b f i).prot = s.prot ∧
    (note s b f i).tm = s.tm ∧ (note s b f i).eng = s.eng ∧ (note s b f i).cls = s.cls ∧
    (note s b f i).link = s.link ∧ (note s b f i).boot = s.boot := by
  simp [note]

@[simp] theorem postTo_frame (s : State) (b v : Nat) (c : EvCode) (l : List Nat) :
    (postTo s b v c l).pending = s.pending ∧ (postTo s b v c l).freeCtr = s.freeCtr ∧ (postTo s b v c l).jrn = s.jrn ∧
    (postTo s b v c l).own = s.own ∧ (postTo s b v c l).grid = s.grid ∧ (postTo s b v c l).pon = s.pon ∧
    (postTo s b v c l).keys = s.keys ∧ (postTo s b v c l).prot = s.prot ∧ (postTo s b v c l).tm = s.tm ∧
    (postTo s b v c l).eng = s.eng ∧ (postTo s b v c l).cls = s.cls ∧ (postTo s b v c l).link = s.link ∧
    (postTo s b v c l).boot = s.boot := by
  unfold postTo
  dsimp only
  split
  · split <;> simp
  · simp

@[simp] theorem post_frame (s : State) (b : Nat) (c : EvCode) (l : List Nat) :
    (post s b c l).pending = s.pending ∧ (post s b c l).freeCtr = s.freeCtr ∧ (post s b c l).jrn = s.jrn ∧
    (post s b c l).own = s.own ∧ (post s b c l).grid = s.grid ∧ (post s b c l).pon = s.pon ∧
    (post s b c l).keys = s.keys ∧ (post s b c l).prot = s.prot ∧ (post s b c l).tm = s.tm ∧
    (post s b c l).eng = s.eng ∧ (post s b c l).cls = s.cls ∧ (post s b c l).link = s.link ∧
    (post s b c l).boot = s.boot := by
  simp [post]

@[simp] theorem raise_frame (s : State) (b : Nat) (f : Flag) (l : List Nat) :
    (raise s b f l).pending = s.pending ∧ (raise s b f l).freeCtr = s.freeCtr ∧ (raise s b f l).jrn = s.jrn ∧
    (raise s b f l).own = s.own ∧ (raise s b f l).grid = s.grid ∧ (raise s b f l).pon = s.pon ∧
    (raise s b f l).keys = s.keys ∧ (raise s b f l).prot = s.prot ∧ (raise s b f l).tm = s.tm ∧
    (raise s b f l).eng = s.eng ∧ (raise s b f l).cls = s.cls ∧ (raise s b f l).link = s.link ∧
    (raise s b f l).boot = s.boot := by
  simp [raise]

/-! ### The journal and the record of a write -/

@[simp] theorem journal_frame (s : State) (o : Origin) (c a : Nat) (x y m : Word) :
    (journal s o c a x y m).pending = s.pending ∧ (journal s o c a x y m).freeCtr = s.freeCtr ∧
    (journal s o c a x y m).evt = s.evt ∧ (journal s o c a x y m).own = s.own ∧ (journal s o c a x y m).grid = s.grid ∧
    (journal s o c a x y m).pon = s.pon ∧ (journal s o c a x y m).keys = s.keys ∧
    (journal s o c a x y m).prot = s.prot ∧ (journal s o c a x y m).tm = s.tm ∧ (journal s o c a x y m).eng = s.eng ∧
    (journal s o c a x y m).cls = s.cls ∧ (journal s o c a x y m).link = s.link ∧
    (journal s o c a x y m).boot = s.boot := by
  unfold journal
  dsimp only
  split <;> split <;> simp

/-- The record that a write enters: the newest of the ring, with the next CSEQ (R295, R296). -/
theorem journal_jrn (s : State) (o : Origin) (c a : Nat) (x y m : Word) :
    (journal s o c a x y m).jrn.ring = (⟨s.jrn.cseq, o, c, now s, a, x, y, m⟩ :: s.jrn.ring).take ringMax ∧
    (journal s o c a x y m).jrn.cseq = s.jrn.cseq + 1 ∧ (journal s o c a x y m).jrn.slotA = s.jrn.slotA ∧
    (journal s o c a x y m).jrn.slotB = s.jrn.slotB ∧ (journal s o c a x y m).jrn.flush = s.jrn.flush := by
  unfold journal
  exact ⟨rfl, rfl, rfl, rfl, rfl⟩

/-- Is an address on one of the pages that a write's record touches: JRN, SLC, and PMC with its overflow? -/
def recordPage (a : Nat) : Bool := a / 0x1000 == pgJRN / 0x1000 || a / 0x1000 == pgSLC / 0x1000 || pmcWord a

theorem recordPage_jrn (a off : Nat) (h : recordPage a = false) (ho : off < 0x1000) : a ≠ pgJRN + off := by
  intro he
  simp only [recordPage, Bool.or_eq_false_iff, beq_eq_false_iff_ne] at h
  apply h.1.1
  rw [he]
  have : pgJRN % 0x1000 = 0 := by decide
  omega

theorem recordPage_slc (a off : Nat) (h : recordPage a = false) (ho : off < 0x1000) : a ≠ pgSLC + off := by
  intro he
  simp only [recordPage, Bool.or_eq_false_iff, beq_eq_false_iff_ne] at h
  apply h.1.2
  rw [he]
  have : pgSLC % 0x1000 = 0 := by decide
  omega

theorem recordPage_pmc (a : Nat) (h : recordPage a = false) : pmcWord a = false := by
  simp only [recordPage, Bool.or_eq_false_iff] at h
  exact h.2

theorem reg_journal (s : State) (o : Origin) (c a : Nat) (x y m : Word) (b : Nat) (h : recordPage b = false) :
    reg (journal s o c a x y m) b = reg s b := by
  have hp := recordPage_pmc b h
  have h1 := recordPage_jrn b JRN_F_LOST.off h (by decide)
  have h2 := recordPage_jrn b JRN_F_LOST.cntOff h (by decide)
  have go : ∀ (t : State) (j : JrnSt), reg { t with jrn := j } b = reg t b := fun _ _ => rfl
  unfold journal
  dsimp only
  rw [go]
  split
  · rw [reg_setReg_other _ _ _ _ h1, bumpFld, reg_setFld_other _ _ _ _ _ (by exact h2), reg_bump _ _ _ _ _ hp]
    split <;> simp [reg_bump _ _ _ _ _ hp]
  · split <;> simp [reg_bump _ _ _ _ _ hp]

@[simp] theorem noteOwnRej_frame (s : State) (o : Origin) :
    (noteOwnRej s o).pending = s.pending ∧ (noteOwnRej s o).freeCtr = s.freeCtr ∧ (noteOwnRej s o).jrn = s.jrn ∧
    (noteOwnRej s o).evt = s.evt ∧ (noteOwnRej s o).own = s.own ∧ (noteOwnRej s o).grid = s.grid ∧
    (noteOwnRej s o).pon = s.pon ∧ (noteOwnRej s o).keys = s.keys ∧ (noteOwnRej s o).prot = s.prot ∧
    (noteOwnRej s o).tm = s.tm ∧ (noteOwnRej s o).eng = s.eng ∧ (noteOwnRej s o).cls = s.cls ∧
    (noteOwnRej s o).link = s.link ∧ (noteOwnRej s o).boot = s.boot := by
  simp [noteOwnRej]

@[simp] theorem record_frame (s : State) (o : Origin) (c a : Nat) (x y m : Word) :
    (record s o c a x y m).pending = s.pending ∧ (record s o c a x y m).freeCtr = s.freeCtr ∧
    (record s o c a x y m).evt = s.evt ∧ (record s o c a x y m).own = s.own ∧ (record s o c a x y m).grid = s.grid ∧
    (record s o c a x y m).pon = s.pon ∧ (record s o c a x y m).keys = s.keys ∧ (record s o c a x y m).prot = s.prot ∧
    (record s o c a x y m).tm = s.tm ∧ (record s o c a x y m).eng = s.eng ∧ (record s o c a x y m).cls = s.cls ∧
    (record s o c a x y m).link = s.link ∧ (record s o c a x y m).boot = s.boot := by
  unfold record
  dsimp only
  split <;> simp

theorem record_jrn (s : State) (o : Origin) (c a : Nat) (x y m : Word) :
    (record s o c a x y m).jrn = (journal s o c a x y m).jrn := by
  unfold record
  dsimp only
  split <;> simp

theorem record_done (s : State) (o : Origin) (c a : Nat) (x y m : Word) :
    (record s o c a x y m).bus.done = if c = 6 then .unsupported else .normal := rfl

theorem reg_record (s : State) (o : Origin) (c a : Nat) (x y m : Word) (b : Nat) (h : recordPage b = false) :
    reg (record s o c a x y m) b = reg s b := by
  have go : ∀ (t : State) (k : Completion) (w : Word), reg (setDone (disarm t o) k w) b = reg t b := fun _ _ _ => rfl
  unfold record
  dsimp only
  rw [go]
  split
  · rw [noteOwnRej, bumpFld, reg_setFld_other _ _ _ _ _ ?_, reg_flag _ _ _ _ ?_ ?_ (recordPage_pmc b h), reg_journal _ _ _ _ _ _ _ _ h]
    · exact recordPage_slc b _ h (by decide)
    · exact recordPage_slc b _ h (by decide)
    · refine recordPage_slc b _ h ?_
      show 0x100 + (Origin.slice o % 32) * 4 < 0x1000
      omega
  · exact reg_journal _ _ _ _ _ _ _ _ h

/-! ### Commands -/

/-- A command that its address and origin let through. -/
theorem command_ok (o : Origin) (a i : Nat) (body : State → State × Nat) (s : State) (h : addrReject s o a = none) :
    command o a i body s = record (body s).1 o (body s).2 a (reg s i)
      (if (body s).2 = 0 then reg (body s).1 a else reg s i) allOnes := by
  simp [command, h]

/-- A command that they stop: one record with the reject code, and nothing else (R27, R351). -/
theorem command_stopped (o : Origin) (a i : Nat) (body : State → State × Nat) (s : State) (c : Nat)
    (h : addrReject s o a = some c) : command o a i body s = record s o c a (reg s i) (reg s i) allOnes := by
  simp [command, h]

theorem ownWrite_ok (o : Origin) (a : Nat) (body : State → State × Nat) (s : State) (h : addrReject s o a = none) :
    ownWrite o a body s = record (body s).1 o (body s).2 a (reg s a) (reg (body s).1 a) allOnes := by
  simp [ownWrite, h]

theorem ownWrite_stopped (o : Origin) (a : Nat) (body : State → State × Nat) (s : State) (c : Nat)
    (h : addrReject s o a = some c) : ownWrite o a body s = record s o c a (reg s a) (reg s a) allOnes := by
  simp [ownWrite, h]

theorem readAccess_ok (o : Origin) (a : Nat) (body : State → State × Word) (s : State) (h : (reach s o a).isSome = true) :
    readAccess o a body s = setDone (body s).1 .normal (body s).2 := by
  unfold readAccess
  split
  · simp_all
  · rfl

end Sys2Proof.Machine
end

