-- ==== Sys2Proof/Laws/Fold.lean ====
section
/-! SUPPORT. What a choice and a fold keep of the queue of commands, the straps and the revoke bits: what each branch and each
step keeps. -/

namespace Sys2Proof.Machine

section Choice
variable {β : Type} (c : Prop) [Decidable c]

@[simp] theorem ite_pending (a b : State) : (if c then a else b).pending = if c then a.pending else b.pending := by
  split <;> rfl
@[simp] theorem ite_straps (a b : State) :
    (if c then a else b).boot.straps = if c then a.boot.straps else b.boot.straps := by split <;> rfl
@[simp] theorem ite_revoked (a b : State) :
    (if c then a else b).boot.revoked = if c then a.boot.revoked else b.boot.revoked := by split <;> rfl
@[simp] theorem ite_state (a b : State × β) : (if c then a else b).1 = if c then a.1 else b.1 := by split <;> rfl

end Choice

section Fold
variable {α β : Type} (l : List α) (s : State)

@[simp] theorem foldl_pending (f : State → α → State) (h : ∀ t a, (f t a).pending = t.pending) :
    (l.foldl f s).pending = s.pending := foldl_keeps (·.pending) f h l s
@[simp] theorem foldl_straps (f : State → α → State) (h : ∀ t a, (f t a).boot.straps = t.boot.straps) :
    (l.foldl f s).boot.straps = s.boot.straps := foldl_keeps (·.boot.straps) f h l s
@[simp] theorem foldl_revoked (f : State → α → State) (h : ∀ t a, (f t a).boot.revoked = t.boot.revoked) :
    (l.foldl f s).boot.revoked = s.boot.revoked := foldl_keeps (·.boot.revoked) f h l s

/-! A fold that carries something beside the state. -/

@[simp] theorem foldl_fst_pending (f : State × β → α → State × β) (x : State × β)
    (h : ∀ y a, (f y a).1.pending = y.1.pending) : (l.foldl f x).1.pending = x.1.pending := foldl_keeps (·.1.pending) f h l x
@[simp] theorem foldl_fst_straps (f : State × β → α → State × β) (x : State × β)
    (h : ∀ y a, (f y a).1.boot.straps = y.1.boot.straps) : (l.foldl f x).1.boot.straps = x.1.boot.straps :=
  foldl_keeps (·.1.boot.straps) f h l x
@[simp] theorem foldl_fst_revoked (f : State × β → α → State × β) (x : State × β)
    (h : ∀ y a, (f y a).1.boot.revoked = y.1.boot.revoked) : (l.foldl f x).1.boot.revoked = x.1.boot.revoked :=
  foldl_keeps (·.1.boot.revoked) f h l x

end Fold

end Sys2Proof.Machine
end

