-- ==== Sys2Proof/Laws/KeepOps.lean ====
section
/-! SUPPORT. What each operation of Machine/Ops.lean leaves alone. -/

namespace Sys2Proof.Machine

@[simp] theorem setFldW_keeps (s : State) (b : Nat) (f : Fld) (v n : Nat) :
    (setFldW s b f v n).pending = s.pending ∧
    (setFldW s b f v n).boot.straps = s.boot.straps ∧
    (setFldW s b f v n).boot.revoked = s.boot.revoked := by
  induction n with
  | zero => simp [setFldW]
  | succ n ih => simp [setFldW, ih]


end Sys2Proof.Machine
end

