-- ==== Sys2Proof/Laws/KeepFlags.lean ====
section
/-! SUPPORT. What each operation of Machine/Flags.lean leaves alone. -/

namespace Sys2Proof.Machine

@[simp] theorem lateAction_keeps (s : State) (base : Nat) :
    (lateAction s base).pending = s.pending ∧ (lateAction s base).boot.straps = s.boot.straps ∧
    (lateAction s base).boot.revoked = s.boot.revoked := by
  unfold lateAction
  try dsimp only
  repeat' split
  all_goals simp

@[simp] theorem lateFlag_keeps (s : State) (base : Nat) :
    (lateFlag s base).pending = s.pending ∧ (lateFlag s base).boot.straps = s.boot.straps ∧
    (lateFlag s base).boot.revoked = s.boot.revoked := by
  unfold lateFlag
  try dsimp only
  repeat' split
  all_goals simp

@[simp] theorem postAction_keeps (s : State) (a : Action) :
    (postAction s a).pending = s.pending ∧ (postAction s a).boot.straps = s.boot.straps ∧
    (postAction s a).boot.revoked = s.boot.revoked := by
  unfold postAction
  try dsimp only
  repeat' split
  all_goals simp

@[simp] theorem unpost_keeps (s : State) (k : ActKind) :
    (unpost s k).pending = s.pending ∧ (unpost s k).boot.straps = s.boot.straps ∧
    (unpost s k).boot.revoked = s.boot.revoked := by
  unfold unpost
  try dsimp only
  repeat' split
  all_goals simp

end Sys2Proof.Machine
end

