-- ==== Sys2Proof/Laws/KeepTrace.lean ====
section
/-! SUPPORT. What each operation of Machine/Trace.lean leaves alone. -/

namespace Sys2Proof.Machine

@[simp] theorem trace_keeps (s : State) (base point verdict : Nat) (m : Option (Nat × Nat × Nat)) (queue len arg : Nat) :
    (trace s base point verdict m queue len arg).pending = s.pending ∧
    (trace s base point verdict m queue len arg).boot.straps = s.boot.straps ∧
    (trace s base point verdict m queue len arg).boot.revoked = s.boot.revoked := by
  unfold trace
  try dsimp only
  repeat' split
  all_goals simp

@[simp] theorem drawMark_keeps (s : State) :
    (drawMark s).1.pending = s.pending ∧ (drawMark s).1.boot.straps = s.boot.straps ∧
    (drawMark s).1.boot.revoked = s.boot.revoked := by
  unfold drawMark
  try dsimp only
  repeat' split
  all_goals simp

end Sys2Proof.Machine
end

