-- ==== Sys2Proof/Laws/KeepOperands.lean ====
section
/-! SUPPORT. What each operation of Machine/Operands.lean leaves alone. -/

namespace Sys2Proof.Machine

theorem command_keeps (o : Origin) (addr idx : Nat) (body : State → State × Nat) (s : State)
    (h : ∀ x0, (body x0).1.pending = x0.pending ∧
      (body x0).1.boot.straps = x0.boot.straps ∧
      (body x0).1.boot.revoked = x0.boot.revoked) :
    (command o addr idx body s).pending = s.pending ∧ (command o addr idx body s).boot.straps = s.boot.straps ∧
    (command o addr idx body s).boot.revoked = s.boot.revoked := by
  unfold command
  try dsimp only
  repeat' split
  all_goals simp_all

theorem ownWrite_keeps (o : Origin) (addr : Nat) (body : State → State × Nat) (s : State)
    (h : ∀ x0, (body x0).1.pending = x0.pending ∧
      (body x0).1.boot.straps = x0.boot.straps ∧
      (body x0).1.boot.revoked = x0.boot.revoked) :
    (ownWrite o addr body s).pending = s.pending ∧ (ownWrite o addr body s).boot.straps = s.boot.straps ∧
    (ownWrite o addr body s).boot.revoked = s.boot.revoked := by
  unfold ownWrite
  try dsimp only
  repeat' split
  all_goals simp_all

theorem readAccess_keeps (o : Origin) (addr : Nat) (body : State → State × Word) (s : State)
    (h : ∀ x0, (body x0).1.pending = x0.pending ∧
      (body x0).1.boot.straps = x0.boot.straps ∧
      (body x0).1.boot.revoked = x0.boot.revoked) :
    (readAccess o addr body s).pending = s.pending ∧ (readAccess o addr body s).boot.straps = s.boot.straps ∧
    (readAccess o addr body s).boot.revoked = s.boot.revoked := by
  unfold readAccess
  try dsimp only
  repeat' split
  all_goals simp_all

end Sys2Proof.Machine
end

