-- ==== Sys2Proof/Laws/KeepPon.lean ====
section
/-! SUPPORT. What each operation of Machine/Pon.lean leaves alone. -/

namespace Sys2Proof.Machine

@[simp] theorem onuBump_keeps (s : State) (p i j n : Nat) :
    (onuBump s p i j n).pending = s.pending ∧ (onuBump s p i j n).boot.straps = s.boot.straps ∧
    (onuBump s p i j n).boot.revoked = s.boot.revoked := by
  unfold onuBump
  try dsimp only
  repeat' split
  all_goals simp

@[simp] theorem dsBump_keeps (s : State) (p c i j k n : Nat) :
    (dsBump s p c i j k n).pending = s.pending ∧ (dsBump s p c i j k n).boot.straps = s.boot.straps ∧
    (dsBump s p c i j k n).boot.revoked = s.boot.revoked := by
  unfold dsBump
  try dsimp only
  repeat' split
  all_goals simp

@[simp] theorem refreshUse_keeps (s : State) (p : Nat) :
    (refreshUse s p).pending = s.pending ∧ (refreshUse s p).boot.straps = s.boot.straps ∧
    (refreshUse s p).boot.revoked = s.boot.revoked := by
  unfold refreshUse
  try dsimp only
  repeat' split
  all_goals simp

@[simp] theorem putOnu_keeps (s : State) (p i : Nat) (r : OnuRec) :
    (putOnu s p i r).pending = s.pending ∧ (putOnu s p i r).boot.straps = s.boot.straps ∧
    (putOnu s p i r).boot.revoked = s.boot.revoked := by
  unfold putOnu
  try dsimp only
  repeat' split
  all_goals simp

@[simp] theorem surveyStart_keeps (s : State) (p c : Nat) :
    (surveyStart s p c).pending = s.pending ∧ (surveyStart s p c).boot.straps = s.boot.straps ∧
    (surveyStart s p c).boot.revoked = s.boot.revoked := by
  unfold surveyStart
  try dsimp only
  repeat' split
  all_goals simp

@[simp] theorem surveyBase_keeps (s : State) (p c : Nat) :
    (surveyBase s p c).pending = s.pending ∧ (surveyBase s p c).boot.straps = s.boot.straps ∧
    (surveyBase s p c).boot.revoked = s.boot.revoked := by
  unfold surveyBase
  try dsimp only
  repeat' split
  all_goals simp

@[simp] theorem pushUrgent_keeps (s : State) (p c : Nat) (m : Ploam) :
    (pushUrgent s p c m).pending = s.pending ∧ (pushUrgent s p c m).boot.straps = s.boot.straps ∧
    (pushUrgent s p c m).boot.revoked = s.boot.revoked := by
  unfold pushUrgent
  try dsimp only
  repeat' split
  all_goals simp

@[simp] theorem sendTo_keeps (s : State) (p i : Nat) (b : PloamBody) :
    (sendTo s p i b).pending = s.pending ∧ (sendTo s p i b).boot.straps = s.boot.straps ∧
    (sendTo s p i b).boot.revoked = s.boot.revoked := by
  unfold sendTo
  try dsimp only
  repeat' split
  all_goals simp

@[simp] theorem sendDeact_keeps (s : State) (p i : Nat) :
    (sendDeact s p i).pending = s.pending ∧ (sendDeact s p i).boot.straps = s.boot.straps ∧
    (sendDeact s p i).boot.revoked = s.boot.revoked := by
  unfold sendDeact
  try dsimp only
  repeat' split
  all_goals simp

@[simp] theorem startDeact_keeps (s : State) (p i : Nat) :
    (startDeact s p i).pending = s.pending ∧ (startDeact s p i).boot.straps = s.boot.straps ∧
    (startDeact s p i).boot.revoked = s.boot.revoked := by
  unfold startDeact
  try dsimp only
  repeat' split
  all_goals simp

@[simp] theorem reportDefect_keeps (s : State) (p i d : Nat) (raised : Bool) :
    (reportDefect s p i d raised).pending = s.pending ∧ (reportDefect s p i d raised).boot.straps = s.boot.straps ∧
    (reportDefect s p i d raised).boot.revoked = s.boot.revoked := by
  unfold reportDefect
  try dsimp only
  repeat' split
  all_goals simp

@[simp] theorem syncReports_keeps (s : State) (p i : Nat) :
    (syncReports s p i).pending = s.pending ∧ (syncReports s p i).boot.straps = s.boot.straps ∧
    (syncReports s p i).boot.revoked = s.boot.revoked := by
  unfold syncReports
  try dsimp only
  repeat' split
  all_goals simp

@[simp] theorem detect_keeps (s : State) (p i d : Nat) :
    (detect s p i d).pending = s.pending ∧ (detect s p i d).boot.straps = s.boot.straps ∧
    (detect s p i d).boot.revoked = s.boot.revoked := by
  unfold detect
  try dsimp only
  repeat' split
  all_goals simp

@[simp] theorem undetect_keeps (s : State) (p i d : Nat) :
    (undetect s p i d).pending = s.pending ∧ (undetect s p i d).boot.straps = s.boot.straps ∧
    (undetect s p i d).boot.revoked = s.boot.revoked := by
  unfold undetect
  try dsimp only
  repeat' split
  all_goals simp

@[simp] theorem invalidatePhase_keeps (s : State) (p c i : Nat) :
    (invalidatePhase s p c i).pending = s.pending ∧ (invalidatePhase s p c i).boot.straps = s.boot.straps ∧
    (invalidatePhase s p c i).boot.revoked = s.boot.revoked := by
  unfold invalidatePhase
  try dsimp only
  repeat' split
  all_goals simp

@[simp] theorem setOnuState_keeps (s : State) (p i st : Nat) :
    (setOnuState s p i st).pending = s.pending ∧ (setOnuState s p i st).boot.straps = s.boot.straps ∧
    (setOnuState s p i st).boot.revoked = s.boot.revoked := by
  unfold setOnuState
  try dsimp only
  repeat' split
  all_goals simp

@[simp] theorem raiseDefect_keeps (s : State) (p i d : Nat) :
    (raiseDefect s p i d).pending = s.pending ∧ (raiseDefect s p i d).boot.straps = s.boot.straps ∧
    (raiseDefect s p i d).boot.revoked = s.boot.revoked := by
  unfold raiseDefect
  try dsimp only
  repeat' split
  all_goals simp

@[simp] theorem clearDefect_keeps (s : State) (p i d : Nat) :
    (clearDefect s p i d).pending = s.pending ∧ (clearDefect s p i d).boot.straps = s.boot.straps ∧
    (clearDefect s p i d).boot.revoked = s.boot.revoked := by
  unfold clearDefect
  try dsimp only
  repeat' split
  all_goals simp

@[simp] theorem dropDefects_keeps (s : State) (p i : Nat) :
    (dropDefects s p i).pending = s.pending ∧ (dropDefects s p i).boot.straps = s.boot.straps ∧
    (dropDefects s p i).boot.revoked = s.boot.revoked := by
  unfold dropDefects
  try dsimp only
  repeat' split
  all_goals simp

@[simp] theorem clearRanging_keeps (s : State) (p i : Nat) :
    (clearRanging s p i).pending = s.pending ∧ (clearRanging s p i).boot.straps = s.boot.straps ∧
    (clearRanging s p i).boot.revoked = s.boot.revoked := by
  unfold clearRanging
  try dsimp only
  repeat' split
  all_goals simp

@[simp] theorem enterDeact_keeps (s : State) (p i : Nat) :
    (enterDeact s p i).pending = s.pending ∧ (enterDeact s p i).boot.straps = s.boot.straps ∧
    (enterDeact s p i).boot.revoked = s.boot.revoked := by
  unfold enterDeact
  try dsimp only
  repeat' split
  all_goals simp

@[simp] theorem deactComplete_keeps (s : State) (p i : Nat) :
    (deactComplete s p i).pending = s.pending ∧ (deactComplete s p i).boot.straps = s.boot.straps ∧
    (deactComplete s p i).boot.revoked = s.boot.revoked := by
  unfold deactComplete
  try dsimp only
  repeat' split
  all_goals simp

@[simp] theorem resetRecord_keeps (s : State) (p i : Nat) :
    (resetRecord s p i).pending = s.pending ∧ (resetRecord s p i).boot.straps = s.boot.straps ∧
    (resetRecord s p i).boot.revoked = s.boot.revoked := by
  unfold resetRecord
  try dsimp only
  repeat' split
  all_goals simp

@[simp] theorem enterSnm_keeps (s : State) (p i : Nat) :
    (enterSnm s p i).pending = s.pending ∧ (enterSnm s p i).boot.straps = s.boot.straps ∧
    (enterSnm s p i).boot.revoked = s.boot.revoked := by
  unfold enterSnm
  try dsimp only
  repeat' split
  all_goals simp

@[simp] theorem reportLosCh_keeps (s : State) (p c : Nat) (raised : Bool) :
    (reportLosCh s p c raised).pending = s.pending ∧ (reportLosCh s p c raised).boot.straps = s.boot.straps ∧
    (reportLosCh s p c raised).boot.revoked = s.boot.revoked := by
  unfold reportLosCh
  try dsimp only
  repeat' split
  all_goals simp

@[simp] theorem noteLight_keeps (s : State) (p : Nat) (light : Bool) :
    (noteLight s p light).pending = s.pending ∧ (noteLight s p light).boot.straps = s.boot.straps ∧
    (noteLight s p light).boot.revoked = s.boot.revoked := by
  unfold noteLight
  try dsimp only
  repeat' split
  all_goals simp

end Sys2Proof.Machine
end

