-- ==== Sys2Proof/Laws/KeepOffsets.lean ====
section
/-! SUPPORT. What each operation of Machine/Offsets.lean leaves alone. -/

namespace Sys2Proof.Machine

@[simp] theorem publishGuards_keeps (s : State) (p c : Nat) :
    (publishGuards s p c).pending = s.pending ∧ (publishGuards s p c).boot.straps = s.boot.straps ∧
    (publishGuards s p c).boot.revoked = s.boot.revoked := by
  unfold publishGuards
  try dsimp only
  repeat' split
  all_goals simp

@[simp] theorem publishSurveyLen_keeps (s : State) (p c : Nat) :
    (publishSurveyLen s p c).pending = s.pending ∧ (publishSurveyLen s p c).boot.straps = s.boot.straps ∧
    (publishSurveyLen s p c).boot.revoked = s.boot.revoked := by
  unfold publishSurveyLen
  try dsimp only
  repeat' split
  all_goals simp

@[simp] theorem refreshSuppressed_keeps (s : State) (p c : Nat) :
    (refreshSuppressed s p c).pending = s.pending ∧ (refreshSuppressed s p c).boot.straps = s.boot.straps ∧
    (refreshSuppressed s p c).boot.revoked = s.boot.revoked := by
  unfold refreshSuppressed
  try dsimp only
  repeat' split
  all_goals simp

@[simp] theorem publishOfsFrames_keeps (s : State) (p : Nat) :
    (publishOfsFrames s p).pending = s.pending ∧ (publishOfsFrames s p).boot.straps = s.boot.straps ∧
    (publishOfsFrames s p).boot.revoked = s.boot.revoked := by
  unfold publishOfsFrames
  try dsimp only
  repeat' split
  all_goals simp

@[simp] theorem publishUsOffset_keeps (s : State) (p c : Nat) :
    (publishUsOffset s p c).pending = s.pending ∧ (publishUsOffset s p c).boot.straps = s.boot.straps ∧
    (publishUsOffset s p c).boot.revoked = s.boot.revoked := by
  unfold publishUsOffset
  try dsimp only
  repeat' split
  all_goals simp

@[simp] theorem publishPpu_keeps (s : State) (p c : Nat) :
    (publishPpu s p c).pending = s.pending ∧ (publishPpu s p c).boot.straps = s.boot.straps ∧
    (publishPpu s p c).boot.revoked = s.boot.revoked := by
  unfold publishPpu
  try dsimp only
  repeat' split
  all_goals simp

end Sys2Proof.Machine
end

