-- ==== Sys2Proof/Laws/KeepBuffers.lean ====
section
/-! SUPPORT. What each operation of Machine/Buffers.lean leaves alone. -/

namespace Sys2Proof.Machine

@[simp] theorem publishPools_keeps (s : State) :
    (publishPools s).pending = s.pending ∧ (publishPools s).boot.straps = s.boot.straps ∧
    (publishPools s).boot.revoked = s.boot.revoked := by
  unfold publishPools
  try dsimp only
  repeat' split
  all_goals simp

@[simp] theorem settlePools_keeps (before s : State) :
    (settlePools before s).pending = s.pending ∧ (settlePools before s).boot.straps = s.boot.straps ∧
    (settlePools before s).boot.revoked = s.boot.revoked := by
  unfold settlePools
  try dsimp only
  repeat' split
  all_goals simp

@[simp] theorem noteReserve_keeps (s : State) :
    (noteReserve s).pending = s.pending ∧ (noteReserve s).boot.straps = s.boot.straps ∧
    (noteReserve s).boot.revoked = s.boot.revoked := by
  unfold noteReserve
  try dsimp only
  repeat' split
  all_goals simp

@[simp] theorem newBuf_keeps (s : State) (h tag : Nat) :
    (newBuf s h tag).pending = s.pending ∧ (newBuf s h tag).boot.straps = s.boot.straps ∧
    (newBuf s h tag).boot.revoked = s.boot.revoked := by
  unfold newBuf
  try dsimp only
  repeat' split
  all_goals simp

theorem allocOne_keeps (s : State) (r tag pool tier : Nat) (x : Nat × State)
    (h : allocOne s r tag pool tier = some x) :
    x.2.pending = s.pending ∧
    x.2.boot.straps = s.boot.straps ∧
    x.2.boot.revoked = s.boot.revoked := by
  unfold allocOne at h
  simp only at h
  repeat' split at h
  all_goals simp only [Option.map_eq_some_iff, Option.some.injEq, reduceCtorEq] at h
  all_goals first | (obtain ⟨_, _, rfl⟩ := h; (try split) <;> simp) | (subst h; simp)

theorem allocFit_keeps (s : State) (r tag tier n : Nat) (x : Nat × State)
    (h : allocFit s r tag tier n = some x) :
    x.2.pending = s.pending ∧
    x.2.boot.straps = s.boot.straps ∧
    x.2.boot.revoked = s.boot.revoked := by
  have go : ∀ q y, (if waitQ s q = [] then
        (allocOne s r tag q tier).map (fun x => (x.1, note x.2 pgBPM BPM_F_PROMOTED BPM_C_PROMOTED)) else none) = some y →
      y.2.pending = s.pending ∧ y.2.boot.straps = s.boot.straps ∧ y.2.boot.revoked = s.boot.revoked := by
    intro q y hy
    split at hy <;> [skip; cases hy]
    obtain ⟨z, hz, rfl⟩ := Option.map_eq_some_iff.mp hy
    have := allocOne_keeps _ _ _ _ _ _ hz
    simp [this]
  unfold allocFit at h
  simp only at h
  split at h
  · rename_i y hy
    cases h
    exact allocOne_keeps _ _ _ _ _ _ hy
  · split at h
    · split at h
      · rename_i y hy
        cases h
        exact go _ _ hy
      · split at h
        · exact go _ _ h
        · cases h
    · cases h

theorem allocChain_keeps (r tag tier k : Nat) (s : State) (n : Nat) (x : List Nat × State)
    (h : allocChain r tag tier k s n = some x) :
    x.2.pending = s.pending ∧
    x.2.boot.straps = s.boot.straps ∧
    x.2.boot.revoked = s.boot.revoked := by
  induction k generalizing s n x with
  | zero => cases h
  | succ k ih =>
    simp only [allocChain] at h
    split at h
    · cases h
    · rename_i a s1 ha
      have hk := allocFit_keeps _ _ _ _ _ _ ha
      split at h <;> split at h
      all_goals first
        | (cases h; exact hk)
        | (obtain ⟨y, hy, rfl⟩ := Option.map_eq_some_iff.mp h
           have := ih _ _ _ hy
           simp_all)

theorem allocBytes_keeps (s : State) (r tag tier n : Nat) (x : Nat × State)
    (h : allocBytes s r tag tier n = some x) :
    x.2.pending = s.pending ∧
    x.2.boot.straps = s.boot.straps ∧
    x.2.boot.revoked = s.boot.revoked := by
  unfold allocBytes at h
  split at h
  · rename_i a l s1 ha
    have hk := allocChain_keeps _ _ _ _ _ _ _ ha
    cases h
    simp_all
  · cases h

theorem askBytes_keeps (s : State) (r tag tier n : Nat) (x : Nat × State)
    (h : askBytes s r tag tier n = some x) :
    x.2.pending = s.pending ∧ x.2.boot.straps = s.boot.straps ∧ x.2.boot.revoked = s.boot.revoked := by
  unfold askBytes at h
  split at h
  · cases h
  · exact allocBytes_keeps _ _ _ _ _ _ h

@[simp] theorem waitOrRefuse_keeps (s : State) (w : WaitReq) :
    (waitOrRefuse s w).1.pending = s.pending ∧ (waitOrRefuse s w).1.boot.straps = s.boot.straps ∧
    (waitOrRefuse s w).1.boot.revoked = s.boot.revoked := by
  unfold waitOrRefuse
  try dsimp only
  repeat' split
  all_goals simp

@[simp] theorem unchain_keeps (s : State) (h : Nat) :
    (unchain s h).pending = s.pending ∧ (unchain s h).boot.straps = s.boot.straps ∧
    (unchain s h).boot.revoked = s.boot.revoked := by
  unfold unchain
  try dsimp only
  repeat' split
  all_goals simp

@[simp] theorem clearChain_keeps (s : State) (h : Nat) :
    (clearChain s h).pending = s.pending ∧ (clearChain s h).boot.straps = s.boot.straps ∧
    (clearChain s h).boot.revoked = s.boot.revoked := by
  unfold clearChain
  try dsimp only
  repeat' split
  all_goals simp

@[simp] theorem releaseBuf_keeps (s : State) (h : Nat) :
    (releaseBuf s h).pending = s.pending ∧ (releaseBuf s h).boot.straps = s.boot.straps ∧
    (releaseBuf s h).boot.revoked = s.boot.revoked := by
  unfold releaseBuf
  try dsimp only
  repeat' split
  all_goals simp

@[simp] theorem logBad_keeps (s : State) (h party : Nat) :
    (logBad s h party).pending = s.pending ∧ (logBad s h party).boot.straps = s.boot.straps ∧
    (logBad s h party).boot.revoked = s.boot.revoked := by
  unfold logBad
  try dsimp only
  repeat' split
  all_goals simp

@[simp] theorem setRefs_keeps (s : State) (h tag : Nat) (l : List Nat) :
    (setRefs s h tag l).pending = s.pending ∧ (setRefs s h tag l).boot.straps = s.boot.straps ∧
    (setRefs s h tag l).boot.revoked = s.boot.revoked := by
  unfold setRefs
  try dsimp only
  repeat' split
  all_goals simp

@[simp] theorem dropRef_keeps (s : State) (h party : Nat) :
    (dropRef s h party).pending = s.pending ∧ (dropRef s h party).boot.straps = s.boot.straps ∧
    (dropRef s h party).boot.revoked = s.boot.revoked := by
  unfold dropRef
  try dsimp only
  repeat' split
  all_goals simp

@[simp] theorem freeBuf_keeps (s : State) (h party : Nat) (free : Bool) :
    (freeBuf s h party free).pending = s.pending ∧ (freeBuf s h party free).boot.straps = s.boot.straps ∧
    (freeBuf s h party free).boot.revoked = s.boot.revoked := by
  unfold freeBuf
  try dsimp only
  repeat' split
  all_goals simp

@[simp] theorem addRef_keeps (s : State) (h party : Nat) :
    (addRef s h party).1.pending = s.pending ∧ (addRef s h party).1.boot.straps = s.boot.straps ∧
    (addRef s h party).1.boot.revoked = s.boot.revoked := by
  unfold addRef
  try dsimp only
  repeat' split
  all_goals simp

@[simp] theorem passBuf_keeps (s : State) (h party heir : Nat) :
    (passBuf s h party heir).pending = s.pending ∧ (passBuf s h party heir).boot.straps = s.boot.straps ∧
    (passBuf s h party heir).boot.revoked = s.boot.revoked := by
  unfold passBuf
  try dsimp only
  repeat' split
  all_goals simp

@[simp] theorem dropAll_keeps (s : State) (h party : Nat) :
    (dropAll s h party).pending = s.pending ∧ (dropAll s h party).boot.straps = s.boot.straps ∧
    (dropAll s h party).boot.revoked = s.boot.revoked := by
  unfold dropAll
  try dsimp only
  repeat' split
  all_goals simp

@[simp] theorem reclaimBufs_keeps (s : State) (party : Nat) :
    (reclaimBufs s party).1.pending = s.pending ∧ (reclaimBufs s party).1.boot.straps = s.boot.straps ∧
    (reclaimBufs s party).1.boot.revoked = s.boot.revoked := by
  unfold reclaimBufs
  try dsimp only
  repeat' split
  all_goals simp

end Sys2Proof.Machine
end

