-- ==== Sys2Proof/Laws/KeepHexline.lean ====
section
/-! SUPPORT. What each operation of Machine/Hexline.lean leaves alone. -/

namespace Sys2Proof.Machine

@[simp] theorem sendBlocks_keeps (s : State) (m : Nat) (l : List (Nat × Nat)) :
    (sendBlocks s m l).pending = s.pending ∧ (sendBlocks s m l).boot.straps = s.boot.straps ∧
    (sendBlocks s m l).boot.revoked = s.boot.revoked := by
  unfold sendBlocks
  try dsimp only
  repeat' split
  all_goals simp

end Sys2Proof.Machine
end

