-- ==== Sys2Proof/Laws/KeepReset.lean ====
section
/-! SUPPORT. What each operation of Machine/Reset.lean leaves alone. -/

namespace Sys2Proof.Machine

@[simp] theorem resetPage_keeps (s : State) (base : Nat) :
    (resetPage s base).pending = s.pending ∧ (resetPage s base).boot.straps = s.boot.straps ∧
    (resetPage s base).boot.revoked = s.boot.revoked := by
  unfold resetPage
  try dsimp only
  repeat' split
  all_goals simp

@[simp] theorem showUses_keeps (s : State) (l n : Nat) :
    (showUses s l n).pending = s.pending ∧ (showUses s l n).boot.straps = s.boot.straps ∧
    (showUses s l n).boot.revoked = s.boot.revoked := by
  unfold showUses
  try dsimp only
  repeat' split
  all_goals simp

@[simp] theorem loadEngFuses_keeps (s : State) (k : Nat) :
    (loadEngFuses s k).pending = s.pending ∧ (loadEngFuses s k).boot.straps = s.boot.straps ∧
    (loadEngFuses s k).boot.revoked = s.boot.revoked := by
  unfold loadEngFuses
  try dsimp only
  repeat' split
  all_goals simp

@[simp] theorem loadCal_keeps (s : State) (kind i : Nat) (v : Nat × Nat) :
    (loadCal s kind i v).pending = s.pending ∧ (loadCal s kind i v).boot.straps = s.boot.straps ∧
    (loadCal s kind i v).boot.revoked = s.boot.revoked := by
  unfold loadCal
  try dsimp only
  repeat' split
  all_goals simp

@[simp] theorem reloadCal_keeps (s : State) (kind i : Nat) :
    (reloadCal s kind i).pending = s.pending ∧ (reloadCal s kind i).boot.straps = s.boot.straps ∧
    (reloadCal s kind i).boot.revoked = s.boot.revoked := by
  unfold reloadCal
  try dsimp only
  repeat' split
  all_goals simp

@[simp] theorem resetLane_keeps (s : State) (l : Nat) :
    (resetLane s l).pending = s.pending ∧ (resetLane s l).boot.straps = s.boot.straps ∧
    (resetLane s l).boot.revoked = s.boot.revoked := by
  unfold resetLane
  try dsimp only
  repeat' split
  all_goals simp

@[simp] theorem clearChannel_keeps (s : State) (p c : Nat) :
    (clearChannel s p c).pending = s.pending ∧ (clearChannel s p c).boot.straps = s.boot.straps ∧
    (clearChannel s p c).boot.revoked = s.boot.revoked := by
  unfold clearChannel
  try dsimp only
  repeat' split
  all_goals simp

@[simp] theorem resetChannel_keeps (s : State) (p c : Nat) :
    (resetChannel s p c).pending = s.pending ∧ (resetChannel s p c).boot.straps = s.boot.straps ∧
    (resetChannel s p c).boot.revoked = s.boot.revoked := by
  unfold resetChannel
  try dsimp only
  repeat' split
  all_goals simp

@[simp] theorem setPairState_keeps (s : State) (p st : Nat) :
    (setPairState s p st).pending = s.pending ∧ (setPairState s p st).boot.straps = s.boot.straps ∧
    (setPairState s p st).boot.revoked = s.boot.revoked := by
  unfold setPairState
  try dsimp only
  repeat' split
  all_goals simp

@[simp] theorem beginTakeover_keeps (s : State) (p due : Nat) :
    (beginTakeover s p due).pending = s.pending ∧ (beginTakeover s p due).boot.straps = s.boot.straps ∧
    (beginTakeover s p due).boot.revoked = s.boot.revoked := by
  unfold beginTakeover
  try dsimp only
  repeat' split
  all_goals simp

@[simp] theorem darkPair_keeps (s : State) (p : Nat) :
    (darkPair s p).pending = s.pending ∧ (darkPair s p).boot.straps = s.boot.straps ∧
    (darkPair s p).boot.revoked = s.boot.revoked := by
  unfold darkPair
  try dsimp only
  repeat' split
  all_goals simp

@[simp] theorem darkLocalPeer_keeps (s : State) (p : Nat) :
    (darkLocalPeer s p).pending = s.pending ∧ (darkLocalPeer s p).boot.straps = s.boot.straps ∧
    (darkLocalPeer s p).boot.revoked = s.boot.revoked := by
  unfold darkLocalPeer
  try dsimp only
  repeat' split
  all_goals simp

@[simp] theorem pairAfterReset_keeps (s : State) (p : Nat) :
    (pairAfterReset s p).pending = s.pending ∧ (pairAfterReset s p).boot.straps = s.boot.straps ∧
    (pairAfterReset s p).boot.revoked = s.boot.revoked := by
  unfold pairAfterReset
  try dsimp only
  repeat' split
  all_goals simp

@[simp] theorem resetPort_keeps (s : State) (p : Nat) :
    (resetPort s p).pending = s.pending ∧ (resetPort s p).boot.straps = s.boot.straps ∧
    (resetPort s p).boot.revoked = s.boot.revoked := by
  unfold resetPort
  try dsimp only
  repeat' split
  all_goals simp

@[simp] theorem showCtx_keeps (s : State) (k : Nat) :
    (showCtx s k).pending = s.pending ∧ (showCtx s k).boot.straps = s.boot.straps ∧
    (showCtx s k).boot.revoked = s.boot.revoked := by
  unfold showCtx
  try dsimp only
  repeat' split
  all_goals simp

@[simp] theorem setCtx_keeps (s : State) (c : CtxId) (x : Ctx) :
    (setCtx s c x).pending = s.pending ∧ (setCtx s c x).boot.straps = s.boot.straps ∧
    (setCtx s c x).boot.revoked = s.boot.revoked := by
  unfold setCtx
  try dsimp only
  repeat' split
  all_goals simp

@[simp] theorem showRdr_keeps (s : State) (k : Nat) :
    (showRdr s k).pending = s.pending ∧ (showRdr s k).boot.straps = s.boot.straps ∧
    (showRdr s k).boot.revoked = s.boot.revoked := by
  unfold showRdr
  try dsimp only
  repeat' split
  all_goals simp

@[simp] theorem showSlots_keeps (s : State) (k : Nat) :
    (showSlots s k).pending = s.pending ∧ (showSlots s k).boot.straps = s.boot.straps ∧
    (showSlots s k).boot.revoked = s.boot.revoked := by
  unfold showSlots
  try dsimp only
  repeat' split
  all_goals simp

@[simp] theorem freeVerdict_keeps (s : State) (v : Verdict) :
    (freeVerdict s v).pending = s.pending ∧ (freeVerdict s v).boot.straps = s.boot.straps ∧
    (freeVerdict s v).boot.revoked = s.boot.revoked := by
  unfold freeVerdict
  try dsimp only
  repeat' split
  all_goals simp

@[simp] theorem resetRdr_keeps (s : State) (k : Nat) :
    (resetRdr s k).pending = s.pending ∧ (resetRdr s k).boot.straps = s.boot.straps ∧
    (resetRdr s k).boot.revoked = s.boot.revoked := by
  unfold resetRdr
  try dsimp only
  repeat' split
  all_goals simp

@[simp] theorem resetCluster_keeps (s : State) (k : Nat) :
    (resetCluster s k).pending = s.pending ∧
    (resetCluster s k).boot.straps = s.boot.straps ∧
    (resetCluster s k).boot.revoked = s.boot.revoked := by
  unfold resetCluster
  simp only [loadEngFuses_keeps, resetRdr_keeps, setCluster_frame, setFld_frame, resetPage_keeps, and_self]

@[simp] theorem resetExpander_keeps (s : State) (x : Nat) :
    (resetExpander s x).pending = s.pending ∧ (resetExpander s x).boot.straps = s.boot.straps ∧
    (resetExpander s x).boot.revoked = s.boot.revoked := by
  unfold resetExpander
  try dsimp only
  repeat' split
  all_goals simp

@[simp] theorem resetNotice_keeps (s : State) (m : Nat) :
    (resetNotice s m).pending = s.pending ∧ (resetNotice s m).boot.straps = s.boot.straps ∧
    (resetNotice s m).boot.revoked = s.boot.revoked := by
  unfold resetNotice
  try dsimp only
  repeat' split
  all_goals simp

@[simp] theorem resetLink_keeps (s : State) (m : Nat) :
    (resetLink s m).pending = s.pending ∧ (resetLink s m).boot.straps = s.boot.straps ∧
    (resetLink s m).boot.revoked = s.boot.revoked := by
  unfold resetLink
  try dsimp only
  repeat' split
  all_goals simp

@[simp] theorem beginFlush_keeps (s : State) (cause : Nat) :
    (beginFlush s cause).pending = s.pending ∧ (beginFlush s cause).boot.straps = s.boot.straps ∧
    (beginFlush s cause).boot.revoked = s.boot.revoked := by
  unfold beginFlush
  try dsimp only
  repeat' split
  all_goals simp

@[simp] theorem darkNotices_keeps (s : State) :
    (darkNotices s).pending = s.pending ∧ (darkNotices s).boot.straps = s.boot.straps ∧
    (darkNotices s).boot.revoked = s.boot.revoked := by
  unfold darkNotices
  try dsimp only
  repeat' split
  all_goals simp

@[simp] theorem showStraps_keeps (s : State) :
    (showStraps s).pending = s.pending ∧ (showStraps s).boot.straps = s.boot.straps ∧
    (showStraps s).boot.revoked = s.boot.revoked := by
  unfold showStraps
  try dsimp only
  repeat' split
  all_goals simp

@[simp] theorem resetChip_keeps (s : State) (cause : Nat) :
    (resetChip s cause).pending = s.pending ∧ (resetChip s cause).boot.straps = s.boot.straps ∧
    (resetChip s cause).boot.revoked = s.boot.revoked := by
  unfold resetChip
  try dsimp only
  repeat' split
  all_goals simp

end Sys2Proof.Machine
end

