-- ==== Sys2Proof/Laws/KeepFault.lean ====
section
/-! SUPPORT. What each operation of Machine/Fault.lean leaves alone. -/

namespace Sys2Proof.Machine

@[simp] theorem refreshPins_keeps (s : State) :
    (refreshPins s).pending = s.pending ∧ (refreshPins s).boot.straps = s.boot.straps ∧
    (refreshPins s).boot.revoked = s.boot.revoked := by
  unfold refreshPins
  try dsimp only
  repeat' split
  all_goals simp

@[simp] theorem setSource_keeps (s : State) (j : Nat) :
    (setSource s j).pending = s.pending ∧ (setSource s j).boot.straps = s.boot.straps ∧
    (setSource s j).boot.revoked = s.boot.revoked := by
  unfold setSource
  try dsimp only
  repeat' split
  all_goals simp

@[simp] theorem fenceCtx_keeps (s : State) (c : CtxId) :
    (fenceCtx s c).pending = s.pending ∧ (fenceCtx s c).boot.straps = s.boot.straps ∧
    (fenceCtx s c).boot.revoked = s.boot.revoked := by
  unfold fenceCtx
  try dsimp only
  repeat' split
  all_goals simp

@[simp] theorem fence_keeps (s : State) (q : Party) :
    (fence s q).pending = s.pending ∧ (fence s q).boot.straps = s.boot.straps ∧ (fence s q).boot.revoked = s.boot.revoked := by
  unfold fence
  try dsimp only
  repeat' split
  all_goals simp

@[simp] theorem fillSlot_keeps (s : State) (src seq : Nat) (v : Verdict) :
    (fillSlot s src seq v).pending = s.pending ∧ (fillSlot s src seq v).boot.straps = s.boot.straps ∧
    (fillSlot s src seq v).boot.revoked = s.boot.revoked := by
  unfold fillSlot
  try dsimp only
  repeat' split
  all_goals simp

@[simp] theorem dropRequests_keeps (s : State) (c : CtxId) :
    (dropRequests s c).1.pending = s.pending ∧ (dropRequests s c).1.boot.straps = s.boot.straps ∧
    (dropRequests s c).1.boot.revoked = s.boot.revoked := by
  unfold dropRequests
  try dsimp only
  repeat' split
  all_goals simp

@[simp] theorem skipSlot_keeps (s : State) (c : CtxId) :
    (skipSlot s c).1.pending = s.pending ∧ (skipSlot s c).1.boot.straps = s.boot.straps ∧
    (skipSlot s c).1.boot.revoked = s.boot.revoked := by
  unfold skipSlot
  try dsimp only
  repeat' split
  all_goals simp

@[simp] theorem reclaimCtx_keeps (s : State) (c : CtxId) :
    (reclaimCtx s c).1.pending = s.pending ∧ (reclaimCtx s c).1.boot.straps = s.boot.straps ∧
    (reclaimCtx s c).1.boot.revoked = s.boot.revoked := by
  unfold reclaimCtx
  try dsimp only
  repeat' split
  all_goals simp

@[simp] theorem faultRecord_keeps (s : State) (src tag bufs locks slots : Nat) :
    (faultRecord s src tag bufs locks slots).pending = s.pending ∧
    (faultRecord s src tag bufs locks slots).boot.straps = s.boot.straps ∧
    (faultRecord s src tag bufs locks slots).boot.revoked = s.boot.revoked := by
  unfold faultRecord
  try dsimp only
  repeat' split
  all_goals simp

@[simp] theorem reclaimParty_keeps (s : State) (src : Nat) (q : Party) :
    (reclaimParty s src q).pending = s.pending ∧ (reclaimParty s src q).boot.straps = s.boot.straps ∧
    (reclaimParty s src q).boot.revoked = s.boot.revoked := by
  unfold reclaimParty
  try dsimp only
  repeat' split
  all_goals simp

@[simp] theorem Scope.reset_keeps (s : State) (x : Scope) :
    (Scope.reset s x).pending = s.pending ∧
    (Scope.reset s x).boot.straps = s.boot.straps ∧
    (Scope.reset s x).boot.revoked = s.boot.revoked := by
  cases x <;> simp [Scope.reset]

@[simp] theorem mergeResets_keeps (s : State) (x : Scope) :
    (mergeResets s x).pending = s.pending ∧ (mergeResets s x).boot.straps = s.boot.straps ∧
    (mergeResets s x).boot.revoked = s.boot.revoked := by
  unfold mergeResets
  try dsimp only
  repeat' split
  all_goals simp

@[simp] theorem resetScope_keeps (s : State) (src : Nat) (x : Scope) (done : Option Party) :
    (resetScope s src x done).pending = s.pending ∧ (resetScope s src x done).boot.straps = s.boot.straps ∧
    (resetScope s src x done).boot.revoked = s.boot.revoked := by
  unfold resetScope
  try dsimp only
  repeat' split
  all_goals simp

@[simp] theorem blockReaction_keeps (s : State) (src : Nat) (q : Option Party) :
    (blockReaction s src q).pending = s.pending ∧ (blockReaction s src q).boot.straps = s.boot.straps ∧
    (blockReaction s src q).boot.revoked = s.boot.revoked := by
  unfold blockReaction
  try dsimp only
  repeat' split
  all_goals simp

@[simp] theorem lastReactions_keeps (s : State) (src : Nat) (q : Option Party) (merged : Bool) :
    (lastReactions s src q merged).pending = s.pending ∧ (lastReactions s src q merged).boot.straps = s.boot.straps ∧
    (lastReactions s src q merged).boot.revoked = s.boot.revoked := by
  unfold lastReactions
  try dsimp only
  repeat' split
  all_goals simp

@[simp] theorem showQueue_keeps (s : State) :
    (showQueue s).pending = s.pending ∧ (showQueue s).boot.straps = s.boot.straps ∧
    (showQueue s).boot.revoked = s.boot.revoked := by
  unfold showQueue
  try dsimp only
  repeat' split
  all_goals simp

@[simp] theorem enterQueue_keeps (s : State) (src : Nat) (q : Party) :
    (enterQueue s src q).pending = s.pending ∧ (enterQueue s src q).boot.straps = s.boot.straps ∧
    (enterQueue s src q).boot.revoked = s.boot.revoked := by
  unfold enterQueue
  try dsimp only
  repeat' split
  all_goals simp

@[simp] theorem notice_keeps (s : State) (src : Nat) (q : Option Party) :
    (notice s src q).pending = s.pending ∧ (notice s src q).boot.straps = s.boot.straps ∧
    (notice s src q).boot.revoked = s.boot.revoked := by
  unfold notice
  try dsimp only
  repeat' split
  all_goals simp

@[simp] theorem reclaimNext_keeps (s : State) :
    (reclaimNext s).pending = s.pending ∧ (reclaimNext s).boot.straps = s.boot.straps ∧
    (reclaimNext s).boot.revoked = s.boot.revoked := by
  unfold reclaimNext
  try dsimp only
  repeat' split
  all_goals simp

@[simp] theorem noteErr_keeps (s : State) (base : Nat) (f : Flag) :
    (noteErr s base f).pending = s.pending ∧ (noteErr s base f).boot.straps = s.boot.straps ∧
    (noteErr s base f).boot.revoked = s.boot.revoked := by
  unfold noteErr
  try dsimp only
  repeat' split
  all_goals simp

@[simp] theorem checkedAccess_keeps (s : State) (base : Nat) :
    (checkedAccess s base).1.pending = s.pending ∧ (checkedAccess s base).1.boot.straps = s.boot.straps ∧
    (checkedAccess s base).1.boot.revoked = s.boot.revoked := by
  unfold checkedAccess
  try dsimp only
  repeat' split
  all_goals simp

@[simp] theorem showBanks_keeps (s : State) :
    (showBanks s).pending = s.pending ∧ (showBanks s).boot.straps = s.boot.straps ∧
    (showBanks s).boot.revoked = s.boot.revoked := by
  unfold showBanks
  try dsimp only
  repeat' split
  all_goals simp

@[simp] theorem wakeBank_keeps (s : State) (pg : Page) :
    (wakeBank s pg).pending = s.pending ∧ (wakeBank s pg).boot.straps = s.boot.straps ∧
    (wakeBank s pg).boot.revoked = s.boot.revoked := by
  unfold wakeBank
  try dsimp only
  repeat' split
  all_goals simp

@[simp] theorem ctxFault_keeps (s : State) (c : CtxId) (cause : Nat) :
    (ctxFault s c cause).pending = s.pending ∧ (ctxFault s c cause).boot.straps = s.boot.straps ∧
    (ctxFault s c cause).boot.revoked = s.boot.revoked := by
  unfold ctxFault
  try dsimp only
  repeat' split
  all_goals simp

@[simp] theorem beginAt_keeps (s : State) (c : CtxId) (t : Nat) :
    (beginAt s c t).pending = s.pending ∧ (beginAt s c t).boot.straps = s.boot.straps ∧
    (beginAt s c t).boot.revoked = s.boot.revoked := by
  unfold beginAt
  try dsimp only
  repeat' split
  all_goals simp

@[simp] theorem beginWork_keeps (s : State) (c : CtxId) (t : Nat) :
    (beginWork s c t).pending = s.pending ∧ (beginWork s c t).boot.straps = s.boot.straps ∧
    (beginWork s c t).boot.revoked = s.boot.revoked := by
  unfold beginWork
  try dsimp only
  repeat' split
  all_goals simp

end Sys2Proof.Machine
end

