-- ==== Sys2Proof/Laws/KeepChannel.lean ====
section
/-! SUPPORT. What each operation of Machine/Channel.lean leaves alone. -/

namespace Sys2Proof.Machine

theorem execPloamPush_keeps (o : Origin) (p : Fin 32) (c : Fin 3) (s : State) :
    ∃ z, execPloamPush o p c s = .next z ∧ z.pending = s.pending ∧ z.boot.straps = s.boot.straps ∧
    z.boot.revoked = s.boot.revoked := by
  unfold execPloamPush
  try dsimp only
  repeat' split
  all_goals first | (refine ⟨_, rfl, ?_⟩; simp; done) | (refine ⟨_, rfl, ?_⟩; (first | apply command_keeps); intros; (try dsimp only); (repeat' split) <;> simp_all)

@[simp] theorem retryPushes_keeps (p c : Nat) (l : List Ploam) (s : State) :
    (retryPushes p c l s).pending = s.pending ∧
    (retryPushes p c l s).boot.straps = s.boot.straps ∧
    (retryPushes p c l s).boot.revoked = s.boot.revoked := by
  induction l generalizing s with
  | nil => simp [retryPushes]
  | cons m l ih =>
    simp only [retryPushes]
    split <;> simp [ih]

theorem execPloamPushRetry_keeps (p : Fin 32) (c : Fin 3) (s : State) :
    ∃ z, execPloamPushRetry p c s = .next z ∧ z.pending = s.pending ∧ z.boot.straps = s.boot.straps ∧
    z.boot.revoked = s.boot.revoked := by
  unfold execPloamPushRetry
  try dsimp only
  repeat' split
  all_goals refine ⟨_, rfl, ?_⟩
  all_goals simp

@[simp] theorem dropPartial_keeps (s : State) (x : Nat) :
    (dropPartial s x).pending = s.pending ∧ (dropPartial s x).boot.straps = s.boot.straps ∧
    (dropPartial s x).boot.revoked = s.boot.revoked := by
  unfold dropPartial
  try dsimp only
  repeat' split
  all_goals simp

theorem execReasmTimeout_keeps (x : Fin 262144) (s : State) :
    ∃ z, execReasmTimeout x s = .next z ∧ z.pending = s.pending ∧ z.boot.straps = s.boot.straps ∧
    z.boot.revoked = s.boot.revoked := by
  unfold execReasmTimeout
  try dsimp only
  repeat' split
  all_goals refine ⟨_, rfl, ?_⟩
  all_goals simp

@[simp] theorem xpStat_keeps (s : State) (p : Nat) (own rej : Bool) :
    (xpStat s p own rej).pending = s.pending ∧ (xpStat s p own rej).boot.straps = s.boot.straps ∧
    (xpStat s p own rej).boot.revoked = s.boot.revoked := by
  unfold xpStat
  try dsimp only
  repeat' split
  all_goals simp

theorem execXpRead_keeps (o : Origin) (p : Fin 32) (s : State) :
    ∃ z, execXpRead o p s = .next z ∧ z.pending = s.pending ∧ z.boot.straps = s.boot.straps ∧ z.boot.revoked = s.boot.revoked := by
  unfold execXpRead
  try dsimp only
  repeat' split
  all_goals first | (refine ⟨_, rfl, ?_⟩; simp; done) | (refine ⟨_, rfl, ?_⟩; (first | apply command_keeps); intros; (try dsimp only); (repeat' split) <;> simp_all)

theorem execXpWrite_keeps (o : Origin) (p : Fin 32) (s : State) :
    ∃ z, execXpWrite o p s = .next z ∧ z.pending = s.pending ∧ z.boot.straps = s.boot.straps ∧ z.boot.revoked = s.boot.revoked := by
  unfold execXpWrite
  try dsimp only
  repeat' split
  all_goals first | (refine ⟨_, rfl, ?_⟩; simp; done) | (refine ⟨_, rfl, ?_⟩; (first | apply command_keeps); intros; (try dsimp only); (repeat' split) <;> simp_all)

theorem execXpInvalidate_keeps (o : Origin) (p : Fin 32) (s : State) :
    ∃ z, execXpInvalidate o p s = .next z ∧ z.pending = s.pending ∧ z.boot.straps = s.boot.straps ∧
    z.boot.revoked = s.boot.revoked := by
  unfold execXpInvalidate
  try dsimp only
  repeat' split
  all_goals first | (refine ⟨_, rfl, ?_⟩; simp; done) | (refine ⟨_, rfl, ?_⟩; (first | apply command_keeps); intros; (try dsimp only); (repeat' split) <;> simp_all)

@[simp] theorem onuStat_keeps (s : State) (p : Nat) (own rej : Bool) :
    (onuStat s p own rej).pending = s.pending ∧ (onuStat s p own rej).boot.straps = s.boot.straps ∧
    (onuStat s p own rej).boot.revoked = s.boot.revoked := by
  unfold onuStat
  try dsimp only
  repeat' split
  all_goals simp

theorem execOnuRead_keeps (o : Origin) (p : Fin 32) (s : State) :
    ∃ z, execOnuRead o p s = .next z ∧ z.pending = s.pending ∧ z.boot.straps = s.boot.straps ∧ z.boot.revoked = s.boot.revoked := by
  unfold execOnuRead
  try dsimp only
  repeat' split
  all_goals first | (refine ⟨_, rfl, ?_⟩; simp; done) | (refine ⟨_, rfl, ?_⟩; (first | apply command_keeps); intros; (try dsimp only); (repeat' split) <;> simp_all)

@[simp] theorem writeOnu_keeps (s : State) (p i : Nat) (n : OnuRec) :
    (writeOnu s p i n).pending = s.pending ∧ (writeOnu s p i n).boot.straps = s.boot.straps ∧
    (writeOnu s p i n).boot.revoked = s.boot.revoked := by
  unfold writeOnu
  try dsimp only
  repeat' split
  all_goals simp

theorem execOnuWrite_keeps (o : Origin) (p : Fin 32) (s : State) :
    ∃ z, execOnuWrite o p s = .next z ∧ z.pending = s.pending ∧ z.boot.straps = s.boot.straps ∧ z.boot.revoked = s.boot.revoked := by
  unfold execOnuWrite
  try dsimp only
  repeat' split
  all_goals first | (refine ⟨_, rfl, ?_⟩; simp; done) | (refine ⟨_, rfl, ?_⟩; (first | apply command_keeps); intros; (try dsimp only); (repeat' split) <;> simp_all)

@[simp] theorem clearOnuCnt_keeps (s : State) (p i : Nat) :
    (clearOnuCnt s p i).pending = s.pending ∧ (clearOnuCnt s p i).boot.straps = s.boot.straps ∧
    (clearOnuCnt s p i).boot.revoked = s.boot.revoked := by
  unfold clearOnuCnt
  try dsimp only
  repeat' split
  all_goals simp

theorem execOnuCounterClear_keeps (o : Origin) (p : Fin 32) (s : State) :
    ∃ z, execOnuCounterClear o p s = .next z ∧ z.pending = s.pending ∧ z.boot.straps = s.boot.straps ∧
    z.boot.revoked = s.boot.revoked := by
  unfold execOnuCounterClear
  try dsimp only
  repeat' split
  all_goals first | (refine ⟨_, rfl, ?_⟩; simp; done) | (refine ⟨_, rfl, ?_⟩; (first | apply command_keeps); intros; (try dsimp only); (repeat' split) <;> simp_all)

@[simp] theorem clearCounters_keeps (s : State) (base : Nat) :
    (clearCounters s base).pending = s.pending ∧ (clearCounters s base).boot.straps = s.boot.straps ∧
    (clearCounters s base).boot.revoked = s.boot.revoked := by
  unfold clearCounters
  try dsimp only
  repeat' split
  all_goals simp

theorem execCntClr_keeps (o : Origin) (base : Nat) (s : State) :
    ∃ z, execCntClr o base s = .next z ∧ z.pending = s.pending ∧ z.boot.straps = s.boot.straps ∧
    z.boot.revoked = s.boot.revoked := by
  unfold execCntClr
  try dsimp only
  repeat' split
  all_goals first | (refine ⟨_, rfl, ?_⟩; simp; done) | (refine ⟨_, rfl, ?_⟩; (first | apply command_keeps); intros; (try dsimp only); (repeat' split) <;> simp_all)

@[simp] theorem acceptSwitch_keeps (s : State) (p c : Nat) (k : KeySw) :
    (acceptSwitch s p c k).pending = s.pending ∧ (acceptSwitch s p c k).boot.straps = s.boot.straps ∧
    (acceptSwitch s p c k).boot.revoked = s.boot.revoked := by
  unfold acceptSwitch
  try dsimp only
  repeat' split
  all_goals simp

theorem execKeySwGo_keeps (o : Origin) (p : Fin 32) (c : Fin 3) (s : State) :
    ∃ z, execKeySwGo o p c s = .next z ∧ z.pending = s.pending ∧ z.boot.straps = s.boot.straps ∧
    z.boot.revoked = s.boot.revoked := by
  unfold execKeySwGo
  try dsimp only
  repeat' split
  all_goals first | (refine ⟨_, rfl, ?_⟩; simp; done) | (refine ⟨_, rfl, ?_⟩; (first | apply command_keeps); intros; (try dsimp only); (repeat' split) <;> simp_all)

@[simp] theorem switchKeys_keeps (s : State) (p c : Nat) :
    (switchKeys s p c).pending = s.pending ∧ (switchKeys s p c).boot.straps = s.boot.straps ∧
    (switchKeys s p c).boot.revoked = s.boot.revoked := by
  unfold switchKeys
  try dsimp only
  repeat' split
  all_goals simp

theorem execKeySwitch_keeps (p : Fin 32) (c : Fin 3) (s : State) :
    ∃ z, execKeySwitch p c s = .next z ∧ z.pending = s.pending ∧ z.boot.straps = s.boot.straps ∧
    z.boot.revoked = s.boot.revoked := by
  unfold execKeySwitch
  try dsimp only
  repeat' split
  all_goals refine ⟨_, rfl, ?_⟩
  all_goals simp

theorem execKeyGraceEnd_keeps (p : Fin 32) (i : Fin 512) (s : State) :
    ∃ z, execKeyGraceEnd p i s = .next z ∧ z.pending = s.pending ∧ z.boot.straps = s.boot.straps ∧
    z.boot.revoked = s.boot.revoked := by
  unfold execKeyGraceEnd
  try dsimp only
  repeat' split
  all_goals refine ⟨_, rfl, ?_⟩
  all_goals simp

end Sys2Proof.Machine
end

