-- ==== Sys2Proof/Laws/KeepBurst.lean ====
section
/-! SUPPORT. What each operation of Machine/Burst.lean leaves alone. -/

namespace Sys2Proof.Machine

@[simp] theorem dropCold_keeps (s : State) (p c j : Nat) :
    (dropCold s p c j).pending = s.pending ∧ (dropCold s p c j).boot.straps = s.boot.straps ∧
    (dropCold s p c j).boot.revoked = s.boot.revoked := by
  unfold dropCold
  try dsimp only
  repeat' split
  all_goals simp

theorem execProfileWrite_keeps (o : Origin) (p : Fin 32) (c : Fin 3) (j : Fin 4) (w : Fin 9) (data : Word) (s : State) :
    ∃ z, execProfileWrite o p c j w data s = .next z ∧ z.pending = s.pending ∧ z.boot.straps = s.boot.straps ∧
    z.boot.revoked = s.boot.revoked := by
  unfold execProfileWrite
  try dsimp only
  repeat' split
  all_goals first | (refine ⟨_, rfl, ?_⟩; simp; done) | (refine ⟨_, rfl, ?_⟩; (first | apply ownWrite_keeps); intros; (try dsimp only); (repeat' split) <;> simp_all)

@[simp] theorem brstPulse_keeps (s : State) (p c : Nat) :
    (brstPulse s p c).pending = s.pending ∧ (brstPulse s p c).boot.straps = s.boot.straps ∧
    (brstPulse s p c).boot.revoked = s.boot.revoked := by
  unfold brstPulse
  try dsimp only
  repeat' split
  all_goals simp

theorem execBrstPulse_keeps (p : Fin 32) (c : Fin 3) (s : State) :
    ∃ z, execBrstPulse p c s = .next z ∧ z.pending = s.pending ∧ z.boot.straps = s.boot.straps ∧
    z.boot.revoked = s.boot.revoked := by
  unfold execBrstPulse
  try dsimp only
  repeat' split
  all_goals refine ⟨_, rfl, ?_⟩
  all_goals simp

@[simp] theorem storePhase_keeps (s : State) (p c i : Nat) (e : PhaseEntry) :
    (storePhase s p c i e).pending = s.pending ∧ (storePhase s p c i e).boot.straps = s.boot.straps ∧
    (storePhase s p c i e).boot.revoked = s.boot.revoked := by
  unfold storePhase
  try dsimp only
  repeat' split
  all_goals simp

@[simp] theorem phasePreload_keeps (s : State) (p c : Nat) :
    (phasePreload s p c).pending = s.pending ∧ (phasePreload s p c).boot.straps = s.boot.straps ∧
    (phasePreload s p c).boot.revoked = s.boot.revoked := by
  unfold phasePreload
  try dsimp only
  repeat' split
  all_goals simp

theorem execPhasePreload_keeps (p : Fin 32) (c : Fin 3) (s : State) :
    ∃ z, execPhasePreload p c s = .next z ∧ z.pending = s.pending ∧ z.boot.straps = s.boot.straps ∧
    z.boot.revoked = s.boot.revoked := by
  unfold execPhasePreload
  try dsimp only
  repeat' split
  all_goals refine ⟨_, rfl, ?_⟩
  all_goals simp

theorem execPhaseWriteBack_keeps (p : Fin 32) (c : Fin 3) (i : Fin 512) (phase : Fin 256) (peak : Fin 32) (s : State) :
    ∃ z, execPhaseWriteBack p c i phase peak s = .next z ∧ z.pending = s.pending ∧ z.boot.straps = s.boot.straps ∧
    z.boot.revoked = s.boot.revoked := by
  unfold execPhaseWriteBack
  try dsimp only
  repeat' split
  all_goals refine ⟨_, rfl, ?_⟩
  all_goals simp

@[simp] theorem pmOwn_keeps (s : State) (p c : Nat) (own : Bool) :
    (pmOwn s p c own).pending = s.pending ∧ (pmOwn s p c own).boot.straps = s.boot.straps ∧
    (pmOwn s p c own).boot.revoked = s.boot.revoked := by
  unfold pmOwn
  try dsimp only
  repeat' split
  all_goals simp

@[simp] theorem pmConflict_keeps (s : State) (p c : Nat) (conflict : Bool) :
    (pmConflict s p c conflict).pending = s.pending ∧ (pmConflict s p c conflict).boot.straps = s.boot.straps ∧
    (pmConflict s p c conflict).boot.revoked = s.boot.revoked := by
  unfold pmConflict
  try dsimp only
  repeat' split
  all_goals simp

theorem pmCommand_keeps (o : Origin) (p c : Nat) (body : Nat → State → State × Nat) (s : State)
    (h : ∀ i x, (body i x).1.pending = x.pending ∧ (body i x).1.boot.straps = x.boot.straps ∧
      (body i x).1.boot.revoked = x.boot.revoked) :
    (pmCommand o p c body s).pending = s.pending ∧
    (pmCommand o p c body s).boot.straps = s.boot.straps ∧
    (pmCommand o p c body s).boot.revoked = s.boot.revoked := by
  unfold pmCommand
  apply command_keeps
  intros
  dsimp only
  repeat' split
  all_goals simp [h]

theorem execPmRead_keeps (o : Origin) (p : Fin 32) (c : Fin 3) (s : State) :
    ∃ z, execPmRead o p c s = .next z ∧ z.pending = s.pending ∧ z.boot.straps = s.boot.straps ∧ z.boot.revoked = s.boot.revoked := by
  unfold execPmRead
  try dsimp only
  repeat' split
  all_goals first | (refine ⟨_, rfl, ?_⟩; simp; done) | (refine ⟨_, rfl, ?_⟩; (first | apply pmCommand_keeps); intros; (try dsimp only); (repeat' split) <;> simp_all)

theorem execPmWrite_keeps (o : Origin) (p : Fin 32) (c : Fin 3) (conflict : Bool) (s : State) :
    ∃ z, execPmWrite o p c conflict s = .next z ∧ z.pending = s.pending ∧ z.boot.straps = s.boot.straps ∧
    z.boot.revoked = s.boot.revoked := by
  unfold execPmWrite
  try dsimp only
  repeat' split
  all_goals first | (refine ⟨_, rfl, ?_⟩; simp; done) | (refine ⟨_, rfl, ?_⟩; (first | apply pmCommand_keeps); intros; (try dsimp only); (repeat' split) <;> simp_all)

theorem execPmInvalidate_keeps (o : Origin) (p : Fin 32) (c : Fin 3) (s : State) :
    ∃ z, execPmInvalidate o p c s = .next z ∧ z.pending = s.pending ∧ z.boot.straps = s.boot.straps ∧
    z.boot.revoked = s.boot.revoked := by
  unfold execPmInvalidate
  try dsimp only
  repeat' split
  all_goals first | (refine ⟨_, rfl, ?_⟩; simp; done) | (refine ⟨_, rfl, ?_⟩; (first | apply pmCommand_keeps); intros; (try dsimp only); (repeat' split) <;> simp_all)

@[simp] theorem postRssi_keeps (s : State) (p c : Nat) :
    (postRssi s p c).pending = s.pending ∧ (postRssi s p c).boot.straps = s.boot.straps ∧
    (postRssi s p c).boot.revoked = s.boot.revoked := by
  unfold postRssi
  try dsimp only
  repeat' split
  all_goals simp

theorem execRssiGo_keeps (o : Origin) (p : Fin 32) (c : Fin 3) (s : State) :
    ∃ z, execRssiGo o p c s = .next z ∧ z.pending = s.pending ∧ z.boot.straps = s.boot.straps ∧ z.boot.revoked = s.boot.revoked := by
  unfold execRssiGo
  try dsimp only
  repeat' split
  all_goals first | (refine ⟨_, rfl, ?_⟩; simp; done) | (refine ⟨_, rfl, ?_⟩; (first | apply command_keeps); intros; (try dsimp only); (repeat' split) <;> simp_all)

@[simp] theorem rssiDefer_keeps (s : State) (p c : Nat) :
    (rssiDefer s p c).pending = s.pending ∧ (rssiDefer s p c).boot.straps = s.boot.straps ∧
    (rssiDefer s p c).boot.revoked = s.boot.revoked := by
  unfold rssiDefer
  try dsimp only
  repeat' split
  all_goals simp

@[simp] theorem rssiPulse_keeps (s : State) (p c : Nat) :
    (rssiPulse s p c).pending = s.pending ∧ (rssiPulse s p c).boot.straps = s.boot.straps ∧
    (rssiPulse s p c).boot.revoked = s.boot.revoked := by
  unfold rssiPulse
  try dsimp only
  repeat' split
  all_goals first
    | (simp; done)
    | (refine ⟨foldl_pending _ _ _ ?_, foldl_straps _ _ _ ?_, foldl_revoked _ _ _ ?_⟩ <;>
        (intro t d; (try dsimp only); (repeat' split) <;> simp))
    | (simp
       refine ⟨foldl_pending _ _ _ ?_, foldl_straps _ _ _ ?_, foldl_revoked _ _ _ ?_⟩ <;>
        (intro t d; (try dsimp only); (repeat' split) <;> simp))

theorem execRssiPulse_keeps (p : Fin 32) (c : Fin 3) (s : State) :
    ∃ z, execRssiPulse p c s = .next z ∧ z.pending = s.pending ∧ z.boot.straps = s.boot.straps ∧
      z.boot.revoked = s.boot.revoked := by
  exact ⟨_, rfl, by simp⟩

theorem execSdLevelChange_keeps (p : Fin 32) (c : Fin 3) (level : Bool) (samples : Nat) (s : State) :
    ∃ z, execSdLevelChange p c level samples s = .next z ∧ z.pending = s.pending ∧ z.boot.straps = s.boot.straps ∧
    z.boot.revoked = s.boot.revoked := by
  unfold execSdLevelChange
  try dsimp only
  repeat' split
  all_goals refine ⟨_, rfl, ?_⟩
  all_goals simp

@[simp] theorem evalRogue_keeps (s : State) (p c : Nat) :
    (evalRogue s p c).pending = s.pending ∧ (evalRogue s p c).boot.straps = s.boot.straps ∧
    (evalRogue s p c).boot.revoked = s.boot.revoked := by
  unfold evalRogue
  try dsimp only
  repeat' split
  all_goals simp

theorem execDarkSlotTest_keeps (p : Fin 32) (c : Fin 3) (sdHigh : Bool) (lightRun : Nat) (s : State) :
    ∃ z, execDarkSlotTest p c sdHigh lightRun s = .next z ∧ z.pending = s.pending ∧ z.boot.straps = s.boot.straps ∧
    z.boot.revoked = s.boot.revoked := by
  unfold execDarkSlotTest
  try dsimp only
  repeat' split
  all_goals refine ⟨_, rfl, ?_⟩
  all_goals simp

end Sys2Proof.Machine
end

