-- ==== Sys2Proof/Laws/KeepGrid.lean ====
section
/-! SUPPORT. What each operation of Machine/Grid.lean leaves alone. -/

namespace Sys2Proof.Machine

@[simp] theorem beginAcquire_keeps (s : State) (x : Nat) (fromFree : Bool) :
    (beginAcquire s x fromFree).pending = s.pending ∧ (beginAcquire s x fromFree).boot.straps = s.boot.straps ∧
    (beginAcquire s x fromFree).boot.revoked = s.boot.revoked := by
  unfold beginAcquire
  try dsimp only
  repeat' split
  all_goals simp

@[simp] theorem setPhase_keeps (s : State) (e : Int) :
    (setPhase s e).pending = s.pending ∧ (setPhase s e).boot.straps = s.boot.straps ∧
    (setPhase s e).boot.revoked = s.boot.revoked := by
  unfold setPhase
  try dsimp only
  repeat' split
  all_goals simp

@[simp] theorem switchRef_keeps (s : State) (x : Nat) :
    (switchRef s x).pending = s.pending ∧ (switchRef s x).boot.straps = s.boot.straps ∧
    (switchRef s x).boot.revoked = s.boot.revoked := by
  unfold switchRef
  try dsimp only
  repeat' split
  all_goals simp

@[simp] theorem enterHoldover_keeps (s : State) :
    (enterHoldover s).pending = s.pending ∧ (enterHoldover s).boot.straps = s.boot.straps ∧
    (enterHoldover s).boot.revoked = s.boot.revoked := by
  unfold enterHoldover
  try dsimp only
  repeat' split
  all_goals simp

@[simp] theorem evalRef_keeps (s : State) :
    (evalRef s).pending = s.pending ∧ (evalRef s).boot.straps = s.boot.straps ∧ (evalRef s).boot.revoked = s.boot.revoked := by
  unfold evalRef
  try dsimp only
  repeat' split
  all_goals simp

@[simp] theorem setRefOk_keeps (s : State) (i : Nat) (b : Bool) :
    (setRefOk s i b).pending = s.pending ∧ (setRefOk s i b).boot.straps = s.boot.straps ∧
    (setRefOk s i b).boot.revoked = s.boot.revoked := by
  unfold setRefOk
  try dsimp only
  repeat' split
  all_goals simp

theorem execGrefLost_keeps (b : Bool) (s : State) :
    ∃ z, execGrefLost b s = .next z ∧ z.pending = s.pending ∧ z.boot.straps = s.boot.straps ∧ z.boot.revoked = s.boot.revoked := by
  unfold execGrefLost
  try dsimp only
  repeat' split
  all_goals refine ⟨_, rfl, ?_⟩
  all_goals simp

theorem execPpsLost_keeps (b : Bool) (s : State) :
    ∃ z, execPpsLost b s = .next z ∧ z.pending = s.pending ∧ z.boot.straps = s.boot.straps ∧ z.boot.revoked = s.boot.revoked := by
  unfold execPpsLost
  try dsimp only
  repeat' split
  all_goals refine ⟨_, rfl, ?_⟩
  all_goals simp

theorem execRefQualified_keeps (input : Fin 4) (s : State) :
    ∃ z, execRefQualified input s = .next z ∧ z.pending = s.pending ∧ z.boot.straps = s.boot.straps ∧
    z.boot.revoked = s.boot.revoked := by
  unfold execRefQualified
  try dsimp only
  repeat' split
  all_goals refine ⟨_, rfl, ?_⟩
  all_goals simp

@[simp] theorem setFreq_keeps (s : State) (f : Int) :
    (setFreq s f).pending = s.pending ∧ (setFreq s f).boot.straps = s.boot.straps ∧
    (setFreq s f).boot.revoked = s.boot.revoked := by
  unfold setFreq
  try dsimp only
  repeat' split
  all_goals simp

@[simp] theorem pullIn_keeps (s : State) (f e : Int) :
    (pullIn s f e).pending = s.pending ∧ (pullIn s f e).boot.straps = s.boot.straps ∧
    (pullIn s f e).boot.revoked = s.boot.revoked := by
  unfold pullIn
  try dsimp only
  repeat' split
  all_goals simp

@[simp] theorem trackEdge_keeps (s : State) (f e : Int) :
    (trackEdge s f e).pending = s.pending ∧ (trackEdge s f e).boot.straps = s.boot.straps ∧
    (trackEdge s f e).boot.revoked = s.boot.revoked := by
  unfold trackEdge
  try dsimp only
  repeat' split
  all_goals simp

@[simp] theorem dpllEdge_keeps (s : State) (f e : Int) :
    (dpllEdge s f e).pending = s.pending ∧ (dpllEdge s f e).boot.straps = s.boot.straps ∧
    (dpllEdge s f e).boot.revoked = s.boot.revoked := by
  unfold dpllEdge
  try dsimp only
  repeat' split
  all_goals simp

@[simp] theorem setBase_keeps (s : State) (b : ToDBase) :
    (setBase s b).pending = s.pending ∧ (setBase s b).boot.straps = s.boot.straps ∧
    (setBase s b).boot.revoked = s.boot.revoked := by
  unfold setBase
  try dsimp only
  repeat' split
  all_goals simp

@[simp] theorem showBase_keeps (s : State) (b : ToDBase) :
    (showBase s b).pending = s.pending ∧ (showBase s b).boot.straps = s.boot.straps ∧
    (showBase s b).boot.revoked = s.boot.revoked := by
  unfold showBase
  try dsimp only
  repeat' split
  all_goals simp

@[simp] theorem autoBase_keeps (s : State) :
    (autoBase s).pending = s.pending ∧ (autoBase s).boot.straps = s.boot.straps ∧
    (autoBase s).boot.revoked = s.boot.revoked := by
  unfold autoBase
  try dsimp only
  repeat' split
  all_goals simp

theorem execPpsEdge_keeps (b : Bool) (freqPpt phase : Int) (s : State) :
    ∃ z, execPpsEdge b freqPpt phase s = .next z ∧ z.pending = s.pending ∧ z.boot.straps = s.boot.straps ∧
    z.boot.revoked = s.boot.revoked := by
  unfold execPpsEdge
  try dsimp only
  repeat' split
  all_goals refine ⟨_, rfl, ?_⟩
  all_goals simp

theorem execStepCmd_keeps (o : Origin) (data : Word) (s : State) :
    ∃ z, execStepCmd o data s = .next z ∧ z.pending = s.pending ∧ z.boot.straps = s.boot.straps ∧
    z.boot.revoked = s.boot.revoked := by
  unfold execStepCmd
  try dsimp only
  repeat' split
  all_goals first | (refine ⟨_, rfl, ?_⟩; simp; done) | (refine ⟨_, rfl, ?_⟩; (first | apply command_keeps); intros; (try dsimp only); (repeat' split) <;> simp_all)

@[simp] theorem gridBoundary_keeps (s : State) :
    (gridBoundary s).pending = s.pending ∧ (gridBoundary s).boot.straps = s.boot.straps ∧
    (gridBoundary s).boot.revoked = s.boot.revoked := by
  unfold gridBoundary
  try dsimp only
  repeat' split
  all_goals simp

@[simp] theorem idle_keeps (s : State) :
    (idle s).pending = s.pending ∧ (idle s).boot.straps = s.boot.straps ∧ (idle s).boot.revoked = s.boot.revoked := by
  unfold idle
  try dsimp only
  repeat' split
  all_goals simp

@[simp] theorem latchPos_keeps (s : State) (base : Nat) (fine tick lo hi : Fld) (p : Pos) :
    (latchPos s base fine tick lo hi p).pending = s.pending ∧ (latchPos s base fine tick lo hi p).boot.straps = s.boot.straps ∧
    (latchPos s base fine tick lo hi p).boot.revoked = s.boot.revoked := by
  unfold latchPos
  try dsimp only
  repeat' split
  all_goals simp

theorem execNowRead_keeps (o : Origin) (pairs : List (Pos × Pos)) (s : State) :
    ∃ z, execNowRead o pairs s = .next z ∧ z.pending = s.pending ∧ z.boot.straps = s.boot.straps ∧
    z.boot.revoked = s.boot.revoked := by
  unfold execNowRead
  try dsimp only
  repeat' split
  all_goals first | (refine ⟨_, rfl, ?_⟩; simp; done) | (refine ⟨_, rfl, ?_⟩; (first | apply readAccess_keeps); intros; (try dsimp only); (repeat' split) <;> simp_all)

theorem execTodNowRead_keeps (o : Origin) (pairs : List (Pos × Pos)) (s : State) :
    ∃ z, execTodNowRead o pairs s = .next z ∧ z.pending = s.pending ∧ z.boot.straps = s.boot.straps ∧
    z.boot.revoked = s.boot.revoked := by
  unfold execTodNowRead
  try dsimp only
  repeat' split
  all_goals first | (refine ⟨_, rfl, ?_⟩; simp; done) | (refine ⟨_, rfl, ?_⟩; (first | apply readAccess_keeps); intros; (try dsimp only); (repeat' split) <;> simp_all)

theorem execNsNowRead_keeps (o : Origin) (pairs : List (Pos × Pos)) (s : State) :
    ∃ z, execNsNowRead o pairs s = .next z ∧ z.pending = s.pending ∧ z.boot.straps = s.boot.straps ∧
    z.boot.revoked = s.boot.revoked := by
  unfold execNsNowRead
  try dsimp only
  repeat' split
  all_goals first | (refine ⟨_, rfl, ?_⟩; simp; done) | (refine ⟨_, rfl, ?_⟩; (first | apply readAccess_keeps); intros; (try dsimp only); (repeat' split) <;> simp_all)

theorem execBaseCommit_keeps (o : Origin) (data : Word) (s : State) :
    ∃ z, execBaseCommit o data s = .next z ∧ z.pending = s.pending ∧ z.boot.straps = s.boot.straps ∧
    z.boot.revoked = s.boot.revoked := by
  unfold execBaseCommit
  try dsimp only
  repeat' split
  all_goals first | (refine ⟨_, rfl, ?_⟩; simp; done) | (refine ⟨_, rfl, ?_⟩; (first | apply command_keeps); intros; (try dsimp only); (repeat' split) <;> simp_all)

theorem execTodBaseApply_keeps (s : State) :
    ∃ z, execTodBaseApply s = .next z ∧ z.pending = s.pending ∧ z.boot.straps = s.boot.straps ∧ z.boot.revoked = s.boot.revoked := by
  unfold execTodBaseApply
  try dsimp only
  repeat' split
  all_goals refine ⟨_, rfl, ?_⟩
  all_goals simp

@[simp] theorem takeTodMessage_keeps (s : State) (m : List Byte) :
    (takeTodMessage s m).pending = s.pending ∧ (takeTodMessage s m).boot.straps = s.boot.straps ∧
    (takeTodMessage s m).boot.revoked = s.boot.revoked := by
  unfold takeTodMessage
  try dsimp only
  repeat' split
  all_goals simp

theorem execTodMessage_keeps (bytes : List Byte) (s : State) :
    ∃ z, execTodMessage bytes s = .next z ∧ z.pending = s.pending ∧ z.boot.straps = s.boot.straps ∧
    z.boot.revoked = s.boot.revoked := by
  unfold execTodMessage
  try dsimp only
  repeat' split
  all_goals refine ⟨_, rfl, ?_⟩
  all_goals simp

@[simp] theorem setCapture_keeps (s : State) (n : Nat) (p : Pos) :
    (setCapture s n p).pending = s.pending ∧ (setCapture s n p).boot.straps = s.boot.straps ∧
    (setCapture s n p).boot.revoked = s.boot.revoked := by
  unfold setCapture
  try dsimp only
  repeat' split
  all_goals simp

theorem execCaptureEdge_keeps (i : Fin 10) (rising : Bool) (s : State) :
    ∃ z, execCaptureEdge i rising s = .next z ∧ z.pending = s.pending ∧ z.boot.straps = s.boot.straps ∧
    z.boot.revoked = s.boot.revoked := by
  unfold execCaptureEdge
  try dsimp only
  repeat' split
  all_goals refine ⟨_, rfl, ?_⟩
  all_goals simp

theorem execCapFifoRead_keeps (o : Origin) (s : State) :
    ∃ z, execCapFifoRead o s = .next z ∧ z.pending = s.pending ∧ z.boot.straps = s.boot.straps ∧
    z.boot.revoked = s.boot.revoked := by
  unfold execCapFifoRead
  try dsimp only
  repeat' split
  all_goals first | (refine ⟨_, rfl, ?_⟩; simp; done) | (refine ⟨_, rfl, ?_⟩; (first | apply readAccess_keeps); intros; (try dsimp only); (repeat' split) <;> simp_all)

end Sys2Proof.Machine
end

