-- ==== Sys2Proof/Laws/KeepRanging.lean ====
section
/-! SUPPORT. What each operation of Machine/Ranging.lean leaves alone. -/

namespace Sys2Proof.Machine

theorem execReachWrite_keeps (o : Origin) (p : Fin 32) (c : Fin 3) (off : Nat) (data : Word) (s : State) :
    ∃ z, execReachWrite o p c off data s = .next z ∧ z.pending = s.pending ∧ z.boot.straps = s.boot.straps ∧
    z.boot.revoked = s.boot.revoked := by
  unfold execReachWrite
  try dsimp only
  repeat' split
  all_goals first | (refine ⟨_, rfl, ?_⟩; simp; done) | (refine ⟨_, rfl, ?_⟩; (first | apply ownWrite_keeps); intros; (try dsimp only); (repeat' split) <;> simp_all)

@[simp] theorem raiseDow_keeps (s : State) (p i : Nat) :
    (raiseDow s p i).pending = s.pending ∧ (raiseDow s p i).boot.straps = s.boot.straps ∧
    (raiseDow s p i).boot.revoked = s.boot.revoked := by
  unfold raiseDow
  try dsimp only
  repeat' split
  all_goals simp

@[simp] theorem evalDow_keeps (s : State) (p i : Nat) :
    (evalDow s p i).pending = s.pending ∧ (evalDow s p i).boot.straps = s.boot.straps ∧
    (evalDow s p i).boot.revoked = s.boot.revoked := by
  unfold evalDow
  try dsimp only
  repeat' split
  all_goals simp

@[simp] theorem correct_keeps (s : State) (p i : Nat) :
    (correct s p i).pending = s.pending ∧ (correct s p i).boot.straps = s.boot.straps ∧
    (correct s p i).boot.revoked = s.boot.revoked := by
  unfold correct
  try dsimp only
  repeat' split
  all_goals simp

@[simp] theorem settleDow_keeps (s : State) (p i : Nat) :
    (settleDow s p i).pending = s.pending ∧ (settleDow s p i).boot.straps = s.boot.straps ∧
    (settleDow s p i).boot.revoked = s.boot.revoked := by
  unfold settleDow
  try dsimp only
  repeat' split
  all_goals simp

@[simp] theorem assignOnu_keeps (s : State) (p c i : Nat) (sn : BitVec 64) (w : SurveyWin) (hp : Int) :
    (assignOnu s p c i sn w hp).pending = s.pending ∧ (assignOnu s p c i sn w hp).boot.straps = s.boot.straps ∧
    (assignOnu s p c i sn w hp).boot.revoked = s.boot.revoked := by
  unfold assignOnu
  try dsimp only
  repeat' split
  all_goals simp

@[simp] theorem takeSerial_keeps (s : State) (p c : Nat) (sn : BitVec 64) (w : SurveyWin) (hp : Int) :
    (takeSerial s p c sn w hp).pending = s.pending ∧ (takeSerial s p c sn w hp).boot.straps = s.boot.straps ∧
    (takeSerial s p c sn w hp).boot.revoked = s.boot.revoked := by
  unfold takeSerial
  try dsimp only
  repeat' split
  all_goals simp

@[simp] theorem setWin_keeps (s : State) (p c : Nat) (w : SurveyWin) :
    (setWin s p c w).pending = s.pending ∧ (setWin s p c w).boot.straps = s.boot.straps ∧
    (setWin s p c w).boot.revoked = s.boot.revoked := by
  unfold setWin
  try dsimp only
  repeat' split
  all_goals simp

@[simp] theorem foundResponse_keeps (s : State) (p c at_ : Nat) :
    (foundResponse s p c at_).pending = s.pending ∧ (foundResponse s p c at_).boot.straps = s.boot.straps ∧
    (foundResponse s p c at_).boot.revoked = s.boot.revoked := by
  unfold foundResponse
  try dsimp only
  repeat' split
  all_goals simp

theorem execSnResponse_keeps (p : Fin 32) (c : Fin 3) (sn : BitVec 64) (hp : Int) (s : State) :
    ∃ z, execSnResponse p c sn hp s = .next z ∧ z.pending = s.pending ∧ z.boot.straps = s.boot.straps ∧
    z.boot.revoked = s.boot.revoked := by
  unfold execSnResponse
  try dsimp only
  repeat' split
  all_goals refine ⟨_, rfl, ?_⟩
  all_goals simp

@[simp] theorem quietWindow_keeps (s : State) (p c : Nat) :
    (quietWindow s p c).pending = s.pending ∧ (quietWindow s p c).boot.straps = s.boot.straps ∧
    (quietWindow s p c).boot.revoked = s.boot.revoked := by
  unfold quietWindow
  try dsimp only
  repeat' split
  all_goals simp

theorem execSurveyWindowClose_keeps (p : Fin 32) (c : Fin 3) (lightUnaccounted badMessage : Bool) (s : State) :
    ∃ z, execSurveyWindowClose p c lightUnaccounted badMessage s = .next z ∧ z.pending = s.pending ∧ z.boot.straps = s.boot.straps ∧
    z.boot.revoked = s.boot.revoked := by
  unfold execSurveyWindowClose
  try dsimp only
  repeat' split
  all_goals refine ⟨_, rfl, ?_⟩
  all_goals simp

theorem execRangingGrantDue_keeps (p : Fin 32) (i : Fin 512) (s : State) :
    ∃ z, execRangingGrantDue p i s = .next z ∧ z.pending = s.pending ∧ z.boot.straps = s.boot.straps ∧
    z.boot.revoked = s.boot.revoked := by
  unfold execRangingGrantDue
  try dsimp only
  repeat' split
  all_goals refine ⟨_, rfl, ?_⟩
  all_goals simp

@[simp] theorem closeRangingWindow_keeps (s : State) (p c i : Nat) :
    (closeRangingWindow s p c i).pending = s.pending ∧ (closeRangingWindow s p c i).boot.straps = s.boot.straps ∧
    (closeRangingWindow s p c i).boot.revoked = s.boot.revoked := by
  unfold closeRangingWindow
  try dsimp only
  repeat' split
  all_goals simp

theorem execRangingResponse_keeps (p : Fin 32) (i : Fin 512) (captureNs : BitVec 32) (captureFrac : BitVec 8) (s : State) :
    ∃ z, execRangingResponse p i captureNs captureFrac s = .next z ∧ z.pending = s.pending ∧ z.boot.straps = s.boot.straps ∧
    z.boot.revoked = s.boot.revoked := by
  unfold execRangingResponse
  try dsimp only
  repeat' split
  all_goals refine ⟨_, rfl, ?_⟩
  all_goals simp

theorem execRangingWindowClose_keeps (p : Fin 32) (i : Fin 512) (s : State) :
    ∃ z, execRangingWindowClose p i s = .next z ∧ z.pending = s.pending ∧ z.boot.straps = s.boot.straps ∧
    z.boot.revoked = s.boot.revoked := by
  unfold execRangingWindowClose
  try dsimp only
  repeat' split
  all_goals refine ⟨_, rfl, ?_⟩
  all_goals simp

theorem execRegistrationReceived_keeps (p : Fin 32) (i : Fin 512) (id : BitVec 288) (s : State) :
    ∃ z, execRegistrationReceived p i id s = .next z ∧ z.pending = s.pending ∧ z.boot.straps = s.boot.straps ∧
    z.boot.revoked = s.boot.revoked := by
  unfold execRegistrationReceived
  try dsimp only
  repeat' split
  all_goals refine ⟨_, rfl, ?_⟩
  all_goals simp

theorem execRegisterTimeout_keeps (p : Fin 32) (i : Fin 512) (s : State) :
    ∃ z, execRegisterTimeout p i s = .next z ∧ z.pending = s.pending ∧ z.boot.straps = s.boot.straps ∧
    z.boot.revoked = s.boot.revoked := by
  unfold execRegisterTimeout
  try dsimp only
  repeat' split
  all_goals refine ⟨_, rfl, ?_⟩
  all_goals simp

theorem execPopupExpire_keeps (p : Fin 32) (i : Fin 512) (s : State) :
    ∃ z, execPopupExpire p i s = .next z ∧ z.pending = s.pending ∧ z.boot.straps = s.boot.straps ∧
    z.boot.revoked = s.boot.revoked := by
  unfold execPopupExpire
  try dsimp only
  repeat' split
  all_goals refine ⟨_, rfl, ?_⟩
  all_goals simp

@[simp] theorem rgStat_keeps (s : State) (p c : Nat) (own ch : Bool) :
    (rgStat s p c own ch).pending = s.pending ∧ (rgStat s p c own ch).boot.straps = s.boot.straps ∧
    (rgStat s p c own ch).boot.revoked = s.boot.revoked := by
  unfold rgStat
  try dsimp only
  repeat' split
  all_goals simp

@[simp] theorem rgReject_keeps (s : State) (p c : Nat) (rej : Bool) :
    (rgReject s p c rej).pending = s.pending ∧ (rgReject s p c rej).boot.straps = s.boot.straps ∧
    (rgReject s p c rej).boot.revoked = s.boot.revoked := by
  unfold rgReject
  try dsimp only
  repeat' split
  all_goals simp

@[simp] theorem rgConflict_keeps (s : State) (p c : Nat) (conflict : Bool) :
    (rgConflict s p c conflict).pending = s.pending ∧ (rgConflict s p c conflict).boot.straps = s.boot.straps ∧
    (rgConflict s p c conflict).boot.revoked = s.boot.revoked := by
  unfold rgConflict
  try dsimp only
  repeat' split
  all_goals simp

@[simp] theorem rgWords_keeps (s : State) (p c : Nat) (g : RngRec) :
    (rgWords s p c g).pending = s.pending ∧ (rgWords s p c g).boot.straps = s.boot.straps ∧
    (rgWords s p c g).boot.revoked = s.boot.revoked := by
  unfold rgWords
  try dsimp only
  repeat' split
  all_goals simp

theorem rgCommand_keeps (o : Origin) (p c : Nat) (body : Nat → State → State × Nat) (s : State)
    (h : ∀ i x, (body i x).1.pending = x.pending ∧ (body i x).1.boot.straps = x.boot.straps ∧
      (body i x).1.boot.revoked = x.boot.revoked) :
    (rgCommand o p c body s).pending = s.pending ∧
    (rgCommand o p c body s).boot.straps = s.boot.straps ∧
    (rgCommand o p c body s).boot.revoked = s.boot.revoked := by
  unfold rgCommand
  apply command_keeps
  intros
  dsimp only
  repeat' split
  all_goals simp [h]

theorem execRgRead_keeps (o : Origin) (p : Fin 32) (c : Fin 3) (s : State) :
    ∃ z, execRgRead o p c s = .next z ∧ z.pending = s.pending ∧ z.boot.straps = s.boot.straps ∧ z.boot.revoked = s.boot.revoked := by
  unfold execRgRead
  try dsimp only
  repeat' split
  all_goals first | (refine ⟨_, rfl, ?_⟩; simp; done) | (refine ⟨_, rfl, ?_⟩; (first | apply rgCommand_keeps); intros; (try dsimp only); (repeat' split) <;> simp_all)

theorem execRgSetEqd_keeps (o : Origin) (p : Fin 32) (c : Fin 3) (conflict : Bool) (s : State) :
    ∃ z, execRgSetEqd o p c conflict s = .next z ∧ z.pending = s.pending ∧ z.boot.straps = s.boot.straps ∧
    z.boot.revoked = s.boot.revoked := by
  unfold execRgSetEqd
  try dsimp only
  repeat' split
  all_goals first | (refine ⟨_, rfl, ?_⟩; simp; done) | (refine ⟨_, rfl, ?_⟩; (first | apply rgCommand_keeps); intros; (try dsimp only); (repeat' split) <;> simp_all)

theorem execRgRerange_keeps (o : Origin) (p : Fin 32) (c : Fin 3) (s : State) :
    ∃ z, execRgRerange o p c s = .next z ∧ z.pending = s.pending ∧ z.boot.straps = s.boot.straps ∧
    z.boot.revoked = s.boot.revoked := by
  unfold execRgRerange
  try dsimp only
  repeat' split
  all_goals first | (refine ⟨_, rfl, ?_⟩; simp; done) | (refine ⟨_, rfl, ?_⟩; (first | apply rgCommand_keeps); intros; (try dsimp only); (repeat' split) <;> simp_all)

@[simp] theorem seeCorrection_keeps (s : State) (p i : Nat) (d : Rat) :
    (seeCorrection s p i d).1.pending = s.pending ∧ (seeCorrection s p i d).1.boot.straps = s.boot.straps ∧
    (seeCorrection s p i d).1.boot.revoked = s.boot.revoked := by
  unfold seeCorrection
  try dsimp only
  repeat' split
  all_goals simp

@[simp] theorem shiftBacks_keeps (s : State) (p c i : Nat) (t : Int) :
    (shiftBacks s p c i t).pending = s.pending ∧ (shiftBacks s p c i t).boot.straps = s.boot.straps ∧
    (shiftBacks s p c i t).boot.revoked = s.boot.revoked := by
  unfold shiftBacks
  try dsimp only
  repeat' split
  all_goals simp

@[simp] theorem moveDrift_keeps (s : State) (p i : Nat) (d : Rat) :
    (moveDrift s p i d).pending = s.pending ∧ (moveDrift s p i d).boot.straps = s.boot.straps ∧
    (moveDrift s p i d).boot.revoked = s.boot.revoked := by
  unfold moveDrift
  try dsimp only
  repeat' split
  all_goals simp

@[simp] theorem driftSample_keeps (s : State) (p i mapFrame burstFrame : Nat) (d : Rat) :
    (driftSample s p i mapFrame burstFrame d).pending = s.pending ∧
    (driftSample s p i mapFrame burstFrame d).boot.straps = s.boot.straps ∧
    (driftSample s p i mapFrame burstFrame d).boot.revoked = s.boot.revoked := by
  unfold driftSample
  try dsimp only
  repeat' split
  all_goals simp

theorem execEqdRetry_keeps (p : Fin 32) (i : Fin 512) (s : State) :
    ∃ z, execEqdRetry p i s = .next z ∧ z.pending = s.pending ∧ z.boot.straps = s.boot.straps ∧ z.boot.revoked = s.boot.revoked := by
  unfold execEqdRetry
  try dsimp only
  repeat' split
  all_goals refine ⟨_, rfl, ?_⟩
  all_goals simp

end Sys2Proof.Machine
end

