-- ==== Sys2Proof/Laws/KeepBonding.lean ====
section
/-! SUPPORT. What each operation of Machine/Bonding.lean leaves alone. -/

namespace Sys2Proof.Machine

@[simp] theorem grpBump_keeps (s : State) (p g j n : Nat) :
    (grpBump s p g j n).pending = s.pending ∧ (grpBump s p g j n).boot.straps = s.boot.straps ∧
    (grpBump s p g j n).boot.revoked = s.boot.revoked := by
  unfold grpBump
  try dsimp only
  repeat' split
  all_goals simp

@[simp] theorem grpNote_keeps (s : State) (p g : Nat) (f : Flag) (j n : Nat) :
    (grpNote s p g f j n).pending = s.pending ∧ (grpNote s p g f j n).boot.straps = s.boot.straps ∧
    (grpNote s p g f j n).boot.revoked = s.boot.revoked := by
  unfold grpNote
  try dsimp only
  repeat' split
  all_goals simp

@[simp] theorem discardUnit_keeps (s : State) (p g : Nat) :
    (discardUnit s p g).pending = s.pending ∧ (discardUnit s p g).boot.straps = s.boot.straps ∧
    (discardUnit s p g).boot.revoked = s.boot.revoked := by
  unfold discardUnit
  try dsimp only
  repeat' split
  all_goals simp

@[simp] theorem endUnit_keeps (s : State) (p g : Nat) :
    (endUnit s p g).pending = s.pending ∧ (endUnit s p g).boot.straps = s.boot.straps ∧
    (endUnit s p g).boot.revoked = s.boot.revoked := by
  unfold endUnit
  try dsimp only
  repeat' split
  all_goals simp

@[simp] theorem joinFrag_keeps (s : State) (p g : Nat) (f : HeldFrag) :
    (joinFrag s p g f).pending = s.pending ∧ (joinFrag s p g f).boot.straps = s.boot.straps ∧
    (joinFrag s p g f).boot.revoked = s.boot.revoked := by
  unfold joinFrag
  try dsimp only
  repeat' split
  all_goals simp

@[simp] theorem freeHeld_keeps (s : State) (p : Nat) (f : HeldFrag) :
    (freeHeld s p f).pending = s.pending ∧ (freeHeld s p f).boot.straps = s.boot.straps ∧
    (freeHeld s p f).boot.revoked = s.boot.revoked := by
  unfold freeHeld
  try dsimp only
  repeat' split
  all_goals simp

@[simp] theorem releaseRun_keeps (n : Nat) (s : State) (p g : Nat) :
    (releaseRun n s p g).pending = s.pending ∧
    (releaseRun n s p g).boot.straps = s.boot.straps ∧
    (releaseRun n s p g).boot.revoked = s.boot.revoked := by
  induction n generalizing s with
  | zero => simp [releaseRun]
  | succ n ih =>
    simp only [releaseRun]
    split <;> simp [ih]

@[simp] theorem declareGap_keeps (s : State) (p g : Nat) :
    (declareGap s p g).pending = s.pending ∧ (declareGap s p g).boot.straps = s.boot.straps ∧
    (declareGap s p g).boot.revoked = s.boot.revoked := by
  unfold declareGap
  try dsimp only
  repeat' split
  all_goals simp

@[simp] theorem declareAll_keeps (n : Nat) (s : State) (p g : Nat) :
    (declareAll n s p g).pending = s.pending ∧
    (declareAll n s p g).boot.straps = s.boot.straps ∧
    (declareAll n s p g).boot.revoked = s.boot.revoked := by
  induction n generalizing s with
  | zero => simp [declareAll]
  | succ n ih =>
    simp only [declareAll]
    split <;> simp [ih]

@[simp] theorem flushGroup_keeps (s : State) (p g : Nat) :
    (flushGroup s p g).pending = s.pending ∧ (flushGroup s p g).boot.straps = s.boot.straps ∧
    (flushGroup s p g).boot.revoked = s.boot.revoked := by
  unfold flushGroup
  try dsimp only
  repeat' split
  all_goals simp

theorem holdFragment_keeps (s : State) (p g : Nat) (f : HeldFrag) (x : State) (h : holdFragment s p g f = some x) :
    x.pending = s.pending ∧ x.boot.straps = s.boot.straps ∧ x.boot.revoked = s.boot.revoked := by
  unfold holdFragment at h
  simp only at h
  split at h
  · cases h; simp
  · split at h
    · cases h; simp
    · obtain ⟨y, hy, rfl⟩ := Option.map_eq_some_iff.mp h
      have := askBytes_keeps _ _ _ _ _ _ hy
      split <;> simp [this]

@[simp] theorem mergeFragment_keeps (s : State) (p c g : Nat) (h : FragHdr) (len mapFrame : Nat) (bytes : List Byte) :
    (mergeFragment s p c g h len mapFrame bytes).pending = s.pending ∧
    (mergeFragment s p c g h len mapFrame bytes).boot.straps = s.boot.straps ∧
    (mergeFragment s p c g h len mapFrame bytes).boot.revoked = s.boot.revoked := by
  unfold mergeFragment
  try dsimp only
  split
  · simp
  · split
    · rename_i t ht
      have := holdFragment_keeps _ _ _ _ _ ht
      split at this <;> simp_all
    · split <;> simp

theorem execBondFragmentArrive_keeps (p : Fin 32) (c : Fin 3) (portId : Nat) (hdr : FragHdr) (len mapFrame : Nat) (s : State) :
    ∃ z, execBondFragmentArrive p c portId hdr len mapFrame s = .next z ∧ z.pending = s.pending ∧ z.boot.straps = s.boot.straps ∧
    z.boot.revoked = s.boot.revoked := by
  unfold execBondFragmentArrive
  try dsimp only
  repeat' split
  all_goals refine ⟨_, rfl, ?_⟩
  all_goals simp

theorem execBondGapDeadline_keeps (p : Fin 32) (g : Fin 64) (s : State) :
    ∃ z, execBondGapDeadline p g s = .next z ∧ z.pending = s.pending ∧ z.boot.straps = s.boot.straps ∧
    z.boot.revoked = s.boot.revoked := by
  unfold execBondGapDeadline
  try dsimp only
  repeat' split
  all_goals refine ⟨_, rfl, ?_⟩
  all_goals simp

@[simp] theorem fallBack_keeps (s : State) (p g : Nat) :
    (fallBack s p g).pending = s.pending ∧ (fallBack s p g).boot.straps = s.boot.straps ∧
    (fallBack s p g).boot.revoked = s.boot.revoked := by
  unfold fallBack
  try dsimp only
  repeat' split
  all_goals simp

@[simp] theorem goDown_keeps (s : State) (p g : Nat) :
    (goDown s p g).pending = s.pending ∧ (goDown s p g).boot.straps = s.boot.straps ∧
    (goDown s p g).boot.revoked = s.boot.revoked := by
  unfold goDown
  try dsimp only
  repeat' split
  all_goals simp

@[simp] theorem rejoin_keeps (s : State) (p g : Nat) :
    (rejoin s p g).pending = s.pending ∧ (rejoin s p g).boot.straps = s.boot.straps ∧
    (rejoin s p g).boot.revoked = s.boot.revoked := by
  unfold rejoin
  try dsimp only
  repeat' split
  all_goals simp

theorem execMemberFallback_keeps (p : Fin 32) (g : Fin 64) (s : State) :
    ∃ z, execMemberFallback p g s = .next z ∧ z.pending = s.pending ∧ z.boot.straps = s.boot.straps ∧
    z.boot.revoked = s.boot.revoked := by
  unfold execMemberFallback
  try dsimp only
  repeat' split
  all_goals refine ⟨_, rfl, ?_⟩
  all_goals simp

theorem execGroupDown_keeps (p : Fin 32) (g : Fin 64) (s : State) :
    ∃ z, execGroupDown p g s = .next z ∧ z.pending = s.pending ∧ z.boot.straps = s.boot.straps ∧
    z.boot.revoked = s.boot.revoked := by
  unfold execGroupDown
  try dsimp only
  repeat' split
  all_goals refine ⟨_, rfl, ?_⟩
  all_goals simp

theorem execMemberRejoin_keeps (p : Fin 32) (g : Fin 64) (s : State) :
    ∃ z, execMemberRejoin p g s = .next z ∧ z.pending = s.pending ∧ z.boot.straps = s.boot.straps ∧
    z.boot.revoked = s.boot.revoked := by
  unfold execMemberRejoin
  try dsimp only
  repeat' split
  all_goals refine ⟨_, rfl, ?_⟩
  all_goals simp

@[simp] theorem freeGroup_keeps (s : State) (p g : Nat) :
    (freeGroup s p g).pending = s.pending ∧ (freeGroup s p g).boot.straps = s.boot.straps ∧
    (freeGroup s p g).boot.revoked = s.boot.revoked := by
  unfold freeGroup
  try dsimp only
  repeat' split
  all_goals simp

@[simp] theorem groupBoundary_keeps (s : State) (p g : Nat) :
    (groupBoundary s p g).pending = s.pending ∧ (groupBoundary s p g).boot.straps = s.boot.straps ∧
    (groupBoundary s p g).boot.revoked = s.boot.revoked := by
  unfold groupBoundary
  try dsimp only
  repeat' split
  all_goals simp

@[simp] theorem grpStat_keeps (s : State) (p : Nat) (own rej : Bool) :
    (grpStat s p own rej).pending = s.pending ∧ (grpStat s p own rej).boot.straps = s.boot.straps ∧
    (grpStat s p own rej).boot.revoked = s.boot.revoked := by
  unfold grpStat
  try dsimp only
  repeat' split
  all_goals simp

@[simp] theorem grpHide_keeps (s : State) (p : Nat) :
    (grpHide s p).pending = s.pending ∧ (grpHide s p).boot.straps = s.boot.straps ∧
    (grpHide s p).boot.revoked = s.boot.revoked := by
  unfold grpHide
  try dsimp only
  repeat' split
  all_goals simp

theorem execGrpRead_keeps (o : Origin) (p : Fin 32) (s : State) :
    ∃ z, execGrpRead o p s = .next z ∧ z.pending = s.pending ∧ z.boot.straps = s.boot.straps ∧ z.boot.revoked = s.boot.revoked := by
  unfold execGrpRead
  try dsimp only
  repeat' split
  all_goals first | (refine ⟨_, rfl, ?_⟩; simp; done) | (refine ⟨_, rfl, ?_⟩; (first | apply command_keeps); intros; (try dsimp only); (repeat' split) <;> simp_all)

@[simp] theorem grpReject_keeps (s : State) (p : Nat) :
    (grpReject s p).pending = s.pending ∧ (grpReject s p).boot.straps = s.boot.straps ∧
    (grpReject s p).boot.revoked = s.boot.revoked := by
  unfold grpReject
  try dsimp only
  repeat' split
  all_goals simp

theorem execGrpWrite_keeps (o : Origin) (p : Fin 32) (s : State) :
    ∃ z, execGrpWrite o p s = .next z ∧ z.pending = s.pending ∧ z.boot.straps = s.boot.straps ∧ z.boot.revoked = s.boot.revoked := by
  unfold execGrpWrite
  try dsimp only
  repeat' split
  all_goals first | (refine ⟨_, rfl, ?_⟩; simp; done) | (refine ⟨_, rfl, ?_⟩; (first | apply command_keeps); intros; (try dsimp only); (repeat' split) <;> simp_all)

theorem execGrpCounterClear_keeps (o : Origin) (p : Fin 32) (s : State) :
    ∃ z, execGrpCounterClear o p s = .next z ∧ z.pending = s.pending ∧ z.boot.straps = s.boot.straps ∧
    z.boot.revoked = s.boot.revoked := by
  unfold execGrpCounterClear
  try dsimp only
  repeat' split
  all_goals first | (refine ⟨_, rfl, ?_⟩; simp; done) | (refine ⟨_, rfl, ?_⟩; (first | apply command_keeps); intros; (try dsimp only); (repeat' split) <;> simp_all)

end Sys2Proof.Machine
end

