-- ==== Sys2Proof/Laws/KeepSched.lean ====
section
/-! SUPPORT. What each operation of Machine/Sched.lean leaves alone. -/

namespace Sys2Proof.Machine

@[simp] theorem refreshNode_keeps (s : State) (lv i : Nat) :
    (refreshNode s lv i).pending = s.pending ∧ (refreshNode s lv i).boot.straps = s.boot.straps ∧
    (refreshNode s lv i).boot.revoked = s.boot.revoked := by
  unfold refreshNode
  try dsimp only
  repeat' split
  all_goals simp

@[simp] theorem refreshOver_keeps (s : State) (k : Nat) :
    (refreshOver s k).pending = s.pending ∧ (refreshOver s k).boot.straps = s.boot.straps ∧
    (refreshOver s k).boot.revoked = s.boot.revoked := by
  unfold refreshOver
  try dsimp only
  repeat' split
  all_goals simp

@[simp] theorem chargeNode_keeps (s : State) (lv i len gt : Nat) :
    (chargeNode s lv i len gt).pending = s.pending ∧ (chargeNode s lv i len gt).boot.straps = s.boot.straps ∧
    (chargeNode s lv i len gt).boot.revoked = s.boot.revoked := by
  unfold chargeNode
  try dsimp only
  repeat' split
  all_goals simp

@[simp] theorem emptyNode_keeps (s : State) (lv i : Nat) :
    (emptyNode s lv i).pending = s.pending ∧ (emptyNode s lv i).boot.straps = s.boot.straps ∧
    (emptyNode s lv i).boot.revoked = s.boot.revoked := by
  unfold emptyNode
  try dsimp only
  repeat' split
  all_goals simp

@[simp] theorem settleNode_keeps (s : State) (lv i : Nat) :
    (settleNode s lv i).pending = s.pending ∧ (settleNode s lv i).boot.straps = s.boot.straps ∧
    (settleNode s lv i).boot.revoked = s.boot.revoked := by
  unfold settleNode
  try dsimp only
  repeat' split
  all_goals simp

@[simp] theorem startSettle_keeps (s : State) (l : List (Nat × Nat)) :
    (startSettle s l).pending = s.pending ∧ (startSettle s l).boot.straps = s.boot.straps ∧
    (startSettle s l).boot.revoked = s.boot.revoked := by
  unfold startSettle
  try dsimp only
  repeat' split
  all_goals simp

@[simp] theorem wakeNode_keeps (s : State) (lv i v : Nat) :
    (wakeNode s lv i v).pending = s.pending ∧ (wakeNode s lv i v).boot.straps = s.boot.straps ∧
    (wakeNode s lv i v).boot.revoked = s.boot.revoked := by
  unfold wakeNode
  try dsimp only
  repeat' split
  all_goals simp

@[simp] theorem finishNode_keeps (s : State) (lv i len : Nat) :
    (finishNode s lv i len).pending = s.pending ∧ (finishNode s lv i len).boot.straps = s.boot.straps ∧
    (finishNode s lv i len).boot.revoked = s.boot.revoked := by
  unfold finishNode
  try dsimp only
  repeat' split
  all_goals simp

@[simp] theorem leaveNode_keeps (s : State) (lv i tag v : Nat) :
    (leaveNode s lv i tag v).pending = s.pending ∧ (leaveNode s lv i tag v).boot.straps = s.boot.straps ∧
    (leaveNode s lv i tag v).boot.revoked = s.boot.revoked := by
  unfold leaveNode
  try dsimp only
  repeat' split
  all_goals simp

@[simp] theorem leaveTags_keeps (s : State) (k : Nat) :
    (leaveTags s k).pending = s.pending ∧ (leaveTags s k).boot.straps = s.boot.straps ∧
    (leaveTags s k).boot.revoked = s.boot.revoked := by
  unfold leaveTags
  try dsimp only
  repeat' split
  all_goals simp

@[simp] theorem setV_keeps (s : State) (lv i v : Nat) :
    (setV s lv i v).pending = s.pending ∧ (setV s lv i v).boot.straps = s.boot.straps ∧
    (setV s lv i v).boot.revoked = s.boot.revoked := by
  unfold setV
  try dsimp only
  repeat' split
  all_goals simp

@[simp] theorem serveTags_keeps (s : State) (u q len : Nat) :
    (serveTags s u q len).pending = s.pending ∧ (serveTags s u q len).boot.straps = s.boot.straps ∧
    (serveTags s u q len).boot.revoked = s.boot.revoked := by
  unfold serveTags
  try dsimp only
  repeat' split
  all_goals simp

@[simp] theorem serveUpTags_keeps (s : State) (q k len : Nat) :
    (serveUpTags s q k len).pending = s.pending ∧ (serveUpTags s q k len).boot.straps = s.boot.straps ∧
    (serveUpTags s q k len).boot.revoked = s.boot.revoked := by
  unfold serveUpTags
  try dsimp only
  repeat' split
  all_goals simp

@[simp] theorem queueBump_keeps (s : State) (k j n : Nat) :
    (queueBump s k j n).pending = s.pending ∧ (queueBump s k j n).boot.straps = s.boot.straps ∧
    (queueBump s k j n).boot.revoked = s.boot.revoked := by
  unfold queueBump
  try dsimp only
  repeat' split
  all_goals simp

@[simp] theorem queueCount_keeps (s : State) (k j i n : Nat) :
    (queueCount s k j i n).pending = s.pending ∧ (queueCount s k j i n).boot.straps = s.boot.straps ∧
    (queueCount s k j i n).boot.revoked = s.boot.revoked := by
  unfold queueCount
  try dsimp only
  repeat' split
  all_goals simp

@[simp] theorem emptyOver_keeps (s : State) (k : Nat) :
    (emptyOver s k).pending = s.pending ∧ (emptyOver s k).boot.straps = s.boot.straps ∧
    (emptyOver s k).boot.revoked = s.boot.revoked := by
  unfold emptyOver
  try dsimp only
  repeat' split
  all_goals simp

@[simp] theorem dropLost_keeps (n : Nat) (s : State) (k : Nat) :
    (dropLost n s k).pending = s.pending ∧
    (dropLost n s k).boot.straps = s.boot.straps ∧
    (dropLost n s k).boot.revoked = s.boot.revoked := by
  induction n generalizing s with
  | zero => simp [dropLost]
  | succ n ih =>
    simp only [dropLost]
    repeat' split
    all_goals simp [ih]

@[simp] theorem popHead_keeps (s : State) (k : Nat) :
    (popHead s k).pending = s.pending ∧ (popHead s k).boot.straps = s.boot.straps ∧
    (popHead s k).boot.revoked = s.boot.revoked := by
  unfold popHead
  try dsimp only
  repeat' split
  all_goals simp

@[simp] theorem serveFragment_keeps (s : State) (p g c : Nat) (f : QFrame) :
    (serveFragment s p g c f).1.pending = s.pending ∧ (serveFragment s p g c f).1.boot.straps = s.boot.straps ∧
    (serveFragment s p g c f).1.boot.revoked = s.boot.revoked := by
  unfold serveFragment
  try dsimp only
  repeat' split
  all_goals simp

end Sys2Proof.Machine
end

