-- ==== Sys2Proof/Laws/KeepQueue.lean ====
section
/-! SUPPORT. What each operation of Machine/Queue.lean leaves alone. -/

namespace Sys2Proof.Machine

@[simp] theorem refuseFrame_keeps (s : State) (p : Packet) (owner : Nat) :
    (refuseFrame s p owner).pending = s.pending ∧ (refuseFrame s p owner).boot.straps = s.boot.straps ∧
    (refuseFrame s p owner).boot.revoked = s.boot.revoked := by
  unfold refuseFrame
  try dsimp only
  repeat' split
  all_goals simp

@[simp] theorem tailDrop_keeps (s : State) (k len : Nat) :
    (tailDrop s k len).pending = s.pending ∧ (tailDrop s k len).boot.straps = s.boot.straps ∧
    (tailDrop s k len).boot.revoked = s.boot.revoked := by
  unfold tailDrop
  try dsimp only
  repeat' split
  all_goals simp

@[simp] theorem wakeOver_keeps (s : State) (k : Nat) (idle : List Nat) :
    (wakeOver s k idle).pending = s.pending ∧ (wakeOver s k idle).boot.straps = s.boot.straps ∧
    (wakeOver s k idle).boot.revoked = s.boot.revoked := by
  unfold wakeOver
  try dsimp only
  repeat' split
  all_goals simp

@[simp] theorem linkFrame_keeps (s : State) (k : Nat) (f : QFrame) :
    (linkFrame s k f).pending = s.pending ∧ (linkFrame s k f).boot.straps = s.boot.straps ∧
    (linkFrame s k f).boot.revoked = s.boot.revoked := by
  unfold linkFrame
  try dsimp only
  repeat' split
  all_goals simp

theorem stackedBuf_keeps (s : State) (k : Nat) (p : Packet) (repl : Bool) (owner : Nat) (x : Nat × State)
    (h : stackedBuf s k p repl owner = some x) :
    x.2.pending = s.pending ∧
    x.2.boot.straps = s.boot.straps ∧
    x.2.boot.revoked = s.boot.revoked := by
  unfold stackedBuf at h
  simp only at h
  repeat' split at h
  all_goals first
    | (cases h; simp)
    | (have := askBytes_keeps _ _ _ _ _ _ h; simp_all)
    | (obtain ⟨y, hy, rfl⟩ := Option.map_eq_some_iff.mp h
       have := askBytes_keeps _ _ _ _ _ _ hy
       simp_all)


@[simp] theorem notePlace_keeps (s : State) (pl : Place) :
    (notePlace s pl).pending = s.pending ∧ (notePlace s pl).boot.straps = s.boot.straps ∧
    (notePlace s pl).boot.revoked = s.boot.revoked := by
  unfold notePlace
  try dsimp only
  repeat' split
  all_goals simp

@[simp] theorem dropPacket_keeps (k : Nat) (p : Packet) (repl : Bool) (owner : Nat) (s : State) :
    (dropPacket k p repl owner s).pending = s.pending ∧ (dropPacket k p repl owner s).boot.straps = s.boot.straps ∧
    (dropPacket k p repl owner s).boot.revoked = s.boot.revoked := by
  unfold dropPacket
  try dsimp only
  repeat' split
  all_goals simp

@[simp] theorem enqueue_keeps (s : State) (k : Nat) (p : Packet) (repl : Bool) (owner : Nat) (c : Option CtxId) :
    (enqueue s k p repl owner c).1.pending = s.pending ∧
    (enqueue s k p repl owner c).1.boot.straps = s.boot.straps ∧
    (enqueue s k p repl owner c).1.boot.revoked = s.boot.revoked := by
  unfold enqueue
  dsimp only
  repeat' split
  all_goals first
    | (simp; done)
    | (rename_i h
       have := stackedBuf_keeps _ _ _ _ _ _ h
       simp_all)


@[simp] theorem setFrame_keeps (s : State) (k i : Nat) (f : QFrame) :
    (setFrame s k i f).pending = s.pending ∧ (setFrame s k i f).boot.straps = s.boot.straps ∧
    (setFrame s k i f).boot.revoked = s.boot.revoked := by
  unfold setFrame
  try dsimp only
  repeat' split
  all_goals simp

theorem moveFrame_keeps (s : State) (k i r tier : Nat) (f : QFrame) (x : State)
    (h : moveFrame s k i r tier f = some x) :
    x.pending = s.pending ∧
    x.boot.straps = s.boot.straps ∧
    x.boot.revoked = s.boot.revoked := by
  unfold moveFrame at h
  split at h
  · cases h
  · rename_i y hy
    have := askBytes_keeps _ _ _ _ _ _ hy
    cases h
    simp_all


theorem prefetch_keeps (s : State) (k : Nat) (x : State)
    (h : prefetch s k = some x) :
    x.pending = s.pending ∧
    x.boot.straps = s.boot.straps ∧
    x.boot.revoked = s.boot.revoked := by
  unfold prefetch at h
  split at h
  · cases h; simp
  · obtain ⟨y, hy, rfl⟩ := Option.map_eq_some_iff.mp h
    have := moveFrame_keeps _ _ _ _ _ _ _ hy
    simp_all


theorem migrateOne_keeps (s : State) (n : Nat) (x : State)
    (h : migrateOne s n = some x) :
    x.pending = s.pending ∧
    x.boot.straps = s.boot.straps ∧
    x.boot.revoked = s.boot.revoked := by
  unfold migrateOne at h
  split at h
  · cases h; simp
  · obtain ⟨y, hy, rfl⟩ := Option.map_eq_some_iff.mp h
    rcases Option.or_eq_some_iff.mp hy with hz | ⟨_, hz⟩
    all_goals
      have := moveFrame_keeps _ _ _ _ _ _ _ hz
      simp_all


@[simp] theorem spillOne_keeps (s : State) :
    (spillOne s).pending = s.pending ∧
    (spillOne s).boot.straps = s.boot.straps ∧
    (spillOne s).boot.revoked = s.boot.revoked := by
  unfold spillOne
  split
  · simp
  · split
    · simp
    · split
      · simp
      · rename_i h
        have := moveFrame_keeps _ _ _ _ _ _ _ h
        simp_all


@[simp] theorem loseFrames_keeps (s : State) (x : Nat) :
    (loseFrames s x).pending = s.pending ∧ (loseFrames s x).boot.straps = s.boot.straps ∧
    (loseFrames s x).boot.revoked = s.boot.revoked := by
  unfold loseFrames
  try dsimp only
  repeat' split
  all_goals simp

@[simp] theorem loseExpander_keeps (s : State) (x : Nat) :
    (loseExpander s x).pending = s.pending ∧ (loseExpander s x).boot.straps = s.boot.straps ∧
    (loseExpander s x).boot.revoked = s.boot.revoked := by
  unfold loseExpander
  try dsimp only
  repeat' split
  all_goals simp

end Sys2Proof.Machine
end

