-- ==== Sys2Proof/Laws/KeepQueueCmd.lean ====
section
/-! SUPPORT. What each operation of Machine/QueueCmd.lean leaves alone. -/

namespace Sys2Proof.Machine

@[simp] theorem qStat_keeps (s : State) (own rej : Bool) :
    (qStat s own rej).pending = s.pending ∧ (qStat s own rej).boot.straps = s.boot.straps ∧
    (qStat s own rej).boot.revoked = s.boot.revoked := by
  unfold qStat
  try dsimp only
  repeat' split
  all_goals simp

@[simp] theorem showQueueWords_keeps (s : State) (ws cs : List Word) :
    (showQueueWords s ws cs).pending = s.pending ∧ (showQueueWords s ws cs).boot.straps = s.boot.straps ∧
    (showQueueWords s ws cs).boot.revoked = s.boot.revoked := by
  unfold showQueueWords
  try dsimp only
  repeat' split
  all_goals simp

theorem queueCmd_keeps (o : Origin) (body : State → Nat → State × Nat) (s : State)
    (h : ∀ x0 x1, (body x0 x1).1.pending = x0.pending ∧
      (body x0 x1).1.boot.straps = x0.boot.straps ∧
      (body x0 x1).1.boot.revoked = x0.boot.revoked) :
    (queueCmd o body s).pending = s.pending ∧ (queueCmd o body s).boot.straps = s.boot.straps ∧
    (queueCmd o body s).boot.revoked = s.boot.revoked := by
  unfold queueCmd
  try dsimp only
  repeat' split
  all_goals first | (simp; done) | ((first | apply command_keeps); intros; (try dsimp only); (repeat' split) <;> simp_all)

theorem execQueueRead_keeps (o : Origin) (s : State) :
    ∃ z, execQueueRead o s = .next z ∧ z.pending = s.pending ∧ z.boot.straps = s.boot.straps ∧ z.boot.revoked = s.boot.revoked := by
  unfold execQueueRead
  try dsimp only
  repeat' split
  all_goals first | (refine ⟨_, rfl, ?_⟩; simp; done) | (refine ⟨_, rfl, ?_⟩; (first | apply queueCmd_keeps); intros; (try dsimp only); (repeat' split) <;> simp_all)

theorem execQueueWrite_keeps (o : Origin) (s : State) :
    ∃ z, execQueueWrite o s = .next z ∧ z.pending = s.pending ∧ z.boot.straps = s.boot.straps ∧ z.boot.revoked = s.boot.revoked := by
  unfold execQueueWrite
  try dsimp only
  repeat' split
  all_goals first | (refine ⟨_, rfl, ?_⟩; simp; done) | (refine ⟨_, rfl, ?_⟩; (first | apply queueCmd_keeps); intros; (try dsimp only); (repeat' split) <;> simp_all)

theorem execQueueCounterClear_keeps (o : Origin) (s : State) :
    ∃ z, execQueueCounterClear o s = .next z ∧ z.pending = s.pending ∧ z.boot.straps = s.boot.straps ∧
    z.boot.revoked = s.boot.revoked := by
  unfold execQueueCounterClear
  try dsimp only
  repeat' split
  all_goals first | (refine ⟨_, rfl, ?_⟩; simp; done) | (refine ⟨_, rfl, ?_⟩; (first | apply queueCmd_keeps); intros; (try dsimp only); (repeat' split) <;> simp_all)

theorem tmqOnuCmd_keeps (o : Origin) (body : State → Nat → State × Nat) (s : State)
    (h : ∀ x0 x1, (body x0 x1).1.pending = x0.pending ∧
      (body x0 x1).1.boot.straps = x0.boot.straps ∧
      (body x0 x1).1.boot.revoked = x0.boot.revoked) :
    (tmqOnuCmd o body s).pending = s.pending ∧ (tmqOnuCmd o body s).boot.straps = s.boot.straps ∧
    (tmqOnuCmd o body s).boot.revoked = s.boot.revoked := by
  unfold tmqOnuCmd
  try dsimp only
  repeat' split
  all_goals first | (simp; done) | ((first | apply command_keeps); intros; (try dsimp only); (repeat' split) <;> simp_all)

theorem execTmqOnuRead_keeps (o : Origin) (s : State) :
    ∃ z, execTmqOnuRead o s = .next z ∧ z.pending = s.pending ∧ z.boot.straps = s.boot.straps ∧ z.boot.revoked = s.boot.revoked := by
  unfold execTmqOnuRead
  try dsimp only
  repeat' split
  all_goals first | (refine ⟨_, rfl, ?_⟩; simp; done) | (refine ⟨_, rfl, ?_⟩; (first | apply tmqOnuCmd_keeps); intros; (try dsimp only); (repeat' split) <;> simp_all)

theorem execTmqOnuWrite_keeps (o : Origin) (s : State) :
    ∃ z, execTmqOnuWrite o s = .next z ∧ z.pending = s.pending ∧ z.boot.straps = s.boot.straps ∧
    z.boot.revoked = s.boot.revoked := by
  unfold execTmqOnuWrite
  try dsimp only
  repeat' split
  all_goals first | (refine ⟨_, rfl, ?_⟩; simp; done) | (refine ⟨_, rfl, ?_⟩; (first | apply tmqOnuCmd_keeps); intros; (try dsimp only); (repeat' split) <;> simp_all)

@[simp] theorem nodeStat_keeps (s : State) (own rej : Bool) :
    (nodeStat s own rej).pending = s.pending ∧ (nodeStat s own rej).boot.straps = s.boot.straps ∧
    (nodeStat s own rej).boot.revoked = s.boot.revoked := by
  unfold nodeStat
  try dsimp only
  repeat' split
  all_goals simp

theorem nodeCmd_keeps (o : Origin) (body : State → Nat → Nat → State × Nat) (s : State)
    (h : ∀ x0 x1 x2, (body x0 x1 x2).1.pending = x0.pending ∧
      (body x0 x1 x2).1.boot.straps = x0.boot.straps ∧
      (body x0 x1 x2).1.boot.revoked = x0.boot.revoked) :
    (nodeCmd o body s).pending = s.pending ∧ (nodeCmd o body s).boot.straps = s.boot.straps ∧
    (nodeCmd o body s).boot.revoked = s.boot.revoked := by
  unfold nodeCmd
  try dsimp only
  repeat' split
  all_goals first | (simp; done) | ((first | apply command_keeps); intros; (try dsimp only); (repeat' split) <;> simp_all)

theorem execNodeRead_keeps (o : Origin) (s : State) :
    ∃ z, execNodeRead o s = .next z ∧ z.pending = s.pending ∧ z.boot.straps = s.boot.straps ∧ z.boot.revoked = s.boot.revoked := by
  unfold execNodeRead
  try dsimp only
  repeat' split
  all_goals first | (refine ⟨_, rfl, ?_⟩; simp; done) | (refine ⟨_, rfl, ?_⟩; (first | apply nodeCmd_keeps); intros; (try dsimp only); (repeat' split) <;> simp_all)

theorem execNodeWrite_keeps (o : Origin) (s : State) :
    ∃ z, execNodeWrite o s = .next z ∧ z.pending = s.pending ∧ z.boot.straps = s.boot.straps ∧ z.boot.revoked = s.boot.revoked := by
  unfold execNodeWrite
  try dsimp only
  repeat' split
  all_goals first | (refine ⟨_, rfl, ?_⟩; simp; done) | (refine ⟨_, rfl, ?_⟩; (first | apply nodeCmd_keeps); intros; (try dsimp only); (repeat' split) <;> simp_all)

theorem execNodeSettle_keeps (o : Origin) (s : State) :
    ∃ z, execNodeSettle o s = .next z ∧ z.pending = s.pending ∧ z.boot.straps = s.boot.straps ∧ z.boot.revoked = s.boot.revoked := by
  unfold execNodeSettle
  try dsimp only
  repeat' split
  all_goals first | (refine ⟨_, rfl, ?_⟩; simp; done) | (refine ⟨_, rfl, ?_⟩; (first | apply nodeCmd_keeps); intros; (try dsimp only); (repeat' split) <;> simp_all)

theorem execSettleEnd_keeps (level : Fin 5) (i : Nat) (s : State) :
    ∃ z, execSettleEnd level i s = .next z ∧ z.pending = s.pending ∧ z.boot.straps = s.boot.straps ∧
    z.boot.revoked = s.boot.revoked := by
  unfold execSettleEnd
  try dsimp only
  repeat' split
  all_goals refine ⟨_, rfl, ?_⟩
  all_goals simp

theorem execPrefetchMove_keeps (q : Fin 65536) (s : State) :
    ∃ z, execPrefetchMove q s = .next z ∧ z.pending = s.pending ∧ z.boot.straps = s.boot.straps ∧
      z.boot.revoked = s.boot.revoked := by
  unfold execPrefetchMove
  split
  · rename_i h
    have := prefetch_keeps _ _ _ h
    exact ⟨_, rfl, by simp_all, by simp_all, by simp_all⟩
  · split <;> exact ⟨_, rfl, by simp, by simp, by simp⟩

theorem execSpillWrite_keeps (s : State) :
    ∃ z, execSpillWrite s = .next z ∧ z.pending = s.pending ∧ z.boot.straps = s.boot.straps ∧ z.boot.revoked = s.boot.revoked := by
  unfold execSpillWrite
  try dsimp only
  repeat' split
  all_goals refine ⟨_, rfl, ?_⟩
  all_goals simp

@[simp] theorem answerBpm_keeps (s : State) (c : CtxId) (r : UnitRes) :
    (answerBpm s c r).pending = s.pending ∧ (answerBpm s c r).boot.straps = s.boot.straps ∧
    (answerBpm s c r).boot.revoked = s.boot.revoked := by
  unfold answerBpm
  try dsimp only
  repeat' split
  all_goals simp

@[simp] theorem answerTmq_keeps (s : State) (c : Option CtxId) (out : EnqOut) :
    (answerTmq s c out).pending = s.pending ∧ (answerTmq s c out).boot.straps = s.boot.straps ∧
    (answerTmq s c out).boot.revoked = s.boot.revoked := by
  unfold answerTmq
  try dsimp only
  repeat' split
  all_goals simp

theorem cxlCmd_keeps (o : Origin) (x : Fin 4) (body : State → State × Nat) (s : State)
    (h : ∀ x0, (body x0).1.pending = x0.pending ∧
      (body x0).1.boot.straps = x0.boot.straps ∧
      (body x0).1.boot.revoked = x0.boot.revoked) :
    (cxlCmd o x body s).pending = s.pending ∧ (cxlCmd o x body s).boot.straps = s.boot.straps ∧
    (cxlCmd o x body s).boot.revoked = s.boot.revoked := by
  unfold cxlCmd
  try dsimp only
  repeat' split
  all_goals first | (simp; done) | ((first | apply command_keeps); intros; (try dsimp only); (repeat' split) <;> simp_all)

theorem execCxlMigrate_keeps (o : Origin) (x : Fin 4) (s : State) :
    ∃ z, execCxlMigrate o x s = .next z ∧ z.pending = s.pending ∧ z.boot.straps = s.boot.straps ∧
    z.boot.revoked = s.boot.revoked := by
  unfold execCxlMigrate
  try dsimp only
  repeat' split
  all_goals first | (refine ⟨_, rfl, ?_⟩; simp; done) | (refine ⟨_, rfl, ?_⟩; (first | apply cxlCmd_keeps); intros; (try dsimp only); (repeat' split) <;> simp_all)

theorem execCxlCancel_keeps (o : Origin) (x : Fin 4) (s : State) :
    ∃ z, execCxlCancel o x s = .next z ∧ z.pending = s.pending ∧ z.boot.straps = s.boot.straps ∧
    z.boot.revoked = s.boot.revoked := by
  unfold execCxlCancel
  try dsimp only
  repeat' split
  all_goals first | (refine ⟨_, rfl, ?_⟩; simp; done) | (refine ⟨_, rfl, ?_⟩; (first | apply cxlCmd_keeps); intros; (try dsimp only); (repeat' split) <;> simp_all)

theorem execCxlLinkDown_keeps (o : Origin) (x : Fin 4) (s : State) :
    ∃ z, execCxlLinkDown o x s = .next z ∧ z.pending = s.pending ∧ z.boot.straps = s.boot.straps ∧
    z.boot.revoked = s.boot.revoked := by
  unfold execCxlLinkDown
  try dsimp only
  repeat' split
  all_goals first | (refine ⟨_, rfl, ?_⟩; simp; done) | (refine ⟨_, rfl, ?_⟩; (first | apply cxlCmd_keeps); intros; (try dsimp only); (repeat' split) <;> simp_all)

theorem execCxlLinkUp_keeps (o : Origin) (x : Fin 4) (capGib : Nat) (s : State) :
    ∃ z, execCxlLinkUp o x capGib s = .next z ∧ z.pending = s.pending ∧ z.boot.straps = s.boot.straps ∧
    z.boot.revoked = s.boot.revoked := by
  unfold execCxlLinkUp
  try dsimp only
  repeat' split
  all_goals first | (refine ⟨_, rfl, ?_⟩; simp; done) | (refine ⟨_, rfl, ?_⟩; (first | apply cxlCmd_keeps); intros; (try dsimp only); (repeat' split) <;> simp_all)

theorem execCxlTrainTimeout_keeps (x : Fin 4) (s : State) :
    ∃ z, execCxlTrainTimeout x s = .next z ∧ z.pending = s.pending ∧ z.boot.straps = s.boot.straps ∧
    z.boot.revoked = s.boot.revoked := by
  unfold execCxlTrainTimeout
  try dsimp only
  repeat' split
  all_goals refine ⟨_, rfl, ?_⟩
  all_goals simp

theorem execMigrationDone_keeps (x : Fin 4) (s : State) :
    ∃ z, execMigrationDone x s = .next z ∧ z.pending = s.pending ∧ z.boot.straps = s.boot.straps ∧
    z.boot.revoked = s.boot.revoked := by
  unfold execMigrationDone
  try dsimp only
  repeat' split
  all_goals refine ⟨_, rfl, ?_⟩
  all_goals simp

theorem execMigrationBufferMove_keeps (x : Fin 4) (s : State) :
    ∃ z, execMigrationBufferMove x s = .next z ∧ z.pending = s.pending ∧ z.boot.straps = s.boot.straps ∧ z.boot.revoked = s.boot.revoked := by
  unfold execMigrationBufferMove
  split
  · exact ⟨_, rfl, rfl, rfl, rfl⟩
  · split
    · rename_i h
      have := migrateOne_keeps _ _ _ h
      exact ⟨_, rfl, by simp_all, by simp_all, by simp_all⟩
    · split <;> exact ⟨_, rfl, by simp, by simp, by simp⟩

theorem execExpanderLinkLost_keeps (x : Fin 4) (s : State) :
    ∃ z, execExpanderLinkLost x s = .next z ∧ z.pending = s.pending ∧ z.boot.straps = s.boot.straps ∧
    z.boot.revoked = s.boot.revoked := by
  unfold execExpanderLinkLost
  try dsimp only
  repeat' split
  all_goals refine ⟨_, rfl, ?_⟩
  all_goals simp

theorem execStackFail_keeps (stack : Fin 4) (s : State) :
    ∃ z, execStackFail stack s = .next z ∧ z.pending = s.pending ∧ z.boot.straps = s.boot.straps ∧
    z.boot.revoked = s.boot.revoked := by
  unfold execStackFail
  try dsimp only
  repeat' split
  all_goals refine ⟨_, rfl, ?_⟩
  all_goals simp

end Sys2Proof.Machine
end

