-- ==== Sys2Proof/Laws/KeepReceive.lean ====
section
/-! SUPPORT. What each operation of Machine/Receive.lean leaves alone. -/

namespace Sys2Proof.Machine

@[simp] theorem abortPartial_keeps (s : State) (p i x : Nat) :
    (abortPartial s p i x).pending = s.pending ∧ (abortPartial s p i x).boot.straps = s.boot.straps ∧
    (abortPartial s p i x).boot.revoked = s.boot.revoked := by
  unfold abortPartial
  try dsimp only
  repeat' split
  all_goals simp

@[simp] theorem abortAll_keeps (s : State) (p i : Nat) :
    (abortAll s p i).pending = s.pending ∧ (abortAll s p i).boot.straps = s.boot.straps ∧
    (abortAll s p i).boot.revoked = s.boot.revoked := by
  unfold abortAll
  try dsimp only
  repeat' split
  all_goals simp

@[simp] theorem deliver_keeps (s : State) (p c i portId mapFrame len : Nat) (bytes : List Byte) :
    (deliver s p c i portId mapFrame len bytes).pending = s.pending ∧
    (deliver s p c i portId mapFrame len bytes).boot.straps = s.boot.straps ∧
    (deliver s p c i portId mapFrame len bytes).boot.revoked = s.boot.revoked := by
  unfold deliver
  try dsimp only
  repeat' split
  all_goals simp

@[simp] theorem reassemble_keeps (s : State) (p c i x portId mapFrame : Nat) (first last : Bool) (len : Nat) (bytes : List Byte) :
    (reassemble s p c i x portId mapFrame first last len bytes).pending = s.pending ∧
    (reassemble s p c i x portId mapFrame first last len bytes).boot.straps = s.boot.straps ∧
    (reassemble s p c i x portId mapFrame first last len bytes).boot.revoked = s.boot.revoked := by
  unfold reassemble
  try dsimp only
  repeat' split
  all_goals simp

@[simp] theorem decrypt_keeps (s : State) (p c i : Nat) (g : GemIn) :
    (decrypt s p c i g).1.pending = s.pending ∧ (decrypt s p c i g).1.boot.straps = s.boot.straps ∧
    (decrypt s p c i g).1.boot.revoked = s.boot.revoked := by
  unfold decrypt
  try dsimp only
  repeat' split
  all_goals simp

@[simp] theorem takeFrame_keeps (s : State) (p c i m : Nat) (g : GemIn) :
    (takeFrame s p c i m g).pending = s.pending ∧
    (takeFrame s p c i m g).boot.straps = s.boot.straps ∧
    (takeFrame s p c i m g).boot.revoked = s.boot.revoked := by
  unfold takeFrame
  split
  · simp
  · have h := decrypt_keeps s p c i g
    generalize decrypt s p c i g = r at *
    rcases r with ⟨s1, _ | n⟩ <;> simp_all

@[simp] theorem loseTail_keeps (s : State) (p c i n : Nat) :
    (loseTail s p c i n).pending = s.pending ∧ (loseTail s p c i n).boot.straps = s.boot.straps ∧
    (loseTail s p c i n).boot.revoked = s.boot.revoked := by
  unfold loseTail
  try dsimp only
  repeat' split
  all_goals simp

@[simp] theorem takeCodewords_keeps (s : State) (p i : Nat) (l : List Codeword) :
    (takeCodewords s p i l).pending = s.pending ∧ (takeCodewords s p i l).boot.straps = s.boot.straps ∧
    (takeCodewords s p i l).boot.revoked = s.boot.revoked := by
  unfold takeCodewords
  try dsimp only
  repeat' split
  all_goals simp

@[simp] theorem takePloam_keeps (p c i : Nat) (s : State) (m : List Byte × Bool) :
    (takePloam p c i s m).pending = s.pending ∧ (takePloam p c i s m).boot.straps = s.boot.straps ∧
    (takePloam p c i s m).boot.revoked = s.boot.revoked := by
  unfold takePloam
  try dsimp only
  repeat' split
  all_goals simp

@[simp] theorem serveSupervision_keeps (s : State) (p c : Nat) :
    (serveSupervision s p c).pending = s.pending ∧ (serveSupervision s p c).boot.straps = s.boot.straps ∧
    (serveSupervision s p c).boot.revoked = s.boot.revoked := by
  unfold serveSupervision
  try dsimp only
  repeat' split
  all_goals simp

@[simp] theorem drainSupervision_keeps (s : State) (p c : Nat) :
    (drainSupervision s p c).pending = s.pending ∧ (drainSupervision s p c).boot.straps = s.boot.straps ∧
    (drainSupervision s p c).boot.revoked = s.boot.revoked := by
  unfold drainSupervision
  try dsimp only
  repeat' split
  all_goals simp

@[simp] theorem takeReport_keeps (p c mapFrame : Nat) (late : Bool) (s : State) (r : ReportIn) :
    (takeReport p c mapFrame late s r).pending = s.pending ∧ (takeReport p c mapFrame late s r).boot.straps = s.boot.straps ∧
    (takeReport p c mapFrame late s r).boot.revoked = s.boot.revoked := by
  unfold takeReport
  try dsimp only
  repeat' split
  all_goals simp

@[simp] theorem burstSeen_keeps (s : State) (p i m : Nat) (light found valid : Bool) :
    (burstSeen s p i m light found valid).pending = s.pending ∧
    (burstSeen s p i m light found valid).boot.straps = s.boot.straps ∧
    (burstSeen s p i m light found valid).boot.revoked = s.boot.revoked := by
  unfold burstSeen
  simp only [ite_pending, ite_straps, ite_revoked, raiseDefect_keeps, clearDefect_keeps, setPmRec_frame, ite_self, and_self]

@[simp] theorem countBlocks_keeps (s : State) (p c i blocks errored bits errs : Nat) :
    (countBlocks s p c i blocks errored bits errs).pending = s.pending ∧
    (countBlocks s p c i blocks errored bits errs).boot.straps = s.boot.straps ∧
    (countBlocks s p c i blocks errored bits errs).boot.revoked = s.boot.revoked := by
  unfold countBlocks
  try dsimp only
  repeat' split
  all_goals simp

@[simp] theorem takeFrames_keeps (p c i m d : Nat) (l : List GemIn) (n : Nat) (s : State) :
    (takeFrames p c i m d l n s).1.pending = s.pending ∧
    (takeFrames p c i m d l n s).1.boot.straps = s.boot.straps ∧
    (takeFrames p c i m d l n s).1.boot.revoked = s.boot.revoked := by
  induction l generalizing n s with
  | nil => simp [takeFrames]
  | cons g l ih =>
    simp only [takeFrames]
    repeat' split
    all_goals simp [*]

@[simp] theorem takePayload_keeps (s : State) (p c : Nat) (g : Burst) (b : BurstIn) (cut : Option Nat) (hdrErr : Bool) :
    (takePayload s p c g b cut hdrErr).pending = s.pending ∧ (takePayload s p c g b cut hdrErr).boot.straps = s.boot.straps ∧
    (takePayload s p c g b cut hdrErr).boot.revoked = s.boot.revoked := by
  unfold takePayload
  try dsimp only
  repeat' split
  all_goals simp

@[simp] theorem takeBurst_keeps (s : State) (p c : Nat) (g : Burst) (b : BurstIn) (cut : Option Nat) :
    (takeBurst s p c g b cut).1.pending = s.pending ∧ (takeBurst s p c g b cut).1.boot.straps = s.boot.straps ∧
    (takeBurst s p c g b cut).1.boot.revoked = s.boot.revoked := by
  unfold takeBurst
  try dsimp only
  repeat' split
  all_goals simp

@[simp] theorem missBurst_keeps (s : State) (p c : Nat) (g : Burst) :
    (missBurst s p c g).pending = s.pending ∧ (missBurst s p c g).boot.straps = s.boot.straps ∧
    (missBurst s p c g).boot.revoked = s.boot.revoked := by
  unfold missBurst
  try dsimp only
  repeat' split
  all_goals simp

@[simp] theorem foundBurst_keeps (s : State) (p c : Nat) (g : Burst) (b : BurstIn) (off : Int) :
    (foundBurst s p c g b off).pending = s.pending ∧ (foundBurst s p c g b off).boot.straps = s.boot.straps ∧
    (foundBurst s p c g b off).boot.revoked = s.boot.revoked := by
  unfold foundBurst
  try dsimp only
  repeat' split
  all_goals simp

theorem execBurstReceive_keeps (p : Fin 32) (c : Fin 3) (b : BurstIn) (s : State) :
    ∃ z, execBurstReceive p c b s = .next z ∧ z.pending = s.pending ∧ z.boot.straps = s.boot.straps ∧
    z.boot.revoked = s.boot.revoked := by
  unfold execBurstReceive
  try dsimp only
  repeat' split
  all_goals refine ⟨_, rfl, ?_⟩
  all_goals simp

end Sys2Proof.Machine
end

