-- ==== Sys2Proof/Laws/KeepAlloc.lean ====
section
/-! SUPPORT. What each operation of Machine/Alloc.lean leaves alone. -/

namespace Sys2Proof.Machine

@[simp] theorem noteRefused_keeps (s : State) (p c : Nat) :
    (noteRefused s p c).pending = s.pending ∧ (noteRefused s p c).boot.straps = s.boot.straps ∧
    (noteRefused s p c).boot.revoked = s.boot.revoked := by
  unfold noteRefused
  try dsimp only
  repeat' split
  all_goals simp

@[simp] theorem noteSkip_keeps (s : State) (p c : Nat) :
    (noteSkip s p c).pending = s.pending ∧ (noteSkip s p c).boot.straps = s.boot.straps ∧
    (noteSkip s p c).boot.revoked = s.boot.revoked := by
  unfold noteSkip
  try dsimp only
  repeat' split
  all_goals simp

@[simp] theorem placeEntry_keeps (p c f : Nat) (a : State × Build) (te : Nat × TplEntry) :
    (placeEntry p c f a te).1.pending = a.1.pending ∧
    (placeEntry p c f a te).1.boot.straps = a.1.boot.straps ∧
    (placeEntry p c f a te).1.boot.revoked = a.1.boot.revoked := by
  unfold placeEntry
  dsimp only
  repeat' split
  all_goals simp

@[simp] theorem beginReranges_keeps (s : State) (p c : Nat) :
    (beginReranges s p c).pending = s.pending ∧ (beginReranges s p c).boot.straps = s.boot.straps ∧
    (beginReranges s p c).boot.revoked = s.boot.revoked := by
  unfold beginReranges
  try dsimp only
  repeat' split
  all_goals simp

@[simp] theorem reserveQuiet_keeps (s : State) (p c f : Nat) (q : Nat × Nat) :
    (reserveQuiet s p c f q).pending = s.pending ∧ (reserveQuiet s p c f q).boot.straps = s.boot.straps ∧
    (reserveQuiet s p c f q).boot.revoked = s.boot.revoked := by
  unfold reserveQuiet
  try dsimp only
  repeat' split
  all_goals simp

@[simp] theorem placeRanging_keeps (p c f : Nat) (a : State × Build) :
    (placeRanging p c f a).1.pending = a.1.pending ∧
    (placeRanging p c f a).1.boot.straps = a.1.boot.straps ∧
    (placeRanging p c f a).1.boot.revoked = a.1.boot.revoked := by
  unfold placeRanging
  dsimp only
  repeat' split
  all_goals simp

@[simp] theorem placeSurvey_keeps (p c f : Nat) (a : State × Build) :
    (placeSurvey p c f a).1.pending = a.1.pending ∧
    (placeSurvey p c f a).1.boot.straps = a.1.boot.straps ∧
    (placeSurvey p c f a).1.boot.revoked = a.1.boot.revoked := by
  unfold placeSurvey
  dsimp only
  repeat' split
  all_goals simp

@[simp] theorem layout_keeps (p c f i j size least : Nat) (a : State × Build) :
    (layout p c f i j size least a).1.pending = a.1.pending ∧
    (layout p c f i j size least a).1.boot.straps = a.1.boot.straps ∧
    (layout p c f i j size least a).1.boot.revoked = a.1.boot.revoked := by
  unfold layout
  dsimp only
  repeat' split
  all_goals simp

@[simp] theorem foldReport_keeps (p c : Nat) (s : State) (r : Report) :
    (foldReport p c s r).pending = s.pending ∧ (foldReport p c s r).boot.straps = s.boot.straps ∧
    (foldReport p c s r).boot.revoked = s.boot.revoked := by
  unfold foldReport
  try dsimp only
  repeat' split
  all_goals simp

@[simp] theorem takeReports_keeps (s : State) (p c f : Nat) :
    (takeReports s p c f).pending = s.pending ∧ (takeReports s p c f).boot.straps = s.boot.straps ∧
    (takeReports s p c f).boot.revoked = s.boot.revoked := by
  unfold takeReports
  try dsimp only
  repeat' split
  all_goals simp

@[simp] theorem placeSmall_keeps (p c f : Nat) (k : BurstKind) (a : State × Build) (i : Nat) :
    (placeSmall p c f k a i).1.pending = a.1.pending ∧
    (placeSmall p c f k a i).1.boot.straps = a.1.boot.straps ∧
    (placeSmall p c f k a i).1.boot.revoked = a.1.boot.revoked := by
  have hk : ∀ j size least s1 r, layout p c f i j size least a = (s1, r) → s1.pending = a.1.pending ∧
      s1.boot.straps = a.1.boot.straps ∧ s1.boot.revoked = a.1.boot.revoked := by
    intro j size least s1 r h
    have := layout_keeps p c f i j size least a
    rw [h] at this
    exact this
  unfold placeSmall
  dsimp only
  repeat' split
  all_goals first
    | (simp; done)
    | (rename_i h
       have := hk _ _ _ _ _ h
       simp_all)

@[simp] theorem placeData_keeps (p c f : Nat) (l : List Ask) (m : List Nat) (a : State × Build) (i : Nat) :
    (placeData p c f l m a i).1.pending = a.1.pending ∧
    (placeData p c f l m a i).1.boot.straps = a.1.boot.straps ∧
    (placeData p c f l m a i).1.boot.revoked = a.1.boot.revoked := by
  have hk : ∀ j size least s1 r, layout p c f i j size least a = (s1, r) → s1.pending = a.1.pending ∧
      s1.boot.straps = a.1.boot.straps ∧ s1.boot.revoked = a.1.boot.revoked := by
    intro j size least s1 r h
    have := layout_keeps p c f i j size least a
    rw [h] at this
    exact this
  unfold placeData
  dsimp only
  repeat' split
  all_goals first
    | (simp; done)
    | (rename_i h
       have := hk _ _ _ _ _ h
       simp_all)

@[simp] theorem fillMap_keeps (s : State) (p c f : Nat) (b : Build) :
    (fillMap s p c f b).1.pending = s.pending ∧ (fillMap s p c f b).1.boot.straps = s.boot.straps ∧
    (fillMap s p c f b).1.boot.revoked = s.boot.revoked := by
  unfold fillMap
  try dsimp only
  repeat' split
  all_goals simp

@[simp] theorem buildMap_keeps (s : State) (p c f : Nat) :
    (buildMap s p c f).1.pending = s.pending ∧ (buildMap s p c f).1.boot.straps = s.boot.straps ∧
    (buildMap s p c f).1.boot.revoked = s.boot.revoked := by
  unfold buildMap
  try dsimp only
  repeat' split
  all_goals simp

@[simp] theorem startPass_keeps (s : State) (p c : Nat) :
    (startPass s p c).pending = s.pending ∧ (startPass s p c).boot.straps = s.boot.straps ∧
    (startPass s p c).boot.revoked = s.boot.revoked := by
  unfold startPass
  try dsimp only
  repeat' split
  all_goals simp

@[simp] theorem reachTick_keeps (s : State) (t : Nat) :
    (reachTick s t).pending = s.pending ∧ (reachTick s t).boot.straps = s.boot.straps ∧
    (reachTick s t).boot.revoked = s.boot.revoked := by
  unfold reachTick
  try dsimp only
  repeat' split
  all_goals simp

@[simp] theorem showMap_keeps (s : State) (p c structs idle : Nat) :
    (showMap s p c structs idle).pending = s.pending ∧ (showMap s p c structs idle).boot.straps = s.boot.straps ∧
    (showMap s p c structs idle).boot.revoked = s.boot.revoked := by
  unfold showMap
  try dsimp only
  repeat' split
  all_goals simp

@[simp] theorem publishMap_keeps (s : State) (p c : Nat) (m : BwMap) :
    (publishMap s p c m).pending = s.pending ∧ (publishMap s p c m).boot.straps = s.boot.straps ∧
    (publishMap s p c m).boot.revoked = s.boot.revoked := by
  unfold publishMap
  try dsimp only
  repeat' split
  all_goals simp

theorem execMapInputDeadline_keeps (p : Fin 32) (c : Fin 3) (s : State) :
    ∃ z, execMapInputDeadline p c s = .next z ∧ z.pending = s.pending ∧ z.boot.straps = s.boot.straps ∧
    z.boot.revoked = s.boot.revoked := by
  unfold execMapInputDeadline
  try dsimp only
  repeat' split
  all_goals refine ⟨_, rfl, ?_⟩
  all_goals simp

theorem execMapSealed_keeps (p : Fin 32) (c : Fin 3) (buildGt : Nat) (s : State) :
    ∃ z, execMapSealed p c buildGt s = .next z ∧ z.pending = s.pending ∧ z.boot.straps = s.boot.straps ∧
    z.boot.revoked = s.boot.revoked := by
  unfold execMapSealed
  try dsimp only
  repeat' split
  all_goals refine ⟨_, rfl, ?_⟩
  all_goals simp

@[simp] theorem commitGrants_keeps (s : State) (p c : Nat) (b : Burst) :
    (commitGrants s p c b).pending = s.pending ∧ (commitGrants s p c b).boot.straps = s.boot.straps ∧
    (commitGrants s p c b).boot.revoked = s.boot.revoked := by
  unfold commitGrants
  try dsimp only
  repeat' split
  all_goals simp

@[simp] theorem openSurvey_keeps (s : State) (p c : Nat) (b : Burst) :
    (openSurvey s p c b).pending = s.pending ∧ (openSurvey s p c b).boot.straps = s.boot.straps ∧
    (openSurvey s p c b).boot.revoked = s.boot.revoked := by
  unfold openSurvey
  try dsimp only
  repeat' split
  all_goals simp

@[simp] theorem openRanging_keeps (s : State) (p c : Nat) (b : Burst) :
    (openRanging s p c b).pending = s.pending ∧ (openRanging s p c b).boot.straps = s.boot.straps ∧
    (openRanging s p c b).boot.revoked = s.boot.revoked := by
  unfold openRanging
  try dsimp only
  repeat' split
  all_goals simp

@[simp] theorem countGrant_keeps (s : State) (p c : Nat) (b : Burst) :
    (countGrant s p c b).pending = s.pending ∧ (countGrant s p c b).boot.straps = s.boot.straps ∧
    (countGrant s p c b).boot.revoked = s.boot.revoked := by
  unfold countGrant
  try dsimp only
  repeat' split
  all_goals simp

@[simp] theorem findRssi_keeps (s : State) (p c : Nat) :
    (findRssi s p c).pending = s.pending ∧ (findRssi s p c).boot.straps = s.boot.straps ∧
    (findRssi s p c).boot.revoked = s.boot.revoked := by
  unfold findRssi
  try dsimp only
  repeat' split
  all_goals simp

@[simp] theorem handBurst_keeps (p c : Nat) (s : State) (b : Burst) :
    (handBurst p c s b).pending = s.pending ∧ (handBurst p c s b).boot.straps = s.boot.straps ∧
    (handBurst p c s b).boot.revoked = s.boot.revoked := by
  unfold handBurst
  try dsimp only
  repeat' split
  all_goals simp

@[simp] theorem noteMisses_keeps (s : State) (p n : Nat) :
    (noteMisses s p n).pending = s.pending ∧
    (noteMisses s p n).boot.straps = s.boot.straps ∧
    (noteMisses s p n).boot.revoked = s.boot.revoked := by
  have go : ∀ b f i, ((List.range n).foldl (fun t _ => note t b f i) s).pending = s.pending ∧
      ((List.range n).foldl (fun t _ => note t b f i) s).boot.straps = s.boot.straps ∧
      ((List.range n).foldl (fun t _ => note t b f i) s).boot.revoked = s.boot.revoked := by
    intros
    simp
  exact go ..

@[simp] theorem loseMap_keeps (s : State) (p c : Nat) :
    (loseMap s p c).pending = s.pending ∧ (loseMap s p c).boot.straps = s.boot.straps ∧
    (loseMap s p c).boot.revoked = s.boot.revoked := by
  unfold loseMap
  try dsimp only
  repeat' split
  all_goals simp

theorem execMapOutput_keeps (p : Fin 32) (c : Fin 3) (s : State) :
    ∃ z, execMapOutput p c s = .next z ∧ z.pending = s.pending ∧ z.boot.straps = s.boot.straps ∧
    z.boot.revoked = s.boot.revoked := by
  unfold execMapOutput
  try dsimp only
  repeat' split
  all_goals refine ⟨_, rfl, ?_⟩
  all_goals simp

end Sys2Proof.Machine
end

