-- ==== Sys2Proof/Laws/KeepAllocCmd.lean ====
section
/-! SUPPORT. What each operation of Machine/AllocCmd.lean leaves alone. -/

namespace Sys2Proof.Machine

@[simp] theorem adStat_keeps (s : State) (p c : Nat) (own ch rej : Bool) :
    (adStat s p c own ch rej).pending = s.pending ∧ (adStat s p c own ch rej).boot.straps = s.boot.straps ∧
    (adStat s p c own ch rej).boot.revoked = s.boot.revoked := by
  unfold adStat
  try dsimp only
  repeat' split
  all_goals simp

@[simp] theorem dropReports_keeps (s : State) (p c allocId : Nat) :
    (dropReports s p c allocId).pending = s.pending ∧ (dropReports s p c allocId).boot.straps = s.boot.straps ∧
    (dropReports s p c allocId).boot.revoked = s.boot.revoked := by
  unfold dropReports
  try dsimp only
  repeat' split
  all_goals simp

theorem adCommand_keeps (o : Origin) (p c : Nat) (ok : Nat → AdRec → State → Bool) (body : Nat → State → State × Nat) (s : State)
    (h : ∀ i x, (body i x).1.pending = x.pending ∧ (body i x).1.boot.straps = x.boot.straps ∧
      (body i x).1.boot.revoked = x.boot.revoked) :
    (adCommand o p c ok body s).pending = s.pending ∧
    (adCommand o p c ok body s).boot.straps = s.boot.straps ∧
    (adCommand o p c ok body s).boot.revoked = s.boot.revoked := by
  unfold adCommand
  apply command_keeps
  intros
  dsimp only
  repeat' split
  all_goals simp [h]

theorem execAdRead_keeps (o : Origin) (p : Fin 32) (c : Fin 3) (s : State) :
    ∃ z, execAdRead o p c s = .next z ∧ z.pending = s.pending ∧ z.boot.straps = s.boot.straps ∧ z.boot.revoked = s.boot.revoked := by
  unfold execAdRead
  try dsimp only
  repeat' split
  all_goals first | (refine ⟨_, rfl, ?_⟩; simp; done) | (refine ⟨_, rfl, ?_⟩; (first | apply adCommand_keeps); intros; (try dsimp only); (repeat' split) <;> simp_all)

theorem execAdWrite_keeps (o : Origin) (p : Fin 32) (c : Fin 3) (s : State) :
    ∃ z, execAdWrite o p c s = .next z ∧ z.pending = s.pending ∧ z.boot.straps = s.boot.straps ∧
    z.boot.revoked = s.boot.revoked := by
  unfold execAdWrite
  try dsimp only
  repeat' split
  all_goals first | (refine ⟨_, rfl, ?_⟩; simp; done) | (refine ⟨_, rfl, ?_⟩; (first | apply adCommand_keeps); intros; (try dsimp only); (repeat' split) <;> simp_all)

theorem execAdClearGranted_keeps (o : Origin) (p : Fin 32) (c : Fin 3) (s : State) :
    ∃ z, execAdClearGranted o p c s = .next z ∧ z.pending = s.pending ∧ z.boot.straps = s.boot.straps ∧
    z.boot.revoked = s.boot.revoked := by
  unfold execAdClearGranted
  try dsimp only
  repeat' split
  all_goals first | (refine ⟨_, rfl, ?_⟩; simp; done) | (refine ⟨_, rfl, ?_⟩; (first | apply adCommand_keeps); intros; (try dsimp only); (repeat' split) <;> simp_all)

theorem obCommand_keeps (o : Origin) (p c : Nat) (body : Nat → State → State × Nat) (s : State)
    (h : ∀ i x, (body i x).1.pending = x.pending ∧ (body i x).1.boot.straps = x.boot.straps ∧
      (body i x).1.boot.revoked = x.boot.revoked) :
    (obCommand o p c body s).pending = s.pending ∧
    (obCommand o p c body s).boot.straps = s.boot.straps ∧
    (obCommand o p c body s).boot.revoked = s.boot.revoked := by
  unfold obCommand
  apply command_keeps
  intros
  dsimp only
  repeat' split
  all_goals simp [h]

theorem execObRead_keeps (o : Origin) (p : Fin 32) (c : Fin 3) (s : State) :
    ∃ z, execObRead o p c s = .next z ∧ z.pending = s.pending ∧ z.boot.straps = s.boot.straps ∧ z.boot.revoked = s.boot.revoked := by
  unfold execObRead
  try dsimp only
  repeat' split
  all_goals first | (refine ⟨_, rfl, ?_⟩; simp; done) | (refine ⟨_, rfl, ?_⟩; (first | apply obCommand_keeps); intros; (try dsimp only); (repeat' split) <;> simp_all)

theorem execObWrite_keeps (o : Origin) (p : Fin 32) (c : Fin 3) (s : State) :
    ∃ z, execObWrite o p c s = .next z ∧ z.pending = s.pending ∧ z.boot.straps = s.boot.straps ∧
    z.boot.revoked = s.boot.revoked := by
  unfold execObWrite
  try dsimp only
  repeat' split
  all_goals first | (refine ⟨_, rfl, ?_⟩; simp; done) | (refine ⟨_, rfl, ?_⟩; (first | apply obCommand_keeps); intros; (try dsimp only); (repeat' split) <;> simp_all)

@[simp] theorem showTpl_keeps (s : State) (p : Nat) :
    (showTpl s p).pending = s.pending ∧ (showTpl s p).boot.straps = s.boot.straps ∧
    (showTpl s p).boot.revoked = s.boot.revoked := by
  unfold showTpl
  try dsimp only
  repeat' split
  all_goals simp

theorem execTplLoad_keeps (o : Origin) (p : Fin 32) (s : State) :
    ∃ z, execTplLoad o p s = .next z ∧ z.pending = s.pending ∧ z.boot.straps = s.boot.straps ∧ z.boot.revoked = s.boot.revoked := by
  unfold execTplLoad
  try dsimp only
  repeat' split
  all_goals first | (refine ⟨_, rfl, ?_⟩; simp; done) | (refine ⟨_, rfl, ?_⟩; (first | apply command_keeps); intros; (try dsimp only); (repeat' split) <;> simp_all)

theorem execTplStop_keeps (o : Origin) (p : Fin 32) (s : State) :
    ∃ z, execTplStop o p s = .next z ∧ z.pending = s.pending ∧ z.boot.straps = s.boot.straps ∧ z.boot.revoked = s.boot.revoked := by
  unfold execTplStop
  try dsimp only
  repeat' split
  all_goals first | (refine ⟨_, rfl, ?_⟩; simp; done) | (refine ⟨_, rfl, ?_⟩; (first | apply command_keeps); intros; (try dsimp only); (repeat' split) <;> simp_all)

theorem execTplBegin_keeps (p : Fin 32) (t : Fin 16) (s : State) :
    ∃ z, execTplBegin p t s = .next z ∧ z.pending = s.pending ∧ z.boot.straps = s.boot.straps ∧ z.boot.revoked = s.boot.revoked := by
  unfold execTplBegin
  try dsimp only
  repeat' split
  all_goals refine ⟨_, rfl, ?_⟩
  all_goals simp

theorem execEntRead_keeps (o : Origin) (p : Fin 32) (s : State) :
    ∃ z, execEntRead o p s = .next z ∧ z.pending = s.pending ∧ z.boot.straps = s.boot.straps ∧ z.boot.revoked = s.boot.revoked := by
  unfold execEntRead
  try dsimp only
  repeat' split
  all_goals first | (refine ⟨_, rfl, ?_⟩; simp; done) | (refine ⟨_, rfl, ?_⟩; (first | apply command_keeps); intros; (try dsimp only); (repeat' split) <;> simp_all)

theorem execEntWrite_keeps (o : Origin) (p : Fin 32) (s : State) :
    ∃ z, execEntWrite o p s = .next z ∧ z.pending = s.pending ∧ z.boot.straps = s.boot.straps ∧ z.boot.revoked = s.boot.revoked := by
  unfold execEntWrite
  try dsimp only
  repeat' split
  all_goals first | (refine ⟨_, rfl, ?_⟩; simp; done) | (refine ⟨_, rfl, ?_⟩; (first | apply command_keeps); intros; (try dsimp only); (repeat' split) <;> simp_all)

end Sys2Proof.Machine
end

