-- ==== Sys2Proof/Laws/KeepEvents.lean ====
section
/-! SUPPORT. What each operation of Machine/Events.lean leaves alone. -/

namespace Sys2Proof.Machine

@[simp] theorem ringIrq_keeps (s : State) (f r : Nat) :
    (ringIrq s f r).pending = s.pending ∧ (ringIrq s f r).boot.straps = s.boot.straps ∧
    (ringIrq s f r).boot.revoked = s.boot.revoked := by
  unfold ringIrq
  try dsimp only
  repeat' split
  all_goals simp

@[simp] theorem deliverTo_keeps (s : State) (f r counter : Nat) (e : EvRec) :
    (deliverTo s f r counter e).pending = s.pending ∧ (deliverTo s f r counter e).boot.straps = s.boot.straps ∧
    (deliverTo s f r counter e).boot.revoked = s.boot.revoked := by
  unfold deliverTo
  try dsimp only
  repeat' split
  all_goals simp

theorem execEventDeliver_keeps (s : State) :
    ∃ z, execEventDeliver s = .next z ∧ z.pending = s.pending ∧ z.boot.straps = s.boot.straps ∧ z.boot.revoked = s.boot.revoked := by
  unfold execEventDeliver
  try dsimp only
  repeat' split
  all_goals refine ⟨_, rfl, ?_⟩
  all_goals simp

@[simp] theorem evtStat_keeps (s : State) (rej : Bool) :
    (evtStat s rej).pending = s.pending ∧ (evtStat s rej).boot.straps = s.boot.straps ∧
    (evtStat s rej).boot.revoked = s.boot.revoked := by
  unfold evtStat
  try dsimp only
  repeat' split
  all_goals simp

@[simp] theorem showEvRing_keeps (s : State) (x : EvRing) :
    (showEvRing s x).pending = s.pending ∧ (showEvRing s x).boot.straps = s.boot.straps ∧
    (showEvRing s x).boot.revoked = s.boot.revoked := by
  unfold showEvRing
  try dsimp only
  repeat' split
  all_goals simp

theorem evtCmd_keeps (o : Origin) (body : State → Nat → Nat → State × Nat) (s : State)
    (h : ∀ x0 x1 x2, (body x0 x1 x2).1.pending = x0.pending ∧
      (body x0 x1 x2).1.boot.straps = x0.boot.straps ∧
      (body x0 x1 x2).1.boot.revoked = x0.boot.revoked) :
    (evtCmd o body s).pending = s.pending ∧ (evtCmd o body s).boot.straps = s.boot.straps ∧
    (evtCmd o body s).boot.revoked = s.boot.revoked := by
  unfold evtCmd
  try dsimp only
  repeat' split
  all_goals first | (simp; done) | ((first | apply command_keeps); intros; (try dsimp only); (repeat' split) <;> simp_all)

theorem execEvtRingRead_keeps (o : Origin) (s : State) :
    ∃ z, execEvtRingRead o s = .next z ∧ z.pending = s.pending ∧ z.boot.straps = s.boot.straps ∧
    z.boot.revoked = s.boot.revoked := by
  unfold execEvtRingRead
  try dsimp only
  repeat' split
  all_goals first | (refine ⟨_, rfl, ?_⟩; simp; done) | (refine ⟨_, rfl, ?_⟩; (first | apply evtCmd_keeps); intros; (try dsimp only); (repeat' split) <;> simp_all)

theorem execEvtRingWrite_keeps (o : Origin) (s : State) :
    ∃ z, execEvtRingWrite o s = .next z ∧ z.pending = s.pending ∧ z.boot.straps = s.boot.straps ∧
    z.boot.revoked = s.boot.revoked := by
  unfold execEvtRingWrite
  try dsimp only
  repeat' split
  all_goals first | (refine ⟨_, rfl, ?_⟩; simp; done) | (refine ⟨_, rfl, ?_⟩; (first | apply evtCmd_keeps); intros; (try dsimp only); (repeat' split) <;> simp_all)

theorem execEvtRingStart_keeps (o : Origin) (s : State) :
    ∃ z, execEvtRingStart o s = .next z ∧ z.pending = s.pending ∧ z.boot.straps = s.boot.straps ∧
    z.boot.revoked = s.boot.revoked := by
  unfold execEvtRingStart
  try dsimp only
  repeat' split
  all_goals first | (refine ⟨_, rfl, ?_⟩; simp; done) | (refine ⟨_, rfl, ?_⟩; (first | apply evtCmd_keeps); intros; (try dsimp only); (repeat' split) <;> simp_all)

theorem execEvtRingStop_keeps (o : Origin) (s : State) :
    ∃ z, execEvtRingStop o s = .next z ∧ z.pending = s.pending ∧ z.boot.straps = s.boot.straps ∧
    z.boot.revoked = s.boot.revoked := by
  unfold execEvtRingStop
  try dsimp only
  repeat' split
  all_goals first | (refine ⟨_, rfl, ?_⟩; simp; done) | (refine ⟨_, rfl, ?_⟩; (first | apply evtCmd_keeps); intros; (try dsimp only); (repeat' split) <;> simp_all)

@[simp] theorem setCseq_keeps (s : State) (f : Fld) (n : Nat) :
    (setCseq s f n).pending = s.pending ∧ (setCseq s f n).boot.straps = s.boot.straps ∧
    (setCseq s f n).boot.revoked = s.boot.revoked := by
  unfold setCseq
  try dsimp only
  repeat' split
  all_goals simp

theorem execJournalStream_keeps (s : State) :
    ∃ z, execJournalStream s = .next z ∧ z.pending = s.pending ∧ z.boot.straps = s.boot.straps ∧
    z.boot.revoked = s.boot.revoked := by
  unfold execJournalStream
  try dsimp only
  repeat' split
  all_goals refine ⟨_, rfl, ?_⟩
  all_goals simp

theorem execJournalRecordRead_keeps (o : Origin) (data : Word) (s : State) :
    ∃ z, execJournalRecordRead o data s = .next z ∧ z.pending = s.pending ∧ z.boot.straps = s.boot.straps ∧
    z.boot.revoked = s.boot.revoked := by
  unfold execJournalRecordRead
  try dsimp only
  repeat' split
  all_goals first | (refine ⟨_, rfl, ?_⟩; simp; done) | (refine ⟨_, rfl, ?_⟩; (first | apply ownWrite_keeps); intros; (try dsimp only); (repeat' split) <;> simp_all)

@[simp] theorem showMr_keeps (s : State) :
    (showMr s).pending = s.pending ∧ (showMr s).boot.straps = s.boot.straps ∧ (showMr s).boot.revoked = s.boot.revoked := by
  unfold showMr
  try dsimp only
  repeat' split
  all_goals simp

theorem execJournalFlushDone_keeps (s : State) :
    ∃ z, execJournalFlushDone s = .next z ∧ z.pending = s.pending ∧ z.boot.straps = s.boot.straps ∧
    z.boot.revoked = s.boot.revoked := by
  unfold execJournalFlushDone
  try dsimp only
  repeat' split
  all_goals refine ⟨_, rfl, ?_⟩
  all_goals simp

theorem execSliceEnWrite_keeps (o : Origin) (data : Word) (s : State) :
    ∃ z, execSliceEnWrite o data s = .next z ∧ z.pending = s.pending ∧ z.boot.straps = s.boot.straps ∧
    z.boot.revoked = s.boot.revoked := by
  unfold execSliceEnWrite
  try dsimp only
  repeat' split
  all_goals first | (refine ⟨_, rfl, ?_⟩; simp; done) | (refine ⟨_, rfl, ?_⟩; (first | apply ownWrite_keeps); intros; (try dsimp only); (repeat' split) <;> simp_all)

@[simp] theorem slcStat_keeps (s : State) (rej : Bool) :
    (slcStat s rej).pending = s.pending ∧ (slcStat s rej).boot.straps = s.boot.straps ∧
    (slcStat s rej).boot.revoked = s.boot.revoked := by
  unfold slcStat
  try dsimp only
  repeat' split
  all_goals simp

theorem execSlcReadOwner_keeps (o : Origin) (s : State) :
    ∃ z, execSlcReadOwner o s = .next z ∧ z.pending = s.pending ∧ z.boot.straps = s.boot.straps ∧
    z.boot.revoked = s.boot.revoked := by
  unfold execSlcReadOwner
  try dsimp only
  repeat' split
  all_goals first | (refine ⟨_, rfl, ?_⟩; simp; done) | (refine ⟨_, rfl, ?_⟩; (first | apply command_keeps); intros; (try dsimp only); (repeat' split) <;> simp_all)

@[simp] theorem assign_keeps (s : State) (kind i v : Nat) :
    (assign s kind i v).pending = s.pending ∧ (assign s kind i v).boot.straps = s.boot.straps ∧
    (assign s kind i v).boot.revoked = s.boot.revoked := by
  unfold assign
  try dsimp only
  repeat' split
  all_goals simp

theorem execSlcAssign_keeps (o : Origin) (s : State) :
    ∃ z, execSlcAssign o s = .next z ∧ z.pending = s.pending ∧ z.boot.straps = s.boot.straps ∧ z.boot.revoked = s.boot.revoked := by
  unfold execSlcAssign
  try dsimp only
  repeat' split
  all_goals first | (refine ⟨_, rfl, ?_⟩; simp; done) | (refine ⟨_, rfl, ?_⟩; (first | apply command_keeps); intros; (try dsimp only); (repeat' split) <;> simp_all)

@[simp] theorem armKey_keeps (o : Origin) (addr : Nat) (data value : Word) (s : State) :
    (armKey o addr data value s).pending = s.pending ∧ (armKey o addr data value s).boot.straps = s.boot.straps ∧
    (armKey o addr data value s).boot.revoked = s.boot.revoked := by
  unfold armKey
  try dsimp only
  repeat' split
  all_goals first | (simp; done) | ((first | apply ownWrite_keeps); intros; (try dsimp only); (repeat' split) <;> simp_all)

theorem execResetKey_keeps (o : Origin) (data : Word) (s : State) :
    ∃ z, execResetKey o data s = .next z ∧ z.pending = s.pending ∧ z.boot.straps = s.boot.straps ∧
    z.boot.revoked = s.boot.revoked := by
  unfold execResetKey
  try dsimp only
  repeat' split
  all_goals refine ⟨_, rfl, ?_⟩
  all_goals simp

theorem execResetCmd_keeps (o : Origin) (data : Word) (s : State) :
    ∃ z, execResetCmd o data s = .next z ∧ z.pending = s.pending ∧ z.boot.straps = s.boot.straps ∧
      z.boot.revoked = s.boot.revoked := by
  unfold execResetCmd
  refine ⟨_, rfl, ?_⟩
  generalize addrReject s o (pgDEV + DEV_RESET_CMD.off) = r
  generalize (bitsOf data 0 1 == 1) = go
  generalize armedBy s o (pgDEV + DEV_RESET_KEY.off) = armed
  have hc : ∀ body : State → State × Nat, (∀ x, (body x).1.pending = x.pending ∧
      (body x).1.boot.straps = x.boot.straps ∧ (body x).1.boot.revoked = x.boot.revoked) → ∀ a i,
      (command o a i body s).pending = s.pending ∧ (command o a i body s).boot.straps = s.boot.straps ∧
      (command o a i body s).boot.revoked = s.boot.revoked := fun body h a i => command_keeps o a i body s h
  split
  · rw [resetChip_keeps .. |>.1, resetChip_keeps .. |>.2.1, resetChip_keeps .. |>.2.2]
    apply hc; intro x; (try dsimp only); split <;> simp
  · apply hc; intro x; (try dsimp only); split <;> simp


theorem execChipReset_keeps (s : State) :
    ∃ z, execChipReset s = .next z ∧ z.pending = s.pending ∧ z.boot.straps = s.boot.straps ∧ z.boot.revoked = s.boot.revoked := by
  unfold execChipReset
  try dsimp only
  repeat' split
  all_goals refine ⟨_, rfl, ?_⟩
  all_goals simp

end Sys2Proof.Machine
end

