-- ==== Sys2Proof/Laws/KeepKeys.lean ====
section
/-! SUPPORT. What each operation of Machine/Keys.lean leaves alone. -/

namespace Sys2Proof.Machine

@[simp] theorem rejectKey_keeps (s : State) :
    (rejectKey s).pending = s.pending ∧ (rejectKey s).boot.straps = s.boot.straps ∧
    (rejectKey s).boot.revoked = s.boot.revoked := by
  unfold rejectKey
  try dsimp only
  repeat' split
  all_goals simp

@[simp] theorem busySlot_keeps (s : State) (u : Nat) :
    (busySlot s u).pending = s.pending ∧ (busySlot s u).boot.straps = s.boot.straps ∧
    (busySlot s u).boot.revoked = s.boot.revoked := by
  unfold busySlot
  try dsimp only
  repeat' split
  all_goals simp

@[simp] theorem writeKey_keeps (s : State) (r : KeyReq) :
    (writeKey s r).1.pending = s.pending ∧ (writeKey s r).1.boot.straps = s.boot.straps ∧
    (writeKey s r).1.boot.revoked = s.boot.revoked := by
  unfold writeKey
  try dsimp only
  repeat' split
  all_goals simp

@[simp] theorem invalidateKey_keeps (s : State) (r : KeyReq) :
    (invalidateKey s r).1.pending = s.pending ∧ (invalidateKey s r).1.boot.straps = s.boot.straps ∧
    (invalidateKey s r).1.boot.revoked = s.boot.revoked := by
  unfold invalidateKey
  try dsimp only
  repeat' split
  all_goals simp

@[simp] theorem showSlot_keeps (s : State) (k : KeySlot) (kcv : Nat) (active : Bool) :
    (showSlot s k kcv active).pending = s.pending ∧ (showSlot s k kcv active).boot.straps = s.boot.straps ∧
    (showSlot s k kcv active).boot.revoked = s.boot.revoked := by
  unfold showSlot
  try dsimp only
  repeat' split
  all_goals simp

theorem keyCmd_keeps (o : Origin) (body : State → KeyReq → State × Nat) (s : State)
    (h : ∀ x0 x1, (body x0 x1).1.pending = x0.pending ∧
      (body x0 x1).1.boot.straps = x0.boot.straps ∧
      (body x0 x1).1.boot.revoked = x0.boot.revoked) :
    (keyCmd o body s).pending = s.pending ∧ (keyCmd o body s).boot.straps = s.boot.straps ∧
    (keyCmd o body s).boot.revoked = s.boot.revoked := by
  unfold keyCmd
  try dsimp only
  repeat' split
  all_goals first | (simp; done) | ((first | apply command_keeps); intros; (try dsimp only); (repeat' split) <;> simp_all)

theorem execKeyRead_keeps (o : Origin) (s : State) :
    ∃ z, execKeyRead o s = .next z ∧ z.pending = s.pending ∧ z.boot.straps = s.boot.straps ∧ z.boot.revoked = s.boot.revoked := by
  unfold execKeyRead
  try dsimp only
  repeat' split
  all_goals first | (refine ⟨_, rfl, ?_⟩; simp; done) | (refine ⟨_, rfl, ?_⟩; (first | apply keyCmd_keeps); intros; (try dsimp only); (repeat' split) <;> simp_all)

theorem execKeyWrite_keeps (o : Origin) (conflict : Bool) (s : State) :
    ∃ z, execKeyWrite o conflict s = .next z ∧ z.pending = s.pending ∧ z.boot.straps = s.boot.straps ∧
    z.boot.revoked = s.boot.revoked := by
  unfold execKeyWrite
  try dsimp only
  repeat' split
  all_goals first | (refine ⟨_, rfl, ?_⟩; simp; done) | (refine ⟨_, rfl, ?_⟩; (first | apply keyCmd_keeps); intros; (try dsimp only); (repeat' split) <;> simp_all)

theorem execKeyInvalidate_keeps (o : Origin) (s : State) :
    ∃ z, execKeyInvalidate o s = .next z ∧ z.pending = s.pending ∧ z.boot.straps = s.boot.straps ∧
    z.boot.revoked = s.boot.revoked := by
  unfold execKeyInvalidate
  try dsimp only
  repeat' split
  all_goals first | (refine ⟨_, rfl, ?_⟩; simp; done) | (refine ⟨_, rfl, ?_⟩; (first | apply keyCmd_keeps); intros; (try dsimp only); (repeat' split) <;> simp_all)

@[simp] theorem saStat_keeps (s : State) (q : Nat) (rej valid : Bool) :
    (saStat s q rej valid).pending = s.pending ∧ (saStat s q rej valid).boot.straps = s.boot.straps ∧
    (saStat s q rej valid).boot.revoked = s.boot.revoked := by
  unfold saStat
  try dsimp only
  repeat' split
  all_goals simp

theorem saCmd_keeps (o : Origin) (q : Nat) (body : State → Nat → State × Nat) (s : State)
    (h : ∀ x0 x1, (body x0 x1).1.pending = x0.pending ∧
      (body x0 x1).1.boot.straps = x0.boot.straps ∧
      (body x0 x1).1.boot.revoked = x0.boot.revoked) :
    (saCmd o q body s).pending = s.pending ∧ (saCmd o q body s).boot.straps = s.boot.straps ∧
    (saCmd o q body s).boot.revoked = s.boot.revoked := by
  unfold saCmd
  try dsimp only
  repeat' split
  all_goals first | (simp; done) | ((first | apply command_keeps); intros; (try dsimp only); (repeat' split) <;> simp_all)

theorem execSaRead_keeps (o : Origin) (q : Fin 24) (s : State) :
    ∃ z, execSaRead o q s = .next z ∧ z.pending = s.pending ∧ z.boot.straps = s.boot.straps ∧ z.boot.revoked = s.boot.revoked := by
  unfold execSaRead
  try dsimp only
  repeat' split
  all_goals first | (refine ⟨_, rfl, ?_⟩; simp; done) | (refine ⟨_, rfl, ?_⟩; (first | apply saCmd_keeps); intros; (try dsimp only); (repeat' split) <;> simp_all)

theorem execSaWrite_keeps (o : Origin) (q : Fin 24) (s : State) :
    ∃ z, execSaWrite o q s = .next z ∧ z.pending = s.pending ∧ z.boot.straps = s.boot.straps ∧ z.boot.revoked = s.boot.revoked := by
  unfold execSaWrite
  try dsimp only
  repeat' split
  all_goals first | (refine ⟨_, rfl, ?_⟩; simp; done) | (refine ⟨_, rfl, ?_⟩; (first | apply saCmd_keeps); intros; (try dsimp only); (repeat' split) <;> simp_all)

theorem execSaInvalidate_keeps (o : Origin) (q : Fin 24) (s : State) :
    ∃ z, execSaInvalidate o q s = .next z ∧ z.pending = s.pending ∧ z.boot.straps = s.boot.straps ∧
    z.boot.revoked = s.boot.revoked := by
  unfold execSaInvalidate
  try dsimp only
  repeat' split
  all_goals first | (refine ⟨_, rfl, ?_⟩; simp; done) | (refine ⟨_, rfl, ?_⟩; (first | apply saCmd_keeps); intros; (try dsimp only); (repeat' split) <;> simp_all)

theorem execTxAnSwitch_keeps (q : Fin 24) (s : State) :
    ∃ z, execTxAnSwitch q s = .next z ∧ z.pending = s.pending ∧ z.boot.straps = s.boot.straps ∧ z.boot.revoked = s.boot.revoked := by
  unfold execTxAnSwitch
  try dsimp only
  repeat' split
  all_goals refine ⟨_, rfl, ?_⟩
  all_goals simp

@[simp] theorem zeroize_keeps (s : State) :
    (zeroize s).pending = s.pending ∧ (zeroize s).boot.straps = s.boot.straps ∧ (zeroize s).boot.revoked = s.boot.revoked := by
  unfold zeroize
  try dsimp only
  repeat' split
  all_goals simp

@[simp] theorem tamper_keeps (s : State) (alarm : Nat) :
    (tamper s alarm).pending = s.pending ∧ (tamper s alarm).boot.straps = s.boot.straps ∧
    (tamper s alarm).boot.revoked = s.boot.revoked := by
  unfold tamper
  try dsimp only
  repeat' split
  all_goals simp

theorem execTamperAlarm_keeps (alarm : Fin 6) (s : State) :
    ∃ z, execTamperAlarm alarm s = .next z ∧ z.pending = s.pending ∧ z.boot.straps = s.boot.straps ∧
    z.boot.revoked = s.boot.revoked := by
  unfold execTamperAlarm
  try dsimp only
  repeat' split
  all_goals refine ⟨_, rfl, ?_⟩
  all_goals simp

theorem execKeyZeroize_keeps (o : Origin) (data : Word) (s : State) :
    ∃ z, execKeyZeroize o data s = .next z ∧ z.pending = s.pending ∧ z.boot.straps = s.boot.straps ∧
    z.boot.revoked = s.boot.revoked := by
  unfold execKeyZeroize
  try dsimp only
  repeat' split
  all_goals first | (refine ⟨_, rfl, ?_⟩; simp; done) | (refine ⟨_, rfl, ?_⟩; (first | apply ownWrite_keeps); intros; (try dsimp only); (repeat' split) <;> simp_all)

end Sys2Proof.Machine
end

