-- ==== Sys2Proof/Laws/KeepPairs.lean ====
section
/-! SUPPORT. What each operation of Machine/Pairs.lean leaves alone. -/

namespace Sys2Proof.Machine

@[simp] theorem refreshTx_keeps (s : State) (p : Nat) :
    (refreshTx s p).pending = s.pending ∧ (refreshTx s p).boot.straps = s.boot.straps ∧
    (refreshTx s p).boot.revoked = s.boot.revoked := by
  unfold refreshTx
  try dsimp only
  repeat' split
  all_goals simp

@[simp] theorem settleTx_keeps (s : State) (p : Nat) :
    (settleTx s p).pending = s.pending ∧ (settleTx s p).boot.straps = s.boot.straps ∧
    (settleTx s p).boot.revoked = s.boot.revoked := by
  unfold settleTx
  try dsimp only
  repeat' split
  all_goals simp

@[simp] theorem takeCustody_keeps (s : State) (p : Nat) :
    (takeCustody s p).pending = s.pending ∧ (takeCustody s p).boot.straps = s.boot.straps ∧
    (takeCustody s p).boot.revoked = s.boot.revoked := by
  unfold takeCustody
  try dsimp only
  repeat' split
  all_goals simp

theorem execCustodyTake_keeps (p : Fin 32) (s : State) :
    ∃ z, execCustodyTake p s = .next z ∧ z.pending = s.pending ∧ z.boot.straps = s.boot.straps ∧
    z.boot.revoked = s.boot.revoked := by
  unfold execCustodyTake
  try dsimp only
  repeat' split
  all_goals refine ⟨_, rfl, ?_⟩
  all_goals simp

theorem execClaimApply_keeps (p : Fin 32) (s : State) :
    ∃ z, execClaimApply p s = .next z ∧ z.pending = s.pending ∧ z.boot.straps = s.boot.straps ∧ z.boot.revoked = s.boot.revoked := by
  unfold execClaimApply
  try dsimp only
  repeat' split
  all_goals refine ⟨_, rfl, ?_⟩
  all_goals simp

theorem execLaserSettleEnd_keeps (p : Fin 32) (s : State) :
    ∃ z, execLaserSettleEnd p s = .next z ∧ z.pending = s.pending ∧ z.boot.straps = s.boot.straps ∧
    z.boot.revoked = s.boot.revoked := by
  unfold execLaserSettleEnd
  try dsimp only
  repeat' split
  all_goals refine ⟨_, rfl, ?_⟩
  all_goals simp

@[simp] theorem standBy_keeps (s : State) (p : Nat) :
    (standBy s p).pending = s.pending ∧ (standBy s p).boot.straps = s.boot.straps ∧
    (standBy s p).boot.revoked = s.boot.revoked := by
  unfold standBy
  try dsimp only
  repeat' split
  all_goals simp

@[simp] theorem decideLocal_keeps (s : State) (p q : Nat) :
    (decideLocal s p q).pending = s.pending ∧ (decideLocal s p q).boot.straps = s.boot.straps ∧
    (decideLocal s p q).boot.revoked = s.boot.revoked := by
  unfold decideLocal
  try dsimp only
  repeat' split
  all_goals simp

@[simp] theorem pairStat_keeps (s : State) (rej : Bool) :
    (pairStat s rej).pending = s.pending ∧ (pairStat s rej).boot.straps = s.boot.straps ∧
    (pairStat s rej).boot.revoked = s.boot.revoked := by
  unfold pairStat
  try dsimp only
  repeat' split
  all_goals simp

@[simp] theorem rejectPair_keeps (s : State) :
    (rejectPair s).pending = s.pending ∧ (rejectPair s).boot.straps = s.boot.straps ∧
    (rejectPair s).boot.revoked = s.boot.revoked := by
  unfold rejectPair
  try dsimp only
  repeat' split
  all_goals simp

theorem pairCmd_keeps (o : Origin) (body : State → Nat → State × Nat) (s : State)
    (h : ∀ x0 x1, (body x0 x1).1.pending = x0.pending ∧
      (body x0 x1).1.boot.straps = x0.boot.straps ∧
      (body x0 x1).1.boot.revoked = x0.boot.revoked) :
    (pairCmd o body s).pending = s.pending ∧ (pairCmd o body s).boot.straps = s.boot.straps ∧
    (pairCmd o body s).boot.revoked = s.boot.revoked := by
  unfold pairCmd
  try dsimp only
  repeat' split
  all_goals first | (simp; done) | ((first | apply command_keeps); intros; (try dsimp only); (repeat' split) <;> simp_all)

@[simp] theorem showPair_keeps (s : State) (p : Nat) :
    (showPair s p).pending = s.pending ∧ (showPair s p).boot.straps = s.boot.straps ∧
    (showPair s p).boot.revoked = s.boot.revoked := by
  unfold showPair
  try dsimp only
  repeat' split
  all_goals simp

theorem execPairRead_keeps (o : Origin) (s : State) :
    ∃ z, execPairRead o s = .next z ∧ z.pending = s.pending ∧ z.boot.straps = s.boot.straps ∧ z.boot.revoked = s.boot.revoked := by
  unfold execPairRead
  try dsimp only
  repeat' split
  all_goals first | (refine ⟨_, rfl, ?_⟩; simp; done) | (refine ⟨_, rfl, ?_⟩; (first | apply pairCmd_keeps); intros; (try dsimp only); (repeat' split) <;> simp_all)

@[simp] theorem enablePair_keeps (s : State) (p : Nat) (w : PairSt) :
    (enablePair s p w).pending = s.pending ∧ (enablePair s p w).boot.straps = s.boot.straps ∧
    (enablePair s p w).boot.revoked = s.boot.revoked := by
  unfold enablePair
  try dsimp only
  repeat' split
  all_goals simp

@[simp] theorem disablePair_keeps (s : State) (p : Nat) (w : PairSt) :
    (disablePair s p w).pending = s.pending ∧ (disablePair s p w).boot.straps = s.boot.straps ∧
    (disablePair s p w).boot.revoked = s.boot.revoked := by
  unfold disablePair
  try dsimp only
  repeat' split
  all_goals simp

theorem execPairWrite_keeps (o : Origin) (s : State) :
    ∃ z, execPairWrite o s = .next z ∧ z.pending = s.pending ∧ z.boot.straps = s.boot.straps ∧ z.boot.revoked = s.boot.revoked := by
  unfold execPairWrite
  try dsimp only
  repeat' split
  all_goals first | (refine ⟨_, rfl, ?_⟩; simp; done) | (refine ⟨_, rfl, ?_⟩; (first | apply pairCmd_keeps); intros; (try dsimp only); (repeat' split) <;> simp_all)

@[simp] theorem applyNext_keeps (s : State) (p : Nat) :
    (applyNext s p).pending = s.pending ∧ (applyNext s p).boot.straps = s.boot.straps ∧
    (applyNext s p).boot.revoked = s.boot.revoked := by
  unfold applyNext
  try dsimp only
  repeat' split
  all_goals simp

@[simp] theorem yieldPair_keeps (s : State) (p : Nat) :
    (yieldPair s p).pending = s.pending ∧ (yieldPair s p).boot.straps = s.boot.straps ∧
    (yieldPair s p).boot.revoked = s.boot.revoked := by
  unfold yieldPair
  try dsimp only
  repeat' split
  all_goals simp

theorem execPairYield_keeps (o : Origin) (s : State) :
    ∃ z, execPairYield o s = .next z ∧ z.pending = s.pending ∧ z.boot.straps = s.boot.straps ∧ z.boot.revoked = s.boot.revoked := by
  unfold execPairYield
  try dsimp only
  repeat' split
  all_goals first | (refine ⟨_, rfl, ?_⟩; simp; done) | (refine ⟨_, rfl, ?_⟩; (first | apply pairCmd_keeps); intros; (try dsimp only); (repeat' split) <;> simp_all)

theorem execAutoYield_keeps (p : Fin 32) (s : State) :
    ∃ z, execAutoYield p s = .next z ∧ z.pending = s.pending ∧ z.boot.straps = s.boot.straps ∧ z.boot.revoked = s.boot.revoked := by
  unfold execAutoYield
  try dsimp only
  repeat' split
  all_goals refine ⟨_, rfl, ?_⟩
  all_goals simp

theorem execPairResync_keeps (o : Origin) (s : State) :
    ∃ z, execPairResync o s = .next z ∧ z.pending = s.pending ∧ z.boot.straps = s.boot.straps ∧ z.boot.revoked = s.boot.revoked := by
  unfold execPairResync
  try dsimp only
  repeat' split
  all_goals first | (refine ⟨_, rfl, ?_⟩; simp; done) | (refine ⟨_, rfl, ?_⟩; (first | apply pairCmd_keeps); intros; (try dsimp only); (repeat' split) <;> simp_all)

theorem execPairClaim_keeps (o : Origin) (s : State) :
    ∃ z, execPairClaim o s = .next z ∧ z.pending = s.pending ∧ z.boot.straps = s.boot.straps ∧ z.boot.revoked = s.boot.revoked := by
  unfold execPairClaim
  try dsimp only
  repeat' split
  all_goals first | (refine ⟨_, rfl, ?_⟩; simp; done) | (refine ⟨_, rfl, ?_⟩; (first | apply pairCmd_keeps); intros; (try dsimp only); (repeat' split) <;> simp_all)

theorem execLeaseRundown_keeps (p : Fin 32) (s : State) :
    ∃ z, execLeaseRundown p s = .next z ∧ z.pending = s.pending ∧ z.boot.straps = s.boot.straps ∧
    z.boot.revoked = s.boot.revoked := by
  unfold execLeaseRundown
  try dsimp only
  repeat' split
  all_goals refine ⟨_, rfl, ?_⟩
  all_goals simp

@[simp] theorem reclaimTree_keeps (s : State) (p : Nat) :
    (reclaimTree s p).pending = s.pending ∧ (reclaimTree s p).boot.straps = s.boot.straps ∧
    (reclaimTree s p).boot.revoked = s.boot.revoked := by
  unfold reclaimTree
  try dsimp only
  repeat' split
  all_goals simp

theorem execCheckWindowEnd_keeps (p : Fin 32) (s : State) :
    ∃ z, execCheckWindowEnd p s = .next z ∧ z.pending = s.pending ∧ z.boot.straps = s.boot.straps ∧
    z.boot.revoked = s.boot.revoked := by
  unfold execCheckWindowEnd
  try dsimp only
  repeat' split
  all_goals refine ⟨_, rfl, ?_⟩
  all_goals simp

theorem execPairReclaim_keeps (o : Origin) (s : State) :
    ∃ z, execPairReclaim o s = .next z ∧ z.pending = s.pending ∧ z.boot.straps = s.boot.straps ∧
    z.boot.revoked = s.boot.revoked := by
  unfold execPairReclaim
  try dsimp only
  repeat' split
  all_goals first | (refine ⟨_, rfl, ?_⟩; simp; done) | (refine ⟨_, rfl, ?_⟩; (first | apply pairCmd_keeps); intros; (try dsimp only); (repeat' split) <;> simp_all)

@[simp] theorem rewind_keeps (s : State) (m f : Nat) :
    (rewind s m f).pending = s.pending ∧ (rewind s m f).boot.straps = s.boot.straps ∧
    (rewind s m f).boot.revoked = s.boot.revoked := by
  unfold rewind
  try dsimp only
  repeat' split
  all_goals simp

@[simp] theorem syncDone_keeps (s : State) (p : Nat) :
    (syncDone s p).pending = s.pending ∧ (syncDone s p).boot.straps = s.boot.straps ∧
    (syncDone s p).boot.revoked = s.boot.revoked := by
  unfold syncDone
  try dsimp only
  repeat' split
  all_goals simp

theorem execSyncComplete_keeps (p : Fin 32) (s : State) :
    ∃ z, execSyncComplete p s = .next z ∧ z.pending = s.pending ∧ z.boot.straps = s.boot.straps ∧
    z.boot.revoked = s.boot.revoked := by
  unfold execSyncComplete
  try dsimp only
  repeat' split
  all_goals refine ⟨_, rfl, ?_⟩
  all_goals simp

@[simp] theorem peerRecord_keeps (s : State) (p st : Nat) (sync : Bool) :
    (peerRecord s p st sync).pending = s.pending ∧ (peerRecord s p st sync).boot.straps = s.boot.straps ∧
    (peerRecord s p st sync).boot.revoked = s.boot.revoked := by
  unfold peerRecord
  try dsimp only
  repeat' split
  all_goals simp

@[simp] theorem failPair_keeps (s : State) (p : Nat) (dark : Bool) :
    (failPair s p dark).pending = s.pending ∧ (failPair s p dark).boot.straps = s.boot.straps ∧
    (failPair s p dark).boot.revoked = s.boot.revoked := by
  unfold failPair
  try dsimp only
  repeat' split
  all_goals simp

@[simp] theorem declareFail_keeps (s : State) (m : Nat) (dark : Bool) :
    (declareFail s m dark).pending = s.pending ∧ (declareFail s m dark).boot.straps = s.boot.straps ∧
    (declareFail s m dark).boot.revoked = s.boot.revoked := by
  unfold declareFail
  try dsimp only
  repeat' split
  all_goals simp

end Sys2Proof.Machine
end

