-- ==== Sys2Proof/Laws/KeepMesh.lean ====
section
/-! SUPPORT. What each operation of Machine/Mesh.lean leaves alone. -/

namespace Sys2Proof.Machine

@[simp] theorem sendMsg_keeps (s0 : State) (m vc : Nat) (before : List (Nat × Nat)) (len : Nat) (payload : Option (List Nat)) :
    (sendMsg s0 m vc before len payload).pending = s0.pending ∧ (sendMsg s0 m vc before len payload).boot.straps = s0.boot.straps ∧
    (sendMsg s0 m vc before len payload).boot.revoked = s0.boot.revoked := by
  unfold sendMsg
  try dsimp only
  repeat' split
  all_goals simp

@[simp] theorem noteGm_keeps (s : State) (d : Nat) :
    (noteGm s d).pending = s.pending ∧ (noteGm s d).boot.straps = s.boot.straps ∧
    (noteGm s d).boot.revoked = s.boot.revoked := by
  unfold noteGm
  try dsimp only
  repeat' split
  all_goals simp

@[simp] theorem becomeMaster_keeps (s : State) :
    (becomeMaster s).pending = s.pending ∧ (becomeMaster s).boot.straps = s.boot.straps ∧
    (becomeMaster s).boot.revoked = s.boot.revoked := by
  unfold becomeMaster
  try dsimp only
  repeat' split
  all_goals simp

@[simp] theorem becomeFollower_keeps (s : State) :
    (becomeFollower s).pending = s.pending ∧ (becomeFollower s).boot.straps = s.boot.straps ∧
    (becomeFollower s).boot.revoked = s.boot.revoked := by
  unfold becomeFollower
  try dsimp only
  repeat' split
  all_goals simp

@[simp] theorem follow_keeps (s : State) (m d : Nat) :
    (follow s m d).pending = s.pending ∧ (follow s m d).boot.straps = s.boot.straps ∧
    (follow s m d).boot.revoked = s.boot.revoked := by
  unfold follow
  try dsimp only
  repeat' split
  all_goals simp

@[simp] theorem hearMaster_keeps (s : State) (m d : Nat) :
    (hearMaster s m d).pending = s.pending ∧ (hearMaster s m d).boot.straps = s.boot.straps ∧
    (hearMaster s m d).boot.revoked = s.boot.revoked := by
  unfold hearMaster
  try dsimp only
  repeat' split
  all_goals simp

@[simp] theorem checkMaster_keeps (s : State) :
    (checkMaster s).pending = s.pending ∧ (checkMaster s).boot.straps = s.boot.straps ∧
    (checkMaster s).boot.revoked = s.boot.revoked := by
  unfold checkMaster
  try dsimp only
  repeat' split
  all_goals simp

theorem execGmTake_keeps (o : Origin) (s : State) :
    ∃ z, execGmTake o s = .next z ∧ z.pending = s.pending ∧ z.boot.straps = s.boot.straps ∧ z.boot.revoked = s.boot.revoked := by
  unfold execGmTake
  try dsimp only
  repeat' split
  all_goals first | (refine ⟨_, rfl, ?_⟩; simp; done) | (refine ⟨_, rfl, ?_⟩; (first | apply ownWrite_keeps); intros; (try dsimp only); (repeat' split) <;> simp_all)

theorem execGmYield_keeps (o : Origin) (s : State) :
    ∃ z, execGmYield o s = .next z ∧ z.pending = s.pending ∧ z.boot.straps = s.boot.straps ∧ z.boot.revoked = s.boot.revoked := by
  unfold execGmYield
  try dsimp only
  repeat' split
  all_goals first | (refine ⟨_, rfl, ?_⟩; simp; done) | (refine ⟨_, rfl, ?_⟩; (first | apply ownWrite_keeps); intros; (try dsimp only); (repeat' split) <;> simp_all)

theorem execGmJoin_keeps (o : Origin) (force : Bool) (s : State) :
    ∃ z, execGmJoin o force s = .next z ∧ z.pending = s.pending ∧ z.boot.straps = s.boot.straps ∧
    z.boot.revoked = s.boot.revoked := by
  unfold execGmJoin
  try dsimp only
  repeat' split
  all_goals first | (refine ⟨_, rfl, ?_⟩; simp; done) | (refine ⟨_, rfl, ?_⟩; (first | apply ownWrite_keeps); intros; (try dsimp only); (repeat' split) <;> simp_all)

@[simp] theorem takeGrid_keeps (s : State) (m tTx tRx txCnt rxCnt : Nat) (master : Bool) :
    (takeGrid s m tTx tRx txCnt rxCnt master).pending = s.pending ∧
    (takeGrid s m tTx tRx txCnt rxCnt master).boot.straps = s.boot.straps ∧
    (takeGrid s m tTx tRx txCnt rxCnt master).boot.revoked = s.boot.revoked := by
  unfold takeGrid
  try dsimp only
  repeat' split
  all_goals simp

@[simp] theorem sendTick_keeps (s : State) (m f : Nat) :
    (sendTick s m f).pending = s.pending ∧ (sendTick s m f).boot.straps = s.boot.straps ∧
    (sendTick s m f).boot.revoked = s.boot.revoked := by
  unfold sendTick
  try dsimp only
  repeat' split
  all_goals simp

theorem execMeshTickSend_keeps (s : State) :
    ∃ z, execMeshTickSend s = .next z ∧ z.pending = s.pending ∧ z.boot.straps = s.boot.straps ∧ z.boot.revoked = s.boot.revoked := by
  unfold execMeshTickSend
  try dsimp only
  repeat' split
  all_goals refine ⟨_, rfl, ?_⟩
  all_goals simp

@[simp] theorem badTick_keeps (s : State) :
    (badTick s).pending = s.pending ∧ (badTick s).boot.straps = s.boot.straps ∧ (badTick s).boot.revoked = s.boot.revoked := by
  unfold badTick
  try dsimp only
  repeat' split
  all_goals simp

@[simp] theorem heard_keeps (s : State) (m f : Nat) :
    (heard s m f).pending = s.pending ∧ (heard s m f).boot.straps = s.boot.straps ∧
    (heard s m f).boot.revoked = s.boot.revoked := by
  unfold heard
  try dsimp only
  repeat' split
  all_goals simp

@[simp] theorem darkNotice_keeps (s : State) (m : Nat) :
    (darkNotice s m).pending = s.pending ∧ (darkNotice s m).boot.straps = s.boot.straps ∧
    (darkNotice s m).boot.revoked = s.boot.revoked := by
  unfold darkNotice
  try dsimp only
  repeat' split
  all_goals simp

@[simp] theorem loseMaster_keeps (s : State) (m : Nat) :
    (loseMaster s m).pending = s.pending ∧ (loseMaster s m).boot.straps = s.boot.straps ∧
    (loseMaster s m).boot.revoked = s.boot.revoked := by
  unfold loseMaster
  try dsimp only
  repeat' split
  all_goals simp

@[simp] theorem peerDark_keeps (s : State) (m : Nat) :
    (peerDark s m).pending = s.pending ∧ (peerDark s m).boot.straps = s.boot.straps ∧
    (peerDark s m).boot.revoked = s.boot.revoked := by
  unfold peerDark
  try dsimp only
  repeat' split
  all_goals simp

theorem execMeshTickReceive_keeps (m : Fin 3) (t : TickIn) (s : State) :
    ∃ z, execMeshTickReceive m t s = .next z ∧ z.pending = s.pending ∧ z.boot.straps = s.boot.straps ∧
    z.boot.revoked = s.boot.revoked := by
  unfold execMeshTickReceive
  try dsimp only
  repeat' split
  all_goals refine ⟨_, rfl, ?_⟩
  all_goals simp

theorem execHbPulse_keeps (m : Fin 3) (widthGt : Nat) (offsetGt : Int) (s : State) :
    ∃ z, execHbPulse m widthGt offsetGt s = .next z ∧ z.pending = s.pending ∧ z.boot.straps = s.boot.straps ∧
    z.boot.revoked = s.boot.revoked := by
  unfold execHbPulse
  try dsimp only
  repeat' split
  all_goals refine ⟨_, rfl, ?_⟩
  all_goals simp

theorem execDarkNoticeReceive_keeps (m : Fin 3) (s : State) :
    ∃ z, execDarkNoticeReceive m s = .next z ∧ z.pending = s.pending ∧ z.boot.straps = s.boot.straps ∧
    z.boot.revoked = s.boot.revoked := by
  unfold execDarkNoticeReceive
  try dsimp only
  repeat' split
  all_goals refine ⟨_, rfl, ?_⟩
  all_goals simp

@[simp] theorem judgeSlot_keeps (s : State) (m : Nat) :
    (judgeSlot s m).pending = s.pending ∧ (judgeSlot s m).boot.straps = s.boot.straps ∧
    (judgeSlot s m).boot.revoked = s.boot.revoked := by
  unfold judgeSlot
  try dsimp only
  repeat' split
  all_goals simp

theorem execPeerFailDeclare_keeps (m : Fin 3) (s : State) :
    ∃ z, execPeerFailDeclare m s = .next z ∧ z.pending = s.pending ∧ z.boot.straps = s.boot.straps ∧
    z.boot.revoked = s.boot.revoked := by
  unfold execPeerFailDeclare
  try dsimp only
  repeat' split
  all_goals refine ⟨_, rfl, ?_⟩
  all_goals simp

end Sys2Proof.Machine
end

