-- ==== Sys2Proof/Laws/KeepHexca.lean ====
section
/-! SUPPORT. What each operation of Machine/Hexca.lean leaves alone. -/

namespace Sys2Proof.Machine

@[simp] theorem flushLink_keeps (s : State) (m reason : Nat) :
    (flushLink s m reason).pending = s.pending ∧ (flushLink s m reason).boot.straps = s.boot.straps ∧
    (flushLink s m reason).boot.revoked = s.boot.revoked := by
  unfold flushLink
  try dsimp only
  repeat' split
  all_goals simp

@[simp] theorem reportLink_keeps (s : State) (m old new : Nat) :
    (reportLink s m old new).pending = s.pending ∧ (reportLink s m old new).boot.straps = s.boot.straps ∧
    (reportLink s m old new).boot.revoked = s.boot.revoked := by
  unfold reportLink
  try dsimp only
  repeat' split
  all_goals simp

@[simp] theorem setLinkDefects_keeps (s : State) (m v : Nat) :
    (setLinkDefects s m v).pending = s.pending ∧ (setLinkDefects s m v).boot.straps = s.boot.straps ∧
    (setLinkDefects s m v).boot.revoked = s.boot.revoked := by
  unfold setLinkDefects
  try dsimp only
  repeat' split
  all_goals simp

@[simp] theorem setLinkDefect_keeps (s : State) (m d : Nat) (raised : Bool) :
    (setLinkDefect s m d raised).pending = s.pending ∧ (setLinkDefect s m d raised).boot.straps = s.boot.straps ∧
    (setLinkDefect s m d raised).boot.revoked = s.boot.revoked := by
  unfold setLinkDefect
  try dsimp only
  repeat' split
  all_goals simp

@[simp] theorem linkEnables_keeps (s : State) (m : Nat) :
    (linkEnables s m).pending = s.pending ∧ (linkEnables s m).boot.straps = s.boot.straps ∧
    (linkEnables s m).boot.revoked = s.boot.revoked := by
  unfold linkEnables
  try dsimp only
  repeat' split
  all_goals simp

@[simp] theorem countBlock_keeps (s : State) (m : Nat) (ok : Bool) :
    (countBlock s m ok).pending = s.pending ∧ (countBlock s m ok).boot.straps = s.boot.straps ∧
    (countBlock s m ok).boot.revoked = s.boot.revoked := by
  unfold countBlock
  try dsimp only
  repeat' split
  all_goals simp

@[simp] theorem deskew_keeps (s : State) (m : Nat) :
    (deskew s m).pending = s.pending ∧ (deskew s m).boot.straps = s.boot.straps ∧
    (deskew s m).boot.revoked = s.boot.revoked := by
  unfold deskew
  try dsimp only
  repeat' split
  all_goals simp

@[simp] theorem takeTrace_keeps (s : State) (m : Nat) (t : BitVec 128) :
    (takeTrace s m t).pending = s.pending ∧ (takeTrace s m t).boot.straps = s.boot.straps ∧
    (takeTrace s m t).boot.revoked = s.boot.revoked := by
  unfold takeTrace
  try dsimp only
  repeat' split
  all_goals simp

theorem execAlignmentMarker_keeps (m : Fin 3) (i : Fin 4) (x : MarkerIn) (s : State) :
    ∃ z, execAlignmentMarker m i x s = .next z ∧ z.pending = s.pending ∧ z.boot.straps = s.boot.straps ∧
    z.boot.revoked = s.boot.revoked := by
  unfold execAlignmentMarker
  try dsimp only
  repeat' split
  all_goals refine ⟨_, rfl, ?_⟩
  all_goals simp

theorem execLinkDefectChange_keeps (m : Fin 3) (d : Fin 6) (raised : Bool) (s : State) :
    ∃ z, execLinkDefectChange m d raised s = .next z ∧ z.pending = s.pending ∧ z.boot.straps = s.boot.straps ∧
    z.boot.revoked = s.boot.revoked := by
  unfold execLinkDefectChange
  try dsimp only
  repeat' split
  all_goals refine ⟨_, rfl, ?_⟩
  all_goals simp

theorem execFillColumn_keeps (m : Fin 3) (insert : Bool) (s : State) :
    ∃ z, execFillColumn m insert s = .next z ∧ z.pending = s.pending ∧ z.boot.straps = s.boot.straps ∧
    z.boot.revoked = s.boot.revoked := by
  unfold execFillColumn
  try dsimp only
  repeat' split
  all_goals refine ⟨_, rfl, ?_⟩
  all_goals simp

theorem execNoticeResetReceive_keeps (m : Fin 3) (s : State) :
    ∃ z, execNoticeResetReceive m s = .next z ∧ z.pending = s.pending ∧ z.boot.straps = s.boot.straps ∧
    z.boot.revoked = s.boot.revoked := by
  unfold execNoticeResetReceive
  try dsimp only
  repeat' split
  all_goals refine ⟨_, rfl, ?_⟩
  all_goals simp

@[simp] theorem slipWrite_keeps (s : State) (m f : Nat) (recs : List MirrorRec) :
    (slipWrite s m f recs).pending = s.pending ∧ (slipWrite s m f recs).boot.straps = s.boot.straps ∧
    (slipWrite s m f recs).boot.revoked = s.boot.revoked := by
  unfold slipWrite
  try dsimp only
  repeat' split
  all_goals simp

theorem execHexcaMessageReceive_keeps (m : Fin 3) (x : HexcaMsg) (s : State) :
    ∃ z, execHexcaMessageReceive m x s = .next z ∧ z.pending = s.pending ∧ z.boot.straps = s.boot.straps ∧
    z.boot.revoked = s.boot.revoked := by
  unfold execHexcaMessageReceive
  try dsimp only
  repeat' split
  all_goals refine ⟨_, rfl, ?_⟩
  all_goals simp

@[simp] theorem mirrorRange_keeps (s : State) (p i eqd : Nat) (res drift : Int) :
    (mirrorRange s p i eqd res drift).pending = s.pending ∧ (mirrorRange s p i eqd res drift).boot.straps = s.boot.straps ∧
    (mirrorRange s p i eqd res drift).boot.revoked = s.boot.revoked := by
  unfold mirrorRange
  try dsimp only
  repeat' split
  all_goals simp

@[simp] theorem mirrorKey_keeps (s : State) (u : Nat) (up : Bool) (slot mode : Nat) (key : BitVec 256) (salt pn lastPn : Nat) :
    (mirrorKey s u up slot mode key salt pn lastPn).pending = s.pending ∧
    (mirrorKey s u up slot mode key salt pn lastPn).boot.straps = s.boot.straps ∧
    (mirrorKey s u up slot mode key salt pn lastPn).boot.revoked = s.boot.revoked := by
  unfold mirrorKey
  try dsimp only
  repeat' split
  all_goals simp

@[simp] theorem applyTo_keeps (s : State) (p : Nat) (r : MirrorRec) :
    (applyTo s p r).pending = s.pending ∧
    (applyTo s p r).boot.straps = s.boot.straps ∧
    (applyTo s p r).boot.revoked = s.boot.revoked := by
  cases r <;> simp only [applyTo] <;> (try split) <;> simp


@[simp] theorem applyRec_keeps (m : Nat) (s : State) (r : MirrorRec) :
    (applyRec m s r).pending = s.pending ∧ (applyRec m s r).boot.straps = s.boot.straps ∧
    (applyRec m s r).boot.revoked = s.boot.revoked := by
  unfold applyRec
  try dsimp only
  repeat' split
  all_goals simp

@[simp] theorem applyFrame_keeps (s : State) (m : Nat) (f : MirrorFrame) :
    (applyFrame s m f).pending = s.pending ∧ (applyFrame s m f).boot.straps = s.boot.straps ∧
    (applyFrame s m f).boot.revoked = s.boot.revoked := by
  unfold applyFrame
  try dsimp only
  repeat' split
  all_goals simp

@[simp] theorem mirrorRun_keeps (s : State) (m : Nat) (miss : Bool) :
    (mirrorRun s m miss).pending = s.pending ∧ (mirrorRun s m miss).boot.straps = s.boot.straps ∧
    (mirrorRun s m miss).boot.revoked = s.boot.revoked := by
  unfold mirrorRun
  try dsimp only
  repeat' split
  all_goals simp

theorem execMirrorRead_keeps (m : Fin 3) (s : State) :
    ∃ z, execMirrorRead m s = .next z ∧ z.pending = s.pending ∧ z.boot.straps = s.boot.straps ∧ z.boot.revoked = s.boot.revoked := by
  unfold execMirrorRead
  try dsimp only
  repeat' split
  all_goals refine ⟨_, rfl, ?_⟩
  all_goals simp

end Sys2Proof.Machine
end

