-- ==== Sys2Proof/Laws/KeepBoot.lean ====
section
/-! SUPPORT. What each operation of Machine/Boot.lean leaves alone. -/

namespace Sys2Proof.Machine

@[simp] theorem unpowered_keeps (s : State) :
    (unpowered s).pending = s.pending ∧ (unpowered s).boot.revoked = s.boot.revoked := by
  unfold unpowered
  try dsimp only
  repeat' split
  all_goals simp

theorem execPowerGoodFall_keeps (s : State) :
    ∃ z, execPowerGoodFall s = .next z ∧ z.pending = s.pending ∧ z.boot.revoked = s.boot.revoked := by
  unfold execPowerGoodFall
  try dsimp only
  repeat' split
  all_goals refine ⟨_, rfl, ?_⟩
  all_goals simp

theorem execPowerGood_keeps (st : Straps) (s : State) :
    ∃ z, execPowerGood st s = .next z ∧ z.pending = s.pending ∧ z.boot.revoked = s.boot.revoked := by
  unfold execPowerGood
  try dsimp only
  repeat' split
  all_goals refine ⟨_, rfl, ?_⟩
  all_goals simp

@[simp] theorem loadFuses_keeps (s : State) :
    (loadFuses s).pending = s.pending ∧ (loadFuses s).boot.straps = s.boot.straps ∧
    (loadFuses s).boot.revoked = s.boot.revoked := by
  unfold loadFuses
  try dsimp only
  repeat' split
  all_goals simp

theorem execFuseLoadDone_keeps (groupsOk : Bool) (s : State) :
    ∃ z, execFuseLoadDone groupsOk s = .next z ∧ z.pending = s.pending ∧ z.boot.straps = s.boot.straps ∧
    z.boot.revoked = s.boot.revoked := by
  unfold execFuseLoadDone
  try dsimp only
  repeat' split
  all_goals refine ⟨_, rfl, ?_⟩
  all_goals simp

theorem execRevokeKey_keeps (o : Origin) (data : Word) (s : State) :
    ∃ z, execRevokeKey o data s = .next z ∧ z.pending = s.pending ∧ z.boot.straps = s.boot.straps ∧
    z.boot.revoked = s.boot.revoked := by
  unfold execRevokeKey
  try dsimp only
  repeat' split
  all_goals refine ⟨_, rfl, ?_⟩
  all_goals simp

theorem execRevokeCmd_keeps (o : Origin) (data : Word) (s : State) :
    ∃ z, execRevokeCmd o data s = .next z ∧ z.pending = s.pending ∧ z.boot.straps = s.boot.straps ∧
      s.boot.revoked ||| z.boot.revoked = z.boot.revoked := by
  unfold execRevokeCmd
  refine ⟨_, rfl, ?_⟩
  unfold command
  dsimp only
  split
  · simp
  · simp only [record_frame]
    split
    · simp
    · split
      · simp [← Nat.or_assoc]
      · simp


@[simp] theorem loadItem_keeps (s : State) (x : Nat × Nat) :
    (loadItem s x).pending = s.pending ∧ (loadItem s x).boot.straps = s.boot.straps ∧
    (loadItem s x).boot.revoked = s.boot.revoked := by
  unfold loadItem
  try dsimp only
  repeat' split
  all_goals simp

@[simp] theorem publishAllOffsets_keeps (s : State) :
    (publishAllOffsets s).pending = s.pending ∧ (publishAllOffsets s).boot.straps = s.boot.straps ∧
    (publishAllOffsets s).boot.revoked = s.boot.revoked := by
  unfold publishAllOffsets
  try dsimp only
  repeat' split
  all_goals simp

@[simp] theorem lockStore_keeps (s : State) :
    (lockStore s).pending = s.pending ∧ (lockStore s).boot.straps = s.boot.straps ∧
    (lockStore s).boot.revoked = s.boot.revoked := by
  unfold lockStore
  try dsimp only
  repeat' split
  all_goals simp

theorem execCalUnlock_keeps (o : Origin) (data : Word) (s : State) :
    ∃ z, execCalUnlock o data s = .next z ∧ z.pending = s.pending ∧ z.boot.straps = s.boot.straps ∧
    z.boot.revoked = s.boot.revoked := by
  unfold execCalUnlock
  try dsimp only
  repeat' split
  all_goals first | (refine ⟨_, rfl, ?_⟩; simp; done) | (refine ⟨_, rfl, ?_⟩; (first | apply ownWrite_keeps); intros; (try dsimp only); (repeat' split) <;> simp_all)

theorem execCalUnlockTimeout_keeps (s : State) :
    ∃ z, execCalUnlockTimeout s = .next z ∧ z.pending = s.pending ∧ z.boot.straps = s.boot.straps ∧
    z.boot.revoked = s.boot.revoked := by
  unfold execCalUnlockTimeout
  try dsimp only
  repeat' split
  all_goals refine ⟨_, rfl, ?_⟩
  all_goals simp

@[simp] theorem calStat_keeps (s : State) (rej bad : Bool) :
    (calStat s rej bad).pending = s.pending ∧ (calStat s rej bad).boot.straps = s.boot.straps ∧
    (calStat s rej bad).boot.revoked = s.boot.revoked := by
  unfold calStat
  try dsimp only
  repeat' split
  all_goals simp

theorem calCmd_keeps (o : Origin) (body : State → Nat → Nat → State × Nat) (s : State)
    (h : ∀ x0 x1 x2, (body x0 x1 x2).1.pending = x0.pending ∧
      (body x0 x1 x2).1.boot.straps = x0.boot.straps ∧
      (body x0 x1 x2).1.boot.revoked = x0.boot.revoked) :
    (calCmd o body s).pending = s.pending ∧ (calCmd o body s).boot.straps = s.boot.straps ∧
    (calCmd o body s).boot.revoked = s.boot.revoked := by
  unfold calCmd
  try dsimp only
  repeat' split
  all_goals first | (simp; done) | ((first | apply command_keeps); intros; (try dsimp only); (repeat' split) <;> simp_all)

theorem execCalRead_keeps (o : Origin) (s : State) :
    ∃ z, execCalRead o s = .next z ∧ z.pending = s.pending ∧ z.boot.straps = s.boot.straps ∧ z.boot.revoked = s.boot.revoked := by
  unfold execCalRead
  try dsimp only
  repeat' split
  all_goals first | (refine ⟨_, rfl, ?_⟩; simp; done) | (refine ⟨_, rfl, ?_⟩; (first | apply calCmd_keeps); intros; (try dsimp only); (repeat' split) <;> simp_all)

@[simp] theorem rejectZd_keeps (s : State) (i : Nat) :
    (rejectZd s i).1.pending = s.pending ∧ (rejectZd s i).1.boot.straps = s.boot.straps ∧
    (rejectZd s i).1.boot.revoked = s.boot.revoked := by
  unfold rejectZd
  try dsimp only
  repeat' split
  all_goals simp

@[simp] theorem putWorking_keeps (s : State) (k i : Nat) (v : Nat × Nat) :
    (putWorking s k i v).pending = s.pending ∧ (putWorking s k i v).boot.straps = s.boot.straps ∧
    (putWorking s k i v).boot.revoked = s.boot.revoked := by
  unfold putWorking
  try dsimp only
  repeat' split
  all_goals simp

theorem execCalStoreWrite_keeps (o : Origin) (s : State) :
    ∃ z, execCalStoreWrite o s = .next z ∧ z.pending = s.pending ∧ z.boot.straps = s.boot.straps ∧
    z.boot.revoked = s.boot.revoked := by
  unfold execCalStoreWrite
  try dsimp only
  repeat' split
  all_goals first | (refine ⟨_, rfl, ?_⟩; simp; done) | (refine ⟨_, rfl, ?_⟩; (first | apply calCmd_keeps); intros; (try dsimp only); (repeat' split) <;> simp_all)

theorem execCalReload_keeps (o : Origin) (s : State) :
    ∃ z, execCalReload o s = .next z ∧ z.pending = s.pending ∧ z.boot.straps = s.boot.straps ∧ z.boot.revoked = s.boot.revoked := by
  unfold execCalReload
  try dsimp only
  repeat' split
  all_goals first | (refine ⟨_, rfl, ?_⟩; simp; done) | (refine ⟨_, rfl, ?_⟩; (first | apply calCmd_keeps); intros; (try dsimp only); (repeat' split) <;> simp_all)

@[simp] theorem hostWindow_keeps (s : State) :
    (hostWindow s).pending = s.pending ∧ (hostWindow s).boot.straps = s.boot.straps ∧
    (hostWindow s).boot.revoked = s.boot.revoked := by
  unfold hostWindow
  try dsimp only
  repeat' split
  all_goals simp

@[simp] theorem bootLinks_keeps (s : State) :
    (bootLinks s).pending = s.pending ∧ (bootLinks s).boot.straps = s.boot.straps ∧
    (bootLinks s).boot.revoked = s.boot.revoked := by
  unfold bootLinks
  try dsimp only
  repeat' split
  all_goals simp

@[simp] theorem beginImage_keeps (s : State) :
    (beginImage s).pending = s.pending ∧ (beginImage s).boot.straps = s.boot.straps ∧
    (beginImage s).boot.revoked = s.boot.revoked := by
  unfold beginImage
  try dsimp only
  repeat' split
  all_goals simp

theorem execCalibrationDone_keeps (s : State) :
    ∃ z, execCalibrationDone s = .next z ∧ z.pending = s.pending ∧ z.boot.straps = s.boot.straps ∧
    z.boot.revoked = s.boot.revoked := by
  unfold execCalibrationDone
  try dsimp only
  repeat' split
  all_goals refine ⟨_, rfl, ?_⟩
  all_goals simp

@[simp] theorem imageFail_keeps (s : State) (cause : Nat) :
    (imageFail s cause).pending = s.pending ∧ (imageFail s cause).boot.straps = s.boot.straps ∧
    (imageFail s cause).boot.revoked = s.boot.revoked := by
  unfold imageFail
  try dsimp only
  repeat' split
  all_goals simp

@[simp] theorem nextSource_keeps (s : State) :
    (nextSource s).pending = s.pending ∧ (nextSource s).boot.straps = s.boot.straps ∧
    (nextSource s).boot.revoked = s.boot.revoked := by
  unfold nextSource
  try dsimp only
  repeat' split
  all_goals simp

theorem execImageSourceTimeout_keeps (s : State) :
    ∃ z, execImageSourceTimeout s = .next z ∧ z.pending = s.pending ∧ z.boot.straps = s.boot.straps ∧
    z.boot.revoked = s.boot.revoked := by
  unfold execImageSourceTimeout
  try dsimp only
  repeat' split
  all_goals refine ⟨_, rfl, ?_⟩
  all_goals simp

@[simp] theorem hostGoBody_keeps (s : State) :
    (hostGoBody s).1.pending = s.pending ∧ (hostGoBody s).1.boot.straps = s.boot.straps ∧
    (hostGoBody s).1.boot.revoked = s.boot.revoked := by
  unfold hostGoBody
  try dsimp only
  repeat' split
  all_goals simp

theorem execHostGo_keeps (o : Origin) (s : State) :
    ∃ z, execHostGo o s = .next z ∧ z.pending = s.pending ∧ z.boot.straps = s.boot.straps ∧ z.boot.revoked = s.boot.revoked := by
  unfold execHostGo
  try dsimp only
  repeat' split
  all_goals first | (refine ⟨_, rfl, ?_⟩; simp; done) | (refine ⟨_, rfl, ?_⟩; (first | apply command_keeps); intros; (try dsimp only); (repeat' split) <;> simp_all)

@[simp] theorem dropBanks_keeps (s : State) :
    (dropBanks s).pending = s.pending ∧ (dropBanks s).boot.straps = s.boot.straps ∧
    (dropBanks s).boot.revoked = s.boot.revoked := by
  unfold dropBanks
  try dsimp only
  repeat' split
  all_goals simp

@[simp] theorem settleAllNodes_keeps (s : State) :
    (settleAllNodes s).pending = s.pending ∧ (settleAllNodes s).boot.straps = s.boot.straps ∧
    (settleAllNodes s).boot.revoked = s.boot.revoked := by
  unfold settleAllNodes
  try dsimp only
  repeat' split
  all_goals simp

@[simp] theorem giveCustody_keeps (s : State) (p : Nat) :
    (giveCustody s p).pending = s.pending ∧ (giveCustody s p).boot.straps = s.boot.straps ∧
    (giveCustody s p).boot.revoked = s.boot.revoked := by
  unfold giveCustody
  try dsimp only
  repeat' split
  all_goals simp

@[simp] theorem beginRole_keeps (s : State) :
    (beginRole s).pending = s.pending ∧ (beginRole s).boot.straps = s.boot.straps ∧
    (beginRole s).boot.revoked = s.boot.revoked := by
  unfold beginRole
  try dsimp only
  repeat' split
  all_goals simp

@[simp] theorem postBadItems_keeps (s : State) :
    (postBadItems s).pending = s.pending ∧ (postBadItems s).boot.straps = s.boot.straps ∧
    (postBadItems s).boot.revoked = s.boot.revoked := by
  unfold postBadItems
  try dsimp only
  repeat' split
  all_goals simp

@[simp] theorem noteBadSlot_keeps (s : State) (x : FlushSlot) :
    (noteBadSlot s x).pending = s.pending ∧ (noteBadSlot s x).boot.straps = s.boot.straps ∧
    (noteBadSlot s x).boot.revoked = s.boot.revoked := by
  unfold noteBadSlot
  try dsimp only
  repeat' split
  all_goals simp

@[simp] theorem release_keeps (s : State) :
    (release s).pending = s.pending ∧ (release s).boot.straps = s.boot.straps ∧ (release s).boot.revoked = s.boot.revoked := by
  unfold release
  try dsimp only
  repeat' split
  all_goals simp

theorem execRelease_keeps (s : State) :
    ∃ z, execRelease s = .next z ∧ z.pending = s.pending ∧ z.boot.straps = s.boot.straps ∧ z.boot.revoked = s.boot.revoked := by
  unfold execRelease
  try dsimp only
  repeat' split
  all_goals refine ⟨_, rfl, ?_⟩
  all_goals simp

@[simp] theorem bootReleaseBody_keeps (s : State) :
    (bootReleaseBody s).1.pending = s.pending ∧ (bootReleaseBody s).1.boot.straps = s.boot.straps ∧
    (bootReleaseBody s).1.boot.revoked = s.boot.revoked := by
  unfold bootReleaseBody
  try dsimp only
  repeat' split
  all_goals simp

theorem execBootRelease_keeps (o : Origin) (s : State) :
    ∃ z, execBootRelease o s = .next z ∧ z.pending = s.pending ∧ z.boot.straps = s.boot.straps ∧
    z.boot.revoked = s.boot.revoked := by
  unfold execBootRelease
  try dsimp only
  repeat' split
  all_goals first | (refine ⟨_, rfl, ?_⟩; simp; done) | (refine ⟨_, rfl, ?_⟩; (first | apply command_keeps); intros; (try dsimp only); (repeat' split) <;> simp_all)

theorem execMeshCopyServe_keeps (m : Fin 3) (s : State) :
    ∃ z, execMeshCopyServe m s = .next z ∧ z.pending = s.pending ∧ z.boot.straps = s.boot.straps ∧
    z.boot.revoked = s.boot.revoked := by
  unfold execMeshCopyServe
  try dsimp only
  repeat' split
  all_goals refine ⟨_, rfl, ?_⟩
  all_goals simp

@[simp] theorem darkenPair_keeps (s : State) (p : Nat) :
    (darkenPair s p).pending = s.pending ∧ (darkenPair s p).boot.straps = s.boot.straps ∧
    (darkenPair s p).boot.revoked = s.boot.revoked := by
  unfold darkenPair
  try dsimp only
  repeat' split
  all_goals simp

theorem execPowerFailWarning_keeps (s : State) :
    ∃ z, execPowerFailWarning s = .next z ∧ z.pending = s.pending ∧ z.boot.straps = s.boot.straps ∧
    z.boot.revoked = s.boot.revoked := by
  unfold execPowerFailWarning
  try dsimp only
  repeat' split
  all_goals refine ⟨_, rfl, ?_⟩
  all_goals simp

theorem execPowerWarnEnd_keeps (s : State) :
    ∃ z, execPowerWarnEnd s = .next z ∧ z.pending = s.pending ∧ z.boot.straps = s.boot.straps ∧ z.boot.revoked = s.boot.revoked := by
  unfold execPowerWarnEnd
  try dsimp only
  repeat' split
  all_goals refine ⟨_, rfl, ?_⟩
  all_goals simp

@[simp] theorem warnClrBody_keeps (s : State) :
    (warnClrBody s).1.pending = s.pending ∧ (warnClrBody s).1.boot.straps = s.boot.straps ∧
    (warnClrBody s).1.boot.revoked = s.boot.revoked := by
  unfold warnClrBody
  try dsimp only
  repeat' split
  all_goals simp

theorem execWarnClr_keeps (o : Origin) (s : State) :
    ∃ z, execWarnClr o s = .next z ∧ z.pending = s.pending ∧ z.boot.straps = s.boot.straps ∧ z.boot.revoked = s.boot.revoked := by
  unfold execWarnClr
  try dsimp only
  repeat' split
  all_goals first | (refine ⟨_, rfl, ?_⟩; simp; done) | (refine ⟨_, rfl, ?_⟩; (first | apply command_keeps); intros; (try dsimp only); (repeat' split) <;> simp_all)

theorem execImageStageRestart_keeps (s : State) :
    ∃ z, execImageStageRestart s = .next z ∧ z.pending = s.pending ∧ z.boot.straps = s.boot.straps ∧
    z.boot.revoked = s.boot.revoked := by
  unfold execImageStageRestart
  try dsimp only
  repeat' split
  all_goals refine ⟨_, rfl, ?_⟩
  all_goals simp

@[simp] theorem setBankAt_keeps (s : State) (b : Nat) (r : Bank) :
    (setBankAt s b r).pending = s.pending ∧ (setBankAt s b r).boot.straps = s.boot.straps ∧
    (setBankAt s b r).boot.revoked = s.boot.revoked := by
  unfold setBankAt
  try dsimp only
  repeat' split
  all_goals simp

@[simp] theorem memStat_keeps (s : State) (rej : Bool) :
    (memStat s rej).pending = s.pending ∧ (memStat s rej).boot.straps = s.boot.straps ∧
    (memStat s rej).boot.revoked = s.boot.revoked := by
  unfold memStat
  try dsimp only
  repeat' split
  all_goals simp

theorem memCmd_keeps (o : Origin) (body : State → Nat → State × Nat) (s : State)
    (h : ∀ x0 x1, (body x0 x1).1.pending = x0.pending ∧
      (body x0 x1).1.boot.straps = x0.boot.straps ∧
      (body x0 x1).1.boot.revoked = x0.boot.revoked) :
    (memCmd o body s).pending = s.pending ∧ (memCmd o body s).boot.straps = s.boot.straps ∧
    (memCmd o body s).boot.revoked = s.boot.revoked := by
  unfold memCmd
  try dsimp only
  repeat' split
  all_goals first | (simp; done) | ((first | apply command_keeps); intros; (try dsimp only); (repeat' split) <;> simp_all)

@[simp] theorem moveBank_keeps (s : State) (b st : Nat) :
    (moveBank s b st).pending = s.pending ∧ (moveBank s b st).boot.straps = s.boot.straps ∧
    (moveBank s b st).boot.revoked = s.boot.revoked := by
  unfold moveBank
  try dsimp only
  repeat' split
  all_goals simp

@[simp] theorem rejectBank_keeps (s : State) :
    (rejectBank s).1.pending = s.pending ∧ (rejectBank s).1.boot.straps = s.boot.straps ∧
    (rejectBank s).1.boot.revoked = s.boot.revoked := by
  unfold rejectBank
  try dsimp only
  repeat' split
  all_goals simp

theorem execBankRead_keeps (o : Origin) (s : State) :
    ∃ z, execBankRead o s = .next z ∧ z.pending = s.pending ∧ z.boot.straps = s.boot.straps ∧ z.boot.revoked = s.boot.revoked := by
  unfold execBankRead
  try dsimp only
  repeat' split
  all_goals first | (refine ⟨_, rfl, ?_⟩; simp; done) | (refine ⟨_, rfl, ?_⟩; (first | apply memCmd_keeps); intros; (try dsimp only); (repeat' split) <;> simp_all)

theorem execBankOn_keeps (o : Origin) (s : State) :
    ∃ z, execBankOn o s = .next z ∧ z.pending = s.pending ∧ z.boot.straps = s.boot.straps ∧ z.boot.revoked = s.boot.revoked := by
  unfold execBankOn
  try dsimp only
  repeat' split
  all_goals first | (refine ⟨_, rfl, ?_⟩; simp; done) | (refine ⟨_, rfl, ?_⟩; (first | apply memCmd_keeps); intros; (try dsimp only); (repeat' split) <;> simp_all)

theorem execBankRetention_keeps (o : Origin) (s : State) :
    ∃ z, execBankRetention o s = .next z ∧ z.pending = s.pending ∧ z.boot.straps = s.boot.straps ∧
    z.boot.revoked = s.boot.revoked := by
  unfold execBankRetention
  try dsimp only
  repeat' split
  all_goals first | (refine ⟨_, rfl, ?_⟩; simp; done) | (refine ⟨_, rfl, ?_⟩; (first | apply memCmd_keeps); intros; (try dsimp only); (repeat' split) <;> simp_all)

theorem execBankOff_keeps (o : Origin) (s : State) :
    ∃ z, execBankOff o s = .next z ∧ z.pending = s.pending ∧ z.boot.straps = s.boot.straps ∧ z.boot.revoked = s.boot.revoked := by
  unfold execBankOff
  try dsimp only
  repeat' split
  all_goals first | (refine ⟨_, rfl, ?_⟩; simp; done) | (refine ⟨_, rfl, ?_⟩; (first | apply memCmd_keeps); intros; (try dsimp only); (repeat' split) <;> simp_all)

end Sys2Proof.Machine
end

