-- ==== Sys2Proof/Laws/KeepParse.lean ====
section
/-! SUPPORT. What each operation of Machine/Parse.lean leaves alone. -/

namespace Sys2Proof.Machine


end Sys2Proof.Machine
end

