-- ==== Sys2Proof/Laws/KeepLegend.lean ====
section
/-! SUPPORT. What each operation of Machine/Legend.lean leaves alone. -/

namespace Sys2Proof.Machine

@[simp] theorem noteRange_keeps (s : State) :
    (noteRange s).pending = s.pending ∧ (noteRange s).boot.straps = s.boot.straps ∧
    (noteRange s).boot.revoked = s.boot.revoked := by
  unfold noteRange
  try dsimp only
  repeat' split
  all_goals simp

@[simp] theorem onuQueue_keeps (s : State) (u off : Nat) :
    (onuQueue s u off).1.pending = s.pending ∧ (onuQueue s u off).1.boot.straps = s.boot.straps ∧
    (onuQueue s u off).1.boot.revoked = s.boot.revoked := by
  unfold onuQueue
  try dsimp only
  repeat' split
  all_goals simp

@[simp] theorem countRange_keeps (s : State) :
    (countRange s).pending = s.pending ∧ (countRange s).boot.straps = s.boot.straps ∧
    (countRange s).boot.revoked = s.boot.revoked := by
  unfold countRange
  try dsimp only
  repeat' split
  all_goals simp

@[simp] theorem resolveQueue_keeps (s : State) (p : Packet) (off : Nat) (dest : Nat × Nat) :
    (resolveQueue s p off dest).1.pending = s.pending ∧ (resolveQueue s p off dest).1.boot.straps = s.boot.straps ∧
    (resolveQueue s p off dest).1.boot.revoked = s.boot.revoked := by
  unfold resolveQueue
  try dsimp only
  repeat' split
  all_goals simp

@[simp] theorem applyAction_keeps (s : State) (p : Packet) (a : Nat) :
    (applyAction s p a).1.pending = s.pending ∧ (applyAction s p a).1.boot.straps = s.boot.straps ∧
    (applyAction s p a).1.boot.revoked = s.boot.revoked := by
  unfold applyAction
  try dsimp only
  repeat' split
  all_goals simp

@[simp] theorem legendMatch_keeps (s : State) (p : Packet) :
    (legendMatch s p).1.pending = s.pending ∧ (legendMatch s p).1.boot.straps = s.boot.straps ∧
    (legendMatch s p).1.boot.revoked = s.boot.revoked := by
  unfold legendMatch
  try dsimp only
  repeat' split
  all_goals simp

@[simp] theorem lgdStat_keeps (s : State) (own rej : Bool) :
    (lgdStat s own rej).pending = s.pending ∧ (lgdStat s own rej).boot.straps = s.boot.straps ∧
    (lgdStat s own rej).boot.revoked = s.boot.revoked := by
  unfold lgdStat
  try dsimp only
  repeat' split
  all_goals simp

@[simp] theorem showRule_keeps (s : State) (r : LRule) :
    (showRule s r).pending = s.pending ∧ (showRule s r).boot.straps = s.boot.straps ∧
    (showRule s r).boot.revoked = s.boot.revoked := by
  unfold showRule
  try dsimp only
  repeat' split
  all_goals simp

theorem lgdCmd_keeps (o : Origin) (body : State → Nat → State × Nat) (s : State)
    (h : ∀ x0 x1, (body x0 x1).1.pending = x0.pending ∧
      (body x0 x1).1.boot.straps = x0.boot.straps ∧
      (body x0 x1).1.boot.revoked = x0.boot.revoked) :
    (lgdCmd o body s).pending = s.pending ∧ (lgdCmd o body s).boot.straps = s.boot.straps ∧
    (lgdCmd o body s).boot.revoked = s.boot.revoked := by
  unfold lgdCmd
  try dsimp only
  repeat' split
  all_goals first | (simp; done) | ((first | apply command_keeps); intros; (try dsimp only); (repeat' split) <;> simp_all)

theorem lgdWrite_keeps (o : Origin) (body : State → Nat → State × Nat) (s : State)
    (h : ∀ x0 x1, (body x0 x1).1.pending = x0.pending ∧
      (body x0 x1).1.boot.straps = x0.boot.straps ∧
      (body x0 x1).1.boot.revoked = x0.boot.revoked) :
    (lgdWrite o body s).pending = s.pending ∧ (lgdWrite o body s).boot.straps = s.boot.straps ∧
    (lgdWrite o body s).boot.revoked = s.boot.revoked := by
  unfold lgdWrite
  dsimp only
  have := lgdCmd_keeps o body (if (addrReject s o (pgLGD + LGD_CMD.off)).isNone && isSet s pgLGD LGD_BUSY &&
    s.cls.move.any (fun m => inBlock m.1 m.2.1 (fld s pgLGD LGD_RULE_IDX)) then setBit s pgLGD LGD_REJECT true else s) h
  refine this.imp (·.trans ?_) (And.imp (·.trans ?_) (·.trans ?_)) <;> split <;> simp

theorem execLgdRuleRead_keeps (o : Origin) (s : State) :
    ∃ z, execLgdRuleRead o s = .next z ∧ z.pending = s.pending ∧ z.boot.straps = s.boot.straps ∧
    z.boot.revoked = s.boot.revoked := by
  unfold execLgdRuleRead
  try dsimp only
  repeat' split
  all_goals first | (refine ⟨_, rfl, ?_⟩; simp; done) | (refine ⟨_, rfl, ?_⟩; (first | apply lgdCmd_keeps); intros; (try dsimp only); (repeat' split) <;> simp_all)

@[simp] theorem showValid_keeps (s : State) :
    (showValid s).pending = s.pending ∧ (showValid s).boot.straps = s.boot.straps ∧
    (showValid s).boot.revoked = s.boot.revoked := by
  unfold showValid
  try dsimp only
  repeat' split
  all_goals simp

@[simp] theorem rejectRule_keeps (s : State) (own : Bool) :
    (rejectRule s own).pending = s.pending ∧ (rejectRule s own).boot.straps = s.boot.straps ∧
    (rejectRule s own).boot.revoked = s.boot.revoked := by
  unfold rejectRule
  try dsimp only
  repeat' split
  all_goals simp

theorem execLgdRuleWrite_keeps (o : Origin) (s : State) :
    ∃ z, execLgdRuleWrite o s = .next z ∧ z.pending = s.pending ∧ z.boot.straps = s.boot.straps ∧
    z.boot.revoked = s.boot.revoked := by
  unfold execLgdRuleWrite
  try dsimp only
  repeat' split
  all_goals first | (refine ⟨_, rfl, ?_⟩; simp; done) | (refine ⟨_, rfl, ?_⟩; (first | apply lgdWrite_keeps); intros; (try dsimp only); (repeat' split) <;> simp_all)

theorem execLgdRuleInvalidate_keeps (o : Origin) (s : State) :
    ∃ z, execLgdRuleInvalidate o s = .next z ∧ z.pending = s.pending ∧ z.boot.straps = s.boot.straps ∧
    z.boot.revoked = s.boot.revoked := by
  unfold execLgdRuleInvalidate
  try dsimp only
  repeat' split
  all_goals first | (refine ⟨_, rfl, ?_⟩; simp; done) | (refine ⟨_, rfl, ?_⟩; (first | apply lgdWrite_keeps); intros; (try dsimp only); (repeat' split) <;> simp_all)

theorem execLgdHitClear_keeps (o : Origin) (s : State) :
    ∃ z, execLgdHitClear o s = .next z ∧ z.pending = s.pending ∧ z.boot.straps = s.boot.straps ∧
    z.boot.revoked = s.boot.revoked := by
  unfold execLgdHitClear
  try dsimp only
  repeat' split
  all_goals first | (refine ⟨_, rfl, ?_⟩; simp; done) | (refine ⟨_, rfl, ?_⟩; (first | apply lgdCmd_keeps); intros; (try dsimp only); (repeat' split) <;> simp_all)

theorem execLgdMoveBlock_keeps (o : Origin) (s : State) :
    ∃ z, execLgdMoveBlock o s = .next z ∧ z.pending = s.pending ∧ z.boot.straps = s.boot.straps ∧
    z.boot.revoked = s.boot.revoked := by
  unfold execLgdMoveBlock
  try dsimp only
  repeat' split
  all_goals first | (refine ⟨_, rfl, ?_⟩; simp; done) | (refine ⟨_, rfl, ?_⟩; (first | apply lgdCmd_keeps); intros; (try dsimp only); (repeat' split) <;> simp_all)

theorem execLgdMoveDone_keeps (s : State) :
    ∃ z, execLgdMoveDone s = .next z ∧ z.pending = s.pending ∧ z.boot.straps = s.boot.straps ∧ z.boot.revoked = s.boot.revoked := by
  unfold execLgdMoveDone
  try dsimp only
  repeat' split
  all_goals refine ⟨_, rfl, ?_⟩
  all_goals simp

theorem vidCmd_keeps (o : Origin) (body : State → State × Nat) (s : State)
    (h : ∀ x0, (body x0).1.pending = x0.pending ∧
      (body x0).1.boot.straps = x0.boot.straps ∧
      (body x0).1.boot.revoked = x0.boot.revoked) :
    (vidCmd o body s).pending = s.pending ∧ (vidCmd o body s).boot.straps = s.boot.straps ∧
    (vidCmd o body s).boot.revoked = s.boot.revoked := by
  unfold vidCmd
  try dsimp only
  repeat' split
  all_goals first | (simp; done) | ((first | apply command_keeps); intros; (try dsimp only); (repeat' split) <;> simp_all)

theorem execVidSliceRead_keeps (o : Origin) (s : State) :
    ∃ z, execVidSliceRead o s = .next z ∧ z.pending = s.pending ∧ z.boot.straps = s.boot.straps ∧
    z.boot.revoked = s.boot.revoked := by
  unfold execVidSliceRead
  try dsimp only
  repeat' split
  all_goals first | (refine ⟨_, rfl, ?_⟩; simp; done) | (refine ⟨_, rfl, ?_⟩; (first | apply vidCmd_keeps); intros; (try dsimp only); (repeat' split) <;> simp_all)

theorem execVidSliceWrite_keeps (o : Origin) (s : State) :
    ∃ z, execVidSliceWrite o s = .next z ∧ z.pending = s.pending ∧ z.boot.straps = s.boot.straps ∧
    z.boot.revoked = s.boot.revoked := by
  unfold execVidSliceWrite
  try dsimp only
  repeat' split
  all_goals first | (refine ⟨_, rfl, ?_⟩; simp; done) | (refine ⟨_, rfl, ?_⟩; (first | apply vidCmd_keeps); intros; (try dsimp only); (repeat' split) <;> simp_all)

end Sys2Proof.Machine
end

