-- ==== Sys2Proof/Laws/KeepGazetteer.lean ====
section
/-! SUPPORT. What each operation of Machine/Gazetteer.lean leaves alone. -/

namespace Sys2Proof.Machine

@[simp] theorem putEnt_keeps (s : State) (l : Loc) (e : BitVec 256) :
    (putEnt s l e).pending = s.pending ∧ (putEnt s l e).boot.straps = s.boot.straps ∧
    (putEnt s l e).boot.revoked = s.boot.revoked := by
  unfold putEnt
  try dsimp only
  repeat' split
  all_goals simp

@[simp] theorem showUsed_keeps (s : State) :
    (showUsed s).pending = s.pending ∧ (showUsed s).boot.straps = s.boot.straps ∧
    (showUsed s).boot.revoked = s.boot.revoked := by
  unfold showUsed
  try dsimp only
  repeat' split
  all_goals simp

@[simp] theorem gztLookup_keeps (s : State) (key ty : Nat) :
    (gztLookup s key ty).1.pending = s.pending ∧ (gztLookup s key ty).1.boot.straps = s.boot.straps ∧
    (gztLookup s key ty).1.boot.revoked = s.boot.revoked := by
  unfold gztLookup
  try dsimp only
  repeat' split
  all_goals simp

@[simp] theorem promote_keeps (s : State) (b slot : Nat) :
    (promote s b slot).pending = s.pending ∧ (promote s b slot).boot.straps = s.boot.straps ∧
    (promote s b slot).boot.revoked = s.boot.revoked := by
  unfold promote
  try dsimp only
  repeat' split
  all_goals simp

@[simp] theorem endReloc_keeps (s : State) (r : Reloc) :
    (endReloc s r).pending = s.pending ∧ (endReloc s r).boot.straps = s.boot.straps ∧
    (endReloc s r).boot.revoked = s.boot.revoked := by
  unfold endReloc
  try dsimp only
  repeat' split
  all_goals simp

@[simp] theorem removeEnt_keeps (s : State) (l : Loc) :
    (removeEnt s l).pending = s.pending ∧ (removeEnt s l).boot.straps = s.boot.straps ∧
    (removeEnt s l).boot.revoked = s.boot.revoked := by
  unfold removeEnt
  try dsimp only
  repeat' split
  all_goals simp

@[simp] theorem placeEnt_keeps (s : State) (l : Loc) (e : BitVec 256) :
    (placeEnt s l e).pending = s.pending ∧ (placeEnt s l e).boot.straps = s.boot.straps ∧
    (placeEnt s l e).boot.revoked = s.boot.revoked := by
  unfold placeEnt
  try dsimp only
  repeat' split
  all_goals simp

@[simp] theorem pickVictim_keeps (s : State) (key ty : Nat) :
    (pickVictim s key ty).1.pending = s.pending ∧ (pickVictim s key ty).1.boot.straps = s.boot.straps ∧
    (pickVictim s key ty).1.boot.revoked = s.boot.revoked := by
  unfold pickVictim
  try dsimp only
  repeat' split
  all_goals simp

@[simp] theorem noteMove_keeps (s : State) :
    (noteMove s).pending = s.pending ∧ (noteMove s).boot.straps = s.boot.straps ∧
    (noteMove s).boot.revoked = s.boot.revoked := by
  unfold noteMove
  try dsimp only
  repeat' split
  all_goals simp

@[simp] theorem stationMove_keeps (s : State) (l : Loc) (body : Nat) :
    (stationMove s l body).1.pending = s.pending ∧ (stationMove s l body).1.boot.straps = s.boot.straps ∧
    (stationMove s l body).1.boot.revoked = s.boot.revoked := by
  unfold stationMove
  try dsimp only
  repeat' split
  all_goals simp

@[simp] theorem learnNew_keeps (s : State) (key ty body : Nat) :
    (learnNew s key ty body).1.pending = s.pending ∧
    (learnNew s key ty body).1.boot.straps = s.boot.straps ∧
    (learnNew s key ty body).1.boot.revoked = s.boot.revoked := by
  unfold learnNew
  have h := pickVictim_keeps s key ty
  dsimp only
  split
  · simp
  · generalize pickVictim s key ty = r at *
    rcases r with ⟨s1, _ | l⟩ <;> simp_all

@[simp] theorem rejectLearn_keeps (s : State) :
    (rejectLearn s).pending = s.pending ∧ (rejectLearn s).boot.straps = s.boot.straps ∧
    (rejectLearn s).boot.revoked = s.boot.revoked := by
  unfold rejectLearn
  try dsimp only
  repeat' split
  all_goals simp

@[simp] theorem learn_keeps (s0 : State) (slice key ty body : Nat) :
    (learn s0 slice key ty body).1.pending = s0.pending ∧ (learn s0 slice key ty body).1.boot.straps = s0.boot.straps ∧
    (learn s0 slice key ty body).1.boot.revoked = s0.boot.revoked := by
  unfold learn
  try dsimp only
  repeat' split
  all_goals simp

@[simp] theorem hostInsert_keeps (s : State) (e : BitVec 256) :
    (hostInsert s e).pending = s.pending ∧ (hostInsert s e).boot.straps = s.boot.straps ∧
    (hostInsert s e).boot.revoked = s.boot.revoked := by
  unfold hostInsert
  try dsimp only
  repeat' split
  all_goals simp

@[simp] theorem hostDelete_keeps (s : State) (key ty : Nat) :
    (hostDelete s key ty).pending = s.pending ∧ (hostDelete s key ty).boot.straps = s.boot.straps ∧
    (hostDelete s key ty).boot.revoked = s.boot.revoked := by
  unfold hostDelete
  try dsimp only
  repeat' split
  all_goals simp

@[simp] theorem thawKey_keeps (s : State) (key ty : Nat) :
    (thawKey s key ty).pending = s.pending ∧ (thawKey s key ty).boot.straps = s.boot.straps ∧
    (thawKey s key ty).boot.revoked = s.boot.revoked := by
  unfold thawKey
  try dsimp only
  repeat' split
  all_goals simp

@[simp] theorem runLearn_keeps (s : State) (r : LearnReq) :
    (runLearn s r).1.pending = s.pending ∧ (runLearn s r).1.boot.straps = s.boot.straps ∧
    (runLearn s r).1.boot.revoked = s.boot.revoked := by
  unfold runLearn
  try dsimp only
  repeat' split
  all_goals simp

@[simp] theorem answerTbl_keeps (s : State) (c : Option CtxId) (r : UnitRes) :
    (answerTbl s c r).pending = s.pending ∧ (answerTbl s c r).boot.straps = s.boot.straps ∧
    (answerTbl s c r).boot.revoked = s.boot.revoked := by
  unfold answerTbl
  try dsimp only
  repeat' split
  all_goals simp

@[simp] theorem beginLearn_keeps (s : State) (r : LearnReq) :
    (beginLearn s r).pending = s.pending ∧ (beginLearn s r).boot.straps = s.boot.straps ∧
    (beginLearn s r).boot.revoked = s.boot.revoked := by
  unfold beginLearn
  try dsimp only
  repeat' split
  all_goals simp

@[simp] theorem queueLearn_keeps (s : State) (r : LearnReq) :
    (queueLearn s r).pending = s.pending ∧ (queueLearn s r).boot.straps = s.boot.straps ∧
    (queueLearn s r).boot.revoked = s.boot.revoked := by
  unfold queueLearn
  try dsimp only
  repeat' split
  all_goals simp

@[simp] theorem enterLearn_keeps (s : State) (r : LearnReq) :
    (enterLearn s r).1.pending = s.pending ∧ (enterLearn s r).1.boot.straps = s.boot.straps ∧
    (enterLearn s r).1.boot.revoked = s.boot.revoked := by
  unfold enterLearn
  try dsimp only
  repeat' split
  all_goals simp

@[simp] theorem sweepEnt_keeps (s : State) (l : Loc) :
    (sweepEnt s l).pending = s.pending ∧ (sweepEnt s l).boot.straps = s.boot.straps ∧
    (sweepEnt s l).boot.revoked = s.boot.revoked := by
  unfold sweepEnt
  try dsimp only
  repeat' split
  all_goals simp

@[simp] theorem sweepAt_keeps (s : State) (l : Loc) :
    (sweepAt s l).pending = s.pending ∧ (sweepAt s l).boot.straps = s.boot.straps ∧
    (sweepAt s l).boot.revoked = s.boot.revoked := by
  unfold sweepAt
  try dsimp only
  repeat' split
  all_goals simp

@[simp] theorem sweepOver_keeps (s : State) (ls : List Loc) :
    (sweepOver s ls).pending = s.pending ∧ (sweepOver s ls).boot.straps = s.boot.straps ∧
    (sweepOver s ls).boot.revoked = s.boot.revoked := by
  unfold sweepOver
  try dsimp only
  repeat' split
  all_goals simp

@[simp] theorem resweep_keeps (s : State) :
    (resweep s).pending = s.pending ∧ (resweep s).boot.straps = s.boot.straps ∧
    (resweep s).boot.revoked = s.boot.revoked := by
  unfold resweep
  try dsimp only
  repeat' split
  all_goals simp

theorem execLearnArbitration_keeps (s : State) :
    ∃ z, execLearnArbitration s = .next z ∧ z.pending = s.pending ∧ z.boot.straps = s.boot.straps ∧
    z.boot.revoked = s.boot.revoked := by
  unfold execLearnArbitration
  try dsimp only
  repeat' split
  all_goals refine ⟨_, rfl, ?_⟩
  all_goals simp

theorem execRelocGuardExpire_keeps (b : Nat) (s : State) :
    ∃ z, execRelocGuardExpire b s = .next z ∧ z.pending = s.pending ∧ z.boot.straps = s.boot.straps ∧
    z.boot.revoked = s.boot.revoked := by
  unfold execRelocGuardExpire
  try dsimp only
  repeat' split
  all_goals refine ⟨_, rfl, ?_⟩
  all_goals simp

@[simp] theorem ageFrame_keeps (s : State) :
    (ageFrame s).pending = s.pending ∧ (ageFrame s).boot.straps = s.boot.straps ∧
    (ageFrame s).boot.revoked = s.boot.revoked := by
  unfold ageFrame
  try dsimp only
  repeat' split
  all_goals simp

theorem execAgeEpoch_keeps (s : State) :
    ∃ z, execAgeEpoch s = .next z ∧ z.pending = s.pending ∧ z.boot.straps = s.boot.straps ∧ z.boot.revoked = s.boot.revoked := by
  unfold execAgeEpoch
  try dsimp only
  repeat' split
  all_goals refine ⟨_, rfl, ?_⟩
  all_goals simp

@[simp] theorem gztStat_keeps (s : State) (own rej : Bool) :
    (gztStat s own rej).pending = s.pending ∧ (gztStat s own rej).boot.straps = s.boot.straps ∧
    (gztStat s own rej).boot.revoked = s.boot.revoked := by
  unfold gztStat
  try dsimp only
  repeat' split
  all_goals simp

@[simp] theorem showEnt_keeps (s : State) (e : BitVec 256) :
    (showEnt s e).pending = s.pending ∧ (showEnt s e).boot.straps = s.boot.straps ∧
    (showEnt s e).boot.revoked = s.boot.revoked := by
  unfold showEnt
  try dsimp only
  repeat' split
  all_goals simp

theorem gztCmd_keeps (o : Origin) (owner : State → Nat) (body : State → State × Nat) (s : State)
    (h : ∀ x0, (body x0).1.pending = x0.pending ∧
      (body x0).1.boot.straps = x0.boot.straps ∧
      (body x0).1.boot.revoked = x0.boot.revoked) :
    (gztCmd o owner body s).pending = s.pending ∧ (gztCmd o owner body s).boot.straps = s.boot.straps ∧
    (gztCmd o owner body s).boot.revoked = s.boot.revoked := by
  unfold gztCmd
  try dsimp only
  repeat' split
  all_goals first | (simp; done) | ((first | apply command_keeps); intros; (try dsimp only); (repeat' split) <;> simp_all)

theorem keyedCmd_keeps (o : Origin) (body : State → Nat → Nat → State) (s : State)
    (h : ∀ x0 x1 x2, (body x0 x1 x2).pending = x0.pending ∧
      (body x0 x1 x2).boot.straps = x0.boot.straps ∧
      (body x0 x1 x2).boot.revoked = x0.boot.revoked) :
    (keyedCmd o body s).pending = s.pending ∧ (keyedCmd o body s).boot.straps = s.boot.straps ∧
    (keyedCmd o body s).boot.revoked = s.boot.revoked := by
  unfold keyedCmd
  apply gztCmd_keeps
  intro x
  by_cases c : keyBad (gztImage x)
  · simp only [c, ↓reduceIte, gztStat_keeps, and_self]
  · simp only [c, Bool.false_eq_true, ↓reduceIte, h, gztStat_keeps, and_self]

@[simp] theorem hostAsk_keeps (s : State) (o : Origin) (op : LearnOp) :
    (hostAsk s o op).pending = s.pending ∧ (hostAsk s o op).boot.straps = s.boot.straps ∧
    (hostAsk s o op).boot.revoked = s.boot.revoked := by
  unfold hostAsk
  try dsimp only
  repeat' split
  all_goals simp

theorem execGztLookupCmd_keeps (o : Origin) (s : State) :
    ∃ z, execGztLookupCmd o s = .next z ∧ z.pending = s.pending ∧ z.boot.straps = s.boot.straps ∧
    z.boot.revoked = s.boot.revoked := by
  unfold execGztLookupCmd
  try dsimp only
  repeat' split
  all_goals first | (refine ⟨_, rfl, ?_⟩; simp; done) | (refine ⟨_, rfl, ?_⟩; (first | apply keyedCmd_keeps); intros; (try dsimp only); (repeat' split) <;> simp_all)

theorem execGztInsert_keeps (o : Origin) (s : State) :
    ∃ z, execGztInsert o s = .next z ∧ z.pending = s.pending ∧ z.boot.straps = s.boot.straps ∧ z.boot.revoked = s.boot.revoked := by
  unfold execGztInsert
  refine ⟨_, rfl, ?_⟩
  apply gztCmd_keeps
  intro x
  by_cases c : imageBad (gztImage x) || decide (hostEntries ≤ fld x pgGZT GZT_ENTRIES_USED)
  · simp only [c, ↓reduceIte, gztStat_keeps, and_self]
  · simp only [c, Bool.false_eq_true, ↓reduceIte, hostAsk_keeps, gztStat_keeps, and_self]

theorem execGztDeleteCmd_keeps (o : Origin) (s : State) :
    ∃ z, execGztDeleteCmd o s = .next z ∧ z.pending = s.pending ∧ z.boot.straps = s.boot.straps ∧
    z.boot.revoked = s.boot.revoked := by
  unfold execGztDeleteCmd
  try dsimp only
  repeat' split
  all_goals first | (refine ⟨_, rfl, ?_⟩; simp; done) | (refine ⟨_, rfl, ?_⟩; (first | apply keyedCmd_keeps); intros; (try dsimp only); (repeat' split) <;> simp_all)

theorem execGztReadSlot_keeps (o : Origin) (s : State) :
    ∃ z, execGztReadSlot o s = .next z ∧ z.pending = s.pending ∧ z.boot.straps = s.boot.straps ∧
    z.boot.revoked = s.boot.revoked := by
  unfold execGztReadSlot
  try dsimp only
  repeat' split
  all_goals first | (refine ⟨_, rfl, ?_⟩; simp; done) | (refine ⟨_, rfl, ?_⟩; (first | apply gztCmd_keeps); intros; (try dsimp only); (repeat' split) <;> simp_all)

@[simp] theorem beginBulk_keeps (s : State) (b : Bulk) :
    (beginBulk s b).1.pending = s.pending ∧ (beginBulk s b).1.boot.straps = s.boot.straps ∧
    (beginBulk s b).1.boot.revoked = s.boot.revoked := by
  unfold beginBulk
  try dsimp only
  repeat' split
  all_goals simp

theorem execGztFlushDomain_keeps (o : Origin) (s : State) :
    ∃ z, execGztFlushDomain o s = .next z ∧ z.pending = s.pending ∧ z.boot.straps = s.boot.straps ∧
    z.boot.revoked = s.boot.revoked := by
  unfold execGztFlushDomain
  try dsimp only
  repeat' split
  all_goals first | (refine ⟨_, rfl, ?_⟩; simp; done) | (refine ⟨_, rfl, ?_⟩; (first | apply gztCmd_keeps); intros; (try dsimp only); (repeat' split) <;> simp_all)

theorem execGztFlushDest_keeps (o : Origin) (s : State) :
    ∃ z, execGztFlushDest o s = .next z ∧ z.pending = s.pending ∧ z.boot.straps = s.boot.straps ∧
    z.boot.revoked = s.boot.revoked := by
  unfold execGztFlushDest
  try dsimp only
  repeat' split
  all_goals first | (refine ⟨_, rfl, ?_⟩; simp; done) | (refine ⟨_, rfl, ?_⟩; (first | apply gztCmd_keeps); intros; (try dsimp only); (repeat' split) <;> simp_all)

@[simp] theorem flushAt_keeps (b : Bulk) (s : State) (l : Loc) :
    (flushAt b s l).pending = s.pending ∧ (flushAt b s l).boot.straps = s.boot.straps ∧
    (flushAt b s l).boot.revoked = s.boot.revoked := by
  unfold flushAt
  try dsimp only
  repeat' split
  all_goals simp

theorem execGztBulkDone_keeps (s : State) :
    ∃ z, execGztBulkDone s = .next z ∧ z.pending = s.pending ∧ z.boot.straps = s.boot.straps ∧ z.boot.revoked = s.boot.revoked := by
  unfold execGztBulkDone
  try dsimp only
  repeat' split
  all_goals refine ⟨_, rfl, ?_⟩
  all_goals simp

theorem execGztThaw_keeps (o : Origin) (s : State) :
    ∃ z, execGztThaw o s = .next z ∧ z.pending = s.pending ∧ z.boot.straps = s.boot.straps ∧ z.boot.revoked = s.boot.revoked := by
  unfold execGztThaw
  try dsimp only
  repeat' split
  all_goals first | (refine ⟨_, rfl, ?_⟩; simp; done) | (refine ⟨_, rfl, ?_⟩; (first | apply keyedCmd_keeps); intros; (try dsimp only); (repeat' split) <;> simp_all)

theorem execGztSetDomainOwner_keeps (o : Origin) (s : State) :
    ∃ z, execGztSetDomainOwner o s = .next z ∧ z.pending = s.pending ∧ z.boot.straps = s.boot.straps ∧
    z.boot.revoked = s.boot.revoked := by
  unfold execGztSetDomainOwner
  try dsimp only
  repeat' split
  all_goals first | (refine ⟨_, rfl, ?_⟩; simp; done) | (refine ⟨_, rfl, ?_⟩; (first | apply gztCmd_keeps); intros; (try dsimp only); (repeat' split) <;> simp_all)

end Sys2Proof.Machine
end

