-- ==== Sys2Proof/Laws/KeepHostRings.lean ====
section
/-! SUPPORT. What each operation of Machine/HostRings.lean leaves alone. -/

namespace Sys2Proof.Machine

@[simp] theorem ringBump_keeps (s : State) (r i n : Nat) :
    (ringBump s r i n).pending = s.pending ∧ (ringBump s r i n).boot.straps = s.boot.straps ∧
    (ringBump s r i n).boot.revoked = s.boot.revoked := by
  unfold ringBump
  try dsimp only
  repeat' split
  all_goals simp

@[simp] theorem flushCompletions_keeps (s : State) (r : Nat) :
    (flushCompletions s r).pending = s.pending ∧ (flushCompletions s r).boot.straps = s.boot.straps ∧
    (flushCompletions s r).boot.revoked = s.boot.revoked := by
  unfold flushCompletions
  try dsimp only
  repeat' split
  all_goals simp

@[simp] theorem complete_keeps (s : State) (r : Nat) (rec_ : HostRec) :
    (complete s r rec_).pending = s.pending ∧ (complete s r rec_).boot.straps = s.boot.straps ∧
    (complete s r rec_).boot.revoked = s.boot.revoked := by
  unfold complete
  try dsimp only
  repeat' split
  all_goals simp

theorem execRingCoalesceTimer_keeps (r : Fin 1024) (s : State) :
    ∃ z, execRingCoalesceTimer r s = .next z ∧ z.pending = s.pending ∧ z.boot.straps = s.boot.straps ∧
    z.boot.revoked = s.boot.revoked := by
  unfold execRingCoalesceTimer
  try dsimp only
  repeat' split
  all_goals refine ⟨_, rfl, ?_⟩
  all_goals simp

@[simp] theorem noteTsHigh_keeps (s : State) (t : Option Nat) :
    (noteTsHigh s t).pending = s.pending ∧ (noteTsHigh s t).boot.straps = s.boot.straps ∧
    (noteTsHigh s t).boot.revoked = s.boot.revoked := by
  unfold noteTsHigh
  try dsimp only
  repeat' split
  all_goals simp

@[simp] theorem passHost_keeps (s : State) (f : HostFrame) (party heir : Nat) :
    (passHost s f party heir).pending = s.pending ∧ (passHost s f party heir).boot.straps = s.boot.straps ∧
    (passHost s f party heir).boot.revoked = s.boot.revoked := by
  unfold passHost
  try dsimp only
  repeat' split
  all_goals simp

@[simp] theorem freeHost_keeps (s : State) (f : HostFrame) (party : Nat) :
    (freeHost s f party).pending = s.pending ∧ (freeHost s f party).boot.straps = s.boot.straps ∧
    (freeHost s f party).boot.revoked = s.boot.revoked := by
  unfold freeHost
  try dsimp only
  repeat' split
  all_goals simp

@[simp] theorem toRing_keeps (s : State) (r : Nat) (f : HostFrame) (party : Nat) :
    (toRing s r f party).pending = s.pending ∧ (toRing s r f party).boot.straps = s.boot.straps ∧
    (toRing s r f party).boot.revoked = s.boot.revoked := by
  unfold toRing
  try dsimp only
  repeat' split
  all_goals simp

@[simp] theorem puntFrame_keeps (s : State) (v : Nat) (f : HostFrame) (party : Nat) :
    (puntFrame s v f party).pending = s.pending ∧ (puntFrame s v f party).boot.straps = s.boot.straps ∧
    (puntFrame s v f party).boot.revoked = s.boot.revoked := by
  unfold puntFrame
  try dsimp only
  repeat' split
  all_goals simp

theorem execD2hDelivery_keeps (r : Fin 1024) (len bufLen : Nat) (s : State) :
    ∃ z, execD2hDelivery r len bufLen s = .next z ∧ z.pending = s.pending ∧ z.boot.straps = s.boot.straps ∧
    z.boot.revoked = s.boot.revoked := by
  unfold execD2hDelivery
  try dsimp only
  repeat' split
  all_goals refine ⟨_, rfl, ?_⟩
  all_goals simp

theorem execDoorbell_keeps (o : Origin) (data : Word) (s : State) :
    ∃ z, execDoorbell o data s = .next z ∧ z.pending = s.pending ∧ z.boot.straps = s.boot.straps ∧
    z.boot.revoked = s.boot.revoked := by
  unfold execDoorbell
  try dsimp only
  repeat' split
  all_goals first | (refine ⟨_, rfl, ?_⟩; simp; done) | (refine ⟨_, rfl, ?_⟩; (first | apply ownWrite_keeps); intros; (try dsimp only); (repeat' split) <;> simp_all)

@[simp] theorem dmaError_keeps (s : State) (r cause : Nat) :
    (dmaError s r cause).pending = s.pending ∧ (dmaError s r cause).boot.straps = s.boot.straps ∧
    (dmaError s r cause).boot.revoked = s.boot.revoked := by
  unfold dmaError
  try dsimp only
  repeat' split
  all_goals simp

@[simp] theorem sendH2d_keeps (s : State) (r : Nat) (d : H2dDesc) :
    (sendH2d s r d).pending = s.pending ∧ (sendH2d s r d).boot.straps = s.boot.straps ∧
    (sendH2d s r d).boot.revoked = s.boot.revoked := by
  unfold sendH2d
  try dsimp only
  repeat' split
  all_goals simp

theorem execH2dDescriptor_keeps (r : Fin 1024) (d : H2dDesc) (s : State) :
    ∃ z, execH2dDescriptor r d s = .next z ∧ z.pending = s.pending ∧ z.boot.straps = s.boot.straps ∧
    z.boot.revoked = s.boot.revoked := by
  unfold execH2dDescriptor
  try dsimp only
  repeat' split
  all_goals refine ⟨_, rfl, ?_⟩
  all_goals simp

theorem execDmaError_keeps (r : Fin 1024) (cause : Fin 4) (s : State) :
    ∃ z, execDmaError r cause s = .next z ∧ z.pending = s.pending ∧ z.boot.straps = s.boot.straps ∧
    z.boot.revoked = s.boot.revoked := by
  unfold execDmaError
  try dsimp only
  repeat' split
  all_goals refine ⟨_, rfl, ?_⟩
  all_goals simp

@[simp] theorem hstStat_keeps (s : State) (own rej : Bool) :
    (hstStat s own rej).pending = s.pending ∧ (hstStat s own rej).boot.straps = s.boot.straps ∧
    (hstStat s own rej).boot.revoked = s.boot.revoked := by
  unfold hstStat
  try dsimp only
  repeat' split
  all_goals simp

@[simp] theorem showRing_keeps (s : State) (x : Ring) :
    (showRing s x).pending = s.pending ∧ (showRing s x).boot.straps = s.boot.straps ∧
    (showRing s x).boot.revoked = s.boot.revoked := by
  unfold showRing
  try dsimp only
  repeat' split
  all_goals simp

@[simp] theorem hideRing_keeps (s : State) :
    (hideRing s).pending = s.pending ∧ (hideRing s).boot.straps = s.boot.straps ∧
    (hideRing s).boot.revoked = s.boot.revoked := by
  unfold hideRing
  try dsimp only
  repeat' split
  all_goals simp

theorem ringCmd_keeps (o : Origin) (body : State → Nat → State × Nat) (s : State)
    (h : ∀ x0 x1, (body x0 x1).1.pending = x0.pending ∧
      (body x0 x1).1.boot.straps = x0.boot.straps ∧
      (body x0 x1).1.boot.revoked = x0.boot.revoked) :
    (ringCmd o body s).pending = s.pending ∧ (ringCmd o body s).boot.straps = s.boot.straps ∧
    (ringCmd o body s).boot.revoked = s.boot.revoked := by
  unfold ringCmd
  try dsimp only
  repeat' split
  all_goals first | (simp; done) | ((first | apply command_keeps); intros; (try dsimp only); (repeat' split) <;> simp_all)

theorem execRingRead_keeps (o : Origin) (s : State) :
    ∃ z, execRingRead o s = .next z ∧ z.pending = s.pending ∧ z.boot.straps = s.boot.straps ∧ z.boot.revoked = s.boot.revoked := by
  unfold execRingRead
  try dsimp only
  repeat' split
  all_goals first | (refine ⟨_, rfl, ?_⟩; simp; done) | (refine ⟨_, rfl, ?_⟩; (first | apply ringCmd_keeps); intros; (try dsimp only); (repeat' split) <;> simp_all)

theorem execRingWrite_keeps (o : Origin) (s : State) :
    ∃ z, execRingWrite o s = .next z ∧ z.pending = s.pending ∧ z.boot.straps = s.boot.straps ∧ z.boot.revoked = s.boot.revoked := by
  unfold execRingWrite
  try dsimp only
  repeat' split
  all_goals first | (refine ⟨_, rfl, ?_⟩; simp; done) | (refine ⟨_, rfl, ?_⟩; (first | apply ringCmd_keeps); intros; (try dsimp only); (repeat' split) <;> simp_all)

theorem execRingStart_keeps (o : Origin) (s : State) :
    ∃ z, execRingStart o s = .next z ∧ z.pending = s.pending ∧ z.boot.straps = s.boot.straps ∧ z.boot.revoked = s.boot.revoked := by
  unfold execRingStart
  try dsimp only
  repeat' split
  all_goals first | (refine ⟨_, rfl, ?_⟩; simp; done) | (refine ⟨_, rfl, ?_⟩; (first | apply ringCmd_keeps); intros; (try dsimp only); (repeat' split) <;> simp_all)

theorem execRingStop_keeps (o : Origin) (s : State) :
    ∃ z, execRingStop o s = .next z ∧ z.pending = s.pending ∧ z.boot.straps = s.boot.straps ∧ z.boot.revoked = s.boot.revoked := by
  unfold execRingStop
  try dsimp only
  repeat' split
  all_goals first | (refine ⟨_, rfl, ?_⟩; simp; done) | (refine ⟨_, rfl, ?_⟩; (first | apply ringCmd_keeps); intros; (try dsimp only); (repeat' split) <;> simp_all)

theorem execFunctionLevelReset_keeps (f : Fin 32) (s : State) :
    ∃ z, execFunctionLevelReset f s = .next z ∧ z.pending = s.pending ∧ z.boot.straps = s.boot.straps ∧
    z.boot.revoked = s.boot.revoked := by
  unfold execFunctionLevelReset
  try dsimp only
  repeat' split
  all_goals refine ⟨_, rfl, ?_⟩
  all_goals simp

@[simp] theorem showPcie_keeps (s : State) (up : Bool) :
    (showPcie s up).pending = s.pending ∧ (showPcie s up).boot.straps = s.boot.straps ∧
    (showPcie s up).boot.revoked = s.boot.revoked := by
  unfold showPcie
  try dsimp only
  repeat' split
  all_goals simp

theorem execPerstDeassert_keeps (s : State) :
    ∃ z, execPerstDeassert s = .next z ∧ z.pending = s.pending ∧ z.boot.straps = s.boot.straps ∧
    z.boot.revoked = s.boot.revoked := by
  unfold execPerstDeassert
  try dsimp only
  repeat' split
  all_goals refine ⟨_, rfl, ?_⟩
  all_goals simp

theorem execPcieLinkDown_keeps (up : Bool) (s : State) :
    ∃ z, execPcieLinkDown up s = .next z ∧ z.pending = s.pending ∧ z.boot.straps = s.boot.straps ∧
    z.boot.revoked = s.boot.revoked := by
  unfold execPcieLinkDown
  try dsimp only
  repeat' split
  all_goals refine ⟨_, rfl, ?_⟩
  all_goals simp

end Sys2Proof.Machine
end

