-- ==== Sys2Proof/Laws/KeepEthernet.lean ====
section
/-! SUPPORT. What each operation of Machine/Ethernet.lean leaves alone. -/

namespace Sys2Proof.Machine

@[simp] theorem setEthStatus_keeps (s : State) (q bit : Nat) (b : Bool) :
    (setEthStatus s q bit b).pending = s.pending ∧ (setEthStatus s q bit b).boot.straps = s.boot.straps ∧
    (setEthStatus s q bit b).boot.revoked = s.boot.revoked := by
  unfold setEthStatus
  try dsimp only
  repeat' split
  all_goals simp

@[simp] theorem sendXoff_keeps (s : State) (q : Nat) :
    (sendXoff s q).pending = s.pending ∧ (sendXoff s q).boot.straps = s.boot.straps ∧
    (sendXoff s q).boot.revoked = s.boot.revoked := by
  unfold sendXoff
  try dsimp only
  repeat' split
  all_goals simp

@[simp] theorem checkFlow_keeps (s : State) (q : Nat) :
    (checkFlow s q).pending = s.pending ∧ (checkFlow s q).boot.straps = s.boot.straps ∧
    (checkFlow s q).boot.revoked = s.boot.revoked := by
  unfold checkFlow
  try dsimp only
  repeat' split
  all_goals simp

theorem execXoffRefresh_keeps (q : Fin 24) (s : State) :
    ∃ z, execXoffRefresh q s = .next z ∧ z.pending = s.pending ∧ z.boot.straps = s.boot.straps ∧
    z.boot.revoked = s.boot.revoked := by
  unfold execXoffRefresh
  try dsimp only
  repeat' split
  all_goals refine ⟨_, rfl, ?_⟩
  all_goals simp

@[simp] theorem queueRx_keeps (s : State) (q : Nat) (h : Option Nat) (f : UplinkIn) (at_ : Pos) :
    (queueRx s q h f at_).pending = s.pending ∧ (queueRx s q h f at_).boot.straps = s.boot.straps ∧
    (queueRx s q h f at_).boot.revoked = s.boot.revoked := by
  unfold queueRx
  try dsimp only
  repeat' split
  all_goals simp

theorem quarantine_keeps (s : State) (q : Nat) (f : UplinkIn) (m : MacsecIn) (at_ : Pos) (x : State)
    (h : quarantine s q f m at_ = some x) :
    x.pending = s.pending ∧ x.boot.straps = s.boot.straps ∧ x.boot.revoked = s.boot.revoked := by
  unfold quarantine at h
  simp only at h
  split at h
  · cases h; simp
  · split at h
    · cases h; simp
    · obtain ⟨y, hy, rfl⟩ := Option.map_eq_some_iff.mp h
      have := askBytes_keeps _ _ _ _ _ _ hy
      split <;> simp [this]

@[simp] theorem verify_keeps (s : State) (q : Nat) (f : UplinkIn) (m : MacsecIn) :
    (verify s q f m).pending = s.pending ∧
    (verify s q f m).boot.straps = s.boot.straps ∧
    (verify s q f m).boot.revoked = s.boot.revoked := by
  unfold verify
  dsimp only
  split
  · rename_i t h
    exact quarantine_keeps _ _ _ _ _ _ h
  · split <;> simp

theorem execUplinkReceiveFrame_keeps (q : Fin 24) (f : UplinkIn) (s : State) :
    ∃ z, execUplinkReceiveFrame q f s = .next z ∧ z.pending = s.pending ∧ z.boot.straps = s.boot.straps ∧
    z.boot.revoked = s.boot.revoked := by
  unfold execUplinkReceiveFrame
  try dsimp only
  repeat' split
  all_goals refine ⟨_, rfl, ?_⟩
  all_goals simp

@[simp] theorem oneStep_keeps (s : State) (q : Nat) (k : PtpKind) (l : List Byte) :
    (oneStep s q k l).1.pending = s.pending ∧ (oneStep s q k l).1.boot.straps = s.boot.straps ∧
    (oneStep s q k l).1.boot.revoked = s.boot.revoked := by
  unfold oneStep
  try dsimp only
  repeat' split
  all_goals simp

@[simp] theorem protect_keeps (s : State) (q : Nat) :
    (protect s q).1.pending = s.pending ∧ (protect s q).1.boot.straps = s.boot.straps ∧
    (protect s q).1.boot.revoked = s.boot.revoked := by
  unfold protect
  try dsimp only
  repeat' split
  all_goals simp

@[simp] theorem sendFrame_keeps (s : State) (q k : Nat) (f : QFrame) (ptp : PtpKind) :
    (sendFrame s q k f ptp).pending = s.pending ∧ (sendFrame s q k f ptp).boot.straps = s.boot.straps ∧
    (sendFrame s q k f ptp).boot.revoked = s.boot.revoked := by
  unfold sendFrame
  try dsimp only
  repeat' split
  all_goals simp

theorem execUplinkEgressPull_keeps (q : Fin 24) (ptp : PtpKind) (s : State) :
    ∃ z, execUplinkEgressPull q ptp s = .next z ∧ z.pending = s.pending ∧ z.boot.straps = s.boot.straps ∧
    z.boot.revoked = s.boot.revoked := by
  unfold execUplinkEgressPull
  try dsimp only
  repeat' split
  all_goals refine ⟨_, rfl, ?_⟩
  all_goals simp

@[simp] theorem trainLane_keeps (s : State) (l : Nat) :
    (trainLane s l).pending = s.pending ∧ (trainLane s l).boot.straps = s.boot.straps ∧
    (trainLane s l).boot.revoked = s.boot.revoked := by
  unfold trainLane
  try dsimp only
  repeat' split
  all_goals simp

@[simp] theorem linkUp_keeps (s : State) (q : Nat) :
    (linkUp s q).pending = s.pending ∧ (linkUp s q).boot.straps = s.boot.straps ∧
    (linkUp s q).boot.revoked = s.boot.revoked := by
  unfold linkUp
  try dsimp only
  repeat' split
  all_goals simp

@[simp] theorem linkDown_keeps (s : State) (q : Nat) :
    (linkDown s q).pending = s.pending ∧ (linkDown s q).boot.straps = s.boot.straps ∧
    (linkDown s q).boot.revoked = s.boot.revoked := by
  unfold linkDown
  try dsimp only
  repeat' split
  all_goals simp

theorem execUplinkLinkState_keeps (q : Fin 24) (up hiBer : Bool) (s : State) :
    ∃ z, execUplinkLinkState q up hiBer s = .next z ∧ z.pending = s.pending ∧ z.boot.straps = s.boot.straps ∧
    z.boot.revoked = s.boot.revoked := by
  unfold execUplinkLinkState
  try dsimp only
  repeat' split
  all_goals refine ⟨_, rfl, ?_⟩
  all_goals simp

end Sys2Proof.Machine
end

