-- ==== Sys2Proof/Laws/KeepMicrocode.lean ====
section
/-! SUPPORT. What each operation of Machine/Microcode.lean leaves alone. -/

namespace Sys2Proof.Machine

@[simp] theorem writeDst_keeps (s : State) (c : CtxId) (d v : Nat) :
    (writeDst s c d v).pending = s.pending ∧ (writeDst s c d v).boot.straps = s.boot.straps ∧
    (writeDst s c d v).boot.revoked = s.boot.revoked := by
  unfold writeDst
  try dsimp only
  repeat' split
  all_goals simp

@[simp] theorem doAlu_keeps (s : State) (c : CtxId) (w : BitVec 160) :
    (doAlu s c w).pending = s.pending ∧ (doAlu s c w).boot.straps = s.boot.straps ∧
    (doAlu s c w).boot.revoked = s.boot.revoked := by
  unfold doAlu
  try dsimp only
  repeat' split
  all_goals simp

@[simp] theorem setMem_keeps (s : State) (c : CtxId) (w : BitVec 160) (t : Tbl Nat) :
    (setMem s c w t).pending = s.pending ∧ (setMem s c w t).boot.straps = s.boot.straps ∧
    (setMem s c w t).boot.revoked = s.boot.revoked := by
  unfold setMem
  try dsimp only
  repeat' split
  all_goals simp

@[simp] theorem issueMem_keeps (s : State) (c : CtxId) (r : UnitRes) :
    (issueMem s c r).pending = s.pending ∧ (issueMem s c r).boot.straps = s.boot.straps ∧
    (issueMem s c r).boot.revoked = s.boot.revoked := by
  unfold issueMem
  try dsimp only
  repeat' split
  all_goals simp

@[simp] theorem doMem_keeps (conflict : Bool) (s0 : State) (c : CtxId) (w : BitVec 160) :
    (doMem conflict s0 c w).pending = s0.pending ∧ (doMem conflict s0 c w).boot.straps = s0.boot.straps ∧
    (doMem conflict s0 c w).boot.revoked = s0.boot.revoked := by
  unfold doMem
  try dsimp only
  repeat' split
  all_goals simp

@[simp] theorem issueTbl_keeps (s : State) (c : CtxId) (o : Out) :
    (issueTbl s c o).pending = s.pending ∧ (issueTbl s c o).boot.straps = s.boot.straps ∧
    (issueTbl s c o).boot.revoked = s.boot.revoked := by
  unfold issueTbl
  try dsimp only
  repeat' split
  all_goals simp

@[simp] theorem setPkt_keeps (s : State) (c : CtxId) (p : Packet) :
    (setPkt s c p).pending = s.pending ∧ (setPkt s c p).boot.straps = s.boot.straps ∧
    (setPkt s c p).boot.revoked = s.boot.revoked := by
  unfold setPkt
  try dsimp only
  repeat' split
  all_goals simp

@[simp] theorem askLearn_keeps (s : State) (c : CtxId) (w : BitVec 160) (op : LearnOp) :
    (askLearn s c w op).pending = s.pending ∧ (askLearn s c w op).boot.straps = s.boot.straps ∧
    (askLearn s c w op).boot.revoked = s.boot.revoked := by
  unfold askLearn
  try dsimp only
  repeat' split
  all_goals simp

@[simp] theorem takeDest_keeps (s : State) (p : Packet) (e : BitVec 256) :
    (takeDest s p e).1.pending = s.pending ∧ (takeDest s p e).1.boot.straps = s.boot.straps ∧
    (takeDest s p e).1.boot.revoked = s.boot.revoked := by
  unfold takeDest
  try dsimp only
  repeat' split
  all_goals simp

@[simp] theorem doTbl_keeps (s : State) (c : CtxId) (w : BitVec 160) :
    (doTbl s c w).pending = s.pending ∧ (doTbl s c w).boot.straps = s.boot.straps ∧
    (doTbl s c w).boot.revoked = s.boot.revoked := by
  unfold doTbl
  try dsimp only
  repeat' split
  all_goals simp

@[simp] theorem issueCip_keeps (s : State) (c : CtxId) (r : UnitRes) :
    (issueCip s c r).pending = s.pending ∧ (issueCip s c r).boot.straps = s.boot.straps ∧
    (issueCip s c r).boot.revoked = s.boot.revoked := by
  unfold issueCip
  try dsimp only
  repeat' split
  all_goals simp

@[simp] theorem recordKey_keeps (s : State) (k : Nat) (r : KeyReq) (code : Nat) :
    (recordKey s k r code).pending = s.pending ∧ (recordKey s k r code).boot.straps = s.boot.straps ∧
    (recordKey s k r code).boot.revoked = s.boot.revoked := by
  unfold recordKey
  try dsimp only
  repeat' split
  all_goals simp

@[simp] theorem doCip_keeps (s : State) (c : CtxId) (w : BitVec 160) :
    (doCip s c w).pending = s.pending ∧ (doCip s c w).boot.straps = s.boot.straps ∧
    (doCip s c w).boot.revoked = s.boot.revoked := by
  unfold doCip
  try dsimp only
  repeat' split
  all_goals simp

@[simp] theorem issueBpm_keeps (s : State) (c : CtxId) (o : Out) :
    (issueBpm s c o).pending = s.pending ∧ (issueBpm s c o).boot.straps = s.boot.straps ∧
    (issueBpm s c o).boot.revoked = s.boot.revoked := by
  unfold issueBpm
  try dsimp only
  repeat' split
  all_goals simp

@[simp] theorem askBuffer_keeps (s : State) (c : CtxId) (r n : Nat) :
    (askBuffer s c r n).pending = s.pending ∧
    (askBuffer s c r n).boot.straps = s.boot.straps ∧
    (askBuffer s c r n).boot.revoked = s.boot.revoked := by
  unfold askBuffer
  split
  · rename_i h
    have := askBytes_keeps _ _ _ _ _ _ h
    simp_all
  · simp

@[simp] theorem doBpm_keeps (s : State) (c : CtxId) (w : BitVec 160) :
    (doBpm s c w).pending = s.pending ∧ (doBpm s c w).boot.straps = s.boot.straps ∧
    (doBpm s c w).boot.revoked = s.boot.revoked := by
  unfold doBpm
  try dsimp only
  repeat' split
  all_goals simp

@[simp] theorem issueTmq_keeps (s : State) (c : CtxId) (o : Out) :
    (issueTmq s c o).pending = s.pending ∧ (issueTmq s c o).boot.straps = s.boot.straps ∧
    (issueTmq s c o).boot.revoked = s.boot.revoked := by
  unfold issueTmq
  try dsimp only
  repeat' split
  all_goals simp

@[simp] theorem dequeueTo_keeps (s : State) (c : CtxId) (k : Nat) :
    (dequeueTo s c k).pending = s.pending ∧ (dequeueTo s c k).boot.straps = s.boot.straps ∧
    (dequeueTo s c k).boot.revoked = s.boot.revoked := by
  unfold dequeueTo
  try dsimp only
  repeat' split
  all_goals simp

@[simp] theorem doTmq_keeps (s : State) (c : CtxId) (w : BitVec 160) :
    (doTmq s c w).pending = s.pending ∧ (doTmq s c w).boot.straps = s.boot.straps ∧
    (doTmq s c w).boot.revoked = s.boot.revoked := by
  unfold doTmq
  try dsimp only
  repeat' split
  all_goals simp

@[simp] theorem editPkt_keeps (s : State) (c : CtxId) (l : List Byte) (len : Nat) :
    (editPkt s c l len).pending = s.pending ∧ (editPkt s c l len).boot.straps = s.boot.straps ∧
    (editPkt s c l len).boot.revoked = s.boot.revoked := by
  unfold editPkt
  try dsimp only
  repeat' split
  all_goals simp

@[simp] theorem doHdr_keeps (s : State) (c : CtxId) (w : BitVec 160) :
    (doHdr s c w).pending = s.pending ∧ (doHdr s c w).boot.straps = s.boot.straps ∧
    (doHdr s c w).boot.revoked = s.boot.revoked := by
  unfold doHdr
  try dsimp only
  repeat' split
  all_goals simp

@[simp] theorem doCnt_keeps (s : State) (c : CtxId) (w : BitVec 160) :
    (doCnt s c w).pending = s.pending ∧ (doCnt s c w).boot.straps = s.boot.straps ∧
    (doCnt s c w).boot.revoked = s.boot.revoked := by
  unfold doCnt
  try dsimp only
  repeat' split
  all_goals simp

@[simp] theorem doEvt_keeps (s : State) (c : CtxId) (w : BitVec 160) :
    (doEvt s c w).pending = s.pending ∧ (doEvt s c w).boot.straps = s.boot.straps ∧
    (doEvt s c w).boot.revoked = s.boot.revoked := by
  unfold doEvt
  try dsimp only
  repeat' split
  all_goals simp

@[simp] theorem doFlg_keeps (s : State) (c : CtxId) (w : BitVec 160) :
    (doFlg s c w).pending = s.pending ∧ (doFlg s c w).boot.straps = s.boot.straps ∧
    (doFlg s c w).boot.revoked = s.boot.revoked := by
  unfold doFlg
  try dsimp only
  repeat' split
  all_goals simp

@[simp] theorem turnOn_keeps (s : State) (c : CtxId) :
    (turnOn s c).pending = s.pending ∧ (turnOn s c).boot.straps = s.boot.straps ∧
    (turnOn s c).boot.revoked = s.boot.revoked := by
  unfold turnOn
  try dsimp only
  repeat' split
  all_goals simp

@[simp] theorem runCtx_keeps (s : State) (c : CtxId) :
    (runCtx s c).pending = s.pending ∧ (runCtx s c).boot.straps = s.boot.straps ∧
    (runCtx s c).boot.revoked = s.boot.revoked := by
  unfold runCtx
  try dsimp only
  repeat' split
  all_goals simp

@[simp] theorem readStore_keeps (s : State) (c : CtxId) :
    (readStore s c).1.pending = s.pending ∧ (readStore s c).1.boot.straps = s.boot.straps ∧
    (readStore s c).1.boot.revoked = s.boot.revoked := by
  unfold readStore
  try dsimp only
  repeat' split
  all_goals simp

@[simp] theorem beginWord_keeps (s : State) (c : CtxId) :
    (beginWord s c).1.pending = s.pending ∧ (beginWord s c).1.boot.straps = s.boot.straps ∧
    (beginWord s c).1.boot.revoked = s.boot.revoked := by
  unfold beginWord
  try dsimp only
  repeat' split
  all_goals simp

theorem doField_keeps (i : Nat) (f : State → CtxId → BitVec 160 → State) (s : State) (c : CtxId) (w : BitVec 160)
    (h : ∀ x0 x1 x2, (f x0 x1 x2).pending = x0.pending ∧
      (f x0 x1 x2).boot.straps = x0.boot.straps ∧
      (f x0 x1 x2).boot.revoked = x0.boot.revoked) :
    (doField i f s c w).pending = s.pending ∧ (doField i f s c w).boot.straps = s.boot.straps ∧
    (doField i f s c w).boot.revoked = s.boot.revoked := by
  unfold doField
  try dsimp only
  repeat' split
  all_goals simp_all

@[simp] theorem restOfWord_keeps (s : State) (c : CtxId) (w : BitVec 160) :
    (restOfWord s c w).pending = s.pending ∧
    (restOfWord s c w).boot.straps = s.boot.straps ∧
    (restOfWord s c w).boot.revoked = s.boot.revoked := by
  unfold restOfWord
  have go : ∀ (i : Nat) (f : State → CtxId → BitVec 160 → State) (t : State),
      (∀ x y z, (f x y z).pending = x.pending ∧ (f x y z).boot.straps = x.boot.straps ∧
        (f x y z).boot.revoked = x.boot.revoked) →
      (t.pending = s.pending ∧ t.boot.straps = s.boot.straps ∧ t.boot.revoked = s.boot.revoked) →
      (doField i f t c w).pending = s.pending ∧ (doField i f t c w).boot.straps = s.boot.straps ∧
        (doField i f t c w).boot.revoked = s.boot.revoked := by
    intro i f t hf ht
    have := doField_keeps i f t c w hf
    simp_all
  dsimp only
  refine go _ _ _ doFlg_keeps (go _ _ _ doEvt_keeps (go _ _ _ doCnt_keeps (go _ _ _ doHdr_keeps
    (go _ _ _ doTmq_keeps (go _ _ _ doBpm_keeps (go _ _ _ doCip_keeps (go _ _ _ doTbl_keeps (go _ _ _ ?_
      (go _ _ _ doAlu_keeps ⟨rfl, rfl, rfl⟩)))))))))
  intro x y z
  exact doMem_keeps ..

theorem fieldStep_keeps (i : Nat) (has : BitVec 160 → Bool) (f : State → CtxId → BitVec 160 → State) (c : CtxId) (s : State)
    (h : ∀ x y z, (f x y z).pending = x.pending ∧ (f x y z).boot.straps = x.boot.straps ∧
      (f x y z).boot.revoked = x.boot.revoked) :
    (fieldStep i has f c s).pending = s.pending ∧
    (fieldStep i has f c s).boot.straps = s.boot.straps ∧
    (fieldStep i has f c s).boot.revoked = s.boot.revoked := by
  unfold fieldStep
  dsimp only
  split
  · simp
  · split
    · have h1 := doField_keeps i f (doField 0 doAlu (beginWord s c).1 c (wordOf s c)) c (wordOf s c) h
      have h2 := doField_keeps 0 doAlu (beginWord s c).1 c (wordOf s c) doAlu_keeps
      simp_all
    · simp

@[simp] theorem deliverUnit_keeps (s : State) (c : CtxId) (r : UnitRes) :
    (deliverUnit s c r).pending = s.pending ∧ (deliverUnit s c r).boot.straps = s.boot.straps ∧
    (deliverUnit s c r).boot.revoked = s.boot.revoked := by
  unfold deliverUnit
  try dsimp only
  repeat' split
  all_goals simp

theorem execUnitCompletion_keeps (c : CtxId) (u : EngUnit) (s : State) :
    ∃ z, execUnitCompletion c u s = .next z ∧ z.pending = s.pending ∧ z.boot.straps = s.boot.straps ∧
    z.boot.revoked = s.boot.revoked := by
  unfold execUnitCompletion
  try dsimp only
  repeat' split
  all_goals refine ⟨_, rfl, ?_⟩
  all_goals simp

theorem execAluOperation_keeps (c : CtxId) (s : State) :
    ∃ z, execAluOperation c s = .next z ∧ z.pending = s.pending ∧ z.boot.straps = s.boot.straps ∧
    z.boot.revoked = s.boot.revoked := by
  unfold execAluOperation
  try dsimp only
  repeat' split
  all_goals first | (refine ⟨_, rfl, ?_⟩; simp; done) | (refine ⟨_, rfl, ?_⟩; (first | apply fieldStep_keeps); intros; (try dsimp only); (repeat' split) <;> simp_all)

theorem execScratchRead_keeps (c : CtxId) (s : State) :
    ∃ z, execScratchRead c s = .next z ∧ z.pending = s.pending ∧ z.boot.straps = s.boot.straps ∧
    z.boot.revoked = s.boot.revoked := by
  unfold execScratchRead
  try dsimp only
  repeat' split
  all_goals first | (refine ⟨_, rfl, ?_⟩; simp; done) | (refine ⟨_, rfl, ?_⟩; (first | apply fieldStep_keeps); intros; (try dsimp only); (repeat' split) <;> simp_all)

theorem execScratchWrite_keeps (c : CtxId) (conflict : Bool) (s : State) :
    ∃ z, execScratchWrite c conflict s = .next z ∧ z.pending = s.pending ∧ z.boot.straps = s.boot.straps ∧
    z.boot.revoked = s.boot.revoked := by
  unfold execScratchWrite
  try dsimp only
  repeat' split
  all_goals first | (refine ⟨_, rfl, ?_⟩; simp; done) | (refine ⟨_, rfl, ?_⟩; (first | apply fieldStep_keeps); intros; (try dsimp only); (repeat' split) <;> simp_all)

theorem execScratchFetchAdd_keeps (c : CtxId) (s : State) :
    ∃ z, execScratchFetchAdd c s = .next z ∧ z.pending = s.pending ∧ z.boot.straps = s.boot.straps ∧
    z.boot.revoked = s.boot.revoked := by
  unfold execScratchFetchAdd
  try dsimp only
  repeat' split
  all_goals first | (refine ⟨_, rfl, ?_⟩; simp; done) | (refine ⟨_, rfl, ?_⟩; (first | apply fieldStep_keeps); intros; (try dsimp only); (repeat' split) <;> simp_all)

theorem execTblLegendMatch_keeps (c : CtxId) (s : State) :
    ∃ z, execTblLegendMatch c s = .next z ∧ z.pending = s.pending ∧ z.boot.straps = s.boot.straps ∧
    z.boot.revoked = s.boot.revoked := by
  unfold execTblLegendMatch
  try dsimp only
  repeat' split
  all_goals first | (refine ⟨_, rfl, ?_⟩; simp; done) | (refine ⟨_, rfl, ?_⟩; (first | apply fieldStep_keeps); intros; (try dsimp only); (repeat' split) <;> simp_all)

theorem execTblGztLookup_keeps (c : CtxId) (s : State) :
    ∃ z, execTblGztLookup c s = .next z ∧ z.pending = s.pending ∧ z.boot.straps = s.boot.straps ∧
    z.boot.revoked = s.boot.revoked := by
  unfold execTblGztLookup
  try dsimp only
  repeat' split
  all_goals first | (refine ⟨_, rfl, ?_⟩; simp; done) | (refine ⟨_, rfl, ?_⟩; (first | apply fieldStep_keeps); intros; (try dsimp only); (repeat' split) <;> simp_all)

theorem execTblGztLearn_keeps (c : CtxId) (s : State) :
    ∃ z, execTblGztLearn c s = .next z ∧ z.pending = s.pending ∧ z.boot.straps = s.boot.straps ∧
    z.boot.revoked = s.boot.revoked := by
  unfold execTblGztLearn
  try dsimp only
  repeat' split
  all_goals first | (refine ⟨_, rfl, ?_⟩; simp; done) | (refine ⟨_, rfl, ?_⟩; (first | apply fieldStep_keeps); intros; (try dsimp only); (repeat' split) <;> simp_all)

theorem execTblGztRefresh_keeps (c : CtxId) (s : State) :
    ∃ z, execTblGztRefresh c s = .next z ∧ z.pending = s.pending ∧ z.boot.straps = s.boot.straps ∧
    z.boot.revoked = s.boot.revoked := by
  unfold execTblGztRefresh
  try dsimp only
  repeat' split
  all_goals first | (refine ⟨_, rfl, ?_⟩; simp; done) | (refine ⟨_, rfl, ?_⟩; (first | apply fieldStep_keeps); intros; (try dsimp only); (repeat' split) <;> simp_all)

theorem execTblGztDelete_keeps (c : CtxId) (s : State) :
    ∃ z, execTblGztDelete c s = .next z ∧ z.pending = s.pending ∧ z.boot.straps = s.boot.straps ∧
    z.boot.revoked = s.boot.revoked := by
  unfold execTblGztDelete
  try dsimp only
  repeat' split
  all_goals first | (refine ⟨_, rfl, ?_⟩; simp; done) | (refine ⟨_, rfl, ?_⟩; (first | apply fieldStep_keeps); intros; (try dsimp only); (repeat' split) <;> simp_all)

theorem execTblStateRead_keeps (c : CtxId) (s : State) :
    ∃ z, execTblStateRead c s = .next z ∧ z.pending = s.pending ∧ z.boot.straps = s.boot.straps ∧
    z.boot.revoked = s.boot.revoked := by
  unfold execTblStateRead
  try dsimp only
  repeat' split
  all_goals first | (refine ⟨_, rfl, ?_⟩; simp; done) | (refine ⟨_, rfl, ?_⟩; (first | apply fieldStep_keeps); intros; (try dsimp only); (repeat' split) <;> simp_all)

theorem execTblStateWrite_keeps (c : CtxId) (s : State) :
    ∃ z, execTblStateWrite c s = .next z ∧ z.pending = s.pending ∧ z.boot.straps = s.boot.straps ∧
    z.boot.revoked = s.boot.revoked := by
  unfold execTblStateWrite
  try dsimp only
  repeat' split
  all_goals first | (refine ⟨_, rfl, ?_⟩; simp; done) | (refine ⟨_, rfl, ?_⟩; (first | apply fieldStep_keeps); intros; (try dsimp only); (repeat' split) <;> simp_all)

theorem execCipCmac_keeps (c : CtxId) (s : State) :
    ∃ z, execCipCmac c s = .next z ∧ z.pending = s.pending ∧ z.boot.straps = s.boot.straps ∧ z.boot.revoked = s.boot.revoked := by
  unfold execCipCmac
  try dsimp only
  repeat' split
  all_goals first | (refine ⟨_, rfl, ?_⟩; simp; done) | (refine ⟨_, rfl, ?_⟩; (first | apply fieldStep_keeps); intros; (try dsimp only); (repeat' split) <;> simp_all)

theorem execCipCmacVerify_keeps (c : CtxId) (s : State) :
    ∃ z, execCipCmacVerify c s = .next z ∧ z.pending = s.pending ∧ z.boot.straps = s.boot.straps ∧
    z.boot.revoked = s.boot.revoked := by
  unfold execCipCmacVerify
  try dsimp only
  repeat' split
  all_goals first | (refine ⟨_, rfl, ?_⟩; simp; done) | (refine ⟨_, rfl, ?_⟩; (first | apply fieldStep_keeps); intros; (try dsimp only); (repeat' split) <;> simp_all)

theorem execCipKeyDerive_keeps (c : CtxId) (s : State) :
    ∃ z, execCipKeyDerive c s = .next z ∧ z.pending = s.pending ∧ z.boot.straps = s.boot.straps ∧
    z.boot.revoked = s.boot.revoked := by
  unfold execCipKeyDerive
  try dsimp only
  repeat' split
  all_goals first | (refine ⟨_, rfl, ?_⟩; simp; done) | (refine ⟨_, rfl, ?_⟩; (first | apply fieldStep_keeps); intros; (try dsimp only); (repeat' split) <;> simp_all)

theorem execCipRandom_keeps (c : CtxId) (s : State) :
    ∃ z, execCipRandom c s = .next z ∧ z.pending = s.pending ∧ z.boot.straps = s.boot.straps ∧ z.boot.revoked = s.boot.revoked := by
  unfold execCipRandom
  try dsimp only
  repeat' split
  all_goals first | (refine ⟨_, rfl, ?_⟩; simp; done) | (refine ⟨_, rfl, ?_⟩; (first | apply fieldStep_keeps); intros; (try dsimp only); (repeat' split) <;> simp_all)

theorem execCipKcv_keeps (c : CtxId) (s : State) :
    ∃ z, execCipKcv c s = .next z ∧ z.pending = s.pending ∧ z.boot.straps = s.boot.straps ∧ z.boot.revoked = s.boot.revoked := by
  unfold execCipKcv
  try dsimp only
  repeat' split
  all_goals first | (refine ⟨_, rfl, ?_⟩; simp; done) | (refine ⟨_, rfl, ?_⟩; (first | apply fieldStep_keeps); intros; (try dsimp only); (repeat' split) <;> simp_all)

theorem execCipStatus_keeps (c : CtxId) (s : State) :
    ∃ z, execCipStatus c s = .next z ∧ z.pending = s.pending ∧ z.boot.straps = s.boot.straps ∧ z.boot.revoked = s.boot.revoked := by
  unfold execCipStatus
  try dsimp only
  repeat' split
  all_goals first | (refine ⟨_, rfl, ?_⟩; simp; done) | (refine ⟨_, rfl, ?_⟩; (first | apply fieldStep_keeps); intros; (try dsimp only); (repeat' split) <;> simp_all)

theorem execCipInvalidate_keeps (c : CtxId) (s : State) :
    ∃ z, execCipInvalidate c s = .next z ∧ z.pending = s.pending ∧ z.boot.straps = s.boot.straps ∧
    z.boot.revoked = s.boot.revoked := by
  unfold execCipInvalidate
  try dsimp only
  repeat' split
  all_goals first | (refine ⟨_, rfl, ?_⟩; simp; done) | (refine ⟨_, rfl, ?_⟩; (first | apply fieldStep_keeps); intros; (try dsimp only); (repeat' split) <;> simp_all)

theorem execBpmAllocate_keeps (c : CtxId) (s : State) :
    ∃ z, execBpmAllocate c s = .next z ∧ z.pending = s.pending ∧ z.boot.straps = s.boot.straps ∧
    z.boot.revoked = s.boot.revoked := by
  unfold execBpmAllocate
  try dsimp only
  repeat' split
  all_goals first | (refine ⟨_, rfl, ?_⟩; simp; done) | (refine ⟨_, rfl, ?_⟩; (first | apply fieldStep_keeps); intros; (try dsimp only); (repeat' split) <;> simp_all)

theorem execBpmAllocateRepl_keeps (c : CtxId) (s : State) :
    ∃ z, execBpmAllocateRepl c s = .next z ∧ z.pending = s.pending ∧ z.boot.straps = s.boot.straps ∧
    z.boot.revoked = s.boot.revoked := by
  unfold execBpmAllocateRepl
  try dsimp only
  repeat' split
  all_goals first | (refine ⟨_, rfl, ?_⟩; simp; done) | (refine ⟨_, rfl, ?_⟩; (first | apply fieldStep_keeps); intros; (try dsimp only); (repeat' split) <;> simp_all)

theorem execBpmFree_keeps (c : CtxId) (s : State) :
    ∃ z, execBpmFree c s = .next z ∧ z.pending = s.pending ∧ z.boot.straps = s.boot.straps ∧ z.boot.revoked = s.boot.revoked := by
  unfold execBpmFree
  try dsimp only
  repeat' split
  all_goals first | (refine ⟨_, rfl, ?_⟩; simp; done) | (refine ⟨_, rfl, ?_⟩; (first | apply fieldStep_keeps); intros; (try dsimp only); (repeat' split) <;> simp_all)

theorem execBpmRefInc_keeps (c : CtxId) (s : State) :
    ∃ z, execBpmRefInc c s = .next z ∧ z.pending = s.pending ∧ z.boot.straps = s.boot.straps ∧ z.boot.revoked = s.boot.revoked := by
  unfold execBpmRefInc
  try dsimp only
  repeat' split
  all_goals first | (refine ⟨_, rfl, ?_⟩; simp; done) | (refine ⟨_, rfl, ?_⟩; (first | apply fieldStep_keeps); intros; (try dsimp only); (repeat' split) <;> simp_all)

theorem execBpmRefDec_keeps (c : CtxId) (s : State) :
    ∃ z, execBpmRefDec c s = .next z ∧ z.pending = s.pending ∧ z.boot.straps = s.boot.straps ∧ z.boot.revoked = s.boot.revoked := by
  unfold execBpmRefDec
  try dsimp only
  repeat' split
  all_goals first | (refine ⟨_, rfl, ?_⟩; simp; done) | (refine ⟨_, rfl, ?_⟩; (first | apply fieldStep_keeps); intros; (try dsimp only); (repeat' split) <;> simp_all)

theorem execBpmPassOwnership_keeps (c : CtxId) (s : State) :
    ∃ z, execBpmPassOwnership c s = .next z ∧ z.pending = s.pending ∧ z.boot.straps = s.boot.straps ∧
    z.boot.revoked = s.boot.revoked := by
  unfold execBpmPassOwnership
  try dsimp only
  repeat' split
  all_goals first | (refine ⟨_, rfl, ?_⟩; simp; done) | (refine ⟨_, rfl, ?_⟩; (first | apply fieldStep_keeps); intros; (try dsimp only); (repeat' split) <;> simp_all)

theorem execTmqEnqueue_keeps (c : CtxId) (s : State) :
    ∃ z, execTmqEnqueue c s = .next z ∧ z.pending = s.pending ∧ z.boot.straps = s.boot.straps ∧ z.boot.revoked = s.boot.revoked := by
  unfold execTmqEnqueue
  try dsimp only
  repeat' split
  all_goals first | (refine ⟨_, rfl, ?_⟩; simp; done) | (refine ⟨_, rfl, ?_⟩; (first | apply fieldStep_keeps); intros; (try dsimp only); (repeat' split) <;> simp_all)

theorem execTmqEnqueueReplica_keeps (c : CtxId) (s : State) :
    ∃ z, execTmqEnqueueReplica c s = .next z ∧ z.pending = s.pending ∧ z.boot.straps = s.boot.straps ∧
    z.boot.revoked = s.boot.revoked := by
  unfold execTmqEnqueueReplica
  try dsimp only
  repeat' split
  all_goals first | (refine ⟨_, rfl, ?_⟩; simp; done) | (refine ⟨_, rfl, ?_⟩; (first | apply fieldStep_keeps); intros; (try dsimp only); (repeat' split) <;> simp_all)

theorem execTmqReadLevel_keeps (c : CtxId) (s : State) :
    ∃ z, execTmqReadLevel c s = .next z ∧ z.pending = s.pending ∧ z.boot.straps = s.boot.straps ∧
    z.boot.revoked = s.boot.revoked := by
  unfold execTmqReadLevel
  try dsimp only
  repeat' split
  all_goals first | (refine ⟨_, rfl, ?_⟩; simp; done) | (refine ⟨_, rfl, ?_⟩; (first | apply fieldStep_keeps); intros; (try dsimp only); (repeat' split) <;> simp_all)

theorem execTmqReadBpLevel_keeps (c : CtxId) (s : State) :
    ∃ z, execTmqReadBpLevel c s = .next z ∧ z.pending = s.pending ∧ z.boot.straps = s.boot.straps ∧
    z.boot.revoked = s.boot.revoked := by
  unfold execTmqReadBpLevel
  try dsimp only
  repeat' split
  all_goals first | (refine ⟨_, rfl, ?_⟩; simp; done) | (refine ⟨_, rfl, ?_⟩; (first | apply fieldStep_keeps); intros; (try dsimp only); (repeat' split) <;> simp_all)

theorem execTmqDequeue_keeps (c : CtxId) (s : State) :
    ∃ z, execTmqDequeue c s = .next z ∧ z.pending = s.pending ∧ z.boot.straps = s.boot.straps ∧ z.boot.revoked = s.boot.revoked := by
  unfold execTmqDequeue
  try dsimp only
  repeat' split
  all_goals first | (refine ⟨_, rfl, ?_⟩; simp; done) | (refine ⟨_, rfl, ?_⟩; (first | apply fieldStep_keeps); intros; (try dsimp only); (repeat' split) <;> simp_all)

theorem execHdrReplace_keeps (c : CtxId) (s : State) :
    ∃ z, execHdrReplace c s = .next z ∧ z.pending = s.pending ∧ z.boot.straps = s.boot.straps ∧ z.boot.revoked = s.boot.revoked := by
  unfold execHdrReplace
  try dsimp only
  repeat' split
  all_goals first | (refine ⟨_, rfl, ?_⟩; simp; done) | (refine ⟨_, rfl, ?_⟩; (first | apply fieldStep_keeps); intros; (try dsimp only); (repeat' split) <;> simp_all)

theorem execHdrInsert_keeps (c : CtxId) (s : State) :
    ∃ z, execHdrInsert c s = .next z ∧ z.pending = s.pending ∧ z.boot.straps = s.boot.straps ∧ z.boot.revoked = s.boot.revoked := by
  unfold execHdrInsert
  try dsimp only
  repeat' split
  all_goals first | (refine ⟨_, rfl, ?_⟩; simp; done) | (refine ⟨_, rfl, ?_⟩; (first | apply fieldStep_keeps); intros; (try dsimp only); (repeat' split) <;> simp_all)

theorem execHdrRemove_keeps (c : CtxId) (s : State) :
    ∃ z, execHdrRemove c s = .next z ∧ z.pending = s.pending ∧ z.boot.straps = s.boot.straps ∧ z.boot.revoked = s.boot.revoked := by
  unfold execHdrRemove
  try dsimp only
  repeat' split
  all_goals first | (refine ⟨_, rfl, ?_⟩; simp; done) | (refine ⟨_, rfl, ?_⟩; (first | apply fieldStep_keeps); intros; (try dsimp only); (repeat' split) <;> simp_all)

theorem execHdrPushTag_keeps (c : CtxId) (s : State) :
    ∃ z, execHdrPushTag c s = .next z ∧ z.pending = s.pending ∧ z.boot.straps = s.boot.straps ∧ z.boot.revoked = s.boot.revoked := by
  unfold execHdrPushTag
  try dsimp only
  repeat' split
  all_goals first | (refine ⟨_, rfl, ?_⟩; simp; done) | (refine ⟨_, rfl, ?_⟩; (first | apply fieldStep_keeps); intros; (try dsimp only); (repeat' split) <;> simp_all)

theorem execHdrPopTag_keeps (c : CtxId) (s : State) :
    ∃ z, execHdrPopTag c s = .next z ∧ z.pending = s.pending ∧ z.boot.straps = s.boot.straps ∧ z.boot.revoked = s.boot.revoked := by
  unfold execHdrPopTag
  try dsimp only
  repeat' split
  all_goals first | (refine ⟨_, rfl, ?_⟩; simp; done) | (refine ⟨_, rfl, ?_⟩; (first | apply fieldStep_keeps); intros; (try dsimp only); (repeat' split) <;> simp_all)

theorem execHdrSetLength_keeps (c : CtxId) (s : State) :
    ∃ z, execHdrSetLength c s = .next z ∧ z.pending = s.pending ∧ z.boot.straps = s.boot.straps ∧
    z.boot.revoked = s.boot.revoked := by
  unfold execHdrSetLength
  try dsimp only
  repeat' split
  all_goals first | (refine ⟨_, rfl, ?_⟩; simp; done) | (refine ⟨_, rfl, ?_⟩; (first | apply fieldStep_keeps); intros; (try dsimp only); (repeat' split) <;> simp_all)

theorem execCounterBump_keeps (c : CtxId) (s : State) :
    ∃ z, execCounterBump c s = .next z ∧ z.pending = s.pending ∧ z.boot.straps = s.boot.straps ∧
    z.boot.revoked = s.boot.revoked := by
  unfold execCounterBump
  try dsimp only
  repeat' split
  all_goals first | (refine ⟨_, rfl, ?_⟩; simp; done) | (refine ⟨_, rfl, ?_⟩; (first | apply fieldStep_keeps); intros; (try dsimp only); (repeat' split) <;> simp_all)

theorem execMicrocodeEvent_keeps (c : CtxId) (s : State) :
    ∃ z, execMicrocodeEvent c s = .next z ∧ z.pending = s.pending ∧ z.boot.straps = s.boot.straps ∧
    z.boot.revoked = s.boot.revoked := by
  unfold execMicrocodeEvent
  try dsimp only
  repeat' split
  all_goals first | (refine ⟨_, rfl, ?_⟩; simp; done) | (refine ⟨_, rfl, ?_⟩; (first | apply fieldStep_keeps); intros; (try dsimp only); (repeat' split) <;> simp_all)

theorem execFlagSet_keeps (c : CtxId) (s : State) :
    ∃ z, execFlagSet c s = .next z ∧ z.pending = s.pending ∧ z.boot.straps = s.boot.straps ∧ z.boot.revoked = s.boot.revoked := by
  unfold execFlagSet
  try dsimp only
  repeat' split
  all_goals first | (refine ⟨_, rfl, ?_⟩; simp; done) | (refine ⟨_, rfl, ?_⟩; (first | apply fieldStep_keeps); intros; (try dsimp only); (repeat' split) <;> simp_all)

theorem execFlagClear_keeps (c : CtxId) (s : State) :
    ∃ z, execFlagClear c s = .next z ∧ z.pending = s.pending ∧ z.boot.straps = s.boot.straps ∧ z.boot.revoked = s.boot.revoked := by
  unfold execFlagClear
  try dsimp only
  repeat' split
  all_goals first | (refine ⟨_, rfl, ?_⟩; simp; done) | (refine ⟨_, rfl, ?_⟩; (first | apply fieldStep_keeps); intros; (try dsimp only); (repeat' split) <;> simp_all)

theorem execFlagToggle_keeps (c : CtxId) (s : State) :
    ∃ z, execFlagToggle c s = .next z ∧ z.pending = s.pending ∧ z.boot.straps = s.boot.straps ∧ z.boot.revoked = s.boot.revoked := by
  unfold execFlagToggle
  try dsimp only
  repeat' split
  all_goals first | (refine ⟨_, rfl, ?_⟩; simp; done) | (refine ⟨_, rfl, ?_⟩; (first | apply fieldStep_keeps); intros; (try dsimp only); (repeat' split) <;> simp_all)

end Sys2Proof.Machine
end

