-- ==== Sys2Proof/Laws/KeepEngine.lean ====
section
/-! SUPPORT. What each operation of Machine/Engine.lean leaves alone. -/

namespace Sys2Proof.Machine

@[simp] theorem wordDone_keeps (s : State) (c : CtxId) (w : BitVec 160) :
    (wordDone s c w).pending = s.pending ∧ (wordDone s c w).boot.straps = s.boot.straps ∧
    (wordDone s c w).boot.revoked = s.boot.revoked := by
  unfold wordDone
  try dsimp only
  repeat' split
  all_goals simp

@[simp] theorem goTo_keeps (s : State) (c : CtxId) (w : BitVec 160) (next : Nat) :
    (goTo s c w next).pending = s.pending ∧ (goTo s c w next).boot.straps = s.boot.straps ∧
    (goTo s c w next).boot.revoked = s.boot.revoked := by
  unfold goTo
  try dsimp only
  repeat' split
  all_goals simp

@[simp] theorem seenConflict_keeps (s : State) (c : CtxId) :
    (seenConflict s c).pending = s.pending ∧ (seenConflict s c).boot.straps = s.boot.straps ∧
    (seenConflict s c).boot.revoked = s.boot.revoked := by
  unfold seenConflict
  try dsimp only
  repeat' split
  all_goals simp

theorem seqStep_keeps (code : Nat) (next : State → CtxId → BitVec 160 → State) (c : CtxId) (s : State)
    (h : ∀ x0 x1 x2, (next x0 x1 x2).pending = x0.pending ∧
      (next x0 x1 x2).boot.straps = x0.boot.straps ∧
      (next x0 x1 x2).boot.revoked = x0.boot.revoked) :
    (seqStep code next c s).pending = s.pending ∧ (seqStep code next c s).boot.straps = s.boot.straps ∧
    (seqStep code next c s).boot.revoked = s.boot.revoked := by
  unfold seqStep
  try dsimp only
  repeat' split
  all_goals simp_all

theorem execSeqGo_keeps (c : CtxId) (s : State) :
    ∃ z, execSeqGo c s = .next z ∧ z.pending = s.pending ∧ z.boot.straps = s.boot.straps ∧ z.boot.revoked = s.boot.revoked := by
  unfold execSeqGo
  try dsimp only
  repeat' split
  all_goals first | (refine ⟨_, rfl, ?_⟩; simp; done) | (refine ⟨_, rfl, ?_⟩; (first | apply seqStep_keeps); intros; (try dsimp only); (repeat' split) <;> simp_all)

theorem execSeqWait_keeps (c : CtxId) (s : State) :
    ∃ z, execSeqWait c s = .next z ∧ z.pending = s.pending ∧ z.boot.straps = s.boot.straps ∧ z.boot.revoked = s.boot.revoked := by
  unfold execSeqWait
  try dsimp only
  repeat' split
  all_goals first | (refine ⟨_, rfl, ?_⟩; simp; done) | (refine ⟨_, rfl, ?_⟩; (first | apply seqStep_keeps); intros; (try dsimp only); (repeat' split) <;> simp_all)

theorem execSeqBr_keeps (c : CtxId) (s : State) :
    ∃ z, execSeqBr c s = .next z ∧ z.pending = s.pending ∧ z.boot.straps = s.boot.straps ∧ z.boot.revoked = s.boot.revoked := by
  unfold execSeqBr
  try dsimp only
  repeat' split
  all_goals first | (refine ⟨_, rfl, ?_⟩; simp; done) | (refine ⟨_, rfl, ?_⟩; (first | apply seqStep_keeps); intros; (try dsimp only); (repeat' split) <;> simp_all)

theorem execSeqCall_keeps (c : CtxId) (s : State) :
    ∃ z, execSeqCall c s = .next z ∧ z.pending = s.pending ∧ z.boot.straps = s.boot.straps ∧ z.boot.revoked = s.boot.revoked := by
  unfold execSeqCall
  try dsimp only
  repeat' split
  all_goals first | (refine ⟨_, rfl, ?_⟩; simp; done) | (refine ⟨_, rfl, ?_⟩; (first | apply seqStep_keeps); intros; (try dsimp only); (repeat' split) <;> simp_all)

theorem execSeqRet_keeps (c : CtxId) (s : State) :
    ∃ z, execSeqRet c s = .next z ∧ z.pending = s.pending ∧ z.boot.straps = s.boot.straps ∧ z.boot.revoked = s.boot.revoked := by
  unfold execSeqRet
  try dsimp only
  repeat' split
  all_goals first | (refine ⟨_, rfl, ?_⟩; simp; done) | (refine ⟨_, rfl, ?_⟩; (first | apply seqStep_keeps); intros; (try dsimp only); (repeat' split) <;> simp_all)

theorem execSeqMway_keeps (c : CtxId) (s : State) :
    ∃ z, execSeqMway c s = .next z ∧ z.pending = s.pending ∧ z.boot.straps = s.boot.straps ∧ z.boot.revoked = s.boot.revoked := by
  unfold execSeqMway
  try dsimp only
  repeat' split
  all_goals first | (refine ⟨_, rfl, ?_⟩; simp; done) | (refine ⟨_, rfl, ?_⟩; (first | apply seqStep_keeps); intros; (try dsimp only); (repeat' split) <;> simp_all)

theorem execSeqLoop_keeps (c : CtxId) (s : State) :
    ∃ z, execSeqLoop c s = .next z ∧ z.pending = s.pending ∧ z.boot.straps = s.boot.straps ∧ z.boot.revoked = s.boot.revoked := by
  unfold execSeqLoop
  refine ⟨_, rfl, ?_⟩
  apply seqStep_keeps
  intro x y w
  dsimp only
  simp only [goTo_keeps, setCtx_keeps, and_self]

theorem execSeqTrap_keeps (c : CtxId) (s : State) :
    ∃ z, execSeqTrap c s = .next z ∧ z.pending = s.pending ∧ z.boot.straps = s.boot.straps ∧ z.boot.revoked = s.boot.revoked := by
  unfold execSeqTrap
  try dsimp only
  repeat' split
  all_goals first | (refine ⟨_, rfl, ?_⟩; simp; done) | (refine ⟨_, rfl, ?_⟩; (first | apply seqStep_keeps); intros; (try dsimp only); (repeat' split) <;> simp_all)

theorem execWaitConditionMet_keeps (c : CtxId) (s : State) :
    ∃ z, execWaitConditionMet c s = .next z ∧ z.pending = s.pending ∧ z.boot.straps = s.boot.straps ∧
    z.boot.revoked = s.boot.revoked := by
  unfold execWaitConditionMet
  try dsimp only
  repeat' split
  all_goals refine ⟨_, rfl, ?_⟩
  all_goals simp

theorem execWaitTimeout_keeps (c : CtxId) (s : State) :
    ∃ z, execWaitTimeout c s = .next z ∧ z.pending = s.pending ∧ z.boot.straps = s.boot.straps ∧
    z.boot.revoked = s.boot.revoked := by
  unfold execWaitTimeout
  try dsimp only
  repeat' split
  all_goals refine ⟨_, rfl, ?_⟩
  all_goals simp

theorem execWatchdog_keeps (c : CtxId) (s : State) :
    ∃ z, execWatchdog c s = .next z ∧ z.pending = s.pending ∧ z.boot.straps = s.boot.straps ∧ z.boot.revoked = s.boot.revoked := by
  unfold execWatchdog
  try dsimp only
  repeat' split
  all_goals refine ⟨_, rfl, ?_⟩
  all_goals simp

theorem execRunOver_keeps (c : CtxId) (s : State) :
    ∃ z, execRunOver c s = .next z ∧ z.pending = s.pending ∧ z.boot.straps = s.boot.straps ∧ z.boot.revoked = s.boot.revoked := by
  unfold execRunOver
  try dsimp only
  repeat' split
  all_goals refine ⟨_, rfl, ?_⟩
  all_goals simp

@[simp] theorem freePacket_keeps (s : State) (p : Packet) (party : Nat) :
    (freePacket s p party).pending = s.pending ∧ (freePacket s p party).boot.straps = s.boot.straps ∧
    (freePacket s p party).boot.revoked = s.boot.revoked := by
  unfold freePacket
  try dsimp only
  repeat' split
  all_goals simp

@[simp] theorem forward_keeps (s : State) (p : Packet) (party : Nat) :
    (forward s p party).pending = s.pending ∧ (forward s p party).boot.straps = s.boot.straps ∧
    (forward s p party).boot.revoked = s.boot.revoked := by
  unfold forward
  try dsimp only
  repeat' split
  all_goals simp

@[simp] theorem punt_keeps (s : State) (p : Packet) (party : Nat) :
    (punt s p party).pending = s.pending ∧ (punt s p party).boot.straps = s.boot.straps ∧
    (punt s p party).boot.revoked = s.boot.revoked := by
  unfold punt
  try dsimp only
  repeat' split
  all_goals simp

@[simp] theorem releaseVerdict_keeps (s : State) (b src seq : Nat) (v : Verdict) :
    (releaseVerdict s b src seq v).pending = s.pending ∧ (releaseVerdict s b src seq v).boot.straps = s.boot.straps ∧
    (releaseVerdict s b src seq v).boot.revoked = s.boot.revoked := by
  unfold releaseVerdict
  try dsimp only
  repeat' split
  all_goals simp

theorem execReorderRelease_keeps (src : Fin 17440) (s : State) :
    ∃ z, execReorderRelease src s = .next z ∧ z.pending = s.pending ∧ z.boot.straps = s.boot.straps ∧
    z.boot.revoked = s.boot.revoked := by
  unfold execReorderRelease
  try dsimp only
  repeat' split
  all_goals refine ⟨_, rfl, ?_⟩
  all_goals simp

@[simp] theorem fill_keeps (s : State) (p : Packet) (v : Verdict) :
    (fill s p v).pending = s.pending ∧ (fill s p v).boot.straps = s.boot.straps ∧
    (fill s p v).boot.revoked = s.boot.revoked := by
  unfold fill
  try dsimp only
  repeat' split
  all_goals simp

@[simp] theorem dropWaits_keeps (s : State) (c : CtxId) :
    (dropWaits s c).pending = s.pending ∧ (dropWaits s c).boot.straps = s.boot.straps ∧
    (dropWaits s c).boot.revoked = s.boot.revoked := by
  unfold dropWaits
  try dsimp only
  repeat' split
  all_goals simp

@[simp] theorem endDispatch_keeps (s : State) (c : CtxId) (e : Ending) :
    (endDispatch s c e).pending = s.pending ∧ (endDispatch s c e).boot.straps = s.boot.straps ∧
    (endDispatch s c e).boot.revoked = s.boot.revoked := by
  unfold endDispatch
  try dsimp only
  repeat' split
  all_goals simp

theorem execSeqDone_keeps (c : CtxId) (s : State) :
    ∃ z, execSeqDone c s = .next z ∧ z.pending = s.pending ∧ z.boot.straps = s.boot.straps ∧ z.boot.revoked = s.boot.revoked := by
  unfold execSeqDone
  try dsimp only
  repeat' split
  all_goals first | (refine ⟨_, rfl, ?_⟩; simp; done) | (refine ⟨_, rfl, ?_⟩; (first | apply seqStep_keeps); intros; (try dsimp only); (repeat' split) <;> simp_all)

theorem execSeqDrop_keeps (c : CtxId) (s : State) :
    ∃ z, execSeqDrop c s = .next z ∧ z.pending = s.pending ∧ z.boot.straps = s.boot.straps ∧ z.boot.revoked = s.boot.revoked := by
  unfold execSeqDrop
  try dsimp only
  repeat' split
  all_goals first | (refine ⟨_, rfl, ?_⟩; simp; done) | (refine ⟨_, rfl, ?_⟩; (first | apply seqStep_keeps); intros; (try dsimp only); (repeat' split) <;> simp_all)

theorem execSeqPunt_keeps (c : CtxId) (s : State) :
    ∃ z, execSeqPunt c s = .next z ∧ z.pending = s.pending ∧ z.boot.straps = s.boot.straps ∧ z.boot.revoked = s.boot.revoked := by
  unfold execSeqPunt
  try dsimp only
  repeat' split
  all_goals first | (refine ⟨_, rfl, ?_⟩; simp; done) | (refine ⟨_, rfl, ?_⟩; (first | apply seqStep_keeps); intros; (try dsimp only); (repeat' split) <;> simp_all)

@[simp] theorem takeArrival_keeps (s : State) (src len : Nat) (bytes : List Byte) :
    (takeArrival s src len bytes).1.pending = s.pending ∧ (takeArrival s src len bytes).1.boot.straps = s.boot.straps ∧
    (takeArrival s src len bytes).1.boot.revoked = s.boot.revoked := by
  unfold takeArrival
  try dsimp only
  repeat' split
  all_goals simp

@[simp] theorem countParse_keeps (s : State) (r : Parse) :
    (countParse s r).pending = s.pending ∧ (countParse s r).boot.straps = s.boot.straps ∧
    (countParse s r).boot.revoked = s.boot.revoked := by
  unfold countParse
  try dsimp only
  repeat' split
  all_goals simp

@[simp] theorem landingDrop_keeps (s : State) (src : Nat) :
    (landingDrop s src).pending = s.pending ∧ (landingDrop s src).boot.straps = s.boot.straps ∧
    (landingDrop s src).boot.revoked = s.boot.revoked := by
  unfold landingDrop
  try dsimp only
  repeat' split
  all_goals simp

@[simp] theorem land_keeps (s : State) (src : Nat) (d : Dir) (len : Nat) (bytes : List Byte) (h : Nat) (a : Arrival) :
    (land s src d len bytes h a).pending = s.pending ∧ (land s src d len bytes h a).boot.straps = s.boot.straps ∧
    (land s src d len bytes h a).boot.revoked = s.boot.revoked := by
  unfold land
  try dsimp only
  repeat' split
  all_goals simp

theorem execPacketLanding_keeps (src : Fin 17440) (dir : Dir) (len : Nat) (bytes : List Byte) (s : State) :
    ∃ z, execPacketLanding src dir len bytes s = .next z ∧ z.pending = s.pending ∧ z.boot.straps = s.boot.straps ∧ z.boot.revoked = s.boot.revoked := by
  unfold execPacketLanding
  split
  · exact ⟨_, rfl, rfl, rfl, rfl⟩
  · have hk := takeArrival_keeps s src len bytes
    dsimp only
    split
    · refine ⟨_, rfl, ?_⟩
      simp [hk]
    · split
      · rename_i h
        have := askBytes_keeps _ _ _ _ _ _ h
        refine ⟨_, rfl, ?_⟩
        simp_all
      · split <;> refine ⟨_, rfl, ?_⟩ <;> simp [hk]

theorem elim_keeps (s : State) (x : Option State) (f : State → State)
    (hx : ∀ t, x = some t → t.pending = s.pending ∧ t.boot.straps = s.boot.straps ∧ t.boot.revoked = s.boot.revoked)
    (hf : ∀ t, (f t).pending = t.pending ∧ (f t).boot.straps = t.boot.straps ∧ (f t).boot.revoked = t.boot.revoked) :
    (x.elim s f).pending = s.pending ∧ (x.elim s f).boot.straps = s.boot.straps ∧ (x.elim s f).boot.revoked = s.boot.revoked := by
  cases x with
  | none => simp
  | some t => simpa [hf] using hx t rfl

@[simp] theorem grantWait_keeps (s : State) (pool : Nat) (pre : List WaitReq) (w : WaitReq) (post : List WaitReq) :
    (grantWait s pool pre w post).pending = s.pending ∧ (grantWait s pool pre w post).boot.straps = s.boot.straps ∧
    (grantWait s pool pre w post).boot.revoked = s.boot.revoked := by
  unfold grantWait
  dsimp only
  split
  · refine elim_keeps s _ _ (fun t h => ?_) (by simp)
    cases hm : (‹UplinkIn›).macsec with
    | none => rw [hm] at h; cases h; simp
    | some m =>
      rw [hm] at h
      simpa using quarantine_keeps _ _ _ _ _ _ h
  · split
    · simp
    · split
      · rename_i h
        simpa using allocBytes_keeps _ _ _ _ _ _ h
      · simp
  · refine elim_keeps s _ _ (fun t h => ?_) (by simp)
    simpa using holdFragment_keeps _ _ _ _ _ h
  · split
    · rename_i h
      simpa using allocBytes_keeps _ _ _ _ _ _ h
    · simp
  · split
    · simp
    · rename_i he
      have := (Prod.mk.inj he).1 ▸ enqueue_keeps (setWaitQ s pool pre) _ _ _ _ _
      simpa using this
  · refine elim_keeps s _ _ (fun t h => ?_) (by simp)
    simpa using prefetch_keeps _ _ _ h
  · refine elim_keeps s _ _ (fun t h => ?_) (by simp)
    simpa using migrateOne_keeps _ _ _ h

theorem execBufferWaitGrant_keeps (pool : Fin 4) (s : State) :
    ∃ z, execBufferWaitGrant pool s = .next z ∧ z.pending = s.pending ∧ z.boot.straps = s.boot.straps ∧
    z.boot.revoked = s.boot.revoked := by
  unfold execBufferWaitGrant
  try dsimp only
  repeat' split
  all_goals refine ⟨_, rfl, ?_⟩
  all_goals simp

@[simp] theorem loadPacket_keeps (s : State) (c : CtxId) (p : Packet) :
    (loadPacket s c p).pending = s.pending ∧ (loadPacket s c p).boot.straps = s.boot.straps ∧
    (loadPacket s c p).boot.revoked = s.boot.revoked := by
  unfold loadPacket
  try dsimp only
  repeat' split
  all_goals simp

@[simp] theorem dispatch_keeps (s : State) (c : CtxId) (p : Packet) :
    (dispatch s c p).pending = s.pending ∧ (dispatch s c p).boot.straps = s.boot.straps ∧
    (dispatch s c p).boot.revoked = s.boot.revoked := by
  unfold dispatch
  try dsimp only
  repeat' split
  all_goals simp

theorem execPacketDispatch_keeps (s : State) :
    ∃ z, execPacketDispatch s = .next z ∧ z.pending = s.pending ∧ z.boot.straps = s.boot.straps ∧
    z.boot.revoked = s.boot.revoked := by
  unfold execPacketDispatch
  try dsimp only
  repeat' split
  all_goals refine ⟨_, rfl, ?_⟩
  all_goals simp

end Sys2Proof.Machine
end

