-- ==== Sys2Proof/Laws/KeepEngineCmd.lean ====
section
/-! SUPPORT. What each operation of Machine/EngineCmd.lean leaves alone. -/

namespace Sys2Proof.Machine

@[simp] theorem setBank_keeps (s : State) (k : Nat) (b : Bool) (t : Tbl (BitVec 160)) :
    (setBank s k b t).pending = s.pending ∧ (setBank s k b t).boot.straps = s.boot.straps ∧
    (setBank s k b t).boot.revoked = s.boot.revoked := by
  unfold setBank
  try dsimp only
  repeat' split
  all_goals simp

@[simp] theorem rejectLoad_keeps (s : State) (k : Nat) :
    (rejectLoad s k).pending = s.pending ∧ (rejectLoad s k).boot.straps = s.boot.straps ∧
    (rejectLoad s k).boot.revoked = s.boot.revoked := by
  unfold rejectLoad
  try dsimp only
  repeat' split
  all_goals simp

theorem execUcsLoadWord_keeps (o : Origin) (k : Fin 16) (data : Word) (s : State) :
    ∃ z, execUcsLoadWord o k data s = .next z ∧ z.pending = s.pending ∧ z.boot.straps = s.boot.straps ∧
    z.boot.revoked = s.boot.revoked := by
  unfold execUcsLoadWord
  try dsimp only
  repeat' split
  all_goals first | (refine ⟨_, rfl, ?_⟩; simp; done) | (refine ⟨_, rfl, ?_⟩; (first | apply ownWrite_keeps); intros; (try dsimp only); (repeat' split) <;> simp_all)

theorem execUcsReadWord_keeps (o : Origin) (k : Fin 16) (data : Word) (s : State) :
    ∃ z, execUcsReadWord o k data s = .next z ∧ z.pending = s.pending ∧ z.boot.straps = s.boot.straps ∧
    z.boot.revoked = s.boot.revoked := by
  unfold execUcsReadWord
  try dsimp only
  repeat' split
  all_goals first | (refine ⟨_, rfl, ?_⟩; simp; done) | (refine ⟨_, rfl, ?_⟩; (first | apply ownWrite_keeps); intros; (try dsimp only); (repeat' split) <;> simp_all)

theorem execSwapCmd_keeps (o : Origin) (k : Fin 16) (s : State) :
    ∃ z, execSwapCmd o k s = .next z ∧ z.pending = s.pending ∧ z.boot.straps = s.boot.straps ∧ z.boot.revoked = s.boot.revoked := by
  unfold execSwapCmd
  try dsimp only
  repeat' split
  all_goals first | (refine ⟨_, rfl, ?_⟩; simp; done) | (refine ⟨_, rfl, ?_⟩; (first | apply ownWrite_keeps); intros; (try dsimp only); (repeat' split) <;> simp_all)

theorem execSwapDone_keeps (k : Fin 16) (s : State) :
    ∃ z, execSwapDone k s = .next z ∧ z.pending = s.pending ∧ z.boot.straps = s.boot.straps ∧ z.boot.revoked = s.boot.revoked := by
  unfold execSwapDone
  try dsimp only
  repeat' split
  all_goals refine ⟨_, rfl, ?_⟩
  all_goals simp

@[simp] theorem drainFrom_keeps (s : State) (k e : Nat) :
    (drainFrom s k e).pending = s.pending ∧ (drainFrom s k e).boot.straps = s.boot.straps ∧
    (drainFrom s k e).boot.revoked = s.boot.revoked := by
  unfold drainFrom
  try dsimp only
  repeat' split
  all_goals simp

@[simp] theorem retire_keeps (s : State) (k e : Nat) :
    (retire s k e).pending = s.pending ∧ (retire s k e).boot.straps = s.boot.straps ∧
    (retire s k e).boot.revoked = s.boot.revoked := by
  unfold retire
  try dsimp only
  repeat' split
  all_goals simp

theorem execSpareRetire_keeps (o : Origin) (k : Fin 16) (e : Fin 32) (s : State) :
    ∃ z, execSpareRetire o k e s = .next z ∧ z.pending = s.pending ∧ z.boot.straps = s.boot.straps ∧
    z.boot.revoked = s.boot.revoked := by
  unfold execSpareRetire
  try dsimp only
  repeat' split
  all_goals first | (refine ⟨_, rfl, ?_⟩; simp; done) | (refine ⟨_, rfl, ?_⟩; (first | apply ownWrite_keeps); intros; (try dsimp only); (repeat' split) <;> simp_all)

@[simp] theorem reinstate_keeps (s : State) (k e : Nat) :
    (reinstate s k e).pending = s.pending ∧ (reinstate s k e).boot.straps = s.boot.straps ∧
    (reinstate s k e).boot.revoked = s.boot.revoked := by
  unfold reinstate
  try dsimp only
  repeat' split
  all_goals simp

theorem execSpareReinstate_keeps (o : Origin) (k : Fin 16) (e : Fin 32) (s : State) :
    ∃ z, execSpareReinstate o k e s = .next z ∧ z.pending = s.pending ∧ z.boot.straps = s.boot.straps ∧
    z.boot.revoked = s.boot.revoked := by
  unfold execSpareReinstate
  try dsimp only
  repeat' split
  all_goals first | (refine ⟨_, rfl, ?_⟩; simp; done) | (refine ⟨_, rfl, ?_⟩; (first | apply ownWrite_keeps); intros; (try dsimp only); (repeat' split) <;> simp_all)

theorem execEngineDrained_keeps (k : Fin 16) (e : Fin 33) (s : State) :
    ∃ z, execEngineDrained k e s = .next z ∧ z.pending = s.pending ∧ z.boot.straps = s.boot.straps ∧
    z.boot.revoked = s.boot.revoked := by
  unfold execEngineDrained
  try dsimp only
  repeat' split
  all_goals refine ⟨_, rfl, ?_⟩
  all_goals simp

theorem execEngineLost_keeps (k : Fin 16) (e : Fin 33) (s : State) :
    ∃ z, execEngineLost k e s = .next z ∧ z.pending = s.pending ∧ z.boot.straps = s.boot.straps ∧
    z.boot.revoked = s.boot.revoked := by
  unfold execEngineLost
  try dsimp only
  repeat' split
  all_goals refine ⟨_, rfl, ?_⟩
  all_goals simp

theorem execRoleMapWrite_keeps (o : Origin) (data : Word) (s : State) :
    ∃ z, execRoleMapWrite o data s = .next z ∧ z.pending = s.pending ∧ z.boot.straps = s.boot.straps ∧
    z.boot.revoked = s.boot.revoked := by
  unfold execRoleMapWrite
  try dsimp only
  repeat' split
  all_goals first | (refine ⟨_, rfl, ?_⟩; simp; done) | (refine ⟨_, rfl, ?_⟩; (first | apply ownWrite_keeps); intros; (try dsimp only); (repeat' split) <;> simp_all)

theorem execRoleChangeApply_keeps (s : State) :
    ∃ z, execRoleChangeApply s = .next z ∧ z.pending = s.pending ∧ z.boot.straps = s.boot.straps ∧
    z.boot.revoked = s.boot.revoked := by
  unfold execRoleChangeApply
  try dsimp only
  repeat' split
  all_goals refine ⟨_, rfl, ?_⟩
  all_goals simp

end Sys2Proof.Machine
end

