-- ==== Sys2Proof/Laws/KeepFrame.lean ====
section
/-! SUPPORT. What each operation of Machine/Frame.lean leaves alone. -/

namespace Sys2Proof.Machine

@[simp] theorem fireAction_keeps (s : State) (a : Action) :
    (fireAction s a).pending = s.pending ∧ (fireAction s a).boot.straps = s.boot.straps ∧
    (fireAction s a).boot.revoked = s.boot.revoked := by
  unfold fireAction
  try dsimp only
  repeat' split
  all_goals simp

theorem execTimedActionFire_keeps (i : Nat) (s : State) :
    ∃ z, execTimedActionFire i s = .next z ∧ z.pending = s.pending ∧ z.boot.straps = s.boot.straps ∧
    z.boot.revoked = s.boot.revoked := by
  unfold execTimedActionFire
  try dsimp only
  repeat' split
  all_goals refine ⟨_, rfl, ?_⟩
  all_goals simp

@[simp] theorem rangingSent_keeps (s : State) (p i : Nat) :
    (rangingSent s p i).pending = s.pending ∧ (rangingSent s p i).boot.straps = s.boot.straps ∧
    (rangingSent s p i).boot.revoked = s.boot.revoked := by
  unfold rangingSent
  try dsimp only
  repeat' split
  all_goals simp

@[simp] theorem deactSent_keeps (s : State) (p i : Nat) :
    (deactSent s p i).pending = s.pending ∧ (deactSent s p i).boot.straps = s.boot.straps ∧
    (deactSent s p i).boot.revoked = s.boot.revoked := by
  unfold deactSent
  try dsimp only
  repeat' split
  all_goals simp

@[simp] theorem ploamEffect_keeps (s : State) (p : Nat) (m : Ploam) :
    (ploamEffect s p m).pending = s.pending ∧ (ploamEffect s p m).boot.straps = s.boot.straps ∧
    (ploamEffect s p m).boot.revoked = s.boot.revoked := by
  unfold ploamEffect
  try dsimp only
  repeat' split
  all_goals simp

@[simp] theorem addSection_keeps (s : State) (p c : Nat) (m : Ploam) :
    (addSection s p c m).pending = s.pending ∧ (addSection s p c m).boot.straps = s.boot.straps ∧
    (addSection s p c m).boot.revoked = s.boot.revoked := by
  unfold addSection
  try dsimp only
  repeat' split
  all_goals simp

@[simp] theorem sendPloam_keeps (p c : Nat) (s0 : State) (m : Ploam) :
    (sendPloam p c s0 m).pending = s0.pending ∧ (sendPloam p c s0 m).boot.straps = s0.boot.straps ∧
    (sendPloam p c s0 m).boot.revoked = s0.boot.revoked := by
  unfold sendPloam
  try dsimp only
  repeat' split
  all_goals simp

@[simp] theorem sendPloams_keeps (s : State) (p c : Nat) :
    (sendPloams s p c).pending = s.pending ∧ (sendPloams s p c).boot.straps = s.boot.straps ∧
    (sendPloams s p c).boot.revoked = s.boot.revoked := by
  unfold sendPloams
  try dsimp only
  repeat' split
  all_goals simp

@[simp] theorem keyRaise_keeps (s : State) (u : Nat) (f : Flag) :
    (keyRaise s u f).pending = s.pending ∧ (keyRaise s u f).boot.straps = s.boot.straps ∧
    (keyRaise s u f).boot.revoked = s.boot.revoked := by
  unfold keyRaise
  try dsimp only
  repeat' split
  all_goals simp

@[simp] theorem putSlot_keeps (s : State) (u j : Nat) (k : KeySlot) (warn spent : Bool) :
    (putSlot s u j k warn spent).pending = s.pending ∧ (putSlot s u j k warn spent).boot.straps = s.boot.straps ∧
    (putSlot s u j k warn spent).boot.revoked = s.boot.revoked := by
  unfold putSlot
  try dsimp only
  repeat' split
  all_goals simp

@[simp] theorem useSlot_keeps (s : State) (u j m : Nat) :
    (useSlot s u j m).pending = s.pending ∧ (useSlot s u j m).boot.straps = s.boot.straps ∧
    (useSlot s u j m).boot.revoked = s.boot.revoked := by
  unfold useSlot
  try dsimp only
  repeat' split
  all_goals simp

@[simp] theorem countKey_keeps (s : State) (u : Nat) :
    (countKey s u).pending = s.pending ∧ (countKey s u).boot.straps = s.boot.straps ∧
    (countKey s u).boot.revoked = s.boot.revoked := by
  unfold countKey
  try dsimp only
  repeat' split
  all_goals simp

@[simp] theorem addFrag_keeps (s : State) (p c : Nat) (g : FragTx) :
    (addFrag s p c g).pending = s.pending ∧ (addFrag s p c g).boot.straps = s.boot.straps ∧
    (addFrag s p c g).boot.revoked = s.boot.revoked := by
  unfold addFrag
  try dsimp only
  repeat' split
  all_goals simp

@[simp] theorem sendPart_keeps (p c n : Nat) (s : State) (x : DsPart) (b : Nat) :
    (sendPart p c n s x b).1.pending = s.pending ∧
    (sendPart p c n s x b).1.boot.straps = s.boot.straps ∧
    (sendPart p c n s x b).1.boot.revoked = s.boot.revoked := by
  induction n generalizing s x b with
  | zero => simp [sendPart]
  | succ n ih =>
    simp only [sendPart]
    repeat' split
    all_goals simp [ih]

@[simp] theorem freePart_keeps (s : State) (p c : Nat) (x : DsPart) :
    (freePart s p c x).pending = s.pending ∧ (freePart s p c x).boot.straps = s.boot.straps ∧
    (freePart s p c x).boot.revoked = s.boot.revoked := by
  unfold freePart
  try dsimp only
  repeat' split
  all_goals simp

@[simp] theorem endPart_keeps (s : State) (p c : Nat) (x : DsPart) :
    (endPart s p c x).pending = s.pending ∧ (endPart s p c x).boot.straps = s.boot.straps ∧
    (endPart s p c x).boot.revoked = s.boot.revoked := by
  unfold endPart
  try dsimp only
  repeat' split
  all_goals simp

@[simp] theorem setRoom_keeps (s : State) (p c n : Nat) :
    (setRoom s p c n).pending = s.pending ∧ (setRoom s p c n).boot.straps = s.boot.straps ∧
    (setRoom s p c n).boot.revoked = s.boot.revoked := by
  unfold setRoom
  try dsimp only
  repeat' split
  all_goals simp

@[simp] theorem idleFill_keeps (s : State) (p c n : Nat) :
    (idleFill s p c n).pending = s.pending ∧ (idleFill s p c n).boot.straps = s.boot.straps ∧
    (idleFill s p c n).boot.revoked = s.boot.revoked := by
  unfold idleFill
  try dsimp only
  repeat' split
  all_goals simp

@[simp] theorem framePart_keeps (p c : Nat) (a : State × Nat) (x : DsPart) :
    (framePart p c a x).1.pending = a.1.pending ∧
    (framePart p c a x).1.boot.straps = a.1.boot.straps ∧
    (framePart p c a x).1.boot.revoked = a.1.boot.revoked := by
  unfold framePart
  have h := sendPart_keeps p c 8 a.1 x a.2
  split
  rename_i heq
  rw [heq] at h
  split <;> simp_all

@[simp] theorem continueParts_keeps (s : State) (p c b : Nat) :
    (continueParts s p c b).1.pending = s.pending ∧ (continueParts s p c b).1.boot.straps = s.boot.straps ∧
    (continueParts s p c b).1.boot.revoked = s.boot.revoked := by
  unfold continueParts
  try dsimp only
  repeat' split
  all_goals simp

@[simp] theorem pullBuf_keeps (s : State) (p c q h : Nat) :
    (pullBuf s p c q h).pending = s.pending ∧ (pullBuf s p c q h).boot.straps = s.boot.straps ∧
    (pullBuf s p c q h).boot.revoked = s.boot.revoked := by
  unfold pullBuf
  try dsimp only
  repeat' split
  all_goals simp

@[simp] theorem takeSdu_keeps (s : State) (p c u q : Nat) (f : QFrame) :
    (takeSdu s p c u q f).1.pending = s.pending ∧ (takeSdu s p c u q f).1.boot.straps = s.boot.straps ∧
    (takeSdu s p c u q f).1.boot.revoked = s.boot.revoked := by
  unfold takeSdu
  try dsimp only
  repeat' split
  all_goals simp

@[simp] theorem dropNoPort_keeps (s : State) (p c : Nat) (x : DsPart) :
    (dropNoPort s p c x).pending = s.pending ∧ (dropNoPort s p c x).boot.straps = s.boot.straps ∧
    (dropNoPort s p c x).boot.revoked = s.boot.revoked := by
  unfold dropNoPort
  try dsimp only
  repeat' split
  all_goals simp

@[simp] theorem servePull_keeps (s : State) (p c u q b : Nat) :
    (servePull s p c u q b).pending = s.pending ∧ (servePull s p c u q b).boot.straps = s.boot.straps ∧
    (servePull s p c u q b).boot.revoked = s.boot.revoked := by
  unfold servePull
  try dsimp only
  repeat' split
  all_goals simp

@[simp] theorem choose_keeps (s : State) (p c : Nat) :
    (choose s p c).1.pending = s.pending ∧ (choose s p c).1.boot.straps = s.boot.straps ∧
    (choose s p c).1.boot.revoked = s.boot.revoked := by
  unfold choose
  try dsimp only
  repeat' split
  all_goals simp

@[simp] theorem keepOffer_keeps (s : State) (p c : Nat) (x : Option (Nat × Nat)) :
    (keepOffer s p c x).pending = s.pending ∧ (keepOffer s p c x).boot.straps = s.boot.straps ∧
    (keepOffer s p c x).boot.revoked = s.boot.revoked := by
  unfold keepOffer
  try dsimp only
  repeat' split
  all_goals simp

@[simp] theorem emptyPull_keeps (s : State) (p c b : Nat) :
    (emptyPull s p c b).pending = s.pending ∧ (emptyPull s p c b).boot.straps = s.boot.straps ∧
    (emptyPull s p c b).boot.revoked = s.boot.revoked := by
  unfold emptyPull
  try dsimp only
  repeat' split
  all_goals simp

@[simp] theorem framePull_keeps (s : State) (x : Pull) :
    (framePull s x).pending = s.pending ∧ (framePull s x).boot.straps = s.boot.straps ∧
    (framePull s x).boot.revoked = s.boot.revoked := by
  unfold framePull
  try dsimp only
  repeat' split
  all_goals simp

@[simp] theorem runPulls_keeps (n : Nat) (l : List Pull) (s : State) :
    (runPulls n l s).pending = s.pending ∧ (runPulls n l s).boot.straps = s.boot.straps ∧
    (runPulls n l s).boot.revoked = s.boot.revoked := by
  induction n generalizing l s with
  | zero => simp [runPulls]
  | succ n ih =>
    cases l with
    | nil => simp [runPulls]
    | cons x l =>
      simp only [runPulls]
      split <;> simp [ih]

@[simp] theorem takePulls_keeps (s : State) (l : List Pull) :
    (takePulls s l).pending = s.pending ∧ (takePulls s l).boot.straps = s.boot.straps ∧
    (takePulls s l).boot.revoked = s.boot.revoked := by
  unfold takePulls
  try dsimp only
  repeat' split
  all_goals simp

@[simp] theorem fillFrames_keeps (l : List Nat) (n : Nat) (s : State) :
    (fillFrames l n s).pending = s.pending ∧ (fillFrames l n s).boot.straps = s.boot.straps ∧
    (fillFrames l n s).boot.revoked = s.boot.revoked := by
  induction n generalizing s with
  | zero => simp [fillFrames]
  | succ n ih =>
    simp only [fillFrames]
    split <;> simp [ih]

@[simp] theorem newFrame_keeps (s : State) (p c : Nat) :
    (newFrame s p c).pending = s.pending ∧ (newFrame s p c).boot.straps = s.boot.straps ∧
    (newFrame s p c).boot.revoked = s.boot.revoked := by
  unfold newFrame
  try dsimp only
  repeat' split
  all_goals simp

@[simp] theorem openFrame_keeps (s : State) (p c : Nat) :
    (openFrame s p c).pending = s.pending ∧ (openFrame s p c).boot.straps = s.boot.straps ∧
    (openFrame s p c).boot.revoked = s.boot.revoked := by
  unfold openFrame
  try dsimp only
  repeat' split
  all_goals simp

@[simp] theorem evalLosCh_keeps (s : State) (p c : Nat) :
    (evalLosCh s p c).pending = s.pending ∧ (evalLosCh s p c).boot.straps = s.boot.straps ∧
    (evalLosCh s p c).boot.revoked = s.boot.revoked := by
  unfold evalLosCh
  try dsimp only
  repeat' split
  all_goals simp

@[simp] theorem countLos_keeps (s : State) (p : Nat) :
    (countLos s p).pending = s.pending ∧ (countLos s p).boot.straps = s.boot.straps ∧
    (countLos s p).boot.revoked = s.boot.revoked := by
  unfold countLos
  try dsimp only
  repeat' split
  all_goals simp

@[simp] theorem syncAll_keeps (s : State) :
    (syncAll s).pending = s.pending ∧ (syncAll s).boot.straps = s.boot.straps ∧ (syncAll s).boot.revoked = s.boot.revoked := by
  unfold syncAll
  try dsimp only
  repeat' split
  all_goals simp

@[simp] theorem copyRecords_keeps (s : State) (p q : Nat) :
    (copyRecords s p q).pending = s.pending ∧ (copyRecords s p q).boot.straps = s.boot.straps ∧
    (copyRecords s p q).boot.revoked = s.boot.revoked := by
  unfold copyRecords
  try dsimp only
  repeat' split
  all_goals simp

@[simp] theorem internalPair_keeps (s : State) (p : Nat) :
    (internalPair s p).pending = s.pending ∧ (internalPair s p).boot.straps = s.boot.straps ∧
    (internalPair s p).boot.revoked = s.boot.revoked := by
  unfold internalPair
  try dsimp only
  repeat' split
  all_goals simp

@[simp] theorem sendMirror_keeps (s : State) (p : Nat) :
    (sendMirror s p).pending = s.pending ∧ (sendMirror s p).boot.straps = s.boot.straps ∧
    (sendMirror s p).boot.revoked = s.boot.revoked := by
  unfold sendMirror
  try dsimp only
  repeat' split
  all_goals simp

@[simp] theorem countRollcall_keeps (s : State) (p : Nat) :
    (countRollcall s p).pending = s.pending ∧ (countRollcall s p).boot.straps = s.boot.straps ∧
    (countRollcall s p).boot.revoked = s.boot.revoked := by
  unfold countRollcall
  try dsimp only
  repeat' split
  all_goals simp

@[simp] theorem goCounters_keeps (s : State) :
    (goCounters s).pending = s.pending ∧ (goCounters s).boot.straps = s.boot.straps ∧
    (goCounters s).boot.revoked = s.boot.revoked := by
  unfold goCounters
  try dsimp only
  repeat' split
  all_goals simp

@[simp] theorem portBoundary_keeps (s : State) (p : Nat) :
    (portBoundary s p).pending = s.pending ∧ (portBoundary s p).boot.straps = s.boot.straps ∧
    (portBoundary s p).boot.revoked = s.boot.revoked := by
  unfold portBoundary
  try dsimp only
  repeat' split
  all_goals simp

@[simp] theorem ringBoundary_keeps (s : State) :
    (ringBoundary s).pending = s.pending ∧ (ringBoundary s).boot.straps = s.boot.straps ∧
    (ringBoundary s).boot.revoked = s.boot.revoked := by
  unfold ringBoundary
  try dsimp only
  repeat' split
  all_goals simp

theorem execFrameBoundary_keeps (pulls : List Pull) (s : State) :
    ∃ z, execFrameBoundary pulls s = .next z ∧ z.pending = s.pending ∧ z.boot.straps = s.boot.straps ∧
    z.boot.revoked = s.boot.revoked := by
  unfold execFrameBoundary
  try dsimp only
  repeat' split
  all_goals refine ⟨_, rfl, ?_⟩
  all_goals simp

@[simp] theorem stepFrame_keeps (fine : Int) (s : State) (n : Nat) :
    (stepFrame fine s n).pending = s.pending ∧ (stepFrame fine s n).boot.straps = s.boot.straps ∧
    (stepFrame fine s n).boot.revoked = s.boot.revoked := by
  unfold stepFrame
  try dsimp only
  repeat' split
  all_goals simp

@[simp] theorem applyStep_keeps (s : State) (st : StepReq) :
    (applyStep s st).pending = s.pending ∧ (applyStep s st).boot.straps = s.boot.straps ∧
    (applyStep s st).boot.revoked = s.boot.revoked := by
  unfold applyStep
  try dsimp only
  repeat' split
  all_goals simp

theorem execStepApply_keeps (s : State) :
    ∃ z, execStepApply s = .next z ∧ z.pending = s.pending ∧ z.boot.straps = s.boot.straps ∧ z.boot.revoked = s.boot.revoked := by
  unfold execStepApply
  try dsimp only
  repeat' split
  all_goals first | (refine ⟨_, rfl, ?_⟩; simp; done) | (refine ⟨_, rfl, ?_⟩; (first | apply command_keeps); intros; (try dsimp only); (repeat' split) <;> simp_all)

@[simp] theorem signalFail_keeps (s : State) (p i d x : Nat) (m : PmRec) :
    (signalFail s p i d x m).pending = s.pending ∧ (signalFail s p i d x m).boot.straps = s.boot.straps ∧
    (signalFail s p i d x m).boot.revoked = s.boot.revoked := by
  unfold signalFail
  try dsimp only
  repeat' split
  all_goals simp

@[simp] theorem onuSecond_keeps (s : State) (p i : Nat) :
    (onuSecond s p i).pending = s.pending ∧ (onuSecond s p i).boot.straps = s.boot.straps ∧
    (onuSecond s p i).boot.revoked = s.boot.revoked := by
  unfold onuSecond
  try dsimp only
  repeat' split
  all_goals simp

@[simp] theorem channelSecond_keeps (s : State) (p c : Nat) :
    (channelSecond s p c).pending = s.pending ∧ (channelSecond s p c).boot.straps = s.boot.straps ∧
    (channelSecond s p c).boot.revoked = s.boot.revoked := by
  unfold channelSecond
  try dsimp only
  repeat' split
  all_goals simp

@[simp] theorem linkSecond_keeps (s : State) (m : Nat) :
    (linkSecond s m).pending = s.pending ∧ (linkSecond s m).boot.straps = s.boot.straps ∧
    (linkSecond s m).boot.revoked = s.boot.revoked := by
  unfold linkSecond
  try dsimp only
  repeat' split
  all_goals simp

theorem execGridSecond_keeps (s : State) :
    ∃ z, execGridSecond s = .next z ∧ z.pending = s.pending ∧ z.boot.straps = s.boot.straps ∧ z.boot.revoked = s.boot.revoked := by
  unfold execGridSecond
  try dsimp only
  repeat' split
  all_goals refine ⟨_, rfl, ?_⟩
  all_goals simp

end Sys2Proof.Machine
end

