-- ==== Sys2Proof/Laws/KeepOptics.lean ====
section
/-! SUPPORT. What each operation of Machine/Optics.lean leaves alone. -/

namespace Sys2Proof.Machine

@[simp] theorem setLaneStatus_keeps (s : State) (l bit : Nat) (b : Bool) :
    (setLaneStatus s l bit b).pending = s.pending ∧ (setLaneStatus s l bit b).boot.straps = s.boot.straps ∧
    (setLaneStatus s l bit b).boot.revoked = s.boot.revoked := by
  unfold setLaneStatus
  try dsimp only
  repeat' split
  all_goals simp

theorem execMarginScanGo_keeps (o : Origin) (l : Fin 268) (s : State) :
    ∃ z, execMarginScanGo o l s = .next z ∧ z.pending = s.pending ∧ z.boot.straps = s.boot.straps ∧
    z.boot.revoked = s.boot.revoked := by
  unfold execMarginScanGo
  try dsimp only
  repeat' split
  all_goals first | (refine ⟨_, rfl, ?_⟩; simp; done) | (refine ⟨_, rfl, ?_⟩; (first | apply ownWrite_keeps); intros; (try dsimp only); (repeat' split) <;> simp_all)

theorem execMarginScanDone_keeps (l : Fin 268) (count : Nat) (s : State) :
    ∃ z, execMarginScanDone l count s = .next z ∧ z.pending = s.pending ∧ z.boot.straps = s.boot.straps ∧
    z.boot.revoked = s.boot.revoked := by
  unfold execMarginScanDone
  try dsimp only
  repeat' split
  all_goals refine ⟨_, rfl, ?_⟩
  all_goals simp

@[simp] theorem adapt_keeps (s : State) (l : Nat) :
    (adapt s l).pending = s.pending ∧ (adapt s l).boot.straps = s.boot.straps ∧ (adapt s l).boot.revoked = s.boot.revoked := by
  unfold adapt
  try dsimp only
  repeat' split
  all_goals simp

theorem execCdrLockChange_keeps (l : Fin 268) (locked : Bool) (s : State) :
    ∃ z, execCdrLockChange l locked s = .next z ∧ z.pending = s.pending ∧ z.boot.straps = s.boot.straps ∧
    z.boot.revoked = s.boot.revoked := by
  unfold execCdrLockChange
  try dsimp only
  repeat' split
  all_goals refine ⟨_, rfl, ?_⟩
  all_goals simp

@[simp] theorem countPrbs_keeps (s : State) (l : Nat) :
    (countPrbs s l).pending = s.pending ∧ (countPrbs s l).boot.straps = s.boot.straps ∧
    (countPrbs s l).boot.revoked = s.boot.revoked := by
  unfold countPrbs
  try dsimp only
  repeat' split
  all_goals simp

theorem execPrbsCheckerLock_keeps (l : Fin 268) (locked : Bool) (s : State) :
    ∃ z, execPrbsCheckerLock l locked s = .next z ∧ z.pending = s.pending ∧ z.boot.straps = s.boot.straps ∧
    z.boot.revoked = s.boot.revoked := by
  unfold execPrbsCheckerLock
  try dsimp only
  repeat' split
  all_goals refine ⟨_, rfl, ?_⟩
  all_goals simp

@[simp] theorem i2cStat_keeps (s : State) (j v : Nat) :
    (i2cStat s j v).pending = s.pending ∧ (i2cStat s j v).boot.straps = s.boot.straps ∧
    (i2cStat s j v).boot.revoked = s.boot.revoked := by
  unfold i2cStat
  try dsimp only
  repeat' split
  all_goals simp

@[simp] theorem i2cCmd_keeps (o : Origin) (j : Nat) (write : Bool) (s : State) :
    (i2cCmd o j write s).pending = s.pending ∧ (i2cCmd o j write s).boot.straps = s.boot.straps ∧
    (i2cCmd o j write s).boot.revoked = s.boot.revoked := by
  unfold i2cCmd
  try dsimp only
  repeat' split
  all_goals first | (simp; done) | ((first | apply command_keeps); intros; (try dsimp only); (repeat' split) <;> simp_all)

theorem execI2cRead_keeps (o : Origin) (j : Fin 8) (s : State) :
    ∃ z, execI2cRead o j s = .next z ∧ z.pending = s.pending ∧ z.boot.straps = s.boot.straps ∧ z.boot.revoked = s.boot.revoked := by
  unfold execI2cRead
  try dsimp only
  repeat' split
  all_goals refine ⟨_, rfl, ?_⟩
  all_goals simp

theorem execI2cWrite_keeps (o : Origin) (j : Fin 8) (s : State) :
    ∃ z, execI2cWrite o j s = .next z ∧ z.pending = s.pending ∧ z.boot.straps = s.boot.straps ∧ z.boot.revoked = s.boot.revoked := by
  unfold execI2cWrite
  try dsimp only
  repeat' split
  all_goals refine ⟨_, rfl, ?_⟩
  all_goals simp

@[simp] theorem i2cEvent_keeps (s : State) (j : Nat) :
    (i2cEvent s j).pending = s.pending ∧ (i2cEvent s j).boot.straps = s.boot.straps ∧
    (i2cEvent s j).boot.revoked = s.boot.revoked := by
  unfold i2cEvent
  try dsimp only
  repeat' split
  all_goals simp

theorem execI2cDone_keeps (j : Fin 8) (nack : Bool) (bytes : List Byte) (s : State) :
    ∃ z, execI2cDone j nack bytes s = .next z ∧ z.pending = s.pending ∧ z.boot.straps = s.boot.straps ∧
    z.boot.revoked = s.boot.revoked := by
  unfold execI2cDone
  try dsimp only
  repeat' split
  all_goals refine ⟨_, rfl, ?_⟩
  all_goals simp

theorem execI2cTimeout_keeps (j : Fin 8) (s : State) :
    ∃ z, execI2cTimeout j s = .next z ∧ z.pending = s.pending ∧ z.boot.straps = s.boot.straps ∧ z.boot.revoked = s.boot.revoked := by
  unfold execI2cTimeout
  try dsimp only
  repeat' split
  all_goals refine ⟨_, rfl, ?_⟩
  all_goals simp

end Sys2Proof.Machine
end

