-- ==== Sys2Proof/Laws/KeepSelfTest.lean ====
section
/-! SUPPORT. What each operation of Machine/SelfTest.lean leaves alone. -/

namespace Sys2Proof.Machine

theorem execFaultSourceSet_keeps (src : Fin 64) (party : Option Party) (s : State) :
    ∃ z, execFaultSourceSet src party s = .next z ∧ z.pending = s.pending ∧ z.boot.straps = s.boot.straps ∧
    z.boot.revoked = s.boot.revoked := by
  unfold execFaultSourceSet
  try dsimp only
  repeat' split
  all_goals refine ⟨_, rfl, ?_⟩
  all_goals simp

theorem execReclaim_keeps (s : State) :
    ∃ z, execReclaim s = .next z ∧ z.pending = s.pending ∧ z.boot.straps = s.boot.straps ∧ z.boot.revoked = s.boot.revoked := by
  unfold execReclaim
  try dsimp only
  repeat' split
  all_goals refine ⟨_, rfl, ?_⟩
  all_goals simp

@[simp] theorem showSoft_keeps (s : State) :
    (showSoft s).pending = s.pending ∧ (showSoft s).boot.straps = s.boot.straps ∧
    (showSoft s).boot.revoked = s.boot.revoked := by
  unfold showSoft
  try dsimp only
  repeat' split
  all_goals simp

@[simp] theorem sweepTo_keeps (s : State) (n : Nat) :
    (sweepTo s n).pending = s.pending ∧ (sweepTo s n).boot.straps = s.boot.straps ∧
    (sweepTo s n).boot.revoked = s.boot.revoked := by
  unfold sweepTo
  try dsimp only
  repeat' split
  all_goals simp

@[simp] theorem repair_keeps (s : State) (bank row : Nat) :
    (repair s bank row).pending = s.pending ∧ (repair s bank row).boot.straps = s.boot.straps ∧
    (repair s bank row).boot.revoked = s.boot.revoked := by
  unfold repair
  try dsimp only
  repeat' split
  all_goals simp

@[simp] theorem settleRegion_keeps (s : State) (n : Nat) :
    (settleRegion s n).pending = s.pending ∧ (settleRegion s n).boot.straps = s.boot.straps ∧
    (settleRegion s n).boot.revoked = s.boot.revoked := by
  unfold settleRegion
  try dsimp only
  repeat' split
  all_goals simp

theorem execMemRegionTest_keeps (bad : Option Nat) (s : State) :
    ∃ z, execMemRegionTest bad s = .next z ∧ z.pending = s.pending ∧ z.boot.straps = s.boot.straps ∧
    z.boot.revoked = s.boot.revoked := by
  unfold execMemRegionTest
  try dsimp only
  repeat' split
  all_goals refine ⟨_, rfl, ?_⟩
  all_goals simp

theorem execTestStealTimeout_keeps (s : State) :
    ∃ z, execTestStealTimeout s = .next z ∧ z.pending = s.pending ∧ z.boot.straps = s.boot.straps ∧
    z.boot.revoked = s.boot.revoked := by
  unfold execTestStealTimeout
  try dsimp only
  repeat' split
  all_goals refine ⟨_, rfl, ?_⟩
  all_goals simp

theorem execSweepLate_keeps (s : State) :
    ∃ z, execSweepLate s = .next z ∧ z.pending = s.pending ∧ z.boot.straps = s.boot.straps ∧ z.boot.revoked = s.boot.revoked := by
  unfold execSweepLate
  try dsimp only
  repeat' split
  all_goals refine ⟨_, rfl, ?_⟩
  all_goals simp

@[simp] theorem failEngine_keeps (s : State) (k : Fin 16) (e : Nat) :
    (failEngine s k e).pending = s.pending ∧ (failEngine s k e).boot.straps = s.boot.straps ∧
    (failEngine s k e).boot.revoked = s.boot.revoked := by
  unfold failEngine
  try dsimp only
  repeat' split
  all_goals simp

@[simp] theorem setChecked_keeps (s : State) (k : Nat) (e : Option Nat) :
    (setChecked s k e).pending = s.pending ∧ (setChecked s k e).boot.straps = s.boot.straps ∧
    (setChecked s k e).boot.revoked = s.boot.revoked := by
  unfold setChecked
  try dsimp only
  repeat' split
  all_goals simp

@[simp] theorem beginCheck_keeps (s : State) (k : Fin 16) :
    (beginCheck s k).pending = s.pending ∧ (beginCheck s k).boot.straps = s.boot.straps ∧
    (beginCheck s k).boot.revoked = s.boot.revoked := by
  unfold beginCheck
  try dsimp only
  repeat' split
  all_goals simp

@[simp] theorem endCheck_keeps (s : State) (k : Fin 16) (e : Nat) (pass : Bool) :
    (endCheck s k e pass).pending = s.pending ∧ (endCheck s k e pass).boot.straps = s.boot.straps ∧
    (endCheck s k e pass).boot.revoked = s.boot.revoked := by
  unfold endCheck
  try dsimp only
  repeat' split
  all_goals simp

theorem execEngCheck_keeps (k : Fin 16) (pass : Bool) (s : State) :
    ∃ z, execEngCheck k pass s = .next z ∧ z.pending = s.pending ∧ z.boot.straps = s.boot.straps ∧
    z.boot.revoked = s.boot.revoked := by
  unfold execEngCheck
  try dsimp only
  repeat' split
  all_goals refine ⟨_, rfl, ?_⟩
  all_goals simp

theorem execEyeScan_keeps (width : Fin 128) (s : State) :
    ∃ z, execEyeScan width s = .next z ∧ z.pending = s.pending ∧ z.boot.straps = s.boot.straps ∧
    z.boot.revoked = s.boot.revoked := by
  unfold execEyeScan
  try dsimp only
  repeat' split
  all_goals refine ⟨_, rfl, ?_⟩
  all_goals simp

theorem goCmd_keeps (o : Origin) (body : State → State) (s : State)
    (h : ∀ x0, (body x0).pending = x0.pending ∧
      (body x0).boot.straps = x0.boot.straps ∧
      (body x0).boot.revoked = x0.boot.revoked) :
    (goCmd o body s).pending = s.pending ∧ (goCmd o body s).boot.straps = s.boot.straps ∧
    (goCmd o body s).boot.revoked = s.boot.revoked := by
  unfold goCmd
  try dsimp only
  repeat' split
  all_goals first | (simp; done) | ((first | apply command_keeps); intros; (try dsimp only); (repeat' split) <;> simp_all)

theorem execPmcStart_keeps (o : Origin) (s : State) :
    ∃ z, execPmcStart o s = .next z ∧ z.pending = s.pending ∧ z.boot.straps = s.boot.straps ∧ z.boot.revoked = s.boot.revoked := by
  unfold execPmcStart
  try dsimp only
  repeat' split
  all_goals first | (refine ⟨_, rfl, ?_⟩; simp; done) | (refine ⟨_, rfl, ?_⟩; (first | apply goCmd_keeps); intros; (try dsimp only); (repeat' split) <;> simp_all)

theorem execPmcStop_keeps (o : Origin) (s : State) :
    ∃ z, execPmcStop o s = .next z ∧ z.pending = s.pending ∧ z.boot.straps = s.boot.straps ∧ z.boot.revoked = s.boot.revoked := by
  unfold execPmcStop
  try dsimp only
  repeat' split
  all_goals first | (refine ⟨_, rfl, ?_⟩; simp; done) | (refine ⟨_, rfl, ?_⟩; (first | apply goCmd_keeps); intros; (try dsimp only); (repeat' split) <;> simp_all)

@[simp] theorem levelCount_keeps (s : State) (k : Nat) :
    (levelCount s k).pending = s.pending ∧ (levelCount s k).boot.straps = s.boot.straps ∧
    (levelCount s k).boot.revoked = s.boot.revoked := by
  unfold levelCount
  try dsimp only
  repeat' split
  all_goals simp

@[simp] theorem latchPmc_keeps (s : State) (k : Nat) :
    (latchPmc s k).pending = s.pending ∧ (latchPmc s k).boot.straps = s.boot.straps ∧
    (latchPmc s k).boot.revoked = s.boot.revoked := by
  unfold latchPmc
  try dsimp only
  repeat' split
  all_goals simp

@[simp] theorem snapPmc_keeps (s : State) (l : List Nat) :
    (snapPmc s l).pending = s.pending ∧ (snapPmc s l).boot.straps = s.boot.straps ∧
    (snapPmc s l).boot.revoked = s.boot.revoked := by
  unfold snapPmc
  try dsimp only
  repeat' split
  all_goals simp

theorem execPmcSnapshot_keeps (o : Origin) (s : State) :
    ∃ z, execPmcSnapshot o s = .next z ∧ z.pending = s.pending ∧ z.boot.straps = s.boot.straps ∧
    z.boot.revoked = s.boot.revoked := by
  unfold execPmcSnapshot
  try dsimp only
  repeat' split
  all_goals first | (refine ⟨_, rfl, ?_⟩; simp; done) | (refine ⟨_, rfl, ?_⟩; (first | apply goCmd_keeps); intros; (try dsimp only); (repeat' split) <;> simp_all)

@[simp] theorem pmcStat_keeps (s : State) (rej : Bool) :
    (pmcStat s rej).pending = s.pending ∧ (pmcStat s rej).boot.straps = s.boot.straps ∧
    (pmcStat s rej).boot.revoked = s.boot.revoked := by
  unfold pmcStat
  try dsimp only
  repeat' split
  all_goals simp

theorem pmcCmd_keeps (o : Origin) (body : State → Nat → Nat → State × Nat) (s : State)
    (h : ∀ x0 x1 x2, (body x0 x1 x2).1.pending = x0.pending ∧
      (body x0 x1 x2).1.boot.straps = x0.boot.straps ∧
      (body x0 x1 x2).1.boot.revoked = x0.boot.revoked) :
    (pmcCmd o body s).pending = s.pending ∧ (pmcCmd o body s).boot.straps = s.boot.straps ∧
    (pmcCmd o body s).boot.revoked = s.boot.revoked := by
  unfold pmcCmd
  try dsimp only
  repeat' split
  all_goals first | (simp; done) | ((first | apply command_keeps); intros; (try dsimp only); (repeat' split) <;> simp_all)

@[simp] theorem showPmc_keeps (s : State) (c : Pmc) :
    (showPmc s c).pending = s.pending ∧ (showPmc s c).boot.straps = s.boot.straps ∧
    (showPmc s c).boot.revoked = s.boot.revoked := by
  unfold showPmc
  try dsimp only
  repeat' split
  all_goals simp

theorem execPmcCounterRead_keeps (o : Origin) (s : State) :
    ∃ z, execPmcCounterRead o s = .next z ∧ z.pending = s.pending ∧ z.boot.straps = s.boot.straps ∧
    z.boot.revoked = s.boot.revoked := by
  unfold execPmcCounterRead
  try dsimp only
  repeat' split
  all_goals first | (refine ⟨_, rfl, ?_⟩; simp; done) | (refine ⟨_, rfl, ?_⟩; (first | apply pmcCmd_keeps); intros; (try dsimp only); (repeat' split) <;> simp_all)

theorem execPmcCounterWrite_keeps (o : Origin) (s : State) :
    ∃ z, execPmcCounterWrite o s = .next z ∧ z.pending = s.pending ∧ z.boot.straps = s.boot.straps ∧
    z.boot.revoked = s.boot.revoked := by
  unfold execPmcCounterWrite
  try dsimp only
  repeat' split
  all_goals first | (refine ⟨_, rfl, ?_⟩; simp; done) | (refine ⟨_, rfl, ?_⟩; (first | apply pmcCmd_keeps); intros; (try dsimp only); (repeat' split) <;> simp_all)

theorem execPmcGroupClear_keeps (o : Origin) (s : State) :
    ∃ z, execPmcGroupClear o s = .next z ∧ z.pending = s.pending ∧ z.boot.straps = s.boot.straps ∧
    z.boot.revoked = s.boot.revoked := by
  unfold execPmcGroupClear
  try dsimp only
  repeat' split
  all_goals first | (refine ⟨_, rfl, ?_⟩; simp; done) | (refine ⟨_, rfl, ?_⟩; (first | apply pmcCmd_keeps); intros; (try dsimp only); (repeat' split) <;> simp_all)

theorem execPmcGroupSnapshot_keeps (o : Origin) (s : State) :
    ∃ z, execPmcGroupSnapshot o s = .next z ∧ z.pending = s.pending ∧ z.boot.straps = s.boot.straps ∧
    z.boot.revoked = s.boot.revoked := by
  unfold execPmcGroupSnapshot
  try dsimp only
  repeat' split
  all_goals first | (refine ⟨_, rfl, ?_⟩; simp; done) | (refine ⟨_, rfl, ?_⟩; (first | apply pmcCmd_keeps); intros; (try dsimp only); (repeat' split) <;> simp_all)

theorem execTraceRecordRead_keeps (o : Origin) (data : Word) (s : State) :
    ∃ z, execTraceRecordRead o data s = .next z ∧ z.pending = s.pending ∧ z.boot.straps = s.boot.straps ∧
    z.boot.revoked = s.boot.revoked := by
  unfold execTraceRecordRead
  try dsimp only
  repeat' split
  all_goals first | (refine ⟨_, rfl, ?_⟩; simp; done) | (refine ⟨_, rfl, ?_⟩; (first | apply ownWrite_keeps); intros; (try dsimp only); (repeat' split) <;> simp_all)

theorem execTraceStream_keeps (s : State) :
    ∃ z, execTraceStream s = .next z ∧ z.pending = s.pending ∧ z.boot.straps = s.boot.straps ∧ z.boot.revoked = s.boot.revoked := by
  unfold execTraceStream
  try dsimp only
  repeat' split
  all_goals refine ⟨_, rfl, ?_⟩
  all_goals simp

end Sys2Proof.Machine
end

