-- ==== Sys2Proof/Laws/KeepRoute.lean ====
section
/-! SUPPORT. What each operation of Machine/Route.lean leaves alone. -/

namespace Sys2Proof.Machine





















/-- What every command but a power fall leaves: the queue and the straps as they stand, and no revoke bit lost. -/
def Grown (s z : State) : Prop :=
  z.pending = s.pending ∧ z.boot.straps = s.boot.straps ∧ s.boot.revoked ||| z.boot.revoked = z.boot.revoked

theorem Grown.of_keeps {s z : State} (h : z.pending = s.pending ∧ z.boot.straps = s.boot.straps ∧
    z.boot.revoked = s.boot.revoked) : Grown s z := ⟨h.1, h.2.1, by rw [h.2.2, Nat.or_self]⟩

theorem Grown.refl (s : State) : Grown s s := ⟨rfl, rfl, Nat.or_self _⟩

theorem Grown.trans {s t u : State} (h : Grown s t) (k : Grown t u) : Grown s u := by
  refine ⟨k.1.trans h.1, k.2.1.trans h.2.1, ?_⟩
  have h3 := h.2.2
  have k3 := k.2.2
  rw [← k3, ← Nat.or_assoc, h3]

/-- A command ends in a next state that keeps the queue and the straps, and loses no revoke bit. -/
def Calm (c : Cmd) : Prop := ∀ s, ∃ z, c s = .next z ∧ Grown s z

theorem calm_of (c : Cmd) (h : ∀ s, ∃ z, c s = .next z ∧ z.pending = s.pending ∧ z.boot.straps = s.boot.straps ∧
    z.boot.revoked = s.boot.revoked) : Calm c := by
  intro s
  obtain ⟨z, hz, h1, h2, h3⟩ := h s
  exact ⟨z, hz, h1, h2, by rw [h3, Nat.or_self]⟩

theorem command_calm (o : Origin) (a i : Nat) (body : State → State × Nat) (h : ∀ x, (body x).1.pending = x.pending ∧
    (body x).1.boot.straps = x.boot.straps ∧ (body x).1.boot.revoked = x.boot.revoked) :
    Calm (fun s => .next (command o a i body s)) := calm_of _ (fun s => ⟨_, rfl, command_keeps o a i body s h⟩)

theorem noCmd_calm (o : Origin) (a i : Nat) : Calm (noCmd o a i) := command_calm _ _ _ _ (fun _ => ⟨rfl, rfl, rfl⟩)
theorem badCmd_calm (o : Origin) (a i : Nat) : Calm (badCmd o a i) := command_calm _ _ _ _ (fun _ => ⟨rfl, rfl, rfl⟩)

@[simp] theorem byCode_calm (o : Origin) (a i n : Nat) (l : List Cmd) (h : ∀ c ∈ l, Calm c) : Calm (byCode o a i n l) := by
  unfold byCode
  split
  · apply noCmd_calm
  · rw [List.getD_eq_getElem?_getD]
    cases he : l[n - 1]? with
    | none => apply badCmd_calm
    | some c => exact h c (List.mem_of_getElem? he)

@[simp] theorem onBit_calm (o : Origin) (a i : Nat) (b : Bool) (c : Cmd) (h : Calm c) : Calm (onBit o a i b c) := by
  unfold onBit
  split
  · exact h
  · apply noCmd_calm

@[simp] theorem woWord_calm (o : Origin) (a : Nat) (body : State → State) (h : ∀ x, (body x).pending = x.pending ∧
    (body x).boot.straps = x.boot.straps ∧ (body x).boot.revoked = x.boot.revoked) : Calm (woWord o a body) := by
  apply calm_of
  intro s
  refine ⟨_, rfl, ?_⟩
  split <;> simp [h]

@[simp] theorem bootCmd_calm (o : Origin) (data : Word) : Calm (bootCmd o data) := by
  apply command_calm
  intro x
  dsimp only
  repeat' split
  all_goals simp

@[simp] theorem execRoleMapWrite_calm (o : Origin) (data : Word) : Calm (execRoleMapWrite o data) :=
  calm_of _ (fun s => execRoleMapWrite_keeps o data s)
@[simp] theorem execResetKey_calm (o : Origin) (data : Word) : Calm (execResetKey o data) :=
  calm_of _ (fun s => execResetKey_keeps o data s)
@[simp] theorem execResetCmd_calm (o : Origin) (data : Word) : Calm (execResetCmd o data) :=
  calm_of _ (fun s => execResetCmd_keeps o data s)
@[simp] theorem execRevokeKey_calm (o : Origin) (data : Word) : Calm (execRevokeKey o data) :=
  calm_of _ (fun s => execRevokeKey_keeps o data s)
@[simp] theorem execCalUnlock_calm (o : Origin) (data : Word) : Calm (execCalUnlock o data) :=
  calm_of _ (fun s => execCalUnlock_keeps o data s)
@[simp] theorem execCalRead_calm (o : Origin) : Calm (execCalRead o) :=
  calm_of _ (fun s => execCalRead_keeps o s)
@[simp] theorem execCalStoreWrite_calm (o : Origin) : Calm (execCalStoreWrite o) :=
  calm_of _ (fun s => execCalStoreWrite_keeps o s)
@[simp] theorem execCalReload_calm (o : Origin) : Calm (execCalReload o) :=
  calm_of _ (fun s => execCalReload_keeps o s)
@[simp] theorem execJournalRecordRead_calm (o : Origin) (data : Word) : Calm (execJournalRecordRead o data) :=
  calm_of _ (fun s => execJournalRecordRead_keeps o data s)
@[simp] theorem execSliceEnWrite_calm (o : Origin) (data : Word) : Calm (execSliceEnWrite o data) :=
  calm_of _ (fun s => execSliceEnWrite_keeps o data s)
@[simp] theorem execSlcReadOwner_calm (o : Origin) : Calm (execSlcReadOwner o) :=
  calm_of _ (fun s => execSlcReadOwner_keeps o s)
@[simp] theorem execSlcAssign_calm (o : Origin) : Calm (execSlcAssign o) :=
  calm_of _ (fun s => execSlcAssign_keeps o s)
@[simp] theorem execEvtRingRead_calm (o : Origin) : Calm (execEvtRingRead o) :=
  calm_of _ (fun s => execEvtRingRead_keeps o s)
@[simp] theorem execEvtRingWrite_calm (o : Origin) : Calm (execEvtRingWrite o) :=
  calm_of _ (fun s => execEvtRingWrite_keeps o s)
@[simp] theorem execEvtRingStart_calm (o : Origin) : Calm (execEvtRingStart o) :=
  calm_of _ (fun s => execEvtRingStart_keeps o s)
@[simp] theorem execEvtRingStop_calm (o : Origin) : Calm (execEvtRingStop o) :=
  calm_of _ (fun s => execEvtRingStop_keeps o s)
@[simp] theorem execDoorbell_calm (o : Origin) (data : Word) : Calm (execDoorbell o data) :=
  calm_of _ (fun s => execDoorbell_keeps o data s)
@[simp] theorem execRingRead_calm (o : Origin) : Calm (execRingRead o) :=
  calm_of _ (fun s => execRingRead_keeps o s)
@[simp] theorem execRingWrite_calm (o : Origin) : Calm (execRingWrite o) :=
  calm_of _ (fun s => execRingWrite_keeps o s)
@[simp] theorem execRingStart_calm (o : Origin) : Calm (execRingStart o) :=
  calm_of _ (fun s => execRingStart_keeps o s)
@[simp] theorem execRingStop_calm (o : Origin) : Calm (execRingStop o) :=
  calm_of _ (fun s => execRingStop_keeps o s)
@[simp] theorem execPmcStart_calm (o : Origin) : Calm (execPmcStart o) :=
  calm_of _ (fun s => execPmcStart_keeps o s)
@[simp] theorem execPmcStop_calm (o : Origin) : Calm (execPmcStop o) :=
  calm_of _ (fun s => execPmcStop_keeps o s)
@[simp] theorem execPmcSnapshot_calm (o : Origin) : Calm (execPmcSnapshot o) :=
  calm_of _ (fun s => execPmcSnapshot_keeps o s)
@[simp] theorem execPmcCounterRead_calm (o : Origin) : Calm (execPmcCounterRead o) :=
  calm_of _ (fun s => execPmcCounterRead_keeps o s)
@[simp] theorem execPmcCounterWrite_calm (o : Origin) : Calm (execPmcCounterWrite o) :=
  calm_of _ (fun s => execPmcCounterWrite_keeps o s)
@[simp] theorem execPmcGroupClear_calm (o : Origin) : Calm (execPmcGroupClear o) :=
  calm_of _ (fun s => execPmcGroupClear_keeps o s)
@[simp] theorem execPmcGroupSnapshot_calm (o : Origin) : Calm (execPmcGroupSnapshot o) :=
  calm_of _ (fun s => execPmcGroupSnapshot_keeps o s)
@[simp] theorem execTraceRecordRead_calm (o : Origin) (data : Word) : Calm (execTraceRecordRead o data) :=
  calm_of _ (fun s => execTraceRecordRead_keeps o data s)
@[simp] theorem execBankRead_calm (o : Origin) : Calm (execBankRead o) :=
  calm_of _ (fun s => execBankRead_keeps o s)
@[simp] theorem execBankOn_calm (o : Origin) : Calm (execBankOn o) :=
  calm_of _ (fun s => execBankOn_keeps o s)
@[simp] theorem execBankRetention_calm (o : Origin) : Calm (execBankRetention o) :=
  calm_of _ (fun s => execBankRetention_keeps o s)
@[simp] theorem execBankOff_calm (o : Origin) : Calm (execBankOff o) :=
  calm_of _ (fun s => execBankOff_keeps o s)
@[simp] theorem execStepCmd_calm (o : Origin) (data : Word) : Calm (execStepCmd o data) :=
  calm_of _ (fun s => execStepCmd_keeps o data s)
@[simp] theorem execBaseCommit_calm (o : Origin) (data : Word) : Calm (execBaseCommit o data) :=
  calm_of _ (fun s => execBaseCommit_keeps o data s)
@[simp] theorem execKeyRead_calm (o : Origin) : Calm (execKeyRead o) :=
  calm_of _ (fun s => execKeyRead_keeps o s)
@[simp] theorem execKeyWrite_calm (o : Origin) (conflict : Bool) : Calm (execKeyWrite o conflict) :=
  calm_of _ (fun s => execKeyWrite_keeps o conflict s)
@[simp] theorem execKeyInvalidate_calm (o : Origin) : Calm (execKeyInvalidate o) :=
  calm_of _ (fun s => execKeyInvalidate_keeps o s)
@[simp] theorem execI2cRead_calm (o : Origin) (j : Fin 8) : Calm (execI2cRead o j) :=
  calm_of _ (fun s => execI2cRead_keeps o j s)
@[simp] theorem execI2cWrite_calm (o : Origin) (j : Fin 8) : Calm (execI2cWrite o j) :=
  calm_of _ (fun s => execI2cWrite_keeps o j s)
@[simp] theorem execGmTake_calm (o : Origin) : Calm (execGmTake o) :=
  calm_of _ (fun s => execGmTake_keeps o s)
@[simp] theorem execGmYield_calm (o : Origin) : Calm (execGmYield o) :=
  calm_of _ (fun s => execGmYield_keeps o s)
@[simp] theorem execGmJoin_calm (o : Origin) (force : Bool) : Calm (execGmJoin o force) :=
  calm_of _ (fun s => execGmJoin_keeps o force s)
@[simp] theorem execPairRead_calm (o : Origin) : Calm (execPairRead o) :=
  calm_of _ (fun s => execPairRead_keeps o s)
@[simp] theorem execPairWrite_calm (o : Origin) : Calm (execPairWrite o) :=
  calm_of _ (fun s => execPairWrite_keeps o s)
@[simp] theorem execPairYield_calm (o : Origin) : Calm (execPairYield o) :=
  calm_of _ (fun s => execPairYield_keeps o s)
@[simp] theorem execPairReclaim_calm (o : Origin) : Calm (execPairReclaim o) :=
  calm_of _ (fun s => execPairReclaim_keeps o s)
@[simp] theorem execPairResync_calm (o : Origin) : Calm (execPairResync o) :=
  calm_of _ (fun s => execPairResync_keeps o s)
@[simp] theorem execPairClaim_calm (o : Origin) : Calm (execPairClaim o) :=
  calm_of _ (fun s => execPairClaim_keeps o s)
@[simp] theorem execVidSliceRead_calm (o : Origin) : Calm (execVidSliceRead o) :=
  calm_of _ (fun s => execVidSliceRead_keeps o s)
@[simp] theorem execVidSliceWrite_calm (o : Origin) : Calm (execVidSliceWrite o) :=
  calm_of _ (fun s => execVidSliceWrite_keeps o s)
@[simp] theorem execLgdRuleRead_calm (o : Origin) : Calm (execLgdRuleRead o) :=
  calm_of _ (fun s => execLgdRuleRead_keeps o s)
@[simp] theorem execLgdRuleWrite_calm (o : Origin) : Calm (execLgdRuleWrite o) :=
  calm_of _ (fun s => execLgdRuleWrite_keeps o s)
@[simp] theorem execLgdRuleInvalidate_calm (o : Origin) : Calm (execLgdRuleInvalidate o) :=
  calm_of _ (fun s => execLgdRuleInvalidate_keeps o s)
@[simp] theorem execLgdMoveBlock_calm (o : Origin) : Calm (execLgdMoveBlock o) :=
  calm_of _ (fun s => execLgdMoveBlock_keeps o s)
@[simp] theorem execLgdHitClear_calm (o : Origin) : Calm (execLgdHitClear o) :=
  calm_of _ (fun s => execLgdHitClear_keeps o s)
@[simp] theorem execGztLookupCmd_calm (o : Origin) : Calm (execGztLookupCmd o) :=
  calm_of _ (fun s => execGztLookupCmd_keeps o s)
@[simp] theorem execGztInsert_calm (o : Origin) : Calm (execGztInsert o) :=
  calm_of _ (fun s => execGztInsert_keeps o s)
@[simp] theorem execGztDeleteCmd_calm (o : Origin) : Calm (execGztDeleteCmd o) :=
  calm_of _ (fun s => execGztDeleteCmd_keeps o s)
@[simp] theorem execGztReadSlot_calm (o : Origin) : Calm (execGztReadSlot o) :=
  calm_of _ (fun s => execGztReadSlot_keeps o s)
@[simp] theorem execGztFlushDomain_calm (o : Origin) : Calm (execGztFlushDomain o) :=
  calm_of _ (fun s => execGztFlushDomain_keeps o s)
@[simp] theorem execGztFlushDest_calm (o : Origin) : Calm (execGztFlushDest o) :=
  calm_of _ (fun s => execGztFlushDest_keeps o s)
@[simp] theorem execGztThaw_calm (o : Origin) : Calm (execGztThaw o) :=
  calm_of _ (fun s => execGztThaw_keeps o s)
@[simp] theorem execGztSetDomainOwner_calm (o : Origin) : Calm (execGztSetDomainOwner o) :=
  calm_of _ (fun s => execGztSetDomainOwner_keeps o s)
@[simp] theorem execQueueRead_calm (o : Origin) : Calm (execQueueRead o) :=
  calm_of _ (fun s => execQueueRead_keeps o s)
@[simp] theorem execQueueWrite_calm (o : Origin) : Calm (execQueueWrite o) :=
  calm_of _ (fun s => execQueueWrite_keeps o s)
@[simp] theorem execQueueCounterClear_calm (o : Origin) : Calm (execQueueCounterClear o) :=
  calm_of _ (fun s => execQueueCounterClear_keeps o s)
@[simp] theorem execTmqOnuRead_calm (o : Origin) : Calm (execTmqOnuRead o) :=
  calm_of _ (fun s => execTmqOnuRead_keeps o s)
@[simp] theorem execTmqOnuWrite_calm (o : Origin) : Calm (execTmqOnuWrite o) :=
  calm_of _ (fun s => execTmqOnuWrite_keeps o s)
@[simp] theorem execNodeRead_calm (o : Origin) : Calm (execNodeRead o) :=
  calm_of _ (fun s => execNodeRead_keeps o s)
@[simp] theorem execNodeWrite_calm (o : Origin) : Calm (execNodeWrite o) :=
  calm_of _ (fun s => execNodeWrite_keeps o s)
@[simp] theorem execNodeSettle_calm (o : Origin) : Calm (execNodeSettle o) :=
  calm_of _ (fun s => execNodeSettle_keeps o s)
@[simp] theorem execKeyZeroize_calm (o : Origin) (data : Word) : Calm (execKeyZeroize o data) :=
  calm_of _ (fun s => execKeyZeroize_keeps o data s)
@[simp] theorem execPloamPush_calm (o : Origin) (p : Fin 32) (c : Fin 3) : Calm (execPloamPush o p c) :=
  calm_of _ (fun s => execPloamPush_keeps o p c s)
@[simp] theorem execKeySwGo_calm (o : Origin) (p : Fin 32) (c : Fin 3) : Calm (execKeySwGo o p c) :=
  calm_of _ (fun s => execKeySwGo_keeps o p c s)
@[simp] theorem execRssiGo_calm (o : Origin) (p : Fin 32) (c : Fin 3) : Calm (execRssiGo o p c) :=
  calm_of _ (fun s => execRssiGo_keeps o p c s)
@[simp] theorem execPmRead_calm (o : Origin) (p : Fin 32) (c : Fin 3) : Calm (execPmRead o p c) :=
  calm_of _ (fun s => execPmRead_keeps o p c s)
@[simp] theorem execPmWrite_calm (o : Origin) (p : Fin 32) (c : Fin 3) (conflict : Bool) : Calm (execPmWrite o p c conflict) :=
  calm_of _ (fun s => execPmWrite_keeps o p c conflict s)
@[simp] theorem execPmInvalidate_calm (o : Origin) (p : Fin 32) (c : Fin 3) : Calm (execPmInvalidate o p c) :=
  calm_of _ (fun s => execPmInvalidate_keeps o p c s)
@[simp] theorem execProfileWrite_calm (o : Origin) (p : Fin 32) (c : Fin 3) (j : Fin 4) (w : Fin 9) (data : Word) : Calm (execProfileWrite o p c j w data) :=
  calm_of _ (fun s => execProfileWrite_keeps o p c j w data s)
@[simp] theorem execReachWrite_calm (o : Origin) (p : Fin 32) (c : Fin 3) (off : Nat) (data : Word) : Calm (execReachWrite o p c off data) :=
  calm_of _ (fun s => execReachWrite_keeps o p c off data s)
@[simp] theorem execRgRead_calm (o : Origin) (p : Fin 32) (c : Fin 3) : Calm (execRgRead o p c) :=
  calm_of _ (fun s => execRgRead_keeps o p c s)
@[simp] theorem execRgSetEqd_calm (o : Origin) (p : Fin 32) (c : Fin 3) (conflict : Bool) : Calm (execRgSetEqd o p c conflict) :=
  calm_of _ (fun s => execRgSetEqd_keeps o p c conflict s)
@[simp] theorem execRgRerange_calm (o : Origin) (p : Fin 32) (c : Fin 3) : Calm (execRgRerange o p c) :=
  calm_of _ (fun s => execRgRerange_keeps o p c s)
@[simp] theorem execAdRead_calm (o : Origin) (p : Fin 32) (c : Fin 3) : Calm (execAdRead o p c) :=
  calm_of _ (fun s => execAdRead_keeps o p c s)
@[simp] theorem execAdWrite_calm (o : Origin) (p : Fin 32) (c : Fin 3) : Calm (execAdWrite o p c) :=
  calm_of _ (fun s => execAdWrite_keeps o p c s)
@[simp] theorem execAdClearGranted_calm (o : Origin) (p : Fin 32) (c : Fin 3) : Calm (execAdClearGranted o p c) :=
  calm_of _ (fun s => execAdClearGranted_keeps o p c s)
@[simp] theorem execObRead_calm (o : Origin) (p : Fin 32) (c : Fin 3) : Calm (execObRead o p c) :=
  calm_of _ (fun s => execObRead_keeps o p c s)
@[simp] theorem execObWrite_calm (o : Origin) (p : Fin 32) (c : Fin 3) : Calm (execObWrite o p c) :=
  calm_of _ (fun s => execObWrite_keeps o p c s)
@[simp] theorem execOnuRead_calm (o : Origin) (p : Fin 32) : Calm (execOnuRead o p) :=
  calm_of _ (fun s => execOnuRead_keeps o p s)
@[simp] theorem execOnuWrite_calm (o : Origin) (p : Fin 32) : Calm (execOnuWrite o p) :=
  calm_of _ (fun s => execOnuWrite_keeps o p s)
@[simp] theorem execOnuCounterClear_calm (o : Origin) (p : Fin 32) : Calm (execOnuCounterClear o p) :=
  calm_of _ (fun s => execOnuCounterClear_keeps o p s)
@[simp] theorem execXpRead_calm (o : Origin) (p : Fin 32) : Calm (execXpRead o p) :=
  calm_of _ (fun s => execXpRead_keeps o p s)
@[simp] theorem execXpWrite_calm (o : Origin) (p : Fin 32) : Calm (execXpWrite o p) :=
  calm_of _ (fun s => execXpWrite_keeps o p s)
@[simp] theorem execXpInvalidate_calm (o : Origin) (p : Fin 32) : Calm (execXpInvalidate o p) :=
  calm_of _ (fun s => execXpInvalidate_keeps o p s)
@[simp] theorem execTplLoad_calm (o : Origin) (p : Fin 32) : Calm (execTplLoad o p) :=
  calm_of _ (fun s => execTplLoad_keeps o p s)
@[simp] theorem execTplStop_calm (o : Origin) (p : Fin 32) : Calm (execTplStop o p) :=
  calm_of _ (fun s => execTplStop_keeps o p s)
@[simp] theorem execEntRead_calm (o : Origin) (p : Fin 32) : Calm (execEntRead o p) :=
  calm_of _ (fun s => execEntRead_keeps o p s)
@[simp] theorem execEntWrite_calm (o : Origin) (p : Fin 32) : Calm (execEntWrite o p) :=
  calm_of _ (fun s => execEntWrite_keeps o p s)
@[simp] theorem execGrpRead_calm (o : Origin) (p : Fin 32) : Calm (execGrpRead o p) :=
  calm_of _ (fun s => execGrpRead_keeps o p s)
@[simp] theorem execGrpWrite_calm (o : Origin) (p : Fin 32) : Calm (execGrpWrite o p) :=
  calm_of _ (fun s => execGrpWrite_keeps o p s)
@[simp] theorem execGrpCounterClear_calm (o : Origin) (p : Fin 32) : Calm (execGrpCounterClear o p) :=
  calm_of _ (fun s => execGrpCounterClear_keeps o p s)
@[simp] theorem execSpareRetire_calm (o : Origin) (k : Fin 16) (e : Fin 32) : Calm (execSpareRetire o k e) :=
  calm_of _ (fun s => execSpareRetire_keeps o k e s)
@[simp] theorem execSpareReinstate_calm (o : Origin) (k : Fin 16) (e : Fin 32) : Calm (execSpareReinstate o k e) :=
  calm_of _ (fun s => execSpareReinstate_keeps o k e s)
@[simp] theorem execSwapCmd_calm (o : Origin) (k : Fin 16) : Calm (execSwapCmd o k) :=
  calm_of _ (fun s => execSwapCmd_keeps o k s)
@[simp] theorem execUcsLoadWord_calm (o : Origin) (k : Fin 16) (data : Word) : Calm (execUcsLoadWord o k data) :=
  calm_of _ (fun s => execUcsLoadWord_keeps o k data s)
@[simp] theorem execUcsReadWord_calm (o : Origin) (k : Fin 16) (data : Word) : Calm (execUcsReadWord o k data) :=
  calm_of _ (fun s => execUcsReadWord_keeps o k data s)
@[simp] theorem execCxlMigrate_calm (o : Origin) (x : Fin 4) : Calm (execCxlMigrate o x) :=
  calm_of _ (fun s => execCxlMigrate_keeps o x s)
@[simp] theorem execCxlCancel_calm (o : Origin) (x : Fin 4) : Calm (execCxlCancel o x) :=
  calm_of _ (fun s => execCxlCancel_keeps o x s)
@[simp] theorem execCxlLinkDown_calm (o : Origin) (x : Fin 4) : Calm (execCxlLinkDown o x) :=
  calm_of _ (fun s => execCxlLinkDown_keeps o x s)
@[simp] theorem execCxlLinkUp_calm (o : Origin) (x : Fin 4) (capGib : Nat) : Calm (execCxlLinkUp o x capGib) :=
  calm_of _ (fun s => execCxlLinkUp_keeps o x capGib s)
@[simp] theorem execSaRead_calm (o : Origin) (q : Fin 24) : Calm (execSaRead o q) :=
  calm_of _ (fun s => execSaRead_keeps o q s)
@[simp] theorem execSaWrite_calm (o : Origin) (q : Fin 24) : Calm (execSaWrite o q) :=
  calm_of _ (fun s => execSaWrite_keeps o q s)
@[simp] theorem execSaInvalidate_calm (o : Origin) (q : Fin 24) : Calm (execSaInvalidate o q) :=
  calm_of _ (fun s => execSaInvalidate_keeps o q s)
@[simp] theorem execMarginScanGo_calm (o : Origin) (l : Fin 268) : Calm (execMarginScanGo o l) :=
  calm_of _ (fun s => execMarginScanGo_keeps o l s)
@[simp] theorem execCntClr_calm (o : Origin) (base : Nat) : Calm (execCntClr o base) :=
  calm_of _ (fun s => execCntClr_keeps o base s)

@[simp] theorem execRevokeCmd_calm (o : Origin) (data : Word) : Calm (execRevokeCmd o data) := execRevokeCmd_keeps o data

theorem globalCmd_calm (o : Origin) (pg : Page) (off a : Nat) (data : Word) (x : Cmd)
    (h : globalCmd o pg off a data = some x) : Calm x := by
  cases pg <;> simp only [globalCmd, reduceCtorEq] at h
  all_goals repeat' split at h
  all_goals first
    | (cases h; done)
    | (obtain rfl := Option.some.inj h; simp)

theorem channelCmd_calm (o : Origin) (pg : Page) (p : Fin 32) (c : Fin 3) (off a : Nat) (data : Word) (x : Cmd)
    (h : channelCmd o pg p c off a data = some x) : Calm x := by
  cases pg <;> simp only [channelCmd, reduceCtorEq] at h
  all_goals repeat' split at h
  all_goals first
    | (cases h; done)
    | (obtain rfl := Option.some.inj h; simp)

theorem instanceCmd_calm (o : Origin) (pg : Page) (i off a : Nat) (data : Word) (x : Cmd)
    (h : instanceCmd o pg i off a data = some x) : Calm x := by
  cases pg <;> simp only [instanceCmd, reduceCtorEq] at h
  all_goals repeat' split at h
  all_goals first
    | (cases h; done)
    | (obtain rfl := Option.some.inj h; simp)

theorem cmdAt_calm (o : Origin) (a : Nat) (data : Word) (x : Cmd) (h : cmdAt o a data = some x) : Calm x := by
  unfold cmdAt at h
  dsimp only at h
  repeat' split at h
  all_goals first
    | cases h; done
    | (obtain rfl := Option.some.inj h; exact onBit_calm _ _ _ _ _ (by apply execCntClr_calm))
    | exact channelCmd_calm _ _ _ _ _ _ _ _ h
    | exact instanceCmd_calm _ _ _ _ _ _ _ h
    | exact globalCmd_calm _ _ _ _ _ _ h

theorem ran_calm (c : Cmd) (h : Calm c) (s : State) : Grown s (ran (c s) s) := by
  obtain ⟨z, hz, hk⟩ := h s
  rw [hz]
  exact hk


end Sys2Proof.Machine
end

