-- ==== Sys2Proof/Laws/KeepRegisters.lean ====
section
/-! SUPPORT. What each operation of Machine/Registers.lean leaves alone. -/

namespace Sys2Proof.Machine

@[simp] theorem refused_keeps (s t : State) (pg : Page) (i off base : Nat) (x : State) :
    ((refused s t pg i off base).2 x).pending = x.pending ∧
    ((refused s t pg i off base).2 x).boot.straps = x.boot.straps ∧
    ((refused s t pg i off base).2 x).boot.revoked = x.boot.revoked := by
  unfold refused quiet
  cases pg <;> dsimp only <;> (repeat' split) <;> simp

@[simp] theorem afterSources_keeps (s t : State) :
    (afterSources s t).pending = t.pending ∧
    (afterSources s t).boot.straps = t.boot.straps ∧
    (afterSources s t).boot.revoked = t.boot.revoked := by
  unfold afterSources
  simp

@[simp] theorem stopCtx_keeps (s : State) (k : Nat) :
    (stopCtx s k).pending = s.pending ∧ (stopCtx s k).boot.straps = s.boot.straps ∧
    (stopCtx s k).boot.revoked = s.boot.revoked := by
  unfold stopCtx
  try dsimp only
  repeat' split
  all_goals simp

@[simp] theorem follow__keeps (s t : State) (pg : Page) (i off base : Nat) :
    (follow_ s t pg i off base).pending = t.pending ∧
    (follow_ s t pg i off base).boot.straps = t.boot.straps ∧
    (follow_ s t pg i off base).boot.revoked = t.boot.revoked := by
  unfold follow_
  split
  · dsimp only
    split <;> simp
  · split
    · exact ⟨rfl, rfl, rfl⟩
    cases pg <;> dsimp only <;> (repeat' split) <;> simp

@[simp] theorem storeWord_keeps (o : Origin) (pg : Page) (i regAddr addr : Nat) (data0 mask : Word) (s : State) :
    (storeWord o pg i regAddr addr data0 mask s).pending = s.pending ∧ (storeWord o pg i regAddr addr data0 mask s).boot.straps = s.boot.straps ∧
    (storeWord o pg i regAddr addr data0 mask s).boot.revoked = s.boot.revoked := by
  unfold storeWord
  try dsimp only
  repeat' split
  all_goals simp

@[simp] theorem retainBanks_keeps (s : State) (base : Nat) :
    (retainBanks s base).pending = s.pending ∧ (retainBanks s base).boot.straps = s.boot.straps ∧
    (retainBanks s base).boot.revoked = s.boot.revoked := by
  unfold retainBanks
  try dsimp only
  repeat' split
  all_goals simp

@[simp] theorem blockReset_keeps (s : State) (base : Nat) (x : Scope) :
    (blockReset s base x).pending = s.pending ∧ (blockReset s base x).boot.straps = s.boot.straps ∧
    (blockReset s base x).boot.revoked = s.boot.revoked := by
  unfold blockReset
  try dsimp only
  repeat' split
  all_goals simp

@[simp] theorem pageCtl_keeps (pg : Page) (i base : Nat) (data : Word) (s : State) :
    (pageCtl pg i base data s).1.pending = s.pending ∧ (pageCtl pg i base data s).1.boot.straps = s.boot.straps ∧
    (pageCtl pg i base data s).1.boot.revoked = s.boot.revoked := by
  unfold pageCtl
  try dsimp only
  repeat' split
  all_goals simp

@[simp] theorem writePageCtl_keeps (o : Origin) (base : Nat) (data : Word) (s : State) :
    (writePageCtl o base data s).pending = s.pending ∧ (writePageCtl o base data s).boot.straps = s.boot.straps ∧
    (writePageCtl o base data s).boot.revoked = s.boot.revoked := by
  unfold writePageCtl
  try dsimp only
  repeat' split
  all_goals first | (simp; done) | ((first | apply ownWrite_keeps); intros; (try dsimp only); (repeat' split) <;> simp_all)

@[simp] theorem writeInject_keeps (o : Origin) (base : Nat) (data : Word) (s : State) :
    (writeInject o base data s).pending = s.pending ∧ (writeInject o base data s).boot.straps = s.boot.straps ∧
    (writeInject o base data s).boot.revoked = s.boot.revoked := by
  unfold writeInject
  try dsimp only
  repeat' split
  all_goals first | (simp; done) | ((first | apply ownWrite_keeps); intros; (try dsimp only); (repeat' split) <;> simp_all)

@[simp] theorem turnedAway_keeps (o : Origin) (code addr : Nat) (mask : Word) (s : State) :
    (turnedAway o code addr mask s).pending = s.pending ∧ (turnedAway o code addr mask s).boot.straps = s.boot.straps ∧
    (turnedAway o code addr mask s).boot.revoked = s.boot.revoked := by
  unfold turnedAway
  try dsimp only
  repeat' split
  all_goals simp

theorem routed_grown (o : Origin) (a : Nat) (data : Word) (f : State → State) (h : routed o a data = some f) (s : State) :
    Grown s (f s) := by
  unfold routed at h
  dsimp only at h
  split at h
  · obtain rfl := Option.some.inj h
    exact .of_keeps (writePageCtl_keeps ..)
  · split at h
    · obtain rfl := Option.some.inj h
      exact .of_keeps (writeInject_keeps ..)
    · obtain ⟨c, hc, rfl⟩ := Option.map_eq_some_iff.mp h
      exact ran_calm c (cmdAt_calm _ _ _ _ hc) s

theorem aliasWrite_grown (o : Origin) (addr : Nat) (data : Word) (s : State) : Grown s (aliasWrite o addr data s) := by
  unfold aliasWrite
  split
  · exact .of_keeps (turnedAway_keeps ..)
  · exact .of_keeps (turnedAway_keeps ..)
  · dsimp only
    split
    · split
      · rename_i f hf
        have hg := routed_grown _ _ _ _ hf s
        split
        · exact hg
        · exact hg
      · exact .of_keeps (storeWord_keeps ..)
    · exact .of_keeps (by simp)

theorem plainWrite_grown (o : Origin) (addr : Nat) (data : Word) (s : State) : Grown s (plainWrite o addr data s) := by
  unfold plainWrite
  split
  · exact .of_keeps (turnedAway_keeps ..)
  · exact .of_keeps (turnedAway_keeps ..)
  · split
    · rename_i f hf
      exact routed_grown _ _ _ _ hf s
    · exact .of_keeps (storeWord_keeps ..)

theorem writeAt_grown (o : Origin) (addr : Nat) (data : Word) (s : State) : Grown s (writeAt o addr data s) := by
  unfold writeAt
  split
  · exact aliasWrite_grown ..
  · exact aliasWrite_grown ..
  · exact plainWrite_grown ..

theorem execRegisterWrite_grown (o : Origin) (addr : Nat) (data : Word) (s : State) :
    ∃ z, execRegisterWrite o addr data s = .next z ∧ Grown s z := ⟨_, rfl, writeAt_grown ..⟩

theorem execBitSetAliasWrite_grown (o : Origin) (addr : Nat) (data : Word) (s : State) :
    ∃ z, execBitSetAliasWrite o addr data s = .next z ∧ Grown s z := ⟨_, rfl, writeAt_grown ..⟩

theorem execBitClearAliasWrite_grown (o : Origin) (addr : Nat) (data : Word) (s : State) :
    ∃ z, execBitClearAliasWrite o addr data s = .next z ∧ Grown s z := ⟨_, rfl, writeAt_grown ..⟩

theorem execPageEnable_keeps (o : Origin) (base : Nat) (data : Word) (s : State) :
    ∃ z, execPageEnable o base data s = .next z ∧ z.pending = s.pending ∧ z.boot.straps = s.boot.straps ∧
    z.boot.revoked = s.boot.revoked := by
  unfold execPageEnable
  try dsimp only
  repeat' split
  all_goals refine ⟨_, rfl, ?_⟩
  all_goals simp

theorem execBlockReset_keeps (o : Origin) (base : Nat) (s : State) :
    ∃ z, execBlockReset o base s = .next z ∧ z.pending = s.pending ∧ z.boot.straps = s.boot.straps ∧
    z.boot.revoked = s.boot.revoked := by
  unfold execBlockReset
  try dsimp only
  repeat' split
  all_goals refine ⟨_, rfl, ?_⟩
  all_goals simp

theorem execPageLock_keeps (o : Origin) (base : Nat) (data : Word) (s : State) :
    ∃ z, execPageLock o base data s = .next z ∧ z.pending = s.pending ∧ z.boot.straps = s.boot.straps ∧
    z.boot.revoked = s.boot.revoked := by
  unfold execPageLock
  try dsimp only
  repeat' split
  all_goals refine ⟨_, rfl, ?_⟩
  all_goals simp

theorem execErrInjectArm_keeps (o : Origin) (base : Nat) (data : Word) (s : State) :
    ∃ z, execErrInjectArm o base data s = .next z ∧ z.pending = s.pending ∧ z.boot.straps = s.boot.straps ∧
    z.boot.revoked = s.boot.revoked := by
  unfold execErrInjectArm
  try dsimp only
  repeat' split
  all_goals refine ⟨_, rfl, ?_⟩
  all_goals simp

@[simp] theorem unsupported_keeps (o : Origin) (addr : Nat) (write : Option Word) (s : State) :
    (unsupported o addr write s).pending = s.pending ∧ (unsupported o addr write s).boot.straps = s.boot.straps ∧
    (unsupported o addr write s).boot.revoked = s.boot.revoked := by
  unfold unsupported
  try dsimp only
  repeat' split
  all_goals simp

theorem execUnalignedAccess_keeps (o : Origin) (addr size : Nat) (write : Bool) (s : State) :
    ∃ z, execUnalignedAccess o addr size write s = .next z ∧ z.pending = s.pending ∧ z.boot.straps = s.boot.straps ∧
    z.boot.revoked = s.boot.revoked := by
  unfold execUnalignedAccess
  try dsimp only
  repeat' split
  all_goals refine ⟨_, rfl, ?_⟩
  all_goals simp

theorem execUnmappedAccess_keeps (o : Origin) (addr : Nat) (write : Option Word) (s : State) :
    ∃ z, execUnmappedAccess o addr write s = .next z ∧ z.pending = s.pending ∧ z.boot.straps = s.boot.straps ∧
    z.boot.revoked = s.boot.revoked := by
  unfold execUnmappedAccess
  try dsimp only
  repeat' split
  all_goals refine ⟨_, rfl, ?_⟩
  all_goals simp

@[simp] theorem readLow_keeps (s : State) (a n : Nat) :
    (readLow s a n).1.pending = s.pending ∧ (readLow s a n).1.boot.straps = s.boot.straps ∧
    (readLow s a n).1.boot.revoked = s.boot.revoked := by
  unfold readLow
  try dsimp only
  repeat' split
  all_goals simp

@[simp] theorem readWord_keeps (pg : Page) (i a : Nat) (s : State) :
    (readWord pg i a s).1.pending = s.pending ∧ (readWord pg i a s).1.boot.straps = s.boot.straps ∧
    (readWord pg i a s).1.boot.revoked = s.boot.revoked := by
  unfold readWord
  try dsimp only
  repeat' split
  all_goals simp

@[simp] theorem clearDrops_keeps (s : State) (o : Origin) (pg : Page) (off : Nat) :
    (clearDrops s o pg off).pending = s.pending ∧ (clearDrops s o pg off).boot.straps = s.boot.straps ∧
    (clearDrops s o pg off).boot.revoked = s.boot.revoked := by
  unfold clearDrops
  try dsimp only
  repeat' split
  all_goals simp

@[simp] theorem readReg_keeps (o : Origin) (addr : Nat) (s : State) :
    (readReg o addr s).pending = s.pending ∧ (readReg o addr s).boot.straps = s.boot.straps ∧
    (readReg o addr s).boot.revoked = s.boot.revoked := by
  unfold readReg
  try dsimp only
  repeat' split
  all_goals first | (simp; done) | ((first | apply readAccess_keeps); intros; (try dsimp only); (repeat' split) <;> simp_all)

theorem execReadClearAccess_keeps (o : Origin) (addr : Nat) (s : State) :
    ∃ z, execReadClearAccess o addr s = .next z ∧ z.pending = s.pending ∧ z.boot.straps = s.boot.straps ∧
    z.boot.revoked = s.boot.revoked := by
  unfold execReadClearAccess
  try dsimp only
  repeat' split
  all_goals refine ⟨_, rfl, ?_⟩
  all_goals simp

theorem execCounterLowRead_keeps (o : Origin) (addr : Nat) (s : State) :
    ∃ z, execCounterLowRead o addr s = .next z ∧ z.pending = s.pending ∧ z.boot.straps = s.boot.straps ∧
    z.boot.revoked = s.boot.revoked := by
  unfold execCounterLowRead
  try dsimp only
  repeat' split
  all_goals refine ⟨_, rfl, ?_⟩
  all_goals simp

end Sys2Proof.Machine
end

