-- ==== Sys2Proof/Laws/KeepImage.lean ====
section
/-! SUPPORT. What each operation of Machine/Image.lean leaves alone. -/

namespace Sys2Proof.Machine

@[simp] theorem checkSig_keeps (s : State) (x : Image) :
    (checkSig s x).pending = s.pending ∧ (checkSig s x).boot.straps = s.boot.straps ∧
    (checkSig s x).boot.revoked = s.boot.revoked := by
  unfold checkSig
  try dsimp only
  repeat' split
  all_goals simp

@[simp] theorem showHeader_keeps (s : State) (x : Image) :
    (showHeader s x).pending = s.pending ∧ (showHeader s x).boot.straps = s.boot.straps ∧
    (showHeader s x).boot.revoked = s.boot.revoked := by
  unfold showHeader
  try dsimp only
  repeat' split
  all_goals simp

@[simp] theorem checkImage_keeps (s : State) (x : Image) :
    (checkImage s x).1.pending = s.pending ∧ (checkImage s x).1.boot.straps = s.boot.straps ∧
    (checkImage s x).1.boot.revoked = s.boot.revoked := by
  unfold checkImage
  try dsimp only
  repeat' split
  all_goals simp

@[simp] theorem applyError_keeps (s : State) :
    (applyError s).pending = s.pending ∧ (applyError s).boot.straps = s.boot.straps ∧
    (applyError s).boot.revoked = s.boot.revoked := by
  unfold applyError
  try dsimp only
  repeat' split
  all_goals simp

theorem applyReg_grown (s : State) (r : Nat × Word × Word) : Grown s (applyReg s r).1 := writeAt_grown ..


@[simp] theorem applyPoll_keeps (s : State) (r : Nat × Word × Word) :
    (applyPoll s r).1.pending = s.pending ∧ (applyPoll s r).1.boot.straps = s.boot.straps ∧
    (applyPoll s r).1.boot.revoked = s.boot.revoked := by
  unfold applyPoll
  try dsimp only
  repeat' split
  all_goals simp

@[simp] theorem applyUcs_keeps (b : Bool) (ws : List (BitVec 160)) (vs : List Nat) (crc : Word) (s : State) (k : Nat) :
    (applyUcs b ws vs crc s k).1.pending = s.pending ∧ (applyUcs b ws vs crc s k).1.boot.straps = s.boot.straps ∧
    (applyUcs b ws vs crc s k).1.boot.revoked = s.boot.revoked := by
  unfold applyUcs
  try dsimp only
  repeat' split
  all_goals simp

@[simp] theorem resetBlocks_keeps (s : State) :
    (resetBlocks s).pending = s.pending ∧ (resetBlocks s).boot.straps = s.boot.straps ∧
    (resetBlocks s).boot.revoked = s.boot.revoked := by
  unfold resetBlocks
  try dsimp only
  repeat' split
  all_goals simp

@[simp] theorem strictAbort_keeps (s : State) :
    (strictAbort s).pending = s.pending ∧ (strictAbort s).boot.straps = s.boot.straps ∧
    (strictAbort s).boot.revoked = s.boot.revoked := by
  unfold strictAbort
  try dsimp only
  repeat' split
  all_goals simp

theorem applyList_grown {α : Type} (f : State → α → State × Bool) (strict : Bool) (l : List α) (s : State)
    (h : ∀ t a, Grown t (f t a).1) : Grown s (applyList f strict l s).1 := by
  induction l generalizing s with
  | nil => exact .refl s
  | cons r l ih =>
    have h0 := h s r
    simp only [applyList]
    split
    · exact h0.trans (.of_keeps (applyError_keeps _))
    · refine .trans ?_ (ih _)
      split
      · exact h0.trans (.of_keeps (applyError_keeps _))
      · exact h0


theorem applySection_grown (strict : Bool) (s : State) (e : ImageEntry) : Grown s (applySection strict s e).1 := by
  unfold applySection
  split
  · exact applyList_grown _ _ _ _ applyReg_grown
  · exact applyList_grown _ _ _ _ (fun t a => .of_keeps (applyPoll_keeps t a))
  · exact applyList_grown _ _ _ _ (fun t a => .of_keeps (applyUcs_keeps _ _ _ _ t a))
  · exact .refl s


theorem applySections_grown (strict : Bool) (l : List ImageEntry) (s : State) : Grown s (applySections strict l s).1 := by
  induction l generalizing s with
  | nil => exact .refl s
  | cons e l ih =>
    have h0 := applySection_grown strict s e
    simp only [applySections]
    split
    · exact h0
    · split
      · exact h0
      · exact h0.trans (ih _)


theorem applyImage_grown (s : State) : Grown s (applyImage s) := by
  unfold applyImage
  split
  · exact .refl s
  · rename_i x _
    split
    · exact .refl s
    · have h := applySections_grown x.strict x.sections s
      dsimp only
      split
      · exact h.trans (.of_keeps (strictAbort_keeps _))
      · split
        · exact h
        · exact h


theorem execImageCheck_grown (img : Image) (s : State) : ∃ z, execImageCheck img s = .next z ∧ Grown s z := by
  unfold execImageCheck
  split
  · exact ⟨_, rfl, .refl s⟩
  · have h := checkImage_keeps (setBit s pgBOOT BOOT_BUSY false) img
    dsimp only
    split
    · exact ⟨_, rfl, .of_keeps (by simp [h])⟩
    · refine ⟨_, rfl, .trans (.of_keeps ?_) (applyImage_grown _)⟩
      split <;> simp [h]


theorem execHbmTrained_grown (stack : Fin 4) (s : State) : ∃ z, execHbmTrained stack s = .next z ∧ Grown s z := by
  unfold execHbmTrained
  split
  · exact ⟨_, rfl, .refl s⟩
  · refine ⟨_, rfl, ?_⟩
    split
    · exact .trans (.of_keeps (by simp)) (applyImage_grown _)
    · exact .of_keeps (by simp)


end Sys2Proof.Machine
end

