-- ==== Sys2Proof/WellFormed.lean ====
section
/-! DEFINITION. Which commands are well formed: the bounds of their operands that the operand types do not carry already. -/

namespace Sys2Proof

/-- An origin that exists: VFs 1 to 31 (R25), clusters 0 to 15, devices 0 to 3 (R284, R295). -/
def Origin.wellFormed : Origin → Bool
  | .vf v => 1 ≤ v && v ≤ 31
  | .ucode k => k < 16
  | .peer d => d < 4
  | _ => true

/-- A position inside a frame of at most half a frame more than nominal (R5, R35). -/
def Pos.wellFormed (p : Pos) : Bool := p.frame < 2 ^ 51 && p.tick < 29160 && p.fine < 256

/-- The origin of a register command. -/
def Instr.origin? : Instr → Option Origin
  | .registerWrite o _ _ | .readClearAccess o _ | .counterLowRead o _ | .bitSetAliasWrite o _ _
  | .bitClearAliasWrite o _ _ | .unalignedAccess o _ _ _ | .unmappedAccess o _ _ | .pageEnable o _ _
  | .blockReset o _ | .pageLock o _ _ | .errInjectArm o _ _ | .stepCmd o _ | .nowRead o _ | .todNowRead o _
  | .nsNowRead o _ | .baseCommit o _ | .capFifoRead o | .ploamPush o _ _ | .xpRead o _ | .xpWrite o _
  | .xpInvalidate o _ | .onuRead o _ | .onuWrite o _ | .onuCounterClear o _ | .cntClr o _ | .keySwGo o _ _
  | .profileWrite o _ _ _ _ _ | .rssiGo o _ _ | .pmRead o _ _ | .pmWrite o _ _ _ | .pmInvalidate o _ _
  | .reachWrite o _ _ _ _ | .rgRead o _ _ | .rgSetEqd o _ _ _ | .rgRerange o _ _ | .adRead o _ _ | .adWrite o _ _
  | .adClearGranted o _ _ | .obRead o _ _ | .obWrite o _ _ | .tplLoad o _ | .tplStop o _ | .entRead o _
  | .entWrite o _ | .grpRead o _ | .grpWrite o _ | .grpCounterClear o _ | .ucsLoadWord o _ _ | .ucsReadWord o _ _
  | .swapCmd o _ | .spareRetire o _ _ | .spareReinstate o _ _ | .roleMapWrite o _ | .lgdRuleRead o | .lgdRuleWrite o
  | .lgdRuleInvalidate o | .lgdMoveBlock o | .lgdHitClear o | .vidSliceRead o | .vidSliceWrite o | .gztLookupCmd o
  | .gztInsert o | .gztDeleteCmd o | .gztReadSlot o | .gztFlushDomain o | .gztFlushDest o | .gztThaw o
  | .gztSetDomainOwner o | .queueRead o | .queueWrite o | .queueCounterClear o | .tmqOnuRead o | .tmqOnuWrite o
  | .nodeRead o | .nodeWrite o | .nodeSettle o | .cxlMigrate o _ | .cxlCancel o _ | .cxlLinkDown o _
  | .cxlLinkUp o _ _ | .keyRead o | .keyWrite o _ | .keyInvalidate o | .saRead o _ | .saWrite o _
  | .saInvalidate o _ | .keyZeroize o _ | .marginScanGo o _ | .doorbell o _ | .ringRead o | .ringWrite o
  | .ringStart o | .ringStop o | .i2cRead o _ | .i2cWrite o _ | .gmTake o | .gmYield o | .gmJoin o _ | .pairRead o
  | .pairWrite o | .pairYield o | .pairReclaim o | .pairResync o | .pairClaim o | .evtRingRead o | .evtRingWrite o
  | .evtRingStart o | .evtRingStop o | .journalRecordRead o _ | .sliceEnWrite o _ | .slcReadOwner o | .slcAssign o
  | .resetKey o _ | .resetCmd o _ | .hostGo o | .bootRelease o | .revokeKey o _ | .revokeCmd o _ | .calUnlock o _
  | .calRead o | .calStoreWrite o | .calReload o | .warnClr o | .bankRead o | .bankOn o | .bankRetention o
  | .bankOff o | .pmcStart o | .pmcStop o | .pmcSnapshot o | .pmcCounterRead o | .pmcCounterWrite o
  | .pmcGroupClear o | .pmcGroupSnapshot o | .traceRecordRead o _ => some o
  | _ => none

/-- The register or page address that a command names. -/
def Instr.address? : Instr → Option Nat
  | .registerWrite _ a _ | .readClearAccess _ a | .counterLowRead _ a | .bitSetAliasWrite _ a _
  | .bitClearAliasWrite _ a _ | .unalignedAccess _ a _ _ | .unmappedAccess _ a _ | .pageEnable _ a _
  | .blockReset _ a | .pageLock _ a _ | .errInjectArm _ a _ | .cntClr _ a => some a
  | _ => none

/-- The capture pairs of a snapshot read. -/
def Instr.pairs : Instr → List (Pos × Pos)
  | .nowRead _ l | .todNowRead _ l | .nsNowRead _ l => l
  | _ => []

/-- Is a command well formed: its origin exists, its address is a 32-bit address (R4), its capture pairs are positions, an
unaligned access is of 1 to 8 bytes, and a reach write names REACH, FIBRE or ZD (R96)? -/
def Instr.wellFormed (i : Instr) : Bool :=
  (match i.origin? with | some o => o.wellFormed | none => true) &&
  (match i.address? with | some a => a < 2 ^ 32 | none => true) &&
  i.pairs.all (fun p => p.1.wellFormed && p.2.wellFormed) &&
  (match i with
   | .unalignedAccess _ _ n _ => 1 ≤ n && n ≤ 8
   | .reachWrite _ _ _ off _ => off == 0x44 || off == 0x48 || off == 0x4C
   | _ => true)

end Sys2Proof
end

