-- ==== Sys2Proof/Tests/Slice0.lean ====
section
/-! SUPPORT. Small tests of one step each, the refusals of WellFormed, and a witness for the hypotheses of every statement. -/

namespace Sys2Proof.Machine

set_option Elab.async false

/-- A released device. -/
def up : State := setFld State.reset pgDEV DEV_CHIP_STATE 3

/-- A state at a position of a running grid. -/
def at_ (s : State) (f t u : Nat) : State := { s with grid := { s.grid with running := true, now := ⟨f, t, u⟩ } }

/-- A time-of-day message with its CRC (R43): one second, UTC offset 37. -/
def goodTod : List Byte := [0x4A, 0x57, 0x0A, 0x01, 0x00, 0x00, 0x00, 0x00, 0x00, 0x01, 0x00, 0x25, 0x05, 0x00, 0x79, 0x60]

/-- A microword from its fields: lowest bit and value (R151). -/
def mword (l : List (Nat × Nat)) : BitVec 160 := BitVec.ofNat 160 ((l.map (fun e => e.2 * 2 ^ e.1)).sum)

/-- The last context of the spare of cluster 15, at address 5 of bank A, which holds one word. -/
def c15 : CtxId := ⟨15, 32, 3⟩
def ctxUp (x : Ctx) (w : BitVec 160) : State :=
  setCluster (setCtx up c15 { x with st := 1, pc := 5 }) 15 { Cluster.init 15 with bankA := [(5, w)], lenA := 6 }

/-! Buffers that the free values choose: that one is found does not depend on which. -/

theorem allocBytes_some {s : State} {r tag tier n : Nat} (h : (allocBytes s r tag tier n).isSome = true) :
    allocBytes s r tag tier n =
      some (((allocBytes s r tag tier n).map (·.1)).getD 0, ((allocBytes s r tag tier n).map (·.2)).getD s) := by
  obtain ⟨x, hx⟩ := Option.isSome_iff_exists.mp h
  simp [hx]

theorem allocBytes_small {s : State} {r tag tier n : Nat} (hn : n ≤ 256) (hr : r ≠ 7)
    (hs : freeSlots s 0 tier ≠ []) : (allocBytes s r tag tier n).isSome = true := by
  have hp : poolFor r n = 0 := by simp [poolFor, hr, hn]
  have hl : freeVal s % max 1 (freeSlots s 0 tier).length < (freeSlots s 0 tier).length := by
    have := List.length_pos_of_ne_nil hs
    rw [Nat.max_eq_right this]; exact Nat.mod_lt _ this
  have h1 : allocOne s r tag 0 tier = some (mkHandle 0 tier ((freeSlots s 0 tier)[freeVal s % max 1 (freeSlots s 0 tier).length]),
      newBuf (drawFree s) (mkHandle 0 tier ((freeSlots s 0 tier)[freeVal s % max 1 (freeSlots s 0 tier).length])) tag) := by
    simp [allocOne, List.getElem?_eq_getElem hl]
  have h2 : n ≤ 10240 := by omega
  simp [allocBytes, allocChain, allocFit, hr, hp, h1, h2]

theorem allocBytes_none {s : State} {r tag n : Nat} (hb : s.tm.buf = []) (hd : fld s pgBPM BPM_DRAIN_SHIFT = 0)
    (he : egressSide r = false) (hr : r ≠ 7) (hn : 10240 ≤ n) : allocBytes s r tag 0 n = none := by
  have hp : poolFor r 10240 = 2 := by simp [poolFor, hr]
  have h1 : allocOne s r tag 2 0 = none := by
    simp [allocOne, freeSlots, freeGranules, drainReserve, usedGranules, tierGranules, hb, hd, he]
  simp [allocBytes, allocChain, allocFit, hr, Nat.min_eq_right hn, hp, h1]

theorem askBytes_some {s : State} {r tag tier n : Nat} (h : (askBytes s r tag tier n).isSome = true) :
    askBytes s r tag tier n =
      some (((askBytes s r tag tier n).map (·.1)).getD 0, ((askBytes s r tag tier n).map (·.2)).getD s) := by
  obtain ⟨x, hx⟩ := Option.isSome_iff_exists.mp h
  simp [hx]

theorem askBytes_small {s : State} {r tag tier n : Nat} (hn : n ≤ 256) (hr : r ≠ 7) (hq : waitQ s (poolFor r n) = [])
    (hs : freeSlots s 0 tier ≠ []) : (askBytes s r tag tier n).isSome = true := by
  simp [askBytes, hq, allocBytes_small hn hr hs]

theorem askBytes_none {s : State} {r tag tier n : Nat} (h : allocBytes s r tag tier n = none) : askBytes s r tag tier n = none := by
  simp [askBytes, h]

/-! The refusals of WellFormed, each beside a term that it accepts (R4, R5, R25, R96), and the decoder without words (the table gives no
row bits). -/

theorem test_wf_origin : (Instr.ringRead (.vf 0)).wellFormed = false ∧ (Instr.ringRead (.vf 32)).wellFormed = false ∧
    (Instr.ringRead (.ucode 16)).wellFormed = false ∧ (Instr.ringRead (.peer 4)).wellFormed = false ∧
    (Instr.ringRead (.vf 31)).wellFormed = true := by decide

theorem test_wf_address : (Instr.registerWrite .pf (2 ^ 32) 0).wellFormed = false ∧
    (Instr.registerWrite .pf (2 ^ 32 - 4) 0).wellFormed = true := by decide

theorem test_wf_pairs : (Instr.nowRead .pf [(⟨0, 29160, 0⟩, ⟨0, 0, 0⟩)]).wellFormed = false ∧
    (Instr.nowRead .pf [(⟨0, 0, 0⟩, ⟨0, 0, 256⟩)]).wellFormed = false ∧
    (Instr.nowRead .pf [(⟨0, 1, 0⟩, ⟨0, 2, 0⟩)]).wellFormed = true := by decide

theorem test_wf_size : (Instr.unalignedAccess .pf 3 9 false).wellFormed = false ∧
    (Instr.unalignedAccess .pf 3 0 true).wellFormed = false ∧ (Instr.unalignedAccess .pf 3 8 true).wellFormed = true := by decide

theorem test_wf_reach : (Instr.reachWrite .pf 0 0 0x50 0).wellFormed = false ∧
    (Instr.reachWrite .pf 0 0 0x4C 0).wellFormed = true := by decide

theorem test_no_word_spells_a_command : decodeTableWord 32 0x12345678 = none := by decide

/-- A step runs the front command on the rest of the queue: outside a second's boundary GRID_SECOND changes nothing (R70). -/
theorem test_step_takes_the_front : (step { up with pending := [.gridSecond, .chipReset] } =
    .next { up with pending := [.chipReset] }) := rfl

/-- R46's example: channel 7H, 25 s after the base, with a transmit delay of 1,843.25 ns. -/
def exampleTod : State :=
  { up with grid := { up.grid with base := ⟨8000000, ⟨1760000000, 0, 0⟩⟩ },
            boot := { up.boot with work := [(1024 + 23, (1843 * 256 + 64, 0))] } }

theorem test_superframe_tod_example : superframeTod exampleTod 23 8200000 = ⟨1760000025, 1843, 0x4000⟩ := by decide +kernel

/-- The HEC of a fragment header is the CRC-8 of polynomial 0x07 (R139), of which 0xF4 is the check value over the nine digits. -/
theorem test_crc8_check_value : crc8 [0x31, 0x32, 0x33, 0x34, 0x35, 0x36, 0x37, 0x38, 0x39] = 0xF4 := by decide +kernel

theorem witness_PlainWriteOfScratchStores_1 :
  let s : State := setReg up (pgPON 3 + 0x30) 5
  let o : Origin := .pf
  let base : Nat := pgPON 3
  let pg : Page := .PON
  let i : Nat := 3
  let data : Word := 0xA5A5#32
  (pageAt base = some (pg, i)) ∧
  (base % 0x1000 = 0) ∧
  (addrReject s o (base + 0x30) = none) := by
  decide +kernel

theorem witness_PlainWriteOfScratchStores_2 :
  let s : State := setReg up (pgSDS 267 + 0x30) 5
  let o : Origin := .pf
  let base : Nat := pgSDS 267
  let pg : Page := .SDS
  let i : Nat := 267
  let data : Word := 0xA2#32
  (pageAt base = some (pg, i)) ∧
  (base % 0x1000 = 0) ∧
  (addrReject s o (base + 0x430) = none) := by
  decide +kernel

theorem witness_PlainWriteOfScratchStores_3 :
  let s : State := setReg up (pgMSH 2 + 0x30) 7
  let o : Origin := .pf
  let base : Nat := pgMSH 2
  let pg : Page := .MSH
  let i : Nat := 2
  let data : Word := 0xA2#32
  (pageAt base = some (pg, i)) ∧
  (base % 0x1000 = 0) ∧
  (addrReject s o (base + 0x830) = none) := by
  decide +kernel

theorem witness_AccessCodesOfAWrite :
    (fd 0x30 0 1 8 4 .w1c 0).lsb + 4 ≤ 32 := by decide

theorem witness_ReadsClearAndLatch_1 :
  let s : State := setReg up (pgALC 3 1 + 0x34) 0x30005#32
  let o : Origin := .pf
  let base : Nat := pgALC 3 1
  let pg : Page := .ALC
  let i : Nat := 10
  (pageAt base = some (pg, i)) ∧
  (base % 0x1000 = 0) ∧
  ((reach s o (base + 0x34)).isSome = true) := by
  decide +kernel

theorem witness_ReadsClearAndLatch_2 :
  let s : State := setCnt up (cntAddr (pgALC 3 1) 2) 0x123456789ABC
  let o : Origin := .pf
  let a : Nat := cntAddr (pgALC 3 1) 2
  let pg : Page := .ALC
  let i : Nat := 10
  (pageAt a = some (pg, i)) ∧
  ((reach s o a).isSome = true) ∧
  (a % 0x1000 < 0x400) ∧
  (isCounter pg (a % 0x1000) = true) ∧
  (freeCounter s pg i (a % 0x1000) = false) := by
  decide +kernel

theorem witness_ReadsClearAndLatch_3 :
  let s : State := { up with bus := { up.bus with latch := [(cntAddr (pgALC 3 1) 2 + 4, 0x1234)] } }
  let o : Origin := .pf
  let a : Nat := cntAddr (pgALC 3 1) 2
  let pg : Page := .ALC
  let i : Nat := 10
  (pageAt a = some (pg, i)) ∧
  ((reach s o (a + 4)).isSome = true) ∧
  (a % 0x1000 < 0x3F0) ∧
  (isCounter pg (a % 0x1000) = true) := by
  decide +kernel

theorem witness_AccessesThatReachNoRegister_1 :
  let s : State := up
  let o : Origin := .pf
  let a : Nat := 0x30
  let n : Nat := 2
  (¬ (a % 4 = 0 ∧ n = 4)) := by
  decide +kernel

theorem witness_AccessesThatReachNoRegister_2 :
  let s : State := up
  let o : Origin := .vf 2
  let a : Nat := 0x32
  let n : Nat := 4
  (¬ (a % 4 = 0 ∧ n = 4)) := by
  decide +kernel

theorem witness_AccessesThatReachNoRegister_3 :
  let s : State := up
  let o : Origin := .pf
  let a : Nat := 0x02000000
  (reach s o a = none) := by
  decide +kernel

theorem witness_AccessesThatReachNoRegister_4 :
  let s : State := up
  let o : Origin := .vf 2
  let a : Nat := pgPON 3
  let d : Word := 7#32
  (reach s o a = none) := by
  decide +kernel

theorem witness_PageControlWrites_1 :
  let s : State := up
  let o : Origin := .pf
  let base : Nat := pgALC 3 1
  let pg : Page := .ALC
  let i : Nat := 10
  let d : Word := 0#32
  (pageAt base = some (pg, i)) ∧
  (base % 0x1000 = 0) ∧
  (addrReject s o (base + 4) = none) ∧
  (enableHeld s pg i base = some false) ∧
  (d.getLsbD 0 = false) ∧
  (d.getLsbD 1 = false) := by
  decide +kernel

theorem witness_PageControlWrites_2 :
  let s : State := setReg up (pgALC 3 1 + 4) 0
  let o : Origin := .pf
  let base : Nat := pgALC 3 1
  let pg : Page := .ALC
  let i : Nat := 10
  let d : Word := 1#32
  (pageAt base = some (pg, i)) ∧
  (base % 0x1000 = 0) ∧
  (addrReject s o (base + 4) = none) ∧
  (d.getLsbD 0 = true) ∧
  (d.getLsbD 1 = false) := by
  decide +kernel

theorem witness_PageControlWrites_3 :
  let s : State := up
  let o : Origin := .pf
  let base : Nat := pgALC 3 1
  let pg : Page := .ALC
  let i : Nat := 10
  let d : Word := 9#32
  (pageAt base = some (pg, i)) ∧
  (base % 0x1000 = 0) ∧
  (addrReject s o (base + 4) = none) ∧
  (d.getLsbD 0 = true) ∧
  (d.getLsbD 1 = false) ∧
  (d.getLsbD 3 = true) := by
  decide +kernel

theorem witness_PageControlWrites_4 :
  let s : State := setReg up (pgSDS 5 + 0x30) 7
  let o : Origin := .pf
  let base : Nat := pgSDS 5
  let pg : Page := .SDS
  let i : Nat := 5
  let y : Scope := .lane 5
  (pageAt base = some (pg, i)) ∧
  (base % 0x1000 = 0) ∧
  (addrReject s o (base + 4) = none) ∧
  (scopeOf pg i = some y) ∧
  (y.ready s = true) ∧
  (isSet s base ANY_ENABLE = true) := by
  decide +kernel

theorem witness_PageControlWrites_5 :
  let s : State := up
  let o : Origin := .pf
  let base : Nat := pgALC 3 1
  let d : Word := 3#32
  (base % 0x1000 = 0) ∧
  (addrReject s o (base + 0x18) = none) ∧
  (d.getLsbD 0 = true) ∧
  (isSet s base ANY_ARM = false) := by
  decide +kernel

theorem witness_PageControlWrites_6 :
  let s : State := setFld up (pgALC 3 1) ANY_ARM 1
  let o : Origin := .pf
  let base : Nat := pgALC 3 1
  let d : Word := 3#32
  (base % 0x1000 = 0) ∧
  (addrReject s o (base + 0x18) = none) ∧
  (d.getLsbD 0 = true) ∧
  (isSet s base ANY_ARM = true) := by
  decide +kernel

theorem witness_ReferencesAndTheDpll_1 :
  let s : State := setFld (setFld up pgGRD GRD_DPLL_STATE 2) pgGRD GRD_REF_OK 5
  let b : Bool := false
  (following s = false) ∧
  (fld s pgGRD GRD_DPLL_STATE = dpllLocked) ∧
  (fld s pgGRD GRD_SEL_MODE = 0) ∧
  (fld s pgGRD GRD_ACTIVE_REF = b.toNat) ∧
  (pairOk s (1 - b.toNat) = false) := by
  decide +kernel

theorem witness_ReferencesAndTheDpll_2 :
  let s : State := setFld (setFld up pgGRD GRD_DPLL_STATE 2) pgGRD GRD_REF_OK 5
  let b : Bool := false
  (following s = false) ∧
  (fld s pgGRD GRD_DPLL_STATE = dpllLocked) ∧
  (fld s pgGRD GRD_SEL_MODE = 0) ∧
  (fld s pgGRD GRD_ACTIVE_REF = b.toNat) ∧
  (refOk s b.toNat = true) ∧
  (pairOk s (1 - b.toNat) = false) := by
  decide +kernel

theorem witness_ReferencesAndTheDpll_3 :
  let s : State := setFld up pgGRD GRD_REF_OK 1
  let n : Fin 4 := 2
  (following s = false) ∧
  (fld s pgGRD GRD_DPLL_STATE = dpllFree) ∧
  (fld s pgGRD GRD_SEL_MODE = 0) ∧
  (pairOk s 0 = false) ∧
  (pairOk s 1 = false) ∧
  (refOk s ((n.val + 2) % 4) = true) := by
  decide +kernel

theorem witness_ReferencesAndTheDpll_4 :
  let s : State := up
  let b : Bool := true
  let f : Int := 3
  let e : Int := 4
  (fld s pgGRD GRD_ACTIVE_REF ≠ b.toNat) := by
  decide +kernel

theorem witness_ReferencesAndTheDpll_5 :
  let s : State := { setFld (setFld up pgGRD GRD_DPLL_STATE 1) pgGRD GRD_REF_OK 5 with grid := { State.reset.grid with pulled := true, good := 2 } }
  let b : Bool := false
  let f : Int := -3
  let e : Int := 40
  (following s = false) ∧
  (fld s pgGRD GRD_ACTIVE_REF = b.toNat) ∧
  (pairOk s b.toNat = true) ∧
  (fld s pgGRD GRD_DPLL_STATE = dpllAcquire) ∧
  (s.grid.pulled = true) ∧
  (s.grid.good = 2) ∧
  (s.grid.todSec = none) ∧
  (phaseGood (wrapPhase e) = true) ∧
  ((f - fldS s pgGRD GRD_OFF).natAbs ≤ 10000) := by
  decide +kernel

theorem witness_StepsAndReadsOfTheGrid_1 :
  let s : State := up
  let o : Origin := .pf
  let d : Word := 0x100FFFE#32
  (addrReject s o (pgGRD + GRD_STEP_FINE.off) = none) ∧
  ((signedOf 24 (bitsOf d 0 24)).natAbs ≤ finePerFrame / 2) := by
  decide +kernel

theorem witness_StepsAndReadsOfTheGrid_2 :
  let s : State := up
  let o : Origin := .pf
  let d : Word := 0x7FFFFF#32
  (addrReject s o (pgGRD + GRD_STEP_FINE.off) = none) ∧
  (finePerFrame / 2 < (signedOf 24 (bitsOf d 0 24)).natAbs) := by
  decide +kernel

theorem witness_StepsAndReadsOfTheGrid_3 :
  let s : State := { up with grid := { up.grid with now := ⟨7, 0, 0⟩, step := some ⟨-40, 0, false, 7, .command⟩ } }
  let r : StepReq := ⟨-40, 0, false, 7, .command⟩
  (s.grid.step = some r) ∧
  (frame s = r.frame) ∧
  (s.grid.now.tick = 0) ∧
  (s.grid.now.fine = 0) ∧
  (isSet s pgGRD GRD_ONU_IN_OP = false ∨ r.force = true) ∧
  (r.jump = 0) := by
  decide +kernel

theorem witness_StepsAndReadsOfTheGrid_4 :
  let s : State := { setFld up pgGRD GRD_ONU_IN_OP 1 with grid := { up.grid with now := ⟨7, 0, 0⟩, step := some ⟨-40, 0, false, 7, .command⟩ } }
  let r : StepReq := ⟨-40, 0, false, 7, .command⟩
  (s.grid.step = some r) ∧
  (frame s = r.frame) ∧
  (s.grid.now.tick = 0) ∧
  (s.grid.now.fine = 0) ∧
  (isSet s pgGRD GRD_ONU_IN_OP = true) ∧
  (r.force = false) ∧
  (r.by_ = .command) := by
  decide +kernel

theorem witness_StepsAndReadsOfTheGrid_5 :
  let s : State := at_ up 5 6 7
  let o : Origin := .pf
  let l : List (Pos × Pos) := [(⟨5, 6, 7⟩, ⟨5, 8, 8⟩), (⟨5, 9, 1⟩, ⟨5, 9, 200⟩)]
  ((reach s o (pgGRD + GRD_FINE.off)).isSome = true) := by
  decide +kernel

theorem witness_StepsAndReadsOfTheGrid_6 :
  let s : State := at_ up 5000000000 19439 255
  let o : Origin := .pf
  let l : List (Pos × Pos) := []
  ((reach s o (pgTOD + TOD_FRAC.off)).isSome = true) := by
  decide +kernel

theorem witness_StepsAndReadsOfTheGrid_7 :
  let s : State := at_ up 5000000000 19439 255
  let o : Origin := .pf
  let l : List (Pos × Pos) := []
  ((reach s o (pgCAP + CAP_NS_LO.off)).isSome = true) := by
  decide +kernel

theorem witness_StepsAndReadsOfTheGrid_8 :
  let s : State := { setFld up pgCAP CAP_INPUT 9 with grid := { up.grid with capFifo := [(9, [⟨⟨1, 2, 3⟩, true⟩, ⟨⟨1, 20, 3⟩, false⟩])] } }
  let o : Origin := .pf
  let i : Fin 10 := 9
  let c : Cap := ⟨⟨1, 2, 3⟩, true⟩
  let q : List Cap := [⟨⟨1, 20, 3⟩, false⟩]
  ((reach s o (pgCAP + CAP_FINE.off)).isSome = true) ∧
  (fld s pgCAP CAP_INPUT = i.val) ∧
  (tget dnil s.grid.capFifo i = c :: q) := by
  decide +kernel

theorem witness_TimeOfDayAndCapture_1 :
  let s : State := setFld up pgTOD TOD_BASE_NS 999999999
  let o : Origin := .pf
  let d : Word := 1#32
  (addrReject s o (pgTOD + TOD_BASE_COMMIT.off) = none) ∧
  (bitsOf d 0 1 = 1) ∧
  (fld s pgTOD TOD_BASE_NS ≤ 999999999) := by
  decide +kernel

theorem witness_TimeOfDayAndCapture_2 :
  let s : State := { at_ up 8 0 0 with grid := { (at_ up 8 0 0).grid with baseNext := some (8, ⟨8, ⟨1, 2, 3⟩⟩) } }
  let f : Nat := 8
  let b : ToDBase := ⟨8, ⟨1, 2, 3⟩⟩
  (s.grid.baseNext = some (f, b)) ∧
  (f ≤ frame s) ∧
  (s.grid.base ≠ b) := by
  decide +kernel

theorem witness_TimeOfDayAndCapture_3 :
  let s : State := { setFld (at_ up 1000 0 0) pgTOD TOD_TOD_IN_EN 1 with grid := { (at_ up 1000 0 0).grid with epoch := 1000 * finePerFrame, lastPps := some 0 } }
  let m : List Byte := goodTod
  (isSet s pgTOD TOD_TOD_IN_EN = true) ∧
  (m.length = 16) ∧
  (beNat (m.take 2) = 0x4A57) ∧
  (byteAt m 2 = 10) ∧
  (byteAt m 3 = 1) ∧
  (crc16 ((m.drop 2).take 12) = beNat (m.drop 14)) ∧
  (inTodWindow s = true) := by
  decide +kernel

theorem witness_TimeOfDayAndCapture_4 :
  let s : State := setFld (at_ up 1000 0 0) pgTOD TOD_TOD_IN_EN 1
  let m : List Byte := goodTod.set 15 0xEE#8
  (isSet s pgTOD TOD_TOD_IN_EN = true) ∧
  (m.length = 16) ∧
  (beNat (m.take 2) = 0x4A57) ∧
  (byteAt m 2 = 10) ∧
  (crc16 ((m.drop 2).take 12) ≠ beNat (m.drop 14)) := by
  decide +kernel

theorem witness_TimeOfDayAndCapture_5 :
  let s : State := setFld (at_ up 5 6 7) pgCAP (CAP_EDGE.at 9) 3
  let i : Fin 10 := 9
  let r : Bool := false
  (bitAt (fld s pgCAP (CAP_EDGE.at i)) (if r then 0 else 1) = true) ∧
  ((tget dnil s.grid.capFifo i).length < capFifoMax) ∧
  ((∀ p, tget dnone s.grid.capLast i = some p → p + 8 * finePerGt ≤ elapsed s)) := by
  decide +kernel

theorem witness_PloamQueues_1 :
  let s : State := setReg up (pgCH 31 2 + CH_PLOAM_BUF.off + 4) 7
  let o : Origin := .pf
  let p : Fin 32 := 31
  let c : Fin 3 := 2
  (addrReject s o (pgCH p c + CH_PLOAM_PUSH.off) = none) ∧
  ((chSt s p c).normal.length < ploamMax) := by
  decide +kernel

theorem witness_PloamQueues_2 :
  let s : State := { up with pon := { up.pon with ch := [(3, { ChSt.init 3 with normal := List.replicate 64 ⟨.assign, 0, 0, ⟨0, 0, 0⟩⟩ })] } }
  let o : Origin := .pf
  let p : Fin 32 := 1
  let c : Fin 3 := 0
  (addrReject s o (pgCH p c + CH_PLOAM_PUSH.off) = none) ∧
  (ploamMax ≤ (chSt s p c).normal.length) := by
  decide +kernel

theorem witness_PloamQueues_3 :
  let s : State := { up with pon := { up.pon with ch := [(3, { ChSt.init 3 with urgent := [⟨.deactivate, 1, 2, ⟨3, 3, 3⟩⟩], retry := [⟨.assign, 5, 6, ⟨0, 0, 0⟩⟩, ⟨.deactivate, 7, 8, ⟨0, 0, 0⟩⟩] })] } }
  let p : Fin 32 := 1
  let c : Fin 3 := 0
  ((chSt s p c).urgent.length + (chSt s p c).retry.length ≤ ploamMax) := by
  decide +kernel

theorem witness_PloamQueues_4 :
  let s : State := { at_ up 400 0 0 with pon := { up.pon with reasm := [(8195, some ⟨[], 9, 3, false⟩)], xp := [(8195, ⟨5, 1, 7, 2, false, true⟩)] } }
  let x : Fin 262144 := 8195
  let r : Reasm := ⟨[], 9, 3, false⟩
  (reasm s x = some r) ∧
  (r.last + fld s (pgCH (x.val / 8192) (xpEntry s x).ch) CH_TIMEOUT + 1 ≤ frame s) := by
  decide +kernel

theorem witness_PortEntries_1 :
  let s : State := { setFld up (pgPON 3) PON_XP_IDX 8191 with pon := { up.pon with xp := [(32767, ⟨5, 1, 7, 2, false, true⟩)] } }
  let o : Origin := .pf
  let p : Fin 32 := 3
  (addrReject s o (pgPON p + PON_XP_CMD.off) = none) ∧
  (xpReadable s p (Origin.slice o) (xpEntry s (8192 * p + fld s (pgPON p) PON_XP_IDX)) = true) := by
  decide +kernel

theorem witness_PortEntries_2 :
  let s : State := { setFld (setFld up pgSLC SLC_SLICE_EN 4) (pgPON 3) PON_XP_IDX 7 with own := { up.own with onu := [(1541, 2)] } }
  let o : Origin := .vf 2
  let p : Fin 32 := 3
  (addrReject s o (pgPON p + PON_XP_CMD.off) = none) ∧
  (xpReadable s p (Origin.slice o) (xpEntry s (8192 * p + fld s (pgPON p) PON_XP_IDX)) = false) := by
  decide +kernel

theorem witness_PortEntries_3 :
  let s : State := { setReg (setFld up (pgPON 3) PON_XP_IDX 8191) (pgPON 3 + PON_PORT_ID.off) 0x501D0005#32 with pon := { up.pon with onu := [(1543, { OnuRec.init 0 with ch := 1, valid := true })] } }
  let o : Origin := .pf
  let p : Fin 32 := 3
  let n : XpEntry := xpOfWord 0x501D0005#32
  (addrReject s o (pgPON p + PON_XP_CMD.off) = none) ∧
  (n = xpOfWord (reg s (pgPON p + PON_PORT_ID.off))) ∧
  (xpWritable s p (Origin.slice o) (xpEntry s (8192 * p + fld s (pgPON p) PON_XP_IDX)) n = true) ∧
  (n.valid = true → xpRejected s p (fld s (pgPON p) PON_XP_IDX) (xpEntry s (8192 * p + fld s (pgPON p) PON_XP_IDX)) n = false) := by
  decide +kernel

theorem witness_PortEntries_4 :
  let s : State := setReg (setFld up (pgPON 3) PON_XP_IDX 8191) (pgPON 3 + PON_PORT_ID.off) 0x501D0005#32
  let o : Origin := .pf
  let p : Fin 32 := 3
  let n : XpEntry := xpOfWord 0x501D0005#32
  (addrReject s o (pgPON p + PON_XP_CMD.off) = none) ∧
  (n = xpOfWord (reg s (pgPON p + PON_PORT_ID.off))) ∧
  (xpWritable s p (Origin.slice o) (xpEntry s (8192 * p + fld s (pgPON p) PON_XP_IDX)) n = true) ∧
  (n.valid = true) ∧
  (xpRejected s p (fld s (pgPON p) PON_XP_IDX) (xpEntry s (8192 * p + fld s (pgPON p) PON_XP_IDX)) n = true) := by
  decide +kernel

theorem witness_PortEntries_5 :
  let s : State := { setFld up (pgPON 3) PON_XP_IDX 8191 with pon := { up.pon with xp := [(32767, ⟨5, 1, 7, 2, false, true⟩)] } }
  let o : Origin := .pf
  let p : Fin 32 := 3
  let e : XpEntry := ⟨5, 1, 7, 2, false, true⟩
  (addrReject s o (pgPON p + PON_XP_CMD.off) = none) ∧
  (e = xpEntry s (8192 * p + fld s (pgPON p) PON_XP_IDX)) ∧
  (mayUse (Origin.slice o) (if e.valid then xpOwner s p e else portOwner s p) = true) := by
  decide +kernel

theorem witness_OnuRecords_1 :
  let s : State := { setFld up (pgPON 3) PON_ONU_IDX 511 with pon := { up.pon with onu := [(2047, { OnuRec.init 0 with ch := 1, valid := true, expSn := 77 })], onuCnt := [(32 * 2047 + 5, 0x100000002)] } }
  let o : Origin := .pf
  let p : Fin 32 := 3
  let i : Nat := 511
  (addrReject s o (pgPON p + PON_ONU_CMD.off) = none) ∧
  (i = fld s (pgPON p) PON_ONU_IDX) ∧
  (mayUse (Origin.slice o) (onuOwner s p i) = true) := by
  decide +kernel

theorem witness_OnuRecords_2 :
  let s : State := setReg (setFld up (pgPON 3) PON_ONU_IDX 511) (pgPON 3 + PON_ONU_REC.off) 0x40000FA9#32
  let o : Origin := .pf
  let p : Fin 32 := 3
  let i : Nat := 511
  (addrReject s o (pgPON p + PON_ONU_CMD.off) = none) ∧
  (i = fld s (pgPON p) PON_ONU_IDX) ∧
  (mayUse (Origin.slice o) (onuOwner s p i) = true) ∧
  ((onu s p i).state = stEmpty) ∧
  ((onu s p i).held = false) ∧
  (hasDefect (onu s p i) dSNMi = false) ∧
  ((onuOfWindow s p (onu s p i)).valid = true → onuRejected s p i (onuOfWindow s p (onu s p i)) = false) := by
  decide +kernel

theorem witness_OnuRecords_3 :
  let s : State := { up with pon := { up.pon with onu := [(1536, { OnuRec.init 0 with held := true })] } }
  let o : Origin := .pf
  let p : Fin 32 := 3
  let i : Nat := 0
  (addrReject s o (pgPON p + PON_ONU_CMD.off) = none) ∧
  (i = fld s (pgPON p) PON_ONU_IDX) ∧
  (mayUse (Origin.slice o) (onuOwner s p i) = true) ∧
  ((onu s p i).held = true) := by
  decide +kernel

theorem witness_OnuRecords_4 :
  let s : State := setOnuCnt up 3 0 31 9
  let o : Origin := .pf
  let p : Fin 32 := 3
  let i : Nat := 0
  (addrReject s o (pgPON p + PON_ONU_CMD.off) = none) ∧
  (i = fld s (pgPON p) PON_ONU_IDX) ∧
  (mayUse (Origin.slice o) (onuOwner s p i) = true) := by
  decide +kernel

theorem witness_OnuRecords_5 :
  let s : State := setCnt (setCnt up (cntAddr (pgALC 3 1) 31) 9) (cntAddr (pgALC 3 1) 0) 9
  let o : Origin := .pf
  let base : Nat := pgALC 3 1
  (base % 0x1000 = 0) ∧
  (base ≠ pgJRN) ∧
  (addrReject s o (base + 0x300) = none) := by
  decide +kernel

theorem witness_OnuRecords_6 :
  let s : State := setCnt up (cntAddr pgJRN JRN_C_RECORDS) 9
  let o : Origin := .pf
  (addrReject s o (pgJRN + 0x300) = none) := by
  decide +kernel

theorem witness_KeySwitches_1 :
  let s : State := { setFld (setFld (setFld up (pgCH 3 1) CH_KEY_ONU_ID 9) (pgCH 3 1) CH_KEY_NEW_SLOT 2) (pgCH 3 1) CH_KEY_F_LO 2 with pon := { up.pon with onu := [(1541, { OnuRec.init 0 with ch := 1, onuId := 9, valid := true })] } }
  let o : Origin := .pf
  let p : Fin 32 := 3
  let c : Fin 3 := 1
  let i : Nat := 5
  (addrReject s o (pgCH p c + CH_KEY_SW_GO.off) = none) ∧
  (findOnu s p c (fld s (pgCH p c) CH_KEY_ONU_ID) = some i) ∧
  (mayUse (Origin.slice o) (onuOwner s p i) = true) ∧
  (fld s (pgCH p c) CH_KEY_NEW_SLOT = firstSlot c ∨ fld s (pgCH p c) CH_KEY_NEW_SLOT = firstSlot c + 1) ∧
  ((now s).fineIndex + keyLead c * finePerFrame ≤ (fld s (pgCH p c) CH_KEY_F_LO + fld s (pgCH p c) CH_KEY_F_HI * 2 ^ 32) * finePerFrame) := by
  decide +kernel

theorem witness_KeySwitches_2 :
  let s : State := { setFld (setFld (setFld up (pgCH 3 1) CH_KEY_ONU_ID 9) (pgCH 3 1) CH_KEY_NEW_SLOT 2) (pgCH 3 1) CH_KEY_F_LO 1 with pon := { up.pon with onu := [(1541, { OnuRec.init 0 with ch := 1, onuId := 9, valid := true })] } }
  let o : Origin := .pf
  let p : Fin 32 := 3
  let c : Fin 3 := 1
  let i : Nat := 5
  (addrReject s o (pgCH p c + CH_KEY_SW_GO.off) = none) ∧
  (findOnu s p c (fld s (pgCH p c) CH_KEY_ONU_ID) = some i) ∧
  (mayUse (Origin.slice o) (onuOwner s p i) = true) ∧
  (fld s (pgCH p c) CH_KEY_NEW_SLOT = firstSlot c ∨ fld s (pgCH p c) CH_KEY_NEW_SLOT = firstSlot c + 1) ∧
  ((fld s (pgCH p c) CH_KEY_F_LO + fld s (pgCH p c) CH_KEY_F_HI * 2 ^ 32) * finePerFrame < (now s).fineIndex + keyLead c * finePerFrame) := by
  decide +kernel

theorem witness_KeySwitches_3 :
  let s : State := { at_ up 9 0 0 with pon := { up.pon with onu := [(1541, { OnuRec.init 0 with ch := 1, onuId := 9, valid := true })], ch := [(10, { ChSt.init 10 with keySw := some ⟨5, 9, 2, 9⟩ })] } }
  let p : Fin 32 := 3
  let c : Fin 3 := 1
  let k : KeySw := ⟨5, 9, 2, 9⟩
  ((chSt s p c).keySw = some k) ∧
  (k.frame ≤ frame s) ∧
  ((onu s p k.onu).valid = true) ∧
  ((onu s p k.onu).ch = c.val) ∧
  ((onu s p k.onu).onuId = k.onuId) := by
  decide +kernel

theorem witness_KeySwitches_4 :
  let s : State := { at_ up 9 0 0 with pon := { up.pon with ch := [(10, { ChSt.init 10 with keySw := some ⟨5, 9, 2, 9⟩ })] } }
  let p : Fin 32 := 3
  let c : Fin 3 := 1
  let k : KeySw := ⟨5, 9, 2, 9⟩
  ((chSt s p c).keySw = some k) ∧
  (k.frame ≤ frame s) ∧
  ((onu s p k.onu).valid = false ∨ (onu s p k.onu).ch ≠ c.val ∨ (onu s p k.onu).onuId ≠ k.onuId) := by
  decide +kernel

theorem witness_KeySwitches_5 :
  let s : State := { at_ up 9 0 0 with keys := [(1541, { KeyEntry.init 0 with grace := some (1, 8) })] }
  let p : Fin 32 := 3
  let i : Fin 512 := 5
  let j : Nat := 1
  let f : Nat := 8
  ((keyEntry s (512 * p + i)).grace = some (j, f)) ∧
  (f ≤ frame s) := by
  decide +kernel

theorem witness_ProfileWrites_1 :
  let s : State := up
  let o : Origin := .pf
  let p : Fin 32 := 2
  let c : Fin 3 := 1
  let j : Fin 4 := 3
  let w : Fin 9 := 1
  let d : Word := 0x500#32
  let a : Nat := profBase 2 1 3 + 4
  let s1 : State := setReg up (profBase 2 1 3 + 4) (writtenWord .BRX 7 ((profBase 2 1 3 + 4) % 0x1000) false 0x500#32 0)
  (a = profBase p c j + 4 * w) ∧
  (addrReject s o a = none) ∧
  (c.val ≠ 0 ∨ j.val = 0) ∧
  (s1 = setReg s a (writtenWord .BRX (3 * p + c) (a % 0x1000) false d (reg s a))) ∧
  ((profValid (profWords s1 p c j) = true → profRejected s p c (profWords s1 p c j) = false)) ∧
  (entriesBroken s s1 p c = false) := by
  decide +kernel

theorem witness_ProfileWrites_2 :
  let s : State := up
  let o : Origin := .pf
  let p : Fin 32 := 2
  let c : Fin 3 := 1
  let j : Fin 4 := 3
  let w : Fin 9 := 0
  let d : Word := 0x20#32
  let a : Nat := profBase 2 1 3
  let s1 : State := setReg up (profBase 2 1 3) (writtenWord .BRX 7 ((profBase 2 1 3) % 0x1000) false 0x20#32 0)
  (a = profBase p c j + 4 * w) ∧
  (addrReject s o a = none) ∧
  (c.val ≠ 0 ∨ j.val = 0) ∧
  (s1 = setReg s a (writtenWord .BRX (3 * p + c) (a % 0x1000) false d (reg s a))) ∧
  (profValid (profWords s1 p c j) = true) ∧
  (profRejected s p c (profWords s1 p c j) = true) := by
  decide +kernel

theorem witness_ProfileWrites_3 :
  let s : State := up
  let o : Origin := .pf
  let p : Fin 32 := 2
  let j : Fin 4 := 1
  let w : Fin 9 := 0
  let d : Word := 0x20#32
  (addrReject s o (profBase p 0 j + 4 * w) = none) ∧
  (j.val ≠ 0) := by
  decide +kernel

theorem witness_PulsesAndPreloads_1 :
  let s : State := { up with pon := { up.pon with lane := [(7, { LaneSt.init 7 with sched := [(⟨.data, 5, 9, 7, 100, 40, 1, [0, 0, 0, 0, 0, 0, 0, 0], [(0, 0, 40)], false, false, 4000000, 3900000, 4100000, 0, 0, false, false, false, none⟩ : Burst)] })] } }
  let p : Fin 32 := 2
  let c : Fin 3 := 1
  let l : LaneSt := { LaneSt.init 7 with sched := [(⟨.data, 5, 9, 7, 100, 40, 1, [0, 0, 0, 0, 0, 0, 0, 0], [(0, 0, 40)], false, false, 4000000, 3900000, 4100000, 0, 0, false, false, false, none⟩ : Burst)] }
  let b : Burst := (⟨.data, 5, 9, 7, 100, 40, 1, [0, 0, 0, 0, 0, 0, 0, 0], [(0, 0, 40)], false, false, 4000000, 3900000, 4100000, 0, 0, false, false, false, none⟩ : Burst)
  let sw : Bool := true
  (l = lane s p c) ∧
  (l.sched.find? awaitsPulse = some b) ∧
  (sw = needsSwitch (rateBefore awaitsPulse l.rate l.sched) b) ∧
  (guardViolated s p c (endBefore awaitsPulse l.lastEnd l.sched) sw b = false) := by
  decide +kernel

theorem witness_PulsesAndPreloads_2 :
  let s : State := { up with pon := { up.pon with lane := [(7, { LaneSt.init 7 with lastEnd := some 3899990, sched := [(⟨.data, 5, 9, 7, 100, 40, 1, [0, 0, 0, 0, 0, 0, 0, 0], [(0, 0, 40)], false, false, 4000000, 3900000, 4100000, 0, 0, false, false, false, none⟩ : Burst)] })] } }
  let p : Fin 32 := 2
  let c : Fin 3 := 1
  let l : LaneSt := { LaneSt.init 7 with lastEnd := some 3899990, sched := [(⟨.data, 5, 9, 7, 100, 40, 1, [0, 0, 0, 0, 0, 0, 0, 0], [(0, 0, 40)], false, false, 4000000, 3900000, 4100000, 0, 0, false, false, false, none⟩ : Burst)] }
  let b : Burst := (⟨.data, 5, 9, 7, 100, 40, 1, [0, 0, 0, 0, 0, 0, 0, 0], [(0, 0, 40)], false, false, 4000000, 3900000, 4100000, 0, 0, false, false, false, none⟩ : Burst)
  (l = lane s p c) ∧
  (l.sched.find? awaitsPulse = some b) ∧
  (guardViolated s p c (endBefore awaitsPulse l.lastEnd l.sched) (needsSwitch (rateBefore awaitsPulse l.rate l.sched) b) b = true) := by
  decide +kernel

theorem witness_PulsesAndPreloads_3 :
  let s : State := { up with pon := { up.pon with lane := [(7, { LaneSt.init 7 with phase := 3, sched := [(⟨.data, 5, 9, 7, 100, 40, 1, [0, 0, 0, 0, 0, 0, 0, 0], [(0, 0, 40)], false, false, 4000000, 3900000, 4100000, 0, 0, false, true, false, none⟩ : Burst)] })] } }
  let p : Fin 32 := 2
  let c : Fin 3 := 1
  let l : LaneSt := { LaneSt.init 7 with phase := 3, sched := [(⟨.data, 5, 9, 7, 100, 40, 1, [0, 0, 0, 0, 0, 0, 0, 0], [(0, 0, 40)], false, false, 4000000, 3900000, 4100000, 0, 0, false, true, false, none⟩ : Burst)] }
  let b : Burst := (⟨.data, 5, 9, 7, 100, 40, 1, [0, 0, 0, 0, 0, 0, 0, 0], [(0, 0, 40)], false, false, 4000000, 3900000, 4100000, 0, 0, false, true, false, none⟩ : Burst)
  (l = lane s p c) ∧
  (l.sched.find? awaitsPreload = some b) := by
  decide +kernel

theorem witness_PulsesAndPreloads_4 :
  let s : State := { at_ up 1 0 0 with pon := { up.pon with lane := [(7, { LaneSt.init 7 with back := [⟨(⟨.data, 5, 9, 7, 100, 40, 1, [0, 0, 0, 0, 0, 0, 0, 0], [(0, 0, 40)], false, false, 4000000, 3900000, 4100000, 0, 0, false, true, true, none⟩ : Burst), 200, 31, 0, true⟩] })] } }
  let p : Fin 32 := 2
  let c : Fin 3 := 1
  let i : Fin 512 := 5
  let ph : Fin 256 := 200
  let pk : Fin 32 := 31
  let b : Back := ⟨(⟨.data, 5, 9, 7, 100, 40, 1, [0, 0, 0, 0, 0, 0, 0, 0], [(0, 0, 40)], false, false, 4000000, 3900000, 4100000, 0, 0, false, true, true, none⟩ : Burst), 200, 31, 0, true⟩
  ((lane s p c).back.find? (fun x => x.due s i ph pk) = some b) := by
  decide +kernel

theorem witness_PhaseMemoryWindow_1 :
  let s : State := { setFld up (pgBRX 2 1) BRX_PM_IDX 511 with pon := { up.pon with phase := [(4095, ⟨200, 31, 5, 77, true, true⟩)] } }
  let o : Origin := .pf
  let p : Fin 32 := 2
  let c : Fin 3 := 1
  let e : PhaseEntry := ⟨200, 31, 5, 77, true, true⟩
  (addrReject s o (pgBRX p c + BRX_PM_CMD.off) = none) ∧
  (mayUse (Origin.slice o) (onuOwner s p (fld s (pgBRX p c) BRX_PM_IDX)) = true) ∧
  (e = phaseMem s p c (fld s (pgBRX p c) BRX_PM_IDX)) := by
  decide +kernel

theorem witness_PhaseMemoryWindow_2 :
  let s : State := setFld (setFld up (pgBRX 2 1) BRX_PM_IDX 511) (pgBRX 2 1) BRX_PHASE 99
  let o : Origin := .pf
  let p : Fin 32 := 2
  let c : Fin 3 := 1
  (addrReject s o (pgBRX p c + BRX_PM_CMD.off) = none) ∧
  (mayUse (Origin.slice o) (onuOwner s p (fld s (pgBRX p c) BRX_PM_IDX)) = true) := by
  decide +kernel

theorem witness_PhaseMemoryWindow_3 :
  let s : State := setFld (setFld up (pgBRX 2 1) BRX_PM_IDX 511) (pgBRX 2 1) BRX_PHASE 99
  let o : Origin := .pf
  let p : Fin 32 := 2
  let c : Fin 3 := 1
  (addrReject s o (pgBRX p c + BRX_PM_CMD.off) = none) ∧
  (mayUse (Origin.slice o) (onuOwner s p (fld s (pgBRX p c) BRX_PM_IDX)) = true) := by
  decide +kernel

theorem witness_PhaseMemoryWindow_4 :
  let s : State := { setFld up (pgBRX 2 1) BRX_PM_IDX 511 with pon := { up.pon with phase := [(4095, ⟨200, 31, 5, 77, true, true⟩)] } }
  let o : Origin := .pf
  let p : Fin 32 := 2
  let c : Fin 3 := 1
  (addrReject s o (pgBRX p c + BRX_PM_CMD.off) = none) ∧
  (mayUse (Origin.slice o) (onuOwner s p (fld s (pgBRX p c) BRX_PM_IDX)) = true) := by
  decide +kernel

theorem witness_PhaseMemoryWindow_5 :
  let s : State := { setFld (setFld up pgSLC SLC_SLICE_EN 4) (pgBRX 2 1) BRX_PM_IDX 7 with own := { up.own with onu := [(1030, 2)] } }
  let o : Origin := .vf 2
  let p : Fin 32 := 2
  let c : Fin 3 := 1
  let i : Instr := .pmInvalidate (.vf 2) 2 1
  (i = .pmRead o p c ∨ i = .pmWrite o p c false ∨ i = .pmInvalidate o p c) ∧
  (addrReject s o (pgBRX p c + BRX_PM_CMD.off) = none) ∧
  (mayUse (Origin.slice o) (onuOwner s p (fld s (pgBRX p c) BRX_PM_IDX)) = false) := by
  decide +kernel

theorem witness_RssiSignalDetectAndDarkSlots_1 :
  let s : State := setFld (at_ up 3 4 5) (pgBRX 2 1) BRX_RSSI_ONU 511
  let o : Origin := .pf
  let p : Fin 32 := 2
  let c : Fin 3 := 1
  (addrReject s o (pgBRX p c + BRX_RSSI_GO.off) = none) := by
  decide +kernel

theorem witness_RssiSignalDetectAndDarkSlots_2 :
  let s : State := { up with pon := { up.pon with lane := [(7, { LaneSt.init 7 with rssi := some ⟨5, false, 4⟩, sched := [(⟨.data, 5, 9, 7, 100, 40, 1, [0, 0, 0, 0, 0, 0, 0, 0], [(0, 0, 40)], false, false, 4000000, 3900000, 4100000, 0, 0, false, false, false, none⟩ : Burst)] })] } }
  let p : Fin 32 := 2
  let c : Fin 3 := 1
  let w : Nat × Nat := (rssiPulseAt ({ up with pon := { up.pon with lane := [(7, { LaneSt.init 7 with rssi := some ⟨5, false, 4⟩, sched := [(⟨.data, 5, 9, 7, 100, 40, 1, [0, 0, 0, 0, 0, 0, 0, 0], [(0, 0, 40)], false, false, 4000000, 3900000, 4100000, 0, 0, false, false, false, none⟩ : Burst)] })] } }) 2 1).getD (0, 0)
  (rssiPulseAt s p c = some w) ∧
  (rssiBlocked s p c w = false) ∧
  ((List.range 3).all (fun d => d ≤ c.val || (rssiPulseAt s p d).all (fun v => !overlap w v)) = true) := by
  decide +kernel

theorem witness_RssiSignalDetectAndDarkSlots_3 :
  let s : State := { up with pon := { up.pon with lane := [(6, { LaneSt.init 6 with rssi := some ⟨5, false, 4⟩, sched := [(⟨.data, 5, 9, 7, 100, 40, 1, [0, 0, 0, 0, 0, 0, 0, 0], [(0, 0, 40)], false, false, 4000000, 3900000, 4100000, 0, 0, false, false, false, none⟩ : Burst)] }), (7, { LaneSt.init 7 with rssi := some ⟨5, false, 4⟩, sched := [(⟨.data, 5, 9, 7, 100, 40, 1, [0, 0, 0, 0, 0, 0, 0, 0], [(0, 0, 40)], false, false, 4000000, 3900000, 4100000, 0, 0, false, false, false, none⟩ : Burst)] })] } }
  let p : Fin 32 := 2
  let c : Fin 3 := 1
  let w : Nat × Nat := (rssiPulseAt ({ up with pon := { up.pon with lane := [(7, { LaneSt.init 7 with rssi := some ⟨5, false, 4⟩, sched := [(⟨.data, 5, 9, 7, 100, 40, 1, [0, 0, 0, 0, 0, 0, 0, 0], [(0, 0, 40)], false, false, 4000000, 3900000, 4100000, 0, 0, false, false, false, none⟩ : Burst)] })] } }) 2 1).getD (0, 0)
  let r : RssiReq := ⟨5, false, 4⟩
  let b : Burst := (⟨.data, 5, 9, 7, 100, 40, 1, [0, 0, 0, 0, 0, 0, 0, 0], [(0, 0, 40)], false, false, 4000000, 3900000, 4100000, 0, 0, false, false, false, none⟩ : Burst)
  ((lane s p c).rssi = some r) ∧
  (rssiTarget (lane s p c) r = some b) ∧
  (rssiPulseAt s p c = some w) ∧
  (rssiBlocked s p c w = true) := by
  decide +kernel

theorem witness_RssiSignalDetectAndDarkSlots_4 :
  let s : State := setFld up (pgBRX 2 1) BRX_SD_FILT 0
  let p : Fin 32 := 2
  let c : Fin 3 := 1
  let v : Bool := true
  let n : Nat := 1
  (max 1 (fld s (pgBRX p c) BRX_SD_FILT) ≤ n) := by
  decide +kernel

theorem witness_RssiSignalDetectAndDarkSlots_5 :
  let s : State := setFld up (pgBRX 2 1) BRX_SD_FILT 5
  let p : Fin 32 := 2
  let c : Fin 3 := 1
  let v : Bool := true
  let n : Nat := 4
  (n < max 1 (fld s (pgBRX p c) BRX_SD_FILT)) := by
  decide +kernel

theorem witness_RssiSignalDetectAndDarkSlots_6 :
  let s : State := { up with pon := { up.pon with lane := [(7, { LaneSt.init 7 with sched := [(⟨.dark, 512, 0, 7, 100, 40, 0, [], [], false, false, 0, 0, 5000000, 4900000, 5000000, false, true, true, none⟩ : Burst)] })] } }
  let p : Fin 32 := 2
  let c : Fin 3 := 1
  let sd : Bool := true
  let n : Nat := 0
  let d : Burst := (⟨.dark, 512, 0, 7, 100, 40, 0, [], [], false, false, 0, 0, 5000000, 4900000, 5000000, false, true, true, none⟩ : Burst)
  let light : Bool := true
  ((lane s p c).sched.find? (fun x => x.kind == .dark) = some d) ∧
  (light = (2 * fld s (pgBRX p c) BRX_DARK_EDGE < d.size && (sd || (lane s p c).sd || fld s (pgBRX p c) BRX_LIGHT_MIN ≤ n))) := by
  decide +kernel

theorem witness_SurveyAnswers_1 :
  let s : State := up
  let o : Origin := .pf
  let p : Fin 32 := 2
  let c : Fin 3 := 1
  let off : Nat := 0x44
  let d : Word := 0x27100000#32
  let s1 : State := setReg up (pgRNG 2 1 + 0x44) (writtenWord .RNG 7 0x44 false 0x27100000#32 (reg up (pgRNG 2 1 + 0x44)))
  (off = 0x44 ∨ off = 0x48 ∨ off = 0x4C) ∧
  (addrReject s o (pgRNG p c + off) = none) ∧
  (s1 = setReg s (pgRNG p c + off) (writtenWord .RNG (3 * p + c) off false d (reg s (pgRNG p c + off)))) ∧
  (reachRejected s1 p c = false) ∧
  (reachHeld s p c = false) := by
  decide +kernel

theorem witness_SurveyAnswers_2 :
  let s : State := up
  let o : Origin := .pf
  let p : Fin 32 := 2
  let c : Fin 3 := 1
  let off : Nat := 0x44
  let d : Word := 0xFFFF0000#32
  let s1 : State := setReg up (pgRNG 2 1 + 0x44) (writtenWord .RNG 7 0x44 false 0xFFFF0000#32 (reg up (pgRNG 2 1 + 0x44)))
  (off = 0x44 ∨ off = 0x48 ∨ off = 0x4C) ∧
  (addrReject s o (pgRNG p c + off) = none) ∧
  (s1 = setReg s (pgRNG p c + off) (writtenWord .RNG (3 * p + c) off false d (reg s (pgRNG p c + off)))) ∧
  (reachRejected s1 p c = true ∨ reachHeld s p c = true) := by
  decide +kernel

theorem witness_SurveyAnswers_3 :
  let s : State := { up with pon := { up.pon with onu := [(1029, { OnuRec.init 0 with ch := 1, onuId := 9, mtch := 1, valid := true, expSn := 77 })], survey := [(7, { SurveySt.init 7 with wins := [⟨3, 0, 0, 0, false, 0, 100000000000, none, false⟩] })] } }
  let p : Fin 32 := 2
  let c : Fin 3 := 1
  let sn : BitVec 64 := 77
  let hp : Int := 123456
  let w : SurveyWin := ⟨3, 0, 0, 0, false, 0, 100000000000, none, false⟩
  let ws : List SurveyWin := []
  let i : Nat := 5
  let at_ : Nat := (((w.mapFrame * finePerFrame + w.start * unitGt c * 256 : Nat) : Int) + hp).toNat
  ((survey s p c).wins = w :: ws) ∧
  (at_ = (((w.mapFrame * finePerFrame + w.start * unitGt c * 256 : Nat) : Int) + hp).toNat) ∧
  (w.open_ ≤ at_) ∧
  (at_ ≤ w.close) ∧
  ((∀ x, w.found = some x → searchFrom s p c x ≤ at_)) ∧
  (w.heard < fld s (pgRNG p c) RNG_SN_PER_WIN) ∧
  ((channelOnus s p c).any (fun e => e.2.state == stOperation && e.2.seenSn == sn) = false) ∧
  ((snStep1 s p c sn).orElse (fun _ => snStep2 s p c) = some i) ∧
  (snElsewhere s p c i sn = false) ∧
  (hasDefect (onu s p i) dDOWi = false) ∧
  (0 < fld s (pgRNG p (onu s p i).ch) RNG_DOW_FINE) := by
  exact ⟨rfl, rfl, by decide +kernel, by decide +kernel, by simp, by decide +kernel, by decide +kernel, by decide +kernel, by decide +kernel, by decide +kernel, by decide +kernel⟩

theorem witness_SurveyAnswers_4 :
  let s : State := { up with pon := { up.pon with survey := [(7, { SurveySt.init 7 with wins := [⟨3, 0, 0, 0, false, 0, 100000000000, none, false⟩] })] } }
  let p : Fin 32 := 2
  let c : Fin 3 := 1
  let sn : BitVec 64 := 0xABCD00000078
  let hp : Int := 5
  let w : SurveyWin := ⟨3, 0, 0, 0, false, 0, 100000000000, none, false⟩
  let ws : List SurveyWin := []
  let at_ : Nat := (((w.mapFrame * finePerFrame + w.start * unitGt c * 256 : Nat) : Int) + hp).toNat
  ((survey s p c).wins = w :: ws) ∧
  (at_ = (((w.mapFrame * finePerFrame + w.start * unitGt c * 256 : Nat) : Int) + hp).toNat) ∧
  (w.open_ ≤ at_) ∧
  (at_ ≤ w.close) ∧
  ((∀ x, w.found = some x → searchFrom s p c x ≤ at_)) ∧
  (w.heard < fld s (pgRNG p c) RNG_SN_PER_WIN) ∧
  ((channelOnus s p c).any (fun e => e.2.state == stOperation && e.2.seenSn == sn) = false) ∧
  (snStep1 s p c sn = none) ∧
  (snStep2 s p c = none) ∧
  (snStep3 s p c = none) := by
  exact ⟨rfl, rfl, by decide +kernel, by decide +kernel, by simp, by decide +kernel, by decide +kernel, by decide +kernel, by decide +kernel, by decide +kernel⟩

theorem witness_SurveyAnswers_5 :
  let s : State := { up with pon := { up.pon with survey := [(7, { SurveySt.init 7 with run := 2, wins := [⟨3, 0, 0, 0, false, 0, 100000000000, none, false⟩] })] } }
  let p : Fin 32 := 2
  let c : Fin 3 := 1
  let u : Bool := true
  let v : Bool := false
  let w : SurveyWin := ⟨3, 0, 0, 0, false, 0, 100000000000, none, false⟩
  let ws : List SurveyWin := []
  ((survey s p c).wins = w :: ws) ∧
  (u = true ∨ v = true ∨ w.clash = true) := by
  decide +kernel

theorem witness_SurveyAnswers_6 :
  let s : State := setFld { up with pon := { up.pon with survey := [(7, { SurveySt.init 7 with run := 14, wins := [⟨3, 0, 0, 0, false, 0, 100000000000, none, false⟩] })] } } (pgRNG 2 1) RNG_ADAPT_EN 1
  let p : Fin 32 := 2
  let c : Fin 3 := 1
  let w : SurveyWin := ⟨3, 0, 0, 0, false, 0, 100000000000, none, false⟩
  let ws : List SurveyWin := []
  ((survey s p c).wins = w :: ws) ∧
  (w.heard = 0) ∧
  (w.clash = false) ∧
  ((isSet s (pgRNG p c) RNG_ADAPT_EN && fld s (pgRNG p c) RNG_SKIP_AFTER ≤ (survey s p c).run + 1) = true) := by
  decide +kernel

theorem witness_SurveyAnswers_7 :
  let s : State := setFld { up with pon := { up.pon with survey := [(7, { SurveySt.init 7 with run := 14, wins := [⟨3, 0, 0, 0, false, 0, 100000000000, none, false⟩] })] } } (pgRNG 2 1) RNG_ADAPT_EN 0
  let p : Fin 32 := 2
  let c : Fin 3 := 1
  let w : SurveyWin := ⟨3, 0, 0, 0, false, 0, 100000000000, none, false⟩
  let ws : List SurveyWin := []
  ((survey s p c).wins = w :: ws) ∧
  (w.clash = false) ∧
  (0 < w.heard ∨ (isSet s (pgRNG p c) RNG_ADAPT_EN && fld s (pgRNG p c) RNG_SKIP_AFTER ≤ (survey s p c).run + 1) = false) := by
  decide +kernel

theorem witness_RangingAndActivationSteps_1 :
  let s : State := { (at_ up 30 0 0) with pon := { (at_ up 30 0 0).pon with onu := [(1535, { OnuRec.init 0 with ch := 1, onuId := 9, state := 1, valid := true })], rng := [(1535, { RngRec.init 0 with assignSent := some 4 })] } }
  let p : Fin 32 := 2
  let i : Fin 512 := 511
  let f : Nat := 4
  ((onu s p i).state = stAssigned ∨ (onu s p i).state = stRanging) ∧
  ((rng s p i).assignSent = some f) ∧
  ((rng s p i).grantFrame = none) ∧
  ((rng s p i).want = false) ∧
  ((rng s p i).ranged = false) ∧
  (f + fld s (pgRNG p (onu s p i).ch) RNG_RANGE_DELAY ≤ frame s + 1) := by
  decide +kernel

theorem witness_RangingAndActivationSteps_2 :
  let s : State := up
  let p : Fin 32 := 2
  let i : Fin 512 := 511
  ((rng s p i).assignSent = none ∨ (rng s p i).want = true ∨ (rng s p i).ranged = true) := by
  decide +kernel

theorem witness_RangingAndActivationSteps_3 :
  let s : State := { (setFld up (pgRNG 2 1) RNG_US_OFFSET 9000) with pon := { (setFld up (pgRNG 2 1) RNG_US_OFFSET 9000).pon with lane := [(7, { LaneSt.init 7 with sched := [⟨.ranging, 511, 9, 4, 0, 0, 0, [0, 0, 0, 0, 0, 0, 0, 0], [], false, false, 21897236, 21897000, 21898000, 21000000, 22000000, false, false, false, none⟩] })], onu := [(1535, { OnuRec.init 0 with ch := 1, onuId := 9, state := 2, valid := true })], rng := [(1535, { RngRec.init 0 with grantFrame := some 4 })] } }
  let p : Fin 32 := 2
  let i : Fin 512 := 511
  let ns : BitVec 32 := 550000
  let fr : BitVec 8 := 128
  let f : Nat := 4
  let ch : Nat := 1
  let rtd : Int := 1990676
  let x : Int := 313324
  let q : Int := 19583
  (ch = (onu s p i).ch) ∧
  ((onu s p i).state = stRanging) ∧
  ((rng s p i).ranged = false) ∧
  ((rng s p i).grantFrame = some f) ∧
  (rtd = captureFine f ns.toNat fr.toNat - ((f * finePerFrame + (rng s p i).grantS * unitGt ch * 256 : Nat) : Int)) ∧
  (heardInWindow s p ch i (captureFine f ns.toNat fr.toNat) ns.toNat fr.toNat = true) ∧
  (x = eqdFine s p ch rtd) ∧
  (0 ≤ x) ∧
  (q = roundDiv (40 * x) (unit40 ch)) ∧
  (hasDefect (onu s p i) dDOWi = false) ∧
  ((roundDiv (q * unit40 ch - 40 * x) 40).natAbs < fld s (pgRNG p ch) RNG_DOW_FINE) := by
  decide +kernel

theorem witness_RangingAndActivationSteps_4 :
  let s : State := { (setFld up (pgRNG 2 1) RNG_US_OFFSET 7000) with pon := { (setFld up (pgRNG 2 1) RNG_US_OFFSET 7000).pon with lane := [(7, { LaneSt.init 7 with sched := [⟨.ranging, 511, 9, 4, 0, 0, 0, [0, 0, 0, 0, 0, 0, 0, 0], [], false, false, 21897236, 21897000, 21898000, 21000000, 22000000, false, false, false, none⟩] })], onu := [(1535, { OnuRec.init 0 with ch := 1, onuId := 9, state := 2, valid := true })], rng := [(1535, { RngRec.init 0 with grantFrame := some 4 })] } }
  let p : Fin 32 := 2
  let i : Fin 512 := 511
  let ns : BitVec 32 := 550000
  let fr : BitVec 8 := 128
  let f : Nat := 4
  let ch : Nat := 1
  let rtd : Int := 1990676
  (ch = (onu s p i).ch) ∧
  ((onu s p i).state = stRanging) ∧
  ((rng s p i).ranged = false) ∧
  ((rng s p i).grantFrame = some f) ∧
  (rtd = captureFine f ns.toNat fr.toNat - ((f * finePerFrame + (rng s p i).grantS * unitGt ch * 256 : Nat) : Int)) ∧
  (heardInWindow s p ch i (captureFine f ns.toNat fr.toNat) ns.toNat fr.toNat = true) ∧
  (eqdFine s p ch rtd < 0) := by
  decide +kernel

theorem witness_RangingAndActivationSteps_5 :
  let s : State := { up with pon := { up.pon with onu := [(1535, { OnuRec.init 0 with ch := 1, onuId := 9, state := 2, valid := true })], rng := [(1535, { RngRec.init 0 with grantFrame := some 4, tries := 1 })] } }
  let p : Fin 32 := 2
  let i : Fin 512 := 511
  ((onu s p i).state = stRanging) ∧
  ((rng s p i).grantFrame ≠ none) ∧
  ((rng s p i).ranged = false) ∧
  ((rng s p i).tries < fld s (pgRNG p (onu s p i).ch) RNG_RANGE_TRIES) := by
  decide +kernel

theorem witness_RangingAndActivationSteps_6 :
  let s : State := { up with pon := { up.pon with onu := [(1535, { OnuRec.init 0 with ch := 1, onuId := 9, state := 2, valid := true })], rng := [(1535, { RngRec.init 0 with grantFrame := some 4, tries := 15 })] } }
  let p : Fin 32 := 2
  let i : Fin 512 := 511
  ((onu s p i).state = stRanging) ∧
  ((rng s p i).grantFrame ≠ none) ∧
  ((rng s p i).ranged = false) ∧
  (fld s (pgRNG p (onu s p i).ch) RNG_RANGE_TRIES ≤ (rng s p i).tries) := by
  decide +kernel

theorem witness_RangingAndActivationSteps_7 :
  let s : State := { up with pon := { up.pon with onu := [(1535, { OnuRec.init 0 with ch := 0, onuId := 9, state := 3, valid := true, expReg := (7#288 <<< 208) + 5 })] } }
  let p : Fin 32 := 2
  let i : Fin 512 := 511
  let id : BitVec 288 := (7#288 <<< 208) + 99
  ((onu s p i).state = stRegister) ∧
  (regMatches (onu s p i).ch (onu s p i).expReg id = true) := by
  decide +kernel

theorem witness_RangingAndActivationSteps_8 :
  let s : State := { up with pon := { up.pon with onu := [(1535, { OnuRec.init 0 with ch := 1, onuId := 9, state := 3, valid := true, expReg := 7 })] } }
  let p : Fin 32 := 2
  let i : Fin 512 := 511
  let id : BitVec 288 := 8
  ((onu s p i).state = stRegister) ∧
  (regMatches (onu s p i).ch (onu s p i).expReg id = false) := by
  decide +kernel

theorem witness_RangingAndActivationSteps_9 :
  let s : State := { (at_ up 70000 0 0) with pon := { (at_ up 70000 0 0).pon with onu := [(1535, { OnuRec.init 0 with ch := 1, onuId := 9, state := 3, valid := true })] } }
  let p : Fin 32 := 2
  let i : Fin 512 := 511
  ((onu s p i).state = stRegister) ∧
  ((rng s p i).since + fld s (pgRNG p (onu s p i).ch) RNG_T_REG ≤ frame s) := by
  decide +kernel

theorem witness_RangingAndActivationSteps_10 :
  let s : State := { (at_ up 70000 0 0) with pon := { (at_ up 70000 0 0).pon with onu := [(1535, { OnuRec.init 0 with ch := 1, onuId := 9, state := 5, valid := true })] } }
  let p : Fin 32 := 2
  let i : Fin 512 := 511
  ((onu s p i).state = stPopup) ∧
  ((rng s p i).since + fld s (pgRNG p (onu s p i).ch) RNG_T_POPUP ≤ frame s) := by
  decide +kernel

theorem witness_RangingAndActivationSteps_11 :
  let s : State := { at_ up 70000 0 0 with pon := { up.pon with rng := [(1535, { RngRec.init 0 with adj := true, sends := 2, delta := 4 })] } }
  let p : Fin 32 := 2
  let i : Fin 512 := 511
  ((rng s p i).adj = true) ∧
  ((rng s p i).adjSent + fld s (pgRNG p (onu s p i).ch) RNG_T_EQD ≤ frame s) ∧
  ((rng s p i).sends < 3) := by
  decide +kernel

theorem witness_RangingAndActivationSteps_12 :
  let s : State := { at_ up 70000 0 0 with pon := { up.pon with rng := [(1535, { RngRec.init 0 with adj := true, sends := 3, delta := 4 })] } }
  let p : Fin 32 := 2
  let i : Fin 512 := 511
  ((rng s p i).adj = true) ∧
  ((rng s p i).adjSent + fld s (pgRNG p (onu s p i).ch) RNG_T_EQD ≤ frame s) ∧
  (3 ≤ (rng s p i).sends) := by
  decide +kernel

theorem witness_RangingWindow_1 :
  let s : State := { setFld (setFld up (pgRNG 2 1) RNG_RG_IDX 511) (pgRNG 2 1) RNG_EQD 5000 with pon := { up.pon with onu := [(1535, { OnuRec.init 0 with ch := 1, onuId := 9, state := 4, valid := true })], rng := [(1535, { RngRec.init 0 with eqd := 4321, res := -3, sends := 2 })] } }
  let o : Origin := .pf
  let p : Fin 32 := 2
  let c : Fin 3 := 1
  (addrReject s o (pgRNG p c + RNG_RG_CMD.off) = none) ∧
  (mayUse (Origin.slice o) (onuOwner s p (fld s (pgRNG p c) RNG_RG_IDX)) = true) ∧
  ((onu s p (fld s (pgRNG p c) RNG_RG_IDX)).valid = true) ∧
  ((onu s p (fld s (pgRNG p c) RNG_RG_IDX)).ch = c.val) := by
  decide +kernel

theorem witness_RangingWindow_2 :
  let s : State := { setFld (setFld up (pgRNG 2 1) RNG_RG_IDX 511) (pgRNG 2 1) RNG_EQD 5000 with pon := { up.pon with onu := [(1535, { OnuRec.init 0 with ch := 1, onuId := 9, state := 4, valid := true })], rng := [(1535, { RngRec.init 0 with eqd := 4321, res := -3, sends := 2 })] } }
  let o : Origin := .pf
  let p : Fin 32 := 2
  let c : Fin 3 := 1
  (addrReject s o (pgRNG p c + RNG_RG_CMD.off) = none) ∧
  (mayUse (Origin.slice o) (onuOwner s p (fld s (pgRNG p c) RNG_RG_IDX)) = true) ∧
  ((onu s p (fld s (pgRNG p c) RNG_RG_IDX)).valid = true) ∧
  ((onu s p (fld s (pgRNG p c) RNG_RG_IDX)).ch = c.val) ∧
  (rgStateOk (onu s p (fld s (pgRNG p c) RNG_RG_IDX)) = true) := by
  decide +kernel

theorem witness_RangingWindow_3 :
  let s : State := { setFld (setFld up (pgRNG 2 1) RNG_RG_IDX 511) (pgRNG 2 1) RNG_EQD 5000 with pon := { up.pon with onu := [(1535, { OnuRec.init 0 with ch := 1, onuId := 9, state := 4, valid := true })], rng := [(1535, { RngRec.init 0 with eqd := 4321, res := -3, sends := 2 })] } }
  let o : Origin := .pf
  let p : Fin 32 := 2
  let c : Fin 3 := 1
  (addrReject s o (pgRNG p c + RNG_RG_CMD.off) = none) ∧
  (mayUse (Origin.slice o) (onuOwner s p (fld s (pgRNG p c) RNG_RG_IDX)) = true) ∧
  ((onu s p (fld s (pgRNG p c) RNG_RG_IDX)).valid = true) ∧
  ((onu s p (fld s (pgRNG p c) RNG_RG_IDX)).ch = c.val) := by
  decide +kernel

theorem witness_RangingWindow_4 :
  let s : State := { setFld (setFld up (pgRNG 2 1) RNG_RG_IDX 511) (pgRNG 2 1) RNG_EQD 5000 with pon := { up.pon with onu := [(1535, { OnuRec.init 0 with ch := 1, onuId := 9, state := 5, valid := true })], rng := [(1535, { RngRec.init 0 with eqd := 4321, res := -3, sends := 2 })] } }
  let o : Origin := .pf
  let p : Fin 32 := 2
  let c : Fin 3 := 1
  (addrReject s o (pgRNG p c + RNG_RG_CMD.off) = none) ∧
  (mayUse (Origin.slice o) (onuOwner s p (fld s (pgRNG p c) RNG_RG_IDX)) = true) ∧
  ((onu s p (fld s (pgRNG p c) RNG_RG_IDX)).valid = true) ∧
  ((onu s p (fld s (pgRNG p c) RNG_RG_IDX)).ch = c.val) ∧
  (rgStateOk (onu s p (fld s (pgRNG p c) RNG_RG_IDX)) = true) := by
  decide +kernel

theorem witness_RangingWindow_5 :
  let s : State := { setFld (setFld up (pgRNG 2 1) RNG_RG_IDX 511) (pgRNG 2 1) RNG_EQD 5000 with pon := { up.pon with onu := [(1535, { OnuRec.init 0 with ch := 1, onuId := 9, state := 2, valid := true })], rng := [(1535, { RngRec.init 0 with eqd := 4321, res := -3, sends := 2 })] } }
  let o : Origin := .pf
  let p : Fin 32 := 2
  let c : Fin 3 := 1
  let i : Instr := .rgRerange .pf 2 1
  (i = .rgSetEqd o p c false ∨ i = .rgRerange o p c) ∧
  (addrReject s o (pgRNG p c + RNG_RG_CMD.off) = none) ∧
  (mayUse (Origin.slice o) (onuOwner s p (fld s (pgRNG p c) RNG_RG_IDX)) = true) ∧
  ((onu s p (fld s (pgRNG p c) RNG_RG_IDX)).valid = true) ∧
  ((onu s p (fld s (pgRNG p c) RNG_RG_IDX)).ch = c.val) ∧
  (rgStateOk (onu s p (fld s (pgRNG p c) RNG_RG_IDX)) = false) := by
  decide +kernel

theorem witness_RangingWindow_6 :
  let s : State := { setFld (setFld up (pgRNG 2 1) RNG_RG_IDX 511) (pgRNG 2 1) RNG_EQD 5000 with pon := { up.pon with onu := [(1535, { OnuRec.init 0 with ch := 2, onuId := 9, state := 4, valid := true })], rng := [(1535, { RngRec.init 0 with eqd := 4321, res := -3, sends := 2 })] } }
  let o : Origin := .pf
  let p : Fin 32 := 2
  let c : Fin 3 := 1
  let i : Instr := .rgRead .pf 2 1
  (i = .rgRead o p c ∨ i = .rgSetEqd o p c false ∨ i = .rgRerange o p c) ∧
  (addrReject s o (pgRNG p c + RNG_RG_CMD.off) = none) ∧
  (mayUse (Origin.slice o) (onuOwner s p (fld s (pgRNG p c) RNG_RG_IDX)) = true) ∧
  ((onu s p (fld s (pgRNG p c) RNG_RG_IDX)).valid = true) ∧
  ((onu s p (fld s (pgRNG p c) RNG_RG_IDX)).ch ≠ c.val) := by
  decide +kernel

theorem witness_BurstReception_1 :
  let s : State := up
  let p : Fin 32 := 2
  let c : Fin 3 := 1
  let b : BurstIn := (⟨[(1, 2), (-1, 0)], 200, 30, .ok, 0, 9, [], 100, none, [⟨77, 30, .ok, true, true, 0, none, []⟩], [], false, [], false, 800⟩ : BurstIn)
  ((lane s p c).sched.find? (fun g => g.kind.ofOnu) = none) := by
  decide +kernel

theorem witness_BurstReception_2 :
  let s : State := { up with pon := { up.pon with lane := [(7, { LaneSt.init 7 with sched := [(⟨.data, 5, 9, 7, 100, 40, 1, [0, 0, 0, 0, 0, 0, 0, 0], [(0, 0, 40)], false, false, 4000000, 3900000, 4100000, 0, 0, false, true, true, none⟩ : Burst)] })] } }
  let p : Fin 32 := 2
  let c : Fin 3 := 1
  let b : BurstIn := (⟨[(1, 2), (-1, 0)], 200, 30, .ok, 0, 9, [], 100, none, [⟨77, 30, .ok, true, true, 0, none, []⟩], [], false, [], false, 800⟩ : BurstIn)
  let g : Burst := (⟨.data, 5, 9, 7, 100, 40, 1, [0, 0, 0, 0, 0, 0, 0, 0], [(0, 0, 40)], false, false, 4000000, 3900000, 4100000, 0, 0, false, true, true, none⟩ : Burst)
  ((lane s p c).sched.find? (fun g => g.kind.ofOnu) = some g) ∧
  (active s (pgBRX p c) BRX_RX_EN = false) := by
  decide +kernel

theorem witness_BurstReception_3 :
  let s : State := setFld ({ up with pon := { up.pon with lane := [(7, { LaneSt.init 7 with sched := [(⟨.data, 5, 9, 7, 100, 40, 1, [0, 0, 0, 0, 0, 0, 0, 0], [(0, 0, 40)], false, false, 4000000, 3900000, 4100000, 0, 0, false, true, true, none⟩ : Burst)] })] } }) (pgBRX 2 1) BRX_RX_EN 1
  let p : Fin 32 := 2
  let c : Fin 3 := 1
  let b : BurstIn := (⟨[(1, 2)], 200, 30, .ok, 0, 9, [], 100, none, [⟨77, 30, .ok, true, true, 0, none, []⟩], [], false, [], false, 800⟩ : BurstIn)
  let g : Burst := (⟨.data, 5, 9, 7, 100, 40, 1, [0, 0, 0, 0, 0, 0, 0, 0], [(0, 0, 40)], false, false, 4000000, 3900000, 4100000, 0, 0, false, true, true, none⟩ : Burst)
  ((lane s p c).sched.find? (fun g => g.kind.ofOnu) = some g) ∧
  (active s (pgBRX p c) BRX_RX_EN = true) ∧
  (delimFound (fld s (pgBRX p c) BRX_DELIM_WIN) (profDelimThr g.words) b.found = none) := by
  decide +kernel

theorem witness_BurstReception_4 :
  let s : State := setFld (setFld ({ up with pon := { up.pon with lane := [(7, { LaneSt.init 7 with sched := [(⟨.data, 5, 9, 7, 100, 40, 1, [0, 0, 0, 0, 0, 0, 0, 0], [(0, 0, 40)], false, false, 4000000, 3900000, 4100000, 0, 0, false, true, true, none⟩ : Burst)] })] } }) (pgBRX 2 1) BRX_RX_EN 1) (pgBRX 2 1) BRX_DELIM_WIN 4
  let p : Fin 32 := 2
  let c : Fin 3 := 1
  let b : BurstIn := (⟨[(1, 2), (-1, 0)], 200, 30, .ok, 0, 9, [], 100, none, [⟨77, 30, .ok, true, true, 0, none, []⟩], [], false, [], false, 800⟩ : BurstIn)
  let g : Burst := (⟨.data, 5, 9, 7, 100, 40, 1, [0, 0, 0, 0, 0, 0, 0, 0], [(0, 0, 40)], false, false, 4000000, 3900000, 4100000, 0, 0, false, true, true, none⟩ : Burst)
  let q : Int := -1
  ((lane s p c).sched.find? (fun g => g.kind.ofOnu) = some g) ∧
  (active s (pgBRX p c) BRX_RX_EN = true) ∧
  (delimFound (fld s (pgBRX p c) BRX_DELIM_WIN) (profDelimThr g.words) b.found = some q) := by
  decide +kernel

theorem witness_BurstReception_5 :
  let s : State := setFld (setFld (setFld ({ up with pon := { up.pon with lane := [(7, { LaneSt.init 7 with sched := [(⟨.data, 5, 9, 7, 100, 40, 1, [0, 0, 0, 0, 0, 0, 0, 0], [(0, 0, 40)], false, false, 4000000, 3900000, 4100000, 0, 0, false, true, true, none⟩ : Burst)] })] } }) (pgBRX 2 1) BRX_RX_EN 1) (pgBRX 2 1) BRX_DELIM_WIN 4) (pgCH 2 1) CH_US_EN 1
  let p : Fin 32 := 2
  let c : Fin 3 := 1
  let b : BurstIn := (⟨[(1, 2), (-1, 0)], 200, 30, .ok, 0, 9, [], 100, none, [⟨77, 30, .ok, true, true, 0, none, []⟩], [], false, [], false, 800⟩ : BurstIn)
  let g : Burst := (⟨.data, 5, 9, 7, 100, 40, 1, [0, 0, 0, 0, 0, 0, 0, 0], [(0, 0, 40)], false, false, 4000000, 3900000, 4100000, 0, 0, false, true, true, none⟩ : Burst)
  let q : Int := -1
  ((lane s p c).sched.find? (fun g => g.kind.ofOnu) = some g) ∧
  (active s (pgBRX p c) BRX_RX_EN = true) ∧
  (active s (pgCH p c) CH_US_EN = true) ∧
  (delimFound (fld s (pgBRX p c) BRX_DELIM_WIN) (profDelimThr g.words) b.found = some q) ∧
  (c.val = 0 ∨ b.hdr ≠ .uncorrectable) ∧
  (b.onuId = g.onuId) := by
  decide +kernel

theorem witness_BurstReception_6 :
  let s : State := setFld (setFld (setFld ({ up with pon := { up.pon with lane := [(7, { LaneSt.init 7 with sched := [(⟨.data, 5, 9, 7, 100, 40, 1, [0, 0, 0, 0, 0, 0, 0, 0], [(0, 0, 40)], false, false, 4000000, 3900000, 4100000, 0, 0, false, true, true, none⟩ : Burst)] })] } }) (pgBRX 2 1) BRX_RX_EN 1) (pgBRX 2 1) BRX_DELIM_WIN 4) (pgCH 2 1) CH_US_EN 1
  let p : Fin 32 := 2
  let c : Fin 3 := 1
  let b : BurstIn := (⟨[(1, 2), (-1, 0)], 200, 30, .ok, 0, 8, [], 100, none, [⟨77, 30, .ok, true, true, 0, none, []⟩], [], false, [], false, 800⟩ : BurstIn)
  let g : Burst := (⟨.data, 5, 9, 7, 100, 40, 1, [0, 0, 0, 0, 0, 0, 0, 0], [(0, 0, 40)], false, false, 4000000, 3900000, 4100000, 0, 0, false, true, true, none⟩ : Burst)
  let q : Int := -1
  ((lane s p c).sched.find? (fun g => g.kind.ofOnu) = some g) ∧
  (active s (pgBRX p c) BRX_RX_EN = true) ∧
  (active s (pgCH p c) CH_US_EN = true) ∧
  (delimFound (fld s (pgBRX p c) BRX_DELIM_WIN) (profDelimThr g.words) b.found = some q) ∧
  (c.val = 0 ∨ b.hdr ≠ .uncorrectable) ∧
  (b.onuId ≠ g.onuId) := by
  decide +kernel

theorem witness_MapPass_1 :
  let s : State := setFld (at_ up 30 100 0) (pgALC 2 1) ALC_ALC_EN 1
  let p : Fin 32 := 2
  let c : Fin 3 := 1
  ((now s).tick < tOut) ∧
  ((∀ m ∈ (allocCh s p c).map, m.frame < frame s + 1)) ∧
  (tickInFrame s (gtPerFrame - fld s (pgALC p c) ALC_BUILD_GT) = true) ∧
  (active s (pgALC p c) ALC_ALC_EN = true) := by
  decide +kernel

theorem witness_MapPass_2 :
  let s : State := at_ up 30 100 0
  let p : Fin 32 := 2
  let c : Fin 3 := 0
  ((now s).tick < tOut) ∧
  ((∀ m ∈ (allocCh s p c).map, m.frame < frame s + 1)) ∧
  (tickInFrame s (gtPerFrame - fld s (pgALC p c) ALC_BUILD_GT) = true) ∧
  (active s (pgALC p c) ALC_ALC_EN = false) := by
  decide +kernel

theorem witness_MapPass_3 :
  let s : State := (let a := at_ up 30 100 0; { a with grid := { a.grid with frameLen := 256000 } })
  let p : Fin 32 := 2
  let c : Fin 3 := 0
  ((now s).tick < tOut) ∧
  ((∀ m ∈ (allocCh s p c).map, m.frame < frame s + 1)) ∧
  (tickInFrame s (gtPerFrame - fld s (pgALC p c) ALC_BUILD_GT) = false) := by
  decide +kernel

theorem witness_MapPass_4 :
  let s : State := { (at_ up 30 100 0) with pon := { (at_ up 30 100 0).pon with alloc := [(7, { AllocCh.init 7 with map := some ⟨31, [(⟨.data, 5, 9, 7, 100, 40, 1, [0, 0, 0, 0, 0, 0, 0, 0], [(0, 0, 40)], false, false, 4000000, 3900000, 4100000, 0, 0, false, false, false, none⟩ : Burst)], 1, 9000, 0, false⟩ })] } }
  let p : Fin 32 := 2
  let c : Fin 3 := 1
  let n : Nat := 5
  let m : BwMap := ⟨31, [(⟨.data, 5, 9, 7, 100, 40, 1, [0, 0, 0, 0, 0, 0, 0, 0], [(0, 0, 40)], false, false, 4000000, 3900000, 4100000, 0, 0, false, false, false, none⟩ : Burst)], 1, 9000, 0, false⟩
  ((allocCh s p c).map = some m) ∧
  (m.sealed_ = false) ∧
  (m.frame = frame s + 1) ∧
  (n ≤ fld s (pgALC p c) ALC_BUILD_GT - 32 - fld s (pgALC p c) ALC_CLOSE_GT) := by
  decide +kernel

theorem witness_MapPass_5 :
  let s : State := (let a := at_ up 30 100 0; { a with pon := { a.pon with alloc := [(7, { AllocCh.init 7 with map := some ⟨31, [(⟨.data, 5, 9, 7, 100, 40, 1, [0, 0, 0, 0, 0, 0, 0, 0], [(0, 0, 40)], false, false, 4000000, 3900000, 4100000, 0, 0, false, false, false, none⟩ : Burst)], 1, 9000, 0, false⟩ })] } })
  let p : Fin 32 := 2
  let c : Fin 3 := 1
  let n : Nat := 99999
  let m : BwMap := ⟨31, [(⟨.data, 5, 9, 7, 100, 40, 1, [0, 0, 0, 0, 0, 0, 0, 0], [(0, 0, 40)], false, false, 4000000, 3900000, 4100000, 0, 0, false, false, false, none⟩ : Burst)], 1, 9000, 0, false⟩
  ((allocCh s p c).map = some m) ∧
  (m.sealed_ = false) ∧
  (m.frame = frame s + 1) ∧
  (fld s (pgALC p c) ALC_BUILD_GT - 32 - fld s (pgALC p c) ALC_CLOSE_GT < n) := by
  decide +kernel

theorem witness_MapPass_6 :
  let s : State := { (at_ up 30 19408 0) with pon := { (at_ up 30 19408 0).pon with alloc := [(7, { AllocCh.init 7 with map := some ⟨31, [(⟨.data, 5, 9, 7, 100, 40, 1, [0, 0, 0, 0, 0, 0, 0, 0], [(0, 0, 40)], false, false, 4000000, 3900000, 4100000, 0, 0, false, false, false, none⟩ : Burst), (⟨.data, 6, 9, 7, 10, 40, 1, [0, 0, 0, 0, 0, 0, 0, 0], [(0, 0, 40)], false, false, 4000000, 3900000, 4100000, 0, 0, false, false, false, none⟩ : Burst)], 1, 9000, 0, true⟩ })] } }
  let p : Fin 32 := 2
  let c : Fin 3 := 1
  let m : BwMap := ⟨31, [(⟨.data, 5, 9, 7, 100, 40, 1, [0, 0, 0, 0, 0, 0, 0, 0], [(0, 0, 40)], false, false, 4000000, 3900000, 4100000, 0, 0, false, false, false, none⟩ : Burst), (⟨.data, 6, 9, 7, 10, 40, 1, [0, 0, 0, 0, 0, 0, 0, 0], [(0, 0, 40)], false, false, 4000000, 3900000, 4100000, 0, 0, false, false, false, none⟩ : Burst)], 1, 9000, 0, true⟩
  ((allocCh s p c).map = some m) ∧
  (m.frame = frame s + 1) ∧
  (m.sealed_ = true) ∧
  (tickInFrame s tOut = true) ∧
  ((now (reachTick s tOut)).fineIndex + 16 * finePerGt ≤ (mapAction p c (frame s + 1)).pos.fineIndex) := by
  decide +kernel

theorem witness_MapPass_7 :
  let s : State := (let a := at_ up 30 900 0; { a with pon := { a.pon with alloc := [(7, { AllocCh.init 7 with map := some ⟨31, [(⟨.data, 5, 9, 7, 100, 40, 1, [0, 0, 0, 0, 0, 0, 0, 0], [(0, 0, 40)], false, false, 4000000, 3900000, 4100000, 0, 0, false, false, false, none⟩ : Burst)], 1, 9000, 0, true⟩ })] }, grid := { a.grid with frameLen := 256000 } })
  let p : Fin 32 := 2
  let c : Fin 3 := 1
  let m : BwMap := ⟨31, [(⟨.data, 5, 9, 7, 100, 40, 1, [0, 0, 0, 0, 0, 0, 0, 0], [(0, 0, 40)], false, false, 4000000, 3900000, 4100000, 0, 0, false, false, false, none⟩ : Burst)], 1, 9000, 0, true⟩
  ((allocCh s p c).map = some m) ∧
  (m.frame = frame s + 1) ∧
  (m.sealed_ = true) ∧
  (tickInFrame s tOut = false) := by
  decide +kernel

theorem witness_MapPass_8 :
  let s : State := { (at_ up 30 19408 0) with pon := { (at_ up 30 19408 0).pon with alloc := [(7, { AllocCh.init 7 with map := some ⟨31, [(⟨.data, 5, 9, 7, 100, 40, 1, [0, 0, 0, 0, 0, 0, 0, 0], [(0, 0, 40)], false, false, 4000000, 3900000, 4100000, 0, 0, false, false, false, none⟩ : Burst)], 1, 9000, 0, false⟩ })] } }
  let p : Fin 32 := 2
  let c : Fin 3 := 1
  let m : BwMap := ⟨31, [(⟨.data, 5, 9, 7, 100, 40, 1, [0, 0, 0, 0, 0, 0, 0, 0], [(0, 0, 40)], false, false, 4000000, 3900000, 4100000, 0, 0, false, false, false, none⟩ : Burst)], 1, 9000, 0, false⟩
  ((allocCh s p c).map = some m) ∧
  (m.frame = frame s + 1) ∧
  (m.sealed_ = false) := by
  decide +kernel

theorem witness_DescriptorsAndBurstSettings_1 :
  let s : State := { setReg (setReg (setReg (setReg (setFld up (pgALC 2 1) ALC_AD_IDX 2047) (pgALC 2 1 + 0x8C) 0#32) (pgALC 2 1 + 0x98) 5000#32) (pgALC 2 1 + 0x9C) 0#32) (pgALC 2 1 + 0x94) 0#32 with pon := { up.pon with onu := [(1029, { OnuRec.init 0 with ch := 1, onuId := 9, state := 4, valid := true })], ad := [(6143, { AdRec.init 0 with allocId := 77, onu := 5, valid := true, granted := 0x123456789 })] } }
  let o : Origin := .pf
  let p : Fin 32 := 2
  let c : Fin 3 := 1
  let d : AdRec := { AdRec.init 0 with allocId := 77, onu := 5, valid := true, granted := 0x123456789 }
  (addrReject s o (pgALC p c + ALC_AD_CMD.off) = none) ∧
  (d = ad s p (fld s (pgALC p c) ALC_AD_IDX)) ∧
  (adReadable s p (Origin.slice o) d = true) ∧
  (adElsewhere s p c d = false) := by
  decide +kernel

theorem witness_DescriptorsAndBurstSettings_2 :
  let s : State := { setReg (setReg (setReg (setReg (setFld up (pgALC 2 1) ALC_AD_IDX 2047) (pgALC 2 1 + 0x8C) 0x00814401#32) (pgALC 2 1 + 0x98) 5000#32) (pgALC 2 1 + 0x9C) 7#32) (pgALC 2 1 + 0x94) 0#32 with pon := { up.pon with onu := [(1029, { OnuRec.init 0 with ch := 1, onuId := 9, state := 4, valid := true })], ad := [(6143, { AdRec.init 0 with allocId := 77, onu := 5, valid := true, granted := 0x123456789 })] } }
  let o : Origin := .pf
  let p : Fin 32 := 2
  let c : Fin 3 := 1
  let d : AdRec := { AdRec.init 0 with allocId := 77, onu := 5, valid := true, granted := 0x123456789 }
  let n : AdRec := adOfWindow ({ setReg (setReg (setReg (setReg (setFld up (pgALC 2 1) ALC_AD_IDX 2047) (pgALC 2 1 + 0x8C) 0x00814401#32) (pgALC 2 1 + 0x98) 5000#32) (pgALC 2 1 + 0x9C) 7#32) (pgALC 2 1 + 0x94) 0#32 with pon := { up.pon with onu := [(1029, { OnuRec.init 0 with ch := 1, onuId := 9, state := 4, valid := true })], ad := [(6143, { AdRec.init 0 with allocId := 77, onu := 5, valid := true, granted := 0x123456789 })] } }) 2 1 { AdRec.init 0 with allocId := 77, onu := 5, valid := true, granted := 0x123456789 }
  (addrReject s o (pgALC p c + ALC_AD_CMD.off) = none) ∧
  (d = ad s p (fld s (pgALC p c) ALC_AD_IDX)) ∧
  (n = adOfWindow s p c d) ∧
  ((!d.valid || mayUse (Origin.slice o) (onuOwner s p d.onu)) = true) ∧
  (mayUse (Origin.slice o) (onuOwner s p n.onu) = true) ∧
  (adElsewhere s p c d = false) ∧
  (adElsewhere s p c n = false) ∧
  ((n.valid = true → adRejected s p c (fld s (pgALC p c) ALC_AD_IDX) n = false)) ∧
  ((n.valid = true → guarBad s p c (guarSum s p c (adsWith s p c (fld s (pgALC p c) ALC_AD_IDX) n) (busiestFrame s p c 16 (·.size) none)) = false)) := by
  decide +kernel

theorem witness_DescriptorsAndBurstSettings_3 :
  let s : State := { setReg (setReg (setReg (setReg (setFld up (pgALC 2 1) ALC_AD_IDX 2047) (pgALC 2 1 + 0x8C) 0x00814401#32) (pgALC 2 1 + 0x98) 5000#32) (pgALC 2 1 + 0x9C) 0#32) (pgALC 2 1 + 0x94) 0#32 with pon := { up.pon with onu := [(1029, { OnuRec.init 0 with ch := 1, onuId := 9, state := 4, valid := true })], ad := [(6143, { AdRec.init 0 with allocId := 77, onu := 5, valid := true, granted := 0x123456789 })] } }
  let o : Origin := .pf
  let p : Fin 32 := 2
  let c : Fin 3 := 1
  let d : AdRec := { AdRec.init 0 with allocId := 77, onu := 5, valid := true, granted := 0x123456789 }
  let n : AdRec := adOfWindow ({ setReg (setReg (setReg (setReg (setFld up (pgALC 2 1) ALC_AD_IDX 2047) (pgALC 2 1 + 0x8C) 0x00814401#32) (pgALC 2 1 + 0x98) 5000#32) (pgALC 2 1 + 0x9C) 0#32) (pgALC 2 1 + 0x94) 0#32 with pon := { up.pon with onu := [(1029, { OnuRec.init 0 with ch := 1, onuId := 9, state := 4, valid := true })], ad := [(6143, { AdRec.init 0 with allocId := 77, onu := 5, valid := true, granted := 0x123456789 })] } }) 2 1 { AdRec.init 0 with allocId := 77, onu := 5, valid := true, granted := 0x123456789 }
  (addrReject s o (pgALC p c + ALC_AD_CMD.off) = none) ∧
  (d = ad s p (fld s (pgALC p c) ALC_AD_IDX)) ∧
  (n = adOfWindow s p c d) ∧
  ((!d.valid || mayUse (Origin.slice o) (onuOwner s p d.onu)) = true) ∧
  (mayUse (Origin.slice o) (onuOwner s p n.onu) = true) ∧
  (adElsewhere s p c d = false) ∧
  (adElsewhere s p c n = false) ∧
  (n.valid = true) ∧
  (adRejected s p c (fld s (pgALC p c) ALC_AD_IDX) n = true) := by
  decide +kernel

theorem witness_DescriptorsAndBurstSettings_4 :
  let s : State := { setReg (setReg (setReg (setReg (setFld up (pgALC 2 1) ALC_AD_IDX 2047) (pgALC 2 1 + 0x8C) 0#32) (pgALC 2 1 + 0x98) 5000#32) (pgALC 2 1 + 0x9C) 0#32) (pgALC 2 1 + 0x94) 0#32 with pon := { up.pon with onu := [(1029, { OnuRec.init 0 with ch := 1, onuId := 9, state := 4, valid := true })], ad := [(6143, { AdRec.init 0 with allocId := 77, onu := 5, valid := true, granted := 0x123456789 })] } }
  let o : Origin := .pf
  let p : Fin 32 := 2
  let c : Fin 3 := 1
  let d : AdRec := { AdRec.init 0 with allocId := 77, onu := 5, valid := true, granted := 0x123456789 }
  (addrReject s o (pgALC p c + ALC_AD_CMD.off) = none) ∧
  (d = ad s p (fld s (pgALC p c) ALC_AD_IDX)) ∧
  (mayUse (Origin.slice o) (if d.valid then onuOwner s p d.onu else portOwner s p) = true) ∧
  (adElsewhere s p c d = false) := by
  decide +kernel

theorem witness_DescriptorsAndBurstSettings_5 :
  let s : State := { setFld up (pgALC 2 1) ALC_OB_IDX 511 with pon := { up.pon with ob := [(1535, ⟨3, 2, true, 1⟩)] } }
  let o : Origin := .pf
  let p : Fin 32 := 2
  let c : Fin 3 := 1
  (addrReject s o (pgALC p c + ALC_OB_CMD.off) = none) ∧
  (mayUse (Origin.slice o) (onuOwner s p (fld s (pgALC p c) ALC_OB_IDX)) = true) ∧
  ((onu s p (fld s (pgALC p c) ALC_OB_IDX)).valid = false ∨ (onu s p (fld s (pgALC p c) ALC_OB_IDX)).ch = c.val) := by
  decide +kernel

theorem witness_DescriptorsAndBurstSettings_6 :
  let s : State := setReg (setFld up (pgALC 2 1) ALC_OB_IDX 511) (pgALC 2 1 + 0x10C) 0x36#32
  let o : Origin := .pf
  let p : Fin 32 := 2
  let c : Fin 3 := 1
  (addrReject s o (pgALC p c + ALC_OB_CMD.off) = none) ∧
  (mayUse (Origin.slice o) (onuOwner s p (fld s (pgALC p c) ALC_OB_IDX)) = true) ∧
  ((onu s p (fld s (pgALC p c) ALC_OB_IDX)).valid = false ∨ (onu s p (fld s (pgALC p c) ALC_OB_IDX)).ch = c.val) ∧
  ((onu s p (fld s (pgALC p c) ALC_OB_IDX)).valid = true → profValid (profWords s p c (fld s (pgALC p c) ALC_COLD_PROF)) = true ∧ profWarm (profWords s p c (fld s (pgALC p c) ALC_COLD_PROF)) = false) := by
  decide +kernel

theorem witness_DescriptorsAndBurstSettings_7 :
  let s : State := { setReg (setFld up (pgALC 2 1) ALC_OB_IDX 5) (pgALC 2 1 + 0x10C) 0x36#32 with pon := { up.pon with onu := [(1029, { OnuRec.init 0 with ch := 1, onuId := 9, state := 4, valid := true })] } }
  let o : Origin := .pf
  let p : Fin 32 := 2
  let c : Fin 3 := 1
  (addrReject s o (pgALC p c + ALC_OB_CMD.off) = none) ∧
  (mayUse (Origin.slice o) (onuOwner s p (fld s (pgALC p c) ALC_OB_IDX)) = true) ∧
  ((onu s p (fld s (pgALC p c) ALC_OB_IDX)).valid = false ∨ (onu s p (fld s (pgALC p c) ALC_OB_IDX)).ch = c.val) ∧
  ((onu s p (fld s (pgALC p c) ALC_OB_IDX)).valid = true) ∧
  (profValid (profWords s p c (fld s (pgALC p c) ALC_COLD_PROF)) = false ∨ profWarm (profWords s p c (fld s (pgALC p c) ALC_COLD_PROF)) = true) := by
  decide +kernel

theorem witness_Templates_1 :
  let s : State := { setReg (setReg (setReg (setFld (at_ up 30 0 0) (pgTPL 2) TPL_TPL_SEL 15) (pgTPL 2 + 0x48) 0x11#32) (pgTPL 2 + 0x4C) 0x000103FF#32) (pgTPL 2 + 0x50) 33#32 with pon := { up.pon with onu := [(1029, { OnuRec.init 0 with ch := 1, onuId := 9, state := 4, valid := true })], ad := [(4099, { AdRec.init 0 with allocId := 77, onu := 5, valid := true })], ent := [(3071, ⟨1, 3, 4000, 100⟩)] } }
  let o : Origin := .pf
  let p : Fin 32 := 2
  let x : Nat := 33
  let g : TplCfg := ⟨1, 4, 1023, 1, 33, 33⟩
  (addrReject s o (pgTPL p + TPL_TPL_CMD.off) = none) ∧
  (x = fld s (pgTPL p) TPL_START_LO + fld s (pgTPL p) TPL_START_HI * 2 ^ 32) ∧
  (g = ⟨fld s (pgTPL p) TPL_CH, max 1 (fld s (pgTPL p) TPL_CYCLE), fld s (pgTPL p) TPL_FIRST, fld s (pgTPL p) TPL_COUNT, x, beginFrame (frame s) x (max 1 (fld s (pgTPL p) TPL_CYCLE))⟩) ∧
  (loadCause s p (fld s (pgTPL p) TPL_TPL_SEL) (Origin.slice o) g = 0) := by
  decide +kernel

theorem witness_Templates_2 :
  let s : State := { setReg (setReg (setReg (setFld (at_ up 30 0 0) (pgTPL 2) TPL_TPL_SEL 15) (pgTPL 2 + 0x48) 0x11#32) (pgTPL 2 + 0x4C) 0x000203FF#32) (pgTPL 2 + 0x50) 33#32 with pon := { up.pon with onu := [(1029, { OnuRec.init 0 with ch := 1, onuId := 9, state := 4, valid := true })], ad := [(4099, { AdRec.init 0 with allocId := 77, onu := 5, valid := true })], ent := [(3071, ⟨1, 3, 4000, 100⟩)] } }
  let o : Origin := .pf
  let p : Fin 32 := 2
  let x : Nat := 33
  let g : TplCfg := ⟨1, 4, 1023, 2, 33, 33⟩
  (addrReject s o (pgTPL p + TPL_TPL_CMD.off) = none) ∧
  (x = fld s (pgTPL p) TPL_START_LO + fld s (pgTPL p) TPL_START_HI * 2 ^ 32) ∧
  (g = ⟨fld s (pgTPL p) TPL_CH, max 1 (fld s (pgTPL p) TPL_CYCLE), fld s (pgTPL p) TPL_FIRST, fld s (pgTPL p) TPL_COUNT, x, beginFrame (frame s) x (max 1 (fld s (pgTPL p) TPL_CYCLE))⟩) ∧
  (loadCause s p (fld s (pgTPL p) TPL_TPL_SEL) (Origin.slice o) g ≠ 0) := by
  decide +kernel

theorem witness_Templates_3 :
  let s : State := { at_ up 30 0 0 with pon := { up.pon with tpl := [(32, { Tpl.init 0 with active := some ⟨1, 4, 0, 1, 20, 20⟩, pending := some ⟨1, 4, 0, 1, 32, 32⟩ })] } }
  let o : Origin := .pf
  let p : Fin 32 := 2
  (addrReject s o (pgTPL p + TPL_TPL_CMD.off) = none) := by
  decide +kernel

theorem witness_Templates_4 :
  let s : State := { at_ up 32 0 0 with pon := { up.pon with tpl := [(47, { Tpl.init 0 with active := some ⟨1, 4, 0, 1, 20, 20⟩, pending := some ⟨1, 4, 0, 1, 32, 32⟩ })] } }
  let p : Fin 32 := 2
  let k : Fin 16 := 15
  let g : TplCfg := ⟨1, 4, 0, 1, 32, 32⟩
  ((tpl s p k).pending = some g) ∧
  (g.begin_ ≤ frame s) ∧
  ((tpl s p k).stopAt = none) := by
  decide +kernel

theorem witness_Templates_5 :
  let s : State := { at_ up 32 0 0 with pon := { up.pon with tpl := [(47, { Tpl.init 0 with active := some ⟨1, 4, 0, 1, 20, 20⟩, stopAt := some 32 })] } }
  let p : Fin 32 := 2
  let k : Fin 16 := 15
  let x : Nat := 32
  ((tpl s p k).pending = none) ∧
  ((tpl s p k).stopAt = some x) ∧
  (x ≤ frame s) := by
  decide +kernel

theorem witness_Templates_6 :
  let s : State := { setReg (setReg (setReg (setFld (at_ up 30 0 0) (pgTPL 2) TPL_ENT_IDX 1023) (pgTPL 2 + 0x48) 0x11#32) (pgTPL 2 + 0x4C) 0#32) (pgTPL 2 + 0x50) 0#32 with pon := { up.pon with onu := [(1029, { OnuRec.init 0 with ch := 1, onuId := 9, state := 4, valid := true })], ad := [(4099, { AdRec.init 0 with allocId := 77, onu := 5, valid := true })], ent := [(3071, ⟨1, 3, 4000, 100⟩)] } }
  let o : Origin := .pf
  let p : Fin 32 := 2
  (addrReject s o (pgTPL p + TPL_ENT_CMD.off) = none) := by
  decide +kernel

theorem witness_Templates_7 :
  let s : State := setReg (setFld up (pgTPL 2) TPL_ENT_IDX 1023) (pgTPL 2 + 0x90) 0x00640200#32
  let o : Origin := .pf
  let p : Fin 32 := 2
  (addrReject s o (pgTPL p + TPL_ENT_CMD.off) = none) ∧
  (entryBusy s p (fld s (pgTPL p) TPL_ENT_IDX) = false) := by
  decide +kernel

theorem witness_Templates_8 :
  let s : State := { setReg (setFld up (pgTPL 2) TPL_ENT_IDX 1023) (pgTPL 2 + 0x90) 0x00640200#32 with pon := { up.pon with tpl := [(47, { Tpl.init 0 with pending := some ⟨1, 4, 1020, 4, 20, 20⟩ })] } }
  let o : Origin := .pf
  let p : Fin 32 := 2
  (addrReject s o (pgTPL p + TPL_ENT_CMD.off) = none) ∧
  (entryBusy s p (fld s (pgTPL p) TPL_ENT_IDX) = true) := by
  decide +kernel

theorem witness_GroupWindow_1 :
  let s : State := { setFld up (pgBND 2) BND_GRP_IDX 63 with pon := { up.pon with grp := [(191, { Grp.init 0 with onuX := 5, onuH := 6, valid := true, next := 77, cnts := List.replicate 16 0x123456789 })] } }
  let o : Origin := .pf
  let p : Fin 32 := 2
  (addrReject s o (pgBND p + BND_GRP_CMD.off) = none) ∧
  ((if (grp s p (fld s (pgBND p) BND_GRP_IDX)).valid then mayUse (Origin.slice o) (grpOwner s p (grp s p (fld s (pgBND p) BND_GRP_IDX))) else Origin.slice o == portOwner s p) = true) := by
  decide +kernel

theorem witness_GroupWindow_2 :
  let s : State := { setReg (setReg (setReg (setFld up (pgBND 2) BND_GRP_IDX 63) (pgBND 2 + 0x8C) 0x00040C05#32) (pgBND 2 + 0x90) 0x001F001E#32) (pgBND 2 + 0x94) 0x01000501#32 with pon := { up.pon with onu := [(1029, { OnuRec.init 0 with ch := 1, onuId := 9, state := 4, valid := true }), (1030, { OnuRec.init 0 with ch := 2, onuId := 9, state := 4, valid := true })], xp := [(16384, ⟨30, 1, 5, 3, false, true⟩), (16385, ⟨31, 2, 6, 3, false, true⟩)] } }
  let o : Origin := .pf
  let p : Fin 32 := 2
  let n : Grp := grpOfWindow (setReg (setReg (setReg (setFld up (pgBND 2) BND_GRP_IDX 63) (pgBND 2 + 0x8C) 0x00040C05#32) (pgBND 2 + 0x90) 0x001F001E#32) (pgBND 2 + 0x94) 0x01000501#32) 2 (Grp.init 0)
  (addrReject s o (pgBND p + BND_GRP_CMD.off) = none) ∧
  (n = grpOfWindow s p (grp s p (fld s (pgBND p) BND_GRP_IDX))) ∧
  ((grp s p (fld s (pgBND p) BND_GRP_IDX)).valid = false) ∧
  (n.valid = true) ∧
  (mayUse (Origin.slice o) (onuOwner s p n.onuX) = true) ∧
  (mayUse (Origin.slice o) (onuOwner s p n.onuH) = true) ∧
  ((grp s p (fld s (pgBND p) BND_GRP_IDX)).freeing = none) ∧
  (grpRejected s p (fld s (pgBND p) BND_GRP_IDX) n = false) := by
  decide +kernel

theorem witness_GroupWindow_3 :
  let s : State := { setReg (setReg (setReg (setFld up (pgBND 2) BND_GRP_IDX 63) (pgBND 2 + 0x8C) 0x00040C05#32) (pgBND 2 + 0x90) 0x001F001E#32) (pgBND 2 + 0x94) 0x01000907#32 with pon := { up.pon with onu := [(1029, { OnuRec.init 0 with ch := 1, onuId := 9, state := 4, valid := true }), (1030, { OnuRec.init 0 with ch := 2, onuId := 9, state := 4, valid := true })], xp := [(16384, ⟨30, 1, 5, 3, false, true⟩), (16385, ⟨31, 2, 6, 3, false, true⟩)], grp := [(191, { Grp.init 0 with onuX := 5, onuH := 6, valid := true, xgemX := 30, xgemH := 31, state := 3 })] } }
  let o : Origin := .pf
  let p : Fin 32 := 2
  let n : Grp := grpOfWindow (setReg (setReg (setReg (setFld up (pgBND 2) BND_GRP_IDX 63) (pgBND 2 + 0x8C) 0x00040C05#32) (pgBND 2 + 0x90) 0x001F001E#32) (pgBND 2 + 0x94) 0x01000907#32) 2 { Grp.init 0 with onuX := 5, onuH := 6, valid := true, xgemX := 30, xgemH := 31, state := 3 }
  (addrReject s o (pgBND p + BND_GRP_CMD.off) = none) ∧
  (n = grpOfWindow s p (grp s p (fld s (pgBND p) BND_GRP_IDX))) ∧
  ((grp s p (fld s (pgBND p) BND_GRP_IDX)).valid = true) ∧
  (n.valid = true) ∧
  (mayUse (Origin.slice o) (grpOwner s p (grp s p (fld s (pgBND p) BND_GRP_IDX))) = true) ∧
  (mayUse (Origin.slice o) (onuOwner s p n.onuX) = true) ∧
  (mayUse (Origin.slice o) (onuOwner s p n.onuH) = true) ∧
  ((grp s p (fld s (pgBND p) BND_GRP_IDX)).freeing = none) ∧
  (grpFixedChanged (grp s p (fld s (pgBND p) BND_GRP_IDX)) n = false) ∧
  (grpRejected s p (fld s (pgBND p) BND_GRP_IDX) n = false) := by
  decide +kernel

theorem witness_GroupWindow_4 :
  let s : State := { setReg (setFld up (pgBND 2) BND_GRP_IDX 63) (pgBND 2 + 0x8C) 0x00040C05#32 with pon := { up.pon with onu := [(1029, { OnuRec.init 0 with ch := 1, onuId := 9, state := 4, valid := true }), (1030, { OnuRec.init 0 with ch := 2, onuId := 9, state := 4, valid := true })], xp := [(16384, ⟨30, 1, 5, 3, false, true⟩), (16385, ⟨31, 2, 6, 3, false, true⟩)], grp := [(191, { Grp.init 0 with onuX := 5, onuH := 6, valid := true, xgemX := 30, xgemH := 31, state := 3 })] } }
  let o : Origin := .pf
  let p : Fin 32 := 2
  let n : Grp := grpOfWindow (setReg (setFld up (pgBND 2) BND_GRP_IDX 63) (pgBND 2 + 0x8C) 0x00040C05#32) 2 { Grp.init 0 with onuX := 5, onuH := 6, valid := true, xgemX := 30, xgemH := 31, state := 3 }
  (addrReject s o (pgBND p + BND_GRP_CMD.off) = none) ∧
  (n = grpOfWindow s p (grp s p (fld s (pgBND p) BND_GRP_IDX))) ∧
  ((grp s p (fld s (pgBND p) BND_GRP_IDX)).valid = true) ∧
  (n.valid = true) ∧
  (mayUse (Origin.slice o) (grpOwner s p (grp s p (fld s (pgBND p) BND_GRP_IDX))) = true) ∧
  (mayUse (Origin.slice o) (onuOwner s p n.onuX) = true) ∧
  (mayUse (Origin.slice o) (onuOwner s p n.onuH) = true) ∧
  ((grp s p (fld s (pgBND p) BND_GRP_IDX)).freeing = none) ∧
  (grpFixedChanged (grp s p (fld s (pgBND p) BND_GRP_IDX)) n = true) := by
  decide +kernel

theorem witness_GroupWindow_5 :
  let s : State := (let a := setReg (setFld up (pgBND 2) BND_GRP_IDX 63) (pgBND 2 + 0x8C) 0x00000C05#32; { a with pon := { a.pon with onu := [(1029, { OnuRec.init 0 with ch := 1, onuId := 9, state := 4, valid := true }), (1030, { OnuRec.init 0 with ch := 2, onuId := 9, state := 4, valid := true })], grp := [(191, { Grp.init 0 with onuX := 5, onuH := 6, valid := true, xgemX := 30, xgemH := 31, state := 3 })] } })
  let o : Origin := .pf
  let p : Fin 32 := 2
  let n : Grp := grpOfWindow s 2 (grp s 2 63)
  (addrReject s o (pgBND p + BND_GRP_CMD.off) = none) ∧
  (n = grpOfWindow s p (grp s p (fld s (pgBND p) BND_GRP_IDX))) ∧
  ((grp s p (fld s (pgBND p) BND_GRP_IDX)).valid = true) ∧
  (n.valid = false) ∧
  (mayUse (Origin.slice o) (grpOwner s p (grp s p (fld s (pgBND p) BND_GRP_IDX))) = true) ∧
  (mayUse (Origin.slice o) (onuOwner s p n.onuX) = true) ∧
  (mayUse (Origin.slice o) (onuOwner s p n.onuH) = true) := by
  decide +kernel

theorem witness_GroupWindow_6 :
  let s : State := { setFld up (pgBND 2) BND_GRP_IDX 63 with pon := { up.pon with grp := [(191, { Grp.init 0 with onuX := 5, onuH := 6, valid := true, cnts := List.replicate 16 3 })] } }
  let o : Origin := .pf
  let p : Fin 32 := 2
  (addrReject s o (pgBND p + BND_GRP_CMD.off) = none) ∧
  (mayUse (Origin.slice o) (if (grp s p (fld s (pgBND p) BND_GRP_IDX)).valid then grpOwner s p (grp s p (fld s (pgBND p) BND_GRP_IDX)) else portOwner s p) = true) := by
  decide +kernel

theorem witness_BondedMergeAndMembers_1 :
  let s : State := up
  let p : Fin 32 := 2
  let c : Fin 3 := 1
  let n : Nat := 30
  let h : FragHdr := (⟨1, true, true, 5, 63, false, 7, true⟩ : FragHdr)
  let l : Nat := 100
  let f : Nat := 7
  (handedOver s p c n h l f = none) := by
  decide +kernel

theorem witness_BondedMergeAndMembers_2 :
  let s : State := { up with pon := { up.pon with bondIn := [⟨2, 1, 30, 100, 7, fragBytes ⟨1, true, true, 5, 63, false, 7, true⟩⟩] } }
  let p : Fin 32 := 2
  let c : Fin 3 := 1
  let n : Nat := 30
  let h : FragHdr := (⟨1, true, true, 5, 63, false, 7, true⟩ : FragHdr)
  let l : Nat := 100
  let f : Nat := 7
  let b : BondIn := ⟨2, 1, 30, 100, 7, fragBytes ⟨1, true, true, 5, 63, false, 7, true⟩⟩
  (handedOver s p c n h l f = some b) ∧
  (active s (pgBND p) BND_BND_EN = false ∨ groupOfXgem s p c n = none) := by
  decide +kernel

theorem witness_BondedMergeAndMembers_3 :
  let s : State := { (setFld up (pgBND 2) BND_BND_EN 1) with pon := { (setFld up (pgBND 2) BND_BND_EN 1).pon with bondIn := [⟨2, 1, 30, 100, 7, fragBytes ⟨1, true, true, 5, 63, true, 7, true⟩⟩], grp := [(191, { Grp.init 0 with onuX := 5, onuH := 6, valid := true, xgemX := 30, xgemH := 31 })] } }
  let p : Fin 32 := 2
  let c : Fin 3 := 1
  let n : Nat := 30
  let h : FragHdr := (⟨1, true, true, 5, 63, true, 7, true⟩ : FragHdr)
  let l : Nat := 100
  let f : Nat := 7
  let g : Nat := 63
  let b : BondIn := ⟨2, 1, 30, 100, 7, fragBytes ⟨1, true, true, 5, 63, true, 7, true⟩⟩
  (handedOver s p c n h l f = some b) ∧
  (active s (pgBND p) BND_BND_EN = true) ∧
  (groupOfXgem s p c n = some g) ∧
  (fragRejected g c h = true) := by
  decide +kernel

theorem witness_BondedMergeAndMembers_4 :
  let s : State := { (setFld (setFld (setFld up (pgBND 2) BND_BND_EN 1) pgHBM HBM_STACK_OK 15) pgHBM HBM_BUF_GIB 1) with pon := { (setFld (setFld (setFld up (pgBND 2) BND_BND_EN 1) pgHBM HBM_STACK_OK 15) pgHBM HBM_BUF_GIB 1).pon with bondIn := [⟨2, 1, 30, 100, 7, fragBytes ⟨1, true, true, 0, 63, false, 7, true⟩⟩], grp := [(191, { Grp.init 0 with onuX := 5, onuH := 6, valid := true, xgemX := 30, xgemH := 31, next := 16777215 })] }, tm := { up.tm with buf := [(4294967296, ⟨1, [1], []⟩)] } }
  let p : Fin 32 := 2
  let c : Fin 3 := 1
  let n : Nat := 30
  let h : FragHdr := (⟨1, true, true, 0, 63, false, 7, true⟩ : FragHdr)
  let l : Nat := 100
  let f : Nat := 7
  let g : Nat := 63
  let b : BondIn := ⟨2, 1, 30, 100, 7, fragBytes ⟨1, true, true, 0, 63, false, 7, true⟩⟩
  (handedOver s p c n h l f = some b) ∧
  (active s (pgBND p) BND_BND_EN = true) ∧
  (groupOfXgem s p c n = some g) ∧
  (fragRejected g c h = false) ∧
  (0 < seqAhead (grp s p g).next (h.seq % seqMod)) ∧
  (seqAhead (grp s p g).next (h.seq % seqMod) < 2 ^ 23) ∧
  ((grp s p g).held.any (fun x => x.seq == h.seq % seqMod) = false) ∧
  (heldBytes (grp s p g) + (l - 8) < fld s (pgBND p) BND_HOLD_KIB * 1024) ∧
  ((askBytes s 4 (tagBonding p) 1 (l - 8)).isSome = true) := by
  exact ⟨by decide +kernel, by decide +kernel, by decide +kernel, by decide +kernel, by decide +kernel, by decide +kernel, by decide +kernel, by decide +kernel, askBytes_small (by decide) (by decide) (by decide +kernel) (by decide +kernel)⟩

theorem witness_BondedMergeAndMembers_5 :
  let s : State := { (setFld up (pgBND 2) BND_BND_EN 1) with pon := { (setFld up (pgBND 2) BND_BND_EN 1).pon with bondIn := [⟨2, 1, 30, 100, 7, fragBytes ⟨1, true, true, 6, 63, false, 7, true⟩⟩], grp := [(191, { Grp.init 0 with onuX := 5, onuH := 6, valid := true, xgemX := 30, xgemH := 31, next := 7 })] } }
  let p : Fin 32 := 2
  let c : Fin 3 := 1
  let n : Nat := 30
  let h : FragHdr := (⟨1, true, true, 6, 63, false, 7, true⟩ : FragHdr)
  let l : Nat := 100
  let f : Nat := 7
  let g : Nat := 63
  let b : BondIn := ⟨2, 1, 30, 100, 7, fragBytes ⟨1, true, true, 6, 63, false, 7, true⟩⟩
  (handedOver s p c n h l f = some b) ∧
  (active s (pgBND p) BND_BND_EN = true) ∧
  (groupOfXgem s p c n = some g) ∧
  (fragRejected g c h = false) ∧
  (2 ^ 23 ≤ seqAhead (grp s p g).next (h.seq % seqMod)) := by
  decide +kernel

theorem witness_BondedMergeAndMembers_6 :
  let s : State := { (at_ (setFld up (pgBND 2) BND_SKEW_FRAMES 3) 30 0 0) with pon := { (at_ (setFld up (pgBND 2) BND_SKEW_FRAMES 3) 30 0 0).pon with grp := [(191, { Grp.init 0 with onuX := 5, onuH := 6, valid := true, held := [⟨9, 7, 28, true, true, [], 40, none⟩] })] } }
  let p : Fin 32 := 2
  let g : Fin 64 := 63
  (∀ d ∈ gapDeadline s p (grp s p g), frame s < d) := by
  decide +kernel

theorem witness_BondedMergeAndMembers_7 :
  let s : State := { (at_ up 30 0 0) with pon := { (at_ up 30 0 0).pon with grp := [(191, { Grp.init 0 with onuX := 5, onuH := 6, valid := true, held := [⟨9, 7, 20, true, false, [1, 2], 40, none⟩] })] } }
  let p : Fin 32 := 2
  let g : Fin 64 := 63
  let f : HeldFrag := ⟨9, 7, 20, true, false, [1, 2], 40, none⟩
  let d : Nat := (gapDeadline (up) 2 { Grp.init 0 with held := [⟨9, 7, 20, true, false, [1, 2], 40, none⟩] }).getD 0
  ((grp s p g).held = [f]) ∧
  (gapDeadline s p (grp s p g) = some d) ∧
  (d ≤ frame s) ∧
  (f.last = false) ∧
  (f.first = true) ∧
  ((grp s p g).join = none) := by
  decide +kernel

theorem witness_BondedMergeAndMembers_8 :
  let s : State := at_ up 30 1 0
  let p : Fin 32 := 2
  let g : Fin 64 := 63
  let i : Instr := .groupDown 2 63
  (i = .memberFallback p g ∨ i = .groupDown p g ∨ i = .memberRejoin p g) ∧
  (atBoundary s = false) := by
  exact ⟨.inr (.inl rfl), by decide +kernel⟩

theorem witness_BondedMergeAndMembers_9 :
  let s : State := { up with pon := { up.pon with grp := [(191, { Grp.init 0 with onuX := 5, onuH := 6, valid := true, state := 3, held := [⟨9, 7, 20, true, true, [1, 2], 40, none⟩] })] } }
  let p : Fin 32 := 2
  let g : Fin 64 := 63
  (atBoundary s = true) ∧
  ((grp s p g).valid = true) ∧
  ((grp s p g).state = gUp) ∧
  (memberDown s p 1 (grp s p g).onuX = true ∨ memberDown s p 2 (grp s p g).onuH = true) := by
  decide +kernel

theorem witness_BondedMergeAndMembers_10 :
  let s : State := { up with pon := { up.pon with grp := [(191, { Grp.init 0 with onuX := 5, onuH := 6, valid := true, state := 1, upX := 3 })] } }
  let p : Fin 32 := 2
  let g : Fin 64 := 63
  (atBoundary s = true) ∧
  ((grp s p g).valid = true) ∧
  (((grp s p g).state = gSingleX ∧ memberDown s p 1 (grp s p g).onuX = true) ∨ ((grp s p g).state = gSingleH ∧ memberDown s p 2 (grp s p g).onuH = true)) := by
  decide +kernel

theorem witness_BondedMergeAndMembers_11 :
  let s : State := { up with pon := { up.pon with onu := [(1030, { OnuRec.init 0 with ch := 2, onuId := 9, state := 4, valid := true })], grp := [(191, { Grp.init 0 with onuX := 5, onuH := 6, valid := true, state := 1, upH := 255, sX := 9, sH := 2 })] } }
  let p : Fin 32 := 2
  let g : Fin 64 := 63
  (atBoundary s = true) ∧
  ((grp s p g).valid = true) ∧
  (((grp s p g).state = gSingleX ∧ fld s (pgBND p) BND_REJOIN_FRAMES ≤ (grp s p g).upH ∧ memberDown s p 2 (grp s p g).onuH = false) ∨ ((grp s p g).state = gSingleH ∧ fld s (pgBND p) BND_REJOIN_FRAMES ≤ (grp s p g).upX ∧ memberDown s p 1 (grp s p g).onuX = false)) := by
  decide +kernel

theorem witness_WordsIssueAndTheirAlusActFirst_1 :
  let s : State := ctxUp { Ctx.init 0 with gp := [(0, 100), (1, 3)] } (mword [(126, 1), (118, 17), (111, 104), (104, 0), (97, 1), (91, 2), (85, 3), (61, 200)])
  let i : Instr := .hdrPopTag c15
  let c : CtxId := c15
  let n : Nat := 6
  let has : BitVec 160 → Bool := hdrIs 5
  (fieldOf i = some (c, n, has)) ∧
  (mayIssue s c = false ∨ has (wordOf s c) = false ∨ ((ctx s c).latch.isSome = true ∧ bitAt (ctx s c).acted n = true)) := by
  refine ⟨rfl, ?_⟩; decide +kernel

theorem witness_WordsIssueAndTheirAlusActFirst_2 :
  let s : State := ctxUp { Ctx.init 0 with gp := [(0, 100), (1, 3)] } (mword [(126, 1), (118, 17), (111, 104), (104, 0), (97, 1), (91, 2), (85, 3), (61, 200), (26, 5)])
  let i : Instr := .hdrPopTag c15
  let c : CtxId := c15
  let n : Nat := 6
  let has : BitVec 160 → Bool := hdrIs 5
  (fieldOf i = some (c, n, has)) ∧
  (has (wordOf s c) = true) ∧
  (mayIssue s c = true) ∧
  ((ctx s c).latch = none) := by
  refine ⟨rfl, ?_⟩; decide +kernel

theorem witness_WordsIssueAndTheirAlusActFirst_3 :
  let s : State := ctxUp { Ctx.init 0 with gp := [(0, 100), (1, 3)] } (mword [(126, 1), (118, 17), (111, 104), (104, 0), (97, 1), (91, 2), (85, 3), (61, 200)])
  let c : CtxId := c15
  let w : BitVec 160 := mword [(126, 1), (118, 17), (111, 104), (104, 0), (97, 1), (91, 2), (85, 3), (61, 200)]
  let u : State := (beginWord s c).1
  let l : Latch := ⟨200, 100, 3, 0, 0⟩
  let r : Nat × Bool × Bool := alu 1 8 (mwImm w) 200 100 (freeAt u 0) (freeAt u 1)
  let q : Nat × Bool × Bool := alu 0x11 8 (mwImm w) 3 r.1 (freeAt u 2) (freeAt u 3)
  (mayIssue s c = true) ∧
  ((ctx s c).latch.isSome = true → bitAt (ctx s c).acted 0 = false) ∧
  ((beginWord s c).2 = true) ∧
  (w = wordOf s c) ∧
  (u = (beginWord s c).1) ∧
  ((ctx u c).latch = some l) ∧
  (r = alu (mwAluA w % 64) (aluWidth (mwAluA w)) (mwImm w) l.a l.b (freeAt u 0) (freeAt u 1)) ∧
  (q = alu (mwAluB w % 64) (aluWidth (mwAluB w)) (mwImm w) l.c r.1 (freeAt u 2) (freeAt u 3)) := by
  refine ⟨?_, ?_, ?_, ?_, ?_, ?_, ?_, ?_⟩ <;> first | decide +kernel | rfl | simp [arbMax]

theorem witness_WordsIssueAndTheirAlusActFirst_4 :
  let s : State := ctxUp { Ctx.init 0 with gp := [(0, 100), (1, 3)] } (mword [(126, 1), (118, 17), (111, 104), (104, 0), (97, 1), (91, 2), (85, 3), (61, 200)])
  let c : CtxId := c15
  (mayIssue s c = true) ∧
  ((ctx s c).latch = none) ∧
  ((beginWord s c).2 = true) := by
  decide +kernel

theorem witness_WordsIssueAndTheirAlusActFirst_5 :
  let s : State := ctxUp { Ctx.init 0 with gp := [(0, 100), (1, 3)] } (mword [(111, 114)])
  let c : CtxId := c15
  let u : State := (readStore s c).1
  (mayIssue s c = true) ∧
  ((ctx s c).latch = none) ∧
  (u = (readStore s c).1) ∧
  ((readStore s c).2 = false) ∧
  (illegalWord u c.k (wordOf s c) = true) ∧
  (faultsAlone u c.k = true) := by
  decide +kernel

theorem witness_ScratchFields_1 :
  let s : State := ctxUp { Ctx.init 0 with gp := [(0, 100), (1, 3)], scratch := [(203, 7), (204, 1)] } (mword [(126, 1), (118, 17), (111, 104), (104, 0), (97, 1), (91, 2), (85, 3), (61, 200), (51, 73), (59, 1)])
  let c : CtxId := c15
  let w : BitVec 160 := mword [(126, 1), (118, 17), (111, 104), (104, 0), (97, 1), (91, 2), (85, 3), (61, 200), (51, 73), (59, 1)]
  let u : State := atField s c 1
  let x : Ctx := ctx u c
  (fieldDue s c 1 = true) ∧
  (w = wordOf s c) ∧
  (memIs 1 w = true) ∧
  (u = atField s c 1) ∧
  (x = ctx u c) ∧
  (memShared w = false) := by
  decide +kernel

theorem witness_ScratchFields_2 :
  let s : State := ctxUp { Ctx.init 0 with gp := [(0, 100), (1, 3)], scratch := [(203, 7), (204, 1)] } (mword [(126, 1), (118, 17), (111, 104), (104, 0), (97, 1), (91, 2), (85, 3), (61, 200), (51, 105), (59, 1)])
  let c : CtxId := c15
  let w : BitVec 160 := mword [(126, 1), (118, 17), (111, 104), (104, 0), (97, 1), (91, 2), (85, 3), (61, 200), (51, 105), (59, 1)]
  let u : State := atField s c 1
  let x : Ctx := ctx u c
  (fieldDue s c 1 = true) ∧
  (w = wordOf s c) ∧
  (memIs 1 w = true) ∧
  (u = atField s c 1) ∧
  (x = ctx u c) ∧
  (memShared w = true) ∧
  (u.boot.bank.all (fun e => e.2.st != 1) = true) ∧
  (isSet u (pgENG c.k) ANY_ARM = false) := by
  decide +kernel

theorem witness_ScratchFields_3 :
  let s : State := ctxUp { Ctx.init 0 with gp := [(0, 100), (1, 3)], scratch := [(203, 7), (204, 1)] } (mword [(126, 1), (118, 17), (111, 104), (104, 0), (97, 1), (91, 2), (85, 3), (61, 200), (51, 73), (59, 2)])
  let c : CtxId := c15
  let w : BitVec 160 := mword [(126, 1), (118, 17), (111, 104), (104, 0), (97, 1), (91, 2), (85, 3), (61, 200), (51, 73), (59, 2)]
  let u : State := atField s c 1
  let x : Ctx := ctx u c
  (fieldDue s c 1 = true) ∧
  (w = wordOf s c) ∧
  (memIs 2 w = true) ∧
  (u = atField s c 1) ∧
  (x = ctx u c) ∧
  (memShared w = false) := by
  decide +kernel

theorem witness_ScratchFields_4 :
  let s : State := ctxUp { Ctx.init 0 with gp := [(0, 100), (1, 3)], scratch := [(203, 7), (204, 1)] } (mword [(126, 1), (118, 17), (111, 104), (104, 0), (97, 1), (91, 2), (85, 3), (61, 200), (51, 105), (59, 2)])
  let c : CtxId := c15
  let w : BitVec 160 := mword [(126, 1), (118, 17), (111, 104), (104, 0), (97, 1), (91, 2), (85, 3), (61, 200), (51, 105), (59, 2)]
  let u : State := atField s c 1
  let x : Ctx := ctx u c
  (fieldDue s c 1 = true) ∧
  (w = wordOf s c) ∧
  (memIs 2 w = true) ∧
  (u = atField s c 1) ∧
  (x = ctx u c) ∧
  (memShared w = true) ∧
  (u.boot.bank.all (fun e => e.2.st != 1) = true) ∧
  (isSet u (pgENG c.k) ANY_ARM = false) := by
  decide +kernel

theorem witness_ScratchFields_5 :
  let s : State := ctxUp { Ctx.init 0 with gp := [(0, 100), (1, 3)], scratch := [(203, 7), (204, 1)] } (mword [(126, 1), (118, 17), (111, 104), (104, 0), (97, 1), (91, 2), (85, 3), (61, 200), (51, 105), (59, 2)])
  let c : CtxId := c15
  let w : BitVec 160 := mword [(126, 1), (118, 17), (111, 104), (104, 0), (97, 1), (91, 2), (85, 3), (61, 200), (51, 105), (59, 2)]
  let u : State := atField s c 1
  let x : Ctx := ctx u c
  (fieldDue s c 1 = true) ∧
  (w = wordOf s c) ∧
  (memIs 2 w = true) ∧
  (u = atField s c 1) ∧
  (x = ctx u c) ∧
  (memShared w = true) ∧
  (u.boot.bank.all (fun e => e.2.st != 1) = true) ∧
  (isSet u (pgENG c.k) ANY_ARM = false) := by
  decide +kernel

theorem witness_ScratchFields_6 :
  let s : State := ctxUp { Ctx.init 0 with gp := [(0, 100), (1, 3)], scratch := [(203, 7), (204, 1)] } (mword [(126, 1), (118, 17), (111, 104), (104, 0), (97, 1), (91, 2), (85, 3), (61, 200), (51, 73), (59, 3)])
  let c : CtxId := c15
  let w : BitVec 160 := mword [(126, 1), (118, 17), (111, 104), (104, 0), (97, 1), (91, 2), (85, 3), (61, 200), (51, 73), (59, 3)]
  let u : State := atField s c 1
  let x : Ctx := ctx u c
  (fieldDue s c 1 = true) ∧
  (w = wordOf s c) ∧
  (memIs 3 w = true) ∧
  (u = atField s c 1) ∧
  (x = ctx u c) ∧
  (memShared w = false) := by
  decide +kernel

theorem witness_ScratchFields_7 :
  let s : State := ctxUp { Ctx.init 0 with gp := [(0, 100), (1, 3)], scratch := [(203, 7), (204, 1)] } (mword [(126, 1), (118, 17), (111, 104), (104, 0), (97, 1), (91, 2), (85, 3), (61, 200), (51, 105), (59, 3)])
  let c : CtxId := c15
  let w : BitVec 160 := mword [(126, 1), (118, 17), (111, 104), (104, 0), (97, 1), (91, 2), (85, 3), (61, 200), (51, 105), (59, 3)]
  let u : State := atField s c 1
  let x : Ctx := ctx u c
  (fieldDue s c 1 = true) ∧
  (w = wordOf s c) ∧
  (memIs 3 w = true) ∧
  (u = atField s c 1) ∧
  (x = ctx u c) ∧
  (memShared w = true) ∧
  (u.boot.bank.all (fun e => e.2.st != 1) = true) ∧
  (isSet u (pgENG c.k) ANY_ARM = false) := by
  decide +kernel

theorem witness_TableFields_1 :
  let s : State := ctxUp { Ctx.init 0 with gp := [(0, 100), (1, 3)] } (mword [(126, 1), (118, 17), (111, 104), (104, 0), (97, 1), (91, 2), (85, 3), (61, 70), (48, 1), (41, 2)])
  let c : CtxId := c15
  let w : BitVec 160 := mword [(126, 1), (118, 17), (111, 104), (104, 0), (97, 1), (91, 2), (85, 3), (61, 70), (48, 1), (41, 2)]
  let u : State := atField s c 2
  let x : Ctx := ctx u c
  let r : State × Packet × Nat × Nat × Bool := legendMatch u x.pkt
  (fieldDue s c 2 = true) ∧
  (w = wordOf s c) ∧
  (tblIs 1 w = true) ∧
  (u = atField s c 2) ∧
  (x = ctx u c) ∧
  (r = legendMatch u x.pkt) := by
  decide +kernel

theorem witness_TableFields_2 :
  let s : State := ctxUp { Ctx.init 0 with gp := [(0, 100), (1, 3)] } (mword [(126, 1), (118, 17), (111, 104), (104, 0), (97, 1), (91, 2), (85, 3), (61, 70), (48, 2), (41, 2)])
  let c : CtxId := c15
  let w : BitVec 160 := mword [(126, 1), (118, 17), (111, 104), (104, 0), (97, 1), (91, 2), (85, 3), (61, 70), (48, 2), (41, 2)]
  let u : State := atField s c 2
  let x : Ctx := ctx u c
  (fieldDue s c 2 = true) ∧
  (w = wordOf s c) ∧
  (tblIs 2 w = true) ∧
  (u = atField s c 2) ∧
  (x = ctx u c) ∧
  (active u pgGZT GZT_GZT_EN = false ∨ locate u (tblKey x w) (tblType w) = none) := by
  decide +kernel

theorem witness_TableFields_3 :
  let s : State := (let a := setFld (ctxUp { Ctx.init 0 with gp := [(0, 100), (1, 3)] } (mword [(126, 1), (118, 17), (111, 104), (104, 0), (97, 1), (91, 2), (85, 3), (61, 70), (48, 2), (41, 2)])) pgGZT GZT_GZT_EN 1; { a with cls := { a.cls with prim := [(4 * bucketH1 (3 * 2 ^ 78) + 2, learned 1 0 7 (3 * 2 ^ 78) 0x123456789)] } })
  let c : CtxId := c15
  let w : BitVec 160 := mword [(126, 1), (118, 17), (111, 104), (104, 0), (97, 1), (91, 2), (85, 3), (61, 70), (48, 2), (41, 2)]
  let u : State := atField s c 2
  let x : Ctx := ctx u c
  let l : Loc := (false, 4 * bucketH1 (3 * 2 ^ 78) + 2)
  (fieldDue s c 2 = true) ∧
  (w = wordOf s c) ∧
  (tblIs 2 w = true) ∧
  (u = atField s c 2) ∧
  (x = ctx u c) ∧
  (active u pgGZT GZT_GZT_EN = true) ∧
  (locate u (tblKey x w) (tblType w) = some l) := by
  decide +kernel

theorem witness_TableFields_4 :
  let s : State := ctxUp { Ctx.init 0 with gp := [(0, 100), (1, 3)] } (mword [(126, 1), (118, 17), (111, 104), (104, 0), (97, 1), (91, 2), (85, 3), (61, 70), (48, 3), (41, 2)])
  let c : CtxId := c15
  let w : BitVec 160 := mword [(126, 1), (118, 17), (111, 104), (104, 0), (97, 1), (91, 2), (85, 3), (61, 70), (48, 3), (41, 2)]
  let u : State := atField s c 2
  let x : Ctx := ctx u c
  (fieldDue s c 2 = true) ∧
  (w = wordOf s c) ∧
  (tblIs 3 w = true) ∧
  (u = atField s c 2) ∧
  (x = ctx u c) ∧
  (u.cls.arb.length < arbMax) := by
  decide +kernel

theorem witness_TableFields_5 :
  let s : State := ctxUp { Ctx.init 0 with gp := [(0, 100), (1, 3)] } (mword [(126, 1), (118, 17), (111, 104), (104, 0), (97, 1), (91, 2), (85, 3), (61, 70), (48, 4), (41, 2)])
  let c : CtxId := c15
  let w : BitVec 160 := mword [(126, 1), (118, 17), (111, 104), (104, 0), (97, 1), (91, 2), (85, 3), (61, 70), (48, 4), (41, 2)]
  let u : State := atField s c 2
  let x : Ctx := ctx u c
  (fieldDue s c 2 = true) ∧
  (w = wordOf s c) ∧
  (tblIs 4 w = true) ∧
  (u = atField s c 2) ∧
  (x = ctx u c) ∧
  (u.cls.arb.length < arbMax) := by
  decide +kernel

theorem witness_TableFields_6 :
  let s : State := ctxUp { Ctx.init 0 with gp := [(0, 100), (1, 3)] } (mword [(126, 1), (118, 17), (111, 104), (104, 0), (97, 1), (91, 2), (85, 3), (61, 70), (48, 5), (41, 2)])
  let c : CtxId := c15
  let w : BitVec 160 := mword [(126, 1), (118, 17), (111, 104), (104, 0), (97, 1), (91, 2), (85, 3), (61, 70), (48, 5), (41, 2)]
  let u : State := atField s c 2
  let x : Ctx := ctx u c
  (fieldDue s c 2 = true) ∧
  (w = wordOf s c) ∧
  (tblIs 5 w = true) ∧
  (u = atField s c 2) ∧
  (x = ctx u c) ∧
  (u.cls.arb.length < arbMax) := by
  decide +kernel

theorem witness_TableFields_7 :
  let s : State := (let a := ctxUp { Ctx.init 0 with gp := [(0, 100), (1, 3)] } (mword [(126, 1), (118, 17), (111, 104), (104, 0), (97, 1), (91, 2), (85, 3), (61, 70), (48, 3), (41, 2)]); { a with cls := { a.cls with arb := List.replicate 4096 ⟨.refresh 0 1, 0, 0, some c15, 0, 0⟩ } })
  let c : CtxId := c15
  let w : BitVec 160 := mword [(126, 1), (118, 17), (111, 104), (104, 0), (97, 1), (91, 2), (85, 3), (61, 70), (48, 3), (41, 2)]
  let u : State := atField s c 2
  let x : Ctx := ctx u c
  (fieldDue s c 2 = true) ∧
  (w = wordOf s c) ∧
  (tblIs 3 w = true) ∧
  (u = atField s c 2) ∧
  (x = ctx u c) ∧
  (arbMax ≤ s.cls.arb.length) := by
  refine ⟨?_, ?_, ?_, ?_, ?_, ?_⟩ <;> first | decide +kernel | rfl | simp [arbMax]

theorem witness_TableFields_8 :
  let s : State := ctxUp { Ctx.init 0 with gp := [(0, 100), (1, 3)] } (mword [(126, 1), (118, 17), (111, 104), (104, 0), (97, 1), (91, 2), (85, 3), (61, 70), (48, 6), (41, 2)])
  let c : CtxId := c15
  let w : BitVec 160 := mword [(126, 1), (118, 17), (111, 104), (104, 0), (97, 1), (91, 2), (85, 3), (61, 70), (48, 6), (41, 2)]
  let u : State := atField s c 2
  let x : Ctx := ctx u c
  (fieldDue s c 2 = true) ∧
  (w = wordOf s c) ∧
  (tblIs 6 w = true) ∧
  (u = atField s c 2) ∧
  (x = ctx u c) := by
  decide +kernel

theorem witness_TableFields_9 :
  let s : State := ctxUp { Ctx.init 0 with gp := [(0, 100), (1, 3)] } (mword [(126, 1), (118, 17), (111, 104), (104, 0), (97, 1), (91, 2), (85, 3), (61, 70), (48, 7), (41, 2)])
  let c : CtxId := c15
  let w : BitVec 160 := mword [(126, 1), (118, 17), (111, 104), (104, 0), (97, 1), (91, 2), (85, 3), (61, 70), (48, 7), (41, 2)]
  let u : State := atField s c 2
  let x : Ctx := ctx u c
  (fieldDue s c 2 = true) ∧
  (w = wordOf s c) ∧
  (tblIs 7 w = true) ∧
  (u = atField s c 2) ∧
  (x = ctx u c) := by
  decide +kernel

theorem witness_CipherFields_1 :
  let s : State := ctxUp { Ctx.init 0 with gp := [(0, 100), (1, 3)] } (mword [(126, 1), (118, 17), (111, 104), (104, 0), (97, 1), (91, 2), (85, 3), (61, 16), (37, 1), (41, 2)])
  let c : CtxId := c15
  let w : BitVec 160 := mword [(126, 1), (118, 17), (111, 104), (104, 0), (97, 1), (91, 2), (85, 3), (61, 16), (37, 1), (41, 2)]
  let u : State := atField s c 3
  let x : Ctx := ctx u c
  (fieldDue s c 3 = true) ∧
  (w = wordOf s c) ∧
  (cipIs 1 w = true) ∧
  (u = atField s c 3) ∧
  (x = ctx u c) := by
  decide +kernel

theorem witness_CipherFields_2 :
  let s : State := ctxUp { Ctx.init 0 with gp := [(0, 100), (1, 3)] } (mword [(126, 1), (118, 17), (111, 104), (104, 0), (97, 1), (91, 2), (85, 3), (61, 16), (37, 2), (41, 2)])
  let c : CtxId := c15
  let w : BitVec 160 := mword [(126, 1), (118, 17), (111, 104), (104, 0), (97, 1), (91, 2), (85, 3), (61, 16), (37, 2), (41, 2)]
  let u : State := atField s c 3
  let x : Ctx := ctx u c
  (fieldDue s c 3 = true) ∧
  (w = wordOf s c) ∧
  (cipIs 2 w = true) ∧
  (u = atField s c 3) ∧
  (x = ctx u c) := by
  decide +kernel

theorem witness_CipherFields_3 :
  let s : State := (let a := setFld (ctxUp { Ctx.init 0 with gp := [(0, 100), (1, 3)], lr := [(4, 65536 + 16384)] } (mword [(126, 1), (118, 17), (111, 104), (104, 0), (97, 1), (91, 2), (85, 3), (61, 16), (37, 3), (41, 2)])) (pgENG 15) ENG_ROLE 2; { a with pon := { a.pon with onu := [(3, { OnuRec.init 0 with ch := 1, onuId := 9, state := 4, valid := true })] } })
  let c : CtxId := c15
  let w : BitVec 160 := mword [(126, 1), (118, 17), (111, 104), (104, 0), (97, 1), (91, 2), (85, 3), (61, 16), (37, 3), (41, 2)]
  let u : State := atField s c 3
  let x : Ctx := ctx u c
  let r : KeyReq := cipSlot x (cipMac u x w)
  (fieldDue s c 3 = true) ∧
  (w = wordOf s c) ∧
  (cipIs 3 w = true) ∧
  (u = atField s c 3) ∧
  (x = ctx u c) ∧
  (r = cipSlot x (cipMac u x w)) ∧
  ((writeKey u r).2 = 0) := by
  decide +kernel

theorem witness_CipherFields_4 :
  let s : State := setFld (ctxUp { Ctx.init 0 with gp := [(0, 100), (1, 3)], lr := [(4, 65536 + 16384)] } (mword [(126, 1), (118, 17), (111, 104), (104, 0), (97, 1), (91, 2), (85, 3), (61, 16), (37, 3), (41, 2)])) (pgENG 15) ENG_ROLE 2
  let c : CtxId := c15
  let w : BitVec 160 := mword [(126, 1), (118, 17), (111, 104), (104, 0), (97, 1), (91, 2), (85, 3), (61, 16), (37, 3), (41, 2)]
  let u : State := atField s c 3
  let x : Ctx := ctx u c
  let r : KeyReq := cipSlot x (cipMac u x w)
  (fieldDue s c 3 = true) ∧
  (w = wordOf s c) ∧
  (cipIs 3 w = true) ∧
  (u = atField s c 3) ∧
  (x = ctx u c) ∧
  (r = cipSlot x (cipMac u x w)) ∧
  ((writeKey u r).2 ≠ 0) := by
  decide +kernel

theorem witness_CipherFields_5 :
  let s : State := ctxUp { Ctx.init 0 with gp := [(0, 100), (1, 3)] } (mword [(126, 1), (118, 17), (111, 104), (104, 0), (97, 1), (91, 2), (85, 3), (61, 16), (37, 4), (41, 2)])
  let c : CtxId := c15
  let w : BitVec 160 := mword [(126, 1), (118, 17), (111, 104), (104, 0), (97, 1), (91, 2), (85, 3), (61, 16), (37, 4), (41, 2)]
  let u : State := atField s c 3
  let x : Ctx := ctx u c
  (fieldDue s c 3 = true) ∧
  (w = wordOf s c) ∧
  (cipIs 4 w = true) ∧
  (u = atField s c 3) ∧
  (x = ctx u c) := by
  decide +kernel

theorem witness_CipherFields_6 :
  let s : State := (let a := setFld (ctxUp { Ctx.init 0 with gp := [(0, 100), (1, 3)], lr := [(4, 65536 + 16384)] } (mword [(126, 1), (118, 17), (111, 104), (104, 0), (97, 1), (91, 2), (85, 3), (61, 16), (37, 5), (41, 2)])) (pgENG 15) ENG_ROLE 2; { a with pon := { a.pon with onu := [(3, { OnuRec.init 0 with ch := 1, onuId := 9, state := 4, valid := true })] } })
  let c : CtxId := c15
  let w : BitVec 160 := mword [(126, 1), (118, 17), (111, 104), (104, 0), (97, 1), (91, 2), (85, 3), (61, 16), (37, 5), (41, 2)]
  let u : State := atField s c 3
  let x : Ctx := ctx u c
  let r : KeyReq := cipSlot x 0
  let j : Nat := 0
  (fieldDue s c 3 = true) ∧
  (w = wordOf s c) ∧
  (cipIs 5 w = true) ∧
  (u = atField s c 3) ∧
  (x = ctx u c) ∧
  (r = cipSlot x 0) ∧
  (r.dir ≠ 2) ∧
  (r.index u = some j) := by
  decide +kernel

theorem witness_CipherFields_7 :
  let s : State := ctxUp { Ctx.init 0 with gp := [(0, 100), (1, 3)] } (mword [(126, 1), (118, 17), (111, 104), (104, 0), (97, 1), (91, 2), (85, 3), (61, 16), (37, 6), (41, 2)])
  let c : CtxId := c15
  let w : BitVec 160 := mword [(126, 1), (118, 17), (111, 104), (104, 0), (97, 1), (91, 2), (85, 3), (61, 16), (37, 6), (41, 2)]
  let u : State := atField s c 3
  let x : Ctx := ctx u c
  (fieldDue s c 3 = true) ∧
  (w = wordOf s c) ∧
  (cipIs 6 w = true) ∧
  (u = atField s c 3) ∧
  (x = ctx u c) := by
  decide +kernel

theorem witness_CipherFields_8 :
  let s : State := (let a := setFld (ctxUp { Ctx.init 0 with gp := [(0, 100), (1, 3)], lr := [(4, 65536 + 16384)] } (mword [(126, 1), (118, 17), (111, 104), (104, 0), (97, 1), (91, 2), (85, 3), (61, 16), (37, 7), (41, 2)])) (pgENG 15) ENG_ROLE 2; { a with pon := { a.pon with onu := [(3, { OnuRec.init 0 with ch := 1, onuId := 9, state := 4, valid := true })] } })
  let c : CtxId := c15
  let w : BitVec 160 := mword [(126, 1), (118, 17), (111, 104), (104, 0), (97, 1), (91, 2), (85, 3), (61, 16), (37, 7), (41, 2)]
  let u : State := atField s c 3
  let x : Ctx := ctx u c
  let r : KeyReq := cipSlot x 0
  let j : Nat := 0
  (fieldDue s c 3 = true) ∧
  (w = wordOf s c) ∧
  (cipIs 7 w = true) ∧
  (u = atField s c 3) ∧
  (x = ctx u c) ∧
  (r = cipSlot x 0) ∧
  (r.dir < 2) ∧
  (r.index u = some j) ∧
  (slotBusy u (keyEntry u r.u) (r.dir == 1) j = false) := by
  decide +kernel

theorem witness_BufferFields_1 :
  let s : State := setFld (setFld (ctxUp { Ctx.init 0 with gp := [(0, 100), (1, 3)] } (mword [(126, 1), (118, 17), (111, 104), (104, 0), (97, 1), (91, 2), (85, 3), (61, 200), (33, 1)])) pgHBM HBM_STACK_OK 15) pgHBM HBM_BUF_GIB 1
  let c : CtxId := c15
  let w : BitVec 160 := mword [(126, 1), (118, 17), (111, 104), (104, 0), (97, 1), (91, 2), (85, 3), (61, 200), (33, 1)]
  let u : State := atField s c 4
  let x : Ctx := ctx u c
  let h : Nat := ((askBytes u (8 + 15) (tagCtx c) 1 (srcC x)).map (·.1)).getD 0
  let v : State := ((askBytes u (8 + 15) (tagCtx c) 1 (srcC x)).map (·.2)).getD u
  (fieldDue s c 4 = true) ∧
  (w = wordOf s c) ∧
  (bpmIs 1 w = true) ∧
  (u = atField s c 4) ∧
  (x = ctx u c) ∧
  (askBytes u (8 + c.k.val) (tagCtx c) 1 (srcC x) = some (h, v)) := by
  exact ⟨by first | decide +kernel | rfl, by first | decide +kernel | rfl, by first | decide +kernel | rfl, by first | decide +kernel | rfl, by first | decide +kernel | rfl, by first | decide +kernel | rfl⟩

theorem witness_BufferFields_2 :
  let s : State := setFld (setFld (setFld (ctxUp { Ctx.init 0 with gp := [(0, 100), (1, 3)] } (mword [(126, 1), (118, 17), (111, 104), (104, 0), (97, 1), (91, 2), (85, 3), (61, 200), (33, 2)])) pgHBM HBM_STACK_OK 15) pgHBM HBM_BUF_GIB 1) pgBPM BPM_REPL_GRANULES 1
  let c : CtxId := c15
  let w : BitVec 160 := mword [(126, 1), (118, 17), (111, 104), (104, 0), (97, 1), (91, 2), (85, 3), (61, 200), (33, 2)]
  let u : State := atField s c 4
  let x : Ctx := ctx u c
  let h : Nat := ((askBytes u (7) (tagCtx c) 1 (srcC x)).map (·.1)).getD 0
  let v : State := ((askBytes u (7) (tagCtx c) 1 (srcC x)).map (·.2)).getD u
  (fieldDue s c 4 = true) ∧
  (w = wordOf s c) ∧
  (bpmIs 2 w = true) ∧
  (u = atField s c 4) ∧
  (x = ctx u c) ∧
  (askBytes u (7) (tagCtx c) 1 (srcC x) = some (h, v)) := by
  exact ⟨by first | decide +kernel | rfl, by first | decide +kernel | rfl, by first | decide +kernel | rfl, by first | decide +kernel | rfl, by first | decide +kernel | rfl, by first | decide +kernel | rfl⟩

theorem witness_BufferFields_3 :
  let s : State := setFld (ctxUp { Ctx.init 0 with gp := [(0, 100), (1, 3)] } (mword [(126, 1), (118, 17), (111, 104), (104, 0), (97, 1), (91, 2), (85, 3), (61, 200), (33, 1)])) pgBPM (BPM_WAIT.at 23) 0
  let c : CtxId := c15
  let w : BitVec 160 := mword [(126, 1), (118, 17), (111, 104), (104, 0), (97, 1), (91, 2), (85, 3), (61, 200), (33, 1)]
  let u : State := atField s c 4
  let x : Ctx := ctx u c
  (fieldDue s c 4 = true) ∧
  (w = wordOf s c) ∧
  (bpmIs 1 w = true) ∧
  (u = atField s c 4) ∧
  (x = ctx u c) ∧
  (askBytes u (8 + c.k.val) (tagCtx c) 1 (srcC x) = none) ∧
  (isSet u pgBPM (BPM_WAIT.at (8 + c.k.val)) = false) := by
  decide +kernel

theorem witness_BufferFields_4 :
  let s : State := setFld (ctxUp { Ctx.init 0 with gp := [(0, 100), (1, 3)] } (mword [(126, 1), (118, 17), (111, 104), (104, 0), (97, 1), (91, 2), (85, 3), (61, 200), (33, 2)])) pgBPM (BPM_WAIT.at 7) 0
  let c : CtxId := c15
  let w : BitVec 160 := mword [(126, 1), (118, 17), (111, 104), (104, 0), (97, 1), (91, 2), (85, 3), (61, 200), (33, 2)]
  let u : State := atField s c 4
  let x : Ctx := ctx u c
  (fieldDue s c 4 = true) ∧
  (w = wordOf s c) ∧
  (bpmIs 2 w = true) ∧
  (u = atField s c 4) ∧
  (x = ctx u c) ∧
  (askBytes u (7) (tagCtx c) 1 (srcC x) = none) ∧
  (isSet u pgBPM (BPM_WAIT.at (7)) = false) := by
  decide +kernel

theorem witness_BufferFields_5 :
  let s : State := setFld (ctxUp { Ctx.init 0 with gp := [(0, 100), (1, 3)] } (mword [(126, 1), (118, 17), (111, 104), (104, 0), (97, 1), (91, 2), (85, 3), (61, 200), (33, 1)])) pgBPM (BPM_WAIT.at 23) 1
  let c : CtxId := c15
  let w : BitVec 160 := mword [(126, 1), (118, 17), (111, 104), (104, 0), (97, 1), (91, 2), (85, 3), (61, 200), (33, 1)]
  let u : State := atField s c 4
  let x : Ctx := ctx u c
  let p : Nat := 0
  (fieldDue s c 4 = true) ∧
  (w = wordOf s c) ∧
  (bpmIs 1 w = true) ∧
  (u = atField s c 4) ∧
  (x = ctx u c) ∧
  (askBytes u (8 + c.k.val) (tagCtx c) 1 (srcC x) = none) ∧
  (isSet u pgBPM (BPM_WAIT.at (8 + c.k.val)) = true) ∧
  (p = poolFor (8 + c.k.val) (srcC x)) ∧
  ((waitQ u p).length < waitMax) := by
  decide +kernel

theorem witness_BufferFields_6 :
  let s : State := (let a := setFld (setFld (ctxUp { Ctx.init 0 with gp := [(0, 100), (1, 3)], pkt := { Packet.none with handle := some (17179869184 + 4294967296), len := 300 } } (mword [(126, 1), (118, 17), (111, 104), (104, 0), (97, 1), (91, 2), (85, 3), (61, 200), (33, 3)])) pgHBM HBM_STACK_OK 15) pgHBM HBM_BUF_GIB 1; { a with tm := { a.tm with buf := [(17179869184 + 4294967296, ⟨tagCtx c15, [tagCtx c15], []⟩)] } })
  let c : CtxId := c15
  let w : BitVec 160 := mword [(126, 1), (118, 17), (111, 104), (104, 0), (97, 1), (91, 2), (85, 3), (61, 200), (33, 3)]
  let u : State := atField s c 4
  let x : Ctx := ctx u c
  let h : Nat := 17179869184 + 4294967296
  (fieldDue s c 4 = true) ∧
  (w = wordOf s c) ∧
  (bpmIs 3 w = true) ∧
  (u = atField s c 4) ∧
  (x = ctx u c) ∧
  (x.pkt.handle = some h) ∧
  ((buf u h).holders = [tagCtx c]) ∧
  ((buf u h).tag ≠ tagShared) := by
  refine ⟨?_, ?_, ?_, ?_, ?_, ?_, ?_, ?_⟩ <;> first | decide +kernel | rfl | simp [arbMax]

theorem witness_BufferFields_7 :
  let s : State := (let a := setFld (setFld (ctxUp { Ctx.init 0 with gp := [(0, 100), (1, 3)], pkt := { Packet.none with handle := some (17179869184 + 4294967296), len := 300 } } (mword [(126, 1), (118, 17), (111, 104), (104, 0), (97, 1), (91, 2), (85, 3), (61, 200), (33, 3)])) pgHBM HBM_STACK_OK 15) pgHBM HBM_BUF_GIB 1; { a with tm := { a.tm with buf := [(17179869184 + 4294967296, ⟨tagShared, [7, 8], []⟩)] } })
  let c : CtxId := c15
  let w : BitVec 160 := mword [(126, 1), (118, 17), (111, 104), (104, 0), (97, 1), (91, 2), (85, 3), (61, 200), (33, 3)]
  let u : State := atField s c 4
  let x : Ctx := ctx u c
  let h : Nat := 17179869184 + 4294967296
  (fieldDue s c 4 = true) ∧
  (w = wordOf s c) ∧
  (bpmIs 3 w = true) ∧
  (u = atField s c 4) ∧
  (x = ctx u c) ∧
  (x.pkt.handle = some h) ∧
  ((buf u h).holders ≠ []) ∧
  ((buf u h).holders.contains (tagCtx c) = false) := by
  refine ⟨?_, ?_, ?_, ?_, ?_, ?_, ?_, ?_⟩ <;> first | decide +kernel | rfl | simp [arbMax]

theorem witness_BufferFields_8 :
  let s : State := (let a := setFld (setFld (ctxUp { Ctx.init 0 with gp := [(0, 100), (1, 3)], pkt := { Packet.none with handle := some (17179869184 + 4294967296), len := 300 } } (mword [(126, 1), (118, 17), (111, 104), (104, 0), (97, 1), (91, 2), (85, 3), (61, 200), (33, 4)])) pgHBM HBM_STACK_OK 15) pgHBM HBM_BUF_GIB 1; { a with tm := { a.tm with buf := [(17179869184 + 4294967296, ⟨tagCtx c15, [tagCtx c15], []⟩)] } })
  let c : CtxId := c15
  let w : BitVec 160 := mword [(126, 1), (118, 17), (111, 104), (104, 0), (97, 1), (91, 2), (85, 3), (61, 200), (33, 4)]
  let u : State := atField s c 4
  let x : Ctx := ctx u c
  let h : Nat := 17179869184 + 4294967296
  (fieldDue s c 4 = true) ∧
  (w = wordOf s c) ∧
  (bpmIs 4 w = true) ∧
  (u = atField s c 4) ∧
  (x = ctx u c) ∧
  (h = x.pkt.handle.getD 0) ∧
  ((buf u h).holders ≠ []) ∧
  ((buf u h).holders.length < 255) := by
  refine ⟨?_, ?_, ?_, ?_, ?_, ?_, ?_, ?_⟩ <;> first | decide +kernel | rfl | simp [arbMax]

theorem witness_BufferFields_9 :
  let s : State := (let a := setFld (setFld (ctxUp { Ctx.init 0 with gp := [(0, 100), (1, 3)], pkt := { Packet.none with handle := some (17179869184 + 4294967296), len := 300 } } (mword [(126, 1), (118, 17), (111, 104), (104, 0), (97, 1), (91, 2), (85, 3), (61, 200), (33, 5)])) pgHBM HBM_STACK_OK 15) pgHBM HBM_BUF_GIB 1; { a with tm := { a.tm with buf := [(17179869184 + 4294967296, ⟨tagShared, [tagCtx c15, 8], []⟩)] } })
  let c : CtxId := c15
  let w : BitVec 160 := mword [(126, 1), (118, 17), (111, 104), (104, 0), (97, 1), (91, 2), (85, 3), (61, 200), (33, 5)]
  let u : State := atField s c 4
  let x : Ctx := ctx u c
  let h : Nat := 17179869184 + 4294967296
  (fieldDue s c 4 = true) ∧
  (w = wordOf s c) ∧
  (bpmIs 5 w = true) ∧
  (u = atField s c 4) ∧
  (x = ctx u c) ∧
  (h = x.pkt.handle.getD 0) ∧
  ((buf u h).holders.contains (tagCtx c) = true) ∧
  ((buf u h).holders.erase (tagCtx c) ≠ []) := by
  refine ⟨?_, ?_, ?_, ?_, ?_, ?_, ?_, ?_⟩ <;> first | decide +kernel | rfl | simp [arbMax]

theorem witness_BufferFields_10 :
  let s : State := (let a := setFld (setFld (ctxUp { Ctx.init 0 with gp := [(0, 100), (1, 3)], pkt := { Packet.none with handle := some (17179869184 + 4294967296), len := 300 } } (mword [(126, 1), (118, 17), (111, 104), (104, 0), (97, 1), (91, 2), (85, 3), (61, 200), (33, 6)])) pgHBM HBM_STACK_OK 15) pgHBM HBM_BUF_GIB 1; { a with tm := { a.tm with buf := [(17179869184 + 4294967296, ⟨tagCtx c15, [tagCtx c15], []⟩)] } })
  let c : CtxId := c15
  let w : BitVec 160 := mword [(126, 1), (118, 17), (111, 104), (104, 0), (97, 1), (91, 2), (85, 3), (61, 200), (33, 6)]
  let u : State := atField s c 4
  let x : Ctx := ctx u c
  let h : Nat := 17179869184 + 4294967296
  let q : Nat := tagQueue false
  (fieldDue s c 4 = true) ∧
  (w = wordOf s c) ∧
  (bpmIs 6 w = true) ∧
  (u = atField s c 4) ∧
  (x = ctx u c) ∧
  (x.pkt.handle = some h) ∧
  ((buf u h).holders.contains (tagCtx c) = true) ∧
  ((buf u h).tag ≠ tagShared) ∧
  (q = queueParty (queueArg (srcC x))) := by
  refine ⟨?_, ?_, ?_, ?_, ?_, ?_, ?_, ?_, ?_⟩ <;> first | decide +kernel | rfl | simp [arbMax]

theorem witness_QueueFields_1 :
  let s : State := (let a := setFld (setFld (setFld (ctxUp { Ctx.init 0 with gp := [(0, 100), (1, 3)], pkt := { Packet.none with handle := some (17179869184 + 4294967296), len := 300 } } (mword [(126, 1), (118, 17), (111, 104), (104, 0), (97, 1), (91, 2), (85, 3), (61, 200), (29, 1)])) pgHBM HBM_STACK_OK 15) pgHBM HBM_BUF_GIB 1) pgTMQ TMQ_DS_EN 1; { a with tm := { a.tm with buf := [(17179869184 + 4294967296, ⟨tagCtx c15, [tagCtx c15], []⟩)] } })
  let c : CtxId := c15
  let w : BitVec 160 := mword [(126, 1), (118, 17), (111, 104), (104, 0), (97, 1), (91, 2), (85, 3), (61, 200), (29, 1)]
  let u : State := atField s c 5
  let x : Ctx := ctx u c
  let k : Nat := 3
  let h : Nat := 17179869184 + 4294967296
  let pl : Place := .stacked
  let v : State := ((stackedBuf u 3 x.pkt false (tagCtx c15)).map (·.2)).getD u
  (fieldDue s c 5 = true) ∧
  (w = wordOf s c) ∧
  (tmqIs 1 w = true) ∧
  (u = atField s c 5) ∧
  (x = ctx u c) ∧
  (k = queueArg (srcC x)) ∧
  (noQueueFor u x.pkt = false) ∧
  (k < 73728) ∧
  (active u pgTMQ (if k < 65536 then TMQ_DS_EN else TMQ_US_EN) = true) ∧
  (standbyPort u k = false) ∧
  (admitIn u k (chargeFor u x.pkt) x.pkt.colour (ownCharge u x.pkt) = .ok) ∧
  (placeOf u k (chargeFor u x.pkt) = some pl) ∧
  (stackedBuf u k x.pkt false (tagCtx c) = some (h, v)) := by
  refine ⟨?_, ?_, ?_, ?_, ?_, ?_, ?_, ?_, ?_, ?_, ?_, ?_, ?_⟩ <;> first | decide +kernel | rfl | simp [arbMax]

theorem witness_QueueFields_2 :
  let s : State := (let a := setFld (setFld (setFld (ctxUp { Ctx.init 0 with gp := [(0, 100), (1, 3)], pkt := { Packet.none with handle := some (17179869184 + 4294967296), len := 300 } } (mword [(126, 1), (118, 17), (111, 104), (104, 0), (97, 1), (91, 2), (85, 3), (61, 200), (29, 2)])) pgHBM HBM_STACK_OK 15) pgHBM HBM_BUF_GIB 1) pgTMQ TMQ_DS_EN 1; { a with tm := { a.tm with buf := [(17179869184 + 4294967296, ⟨tagCtx c15, [tagCtx c15], []⟩)] } })
  let c : CtxId := c15
  let w : BitVec 160 := mword [(126, 1), (118, 17), (111, 104), (104, 0), (97, 1), (91, 2), (85, 3), (61, 200), (29, 2)]
  let u : State := atField s c 5
  let x : Ctx := ctx u c
  let k : Nat := 3
  let h : Nat := 17179869184 + 4294967296
  let pl : Place := .stacked
  let v : State := ((stackedBuf u 3 x.pkt true (tagCtx c15)).map (·.2)).getD u
  (fieldDue s c 5 = true) ∧
  (w = wordOf s c) ∧
  (tmqIs 2 w = true) ∧
  (u = atField s c 5) ∧
  (x = ctx u c) ∧
  (k = queueArg (srcC x)) ∧
  (noQueueFor u x.pkt = false) ∧
  (k < 73728) ∧
  (active u pgTMQ (if k < 65536 then TMQ_DS_EN else TMQ_US_EN) = true) ∧
  (standbyPort u k = false) ∧
  (admitIn u k (chargeFor u x.pkt) x.pkt.colour (ownCharge u x.pkt) = .ok) ∧
  (placeOf u k (chargeFor u x.pkt) = some pl) ∧
  (stackedBuf u k x.pkt true (tagCtx c) = some (h, v)) := by
  refine ⟨?_, ?_, ?_, ?_, ?_, ?_, ?_, ?_, ?_, ?_, ?_, ?_, ?_⟩ <;> first | decide +kernel | rfl | simp [arbMax]

theorem witness_QueueFields_3 :
  let s : State := ctxUp { Ctx.init 0 with gp := [(0, 100), (1, 3)], pkt := { Packet.none with handle := some (17179869184 + 4294967296), len := 300 } } (mword [(126, 1), (118, 17), (111, 104), (104, 0), (97, 1), (91, 2), (85, 3), (61, 200), (29, 1)])
  let c : CtxId := c15
  let w : BitVec 160 := mword [(126, 1), (118, 17), (111, 104), (104, 0), (97, 1), (91, 2), (85, 3), (61, 200), (29, 1)]
  let u : State := atField s c 5
  let x : Ctx := ctx u c
  let k : Nat := 3
  (fieldDue s c 5 = true) ∧
  (w = wordOf s c) ∧
  (tmqIs 1 w = true) ∧
  (u = atField s c 5) ∧
  (x = ctx u c) ∧
  (k = queueArg (srcC x)) ∧
  (noQueueFor u x.pkt = false) ∧
  (k < 65536) ∧
  (active u pgTMQ TMQ_DS_EN = false) := by
  decide +kernel

theorem witness_QueueFields_4 :
  let s : State := ctxUp { Ctx.init 0 with gp := [(0, 100), (1, 3)], pkt := { Packet.none with handle := some (17179869184 + 4294967296), len := 300 } } (mword [(126, 1), (118, 17), (111, 104), (104, 0), (97, 1), (91, 2), (85, 3), (61, 200), (29, 2)])
  let c : CtxId := c15
  let w : BitVec 160 := mword [(126, 1), (118, 17), (111, 104), (104, 0), (97, 1), (91, 2), (85, 3), (61, 200), (29, 2)]
  let u : State := atField s c 5
  let x : Ctx := ctx u c
  let k : Nat := 3
  (fieldDue s c 5 = true) ∧
  (w = wordOf s c) ∧
  (tmqIs 2 w = true) ∧
  (u = atField s c 5) ∧
  (x = ctx u c) ∧
  (k = queueArg (srcC x)) ∧
  (noQueueFor u x.pkt = false) ∧
  (k < 65536) ∧
  (active u pgTMQ TMQ_DS_EN = false) := by
  decide +kernel

theorem witness_QueueFields_5 :
  let s : State := ctxUp { Ctx.init 0 with gp := [(0, 100), (1, 3)] } (mword [(126, 1), (118, 17), (111, 104), (104, 0), (97, 1), (91, 2), (85, 3), (61, 200), (29, 3)])
  let c : CtxId := c15
  let w : BitVec 160 := mword [(126, 1), (118, 17), (111, 104), (104, 0), (97, 1), (91, 2), (85, 3), (61, 200), (29, 3)]
  let u : State := atField s c 5
  let x : Ctx := ctx u c
  (fieldDue s c 5 = true) ∧
  (w = wordOf s c) ∧
  (tmqIs 3 w = true) ∧
  (u = atField s c 5) ∧
  (x = ctx u c) := by
  decide +kernel

theorem witness_QueueFields_6 :
  let s : State := ctxUp { Ctx.init 0 with gp := [(0, 100), (1, 3)] } (mword [(126, 1), (118, 17), (111, 104), (104, 0), (97, 1), (91, 2), (85, 3), (61, 200), (29, 4)])
  let c : CtxId := c15
  let w : BitVec 160 := mword [(126, 1), (118, 17), (111, 104), (104, 0), (97, 1), (91, 2), (85, 3), (61, 200), (29, 4)]
  let u : State := atField s c 5
  let x : Ctx := ctx u c
  (fieldDue s c 5 = true) ∧
  (w = wordOf s c) ∧
  (tmqIs 4 w = true) ∧
  (u = atField s c 5) ∧
  (x = ctx u c) := by
  decide +kernel

theorem witness_QueueFields_7 :
  let s : State := (let a := setFld (ctxUp { Ctx.init 0 with gp := [(0, 100), (1, 3)], pkt := { Packet.none with handle := some (17179869184 + 4294967296), len := 300 } } (mword [(126, 1), (118, 17), (111, 104), (104, 0), (97, 1), (91, 2), (85, 3), (61, 200), (29, 5)])) (pgENG 15) ENG_ROLE 2; { a with tm := { a.tm with q := [(3, { Queue.init 3 with occ := 2048, frames := [⟨5, 60, 2048, .stacked, 0, [], 0, none⟩] })] } })
  let c : CtxId := c15
  let w : BitVec 160 := mword [(126, 1), (118, 17), (111, 104), (104, 0), (97, 1), (91, 2), (85, 3), (61, 200), (29, 5)]
  let u : State := atField s c 5
  let x : Ctx := ctx u c
  let k : Nat := 3
  let f : QFrame := ⟨5, 60, 2048, .stacked, 0, [], 0, none⟩
  let l : List QFrame := []
  (fieldDue s c 5 = true) ∧
  (w = wordOf s c) ∧
  (tmqIs 5 w = true) ∧
  (u = atField s c 5) ∧
  (x = ctx u c) ∧
  (k = queueArg (srcC x)) ∧
  ((queueOf u k).frames = f :: l) ∧
  (l.any lostFrame = false) := by
  refine ⟨?_, ?_, ?_, ?_, ?_, ?_, ?_, ?_⟩ <;> first | decide +kernel | rfl | simp [arbMax]

theorem witness_QueueFields_8 :
  let s : State := setFld (ctxUp { Ctx.init 0 with gp := [(0, 100), (1, 3)] } (mword [(126, 1), (118, 17), (111, 104), (104, 0), (97, 1), (91, 2), (85, 3), (61, 200), (29, 5)])) (pgENG 15) ENG_ROLE 2
  let c : CtxId := c15
  let w : BitVec 160 := mword [(126, 1), (118, 17), (111, 104), (104, 0), (97, 1), (91, 2), (85, 3), (61, 200), (29, 5)]
  let u : State := atField s c 5
  let x : Ctx := ctx u c
  (fieldDue s c 5 = true) ∧
  (w = wordOf s c) ∧
  (tmqIs 5 w = true) ∧
  (u = atField s c 5) ∧
  (x = ctx u c) ∧
  ((queueOf u (queueArg (srcC x))).frames = []) := by
  decide +kernel

theorem witness_HeaderCounterEventAndFlagFields_1 :
  let s : State := ctxUp { Ctx.init 0 with gp := [(0, 100), (1, 3)], pkt := { Packet.none with bytes := (List.range 20).map (BitVec.ofNat 8), len := 64 } } (mword [(126, 1), (118, 17), (111, 104), (104, 0), (97, 1), (91, 2), (85, 3), (61, 200), (26, 1), (19, 12)])
  let c : CtxId := c15
  let w : BitVec 160 := mword [(126, 1), (118, 17), (111, 104), (104, 0), (97, 1), (91, 2), (85, 3), (61, 200), (26, 1), (19, 12)]
  let u : State := atField s c 6
  let x : Ctx := ctx u c
  let o : Nat := 12
  let n : Nat := 1
  let l : List Byte := x.pkt.bytes.take o ++ valueBytes (resB x) n ++ x.pkt.bytes.drop (o + n)
  (fieldDue s c 6 = true) ∧
  (w = wordOf s c) ∧
  (hdrIs 1 w = true) ∧
  (u = atField s c 6) ∧
  (x = ctx u c) ∧
  (o = mwHdrOfs w) ∧
  (n = aluWidth (mwAluB w) / 8) ∧
  (l = x.pkt.bytes.take o ++ valueBytes (resB x) n ++ x.pkt.bytes.drop (o + n)) := by
  exact ⟨by first | decide +kernel | rfl, by first | decide +kernel | rfl, by first | decide +kernel | rfl, by first | decide +kernel | rfl, by first | decide +kernel | rfl, by first | decide +kernel | rfl, by first | decide +kernel | rfl, by first | decide +kernel | rfl⟩

theorem witness_HeaderCounterEventAndFlagFields_2 :
  let s : State := ctxUp { Ctx.init 0 with gp := [(0, 100), (1, 3)], pkt := { Packet.none with bytes := (List.range 20).map (BitVec.ofNat 8), len := 64 } } (mword [(126, 1), (118, 17), (111, 104), (104, 0), (97, 1), (91, 2), (85, 3), (61, 200), (26, 2), (19, 12)])
  let c : CtxId := c15
  let w : BitVec 160 := mword [(126, 1), (118, 17), (111, 104), (104, 0), (97, 1), (91, 2), (85, 3), (61, 200), (26, 2), (19, 12)]
  let u : State := atField s c 6
  let x : Ctx := ctx u c
  let o : Nat := 12
  let n : Nat := 1
  let l : List Byte := x.pkt.bytes.take o ++ valueBytes (resB x) n ++ x.pkt.bytes.drop o
  (fieldDue s c 6 = true) ∧
  (w = wordOf s c) ∧
  (hdrIs 2 w = true) ∧
  (u = atField s c 6) ∧
  (x = ctx u c) ∧
  (o = mwHdrOfs w) ∧
  (n = aluWidth (mwAluB w) / 8) ∧
  (l = x.pkt.bytes.take o ++ valueBytes (resB x) n ++ x.pkt.bytes.drop o) := by
  exact ⟨by first | decide +kernel | rfl, by first | decide +kernel | rfl, by first | decide +kernel | rfl, by first | decide +kernel | rfl, by first | decide +kernel | rfl, by first | decide +kernel | rfl, by first | decide +kernel | rfl, by first | decide +kernel | rfl⟩

theorem witness_HeaderCounterEventAndFlagFields_3 :
  let s : State := ctxUp { Ctx.init 0 with gp := [(0, 100), (1, 3)], pkt := { Packet.none with bytes := (List.range 20).map (BitVec.ofNat 8), len := 64 } } (mword [(126, 1), (118, 17), (111, 104), (104, 0), (97, 1), (91, 2), (85, 3), (61, 200), (26, 3), (19, 12)])
  let c : CtxId := c15
  let w : BitVec 160 := mword [(126, 1), (118, 17), (111, 104), (104, 0), (97, 1), (91, 2), (85, 3), (61, 200), (26, 3), (19, 12)]
  let u : State := atField s c 6
  let x : Ctx := ctx u c
  let o : Nat := 12
  let n : Nat := 1
  let l : List Byte := x.pkt.bytes.take o ++ x.pkt.bytes.drop (o + n)
  (fieldDue s c 6 = true) ∧
  (w = wordOf s c) ∧
  (hdrIs 3 w = true) ∧
  (u = atField s c 6) ∧
  (x = ctx u c) ∧
  (o = mwHdrOfs w) ∧
  (n = aluWidth (mwAluB w) / 8) ∧
  (l = x.pkt.bytes.take o ++ x.pkt.bytes.drop (o + n)) := by
  refine ⟨?_, ?_, ?_, ?_, ?_, ?_, ?_, ?_⟩ <;> first | decide +kernel | rfl | simp [arbMax]

theorem witness_HeaderCounterEventAndFlagFields_4 :
  let s : State := ctxUp { Ctx.init 0 with gp := [(0, 100), (1, 3)], pkt := { Packet.none with bytes := (List.range 20).map (BitVec.ofNat 8), len := 64 } } (mword [(126, 1), (118, 17), (111, 104), (104, 0), (97, 1), (91, 2), (85, 3), (61, 200), (26, 4), (19, 12)])
  let c : CtxId := c15
  let w : BitVec 160 := mword [(126, 1), (118, 17), (111, 104), (104, 0), (97, 1), (91, 2), (85, 3), (61, 200), (26, 4), (19, 12)]
  let u : State := atField s c 6
  let x : Ctx := ctx u c
  let o : Nat := 12
  let n : Nat := 1
  let l : List Byte := x.pkt.bytes.take o ++ valueBytes (resB x) 4 ++ x.pkt.bytes.drop o
  (fieldDue s c 6 = true) ∧
  (w = wordOf s c) ∧
  (hdrIs 4 w = true) ∧
  (u = atField s c 6) ∧
  (x = ctx u c) ∧
  (o = mwHdrOfs w) ∧
  (n = aluWidth (mwAluB w) / 8) ∧
  (l = x.pkt.bytes.take o ++ valueBytes (resB x) 4 ++ x.pkt.bytes.drop o) := by
  exact ⟨by first | decide +kernel | rfl, by first | decide +kernel | rfl, by first | decide +kernel | rfl, by first | decide +kernel | rfl, by first | decide +kernel | rfl, by first | decide +kernel | rfl, by first | decide +kernel | rfl, by first | decide +kernel | rfl⟩

theorem witness_HeaderCounterEventAndFlagFields_5 :
  let s : State := ctxUp { Ctx.init 0 with gp := [(0, 100), (1, 3)], pkt := { Packet.none with bytes := (List.range 20).map (BitVec.ofNat 8), len := 64 } } (mword [(126, 1), (118, 17), (111, 104), (104, 0), (97, 1), (91, 2), (85, 3), (61, 200), (26, 5), (19, 12)])
  let c : CtxId := c15
  let w : BitVec 160 := mword [(126, 1), (118, 17), (111, 104), (104, 0), (97, 1), (91, 2), (85, 3), (61, 200), (26, 5), (19, 12)]
  let u : State := atField s c 6
  let x : Ctx := ctx u c
  let o : Nat := 12
  let n : Nat := 1
  let l : List Byte := x.pkt.bytes.take o ++ x.pkt.bytes.drop (o + 4)
  (fieldDue s c 6 = true) ∧
  (w = wordOf s c) ∧
  (hdrIs 5 w = true) ∧
  (u = atField s c 6) ∧
  (x = ctx u c) ∧
  (o = mwHdrOfs w) ∧
  (n = aluWidth (mwAluB w) / 8) ∧
  (l = x.pkt.bytes.take o ++ x.pkt.bytes.drop (o + 4)) := by
  refine ⟨?_, ?_, ?_, ?_, ?_, ?_, ?_, ?_⟩ <;> first | decide +kernel | rfl | simp [arbMax]

theorem witness_HeaderCounterEventAndFlagFields_6 :
  let s : State := ctxUp { Ctx.init 0 with gp := [(0, 100), (1, 3)], pkt := { Packet.none with bytes := (List.range 20).map (BitVec.ofNat 8), len := 64 } } (mword [(126, 1), (118, 17), (111, 104), (104, 0), (97, 1), (91, 2), (85, 3), (61, 200), (26, 6), (19, 12)])
  let c : CtxId := c15
  let w : BitVec 160 := mword [(126, 1), (118, 17), (111, 104), (104, 0), (97, 1), (91, 2), (85, 3), (61, 200), (26, 6), (19, 12)]
  let u : State := atField s c 6
  let x : Ctx := ctx u c
  let o : Nat := 12
  let n : Nat := 1
  let l : List Byte := x.pkt.bytes
  (fieldDue s c 6 = true) ∧
  (w = wordOf s c) ∧
  (hdrIs 6 w = true) ∧
  (u = atField s c 6) ∧
  (x = ctx u c) ∧
  (o = mwHdrOfs w) ∧
  (n = aluWidth (mwAluB w) / 8) ∧
  (l = x.pkt.bytes) := by
  refine ⟨?_, ?_, ?_, ?_, ?_, ?_, ?_, ?_⟩ <;> first | decide +kernel | rfl | simp [arbMax]

theorem witness_HeaderCounterEventAndFlagFields_7 :
  let s : State := ctxUp { Ctx.init 0 with gp := [(0, 100), (1, 3)], pkt := { Packet.none with bytes := (List.range 20).map (BitVec.ofNat 8), len := 64 } } (mword [(126, 1), (118, 17), (111, 104), (104, 0), (97, 1), (91, 2), (85, 3), (61, 200), (17, 3), (11, 5)])
  let c : CtxId := c15
  let w : BitVec 160 := mword [(126, 1), (118, 17), (111, 104), (104, 0), (97, 1), (91, 2), (85, 3), (61, 200), (17, 3), (11, 5)]
  let u : State := atField s c 7
  let x : Ctx := ctx u c
  let d : Nat := 2 * (64 * srcC x + 5)
  (fieldDue s c 7 = true) ∧
  (w = wordOf s c) ∧
  ((fun v => mwCnt v != 0) w = true) ∧
  (u = atField s c 7) ∧
  (x = ctx u c) ∧
  (d = 2 * (64 * srcC x + mwCntBlock w)) := by
  refine ⟨?_, ?_, ?_, ?_, ?_, ?_⟩ <;> first | decide +kernel | rfl | simp [arbMax]

theorem witness_HeaderCounterEventAndFlagFields_8 :
  let s : State := setFld (ctxUp { Ctx.init 0 with gp := [(0, 100), (1, 3)] } (mword [(126, 1), (118, 17), (111, 104), (104, 0), (97, 1), (91, 2), (85, 3), (61, 200), (5, 9)])) (pgENG 15) ANY_EVT_EN 1
  let c : CtxId := c15
  let w : BitVec 160 := mword [(126, 1), (118, 17), (111, 104), (104, 0), (97, 1), (91, 2), (85, 3), (61, 200), (5, 9)]
  let u : State := atField s c 8
  let x : Ctx := ctx u c
  (fieldDue s c 8 = true) ∧
  (w = wordOf s c) ∧
  ((fun v => mwEvt v != 0) w = true) ∧
  (u = atField s c 8) ∧
  (x = ctx u c) ∧
  (isSet u (pgENG c.k) ANY_EVT_EN = true) ∧
  (u.evt.fifo.length < evtFifoMax) := by
  refine ⟨?_, ?_, ?_, ?_, ?_, ?_, ?_⟩ <;> first | decide +kernel | rfl | simp [arbMax]

theorem witness_HeaderCounterEventAndFlagFields_9 :
  let s : State := ctxUp { Ctx.init 0 with gp := [(0, 100), (1, 3)] } (mword [(126, 1), (118, 17), (111, 104), (104, 0), (97, 1), (91, 2), (85, 3), (61, 200), (3, 1), (0, 6)])
  let c : CtxId := c15
  let w : BitVec 160 := mword [(126, 1), (118, 17), (111, 104), (104, 0), (97, 1), (91, 2), (85, 3), (61, 200), (3, 1), (0, 6)]
  let u : State := atField s c 9
  let x : Ctx := ctx u c
  (fieldDue s c 9 = true) ∧
  (w = wordOf s c) ∧
  (flgIs 1 w = true) ∧
  (u = atField s c 9) ∧
  (x = ctx u c) := by
  decide +kernel

theorem witness_HeaderCounterEventAndFlagFields_10 :
  let s : State := ctxUp { Ctx.init 0 with gp := [(0, 100), (1, 3)] } (mword [(126, 1), (118, 17), (111, 104), (104, 0), (97, 1), (91, 2), (85, 3), (61, 200), (3, 2), (0, 6)])
  let c : CtxId := c15
  let w : BitVec 160 := mword [(126, 1), (118, 17), (111, 104), (104, 0), (97, 1), (91, 2), (85, 3), (61, 200), (3, 2), (0, 6)]
  let u : State := atField s c 9
  let x : Ctx := ctx u c
  (fieldDue s c 9 = true) ∧
  (w = wordOf s c) ∧
  (flgIs 2 w = true) ∧
  (u = atField s c 9) ∧
  (x = ctx u c) := by
  decide +kernel

theorem witness_HeaderCounterEventAndFlagFields_11 :
  let s : State := ctxUp { Ctx.init 0 with gp := [(0, 100), (1, 3)] } (mword [(126, 1), (118, 17), (111, 104), (104, 0), (97, 1), (91, 2), (85, 3), (61, 200), (3, 3), (0, 6)])
  let c : CtxId := c15
  let w : BitVec 160 := mword [(126, 1), (118, 17), (111, 104), (104, 0), (97, 1), (91, 2), (85, 3), (61, 200), (3, 3), (0, 6)]
  let u : State := atField s c 9
  let x : Ctx := ctx u c
  (fieldDue s c 9 = true) ∧
  (w = wordOf s c) ∧
  (flgIs 3 w = true) ∧
  (u = atField s c 9) ∧
  (x = ctx u c) := by
  decide +kernel

theorem witness_Sequencing_1 :
  let s : State := ctxUp { Ctx.init 0 with gp := [(0, 100), (1, 3)] } (mword [(126, 1), (118, 17), (111, 104), (104, 0), (97, 1), (91, 2), (85, 3), (61, 200), (142, 0), (146, 300)])
  let c : CtxId := c15
  let w : BitVec 160 := mword [(126, 1), (118, 17), (111, 104), (104, 0), (97, 1), (91, 2), (85, 3), (61, 200), (142, 0), (146, 300)]
  let u : State := atSeq s c
  let x : Ctx := ctx u c
  (seqDue s c 0 = true) ∧
  (w = wordOf s c) ∧
  (u = atSeq s c) ∧
  (x = (ctx u c).cond 7 false) ∧
  (mwSafe w = false) := by
  decide +kernel

theorem witness_Sequencing_2 :
  let s : State := ctxUp { Ctx.init 0 with gp := [(0, 100), (1, 3)] } (mword [(126, 1), (118, 17), (111, 104), (104, 0), (97, 1), (91, 2), (85, 3), (61, 200), (142, 0), (146, 300), (134, 1)])
  let c : CtxId := c15
  let w : BitVec 160 := mword [(126, 1), (118, 17), (111, 104), (104, 0), (97, 1), (91, 2), (85, 3), (61, 200), (142, 0), (146, 300), (134, 1)]
  let u : State := atSeq s c
  let x : Ctx := ctx u c
  (seqDue s c 0 = true) ∧
  (w = wordOf s c) ∧
  (u = atSeq s c) ∧
  (x = (ctx u c).cond 7 false) ∧
  (mwSafe w = true) ∧
  (x.irq = false) := by
  decide +kernel

theorem witness_Sequencing_3 :
  let s : State := ctxUp { Ctx.init 0 with gp := [(0, 100), (1, 3)], irq := true } (mword [(126, 1), (118, 17), (111, 104), (104, 0), (97, 1), (91, 2), (85, 3), (61, 200), (142, 0), (146, 300), (134, 1)])
  let c : CtxId := c15
  let w : BitVec 160 := mword [(126, 1), (118, 17), (111, 104), (104, 0), (97, 1), (91, 2), (85, 3), (61, 200), (142, 0), (146, 300), (134, 1)]
  let u : State := atSeq s c
  let x : Ctx := ctx u c
  (seqDue s c 0 = true) ∧
  (w = wordOf s c) ∧
  (u = atSeq s c) ∧
  (x = (ctx u c).cond 7 false) ∧
  (mwSafe w = true) ∧
  (x.irq = true) ∧
  (x.stack.length < 8) := by
  decide +kernel

theorem witness_Sequencing_4 :
  let s : State := ctxUp { Ctx.init 0 with gp := [(0, 100), (1, 3)] } (mword [(126, 1), (118, 17), (111, 104), (104, 0), (97, 1), (91, 2), (85, 3), (61, 200), (142, 1), (146, 300)])
  let c : CtxId := c15
  let w : BitVec 160 := mword [(126, 1), (118, 17), (111, 104), (104, 0), (97, 1), (91, 2), (85, 3), (61, 200), (142, 1), (146, 300)]
  let u : State := atSeq s c
  let x : Ctx := ctx u c
  (seqDue s c 1 = true) ∧
  (w = wordOf s c) ∧
  (u = atSeq s c) ∧
  (x = (ctx u c).cond 7 false) ∧
  (mwSafe w = false) ∧
  (wordCond u c w = true) := by
  decide +kernel

theorem witness_Sequencing_5 :
  let s : State := ctxUp { Ctx.init 0 with gp := [(0, 100), (1, 3)] } (mword [(126, 1), (118, 17), (111, 104), (104, 0), (97, 1), (91, 2), (85, 3), (61, 200), (142, 1), (146, 300), (136, 24)])
  let c : CtxId := c15
  let w : BitVec 160 := mword [(126, 1), (118, 17), (111, 104), (104, 0), (97, 1), (91, 2), (85, 3), (61, 200), (142, 1), (146, 300), (136, 24)]
  let u : State := atSeq s c
  let x : Ctx := ctx u c
  (seqDue s c 1 = true) ∧
  (w = wordOf s c) ∧
  (u = atSeq s c) ∧
  (x = (ctx u c).cond 7 false) ∧
  (wordCond u c w = false) := by
  decide +kernel

theorem witness_Sequencing_6 :
  let s : State := ctxUp { Ctx.init 0 with gp := [(0, 100), (1, 3)] } (mword [(126, 1), (118, 17), (111, 104), (104, 0), (97, 1), (91, 2), (85, 3), (61, 200), (142, 2), (146, 300), (136, 24)])
  let c : CtxId := c15
  let w : BitVec 160 := mword [(126, 1), (118, 17), (111, 104), (104, 0), (97, 1), (91, 2), (85, 3), (61, 200), (142, 2), (146, 300), (136, 24)]
  let u : State := atSeq s c
  let x : Ctx := ctx u c
  (seqDue s c 2 = true) ∧
  (w = wordOf s c) ∧
  (u = atSeq s c) ∧
  (x = (ctx u c).cond 7 false) ∧
  (mwSafe w = false) := by
  decide +kernel

theorem witness_Sequencing_7 :
  let s : State := ctxUp { Ctx.init 0 with gp := [(0, 100), (1, 3)] } (mword [(126, 1), (118, 17), (111, 104), (104, 0), (97, 1), (91, 2), (85, 3), (61, 200), (142, 3), (146, 300)])
  let c : CtxId := c15
  let w : BitVec 160 := mword [(126, 1), (118, 17), (111, 104), (104, 0), (97, 1), (91, 2), (85, 3), (61, 200), (142, 3), (146, 300)]
  let u : State := atSeq s c
  let x : Ctx := ctx u c
  (seqDue s c 3 = true) ∧
  (w = wordOf s c) ∧
  (u = atSeq s c) ∧
  (x = (ctx u c).cond 7 false) ∧
  (mwSafe w = false) ∧
  (x.stack.length < 8) := by
  decide +kernel

theorem witness_Sequencing_8 :
  let s : State := ctxUp { Ctx.init 0 with gp := [(0, 100), (1, 3)], stack := [1, 2, 3, 4, 5, 6, 7, 8] } (mword [(126, 1), (118, 17), (111, 104), (104, 0), (97, 1), (91, 2), (85, 3), (61, 200), (142, 3), (146, 300)])
  let c : CtxId := c15
  let w : BitVec 160 := mword [(126, 1), (118, 17), (111, 104), (104, 0), (97, 1), (91, 2), (85, 3), (61, 200), (142, 3), (146, 300)]
  let u : State := atSeq s c
  let x : Ctx := ctx u c
  (seqDue s c 3 = true) ∧
  (w = wordOf s c) ∧
  (u = atSeq s c) ∧
  (x = (ctx u c).cond 7 false) ∧
  (8 ≤ x.stack.length) ∧
  (faultsAlone u c.k = true) := by
  decide +kernel

theorem witness_Sequencing_9 :
  let s : State := ctxUp { Ctx.init 0 with gp := [(0, 100), (1, 3)], stack := [12, 13] } (mword [(126, 1), (118, 17), (111, 104), (104, 0), (97, 1), (91, 2), (85, 3), (61, 200), (142, 4), (146, 300)])
  let c : CtxId := c15
  let w : BitVec 160 := mword [(126, 1), (118, 17), (111, 104), (104, 0), (97, 1), (91, 2), (85, 3), (61, 200), (142, 4), (146, 300)]
  let u : State := atSeq s c
  let x : Ctx := ctx u c
  let a : Nat := 12
  let l : List Nat := [13]
  (seqDue s c 4 = true) ∧
  (w = wordOf s c) ∧
  (u = atSeq s c) ∧
  (x = (ctx u c).cond 7 false) ∧
  (mwSafe w = false) ∧
  (x.stack = a :: l) := by
  decide +kernel

theorem witness_Sequencing_10 :
  let s : State := ctxUp { Ctx.init 0 with gp := [(0, 100), (1, 3)] } (mword [(126, 1), (118, 17), (111, 104), (104, 0), (97, 1), (91, 2), (85, 3), (61, 200), (142, 4), (146, 300)])
  let c : CtxId := c15
  let w : BitVec 160 := mword [(126, 1), (118, 17), (111, 104), (104, 0), (97, 1), (91, 2), (85, 3), (61, 200), (142, 4), (146, 300)]
  let u : State := atSeq s c
  let x : Ctx := ctx u c
  (seqDue s c 4 = true) ∧
  (w = wordOf s c) ∧
  (u = atSeq s c) ∧
  (x = (ctx u c).cond 7 false) ∧
  (x.stack = []) ∧
  (faultsAlone u c.k = true) := by
  decide +kernel

theorem witness_Sequencing_11 :
  let s : State := ctxUp { Ctx.init 0 with gp := [(0, 100), (1, 3)] } (mword [(126, 1), (118, 17), (111, 104), (104, 0), (97, 1), (91, 2), (85, 3), (61, 200), (142, 5), (146, 300)])
  let c : CtxId := c15
  let w : BitVec 160 := mword [(126, 1), (118, 17), (111, 104), (104, 0), (97, 1), (91, 2), (85, 3), (61, 200), (142, 5), (146, 300)]
  let u : State := atSeq s c
  let x : Ctx := ctx u c
  (seqDue s c 5 = true) ∧
  (w = wordOf s c) ∧
  (u = atSeq s c) ∧
  (x = (ctx u c).cond 7 false) ∧
  (mwSafe w = false) := by
  decide +kernel

theorem witness_Sequencing_12 :
  let s : State := ctxUp { Ctx.init 0 with gp := [(0, 100), (1, 3)], loop := 1 } (mword [(126, 1), (118, 17), (111, 104), (104, 0), (97, 1), (91, 2), (85, 3), (61, 200), (142, 6), (146, 300)])
  let c : CtxId := c15
  let w : BitVec 160 := mword [(126, 1), (118, 17), (111, 104), (104, 0), (97, 1), (91, 2), (85, 3), (61, 200), (142, 6), (146, 300)]
  let u : State := atSeq s c
  let x : Ctx := ctx u c
  let n : Nat := 0
  (seqDue s c 6 = true) ∧
  (w = wordOf s c) ∧
  (u = atSeq s c) ∧
  (x = (ctx u c).cond 7 false) ∧
  (mwSafe w = false) ∧
  (n = (x.loop + 2 ^ 64 - 1) % 2 ^ 64) := by
  decide +kernel

theorem witness_Sequencing_13 :
  let s : State := ctxUp { Ctx.init 0 with gp := [(0, 100), (1, 3)] } (mword [(126, 1), (118, 17), (111, 104), (104, 0), (97, 1), (91, 2), (85, 3), (61, 200), (142, 10), (146, 300)])
  let c : CtxId := c15
  let w : BitVec 160 := mword [(126, 1), (118, 17), (111, 104), (104, 0), (97, 1), (91, 2), (85, 3), (61, 200), (142, 10), (146, 300)]
  let u : State := atSeq s c
  let x : Ctx := ctx u c
  (seqDue s c 10 = true) ∧
  (w = wordOf s c) ∧
  (u = atSeq s c) ∧
  (x = (ctx u c).cond 7 false) ∧
  (faultsAlone u c.k = true) := by
  decide +kernel

theorem witness_Sequencing_14 :
  let s : State := ctxUp (Ctx.init 0) (mword [(142, 15)])
  let i : Instr := .seqGo c15
  let c : CtxId := c15
  let k : Nat := 0
  (seqOf i = some (c, k)) ∧
  (mayIssue s c = true) ∧
  ((beginWord s c).2 = true) ∧
  (11 ≤ mwSeq (wordOf s c)) ∧
  (faultsAlone (atSeq s c) c.k = true) := by
  refine ⟨rfl, ?_⟩; decide +kernel

theorem witness_Sequencing_15 :
  let s : State := up
  let i : Instr := .seqGo c15
  let c : CtxId := c15
  let k : Nat := 0
  (seqOf i = some (c, k)) ∧
  (mayIssue s c = false ∨ (mwSeq (wordOf s c) ≠ k ∧ mwSeq (wordOf s c) < 11)) := by
  refine ⟨?_, ?_⟩ <;> first | decide +kernel | rfl | simp [arbMax]

theorem witness_WaitsGuardsAndCompletions_1 :
  let s : State := setCtx (ctxUp (Ctx.init 0) (mword [(146, 300)])) c15 { { Ctx.init 0 with st := 3, wait := some (0, false) } with pc := 5 }
  let c : CtxId := c15
  let w : BitVec 160 := wordOf s c
  let x : Ctx := ctx s c
  let n : Nat := 0
  let pol : Bool := false
  (x = ctx s c) ∧
  (w = wordOf s c) ∧
  (x.st = 3) ∧
  (x.wait = some (n, pol)) ∧
  (n < 56) ∧
  (condHolds s c n ≠ pol) ∧
  (mwSafe w = false) := by
  decide +kernel

theorem witness_WaitsGuardsAndCompletions_2 :
  let s : State := at_ (setFld (setCtx (ctxUp (Ctx.init 0) (mword [(146, 300)])) c15 { { Ctx.init 0 with st := 3, wait := some (61, false) } with pc := 5 }) (pgENG 15) (ENG_GRID_TMR.at 1) 7000) 3 5 9
  let c : CtxId := c15
  let w : BitVec 160 := wordOf s c
  let x : Ctx := ctx s c
  let n : Nat := 61
  let pol : Bool := false
  let g : Nat := 7000
  (x = ctx s c) ∧
  (w = wordOf s c) ∧
  (x.st = 3) ∧
  (x.wait = some (n, false)) ∧
  (56 ≤ n) ∧
  (n ≠ 58) ∧
  (n ≠ 59) ∧
  (gridTick s c n = some g) ∧
  (s.grid.running = true) ∧
  ((now s).tick < g) ∧
  (tickInFrame s g = true) ∧
  (mwSafe w = false) ∧
  (pol = false) := by
  decide +kernel

theorem witness_WaitsGuardsAndCompletions_3 :
  let s : State := up
  let c : CtxId := c15
  let n : Nat := 0
  let pol : Bool := false
  ((ctx s c).st ≠ 3 ∨ ((ctx s c).wait = some (n, pol) ∧ n < 56 ∧ condHolds s c n = pol)) := by
  decide +kernel

theorem witness_WaitsGuardsAndCompletions_4 :
  let s : State := setCtx (ctxUp (Ctx.init 0) (mword [(146, 300)])) c15 { { Ctx.init 0 with st := 3, wait := some (8, false) } with pc := 5 }
  let c : CtxId := c15
  let n : Nat := 8
  let pol : Bool := false
  ((ctx s c).st = 3) ∧
  ((ctx s c).wait = some (n, pol)) ∧
  (n < 56) ∧
  (faultsAlone s c.k = true) := by
  decide +kernel

theorem witness_WaitsGuardsAndCompletions_5 :
  let s : State := setCtx (ctxUp (Ctx.init 0) (mword [(146, 300)])) c15 { { Ctx.init 0 with st := 3, wait := some (60, true) } with pc := 5 }
  let c : CtxId := c15
  let n : Nat := 60
  let pol : Bool := true
  ((ctx s c).st ≠ 3 ∨ ((ctx s c).wait = some (n, pol) ∧ 56 ≤ n)) := by
  decide +kernel

theorem witness_WaitsGuardsAndCompletions_6 :
  let s : State := ctxUp { Ctx.init 0 with sinceSafe := 1023 } 0
  let c : CtxId := c15
  (mayIssue s c = true) ∧
  ((ctx s c).latch = none) ∧
  (1024 ≤ (ctx s c).sinceSafe + 1) ∧
  (mwSafe (wordOf s c) = false) ∧
  (faultsAlone s c.k = true) := by
  decide +kernel

theorem witness_WaitsGuardsAndCompletions_7 :
  let s : State := setFld (ctxUp { Ctx.init 0 with words := 5 } 0) (pgENG 15) ENG_RUN_MAX 5
  let c : CtxId := c15
  (mayIssue s c = true) ∧
  ((ctx s c).latch = none) ∧
  (fld s (pgENG c.k) ENG_RUN_MAX ≠ 0) ∧
  (fld s (pgENG c.k) ENG_RUN_MAX < (ctx s c).words + 1) ∧
  (faultsAlone s c.k = true) := by
  decide +kernel

theorem witness_WaitsGuardsAndCompletions_8 :
  let s : State := up
  let i : Instr := .watchdog c15
  let c : CtxId := c15
  (i = .watchdog c ∨ i = .runOver c) ∧
  (mayIssue s c = false ∨ (i = .watchdog c ∧ (ctx s c).sinceSafe + 1 < 1024) ∨ (i = .runOver c ∧ fld s (pgENG c.k) ENG_RUN_MAX = 0)) := by
  refine ⟨?_, ?_⟩ <;> first | decide +kernel | rfl | simp [arbMax]

theorem witness_WaitsGuardsAndCompletions_9 :
  let s : State := ctxUp { Ctx.init 0 with mem := .ready { UnitRes.plain with gp := some (3, 77) } } 0
  let c : CtxId := c15
  let u : EngUnit := .mem
  let x : Ctx := ctx s c
  let r : UnitRes := { UnitRes.plain with gp := some (3, 77) }
  (x = ctx s c) ∧
  (x.out u = .ready r) ∧
  (r.dst = none) := by
  decide +kernel

theorem witness_WaitsGuardsAndCompletions_10 :
  let s : State := ctxUp { Ctx.init 0 with tmq := .ready { UnitRes.plain with dst := some (3, 77) } } 0
  let c : CtxId := c15
  let u : EngUnit := .tmq
  let x : Ctx := ctx s c
  let r : UnitRes := { UnitRes.plain with dst := some (3, 77) }
  let d : Nat := 3
  let v : Nat := 77
  (x = ctx s c) ∧
  (x.out u = .ready r) ∧
  (r.dst = some (d, v)) ∧
  (d < 32) := by
  decide +kernel

theorem witness_WaitsGuardsAndCompletions_11 :
  let s : State := up
  let c : CtxId := c15
  let u : EngUnit := .cip
  ((ctx s c).out u = .idle ∨ (ctx s c).out u = .waiting) := by
  decide +kernel

theorem witness_EndOfADispatch_1 :
  let s : State := (let a := ctxUp { Ctx.init 0 with gp := [(0, 100), (1, 3)], slot := true, pkt := { Packet.none with src := 33, seq := 7, len := 64, handle := some 4294967296 } } (mword [(126, 1), (118, 17), (111, 104), (104, 0), (97, 1), (91, 2), (85, 3), (61, 200), (142, 7), (146, 300)]); { a with tm := { a.tm with buf := [(4294967296, ⟨tagCtx c15, [tagCtx c15], []⟩)] } })
  let c : CtxId := c15
  let w : BitVec 160 := mword [(126, 1), (118, 17), (111, 104), (104, 0), (97, 1), (91, 2), (85, 3), (61, 200), (142, 7), (146, 300)]
  let u : State := atSeq s c
  let x : Ctx := ctx u c
  let p : Packet := x.pkt
  let r : RdrSrc := rdrSrc u p.src
  (seqDue s c 7 = true) ∧
  (w = wordOf s c) ∧
  (u = atSeq s c) ∧
  (x = ctx u c) ∧
  (x.slot = true) ∧
  (p = x.pkt) ∧
  (r = rdrSrc u p.src) ∧
  (seqBad r p.seq = false) := by
  decide +kernel

theorem witness_EndOfADispatch_2 :
  let s : State := (let a := ctxUp { Ctx.init 0 with gp := [(0, 100), (1, 3)], slot := true, pkt := { Packet.none with src := 33, seq := 7, len := 64, handle := some 4294967296 } } (mword [(126, 1), (118, 17), (111, 104), (104, 0), (97, 1), (91, 2), (85, 3), (61, 200), (142, 8), (146, 300)]); { a with tm := { a.tm with buf := [(4294967296, ⟨tagCtx c15, [tagCtx c15], []⟩)] } })
  let c : CtxId := c15
  let w : BitVec 160 := mword [(126, 1), (118, 17), (111, 104), (104, 0), (97, 1), (91, 2), (85, 3), (61, 200), (142, 8), (146, 300)]
  let u : State := atSeq s c
  let x : Ctx := ctx u c
  let p : Packet := x.pkt
  let r : RdrSrc := rdrSrc u p.src
  (seqDue s c 8 = true) ∧
  (w = wordOf s c) ∧
  (u = atSeq s c) ∧
  (x = ctx u c) ∧
  (x.slot = true) ∧
  (p = x.pkt) ∧
  (r = rdrSrc u p.src) ∧
  (seqBad r p.seq = false) := by
  decide +kernel

theorem witness_EndOfADispatch_3 :
  let s : State := (let a := ctxUp { Ctx.init 0 with gp := [(0, 100), (1, 3)], slot := true, pkt := { Packet.none with src := 33, seq := 7, len := 64, handle := some 4294967296 } } (mword [(126, 1), (118, 17), (111, 104), (104, 0), (97, 1), (91, 2), (85, 3), (61, 200), (142, 9), (146, 300)]); { a with tm := { a.tm with buf := [(4294967296, ⟨tagCtx c15, [tagCtx c15], []⟩)] } })
  let c : CtxId := c15
  let w : BitVec 160 := mword [(126, 1), (118, 17), (111, 104), (104, 0), (97, 1), (91, 2), (85, 3), (61, 200), (142, 9), (146, 300)]
  let u : State := atSeq s c
  let x : Ctx := ctx u c
  let p : Packet := x.pkt
  let r : RdrSrc := rdrSrc u p.src
  (seqDue s c 9 = true) ∧
  (w = wordOf s c) ∧
  (u = atSeq s c) ∧
  (x = ctx u c) ∧
  (x.slot = true) ∧
  (p = x.pkt) ∧
  (r = rdrSrc u p.src) ∧
  (seqBad r p.seq = false) := by
  decide +kernel

theorem witness_EndOfADispatch_4 :
  let s : State := ctxUp { Ctx.init 0 with gp := [(0, 100), (1, 3)], slot := true, pkt := { Packet.none with src := 33, seq := 2048, len := 64, handle := none } } (mword [(126, 1), (118, 17), (111, 104), (104, 0), (97, 1), (91, 2), (85, 3), (61, 200), (142, 7), (146, 300)])
  let i : Instr := .seqDone c15
  let c : CtxId := c15
  let w : BitVec 160 := mword [(126, 1), (118, 17), (111, 104), (104, 0), (97, 1), (91, 2), (85, 3), (61, 200), (142, 7), (146, 300)]
  let u : State := atSeq s c
  let x : Ctx := ctx u c
  let p : Packet := x.pkt
  let r : RdrSrc := rdrSrc u p.src
  (i = .seqDone c) ∧
  (seqDue s c 7 = true) ∧
  (w = wordOf s c) ∧
  (u = atSeq s c) ∧
  (x = ctx u c) ∧
  (x.slot = true) ∧
  (p = x.pkt) ∧
  (r = rdrSrc u p.src) ∧
  (seqBad r p.seq = true) ∧
  (bitAt (react u (p.src % 16)) 2 = false) ∧
  (bitAt (react u (p.src % 16)) 3 = false) := by
  refine ⟨rfl, ?_⟩; decide +kernel

theorem witness_EndOfADispatch_5 :
  let s : State := ctxUp { Ctx.init 0 with gp := [(0, 100), (1, 3)], slot := true, pkt := { Packet.none with src := 33, seq := 2048, len := 64, handle := none } } (mword [(126, 1), (118, 17), (111, 104), (104, 0), (97, 1), (91, 2), (85, 3), (61, 200), (142, 8), (146, 300)])
  let i : Instr := .seqDrop c15
  let c : CtxId := c15
  let w : BitVec 160 := mword [(126, 1), (118, 17), (111, 104), (104, 0), (97, 1), (91, 2), (85, 3), (61, 200), (142, 8), (146, 300)]
  let u : State := atSeq s c
  let x : Ctx := ctx u c
  let p : Packet := x.pkt
  let r : RdrSrc := rdrSrc u p.src
  (i = .seqDrop c) ∧
  (seqDue s c 8 = true) ∧
  (w = wordOf s c) ∧
  (u = atSeq s c) ∧
  (x = ctx u c) ∧
  (x.slot = true) ∧
  (p = x.pkt) ∧
  (r = rdrSrc u p.src) ∧
  (seqBad r p.seq = true) ∧
  (bitAt (react u (p.src % 16)) 2 = false) ∧
  (bitAt (react u (p.src % 16)) 3 = false) := by
  refine ⟨rfl, ?_⟩; decide +kernel

theorem witness_EndOfADispatch_6 :
  let s : State := ctxUp { Ctx.init 0 with gp := [(0, 100), (1, 3)], slot := true, pkt := { Packet.none with src := 33, seq := 2048, len := 64, handle := none } } (mword [(126, 1), (118, 17), (111, 104), (104, 0), (97, 1), (91, 2), (85, 3), (61, 200), (142, 9), (146, 300)])
  let i : Instr := .seqPunt c15
  let c : CtxId := c15
  let w : BitVec 160 := mword [(126, 1), (118, 17), (111, 104), (104, 0), (97, 1), (91, 2), (85, 3), (61, 200), (142, 9), (146, 300)]
  let u : State := atSeq s c
  let x : Ctx := ctx u c
  let p : Packet := x.pkt
  let r : RdrSrc := rdrSrc u p.src
  (i = .seqPunt c) ∧
  (seqDue s c 9 = true) ∧
  (w = wordOf s c) ∧
  (u = atSeq s c) ∧
  (x = ctx u c) ∧
  (x.slot = true) ∧
  (p = x.pkt) ∧
  (r = rdrSrc u p.src) ∧
  (seqBad r p.seq = true) ∧
  (bitAt (react u (p.src % 16)) 2 = false) ∧
  (bitAt (react u (p.src % 16)) 3 = false) := by
  refine ⟨rfl, ?_⟩; decide +kernel

theorem witness_EndOfADispatch_7 :
  let s : State := ctxUp { Ctx.init 0 with gp := [(0, 100), (1, 3)] } (mword [(126, 1), (118, 17), (111, 104), (104, 0), (97, 1), (91, 2), (85, 3), (61, 200), (142, 7), (146, 300)])
  let c : CtxId := c15
  let w : BitVec 160 := mword [(126, 1), (118, 17), (111, 104), (104, 0), (97, 1), (91, 2), (85, 3), (61, 200), (142, 7), (146, 300)]
  let u : State := atSeq s c
  let x : Ctx := ctx u c
  (seqDue s c 7 = true) ∧
  (w = wordOf s c) ∧
  (u = atSeq s c) ∧
  (x = ctx u c) ∧
  (x.slot = false) ∧
  (x.pkt.handle = none) := by
  decide +kernel

theorem witness_EndOfADispatch_8 :
  let s : State := ctxUp { Ctx.init 0 with gp := [(0, 100), (1, 3)] } (mword [(126, 1), (118, 17), (111, 104), (104, 0), (97, 1), (91, 2), (85, 3), (61, 200), (142, 8), (146, 300)])
  let c : CtxId := c15
  let w : BitVec 160 := mword [(126, 1), (118, 17), (111, 104), (104, 0), (97, 1), (91, 2), (85, 3), (61, 200), (142, 8), (146, 300)]
  let u : State := atSeq s c
  let x : Ctx := ctx u c
  (seqDue s c 8 = true) ∧
  (w = wordOf s c) ∧
  (u = atSeq s c) ∧
  (x = ctx u c) ∧
  (x.slot = false) ∧
  (x.pkt.handle = none) := by
  decide +kernel

theorem witness_EndOfADispatch_9 :
  let s : State := (let a := ctxUp { Ctx.init 0 with gp := [(0, 100), (1, 3)] } (mword [(126, 1), (118, 17), (111, 104), (104, 0), (97, 1), (91, 2), (85, 3), (61, 200), (142, 9), (146, 300)]); { a with link := { a.link with ring := [(3, { Ring.init 3 with state := 1, dir := 1, sizeLog2 := 6, tail := 5 })] } })
  let c : CtxId := c15
  let w : BitVec 160 := mword [(126, 1), (118, 17), (111, 104), (104, 0), (97, 1), (91, 2), (85, 3), (61, 200), (142, 9), (146, 300)]
  let u : State := atSeq s c
  let x : Ctx := ctx u c
  let f : HostFrame := toHostFrame x.pkt
  (seqDue s c 9 = true) ∧
  (w = wordOf s c) ∧
  (u = atSeq s c) ∧
  (x = ctx u c) ∧
  (x.slot = false) ∧
  (x.pkt.handle = none) ∧
  (f = toHostFrame x.pkt) ∧
  (slicesRings u f.slice = [3]) ∧
  ((ring u 3).state = 1) ∧
  ((ring u 3).dir = 1) ∧
  ((ring u 3).frames.length < (ring u 3).posted) := by
  decide +kernel

theorem witness_EndOfADispatch_10 :
  let s : State := { up with eng := { up.eng with rdr := [(33, ⟨9, 7, [⟨8, false, .skip none⟩, ⟨7, true, .drop none⟩], 3⟩)] } }
  let src : Fin 17440 := 33
  let h : Held := ⟨7, true, .drop none⟩
  let r : RdrSrc := rdrSrc s 33
  (r = rdrSrc s src) ∧
  (r.held.find? (fun g => g.seq == r.next) = some h) ∧
  (rdrTurn s (src.val % 16) = some src.val) := by
  decide +kernel

theorem witness_EndOfADispatch_11 :
  let s : State := up
  let src : Fin 17440 := 17439
  ((rdrSrc s src).held.find? (fun g => g.seq == (rdrSrc s src).next) = none ∨ rdrTurn s (src.val % 16) ≠ some src.val) := by
  decide +kernel

theorem witness_LandingAndDispatch_1 :
  let s : State := up
  let src : Fin 17440 := 16408
  let d : Dir := .host
  let len : Nat := 1
  let bytes : List Byte := []
  (srcDir src ≠ some d) := by
  decide +kernel

theorem witness_LandingAndDispatch_2 :
  let s : State := { up with link := { up.link with rx := [⟨3, some 160, 64, [1, 2], ⟨0, 0, 0⟩, false⟩] }, tm := { up.tm with buf := [(160, ⟨tagQuarantine, [tagQuarantine], []⟩)] } }
  let src : Fin 17440 := 16387
  let d : Dir := .downstream
  let len : Nat := 64
  let bytes : List Byte := [1, 2]
  let h : Nat := 160
  (srcDir src = some d) ∧
  ((takeArrival s src len bytes).2.handle = some h) := by
  decide +kernel

theorem witness_LandingAndDispatch_3 :
  let s : State := { up with tm := { up.tm with buf := [(0, ⟨0x1001, [0x1001], []⟩)] } }
  let src : Fin 17440 := 5
  let d : Dir := .upstream
  let len : Nat := 64
  let bytes : List Byte := [1, 2]
  let h : Nat := ((askBytes (takeArrival s src len bytes).1 (landingReq d) (tagLanding (landingReq d)) 0 len).map (·.1)).getD 0
  let v : State := ((askBytes (takeArrival s src len bytes).1 (landingReq d) (tagLanding (landingReq d)) 0 len).map (·.2)).getD s
  (srcDir src = some d) ∧
  ((takeArrival s src len bytes).2.handle = none) ∧
  (askBytes (takeArrival s src len bytes).1 (landingReq d) (tagLanding (landingReq d)) 0 len = some (h, v)) := by
  exact ⟨by first | decide +kernel | rfl, by first | decide +kernel | rfl, askBytes_some (askBytes_small (by decide) (by decide) (by decide +kernel) (by decide +kernel))⟩

theorem witness_LandingAndDispatch_4 :
  let s : State := setFld up pgBPM BPM_DRAIN_SHIFT 0
  let src : Fin 17440 := 5
  let d : Dir := .upstream
  let len : Nat := 20000
  let bytes : List Byte := []
  (srcDir src = some d) ∧
  ((takeArrival s src len bytes).2.handle = none) ∧
  (askBytes (takeArrival s src len bytes).1 (landingReq d) (tagLanding (landingReq d)) 0 len = none) ∧
  (isSet s pgBPM (BPM_WAIT.at (landingReq d)) = false) := by
  exact ⟨by first | decide +kernel | rfl, by first | decide +kernel | rfl, askBytes_none (allocBytes_none (by decide +kernel) (by decide +kernel) (by decide) (by decide) (by decide)), by first | decide +kernel | rfl⟩

theorem witness_LandingAndDispatch_5 :
  let s : State := setFld (setFld up pgBPM BPM_DRAIN_SHIFT 0) pgBPM (BPM_WAIT.at (landingReq .upstream)) 1
  let src : Fin 17440 := 5
  let d : Dir := .upstream
  let len : Nat := 20000
  let bytes : List Byte := []
  let p : Nat := poolFor (landingReq .upstream) 20000
  (srcDir src = some d) ∧
  ((takeArrival s src len bytes).2.handle = none) ∧
  (askBytes (takeArrival s src len bytes).1 (landingReq d) (tagLanding (landingReq d)) 0 len = none) ∧
  (isSet s pgBPM (BPM_WAIT.at (landingReq d)) = true) ∧
  (p = poolFor (landingReq d) len) ∧
  ((waitQ s p).length < waitMax) := by
  refine ⟨by decide +kernel, by decide +kernel, askBytes_none (allocBytes_none rfl rfl (by decide) (by decide) (by decide)), by decide +kernel, rfl, by decide +kernel⟩

theorem witness_LandingAndDispatch_6 :
  let s : State := (let a := setFld (setFld up (pgENG 0) ENG_ENG_OK 1) (pgENG 0) ENG_ROLE 0; let b := setCluster a 0 { Cluster.init 0 with lenA := 6 }; { b with eng := { b.eng with landing := [{ Packet.none with src := 33, seq := 7, len := 64, dir := .upstream, bytes := [1, 2, 3], handle := some 0, record := 0 }], turn := 0 } })
  let p : Packet := s.eng.landing.headD Packet.none
  let l : List Packet := []
  let c : CtxId := ⟨0, 0, 0⟩
  let n : Nat := 1
  let b : Bool := false
  let v : Nat := 0
  (s.eng.landing = p :: l) ∧
  (nextCtx s (dispatchOrder s) s.eng.turn = some (c, n)) ∧
  (slotsHeld s < 2048) ∧
  (p.record % 2 = 0 ∨ 2 ≤ causeAction s p) ∧
  (b = isSet s (pgUCS c.k) UCS_ACTIVE_BANK) ∧
  (v = entryVector s c.k b (dirCode p.dir)) ∧
  (v < imageLen s c.k b) := by
  decide +kernel

theorem witness_LandingAndDispatch_7 :
  let s : State := (let a := setFld (setFld up (pgENG 0) ENG_ENG_OK 1) (pgENG 0) ENG_ROLE 0; let b := setCluster a 0 { Cluster.init 0 with lenA := 0 }; { b with eng := { b.eng with landing := [{ Packet.none with src := 33, seq := 7, len := 64, dir := .upstream, bytes := [1, 2, 3], handle := some 0, record := 0 }], turn := 0 } })
  let p : Packet := s.eng.landing.headD Packet.none
  let l : List Packet := []
  let c : CtxId := ⟨0, 0, 0⟩
  let n : Nat := 1
  let b : Bool := false
  (s.eng.landing = p :: l) ∧
  (nextCtx s (dispatchOrder s) s.eng.turn = some (c, n)) ∧
  (slotsHeld s < 2048) ∧
  (p.record % 2 = 0 ∨ 2 ≤ causeAction s p) ∧
  (b = isSet s (pgUCS c.k) UCS_ACTIVE_BANK) ∧
  (imageLen s c.k b ≤ entryVector s c.k b (dirCode p.dir)) ∧
  (faultsAlone s c.k = true) := by
  decide +kernel

theorem witness_LandingAndDispatch_8 :
  let s : State := setFld ((let a := setFld (setFld up (pgENG 0) ENG_ENG_OK 1) (pgENG 0) ENG_ROLE 0; let b := setCluster a 0 { Cluster.init 0 with lenA := 6 }; { b with eng := { b.eng with landing := [{ Packet.none with src := 33, seq := 7, len := 64, dir := .upstream, bytes := [1, 2, 3], handle := some 0, record := 1 }], turn := 0 } })) pgPRS PRS_CAUSE_ACT 0
  let p : Packet := s.eng.landing.headD Packet.none
  let l : List Packet := []
  let c : CtxId := ⟨0, 0, 0⟩
  let n : Nat := 1
  (s.eng.landing = p :: l) ∧
  (nextCtx s (dispatchOrder s) s.eng.turn = some (c, n)) ∧
  (slotsHeld s < 2048) ∧
  (p.record % 2 = 1) ∧
  (causeAction s p = 0) ∧
  (seqBad (rdrSrc s p.src) p.seq = false) := by
  decide +kernel

theorem witness_LandingAndDispatch_9 :
  let s : State := setFld ((let a := setFld (setFld up (pgENG 0) ENG_ENG_OK 1) (pgENG 0) ENG_ROLE 0; let b := setCluster a 0 { Cluster.init 0 with lenA := 6 }; { b with eng := { b.eng with landing := [{ Packet.none with src := 33, seq := 7, len := 64, dir := .upstream, bytes := [1, 2, 3], handle := some 0, record := 1 }], turn := 0 } })) pgPRS PRS_CAUSE_ACT 1
  let p : Packet := s.eng.landing.headD Packet.none
  let l : List Packet := []
  let c : CtxId := ⟨0, 0, 0⟩
  let n : Nat := 1
  (s.eng.landing = p :: l) ∧
  (nextCtx s (dispatchOrder s) s.eng.turn = some (c, n)) ∧
  (slotsHeld s < 2048) ∧
  (p.record % 2 = 1) ∧
  (causeAction s p = 1) ∧
  (seqBad (rdrSrc s p.src) p.seq = false) := by
  decide +kernel

theorem witness_LandingAndDispatch_10 :
  let s : State := (let a := (let a := setFld (setFld up (pgENG 0) ENG_ENG_OK 1) (pgENG 0) ENG_ROLE 0; let b := setCluster a 0 { Cluster.init 0 with lenA := 6 }; { b with eng := { b.eng with landing := [{ Packet.none with src := 33, seq := 7, len := 64, dir := .upstream, bytes := [1, 2, 3], handle := some 0, record := 0 }], turn := 0 } }); { a with eng := { a.eng with rdr := [(0, { RdrSrc.init 0 with slots := 2048 })] } })
  let p : Packet := s.eng.landing.headD Packet.none
  let l : List Packet := []
  let c : CtxId := ⟨0, 0, 0⟩
  let n : Nat := 1
  (s.eng.landing = p :: l) ∧
  (nextCtx s (dispatchOrder s) s.eng.turn = some (c, n)) ∧
  (2048 ≤ slotsHeld s) := by
  decide +kernel

theorem witness_LandingAndDispatch_11 :
  let s : State := up
  (s.eng.landing = [] ∨ nextCtx s (dispatchOrder s) s.eng.turn = none) := by
  decide +kernel

theorem witness_ControlStore_1 :
  let s : State := setFld up (pgUCS 15) UCS_LOAD_LEN 2
  let o : Origin := .pf
  let k : Fin 16 := 15
  let data : Word := 0xABCD
  let a : Nat := 0
  let n : Nat := 2
  let i : Bool := true
  (addrReject s o (pgUCS k + UCS_LOAD_DATA0_4.off + 16) = none) ∧
  (isSet s (pgUCS k) UCS_SWAP_PENDING = false) ∧
  (a = fld s (pgUCS k) UCS_LOAD_ADDR) ∧
  (n = fld s (pgUCS k) UCS_LOAD_LEN) ∧
  (a < n) ∧
  (i = inactiveB s k) := by
  decide +kernel

theorem witness_ControlStore_2 :
  let s : State := setFld up (pgUCS 15) UCS_SWAP_PENDING 1
  let o : Origin := .pf
  let k : Fin 16 := 15
  let data : Word := 0xABCD
  (addrReject s o (pgUCS k + UCS_LOAD_DATA0_4.off + 16) = none) ∧
  (isSet s (pgUCS k) UCS_SWAP_PENDING = true) := by
  decide +kernel

theorem witness_ControlStore_3 :
  let s : State := up
  let o : Origin := .pf
  let k : Fin 16 := 15
  let data : Word := 0xABCD
  (addrReject s o (pgUCS k + UCS_LOAD_DATA0_4.off + 16) = none) ∧
  (isSet s (pgUCS k) UCS_SWAP_PENDING = false) ∧
  (fld s (pgUCS k) UCS_LOAD_LEN ≤ fld s (pgUCS k) UCS_LOAD_ADDR) := by
  decide +kernel

theorem witness_ControlStore_4 :
  let s : State := setCluster up 15 { Cluster.init 15 with bankB := [(5, 0x123456789ABCDEF0123456789)] }
  let o : Origin := .pf
  let k : Fin 16 := 15
  let data : Word := 0x10005
  (addrReject s o (pgUCS k + UCS_RD_ADDR.off) = none) := by
  decide +kernel

theorem witness_ControlStore_5 :
  let s : State := up
  let o : Origin := .pf
  let k : Fin 16 := 3
  let b : Bool := false
  (addrReject s o (pgUCS k + UCS_SWAP_CMD.off) = none) ∧
  (isSet s (pgUCS k) UCS_SWAP_PENDING = false) ∧
  (fld s (pgUCS k) UCS_CALC_CRC = fld s (pgUCS k) UCS_LOAD_CRC) ∧
  (b = isSet s (pgUCS k) UCS_ACTIVE_BANK) := by
  decide +kernel

theorem witness_ControlStore_6 :
  let s : State := setFld up (pgUCS 3) UCS_CALC_CRC 1
  let o : Origin := .pf
  let k : Fin 16 := 3
  (addrReject s o (pgUCS k + UCS_SWAP_CMD.off) = none) ∧
  (isSet s (pgUCS k) UCS_SWAP_PENDING = true ∨ fld s (pgUCS k) UCS_CALC_CRC ≠ fld s (pgUCS k) UCS_LOAD_CRC) := by
  decide +kernel

theorem witness_ControlStore_7 :
  let s : State := setFld up (pgUCS 3) UCS_SWAP_PENDING 1
  let k : Fin 16 := 3
  (isSet s (pgUCS k) UCS_SWAP_PENDING = true) ∧
  (passRuns s k = false) ∧
  ((clusterCtxs k).all (fun c => (ctx s c).st == 0 || (ctx s c).bank != (cluster s k).oldBank) = true) := by
  decide +kernel

theorem witness_ControlStore_8 :
  let s : State := setFld (setCtx up ⟨3, 4, 2⟩ { Ctx.init 0 with st := 1 }) (pgUCS 3) UCS_SWAP_PENDING 1
  let k : Fin 16 := 3
  (isSet s (pgUCS k) UCS_SWAP_PENDING = false ∨ (clusterCtxs k).any (fun c => (ctx s c).st != 0 && (ctx s c).bank == (cluster s k).oldBank) = true) := by
  decide +kernel

theorem witness_SparesAndRoles_1 :
  let s : State := setFld up (pgENG 3) ENG_SPARE_FOR 63
  let o : Origin := .pf
  let k : Fin 16 := 3
  let e : Fin 32 := 31
  (addrReject s o (pgENG k + ENG_SPARE_CMD.off) = none) ∧
  (spareFree s k = true) := by
  decide +kernel

theorem witness_SparesAndRoles_2 :
  let s : State := setFld up (pgENG 3) ENG_SPARE_FOR 7
  let o : Origin := .pf
  let k : Fin 16 := 3
  let e : Fin 32 := 31
  (addrReject s o (pgENG k + ENG_SPARE_CMD.off) = none) ∧
  (spareFree s k = false) := by
  decide +kernel

theorem witness_SparesAndRoles_3 :
  let s : State := setFld up (pgENG 3) ENG_SPARE_FOR 7
  let o : Origin := .pf
  let k : Fin 16 := 3
  let e : Fin 32 := 7
  (addrReject s o (pgENG k + ENG_SPARE_CMD.off) = none) ∧
  (fld s (pgENG k) ENG_SPARE_FOR = e.val) := by
  decide +kernel

theorem witness_SparesAndRoles_4 :
  let s : State := setFld up (pgENG 3) ENG_SPARE_FOR 7
  let o : Origin := .pf
  let k : Fin 16 := 3
  let e : Fin 32 := 8
  (addrReject s o (pgENG k + ENG_SPARE_CMD.off) = none) ∧
  (fld s (pgENG k) ENG_SPARE_FOR ≠ e.val) := by
  decide +kernel

theorem witness_SparesAndRoles_5 :
  let s : State := setCluster up 3 { Cluster.init 3 with leaving := some 32 }
  let k : Fin 16 := 3
  let e : Fin 33 := 32
  ((cluster s k).leaving = some e.val) ∧
  ((ctxsOf k e).all (fun c => (ctx s c).st == 0) = true) ∧
  (checked s k ≠ some e.val) := by
  decide +kernel

theorem witness_SparesAndRoles_6 :
  let s : State := (let a := setCluster up 3 { Cluster.init 3 with leaving := some 5, lenA := 6 }; { a with tst := { a.tst with check := [(3, some 5)] } })
  let k : Fin 16 := 3
  let e : Fin 33 := 5
  let b : Bool := false
  ((cluster s k).leaving = some e.val) ∧
  ((ctxsOf k e).all (fun c => (ctx s c).st == 0) = true) ∧
  (checked s k = some e.val) ∧
  (b = isSet s (pgUCS k) UCS_ACTIVE_BANK) ∧
  (entryVector s k b 6 < imageLen s k b) := by
  decide +kernel

theorem witness_SparesAndRoles_7 :
  let s : State := up
  let k : Fin 16 := 3
  let e : Fin 33 := 32
  ((cluster s k).leaving ≠ some e.val ∨ (ctxsOf k e).any (fun c => (ctx s c).st != 0) = true) := by
  decide +kernel

theorem witness_SparesAndRoles_8 :
  let s : State := setFld (setFld (setFld up (pgENG 3) ENG_SPARE_FOR 63) (pgENG 3) ENG_SPARE_BAD 0) (pgENG 3) ENG_AUTO_SPARE 1
  let k : Fin 16 := 3
  let e : Fin 33 := 7
  (e.val < 32) ∧
  (faultsAlone s k = true) ∧
  (spareFree s k = true) ∧
  (isSet s (pgENG k) ENG_AUTO_SPARE = true) := by
  decide +kernel

theorem witness_SparesAndRoles_9 :
  let s : State := setFld (setFld up (pgENG 3) ENG_SPARE_FOR 63) (pgENG 3) ENG_AUTO_SPARE 1
  let k : Fin 16 := 3
  let e : Fin 33 := 32
  (faultsAlone s k = true) ∧
  (fld s (pgENG k) ENG_SPARE_FOR ≠ e.val) ∧
  (e.val = 32 ∨ isSet s (pgENG k) ENG_AUTO_SPARE = false) := by
  decide +kernel

theorem witness_SparesAndRoles_10 :
  let s : State := up
  let o : Origin := .pf
  let data : Word := 0x00000095
  (addrReject s o (pgDEV + DEV_ROLE_MAP.off) = none) ∧
  (data ≠ reg s (pgDEV + DEV_ROLE_MAP.off)) ∧
  (isSet s pgDEV ANY_LOCK = false) ∧
  (rolesOk data = true) := by
  decide +kernel

theorem witness_SparesAndRoles_11 :
  let s : State := up
  let o : Origin := .pf
  let data : Word := 0x00000015
  (addrReject s o (pgDEV + DEV_ROLE_MAP.off) = none) ∧
  (data ≠ reg s (pgDEV + DEV_ROLE_MAP.off)) ∧
  (isSet s pgDEV ANY_LOCK = false) ∧
  (rolesOk data = false) := by
  decide +kernel

theorem witness_SparesAndRoles_12 :
  let s : State := setFld up pgDEV ANY_LOCK 1
  let o : Origin := .pf
  let data : Word := 0x00000095
  (addrReject s o (pgDEV + DEV_ROLE_MAP.off) = none) ∧
  (data ≠ reg s (pgDEV + DEV_ROLE_MAP.off)) ∧
  (isSet s pgDEV ANY_LOCK = true) := by
  decide +kernel

theorem witness_SparesAndRoles_13 :
  let s : State := { at_ up 9 0 0 with eng := { up.eng with roles := some (0x95, 9) } }
  let w : Word := 0x95
  let f : Nat := 9
  (s.eng.roles = some (w, f)) ∧
  (f ≤ frame s) := by
  decide +kernel

theorem witness_SparesAndRoles_14 :
  let s : State := up
  (s.eng.roles.all (fun x => decide (frame s < x.2)) = true) := by
  decide +kernel

theorem witness_LegendWindow_1 :
  let s : State := { setFld up pgLGD LGD_RULE_IDX 7 with cls := { up.cls with rule := [(7, ⟨0x123456789, 0xFFFFFFFFF, 0x4C, true, 0, 9⟩)] } }
  let o : Origin := .pf
  let i : Nat := 7
  let r : LRule := rule s 7
  (addrReject s o (pgLGD + LGD_CMD.off) = none) ∧
  (isSet s pgLGD LGD_BUSY = false) ∧
  (i = fld s pgLGD LGD_RULE_IDX) ∧
  (r = rule s i) ∧
  (mayUse (Origin.slice o) r.owner = true) := by
  decide +kernel

theorem witness_LegendWindow_2 :
  let s : State := { setFld (setFld up pgSLC SLC_SLICE_EN 4) pgLGD LGD_RULE_IDX 7 with cls := { up.cls with rule := [(7, ⟨0x123456789, 0xFFFFFFFFF, 0x4C, true, 0, 9⟩)] } }
  let o : Origin := .vf 2
  (addrReject s o (pgLGD + LGD_CMD.off) = none) ∧
  (isSet s pgLGD LGD_BUSY = false) ∧
  (mayUse (Origin.slice o) (rule s (fld s pgLGD LGD_RULE_IDX)).owner = false) := by
  decide +kernel

theorem witness_LegendWindow_3 :
  let s : State := setReg (setFld ({ setFld up pgLGD LGD_RULE_IDX 7 with cls := { up.cls with rule := [(7, ⟨0x123456789, 0xFFFFFFFFF, 0x4C, true, 0, 9⟩)] } }) pgLGD LGD_VALID 1) (pgLGD + LGD_ACTION.off) 0x4C
  let o : Origin := .pf
  let i : Nat := 7
  let n : LRule := ruleOfWindow s .pf (rule s 7)
  (addrReject s o (pgLGD + LGD_CMD.off) = none) ∧
  (isSet s pgLGD LGD_BUSY = false) ∧
  (i = fld s pgLGD LGD_RULE_IDX) ∧
  (n = ruleOfWindow s o (rule s i)) ∧
  (mayUse (Origin.slice o) (rule s i).owner = true) ∧
  (foreignQueue s n = false) ∧
  ((n.valid = true → n.badAction = false)) := by
  decide +kernel

theorem witness_LegendWindow_4 :
  let s : State := { setFld (setFld up pgSLC SLC_SLICE_EN 4) pgLGD LGD_RULE_IDX 7 with cls := { up.cls with rule := [(7, ⟨0x123456789, 0xFFFFFFFFF, 0x4C, true, 0, 9⟩)] } }
  let o : Origin := .vf 2
  let i : Nat := 7
  let c : Nat := 2
  let n : LRule := ruleOfWindow s (.vf 2) (rule s 7)
  (addrReject s o (pgLGD + LGD_CMD.off) = none) ∧
  (isSet s pgLGD LGD_BUSY = false) ∧
  (i = fld s pgLGD LGD_RULE_IDX) ∧
  (n = ruleOfWindow s o (rule s i)) ∧
  ((mayUse (Origin.slice o) (rule s i).owner = false ∧ c = 2) ∨ (mayUse (Origin.slice o) (rule s i).owner = true ∧ foreignQueue s n = true ∧ c = if Origin.slice o = 0 then 1 else 2) ∨ (mayUse (Origin.slice o) (rule s i).owner = true ∧ foreignQueue s n = false ∧ n.valid = true ∧ n.badAction = true ∧ c = 1)) := by
  decide +kernel

theorem witness_LegendWindow_5 :
  let s : State := { setFld up pgLGD LGD_RULE_IDX 7 with cls := { up.cls with rule := [(7, ⟨0x123456789, 0xFFFFFFFFF, 0x4C, true, 0, 9⟩)] } }
  let o : Origin := .pf
  let i : Nat := 7
  (addrReject s o (pgLGD + LGD_CMD.off) = none) ∧
  (isSet s pgLGD LGD_BUSY = false) ∧
  (i = fld s pgLGD LGD_RULE_IDX) ∧
  (mayUse (Origin.slice o) (rule s i).owner = true) := by
  decide +kernel

theorem witness_LegendWindow_6 :
  let s : State := { setFld up pgLGD LGD_RULE_IDX 7 with cls := { up.cls with rule := [(7, ⟨0x123456789, 0xFFFFFFFFF, 0x4C, true, 0, 9⟩)] } }
  let o : Origin := .pf
  let i : Nat := 7
  (addrReject s o (pgLGD + LGD_CMD.off) = none) ∧
  (isSet s pgLGD LGD_BUSY = false) ∧
  (i = fld s pgLGD LGD_RULE_IDX) ∧
  (mayUse (Origin.slice o) (rule s i).owner = true) := by
  decide +kernel

theorem witness_LegendWindow_7 :
  let s : State := setFld (setFld ({ setFld up pgLGD LGD_RULE_IDX 7 with cls := { up.cls with rule := [(7, ⟨0x123456789, 0xFFFFFFFFF, 0x4C, true, 0, 9⟩)] } }) pgLGD LGD_MOVE_LAST 9) pgLGD LGD_MOVE_DEST 8
  let o : Origin := .pf
  let a : Nat := 7
  let b : Nat := 9
  let d : Nat := 8
  (addrReject s o (pgLGD + LGD_CMD.off) = none) ∧
  (isSet s pgLGD LGD_BUSY = false) ∧
  (Origin.slice o = 0) ∧
  (a = fld s pgLGD LGD_RULE_IDX) ∧
  (b = fld s pgLGD LGD_MOVE_LAST) ∧
  (d = fld s pgLGD LGD_MOVE_DEST) ∧
  (a ≤ b) ∧
  (d + (b + 1 - a) ≤ 16384) ∧
  (s.cls.rule.any (fun e => e.2.valid && inBlock d (d + (b + 1 - a) - 1) e.1 && !inBlock a b e.1) = false) := by
  decide +kernel

theorem witness_LegendWindow_8 :
  let s : State := setFld (setFld ({ setFld up pgLGD LGD_RULE_IDX 7 with cls := { up.cls with rule := [(7, ⟨0x123456789, 0xFFFFFFFFF, 0x4C, true, 0, 9⟩)] } }) pgLGD LGD_MOVE_LAST 6) pgLGD LGD_MOVE_DEST 8
  let o : Origin := .pf
  let a : Nat := 7
  let b : Nat := 6
  let d : Nat := 8
  let c : Nat := 1
  (addrReject s o (pgLGD + LGD_CMD.off) = none) ∧
  (isSet s pgLGD LGD_BUSY = false) ∧
  (Origin.slice o = 0) ∧
  (a = fld s pgLGD LGD_RULE_IDX) ∧
  (b = fld s pgLGD LGD_MOVE_LAST) ∧
  (d = fld s pgLGD LGD_MOVE_DEST) ∧
  ((b < a ∧ c = 1) ∨ (a ≤ b ∧ s.cls.rule.any (fun e => e.2.valid && inBlock d (d + (b + 1 - a) - 1) e.1 && !inBlock a b e.1) = true ∧ c = 8)) := by
  decide +kernel

theorem witness_LegendWindow_9 :
  let s : State := setFld up pgLGD LGD_BUSY 1
  let i : Instr := .lgdHitClear .pf
  let o : Origin := .pf
  (i = .lgdRuleRead o ∨ i = .lgdRuleWrite o ∨ i = .lgdRuleInvalidate o ∨ i = .lgdMoveBlock o ∨ i = .lgdHitClear o) ∧
  (addrReject s o (pgLGD + LGD_CMD.off) = none) ∧
  (isSet s pgLGD LGD_BUSY = true) := by
  exact ⟨by simp, by decide +kernel, by decide +kernel⟩

theorem witness_LegendWindow_10 :
  let s : State := (let a := setFld (setFld up pgLGD LGD_BUSY 1) pgLGD LGD_RULE_IDX 8; { a with cls := { a.cls with move := some (7, 9, 80) } })
  let i : Instr := .lgdRuleInvalidate .pf
  let o : Origin := .pf
  let m : Nat × Nat × Nat := (7, 9, 80)
  (i = .lgdRuleWrite o ∨ i = .lgdRuleInvalidate o) ∧
  (addrReject s o (pgLGD + LGD_CMD.off) = none) ∧
  (isSet s pgLGD LGD_BUSY = true) ∧
  (s.cls.move = some m) ∧
  (inBlock m.1 m.2.1 (fld s pgLGD LGD_RULE_IDX) = true) := by
  exact ⟨by simp, by decide +kernel, by decide +kernel, by decide +kernel, by decide +kernel⟩

theorem witness_LegendWindow_11 :
  let s : State := { setFld up pgLGD LGD_RULE_IDX 7 with cls := { up.cls with rule := [(7, ⟨0x123456789, 0xFFFFFFFFF, 0x4C, true, 0, 9⟩)], move := some (7, 9, 8) } }
  let a : Nat := 7
  let b : Nat := 9
  let d : Nat := 8
  (s.cls.move = some (a, b, d)) := by
  decide +kernel

theorem witness_LegendWindow_12 :
  let s : State := up
  (s.cls.move = none) := by
  decide +kernel

theorem witness_LegendWindow_13 :
  let s : State := { setFld up pgPRS PRS_VS_VID 100 with cls := { up.cls with vid := [(100, 5)] } }
  let o : Origin := .pf
  (addrReject s o (pgPRS + PRS_VS_CMD.off) = none) := by
  decide +kernel

theorem witness_LegendWindow_14 :
  let s : State := setFld (setFld up pgPRS PRS_VS_VID 4095) pgPRS PRS_VS_SLICE 31
  let o : Origin := .pf
  (addrReject s o (pgPRS + PRS_VS_CMD.off) = none) := by
  decide +kernel

theorem witness_LearnArbiter_1 :
  let s : State := (let a := setCtx (setFld (setFld up pgGZT GZT_GZT_EN 1) pgGZT GZT_LEARN_EN 1) c15 { Ctx.init 0 with tbl := .waiting }; { a with cls := { a.cls with arb := [⟨.learn (0x0000C0000000000000000000 : BitVec 96) 1 0x123456789, 0, 0, some c15, 1, 0⟩] } })
  let r : LearnReq := ⟨.learn (0x0000C0000000000000000000 : BitVec 96) 1 0x123456789, 0, 0, some c15, 1, 0⟩
  let k : BitVec 96 := (0x0000C0000000000000000000 : BitVec 96)
  let ty : Nat := 1
  let d : BitVec 112 := 0x123456789
  let l : Loc := (false, 4 * bucketH1 (3 * 2 ^ 78))
  (nextReq s = some r) ∧
  (s.cls.sweepOwed = []) ∧
  (r.op = .learn k ty d) ∧
  (active s pgGZT GZT_GZT_EN = true) ∧
  (isSet s pgGZT GZT_LEARN_EN = true) ∧
  (mayUse r.slice (keyOwner s k.toNat ty) = true) ∧
  (locate s k.toNat ty = none) ∧
  (freePlace s k.toNat = some l) := by
  refine ⟨?_, ?_, ?_, ?_, ?_, ?_, ?_, ?_⟩ <;> first | decide +kernel | rfl | simp [arbMax]

theorem witness_LearnArbiter_2 :
  let s : State := (let a := setCtx (setFld (setFld up pgGZT GZT_GZT_EN 1) pgGZT GZT_LEARN_EN 1) c15 { Ctx.init 0 with tbl := .waiting }; { a with cls := { a.cls with arb := [⟨.learn (0x0000C0000000000000000000 : BitVec 96) 1 0x123456789, 0, 0, some c15, 1, 0⟩], prim := [(4 * bucketH1 (3 * 2 ^ 78) + 2, (learned 1 0 7 (3 * 2 ^ 78) 0x123456789))] } })
  let r : LearnReq := ⟨.learn (0x0000C0000000000000000000 : BitVec 96) 1 0x123456789, 0, 0, some c15, 1, 0⟩
  let k : BitVec 96 := (0x0000C0000000000000000000 : BitVec 96)
  let ty : Nat := 1
  let d : BitVec 112 := 0x123456789
  let l : Loc := (false, 4 * bucketH1 (3 * 2 ^ 78) + 2)
  (nextReq s = some r) ∧
  (s.cls.sweepOwed = []) ∧
  (r.op = .learn k ty d) ∧
  (active s pgGZT GZT_GZT_EN = true) ∧
  (isSet s pgGZT GZT_LEARN_EN = true) ∧
  (mayUse r.slice (keyOwner s k.toNat ty) = true) ∧
  (locate s k.toNat ty = some l) ∧
  (entStatic (entAt s l) = false) ∧
  (entF (entAt s l) 91 21 = d.toNat / 2 ^ 91) := by
  refine ⟨?_, ?_, ?_, ?_, ?_, ?_, ?_, ?_, ?_⟩ <;> first | decide +kernel | rfl | simp [arbMax]

theorem witness_LearnArbiter_3 :
  let s : State := (let a := setCtx (setFld (setFld up pgGZT GZT_GZT_EN 1) pgGZT GZT_LEARN_EN 1) c15 { Ctx.init 0 with tbl := .waiting }; { a with cls := { a.cls with arb := [⟨.learn (0x0000C0000000000000000000 : BitVec 96) 1 0x123456789, 0, 0, some c15, 1, 0⟩], prim := [(4 * bucketH1 (3 * 2 ^ 78) + 2, setEntF (learned 1 0 7 (3 * 2 ^ 78) 0x123456789) 253 1 1)] } })
  let r : LearnReq := ⟨.learn (0x0000C0000000000000000000 : BitVec 96) 1 0x123456789, 0, 0, some c15, 1, 0⟩
  let k : BitVec 96 := (0x0000C0000000000000000000 : BitVec 96)
  let ty : Nat := 1
  let d : BitVec 112 := 0x123456789
  let l : Loc := (false, 4 * bucketH1 (3 * 2 ^ 78) + 2)
  (nextReq s = some r) ∧
  (s.cls.sweepOwed = []) ∧
  (r.op = .learn k ty d) ∧
  (active s pgGZT GZT_GZT_EN = true) ∧
  (isSet s pgGZT GZT_LEARN_EN = true) ∧
  (mayUse r.slice (keyOwner s k.toNat ty) = true) ∧
  (locate s k.toNat ty = some l) ∧
  (entStatic (entAt s l) = true) := by
  refine ⟨?_, ?_, ?_, ?_, ?_, ?_, ?_, ?_⟩ <;> first | decide +kernel | rfl | simp [arbMax]

theorem witness_LearnArbiter_4 :
  let s : State := (let a := setCtx up c15 { Ctx.init 0 with tbl := .waiting }; { a with cls := { a.cls with arb := [⟨.learn (0x0000C0000000000000000000 : BitVec 96) 1 0x123456789, 0, 0, some c15, 1, 0⟩] } })
  let r : LearnReq := ⟨.learn (0x0000C0000000000000000000 : BitVec 96) 1 0x123456789, 0, 0, some c15, 1, 0⟩
  let k : BitVec 96 := (0x0000C0000000000000000000 : BitVec 96)
  let ty : Nat := 1
  let d : BitVec 112 := 0x123456789
  (nextReq s = some r) ∧
  (s.cls.sweepOwed = []) ∧
  (r.op = .learn k ty d) ∧
  (active s pgGZT GZT_GZT_EN = false ∨ isSet s pgGZT GZT_LEARN_EN = false) := by
  refine ⟨?_, ?_, ?_, ?_⟩ <;> first | decide +kernel | rfl | simp [arbMax]

theorem witness_LearnArbiter_5 :
  let s : State := (let a := setCtx (setFld (setFld up pgGZT GZT_GZT_EN 1) pgGZT GZT_LEARN_EN 1) c15 { Ctx.init 0 with tbl := .waiting }; { a with cls := { a.cls with arb := [⟨.refresh (0x0000C0000000000000000000 : BitVec 96) 1, 0, 0, some c15, 1, 0⟩], prim := [(4 * bucketH1 (3 * 2 ^ 78) + 2, (learned 1 0 7 (3 * 2 ^ 78) 5))] } })
  let r : LearnReq := ⟨.refresh (0x0000C0000000000000000000 : BitVec 96) 1, 0, 0, some c15, 1, 0⟩
  let k : BitVec 96 := (0x0000C0000000000000000000 : BitVec 96)
  let ty : Nat := 1
  let l : Loc := (false, 4 * bucketH1 (3 * 2 ^ 78) + 2)
  (nextReq s = some r) ∧
  (s.cls.sweepOwed = []) ∧
  (r.op = .refresh k ty) ∧
  (mayUse r.slice (keyOwner s k.toNat ty) = true) ∧
  (locate s k.toNat ty = some l) := by
  refine ⟨?_, ?_, ?_, ?_, ?_⟩ <;> first | decide +kernel | rfl | simp [arbMax]

theorem witness_LearnArbiter_6 :
  let s : State := (let a := setCtx (setFld (setFld up pgGZT GZT_GZT_EN 1) pgGZT GZT_LEARN_EN 1) c15 { Ctx.init 0 with tbl := .waiting }; { a with cls := { a.cls with arb := [⟨.delete (0x0000C0000000000000000000 : BitVec 96) 1, 0, 0, some c15, 1, 0⟩], prim := [(4 * bucketH1 (3 * 2 ^ 78) + 2, (learned 1 0 7 (3 * 2 ^ 78) 5))] } })
  let r : LearnReq := ⟨.delete (0x0000C0000000000000000000 : BitVec 96) 1, 0, 0, some c15, 1, 0⟩
  let k : BitVec 96 := (0x0000C0000000000000000000 : BitVec 96)
  let ty : Nat := 1
  let l : Loc := (false, 4 * bucketH1 (3 * 2 ^ 78) + 2)
  (nextReq s = some r) ∧
  (s.cls.sweepOwed = []) ∧
  (r.op = .delete k ty) ∧
  (mayUse r.slice (keyOwner s k.toNat ty) = true) ∧
  (locate s k.toNat ty = some l) ∧
  (l.1 = true ∨ ovfCnt s (bucketH1 (entKey (entAt s l))) = 0) := by
  refine ⟨?_, ?_, ?_, ?_, ?_, ?_⟩ <;> first | decide +kernel | rfl | simp [arbMax]

theorem witness_LearnArbiter_7 :
  let s : State := up
  (nextReq s = none) ∧
  (s.cls.sweepOwed = []) := by
  decide +kernel

theorem witness_LearnArbiter_8 :
  let s : State := (let a := setFld (setFld (setFld up pgGZT GZT_AGE_EN 1) pgGZT GZT_AGE_LIMIT 3) pgGZT GZT_AGE_NOW 20; { a with cls := { a.cls with prim := [(4 * bucketH1 (3 * 2 ^ 78) + 2, (learned 1 0 7 (3 * 2 ^ 78) 5))], sweepOwed := [(false, 4 * bucketH1 (3 * 2 ^ 78) + 2)] } })
  let l : Loc := (false, 4 * bucketH1 (3 * 2 ^ 78) + 2)
  (nextReq s = none) ∧
  (s.cls.sweepOwed = [l]) ∧
  (bucketBusy s (bucketH1 (entKey (entAt s l))) = false) ∧
  (oldCopy s l = false) ∧
  (entType (entAt s l) ≠ 0) ∧
  (isSet s pgGZT GZT_AGE_EN = true) ∧
  (entStatic (entAt s l) = false) ∧
  (fld s pgGZT GZT_AGE_LIMIT ≤ entAgeOf s l) ∧
  (l.1 = true ∨ ovfCnt s (bucketH1 (entKey (entAt s l))) = 0) := by
  decide +kernel

theorem witness_LearnArbiter_9 :
  let s : State := { at_ up 1 0 0 with cls := { up.cls with reloc := [⟨9, 3, 0⟩], ovf := [(3, 77)] } }
  let b : Nat := 9
  let r : Reloc := ⟨9, 3, 0⟩
  (s.cls.reloc.find? (fun x => x.bucket == b && x.until_ ≤ (now s).fineIndex) = some r) ∧
  (s.cls.sweepOwed = []) := by
  decide +kernel

theorem witness_LearnArbiter_10 :
  let s : State := up
  let b : Nat := 9
  (s.cls.reloc.find? (fun x => x.bucket == b && x.until_ ≤ (now s).fineIndex) = none) := by
  decide +kernel

theorem witness_LearnArbiter_11 :
  let s : State := up
  (s.cls.ageFrames < fld s pgGZT GZT_AGE_TICK) := by
  decide +kernel

theorem witness_LearnArbiter_12 :
  let s : State := { up with cls := { up.cls with ageFrames := 4294967295 } }
  (fld s pgGZT GZT_AGE_TICK ≤ s.cls.ageFrames) := by
  decide +kernel

theorem witness_LearnArbiter_13 :
  let s : State := (let a := setFld (setFld (setFld up pgGZT GZT_AGE_EN 1) pgGZT GZT_AGE_LIMIT 3) pgGZT GZT_AGE_NOW 9; { a with cls := { a.cls with ageFrames := 4294967295, prim := [(4 * bucketH1 (3 * 2 ^ 78) + 2, (learned 1 0 7 (3 * 2 ^ 78) 5))] } })
  let l : Loc := (false, 4 * bucketH1 (3 * 2 ^ 78) + 2)
  (fld s pgGZT GZT_AGE_TICK ≤ s.cls.ageFrames) ∧
  (s.cls.sweepDue = 0) ∧
  (allPlaces s = [l]) ∧
  (bucketBusy s (bucketH1 (entKey (entAt s l))) = false) ∧
  (oldCopy s l = false) ∧
  (entType (entAt s l) ≠ 0) ∧
  (isSet s pgGZT GZT_AGE_EN = true) ∧
  (entStatic (entAt s l) = false) ∧
  (fld s pgGZT GZT_AGE_LIMIT ≤ ((ageNow s + 1) % 65536 + 65536 - entAge (entAt s l)) % 65536) ∧
  (l.1 = true ∨ ovfCnt s (bucketH1 (entKey (entAt s l))) = 0) := by
  refine ⟨?_, ?_, ?_, ?_, ?_, ?_, ?_, ?_, ?_, ?_⟩ <;> first | decide +kernel | rfl | simp [arbMax]

theorem witness_LearnArbiter_14 :
  let s : State := (let a := setFld (setFld (setFld up pgGZT GZT_AGE_EN 1) pgGZT GZT_AGE_LIMIT 3) pgGZT GZT_AGE_NOW 20; { a with cls := { a.cls with prim := [(4 * bucketH1 (3 * 2 ^ 78) + 2, (learned 1 0 7 (3 * 2 ^ 78) 5))], ageFrames := 4294967295, reloc := [⟨bucketH1 (3 * 2 ^ 78), 3, 9⟩] } })
  let l : Loc := (false, 4 * bucketH1 (3 * 2 ^ 78) + 2)
  (fld s pgGZT GZT_AGE_TICK ≤ s.cls.ageFrames) ∧
  (s.cls.sweepDue = 0) ∧
  (s.cls.sweepOwed = []) ∧
  (allPlaces s = [l]) ∧
  (bucketBusy s (bucketH1 (entKey (entAt s l))) = true) := by
  decide +kernel

theorem witness_LearnArbiter_15 :
  let s : State := { up with cls := { up.cls with ageFrames := 4294967295, sweepDue := 1, sweepOwed := [(false, 3)] } }
  (fld s pgGZT GZT_AGE_TICK ≤ s.cls.ageFrames) ∧
  (s.cls.sweepDue = 1) ∧
  (s.cls.sweepOwed ≠ []) := by
  decide +kernel

theorem witness_GazetteerWindow_1 :
  let s : State := (let a := showEnt (setFld (setFld up pgGZT GZT_GZT_EN 1) pgGZT GZT_LEARN_EN 1) (learned 1 0 7 (3 * 2 ^ 78) 5); { a with cls := { a.cls with prim := [(4 * bucketH1 (3 * 2 ^ 78) + 2, (learned 1 0 7 (3 * 2 ^ 78) 5))] } })
  let o : Origin := .pf
  let l : Loc := (false, 4 * bucketH1 (3 * 2 ^ 78) + 2)
  (addrReject s o (pgGZT + GZT_CMD.off) = none) ∧
  (isSet s pgGZT GZT_BUSY = false) ∧
  (mayUse (Origin.slice o) (imageOwner s) = true) ∧
  (keyBad (gztImage s) = false) ∧
  (active s pgGZT GZT_GZT_EN = true) ∧
  (locate s (entKey (gztImage s)) (entType (gztImage s)) = some l) := by
  refine ⟨?_, ?_, ?_, ?_, ?_, ?_⟩ <;> first | decide +kernel | rfl | simp [arbMax]

theorem witness_GazetteerWindow_2 :
  let s : State := (let a := showEnt (setFld (setFld up pgGZT GZT_GZT_EN 1) pgGZT GZT_LEARN_EN 1) (learned 1 0 7 (3 * 2 ^ 78) 5); a)
  let o : Origin := .pf
  (addrReject s o (pgGZT + GZT_CMD.off) = none) ∧
  (isSet s pgGZT GZT_BUSY = false) ∧
  (mayUse (Origin.slice o) (imageOwner s) = true) ∧
  (keyBad (gztImage s) = false) ∧
  (active s pgGZT GZT_GZT_EN = false ∨ locate s (entKey (gztImage s)) (entType (gztImage s)) = none) := by
  decide +kernel

theorem witness_GazetteerWindow_3 :
  let s : State := (let a := showEnt (setFld up pgSLC SLC_SLICE_EN 4) (learned 1 0 7 (3 * 2 ^ 78) 5); a)
  let i : Instr := .gztThaw (.vf 2)
  let o : Origin := .vf 2
  (i = .gztLookupCmd o ∨ i = .gztInsert o ∨ i = .gztDeleteCmd o ∨ i = .gztThaw o) ∧
  (addrReject s o (pgGZT + GZT_CMD.off) = none) ∧
  (isSet s pgGZT GZT_BUSY = false) ∧
  (mayUse (Origin.slice o) (imageOwner s) = false) := by
  refine ⟨?_, ?_, ?_, ?_⟩ <;> first | decide +kernel | rfl | simp [arbMax]

theorem witness_GazetteerWindow_4 :
  let s : State := showEnt (setFld (setFld up pgGZT GZT_GZT_EN 1) pgGZT GZT_LEARN_EN 1) 0
  let i : Instr := .gztThaw .pf
  let o : Origin := .pf
  (i = .gztLookupCmd o ∨ i = .gztDeleteCmd o ∨ i = .gztThaw o) ∧
  (addrReject s o (pgGZT + GZT_CMD.off) = none) ∧
  (isSet s pgGZT GZT_BUSY = false) ∧
  (mayUse (Origin.slice o) (imageOwner s) = true) ∧
  (keyBad (gztImage s) = true) := by
  exact ⟨by simp, by decide +kernel, by decide +kernel, by decide +kernel, by decide +kernel⟩

theorem witness_GazetteerWindow_5 :
  let s : State := setFld up pgGZT GZT_BUSY 1
  let i : Instr := .gztFlushDest .pf
  let o : Origin := .pf
  (i = .gztLookupCmd o ∨ i = .gztInsert o ∨ i = .gztDeleteCmd o ∨ i = .gztReadSlot o ∨ i = .gztFlushDomain o ∨ i = .gztFlushDest o ∨ i = .gztThaw o ∨ i = .gztSetDomainOwner o) ∧
  (addrReject s o (pgGZT + GZT_CMD.off) = none) ∧
  (isSet s pgGZT GZT_BUSY = true) := by
  exact ⟨by simp, by decide +kernel, by decide +kernel⟩

theorem witness_GazetteerWindow_6 :
  let s : State := (let a := showEnt (setFld (setFld up pgGZT GZT_GZT_EN 1) pgGZT GZT_LEARN_EN 1) (learned 1 0 7 (3 * 2 ^ 78) 5); { a with cls := { a.cls with reloc := [⟨bucketH1 (3 * 2 ^ 78), 3, 9⟩] } })
  let i : Instr := .gztThaw .pf
  let o : Origin := .pf
  let e : BitVec 256 := gztImage s
  let op : LearnOp := .thaw (BitVec.ofNat 96 (entKey e)) (entType e)
  (e = gztImage s) ∧
  ((i = .gztInsert o ∧ op = .insert e ∧ imageBad e = false ∧ fld s pgGZT GZT_ENTRIES_USED < hostEntries) ∨ (i = .gztDeleteCmd o ∧ op = .delete (BitVec.ofNat 96 (entKey e)) (entType e) ∧ keyBad e = false) ∨ (i = .gztThaw o ∧ op = .thaw (BitVec.ofNat 96 (entKey e)) (entType e) ∧ keyBad e = false)) ∧
  (addrReject s o (pgGZT + GZT_CMD.off) = none) ∧
  (isSet s pgGZT GZT_BUSY = false) ∧
  (mayUse (Origin.slice o) (imageOwner s) = true) ∧
  (bucketBusy s (bucketH1 (entKey e)) = true) := by
  exact ⟨rfl, .inr (.inr ⟨rfl, rfl, by decide +kernel⟩), by decide +kernel, by decide +kernel, by decide +kernel, by decide +kernel⟩

theorem witness_GazetteerWindow_7 :
  let s : State := (let a := showEnt (setFld (setFld up pgGZT GZT_GZT_EN 1) pgGZT GZT_LEARN_EN 1) (learned 1 0 7 (3 * 2 ^ 78) 5); a)
  let o : Origin := .pf
  let e : BitVec 256 := gztImage s
  let l : Loc := (false, 4 * bucketH1 (3 * 2 ^ 78))
  (addrReject s o (pgGZT + GZT_CMD.off) = none) ∧
  (isSet s pgGZT GZT_BUSY = false) ∧
  (mayUse (Origin.slice o) (imageOwner s) = true) ∧
  (e = gztImage s) ∧
  (imageBad e = false) ∧
  (fld s pgGZT GZT_ENTRIES_USED < hostEntries) ∧
  (bucketBusy s (bucketH1 (entKey e)) = false) ∧
  (locate s (entKey e) (entType e) = none) ∧
  (freePlace s (entKey e) = some l) := by
  refine ⟨?_, ?_, ?_, ?_, ?_, ?_, ?_, ?_, ?_⟩ <;> first | decide +kernel | rfl | simp [arbMax]

theorem witness_GazetteerWindow_8 :
  let s : State := (let a := showEnt (setFld (setFld up pgGZT GZT_GZT_EN 1) pgGZT GZT_LEARN_EN 1) (learned 1 0 7 (3 * 2 ^ 78) 5); { a with cls := { a.cls with prim := [(4 * bucketH1 (3 * 2 ^ 78) + 2, (learned 1 0 7 (3 * 2 ^ 78) 5))] } })
  let o : Origin := .pf
  let e : BitVec 256 := gztImage s
  let l : Loc := (false, 4 * bucketH1 (3 * 2 ^ 78) + 2)
  (addrReject s o (pgGZT + GZT_CMD.off) = none) ∧
  (isSet s pgGZT GZT_BUSY = false) ∧
  (mayUse (Origin.slice o) (imageOwner s) = true) ∧
  (e = gztImage s) ∧
  (imageBad e = false) ∧
  (fld s pgGZT GZT_ENTRIES_USED < hostEntries) ∧
  (bucketBusy s (bucketH1 (entKey e)) = false) ∧
  (locate s (entKey e) (entType e) = some l) := by
  refine ⟨?_, ?_, ?_, ?_, ?_, ?_, ?_, ?_⟩ <;> first | decide +kernel | rfl | simp [arbMax]

theorem witness_GazetteerWindow_9 :
  let s : State := (let a := showEnt (setFld (setFld up pgGZT GZT_GZT_EN 1) pgGZT GZT_LEARN_EN 1) (learned 1 0 7 (3 * 2 ^ 78) 5); { a with cls := { a.cls with prim := (List.range 4).map (fun i => (4 * bucketH1 (3 * 2 ^ 78) + i, learned 1 0 7 (4 * 2 ^ 78) 5)), ovfCnt := [(bucketH1 (3 * 2 ^ 78), 15)] } })
  let o : Origin := .pf
  let e : BitVec 256 := gztImage s
  (addrReject s o (pgGZT + GZT_CMD.off) = none) ∧
  (isSet s pgGZT GZT_BUSY = false) ∧
  (mayUse (Origin.slice o) (imageOwner s) = true) ∧
  (e = gztImage s) ∧
  (imageBad e = false) ∧
  (fld s pgGZT GZT_ENTRIES_USED < hostEntries) ∧
  (bucketBusy s (bucketH1 (entKey e)) = false) ∧
  (locate s (entKey e) (entType e) = none) ∧
  (freePlace s (entKey e) = none) := by
  decide +kernel

theorem witness_GazetteerWindow_10 :
  let s : State := (let a := showEnt (setFld (setFld up pgGZT GZT_GZT_EN 1) pgGZT GZT_LEARN_EN 1) 0; a)
  let o : Origin := .pf
  (addrReject s o (pgGZT + GZT_CMD.off) = none) ∧
  (isSet s pgGZT GZT_BUSY = false) ∧
  (mayUse (Origin.slice o) (imageOwner s) = true) ∧
  (imageBad (gztImage s) = true ∨ hostEntries ≤ fld s pgGZT GZT_ENTRIES_USED) := by
  decide +kernel

theorem witness_GazetteerWindow_11 :
  let s : State := (let a := showEnt (setFld (setFld up pgGZT GZT_GZT_EN 1) pgGZT GZT_LEARN_EN 1) (learned 1 0 7 (3 * 2 ^ 78) 5); { a with cls := { a.cls with prim := [(4 * bucketH1 (3 * 2 ^ 78) + 2, (learned 1 0 7 (3 * 2 ^ 78) 5))] } })
  let o : Origin := .pf
  let l : Loc := (false, 4 * bucketH1 (3 * 2 ^ 78) + 2)
  (addrReject s o (pgGZT + GZT_CMD.off) = none) ∧
  (isSet s pgGZT GZT_BUSY = false) ∧
  (mayUse (Origin.slice o) (imageOwner s) = true) ∧
  (keyBad (gztImage s) = false) ∧
  (bucketBusy s (bucketH1 (entKey (gztImage s))) = false) ∧
  (locate s (entKey (gztImage s)) (entType (gztImage s)) = some l) ∧
  (l.1 = true ∨ ovfCnt s (bucketH1 (entKey (entAt s l))) = 0) := by
  refine ⟨?_, ?_, ?_, ?_, ?_, ?_, ?_⟩ <;> first | decide +kernel | rfl | simp [arbMax]

theorem witness_GazetteerWindow_12 :
  let s : State := (let a := showEnt (setFld (setFld up pgGZT GZT_GZT_EN 1) pgGZT GZT_LEARN_EN 1) (learned 1 0 7 (3 * 2 ^ 78) 5); { a with cls := { a.cls with prim := [(4 * bucketH1 (3 * 2 ^ 78) + 2, setEntF (learned 1 0 7 (3 * 2 ^ 78) 5) 252 1 1)] } })
  let o : Origin := .pf
  let l : Loc := (false, 4 * bucketH1 (3 * 2 ^ 78) + 2)
  (addrReject s o (pgGZT + GZT_CMD.off) = none) ∧
  (isSet s pgGZT GZT_BUSY = false) ∧
  (mayUse (Origin.slice o) (imageOwner s) = true) ∧
  (keyBad (gztImage s) = false) ∧
  (bucketBusy s (bucketH1 (entKey (gztImage s))) = false) ∧
  (locate s (entKey (gztImage s)) (entType (gztImage s)) = some l) := by
  refine ⟨?_, ?_, ?_, ?_, ?_, ?_⟩ <;> first | decide +kernel | rfl | simp [arbMax]

theorem witness_GazetteerWindow_13 :
  let s : State := (let a := showEnt (setFld (setFld up pgGZT GZT_GZT_EN 1) pgGZT GZT_LEARN_EN 1) (learned 1 0 7 (3 * 2 ^ 78) 5); a)
  let i : Instr := .gztThaw .pf
  let o : Origin := .pf
  (i = .gztDeleteCmd o ∨ i = .gztThaw o) ∧
  (addrReject s o (pgGZT + GZT_CMD.off) = none) ∧
  (isSet s pgGZT GZT_BUSY = false) ∧
  (mayUse (Origin.slice o) (imageOwner s) = true) ∧
  (keyBad (gztImage s) = false) ∧
  (bucketBusy s (bucketH1 (entKey (gztImage s))) = false) ∧
  (locate s (entKey (gztImage s)) (entType (gztImage s)) = none) := by
  refine ⟨?_, ?_, ?_, ?_, ?_, ?_, ?_⟩ <;> first | decide +kernel | rfl | simp [arbMax]

theorem witness_GazetteerWindow_14 :
  let s : State := setFld (setFld ((let a := showEnt (setFld (setFld up pgGZT GZT_GZT_EN 1) pgGZT GZT_LEARN_EN 1) (learned 1 0 7 (3 * 2 ^ 78) 5); { a with cls := { a.cls with prim := [(4 * bucketH1 (3 * 2 ^ 78) + 2, (learned 1 0 7 (3 * 2 ^ 78) 5))] } })) pgGZT GZT_SLOT 2) pgGZT GZT_BUCKET (bucketH1 (3 * 2 ^ 78))
  let o : Origin := .pf
  let l : Loc := (false, 4 * bucketH1 (3 * 2 ^ 78) + 2)
  (addrReject s o (pgGZT + GZT_CMD.off) = none) ∧
  (isSet s pgGZT GZT_BUSY = false) ∧
  (mayUse (Origin.slice o) (placeOwner o s) = true) ∧
  (windowPlace s = some l) := by
  refine ⟨?_, ?_, ?_, ?_⟩ <;> first | decide +kernel | rfl | simp [arbMax]

theorem witness_GazetteerWindow_15 :
  let s : State := setFld up pgGZT GZT_SLOT 4
  let o : Origin := .pf
  (addrReject s o (pgGZT + GZT_CMD.off) = none) ∧
  (isSet s pgGZT GZT_BUSY = false) ∧
  (windowPlace s = none) := by
  decide +kernel

theorem witness_GazetteerWindow_16 :
  let s : State := up
  let i : Instr := .gztFlushDest .pf
  let o : Origin := .pf
  let b : Bulk := ⟨true, 0, 0⟩
  ((i = .gztFlushDomain o ∧ b = ⟨false, fld s pgGZT GZT_ARG % 65536, Origin.slice o⟩ ∧ mayUse (Origin.slice o) (tget dzero s.cls.domain b.arg) = true) ∨ (i = .gztFlushDest o ∧ b = ⟨true, fld s pgGZT GZT_ARG, Origin.slice o⟩)) ∧
  (addrReject s o (pgGZT + GZT_CMD.off) = none) ∧
  (isSet s pgGZT GZT_BUSY = false) ∧
  (s.cls.bulk = none) := by
  refine ⟨?_, ?_, ?_, ?_⟩ <;> first | decide +kernel | rfl | simp [arbMax]

theorem witness_GazetteerWindow_17 :
  let s : State := { up with cls := { up.cls with bulk := some ⟨true, 0, 0⟩ } }
  let o : Origin := .pf
  let b : Bulk := ⟨true, 0, 0⟩
  (addrReject s o (pgGZT + GZT_CMD.off) = none) ∧
  (isSet s pgGZT GZT_BUSY = false) ∧
  (s.cls.bulk = some b) := by
  decide +kernel

theorem witness_GazetteerWindow_18 :
  let s : State := setFld ((let a := showEnt (setFld (setFld up pgGZT GZT_GZT_EN 1) pgGZT GZT_LEARN_EN 1) (learned 1 0 7 (3 * 2 ^ 78) 5); { a with cls := { a.cls with prim := [(4 * bucketH1 (3 * 2 ^ 78) + 2, (learned 1 0 7 (3 * 2 ^ 78) 5))] } })) pgGZT GZT_ARG 101
  let o : Origin := .pf
  (addrReject s o (pgGZT + GZT_CMD.off) = none) ∧
  (isSet s pgGZT GZT_BUSY = false) ∧
  (Origin.slice o = 0) := by
  decide +kernel

theorem witness_GazetteerWindow_19 :
  let s : State := (let a := (let a := showEnt (setFld (setFld up pgGZT GZT_GZT_EN 1) pgGZT GZT_LEARN_EN 1) (learned 1 0 7 (3 * 2 ^ 78) 5); { a with cls := { a.cls with prim := [(4 * bucketH1 (3 * 2 ^ 78) + 2, (learned 1 0 7 (3 * 2 ^ 78) 5))] } }); { a with cls := { a.cls with bulk := some ⟨false, 3, 0⟩ } })
  let b : Bulk := ⟨false, 3, 0⟩
  let l : Loc := (false, 4 * bucketH1 (3 * 2 ^ 78) + 2)
  (s.cls.bulk = some b) ∧
  (allPlaces s = [l]) ∧
  (b.takes s (entAt s l) = true) ∧
  (bucketBusy s (bucketH1 (entKey (entAt s l))) = false) ∧
  (oldCopy s l = false) ∧
  (l.1 = true ∨ ovfCnt s (bucketH1 (entKey (entAt s l))) = 0) := by
  refine ⟨?_, ?_, ?_, ?_, ?_, ?_⟩ <;> first | decide +kernel | rfl | simp [arbMax]

theorem witness_GazetteerWindow_20 :
  let s : State := (let a := showEnt (setFld (setFld up pgGZT GZT_GZT_EN 1) pgGZT GZT_LEARN_EN 1) (learned 1 0 7 (3 * 2 ^ 78) 5); { a with cls := { a.cls with prim := [(4 * bucketH1 (3 * 2 ^ 78) + 2, (learned 1 0 7 (3 * 2 ^ 78) 5))], bulk := some ⟨false, 3, 0⟩, reloc := [⟨bucketH1 (3 * 2 ^ 78), 3, 9⟩] } })
  let b : Bulk := ⟨false, 3, 0⟩
  let l : Loc := (false, 4 * bucketH1 (3 * 2 ^ 78) + 2)
  (s.cls.bulk = some b) ∧
  (allPlaces s = [l]) ∧
  (b.takes s (entAt s l) = true) ∧
  (bucketBusy s (bucketH1 (entKey (entAt s l))) = true) ∧
  (oldCopy s l = false) := by
  decide +kernel

theorem witness_GazetteerWindow_21 :
  let s : State := { up with cls := { up.cls with bulk := some ⟨false, 3, 0⟩ } }
  let b : Bulk := ⟨false, 3, 0⟩
  (s.cls.bulk = some b) ∧
  ((allPlaces s).any (fun l => b.takes s (entAt s l)) = false) := by
  decide +kernel

theorem witness_GazetteerWindow_22 :
  let s : State := up
  (s.cls.bulk = none) := by
  decide +kernel

theorem witness_QueueAndNodeWindows_1 :
  let s : State := { setFld up pgTMQ TMQ_Q_IDX 9 with tm := { up.tm with q := [(9, { Queue.init 9 with occ := 77, cnts := [1, 2, 3, 2 ^ 40, 5, 6, 7, 8] })] } }
  let o : Origin := .pf
  let k : Nat := 9
  (addrReject s o (pgTMQ + TMQ_Q_CMD.off) = none) ∧
  (qSel s = some k) ∧
  (mayUse (Origin.slice o) (ownerOfQueue s k) = true) := by
  decide +kernel

theorem witness_QueueAndNodeWindows_2 :
  let s : State := setFld up pgSLC SLC_SLICE_EN 4
  let i : Instr := .queueRead (.vf 2)
  let o : Origin := .vf 2
  let k : Nat := 0
  (i = .queueRead o ∨ i = .queueWrite o ∨ i = .queueCounterClear o) ∧
  (addrReject s o (pgTMQ + TMQ_Q_CMD.off) = none) ∧
  (qSel s = some k) ∧
  (mayUse (Origin.slice o) (ownerOfQueue s k) = false) := by
  exact ⟨by simp, by decide +kernel, by decide +kernel, by decide +kernel⟩

theorem witness_QueueAndNodeWindows_3 :
  let s : State := setFld (setFld up pgTMQ TMQ_UPQ 1) pgTMQ TMQ_Q_IDX 8192
  let i : Instr := .queueWrite .pf
  let o : Origin := .pf
  (i = .queueRead o ∨ i = .queueWrite o ∨ i = .queueCounterClear o) ∧
  (addrReject s o (pgTMQ + TMQ_Q_CMD.off) = none) ∧
  (qSel s = none) := by
  exact ⟨by simp, by decide +kernel, by decide +kernel⟩

theorem witness_QueueAndNodeWindows_4 :
  let s : State := setFld (setFld (setFld (setFld up pgTMQ TMQ_Q_IDX 9) pgTMQ TMQ_MAX 100) pgTMQ TMQ_WARM 64) pgTMQ TMQ_YEL_T 50
  let o : Origin := .pf
  let k : Nat := 9
  let n : Queue := queueOfWindow s 9
  (addrReject s o (pgTMQ + TMQ_Q_CMD.off) = none) ∧
  (qSel s = some k) ∧
  (mayUse (Origin.slice o) (ownerOfQueue s k) = true) ∧
  (n = queueOfWindow s k) ∧
  (queueBad k n = false) ∧
  (rsvRejected s k n = false) := by
  decide +kernel

theorem witness_QueueAndNodeWindows_5 :
  let s : State := setFld (setFld (setFld (setFld (setFld up pgTMQ TMQ_Q_IDX 9) pgTMQ TMQ_MAX 100) pgTMQ TMQ_WARM 64) pgTMQ TMQ_YEL_T 50) pgTMQ TMQ_RSV 5
  let o : Origin := .pf
  let k : Nat := 9
  let n : Queue := queueOfWindow s 9
  (addrReject s o (pgTMQ + TMQ_Q_CMD.off) = none) ∧
  (qSel s = some k) ∧
  (mayUse (Origin.slice o) (ownerOfQueue s k) = true) ∧
  (n = queueOfWindow s k) ∧
  (queueBad k n = true ∨ rsvRejected s k n = true) := by
  decide +kernel

theorem witness_QueueAndNodeWindows_6 :
  let s : State := { setFld (setFld up pgTMQ TMQ_UPQ 1) pgTMQ TMQ_Q_IDX 8191 with tm := { up.tm with q := [(73727, { Queue.init 9 with cnts := [1, 2] })] } }
  let o : Origin := .pf
  let k : Nat := 73727
  (addrReject s o (pgTMQ + TMQ_Q_CMD.off) = none) ∧
  (qSel s = some k) ∧
  (mayUse (Origin.slice o) (ownerOfQueue s k) = true) := by
  decide +kernel

theorem witness_QueueAndNodeWindows_7 :
  let s : State := { setFld up pgTMQ TMQ_ONU_NODE 16383 with tm := { up.tm with onu := [(16383, (800, 8))] } }
  let o : Origin := .pf
  let u : Nat := 16383
  (addrReject s o (pgTMQ + TMQ_ONU_CMD.off) = none) ∧
  (u = fld s pgTMQ TMQ_ONU_NODE) ∧
  (mayUse (Origin.slice o) (onuOwner s (u / 512) (u % 512)) = true) := by
  decide +kernel

theorem witness_QueueAndNodeWindows_8 :
  let s : State := setFld (setFld (setFld up pgTMQ TMQ_ONU_NODE 513) pgTMQ TMQ_QBASE 65472) pgTMQ TMQ_QCOUNT 64
  let o : Origin := .pf
  let u : Nat := 513
  let n : Nat × Nat := (65472, 64)
  (addrReject s o (pgTMQ + TMQ_ONU_CMD.off) = none) ∧
  (u = fld s pgTMQ TMQ_ONU_NODE) ∧
  (mayUse (Origin.slice o) (onuOwner s (u / 512) (u % 512)) = true) ∧
  (n = (fld s pgTMQ TMQ_QBASE, fld s pgTMQ TMQ_QCOUNT)) ∧
  (onuRangeRejected s u n = false) := by
  decide +kernel

theorem witness_QueueAndNodeWindows_9 :
  let s : State := setFld (setFld (setFld up pgTMQ TMQ_ONU_NODE 513) pgTMQ TMQ_QBASE 65473) pgTMQ TMQ_QCOUNT 64
  let o : Origin := .pf
  let u : Nat := 513
  let n : Nat × Nat := (65473, 64)
  (addrReject s o (pgTMQ + TMQ_ONU_CMD.off) = none) ∧
  (u = fld s pgTMQ TMQ_ONU_NODE) ∧
  (mayUse (Origin.slice o) (onuOwner s (u / 512) (u % 512)) = true) ∧
  (n = (fld s pgTMQ TMQ_QBASE, fld s pgTMQ TMQ_QCOUNT)) ∧
  (onuRangeRejected s u n = true) := by
  decide +kernel

theorem witness_QueueAndNodeWindows_10 :
  let s : State := setFld (setFld (setFld (setFld (setFld up pgTMS TMS_LEVEL 2) pgTMS TMS_NODE_IDX 65535) pgTMS TMS_WEIGHT 9) pgTMS TMS_RATE 5) pgTMS TMS_SETTLE_FRAMES 8
  let o : Origin := .pf
  let lv : Nat := 2
  let i : Nat := 65535
  (addrReject s o (pgTMS + TMS_NODE_CMD.off) = none) ∧
  (lv = fld s pgTMS TMS_LEVEL) ∧
  (i = fld s pgTMS TMS_NODE_IDX) ∧
  (i < levelNodes lv) ∧
  (mayUse (Origin.slice o) (ownerOfNode s lv i) = true) := by
  decide +kernel

theorem witness_QueueAndNodeWindows_11 :
  let s : State := setFld (setFld up pgTMS TMS_LEVEL 3) pgTMS TMS_NODE_IDX 24
  let i : Instr := .nodeSettle .pf
  let o : Origin := .pf
  (i = .nodeRead o ∨ i = .nodeWrite o ∨ i = .nodeSettle o) ∧
  (addrReject s o (pgTMS + TMS_NODE_CMD.off) = none) ∧
  (levelNodes (fld s pgTMS TMS_LEVEL) ≤ fld s pgTMS TMS_NODE_IDX) := by
  exact ⟨by simp, by decide +kernel, by decide +kernel⟩

theorem witness_QueueAndNodeWindows_12 :
  let s : State := setFld (setFld (setFld (setFld (setFld up pgTMS TMS_LEVEL 2) pgTMS TMS_NODE_IDX 65535) pgTMS TMS_WEIGHT 9) pgTMS TMS_RATE 5) pgTMS TMS_SETTLE_FRAMES 8
  let o : Origin := .pf
  let lv : Nat := 2
  let i : Nat := 65535
  let n : Node := nodeOfWindow s (node (refreshNode s 2 65535) 2 65535)
  (addrReject s o (pgTMS + TMS_NODE_CMD.off) = none) ∧
  (lv = fld s pgTMS TMS_LEVEL) ∧
  (i = fld s pgTMS TMS_NODE_IDX) ∧
  (i < levelNodes lv) ∧
  (mayUse (Origin.slice o) (ownerOfNode s lv i) = true) ∧
  (n = nodeOfWindow s (node (refreshNode s lv i) lv i)) ∧
  (n.weight ≠ 0) ∧
  (n.shapeEn = true → n.rate ≠ 0) ∧
  (n.shapeEn = true → (node s lv i).shapeEn = true) := by
  decide +kernel

theorem witness_QueueAndNodeWindows_13 :
  let s : State := setFld (setFld (setFld (setFld (setFld (setFld up pgTMS TMS_LEVEL 2) pgTMS TMS_NODE_IDX 65535) pgTMS TMS_WEIGHT 9) pgTMS TMS_RATE 5) pgTMS TMS_SETTLE_FRAMES 8) pgTMS TMS_SHAPE_EN 1
  let o : Origin := .pf
  let lv : Nat := 2
  let i : Nat := 65535
  let n : Node := nodeOfWindow s (node (refreshNode s 2 65535) 2 65535)
  (addrReject s o (pgTMS + TMS_NODE_CMD.off) = none) ∧
  (lv = fld s pgTMS TMS_LEVEL) ∧
  (i = fld s pgTMS TMS_NODE_IDX) ∧
  (i < levelNodes lv) ∧
  (mayUse (Origin.slice o) (ownerOfNode s lv i) = true) ∧
  (n = nodeOfWindow s (node (refreshNode s lv i) lv i)) ∧
  (n.weight ≠ 0) ∧
  (n.rate ≠ 0) ∧
  (n.shapeEn = true) ∧
  ((node s lv i).shapeEn = false) := by
  decide +kernel

theorem witness_QueueAndNodeWindows_14 :
  let s : State := setFld (setFld (setFld (setFld (setFld (setFld up pgTMS TMS_LEVEL 2) pgTMS TMS_NODE_IDX 65535) pgTMS TMS_WEIGHT 9) pgTMS TMS_RATE 5) pgTMS TMS_SETTLE_FRAMES 8) pgTMS TMS_WEIGHT 0
  let o : Origin := .pf
  let lv : Nat := 2
  let i : Nat := 65535
  let n : Node := nodeOfWindow s (node (refreshNode s 2 65535) 2 65535)
  (addrReject s o (pgTMS + TMS_NODE_CMD.off) = none) ∧
  (lv = fld s pgTMS TMS_LEVEL) ∧
  (i = fld s pgTMS TMS_NODE_IDX) ∧
  (i < levelNodes lv) ∧
  (mayUse (Origin.slice o) (ownerOfNode s lv i) = true) ∧
  (n = nodeOfWindow s (node (refreshNode s lv i) lv i)) ∧
  (n.weight = 0 ∨ (n.shapeEn = true ∧ n.rate = 0)) := by
  decide +kernel

theorem witness_QueueAndNodeWindows_15 :
  let s : State := setFld (setFld (setFld (setFld (setFld up pgTMS TMS_LEVEL 2) pgTMS TMS_NODE_IDX 65535) pgTMS TMS_WEIGHT 9) pgTMS TMS_RATE 5) pgTMS TMS_SETTLE_FRAMES 8
  let o : Origin := .pf
  let lv : Nat := 2
  let i : Nat := 65535
  (addrReject s o (pgTMS + TMS_NODE_CMD.off) = none) ∧
  (lv = fld s pgTMS TMS_LEVEL) ∧
  (i = fld s pgTMS TMS_NODE_IDX) ∧
  (i < levelNodes lv) ∧
  (mayUse (Origin.slice o) (ownerOfNode s lv i) = true) := by
  decide +kernel

theorem witness_FramesMoveAndWaitsEnd_1 :
  let s : State := { at_ up 90 0 0 with tm := { up.tm with node := [(nodeKey 2 7, { Node.init 0 with settle := some (3, 8), shapeEn := true, rate := 65536, creditHi := 5 })] } }
  let level : Fin 5 := 2
  let i : Nat := 7
  let m : Node := node (refreshNode s 2 7) 2 7
  (m = node (refreshNode s level i) level i) ∧
  (i < levelNodes level) ∧
  ((node s level i).mode = true) ∧
  ((settleOf s (node s level i)).1 + (settleOf s (node s level i)).2 ≤ frame s) := by
  decide +kernel

theorem witness_FramesMoveAndWaitsEnd_2 :
  let s : State := up
  let level : Fin 5 := 3
  let i : Nat := 24
  (levelNodes level ≤ i ∨ (node s level i).mode = false ∨ frame s < (settleOf s (node s level i)).1 + (settleOf s (node s level i)).2) := by
  decide +kernel

theorem witness_FramesMoveAndWaitsEnd_3 :
  let s : State := (let a := setFld (setFld up (pgETH 3) ETH_MAX_FRAME 1518) (pgETH 3) ETH_MODE 1; { a with tm := { a.tm with q := [(65543, { Queue.init 0 with parent := 3, occ := 2048, frames := [⟨5, 60, 2048, .stacked, 0, [1], 0, none⟩] })], buf := [(5, ⟨tagQueue true, [tagQueue true], []⟩)] } })
  let q : Fin 24 := 3
  let ptp : PtpKind := .none
  let k : Nat := 65543
  let f : QFrame := ⟨5, 60, 2048, .stacked, 0, [1], 0, none⟩
  let l : List QFrame := []
  let ins : Bool := false
  (portOn s q = true) ∧
  (portChoice s q = some k) ∧
  (egressOpen s q = true) ∧
  ((queueOf s k).frames = f :: l) ∧
  (l.any lostFrame = false) ∧
  (ins = (insertsOn s q ptp && !(ptp == .udp6 && noTrailer f.bytes))) := by
  decide +kernel

theorem witness_FramesMoveAndWaitsEnd_4 :
  let s : State := (let a := setFld (setFld (setFld up (pgETH 3) ETH_MAX_FRAME 1518) (pgETH 3) ETH_MODE 1) (pgMSC 3) MSC_TX_EN 1; { a with tm := { a.tm with q := [(65543, { Queue.init 0 with parent := 3, occ := 2048, frames := [⟨5, 60, 2048, .stacked, 0, [1], 0, none⟩] })], buf := [(5, ⟨tagQueue true, [tagQueue true], []⟩)] } })
  let q : Fin 24 := 3
  let ptp : PtpKind := .none
  (portOn s q = true) ∧
  ((portChoice s q).isSome = true) ∧
  (egressOpen s q = false) := by
  decide +kernel

theorem witness_FramesMoveAndWaitsEnd_5 :
  let s : State := up
  let q : Fin 24 := 3
  let ptp : PtpKind := .none
  (portOn s q = false ∨ portChoice s q = none) := by
  decide +kernel

theorem witness_FramesMoveAndWaitsEnd_6 :
  let s : State := (let a := setFld (setFld (setFld (setFld up pgHBM HBM_STACK_OK 15) pgHBM HBM_BUF_GIB 1) (pgCXL 0) CXL_STATE 2) (pgCXL 0) CXL_CAP_GIB 1; { a with tm := { a.tm with q := [(9, { Queue.init 9 with rsv := 1, occ := 2048, frames := [⟨17179869184 + 8589934592, 200, 2048, .expander 0, 0, [1], 0, none⟩] })], buf := [(17179869184 + 8589934592, ⟨tagQueue false, [tagQueue false], []⟩)] } })
  let q : Fin 65536 := 9
  let i : Nat := 0
  let f : QFrame := ⟨17179869184 + 8589934592, 200, 2048, .expander 0, 0, [1], 0, none⟩
  let x : Nat := 0
  let h : Nat := ((askBytes s 5 (queueParty 9) 1 200).map (·.1)).getD 0
  let v : State := ((askBytes s 5 (queueParty 9) 1 200).map (·.2)).getD s
  (firstFrame (fun g => g.exp?.isSome) 0 (nearHead 0 (queueOf s q).frames) = some (i, f)) ∧
  (f.place = .expander x) ∧
  (askBytes s 5 (queueParty q) 1 f.len = some (h, v)) := by
  exact ⟨by first | decide +kernel | rfl, by first | decide +kernel | rfl, by first | decide +kernel | rfl⟩

theorem witness_FramesMoveAndWaitsEnd_7 :
  let s : State := up
  let q : Fin 65536 := 9
  (firstFrame (fun g => g.exp?.isSome) 0 (nearHead 0 (queueOf s q).frames) = none) := by
  decide +kernel

theorem witness_FramesMoveAndWaitsEnd_8 :
  let s : State := (let a := setFld up pgBPM (BPM_WAIT.at 5) 1; { a with tm := { a.tm with q := [(9, { Queue.init 9 with rsv := 1, occ := 2048, frames := [⟨17179869184 + 8589934592, 200, 2048, .expander 0, 0, [1], 0, none⟩] })] } })
  let q : Fin 65536 := 9
  let i : Nat := 0
  let f : QFrame := ⟨17179869184 + 8589934592, 200, 2048, .expander 0, 0, [1], 0, none⟩
  let pool : Nat := poolFor 5 200
  (firstFrame (fun g => g.exp?.isSome) 0 (nearHead 0 (queueOf s q).frames) = some (i, f)) ∧
  (askBytes s 5 (queueParty q) 1 f.len = none) ∧
  (prefetchWaits s q = false) ∧
  (pool = poolFor 5 f.len) ∧
  (isSet s pgBPM (BPM_WAIT.at 5) = true) ∧
  ((waitQ s pool).length < waitMax) := by
  decide +kernel

theorem witness_FramesMoveAndWaitsEnd_9 :
  let s : State := (let a := setFld up pgBPM (BPM_WAIT.at 5) 1; { a with tm := { a.tm with q := [(9, { Queue.init 9 with rsv := 1, occ := 2048, frames := [⟨17179869184 + 8589934592, 200, 2048, .expander 0, 0, [1], 0, none⟩] })], wait := [(poolFor 5 200, [⟨5, 200, .prefetch 9⟩])] } })
  let q : Fin 65536 := 9
  let i : Nat := 0
  let f : QFrame := ⟨17179869184 + 8589934592, 200, 2048, .expander 0, 0, [1], 0, none⟩
  (firstFrame (fun g => g.exp?.isSome) 0 (nearHead 0 (queueOf s q).frames) = some (i, f)) ∧
  (askBytes s 5 (queueParty q) 1 f.len = none) ∧
  (prefetchWaits s q = true) := by
  decide +kernel

theorem witness_FramesMoveAndWaitsEnd_10 :
  let s : State := (let a := setFld (setFld (setFld (setFld up pgHBM HBM_STACK_OK 15) pgHBM HBM_BUF_GIB 1) (pgCXL 0) CXL_STATE 2) (pgCXL 0) CXL_CAP_GIB 1; { a with tm := { a.tm with q := [(9, { Queue.init 9 with rsv := 1, occ := 2048, frames := [⟨5, 200, 2048, .staged, 0, [1], 0, none⟩] })], buf := [(17179869184 + 8589934592, ⟨tagQueue false, [tagQueue false], []⟩), (8589934592, ⟨1, [1], []⟩), (5, ⟨tagQueue false, [tagQueue false], []⟩)] } })
  let v : Nat := 0
  let k : Nat := 9
  let i : Nat := 0
  let d : Nat := 0
  let h : Nat := ((askBytes s 6 (queueParty 9) 2 200).map (·.1)).getD 0
  let dr : Tbl Nat := [(0, 2048)]
  let f : QFrame := ⟨5, 200, 2048, .staged, 0, [1], 0, none⟩
  let w : State := ((askBytes s 6 (queueParty 9) 2 200).map (·.2)).getD s
  (drrPick s (spillSlices s) 1024 s.tm.drr s.tm.drrAt = some (v, dr, d)) ∧
  (stagedOf s v = some (k, i, f)) ∧
  (askBytes s 6 (queueParty k) 2 f.len = some (h, w)) := by
  exact ⟨by first | decide +kernel | rfl, by first | decide +kernel | rfl, askBytes_some (askBytes_small (by decide) (by decide) (by decide +kernel) (by decide +kernel))⟩

theorem witness_FramesMoveAndWaitsEnd_11 :
  let s : State := { up with tm := { up.tm with q := [(9, { Queue.init 9 with rsv := 1, occ := 2048, frames := [⟨5, 200, 2048, .staged, 0, [1], 0, none⟩] })], buf := [(5, ⟨tagQueue false, [tagQueue false], []⟩)] } }
  let v : Nat := 0
  let k : Nat := 9
  let i : Nat := 0
  let d : Nat := 0
  let dr : Tbl Nat := [(0, 2048)]
  let f : QFrame := ⟨5, 200, 2048, .staged, 0, [1], 0, none⟩
  (drrPick s (spillSlices s) 1024 s.tm.drr s.tm.drrAt = some (v, dr, d)) ∧
  (stagedOf s v = some (k, i, f)) ∧
  (askBytes s 6 (queueParty k) 2 f.len = none) := by
  decide +kernel

theorem witness_FramesMoveAndWaitsEnd_12 :
  let s : State := up
  (drrPick s (spillSlices s) 1024 s.tm.drr s.tm.drrAt = none) := by
  decide +kernel

theorem witness_FramesMoveAndWaitsEnd_13 :
  let s : State := (let a := setCtx (setFld (setFld (up) pgHBM HBM_STACK_OK 15) pgHBM HBM_BUF_GIB 1) c15 { Ctx.init 0 with bpm := .waiting }; { a with tm := { a.tm with wait := [(0, [⟨23, 100, .engine c15⟩])] } })
  let pool : Fin 4 := 0
  let w : WaitReq := ⟨23, 100, .engine c15⟩
  let c : CtxId := c15
  let h : Nat := ((allocBytes (setWaitQ s 0 []) 23 (tagCtx c15) 1 100).map (·.1)).getD 0
  let v : State := ((allocBytes (setWaitQ s 0 []) 23 (tagCtx c15) 1 100).map (·.2)).getD s
  let pre : List WaitReq := []
  let post : List WaitReq := []
  (waitQ s pool = pre ++ w :: post) ∧
  (pre.any (servable s) = false) ∧
  (servable s w = true) ∧
  (w.who = .engine c) ∧
  (allocBytes (setWaitQ s pool pre) w.req (tagCtx c) 1 w.bytes = some (h, v)) := by
  exact ⟨by first | decide +kernel | rfl, by first | decide +kernel | rfl, by first | decide +kernel | rfl, by first | decide +kernel | rfl, by first | decide +kernel | rfl⟩

theorem witness_FramesMoveAndWaitsEnd_14 :
  let s : State := { up with tm := { up.tm with wait := [(0, [⟨23, 100, .engine c15⟩])] } }
  let pool : Fin 4 := 0
  ((waitQ s pool).any (servable s) = false) := by
  decide +kernel

theorem witness_FramesMoveAndWaitsEnd_15 :
  let s : State := up
  let pool : Fin 4 := 3
  (waitQ s pool = []) := by
  decide +kernel

theorem witness_Expanders_1 :
  let s : State := (setFld (setFld up (pgCXL 2) CXL_STATE 2) (pgCXL 2) CXL_CAP_GIB 1)
  let o : Origin := .pf
  let x : Fin 4 := 2
  (addrReject s o (pgCXL x + CXL_CMD.off) = none) ∧
  (expState s x = 2) ∧
  (rsvSum s ≤ rsvCap s - expShare s x) := by
  decide +kernel

theorem witness_Expanders_2 :
  let s : State := { (setFld (setFld up (pgCXL 2) CXL_STATE 2) (pgCXL 2) CXL_CAP_GIB 1) with tm := { up.tm with q := [(9, { Queue.init 9 with rsv := 1 })] } }
  let o : Origin := .pf
  let x : Fin 4 := 2
  (addrReject s o (pgCXL x + CXL_CMD.off) = none) ∧
  (expState s x = 2) ∧
  (rsvCap s - expShare s x < rsvSum s) := by
  decide +kernel

theorem witness_Expanders_3 :
  let s : State := up
  let i : Instr := .cxlCancel .pf 2
  let o : Origin := .pf
  let x : Fin 4 := 2
  ((i = .cxlMigrate o x ∧ expState s x ≠ 2) ∨ (i = .cxlCancel o x ∧ expState s x ≠ 3)) ∧
  (addrReject s o (pgCXL x + CXL_CMD.off) = none) := by
  exact ⟨.inr ⟨rfl, by decide +kernel⟩, by decide +kernel⟩

theorem witness_Expanders_4 :
  let s : State := (setFld (setFld up (pgCXL 2) CXL_STATE 3) (pgCXL 2) CXL_CAP_GIB 1)
  let o : Origin := .pf
  let x : Fin 4 := 2
  (addrReject s o (pgCXL x + CXL_CMD.off) = none) ∧
  (expState s x = 3) := by
  decide +kernel

theorem witness_Expanders_5 :
  let s : State := (setFld (setFld up (pgCXL 2) CXL_STATE 4) (pgCXL 2) CXL_CAP_GIB 1)
  let o : Origin := .pf
  let x : Fin 4 := 2
  (addrReject s o (pgCXL x + CXL_CMD.off) = none) ∧
  ((expState s x ≠ 2 ∧ expState s x ≠ 3) ∨ usedOn s x = []) := by
  decide +kernel

theorem witness_Expanders_6 :
  let s : State := up
  let o : Origin := .pf
  let x : Fin 4 := 2
  let capGib : Nat := 900
  (addrReject s o (pgCXL x + CXL_CMD.off) = none) ∧
  (expState s x = 0 ∨ expState s x = 4 ∨ expState s x = 5) ∧
  (capGib ≠ 0) := by
  decide +kernel

theorem witness_Expanders_7 :
  let s : State := up
  let o : Origin := .pf
  let x : Fin 4 := 2
  (addrReject s o (pgCXL x + CXL_CMD.off) = none) ∧
  (expState s x = 0 ∨ expState s x = 4 ∨ expState s x = 5) := by
  decide +kernel

theorem witness_Expanders_8 :
  let s : State := (setFld (setFld up (pgCXL 2) CXL_STATE 3) (pgCXL 2) CXL_CAP_GIB 1)
  let o : Origin := .pf
  let x : Fin 4 := 2
  let capGib : Nat := 0
  (addrReject s o (pgCXL x + CXL_CMD.off) = none) ∧
  (expState s x = 1 ∨ expState s x = 2 ∨ expState s x = 3) := by
  decide +kernel

theorem witness_Expanders_9 :
  let s : State := { at_ (setFld (setFld up (pgCXL 2) CXL_STATE 1) (pgCXL 2) CXL_CAP_GIB 1) 900 0 0 with tm := { up.tm with exp := [(2, some 100)] } }
  let x : Fin 4 := 2
  let f : Nat := 100
  (tget dnone s.tm.exp x = some f) ∧
  (expState s x = 1) ∧
  (f + 800 ≤ frame s) := by
  decide +kernel

theorem witness_Expanders_10 :
  let s : State := up
  let x : Fin 4 := 2
  (tget dnone s.tm.exp x = none ∨ expState s x ≠ 1) := by
  decide +kernel

theorem witness_Expanders_11 :
  let s : State := (setFld (setFld up (pgCXL 2) CXL_STATE 3) (pgCXL 2) CXL_CAP_GIB 1)
  let x : Fin 4 := 2
  (expState s x = 3) ∧
  (usedOn s x = []) := by
  decide +kernel

theorem witness_Expanders_12 :
  let s : State := up
  let x : Fin 4 := 2
  (expState s x ≠ 3 ∨ usedOn s x ≠ []) := by
  decide +kernel

theorem witness_Expanders_13 :
  let s : State := (let a := (let a := setFld (setFld (setFld (setFld up pgHBM HBM_STACK_OK 15) pgHBM HBM_BUF_GIB 1) (pgCXL 0) CXL_STATE 2) (pgCXL 0) CXL_CAP_GIB 1; { a with tm := { a.tm with q := [(9, { Queue.init 9 with rsv := 1, occ := 2048, frames := [⟨17179869184 + 8589934592, 200, 2048, .expander 0, 0, [1], 0, none⟩] })], buf := [(17179869184 + 8589934592, ⟨tagQueue false, [tagQueue false], []⟩), (8589934592 + expSpan * poolPer 0, ⟨1, [1], []⟩)] } }); setFld (setFld (setFld a (pgCXL 0) CXL_STATE 3) (pgCXL 1) CXL_STATE 2) pgBPM BPM_DRAIN_SHIFT 10)
  let x : Fin 4 := 0
  let k : Nat := 9
  let i : Nat := 0
  let h : Nat := ((askBytes s 24 (queueParty 9) 2 200).map (·.1)).getD 0
  let f : QFrame := ⟨17179869184 + 8589934592, 200, 2048, .expander 0, 0, [1], 0, none⟩
  let v : State := ((askBytes s 24 (queueParty 9) 2 200).map (·.2)).getD s
  (expState s x = 3) ∧
  (frameOn s x = some (k, i, f)) ∧
  (askBytes s 24 (queueParty k) 2 f.len = some (h, v)) := by
  exact ⟨by first | decide +kernel | rfl, by first | decide +kernel | rfl, askBytes_some (askBytes_small (by decide) (by decide) (by decide +kernel) (by decide +kernel))⟩

theorem witness_Expanders_14 :
  let s : State := setFld (let a := setFld (setFld (setFld (setFld up pgHBM HBM_STACK_OK 15) pgHBM HBM_BUF_GIB 1) (pgCXL 0) CXL_STATE 3) (pgCXL 0) CXL_CAP_GIB 1; { a with tm := { a.tm with q := [(9, { Queue.init 9 with rsv := 1, occ := 2048, frames := [⟨17179869184 + 8589934592, 200, 2048, .expander 0, 0, [1], 0, none⟩] })], buf := [(17179869184 + 8589934592, ⟨tagQueue false, [tagQueue false], []⟩)] } }) pgBPM BPM_DRAIN_SHIFT 10
  let x : Fin 4 := 0
  let k : Nat := 9
  let i : Nat := 0
  let h : Nat := ((askBytes s 24 (queueParty 9) 1 200).map (·.1)).getD 0
  let f : QFrame := ⟨17179869184 + 8589934592, 200, 2048, .expander 0, 0, [1], 0, none⟩
  let v : State := ((askBytes s 24 (queueParty 9) 1 200).map (·.2)).getD s
  (expState s x = 3) ∧
  (frameOn s x = some (k, i, f)) ∧
  (askBytes s 24 (queueParty k) 2 f.len = none) ∧
  (askBytes s 24 (queueParty k) 1 f.len = some (h, v)) := by
  exact ⟨by decide +kernel, by decide +kernel, by decide +kernel, by first | decide +kernel | rfl⟩

theorem witness_Expanders_15 :
  let s : State := up
  let x : Fin 4 := 2
  (expState s x ≠ 3) := by
  decide +kernel

theorem witness_Expanders_16 :
  let s : State := (setFld (setFld up (pgCXL 2) CXL_STATE 2) (pgCXL 2) CXL_CAP_GIB 1)
  let x : Fin 4 := 2
  (expState s x = 2 ∨ expState s x = 3 ∨ expState s x = 4) ∧
  (usedOn s x = []) ∧
  (bitAt (react s 54) 2 = false) ∧
  (bitAt (react s 54) 3 = false) := by
  decide +kernel

theorem witness_Expanders_17 :
  let s : State := (setFld (setFld up (pgCXL 2) CXL_STATE 5) (pgCXL 2) CXL_CAP_GIB 1)
  let x : Fin 4 := 2
  (expState s x = 0 ∨ expState s x = 1 ∨ expState s x = 5) := by
  decide +kernel

theorem witness_Expanders_18 :
  let s : State := setFld (setFld up pgHBM HBM_STACK_OK 15) pgFLT (FLT_REACT.at 53) 0
  let stack : Fin 4 := 3
  (bitAt (react s 53) 2 = false) ∧
  (bitAt (react s 53) 3 = false) := by
  decide +kernel

theorem witness_KeyWindow_1 :
  let s : State := (let a := setFld (setFld (setFld (setFld (setWords up (pgKEY + KEY_KEY_DATA.off) [1, 2, 3, 4, 5, 6, 7, 8]) pgKEY KEY_KEY_IDX 513) pgKEY KEY_DIR 0) pgKEY KEY_SLOT (firstSlot 1)) pgKEY KEY_MODE 1; { a with pon := { a.pon with onu := [(513, { OnuRec.init 0 with ch := 1, onuId := 9, state := 4, valid := true })] }, keys := [(513, { KeyEntry.init 0 with ds0 := ⟨2, 0x55, 0x66, 2 ^ 40 + 7, 9, true, false, 3, [1, 2, 3, 2 ^ 33]⟩, ploam := 77, dsActive := some 1 })] })
  let o : Origin := .pf
  let r : KeyReq := keyOfWindow s
  let j : Nat := 0
  let k : KeySlot := (keyEntry s 513).slot false 0
  (addrReject s o (pgKEY + KEY_CMD.off) = none) ∧
  (r = keyOfWindow s) ∧
  (mayUse (Origin.slice o) (onuOwner s (r.u / 512) (r.u % 512)) = true) ∧
  (r.dir < 2) ∧
  (r.index s = some j) ∧
  (k = (keyEntry s r.u).slot (r.dir == 1) j) := by
  decide +kernel

theorem witness_KeyWindow_2 :
  let s : State := (let a := setFld (setFld (setFld (setFld (setWords up (pgKEY + KEY_KEY_DATA.off) [1, 2, 3, 4, 5, 6, 7, 8]) pgKEY KEY_KEY_IDX 513) pgKEY KEY_DIR 2) pgKEY KEY_SLOT (firstSlot 1)) pgKEY KEY_MODE 1; { a with pon := { a.pon with onu := [(513, { OnuRec.init 0 with ch := 1, onuId := 9, state := 4, valid := true })] }, keys := [(513, { KeyEntry.init 0 with ds0 := ⟨2, 0x55, 0x66, 2 ^ 40 + 7, 9, true, false, 3, [1, 2, 3, 2 ^ 33]⟩, ploam := 77, dsActive := some 1 })] })
  let o : Origin := .pf
  let r : KeyReq := keyOfWindow s
  (addrReject s o (pgKEY + KEY_CMD.off) = none) ∧
  (r = keyOfWindow s) ∧
  (mayUse (Origin.slice o) (onuOwner s (r.u / 512) (r.u % 512)) = true) ∧
  (r.dir = 2) := by
  decide +kernel

theorem witness_KeyWindow_3 :
  let s : State := setFld up pgSLC SLC_SLICE_EN 4
  let i : Instr := .keyRead (.vf 2)
  let o : Origin := .vf 2
  let b : Bool := false
  (i = .keyRead o ∨ i = .keyWrite o b ∨ i = .keyInvalidate o) ∧
  (addrReject s o (pgKEY + KEY_CMD.off) = none) ∧
  (mayUse (Origin.slice o) (onuOwner s ((keyOfWindow s).u / 512) ((keyOfWindow s).u % 512)) = false) := by
  exact ⟨by simp, by decide +kernel, by decide +kernel⟩

theorem witness_KeyWindow_4 :
  let s : State := (let a := setFld (setFld (setFld (setFld (setWords up (pgKEY + KEY_KEY_DATA.off) [1, 2, 3, 4, 5, 6, 7, 8]) pgKEY KEY_KEY_IDX 513) pgKEY KEY_DIR 0) pgKEY KEY_SLOT (firstSlot 1)) pgKEY KEY_MODE 1; { a with pon := { a.pon with onu := [(513, { OnuRec.init 0 with ch := 1, onuId := 9, state := 4, valid := true })] } })
  let o : Origin := .pf
  let r : KeyReq := keyOfWindow s
  let j : Nat := 0
  let e : KeyEntry := keyEntry s 513
  (addrReject s o (pgKEY + KEY_CMD.off) = none) ∧
  (r = keyOfWindow s) ∧
  (mayUse (Origin.slice o) (onuOwner s (r.u / 512) (r.u % 512)) = true) ∧
  (tampered s = false) ∧
  ((keyRecord s r.u).valid = true) ∧
  (r.dir < 2) ∧
  (r.index s = some j) ∧
  (e = keyEntry s r.u) ∧
  (slotBusy s e (r.dir == 1) j = false) ∧
  (modeClash e (r.dir == 1) j r.mode = false) ∧
  (r.mode ≠ 3) ∧
  ((keyRecord s r.u).ch = 0 → r.mode ≠ 2 ∧ r.dir = 0) := by
  decide +kernel

theorem witness_KeyWindow_5 :
  let s : State := (let a := setFld (setFld (setFld (setFld (setWords up (pgKEY + KEY_KEY_DATA.off) [1, 2, 3, 4, 5, 6, 7, 8]) pgKEY KEY_KEY_IDX 513) pgKEY KEY_DIR 2) pgKEY KEY_SLOT (firstSlot 1)) pgKEY KEY_MODE 1; { a with pon := { a.pon with onu := [(513, { OnuRec.init 0 with ch := 1, onuId := 9, state := 4, valid := true })] } })
  let o : Origin := .pf
  let r : KeyReq := keyOfWindow s
  (addrReject s o (pgKEY + KEY_CMD.off) = none) ∧
  (r = keyOfWindow s) ∧
  (mayUse (Origin.slice o) (onuOwner s (r.u / 512) (r.u % 512)) = true) ∧
  (tampered s = false) ∧
  ((keyRecord s r.u).valid = true) ∧
  (r.dir = 2) := by
  decide +kernel

theorem witness_KeyWindow_6 :
  let s : State := (let a := setFld (setFld (setFld (setFld (setWords (setFld up pgCIP CIP_CAUSE 1) (pgKEY + KEY_KEY_DATA.off) [1, 2, 3, 4, 5, 6, 7, 8]) pgKEY KEY_KEY_IDX 513) pgKEY KEY_DIR 0) pgKEY KEY_SLOT (firstSlot 1)) pgKEY KEY_MODE 1; { a with pon := { a.pon with onu := [(513, { OnuRec.init 0 with ch := 1, onuId := 9, state := 4, valid := true })] } })
  let o : Origin := .pf
  let r : KeyReq := keyOfWindow s
  let n : Nat := 7
  (addrReject s o (pgKEY + KEY_CMD.off) = none) ∧
  (r = keyOfWindow s) ∧
  (mayUse (Origin.slice o) (onuOwner s (r.u / 512) (r.u % 512)) = true) ∧
  ((tampered s = true ∧ n = 7) ∨ (tampered s = false ∧ (keyRecord s r.u).valid = false ∧ n = 8) ∨ (tampered s = false ∧ (keyRecord s r.u).valid = true ∧ r.dir ≠ 2 ∧ r.index s = none ∧ n = 1)) := by
  decide +kernel

theorem witness_KeyWindow_7 :
  let s : State := (let a := setFld (setFld (setFld (setFld (setWords up (pgKEY + KEY_KEY_DATA.off) [1, 2, 3, 4, 5, 6, 7, 8]) pgKEY KEY_KEY_IDX 513) pgKEY KEY_DIR 0) pgKEY KEY_SLOT (firstSlot 1)) pgKEY KEY_MODE 1; { a with pon := { a.pon with onu := [(513, { OnuRec.init 0 with ch := 1, onuId := 9, state := 4, valid := true })] }, keys := [(513, { KeyEntry.init 0 with dsActive := some 0 })] })
  let o : Origin := .pf
  let r : KeyReq := keyOfWindow s
  let j : Nat := 0
  (addrReject s o (pgKEY + KEY_CMD.off) = none) ∧
  (r = keyOfWindow s) ∧
  (mayUse (Origin.slice o) (onuOwner s (r.u / 512) (r.u % 512)) = true) ∧
  (tampered s = false) ∧
  ((keyRecord s r.u).valid = true) ∧
  (r.dir < 2) ∧
  (r.index s = some j) ∧
  (slotBusy s (keyEntry s r.u) (r.dir == 1) j = true) := by
  decide +kernel

theorem witness_KeyWindow_8 :
  let s : State := (let a := setFld (setFld (setFld (setFld (setWords up (pgKEY + KEY_KEY_DATA.off) [1, 2, 3, 4, 5, 6, 7, 8]) pgKEY KEY_KEY_IDX 513) pgKEY KEY_DIR 0) pgKEY KEY_SLOT (firstSlot 1)) pgKEY KEY_MODE 1; { a with pon := { a.pon with onu := [(513, { OnuRec.init 0 with ch := 1, onuId := 9, state := 4, valid := true })] } })
  let o : Origin := .pf
  let r : KeyReq := keyOfWindow s
  (addrReject s o (pgKEY + KEY_CMD.off) = none) ∧
  (r = keyOfWindow s) ∧
  (mayUse (Origin.slice o) (onuOwner s (r.u / 512) (r.u % 512)) = true) := by
  decide +kernel

theorem witness_KeyWindow_9 :
  let s : State := (let a := setFld (setFld (setFld (setFld (setWords up (pgKEY + KEY_KEY_DATA.off) [1, 2, 3, 4, 5, 6, 7, 8]) pgKEY KEY_KEY_IDX 513) pgKEY KEY_DIR 0) pgKEY KEY_SLOT (firstSlot 1)) pgKEY KEY_MODE 1; { a with pon := { a.pon with onu := [(513, { OnuRec.init 0 with ch := 1, onuId := 9, state := 4, valid := true })] }, keys := [(513, { KeyEntry.init 0 with ds0 := ⟨2, 0x55, 0x66, 2 ^ 40 + 7, 9, true, false, 3, [1, 2, 3, 2 ^ 33]⟩, ploam := 77, dsActive := some 1 })] })
  let o : Origin := .pf
  let r : KeyReq := keyOfWindow s
  let j : Nat := 0
  (addrReject s o (pgKEY + KEY_CMD.off) = none) ∧
  (r = keyOfWindow s) ∧
  (mayUse (Origin.slice o) (onuOwner s (r.u / 512) (r.u % 512)) = true) ∧
  (r.dir < 2) ∧
  (r.index s = some j) ∧
  (slotBusy s (keyEntry s r.u) (r.dir == 1) j = false) := by
  decide +kernel

theorem witness_KeyWindow_10 :
  let s : State := (let a := setFld (setFld (setFld (setFld (setWords up (pgKEY + KEY_KEY_DATA.off) [1, 2, 3, 4, 5, 6, 7, 8]) pgKEY KEY_KEY_IDX 513) pgKEY KEY_DIR 0) pgKEY KEY_SLOT (firstSlot 1)) pgKEY KEY_MODE 1; { a with pon := { a.pon with onu := [(513, { OnuRec.init 0 with ch := 1, onuId := 9, state := 4, valid := true })] }, keys := [(513, { KeyEntry.init 0 with dsActive := some 0 })] })
  let o : Origin := .pf
  let r : KeyReq := keyOfWindow s
  let j : Nat := 0
  (addrReject s o (pgKEY + KEY_CMD.off) = none) ∧
  (r = keyOfWindow s) ∧
  (mayUse (Origin.slice o) (onuOwner s (r.u / 512) (r.u % 512)) = true) ∧
  (r.dir < 2) ∧
  (r.index s = some j) ∧
  (slotBusy s (keyEntry s r.u) (r.dir == 1) j = true) := by
  decide +kernel

theorem witness_SecureAssociationsAndTamper_1 :
  let s : State := (let a := setReg (setFld (setWords up (pgMSC 3 + MSC_SCI.off) [1, 2]) (pgMSC 3) MSC_SA_IDX 67) (pgMSC 3 + MSC_NEXT_PN.off) 5; { a with link := { a.link with sa := [(271, ⟨true, 1, 7, 8, 9, 10, 2 ^ 33 + 1, false, false⟩)] } })
  let o : Origin := .pf
  let q : Fin 24 := 3
  let i : Nat := 67
  let a : MacSa := saAt s 3 67
  (addrReject s o (pgMSC q + MSC_SA_CMD.off) = none) ∧
  (i = fld s (pgMSC q) MSC_SA_IDX) ∧
  (i < 68) ∧
  (a = saAt s q i) := by
  decide +kernel

theorem witness_SecureAssociationsAndTamper_2 :
  let s : State := (let a := setReg (setFld (setWords up (pgMSC 3 + MSC_SCI.off) [1, 2]) (pgMSC 3) MSC_SA_IDX 67) (pgMSC 3 + MSC_NEXT_PN.off) 5; { a with link := { a.link with sa := [(271, ⟨true, 1, 7, 8, 9, 10, 2 ^ 33 + 1, false, false⟩)] } })
  let o : Origin := .pf
  let q : Fin 24 := 3
  let i : Nat := 67
  (addrReject s o (pgMSC q + MSC_SA_CMD.off) = none) ∧
  (i = fld s (pgMSC q) MSC_SA_IDX) ∧
  (i < 68) ∧
  (tampered s = false) := by
  decide +kernel

theorem witness_SecureAssociationsAndTamper_3 :
  let s : State := (let a := setReg (setFld (setWords (setFld up pgCIP CIP_CAUSE 32) (pgMSC 3 + MSC_SCI.off) [1, 2]) (pgMSC 3) MSC_SA_IDX 67) (pgMSC 3 + MSC_NEXT_PN.off) 5; { a with link := { a.link with sa := [(271, ⟨true, 1, 7, 8, 9, 10, 2 ^ 33 + 1, false, false⟩)] } })
  let o : Origin := .pf
  let q : Fin 24 := 3
  let i : Nat := 67
  (addrReject s o (pgMSC q + MSC_SA_CMD.off) = none) ∧
  (i = fld s (pgMSC q) MSC_SA_IDX) ∧
  (i < 68) ∧
  (tampered s = true) := by
  decide +kernel

theorem witness_SecureAssociationsAndTamper_4 :
  let s : State := (let a := setReg (setFld (setWords up (pgMSC 3 + MSC_SCI.off) [1, 2]) (pgMSC 3) MSC_SA_IDX 67) (pgMSC 3 + MSC_NEXT_PN.off) 5; { a with link := { a.link with sa := [(271, ⟨true, 1, 7, 8, 9, 10, 2 ^ 33 + 1, false, false⟩)] } })
  let o : Origin := .pf
  let q : Fin 24 := 3
  let i : Nat := 67
  (addrReject s o (pgMSC q + MSC_SA_CMD.off) = none) ∧
  (i = fld s (pgMSC q) MSC_SA_IDX) ∧
  (i < 68) := by
  decide +kernel

theorem witness_SecureAssociationsAndTamper_5 :
  let s : State := setFld up (pgMSC 3) MSC_SA_IDX 68
  let c : Instr := .saRead .pf 3
  let o : Origin := .pf
  let q : Fin 24 := 3
  (c = .saRead o q ∨ c = .saWrite o q ∨ c = .saInvalidate o q) ∧
  (addrReject s o (pgMSC q + MSC_SA_CMD.off) = none) ∧
  (68 ≤ fld s (pgMSC q) MSC_SA_IDX) := by
  exact ⟨by simp, by decide +kernel, by decide +kernel⟩

theorem witness_SecureAssociationsAndTamper_6 :
  let s : State := (let a := setFld up (pgMSC 3) MSC_TX_AN 2; { a with link := { a.link with sa := [(206, { MacSa.init 0 with valid := true })] } })
  let q : Fin 24 := 3
  let a : Nat := 2
  (a = fld s (pgMSC q) MSC_TX_AN) ∧
  ((saAt s q a).valid = true) := by
  decide +kernel

theorem witness_SecureAssociationsAndTamper_7 :
  let s : State := up
  let q : Fin 24 := 3
  ((saAt s q (fld s (pgMSC q) MSC_TX_AN)).valid = false) := by
  decide +kernel

theorem witness_SecureAssociationsAndTamper_9 :
  let s : State := setFld up pgFLT (FLT_REACT.at 55) 0
  let alarm : Fin 6 := 4
  (bitAt (react s 55) 2 = false) ∧
  (bitAt (react s 55) 3 = false) := by
  decide +kernel

theorem witness_SecureAssociationsAndTamper_10 :
  let s : State := (let a := (let a := setReg (setFld (setWords up (pgMSC 3 + MSC_SCI.off) [1, 2]) (pgMSC 3) MSC_SA_IDX 67) (pgMSC 3 + MSC_NEXT_PN.off) 5; { a with link := { a.link with sa := [(271, ⟨true, 1, 7, 8, 9, 10, 2 ^ 33 + 1, false, false⟩)] } }); { a with keys := [(513, { KeyEntry.init 0 with ds0 := ⟨2, 0x55, 0x66, 2 ^ 40 + 7, 9, true, false, 3, [1, 2, 3, 2 ^ 33]⟩, ploam := 77, dsActive := some 1 })] })
  let o : Origin := .pf
  let data : Word := 1
  (addrReject s o (pgCIP + CIP_KEY_ZEROIZE.off) = none) ∧
  (data.getLsbD 0 = true) := by
  decide +kernel

theorem witness_SecureAssociationsAndTamper_11 :
  let s : State := setFld up pgFLT (FLT_REACT.at 55) 0
  let o : Origin := .pf
  let data : Word := 1
  (addrReject s o (pgCIP + CIP_KEY_ZEROIZE.off) = none) ∧
  (data.getLsbD 0 = true) ∧
  (bitAt (react s 55) 2 = false) ∧
  (bitAt (react s 55) 3 = false) := by
  decide +kernel

theorem witness_SecureAssociationsAndTamper_12 :
  let s : State := up
  let o : Origin := .pf
  let data : Word := 2
  (addrReject s o (pgCIP + CIP_KEY_ZEROIZE.off) = none) ∧
  (data.getLsbD 0 = false) := by
  decide +kernel

theorem witness_UplinkPortsAndLanes_1 :
  let s : State := up
  let q : Fin 24 := 3
  let f : UplinkIn := ⟨64, [1, 2], true, false, none, false⟩
  (portOn s q = false) := by
  decide +kernel

theorem witness_UplinkPortsAndLanes_2 :
  let s : State := (setFld (setFld up (pgETH 3) ETH_MODE 1) (pgETH 3) ETH_MAX_FRAME 1518)
  let q : Fin 24 := 3
  let f : UplinkIn := ⟨64, [1, 2], false, false, none, false⟩
  (portOn s q = true) ∧
  (f.fcsOk = false) := by
  decide +kernel

theorem witness_UplinkPortsAndLanes_3 :
  let s : State := (setFld (setFld up (pgETH 3) ETH_MODE 1) (pgETH 3) ETH_MAX_FRAME 1518)
  let q : Fin 24 := 3
  let f : UplinkIn := ⟨63, [1, 2], true, false, none, false⟩
  (portOn s q = true) ∧
  (f.fcsOk = true) ∧
  (f.len < 64) := by
  decide +kernel

theorem witness_UplinkPortsAndLanes_4 :
  let s : State := (setFld (setFld up (pgETH 3) ETH_MODE 1) (pgETH 3) ETH_MAX_FRAME 1518)
  let q : Fin 24 := 3
  let f : UplinkIn := ⟨1519, [1, 2], true, false, none, false⟩
  (portOn s q = true) ∧
  (f.fcsOk = true) ∧
  (64 ≤ f.len) ∧
  (fld s (pgETH q) ETH_MAX_FRAME < f.len) := by
  decide +kernel

theorem witness_UplinkPortsAndLanes_5 :
  let s : State := (setFld (setFld up (pgETH 3) ETH_MODE 1) (pgETH 3) ETH_MAX_FRAME 1518)
  let q : Fin 24 := 3
  let f : UplinkIn := ⟨64, [1, 2], true, true, none, false⟩
  (portOn s q = true) ∧
  (f.fcsOk = true) ∧
  (64 ≤ f.len) ∧
  (f.len ≤ fld s (pgETH q) ETH_MAX_FRAME) ∧
  (f.pause = true) := by
  decide +kernel

theorem witness_UplinkPortsAndLanes_6 :
  let s : State := (setFld (setFld up (pgETH 3) ETH_MODE 1) (pgETH 3) ETH_MAX_FRAME 1518)
  let q : Fin 24 := 3
  let f : UplinkIn := ⟨64, [1, 2], true, false, none, false⟩
  (portOn s q = true) ∧
  (f.fcsOk = true) ∧
  (64 ≤ f.len) ∧
  (f.len ≤ fld s (pgETH q) ETH_MAX_FRAME) ∧
  (f.pause = false) ∧
  (active s (pgMSC q) MSC_RX_EN = false ∨ fld s (pgMSC q) MSC_VALIDATE = 0) := by
  decide +kernel

theorem witness_UplinkPortsAndLanes_7 :
  let s : State := (let a := setFld (setFld (setFld (setFld up (pgETH 3) ETH_MODE 1) (pgETH 3) ETH_MAX_FRAME 1518) (pgMSC 3) MSC_RX_EN 1) (pgMSC 3) MSC_VALIDATE 2; { a with link := { a.link with sa := [(210, { MacSa.init 0 with valid := true, sci := 7, pn := 3 })] }, tm := { a.tm with buf := [(0, ⟨1, [1], []⟩)] } })
  let q : Fin 24 := 3
  let f : UplinkIn := ⟨64, [1, 2], true, false, (some ⟨7, 2, 5, true⟩), false⟩
  let m : MacsecIn := ⟨7, 2, 5, true⟩
  let i : Nat := 6
  let u : State := bump (bump s (pgETH 3) ETH_C_RX_FRAMES 1) (pgETH 3) ETH_C_RX_BYTES 64
  let h : Nat := ((askBytes u 0 tagQuarantine 0 64).map (·.1)).getD 0
  let v : State := ((askBytes u 0 tagQuarantine 0 64).map (·.2)).getD u
  (portOn s q = true) ∧
  (f.fcsOk = true) ∧
  (64 ≤ f.len) ∧
  (f.len ≤ fld s (pgETH q) ETH_MAX_FRAME) ∧
  (f.pause = false) ∧
  (active s (pgMSC q) MSC_RX_EN = true) ∧
  (fld s (pgMSC q) MSC_VALIDATE ≠ 0) ∧
  (f.macsec = some m) ∧
  (u = bump (bump s (pgETH q) ETH_C_RX_FRAMES 1) (pgETH q) ETH_C_RX_BYTES f.len) ∧
  (rxSa s q m = some i) ∧
  (isSet s (pgMSC q) MSC_REPLAY_EN = false ∨ (saAt s q i).pn ≤ m.pn + fld s (pgMSC q) MSC_REPLAY_WIN) ∧
  (askBytes u 0 tagQuarantine 0 f.len = some (h, v)) ∧
  (m.tagOk = true) := by
  exact ⟨by first | decide +kernel | rfl, by first | decide +kernel | rfl, by first | decide +kernel | rfl, by first | decide +kernel | rfl, by first | decide +kernel | rfl, by first | decide +kernel | rfl, by first | decide +kernel | rfl, by first | decide +kernel | rfl, by first | decide +kernel | rfl, by first | decide +kernel | rfl, by first | decide +kernel | rfl, askBytes_some (askBytes_small (by decide) (by decide) (by decide +kernel) (by decide +kernel)), by first | decide +kernel | rfl⟩

theorem witness_UplinkPortsAndLanes_8 :
  let s : State := (let a := setFld (setFld (setFld (setFld up (pgETH 3) ETH_MODE 1) (pgETH 3) ETH_MAX_FRAME 1518) (pgMSC 3) MSC_RX_EN 1) (pgMSC 3) MSC_VALIDATE 2; { a with link := { a.link with sa := [(210, { MacSa.init 0 with valid := true, sci := 7, pn := 3 })] }, tm := { a.tm with buf := [(0, ⟨1, [1], []⟩)] } })
  let q : Fin 24 := 3
  let f : UplinkIn := ⟨64, [1, 2], true, false, (some ⟨7, 2, 5, false⟩), false⟩
  let m : MacsecIn := ⟨7, 2, 5, false⟩
  let i : Nat := 6
  let u : State := bump (bump s (pgETH 3) ETH_C_RX_FRAMES 1) (pgETH 3) ETH_C_RX_BYTES 64
  let h : Nat := ((askBytes u 0 tagQuarantine 0 64).map (·.1)).getD 0
  let v : State := ((askBytes u 0 tagQuarantine 0 64).map (·.2)).getD u
  (portOn s q = true) ∧
  (f.fcsOk = true) ∧
  (64 ≤ f.len) ∧
  (f.len ≤ fld s (pgETH q) ETH_MAX_FRAME) ∧
  (f.pause = false) ∧
  (active s (pgMSC q) MSC_RX_EN = true) ∧
  (fld s (pgMSC q) MSC_VALIDATE ≠ 0) ∧
  (f.macsec = some m) ∧
  (u = bump (bump s (pgETH q) ETH_C_RX_FRAMES 1) (pgETH q) ETH_C_RX_BYTES f.len) ∧
  (rxSa s q m = some i) ∧
  (isSet s (pgMSC q) MSC_REPLAY_EN = false ∨ (saAt s q i).pn ≤ m.pn + fld s (pgMSC q) MSC_REPLAY_WIN) ∧
  (askBytes u 0 tagQuarantine 0 f.len = some (h, v)) ∧
  (m.tagOk = false) := by
  exact ⟨by first | decide +kernel | rfl, by first | decide +kernel | rfl, by first | decide +kernel | rfl, by first | decide +kernel | rfl, by first | decide +kernel | rfl, by first | decide +kernel | rfl, by first | decide +kernel | rfl, by first | decide +kernel | rfl, by first | decide +kernel | rfl, by first | decide +kernel | rfl, by first | decide +kernel | rfl, askBytes_some (askBytes_small (by decide) (by decide) (by decide +kernel) (by decide +kernel)), by first | decide +kernel | rfl⟩

theorem witness_UplinkPortsAndLanes_9 :
  let s : State := (let a := setFld (setFld (setFld (setFld (setFld (setFld up pgBPM BPM_DRAIN_SHIFT 0) (pgETH 3) ETH_MODE 1) (pgETH 3) ETH_MAX_FRAME 10240) (pgMSC 3) MSC_RX_EN 1) (pgMSC 3) MSC_VALIDATE 2) pgBPM (BPM_WAIT.at 0) 1; { a with link := { a.link with sa := [(210, { MacSa.init 0 with valid := true, sci := 7, pn := 3 })] } })
  let q : Fin 24 := 3
  let f : UplinkIn := ⟨10240, [1, 2], true, false, (some ⟨7, 2, 5, false⟩), false⟩
  let m : MacsecIn := ⟨7, 2, 5, false⟩
  let i : Nat := 6
  let u : State := bump (bump s (pgETH 3) ETH_C_RX_FRAMES 1) (pgETH 3) ETH_C_RX_BYTES 10240
  let pool : Nat := poolFor 0 10240
  (portOn s q = true) ∧
  (f.fcsOk = true) ∧
  (64 ≤ f.len) ∧
  (f.len ≤ fld s (pgETH q) ETH_MAX_FRAME) ∧
  (f.pause = false) ∧
  (active s (pgMSC q) MSC_RX_EN = true) ∧
  (fld s (pgMSC q) MSC_VALIDATE ≠ 0) ∧
  (f.macsec = some m) ∧
  (u = bump (bump s (pgETH q) ETH_C_RX_FRAMES 1) (pgETH q) ETH_C_RX_BYTES f.len) ∧
  (rxSa s q m = some i) ∧
  (isSet s (pgMSC q) MSC_REPLAY_EN = false ∨ (saAt s q i).pn ≤ m.pn + fld s (pgMSC q) MSC_REPLAY_WIN) ∧
  (askBytes u 0 tagQuarantine 0 f.len = none) ∧
  (pool = poolFor 0 f.len) ∧
  (isSet s pgBPM (BPM_WAIT.at 0) = true) ∧
  ((waitQ s pool).length < waitMax) := by
  exact ⟨by decide +kernel, by decide, by decide, by decide +kernel, by decide, by decide +kernel, by decide +kernel, rfl, rfl, by decide +kernel, by decide +kernel, askBytes_none (allocBytes_none rfl (by decide +kernel) (by decide) (by decide) (by decide)), rfl, by decide +kernel, by decide +kernel⟩

theorem witness_UplinkPortsAndLanes_10 :
  let s : State := (let a := setFld (setFld (setFld (setFld (setFld up pgBPM BPM_DRAIN_SHIFT 0) (pgETH 3) ETH_MODE 1) (pgETH 3) ETH_MAX_FRAME 10240) (pgMSC 3) MSC_RX_EN 1) (pgMSC 3) MSC_VALIDATE 2; { a with link := { a.link with sa := [(210, { MacSa.init 0 with valid := true, sci := 7, pn := 3 })] } })
  let q : Fin 24 := 3
  let f : UplinkIn := ⟨10240, [1, 2], true, false, (some ⟨7, 2, 5, false⟩), false⟩
  let m : MacsecIn := ⟨7, 2, 5, false⟩
  let i : Nat := 6
  let u : State := bump (bump s (pgETH 3) ETH_C_RX_FRAMES 1) (pgETH 3) ETH_C_RX_BYTES 10240
  (portOn s q = true) ∧
  (f.fcsOk = true) ∧
  (64 ≤ f.len) ∧
  (f.len ≤ fld s (pgETH q) ETH_MAX_FRAME) ∧
  (f.pause = false) ∧
  (active s (pgMSC q) MSC_RX_EN = true) ∧
  (fld s (pgMSC q) MSC_VALIDATE ≠ 0) ∧
  (f.macsec = some m) ∧
  (u = bump (bump s (pgETH q) ETH_C_RX_FRAMES 1) (pgETH q) ETH_C_RX_BYTES f.len) ∧
  (rxSa s q m = some i) ∧
  (isSet s (pgMSC q) MSC_REPLAY_EN = false ∨ (saAt s q i).pn ≤ m.pn + fld s (pgMSC q) MSC_REPLAY_WIN) ∧
  (askBytes u 0 tagQuarantine 0 f.len = none) ∧
  (isSet s pgBPM (BPM_WAIT.at 0) = false ∨ waitMax ≤ (waitQ s (poolFor 0 f.len)).length) := by
  exact ⟨by decide +kernel, by decide, by decide, by decide +kernel, by decide, by decide +kernel, by decide +kernel, rfl, rfl, by decide +kernel, by decide +kernel, askBytes_none (allocBytes_none rfl (by decide +kernel) (by decide) (by decide) (by decide)), .inl (by decide +kernel)⟩

theorem witness_UplinkPortsAndLanes_11 :
  let s : State := setFld (setFld (setFld (setFld up (pgETH 3) ETH_MODE 1) (pgETH 3) ETH_MAX_FRAME 1518) (pgMSC 3) MSC_RX_EN 1) (pgMSC 3) MSC_VALIDATE 2
  let q : Fin 24 := 3
  let f : UplinkIn := ⟨64, [1, 2], true, false, (some ⟨7, 2, 5, true⟩), false⟩
  let m : MacsecIn := ⟨7, 2, 5, true⟩
  (portOn s q = true) ∧
  (f.fcsOk = true) ∧
  (64 ≤ f.len) ∧
  (f.len ≤ fld s (pgETH q) ETH_MAX_FRAME) ∧
  (f.pause = false) ∧
  (active s (pgMSC q) MSC_RX_EN = true) ∧
  (fld s (pgMSC q) MSC_VALIDATE ≠ 0) ∧
  (f.macsec = some m) ∧
  (rxSa s q m = none ∨ (∃ i, rxSa s q m = some i ∧ isSet s (pgMSC q) MSC_REPLAY_EN = true ∧ m.pn + fld s (pgMSC q) MSC_REPLAY_WIN < (saAt s q i).pn)) := by
  exact ⟨by decide +kernel, by decide, by decide, by decide +kernel, by decide, by decide +kernel, by decide +kernel, rfl, .inl (by decide +kernel)⟩

theorem witness_UplinkPortsAndLanes_12 :
  let s : State := setFld (setFld (setFld (setFld up (pgETH 3) ETH_MODE 1) (pgETH 3) ETH_MAX_FRAME 1518) (pgMSC 3) MSC_RX_EN 1) (pgMSC 3) MSC_VALIDATE 2
  let q : Fin 24 := 3
  let f : UplinkIn := ⟨64, [1, 2], true, false, none, false⟩
  (portOn s q = true) ∧
  (f.fcsOk = true) ∧
  (64 ≤ f.len) ∧
  (f.len ≤ fld s (pgETH q) ETH_MAX_FRAME) ∧
  (f.pause = false) ∧
  (active s (pgMSC q) MSC_RX_EN = true) ∧
  (fld s (pgMSC q) MSC_VALIDATE ≠ 0) ∧
  (f.macsec = none) ∧
  (fld s (pgMSC q) MSC_VALIDATE = 2) := by
  decide +kernel

theorem witness_UplinkPortsAndLanes_13 :
  let s : State := (let a := setFld (setFld (setFld (setFld up (pgETH 3) ETH_MODE 1) (pgETH 3) ETH_MAX_FRAME 1518) (pgETH 3) ETH_FC_MODE 1) (pgETH 3) ETH_FC_LO 0; { a with link := { a.link with eth := [(3, { EthSt.init 0 with xoff := some 5 })] } })
  let q : Fin 24 := 3
  ((eth s q).xoff.isSome = true) ∧
  (flowOn s q = true) ∧
  (fld s (pgETH q) ETH_FC_LO * 1024 ≤ rxFill s q) := by
  decide +kernel

theorem witness_UplinkPortsAndLanes_14 :
  let s : State := up
  let q : Fin 24 := 3
  ((eth s q).xoff = none ∨ flowOn s q = false ∨ rxFill s q < fld s (pgETH q) ETH_FC_LO * 1024) := by
  decide +kernel

theorem witness_UplinkPortsAndLanes_15 :
  let s : State := (setFld (setFld up (pgETH 3) ETH_MODE 1) (pgETH 3) ETH_MAX_FRAME 1518)
  let q : Fin 24 := 3
  let up : Bool := true
  let hiBer : Bool := true
  (portOn s q = true) := by
  decide +kernel

theorem witness_UplinkPortsAndLanes_16 :
  let s : State := up
  let q : Fin 24 := 3
  let up : Bool := true
  let hiBer : Bool := true
  (portOn s q = false) := by
  decide +kernel

theorem witness_UplinkPortsAndLanes_17 :
  let s : State := up
  let o : Origin := .pf
  let l : Fin 268 := 267
  (addrReject s o (pgSDS l + SDS_MS_GO.off) = none) ∧
  (laneStatus s l lsScan = false) := by
  decide +kernel

theorem witness_UplinkPortsAndLanes_18 :
  let s : State := setFld up (pgSDS 5) SDS_STATUS 8
  let o : Origin := .pf
  let l : Fin 268 := 5
  (addrReject s o (pgSDS l + SDS_MS_GO.off) = none) ∧
  (laneStatus s l lsScan = true) := by
  decide +kernel

theorem witness_UplinkPortsAndLanes_19 :
  let s : State := setFld up (pgSDS 5) SDS_STATUS 8
  let l : Fin 268 := 5
  let count : Nat := 2 ^ 50
  (laneStatus s l lsScan = true) := by
  decide +kernel

theorem witness_UplinkPortsAndLanes_20 :
  let s : State := up
  let l : Fin 268 := 5
  let count : Nat := 3
  (laneStatus s l lsScan = false) := by
  decide +kernel

theorem witness_UplinkPortsAndLanes_21 :
  let s : State := setFld up (pgSDS 200) SDS_STATUS 2
  let l : Fin 268 := 200
  let b : Bool := false
  (192 ≤ l.val) ∧
  (laneStatus s l lsCdr = !b) := by
  decide +kernel

theorem witness_UplinkPortsAndLanes_22 :
  let s : State := up
  let l : Fin 268 := 5
  let b : Bool := true
  (l.val < 192 ∨ laneStatus s l lsCdr = b) := by
  decide +kernel

theorem witness_UplinkPortsAndLanes_23 :
  let s : State := setFld up (pgSDS 5) SDS_PRBS_CHK 1
  let l : Fin 268 := 5
  let b : Bool := true
  (l.val < 228) ∧
  (laneStatus s l lsPrbs = !b) ∧
  (b = true → fld s (pgSDS l) SDS_PRBS_CHK ≠ 0) := by
  decide +kernel

theorem witness_UplinkPortsAndLanes_24 :
  let s : State := up
  let l : Fin 268 := 230
  let b : Bool := true
  (228 ≤ l.val ∨ laneStatus s l lsPrbs = b) := by
  decide +kernel

theorem witness_HostRings_1 :
  let s : State := (let a := up; { a with link := { a.link with ring := [(700, { Ring.init 0 with state := 1, dir := 0, head := 63, tail := 5, coalCnt := 1, pend := 3 })] } })
  let o : Origin := .pf
  let data : Word := 0x1AEBC
  let r : Nat := 700
  (addrReject s o (pgHST + HST_DB_RING.off) = none) ∧
  (r = bitsOf data 0 10) ∧
  (ringOwner s r = Origin.slice o) ∧
  ((ring s r).state = 1) := by
  decide +kernel

theorem witness_HostRings_2 :
  let s : State := up
  let o : Origin := .pf
  let data : Word := 0x6BC
  let r : Nat := 700
  let c : Nat := 8
  (addrReject s o (pgHST + HST_DB_RING.off) = none) ∧
  (r = bitsOf data 0 10) ∧
  ((ringOwner s r ≠ Origin.slice o ∧ c = 2) ∨ (ringOwner s r = Origin.slice o ∧ (ring s r).state ≠ 1 ∧ c = 8)) := by
  decide +kernel

theorem witness_HostRings_3 :
  let s : State := (let a := up; { a with link := { a.link with ring := [(700, { Ring.init 0 with state := 1, dir := 0, head := 63, tail := 5, coalCnt := 16, pend := 3 })] } })
  let r : Fin 1024 := 700
  let x : Ring := ring s 700
  let d : H2dDesc := ⟨0, 100, 64, false, false, 0, 9, [1, 2], none, none⟩
  (x = ring s r) ∧
  (x.state = 1) ∧
  (x.dir = 0) ∧
  (x.posted ≠ 0) ∧
  (d.dmaErr = none) ∧
  (14 ≤ d.pktLen) ∧
  (d.pktLen ≤ 10240) ∧
  (d.pktLen ≤ d.bufLen) ∧
  (d.direct = false) := by
  decide +kernel

theorem witness_HostRings_4 :
  let s : State := (let a := up; { a with link := { a.link with ring := [(700, { Ring.init 0 with state := 1, dir := 0, head := 63, tail := 5, coalCnt := 16, pend := 3 })] } })
  let r : Fin 1024 := 700
  let x : Ring := ring s 700
  let d : H2dDesc := ⟨0, 100, 64, false, true, 0, 9, [1, 2], none, none⟩
  (x = ring s r) ∧
  (x.state = 1) ∧
  (x.dir = 0) ∧
  (x.posted ≠ 0) ∧
  (d.dmaErr = none) ∧
  (14 ≤ d.pktLen) ∧
  (d.pktLen ≤ 10240) ∧
  (d.pktLen ≤ d.bufLen) ∧
  (d.direct = true) ∧
  (d.queue < 8192) ∧
  (queueOwner s d.queue = ringOwner s r) ∧
  (d.tsReq = false) := by
  decide +kernel

theorem witness_HostRings_5 :
  let s : State := { up with link := { up.link with ring := [(700, { Ring.init 0 with state := 1, dir := 0, head := 63, tail := 5, coalCnt := 16, pend := 3 })] } }
  let r : Fin 1024 := 700
  let x : Ring := ring s 700
  let d : H2dDesc := ⟨0, 100, 64, true, true, 0, 9, [1, 2], none, some (3, ⟨1, 2, 3⟩)⟩
  (x = ring s r) ∧
  (x.state = 1) ∧
  (x.dir = 0) ∧
  (x.posted ≠ 0) ∧
  (d.dmaErr = none) ∧
  (14 ≤ d.pktLen) ∧
  (d.pktLen ≤ 10240) ∧
  (d.pktLen ≤ d.bufLen) ∧
  (d.direct = true) ∧
  (d.queue < 8192) ∧
  (queueOwner s d.queue = ringOwner s r) ∧
  (d.tsReq = true) := by
  decide +kernel

theorem witness_HostRings_6 :
  let s : State := (let a := up; { a with link := { a.link with ring := [(700, { Ring.init 0 with state := 1, dir := 0, head := 63, tail := 5, coalCnt := 16, pend := 3 })] } })
  let r : Fin 1024 := 700
  let x : Ring := ring s 700
  let d : H2dDesc := ⟨0, 100, 64, false, true, 8192, 9, [1, 2], none, none⟩
  (x = ring s r) ∧
  (x.state = 1) ∧
  (x.dir = 0) ∧
  (x.posted ≠ 0) ∧
  (d.dmaErr = none) ∧
  (14 ≤ d.pktLen) ∧
  (d.pktLen ≤ 10240) ∧
  (d.pktLen ≤ d.bufLen) ∧
  (d.direct = true) ∧
  (8192 ≤ d.queue ∨ queueOwner s d.queue ≠ ringOwner s r) := by
  decide +kernel

theorem witness_HostRings_7 :
  let s : State := (let a := up; { a with link := { a.link with ring := [(700, { Ring.init 0 with state := 1, dir := 0, head := 63, tail := 5, coalCnt := 16, pend := 3 })] } })
  let r : Fin 1024 := 700
  let x : Ring := ring s 700
  let d : H2dDesc := ⟨0, 100, 13, false, false, 0, 9, [1, 2], none, none⟩
  (x = ring s r) ∧
  (x.state = 1) ∧
  (x.dir = 0) ∧
  (x.posted ≠ 0) ∧
  (d.dmaErr = none) ∧
  (d.bufLen < d.pktLen ∨ d.pktLen < 14 ∨ 10240 < d.pktLen) := by
  decide +kernel

theorem witness_HostRings_8 :
  let s : State := (let a := up; { a with link := { a.link with ring := [(700, { Ring.init 0 with state := 1, dir := 0, head := 63, tail := 5, coalCnt := 16, pend := 3 })] } })
  let r : Fin 1024 := 700
  let x : Ring := ring s 700
  let d : H2dDesc := ⟨0, 100, 64, false, false, 0, 9, [1, 2], (some 2), none⟩
  let c : Fin 4 := 2
  (x = ring s r) ∧
  (x.state = 1) ∧
  (x.dir = 0) ∧
  (x.posted ≠ 0) ∧
  (d.dmaErr = some c) := by
  decide +kernel

theorem witness_HostRings_9 :
  let s : State := up
  let r : Fin 1024 := 700
  let x : Ring := ring s 700
  let d : H2dDesc := ⟨0, 100, 64, false, false, 0, 9, [1, 2], none, none⟩
  (x = ring s r) ∧
  (x.state ≠ 1 ∨ x.dir ≠ 0 ∨ x.posted = 0) := by
  decide +kernel

theorem witness_HostRings_10 :
  let s : State := (let a := up; { a with link := { a.link with ring := [(700, { Ring.init 0 with state := 1, dir := 1, head := 63, tail := 5, coalCnt := 4, pend := 3, frames := [⟨64, [1], 0, 0, 16387, 0, none, none⟩] })] } })
  let r : Fin 1024 := 700
  let x : Ring := ring s 700
  let f : HostFrame := ⟨64, [1], 0, 0, 16387, 0, none, none⟩
  let l : List HostFrame := []
  let len : Nat := 64
  let bufLen : Nat := 64
  (x = ring s r) ∧
  (x.state = 1) ∧
  (x.frames = f :: l) ∧
  (f.len = len) ∧
  (len ≤ bufLen) := by
  decide +kernel

theorem witness_HostRings_11 :
  let s : State := (let a := up; { a with link := { a.link with ring := [(700, { Ring.init 0 with state := 1, dir := 1, head := 63, tail := 5, coalCnt := 4, pend := 3, frames := [⟨64, [1], 0, 0, 16387, 0, none, none⟩] })] } })
  let r : Fin 1024 := 700
  let x : Ring := ring s 700
  let f : HostFrame := ⟨64, [1], 0, 0, 16387, 0, none, none⟩
  let l : List HostFrame := []
  let len : Nat := 64
  let bufLen : Nat := 63
  (x = ring s r) ∧
  (x.state = 1) ∧
  (x.frames = f :: l) ∧
  (f.len = len) ∧
  (bufLen < len) := by
  decide +kernel

theorem witness_HostRings_12 :
  let s : State := up
  let r : Fin 1024 := 3
  let len : Nat := 64
  let bufLen : Nat := 64
  ((ring s r).state ≠ 1 ∨ (ring s r).frames.head?.map (·.len) ≠ some len) := by
  decide +kernel

theorem witness_HostRings_13 :
  let s : State := (let a := up; { a with link := { a.link with ring := [(700, { Ring.init 0 with state := 1, dir := 0, head := 63, tail := 5, coalCnt := 9, pend := 3 })] } })
  let r : Fin 1024 := 700
  let x : Ring := ring s 700
  (x = ring s r) ∧
  (x.pend ≠ 0) := by
  decide +kernel

theorem witness_HostRings_14 :
  let s : State := up
  let r : Fin 1024 := 3
  ((ring s r).pend = 0) := by
  decide +kernel

theorem witness_HostRings_15 :
  let s : State := (let a := up; { a with link := { a.link with ring := [(700, { Ring.init 0 with state := 1, dir := 0, head := 63, tail := 5, coalCnt := 9, pend := 3 })] } })
  let r : Fin 1024 := 700
  let cause : Fin 4 := 3
  ((ring s r).state = 1) := by
  decide +kernel

theorem witness_HostRings_16 :
  let s : State := up
  let r : Fin 1024 := 700
  let cause : Fin 4 := 3
  ((ring s r).state ≠ 1) := by
  decide +kernel

theorem witness_HostRings_17 :
  let s : State := (let a := (setFld (setFld (setFld (setFld up pgHST HST_RING_IDX 700) pgHST HST_SIZE_LOG2 6) pgHST HST_COAL_CNT 4) pgHST HST_HEAD_WB 9); { a with link := { a.link with ring := [(700, { Ring.init 0 with state := 1, dir := 1, head := 63, tail := 5, coalCnt := 4, pend := 3 })] } })
  let o : Origin := .pf
  let r : Nat := 700
  let x : Ring := ring s 700
  (addrReject s o (pgHST + HST_RING_CMD.off) = none) ∧
  (r = fld s pgHST HST_RING_IDX) ∧
  (mayUse (Origin.slice o) (ringOwner s r) = true) ∧
  (x = ring s r) := by
  decide +kernel

theorem witness_HostRings_18 :
  let s : State := setFld (setFld (setFld (setFld up pgHST HST_RING_IDX 700) pgHST HST_SIZE_LOG2 6) pgHST HST_COAL_CNT 4) pgHST HST_HEAD_WB 9
  let o : Origin := .pf
  let r : Nat := 700
  let x : Ring := ring s 700
  let z : Nat := 6
  (addrReject s o (pgHST + HST_RING_CMD.off) = none) ∧
  (r = fld s pgHST HST_RING_IDX) ∧
  (mayUse (Origin.slice o) (ringOwner s r) = true) ∧
  (x = ring s r) ∧
  (z = fld s pgHST HST_SIZE_LOG2) ∧
  (x.state ≠ 1) ∧
  (6 ≤ z) ∧
  (z ≤ 16) ∧
  (fld s pgHST HST_COAL_CNT ≠ 0) := by
  decide +kernel

theorem witness_HostRings_19 :
  let s : State := setFld (setFld (setFld (setFld up pgHST HST_RING_IDX 700) pgHST HST_SIZE_LOG2 5) pgHST HST_COAL_CNT 4) pgHST HST_HEAD_WB 9
  let o : Origin := .pf
  let r : Nat := 700
  let c : Nat := 1
  (addrReject s o (pgHST + HST_RING_CMD.off) = none) ∧
  (r = fld s pgHST HST_RING_IDX) ∧
  (mayUse (Origin.slice o) (ringOwner s r) = true) ∧
  (((ring s r).state = 1 ∧ c = 8) ∨ ((ring s r).state ≠ 1 ∧ fld s pgHST HST_SIZE_LOG2 < 6 ∧ c = 1)) := by
  decide +kernel

theorem witness_HostRings_20 :
  let s : State := setFld (setFld (setFld (setFld up pgHST HST_RING_IDX 700) pgHST HST_SIZE_LOG2 6) pgHST HST_COAL_CNT 4) pgHST HST_HEAD_WB 9
  let o : Origin := .pf
  let r : Nat := 700
  (addrReject s o (pgHST + HST_RING_CMD.off) = none) ∧
  (r = fld s pgHST HST_RING_IDX) ∧
  (mayUse (Origin.slice o) (ringOwner s r) = true) := by
  decide +kernel

theorem witness_HostRings_21 :
  let s : State := (let a := (setFld (setFld (setFld (setFld up pgHST HST_RING_IDX 700) pgHST HST_SIZE_LOG2 6) pgHST HST_COAL_CNT 4) pgHST HST_HEAD_WB 9); { a with link := { a.link with ring := [(700, { Ring.init 0 with state := 1, dir := 1, head := 63, tail := 5, coalCnt := 4, pend := 3 })] } })
  let o : Origin := .pf
  let r : Nat := 700
  (addrReject s o (pgHST + HST_RING_CMD.off) = none) ∧
  (r = fld s pgHST HST_RING_IDX) ∧
  (mayUse (Origin.slice o) (ringOwner s r) = true) := by
  decide +kernel

theorem witness_HostRings_22 :
  let s : State := setFld up pgSLC SLC_SLICE_EN 4
  let i : Instr := .ringStart (.vf 2)
  let o : Origin := .vf 2
  (i = .ringRead o ∨ i = .ringWrite o ∨ i = .ringStart o ∨ i = .ringStop o) ∧
  (addrReject s o (pgHST + HST_RING_CMD.off) = none) ∧
  (mayUse (Origin.slice o) (ringOwner s (fld s pgHST HST_RING_IDX)) = false) := by
  exact ⟨by simp, by decide +kernel, by decide +kernel⟩

theorem witness_HostRings_25 :
  let s : State := up
  let up : Bool := false
  (released s = true) := by
  decide +kernel

theorem witness_HostRings_26 :
  let s : State := State.reset
  let up : Bool := true
  (released s = false) := by
  decide +kernel

theorem witness_OpticsBus_1 :
  let s : State := (setFld (setFld (setFld up pgOPT (OPT_PORT.at 3) 13) pgOPT (OPT_LEN.at 3) 6) pgOPT OPT_MUX_EN 255)
  let o : Origin := .pf
  let j : Fin 8 := 3
  let p : Nat := 13
  let n : Nat := 6
  (addrReject s o (pgOPT + (OPT_CMD.at j).off) = none) ∧
  (i2cBusy s j = false) ∧
  (p = fld s pgOPT (OPT_PORT.at j)) ∧
  (n = fld s pgOPT (OPT_LEN.at j)) ∧
  (mayUse (Origin.slice o) (portOwner s p) = true) ∧
  (p / 4 = j.val) ∧
  (n ≠ 0) ∧
  (n ≤ 32) := by
  decide +kernel

theorem witness_OpticsBus_2 :
  let s : State := (setFld (setFld (setFld up pgOPT (OPT_PORT.at 3) 13) pgOPT (OPT_LEN.at 3) 6) pgOPT OPT_MUX_EN 255)
  let o : Origin := .pf
  let j : Fin 8 := 3
  let p : Nat := 13
  let n : Nat := 6
  (addrReject s o (pgOPT + (OPT_CMD.at j).off) = none) ∧
  (i2cBusy s j = false) ∧
  (p = fld s pgOPT (OPT_PORT.at j)) ∧
  (n = fld s pgOPT (OPT_LEN.at j)) ∧
  (mayUse (Origin.slice o) (portOwner s p) = true) ∧
  (p / 4 = j.val) ∧
  (n ≠ 0) ∧
  (n ≤ 32) := by
  decide +kernel

theorem witness_OpticsBus_3 :
  let s : State := setFld up pgOPT (OPT_STAT.at 3) 1
  let i : Instr := .i2cRead .pf 3
  let o : Origin := .pf
  let j : Fin 8 := 3
  let c : Nat := 4
  (i = .i2cRead o j ∨ i = .i2cWrite o j) ∧
  (addrReject s o (pgOPT + (OPT_CMD.at j).off) = none) ∧
  ((i2cBusy s j = true ∧ c = 4) ∨ (i2cBusy s j = false ∧ mayUse (Origin.slice o) (portOwner s (fld s pgOPT (OPT_PORT.at j))) = true ∧ fld s pgOPT (OPT_LEN.at j) = 0 ∧ c = 1)) := by
  exact ⟨by simp, by decide +kernel, .inl (by decide +kernel)⟩

theorem witness_OpticsBus_4 :
  let s : State := setFld up pgSLC SLC_SLICE_EN 4
  let i : Instr := .i2cRead (.vf 2) 3
  let o : Origin := .vf 2
  let j : Fin 8 := 3
  (i = .i2cRead o j ∨ i = .i2cWrite o j) ∧
  (addrReject s o (pgOPT + (OPT_CMD.at j).off) = none) ∧
  (i2cBusy s j = false) ∧
  (mayUse (Origin.slice o) (portOwner s (fld s pgOPT (OPT_PORT.at j))) = false) := by
  exact ⟨by simp, by decide +kernel, by decide +kernel, by decide +kernel⟩

theorem witness_OpticsBus_5 :
  let s : State := setFld up pgOPT (OPT_STAT.at 3) 1
  let j : Fin 8 := 3
  let bytes : List Byte := []
  (i2cBusy s j = true) := by
  decide +kernel

theorem witness_OpticsBus_6 :
  let s : State := setFld (setFld (setFld (setFld up pgOPT (OPT_PORT.at 3) 13) pgOPT (OPT_LEN.at 3) 6) pgOPT OPT_MUX_EN 255) pgOPT (OPT_STAT.at 3) 1
  let j : Fin 8 := 3
  let bytes : List Byte := [1, 2, 3, 4, 5, 6, 7]
  (i2cBusy s j = true) := by
  decide +kernel

theorem witness_OpticsBus_7 :
  let s : State := setFld up pgOPT (OPT_STAT.at 3) 1
  let j : Fin 8 := 3
  (i2cBusy s j = true) := by
  decide +kernel

theorem witness_OpticsBus_8 :
  let s : State := up
  let i : Instr := .i2cTimeout 3
  let j : Fin 8 := 3
  let b : Bool := true
  let bytes : List Byte := []
  (i = .i2cDone j b bytes ∨ i = .i2cTimeout j) ∧
  (i2cBusy s j = false) := by
  exact ⟨by simp, by decide +kernel⟩

theorem witness_HexcaLinksAndMesh_1 :
  let s : State := (let a := setFld up (pgMSH 1) MSH_LINK_EN 1; { a with link := { a.link with hex := [(1, { HexSt.init 0 with lanes := [⟨3, 0, some 0⟩, ⟨3, 0, some 1⟩, ⟨3, 0, some 2⟩, ⟨2, 0, some 3⟩] })] } })
  let m : Fin 3 := 1
  let i : Fin 4 := 3
  let x : MarkerIn := .marker 3 true none
  let l : HexLane := ⟨2, 0, some 3⟩
  (active s (pgMSH m) MSH_LINK_EN = true) ∧
  (l = (hex s m).lanes.getD i ⟨0, 0, none⟩) := by
  decide +kernel

theorem witness_HexcaLinksAndMesh_2 :
  let s : State := (let a := setFld up (pgMSH 1) MSH_LINK_EN 1; { a with link := { a.link with hex := [(1, { HexSt.init 0 with lanes := [⟨3, 0, some 0⟩, ⟨3, 0, some 1⟩, ⟨3, 0, some 2⟩, ⟨2, 0, some 3⟩] })] } })
  let m : Fin 3 := 1
  let i : Fin 4 := 2
  let n : Fin 4 := 2
  let tr : Option (BitVec 128) := none
  (active s (pgMSH m) MSH_LINK_EN = true) ∧
  (((hex s m).lanes.getD i ⟨0, 0, none⟩).st = 3) := by
  decide +kernel

theorem witness_HexcaLinksAndMesh_3 :
  let s : State := setFld up (pgMSH 1) MSH_LINK_EN 1
  let m : Fin 3 := 1
  let insert : Bool := true
  (active s (pgMSH m) MSH_LINK_EN = true) := by
  decide +kernel

theorem witness_HexcaLinksAndMesh_4 :
  let s : State := up
  let c : Instr := .mirrorRead 1
  let m : Fin 3 := 1
  let i : Fin 4 := 0
  let x : MarkerIn := .absent
  let b : Bool := true
  let d : Fin 6 := 0
  (c = .alignmentMarker m i x ∨ c = .fillColumn m b ∨ c = .linkDefectChange m d b ∨ c = .noticeResetReceive m ∨ c = .mirrorRead m) ∧
  (active s (pgMSH m) MSH_LINK_EN = false) := by
  exact ⟨by simp, by decide +kernel⟩

theorem witness_HexcaLinksAndMesh_5 :
  let s : State := setFld (setFld up (pgMSH 1) MSH_LINK_EN 1) (pgMSH 1) MSH_STATE 3
  let m : Fin 3 := 1
  let d : Fin 6 := 0
  let b : Bool := true
  (active s (pgMSH m) MSH_LINK_EN = true) := by
  decide +kernel

theorem witness_HexcaLinksAndMesh_6 :
  let s : State := setFld (setFld up (pgMSH 1) MSH_LINK_EN 1) (pgMSH 1) MSH_STATE 3
  let m : Fin 3 := 1
  (active s (pgMSH m) MSH_LINK_EN = true) := by
  decide +kernel

theorem witness_HexcaLinksAndMesh_7 :
  let s : State := setFld (setFld up (pgMSH 1) MSH_LINK_EN 1) (pgMSH 1) MSH_STATE 3
  let m : Fin 3 := 1
  let x : HexcaMsg := ⟨true, 64, true, 2, 9, .other⟩
  (hexUp s m = true) ∧
  (x.startOk = true) ∧
  (x.len ≤ 16384) ∧
  (x.crcOk = true) ∧
  (x.vc < 3) ∧
  (x.body = .other ∨ x.body = .bulk true ∨ x.body = .bulk false) := by
  decide +kernel

theorem witness_HexcaLinksAndMesh_8 :
  let s : State := setFld (setFld up (pgMSH 1) MSH_LINK_EN 1) (pgMSH 1) MSH_STATE 3
  let m : Fin 3 := 1
  let x : HexcaMsg := ⟨true, 64, true, 0, 9, .mirror 7 []⟩
  let f : Nat := 7
  let r : List MirrorRec := []
  (hexUp s m = true) ∧
  (x.startOk = true) ∧
  (x.len ≤ 16384) ∧
  (x.crcOk = true) ∧
  (x.vc = 0) ∧
  (x.body = .mirror f r) ∧
  (f < (hex s m).next.getD (f - 1) + 4) := by
  decide +kernel

theorem witness_HexcaLinksAndMesh_9 :
  let s : State := setFld (setFld up (pgMSH 1) MSH_LINK_EN 1) (pgMSH 1) MSH_STATE 3
  let m : Fin 3 := 1
  let x : HexcaMsg := ⟨true, 64, false, 0, 9, .other⟩
  (hexUp s m = true) ∧
  (x.startOk = false ∨ 16384 < x.len ∨ x.crcOk = false) := by
  decide +kernel

theorem witness_HexcaLinksAndMesh_10 :
  let s : State := up
  let m : Fin 3 := 1
  let x : HexcaMsg := ⟨true, 64, true, 0, 9, .other⟩
  (hexUp s m = false) := by
  decide +kernel

theorem witness_HexcaLinksAndMesh_11 :
  let s : State := at_ ((let a := setFld up (pgMSH 1) MSH_LINK_EN 1; { a with link := { a.link with hex := [(1, { HexSt.init 0 with slip := [⟨7, []⟩, ⟨8, []⟩] })] } })) 9 0 0
  let m : Fin 3 := 1
  let r : Nat := 7
  let f : MirrorFrame := ⟨7, []⟩
  (active s (pgMSH m) MSH_LINK_EN = true) ∧
  (2 ≤ frame s) ∧
  (r = (hex s m).next.getD (frame s - 2)) ∧
  ((hex s m).slip.find? (fun e => e.frame == r) = some f) ∧
  (f.recs = []) ∧
  (pairsToward s m = []) := by
  decide +kernel

theorem witness_HexcaLinksAndMesh_12 :
  let s : State := at_ ((let a := setFld up (pgMSH 1) MSH_LINK_EN 1; { a with link := { a.link with hex := [(1, { HexSt.init 0 with slip := [⟨8, []⟩] })] } })) 9 0 0
  let m : Fin 3 := 1
  let r : Nat := 7
  (active s (pgMSH m) MSH_LINK_EN = true) ∧
  (2 ≤ frame s) ∧
  (r = (hex s m).next.getD (frame s - 2)) ∧
  ((hex s m).slip.find? (fun e => e.frame == r) = none) ∧
  ((hex s m).slip.any (fun e => r < e.frame) = true) := by
  decide +kernel

theorem witness_HexcaLinksAndMesh_13 :
  let s : State := at_ (setFld up (pgMSH 1) MSH_LINK_EN 1) 8 0 0
  let f : Nat := 8
  (released s = true) ∧
  (f = frame s) ∧
  (f % 2 = 0) ∧
  ((List.range 3).all (fun m => pairsToward s m == []) = true) ∧
  (s.prot.masterLost = false) ∧
  (gmRole s ≠ 2) := by
  decide +kernel

theorem witness_HexcaLinksAndMesh_14 :
  let s : State := at_ (setFld up (pgMSH 1) MSH_LINK_EN 1) 8 0 0
  let f : Nat := 8
  let m : Fin 3 := 1
  (released s = true) ∧
  (f = frame s) ∧
  (f % 2 = 0) ∧
  ((List.range 3).all (fun m => pairsToward s m == []) = true) ∧
  (s.prot.masterLost = false) ∧
  (gmRole s ≠ 2) ∧
  (active s (pgMSH m) MSH_LINK_EN = true) ∧
  ((tick s m).lastTx ≠ some f) := by
  decide +kernel

theorem witness_HexcaLinksAndMesh_15 :
  let s : State := at_ up 7 0 0
  (released s = false ∨ frame s % 2 ≠ 0) := by
  decide +kernel

theorem witness_HexcaLinksAndMesh_16 :
  let s : State := at_ (setFld (setFld up (pgMSH 1) MSH_LINK_EN 1) (pgMSH 1) MSH_STATE 3) 9 0 0
  let m : Fin 3 := 1
  let x : TickIn := ⟨2, 77, 8, false, false⟩
  (hexUp s m = true) ∧
  (x.fault = false) ∧
  (x.master = false) ∧
  (x.frame = slotOf (frame s) % 2 ^ 24) := by
  decide +kernel

theorem witness_HexcaLinksAndMesh_17 :
  let s : State := at_ (setFld (setFld up (pgMSH 1) MSH_LINK_EN 1) (pgMSH 1) MSH_STATE 3) 9 0 0
  let m : Fin 3 := 1
  let x : TickIn := ⟨2, 77, 12, false, false⟩
  (hexUp s m = true) ∧
  (x.fault = false) ∧
  (x.master = false) ∧
  ((x.frame + 2 ^ 24 - slotOf (frame s) % 2 ^ 24) % 2 ^ 24 ∈ [1, 3, 4]) := by
  decide +kernel

theorem witness_HexcaLinksAndMesh_18 :
  let s : State := at_ (setFld up pgPRT PRT_HB_PIN_EN 2) 9 0 0
  let m : Fin 3 := 1
  let w : Nat := 16
  let d : Int := -64
  (bitAt (fld s pgPRT PRT_HB_PIN_EN) m = true) ∧
  (8 ≤ w) ∧
  (w ≤ 64) ∧
  (d.natAbs ≤ 64) := by
  decide +kernel

theorem witness_HexcaLinksAndMesh_19 :
  let s : State := setFld up pgPRT PRT_HB_PIN_EN 2
  let m : Fin 3 := 1
  let w : Nat := 7
  let d : Int := 0
  (bitAt (fld s pgPRT PRT_HB_PIN_EN) m = true) ∧
  (w < 8 ∨ (64 < w ∧ w < 256)) := by
  decide +kernel

theorem witness_HexcaLinksAndMesh_20 :
  let s : State := up
  let c : Instr := .peerFailDeclare 1
  let m : Fin 3 := 1
  let w : Nat := 0
  let d : Int := 0
  let x : TickIn := ⟨0, 0, 0, false, false⟩
  ((c = .hbPulse m w d ∧ bitAt (fld s pgPRT PRT_HB_PIN_EN) m = false) ∨ (c = .meshTickReceive m x ∧ hexUp s m = false) ∨ (c = .peerFailDeclare m ∧ (tick s m).missed < 3)) := by
  exact .inr (.inr ⟨rfl, by decide +kernel⟩)

theorem witness_HexcaLinksAndMesh_21 :
  let s : State := { up with prot := { up.prot with tick := [(1, { TickSt.init 0 with missed := 3 })] } }
  let m : Fin 3 := 1
  (3 ≤ (tick s m).missed) ∧
  (peerFailed s m = false) ∧
  (pairsToward s m = []) := by
  decide +kernel

theorem witness_HexcaLinksAndMesh_22 :
  let s : State := up
  let m : Fin 3 := 1
  (pairsToward s m = []) := by
  decide +kernel

theorem witness_HexcaLinksAndMesh_23 :
  let s : State := setFld up pgPRT PRT_CUR_ROLE 2
  let o : Origin := .pf
  (addrReject s o (pgPRT + PRT_GM_CMD.off) = none) ∧
  (gmRole s ≠ 1) := by
  decide +kernel

theorem witness_HexcaLinksAndMesh_24 :
  let s : State := setFld up pgPRT PRT_CUR_ROLE 1
  let o : Origin := .pf
  (addrReject s o (pgPRT + PRT_GM_CMD.off) = none) ∧
  (gmRole s = 1) := by
  decide +kernel

theorem witness_HexcaLinksAndMesh_25 :
  let s : State := setFld up pgPRT PRT_CUR_ROLE 1
  let o : Origin := .pf
  (addrReject s o (pgPRT + PRT_GM_CMD.off) = none) ∧
  (gmRole s = 1) := by
  decide +kernel

theorem witness_HexcaLinksAndMesh_26 :
  let s : State := up
  let o : Origin := .pf
  (addrReject s o (pgPRT + PRT_GM_CMD.off) = none) ∧
  (gmRole s ≠ 1) := by
  decide +kernel

theorem witness_HexcaLinksAndMesh_27 :
  let s : State := { setFld up pgPRT PRT_CUR_ROLE 2 with prot := { up.prot with offset := some (-5) } }
  let o : Origin := .pf
  let force : Bool := true
  let d : Int := -5
  (addrReject s o (pgPRT + PRT_GM_CMD.off) = none) ∧
  (s.prot.offset = some d) ∧
  (gmRole s = 2) := by
  decide +kernel

theorem witness_HexcaLinksAndMesh_28 :
  let s : State := up
  let o : Origin := .pf
  let force : Bool := true
  (addrReject s o (pgPRT + PRT_GM_CMD.off) = none) ∧
  (s.prot.offset = none ∨ gmRole s ≠ 2) := by
  decide +kernel

theorem witness_PairWindow_1 :
  let s : State := (let a := setFld up pgPRT PRT_PAIR_IDX 5; { a with prot := { a.prot with pair := [(5, { PairSt.init 0 with en := true, kind := 1, link := 2, peerPort := 9, state := 5, armed := true, expiry := 77, delta := -3, heard := some 44 })] } })
  let o : Origin := .pf
  let p : Nat := 5
  let r : PairSt := pair s 5
  (addrReject s o (pgPRT + PRT_PAIR_CMD.off) = none) ∧
  (p = fld s pgPRT PRT_PAIR_IDX) ∧
  (r = pair s p) := by
  decide +kernel

theorem witness_PairWindow_2 :
  let s : State := (let a := setFld (setFld (setFld (setFld (setFld (setFld (setFld up pgPRT PRT_PAIR_IDX 5) pgPRT PRT_EN 1) pgPRT PRT_KIND 1) pgPRT PRT_LINK 1) pgPRT PRT_LEASE_FRAMES 32) (pgMSH 1) MSH_STATE 3) pgPRT PRT_GM_LOCKED 1; { a with prot := { a.prot with tick := [(1, { TickSt.init 0 with heardLink := some 4 })] } })
  let o : Origin := .pf
  let p : Nat := 5
  let r : PairSt := pair s 5
  (addrReject s o (pgPRT + PRT_PAIR_CMD.off) = none) ∧
  (p = fld s pgPRT PRT_PAIR_IDX) ∧
  (r = pair s p) ∧
  (isSet s pgPRT PRT_EN = true) ∧
  (r.en = false) ∧
  (pairOk? s p (pairOfWindow s r) = true) ∧
  (fld s pgPRT PRT_KIND = 1 ∨ (pair s (fld s pgPRT PRT_PEER_PORT)).en = false) := by
  decide +kernel

theorem witness_PairWindow_3 :
  let s : State := (let a := setFld (setFld (setFld (setFld (setFld (setFld up pgPRT PRT_PAIR_IDX 5) pgPRT PRT_EN 1) pgPRT PRT_KIND 0) pgPRT PRT_PEER_PORT 6) pgPRT PRT_START_ACTIVE 1) pgPRT PRT_LEASE_FRAMES 32; { a with prot := { a.prot with pair := [(6, { PairSt.init 0 with en := true, peerPort := 5, state := 5 })] } })
  let o : Origin := .pf
  let p : Nat := 5
  let r : PairSt := pair s 5
  let q : Nat := 6
  (addrReject s o (pgPRT + PRT_PAIR_CMD.off) = none) ∧
  (p = fld s pgPRT PRT_PAIR_IDX) ∧
  (r = pair s p) ∧
  (isSet s pgPRT PRT_EN = true) ∧
  (r.en = false) ∧
  (pairOk? s p (pairOfWindow s r) = true) ∧
  (fld s pgPRT PRT_KIND = 0) ∧
  (q = fld s pgPRT PRT_PEER_PORT) ∧
  ((pair s q).en = true) ∧
  (custodyState (pair s q).state = true) := by
  decide +kernel

theorem witness_PairWindow_4 :
  let s : State := (let a := setFld (setFld (setFld (setFld (setFld (setFld up pgPRT PRT_PAIR_IDX 5) pgPRT PRT_EN 1) pgPRT PRT_KIND 0) pgPRT PRT_PEER_PORT 6) pgPRT PRT_START_ACTIVE 1) pgPRT PRT_LEASE_FRAMES 32; { a with prot := { a.prot with pair := [(6, { PairSt.init 0 with en := true, peerPort := 5 })] } })
  let o : Origin := .pf
  let p : Nat := 5
  let r : PairSt := pair s 5
  let q : Nat := 6
  (addrReject s o (pgPRT + PRT_PAIR_CMD.off) = none) ∧
  (p = fld s pgPRT PRT_PAIR_IDX) ∧
  (r = pair s p) ∧
  (isSet s pgPRT PRT_EN = true) ∧
  (r.en = false) ∧
  (pairOk? s p (pairOfWindow s r) = true) ∧
  (fld s pgPRT PRT_KIND = 0) ∧
  (q = fld s pgPRT PRT_PEER_PORT) ∧
  ((pair s q).en = true) ∧
  (custodyState (pair s q).state = false) ∧
  (holdsCustody s p = false) ∧
  (startsHere (isSet s pgPRT PRT_START_ACTIVE) (pair s q).startActive (p < q) = true) := by
  decide +kernel

theorem witness_PairWindow_5 :
  let s : State := (let a := setFld (setFld (setFld (setFld up pgPRT PRT_PAIR_IDX 5) pgPRT PRT_EN 1) pgPRT PRT_LEASE_FRAMES 256) pgPRT PRT_DELTA_FINE 16777214; { a with prot := { a.prot with pair := [(5, { PairSt.init 0 with en := true })] } })
  let o : Origin := .pf
  let p : Nat := 5
  let r : PairSt := pair s 5
  (addrReject s o (pgPRT + PRT_PAIR_CMD.off) = none) ∧
  (p = fld s pgPRT PRT_PAIR_IDX) ∧
  (r = pair s p) ∧
  (isSet s pgPRT PRT_EN = true) ∧
  (r.en = true) ∧
  (leaseOk (fld s pgPRT PRT_LEASE_FRAMES) = true) ∧
  ((fld s pgPRT PRT_KIND, fld s pgPRT PRT_PEER_PORT, fld s pgPRT PRT_LINK, isSet s pgPRT PRT_START_ACTIVE) = (r.kind, r.peerPort, r.link, r.startActive)) := by
  decide +kernel

theorem witness_PairWindow_6 :
  let s : State := setFld (setFld (setFld (setFld up pgPRT PRT_PAIR_IDX 5) pgPRT PRT_EN 1) pgPRT PRT_PEER_PORT 6) pgPRT PRT_LEASE_FRAMES 7
  let o : Origin := .pf
  let p : Nat := 5
  let r : PairSt := pair s 5
  let c : Nat := 1
  (addrReject s o (pgPRT + PRT_PAIR_CMD.off) = none) ∧
  (p = fld s pgPRT PRT_PAIR_IDX) ∧
  (r = pair s p) ∧
  (isSet s pgPRT PRT_EN = true) ∧
  ((r.en = false ∧ pairOk? s p (pairOfWindow s r) = false ∧ c = 1) ∨ (r.en = true ∧ leaseOk (fld s pgPRT PRT_LEASE_FRAMES) = false ∧ c = 1) ∨ (r.en = true ∧ leaseOk (fld s pgPRT PRT_LEASE_FRAMES) = true ∧ fld s pgPRT PRT_PEER_PORT ≠ r.peerPort ∧ c = 8)) := by
  decide +kernel

theorem witness_PairWindow_7 :
  let s : State := (let a := setFld up pgPRT PRT_PAIR_IDX 5; { a with prot := { a.prot with pair := [(5, { PairSt.init 0 with en := true, state := 5 })] } })
  let o : Origin := .pf
  let p : Nat := 5
  let r : PairSt := pair s 5
  (addrReject s o (pgPRT + PRT_PAIR_CMD.off) = none) ∧
  (p = fld s pgPRT PRT_PAIR_IDX) ∧
  (r = pair s p) ∧
  (isSet s pgPRT PRT_EN = false) ∧
  (r.en = true) := by
  decide +kernel

theorem witness_PairWindow_8 :
  let s : State := setFld (setFld up pgPRT PRT_PAIR_IDX 5) pgPRT PRT_PEER_PORT 9
  let o : Origin := .pf
  let p : Nat := 5
  let r : PairSt := pair s 5
  (addrReject s o (pgPRT + PRT_PAIR_CMD.off) = none) ∧
  (p = fld s pgPRT PRT_PAIR_IDX) ∧
  (r = pair s p) ∧
  (isSet s pgPRT PRT_EN = false) ∧
  (r.en = false) := by
  decide +kernel

theorem witness_PairWindow_9 :
  let s : State := (let a := setFld up pgPRT PRT_PAIR_IDX 5; { a with prot := { a.prot with pair := [(5, { PairSt.init 0 with en := true, kind := 1, state := 5, armed := true, peerState := 2 })] } })
  let o : Origin := .pf
  let p : Nat := 5
  let r : PairSt := pair s 5
  (addrReject s o (pgPRT + PRT_PAIR_CMD.off) = none) ∧
  (p = fld s pgPRT PRT_PAIR_IDX) ∧
  (r = pair s p) ∧
  (mayYield s p = true) := by
  decide +kernel

theorem witness_PairWindow_10 :
  let s : State := at_ (let a := setFld up pgPRT PRT_PAIR_IDX 5; { a with prot := { a.prot with pair := [(5, { PairSt.init 0 with en := true, kind := 1, state := 7, watch := some (3, 9) })] } }) 9 0 0
  let o : Origin := .pf
  let p : Nat := 5
  let r : PairSt := pair s 5
  (addrReject s o (pgPRT + PRT_PAIR_CMD.off) = none) ∧
  (p = fld s pgPRT PRT_PAIR_IDX) ∧
  (r = pair s p) ∧
  (checkOver s p = true) ∧
  (r.light = false) := by
  decide +kernel

theorem witness_PairWindow_11 :
  let s : State := (let a := setFld up pgPRT PRT_PAIR_IDX 5; { a with prot := { a.prot with pair := [(5, { PairSt.init 0 with en := true, kind := 1, state := 2 })] } })
  let o : Origin := .pf
  let p : Nat := 5
  let r : PairSt := pair s 5
  (addrReject s o (pgPRT + PRT_PAIR_CMD.off) = none) ∧
  (p = fld s pgPRT PRT_PAIR_IDX) ∧
  (r = pair s p) ∧
  (r.en = true) ∧
  (r.kind = 1) ∧
  (r.state = pStandby ∨ r.state = pSyncing) := by
  decide +kernel

theorem witness_PairWindow_12 :
  let s : State := at_ (setFld up pgPRT PRT_PAIR_IDX 5) 9 0 0
  let o : Origin := .pf
  let p : Nat := 5
  let r : PairSt := pair s 5
  (addrReject s o (pgPRT + PRT_PAIR_CMD.off) = none) ∧
  (p = fld s pgPRT PRT_PAIR_IDX) ∧
  (r = pair s p) ∧
  (r.en = false) ∧
  (inOtherPair s p = false) := by
  decide +kernel

theorem witness_PairWindow_13 :
  let s : State := setFld up pgPRT PRT_PAIR_IDX 5
  let i : Instr := .pairYield .pf
  let o : Origin := .pf
  let p : Nat := 5
  let r : PairSt := pair s 5
  (addrReject s o (pgPRT + PRT_PAIR_CMD.off) = none) ∧
  (p = fld s pgPRT PRT_PAIR_IDX) ∧
  (r = pair s p) ∧
  ((i = .pairYield o ∧ mayYield s p = false) ∨ (i = .pairReclaim o ∧ (checkOver s p = false ∨ r.light = true)) ∨ (i = .pairResync o ∧ (r.en = false ∨ r.kind ≠ 1 ∨ (r.state ≠ pStandby ∧ r.state ≠ pSyncing))) ∨ (i = .pairClaim o ∧ (r.en = true ∨ inOtherPair s p = true))) := by
  exact ⟨by decide +kernel, by decide +kernel, by decide +kernel, .inl ⟨rfl, by decide +kernel⟩⟩

theorem witness_CustodyLeaseAndCheck_1 :
  let s : State := at_ (let a := up; { a with prot := { a.prot with pair := [(5, { PairSt.init 0 with claim := some 9 })] } }) 9 0 0
  let p : Fin 32 := 5
  let r : PairSt := pair s 5
  let f : Nat := 9
  (r = pair s p) ∧
  (r.claim = some f) ∧
  (r.en = false) ∧
  (f ≤ frame s) := by
  decide +kernel

theorem witness_CustodyLeaseAndCheck_2 :
  let s : State := at_ (let a := up; { a with prot := { a.prot with pair := [(5, { PairSt.init 0 with en := true, state := 3, due := some 9 })] } }) 9 0 0
  let p : Fin 32 := 5
  let r : PairSt := pair s 5
  let f : Nat := 9
  (r = pair s p) ∧
  (r.due = some f) ∧
  (r.en = true) ∧
  (r.state = pTakeover) ∧
  (f ≤ frame s) := by
  decide +kernel

theorem witness_CustodyLeaseAndCheck_3 :
  let s : State := at_ (let a := up; { a with prot := { a.prot with pair := [(5, { PairSt.init 0 with en := true, state := 4, due := some 9 })] } }) 9 0 0
  let p : Fin 32 := 5
  let r : PairSt := pair s 5
  let f : Nat := 9
  (r = pair s p) ∧
  (r.due = some f) ∧
  (r.state = pSettle) ∧
  (f ≤ frame s) := by
  decide +kernel

theorem witness_CustodyLeaseAndCheck_4 :
  let s : State := at_ (let a := up; { a with prot := { a.prot with pair := [(5, { PairSt.init 0 with en := true, kind := 1, state := 5, armed := true, expiry := 9 })] } }) 9 0 0
  let p : Fin 32 := 5
  let r : PairSt := pair s 5
  (r = pair s p) ∧
  (r.en = true) ∧
  (r.armed = true) ∧
  (r.expiry ≤ frame s) ∧
  (bitAt (react s 58) 3 = false) := by
  decide +kernel

theorem witness_CustodyLeaseAndCheck_5 :
  let s : State := at_ (let a := up; { a with prot := { a.prot with pair := [(5, { PairSt.init 0 with en := true, kind := 1, state := 7, watch := some (3, 9), light := true })] } }) 9 0 0
  let p : Fin 32 := 5
  let r : PairSt := pair s 5
  (r = pair s p) ∧
  (checkOver s p = true) ∧
  (r.light = true) := by
  decide +kernel

theorem witness_CustodyLeaseAndCheck_6 :
  let s : State := at_ (let a := up; { a with prot := { a.prot with pair := [(5, { PairSt.init 0 with en := true, kind := 1, state := 7, watch := some (3, 9) })] } }) 9 0 0
  let p : Fin 32 := 5
  let r : PairSt := pair s 5
  (r = pair s p) ∧
  (checkOver s p = true) ∧
  (r.light = false) ∧
  (isSet s pgPRT PRT_RECLAIM_EN = true) := by
  decide +kernel

theorem witness_CustodyLeaseAndCheck_7 :
  let s : State := (let a := up; { a with prot := { a.prot with pair := [(5, { PairSt.init 0 with en := true, kind := 1, state := 1 })] } })
  let p : Fin 32 := 5
  let r : PairSt := pair s 5
  (r = pair s p) ∧
  (r.en = true) ∧
  (r.kind = 1) ∧
  (r.state = pSyncing) := by
  decide +kernel

theorem witness_CustodyLeaseAndCheck_8 :
  let s : State := (let a := up; { a with prot := { a.prot with pair := [(5, { PairSt.init 0 with en := true, kind := 1, state := 5, peerState := 2, autoYield := true, losRun := 4 })] } })
  let p : Fin 32 := 5
  let r : PairSt := pair s 5
  (r = pair s p) ∧
  (r.autoYield = true) ∧
  (max 1 (fld s pgPRT PRT_YIELD_LOS) ≤ r.losRun) ∧
  (mayYield s p = true) := by
  decide +kernel

theorem witness_CustodyLeaseAndCheck_9 :
  let s : State := up
  let i : Instr := .claimApply 5
  let p : Fin 32 := 5
  let r : PairSt := pair s 5
  (r = pair s p) ∧
  ((i = .claimApply p ∧ r.claim = none) ∨ ((i = .custodyTake p ∨ i = .laserSettleEnd p) ∧ r.due = none) ∨ (i = .leaseRundown p ∧ (r.armed = false ∨ frame s < r.expiry)) ∨ (i = .checkWindowEnd p ∧ (checkOver s p = false ∨ (r.light = false ∧ isSet s pgPRT PRT_RECLAIM_EN = false))) ∨ (i = .syncComplete p ∧ r.state ≠ pSyncing) ∨ (i = .autoYield p ∧ mayYield s p = false)) := by
  exact ⟨by decide +kernel, .inl ⟨rfl, by decide +kernel⟩⟩

theorem witness_EventsJournalSlicesAndChipReset_1 :
  let s : State := (let a := up; { a with evt := { a.evt with fifo := [⟨pgTMS + 0x20, .lateAction, 0, false, 0, 7, 5, [], 3, 4⟩], rings := [(3, { EvRing.init 0 with running := true, tail := 62 })] } })
  let e : EvRec := ⟨pgTMS + 0x20, .lateAction, 0, false, 0, 7, 5, [], 3, 4⟩
  let l : List EvRec := []
  let x : EvRing := evRing s 0 3
  let y : EvRing := { x with tail := 63, pend := 1, since := 0 }
  (s.evt.fifo = e :: l) ∧
  (released s = true) ∧
  (e.slice = 0) ∧
  (x = evRing s 0 e.ownRing) ∧
  (x.running = true) ∧
  (x.full = false) ∧
  (y = { x with tail := (x.tail + 1) % x.size, pend := x.pend + 1, since := if x.pend = 0 then (now s).fineIndex else x.since }) := by
  decide +kernel

theorem witness_EventsJournalSlicesAndChipReset_2 :
  let s : State := (let a := up; { a with evt := { a.evt with fifo := [⟨pgTMS + 0x20, .lateAction, 0, false, 0, 7, 5, [], 3, 4⟩], rings := [(3, { EvRing.init 0 with running := true, head := 63, tail := 62 })] } })
  let e : EvRec := ⟨pgTMS + 0x20, .lateAction, 0, false, 0, 7, 5, [], 3, 4⟩
  let l : List EvRec := []
  let x : EvRing := evRing s 0 3
  (s.evt.fifo = e :: l) ∧
  (released s = true) ∧
  (e.slice = 0) ∧
  (x = evRing s 0 e.ownRing) ∧
  (x.running = false ∨ x.full = true) := by
  decide +kernel

theorem witness_EventsJournalSlicesAndChipReset_3 :
  let s : State := (let a := up; { a with evt := { a.evt with fifo := [⟨pgTMS + 0x20, .lateAction, 0, false, 2, 7, 5, [], 3, 4⟩], rings := [(4, { EvRing.init 0 with running := true, tail := 62 }), (33, { EvRing.init 0 with running := true, tail := 62 })] } })
  let e : EvRec := ⟨pgTMS + 0x20, .lateAction, 0, false, 2, 7, 5, [], 3, 4⟩
  let l : List EvRec := []
  let x : EvRing := evRing s 2 3
  let y : EvRing := evRing s 0 4
  (s.evt.fifo = e :: l) ∧
  (released s = true) ∧
  (e.slice ≠ 0) ∧
  (15 * e.slice + e.ownRing ≠ e.pfRing) ∧
  (x = evRing s e.slice e.ownRing) ∧
  (y = evRing s 0 e.pfRing) ∧
  (x.running = true) ∧
  (x.full = false) ∧
  (y.running = true) ∧
  (y.full = false) := by
  decide +kernel

theorem witness_EventsJournalSlicesAndChipReset_4 :
  let s : State := up
  (s.evt.fifo = [] ∨ released s = false) := by
  decide +kernel

theorem witness_EventsJournalSlicesAndChipReset_5 :
  let s : State := (let a := setFld (setFld up pgEVT EVT_EV_FUNC 2) pgEVT EVT_EV_RING 3; { a with evt := { a.evt with fifo := [], rings := [(33, { EvRing.init 0 with running := true, tail := 62 })] } })
  let o : Origin := .pf
  let f : Nat := 2
  let r : Nat := 3
  let x : EvRing := evRing s 2 3
  (addrReject s o (pgEVT + EVT_EV_CMD.off) = none) ∧
  (f = (match o with | .vf v => v | _ => fld s pgEVT EVT_EV_FUNC)) ∧
  (r = fld s pgEVT EVT_EV_RING) ∧
  (x = evRing s f r) := by
  decide +kernel

theorem witness_EventsJournalSlicesAndChipReset_6 :
  let s : State := setFld (setFld (setFld (setFld up pgEVT EVT_SIZE_LOG2 7) pgEVT EVT_COAL_CNT 9) pgEVT EVT_HEAD 127) pgEVT EVT_EV_RING 3
  let o : Origin := .pf
  let f : Nat := 0
  let r : Nat := 3
  let x : EvRing := evRing s 0 3
  let w : EvRing := x.ofWindow s
  (addrReject s o (pgEVT + EVT_EV_CMD.off) = none) ∧
  (f = (match o with | .vf v => v | _ => fld s pgEVT EVT_EV_FUNC)) ∧
  (r = fld s pgEVT EVT_EV_RING) ∧
  (x = evRing s f r) ∧
  (w = x.ofWindow s) ∧
  (x.running = false ∨ w = x) ∧
  (6 ≤ w.sizeLog2) ∧
  (w.sizeLog2 ≤ 16) ∧
  (w.coalCnt ≠ 0) ∧
  (fld s pgEVT EVT_HEAD < w.size) := by
  decide +kernel

theorem witness_EventsJournalSlicesAndChipReset_7 :
  let s : State := setFld (setFld (setFld up pgEVT EVT_SIZE_LOG2 7) pgEVT EVT_COAL_CNT 9) pgEVT EVT_HEAD 128
  let o : Origin := .pf
  let f : Nat := 0
  let r : Nat := 0
  let x : EvRing := evRing s 0 0
  let w : EvRing := x.ofWindow s
  let c : Nat := 1
  (addrReject s o (pgEVT + EVT_EV_CMD.off) = none) ∧
  (f = (match o with | .vf v => v | _ => fld s pgEVT EVT_EV_FUNC)) ∧
  (r = fld s pgEVT EVT_EV_RING) ∧
  (x = evRing s f r) ∧
  (w = x.ofWindow s) ∧
  ((x.running = true ∧ w ≠ x ∧ c = 8) ∨ (x.running = false ∧ (w.sizeLog2 < 6 ∨ 16 < w.sizeLog2 ∨ w.coalCnt = 0 ∨ w.size ≤ fld s pgEVT EVT_HEAD) ∧ c = 1)) := by
  decide +kernel

theorem witness_EventsJournalSlicesAndChipReset_8 :
  let s : State := setFld up pgEVT EVT_EV_RING 3
  let o : Origin := .pf
  let f : Nat := 0
  let r : Nat := 3
  let x : EvRing := evRing s 0 3
  (addrReject s o (pgEVT + EVT_EV_CMD.off) = none) ∧
  (f = (match o with | .vf v => v | _ => fld s pgEVT EVT_EV_FUNC)) ∧
  (r = fld s pgEVT EVT_EV_RING) ∧
  (x = evRing s f r) := by
  decide +kernel

theorem witness_EventsJournalSlicesAndChipReset_9 :
  let s : State := (let a := setFld up pgEVT EVT_EV_RING 3; { a with evt := { a.evt with fifo := [], rings := [(3, { EvRing.init 0 with running := true, tail := 62 })] } })
  let o : Origin := .pf
  let f : Nat := 0
  let r : Nat := 3
  let x : EvRing := evRing s 0 3
  (addrReject s o (pgEVT + EVT_EV_CMD.off) = none) ∧
  (f = (match o with | .vf v => v | _ => fld s pgEVT EVT_EV_FUNC)) ∧
  (r = fld s pgEVT EVT_EV_RING) ∧
  (x = evRing s f r) := by
  decide +kernel

theorem witness_EventsJournalSlicesAndChipReset_10 :
  let s : State := (let a := setFld (setFld (setFld up pgJRN JRN_STREAM_EN 1) pgJRN JRN_SIZE_LOG2 4) pgJRN JRN_HEAD 3; { a with jrn := { a.jrn with ring := [⟨40, .pf, 0, ⟨4, 5, 6⟩, 0x4000, 1#32, 2#32, 3#32⟩, ⟨39, .pf, 0, ⟨4, 5, 6⟩, 0x4000, 1#32, 2#32, 3#32⟩, ⟨38, .pf, 0, ⟨4, 5, 6⟩, 0x4000, 1#32, 2#32, 3#32⟩], unsent := 2, tail := 7 } })
  let l : List JRec := [⟨39, .pf, 0, ⟨4, 5, 6⟩, 0x4000, 1#32, 2#32, 3#32⟩, ⟨40, .pf, 0, ⟨4, 5, 6⟩, 0x4000, 1#32, 2#32, 3#32⟩]
  let z : Nat := 16
  (released s = true) ∧
  (active s pgJRN JRN_STREAM_EN = true) ∧
  (z = 2 ^ fld s pgJRN JRN_SIZE_LOG2) ∧
  (l = ((s.jrn.ring.take s.jrn.unsent).reverse).take ((fld s pgJRN JRN_HEAD + z - s.jrn.tail % z - 1) % z)) ∧
  (l ≠ []) := by
  decide +kernel

theorem witness_EventsJournalSlicesAndChipReset_11 :
  let s : State := up
  (released s = false ∨ active s pgJRN JRN_STREAM_EN = false ∨ s.jrn.unsent = 0) := by
  decide +kernel

theorem witness_EventsJournalSlicesAndChipReset_12 :
  let s : State := (let a := up; { a with jrn := { a.jrn with ring := [⟨40, .pf, 0, ⟨4, 5, 6⟩, 0x4000, 1#32, 2#32, 3#32⟩, ⟨39, .pf, 0, ⟨4, 5, 6⟩, 0x4000, 1#32, 2#32, 3#32⟩, ⟨38, .pf, 0, ⟨4, 5, 6⟩, 0x4000, 1#32, 2#32, 3#32⟩] } })
  let o : Origin := .pf
  let data : Word := 2#32
  let r : JRec := ⟨38, .pf, 0, ⟨4, 5, 6⟩, 0x4000, 1#32, 2#32, 3#32⟩
  (addrReject s o (pgJRN + JRN_RD_IDX.off) = none) ∧
  (s.jrn.ring[bitsOf data 0 16]? = some r) := by
  decide +kernel

theorem witness_EventsJournalSlicesAndChipReset_13 :
  let s : State := up
  let o : Origin := .pf
  let data : Word := 2#32
  (addrReject s o (pgJRN + JRN_RD_IDX.off) = none) ∧
  (s.jrn.ring[bitsOf data 0 16]? = none) := by
  decide +kernel

theorem witness_EventsJournalSlicesAndChipReset_14 :
  let s : State := { up with jrn := { up.jrn with flush := some ⟨1, [⟨9, .pf, 0, ⟨4, 5, 6⟩, 0x4000, 1#32, 2#32, 3#32⟩, ⟨8, .pf, 0, ⟨4, 5, 6⟩, 0x4000, 1#32, 2#32, 3#32⟩], 2, ⟨3, 4, 5⟩⟩ } }
  let x : Flush := ⟨1, [⟨9, .pf, 0, ⟨4, 5, 6⟩, 0x4000, 1#32, 2#32, 3#32⟩, ⟨8, .pf, 0, ⟨4, 5, 6⟩, 0x4000, 1#32, 2#32, 3#32⟩], 2, ⟨3, 4, 5⟩⟩
  let y : FlushSlot := ⟨true, true, [⟨9, .pf, 0, ⟨4, 5, 6⟩, 0x4000, 1#32, 2#32, 3#32⟩, ⟨8, .pf, 0, ⟨4, 5, 6⟩, 0x4000, 1#32, 2#32, 3#32⟩], 8, 9, 2, ⟨3, 4, 5⟩⟩
  (s.jrn.flush = some x) ∧
  (y = ⟨true, true, x.recs, (x.recs.getLast?.map (·.cseq)).getD 0, (x.recs.head?.map (·.cseq)).getD 0, x.cause, x.stamp⟩) := by
  decide +kernel

theorem witness_EventsJournalSlicesAndChipReset_15 :
  let s : State := up
  (s.jrn.flush = none) := by
  decide +kernel

theorem witness_EventsJournalSlicesAndChipReset_16 :
  let s : State := up
  let o : Origin := .pf
  let data : Word := 4#32
  (addrReject s o (pgSLC + SLC_SLICE_EN.off) = none) ∧
  ((List.range 32).all (fun v => v == 0 || !bitAt (reg s (pgSLC + SLC_SLICE_EN.off)).toNat v || bitAt data.toNat v || !ownsAny s v) = true) := by
  decide +kernel

theorem witness_EventsJournalSlicesAndChipReset_17 :
  let s : State := { setFld up pgSLC SLC_SLICE_EN 5 with own := { up.own with queue := [(9, 2)] } }
  let o : Origin := .pf
  let data : Word := 1#32
  let v : Fin 32 := 2
  (addrReject s o (pgSLC + SLC_SLICE_EN.off) = none) ∧
  (v.val ≠ 0) ∧
  (bitAt (reg s (pgSLC + SLC_SLICE_EN.off)).toNat v = true) ∧
  (bitAt data.toNat v = false) ∧
  (ownsAny s v = true) := by
  decide +kernel

theorem witness_EventsJournalSlicesAndChipReset_18 :
  let s : State := { setFld (setFld (setFld (setFld up pgSLC SLC_SLICE_EN 13) pgSLC SLC_RES_KIND 2) pgSLC SLC_RES_IDX 9) pgSLC SLC_OWNER 0 with own := { up.own with queue := [(9, 2)] } }
  let o : Origin := .pf
  let k : Nat := 2
  let i : Nat := 9
  let v : Nat := 0
  (addrReject s o (pgSLC + SLC_CMD.off) = none) ∧
  (k = fld s pgSLC SLC_RES_KIND) ∧
  (i = fld s pgSLC SLC_RES_IDX) ∧
  (v = fld s pgSLC SLC_OWNER) ∧
  (i < resCount k) := by
  decide +kernel

theorem witness_EventsJournalSlicesAndChipReset_19 :
  let s : State := setFld (setFld (setFld (setFld up pgSLC SLC_SLICE_EN 13) pgSLC SLC_RES_KIND 2) pgSLC SLC_RES_IDX 8191) pgSLC SLC_OWNER 2
  let o : Origin := .pf
  let k : Nat := 2
  let i : Nat := 8191
  let v : Nat := 2
  (addrReject s o (pgSLC + SLC_CMD.off) = none) ∧
  (k = fld s pgSLC SLC_RES_KIND) ∧
  (i = fld s pgSLC SLC_RES_IDX) ∧
  (v = fld s pgSLC SLC_OWNER) ∧
  (assignRefused s k i v = false) ∧
  (k ≠ 0) := by
  decide +kernel

theorem witness_EventsJournalSlicesAndChipReset_20 :
  let s : State := setFld (setFld (setFld (setFld up pgSLC SLC_SLICE_EN 13) pgSLC SLC_RES_KIND 0) pgSLC SLC_RES_IDX 31) pgSLC SLC_OWNER 2
  let o : Origin := .pf
  let k : Nat := 0
  let i : Nat := 31
  let v : Nat := 2
  (addrReject s o (pgSLC + SLC_CMD.off) = none) ∧
  (k = fld s pgSLC SLC_RES_KIND) ∧
  (i = fld s pgSLC SLC_RES_IDX) ∧
  (v = fld s pgSLC SLC_OWNER) ∧
  (assignRefused s k i v = false) ∧
  (k = 0) := by
  decide +kernel

theorem witness_EventsJournalSlicesAndChipReset_21 :
  let s : State := setFld (setFld (setFld (setFld up pgSLC SLC_SLICE_EN 13) pgSLC SLC_RES_KIND 0) pgSLC SLC_RES_IDX 31) pgSLC SLC_OWNER 1
  let o : Origin := .pf
  let k : Nat := 0
  let i : Nat := 31
  let v : Nat := 1
  (addrReject s o (pgSLC + SLC_CMD.off) = none) ∧
  (k = fld s pgSLC SLC_RES_KIND) ∧
  (i = fld s pgSLC SLC_RES_IDX) ∧
  (v = fld s pgSLC SLC_OWNER) ∧
  (assignRefused s k i v = true) := by
  decide +kernel

theorem witness_EventsJournalSlicesAndChipReset_22 :
  let s : State := setFld (setFld (setFld (setFld up pgSLC SLC_SLICE_EN 13) pgSLC SLC_RES_KIND 0) pgSLC SLC_RES_IDX 32) pgSLC SLC_OWNER 0
  let o : Origin := .pf
  (addrReject s o (pgSLC + SLC_CMD.off) = none) ∧
  (resCount (fld s pgSLC SLC_RES_KIND) ≤ fld s pgSLC SLC_RES_IDX) := by
  decide +kernel

theorem witness_EventsJournalSlicesAndChipReset_23 :
  let s : State := up
  let o : Origin := .pf
  let data : Word := 0x0000C41F#32
  (addrReject s o (pgDEV + DEV_RESET_KEY.off) = none) := by
  decide +kernel

theorem witness_EventsJournalSlicesAndChipReset_24 :
  let s : State := up
  let o : Origin := .pf
  let data : Word := 1#32
  (addrReject s o (pgDEV + DEV_RESET_CMD.off) = none) ∧
  (data.getLsbD 0 = true) ∧
  (armedBy s o (pgDEV + DEV_RESET_KEY.off) = false) := by
  decide +kernel

theorem witness_EventsJournalSlicesAndChipReset_25 :
  let s : State := { up with bus := { up.bus with armed := [(.pf, pgDEV + DEV_RESET_KEY.off)] } }
  let o : Origin := .pf
  let data : Word := 1#32
  (addrReject s o (pgDEV + DEV_RESET_CMD.off) = none) ∧
  (data.getLsbD 0 = true) ∧
  (armedBy s o (pgDEV + DEV_RESET_KEY.off) = true) := by
  decide +kernel

theorem witness_FromPowerGoodToRelease_3 :
  let s : State := (let a := State.reset; { a with boot := { a.boot with powered := true } })
  (s.boot.powered = true) ∧
  (s.boot.straps.testEn = false) ∧
  (fld s pgDEV DEV_CHIP_STATE = 0) := by
  decide +kernel

theorem witness_FromPowerGoodToRelease_4 :
  let s : State := (let a := State.reset; { a with boot := { a.boot with powered := true } })
  (s.boot.powered = true) ∧
  (s.boot.straps.testEn = false) ∧
  (fld s pgDEV DEV_CHIP_STATE = 0) ∧
  (bitAt (react s 55) 3 = false) := by
  decide +kernel

theorem witness_FromPowerGoodToRelease_5 :
  let s : State := (let a := setFld State.reset pgDEV DEV_CHIP_STATE 1; { a with boot := { a.boot with powered := true, straps := ⟨1, true, 0, false⟩ } })
  (s.boot.powered = true) ∧
  (fld s pgDEV DEV_CHIP_STATE = 1) := by
  decide +kernel

theorem witness_FromPowerGoodToRelease_6 :
  let s : State := (let a := State.reset; { a with boot := { a.boot with powered := true } })
  let k : Fin 4 := 3
  (s.boot.powered = true) ∧
  (released s = false) ∧
  (s.boot.image = none) := by
  decide +kernel

theorem witness_FromPowerGoodToRelease_7 :
  let s : State := setFld ((let a := setFld (setFld (setFld (State.reset) pgDEV DEV_CHIP_STATE 2) pgBOOT BOOT_STAGE 4) pgBOOT BOOT_SRC_USED 0; { a with boot := { a.boot with powered := true, image := some ⟨true, false, 0x52534F46, 1, 0x5032, 1024, [⟨4, 272, 16, .note⟩], false, 7#32, 8#32, 9#384, true⟩ } })) pgHBM HBM_STACK_OK 7
  let k : Fin 4 := 3
  let x : Image := ⟨true, false, 0x52534F46, 1, 0x5032, 1024, [⟨4, 272, 16, .note⟩], false, 7#32, 8#32, 9#384, true⟩
  (imageStage s = true) ∧
  (s.boot.image = some x) ∧
  (s.boot.applied = false) ∧
  (fld s pgBOOT BOOT_STAGE = stApply) ∧
  (fld s pgHBM HBM_STACK_OK ||| 2 ^ k.val = 15) ∧
  (∀ e ∈ x.sections, e.body = .note) := by
  decide +kernel

theorem witness_FromPowerGoodToRelease_8 :
  let s : State := (let a := setFld (setFld (setFld (State.reset) pgDEV DEV_CHIP_STATE 2) pgBOOT BOOT_STAGE 2) pgBOOT BOOT_SRC_USED 0; { a with boot := { a.boot with powered := true } })
  let x : Image := ⟨true, false, 0x52534F45, 1, 0x5032, 1024, [⟨4, 272, 16, .note⟩], false, 7#32, 8#32, 9#384, true⟩
  let c : Nat := 1
  (readsImage s = true) ∧
  ((x.response = false ∧ c = 1) ∨ (x.response = true ∧ x.readError = true ∧ c = 7) ∨ (x.response = true ∧ x.readError = false ∧ x.magic ≠ imageMagic ∧ c = 1) ∨ (x.response = true ∧ x.readError = false ∧ x.magic = imageMagic ∧ (x.format ≠ 1 ∨ x.device ≠ 0x5032) ∧ c = 2) ∨ (x.response = true ∧ x.readError = false ∧ x.magic = imageMagic ∧ x.format = 1 ∧ x.device = 0x5032 ∧ shapeOk x = false ∧ c = 3)) ∧
  (fld s pgBOOT BOOT_SRC_USED = 0) ∧
  (s.boot.slot = 0) := by
  decide +kernel

theorem witness_FromPowerGoodToRelease_9 :
  let s : State := setFld ((let a := setFld (setFld (setFld (State.reset) pgDEV DEV_CHIP_STATE 2) pgBOOT BOOT_STAGE 6) pgBOOT BOOT_SRC_USED 1; { a with boot := { a.boot with powered := true } })) pgBOOT BOOT_BUSY 1
  let x : Image := ⟨true, false, 0x52534F45, 1, 0x5032, 1024, [⟨4, 272, 16, .note⟩], false, 7#32, 8#32, 9#384, true⟩
  let c : Nat := 1
  (readsImage s = true) ∧
  ((x.response = false ∧ c = 1) ∨ (x.response = true ∧ x.readError = true ∧ c = 7) ∨ (x.response = true ∧ x.readError = false ∧ x.magic ≠ imageMagic ∧ c = 1) ∨ (x.response = true ∧ x.readError = false ∧ x.magic = imageMagic ∧ (x.format ≠ 1 ∨ x.device ≠ 0x5032) ∧ c = 2) ∨ (x.response = true ∧ x.readError = false ∧ x.magic = imageMagic ∧ x.format = 1 ∧ x.device = 0x5032 ∧ shapeOk x = false ∧ c = 3)) ∧
  (fld s pgBOOT BOOT_SRC_USED = 1 ∨ (fld s pgBOOT BOOT_SRC_USED = 0 ∧ s.boot.slot ≠ 0) ∨ (fld s pgBOOT BOOT_SRC_USED = 2 ∧ 2 ≤ s.boot.link)) := by
  decide +kernel

theorem witness_FromPowerGoodToRelease_10 :
  let s : State := (let a := setFld (setFld (setFld (State.reset) pgDEV DEV_CHIP_STATE 2) pgBOOT BOOT_STAGE 2) pgBOOT BOOT_SRC_USED 0; { a with boot := { a.boot with powered := true } })
  let x : Image := ⟨true, false, 0x52534F46, 1, 0x5032, 1024, [⟨4, 272, 16, .note⟩], false, 7#32, 8#32, 9#384, true⟩
  (readsImage s = true) ∧
  (x.response = true) ∧
  (x.readError = false) ∧
  (x.magic = imageMagic) ∧
  (x.format = 1) ∧
  (x.device = 0x5032) ∧
  (shapeOk x = true) ∧
  (stacksUp s = false) := by
  decide +kernel

theorem witness_FromPowerGoodToRelease_11 :
  let s : State := (let a := setFld (setFld (setFld (State.reset) pgDEV DEV_CHIP_STATE 2) pgBOOT BOOT_STAGE 2) pgBOOT BOOT_SRC_USED 2; { a with boot := { a.boot with powered := true, link := 1 } })
  (imageStage s = true) ∧
  (fld s pgBOOT BOOT_SRC_USED = srcMesh) ∧
  (fld s pgBOOT BOOT_STAGE = stRead) ∧
  (s.boot.link < 2) := by
  decide +kernel

theorem witness_FromPowerGoodToRelease_12 :
  let s : State := (let a := setFld (setFld (setFld (State.reset) pgDEV DEV_CHIP_STATE 2) pgBOOT BOOT_STAGE 2) pgBOOT BOOT_SRC_USED 2; { a with boot := { a.boot with powered := true, link := 2 } })
  (imageStage s = true) ∧
  (fld s pgBOOT BOOT_SRC_USED = srcMesh) ∧
  (fld s pgBOOT BOOT_STAGE = stRead) ∧
  (2 ≤ s.boot.link) := by
  decide +kernel

theorem witness_FromPowerGoodToRelease_13 :
  let s : State := setFld ((let a := setFld (setFld (setFld (State.reset) pgDEV DEV_CHIP_STATE 2) pgBOOT BOOT_STAGE 4) pgBOOT BOOT_SRC_USED 0; { a with boot := { a.boot with powered := true, fuseOk := true, applied := true, image := some ⟨true, false, 0x52534F46, 1, 0x5032, 1024, [⟨4, 272, 16, .note⟩], false, 7#32, 8#32, 9#384, true⟩ } })) pgHBM HBM_STACK_OK 15
  (mayRelease s = true) ∧
  (s.boot.applied = true) := by
  decide +kernel

theorem witness_FromPowerGoodToRelease_14 :
  let s : State := setFld ((let a := setFld (setFld (setFld (State.reset) pgDEV DEV_CHIP_STATE 2) pgBOOT BOOT_STAGE 2) pgBOOT BOOT_SRC_USED 3; { a with boot := { a.boot with powered := true, fuseOk := true, straps := ⟨1, false, 3, false⟩ } })) pgHBM HBM_STACK_OK 15
  let o : Origin := .jtag
  (addrReject s o (bootGo) = none) ∧
  (s.boot.straps.bootSrc = 3) ∧
  (mayRelease s = true) := by
  decide +kernel

theorem witness_FromPowerGoodToRelease_15 :
  let s : State := up
  let o : Origin := .pf
  (addrReject s o (bootGo) = none) ∧
  (s.boot.straps.bootSrc ≠ 3 ∨ mayRelease s = false) := by
  decide +kernel

theorem witness_FromPowerGoodToRelease_16 :
  let s : State := (let a := setFld (setFld (setFld (State.reset) pgDEV DEV_CHIP_STATE 2) pgBOOT BOOT_STAGE 6) pgBOOT BOOT_SRC_USED 1; { a with boot := { a.boot with powered := true } })
  let o : Origin := .pf
  (addrReject s o (bootGo) = none) ∧
  (imageStage s = true) ∧
  (fld s pgBOOT BOOT_STAGE = stHost) ∧
  (isSet s pgBOOT BOOT_BUSY = false) := by
  decide +kernel

theorem witness_FromPowerGoodToRelease_17 :
  let s : State := setFld ((let a := setFld (setFld (setFld (State.reset) pgDEV DEV_CHIP_STATE 2) pgBOOT BOOT_STAGE 6) pgBOOT BOOT_SRC_USED 1; { a with boot := { a.boot with powered := true } })) pgBOOT BOOT_BUSY 1
  let o : Origin := .pf
  let c : Nat := 4
  (addrReject s o (bootGo) = none) ∧
  ((isSet s pgBOOT BOOT_BUSY = true ∧ c = 4) ∨ (isSet s pgBOOT BOOT_BUSY = false ∧ (imageStage s = false ∨ fld s pgBOOT BOOT_STAGE ≠ stHost) ∧ c = 8)) := by
  decide +kernel

theorem witness_FromPowerGoodToRelease_18 :
  let s : State := (let a := setFld (setFld (setFld up (pgMSH 1) MSH_LINK_EN 1) (pgMSH 1) MSH_STATE 3) pgBOOT BOOT_SERVE_EN 1; { a with boot := { a.boot with image := some ⟨true, false, 0x52534F46, 1, 0x5032, 1024, [⟨4, 272, 16, .note⟩], false, 7#32, 8#32, 9#384, true⟩ } })
  let m : Fin 3 := 1
  let x : Image := ⟨true, false, 0x52534F46, 1, 0x5032, 1024, [⟨4, 272, 16, .note⟩], false, 7#32, 8#32, 9#384, true⟩
  (s.boot.image = some x) ∧
  (released s = true) ∧
  (isSet s pgBOOT BOOT_SERVE_EN = true) ∧
  (hexUp s m = true) := by
  decide +kernel

theorem witness_FromPowerGoodToRelease_19 :
  let s : State := up
  let m : Fin 3 := 1
  (s.boot.image = none ∨ released s = false ∨ isSet s pgBOOT BOOT_SERVE_EN = false ∨ hexUp s m = false) := by
  decide +kernel

theorem witness_FromPowerGoodToRelease_20 :
  let s : State := up
  let o : Origin := .pf
  let data : Word := 0x00007E11#32
  (addrReject s o (pgFUSE + FUSE_REVOKE_KEY.off) = none) := by
  decide +kernel

theorem witness_FromPowerGoodToRelease_21 :
  let s : State := { up with bus := { up.bus with armed := [(.pf, pgFUSE + FUSE_REVOKE_KEY.off)] } }
  let o : Origin := .pf
  let data : Word := 3#32
  (addrReject s o (pgFUSE + FUSE_REVOKE_CMD.off) = none) ∧
  (data.getLsbD 0 = true) ∧
  (armedBy s o (pgFUSE + FUSE_REVOKE_KEY.off) = true) := by
  decide +kernel

theorem witness_FromPowerGoodToRelease_22 :
  let s : State := up
  let o : Origin := .pf
  let data : Word := 3#32
  (addrReject s o (pgFUSE + FUSE_REVOKE_CMD.off) = none) ∧
  (data.getLsbD 0 = true) ∧
  (armedBy s o (pgFUSE + FUSE_REVOKE_KEY.off) = false) := by
  decide +kernel

theorem witness_FromPowerGoodToRelease_23 :
  let s : State := up
  let i : Instr := .release
  let b : Bool := true
  let k : Fin 4 := 0
  let x : Image := ⟨true, false, 0x52534F46, 1, 0x5032, 1024, [⟨4, 272, 16, .note⟩], false, 7#32, 8#32, 9#384, true⟩
  ((i = .fuseLoadDone b ∧ (s.boot.powered = false ∨ s.boot.straps.testEn = true ∨ fld s pgDEV DEV_CHIP_STATE ≠ 0)) ∨ (i = .calibrationDone ∧ (s.boot.powered = false ∨ fld s pgDEV DEV_CHIP_STATE ≠ 1)) ∨ (i = .hbmTrained k ∧ (s.boot.powered = false ∨ released s = true)) ∨ (i = .imageCheck x ∧ readsImage s = false) ∨ (i = .imageSourceTimeout ∧ imageStage s = false) ∨ (i = .release ∧ mayRelease s = false)) := by
  first | decide +kernel | rfl | simp [arbMax]

theorem witness_CalibrationStoreAndPowerWarning_1 :
  let s : State := up
  let o : Origin := .pf
  (addrReject s o (pgCAL + CAL_UNLOCK.off) = none) := by
  decide +kernel

theorem witness_CalibrationStoreAndPowerWarning_2 :
  let s : State := { up with bus := { up.bus with armed := [(.pf, pgCAL + CAL_UNLOCK.off)] } }
  let o : Origin := .pf
  (addrReject s o (pgCAL + CAL_UNLOCK.off) = none) ∧
  (armedBy s o (pgCAL + CAL_UNLOCK.off) = true) ∧
  (isSet s pgCAL ANY_LOCK = false) := by
  decide +kernel

theorem witness_CalibrationStoreAndPowerWarning_3 :
  let s : State := setFld (setFld (setFld (setFld (setFld up pgCAL CAL_KIND 0) pgCAL CAL_INDEX 0) pgCAL CAL_DATA0 0) pgCAL CAL_DATA1 0) pgCAL CAL_UNLOCKED 1
  let o : Origin := .pf
  let data : Word := unlockSecond
  (addrReject s o (pgCAL + CAL_UNLOCK.off) = none) ∧
  (data ≠ unlockFirst) ∧
  (data ≠ unlockSecond ∨ armedBy s o (pgCAL + CAL_UNLOCK.off) = false ∨ isSet s pgCAL ANY_LOCK = true) := by
  decide +kernel

theorem witness_CalibrationStoreAndPowerWarning_4 :
  let s : State := at_ (let a := setFld (setFld (setFld (setFld (setFld up pgCAL CAL_KIND 0) pgCAL CAL_INDEX 0) pgCAL CAL_DATA0 0) pgCAL CAL_DATA1 0) pgCAL CAL_UNLOCKED 1; { a with boot := { a.boot with storeAt := some 5 } }) 65541 0 0
  let f : Nat := 5
  (s.boot.storeAt = some f) ∧
  (f + 65536 ≤ frame s) := by
  decide +kernel

theorem witness_CalibrationStoreAndPowerWarning_5 :
  let s : State := up
  (s.boot.storeAt = none) := by
  decide +kernel

theorem witness_CalibrationStoreAndPowerWarning_6 :
  let s : State := (let a := setFld (setFld (setFld (setFld (setFld up pgCAL CAL_KIND 3) pgCAL CAL_INDEX 4) pgCAL CAL_DATA0 0) pgCAL CAL_DATA1 0) pgCAL CAL_UNLOCKED 1; { a with boot := { a.boot with cal := [(3076, some ⟨77, 88, false⟩)] } })
  let o : Origin := .pf
  let k : Nat := 3
  let i : Nat := 4
  let x : CalItem := ⟨77, 88, false⟩
  (addrReject s o (pgCAL + CAL_CMD.off) = none) ∧
  (k = fld s pgCAL CAL_KIND) ∧
  (i = fld s pgCAL CAL_INDEX) ∧
  (i < calCount k) ∧
  (tget dnone s.boot.cal (1024 * k + i) = some x) := by
  decide +kernel

theorem witness_CalibrationStoreAndPowerWarning_7 :
  let s : State := setFld (setFld (setFld (setFld (setFld up pgCAL CAL_KIND 0) pgCAL CAL_INDEX 267) pgCAL CAL_DATA0 5285) pgCAL CAL_DATA1 0) pgCAL CAL_UNLOCKED 1
  let o : Origin := .pf
  let k : Nat := 0
  let i : Nat := 267
  let d0 : Nat := 5 + 32 * 5 + 1024 * 5
  let d1 : Nat := 0
  (addrReject s o (pgCAL + CAL_CMD.off) = none) ∧
  (k = fld s pgCAL CAL_KIND) ∧
  (i = fld s pgCAL CAL_INDEX) ∧
  (i < calCount k) ∧
  (isSet s pgCAL CAL_UNLOCKED = true) ∧
  (s.boot.warnPin = false) ∧
  (zdHeld s k i = false) ∧
  (d0 = fld s pgCAL CAL_DATA0) ∧
  (d1 = fld s pgCAL CAL_DATA1) ∧
  (k ≠ 0 ∨ peakOk d0 = true) := by
  decide +kernel

theorem witness_CalibrationStoreAndPowerWarning_8 :
  let s : State := setFld (setFld (setFld (setFld (setFld up pgCAL CAL_KIND 0) pgCAL CAL_INDEX 267) pgCAL CAL_DATA0 6341) pgCAL CAL_DATA1 0) pgCAL CAL_UNLOCKED 1
  let o : Origin := .pf
  let k : Nat := 0
  let i : Nat := 267
  let c : Nat := 1
  (addrReject s o (pgCAL + CAL_CMD.off) = none) ∧
  (k = fld s pgCAL CAL_KIND) ∧
  (i = fld s pgCAL CAL_INDEX) ∧
  (i < calCount k) ∧
  ((isSet s pgCAL CAL_UNLOCKED = false ∧ c = 8) ∨ (isSet s pgCAL CAL_UNLOCKED = true ∧ s.boot.warnPin = true ∧ c = 8) ∨ (isSet s pgCAL CAL_UNLOCKED = true ∧ s.boot.warnPin = false ∧ zdHeld s k i = true ∧ c = 1) ∨ (isSet s pgCAL CAL_UNLOCKED = true ∧ s.boot.warnPin = false ∧ k = 0 ∧ peakOk (fld s pgCAL CAL_DATA0) = false ∧ c = 1)) := by
  decide +kernel

theorem witness_CalibrationStoreAndPowerWarning_9 :
  let s : State := (let a := setFld (setFld (setFld (setFld (setFld up pgCAL CAL_KIND 3) pgCAL CAL_INDEX 4) pgCAL CAL_DATA0 0) pgCAL CAL_DATA1 0) pgCAL CAL_UNLOCKED 1; { a with boot := { a.boot with cal := [(3076, some ⟨77, 88, true⟩)] } })
  let o : Origin := .pf
  let k : Nat := 3
  let i : Nat := 4
  let x : CalItem := ⟨77, 88, true⟩
  (addrReject s o (pgCAL + CAL_CMD.off) = none) ∧
  (k = fld s pgCAL CAL_KIND) ∧
  (i = fld s pgCAL CAL_INDEX) ∧
  (i < calCount k) ∧
  (tget dnone s.boot.cal (1024 * k + i) = some x) ∧
  (zdHeld s k i = false) ∧
  (x.good = true) := by
  decide +kernel

theorem witness_CalibrationStoreAndPowerWarning_10 :
  let s : State := setFld (setFld (setFld (setFld (setFld up pgCAL CAL_KIND 5) pgCAL CAL_INDEX 3) pgCAL CAL_DATA0 0) pgCAL CAL_DATA1 0) pgCAL CAL_UNLOCKED 1
  let c : Instr := .calRead .pf
  let o : Origin := .pf
  (c = .calRead o ∨ c = .calStoreWrite o ∨ c = .calReload o) ∧
  (addrReject s o (pgCAL + CAL_CMD.off) = none) ∧
  (calCount (fld s pgCAL CAL_KIND) ≤ fld s pgCAL CAL_INDEX) := by
  exact ⟨.inl rfl, by decide +kernel, by decide +kernel⟩

theorem witness_CalibrationStoreAndPowerWarning_12 :
  let s : State := (let a := up; { a with boot := { a.boot with warnPin := true, warn := true } })
  (s.boot.warnPin = true) := by
  decide +kernel

theorem witness_CalibrationStoreAndPowerWarning_13 :
  let s : State := up
  (s.boot.warnPin = false) := by
  decide +kernel

theorem witness_CalibrationStoreAndPowerWarning_14 :
  let s : State := at_ (let a := up; { a with boot := { a.boot with warn := true, warnRose := some 0 } }) 8 0 0
  let o : Origin := .pf
  let w : Nat := 0
  (addrReject s o (bootGo) = none) ∧
  (s.boot.warn = true) ∧
  (s.boot.warnRose = some w) ∧
  (s.boot.warnPin = false) ∧
  (w + warnHold ≤ (now s).fineIndex) := by
  decide +kernel

theorem witness_CalibrationStoreAndPowerWarning_15 :
  let s : State := at_ (let a := up; { a with boot := { a.boot with warn := true, warnRose := some 1 } }) 7 0 0
  let o : Origin := .pf
  (addrReject s o (bootGo) = none) ∧
  (s.boot.warn = true) ∧
  (s.boot.warnPin = true ∨ s.boot.warnRose.all (fun w => (now s).fineIndex < w + warnHold) = true) := by
  decide +kernel

theorem witness_CalibrationStoreAndPowerWarning_16 :
  let s : State := (let a := setFld (setFld (setFld (State.reset) pgDEV DEV_CHIP_STATE 2) pgBOOT BOOT_STAGE 4) pgBOOT BOOT_SRC_USED 0; { a with boot := { a.boot with powered := true, warn := true, straps := ⟨1, true, 2, false⟩ } })
  (released s = false) ∧
  (fld s pgDEV DEV_CHIP_STATE = 2) ∧
  (s.boot.warn = true) ∧
  (s.boot.warnPin = false) := by
  decide +kernel

theorem witness_CalibrationStoreAndPowerWarning_17 :
  let s : State := up
  (released s = true ∨ s.boot.warn = false ∨ s.boot.warnPin = true) := by
  decide +kernel

theorem witness_BanksFaultsAndRegulation_1 :
  let s : State := setFld ((let a := up; { a with boot := { a.boot with bank := [(9, ⟨1, 0⟩)] } })) pgMEM MEM_BANK_IDX 9
  let o : Origin := .pf
  let b : Nat := 9
  (addrReject s o (pgMEM + MEM_BANK_CMD.off) = none) ∧
  (b = fld s pgMEM MEM_BANK_IDX) := by
  decide +kernel

theorem witness_BanksFaultsAndRegulation_2 :
  let s : State := setFld ((let a := up; { a with boot := { a.boot with bank := [(9, ⟨1, 0⟩)] } })) pgMEM MEM_BANK_IDX 9
  let o : Origin := .pf
  let b : Nat := 9
  (addrReject s o (pgMEM + MEM_BANK_CMD.off) = none) ∧
  (b = fld s pgMEM MEM_BANK_IDX) := by
  decide +kernel

theorem witness_BanksFaultsAndRegulation_3 :
  let s : State := setFld ((let a := up; { a with boot := { a.boot with bank := [(9, ⟨2, 0⟩)] } })) pgMEM MEM_BANK_IDX 9
  let o : Origin := .pf
  let b : Nat := 9
  (addrReject s o (pgMEM + MEM_BANK_CMD.off) = none) ∧
  (b = fld s pgMEM MEM_BANK_IDX) := by
  decide +kernel

theorem witness_BanksFaultsAndRegulation_4 :
  let s : State := setFld ((let a := up; { a with boot := { a.boot with bank := [(9, ⟨2, 0⟩)] } })) pgMEM MEM_BANK_IDX 9
  let o : Origin := .pf
  let b : Nat := 9
  (addrReject s o (pgMEM + MEM_BANK_CMD.off) = none) ∧
  (b = fld s pgMEM MEM_BANK_IDX) := by
  decide +kernel

theorem witness_BanksFaultsAndRegulation_5 :
  let s : State := setFld up pgFLT (FLT_REACT.at 51) 1
  let j : Fin 64 := 51
  (bitAt (react s j) 2 = false) ∧
  (bitAt (react s j) 3 = false) := by
  decide +kernel

theorem witness_BanksFaultsAndRegulation_6 :
  let s : State := setFld up pgFLT (FLT_REACT.at 3) 4
  let j : Fin 64 := 3
  (bitAt (react s j) 2 = true) ∧
  (bitAt (react s j) 3 = false) ∧
  (j.val < 16) := by
  decide +kernel

theorem witness_BanksFaultsAndRegulation_7 :
  let s : State := up
  let j : Fin 64 := 3
  let q : Party := .ctx ⟨3, 4, 1⟩
  (bitAt (react s j) 3 = false) ∧
  (s.tst.outside = []) ∧
  (s.tst.queue.length < 64) ∧
  (s.tst.queue.any (fun e => e.party == q) = false) := by
  decide +kernel

theorem witness_BanksFaultsAndRegulation_8 :
  let s : State := { up with tst := { up.tst with queue := [⟨1, .port 4, false⟩] } }
  let j : Fin 64 := 20
  let q : Party := .port 4
  (bitAt (react s j) 3 = false) ∧
  (s.tst.queue.any (fun e => e.party == q) = true) := by
  decide +kernel

theorem witness_BanksFaultsAndRegulation_9 :
  let s : State := (let a := ctxUp (Ctx.init 0) 0; { a with tst := { a.tst with queue := [⟨15, .engine 15 32, false⟩] } })
  let e : FaultReq := ⟨15, .engine 15 32, false⟩
  let l : List FaultReq := []
  (s.tst.queue = e :: l) ∧
  (s.tst.outside = []) ∧
  (bitAt (react s e.src) 2 = false) ∧
  (bitAt (react s e.src) 3 = false) := by
  decide +kernel

theorem witness_BanksFaultsAndRegulation_10 :
  let s : State := (let a := setFld up pgFLT (FLT_REACT.at 15) 4; { a with tst := { a.tst with queue := [⟨15, .engine 15 32, true⟩] } })
  let e : FaultReq := ⟨15, .engine 15 32, true⟩
  let l : List FaultReq := []
  (s.tst.queue = e :: l) ∧
  (s.tst.outside = []) ∧
  (bitAt (react s e.src) 2 = true) ∧
  (bitAt (react s e.src) 3 = false) ∧
  (e.merged = true) := by
  decide +kernel

theorem witness_BanksFaultsAndRegulation_11 :
  let s : State := (let a := setFld up pgFLT (FLT_REACT.at 15) 4; { a with tst := { a.tst with queue := [⟨15, .engine 15 32, false⟩] } })
  let e : FaultReq := ⟨15, .engine 15 32, false⟩
  let l : List FaultReq := []
  (s.tst.queue = e :: l) ∧
  (s.tst.outside = []) ∧
  (bitAt (react s e.src) 2 = true) ∧
  (bitAt (react s e.src) 3 = false) ∧
  (e.merged = false) ∧
  (e.src < 16) := by
  decide +kernel

theorem witness_BanksFaultsAndRegulation_12 :
  let s : State := up
  (s.tst.queue = []) := by
  decide +kernel

theorem witness_BanksFaultsAndRegulation_13 :
  let s : State := setFld (setFld up pgTST TST_MEM_EN 1) pgTST TST_SWEEP_POS 129
  let n : Nat := 129
  (released s = true) ∧
  (active s pgTST TST_MEM_EN = true) ∧
  (n = fld s pgTST TST_SWEEP_POS) ∧
  ((bankAt s (n / 128)).st = 2) := by
  decide +kernel

theorem witness_BanksFaultsAndRegulation_14 :
  let s : State := setFld (setFld up pgTST TST_MEM_EN 1) pgTST TST_SWEEP_POS 129
  let n : Nat := 129
  let row : Nat := 7
  (released s = true) ∧
  (active s pgTST TST_MEM_EN = true) ∧
  (n = fld s pgTST TST_SWEEP_POS) ∧
  ((bankAt s (n / 128)).st = 2) ∧
  (bitAt (react s 61) 3 = false) := by
  decide +kernel

theorem witness_BanksFaultsAndRegulation_15 :
  let s : State := setFld ((let a := setFld up pgTST TST_MEM_EN 1; { a with boot := { a.boot with bank := [(1, ⟨1, 0⟩)] } })) pgTST TST_SWEEP_POS 129
  let n : Nat := 129
  let bad : Option Nat := none
  (released s = true) ∧
  (active s pgTST TST_MEM_EN = true) ∧
  (n = fld s pgTST TST_SWEEP_POS) ∧
  ((bankAt s (n / 128)).st ≠ 2) := by
  decide +kernel

theorem witness_BanksFaultsAndRegulation_16 :
  let s : State := setFld up pgTST TST_MEM_EN 1
  (released s = true) ∧
  (active s pgTST TST_MEM_EN = true) := by
  decide +kernel

theorem witness_BanksFaultsAndRegulation_17 :
  let s : State := at_ (setFld up pgTST TST_MEM_EN 1) 691200000 0 0
  (active s pgTST TST_MEM_EN = true) ∧
  (s.tst.sweepLate = false) ∧
  (s.tst.sweepFrom + 24 * 3600 * 8000 ≤ frame s) := by
  decide +kernel

theorem witness_BanksFaultsAndRegulation_18 :
  let s : State := setFld (setFld up pgTST TST_ENG_EN 1) (pgENG 3) ENG_SPARE_FOR 63
  let k : Fin 16 := 3
  let e : Fin 33 := 0
  let pass : Bool := false
  (released s = true) ∧
  (active s pgTST TST_ENG_EN = true) ∧
  (checked s k = none) ∧
  (spareFree s k = true) ∧
  (tget dzero s.tst.engTurn k % 33 = e.val) := by
  decide +kernel

theorem witness_BanksFaultsAndRegulation_19 :
  let s : State := (let a := setCluster (setFld (setFld up pgTST TST_ENG_EN 1) (pgENG 3) ENG_SPARE_FOR 63) 3 { Cluster.init 3 with lenA := 6 }; { a with tst := { a.tst with engTurn := [(3, 32)] } })
  let k : Fin 16 := 3
  let b : Bool := false
  let pass : Bool := true
  (released s = true) ∧
  (active s pgTST TST_ENG_EN = true) ∧
  (checked s k = none) ∧
  (spareFree s k = true) ∧
  (tget dzero s.tst.engTurn k % 33 = 32) ∧
  (b = isSet s (pgUCS k) UCS_ACTIVE_BANK) ∧
  (entryVector s k b 6 < imageLen s k b) ∧
  ((ctx s ⟨k, 32, 0⟩).st = 0) := by
  decide +kernel

theorem witness_BanksFaultsAndRegulation_20 :
  let s : State := setFld up (pgENG 3) ENG_SPARE_FOR 5
  let k : Fin 16 := 3
  let pass : Bool := true
  (checked s k = none) ∧
  (spareFree s k = false) := by
  decide +kernel

theorem witness_BanksFaultsAndRegulation_21 :
  let s : State := (let a := setFld (setFld up pgTST TST_ENG_EN 1) (pgENG 3) ENG_SPARE_FOR 5; { a with tst := { a.tst with check := [(3, some 5)] } })
  let k : Fin 16 := 3
  let e : Fin 33 := 5
  (released s = true) ∧
  (active s pgTST TST_ENG_EN = true) ∧
  (checked s k = some e.val) ∧
  ((cluster s k).leaving ≠ some e.val) ∧
  ((ctxsOf k e).all (fun c => (ctx s c).st == 0) = true) := by
  decide +kernel

theorem witness_BanksFaultsAndRegulation_22 :
  let s : State := (let a := setFld (setFld up pgTST TST_ENG_EN 1) (pgENG 3) ENG_SPARE_FOR 5; { a with tst := { a.tst with check := [(3, some 5)] } })
  let k : Fin 16 := 3
  let e : Fin 33 := 5
  (released s = true) ∧
  (active s pgTST TST_ENG_EN = true) ∧
  (checked s k = some e.val) ∧
  ((cluster s k).leaving ≠ some e.val) ∧
  ((ctxsOf k e).all (fun c => (ctx s c).st == 0) = true) := by
  decide +kernel

theorem witness_BanksFaultsAndRegulation_23 :
  let s : State := setCluster (let a := setFld (setFld up pgTST TST_ENG_EN 1) (pgENG 3) ENG_SPARE_FOR 5; { a with tst := { a.tst with check := [(3, some 5)] } }) 3 { Cluster.init 3 with leaving := some 5 }
  let k : Fin 16 := 3
  let e : Fin 33 := 5
  let pass : Bool := false
  (checked s k = some e.val) ∧
  ((cluster s k).leaving = some e.val ∨ (ctxsOf k e).all (fun c => (ctx s c).st == 0) = false) := by
  decide +kernel

theorem witness_BanksFaultsAndRegulation_24 :
  let s : State := setFld (setFld (setFld up pgTST TST_EYE_EN 1) pgTST TST_EYE_MIN 20) (pgSDS 220) ⟨SDS_STATUS.off, 4, 1, 0⟩ 1
  let w : Fin 128 := 19
  let l : Nat := 220
  (released s = true) ∧
  (active s pgTST TST_EYE_EN = true) ∧
  ((lanesAfter (fld s pgTST TST_EYE_LANE)).find? (fun l => laneStatus s l lsUse) = some l) := by
  decide +kernel

theorem witness_BanksFaultsAndRegulation_25 :
  let s : State := State.reset
  let i : Instr := .testStealTimeout
  let bad : Option Nat := none
  let k : Fin 16 := 0
  let w : Fin 128 := 0
  let b : Bool := true
  (released s = false) ∧
  (i = .memRegionTest bad ∨ i = .testStealTimeout ∨ i = .engCheck k b ∨ i = .eyeScan w) := by
  exact ⟨by decide +kernel, .inr (.inl rfl)⟩

theorem witness_CountersTraceAndTheFrame_1 :
  let s : State := up
  let o : Origin := .pf
  (addrReject s o (pgPMC + PMC_GO_CMD.off) = none) := by
  decide +kernel

theorem witness_CountersTraceAndTheFrame_2 :
  let s : State := up
  let o : Origin := .pf
  (addrReject s o (pgPMC + PMC_GO_CMD.off) = none) := by
  decide +kernel

theorem witness_CountersTraceAndTheFrame_3 :
  let s : State := (let a := up; { a with tst := { a.tst with pmc := [(11, { Pmc.init 0 with event := 9, count := 77, value := 5, snap := false, en := true })] } })
  let o : Origin := .pf
  let k : Nat := 11
  (addrReject s o (pgPMC + PMC_GO_CMD.off) = none) ∧
  (k ∈ pmcKeys s) ∧
  ((pmc s k).level = false) := by
  decide +kernel

theorem witness_CountersTraceAndTheFrame_4 :
  let s : State := (let a := setFld (setFld up pgPMC PMC_GRP 1) pgPMC PMC_CTR 3; { a with tst := { a.tst with pmc := [(11, { Pmc.init 0 with event := 9, count := 77, value := 5, snap := true, en := true })] } })
  let o : Origin := .pf
  let k : Nat := 11
  let x : Pmc := pmc s 11
  (addrReject s o (pgPMC + PMC_CMD.off) = none) ∧
  (k = 8 * fld s pgPMC PMC_GRP + fld s pgPMC PMC_CTR) ∧
  (x = pmc s k) ∧
  (x.snap = true) := by
  decide +kernel

theorem witness_CountersTraceAndTheFrame_5 :
  let s : State := (let a := setFld (setFld up pgPMC PMC_GRP 1) pgPMC PMC_CTR 3; { a with tst := { a.tst with pmc := [(11, { Pmc.init 0 with event := 9, count := 77, value := 5, snap := false, en := true })] } })
  let o : Origin := .pf
  let k : Nat := 11
  let x : Pmc := pmc s 11
  (addrReject s o (pgPMC + PMC_CMD.off) = none) ∧
  (k = 8 * fld s pgPMC PMC_GRP + fld s pgPMC PMC_CTR) ∧
  (x = pmc s k) ∧
  (x.snap = false) ∧
  (x.level = false) := by
  decide +kernel

theorem witness_CountersTraceAndTheFrame_6 :
  let s : State := setFld (setFld (setFld (setFld (setFld (setFld up pgPMC PMC_GRP 1) pgPMC PMC_CTR 3) pgPMC PMC_EVENT 0x123) pgPMC PMC_EN 1) pgPMC PMC_CHAIN 1) pgPMC PMC_MODE 1
  let o : Origin := .pf
  let k : Nat := 11
  let x : Pmc := pmc s 11
  (addrReject s o (pgPMC + PMC_CMD.off) = none) ∧
  (k = 8 * fld s pgPMC PMC_GRP + fld s pgPMC PMC_CTR) ∧
  (x = pmc s k) ∧
  (isSet s pgPMC PMC_MODE = false ∨ 32 ≤ fld s pgPMC PMC_EVENT % 64) ∧
  (isSet s pgPMC PMC_CHAIN = false ∨ k % 8 ≠ 0) := by
  decide +kernel

theorem witness_CountersTraceAndTheFrame_7 :
  let s : State := setFld (setFld up pgPMC PMC_GRP 1) pgPMC PMC_CHAIN 1
  let o : Origin := .pf
  let k : Nat := 8
  let x : Pmc := pmc s 8
  (addrReject s o (pgPMC + PMC_CMD.off) = none) ∧
  (k = 8 * fld s pgPMC PMC_GRP + fld s pgPMC PMC_CTR) ∧
  (x = pmc s k) ∧
  ((isSet s pgPMC PMC_MODE = true ∧ fld s pgPMC PMC_EVENT % 64 < 32) ∨ (isSet s pgPMC PMC_CHAIN = true ∧ k % 8 = 0)) := by
  decide +kernel

theorem witness_CountersTraceAndTheFrame_8 :
  let s : State := (let a := setFld (setFld up pgPMC PMC_GRP 1) pgPMC PMC_CTR 3; { a with tst := { a.tst with pmc := [(11, { Pmc.init 0 with event := 9, count := 77, value := 5, snap := false, en := true })] } })
  let o : Origin := .pf
  let g : Nat := 1
  let k : Nat := 11
  (addrReject s o (pgPMC + PMC_CMD.off) = none) ∧
  (g = fld s pgPMC PMC_GRP) ∧
  (k / 8 = g) ∧
  (s.tst.running = false) := by
  decide +kernel

theorem witness_CountersTraceAndTheFrame_9 :
  let s : State := (let a := setFld (setFld up pgPMC PMC_GRP 1) pgPMC PMC_CTR 3; { a with tst := { a.tst with pmc := [(11, { Pmc.init 0 with event := 9, count := 77, value := 5, snap := false, en := true })] } })
  let o : Origin := .pf
  let g : Nat := 1
  let k : Nat := 11
  (addrReject s o (pgPMC + PMC_CMD.off) = none) ∧
  (g = fld s pgPMC PMC_GRP) ∧
  (k / 8 = g) ∧
  ((pmc s k).level = false) := by
  decide +kernel

theorem witness_CountersTraceAndTheFrame_10 :
  let s : State := { up with tst := { up.tst with trace := [⟨0x10030, 3, 1, 2, ⟨4, 5, 6⟩, 7, 8, 9, 64, 10⟩, ⟨0x10030, 3, 1, 1, ⟨4, 5, 6⟩, 7, 8, 9, 64, 10⟩] } }
  let o : Origin := .pf
  let data : Word := 1#32
  let r : TraceRec := ⟨0x10030, 3, 1, 1, ⟨4, 5, 6⟩, 7, 8, 9, 64, 10⟩
  (addrReject s o (pgPMC + PMC_TR_IDX.off) = none) ∧
  (s.tst.trace[bitsOf data 0 13]? = some r) := by
  decide +kernel

theorem witness_CountersTraceAndTheFrame_11 :
  let s : State := up
  let o : Origin := .pf
  let data : Word := 1#32
  (addrReject s o (pgPMC + PMC_TR_IDX.off) = none) ∧
  (s.tst.trace[bitsOf data 0 13]? = none) := by
  decide +kernel

theorem witness_CountersTraceAndTheFrame_12 :
  let s : State := { setFld (setFld (setFld up pgPMC PMC_TR_STREAM_EN 1) pgPMC PMC_TR_SIZE_LOG2 4) pgPMC PMC_TR_HEAD 3 with tst := { up.tst with trace := [⟨0x10030, 3, 1, 3, ⟨4, 5, 6⟩, 7, 8, 9, 64, 10⟩, ⟨0x10030, 3, 1, 2, ⟨4, 5, 6⟩, 7, 8, 9, 64, 10⟩, ⟨0x10030, 3, 1, 1, ⟨4, 5, 6⟩, 7, 8, 9, 64, 10⟩], unsent := 2, tail := 7 } }
  let l : List TraceRec := [⟨0x10030, 3, 1, 2, ⟨4, 5, 6⟩, 7, 8, 9, 64, 10⟩, ⟨0x10030, 3, 1, 3, ⟨4, 5, 6⟩, 7, 8, 9, 64, 10⟩]
  let z : Nat := 16
  (released s = true) ∧
  (active s pgPMC PMC_TR_STREAM_EN = true) ∧
  (z = 2 ^ fld s pgPMC PMC_TR_SIZE_LOG2) ∧
  (l = ((s.tst.trace.take s.tst.unsent).reverse).take ((fld s pgPMC PMC_TR_HEAD + z - s.tst.tail % z - 1) % z)) ∧
  (l ≠ []) := by
  decide +kernel

theorem witness_CountersTraceAndTheFrame_13 :
  let s : State := { up with grid := { up.grid with posted := [⟨.mapOut 1 2, 9, ⟨1, 0, 0⟩⟩, ⟨.other 3, 9, ⟨0, 0, 0⟩⟩] } }
  let i : Nat := 1
  let p : Nat := 3
  let c : Nat := 2
  let a : Action := ⟨.other 3, 9, ⟨0, 0, 0⟩⟩
  let u : State := { up with grid := { up.grid with posted := [⟨.mapOut 1 2, 9, ⟨1, 0, 0⟩⟩] } }
  (s.grid.posted[i]? = some a) ∧
  (u = { s with grid := { s.grid with posted := s.grid.posted.eraseIdx i } }) ∧
  (a.pos.fineIndex ≤ (now s).fineIndex) ∧
  (a.kind = .other p ∨ a.kind = .mapOut p c ∨ a.kind = .tod p) := by
  decide +kernel

theorem witness_CountersTraceAndTheFrame_14 :
  let s : State := { up with grid := { up.grid with posted := [⟨.mapOut 1 2, 9, ⟨1, 0, 0⟩⟩, ⟨.brst 3 2, 9, ⟨0, 0, 0⟩⟩] } }
  let i : Nat := 1
  let p : Nat := 3
  let c : Nat := 2
  let a : Action := ⟨.brst 3 2, 9, ⟨0, 0, 0⟩⟩
  let u : State := { up with grid := { up.grid with posted := [⟨.mapOut 1 2, 9, ⟨1, 0, 0⟩⟩] } }
  (s.grid.posted[i]? = some a) ∧
  (u = { s with grid := { s.grid with posted := s.grid.posted.eraseIdx i } }) ∧
  (a.pos.fineIndex ≤ (now s).fineIndex) ∧
  (a.kind = .brst p c) := by
  decide +kernel

theorem witness_CountersTraceAndTheFrame_15 :
  let s : State := { up with grid := { up.grid with posted := [⟨.mapOut 1 2, 9, ⟨1, 0, 0⟩⟩, ⟨.preload 3 2, 9, ⟨0, 0, 0⟩⟩] } }
  let i : Nat := 1
  let p : Nat := 3
  let c : Nat := 2
  let a : Action := ⟨.preload 3 2, 9, ⟨0, 0, 0⟩⟩
  let u : State := { up with grid := { up.grid with posted := [⟨.mapOut 1 2, 9, ⟨1, 0, 0⟩⟩] } }
  (s.grid.posted[i]? = some a) ∧
  (u = { s with grid := { s.grid with posted := s.grid.posted.eraseIdx i } }) ∧
  (a.pos.fineIndex ≤ (now s).fineIndex) ∧
  (a.kind = .preload p c) := by
  decide +kernel

theorem witness_CountersTraceAndTheFrame_16 :
  let s : State := { up with grid := { up.grid with posted := [⟨.mapOut 1 2, 9, ⟨0, 0, 0⟩⟩, ⟨.rssi 3 2, 9, ⟨0, 0, 0⟩⟩] } }
  let i : Nat := 1
  let p : Nat := 3
  let c : Nat := 2
  let a : Action := ⟨.rssi 3 2, 9, ⟨0, 0, 0⟩⟩
  let u : State := { up with grid := { up.grid with posted := [⟨.mapOut 1 2, 9, ⟨0, 0, 0⟩⟩] } }
  (s.grid.posted[i]? = some a) ∧
  (u = { s with grid := { s.grid with posted := s.grid.posted.eraseIdx i } }) ∧
  (a.pos.fineIndex ≤ (now s).fineIndex) ∧
  (a.kind = .rssi p c) := by
  decide +kernel

theorem witness_CountersTraceAndTheFrame_17 :
  let s : State := { up with grid := { up.grid with posted := [⟨.mapOut 1 2, 9, ⟨0, 0, 0⟩⟩, ⟨.rssi 3 2, 9, ⟨0, 0, 9⟩⟩] } }
  let i : Nat := 1
  let a : Action := ⟨.rssi 3 2, 9, ⟨0, 0, 9⟩⟩
  (s.grid.posted[i]? = some a) ∧
  ((now s).fineIndex < a.pos.fineIndex) := by
  decide +kernel

theorem witness_CountersTraceAndTheFrame_18 :
  let s : State := up
  let i : Nat := 3
  (s.grid.posted[i]? = none) := by
  decide +kernel

theorem witness_CountersTraceAndTheFrame_19 :
  let s : State := (let a := at_ up 9 5 6; { a with tst := { a.tst with go := some true } })
  let pulls : List Pull := []
  (s.grid.running = true) ∧
  (released s = false ∨ s.pon.ch.all (fun e => e.2.upq == []) = true) := by
  decide +kernel

theorem witness_CountersTraceAndTheFrame_20 :
  let s : State := at_ (setFld up (pgPON 2) PON_CH_EN 1) 9 5 6
  let pulls : List Pull := []
  let p : Fin 32 := 2
  let c : Fin 3 := 1
  (s.grid.running = true) ∧
  (released s = true) ∧
  (s.pon.ch.all (fun e => e.2.upq == []) = true) ∧
  (fld s (pgPON p) PON_CH_EN ≠ 0) := by
  decide +kernel

theorem witness_CountersTraceAndTheFrame_21 :
  let s : State := at_ up 16000 0 0
  let k : Nat := 2
  (s.grid.running = true) ∧
  (frame s % Machine.framesPerSecond = 0) ∧
  (k = frame s / Machine.framesPerSecond) ∧
  (s.grid.second ≠ k) := by
  decide +kernel

theorem witness_CountersTraceAndTheFrame_22 :
  let s : State := (let a := setFld (at_ up 16000 0 0) (pgPON 1) PON_PM_EN 1; { a with pon := { a.pon with chPm := [(5, { PmRec.init 0 with blocks := 9, errored := 3 })] } })
  let k : Nat := 2
  let n : Nat := 5
  let m : PmRec := { PmRec.init 0 with blocks := 9, errored := 3 }
  (s.grid.running = true) ∧
  (frame s % Machine.framesPerSecond = 0) ∧
  (k = frame s / Machine.framesPerSecond) ∧
  (s.grid.second ≠ k) ∧
  (s.pon.pm = []) ∧
  (s.pon.chPm = [(n, m)]) ∧
  (n < 96) ∧
  (isSet s (pgPON (n / 3)) PON_PM_EN = true) := by
  decide +kernel

theorem witness_CountersTraceAndTheFrame_23 :
  let s : State := up
  let i : Instr := .gridSecond
  let pulls : List Pull := []
  (i = .frameBoundary pulls ∨ i = .gridSecond) ∧
  (s.grid.running = false) := by
  exact ⟨.inr rfl, by decide +kernel⟩

theorem witness_StepRunsTheFrontCommandAndReset : up.pending = [] := by decide +kernel

theorem witness_RevokedKeysStayRevoked :
    ({ up with pending := [.gridSecond] } : State).pending = .gridSecond :: [] ∧
      step { up with pending := [.gridSecond] } = .next up := ⟨rfl, rfl⟩

end Sys2Proof.Machine
end

section
/-! SUPPORT. Frames by parts of the state (Safety.lean): they chain, and what each shared operation and the record of a write touch. -/

namespace Sys2Proof.Machine

/-! ### Chaining -/

theorem Part.same_refl (s : State) (p : Part) : p.same s s := by
  cases p <;> rfl

theorem Part.same_trans {s t u : State} {p : Part} (h1 : p.same s t) (h2 : p.same t u) : p.same s u := by
  cases p <;> exact Eq.trans h2 h1

theorem Only.refl (l : List Part) (s : State) : Only l s s := fun p _ => Part.same_refl s p

theorem Only.trans {l : List Part} {s t u : State} (h1 : Only l s t) (h2 : Only l t u) : Only l s u :=
  fun p hp => Part.same_trans (h1 p hp) (h2 p hp)

theorem Only.mono {l m : List Part} {s t : State} (h : Only l s t) (hl : ∀ p ∈ l, p ∈ m) : Only m s t :=
  fun p hp => h p (fun hq => hp (hl p hq))

/-! ### Registers and counters -/

theorem only_regs (s : State) (r : Tbl Word) : Only [.regs] s { s with bus := { s.bus with regs := r } } := by
  intro p hp
  cases p
  case regs => simp at hp
  all_goals rfl

theorem only_setReg (s : State) (a : Nat) (w : Word) : Only [.regs] s (setReg s a w) := only_regs s _

theorem only_setFld (s : State) (b : Nat) (f : Fld) (v : Nat) : Only [.regs] s (setFld s b f v) := only_setReg s _ _

theorem only_setBit (s : State) (b : Nat) (f : Fld) (v : Bool) : Only [.regs] s (setBit s b f v) := only_setFld s b f _

theorem only_setWords (s : State) (a : Nat) (l : List Word) : Only [.regs] s (setWords s a l) := by
  induction l generalizing s a with
  | nil => exact Only.refl _ s
  | cons w l ih => exact (only_setReg s a w).trans (ih _ _)

theorem only_bumpFld (s : State) (b : Nat) (f : Fld) (n : Nat) : Only [.regs] s (bumpFld s b f n) := only_setFld s b f _

theorem only_setCnt (s : State) (a n : Nat) : Only [.cnt] s (setCnt s a n) := by
  intro p hp
  cases p
  case cnt => simp at hp
  all_goals rfl

/-! ### Performance counters -/

/-- Counting leaves everything of the tests' state but the performance counters. -/
theorem pmcCount_tst (s : State) (b e n : Nat) : { (pmcCount s b e n).tst with pmc := [] } = { s.tst with pmc := [] } := by
  unfold pmcCount
  split
  · refine foldl_keeps (fun t : State => { t.tst with pmc := [] }) _ (fun t x => ?_) _ _
    dsimp only
    split
    · split <;> simp
    · rfl
  · rfl

theorem only_pmcCount (s : State) (b e n : Nat) : Only [.regs, .pmc] s (pmcCount s b e n) := by
  obtain ⟨tst, regs, he, -⟩ := pmcCount_only s b e n
  have ht : { tst with pmc := [] } = { s.tst with pmc := [] } := by simpa [he] using pmcCount_tst s b e n
  have htst : tst = { s.tst with pmc := tst.pmc } := congrArg (fun x : TestSt => { x with pmc := tst.pmc }) ht
  rw [he, htst]
  intro p hp
  cases p
  case regs => simp at hp
  case pmc => simp at hp
  all_goals rfl

theorem pmcCount_stopped (s : State) (b e n : Nat) (h : s.tst.running = false) : pmcCount s b e n = s := by
  simp [pmcCount, h]

/-- A performance counter without its count: what counting never changes. -/
def Pmc.setup (c : Pmc) : Pmc := { c with count := 0 }

theorem setup_tset_count (t : Tbl Pmc) (k v j : Nat) :
    (tget Pmc.init (tset Pmc.init t k { tget Pmc.init t k with count := v }) j).setup = (tget Pmc.init t j).setup := by
  rw [tget_tset]
  split
  · rename_i h
    rw [h]; rfl
  · rfl

theorem setup_pmcAdd (fuel : Nat) (t : Tbl Pmc) (k n j : Nat) :
    (tget Pmc.init (pmcAdd fuel t k n).1 j).setup = (tget Pmc.init t j).setup := by
  induction fuel generalizing t k n with
  | zero => rfl
  | succ fuel ih =>
    unfold pmcAdd
    dsimp only
    split
    · exact setup_tset_count t k _ j
    · split
      · exact (ih _ _ _).trans (setup_tset_count t k _ j)
      · exact setup_tset_count t k _ j

theorem setup_pmcCount (s : State) (b e n k : Nat) : (pmc (pmcCount s b e n) k).setup = (pmc s k).setup := by
  unfold pmcCount
  split
  · refine foldl_keeps (fun t : State => (pmc t k).setup) _ (fun t x => ?_) _ _
    dsimp only
    split
    · split <;> simp [pmc, setup_pmcAdd]
    · rfl
  · rfl

/-! ### Counters, flags and the journal -/

theorem only_bump (s : State) (b i n : Nat) : Only [.regs, .cnt, .pmc] s (bump s b i n) :=
  ((only_setCnt s _ _).mono (by decide)).trans ((only_pmcCount _ b i n).mono (by decide))

theorem setup_bump (s : State) (b i n k : Nat) : (pmc (bump s b i n) k).setup = (pmc s k).setup := setup_pmcCount _ b i n k

theorem only_flag (s : State) (b : Nat) (f : Flag) : Only [.regs, .pmc] s (flag s b f) := by
  have h1 : Only [.regs, .pmc] s (bumpFld (setFld s b ⟨f.off, f.bit, 1, 0⟩ 1) b ⟨f.cntOff, f.cntLsb, 16, 0⟩ 1) :=
    ((only_setFld s b _ _).trans (only_bumpFld _ b _ _)).mono (by decide)
  unfold flag
  dsimp only
  split
  · split
    · exact h1.trans (only_pmcCount _ _ _ _)
    · exact h1
  · exact h1

theorem setup_flag (s : State) (b : Nat) (f : Flag) (k : Nat) : (pmc (flag s b f) k).setup = (pmc s k).setup := by
  unfold flag
  dsimp only
  split
  · split
    · rw [setup_pmcCount]; simp [pmc]
    · simp [pmc]
  · simp [pmc]

theorem only_jrn (s : State) (j : JrnSt) : Only [.jrn] s { s with jrn := j } := by
  intro p hp
  cases p
  case jrn => simp at hp
  all_goals rfl

/-- The parts that the journal's entry of a record touches. -/
def journalParts : List Part := [.regs, .cnt, .pmc, .jrn]

theorem only_bump_journal (s : State) (b i n : Nat) : Only journalParts s (bump s b i n) := (only_bump s b i n).mono (by decide)

theorem only_journal (s : State) (o : Origin) (c a : Nat) (x y m : Word) : Only journalParts s (journal s o c a x y m) := by
  have rejected : Only journalParts s (if c = 0 then bump s pgJRN JRN_C_RECORDS 1
      else bump (bump s pgJRN JRN_C_RECORDS 1) pgJRN JRN_C_REJECTED 1) := by
    split
    · exact only_bump_journal _ _ _ _
    · exact (only_bump_journal _ _ _ _).trans (only_bump_journal _ _ _ _)
  have entered : ∀ {t : State} (j : JrnSt), Only journalParts s t → Only journalParts s { t with jrn := j } :=
    fun j h => h.trans ((only_jrn _ j).mono (by decide))
  unfold journal
  dsimp only
  apply entered
  split
  · exact ((rejected.trans (only_bump_journal _ _ _ _)).trans ((only_bumpFld _ _ _ _).mono (by decide))).trans
      ((only_setReg _ _ _).mono (by decide))
  · exact rejected

theorem setup_journal (s : State) (o : Origin) (c a : Nat) (x y m : Word) (k : Nat) :
    (pmc (journal s o c a x y m) k).setup = (pmc s k).setup := by
  have rejected : (pmc (if c = 0 then bump s pgJRN JRN_C_RECORDS 1
      else bump (bump s pgJRN JRN_C_RECORDS 1) pgJRN JRN_C_REJECTED 1) k).setup = (pmc s k).setup := by
    split <;> simp only [setup_bump]
  unfold journal
  dsimp only
  split
  · refine Eq.trans ?_ rejected
    refine Eq.trans ?_ (setup_bump _ pgJRN JRN_C_LOST 1 k)
    simp [pmc]
  · exact rejected

/-! ### The record of a write -/

theorem only_noteOwnRej (s : State) (o : Origin) : Only [.regs, .pmc] s (noteOwnRej s o) :=
  (only_flag s _ _).trans ((only_bumpFld _ _ _ _).mono (by decide))

theorem only_disarm (s : State) (o : Origin) : Only [.armed] s (disarm s o) := by
  intro p hp
  cases p
  case armed => simp at hp
  all_goals rfl

theorem only_setDone (s : State) (c : Completion) (w : Word) : Only [.access] s (setDone s c w) := by
  intro p hp
  cases p
  case access => simp at hp
  all_goals rfl

theorem only_record (s : State) (o : Origin) (c a : Nat) (x y m : Word) : Only books s (record s o c a x y m) := by
  have h1 : Only books s (journal s o c a x y m) := (only_journal s o c a x y m).mono (by decide)
  have fin : ∀ {t : State} (k : Completion) (w : Word), Only books s t → Only books s (setDone (disarm t o) k w) :=
    fun k w h => (h.trans ((only_disarm _ o).mono (by decide))).trans ((only_setDone _ k w).mono (by decide))
  unfold record
  dsimp only
  apply fin
  split
  · exact h1.trans ((only_noteOwnRej _ o).mono (by decide))
  · exact h1

/-- A record leaves every performance counter but its count. -/
theorem setup_record (s : State) (o : Origin) (c a : Nat) (x y m : Word) (k : Nat) :
    (pmc (record s o c a x y m) k).setup = (pmc s k).setup := by
  rw [← setup_journal s o c a x y m k]
  unfold record
  dsimp only
  split
  · exact (by simp [pmc, noteOwnRej] : (pmc (noteOwnRej (journal s o c a x y m) o) k).setup = _).trans (setup_flag _ pgSLC SLC_F_OWN_REJ k)
  · rfl

/-- The record's own entry and completion (R27, R295), for a command whose body left the journal and the grid. -/
theorem answered_record (s u : State) (o : Origin) (c a : Nat) (x y m : Word) (hj : u.jrn = s.jrn) (hg : u.grid = s.grid) :
    Answered s (record u o c a x y m) o c a := by
  obtain ⟨hring, hcseq, -⟩ := journal_jrn u o c a x y m
  refine ⟨⟨?_, x, y, m, ?_⟩, record_done u o c a x y m⟩
  · rw [record_jrn, hcseq, hj]
  · rw [record_jrn, hring, now, now, hj, hg]

/-- Outside the journal's page and the overflow words of PMC, a record without code 2 changes no register. -/
theorem reg_record_of_ne (s : State) (o : Origin) (c a : Nat) (x y m : Word) (b : Nat) (hc : c ≠ 2)
    (hj : b / 0x1000 ≠ pgJRN / 0x1000) (hp : pmcWord b = false) : reg (record s o c a x y m) b = reg s b := by
  have onJrn : ∀ off, off < 0x1000 → b ≠ pgJRN + off := by
    rintro off ho rfl
    have : pgJRN = 0x4000 := rfl
    omega
  have rejected : reg (if c = 0 then bump s pgJRN JRN_C_RECORDS 1
      else bump (bump s pgJRN JRN_C_RECORDS 1) pgJRN JRN_C_REJECTED 1) b = reg s b := by
    split <;> simp only [reg_bump _ _ _ _ _ hp]
  have journaled : reg (journal s o c a x y m) b = reg s b := by
    have go : ∀ (t : State) (j : JrnSt), reg { t with jrn := j } b = reg t b := fun _ _ => rfl
    unfold journal
    dsimp only
    rw [go]
    split
    · rw [reg_setReg_other _ _ _ _ (onJrn _ (by decide)), bumpFld, reg_setFld_other _ _ _ _ _ (onJrn _ (by decide)), reg_bump _ _ _ _ _ hp]
      exact rejected
    · exact rejected
  refine Eq.trans ?_ journaled
  simp only [record, if_neg hc]
  rfl

/-! ### Commands -/

/-- What a command that its address and origin let through leaves, told by its body. -/
theorem only_command {l : List Part} (o : Origin) (a i : Nat) (body : State → State × Nat) (s : State)
    (h : addrReject s o a = none) (hb : Only l s (body s).1) (hl : ∀ p ∈ books, p ∈ l) : Only l s (command o a i body s) := by
  rw [command_ok o a i body s h]
  exact hb.trans ((only_record _ _ _ _ _ _ _).mono hl)

theorem only_ownWrite {l : List Part} (o : Origin) (a : Nat) (body : State → State × Nat) (s : State)
    (h : addrReject s o a = none) (hb : Only l s (body s).1) (hl : ∀ p ∈ books, p ∈ l) : Only l s (ownWrite o a body s) := by
  rw [ownWrite_ok o a body s h]
  exact hb.trans ((only_record _ _ _ _ _ _ _).mono hl)

theorem answered_command {l : List Part} (o : Origin) (a i : Nat) (body : State → State × Nat) (s : State)
    (h : addrReject s o a = none) (hb : Only l s (body s).1) (hj : Part.jrn ∉ l) (hg : Part.grid ∉ l) :
    Answered s (command o a i body s) o (body s).2 a := by
  rw [command_ok o a i body s h]
  exact answered_record _ _ _ _ _ _ _ _ (hb .jrn hj) (hb .grid hg)

theorem answered_ownWrite {l : List Part} (o : Origin) (a : Nat) (body : State → State × Nat) (s : State)
    (h : addrReject s o a = none) (hb : Only l s (body s).1) (hj : Part.jrn ∉ l) (hg : Part.grid ∉ l) :
    Answered s (ownWrite o a body s) o (body s).2 a := by
  rw [ownWrite_ok o a body s h]
  exact answered_record _ _ _ _ _ _ _ _ (hb .jrn hj) (hb .grid hg)

end Sys2Proof.Machine
end

section
/-! PROOFS. O58: a step, the state after reset, and words that spell no command. -/

namespace Sys2Proof.Machine

theorem step_cons (c : Instr) (rest : List Instr) (s : State) :
    step { s with pending := c :: rest } = exec c { s with pending := rest } := rfl

theorem step_nil (s : State) (h : s.pending = []) : step s = .next (idle s) := by
  simp [step, h]

theorem withFetchWord_none (s : State) (nbits w : Nat) : s.withFetchWord nbits w = s := rfl

/-- Settles O58: a step is its front command, an empty queue idles, and the rest are facts of the reset values and of the empty decoder. -/
theorem stepRunsTheFrontCommandAndReset : Obligations.StepRunsTheFrontCommandAndReset := by
  refine ⟨step_cons, fun s h => ?_, ?_, fun nbits w => ⟨rfl, fun s => withFetchWord_none s nbits w⟩⟩
  · simp only [step_nil s h, idle, Bool.and_eq_true, decide_eq_true_eq]
  · exact ⟨rfl, rfl, by decide, rfl, rfl, by decide, by decide⟩

end Sys2Proof.Machine
end

section
/-! PROOFS. O2: what a write leaves of a field, by its access code (R10). -/

namespace Sys2Proof.Machine

/-- The word that a write stores into a field keeps every bit outside it. -/
theorem getLsbD_withBits_outside (w : Word) (l n v k : Nat) (h : l + n ≤ 32) (hk : k < l ∨ l + n ≤ k) :
    (withBits w l n v).getLsbD k = w.getLsbD k := by
  rw [← BitVec.testBit_toNat, ← BitVec.testBit_toNat, testBit_withBits w l n v k h, if_neg (by omega)]

theorem testBit_bitsOf_withBits (w : Word) (l n v k : Nat) (h : l + n ≤ 32) (hk : k < n) :
    Nat.testBit (bitsOf (withBits w l n v) l n) k = Nat.testBit v k := by
  simp [bitsOf_withBits_same w l n v h, Nat.testBit_mod_two_pow, hk]

/-- A write changes a word at most within the field. -/
theorem FieldDef.write_eq_or (f : FieldDef) (inst : Nat) (lock : Bool) (d w : Word) :
    f.write inst lock d w = w ∨ ∃ v, f.write inst lock d w = withBits w f.lsb f.width v := by
  unfold FieldDef.write
  dsimp only
  split
  · exact .inr ⟨_, rfl⟩
  · cases lock
    · exact .inr ⟨_, rfl⟩
    · exact .inl rfl
  · exact .inr ⟨_, rfl⟩
  · exact .inr ⟨_, rfl⟩
  · exact .inl rfl

/-- Settles O2, one access code after another. -/
theorem accessCodesOfAWrite : Obligations.AccessCodesOfAWrite := by
  intro f inst lock d w hf
  have stored : bitsOf (withBits w f.lsb f.width (bitsOf d f.lsb f.width)) f.lsb f.width = bitsOf d f.lsb f.width := by
    rw [bitsOf_withBits_same _ _ _ _ hf, Nat.mod_eq_of_lt (bitsOf_lt d f.lsb f.width)]
  refine ⟨fun h => ?_, fun h => ?_, fun h k hk => ?_, fun h k hk => ?_, fun h => ?_, fun k _ hk => ?_⟩
  · simp only [FieldDef.write, h, stored]
  · cases lock <;> simp [FieldDef.write, h, stored]
  · simp only [FieldDef.write, h]
    rw [testBit_bitsOf_withBits _ _ _ _ _ hf hk, Nat.testBit_xor, Nat.testBit_and]
    cases Nat.testBit (bitsOf w f.lsb f.width) k <;> simp
  · simp only [FieldDef.write, h]
    rw [testBit_bitsOf_withBits _ _ _ _ _ hf hk, Nat.testBit_or]
  · simp only [List.mem_cons, List.not_mem_nil, or_false] at h
    rcases h with h | h | h | h <;> simp only [FieldDef.write, h]
  · rcases f.write_eq_or inst lock d w with h | ⟨v, h⟩
    · rw [h]
    · rw [h, getLsbD_withBits_outside w _ _ v k hf hk]

end Sys2Proof.Machine
end

section
/-! PROOFS. O3 and O4: reads that clear and latch (R10, R71), and accesses that reach no register (R9, R282). -/

namespace Sys2Proof.Machine

/-! ### Addresses of one page -/

/-- Two addresses of one 4 KiB page lie on the same page of the map. -/
theorem pageAt_congr {a b : Nat} (h : a / 0x1000 = b / 0x1000) : pageAt a = pageAt b := by
  simp only [pageAt, h]

theorem zoneOf_plain {off : Nat} (h : off < 0x400) : zoneOf off = (.plain, off) := by
  simp [zoneOf, h]

/-! ### Reads -/

/-- A read of a register in the plain zone that the origin reaches, as its word gives it. -/
theorem readReg_plain (s : State) (o : Origin) (a : Nat) (pg : Page) (i : Nat) (hpage : pageAt a = some (pg, i))
    (hreach : (reach s o a).isSome = true) (hoff : a % 0x1000 < 0x400) (hres : reservedOff (a % 0x1000) = false) :
    readReg o a s = setDone (clearDrops (readWord pg i a s).1 o pg (a % 0x1000)) .normal
      (if hidden s o pg (a % 0x1000) then 0 else (readWord pg i a s).2) := by
  have ha : a - a % 0x1000 + a % 0x1000 = a := Nat.sub_add_cancel (Nat.mod_le a 0x1000)
  rw [readReg, readAccess_ok o a _ s hreach]
  simp [hpage, zoneOf_plain hoff, hres, ha]

theorem clearDrops_of_ne (s : State) (o : Origin) (pg : Page) {off : Nat} (h : off ≠ 0xA4) : clearDrops s o pg off = s := by
  simp [clearDrops, h]

theorem hidden_of_lt (s : State) (o : Origin) (pg : Page) {off : Nat} (h : off < 0x200) : hidden s o pg off = false := by
  simp [hidden, Nat.not_le.mpr h]

/-! ### The words of a counter -/

/-- Every word from 0x200 to 0x2FF of OPT is a data word of an I2C window. -/
theorem wordFields_OPT_ne {off : Nat} (h0 : 0x200 ≤ off) (h1 : off < 0x300) (h4 : off % 4 = 0) : wordFields .OPT off ≠ [] := by
  obtain ⟨k, rfl⟩ : ∃ k, off = 0x200 + 4 * k := ⟨(off - 0x200) / 4, by omega⟩
  have hk : k < 64 := by omega
  interval_cases k <;> decide

/-- Where the low words of counters lie: the counter table from 0x200 on, and two words of a lane. -/
theorem isCounter_cases {pg : Page} {off : Nat} (h : isCounter pg off = true) :
    (0x200 ≤ off ∧ off < 0x300 ∧ off % 8 = 0 ∧ pg ≠ .OPT) ∨ (pg = .SDS ∧ (off = 0x60 ∨ off = 0x68)) := by
  simp only [isCounter, Bool.or_eq_true, Bool.and_eq_true, decide_eq_true_eq, beq_iff_eq] at h
  rcases h with ⟨⟨⟨⟨h0, h1⟩, h8⟩, -⟩, hnil⟩ | h
  · refine .inl ⟨h0, h1, h8, ?_⟩
    rintro rfl
    exact wordFields_OPT_ne h0 h1 (by omega) hnil
  · exact .inr h

theorem isCounter_low_false (pg : Page) {off : Nat} (h : off < 0x60) : isCounter pg off = false := by
  by_contra hc
  have := isCounter_cases (Bool.eq_true_of_not_eq_false hc)
  omega

theorem isCounter_high_false {pg : Page} {off : Nat} (h : isCounter pg off = true) : isCounter pg (off + 4) = false := by
  by_contra hc
  have h2 := isCounter_cases (Bool.eq_true_of_not_eq_false hc)
  have h1 := isCounter_cases h
  omega

theorem reservedOff_counter {pg : Page} {off : Nat} (h : isCounter pg off = true) :
    reservedOff off = false ∧ reservedOff (off + 4) = false := by
  have := isCounter_cases h
  simp only [reservedOff, Bool.or_eq_false_iff, beq_eq_false_iff_ne, decide_eq_false_iff_not]
  omega

theorem hidden_counter (s : State) (o : Origin) {pg : Page} {off : Nat} (h : isCounter pg off = true) :
    hidden s o pg off = false ∧ hidden s o pg (off + 4) = false := by
  rcases isCounter_cases h with ⟨-, -, -, hp⟩ | ⟨rfl, -⟩
  · simp [hidden, hp]
  · simp [hidden]

theorem wideAt_high (s : State) {pg : Page} {off : Nat} (h : isCounter pg off = true) : wideAt s pg (off + 4) = none := by
  rcases isCounter_cases h with ⟨h0, -, -, -⟩ | ⟨rfl, -⟩
  · simp only [wideAt]
    rw [if_neg (by omega), if_neg (by omega), if_neg (by omega)]
  · simp [wideAt]

theorem readWord_low (s : State) (pg : Page) (i a : Nat) (hc : isCounter pg (a % 0x1000) = true)
    (hf : freeCounter s pg i (a % 0x1000) = false) : readWord pg i a s = readLow s a (cntAt s a) := by
  simp [readWord, hc, hf]

theorem readWord_high (s : State) (pg : Page) (i a off : Nat) (ha : a % 0x1000 = off + 4) (hc : isCounter pg off = true) :
    readWord pg i a s = (s, BitVec.ofNat 32 (tget dzero s.bus.latch a)) := by
  simp [readWord, ha, isCounter_high_false hc, wideAt_high s hc, hc]

theorem only_readLow (s : State) (a n : Nat) : Only [.latch] s (readLow s a n).1 := by
  intro p hp
  cases p
  case latch => simp at hp
  all_goals rfl

/-! ### ERR_CNT_0 -/

theorem wordFields_errCnt0 (pg : Page) : wordFields pg 0x34 = [fd 0x34 0 1 0 16 .rc 0, fd 0x34 0 1 16 16 .rc 0] := by
  have h : fieldsHeader.filter (·.covers 0x34) = [fd 0x34 0 1 0 16 .rc 0, fd 0x34 0 1 16 16 .rc 0] := by decide
  simpa [wordFields] using h

/-- Both halves of a word cleared leave 0. -/
theorem withBits_halves (w : Word) : withBits (withBits w 0 16 0) 16 16 0 = 0 := by
  apply BitVec.eq_of_getLsbD_eq
  intro k hk
  rw [← BitVec.testBit_toNat, testBit_withBits _ _ _ _ _ (by omega), testBit_withBits _ _ _ _ _ (by omega)]
  by_cases h : 16 ≤ k
  · simp [h, hk]
  · simp [h, Nat.not_le.mp h]

/-- ERR_CNT_0 clears at its read: all of it is RC (R10, R280). -/
theorem readWord_errCnt0 (s : State) (pg : Page) (i a : Nat) (ha : a % 0x1000 = 0x34) :
    readWord pg i a s = (if 0 = reg s a then s else setReg s a 0, reg s a) := by
  have hw : ∀ t : State, wideAt t pg 0x34 = none ∧ wideAt t pg 0x30 = none := fun t => by simp [wideAt]
  simp [readWord, ha, isCounter_low_false pg, hw, wordFields_errCnt0, fd, withBits_halves]

theorem regsOnly_setReg (s : State) (a : Nat) (w : Word) : RegsOnly [] [a] s (setReg s a w) :=
  fun b hb _ => reg_setReg_other s a b w (by simpa using hb)

/-- READ_CLEAR_ACCESS of ERR_CNT_0 gives the register, leaves it 0, and touches nothing else. -/
theorem readErrCnt0_completes (s : State) (o : Origin) (base : Nat) (pg : Page) (i : Nat) (hp : pageAt base = some (pg, i))
    (hb : base % 0x1000 = 0) (hr : (reach s o (base + 0x34)).isSome = true) :
    Completes (.readClearAccess o (base + 0x34)) s (fun t =>
      t.bus.data = reg s (base + 0x34) ∧ t.bus.done = .normal ∧ reg t (base + 0x34) = 0 ∧
      RegsOnly [] [base + 0x34] s t ∧ Only [.regs, .access] s t) := by
  have hoff : (base + 0x34) % 0x1000 = 0x34 := by omega
  have hpage : pageAt (base + 0x34) = some (pg, i) := (pageAt_congr (by omega)).trans hp
  have hread : readReg o (base + 0x34) s =
      setDone (if 0 = reg s (base + 0x34) then s else setReg s (base + 0x34) 0) .normal (reg s (base + 0x34)) := by
    rw [readReg_plain s o _ pg i hpage hr (by omega) (by rw [hoff]; rfl), hoff, readWord_errCnt0 s pg i _ hoff,
      clearDrops_of_ne _ _ _ (by decide), hidden_of_lt _ _ _ (by decide), if_neg Bool.false_ne_true]
  refine ⟨_, rfl, ?_⟩
  rw [hread]
  refine ⟨rfl, rfl, ?_⟩
  split
  · rename_i h0
    exact ⟨h0.symm, fun _ _ _ => rfl, (only_setDone s _ _).mono (by decide)⟩
  · exact ⟨reg_setReg_same s _ 0, regsOnly_setReg s _ 0,
      ((only_setReg s _ 0).mono (by decide)).trans ((only_setDone _ _ _).mono (by decide))⟩

/-- The low word of a counter latches the high word. -/
theorem counterLowRead_completes (s : State) (o : Origin) (a : Nat) (pg : Page) (i : Nat) (hp : pageAt a = some (pg, i))
    (hr : (reach s o a).isSome = true) (hoff : a % 0x1000 < 0x400) (hc : isCounter pg (a % 0x1000) = true)
    (hf : freeCounter s pg i (a % 0x1000) = false) :
    Completes (.counterLowRead o a) s (fun t =>
      t.bus.data = BitVec.ofNat 32 (cntAt s a) ∧ t.bus.done = .normal ∧ tget dzero t.bus.latch (a + 4) = cntAt s a >>> 32 ∧
      cntAt t a = cntAt s a ∧ Only [.latch, .access] s t) := by
  have hne : a % 0x1000 ≠ 0xA4 := by have := isCounter_cases hc; omega
  have hread : readReg o a s = setDone (readLow s a (cntAt s a)).1 .normal (BitVec.ofNat 32 (cntAt s a)) := by
    rw [readReg_plain s o a pg i hp hr hoff (reservedOff_counter hc).1, readWord_low s pg i a hc hf, clearDrops_of_ne _ _ _ hne,
      (hidden_counter s o hc).1, if_neg Bool.false_ne_true]
    rfl
  refine ⟨_, rfl, ?_⟩
  rw [hread]
  exact ⟨rfl, rfl, tget_tset_same _ _ _ _, rfl,
    ((only_readLow s a _).mono (by decide)).trans ((only_setDone _ _ _).mono (by decide))⟩

/-- The high word of a counter gives what was latched. -/
theorem counterHighRead_completes (s : State) (o : Origin) (a : Nat) (pg : Page) (i : Nat) (hp : pageAt a = some (pg, i))
    (hr : (reach s o (a + 4)).isSome = true) (hoff : a % 0x1000 < 0x3F0) (hc : isCounter pg (a % 0x1000) = true) :
    Completes (.counterLowRead o (a + 4)) s (fun t =>
      t.bus.data = BitVec.ofNat 32 (tget dzero s.bus.latch (a + 4)) ∧ t.bus.done = .normal ∧ Only [.access] s t) := by
  have hoff4 : (a + 4) % 0x1000 = a % 0x1000 + 4 := by omega
  have hpage : pageAt (a + 4) = some (pg, i) := (pageAt_congr (by omega)).trans hp
  have hne : a % 0x1000 + 4 ≠ 0xA4 := by have := isCounter_cases hc; omega
  have hread : readReg o (a + 4) s = setDone s .normal (BitVec.ofNat 32 (tget dzero s.bus.latch (a + 4))) := by
    rw [readReg_plain s o (a + 4) pg i hpage hr (by omega) (by rw [hoff4]; exact (reservedOff_counter hc).2),
      readWord_high s pg i (a + 4) _ hoff4 hc, hoff4, clearDrops_of_ne _ _ _ hne, (hidden_counter s o hc).2,
      if_neg Bool.false_ne_true]
  refine ⟨_, rfl, ?_⟩
  rw [hread]
  exact ⟨rfl, rfl, only_setDone s _ _⟩

/-- Settles O3: a read of ERR_CNT_0, and of the low and of the high word of a counter. -/
theorem readsClearAndLatch : Obligations.ReadsClearAndLatch :=
  ⟨readErrCnt0_completes, counterLowRead_completes, counterHighRead_completes⟩

/-! ### Accesses that reach no register -/

/-- A record of code 6 is the only effect of a write that reaches no register. -/
theorem unsupportedWrite_leaves (s : State) (o : Origin) (a : Nat) (d : Word) :
    Answered s (unsupported o a (some d) s) o 6 a ∧ (unsupported o a (some d) s).bus.done = .unsupported ∧
    RegsOnly [pgJRN, pgPMC] [] s (unsupported o a (some d) s) ∧ Only books s (unsupported o a (some d) s) := by
  refine ⟨answered_record s s o 6 a 0 0 allOnes rfl rfl, record_done s o 6 a 0 0 allOnes, fun b _ hb => ?_,
    only_record s o 6 a 0 0 allOnes⟩
  have hj : b / 0x1000 ≠ pgJRN / 0x1000 := hb pgJRN (by simp)
  have hpage : b / 0x1000 ≠ pgPMC / 0x1000 := hb pgPMC (by simp)
  have hp : pmcWord b = false := by
    simp only [pmcWord, Bool.or_eq_false_iff, beq_eq_false_iff_ne]
    constructor <;> rintro rfl <;> exact hpage rfl
  exact reg_record_of_ne s o 6 a 0 0 allOnes b (by decide) hj hp

theorem unsupportedRead_leaves (s : State) (o : Origin) (a : Nat) :
    (unsupported o a none s).bus.done = .unsupported ∧ Only [.access] s (unsupported o a none s) :=
  ⟨rfl, only_setDone s _ _⟩

theorem exec_unalignedAccess (s : State) (o : Origin) (a n : Nat) (w : Bool) (h : ¬ (a % 4 = 0 ∧ n = 4)) :
    exec (.unalignedAccess o a n w) s = .next (unsupported o a (if w then some 0 else none) s) := by
  show execUnalignedAccess o a n w s = _
  rw [execUnalignedAccess, if_neg h]

theorem exec_unmappedAccess (s : State) (o : Origin) (a : Nat) (w : Option Word) (h : reach s o a = none) :
    exec (.unmappedAccess o a w) s = .next (unsupported o a w s) := by
  show execUnmappedAccess o a w s = _
  simp [execUnmappedAccess, h]

/-- Settles O4: both kinds of access end as unsupported requests, reads at once and writes by a record of code 6. -/
theorem accessesThatReachNoRegister : Obligations.AccessesThatReachNoRegister :=
  ⟨fun s o a n h => ⟨_, exec_unalignedAccess s o a n false h, unsupportedRead_leaves s o a⟩,
   fun s o a n h => ⟨_, exec_unalignedAccess s o a n true h, unsupportedWrite_leaves s o a 0⟩,
   fun s o a h => ⟨_, exec_unmappedAccess s o a none h, unsupportedRead_leaves s o a⟩,
   fun s o a d h => ⟨_, exec_unmappedAccess s o a (some d) h, unsupportedWrite_leaves s o a d⟩⟩

end Sys2Proof.Machine
end

section
/-! SUPPORT. What the per-frame and the per-second work leaves alone (R5, R70): the grid, the journal, the owners, boot, the engines, the
classifier, the start and stop of the performance counters, and of each channel its superframe counter and its supervision queue. One view
of the state gathers these, and every operation of that work keeps the view. -/

namespace Sys2Proof.Machine

/-- What the work at a frame boundary does not change by itself. `channel` gives the superframe counter and the supervision queue of a
channel. -/
structure BoundaryView where
  grid : GridSt
  go : Option Bool
  running : Bool
  jrn : JrnSt
  own : OwnSt
  boot : BootSt
  eng : EngSt
  cls : ClsSt
  channel : Nat → Nat × List (List Byte)

/-- The view of a state. -/
def view (s : State) : BoundaryView :=
  ⟨s.grid, s.tst.go, s.tst.running, s.jrn, s.own, s.boot, s.eng, s.cls,
    fun n => ((tget ChSt.init s.pon.ch n).superframe, (tget ChSt.init s.pon.ch n).upq)⟩

/-- A fold whose steps keep the view keeps it. -/
theorem view_foldl {α : Type} (f : State → α → State) (h : ∀ t a, view (f t a) = view t) (l : List α) (s : State) :
    view (l.foldl f s) = view s := foldl_keeps view f h l s

/-! ### Stores of one record -/

@[simp] theorem view_setReg (s : State) (a : Nat) (w : Word) : view (setReg s a w) = view s := rfl
@[simp] theorem view_setFld (s : State) (b : Nat) (f : Fld) (v : Nat) : view (setFld s b f v) = view s := rfl
@[simp] theorem view_setBit (s : State) (b : Nat) (f : Fld) (v : Bool) : view (setBit s b f v) = view s := rfl
@[simp] theorem view_bumpFld (s : State) (b : Nat) (f : Fld) (n : Nat) : view (bumpFld s b f n) = view s := rfl
@[simp] theorem view_setCnt (s : State) (a n : Nat) : view (setCnt s a n) = view s := rfl
@[simp] theorem view_setKeyEntry (s : State) (u : Nat) (r : KeyEntry) : view (setKeyEntry s u r) = view s := rfl
@[simp] theorem view_setChPm (s : State) (n : Nat) (r : PmRec) : view (setChPm s n r) = view s := rfl
@[simp] theorem view_setOnuCnt (s : State) (p i j n : Nat) : view (setOnuCnt s p i j n) = view s := rfl
@[simp] theorem view_setOnu (s : State) (p i : Nat) (r : OnuRec) : view (setOnu s p i r) = view s := rfl
@[simp] theorem view_setPmRec (s : State) (p i : Nat) (r : PmRec) : view (setPmRec s p i r) = view s := rfl
@[simp] theorem view_setRng (s : State) (p i : Nat) (r : RngRec) : view (setRng s p i r) = view s := rfl
@[simp] theorem view_setSurvey (s : State) (p c : Nat) (r : SurveySt) : view (setSurvey s p c r) = view s := rfl
@[simp] theorem view_setPhaseMem (s : State) (p c i : Nat) (r : PhaseEntry) : view (setPhaseMem s p c i r) = view s := rfl
@[simp] theorem view_setGrp (s : State) (p g : Nat) (r : Grp) : view (setGrp s p g r) = view s := rfl
@[simp] theorem view_setTxdis (s : State) (p v : Nat) : view (setTxdis s p v) = view s := rfl
@[simp] theorem view_handUp (s : State) (src len : Nat) (l : List Byte) : view (handUp s src len l) = view s := rfl
@[simp] theorem view_setPair (s : State) (p : Nat) (r : PairSt) : view (setPair s p r) = view s := rfl
@[simp] theorem view_setTick (s : State) (m : Nat) (r : TickSt) : view (setTick s m r) = view s := rfl
@[simp] theorem view_setHex (s : State) (m : Nat) (r : HexSt) : view (setHex s m r) = view s := rfl
@[simp] theorem view_setBuf (s : State) (h : Nat) (b : Buf) : view (setBuf s h b) = view s := rfl
@[simp] theorem view_setQueue (s : State) (k : Nat) (q : Queue) : view (setQueue s k q) = view s := rfl
@[simp] theorem view_setNode (s : State) (lv i : Nat) (n : Node) : view (setNode s lv i n) = view s := rfl
@[simp] theorem view_hostRec (s : State) (f : Nat) (x : HostRec) : view (hostRec s f x) = view s := rfl
@[simp] theorem view_setEvRing (s : State) (f r : Nat) (x : EvRing) : view (setEvRing s f r x) = view s := rfl

theorem superframe_eq_view (s : State) (p c : Nat) : (chSt s p c).superframe = ((view s).channel (3 * p + c)).1 := rfl

theorem upq_eq_view (s : State) (p c : Nat) : (chSt s p c).upq = ((view s).channel (3 * p + c)).2 := rfl

/-- A store of a channel's record changes the view at this channel only. -/
theorem view_setChSt_update (s : State) (p c : Nat) (r : ChSt) :
    view (setChSt s p c r) = { view s with channel := Function.update (view s).channel (3 * p + c) (r.superframe, r.upq) } := by
  have h : (view (setChSt s p c r)).channel = Function.update (view s).channel (3 * p + c) (r.superframe, r.upq) := by
    funext n
    have hn : tget ChSt.init (setChSt s p c r).pon.ch n = if n = 3 * p + c then r else tget ChSt.init s.pon.ch n :=
      tget_tset ChSt.init s.pon.ch (3 * p + c) n r
    simp only [view, hn, Function.update_apply]
    split <;> rfl
  rw [← h]
  rfl

/-- A store of a channel's record that keeps its superframe counter and its supervision queue keeps the view. -/
@[simp] theorem view_setChSt (s : State) (p c : Nat) (r : ChSt) (hf : r.superframe = ((view s).channel (3 * p + c)).1)
    (hq : r.upq = ((view s).channel (3 * p + c)).2) : view (setChSt s p c r) = view s := by
  rw [view_setChSt_update, hf, hq, Prod.mk.eta, Function.update_eq_self]

/-! ### Counters, flags and events -/

@[simp] theorem view_pmcCount (s : State) (b e n : Nat) : view (pmcCount s b e n) = view s := by
  have hgo : (pmcCount s b e n).tst.go = s.tst.go := (congrArg TestSt.go (pmcCount_tst s b e n) :)
  have hrun : (pmcCount s b e n).tst.running = s.tst.running := (congrArg TestSt.running (pmcCount_tst s b e n) :)
  simp only [view, hgo, hrun, pmcCount_frame]

@[simp] theorem view_bump (s : State) (b i n : Nat) : view (bump s b i n) = view s := by simp [bump]

@[simp] theorem view_flag (s : State) (b : Nat) (f : Flag) : view (flag s b f) = view s := by
  unfold flag
  dsimp only
  split
  · split <;> simp
  · simp

@[simp] theorem view_note (s : State) (b : Nat) (f : Flag) (i : Nat) : view (note s b f i) = view s := by simp [note]

@[simp] theorem view_postTo (s : State) (b v : Nat) (c : EvCode) (l : List Nat) : view (postTo s b v c l) = view s := by
  unfold postTo
  dsimp only
  split
  · split
    · exact (view_bump (setFld s b ANY_EVT_SEQ (fld s b ANY_EVT_SEQ + 1)) pgEVT EVT_C_POSTED 1).trans rfl
    · simp
  · simp

@[simp] theorem view_post (s : State) (b : Nat) (c : EvCode) (l : List Nat) : view (post s b c l) = view s := by simp [post]

@[simp] theorem view_raise (s : State) (b : Nat) (f : Flag) (l : List Nat) : view (raise s b f l) = view s := by simp [raise]

@[simp] theorem view_trace (s : State) (b point verdict : Nat) (m : Option (Nat × Nat × Nat)) (queue len arg : Nat) :
    view (trace s b point verdict m queue len arg) = view s := by
  unfold trace
  split
  · rfl
  · split
    · rfl
    · split
      · exact view_note _ _ _ _
      · exact (view_bump _ _ _ _).trans rfl

@[simp] theorem view_dsBump (s : State) (p c i j k n : Nat) : view (dsBump s p c i j k n) = view s := by simp [dsBump]

@[simp] theorem view_onuBump (s : State) (p i j n : Nat) : view (onuBump s p i j n) = view s := by
  unfold onuBump
  dsimp only
  split <;> simp

/-! ### Buffers, queues and the scheduler -/

@[simp] theorem view_unchain (s : State) (h : Nat) : view (unchain s h) = view s := by
  unfold unchain
  split <;> simp

@[simp] theorem view_clearChain (s : State) (h : Nat) : view (clearChain s h) = view s := by
  rw [clearChain, view_unchain, view_foldl _ (fun t x => view_setBuf t x _)]

@[simp] theorem view_releaseBuf (s : State) (h : Nat) : view (releaseBuf s h) = view s := by simp [releaseBuf]

@[simp] theorem view_setRefs (s : State) (h tag : Nat) (l : List Nat) : view (setRefs s h tag l) = view s :=
  view_foldl _ (fun t x => view_setBuf t x _) _ _

@[simp] theorem view_dropRef (s : State) (h party : Nat) : view (dropRef s h party) = view s := by
  unfold dropRef
  dsimp only
  split <;> simp

@[simp] theorem view_logBad (s : State) (h party : Nat) : view (logBad s h party) = view s := by
  unfold logBad
  dsimp only
  split <;> simp

@[simp] theorem view_freeBuf (s : State) (h party : Nat) (free : Bool) : view (freeBuf s h party free) = view s := by
  unfold freeBuf
  dsimp only
  split
  · simp
  · split <;> simp

@[simp] theorem view_passBuf (s : State) (h party heir : Nat) : view (passBuf s h party heir) = view s := by
  unfold passBuf
  dsimp only
  split <;> simp

@[simp] theorem view_publishPools (s : State) : view (publishPools s) = view s := by
  unfold publishPools
  dsimp only
  rw [view_foldl _ (fun t r => view_setFld t _ _ _), view_foldl _ (fun t x => by simp)]
  simp

@[simp] theorem view_settlePools (before s : State) : view (settlePools before s) = view s := by
  unfold settlePools
  split <;> simp

@[simp] theorem view_queueBump (s : State) (k j n : Nat) : view (queueBump s k j n) = view s := by simp [queueBump]

@[simp] theorem view_queueCount (s : State) (k j i n : Nat) : view (queueCount s k j i n) = view s := by simp [queueCount]

@[simp] theorem view_setFrame (s : State) (k i : Nat) (f : QFrame) : view (setFrame s k i f) = view s := by simp [setFrame]

@[simp] theorem view_refreshNode (s : State) (lv i : Nat) : view (refreshNode s lv i) = view s := by
  unfold refreshNode
  dsimp only
  split <;> simp

@[simp] theorem view_refreshOver (s : State) (k : Nat) : view (refreshOver s k) = view s :=
  view_foldl (fun t (e : Nat × Nat) => refreshNode t e.1 e.2) (fun t e => view_refreshNode t e.1 e.2) _ _

@[simp] theorem view_emptyNode (s : State) (lv i : Nat) : view (emptyNode s lv i) = view s := by
  unfold emptyNode
  dsimp only
  split <;> simp

@[simp] theorem view_emptyOver (s : State) (k : Nat) : view (emptyOver s k) = view s :=
  view_foldl (fun t (e : Nat × Nat) => emptyNode t e.1 e.2) (fun t e => view_emptyNode t e.1 e.2) _ _

@[simp] theorem view_leaveNode (s : State) (lv i tag v : Nat) : view (leaveNode s lv i tag v) = view s := by simp [leaveNode]

@[simp] theorem view_leaveTags (s : State) (k : Nat) : view (leaveTags s k) = view s := by
  unfold leaveTags
  dsimp only
  split
  · rw [view_foldl _ (fun t u => view_leaveNode t _ u _ _), view_leaveNode]
  · simp

@[simp] theorem view_dropLost (n : Nat) (s : State) (k : Nat) : view (dropLost n s k) = view s := by
  induction n generalizing s with
  | zero => rfl
  | succ n ih =>
    unfold dropLost
    dsimp only
    split
    · rfl
    · split
      · simp [ih]
      · rfl

@[simp] theorem view_popHead (s : State) (k : Nat) : view (popHead s k) = view s := by
  unfold popHead
  dsimp only
  split <;> simp

@[simp] theorem view_chargeNode (s : State) (lv i len gt : Nat) : view (chargeNode s lv i len gt) = view s := by
  unfold chargeNode
  dsimp only
  split <;> simp

@[simp] theorem view_serveTags (s : State) (u q len : Nat) : view (serveTags s u q len) = view s := by
  simp [serveTags, finishNode, setV]

/-! ### Keys (R64, R219) -/

@[simp] theorem view_keyRaise (s : State) (u : Nat) (f : Flag) : view (keyRaise s u f) = view s := by simp [keyRaise]

@[simp] theorem view_putSlot (s : State) (u j : Nat) (k : KeySlot) (warn spent : Bool) : view (putSlot s u j k warn spent) = view s := by
  unfold putSlot
  dsimp only
  split <;> split <;> simp

@[simp] theorem view_useSlot (s : State) (u j m : Nat) : view (useSlot s u j m) = view s := by
  unfold useSlot
  dsimp only
  split <;> simp

@[simp] theorem view_countKey (s : State) (u : Nat) : view (countKey s u) = view s := by
  unfold countKey
  dsimp only
  split
  · rfl
  · split <;> simp

@[simp] theorem view_switchKeys (s : State) (p c : Nat) : view (switchKeys s p c) = view s := by
  unfold switchKeys
  dsimp only
  split
  · rfl
  · split
    · split <;> simp [superframe_eq_view, upq_eq_view]
    · rfl

/-! ### Defects (R66, R67) -/

@[simp] theorem view_reportLosCh (s : State) (p c : Nat) (raised : Bool) : view (reportLosCh s p c raised) = view s := by
  cases raised <;> simp [reportLosCh]

@[simp] theorem view_evalLosCh (s : State) (p c : Nat) : view (evalLosCh s p c) = view s := by
  have stored : ∀ n, view (setChSt s p c { chSt s p c with losRun := n, granted := false, gotBurst := false }) = view s :=
    fun n => by simp [superframe_eq_view, upq_eq_view]
  simp only [evalLosCh, apply_ite view, view_reportLosCh, stored, ite_self]

@[simp] theorem view_reportDefect (s : State) (p i d : Nat) (raised : Bool) : view (reportDefect s p i d raised) = view s := by
  unfold reportDefect
  dsimp only
  split <;> split <;> split <;> simp

theorem view_reportDefects (b : Nat → Bool) (p i : Nat) (raised : Bool) (l : List Nat) (s : State) :
    view (l.foldl (fun s d => if b d then reportDefect s p i d raised else s) s) = view s :=
  view_foldl _ (fun t d => by split <;> simp) _ _

@[simp] theorem view_syncReports (s : State) (p i : Nat) : view (syncReports s p i) = view s := by
  unfold syncReports
  dsimp only
  rw [view_reportDefects, view_setOnu]

@[simp] theorem view_syncAll (s : State) : view (syncAll s) = view s :=
  view_foldl _ (fun t _ => view_syncReports t _ _) _ _

@[simp] theorem view_dropDefects (s : State) (p i : Nat) : view (dropDefects s p i) = view s := by
  unfold dropDefects
  dsimp only
  rw [view_setPmRec, view_reportDefects, view_setOnu]

/-! ### Records of ONUs and their messages (R56, R69, R100) -/

@[simp] theorem view_refreshUse (s : State) (p : Nat) : view (refreshUse s p) = view s := by simp [refreshUse]

@[simp] theorem view_putOnu (s : State) (p i : Nat) (r : OnuRec) : view (putOnu s p i r) = view s := by simp [putOnu]

@[simp] theorem view_surveyStart (s : State) (p c : Nat) : view (surveyStart s p c) = view s := by simp [surveyStart]

@[simp] theorem view_surveyBase (s : State) (p c : Nat) : view (surveyBase s p c) = view s := by
  unfold surveyBase
  split <;> simp

@[simp] theorem view_setOnuState (s : State) (p i st : Nat) : view (setOnuState s p i st) = view s := by
  unfold setOnuState
  dsimp only
  split <;> simp

@[simp] theorem view_clearRanging (s : State) (p i : Nat) : view (clearRanging s p i) = view s := by
  unfold clearRanging invalidatePhase
  split <;> simp

@[simp] theorem view_deactComplete (s : State) (p i : Nat) : view (deactComplete s p i) = view s := by simp [deactComplete]

@[simp] theorem view_pushUrgent (s : State) (p c : Nat) (m : Ploam) : view (pushUrgent s p c m) = view s := by
  have queued : ∀ (t : State) (u r : List Ploam), view t = view s →
      view (setChSt t p c { chSt s p c with urgent := u, retry := r }) = view s := by
    intro t u r h
    rw [view_setChSt t p c _ (by rw [h]; rfl) (by rw [h]; rfl), h]
  unfold pushUrgent
  dsimp only
  split
  · exact queued s _ _ rfl
  · split
    · have hs := queued (setFld (setFld s (pgCH p c) CH_URG_FILL ((chSt s p c).urgent.length + 1)) (pgCH p c) CH_PUSH_FULL 0)
        ((chSt s p c).urgent ++ [{ m with at_ := now s }]) (chSt s p c).retry rfl
      split
      · exact (view_setOnu _ _ _ _).trans hs
      · exact hs
    · exact queued _ _ _ (by simp)

@[simp] theorem view_deactSent (s : State) (p i : Nat) : view (deactSent s p i) = view s := by
  unfold deactSent
  dsimp only
  split
  · simp [sendTo]
  · split <;> simp

@[simp] theorem view_rangingSent (s : State) (p i : Nat) : view (rangingSent s p i) = view s := by
  unfold rangingSent
  dsimp only
  split <;> simp

@[simp] theorem view_ploamEffect (s : State) (p : Nat) (m : Ploam) : view (ploamEffect s p m) = view s := by
  unfold ploamEffect
  split <;> simp

@[simp] theorem view_addSection (s : State) (p c : Nat) (m : Ploam) : view (addSection s p c m) = view s := by
  simp [addSection, superframe_eq_view, upq_eq_view]

@[simp] theorem view_sendPloam (p c : Nat) (s : State) (m : Ploam) : view (sendPloam p c s m) = view s := by
  unfold sendPloam
  dsimp only
  split <;> simp

@[simp] theorem view_sendPloams (s : State) (p c : Nat) : view (sendPloams s p c) = view s := by
  simp only [sendPloams, apply_ite view, view_addSection, view_foldl _ (view_sendPloam p c), view_setFld, ite_self]
  exact view_setChSt s p c _ rfl rfl

/-! ### Bonded groups (R141 to R144) -/

@[simp] theorem view_grpBump (s : State) (p g j n : Nat) : view (grpBump s p g j n) = view s := by simp [grpBump]

@[simp] theorem view_grpNote (s : State) (p g : Nat) (f : Flag) (j n : Nat) : view (grpNote s p g f j n) = view s := by simp [grpNote]

@[simp] theorem view_freeHeld (s : State) (p : Nat) (f : HeldFrag) : view (freeHeld s p f) = view s := by
  unfold freeHeld
  split <;> simp

@[simp] theorem view_endUnit (s : State) (p g : Nat) : view (endUnit s p g) = view s := by
  unfold endUnit
  dsimp only
  split
  · simp
  · split
    · simp [discardUnit]
    · split <;> simp

@[simp] theorem view_joinFrag (s : State) (p g : Nat) (f : HeldFrag) : view (joinFrag s p g f) = view s := by
  have joined : ∀ t : State, view t = view s → view (if f.last then endUnit t p g else t) = view s := by
    intro t h
    split <;> simp [h]
  unfold joinFrag
  apply joined
  dsimp only
  split
  · split <;> simp [discardUnit]
  · split <;> simp

@[simp] theorem view_releaseRun (n : Nat) (s : State) (p g : Nat) : view (releaseRun n s p g) = view s := by
  induction n generalizing s with
  | zero => rfl
  | succ n ih =>
    unfold releaseRun
    dsimp only
    split <;> simp [ih]

@[simp] theorem view_declareGap (s : State) (p g : Nat) : view (declareGap s p g) = view s := by
  unfold declareGap
  dsimp only
  split
  · rfl
  · split <;> simp

@[simp] theorem view_declareAll (n : Nat) (s : State) (p g : Nat) : view (declareAll n s p g) = view s := by
  induction n generalizing s with
  | zero => rfl
  | succ n ih =>
    unfold declareAll
    split <;> simp [ih]

@[simp] theorem view_flushGroup (s : State) (p g : Nat) : view (flushGroup s p g) = view s := view_declareAll _ s p g

@[simp] theorem view_fallBack (s : State) (p g : Nat) : view (fallBack s p g) = view s := by
  unfold fallBack
  dsimp only
  split <;> simp

@[simp] theorem view_freeGroup (s : State) (p g : Nat) : view (freeGroup s p g) = view s := by
  unfold freeGroup
  split <;> simp

@[simp] theorem view_goDown (s : State) (p g : Nat) : view (goDown s p g) = view s := by
  unfold goDown
  dsimp only
  split <;> simp

@[simp] theorem view_rejoin (s : State) (p g : Nat) : view (rejoin s p g) = view s := by
  simp only [rejoin, apply_ite view, view_grpNote, view_setGrp, ite_self]

@[simp] theorem view_groupBoundary (s : State) (p g : Nat) : view (groupBoundary s p g) = view s := by simp [groupBoundary]

/-! ### Pairs and links (R256 to R278) -/

@[simp] theorem view_judgeSlot (s : State) (m : Nat) : view (judgeSlot s m) = view s := by
  unfold judgeSlot
  dsimp only
  split
  · split <;> simp
  · rfl

@[simp] theorem view_countLos (s : State) (p : Nat) : view (countLos s p) = view s := by
  unfold countLos
  dsimp only
  split
  · rfl
  · split <;> simp

@[simp] theorem view_countRollcall (s : State) (p : Nat) : view (countRollcall s p) = view s := by
  unfold countRollcall
  dsimp only
  split <;> simp

@[simp] theorem view_applyNext (s : State) (p : Nat) : view (applyNext s p) = view s := by
  unfold applyNext
  dsimp only
  split <;> simp

@[simp] theorem view_copyRecords (s : State) (p q : Nat) : view (copyRecords s p q) = view s := view_refreshUse _ q

@[simp] theorem view_internalPair (s : State) (p : Nat) : view (internalPair s p) = view s := by
  unfold internalPair
  split
  · rfl
  · simp only [apply_ite view, view_copyRecords, view_setPair, view_applyNext, ite_self]

@[simp] theorem view_sendMsg (s : State) (m vc : Nat) (l : List (Nat × Nat)) (n : Nat) (x : Option (List Nat)) :
    view (sendMsg s m vc l n x) = view s := by simp [sendMsg, sendBlocks]

@[simp] theorem view_sendMirror (s : State) (p : Nat) : view (sendMirror s p) = view s := by
  unfold sendMirror
  dsimp only
  split <;> simp

@[simp] theorem view_ringIrq (s : State) (f r : Nat) : view (ringIrq s f r) = view s := by
  unfold ringIrq
  dsimp only
  split <;> simp

@[simp] theorem view_ringBoundary (s : State) : view (ringBoundary s) = view s := view_foldl _ (fun t _ => view_ringIrq t _ _) _ _

@[simp] theorem view_flushLink (s : State) (m reason : Nat) : view (flushLink s m reason) = view s := by simp [flushLink]

@[simp] theorem view_reportLink (s : State) (m old new : Nat) : view (reportLink s m old new) = view s := by
  unfold reportLink
  dsimp only
  split
  · rfl
  · rw [view_foldl _ (fun t d => by split <;> simp), view_foldl _ (fun t d => by split <;> simp), view_setFld]

@[simp] theorem view_setLinkDefects (s : State) (m v : Nat) : view (setLinkDefects s m v) = view s := by
  simp only [setLinkDefects, apply_ite view, view_flushLink, view_raise, view_reportLink, view_setFld, view_setHex, ite_self]

@[simp] theorem view_setLinkDefect (s : State) (m d : Nat) (raised : Bool) : view (setLinkDefect s m d raised) = view s :=
  view_setLinkDefects s m _

/-! ### Payload of a frame (R55, R62, R141, R192) -/

@[simp] theorem view_addFrag (s : State) (p c : Nat) (g : FragTx) : view (addFrag s p c g) = view s := by
  simp [addFrag, superframe_eq_view, upq_eq_view]

@[simp] theorem view_sendPart (p c n : Nat) (s : State) (x : DsPart) (b : Nat) : view (sendPart p c n s x b).1 = view s := by
  induction n generalizing s x b with
  | zero => rfl
  | succ n ih =>
    simp only [sendPart, apply_ite (fun y : State × DsPart × Nat => view y.1), ih, view_addFrag, ite_self]
    refine ite_eq_left_iff.mpr fun _ => ?_
    split <;> simp

@[simp] theorem view_freePart (s : State) (p c : Nat) (x : DsPart) : view (freePart s p c x) = view s := by
  unfold freePart
  split <;> simp

@[simp] theorem view_endPart (s : State) (p c : Nat) (x : DsPart) : view (endPart s p c x) = view s := by
  unfold endPart
  dsimp only
  rw [view_trace, view_freePart]
  split <;> simp

@[simp] theorem view_setRoom (s : State) (p c n : Nat) : view (setRoom s p c n) = view s := by
  simp [setRoom, superframe_eq_view, upq_eq_view]

@[simp] theorem view_idleFill (s : State) (p c n : Nat) : view (idleFill s p c n) = view s := by simp [idleFill]

@[simp] theorem view_framePart (p c : Nat) (a : State × Nat) (x : DsPart) : view (framePart p c a x).1 = view a.1 := by
  have h := view_sendPart p c 8 a.1 x a.2
  unfold framePart
  dsimp only
  split <;> simp [h, superframe_eq_view, upq_eq_view]

@[simp] theorem view_continueParts (s : State) (p c b : Nat) : view (continueParts s p c b).1 = view s := by
  refine (foldl_keeps (fun a : State × Nat => view a.1) (framePart p c) (view_framePart p c) _ _).trans ?_
  simp [superframe_eq_view, upq_eq_view]

@[simp] theorem view_serveFragment (s : State) (p g c : Nat) (f : QFrame) : view (serveFragment s p g c f).1 = view s := by
  simp [serveFragment]

@[simp] theorem view_takeSdu (s : State) (p c u q : Nat) (f : QFrame) : view (takeSdu s p c u q f).1 = view s := by
  unfold takeSdu
  split
  · dsimp only
    split <;> simp [pullBuf]
  · simp [pullBuf]

@[simp] theorem view_dropNoPort (s : State) (p c : Nat) (x : DsPart) : view (dropNoPort s p c x) = view s := by simp [dropNoPort]

@[simp] theorem view_servePull (s : State) (p c u q b : Nat) : view (servePull s p c u q b) = view s := by
  unfold servePull
  split
  · simp
  · dsimp only
    split
    · split <;> simp
    · simp

@[simp] theorem view_choose (s : State) (p c : Nat) : view (choose s p c).1 = view s := by
  unfold choose
  split
  · rfl
  · split <;> simp

@[simp] theorem view_keepOffer (s : State) (p c : Nat) (x : Option (Nat × Nat)) : view (keepOffer s p c x) = view s := by
  simp [keepOffer, superframe_eq_view, upq_eq_view]

@[simp] theorem view_emptyPull (s : State) (p c b : Nat) : view (emptyPull s p c b) = view s := by
  unfold emptyPull
  dsimp only
  split <;> simp

@[simp] theorem view_framePull (s : State) (x : Pull) : view (framePull s x) = view s := by
  unfold framePull
  dsimp only
  split
  · rfl
  · split
    · simp
    · split
      · simp
      · split
        · simp
        · split <;> simp

@[simp] theorem view_runPulls (n : Nat) (l : List Pull) (s : State) : view (runPulls n l s) = view s := by
  induction n generalizing l s with
  | zero => rfl
  | succ n ih =>
    cases l with
    | nil => rfl
    | cons x l =>
      unfold runPulls
      split <;> simp [ih]

@[simp] theorem view_takePulls (s : State) (l : List Pull) : view (takePulls s l) = view s := view_runPulls _ _ s

@[simp] theorem view_fillFrames (l : List Nat) (n : Nat) (s : State) : view (fillFrames l n s) = view s := by
  induction n generalizing s with
  | zero => rfl
  | succ n ih =>
    unfold fillFrames
    dsimp only
    split <;> simp [ih]

end Sys2Proof.Machine
end

section
/-! SUPPORT. PON_CTL.CH_EN, which says that channels of a port are enabled, stands through the frame boundary's work up to the frames. -/

namespace Sys2Proof.Machine

/-- The word of CH_EN of port q. -/
def chEnWord (q : Nat) : Nat := pgPON q + PON_CH_EN.off

/-! ### The word is none that this work writes -/

theorem chEnWord_ne_pon (q p off : Nat) (h : off < 0x1000) (h0 : off ≠ 0x40) : chEnWord q ≠ pgPON p + off := by
  show 0x01000000 + q * 0x10000 + 0x40 ≠ 0x01000000 + p * 0x10000 + off
  omega

theorem chEnWord_ne_ch (q p c off : Nat) (h : off < 0x1000) : chEnWord q ≠ pgCH p c + off := by
  show 0x01000000 + q * 0x10000 + 0x40 ≠ 0x01000000 + p * 0x10000 + 0x1000 + c * 0x4000 + off
  omega

theorem chEnWord_ne_rng (q p c off : Nat) (h : off < 0x1000) : chEnWord q ≠ pgRNG p c + off := by
  show 0x01000000 + q * 0x10000 + 0x40 ≠ 0x01000000 + p * 0x10000 + 0x3000 + c * 0x4000 + off
  omega

theorem chEnWord_ne_key (q off : Nat) (h : off < 0x1000) : chEnWord q ≠ pgKEY + off := by
  show 0x01000000 + q * 0x10000 + 0x40 ≠ 0x07001000 + off
  omega

theorem chEnWord_ne_global (q a : Nat) (h : a < 0x01000000) : chEnWord q ≠ a := by
  show 0x01000000 + q * 0x10000 + 0x40 ≠ a
  omega

theorem pmcWord_chEnWord (q : Nat) : pmcWord (chEnWord q) = false := by
  have h1 := chEnWord_ne_global q (pgPMC + PMC_F_OVF.off) (by decide)
  have h2 := chEnWord_ne_global q (pgPMC + PMC_F_OVF.cntOff) (by decide)
  simp [pmcWord, h1, h2]

/-! ### Operations -/

/-- An event record changes no register but EVT_SEQ of its page, the words of EVT and the overflow words of PMC. -/
theorem reg_postTo (s : State) (b v : Nat) (c : EvCode) (l : List Nat) (a : Nat) (hs : a ≠ b + ANY_EVT_SEQ.off)
    (he : ∀ off < 0x1000, a ≠ pgEVT + off) (hp : pmcWord a = false) : reg (postTo s b v c l) a = reg s a := by
  have counted : reg (bump (setFld s b ANY_EVT_SEQ (fld s b ANY_EVT_SEQ + 1)) pgEVT EVT_C_POSTED 1) a = reg s a := by
    rw [reg_bump _ _ _ _ _ hp, reg_setFld_other _ _ _ _ _ hs]
  have go : ∀ (t : State) (e : EvtSt), reg { t with evt := e } a = reg t a := fun _ _ => rfl
  unfold postTo
  dsimp only
  split
  · split
    · rw [go, reg_setFld_other _ _ _ _ _ (he _ (by decide)), counted]
    · rw [reg_bump _ _ _ _ _ hp, reg_flag _ _ _ _ (he _ (by decide)) (he _ (by decide)) hp, counted]
  · exact counted

theorem chEn_bump (s : State) (b i n q : Nat) : reg (bump s b i n) (chEnWord q) = reg s (chEnWord q) :=
  reg_bump _ _ _ _ _ (pmcWord_chEnWord q)

theorem chEn_flag (s : State) (b : Nat) (f : Flag) (q : Nat) (h1 : chEnWord q ≠ b + f.off) (h2 : chEnWord q ≠ b + f.cntOff) :
    reg (flag s b f) (chEnWord q) = reg s (chEnWord q) := reg_flag _ _ _ _ h1 h2 (pmcWord_chEnWord q)

theorem chEn_postTo (s : State) (b v : Nat) (c : EvCode) (l : List Nat) (q : Nat) (hs : chEnWord q ≠ b + ANY_EVT_SEQ.off) :
    reg (postTo s b v c l) (chEnWord q) = reg s (chEnWord q) :=
  reg_postTo _ _ _ _ _ _ hs (fun off h => chEnWord_ne_global q _ (by have : pgEVT = 0x6000 := rfl; omega)) (pmcWord_chEnWord q)

/-- A flag of a channel's page. -/
theorem chEn_flag_ch (s : State) (p c : Nat) (f : Flag) (q : Nat) (h1 : f.off < 0x1000) (h2 : f.cntOff < 0x1000) :
    reg (flag s (pgCH p c) f) (chEnWord q) = reg s (chEnWord q) :=
  chEn_flag _ _ _ _ (chEnWord_ne_ch q p c _ h1) (chEnWord_ne_ch q p c _ h2)

theorem chEn_postTo_ch (s : State) (p c v : Nat) (e : EvCode) (l : List Nat) (q : Nat) :
    reg (postTo s (pgCH p c) v e l) (chEnWord q) = reg s (chEnWord q) :=
  chEn_postTo _ _ _ _ _ _ (chEnWord_ne_ch q p c _ (by decide))

theorem chEn_judgeSlot (s : State) (m q : Nat) : reg (judgeSlot s m) (chEnWord q) = reg s (chEnWord q) := by
  have heard : ∀ v w, reg (setFld (setFld s pgPRT PRT_HEARD_LINK v) pgPRT PRT_HEARD_PIN w) (chEnWord q) = reg s (chEnWord q) := by
    intro v w
    rw [reg_setFld_other _ _ _ _ _ (chEnWord_ne_global q _ (by decide)), reg_setFld_other _ _ _ _ _ (chEnWord_ne_global q _ (by decide))]
  have go : ∀ (t : State) (r : TickSt), reg (setTick t m r) (chEnWord q) = reg t (chEnWord q) := fun _ _ => rfl
  unfold judgeSlot
  dsimp only
  split
  · split
    · rw [go, heard]
    · rw [go, chEn_bump, heard]
  · rfl

theorem chEn_reportLosCh (s : State) (p c : Nat) (raised : Bool) (q : Nat) :
    reg (reportLosCh s p c raised) (chEnWord q) = reg s (chEnWord q) := by
  have shown : reg (setBit s (pgCH p c) CH_LOS_CH_ACTIVE raised) (chEnWord q) = reg s (chEnWord q) :=
    reg_setFld_other _ _ _ _ _ (chEnWord_ne_ch q p c _ (by decide))
  have go : ∀ (t : State) (n : Nat) (r : PmRec), reg (setChPm t n r) (chEnWord q) = reg t (chEnWord q) := fun _ _ _ => rfl
  unfold reportLosCh
  cases raised
  · exact (chEn_postTo_ch _ _ _ _ _ _ _).trans shown
  · refine (chEn_postTo_ch _ _ _ _ _ _ _).trans ?_
    simp only [if_true]
    rw [go, chEn_bump, chEn_flag_ch _ _ _ _ _ (by decide) (by decide), shown]

theorem chEn_evalLosCh (s : State) (p c q : Nat) : reg (evalLosCh s p c) (chEnWord q) = reg s (chEnWord q) := by
  have go : ∀ (r : ChSt), reg (setChSt s p c r) (chEnWord q) = reg s (chEnWord q) := fun _ => rfl
  simp only [evalLosCh, apply_ite (fun t => reg t (chEnWord q)), chEn_reportLosCh, go, ite_self]

theorem chEn_reportDefect (s : State) (p i d : Nat) (raised : Bool) (q : Nat) :
    reg (reportDefect s p i d raised) (chEnWord q) = reg s (chEnWord q) := by
  have onPon : ∀ (t : State) (f : Flag), f.off < 0x1000 → f.off ≠ 0x40 → f.cntOff < 0x1000 → f.cntOff ≠ 0x40 →
      reg (flag t (pgPON p) f) (chEnWord q) = reg t (chEnWord q) := fun t f h1 h2 h3 h4 =>
    chEn_flag _ _ _ _ (chEnWord_ne_pon q p _ h1 h2) (chEnWord_ne_pon q p _ h3 h4)
  have onRng : ∀ (t : State) (c : Nat), reg (flag t (pgRNG p c) RNG_F_DOW) (chEnWord q) = reg t (chEnWord q) := fun t c =>
    chEn_flag _ _ _ _ (chEnWord_ne_rng q p c _ (by decide)) (chEnWord_ne_rng q p c _ (by decide))
  have go : ∀ (t : State) (r : PmRec), reg (setPmRec t p i r) (chEnWord q) = reg t (chEnWord q) := fun _ _ => rfl
  refine (chEn_postTo _ _ _ _ _ _ (chEnWord_ne_pon q p _ (by decide) (by decide))).trans ?_
  simp only [apply_ite (fun t => reg t (chEnWord q)), go, onRng, ite_self]
  simp only [onPon _ PON_F_SNM (by decide) (by decide) (by decide) (by decide),
    onPon _ PON_F_DEFECT_CHANGE (by decide) (by decide) (by decide) (by decide), ite_self]

theorem chEn_syncReports (s : State) (p i q : Nat) : reg (syncReports s p i) (chEnWord q) = reg s (chEnWord q) := by
  refine (foldl_keeps (fun t => reg t (chEnWord q)) _ (fun t d => ?_) _ _).trans rfl
  split
  · exact chEn_reportDefect _ _ _ _ _ _
  · rfl

theorem chEn_switchKeys (s : State) (p c q : Nat) : reg (switchKeys s p c) (chEnWord q) = reg s (chEnWord q) := by
  have cleared : ∀ r, reg (setFld (setChSt s p c r) (pgCH p c) CH_PENDING 0) (chEnWord q) = reg s (chEnWord q) := fun r =>
    reg_setFld_other _ _ _ _ _ (chEnWord_ne_ch q p c _ (by decide))
  have go : ∀ (t : State) (u : Nat) (r : KeyEntry), reg (setKeyEntry t u r) (chEnWord q) = reg t (chEnWord q) := fun _ _ _ => rfl
  unfold switchKeys
  dsimp only
  split
  · rfl
  · split
    · split
      · rw [chEn_postTo_ch, chEn_flag_ch _ _ _ _ _ (by decide) (by decide), go, cleared]
      · rw [chEn_postTo_ch, chEn_flag_ch _ _ _ _ _ (by decide) (by decide), cleared]
    · rfl

theorem chEn_keyRaise (s : State) (u : Nat) (f : Flag) (q : Nat) (h1 : f.off < 0x1000) (h2 : f.cntOff < 0x1000) :
    reg (keyRaise s u f) (chEnWord q) = reg s (chEnWord q) := by
  rw [keyRaise, chEn_postTo _ _ _ _ _ _ (chEnWord_ne_key q _ (by decide)),
    chEn_flag _ _ _ _ (chEnWord_ne_key q _ h1) (chEnWord_ne_key q _ h2)]

theorem chEn_countKey (s : State) (u q : Nat) : reg (countKey s u) (chEnWord q) = reg s (chEnWord q) := by
  have go : ∀ (r : KeyEntry), reg (setKeyEntry s u r) (chEnWord q) = reg s (chEnWord q) := fun _ => rfl
  have put : ∀ (j : Nat) (k : KeySlot) (warn spent : Bool), reg (putSlot s u j k warn spent) (chEnWord q) = reg s (chEnWord q) := by
    intro j k warn spent
    simp only [putSlot, apply_ite (fun t => reg t (chEnWord q)), chEn_keyRaise _ u KEY_F_PN_WARN q (by decide) (by decide),
      chEn_keyRaise _ u KEY_F_PN_EXHAUST q (by decide) (by decide), go, ite_self]
  unfold countKey
  dsimp only
  split
  · rfl
  · split
    · exact put _ _ _ _
    · rfl

end Sys2Proof.Machine
end

section
/-! SUPPORT. The frame boundary as a whole (R5): the grid moves, the counters start or stop, the classifier ages, every channel of a port in
use opens a frame, and the rest of the view stands. -/

namespace Sys2Proof.Machine

/-! ### Up to the frames -/

/-- The boundary's work before the frames of a released device. -/
def beforeFrames (s : State) : State :=
  let s2 := (List.range 3).foldl judgeSlot (goCounters (gridBoundary s))
  let s3 := (List.range 96).foldl (fun t n =>
    if tget ChSt.init t.pon.ch n = ChSt.init n then t else evalLosCh t (n / 3) (n % 3)) s2
  let s4 := (channelsKept s3).foldl (fun t n => switchKeys t (n / 3) (n % 3)) (ageFrame (syncAll s3))
  (s4.keys.map (·.1)).foldl countKey s4

/-- The supervision microcode takes what waits on the channels. -/
def drained (s : State) : State := (channelsKept s).foldl (fun t n => drainSupervision t (n / 3) (n % 3)) s

/-- The frames of the ports in use. -/
def openedPorts (s : State) : State := (portsInUse s).foldl portBoundary s

theorem exec_frameBoundary (pulls : List Pull) (s : State) (h : s.grid.running = true) :
    exec (.frameBoundary pulls) s =
      if released s then
        .next (ringBoundary (fillFrames (channelsInUse (openedPorts (drained (beforeFrames s)))) pullsMost
          (takePulls (openedPorts (drained (beforeFrames s))) pulls)))
      else .next (ringBoundary (beforeFrames s)) := by
  show execFrameBoundary pulls s = _
  simp only [execFrameBoundary, h, Bool.not_true, Bool.false_eq_true, if_false]
  cases hrel : released s
  · simp only [Bool.not_false, if_true, Bool.false_eq_true, if_false, beforeFrames]
  · simp only [Bool.not_true, if_true, Bool.false_eq_true, if_false, beforeFrames, drained, openedPorts]

/-- The view in which the frames of a boundary open. -/
def boundaryStart (s : State) : BoundaryView :=
  { view s with grid := (gridBoundary s).grid, go := none, running := s.tst.go.getD s.tst.running,
                cls := { s.cls with ageFrames := s.cls.ageFrames + 1 } }

theorem view_goCounters (s : State) : view (goCounters s) = { view s with go := none, running := s.tst.go.getD s.tst.running } := by
  unfold goCounters
  split
  · rename_i b h
    simp [view, h]
  · rename_i h
    simp [view, h]

theorem view_gridBoundary (s : State) : view (gridBoundary s) = { view s with grid := (gridBoundary s).grid } := rfl

theorem view_ageFrame (s : State) :
    view (ageFrame s) = { view s with cls := { (view s).cls with ageFrames := (view s).cls.ageFrames + 1 } } := rfl

theorem view_evalAll (l : List Nat) (s : State) :
    view (l.foldl (fun t n => if tget ChSt.init t.pon.ch n = ChSt.init n then t else evalLosCh t (n / 3) (n % 3)) s) = view s :=
  view_foldl _ (fun t n => by split <;> simp) _ _

theorem view_beforeFrames (s : State) : view (beforeFrames s) = boundaryStart s := by
  unfold beforeFrames
  dsimp only
  rw [view_foldl _ view_countKey, view_foldl _ (fun t n => view_switchKeys t _ _), view_ageFrame, view_syncAll, view_evalAll,
    view_foldl _ view_judgeSlot, view_goCounters, view_gridBoundary]
  rfl

theorem chEn_beforeFrames (s : State) (q : Nat) : reg (beforeFrames s) (chEnWord q) = reg s (chEnWord q) := by
  have keeps : ∀ {α : Type} (f : State → α → State), (∀ t a, reg (f t a) (chEnWord q) = reg t (chEnWord q)) →
      ∀ (l : List α) (t : State), reg (l.foldl f t) (chEnWord q) = reg t (chEnWord q) := fun f h l t =>
    foldl_keeps (fun t => reg t (chEnWord q)) f h l t
  have hgrid : reg (gridBoundary s) (chEnWord q) = reg s (chEnWord q) :=
    reg_setFld_other s pgGRD GRD_ERR _ _ (chEnWord_ne_global q _ (by decide))
  have hgo : ∀ t : State, reg (goCounters t) (chEnWord q) = reg t (chEnWord q) := by
    intro t
    unfold goCounters
    split <;> rfl
  have hage : ∀ t : State, reg (ageFrame t) (chEnWord q) = reg t (chEnWord q) := fun _ => rfl
  unfold beforeFrames
  dsimp only
  rw [keeps _ (fun t u => chEn_countKey t u q), keeps _ (fun t n => chEn_switchKeys t _ _ q), hage, syncAll,
    keeps _ (fun t e => chEn_syncReports t _ _ q), keeps _ (fun t n => ?_), keeps _ (fun t m => chEn_judgeSlot t m q), hgo, hgrid]
  split
  · rfl
  · exact chEn_evalLosCh _ _ _ _

/-! ### No supervision message waits -/

theorem tget_of_all {α : Type} (P : α → Prop) (d : Nat → α) (t : Tbl α) (k : Nat) (ht : ∀ e ∈ t, P e.2) (hd : P (d k)) :
    P (tget d t k) := by
  induction t with
  | nil => exact hd
  | cons e t ih =>
    obtain ⟨j, v⟩ := e
    unfold tget
    split
    · exact ht (j, v) (List.mem_cons_self ..)
    · exact ih (fun e he => ht e (List.mem_cons_of_mem _ he))

theorem upq_nil_of_all (s : State) (h : s.pon.ch.all (fun e => e.2.upq == []) = true) (n : Nat) : ((view s).channel n).2 = [] :=
  tget_of_all (fun x : ChSt => x.upq = []) ChSt.init s.pon.ch n
    (fun e he => eq_of_beq (List.all_eq_true.mp h e he)) rfl

theorem drainSupervision_of_nil (s : State) (p c : Nat) (h : (chSt s p c).upq = []) : drainSupervision s p c = s := by
  rw [drainSupervision, h]
  rfl

/-- Where no message waits, the supervision cluster takes none. -/
theorem drained_of_nil (s : State) (h : ∀ n, ((view s).channel n).2 = []) : drained s = s := by
  unfold drained
  induction channelsKept s with
  | nil => rfl
  | cons n l ih => rw [List.foldl_cons, drainSupervision_of_nil s _ _ (h _), ih]

/-! ### The frames -/

/-- A view without the posted actions, which the frames take off one by one. -/
def BoundaryView.unposted (v : BoundaryView) : BoundaryView := { v with grid := { v.grid with posted := [] } }

/-- A view after channel c of port p has opened its frame. -/
def BoundaryView.opened (v : BoundaryView) (p c : Nat) : BoundaryView :=
  { v with channel := Function.update v.channel (3 * p + c) (superframeOf c v.grid.now.frame, (v.channel (3 * p + c)).2) }

theorem unposted_unpost (s : State) (k : ActKind) : (view (unpost s k)).unposted = (view s).unposted := by
  unfold unpost
  split <;> rfl

theorem view_newFrame (s : State) (p c : Nat) : view (newFrame s p c) = (view s).opened p c := by
  unfold newFrame
  rw [view_setChSt_update]
  rfl

theorem unposted_openFrame (s : State) (p c : Nat) : (view (openFrame s p c)).unposted = (view s).unposted.opened p c := by
  have hnew : (view (newFrame (unpost s (.mapOut p c)) p c)).unposted = (view s).unposted.opened p c := by
    rw [view_newFrame, ← unposted_unpost s (.mapOut p c)]
    rfl
  rw [← hnew]
  congr 1
  unfold openFrame
  dsimp only
  split
  · rfl
  · rw [view_setRoom, view_sendPloams]
    split <;> split <;> simp

theorem unposted_portBoundary (s : State) (p : Nat) :
    (view (portBoundary s p)).unposted = (((view s).unposted.opened p 0).opened p 1).opened p 2 := by
  have hframes : ∀ t : State, (view ((List.range 3).foldl (fun t c => openFrame t p c) t)).unposted =
      (((view t).unposted.opened p 0).opened p 1).opened p 2 := by
    intro t
    simp only [List.range_succ, List.range_zero, List.nil_append, List.foldl_append, List.foldl_cons, List.foldl_nil, unposted_openFrame]
  unfold portBoundary
  dsimp only
  rw [view_foldl _ (fun t (g : Nat × Grp) => view_groupBoundary t p g.1), hframes]
  simp [refreshTx]

/-- The view but for channels and posted actions. -/
def BoundaryView.rest (v : BoundaryView) : BoundaryView := { v.unposted with channel := fun _ => (0, []) }

theorem rest_unposted (v : BoundaryView) : v.unposted.rest = v.rest := rfl

theorem rest_opened (v : BoundaryView) (p c : Nat) : (v.opened p c).rest = v.rest := rfl

theorem rest_openedPorts (s : State) : (view (openedPorts s)).rest = (view s).rest := by
  refine foldl_keeps (fun t => (view t).rest) portBoundary (fun t p => ?_) _ _
  rw [← rest_unposted, unposted_portBoundary, rest_opened, rest_opened, rest_opened, rest_unposted]

/-- Channel c of port p carries the superframe counter of the present frame (R45). -/
def BoundaryView.carries (v : BoundaryView) (p c : Nat) : Prop := (v.channel (3 * p + c)).1 = superframeOf c v.grid.now.frame

theorem carries_opened_self (v : BoundaryView) (p c : Nat) : (v.opened p c).carries p c := by
  simp [BoundaryView.carries, BoundaryView.opened]

theorem carries_opened {v : BoundaryView} {p c : Nat} (q d : Nat) (hc : c < 3) (hd : d < 3) (h : v.carries p c) :
    (v.opened q d).carries p c := by
  by_cases hk : 3 * p + c = 3 * q + d
  · obtain ⟨rfl, rfl⟩ : p = q ∧ c = d := by omega
    exact carries_opened_self v p c
  · simpa [BoundaryView.carries, BoundaryView.opened, hk] using h

theorem carries_unposted (v : BoundaryView) (p c : Nat) : v.unposted.carries p c ↔ v.carries p c := Iff.rfl

theorem carries_portBoundary_self (s : State) (p c : Nat) (hc : c < 3) : (view (portBoundary s p)).carries p c := by
  rw [← carries_unposted, unposted_portBoundary]
  obtain rfl | rfl | rfl : c = 0 ∨ c = 1 ∨ c = 2 := by omega
  · exact carries_opened _ _ hc (by decide) (carries_opened _ _ hc (by decide) (carries_opened_self _ _ _))
  · exact carries_opened _ _ hc (by decide) (carries_opened_self _ _ _)
  · exact carries_opened_self _ _ _

theorem carries_portBoundary {s : State} {p c : Nat} (q : Nat) (hc : c < 3) (h : (view s).carries p c) :
    (view (portBoundary s q)).carries p c := by
  rw [← carries_unposted, unposted_portBoundary]
  exact carries_opened _ _ hc (by decide) (carries_opened _ _ hc (by decide) (carries_opened _ _ hc (by decide) h))

/-- Once a port has opened its frames, its channels carry the counter until the boundary's end. -/
theorem carries_foldl_portBoundary (p c : Nat) (hc : c < 3) (l : List Nat) (s : State) (h : p ∈ l ∨ (view s).carries p c) :
    (view (l.foldl portBoundary s)).carries p c := by
  induction l generalizing s with
  | nil => simpa using h
  | cons q l ih =>
    rw [List.foldl_cons]
    apply ih
    rcases h with h | h
    · rcases List.mem_cons.mp h with rfl | h
      · exact .inr (carries_portBoundary_self s p c hc)
      · exact .inl h
    · exact .inr (carries_portBoundary q hc h)

theorem mem_portsInUse (s : State) (p : Nat) (hp : p < 32) (h : fld s (pgPON p) PON_CH_EN ≠ 0) : p ∈ portsInUse s := by
  simp [portsInUse, hp, h]

/-! ### The boundary -/

/-- FRAME_BOUNDARY of a running grid on which no supervision message is taken. -/
theorem frameBoundary_rest (s : State) (pulls : List Pull) (h : s.grid.running = true)
    (hq : released s = false ∨ s.pon.ch.all (fun e => e.2.upq == []) = true) :
    ∃ t, exec (.frameBoundary pulls) s = .next t ∧ (view t).rest = (boundaryStart s).rest := by
  rw [exec_frameBoundary pulls s h]
  rcases hrel : released s
  · exact ⟨_, rfl, by rw [view_ringBoundary, view_beforeFrames]⟩
  · have hd : drained (beforeFrames s) = beforeFrames s := by
      apply drained_of_nil
      rw [view_beforeFrames]
      exact upq_nil_of_all s (hq.resolve_left (by simp [hrel]))
    exact ⟨_, rfl, by rw [hd, view_ringBoundary, view_fillFrames, view_takePulls, rest_openedPorts, view_beforeFrames]⟩

/-- The superframe counters of a port whose channels are enabled. -/
theorem frameBoundary_carries (s : State) (pulls : List Pull) (p c : Nat) (h : s.grid.running = true) (hrel : released s = true)
    (hq : s.pon.ch.all (fun e => e.2.upq == []) = true) (hp : p < 32) (hc : c < 3) (hen : fld s (pgPON p) PON_CH_EN ≠ 0) :
    ∃ t, exec (.frameBoundary pulls) s = .next t ∧ (view t).rest = (boundaryStart s).rest ∧ (view t).carries p c := by
  obtain ⟨t, ht, hrest⟩ := frameBoundary_rest s pulls h (.inr hq)
  refine ⟨t, ht, hrest, ?_⟩
  have hd : drained (beforeFrames s) = beforeFrames s := by
    apply drained_of_nil
    rw [view_beforeFrames]
    exact upq_nil_of_all s hq
  have hmem : p ∈ portsInUse (beforeFrames s) := by
    refine mem_portsInUse _ p hp ?_
    rwa [fld, show pgPON p + PON_CH_EN.off = chEnWord p from rfl, chEn_beforeFrames]
  rw [exec_frameBoundary pulls s h, if_pos hrel, hd] at ht
  obtain rfl := Host.Outcome.next.inj ht
  rw [view_ringBoundary, view_fillFrames, view_takePulls]
  exact carries_foldl_portBoundary p c hc _ _ (.inl hmem)

end Sys2Proof.Machine
end

section
/-! SUPPORT. The grid second (R66, R70, R256, R259): records of ONUs, channels and links end their second, and the view stands. -/

namespace Sys2Proof.Machine

@[simp] theorem view_invalidatePhase (s : State) (p c i : Nat) : view (invalidatePhase s p c i) = view s := by
  unfold invalidatePhase
  split <;> simp

@[simp] theorem view_detect (s : State) (p i d : Nat) : view (detect s p i d) = view s := by
  unfold detect
  dsimp only
  split <;> simp

@[simp] theorem view_undetect (s : State) (p i d : Nat) : view (undetect s p i d) = view s := by
  unfold undetect
  dsimp only
  split <;> simp

@[simp] theorem view_raiseDefect (s : State) (p i d : Nat) : view (raiseDefect s p i d) = view s := by
  simp only [raiseDefect, apply_ite view, view_bump, view_setOnuState, view_setRng, view_invalidatePhase, view_detect, ite_self]

@[simp] theorem view_clearDefect (s : State) (p i d : Nat) : view (clearDefect s p i d) = view s := by
  simp only [clearDefect, apply_ite view, view_bump, view_setOnuState, view_undetect, ite_self]

@[simp] theorem view_signalFail (s : State) (p i d x : Nat) (m : PmRec) : view (signalFail s p i d x m) = view s := by
  simp only [signalFail, apply_ite view, view_raiseDefect, view_clearDefect, ite_self]

@[simp] theorem view_onuSecond (s : State) (p i : Nat) : view (onuSecond s p i) = view s := by
  unfold onuSecond
  dsimp only
  split
  · simp
  · rw [view_setPmRec, view_signalFail, view_signalFail, view_foldl _ (fun t j => view_onuBump t p i _ 1), view_setPmRec]

@[simp] theorem view_channelSecond (s : State) (p c : Nat) : view (channelSecond s p c) = view s :=
  (view_foldl _ (fun t j => view_bump t (pgCH p c) (CH_C_ES + j) 1) _ _).trans (view_setChPm _ _ _)

@[simp] theorem view_linkSecond (s : State) (m : Nat) : view (linkSecond s m) = view s := by
  have counted : ∀ (l : List Nat) (t : State), view (l.foldl (fun t j => bump t (pgMSH m) (MSH_C_ES + j) 1) t) = view t :=
    view_foldl _ (fun t j => view_bump t _ _ _)
  simp only [linkSecond, apply_ite view, view_setLinkDefect, counted, view_setHex, ite_self]

/-! ### The seconds of links leave the PON side -/

theorem pon_foldl {α : Type} (f : State → α → State) (h : ∀ t a, (f t a).pon = t.pon) (l : List α) (s : State) :
    (l.foldl f s).pon = s.pon := foldl_keeps (·.pon) f h l s

theorem pon_reportLink (s : State) (m old new : Nat) : (reportLink s m old new).pon = s.pon := by
  unfold reportLink
  dsimp only
  split
  · rfl
  · rw [pon_foldl _ (fun t d => by split <;> simp), pon_foldl _ (fun t d => by split <;> simp)]
    simp

theorem pon_flushLink (s : State) (m reason : Nat) : (flushLink s m reason).pon = s.pon := by
  simp only [flushLink, bump_frame, raise_frame, setFld_frame]
  rfl

theorem pon_setLinkDefect (s : State) (m d : Nat) (raised : Bool) : (setLinkDefect s m d raised).pon = s.pon := by
  simp only [setLinkDefect, setLinkDefects, apply_ite State.pon, pon_flushLink, raise_frame, pon_reportLink, setFld_frame, setHex_frame,
    ite_self]

theorem pon_linkSecond (s : State) (m : Nat) : (linkSecond s m).pon = s.pon := by
  have counted : ∀ (l : List Nat) (t : State), (l.foldl (fun t j => bump t (pgMSH m) (MSH_C_ES + j) 1) t).pon = t.pon :=
    pon_foldl _ (fun t j => by simp)
  simp only [linkSecond, apply_ite State.pon, pon_setLinkDefect, counted, setHex_frame, ite_self]

/-- A channel's second stores its monitoring record and counts. -/
theorem pon_channelSecond (s : State) (p c : Nat) :
    (channelSecond s p c).pon = (setChPm s (3 * p + c)
      ((if isSet s (pgPON p) PON_PM_EN then (chPm s (3 * p + c)).second (fld s (pgPON p) PON_SES_PCT) else (chPm s (3 * p + c), none)).1.fresh
        (isSet s (pgCH p c) CH_LOS_CH_ACTIVE))).pon :=
  pon_foldl _ (fun t j => by simp) _ _

/-! ### The second -/

/-- The seconds of all records, channels and links. -/
def allSeconds (s u : State) : State :=
  (List.range 3).foldl linkSecond ((s.pon.chPm.map (·.1)).foldl (fun t n => channelSecond t (n / 3) (n % 3))
    ((s.pon.pm.map (·.1)).foldl (fun t e => onuSecond t (e / 512) (e % 512)) u))

/-- GRID_SECOND at the first boundary of a second that is not taken yet. The model has two constants of 8,000 frames a second, so its branch
condition is matched by definition and not by rewriting. -/
theorem exec_gridSecond (s : State) (h : s.grid.running = true) (hf : frame s % framesPerSecond = 0)
    (hk : s.grid.second ≠ frame s / framesPerSecond) :
    exec .gridSecond s = .next (allSeconds s { s with grid := { s.grid with second := frame s / framesPerSecond } }) := by
  have hcond : (!s.grid.running || frame s % framesPerSecond != 0 || s.grid.second == frame s / framesPerSecond) = false := by
    rw [h, hf, beq_false_of_ne hk]
    rfl
  exact if_neg (ne_true_of_eq_false hcond)

theorem view_allSeconds (s u : State) : view (allSeconds s u) = view u := by
  unfold allSeconds
  rw [view_foldl _ view_linkSecond, view_foldl _ (fun t n => view_channelSecond t _ _), view_foldl _ (fun t e => view_onuSecond t _ _)]

theorem grid_eq_of_view {s t : State} (h : view t = view s) : t.grid = s.grid := congrArg BoundaryView.grid h

theorem books_eq_of_view {s t : State} (h : view t = view s) : (t.jrn, t.own, t.boot) = (s.jrn, s.own, s.boot) :=
  congrArg (fun v : BoundaryView => (v.jrn, v.own, v.boot)) h

/-- Where only channel n is monitored, the second of PON is this channel's. -/
theorem pon_allSeconds (s u : State) (n : Nat) (m : PmRec) (hpm : s.pon.pm = []) (hch : s.pon.chPm = [(n, m)]) :
    (allSeconds s u).pon = (channelSecond u (n / 3) (n % 3)).pon := by
  unfold allSeconds
  rw [pon_foldl _ pon_linkSecond, hpm, hch]
  rfl

end Sys2Proof.Machine
end

section
/-! SUPPORT. The performance counters (R330): what latching and counting leave, and what the record leaves of the counter window. -/

namespace Sys2Proof.Machine

/-! ### Counters -/

theorem pmc_setPmc (s : State) (k j : Nat) (c : Pmc) : pmc (setPmc s k c) j = if j = k then c else pmc s j :=
  tget_tset Pmc.init s.tst.pmc k j c

theorem only_setPmc (s : State) (k : Nat) (c : Pmc) : Only [.pmc] s (setPmc s k c) := by
  intro p hp
  cases p
  case pmc => simp at hp
  all_goals rfl

theorem only_freeCtr (s : State) (n : Nat) : Only [.freeCtr] s { s with freeCtr := n } := by
  intro p hp
  cases p
  case freeCtr => simp at hp
  all_goals rfl

/-- A fold over counters of a step that acts on the counter it is given, and on counter k by an idempotent f. -/
theorem pmc_foldl {step : State → Nat → State} {f : Pmc → Pmc} {P : Pmc → Prop} {k : Nat}
    (hself : ∀ t, P (pmc t k) → pmc (step t k) k = f (pmc t k)) (hother : ∀ t j, j ≠ k → pmc (step t j) k = pmc t k)
    (hf : ∀ c, f (f c) = f c) (hP : ∀ c, P c → P (f c)) (l : List Nat) (s : State) (hs : P (pmc s k))
    (h : k ∈ l ∨ f (pmc s k) = pmc s k) : pmc (l.foldl step s) k = f (pmc s k) := by
  induction l generalizing s with
  | nil => exact (h.resolve_left (by simp)).symm
  | cons j l ih =>
    rw [List.foldl_cons]
    by_cases hj : j = k
    · subst hj
      have hstep := hself s hs
      rw [ih (step s j) (by rw [hstep]; exact hP _ hs) (.inr (by rw [hstep, hf])), hstep, hf]
    · have hstep := hother s j hj
      rw [ih (step s j) (by rwa [hstep]) ?_, hstep]
      rw [hstep]
      exact h.imp_left (fun hm => (List.mem_cons.mp hm).resolve_left (Ne.symm hj))

/-- A counter whose count has been latched into VALUE. -/
def Pmc.latched (c : Pmc) : Pmc := { c with value := c.count, snap := true }

theorem levelCount_of_event (s : State) (k : Nat) (h : (pmc s k).level = false) : levelCount s k = s := by
  simp [levelCount, h]

theorem pmc_latchPmc_self (s : State) (k : Nat) (h : (pmc s k).level = false) : pmc (latchPmc s k) k = (pmc s k).latched := by
  rw [latchPmc, levelCount_of_event s k h, pmc_setPmc, if_pos rfl]
  rfl

theorem pmc_latchPmc_other (s : State) (j k : Nat) (h : j ≠ k) : pmc (latchPmc s j) k = pmc s k := by
  have hlevel : pmc (levelCount s j) k = pmc s k := by
    unfold levelCount
    dsimp only
    split
    · rw [pmc_setPmc, if_neg (Ne.symm h)]; rfl
    · rfl
  rw [latchPmc, pmc_setPmc, if_neg (Ne.symm h), hlevel]

theorem only_latchPmc (s : State) (k : Nat) : Only [.pmc, .freeCtr] s (latchPmc s k) := by
  have hlevel : Only [.pmc, .freeCtr] s (levelCount s k) := by
    unfold levelCount
    dsimp only
    split
    · exact ((only_freeCtr s _).mono (by decide)).trans ((only_setPmc _ _ _).mono (by decide))
    · exact Only.refl _ s
  exact hlevel.trans ((only_setPmc _ _ _).mono (by decide))

theorem only_foldl {α : Type} {l : List Part} (f : State → α → State) (h : ∀ t a, Only l t (f t a)) (xs : List α) (s : State) :
    Only l s (xs.foldl f s) := by
  induction xs generalizing s with
  | nil => exact Only.refl l s
  | cons x xs ih => exact (h s x).trans (ih _)

/-- What a snapshot touches. -/
theorem only_snapPmc (s : State) (l : List Nat) : Only [.freeCtr, .regs, .cnt, .pmc] s (snapPmc s l) :=
  ((only_foldl _ only_latchPmc l s).mono (by decide)).trans ((only_bump _ _ _ _).mono (by decide))

/-- A snapshot latches every counter of its list that counts events. -/
theorem setup_snapPmc (s : State) (l : List Nat) (k : Nat) (hk : k ∈ l) (h : (pmc s k).level = false) :
    (pmc (snapPmc s l) k).setup = (pmc s k).latched.setup := by
  rw [snapPmc, setup_bump, pmc_foldl (f := Pmc.latched) (P := fun c => c.level = false) (fun t => pmc_latchPmc_self t k)
    (fun t j => pmc_latchPmc_other t j k) (fun _ => rfl) (fun _ hc => hc) l s h (.inl hk)]

theorem mem_groupKeys (g k : Nat) (h : k / 8 = g) : k ∈ groupKeys g := by
  simp only [groupKeys, List.mem_map, List.mem_range]
  exact ⟨k % 8, by omega, by omega⟩

/-! ### The record while the counters stand -/

theorem tst_bump_stopped (s : State) (b i n : Nat) (h : s.tst.running = false) : (bump s b i n).tst = s.tst := by
  have := congrArg State.tst (pmcCount_stopped (setCnt s (cntAddr b i) (min cntMax (cntAt s (cntAddr b i) + n))) b i n h)
  exact this

theorem tst_flag_stopped (s : State) (b : Nat) (f : Flag) (h : s.tst.running = false) : (flag s b f).tst = s.tst := by
  have hset : ∀ n, (bumpFld (setFld s b ⟨f.off, f.bit, 1, 0⟩ 1) b ⟨f.cntOff, f.cntLsb, 16, 0⟩ n).tst = s.tst := fun n => by simp
  unfold flag
  dsimp only
  split
  · split
    · rw [pmcCount_stopped _ _ _ _ (by rw [hset, h]), hset]
    · exact hset 1
  · exact hset 1

theorem tst_journal_stopped (s : State) (o : Origin) (c a : Nat) (x y m : Word) (h : s.tst.running = false) :
    (journal s o c a x y m).tst = s.tst := by
  have rejected : (if c = 0 then bump s pgJRN JRN_C_RECORDS 1
      else bump (bump s pgJRN JRN_C_RECORDS 1) pgJRN JRN_C_REJECTED 1).tst = s.tst := by
    have hb := tst_bump_stopped s pgJRN JRN_C_RECORDS 1 h
    split
    · exact hb
    · rw [tst_bump_stopped _ _ _ _ (by rw [hb, h]), hb]
  unfold journal
  dsimp only
  split
  · refine Eq.trans ?_ ((tst_bump_stopped _ pgJRN JRN_C_LOST 1 (by rw [rejected, h])).trans rejected)
    simp
  · exact rejected

/-- While the performance counters stand, a record leaves them as they are. -/
theorem tst_record_stopped (s : State) (o : Origin) (c a : Nat) (x y m : Word) (h : s.tst.running = false) :
    (record s o c a x y m).tst = s.tst := by
  have hj := tst_journal_stopped s o c a x y m h
  unfold record
  dsimp only
  split
  · have hf : (flag (journal s o c a x y m) pgSLC SLC_F_OWN_REJ).tst = s.tst := by
      rw [tst_flag_stopped _ _ _ (by rw [hj, h]), hj]
    exact hf
  · exact hj

/-! ### Fields after a record -/

theorem recordPage_of_pmc (b : Nat) (hb : b / 0x1000 = 9) (h1 : b ≠ 0x9070) (h2 : b ≠ 0x90C0) : recordPage b = false := by
  simp [recordPage, pmcWord, hb, pgJRN, pgSLC, pgPMC, PMC_F_OVF, h1, h2]

theorem fld_record (s : State) (o : Origin) (c a : Nat) (x y m : Word) (b : Nat) (f : Fld) (h : recordPage (b + f.off) = false) :
    fld (record s o c a x y m) b f = fld s b f := by
  rw [fld, fld, reg_record _ _ _ _ _ _ _ _ h]

theorem isSet_record (s : State) (o : Origin) (c a : Nat) (x y m : Word) (b : Nat) (f : Fld) (h : recordPage (b + f.off) = false) :
    isSet (record s o c a x y m) b f = isSet s b f := by
  rw [isSet, isSet, fld_record _ _ _ _ _ _ _ _ _ h]

theorem wordsAt_record (s : State) (o : Origin) (c a : Nat) (x y m : Word) (b n : Nat)
    (h : ∀ d, b ≤ d → d < b + 4 * n → recordPage d = false) : wordsAt (record s o c a x y m) b n = wordsAt s b n :=
  wordsAt_eq _ _ _ _ (fun d h1 h2 => reg_record _ _ _ _ _ _ _ _ (h d h1 h2))

/-! ### CFG_REJ, which shares its word with OVF -/

/-- CFG_REJ as a field. -/
def cfgRej : Fld := ⟨PMC_F_CFG_REJ.off, PMC_F_CFG_REJ.bit, 1, 0⟩

theorem cfgRej_pmcCount (s : State) (b e n : Nat) : fld (pmcCount s b e n) pgPMC cfgRej = fld s pgPMC cfgRej := by
  unfold pmcCount
  split
  · refine foldl_keeps (fun t : State => fld t pgPMC cfgRej) _ (fun t x => ?_) _ _
    dsimp only
    split
    · split
      · rw [bumpFld, fld_setFld_other _ _ _ _ _ _ (by decide) (by decide), fld_setFld_other _ _ _ _ _ _ (by decide) (by decide)]
        rfl
      · rfl
    · rfl
  · rfl

theorem cfgRej_bump (s : State) (b i n : Nat) : fld (bump s b i n) pgPMC cfgRej = fld s pgPMC cfgRej := cfgRej_pmcCount _ b i n

theorem cfgRej_flag (s : State) : fld (flag s pgPMC PMC_F_CFG_REJ) pgPMC cfgRej = 1 := by
  have hset : fld (bumpFld (setFld s pgPMC cfgRej 1) pgPMC ⟨PMC_F_CFG_REJ.cntOff, PMC_F_CFG_REJ.cntLsb, 16, 0⟩ 1) pgPMC cfgRej = 1 := by
    rw [bumpFld, fld_setFld_other _ _ _ _ _ _ (by decide) (by decide), fld_setFld_same _ _ _ _ (by decide)]
    rfl
  unfold flag
  dsimp only
  split
  · split
    · rw [cfgRej_pmcCount]; exact hset
    · exact hset
  · exact hset

/-- The record of a rejected value leaves CFG_REJ. -/
theorem cfgRej_record (s : State) (o : Origin) (a : Nat) (x y m : Word) :
    fld (record s o 1 a x y m) pgPMC cfgRej = fld s pgPMC cfgRej := by
  show fld (journal s o 1 a x y m) pgPMC cfgRej = _
  have go : ∀ (t : State) (j : JrnSt), fld { t with jrn := j } pgPMC cfgRej = fld t pgPMC cfgRej := fun _ _ => rfl
  unfold journal
  dsimp only
  rw [go]
  split
  · rw [fld_setReg_other _ _ _ _ _ (by decide), bumpFld, fld_setFld_other _ _ _ _ _ _ (by decide) (by decide), cfgRej_bump]
    simp only [one_ne_zero, if_false, cfgRej_bump]
  · simp only [one_ne_zero, if_false, cfgRej_bump]

end Sys2Proof.Machine
end

section
/-! PROOF. O57, the counters' windows: PMC_START, STOP, SNAPSHOT, COUNTER_READ and WRITE, GROUP_CLEAR and SNAPSHOT (R330). -/

namespace Sys2Proof.Machine

/-! ### The two command words -/

/-- A command of GO_CMD is its body and one record. -/
theorem goCmd_leaves {l : List Part} {o : Origin} {s : State} (body : State → State)
    (h : addrReject s o (pgPMC + PMC_GO_CMD.off) = none) (hb : Only l s (body s)) (hj : Part.jrn ∉ l) (hg : Part.grid ∉ l) :
    (∃ x y m, goCmd o body s = record (body s) o 0 (pgPMC + PMC_GO_CMD.off) x y m) ∧
    Answered s (goCmd o body s) o 0 (pgPMC + PMC_GO_CMD.off) ∧ Only (l ++ books) s (goCmd o body s) := by
  refine ⟨⟨_, _, _, command_ok o _ _ _ s h⟩, answered_command o _ _ (fun s => (body s, 0)) s h hb hj hg,
    only_command o _ _ _ s h (hb.mono (fun p hp => List.mem_append_left _ hp)) (fun p hp => List.mem_append_right _ hp)⟩

/-- A command of the counter window is its body, on a cleared STAT, and one record. -/
theorem pmcCmd_leaves {l : List Part} {o : Origin} {body : State → Nat → Nat → State × Nat} {s u : State} {g k c : Nat}
    (h : addrReject s o (pgPMC + PMC_CMD.off) = none) (hgrp : g = fld s pgPMC PMC_GRP) (hk : k = 8 * g + fld s pgPMC PMC_CTR)
    (hr : body (pmcStat s false) g k = (u, c)) (hb : Only l (pmcStat s false) u) (hl : Part.regs ∈ l)
    (hj : Part.jrn ∉ l) (hg : Part.grid ∉ l) :
    (∃ x y m, pmcCmd o body s = record u o c (pgPMC + PMC_CMD.off) x y m) ∧
    Answered s (pmcCmd o body s) o c (pgPMC + PMC_CMD.off) ∧ Only (l ++ books) s (pmcCmd o body s) := by
  subst hgrp hk
  have hu : Only l s u := ((only_setFld s _ _ _).mono (by simpa using hl)).trans hb
  have hcmd := command_ok o (pgPMC + PMC_CMD.off) (pgPMC + PMC_GRP.off) (fun s =>
    body (pmcStat s false) (fld s pgPMC PMC_GRP) (8 * fld s pgPMC PMC_GRP + fld s pgPMC PMC_CTR)) s h
  rw [hr] at hcmd
  refine ⟨⟨_, _, _, hcmd⟩, ?_, ?_⟩
  · rw [pmcCmd, hcmd]
    exact answered_record _ _ _ _ _ _ _ _ (hu .jrn hj) (hu .grid hg)
  · rw [pmcCmd, hcmd]
    exact (hu.mono (fun p hp => List.mem_append_left _ hp)).trans
      ((only_record _ _ _ _ _ _ _).mono (fun p hp => List.mem_append_right _ hp))

/-! ### Start, stop and snapshots -/

theorem only_go (s : State) (g : Option Bool) : Only [.pmcGo] s { s with tst := { s.tst with go := g } } := by
  intro p hp
  cases p
  case pmcGo => simp at hp
  all_goals rfl

/-- START and STOP note what the next boundary is to do. -/
theorem goCmd_go (s : State) (o : Origin) (b : Bool) (h : addrReject s o (pgPMC + PMC_GO_CMD.off) = none)
    (t : State) (ht : t = goCmd o (fun s => { s with tst := { s.tst with go := some b } }) s) :
    t.tst.go = some b ∧ t.tst.running = s.tst.running ∧ Answered s t o 0 (pgPMC + PMC_GO_CMD.off) ∧ Only (.pmcGo :: books) s t := by
  obtain ⟨⟨x, y, m, hrec⟩, hans, honly⟩ := goCmd_leaves (fun s => { s with tst := { s.tst with go := some b } }) h
    (only_go s (some b)) (by decide) (by decide)
  have hgo := only_record { s with tst := { s.tst with go := some b } } o 0 (pgPMC + PMC_GO_CMD.off) x y m .pmcGo (by decide)
  rw [← hrec] at hgo
  subst ht
  exact ⟨congrArg Prod.snd hgo, congrArg Prod.fst hgo, hans, honly⟩

/-- A latched counter after the record: VALUE holds the count, and the snapshot is unread. -/
theorem latched_of_setup {c x : Pmc} (h : c.setup = x.latched.setup) : (c.value, c.snap) = (x.count, true) :=
  congrArg (fun c : Pmc => (c.value, c.snap)) h

theorem pmcSnapshot_completes (s : State) (o : Origin) (k : Nat) (h : addrReject s o (pgPMC + PMC_GO_CMD.off) = none)
    (hk : k ∈ pmcKeys s) (hlevel : (pmc s k).level = false) :
    Completes (.pmcSnapshot o) s (fun t => ((pmc t k).value, (pmc t k).snap) = ((pmc s k).count, true) ∧
      Answered s t o 0 (pgPMC + PMC_GO_CMD.off) ∧ Only (.freeCtr :: books) s t) := by
  obtain ⟨⟨x, y, m, hrec⟩, hans, honly⟩ := goCmd_leaves (fun s => snapPmc s (pmcKeys s)) h
    (only_snapPmc s (pmcKeys s)) (by decide) (by decide)
  refine ⟨_, rfl, latched_of_setup ?_, hans, honly.mono (by decide)⟩
  rw [hrec, setup_record, setup_snapPmc s _ k hk hlevel]

theorem pmc_pmcStat (s : State) (b : Bool) (k : Nat) : pmc (pmcStat s b) k = pmc s k := by simp [pmc, pmcStat]

theorem pmcGroupSnapshot_completes (s : State) (o : Origin) (g k : Nat) (h : addrReject s o (pgPMC + PMC_CMD.off) = none)
    (hgrp : g = fld s pgPMC PMC_GRP) (hk : k / 8 = g) (hlevel : (pmc s k).level = false) :
    Completes (.pmcGroupSnapshot o) s (fun t => ((pmc t k).value, (pmc t k).snap) = ((pmc s k).count, true) ∧
      Answered s t o 0 (pgPMC + PMC_CMD.off) ∧ Only (.freeCtr :: books) s t) := by
  obtain ⟨⟨x, y, m, hrec⟩, hans, honly⟩ := pmcCmd_leaves (o := o) (body := fun s g _ => (snapPmc s (groupKeys g), 0)) h hgrp rfl rfl
    (only_snapPmc _ _) (by decide) (by decide) (by decide)
  refine ⟨_, rfl, latched_of_setup ?_, hans, honly.mono (by decide)⟩
  rw [hrec, setup_record, setup_snapPmc _ _ k (mem_groupKeys g k hk) (by rwa [pmc_pmcStat]), pmc_pmcStat]

theorem pmcGroupClear_completes (s : State) (o : Origin) (g k : Nat) (h : addrReject s o (pgPMC + PMC_CMD.off) = none)
    (hgrp : g = fld s pgPMC PMC_GRP) (hk : k / 8 = g) (hstop : s.tst.running = false) :
    Completes (.pmcGroupClear o) s (fun t => pmc t k = { pmc s k with count := 0 } ∧
      Answered s t o 0 (pgPMC + PMC_CMD.off) ∧ Only books s t) := by
  have honlyClear := only_foldl (fun t k => setPmc t k { pmc t k with count := 0 }) (fun t j => only_setPmc t j _) (groupKeys g) (pmcStat s false)
  obtain ⟨⟨x, y, m, hrec⟩, hans, honly⟩ := pmcCmd_leaves (l := [.pmc, .regs]) (o := o)
    (body := fun s g _ => ((groupKeys g).foldl (fun t k => setPmc t k { pmc t k with count := 0 }) s, 0)) h hgrp rfl rfl
    (honlyClear.mono (by decide)) (by decide) (by decide) (by decide)
  have hclear := pmc_foldl (f := Pmc.setup) (P := fun _ => True) (k := k) (step := fun t k => setPmc t k { pmc t k with count := 0 })
    (fun t _ => by rw [pmc_setPmc, if_pos rfl]; rfl) (fun t j hj => by rw [pmc_setPmc, if_neg (Ne.symm hj)]) (fun _ => rfl) (fun _ _ => trivial)
    (groupKeys g) (pmcStat s false) trivial (.inl (mem_groupKeys g k hk))
  have hgo := honlyClear .pmcGo (by decide)
  refine ⟨_, rfl, ?_, hans, honly.mono (by decide)⟩
  rw [hrec, pmc, tst_record_stopped]
  · exact hclear.trans (by rw [pmc_pmcStat]; rfl)
  · exact (congrArg Prod.fst hgo).trans (by simp [pmcStat, hstop])

/-! ### The counter window -/

/-- The counter window shows a counter: its settings and VALUE. -/
def Shows (t : State) (c : Pmc) : Prop :=
  (fld t pgPMC PMC_EVENT, fld t pgPMC PMC_INST, isSet t pgPMC PMC_MODE, isSet t pgPMC PMC_CHAIN, isSet t pgPMC PMC_EN) =
    (c.event % 4096, c.inst % 4096, c.level, c.chain, c.en) ∧
  wordsAt t (pgPMC + PMC_VALUE.off) 2 = twoWords c.value

theorem shows_showPmc (s : State) (c : Pmc) : Shows (showPmc s c) c := by
  have below : ∀ (t : State) (f : Fld), pgPMC + f.off < pgPMC + PMC_VALUE.off →
      fld (setWords t (pgPMC + PMC_VALUE.off) (twoWords c.value)) pgPMC f = fld t pgPMC f := fun t f hf => by
    rw [fld, fld, reg_setWords_below _ _ _ _ hf]
  have other : ∀ (t : State) (f g : Fld) (v : Nat), f.lsb + f.width ≤ 32 → (g.lsb + g.width ≤ f.lsb ∨ f.lsb + f.width ≤ g.lsb) →
      fld (setFld t pgPMC f v) pgPMC g = fld t pgPMC g := fun t f g v hf hd => fld_setFld_other _ _ _ _ _ _ hf (.inr hd)
  have bit : ∀ (t : State) (f : Fld) (v : Bool), f.lsb < 32 → f.width = 1 → fld (setBit t pgPMC f v) pgPMC f = v.toNat := fun t f v hl hw => by
    rw [setBit, fld_setFld_same _ _ _ _ (by omega), hw]
    cases v <;> rfl
  have toBool : ∀ v : Bool, (v.toNat == 1) = v := by decide
  refine ⟨?_, wordsAt_setWords _ _ (twoWords c.value)⟩
  have hevent : fld (showPmc s c) pgPMC PMC_EVENT = c.event % 4096 := by
    rw [showPmc, below _ _ (by decide), setBit, other _ _ _ _ (by decide) (by decide), setBit, other _ _ _ _ (by decide) (by decide),
      setBit, other _ _ _ _ (by decide) (by decide), other _ _ _ _ (by decide) (by decide), fld_setFld_same _ _ _ _ (by decide)]
    rfl
  have hinst : fld (showPmc s c) pgPMC PMC_INST = c.inst % 4096 := by
    rw [showPmc, below _ _ (by decide), setBit, other _ _ _ _ (by decide) (by decide), setBit, other _ _ _ _ (by decide) (by decide),
      setBit, other _ _ _ _ (by decide) (by decide), fld_setFld_same _ _ _ _ (by decide)]
    rfl
  have hmode : isSet (showPmc s c) pgPMC PMC_MODE = c.level := by
    rw [isSet, showPmc, below _ _ (by decide), setBit, other _ _ _ _ (by decide) (by decide), setBit, other _ _ _ _ (by decide) (by decide),
      bit _ _ _ (by decide) rfl, toBool]
  have hchain : isSet (showPmc s c) pgPMC PMC_CHAIN = c.chain := by
    rw [isSet, showPmc, below _ _ (by decide), setBit, other _ _ _ _ (by decide) (by decide), bit _ _ _ (by decide) rfl, toBool]
  have hen : isSet (showPmc s c) pgPMC PMC_EN = c.en := by
    rw [isSet, showPmc, below _ _ (by decide), bit _ _ _ (by decide) rfl, toBool]
  rw [hevent, hinst, hmode, hchain, hen]

theorem Shows.record {u : State} {c : Pmc} (h : Shows u c) (o : Origin) (e a : Nat) (x y m : Word) : Shows (record u o e a x y m) c := by
  obtain ⟨hset, hval⟩ := h
  refine ⟨?_, ?_⟩
  · rw [fld_record _ _ _ _ _ _ _ _ _ (by decide), fld_record _ _ _ _ _ _ _ _ _ (by decide), isSet_record _ _ _ _ _ _ _ _ _ (by decide),
      isSet_record _ _ _ _ _ _ _ _ _ (by decide), isSet_record _ _ _ _ _ _ _ _ _ (by decide), hset]
  · rw [wordsAt_record _ _ _ _ _ _ _ _ _ (fun d h1 h2 => ?_), hval]
    have hv : pgPMC + PMC_VALUE.off = 0x9090 := rfl
    rw [hv] at h1 h2
    exact recordPage_of_pmc d (by omega) (by omega) (by omega)

theorem only_showPmc (s : State) (c : Pmc) : Only [.regs] s (showPmc s c) :=
  ((((((only_setFld s _ _ _).trans (only_setFld _ _ _ _)).trans (only_setBit _ _ _ _)).trans (only_setBit _ _ _ _)).trans
    (only_setBit _ _ _ _)).trans (only_setWords _ _ _))

theorem pmc_showPmc (s : State) (c : Pmc) (k : Nat) : pmc (showPmc s c) k = pmc s k :=
  congrArg (fun x => tget Pmc.init x k) (only_showPmc s c .pmc (by decide))

/-- The counter that a read shows: the unread snapshot, or else the count now. -/
def Pmc.readout (c : Pmc) : Pmc := { c with value := if c.snap then c.value else c.count, snap := false }

/-- A read's counter, latched where no snapshot waits. -/
def latchedForRead (s : State) (k : Nat) : State := if (pmc s k).snap then s else latchPmc s k

theorem pmc_latchedForRead (s : State) (k : Nat) (h : (pmc s k).snap = true ∨ (pmc s k).level = false) :
    { pmc (latchedForRead s k) k with snap := false } = (pmc s k).readout := by
  unfold latchedForRead Pmc.readout
  by_cases hs : (pmc s k).snap = true
  · simp [hs]
  · rw [if_neg hs, if_neg hs, pmc_latchPmc_self s k (h.resolve_left hs)]
    rfl

theorem only_latchedForRead (s : State) (k : Nat) (h : (pmc s k).snap = true ∨ (pmc s k).level = false) :
    Only [.pmc] s (latchedForRead s k) := by
  unfold latchedForRead
  split
  · exact Only.refl _ s
  · rename_i hs
    rw [latchPmc, levelCount_of_event s k (h.resolve_left hs)]
    exact only_setPmc s k _

theorem pmcCounterRead_completes (s : State) (o : Origin) (k : Nat) (h : addrReject s o (pgPMC + PMC_CMD.off) = none)
    (hk : k = 8 * fld s pgPMC PMC_GRP + fld s pgPMC PMC_CTR) (hx : (pmc s k).snap = true ∨ (pmc s k).level = false) :
    Completes (.pmcCounterRead o) s (fun t => Shows t (pmc s k).readout ∧ (pmc t k).snap = false ∧
      Answered s t o 0 (pgPMC + PMC_CMD.off) ∧ Only books s t) := by
  rw [← pmc_pmcStat s false k] at hx ⊢
  obtain ⟨s0, hs0⟩ : ∃ u, u = pmcStat s false := ⟨_, rfl⟩
  rw [← hs0] at hx ⊢
  obtain ⟨u, hu⟩ : ∃ u, u = setPmc (latchedForRead s0 k) k (pmc s0 k).readout := ⟨_, rfl⟩
  have hpmc : pmc u k = (pmc s0 k).readout := by rw [hu, pmc_setPmc, if_pos rfl]
  have honlyRead : Only [.pmc, .regs] s0 (showPmc u (pmc u k)) := by
    rw [hu]
    exact (((only_latchedForRead s0 k hx).trans (only_setPmc _ _ _)).mono (by decide)).trans ((only_showPmc _ _).mono (by decide))
  obtain ⟨⟨x, y, m, hrec⟩, hans, honly⟩ := pmcCmd_leaves (l := [.pmc, .regs]) (o := o) (u := showPmc u (pmc u k)) (c := 0)
    (body := fun s _ k =>
      let s1 := if (pmc s k).snap then s else latchPmc s k
      let s2 := setPmc s1 k { pmc s1 k with snap := false }
      (showPmc s2 (pmc s2 k), 0)) h rfl hk
    (by rw [hu, ← pmc_latchedForRead s0 k hx, hs0]; rfl) (by rw [← hs0]; exact honlyRead) (by decide) (by decide) (by decide)
  refine ⟨_, rfl, ?_, ?_, hans, honly.mono (by decide)⟩
  · rw [hrec, ← hpmc]
    exact (shows_showPmc u _).record o _ _ x y m
  · have hsetup := setup_record (showPmc u (pmc u k)) o 0 (pgPMC + PMC_CMD.off) x y m k
    rw [← hrec, pmc_showPmc, hpmc] at hsetup
    exact (congrArg Pmc.snap hsetup :)

/-! ### Setting a counter -/

theorem fld_pmcStat (s : State) (b : Bool) (f : Fld) (h : f.off ≠ PMC_STAT.off) : fld (pmcStat s b) pgPMC f = fld s pgPMC f :=
  fld_setFld_other _ _ _ _ _ _ (by decide) (.inl (by omega))

theorem isSet_pmcStat (s : State) (b : Bool) (f : Fld) (h : f.off ≠ PMC_STAT.off) : isSet (pmcStat s b) pgPMC f = isSet s pgPMC f := by
  rw [isSet, isSet, fld_pmcStat s b f h]

theorem stat_pmcStat (s : State) (b : Bool) : fld (pmcStat s b) pgPMC PMC_STAT = 2 * b.toNat := by
  rw [pmcStat, fld_setFld_same _ _ _ _ (by decide)]
  cases b <;> rfl

/-- Settings that a counter refuses (R330): level mode without a flag, and a chain into counter 0 of a group. -/
def refusedSettings (s : State) (k : Nat) : Bool :=
  (isSet s pgPMC PMC_MODE && fld s pgPMC PMC_EVENT % 64 < 32) || (isSet s pgPMC PMC_CHAIN && k % 8 == 0)

/-- A counter with the settings of the window. -/
def Pmc.setFrom (s : State) (c : Pmc) : Pmc :=
  { c with event := fld s pgPMC PMC_EVENT, inst := fld s pgPMC PMC_INST, level := isSet s pgPMC PMC_MODE,
           chain := isSet s pgPMC PMC_CHAIN, en := isSet s pgPMC PMC_EN }

/-- What COUNTER_WRITE does in the window. -/
def counterWrite (s : State) (_ k : Nat) : State × Nat :=
  if refusedSettings s k then (flag (pmcStat s true) pgPMC PMC_F_CFG_REJ, 1) else (setPmc s k ((pmc s k).setFrom s), 0)

theorem exec_pmcCounterWrite (o : Origin) (s : State) : exec (.pmcCounterWrite o) s = .next (pmcCmd o counterWrite s) := rfl

theorem refusedSettings_pmcStat (s : State) (b : Bool) (k : Nat) : refusedSettings (pmcStat s b) k = refusedSettings s k := by
  simp only [refusedSettings, isSet_pmcStat s b PMC_MODE (by decide), isSet_pmcStat s b PMC_CHAIN (by decide), fld_pmcStat s b PMC_EVENT (by decide)]

theorem setFrom_pmcStat (s : State) (b : Bool) (c : Pmc) : c.setFrom (pmcStat s b) = c.setFrom s := by
  simp only [Pmc.setFrom, isSet_pmcStat s b PMC_MODE (by decide), isSet_pmcStat s b PMC_CHAIN (by decide), isSet_pmcStat s b PMC_EN (by decide),
    fld_pmcStat s b PMC_EVENT (by decide), fld_pmcStat s b PMC_INST (by decide)]

theorem pmcCounterWrite_accepted (s : State) (o : Origin) (k : Nat) (h : addrReject s o (pgPMC + PMC_CMD.off) = none)
    (hk : k = 8 * fld s pgPMC PMC_GRP + fld s pgPMC PMC_CTR) (hok : refusedSettings s k = false) :
    Completes (.pmcCounterWrite o) s (fun t => (pmc t k).setup = ((pmc s k).setFrom s).setup ∧ fld t pgPMC PMC_STAT = 0 ∧
      Answered s t o 0 (pgPMC + PMC_CMD.off) ∧ Only books s t) := by
  have hbody : counterWrite (pmcStat s false) (fld s pgPMC PMC_GRP) k =
      (setPmc (pmcStat s false) k ((pmc s k).setFrom s), 0) := by
    rw [counterWrite, refusedSettings_pmcStat, hok, setFrom_pmcStat, pmc_pmcStat]
    rfl
  obtain ⟨⟨x, y, m, hrec⟩, hans, honly⟩ := pmcCmd_leaves (l := [.pmc, .regs]) (o := o) h rfl hk hbody
    ((only_setPmc _ _ _).mono (by decide)) (by decide) (by decide) (by decide)
  refine ⟨_, exec_pmcCounterWrite o s, ?_, ?_, hans, honly.mono (by decide)⟩
  · rw [hrec, setup_record, pmc_setPmc, if_pos rfl]
  · rw [hrec, fld_record _ _ _ _ _ _ _ _ _ (by decide)]
    exact stat_pmcStat s false

theorem pmcCounterWrite_refused (s : State) (o : Origin) (k : Nat) (h : addrReject s o (pgPMC + PMC_CMD.off) = none)
    (hk : k = 8 * fld s pgPMC PMC_GRP + fld s pgPMC PMC_CTR) (hbad : refusedSettings s k = true) :
    Completes (.pmcCounterWrite o) s (fun t => (pmc t k).setup = (pmc s k).setup ∧ flagSet t pgPMC PMC_F_CFG_REJ = true ∧
      fld t pgPMC PMC_STAT = 2 ∧ Answered s t o 1 (pgPMC + PMC_CMD.off) ∧ Only books s t) := by
  have hbody : counterWrite (pmcStat s false) (fld s pgPMC PMC_GRP) k =
      (flag (pmcStat (pmcStat s false) true) pgPMC PMC_F_CFG_REJ, 1) := by
    rw [counterWrite, refusedSettings_pmcStat, hbad]
    rfl
  obtain ⟨⟨x, y, m, hrec⟩, hans, honly⟩ := pmcCmd_leaves (l := [.pmc, .regs]) (o := o) h rfl hk hbody
    (((only_setFld _ _ _ _).mono (by decide)).trans ((only_flag _ _ _).mono (by decide))) (by decide) (by decide) (by decide)
  refine ⟨_, exec_pmcCounterWrite o s, ?_, ?_, ?_, hans, honly.mono (by decide)⟩
  · rw [hrec, setup_record, setup_flag, pmc_pmcStat, pmc_pmcStat]
  · rw [hrec, flagSet, isSet]
    exact congrArg (· == 1) ((cfgRej_record _ o (pgPMC + PMC_CMD.off) x y m).trans (cfgRej_flag _))
  · rw [hrec, fld_record _ _ _ _ _ _ _ _ _ (by decide), fld, reg_flag _ _ _ _ (by decide) (by decide) (by decide)]
    exact stat_pmcStat _ true

end Sys2Proof.Machine
end

section
/-! PROOF. O57, the trace ring (R331), timed actions (R19), the frame boundary (R5, R45) and the grid second. -/

namespace Sys2Proof.Machine

/-! ### The trace ring -/

/-- The window after TR_IDX was written: its words, and one record. -/
theorem traceRecordRead_shows {l : List Part} {o : Origin} {data : Word} {s u : State} {ws : List Word}
    (h : addrReject s o (pgPMC + PMC_TR_IDX.off) = none) (hw : ws.length = 8)
    (hexec : exec (.traceRecordRead o data) s = .next (ownWrite o (pgPMC + PMC_TR_IDX.off) (fun _ => (u, 0)) s))
    (hb : Only l s u) (hregs : ∀ a, reg u a = reg (setWords (setFld s pgPMC PMC_TR_IDX (bitsOf data 0 13)) (pgPMC + PMC_TR_DATA.off) ws) a)
    (hj : Part.jrn ∉ l) (hg : Part.grid ∉ l) :
    Completes (.traceRecordRead o data) s (fun t => wordsAt t (pgPMC + PMC_TR_DATA.off) 8 = ws ∧ t.freeCtr = u.freeCtr ∧
      Answered s t o 0 (pgPMC + PMC_TR_IDX.off) ∧ Only (l ++ books) s t) := by
  refine ⟨_, hexec, ?_, ?_, answered_ownWrite o _ (fun _ => (u, 0)) s h hb hj hg,
    only_ownWrite o _ _ s h (hb.mono (fun p hp => List.mem_append_left _ hp)) (fun p hp => List.mem_append_right _ hp)⟩
  · have hv : pgPMC + PMC_TR_DATA.off = 0x9100 := rfl
    rw [ownWrite_ok o _ (fun _ => (u, 0)) s h, wordsAt_record _ _ _ _ _ _ _ _ _ (fun d h1 h2 => recordPage_of_pmc d (by omega) (by omega) (by omega)),
      wordsAt_eq _ _ _ _ (fun d _ _ => hregs d)]
    conv_lhs => rw [← hw]
    exact wordsAt_setWords _ _ ws
  · rw [ownWrite_ok o _ (fun _ => (u, 0)) s h]
    simp

theorem only_traceWindow (s : State) (i : Nat) (ws : List Word) :
    Only [.regs] s (setWords (setFld s pgPMC PMC_TR_IDX i) (pgPMC + PMC_TR_DATA.off) ws) :=
  (only_setFld s _ _ _).trans (only_setWords _ _ _)

theorem traceRecordRead_some (s : State) (o : Origin) (data : Word) (r : TraceRec)
    (h : addrReject s o (pgPMC + PMC_TR_IDX.off) = none) (hr : s.tst.trace[bitsOf data 0 13]? = some r) :
    Completes (.traceRecordRead o data) s (fun t => wordsAt t (pgPMC + PMC_TR_DATA.off) 8 = r.words s ∧
      Answered s t o 0 (pgPMC + PMC_TR_IDX.off) ∧ Only books s t) := by
  obtain ⟨t, ht, hwords, -, hans, honly⟩ := traceRecordRead_shows (ws := r.words s) h rfl
    (show execTraceRecordRead o data s = _ by simp only [execTraceRecordRead, ownWrite, h, hr]) (only_traceWindow s _ _) (fun _ => rfl) (by decide) (by decide)
  exact ⟨t, ht, hwords, hans, honly.mono (by decide)⟩

theorem traceRecordRead_none (s : State) (o : Origin) (data : Word)
    (h : addrReject s o (pgPMC + PMC_TR_IDX.off) = none) (hr : s.tst.trace[bitsOf data 0 13]? = none) :
    Completes (.traceRecordRead o data) s (fun t => wordsAt t (pgPMC + PMC_TR_DATA.off) 8 = freeWords s ∧ t.freeCtr = s.freeCtr + 8 ∧
      Answered s t o 0 (pgPMC + PMC_TR_IDX.off) ∧ Only (.freeCtr :: books) s t) := by
  have hfree : freeWords (setFld s pgPMC PMC_TR_IDX (bitsOf data 0 13)) = freeWords s := by simp [freeWords, freeAt]
  obtain ⟨t, ht, hwords, hctr, hans, honly⟩ := traceRecordRead_shows (ws := freeWords s) h (by simp [freeWords])
    (u := drawFrees (setWords (setFld s pgPMC PMC_TR_IDX (bitsOf data 0 13)) (pgPMC + PMC_TR_DATA.off) (freeWords s)) 8) (l := [.regs, .freeCtr])
    (show execTraceRecordRead o data s = _ by simp only [execTraceRecordRead, ownWrite, h, hr, hfree])
    (((only_traceWindow s _ _).mono (by decide)).trans ((only_freeCtr _ _).mono (by decide)))
    (fun _ => rfl) (by decide) (by decide)
  refine ⟨t, ht, hwords, ?_, hans, honly.mono (by decide)⟩
  rw [hctr]
  simp [drawFrees]

/-- The record that the trace stream writes for a trace record. -/
def TraceRec.sent (r : TraceRec) : HostRec := .trace r.page r.point r.mark r.arg r.stamp.stamp

/-- Records written one after another stand at the end of what the host has, in order. -/
theorem foldl_hostRec (g : TraceRec → HostRec) (l : List TraceRec) (s : State) :
    l.foldl (fun t r => hostRec t 0 (g r)) s = { s with bus := { s.bus with hostOut := s.bus.hostOut ++ l.map (fun r => (0, g r)) } } := by
  induction l generalizing s with
  | nil => simp
  | cons r l ih => rw [List.foldl_cons, ih]; simp [hostRec]

theorem traceStream_sends (s : State) (l : List TraceRec) (z : Nat) (hrel : released s = true) (hen : active s pgPMC PMC_TR_STREAM_EN = true)
    (hz : z = 2 ^ fld s pgPMC PMC_TR_SIZE_LOG2)
    (hl : l = ((s.tst.trace.take s.tst.unsent).reverse).take ((fld s pgPMC PMC_TR_HEAD + z - s.tst.tail % z - 1) % z)) (hne : l ≠ []) :
    Completes .traceStream s (fun t =>
      t.bus.hostOut = s.bus.hostOut ++ l.map (fun r => (0, .trace r.page r.point r.mark r.arg r.stamp.stamp)) ++
        [(0, .tail ((s.tst.tail + l.length) % z))] ∧
      (t.tst.tail, t.tst.unsent) = ((s.tst.tail + l.length) % z, s.tst.unsent - l.length) ∧ t.tst.trace = s.tst.trace ∧
      Only [.hostOut, .trace] s t) := by
  have hexec : exec .traceStream s = .next (hostRec { s with
      bus := { s.bus with hostOut := s.bus.hostOut ++ l.map (fun r => (0, r.sent)) },
      tst := { s.tst with tail := (s.tst.tail + l.length) % z, unsent := s.tst.unsent - l.length } } 0 (.tail ((s.tst.tail + l.length) % z))) := by
    show execTraceStream s = _
    simp only [execTraceStream, hrel, hen, ← hz, ← hl]
    rw [if_neg (by simpa using hne), foldl_hostRec]
    rfl
  refine ⟨_, hexec, rfl, rfl, rfl, fun p hp => ?_⟩
  cases p
  case hostOut => simp at hp
  case trace => simp at hp
  all_goals rfl

/-! ### Timed actions -/

/-- A posted action whose position is reached leaves the list and fires. -/
theorem timedActionFire_reached (s : State) (i : Nat) (a : Action) (ha : s.grid.posted[i]? = some a)
    (hpos : a.pos.fineIndex ≤ (now s).fineIndex) :
    exec (.timedActionFire i) s = .next (fireAction { s with grid := { s.grid with posted := s.grid.posted.eraseIdx i } } a) := by
  show execTimedActionFire i s = _
  simp [execTimedActionFire, ha, hpos]

theorem timedActionFire_early (s : State) (i : Nat) (a : Action) (ha : s.grid.posted[i]? = some a)
    (hpos : (now s).fineIndex < a.pos.fineIndex) : exec (.timedActionFire i) s = .next s := by
  show execTimedActionFire i s = _
  simp [execTimedActionFire, ha, Nat.not_le.mpr hpos]

theorem timedActionFire_gone (s : State) (i : Nat) (ha : s.grid.posted[i]? = none) : exec (.timedActionFire i) s = .next s := by
  show execTimedActionFire i s = _
  simp [execTimedActionFire, ha]

/-- What firing does, by the action's kind. -/
theorem fireAction_made (s : State) (a : Action) (p c : Nat) (h : a.kind = .other p ∨ a.kind = .mapOut p c ∨ a.kind = .tod p) :
    fireAction s a = s := by
  rcases h with h | h | h <;> simp [fireAction, h]

theorem fireAction_brst (s : State) (a : Action) (p c : Nat) (h : a.kind = .brst p c) : fireAction s a = brstPulse s p c := by simp [fireAction, h]

theorem fireAction_preload (s : State) (a : Action) (p c : Nat) (h : a.kind = .preload p c) : fireAction s a = phasePreload s p c := by
  simp [fireAction, h]

theorem fireAction_rssi (s : State) (a : Action) (p c : Nat) (h : a.kind = .rssi p c) : fireAction s a = rssiPulse s p c := by simp [fireAction, h]

/-! ### The frame boundary -/

/-- What the boundary's view says of the state. -/
theorem boundary_of_rest {s t : State} (h : (view t).rest = (boundaryStart s).rest) :
    now t = ⟨(frame s + 1) % frameMod, 0, 0⟩ ∧ (t.tst.go, t.tst.running) = (none, s.tst.go.getD s.tst.running) ∧
      (t.jrn, t.own, t.boot) = (s.jrn, s.own, s.boot) ∧ t.eng = s.eng ∧ t.cls = { s.cls with ageFrames := s.cls.ageFrames + 1 } :=
  ⟨congrArg (fun v : BoundaryView => v.grid.now) h, congrArg (fun v : BoundaryView => (v.go, v.running)) h,
    congrArg (fun v : BoundaryView => (v.jrn, v.own, v.boot)) h, congrArg BoundaryView.eng h, congrArg BoundaryView.cls h⟩

theorem frameBoundary_superframe (s : State) (pulls : List Pull) (p : Fin 32) (c : Fin 3) (hrun : s.grid.running = true) (hrel : released s = true)
    (hq : s.pon.ch.all (fun e => e.2.upq == []) = true) (hen : fld s (pgPON p) PON_CH_EN ≠ 0) :
    Completes (.frameBoundary pulls) s (fun t =>
      (chSt t p c).superframe = if c.val = 0 then (frame s + 1) % frameMod % 2 ^ 30 else (frame s + 1) % frameMod) := by
  obtain ⟨t, ht, hrest, hcarry⟩ := frameBoundary_carries s pulls p c hrun hrel hq p.isLt c.isLt hen
  obtain ⟨hnow, -⟩ := boundary_of_rest hrest
  refine ⟨t, ht, ?_⟩
  have hsuper : (chSt t p c).superframe = superframeOf c (now t).frame := hcarry
  exact hsuper.trans (by rw [hnow]; rfl)

theorem frameBoundary_stopped (s : State) (pulls : List Pull) (h : s.grid.running = false) : exec (.frameBoundary pulls) s = .next s := by
  show execFrameBoundary pulls s = _
  simp [execFrameBoundary, h]

/-! ### The grid second -/

theorem gridSecond_stopped (s : State) (h : s.grid.running = false) : exec .gridSecond s = .next s := by
  show execGridSecond s = _
  simp [execGridSecond, h]

theorem gridSecond_taken (s : State) (k : Nat) (hrun : s.grid.running = true) (hf : frame s % framesPerSecond = 0)
    (hk : k = frame s / framesPerSecond) (hne : s.grid.second ≠ k) :
    Completes .gridSecond s (fun t => t.grid = { s.grid with second := k } ∧ (t.jrn, t.own, t.boot) = (s.jrn, s.own, s.boot)) := by
  subst hk
  have hview := view_allSeconds s { s with grid := { s.grid with second := frame s / framesPerSecond } }
  refine ⟨_, exec_gridSecond s hrun hf hne, grid_eq_of_view hview, ?_⟩
  exact (books_eq_of_view hview :)

theorem gridSecond_monitors (s : State) (k n : Nat) (m : PmRec) (hrun : s.grid.running = true) (hf : frame s % framesPerSecond = 0)
    (hk : k = frame s / framesPerSecond) (hne : s.grid.second ≠ k) (hpm : s.pon.pm = []) (hch : s.pon.chPm = [(n, m)])
    (hen : isSet s (pgPON (n / 3)) PON_PM_EN = true) :
    Completes .gridSecond s (fun t =>
      chPm t n = (m.second (fld s (pgPON (n / 3)) PON_SES_PCT)).1.fresh (isSet s (pgCH (n / 3) (n % 3)) CH_LOS_CH_ACTIVE) ∧
      t.pon.onu = s.pon.onu) := by
  subst hk
  have hn : 3 * (n / 3) + n % 3 = n := by omega
  have hm : chPm s n = m := by simp [chPm, hch, tget]
  obtain ⟨u, hu⟩ : ∃ u, u = { s with grid := { s.grid with second := frame s / framesPerSecond } } := ⟨_, rfl⟩
  have hpon : (allSeconds s u).pon = (setChPm u n
      ((m.second (fld s (pgPON (n / 3)) PON_SES_PCT)).1.fresh (isSet s (pgCH (n / 3) (n % 3)) CH_LOS_CH_ACTIVE))).pon := by
    rw [pon_allSeconds s u n m hpm hch, pon_channelSecond, hn]
    subst hu
    show (setChPm s n ((if isSet s _ _ then (chPm s n).second _ else (chPm s n, none)).1.fresh _)).pon = _
    rw [if_pos hen, hm]
    rfl
  refine ⟨_, exec_gridSecond s hrun hf hne, ?_, ?_⟩
  · rw [← hu, chPm, hpon]
    exact tget_tset_same _ _ _ _
  · rw [← hu, hpon, hu]
    rfl

end Sys2Proof.Machine
end

section
/-! PROOF. O57, assembled. -/

namespace Sys2Proof.Machine

/-- Settles O57: the counters' commands are their body and one record, which leaves every counter but its count; the boundary and the second
are read off the parts that none of their steps touches. -/
theorem countersTraceAndTheFrame : Obligations.CountersTraceAndTheFrame := by
  unfold Obligations.CountersTraceAndTheFrame
  refine ⟨?start, ?stop, ?snapshot, ?readSnap, ?readNow, ?write, ?writeRefused, ?groupClear, ?groupSnapshot, ?traceSome, ?traceNone, ?stream,
    ?fired, ?brst, ?preload, ?rssi, ?early, ?gone, ?boundary, ?superframe, ?second, ?monitored, ?stopped⟩
  case start => exact fun s o h => ⟨_, rfl, goCmd_go s o true h _ rfl⟩
  case stop => exact fun s o h => ⟨_, rfl, goCmd_go s o false h _ rfl⟩
  case snapshot => exact pmcSnapshot_completes
  case readSnap =>
    rintro s o k x h hk rfl hsnap
    obtain ⟨t, ht, ⟨hset, hval⟩, hread, hans, honly⟩ := pmcCounterRead_completes s o k h hk (.inl hsnap)
    exact ⟨t, ht, hset, by rw [hval, Pmc.readout, if_pos hsnap], hread, hans, honly⟩
  case readNow =>
    rintro s o k x h hk rfl hsnap hlevel
    obtain ⟨t, ht, ⟨hset, hval⟩, hread, hans, honly⟩ := pmcCounterRead_completes s o k h hk (.inr hlevel)
    exact ⟨t, ht, hset, by rw [hval, Pmc.readout, if_neg (by simp [hsnap])], hread, hans, honly⟩
  case write =>
    rintro s o k x h hk rfl hlevel hchain
    obtain ⟨t, ht, hset, hstat, hans, honly⟩ := pmcCounterWrite_accepted s o k h hk (by
      rcases hlevel with hl | hl <;> rcases hchain with hc | hc <;> simp [refusedSettings, hl, hc])
    exact ⟨t, ht, (congrArg (fun c : Pmc => (c.event, c.inst, c.level, c.chain, c.en)) hset :), hstat, hans, honly⟩
  case writeRefused =>
    rintro s o k x h hk rfl hbad
    obtain ⟨t, ht, hset, hrest⟩ := pmcCounterWrite_refused s o k h hk (by
      rcases hbad with ⟨h1, h2⟩ | ⟨h1, h2⟩ <;> simp [refusedSettings, h1, h2])
    exact ⟨t, ht, (congrArg (fun c : Pmc => (c.event, c.en)) hset :), hrest⟩
  case groupClear => exact pmcGroupClear_completes
  case groupSnapshot => exact pmcGroupSnapshot_completes
  case traceSome => exact traceRecordRead_some
  case traceNone => exact traceRecordRead_none
  case stream => exact traceStream_sends
  case fired =>
    rintro s i p c a u ha rfl hpos hkind
    exact ⟨_, timedActionFire_reached s i a ha hpos, fireAction_made _ a p c hkind⟩
  case brst =>
    rintro s i p c a u ha rfl hpos hkind
    exact ⟨_, timedActionFire_reached s i a ha hpos, fireAction_brst _ a p c hkind⟩
  case preload =>
    rintro s i p c a u ha rfl hpos hkind
    exact ⟨_, timedActionFire_reached s i a ha hpos, fireAction_preload _ a p c hkind⟩
  case rssi =>
    rintro s i p c a u ha rfl hpos hkind
    exact ⟨_, timedActionFire_reached s i a ha hpos, fireAction_rssi _ a p c hkind⟩
  case early => exact fun s i a ha hpos => ⟨s, timedActionFire_early s i a ha hpos, rfl⟩
  case gone => exact fun s i ha => ⟨s, timedActionFire_gone s i ha, rfl⟩
  case boundary =>
    intro s pulls hrun hq
    obtain ⟨t, ht, hrest⟩ := frameBoundary_rest s pulls hrun hq
    exact ⟨t, ht, boundary_of_rest hrest⟩
  case superframe => exact frameBoundary_superframe
  case second => exact gridSecond_taken
  case monitored => exact fun s k n m hrun hf hk hne hpm hch _ hen => gridSecond_monitors s k n m hrun hf hk hne hpm hch hen
  case stopped =>
    rintro s i pulls (rfl | rfl) hrun
    · exact ⟨s, frameBoundary_stopped s pulls hrun, rfl⟩
    · exact ⟨s, gridSecond_stopped s hrun, rfl⟩

end Sys2Proof.Machine
end

section
/-! PROOF. O59: a step ends in a next state, and the queue loses its front command only (R27, log entry 2). -/

namespace Sys2Proof.Machine

/-- Every command but the two of the power supply ends in a next state that keeps the queue and the straps, and loses no revoke bit. -/
theorem exec_calm (i : Instr) (hg : ∀ st, i ≠ .powerGood st) (hf : i ≠ .powerGoodFall) : Calm (exec i) := by
  cases i with
  | registerWrite o addr data => exact execRegisterWrite_grown o addr data
  | readClearAccess o addr => exact calm_of _ (execReadClearAccess_keeps o addr)
  | counterLowRead o addr => exact calm_of _ (execCounterLowRead_keeps o addr)
  | bitSetAliasWrite o addr data => exact execBitSetAliasWrite_grown o addr data
  | bitClearAliasWrite o addr data => exact execBitClearAliasWrite_grown o addr data
  | unalignedAccess o addr size write => exact calm_of _ (execUnalignedAccess_keeps o addr size write)
  | unmappedAccess o addr write => exact calm_of _ (execUnmappedAccess_keeps o addr write)
  | pageEnable o base data => exact calm_of _ (execPageEnable_keeps o base data)
  | blockReset o base => exact calm_of _ (execBlockReset_keeps o base)
  | pageLock o base data => exact calm_of _ (execPageLock_keeps o base data)
  | errInjectArm o base data => exact calm_of _ (execErrInjectArm_keeps o base data)
  | timedActionFire ix => exact calm_of _ (execTimedActionFire_keeps ix)
  | frameBoundary pulls => exact calm_of _ (execFrameBoundary_keeps pulls)
  | gridSecond => exact calm_of _ execGridSecond_keeps
  | grefLost b => exact calm_of _ (execGrefLost_keeps b)
  | ppsLost b => exact calm_of _ (execPpsLost_keeps b)
  | refQualified input => exact calm_of _ (execRefQualified_keeps input)
  | ppsEdge b freqPpt phase => exact calm_of _ (execPpsEdge_keeps b freqPpt phase)
  | stepCmd o data => exact execStepCmd_calm o data
  | stepApply => exact calm_of _ execStepApply_keeps
  | nowRead o pairs => exact calm_of _ (execNowRead_keeps o pairs)
  | todNowRead o pairs => exact calm_of _ (execTodNowRead_keeps o pairs)
  | nsNowRead o pairs => exact calm_of _ (execNsNowRead_keeps o pairs)
  | baseCommit o data => exact execBaseCommit_calm o data
  | todBaseApply => exact calm_of _ execTodBaseApply_keeps
  | todMessage bytes => exact calm_of _ (execTodMessage_keeps bytes)
  | captureEdge ix rising => exact calm_of _ (execCaptureEdge_keeps ix rising)
  | capFifoRead o => exact calm_of _ (execCapFifoRead_keeps o)
  | ploamPush o p c => exact execPloamPush_calm o p c
  | ploamPushRetry p c => exact calm_of _ (execPloamPushRetry_keeps p c)
  | burstReceive p c b => exact calm_of _ (execBurstReceive_keeps p c b)
  | eqdRetry p ix => exact calm_of _ (execEqdRetry_keeps p ix)
  | reasmTimeout x => exact calm_of _ (execReasmTimeout_keeps x)
  | xpRead o p => exact execXpRead_calm o p
  | xpWrite o p => exact execXpWrite_calm o p
  | xpInvalidate o p => exact execXpInvalidate_calm o p
  | onuRead o p => exact execOnuRead_calm o p
  | onuWrite o p => exact execOnuWrite_calm o p
  | onuCounterClear o p => exact execOnuCounterClear_calm o p
  | cntClr o base => exact execCntClr_calm o base
  | keySwGo o p c => exact execKeySwGo_calm o p c
  | keySwitch p c => exact calm_of _ (execKeySwitch_keeps p c)
  | keyGraceEnd p ix => exact calm_of _ (execKeyGraceEnd_keeps p ix)
  | profileWrite o p c j w data => exact execProfileWrite_calm o p c j w data
  | brstPulse p c => exact calm_of _ (execBrstPulse_keeps p c)
  | phasePreload p c => exact calm_of _ (execPhasePreload_keeps p c)
  | phaseWriteBack p c ix phase peak => exact calm_of _ (execPhaseWriteBack_keeps p c ix phase peak)
  | sdLevelChange p c level samples => exact calm_of _ (execSdLevelChange_keeps p c level samples)
  | rssiGo o p c => exact execRssiGo_calm o p c
  | rssiPulse p c => exact calm_of _ (execRssiPulse_keeps p c)
  | darkSlotTest p c sdHigh lightRun => exact calm_of _ (execDarkSlotTest_keeps p c sdHigh lightRun)
  | pmRead o p c => exact execPmRead_calm o p c
  | pmWrite o p c conflict => exact execPmWrite_calm o p c conflict
  | pmInvalidate o p c => exact execPmInvalidate_calm o p c
  | reachWrite o p c off data => exact execReachWrite_calm o p c off data
  | surveyWindowClose p c lightUnaccounted badMessage => exact calm_of _ (execSurveyWindowClose_keeps p c lightUnaccounted badMessage)
  | snResponse p c sn hp => exact calm_of _ (execSnResponse_keeps p c sn hp)
  | rangingGrantDue p ix => exact calm_of _ (execRangingGrantDue_keeps p ix)
  | rangingResponse p ix captureNs captureFrac => exact calm_of _ (execRangingResponse_keeps p ix captureNs captureFrac)
  | rangingWindowClose p ix => exact calm_of _ (execRangingWindowClose_keeps p ix)
  | registrationReceived p ix id => exact calm_of _ (execRegistrationReceived_keeps p ix id)
  | registerTimeout p ix => exact calm_of _ (execRegisterTimeout_keeps p ix)
  | popupExpire p ix => exact calm_of _ (execPopupExpire_keeps p ix)
  | rgRead o p c => exact execRgRead_calm o p c
  | rgSetEqd o p c conflict => exact execRgSetEqd_calm o p c conflict
  | rgRerange o p c => exact execRgRerange_calm o p c
  | mapInputDeadline p c => exact calm_of _ (execMapInputDeadline_keeps p c)
  | mapSealed p c buildGt => exact calm_of _ (execMapSealed_keeps p c buildGt)
  | mapOutput p c => exact calm_of _ (execMapOutput_keeps p c)
  | adRead o p c => exact execAdRead_calm o p c
  | adWrite o p c => exact execAdWrite_calm o p c
  | adClearGranted o p c => exact execAdClearGranted_calm o p c
  | obRead o p c => exact execObRead_calm o p c
  | obWrite o p c => exact execObWrite_calm o p c
  | tplLoad o p => exact execTplLoad_calm o p
  | tplStop o p => exact execTplStop_calm o p
  | tplBegin p t => exact calm_of _ (execTplBegin_keeps p t)
  | entRead o p => exact execEntRead_calm o p
  | entWrite o p => exact execEntWrite_calm o p
  | grpRead o p => exact execGrpRead_calm o p
  | grpWrite o p => exact execGrpWrite_calm o p
  | grpCounterClear o p => exact execGrpCounterClear_calm o p
  | bondFragmentArrive p c portId hdr len mapFrame => exact calm_of _ (execBondFragmentArrive_keeps p c portId hdr len mapFrame)
  | bondGapDeadline p g => exact calm_of _ (execBondGapDeadline_keeps p g)
  | memberFallback p g => exact calm_of _ (execMemberFallback_keeps p g)
  | groupDown p g => exact calm_of _ (execGroupDown_keeps p g)
  | memberRejoin p g => exact calm_of _ (execMemberRejoin_keeps p g)
  | packetLanding src dir len bytes => exact calm_of _ (execPacketLanding_keeps src dir len bytes)
  | packetDispatch => exact calm_of _ execPacketDispatch_keeps
  | aluOperation x => exact calm_of _ (execAluOperation_keeps x)
  | seqGo x => exact calm_of _ (execSeqGo_keeps x)
  | seqWait x => exact calm_of _ (execSeqWait_keeps x)
  | seqBr x => exact calm_of _ (execSeqBr_keeps x)
  | seqCall x => exact calm_of _ (execSeqCall_keeps x)
  | seqRet x => exact calm_of _ (execSeqRet_keeps x)
  | seqMway x => exact calm_of _ (execSeqMway_keeps x)
  | seqLoop x => exact calm_of _ (execSeqLoop_keeps x)
  | seqDone x => exact calm_of _ (execSeqDone_keeps x)
  | seqDrop x => exact calm_of _ (execSeqDrop_keeps x)
  | seqPunt x => exact calm_of _ (execSeqPunt_keeps x)
  | seqTrap x => exact calm_of _ (execSeqTrap_keeps x)
  | scratchRead x => exact calm_of _ (execScratchRead_keeps x)
  | scratchWrite x conflict => exact calm_of _ (execScratchWrite_keeps x conflict)
  | scratchFetchAdd x => exact calm_of _ (execScratchFetchAdd_keeps x)
  | tblLegendMatch x => exact calm_of _ (execTblLegendMatch_keeps x)
  | tblGztLookup x => exact calm_of _ (execTblGztLookup_keeps x)
  | tblGztLearn x => exact calm_of _ (execTblGztLearn_keeps x)
  | tblGztRefresh x => exact calm_of _ (execTblGztRefresh_keeps x)
  | tblGztDelete x => exact calm_of _ (execTblGztDelete_keeps x)
  | tblStateRead x => exact calm_of _ (execTblStateRead_keeps x)
  | tblStateWrite x => exact calm_of _ (execTblStateWrite_keeps x)
  | cipCmac x => exact calm_of _ (execCipCmac_keeps x)
  | cipCmacVerify x => exact calm_of _ (execCipCmacVerify_keeps x)
  | cipKeyDerive x => exact calm_of _ (execCipKeyDerive_keeps x)
  | cipRandom x => exact calm_of _ (execCipRandom_keeps x)
  | cipKcv x => exact calm_of _ (execCipKcv_keeps x)
  | cipStatus x => exact calm_of _ (execCipStatus_keeps x)
  | cipInvalidate x => exact calm_of _ (execCipInvalidate_keeps x)
  | bpmAllocate x => exact calm_of _ (execBpmAllocate_keeps x)
  | bpmAllocateRepl x => exact calm_of _ (execBpmAllocateRepl_keeps x)
  | bpmFree x => exact calm_of _ (execBpmFree_keeps x)
  | bpmRefInc x => exact calm_of _ (execBpmRefInc_keeps x)
  | bpmRefDec x => exact calm_of _ (execBpmRefDec_keeps x)
  | bpmPassOwnership x => exact calm_of _ (execBpmPassOwnership_keeps x)
  | tmqEnqueue x => exact calm_of _ (execTmqEnqueue_keeps x)
  | tmqEnqueueReplica x => exact calm_of _ (execTmqEnqueueReplica_keeps x)
  | tmqReadLevel x => exact calm_of _ (execTmqReadLevel_keeps x)
  | tmqReadBpLevel x => exact calm_of _ (execTmqReadBpLevel_keeps x)
  | tmqDequeue x => exact calm_of _ (execTmqDequeue_keeps x)
  | hdrReplace x => exact calm_of _ (execHdrReplace_keeps x)
  | hdrInsert x => exact calm_of _ (execHdrInsert_keeps x)
  | hdrRemove x => exact calm_of _ (execHdrRemove_keeps x)
  | hdrPushTag x => exact calm_of _ (execHdrPushTag_keeps x)
  | hdrPopTag x => exact calm_of _ (execHdrPopTag_keeps x)
  | hdrSetLength x => exact calm_of _ (execHdrSetLength_keeps x)
  | counterBump x => exact calm_of _ (execCounterBump_keeps x)
  | microcodeEvent x => exact calm_of _ (execMicrocodeEvent_keeps x)
  | flagSet x => exact calm_of _ (execFlagSet_keeps x)
  | flagClear x => exact calm_of _ (execFlagClear_keeps x)
  | flagToggle x => exact calm_of _ (execFlagToggle_keeps x)
  | unitCompletion x u => exact calm_of _ (execUnitCompletion_keeps x u)
  | waitConditionMet x => exact calm_of _ (execWaitConditionMet_keeps x)
  | waitTimeout x => exact calm_of _ (execWaitTimeout_keeps x)
  | watchdog x => exact calm_of _ (execWatchdog_keeps x)
  | runOver x => exact calm_of _ (execRunOver_keeps x)
  | reorderRelease src => exact calm_of _ (execReorderRelease_keeps src)
  | ucsLoadWord o k data => exact execUcsLoadWord_calm o k data
  | ucsReadWord o k data => exact execUcsReadWord_calm o k data
  | swapCmd o k => exact execSwapCmd_calm o k
  | swapDone k => exact calm_of _ (execSwapDone_keeps k)
  | spareRetire o k e => exact execSpareRetire_calm o k e
  | spareReinstate o k e => exact execSpareReinstate_calm o k e
  | engineDrained k e => exact calm_of _ (execEngineDrained_keeps k e)
  | engineLost k e => exact calm_of _ (execEngineLost_keeps k e)
  | roleMapWrite o data => exact execRoleMapWrite_calm o data
  | roleChangeApply => exact calm_of _ execRoleChangeApply_keeps
  | lgdRuleRead o => exact execLgdRuleRead_calm o
  | lgdRuleWrite o => exact execLgdRuleWrite_calm o
  | lgdRuleInvalidate o => exact execLgdRuleInvalidate_calm o
  | lgdMoveBlock o => exact execLgdMoveBlock_calm o
  | lgdMoveDone => exact calm_of _ execLgdMoveDone_keeps
  | lgdHitClear o => exact execLgdHitClear_calm o
  | vidSliceRead o => exact execVidSliceRead_calm o
  | vidSliceWrite o => exact execVidSliceWrite_calm o
  | learnArbitration => exact calm_of _ execLearnArbitration_keeps
  | relocGuardExpire b => exact calm_of _ (execRelocGuardExpire_keeps b)
  | ageEpoch => exact calm_of _ execAgeEpoch_keeps
  | gztLookupCmd o => exact execGztLookupCmd_calm o
  | gztInsert o => exact execGztInsert_calm o
  | gztDeleteCmd o => exact execGztDeleteCmd_calm o
  | gztReadSlot o => exact execGztReadSlot_calm o
  | gztFlushDomain o => exact execGztFlushDomain_calm o
  | gztFlushDest o => exact execGztFlushDest_calm o
  | gztBulkDone => exact calm_of _ execGztBulkDone_keeps
  | gztThaw o => exact execGztThaw_calm o
  | gztSetDomainOwner o => exact execGztSetDomainOwner_calm o
  | queueRead o => exact execQueueRead_calm o
  | queueWrite o => exact execQueueWrite_calm o
  | queueCounterClear o => exact execQueueCounterClear_calm o
  | tmqOnuRead o => exact execTmqOnuRead_calm o
  | tmqOnuWrite o => exact execTmqOnuWrite_calm o
  | nodeRead o => exact execNodeRead_calm o
  | nodeWrite o => exact execNodeWrite_calm o
  | nodeSettle o => exact execNodeSettle_calm o
  | settleEnd level node => exact calm_of _ (execSettleEnd_keeps level node)
  | uplinkEgressPull q ptp => exact calm_of _ (execUplinkEgressPull_keeps q ptp)
  | prefetchMove q => exact calm_of _ (execPrefetchMove_keeps q)
  | spillWrite => exact calm_of _ execSpillWrite_keeps
  | bufferWaitGrant pool => exact calm_of _ (execBufferWaitGrant_keeps pool)
  | cxlMigrate o x => exact execCxlMigrate_calm o x
  | cxlCancel o x => exact execCxlCancel_calm o x
  | cxlLinkDown o x => exact execCxlLinkDown_calm o x
  | cxlLinkUp o x capGib => exact execCxlLinkUp_calm o x capGib
  | cxlTrainTimeout x => exact calm_of _ (execCxlTrainTimeout_keeps x)
  | migrationDone x => exact calm_of _ (execMigrationDone_keeps x)
  | expanderLinkLost x => exact calm_of _ (execExpanderLinkLost_keeps x)
  | stackFail stack => exact calm_of _ (execStackFail_keeps stack)
  | keyRead o => exact execKeyRead_calm o
  | keyWrite o conflict => exact execKeyWrite_calm o conflict
  | keyInvalidate o => exact execKeyInvalidate_calm o
  | saRead o q => exact execSaRead_calm o q
  | saWrite o q => exact execSaWrite_calm o q
  | saInvalidate o q => exact execSaInvalidate_calm o q
  | txAnSwitch q => exact calm_of _ (execTxAnSwitch_keeps q)
  | tamperAlarm alarm => exact calm_of _ (execTamperAlarm_keeps alarm)
  | keyZeroize o data => exact execKeyZeroize_calm o data
  | uplinkReceiveFrame q f => exact calm_of _ (execUplinkReceiveFrame_keeps q f)
  | xoffRefresh q => exact calm_of _ (execXoffRefresh_keeps q)
  | marginScanGo o l => exact execMarginScanGo_calm o l
  | marginScanDone l count => exact calm_of _ (execMarginScanDone_keeps l count)
  | doorbell o data => exact execDoorbell_calm o data
  | h2dDescriptor r d => exact calm_of _ (execH2dDescriptor_keeps r d)
  | d2hDelivery r len bufLen => exact calm_of _ (execD2hDelivery_keeps r len bufLen)
  | ringCoalesceTimer r => exact calm_of _ (execRingCoalesceTimer_keeps r)
  | dmaError r cause => exact calm_of _ (execDmaError_keeps r cause)
  | ringRead o => exact execRingRead_calm o
  | ringWrite o => exact execRingWrite_calm o
  | ringStart o => exact execRingStart_calm o
  | ringStop o => exact execRingStop_calm o
  | functionLevelReset f => exact calm_of _ (execFunctionLevelReset_keeps f)
  | perstDeassert => exact calm_of _ execPerstDeassert_keeps
  | i2cRead o j => exact execI2cRead_calm o j
  | i2cWrite o j => exact execI2cWrite_calm o j
  | i2cDone j nack bytes => exact calm_of _ (execI2cDone_keeps j nack bytes)
  | i2cTimeout j => exact calm_of _ (execI2cTimeout_keeps j)
  | alignmentMarker m lane at_ => exact calm_of _ (execAlignmentMarker_keeps m lane at_)
  | fillColumn m insert => exact calm_of _ (execFillColumn_keeps m insert)
  | hexcaMessageReceive m msg => exact calm_of _ (execHexcaMessageReceive_keeps m msg)
  | linkDefectChange m defect raised => exact calm_of _ (execLinkDefectChange_keeps m defect raised)
  | noticeResetReceive m => exact calm_of _ (execNoticeResetReceive_keeps m)
  | mirrorRead m => exact calm_of _ (execMirrorRead_keeps m)
  | meshTickSend => exact calm_of _ execMeshTickSend_keeps
  | meshTickReceive m t => exact calm_of _ (execMeshTickReceive_keeps m t)
  | hbPulse m widthGt offsetGt => exact calm_of _ (execHbPulse_keeps m widthGt offsetGt)
  | peerFailDeclare m => exact calm_of _ (execPeerFailDeclare_keeps m)
  | darkNoticeReceive m => exact calm_of _ (execDarkNoticeReceive_keeps m)
  | gmTake o => exact execGmTake_calm o
  | gmYield o => exact execGmYield_calm o
  | gmJoin o force => exact execGmJoin_calm o force
  | pairRead o => exact execPairRead_calm o
  | pairWrite o => exact execPairWrite_calm o
  | pairYield o => exact execPairYield_calm o
  | pairReclaim o => exact execPairReclaim_calm o
  | pairResync o => exact execPairResync_calm o
  | pairClaim o => exact execPairClaim_calm o
  | claimApply p => exact calm_of _ (execClaimApply_keeps p)
  | custodyTake p => exact calm_of _ (execCustodyTake_keeps p)
  | laserSettleEnd p => exact calm_of _ (execLaserSettleEnd_keeps p)
  | leaseRundown p => exact calm_of _ (execLeaseRundown_keeps p)
  | checkWindowEnd p => exact calm_of _ (execCheckWindowEnd_keeps p)
  | syncComplete p => exact calm_of _ (execSyncComplete_keeps p)
  | autoYield p => exact calm_of _ (execAutoYield_keeps p)
  | eventDeliver => exact calm_of _ execEventDeliver_keeps
  | evtRingRead o => exact execEvtRingRead_calm o
  | evtRingWrite o => exact execEvtRingWrite_calm o
  | evtRingStart o => exact execEvtRingStart_calm o
  | evtRingStop o => exact execEvtRingStop_calm o
  | journalStream => exact calm_of _ execJournalStream_keeps
  | journalRecordRead o data => exact execJournalRecordRead_calm o data
  | journalFlushDone => exact calm_of _ execJournalFlushDone_keeps
  | sliceEnWrite o data => exact execSliceEnWrite_calm o data
  | slcReadOwner o => exact execSlcReadOwner_calm o
  | slcAssign o => exact execSlcAssign_calm o
  | resetKey o data => exact execResetKey_calm o data
  | resetCmd o data => exact execResetCmd_calm o data
  | chipReset => exact calm_of _ execChipReset_keeps
  | powerGood st => exact absurd rfl (hg st)
  | fuseLoadDone groupsOk => exact calm_of _ (execFuseLoadDone_keeps groupsOk)
  | calibrationDone => exact calm_of _ execCalibrationDone_keeps
  | hbmTrained stack => exact execHbmTrained_grown stack
  | imageCheck img => exact execImageCheck_grown img
  | imageSourceTimeout => exact calm_of _ execImageSourceTimeout_keeps
  | release => exact calm_of _ execRelease_keeps
  | hostGo o => exact calm_of _ (execHostGo_keeps o)
  | bootRelease o => exact calm_of _ (execBootRelease_keeps o)
  | meshCopyServe m => exact calm_of _ (execMeshCopyServe_keeps m)
  | revokeKey o data => exact execRevokeKey_calm o data
  | revokeCmd o data => exact execRevokeCmd_calm o data
  | calUnlock o data => exact execCalUnlock_calm o data
  | calUnlockTimeout => exact calm_of _ execCalUnlockTimeout_keeps
  | calRead o => exact execCalRead_calm o
  | calStoreWrite o => exact execCalStoreWrite_calm o
  | calReload o => exact execCalReload_calm o
  | powerFailWarning => exact calm_of _ execPowerFailWarning_keeps
  | powerWarnEnd => exact calm_of _ execPowerWarnEnd_keeps
  | warnClr o => exact calm_of _ (execWarnClr_keeps o)
  | powerGoodFall => exact absurd rfl hf
  | bankRead o => exact execBankRead_calm o
  | bankOn o => exact execBankOn_calm o
  | bankRetention o => exact execBankRetention_calm o
  | bankOff o => exact execBankOff_calm o
  | faultSourceSet src party => exact calm_of _ (execFaultSourceSet_keeps src party)
  | reclaim => exact calm_of _ execReclaim_keeps
  | memRegionTest bad => exact calm_of _ (execMemRegionTest_keeps bad)
  | testStealTimeout => exact calm_of _ execTestStealTimeout_keeps
  | sweepLate => exact calm_of _ execSweepLate_keeps
  | engCheck k pass => exact calm_of _ (execEngCheck_keeps k pass)
  | eyeScan width => exact calm_of _ (execEyeScan_keeps width)
  | pmcStart o => exact execPmcStart_calm o
  | pmcStop o => exact execPmcStop_calm o
  | pmcSnapshot o => exact execPmcSnapshot_calm o
  | pmcCounterRead o => exact execPmcCounterRead_calm o
  | pmcCounterWrite o => exact execPmcCounterWrite_calm o
  | pmcGroupClear o => exact execPmcGroupClear_calm o
  | pmcGroupSnapshot o => exact execPmcGroupSnapshot_calm o
  | traceRecordRead o data => exact execTraceRecordRead_calm o data
  | traceStream => exact calm_of _ execTraceStream_keeps
  | uplinkLinkState q up hiBer => exact calm_of _ (execUplinkLinkState_keeps q up hiBer)
  | pcieLinkDown up => exact calm_of _ (execPcieLinkDown_keeps up)
  | cdrLockChange l locked => exact calm_of _ (execCdrLockChange_keeps l locked)
  | prbsCheckerLock l locked => exact calm_of _ (execPrbsCheckerLock_keeps l locked)
  | migrationBufferMove x => exact calm_of _ (execMigrationBufferMove_keeps x)
  | imageStageRestart => exact calm_of _ execImageStageRestart_keeps

/-- No command stops the block, and none touches the queue of commands. -/
theorem exec_keeps_pending (i : Instr) (s : State) : ∃ t, exec i s = .next t ∧ t.pending = s.pending := by
  by_cases hg : ∃ st, i = .powerGood st
  · obtain ⟨st, rfl⟩ := hg
    obtain ⟨t, ht, hp, -⟩ := execPowerGood_keeps st s
    exact ⟨t, ht, hp⟩
  · by_cases hf : i = .powerGoodFall
    · subst hf
      obtain ⟨t, ht, hp, -⟩ := execPowerGoodFall_keeps s
      exact ⟨t, ht, hp⟩
    · obtain ⟨t, ht, hp, -⟩ := exec_calm i (not_exists.mp hg) hf s
      exact ⟨t, ht, hp⟩

/-- Settles O59: an empty queue idles, and a command runs on the queue's rest, which it keeps. -/
theorem everyStepTakesOneCommand : Obligations.EveryStepTakesOneCommand := by
  intro s
  cases h : s.pending with
  | nil => exact ⟨idle s, step_nil s h, by simp [h]⟩
  | cons c rest =>
    obtain ⟨t, ht, hp⟩ := exec_keeps_pending c { s with pending := rest }
    exact ⟨t, by simpa only [step, h] using ht, hp⟩

end Sys2Proof.Machine
end

section
/-! SUPPORT. Footprints: what a step may touch, as parts of the state and as spans of the address map, where a span stands for its
registers and its counters. Footprints chain, and each shared operation has one. -/

namespace Sys2Proof.Machine

/-- A span of addresses: the first one, and the one after the last. -/
abbrev Span := Nat × Nat

/-- The span of one 4 KiB page, and of one address. -/
def pageSpan (b : Nat) : Span := (b, b + 0x1000)
def wordSpan (a : Nat) : Span := (a, a + 1)

/-- What a step may touch. -/
structure Foot where
  parts : List Part
  spans : List Span

/-- An address lies in no span of the list. -/
@[reducible] def Off (l : List Span) (a : Nat) : Prop := ∀ r ∈ l, a < r.1 ∨ r.2 ≤ a

/-- Every span of one list lies in a span of the other. -/
@[reducible] def Covers (m l : List Span) : Prop := ∀ r ∈ l, ∃ q ∈ m, q.1 ≤ r.1 ∧ r.2 ≤ q.2

/-- A footprint within another. -/
@[reducible] def Foot.Within (F G : Foot) : Prop := (∀ p ∈ F.parts, p ∈ G.parts) ∧ Covers G.spans F.spans

/-- Every part outside the footprint is unchanged, and so is every register and counter outside its spans. -/
structure Leaves (F : Foot) (s t : State) : Prop where
  only : Only F.parts s t
  reg : ∀ a, Off F.spans a → reg t a = reg s a
  cnt : ∀ a, Off F.spans a → cntAt t a = cntAt s a

variable {F G H : Foot} {s t u : State}

theorem Covers.off {m l : List Span} (h : Covers m l) {a : Nat} (ha : Off m a) : Off l a := by
  intro r hr
  obtain ⟨q, hq, h1, h2⟩ := h r hr
  have := ha q hq
  omega

theorem Leaves.refl (F : Foot) (s : State) : Leaves F s s := ⟨Only.refl _ s, fun _ _ => rfl, fun _ _ => rfl⟩

theorem Leaves.trans (h1 : Leaves F s t) (h2 : Leaves F t u) : Leaves F s u :=
  ⟨h1.only.trans h2.only, fun a ha => (h2.reg a ha).trans (h1.reg a ha), fun a ha => (h2.cnt a ha).trans (h1.cnt a ha)⟩

theorem Leaves.mono (h : Leaves F s t) (hw : F.Within G) : Leaves G s t :=
  ⟨h.only.mono hw.1, fun a ha => h.reg a (hw.2.off ha), fun a ha => h.cnt a (hw.2.off ha)⟩

/-- A step after others: its footprint lies within theirs. -/
theorem Leaves.andThen (h1 : Leaves G s t) (h2 : Leaves F t u) (hw : F.Within G) : Leaves G s u := h1.trans (h2.mono hw)

/-- A footprint with one more span. -/
def Foot.add (F : Foot) (r : Span) : Foot := ⟨F.parts, r :: F.spans⟩

theorem Leaves.add (h : Leaves F s t) (r : Span) : Leaves (F.add r) s t :=
  h.mono ⟨fun _ hp => hp, fun q hq => ⟨q, List.mem_cons_of_mem _ hq, le_refl _, le_refl _⟩⟩

theorem Leaves.foldl {α : Type} {f : State → α → State} {l : List α} (h : ∀ t, ∀ a ∈ l, Leaves F t (f t a)) (s : State) :
    Leaves F s (l.foldl f s) := by
  induction l generalizing s with
  | nil => exact .refl F s
  | cons a l ih => exact (h s a (by simp)).trans (ih (fun t b hb => h t b (by simp [hb])) _)

/-- A choice between two steps that start alike. -/
theorem Leaves.ite {c : Prop} [Decidable c] {a b : State} (ha : c → Leaves F s a) (hb : ¬ c → Leaves F s b) :
    Leaves F s (if c then a else b) := by
  split
  · exact ha ‹_›
  · exact hb ‹_›

/-- A step that touches neither registers nor counters. -/
theorem Leaves.of_only {l : List Part} (h : Only l s t) (hr : Part.regs ∉ l) (hc : Part.cnt ∉ l) : Leaves ⟨l, []⟩ s t :=
  ⟨h, fun a _ => congrArg (tget resetWord · a) (h .regs hr), fun a _ => congrArg (tget dzero · a) (h .cnt hc)⟩

theorem Leaves.fld (h : Leaves F s t) (b : Nat) (f : Fld) (ha : Off F.spans (b + f.off)) : fld t b f = fld s b f := by
  rw [Machine.fld, Machine.fld, h.reg _ ha]

theorem Leaves.isSet (h : Leaves F s t) (b : Nat) (f : Fld) (ha : Off F.spans (b + f.off)) : isSet t b f = isSet s b f := by
  rw [Machine.isSet, Machine.isSet, h.fld b f ha]

theorem Leaves.flagSet (h : Leaves F s t) (b : Nat) (f : Flag) (ha : Off F.spans (b + f.off)) : flagSet t b f = flagSet s b f :=
  h.isSet b ⟨f.off, f.bit, 1, 0⟩ ha

/-- A footprint as the model's frame of registers: its spans lie on the pages, or are the addresses. -/
theorem Leaves.regsOnly (h : Leaves F s t) (pages addrs : List Nat)
    (hs : ∀ r ∈ F.spans, (∃ b ∈ pages, r.1 / 0x1000 = b / 0x1000 ∧ (r.2 - 1) / 0x1000 = b / 0x1000) ∨
      (r.1 ∈ addrs ∧ r.2 = r.1 + 1)) : RegsOnly pages addrs s t := by
  intro a hn hp
  refine h.reg a (fun r hr => ?_)
  rcases hs r hr with ⟨b, hb, h1, h2⟩ | ⟨h1, h2⟩
  · have := hp b hb
    omega
  · have : a ≠ r.1 := fun he => hn (he ▸ h1)
    omega

/-! ### Registers, counters, flags and events -/

/-- The overflow words of the performance counters, and what counting touches. -/
def pmcSpan : Span := (pgPMC + 0x70, pgPMC + 0xC1)

theorem pmcWord_of_off {l : List Span} {a : Nat} (h : Off l a) (hm : pmcSpan ∈ l) : pmcWord a = false := by
  have h1 : a < 0x9070 ∨ 0x90C1 ≤ a := h pmcSpan hm
  have hov : pgPMC + PMC_F_OVF.off = 0x9070 := rfl
  have hcnt : pgPMC + PMC_F_OVF.cntOff = 0x90C0 := rfl
  rw [pmcWord, hov, hcnt, Bool.or_eq_false_iff, beq_eq_false_iff_ne, beq_eq_false_iff_ne]
  omega

theorem ne_of_off {l : List Span} {a b : Nat} (h : Off l a) (hm : wordSpan b ∈ l) : a ≠ b := by
  have h1 : a < b ∨ b + 1 ≤ a := h _ hm
  omega

theorem leaves_setReg (s : State) (a : Nat) (w : Word) : Leaves ⟨[.regs], [wordSpan a]⟩ s (setReg s a w) :=
  ⟨only_setReg s a w, fun _ h => reg_setReg_other _ _ _ _ (ne_of_off h (by simp)), fun _ _ => rfl⟩

theorem leaves_setFld (s : State) (b : Nat) (f : Fld) (v : Nat) : Leaves ⟨[.regs], [wordSpan (b + f.off)]⟩ s (setFld s b f v) :=
  leaves_setReg s _ _

theorem leaves_setBit (s : State) (b : Nat) (f : Fld) (v : Bool) : Leaves ⟨[.regs], [wordSpan (b + f.off)]⟩ s (setBit s b f v) :=
  leaves_setReg s _ _

/-- A field of a page within a span of it. -/
theorem leaves_setFld_in (s : State) (b : Nat) (f : Fld) (v : Nat) {lo hi : Nat} (h : lo ≤ f.off ∧ f.off < hi) :
    Leaves ⟨[.regs], [(b + lo, b + hi)]⟩ s (setFld s b f v) :=
  (leaves_setFld s b f v).mono (by simp [Foot.Within, Covers, wordSpan]; omega)

theorem leaves_bump (s : State) (b i n : Nat) :
    Leaves ⟨[.regs, .cnt, .pmc], [pmcSpan, wordSpan (cntAddr b i)]⟩ s (bump s b i n) :=
  ⟨only_bump s b i n, fun a h => reg_bump s b i n a (pmcWord_of_off h (by simp)),
    fun a h => by rw [cntAt_bump, if_neg (ne_of_off h (by simp))]⟩

theorem leaves_flag (s : State) (b : Nat) (f : Flag) :
    Leaves ⟨[.regs, .pmc], [pmcSpan, wordSpan (b + f.off), wordSpan (b + f.cntOff)]⟩ s (flag s b f) :=
  ⟨only_flag s b f, fun a h => reg_flag s b f a (ne_of_off h (by simp)) (ne_of_off h (by simp)) (pmcWord_of_off h (by simp)),
    fun a _ => cntAt_flag s b f a⟩

theorem leaves_note (s : State) (b : Nat) (f : Flag) (i : Nat) :
    Leaves ⟨[.regs, .cnt, .pmc], [pmcSpan, wordSpan (b + f.off), wordSpan (b + f.cntOff), wordSpan (cntAddr b i)]⟩ s (note s b f i) :=
  ((leaves_flag s b f).mono (by simp [Foot.Within, Covers])).andThen (leaves_bump _ b i 1) (by simp [Foot.Within, Covers])

theorem only_fifo (s : State) (e : EvtSt) (h : e.rings = s.evt.rings) : Only [.fifo] s { s with evt := e } := by
  intro p hp
  cases p
  case fifo => simp at hp
  case evtRings => exact h
  all_goals rfl

/-- What an event touches besides its page's EVT_SEQ. -/
def eventFoot : Foot := ⟨alerts, [pmcSpan, pageSpan pgEVT]⟩

theorem leaves_postTo (s : State) (b v : Nat) (c : EvCode) (l : List Nat) :
    Leaves (eventFoot.add (wordSpan (b + ANY_EVT_SEQ.off))) s (postTo s b v c l) := by
  have taken : Leaves (eventFoot.add (wordSpan (b + ANY_EVT_SEQ.off))) s (setFld s b ANY_EVT_SEQ (fld s b ANY_EVT_SEQ + 1)) :=
    (leaves_setFld s b ANY_EVT_SEQ _).mono ⟨by simp [Foot.add, eventFoot, alerts],
      fun r hr => ⟨r, List.mem_cons.mpr (.inl (List.mem_singleton.mp hr)), le_refl _, le_refl _⟩⟩
  have counted := taken.trans (((leaves_bump _ pgEVT EVT_C_POSTED 1).mono (G := eventFoot) (by decide)).add _)
  unfold postTo
  dsimp only
  refine .ite (fun _ => .ite (fun _ => ?_) (fun _ => ?_)) (fun _ => counted)
  · exact (counted.trans (((leaves_setFld _ pgEVT EVT_FIFO_FILL (s.evt.fifo.length + 1)).mono (by decide)).add _)).trans
      (((Leaves.of_only (only_fifo _ _ (by simp)) (by decide) (by decide)).mono (by decide)).add _)
  · exact (counted.trans (((leaves_flag _ pgEVT EVT_F_FIFO_DROP).mono (by decide)).add _)).trans
      (((leaves_bump _ pgEVT EVT_C_FIFO_DROP 1).mono (by decide)).add _)

theorem leaves_post (s : State) (b : Nat) (c : EvCode) (l : List Nat) :
    Leaves (eventFoot.add (wordSpan (b + ANY_EVT_SEQ.off))) s (post s b c l) := leaves_postTo ..

end Sys2Proof.Machine
end

section
/-! SUPPORT. What the stores of contexts, clusters, reorder sources and buffers leave, and what they read as (R148, R161, R203). -/

namespace Sys2Proof.Machine

variable {F : Foot} {s t : State}

/-! ### Reading a part that a step leaves -/

theorem Leaves.eng_ctx (h : Leaves F s t) (hp : Part.ctx ∉ F.parts) (c : CtxId) : ctx t c = ctx s c :=
  congrArg (tget Ctx.init · (ctxKey c)) (h.only .ctx hp)

theorem Leaves.eng_cluster (h : Leaves F s t) (hp : Part.cluster ∉ F.parts) (k : Nat) : cluster t k = cluster s k :=
  congrArg (tget Cluster.init · k) (h.only .cluster hp)

theorem Leaves.eng_rdrSrc (h : Leaves F s t) (hp : Part.rdr ∉ F.parts) (src : Nat) : rdrSrc t src = rdrSrc s src :=
  congrArg (tget RdrSrc.init · src) (h.only .rdr hp)

theorem Leaves.tm_buf (h : Leaves F s t) (hp : Part.buf ∉ F.parts) (b : Nat) : buf t b = buf s b :=
  congrArg (tget Buf.init · b) (h.only .buf hp)

theorem Leaves.tst_faults (h : Leaves F s t) (hp : Part.faults ∉ F.parts) :
    t.tst.queue = s.tst.queue ∧ t.tst.outside = s.tst.outside := Prod.mk.inj (h.only .faults hp)

theorem Leaves.reacts (h : Leaves F s t) (j : Nat) (ha : Off F.spans (pgFLT + (FLT_REACT.at j).off)) : react t j = react s j :=
  h.fld pgFLT (FLT_REACT.at j) ha

/-! ### Contexts (R148, R169) -/

theorem ctxKey_inj {c d : CtxId} : ctxKey c = ctxKey d ↔ c = d := by
  refine ⟨fun h => ?_, fun h => h ▸ rfl⟩
  obtain ⟨k, e, x⟩ := c
  obtain ⟨k', e', x'⟩ := d
  simp only [ctxKey] at h
  simp only [CtxId.mk.injEq, Fin.ext_iff]
  omega

theorem only_ctx (s : State) (l : Tbl Ctx) : Only [.ctx] s { s with eng := { s.eng with ctx := l } } := by
  intro p hp
  cases p
  case ctx => simp at hp
  all_goals rfl

/-- What storing a context touches: the contexts, and the window of its cluster's page. -/
def ctxFoot (k : Nat) : Foot := ⟨[.ctx, .regs], [(pgENG k + 0x84, pgENG k + 0x8C)]⟩

theorem leaves_showCtx (s : State) (k : Nat) : Leaves (ctxFoot k) s (showCtx s k) := by
  have shown (t : State) (f : Fld) (v : Nat) (h : 0x84 ≤ f.off ∧ f.off < 0x8C) : Leaves (ctxFoot k) t (setFld t (pgENG k) f v) :=
    (leaves_setFld_in t _ f v h).mono (by simp [Foot.Within, Covers, ctxFoot])
  unfold showCtx
  exact ((((((shown _ _ _ (by decide)).trans (shown _ _ _ (by decide))).trans (shown _ _ _ (by decide))).trans (shown _ _ _ (by decide))).trans
    (shown _ _ _ (by decide))).trans (shown _ _ _ (by decide))).trans (shown _ _ _ (by decide))

theorem leaves_setCtx (s : State) (c : CtxId) (x : Ctx) : Leaves (ctxFoot c.k) s (setCtx s c x) := by
  have stored : Leaves (ctxFoot c.k) s { s with eng := { s.eng with ctx := tset Ctx.init s.eng.ctx (ctxKey c) x } } :=
    (Leaves.of_only (only_ctx s _) (by decide) (by decide)).mono (by simp [Foot.Within, Covers, ctxFoot])
  unfold setCtx
  exact .ite (fun _ => stored.trans (leaves_showCtx _ _)) (fun _ => stored)

theorem setCtx_eng (s : State) (c : CtxId) (x : Ctx) :
    (setCtx s c x).eng = { s.eng with ctx := tset Ctx.init s.eng.ctx (ctxKey c) x } := by
  unfold setCtx
  dsimp only
  split <;> simp [showCtx]

theorem ctx_setCtx (s : State) (c d : CtxId) (x : Ctx) : ctx (setCtx s c x) d = if d = c then x else ctx s d := by
  rw [ctx, setCtx_eng, tget_tset]
  simp only [ctxKey_inj]
  rfl

@[simp] theorem ctx_setCtx_same (s : State) (c : CtxId) (x : Ctx) : ctx (setCtx s c x) c = x := by simp [ctx_setCtx]

theorem tblOnly_setCtx (s : State) (c : CtxId) (x : Ctx) : TblOnly Ctx.init (ctxKey c) s.eng.ctx (setCtx s c x).eng.ctx := by
  intro j hj
  rw [setCtx_eng]
  exact tget_tset_other _ _ _ _ _ hj

/-! ### Clusters and reorder sources -/

theorem only_cluster (s : State) (l : Tbl Cluster) : Only [.cluster] s { s with eng := { s.eng with cl := l } } := by
  intro p hp
  cases p
  case cluster => simp at hp
  all_goals rfl

theorem leaves_setCluster (s : State) (k : Nat) (x : Cluster) : Leaves ⟨[.cluster], []⟩ s (setCluster s k x) :=
  .of_only (only_cluster s _) (by decide) (by decide)

@[simp] theorem cluster_setCluster_same (s : State) (k : Nat) (x : Cluster) : cluster (setCluster s k x) k = x :=
  tget_tset_same Cluster.init s.eng.cl k x

theorem only_rdr (s : State) (l : Tbl RdrSrc) : Only [.rdr] s { s with eng := { s.eng with rdr := l } } := by
  intro p hp
  cases p
  case rdr => simp at hp
  all_goals rfl

theorem leaves_setRdrSrc (s : State) (src : Nat) (r : RdrSrc) : Leaves ⟨[.rdr], []⟩ s (setRdrSrc s src r) :=
  .of_only (only_rdr s _) (by decide) (by decide)

@[simp] theorem rdrSrc_setRdrSrc_same (s : State) (src : Nat) (r : RdrSrc) : rdrSrc (setRdrSrc s src r) src = r :=
  tget_tset_same RdrSrc.init s.eng.rdr src r

theorem tblOnly_setRdrSrc (s : State) (src : Nat) (r : RdrSrc) : TblOnly RdrSrc.init src s.eng.rdr (setRdrSrc s src r).eng.rdr :=
  fun _ hj => tget_tset_other _ _ _ _ _ hj

/-! ### Buffers (R199, R203, R204) -/

theorem only_buf (s : State) (l : Tbl Buf) : Only [.buf] s { s with tm := { s.tm with buf := l } } := by
  intro p hp
  cases p
  case buf => simp at hp
  all_goals rfl

/-- What a move of references touches. -/
def refFoot : Foot := ⟨[.buf], []⟩

theorem leaves_setBuf (s : State) (h : Nat) (b : Buf) : Leaves refFoot s (setBuf s h b) := .of_only (only_buf s _) (by decide) (by decide)

theorem buf_setBuf (s : State) (h j : Nat) (b : Buf) : buf (setBuf s h b) j = if j = h then b else buf s j := tget_tset Buf.init s.tm.buf h j b

theorem leaves_setRefs (s : State) (h tag : Nat) (l : List Nat) : Leaves refFoot s (setRefs s h tag l) :=
  .foldl (fun t x _ => leaves_setBuf t x _) s

/-- Every buffer of the chain has the new references, its first one included. -/
theorem holders_setRefs (s : State) (h tag : Nat) (l : List Nat) : (buf (setRefs s h tag l) h).holders = l := by
  have kept (xs : List Nat) (t : State) (ht : (buf t h).holders = l) :
      (buf (xs.foldl (fun t x => setBuf t x { buf t x with tag := tag, holders := l }) t) h).holders = l := by
    induction xs generalizing t with
    | nil => exact ht
    | cons x xs ih =>
      refine ih _ ?_
      rw [buf_setBuf]
      split <;> simp_all
  exact kept (buf s h).chain _ (by simp [buf_setBuf])

theorem leaves_passBuf (s : State) (h party heir : Nat) : Leaves refFoot s (passBuf s h party heir) := by
  unfold passBuf
  exact .ite (fun _ => leaves_setRefs s h _ _) (fun _ => .refl _ s)

theorem holders_passBuf (s : State) (h party heir : Nat) (hc : (buf s h).holders.contains party = true) :
    (buf (passBuf s h party heir) h).holders = heir :: (buf s h).holders.erase party := by
  simp only [passBuf, if_pos hc]
  exact holders_setRefs s h _ _

theorem leaves_unchain (s : State) (h : Nat) : Leaves refFoot s (unchain s h) := by
  unfold unchain
  split
  · exact leaves_setBuf s _ _
  · exact .refl _ s

theorem leaves_clearChain (s : State) (h : Nat) : Leaves refFoot s (clearChain s h) :=
  (Leaves.foldl (fun t x _ => leaves_setBuf t x (Buf.init x)) s).trans (leaves_unchain _ h)

theorem fst_ne_of_mem_tdel {α : Type} (t : Tbl α) (k : Nat) (e : Nat × α) (h : e ∈ tdel t k) : e.1 ≠ k ∧ e ∈ t := by
  induction t with
  | nil => simp [tdel] at h
  | cons x t ih =>
    obtain ⟨j, v⟩ := x
    simp only [tdel] at h
    split at h
    · exact ⟨(ih h).1, List.mem_cons_of_mem _ (ih h).2⟩
    · rcases List.mem_cons.mp h with rfl | h
      · exact ⟨Ne.symm ‹_›, by simp⟩
      · exact ⟨(ih h).1, List.mem_cons_of_mem _ (ih h).2⟩

/-- The table of buffers once those of a list are free. -/
theorem not_listed_of_cleared (xs : List Nat) (s : State) (h : Nat) (hm : h ∈ xs ∨ ∀ e ∈ s.tm.buf, e.1 ≠ h) :
    ∀ e ∈ (xs.foldl (fun t x => setBuf t x (Buf.init x)) s).tm.buf, e.1 ≠ h := by
  induction xs generalizing s with
  | nil => exact hm.resolve_left (by simp)
  | cons x xs ih =>
    refine ih _ ?_
    have htbl : (setBuf s x (Buf.init x)).tm.buf = tdel s.tm.buf x := by simp [setBuf, tset]
    rw [htbl]
    rcases hm with hm | hm
    · rcases List.mem_cons.mp hm with rfl | hm
      · exact .inr (fun e he => (fst_ne_of_mem_tdel _ _ e he).1)
      · exact .inl hm
    · exact .inr (fun e he => hm e (fst_ne_of_mem_tdel _ _ e he).2)

theorem tget_of_not_listed {α : Type} (d : Nat → α) (t : Tbl α) (k : Nat) (h : ∀ e ∈ t, e.1 ≠ k) : tget d t k = d k := by
  induction t with
  | nil => rfl
  | cons e t ih =>
    rw [tget, if_neg (Ne.symm (h e (by simp)))]
    exact ih (fun e he => h e (List.mem_cons_of_mem _ he))

/-- A chain returned to its pools leaves its first buffer free. -/
theorem buf_clearChain (s : State) (h : Nat) : buf (clearChain s h) h = Buf.init h := by
  have cleared := not_listed_of_cleared (chainOf s h) s h (.inl (by simp [chainOf]))
  rw [clearChain]
  generalize (chainOf s h).foldl (fun t x => setBuf t x (Buf.init x)) s = t at cleared ⊢
  have free : buf t h = Buf.init h := tget_of_not_listed _ _ _ cleared
  unfold unchain
  split
  · rename_i x b hx
    rw [buf_setBuf, if_neg (Ne.symm (cleared _ (List.mem_of_find?_eq_some hx))), free]
  · exact free

/-- What a free touches. -/
def freeFoot : Foot := ⟨[.buf, .regs, .cnt, .pmc], [pmcSpan, pageSpan pgBPM]⟩

theorem leaves_releaseBuf (s : State) (h : Nat) : Leaves freeFoot s (releaseBuf s h) :=
  ((leaves_clearChain s h).mono (by decide)).andThen (leaves_bump _ _ _ _) (by decide)

theorem leaves_dropRef (s : State) (h party : Nat) : Leaves freeFoot s (dropRef s h party) := by
  unfold dropRef
  exact .ite (fun _ => leaves_releaseBuf s h) (fun _ => (leaves_setRefs s h _ _).mono (by decide))

theorem leaves_logBad (s : State) (h party : Nat) : Leaves freeFoot s (logBad s h party) := by
  have logged (t : State) (f : Fld) (v : Nat) (hf : 0 ≤ f.off ∧ f.off < 0x1000) : Leaves freeFoot t (setFld t pgBPM f v) :=
    (leaves_setFld_in t pgBPM f v hf).mono (by decide)
  unfold logBad
  exact .ite (fun _ => .refl _ s) (fun _ => (((logged _ _ _ (by decide)).trans (logged _ _ _ (by decide))).trans
    (logged _ _ _ (by decide))).trans (logged _ _ _ (by decide)))

theorem leaves_freeBuf (s : State) (h party : Nat) (free : Bool) : Leaves freeFoot s (freeBuf s h party free) := by
  unfold freeBuf
  exact .ite (fun _ => (leaves_logBad s h party).andThen (leaves_note _ _ _ _) (by decide))
    (fun _ => .ite (fun _ => (leaves_logBad s h party).andThen (leaves_note _ _ _ _) (by decide)) (fun _ => leaves_dropRef s h party))

/-- The only holder's reference −1 frees the buffer. -/
theorem buf_freeBuf_last (s : State) (h party : Nat) (hh : (buf s h).holders = [party]) : buf (freeBuf s h party false) h = Buf.init h := by
  simp only [freeBuf, dropRef, hh, List.contains_cons, beq_self_eq_true, List.erase_cons_head]
  exact ((leaves_bump _ _ _ _).tm_buf (by simp) h).trans (buf_clearChain s h)

theorem leaves_dropAll (s : State) (h party : Nat) : Leaves refFoot s (dropAll s h party) := leaves_setBuf s _ _

theorem leaves_reclaimBufs (s : State) (party : Nat) : Leaves freeFoot s (reclaimBufs s party).1 :=
  ((Leaves.foldl (fun t h _ => leaves_dropAll t h party) s).mono (by decide)).andThen (leaves_bump _ _ _ _) (by decide)

/-! ### The published figures of the pools (R205, R215) -/

/-- What the pools publish, and SHARED_OVER of TMQ. -/
def poolsFoot : Foot := ⟨[.regs, .pmc],
  [pmcSpan, pageSpan pgTMQ, (pgBPM + 0x50, pgBPM + 0x64), (pgBPM + 0x100, pgBPM + 0x164), (pgCXL 0, pgCXL 4)]⟩

theorem leaves_publishPools (s : State) : Leaves poolsFoot s (publishPools s) := by
  have sums (t : State) (f : Fld) (v : Nat) (hf : 0x50 ≤ f.off ∧ f.off < 0x64) : Leaves poolsFoot t (setFld t pgBPM f v) :=
    (leaves_setFld_in t pgBPM f v hf).mono (by decide)
  have expander (t : State) (x : Nat) (hx : x ∈ List.range 4) (f : Fld) (v : Nat) (hf : 0 ≤ f.off ∧ f.off < 0x1000) :
      Leaves poolsFoot t (setFld t (pgCXL x) f v) := by
    refine (leaves_setFld_in t (pgCXL x) f v hf).mono ⟨by simp [poolsFoot], ?_⟩
    revert x
    decide
  have waits (t : State) (r : Nat) (hr : r ∈ List.range 25) (v : Nat) : Leaves poolsFoot t (setFld t pgBPM (BPM_WAITING.at r) v) := by
    refine (leaves_setFld t pgBPM (BPM_WAITING.at r) v).mono ⟨by simp [poolsFoot], ?_⟩
    revert r
    decide
  unfold publishPools
  refine .trans (.trans ?_ (.foldl (fun t x hx => ?_) _)) (.foldl (fun t r hr => waits t r hr _) _)
  · exact ((((sums _ _ _ (by decide)).trans (sums _ _ _ (by decide))).trans (sums _ _ _ (by decide))).trans
      (sums _ _ _ (by decide))).trans (sums _ _ _ (by decide))
  · exact (expander t x hx _ _ (by decide)).trans (expander _ x hx _ _ (by decide))

theorem leaves_settlePools (s t : State) : Leaves poolsFoot t (settlePools s t) := by
  unfold settlePools
  exact .trans (.ite (fun _ => (leaves_flag _ _ _).mono (by decide)) (fun _ => .refl _ _)) (leaves_publishPools _)

end Sys2Proof.Machine
end

section
/-! SUPPORT. The fault of one context whose cluster's faults stand alone (R158, R319 to R323): it is fenced, queued, reclaimed at once, and
IDLE again. -/

namespace Sys2Proof.Machine

/-! ### Sources and records -/

/-- What a notice touches: the page FLT but for its reactions, and what an event touches. -/
def noticeFoot : Foot := ⟨alerts, [pmcSpan, pageSpan pgEVT, (pgFLT, pgFLT + 0x100), (pgFLT + 0x200, pgFLT + 0x1000)]⟩

theorem leaves_refreshPins (s : State) : Leaves noticeFoot s (refreshPins s) :=
  ((leaves_setBit s pgFLT FLT_TRAP_PIN _).mono (by decide)).andThen (leaves_setBit _ pgFLT FLT_ERR_PIN _) (by decide)

/-- The flag of source j with its occurrence counter (R319). -/
def sourceFlag (j : Nat) : Flag := ⟨FLT_SRC_STATUS.off + 4 * (j / 32), j % 32, FLT_SRC_CNT.off + 4 * (j / 2), 16 * (j % 2)⟩

theorem leaves_setSource (s : State) (j : Nat) (hj : j < 64) : Leaves noticeFoot s (setSource s j) := by
  have marked : Leaves noticeFoot s (flag s pgFLT (sourceFlag j)) := by
    refine (leaves_flag s pgFLT _).mono ⟨by simp [noticeFoot, alerts], ?_⟩
    revert j
    decide
  have set := (marked.andThen (leaves_bump _ pgFLT FLT_C_FAULTS 1) (by decide)).trans (leaves_refreshPins _)
  unfold setSource
  exact .ite (fun _ => set.andThen (leaves_note _ _ _ _) (by decide)) (fun _ => set)

theorem off_react : ∀ j < 64, Off noticeFoot.spans (pgFLT + (FLT_REACT.at j).off) := by decide

theorem leaves_faultRecord (s : State) (src tag bufs locks slots : Nat) :
    Leaves noticeFoot s (faultRecord s src tag bufs locks slots) := by
  have latched (t : State) (f : Fld) (v : Nat) (hf : 0 ≤ f.off ∧ f.off < 0x100) : Leaves noticeFoot t (setFld t pgFLT f v) :=
    (leaves_setFld_in t pgFLT f v hf).mono (by decide)
  unfold faultRecord
  exact (((((latched _ _ _ (by decide)).trans (latched _ _ _ (by decide))).trans (latched _ _ _ (by decide))).trans
    (latched _ _ _ (by decide))).trans (latched _ _ _ (by decide))).andThen (leaves_post _ _ _ _) (by decide)

/-- Neither reset follows from a source whose reactions ask for none. -/
theorem lastReactions_none (s : State) (src : Nat) (q : Option Party) (m : Bool) (h2 : bitAt (react s src) 2 = false)
    (h3 : bitAt (react s src) 3 = false) : lastReactions s src q m = s := by
  simp [lastReactions, h2, h3]

/-- A notice that names no party, of a source whose reactions ask for no reset (R321, R323). -/
theorem notice_none (s : State) (src : Nat) (hs : src < 64) (h2 : bitAt (react s src) 2 = false) (h3 : bitAt (react s src) 3 = false) :
    Leaves noticeFoot s (notice s src none) := by
  have told := (leaves_setSource s src hs).trans (leaves_faultRecord (setSource s src) src 0 0 0 0)
  have same : react (faultRecord (setSource s src) src 0 0 0 0) src = react s src := by
    exact told.reacts src (off_react src hs)
  rw [notice, lastReactions_none _ _ _ _ (by rw [same, h2]) (by rw [same, h3])]
  exact told

/-! ### Fence and queue -/

theorem only_faults (s : State) (l m : List FaultReq) : Only [.faults] s { s with tst := { s.tst with queue := l, outside := m } } := by
  intro p hp
  cases p
  case faults => simp at hp
  all_goals rfl

theorem leaves_showQueue (s : State) : Leaves noticeFoot s (showQueue s) :=
  ((leaves_setBit s pgFLT FLT_RECLAIM_BUSY _).mono (by decide)).andThen (leaves_setFld _ pgFLT FLT_RQ_FILL _) (by decide)

/-- What storing the reclaim queue touches. -/
def queueFoot : Foot := ⟨.faults :: alerts, noticeFoot.spans⟩

theorem leaves_faults (s : State) (l m : List FaultReq) :
    Leaves queueFoot s (showQueue { s with tst := { s.tst with queue := l, outside := m } }) :=
  ((Leaves.of_only (only_faults s l m) (by decide) (by decide)).mono (by decide)).andThen (leaves_showQueue _) (by decide)

/-- The queue holds this request alone. -/
def QueueIs (s : State) (l : List FaultReq) : Prop := s.tst.queue = l ∧ s.tst.outside = []

theorem queueIs_showQueue (s : State) (l : List FaultReq) :
    QueueIs (showQueue { s with tst := { s.tst with queue := l, outside := [] } }) l :=
  (leaves_showQueue { s with tst := { s.tst with queue := l, outside := [] } }).tst_faults (by decide)

/-- A halted context's party enters an empty queue. -/
theorem enterQueue_empty (s : State) (src : Nat) (q : Party) (h : QueueIs s []) :
    ∃ m, enterQueue s src q = showQueue { s with tst := { s.tst with queue := [⟨src, q, m⟩], outside := [] } } := by
  obtain ⟨hq, ho⟩ := h
  refine ⟨(FaultReq.scope s ⟨src, q, false⟩).isSome && ([] : List FaultReq).any (fun x => x.scope s == FaultReq.scope s ⟨src, q, false⟩), ?_⟩
  unfold enterQueue
  simp [hq, ho, reclaimMax]

/-- The reclaim engine takes the only party there is. -/
theorem reclaimNext_only (s : State) (e : FaultReq) (h : QueueIs s [e]) :
    reclaimNext s = lastReactions (reclaimParty (showQueue { s with tst := { s.tst with queue := [], outside := [] } }) e.src e.party)
      e.src (some e.party) e.merged := by
  obtain ⟨hq, ho⟩ := h
  simp [reclaimNext, hq, ho]

/-! ### Reclaim of one context -/

theorem only_wait (s : State) (l : Tbl (List WaitReq)) : Only [.wait] s { s with tm := { s.tm with wait := l } } := by
  intro p hp
  cases p
  case wait => simp at hp
  all_goals rfl

theorem leaves_setWaitQ (s : State) (q : Nat) (l : List WaitReq) : Leaves ⟨[.wait], []⟩ s (setWaitQ s q l) :=
  .of_only (only_wait s _) (by decide) (by decide)

theorem only_arb (s : State) (l : List LearnReq) : Only [.arb] s { s with cls := { s.cls with arb := l } } := by
  intro p hp
  cases p
  case arb => simp at hp
  all_goals rfl

theorem leaves_dropRequests (s : State) (c : CtxId) : Leaves ⟨[.wait, .arb], []⟩ s (dropRequests s c).1 :=
  ((Leaves.foldl (fun t q _ => leaves_setWaitQ t q _) s).mono (by decide)).andThen
    (.of_only (only_arb _ _) (by decide) (by decide)) (by decide)

/-- A source that may have one more verdict: all but the verdicts it holds is unchanged. -/
def SameSource (r r' : RdrSrc) : Prop := r' = { r with held := r'.held }

theorem sameSource_skipSlot (s : State) (c : CtxId) (src : Nat) : SameSource (rdrSrc s src) (rdrSrc (skipSlot s c).1 src) := by
  unfold skipSlot
  dsimp only
  split
  · show SameSource _ (tget _ (tset _ _ _ _) src)
    rw [tget_tset]
    split
    · subst_vars; rfl
    · rfl
  · rfl

theorem leaves_skipSlot (s : State) (c : CtxId) : Leaves ⟨[.rdr], []⟩ s (skipSlot s c).1 := by
  unfold skipSlot
  dsimp only
  split
  · exact leaves_setRdrSrc s _ _
  · exact .refl _ s

/-- What the reclaim of one context of cluster k touches. -/
def reclaimFoot (k : Nat) : Foot := ⟨[.ctx, .rdr, .wait, .arb, .buf, .regs, .cnt, .fifo, .pmc],
  noticeFoot.spans ++ [pageSpan pgTMQ, pageSpan pgBPM, (pgCXL 0, pgCXL 4), (pgENG k + 0x84, pgENG k + 0x8C)]⟩

theorem ctxFoot_within_reclaim (k : Fin 16) : (ctxFoot k).Within (reclaimFoot k) := by revert k; decide
theorem freeFoot_within_reclaim (k : Fin 16) : freeFoot.Within (reclaimFoot k) := by revert k; decide

theorem reclaimCtx_fst (s : State) (c : CtxId) :
    (reclaimCtx s c).1 = setCtx (skipSlot (dropRequests s c).1 c).1 c (ctx s c).ended := rfl

theorem leaves_reclaimCtx (s : State) (c : CtxId) : Leaves (reclaimFoot c.k) s (reclaimCtx s c).1 := by
  rw [reclaimCtx_fst]
  exact (((leaves_dropRequests s c).mono (by simp [Foot.Within, Covers, reclaimFoot])).andThen (leaves_skipSlot _ c)
    (by simp [Foot.Within, Covers, reclaimFoot])).andThen (leaves_setCtx _ c _) (ctxFoot_within_reclaim c.k)

theorem ctx_reclaimCtx (s : State) (c d : CtxId) : ctx (reclaimCtx s c).1 d = if d = c then (ctx s c).ended else ctx s d := by
  rw [reclaimCtx_fst, ctx_setCtx, (leaves_skipSlot _ c).eng_ctx (by simp), (leaves_dropRequests s c).eng_ctx (by simp)]

/-- The reclaim of a context is its buffers', its own, and the record's. -/
theorem reclaimParty_ctx (s : State) (src : Nat) (c : CtxId) :
    ∃ b l m, reclaimParty s src (.ctx c) = settlePools s (faultRecord (flag (bump (bump (bump
      (reclaimCtx (reclaimBufs s (tagCtx c)).1 c).1 pgFLT FLT_C_BUFS_RECLAIMED b) pgFLT FLT_C_LOCKS_RELEASED l)
        pgFLT FLT_C_SLOTS_SKIPPED m) pgFLT FLT_F_RECLAIM_DONE) src (tagCtx c) b l m) := ⟨_, _, _, rfl⟩

/-- What follows the reclaim itself. -/
theorem leaves_reclaimTail (s t : State) (src tag b l m : Nat) : Leaves ⟨[.regs, .cnt, .fifo, .pmc], noticeFoot.spans ++ poolsFoot.spans⟩ t
    (settlePools s (faultRecord (flag (bump (bump (bump t pgFLT FLT_C_BUFS_RECLAIMED b) pgFLT FLT_C_LOCKS_RELEASED l)
      pgFLT FLT_C_SLOTS_SKIPPED m) pgFLT FLT_F_RECLAIM_DONE) src tag b l m)) :=
  ((((((leaves_bump t _ _ _).mono (by decide)).andThen (leaves_bump _ _ _ _) (by decide)).andThen (leaves_bump _ _ _ _) (by decide)).andThen
    (leaves_flag _ _ _) (by decide)).andThen (leaves_faultRecord _ _ _ _ _ _) (by decide)).andThen (leaves_settlePools s _) (by decide)

theorem leaves_reclaimParty_ctx (s : State) (src : Nat) (c : CtxId) : Leaves (reclaimFoot c.k) s (reclaimParty s src (.ctx c)) := by
  obtain ⟨b, l, m, he⟩ := reclaimParty_ctx s src c
  rw [he]
  have reclaimed := ((leaves_reclaimBufs s (tagCtx c)).mono (freeFoot_within_reclaim c.k)).trans (leaves_reclaimCtx _ c)
  refine reclaimed.andThen (leaves_reclaimTail s _ _ _ _ _ _) ?_
  generalize c.k = k
  revert k
  decide

theorem ctx_reclaimParty_ctx (s : State) (src : Nat) (c d : CtxId) :
    ctx (reclaimParty s src (.ctx c)) d = if d = c then (ctx s c).ended else ctx s d := by
  obtain ⟨b, l, m, he⟩ := reclaimParty_ctx s src c
  have freed := leaves_reclaimBufs s (tagCtx c)
  rw [he, (leaves_reclaimTail s _ _ _ _ _ _).eng_ctx (by decide), ctx_reclaimCtx, freed.eng_ctx (by decide), freed.eng_ctx (by decide)]

theorem sameSource_reclaimParty_ctx (s : State) (src : Nat) (c : CtxId) (x : Nat) :
    SameSource (rdrSrc s x) (rdrSrc (reclaimParty s src (.ctx c)) x) := by
  obtain ⟨b, l, m, he⟩ := reclaimParty_ctx s src c
  rw [he, (leaves_reclaimTail s _ _ _ _ _ _).eng_rdrSrc (by decide), reclaimCtx_fst, (leaves_setCtx _ _ _).eng_rdrSrc (by simp [ctxFoot]),
    ← (leaves_reclaimBufs s (tagCtx c)).eng_rdrSrc (by decide), ← (leaves_dropRequests _ c).eng_rdrSrc (by decide)]
  exact sameSource_skipSlot _ c x

/-! ### The fault -/

/-- The context halts with its cause recorded (R158). -/
def halted (s : State) (c : CtxId) (cause : Nat) : State :=
  setCtx (note s (pgENG c.k) (causeFlag cause) ENG_C_FAULTS) c { ctx s c with cause := cause, st := 4 }

/-- What a fault of a context of cluster k touches on its page. -/
def faultSpans (k : Nat) : List Span :=
  [(pgENG k + 0x70, pgENG k + 0x71), (pgENG k + 0xC0, pgENG k + 0x100), wordSpan (cntAddr (pgENG k) ENG_C_FAULTS)]

/-- What a fault touches. -/
def faultFoot (k : Nat) : Foot := ⟨.faults :: (reclaimFoot k).parts, faultSpans k ++ (reclaimFoot k).spans⟩

theorem reclaimFoot_within_fault (k : Fin 16) : (reclaimFoot k).Within (faultFoot k) := by revert k; decide
theorem queueFoot_within_fault (k : Fin 16) : queueFoot.Within (faultFoot k) := by revert k; decide
theorem ctxFoot_within_fault (k : Fin 16) : (ctxFoot k).Within (faultFoot k) := by revert k; decide
theorem off_react_fault (k : Fin 16) : Off (faultFoot k).spans (pgFLT + (FLT_REACT.at k).off) := by revert k; decide

theorem causeFlag_place (n : Nat) :
    (causeFlag n).off = 0x70 ∧ (causeFlag n).bit < 32 ∧ 0xC0 ≤ (causeFlag n).cntOff ∧ (causeFlag n).cntOff < 0x100 := by
  unfold causeFlag
  split <;> decide

theorem leaves_halted (s : State) (c : CtxId) (cause : Nat) : Leaves (faultFoot c.k) s (halted s c cause) := by
  obtain ⟨ho, -, h1, h2⟩ := causeFlag_place cause
  have noted : Leaves (faultFoot c.k) s (note s (pgENG c.k) (causeFlag cause) ENG_C_FAULTS) := by
    refine (leaves_note s _ _ _).mono ⟨by simp [faultFoot, reclaimFoot], ?_⟩
    simp only [Covers, List.forall_mem_cons, List.not_mem_nil, false_implies, implies_true, and_true, ho, wordSpan]
    refine ⟨⟨pmcSpan, by simp [faultFoot, reclaimFoot, noticeFoot], le_refl _, le_refl _⟩,
      ⟨(pgENG c.k + 0x70, pgENG c.k + 0x71), by simp [faultFoot, faultSpans], le_refl _, le_refl _⟩,
      ⟨(pgENG c.k + 0xC0, pgENG c.k + 0x100), by simp [faultFoot, faultSpans], by omega, by omega⟩,
      ⟨wordSpan (cntAddr (pgENG c.k) ENG_C_FAULTS), by simp [faultFoot, faultSpans], le_refl _, le_refl _⟩⟩
  exact noted.andThen (leaves_setCtx _ c _) (ctxFoot_within_fault c.k)

theorem fence_halted (s : State) (c : CtxId) (h : (ctx s c).st = 4) : fence s (.ctx c) = bump s pgFLT FLT_C_FENCES 1 := by
  simp [fence, partyCtxs, fenceCtx, h]

/-- A fault that stands alone: the halted context is queued and reclaimed at once. -/
theorem ctxFault_alone (s : State) (c : CtxId) (cause : Nat) (h : faultsAlone s c.k = true) :
    ∃ u, Leaves queueFoot (halted s c cause) u ∧ QueueIs u [] ∧ ctxFault s c cause = reclaimParty u c.k (.ctx c) := by
  simp only [faultsAlone, Bool.and_eq_true, beq_iff_eq, Bool.not_eq_true'] at h
  obtain ⟨⟨⟨hq, ho⟩, h2⟩, h3⟩ := h
  have hsrc : c.k.val < 64 := by omega
  have hreact : react (halted s c cause) c.k = react s c.k := (leaves_halted s c cause).reacts _ (off_react_fault c.k)
  have hst : (ctx (halted s c cause) c).st = 4 := by simp [halted]
  have hidle : QueueIs (halted s c cause) [] := by
    have := (leaves_setCtx (note s (pgENG c.k) (causeFlag cause) ENG_C_FAULTS) c { ctx s c with cause := cause, st := 4 }).tst_faults
      (by simp [ctxFoot])
    have hn := (leaves_note s (pgENG c.k) (causeFlag cause) ENG_C_FAULTS).tst_faults (by simp)
    exact ⟨this.1.trans (hn.1.trans hq), this.2.trans (hn.2.trans ho)⟩
  have sourced := leaves_setSource (halted s c cause) c.k hsrc
  have fenced : Leaves noticeFoot (halted s c cause) (fence (setSource (halted s c cause) c.k) (.ctx c)) := by
    rw [fence_halted _ _ (by rw [sourced.eng_ctx (by decide), hst])]
    exact sourced.andThen (leaves_bump _ _ _ _) (by decide)
  obtain ⟨hq1, ho1⟩ := fenced.tst_faults (by decide)
  obtain ⟨m, hm⟩ := enterQueue_empty _ c.k.val (.ctx c) ⟨hq1.trans hidle.1, ho1.trans hidle.2⟩
  generalize hv : fence (setSource (halted s c cause) c.k) (.ctx c) = v at fenced hm
  have queued := (fenced.mono (by decide)).trans (leaves_faults v [⟨c.k.val, .ctx c, m⟩] [])
  have emptied := queued.trans (leaves_faults _ [] [])
  have hfault : ctxFault s c cause = reclaimNext (enterQueue v c.k.val (.ctx c)) := by
    have hn : notice (halted s c cause) c.k.val (some (.ctx c)) = enterQueue v c.k.val (.ctx c) := by
      simp [notice, hreact, h3, hv]
    have : (halted s c cause).tst.queue == [] := by simp [hidle.1]
    rw [← hn]
    exact if_pos this
  refine ⟨_, emptied, queueIs_showQueue _ _, ?_⟩
  rw [hfault, hm, reclaimNext_only _ _ (queueIs_showQueue v _)]
  have reclaimed := (emptied.mono (queueFoot_within_fault c.k)).trans ((leaves_reclaimParty_ctx _ c.k.val c).mono (reclaimFoot_within_fault c.k))
  have same := (reclaimed.reacts _ (off_react_fault c.k)).trans hreact
  exact lastReactions_none _ _ _ _ (by rw [same, h2]) (by rw [same, h3])

theorem leaves_ctxFault (s : State) (c : CtxId) (cause : Nat) (h : faultsAlone s c.k = true) :
    Leaves (faultFoot c.k) s (ctxFault s c cause) := by
  obtain ⟨u, hu, -, he⟩ := ctxFault_alone s c cause h
  rw [he]
  exact ((leaves_halted s c cause).andThen hu (queueFoot_within_fault c.k)).andThen (leaves_reclaimParty_ctx u _ c) (reclaimFoot_within_fault c.k)

/-- The faulted context is IDLE with its cause, and no other context is changed. -/
theorem ctx_ctxFault (s : State) (c d : CtxId) (cause : Nat) (h : faultsAlone s c.k = true) :
    ctx (ctxFault s c cause) d = if d = c then ({ ctx s c with cause := cause } : Ctx).ended else ctx s d := by
  obtain ⟨u, hu, -, he⟩ := ctxFault_alone s c cause h
  have halts (d : CtxId) : ctx u d = if d = c then { ctx s c with cause := cause, st := 4 } else ctx s d := by
    rw [hu.eng_ctx (by decide), halted, ctx_setCtx, (leaves_note _ _ _ _).eng_ctx (by simp)]
  rw [he, ctx_reclaimParty_ctx, halts, halts]
  split <;> simp [Ctx.ended]

theorem sameSource_ctxFault (s : State) (c : CtxId) (cause x : Nat) (h : faultsAlone s c.k = true) :
    SameSource (rdrSrc s x) (rdrSrc (ctxFault s c cause) x) := by
  obtain ⟨u, hu, -, he⟩ := ctxFault_alone s c cause h
  have same : rdrSrc u x = rdrSrc s x := by
    rw [hu.eng_rdrSrc (by decide), halted, (leaves_setCtx _ _ _).eng_rdrSrc (by simp [ctxFoot]), (leaves_note _ _ _ _).eng_rdrSrc (by simp)]
  rw [he, ← same]
  exact sameSource_reclaimParty_ctx u _ c x

/-- After a fault that stood alone the next one stands alone. -/
theorem faultsAlone_ctxFault (s : State) (c : CtxId) (cause : Nat) (h : faultsAlone s c.k = true) :
    faultsAlone (ctxFault s c cause) c.k = true := by
  have same := (leaves_ctxFault s c cause h).reacts _ (off_react_fault c.k)
  obtain ⟨u, -, ⟨hq, ho⟩, he⟩ := ctxFault_alone s c cause h
  obtain ⟨hq1, ho1⟩ := (leaves_reclaimParty_ctx u c.k c).tst_faults (by simp [reclaimFoot])
  simp only [faultsAlone, same] at h ⊢
  rw [he, hq1, ho1, hq, ho]
  simp only [Bool.and_eq_true] at h ⊢
  exact ⟨⟨⟨rfl, rfl⟩, h.1.2⟩, h.2⟩

/-- What a fault touches once its cause is noted. -/
def afterNote (k : Nat) : Foot := ⟨.faults :: (reclaimFoot k).parts, (reclaimFoot k).spans⟩

theorem ctxFoot_within_afterNote (k : Fin 16) : (ctxFoot k).Within (afterNote k) := by revert k; decide
theorem queueFoot_within_afterNote (k : Fin 16) : queueFoot.Within (afterNote k) := by revert k; decide
theorem reclaimFoot_within_afterNote (k : Fin 16) : (reclaimFoot k).Within (afterNote k) := by revert k; decide
theorem off_afterNote_flags (k : Fin 16) : Off (afterNote k).spans (pgENG k + 0x70) := by revert k; decide
theorem off_afterNote_faults (k : Fin 16) : Off (afterNote k).spans (cntAddr (pgENG k) ENG_C_FAULTS) := by revert k; decide
theorem pmcWord_flags (k : Fin 16) : pmcWord (pgENG k + 0x70) = false := by revert k; decide

/-- The fault as the statements name it. -/
theorem faulted_ctxFault (s : State) (c : CtxId) (cause : Nat) (h : faultsAlone s c.k = true) : Faulted s (ctxFault s c cause) c cause := by
  obtain ⟨ho, hb, h1, h2⟩ := causeFlag_place cause
  obtain ⟨u, hu, -, he⟩ := ctxFault_alone s c cause h
  have after : Leaves (afterNote c.k) (note s (pgENG c.k) (causeFlag cause) ENG_C_FAULTS) (ctxFault s c cause) := by
    rw [he]
    exact (((leaves_setCtx _ c _).mono (ctxFoot_within_afterNote c.k)).andThen hu (queueFoot_within_afterNote c.k)).andThen
      (leaves_reclaimParty_ctx u c.k c) (reclaimFoot_within_afterNote c.k)
  have hctx := ctx_ctxFault s c c cause h
  rw [if_pos rfl] at hctx
  refine ⟨by rw [hctx]; rfl, by rw [hctx]; rfl, ?_, ?_⟩
  · rw [after.flagSet _ _ (by rw [ho]; exact off_afterNote_flags c.k), note]
    have noted := flagSet_flag s (pgENG c.k) (causeFlag cause) hb (by omega) (by rw [ho]; exact pmcWord_flags c.k)
    rw [← noted]
    simp only [flagSet, isSet, fld]
    rw [reg_bump _ _ _ _ _ (by rw [ho]; exact pmcWord_flags c.k)]
  · rw [after.cnt _ (off_afterNote_faults c.k), note, cntAt_bump_same, cntAt_flag]

end Sys2Proof.Machine
end

section
/-! SUPPORT. The record of a write as a footprint, and a write with a row of its own told by what its body answers (R27, R295). -/

namespace Sys2Proof.Machine

/-! ### The record of a write -/

/-- What the record of a write touches. -/
def recordFoot : Foot := ⟨books, [pmcSpan, pageSpan pgJRN, pageSpan pgSLC]⟩

theorem recordPage_of_off {a : Nat} (h : Off recordFoot.spans a) : recordPage a = false := by
  have hj : a < 0x4000 ∨ 0x5000 ≤ a := h (pageSpan pgJRN) (by decide)
  have hs : a < 0x5000 ∨ 0x6000 ≤ a := h (pageSpan pgSLC) (by decide)
  have hj0 : pgJRN / 0x1000 = 4 := by decide
  have hs0 : pgSLC / 0x1000 = 5 := by decide
  rw [recordPage, pmcWord_of_off h (by decide), hj0, hs0]
  simp only [Bool.or_false, Bool.or_eq_false_iff, beq_eq_false_iff_ne]
  omega

theorem cntAt_journal (s : State) (o : Origin) (c a : Nat) (x y m : Word) (b : Nat) (h : Off recordFoot.spans b) :
    cntAt (journal s o c a x y m) b = cntAt s b := by
  have counted (t : State) (i : Nat) (hi : i < 8) : cntAt (bump t pgJRN i 1) b = cntAt t b := by
    refine (leaves_bump t pgJRN i 1).cnt b (Covers.off ?_ h)
    revert i
    decide
  have go : ∀ (t : State) (j : JrnSt), cntAt { t with jrn := j } b = cntAt t b := fun _ _ => rfl
  unfold journal
  dsimp only
  rw [go]
  split
  · rw [cntAt_setReg, bumpFld, cntAt_setFld, counted _ _ (by decide)]
    split <;> simp only [counted _ JRN_C_RECORDS (by decide), counted _ JRN_C_REJECTED (by decide)]
  · split <;> simp only [counted _ JRN_C_RECORDS (by decide), counted _ JRN_C_REJECTED (by decide)]

theorem leaves_record (s : State) (o : Origin) (c a : Nat) (x y m : Word) : Leaves recordFoot s (record s o c a x y m) := by
  refine ⟨only_record s o c a x y m, fun b h => reg_record s o c a x y m b (recordPage_of_off h), fun b h => ?_⟩
  refine Eq.trans ?_ (cntAt_journal s o c a x y m b h)
  have go : ∀ (t : State) (k : Completion) (w : Word), cntAt (setDone (disarm t o) k w) b = cntAt t b := fun _ _ _ => rfl
  unfold record
  dsimp only
  rw [go]
  split
  · rw [noteOwnRej, bumpFld, cntAt_setFld, cntAt_flag]
  · rfl

/-- Registers that a body and its record leave. -/
theorem regsOnly_record {u : State} {s : State} {addrs : List Nat} (h : RegsOnly [pgPMC] addrs s u) (o : Origin) (c a : Nat) (x y m : Word) :
    RegsOnly bookPages addrs s (record u o c a x y m) := by
  intro b hb hp
  have hpages : b / 0x1000 ≠ 4 ∧ b / 0x1000 ≠ 5 ∧ b / 0x1000 ≠ 9 := ⟨hp pgJRN (by decide), hp pgSLC (by decide), hp pgPMC (by decide)⟩
  refine Eq.trans ((leaves_record u o c a x y m).reg b ?_) (h b hb (by simpa using hp pgPMC (by decide)))
  intro r hr
  simp only [recordFoot, List.mem_cons, List.not_mem_nil, or_false] at hr
  rcases hr with rfl | rfl | rfl
  · show b < 0x9070 ∨ 0x90C1 ≤ b; omega
  · show b < 0x4000 ∨ 0x5000 ≤ b; omega
  · show b < 0x5000 ∨ 0x6000 ≤ b; omega

theorem regsOnly_bump {s u : State} {addrs : List Nat} (h : RegsOnly [pgPMC] addrs s u) (b i n : Nat) :
    RegsOnly [pgPMC] addrs s (bump u b i n) := by
  intro a ha hp
  have hpage : a / 0x1000 ≠ 9 := hp pgPMC (by decide)
  refine (reg_bump u b i n a ?_).trans (h a ha hp)
  simp only [pmcWord, Bool.or_eq_false_iff, beq_eq_false_iff_ne]
  constructor <;> (intro he; exact hpage (by rw [he]; decide))

/-! ### Writes with a row of their own -/

/-- A recorded write: u is what the command's body made of s, and t has the record beside it. -/
structure Recorded (s u t : State) (o : Origin) (c a : Nat) : Prop where
  answered : Answered s t o c a
  entered : EnteredAs s t o c a (reg s a) (reg u a) allOnes
  leaves : Leaves recordFoot u t
  regsOnly : ∀ addrs, RegsOnly [pgPMC] addrs s u → RegsOnly bookPages addrs s t

/-- The parts beside the record's. -/
theorem Recorded.only {s u t : State} {o : Origin} {c a : Nat} (h : Recorded s u t o c a) {l m : List Part} (hb : Only l s u)
    (hl : ∀ p ∈ l, p ∈ m) (hm : ∀ p ∈ books, p ∈ m) : Only m s t := (hb.mono hl).trans (h.leaves.only.mono hm)

/-- A command that is one write with a row of its own, told by what its body answers. -/
theorem completes_ownWrite {l : List Part} {i : Instr} {o : Origin} {a c : Nat} {body : State → State × Nat} {s u : State} {P : State → Prop}
    (hexec : exec i s = .next (ownWrite o a body s)) (h : addrReject s o a = none) (hbody : body s = (u, c)) (hb : Only l s u)
    (hP : ∀ t, Recorded s u t o c a → P t) (hj : Part.jrn ∉ l := by decide) (hg : Part.grid ∉ l := by decide) : Completes i s P := by
  have hrun := ownWrite_ok o a body s h
  rw [hbody] at hrun
  have hjrn : u.jrn = s.jrn := hb .jrn hj
  have hgrid : u.grid = s.grid := hb .grid hg
  obtain ⟨hring, hcseq, -⟩ := journal_jrn u o c a (reg s a) (reg u a) allOnes
  refine ⟨_, hexec, hP _ ?_⟩
  rw [hrun]
  refine ⟨answered_record s u _ _ _ _ _ _ hjrn hgrid, ⟨?_, ?_⟩, leaves_record .., fun _ hr => regsOnly_record hr _ _ _ _ _ _⟩
  · rw [record_jrn, hcseq, hjrn]
  · rw [record_jrn, hring, now, now, hjrn, hgrid]

end Sys2Proof.Machine
end

section
/-! PROOF. O38: the spare taken in and out, and an engine that drains (R165). -/

namespace Sys2Proof.Machine

/-! ### The spare's commands (R165) -/

theorem off_record_eng (k : Fin 16) : ∀ i < 0x300, Off recordFoot.spans (pgENG k + i) := by
  intro i hi r hr
  simp only [recordFoot, List.mem_cons, List.not_mem_nil, or_false] at hr
  have : pgENG k = 0x03000000 + k * 0x10000 := rfl
  rcases hr with rfl | rfl | rfl
  · right; show 0x90C1 ≤ _; omega
  · right; show 0x5000 ≤ _; omega
  · right; show 0x6000 ≤ _; omega

theorem off_record_engCnt (k : Fin 16) (i : Nat) (hi : i < 32) : Off recordFoot.spans (cntAddr (pgENG k) i) := by
  have := off_record_eng k (0x200 + 8 * i) (by omega)
  rwa [← Nat.add_assoc] at this

/-- What taking the spare in or out touches. -/
def spareParts : List Part := [.cluster, .regs, .cnt, .pmc]

theorem only_drainFrom (s : State) (k e : Nat) : Only spareParts s (drainFrom s k e) :=
  ((leaves_setCluster s k _).only.mono (by decide)).trans ((only_setBit _ _ _ _).mono (by decide))

theorem only_retire (s : State) (k e : Nat) : Only spareParts s (retire s k e) :=
  ((only_drainFrom s k e).trans ((only_setFld _ _ _ _).mono (by decide))).trans ((only_bump _ _ _ _).mono (by decide))

theorem regsOnly_drainFrom (s : State) (k e : Nat) : RegsOnly [] [pgENG k + ENG_SPARE_FOR.off] s (drainFrom s k e) := by
  intro a ha _
  exact reg_setFld_other _ _ _ _ _ (fun he => ha (List.mem_singleton.mpr he))

theorem isSet_drainFrom (s : State) (k e : Nat) : isSet (drainFrom s k e) (pgENG k) ENG_DRAINING = true :=
  isSet_setBit_same _ _ _ _ (by decide) rfl

theorem cluster_drainFrom (s : State) (k e : Nat) : cluster (drainFrom s k e) k = { cluster s k with leaving := some e } := by
  rw [drainFrom, (leaves_setBit _ _ _ _).eng_cluster (by simp), cluster_setCluster_same]

/-- A setting of SPARE_FOR stays beside DRAINING. -/
theorem isSet_draining_setFld (s : State) (k v : Nat) : isSet (setFld s (pgENG k) ENG_SPARE_FOR v) (pgENG k) ENG_DRAINING =
    isSet s (pgENG k) ENG_DRAINING := by
  rw [isSet, isSet, fld_setFld_other _ _ _ _ _ _ (by decide) (.inr (.inr (by decide)))]

theorem fld_spareFor_setBit (s : State) (k : Nat) (b : Bool) : fld (setBit s (pgENG k) ENG_DRAINING b) (pgENG k) ENG_SPARE_FOR =
    fld s (pgENG k) ENG_SPARE_FOR := by
  rw [setBit, fld_setFld_other _ _ _ _ _ _ (by decide) (.inr (.inl (by decide)))]

/-- The spare in an engine's place: SPARE_FOR names the engine, which drains, and the swap is counted. -/
structure Retired (s t : State) (k e : Nat) : Prop where
  spareFor : fld t (pgENG k) ENG_SPARE_FOR = e
  draining : isSet t (pgENG k) ENG_DRAINING = true
  cluster : cluster t k = { cluster s k with leaving := some e }
  counted : cntAt t (cntAddr (pgENG k) ENG_C_SPARE_SWAPS) = min cntMax (cntAt s (cntAddr (pgENG k) ENG_C_SPARE_SWAPS) + 1)

theorem pmcWord_spareFor (k : Fin 16) : pmcWord (pgENG k + ENG_SPARE_FOR.off) = false := by revert k; decide

theorem retired_retire (s : State) (k : Fin 16) (e : Nat) (he : e < 32) : Retired s (retire s k e) k e := by
  have hw : fld (bump (setFld (drainFrom s k e) (pgENG k) ENG_SPARE_FOR e) (pgENG k) ENG_C_SPARE_SWAPS 1) (pgENG k) ENG_SPARE_FOR = e := by
    rw [fld, reg_bump _ _ _ _ _ (pmcWord_spareFor k)]
    refine (fld_setFld_same _ _ _ _ (by decide)).trans (Nat.mod_eq_of_lt ?_)
    show e < 64
    omega
  refine ⟨hw, ?_, ?_, ?_⟩
  · refine Eq.trans ?_ (isSet_drainFrom s k e)
    rw [retire, isSet, fld, reg_bump _ _ _ _ _ (by exact pmcWord_spareFor k)]
    exact isSet_draining_setFld _ _ _
  · rw [retire, (leaves_bump _ _ _ _).eng_cluster (by simp), (leaves_setFld _ _ _ _).eng_cluster (by simp), cluster_drainFrom]
  · rw [retire, cntAt_bump_same, cntAt_setFld, drainFrom, setBit, cntAt_setFld]
    rfl

theorem spareRetire_taken (s : State) (o : Origin) (k : Fin 16) (e : Fin 32) (h : addrReject s o (pgENG k + ENG_SPARE_CMD.off) = none)
    (hfree : spareFree s k = true) : Completes (.spareRetire o k e) s (fun t =>
      fld t (pgENG k) ENG_SPARE_FOR = e.val ∧
      isSet t (pgENG k) ENG_DRAINING = true ∧
      (cluster t k).leaving = some e.val ∧
      cntAt t (cntAddr (pgENG k) ENG_C_SPARE_SWAPS) = min cntMax (cntAt s (cntAddr (pgENG k) ENG_C_SPARE_SWAPS) + 1) ∧
      Answered s t o 0 (pgENG k + ENG_SPARE_CMD.off) ∧
      RegsOnly bookPages [pgENG k + ENG_SPARE_FOR.off] s t ∧
      Only (.cluster :: books) s t) := by
  obtain ⟨hfor, hdrain, hcl, hcnt⟩ := retired_retire s k e e.isLt
  refine completes_ownWrite rfl h (if_pos hfree) (only_retire s k e) (fun t ht => ⟨?_, ?_, ?_, ?_, ht.answered, ht.regsOnly _ ?_,
    ht.only (only_retire s k e) (by decide) (by decide)⟩)
  · rw [ht.leaves.fld _ _ (off_record_eng k _ (by decide)), hfor]
  · rw [ht.leaves.isSet _ _ (off_record_eng k _ (by decide)), hdrain]
  · rw [ht.leaves.eng_cluster (by decide), hcl]
  · exact (ht.leaves.cnt _ (off_record_engCnt k _ (by decide))).trans hcnt
  · refine regsOnly_bump (fun a ha hp => ?_) _ _ _
    rw [reg_setFld_other _ _ _ _ _ (by simpa using ha)]
    exact regsOnly_drainFrom s k e a ha (by simp)

theorem spareRetire_refused (s : State) (o : Origin) (k : Fin 16) (e : Fin 32) (h : addrReject s o (pgENG k + ENG_SPARE_CMD.off) = none)
    (hfree : spareFree s k = false) : Completes (.spareRetire o k e) s (fun t =>
      flagSet t (pgENG k) ENG_F_SPARE_REJ = true ∧
      Answered s t o 8 (pgENG k + ENG_SPARE_CMD.off) ∧
      Only books s t) := by
  refine completes_ownWrite rfl h (if_neg (by simp [hfree])) (only_flag s _ _) (fun t ht => ⟨?_, ht.answered,
    ht.only (only_flag s _ _) (by decide) (by decide)⟩)
  rw [ht.leaves.flagSet _ _ (off_record_eng k _ (by decide))]
  exact flagSet_flag _ _ _ (by decide) (by decide) (pmcWord_flags k)

/-- The engine that the spare stood for, back in service. -/
def backInService (s : State) (k e : Nat) : Cluster := { cluster s k with lost := (cluster s k).lost.filter (· != e) }

theorem reinstate_eq (s : State) (k e : Nat) :
    reinstate s k e = drainFrom (setCluster (setFld s (pgENG k) ENG_SPARE_FOR spareNone) k (backInService s k e)) k 32 := rfl

theorem only_reinstate (s : State) (k e : Nat) : Only spareParts s (reinstate s k e) :=
  (((only_setFld s _ _ _).mono (by decide)).trans ((leaves_setCluster _ k _).only.mono (by decide))).trans (only_drainFrom _ k 32)

theorem spareReinstate_taken (s : State) (o : Origin) (k : Fin 16) (e : Fin 32) (h : addrReject s o (pgENG k + ENG_SPARE_CMD.off) = none)
    (hfor : fld s (pgENG k) ENG_SPARE_FOR = e.val) : Completes (.spareReinstate o k e) s (fun t =>
      fld t (pgENG k) ENG_SPARE_FOR = 63 ∧
      isSet t (pgENG k) ENG_DRAINING = true ∧
      (cluster t k).leaving = some 32 ∧
      (cluster t k).lost.contains e.val = false ∧
      Answered s t o 0 (pgENG k + ENG_SPARE_CMD.off) ∧
      RegsOnly bookPages [pgENG k + ENG_SPARE_FOR.off] s t ∧
      Only (.cluster :: books) s t) := by
  have hcl : cluster (reinstate s k e) k = { backInService s k e with leaving := some 32 } := by
    rw [reinstate_eq, cluster_drainFrom, cluster_setCluster_same]
  refine completes_ownWrite rfl h (if_pos hfor) (only_reinstate s k e) (fun t ht => ⟨?_, ?_, ?_, ?_, ht.answered, ht.regsOnly _ ?_,
    ht.only (only_reinstate s k e) (by decide) (by decide)⟩)
  · rw [ht.leaves.fld _ _ (off_record_eng k _ (by decide)), reinstate_eq, drainFrom, fld_spareFor_setBit]
    exact fld_setFld_same s _ _ _ (by decide)
  · rw [ht.leaves.isSet _ _ (off_record_eng k _ (by decide)), reinstate_eq, isSet_drainFrom]
  · rw [ht.leaves.eng_cluster (by decide), hcl]
  · rw [ht.leaves.eng_cluster (by decide), hcl]
    simp [backInService]
  · intro a ha _
    rw [reinstate_eq, regsOnly_drainFrom _ _ _ a ha (by simp), (leaves_setCluster _ _ _).reg a (by simp)]
    exact reg_setFld_other _ _ _ _ _ (by simpa using ha)

theorem spareReinstate_refused (s : State) (o : Origin) (k : Fin 16) (e : Fin 32) (h : addrReject s o (pgENG k + ENG_SPARE_CMD.off) = none)
    (hfor : fld s (pgENG k) ENG_SPARE_FOR ≠ e.val) : Completes (.spareReinstate o k e) s (fun t =>
      Answered s t o 8 (pgENG k + ENG_SPARE_CMD.off) ∧
      Only books s t) := by
  have unchanged := Only.refl [] s
  exact completes_ownWrite rfl h (if_neg hfor) unchanged (fun t ht => ⟨ht.answered, ht.only unchanged (by simp) (by simp)⟩)

/-! ### An engine that drains (R165, R328) -/

/-- The drain of an engine is over. -/
def drainOver (s : State) (k : Nat) : State := setBit (setCluster s k { cluster s k with leaving := none }) (pgENG k) ENG_DRAINING false

theorem isSet_drainOver (s : State) (k : Nat) : isSet (drainOver s k) (pgENG k) ENG_DRAINING = false :=
  isSet_setBit_same _ _ _ _ (by decide) rfl

theorem cluster_drainOver (s : State) (k : Nat) : cluster (drainOver s k) k = { cluster s k with leaving := none } := by
  rw [drainOver, (leaves_setBit _ _ _ _).eng_cluster (by simp), cluster_setCluster_same]

theorem leaves_drainOver (s : State) (k : Nat) :
    Leaves ⟨[.cluster, .regs], [wordSpan (pgENG k + ENG_DRAINING.off)]⟩ s (drainOver s k) :=
  ((leaves_setCluster s k _).mono (by simp [Foot.Within, Covers])).andThen (leaves_setBit _ _ _ _) (by simp [Foot.Within, Covers])

theorem engineDrained_idle (s : State) (k : Fin 16) (e : Fin 33) (hl : (cluster s k).leaving = some e.val)
    (hidle : (ctxsOf k e).all (fun c => (ctx s c).st == 0) = true) (hc : checked s k ≠ some e.val) :
    Completes (.engineDrained k e) s (fun t =>
      (cluster t k).leaving = none ∧
      isSet t (pgENG k) ENG_DRAINING = false ∧
      RegsOnly [] [pgENG k + ENG_DRAINING.off] s t ∧
      Only [.cluster, .regs] s t) := by
  have hrun : exec (.engineDrained k e) s = .next (drainOver s k) := by
    show execEngineDrained k e s = _
    rw [execEngineDrained, if_pos ⟨hl, hidle⟩]
    exact congrArg Host.Outcome.next (if_neg hc)
  exact ⟨_, hrun, by rw [cluster_drainOver], isSet_drainOver s k, (leaves_drainOver s k).regsOnly _ _ (by simp [wordSpan]), (leaves_drainOver s k).only⟩

theorem engineDrained_busy (s : State) (k : Fin 16) (e : Fin 33)
    (h : (cluster s k).leaving ≠ some e.val ∨ (ctxsOf k e).any (fun c => (ctx s c).st != 0) = true) :
    Completes (.engineDrained k e) s (fun t => t = s) := by
  refine ⟨s, if_neg (fun hn => ?_), rfl⟩
  obtain ⟨hl, hidle⟩ := hn
  refine h.elim (fun hne => hne hl) (fun hany => ?_)
  simp only [List.all_eq_true, beq_iff_eq] at hidle
  simp only [List.any_eq_true, bne_iff_ne] at hany
  obtain ⟨c, hc, hne⟩ := hany
  exact hne (hidle c hc)

end Sys2Proof.Machine
end

section
/-! SUPPORT. Counting in two states that are alike to the counters. -/

namespace Sys2Proof.Machine

/-- Two states that count alike: the same counters, performance counters and registers, page b apart. -/
structure Alike (b : Nat) (s t : State) : Prop where
  tst : t.tst = s.tst
  cnt : t.bus.cnt = s.bus.cnt
  reg : ∀ a, a / 0x1000 ≠ b / 0x1000 → reg t a = reg s a

variable {b : Nat} {s t : State}

theorem Alike.setReg (h : Alike b s t) (a : Nat) (w : Word) : Alike b (setReg s a w) (setReg t a w) :=
  ⟨h.tst, h.cnt, fun j hj => by rw [reg_setReg, reg_setReg, h.reg j hj]⟩

/-- A field of another page. -/
theorem Alike.setFld (h : Alike b s t) (p : Nat) (f : Fld) (v : Nat) (hp : (p + f.off) / 0x1000 ≠ b / 0x1000) :
    Alike b (setFld s p f v) (setFld t p f v) := by
  rw [Machine.setFld, Machine.setFld, h.reg _ hp]
  exact h.setReg _ _

theorem Alike.bumpFld (h : Alike b s t) (p : Nat) (f : Fld) (n : Nat) (hp : (p + f.off) / 0x1000 ≠ b / 0x1000) :
    Alike b (bumpFld s p f n) (bumpFld t p f n) := by
  rw [Machine.bumpFld, Machine.bumpFld, fld, fld, h.reg _ hp]
  exact h.setFld p f _ hp

theorem Alike.foldl {α : Type} {f : State → α → State} (hf : ∀ x y c, Alike b x y → Alike b (f x c) (f y c)) (h : Alike b s t) (l : List α) :
    Alike b (l.foldl f s) (l.foldl f t) := by
  induction l generalizing s t with
  | nil => exact h
  | cons c l ih => exact ih (hf _ _ c h)

theorem Alike.pmcCount (h : Alike b s t) (p e n : Nat) (hb : b / 0x1000 ≠ 9) : Alike b (pmcCount s p e n) (pmcCount t p e n) := by
  have page : ∀ o < 0x1000, (pgPMC + o) / 0x1000 ≠ b / 0x1000 := by
    intro o ho
    have : pgPMC = 0x9000 := rfl
    omega
  unfold Machine.pmcCount
  rw [h.tst]
  split
  · refine Alike.foldl (fun x y c hxy => ?_) h _
    dsimp only
    rw [hxy.tst]
    have counted : Alike b { x with tst := { x.tst with pmc := (pmcAdd 8 x.tst.pmc c.1 n).1 } }
        { y with tst := { x.tst with pmc := (pmcAdd 8 x.tst.pmc c.1 n).1 } } := ⟨rfl, hxy.cnt, hxy.reg⟩
    split
    · split
      · exact (counted.setFld _ _ _ (page _ (by decide))).bumpFld _ _ _ (page _ (by decide))
      · exact counted
    · exact hxy
  · exact h

theorem Alike.bump (h : Alike b s t) (p i n : Nat) (hb : b / 0x1000 ≠ 9) : Alike b (bump s p i n) (bump t p i n) := by
  have counted : Alike b (setCnt s (cntAddr p i) (min cntMax (cntAt s (cntAddr p i) + n)))
      (setCnt t (cntAddr p i) (min cntMax (cntAt t (cntAddr p i) + n))) := by
    refine ⟨h.tst, ?_, h.reg⟩
    simp only [setCnt, cntAt, h.cnt]
  exact counted.pmcCount p i n hb

end Sys2Proof.Machine
end

section
/-! PROOF. O38: the check routine of an engine that drained (R22, R328). -/

namespace Sys2Proof.Machine

/-! ### The check routine of an engine that drained (R328) -/

/-- Work begins at an entry vector within the image. -/
theorem beginAt_within (s : State) (c : CtxId) (t : Nat) {b : Bool} (hb : b = isSet s (pgUCS c.k) UCS_ACTIVE_BANK)
    (hv : entryVector s c.k b t < imageLen s c.k b) :
    beginAt s c t = setCtx s c { ctx s c with st := 1, pc := entryVector s c.k b t, bank := b } := by
  subst hb
  exact if_neg (by omega)

theorem beginWork_idle (s : State) (c : CtxId) (t : Nat) {b : Bool} (hb : b = isSet s (pgUCS c.k) UCS_ACTIVE_BANK)
    (hidle : (ctx s c).st = 0) (hlen : 0 < imageLen s c.k b) :
    beginWork s c t = beginAt (bump s (pgENG c.k) ENG_C_DISPATCHES 1) c t := by
  subst hb
  exact if_pos ⟨hidle, hlen⟩

theorem imageLen_of_cluster {s t : State} {k : Nat} (b : Bool) (h : (cluster t k).lenA = (cluster s k).lenA ∧ (cluster t k).lenB = (cluster s k).lenB) :
    imageLen t k b = imageLen s k b := by
  rw [imageLen, imageLen, h.1, h.2]

/-- The registers of a cluster's control store are no part of a drain or of a count of its page. -/
theorem off_ucs (k : Fin 16) : ∀ i < 0x100, Off [pmcSpan, wordSpan (cntAddr (pgENG k) ENG_C_DISPATCHES), wordSpan (pgENG k + ENG_DRAINING.off)]
    (pgUCS k + i) := by
  intro i hi r hr
  have hu : pgUCS k = pgENG k + 0x1000 := rfl
  have he : pgENG k = 0x03000000 + k * 0x10000 := rfl
  have hd : ENG_DRAINING.off < 0x1000 := by decide
  have hc : cntAddr (pgENG k) ENG_C_DISPATCHES = pgENG k + 0x200 + 8 * ENG_C_DISPATCHES := rfl
  have hn : ENG_C_DISPATCHES < 32 := by decide
  simp only [List.mem_cons, List.not_mem_nil, or_false] at hr
  rcases hr with rfl | rfl | rfl
  · right; show 0x90C1 ≤ _; omega
  · simp only [wordSpan]; omega
  · simp only [wordSpan]; omega

theorem off_ctx_draining (k : Fin 16) : Off (ctxFoot k).spans (pgENG k + ENG_DRAINING.off) := by revert k; decide
theorem off_ctx_dispatches (k : Fin 16) : Off (ctxFoot k).spans (cntAddr (pgENG k) ENG_C_DISPATCHES) := by revert k; decide
theorem off_draining_dispatches (k : Fin 16) : Off [wordSpan (pgENG k + ENG_DRAINING.off)] (cntAddr (pgENG k) ENG_C_DISPATCHES) := by
  revert k; decide
theorem page_eng (k : Fin 16) : pgENG k / 0x1000 ≠ 9 := by revert k; decide

theorem pmcWord_draining (k : Fin 16) : pmcWord (pgENG k + ENG_DRAINING.off) = false := by revert k; decide

theorem page_draining (k : Fin 16) : (pgENG k + ENG_DRAINING.off) / 0x1000 = pgENG k / 0x1000 := by revert k; decide

/-- The end of a drain before a count and after it. -/
theorem drainOver_bump_alike (s : State) (k : Fin 16) : Alike (pgENG k)
    (setBit (setCluster (bump s (pgENG k) ENG_C_DISPATCHES 1) k { cluster s k with leaving := none }) (pgENG k) ENG_DRAINING false)
    (bump (drainOver s k) (pgENG k) ENG_C_DISPATCHES 1) := by
  have draining (a : Nat) (h : a / 0x1000 ≠ pgENG k / 0x1000) : a ≠ pgENG k + ENG_DRAINING.off := by
    rintro rfl
    exact h (page_draining k)
  have before : Alike (pgENG k) s (drainOver s k) := ⟨rfl, rfl, fun a h => reg_setFld_other _ _ _ _ _ (draining a h)⟩
  obtain ⟨htst, hcnt, hreg⟩ := before.bump (pgENG k) ENG_C_DISPATCHES 1 (page_eng k)
  refine ⟨htst, hcnt, fun a h => (hreg a h).trans (Eq.symm ?_)⟩
  exact reg_setFld_other _ _ _ _ _ (draining a h)

theorem eng_drainOver_bump (s : State) (k : Nat) : (bump (drainOver s k) (pgENG k) ENG_C_DISPATCHES 1).eng =
    (setBit (setCluster (bump s (pgENG k) ENG_C_DISPATCHES 1) k { cluster s k with leaving := none }) (pgENG k) ENG_DRAINING false).eng := by
  simp [drainOver, setCluster, setBit, setFld, setReg]

theorem Only.symm {l : List Part} {s t : State} (h : Only l s t) : Only l t s := by
  intro p hp
  have := h p hp
  cases p <;> exact Eq.symm this

/-- A context stored in a state that counts alike. -/
theorem ctxOnly_of_alike {c : CtxId} {x u : State} (y : Ctx) (h : Alike (pgENG c.k) x u) (heng : u.eng = x.eng)
    (hrest : Only [.cluster, .regs, .cnt, .pmc] x u) : CtxOnly c x (setCtx u c y) := by
  have stored := leaves_setCtx u c y
  refine ⟨heng ▸ tblOnly_setCtx u c y, fun a ha hp => ?_, fun p hp => ?_⟩
  · refine ((stored.regsOnly [pgENG c.k] [] ?_) a ha hp).trans (h.reg a (hp _ (by simp)))
    have window : ∀ k : Fin 16, (pgENG k + 0x84) / 0x1000 = pgENG k / 0x1000 ∧ (pgENG k + 0x8C - 1) / 0x1000 = pgENG k / 0x1000 := by decide
    simpa [ctxFoot] using window c.k
  · refine Part.same_trans ?_ (stored.only p (by simpa [ctxFoot] using hp))
    cases p
    case cnt => exact h.cnt
    case pmc => exact congrArg TestSt.pmc h.tst
    case cluster => exact congrArg EngSt.cl heng
    case regs => simp at hp
    all_goals exact hrest _ (by decide)

/-- The checked engine drained: its first context is counted as dispatched. -/
theorem engineDrained_checked (s : State) (k : Fin 16) (e : Fin 33) (b : Bool) (hl : (cluster s k).leaving = some e.val)
    (hidle : (ctxsOf k e).all (fun c => (ctx s c).st == 0) = true) (hc : checked s k = some e.val)
    (hb : b = isSet s (pgUCS k) UCS_ACTIVE_BANK) (hv : entryVector s k b 6 < imageLen s k b) :
    Completes (.engineDrained k e) s (fun t =>
      (cluster t k).leaving = none ∧
      isSet t (pgENG k) ENG_DRAINING = false ∧
      ctx t ⟨k, e, 0⟩ = { ctx s ⟨k, e, 0⟩ with st := 1, pc := entryVector s k b 6, bank := b } ∧
      cntAt t (cntAddr (pgENG k) ENG_C_DISPATCHES) = min cntMax (cntAt s (cntAddr (pgENG k) ENG_C_DISPATCHES) + 1) ∧
      CtxOnly ⟨k, e, 0⟩ (setBit (setCluster (bump s (pgENG k) ENG_C_DISPATCHES 1) k { cluster s k with leaving := none })
        (pgENG k) ENG_DRAINING false) t) := by
  have drained := leaves_drainOver s k
  have hst : (ctx s ⟨k, e, 0⟩).st = 0 := by
    simp only [List.all_eq_true, beq_iff_eq] at hidle
    exact hidle _ (by simp [ctxsOf])
  generalize hu : bump (drainOver s k) (pgENG k) ENG_C_DISPATCHES 1 = u
  have counted : Leaves ⟨[.cluster, .regs, .cnt, .pmc], [pmcSpan, wordSpan (cntAddr (pgENG k) ENG_C_DISPATCHES), wordSpan (pgENG k + ENG_DRAINING.off)]⟩ s u := by
    rw [← hu]
    exact (drained.mono (by simp [Foot.Within, Covers])).andThen (leaves_bump _ _ _ _) (by simp [Foot.Within, Covers])
  have hclu : cluster u k = { cluster s k with leaving := none } := by
    rw [← hu, (leaves_bump _ _ _ _).eng_cluster (by simp), cluster_drainOver]
  have hbank : b = isSet u (pgUCS k) UCS_ACTIVE_BANK := hb.trans (counted.isSet _ _ (off_ucs k _ (by decide))).symm
  have hvec : entryVector u k b 6 = entryVector s k b 6 := by
    cases b <;> exact counted.fld _ _ (off_ucs k _ (by decide))
  have hlen : imageLen u k b = imageLen s k b := imageLen_of_cluster b (by rw [hclu]; exact ⟨rfl, rfl⟩)
  have hrun : exec (.engineDrained k e) s = .next (setCtx u ⟨k, e, 0⟩ { ctx s ⟨k, e, 0⟩ with st := 1, pc := entryVector s k b 6, bank := b }) := by
    show execEngineDrained k e s = _
    rw [execEngineDrained, if_pos ⟨hl, hidle⟩]
    refine congrArg Host.Outcome.next ((if_pos hc).trans ?_)
    refine (beginWork_idle (drainOver s k) ⟨k, e, 0⟩ 6 (b := b) ?_ ?_ ?_).trans ?_
    · exact hb.trans (drained.isSet _ _ (Covers.off (by simp [Covers]) (off_ucs k _ (by decide)))).symm
    · rw [drained.eng_ctx (by simp), hst]
    · refine Nat.lt_of_le_of_lt (Nat.zero_le _) (hv.trans_eq ?_)
      exact (imageLen_of_cluster b (by rw [cluster_drainOver]; exact ⟨rfl, rfl⟩)).symm
    · rw [hu, beginAt_within u ⟨k, e, 0⟩ 6 hbank (by rw [hvec, hlen]; exact hv), hvec, counted.eng_ctx (by simp)]
  have shown := leaves_setCtx u ⟨k, e, 0⟩ { ctx s ⟨k, e, 0⟩ with st := 1, pc := entryVector s k b 6, bank := b }
  refine ⟨_, hrun, ?_, ?_, ctx_setCtx_same _ _ _, ?_, ?_⟩
  · rw [shown.eng_cluster (by simp [ctxFoot]), hclu]
  · rw [shown.isSet _ _ (off_ctx_draining k), ← hu, isSet, fld, reg_bump _ _ _ _ _ (pmcWord_draining k)]
    exact isSet_drainOver s k
  · rw [shown.cnt _ (off_ctx_dispatches k), ← hu, cntAt_bump_same, drained.cnt _ (off_draining_dispatches k)]
  · have marked : Only [.cluster, .regs, .cnt, .pmc] s (setBit (setCluster (bump s (pgENG k) ENG_C_DISPATCHES 1) k
        { cluster s k with leaving := none }) (pgENG k) ENG_DRAINING false) :=
      (((only_bump _ _ _ _).mono (by decide)).trans ((leaves_setCluster _ _ _).only.mono (by decide))).trans ((only_setBit _ _ _ _).mono (by decide))
    subst hu
    exact ctxOnly_of_alike _ (drainOver_bump_alike s k) (eng_drainOver_bump s k) (marked.symm.trans counted.only)

end Sys2Proof.Machine
end

section
/-! PROOF. O38: lost engines and the role map (R23, R158, R166, R167). -/

namespace Sys2Proof.Machine

/-! ### A lost engine (R166) -/

/-- Contexts of one cluster fault in turn, each FENCED. -/
def fenced (s : State) (l : List CtxId) : State := l.foldl (fun t c => ctxFault t c cFenced) s

theorem leaves_fenced (s : State) (k : Fin 16) (l : List CtxId) (hl : ∀ c ∈ l, c.k = k) (h : faultsAlone s k = true) :
    Leaves (faultFoot k) s (fenced s l) := by
  induction l generalizing s with
  | nil => exact .refl _ s
  | cons c l ih =>
    obtain rfl : c.k = k := hl c (by simp)
    exact (leaves_ctxFault s c cFenced h).trans (ih _ (fun d hd => hl d (by simp [hd])) (faultsAlone_ctxFault s c cFenced h))

/-- A context IDLE with the cause FENCED. -/
def FencedIdle (x : Ctx) : Prop := x.st = 0 ∧ x.cause = cFenced

theorem fencedIdle_fenced (s : State) (k : Fin 16) (l : List CtxId) (hl : ∀ c ∈ l, c.k = k) (h : faultsAlone s k = true) (d : CtxId)
    (hd : d ∈ l ∨ FencedIdle (ctx s d)) : FencedIdle (ctx (fenced s l) d) := by
  induction l generalizing s with
  | nil => exact hd.resolve_left (by simp)
  | cons c l ih =>
    obtain rfl : c.k = k := hl c (by simp)
    refine ih (ctxFault s c cFenced) (fun d hd => hl d (by simp [hd])) (faultsAlone_ctxFault s c cFenced h) ?_
    rw [ctx_ctxFault s c d cFenced h]
    split
    · exact .inr ⟨rfl, rfl⟩
    · exact hd.imp_left (fun hm => (List.mem_cons.mp hm).resolve_left ‹_›)

theorem ctxsOf_cluster (k : Fin 16) (e : Fin 33) : ∀ c ∈ ctxsOf k e, c.k = k := by simp [ctxsOf]

/-- The cluster with an engine lost. -/
def losing (s : State) (k e : Nat) : Cluster :=
  { cluster s k with lost := if (cluster s k).lost.contains e then (cluster s k).lost else e :: (cluster s k).lost }

theorem contains_losing (s : State) (k e : Nat) : (losing s k e).lost.contains e = true := by
  unfold losing
  dsimp only
  split <;> simp_all

/-- The engine is lost and its contexts have faulted. -/
def engineGone (s : State) (k : Fin 16) (e : Fin 33) : State := fenced (setCluster s k (losing s k e)) (ctxsOf k e)

theorem leaves_engineGone (s : State) (k : Fin 16) (e : Fin 33) (h : faultsAlone s k = true) :
    Leaves (faultFoot k) (setCluster s k (losing s k e)) (engineGone s k e) := leaves_fenced _ k _ (ctxsOf_cluster k e) h

theorem cluster_engineGone (s : State) (k : Fin 16) (e : Fin 33) (h : faultsAlone s k = true) :
    cluster (engineGone s k e) k = losing s k e := by
  rw [(leaves_engineGone s k e h).eng_cluster (by simp [faultFoot, reclaimFoot]), cluster_setCluster_same]

theorem fencedIdle_engineGone (s : State) (k : Fin 16) (e : Fin 33) (h : faultsAlone s k = true) :
    ∀ c ∈ ctxsOf k e, FencedIdle (ctx (engineGone s k e) c) :=
  fun c hc => fencedIdle_fenced (setCluster s k (losing s k e)) k _ (ctxsOf_cluster k e) h c (.inl hc)

/-- The contexts as the statement checks them. -/
theorem all_fencedIdle {t : State} {k : Fin 16} {e : Fin 33} (h : ∀ c ∈ ctxsOf k e, FencedIdle (ctx t c)) :
    (ctxsOf k e).all (fun c => (ctx t c).st == 0 && (ctx t c).cause == cFenced) = true := by
  simp only [List.all_eq_true, Bool.and_eq_true, beq_iff_eq]
  exact h

theorem off_fault_spare (k : Fin 16) : Off (faultFoot k).spans (pgENG k + ENG_SPARE_FOR.off) := by revert k; decide
theorem off_fault_autoSpare (k : Fin 16) : Off (faultFoot k).spans (pgENG k + ENG_AUTO_SPARE.off) := by revert k; decide

theorem leaves_engineGone_regs (s : State) (k : Fin 16) (e : Fin 33) (h : faultsAlone s k = true) :
    fld (engineGone s k e) (pgENG k) ENG_SPARE_FOR = fld s (pgENG k) ENG_SPARE_FOR ∧
    isSet (engineGone s k e) (pgENG k) ENG_SPARE_BAD = isSet s (pgENG k) ENG_SPARE_BAD ∧
    isSet (engineGone s k e) (pgENG k) ENG_AUTO_SPARE = isSet s (pgENG k) ENG_AUTO_SPARE := by
  have gone := leaves_engineGone s k e h
  exact ⟨gone.fld _ _ (off_fault_spare k), gone.isSet _ _ (off_fault_spare k), gone.isSet _ _ (off_fault_autoSpare k)⟩

/-- The spare stays free when another engine is lost. -/
theorem spareFree_engineGone (s : State) (k : Fin 16) (e : Fin 33) (he : e.val < 32) (h : faultsAlone s k = true) (hf : spareFree s k = true) :
    spareFree (engineGone s k e) k = true := by
  obtain ⟨hfor, hbad, -⟩ := leaves_engineGone_regs s k e h
  have hcheck : checked (engineGone s k e) k = checked s k :=
    congrArg (tget dnone · k.val) ((leaves_engineGone s k e h).only .check (by simp [faultFoot, reclaimFoot]))
  have hlost : (losing s k e).lost.contains 32 = (cluster s k).lost.contains 32 := by
    have hne : (32 == e.val) = false := beq_eq_false_iff_ne.mpr (by omega)
    unfold losing
    dsimp only
    split
    · rfl
    · rw [List.contains_cons, hne, Bool.false_or]
  rw [spareFree, hfor, hbad, hcheck, cluster_engineGone s k e h, hlost]
  exact hf

theorem execEngineLost_eq (k : Fin 16) (e : Fin 33) (s : State) : execEngineLost k e s =
    if e.val < 32 && fld (engineGone s k e) (pgENG k) ENG_SPARE_FOR == e.val then .next (engineGone s k e)
    else if e.val < 32 && spareFree (engineGone s k e) k && isSet (engineGone s k e) (pgENG k) ENG_AUTO_SPARE then
      .next (retire (engineGone s k e) k e)
    else .next (post (flag (engineGone s k e) (pgENG k) ENG_F_ENGINE_LOST) (pgENG k) .engineLost [e.val]) := rfl

theorem spareFor_of_spareFree {s : State} {k : Nat} (h : spareFree s k = true) : fld s (pgENG k) ENG_SPARE_FOR = 63 := by
  simp only [spareFree, Bool.and_eq_true, beq_iff_eq] at h
  exact h.1.1.1.1

theorem engineLost_spared (s : State) (k : Fin 16) (e : Fin 33) (he : e.val < 32) (h : faultsAlone s k = true)
    (hf : spareFree s k = true) (hauto : isSet s (pgENG k) ENG_AUTO_SPARE = true) : Completes (.engineLost k e) s (fun t =>
      (cluster t k).lost.contains e.val = true ∧
      (ctxsOf k e).all (fun c => (ctx t c).st == 0 && (ctx t c).cause == cFenced) = true ∧
      fld t (pgENG k) ENG_SPARE_FOR = e.val ∧
      isSet t (pgENG k) ENG_DRAINING = true) := by
  obtain ⟨hfor, -, hset⟩ := leaves_engineGone_regs s k e h
  obtain ⟨rfor, rdrain, rcl, -⟩ := retired_retire (engineGone s k e) k e he
  have hne : fld (engineGone s k e) (pgENG k) ENG_SPARE_FOR ≠ e.val := by
    rw [hfor, spareFor_of_spareFree hf]
    omega
  have hrun : exec (.engineLost k e) s = .next (retire (engineGone s k e) k e) := by
    refine (execEngineLost_eq k e s).trans ?_
    rw [if_neg (by simp [hne]), if_pos (by simp [he, spareFree_engineGone s k e he h hf, hset, hauto])]
  refine ⟨_, hrun, ?_, all_fencedIdle (fun c hc => ?_), rfor, rdrain⟩
  · rw [rcl, cluster_engineGone s k e h]
    exact contains_losing s k e
  · rw [show ctx (retire (engineGone s k e) k e) c = ctx (engineGone s k e) c from
      congrArg (tget Ctx.init · (ctxKey c)) (only_retire _ _ _ .ctx (by decide))]
    exact fencedIdle_engineGone s k e h c hc

theorem off_engineLost (k : Fin 16) : Off ((eventFoot.add (wordSpan (pgENG k + ANY_EVT_SEQ.off))).spans ++
    [pmcSpan, wordSpan (pgENG k + ENG_F_ENGINE_LOST.off), wordSpan (pgENG k + ENG_F_ENGINE_LOST.cntOff)]) (pgENG k + ENG_SPARE_FOR.off) := by
  revert k; decide

theorem off_post_flags (k : Fin 16) : Off (eventFoot.add (wordSpan (pgENG k + ANY_EVT_SEQ.off))).spans (pgENG k + 0x70) := by
  revert k; decide

theorem engineLost_unspared (s : State) (k : Fin 16) (e : Fin 33) (h : faultsAlone s k = true)
    (hne : fld s (pgENG k) ENG_SPARE_FOR ≠ e.val) (hno : e.val = 32 ∨ isSet s (pgENG k) ENG_AUTO_SPARE = false) :
    Completes (.engineLost k e) s (fun t =>
      (cluster t k).lost.contains e.val = true ∧
      (ctxsOf k e).all (fun c => (ctx t c).st == 0 && (ctx t c).cause == cFenced) = true ∧
      fld t (pgENG k) ENG_SPARE_FOR = fld s (pgENG k) ENG_SPARE_FOR ∧
      flagSet t (pgENG k) ENG_F_ENGINE_LOST = true) := by
  obtain ⟨hfor, -, hset⟩ := leaves_engineGone_regs s k e h
  have hrun : exec (.engineLost k e) s =
      .next (post (flag (engineGone s k e) (pgENG k) ENG_F_ENGINE_LOST) (pgENG k) .engineLost [e.val]) := by
    refine (execEngineLost_eq k e s).trans ?_
    rw [if_neg (by simp [hfor, hne]), if_neg ?_]
    rcases hno with h32 | hoff
    · simp [h32]
    · simp [hset, hoff]
  have flagged := leaves_flag (engineGone s k e) (pgENG k) ENG_F_ENGINE_LOST
  have posted := leaves_post (flag (engineGone s k e) (pgENG k) ENG_F_ENGINE_LOST) (pgENG k) .engineLost [e.val]
  refine ⟨_, hrun, ?_, all_fencedIdle (fun c hc => ?_), ?_, ?_⟩
  · rw [posted.eng_cluster (by simp [Foot.add, eventFoot, alerts]), flagged.eng_cluster (by simp), cluster_engineGone s k e h]
    exact contains_losing s k e
  · rw [posted.eng_ctx (by simp [Foot.add, eventFoot, alerts]), flagged.eng_ctx (by simp)]
    exact fencedIdle_engineGone s k e h c hc
  · have hoff := off_engineLost k
    rw [posted.fld _ _ (fun r hr => hoff r (List.mem_append_left _ hr)), flagged.fld _ _ (fun r hr => hoff r (List.mem_append_right _ hr)), hfor]
  · rw [posted.flagSet _ _ (off_post_flags k)]
    exact flagSet_flag _ _ _ (by decide) (by decide) (pmcWord_flags k)

/-! ### The role map (R23, R167) -/

/-- The map accepted, to apply at the second frame boundary. -/
def mapTaken (s : State) (data : Word) : State :=
  let s1 := setReg s (pgDEV + DEV_ROLE_MAP.off) data
  { s1 with eng := { s1.eng with roles := some (data, frame s + 2) } }

theorem only_roles (s : State) (r : Option (Word × Nat)) : Only [.roles] s { s with eng := { s.eng with roles := r } } := by
  intro p hp
  cases p
  case roles => simp at hp
  all_goals rfl

theorem leaves_mapTaken (s : State) (data : Word) :
    Leaves ⟨[.roles, .regs], [wordSpan (pgDEV + DEV_ROLE_MAP.off)]⟩ s (mapTaken s data) :=
  ((leaves_setReg s _ _).mono (by decide)).andThen (.of_only (only_roles _ _) (by decide) (by decide)) (by decide)

theorem reg_mapTaken (s : State) (data : Word) : reg (mapTaken s data) (pgDEV + DEV_ROLE_MAP.off) = data :=
  tget_tset_same resetWord s.bus.regs _ data

theorem off_record_roleMap : Off recordFoot.spans (pgDEV + DEV_ROLE_MAP.off) := by decide

theorem roleMapWrite_taken (s : State) (o : Origin) (data : Word) (h : addrReject s o (pgDEV + DEV_ROLE_MAP.off) = none)
    (hnew : data ≠ reg s (pgDEV + DEV_ROLE_MAP.off)) (hlock : isSet s pgDEV ANY_LOCK = false) (hok : rolesOk data = true) :
    Completes (.roleMapWrite o data) s (fun t =>
      reg t (pgDEV + DEV_ROLE_MAP.off) = data ∧
      t.eng.roles = some (data, frame s + 2) ∧
      (List.range 16).all (fun j => roleOf t j == roleOf s j) = true ∧
      EnteredAs s t o 0 (pgDEV + DEV_ROLE_MAP.off) (reg s (pgDEV + DEV_ROLE_MAP.off)) data allOnes ∧
      RegsOnly bookPages [pgDEV + DEV_ROLE_MAP.off] s t ∧
      Only (.roles :: books) s t) := by
  have taken := leaves_mapTaken s data
  have hbody : (if data = reg s (pgDEV + DEV_ROLE_MAP.off) then (s, 0) else if isSet s pgDEV ANY_LOCK then (s, 3)
      else if rolesOk data then (mapTaken s data, 0) else (flag s pgDEV DEV_F_ROLE_REJ, 1)) = (mapTaken s data, 0) := by
    rw [if_neg hnew, if_neg (by simp [hlock]), if_pos hok]
  refine completes_ownWrite rfl h hbody taken.only (fun t ht => ?_)
  have role (j : Nat) (hj : j ∈ List.range 16) : roleOf t j = roleOf s j := by
    have hrec : Off recordFoot.spans (pgENG j + ENG_ROLE.off) := off_record_eng ⟨j, by simpa using hj⟩ _ (by decide)
    have hmap : Off [wordSpan (pgDEV + DEV_ROLE_MAP.off)] (pgENG j + ENG_ROLE.off) := by revert j; decide
    exact (ht.leaves.fld _ _ hrec).trans (taken.fld _ _ hmap)
  refine ⟨(ht.leaves.reg _ off_record_roleMap).trans (reg_mapTaken s data), ht.leaves.only .roles (by decide), ?_, ?_,
    ht.regsOnly _ (taken.regsOnly [pgPMC] [pgDEV + DEV_ROLE_MAP.off] (by simp [wordSpan])), ht.only taken.only (by decide) (by decide)⟩
  · simpa using fun j hj => role j (by simpa using hj)
  · have := ht.entered
    rwa [reg_mapTaken] at this

theorem roleMapWrite_refused (s : State) (o : Origin) (data : Word) (h : addrReject s o (pgDEV + DEV_ROLE_MAP.off) = none)
    (hnew : data ≠ reg s (pgDEV + DEV_ROLE_MAP.off)) (hlock : isSet s pgDEV ANY_LOCK = false) (hbad : rolesOk data = false) :
    Completes (.roleMapWrite o data) s (fun t =>
      flagSet t pgDEV DEV_F_ROLE_REJ = true ∧
      reg t (pgDEV + DEV_ROLE_MAP.off) = reg s (pgDEV + DEV_ROLE_MAP.off) ∧
      Answered s t o 1 (pgDEV + DEV_ROLE_MAP.off) ∧
      Only books s t) := by
  have flagged := leaves_flag s pgDEV DEV_F_ROLE_REJ
  have hbody : (if data = reg s (pgDEV + DEV_ROLE_MAP.off) then (s, 0) else if isSet s pgDEV ANY_LOCK then (s, 3)
      else if rolesOk data then (mapTaken s data, 0) else (flag s pgDEV DEV_F_ROLE_REJ, 1)) = (flag s pgDEV DEV_F_ROLE_REJ, 1) := by
    rw [if_neg hnew, if_neg (by simp [hlock]), if_neg (by simp [hbad])]
  refine completes_ownWrite rfl h hbody flagged.only (fun t ht => ⟨?_, ?_, ht.answered, ht.only flagged.only (by decide) (by decide)⟩)
  · rw [ht.leaves.flagSet _ _ (by decide)]
    exact flagSet_flag _ _ _ (by decide) (by decide) (by decide)
  · exact (ht.leaves.reg _ off_record_roleMap).trans (flagged.reg _ (by decide))

theorem roleMapWrite_locked (s : State) (o : Origin) (data : Word) (h : addrReject s o (pgDEV + DEV_ROLE_MAP.off) = none)
    (hnew : data ≠ reg s (pgDEV + DEV_ROLE_MAP.off)) (hlock : isSet s pgDEV ANY_LOCK = true) :
    Completes (.roleMapWrite o data) s (fun t =>
      reg t (pgDEV + DEV_ROLE_MAP.off) = reg s (pgDEV + DEV_ROLE_MAP.off) ∧
      Answered s t o 3 (pgDEV + DEV_ROLE_MAP.off) ∧
      Only books s t) := by
  have unchanged := Only.refl [] s
  have hbody : (if data = reg s (pgDEV + DEV_ROLE_MAP.off) then (s, 0) else if isSet s pgDEV ANY_LOCK then (s, 3)
      else if rolesOk data then (mapTaken s data, 0) else (flag s pgDEV DEV_F_ROLE_REJ, 1)) = (s, 3) := by
    rw [if_neg hnew, if_pos hlock]
  exact completes_ownWrite rfl h hbody unchanged (fun t ht => ⟨ht.leaves.reg _ off_record_roleMap, ht.answered,
    ht.only unchanged (by simp) (by simp)⟩)

/-! ### The map applied (R167) -/

/-- The clusters of a list take their roles of a map. -/
def rolesSet (s : State) (w : Word) (l : List Nat) : State := l.foldl (fun t k => setFld t (pgENG k) ENG_ROLE (mapRole w k)) s

theorem leaves_rolesSet (s : State) (w : Word) (l : List Nat) :
    Leaves ⟨[.regs], l.map (fun k => wordSpan (pgENG k + ENG_ROLE.off))⟩ s (rolesSet s w l) := by
  refine .foldl (fun t k hk => (leaves_setFld t _ _ _).mono ⟨by simp, ?_⟩) s
  simp only [Covers, List.mem_singleton, forall_eq]
  exact ⟨_, List.mem_map_of_mem hk, le_refl _, le_refl _⟩

theorem roleOf_rolesSet (s : State) (w : Word) (l : List Nat) (j : Nat) (hj : j ∈ l ∨ roleOf s j = mapRole w j) :
    roleOf (rolesSet s w l) j = mapRole w j := by
  induction l generalizing s with
  | nil => exact hj.resolve_left (by simp)
  | cons k l ih =>
    refine ih _ ?_
    by_cases hk : j = k
    · subst hk
      refine .inr ((fld_setFld_same _ _ _ _ (by decide)).trans (Nat.mod_eq_of_lt ?_))
      exact Nat.mod_lt _ (by decide)
    · refine hj.imp (fun hm => (List.mem_cons.mp hm).resolve_left hk) (fun hr => Eq.trans ?_ hr)
      refine (leaves_setFld s _ _ _).fld _ _ ?_
      have hp (i : Nat) : pgENG i = 0x03000000 + i * 0x10000 := rfl
      simp only [Off, wordSpan, List.mem_singleton, forall_eq, hp]
      omega

/-- Every cluster has its role of the map, and no change waits. -/
def rolesApplied (s : State) (w : Word) : State :=
  let s1 := rolesSet s w (List.range 16)
  { s1 with eng := { s1.eng with roles := none } }

theorem roleChangeApply_due (s : State) (w : Word) (f : Nat) (hr : s.eng.roles = some (w, f)) (hf : f ≤ frame s) :
    Completes (.roleChangeApply) s (fun t =>
      t.eng.roles = none ∧
      (List.range 16).all (fun j => roleOf t j == mapRole w j) = true ∧
      flagSet t pgDEV DEV_F_ROLE_DONE = true ∧
      cntAt t (cntAddr pgDEV DEV_C_ROLE_CHANGES) = min cntMax (cntAt s (cntAddr pgDEV DEV_C_ROLE_CHANGES) + 1) ∧
      Only (.roles :: alerts) s t) := by
  have hrun : exec .roleChangeApply s =
      .next (post (note (rolesApplied s w) pgDEV DEV_F_ROLE_DONE DEV_C_ROLE_CHANGES) pgDEV .roleDone []) := by
    show execRoleChangeApply s = _
    simp only [execRoleChangeApply, hr]
    exact if_neg (by omega)
  have set := leaves_rolesSet s w (List.range 16)
  have cleared : Leaves ⟨[.roles], []⟩ (rolesSet s w (List.range 16)) (rolesApplied s w) := .of_only (only_roles _ _) (by decide) (by decide)
  have noted := leaves_note (rolesApplied s w) pgDEV DEV_F_ROLE_DONE DEV_C_ROLE_CHANGES
  have posted := leaves_post (note (rolesApplied s w) pgDEV DEV_F_ROLE_DONE DEV_C_ROLE_CHANGES) pgDEV .roleDone []
  have hnone : (rolesApplied s w).eng.roles = none := rfl
  refine ⟨_, hrun, ?_, ?_, ?_, ?_, ?_⟩
  · exact (posted.only .roles (by decide)).trans ((noted.only .roles (by decide)).trans hnone)
  · simp only [List.all_eq_true, beq_iff_eq]
    intro j hj
    have late : Off (eventFoot.add (wordSpan (pgDEV + ANY_EVT_SEQ.off))).spans (pgENG j + ENG_ROLE.off) := by revert j; decide
    have noteOff : Off [pmcSpan, wordSpan (pgDEV + DEV_F_ROLE_DONE.off), wordSpan (pgDEV + DEV_F_ROLE_DONE.cntOff),
        wordSpan (cntAddr pgDEV DEV_C_ROLE_CHANGES)] (pgENG j + ENG_ROLE.off) := by revert j; decide
    exact (posted.fld _ _ late).trans ((noted.fld _ _ noteOff).trans ((cleared.fld _ _ (by simp)).trans (roleOf_rolesSet s w _ j (.inl hj))))
  · rw [posted.flagSet _ _ (by decide), note, (leaves_bump _ _ _ _).flagSet _ _ (by decide)]
    exact flagSet_flag _ _ _ (by decide) (by decide) (by decide)
  · rw [posted.cnt _ (by decide), note, cntAt_bump_same, cntAt_flag, cleared.cnt _ (by simp), set.cnt _ (by decide)]
  · exact (((set.only.mono (by decide)).trans (cleared.only.mono (by decide))).trans (noted.only.mono (by decide))).trans (posted.only.mono (by decide))

theorem roleChangeApply_early (s : State) (h : s.eng.roles.all (fun x => decide (frame s < x.2)) = true) :
    Completes (.roleChangeApply) s (fun t => t = s) := by
  refine ⟨s, ?_, rfl⟩
  show execRoleChangeApply s = _
  unfold execRoleChangeApply
  split
  · rfl
  · rename_i w f hr
    exact if_pos (by simpa [hr] using h)

/-- Settles O38: each command's cases, over the record of a write, the fault that stands alone and the drain. -/
theorem sparesAndRoles : Obligations.SparesAndRoles := by
  unfold Obligations.SparesAndRoles
  exact ⟨spareRetire_taken, spareRetire_refused, spareReinstate_taken, spareReinstate_refused, engineDrained_idle, engineDrained_checked,
    engineDrained_busy, engineLost_spared, engineLost_unspared, roleMapWrite_taken, roleMapWrite_refused, roleMapWrite_locked,
    roleChangeApply_due, roleChangeApply_early⟩

end Sys2Proof.Machine
end

section
/-! SUPPORT. The slots of the reorder stage, and the end of a dispatch (R149, R152, R161). -/

namespace Sys2Proof.Machine

/-! ### Slots (R161, R169) -/

/-- What showing the slots touches. -/
def slotFoot : Foot := ⟨[.regs], (List.range 16).map (fun j => (pgRDR j + 0x40, pgRDR j + 0x50))⟩

theorem leaves_showSlots (s : State) (k : Nat) (hk : k < 16) : Leaves slotFoot s (showSlots s k) := by
  have shown (t : State) (j : Nat) (hj : j < 16) (f : Fld) (v : Nat) (hf : 0x40 ≤ f.off ∧ f.off < 0x50) :
      Leaves slotFoot t (setFld t (pgRDR j) f v) := by
    refine (leaves_setFld_in t (pgRDR j) f v hf).mono ⟨by simp [slotFoot], ?_⟩
    revert j
    decide
  unfold showSlots showRdr
  exact (((shown _ k hk _ _ (by decide)).trans (shown _ k hk _ _ (by decide))).trans (shown _ k hk _ _ (by decide))).trans
    (.foldl (fun t j hj => shown t j (by simpa using hj) _ _ (by decide)) _)

/-- The slot filled: whether it waited is what the lower slots held then. -/
theorem rdrSrc_fillSlot (s : State) (src seq : Nat) (v : Verdict) :
    ∃ w, rdrSrc (fillSlot s src seq v) src = { rdrSrc s src with held := (rdrSrc s src).held ++ [⟨seq, w, v⟩] } :=
  ⟨_, rdrSrc_setRdrSrc_same _ _ _⟩

theorem fill_ahead (s : State) (p : Packet) (v : Verdict) (h : seqBad (rdrSrc s p.src) p.seq = false) :
    fill s p v = showSlots (fillSlot s p.src p.seq v) (p.src % 16) := if_neg (by simp [h])

/-- What filling a slot touches. -/
def fillFoot : Foot := ⟨[.rdr, .regs], slotFoot.spans⟩

theorem leaves_fill_ahead (s : State) (p : Packet) (v : Verdict) (h : seqBad (rdrSrc s p.src) p.seq = false) :
    Leaves fillFoot s (fill s p v) := by
  rw [fill_ahead s p v h]
  exact ((leaves_setRdrSrc s p.src _).mono (by decide)).andThen (leaves_showSlots _ _ (Nat.mod_lt _ (by decide))) (by decide)

/-- The source of a packet whose slot is filled. -/
structure Filled (s t : State) (src seq : Nat) (v : Verdict) : Prop where
  held : (rdrSrc t src).held.map (fun g => (g.seq, g.verdict)) = (rdrSrc s src).held.map (fun g => (g.seq, g.verdict)) ++ [(seq, v)]
  slots : (rdrSrc t src).slots = (rdrSrc s src).slots
  next : (rdrSrc t src).next = (rdrSrc s src).next
  others : TblOnly RdrSrc.init src s.eng.rdr t.eng.rdr

theorem filled_fill (s : State) (p : Packet) (v : Verdict) (h : seqBad (rdrSrc s p.src) p.seq = false) :
    Filled s (fill s p v) p.src p.seq v := by
  obtain ⟨w, hw⟩ := rdrSrc_fillSlot s p.src p.seq v
  have shown := leaves_showSlots (fillSlot s p.src p.seq v) (p.src % 16) (Nat.mod_lt _ (by decide))
  have hsrc : rdrSrc (fill s p v) p.src = { rdrSrc s p.src with held := (rdrSrc s p.src).held ++ [⟨p.seq, w, v⟩] } := by
    rw [fill_ahead s p v h, shown.eng_rdrSrc (by decide), hw]
  refine ⟨by rw [hsrc]; simp, by rw [hsrc], by rw [hsrc], fun j hj => ?_⟩
  rw [fill_ahead s p v h]
  exact (shown.eng_rdrSrc (by decide) j).trans (tblOnly_setRdrSrc s p.src _ j hj)

/-- What a packet freed by the stage touches. -/
def freedFoot : Foot := ⟨[.buf, .regs, .cnt, .pmc], [pmcSpan, pageSpan pgTMQ, pageSpan pgBPM, (pgCXL 0, pgCXL 4)]⟩

theorem leaves_freePacket (s : State) (p : Packet) (party : Nat) : Leaves freedFoot s (freePacket s p party) := by
  unfold freePacket
  split
  · exact ((leaves_freeBuf s _ party false).mono (by decide)).andThen (leaves_settlePools s _) (by decide)
  · exact .refl _ s

/-- What a number that no working device fills touches. -/
def seqErrFoot : Foot := ⟨[.rdr, .buf, .regs, .cnt, .fifo, .pmc],
  freedFoot.spans ++ slotFoot.spans ++ noticeFoot.spans ++ (List.range 16).flatMap (fun j =>
    [wordSpan (pgRDR j + RDR_F_SEQ_ERR.off), wordSpan (pgRDR j + RDR_F_SEQ_ERR.cntOff), wordSpan (cntAddr (pgRDR j) RDR_C_SEQ_ERR)])⟩

theorem noteFoot_within_seqErr : ∀ k < 16, Foot.Within ⟨[.regs, .cnt, .pmc], [pmcSpan, wordSpan (pgRDR k + RDR_F_SEQ_ERR.off),
    wordSpan (pgRDR k + RDR_F_SEQ_ERR.cntOff), wordSpan (cntAddr (pgRDR k) RDR_C_SEQ_ERR)]⟩ seqErrFoot := by decide
theorem off_seqErr_react : ∀ k < 16, Off seqErrFoot.spans (pgFLT + (FLT_REACT.at k).off) := by decide
theorem off_notice_rdrFlags : ∀ k < 16, Off noticeFoot.spans (pgRDR k + 0x70) := by decide
theorem off_slot_rdrFlags : ∀ k < 16, Off slotFoot.spans (pgRDR k + 0x70) := by decide
theorem off_count_rdrFlags : ∀ k < 16, ∀ i < 32, Off [pmcSpan, wordSpan (cntAddr (pgRDR k) i)] (pgRDR k + 0x70) := by decide
theorem pmcWord_rdrFlags : ∀ k < 16, pmcWord (pgRDR k + 0x70) = false := by decide

/-- A number that no working device fills: the slot is free, and SEQ_ERR is set. -/
theorem fill_beyond (s : State) (p : Packet) (v : Verdict) (h : seqBad (rdrSrc s p.src) p.seq = true)
    (h2 : bitAt (react s (p.src % 16)) 2 = false) (h3 : bitAt (react s (p.src % 16)) 3 = false) :
    Leaves seqErrFoot s (fill s p v) ∧ rdrSrc (fill s p v) p.src = { rdrSrc s p.src with slots := (rdrSrc s p.src).slots - 1 } ∧
    flagSet (fill s p v) (pgRDR (p.src % 16)) RDR_F_SEQ_ERR = true := by
  have hk : p.src % 16 < 16 := Nat.mod_lt _ (by decide)
  have hfill : fill s p v = notice (showSlots (note (freePacket (setRdrSrc s p.src { rdrSrc s p.src with slots := (rdrSrc s p.src).slots - 1 }) p
      (rdrParty p)) (pgRDR (p.src % 16)) RDR_F_SEQ_ERR RDR_C_SEQ_ERR) (p.src % 16)) (p.src % 16) none := if_pos h
  generalize p.src % 16 = k at hfill hk h2 h3 ⊢
  have free := leaves_freePacket (setRdrSrc s p.src { rdrSrc s p.src with slots := (rdrSrc s p.src).slots - 1 }) p (rdrParty p)
  generalize hu : freePacket (setRdrSrc s p.src { rdrSrc s p.src with slots := (rdrSrc s p.src).slots - 1 }) p (rdrParty p) = u at free hfill
  have noted := leaves_note u (pgRDR k) RDR_F_SEQ_ERR RDR_C_SEQ_ERR
  have shown := leaves_showSlots (note u (pgRDR k) RDR_F_SEQ_ERR RDR_C_SEQ_ERR) k hk
  have freed : Leaves seqErrFoot s u := ((leaves_setRdrSrc s p.src _).mono (by decide)).andThen free (by decide)
  have before := (freed.andThen noted (noteFoot_within_seqErr k hk)).andThen shown (by decide)
  have quiet : react (showSlots (note u (pgRDR k) RDR_F_SEQ_ERR RDR_C_SEQ_ERR) k) k = react s k :=
    before.reacts k (off_seqErr_react k hk)
  have told := notice_none _ k (by omega) (by rw [quiet, h2]) (by rw [quiet, h3])
  rw [hfill]
  refine ⟨before.andThen told (by decide), ?_, ?_⟩
  · rw [told.eng_rdrSrc (by decide), shown.eng_rdrSrc (by decide), noted.eng_rdrSrc (by simp), free.eng_rdrSrc (by decide),
      rdrSrc_setRdrSrc_same]
  · rw [told.flagSet _ _ (off_notice_rdrFlags k hk), shown.flagSet _ _ (off_slot_rdrFlags k hk), note,
      (leaves_bump _ _ _ _).flagSet _ _ (off_count_rdrFlags k hk _ (by decide))]
    exact flagSet_flag _ _ _ (by decide) (by decide) (pmcWord_rdrFlags k hk)

/-! ### The end of a dispatch (R149, R152) -/

theorem leaves_dropWaits (s : State) (c : CtxId) : Leaves ⟨[.wait], []⟩ s (dropWaits s c) := by
  have dropped := (leaves_dropRequests s c).only
  refine .of_only (fun p hp => ?_) (by decide) (by decide)
  have same := dropped p
  cases p
  case wait => simp at hp
  case rule | move | vid | prim | ovf | domain | arb | reloc | bulk | age => rfl
  all_goals exact same (by decide)

/-- The context is IDLE again, and counted. -/
def dispatchOver (s : State) (c : CtxId) (e : Ending) : State :=
  setCtx (dropWaits (bump s (pgENG c.k) e.counter 1) c) c (ctx s c).ended

/-- And its packet's buffer has gone on. -/
def handedOn (s : State) (c : CtxId) (e : Ending) : State :=
  match (ctx s c).pkt.handle with
  | some h => if e = .drop then settlePools (dispatchOver s c e) (freeBuf (dispatchOver s c e) h (tagCtx c) false)
      else passBuf (dispatchOver s c e) h (tagCtx c) (rdrParty (ctx s c).pkt)
  | none => dispatchOver s c e

/-- The packet as its slot has it. -/
def Ending.packet (e : Ending) (p : Packet) : Packet := if e = .drop then { p with handle := none } else p

theorem endDispatch_slot (s : State) (c : CtxId) (e : Ending) (h : (ctx s c).slot = true) :
    endDispatch s c e = fill (handedOn s c e) (e.packet (ctx s c).pkt) (e.verdict (ctx s c).pkt) := if_pos h

theorem endDispatch_noSlot (s : State) (c : CtxId) (e : Ending) (h : (ctx s c).slot = false) :
    endDispatch s c e = match e with
      | .done => forward (handedOn s c e) (ctx s c).pkt (rdrParty (ctx s c).pkt)
      | .punt => punt (handedOn s c e) (ctx s c).pkt (rdrParty (ctx s c).pkt)
      | .drop => handedOn s c e := by
  refine (if_neg (by simp [h])).trans ?_
  cases e <;> rfl

/-- What the end of a dispatch touches, its packet's buffer apart. -/
def overFoot (k i : Nat) : Foot := ⟨[.ctx, .wait, .regs, .cnt, .pmc], [pmcSpan, wordSpan (cntAddr (pgENG k) i), (pgENG k + 0x84, pgENG k + 0x8C)]⟩

theorem leaves_dispatchOver (s : State) (c : CtxId) (e : Ending) : Leaves (overFoot c.k e.counter) s (dispatchOver s c e) :=
  (((leaves_bump s _ _ _).mono (by simp [Foot.Within, Covers, overFoot])).andThen (leaves_dropWaits _ c)
    (by simp [Foot.Within, Covers, overFoot])).andThen (leaves_setCtx _ c _) (by simp [Foot.Within, Covers, overFoot, ctxFoot])

theorem off_over_counter (k : Fin 16) (e : Ending) : Off (ctxFoot k).spans (cntAddr (pgENG k) e.counter) := by
  cases e <;> (revert k; decide)

theorem cntAt_dispatchOver (s : State) (c : CtxId) (e : Ending) : cntAt (dispatchOver s c e) (cntAddr (pgENG c.k) e.counter) =
    min cntMax (cntAt s (cntAddr (pgENG c.k) e.counter) + 1) := by
  rw [dispatchOver, (leaves_setCtx _ c _).cnt _ (off_over_counter c.k e), (leaves_dropWaits _ c).cnt _ (by simp), cntAt_bump_same]

/-- The packet's buffer goes on within the footprint of a freed one. -/
theorem leaves_handedOn (s : State) (c : CtxId) (e : Ending) : Leaves freedFoot (dispatchOver s c e) (handedOn s c e) := by
  unfold handedOn
  split
  · refine .ite (fun _ => ?_) (fun _ => (leaves_passBuf _ _ _ _).mono (by decide))
    exact ((leaves_freeBuf _ _ _ _).mono (by decide)).andThen (leaves_settlePools _ _) (by decide)
  · exact .refl _ _

theorem handedOn_bufferless (s : State) (c : CtxId) (e : Ending) (h : (ctx s c).pkt.handle = none) : handedOn s c e = dispatchOver s c e := by
  rw [handedOn, h]

theorem ctx_handedOn (s : State) (c : CtxId) (e : Ending) : ctx (handedOn s c e) c = (ctx s c).ended := by
  rw [(leaves_handedOn s c e).eng_ctx (by decide), dispatchOver, ctx_setCtx_same]

theorem rdrSrc_handedOn (s : State) (c : CtxId) (e : Ending) (src : Nat) : rdrSrc (handedOn s c e) src = rdrSrc s src := by
  rw [(leaves_handedOn s c e).eng_rdrSrc (by decide), (leaves_dispatchOver s c e).eng_rdrSrc (by simp [overFoot])]

theorem only_handedOn (s : State) (c : CtxId) (e : Ending) : Only [.ctx, .wait, .buf, .regs, .cnt, .pmc] s (handedOn s c e) :=
  ((leaves_dispatchOver s c e).only.mono (by simp [overFoot])).trans ((leaves_handedOn s c e).only.mono (by decide))

theorem off_freed_counter (k : Fin 16) (e : Ending) : Off freedFoot.spans (cntAddr (pgENG k) e.counter) := by
  cases e <;> (revert k; decide)

theorem cntAt_handedOn (s : State) (c : CtxId) (e : Ending) : cntAt (handedOn s c e) (cntAddr (pgENG c.k) e.counter) =
    min cntMax (cntAt s (cntAddr (pgENG c.k) e.counter) + 1) := by
  rw [(leaves_handedOn s c e).cnt _ (off_freed_counter c.k e), cntAt_dispatchOver]

/-- The buffer of a packet forwarded or punted passes to the queue manager. -/
theorem holders_handedOn (s : State) (c : CtxId) (e : Ending) (he : e ≠ .drop) {h : Nat} (hh : (ctx s c).pkt.handle = some h)
    (hc : (buf s h).holders.contains (tagCtx c) = true) :
    (buf (handedOn s c e) h).holders = rdrParty (ctx s c).pkt :: (buf s h).holders.erase (tagCtx c) := by
  have kept := (leaves_dispatchOver s c e).tm_buf (by simp [overFoot]) h
  simp only [handedOn, hh, if_neg he]
  rw [holders_passBuf _ _ _ _ (by rwa [kept]), kept]

/-- The buffer of a packet dropped is free, if no other party holds it. -/
theorem buf_handedOn_drop (s : State) (c : CtxId) {h : Nat} (hh : (ctx s c).pkt.handle = some h) (hc : (buf s h).holders = [tagCtx c]) :
    buf (handedOn s c .drop) h = Buf.init h := by
  have kept := (leaves_dispatchOver s c .drop).tm_buf (by simp [overFoot]) h
  simp only [handedOn, hh, if_pos]
  rw [(leaves_settlePools _ _).tm_buf (by decide), buf_freeBuf_last _ _ _ (by rw [kept, hc])]

end Sys2Proof.Machine
end

section
/-! SUPPORT. What traces, allocations and the queue manager's enqueue touch (R191, R195, R199 to R203, R206, R331). -/

namespace Sys2Proof.Machine

/-! ### Trace records (R331) -/

theorem only_traceRing (s : State) (l : List TraceRec) (n : Nat) :
    Only [.trace] s { s with tst := { s.tst with trace := l, unsent := n } } := by
  intro p hp
  cases p
  case trace => simp at hp
  all_goals rfl

/-- What a trace record touches. -/
def traceFoot : Foot := ⟨[.trace, .regs, .cnt, .pmc], [pageSpan pgPMC]⟩

theorem leaves_trace (s : State) (b point verdict : Nat) (m : Option (Nat × Nat × Nat)) (queue len arg : Nat) :
    Leaves traceFoot s (trace s b point verdict m queue len arg) := by
  have dropped : Leaves traceFoot s (note s pgPMC PMC_F_TRACE_DROP PMC_C_TRACE_DROP) := (leaves_note _ _ _ _).mono (by decide)
  unfold trace
  split
  · exact .refl _ s
  · refine .ite (fun _ => .refl _ s) (fun _ => .ite (fun _ => dropped) (fun _ => ?_))
    exact (((Leaves.of_only (only_traceRing s _ _) (by decide) (by decide)).mono (by decide)).andThen (leaves_bump _ _ _ _) (by decide)).andThen
      (leaves_setFld _ _ _ _) (by decide)

/-! ### Allocations (R199 to R202) -/

theorem leaves_drawFree (s : State) : Leaves ⟨[.freeCtr], []⟩ s (drawFree s) := by
  refine .of_only (fun p hp => ?_) (by decide) (by decide)
  cases p
  case freeCtr => simp at hp
  all_goals rfl

/-- What an allocation touches. -/
def allocFoot : Foot := ⟨[.buf, .freeCtr, .regs, .cnt, .pmc], [pmcSpan, pageSpan pgBPM]⟩

theorem leaves_newBuf (s : State) (h tag : Nat) : Leaves allocFoot s (newBuf s h tag) :=
  ((leaves_setBuf s h _).mono (by decide)).andThen (leaves_bump _ _ _ _) (by decide)

theorem leaves_allocOne {s : State} {r tag pool tier : Nat} {x : Nat × State} (h : allocOne s r tag pool tier = some x) :
    Leaves allocFoot s x.2 := by
  have drawn : Leaves allocFoot s (drawFree s) := (leaves_drawFree s).mono (by decide)
  have reserved : Leaves allocFoot s (noteReserve (drawFree s)) := drawn.andThen (leaves_note _ _ _ _) (by decide)
  unfold allocOne at h
  dsimp only at h
  generalize (if stacksUp s then replGranules s * 160 else 0) = n at h
  split at h
  · split at h
    · cases h
    · obtain ⟨i, -, rfl⟩ := Option.map_eq_some_iff.mp h
      exact drawn.trans (leaves_newBuf _ _ _)
  · split at h
    · obtain rfl := Option.some.inj h
      exact drawn.trans (leaves_newBuf _ _ _)
    · split at h
      · cases h
      · obtain ⟨g, -, rfl⟩ := Option.map_eq_some_iff.mp h
        exact .trans (.ite (fun _ => reserved) (fun _ => drawn)) (leaves_newBuf _ _ _)

theorem leaves_allocFit {s : State} {r tag tier n : Nat} {x : Nat × State} (h : allocFit s r tag tier n = some x) :
    Leaves allocFoot s x.2 := by
  have promoted (q : Nat) (y : Nat × State) (hy : (if waitQ s q = [] then
      (allocOne s r tag q tier).map (fun x => (x.1, note x.2 pgBPM BPM_F_PROMOTED BPM_C_PROMOTED)) else none) = some y) :
      Leaves allocFoot s y.2 := by
    split at hy
    · obtain ⟨z, hz, rfl⟩ := Option.map_eq_some_iff.mp hy
      exact (leaves_allocOne hz).andThen (leaves_note _ _ _ _) (by decide)
    · cases hy
  unfold allocFit at h
  dsimp only at h
  split at h
  · rename_i y hy
    obtain rfl := Option.some.inj h
    exact leaves_allocOne hy
  · split at h
    · split at h
      · rename_i y hy
        obtain rfl := Option.some.inj h
        exact promoted _ _ hy
      · split at h
        · exact promoted _ _ h
        · cases h
    · cases h

theorem leaves_allocChain {r tag tier k : Nat} {s : State} {n : Nat} {x : List Nat × State} (h : allocChain r tag tier k s n = some x) :
    Leaves allocFoot s x.2 := by
  induction k generalizing s n x with
  | zero => cases h
  | succ k ih =>
    simp only [allocChain] at h
    generalize (if r = 7 then 256 else 10240) = top at h
    split at h
    · cases h
    · rename_i y s1 hy
      have first : Leaves allocFoot s s1 := leaves_allocFit hy
      split at h
      · obtain rfl := Option.some.inj h
        exact first
      · obtain ⟨z, hz, rfl⟩ := Option.map_eq_some_iff.mp h
        exact first.trans (ih hz : Leaves allocFoot s1 z.2)

theorem leaves_allocBytes {s : State} {r tag tier n : Nat} {x : Nat × State} (h : allocBytes s r tag tier n = some x) :
    Leaves allocFoot s x.2 := by
  unfold allocBytes at h
  split at h
  · rename_i b l s1 hc
    obtain rfl := Option.some.inj h
    exact (leaves_allocChain hc).andThen (leaves_setBuf _ _ _) (by decide)
  · cases h

theorem leaves_askBytes {s : State} {r tag tier n : Nat} {x : Nat × State} (h : askBytes s r tag tier n = some x) :
    Leaves allocFoot s x.2 := by
  unfold askBytes at h
  split at h
  · cases h
  · exact leaves_allocBytes h

/-- What a request that was not granted touches. -/
def waitFoot : Foot := ⟨[.wait, .regs, .cnt, .pmc], [pmcSpan, pageSpan pgBPM]⟩

theorem leaves_waitOrRefuse (s : State) (w : WaitReq) : Leaves waitFoot s (waitOrRefuse s w).1 := by
  have refused : Leaves waitFoot s (note s pgBPM BPM_F_REFUSED BPM_C_REFUSED) := (leaves_note _ _ _ _).mono (by decide)
  unfold waitOrRefuse
  dsimp only
  split
  · exact ((leaves_setWaitQ s _ _).mono (by decide)).andThen (leaves_bump _ _ _ _) (by decide)
  · exact .ite (fun _ => refused.andThen (leaves_flag _ _ _) (by decide)) (fun _ => refused)

/-! ### Enqueue (R191, R195, R203, R206) -/

theorem only_queue (s : State) (l : Tbl Queue) : Only [.queue] s { s with tm := { s.tm with q := l } } := by
  intro p hp
  cases p
  case queue => simp at hp
  all_goals rfl

theorem leaves_setQueue (s : State) (k : Nat) (q : Queue) : Leaves ⟨[.queue], []⟩ s (setQueue s k q) :=
  .of_only (only_queue s _) (by decide) (by decide)

theorem leaves_setNode (s : State) (lv i : Nat) (n : Node) : Leaves ⟨[.node], []⟩ s (setNode s lv i n) := by
  refine .of_only (fun p hp => ?_) (by decide) (by decide)
  cases p
  case node => simp at hp
  all_goals rfl

theorem leaves_refreshOver (s : State) (k : Nat) : Leaves ⟨[.node], []⟩ s (refreshOver s k) :=
  .foldl (fun _ _ _ => .ite (fun _ => leaves_setNode _ _ _ _) (fun _ => .refl _ _)) s

theorem leaves_wakeOver (s : State) (k : Nat) (idle : List Nat) : Leaves ⟨[.node], []⟩ s (wakeOver s k idle) := by
  unfold wakeOver
  exact .ite (fun _ => (leaves_setNode _ _ _ _).trans (.foldl (fun _ _ _ => leaves_setNode _ _ _ _) _)) (fun _ => leaves_setNode _ _ _ _)

/-- What the release of a frame by the reorder stage touches: the queue manager, the pools, the rings and the trace. -/
def passFoot : Foot := ⟨[.regs, .cnt, .pmc, .trace, .buf, .queue, .node, .freeCtr, .wait, .ring],
  [pageSpan pgPMC, pageSpan pgTMQ, pageSpan pgBPM, pageSpan pgPRT, pageSpan pgHST, (pgCXL 0, pgCXL 4)]⟩

theorem leaves_queueCount (s : State) (k j i n : Nat) (hi : i < 32) : Leaves passFoot s (queueCount s k j i n) := by
  refine ((leaves_setQueue s k _).mono (by decide)).andThen (leaves_bump _ _ _ _) ⟨by simp [passFoot], ?_⟩
  revert i
  decide

theorem leaves_tailDrop (s : State) (k len : Nat) : Leaves passFoot s (tailDrop s k len) :=
  (((leaves_flag s _ _).mono (by decide)).trans (leaves_queueCount _ _ _ _ _ (by decide))).andThen (leaves_bump _ _ _ _) (by decide)

theorem leaves_refuseFrame (s : State) (p : Packet) (owner : Nat) : Leaves freeFoot s (refuseFrame s p owner) := by
  unfold refuseFrame
  split
  · exact leaves_freeBuf s _ _ _
  · exact .refl _ s

theorem leaves_dropPacket (k : Nat) (p : Packet) (repl : Bool) (owner : Nat) (s : State) : Leaves passFoot s (dropPacket k p repl owner s) := by
  have traced : Leaves passFoot s (trace s pgTMQ 6 1 p.tag (k % 65536) p.len 0) := (leaves_trace _ _ _ _ _ _ _ _).mono (by decide)
  unfold dropPacket
  exact .ite (fun _ => traced) (fun _ => traced.andThen (leaves_refuseFrame _ _ _) (by decide))

theorem leaves_linkFrame (s : State) (k : Nat) (f : QFrame) : Leaves passFoot s (linkFrame s k f) := by
  have linked : Leaves passFoot s (setQueue (refreshOver s k) k
      { queueOf (refreshOver s k) k with frames := (queueOf (refreshOver s k) k).frames ++ [f], occ := (queueOf (refreshOver s k) k).occ + f.charge }) :=
    ((leaves_refreshOver s k).mono (by decide)).andThen (leaves_setQueue _ _ _) (by decide)
  have counted := ((linked.trans (leaves_queueCount _ k 0 TMQ_C_ENQ_PKTS 1 (by decide))).trans
    (leaves_queueCount _ k 1 TMQ_C_ENQ_BYTES f.len (by decide))).andThen (leaves_trace _ pgTMQ 6 0 f.mark (k % 65536) f.len 0) (by decide)
  unfold linkFrame
  exact .ite (fun _ => counted.andThen (leaves_wakeOver _ _ _) (by decide)) (fun _ => counted)

theorem leaves_notePlace (s : State) (pl : Place) : Leaves passFoot s (notePlace s pl) := by
  unfold notePlace
  exact .ite (fun _ => (leaves_note _ _ _ _).mono (by decide)) (fun _ => .refl _ s)

theorem leaves_addRef (s : State) (h party : Nat) : Leaves freeFoot s (addRef s h party).1 := by
  unfold addRef
  dsimp only
  split
  · exact .refl _ s
  · split
    · exact (leaves_note _ _ _ _).mono (by decide)
    · exact (leaves_setRefs _ _ _ _).mono (by decide)

theorem leaves_stackedBuf {s : State} {k : Nat} {p : Packet} {repl : Bool} {owner : Nat} {x : Nat × State}
    (h : stackedBuf s k p repl owner = some x) : Leaves passFoot s x.2 := by
  unfold stackedBuf at h
  dsimp only at h
  split at h
  · exact (leaves_askBytes h).mono (by decide)
  · split at h
    · split at h
      · split at h
        · obtain rfl := Option.some.inj h
          exact (leaves_addRef _ _ _).mono (by decide)
        · exact ((leaves_addRef s _ _).mono (by decide)).andThen (leaves_askBytes h) (by decide)
      · exact (leaves_askBytes h).mono (by decide)
    · split at h
      · obtain rfl := Option.some.inj h
        exact (leaves_passBuf _ _ _ _).mono (by decide)
      · obtain ⟨y, hy, rfl⟩ := Option.map_eq_some_iff.mp h
        exact ((leaves_askBytes hy).mono (by decide)).andThen (leaves_freeBuf _ _ _ _) (by decide)

theorem leaves_enqueue (s : State) (k : Nat) (p : Packet) (repl : Bool) (owner : Nat) (c : Option CtxId) :
    Leaves passFoot s (enqueue s k p repl owner c).1 := by
  have refused (t : State) (h : Leaves passFoot s t) : Leaves passFoot s (dropPacket k p repl owner t) := h.trans (leaves_dropPacket _ _ _ _ _)
  have tail := refused _ (leaves_tailDrop s k p.len)
  unfold enqueue
  dsimp only
  generalize (if k < 65536 then TMQ_DS_EN else TMQ_US_EN) = enable
  generalize (if repl then 7 else 6) = req
  split
  · exact refused _ ((leaves_note _ _ _ _).mono (by decide))
  split
  · exact tail
  split
  · exact refused _ ((leaves_bump _ _ _ _).mono (by decide))
  split
  · exact refused _ (((leaves_flag s _ _).mono (by decide)).trans (leaves_queueCount _ _ _ _ _ (by decide)))
  · exact tail
  split
  · exact refused _ (((leaves_flag s _ _).mono (by decide)).trans (leaves_queueCount _ _ _ _ _ (by decide)))
  split
  · rename_i hs
    exact ((leaves_stackedBuf hs).trans (leaves_notePlace _ _)).trans (leaves_linkFrame _ _ _)
  · have waits : Leaves passFoot s (waitOrRefuse s ⟨req, p.len, .enqueue k p repl owner c⟩).1 :=
      (leaves_waitOrRefuse _ _).mono (by decide)
    split
    · exact waits
    · exact refused _ (waits.trans (leaves_tailDrop _ _ _))

/-! ### Frames toward the host (R242, R244) -/

theorem leaves_setRing (s : State) (r : Nat) (x : Ring) : Leaves ⟨[.ring], []⟩ s (setRing s r x) := by
  refine .of_only (fun p hp => ?_) (by decide) (by decide)
  cases p
  case ring => simp at hp
  all_goals rfl

@[simp] theorem ring_setRing_same (s : State) (r : Nat) (x : Ring) : ring (setRing s r x) r = x := tget_tset_same Ring.init s.link.ring r x

theorem leaves_freeHost (s : State) (f : HostFrame) (party : Nat) : Leaves passFoot s (freeHost s f party) := by
  unfold freeHost
  split
  · exact ((leaves_freeBuf s _ _ _).mono (by decide)).andThen (leaves_settlePools _ _) (by decide)
  · exact .refl _ s

theorem leaves_toRing (s : State) (r : Nat) (f : HostFrame) (party : Nat) : Leaves passFoot s (toRing s r f party) := by
  have passed : Leaves passFoot s (passHost s f party (tagRing r)) := by
    unfold passHost
    split
    · exact (leaves_passBuf _ _ _ _).mono (by decide)
    · exact .refl _ s
  unfold toRing
  exact .ite (fun _ => passed.andThen (leaves_setRing _ _ _) (by decide))
    (fun _ => ((leaves_freeHost s f party).andThen (leaves_note _ _ _ _) (by decide)).andThen (leaves_setRing _ _ _) (by decide))

theorem leaves_punt (s : State) (p : Packet) (party : Nat) : Leaves passFoot s (punt s p party) := by
  unfold punt puntFrame
  dsimp only
  split
  · exact (leaves_freeHost s _ party).andThen (leaves_note _ _ _ _) (by decide)
  · exact leaves_toRing s _ _ _
  · exact ((leaves_drawFree s).mono (by decide)).trans (leaves_toRing _ _ _ _)

theorem leaves_forward (s : State) (p : Packet) (party : Nat) : Leaves passFoot s (forward s p party) := by
  unfold forward
  refine .ite (fun _ => .refl _ s) (fun _ => .ite (fun _ => leaves_toRing _ _ _ _) (fun _ => ?_))
  exact (leaves_enqueue s _ _ _ _ _).andThen (leaves_settlePools _ _) (by decide)

end Sys2Proof.Machine
end

section
/-! PROOF. O35: the end of a dispatch, and the release of its slot (R12, R149, R152, R161). -/

namespace Sys2Proof.Machine

/-! ### The sequencing word (R150, R152) -/

theorem completes_seqStep {i : Instr} {c : CtxId} {s : State} {code : Nat} {next : State → CtxId → BitVec 160 → State} {P : State → Prop}
    (hexec : exec i s = .next (seqStep code next c s)) (hcode : code < seqReserved) (hdue : seqDue s c code = true)
    (hP : P (seenConflict (next (atSeq s c) c (wordOf s c)) c)) : Completes i s P := by
  simp only [seqDue, Bool.and_eq_true, beq_iff_eq] at hdue
  obtain ⟨⟨hmay, hseq⟩, hgo⟩ := hdue
  refine ⟨_, hexec, ?_⟩
  have hrun : seqStep code next c s = seenConflict (next (atSeq s c) c (wordOf s c)) c := by
    simp only [seqStep, hmay, hseq, hgo, hcode, atSeq]
    simp
  rw [hrun]
  exact hP

/-- A context that ended has no MEM_CONFLICT left to clear. -/
theorem ended_cond (x : Ctx) : x.ended.cond 7 false = x.ended := by simp [Ctx.cond, Ctx.ended]

theorem leaves_seenConflict (s : State) (c : CtxId) : Leaves (ctxFoot c.k) s (seenConflict s c) := leaves_setCtx s c _

theorem ctx_seenConflict_ended {s : State} {c : CtxId} {x : Ctx} (h : ctx s c = x.ended) : ctx (seenConflict s c) c = x.ended := by
  rw [seenConflict, ctx_setCtx_same, h, ended_cond]

/-! ### A dispatch with a slot -/

theorem packet_src (e : Ending) (p : Packet) : (e.packet p).src = p.src := by cases e <;> rfl
theorem packet_seq (e : Ending) (p : Packet) : (e.packet p).seq = p.seq := by cases e <;> rfl

theorem off_fill_counter (k : Fin 16) (e : Ending) : Off fillFoot.spans (cntAddr (pgENG k) e.counter) := by
  cases e <;> (revert k; decide)
theorem off_freed_react : ∀ j < 16, Off freedFoot.spans (pgFLT + (FLT_REACT.at j).off) := by decide
theorem off_ctx_rdrFlags (k : Fin 16) : ∀ j < 16, Off (ctxFoot k).spans (pgRDR j + 0x70) := by revert k; decide
theorem off_over_react (k : Fin 16) (e : Ending) : ∀ j < 16, Off (overFoot k e.counter).spans (pgFLT + (FLT_REACT.at j).off) := by
  cases e <;> (revert k; decide)

/-- What the end of a dispatch leaves, whose slot is filled. -/
structure DispatchEnded (u t : State) (c : CtxId) (e : Ending) : Prop where
  ended : ctx t c = (ctx u c).ended
  filled : Filled u t (ctx u c).pkt.src (ctx u c).pkt.seq (e.verdict (ctx u c).pkt)
  counted : cntAt t (cntAddr (pgENG c.k) e.counter) = min cntMax (cntAt u (cntAddr (pgENG c.k) e.counter) + 1)
  buf : t.tm.buf = (handedOn u c e).tm.buf
  only : Only [.ctx, .wait, .buf, .rdr, .regs, .cnt, .pmc] u t

theorem endDispatch_ahead (u : State) (c : CtxId) (e : Ending) (hslot : (ctx u c).slot = true)
    (hseq : seqBad (rdrSrc u (ctx u c).pkt.src) (ctx u c).pkt.seq = false) : DispatchEnded u (endDispatch u c e) c e := by
  have hahead : seqBad (rdrSrc (handedOn u c e) (e.packet (ctx u c).pkt).src) (e.packet (ctx u c).pkt).seq = false := by
    rw [packet_src, packet_seq, rdrSrc_handedOn, hseq]
  have fill := leaves_fill_ahead _ _ (e.verdict (ctx u c).pkt) hahead
  obtain ⟨hheld, hslots, hnext, hother⟩ := filled_fill _ _ (e.verdict (ctx u c).pkt) hahead
  rw [← endDispatch_slot u c e hslot] at fill hheld hslots hnext hother
  rw [packet_src, rdrSrc_handedOn] at hheld hslots hnext
  rw [packet_seq] at hheld
  rw [packet_src] at hother
  refine ⟨?_, ⟨hheld, hslots, hnext, fun j hj => (hother j hj).trans (rdrSrc_handedOn u c e j)⟩, ?_, fill.only .buf (by decide), ?_⟩
  · rw [fill.eng_ctx (by decide), ctx_handedOn]
  · rw [fill.cnt _ (off_fill_counter c.k e), cntAt_handedOn]
  · exact ((only_handedOn u c e).mono (by decide)).trans (fill.only.mono (by decide))

theorem DispatchEnded.seen {u t : State} {c : CtxId} {e : Ending} (h : DispatchEnded u t c e) : DispatchEnded u (seenConflict t c) c e := by
  obtain ⟨hended, ⟨hheld, hslots, hnext, hother⟩, hcnt, hbuf, honly⟩ := h
  have seen := leaves_seenConflict t c
  have same := seen.eng_rdrSrc (by simp [ctxFoot])
  refine ⟨ctx_seenConflict_ended hended, ⟨?_, ?_, ?_, fun j hj => (same j).trans (hother j hj)⟩, ?_, ?_, honly.trans (seen.only.mono (by simp [ctxFoot]))⟩
  · rw [same, hheld]
  · rw [same, hslots]
  · rw [same, hnext]
  · rw [seen.cnt _ (off_over_counter c.k e), hcnt]
  · exact (seen.only .buf (by simp [ctxFoot])).trans hbuf

/-- The end of a dispatch whose number lies beyond. -/
theorem endDispatch_beyond (u : State) (c : CtxId) (e : Ending) (hslot : (ctx u c).slot = true)
    (hseq : seqBad (rdrSrc u (ctx u c).pkt.src) (ctx u c).pkt.seq = true)
    (h2 : bitAt (react u ((ctx u c).pkt.src % 16)) 2 = false) (h3 : bitAt (react u ((ctx u c).pkt.src % 16)) 3 = false) :
    ctx (seenConflict (endDispatch u c e) c) c = (ctx u c).ended ∧
    (rdrSrc (seenConflict (endDispatch u c e) c) (ctx u c).pkt.src).slots = (rdrSrc u (ctx u c).pkt.src).slots - 1 ∧
    (rdrSrc (seenConflict (endDispatch u c e) c) (ctx u c).pkt.src).held = (rdrSrc u (ctx u c).pkt.src).held ∧
    flagSet (seenConflict (endDispatch u c e) c) (pgRDR ((ctx u c).pkt.src % 16)) RDR_F_SEQ_ERR = true := by
  have hk : (ctx u c).pkt.src % 16 < 16 := Nat.mod_lt _ (by decide)
  have hbeyond : seqBad (rdrSrc (handedOn u c e) (e.packet (ctx u c).pkt).src) (e.packet (ctx u c).pkt).seq = true := by
    rw [packet_src, packet_seq, rdrSrc_handedOn, hseq]
  have quiet : react (handedOn u c e) ((ctx u c).pkt.src % 16) = react u ((ctx u c).pkt.src % 16) :=
    ((leaves_handedOn u c e).reacts _ (off_freed_react _ hk)).trans ((leaves_dispatchOver u c e).reacts _ (off_over_react c.k e _ hk))
  obtain ⟨leaves, hsrc, hflag⟩ := fill_beyond (handedOn u c e) (e.packet (ctx u c).pkt) (e.verdict (ctx u c).pkt) hbeyond
    (by rw [packet_src, quiet, h2]) (by rw [packet_src, quiet, h3])
  rw [← endDispatch_slot u c e hslot] at leaves hsrc hflag
  rw [packet_src] at hsrc hflag
  rw [rdrSrc_handedOn] at hsrc
  have seen := leaves_seenConflict (endDispatch u c e) c
  refine ⟨ctx_seenConflict_ended ?_, ?_, ?_, ?_⟩
  · rw [leaves.eng_ctx (by decide), ctx_handedOn]
  · rw [seen.eng_rdrSrc (by simp [ctxFoot]), hsrc]
  · rw [seen.eng_rdrSrc (by simp [ctxFoot]), hsrc]
  · rw [seen.flagSet _ _ (off_ctx_rdrFlags c.k _ hk), hflag]

end Sys2Proof.Machine
end

section
/-! PROOF. O35: dispatches without a slot, and the release (R161, R242, R244). -/

namespace Sys2Proof.Machine

/-! ### A dispatch without a slot -/

/-- Nothing more happens to a packet without a buffer, unless it is punted. -/
theorem endDispatch_bufferless (u : State) (c : CtxId) (e : Ending) (he : e ≠ .punt) (hslot : (ctx u c).slot = false)
    (hh : (ctx u c).pkt.handle = none) : endDispatch u c e = dispatchOver u c e := by
  rw [endDispatch_noSlot u c e hslot, handedOn_bufferless u c e hh]
  cases e
  case done => exact if_pos hh
  case drop => rfl
  case punt => exact absurd rfl he

theorem endDispatch_alone (u : State) (c : CtxId) (e : Ending) (he : e ≠ .punt) (hslot : (ctx u c).slot = false)
    (hh : (ctx u c).pkt.handle = none) :
    ctx (seenConflict (endDispatch u c e) c) c = (ctx u c).ended ∧
    Only [.ctx, .wait, .regs, .cnt, .pmc] u (seenConflict (endDispatch u c e) c) := by
  rw [endDispatch_bufferless u c e he hslot hh]
  refine ⟨ctx_seenConflict_ended (ctx_setCtx_same _ _ _), ?_⟩
  exact ((leaves_dispatchOver u c e).only.mono (by simp [overFoot])).trans ((leaves_seenConflict _ c).only.mono (by simp [ctxFoot]))

/-- A frame without a buffer enters a ring that runs and has a descriptor for it. -/
theorem toRing_entered (s : State) (r : Nat) (f : HostFrame) (party : Nat) (hf : f.handle = none) (hst : (ring s r).state = 1)
    (hdir : (ring s r).dir = 1) (hroom : (ring s r).frames.length < (ring s r).posted) :
    toRing s r f party = setRing s r { ring s r with frames := (ring s r).frames ++ [f] } := by
  have passed : passHost s f party (tagRing r) = s := by rw [passHost, hf]
  refine (if_pos ⟨hst, hdir, hroom⟩).trans ?_
  rw [passed]

theorem puntFrame_one (s : State) (v r : Nat) (f : HostFrame) (party : Nat) (h : slicesRings s v = [r]) :
    puntFrame s v f party = toRing s r f party := by
  simp only [puntFrame, h]

theorem slicesRings_of_only {l : List Part} {s t : State} (h : Only l s t) (hr : Part.ring ∉ l) (ho : Part.own ∉ l) (v : Nat) :
    slicesRings t v = slicesRings s v := by
  have hring : t.link.ring = s.link.ring := h .ring hr
  have hown : t.own = s.own := h .own ho
  simp only [slicesRings, ringOwner, hring, hown]

theorem ring_of_only {l : List Part} {s t : State} (h : Only l s t) (hr : Part.ring ∉ l) (r : Nat) : ring t r = ring s r :=
  congrArg (tget Ring.init · r) (h .ring hr)

/-- A packet without a buffer, punted to the one ring of its slice. -/
theorem endDispatch_punted (u : State) (c : CtxId) (hslot : (ctx u c).slot = false) (hh : (ctx u c).pkt.handle = none) (r : Nat)
    (hrings : slicesRings u (toHostFrame (ctx u c).pkt).slice = [r]) (hst : (ring u r).state = 1) (hdir : (ring u r).dir = 1)
    (hroom : (ring u r).frames.length < (ring u r).posted) :
    ctx (seenConflict (endDispatch u c .punt) c) c = (ctx u c).ended ∧
    ring (seenConflict (endDispatch u c .punt) c) r = { ring u r with frames := (ring u r).frames ++ [toHostFrame (ctx u c).pkt] } ∧
    Only [.ctx, .wait, .ring, .regs, .cnt, .pmc] u (seenConflict (endDispatch u c .punt) c) := by
  have ended := leaves_dispatchOver u c .punt
  have same : ring (dispatchOver u c .punt) r = ring u r := ring_of_only ended.only (by simp [overFoot]) r
  have hend : endDispatch u c .punt = setRing (dispatchOver u c .punt) r
      { ring u r with frames := (ring u r).frames ++ [toHostFrame (ctx u c).pkt] } := by
    rw [endDispatch_noSlot u c .punt hslot, handedOn_bufferless u c .punt hh]
    refine (puntFrame_one _ _ r _ _ ((slicesRings_of_only ended.only (by simp [overFoot]) (by simp [overFoot]) _).trans hrings)).trans ?_
    rw [toRing_entered _ _ _ _ hh (by rw [same, hst]) (by rw [same, hdir]) (by rw [same]; exact hroom), same]
  have entered := leaves_setRing (dispatchOver u c .punt) r { ring u r with frames := (ring u r).frames ++ [toHostFrame (ctx u c).pkt] }
  have seen := leaves_seenConflict (endDispatch u c .punt) c
  refine ⟨ctx_seenConflict_ended ?_, ?_, ?_⟩
  · rw [hend, entered.eng_ctx (by decide), dispatchOver, ctx_setCtx_same]
  · rw [ring_of_only seen.only (by simp [ctxFoot]), hend, ring_setRing_same]
  · refine Only.trans ?_ (seen.only.mono (by simp [ctxFoot]))
    rw [hend]
    exact (ended.only.mono (by simp [overFoot])).trans (entered.only.mono (by simp))

/-! ### The release (R161) -/

/-- The counter of a verdict on its slice's page. -/
def Verdict.counter : Verdict → Nat
  | .forward _ => RDR_C_RELEASED
  | .punt _ => RDR_C_PUNTED
  | .drop _ => RDR_C_DROPPED
  | .skip _ => RDR_C_SKIPPED

theorem Verdict.counter_place (v : Verdict) : v.counter < 8 ∧ v.counter ≠ RDR_C_HELD := by
  unfold Verdict.counter
  split <;> decide

theorem off_pass_rdr : ∀ k < 16, ∀ i < 8, Off passFoot.spans (cntAddr (pgRDR k) i) := by decide

/-- A verdict is counted once, with its trace record and its packet sent on. -/
theorem releaseVerdict_counted (s : State) (k src seq : Nat) (v : Verdict) (hk : k < 16) :
    Only passFoot.parts s (releaseVerdict s (pgRDR k) src seq v) ∧
    cntAt (releaseVerdict s (pgRDR k) src seq v) (cntAddr (pgRDR k) v.counter) = min cntMax (cntAt s (cntAddr (pgRDR k) v.counter) + 1) := by
  have traced (t : State) (b point verdict : Nat) (m : Option (Nat × Nat × Nat)) (queue len arg : Nat) :
      Leaves passFoot t (trace t b point verdict m queue len arg) := (leaves_trace _ _ _ _ _ _ _ _).mono (by decide)
  have counted (t : State) (i : Nat) (hi : i < 8) (h : Leaves passFoot (bump s (pgRDR k) i 1) t) :
      Only passFoot.parts s t ∧ cntAt t (cntAddr (pgRDR k) i) = min cntMax (cntAt s (cntAddr (pgRDR k) i) + 1) := by
    refine ⟨((only_bump _ _ _ _).mono (by decide)).trans h.only, ?_⟩
    rw [h.cnt _ (off_pass_rdr k hk i hi), cntAt_bump_same]
  cases v with
  | forward p => exact counted _ _ (Verdict.counter_place _).1 ((traced _ _ _ _ _ _ _ _).trans (leaves_forward _ _ _))
  | punt p => exact counted _ _ (Verdict.counter_place _).1 ((traced _ _ _ _ _ _ _ _).trans (leaves_punt _ _ _))
  | drop m => exact counted _ _ (Verdict.counter_place _).1 (traced _ _ _ _ _ _ _ _)
  | skip m =>
    have t := traced (note s (pgRDR k) RDR_F_SKIP RDR_C_SKIPPED) (pgRDR k) 5 3 (m.map (fun i => (i, src, seq))) noQueue 0 0
    refine ⟨((only_flag _ _ _).mono (by decide)).trans (((only_bump _ _ _ _).mono (by decide)).trans t.only), ?_⟩
    exact (t.cnt _ (off_pass_rdr k hk _ (Verdict.counter_place _).1)).trans (by rw [note, Verdict.counter, cntAt_bump_same, cntAt_flag])

/-- The source as its next verdict is taken. -/
def RdrSrc.released (r : RdrSrc) (h : Held) : RdrSrc :=
  { r with held := r.held.erase h, next := (r.next + 1) % 65536, slots := r.slots - 1 }

/-- The turn passes, and the slot is free. -/
def slotTaken (s : State) (src : Nat) (h : Held) : State :=
  setRdrSrc { s with eng := { s.eng with rdrPick := tset dzero s.eng.rdrPick (src % 16) (src + 1) } } src ((rdrSrc s src).released h)

theorem leaves_slotTaken (s : State) (src : Nat) (h : Held) : Leaves ⟨[.rdr, .rdrPick], []⟩ s (slotTaken s src h) := by
  refine .of_only (fun p hp => ?_) (by decide) (by decide)
  cases p
  case rdr | rdrPick => simp at hp
  all_goals rfl

theorem off_held_counter : ∀ k < 16, ∀ i < 8, i ≠ RDR_C_HELD →
    Off [pmcSpan, wordSpan (cntAddr (pgRDR k) RDR_C_HELD)] (cntAddr (pgRDR k) i) := by decide

theorem off_slot_counter : ∀ k < 16, ∀ i < 8, Off slotFoot.spans (cntAddr (pgRDR k) i) := by decide

/-- The slot taken, counted where it waited. -/
def heldCounted (s : State) (src : Nat) (h : Held) : State :=
  if h.waited then bump (slotTaken s src h) (pgRDR (src % 16)) RDR_C_HELD 1 else slotTaken s src h

theorem reorderRelease_due (s : State) (src : Fin 17440) (h : Held) (r : RdrSrc) (hr : r = rdrSrc s src)
    (hready : r.held.find? (fun g => g.seq == r.next) = some h) (hturn : rdrTurn s (src.val % 16) = some src.val) :
    Completes (.reorderRelease src) s (fun t =>
      rdrSrc t src = { r with held := r.held.erase h, next := (r.next + 1) % 65536, slots := r.slots - 1 } ∧
      TblOnly RdrSrc.init src s.eng.rdr t.eng.rdr ∧
      cntAt t (cntAddr (pgRDR (src.val % 16)) h.verdict.counter) = min cntMax (cntAt s (cntAddr (pgRDR (src.val % 16)) h.verdict.counter) + 1) ∧
      tget dzero t.eng.rdrPick (src.val % 16) = src.val + 1 ∧
      Only [.rdr, .rdrPick, .regs, .cnt, .pmc, .trace, .buf, .queue, .node, .freeCtr, .wait, .ring] s t) := by
  subst hr
  have hk : src.val % 16 < 16 := Nat.mod_lt _ (by decide)
  have hrun : exec (.reorderRelease src) s =
      .next (showSlots (releaseVerdict (heldCounted s src h) (pgRDR (src.val % 16)) src h.seq h.verdict) (src.val % 16)) := by
    show execReorderRelease src s = _
    simp only [execReorderRelease, hturn, if_true, RdrSrc.ready, hready]
    rfl
  have taken := leaves_slotTaken s src h
  have counted : Leaves ⟨[.regs, .cnt, .pmc], [pmcSpan, wordSpan (cntAddr (pgRDR (src.val % 16)) RDR_C_HELD)]⟩ (slotTaken s src h) (heldCounted s src h) :=
    .ite (fun _ => leaves_bump _ _ _ _) (fun _ => .refl _ _)
  obtain ⟨honly, hcnt⟩ := releaseVerdict_counted (heldCounted s src h) (src.val % 16) src h.seq h.verdict hk
  have shown := leaves_showSlots (releaseVerdict (heldCounted s src h) (pgRDR (src.val % 16)) src h.seq h.verdict) (src.val % 16) hk
  have after : Only (.regs :: passFoot.parts) (slotTaken s src h)
      (showSlots (releaseVerdict (heldCounted s src h) (pgRDR (src.val % 16)) src h.seq h.verdict) (src.val % 16)) :=
    ((counted.only.mono (by simp [passFoot])).trans (honly.mono (by decide))).trans (shown.only.mono (by decide))
  have hrdr := after .rdr (by decide)
  refine ⟨_, hrun, ?_, ?_, ?_, ?_, ?_⟩
  · exact (congrArg (tget RdrSrc.init · src.val) hrdr).trans (rdrSrc_setRdrSrc_same _ _ _)
  · intro j hj
    exact (congrArg (tget RdrSrc.init · j) hrdr).trans (tblOnly_setRdrSrc _ _ _ j hj)
  · obtain ⟨hlt, hne⟩ := h.verdict.counter_place
    rw [counted.cnt _ (off_held_counter _ hk _ hlt hne), taken.cnt _ (by simp)] at hcnt
    exact (shown.cnt _ (off_slot_counter _ hk _ hlt)).trans hcnt
  · refine (congrArg (tget dzero · (src.val % 16)) (after .rdrPick (by decide))).trans ?_
    exact tget_tset_same dzero s.eng.rdrPick (src.val % 16) (src.val + 1)
  · exact (taken.only.mono (by decide)).trans (after.mono (by decide))

theorem reorderRelease_none (s : State) (src : Fin 17440)
    (h : (rdrSrc s src).held.find? (fun g => g.seq == (rdrSrc s src).next) = none ∨ rdrTurn s (src.val % 16) ≠ some src.val) :
    Completes (.reorderRelease src) s (fun t => t = s) := by
  have hnone : (if rdrTurn s (src.val % 16) = some src.val then (rdrSrc s src).ready else none) = none := by
    rcases h with hready | hturn
    · simp [RdrSrc.ready, hready]
    · exact if_neg hturn
  refine ⟨s, ?_, rfl⟩
  show execReorderRelease src s = _
  simp only [execReorderRelease, hnone]

/-! ### The statement -/

theorem buf_of_table {s t : State} (h : t.tm.buf = s.tm.buf) (b : Nat) : buf t b = buf s b := congrArg (tget Buf.init · b) h

theorem holders_of_buf {s t : State} {b : Nat} {l : List Nat} (h : t.tm.buf = s.tm.buf) (hl : (buf s b).holders = l) : (buf t b).holders = l := by
  rw [buf_of_table h, hl]

/-- Settles O35: every ending is one of four cases of the end of a dispatch, with and without a slot; the release takes the slot and
counts its verdict. -/
theorem endOfADispatch : Obligations.EndOfADispatch := by
  unfold Obligations.EndOfADispatch
  refine ⟨?_, ?_, ?_, ?_, ?_, ?_, ?_, ?_, ?_, reorderRelease_due, reorderRelease_none⟩
  · rintro s c _ _ _ _ _ hdue rfl rfl rfl hslot rfl rfl hseq
    obtain ⟨hctx, ⟨hheld, hslots, hnext, hother⟩, hcnt, hbuf, honly⟩ := (endDispatch_ahead _ c .done hslot hseq).seen
    exact completes_seqStep rfl (by decide) hdue ⟨hctx, hheld, hslots, hnext, hcnt, hother,
      fun h hh hc => holders_of_buf hbuf (holders_handedOn _ c .done (by decide) hh hc), honly⟩
  · rintro s c _ _ _ _ _ hdue rfl rfl rfl hslot rfl rfl hseq
    obtain ⟨hctx, ⟨hheld, hslots, hnext, hother⟩, hcnt, hbuf, honly⟩ := (endDispatch_ahead _ c .drop hslot hseq).seen
    exact completes_seqStep rfl (by decide) hdue ⟨hctx, hheld, hslots, hnext, hcnt, hother,
      fun h hh hc => (buf_of_table hbuf h).trans (buf_handedOn_drop _ c hh hc), honly⟩
  · rintro s c _ _ _ _ _ hdue rfl rfl rfl hslot rfl rfl hseq
    obtain ⟨hctx, ⟨hheld, hslots, hnext, hother⟩, hcnt, hbuf, honly⟩ := (endDispatch_ahead _ c .punt hslot hseq).seen
    exact completes_seqStep rfl (by decide) hdue ⟨hctx, hheld, hslots, hnext, hcnt, hother,
      fun h hh hc => holders_of_buf hbuf (holders_handedOn _ c .punt (by decide) hh hc), honly⟩
  · rintro s _ c _ _ _ _ _ rfl hdue rfl rfl rfl hslot rfl rfl hseq h2 h3
    exact completes_seqStep rfl (by decide) hdue (endDispatch_beyond _ c .done hslot hseq h2 h3)
  · rintro s _ c _ _ _ _ _ rfl hdue rfl rfl rfl hslot rfl rfl hseq h2 h3
    exact completes_seqStep rfl (by decide) hdue (endDispatch_beyond _ c .drop hslot hseq h2 h3)
  · rintro s _ c _ _ _ _ _ rfl hdue rfl rfl rfl hslot rfl rfl hseq h2 h3
    exact completes_seqStep rfl (by decide) hdue (endDispatch_beyond _ c .punt hslot hseq h2 h3)
  · rintro s c _ _ _ hdue rfl rfl rfl hslot hh
    exact completes_seqStep rfl (by decide) hdue (endDispatch_alone _ c .done (by decide) hslot hh)
  · rintro s c _ _ _ hdue rfl rfl rfl hslot hh
    exact completes_seqStep rfl (by decide) hdue (endDispatch_alone _ c .drop (by decide) hslot hh)
  · rintro s c _ _ _ _ hdue rfl rfl rfl hslot hh rfl hrings hst hdir hroom
    exact completes_seqStep rfl (by decide) hdue (endDispatch_punted _ c hslot hh 3 hrings hst hdir hroom)

end Sys2Proof.Machine
end

section
/-! PROOF. O36: landing (R12, R160, R174, R201, R203). -/

namespace Sys2Proof.Machine

/-! ### The frame that an earlier stage handed over (R12) -/

/-- What taking an arrival touches. -/
def arrivalFoot : Foot := ⟨[.upSdu, .rx, .h2d, .eth, .regs, .cnt, .pmc], [pmcSpan, (pgETH 0, pgETH 24)]⟩

theorem only_eth (s : State) (l : Tbl EthSt) : Only [.eth] s { s with link := { s.link with eth := l } } := by
  intro p hp
  cases p
  case eth => simp at hp
  all_goals rfl

theorem leaves_setEth (s : State) (q : Nat) (x : EthSt) : Leaves arrivalFoot s (setEth s q x) :=
  (Leaves.of_only (only_eth s _) (by decide) (by decide)).mono (by decide)

theorem ethStatus_within : ∀ q < 24, Foot.Within ⟨[.regs], [wordSpan (pgETH q + ETH_STATUS.off)]⟩ arrivalFoot := by decide
theorem txXoff_within : ∀ q < 24, Foot.Within ⟨[.regs, .cnt, .pmc], [pmcSpan, wordSpan (cntAddr (pgETH q) ETH_C_TX_XOFF)]⟩ arrivalFoot := by decide

theorem leaves_checkFlow (s : State) (q : Nat) (hq : q < 24) : Leaves arrivalFoot s (checkFlow s q) := by
  have status (t : State) (bit : Nat) (b : Bool) : Leaves arrivalFoot t (setEthStatus t q bit b) :=
    (leaves_setFld t (pgETH q) ⟨ETH_STATUS.off, bit, 1, 0⟩ b.toNat).mono (ethStatus_within q hq)
  unfold checkFlow
  refine .ite (fun _ => ?_) (fun _ => .ite (fun _ => ?_) (fun _ => .refl _ s))
  · exact ((leaves_setEth s q _).trans (status _ _ _)).andThen (leaves_bump _ _ _ _) (txXoff_within q hq)
  · exact (leaves_setEth s q _).trans (status _ _ _)

theorem leaves_rx (s : State) (l : List RxFrame) : Leaves arrivalFoot s { s with link := { s.link with rx := l } } := by
  refine (Leaves.of_only (l := [.rx]) (fun p hp => ?_) (by decide) (by decide)).mono (by decide)
  cases p
  case rx => simp at hp
  all_goals rfl

theorem leaves_h2d (s : State) (l : List H2dFrame) : Leaves arrivalFoot s { s with link := { s.link with h2d := l } } := by
  refine (Leaves.of_only (l := [.h2d]) (fun p hp => ?_) (by decide) (by decide)).mono (by decide)
  cases p
  case h2d => simp at hp
  all_goals rfl

theorem leaves_upSdu (s : State) (l : List UpSdu) : Leaves arrivalFoot s { s with pon := { s.pon with upSdu := l } } := by
  refine (Leaves.of_only (l := [.upSdu]) (fun p hp => ?_) (by decide) (by decide)).mono (by decide)
  cases p
  case upSdu => simp at hp
  all_goals rfl

theorem src_of_downstream {src : Nat} (h : srcDir src = some .downstream) : src < 16408 := by
  unfold srcDir at h
  split at h
  · cases h
  · split at h
    · assumption
    · split at h <;> cases h

theorem leaves_takeArrival (s : State) (src len : Nat) (bytes : List Byte) : Leaves arrivalFoot s (takeArrival s src len bytes).1 := by
  unfold takeArrival
  split
  · split
    · exact leaves_upSdu s _
    · exact .refl _ s
  · rename_i hsrc
    split
    · rename_i f hf
      have hport := List.find?_some hf
      simp only [Bool.and_eq_true, beq_iff_eq] at hport
      have := src_of_downstream hsrc
      exact (leaves_rx s _).trans (leaves_checkFlow _ _ (by omega))
    · exact .refl _ s
  · split
    · exact leaves_h2d s _
    · exact .refl _ s

/-! ### Landing (R160, R171, R174) -/

theorem only_countParse (s : State) (r : Parse) : Only [.regs, .cnt, .pmc] s (countParse s r) := by
  have counted (t u : State) (h : Only [.regs, .cnt, .pmc] t u) (yes : Bool) (i : Nat) :
      Only [.regs, .cnt, .pmc] t (if yes then bump u pgPRS i 1 else u) := by
    split
    · exact h.trans (only_bump u _ _ _)
    · exact h
  have found := counted _ _ (counted _ _ (counted _ _ (counted _ _ (only_bump s pgPRS PRS_C_PARSED 1) r.v4 PRS_C_IPV4) r.v6 PRS_C_IPV6)
    r.pppoe PRS_C_PPPOE) (r.tags.length == 3) PRS_C_TAG_DEPTH_3
  unfold countParse
  dsimp only
  split
  · exact (found.trans ((only_flag _ _ _).mono (by decide))).trans (only_bump _ _ _ _)
  · exact found

theorem only_marks (s : State) (i v : Nat) : Only [.marks] s { s with tst := { s.tst with markId := i, lfsr := v } } := by
  intro p hp
  cases p
  case marks => simp at hp
  all_goals rfl

theorem only_drawMark (s : State) : Only [.freeCtr, .marks, .regs, .cnt, .pmc] s (drawMark s).1 := by
  have drawn (v : Nat) : Only [.freeCtr, .marks, .regs, .cnt, .pmc] s (drawFree { s with tst := { s.tst with lfsr := v } }) :=
    ((only_marks s s.tst.markId v).mono (by decide)).trans ((leaves_drawFree _).only.mono (by decide))
  unfold drawMark
  dsimp only
  split
  · split
    · exact ((drawn _).trans ((only_marks _ _ _).mono (by decide))).trans ((only_bump _ _ _ _).mono (by decide))
    · exact drawn _
  · exact Only.refl _ s

/-- The landed frame as a packet, with its mark. -/
def landedAs (s : State) (src : Nat) (d : Dir) (len : Nat) (bytes : List Byte) (h : Nat) (a : Arrival) (mark : Option Nat) : Packet :=
  let r := parse bytes len (fld s pgPRS PRS_TPID_C1) (fld s pgPRS PRS_TPID_C2)
  { Packet.none with
    src := src, seq := (rdrSrc s src).seq, dir := d, slice := packetSlice s src r, len := len, bytes := bytes, handle := some h,
    record := r.record (packetSlice s src r), key := r.legendKey d src, mark := mark, meta_ := a.meta_, at_ := a.at_ }

/-- The number of the source is taken. -/
def numbered (s : State) (src len : Nat) (bytes : List Byte) : State :=
  setRdrSrc (countParse s (parse bytes len (fld s pgPRS PRS_TPID_C1) (fld s pgPRS PRS_TPID_C2))) src
    { rdrSrc s src with seq := ((rdrSrc s src).seq + 1) % 65536 }

/-- The newest packet of the landing queue. -/
def queued (s : State) (p : Packet) : State := { s with eng := { s.eng with landing := s.eng.landing ++ [p] } }

theorem only_queued (s : State) (p : Packet) : Only [.landing] s (queued s p) := by
  intro p hp
  cases p
  case landing => simp at hp
  all_goals rfl

theorem land_eq (s : State) (src : Nat) (d : Dir) (len : Nat) (bytes : List Byte) (h : Nat) (a : Arrival) :
    land s src d len bytes h a =
      trace (queued (drawMark (numbered s src len bytes)).1 (landedAs s src d len bytes h a (drawMark (numbered s src len bytes)).2)) pgPRS 1 0
        (landedAs s src d len bytes h a (drawMark (numbered s src len bytes)).2).tag noQueue len 0 := rfl

/-- What a landing leaves: the packet is the newest, its number is taken. -/
structure Landed (s t : State) (src : Nat) (d : Dir) (len : Nat) (bytes : List Byte) (h : Nat) : Prop where
  numbers : t.eng.landing.map (fun p => (p.src, p.seq, p.dir)) = s.eng.landing.map (fun p => (p.src, p.seq, p.dir)) ++ [(src, (rdrSrc s src).seq, d)]
  frames : t.eng.landing.map (fun p => (p.len, p.bytes, p.handle)) = s.eng.landing.map (fun p => (p.len, p.bytes, p.handle)) ++ [(len, bytes, some h)]
  source : rdrSrc t src = { rdrSrc s src with seq := ((rdrSrc s src).seq + 1) % 65536 }
  others : TblOnly RdrSrc.init src s.eng.rdr t.eng.rdr
  only : Only [.landing, .rdr, .freeCtr, .regs, .cnt, .pmc, .trace, .marks] s t

theorem landed_land (s : State) (src : Nat) (d : Dir) (len : Nat) (bytes : List Byte) (h : Nat) (a : Arrival) :
    Landed s (land s src d len bytes h a) src d len bytes h := by
  have counted := only_countParse s (parse bytes len (fld s pgPRS PRS_TPID_C1) (fld s pgPRS PRS_TPID_C2))
  have taken := leaves_setRdrSrc (countParse s (parse bytes len (fld s pgPRS PRS_TPID_C1) (fld s pgPRS PRS_TPID_C2))) src
    { rdrSrc s src with seq := ((rdrSrc s src).seq + 1) % 65536 }
  have numbered_only : Only [.rdr, .regs, .cnt, .pmc] s (numbered s src len bytes) := (counted.mono (by decide)).trans (taken.only.mono (by decide))
  have marked := only_drawMark (numbered s src len bytes)
  rw [land_eq]
  generalize hmark : (drawMark (numbered s src len bytes)).2 = mark
  have traced := leaves_trace (queued (drawMark (numbered s src len bytes)).1 (landedAs s src d len bytes h a mark)) pgPRS 1 0
    (landedAs s src d len bytes h a mark).tag noQueue len 0
  have after : Only [.landing, .freeCtr, .marks, .regs, .cnt, .pmc, .trace] (numbered s src len bytes) _ :=
    ((marked.mono (by decide)).trans ((only_queued _ _).mono (by decide))).trans (traced.only.mono (by decide))
  have hland := traced.only .landing (by decide)
  have hold : (drawMark (numbered s src len bytes)).1.eng.landing = s.eng.landing :=
    (marked .landing (by decide)).trans (numbered_only .landing (by decide))
  have hqueue : (trace (queued (drawMark (numbered s src len bytes)).1 (landedAs s src d len bytes h a mark)) pgPRS 1 0
      (landedAs s src d len bytes h a mark).tag noQueue len 0).eng.landing = s.eng.landing ++ [landedAs s src d len bytes h a mark] :=
    hland.trans (by rw [queued, hold])
  refine ⟨?_, ?_, ?_, ?_, (numbered_only.mono (by decide)).trans (after.mono (by decide))⟩
  · rw [hqueue, List.map_append]
    rfl
  · rw [hqueue, List.map_append]
    rfl
  · exact (congrArg (tget RdrSrc.init · src) (after .rdr (by decide))).trans (rdrSrc_setRdrSrc_same _ _ _)
  · intro j hj
    refine (congrArg (tget RdrSrc.init · j) (after .rdr (by decide))).trans ((tblOnly_setRdrSrc _ _ _ j hj).trans ?_)
    exact congrArg (tget RdrSrc.init · j) (counted .rdr (by decide))

/-- A landing between steps that touch neither the queue nor the sources. -/
theorem Landed.between {s s1 u t : State} {src len h : Nat} {d : Dir} {bytes : List Byte} {l m : List Part} (hu : Landed s1 u src d len bytes h)
    (h1 : Only l s s1) (h2 : Only m u t) (hl : Part.landing ∉ l ∧ Part.rdr ∉ l) (hm : Part.landing ∉ m ∧ Part.rdr ∉ m) :
    t.eng.landing.map (fun p => (p.src, p.seq, p.dir)) = s.eng.landing.map (fun p => (p.src, p.seq, p.dir)) ++ [(src, (rdrSrc s src).seq, d)] ∧
    t.eng.landing.map (fun p => (p.len, p.bytes, p.handle)) = s.eng.landing.map (fun p => (p.len, p.bytes, p.handle)) ++ [(len, bytes, some h)] ∧
    rdrSrc t src = { rdrSrc s src with seq := ((rdrSrc s src).seq + 1) % 65536 } ∧
    TblOnly RdrSrc.init src s.eng.rdr t.eng.rdr := by
  have hland1 : s1.eng.landing = s.eng.landing := h1 .landing hl.1
  have hrdr1 : s1.eng.rdr = s.eng.rdr := h1 .rdr hl.2
  have hsrc1 : rdrSrc s1 src = rdrSrc s src := congrArg (tget RdrSrc.init · src) hrdr1
  have hland2 : t.eng.landing = u.eng.landing := h2 .landing hm.1
  have hrdr2 : t.eng.rdr = u.eng.rdr := h2 .rdr hm.2
  obtain ⟨hnum, hframe, hsource, hother, -⟩ := hu
  rw [hland1, hsrc1] at hnum
  rw [hland1] at hframe
  rw [hsrc1] at hsource
  rw [hrdr1] at hother
  rw [hland2, hrdr2]
  exact ⟨hnum, hframe, (congrArg (tget RdrSrc.init · src) hrdr2).trans hsource, hother⟩

/-! ### PACKET_LANDING (R12, R201, R203) -/

theorem packetLanding_otherDir (s : State) (src : Fin 17440) (d : Dir) (len : Nat) (bytes : List Byte) (h : srcDir src ≠ some d) :
    Completes (.packetLanding src d len bytes) s (fun t => t = s) := ⟨s, if_pos h, rfl⟩

theorem packetLanding_quarantined (s : State) (src : Fin 17440) (d : Dir) (len : Nat) (bytes : List Byte) (h : Nat)
    (hd : srcDir src = some d) (hh : (takeArrival s src len bytes).2.handle = some h) :
    Completes (.packetLanding src d len bytes) s (fun t =>
      t.eng.landing.map (fun p => (p.src, p.seq, p.dir)) = s.eng.landing.map (fun p => (p.src, p.seq, p.dir)) ++ [(src.val, (rdrSrc s src).seq, d)] ∧
      t.eng.landing.map (fun p => (p.len, p.bytes, p.handle)) = s.eng.landing.map (fun p => (p.len, p.bytes, p.handle)) ++ [(len, bytes, some h)] ∧
      rdrSrc t src = { rdrSrc s src with seq := ((rdrSrc s src).seq + 1) % 65536 } ∧
      TblOnly RdrSrc.init src s.eng.rdr t.eng.rdr ∧
      Only [.landing, .rdr, .buf, .freeCtr, .regs, .cnt, .pmc, .trace, .marks, .upSdu, .rx, .h2d, .eth] s t) := by
  generalize hs1 : passBuf (takeArrival s src len bytes).1 h tagQuarantine (tagLanding (landingReq d)) = s1
  have hrun : exec (.packetLanding src d len bytes) s =
      .next (settlePools s (land s1 src d len bytes h (takeArrival s src len bytes).2)) := by
    show execPacketLanding src d len bytes s = _
    simp only [execPacketLanding, ne_eq, hd, not_true_eq_false, if_false, hh, hs1]
  have before : Only [.buf, .upSdu, .rx, .h2d, .eth, .regs, .cnt, .pmc] s s1 := by
    rw [← hs1]
    exact ((leaves_takeArrival s src len bytes).only.mono (by decide)).trans ((leaves_passBuf _ _ _ _).only.mono (by decide))
  have landing := landed_land s1 src d len bytes h (takeArrival s src len bytes).2
  have settled := (leaves_settlePools s (land s1 src d len bytes h (takeArrival s src len bytes).2)).only
  obtain ⟨hnum, hframe, hsource, hother⟩ := landing.between before settled (by decide) (by decide)
  exact ⟨_, hrun, hnum, hframe, hsource, hother,
    ((before.mono (by decide)).trans (landing.only.mono (by decide))).trans (settled.mono (by decide))⟩

theorem packetLanding_allocated (s : State) (src : Fin 17440) (d : Dir) (len : Nat) (bytes : List Byte) (h : Nat) (v : State)
    (hd : srcDir src = some d) (hh : (takeArrival s src len bytes).2.handle = none)
    (hask : askBytes (takeArrival s src len bytes).1 (landingReq d) (tagLanding (landingReq d)) 0 len = some (h, v)) :
    Completes (.packetLanding src d len bytes) s (fun t =>
      t.eng.landing.map (fun p => (p.src, p.seq, p.dir)) = s.eng.landing.map (fun p => (p.src, p.seq, p.dir)) ++ [(src.val, (rdrSrc s src).seq, d)] ∧
      t.eng.landing.map (fun p => (p.len, p.bytes, p.handle)) = s.eng.landing.map (fun p => (p.len, p.bytes, p.handle)) ++ [(len, bytes, some h)] ∧
      rdrSrc t src = { rdrSrc s src with seq := ((rdrSrc s src).seq + 1) % 65536 } ∧
      TblOnly RdrSrc.init src s.eng.rdr t.eng.rdr ∧
      Only [.landing, .rdr, .buf, .freeCtr, .regs, .cnt, .pmc, .trace, .marks, .upSdu, .rx, .h2d, .eth] s t ∧
      t.tm.buf = v.tm.buf) := by
  have hrun : exec (.packetLanding src d len bytes) s =
      .next (settlePools s (land v src d len bytes h (takeArrival s src len bytes).2)) := by
    show execPacketLanding src d len bytes s = _
    simp only [execPacketLanding, ne_eq, hd, not_true_eq_false, if_false, hh, hask]
  have before : Only [.buf, .freeCtr, .upSdu, .rx, .h2d, .eth, .regs, .cnt, .pmc] s v :=
    ((leaves_takeArrival s src len bytes).only.mono (by decide)).trans ((leaves_askBytes hask).only.mono (by decide))
  have landing := landed_land v src d len bytes h (takeArrival s src len bytes).2
  have settled := (leaves_settlePools s (land v src d len bytes h (takeArrival s src len bytes).2)).only
  obtain ⟨hnum, hframe, hsource, hother⟩ := landing.between before settled (by decide) (by decide)
  exact ⟨_, hrun, hnum, hframe, hsource, hother,
    ((before.mono (by decide)).trans (landing.only.mono (by decide))).trans (settled.mono (by decide)),
    (settled .buf (by decide)).trans (landing.only .buf (by decide))⟩

/-- A frame that finds no buffer waits, or is refused. -/
theorem exec_packetLanding_unbuffered (s : State) (src : Fin 17440) (d : Dir) (len : Nat) (bytes : List Byte) (w : State × Bool)
    (hd : srcDir src = some d) (hh : (takeArrival s src len bytes).2.handle = none)
    (hask : askBytes (takeArrival s src len bytes).1 (landingReq d) (tagLanding (landingReq d)) 0 len = none)
    (hw : waitOrRefuse (takeArrival s src len bytes).1 ⟨landingReq d, len, .landing src len bytes (takeArrival s src len bytes).2.at_
      (takeArrival s src len bytes).2.meta_⟩ = w) :
    exec (.packetLanding src d len bytes) s = .next (publishPools (if w.2 then w.1 else landingDrop w.1 src)) := by
  show execPacketLanding src d len bytes s = _
  simp only [execPacketLanding, ne_eq, hd, not_true_eq_false, if_false, hh, hask, hw]

theorem off_arrival_wait : ∀ d, Off arrivalFoot.spans (pgBPM + (BPM_WAIT.at (landingReq d)).off) := by
  intro d
  cases d <;> decide

theorem isSet_takeArrival (s : State) (src len : Nat) (bytes : List Byte) (d : Dir) :
    isSet (takeArrival s src len bytes).1 pgBPM (BPM_WAIT.at (landingReq d)) = isSet s pgBPM (BPM_WAIT.at (landingReq d)) :=
  (leaves_takeArrival s src len bytes).isSet _ _ (off_arrival_wait d)

theorem leaves_landingDrop (s : State) (src : Nat) : Leaves ⟨[.regs, .cnt, .pmc], [pmcSpan, (pgETH 0, pgETH 24)]⟩ s (landingDrop s src) := by
  have dropFoot : ∀ q < 24, Foot.Within ⟨[.regs, .cnt, .pmc], [pmcSpan, wordSpan (pgETH q + ETH_F_FIFO_DROP.off),
      wordSpan (pgETH q + ETH_F_FIFO_DROP.cntOff), wordSpan (cntAddr (pgETH q) ETH_C_RX_FIFO_DROP)]⟩
      ⟨[.regs, .cnt, .pmc], [pmcSpan, (pgETH 0, pgETH 24)]⟩ := by decide
  unfold landingDrop
  split
  · rename_i h
    simp only [Bool.and_eq_true, decide_eq_true_eq] at h
    exact (leaves_note _ _ _ _).mono (dropFoot _ (by omega))
  · exact .refl _ s

theorem packetLanding_refused (s : State) (src : Fin 17440) (d : Dir) (len : Nat) (bytes : List Byte)
    (hd : srcDir src = some d) (hh : (takeArrival s src len bytes).2.handle = none)
    (hask : askBytes (takeArrival s src len bytes).1 (landingReq d) (tagLanding (landingReq d)) 0 len = none)
    (hwait : isSet s pgBPM (BPM_WAIT.at (landingReq d)) = false) :
    Completes (.packetLanding src d len bytes) s (fun t =>
      t.eng.landing = s.eng.landing ∧
      t.eng.rdr = s.eng.rdr ∧
      flagSet t pgBPM BPM_F_REFUSED = true) := by
  have arrived := leaves_takeArrival s src len bytes
  generalize hu : (takeArrival s src len bytes).1 = u at arrived hask
  have hset : isSet u pgBPM (BPM_WAIT.at (landingReq d)) = false := by rw [← hu, isSet_takeArrival, hwait]
  have hw : waitOrRefuse u ⟨landingReq d, len, .landing src len bytes (takeArrival s src len bytes).2.at_ (takeArrival s src len bytes).2.meta_⟩ =
      (note u pgBPM BPM_F_REFUSED BPM_C_REFUSED, false) := by
    simp [waitOrRefuse, hset]
  have hrun := exec_packetLanding_unbuffered s src d len bytes _ hd hh (by rw [hu, hask]) (by rw [hu, hw])
  have noted := leaves_note u pgBPM BPM_F_REFUSED BPM_C_REFUSED
  have dropped := leaves_landingDrop (note u pgBPM BPM_F_REFUSED BPM_C_REFUSED) src
  have published := leaves_publishPools (landingDrop (note u pgBPM BPM_F_REFUSED BPM_C_REFUSED) src)
  have all : Only [.upSdu, .rx, .h2d, .eth, .regs, .cnt, .pmc] s (publishPools (landingDrop (note u pgBPM BPM_F_REFUSED BPM_C_REFUSED) src)) :=
    ((arrived.only.mono (by decide)).trans (noted.only.mono (by decide))).trans
      ((dropped.only.mono (by decide)).trans (published.only.mono (by decide)))
  refine ⟨_, hrun, all .landing (by decide), all .rdr (by decide), ?_⟩
  show flagSet (publishPools (landingDrop (note u pgBPM BPM_F_REFUSED BPM_C_REFUSED) src)) pgBPM BPM_F_REFUSED = true
  rw [published.flagSet _ _ (by decide), dropped.flagSet _ _ (by decide), note, (leaves_bump _ _ _ _).flagSet _ _ (by decide)]
  exact flagSet_flag _ _ _ (by decide) (by decide) (by decide)

theorem packetLanding_waits (s : State) (src : Fin 17440) (d : Dir) (len : Nat) (bytes : List Byte) (p : Nat)
    (hd : srcDir src = some d) (hh : (takeArrival s src len bytes).2.handle = none)
    (hask : askBytes (takeArrival s src len bytes).1 (landingReq d) (tagLanding (landingReq d)) 0 len = none)
    (hwait : isSet s pgBPM (BPM_WAIT.at (landingReq d)) = true) (hp : p = poolFor (landingReq d) len) (hroom : (waitQ s p).length < waitMax) :
    Completes (.packetLanding src d len bytes) s (fun t =>
      t.eng.landing = s.eng.landing ∧
      t.eng.rdr = s.eng.rdr ∧
      waitQ t p = waitQ s p ++ [⟨landingReq d, len, .landing src len bytes (takeArrival s src len bytes).2.at_ (takeArrival s src len bytes).2.meta_⟩] ∧
      TblOnly dnil p s.tm.wait t.tm.wait ∧
      cntAt t (cntAddr pgBPM BPM_C_WAITS) = min cntMax (cntAt s (cntAddr pgBPM BPM_C_WAITS) + 1)) := by
  subst hp
  have arrived := leaves_takeArrival s src len bytes
  generalize hw : (⟨landingReq d, len, .landing src len bytes (takeArrival s src len bytes).2.at_ (takeArrival s src len bytes).2.meta_⟩ : WaitReq) = w
  generalize hu : (takeArrival s src len bytes).1 = u at arrived hask
  generalize hq : poolFor (landingReq d) len = q at hroom ⊢
  have hset : isSet u pgBPM (BPM_WAIT.at (landingReq d)) = true := by rw [← hu, isSet_takeArrival, hwait]
  have htable : u.tm.wait = s.tm.wait := arrived.only .wait (by decide)
  have hqueue : waitQ u q = waitQ s q := congrArg (tget dnil · q) htable
  have hwaits : waitOrRefuse u w = (bump (setWaitQ u q (waitQ u q ++ [w])) pgBPM BPM_C_WAITS 1, true) := by
    have hreq : w.req = landingReq d ∧ w.bytes = len := by rw [← hw]; exact ⟨rfl, rfl⟩
    have hroom' : ¬ waitMax ≤ (waitQ u q).length := by rw [hqueue]; omega
    simp [waitOrRefuse, hreq, hset, hq, hroom']
  have hrun := exec_packetLanding_unbuffered s src d len bytes _ hd hh (by rw [hu, hask]) (by rw [hu, hw, hwaits])
  have set := leaves_setWaitQ u q (waitQ u q ++ [w])
  have counted := leaves_bump (setWaitQ u q (waitQ u q ++ [w])) pgBPM BPM_C_WAITS 1
  have published := leaves_publishPools (bump (setWaitQ u q (waitQ u q ++ [w])) pgBPM BPM_C_WAITS 1)
  have all : Only [.wait, .upSdu, .rx, .h2d, .eth, .regs, .cnt, .pmc] s _ :=
    ((arrived.only.mono (by decide)).trans (set.only.mono (by decide))).trans ((counted.only.mono (by decide)).trans (published.only.mono (by decide)))
  have hafter : (publishPools (bump (setWaitQ u q (waitQ u q ++ [w])) pgBPM BPM_C_WAITS 1)).tm.wait = tset dnil s.tm.wait q (waitQ s q ++ [w]) := by
    refine (published.only .wait (by decide)).trans ((counted.only .wait (by decide)).trans ?_)
    rw [setWaitQ, htable, hqueue]
  refine ⟨_, hrun, all .landing (by decide), all .rdr (by decide), ?_, ?_, ?_⟩
  · exact (congrArg (tget dnil · q) hafter).trans (tget_tset_same dnil s.tm.wait q _)
  · intro j hj
    exact (congrArg (tget dnil · j) hafter).trans (tget_tset_other _ _ _ _ _ hj)
  · refine (published.cnt _ (by decide)).trans ((cntAt_bump_same _ _ _ _).trans ?_)
    rw [set.cnt _ (by simp), arrived.cnt _ (by decide)]

end Sys2Proof.Machine
end

section
/-! PROOF. O36: dispatch (R12, R159, R161, R164, R173). -/

namespace Sys2Proof.Machine

/-! ### The packet handed to its context (R148, R159, R171) -/

/-- A context that holds a packet. -/
def Ctx.holding (x : Ctx) (p : Packet) : Ctx :=
  { x with
    lr := tset dzero (tset dzero x.lr 30 (p.record / 2 ^ 32)) 31 (p.record % 2 ^ 32), hw := hwOf p.bytes,
    gp := if p.dir = .host then tset dzero x.gp 0 p.meta_ else x.gp, slot := true, pkt := p }

/-- A slot of the packet's source is held, and its buffer is the context's. -/
def slotHeld (s : State) (c : CtxId) (p : Packet) : State :=
  let s1 := showSlots (setRdrSrc s p.src { rdrSrc s p.src with slots := (rdrSrc s p.src).slots + 1 }) (p.src % 16)
  match p.handle with
  | some h => passBuf s1 h (tagLanding (landingReq p.dir)) (tagCtx c)
  | none => s1

/-- The context has the packet, counted and traced. -/
def handedTo (s : State) (c : CtxId) (p : Packet) : State :=
  trace (loadPacket (bump (slotHeld s c p) (pgENG c.k) ENG_C_DISPATCHES 1) c p) (pgENG c.k) 2 0 p.tag noQueue p.len 0

theorem dispatch_eq (s : State) (c : CtxId) (p : Packet) : dispatch s c p =
    if p.record % 2 = 0 then beginAt (handedTo s c p) c (dirCode p.dir)
    else if causeAction s p = 0 then endDispatch (handedTo s c p) c .drop
    else if causeAction s p = 1 then endDispatch (handedTo s c p) c .punt
    else beginAt (setPkt (handedTo s c p) c { p with cls := fld s pgPRS PRS_DEF_CLASS, colour := fld s pgPRS PRS_DEF_COLOUR }) c (dirCode p.dir) := rfl

/-- What handing over touches. -/
def handFoot (k : Nat) : Foot := ⟨[.ctx, .rdr, .buf, .regs, .cnt, .pmc, .trace],
  slotFoot.spans ++ [pageSpan pgPMC, wordSpan (cntAddr (pgENG k) ENG_C_DISPATCHES), (pgENG k + 0x84, pgENG k + 0x8C)]⟩

theorem dispatches_within_hand (k : Fin 16) : Foot.Within ⟨[.regs, .cnt, .pmc], [pmcSpan, wordSpan (cntAddr (pgENG k) ENG_C_DISPATCHES)]⟩ (handFoot k) := by
  revert k; decide
theorem ctx_within_hand (k : Fin 16) : (ctxFoot k).Within (handFoot k) := by revert k; decide
theorem slot_within_hand (k : Fin 16) : Foot.Within ⟨[.rdr, .buf, .regs], slotFoot.spans⟩ (handFoot k) := by revert k; decide
theorem trace_within_hand (k : Fin 16) : traceFoot.Within (handFoot k) := by revert k; decide
theorem off_pools_eng (k : Fin 16) : ∀ i < 32, Off poolsFoot.spans (cntAddr (pgENG k) i) := by revert k; decide
theorem off_hand_ucs (k : Fin 16) : ∀ o ∈ [UCS_ACTIVE_BANK.off, (UCS_ENTRY_A.at 0).off, (UCS_ENTRY_A.at 1).off, (UCS_ENTRY_A.at 2).off,
    (UCS_ENTRY_B.at 0).off, (UCS_ENTRY_B.at 1).off, (UCS_ENTRY_B.at 2).off], Off (handFoot k).spans (pgUCS k + o) := by revert k; decide
theorem off_hand_react (k : Fin 16) : Off (handFoot k).spans (pgFLT + (FLT_REACT.at k).off) := by revert k; decide
theorem off_hand_faults (k : Fin 16) : Off (handFoot k).spans (cntAddr (pgENG k) ENG_C_FAULTS) := by revert k; decide
theorem off_trace_dispatches (k : Fin 16) : Off traceFoot.spans (cntAddr (pgENG k) ENG_C_DISPATCHES) := by revert k; decide
theorem off_slot_dispatches (k : Fin 16) : Off slotFoot.spans (cntAddr (pgENG k) ENG_C_DISPATCHES) := by revert k; decide

theorem leaves_slotHeld (s : State) (c : CtxId) (p : Packet) : Leaves ⟨[.rdr, .buf, .regs], slotFoot.spans⟩ s (slotHeld s c p) := by
  have held : Leaves ⟨[.rdr, .buf, .regs], slotFoot.spans⟩ s
      (showSlots (setRdrSrc s p.src { rdrSrc s p.src with slots := (rdrSrc s p.src).slots + 1 }) (p.src % 16)) :=
    ((leaves_setRdrSrc s _ _).mono (by decide)).andThen (leaves_showSlots _ _ (Nat.mod_lt _ (by decide))) (by decide)
  unfold slotHeld
  dsimp only
  split
  · exact held.andThen (leaves_passBuf _ _ _ _) (by decide)
  · exact held

theorem rdr_slotHeld (s : State) (c : CtxId) (p : Packet) : (slotHeld s c p).eng.rdr =
    (setRdrSrc s p.src { rdrSrc s p.src with slots := (rdrSrc s p.src).slots + 1 }).eng.rdr := by
  have shown := (leaves_showSlots (setRdrSrc s p.src { rdrSrc s p.src with slots := (rdrSrc s p.src).slots + 1 }) (p.src % 16)
    (Nat.mod_lt _ (by decide))).only .rdr (by decide)
  unfold slotHeld
  dsimp only
  split
  · exact ((leaves_passBuf _ _ _ _).only .rdr (by decide)).trans shown
  · exact shown

/-- The context has packet p as q: a slot of its source is held, the dispatch is counted. -/
structure Handed (s t : State) (c : CtxId) (p q : Packet) : Prop where
  leaves : Leaves (handFoot c.k) s t
  context : ctx t c = { (ctx s c).holding p with pkt := q }
  others : TblOnly Ctx.init (ctxKey c) s.eng.ctx t.eng.ctx
  source : rdrSrc t p.src = { rdrSrc s p.src with slots := (rdrSrc s p.src).slots + 1 }
  sources : TblOnly RdrSrc.init p.src s.eng.rdr t.eng.rdr
  counted : cntAt t (cntAddr (pgENG c.k) ENG_C_DISPATCHES) = min cntMax (cntAt s (cntAddr (pgENG c.k) ENG_C_DISPATCHES) + 1)

theorem loadPacket_eq (s : State) (c : CtxId) (p : Packet) : loadPacket s c p = setCtx s c ((ctx s c).holding p) := rfl

theorem handed_handedTo (s : State) (c : CtxId) (p : Packet) : Handed s (handedTo s c p) c p p := by
  have held := leaves_slotHeld s c p
  have counted := leaves_bump (slotHeld s c p) (pgENG c.k) ENG_C_DISPATCHES 1
  generalize hu : bump (slotHeld s c p) (pgENG c.k) ENG_C_DISPATCHES 1 = u at counted
  have hctx : ctx u c = ctx s c := by rw [counted.eng_ctx (by simp), held.eng_ctx (by simp)]
  have loaded := leaves_setCtx u c ((ctx u c).holding p)
  have traced := leaves_trace (setCtx u c ((ctx u c).holding p)) (pgENG c.k) 2 0 p.tag noQueue p.len 0
  have hto : handedTo s c p = trace (setCtx u c ((ctx u c).holding p)) (pgENG c.k) 2 0 p.tag noQueue p.len 0 := by
    rw [handedTo, loadPacket_eq, hu]
  have hrdr : (handedTo s c p).eng.rdr = (setRdrSrc s p.src { rdrSrc s p.src with slots := (rdrSrc s p.src).slots + 1 }).eng.rdr := by
    rw [hto]
    exact (traced.only .rdr (by decide)).trans ((loaded.only .rdr (by simp [ctxFoot])).trans ((counted.only .rdr (by simp)).trans (rdr_slotHeld s c p)))
  rw [hto] at hrdr ⊢
  refine ⟨?_, ?_, ?_, ?_, ?_, ?_⟩
  · have begun := (held.mono (slot_within_hand c.k)).andThen counted (dispatches_within_hand c.k)
    exact (begun.andThen loaded (ctx_within_hand c.k)).andThen traced (trace_within_hand c.k)
  · rw [traced.eng_ctx (by decide), ctx_setCtx_same, hctx]
    rfl
  · intro j hj
    have same : u.eng.ctx = s.eng.ctx := (counted.only .ctx (by simp)).trans (held.only .ctx (by simp))
    rw [show (trace (setCtx u c ((ctx u c).holding p)) (pgENG c.k) 2 0 p.tag noQueue p.len 0).eng.ctx = _ from traced.only .ctx (by decide),
      tblOnly_setCtx u c _ j hj, same]
  · exact (congrArg (tget RdrSrc.init · p.src) hrdr).trans (rdrSrc_setRdrSrc_same _ _ _)
  · exact fun j hj => (congrArg (tget RdrSrc.init · j) hrdr).trans (tblOnly_setRdrSrc _ _ _ j hj)
  · rw [traced.cnt _ (off_trace_dispatches c.k), loaded.cnt _ (off_ctx_dispatches c.k), ← hu, cntAt_bump_same,
      held.cnt _ (off_slot_dispatches c.k)]

theorem Handed.setPkt {s t : State} {c : CtxId} {p q : Packet} (h : Handed s t c p q) (q' : Packet) : Handed s (setPkt t c q') c p q' := by
  obtain ⟨hleaves, hctx, hothers, hsrc, hsources, hcnt⟩ := h
  have stored := leaves_setCtx t c { ctx t c with pkt := q' }
  refine ⟨hleaves.andThen stored (ctx_within_hand c.k), ?_, fun j hj => ?_, ?_, fun j hj => ?_, ?_⟩
  · rw [Machine.setPkt, ctx_setCtx_same, hctx]
  · exact (tblOnly_setCtx t c _ j hj).trans (hothers j hj)
  · exact (stored.eng_rdrSrc (by simp [ctxFoot]) _).trans hsrc
  · exact (stored.eng_rdrSrc (by simp [ctxFoot]) j).trans (hsources j hj)
  · exact (stored.cnt _ (off_ctx_dispatches c.k)).trans hcnt

/-- The packet as its context begins with it: a malformed one has the default class and colour (R173). -/
def beginsAs (s : State) (p : Packet) : Packet :=
  if p.record % 2 = 0 then p else { p with cls := fld s pgPRS PRS_DEF_CLASS, colour := fld s pgPRS PRS_DEF_COLOUR }

/-- A packet that its cause does not end begins at its direction's vector. -/
theorem dispatch_begins (s : State) (c : CtxId) (p : Packet) (h : p.record % 2 = 0 ∨ 2 ≤ causeAction s p) :
    ∃ t, dispatch s c p = beginAt t c (dirCode p.dir) ∧ Handed s t c p (beginsAs s p) := by
  have handed := handed_handedTo s c p
  by_cases hgood : p.record % 2 = 0
  · refine ⟨handedTo s c p, ?_, ?_⟩
    · rw [dispatch_eq, if_pos hgood]
    · rwa [beginsAs, if_pos hgood]
  · have hact := h.resolve_left hgood
    refine ⟨_, ?_, handed.setPkt _⟩
    rw [dispatch_eq, if_neg hgood, if_neg (by omega), if_neg (by omega), beginsAs, if_neg hgood]

theorem Handed.vector {s t : State} {c : CtxId} {p q : Packet} (h : Handed s t c p q) {b : Bool} (hb : b = isSet s (pgUCS c.k) UCS_ACTIVE_BANK) :
    b = isSet t (pgUCS c.k) UCS_ACTIVE_BANK ∧ entryVector t c.k b (dirCode p.dir) = entryVector s c.k b (dirCode p.dir) ∧
    imageLen t c.k b = imageLen s c.k b := by
  have off := off_hand_ucs c.k
  refine ⟨?_, ?_, ?_⟩
  · rw [h.leaves.isSet _ _ (off _ (by simp)), hb]
  · refine h.leaves.fld _ _ (off _ ?_)
    cases b <;> cases p.dir <;> simp [dirCode]
  · rw [imageLen, imageLen, h.leaves.eng_cluster (by simp [handFoot])]

/-! ### PACKET_DISPATCH (R159, R161, R173) -/

/-- The packet has left the landing queue, and the turn passes. -/
def turnTaken (s : State) (l : List Packet) (n : Nat) : State := { s with eng := { s.eng with landing := l, turn := n } }

theorem leaves_turnTaken (s : State) (l : List Packet) (n : Nat) : Leaves ⟨[.landing, .turn], []⟩ s (turnTaken s l n) := by
  refine .of_only (fun p hp => ?_) (by decide) (by decide)
  cases p
  case landing | turn => simp at hp
  all_goals rfl

theorem exec_packetDispatch (s : State) (p : Packet) (l : List Packet) (c : CtxId) (n : Nat) (hl : s.eng.landing = p :: l)
    (hn : nextCtx s (dispatchOrder s) s.eng.turn = some (c, n)) (hs : slotsHeld s < 2048) :
    exec .packetDispatch s = .next (settlePools s (dispatch (turnTaken s l n) c p)) := by
  show execPacketDispatch s = _
  simp only [execPacketDispatch, hl, hn]
  exact if_neg (by omega)

theorem packetDispatch_begins (s : State) (p : Packet) (l : List Packet) (c : CtxId) (n : Nat) (b : Bool) (v : Nat)
    (hl : s.eng.landing = p :: l) (hn : nextCtx s (dispatchOrder s) s.eng.turn = some (c, n)) (hs : slotsHeld s < 2048)
    (hp : p.record % 2 = 0 ∨ 2 ≤ causeAction s p) (hb : b = isSet s (pgUCS c.k) UCS_ACTIVE_BANK)
    (hv : v = entryVector s c.k b (dirCode p.dir)) (hlen : v < imageLen s c.k b) :
    Completes (.packetDispatch) s (fun t =>
      ((ctx t c).st, (ctx t c).pc, (ctx t c).bank, (ctx t c).slot, (ctx t c).pkt) = (1, v, b, true, beginsAs s p) ∧
      (ctx t c).hw = hwOf p.bytes ∧
      tget dzero (ctx t c).lr 30 = p.record / 2 ^ 32 ∧
      tget dzero (ctx t c).lr 31 = p.record % 2 ^ 32 ∧
      (rdrSrc t p.src).slots = (rdrSrc s p.src).slots + 1 ∧
      TblOnly RdrSrc.init p.src s.eng.rdr t.eng.rdr ∧
      TblOnly Ctx.init (ctxKey c) s.eng.ctx t.eng.ctx ∧
      t.eng.landing = l ∧
      t.eng.turn = n ∧
      (rdrSrc t p.src).next = (rdrSrc s p.src).next ∧
      cntAt t (cntAddr (pgENG c.k) ENG_C_DISPATCHES) = min cntMax (cntAt s (cntAddr (pgENG c.k) ENG_C_DISPATCHES) + 1) ∧
      Only [.ctx, .landing, .turn, .rdr, .buf, .regs, .cnt, .pmc, .trace] s t) := by
  subst hv
  have turned := leaves_turnTaken s l n
  obtain ⟨u, hu, handed⟩ := dispatch_begins (turnTaken s l n) c p hp
  obtain ⟨hbank, hvec, hlenu⟩ := handed.vector (b := b) hb
  rw [beginAt_within u c _ hbank (by rw [hvec, hlenu]; exact hlen), hvec] at hu
  have hrun := exec_packetDispatch s p l c n hl hn hs
  rw [hu] at hrun
  obtain ⟨hleaves, hctx, hothers, hsrc, hsources, hcnt⟩ := handed
  have stored := leaves_setCtx u c { ctx u c with st := 1, pc := entryVector (turnTaken s l n) c.k b (dirCode p.dir), bank := b }
  generalize hw : setCtx u c { ctx u c with st := 1, pc := entryVector (turnTaken s l n) c.k b (dirCode p.dir), bank := b } = w at hrun stored
  have settled := leaves_settlePools s w
  have hctxt : ctx (settlePools s w) c = { (ctx s c).holding p with
      st := 1, pc := entryVector s c.k b (dirCode p.dir), bank := b, pkt := beginsAs s p } := by
    rw [settled.eng_ctx (by decide), ← hw, ctx_setCtx_same, hctx]
    rfl
  have hsrct : rdrSrc (settlePools s w) p.src = { rdrSrc s p.src with slots := (rdrSrc s p.src).slots + 1 } := by
    rw [settled.eng_rdrSrc (by decide), stored.eng_rdrSrc (by simp [ctxFoot]), hsrc]
    rfl
  have after : Only [.ctx, .rdr, .buf, .regs, .cnt, .pmc, .trace] (turnTaken s l n) (settlePools s w) :=
    ((hleaves.only.mono (by simp [handFoot])).trans (stored.only.mono (by simp [ctxFoot]))).trans (settled.only.mono (by decide))
  refine ⟨_, hrun, ?_, ?_, ?_, ?_, ?_, ?_, ?_, after .landing (by decide), after .turn (by decide), ?_, ?_, ?_⟩
  · rw [hctxt]
    rfl
  · rw [hctxt]
    rfl
  · rw [hctxt]
    exact (tget_tset_other _ _ _ _ _ (by decide)).trans (tget_tset_same _ _ _ _)
  · rw [hctxt]
    exact tget_tset_same _ _ _ _
  · rw [hsrct]
  · exact fun j hj => (settled.eng_rdrSrc (by decide) j).trans ((stored.eng_rdrSrc (by simp [ctxFoot]) j).trans (hsources j hj))
  · intro j hj
    rw [show (settlePools s w).eng.ctx = w.eng.ctx from settled.only .ctx (by decide), ← hw, tblOnly_setCtx u c _ j hj]
    exact hothers j hj
  · rw [hsrct]
  · rw [settled.cnt _ (off_pools_eng c.k _ (by decide)), stored.cnt _ (off_ctx_dispatches c.k), hcnt]
    rfl
  · exact (turned.only.mono (by decide)).trans (after.mono (by decide))

end Sys2Proof.Machine
end

section
/-! PROOF. O36: dispatches that end at once, and no dispatch (R159, R161, R164, R173). -/

namespace Sys2Proof.Machine

/-! ### An entry vector beyond the image (R158, R164) -/

/-- The context as it would begin. -/
def begun (s : State) (c : CtxId) (t : Nat) (b : Bool) : State := setCtx s c { ctx s c with st := 1, pc := entryVector s c.k b t, bank := b }

theorem beginAt_beyond (s : State) (c : CtxId) (t : Nat) {b : Bool} (hb : b = isSet s (pgUCS c.k) UCS_ACTIVE_BANK)
    (hv : imageLen s c.k b ≤ entryVector s c.k b t) : beginAt s c t = ctxFault (begun s c t b) c cIllegal := by
  subst hb
  exact if_pos hv

theorem faultsAlone_of_leaves {F : Foot} {s t : State} {k : Nat} (h : Leaves F s t) (hp : Part.faults ∉ F.parts)
    (hr : Off F.spans (pgFLT + (FLT_REACT.at k).off)) : faultsAlone t k = faultsAlone s k := by
  obtain ⟨hq, ho⟩ := h.tst_faults hp
  rw [faultsAlone, faultsAlone, hq, ho, h.reacts k hr]

theorem off_ctx_react (k : Fin 16) : Off (ctxFoot k).spans (pgFLT + (FLT_REACT.at k).off) := by revert k; decide
theorem off_ctx_faults (k : Fin 16) : Off (ctxFoot k).spans (cntAddr (pgENG k) ENG_C_FAULTS) := by revert k; decide
theorem off_fault_dispatches (k : Fin 16) : Off (faultFoot k).spans (cntAddr (pgENG k) ENG_C_DISPATCHES) := by revert k; decide
theorem off_pools_flags (k : Fin 16) : Off poolsFoot.spans (pgENG k + 0x70) := by revert k; decide

/-- A fault stays as it is through the settling of the pools. -/
theorem Faulted.settled {s t : State} {c : CtxId} {cause : Nat} (h : Faulted s t c cause) (u : State) : Faulted s (settlePools u t) c cause := by
  obtain ⟨hst, hcause, hflag, hcnt⟩ := h
  have settled := leaves_settlePools u t
  have hctx := settled.eng_ctx (by decide) c
  refine ⟨by rw [hctx, hst], by rw [hctx, hcause], ?_, ?_⟩
  · rw [settled.flagSet _ _ (by rw [(causeFlag_place cause).1]; exact off_pools_flags c.k), hflag]
  · rw [settled.cnt _ (off_pools_eng c.k _ (by decide)), hcnt]

theorem packetDispatch_faults (s : State) (p : Packet) (l : List Packet) (c : CtxId) (n : Nat) (b : Bool)
    (hl : s.eng.landing = p :: l) (hn : nextCtx s (dispatchOrder s) s.eng.turn = some (c, n)) (hs : slotsHeld s < 2048)
    (hp : p.record % 2 = 0 ∨ 2 ≤ causeAction s p) (hb : b = isSet s (pgUCS c.k) UCS_ACTIVE_BANK)
    (hlen : imageLen s c.k b ≤ entryVector s c.k b (dirCode p.dir)) (halone : faultsAlone s c.k = true) :
    Completes (.packetDispatch) s (fun t =>
      Faulted s t c cIllegal ∧
      t.eng.landing = l ∧
      t.eng.turn = n ∧
      (rdrSrc t p.src).next = (rdrSrc s p.src).next ∧
      cntAt t (cntAddr (pgENG c.k) ENG_C_DISPATCHES) = min cntMax (cntAt s (cntAddr (pgENG c.k) ENG_C_DISPATCHES) + 1)) := by
  obtain ⟨u, hu, handed⟩ := dispatch_begins (turnTaken s l n) c p hp
  obtain ⟨hbank, hvec, hlenu⟩ := handed.vector (b := b) hb
  rw [beginAt_beyond u c _ hbank (by rw [hvec, hlenu]; exact hlen)] at hu
  have hrun := exec_packetDispatch s p l c n hl hn hs
  rw [hu] at hrun
  have stored : Leaves (ctxFoot c.k) u (begun u c (dirCode p.dir) b) := leaves_setCtx u c _
  generalize begun u c (dirCode p.dir) b = y at hrun stored
  obtain ⟨hleaves, -, -, hsrc, -, hcnt⟩ := handed
  have alone : faultsAlone y c.k = true := by
    rw [faultsAlone_of_leaves stored (by simp [ctxFoot]) (off_ctx_react c.k), faultsAlone_of_leaves hleaves (by simp [handFoot]) (off_hand_react c.k)]
    exact halone
  have faults := leaves_ctxFault y c cIllegal alone
  have settled := leaves_settlePools s (ctxFault y c cIllegal)
  have after : Only (.faults :: .trace :: (reclaimFoot c.k).parts) (turnTaken s l n) (settlePools s (ctxFault y c cIllegal)) :=
    ((hleaves.only.mono (by simp [handFoot, reclaimFoot])).trans (stored.only.mono (by simp [ctxFoot, reclaimFoot]))).trans
      ((faults.only.mono (by simp [faultFoot, reclaimFoot])).trans (settled.only.mono (by simp [poolsFoot, reclaimFoot])))
  have counted : cntAt y (cntAddr (pgENG c.k) ENG_C_FAULTS) = cntAt s (cntAddr (pgENG c.k) ENG_C_FAULTS) := by
    rw [stored.cnt _ (off_ctx_faults c.k), hleaves.cnt _ (off_hand_faults c.k)]
    rfl
  have faulted : Faulted s (ctxFault y c cIllegal) c cIllegal := by
    obtain ⟨hst, hcause, hflag, hcount⟩ := faulted_ctxFault y c cIllegal alone
    exact ⟨hst, hcause, hflag, by rw [hcount, counted]⟩
  refine ⟨_, hrun, faulted.settled s, after .landing (by simp [reclaimFoot]), after .turn (by simp [reclaimFoot]), ?_, ?_⟩
  · have same : SameSource (rdrSrc y p.src) (rdrSrc (ctxFault y c cIllegal) p.src) := sameSource_ctxFault y c cIllegal p.src alone
    rw [settled.eng_rdrSrc (by decide), same, stored.eng_rdrSrc (by simp [ctxFoot]), hsrc]
    rfl
  · rw [settled.cnt _ (off_pools_eng c.k _ (by decide)), faults.cnt _ (off_fault_dispatches c.k), stored.cnt _ (off_ctx_dispatches c.k), hcnt]
    rfl

/-! ### A malformed packet that its cause ends (R173) -/

theorem off_over_dispatches (k : Fin 16) (e : Ending) : Off (overFoot k e.counter).spans (cntAddr (pgENG k) ENG_C_DISPATCHES) := by
  cases e <;> (revert k; decide)
theorem off_freed_dispatches (k : Fin 16) : Off freedFoot.spans (cntAddr (pgENG k) ENG_C_DISPATCHES) := by revert k; decide

/-- The end of a dispatch leaves the count of dispatches. -/
theorem dispatches_endDispatch (u : State) (c : CtxId) (e : Ending) (hslot : (ctx u c).slot = true)
    (hseq : seqBad (rdrSrc u (ctx u c).pkt.src) (ctx u c).pkt.seq = false) :
    cntAt (endDispatch u c e) (cntAddr (pgENG c.k) ENG_C_DISPATCHES) = cntAt u (cntAddr (pgENG c.k) ENG_C_DISPATCHES) := by
  have hahead : seqBad (rdrSrc (handedOn u c e) (e.packet (ctx u c).pkt).src) (e.packet (ctx u c).pkt).seq = false := by
    rw [packet_src, packet_seq, rdrSrc_handedOn, hseq]
  rw [endDispatch_slot u c e hslot, (leaves_fill_ahead _ _ _ hahead).cnt _ (off_slot_dispatches c.k),
    (leaves_handedOn u c e).cnt _ (off_freed_dispatches c.k), (leaves_dispatchOver u c e).cnt _ (off_over_dispatches c.k e)]

/-- A dispatch of packet p to context c ended at once: the slot it took is filled with a verdict. -/
def EndedAtOnce (s t : State) (p : Packet) (l : List Packet) (c : CtxId) (n : Nat) (v : Verdict) : Prop :=
  (ctx t c).st = 0 ∧
  (rdrSrc t p.src).held.map (fun g => (g.seq, g.verdict)) = (rdrSrc s p.src).held.map (fun g => (g.seq, g.verdict)) ++ [(p.seq, v)] ∧
  (rdrSrc t p.src).slots = (rdrSrc s p.src).slots + 1 ∧
  t.eng.landing = l ∧
  t.eng.turn = n ∧
  (rdrSrc t p.src).next = (rdrSrc s p.src).next ∧
  cntAt t (cntAddr (pgENG c.k) ENG_C_DISPATCHES) = min cntMax (cntAt s (cntAddr (pgENG c.k) ENG_C_DISPATCHES) + 1)

theorem packetDispatch_ends (s : State) (p : Packet) (l : List Packet) (c : CtxId) (n : Nat) (e : Ending)
    (hl : s.eng.landing = p :: l) (hn : nextCtx s (dispatchOrder s) s.eng.turn = some (c, n)) (hs : slotsHeld s < 2048)
    (hend : dispatch (turnTaken s l n) c p = endDispatch (handedTo (turnTaken s l n) c p) c e)
    (hseq : seqBad (rdrSrc s p.src) p.seq = false) :
    Completes (.packetDispatch) s (fun t => EndedAtOnce s t p l c n (e.verdict p)) := by
  have hrun := exec_packetDispatch s p l c n hl hn hs
  obtain ⟨hleaves, hctx, -, hsrc, -, hcnt⟩ := handed_handedTo (turnTaken s l n) c p
  rw [hend] at hrun
  generalize handedTo (turnTaken s l n) c p = u at hrun hleaves hctx hsrc hcnt
  have hslot : (ctx u c).slot = true := by rw [hctx]; rfl
  have hpkt : (ctx u c).pkt = p := by rw [hctx]
  have hsame : seqBad (rdrSrc u (ctx u c).pkt.src) (ctx u c).pkt.seq = false := by
    rw [hpkt, hsrc]
    exact hseq
  obtain ⟨hended, ⟨hheld, hslots, hnext, -⟩, -, -, honly⟩ := endDispatch_ahead u c e hslot hsame
  have hdisp := dispatches_endDispatch u c e hslot hsame
  rw [hpkt] at hheld hslots hnext
  rw [hsrc] at hheld hslots hnext
  have settled := leaves_settlePools s (endDispatch u c e)
  have after : Only [.ctx, .rdr, .wait, .buf, .regs, .cnt, .pmc, .trace] (turnTaken s l n) (settlePools s (endDispatch u c e)) :=
    ((hleaves.only.mono (by simp [handFoot])).trans (honly.mono (by decide))).trans (settled.only.mono (by decide))
  have hrdr := settled.eng_rdrSrc (by decide) p.src
  refine ⟨_, hrun, ?_, ?_, ?_, after .landing (by decide), after .turn (by decide), ?_, ?_⟩
  · rw [settled.eng_ctx (by decide), hended]
    rfl
  · rw [hrdr]
    exact hheld
  · rw [hrdr]
    exact hslots
  · rw [hrdr]
    exact hnext
  · rw [settled.cnt _ (off_pools_eng c.k _ (by decide)), hdisp, hcnt]
    rfl

theorem packetDispatch_drops (s : State) (p : Packet) (l : List Packet) (c : CtxId) (n : Nat)
    (hl : s.eng.landing = p :: l) (hn : nextCtx s (dispatchOrder s) s.eng.turn = some (c, n)) (hs : slotsHeld s < 2048)
    (hbad : p.record % 2 = 1) (hact : causeAction s p = 0) (hseq : seqBad (rdrSrc s p.src) p.seq = false) :
    Completes (.packetDispatch) s (fun t => EndedAtOnce s t p l c n (.drop p.mark)) :=
  packetDispatch_ends s p l c n .drop hl hn hs (by rw [dispatch_eq, if_neg (by omega)]; exact if_pos hact) hseq

theorem packetDispatch_punts (s : State) (p : Packet) (l : List Packet) (c : CtxId) (n : Nat)
    (hl : s.eng.landing = p :: l) (hn : nextCtx s (dispatchOrder s) s.eng.turn = some (c, n)) (hs : slotsHeld s < 2048)
    (hbad : p.record % 2 = 1) (hact : causeAction s p = 1) (hseq : seqBad (rdrSrc s p.src) p.seq = false) :
    Completes (.packetDispatch) s (fun t => EndedAtOnce s t p l c n (.punt p)) := by
  have same : causeAction (turnTaken s l n) p = 1 := hact
  exact packetDispatch_ends s p l c n .punt hl hn hs (by rw [dispatch_eq, if_neg (by omega), if_neg (by omega), if_pos same]) hseq

/-! ### No dispatch -/

theorem packetDispatch_slotWait (s : State) (p : Packet) (l : List Packet) (c : CtxId) (n : Nat)
    (hl : s.eng.landing = p :: l) (hn : nextCtx s (dispatchOrder s) s.eng.turn = some (c, n)) (hs : 2048 ≤ slotsHeld s) :
    Completes (.packetDispatch) s (fun t =>
      flagSet t (pgRDR (p.src % 16)) RDR_F_SLOT_WAIT = true ∧
      Only alerts s t) := by
  have hk : p.src % 16 < 16 := Nat.mod_lt _ (by decide)
  have hrun : exec .packetDispatch s = .next (note s (pgRDR (p.src % 16)) RDR_F_SLOT_WAIT RDR_C_SLOT_WAITS) := by
    show execPacketDispatch s = _
    simp only [execPacketDispatch, hl, hn, hs, if_true]
  refine ⟨_, hrun, ?_, (leaves_note _ _ _ _).only.mono (by simp [alerts])⟩
  rw [note, (leaves_bump _ _ _ _).flagSet _ _ (off_count_rdrFlags _ hk _ (by decide))]
  exact flagSet_flag _ _ _ (by decide) (by decide) (pmcWord_rdrFlags _ hk)

theorem packetDispatch_none (s : State) (h : s.eng.landing = [] ∨ nextCtx s (dispatchOrder s) s.eng.turn = none) :
    Completes (.packetDispatch) s (fun t => t = s) := by
  refine ⟨s, ?_, rfl⟩
  show execPacketDispatch s = _
  unfold execPacketDispatch
  split
  · rfl
  · rename_i p l hl
    rw [h.resolve_left (by simp [hl])]

/-- Settles O36: landing by where its buffer comes from, dispatch by what the packet's record asks for. -/
theorem landingAndDispatch : Obligations.LandingAndDispatch := by
  unfold Obligations.LandingAndDispatch
  exact ⟨packetLanding_otherDir, packetLanding_quarantined, packetLanding_allocated, packetLanding_refused, packetLanding_waits,
    packetDispatch_begins, packetDispatch_faults, packetDispatch_drops, packetDispatch_punts, packetDispatch_slotWait, packetDispatch_none⟩

end Sys2Proof.Machine
end

section
/-! SUPPORT. The grid's own record, a flag with its event, and register commands that change something of the grid but not its position
(R27, R285, R291, R295). -/

namespace Sys2Proof.Machine

/-! ### The grid -/

theorem only_grid (s : State) (g : GridSt) : Only [.grid] s { s with grid := g } := by
  intro p hp
  cases p
  case grid => simp at hp
  all_goals rfl

theorem leaves_grid (s : State) (g : GridSt) : Leaves ⟨[.grid], []⟩ s { s with grid := g } := .of_only (only_grid s g) (by decide) (by decide)

/-! ### A flag and its event -/

/-- A flag leaves what stands beside its bit. -/
theorem fld_flag_beside (s : State) (b c : Nat) (f : Flag) (g : Fld) (hf : f.bit + 1 ≤ 32 ∧ f.cntLsb + 16 ≤ 32)
    (hd : c + g.off ≠ b + f.off ∨ g.lsb + g.width ≤ f.bit ∨ f.bit + 1 ≤ g.lsb) (hc : c + g.off ≠ b + f.cntOff)
    (hp : pmcWord (c + g.off) = false) : fld (flag s b f) c g = fld s c g := by
  have hset : fld (bumpFld (setFld s b ⟨f.off, f.bit, 1, 0⟩ 1) b ⟨f.cntOff, f.cntLsb, 16, 0⟩ 1) c g = fld s c g := by
    rw [bumpFld, fld_setFld_other _ _ _ _ _ _ hf.2 (.inl hc), fld_setFld_other _ _ _ _ _ _ hf.1 hd]
  unfold flag
  dsimp only
  split
  · split
    · rw [fld, reg_pmcCount _ _ _ _ _ hp]; exact hset
    · exact hset
  · exact hset

/-- What a flag and the event that goes with it touch. -/
def raiseFoot (b : Nat) (f : Flag) : Foot :=
  ⟨alerts, [pmcSpan, pageSpan pgEVT, wordSpan (b + ANY_EVT_SEQ.off), wordSpan (b + f.off), wordSpan (b + f.cntOff)]⟩

theorem leaves_raise (s : State) (b : Nat) (f : Flag) (l : List Nat) : Leaves (raiseFoot b f) s (raise s b f l) :=
  ((leaves_flag s b f).mono (by simp [raiseFoot, Foot.Within, Covers, alerts])).andThen (leaves_post _ b _ l)
    (by simp [raiseFoot, eventFoot, Foot.add, Foot.Within, Covers])

theorem flagSet_post_flag (s : State) (b : Nat) (f : Flag) (c : EvCode) (l : List Nat) (h : f.bit < 32) (ho : f.off ≠ f.cntOff)
    (ha : Off (eventFoot.add (wordSpan (b + ANY_EVT_SEQ.off))).spans (b + f.off)) : flagSet (post (flag s b f) b c l) b f = true := by
  rw [(leaves_post _ b c l).flagSet b f ha]
  exact flagSet_flag s b f h ho (pmcWord_of_off ha (by simp [Foot.add, eventFoot]))

theorem flagSet_raise (s : State) (b : Nat) (f : Flag) (l : List Nat) (h : f.bit < 32) (ho : f.off ≠ f.cntOff)
    (ha : Off (eventFoot.add (wordSpan (b + ANY_EVT_SEQ.off))).spans (b + f.off)) : flagSet (raise s b f l) b f = true :=
  flagSet_post_flag s b f _ l h ho ha

/-! ### Register commands -/

/-- The record of a command whose body left the journal and the position of the grid. -/
theorem answered_record_of_now (s u : State) (o : Origin) (c a : Nat) (x y m : Word) (hj : u.jrn = s.jrn) (hn : now u = now s) :
    Answered s (record u o c a x y m) o c a := by
  obtain ⟨hring, hcseq, -⟩ := journal_jrn u o c a x y m
  refine ⟨⟨?_, x, y, m, ?_⟩, record_done u o c a x y m⟩
  · rw [record_jrn, hcseq, hj]
  · rw [record_jrn, hring, hn, hj]

/-- A command register, told by what its body answers. -/
theorem completes_command {i : Instr} {o : Origin} {a c : Nat} {body : State → State × Nat} {s u : State} {P : State → Prop}
    (hexec : exec i s = .next (command o a a body s)) (h : addrReject s o a = none) (hbody : body s = (u, c)) (hj : u.jrn = s.jrn)
    (hn : now u = now s) (hP : ∀ t, Answered s t o c a → Leaves recordFoot u t → t.grid = u.grid → P t) : Completes i s P := by
  refine ⟨_, hexec, ?_⟩
  rw [command_ok o a a body s h, hbody]
  exact hP _ (answered_record_of_now s u _ _ _ _ _ _ hj hn) (leaves_record ..) (by simp)

/-- The record alone touches the registers of its pages only. -/
theorem Leaves.record_regsOnly {l : List Part} {s t : State} (h : Leaves ⟨l, recordFoot.spans⟩ s t) : RegsOnly bookPages [] s t :=
  h.regsOnly _ _ (by show ∀ r ∈ recordFoot.spans, _; decide)

theorem leaves_setDone (s : State) (c : Completion) (w : Word) : Leaves ⟨[.access], []⟩ s (setDone s c w) :=
  .of_only (only_setDone s c w) (by decide) (by decide)

/-- A read with a row of its own, told by what its body answers. -/
theorem completes_readAccess {i : Instr} {o : Origin} {a : Nat} {body : State → State × Word} {s u : State} {w : Word} {P : State → Prop}
    (hexec : exec i s = .next (readAccess o a body s)) (h : (reach s o a).isSome = true) (hbody : body s = (u, w))
    (hP : ∀ t, Leaves ⟨[.access], []⟩ u t → t.bus.data = w → P t) : Completes i s P := by
  refine ⟨_, hexec, ?_⟩
  rw [readAccess_ok o a body s h, hbody]
  exact hP _ (leaves_setDone u .normal w) rfl

/-- A step that touches no register leaves every field. -/
theorem Leaves.everyFld {l : List Part} {s t : State} (h : Leaves ⟨l, []⟩ s t) (b : Nat) (f : Fld) : Machine.fld t b f = Machine.fld s b f :=
  h.fld b f (by simp)

/-- A number within a field reads as itself. -/
theorem fld_setFld_of_lt (s : State) (b : Nat) (f : Fld) (v : Nat) (h : f.lsb + f.width ≤ 32) (hv : v < 2 ^ f.width) :
    fld (setFld s b f v) b f = v := by rw [fld_setFld_same s b f v h, Nat.mod_eq_of_lt hv]

theorem unsignedOf_lt (w : Nat) (v : Int) : unsignedOf w v < 2 ^ w := by
  have h : (0 : Int) < 2 ^ w := by positivity
  have h0 := Int.emod_nonneg v h.ne'
  have h1 := Int.emod_lt_of_pos v h
  rw [unsignedOf]
  zify
  rw [Int.toNat_of_nonneg h0]
  exact h1

end Sys2Proof.Machine
end

section
/-! PROOF. O6: what the DPLL takes of a change of its references (R31 to R33, R346). -/

namespace Sys2Proof.Machine

/-! ### REF_OK (R31) -/

theorem bitAt_setRefOk : ∀ v < 16, ∀ i < 4, ∀ j < 4, ∀ b : Bool,
    bitAt ((if b then v ||| 1 <<< i else if bitAt v i then v - 1 <<< i else v) % 2 ^ 4) j = if j = i then b else bitAt v j := by decide

theorem refOk_setRefOk (s : State) {i j : Nat} (hi : i < 4) (hj : j < 4) (b : Bool) :
    refOk (setRefOk s i b) j = if j = i then b else refOk s j := by
  unfold refOk setRefOk
  rw [fld_setFld_same _ _ _ _ (by decide)]
  exact bitAt_setRefOk _ (bitsOf_lt _ _ _) i hi j hj b

theorem pairOk_setRefOk_other (s : State) {i x : Nat} (hi : i < 4) (hx : x < 2) (h : i % 2 ≠ x) (b : Bool) :
    pairOk (setRefOk s i b) x = pairOk s x := by
  rw [pairOk, pairOk, refOk_setRefOk s hi (by omega), refOk_setRefOk s hi (by omega), if_neg (by omega), if_neg (by omega)]

/-- An input that qualifies completes its pair where the pair's other input is qualified. -/
theorem pairOk_setRefOk_same (s : State) {i : Nat} (hi : i < 4) (h : refOk s ((i + 2) % 4) = true) :
    pairOk (setRefOk s i true) (i % 2) = true := by
  have own : ∀ j < 4, j % 2 = i % 2 → refOk (setRefOk s i true) j = true := by
    intro j hj hpair
    rw [refOk_setRefOk s hi hj]
    split
    · rfl
    · rw [show j = (i + 2) % 4 by omega, h]
  rw [pairOk, own _ (by omega) (by omega), own _ (by omega) (by omega)]
  rfl

/-- What the DPLL reads beside REF_OK stands: its state, the selection, the active pair, and the role of the device. -/
structure SameMode (s u : State) : Prop where
  following : following u = following s
  state : fld u pgGRD GRD_DPLL_STATE = fld s pgGRD GRD_DPLL_STATE
  sel : fld u pgGRD GRD_SEL_MODE = fld s pgGRD GRD_SEL_MODE
  active : fld u pgGRD GRD_ACTIVE_REF = fld s pgGRD GRD_ACTIVE_REF

theorem SameMode.of_fld {s u : State} (h : ∀ p ∈ [(pgPRT, PRT_CUR_ROLE), (pgPRT, PRT_MASTER_LINK), (pgGRD, GRD_DPLL_STATE),
    (pgGRD, GRD_SEL_MODE), (pgGRD, GRD_ACTIVE_REF)], fld u p.1 p.2 = fld s p.1 p.2) : SameMode s u := by
  simp only [List.forall_mem_cons, List.not_mem_nil, false_imp_iff, implies_true, and_true] at h
  obtain ⟨hrole, hlink, hstate, hsel, hactive⟩ := h
  exact ⟨by rw [Machine.following, hrole, hlink, Machine.following], hstate, hsel, hactive⟩

theorem SameMode.trans {s t u : State} (h1 : SameMode s t) (h2 : SameMode t u) : SameMode s u :=
  ⟨h2.following.trans h1.following, h2.state.trans h1.state, h2.sel.trans h1.sel, h2.active.trans h1.active⟩

theorem sameMode_setRefOk (s : State) (i : Nat) (b : Bool) : SameMode s (setRefOk s i b) :=
  .of_fld fun p hp => fld_setFld_other _ _ _ _ _ _ (by decide) (by revert p; decide)

/-- An input is lost: its REF_OK bit is cleared, and its flag is raised. -/
def inputLost (s : State) (i : Nat) (b : Bool) : State := raise (setRefOk s i false) pgGRD (lossFlag b) [i]

theorem fld_raise_loss (s : State) (b : Bool) (l : List Nat) {c : Nat} {g : Fld}
    (ha : ∀ b, Off (raiseFoot pgGRD (lossFlag b)).spans (c + g.off)) : fld (raise s pgGRD (lossFlag b) l) c g = fld s c g :=
  (leaves_raise s pgGRD (lossFlag b) l).fld c g (ha b)

theorem sameMode_inputLost (s : State) (i : Nat) (b : Bool) : SameMode s (inputLost s i b) :=
  (sameMode_setRefOk s i false).trans (.of_fld fun p hp => fld_raise_loss _ b _ (by revert p; decide))

theorem refOk_inputLost (s : State) {i j : Nat} (hi : i < 4) (hj : j < 4) (b : Bool) :
    refOk (inputLost s i b) j = if j = i then false else refOk s j := by
  rw [← refOk_setRefOk s hi hj false, refOk, inputLost, fld_raise_loss _ b _ (by decide), refOk]

theorem pairOk_inputLost_other (s : State) {i x : Nat} (hi : i < 4) (hx : x < 2) (h : i % 2 ≠ x) (b : Bool) :
    pairOk (inputLost s i b) x = pairOk s x := by
  rw [pairOk, pairOk, refOk_inputLost s hi (by omega), refOk_inputLost s hi (by omega), if_neg (by omega), if_neg (by omega)]

theorem flagSet_inputLost (s : State) (i : Nat) (b : Bool) : flagSet (inputLost s i b) pgGRD (lossFlag b) = true :=
  flagSet_raise _ _ _ _ (by revert b; decide) (by revert b; decide) (by revert b; decide)

theorem only_inputLost (s : State) (i : Nat) (b : Bool) : Only alerts s (inputLost s i b) :=
  ((only_setFld s _ _ _).mono (by decide)).trans (leaves_raise _ _ _ _).only

/-! ### The choice of a pair (R32) -/

theorem mayStay_of_lost {s : State} {x : Nat} (h : refOk s x = false) : mayStay s x = false := by simp [mayStay, h]

theorem mayStay_of_other {s : State} {x : Nat} (h : fld s pgGRD GRD_ACTIVE_REF ≠ x) : mayStay s x = false := by simp [mayStay, h]

theorem mayStay_of_free {s : State} {x : Nat} (h : fld s pgGRD GRD_DPLL_STATE = dpllFree) : mayStay s x = false := by
  simp [mayStay, h, dpllFree, dpllAcquire, dpllLocked]

theorem mayStay_of_locked {s : State} {x : Nat} (hst : fld s pgGRD GRD_DPLL_STATE = dpllLocked) (hx : fld s pgGRD GRD_ACTIVE_REF = x)
    (h : refOk s x = true) : mayStay s x = true := by simp [mayStay, hst, hx, h]

/-- With no pair to stay on and none qualified the DPLL has none to use. -/
theorem chosenRef_none {s : State} (b : Bool) (hsel : fld s pgGRD GRD_SEL_MODE = 0) (hstay : mayStay s b.toNat = false)
    (hok : pairOk s b.toNat = false) (hstay' : mayStay s (1 - b.toNat) = false) (hok' : pairOk s (1 - b.toNat) = false) :
    chosenRef s = none := by
  cases b <;> simp_all [chosenRef]

/-- The DPLL stays on a pair that it may keep while the other is not qualified. -/
theorem chosenRef_stays {s : State} (b : Bool) (hsel : fld s pgGRD GRD_SEL_MODE = 0) (hstay : mayStay s b.toNat = true)
    (hother : mayStay s (1 - b.toNat) = false) (hok : pairOk s (1 - b.toNat) = false) : chosenRef s = some b.toNat := by
  cases b
  · have hstay0 : mayStay s 0 = true := hstay
    simp [chosenRef, hsel, hstay0]
  · have hstay1 : mayStay s 1 = true := hstay
    have hother0 : mayStay s 0 = false := hother
    have hok0 : pairOk s 0 = false := hok
    simp [chosenRef, hsel, hstay1, hother0, hok0]

/-- With no pair to stay on the DPLL uses the one that is qualified. -/
theorem chosenRef_qualified {s : State} (b : Bool) (hsel : fld s pgGRD GRD_SEL_MODE = 0) (hstay : ∀ x, mayStay s x = false)
    (hok : pairOk s b.toNat = true) (hother : pairOk s (1 - b.toNat) = false) : chosenRef s = some b.toNat := by
  cases b
  · have hok0 : pairOk s 0 = true := hok
    simp [chosenRef, hsel, hstay, hok0]
  · have hok1 : pairOk s 1 = true := hok
    have hother0 : pairOk s 0 = false := hother
    simp [chosenRef, hsel, hstay, hok1, hother0]

/-! ### The transitions (R33) -/

theorem evalRef_none {s : State} (hf : following s = false) (hst : fld s pgGRD GRD_DPLL_STATE = dpllLocked) (h : chosenRef s = none) :
    evalRef s = enterHoldover s := by simp [evalRef, hf, hst, h]

theorem evalRef_stays {s : State} {x : Nat} (hf : following s = false) (hst : fld s pgGRD GRD_DPLL_STATE = dpllLocked)
    (h : chosenRef s = some x) (hx : fld s pgGRD GRD_ACTIVE_REF = x) : evalRef s = s := by
  simp [evalRef, hf, hst, h, hx, dpllFree, dpllLocked, dpllHoldover]

theorem evalRef_acquires {s : State} {x : Nat} (hf : following s = false) (hst : fld s pgGRD GRD_DPLL_STATE = dpllFree)
    (h : chosenRef s = some x) (hx : pairOk s x = true) : evalRef s = beginAcquire s x true := by simp [evalRef, hf, hst, h, hx]

/-! ### HOLDOVER -/

theorem enterHoldover_state (s : State) : fld (enterHoldover s) pgGRD GRD_DPLL_STATE = dpllHoldover := by
  unfold enterHoldover
  dsimp only
  rw [(leaves_flag _ pgGRD GRD_F_HOLDOVER_ENTER).fld _ _ (by decide)]
  show fld (setFld (setFld s pgGRD GRD_DPLL_STATE dpllHoldover) pgGRD GRD_OFF _) pgGRD GRD_DPLL_STATE = _
  rw [fld_setFld_other _ _ _ _ _ _ (by decide) (by decide), fld_setFld_of_lt _ _ _ _ (by decide) (by decide)]

/-- A field of GRD lies beside what HOLDOVER changes. -/
@[reducible] def BesideHoldover (g : Fld) : Prop :=
  (pgGRD + g.off ≠ pgGRD + GRD_DPLL_STATE.off ∨ GRD_DPLL_STATE.lsb + GRD_DPLL_STATE.width ≤ g.lsb) ∧
  pgGRD + g.off ≠ pgGRD + GRD_OFF.off ∧
  (pgGRD + g.off ≠ pgGRD + GRD_F_HOLDOVER_ENTER.off ∨ g.lsb + g.width ≤ GRD_F_HOLDOVER_ENTER.bit) ∧
  pgGRD + g.off ≠ pgGRD + GRD_F_HOLDOVER_ENTER.cntOff ∧ pmcWord (pgGRD + g.off) = false

theorem enterHoldover_beside (s : State) {g : Fld} (h : BesideHoldover g) : fld (enterHoldover s) pgGRD g = fld s pgGRD g := by
  obtain ⟨hstate, hoff, hflag, hcnt, hp⟩ := h
  unfold enterHoldover
  dsimp only
  rw [fld_flag_beside _ _ _ _ _ (by decide) (hflag.imp_right .inl) hcnt hp]
  show fld (setFld (setFld s pgGRD GRD_DPLL_STATE dpllHoldover) pgGRD GRD_OFF _) pgGRD g = _
  rw [fld_setFld_other _ _ _ _ _ _ (by decide) (.inl hoff), fld_setFld_other _ _ _ _ _ _ (by decide) (hstate.imp_right .inr)]

theorem besideHoldover_lossFlag : ∀ b, BesideHoldover ⟨(lossFlag b).off, (lossFlag b).bit, 1, 0⟩ := by decide

theorem enterHoldover_flag (s : State) : flagSet (enterHoldover s) pgGRD GRD_F_HOLDOVER_ENTER = true :=
  flagSet_flag _ _ _ (by decide) (by decide) (by decide)

theorem only_enterHoldover (s : State) : Only (.grid :: alerts) s (enterHoldover s) :=
  ((((only_setFld s _ _ _).trans (only_setFld _ _ _ _)).mono (by decide)).trans ((only_grid _ _).mono (by decide))).trans
    ((only_flag _ _ _).mono (by decide))

/-! ### GREF_LOST, PPS_LOST, REF_QUALIFIED -/

/-- The pair beside b is another one, below 2. -/
theorem other_pair (b : Bool) : 1 - b.toNat < 2 ∧ b.toNat < 2 ∧ b.toNat ≠ 1 - b.toNat := by cases b <;> decide

theorem grefLost_holdover (s : State) (b : Bool) (hf : following s = false) (hst : fld s pgGRD GRD_DPLL_STATE = dpllLocked)
    (hsel : fld s pgGRD GRD_SEL_MODE = 0) (hactive : fld s pgGRD GRD_ACTIVE_REF = b.toNat) (hother : pairOk s (1 - b.toNat) = false) :
    Completes (.grefLost b) s (fun t =>
      refOk t b.toNat = false ∧
      fld t pgGRD GRD_DPLL_STATE = dpllHoldover ∧
      flagSet t pgGRD (lossFlag b) = true ∧
      flagSet t pgGRD GRD_F_HOLDOVER_ENTER = true ∧
      Only (.grid :: alerts) s t) := by
  obtain ⟨hlt', hlt, hne⟩ := other_pair b
  have mode := sameMode_inputLost s b.toNat b
  have lost : refOk (inputLost s b.toNat b) b.toNat = false := by
    rw [refOk_inputLost s (by omega) (by omega), if_pos rfl]
  have chosen : chosenRef (inputLost s b.toNat b) = none :=
    chosenRef_none b (mode.sel.trans hsel) (mayStay_of_lost lost) (by rw [pairOk, lost, Bool.false_and])
      (mayStay_of_other (by rw [mode.active, hactive]; exact hne))
      (by rw [pairOk_inputLost_other s (by omega) hlt' (by omega), hother])
  refine ⟨_, congrArg Host.Outcome.next (evalRef_none (mode.following.trans hf) (mode.state.trans hst) chosen), ?_, enterHoldover_state _, ?_,
    enterHoldover_flag _, ((only_inputLost s _ b).mono (by decide)).trans (only_enterHoldover _)⟩
  · rw [refOk, enterHoldover_beside _ (by decide)]
    exact lost
  · rw [flagSet, isSet, enterHoldover_beside _ (besideHoldover_lossFlag b)]
    exact flagSet_inputLost s _ b

theorem ppsLost_locked (s : State) (b : Bool) (hf : following s = false) (hst : fld s pgGRD GRD_DPLL_STATE = dpllLocked)
    (hsel : fld s pgGRD GRD_SEL_MODE = 0) (hactive : fld s pgGRD GRD_ACTIVE_REF = b.toNat) (hok : refOk s b.toNat = true)
    (hother : pairOk s (1 - b.toNat) = false) :
    Completes (.ppsLost b) s (fun t =>
      refOk t (2 + b.toNat) = false ∧
      fld t pgGRD GRD_DPLL_STATE = dpllLocked ∧
      flagSet t pgGRD (lossFlag b) = true ∧
      Only alerts s t) := by
  obtain ⟨hlt', hlt, hne⟩ := other_pair b
  have mode := sameMode_inputLost s (2 + b.toNat) b
  have state := mode.state.trans hst
  have active := mode.active.trans hactive
  have kept : refOk (inputLost s (2 + b.toNat) b) b.toNat = true := by
    rw [refOk_inputLost s (by omega) (by omega), if_neg (by omega), hok]
  have chosen : chosenRef (inputLost s (2 + b.toNat) b) = some b.toNat :=
    chosenRef_stays b (mode.sel.trans hsel) (mayStay_of_locked state active kept) (mayStay_of_other (by rw [active]; exact hne))
      (by rw [pairOk_inputLost_other s (by omega) hlt' (by omega), hother])
  have hrun : exec (.ppsLost b) s = .next (inputLost s (2 + b.toNat) b) := by
    show execPpsLost b s = _
    rw [execPpsLost, if_pos hactive]
    exact congrArg Host.Outcome.next (evalRef_stays (mode.following.trans hf) state chosen active)
  exact ⟨_, hrun, by rw [refOk_inputLost s (by omega) (by omega), if_pos rfl], state, flagSet_inputLost s _ b, only_inputLost s _ b⟩

theorem refQualified_acquire (s : State) (n : Fin 4) (hf : following s = false) (hst : fld s pgGRD GRD_DPLL_STATE = dpllFree)
    (hsel : fld s pgGRD GRD_SEL_MODE = 0) (h0 : pairOk s 0 = false) (h1 : pairOk s 1 = false)
    (hpair : refOk s ((n.val + 2) % 4) = true) :
    Completes (.refQualified n) s (fun t =>
      refOk t n = true ∧
      fld t pgGRD GRD_DPLL_STATE = dpllAcquire ∧
      fld t pgGRD GRD_ACTIVE_REF = n.val % 2 ∧
      RegsOnly [] [pgGRD + GRD_REF_OK.off, pgGRD + GRD_DPLL_STATE.off, pgGRD + GRD_ACTIVE_REF.off] s t ∧
      Only [.regs, .grid] s t) := by
  have mode := sameMode_setRefOk s n true
  have state := mode.state.trans hst
  have complete := pairOk_setRefOk_same s n.isLt hpair
  obtain ⟨b, hb⟩ : ∃ b : Bool, n.val % 2 = b.toNat := ⟨n.val % 2 == 1, by rcases Nat.mod_two_eq_zero_or_one n.val with h | h <;> rw [h] <;> rfl⟩
  obtain ⟨hlt', -, hne⟩ := other_pair b
  have other : pairOk s (1 - b.toNat) = false := by
    cases b
    · exact h1
    · exact h0
  have chosen : chosenRef (setRefOk s n true) = some b.toNat :=
    chosenRef_qualified b (mode.sel.trans hsel) (fun x => mayStay_of_free state) (by rw [← hb]; exact complete)
      (by rw [pairOk_setRefOk_other s n.isLt hlt' (by omega), other])
  rw [hb] at complete ⊢
  refine ⟨_, congrArg Host.Outcome.next (evalRef_acquires (mode.following.trans hf) state chosen complete), ?_, ?_, ?_, ?_⟩
  · show refOk (setFld (setFld (setRefOk s n true) pgGRD GRD_DPLL_STATE dpllAcquire) pgGRD GRD_ACTIVE_REF b.toNat) n = true
    rw [refOk, fld_setFld_other _ _ _ _ _ _ (by decide) (by decide), fld_setFld_other _ _ _ _ _ _ (by decide) (by decide)]
    exact (refOk_setRefOk s n.isLt n.isLt true).trans (if_pos rfl)
  · show fld (setFld (setFld (setRefOk s n true) pgGRD GRD_DPLL_STATE dpllAcquire) pgGRD GRD_ACTIVE_REF b.toNat) pgGRD GRD_DPLL_STATE = _
    rw [fld_setFld_other _ _ _ _ _ _ (by decide) (by decide), fld_setFld_of_lt _ _ _ _ (by decide) (by decide)]
  · show fld (setFld (setFld (setRefOk s n true) pgGRD GRD_DPLL_STATE dpllAcquire) pgGRD GRD_ACTIVE_REF b.toNat) pgGRD GRD_ACTIVE_REF = _
    rw [fld_setFld_of_lt _ _ _ _ (by decide) (by cases b <;> decide)]
  · have leaves : Leaves ⟨[.regs, .grid], [wordSpan (pgGRD + GRD_REF_OK.off)]⟩ s (beginAcquire (setRefOk s n true) b.toNat true) :=
      (((leaves_setFld s pgGRD GRD_REF_OK _).mono (by decide)).andThen (leaves_setFld _ pgGRD GRD_DPLL_STATE _) (by decide)).andThen
        (leaves_setFld _ pgGRD GRD_ACTIVE_REF _) (by decide) |>.andThen (leaves_grid _ _) (by decide)
    exact ⟨leaves.regsOnly _ _ (by decide), leaves.only⟩

/-! ### PPS_EDGE -/

theorem ppsEdge_measured (s : State) (b : Bool) (f e : Int) (h : fld s pgGRD GRD_ACTIVE_REF ≠ b.toNat) :
    Completes (.ppsEdge b f e) s (fun t =>
      t.grid = { s.grid with otherPhase := some (wrapPhase e) } ∧
      Only [.grid] s t) := by
  refine ⟨_, ?_, rfl, only_grid s _⟩
  show execPpsEdge b f e s = _
  rw [execPpsEdge, if_neg h]

theorem autoBase_none {s : State} (h : s.grid.todSec = none) : autoBase s = s := by simp [autoBase, h]

/-- The place of an edge of the active pair is kept. -/
def edgeTaken (s : State) : State := { s with grid := { s.grid with lastPps := some (elapsed s) } }

theorem execPpsEdge_active {s : State} {b : Bool} (f e : Int) (h : fld s pgGRD GRD_ACTIVE_REF = b.toNat) (hsec : s.grid.todSec = none) :
    execPpsEdge b f e s = .next (dpllEdge (edgeTaken s) f (wrapPhase e)) := by
  rw [execPpsEdge, if_pos h]
  exact congrArg (fun t => Host.Outcome.next (dpllEdge t f (wrapPhase e))) (autoBase_none (s := edgeTaken s) hsec)

/-- Frequency and phase are corrected at an edge, the n-th good one in a row. -/
def tracked (s : State) (f e : Int) (n : Nat) : State :=
  { setPhase (setFreq s f) e with grid := { (setPhase (setFreq s f) e).grid with good := n } }

theorem trackEdge_locks {s : State} {f e : Int} (hst : fld s pgGRD GRD_DPLL_STATE = dpllAcquire) (hn : s.grid.good = 2)
    (he : phaseGood e = true) (hf : (f - fldS s pgGRD GRD_OFF).natAbs ≤ 10000) :
    trackEdge s f e = raise (setFld (tracked s f e 3) pgGRD GRD_DPLL_STATE dpllLocked) pgGRD GRD_F_LOCK [] := by
  simp [trackEdge, hst, hn, he, hf, dpllAcquire, dpllLocked, tracked]

theorem dpllEdge_tracks {s : State} {f e : Int} (hfol : following s = false) (hst : fld s pgGRD GRD_DPLL_STATE = dpllAcquire)
    (hok : pairOk s (fld s pgGRD GRD_ACTIVE_REF) = true) (hp : s.grid.pulled = true) :
    dpllEdge s f e = trackEdge { s with grid := { s.grid with edges := s.grid.edges + 1 } } f e := by
  simp [dpllEdge, hfol, hst, hok, hp]

theorem tracked_err (s : State) (f e : Int) (n : Nat) : fld (tracked s f e n) pgGRD GRD_ERR = unsignedOf 32 e :=
  fld_setFld_of_lt (setFreq s f) pgGRD GRD_ERR _ (by decide) (unsignedOf_lt 32 e)

theorem tracked_off (s : State) (f e : Int) (n : Nat) : fld (tracked s f e n) pgGRD GRD_OFF = unsignedOf 32 f :=
  (fld_setFld_other (setFreq s f) pgGRD pgGRD GRD_ERR GRD_OFF _ (by decide) (by decide)).trans
    (fld_setFld_of_lt s pgGRD GRD_OFF _ (by decide) (unsignedOf_lt 32 f))

theorem only_tracked (s : State) (f e : Int) (n : Nat) : Only [.regs, .grid] s (tracked s f e n) := by
  have corrected : Only [.regs, .grid] s (setFreq s f) := ((only_setFld s _ _ _).mono (by decide)).trans ((only_grid _ _).mono (by decide))
  exact (corrected.trans ((only_setFld _ pgGRD GRD_ERR _).mono (by decide))).trans ((only_grid _ _).mono (by decide))

theorem ppsEdge_locks (s : State) (b : Bool) (f e : Int) (hfol : following s = false) (hactive : fld s pgGRD GRD_ACTIVE_REF = b.toNat)
    (hok : pairOk s b.toNat = true) (hst : fld s pgGRD GRD_DPLL_STATE = dpllAcquire) (hp : s.grid.pulled = true) (hn : s.grid.good = 2)
    (hsec : s.grid.todSec = none) (he : phaseGood (wrapPhase e) = true) (hf : (f - fldS s pgGRD GRD_OFF).natAbs ≤ 10000) :
    Completes (.ppsEdge b f e) s (fun t =>
      fld t pgGRD GRD_DPLL_STATE = dpllLocked ∧
      flagSet t pgGRD GRD_F_LOCK = true ∧
      fld t pgGRD GRD_OFF = unsignedOf 32 f ∧
      fld t pgGRD GRD_ERR = unsignedOf 32 (wrapPhase e) ∧
      t.grid.residual = wrapPhase e ∧
      Only (.grid :: alerts) s t) := by
  obtain ⟨u, hu⟩ : ∃ u : State, u = { s with grid := { s.grid with lastPps := some (elapsed s), edges := s.grid.edges + 1 } } := ⟨_, rfl⟩
  have active : pairOk s (fld s pgGRD GRD_ACTIVE_REF) = true := by rw [hactive, hok]
  have tracks : dpllEdge (edgeTaken s) f (wrapPhase e) = trackEdge u f (wrapPhase e) := hu ▸ dpllEdge_tracks hfol hst active hp
  have locks : trackEdge u f (wrapPhase e) =
      raise (setFld (tracked u f (wrapPhase e) 3) pgGRD GRD_DPLL_STATE dpllLocked) pgGRD GRD_F_LOCK [] := by
    subst hu
    exact trackEdge_locks hst hn he hf
  have hrun := (execPpsEdge_active f e hactive hsec).trans (congrArg Host.Outcome.next (tracks.trans locks))
  have locked := leaves_raise (setFld (tracked u f (wrapPhase e) 3) pgGRD GRD_DPLL_STATE dpllLocked) pgGRD GRD_F_LOCK []
  refine ⟨_, hrun, ?_, flagSet_raise _ _ _ _ (by decide) (by decide) (by decide), ?_, ?_, by simp [tracked, setPhase], ?_⟩
  · rw [locked.fld _ _ (by decide), fld_setFld_of_lt _ _ _ _ (by decide) (by decide)]
  · rw [locked.fld _ _ (by decide), fld_setFld_other _ _ _ _ _ _ (by decide) (by decide), tracked_off]
  · rw [locked.fld _ _ (by decide), fld_setFld_other _ _ _ _ _ _ (by decide) (by decide), tracked_err]
  · have edge : Only [.grid] s u := hu ▸ only_grid s _
    exact (((edge.mono (by decide)).trans ((only_tracked u _ _ _).mono (by decide))).trans ((only_setFld _ _ _ _).mono (by decide))).trans
      (locked.only.mono (by decide))

/-- Settles O6: each transition is the DPLL's choice of a pair on the references as the command leaves them. -/
theorem referencesAndTheDpll : Obligations.ReferencesAndTheDpll := by
  unfold Obligations.ReferencesAndTheDpll
  exact ⟨grefLost_holdover, ppsLost_locked, refQualified_acquire, ppsEdge_measured, ppsEdge_locks⟩

end Sys2Proof.Machine
end

section
/-! PROOF. O7, STEP_CMD and STEP_APPLY: the step that is asked for and the frame that takes it (R35, R36, R356). -/

namespace Sys2Proof.Machine

/-! ### STEP_CMD -/

/-- The commanded step is pending for the frame at the second boundary, and the frame of a step that it replaces keeps empty maps. -/
def stepAsked (s : State) (d : Word) : State :=
  { s with grid := { s.grid with
      step := some ⟨signedOf 24 (bitsOf d 0 24), 0, d.getLsbD 24, (frame s + 2) % frameMod, .command⟩, emptyMaps := replacedSteps s } }

theorem bitsOf_one_eq_getLsbD (d : Word) (i : Nat) : (bitsOf d i 1 == 1) = d.getLsbD i := by
  have hone : (bitsOf d i 1).testBit 0 = d.getLsbD i := by rw [testBit_bitsOf]; simp [BitVec.testBit_toNat]
  have hlt := bitsOf_lt d i 1
  rw [← hone]
  generalize bitsOf d i 1 = v at *
  interval_cases v <;> rfl

theorem stepCmd_pending (s : State) (o : Origin) (d : Word) (h : addrReject s o (pgGRD + GRD_STEP_FINE.off) = none)
    (hn : (signedOf 24 (bitsOf d 0 24)).natAbs ≤ finePerFrame / 2) :
    Completes (.stepCmd o d) s (fun t =>
      t.grid.step = some ⟨signedOf 24 (bitsOf d 0 24), 0, d.getLsbD 24, (frame s + 2) % frameMod, .command⟩ ∧
      t.grid.frameLen = s.grid.frameLen ∧
      t.grid.now = s.grid.now ∧
      Answered s t o 0 (pgGRD + GRD_STEP_FINE.off) ∧
      RegsOnly bookPages [] s t ∧
      Only (.grid :: books) s t) := by
  refine completes_command (u := stepAsked s d) (c := 0) rfl h ?_ rfl rfl (fun t answered recorded hgrid => ?_)
  · rw [stepAsked, ← bitsOf_one_eq_getLsbD]
    exact if_pos hn
  · have leaves : Leaves ⟨.grid :: books, recordFoot.spans⟩ s t :=
      ((leaves_grid s _).mono (by decide)).andThen recorded (by decide)
    rw [hgrid]
    exact ⟨rfl, rfl, rfl, answered, leaves.record_regsOnly, leaves.only⟩

theorem stepCmd_tooLarge (s : State) (o : Origin) (d : Word) (h : addrReject s o (pgGRD + GRD_STEP_FINE.off) = none)
    (hn : finePerFrame / 2 < (signedOf 24 (bitsOf d 0 24)).natAbs) :
    Completes (.stepCmd o d) s (fun t =>
      Answered s t o 1 (pgGRD + GRD_STEP_FINE.off) ∧
      RegsOnly bookPages [] s t ∧
      Only books s t) := by
  refine completes_command (u := s) rfl h (if_neg (by omega)) rfl rfl (fun t answered recorded _ => ?_)
  exact ⟨answered, recorded.record_regsOnly, recorded.only⟩

/-! ### What applying a step touches -/

theorem only_lateAction (s : State) (b : Nat) : Only alerts s (lateAction s b) :=
  ((leaves_post s b _ _).only.mono (by simp [Foot.add, eventFoot])).trans ((only_flag _ _ _).mono (by decide))

theorem only_ch (s : State) (l : Tbl ChSt) : Only [.ch] s { s with pon := { s.pon with ch := l } } := by
  intro p hp
  cases p
  case ch => simp at hp
  all_goals rfl

/-- The parts that a stepped frame touches beside the grid. -/
def stepParts : List Part := .ch :: alerts

theorem only_stepFrame (n : Int) (s : State) (k : Nat) : Only stepParts s (stepFrame n s k) := by
  have cut : Only stepParts s (setChSt s (k / 3) (k % 3) { chSt s (k / 3) (k % 3) with
      superframe := superframeOf (k % 3) (frame s), cut := n }) := (only_ch s _).mono (by decide)
  unfold stepFrame
  dsimp only
  split
  · exact cut.trans ((only_bump _ _ _ _).mono (by decide))
  · exact cut

theorem grid_stepFrame (n : Int) (s : State) (k : Nat) : (stepFrame n s k).grid = s.grid := only_stepFrame n s k .grid (by decide)

theorem only_applyStep (s : State) (r : StepReq) : Only (.grid :: stepParts) s (applyStep s r) :=
  (((only_grid s _).mono (by decide)).trans
    (only_foldl _ (fun t (a : Action) => (only_lateAction t a.base).mono (by decide)) _ _)).trans
    (only_foldl _ (fun t k => (only_stepFrame r.fine t k).mono (by decide)) _ _)

theorem grid_lateAction (s : State) (b : Nat) : (lateAction s b).grid = s.grid := only_lateAction s b .grid (by decide)

/-- The frame that begins takes its length from the step; its position stays at the boundary. -/
theorem applyStep_grid (s : State) (r : StepReq) :
    (applyStep s r).grid.frameLen = ((finePerFrame : Int) + r.fine).toNat ∧ (applyStep s r).grid.step = s.grid.step ∧
      (applyStep s r).grid.now.tick = s.grid.now.tick := by
  have late : ∀ (l : List Action) (t : State), (l.foldl (fun s a => lateAction s a.base) t).grid = t.grid :=
    foldl_keeps (fun t : State => t.grid) _ (fun u a => grid_lateAction u a.base)
  unfold applyStep
  dsimp only
  rw [foldl_keeps (fun t : State => t.grid) _ (grid_stepFrame r.fine), late]
  exact ⟨rfl, rfl, rfl⟩

/-! ### STEP_APPLY -/

/-- The step is pending no more. -/
def stepTaken (s : State) : State := { s with grid := { s.grid with step := none } }

theorem stepApply_applies (s : State) (r : StepReq) (hstep : s.grid.step = some r) (hf : frame s = r.frame) (htick : s.grid.now.tick = 0)
    (hfine : s.grid.now.fine = 0) (hop : isSet s pgGRD GRD_ONU_IN_OP = false ∨ r.force = true) (_ : r.jump = 0) :
    Completes (.stepApply) s (fun t =>
      t.grid.frameLen = ((finePerFrame : Int) + r.fine).toNat ∧
      t.grid.step = none ∧
      t.grid.now.tick = 0 ∧
      flagSet t pgGRD GRD_F_STEP_DONE = true ∧
      Only (.grid :: .ch :: alerts) s t) := by
  have hrun : exec .stepApply s = .next (post (flag (applyStep (stepTaken s) r) pgGRD GRD_F_STEP_DONE) pgGRD
      (.stepDone (isSet s pgGRD GRD_ONU_IN_OP && r.force)) []) := by
    show execStepApply s = _
    simp only [execStepApply, hstep]
    rw [if_pos ⟨hf, htick, hfine⟩, if_pos (by rcases hop with h | h <;> simp [h])]
    rfl
  obtain ⟨hlen, hnone, hnow⟩ := applyStep_grid (stepTaken s) r
  have hgrid (c : EvCode) : (post (flag (applyStep (stepTaken s) r) pgGRD GRD_F_STEP_DONE) pgGRD c []).grid =
      (applyStep (stepTaken s) r).grid := by simp
  refine ⟨_, hrun, by rw [hgrid, hlen], by rw [hgrid, hnone]; rfl, by rw [hgrid, hnow]; exact htick,
    flagSet_post_flag _ _ _ _ _ (by decide) (by decide) (by decide), ?_⟩
  exact ((((only_grid s _).mono (by decide)).trans (only_applyStep _ r)).trans ((only_flag _ _ _).mono (by decide))).trans
    ((leaves_post _ _ _ _).only.mono (by decide))

theorem stepApply_rejected (s : State) (r : StepReq) (hstep : s.grid.step = some r) (hf : frame s = r.frame) (htick : s.grid.now.tick = 0)
    (hfine : s.grid.now.fine = 0) (hop : isSet s pgGRD GRD_ONU_IN_OP = true) (hforce : r.force = false) (hby : r.by_ = .command) :
    Completes (.stepApply) s (fun t =>
      t.grid.frameLen = s.grid.frameLen ∧
      t.grid.step = none ∧
      t.grid.now = s.grid.now ∧
      flagSet t pgGRD GRD_F_STEP_REJECT = true ∧
      Only (.grid :: alerts) s t) := by
  have hrun : exec .stepApply s = .next (raise (stepTaken s) pgGRD GRD_F_STEP_REJECT []) := by
    show execStepApply s = _
    simp only [execStepApply, hstep]
    rw [if_pos ⟨hf, htick, hfine⟩, if_neg (by simp [hop, hforce]), hby]
    rfl
  refine ⟨_, hrun, by simp [stepTaken], by simp [stepTaken], by simp [stepTaken],
    flagSet_raise _ _ _ _ (by decide) (by decide) (by decide), ?_⟩
  exact ((only_grid s _).mono (by decide)).trans ((leaves_raise _ _ _ _).only.mono (by decide))

end Sys2Proof.Machine
end

section
/-! PROOF. O7, the reads of the grid, and its assembly (R40, R41, R50, R51). -/

namespace Sys2Proof.Machine

/-! ### Registers that hold a position -/

/-- A field below the top of the word stands in its own bits: another word, or bits that do not meet. -/
@[reducible] def Fld.Apart (b : Nat) (f g : Fld) : Prop :=
  f.lsb + f.width ≤ 32 ∧ (b + g.off ≠ b + f.off ∨ g.lsb + g.width ≤ f.lsb ∨ f.lsb + f.width ≤ g.lsb)

theorem fld_setFld_apart (s : State) {b : Nat} {f g : Fld} (v : Nat) (h : f.Apart b g) : fld (setFld s b f v) b g = fld s b g :=
  fld_setFld_other s b b f g v h.1 h.2

theorem fld_setBit_apart (s : State) {b : Nat} {f g : Fld} (v : Bool) (h : f.Apart b g) : fld (setBit s b f v) b g = fld s b g :=
  fld_setFld_apart s _ h

/-- The four fields of a position, each apart from those stored after it. -/
@[reducible] def PosFields (b : Nat) (fine tick lo hi : Fld) : Prop :=
  hi.lsb + hi.width ≤ 32 ∧ hi.Apart b lo ∧ hi.Apart b tick ∧ hi.Apart b fine ∧ lo.Apart b tick ∧ lo.Apart b fine ∧ tick.Apart b fine ∧
  fine.lsb + fine.width ≤ 32

theorem latchPos_reads (s : State) {b : Nat} {fine tick lo hi : Fld} (p : Pos) (h : PosFields b fine tick lo hi) :
    fld (latchPos s b fine tick lo hi p) b fine = p.fine % 2 ^ fine.width ∧
    fld (latchPos s b fine tick lo hi p) b tick = p.tick % 2 ^ tick.width ∧
    fld (latchPos s b fine tick lo hi p) b lo = p.frame % 2 ^ lo.width ∧
    fld (latchPos s b fine tick lo hi p) b hi = p.frame / 2 ^ 32 % 2 ^ hi.width := by
  obtain ⟨hhi, hhilo, hhitick, hhifine, hlotick, hlofine, htickfine, hfine⟩ := h
  unfold latchPos
  refine ⟨?_, ?_, ?_, fld_setFld_same _ _ _ _ hhi⟩
  · rw [fld_setFld_apart _ _ hhifine, fld_setFld_apart _ _ hlofine, fld_setFld_apart _ _ htickfine, fld_setFld_same _ _ _ _ hfine]
  · rw [fld_setFld_apart _ _ hhitick, fld_setFld_apart _ _ hlotick, fld_setFld_same _ _ _ _ htickfine.1]
  · rw [fld_setFld_apart _ _ hhilo, fld_setFld_same _ _ _ _ hlofine.1]

theorem only_latchPos (s : State) (b : Nat) (fine tick lo hi : Fld) (p : Pos) : Only [.regs] s (latchPos s b fine tick lo hi p) :=
  (((only_setFld s _ _ _).trans (only_setFld _ _ _ _)).trans (only_setFld _ _ _ _)).trans (only_setFld _ _ _ _)

/-! ### NOW_READ, TOD_NOW_READ, NS_NOW_READ -/

/-- NOW with a snapshot and its STABLE. -/
def nowLatched (s : State) (r : Pos × Bool) : State :=
  setBit (setBit (latchPos s pgGRD GRD_FINE GRD_TICK GRD_FRAME_LO GRD_FRAME_HI r.1) pgGRD GRD_STABLE r.2) pgGRD GRD_RETRY_FAIL (!r.2)

theorem nowRead_latches (s : State) (o : Origin) (l : List (Pos × Pos)) (h : (reach s o (pgGRD + GRD_FINE.off)).isSome = true) :
    Completes (.nowRead o l) s (fun t =>
      fld t pgGRD GRD_FINE = (snapshot s l).1.fine % 2 ^ GRD_FINE.width ∧
      fld t pgGRD GRD_TICK = (snapshot s l).1.tick % 2 ^ GRD_TICK.width ∧
      fld t pgGRD GRD_FRAME_LO = (snapshot s l).1.frame % 2 ^ 32 ∧
      fld t pgGRD GRD_FRAME_HI = (snapshot s l).1.frame / 2 ^ 32 % 2 ^ GRD_FRAME_HI.width ∧
      isSet t pgGRD GRD_STABLE = (snapshot s l).2 ∧
      t.bus.data = reg t (pgGRD + GRD_FINE.off) ∧
      Only [.regs, .access] s t) := by
  refine completes_readAccess (u := nowLatched s (snapshot s l)) rfl h rfl (fun t read hdata => ?_)
  obtain ⟨hfine, htick, hlo, hhi⟩ := latchPos_reads s (snapshot s l).1
    (show PosFields pgGRD GRD_FINE GRD_TICK GRD_FRAME_LO GRD_FRAME_HI by decide)
  have beside (g : Fld) (h1 : GRD_RETRY_FAIL.Apart pgGRD g) (h2 : GRD_STABLE.Apart pgGRD g) :
      fld t pgGRD g = fld (latchPos s pgGRD GRD_FINE GRD_TICK GRD_FRAME_LO GRD_FRAME_HI (snapshot s l).1) pgGRD g := by
    rw [read.everyFld, nowLatched, fld_setBit_apart _ _ h1, fld_setBit_apart _ _ h2]
  refine ⟨(beside _ (by decide) (by decide)).trans hfine, (beside _ (by decide) (by decide)).trans htick,
    (beside _ (by decide) (by decide)).trans hlo, (beside _ (by decide) (by decide)).trans hhi, ?_, ?_, ?_⟩
  · rw [isSet, read.everyFld, nowLatched, fld_setBit_apart _ _ (by decide)]
    exact isSet_setBit_same _ _ _ _ (by decide) (by decide)
  · rw [hdata, read.reg _ (by simp)]
    rfl
  · have latched : Only [.regs] s (nowLatched s (snapshot s l)) :=
      ((only_latchPos s _ _ _ _ _ _).trans (only_setBit _ _ _ _)).trans (only_setBit _ _ _ _)
    exact (latched.mono (by decide)).trans (read.only.mono (by decide))

/-- TOD_NOW with a time of day. -/
def todLatched (s : State) (t : ToD) : State :=
  setFld (setFld (setFld (setFld s pgTOD TOD_FRAC t.frac) pgTOD TOD_NS t.ns) pgTOD TOD_SEC_LO t.sec) pgTOD TOD_SEC_HI (t.sec / 2 ^ 32)

theorem todLatched_reads (s : State) (t : ToD) :
    fld (todLatched s t) pgTOD TOD_FRAC = t.frac % 2 ^ TOD_FRAC.width ∧ fld (todLatched s t) pgTOD TOD_NS = t.ns % 2 ^ TOD_NS.width ∧
    fld (todLatched s t) pgTOD TOD_SEC_LO = t.sec % 2 ^ 32 ∧ fld (todLatched s t) pgTOD TOD_SEC_HI = t.sec / 2 ^ 32 % 2 ^ TOD_SEC_HI.width := by
  unfold todLatched
  refine ⟨?_, ?_, ?_, fld_setFld_same _ _ _ _ (by decide)⟩
  · rw [fld_setFld_apart _ _ (by decide), fld_setFld_apart _ _ (by decide), fld_setFld_apart _ _ (by decide), fld_setFld_same _ _ _ _ (by decide)]
  · rw [fld_setFld_apart _ _ (by decide), fld_setFld_apart _ _ (by decide), fld_setFld_same _ _ _ _ (by decide)]
  · rw [fld_setFld_apart _ _ (by decide)]
    exact fld_setFld_same _ _ _ _ (by decide)

theorem todNowRead_latches (s : State) (o : Origin) (l : List (Pos × Pos)) (h : (reach s o (pgTOD + TOD_FRAC.off)).isSome = true) :
    Completes (.todNowRead o l) s (fun t =>
      fld t pgTOD TOD_FRAC = (todAt s.grid.base (snapshot s l).1).frac % 2 ^ TOD_FRAC.width ∧
      fld t pgTOD TOD_NS = (todAt s.grid.base (snapshot s l).1).ns % 2 ^ TOD_NS.width ∧
      fld t pgTOD TOD_SEC_LO = (todAt s.grid.base (snapshot s l).1).sec % 2 ^ 32 ∧
      fld t pgTOD TOD_SEC_HI = (todAt s.grid.base (snapshot s l).1).sec / 2 ^ 32 % 2 ^ TOD_SEC_HI.width ∧
      t.bus.data = reg t (pgTOD + TOD_FRAC.off) ∧
      Only [.regs, .access] s t) := by
  refine completes_readAccess (u := todLatched s (todAt s.grid.base (snapshot s l).1)) rfl h rfl (fun t read hdata => ?_)
  obtain ⟨hfrac, hns, hlo, hhi⟩ := todLatched_reads s (todAt s.grid.base (snapshot s l).1)
  have latched : Only [.regs] s (todLatched s (todAt s.grid.base (snapshot s l).1)) :=
    (((only_setFld s _ _ _).trans (only_setFld _ _ _ _)).trans (only_setFld _ _ _ _)).trans (only_setFld _ _ _ _)
  simp only [read.everyFld, read.reg _ (by simp)]
  exact ⟨hfrac, hns, hlo, hhi, hdata, (latched.mono (by decide)).trans (read.only.mono (by decide))⟩

/-- NS_NOW with a nanosecond count. -/
def nsLatched (s : State) (n : Nat) : State := setFld (setFld s pgCAP CAP_NS_LO n) pgCAP CAP_NS_HI (n / 2 ^ 32)

theorem nsLatched_reads (s : State) (n : Nat) :
    fld (nsLatched s n) pgCAP CAP_NS_LO = n % 2 ^ 32 ∧ fld (nsLatched s n) pgCAP CAP_NS_HI = n / 2 ^ 32 % 2 ^ CAP_NS_HI.width := by
  unfold nsLatched
  refine ⟨?_, fld_setFld_same _ _ _ _ (by decide)⟩
  rw [fld_setFld_apart _ _ (by decide)]
  exact fld_setFld_same _ _ _ _ (by decide)

theorem nsNowRead_latches (s : State) (o : Origin) (l : List (Pos × Pos)) (h : (reach s o (pgCAP + CAP_NS_LO.off)).isSome = true) :
    Completes (.nsNowRead o l) s (fun t =>
      fld t pgCAP CAP_NS_LO = nsAt (snapshot s l).1 % 2 ^ 32 ∧
      fld t pgCAP CAP_NS_HI = nsAt (snapshot s l).1 / 2 ^ 32 % 2 ^ CAP_NS_HI.width ∧
      t.bus.data = reg t (pgCAP + CAP_NS_LO.off) ∧
      Only [.regs, .access] s t) := by
  refine completes_readAccess (u := nsLatched s (nsAt (snapshot s l).1)) rfl h rfl (fun t read hdata => ?_)
  obtain ⟨hlo, hhi⟩ := nsLatched_reads s (nsAt (snapshot s l).1)
  have latched : Only [.regs] s (nsLatched s (nsAt (snapshot s l).1)) := (only_setFld s _ _ _).trans (only_setFld _ _ _ _)
  simp only [read.everyFld, read.reg _ (by simp)]
  exact ⟨hlo, hhi, hdata, (latched.mono (by decide)).trans (read.only.mono (by decide))⟩

/-! ### CAP_FIFO_READ -/

/-- The FIFO of an input after its oldest entry was popped, with the fill that it shows. -/
def capPopped (s : State) (i : Nat) (q : List Cap) : State :=
  setFld { s with grid := { s.grid with capFifo := tset dnil s.grid.capFifo i q } } pgCAP (CAP_FILL.at i) q.length

/-- The registers of the popped entry. -/
def capShown (s : State) (c : Cap) : State :=
  setBit (setFld (latchPos s pgCAP CAP_FINE CAP_TICK CAP_FRAME_LO CAP_FRAME_HI c.pos) pgCAP CAP_VALID 1) pgCAP CAP_POL c.rising

theorem capShown_reads (s : State) (c : Cap) :
    isSet (capShown s c) pgCAP CAP_VALID = true ∧ isSet (capShown s c) pgCAP CAP_POL = c.rising ∧
    fld (capShown s c) pgCAP CAP_TICK = c.pos.tick % 2 ^ CAP_TICK.width ∧ fld (capShown s c) pgCAP CAP_FINE = c.pos.fine % 2 ^ CAP_FINE.width := by
  obtain ⟨hfine, htick, -, -⟩ := latchPos_reads s c.pos (show PosFields pgCAP CAP_FINE CAP_TICK CAP_FRAME_LO CAP_FRAME_HI by decide)
  unfold capShown
  refine ⟨?_, isSet_setBit_same _ _ _ _ (by decide) (by decide), ?_, ?_⟩
  · rw [isSet, fld_setBit_apart _ _ (by decide), fld_setFld_of_lt _ _ _ _ (by decide) (by decide)]
    rfl
  · rw [fld_setBit_apart _ _ (by decide), fld_setFld_apart _ _ (by decide), htick]
  · rw [fld_setBit_apart _ _ (by decide), fld_setFld_apart _ _ (by decide), hfine]

/-- The span of FIFO_0 to FIFO_2. -/
def capSpan : Span := (pgCAP + 0x94, pgCAP + 0xA0)

theorem leaves_capShown (s : State) (c : Cap) : Leaves ⟨[.regs], [capSpan]⟩ s (capShown s c) := by
  have stored (t : State) (f : Fld) (v : Nat) (h : 0x94 ≤ f.off ∧ f.off < 0xA0) : Leaves ⟨[.regs], [capSpan]⟩ t (setFld t pgCAP f v) :=
    leaves_setFld_in t pgCAP f v h
  exact (((((stored s CAP_FINE _ (by decide)).trans (stored _ CAP_TICK _ (by decide))).trans (stored _ CAP_FRAME_LO _ (by decide))).trans
    (stored _ CAP_FRAME_HI _ (by decide))).trans (stored _ CAP_VALID _ (by decide))).trans (stored _ CAP_POL _ (by decide))

theorem off_capSpan_fill : ∀ i : Fin 10, Off [capSpan] (pgCAP + (CAP_FILL.at i).off) := by decide

theorem capPopped_fill (s : State) (i : Nat) (q : List Cap) :
    fld (capPopped s i q) pgCAP (CAP_FILL.at i) = q.length % 2 ^ CAP_FILL.width :=
  fld_setFld_same _ pgCAP (CAP_FILL.at i) _ (show 0 + 5 ≤ 32 by decide)

theorem only_capPopped (s : State) (i : Nat) (q : List Cap) : Only [.regs, .grid] s (capPopped s i q) :=
  ((only_grid s _).mono (by decide)).trans ((only_setFld _ _ _ _).mono (by decide))

theorem capPopped_fifo (s : State) (i : Nat) (q : List Cap) : (capPopped s i q).grid.capFifo = tset dnil s.grid.capFifo i q := by
  simp [capPopped]

theorem capFifoRead_pops (s : State) (o : Origin) (i : Fin 10) (c : Cap) (q : List Cap)
    (h : (reach s o (pgCAP + CAP_FINE.off)).isSome = true) (hi : fld s pgCAP CAP_INPUT = i.val) (hq : tget dnil s.grid.capFifo i = c :: q) :
    Completes (.capFifoRead o) s (fun t =>
      tget dnil t.grid.capFifo i = q ∧
      TblOnly dnil i s.grid.capFifo t.grid.capFifo ∧
      fld t pgCAP (CAP_FILL.at i) = q.length % 2 ^ CAP_FILL.width ∧
      isSet t pgCAP CAP_VALID = true ∧
      isSet t pgCAP CAP_POL = c.rising ∧
      fld t pgCAP CAP_TICK = c.pos.tick % 2 ^ CAP_TICK.width ∧
      fld t pgCAP CAP_FINE = c.pos.fine % 2 ^ CAP_FINE.width ∧
      Only [.regs, .access, .grid] s t) := by
  refine completes_readAccess (u := capShown (capPopped s i q) c) rfl h (by simp only [hi, if_pos i.isLt, hq]; rfl) (fun t read _ => ?_)
  have shown := leaves_capShown (capPopped s i q) c
  obtain ⟨hvalid, hpol, htick, hfine⟩ := capShown_reads (capPopped s i q) c
  have grid : t.grid = (capPopped s i q).grid := (read.only .grid (by decide)).trans (shown.only .grid (by decide))
  simp only [grid, capPopped_fifo, isSet, read.everyFld]
  refine ⟨tget_tset_same _ _ _ _, fun j hj => tget_tset_other _ _ _ _ _ hj, ?_, hvalid, hpol, htick, hfine, ?_⟩
  · rw [shown.fld _ _ (off_capSpan_fill i), capPopped_fill]
  · exact (((only_capPopped s i q).mono (by decide)).trans (shown.only.mono (by decide))).trans (read.only.mono (by decide))

/-- Settles O7: the grid's step command, its application, and the reads that latch one snapshot. -/
theorem stepsAndReadsOfTheGrid : Obligations.StepsAndReadsOfTheGrid := by
  unfold Obligations.StepsAndReadsOfTheGrid
  exact ⟨stepCmd_pending, stepCmd_tooLarge, stepApply_applies, stepApply_rejected, nowRead_latches, todNowRead_latches, nsNowRead_latches,
    capFifoRead_pops⟩

end Sys2Proof.Machine
end

section
/-! PROOF. O8: the base of the time of day, its messages, and capture edges (R42 to R44, R51). -/

namespace Sys2Proof.Machine

/-! ### The base (R42) -/

/-- The base in the base registers. -/
def writtenBase (s : State) : ToDBase :=
  ⟨fld s pgTOD TOD_BASE_FRAME_LO + fld s pgTOD TOD_BASE_FRAME_HI * 2 ^ 32,
    ⟨fld s pgTOD TOD_BASE_SEC_LO + fld s pgTOD TOD_BASE_SEC_HI * 2 ^ 32, fld s pgTOD TOD_BASE_NS, fld s pgTOD TOD_BASE_FRAC⟩⟩

/-- The written base is pending for the next frame. -/
def baseAsked (s : State) : State := { s with grid := { s.grid with baseNext := some ((frame s + 1) % frameMod, writtenBase s) } }

theorem baseCommit_pending (s : State) (o : Origin) (d : Word) (h : addrReject s o (pgTOD + TOD_BASE_COMMIT.off) = none)
    (hd : bitsOf d 0 1 = 1) (hns : fld s pgTOD TOD_BASE_NS ≤ 999999999) :
    Completes (.baseCommit o d) s (fun t =>
      t.grid.baseNext = some ((frame s + 1) % frameMod, writtenBase s) ∧
      t.grid.base = s.grid.base ∧
      t.grid.now = s.grid.now ∧
      Answered s t o 0 (pgTOD + TOD_BASE_COMMIT.off) ∧
      RegsOnly bookPages [] s t ∧
      Only (.grid :: books) s t) := by
  refine completes_command (u := baseAsked s) (c := 0) rfl h ?_ rfl rfl (fun t answered recorded hgrid => ?_)
  · exact (if_neg (by omega)).trans (if_neg (by omega))
  · have leaves : Leaves ⟨.grid :: books, recordFoot.spans⟩ s t := ((leaves_grid s _).mono (by decide)).andThen recorded (by decide)
    rw [hgrid]
    exact ⟨rfl, rfl, rfl, answered, leaves.record_regsOnly, leaves.only⟩

/-- A base is in force, and none is pending. -/
def baseTaken (s : State) (b : ToDBase) : State := { s with grid := { s.grid with baseNext := none, base := b } }

theorem todBaseApply_sets (s : State) (f : Nat) (b : ToDBase) (hnext : s.grid.baseNext = some (f, b)) (hf : f ≤ frame s)
    (hb : s.grid.base ≠ b) :
    Completes (.todBaseApply) s (fun t =>
      t.grid.base = b ∧
      t.grid.baseNext = none ∧
      t.grid.now = s.grid.now ∧
      flagSet t pgTOD TOD_F_BASE_SET = true ∧
      Only [.regs, .pmc, .grid] s t) := by
  have hrun : exec .todBaseApply s = .next (flag (baseTaken s b) pgTOD TOD_F_BASE_SET) := by
    show execTodBaseApply s = _
    simp only [execTodBaseApply, hnext, if_pos hf, setBase, if_neg hb]
    rfl
  refine ⟨_, hrun, by simp [baseTaken], by simp [baseTaken], by simp [baseTaken], flagSet_flag _ _ _ (by decide) (by decide) (by decide), ?_⟩
  exact ((only_grid s _).mono (by decide)).trans ((only_flag _ _ _).mono (by decide))

/-! ### Messages (R43, R44) -/

theorem execTodMessage_badCrc {s : State} {m : List Byte} (hen : isSet s pgTOD TOD_TOD_IN_EN = true) (hlen : m.length = 16)
    (hsync : beNat (m.take 2) = 0x4A57) (hl : byteAt m 2 = 10) (hcrc : crc16 ((m.drop 2).take 12) ≠ beNat (m.drop 14)) :
    execTodMessage m s = .next (flag s pgTOD TOD_F_MSG_CRC) := by simp [execTodMessage, hen, hlen, hsync, hl, hcrc]

theorem execTodMessage_good {s : State} {m : List Byte} (hen : isSet s pgTOD TOD_TOD_IN_EN = true) (hlen : m.length = 16)
    (hsync : beNat (m.take 2) = 0x4A57) (hl : byteAt m 2 = 10) (htype : byteAt m 3 = 1)
    (hcrc : crc16 ((m.drop 2).take 12) = beNat (m.drop 14)) (hwin : inTodWindow s = true) :
    execTodMessage m s = .next (takeTodMessage s m) := by simp [execTodMessage, hen, hlen, hsync, hl, htype, hcrc, hwin]

/-- The UTC data of a message. -/
def utcTaken (s : State) (m : List Byte) : State :=
  setFld (setFld (setFld (setFld s pgTOD TOD_OFFSET (beNat ((m.drop 10).take 2))) pgTOD TOD_LEAP (byteAt m 12 % 4)) pgTOD TOD_TRACEABLE
    (byteAt m 12 / 4 % 2)) pgTOD TOD_VALID 1

theorem utcTaken_reads (s : State) (m : List Byte) :
    fld (utcTaken s m) pgTOD TOD_OFFSET = beNat ((m.drop 10).take 2) % 2 ^ TOD_OFFSET.width ∧
    fld (utcTaken s m) pgTOD TOD_LEAP = byteAt m 12 % 4 ∧ fld (utcTaken s m) pgTOD TOD_VALID = 1 := by
  unfold utcTaken
  refine ⟨?_, ?_, fld_setFld_of_lt _ _ _ _ (by decide) (by decide)⟩
  · rw [fld_setFld_apart _ _ (by decide), fld_setFld_apart _ _ (by decide), fld_setFld_apart _ _ (by decide), fld_setFld_same _ _ _ _ (by decide)]
  · rw [fld_setFld_apart _ _ (by decide), fld_setFld_apart _ _ (by decide)]
    exact fld_setFld_of_lt _ _ _ _ (by decide) (Nat.mod_lt _ (by decide))

theorem only_utcTaken (s : State) (m : List Byte) : Only [.regs] s (utcTaken s m) :=
  (((only_setFld s _ _ _).trans (only_setFld _ _ _ _)).trans (only_setFld _ _ _ _)).trans (only_setFld _ _ _ _)

/-- What a message touches besides the UTC data: the mismatch count, the seconds named, and MSG_MISMATCH. -/
def mismatchFoot : Foot :=
  ⟨[.regs, .pmc, .grid], [pmcSpan, wordSpan (pgTOD + TOD_F_MSG_MISMATCH.off), wordSpan (pgTOD + TOD_F_MSG_MISMATCH.cntOff)]⟩

theorem leaves_takeTodMessage (s : State) (m : List Byte) : Leaves mismatchFoot (utcTaken s m) (takeTodMessage s m) := by
  unfold takeTodMessage
  dsimp only
  refine .ite (fun _ => ?_) (fun _ => ?_)
  · exact (leaves_grid (utcTaken s m) _).mono (by decide)
  · exact ((leaves_flag (utcTaken s m) pgTOD TOD_F_MSG_MISMATCH).mono (by decide)).andThen (leaves_grid _ _) (by decide)

theorem takeTodMessage_grid (s : State) (m : List Byte) :
    (takeTodMessage s m).grid.now = s.grid.now ∧ (takeTodMessage s m).grid.base = s.grid.base := by
  unfold takeTodMessage
  dsimp only
  split <;> simp

theorem todMessage_taken (s : State) (m : List Byte) (hen : isSet s pgTOD TOD_TOD_IN_EN = true) (hlen : m.length = 16)
    (hsync : beNat (m.take 2) = 0x4A57) (hl : byteAt m 2 = 10) (htype : byteAt m 3 = 1)
    (hcrc : crc16 ((m.drop 2).take 12) = beNat (m.drop 14)) (hwin : inTodWindow s = true) :
    Completes (.todMessage m) s (fun t =>
      fld t pgTOD TOD_OFFSET = beNat ((m.drop 10).take 2) % 2 ^ TOD_OFFSET.width ∧
      fld t pgTOD TOD_LEAP = byteAt m 12 % 4 ∧
      fld t pgTOD TOD_VALID = 1 ∧
      t.grid.now = s.grid.now ∧
      t.grid.base = s.grid.base ∧
      Only [.regs, .pmc, .grid] s t) := by
  obtain ⟨hoffset, hleap, hvalid⟩ := utcTaken_reads s m
  obtain ⟨hnow, hbase⟩ := takeTodMessage_grid s m
  have rest := leaves_takeTodMessage s m
  refine ⟨_, execTodMessage_good hen hlen hsync hl htype hcrc hwin, ?_, ?_, ?_, hnow, hbase, ((only_utcTaken s m).mono (by decide)).trans rest.only⟩
  · rw [rest.fld _ _ (by decide), hoffset]
  · rw [rest.fld _ _ (by decide), hleap]
  · rw [rest.fld _ _ (by decide), hvalid]

theorem todMessage_badCrc (s : State) (m : List Byte) (hen : isSet s pgTOD TOD_TOD_IN_EN = true) (hlen : m.length = 16)
    (hsync : beNat (m.take 2) = 0x4A57) (hl : byteAt m 2 = 10) (hcrc : crc16 ((m.drop 2).take 12) ≠ beNat (m.drop 14)) :
    Completes (.todMessage m) s (fun t =>
      flagSet t pgTOD TOD_F_MSG_CRC = true ∧
      t.grid = s.grid ∧
      RegsOnly [pgPMC] [pgTOD + TOD_F_MSG_CRC.off, pgTOD + TOD_F_MSG_CRC.cntOff] s t ∧
      Only [.regs, .pmc] s t) :=
  ⟨_, execTodMessage_badCrc hen hlen hsync hl hcrc, flagSet_flag _ _ _ (by decide) (by decide) (by decide), by simp,
    (leaves_flag s pgTOD TOD_F_MSG_CRC).regsOnly _ _ (by decide), only_flag _ _ _⟩

/-! ### Capture (R51) -/

/-- An edge enters its position in the FIFO of its input, which shows the new fill. -/
def captureEntered (s : State) (i : Nat) (r : Bool) : State :=
  let q := tget dnil s.grid.capFifo i
  setFld { s with grid := { s.grid with
      capFifo := tset dnil s.grid.capFifo i (q ++ [⟨now s, r⟩]), capLast := tset dnone s.grid.capLast i (some (elapsed s)) } }
    pgCAP (CAP_FILL.at i) (q.length + 1)

theorem execCaptureEdge_enters {s : State} {i : Fin 10} {r : Bool}
    (hedge : bitAt (fld s pgCAP (CAP_EDGE.at i)) (if r then 0 else 1) = true) (hroom : (tget dnil s.grid.capFifo i).length < capFifoMax)
    (hfar : ∀ p, tget dnone s.grid.capLast i = some p → p + 8 * finePerGt ≤ elapsed s) :
    execCaptureEdge i r s = .next (if isSet s pgCAP (CAP_EVT_EN.at i) then
      post (captureEntered s i r) pgCAP .capture [i] else captureEntered s i r) := by
  unfold execCaptureEdge
  dsimp only
  rw [if_neg (by simp [hedge]), if_neg ?far, if_neg (by omega)]
  case far =>
    split
    · exact Bool.false_ne_true
    · rename_i p hp
      have := hfar p hp
      simp only [decide_eq_true_eq]
      omega
  rfl

theorem captureEntered_fill (s : State) (i : Nat) (r : Bool) :
    fld (captureEntered s i r) pgCAP (CAP_FILL.at i) = ((tget dnil s.grid.capFifo i).length + 1) % 2 ^ CAP_FILL.width :=
  fld_setFld_same _ pgCAP (CAP_FILL.at i) _ (show 0 + 5 ≤ 32 by decide)

theorem captureEntered_grid (s : State) (i : Nat) (r : Bool) :
    (captureEntered s i r).grid.capFifo = tset dnil s.grid.capFifo i (tget dnil s.grid.capFifo i ++ [⟨now s, r⟩]) ∧
    (captureEntered s i r).grid.now = s.grid.now := by simp [captureEntered]

theorem only_captureEntered (s : State) (i : Nat) (r : Bool) : Only [.regs, .grid] s (captureEntered s i r) :=
  ((only_grid s _).mono (by decide)).trans ((only_setFld _ _ _ _).mono (by decide))

/-- What the event of a capture touches. -/
def captureFoot : Foot := eventFoot.add (wordSpan (pgCAP + ANY_EVT_SEQ.off))

theorem off_captureFoot_fill : ∀ i : Fin 10, Off captureFoot.spans (pgCAP + (CAP_FILL.at i).off) := by decide

theorem captureEdge_enters (s : State) (i : Fin 10) (r : Bool)
    (hedge : bitAt (fld s pgCAP (CAP_EDGE.at i)) (if r then 0 else 1) = true) (hroom : (tget dnil s.grid.capFifo i).length < capFifoMax)
    (hfar : ∀ p, tget dnone s.grid.capLast i = some p → p + 8 * finePerGt ≤ elapsed s) :
    Completes (.captureEdge i r) s (fun t =>
      tget dnil t.grid.capFifo i = tget dnil s.grid.capFifo i ++ [⟨now s, r⟩] ∧
      TblOnly dnil i s.grid.capFifo t.grid.capFifo ∧
      fld t pgCAP (CAP_FILL.at i) = ((tget dnil s.grid.capFifo i).length + 1) % 2 ^ CAP_FILL.width ∧
      t.grid.now = s.grid.now ∧
      Only (.grid :: alerts) s t) := by
  obtain ⟨t, ht, told⟩ : ∃ t, execCaptureEdge i r s = .next t ∧ Leaves captureFoot (captureEntered s i r) t :=
    ⟨_, execCaptureEdge_enters hedge hroom hfar, .ite (fun _ => leaves_post _ _ _ _) (fun _ => .refl _ _)⟩
  obtain ⟨hfifo, hnow⟩ := captureEntered_grid s i r
  have grid : t.grid = (captureEntered s i r).grid := told.only .grid (by decide)
  refine ⟨t, ht, ?_⟩
  simp only [grid, hfifo, hnow]
  refine ⟨tget_tset_same _ _ _ _, fun j hj => tget_tset_other _ _ _ _ _ hj, ?_, trivial, ?_⟩
  · rw [told.fld _ _ (off_captureFoot_fill i), captureEntered_fill]
  · exact ((only_captureEntered s i r).mono (by decide)).trans (told.only.mono (by decide))

/-- Settles O8: the base that is committed and applied, messages of the time of day, and an edge that is captured. -/
theorem timeOfDayAndCapture : Obligations.TimeOfDayAndCapture := by
  unfold Obligations.TimeOfDayAndCapture
  exact ⟨baseCommit_pending, todBaseApply_sets, todMessage_taken, todMessage_badCrc, captureEdge_enters⟩

end Sys2Proof.Machine
end

section
/-! PROOF. O20 fails: a PLOAM message of a found burst goes to the supervision cluster at once, and a fault there may reset the chip, the
lane's write-backs with it (R20, R58, R320, R348). -/

namespace Sys2Proof.Machine

/-- A granted burst of ONU 5 on channel 0 of port 0. -/
def grantedBurst : Burst :=
  ⟨.data, 5, 9, 7, 100, 40, 1, List.replicate 8 0, [], false, false, 4000000, 3900000, 4100000, 0, 0, false, false, false, none⟩

/-- The burst as it arrives: its delimiter in place, the granted ONU-ID, and one PLOAM message with a good check. -/
def heardBurst : BurstIn := ⟨[(0, 0)], 0, 0, .ok, 0, 9, [], 100, none, [], [], false, [([], true)], false, 0⟩

/-- Receiver and upstream MAC run with the burst scheduled; cluster 0 is the supervision cluster with an image of one word, its entry vector
4 (PLOAM) lies beyond it, and source 0 asks for a chip reset. -/
def fragileState : State :=
  { State.reset with
    bus := { State.reset.bus with regs := [
      (pgFLT + (FLT_REACT.at 0).off, 8#32),
      (pgCH 0 0 + ANY_ENABLE.off, 1#32), (pgCH 0 0 + CH_US_EN.off, 2#32),
      (pgBRX 0 0 + ANY_ENABLE.off, 1#32), (pgBRX 0 0 + BRX_RX_EN.off, 1#32),
      (pgENG 0 + ENG_ROLE.off, 2#32), (pgENG 0 + ENG_SPARE_FOR.off, 63#32), (pgENG 0 + ENG_ENG_OK.off, 1#32),
      (pgUCS 0 + (UCS_ENTRY_A.at 4).off, 1#32)] }
    eng := { State.reset.eng with cl := [(0, { Cluster.init 0 with lenA := 1 })] }
    pon := { State.reset.pon with lane := [(0, { LaneSt.init 0 with sched := [grantedBurst] })] } }

/-- The write-backs due on channel 0 of port 0 after a step. -/
def backsAfter : Res → Option (List Burst)
  | .next t => some ((lane t 0 0).back.map (·.b))
  | _ => none

theorem backsAfter_fragile : backsAfter (exec (.burstReceive 0 0 heardBurst) fragileState) = some [] := by decide +kernel

/-- Refutes O20: the delimiter of the burst is found, but no write-back of it is due, since its PLOAM message has reset the chip. -/
theorem not_burstReception : ¬ Obligations.BurstReception := by
  unfold Obligations.BurstReception
  rintro ⟨-, -, -, found, -⟩
  obtain ⟨t, ht, -, hback, -⟩ := found fragileState 0 0 heardBurst grantedBurst 0 (by decide) (by decide) (by decide)
  have lost := backsAfter_fragile
  rw [ht] at lost
  simp only [backsAfter, Option.some.injEq] at lost
  rw [show ((0 : Fin 32) : Nat) = 0 from rfl, show ((0 : Fin 3) : Nat) = 0 from rfl, lost] at hback
  exact absurd hback (by decide)

end Sys2Proof.Machine
end

section
/-! PROOF. O56 fails: a request whose source is no source of FLT reads its reactions from a register that its own reclaim publishes (R205, R320,
R322). -/

namespace Sys2Proof.Machine

/-! ### What publishing the pools leaves of RSV_SUM (R205) -/

/-- What publishing writes after the sums. -/
def pagesFoot : Foot := ⟨[.regs], [(pgCXL 0, pgCXL 4), (pgBPM + 0x100, pgBPM + 0x164)]⟩

theorem fld_publishPools_rsvSum (s : State) : fld (publishPools s) pgBPM BPM_RSV_SUM = rsvSum s % 2 ^ BPM_RSV_SUM.width := by
  have expander (t : State) (x : Nat) (hx : x ∈ List.range 4) (f : Fld) (v : Nat) (hf : 0 ≤ f.off ∧ f.off < 0x1000) :
      Leaves pagesFoot t (setFld t (pgCXL x) f v) := by
    refine (leaves_setFld_in t (pgCXL x) f v hf).mono ⟨by simp [pagesFoot], ?_⟩
    revert x
    decide
  have waits (t : State) (r : Nat) (hr : r ∈ List.range 25) (v : Nat) : Leaves pagesFoot t (setFld t pgBPM (BPM_WAITING.at r) v) := by
    refine (leaves_setFld t pgBPM (BPM_WAITING.at r) v).mono ⟨by simp [pagesFoot], ?_⟩
    revert r
    decide
  have beside (t : State) (f : Fld) (v : Nat) (hf : f.lsb + f.width ≤ 32 ∧ f.off ≠ BPM_RSV_SUM.off) :
      fld (setFld t pgBPM f v) pgBPM BPM_RSV_SUM = fld t pgBPM BPM_RSV_SUM :=
    fld_setFld_other _ _ _ _ _ _ hf.1 (.inl (by have := hf.2; omega))
  unfold publishPools
  dsimp only
  rw [(Leaves.foldl (F := pagesFoot) (fun t r hr => waits t r hr _) _).fld _ _ (by decide),
    (Leaves.foldl (F := pagesFoot) (fun t x hx => (expander t x hx _ _ (by decide)).trans (expander _ x hx _ _ (by decide))) _).fld _ _ (by decide),
    beside _ _ _ (by decide), beside _ _ _ (by decide), beside _ _ _ (by decide), fld_setFld_same _ _ _ _ (by decide)]

theorem fld_settlePools_rsvSum (s t : State) : fld (settlePools s t) pgBPM BPM_RSV_SUM = rsvSum t % 2 ^ BPM_RSV_SUM.width := by
  rw [settlePools, fld_publishPools_rsvSum]
  split
  · rw [rsvSum, (only_flag t pgTMQ TMQ_F_SHARED_OVER) .queue (by decide)]
    rfl
  · rfl

/-! ### What a chip reset leaves of the reclaim queue (R20) -/

theorem resetChip_queue (s : State) (cause : Nat) : (resetChip s cause).tst.queue = [] := by
  have told : ∀ t : State, t.tst.queue = [] → (bump (showUses (showStraps t) 228 8) pgDEV DEV_C_CHIP_RESETS 1).tst.queue = [] := by
    intro t ht
    rw [((leaves_bump _ _ _ _).tst_faults (by decide)).1, showUses, foldl_keeps (fun u : State => u.tst.queue) _ (fun u i => by simp)]
    simp [showStraps, ht]
  exact told _ rfl

/-! ### The counterexample -/

/-- No source of FLT: FLT_REACT of this number is the word of BPM.RSV_SUM. -/
def straySource : Nat := (pgBPM + BPM_RSV_SUM.off - (pgFLT + FLT_REACT.off)) / 4

/-- A link queued for reclaim by no source, another party behind it, and one queue with a reservation of 8 units. -/
def strayState : State :=
  { State.reset with
    tm := { State.reset.tm with q := [(0, { Queue.init 0 with rsv := 8 })] }
    tst := { State.reset.tst with queue := [⟨straySource, .link 0, false⟩, ⟨0, .link 1, false⟩] } }

/-- The party at the front of the stray queue, taken. -/
def strayTaken : State :=
  showQueue { strayState with tst := { strayState.tst with queue := [⟨0, .link 1, false⟩], outside := [] } }

theorem reclaimNext_stray :
    reclaimNext strayState = lastReactions (reclaimParty strayTaken straySource (.link 0)) straySource (some (.link 0)) false := rfl

/-- A link holds nothing: its reclaim is its record. -/
theorem reclaimParty_link (s : State) (src : Nat) (m : Fin 3) :
    ∃ t, reclaimParty s src (.link m) = settlePools s t ∧ rsvSum t = rsvSum s := by
  refine ⟨faultRecord (flag (bump (bump (bump s pgFLT FLT_C_BUFS_RECLAIMED 0) pgFLT FLT_C_LOCKS_RELEASED 0) pgFLT FLT_C_SLOTS_SKIPPED 0)
    pgFLT FLT_F_RECLAIM_DONE) src 0 0 0 0, rfl, ?_⟩
  simp [rsvSum, faultRecord]

/-- The reclaim publishes RSV_SUM, which the stray source reads as the reaction chip reset. -/
theorem react_reclaimParty_stray : bitAt (react (reclaimParty strayTaken straySource (.link 0)) straySource) 3 = true := by
  obtain ⟨t, ht, hsum⟩ := reclaimParty_link strayTaken straySource 0
  have shown : fld (reclaimParty strayTaken straySource (.link 0)) pgBPM BPM_RSV_SUM = 8 := by
    rw [ht, fld_settlePools_rsvSum, hsum]
    rfl
  have sameWord : react (reclaimParty strayTaken straySource (.link 0)) straySource =
      fld (reclaimParty strayTaken straySource (.link 0)) pgBPM BPM_RSV_SUM % 2 ^ 5 := by
    simp only [react, fld, bitsOf, show pgFLT + (FLT_REACT.at straySource).off = pgBPM + BPM_RSV_SUM.off by decide]
    simp [Fld.at, FLT_REACT, BPM_RSV_SUM, Nat.mod_mod_of_dvd]
  rw [sameWord, shown]
  decide

theorem reclaimNext_stray_queue : (reclaimNext strayState).tst.queue = [] := by
  rw [reclaimNext_stray, lastReactions]
  simp only [react_reclaimParty_stray, if_true]
  exact resetChip_queue _ _

/-- Refutes O56: RECLAIM of a request whose source is above 63, whose reactions ask for no reset before it, resets the chip once RSV_SUM
is published; the queue behind the request is lost. -/
theorem not_banksFaultsAndRegulation : ¬ Obligations.BanksFaultsAndRegulation := by
  unfold Obligations.BanksFaultsAndRegulation
  rintro ⟨-, -, -, -, -, -, -, -, reclaims, -⟩
  obtain ⟨t, ht, hqueue, -⟩ := reclaims strayState _ _ rfl rfl (by decide) (by decide)
  obtain rfl : reclaimNext strayState = t := Host.Outcome.next.inj ht
  rw [reclaimNext_stray_queue] at hqueue
  exact List.cons_ne_nil _ _ hqueue.symm

end Sys2Proof.Machine
end

section
/-! SUPPORT. Stores of the PON tables and of the keys (R56, R57, R62, R65, R72), the port pages beside the device's own, and a window's command
told by what its body answers (R27, R295). -/

namespace Sys2Proof.Machine

variable {F : Foot} {s t u : State}

/-! ### Port pages lie above the device's own -/

theorem off_port {l : List Span} (hl : ∀ r ∈ l, r.2 ≤ 0x01000000) {a : Nat} (ha : 0x01000000 ≤ a) : Off l a :=
  fun r hr => .inr ((hl r hr).trans ha)

theorem port_pon (p off : Nat) : 0x01000000 ≤ pgPON p + off := by simp only [pgPON]; omega
theorem port_ch (p c off : Nat) : 0x01000000 ≤ pgCH p c + off := by simp only [pgCH, pgPON]; omega

theorem pmcWord_port {a : Nat} (h : 0x01000000 ≤ a) : pmcWord a = false :=
  pmcWord_of_off (l := [pmcSpan]) (off_port (by decide) h) (by simp)

theorem recordFoot_low : ∀ r ∈ recordFoot.spans, r.2 ≤ 0x01000000 := by decide

/-- The record of a write leaves every register of a port. -/
theorem Leaves.port_reg (h : Leaves recordFoot s t) {a : Nat} (ha : 0x01000000 ≤ a) : Machine.reg t a = Machine.reg s a :=
  h.reg a (off_port recordFoot_low ha)

theorem Leaves.port_fld (h : Leaves recordFoot s t) (b : Nat) (f : Fld) (ha : 0x01000000 ≤ b + f.off) : Machine.fld t b f = Machine.fld s b f :=
  h.fld b f (off_port recordFoot_low ha)

theorem Leaves.port_isSet (h : Leaves recordFoot s t) (b : Nat) (f : Fld) (ha : 0x01000000 ≤ b + f.off) :
    Machine.isSet t b f = Machine.isSet s b f := h.isSet b f (off_port recordFoot_low ha)

theorem Leaves.port_flagSet (h : Leaves recordFoot s t) (b : Nat) (f : Flag) (ha : 0x01000000 ≤ b + f.off) :
    Machine.flagSet t b f = Machine.flagSet s b f := h.flagSet b f (off_port recordFoot_low ha)

/-! ### Parts of a step told in more parts -/

theorem Only.into {l m : List Part} (h : Only l s t) (hl : ∀ p ∈ l, p ∈ m := by decide) : Only m s t := h.mono hl

theorem Leaves.onlyIn {l m : List Part} {r : List Span} (h : Leaves ⟨l, r⟩ s t) (hl : ∀ p ∈ l, p ∈ m := by decide) : Only m s t :=
  h.only.mono hl

/-! ### A window's command -/

/-- Registers that a body and the record after it leave. -/
theorem RegsOnly.recorded {addrs : List Nat} (h : RegsOnly [pgPMC] addrs s u) (hr : Leaves recordFoot u t) : RegsOnly bookPages addrs s t := by
  have pages : RegsOnly bookPages [] u t := hr.regsOnly _ _ (by decide)
  intro a ha hp
  exact (pages a (by simp) hp).trans (h a ha (fun b hb => hp b (by simp_all [bookPages])))

/-- A command whose record shows another word, told by what its body answers. -/
theorem completes_window {l : List Part} {i : Instr} {o : Origin} {a x c : Nat} {body : State → State × Nat} {P : State → Prop}
    (hexec : exec i s = .next (command o a x body s)) (h : addrReject s o a = none) (hbody : body s = (u, c)) (hb : Only l s u)
    (hP : ∀ t, Answered s t o c a → Leaves recordFoot u t → P t) (hj : Part.jrn ∉ l := by decide) (hg : Part.grid ∉ l := by decide) :
    Completes i s P := by
  refine ⟨_, hexec, ?_⟩
  rw [command_ok o a x body s h, hbody]
  exact hP _ (answered_record _ _ _ _ _ _ _ _ (hb .jrn hj) (hb .grid hg)) (leaves_record ..)

/-! ### Status bits of a window -/

/-- OWN_ERR and REJECT of a window. -/
def statusPair (s : State) (b : Nat) (f g : Fld) (own rej : Bool) : State := setBit (setBit s b f own) b g rej

theorem leaves_statusPair (s : State) (b : Nat) {f g : Fld} (own rej : Bool) (h : g.off = f.off) :
    Leaves ⟨[.regs], [wordSpan (b + f.off)]⟩ s (statusPair s b f g own rej) :=
  (leaves_setBit s b f own).trans (h ▸ leaves_setBit (setBit s b f own) b g rej)

theorem statusPair_shows (s : State) (b : Nat) {f g : Fld} (own rej : Bool) (hf : f.lsb < 32 ∧ f.width = 1) (hg : g.lsb < 32 ∧ g.width = 1)
    (hfg : f.lsb < g.lsb) :
    isSet (statusPair s b f g own rej) b f = own ∧ isSet (statusPair s b f g own rej) b g = rej := by
  refine ⟨?_, isSet_setBit_same _ _ _ _ hg.1 hg.2⟩
  refine Eq.trans ?_ (isSet_setBit_same s b f own hf.1 hf.2)
  rw [isSet, statusPair, fld_setBit_apart _ _ ⟨by omega, .inr (.inl (by omega))⟩, isSet]

/-! ### Tables -/

theorem leaves_setChSt (s : State) (p c : Nat) (r : ChSt) : Leaves ⟨[.ch], []⟩ s (setChSt s p c r) :=
  .of_only (only_ch s _) (by decide) (by decide)

@[simp] theorem chSt_setChSt_same (s : State) (p c : Nat) (r : ChSt) : chSt (setChSt s p c r) p c = r :=
  tget_tset_same ChSt.init s.pon.ch (3 * p + c) r

theorem tblOnly_setChSt (s : State) (p c : Nat) (r : ChSt) : TblOnly ChSt.init (3 * p + c) s.pon.ch (setChSt s p c r).pon.ch :=
  fun _ hj => tget_tset_other _ _ _ _ _ hj

/-- A channel stored after a step that leaves the channels. -/
theorem tblOnly_setChSt_of {s t : State} (h : t.pon.ch = s.pon.ch) (p c : Nat) (r : ChSt) :
    TblOnly ChSt.init (3 * p + c) s.pon.ch (setChSt t p c r).pon.ch := h ▸ tblOnly_setChSt t p c r

theorem TblOnly.trans {α : Type} {d : Nat → α} {k : Nat} {a b c : Tbl α} (h1 : TblOnly d k a b) (h2 : TblOnly d k b c) : TblOnly d k a c :=
  fun j hj => (h2 j hj).trans (h1 j hj)

theorem Leaves.pon_chSt (h : Leaves F s t) (hp : Part.ch ∉ F.parts) (p c : Nat) : chSt t p c = chSt s p c :=
  congrArg (tget ChSt.init · (3 * p + c)) (h.only .ch hp)

theorem only_onu (s : State) (l : Tbl OnuRec) : Only [.onu] s { s with pon := { s.pon with onu := l } } := by
  intro p hp
  cases p
  case onu => simp at hp
  all_goals rfl

theorem leaves_setOnu (s : State) (p i : Nat) (r : OnuRec) : Leaves ⟨[.onu], []⟩ s (setOnu s p i r) :=
  .of_only (only_onu s _) (by decide) (by decide)

@[simp] theorem onu_setOnu_same (s : State) (p i : Nat) (r : OnuRec) : onu (setOnu s p i r) p i = r :=
  tget_tset_same OnuRec.init s.pon.onu (512 * p + i) r

theorem tblOnly_setOnu (s : State) (p i : Nat) (r : OnuRec) : TblOnly OnuRec.init (512 * p + i) s.pon.onu (setOnu s p i r).pon.onu :=
  fun _ hj => tget_tset_other _ _ _ _ _ hj

theorem Leaves.pon_onu (h : Leaves F s t) (hp : Part.onu ∉ F.parts) (p i : Nat) : onu t p i = onu s p i :=
  congrArg (tget OnuRec.init · (512 * p + i)) (h.only .onu hp)

theorem only_xp (s : State) (l : Tbl XpEntry) : Only [.xp] s { s with pon := { s.pon with xp := l } } := by
  intro p hp
  cases p
  case xp => simp at hp
  all_goals rfl

theorem leaves_setXpEntry (s : State) (x : Nat) (r : XpEntry) : Leaves ⟨[.xp], []⟩ s (setXpEntry s x r) :=
  .of_only (only_xp s _) (by decide) (by decide)

@[simp] theorem xpEntry_setXpEntry_same (s : State) (x : Nat) (r : XpEntry) : xpEntry (setXpEntry s x r) x = r :=
  tget_tset_same XpEntry.init s.pon.xp x r

theorem tblOnly_setXpEntry (s : State) (x : Nat) (r : XpEntry) : TblOnly XpEntry.init x s.pon.xp (setXpEntry s x r).pon.xp :=
  fun _ hj => tget_tset_other _ _ _ _ _ hj

theorem only_reasm (s : State) (l : Tbl (Option Reasm)) : Only [.reasm] s { s with pon := { s.pon with reasm := l } } := by
  intro p hp
  cases p
  case reasm => simp at hp
  all_goals rfl

theorem leaves_setReasm (s : State) (x : Nat) (r : Option Reasm) : Leaves ⟨[.reasm], []⟩ s (setReasm s x r) :=
  .of_only (only_reasm s _) (by decide) (by decide)

@[simp] theorem reasm_setReasm_same (s : State) (x : Nat) (r : Option Reasm) : reasm (setReasm s x r) x = r :=
  tget_tset_same dnone s.pon.reasm x r

theorem tblOnly_setReasm (s : State) (x : Nat) (r : Option Reasm) : TblOnly dnone x s.pon.reasm (setReasm s x r).pon.reasm :=
  fun _ hj => tget_tset_other _ _ _ _ _ hj

theorem only_keys (s : State) (l : Tbl KeyEntry) : Only [.keys] s { s with keys := l } := by
  intro p hp
  cases p
  case keys => simp at hp
  all_goals rfl

theorem leaves_setKeyEntry (s : State) (k : Nat) (r : KeyEntry) : Leaves ⟨[.keys], []⟩ s (setKeyEntry s k r) :=
  .of_only (only_keys s _) (by decide) (by decide)

@[simp] theorem keyEntry_setKeyEntry_same (s : State) (k : Nat) (r : KeyEntry) : keyEntry (setKeyEntry s k r) k = r :=
  tget_tset_same KeyEntry.init s.keys k r

theorem tblOnly_setKeyEntry (s : State) (k : Nat) (r : KeyEntry) : TblOnly KeyEntry.init k s.keys (setKeyEntry s k r).keys :=
  fun _ hj => tget_tset_other _ _ _ _ _ hj

/-! ### Counters of ONUs (R71, R72) -/

theorem only_onuCnt (s : State) (l : Tbl Nat) : Only [.onuCnt] s { s with pon := { s.pon with onuCnt := l } } := by
  intro p hp
  cases p
  case onuCnt => simp at hp
  all_goals rfl

theorem leaves_setOnuCnt (s : State) (p i j n : Nat) : Leaves ⟨[.onuCnt], []⟩ s (setOnuCnt s p i j n) :=
  .of_only (only_onuCnt s _) (by decide) (by decide)

theorem onuCnt_onuBump_same (s : State) (p i j n : Nat) : onuCnt (onuBump s p i j n) p i j = min cntMax (onuCnt s p i j + n) := by
  have stored : onuCnt (setOnuCnt s p i j (min cntMax (onuCnt s p i j + n))) p i j = min cntMax (onuCnt s p i j + n) :=
    tget_tset_same dzero s.pon.onuCnt (onuCntKey p i j) _
  unfold onuBump
  dsimp only
  split
  · rw [onuCnt, (only_bump _ _ _ _) .onuCnt (by decide)]
    exact stored
  · exact stored

theorem only_onuBump (s : State) (p i j n : Nat) : Only [.onuCnt, .regs, .cnt, .pmc] s (onuBump s p i j n) := by
  have stored := (leaves_setOnuCnt s p i j (min cntMax (onuCnt s p i j + n))).only
  unfold onuBump
  dsimp only
  split
  · exact (stored.mono (by decide)).trans ((only_bump _ _ _ _).mono (by decide))
  · exact stored.mono (by decide)

theorem reg_onuBump (s : State) (p i j n a : Nat) (h : pmcWord a = false) : reg (onuBump s p i j n) a = reg s a := by
  unfold onuBump
  dsimp only
  split
  · rw [reg_bump _ _ _ _ _ h]
    rfl
  · rfl

theorem flagSet_onuBump (s : State) (p i j n b : Nat) (f : Flag) (h : pmcWord (b + f.off) = false) :
    flagSet (onuBump s p i j n) b f = flagSet s b f := by
  simp only [flagSet, isSet, fld, reg_onuBump _ _ _ _ _ _ h]

end Sys2Proof.Machine
end

section
/-! PROOF. O9: PLOAM pushes by the host and again by the supervision cluster, and a partial SDU whose time has passed (R56, R57, R61). -/

namespace Sys2Proof.Machine

/-! ### PLOAM_PUSH -/

/-- The fill of the normal queue is shown, and PUSH_FULL reads 0. -/
def fillShown (s : State) (b n : Nat) : State := setFld (setFld s b CH_NORM_FILL n) b CH_PUSH_FULL 0

theorem leaves_fillShown (s : State) (b n : Nat) : Leaves ⟨[.regs], [wordSpan (b + CH_NORM_FILL.off)]⟩ s (fillShown s b n) :=
  (leaves_setFld s b CH_NORM_FILL n).trans (leaves_setFld _ b CH_PUSH_FULL 0)

theorem fillShown_fields (s : State) (b n : Nat) (h : n ≤ ploamMax) :
    fld (fillShown s b n) b CH_NORM_FILL = n ∧ fld (fillShown s b n) b CH_PUSH_FULL = 0 := by
  have hn : n < 2 ^ CH_NORM_FILL.width := lt_of_le_of_lt h (by decide)
  refine ⟨?_, fld_setFld_of_lt _ _ _ _ (by decide) (by decide)⟩
  rw [fillShown, fld_setFld_other _ _ _ _ _ _ (by decide) (.inr (by decide)), fld_setFld_of_lt _ _ _ _ (by decide) hn]

/-- The host's message at the end of the normal queue. -/
def normalTaken (s : State) (p c : Nat) : State :=
  setChSt (fillShown s (pgCH p c) ((chSt s p c).normal.length + 1)) p c { chSt s p c with
    normal := (chSt s p c).normal ++ [⟨.host (wordsAt s (pgCH p c + CH_PLOAM_BUF.off) (if c = 0 then 3 else 12)), 512, 1024, now s⟩] }

theorem ploamPush_appends (s : State) (o : Origin) (p : Fin 32) (c : Fin 3) (h : addrReject s o (pgCH p c + CH_PLOAM_PUSH.off) = none)
    (hroom : (chSt s p c).normal.length < ploamMax) :
    Completes (.ploamPush o p c) s (fun t =>
      (chSt t p c).normal = (chSt s p c).normal ++ [⟨.host (wordsAt s (pgCH p c + CH_PLOAM_BUF.off) (if c.val = 0 then 3 else 12)), 512, 1024, now s⟩] ∧
      (chSt t p c).urgent = (chSt s p c).urgent ∧
      fld t (pgCH p c) CH_NORM_FILL = (chSt s p c).normal.length + 1 ∧
      fld t (pgCH p c) CH_PUSH_FULL = 0 ∧
      TblOnly ChSt.init (3 * p + c) s.pon.ch t.pon.ch ∧
      Answered s t o 0 (pgCH p c + CH_PLOAM_PUSH.off) ∧
      RegsOnly bookPages [pgCH p c + CH_NORM_FILL.off, pgCH p c + CH_PUSH_FULL.off] s t ∧
      Only (.ch :: books) s t) := by
  have shown := leaves_fillShown s (pgCH p c) ((chSt s p c).normal.length + 1)
  have stored : Leaves ⟨[.ch], []⟩ (fillShown s (pgCH p c) ((chSt s p c).normal.length + 1)) (normalTaken s p c) := leaves_setChSt _ p c _
  obtain ⟨hfill, hfull⟩ := fillShown_fields s (pgCH p c) ((chSt s p c).normal.length + 1) hroom
  have leaves : Leaves ⟨[.regs, .ch], [wordSpan (pgCH p c + CH_NORM_FILL.off)]⟩ s (normalTaken s p c) :=
    (shown.mono (by simp [Foot.Within, Covers])).andThen stored (by simp [Foot.Within, Covers])
  have only : Only [.regs, .ch] s (normalTaken s p c) := leaves.only
  have regs : RegsOnly [pgPMC] [pgCH p c + CH_NORM_FILL.off, pgCH p c + CH_PUSH_FULL.off] s (normalTaken s p c) :=
    leaves.regsOnly _ _ (by simp [wordSpan])
  refine completes_window (u := normalTaken s p c) rfl h (if_pos hroom) only fun t answered told => ?_
  have hst := (told.pon_chSt (by decide) p c).trans (chSt_setChSt_same _ p c _)
  refine ⟨by rw [hst], by rw [hst], ?_, ?_, ?_, answered, regs.recorded told, only.into.trans told.only.into⟩
  · rw [told.port_fld _ _ (port_ch ..), stored.fld _ _ (by simp), hfill]
  · rw [told.port_fld _ _ (port_ch ..), stored.fld _ _ (by simp), hfull]
  · rw [show t.pon.ch = (normalTaken s p c).pon.ch from told.only .ch (by decide)]
    exact tblOnly_setChSt_of (shown.only .ch (by simp)) p c _

/-- A push into a full queue: PUSH_FULL and PLOAM_OVF. -/
def pushRefused (s : State) (b : Nat) : State := flag (setFld s b CH_PUSH_FULL 1) b CH_F_PLOAM_OVF

theorem pushRefused_shows (s : State) (p c : Nat) :
    fld (pushRefused s (pgCH p c)) (pgCH p c) CH_PUSH_FULL = 1 ∧ flagSet (pushRefused s (pgCH p c)) (pgCH p c) CH_F_PLOAM_OVF = true := by
  refine ⟨?_, flagSet_flag _ _ _ (by decide) (by decide) (pmcWord_port (port_ch ..))⟩
  rw [pushRefused, fld_flag_beside _ _ _ _ _ (by decide) (.inl (by simp [CH_PUSH_FULL, CH_F_PLOAM_OVF]))
    (by simp [CH_PUSH_FULL, CH_F_PLOAM_OVF]) (pmcWord_port (port_ch ..)), fld_setFld_of_lt _ _ _ _ (by decide) (by decide)]

theorem ploamPush_full (s : State) (o : Origin) (p : Fin 32) (c : Fin 3) (h : addrReject s o (pgCH p c + CH_PLOAM_PUSH.off) = none)
    (hfull : ploamMax ≤ (chSt s p c).normal.length) :
    Completes (.ploamPush o p c) s (fun t =>
      chSt t p c = chSt s p c ∧
      fld t (pgCH p c) CH_PUSH_FULL = 1 ∧
      flagSet t (pgCH p c) CH_F_PLOAM_OVF = true ∧
      Answered s t o 8 (pgCH p c + CH_PLOAM_PUSH.off) ∧
      Only books s t) := by
  obtain ⟨hshown, hflag⟩ := pushRefused_shows s p c
  have only : Only [.regs, .pmc] s (pushRefused s (pgCH p c)) := (only_setFld s _ _ _).into.trans (only_flag _ _ _)
  refine completes_window (u := pushRefused s (pgCH p c)) rfl h (if_neg (by omega)) only fun t answered told => ?_
  have all : Only books s t := only.into.trans told.only
  refine ⟨congrArg (tget ChSt.init · (3 * p + c)) (all .ch (by decide)), ?_, ?_, answered, all⟩
  · rw [told.port_fld _ _ (port_ch ..)]
    exact hshown
  · rw [told.port_flagSet _ _ (port_ch ..)]
    exact hflag

/-! ### PLOAM_PUSH_RETRY -/

/-- Messages as the urgent queue takes them at a state's position. -/
def stampedAt (s : State) (l : List Ploam) : List Ploam := l.map (fun m => { m with at_ := now s })

/-- Messages went into the urgent queue of a channel, and nothing else of any channel is changed. -/
structure Pushed (s t : State) (p c : Nat) (l : List Ploam) : Prop where
  channel : chSt t p c = { chSt s p c with urgent := (chSt s p c).urgent ++ stampedAt s l }
  others : TblOnly ChSt.init (3 * p + c) s.pon.ch t.pon.ch
  only : Only [.regs, .ch, .onu] s t

theorem Pushed.none (s : State) (p c : Nat) : Pushed s s p c [] := ⟨by simp [stampedAt], fun _ _ => rfl, .refl _ s⟩

theorem Pushed.cons {s t u : State} {p c : Nat} {m : Ploam} {l : List Ploam} (h1 : Pushed s t p c [m]) (h2 : Pushed t u p c l) :
    Pushed s u p c (m :: l) := by
  have hnow : now t = now s := congrArg GridSt.now (h1.only .grid (by decide))
  refine ⟨?_, h1.others.trans h2.others, h1.only.trans h2.only⟩
  rw [h2.channel, h1.channel]
  simp [stampedAt, hnow]

/-- The message at the end of the urgent queue, whose fill is shown. -/
def urgentTaken (s : State) (p c : Nat) (m : Ploam) : State :=
  setChSt (setFld (setFld s (pgCH p c) CH_URG_FILL ((chSt s p c).urgent.length + 1)) (pgCH p c) CH_PUSH_FULL 0) p c
    { chSt s p c with urgent := (chSt s p c).urgent ++ [{ m with at_ := now s }] }

theorem pushed_urgentTaken (s : State) (p c : Nat) (m : Ploam) : Pushed s (urgentTaken s p c m) p c [m] := by
  have shown := (only_setFld s (pgCH p c) CH_URG_FILL ((chSt s p c).urgent.length + 1)).trans (only_setFld _ (pgCH p c) CH_PUSH_FULL 0)
  exact ⟨chSt_setChSt_same _ p c _, tblOnly_setChSt_of (shown .ch (by decide)) p c _, shown.into.trans (leaves_setChSt _ p c _).onlyIn⟩

theorem pushUrgent_room (s : State) (p c : Nat) (m : Ploam) (hretry : (chSt s p c).retry = [])
    (hroom : (chSt s p c).urgent.length < ploamMax) : Pushed s (pushUrgent s p c m) p c [m] := by
  obtain ⟨channel, others, only⟩ := pushed_urgentTaken s p c m
  have hrun : pushUrgent s p c m = if m.body = .assign then
      setOnu (urgentTaken s p c m) p m.onu { onu (urgentTaken s p c m) p m.onu with held := false } else urgentTaken s p c m := by
    unfold pushUrgent
    dsimp only
    rw [if_neg (by simp [hretry]), if_pos hroom]
    rfl
  have kept := leaves_setOnu (urgentTaken s p c m) p m.onu { onu (urgentTaken s p c m) p m.onu with held := false }
  have table := kept.only .ch (by decide)
  rw [hrun]
  split
  · exact ⟨(kept.pon_chSt (by decide) p c).trans channel, fun j hj => (congrArg (tget ChSt.init · j) table).trans (others j hj),
      only.trans kept.onlyIn⟩
  · exact ⟨channel, others, only⟩

theorem retryPushes_room (p c : Nat) (l : List Ploam) (s : State) (hretry : (chSt s p c).retry = [])
    (hroom : (chSt s p c).urgent.length + l.length ≤ ploamMax) : Pushed s (retryPushes p c l s) p c l := by
  induction l generalizing s with
  | nil => exact .none s p c
  | cons m l ih =>
    rw [List.length_cons] at hroom
    have first := pushUrgent_room s p c m hretry (by omega)
    have hretry1 : (chSt (pushUrgent s p c m) p c).retry = [] := by rw [first.channel, hretry]
    have hroom1 : (chSt (pushUrgent s p c m) p c).urgent.length + l.length ≤ ploamMax := by
      rw [first.channel, List.length_append, stampedAt, List.length_map, List.length_singleton]
      omega
    rw [retryPushes, if_neg (by simp [hretry1])]
    exact first.cons (ih _ hretry1 hroom1)

theorem ploamPushRetry_room (s : State) (p : Fin 32) (c : Fin 3)
    (hroom : (chSt s p c).urgent.length + (chSt s p c).retry.length ≤ ploamMax) :
    Completes (.ploamPushRetry p c) s (fun t =>
      (chSt t p c).urgent = (chSt s p c).urgent ++ (chSt s p c).retry.map (fun m => { m with at_ := now s }) ∧
      (chSt t p c).retry = [] ∧
      (chSt t p c).normal = (chSt s p c).normal ∧
      TblOnly ChSt.init (3 * p + c) s.pon.ch t.pon.ch ∧
      Only [.regs, .ch, .onu] s t) := by
  have emptied := chSt_setChSt_same s p c { chSt s p c with retry := [] }
  have pushed := retryPushes_room p c (chSt s p c).retry (setChSt s p c { chSt s p c with retry := [] }) (by rw [emptied])
    (by rw [emptied]; exact hroom)
  obtain ⟨channel, others, only⟩ := pushed
  rw [emptied] at channel
  refine ⟨_, rfl, ?_, ?_, ?_, (tblOnly_setChSt s p c _).trans others, (leaves_setChSt s p c _).onlyIn.trans only⟩
  · rw [channel]
    rfl
  · rw [channel]
  · rw [channel]

/-! ### REASM_TIMEOUT -/

theorem reasmTimeout_discards (s : State) (x : Fin 262144) (r : Reasm) (hr : reasm s x = some r)
    (hdue : r.last + fld s (pgCH (x.val / 8192) (xpEntry s x).ch) CH_TIMEOUT + 1 ≤ frame s) :
    Completes (.reasmTimeout x) s (fun t =>
      reasm t x = none ∧
      TblOnly dnone x s.pon.reasm t.pon.reasm ∧
      flagSet t (pgCH (x.val / 8192) (xpEntry s x).ch) CH_F_REASM_TIMEOUT = true ∧
      onuCnt t (x.val / 8192) (xpEntry s x).onu ONU_C_REASM_TIMEOUT = min cntMax (onuCnt s (x.val / 8192) (xpEntry s x).onu ONU_C_REASM_TIMEOUT + 1) ∧
      Only [.regs, .cnt, .pmc, .onuCnt, .reasm] s t) := by
  have hrun : exec (.reasmTimeout x) s = .next (onuBump (flag (dropPartial s x) (pgCH (x.val / 8192) (xpEntry s x).ch) CH_F_REASM_TIMEOUT)
      (x.val / 8192) (xpEntry s x).onu ONU_C_REASM_TIMEOUT 1) := by
    show execReasmTimeout x s = _
    simp only [execReasmTimeout, hr, if_pos hdue]
  have flagged := only_flag (dropPartial s x) (pgCH (x.val / 8192) (xpEntry s x).ch) CH_F_REASM_TIMEOUT
  have after : Only [.onuCnt, .regs, .cnt, .pmc] (dropPartial s x) _ :=
    flagged.into.trans (only_onuBump _ (x.val / 8192) (xpEntry s x).onu ONU_C_REASM_TIMEOUT 1)
  refine ⟨_, hrun, ?_, ?_, ?_, ?_, (leaves_setReasm s x none).onlyIn.trans after.into⟩
  · rw [reasm, after .reasm (by decide)]
    exact reasm_setReasm_same s x none
  · rw [after .reasm (by decide)]
    exact tblOnly_setReasm s x none
  · rw [flagSet_onuBump _ _ _ _ _ _ _ (pmcWord_port (port_ch ..))]
    exact flagSet_flag _ _ _ (by decide) (by decide) (pmcWord_port (port_ch ..))
  · rw [onuCnt_onuBump_same, onuCnt, flagged .onuCnt (by decide)]
    rfl

/-- Settles O9: a push by the room in its queue, the waiting messages one after another, and a partial whose time has passed. -/
theorem ploamQueues : Obligations.PloamQueues := by
  unfold Obligations.PloamQueues
  exact ⟨ploamPush_appends, ploamPush_full, ploamPushRetry_room, reasmTimeout_discards⟩

end Sys2Proof.Machine
end

section
/-! PROOF. O10: the XGEM and GEM port entries by their window (R62, R72). -/

namespace Sys2Proof.Machine

theorem leaves_xpStat (s : State) (p : Nat) (own rej : Bool) :
    Leaves ⟨[.regs], [wordSpan (pgPON p + PON_XP_OWN_ERR.off)]⟩ s (xpStat s p own rej) :=
  leaves_statusPair s (pgPON p) own rej rfl

theorem xpStat_shows (s : State) (p : Nat) (own rej : Bool) :
    isSet (xpStat s p own rej) (pgPON p) PON_XP_OWN_ERR = own ∧ isSet (xpStat s p own rej) (pgPON p) PON_XP_REJECT = rej :=
  statusPair_shows s (pgPON p) own rej (by decide) (by decide) (by decide)

/-! ### XP_READ -/

/-- An entry word, or 0, in PORT_ID. -/
def portShown (s : State) (p : Nat) (own : Bool) (w : Word) : State := setReg (xpStat s p own false) (pgPON p + PON_PORT_ID.off) w

theorem portShown_fields (s : State) (p : Nat) (own : Bool) (w : Word) :
    reg (portShown s p own w) (pgPON p + PON_PORT_ID.off) = w ∧ isSet (portShown s p own w) (pgPON p) PON_XP_OWN_ERR = own := by
  refine ⟨reg_setReg_same .., ?_⟩
  rw [isSet, portShown, fld_setReg_other _ _ _ _ _ (by simp [PON_XP_OWN_ERR, PON_PORT_ID])]
  exact (xpStat_shows s p own false).1

/-- A read that ends with an entry word, or 0, in PORT_ID. -/
theorem xpRead_shows (s : State) (o : Origin) (p : Fin 32) (own : Bool) (w : Word) (code : Nat)
    (h : addrReject s o (pgPON p + PON_XP_CMD.off) = none)
    (hbody : (if xpReadable s p (Origin.slice o) (xpEntry s (8192 * p + fld s (pgPON p) PON_XP_IDX)) then
        (portShown s p false (xpEntry s (8192 * p + fld s (pgPON p) PON_XP_IDX)).word, 0) else (portShown s p true 0, 2)) =
      (portShown s p own w, code)) :
    Completes (.xpRead o p) s (fun t =>
      reg t (pgPON p + PON_PORT_ID.off) = w ∧
      isSet t (pgPON p) PON_XP_OWN_ERR = own ∧
      Answered s t o code (pgPON p + PON_XP_CMD.off) ∧
      RegsOnly bookPages [pgPON p + PON_PORT_ID.off, pgPON p + PON_XP_OWN_ERR.off] s t ∧
      Only books s t) := by
  obtain ⟨hword, hown⟩ := portShown_fields s p own w
  have leaves : Leaves ⟨[.regs], [wordSpan (pgPON p + PON_XP_OWN_ERR.off), wordSpan (pgPON p + PON_PORT_ID.off)]⟩ s (portShown s p own w) :=
    ((leaves_xpStat s p own false).mono (by simp [Foot.Within, Covers])).andThen (leaves_setReg _ _ w) (by simp [Foot.Within, Covers])
  refine completes_window (l := [.regs]) (u := portShown s p own w) rfl h hbody leaves.only fun t answered told => ?_
  refine ⟨(told.port_reg (port_pon ..)).trans hword, (told.port_isSet _ _ (port_pon ..)).trans hown, answered, ?_, leaves.onlyIn.trans told.only⟩
  exact (leaves.regsOnly _ _ (by simp [wordSpan])).recorded told

theorem xpRead_mine (s : State) (o : Origin) (p : Fin 32) (h : addrReject s o (pgPON p + PON_XP_CMD.off) = none)
    (hread : xpReadable s p (Origin.slice o) (xpEntry s (8192 * p + fld s (pgPON p) PON_XP_IDX)) = true) :
    Completes (.xpRead o p) s (fun t =>
      reg t (pgPON p + PON_PORT_ID.off) = (xpEntry s (8192 * p + fld s (pgPON p) PON_XP_IDX)).word ∧
      isSet t (pgPON p) PON_XP_OWN_ERR = false ∧
      Answered s t o 0 (pgPON p + PON_XP_CMD.off) ∧
      RegsOnly bookPages [pgPON p + PON_PORT_ID.off, pgPON p + PON_XP_OWN_ERR.off] s t ∧
      Only books s t) := xpRead_shows s o p false _ 0 h (if_pos hread)

theorem xpRead_foreign (s : State) (o : Origin) (p : Fin 32) (h : addrReject s o (pgPON p + PON_XP_CMD.off) = none)
    (hread : xpReadable s p (Origin.slice o) (xpEntry s (8192 * p + fld s (pgPON p) PON_XP_IDX)) = false) :
    Completes (.xpRead o p) s (fun t =>
      reg t (pgPON p + PON_PORT_ID.off) = 0 ∧
      isSet t (pgPON p) PON_XP_OWN_ERR = true ∧
      Answered s t o 2 (pgPON p + PON_XP_CMD.off) ∧
      RegsOnly bookPages [pgPON p + PON_PORT_ID.off, pgPON p + PON_XP_OWN_ERR.off] s t ∧
      Only books s t) := xpRead_shows s o p true 0 2 h (if_neg (by simp [hread]))

/-! ### XP_WRITE and XP_INVALIDATE -/

/-- An entry taken into the table, with both status bits 0. -/
def xpStored (s : State) (p x : Nat) (n : XpEntry) : State := setXpEntry (xpStat s p false false) x n

/-- A command of the window that ends with an entry taken. -/
theorem completes_xpStored {i : Instr} {s : State} {o : Origin} {p x : Nat} {n : XpEntry} {body : State → State × Nat}
    (hexec : exec i s = .next (command o (pgPON p + PON_XP_CMD.off) (pgPON p + PON_XP_IDX.off) body s))
    (h : addrReject s o (pgPON p + PON_XP_CMD.off) = none) (hbody : body s = (xpStored s p x n, 0)) :
    Completes i s (fun t =>
      xpEntry t x = n ∧
      TblOnly XpEntry.init x s.pon.xp t.pon.xp ∧
      isSet t (pgPON p) PON_XP_REJECT = false ∧
      Answered s t o 0 (pgPON p + PON_XP_CMD.off) ∧
      RegsOnly bookPages [pgPON p + PON_XP_OWN_ERR.off] s t ∧
      Only (.xp :: books) s t) := by
  have stat := leaves_xpStat s p false false
  have stored : Leaves ⟨[.xp], []⟩ (xpStat s p false false) (xpStored s p x n) := leaves_setXpEntry _ x n
  have leaves : Leaves ⟨[.regs, .xp], [wordSpan (pgPON p + PON_XP_OWN_ERR.off)]⟩ s (xpStored s p x n) :=
    (stat.mono (by simp [Foot.Within, Covers])).andThen stored (by simp [Foot.Within, Covers])
  have only : Only [.regs, .xp] s (xpStored s p x n) := leaves.only
  have regs : RegsOnly [pgPMC] [pgPON p + PON_XP_OWN_ERR.off] s (xpStored s p x n) := leaves.regsOnly _ _ (by simp [wordSpan])
  refine completes_window hexec h hbody only fun t answered told => ?_
  have table : t.pon.xp = (xpStored s p x n).pon.xp := told.only .xp (by decide)
  refine ⟨?_, ?_, ?_, answered, regs.recorded told, only.into.trans told.only.into⟩
  · rw [xpEntry, table]
    exact xpEntry_setXpEntry_same _ x n
  · rw [table, ← stat.only .xp (by simp)]
    exact tblOnly_setXpEntry _ x n
  · rw [told.port_isSet _ _ (port_pon ..), stored.isSet _ _ (by simp)]
    exact (xpStat_shows s p false false).2

theorem xpWrite_stores (s : State) (o : Origin) (p : Fin 32) (n : XpEntry) (h : addrReject s o (pgPON p + PON_XP_CMD.off) = none)
    (hn : n = xpOfWord (reg s (pgPON p + PON_PORT_ID.off)))
    (hmine : xpWritable s p (Origin.slice o) (xpEntry s (8192 * p + fld s (pgPON p) PON_XP_IDX)) n = true)
    (hrej : n.valid = true → xpRejected s p (fld s (pgPON p) PON_XP_IDX) (xpEntry s (8192 * p + fld s (pgPON p) PON_XP_IDX)) n = false) :
    Completes (.xpWrite o p) s (fun t =>
      xpEntry t (8192 * p + fld s (pgPON p) PON_XP_IDX) = n ∧
      TblOnly XpEntry.init (8192 * p + fld s (pgPON p) PON_XP_IDX) s.pon.xp t.pon.xp ∧
      isSet t (pgPON p) PON_XP_REJECT = false ∧
      Answered s t o 0 (pgPON p + PON_XP_CMD.off) ∧
      RegsOnly bookPages [pgPON p + PON_XP_OWN_ERR.off] s t ∧
      Only (.xp :: books) s t) := by
  refine completes_xpStored rfl h ?_
  dsimp only
  rw [← hn, if_neg (by simp [hmine]), if_neg (by simpa using hrej)]
  rfl

/-- A write that R62 rejects. -/
def xpRefused (s : State) (p : Nat) : State := flag (xpStat s p false true) (pgPON p) PON_F_XGEM_REJ

theorem xpRefused_shows (s : State) (p : Nat) :
    isSet (xpRefused s p) (pgPON p) PON_XP_REJECT = true ∧ flagSet (xpRefused s p) (pgPON p) PON_F_XGEM_REJ = true := by
  refine ⟨?_, flagSet_flag _ _ _ (by decide) (by decide) (pmcWord_port (port_pon ..))⟩
  rw [xpRefused, isSet, fld_flag_beside _ _ _ _ _ (by decide) (.inl (by simp [PON_XP_REJECT, PON_F_XGEM_REJ]))
    (by simp [PON_XP_REJECT, PON_F_XGEM_REJ]) (pmcWord_port (port_pon ..))]
  exact (xpStat_shows s p false true).2

theorem xpWrite_refused (s : State) (o : Origin) (p : Fin 32) (n : XpEntry) (h : addrReject s o (pgPON p + PON_XP_CMD.off) = none)
    (hn : n = xpOfWord (reg s (pgPON p + PON_PORT_ID.off)))
    (hmine : xpWritable s p (Origin.slice o) (xpEntry s (8192 * p + fld s (pgPON p) PON_XP_IDX)) n = true)
    (hvalid : n.valid = true)
    (hrej : xpRejected s p (fld s (pgPON p) PON_XP_IDX) (xpEntry s (8192 * p + fld s (pgPON p) PON_XP_IDX)) n = true) :
    Completes (.xpWrite o p) s (fun t =>
      isSet t (pgPON p) PON_XP_REJECT = true ∧
      flagSet t (pgPON p) PON_F_XGEM_REJ = true ∧
      Answered s t o 1 (pgPON p + PON_XP_CMD.off) ∧
      Only books s t) := by
  obtain ⟨hbit, hflag⟩ := xpRefused_shows s p
  have only : Only [.regs, .pmc] s (xpRefused s p) := (leaves_xpStat s p false true).onlyIn.trans (only_flag _ _ _)
  refine completes_window (u := xpRefused s p) (c := 1) rfl h ?_ only fun t answered told =>
    ⟨(told.port_isSet _ _ (port_pon ..)).trans hbit, (told.port_flagSet _ _ (port_pon ..)).trans hflag, answered, only.into.trans told.only⟩
  dsimp only
  rw [← hn, if_neg (by simp [hmine]), if_pos (by simp [hvalid, hrej])]
  rfl

theorem xpInvalidate_clears (s : State) (o : Origin) (p : Fin 32) (e : XpEntry) (h : addrReject s o (pgPON p + PON_XP_CMD.off) = none)
    (he : e = xpEntry s (8192 * p + fld s (pgPON p) PON_XP_IDX))
    (hmine : mayUse (Origin.slice o) (if e.valid then xpOwner s p e else portOwner s p) = true) :
    Completes (.xpInvalidate o p) s (fun t =>
      xpEntry t (8192 * p + fld s (pgPON p) PON_XP_IDX) = { e with valid := false } ∧
      TblOnly XpEntry.init (8192 * p + fld s (pgPON p) PON_XP_IDX) s.pon.xp t.pon.xp ∧
      Answered s t o 0 (pgPON p + PON_XP_CMD.off) ∧
      RegsOnly bookPages [pgPON p + PON_XP_OWN_ERR.off] s t ∧
      Only (.xp :: books) s t) := by
  subst he
  obtain ⟨t, hrun, entry, table, -, answered, regs, only⟩ := completes_xpStored (i := .xpInvalidate o p)
    (n := { xpEntry s _ with valid := false }) rfl h (if_pos hmine)
  exact ⟨t, hrun, entry, table, answered, regs, only⟩

/-- Settles O10: each command by the body that answers it, the two that store by one lemma. -/
theorem portEntries : Obligations.PortEntries := by
  unfold Obligations.PortEntries
  exact ⟨xpRead_mine, xpRead_foreign, xpWrite_stores, xpWrite_refused, xpInvalidate_clears⟩

end Sys2Proof.Machine
end

section
/-! PROOF. O11: the ONU records and counters by their window, and the counters of a page (R71, R72, R350). -/

namespace Sys2Proof.Machine

/-! ### Counters cleared one after another -/

/-- After a run of clears a counter reads 0 when one of them was its own. -/
theorem foldl_zeroed {β : Type} {f : β → Nat → β} {g : β → Nat → Nat} {key : Nat → Nat}
    (h : ∀ b j k, g (f b j) k = if k = key j then 0 else g b k) (l : List Nat) (b : β) (k : Nat) :
    g (l.foldl f b) k = if ∃ j ∈ l, k = key j then 0 else g b k := by
  induction l generalizing b with
  | nil => simp
  | cons j l ih =>
    rw [List.foldl_cons, ih, h]
    by_cases hl : ∃ m ∈ l, k = key m
    · rw [if_pos hl, if_pos (by simp [hl])]
    · simp only [List.mem_cons, exists_eq_or_imp, hl, or_false, if_false]

theorem cntAt_setCnt (s : State) (a n b : Nat) : cntAt (setCnt s a n) b = if b = a then n else cntAt s b :=
  tget_tset dzero s.bus.cnt a b n

theorem only_clearCounters (s : State) (base : Nat) : Only [.cnt] s (clearCounters s base) := only_foldl _ (fun _ _ => only_setCnt _ _ _) _ s

theorem reg_clearCounters (s : State) (base a : Nat) : reg (clearCounters s base) a = reg s a :=
  congrArg (tget resetWord · a) (only_clearCounters s base .regs (by decide))

theorem cntAt_clearCounters (s : State) (base : Nat) {i : Nat} (h : i < 32) : cntAt (clearCounters s base) (cntAddr base i) = 0 := by
  have run := foldl_zeroed (fun t j k => cntAt_setCnt t (cntAddr base j) 0 k) (List.range 32) s (cntAddr base i)
  rwa [if_pos ⟨i, List.mem_range.mpr h, rfl⟩] at run

/-- A counter other than LOST after the record of a command that completes: the journal counts the record. -/
theorem cntAt_record_done (s : State) (o : Origin) (a : Nat) (x y m : Word) (b : Nat) (h : b ≠ cntAddr pgJRN JRN_C_LOST) :
    cntAt (record s o 0 a x y m) b = if b = cntAddr pgJRN JRN_C_RECORDS then min cntMax (cntAt s b + 1) else cntAt s b := by
  have entered (t : State) (j : JrnSt) : cntAt { t with jrn := j } b = cntAt t b := rfl
  have shown (t : State) (k : Completion) (w : Word) : cntAt (setDone (disarm t o) k w) b = cntAt t b := rfl
  rw [record, if_neg (by decide), shown, journal]
  dsimp only
  rw [entered, if_pos rfl]
  split
  · rw [cntAt_setReg, bumpFld, cntAt_setFld, cntAt_bump, if_neg h, cntAt_bump]
  · rw [cntAt_bump]

/-- CNT_CLR of a page, told by its counters after the record. -/
theorem completes_cntClr {s : State} {o : Origin} {base : Nat} {P : State → Prop} (h : addrReject s o (base + 0x300) = none)
    (hP : ∀ t, (∀ b, b ≠ cntAddr pgJRN JRN_C_LOST → cntAt t b =
        if b = cntAddr pgJRN JRN_C_RECORDS then min cntMax (cntAt (clearCounters s base) b + 1) else cntAt (clearCounters s base) b) →
      Answered s t o 0 (base + 0x300) → RegsOnly bookPages [] s t → Only books s t → P t) :
    Completes (.cntClr o base) s P := by
  have cleared := only_clearCounters s base
  have regs : RegsOnly [pgPMC] [] s (clearCounters s base) := fun a _ _ => reg_clearCounters s base a
  refine ⟨_, rfl, ?_⟩
  rw [command_ok _ _ _ _ _ h]
  exact hP _ (fun b hb => cntAt_record_done _ _ _ _ _ _ _ hb)
    (answered_record _ _ _ _ _ _ _ _ (cleared .jrn (by decide)) (cleared .grid (by decide)))
    (regs.recorded (leaves_record ..)) (cleared.into.trans (leaves_record ..).only)

theorem cntClr_page (s : State) (o : Origin) (base : Nat) (hpage : base % 0x1000 = 0) (hjrn : base ≠ pgJRN)
    (h : addrReject s o (base + 0x300) = none) :
    Completes (.cntClr o base) s (fun t =>
      (∀ i < 32, cntAt t (cntAddr base i) = 0) ∧
      Answered s t o 0 (base + 0x300) ∧
      RegsOnly bookPages [] s t ∧
      Only books s t) := by
  refine completes_cntClr h fun t hcnt answered regs only => ⟨fun i hi => ?_, answered, regs, only⟩
  have beside (j : Nat) (hj : j < 32) : cntAddr base i ≠ cntAddr pgJRN j := by
    simp only [cntAddr, pgJRN] at hjrn ⊢
    omega
  rw [hcnt _ (beside _ (by decide)), if_neg (beside _ (by decide)), cntAt_clearCounters s base hi]

theorem cntClr_journal (s : State) (o : Origin) (h : addrReject s o (pgJRN + 0x300) = none) :
    Completes (.cntClr o pgJRN) s (fun t =>
      cntAt t (cntAddr pgJRN JRN_C_RECORDS) = 1 ∧
      cntAt t (cntAddr pgJRN JRN_C_REJECTED) = 0 ∧
      Answered s t o 0 (pgJRN + 0x300) ∧
      Only books s t) := by
  refine completes_cntClr h fun t hcnt answered _ only => ⟨?_, ?_, answered, only⟩
  · rw [hcnt _ (by decide), if_pos rfl, cntAt_clearCounters s pgJRN (by decide)]
    rfl
  · rw [hcnt _ (by decide), if_neg (by decide), cntAt_clearCounters s pgJRN (by decide)]

/-! ### The status of the window -/

theorem leaves_onuStat (s : State) (p : Nat) (own rej : Bool) :
    Leaves ⟨[.regs], [wordSpan (pgPON p + PON_OWN_ERR.off)]⟩ s (onuStat s p own rej) :=
  leaves_statusPair s (pgPON p) own rej rfl

theorem onuStat_shows (s : State) (p : Nat) (own rej : Bool) :
    isSet (onuStat s p own rej) (pgPON p) PON_OWN_ERR = own ∧ isSet (onuStat s p own rej) (pgPON p) PON_REJECT = rej :=
  statusPair_shows s (pgPON p) own rej (by decide) (by decide) (by decide)

/-! ### ONU_READ -/

/-- A record and its counters in the window. -/
def onuShown (s : State) (p i : Nat) : State :=
  setWords (setWords (onuStat s p false false) (pgPON p + PON_ONU_REC.off) (onu s p i).words) (pgPON p + 0x180) (onuCntWords s p i)

theorem OnuRec.words_length (r : OnuRec) : r.words.length = 14 := by simp [OnuRec.words, wordsOfBits]

theorem onuCntWords_length (s : State) (p i : Nat) : (onuCntWords s p i).length = 64 := by simp [onuCntWords]

theorem onuShown_shows (s : State) (p i : Nat) :
    wordsAt (onuShown s p i) (pgPON p + PON_ONU_REC.off) 14 = (onu s p i).words ∧
    wordsAt (onuShown s p i) (pgPON p + 0x180) 64 = onuCntWords s p i ∧
    isSet (onuShown s p i) (pgPON p) PON_OWN_ERR = false := by
  have record : PON_ONU_REC.off = 0x100 := rfl
  have status : PON_OWN_ERR.off = 0x58 := rfl
  refine ⟨?_, ?_, ?_⟩
  · rw [onuShown, wordsAt_eq _ _ _ _ (fun b _ hb => reg_setWords_below _ _ b _ (by omega)), ← OnuRec.words_length (onu s p i), wordsAt_setWords]
  · rw [← onuCntWords_length s p i]
    exact wordsAt_setWords ..
  · rw [isSet, fld, onuShown, reg_setWords_below _ _ _ _ (by omega), reg_setWords_below _ _ _ _ (by omega)]
    exact (onuStat_shows s p false false).1

theorem onuRead_shows (s : State) (o : Origin) (p : Fin 32) (i : Nat) (h : addrReject s o (pgPON p + PON_ONU_CMD.off) = none)
    (hi : i = fld s (pgPON p) PON_ONU_IDX) (hmine : mayUse (Origin.slice o) (onuOwner s p i) = true) :
    Completes (.onuRead o p) s (fun t =>
      wordsAt t (pgPON p + PON_ONU_REC.off) 14 = (onu s p i).words ∧
      wordsAt t (pgPON p + 0x180) 64 = onuCntWords s p i ∧
      isSet t (pgPON p) PON_OWN_ERR = false ∧
      Answered s t o 0 (pgPON p + PON_ONU_CMD.off) ∧
      Only books s t) := by
  subst hi
  obtain ⟨hrec, hcnt, hown⟩ := onuShown_shows s p (fld s (pgPON p) PON_ONU_IDX)
  have only : Only [.regs] s (onuShown s p (fld s (pgPON p) PON_ONU_IDX)) :=
    ((leaves_onuStat s p false false).only.trans (only_setWords _ _ _)).trans (only_setWords _ _ _)
  refine completes_window rfl h (if_pos hmine) only fun t answered told => ?_
  have shown (off n : Nat) : wordsAt t (pgPON p + off) n = wordsAt (onuShown s p (fld s (pgPON p) PON_ONU_IDX)) (pgPON p + off) n :=
    wordsAt_eq _ _ _ _ fun b hb _ => told.port_reg ((port_pon p off).trans hb)
  exact ⟨(shown _ _).trans hrec, (shown _ _).trans hcnt, (told.port_isSet _ _ (port_pon ..)).trans hown, answered, only.into.trans told.only⟩

/-! ### ONU_COUNTER_CLEAR -/

theorem leaves_clearOnuCnt (s : State) (p i : Nat) : Leaves ⟨[.onuCnt], []⟩ s (clearOnuCnt s p i) :=
  .foldl (fun t j _ => leaves_setOnuCnt t p i j 0) s

theorem tget_setOnuCnt (s : State) (p i j n k : Nat) :
    tget dzero (setOnuCnt s p i j n).pon.onuCnt k = if k = onuCntKey p i j then n else tget dzero s.pon.onuCnt k :=
  tget_tset dzero s.pon.onuCnt (onuCntKey p i j) k n

theorem tget_clearOnuCnt (s : State) (p i k : Nat) :
    tget dzero (clearOnuCnt s p i).pon.onuCnt k = if k / 32 = 512 * p + i then 0 else tget dzero s.pon.onuCnt k := by
  have run := foldl_zeroed (f := fun t j => setOnuCnt t p i j 0) (g := fun t k => tget dzero t.pon.onuCnt k)
    (fun t j k => tget_setOnuCnt t p i j 0 k) (List.range 32) s k
  have own : (∃ j ∈ List.range 32, k = onuCntKey p i j) ↔ k / 32 = 512 * p + i := by
    simp only [List.mem_range, onuCntKey]
    exact ⟨fun ⟨j, hj, hk⟩ => by omega, fun hk => ⟨k % 32, by omega, by omega⟩⟩
  rwa [if_congr own rfl rfl] at run

/-- The counters of a record cleared by the window. -/
def countersCleared (s : State) (p i : Nat) : State := clearOnuCnt (onuStat s p false false) p i

theorem leaves_countersCleared (s : State) (p i : Nat) :
    Leaves ⟨[.regs, .onuCnt], [wordSpan (pgPON p + PON_OWN_ERR.off)]⟩ s (countersCleared s p i) :=
  ((leaves_onuStat s p false false).mono (by simp [Foot.Within, Covers])).andThen (leaves_clearOnuCnt _ p _) (by simp [Foot.Within, Covers])

theorem tget_countersCleared (s : State) (p i k : Nat) :
    tget dzero (countersCleared s p i).pon.onuCnt k = if k / 32 = 512 * p + i then 0 else tget dzero s.pon.onuCnt k := by
  have stat : (onuStat s p false false).pon.onuCnt = s.pon.onuCnt := (leaves_onuStat s p false false).only .onuCnt (by simp)
  rw [countersCleared, tget_clearOnuCnt, stat]

theorem onuCounterClear_clears (s : State) (o : Origin) (p : Fin 32) (i : Nat) (h : addrReject s o (pgPON p + PON_ONU_CMD.off) = none)
    (hi : i = fld s (pgPON p) PON_ONU_IDX) (hmine : mayUse (Origin.slice o) (onuOwner s p i) = true) :
    Completes (.onuCounterClear o p) s (fun t =>
      (∀ j < 32, onuCnt t p i j = 0) ∧
      (∀ k, k / 32 ≠ 512 * p + i → tget dzero t.pon.onuCnt k = tget dzero s.pon.onuCnt k) ∧
      Answered s t o 0 (pgPON p + PON_ONU_CMD.off) ∧
      RegsOnly bookPages [pgPON p + PON_OWN_ERR.off] s t ∧
      Only (.onuCnt :: books) s t) := by
  have leaves := leaves_countersCleared s p i
  have regs := leaves.regsOnly [pgPMC] [pgPON p + PON_OWN_ERR.off] (by simp [wordSpan])
  refine completes_window (l := [.regs, .onuCnt]) (u := countersCleared s p i) rfl h (by subst hi; exact if_pos hmine) leaves.only
    fun t answered told => ?_
  have table : t.pon.onuCnt = (countersCleared s p i).pon.onuCnt := told.only .onuCnt (by decide)
  refine ⟨fun j hj => ?_, fun k hk => ?_, answered, regs.recorded told, leaves.onlyIn.trans told.only.into⟩
  · rw [onuCnt, table, tget_countersCleared, if_pos (by rw [onuCntKey]; omega)]
  · rw [table, tget_countersCleared, if_neg hk]

/-! ### ONU_WRITE -/

theorem onuWrite_held (s : State) (o : Origin) (p : Fin 32) (i : Nat) (h : addrReject s o (pgPON p + PON_ONU_CMD.off) = none)
    (hi : i = fld s (pgPON p) PON_ONU_IDX) (hmine : mayUse (Origin.slice o) (onuOwner s p i) = true) (hheld : (onu s p i).held = true) :
    Completes (.onuWrite o p) s (fun t =>
      isSet t (pgPON p) PON_REJECT = true ∧
      Answered s t o 8 (pgPON p + PON_ONU_CMD.off) ∧
      RegsOnly bookPages [pgPON p + PON_OWN_ERR.off] s t ∧
      Only books s t) := by
  subst hi
  have stat := leaves_onuStat s p false true
  have regs : RegsOnly [pgPMC] [pgPON p + PON_OWN_ERR.off] s (onuStat s p false true) := stat.regsOnly _ _ (by simp [wordSpan])
  refine completes_window (l := [.regs]) rfl h ?_ stat.only fun t answered told =>
    ⟨(told.port_isSet _ _ (port_pon ..)).trans (onuStat_shows s p false true).2, answered, regs.recorded told, stat.onlyIn.trans told.only⟩
  dsimp only
  rw [if_neg (by simp [hmine]), if_pos hheld]

theorem leaves_refreshUse (s : State) (p : Nat) :
    Leaves ⟨[.regs], [wordSpan (pgGRD + GRD_ONU_IN_OP.off), wordSpan (pgPON p + PON_ONU_IN_USE.off)]⟩ s (refreshUse s p) :=
  ((leaves_setBit s pgGRD GRD_ONU_IN_OP _).mono (by simp [Foot.Within, Covers])).andThen (leaves_setFld _ (pgPON p) PON_ONU_IN_USE _)
    (by simp [Foot.Within, Covers])

theorem only_pm (s : State) (l : Tbl PmRec) : Only [.pm] s { s with pon := { s.pon with pm := l } } := by
  intro p hp
  cases p
  case pm => simp at hp
  all_goals rfl

theorem leaves_setPmRec (s : State) (p i : Nat) (r : PmRec) : Leaves ⟨[.pm], []⟩ s (setPmRec s p i r) :=
  .of_only (only_pm s _) (by decide) (by decide)

theorem only_phase (s : State) (l : Tbl PhaseEntry) : Only [.phase] s { s with pon := { s.pon with phase := l } } := by
  intro p hp
  cases p
  case phase => simp at hp
  all_goals rfl

theorem leaves_invalidatePhase (s : State) (p c i : Nat) : Leaves ⟨[.phase], []⟩ s (invalidatePhase s p c i) :=
  .ite (fun _ => .of_only (only_phase s _) (by decide) (by decide)) (fun _ => .refl _ s)

theorem only_survey (s : State) (l : Tbl SurveySt) : Only [.survey] s { s with pon := { s.pon with survey := l } } := by
  intro p hp
  cases p
  case survey => simp at hp
  all_goals rfl

theorem leaves_setSurvey (s : State) (p c : Nat) (r : SurveySt) : Leaves ⟨[.survey], []⟩ s (setSurvey s p c r) :=
  .of_only (only_survey s _) (by decide) (by decide)

theorem leaves_surveyBase (s : State) (p c : Nat) :
    Leaves ⟨[.regs, .survey], [wordSpan (pgRNG p c + RNG_PERIOD_NOW.off), wordSpan (pgRNG p c + RNG_SKIP_LEVEL.off)]⟩ s (surveyBase s p c) := by
  have within (t : State) (r : SurveySt) :
      Leaves ⟨[.regs, .survey], [wordSpan (pgRNG p c + RNG_PERIOD_NOW.off), wordSpan (pgRNG p c + RNG_SKIP_LEVEL.off)]⟩ t (setSurvey t p c r) :=
    (leaves_setSurvey t p c r).mono (by simp [Foot.Within, Covers])
  refine .ite (fun _ => ?_) (fun _ => within s _)
  exact (((leaves_setFld s (pgRNG p c) RNG_PERIOD_NOW _).mono (by simp [Foot.Within, Covers])).andThen
    (leaves_setFld _ (pgRNG p c) RNG_SKIP_LEVEL _) (by simp [Foot.Within, Covers])).trans (within _ _)

/-- What the report of a cleared defect touches. -/
def clearReportFoot (p : Nat) : Foot :=
  ⟨alerts, [pmcSpan, pageSpan pgEVT, wordSpan (pgPON p + ANY_EVT_SEQ.off), wordSpan (pgPON p + PON_F_DEFECT_CHANGE.off),
    wordSpan (pgPON p + PON_F_DEFECT_CHANGE.cntOff)]⟩

theorem reportDefect_cleared (s : State) (p i d : Nat) : reportDefect s p i d false =
    postTo (flag s (pgPON p) PON_F_DEFECT_CHANGE) (pgPON p) (onuOwner s p i) (.defect false d) [i, d] := by
  simp [reportDefect]

theorem leaves_reportDefect_cleared (s : State) (p i d : Nat) : Leaves (clearReportFoot p) s (reportDefect s p i d false) := by
  rw [reportDefect_cleared]
  exact ((leaves_flag s (pgPON p) PON_F_DEFECT_CHANGE).mono (by simp [Foot.Within, Covers, clearReportFoot, alerts])).andThen
    (leaves_postTo _ _ _ _ _) (by simp [Foot.Within, Covers, clearReportFoot, Foot.add, eventFoot])

/-- What a record that is freed touches. -/
def dropFoot (p : Nat) : Foot := ⟨.onu :: .pm :: alerts, (clearReportFoot p).spans⟩

theorem leaves_reports (s : State) (p i n : Nat) : Leaves (clearReportFoot p) s
    ((List.range 6).foldl (fun s d => if bitAt n d then reportDefect s p i d false else s) s) :=
  .foldl (fun t d _ => .ite (fun _ => leaves_reportDefect_cleared t p i d) (fun _ => .refl _ t)) s

/-- A record without defects, and the reports of those it had. -/
def defectsDropped (s : State) (p i : Nat) : State :=
  (List.range 6).foldl (fun t d => if bitAt (onu s p i).reported d then reportDefect t p i d false else t)
    (setOnu s p i { onu s p i with defects := 0, reported := 0 })

theorem leaves_dropDefects (s : State) (p i : Nat) : Leaves (dropFoot p) s (dropDefects s p i) := by
  have taken : Leaves (dropFoot p) s (setOnu s p i { onu s p i with defects := 0, reported := 0 }) :=
    (leaves_setOnu s p i _).mono (by simp [Foot.Within, Covers, dropFoot])
  have reported : Leaves (dropFoot p) s (defectsDropped s p i) := taken.andThen (leaves_reports _ p i _)
    ⟨by simp [clearReportFoot, dropFoot, alerts], fun r hr => ⟨r, hr, le_refl _, le_refl _⟩⟩
  exact reported.andThen (leaves_setPmRec _ p i _) (by simp [Foot.Within, Covers, dropFoot])

theorem onuTable_dropDefects (s : State) (p i : Nat) :
    (dropDefects s p i).pon.onu = (setOnu s p i { onu s p i with defects := 0, reported := 0 }).pon.onu :=
  (leaves_reports (setOnu s p i { onu s p i with defects := 0, reported := 0 }) p i (onu s p i).reported).only .onu
    (by simp [clearReportFoot, alerts])

theorem onuTable_putOnu (s : State) (p i : Nat) (n : OnuRec) : (putOnu s p i n).pon.onu = (setOnu s p i n).pon.onu :=
  (leaves_refreshUse (setOnu s p i n) p).only .onu (by simp)

theorem onu_putOnu (s : State) (p i : Nat) (n : OnuRec) : onu (putOnu s p i n) p i = n := by
  rw [onu, onuTable_putOnu]
  exact onu_setOnu_same s p i n

/-- A write of a record in EMPTY that stays valid, without SNMi: the record is taken, and one that becomes valid begins its Survey anew. -/
theorem writeOnu_valid (s : State) (p i : Nat) (n : OnuRec) (hstate : (onu s p i).state = stEmpty) (hclean : hasDefect n dSNMi = false)
    (hv : n.valid = true) :
    writeOnu s p i n = if (onu s p i).valid then putOnu s p i n else surveyBase (putOnu s p i n) p n.ch := by
  have taken := onu_putOnu s p i n
  have clean : clearDefect (putOnu s p i n) p i dSNMi = putOnu s p i n := by
    simp [clearDefect, taken, hclean]
  have idle : (stEmpty == stSnm) = false := rfl
  have run : writeOnu s p i n = if !(onu s p i).valid then surveyBase (putOnu s p i n) p n.ch else putOnu s p i n := by
    simp [writeOnu, hv, clean, idle, hstate]
  rw [run]
  cases (onu s p i).valid
  · exact (if_pos rfl).trans (if_neg Bool.false_ne_true).symm
  · exact (if_neg Bool.false_ne_true).trans (if_pos rfl).symm

/-- A write of a record in EMPTY that is freed. -/
theorem writeOnu_freed (s : State) (p i : Nat) (n : OnuRec) (hstate : (onu s p i).state = stEmpty) (hv : n.valid = false) :
    writeOnu s p i n = invalidatePhase (dropDefects (putOnu s p i n) p i) p (onu s p i).ch i := by
  simp [writeOnu, hv, hstate]

/-- What a write of a record in EMPTY touches. -/
def onuWriteFoot (p c : Nat) : Foot :=
  ⟨.onu :: .survey :: .phase :: .pm :: alerts, wordSpan (pgGRD + GRD_ONU_IN_OP.off) :: wordSpan (pgPON p + PON_ONU_IN_USE.off) ::
    wordSpan (pgRNG p c + RNG_PERIOD_NOW.off) :: wordSpan (pgRNG p c + RNG_SKIP_LEVEL.off) :: (clearReportFoot p).spans⟩

theorem leaves_putOnu (s : State) (p i c : Nat) (n : OnuRec) : Leaves (onuWriteFoot p c) s (putOnu s p i n) :=
  ((leaves_setOnu s p i n).mono (by simp [Foot.Within, Covers, onuWriteFoot])).andThen (leaves_refreshUse _ p)
    (by simp [Foot.Within, Covers, onuWriteFoot, alerts])

theorem leaves_writeOnu (s : State) (p i : Nat) (n : OnuRec) (hstate : (onu s p i).state = stEmpty) (hclean : hasDefect n dSNMi = false) :
    Leaves (onuWriteFoot p n.ch) s (writeOnu s p i n) := by
  have taken := leaves_putOnu s p i n.ch n
  cases hv : n.valid
  case true =>
    rw [writeOnu_valid s p i n hstate hclean hv]
    exact .ite (fun _ => taken) (fun _ => taken.andThen (leaves_surveyBase _ p n.ch) (by simp [Foot.Within, Covers, onuWriteFoot, alerts]))
  case false =>
    rw [writeOnu_freed s p i n hstate hv]
    have dropped := taken.andThen (leaves_dropDefects _ p i) ⟨by simp [onuWriteFoot, dropFoot, alerts],
      fun r hr => ⟨r, by simp only [onuWriteFoot, List.mem_cons]; exact .inr (.inr (.inr (.inr hr))), le_refl _, le_refl _⟩⟩
    exact dropped.andThen (leaves_invalidatePhase _ p _ i) (by simp [Foot.Within, Covers, onuWriteFoot])

/-- A record as a write in EMPTY leaves it: one that is freed has no defects. -/
def recordTaken (n : OnuRec) : OnuRec := if n.valid then n else { n with defects := 0, reported := 0 }

theorem onu_writeOnu (s : State) (p i : Nat) (n : OnuRec) (hstate : (onu s p i).state = stEmpty) (hclean : hasDefect n dSNMi = false) :
    onu (writeOnu s p i n) p i = recordTaken n ∧ TblOnly OnuRec.init (512 * p + i) s.pon.onu (writeOnu s p i n).pon.onu := by
  have same := onu_putOnu s p i n
  have others : TblOnly OnuRec.init (512 * p + i) s.pon.onu (putOnu s p i n).pon.onu := onuTable_putOnu s p i n ▸ tblOnly_setOnu s p i n
  cases hv : n.valid
  case true =>
    have table : (writeOnu s p i n).pon.onu = (putOnu s p i n).pon.onu := by
      rw [writeOnu_valid s p i n hstate hclean hv]
      split
      · rfl
      · exact (leaves_surveyBase _ p n.ch).only .onu (by simp)
    rw [onu, table, recordTaken, if_pos hv]
    exact ⟨same, others⟩
  case false =>
    have table : (writeOnu s p i n).pon.onu = (setOnu (putOnu s p i n) p i { n with defects := 0, reported := 0 }).pon.onu := by
      rw [writeOnu_freed s p i n hstate hv, show (invalidatePhase _ p _ i).pon.onu = _ from (leaves_invalidatePhase _ p _ i).only .onu (by simp),
        onuTable_dropDefects, same]
    rw [onu, table, recordTaken, if_neg (by simp [hv])]
    exact ⟨onu_setOnu_same _ p i _, others.trans (tblOnly_setOnu _ p i _)⟩

theorem isSet_writeOnu_reject (s : State) (p i : Nat) (n : OnuRec) (hstate : (onu s p i).state = stEmpty)
    (hclean : hasDefect n dSNMi = false) : isSet (writeOnu s p i n) (pgPON p) PON_REJECT = isSet s (pgPON p) PON_REJECT := by
  refine (leaves_writeOnu s p i n hstate hclean).isSet _ _ ?_
  simp [onuWriteFoot, clearReportFoot, wordSpan, pageSpan, pmcSpan, pgPON, pgRNG, pgGRD, pgEVT, pgPMC, PON_REJECT, GRD_ONU_IN_OP, PON_ONU_IN_USE,
    RNG_PERIOD_NOW, RNG_SKIP_LEVEL, ANY_EVT_SEQ, PON_F_DEFECT_CHANGE]
  omega

theorem onuWrite_takes (s : State) (o : Origin) (p : Fin 32) (i : Nat) (h : addrReject s o (pgPON p + PON_ONU_CMD.off) = none)
    (hi : i = fld s (pgPON p) PON_ONU_IDX) (hmine : mayUse (Origin.slice o) (onuOwner s p i) = true)
    (hstate : (onu s p i).state = stEmpty) (hheld : (onu s p i).held = false) (hclean : hasDefect (onu s p i) dSNMi = false)
    (hrej : (onuOfWindow s p (onu s p i)).valid = true → onuRejected s p i (onuOfWindow s p (onu s p i)) = false) :
    Completes (.onuWrite o p) s (fun t =>
      onu t p i = (if (onuOfWindow s p (onu s p i)).valid then onuOfWindow s p (onu s p i)
        else { onuOfWindow s p (onu s p i) with defects := 0, reported := 0 }) ∧
      TblOnly OnuRec.init (512 * p + i) s.pon.onu t.pon.onu ∧
      isSet t (pgPON p) PON_REJECT = false ∧
      Answered s t o 0 (pgPON p + PON_ONU_CMD.off) ∧
      Only (.onu :: .survey :: .phase :: .pm :: .fifo :: books) s t) := by
  have stat := leaves_onuStat s p false false
  have empty : (onu (onuStat s p false false) p i).state = stEmpty := by
    rw [stat.pon_onu (by simp), hstate]
  have leaves := leaves_writeOnu (onuStat s p false false) p i (onuOfWindow s p (onu s p i)) empty hclean
  obtain ⟨hrec, hothers⟩ := onu_writeOnu (onuStat s p false false) p i (onuOfWindow s p (onu s p i)) empty hclean
  rw [show (onuStat s p false false).pon.onu = s.pon.onu from stat.only .onu (by simp)] at hothers
  rw [recordTaken] at hrec
  have hreject := isSet_writeOnu_reject (onuStat s p false false) p i (onuOfWindow s p (onu s p i)) empty hclean
  have only : Only (.onu :: .survey :: .phase :: .pm :: alerts) s (writeOnu (onuStat s p false false) p i (onuOfWindow s p (onu s p i))) :=
    stat.onlyIn.trans leaves.only
  refine completes_window (c := 0) rfl h ?_ only fun t answered told => ?_
  · subst hi
    dsimp only
    rw [if_neg (by simp [hmine]), if_neg (by simp [hheld]), if_neg (by simpa using hrej)]
  · have table : t.pon.onu = (writeOnu (onuStat s p false false) p i (onuOfWindow s p (onu s p i))).pon.onu := told.only .onu (by decide)
    refine ⟨?_, ?_, ?_, answered, only.into.trans told.only.into⟩
    · rw [onu, table]
      exact hrec
    · rw [table]
      exact hothers
    · rw [told.port_isSet _ _ (port_pon ..), hreject]
      exact (onuStat_shows s p false false).2

/-- Settles O11: the window's commands by the bodies that answer them, a write by what it makes of a record in EMPTY, and the clears by their
runs over the counters. -/
theorem onuRecords : Obligations.OnuRecords := by
  unfold Obligations.OnuRecords
  exact ⟨onuRead_shows, onuWrite_takes, onuWrite_held, onuCounterClear_clears, cntClr_page, cntClr_journal⟩

end Sys2Proof.Machine
end

section
/-! PROOF. O12: key switches accepted, late, applied and dropped, and the end of a grace (R63, R64, R65, R358). -/

namespace Sys2Proof.Machine

/-! ### Messages of the supervision cluster beside a pending switch -/

/-- What a push into the urgent queue of a channel touches besides its ONU record. -/
def pushFoot (p c : Nat) : Foot :=
  ⟨[.regs, .ch, .pmc], [pmcSpan, wordSpan (pgCH p c + CH_URG_FILL.off), wordSpan (pgCH p c + CH_F_PLOAM_OVF.off),
    wordSpan (pgCH p c + CH_F_PLOAM_OVF.cntOff)]⟩

/-- A step that leaves the pending switch of a channel and every other channel. -/
structure SwitchKept (s t : State) (p c : Nat) : Prop where
  keySw : (chSt t p c).keySw = (chSt s p c).keySw
  others : TblOnly ChSt.init (3 * p + c) s.pon.ch t.pon.ch
  leaves : Leaves (pushFoot p c) s t

theorem SwitchKept.trans {s t u : State} {p c : Nat} (h1 : SwitchKept s t p c) (h2 : SwitchKept t u p c) : SwitchKept s u p c :=
  ⟨h2.keySw.trans h1.keySw, h1.others.trans h2.others, h1.leaves.trans h2.leaves⟩

theorem switchKept_setChSt {s t : State} {p c : Nat} {r : ChSt} (h : Leaves (pushFoot p c) s t) (ht : t.pon.ch = s.pon.ch)
    (hr : r.keySw = (chSt s p c).keySw) : SwitchKept s (setChSt t p c r) p c := by
  refine ⟨?_, ?_, h.andThen (leaves_setChSt t p c r) (by simp [Foot.Within, Covers, pushFoot])⟩
  · rw [chSt_setChSt_same, hr]
  · exact tblOnly_setChSt_of ht p c r

theorem switchKept_pushUrgent (s : State) (p c : Nat) (m : Ploam) (hm : m.body ≠ .assign) : SwitchKept s (pushUrgent s p c m) p c := by
  have shown (n v : Nat) : Leaves (pushFoot p c) s (setFld (setFld s (pgCH p c) CH_URG_FILL n) (pgCH p c) CH_PUSH_FULL v) :=
    ((leaves_setFld s (pgCH p c) CH_URG_FILL n).trans (leaves_setFld _ (pgCH p c) CH_PUSH_FULL v)).mono
      (by simp [Foot.Within, Covers, pushFoot])
  have refused : Leaves (pushFoot p c) s (pushRefused s (pgCH p c)) :=
    ((leaves_setFld s (pgCH p c) CH_PUSH_FULL 1).mono (by simp [Foot.Within, Covers, pushFoot, CH_PUSH_FULL, CH_URG_FILL])).andThen
      (leaves_flag _ (pgCH p c) CH_F_PLOAM_OVF) (by simp [Foot.Within, Covers, pushFoot])
  unfold pushUrgent
  dsimp only
  split
  · exact switchKept_setChSt (.refl _ s) rfl rfl
  · split
    · exact switchKept_setChSt (shown _ 0) (((only_setFld s _ _ _).trans (only_setFld _ _ _ _)) .ch (by decide)) rfl
    · exact switchKept_setChSt refused (((only_setFld s (pgCH p c) CH_PUSH_FULL 1).into.trans (only_flag _ _ _)) .ch (by decide)) rfl

/-! ### KEY_SW_GO -/

/-- The pending switch of a channel, shown. -/
def switchPending (s : State) (p c : Nat) (k : Option KeySw) (v : Nat) : State :=
  setFld (setChSt s p c { chSt s p c with keySw := k }) (pgCH p c) CH_PENDING v

theorem only_switchPending (s : State) (p c : Nat) (k : Option KeySw) (v : Nat) : Only [.ch, .regs] s (switchPending s p c k v) :=
  (leaves_setChSt s p c _).onlyIn.trans (only_setFld _ _ _ _).into

theorem switchPending_ch (s : State) (p c : Nat) (k : Option KeySw) (v : Nat) :
    (switchPending s p c k v).pon.ch = (setChSt s p c { chSt s p c with keySw := k }).pon.ch := only_setFld _ _ _ _ .ch (by simp)

theorem keySw_switchPending (s : State) (p c : Nat) (k : Option KeySw) (v : Nat) : (chSt (switchPending s p c k v) p c).keySw = k := by
  rw [chSt, switchPending_ch]
  exact congrArg ChSt.keySw (chSt_setChSt_same s p c _)

theorem tblOnly_switchPending (s : State) (p c : Nat) (k : Option KeySw) (v : Nat) :
    TblOnly ChSt.init (3 * p + c) s.pon.ch (switchPending s p c k v).pon.ch := by
  rw [switchPending_ch]
  exact tblOnly_setChSt s p c _

/-- A channel with its pending switch, and the messages that go with it. -/
structure SwitchAccepted (s t : State) (p c : Nat) (k : KeySw) : Prop where
  keySw : (chSt t p c).keySw = some k
  shown : fld t (pgCH p c) CH_PENDING = 1
  others : TblOnly ChSt.init (3 * p + c) s.pon.ch t.pon.ch
  only : Only [.regs, .ch, .pmc] s t

theorem SwitchAccepted.kept {s t u : State} {p c : Nat} {k : KeySw} (h : SwitchAccepted s t p c k) (hk : SwitchKept t u p c) :
    SwitchAccepted s u p c k := by
  refine ⟨hk.keySw.trans h.keySw, (hk.leaves.fld _ _ ?_).trans h.shown, h.others.trans hk.others, h.only.trans hk.leaves.only⟩
  simp [pushFoot, wordSpan, pmcSpan, pgPMC, pgCH, pgPON, CH_PENDING, CH_URG_FILL, CH_F_PLOAM_OVF]
  omega

theorem acceptSwitch_accepts (s : State) (p c : Nat) (k : KeySw) : SwitchAccepted s (acceptSwitch s p c k) p c k := by
  have pending : SwitchAccepted s (switchPending s p c (some k) 1) p c k :=
    ⟨keySw_switchPending .., fld_setFld_of_lt _ _ _ _ (by decide) (by decide), tblOnly_switchPending s p c _ _, (only_switchPending s p c _ _).into⟩
  have sent (t : State) : SwitchKept t (pushUrgent t p c ⟨.keySwitch (k.frame % 2 ^ 30), k.onu, k.onuId, now s⟩) p c :=
    switchKept_pushUrgent t p c _ (by simp)
  have run : acceptSwitch s p c k = if c = 0 then
      pushUrgent (pushUrgent (pushUrgent (switchPending s p c (some k) 1) p c ⟨.keySwitch (k.frame % 2 ^ 30), k.onu, k.onuId, now s⟩) p c
        ⟨.keySwitch (k.frame % 2 ^ 30), k.onu, k.onuId, now s⟩) p c ⟨.keySwitch (k.frame % 2 ^ 30), k.onu, k.onuId, now s⟩
      else switchPending s p c (some k) 1 := rfl
  rw [run]
  split
  · exact ((pending.kept (sent _)).kept (sent _)).kept (sent _)
  · exact pending

theorem keySwGo_accepts (s : State) (o : Origin) (p : Fin 32) (c : Fin 3) (i : Nat) (h : addrReject s o (pgCH p c + CH_KEY_SW_GO.off) = none)
    (hfind : findOnu s p c (fld s (pgCH p c) CH_KEY_ONU_ID) = some i) (hmine : mayUse (Origin.slice o) (onuOwner s p i) = true)
    (hslot : fld s (pgCH p c) CH_KEY_NEW_SLOT = firstSlot c ∨ fld s (pgCH p c) CH_KEY_NEW_SLOT = firstSlot c + 1)
    (hlead : (now s).fineIndex + keyLead c * finePerFrame ≤
      (fld s (pgCH p c) CH_KEY_F_LO + fld s (pgCH p c) CH_KEY_F_HI * 2 ^ 32) * finePerFrame) :
    Completes (.keySwGo o p c) s (fun t =>
      (chSt t p c).keySw = some ⟨i, fld s (pgCH p c) CH_KEY_ONU_ID, fld s (pgCH p c) CH_KEY_NEW_SLOT,
        fld s (pgCH p c) CH_KEY_F_LO + fld s (pgCH p c) CH_KEY_F_HI * 2 ^ 32⟩ ∧
      fld t (pgCH p c) CH_PENDING = 1 ∧
      Answered s t o 0 (pgCH p c + CH_KEY_SW_GO.off) ∧
      TblOnly ChSt.init (3 * p + c) s.pon.ch t.pon.ch ∧
      Only (.ch :: books) s t) := by
  obtain ⟨keySw, shown, others, only⟩ := acceptSwitch_accepts s p c ⟨i, fld s (pgCH p c) CH_KEY_ONU_ID, fld s (pgCH p c) CH_KEY_NEW_SLOT,
    fld s (pgCH p c) CH_KEY_F_LO + fld s (pgCH p c) CH_KEY_F_HI * 2 ^ 32⟩
  refine completes_window (c := 0) rfl h ?_ only fun t answered told => ?_
  · dsimp only
    rw [hfind]
    dsimp only
    rw [if_neg (by simp [hmine]), if_neg (by omega), if_pos hlead]
  · refine ⟨?_, (told.port_fld _ _ (port_ch ..)).trans shown, answered, ?_, only.into.trans told.only.into⟩
    · rw [told.pon_chSt (by decide), keySw]
    · rw [show t.pon.ch = _ from told.only .ch (by decide)]
      exact others

theorem flagSet_postTo_flag (s : State) (b v : Nat) (f : Flag) (k : EvCode) (l : List Nat) (h : f.bit < 32) (ho : f.off ≠ f.cntOff)
    (ha : Off (eventFoot.add (wordSpan (b + ANY_EVT_SEQ.off))).spans (b + f.off)) : flagSet (postTo (flag s b f) b v k l) b f = true := by
  rw [(leaves_postTo _ b v k l).flagSet b f ha]
  exact flagSet_flag s b f h ho (pmcWord_of_off ha (by simp [Foot.add, eventFoot]))

/-- The flag word of a channel page lies beside what its events touch. -/
theorem off_event_ch (p c : Nat) {f : Flag} (h : ANY_EVT_SEQ.off < f.off) :
    Off (eventFoot.add (wordSpan (pgCH p c + ANY_EVT_SEQ.off))).spans (pgCH p c + f.off) := by
  simp [Foot.add, eventFoot, wordSpan, pageSpan, pmcSpan, pgEVT, pgPMC, pgCH, pgPON]
  omega

theorem only_flag_postTo (s : State) (b v : Nat) (f : Flag) (k : EvCode) (l : List Nat) : Only alerts s (postTo (flag s b f) b v k l) :=
  (only_flag s b f).into.trans (leaves_postTo _ b v k l).only

theorem keySwGo_late (s : State) (o : Origin) (p : Fin 32) (c : Fin 3) (i : Nat) (h : addrReject s o (pgCH p c + CH_KEY_SW_GO.off) = none)
    (hfind : findOnu s p c (fld s (pgCH p c) CH_KEY_ONU_ID) = some i) (hmine : mayUse (Origin.slice o) (onuOwner s p i) = true)
    (hslot : fld s (pgCH p c) CH_KEY_NEW_SLOT = firstSlot c ∨ fld s (pgCH p c) CH_KEY_NEW_SLOT = firstSlot c + 1)
    (hlate : (fld s (pgCH p c) CH_KEY_F_LO + fld s (pgCH p c) CH_KEY_F_HI * 2 ^ 32) * finePerFrame <
      (now s).fineIndex + keyLead c * finePerFrame) :
    Completes (.keySwGo o p c) s (fun t =>
      flagSet t (pgCH p c) CH_F_KEY_LATE = true ∧
      Answered s t o 8 (pgCH p c + CH_KEY_SW_GO.off) ∧
      Only (.fifo :: books) s t) := by
  have only := only_flag_postTo s (pgCH p c) (onuOwner s p i) CH_F_KEY_LATE .keyLate [i, fld s (pgCH p c) CH_KEY_NEW_SLOT]
  refine completes_window (c := 8) rfl h ?_ only fun t answered told => ?_
  · dsimp only
    rw [hfind]
    dsimp only
    rw [if_neg (by simp [hmine]), if_neg (by omega), if_neg (by omega)]
  · refine ⟨?_, answered, only.into.trans told.only.into⟩
    rw [told.port_flagSet _ _ (port_ch ..)]
    exact flagSet_postTo_flag _ _ _ _ _ _ (by decide) (by decide) (off_event_ch p c (by decide))

/-! ### KEY_SWITCH -/

theorem keySwitch_applies (s : State) (p : Fin 32) (c : Fin 3) (k : KeySw) (hk : (chSt s p c).keySw = some k) (hdue : k.frame ≤ frame s)
    (hvalid : (onu s p k.onu).valid = true) (hch : (onu s p k.onu).ch = c.val) (hid : (onu s p k.onu).onuId = k.onuId) :
    Completes (.keySwitch p c) s (fun t =>
      keyEntry t (512 * p + k.onu) = switchEntry s p c k ∧
      TblOnly KeyEntry.init (512 * p + k.onu) s.keys t.keys ∧
      (chSt t p c).keySw = none ∧
      flagSet t (pgCH p c) CH_F_KEY_DONE = true ∧
      Only (.ch :: .keys :: alerts) s t) := by
  have ended := only_switchPending s p c none 0
  have stored := (leaves_setKeyEntry (switchPending s p c none 0) (512 * p + k.onu) (switchEntry s p c k)).only
  have told := only_flag_postTo (setKeyEntry (switchPending s p c none 0) (512 * p + k.onu) (switchEntry s p c k)) (pgCH p c) (onuOwner s p k.onu)
    CH_F_KEY_DONE .keyDone [k.onu, k.slot]
  have run : exec (.keySwitch p c) s = .next (postTo (flag (setKeyEntry (switchPending s p c none 0) (512 * p + k.onu) (switchEntry s p c k))
      (pgCH p c) CH_F_KEY_DONE) (pgCH p c) (onuOwner s p k.onu) .keyDone [k.onu, k.slot]) := by
    show execKeySwitch p c s = _
    rw [execKeySwitch, switchKeys, hk]
    dsimp only
    rw [if_pos hdue, if_pos (by simp [hvalid, hch, hid])]
    rfl
  refine ⟨_, run, ?_, ?_, ?_, flagSet_postTo_flag _ _ _ _ _ _ (by decide) (by decide) (off_event_ch p c (by decide)),
    ended.into.trans (stored.into.trans told.into)⟩
  · rw [keyEntry, told .keys (by decide)]
    exact keyEntry_setKeyEntry_same _ _ _
  · rw [told .keys (by decide), ← ended .keys (by decide)]
    exact tblOnly_setKeyEntry _ _ _
  · rw [chSt, told .ch (by decide)]
    exact keySw_switchPending s p c none 0

theorem keySwitch_drops (s : State) (p : Fin 32) (c : Fin 3) (k : KeySw) (hk : (chSt s p c).keySw = some k) (hdue : k.frame ≤ frame s)
    (hchanged : (onu s p k.onu).valid = false ∨ (onu s p k.onu).ch ≠ c.val ∨ (onu s p k.onu).onuId ≠ k.onuId) :
    Completes (.keySwitch p c) s (fun t =>
      (chSt t p c).keySw = none ∧
      flagSet t (pgCH p c) CH_F_KEY_SW_REJ = true ∧
      Only (.ch :: alerts) s t) := by
  have ended := only_switchPending s p c none 0
  have told := only_flag_postTo (switchPending s p c none 0) (pgCH p c) (onuOwner s p k.onu) CH_F_KEY_SW_REJ
    (.flag CH_F_KEY_SW_REJ.off CH_F_KEY_SW_REJ.bit) [k.onu, k.slot]
  have run : exec (.keySwitch p c) s = .next (postTo (flag (switchPending s p c none 0) (pgCH p c) CH_F_KEY_SW_REJ) (pgCH p c)
      (onuOwner s p k.onu) (.flag CH_F_KEY_SW_REJ.off CH_F_KEY_SW_REJ.bit) [k.onu, k.slot]) := by
    show execKeySwitch p c s = _
    rw [execKeySwitch, switchKeys, hk]
    dsimp only
    rw [if_pos hdue, if_neg (by simp only [Bool.and_eq_true, beq_iff_eq]; grind)]
    rfl
  refine ⟨_, run, ?_, flagSet_postTo_flag _ _ _ _ _ _ (by decide) (by decide) (off_event_ch p c (by decide)), ended.into.trans told.into⟩
  rw [chSt, told .ch (by decide)]
  exact keySw_switchPending s p c none 0

/-! ### KEY_GRACE_END -/

theorem keyGraceEnd_ends (s : State) (p : Fin 32) (i : Fin 512) (j f : Nat) (hgrace : (keyEntry s (512 * p + i)).grace = some (j, f))
    (hdue : f ≤ frame s) :
    Completes (.keyGraceEnd p i) s (fun t =>
      keyEntry t (512 * p + i) = { keyEntry s (512 * p + i) with grace := none } ∧
      TblOnly KeyEntry.init (512 * p + i) s.keys t.keys ∧
      Only [.keys] s t) := by
  have run : exec (.keyGraceEnd p i) s = .next (setKeyEntry s (512 * p + i) { keyEntry s (512 * p + i) with grace := none }) := by
    show execKeyGraceEnd p i s = _
    simp only [execKeyGraceEnd, hgrace, if_pos hdue]
  exact ⟨_, run, keyEntry_setKeyEntry_same .., tblOnly_setKeyEntry s _ _, (leaves_setKeyEntry s _ _).only⟩

/-- Settles O12: an accepted switch through the messages that go with it, the late one, the switch at its frame, and the end of a grace. -/
theorem keySwitches : Obligations.KeySwitches := by
  unfold Obligations.KeySwitches
  exact ⟨keySwGo_accepts, keySwGo_late, keySwitch_applies, keySwitch_drops, keyGraceEnd_ends⟩

end Sys2Proof.Machine
end

section
/-! SUPPORT. Lanes and the phase memory (R78 to R94), posted actions that fire or come too late (R19, R74), and fields of one page. -/

namespace Sys2Proof.Machine

variable {F : Foot} {s t : State}

theorem port_brx (p c off : Nat) : 0x01000000 ≤ pgBRX p c + off := by simp only [pgBRX, pgPON]; omega

/-- A footprint whose spans are all among another's. -/
theorem Foot.within_of_mem {F G : Foot} (hp : ∀ p ∈ F.parts, p ∈ G.parts) (hs : ∀ r ∈ F.spans, r ∈ G.spans) : F.Within G :=
  ⟨hp, fun r hr => ⟨r, hs r hr, le_refl _, le_refl _⟩⟩

/-! ### Fields of one page -/

/-- Fields of one page stand apart wherever the page lies. -/
theorem Fld.apart_of_page (b : Nat) {f g : Fld}
    (h : f.lsb + f.width ≤ 32 ∧ (g.off ≠ f.off ∨ g.lsb + g.width ≤ f.lsb ∨ f.lsb + f.width ≤ g.lsb)) : f.Apart b g :=
  ⟨h.1, h.2.imp_left fun hoff heq => hoff (Nat.add_left_cancel heq)⟩

/-! ### A flag with its counter -/

theorem flagSet_note (s : State) (b : Nat) (f : Flag) (i : Nat) (h : f.bit < 32) (ho : f.off ≠ f.cntOff) (hp : pmcWord (b + f.off) = false) :
    flagSet (note s b f i) b f = true := by
  rw [note, flagSet, isSet, fld, reg_bump _ _ _ _ _ hp]
  exact flagSet_flag s b f h ho hp

theorem cntAt_note_same (s : State) (b : Nat) (f : Flag) (i : Nat) :
    cntAt (note s b f i) (cntAddr b i) = min cntMax (cntAt s (cntAddr b i) + 1) := by
  rw [note, cntAt_bump_same, cntAt_flag]

/-! ### Lanes -/

theorem only_lane (s : State) (l : Tbl LaneSt) : Only [.lane] s { s with pon := { s.pon with lane := l } } := by
  intro p hp
  cases p
  case lane => simp at hp
  all_goals rfl

theorem leaves_setLane (s : State) (p c : Nat) (r : LaneSt) : Leaves ⟨[.lane], []⟩ s (setLane s p c r) :=
  .of_only (only_lane s _) (by decide) (by decide)

@[simp] theorem lane_setLane_same (s : State) (p c : Nat) (r : LaneSt) : lane (setLane s p c r) p c = r :=
  tget_tset_same LaneSt.init s.pon.lane (3 * p + c) r

theorem tblOnly_setLane (s : State) (p c : Nat) (r : LaneSt) : TblOnly LaneSt.init (3 * p + c) s.pon.lane (setLane s p c r).pon.lane :=
  fun _ hj => tget_tset_other _ _ _ _ _ hj

theorem Leaves.pon_lane (h : Leaves F s t) (hp : Part.lane ∉ F.parts) (p c : Nat) : lane t p c = lane s p c :=
  congrArg (tget LaneSt.init · (3 * p + c)) (h.only .lane hp)

/-! ### Phase memory -/

theorem leaves_setPhaseMem (s : State) (p c i : Nat) (e : PhaseEntry) : Leaves ⟨[.phase], []⟩ s (setPhaseMem s p c i e) :=
  .of_only (only_phase s _) (by decide) (by decide)

@[simp] theorem phaseMem_setPhaseMem_same (s : State) (p c i : Nat) (e : PhaseEntry) : phaseMem (setPhaseMem s p c i e) p c i = e :=
  tget_tset_same PhaseEntry.init s.pon.phase (512 * (3 * p + c) + i) e

theorem tblOnly_setPhaseMem (s : State) (p c i : Nat) (e : PhaseEntry) :
    TblOnly PhaseEntry.init (512 * (3 * p + c) + i) s.pon.phase (setPhaseMem s p c i e).pon.phase :=
  fun _ hj => tget_tset_other _ _ _ _ _ hj

theorem Leaves.pon_phaseMem (h : Leaves F s t) (hp : Part.phase ∉ F.parts) (p c i : Nat) : phaseMem t p c i = phaseMem s p c i :=
  congrArg (tget PhaseEntry.init · (512 * (3 * p + c) + i)) (h.only .phase hp)

theorem leaves_storePhase (s : State) (p c i : Nat) (e : PhaseEntry) : Leaves ⟨[.lane, .phase], []⟩ s (storePhase s p c i e) :=
  ((leaves_setLane s p c _).mono (by simp [Foot.Within, Covers])).andThen (leaves_setPhaseMem _ p c i e) (by simp [Foot.Within, Covers])

/-- A store takes the entry, and of the lane changes the list of what was replaced (R88). -/
theorem storePhase_stores (s : State) (p c i : Nat) (e : PhaseEntry) :
    phaseMem (storePhase s p c i e) p c i = e ∧
    TblOnly PhaseEntry.init (512 * (3 * p + c) + i) s.pon.phase (storePhase s p c i e).pon.phase ∧
    (∃ l, lane (storePhase s p c i e) p c = { lane s p c with stored := l }) ∧
    TblOnly LaneSt.init (3 * p + c) s.pon.lane (storePhase s p c i e).pon.lane :=
  ⟨phaseMem_setPhaseMem_same .., tblOnly_setPhaseMem (setLane s p c _) p c i e, ⟨_, lane_setLane_same s p c _⟩, tblOnly_setLane s p c _⟩

/-! ### Posted actions (R19, R74) -/

/-- A fired action leaves the list of the posted ones, and nothing else changes. -/
theorem unpost_grid (s : State) (k : ActKind) : ∃ g, unpost s k = { s with grid := g } ∧ g.now = s.grid.now := by
  unfold unpost
  split
  · exact ⟨_, rfl, rfl⟩
  · exact ⟨s.grid, rfl, rfl⟩

/-- What an action that comes too late touches, for a posting page b. -/
def lateFoot (b : Nat) : Foot :=
  ⟨alerts, [pmcSpan, pageSpan pgEVT, wordSpan (b + ANY_EVT_SEQ.off), wordSpan (b + BRX_F_LATE_ACTION.off),
    wordSpan (b + BRX_F_LATE_ACTION.cntOff), wordSpan (cntAddr b BRX_C_LATE_ACTION), wordSpan (pgGRD + GRD_F_LATE_ACTION.off),
    wordSpan (pgGRD + GRD_F_LATE_ACTION.cntOff)]⟩

theorem leaves_lateFlag (s : State) (b : Nat) : Leaves (lateFoot b) s (lateFlag s b) := by
  unfold lateFlag
  split
  · exact (leaves_note s b BRX_F_LATE_ACTION BRX_C_LATE_ACTION).mono (by simp [Foot.Within, Covers, lateFoot, alerts])
  · exact .refl _ s

theorem leaves_lateAction (s : State) (b : Nat) : Leaves (lateFoot b) s (lateAction s b) :=
  ((leaves_post s b .lateAction []).mono (by simp [Foot.Within, Covers, lateFoot, Foot.add, eventFoot])).andThen
    (leaves_flag _ pgGRD GRD_F_LATE_ACTION) (by simp [Foot.Within, Covers, lateFoot, alerts])

/-- What posting an action touches. -/
def postingFoot (b : Nat) : Foot := ⟨.grid :: alerts, (lateFoot b).spans⟩

theorem lateFoot_within (b : Nat) : (lateFoot b).Within (postingFoot b) :=
  Foot.within_of_mem (fun _ hp => List.mem_cons_of_mem _ hp) fun _ hr => hr

theorem leaves_postAction (s : State) (a : Action) : Leaves (postingFoot a.base) s (postAction s a) := by
  unfold postAction
  refine .ite (fun _ => ?_) (fun _ => ((leaves_lateFlag s a.base).trans (leaves_lateAction _ a.base)).mono (lateFoot_within _))
  exact (leaves_grid s _).mono (by simp [Foot.Within, Covers, postingFoot])

theorem now_postAction (s : State) (a : Action) : now (postAction s a) = now s := by
  unfold postAction
  split
  · rfl
  · exact congrArg GridSt.now (((leaves_lateFlag s a.base).trans (leaves_lateAction _ a.base)).only .grid (by simp [lateFoot, alerts]))

end Sys2Proof.Machine
end

section
/-! PROOF. O13: words of burst profiles (R75, R76, R89, R105, R117). -/

namespace Sys2Proof.Machine

/-! ### What a profile in force touches -/

theorem leaves_publishPpu (s : State) (p c : Nat) : Leaves ⟨[.regs], [pageSpan (pgALC p c)]⟩ s (publishPpu s p c) := by
  refine .foldl (fun t j hj => (leaves_setFld t (pgALC p c) (ALC_PPU.at j) _).mono ?_) s
  have hlt : j < 4 := by
    have := List.mem_range.mp hj
    split at this <;> omega
  simp [Foot.Within, Covers, wordSpan, pageSpan, Fld.at, ALC_PPU]
  omega

theorem leaves_refreshSuppressed (s : State) (p c : Nat) :
    Leaves ⟨[.regs], [wordSpan (pgRNG p c + RNG_SUPPRESSED.off)]⟩ s (refreshSuppressed s p c) := leaves_setBit ..

theorem leaves_dropCold (s : State) (p c j : Nat) : Leaves ⟨[.phase], []⟩ s (dropCold s p c j) :=
  .foldl (fun t e _ => leaves_invalidatePhase t p c e.1) s

/-- The pages that follow from a profile in force: PPU (R117) and SUPPRESSED (R105). -/
def profPublished (s : State) (p c : Nat) : State := refreshSuppressed (publishPpu s p c) p c

/-- A profile word stored and published; entries learned at another rate are invalid (R89). -/
def profTaken (s s1 : State) (p c j : Nat) : State :=
  if profRate (profWords s1 p c j) = profRate (profWords s p c j) then profPublished s1 p c else dropCold (profPublished s1 p c) p c j

/-- What a profile in force touches. -/
def profFoot (p c : Nat) : Foot := ⟨[.regs, .phase], [pageSpan (pgALC p c), wordSpan (pgRNG p c + RNG_SUPPRESSED.off)]⟩

theorem leaves_profPublished (s : State) (p c : Nat) : Leaves ⟨[.regs], (profFoot p c).spans⟩ s (profPublished s p c) :=
  ((leaves_publishPpu s p c).mono (by simp [Foot.Within, Covers, profFoot])).andThen (leaves_refreshSuppressed _ p c)
    (by simp [Foot.Within, Covers, profFoot])

theorem leaves_profTaken (s s1 : State) (p c j : Nat) : Leaves (profFoot p c) s1 (profTaken s s1 p c j) := by
  have published : Leaves (profFoot p c) s1 (profPublished s1 p c) :=
    (leaves_profPublished s1 p c).mono (Foot.within_of_mem (by simp [profFoot]) fun _ hr => hr)
  exact .ite (fun _ => published) (fun _ => published.andThen (leaves_dropCold _ p c j) (by simp [Foot.Within, Covers, profFoot]))

/-- A profile word lies beside the pages that follow from it. -/
theorem off_profFoot (p : Nat) (c : Fin 3) (j : Fin 4) (w : Fin 9) : Off (profFoot p c).spans (profBase p c j + 4 * w) := by
  simp [profFoot, pageSpan, wordSpan, profBase, pgBRX, pgALC, pgRNG, pgPON, RNG_SUPPRESSED]
  omega

theorem port_profWord (p c j w : Nat) : 0x01000000 ≤ profBase p c j + 4 * w := by simp only [profBase, pgBRX, pgPON]; omega

/-! ### PROFILE_WRITE -/

theorem profileWrite_takes (s : State) (o : Origin) (p : Fin 32) (c : Fin 3) (j : Fin 4) (w : Fin 9) (d : Word) (a : Nat) (s1 : State)
    (ha : a = profBase p c j + 4 * w) (h : addrReject s o a = none) (hprof : c.val ≠ 0 ∨ j.val = 0)
    (hs1 : s1 = setReg s a (writtenWord .BRX (3 * p + c) (a % 0x1000) false d (reg s a)))
    (hrej : profValid (profWords s1 p c j) = true → profRejected s p c (profWords s1 p c j) = false)
    (hentries : entriesBroken s s1 p c = false) :
    Completes (.profileWrite o p c j w d) s (fun t =>
      reg t a = writtenWord .BRX (3 * p + c) (a % 0x1000) false d (reg s a) ∧
      (profRate (profWords s1 p c j) = profRate (profWords s p c j) → t.pon.phase = s.pon.phase) ∧
      Answered s t o 0 a ∧
      RegsOnly (pgALC p c :: pgRNG p c :: bookPages) [a] s t ∧
      Only (.phase :: books) s t) := by
  have stored : Leaves ⟨[.regs], [wordSpan a]⟩ s s1 := hs1 ▸ leaves_setReg s a _
  have taken := leaves_profTaken s s1 p c j
  have only : Only [.regs, .phase] s (profTaken s s1 p c j) := stored.onlyIn.trans taken.only
  refine completes_ownWrite (u := profTaken s s1 p c j) (a := a) (c := 0) (by rw [ha]; rfl) h ?_ only fun t told => ?_
  · dsimp only
    rw [← ha, ← hs1, if_neg (by omega), if_neg (by simpa [hentries] using hrej)]
    rfl
  · refine ⟨?_, fun hrate => ?_, told.answered, ?_, told.only only (by decide) (by decide)⟩
    · rw [told.leaves.port_reg (ha ▸ port_profWord ..), taken.reg a (ha ▸ off_profFoot p c j w), hs1,
        reg_setReg_same]
    · have kept : profTaken s s1 p c j = profPublished s1 p c := if_pos hrate
      exact (told.leaves.only .phase (by decide)).trans
        ((kept ▸ (leaves_profPublished s1 p c).only .phase (by simp)).trans (stored.only .phase (by simp)))
    · have all : Leaves ⟨.phase :: books, wordSpan a :: ((profFoot p c).spans ++ recordFoot.spans)⟩ s t :=
        (stored.mono (Foot.within_of_mem (by simp [books]) (by simp))).trans
          ((taken.mono (Foot.within_of_mem (by simp [profFoot, books]) fun r hr => by simp [hr])).trans
            (told.leaves.mono (Foot.within_of_mem (fun q hq => by simp_all [recordFoot]) fun r hr => by simp [hr])))
      refine all.regsOnly _ _ ?_
      simp [profFoot, recordFoot, wordSpan, pageSpan, pmcSpan, bookPages, pgJRN, pgSLC, pgPMC, pgALC, pgRNG, pgPON, RNG_SUPPRESSED]
      omega

theorem profileWrite_rejected (s : State) (o : Origin) (p : Fin 32) (c : Fin 3) (j : Fin 4) (w : Fin 9) (d : Word) (a : Nat) (s1 : State)
    (ha : a = profBase p c j + 4 * w) (h : addrReject s o a = none) (hprof : c.val ≠ 0 ∨ j.val = 0)
    (hs1 : s1 = setReg s a (writtenWord .BRX (3 * p + c) (a % 0x1000) false d (reg s a)))
    (hvalid : profValid (profWords s1 p c j) = true) (hrej : profRejected s p c (profWords s1 p c j) = true) :
    Completes (.profileWrite o p c j w d) s (fun t =>
      reg t a = reg s a ∧
      flagSet t (pgBRX p c) BRX_F_PROFILE_REJ = true ∧
      Answered s t o 1 a ∧
      Only books s t) := by
  have flagged := leaves_flag s (pgBRX p c) BRX_F_PROFILE_REJ
  have only : Only [.regs, .pmc] s (flag s (pgBRX p c) BRX_F_PROFILE_REJ) := flagged.only
  refine completes_ownWrite (u := flag s (pgBRX p c) BRX_F_PROFILE_REJ) (a := a) (c := 1) (by rw [ha]; rfl) h ?_ only fun t told => ?_
  · dsimp only
    rw [← ha, ← hs1, if_neg (by omega), if_pos (by simp [hvalid, hrej])]
  · refine ⟨?_, ?_, told.answered, told.only only (by decide) (by decide)⟩
    · refine (told.leaves.port_reg (ha ▸ port_profWord ..)).trans (flagged.reg a ?_)
      simp [ha, wordSpan, pmcSpan, profBase, pgBRX, pgPON, pgPMC, BRX_F_PROFILE_REJ]
      omega
    · rw [told.leaves.port_flagSet _ _ (port_brx ..)]
      exact flagSet_flag _ _ _ (by decide) (by decide) (pmcWord_port (port_brx ..))

/-- A G channel has profile 0 only (R75). -/
theorem profileWrite_noProfile (s : State) (o : Origin) (p : Fin 32) (j : Fin 4) (w : Fin 9) (d : Word)
    (h : addrReject s o (profBase p 0 j + 4 * w) = none) (hj : j.val ≠ 0) :
    Completes (.profileWrite o p 0 j w d) s (fun t =>
      reg t (profBase p 0 j + 4 * w) = reg s (profBase p 0 j + 4 * w) ∧
      Answered s t o 1 (profBase p 0 j + 4 * w) ∧
      RegsOnly bookPages [] s t ∧
      Only books s t) := by
  refine completes_ownWrite (u := s) (l := []) (c := 1) rfl h (if_pos ⟨rfl, hj⟩) (Only.refl _ s) fun t told => ?_
  exact ⟨told.leaves.port_reg (port_profWord ..), told.answered, told.regsOnly _ fun _ _ _ => rfl, told.leaves.only⟩

/-- Settles O13: a word that is taken with what follows from it, one that R76 rejects, and one of a profile that a G channel has not. -/
theorem profileWrites : Obligations.ProfileWrites := by
  unfold Obligations.ProfileWrites
  exact ⟨profileWrite_takes, profileWrite_rejected, profileWrite_noProfile⟩

end Sys2Proof.Machine
end

section
/-! PROOF. O14: pulses before bursts, preloads and write-backs (R80, R85, R86, R88, R353). -/

namespace Sys2Proof.Machine

/-! ### BRST_PULSE -/

/-- The lane once the pulse before entry b of its schedule has come. -/
def pulsedLane (s : State) (p c : Nat) (sw : Bool) (b : Burst) : LaneSt :=
  { lane s p c with
    sched := changeFirst awaitsPulse (fun b => { b with pulsed := true }) (lane s p c).sched,
    brstRise := pulseRise s p c sw b, brstFall := pulseRise s p c sw b + fld s (pgBRX p c) BRX_BRST_WIDTH }

/-- The lane once the entry that awaits its pulse is dropped (R85). -/
def droppedLane (s : State) (p c : Nat) : LaneSt :=
  { lane s p c with sched := changeFirst awaitsPulse (fun b => { b with pulsed := true, loaded := true }) (lane s p c).sched }

/-- The pulse has come: the lane, and the count of a rate switch (R353). -/
def burstPulsed (s : State) (p c : Nat) (sw : Bool) (b : Burst) : State :=
  if sw then bump (setLane s p c (pulsedLane s p c sw b)) (pgBRX p c) BRX_C_RATE_SWITCHES 1 else setLane s p c (pulsedLane s p c sw b)

/-- The burst is dropped, and GUARD_VIOL tells so. -/
def burstDropped (s : State) (p c : Nat) : State :=
  note (setLane s p c (droppedLane s p c)) (pgBRX p c) BRX_F_GUARD_VIOL BRX_C_GUARD_VIOL

theorem brstPulse_rises {s : State} {p c : Nat} {b : Burst} {sw : Bool} (hb : (lane s p c).sched.find? awaitsPulse = some b)
    (hsw : sw = needsSwitch (rateBefore awaitsPulse (lane s p c).rate (lane s p c).sched) b)
    (hguard : guardViolated s p c (endBefore awaitsPulse (lane s p c).lastEnd (lane s p c).sched) sw b = false) :
    brstPulse s p c = burstPulsed s p c sw b := by
  subst hsw
  simp only [brstPulse, hb, hguard]
  rfl

theorem brstPulse_drops {s : State} {p c : Nat} {b : Burst} (hb : (lane s p c).sched.find? awaitsPulse = some b)
    (hguard : guardViolated s p c (endBefore awaitsPulse (lane s p c).lastEnd (lane s p c).sched)
      (needsSwitch (rateBefore awaitsPulse (lane s p c).rate (lane s p c).sched) b) b = true) :
    brstPulse s p c = burstDropped s p c := by
  simp only [brstPulse, hb, hguard]
  rfl

theorem only_burstPulsed (s : State) (p c : Nat) (sw : Bool) (b : Burst) :
    Only [.regs, .cnt, .pmc] (setLane s p c (pulsedLane s p c sw b)) (burstPulsed s p c sw b) := by
  unfold burstPulsed
  split
  · exact only_bump _ _ _ _
  · exact Only.refl _ _

theorem cntAt_burstPulsed (s : State) (p c : Nat) (sw : Bool) (b : Burst) :
    cntAt (burstPulsed s p c sw b) (cntAddr (pgBRX p c) BRX_C_RATE_SWITCHES) = if sw then
      min cntMax (cntAt s (cntAddr (pgBRX p c) BRX_C_RATE_SWITCHES) + 1) else cntAt s (cntAddr (pgBRX p c) BRX_C_RATE_SWITCHES) := by
  unfold burstPulsed
  split
  · exact cntAt_bump_same ..
  · rfl

theorem regsOnly_burstPulsed (s : State) (p c : Nat) (sw : Bool) (b : Burst) : RegsOnly [pgPMC] [] s (burstPulsed s p c sw b) := by
  have stored : RegsOnly [pgPMC] [] s (setLane s p c (pulsedLane s p c sw b)) := fun _ _ _ => rfl
  unfold burstPulsed
  split
  · exact regsOnly_bump stored _ _ _
  · exact stored

theorem brstPulse_pulses (s : State) (p : Fin 32) (c : Fin 3) (l : LaneSt) (b : Burst) (sw : Bool) (hl : l = lane s p c)
    (hb : l.sched.find? awaitsPulse = some b) (hsw : sw = needsSwitch (rateBefore awaitsPulse l.rate l.sched) b)
    (hguard : guardViolated s p c (endBefore awaitsPulse l.lastEnd l.sched) sw b = false) :
    Completes (.brstPulse p c) s (fun t =>
      (lane t p c).brstRise = pulseRise s p c sw b ∧
      (lane t p c).brstFall = pulseRise s p c sw b + fld s (pgBRX p c) BRX_BRST_WIDTH ∧
      (lane t p c).rate = l.rate ∧
      (lane t p c).sched = changeFirst awaitsPulse (fun b => { b with pulsed := true }) l.sched ∧
      cntAt t (cntAddr (pgBRX p c) BRX_C_RATE_SWITCHES) = (if sw then
        min cntMax (cntAt s (cntAddr (pgBRX p c) BRX_C_RATE_SWITCHES) + 1) else cntAt s (cntAddr (pgBRX p c) BRX_C_RATE_SWITCHES)) ∧
      TblOnly LaneSt.init (3 * p + c) s.pon.lane t.pon.lane ∧
      RegsOnly [pgPMC] [] s t ∧
      Only [.lane, .grid, .regs, .cnt, .pmc] s t) := by
  subst hl
  obtain ⟨g, hg, -⟩ := unpost_grid s (.brst p c)
  have run : exec (.brstPulse p c) s = .next (brstPulse { s with grid := g } p c) := hg ▸ rfl
  rw [brstPulse_rises (s := { s with grid := g }) hb hsw hguard] at run
  have only := only_burstPulsed { s with grid := g } p c sw b
  have lanes : (burstPulsed { s with grid := g } p c sw b).pon.lane = (setLane s p c (pulsedLane s p c sw b)).pon.lane := only .lane (by decide)
  have same : lane (burstPulsed { s with grid := g } p c sw b) p c = pulsedLane s p c sw b := by
    rw [lane, lanes]
    exact lane_setLane_same s p c _
  refine ⟨_, run, ?_⟩
  dsimp only
  rw [same, lanes]
  exact ⟨rfl, rfl, rfl, rfl, cntAt_burstPulsed _ p c sw b, tblOnly_setLane s p c _, regsOnly_burstPulsed { s with grid := g } p c sw b,
    (only_grid s g).into.trans ((leaves_setLane _ p c _).onlyIn.trans only.into)⟩

theorem brstPulse_violates (s : State) (p : Fin 32) (c : Fin 3) (l : LaneSt) (b : Burst) (hl : l = lane s p c)
    (hb : l.sched.find? awaitsPulse = some b)
    (hguard : guardViolated s p c (endBefore awaitsPulse l.lastEnd l.sched) (needsSwitch (rateBefore awaitsPulse l.rate l.sched) b) b = true) :
    Completes (.brstPulse p c) s (fun t =>
      (lane t p c).sched = changeFirst awaitsPulse (fun b => { b with pulsed := true, loaded := true }) l.sched ∧
      (lane t p c).brstRise = l.brstRise ∧
      (lane t p c).rate = l.rate ∧
      flagSet t (pgBRX p c) BRX_F_GUARD_VIOL = true ∧
      cntAt t (cntAddr (pgBRX p c) BRX_C_GUARD_VIOL) = min cntMax (cntAt s (cntAddr (pgBRX p c) BRX_C_GUARD_VIOL) + 1) ∧
      TblOnly LaneSt.init (3 * p + c) s.pon.lane t.pon.lane ∧
      Only [.lane, .grid, .regs, .cnt, .pmc] s t) := by
  subst hl
  obtain ⟨g, hg, -⟩ := unpost_grid s (.brst p c)
  have run : exec (.brstPulse p c) s = .next (brstPulse { s with grid := g } p c) := hg ▸ rfl
  rw [brstPulse_drops (s := { s with grid := g }) hb hguard] at run
  have noted := leaves_note (setLane { s with grid := g } p c (droppedLane s p c)) (pgBRX p c) BRX_F_GUARD_VIOL BRX_C_GUARD_VIOL
  have lanes : (burstDropped { s with grid := g } p c).pon.lane = (setLane s p c (droppedLane s p c)).pon.lane := noted.only .lane (by simp)
  have same : lane (burstDropped { s with grid := g } p c) p c = droppedLane s p c := by
    rw [lane, lanes]
    exact lane_setLane_same s p c _
  refine ⟨_, run, ?_⟩
  dsimp only
  rw [same, lanes]
  exact ⟨rfl, rfl, rfl, flagSet_note _ _ _ _ (by decide) (by decide) (pmcWord_port (port_brx ..)), cntAt_note_same .., tblOnly_setLane s p c _,
    (only_grid s g).into.trans ((leaves_setLane _ p c _).onlyIn.trans noted.onlyIn)⟩

/-! ### PHASE_PRELOAD -/

/-- The lane once the preload for entry b of its schedule has come. -/
def loadedLane (s : State) (p c : Nat) (b : Burst) : LaneSt :=
  { lane s p c with
    sched := changeFirst awaitsPreload (fun x => { x with loaded := true, preload := some (preloadOf s p c b) }) (lane s p c).sched,
    phase := (preloadOf s p c b).1, peak := (preloadOf s p c b).2 }

theorem phasePreload_eq {s : State} {p c : Nat} {b : Burst} (hb : (lane s p c).sched.find? awaitsPreload = some b) :
    phasePreload s p c = setLane s p c (loadedLane s p c b) := by
  simp only [phasePreload, hb]
  rfl

theorem phasePreload_loads (s : State) (p : Fin 32) (c : Fin 3) (l : LaneSt) (b : Burst) (hl : l = lane s p c)
    (hb : l.sched.find? awaitsPreload = some b) :
    Completes (.phasePreload p c) s (fun t =>
      ((lane t p c).phase, (lane t p c).peak) = preloadOf s p c b ∧
      (lane t p c).sched = changeFirst awaitsPreload (fun x => { x with loaded := true, preload := some (preloadOf s p c b) }) l.sched ∧
      TblOnly LaneSt.init (3 * p + c) s.pon.lane t.pon.lane ∧
      Only [.lane, .grid] s t) := by
  subst hl
  obtain ⟨g, hg, -⟩ := unpost_grid s (.preload p c)
  have run : exec (.phasePreload p c) s = .next (phasePreload { s with grid := g } p c) := hg ▸ rfl
  rw [phasePreload_eq (s := { s with grid := g }) hb] at run
  have same : lane (setLane { s with grid := g } p c (loadedLane { s with grid := g } p c b)) p c = loadedLane s p c b :=
    lane_setLane_same { s with grid := g } p c _
  refine ⟨_, run, ?_⟩
  dsimp only
  rw [same]
  exact ⟨rfl, rfl, tblOnly_setLane s p c _, (only_grid s g).into.trans (leaves_setLane _ p c _).onlyIn⟩

/-! ### PHASE_WRITE_BACK -/

/-- The lane once write-back b has come. -/
def backLane (s : State) (p c : Nat) (b : Back) : LaneSt := { lane s p c with back := (lane s p c).back.erase b }

theorem phaseWriteBack_stores (s : State) (p : Fin 32) (c : Fin 3) (i : Fin 512) (ph : Fin 256) (pk : Fin 32) (b : Back)
    (hb : (lane s p c).back.find? (fun x => x.due s i ph pk) = some b) :
    Completes (.phaseWriteBack p c i ph pk) s (fun t =>
      phaseMem t p c i = ⟨(b.phase + b.shift) % 256, b.peak, profRate b.b.words, frame s % 2 ^ 32, b.valid, true⟩ ∧
      (lane t p c).phase = (lane s p c).phase ∧
      (lane t p c).peak = (lane s p c).peak ∧
      (lane t p c).back = (lane s p c).back.erase b ∧
      (lane t p c).sched = (lane s p c).sched ∧
      TblOnly PhaseEntry.init (512 * (3 * p + c) + i) s.pon.phase t.pon.phase ∧
      TblOnly LaneSt.init (3 * p + c) s.pon.lane t.pon.lane ∧
      Only [.lane, .phase] s t) := by
  have run : exec (.phaseWriteBack p c i ph pk) s = .next (storePhase (setLane s p c (backLane s p c b)) p c i
      ⟨(b.phase + b.shift) % 256, b.peak, profRate b.b.words, frame s % 2 ^ 32, b.valid, true⟩) := by
    show execPhaseWriteBack p c i ph pk s = _
    simp only [execPhaseWriteBack, hb]
    rfl
  obtain ⟨entry, entries, ⟨k, hk⟩, lanes⟩ := storePhase_stores (setLane s p c (backLane s p c b)) p c i
    ⟨(b.phase + b.shift) % 256, b.peak, profRate b.b.words, frame s % 2 ^ 32, b.valid, true⟩
  rw [lane_setLane_same] at hk
  refine ⟨_, run, ?_⟩
  dsimp only
  rw [hk]
  exact ⟨entry, rfl, rfl, rfl, rfl, entries, (tblOnly_setLane s p c _).trans lanes,
    (leaves_setLane s p c _).onlyIn.trans (leaves_storePhase _ p c i _).only⟩

/-- Settles O14: a pulse that rises or is dropped on the lane of an action that has fired, a preload, and a store of the phase memory. -/
theorem pulsesAndPreloads : Obligations.PulsesAndPreloads := by
  unfold Obligations.PulsesAndPreloads
  exact ⟨brstPulse_pulses, brstPulse_violates, phasePreload_loads, phaseWriteBack_stores⟩

end Sys2Proof.Machine
end

section
/-! PROOF. O15: the window of the phase memory (R86, R89, R90, R95). -/

namespace Sys2Proof.Machine

/-! ### The status of the window -/

theorem leaves_pmOwn (s : State) (p c : Nat) (own : Bool) :
    Leaves ⟨[.regs], [wordSpan (pgBRX p c + BRX_OWN_ERR.off)]⟩ s (pmOwn s p c own) := leaves_setBit ..

theorem leaves_pmConflict (s : State) (p c : Nat) (conflict : Bool) :
    Leaves ⟨[.regs], [wordSpan (pgBRX p c + BRX_OWN_ERR.off)]⟩ s (pmConflict s p c conflict) := leaves_setBit s (pgBRX p c) BRX_CONFLICT conflict

/-- The data words lie beside the status. -/
theorem off_pmStatus (p c : Nat) {f : Fld} (h : f.off ≠ BRX_OWN_ERR.off) :
    Off [wordSpan (pgBRX p c + BRX_OWN_ERR.off)] (pgBRX p c + f.off) := by
  simp only [Off, List.mem_singleton, forall_eq, wordSpan]
  omega

/-- OWN_ERR, and data words of 0. -/
def pmRefused (s : State) (p c : Nat) : State :=
  setReg (setReg (pmOwn s p c true) (pgBRX p c + BRX_PHASE.off) 0) (pgBRX p c + BRX_STAMP.off) 0

theorem only_pmRefused (s : State) (p c : Nat) : Only [.regs] s (pmRefused s p c) :=
  ((leaves_pmOwn s p c true).only.trans (only_setReg _ _ _)).trans (only_setReg _ _ _)

/-- What a command of the window answers: OWN_ERR and zeros for an entry that the slice may not use. -/
def pmAnswer (o : Origin) (p c : Nat) (body : Nat → State → State × Nat) (s : State) : State × Nat :=
  if mayUse (Origin.slice o) (onuOwner s p (fld s (pgBRX p c) BRX_PM_IDX)) then body (fld s (pgBRX p c) BRX_PM_IDX) (pmOwn s p c false)
  else (pmRefused s p c, 2)

theorem pmCommand_eq (o : Origin) (p c : Nat) (body : Nat → State → State × Nat) (s : State) :
    pmCommand o p c body s = command o (pgBRX p c + BRX_PM_CMD.off) (pgBRX p c + BRX_PM_IDX.off) (pmAnswer o p c body) s := rfl

/-- A command of the window for an entry that the slice may use, told by what its body answers after OWN_ERR reads 0. -/
theorem completes_pmCommand {l : List Part} {i : Instr} {o : Origin} {p : Fin 32} {c : Fin 3} {code : Nat} {s u : State}
    {body : Nat → State → State × Nat} {P : State → Prop} (hexec : exec i s = .next (pmCommand o p c body s))
    (h : addrReject s o (pgBRX p c + BRX_PM_CMD.off) = none)
    (hmine : mayUse (Origin.slice o) (onuOwner s p (fld s (pgBRX p c) BRX_PM_IDX)) = true)
    (hbody : body (fld s (pgBRX p c) BRX_PM_IDX) (pmOwn s p c false) = (u, code)) (hb : Only l (pmOwn s p c false) u)
    (hP : ∀ t, Answered s t o code (pgBRX p c + BRX_PM_CMD.off) → Leaves recordFoot u t → P t)
    (hj : Part.jrn ∉ .regs :: l := by decide) (hg : Part.grid ∉ .regs :: l := by decide) : Completes i s P :=
  completes_window (l := .regs :: l) (pmCommand_eq .. ▸ hexec) h ((if_pos hmine).trans hbody)
    (((leaves_pmOwn s p c false).onlyIn (by simp)).trans (hb.mono fun _ hp => List.mem_cons_of_mem _ hp)) hP hj hg

/-! ### PM_READ -/

/-- An entry in the words of the window. -/
def pmShown (s : State) (b : Nat) (e : PhaseEntry) : State :=
  setFld (setBit (setFld (setFld (setFld s b BRX_PHASE e.phase) b BRX_PEAK e.peak) b BRX_RATE e.rate) b BRX_VALID e.valid) b BRX_STAMP e.stamp

theorem pmShown_shows (s : State) (b : Nat) (e : PhaseEntry) :
    fld (pmShown s b e) b BRX_PHASE = e.phase % 2 ^ BRX_PHASE.width ∧ fld (pmShown s b e) b BRX_PEAK = e.peak % 2 ^ BRX_PEAK.width ∧
    fld (pmShown s b e) b BRX_RATE = e.rate % 2 ^ BRX_RATE.width ∧ isSet (pmShown s b e) b BRX_VALID = e.valid ∧
    fld (pmShown s b e) b BRX_STAMP = e.stamp % 2 ^ BRX_STAMP.width := by
  have stamp (t : State) (g : Fld) (v : Nat) (h : g.off ≠ BRX_STAMP.off) : fld (setFld t b BRX_STAMP v) b g = fld t b g :=
    fld_setFld_apart t v (Fld.apart_of_page b ⟨by decide, .inl h⟩)
  unfold pmShown
  refine ⟨?_, ?_, ?_, ?_, fld_setFld_same _ _ _ _ (by decide)⟩
  · rw [stamp _ _ _ (by decide), fld_setBit_apart _ _ (Fld.apart_of_page b (by decide)), fld_setFld_apart _ _ (Fld.apart_of_page b (by decide)),
      fld_setFld_apart _ _ (Fld.apart_of_page b (by decide)), fld_setFld_same _ _ _ _ (by decide)]
  · rw [stamp _ _ _ (by decide), fld_setBit_apart _ _ (Fld.apart_of_page b (by decide)), fld_setFld_apart _ _ (Fld.apart_of_page b (by decide)),
      fld_setFld_same _ _ _ _ (by decide)]
  · rw [stamp _ _ _ (by decide), fld_setBit_apart _ _ (Fld.apart_of_page b (by decide)), fld_setFld_same _ _ _ _ (by decide)]
  · rw [isSet, stamp _ _ _ (by decide)]
    exact isSet_setBit_same _ _ _ _ (by decide) (by decide)

theorem only_pmShown (s : State) (b : Nat) (e : PhaseEntry) : Only [.regs] s (pmShown s b e) :=
  ((((only_setFld s _ _ _).trans (only_setFld _ _ _ _)).trans (only_setFld _ _ _ _)).trans (only_setBit _ _ _ _)).trans (only_setFld _ _ _ _)

theorem pmRead_shows (s : State) (o : Origin) (p : Fin 32) (c : Fin 3) (e : PhaseEntry)
    (h : addrReject s o (pgBRX p c + BRX_PM_CMD.off) = none)
    (hmine : mayUse (Origin.slice o) (onuOwner s p (fld s (pgBRX p c) BRX_PM_IDX)) = true)
    (he : e = phaseMem s p c (fld s (pgBRX p c) BRX_PM_IDX)) :
    Completes (.pmRead o p c) s (fun t =>
      fld t (pgBRX p c) BRX_PHASE = e.phase % 2 ^ BRX_PHASE.width ∧
      fld t (pgBRX p c) BRX_PEAK = e.peak % 2 ^ BRX_PEAK.width ∧
      fld t (pgBRX p c) BRX_RATE = e.rate % 2 ^ BRX_RATE.width ∧
      isSet t (pgBRX p c) BRX_VALID = e.valid ∧
      fld t (pgBRX p c) BRX_STAMP = e.stamp % 2 ^ BRX_STAMP.width ∧
      Answered s t o 0 (pgBRX p c + BRX_PM_CMD.off) ∧
      Only books s t) := by
  subst he
  have own := leaves_pmOwn s p c false
  have shown := only_pmShown (pmOwn s p c false) (pgBRX p c) (phaseMem s p c (fld s (pgBRX p c) BRX_PM_IDX))
  obtain ⟨hphase, hpeak, hrate, hvalid, hstamp⟩ :=
    pmShown_shows (pmOwn s p c false) (pgBRX p c) (phaseMem s p c (fld s (pgBRX p c) BRX_PM_IDX))
  refine completes_pmCommand rfl h hmine rfl shown fun t answered told => ?_
  exact ⟨(told.port_fld _ _ (port_brx ..)).trans hphase, (told.port_fld _ _ (port_brx ..)).trans hpeak,
    (told.port_fld _ _ (port_brx ..)).trans hrate, (told.port_isSet _ _ (port_brx ..)).trans hvalid,
    (told.port_fld _ _ (port_brx ..)).trans hstamp, answered, own.onlyIn.trans (shown.into.trans told.only)⟩

/-! ### PM_WRITE -/

/-- The entry that the words of the window make. -/
def pmEntry (s : State) (b : Nat) : PhaseEntry :=
  ⟨fld s b BRX_PHASE, fld s b BRX_PEAK, fld s b BRX_RATE, fld s b BRX_STAMP, isSet s b BRX_VALID, true⟩

theorem pmWrite_stores (s : State) (o : Origin) (p : Fin 32) (c : Fin 3) (h : addrReject s o (pgBRX p c + BRX_PM_CMD.off) = none)
    (hmine : mayUse (Origin.slice o) (onuOwner s p (fld s (pgBRX p c) BRX_PM_IDX)) = true) :
    Completes (.pmWrite o p c false) s (fun t =>
      phaseMem t p c (fld s (pgBRX p c) BRX_PM_IDX) = ⟨fld s (pgBRX p c) BRX_PHASE, fld s (pgBRX p c) BRX_PEAK, fld s (pgBRX p c) BRX_RATE,
        fld s (pgBRX p c) BRX_STAMP, isSet s (pgBRX p c) BRX_VALID, true⟩ ∧
      TblOnly PhaseEntry.init (512 * (3 * p + c) + (fld s (pgBRX p c) BRX_PM_IDX)) s.pon.phase t.pon.phase ∧
      Answered s t o 0 (pgBRX p c + BRX_PM_CMD.off) ∧
      Only (.phase :: .lane :: books) s t) := by
  have own := leaves_pmOwn s p c false
  have status := own.trans (leaves_pmConflict _ p c false)
  have window : pmEntry (pmOwn s p c false) (pgBRX p c) = pmEntry s (pgBRX p c) := by
    rw [pmEntry, own.fld _ _ (off_pmStatus p c (by decide)), own.fld _ _ (off_pmStatus p c (by decide)),
      own.fld _ _ (off_pmStatus p c (by decide)), own.fld _ _ (off_pmStatus p c (by decide)), own.isSet _ _ (off_pmStatus p c (by decide)), pmEntry]
  obtain ⟨entry, entries, -⟩ := storePhase_stores (pmConflict (pmOwn s p c false) p c false) p c (fld s (pgBRX p c) BRX_PM_IDX)
    (pmEntry s (pgBRX p c))
  have stored := leaves_storePhase (pmConflict (pmOwn s p c false) p c false) p c (fld s (pgBRX p c) BRX_PM_IDX) (pmEntry s (pgBRX p c))
  have only : Only [.regs, .lane, .phase] (pmOwn s p c false) (storePhase (pmConflict (pmOwn s p c false) p c false) p c
      (fld s (pgBRX p c) BRX_PM_IDX) (pmEntry s (pgBRX p c))) := (leaves_pmConflict _ p c false).onlyIn.trans stored.onlyIn
  refine completes_pmCommand (code := 0) rfl h hmine (window ▸ rfl) only fun t answered told => ?_
  have table := told.only .phase (by decide)
  refine ⟨?_, ?_, answered, own.onlyIn.trans (only.into.trans told.only.into)⟩
  · rw [phaseMem, table]
    exact entry
  · rw [table, ← status.only .phase (by simp)]
    exact entries

theorem pmWrite_conflicts (s : State) (o : Origin) (p : Fin 32) (c : Fin 3) (h : addrReject s o (pgBRX p c + BRX_PM_CMD.off) = none)
    (hmine : mayUse (Origin.slice o) (onuOwner s p (fld s (pgBRX p c) BRX_PM_IDX)) = true) :
    Completes (.pmWrite o p c true) s (fun t =>
      isSet t (pgBRX p c) BRX_CONFLICT = true ∧
      Answered s t o 4 (pgBRX p c + BRX_PM_CMD.off) ∧
      Only books s t) := by
  have status : Only [.regs] (pmOwn s p c false) (pmConflict (pmOwn s p c false) p c true) := (leaves_pmConflict _ p c true).only
  refine completes_pmCommand (code := 4) rfl h hmine rfl status fun t answered told => ⟨?_, answered, ?_⟩
  · exact (told.port_isSet _ _ (port_brx ..)).trans (isSet_setBit_same _ _ _ _ (by decide) (by decide))
  · exact (leaves_pmOwn s p c false).onlyIn.trans (status.into.trans told.only)

/-! ### PM_INVALIDATE -/

theorem invalidatePhase_eq (s : State) (p i : Nat) (c : Fin 3) :
    invalidatePhase s p c i = setPhaseMem s p c i { phaseMem s p c i with valid := false } := if_pos c.isLt

theorem pmInvalidate_clears (s : State) (o : Origin) (p : Fin 32) (c : Fin 3) (h : addrReject s o (pgBRX p c + BRX_PM_CMD.off) = none)
    (hmine : mayUse (Origin.slice o) (onuOwner s p (fld s (pgBRX p c) BRX_PM_IDX)) = true) :
    Completes (.pmInvalidate o p c) s (fun t =>
      phaseMem t p c (fld s (pgBRX p c) BRX_PM_IDX) = { phaseMem s p c (fld s (pgBRX p c) BRX_PM_IDX) with valid := false } ∧
      TblOnly PhaseEntry.init (512 * (3 * p + c) + (fld s (pgBRX p c) BRX_PM_IDX)) s.pon.phase t.pon.phase ∧
      Answered s t o 0 (pgBRX p c + BRX_PM_CMD.off) ∧
      Only (.phase :: books) s t) := by
  have own := leaves_pmOwn s p c false
  have cleared := leaves_invalidatePhase (pmOwn s p c false) p c (fld s (pgBRX p c) BRX_PM_IDX)
  refine completes_pmCommand (code := 0) rfl h hmine rfl cleared.only fun t answered told => ?_
  have table := told.only .phase (by decide)
  rw [invalidatePhase_eq] at table
  refine ⟨?_, ?_, answered, own.onlyIn.trans (cleared.onlyIn.trans told.only.into)⟩
  · rw [phaseMem, table, ← own.pon_phaseMem (by simp)]
    exact phaseMem_setPhaseMem_same _ p c _ _
  · rw [table, ← own.only .phase (by simp)]
    exact tblOnly_setPhaseMem _ p c _ _

/-! ### An entry of another slice -/

theorem pmCommand_refuses {i : Instr} {o : Origin} {p : Fin 32} {c : Fin 3} {s : State} {body : Nat → State → State × Nat}
    (hexec : exec i s = .next (pmCommand o p c body s)) (h : addrReject s o (pgBRX p c + BRX_PM_CMD.off) = none)
    (hforeign : mayUse (Origin.slice o) (onuOwner s p (fld s (pgBRX p c) BRX_PM_IDX)) = false) :
    Completes i s (fun t =>
      reg t (pgBRX p c + BRX_PHASE.off) = 0 ∧
      reg t (pgBRX p c + BRX_STAMP.off) = 0 ∧
      Answered s t o 2 (pgBRX p c + BRX_PM_CMD.off) ∧
      Only books s t) := by
  refine completes_window (u := pmRefused s p c) (pmCommand_eq .. ▸ hexec) h (if_neg (by simp [hforeign])) (only_pmRefused s p c) fun t answered told => ?_
  refine ⟨?_, ?_, answered, (only_pmRefused s p c).into.trans told.only⟩
  · rw [told.port_reg (port_brx ..), pmRefused, reg_setReg_other _ _ _ _ (by simp [BRX_PHASE, BRX_STAMP]), reg_setReg_same]
  · rw [told.port_reg (port_brx ..), pmRefused, reg_setReg_same]

theorem pm_refused (s : State) (o : Origin) (p : Fin 32) (c : Fin 3) (i : Instr)
    (hi : i = .pmRead o p c ∨ i = .pmWrite o p c false ∨ i = .pmInvalidate o p c)
    (h : addrReject s o (pgBRX p c + BRX_PM_CMD.off) = none)
    (hforeign : mayUse (Origin.slice o) (onuOwner s p (fld s (pgBRX p c) BRX_PM_IDX)) = false) :
    Completes i s (fun t =>
      reg t (pgBRX p c + BRX_PHASE.off) = 0 ∧
      reg t (pgBRX p c + BRX_STAMP.off) = 0 ∧
      Answered s t o 2 (pgBRX p c + BRX_PM_CMD.off) ∧
      Only books s t) := by
  rcases hi with rfl | rfl | rfl
  · exact pmCommand_refuses rfl h hforeign
  · exact pmCommand_refuses rfl h hforeign
  · exact pmCommand_refuses rfl h hforeign

/-- Settles O15: each command by its body on an entry of the slice, and all three by the answer to one of another slice. -/
theorem phaseMemoryWindow : Obligations.PhaseMemoryWindow := by
  unfold Obligations.PhaseMemoryWindow
  exact ⟨pmRead_shows, pmWrite_stores, pmWrite_conflicts, pmInvalidate_clears, pm_refused⟩

end Sys2Proof.Machine
end

section
/-! PROOF. O16, received-power measurement: a request made, its pulse, and its deferral (R79, R82). -/

namespace Sys2Proof.Machine

/-! ### A request and what is posted for it -/

/-- The lane with request r, for what starts at position m or later. -/
def LaneSt.asks (l : LaneSt) (r : RssiReq) (m : Nat) : LaneSt := { l with rssi := some { r with at_ := m } }

/-- A request waits for what starts at its own position or later. -/
theorem rssiTarget_from {l : LaneSt} {r : RssiReq} {b : Burst} (h : rssiTarget l r = some b) : r.at_ ≤ b.ps := by
  have := List.find?_some h
  simp only [Bool.and_eq_true, decide_eq_true_eq] at this
  exact this.1.2

theorem rssiPulseAt_target {s : State} {p c : Nat} {r : RssiReq} {w : Nat × Nat} (hr : (lane s p c).rssi = some r)
    (hw : rssiPulseAt s p c = some w) : ∃ b, rssiTarget (lane s p c) r = some b := by
  simp only [rssiPulseAt, hr, Option.map_eq_some_iff] at hw
  exact hw.imp fun _ h => h.1

/-- What posting the pulse of a request leaves: the request itself, or the same request from a later position on. -/
structure Reposted (s t : State) (p c : Nat) (r : RssiReq) : Prop where
  asks : ∃ m, r.at_ ≤ m ∧ lane t p c = (lane s p c).asks r m
  others : TblOnly LaneSt.init (3 * p + c) s.pon.lane t.pon.lane
  leaves : Leaves ⟨.lane :: .grid :: alerts, (lateFoot (pgBRX p c)).spans⟩ s t
  now : now t = now s

theorem reposted_postRssi {s : State} {p c : Nat} {r : RssiReq} (hr : (lane s p c).rssi = some r) : Reposted s (postRssi s p c) p c r := by
  obtain ⟨g, hg, hnow⟩ := unpost_grid s (.rssi p c)
  have own : lane s p c = (lane s p c).asks r r.at_ := by rw [LaneSt.asks, ← hr]
  have freed : Leaves ⟨.lane :: .grid :: alerts, (lateFoot (pgBRX p c)).spans⟩ s { s with grid := g } :=
    (leaves_grid s g).mono (by simp [Foot.Within, Covers])
  have posting (t : State) (a : Action) (ha : a.base = pgBRX p c) :
      Leaves ⟨.lane :: .grid :: alerts, (lateFoot (pgBRX p c)).spans⟩ t (postAction t a) :=
    (ha ▸ leaves_postAction t a).mono (Foot.within_of_mem (fun _ hp => List.mem_cons_of_mem _ hp) fun _ hr => hr)
  have lanes (t : State) (a : Action) : (postAction t a).pon.lane = t.pon.lane :=
    (leaves_postAction t a).only .lane (by simp [postingFoot, alerts])
  unfold postRssi
  rw [hg]
  dsimp only
  rw [hr]
  split
  next r' w hr' hw =>
    cases hr'
    obtain ⟨b, hb⟩ := rssiPulseAt_target hr hw
    split
    · refine ⟨⟨r.at_, le_refl _, ?_⟩, ?_, freed.trans (posting _ _ rfl), (now_postAction _ _).trans hnow⟩
      · rw [lane, lanes]
        exact own
      · rw [lanes]
        exact fun _ _ => rfl
    · have moved := leaves_setLane { s with grid := g } p c ((lane s p c).asks r (b.ps + 1))
      rw [hb]
      refine ⟨⟨b.ps + 1, Nat.le_succ_of_le (rssiTarget_from hb), ?_⟩, ?_, ?_, (now_postAction _ _).trans hnow⟩
      · rw [lane, lanes]
        exact lane_setLane_same { s with grid := g } p c _
      · rw [lanes]
        exact tblOnly_setLane s p c _
      · exact (freed.andThen moved (by simp [Foot.Within, Covers])).trans (posting _ _ rfl)
  next => exact ⟨⟨r.at_, le_refl _, own⟩, fun _ _ => rfl, freed, hnow⟩

/-! ### RSSI_GO -/

/-- The request that the window makes (R82). -/
def rssiAsked (s : State) (p c : Nat) : RssiReq :=
  ⟨fld s (pgBRX p c) BRX_RSSI_ONU, isSet s (pgBRX p c) BRX_RSSI_DARK,
    (now s).fineIndex + (if isSet s (pgBRX p c) BRX_RSSI_DARK then 0 else 16 * finePerGt)⟩

/-- The request is the pending one of its channel, and shown. -/
def rssiPending (s : State) (p c : Nat) : State :=
  setLane (setBit s (pgBRX p c) BRX_RSSI_PENDING true) p c { lane s p c with rssi := some (rssiAsked s p c) }

theorem rssiGo_asks (s : State) (o : Origin) (p : Fin 32) (c : Fin 3) (h : addrReject s o (pgBRX p c + BRX_RSSI_GO.off) = none) :
    Completes (.rssiGo o p c) s (fun t =>
      (∃ x, (lane t p c).rssi = some x ∧ x.onu = fld s (pgBRX p c) BRX_RSSI_ONU ∧ x.dark = isSet s (pgBRX p c) BRX_RSSI_DARK ∧
        (now s).fineIndex + (if isSet s (pgBRX p c) BRX_RSSI_DARK then 0 else 16 * finePerGt) ≤ x.at_) ∧
      (lane t p c).sched = (lane s p c).sched ∧
      isSet t (pgBRX p c) BRX_RSSI_PENDING = true ∧
      TblOnly LaneSt.init (3 * p + c) s.pon.lane t.pon.lane ∧
      Answered s t o 0 (pgBRX p c + BRX_RSSI_GO.off) ∧
      Only (.lane :: .grid :: .fifo :: books) s t) := by
  have held : lane (rssiPending s p c) p c = { lane s p c with rssi := some (rssiAsked s p c) } := lane_setLane_same _ p c _
  have shown : isSet (rssiPending s p c) (pgBRX p c) BRX_RSSI_PENDING = true := isSet_setBit_same s _ _ true (by decide) (by decide)
  have pending : Only [.regs, .lane] s (rssiPending s p c) := (only_setBit s _ _ _).into.trans (leaves_setLane _ p c _).onlyIn
  obtain ⟨⟨m, hm, hlane⟩, others, leaves, hnow⟩ := reposted_postRssi (s := rssiPending s p c) (p := p) (c := c) (congrArg LaneSt.rssi held)
  rw [held] at hlane
  have only : Only (.lane :: .grid :: alerts) s (postRssi (rssiPending s p c) p c) := (pending.into (by decide)).trans leaves.only
  refine completes_command (u := postRssi (rssiPending s p c) p c) (c := 0) rfl h rfl (only .jrn (by simp [alerts])) hnow
    fun t answered told _ => ?_
  have lanes := told.only .lane (by decide)
  have same : lane t p c = lane (postRssi (rssiPending s p c) p c) p c := told.pon_lane (by decide) p c
  rw [same, hlane, lanes]
  refine ⟨⟨_, rfl, rfl, rfl, hm⟩, rfl, ?_, (tblOnly_setLane s p c _).trans others, answered, only.into.trans told.only.into⟩
  rw [told.port_isSet _ _ (port_brx ..), leaves.isSet _ _ ?_, shown]
  simp [lateFoot, wordSpan, pageSpan, pmcSpan, cntAddr, pgBRX, pgPON, pgEVT, pgPMC, pgGRD, ANY_EVT_SEQ, BRX_F_LATE_ACTION, BRX_C_LATE_ACTION,
    GRD_F_LATE_ACTION, BRX_RSSI_PENDING]
  omega

/-! ### RSSI_PULSE -/

/-- The pulse is given and ends the request. -/
def rssiGiven (s : State) (p c : Nat) (w : Nat × Nat) : State :=
  setBit (setLane s p c { lane s p c with rssi := none, rssiRise := w.1, rssiFall := w.2 }) (pgBRX p c) BRX_RSSI_PENDING false

/-- The pulse is counted, and RSSI_DONE tells of it. -/
def rssiFired (s : State) (p c : Nat) (w : Nat × Nat) : State :=
  flag (bump (rssiGiven s p c w) (pgBRX p c) BRX_C_RSSI_TRIGS 1) (pgBRX p c) BRX_F_RSSI_DONE

/-- A higher channel's pulse that overlaps is deferred. -/
def rssiYield (p c : Nat) (w : Nat × Nat) (s : State) (d : Nat) : State :=
  match (if c < d then rssiPulseAt s p d else none) with
  | some v => if overlap w v then rssiDefer s p d else s
  | none => s

/-- A higher channel whose pulse stays clear is not deferred. -/
theorem rssiYield_clear {s : State} {p c d : Nat} {w : Nat × Nat}
    (hclear : (d ≤ c || (rssiPulseAt s p d).all (fun v => !overlap w v)) = true) : rssiYield p c w s d = s := by
  unfold rssiYield
  by_cases hcd : c < d
  · rw [if_pos hcd]
    cases hv : rssiPulseAt s p d with
    | none => rfl
    | some v =>
      have hover : overlap w v = false := by simpa [hv, Nat.not_le.mpr hcd] using hclear
      simp [hover]
  · rw [if_neg hcd]

theorem rssiPulse_fires {s : State} {p c : Nat} {w : Nat × Nat} (hw : rssiPulseAt s p c = some w) (hfree : rssiBlocked s p c w = false)
    (hclear : (List.range 3).all (fun d => d ≤ c || (rssiPulseAt s p d).all (fun v => !overlap w v)) = true) :
    rssiPulse s p c = rssiFired s p c w := by
  have stay (d : Nat) (hd : d ∈ List.range 3) : rssiYield p c w s d = s := rssiYield_clear (List.all_eq_true.mp hclear d hd)
  have unmoved : (List.range 3).foldl (rssiYield p c w) s = s := by
    rw [show List.range 3 = [0, 1, 2] from rfl, List.foldl_cons, stay 0 (by decide), List.foldl_cons, stay 1 (by decide), List.foldl_cons,
      stay 2 (by decide), List.foldl_nil]
  have run : rssiPulse s p c = rssiFired ((List.range 3).foldl (rssiYield p c w) s) p c w := by
    simp only [rssiPulse, hw, hfree]
    rfl
  rw [run, unmoved]

theorem rssiPulse_gives (s : State) (p : Fin 32) (c : Fin 3) (w : Nat × Nat) (hw : rssiPulseAt s p c = some w)
    (hfree : rssiBlocked s p c w = false)
    (hclear : (List.range 3).all (fun d => d ≤ c.val || (rssiPulseAt s p d).all (fun v => !overlap w v)) = true) :
    Completes (.rssiPulse p c) s (fun t =>
      ((lane t p c).rssiRise, (lane t p c).rssiFall) = w ∧
      (lane t p c).rssi = none ∧
      flagSet t (pgBRX p c) BRX_F_RSSI_DONE = true ∧
      cntAt t (cntAddr (pgBRX p c) BRX_C_RSSI_TRIGS) = min cntMax (cntAt s (cntAddr (pgBRX p c) BRX_C_RSSI_TRIGS) + 1) ∧
      TblOnly LaneSt.init (3 * p + c) s.pon.lane t.pon.lane ∧
      Only [.lane, .grid, .regs, .cnt, .pmc] s t) := by
  obtain ⟨g, hg, -⟩ := unpost_grid s (.rssi p c)
  have run : exec (.rssiPulse p c) s = .next (rssiPulse { s with grid := g } p c) := hg ▸ rfl
  rw [rssiPulse_fires (s := { s with grid := g }) hw hfree hclear] at run
  have given : Only [.lane, .grid, .regs] s (rssiGiven { s with grid := g } p c w) :=
    (only_grid s g).into.trans ((leaves_setLane _ p c _).onlyIn.trans (only_setBit _ _ _ _).into)
  have fired : Only [.regs, .cnt, .pmc] (rssiGiven { s with grid := g } p c w) (rssiFired { s with grid := g } p c w) :=
    (only_bump _ _ _ _).trans (only_flag _ _ _).into
  have lanes : (rssiFired { s with grid := g } p c w).pon.lane =
      (setLane s p c { lane s p c with rssi := none, rssiRise := w.1, rssiFall := w.2 }).pon.lane :=
    (fired .lane (by decide)).trans (only_setBit _ _ _ _ .lane (by decide))
  have same : lane (rssiFired { s with grid := g } p c w) p c = { lane s p c with rssi := none, rssiRise := w.1, rssiFall := w.2 } := by
    rw [lane, lanes]
    exact lane_setLane_same s p c _
  refine ⟨_, run, ?_⟩
  dsimp only
  rw [same, lanes]
  refine ⟨rfl, rfl, flagSet_flag _ _ _ (by decide) (by decide) (pmcWord_port (port_brx ..)), ?_, tblOnly_setLane s p c _,
    given.into.trans fired.into⟩
  rw [rssiFired, cntAt_flag, cntAt_bump_same]
  rfl

/-- The request passes what follows b, posted anew, and RSSI_DEFER tells of it. -/
def rssiDeferred (s : State) (p c : Nat) (r : RssiReq) (b : Burst) : State :=
  flag (postRssi (setLane s p c ((lane s p c).asks r (b.ps + 1))) p c) (pgBRX p c) BRX_F_RSSI_DEFER

theorem rssiPulse_passes {s : State} {p c : Nat} {w : Nat × Nat} {r : RssiReq} {b : Burst} (hr : (lane s p c).rssi = some r)
    (hb : rssiTarget (lane s p c) r = some b) (hw : rssiPulseAt s p c = some w) (hblocked : rssiBlocked s p c w = true) :
    rssiPulse s p c = rssiDeferred s p c r b := by
  simp only [rssiPulse, hw, hblocked, if_true, rssiDefer, hr, hb]
  rfl

theorem rssiDeferred_asks (s : State) (p c : Nat) (r : RssiReq) (b : Burst) :
    (∃ m, b.ps < m ∧ lane (rssiDeferred s p c r b) p c = (lane s p c).asks r m) ∧
    Only (.lane :: .grid :: alerts) s (rssiDeferred s p c r b) := by
  have held := lane_setLane_same s p c ((lane s p c).asks r (b.ps + 1))
  obtain ⟨⟨m, hm, hlane⟩, -, leaves, -⟩ := reposted_postRssi (congrArg LaneSt.rssi held)
  have told := only_flag (postRssi (setLane s p c ((lane s p c).asks r (b.ps + 1))) p c) (pgBRX p c) BRX_F_RSSI_DEFER
  refine ⟨⟨m, hm, ?_⟩, (leaves_setLane s p c _).onlyIn.trans (leaves.only.trans (told.into (m := .lane :: .grid :: alerts)))⟩
  rw [held] at hlane
  rw [lane, rssiDeferred, told .lane (by decide)]
  exact hlane

theorem rssiPulse_defers (s : State) (p : Fin 32) (c : Fin 3) (w : Nat × Nat) (r : RssiReq) (b : Burst) (hr : (lane s p c).rssi = some r)
    (hb : rssiTarget (lane s p c) r = some b) (hw : rssiPulseAt s p c = some w) (hblocked : rssiBlocked s p c w = true) :
    Completes (.rssiPulse p c) s (fun t =>
      (∃ x, (lane t p c).rssi = some x ∧ x.onu = r.onu ∧ x.dark = r.dark ∧ b.ps < x.at_) ∧
      (lane t p c).rssiRise = (lane s p c).rssiRise ∧
      flagSet t (pgBRX p c) BRX_F_RSSI_DEFER = true ∧
      Only (.lane :: .grid :: alerts) s t) := by
  obtain ⟨g, hg, -⟩ := unpost_grid s (.rssi p c)
  have run : exec (.rssiPulse p c) s = .next (rssiPulse { s with grid := g } p c) := hg ▸ rfl
  rw [rssiPulse_passes (s := { s with grid := g }) hr hb hw hblocked] at run
  obtain ⟨⟨m, hm, hlane⟩, only⟩ := rssiDeferred_asks { s with grid := g } p c r b
  refine ⟨_, run, ?_⟩
  dsimp only
  rw [hlane]
  exact ⟨⟨_, rfl, rfl, rfl, hm⟩, rfl, flagSet_flag _ _ _ (by decide) (by decide) (pmcWord_port (port_brx ..)),
    (only_grid s g).into.trans only⟩

end Sys2Proof.Machine
end

section
/-! PROOF. O16, signal detect and dark slots, and its assembly (R81, R93, R94). -/

namespace Sys2Proof.Machine

/-! ### SD_LEVEL_CHANGE -/

theorem only_pair (s : State) (l : Tbl PairSt) : Only [.pair] s { s with prot := { s.prot with pair := l } } := by
  intro p hp
  cases p
  case pair => simp at hp
  all_goals rfl

theorem leaves_noteLight (s : State) (p : Nat) (light : Bool) : Leaves ⟨[.pair], []⟩ s (noteLight s p light) := by
  unfold noteLight
  dsimp only
  split
  · exact .ite (fun _ => .of_only (only_pair s _) (by decide) (by decide)) (fun _ => .refl _ s)
  · exact .refl _ s

theorem sdLevelChange_takes (s : State) (p : Fin 32) (c : Fin 3) (v : Bool) (n : Nat) (hn : max 1 (fld s (pgBRX p c) BRX_SD_FILT) ≤ n) :
    Completes (.sdLevelChange p c v n) s (fun t =>
      (lane t p c).sd = v ∧
      lane t p c = { lane s p c with sd := v } ∧
      TblOnly LaneSt.init (3 * p + c) s.pon.lane t.pon.lane ∧
      Only [.lane, .pair] s t) := by
  have noted := leaves_noteLight (setLane s p c { lane s p c with sd := v }) p v
  have same : lane (noteLight (setLane s p c { lane s p c with sd := v }) p v) p c = { lane s p c with sd := v } :=
    (noted.pon_lane (by simp) p c).trans (lane_setLane_same s p c _)
  have lanes := noted.only .lane (by simp)
  have run : exec (.sdLevelChange p c v n) s = .next (noteLight (setLane s p c { lane s p c with sd := v }) p v) := if_pos hn
  refine ⟨_, run, congrArg LaneSt.sd same, same, ?_, (leaves_setLane s p c _).onlyIn.trans noted.onlyIn⟩
  rw [lanes]
  exact tblOnly_setLane s p c _

theorem sdLevelChange_waits (s : State) (p : Fin 32) (c : Fin 3) (v : Bool) (n : Nat) (hn : n < max 1 (fld s (pgBRX p c) BRX_SD_FILT)) :
    Completes (.sdLevelChange p c v n) s (fun t => t = s) := ⟨s, if_neg (Nat.not_le.mpr hn), rfl⟩

/-! ### ROGUE after a dark slot (R94) -/

/-- What judging ROGUE touches. -/
def rogueFoot (b : Nat) : Foot :=
  ⟨alerts, [pmcSpan, pageSpan pgEVT, wordSpan (b + ANY_EVT_SEQ.off), wordSpan (b + BRX_ROGUE_STATE.off), wordSpan (b + BRX_F_ROGUE.off),
    wordSpan (b + BRX_F_ROGUE.cntOff), wordSpan (cntAddr b BRX_C_ROGUE_RAISES)]⟩

/-- A dark slot leaves the channel as it is, ends ROGUE, or raises it. -/
theorem evalRogue_cases (s : State) (p c : Nat) :
    evalRogue s p c = s ∨
    evalRogue s p c = post (setBit s (pgBRX p c) BRX_ROGUE_STATE false) (pgBRX p c) (.rogue false) [3 * p + c] ∨
    evalRogue s p c = post (note (setBit s (pgBRX p c) BRX_ROGUE_STATE true) (pgBRX p c) BRX_F_ROGUE BRX_C_ROGUE_RAISES) (pgBRX p c)
      (.rogue true) [3 * p + c] := by
  unfold evalRogue
  dsimp only
  split
  · split
    · exact .inr (.inl rfl)
    · exact .inl rfl
  · split
    · exact .inr (.inr rfl)
    · exact .inl rfl

theorem leaves_evalRogue (s : State) (p c : Nat) : Leaves (rogueFoot (pgBRX p c)) s (evalRogue s p c) := by
  have judged (v : Bool) : Leaves (rogueFoot (pgBRX p c)) s (setBit s (pgBRX p c) BRX_ROGUE_STATE v) :=
    (leaves_setBit s (pgBRX p c) BRX_ROGUE_STATE v).mono (by simp [Foot.Within, Covers, rogueFoot, alerts])
  have posted : (eventFoot.add (wordSpan (pgBRX p c + ANY_EVT_SEQ.off))).Within (rogueFoot (pgBRX p c)) := by
    simp [Foot.Within, Covers, rogueFoot, Foot.add, eventFoot]
  rcases evalRogue_cases s p c with h | h | h <;> rw [h]
  · exact .refl _ s
  · exact (judged false).andThen (leaves_post _ _ _ _) posted
  · exact ((judged true).andThen (leaves_note _ (pgBRX p c) BRX_F_ROGUE BRX_C_ROGUE_RAISES)
      (by simp [Foot.Within, Covers, rogueFoot, alerts])).andThen (leaves_post _ _ _ _) posted

/-- The flag word of the page lies beside what its events touch. -/
theorem off_event_brx (p c : Nat) (f : Flag) (h : f.off = 0x70) :
    Off (eventFoot.add (wordSpan (pgBRX p c + ANY_EVT_SEQ.off))).spans (pgBRX p c + f.off) := by
  simp [Foot.add, eventFoot, wordSpan, pageSpan, pmcSpan, pgEVT, pgPMC, pgBRX, pgPON, ANY_EVT_SEQ, h]
  omega

/-- ROGUE shares its word with DARK_HIT and leaves it. -/
theorem darkHit_evalRogue (s : State) (p c : Nat) :
    flagSet (evalRogue s p c) (pgBRX p c) BRX_F_DARK_HIT = flagSet s (pgBRX p c) BRX_F_DARK_HIT := by
  have port : pmcWord (pgBRX p c + BRX_F_DARK_HIT.off) = false := pmcWord_port (port_brx ..)
  have judged (v : Bool) : flagSet (setBit s (pgBRX p c) BRX_ROGUE_STATE v) (pgBRX p c) BRX_F_DARK_HIT = flagSet s (pgBRX p c) BRX_F_DARK_HIT := by
    rw [flagSet, isSet, fld_setBit_apart _ _ (Fld.apart_of_page _ (by decide)), flagSet, isSet]
  have noted (t : State) : flagSet (note t (pgBRX p c) BRX_F_ROGUE BRX_C_ROGUE_RAISES) (pgBRX p c) BRX_F_DARK_HIT =
      flagSet t (pgBRX p c) BRX_F_DARK_HIT := by
    rw [note, (leaves_bump _ _ _ _).flagSet _ _ ?_, flagSet, isSet, fld_flag_beside _ _ _ _ _ (by decide) (.inr (.inl (by decide)))
      (by simp [BRX_F_DARK_HIT, BRX_F_ROGUE]) port, flagSet, isSet]
    simp [wordSpan, pmcSpan, pgPMC, pgBRX, pgPON, cntAddr, BRX_F_DARK_HIT, BRX_C_ROGUE_RAISES]
    omega
  rcases evalRogue_cases s p c with h | h | h <;> rw [h]
  · rw [(leaves_post _ _ _ _).flagSet _ _ (off_event_brx p c _ rfl), judged]
  · rw [(leaves_post _ _ _ _).flagSet _ _ (off_event_brx p c _ rfl), noted, judged]

/-! ### DARK_SLOT_TEST -/

/-- The slot has left the schedule, its result is the newest, and it is counted. -/
def darkTested (s : State) (p c : Nat) (d : Burst) (light : Bool) : State :=
  bump (setLane s p c { (lane s p c).leave d with dark := (light :: (lane s p c).dark).take 15, lastEnd := some d.end_ }) (pgBRX p c)
    BRX_C_DARK_SLOTS 1

/-- Light in the slot is told by DARK_HIT and its event. -/
def darkTold (s : State) (p c : Nat) (d : Burst) (light : Bool) : State :=
  if light then post (note s (pgBRX p c) BRX_F_DARK_HIT BRX_C_DARK_HITS) (pgBRX p c) (.flag BRX_F_DARK_HIT.off BRX_F_DARK_HIT.bit)
    [(posOfFine d.open_).frame, (posOfFine d.open_).tick, (posOfFine d.open_).fine] else s

/-- What telling of light touches. -/
def darkFoot (b : Nat) : Foot :=
  ⟨alerts, [pmcSpan, pageSpan pgEVT, wordSpan (b + ANY_EVT_SEQ.off), wordSpan (b + BRX_F_DARK_HIT.off), wordSpan (b + BRX_F_DARK_HIT.cntOff),
    wordSpan (cntAddr b BRX_C_DARK_HITS)]⟩

theorem leaves_darkTold (s : State) (p c : Nat) (d : Burst) (light : Bool) : Leaves (darkFoot (pgBRX p c)) s (darkTold s p c d light) := by
  refine .ite (fun _ => ?_) (fun _ => .refl _ s)
  exact ((leaves_note s (pgBRX p c) BRX_F_DARK_HIT BRX_C_DARK_HITS).mono (by simp [Foot.Within, Covers, darkFoot, alerts])).andThen
    (leaves_post _ _ _ _) (by simp [Foot.Within, Covers, darkFoot, Foot.add, eventFoot])

theorem flagSet_darkTold (s : State) (p c : Nat) (d : Burst) : flagSet (darkTold s p c d true) (pgBRX p c) BRX_F_DARK_HIT = true := by
  rw [darkTold, if_pos rfl, (leaves_post _ _ _ _).flagSet _ _ (off_event_brx p c _ rfl)]
  exact flagSet_note _ _ _ _ (by decide) (by decide) (pmcWord_port (port_brx ..))

theorem cntAt_darkTested (s : State) (p c : Nat) (d : Burst) (light : Bool) :
    cntAt (darkTested s p c d light) (cntAddr (pgBRX p c) BRX_C_DARK_SLOTS) =
      min cntMax (cntAt s (cntAddr (pgBRX p c) BRX_C_DARK_SLOTS) + 1) := cntAt_bump_same ..

/-- DARK_SLOTS lies beside what ROGUE and DARK_HIT touch. -/
theorem darkSlots_off (p c : Nat) : Off (rogueFoot (pgBRX p c)).spans (cntAddr (pgBRX p c) BRX_C_DARK_SLOTS) ∧
    Off (darkFoot (pgBRX p c)).spans (cntAddr (pgBRX p c) BRX_C_DARK_SLOTS) := by
  constructor
  · simp [rogueFoot, wordSpan, pageSpan, pmcSpan, cntAddr, pgEVT, pgPMC, pgBRX, pgPON, ANY_EVT_SEQ, BRX_ROGUE_STATE, BRX_F_ROGUE,
      BRX_C_ROGUE_RAISES, BRX_C_DARK_SLOTS]
    omega
  · simp [darkFoot, wordSpan, pageSpan, pmcSpan, cntAddr, pgEVT, pgPMC, pgBRX, pgPON, ANY_EVT_SEQ, BRX_F_DARK_HIT, BRX_C_DARK_HITS,
      BRX_C_DARK_SLOTS]
    omega

theorem darkSlotTest_tests (s : State) (p : Fin 32) (c : Fin 3) (sd : Bool) (n : Nat) (d : Burst) (light : Bool)
    (hd : (lane s p c).sched.find? (fun x => x.kind == .dark) = some d)
    (hlight : light = (2 * fld s (pgBRX p c) BRX_DARK_EDGE < d.size && (sd || (lane s p c).sd || fld s (pgBRX p c) BRX_LIGHT_MIN ≤ n))) :
    Completes (.darkSlotTest p c sd n) s (fun t =>
      (lane t p c).dark = (light :: (lane s p c).dark).take 15 ∧
      (lane t p c).sched = (lane s p c).sched.erase d ∧
      cntAt t (cntAddr (pgBRX p c) BRX_C_DARK_SLOTS) = min cntMax (cntAt s (cntAddr (pgBRX p c) BRX_C_DARK_SLOTS) + 1) ∧
      (light = true → flagSet t (pgBRX p c) BRX_F_DARK_HIT = true) ∧
      TblOnly LaneSt.init (3 * p + c) s.pon.lane t.pon.lane ∧
      Only (.lane :: alerts) s t) := by
  have run : exec (.darkSlotTest p c sd n) s = .next (evalRogue (darkTold (darkTested s p c d light) p c d light) p c) := by
    show execDarkSlotTest p c sd n s = _
    simp only [execDarkSlotTest, hd, ← hlight]
    rfl
  have told := leaves_darkTold (darkTested s p c d light) p c d light
  have judged := leaves_evalRogue (darkTold (darkTested s p c d light) p c d light) p c
  have counted := only_bump (setLane s p c { (lane s p c).leave d with dark := (light :: (lane s p c).dark).take 15, lastEnd := some d.end_ })
    (pgBRX p c) BRX_C_DARK_SLOTS 1
  have alerted : Only alerts (darkTested s p c d light) (evalRogue (darkTold (darkTested s p c d light) p c d light) p c) :=
    told.only.trans judged.only
  have lanes : (evalRogue (darkTold (darkTested s p c d light) p c d light) p c).pon.lane = (setLane s p c
      { (lane s p c).leave d with dark := (light :: (lane s p c).dark).take 15, lastEnd := some d.end_ }).pon.lane :=
    (alerted .lane (by decide)).trans (counted .lane (by decide))
  have same : lane (evalRogue (darkTold (darkTested s p c d light) p c d light) p c) p c =
      { (lane s p c).leave d with dark := (light :: (lane s p c).dark).take 15, lastEnd := some d.end_ } := by
    rw [lane, lanes]
    exact lane_setLane_same s p c _
  refine ⟨_, run, ?_⟩
  dsimp only
  rw [same, lanes]
  refine ⟨rfl, rfl, ?_, ?_, tblOnly_setLane s p c _, (leaves_setLane s p c _).onlyIn.trans (counted.into.trans alerted.into)⟩
  · rw [judged.cnt _ (darkSlots_off p c).1, told.cnt _ (darkSlots_off p c).2, cntAt_darkTested]
  · rintro rfl
    rw [darkHit_evalRogue]
    exact flagSet_darkTold _ p c d

/-- Settles O16: a request, its pulse or its deferral, a level taken or not, and a dark slot through DARK_HIT and ROGUE. -/
theorem rssiSignalDetectAndDarkSlots : Obligations.RssiSignalDetectAndDarkSlots := by
  unfold Obligations.RssiSignalDetectAndDarkSlots
  exact ⟨rssiGo_asks, rssiPulse_gives, rssiPulse_defers, sdLevelChange_takes, sdLevelChange_waits, darkSlotTest_tests⟩

end Sys2Proof.Machine
end

section
/-! SUPPORT. Ranging values and Surveys, messages of the supervision cluster, and the state and the defects of a record (R56, R57, R66 to R69,
R99 to R102, R105). -/

namespace Sys2Proof.Machine

variable {F : Foot} {s t u : State}

/-! ### Ranging pages -/

theorem port_rng (p c off : Nat) : 0x01000000 ≤ pgRNG p c + off := by simp only [pgRNG, pgPON]; omega

/-- A step that leaves the grid leaves the present position. -/
theorem Leaves.now_eq (h : Leaves F s t) (hp : Part.grid ∉ F.parts) : now t = now s := congrArg (·.now) (h.only .grid hp)

theorem TblOnly.of_eq {α : Type} {d : Nat → α} {k : Nat} {a b : Tbl α} (h : b = a) : TblOnly d k a b := fun _ _ => h ▸ rfl

/-! ### Tables -/

theorem only_rng (s : State) (l : Tbl RngRec) : Only [.rng] s { s with pon := { s.pon with rng := l } } := by
  intro p hp
  cases p
  case rng => simp at hp
  all_goals rfl

theorem leaves_setRng (s : State) (p i : Nat) (r : RngRec) : Leaves ⟨[.rng], []⟩ s (setRng s p i r) :=
  .of_only (only_rng s _) (by decide) (by decide)

@[simp] theorem rng_setRng_same (s : State) (p i : Nat) (r : RngRec) : rng (setRng s p i r) p i = r :=
  tget_tset_same RngRec.init s.pon.rng (512 * p + i) r

theorem tblOnly_setRng (s : State) (p i : Nat) (r : RngRec) : TblOnly RngRec.init (512 * p + i) s.pon.rng (setRng s p i r).pon.rng :=
  fun _ hj => tget_tset_other _ _ _ _ _ hj

theorem Leaves.pon_rng (h : Leaves F s t) (hp : Part.rng ∉ F.parts) (p i : Nat) : rng t p i = rng s p i :=
  congrArg (tget RngRec.init · (512 * p + i)) (h.only .rng hp)

@[simp] theorem survey_setSurvey_same (s : State) (p c : Nat) (r : SurveySt) : survey (setSurvey s p c r) p c = r :=
  tget_tset_same SurveySt.init s.pon.survey (3 * p + c) r

theorem Leaves.pon_survey (h : Leaves F s t) (hp : Part.survey ∉ F.parts) (p c : Nat) : survey t p c = survey s p c :=
  congrArg (tget SurveySt.init · (3 * p + c)) (h.only .survey hp)

/-! ### Messages of the supervision cluster (R56, R57) -/

/-- A push changes its channel's queues, and of a record only that an Assign_ONU-ID which entered the queue no longer holds it. -/
theorem pushUrgent_cases (s : State) (p c : Nat) (m : Ploam) : ∃ u, Leaves (pushFoot p c) s u ∧ (pushUrgent s p c m = u ∨
    m.body = .assign ∧ pushUrgent s p c m = setOnu u p m.onu { onu u p m.onu with held := false }) := by
  by_cases hm : m.body = .assign
  · have taken : Leaves (pushFoot p c) s (urgentTaken s p c m) :=
      (((leaves_setFld s (pgCH p c) CH_URG_FILL _).trans (leaves_setFld _ (pgCH p c) CH_PUSH_FULL 0)).mono
        (by simp [Foot.Within, Covers, pushFoot])).andThen (leaves_setChSt _ p c _) (by simp [Foot.Within, Covers, pushFoot])
    have refused : Leaves (pushFoot p c) s (pushRefused s (pgCH p c)) :=
      ((leaves_setFld s (pgCH p c) CH_PUSH_FULL 1).mono (by simp [Foot.Within, Covers, pushFoot, CH_PUSH_FULL, CH_URG_FILL])).andThen
        (leaves_flag _ (pgCH p c) CH_F_PLOAM_OVF) (by simp [Foot.Within, Covers, pushFoot])
    unfold pushUrgent
    dsimp only
    split
    · exact ⟨_, (leaves_setChSt s p c _).mono (by simp [Foot.Within, Covers, pushFoot]), .inl rfl⟩
    · split
      · exact ⟨urgentTaken s p c m, taken, .inr ⟨hm, rfl⟩⟩
      · exact ⟨_, refused.andThen (leaves_setChSt _ p c _) (by simp [Foot.Within, Covers, pushFoot]), .inl rfl⟩
  · exact ⟨_, (switchKept_pushUrgent s p c m hm).leaves, .inl rfl⟩

/-- A message other than Assign_ONU-ID leaves the records. -/
theorem leaves_sendTo (s : State) (p i : Nat) {b : PloamBody} (hb : b ≠ .assign) : Leaves (pushFoot p (onu s p i).ch) s (sendTo s p i b) :=
  (switchKept_pushUrgent s p _ _ hb).leaves

/-- What an Assign_ONU-ID touches. -/
def sendFoot (p c : Nat) : Foot := ⟨.onu :: (pushFoot p c).parts, (pushFoot p c).spans⟩

theorem pushFoot_within (p c : Nat) : (pushFoot p c).Within (sendFoot p c) :=
  Foot.within_of_mem (fun _ hp => List.mem_cons_of_mem _ hp) fun _ hr => hr

theorem sendTo_holds (s : State) (p i : Nat) (b : PloamBody) :
    (∃ h, onu (sendTo s p i b) p i = { onu s p i with held := h }) ∧
    TblOnly OnuRec.init (512 * p + i) s.pon.onu (sendTo s p i b).pon.onu ∧ Leaves (sendFoot p (onu s p i).ch) s (sendTo s p i b) := by
  obtain ⟨u, pushed, hrun⟩ := pushUrgent_cases s p (onu s p i).ch ⟨b, i, (onu s p i).onuId, now s⟩
  have table : u.pon.onu = s.pon.onu := pushed.only .onu (by simp [pushFoot])
  have same : onu u p i = onu s p i := pushed.pon_onu (by simp [pushFoot]) p i
  rcases hrun with hrun | ⟨-, hrun⟩ <;> rw [sendTo, hrun]
  · exact ⟨⟨_, same⟩, TblOnly.of_eq table, pushed.mono (pushFoot_within _ _)⟩
  · refine ⟨⟨false, ?_⟩, table ▸ tblOnly_setOnu u p i _, (pushed.mono (pushFoot_within _ _)).andThen (leaves_setOnu u p i _)
      (by simp [Foot.Within, Covers, sendFoot])⟩
    rw [onu_setOnu_same, same]

/-! ### States of a record (R99 to R101) -/

/-- What a change of state touches besides its record. -/
def stateFoot (p : Nat) : Foot := ⟨[.onu, .regs], [wordSpan (pgGRD + GRD_ONU_IN_OP.off), wordSpan (pgPON p + PON_ONU_IN_USE.off)]⟩

/-- A record enters a state other than EMPTY. -/
structure StateEntered (s t : State) (p i st : Nat) : Prop where
  record : onu t p i = { onu s p i with state := st }
  others : TblOnly OnuRec.init (512 * p + i) s.pon.onu t.pon.onu
  leaves : Leaves (stateFoot p) s t

theorem stateEntered_setOnuState (s : State) (p i : Nat) {st : Nat} (h : st ≠ stEmpty) : StateEntered s (setOnuState s p i st) p i st := by
  have run : setOnuState s p i st = putOnu s p i { onu s p i with state := st } := if_neg fun hc => h hc.1
  rw [run]
  refine ⟨onu_putOnu s p i _, onuTable_putOnu s p i _ ▸ tblOnly_setOnu s p i _, ?_⟩
  exact ((leaves_setOnu s p i _).mono (by simp [Foot.Within, Covers, stateFoot])).andThen (leaves_refreshUse _ p)
    (by simp [Foot.Within, Covers, stateFoot])

/-- What the deactivation of a record touches besides its state. -/
def startFoot (p c : Nat) : Foot := ⟨[.rng, .phase, .regs, .ch, .pmc], (pushFoot p c).spans⟩

/-- The first Deactivate_ONU-ID of a record of channel c is pushed (R69, R100). -/
structure DeactStarted (s t : State) (p i c : Nat) : Prop where
  values : rng t p i = { rng s p i with deacts := 0, deactTo := some (c, (onu s p i).onuId) }
  leaves : Leaves (startFoot p c) s t

theorem deactStarted (s : State) (p i c : Nat) (hc : (onu s p i).ch = c) : DeactStarted s (startDeact (invalidatePhase s p c i) p i) p i c := by
  have cleared := leaves_invalidatePhase s p c i
  generalize invalidatePhase s p c i = v at cleared
  have record : onu v p i = onu s p i := cleared.pon_onu (by simp) p i
  have run : startDeact v p i = pushUrgent (setRng v p i { rng s p i with deacts := 0, deactTo := some (c, (onu s p i).onuId) }) p c
      ⟨.deactivate, i, (onu s p i).onuId, now v⟩ := by
    rw [startDeact, sendDeact, rng_setRng_same, record, hc, cleared.pon_rng (by simp)]
    rfl
  have stored := leaves_setRng v p i { rng s p i with deacts := 0, deactTo := some (c, (onu s p i).onuId) }
  have pushed := (switchKept_pushUrgent (setRng v p i { rng s p i with deacts := 0, deactTo := some (c, (onu s p i).onuId) }) p c
      ⟨.deactivate, i, (onu s p i).onuId, now v⟩ (by simp)).leaves
  rw [run]
  refine ⟨(pushed.pon_rng (by simp [pushFoot]) p i).trans (rng_setRng_same ..), ?_⟩
  exact ((cleared.mono (by simp [Foot.Within, Covers, startFoot])).andThen stored (by simp [Foot.Within, Covers, startFoot])).trans
    (pushed.mono (Foot.within_of_mem (by simp [startFoot, pushFoot]) fun _ hr => hr))

/-- What a record entering DEACT touches. -/
def deactFoot (p c : Nat) : Foot :=
  ⟨[.onu, .rng, .ch, .phase, .regs, .cnt, .pmc], wordSpan (cntAddr (pgRNG p c) RNG_C_DEACTIVATIONS) :: ((stateFoot p).spans ++ (pushFoot p c).spans)⟩

/-- A record entered DEACT, counted, with its first Deactivate_ONU-ID pushed (R100). -/
structure Deactivated (s t : State) (p i : Nat) : Prop where
  record : onu t p i = { onu s p i with state := stDeact }
  values : rng t p i = { rng s p i with deacts := 0, deactTo := some ((onu s p i).ch, (onu s p i).onuId) }
  others : TblOnly OnuRec.init (512 * p + i) s.pon.onu t.pon.onu
  leaves : Leaves (deactFoot p (onu s p i).ch) s t

theorem deactivated_enterDeact (s : State) (p i : Nat) : Deactivated s (enterDeact s p i) p i := by
  obtain ⟨record, others, entered⟩ := stateEntered_setOnuState s p i (show stDeact ≠ stEmpty by decide)
  have counted := leaves_bump (setOnuState s p i stDeact) (pgRNG p (onu s p i).ch) RNG_C_DEACTIVATIONS 1
  have run : enterDeact s p i = startDeact (invalidatePhase (bump (setOnuState s p i stDeact) (pgRNG p (onu s p i).ch) RNG_C_DEACTIVATIONS 1) p
    (onu s p i).ch i) p i := rfl
  rw [run]
  generalize bump (setOnuState s p i stDeact) (pgRNG p (onu s p i).ch) RNG_C_DEACTIVATIONS 1 = v at counted
  have kept : onu v p i = { onu s p i with state := stDeact } := (counted.pon_onu (by simp) p i).trans record
  obtain ⟨values, startLeaves⟩ := deactStarted v p i (onu s p i).ch (by rw [kept])
  have table := startLeaves.only .onu (by simp [startFoot])
  refine ⟨?_, ?_, ?_, ?_⟩
  · exact (startLeaves.pon_onu (by simp [startFoot]) p i).trans kept
  · rw [values, counted.pon_rng (by simp), entered.pon_rng (by simp [stateFoot]), kept]
  · rw [table, show v.pon.onu = _ from counted.only .onu (by simp)]
    exact others
  · exact ((entered.mono (by simp [Foot.Within, Covers, stateFoot, deactFoot])).andThen counted
      (Foot.within_of_mem (by simp [deactFoot]) (by simp [deactFoot, pushFoot]))).andThen startLeaves
      (Foot.within_of_mem (by simp [startFoot, deactFoot]) fun r hr => by
        simp only [deactFoot, List.mem_cons, List.mem_append]
        exact .inr (.inr hr))

end Sys2Proof.Machine
end

section
/-! SUPPORT. Defects of a record other than LOSi and LOFi: their raise, their clear and their reports (R66 to R68), DOWi and the correction that
it asks for (R113, R114), SNMi and its state (R69). -/

namespace Sys2Proof.Machine

variable {s t u : State}

/-! ### Reports -/

/-- What the report of a raised or cleared defect touches, its record on channel c. -/
def reportFoot (p c : Nat) : Foot :=
  ⟨.pm :: alerts, wordSpan (pgPON p + PON_F_SNM.cntOff) :: wordSpan (pgRNG p c + RNG_F_DOW.off) ::
    wordSpan (pgRNG p c + RNG_F_DOW.cntOff) :: wordSpan (cntAddr (pgRNG p c) RNG_C_DOW_RAISES) :: (clearReportFoot p).spans⟩

theorem leaves_reportDefect (s : State) (p i d : Nat) (raised : Bool) :
    Leaves (reportFoot p (onu s p i).ch) s (reportDefect s p i d raised) := by
  have changed : Leaves (reportFoot p (onu s p i).ch) s (flag s (pgPON p) PON_F_DEFECT_CHANGE) :=
    (leaves_flag s (pgPON p) PON_F_DEFECT_CHANGE).mono (by simp [Foot.Within, Covers, reportFoot, clearReportFoot, alerts])
  have met (t : State) : Leaves (reportFoot p (onu s p i).ch) t (flag t (pgPON p) PON_F_SNM) :=
    (leaves_flag t (pgPON p) PON_F_SNM).mono (by simp [Foot.Within, Covers, reportFoot, clearReportFoot, alerts, PON_F_SNM, PON_F_DEFECT_CHANGE])
  have drifted (t : State) : Leaves (reportFoot p (onu s p i).ch) t (flag t (pgRNG p (onu s p i).ch) RNG_F_DOW) :=
    (leaves_flag t (pgRNG p (onu s p i).ch) RNG_F_DOW).mono (by simp [Foot.Within, Covers, reportFoot, clearReportFoot, alerts])
  have kept (t : State) (r : PmRec) : Leaves (reportFoot p (onu s p i).ch) t (setPmRec t p i r) :=
    (leaves_setPmRec t p i r).mono (by simp [Foot.Within, Covers, reportFoot])
  unfold reportDefect
  extract_lets s1 s2 s3 r s4
  have snm : Leaves (reportFoot p (onu s p i).ch) s1 s2 := .ite (fun _ => met _) (fun _ => .refl _ _)
  have dow : Leaves (reportFoot p (onu s p i).ch) s2 s3 := .ite (fun _ => drifted _) (fun _ => .refl _ _)
  have pm : Leaves (reportFoot p (onu s p i).ch) s3 s4 := .ite (fun _ => kept _ _) (fun _ => .refl _ _)
  exact (((changed.trans snm).trans dow).trans pm).andThen (leaves_postTo _ _ _ _ _)
    (by simp [Foot.Within, Covers, reportFoot, clearReportFoot, Foot.add, eventFoot, alerts])

/-! ### Raise and clear -/

/-- What a raised or cleared defect touches, its record on channel c. -/
def defectFoot (p c : Nat) : Foot := ⟨.onu :: (reportFoot p c).parts, (reportFoot p c).spans⟩

/-- The defects of a record are now n, and what of them is reported. -/
structure DefectsMoved (s t : State) (p i n : Nat) : Prop where
  record : ∃ rep, onu t p i = { onu s p i with defects := n, reported := rep }
  others : TblOnly OnuRec.init (512 * p + i) s.pon.onu t.pon.onu
  leaves : Leaves (defectFoot p (onu s p i).ch) s t

theorem DefectsMoved.refl (s : State) (p i : Nat) : DefectsMoved s s p i (onu s p i).defects := ⟨⟨_, rfl⟩, .of_eq rfl, .refl _ s⟩

/-- A record stored with new defects, reported as such unless that is held back. -/
theorem defectsMoved_told {c : Prop} [Decidable c] (s : State) (p i n rep d : Nat) (raised : Bool) :
    DefectsMoved s (if c then setOnu s p i { onu s p i with defects := n } else
      reportDefect (setOnu (setOnu s p i { onu s p i with defects := n }) p i
        { onu (setOnu s p i { onu s p i with defects := n }) p i with reported := rep }) p i d raised) p i n := by
  have stored := leaves_setOnu s p i { onu s p i with defects := n }
  split
  · exact ⟨⟨_, onu_setOnu_same ..⟩, tblOnly_setOnu s p i _, stored.mono (by simp [Foot.Within, Covers, defectFoot])⟩
  · rw [onu_setOnu_same]
    have marked := leaves_setOnu (setOnu s p i { onu s p i with defects := n }) p i { onu s p i with defects := n, reported := rep }
    have record := onu_setOnu_same (setOnu s p i { onu s p i with defects := n }) p i { onu s p i with defects := n, reported := rep }
    have others := (tblOnly_setOnu s p i { onu s p i with defects := n }).trans
      (tblOnly_setOnu (setOnu s p i { onu s p i with defects := n }) p i { onu s p i with defects := n, reported := rep })
    have told := leaves_reportDefect (setOnu (setOnu s p i { onu s p i with defects := n }) p i
      { onu s p i with defects := n, reported := rep }) p i d raised
    rw [record] at told
    have table := told.only .onu (by simp [reportFoot, alerts])
    refine ⟨⟨rep, (told.pon_onu (by simp [reportFoot, alerts]) p i).trans record⟩, others.trans (.of_eq table), ?_⟩
    exact ((stored.trans marked).mono (by simp [Foot.Within, Covers, defectFoot])).andThen told
      (Foot.within_of_mem (fun _ hp => List.mem_cons_of_mem _ hp) fun _ hr => hr)

theorem defectsMoved_detect (s : State) (p i d : Nat) : DefectsMoved s (detect s p i d) p i ((onu s p i).defects ||| 1 <<< d) :=
  defectsMoved_told s p i _ _ d true

theorem defectsMoved_undetect (s : State) (p i d : Nat) : DefectsMoved s (undetect s p i d) p i ((onu s p i).defects - 1 <<< d) :=
  defectsMoved_told s p i _ _ d false

theorem raiseDefect_of_high (s : State) (p i : Nat) {d : Nat} (h : 1 < d) :
    raiseDefect s p i d = if hasDefect (onu s p i) d then s else detect s p i d := by
  have hlos : d ≠ dLOSi := by rw [dLOSi]; omega
  simp only [raiseDefect, Nat.not_le.mpr h, hlos, false_and, if_false]

theorem clearDefect_of_high (s : State) (p i : Nat) {d : Nat} (h : 1 < d) :
    clearDefect s p i d = if hasDefect (onu s p i) d then undetect s p i d else s := by
  have hlos : d ≠ dLOSi := by rw [dLOSi]; omega
  simp only [clearDefect, hlos, false_and, if_false]
  cases hasDefect (onu s p i) d <;> rfl

theorem bitAt_or_shift (n d : Nat) : bitAt (n ||| 1 <<< d) d = true := by simp [bitAt, Nat.testBit_or, Nat.testBit_shiftLeft]

theorem bitAt_sub_shift {n d : Nat} (h : bitAt n d = true) : bitAt (n - 1 <<< d) d = false := by
  rw [bitAt, Nat.testBit_eq_decide_div_mod_eq, decide_eq_true_eq] at h
  have hpos : 0 < 2 ^ d := by positivity
  have hdiv : (n - 2 ^ d) / 2 ^ d = n / 2 ^ d - 1 := by
    simpa using Nat.sub_mul_div n (2 ^ d) 1
  rw [Nat.one_shiftLeft, bitAt, Nat.testBit_eq_decide_div_mod_eq, decide_eq_false_iff_not, hdiv]
  omega

/-- A defect is detected, or was already. -/
theorem defectsMoved_raiseDefect (s : State) (p i : Nat) {d : Nat} (h : 1 < d) :
    ∃ n, bitAt n d = true ∧ DefectsMoved s (raiseDefect s p i d) p i n := by
  rw [raiseDefect_of_high s p i h]
  split
  · exact ⟨_, ‹_›, .refl s p i⟩
  · exact ⟨_, bitAt_or_shift _ d, defectsMoved_detect s p i d⟩

/-- A defect is gone, or was not there. -/
theorem defectsMoved_clearDefect (s : State) (p i : Nat) {d : Nat} (h : 1 < d) :
    ∃ n, bitAt n d = false ∧ DefectsMoved s (clearDefect s p i d) p i n := by
  rw [clearDefect_of_high s p i h]
  split
  · exact ⟨_, bitAt_sub_shift ‹_›, defectsMoved_undetect s p i d⟩
  · exact ⟨_, eq_false_of_ne_true ‹_›, .refl s p i⟩

/-! ### DOWi (R114) -/

theorem defectsMoved_raiseDow (s : State) (p i : Nat) : ∃ n, bitAt n dDOWi = true ∧ DefectsMoved s (raiseDow s p i) p i n := by
  obtain ⟨n, hn, record, others, leaves⟩ := defectsMoved_raiseDefect s p i (show 1 < dDOWi by decide)
  have counted := leaves_bump (raiseDefect s p i dDOWi) (pgRNG p (onu s p i).ch) RNG_C_DOW_RAISES 1
  unfold raiseDow
  split
  · exact ⟨_, ‹_›, .refl s p i⟩
  · refine ⟨n, hn, (counted.pon_onu (by simp) p i) ▸ record, others.trans (.of_eq (counted.only .onu (by simp))), leaves.andThen counted ?_⟩
    simp [Foot.Within, Covers, defectFoot, reportFoot, clearReportFoot, alerts]

theorem defectsMoved_evalDow (s : State) (p i : Nat) : ∃ n, DefectsMoved s (evalDow s p i) p i n := by
  obtain ⟨_, -, raised⟩ := defectsMoved_raiseDow s p i
  obtain ⟨_, -, cleared⟩ := defectsMoved_clearDefect s p i (show 1 < dDOWi by decide)
  unfold evalDow
  dsimp only
  split
  · exact ⟨_, raised⟩
  · split
    · exact ⟨_, cleared⟩
    · exact ⟨_, .refl s p i⟩

/-- A residual below the limit of a record without DOWi changes nothing. -/
theorem evalDow_clean (s : State) (p i : Nat) (hres : (rng s p i).res.natAbs < fld s (pgRNG p (onu s p i).ch) RNG_DOW_FINE)
    (hclean : hasDefect (onu s p i) dDOWi = false) : evalDow s p i = s := by
  have clear : clearDefect s p i dDOWi = s := (clearDefect_of_high s p i (by decide)).trans (by simp [hclean])
  simp [evalDow, Nat.not_le.mpr hres, clear]

/-- A residual far below the limit and no pending correction leave no DOWi. -/
theorem evalDow_clears (s : State) (p i : Nat) (hres : 2 * (rng s p i).res.natAbs < fld s (pgRNG p (onu s p i).ch) RNG_DOW_FINE)
    (hadj : (rng s p i).adj = false) : hasDefect (onu (evalDow s p i) p i) dDOWi = false := by
  obtain ⟨n, hn, ⟨rep, record⟩, -, -⟩ := defectsMoved_clearDefect s p i (show 1 < dDOWi by decide)
  have run : evalDow s p i = clearDefect s p i dDOWi := by
    rw [evalDow, if_neg (by omega), if_pos ⟨hres, hadj⟩]
  rw [run, record]
  exact hn

/-- A correction is sent with EQD_CORR_EN set alone (R113). -/
theorem correct_cases (s : State) (p i : Nat) : correct s p i = s ∨
    isSet s (pgRNG p (onu s p i).ch) RNG_EQD_CORR_EN = true ∧ ∃ delta msg, correct s p i =
      sendTo (setRng s p i { rng s p i with adj := true, sends := 1, delta := delta, adjSent := frame s }) p i (.rangingTime msg) := by
  unfold correct
  extract_lets r g b limit due
  split
  · rename_i hdue
    simp only [Bool.and_eq_true] at hdue
    obtain ⟨⟨⟨-, hen⟩, -⟩, -⟩ := hdue
    split
    · exact .inl rfl
    · exact .inr ⟨hen, _, _, rfl⟩
  · exact .inl rfl

/-! ### SNMi (R69) -/

/-- What a record entering SNM touches. -/
def snmFoot (p c : Nat) : Foot :=
  ⟨.onu :: .pm :: .rng :: .ch :: .phase :: alerts, (reportFoot p c).spans ++ ((stateFoot p).spans ++ (pushFoot p c).spans)⟩

/-- A record is in SNM with SNMi. -/
structure SnmEntered (s t : State) (p i : Nat) : Prop where
  record : (onu t p i).state = stSnm ∧ hasDefect (onu t p i) dSNMi = true
  others : TblOnly OnuRec.init (512 * p + i) s.pon.onu t.pon.onu
  leaves : Leaves (snmFoot p (onu s p i).ch) s t

theorem snmEntered_enterSnm (s : State) (p i : Nat) : SnmEntered s (enterSnm s p i) p i := by
  obtain ⟨n, hn, ⟨rep, raisedRecord⟩, raisedOthers, raised⟩ := defectsMoved_raiseDefect s p i (show 1 < dSNMi by decide)
  obtain ⟨record, others, entered⟩ := stateEntered_setOnuState (raiseDefect s p i dSNMi) p i (show stSnm ≠ stEmpty by decide)
  rw [raisedRecord] at record
  unfold enterSnm
  dsimp only
  generalize setOnuState (raiseDefect s p i dSNMi) p i stSnm = v at record others entered
  have hch : (onu v p i).ch = (onu s p i).ch := by rw [record]
  have started := (deactStarted v p i _ rfl).leaves
  have same := started.pon_onu (by simp [startFoot]) p i
  rw [hch] at started same ⊢
  refine ⟨?_, (raisedOthers.trans others).trans (.of_eq (started.only .onu (by simp [startFoot]))), ?_⟩
  · rw [same, record]
    exact ⟨rfl, hn⟩
  · exact ((raised.mono (Foot.within_of_mem (by simp [defectFoot, reportFoot, snmFoot, alerts]) fun r hr => List.mem_append_left _ hr)).andThen
      entered (Foot.within_of_mem (by simp [stateFoot, snmFoot, alerts]) fun r hr => List.mem_append_right _ (List.mem_append_left _ hr))).andThen
      started (Foot.within_of_mem (by simp [startFoot, snmFoot, alerts]) fun r hr => List.mem_append_right _ (List.mem_append_right _ hr))

end Sys2Proof.Machine
end

section
/-! PROOF. O19: the per-ONU window of ranging (R114, R116, R355). -/

namespace Sys2Proof.Machine

/-! ### The status of the window -/

theorem leaves_rgStat (s : State) (p c : Nat) (own ch : Bool) :
    Leaves ⟨[.regs], [wordSpan (pgRNG p c + RNG_OWN_ERR.off)]⟩ s (rgStat s p c own ch) :=
  leaves_statusPair s (pgRNG p c) own ch rfl

theorem leaves_rgReject (s : State) (p c : Nat) (rej : Bool) :
    Leaves ⟨[.regs], [wordSpan (pgRNG p c + RNG_OWN_ERR.off)]⟩ s (rgReject s p c rej) := leaves_setBit s (pgRNG p c) RNG_REJECT rej

theorem leaves_rgConflict (s : State) (p c : Nat) (conflict : Bool) :
    Leaves ⟨[.regs], [wordSpan (pgRNG p c + RNG_OWN_ERR.off)]⟩ s (rgConflict s p c conflict) :=
  leaves_setBit s (pgRNG p c) RNG_CONFLICT conflict

/-- Everything else of the page lies beside the status. -/
theorem off_rgStatus (p c : Nat) {f : Fld} (h : f.off ≠ RNG_OWN_ERR.off) :
    Off [wordSpan (pgRNG p c + RNG_OWN_ERR.off)] (pgRNG p c + f.off) := by
  simp only [Off, List.mem_singleton, forall_eq, wordSpan]
  omega

/-! ### The data words -/

theorem leaves_rgWords (s : State) (p c : Nat) (g : RngRec) :
    Leaves ⟨[.regs], [(pgRNG p c + 0x9C, pgRNG p c + 0xB0)]⟩ s (rgWords s p c g) := by
  have word (t : State) (f : Fld) (v : Nat) (h : 0x9C ≤ f.off ∧ f.off < 0xB0) :
      Leaves ⟨[.regs], [(pgRNG p c + 0x9C, pgRNG p c + 0xB0)]⟩ t (setFld t (pgRNG p c) f v) := leaves_setFld_in t (pgRNG p c) f v h
  unfold rgWords
  exact ((((((word _ _ _ (by decide)).trans (word _ _ _ (by decide))).trans (word _ RNG_ADJ_PENDING _ (by decide))).trans
    (word _ _ _ (by decide))).trans (word _ _ _ (by decide))).trans (word _ _ _ (by decide))).trans (word _ _ _ (by decide))

theorem rgWords_shows (s : State) (p c : Nat) (g : RngRec) :
    fld (rgWords s p c g) (pgRNG p c) RNG_EQD = g.eqd % 2 ^ RNG_EQD.width ∧
    fld (rgWords s p c g) (pgRNG p c) RNG_RES = unsignedOf 16 g.res ∧
    isSet (rgWords s p c g) (pgRNG p c) RNG_ADJ_PENDING = g.adj ∧
    fld (rgWords s p c g) (pgRNG p c) RNG_ADJ_SENDS = g.sends % 4 ∧
    fld (rgWords s p c g) (pgRNG p c) RNG_RANGED_FRAME = g.rangedFrame % 2 ^ 32 := by
  have apart (t : State) (f k : Fld) (v : Nat)
      (h : f.lsb + f.width ≤ 32 ∧ (k.off ≠ f.off ∨ k.lsb + k.width ≤ f.lsb ∨ f.lsb + f.width ≤ k.lsb)) :
      fld (setFld t (pgRNG p c) f v) (pgRNG p c) k = fld t (pgRNG p c) k := fld_setFld_apart t v (Fld.apart_of_page _ h)
  have last (k : Fld) (h : k.off ≠ RNG_DRIFT_AVG.off ∧ k.off ≠ RNG_RTD_FINE.off ∧ k.off ≠ RNG_RANGED_FRAME.off) :
      fld (rgWords s p c g) (pgRNG p c) k = fld (setFld (setBit (setFld (setFld s (pgRNG p c) RNG_EQD g.eqd) (pgRNG p c) RNG_RES
        (unsignedOf 16 g.res)) (pgRNG p c) RNG_ADJ_PENDING g.adj) (pgRNG p c) RNG_ADJ_SENDS g.sends) (pgRNG p c) k := by
    obtain ⟨hdrift, hrtd, hframe⟩ := h
    unfold rgWords
    dsimp only
    rw [apart _ RNG_RANGED_FRAME k _ ⟨by decide, .inl hframe⟩, apart _ RNG_RTD_FINE k _ ⟨by decide, .inl hrtd⟩,
      apart _ RNG_DRIFT_AVG k _ ⟨by decide, .inl hdrift⟩]
  refine ⟨?_, ?_, ?_, ?_, fld_setFld_same _ _ _ _ (by decide)⟩
  · rw [last _ (by decide), apart _ _ _ _ (by decide), setBit, apart _ _ _ _ (by decide), apart _ _ _ _ (by decide),
      fld_setFld_same _ _ _ _ (by decide)]
  · rw [last _ (by decide), apart _ _ _ _ (by decide), setBit, apart _ _ _ _ (by decide),
      fld_setFld_of_lt _ _ _ _ (by decide) (unsignedOf_lt 16 _)]
  · rw [isSet, last _ (by decide), apart _ _ _ _ (by decide)]
    exact isSet_setBit_same _ _ _ _ (by decide) (by decide)
  · rw [last _ (by decide), fld_setFld_same _ _ _ _ (by decide)]
    rfl

/-! ### A command of the window -/

/-- The word of a command of the window that is a record of the channel and of the slice. -/
structure RgMine (s : State) (o : Origin) (p : Fin 32) (c : Fin 3) : Prop where
  reject : addrReject s o (pgRNG p c + RNG_RG_CMD.off) = none
  mine : mayUse (Origin.slice o) (onuOwner s p (fld s (pgRNG p c) RNG_RG_IDX)) = true
  valid : (onu s p (fld s (pgRNG p c) RNG_RG_IDX)).valid = true
  ch : (onu s p (fld s (pgRNG p c) RNG_RG_IDX)).ch = c.val

/-- What a command of the window answers (R116). -/
def rgAnswer (o : Origin) (p c : Nat) (body : Nat → State → State × Nat) (s : State) : State × Nat :=
  if !mayUse (Origin.slice o) (onuOwner s p (fld s (pgRNG p c) RNG_RG_IDX)) then (rgWords (rgStat s p c true false) p c (RngRec.init 0), 2)
  else if (onu s p (fld s (pgRNG p c) RNG_RG_IDX)).valid && (onu s p (fld s (pgRNG p c) RNG_RG_IDX)).ch != c then
    (rgWords (rgStat s p c false true) p c (RngRec.init 0), 1)
  else body (fld s (pgRNG p c) RNG_RG_IDX) (rgStat s p c false false)

theorem rgCommand_eq (o : Origin) (p c : Nat) (body : Nat → State → State × Nat) (s : State) :
    rgCommand o p c body s = command o (pgRNG p c + RNG_RG_CMD.off) (pgRNG p c + RNG_RG_IDX.off) (rgAnswer o p c body) s := rfl

/-- A command of the window for a record of the channel, told by what its body answers after OWN_ERR and CH_ERR read 0. -/
theorem completes_rgCommand {l : List Part} {i : Instr} {o : Origin} {p : Fin 32} {c : Fin 3} {code : Nat} {s u : State}
    {body : Nat → State → State × Nat} {P : State → Prop} (hexec : exec i s = .next (rgCommand o p c body s)) (h : RgMine s o p c)
    (hbody : body (fld s (pgRNG p c) RNG_RG_IDX) (rgStat s p c false false) = (u, code)) (hb : Only l s u)
    (hP : ∀ t, Answered s t o code (pgRNG p c + RNG_RG_CMD.off) → Leaves recordFoot u t → P t)
    (hj : Part.jrn ∉ l := by decide) (hg : Part.grid ∉ l := by decide) : Completes i s P :=
  completes_window (rgCommand_eq .. ▸ hexec) h.reject ((if_neg (by simp [h.mine])).trans ((if_neg (by simp [h.ch])).trans hbody)) hb hP hj hg

/-! ### RG_READ -/

theorem rgRead_shows (s : State) (o : Origin) (p : Fin 32) (c : Fin 3) (h : RgMine s o p c) :
    Completes (.rgRead o p c) s (fun t =>
      fld t (pgRNG p c) RNG_EQD = (rng s p (fld s (pgRNG p c) RNG_RG_IDX)).eqd % 2 ^ RNG_EQD.width ∧
      fld t (pgRNG p c) RNG_RES = unsignedOf 16 (rng s p (fld s (pgRNG p c) RNG_RG_IDX)).res ∧
      isSet t (pgRNG p c) RNG_ADJ_PENDING = (rng s p (fld s (pgRNG p c) RNG_RG_IDX)).adj ∧
      fld t (pgRNG p c) RNG_ADJ_SENDS = (rng s p (fld s (pgRNG p c) RNG_RG_IDX)).sends % 4 ∧
      fld t (pgRNG p c) RNG_RANGED_FRAME = (rng s p (fld s (pgRNG p c) RNG_RG_IDX)).rangedFrame % 2 ^ 32 ∧
      Answered s t o 0 (pgRNG p c + RNG_RG_CMD.off) ∧
      Only books s t) := by
  have only : Only [.regs] s (rgWords (rgStat s p c false false) p c (rng s p (fld s (pgRNG p c) RNG_RG_IDX))) :=
    (leaves_rgStat s p c false false).only.trans (leaves_rgWords _ p c _).only
  obtain ⟨heqd, hres, hadj, hsends, hframe⟩ := rgWords_shows (rgStat s p c false false) p c (rng s p (fld s (pgRNG p c) RNG_RG_IDX))
  refine completes_rgCommand rfl h rfl only fun t answered told => ?_
  exact ⟨(told.port_fld _ _ (port_rng ..)).trans heqd, (told.port_fld _ _ (port_rng ..)).trans hres,
    (told.port_isSet _ _ (port_rng ..)).trans hadj, (told.port_fld _ _ (port_rng ..)).trans hsends,
    (told.port_fld _ _ (port_rng ..)).trans hframe, answered, only.into.trans told.only⟩

/-! ### RG_SET_EQD -/

/-- The state in which RG_SET_EQD stores: no flag of the window's status is set. -/
def rgClean (s : State) (p c : Nat) : State := rgConflict (rgReject (rgStat s p c false false) p c false) p c false

theorem leaves_rgClean (s : State) (p c : Nat) : Leaves ⟨[.regs], [wordSpan (pgRNG p c + RNG_OWN_ERR.off)]⟩ s (rgClean s p c) :=
  ((leaves_rgStat s p c false false).trans (leaves_rgReject _ p c false)).trans (leaves_rgConflict _ p c false)

/-- The delay stored and Ranging_Time sent. -/
def rgSent (s : State) (p c i e : Nat) : State := sendTo (setRng (rgClean s p c) p i { rng s p i with eqd := e, res := 0 }) p i (.rangingTime e)

/-- What storing a delay and sending it touches. -/
def rgSentFoot (p c : Nat) : Foot := ⟨[.regs, .rng, .ch, .pmc], wordSpan (pgRNG p c + RNG_OWN_ERR.off) :: (pushFoot p c).spans⟩

/-- A delay that RG_SET_EQD stored and sent on the channel of the record. -/
structure EqdSent (s t : State) (p c i e : Nat) : Prop where
  values : rng t p i = { rng s p i with eqd := e, res := 0 }
  others : TblOnly RngRec.init (512 * p + i) s.pon.rng t.pon.rng
  message : (chSt s p c).retry = [] → (chSt s p c).urgent.length < ploamMax →
    (chSt t p c).urgent = (chSt s p c).urgent ++ [⟨.rangingTime e, i, (onu s p i).onuId, now s⟩]
  leaves : Leaves (rgSentFoot p c) s t

theorem eqdSent_rgSent (s : State) (p c i e : Nat) (hch : (onu s p i).ch = c) : EqdSent s (rgSent s p c i e) p c i e := by
  have clean := leaves_rgClean s p c
  have stored := leaves_setRng (rgClean s p c) p i { rng s p i with eqd := e, res := 0 }
  have values := rng_setRng_same (rgClean s p c) p i { rng s p i with eqd := e, res := 0 }
  have others := tblOnly_setRng (rgClean s p c) p i { rng s p i with eqd := e, res := 0 }
  rw [clean.only .rng (by simp)] at others
  have run : rgSent s p c i e = pushUrgent (setRng (rgClean s p c) p i { rng s p i with eqd := e, res := 0 }) p c
      ⟨.rangingTime e, i, (onu s p i).onuId, now s⟩ := by
    rw [rgSent, sendTo, stored.pon_onu (by simp), clean.pon_onu (by simp), hch, stored.now_eq (by simp), clean.now_eq (by simp)]
  have channel := (stored.pon_chSt (by simp) p c).trans (clean.pon_chSt (by simp) p c)
  have hnow := (stored.now_eq (by simp)).trans (clean.now_eq (by simp))
  rw [run]
  generalize setRng (rgClean s p c) p i { rng s p i with eqd := e, res := 0 } = v at stored values others channel hnow
  have pushed := (switchKept_pushUrgent v p c ⟨.rangingTime e, i, (onu s p i).onuId, now s⟩ (by simp)).leaves
  refine ⟨(pushed.pon_rng (by simp [pushFoot]) p i).trans values, others.trans (.of_eq (pushed.only .rng (by simp [pushFoot]))), ?_, ?_⟩
  · intro hretry hroom
    rw [← channel] at hretry hroom ⊢
    rw [(pushUrgent_room v p c _ hretry hroom).channel, stampedAt, ← hnow]
    rfl
  · exact ((clean.mono (by simp [Foot.Within, Covers, rgSentFoot])).andThen stored (by simp [Foot.Within, Covers, rgSentFoot])).andThen pushed
      (Foot.within_of_mem (by simp [pushFoot, rgSentFoot]) fun r hr => List.mem_cons_of_mem _ hr)

/-- The limit of DOWi lies beside the window's status and the message queues. -/
theorem off_rgSent_dow (p c : Nat) : Off (rgSentFoot p c).spans (pgRNG p c + RNG_DOW_FINE.off) := by
  simp [rgSentFoot, pushFoot, wordSpan, pmcSpan, pgPMC, pgRNG, pgCH, pgPON, RNG_DOW_FINE, RNG_OWN_ERR, CH_URG_FILL, CH_F_PLOAM_OVF]
  omega

/-- DOWi after a delay that RG_SET_EQD stored (R114). -/
theorem evalDow_rgSent (s : State) (p c i e : Nat) (hch : (onu s p i).ch = c) (hdow : 0 < fld s (pgRNG p c) RNG_DOW_FINE) :
    (hasDefect (onu s p i) dDOWi = false → onu (evalDow (rgSent s p c i e) p i) p i = onu s p i) ∧
    ((rng s p i).adj = false → hasDefect (onu (evalDow (rgSent s p c i e) p i) p i) dDOWi = false) := by
  obtain ⟨values, -, -, sent⟩ := eqdSent_rgSent s p c i e hch
  have record : onu (rgSent s p c i e) p i = onu s p i := sent.pon_onu (by simp [rgSentFoot]) p i
  have limit : fld (rgSent s p c i e) (pgRNG p (onu (rgSent s p c i e) p i).ch) RNG_DOW_FINE = fld s (pgRNG p c) RNG_DOW_FINE := by
    rw [record, hch]
    exact sent.fld _ _ (off_rgSent_dow p c)
  refine ⟨fun hclean => ?_, fun hadj => evalDow_clears _ p i ?_ ?_⟩
  · rw [evalDow_clean _ p i (by rw [values, limit]; exact hdow) (by rw [record, hclean]), record]
  · rw [values, limit]
    exact hdow
  · rw [values]
    exact hadj

theorem rgSetEqd_stores (s : State) (o : Origin) (p : Fin 32) (c : Fin 3) (h : RgMine s o p c)
    (hok : rgStateOk (onu s p (fld s (pgRNG p c) RNG_RG_IDX)) = true) :
    Completes (.rgSetEqd o p c false) s (fun t =>
      rng t p (fld s (pgRNG p c) RNG_RG_IDX) = { rng s p (fld s (pgRNG p c) RNG_RG_IDX) with eqd := fld s (pgRNG p c) RNG_EQD, res := 0 } ∧
      (0 < fld s (pgRNG p c) RNG_DOW_FINE → hasDefect (onu s p (fld s (pgRNG p c) RNG_RG_IDX)) dDOWi = false →
        onu t p (fld s (pgRNG p c) RNG_RG_IDX) = onu s p (fld s (pgRNG p c) RNG_RG_IDX)) ∧
      (0 < fld s (pgRNG p c) RNG_DOW_FINE → (rng s p (fld s (pgRNG p c) RNG_RG_IDX)).adj = false →
        hasDefect (onu t p (fld s (pgRNG p c) RNG_RG_IDX)) dDOWi = false) ∧
      TblOnly OnuRec.init (512 * p + (fld s (pgRNG p c) RNG_RG_IDX)) s.pon.onu t.pon.onu ∧
      ((chSt s p c).retry = [] → (chSt s p c).urgent.length < ploamMax → (chSt t p c).urgent = (chSt s p c).urgent ++
        [⟨.rangingTime (fld s (pgRNG p c) RNG_EQD), (fld s (pgRNG p c) RNG_RG_IDX), (onu s p (fld s (pgRNG p c) RNG_RG_IDX)).onuId, now s⟩]) ∧
      TblOnly RngRec.init (512 * p + (fld s (pgRNG p c) RNG_RG_IDX)) s.pon.rng t.pon.rng ∧
      Answered s t o 0 (pgRNG p c + RNG_RG_CMD.off) ∧
      Only (.rng :: .ch :: .onu :: .pm :: .fifo :: books) s t) := by
  obtain ⟨-, -, hvalid, hch⟩ := id h
  generalize hi : fld s (pgRNG p c) RNG_RG_IDX = i at hok hvalid hch ⊢
  have stat := leaves_rgStat s p c false false
  have hbody : (if !((onu (rgStat s p c false false) p i).valid && rgStateOk (onu (rgStat s p c false false) p i)) then
      (rgReject (rgStat s p c false false) p c true, 8) else
      (evalDow (sendTo (setRng (rgClean s p c) p i { rng (rgStat s p c false false) p i with
        eqd := fld (rgStat s p c false false) (pgRNG p c) RNG_EQD, res := 0 }) p i
        (.rangingTime (fld (rgStat s p c false false) (pgRNG p c) RNG_EQD))) p i, 0)) =
      (evalDow (rgSent s p c i (fld s (pgRNG p c) RNG_EQD)) p i, 0) := by
    rw [stat.pon_onu (by simp), stat.pon_rng (by simp), stat.fld _ _ (off_rgStatus p c (by decide)), if_neg (by simp [hvalid, hok])]
    rfl
  obtain ⟨values, others, message, sent⟩ := eqdSent_rgSent s p c i (fld s (pgRNG p c) RNG_EQD) hch
  obtain ⟨n, -, records, judged⟩ := defectsMoved_evalDow (rgSent s p c i (fld s (pgRNG p c) RNG_EQD)) p i
  rw [show (rgSent s p c i (fld s (pgRNG p c) RNG_EQD)).pon.onu = s.pon.onu from sent.only .onu (by simp [rgSentFoot])] at records
  have only : Only (.rng :: .ch :: .onu :: .pm :: alerts) s (evalDow (rgSent s p c i (fld s (pgRNG p c) RNG_EQD)) p i) :=
    (sent.onlyIn (by simp [alerts])).trans (judged.onlyIn (by simp [reportFoot, alerts]))
  refine completes_rgCommand (code := 0) rfl h (hi ▸ hbody) only fun t answered told => ?_
  have ranging : t.pon.rng = (rgSent s p c i (fld s (pgRNG p c) RNG_EQD)).pon.rng :=
    (told.only .rng (by decide)).trans (judged.only .rng (by simp [defectFoot, reportFoot, alerts]))
  have channel : chSt t p c = chSt (rgSent s p c i (fld s (pgRNG p c) RNG_EQD)) p c :=
    (told.pon_chSt (by decide) p c).trans (judged.pon_chSt (by simp [defectFoot, reportFoot, alerts]) p c)
  have record := told.pon_onu (by decide) p i
  refine ⟨?_, fun hdow => ?_, fun hdow => ?_, records.trans (.of_eq (told.only .onu (by decide))), ?_, others.trans (.of_eq ranging), answered,
    only.into.trans told.only.into⟩
  · rw [rng, ranging]
    exact values
  · rw [record]
    exact (evalDow_rgSent s p c i _ hch hdow).1
  · rw [record]
    exact (evalDow_rgSent s p c i _ hch hdow).2
  · rw [channel]
    exact message

theorem rgSetEqd_conflicts (s : State) (o : Origin) (p : Fin 32) (c : Fin 3) (h : RgMine s o p c) :
    Completes (.rgSetEqd o p c true) s (fun t =>
      isSet t (pgRNG p c) RNG_CONFLICT = true ∧
      Answered s t o 4 (pgRNG p c + RNG_RG_CMD.off) ∧
      Only books s t) := by
  have only : Only [.regs] s (rgConflict (rgStat s p c false false) p c true) :=
    (leaves_rgStat s p c false false).only.trans (leaves_rgConflict _ p c true).only
  refine completes_rgCommand (code := 4) rfl h rfl only fun t answered told => ⟨?_, answered, only.into.trans told.only⟩
  exact (told.port_isSet _ _ (port_rng ..)).trans (isSet_setBit_same _ _ _ _ (by decide) (by decide))

/-! ### RG_RERANGE -/

theorem rgRerange_asks (s : State) (o : Origin) (p : Fin 32) (c : Fin 3) (h : RgMine s o p c)
    (hok : rgStateOk (onu s p (fld s (pgRNG p c) RNG_RG_IDX)) = true) :
    Completes (.rgRerange o p c) s (fun t =>
      rng t p (fld s (pgRNG p c) RNG_RG_IDX) = { rng s p (fld s (pgRNG p c) RNG_RG_IDX) with rerangeReq := true } ∧
      TblOnly RngRec.init (512 * p + (fld s (pgRNG p c) RNG_RG_IDX)) s.pon.rng t.pon.rng ∧
      Answered s t o 0 (pgRNG p c + RNG_RG_CMD.off) ∧
      Only (.rng :: books) s t) := by
  obtain ⟨-, -, hvalid, -⟩ := id h
  generalize hi : fld s (pgRNG p c) RNG_RG_IDX = i at hok hvalid ⊢
  have stat := leaves_rgStat s p c false false
  have status := stat.trans (leaves_rgReject _ p c false)
  have hbody : (if !((onu (rgStat s p c false false) p i).valid && rgStateOk (onu (rgStat s p c false false) p i)) then
      (rgReject (rgStat s p c false false) p c true, 8) else
      (setRng (rgReject (rgStat s p c false false) p c false) p i { rng (rgStat s p c false false) p i with rerangeReq := true }, 0)) =
      (setRng (rgReject (rgStat s p c false false) p c false) p i { rng s p i with rerangeReq := true }, 0) := by
    rw [stat.pon_onu (by simp), stat.pon_rng (by simp), if_neg (by simp [hvalid, hok])]
  have only : Only [.regs, .rng] s (setRng (rgReject (rgStat s p c false false) p c false) p i { rng s p i with rerangeReq := true }) :=
    status.onlyIn.trans (leaves_setRng _ p i _).onlyIn
  refine completes_rgCommand (code := 0) rfl h (hi ▸ hbody) only fun t answered told => ?_
  have table := told.only .rng (by decide)
  refine ⟨?_, ?_, answered, only.into.trans told.only.into⟩
  · rw [rng, table]
    exact rng_setRng_same _ p i _
  · rw [table, ← status.only .rng (by simp)]
    exact tblOnly_setRng _ p i _

/-! ### Refusals -/

/-- A record in a state that the command does not allow (R355). -/
theorem rgCommand_rejects {i : Instr} {o : Origin} {p : Fin 32} {c : Fin 3} {s : State} {body : Nat → State → State × Nat}
    (hexec : exec i s = .next (rgCommand o p c body s)) (h : RgMine s o p c)
    (hbody : body (fld s (pgRNG p c) RNG_RG_IDX) (rgStat s p c false false) = (rgReject (rgStat s p c false false) p c true, 8)) :
    Completes i s (fun t =>
      isSet t (pgRNG p c) RNG_REJECT = true ∧
      Answered s t o 8 (pgRNG p c + RNG_RG_CMD.off) ∧
      Only books s t) := by
  have only : Only [.regs] s (rgReject (rgStat s p c false false) p c true) :=
    (leaves_rgStat s p c false false).only.trans (leaves_rgReject _ p c true).only
  refine completes_rgCommand hexec h hbody only fun t answered told => ⟨?_, answered, only.into.trans told.only⟩
  exact (told.port_isSet _ _ (port_rng ..)).trans (isSet_setBit_same _ _ _ _ (by decide) (by decide))

theorem rg_rejected (s : State) (o : Origin) (p : Fin 32) (c : Fin 3) (i : Instr) (hi : i = .rgSetEqd o p c false ∨ i = .rgRerange o p c)
    (h : RgMine s o p c) (hbad : rgStateOk (onu s p (fld s (pgRNG p c) RNG_RG_IDX)) = false) :
    Completes i s (fun t =>
      isSet t (pgRNG p c) RNG_REJECT = true ∧
      Answered s t o 8 (pgRNG p c + RNG_RG_CMD.off) ∧
      Only books s t) := by
  have state : (!((onu (rgStat s p c false false) p (fld s (pgRNG p c) RNG_RG_IDX)).valid &&
      rgStateOk (onu (rgStat s p c false false) p (fld s (pgRNG p c) RNG_RG_IDX)))) = true := by
    rw [(leaves_rgStat s p c false false).pon_onu (by simp), hbad]
    simp
  rcases hi with rfl | rfl
  · exact rgCommand_rejects rfl h (if_pos state)
  · exact rgCommand_rejects rfl h (if_pos state)

/-- A record of another channel: CH_ERR, and data words of 0. -/
theorem rgCommand_elsewhere {i : Instr} {o : Origin} {p : Fin 32} {c : Fin 3} {s : State} {body : Nat → State → State × Nat}
    (hexec : exec i s = .next (rgCommand o p c body s)) (h : addrReject s o (pgRNG p c + RNG_RG_CMD.off) = none)
    (hmine : mayUse (Origin.slice o) (onuOwner s p (fld s (pgRNG p c) RNG_RG_IDX)) = true)
    (hvalid : (onu s p (fld s (pgRNG p c) RNG_RG_IDX)).valid = true) (hch : (onu s p (fld s (pgRNG p c) RNG_RG_IDX)).ch ≠ c.val) :
    Completes i s (fun t =>
      isSet t (pgRNG p c) RNG_CH_ERR = true ∧
      fld t (pgRNG p c) RNG_EQD = 0 ∧
      fld t (pgRNG p c) RNG_RANGED_FRAME = 0 ∧
      Answered s t o 1 (pgRNG p c + RNG_RG_CMD.off) ∧
      Only books s t) := by
  have shown := leaves_rgWords (rgStat s p c false true) p c (RngRec.init 0)
  have only : Only [.regs] s (rgWords (rgStat s p c false true) p c (RngRec.init 0)) :=
    (leaves_rgStat s p c false true).only.trans shown.only
  obtain ⟨heqd, -, -, -, hframe⟩ := rgWords_shows (rgStat s p c false true) p c (RngRec.init 0)
  have status : isSet (rgStat s p c false true) (pgRNG p c) RNG_CH_ERR = true :=
    (statusPair_shows s (pgRNG p c) false true (by decide) (by decide) (by decide)).2
  refine completes_window (c := 1) (rgCommand_eq .. ▸ hexec) h ((if_neg (by simp [hmine])).trans (if_pos (by simp [hvalid, hch]))) only
    fun t answered told => ⟨?_, (told.port_fld _ _ (port_rng ..)).trans heqd, (told.port_fld _ _ (port_rng ..)).trans hframe, answered,
      only.into.trans told.only⟩
  rw [told.port_isSet _ _ (port_rng ..), shown.isSet _ _ ?_, status]
  simp [RNG_CH_ERR]

theorem rg_elsewhere (s : State) (o : Origin) (p : Fin 32) (c : Fin 3) (i : Instr)
    (hi : i = .rgRead o p c ∨ i = .rgSetEqd o p c false ∨ i = .rgRerange o p c)
    (h : addrReject s o (pgRNG p c + RNG_RG_CMD.off) = none)
    (hmine : mayUse (Origin.slice o) (onuOwner s p (fld s (pgRNG p c) RNG_RG_IDX)) = true)
    (hvalid : (onu s p (fld s (pgRNG p c) RNG_RG_IDX)).valid = true) (hch : (onu s p (fld s (pgRNG p c) RNG_RG_IDX)).ch ≠ c.val) :
    Completes i s (fun t =>
      isSet t (pgRNG p c) RNG_CH_ERR = true ∧
      fld t (pgRNG p c) RNG_EQD = 0 ∧
      fld t (pgRNG p c) RNG_RANGED_FRAME = 0 ∧
      Answered s t o 1 (pgRNG p c + RNG_RG_CMD.off) ∧
      Only books s t) := by
  rcases hi with rfl | rfl | rfl
  · exact rgCommand_elsewhere rfl h hmine hvalid hch
  · exact rgCommand_elsewhere rfl h hmine hvalid hch
  · exact rgCommand_elsewhere rfl h hmine hvalid hch

end Sys2Proof.Machine

namespace Sys2Proof
open Machine

/-- Settles O19: each command by its body on a record of the channel, and all three by the answer to one of another channel. -/
theorem rangingWindow : Obligations.RangingWindow := by
  unfold Obligations.RangingWindow
  exact ⟨fun s o p c h hmine hvalid hch => rgRead_shows s o p c ⟨h, hmine, hvalid, hch⟩,
    fun s o p c h hmine hvalid hch => rgSetEqd_stores s o p c ⟨h, hmine, hvalid, hch⟩,
    fun s o p c h hmine hvalid hch => rgSetEqd_conflicts s o p c ⟨h, hmine, hvalid, hch⟩,
    fun s o p c h hmine hvalid hch => rgRerange_asks s o p c ⟨h, hmine, hvalid, hch⟩,
    fun s o p c i hi h hmine hvalid hch => rg_rejected s o p c i hi ⟨h, hmine, hvalid, hch⟩, rg_elsewhere⟩

end Sys2Proof
end

section
/-! PROOF. O17: writes of REACH, FIBRE and ZD (R96, R97). -/

namespace Sys2Proof.Machine

/-! ### What follows from US_OFFSET (R97, R104, R119, R142) -/

/-- The pages and words that follow from REACH, FIBRE and ZD. -/
def reachFoot (p c : Nat) : Foot :=
  ⟨[.regs], [wordSpan (pgRNG p c + RNG_US_OFFSET.off), wordSpan (pgRNG p c + RNG_SURVEY_LEN.off), pageSpan (pgALC p c), pageSpan (pgBND p)]⟩

/-- The US_OFFSET that REACH, FIBRE and ZD give (R97). -/
def usOffset (s : State) (p c : Nat) : Nat :=
  ceilDiv (fld s (pgRNG p c) RNG_ZD_FINE) 256 + rtt s p c (fld s (pgRNG p c) RNG_REACH_MAX_M) + fld s (pgRNG p c) RNG_EQ_MARGIN

/-- US_OFFSET stored. -/
def offsetStored (s : State) (p c : Nat) : State := setFld s (pgRNG p c) RNG_US_OFFSET (usOffset s p c)

/-- What is published after US_OFFSET touches. -/
def offsetFoot (p c : Nat) : Foot := ⟨[.regs], [wordSpan (pgRNG p c + RNG_SURVEY_LEN.off), pageSpan (pgALC p c), pageSpan (pgBND p)]⟩

theorem leaves_publishUsOffset (s : State) (p c : Nat) : Leaves (offsetFoot p c) (offsetStored s p c) (publishUsOffset s p c) := by
  have start (t : State) (v : Nat) : Leaves (offsetFoot p c) t (setFld t (pgALC p c) ALC_S_MIN v) :=
    (leaves_setFld t (pgALC p c) ALC_S_MIN v).mono (by simp [Foot.Within, Covers, offsetFoot, wordSpan, pageSpan, ALC_S_MIN])
  have len (t : State) : Leaves (offsetFoot p c) t (publishSurveyLen t p c) :=
    (leaves_setFld t (pgRNG p c) RNG_SURVEY_LEN _).mono (by simp [Foot.Within, Covers, offsetFoot])
  have frames (t : State) : Leaves (offsetFoot p c) t (publishOfsFrames t p) :=
    (leaves_setFld t (pgBND p) BND_OFS_FRAMES _).mono (by simp [Foot.Within, Covers, offsetFoot, wordSpan, pageSpan, BND_OFS_FRAMES])
  exact ((start _ _).trans (len _)).trans (frames _)

theorem fld_publishUsOffset (s : State) (p c : Nat) (hc : c < 3) :
    fld (publishUsOffset s p c) (pgRNG p c) RNG_US_OFFSET = usOffset s p c % 2 ^ RNG_US_OFFSET.width := by
  rw [(leaves_publishUsOffset s p c).fld _ _ ?_, offsetStored, fld_setFld_same _ _ _ _ (by decide)]
  simp [offsetFoot, wordSpan, pageSpan, pgRNG, pgALC, pgBND, pgPON, RNG_US_OFFSET, RNG_SURVEY_LEN]
  omega

/-! ### REACH_WRITE -/

/-- What a write of REACH, FIBRE or ZD answers (R96). -/
def reachAnswer (p c off : Nat) (d : Word) (s : State) : State × Nat :=
  if reachRejected (setReg s (pgRNG p c + off) (writtenWord .RNG (3 * p + c) off false d (reg s (pgRNG p c + off)))) p c || reachHeld s p c then
    (flag s (pgRNG p c) RNG_F_REACH_REJ, 1)
  else (publishUsOffset (setReg s (pgRNG p c + off) (writtenWord .RNG (3 * p + c) off false d (reg s (pgRNG p c + off)))) p c, 0)

theorem reachWrite_eq (s : State) (o : Origin) (p : Fin 32) (c : Fin 3) (off : Nat) (d : Word) (hoff : off = 0x44 ∨ off = 0x48 ∨ off = 0x4C) :
    exec (.reachWrite o p c off d) s = .next (ownWrite o (pgRNG p c + off) (reachAnswer p c off d) s) := if_pos hoff

theorem reachWrite_takes (s : State) (o : Origin) (p : Fin 32) (c : Fin 3) (off : Nat) (d : Word) (s1 : State)
    (hoff : off = 0x44 ∨ off = 0x48 ∨ off = 0x4C) (h : addrReject s o (pgRNG p c + off) = none)
    (hs1 : s1 = setReg s (pgRNG p c + off) (writtenWord .RNG (3 * p + c) off false d (reg s (pgRNG p c + off))))
    (hrej : reachRejected s1 p c = false) (hheld : reachHeld s p c = false) :
    Completes (.reachWrite o p c off d) s (fun t =>
      reg t (pgRNG p c + off) = writtenWord .RNG (3 * p + c) off false d (reg s (pgRNG p c + off)) ∧
      fld t (pgRNG p c) RNG_US_OFFSET = (ceilDiv (fld s1 (pgRNG p c) RNG_ZD_FINE) 256 + rtt s1 p c (fld s1 (pgRNG p c) RNG_REACH_MAX_M) +
        fld s1 (pgRNG p c) RNG_EQ_MARGIN) % 2 ^ RNG_US_OFFSET.width ∧
      Answered s t o 0 (pgRNG p c + off) ∧
      RegsOnly (pgBND p :: pgALC p c :: bookPages) [pgRNG p c + off, pgRNG p c + RNG_US_OFFSET.off, pgRNG p c + RNG_SURVEY_LEN.off] s t ∧
      Only books s t) := by
  have stored : Leaves ⟨[.regs], [wordSpan (pgRNG p c + off)]⟩ s s1 := hs1 ▸ leaves_setReg s (pgRNG p c + off) _
  have published : Leaves (reachFoot p c) s1 (publishUsOffset s1 p c) :=
    ((leaves_setFld s1 (pgRNG p c) RNG_US_OFFSET _).mono (by simp [Foot.Within, Covers, reachFoot])).andThen (leaves_publishUsOffset s1 p c)
      (Foot.within_of_mem (by simp [offsetFoot, reachFoot]) fun r hr => List.mem_cons_of_mem _ hr)
  have only : Only [.regs] s (publishUsOffset s1 p c) := stored.only.trans published.only
  refine completes_ownWrite (u := publishUsOffset s1 p c) (c := 0) (reachWrite_eq s o p c off d hoff) h ?_ only fun t told => ?_
  · rw [reachAnswer, ← hs1, if_neg (by simp [hrej, hheld])]
  · refine ⟨?_, ?_, told.answered, ?_, told.only only (by decide) (by decide)⟩
    · rw [told.leaves.port_reg (port_rng ..), published.reg _ ?_, hs1, reg_setReg_same]
      simp [reachFoot, wordSpan, pageSpan, pgRNG, pgALC, pgBND, pgPON, RNG_US_OFFSET, RNG_SURVEY_LEN]
      omega
    · rw [told.leaves.port_fld _ _ (port_rng ..)]
      exact fld_publishUsOffset s1 p c c.isLt
    · have all : Leaves ⟨books, wordSpan (pgRNG p c + off) :: ((reachFoot p c).spans ++ recordFoot.spans)⟩ s t :=
        (stored.mono (Foot.within_of_mem (by simp [books]) (by simp))).trans
          ((published.mono (Foot.within_of_mem (by simp [reachFoot, books]) fun r hr => by simp [hr])).trans
            (told.leaves.mono (Foot.within_of_mem (fun q hq => hq) fun r hr => by simp [hr])))
      refine all.regsOnly _ _ ?_
      simp [reachFoot, recordFoot, wordSpan, pageSpan, pmcSpan, bookPages, pgJRN, pgSLC, pgPMC, pgALC, pgRNG, pgBND, pgPON]
      omega

theorem reachWrite_rejects (s : State) (o : Origin) (p : Fin 32) (c : Fin 3) (off : Nat) (d : Word) (s1 : State)
    (hoff : off = 0x44 ∨ off = 0x48 ∨ off = 0x4C) (h : addrReject s o (pgRNG p c + off) = none)
    (hs1 : s1 = setReg s (pgRNG p c + off) (writtenWord .RNG (3 * p + c) off false d (reg s (pgRNG p c + off))))
    (hrej : reachRejected s1 p c = true ∨ reachHeld s p c = true) :
    Completes (.reachWrite o p c off d) s (fun t =>
      reg t (pgRNG p c + off) = reg s (pgRNG p c + off) ∧
      fld t (pgRNG p c) RNG_US_OFFSET = fld s (pgRNG p c) RNG_US_OFFSET ∧
      flagSet t (pgRNG p c) RNG_F_REACH_REJ = true ∧
      Answered s t o 1 (pgRNG p c + off) ∧
      Only books s t) := by
  have flagged := leaves_flag s (pgRNG p c) RNG_F_REACH_REJ
  have only : Only [.regs, .pmc] s (flag s (pgRNG p c) RNG_F_REACH_REJ) := flagged.only
  have beside (x : Nat) (hx : x < 0x78) :
      Off [pmcSpan, wordSpan (pgRNG p c + RNG_F_REACH_REJ.off), wordSpan (pgRNG p c + RNG_F_REACH_REJ.cntOff)] (pgRNG p c + x) := by
    simp [wordSpan, pmcSpan, pgRNG, pgPON, pgPMC, RNG_F_REACH_REJ]
    omega
  refine completes_ownWrite (c := 1) (reachWrite_eq s o p c off d hoff) h ?_ only fun t told => ?_
  · rw [reachAnswer, ← hs1, if_pos (by simpa using hrej)]
  · refine ⟨?_, ?_, ?_, told.answered, told.only only (by decide) (by decide)⟩
    · rw [told.leaves.port_reg (port_rng ..), flagged.reg _ (beside _ (by omega))]
    · rw [told.leaves.port_fld _ _ (port_rng ..), flagged.fld _ _ (beside _ (by decide))]
    · rw [told.leaves.port_flagSet _ _ (port_rng ..)]
      exact flagSet_flag _ _ _ (by decide) (by decide) (pmcWord_port (port_rng ..))

end Sys2Proof.Machine
end

section
/-! PROOF. O17: serial numbers heard in a Survey window (R50, R69, R100, R107, R108, R354). -/

namespace Sys2Proof.Machine

variable {s t : State}

/-! ### A response found (R50, R107) -/

theorem leaves_foundResponse (s : State) (p c at_ : Nat) : Leaves ⟨[.lane, .grid], []⟩ s (foundResponse s p c at_) :=
  ((leaves_setLane s p c _).mono (by simp [Foot.Within, Covers])).andThen (leaves_grid _ _) (by simp [Foot.Within, Covers])

theorem survey_surveyBase (s : State) (p c : Nat) : survey (surveyBase s p c) p c = { survey s p c with run := 0 } := by
  unfold surveyBase
  split <;> exact survey_setSurvey_same _ p c _

/-- A serial number taken in the oldest window of the channel, before what it does is decided. -/
def snHeard (s : State) (p c : Nat) (w : SurveyWin) (at_ : Nat) : State :=
  setWin (surveyBase (bump (foundResponse s p c at_) (pgRNG p c) RNG_C_SN_RX 1) p c) p c { w with heard := w.heard + 1, valid := true, found := some at_ }

/-- What a serial number touches before what it does is decided. -/
def heardFoot (p c : Nat) : Foot :=
  ⟨[.lane, .grid, .regs, .cnt, .pmc, .survey], [pmcSpan, wordSpan (cntAddr (pgRNG p c) RNG_C_SN_RX), wordSpan (pgRNG p c + RNG_PERIOD_NOW.off),
    wordSpan (pgRNG p c + RNG_SKIP_LEVEL.off)]⟩

theorem leaves_snHeard (s : State) (p c : Nat) (w : SurveyWin) (at_ : Nat) : Leaves (heardFoot p c) s (snHeard s p c w at_) :=
  ((((leaves_foundResponse s p c at_).mono (by simp [Foot.Within, Covers, heardFoot])).andThen (leaves_bump _ (pgRNG p c) RNG_C_SN_RX 1)
    (by simp [Foot.Within, Covers, heardFoot])).andThen (leaves_surveyBase _ p c) (by simp [Foot.Within, Covers, heardFoot])).andThen
    (leaves_setSurvey _ p c _) (by simp [Foot.Within, Covers, heardFoot])

theorem now_snHeard (s : State) (p c : Nat) (w : SurveyWin) (at_ : Nat) : now (snHeard s p c w at_) = now s := by
  have counted := (leaves_bump (foundResponse s p c at_) (pgRNG p c) RNG_C_SN_RX 1).now_eq (by simp)
  have based := (leaves_surveyBase (bump (foundResponse s p c at_) (pgRNG p c) RNG_C_SN_RX 1) p c).now_eq (by simp)
  exact based.trans counted

theorem wins_snHeard (s : State) (p c : Nat) (w : SurveyWin) (ws : List SurveyWin) (at_ : Nat) (hw : (survey s p c).wins = w :: ws) :
    (survey (snHeard s p c w at_) p c).wins = { w with heard := w.heard + 1, valid := true, found := some at_ } :: ws := by
  have found := leaves_foundResponse s p c at_
  have counted := leaves_bump (foundResponse s p c at_) (pgRNG p c) RNG_C_SN_RX 1
  rw [snHeard, setWin, survey_setSurvey_same, survey_surveyBase, counted.pon_survey (by simp), found.pon_survey (by simp), hw]
  rfl

/-- A window in which a serial number is searched for, heard and taken (R107, R354). -/
structure Searched (s : State) (p c : Nat) (sn : BitVec 64) (w : SurveyWin) (at_ : Nat) : Prop where
  opened : w.open_ ≤ at_
  closed : at_ ≤ w.close
  resumed : ∀ x, w.found = some x → searchFrom s p c x ≤ at_
  room : w.heard < fld s (pgRNG p c) RNG_SN_PER_WIN
  new : (channelOnus s p c).any (fun e => e.2.state == stOperation && e.2.seenSn == sn) = false

theorem snResponse_run {s : State} {p : Fin 32} {c : Fin 3} {sn : BitVec 64} {hp : Int} {w : SurveyWin} {ws : List SurveyWin} {at_ : Nat}
    (hw : (survey s p c).wins = w :: ws)
    (hat : at_ = (((w.mapFrame * finePerFrame + w.start * unitGt c * 256 : Nat) : Int) + hp).toNat) (h : Searched s p c sn w at_) :
    exec (.snResponse p c sn hp) s = .next (takeSerial (snHeard s p c w at_) p c sn w hp) := by
  obtain ⟨hopened, hclosed, hresumed, hroom, hnew⟩ := h
  have search : (w.found.map (fun x => decide (at_ < searchFrom s p c x))).getD false = false := by
    cases hfound : w.found with
    | none => rfl
    | some x => simpa using hresumed x hfound
  show execSnResponse p c sn hp s = _
  unfold execSnResponse
  rw [hw]
  dsimp only
  rw [← hat, if_neg (by omega), if_neg (by rw [search]; exact Bool.false_ne_true), if_neg (by omega), if_neg (by rw [hnew]; exact Bool.false_ne_true)]
  rfl

/-! ### The record that a serial number finds (R69, R108) -/

theorem channelOnus_congr (h : t.pon.onu = s.pon.onu) (p c : Nat) : channelOnus t p c = channelOnus s p c := by
  simp only [channelOnus, portOnus, h]

theorem snSteps_congr (h : t.pon.onu = s.pon.onu) (p c : Nat) (sn : BitVec 64) :
    snStep1 t p c sn = snStep1 s p c sn ∧ snStep2 t p c = snStep2 s p c := by
  simp only [snStep1, snStep2, channelOnus_congr h, true_and]

theorem snElsewhere_congr (ho : t.pon.onu = s.pon.onu) (hr : t.pon.rng = s.pon.rng) (hg : t.pon.grp = s.pon.grp) (hn : now t = now s)
    (p c i : Nat) (sn : BitVec 64) : snElsewhere t p c i sn = snElsewhere s p c i sn := by
  have hframe : frame t = frame s := congrArg Pos.frame hn
  simp only [snElsewhere, portOnus, bondedTogether, validGroups, inOperation, rng, ho, hr, hg, hframe]

/-! ### Assign_ONU-ID (R100, R102) -/

/-- What an assignment touches, its record on channel d. -/
def assignFoot (p c d : Nat) : Foot :=
  ⟨[.onu, .rng, .ch, .regs, .cnt, .pmc], wordSpan (pgRNG p c + RNG_F_POPUP_REACQ.off) :: wordSpan (pgRNG p c + RNG_F_POPUP_REACQ.cntOff) ::
    wordSpan (cntAddr (pgRNG p c) RNG_C_POPUP_REACQ) :: ((stateFoot p).spans ++ (pushFoot p d).spans)⟩

/-- Record i was assigned by a response at header point hp (R100). -/
structure Assigned (s t : State) (p c i : Nat) (sn : BitVec 64) (hp : Int) : Prop where
  record : ∃ h, onu t p i = { onu s p i with state := stAssigned, seenSn := sn, held := h }
  values : (rng t p i).rtdHi = hp.fdiv 256 ∧ (rng t p i).since = frame s
  records : TblOnly OnuRec.init (512 * p + i) s.pon.onu t.pon.onu
  ranging : TblOnly RngRec.init (512 * p + i) s.pon.rng t.pon.rng
  leaves : Leaves (assignFoot p c (onu s p i).ch) s t

/-- A record in POPUP that answers is counted as re-acquired. -/
def reacquired (s : State) (p c i : Nat) : State :=
  if (onu s p i).state = stPopup then note s (pgRNG p c) RNG_F_POPUP_REACQ RNG_C_POPUP_REACQ else s

theorem leaves_reacquired (s : State) (p c i : Nat) : Leaves ⟨[.regs, .cnt, .pmc], [pmcSpan, wordSpan (pgRNG p c + RNG_F_POPUP_REACQ.off),
    wordSpan (pgRNG p c + RNG_F_POPUP_REACQ.cntOff), wordSpan (cntAddr (pgRNG p c) RNG_C_POPUP_REACQ)]⟩ s (reacquired s p c i) :=
  .ite (fun _ => leaves_note s (pgRNG p c) RNG_F_POPUP_REACQ RNG_C_POPUP_REACQ) (fun _ => .refl _ s)

/-- The ranging values of a record that is assigned. -/
def assignedValues (s : State) (p i : Nat) (w : SurveyWin) (hp : Int) : RngRec :=
  { RngRec.init 0 with rtdHi := hp.fdiv 256, prof := w.prof, since := frame s, rtd := (rng s p i).rtd, rangedFrame := (rng s p i).rangedFrame }

/-- The record and its ranging values stored. -/
def assignStored (s : State) (p c i : Nat) (sn : BitVec 64) (w : SurveyWin) (hp : Int) : State :=
  setRng (setOnu (reacquired s p c i) p i { onu s p i with seenSn := sn, held := true }) p i (assignedValues s p i w hp)

theorem assignStored_stores (s : State) (p c i : Nat) (sn : BitVec 64) (w : SurveyWin) (hp : Int) :
    onu (assignStored s p c i sn w hp) p i = { onu s p i with seenSn := sn, held := true } ∧
    rng (assignStored s p c i sn w hp) p i = assignedValues s p i w hp ∧
    TblOnly OnuRec.init (512 * p + i) s.pon.onu (assignStored s p c i sn w hp).pon.onu ∧
    TblOnly RngRec.init (512 * p + i) s.pon.rng (assignStored s p c i sn w hp).pon.rng ∧
    Leaves (assignFoot p c (onu s p i).ch) s (assignStored s p c i sn w hp) := by
  have noted := leaves_reacquired s p c i
  have recorded := leaves_setOnu (reacquired s p c i) p i { onu s p i with seenSn := sn, held := true }
  have valued := leaves_setRng (setOnu (reacquired s p c i) p i { onu s p i with seenSn := sn, held := true }) p i (assignedValues s p i w hp)
  refine ⟨?_, rng_setRng_same .., ?_, ?_, ?_⟩
  · rw [assignStored, valued.pon_onu (by simp), onu_setOnu_same]
  · rw [← noted.only .onu (by simp), assignStored, valued.only .onu (by simp)]
    exact tblOnly_setOnu _ p i _
  · rw [← noted.only .rng (by simp), ← recorded.only .rng (by simp)]
    exact tblOnly_setRng _ p i _
  · exact ((noted.mono (Foot.within_of_mem (by simp [assignFoot]) (by simp [assignFoot, pushFoot]))).andThen recorded
      (by simp [Foot.Within, Covers, assignFoot])).andThen valued (by simp [Foot.Within, Covers, assignFoot])

/-- The limit of DOWi lies beside what an assignment touches. -/
theorem off_assign_dow (p : Nat) (c : Fin 3) (d e : Nat) : Off (assignFoot p c d).spans (pgRNG p e + RNG_DOW_FINE.off) := by
  simp [assignFoot, stateFoot, pushFoot, wordSpan, pmcSpan, cntAddr, pgGRD, pgPMC, pgRNG, pgCH, pgPON, RNG_DOW_FINE, RNG_F_POPUP_REACQ,
    RNG_C_POPUP_REACQ, GRD_ONU_IN_OP, PON_ONU_IN_USE, CH_URG_FILL, CH_F_PLOAM_OVF]
  omega

theorem assigned_assignOnu (s : State) (p : Nat) (c : Fin 3) (i : Nat) (sn : BitVec 64) (w : SurveyWin) (hp : Int)
    (hclean : hasDefect (onu s p i) dDOWi = false) (hdow : 0 < fld s (pgRNG p (onu s p i).ch) RNG_DOW_FINE) :
    Assigned s (assignOnu s p c i sn w hp) p c i sn hp := by
  obtain ⟨record, values, records, ranging, stored⟩ := assignStored_stores s p c i sn w hp
  obtain ⟨entry, others, entered⟩ := stateEntered_setOnuState (assignStored s p c i sn w hp) p i (show stAssigned ≠ stEmpty by decide)
  rw [record] at entry
  have run : assignOnu s p c i sn w hp = sendTo (evalDow (setOnuState (assignStored s p c i sn w hp) p i stAssigned) p i) p i .assign := rfl
  rw [run]
  generalize setOnuState (assignStored s p c i sn w hp) p i stAssigned = v at entry others entered
  have state : Leaves (assignFoot p c (onu s p i).ch) s v := stored.andThen entered
    (Foot.within_of_mem (by simp [stateFoot, assignFoot]) fun r hr => by simp [assignFoot, hr])
  have hrng : rng v p i = assignedValues s p i w hp := (entered.pon_rng (by simp [stateFoot]) p i).trans values
  have quiet : evalDow v p i = v := by
    refine evalDow_clean v p i ?_ ?_
    · rw [hrng, state.fld _ _ (off_assign_dow p c _ _), entry]
      exact hdow
    · rw [entry]
      exact hclean
  obtain ⟨⟨held, kept⟩, sentOthers, sent⟩ := sendTo_holds v p i .assign
  rw [quiet]
  rw [show (onu v p i).ch = (onu s p i).ch by rw [entry]] at sent
  refine ⟨⟨held, ?_⟩, ?_, (records.trans others).trans sentOthers, ?_, state.andThen sent ?_⟩
  · rw [kept, entry]
  · rw [sent.pon_rng (by simp [sendFoot, pushFoot]), hrng]
    exact ⟨rfl, rfl⟩
  · exact (ranging.trans (.of_eq (entered.only .rng (by simp [stateFoot])))).trans (.of_eq (sent.only .rng (by simp [sendFoot, pushFoot])))
  · exact Foot.within_of_mem (by simp [sendFoot, pushFoot, assignFoot]) fun r hr => by simp only [assignFoot, List.mem_cons, List.mem_append]; tauto

theorem snResponse_assigns (s : State) (p : Fin 32) (c : Fin 3) (sn : BitVec 64) (hp : Int) (w : SurveyWin) (ws : List SurveyWin) (i at_ : Nat)
    (hw : (survey s p c).wins = w :: ws)
    (hat : at_ = (((w.mapFrame * finePerFrame + w.start * unitGt c * 256 : Nat) : Int) + hp).toNat) (h : Searched s p c sn w at_)
    (hfind : (snStep1 s p c sn).orElse (fun _ => snStep2 s p c) = some i) (helse : snElsewhere s p c i sn = false)
    (hclean : hasDefect (onu s p i) dDOWi = false) (hdow : 0 < fld s (pgRNG p (onu s p i).ch) RNG_DOW_FINE) :
    Completes (.snResponse p c sn hp) s (fun t =>
      (onu t p i).state = stAssigned ∧
      (onu t p i).seenSn = sn ∧
      (onu t p i).onuId = (onu s p i).onuId ∧
      (onu t p i).expSn = (onu s p i).expSn ∧
      (rng t p i).rtdHi = hp.fdiv 256 ∧
      (rng t p i).since = frame s ∧
      (survey t p c).wins = { w with heard := w.heard + 1, valid := true, found := some at_ } :: ws ∧
      TblOnly OnuRec.init (512 * p + i) s.pon.onu t.pon.onu ∧
      TblOnly RngRec.init (512 * p + i) s.pon.rng t.pon.rng ∧
      Only [.regs, .cnt, .pmc, .onu, .rng, .survey, .lane, .ch, .grid] s t) := by
  have run := snResponse_run hw hat h
  have heard := leaves_snHeard s p c w at_
  have windows := wins_snHeard s p c w ws at_ hw
  have hnow := now_snHeard s p c w at_
  generalize snHeard s p c w at_ = v at run heard windows hnow
  have records : v.pon.onu = s.pon.onu := heard.only .onu (by simp [heardFoot])
  have ranging : v.pon.rng = s.pon.rng := heard.only .rng (by simp [heardFoot])
  have same : onu v p i = onu s p i := heard.pon_onu (by simp [heardFoot]) p i
  obtain ⟨hstep1, hstep2⟩ := snSteps_congr records p c sn
  have taken : takeSerial v p c sn w hp = assignOnu v p c i sn w hp := by
    rw [takeSerial, hstep1, hstep2, hfind]
    dsimp only
    rw [snElsewhere_congr records ranging (heard.only .grp (by simp [heardFoot])) hnow, if_neg (by simp [helse])]
  obtain ⟨⟨held, record⟩, ⟨hrtd, hsince⟩, others, rangingOthers, assigned⟩ := assigned_assignOnu v p c i sn w hp (by rw [same, hclean]) (by
    rw [same, heard.fld _ _ ?_]
    · exact hdow
    · simp [heardFoot, wordSpan, pmcSpan, cntAddr, pgPMC, pgRNG, pgPON, RNG_DOW_FINE, RNG_PERIOD_NOW, RNG_SKIP_LEVEL, RNG_C_SN_RX]
      omega)
  rw [records] at others
  rw [ranging] at rangingOthers
  rw [taken] at run
  refine ⟨_, run, ?_, ?_, ?_, ?_, hrtd, hsince.trans (congrArg Pos.frame hnow), ?_, others, rangingOthers,
    (heard.onlyIn (by simp)).trans (assigned.onlyIn (by simp))⟩
  · rw [record]
  · rw [record]
  · rw [record, same]
  · rw [record, same]
  · rw [assigned.pon_survey (by simp [assignFoot]), windows]

end Sys2Proof.Machine
end

section
/-! PROOF. O17: a serial number that no step finds, the close of a Survey window, and the statement (R105, R108, R109). -/

namespace Sys2Proof.Machine

variable {F : Foot} {s t u : State}

/-! ### An unknown serial number (R108) -/

theorem withBits_whole (w : Word) (v : Nat) : withBits w 0 32 v = BitVec.ofNat 32 v := by
  apply BitVec.eq_of_toNat_eq
  apply Nat.eq_of_testBit_eq
  intro k
  rw [testBit_withBits w 0 32 v k (by decide), BitVec.toNat_ofNat, Nat.testBit_mod_two_pow]
  by_cases hk : k < 32
  · simp [hk]
  · simp [hk, Nat.testBit_lt_two_pow (lt_of_lt_of_le w.isLt (Nat.pow_le_pow_right (by norm_num) (Nat.not_lt.mp hk)))]

/-- An event with room for it is the newest of the FIFO (R291). -/
theorem posted_post (s : State) (b : Nat) (k : EvCode) (l : List Nat) (hen : isSet s b ANY_EVT_EN = true)
    (hroom : s.evt.fifo.length < evtFifoMax) : Posted s (post s b k l) b k l := by
  unfold Posted post postTo
  rw [if_pos hen, if_pos (by simpa using hroom)]
  exact ⟨_, rfl, rfl, rfl, rfl, rfl⟩

/-- An event posted after a step that posts none and leaves the page's EVT_SEQ and the position. -/
theorem Posted.before {b : Nat} {k : EvCode} {l : List Nat} (h : Posted u t b k l) (hl : Leaves F s u) (hf : Part.fifo ∉ F.parts)
    (hs : Off F.spans (b + ANY_EVT_SEQ.off)) (hn : now u = now s) : Posted s t b k l := by
  obtain ⟨r, hfifo, hcode, harg, hseq, hstamp⟩ := h
  exact ⟨r, hfifo.trans (by rw [show u.evt.fifo = s.evt.fifo from hl.only .fifo hf]), hcode, harg, hseq.trans (hl.fld _ _ hs), hn ▸ hstamp⟩

/-- The flag word of a ranging page lies beside what its events touch. -/
theorem off_event_rng (p c : Nat) {off : Nat} (h : ANY_EVT_SEQ.off < off) :
    Off (eventFoot.add (wordSpan (pgRNG p c + ANY_EVT_SEQ.off))).spans (pgRNG p c + off) := by
  simp [Foot.add, eventFoot, wordSpan, pageSpan, pmcSpan, pgEVT, pgPMC, pgRNG, pgPON]
  omega

/-- An unknown serial number shown and counted. -/
def unknownShown (s : State) (b : Nat) (sn : BitVec 64) : State :=
  note (setFld (setFld s b RNG_LAST_UNK_SN_HI (sn.toNat / 2 ^ 32)) b RNG_LAST_UNK_SN_LO sn.toNat) b RNG_F_UNKNOWN_SN RNG_C_UNKNOWN_SN

/-- What showing an unknown serial number touches. -/
def unknownFoot (b : Nat) : Foot :=
  ⟨[.regs, .cnt, .pmc], [pmcSpan, wordSpan (b + RNG_LAST_UNK_SN_HI.off), wordSpan (b + RNG_LAST_UNK_SN_LO.off),
    wordSpan (b + RNG_F_UNKNOWN_SN.off), wordSpan (b + RNG_F_UNKNOWN_SN.cntOff), wordSpan (cntAddr b RNG_C_UNKNOWN_SN)]⟩

theorem leaves_unknownShown (s : State) (b : Nat) (sn : BitVec 64) : Leaves (unknownFoot b) s (unknownShown s b sn) :=
  (((leaves_setFld s b RNG_LAST_UNK_SN_HI _).mono (by simp [Foot.Within, Covers, unknownFoot])).andThen
    (leaves_setFld _ b RNG_LAST_UNK_SN_LO _) (by simp [Foot.Within, Covers, unknownFoot])).andThen
    (leaves_note _ b RNG_F_UNKNOWN_SN RNG_C_UNKNOWN_SN) (by simp [Foot.Within, Covers, unknownFoot])

theorem unknownShown_shows (s : State) (p c : Nat) (sn : BitVec 64) :
    reg (unknownShown s (pgRNG p c) sn) (pgRNG p c + RNG_LAST_UNK_SN_HI.off) = BitVec.ofNat 32 (sn.toNat / 2 ^ 32) ∧
    reg (unknownShown s (pgRNG p c) sn) (pgRNG p c + RNG_LAST_UNK_SN_LO.off) = BitVec.ofNat 32 sn.toNat ∧
    flagSet (unknownShown s (pgRNG p c) sn) (pgRNG p c) RNG_F_UNKNOWN_SN = true := by
  have beside (off : Nat) (h : off = 0x80 ∨ off = 0x84) :
      Off [pmcSpan, wordSpan (pgRNG p c + RNG_F_UNKNOWN_SN.off), wordSpan (pgRNG p c + RNG_F_UNKNOWN_SN.cntOff),
        wordSpan (cntAddr (pgRNG p c) RNG_C_UNKNOWN_SN)] (pgRNG p c + off) := by
    simp [wordSpan, pmcSpan, cntAddr, pgPMC, pgRNG, pgPON, RNG_F_UNKNOWN_SN, RNG_C_UNKNOWN_SN]
    omega
  refine ⟨?_, ?_, flagSet_note _ _ _ _ (by decide) (by decide) (pmcWord_port (port_rng ..))⟩
  · rw [unknownShown, (leaves_note _ _ _ _).reg _ (beside RNG_LAST_UNK_SN_HI.off (.inl rfl)), reg_setFld_other _ _ _ _ _ (by simp [RNG_LAST_UNK_SN_HI, RNG_LAST_UNK_SN_LO]),
      reg_setFld, if_pos rfl]
    exact withBits_whole _ _
  · rw [unknownShown, (leaves_note _ _ _ _).reg _ (beside RNG_LAST_UNK_SN_LO.off (.inr rfl)), reg_setFld, if_pos rfl]
    exact withBits_whole _ _

theorem snResponse_unknown (s : State) (p : Fin 32) (c : Fin 3) (sn : BitVec 64) (hp : Int) (w : SurveyWin) (ws : List SurveyWin) (at_ : Nat)
    (hw : (survey s p c).wins = w :: ws)
    (hat : at_ = (((w.mapFrame * finePerFrame + w.start * unitGt c * 256 : Nat) : Int) + hp).toNat) (h : Searched s p c sn w at_)
    (hstep1 : snStep1 s p c sn = none) (hstep2 : snStep2 s p c = none) (hstep3 : snStep3 s p c = none) :
    Completes (.snResponse p c sn hp) s (fun t =>
      flagSet t (pgRNG p c) RNG_F_UNKNOWN_SN = true ∧
      reg t (pgRNG p c + RNG_LAST_UNK_SN_HI.off) = BitVec.ofNat 32 (sn.toNat / 2 ^ 32) ∧
      reg t (pgRNG p c + RNG_LAST_UNK_SN_LO.off) = BitVec.ofNat 32 sn.toNat ∧
      (isSet s (pgRNG p c) ANY_EVT_EN = true → s.evt.fifo.length < evtFifoMax → Posted s t (pgRNG p c) .snUnknown [sn.toNat]) ∧
      Only (.survey :: .lane :: .grid :: alerts) s t) := by
  have run := snResponse_run hw hat h
  have heard := leaves_snHeard s p c w at_
  have hnow := now_snHeard s p c w at_
  generalize snHeard s p c w at_ = v at run heard hnow
  have records : v.pon.onu = s.pon.onu := heard.only .onu (by simp [heardFoot])
  obtain ⟨hsame1, hsame2⟩ := snSteps_congr records p c sn
  have beside (off : Nat) (hoff : off < 0x60) : Off (heardFoot p c).spans (pgRNG p c + off) := by
    simp [heardFoot, wordSpan, pmcSpan, cntAddr, pgPMC, pgRNG, pgPON, RNG_PERIOD_NOW, RNG_SKIP_LEVEL, RNG_C_SN_RX]
    omega
  have hsame3 : snStep3 v p c = snStep3 s p c := by
    rw [snStep3, snStep3, heard.isSet _ _ (beside _ (by decide)), channelOnus_congr records]
  have unknown : takeSerial v p c sn w hp = post (unknownShown v (pgRNG p c) sn) (pgRNG p c) .snUnknown [sn.toNat] := by
    rw [takeSerial, hsame1, hsame2, hstep1, hstep2]
    dsimp only [Option.orElse]
    rw [hsame3, hstep3]
    rfl
  have shown := leaves_unknownShown v (pgRNG p c) sn
  have offShown (off : Nat) (hoff : off < 0x60) : Off (unknownFoot (pgRNG p c)).spans (pgRNG p c + off) := by
    simp [unknownFoot, wordSpan, pmcSpan, cntAddr, pgPMC, pgRNG, pgPON, RNG_LAST_UNK_SN_HI, RNG_LAST_UNK_SN_LO, RNG_F_UNKNOWN_SN, RNG_C_UNKNOWN_SN]
    omega
  obtain ⟨hhi, hlo, hflag⟩ := unknownShown_shows v p c sn
  have told := leaves_post (unknownShown v (pgRNG p c) sn) (pgRNG p c) .snUnknown [sn.toNat]
  rw [unknown] at run
  refine ⟨_, run, ?_, ?_, ?_, fun hen hroom => ?_, ?_⟩
  · rw [told.flagSet _ _ (off_event_rng p c (by decide)), hflag]
  · rw [told.reg _ (off_event_rng p c (by decide)), hhi]
  · rw [told.reg _ (off_event_rng p c (by decide)), hlo]
  · have enabled : isSet (unknownShown v (pgRNG p c) sn) (pgRNG p c) ANY_EVT_EN = true := by
      rw [shown.isSet _ _ (offShown _ (by decide)), heard.isSet _ _ (beside _ (by decide)), hen]
    have fifo : (unknownShown v (pgRNG p c) sn).evt.fifo = s.evt.fifo :=
      (shown.only .fifo (by simp [unknownFoot])).trans (heard.only .fifo (by simp [heardFoot]))
    exact ((posted_post _ _ _ _ enabled (by rw [fifo]; exact hroom)).before shown (by simp [unknownFoot]) (offShown _ (by decide))
      (shown.now_eq (by simp [unknownFoot]))).before heard (by simp [heardFoot]) (beside _ (by decide)) hnow
  · exact (heard.onlyIn (by simp [alerts])).trans ((shown.onlyIn (by simp [alerts])).trans (told.onlyIn (by simp [eventFoot, alerts])))

/-! ### The close of a window (R105, R109) -/

/-- The oldest window taken off the Survey and off the lane's schedule. -/
def winClosed (s : State) (p c : Nat) (ws : List SurveyWin) : State :=
  setLane (setSurvey s p c { survey s p c with wins := ws }) p c
    (match (lane s p c).sched.find? (fun x => x.kind == .survey) with
    | some x => { (lane s p c).leave x with lastEnd := some x.close }
    | none => lane s p c)

theorem leaves_winClosed (s : State) (p c : Nat) (ws : List SurveyWin) : Leaves ⟨[.survey, .lane], []⟩ s (winClosed s p c ws) :=
  ((leaves_setSurvey s p c _).mono (by simp [Foot.Within, Covers])).andThen (leaves_setLane _ p c _) (by simp [Foot.Within, Covers])

theorem survey_winClosed (s : State) (p c : Nat) (ws : List SurveyWin) :
    survey (winClosed s p c ws) p c = { survey s p c with wins := ws } :=
  ((leaves_setLane _ p c _).pon_survey (by simp) p c).trans (survey_setSurvey_same s p c _)

theorem surveyWindowClose_run {s : State} {p : Fin 32} {c : Fin 3} {u v : Bool} {w : SurveyWin} {ws : List SurveyWin}
    (hw : (survey s p c).wins = w :: ws) :
    exec (.surveyWindowClose p c u v) s = .next (if u || v || w.clash then
        surveyBase (note (winClosed s p c ws) (pgRNG p c) RNG_F_SN_COLLISION RNG_C_SN_COLLISION) p c
      else if w.heard = 0 then quietWindow (winClosed s p c ws) p c else winClosed s p c ws) := by
  show execSurveyWindowClose p c u v s = _
  unfold execSurveyWindowClose
  rw [hw]
  dsimp only
  split
  · rfl
  · split <;> rfl

/-- A Survey that returns to its base period does so with ADAPT_EN alone (R105). -/
theorem surveyBase_period (s : State) (p c : Nat) :
    (isSet s (pgRNG p c) RNG_ADAPT_EN = true → fld (surveyBase s p c) (pgRNG p c) RNG_PERIOD_NOW = fld s (pgRNG p c) RNG_SURVEY_PERIOD ∧
      fld (surveyBase s p c) (pgRNG p c) RNG_SKIP_LEVEL = 0) ∧
    (isSet s (pgRNG p c) RNG_ADAPT_EN = false → fld (surveyBase s p c) (pgRNG p c) RNG_PERIOD_NOW = fld s (pgRNG p c) RNG_PERIOD_NOW) := by
  refine ⟨fun h => ?_, fun h => ?_⟩
  · rw [surveyBase, if_pos h]
    constructor
    · refine Eq.trans (fld_setFld_apart (setFld s (pgRNG p c) RNG_PERIOD_NOW (fld s (pgRNG p c) RNG_SURVEY_PERIOD)) 0 (Fld.apart_of_page _ (by decide))) ?_
      exact fld_setFld_of_lt _ _ _ _ (by decide) (bitsOf_lt _ _ _)
    · exact fld_setFld_of_lt (setFld s (pgRNG p c) RNG_PERIOD_NOW (fld s (pgRNG p c) RNG_SURVEY_PERIOD)) _ _ _ (by decide) (by decide)
  · rw [surveyBase, if_neg (by simp [h])]
    exact (leaves_setSurvey s p c _).everyFld _ _

theorem surveyWindowClose_collides (s : State) (p : Fin 32) (c : Fin 3) (u v : Bool) (w : SurveyWin) (ws : List SurveyWin)
    (hw : (survey s p c).wins = w :: ws) (hlight : u = true ∨ v = true ∨ w.clash = true) :
    Completes (.surveyWindowClose p c u v) s (fun t =>
      (survey t p c).wins = ws ∧
      (survey t p c).run = 0 ∧
      flagSet t (pgRNG p c) RNG_F_SN_COLLISION = true ∧
      (isSet s (pgRNG p c) RNG_ADAPT_EN = true →
        fld t (pgRNG p c) RNG_PERIOD_NOW = fld s (pgRNG p c) RNG_SURVEY_PERIOD ∧ fld t (pgRNG p c) RNG_SKIP_LEVEL = 0) ∧
      (isSet s (pgRNG p c) RNG_ADAPT_EN = false → fld t (pgRNG p c) RNG_PERIOD_NOW = fld s (pgRNG p c) RNG_PERIOD_NOW) ∧
      Only [.survey, .lane, .regs, .cnt, .pmc] s t) := by
  have run := surveyWindowClose_run (u := u) (v := v) hw
  rw [if_pos (by simpa [or_assoc] using hlight)] at run
  have closed := leaves_winClosed s p c ws
  have noted := leaves_note (winClosed s p c ws) (pgRNG p c) RNG_F_SN_COLLISION RNG_C_SN_COLLISION
  have based := leaves_surveyBase (note (winClosed s p c ws) (pgRNG p c) RNG_F_SN_COLLISION RNG_C_SN_COLLISION) p c
  have windows : survey (surveyBase (note (winClosed s p c ws) (pgRNG p c) RNG_F_SN_COLLISION RNG_C_SN_COLLISION) p c) p c =
      { survey s p c with wins := ws, run := 0 } := by
    rw [survey_surveyBase, noted.pon_survey (by simp), survey_winClosed]
  have kept (f : Fld) (hf : f.off < 0x78) :
      fld (note (winClosed s p c ws) (pgRNG p c) RNG_F_SN_COLLISION RNG_C_SN_COLLISION) (pgRNG p c) f = fld s (pgRNG p c) f := by
    rw [noted.fld _ _ ?_, closed.everyFld]
    simp [wordSpan, pmcSpan, cntAddr, pgPMC, pgRNG, pgPON, RNG_F_SN_COLLISION, RNG_C_SN_COLLISION]
    omega
  obtain ⟨hadapts, hstays⟩ := surveyBase_period (note (winClosed s p c ws) (pgRNG p c) RNG_F_SN_COLLISION RNG_C_SN_COLLISION) p c
  rw [isSet, kept _ (by decide), kept _ (by decide)] at hadapts hstays
  refine ⟨_, run, ?_, ?_, ?_, hadapts, hstays, closed.onlyIn.trans ((noted.onlyIn (by simp)).trans (based.onlyIn (by simp)))⟩
  · rw [windows]
  · rw [windows]
  · rw [based.flagSet _ _ ?_]
    · exact flagSet_note _ _ _ _ (by decide) (by decide) (pmcWord_port (port_rng ..))
    · simp [wordSpan, RNG_PERIOD_NOW, RNG_SKIP_LEVEL, RNG_F_SN_COLLISION]
      omega

/-! ### Windows without a collision (R105) -/

/-- A quiet window below SKIP_AFTER, or without ADAPT_EN, counts. -/
theorem quietWindow_counts (s : State) (p c : Nat)
    (h : (isSet s (pgRNG p c) RNG_ADAPT_EN && fld s (pgRNG p c) RNG_SKIP_AFTER ≤ (survey s p c).run + 1) = false) :
    quietWindow s p c = setSurvey s p c { survey s p c with run := (survey s p c).run + 1 } := if_neg (by simpa using h)

/-- The longer period stored, unless it is already in force. -/
def periodDoubled (s : State) (b t : Nat) : State :=
  if t = fld s b RNG_PERIOD_NOW then s else setFld (setFld s b RNG_PERIOD_NOW t) b RNG_SKIP_LEVEL (fld s b RNG_SKIP_LEVEL + 1)

theorem fld_periodDoubled (s : State) (b : Nat) {t : Nat} (h : t < 2 ^ RNG_PERIOD_NOW.width) :
    fld (periodDoubled s b t) b RNG_PERIOD_NOW = t := by
  unfold periodDoubled
  split
  · exact Eq.symm ‹_›
  · rw [fld_setFld_apart _ _ (Fld.apart_of_page b (by decide)), fld_setFld_of_lt _ _ _ _ (by decide) h]

theorem only_periodDoubled (s : State) (b t : Nat) : Only [.regs] s (periodDoubled s b t) := by
  unfold periodDoubled
  split
  · exact .refl _ s
  · exact (only_setFld _ _ _ _).trans (only_setFld _ _ _ _)

theorem surveyWindowClose_doubles (s : State) (p : Fin 32) (c : Fin 3) (w : SurveyWin) (ws : List SurveyWin)
    (hw : (survey s p c).wins = w :: ws) (hheard : w.heard = 0) (hclash : w.clash = false)
    (hskip : (isSet s (pgRNG p c) RNG_ADAPT_EN && fld s (pgRNG p c) RNG_SKIP_AFTER ≤ (survey s p c).run + 1) = true) :
    Completes (.surveyWindowClose p c false false) s (fun t =>
      (survey t p c).wins = ws ∧
      (survey t p c).run = 0 ∧
      fld t (pgRNG p c) RNG_PERIOD_NOW = min (2 * fld s (pgRNG p c) RNG_PERIOD_NOW) (fld s (pgRNG p c) RNG_SURVEY_PERIOD_MAX) ∧
      Only [.survey, .lane, .regs] s t) := by
  have run := surveyWindowClose_run (u := false) (v := false) hw
  rw [if_neg (by simp [hclash]), if_pos hheard] at run
  have closed := leaves_winClosed s p c ws
  have windows := survey_winClosed s p c ws
  generalize winClosed s p c ws = v at run closed windows
  have kept (f : Fld) : fld v (pgRNG p c) f = fld s (pgRNG p c) f := closed.everyFld _ f
  have quiet : quietWindow v p c = setSurvey (periodDoubled v (pgRNG p c) (min (2 * fld s (pgRNG p c) RNG_PERIOD_NOW)
      (fld s (pgRNG p c) RNG_SURVEY_PERIOD_MAX))) p c { survey s p c with wins := ws, run := 0 } := by
    rw [quietWindow, if_pos (by rw [isSet, kept, kept, windows]; exact hskip), windows, ← kept RNG_PERIOD_NOW, ← kept RNG_SURVEY_PERIOD_MAX]
    rfl
  have short : min (2 * fld s (pgRNG p c) RNG_PERIOD_NOW) (fld s (pgRNG p c) RNG_SURVEY_PERIOD_MAX) < 2 ^ RNG_PERIOD_NOW.width :=
    lt_of_le_of_lt (min_le_right _ _) (bitsOf_lt _ _ _)
  have stored := leaves_setSurvey (periodDoubled v (pgRNG p c) (min (2 * fld s (pgRNG p c) RNG_PERIOD_NOW)
      (fld s (pgRNG p c) RNG_SURVEY_PERIOD_MAX))) p c { survey s p c with wins := ws, run := 0 }
  have same := survey_setSurvey_same (periodDoubled v (pgRNG p c) (min (2 * fld s (pgRNG p c) RNG_PERIOD_NOW)
      (fld s (pgRNG p c) RNG_SURVEY_PERIOD_MAX))) p c { survey s p c with wins := ws, run := 0 }
  rw [quiet] at run
  refine ⟨_, run, ?_, ?_, ?_, closed.onlyIn.trans ((only_periodDoubled v _ _).into.trans stored.onlyIn)⟩
  · rw [same]
  · rw [same]
  · rw [stored.everyFld, fld_periodDoubled v _ short]

theorem surveyWindowClose_counts (s : State) (p : Fin 32) (c : Fin 3) (w : SurveyWin) (ws : List SurveyWin)
    (hw : (survey s p c).wins = w :: ws) (hclash : w.clash = false)
    (hstay : 0 < w.heard ∨ (isSet s (pgRNG p c) RNG_ADAPT_EN && fld s (pgRNG p c) RNG_SKIP_AFTER ≤ (survey s p c).run + 1) = false) :
    Completes (.surveyWindowClose p c false false) s (fun t =>
      (survey t p c).wins = ws ∧
      (survey t p c).run = (if w.heard = 0 then (survey s p c).run + 1 else (survey s p c).run) ∧
      Only [.survey, .lane] s t) := by
  have run := surveyWindowClose_run (u := false) (v := false) hw
  have closed := leaves_winClosed s p c ws
  have windows := survey_winClosed s p c ws
  rw [if_neg (by simp [hclash])] at run
  refine ⟨_, run, ?_⟩
  by_cases hheard : w.heard = 0
  · have quiet : quietWindow (winClosed s p c ws) p c =
        setSurvey (winClosed s p c ws) p c { survey s p c with wins := ws, run := (survey s p c).run + 1 } := by
      rw [quietWindow_counts, windows]
      rw [isSet, closed.everyFld, closed.everyFld, windows]
      exact hstay.resolve_left (by omega)
    rw [if_pos hheard, if_pos hheard, quiet]
    beta_reduce
    rw [survey_setSurvey_same]
    exact ⟨rfl, rfl, closed.onlyIn.trans (leaves_setSurvey _ p c _).onlyIn⟩
  · rw [if_neg hheard, if_neg hheard]
    beta_reduce
    rw [windows]
    exact ⟨rfl, rfl, closed.onlyIn⟩

/-- Settles O17: writes by whether R96 lets them through, responses by what their serial number finds, and windows by how they close. -/
theorem surveyAnswers : Obligations.SurveyAnswers := by
  unfold Obligations.SurveyAnswers
  exact ⟨reachWrite_takes, reachWrite_rejects,
    fun s p c sn hp w ws i at_ hw hat ho hc hr hroom hnew => snResponse_assigns s p c sn hp w ws i at_ hw hat ⟨ho, hc, hr, hroom, hnew⟩,
    fun s p c sn hp w ws at_ hw hat ho hc hr hroom hnew => snResponse_unknown s p c sn hp w ws at_ hw hat ⟨ho, hc, hr, hroom, hnew⟩,
    surveyWindowClose_collides, surveyWindowClose_doubles, surveyWindowClose_counts⟩

end Sys2Proof.Machine
end

section
/-! PROOF. O18: ranging grants and responses, registration, the timers of activation, and corrections not seen in time (R69, R98, R100, R110, R111,
R113 to R115). -/

namespace Sys2Proof.Machine

variable {s t : State}

/-! ### Ranging grants (R100) -/

theorem rangingGrantDue_wants (s : State) (p : Fin 32) (i : Fin 512) (f : Nat) (hstate : (onu s p i).state = stAssigned ∨ (onu s p i).state = stRanging)
    (hsent : (rng s p i).assignSent = some f) (hgrant : (rng s p i).grantFrame = none) (hwant : (rng s p i).want = false)
    (hranged : (rng s p i).ranged = false) (hdue : f + fld s (pgRNG p (onu s p i).ch) RNG_RANGE_DELAY ≤ frame s + 1) :
    Completes (.rangingGrantDue p i) s (fun t =>
      rng t p i = { rng s p i with want := true } ∧
      TblOnly RngRec.init (512 * p + i) s.pon.rng t.pon.rng ∧
      Only [.rng] s t) := by
  refine ⟨setRng s p i { rng s p i with want := true }, ?_, rng_setRng_same .., tblOnly_setRng s p i _, only_rng s _⟩
  show execRangingGrantDue p i s = _
  unfold execRangingGrantDue
  dsimp only
  rw [hsent]
  exact if_pos ⟨hstate, hgrant, hwant, hranged, hdue⟩

theorem rangingGrantDue_waits (s : State) (p : Fin 32) (i : Fin 512)
    (h : (rng s p i).assignSent = none ∨ (rng s p i).want = true ∨ (rng s p i).ranged = true) :
    Completes (.rangingGrantDue p i) s (fun t => t = s) := by
  refine ⟨s, ?_, rfl⟩
  show execRangingGrantDue p i s = _
  unfold execRangingGrantDue
  dsimp only
  split
  · rfl
  · next f hsent =>
    refine if_neg fun ⟨_, _, hwant, hranged, _⟩ => ?_
    simp [hsent, hwant, hranged] at h

/-! ### Deactivation with a flag of the ranging page -/

/-- The flags and the counters below DEACTIVATIONS of a ranging page lie beside what a deactivation touches. -/
theorem off_deactFoot (p c : Nat) {off : Nat} (h : off < 0x200 + 8 * RNG_C_DEACTIVATIONS) : Off (deactFoot p c).spans (pgRNG p c + off) := by
  simp [RNG_C_DEACTIVATIONS] at h
  simp [deactFoot, stateFoot, pushFoot, wordSpan, pmcSpan, cntAddr, pgPMC, pgGRD, pgRNG, pgCH, pgPON, RNG_C_DEACTIVATIONS, GRD_ONU_IN_OP,
    PON_ONU_IN_USE, CH_URG_FILL, CH_F_PLOAM_OVF]
  omega

theorem off_deactFoot_cnt (p c : Nat) {k : Nat} (h : k < RNG_C_DEACTIVATIONS) : Off (deactFoot p c).spans (cntAddr (pgRNG p c) k) := by
  have counter : 0x200 + 8 * k < 0x200 + 8 * RNG_C_DEACTIVATIONS := by omega
  rw [cntAddr, Nat.add_assoc]
  exact off_deactFoot p c counter

theorem off_pushFoot (p c : Nat) {off : Nat} (h : off < 0x200 + 8 * RNG_C_DEACTIVATIONS) : Off (pushFoot p c).spans (pgRNG p c + off) :=
  fun r hr => off_deactFoot p c h r (by simp [deactFoot, hr])

theorem off_pushFoot_cnt (p c : Nat) {k : Nat} (h : k < RNG_C_DEACTIVATIONS) : Off (pushFoot p c).spans (cntAddr (pgRNG p c) k) :=
  fun r hr => off_deactFoot_cnt p c h r (by simp [deactFoot, hr])

theorem Deactivated.only {p i : Nat} (h : Deactivated s t p i) : Only [.onu, .rng, .ch, .phase, .regs, .cnt, .pmc] s t := h.leaves.onlyIn

theorem Deactivated.flagSet {p i : Nat} {f : Flag} (h : Deactivated s t p i) (hf : f.off < 0x200 + 8 * RNG_C_DEACTIVATIONS) :
    flagSet t (pgRNG p (onu s p i).ch) f = flagSet s (pgRNG p (onu s p i).ch) f := h.leaves.flagSet _ _ (off_deactFoot _ _ hf)

theorem Deactivated.cnt {p i k : Nat} (h : Deactivated s t p i) (hk : k < RNG_C_DEACTIVATIONS) :
    cntAt t (cntAddr (pgRNG p (onu s p i).ch) k) = cntAt s (cntAddr (pgRNG p (onu s p i).ch) k) :=
  h.leaves.cnt _ (off_deactFoot_cnt _ _ hk)

theorem flagSet_noteRng (s : State) (p c k : Nat) {f : Flag} (hbit : f.bit < 32) (hoff : f.off ≠ f.cntOff) :
    flagSet (note s (pgRNG p c) f k) (pgRNG p c) f = true := flagSet_note _ _ _ _ hbit hoff (pmcWord_port (port_rng ..))

/-- A record whose time has passed: the flag set and counted, then DEACT. -/
structure TimedOut (s t : State) (p i : Nat) (f : Flag) (k : Nat) : Prop where
  record : onu t p i = { onu s p i with state := stDeact }
  shown : flagSet t (pgRNG p (onu s p i).ch) f = true
  counted : cntAt t (cntAddr (pgRNG p (onu s p i).ch) k) = min cntMax (cntAt s (cntAddr (pgRNG p (onu s p i).ch) k) + 1)
  others : TblOnly OnuRec.init (512 * p + i) s.pon.onu t.pon.onu
  only : Only [.onu, .rng, .ch, .phase, .regs, .cnt, .pmc] s t

theorem timedOut_enterDeact (s : State) (p i k : Nat) {f : Flag} (hbit : f.bit < 32) (hne : f.off ≠ f.cntOff)
    (hoff : f.off < 0x200 + 8 * RNG_C_DEACTIVATIONS) (hk : k < RNG_C_DEACTIVATIONS) :
    TimedOut s (enterDeact (note s (pgRNG p (onu s p i).ch) f k) p i) p i f k := by
  have noted := leaves_note s (pgRNG p (onu s p i).ch) f k
  have same : onu (note s (pgRNG p (onu s p i).ch) f k) p i = onu s p i := noted.pon_onu (by simp) p i
  have table := noted.only .onu (by simp)
  have out := deactivated_enterDeact (note s (pgRNG p (onu s p i).ch) f k) p i
  refine ⟨by rw [out.record, same], ?_, ?_, (TblOnly.of_eq table).trans out.others, (noted.onlyIn (by simp)).trans out.only⟩
  · have kept := out.flagSet hoff
    rw [same] at kept
    rw [kept, flagSet_noteRng _ _ _ _ hbit hne]
  · have kept := out.cnt hk
    rw [same] at kept
    rw [kept, cntAt_note_same]

theorem registerTimeout_expires (s : State) (p : Fin 32) (i : Fin 512) (hstate : (onu s p i).state = stRegister)
    (hdue : (rng s p i).since + fld s (pgRNG p (onu s p i).ch) RNG_T_REG ≤ frame s) :
    Completes (.registerTimeout p i) s (fun t =>
      onu t p i = { onu s p i with state := stDeact } ∧
      flagSet t (pgRNG p (onu s p i).ch) RNG_F_RANGE_FAIL = true ∧
      TblOnly OnuRec.init (512 * p + i) s.pon.onu t.pon.onu ∧
      Only [.onu, .rng, .ch, .phase, .regs, .cnt, .pmc] s t) := by
  have out := timedOut_enterDeact s p i RNG_C_RANGE_FAIL (f := RNG_F_RANGE_FAIL) (by decide) (by decide) (by decide) (by decide)
  exact ⟨_, if_pos ⟨hstate, hdue⟩, out.record, out.shown, out.others, out.only⟩

theorem popupExpire_expires (s : State) (p : Fin 32) (i : Fin 512) (hstate : (onu s p i).state = stPopup)
    (hdue : (rng s p i).since + fld s (pgRNG p (onu s p i).ch) RNG_T_POPUP ≤ frame s) :
    Completes (.popupExpire p i) s (fun t =>
      onu t p i = { onu s p i with state := stDeact } ∧
      flagSet t (pgRNG p (onu s p i).ch) RNG_F_POPUP_EXPIRE = true ∧
      cntAt t (cntAddr (pgRNG p (onu s p i).ch) RNG_C_POPUP_EXPIRE) = min cntMax (cntAt s (cntAddr (pgRNG p (onu s p i).ch) RNG_C_POPUP_EXPIRE) + 1) ∧
      TblOnly OnuRec.init (512 * p + i) s.pon.onu t.pon.onu ∧
      Only [.onu, .rng, .ch, .phase, .regs, .cnt, .pmc] s t) := by
  have out := timedOut_enterDeact s p i RNG_C_POPUP_EXPIRE (f := RNG_F_POPUP_EXPIRE) (by decide) (by decide) (by decide) (by decide)
  exact ⟨_, if_pos ⟨hstate, hdue⟩, out.record, out.shown, out.counted, out.others, out.only⟩

/-! ### Ranging responses (R98, R111) -/

theorem leaves_closeRangingWindow (s : State) (p c i : Nat) : Leaves ⟨[.lane], []⟩ s (closeRangingWindow s p c i) := by
  unfold closeRangingWindow
  split
  · exact leaves_setLane s p c _
  · exact .refl _ s

/-- A response counted in and its window taken off the schedule. -/
def rangingHeard (s : State) (p c i : Nat) (at_ : Int) : State := closeRangingWindow (foundResponse s p c at_.toNat) p c i

theorem leaves_rangingHeard (s : State) (p c i : Nat) (at_ : Int) : Leaves ⟨[.lane, .grid], []⟩ s (rangingHeard s p c i at_) :=
  (leaves_foundResponse s p c _).andThen (leaves_closeRangingWindow _ p c i) (by simp [Foot.Within, Covers])

/-- The round trip of a capture: its header point less the start of the grant. -/
def rtdOf (f start c : Nat) (at_ : Int) : Int := at_ - ((f * finePerFrame + start * unitGt c * 256 : Nat) : Int)

/-- The ranging values of a record whose EqD_fine is x (R98). -/
def rangedValues (g : RngRec) (c : Nat) (rtd x : Int) (now : Nat) : RngRec :=
  { g with
    eqd := (roundDiv (40 * x) (unit40 c)).toNat, res := roundDiv (roundDiv (40 * x) (unit40 c) * unit40 c - 40 * x) 40, adj := false, sends := 0, delta := 0, drift := 0, rtd := rtd, rangedFrame := now, grantFrame := none, ranged := true, bitTime40 := 0 }

theorem rangingResponse_run {s : State} {p : Fin 32} {i : Fin 512} {ns : BitVec 32} {fr : BitVec 8} {f : Nat} {at_ rtd x : Int}
    (hat : at_ = captureFine f ns.toNat fr.toNat) (hrtd : rtd = rtdOf f (rng s p i).grantS (onu s p i).ch at_)
    (hx : x = eqdFine s p (onu s p i).ch rtd) (hstate : (onu s p i).state = stRanging) (hranged : (rng s p i).ranged = false)
    (hgrant : (rng s p i).grantFrame = some f) (hheard : heardInWindow s p (onu s p i).ch i at_ ns.toNat fr.toNat = true) :
    exec (.rangingResponse p i ns fr) s = .next (if x < 0 then
        enterDeact (note (setRng (rangingHeard s p (onu s p i).ch i at_) p i { rng s p i with grantFrame := none, rtd := rtd })
          (pgRNG p (onu s p i).ch) RNG_F_RANGE_FAR RNG_C_RANGE_FAR) p i
      else sendTo (evalDow (bump (setRng (rangingHeard s p (onu s p i).ch i at_) p i (rangedValues (rng s p i) (onu s p i).ch rtd x (frame s)))
        (pgRNG p (onu s p i).ch) RNG_C_RANGE_OK 1) p i) p i (.rangingTime (roundDiv (40 * x) (unit40 (onu s p i).ch)).toNat)) := by
  subst hx hrtd hat
  show execRangingResponse p i ns fr s = _
  unfold execRangingResponse
  dsimp only
  rw [hgrant]
  dsimp only
  rw [if_neg (by simp [hstate, hranged, hheard])]
  split
  · rw [if_pos ‹_›]
    rfl
  · rw [if_neg ‹_›]
    rfl

theorem rangingResponse_far (s : State) (p : Fin 32) (i : Fin 512) (ns : BitVec 32) (fr : BitVec 8) (f ch : Nat) (rtd : Int)
    (hch : ch = (onu s p i).ch) (hstate : (onu s p i).state = stRanging) (hranged : (rng s p i).ranged = false)
    (hgrant : (rng s p i).grantFrame = some f) (hrtd : rtd = rtdOf f (rng s p i).grantS ch (captureFine f ns.toNat fr.toNat))
    (hheard : heardInWindow s p ch i (captureFine f ns.toNat fr.toNat) ns.toNat fr.toNat = true) (hfar : eqdFine s p ch rtd < 0) :
    Completes (.rangingResponse p i ns fr) s (fun t =>
      onu t p i = { onu s p i with state := stDeact } ∧
      (rng t p i).eqd = (rng s p i).eqd ∧
      (rng t p i).grantFrame = none ∧
      flagSet t (pgRNG p ch) RNG_F_RANGE_FAR = true ∧
      cntAt t (cntAddr (pgRNG p ch) RNG_C_RANGE_FAR) = min cntMax (cntAt s (cntAddr (pgRNG p ch) RNG_C_RANGE_FAR) + 1) ∧
      Only (.lane :: .grid :: [.onu, .rng, .ch, .phase, .regs, .cnt, .pmc]) s t) := by
  subst hch
  have run := rangingResponse_run rfl hrtd rfl hstate hranged hgrant hheard
  rw [if_pos hfar] at run
  have heard := leaves_rangingHeard s p (onu s p i).ch i (captureFine f ns.toNat fr.toNat)
  generalize rangingHeard s p (onu s p i).ch i (captureFine f ns.toNat fr.toNat) = v at run heard
  have stored := leaves_setRng v p i { rng s p i with grantFrame := none, rtd := rtd }
  have values := rng_setRng_same v p i { rng s p i with grantFrame := none, rtd := rtd }
  generalize setRng v p i { rng s p i with grantFrame := none, rtd := rtd } = w at run stored values
  have same : onu w p i = onu s p i := (stored.pon_onu (by simp) p i).trans (heard.pon_onu (by simp) p i)
  have count (a : Nat) : cntAt w a = cntAt s a := (stored.cnt a (by simp)).trans (heard.cnt a (by simp))
  have noted := leaves_note w (pgRNG p (onu s p i).ch) RNG_F_RANGE_FAR RNG_C_RANGE_FAR
  have out := timedOut_enterDeact w p i RNG_C_RANGE_FAR (f := RNG_F_RANGE_FAR) (by decide) (by decide) (by decide) (by decide)
  have gone := (deactivated_enterDeact (note w (pgRNG p (onu s p i).ch) RNG_F_RANGE_FAR RNG_C_RANGE_FAR) p i).values
  rw [noted.pon_rng (by simp), values] at gone
  obtain ⟨record, shown, counted, -, only⟩ := out
  rw [same] at record shown counted only
  rw [count] at counted
  refine ⟨_, run, record, ?_, ?_, shown, counted, heard.onlyIn.trans (stored.onlyIn.trans (only.mono (by decide)))⟩
  · rw [gone]
  · rw [gone]

theorem rangingResponse_ranges (s : State) (p : Fin 32) (i : Fin 512) (ns : BitVec 32) (fr : BitVec 8) (f ch : Nat) (rtd x q : Int)
    (hch : ch = (onu s p i).ch) (hstate : (onu s p i).state = stRanging) (hranged : (rng s p i).ranged = false)
    (hgrant : (rng s p i).grantFrame = some f) (hrtd : rtd = rtdOf f (rng s p i).grantS ch (captureFine f ns.toNat fr.toNat))
    (hheard : heardInWindow s p ch i (captureFine f ns.toNat fr.toNat) ns.toNat fr.toNat = true) (hx : x = eqdFine s p ch rtd) (hnear : 0 ≤ x)
    (hq : q = roundDiv (40 * x) (unit40 ch)) (hclean : hasDefect (onu s p i) dDOWi = false)
    (hdow : (roundDiv (q * unit40 ch - 40 * x) 40).natAbs < fld s (pgRNG p ch) RNG_DOW_FINE) :
    Completes (.rangingResponse p i ns fr) s (fun t =>
      (rng t p i).eqd = q.toNat ∧
      (rng t p i).res = roundDiv (q * unit40 ch - 40 * x) 40 ∧
      (rng t p i).rtd = rtd ∧
      (rng t p i).rangedFrame = frame s ∧
      (rng t p i).drift = 0 ∧
      (rng t p i).grantFrame = none ∧
      onu t p i = onu s p i ∧
      cntAt t (cntAddr (pgRNG p ch) RNG_C_RANGE_OK) = min cntMax (cntAt s (cntAddr (pgRNG p ch) RNG_C_RANGE_OK) + 1) ∧
      TblOnly RngRec.init (512 * p + i) s.pon.rng t.pon.rng ∧
      Only [.rng, .lane, .grid, .ch, .regs, .cnt, .pmc] s t) := by
  subst hch hq
  have run := rangingResponse_run rfl hrtd hx hstate hranged hgrant hheard
  rw [if_neg (by omega)] at run
  have heard := leaves_rangingHeard s p (onu s p i).ch i (captureFine f ns.toNat fr.toNat)
  generalize rangingHeard s p (onu s p i).ch i (captureFine f ns.toNat fr.toNat) = v at run heard
  have stored := leaves_setRng v p i (rangedValues (rng s p i) (onu s p i).ch rtd x (frame s))
  have others := tblOnly_setRng v p i (rangedValues (rng s p i) (onu s p i).ch rtd x (frame s))
  have values := rng_setRng_same v p i (rangedValues (rng s p i) (onu s p i).ch rtd x (frame s))
  generalize setRng v p i (rangedValues (rng s p i) (onu s p i).ch rtd x (frame s)) = w at run stored others values
  have counted := leaves_bump w (pgRNG p (onu s p i).ch) RNG_C_RANGE_OK 1
  have count := cntAt_bump_same w (pgRNG p (onu s p i).ch) RNG_C_RANGE_OK 1
  rw [stored.cnt _ (by simp), heard.cnt _ (by simp)] at count
  generalize bump w (pgRNG p (onu s p i).ch) RNG_C_RANGE_OK 1 = y at run counted count
  have record : onu y p i = onu s p i :=
    (counted.pon_onu (by simp) p i).trans ((stored.pon_onu (by simp) p i).trans (heard.pon_onu (by simp) p i))
  have held : rng y p i = rangedValues (rng s p i) (onu s p i).ch rtd x (frame s) := (counted.pon_rng (by simp) p i).trans values
  have limit : fld y (pgRNG p (onu s p i).ch) RNG_DOW_FINE = fld s (pgRNG p (onu s p i).ch) RNG_DOW_FINE := by
    rw [counted.fld _ _ ?_, stored.everyFld, heard.everyFld]
    simp [wordSpan, pmcSpan, cntAddr, pgPMC, pgRNG, pgPON, RNG_DOW_FINE, RNG_C_RANGE_OK]
    omega
  rw [evalDow_clean y p i (by rw [held, record, limit]; exact hdow) (by rw [record, hclean])] at run
  have sent := leaves_sendTo y p i (b := .rangingTime (roundDiv (40 * x) (unit40 (onu s p i).ch)).toNat) (by simp)
  rw [record] at sent
  have final := (sent.pon_rng (by simp [pushFoot]) p i).trans held
  have tables : y.pon.rng = w.pon.rng := counted.only .rng (by simp)
  have first : v.pon.rng = s.pon.rng := heard.only .rng (by simp)
  refine ⟨_, run, ?_, ?_, ?_, ?_, ?_, ?_, ?_, ?_, ?_, ?_⟩
  · rw [final, rangedValues]
  · rw [final, rangedValues]
  · rw [final, rangedValues]
  · rw [final, rangedValues]
  · rw [final, rangedValues]
  · rw [final, rangedValues]
  · exact (sent.pon_onu (by simp [pushFoot]) p i).trans record
  · rw [sent.cnt _ (off_pushFoot_cnt _ _ (by decide)), count]
  · exact ((TblOnly.of_eq first).trans others).trans ((TblOnly.of_eq tables).trans (.of_eq (sent.only .rng (by simp [pushFoot]))))
  · exact heard.onlyIn.trans (stored.onlyIn.trans ((counted.onlyIn (by simp)).trans (sent.onlyIn (by simp))))

/-! ### Ranging windows without a response (R100) -/

/-- The window off the schedule, the failure shown and counted, and a new grant to come. -/
def rangingFailed (s : State) (p i : Nat) : State :=
  setRng (note (closeRangingWindow s p (onu s p i).ch i) (pgRNG p (onu s p i).ch) RNG_F_RANGE_FAIL RNG_C_RANGE_FAIL) p i
    { rng s p i with grantFrame := none, assignSent := some (frame s) }

/-- A failure to range is shown and counted, and leaves the record. -/
structure RangeFailed (s t : State) (p i : Nat) : Prop where
  values : rng t p i = { rng s p i with grantFrame := none, assignSent := some (frame s) }
  record : onu t p i = onu s p i
  shown : flagSet t (pgRNG p (onu s p i).ch) RNG_F_RANGE_FAIL = true
  counted : cntAt t (cntAddr (pgRNG p (onu s p i).ch) RNG_C_RANGE_FAIL) =
    min cntMax (cntAt s (cntAddr (pgRNG p (onu s p i).ch) RNG_C_RANGE_FAIL) + 1)
  only : Only [.lane, .rng, .regs, .cnt, .pmc] s t

theorem rangeFailed_rangingFailed (s : State) (p i : Nat) : RangeFailed s (rangingFailed s p i) p i := by
  have closed := leaves_closeRangingWindow s p (onu s p i).ch i
  unfold rangingFailed
  generalize closeRangingWindow s p (onu s p i).ch i = v at closed
  have noted := leaves_note v (pgRNG p (onu s p i).ch) RNG_F_RANGE_FAIL RNG_C_RANGE_FAIL
  have stored := leaves_setRng (note v (pgRNG p (onu s p i).ch) RNG_F_RANGE_FAIL RNG_C_RANGE_FAIL) p i
    { rng s p i with grantFrame := none, assignSent := some (frame s) }
  refine ⟨rng_setRng_same .., ?_, ?_, ?_, closed.onlyIn.trans ((noted.onlyIn (by simp)).trans (stored.onlyIn))⟩
  · rw [stored.pon_onu (by simp), noted.pon_onu (by simp), closed.pon_onu (by simp)]
  · rw [stored.flagSet _ _ (by simp), flagSet_noteRng _ _ _ _ (by decide) (by decide)]
  · rw [stored.cnt _ (by simp), cntAt_note_same, closed.cnt _ (by simp)]

theorem rangingWindowClose_run {s : State} {p : Fin 32} {i : Fin 512} (hstate : (onu s p i).state = stRanging)
    (hgrant : (rng s p i).grantFrame ≠ none) (hranged : (rng s p i).ranged = false) :
    exec (.rangingWindowClose p i) s = .next (if fld s (pgRNG p (onu s p i).ch) RNG_RANGE_TRIES ≤ (rng s p i).tries then
      enterDeact (rangingFailed s p i) p i else rangingFailed s p i) := if_pos ⟨hstate, hgrant, hranged⟩

theorem rangingWindowClose_retries (s : State) (p : Fin 32) (i : Fin 512) (hstate : (onu s p i).state = stRanging)
    (hgrant : (rng s p i).grantFrame ≠ none) (hranged : (rng s p i).ranged = false)
    (htries : (rng s p i).tries < fld s (pgRNG p (onu s p i).ch) RNG_RANGE_TRIES) :
    Completes (.rangingWindowClose p i) s (fun t =>
      rng t p i = { rng s p i with grantFrame := none, assignSent := some (frame s) } ∧
      onu t p i = onu s p i ∧
      flagSet t (pgRNG p (onu s p i).ch) RNG_F_RANGE_FAIL = true ∧
      cntAt t (cntAddr (pgRNG p (onu s p i).ch) RNG_C_RANGE_FAIL) = min cntMax (cntAt s (cntAddr (pgRNG p (onu s p i).ch) RNG_C_RANGE_FAIL) + 1) ∧
      Only [.lane, .rng, .regs, .cnt, .pmc] s t) := by
  have run := rangingWindowClose_run hstate hgrant hranged
  rw [if_neg (by omega)] at run
  obtain ⟨values, record, shown, counted, only⟩ := rangeFailed_rangingFailed s p i
  exact ⟨_, run, values, record, shown, counted, only⟩

theorem rangingWindowClose_deactivates (s : State) (p : Fin 32) (i : Fin 512) (hstate : (onu s p i).state = stRanging)
    (hgrant : (rng s p i).grantFrame ≠ none) (hranged : (rng s p i).ranged = false)
    (htries : fld s (pgRNG p (onu s p i).ch) RNG_RANGE_TRIES ≤ (rng s p i).tries) :
    Completes (.rangingWindowClose p i) s (fun t =>
      onu t p i = { onu s p i with state := stDeact } ∧
      flagSet t (pgRNG p (onu s p i).ch) RNG_F_RANGE_FAIL = true ∧
      Only (.lane :: [.onu, .rng, .ch, .phase, .regs, .cnt, .pmc]) s t) := by
  have run := rangingWindowClose_run hstate hgrant hranged
  rw [if_pos htries] at run
  obtain ⟨-, record, shown, -, only⟩ := rangeFailed_rangingFailed s p i
  have out := deactivated_enterDeact (rangingFailed s p i) p i
  have kept := out.flagSet (f := RNG_F_RANGE_FAIL) (by decide)
  rw [record] at kept
  exact ⟨_, run, by rw [out.record, record], by rw [kept, shown], (only.mono (by decide)).trans (out.only.mono (by decide))⟩

/-! ### Registration (R69) -/

theorem registrationReceived_operates (s : State) (p : Fin 32) (i : Fin 512) (id : BitVec 288) (hstate : (onu s p i).state = stRegister)
    (hid : regMatches (onu s p i).ch (onu s p i).expReg id = true) :
    Completes (.registrationReceived p i id) s (fun t =>
      onu t p i = { onu s p i with state := stOperation } ∧
      TblOnly OnuRec.init (512 * p + i) s.pon.onu t.pon.onu ∧
      RegsOnly [] [pgGRD + GRD_ONU_IN_OP.off, pgPON p + PON_ONU_IN_USE.off] s t ∧
      Only [.onu, .regs] s t) := by
  have run : exec (.registrationReceived p i id) s = .next (setOnuState s p i stOperation) :=
    (if_pos hstate).trans (congrArg Host.Outcome.next (if_pos hid))
  obtain ⟨record, others, leaves⟩ := stateEntered_setOnuState s p i (show stOperation ≠ stEmpty by decide)
  exact ⟨_, run, record, others, leaves.regsOnly _ _ (by simp [stateFoot, wordSpan]), leaves.onlyIn⟩

theorem registrationReceived_mismatch (s : State) (p : Fin 32) (i : Fin 512) (id : BitVec 288) (hstate : (onu s p i).state = stRegister)
    (hid : regMatches (onu s p i).ch (onu s p i).expReg id = false) :
    Completes (.registrationReceived p i id) s (fun t =>
      (onu t p i).state = stSnm ∧
      hasDefect (onu t p i) dSNMi = true ∧
      TblOnly OnuRec.init (512 * p + i) s.pon.onu t.pon.onu ∧
      Only (.onu :: .pm :: .rng :: .ch :: .phase :: alerts) s t) := by
  have run : exec (.registrationReceived p i id) s = .next (enterSnm s p i) :=
    (if_pos hstate).trans (congrArg Host.Outcome.next (if_neg (by simp [hid])))
  obtain ⟨⟨state, defect⟩, others, leaves⟩ := snmEntered_enterSnm s p i
  exact ⟨_, run, state, defect, others, leaves.onlyIn⟩

/-! ### Corrections not seen in time (R113, R114) -/

theorem eqdRetry_resends (s : State) (p : Fin 32) (i : Fin 512) (hadj : (rng s p i).adj = true)
    (hdue : (rng s p i).adjSent + fld s (pgRNG p (onu s p i).ch) RNG_T_EQD ≤ frame s) (hsends : (rng s p i).sends < 3) :
    Completes (.eqdRetry p i) s (fun t =>
      rng t p i = { rng s p i with sends := (rng s p i).sends + 1, adjSent := frame s } ∧
      onu t p i = onu s p i ∧
      flagSet t (pgRNG p (onu s p i).ch) RNG_F_EQD_RETRY = true ∧
      cntAt t (cntAddr (pgRNG p (onu s p i).ch) RNG_C_EQD_RETRY) = min cntMax (cntAt s (cntAddr (pgRNG p (onu s p i).ch) RNG_C_EQD_RETRY) + 1) ∧
      TblOnly RngRec.init (512 * p + i) s.pon.rng t.pon.rng ∧
      Only [.rng, .ch, .regs, .cnt, .pmc] s t) := by
  have run : exec (.eqdRetry p i) s = .next (sendTo (note (setRng s p i { rng s p i with sends := (rng s p i).sends + 1, adjSent := frame s })
      (pgRNG p (onu s p i).ch) RNG_F_EQD_RETRY RNG_C_EQD_RETRY) p i (.rangingTime ((rng s p i).eqd + (rng s p i).delta).toNat)) :=
    (if_pos ⟨hadj, hdue⟩).trans (if_pos hsends)
  have stored := leaves_setRng s p i { rng s p i with sends := (rng s p i).sends + 1, adjSent := frame s }
  have others := tblOnly_setRng s p i { rng s p i with sends := (rng s p i).sends + 1, adjSent := frame s }
  have values := rng_setRng_same s p i { rng s p i with sends := (rng s p i).sends + 1, adjSent := frame s }
  generalize setRng s p i { rng s p i with sends := (rng s p i).sends + 1, adjSent := frame s } = v at run stored others values
  have noted := leaves_note v (pgRNG p (onu s p i).ch) RNG_F_EQD_RETRY RNG_C_EQD_RETRY
  have shown := flagSet_noteRng v p (onu s p i).ch RNG_C_EQD_RETRY (f := RNG_F_EQD_RETRY) (by decide) (by decide)
  have counted := cntAt_note_same v (pgRNG p (onu s p i).ch) RNG_F_EQD_RETRY RNG_C_EQD_RETRY
  rw [stored.cnt _ (by simp)] at counted
  generalize note v (pgRNG p (onu s p i).ch) RNG_F_EQD_RETRY RNG_C_EQD_RETRY = w at run noted shown counted
  have record : onu w p i = onu s p i := (noted.pon_onu (by simp) p i).trans (stored.pon_onu (by simp) p i)
  have sent := leaves_sendTo w p i (b := .rangingTime ((rng s p i).eqd + (rng s p i).delta).toNat) (by simp)
  rw [record] at sent
  have table : w.pon.rng = v.pon.rng := noted.only .rng (by simp)
  refine ⟨_, run, ?_, ?_, ?_, ?_, ?_, stored.onlyIn.trans ((noted.onlyIn (by simp)).trans (sent.onlyIn (by simp)))⟩
  · rw [sent.pon_rng (by simp [pushFoot]), noted.pon_rng (by simp), values]
  · rw [sent.pon_onu (by simp [pushFoot]), record]
  · rw [sent.flagSet _ _ (off_pushFoot _ _ (by decide)), shown]
  · rw [sent.cnt _ (off_pushFoot_cnt _ _ (by decide)), counted]
  · exact (others.trans (.of_eq table)).trans (.of_eq (sent.only .rng (by simp [pushFoot])))

/-- A correction given up: DOWi raised, and a new correction only with EQD_CORR_EN. -/
structure GivenUp (s t : State) (p i : Nat) : Prop where
  kept : isSet s (pgRNG p (onu s p i).ch) RNG_EQD_CORR_EN = false → rng t p i = rng s p i ∧ t.pon.ch = s.pon.ch
  sends : (rng t p i).sends ≤ max 1 (rng s p i).sends
  eqd : (rng t p i).eqd = (rng s p i).eqd
  others : TblOnly RngRec.init (512 * p + i) s.pon.rng t.pon.rng
  records : t.pon.onu = s.pon.onu
  only : Only [.rng, .ch, .regs, .pmc] s t

theorem givenUp_correct (s : State) (p i : Nat) : GivenUp s (correct s p i) p i := by
  rcases correct_cases s p i with run | ⟨hen, delta, msg, run⟩ <;> rw [run]
  · exact ⟨fun _ => ⟨rfl, rfl⟩, le_max_right _ _, rfl, .of_eq rfl, rfl, .refl _ s⟩
  · have stored := leaves_setRng s p i { rng s p i with adj := true, sends := 1, delta := delta, adjSent := frame s }
    have others := tblOnly_setRng s p i { rng s p i with adj := true, sends := 1, delta := delta, adjSent := frame s }
    have values := rng_setRng_same s p i { rng s p i with adj := true, sends := 1, delta := delta, adjSent := frame s }
    generalize setRng s p i { rng s p i with adj := true, sends := 1, delta := delta, adjSent := frame s } = v at stored others values
    have sent := leaves_sendTo v p i (b := .rangingTime msg) (by simp)
    have held := sent.pon_rng (by simp [pushFoot]) p i
    rw [values] at held
    refine ⟨fun hoff => absurd hen (by simp [hoff]), ?_, ?_, others.trans (.of_eq (sent.only .rng (by simp [pushFoot]))),
      (sent.only .onu (by simp [pushFoot])).trans (stored.only .onu (by simp)), stored.onlyIn.trans (sent.onlyIn (by simp))⟩
    · rw [held]
      exact le_max_left _ _
    · rw [held]

/-- The controls of a ranging page lie beside what a raised defect touches. -/
theorem off_defectFoot (p c : Nat) {off : Nat} (h : ANY_EVT_SEQ.off < off) (hf : off < RNG_F_DOW.off) :
    Off (defectFoot p c).spans (pgRNG p c + off) := by
  simp [ANY_EVT_SEQ, RNG_F_DOW] at h hf
  simp [defectFoot, reportFoot, clearReportFoot, wordSpan, pageSpan, pmcSpan, cntAddr, pgPMC, pgEVT, pgRNG, pgPON, ANY_EVT_SEQ, RNG_F_DOW,
    RNG_C_DOW_RAISES, PON_F_SNM, PON_F_DEFECT_CHANGE]
  omega

theorem eqdRetry_givesUp (s : State) (p : Fin 32) (i : Fin 512) (hadj : (rng s p i).adj = true)
    (hdue : (rng s p i).adjSent + fld s (pgRNG p (onu s p i).ch) RNG_T_EQD ≤ frame s) (hsends : 3 ≤ (rng s p i).sends) :
    Completes (.eqdRetry p i) s (fun t =>
      hasDefect (onu t p i) dDOWi = true ∧
      (isSet s (pgRNG p (onu s p i).ch) RNG_EQD_CORR_EN = false →
        rng t p i = { rng s p i with adj := false, sends := 0 } ∧ t.pon.ch = s.pon.ch) ∧
      (rng t p i).sends ≤ 1 ∧
      (rng t p i).eqd = (rng s p i).eqd ∧
      TblOnly RngRec.init (512 * p + i) s.pon.rng t.pon.rng ∧
      TblOnly OnuRec.init (512 * p + i) s.pon.onu t.pon.onu ∧
      Only (.rng :: .onu :: .pm :: .ch :: alerts) s t) := by
  have run : exec (.eqdRetry p i) s = .next (correct (raiseDow (setRng s p i { rng s p i with adj := false, sends := 0 }) p i) p i) :=
    (if_pos ⟨hadj, hdue⟩).trans (if_neg (by omega))
  have stored := leaves_setRng s p i { rng s p i with adj := false, sends := 0 }
  have others := tblOnly_setRng s p i { rng s p i with adj := false, sends := 0 }
  have values := rng_setRng_same s p i { rng s p i with adj := false, sends := 0 }
  generalize setRng s p i { rng s p i with adj := false, sends := 0 } = v at run stored others values
  have same : onu v p i = onu s p i := stored.pon_onu (by simp) p i
  have table : v.pon.onu = s.pon.onu := stored.only .onu (by simp)
  obtain ⟨n, hn, ⟨rep, record⟩, raisedOthers, raised⟩ := defectsMoved_raiseDow v p i
  generalize raiseDow v p i = w at run record raisedOthers raised
  rw [same] at record raised
  rw [table] at raisedOthers
  have held := raised.pon_rng (by simp [defectFoot, reportFoot, alerts]) p i
  have ranging := raised.only .rng (by simp [defectFoot, reportFoot, alerts])
  have channels := (raised.only .ch (by simp [defectFoot, reportFoot, alerts])).trans (stored.only .ch (by simp))
  have enable : isSet w (pgRNG p (onu s p i).ch) RNG_EQD_CORR_EN = isSet s (pgRNG p (onu s p i).ch) RNG_EQD_CORR_EN := by
    rw [raised.isSet _ _ (off_defectFoot _ _ (by decide) (by decide)), stored.isSet _ _ (by simp)]
  obtain ⟨kept, sends, eqd, correctOthers, records, only⟩ := givenUp_correct w p i
  rw [held, values] at kept sends eqd
  have channel : (onu w p i).ch = (onu s p i).ch := by rw [record]
  rw [channel, enable] at kept
  refine ⟨_, run, ?_, fun hoff => ?_, sends, eqd, ?_, ?_, ?_⟩
  · rw [show onu (correct w p i) p i = onu w p i from congrArg (tget OnuRec.init · (512 * p + i)) records, record]
    exact hn
  · exact ⟨(kept hoff).1, (kept hoff).2.trans channels⟩
  · exact others.trans ((TblOnly.of_eq ranging).trans correctOthers)
  · exact raisedOthers.trans (.of_eq records)
  · exact stored.onlyIn.trans ((raised.onlyIn (by simp [reportFoot, alerts])).trans (only.mono (by decide)))

/-- Settles O18: a clause for each command and for what it finds. -/
theorem rangingAndActivationSteps : Obligations.RangingAndActivationSteps := by
  unfold Obligations.RangingAndActivationSteps
  exact ⟨rangingGrantDue_wants, rangingGrantDue_waits, rangingResponse_ranges, rangingResponse_far, rangingWindowClose_retries,
    rangingWindowClose_deactivates, registrationReceived_operates, registrationReceived_mismatch, registerTimeout_expires, popupExpire_expires,
    eqdRetry_resends, eqdRetry_givesUp⟩

end Sys2Proof.Machine
end

section
/-! PROOF. O21 fails: the pass that MAP_INPUT_DEADLINE starts may fault at once on its allocation cluster, and the fault may reset the chip, the
map with it (R20, R123, R158, R164, R320). -/

namespace Sys2Proof.Machine

/-- Cluster 0 is the allocation cluster with an image of one word, its entry vector 3 (T_IN) lies beyond it, and source 0 asks for a chip
reset. Channel 0 of port 0 builds no map and its ALC_EN is 0. -/
def fragilePass : State :=
  { State.reset with
    bus := { State.reset.bus with regs := [
      (pgFLT + (FLT_REACT.at 0).off, 8#32),
      (pgENG 0 + ENG_ROLE.off, 1#32), (pgENG 0 + ENG_SPARE_FOR.off, 63#32), (pgENG 0 + ENG_ENG_OK.off, 1#32),
      (pgUCS 0 + (UCS_ENTRY_A.at 3).off, 1#32)] }
    eng := { State.reset.eng with cl := [(0, { Cluster.init 0 with lenA := 1 })] } }

/-- The map that channel 0 of port 0 builds after a step. -/
def mapAfter : Res → Option (Option BwMap)
  | .next t => some (allocCh t 0 0).map
  | _ => none

theorem mapAfter_fragilePass : mapAfter (exec (.mapInputDeadline 0 0) fragilePass) = some none := by decide +kernel

/-- Refutes O21: MAP_INPUT_DEADLINE of a channel whose ALC_EN is 0 starts no map where the pass on its allocation cluster faults at once and
the fault resets the chip. -/
theorem not_mapPass : ¬ Obligations.MapPass := by
  unfold Obligations.MapPass
  rintro ⟨-, empty, -⟩
  obtain ⟨t, ht, hmap, -⟩ := empty fragilePass 0 0 (by decide) (by decide) (by decide +kernel) (by decide)
  have lost := mapAfter_fragilePass
  rw [ht] at lost
  exact Option.some_ne_none _ (hmap.symm.trans (Option.some.inj lost))

end Sys2Proof.Machine
end

section
/-! SUPPORT. The pages of allocation and templates, and the stores behind them: descriptors, burst settings, the channels' allocation, templates
and their entries (R120, R132, R136). -/

namespace Sys2Proof.Machine

variable {F : Foot} {s t : State}

theorem port_alc (p c off : Nat) : 0x01000000 ≤ pgALC p c + off := by simp only [pgALC, pgPON]; omega
theorem port_tpl (p off : Nat) : 0x01000000 ≤ pgTPL p + off := by simp only [pgTPL, pgPON]; omega

/-! ### Descriptors -/

theorem only_ad (s : State) (l : Tbl AdRec) : Only [.ad] s { s with pon := { s.pon with ad := l } } := by
  intro p hp
  cases p
  case ad => simp at hp
  all_goals rfl

theorem leaves_setAd (s : State) (p i : Nat) (r : AdRec) : Leaves ⟨[.ad], []⟩ s (setAd s p i r) :=
  .of_only (only_ad s _) (by decide) (by decide)

@[simp] theorem ad_setAd_same (s : State) (p i : Nat) (r : AdRec) : ad (setAd s p i r) p i = r :=
  tget_tset_same AdRec.init s.pon.ad (2048 * p + i) r

theorem tblOnly_setAd (s : State) (p i : Nat) (r : AdRec) : TblOnly AdRec.init (2048 * p + i) s.pon.ad (setAd s p i r).pon.ad :=
  fun _ hj => tget_tset_other _ _ _ _ _ hj

/-! ### The channels' allocation -/

theorem only_allocCh (s : State) (l : Tbl AllocCh) : Only [.alloc] s { s with pon := { s.pon with alloc := l } } := by
  intro p hp
  cases p
  case alloc => simp at hp
  all_goals rfl

theorem leaves_setAllocCh (s : State) (p c : Nat) (r : AllocCh) : Leaves ⟨[.alloc], []⟩ s (setAllocCh s p c r) :=
  .of_only (only_allocCh s _) (by decide) (by decide)

@[simp] theorem allocCh_setAllocCh_same (s : State) (p c : Nat) (r : AllocCh) : allocCh (setAllocCh s p c r) p c = r :=
  tget_tset_same AllocCh.init s.pon.alloc (3 * p + c) r

theorem tblOnly_setAllocCh (s : State) (p c : Nat) (r : AllocCh) :
    TblOnly AllocCh.init (3 * p + c) s.pon.alloc (setAllocCh s p c r).pon.alloc := fun _ hj => tget_tset_other _ _ _ _ _ hj

/-! ### Burst settings -/

theorem only_obRec (s : State) (l : Tbl ObRec) : Only [.ob] s { s with pon := { s.pon with ob := l } } := by
  intro p hp
  cases p
  case ob => simp at hp
  all_goals rfl

theorem leaves_setOb (s : State) (p i : Nat) (r : ObRec) : Leaves ⟨[.ob], []⟩ s (setOb s p i r) :=
  .of_only (only_obRec s _) (by decide) (by decide)

@[simp] theorem ob_setOb_same (s : State) (p i : Nat) (r : ObRec) : ob (setOb s p i r) p i = r :=
  tget_tset_same ObRec.init s.pon.ob (512 * p + i) r

theorem tblOnly_setOb (s : State) (p i : Nat) (r : ObRec) : TblOnly ObRec.init (512 * p + i) s.pon.ob (setOb s p i r).pon.ob :=
  fun _ hj => tget_tset_other _ _ _ _ _ hj

/-! ### Templates -/

theorem only_tplSlots (s : State) (l : Tbl Tpl) : Only [.tpl] s { s with pon := { s.pon with tpl := l } } := by
  intro p hp
  cases p
  case tpl => simp at hp
  all_goals rfl

theorem leaves_setTpl (s : State) (p k : Nat) (r : Tpl) : Leaves ⟨[.tpl], []⟩ s (setTpl s p k r) :=
  .of_only (only_tplSlots s _) (by decide) (by decide)

@[simp] theorem tpl_setTpl_same (s : State) (p k : Nat) (r : Tpl) : tpl (setTpl s p k r) p k = r :=
  tget_tset_same Tpl.init s.pon.tpl (16 * p + k) r

theorem tblOnly_setTpl (s : State) (p k : Nat) (r : Tpl) : TblOnly Tpl.init (16 * p + k) s.pon.tpl (setTpl s p k r).pon.tpl :=
  fun _ hj => tget_tset_other _ _ _ _ _ hj

/-! ### Entries of templates -/

/-- A template entry taken into the table (R132). -/
def setTplEntry (s : State) (p e : Nat) (n : TplEntry) : State :=
  { s with pon := { s.pon with ent := tset TplEntry.init s.pon.ent (1024 * p + e) n } }

theorem only_tplEntries (s : State) (l : Tbl TplEntry) : Only [.ent] s { s with pon := { s.pon with ent := l } } := by
  intro p hp
  cases p
  case ent => simp at hp
  all_goals rfl

theorem leaves_setTplEntry (s : State) (p e : Nat) (n : TplEntry) : Leaves ⟨[.ent], []⟩ s (setTplEntry s p e n) :=
  .of_only (only_tplEntries s _) (by decide) (by decide)

@[simp] theorem tplEntry_setTplEntry_same (s : State) (p e : Nat) (n : TplEntry) : tplEntry (setTplEntry s p e n) p e = n :=
  tget_tset_same TplEntry.init s.pon.ent (1024 * p + e) n

theorem tblOnly_setTplEntry (s : State) (p e : Nat) (n : TplEntry) :
    TblOnly TplEntry.init (1024 * p + e) s.pon.ent (setTplEntry s p e n).pon.ent := fun _ hj => tget_tset_other _ _ _ _ _ hj

end Sys2Proof.Machine
end

section
/-! PROOF. O23: templates loaded, rejected, stopped and begun, and their entries by their window (R132, R133, R134). -/

namespace Sys2Proof.Machine

/-! ### The selected template on its page (R136) -/

/-- STATE of a template: a load that waits, one in force, or none. -/
def tplState (r : Tpl) : Nat := if r.pending.isSome then 1 else if r.active.isSome then 2 else 0

/-- The words of the page that show the selected template. -/
def tplShownSpans (p : Nat) : List Span :=
  [wordSpan (pgTPL p + TPL_STATE.off), wordSpan (pgTPL p + TPL_BEGIN_FRAME.off), wordSpan (pgTPL p + TPL_BEGIN_FRAME.off + 4)]

/-- The rest of the page lies beside them: the registers, and the counters. -/
theorem off_tplShown (p : Nat) {i : Nat} (h : i < 0x58 ∨ 0x61 ≤ i) : Off (tplShownSpans p) (pgTPL p + i) := by
  simp only [Off, tplShownSpans, wordSpan, TPL_STATE, TPL_BEGIN_FRAME, List.mem_cons, List.not_mem_nil, or_false, forall_eq_or_imp, forall_eq]
  omega

theorem off_tplShown_cnt (p i : Nat) : Off (tplShownSpans p) (cntAddr (pgTPL p) i) := by
  rw [cntAddr, Nat.add_assoc]
  exact off_tplShown p (.inr (by omega))

theorem leaves_showTpl (s : State) (p : Nat) : Leaves ⟨[.regs], tplShownSpans p⟩ s (showTpl s p) := by
  have shown (t : State) (f : Fld) (v : Nat) (hf : wordSpan (pgTPL p + f.off) ∈ tplShownSpans p) :
      Leaves ⟨[.regs], tplShownSpans p⟩ t (setFld t (pgTPL p) f v) :=
    (leaves_setFld t (pgTPL p) f v).mono (Foot.within_of_mem (by simp) (by simpa using hf))
  unfold showTpl
  exact (((shown s TPL_STATE _ (by simp [tplShownSpans])).trans (shown _ TPL_REJ_CAUSE _ (by simp [tplShownSpans, TPL_REJ_CAUSE, TPL_STATE]))).trans
    (shown _ (TPL_BEGIN_FRAME.word 0) _ (by simp [tplShownSpans, Fld.word]))).trans
    (shown _ (TPL_BEGIN_FRAME.word 1) _ (by simp [tplShownSpans, Fld.word, Nat.add_assoc]))

theorem showTpl_shows (s : State) (p : Nat) :
    fld (showTpl s p) (pgTPL p) TPL_STATE = tplState (tpl s p (fld s (pgTPL p) TPL_TPL_SEL)) ∧
    fld (showTpl s p) (pgTPL p) TPL_REJ_CAUSE = (tpl s p (fld s (pgTPL p) TPL_TPL_SEL)).rej % 16 := by
  have begins (t : State) (f : Fld) (v : Nat) (hf : f.off = TPL_STATE.off) :
      fld (setFldW t (pgTPL p) TPL_BEGIN_FRAME v 2) (pgTPL p) f = fld t (pgTPL p) f := by
    have apart (i : Nat) : (TPL_BEGIN_FRAME.word i).Apart (pgTPL p) f :=
      Fld.apart_of_page _ ⟨Nat.le_refl 32, .inl (by simp only [hf, Fld.word, TPL_BEGIN_FRAME, TPL_STATE]; omega)⟩
    exact (fld_setFld_apart _ _ (apart 1)).trans (fld_setFld_apart _ _ (apart 0))
  unfold showTpl
  dsimp only
  refine ⟨?_, ?_⟩
  · rw [begins _ _ _ rfl, fld_setFld_apart _ _ (Fld.apart_of_page _ (by decide)), fld_setFld_of_lt _ _ _ _ (by decide)]
    · rfl
    · have width : 2 ^ TPL_STATE.width = 4 := rfl
      split
      · omega
      · split <;> omega
  · rw [begins _ TPL_REJ_CAUSE _ rfl]
    exact fld_setFld_same _ _ _ _ (by decide)

/-- A command of the page that stores the selected template and shows it. -/
theorem completes_tplCommand {l : List Part} {i : Instr} {o : Origin} {p : Fin 32} {code : Nat} {s v : State} {r : Tpl}
    {body : State → State × Nat} {P : State → Prop}
    (hexec : exec i s = .next (command o (pgTPL p + TPL_TPL_CMD.off) (pgTPL p + TPL_TPL_SEL.off) body s))
    (h : addrReject s o (pgTPL p + TPL_TPL_CMD.off) = none) (hbody : body s = (showTpl v p, code)) (hb : Only l s v)
    (table : v.pon.tpl = (setTpl s p (fld s (pgTPL p) TPL_TPL_SEL) r).pon.tpl)
    (hP : ∀ t, tpl t p (fld s (pgTPL p) TPL_TPL_SEL) = r →
      TblOnly Tpl.init (16 * p + fld s (pgTPL p) TPL_TPL_SEL) s.pon.tpl t.pon.tpl →
      Answered s t o code (pgTPL p + TPL_TPL_CMD.off) → Leaves recordFoot (showTpl v p) t → P t)
    (hj : Part.jrn ∉ .regs :: l := by decide) (hg : Part.grid ∉ .regs :: l := by decide) : Completes i s P := by
  have shown := leaves_showTpl v p
  have only : Only (.regs :: l) s (showTpl v p) := (hb.mono fun _ hq => List.mem_cons_of_mem _ hq).trans (shown.onlyIn (by simp))
  refine completes_window hexec h hbody only (fun t answered told => hP t ?_ ?_ answered told) hj hg
  · rw [tpl, told.only .tpl (by decide), shown.only .tpl (by simp), table]
    exact tpl_setTpl_same ..
  · rw [told.only .tpl (by decide), shown.only .tpl (by simp), table]
    exact tblOnly_setTpl s p _ r

/-! ### TPL_LOAD that R133 accepts -/

/-- What a load that comes too late for its START touches beside the schedules. -/
def tplLateFoot (p : Nat) : Foot :=
  ⟨alerts, [pmcSpan, pageSpan pgEVT, wordSpan (pgTPL p + ANY_EVT_SEQ.off), wordSpan (pgTPL p + TPL_F_LATE.off),
    wordSpan (pgTPL p + TPL_F_LATE.cntOff), wordSpan (cntAddr (pgTPL p) TPL_C_TPL_LATE)]⟩

/-- The late load's flag, count and event. -/
def tplLate (s : State) (p : Nat) (arg : List Nat) : State :=
  post (note s (pgTPL p) TPL_F_LATE TPL_C_TPL_LATE) (pgTPL p) .tplLate arg

theorem leaves_tplLate (s : State) (p : Nat) (arg : List Nat) : Leaves (tplLateFoot p) s (tplLate s p arg) :=
  ((leaves_note s (pgTPL p) TPL_F_LATE TPL_C_TPL_LATE).mono (Foot.within_of_mem (by simp [tplLateFoot, alerts]) (by simp [tplLateFoot]))).andThen
    (leaves_post _ (pgTPL p) .tplLate arg)
    (Foot.within_of_mem (by simp [tplLateFoot, Foot.add, eventFoot]) (by simp [tplLateFoot, Foot.add, eventFoot]))

/-- The schedule taken as the pending one of the selected slot, and counted; a late one with its report. -/
def tplLoaded (s : State) (p : Nat) (g : TplCfg) : State :=
  let k := fld s (pgTPL p) TPL_TPL_SEL
  let taken := setTpl (bump s (pgTPL p) TPL_C_TPL_LOADS 1) p k { tpl s p k with pending := some g, rej := 0, beginFrame := g.begin_ }
  if frame s + 2 ≤ g.start then taken else tplLate taken p [k, g.begin_]

theorem off_tplLate (p : Nat) : Off (tplLateFoot p).spans (pgTPL p + TPL_TPL_SEL.off) ∧
    Off (tplLateFoot p).spans (cntAddr (pgTPL p) TPL_C_TPL_LOADS) := by
  have port := port_tpl p 0
  simp only [Off, tplLateFoot, wordSpan, pageSpan, pmcSpan, cntAddr, pgPMC, pgEVT, ANY_EVT_SEQ, TPL_F_LATE, TPL_C_TPL_LATE,
    TPL_C_TPL_LOADS, TPL_TPL_SEL, List.mem_cons, List.not_mem_nil, or_false, forall_eq_or_imp, forall_eq]
  omega

/-- What a load leaves: the schedule in its slot, the selection, and one more load counted. -/
theorem tplLoaded_leaves (s : State) (p : Nat) (g : TplCfg) :
    Only (.tpl :: alerts) s (tplLoaded s p g) ∧
    (tplLoaded s p g).pon.tpl = (setTpl s p (fld s (pgTPL p) TPL_TPL_SEL)
      { tpl s p (fld s (pgTPL p) TPL_TPL_SEL) with pending := some g, rej := 0, beginFrame := g.begin_ }).pon.tpl ∧
    fld (tplLoaded s p g) (pgTPL p) TPL_TPL_SEL = fld s (pgTPL p) TPL_TPL_SEL ∧
    cntAt (tplLoaded s p g) (cntAddr (pgTPL p) TPL_C_TPL_LOADS) = min cntMax (cntAt s (cntAddr (pgTPL p) TPL_C_TPL_LOADS) + 1) := by
  have counted := leaves_bump s (pgTPL p) TPL_C_TPL_LOADS 1
  have stored := leaves_setTpl (bump s (pgTPL p) TPL_C_TPL_LOADS 1) p (fld s (pgTPL p) TPL_TPL_SEL)
    { tpl s p (fld s (pgTPL p) TPL_TPL_SEL) with pending := some g, rej := 0, beginFrame := g.begin_ }
  have reported : Leaves (tplLateFoot p) _ (tplLoaded s p g) := Leaves.ite (fun _ => .refl _ _) (fun _ => leaves_tplLate _ p _)
  obtain ⟨hsel, hcnt⟩ := off_tplLate p
  refine ⟨(counted.onlyIn.trans stored.onlyIn).trans reported.onlyIn, ?_, ?_, ?_⟩
  · rw [reported.only .tpl (by simp [tplLateFoot, alerts])]
    exact congrArg (tset Tpl.init · _ _) (counted.only .tpl (by simp))
  · rw [reported.fld _ _ hsel, stored.fld _ _ (by simp)]
    rw [fld, reg_bump _ _ _ _ _ (pmcWord_port (port_tpl ..)), fld]
  · rw [reported.cnt _ hcnt, stored.cnt _ (by simp), cntAt_bump_same]

theorem tplLoad_taken (s : State) (o : Origin) (p : Fin 32) (x : Nat) (g : TplCfg)
    (h : addrReject s o (pgTPL p + TPL_TPL_CMD.off) = none)
    (hx : x = fld s (pgTPL p) TPL_START_LO + fld s (pgTPL p) TPL_START_HI * 2 ^ 32)
    (hg : g = ⟨fld s (pgTPL p) TPL_CH, max 1 (fld s (pgTPL p) TPL_CYCLE), fld s (pgTPL p) TPL_FIRST, fld s (pgTPL p) TPL_COUNT, x,
      beginFrame (frame s) x (max 1 (fld s (pgTPL p) TPL_CYCLE))⟩)
    (hcause : loadCause s p (fld s (pgTPL p) TPL_TPL_SEL) (Origin.slice o) g = 0) :
    Completes (.tplLoad o p) s (fun t =>
      tpl t p (fld s (pgTPL p) TPL_TPL_SEL) =
        { tpl s p (fld s (pgTPL p) TPL_TPL_SEL) with pending := some g, rej := 0, beginFrame := g.begin_ } ∧
      fld t (pgTPL p) TPL_STATE = 1 ∧
      fld t (pgTPL p) TPL_REJ_CAUSE = 0 ∧
      cntAt t (cntAddr (pgTPL p) TPL_C_TPL_LOADS) = min cntMax (cntAt s (cntAddr (pgTPL p) TPL_C_TPL_LOADS) + 1) ∧
      TblOnly Tpl.init (16 * p + (fld s (pgTPL p) TPL_TPL_SEL)) s.pon.tpl t.pon.tpl ∧
      Answered s t o 0 (pgTPL p + TPL_TPL_CMD.off) ∧
      Only (.tpl :: .fifo :: books) s t) := by
  obtain ⟨only, table, hsel, hcnt⟩ := tplLoaded_leaves s p g
  obtain ⟨hstate, hrej⟩ := showTpl_shows (tplLoaded s p g) p
  have slot : tpl (tplLoaded s p g) p (fld s (pgTPL p) TPL_TPL_SEL) =
      { tpl s p (fld s (pgTPL p) TPL_TPL_SEL) with pending := some g, rej := 0, beginFrame := g.begin_ } := by
    rw [tpl, table]
    exact tpl_setTpl_same ..
  rw [hsel, slot] at hstate hrej
  have shown := leaves_showTpl (tplLoaded s p g) p
  refine completes_tplCommand (code := 0) rfl h ?_ only table fun t htpl tables answered told => ⟨htpl, (told.port_fld _ _ (port_tpl ..)).trans hstate,
    (told.port_fld _ _ (port_tpl ..)).trans hrej, ?_, tables, answered, ?_⟩
  · subst hx
    dsimp only
    rw [← hg, if_neg (by simp [hcause])]
    subst hg
    rfl
  · rw [told.cnt _ (off_port recordFoot_low (by rw [cntAddr, Nat.add_assoc]; exact port_tpl ..)), shown.cnt _ (off_tplShown_cnt p _), hcnt]
  · exact only.into.trans (shown.onlyIn.trans told.only.into)

/-! ### TPL_LOAD that R133 rejects -/

/-- The cause kept in the selected slot, flagged and counted; cause 7 is the channel's guarantee. -/
def tplRefused (s : State) (p c cause : Nat) : State :=
  let k := fld s (pgTPL p) TPL_TPL_SEL
  let kept := setTpl (note s (pgTPL p) TPL_F_TPL_REJ TPL_C_TPL_REJ) p k { tpl s p k with rej := cause }
  if cause = 7 then note kept (pgALC p c) ALC_F_GUAR_REJ ALC_C_GUAR_REJ else kept

/-- What the note of a channel's guarantee touches. -/
def guarFoot (p c : Nat) : Foot :=
  ⟨[.regs, .cnt, .pmc], [pmcSpan, wordSpan (pgALC p c + ALC_F_GUAR_REJ.off), wordSpan (pgALC p c + ALC_F_GUAR_REJ.cntOff),
    wordSpan (cntAddr (pgALC p c) ALC_C_GUAR_REJ)]⟩

theorem off_guar (p c : Nat) : Off (guarFoot p c).spans (pgTPL p + TPL_F_TPL_REJ.off) ∧
    Off (guarFoot p c).spans (cntAddr (pgTPL p) TPL_C_TPL_REJ) := by
  have port := port_tpl p 0
  have apart : pgALC p c + 0x9000 = pgTPL p + c * 0x4000 := by rw [pgALC, pgTPL]; omega
  simp only [Off, guarFoot, wordSpan, pmcSpan, cntAddr, pgPMC, ALC_F_GUAR_REJ, ALC_C_GUAR_REJ, TPL_F_TPL_REJ, TPL_C_TPL_REJ,
    List.mem_cons, List.not_mem_nil, or_false, forall_eq_or_imp, forall_eq]
  omega

theorem tplRefused_leaves (s : State) (p c cause : Nat) :
    Only [.tpl, .regs, .cnt, .pmc] s (tplRefused s p c cause) ∧
    (tplRefused s p c cause).pon.tpl = (setTpl s p (fld s (pgTPL p) TPL_TPL_SEL)
      { tpl s p (fld s (pgTPL p) TPL_TPL_SEL) with rej := cause }).pon.tpl ∧
    flagSet (tplRefused s p c cause) (pgTPL p) TPL_F_TPL_REJ = true ∧
    cntAt (tplRefused s p c cause) (cntAddr (pgTPL p) TPL_C_TPL_REJ) = min cntMax (cntAt s (cntAddr (pgTPL p) TPL_C_TPL_REJ) + 1) := by
  have noted := leaves_note s (pgTPL p) TPL_F_TPL_REJ TPL_C_TPL_REJ
  have kept := leaves_setTpl (note s (pgTPL p) TPL_F_TPL_REJ TPL_C_TPL_REJ) p (fld s (pgTPL p) TPL_TPL_SEL)
    { tpl s p (fld s (pgTPL p) TPL_TPL_SEL) with rej := cause }
  have guar : Leaves (guarFoot p c) _ (tplRefused s p c cause) := Leaves.ite (fun _ => leaves_note _ _ _ _) (fun _ => .refl _ _)
  obtain ⟨hflag, hcnt⟩ := off_guar p c
  refine ⟨(noted.onlyIn.trans kept.onlyIn).trans guar.onlyIn, ?_, ?_, ?_⟩
  · rw [guar.only .tpl (by simp [guarFoot])]
    exact congrArg (tset Tpl.init · _ _) (noted.only .tpl (by simp))
  · rw [guar.flagSet _ _ hflag, kept.flagSet _ _ (by simp)]
    exact flagSet_note _ _ _ _ (by decide) (by decide) (pmcWord_port (port_tpl ..))
  · rw [guar.cnt _ hcnt, kept.cnt _ (by simp), cntAt_note_same]

theorem tplLoad_refused (s : State) (o : Origin) (p : Fin 32) (x : Nat) (g : TplCfg)
    (h : addrReject s o (pgTPL p + TPL_TPL_CMD.off) = none)
    (hx : x = fld s (pgTPL p) TPL_START_LO + fld s (pgTPL p) TPL_START_HI * 2 ^ 32)
    (hg : g = ⟨fld s (pgTPL p) TPL_CH, max 1 (fld s (pgTPL p) TPL_CYCLE), fld s (pgTPL p) TPL_FIRST, fld s (pgTPL p) TPL_COUNT, x,
      beginFrame (frame s) x (max 1 (fld s (pgTPL p) TPL_CYCLE))⟩)
    (hcause : loadCause s p (fld s (pgTPL p) TPL_TPL_SEL) (Origin.slice o) g ≠ 0) :
    Completes (.tplLoad o p) s (fun t =>
      tpl t p (fld s (pgTPL p) TPL_TPL_SEL) =
        { tpl s p (fld s (pgTPL p) TPL_TPL_SEL) with rej := loadCause s p (fld s (pgTPL p) TPL_TPL_SEL) (Origin.slice o) g } ∧
      flagSet t (pgTPL p) TPL_F_TPL_REJ = true ∧
      cntAt t (cntAddr (pgTPL p) TPL_C_TPL_REJ) = min cntMax (cntAt s (cntAddr (pgTPL p) TPL_C_TPL_REJ) + 1) ∧
      TblOnly Tpl.init (16 * p + (fld s (pgTPL p) TPL_TPL_SEL)) s.pon.tpl t.pon.tpl ∧
      Answered s t o 1 (pgTPL p + TPL_TPL_CMD.off) ∧
      Only (.tpl :: books) s t) := by
  obtain ⟨only, table, hflag, hcnt⟩ := tplRefused_leaves s p g.ch (loadCause s p (fld s (pgTPL p) TPL_TPL_SEL) (Origin.slice o) g)
  have shown := leaves_showTpl (tplRefused s p g.ch (loadCause s p (fld s (pgTPL p) TPL_TPL_SEL) (Origin.slice o) g)) p
  refine completes_tplCommand (code := 1) rfl h ?_ only table fun t htpl tables answered told => ⟨htpl, ?_, ?_, tables, answered, ?_⟩
  · subst hx
    dsimp only
    rw [← hg, if_pos hcause]
    subst hg
    rfl
  · rw [told.port_flagSet _ _ (port_tpl ..), shown.flagSet _ _ (off_tplShown p (by decide)), hflag]
  · rw [told.cnt _ (off_port recordFoot_low (by rw [cntAddr, Nat.add_assoc]; exact port_tpl ..)), shown.cnt _ (off_tplShown_cnt p _), hcnt]
  · exact only.into.trans (shown.onlyIn.trans told.only.into)

/-! ### TPL_STOP and TPL_BEGIN -/

theorem tplStop_stops (s : State) (o : Origin) (p : Fin 32) (h : addrReject s o (pgTPL p + TPL_TPL_CMD.off) = none) :
    Completes (.tplStop o p) s (fun t =>
      tpl t p (fld s (pgTPL p) TPL_TPL_SEL) = { tpl s p (fld s (pgTPL p) TPL_TPL_SEL) with
        stopAt := some ((tpl s p (fld s (pgTPL p) TPL_TPL_SEL)).stopFrom (frame s)),
        pending := (tpl s p (fld s (pgTPL p) TPL_TPL_SEL)).pending.filter (fun g => g.begin_ < frame s + 2) } ∧
      TblOnly Tpl.init (16 * p + (fld s (pgTPL p) TPL_TPL_SEL)) s.pon.tpl t.pon.tpl ∧
      Answered s t o 0 (pgTPL p + TPL_TPL_CMD.off) ∧
      RegsOnly bookPages [pgTPL p + TPL_STATE.off, pgTPL p + TPL_BEGIN_FRAME.off, pgTPL p + TPL_BEGIN_FRAME.off + 4] s t ∧
      Only (.tpl :: books) s t) := by
  have stored := fun r => leaves_setTpl s p (fld s (pgTPL p) TPL_TPL_SEL) r
  refine completes_tplCommand rfl h rfl (stored _).only rfl fun t htpl table answered told => ⟨htpl, table, answered, ?_, ?_⟩
  · exact (((stored _).mono (by simp [Foot.Within, Covers])).andThen (leaves_showTpl _ p) (Foot.within_of_mem (by simp) (by simp))
      : Leaves ⟨[.tpl, .regs], tplShownSpans p⟩ s _).regsOnly _ _ (by simp [tplShownSpans, wordSpan]) |>.recorded told
  · exact (stored _).onlyIn.trans ((leaves_showTpl _ p).onlyIn.trans told.only.into)

theorem tplBegin_stores (s : State) (p : Fin 32) (k : Fin 16) (r : Tpl)
    (hexec : exec (.tplBegin p k) s = .next (showTpl (setTpl s p k r) p)) :
    Completes (.tplBegin p k) s (fun t => tpl t p k = r ∧ TblOnly Tpl.init (16 * p + k) s.pon.tpl t.pon.tpl ∧ Only [.tpl, .regs] s t) := by
  have stored := leaves_setTpl s p k r
  have shown := leaves_showTpl (setTpl s p k r) p
  have table := shown.only .tpl (by simp)
  refine ⟨_, hexec, ?_, ?_, stored.onlyIn.trans shown.onlyIn⟩
  · rw [tpl, table]
    exact tpl_setTpl_same ..
  · rw [table]
    exact tblOnly_setTpl s p k r

theorem tplBegin_begins (s : State) (p : Fin 32) (k : Fin 16) (g : TplCfg) (hload : (tpl s p k).pending = some g)
    (hdue : g.begin_ ≤ frame s) (hstop : (tpl s p k).stopAt = none) :
    Completes (.tplBegin p k) s (fun t =>
      tpl t p k = { tpl s p k with active := some g, pending := none } ∧
      TblOnly Tpl.init (16 * p + k) s.pon.tpl t.pon.tpl ∧
      Only [.tpl, .regs] s t) := by
  refine tplBegin_stores s p k _ ?_
  show execTplBegin p k s = _
  simp only [execTplBegin, hload, hdue, hstop, Option.filter_none, if_true]

theorem tplBegin_ends (s : State) (p : Fin 32) (k : Fin 16) (x : Nat) (hload : (tpl s p k).pending = none)
    (hstop : (tpl s p k).stopAt = some x) (hdue : x ≤ frame s) :
    Completes (.tplBegin p k) s (fun t =>
      tpl t p k = { tpl s p k with active := none, stopAt := none } ∧
      TblOnly Tpl.init (16 * p + k) s.pon.tpl t.pon.tpl ∧
      Only [.tpl, .regs] s t) := by
  refine tplBegin_stores s p k _ ?_
  show execTplBegin p k s = _
  simp only [execTplBegin, hload, hdue, hstop, if_true]

/-! ### ENT_READ and ENT_WRITE -/

/-- An entry in the words of the window. -/
def entShown (s : State) (b : Nat) (e : TplEntry) : State :=
  setFld (setFld (setFld (setFld s b TPL_FRAME_OFS e.ofs) b TPL_AD_IDX e.ad) b TPL_START e.start) b TPL_SIZE e.size

theorem entShown_shows (s : State) (b : Nat) (e : TplEntry) :
    fld (entShown s b e) b TPL_FRAME_OFS = e.ofs % 2 ^ TPL_FRAME_OFS.width ∧
    fld (entShown s b e) b TPL_AD_IDX = e.ad % 2 ^ TPL_AD_IDX.width ∧
    fld (entShown s b e) b TPL_START = e.start % 2 ^ TPL_START.width ∧
    fld (entShown s b e) b TPL_SIZE = e.size % 2 ^ TPL_SIZE.width := by
  have apart (t : State) (f k : Fld) (v : Nat)
      (h : f.lsb + f.width ≤ 32 ∧ (k.off ≠ f.off ∨ k.lsb + k.width ≤ f.lsb ∨ f.lsb + f.width ≤ k.lsb)) :
      fld (setFld t b f v) b k = fld t b k := fld_setFld_apart t v (Fld.apart_of_page _ h)
  unfold entShown
  refine ⟨?_, ?_, ?_, fld_setFld_same _ _ _ _ (by decide)⟩
  · rw [apart _ _ _ _ (by decide), apart _ _ _ _ (by decide), apart _ _ _ _ (by decide), fld_setFld_same _ _ _ _ (by decide)]
  · rw [apart _ _ _ _ (by decide), apart _ _ _ _ (by decide), fld_setFld_same _ _ _ _ (by decide)]
  · rw [apart _ _ _ _ (by decide), fld_setFld_same _ _ _ _ (by decide)]

theorem leaves_entShown (s : State) (b : Nat) (e : TplEntry) :
    Leaves ⟨[.regs], [wordSpan (b + TPL_FRAME_OFS.off), wordSpan (b + TPL_START.off)]⟩ s (entShown s b e) := by
  have word (t : State) (f : Fld) (v : Nat) (hf : f.off = TPL_FRAME_OFS.off ∨ f.off = TPL_START.off) :
      Leaves ⟨[.regs], [wordSpan (b + TPL_FRAME_OFS.off), wordSpan (b + TPL_START.off)]⟩ t (setFld t b f v) :=
    (leaves_setFld t b f v).mono (Foot.within_of_mem (by simp) (by rcases hf with hf | hf <;> simp [hf]))
  exact (((word _ _ _ (.inl rfl)).trans (word _ TPL_AD_IDX _ (.inl rfl))).trans (word _ _ _ (.inr rfl))).trans (word _ TPL_SIZE _ (.inr rfl))

theorem entRead_shows (s : State) (o : Origin) (p : Fin 32) (h : addrReject s o (pgTPL p + TPL_ENT_CMD.off) = none) :
    Completes (.entRead o p) s (fun t =>
      fld t (pgTPL p) TPL_FRAME_OFS = (tplEntry s p (fld s (pgTPL p) TPL_ENT_IDX)).ofs % 2 ^ TPL_FRAME_OFS.width ∧
      fld t (pgTPL p) TPL_AD_IDX = (tplEntry s p (fld s (pgTPL p) TPL_ENT_IDX)).ad % 2 ^ TPL_AD_IDX.width ∧
      fld t (pgTPL p) TPL_START = (tplEntry s p (fld s (pgTPL p) TPL_ENT_IDX)).start % 2 ^ TPL_START.width ∧
      fld t (pgTPL p) TPL_SIZE = (tplEntry s p (fld s (pgTPL p) TPL_ENT_IDX)).size % 2 ^ TPL_SIZE.width ∧
      Answered s t o 0 (pgTPL p + TPL_ENT_CMD.off) ∧
      RegsOnly bookPages [pgTPL p + TPL_FRAME_OFS.off, pgTPL p + TPL_START.off] s t ∧
      Only books s t) := by
  have shown := leaves_entShown s (pgTPL p) (tplEntry s p (fld s (pgTPL p) TPL_ENT_IDX))
  obtain ⟨hofs, had, hstart, hsize⟩ := entShown_shows s (pgTPL p) (tplEntry s p (fld s (pgTPL p) TPL_ENT_IDX))
  refine completes_window (l := [.regs]) rfl h rfl shown.only fun t answered told => ?_
  exact ⟨(told.port_fld _ _ (port_tpl ..)).trans hofs, (told.port_fld _ _ (port_tpl ..)).trans had,
    (told.port_fld _ _ (port_tpl ..)).trans hstart, (told.port_fld _ _ (port_tpl ..)).trans hsize, answered,
    (shown.regsOnly _ _ (by simp [wordSpan])).recorded told, shown.onlyIn.trans told.only⟩

theorem entWrite_stores (s : State) (o : Origin) (p : Fin 32) (h : addrReject s o (pgTPL p + TPL_ENT_CMD.off) = none)
    (hbusy : entryBusy s p (fld s (pgTPL p) TPL_ENT_IDX) = false) :
    Completes (.entWrite o p) s (fun t =>
      tplEntry t p (fld s (pgTPL p) TPL_ENT_IDX) =
        ⟨fld s (pgTPL p) TPL_FRAME_OFS, fld s (pgTPL p) TPL_AD_IDX, fld s (pgTPL p) TPL_START, fld s (pgTPL p) TPL_SIZE⟩ ∧
      TblOnly TplEntry.init (1024 * p + (fld s (pgTPL p) TPL_ENT_IDX)) s.pon.ent t.pon.ent ∧
      Answered s t o 0 (pgTPL p + TPL_ENT_CMD.off) ∧
      RegsOnly bookPages [] s t ∧
      Only (.ent :: books) s t) := by
  have stored := fun n => leaves_setTplEntry s p (fld s (pgTPL p) TPL_ENT_IDX) n
  refine completes_window (u := setTplEntry s p _ _) (c := 0) rfl h (if_neg (by simp [hbusy])) (stored _).only fun t answered told => ?_
  have table := told.only .ent (by decide)
  refine ⟨?_, ?_, answered, ((stored _).regsOnly _ _ (by simp)).recorded told, (stored _).onlyIn.trans told.only.into⟩
  · rw [tplEntry, table]
    exact tplEntry_setTplEntry_same ..
  · rw [table]
    exact tblOnly_setTplEntry s p _ _

theorem entWrite_refused (s : State) (o : Origin) (p : Fin 32) (h : addrReject s o (pgTPL p + TPL_ENT_CMD.off) = none)
    (hbusy : entryBusy s p (fld s (pgTPL p) TPL_ENT_IDX) = true) :
    Completes (.entWrite o p) s (fun t =>
      flagSet t (pgTPL p) TPL_F_ENT_BUSY = true ∧
      Answered s t o 8 (pgTPL p + TPL_ENT_CMD.off) ∧
      Only books s t) := by
  refine completes_window (c := 8) rfl h (if_pos hbusy) (only_flag s _ _) fun t answered told => ⟨?_, answered, (only_flag s _ _).into.trans told.only⟩
  rw [told.port_flagSet _ _ (port_tpl ..)]
  exact flagSet_flag _ _ _ (by decide) (by decide) (pmcWord_port (port_tpl ..))

/-- Settles O23: loads by whether R133 rejects them, a stop and a begin by the slot that they store, and the entries by their window. -/
theorem templates : Obligations.Templates := by
  unfold Obligations.Templates
  exact ⟨tplLoad_taken, tplLoad_refused, tplStop_stops, tplBegin_begins, tplBegin_ends, entRead_shows, entWrite_stores, entWrite_refused⟩

end Sys2Proof.Machine
end

section
/-! PROOF. O22: Alloc-ID descriptors by their window (R120, R121, R125, R136). -/

namespace Sys2Proof.Machine

/-! ### The status of the window -/

theorem leaves_adStat (s : State) (p c : Nat) (own ch rej : Bool) :
    Leaves ⟨[.regs], [wordSpan (pgALC p c + ALC_REJECT.off)]⟩ s (adStat s p c own ch rej) :=
  ((leaves_setBit s (pgALC p c) ALC_OWN_ERR own).trans (leaves_setBit _ (pgALC p c) ALC_CH_ERR ch)).trans
    (leaves_setBit _ (pgALC p c) ALC_REJECT rej)

theorem isSet_reject_adStat (s : State) (p c : Nat) (own ch rej : Bool) :
    isSet (adStat s p c own ch rej) (pgALC p c) ALC_REJECT = rej := isSet_setBit_same _ _ _ _ (by decide) rfl

@[simp] theorem adStat_frame (s : State) (p c : Nat) (own ch rej : Bool) :
    (adStat s p c own ch rej).pon = s.pon ∧ (adStat s p c own ch rej).grid = s.grid ∧ (adStat s p c own ch rej).own = s.own := by
  simp [adStat]

theorem ad_adStat (s : State) (p c : Nat) (own ch rej : Bool) (i : Nat) : ad (adStat s p c own ch rej) p i = ad s p i := by simp [ad]

theorem allocCh_adStat (s : State) (p c : Nat) (own ch rej : Bool) : allocCh (adStat s p c own ch rej) p c = allocCh s p c := by simp [allocCh]

theorem onu_adStat (s : State) (p c : Nat) (own ch rej : Bool) (i : Nat) : onu (adStat s p c own ch rej) p i = onu s p i := by simp [onu]

/-- One word of an allocation page, and everything else of the page beside it. -/
theorem off_alcWord (p c : Nat) {f g : Fld} (h : g.off ≠ f.off) : Off [wordSpan (pgALC p c + f.off)] (pgALC p c + g.off) := by
  simp only [Off, List.mem_singleton, forall_eq, wordSpan]
  omega

/-- What a command of the window answers, `ok` its ownership check (R120, R136). -/
def adAnswer (p c : Nat) (ok : Nat → AdRec → State → Bool) (body : Nat → State → State × Nat) (s : State) : State × Nat :=
  let b := pgALC p c
  let i := fld s b ALC_AD_IDX
  let zero := fun t => setWords t (b + ALC_ALLOC_ID.off) (List.replicate 9 0)
  if !ok i (ad s p i) s then (zero (adStat s p c true false false), 2)
  else if adElsewhere s p c (ad s p i) then (zero (adStat s p c false true false), 1)
  else body i (adStat s p c false false false)

theorem adCommand_eq (o : Origin) (p c : Nat) (ok : Nat → AdRec → State → Bool) (body : Nat → State → State × Nat) (s : State) :
    adCommand o p c ok body s = command o (pgALC p c + ALC_AD_CMD.off) (pgALC p c + ALC_AD_IDX.off) (adAnswer p c ok body) s := rfl

/-- A command of the window for a descriptor of the channel that the slice may use, told by what its body answers after the status bits
read 0. -/
theorem completes_adCommand {l : List Part} {i : Instr} {o : Origin} {p : Fin 32} {c : Fin 3} {code : Nat} {s u : State}
    {ok : Nat → AdRec → State → Bool} {body : Nat → State → State × Nat} {P : State → Prop}
    (hexec : exec i s = .next (adCommand o p c ok body s)) (h : addrReject s o (pgALC p c + ALC_AD_CMD.off) = none)
    (hok : ok (fld s (pgALC p c) ALC_AD_IDX) (ad s p (fld s (pgALC p c) ALC_AD_IDX)) s = true)
    (hhere : adElsewhere s p c (ad s p (fld s (pgALC p c) ALC_AD_IDX)) = false)
    (hbody : body (fld s (pgALC p c) ALC_AD_IDX) (adStat s p c false false false) = (u, code)) (hb : Only l s u)
    (hP : ∀ t, Answered s t o code (pgALC p c + ALC_AD_CMD.off) → Leaves recordFoot u t → P t)
    (hj : Part.jrn ∉ l := by decide) (hg : Part.grid ∉ l := by decide) : Completes i s P :=
  completes_window (adCommand_eq .. ▸ hexec) h ((if_neg (by simp [hok])).trans ((if_neg (by simp [hhere])).trans hbody)) hb hP hj hg

/-! ### AD_READ -/

/-- A descriptor in the data words. -/
def adShown (s : State) (p c i : Nat) : State := setWords s (pgALC p c + ALC_ALLOC_ID.off) (ad s p i).words

theorem adRead_shows (s : State) (o : Origin) (p : Fin 32) (c : Fin 3) (d : AdRec) (h : addrReject s o (pgALC p c + ALC_AD_CMD.off) = none)
    (hd : d = ad s p (fld s (pgALC p c) ALC_AD_IDX)) (hread : adReadable s p (Origin.slice o) d = true)
    (hhere : adElsewhere s p c d = false) :
    Completes (.adRead o p c) s (fun t =>
      wordsAt t (pgALC p c + ALC_ALLOC_ID.off) 9 = d.words ∧
      Answered s t o 0 (pgALC p c + ALC_AD_CMD.off) ∧
      Only books s t) := by
  subst hd
  have only : Only [.regs] s (adShown (adStat s p c false false false) p c (fld s (pgALC p c) ALC_AD_IDX)) :=
    (leaves_adStat s p c false false false).only.trans (only_setWords _ _ _)
  refine completes_adCommand (u := adShown _ p c _) (code := 0) rfl h hread hhere rfl only fun t answered told => ⟨?_, answered, only.into.trans told.only⟩
  rw [wordsAt_eq _ _ _ _ fun b hb _ => told.port_reg ((port_alc p c _).trans hb), adShown, ad_adStat]
  exact wordsAt_setWords _ _ (ad s p _).words

/-! ### What the status leaves of the guaranteed limit (R121) -/

/-- The first two words of a profile, which size a grant, lie apart from those words of an allocation page that are not the first two of
sixteen. -/
theorem profBase_ne_alc (p c j : Nat) {off : Nat} (h : 8 ≤ off % 0x40) :
    profBase p c j ≠ pgALC p c + off ∧ profBase p c j + 4 ≠ pgALC p c + off := by
  simp only [profBase, pgBRX, pgALC]
  omega

theorem pw_profWords_of_leaves {l : List Part} {s t : State} {p c off : Nat} (h : Leaves ⟨l, [wordSpan (pgALC p c + off)]⟩ s t)
    (hoff : 8 ≤ off % 0x40) (j : Nat) :
    pw (profWords t p c j) 0 = pw (profWords s p c j) 0 ∧ pw (profWords t p c j) 1 = pw (profWords s p c j) 1 := by
  obtain ⟨first, second⟩ := profBase_ne_alc p c j hoff
  constructor
  · refine h.reg (profBase p c j) ?_
    simp only [Off, List.mem_singleton, forall_eq, wordSpan]
    omega
  · refine h.reg (profBase p c j + 4) ?_
    simp only [Off, List.mem_singleton, forall_eq, wordSpan]
    omega

theorem ppuOf_congr {l m : List Word} (h : pw l 0 = pw m 0) : ppuOf l = ppuOf m := by
  have rate : profRate l = profRate m := congrArg (bitsOf · 0 3) h
  have fec : profFec l = profFec m := congrArg (bitsOf · 3 1 == 1) h
  have valid : profValid l = profValid m := congrArg (bitsOf · 5 1 == 1) h
  rw [ppuOf, ppuOf, rate, fec, valid]

section Status
variable (s : State) (p c : Nat) (own ch rej : Bool)

theorem pw_adStat (j : Nat) : pw (profWords (adStat s p c own ch rej) p c j) 0 = pw (profWords s p c j) 0 ∧
    pw (profWords (adStat s p c own ch rej) p c j) 1 = pw (profWords s p c j) 1 :=
  pw_profWords_of_leaves (leaves_adStat s p c own ch rej) (by decide) j

theorem guardMin_adStat (sw : Bool) : guardMin (adStat s p c own ch rej) p c sw = guardMin s p c sw := by
  have brx (f : Fld) (hf : f.off < 0x1000) : fld (adStat s p c own ch rej) (pgBRX p c) f = fld s (pgBRX p c) f := by
    refine (leaves_adStat s p c own ch rej).fld _ _ ?_
    simp only [Off, List.mem_singleton, forall_eq, wordSpan, pgBRX, pgALC]
    omega
  simp only [guardMin, brx BRX_TAIL_GT (by decide), brx BRX_BRST_WIDTH (by decide), brx BRX_SETTLE_GT (by decide), brx BRX_RATE_SW_GT (by decide)]

theorem overheadOf_adStat (j : Nat) (sw : Bool) (dow : Nat) :
    overheadOf (adStat s p c own ch rej) p c (profWords (adStat s p c own ch rej) p c j) sw dow =
      overheadOf s p c (profWords s p c j) sw dow := by
  obtain ⟨first, second⟩ := pw_adStat s p c own ch rej j
  simp only [overheadOf, guardMin_adStat, profRate, profPre, profDelimLen, first, second]

theorem fld_adStat {f : Fld} (hf : f.off ≠ ALC_REJECT.off) : fld (adStat s p c own ch rej) (pgALC p c) f = fld s (pgALC p c) f :=
  (leaves_adStat s p c own ch rej).fld _ _ (off_alcWord p c hf)

theorem guarSum_adStat (ads : List (Nat × AdRec)) (n : Nat) :
    guarSum (adStat s p c own ch rej) p c ads n = guarSum s p c ads n := by
  have profile (i : Nat) : coldProfile (adStat s p c own ch rej) p c i = coldProfile s p c i := by simp [coldProfile, ob]
  have records : channelOnus (adStat s p c own ch rej) p c = channelOnus s p c := by simp [channelOnus, portOnus]
  have ppu (j : Nat) := ppuOf_congr (pw_adStat s p c own ch rej j).1
  simp only [guarSum, profile, records, ppu, overheadOf_adStat, fld_adStat _ _ _ _ _ _ (f := ALC_KA_UNITS) (by decide)]

theorem guarBad_adStat (sum : Option Nat) : guarBad (adStat s p c own ch rej) p c sum = guarBad s p c sum := by
  simp only [guarBad, fld_adStat _ _ _ _ _ _ (f := ALC_GUAR_PCT) (by decide)]

theorem adOfWindow_adStat (d : AdRec) : adOfWindow (adStat s p c own ch rej) p c d = adOfWindow s p c d := by
  have window (f : Fld) (hf : f.off ≠ ALC_REJECT.off) := fld_adStat s p c own ch rej hf
  simp only [adOfWindow, window ALC_ALLOC_ID (by decide), window ALC_ONU_IDX (by decide), window ALC_VALID (by decide),
    window ALC_TIER (by decide), window ALC_FIXED (by decide), window ALC_ASSURED (by decide), window ALC_MAX (by decide),
    window ALC_WEIGHT (by decide), window ALC_BP_Q (by decide)]

theorem channelAds_adStat : channelAds (adStat s p c own ch rej) p c = channelAds s p c := by simp [channelAds, onu]

theorem adElsewhere_adStat (d : AdRec) : adElsewhere (adStat s p c own ch rej) p c d = adElsewhere s p c d := by
  simp only [adElsewhere, onu_adStat]

theorem adRejected_adStat (i : Nat) (n : AdRec) : adRejected (adStat s p c own ch rej) p c i n = adRejected s p c i n := by
  simp only [adRejected, onu_adStat, channelAds_adStat]

theorem busiestFrame_adStat (k : Nat) (weight : TplEntry → Nat) (g : Option TplCfg) :
    busiestFrame (adStat s p c own ch rej) p c k weight g = busiestFrame s p c k weight g := by
  simp only [busiestFrame, slotRuns, cfgRuns, cfgEntries, tplEntry, tpl, frame, adStat_frame]

theorem guarantee_adStat (i : Nat) (n : AdRec) :
    guarBad (adStat s p c own ch rej) p c (guarSum (adStat s p c own ch rej) p c (adsWith (adStat s p c own ch rej) p c i n)
      (busiestFrame (adStat s p c own ch rej) p c 16 (·.size) none)) =
    guarBad s p c (guarSum s p c (adsWith s p c i n) (busiestFrame s p c 16 (·.size) none)) := by
  rw [guarBad_adStat, guarSum_adStat, busiestFrame_adStat, adsWith, channelAds_adStat, adsWith]

end Status

/-! ### AD_WRITE -/

/-- What AD_WRITE of a descriptor of the channel needs of its slice (R120). -/
structure AdWritable (s : State) (o : Origin) (p : Fin 32) (c : Fin 3) (d n : AdRec) : Prop where
  reject : addrReject s o (pgALC p c + ALC_AD_CMD.off) = none
  here : d = ad s p (fld s (pgALC p c) ALC_AD_IDX)
  window : n = adOfWindow s p c d
  old : (!d.valid || mayUse (Origin.slice o) (onuOwner s p d.onu)) = true
  new : mayUse (Origin.slice o) (onuOwner s p n.onu) = true
  oldHere : adElsewhere s p c d = false
  newHere : adElsewhere s p c n = false

/-- What AD_WRITE answers for the descriptor that the window spells. -/
def adWritten (s : State) (p c i : Nat) (n : AdRec) : State × Nat :=
  if n.valid && adRejected s p c i n then (adStat s p c false false true, 1)
  else if n.valid && guarBad s p c (guarSum s p c (adsWith s p c i n) (busiestFrame s p c 16 (·.size) none)) then
    (note (adStat s p c false false true) (pgALC p c) ALC_F_GUAR_REJ ALC_C_GUAR_REJ, 1)
  else (setAd (if n.valid && newAlloc (ad s p i) n then dropReports s p c n.allocId else s) p i n, 0)

theorem completes_adWrite {l : List Part} {s u : State} {o : Origin} {p : Fin 32} {c : Fin 3} {d n : AdRec} {code : Nat} {P : State → Prop}
    (h : AdWritable s o p c d n)
    (hwritten : adWritten (adStat s p c false false false) p c (fld s (pgALC p c) ALC_AD_IDX) n = (u, code)) (hb : Only l s u)
    (hP : ∀ t, Answered s t o code (pgALC p c + ALC_AD_CMD.off) → Leaves recordFoot u t → P t)
    (hj : Part.jrn ∉ l := by decide) (hg : Part.grid ∉ l := by decide) : Completes (.adWrite o p c) s P := by
  obtain ⟨hrej, rfl, hwin, hold, hnew, holdHere, hnewHere⟩ := h
  refine completes_adCommand rfl hrej ?_ holdHere ?_ hb hP hj hg
  · rw [Bool.and_eq_true, ← hwin]
    exact ⟨hold, hnew⟩
  · have spelt : adOfWindow (adStat s p c false false false) p c (ad (adStat s p c false false false) p (fld s (pgALC p c) ALC_AD_IDX)) = n :=
      by rw [ad_adStat, adOfWindow_adStat, hwin]
    dsimp only
    rw [spelt, adElsewhere_adStat, if_neg (Bool.eq_false_iff.mp hnewHere)]
    exact hwritten

/-- A descriptor taken, with the reports dropped of an Alloc-ID that becomes valid anew (R125). -/
def adStored (s : State) (p c i : Nat) (n : AdRec) : State :=
  setAd (if n.valid && newAlloc (ad s p i) n then dropReports s p c n.allocId else s) p i n

theorem adStored_leaves (s : State) (p c i : Nat) (n : AdRec) :
    Leaves ⟨[.alloc, .ad], []⟩ s (adStored s p c i n) ∧
    ad (adStored s p c i n) p i = n ∧ TblOnly AdRec.init (2048 * p + i) s.pon.ad (adStored s p c i n).pon.ad ∧
    allocCh (adStored s p c i n) p c = (if n.valid && newAlloc (ad s p i) n then
      { allocCh s p c with reports := (allocCh s p c).reports.filter (·.allocId != n.allocId) } else allocCh s p c) ∧
    TblOnly AllocCh.init (3 * p + c) s.pon.alloc (adStored s p c i n).pon.alloc := by
  unfold adStored
  split
  · have dropped := leaves_setAllocCh s p c { allocCh s p c with reports := (allocCh s p c).reports.filter (·.allocId != n.allocId) }
    exact ⟨(dropped.mono (by simp [Foot.Within, Covers])).andThen (leaves_setAd _ p i n) (by simp [Foot.Within, Covers]), ad_setAd_same ..,
      tblOnly_setAd (dropReports s p c n.allocId) p i n, allocCh_setAllocCh_same .., tblOnly_setAllocCh s p c _⟩
  · exact ⟨(leaves_setAd s p i n).mono (by simp [Foot.Within, Covers]), ad_setAd_same .., tblOnly_setAd s p i n, rfl, .of_eq rfl⟩

theorem adWrite_stores (s : State) (o : Origin) (p : Fin 32) (c : Fin 3) (d n : AdRec)
    (h : addrReject s o (pgALC p c + ALC_AD_CMD.off) = none) (hd : d = ad s p (fld s (pgALC p c) ALC_AD_IDX)) (hn : n = adOfWindow s p c d)
    (hold : (!d.valid || mayUse (Origin.slice o) (onuOwner s p d.onu)) = true)
    (hnew : mayUse (Origin.slice o) (onuOwner s p n.onu) = true) (hoh : adElsewhere s p c d = false) (hnh : adElsewhere s p c n = false)
    (hrej : n.valid = true → adRejected s p c (fld s (pgALC p c) ALC_AD_IDX) n = false)
    (hguar : n.valid = true → guarBad s p c (guarSum s p c (adsWith s p c (fld s (pgALC p c) ALC_AD_IDX) n)
      (busiestFrame s p c 16 (·.size) none)) = false) :
    Completes (.adWrite o p c) s (fun t =>
      ad t p (fld s (pgALC p c) ALC_AD_IDX) = n ∧
      allocCh t p c = (if n.valid && newAlloc d n then
        { allocCh s p c with reports := (allocCh s p c).reports.filter (·.allocId != n.allocId) } else allocCh s p c) ∧
      TblOnly AdRec.init (2048 * p + (fld s (pgALC p c) ALC_AD_IDX)) s.pon.ad t.pon.ad ∧
      TblOnly AllocCh.init (3 * p + c) s.pon.alloc t.pon.alloc ∧
      Answered s t o 0 (pgALC p c + ALC_AD_CMD.off) ∧
      RegsOnly bookPages [pgALC p c + ALC_REJECT.off] s t ∧
      Only (.ad :: .alloc :: books) s t) := by
  have stat := leaves_adStat s p c false false false
  obtain ⟨stored, entry, entries, channel, channels⟩ := adStored_leaves (adStat s p c false false false) p c (fld s (pgALC p c) ALC_AD_IDX) n
  have leaves : Leaves ⟨[.regs, .alloc, .ad], [wordSpan (pgALC p c + ALC_REJECT.off)]⟩ s
      (adStored (adStat s p c false false false) p c (fld s (pgALC p c) ALC_AD_IDX) n) :=
    (stat.mono (by simp [Foot.Within, Covers])).andThen stored (by simp [Foot.Within, Covers])
  refine completes_adWrite (l := [.regs, .alloc, .ad]) (code := 0) ⟨h, hd, hn, hold, hnew, hoh, hnh⟩ ?_ leaves.only fun t answered told => ?_
  · rw [adWritten, adRejected_adStat, guarantee_adStat, if_neg (by simpa using hrej), if_neg (by simpa using hguar)]
    rfl
  · have ads := told.only .ad (by decide)
    have allocs := told.only .alloc (by decide)
    refine ⟨?_, ?_, ?_, ?_, answered, (leaves.regsOnly _ _ (by simp [wordSpan])).recorded told, leaves.onlyIn.trans told.only.into⟩
    · rw [ad, ads]
      exact entry
    · rw [allocCh_adStat, ad_adStat, ← hd] at channel
      rw [allocCh, allocs]
      exact channel
    · rw [ads, ← stat.only .ad (by simp)]
      exact entries
    · rw [allocs, ← stat.only .alloc (by simp)]
      exact channels

theorem adWrite_refused (s : State) (o : Origin) (p : Fin 32) (c : Fin 3) (d n : AdRec)
    (h : addrReject s o (pgALC p c + ALC_AD_CMD.off) = none) (hd : d = ad s p (fld s (pgALC p c) ALC_AD_IDX)) (hn : n = adOfWindow s p c d)
    (hold : (!d.valid || mayUse (Origin.slice o) (onuOwner s p d.onu)) = true)
    (hnew : mayUse (Origin.slice o) (onuOwner s p n.onu) = true) (hoh : adElsewhere s p c d = false) (hnh : adElsewhere s p c n = false)
    (hvalid : n.valid = true) (hrej : adRejected s p c (fld s (pgALC p c) ALC_AD_IDX) n = true) :
    Completes (.adWrite o p c) s (fun t =>
      isSet t (pgALC p c) ALC_REJECT = true ∧
      Answered s t o 1 (pgALC p c + ALC_AD_CMD.off) ∧
      RegsOnly bookPages [pgALC p c + ALC_REJECT.off] s t ∧
      Only books s t) := by
  have stat := (leaves_adStat s p c false false false).trans (leaves_adStat _ p c false false true)
  refine completes_adWrite (l := [.regs]) (u := adStat (adStat s p c false false false) p c false false true) (code := 1)
    ⟨h, hd, hn, hold, hnew, hoh, hnh⟩ ?_ stat.only fun t answered told => ?_
  · rw [adWritten, adRejected_adStat, if_pos (by simp [hvalid, hrej])]
  · exact ⟨(told.port_isSet _ _ (port_alc ..)).trans (isSet_reject_adStat ..), answered,
      (stat.regsOnly _ _ (by simp [wordSpan])).recorded told, stat.onlyIn.trans told.only⟩

/-! ### AD_CLEAR_GRANTED -/

theorem adClearGranted_clears (s : State) (o : Origin) (p : Fin 32) (c : Fin 3) (d : AdRec)
    (h : addrReject s o (pgALC p c + ALC_AD_CMD.off) = none) (hd : d = ad s p (fld s (pgALC p c) ALC_AD_IDX))
    (hmine : mayUse (Origin.slice o) (if d.valid then onuOwner s p d.onu else portOwner s p) = true) (hhere : adElsewhere s p c d = false) :
    Completes (.adClearGranted o p c) s (fun t =>
      ad t p (fld s (pgALC p c) ALC_AD_IDX) = { d with granted := 0 } ∧
      TblOnly AdRec.init (2048 * p + (fld s (pgALC p c) ALC_AD_IDX)) s.pon.ad t.pon.ad ∧
      Answered s t o 0 (pgALC p c + ALC_AD_CMD.off) ∧
      Only (.ad :: books) s t) := by
  subst hd
  have stat := leaves_adStat s p c false false false
  have stored := fun r => leaves_setAd (adStat s p c false false false) p (fld s (pgALC p c) ALC_AD_IDX) r
  have only : ∀ r, Only [.regs, .ad] s (setAd (adStat s p c false false false) p (fld s (pgALC p c) ALC_AD_IDX) r) :=
    fun r => stat.onlyIn.trans (stored r).onlyIn
  refine completes_adCommand (u := setAd _ p _ { ad s p _ with granted := 0 }) (code := 0) rfl h hmine hhere (by rw [ad_adStat]) (only _)
    fun t answered told => ?_
  have table := told.only .ad (by decide)
  refine ⟨?_, ?_, answered, (only _).into.trans told.only.into⟩
  · rw [ad, table]
    exact ad_setAd_same ..
  · rw [table, ← stat.only .ad (by simp)]
    exact tblOnly_setAd (adStat s p c false false false) p _ _

end Sys2Proof.Machine
end

section
/-! PROOF. O22: the burst settings of ONUs by their window, and its assembly (R89, R136). -/

namespace Sys2Proof.Machine

/-! ### A command of the window -/

/-- STAT 0 of the window. -/
def obClean (s : State) (p c : Nat) : State := setFld s (pgALC p c) ALC_STAT 0

theorem leaves_obClean (s : State) (p c : Nat) : Leaves ⟨[.regs], [wordSpan (pgALC p c + ALC_STAT.off)]⟩ s (obClean s p c) := leaves_setFld ..

@[simp] theorem obClean_pon (s : State) (p c : Nat) : (obClean s p c).pon = s.pon := by simp [obClean]

theorem ob_obClean (s : State) (p c i : Nat) : ob (obClean s p c) p i = ob s p i := by simp [ob]

/-- What a command of the window answers (R136). -/
def obAnswer (o : Origin) (p c : Nat) (body : Nat → State → State × Nat) (s : State) : State × Nat :=
  let b := pgALC p c
  let i := fld s b ALC_OB_IDX
  let fail := fun (t : State) n => setReg (setFld t b ALC_STAT n) (b + ALC_COLD_PROF.off) 0
  if !mayUse (Origin.slice o) (onuOwner s p i) then (fail s 2, 2)
  else if (onu s p i).valid && (onu s p i).ch != c then (fail s 4, 1)
  else body i (obClean s p c)

theorem obCommand_eq (o : Origin) (p c : Nat) (body : Nat → State → State × Nat) (s : State) :
    obCommand o p c body s = command o (pgALC p c + ALC_OB_CMD.off) (pgALC p c + ALC_OB_IDX.off) (obAnswer o p c body) s := rfl

/-- The record that a command of the window selects is the slice's, and not VALID on another channel. -/
structure ObMine (s : State) (o : Origin) (p : Fin 32) (c : Fin 3) : Prop where
  reject : addrReject s o (pgALC p c + ALC_OB_CMD.off) = none
  mine : mayUse (Origin.slice o) (onuOwner s p (fld s (pgALC p c) ALC_OB_IDX)) = true
  here : (onu s p (fld s (pgALC p c) ALC_OB_IDX)).valid = false ∨ (onu s p (fld s (pgALC p c) ALC_OB_IDX)).ch = c.val

theorem completes_obCommand {l : List Part} {i : Instr} {o : Origin} {p : Fin 32} {c : Fin 3} {code : Nat} {s u : State}
    {body : Nat → State → State × Nat} {P : State → Prop} (hexec : exec i s = .next (obCommand o p c body s)) (h : ObMine s o p c)
    (hbody : body (fld s (pgALC p c) ALC_OB_IDX) (obClean s p c) = (u, code)) (hb : Only l s u)
    (hP : ∀ t, Answered s t o code (pgALC p c + ALC_OB_CMD.off) → Leaves recordFoot u t → P t)
    (hj : Part.jrn ∉ l := by decide) (hg : Part.grid ∉ l := by decide) : Completes i s P := by
  have here : ((onu s p (fld s (pgALC p c) ALC_OB_IDX)).valid && (onu s p (fld s (pgALC p c) ALC_OB_IDX)).ch != c.val) = false := by
    rcases h.here with hv | hc
    · simp [hv]
    · simp [hc]
  exact completes_window (obCommand_eq .. ▸ hexec) h.reject ((if_neg (by simp [h.mine])).trans ((if_neg (Bool.eq_false_iff.mp here)).trans hbody))
    hb hP hj hg

/-! ### OB_READ -/

/-- Burst settings in the data word. -/
def obShown (s : State) (b : Nat) (r : ObRec) : State :=
  setFld (setBit (setFld (setFld s b ALC_COLD_PROF r.cold) b ALC_WARM_PROF r.warm) b ALC_WARM_EN r.warmEn) b ALC_US_KIND r.usKind

theorem obShown_shows (s : State) (b : Nat) (r : ObRec) :
    fld (obShown s b r) b ALC_COLD_PROF = r.cold % 4 ∧ fld (obShown s b r) b ALC_WARM_PROF = r.warm % 4 ∧
    isSet (obShown s b r) b ALC_WARM_EN = r.warmEn ∧ fld (obShown s b r) b ALC_US_KIND = r.usKind % 2 := by
  have apart (t : State) (f k : Fld) (v : Nat)
      (h : f.lsb + f.width ≤ 32 ∧ (k.off ≠ f.off ∨ k.lsb + k.width ≤ f.lsb ∨ f.lsb + f.width ≤ k.lsb)) :
      fld (setFld t b f v) b k = fld t b k := fld_setFld_apart t v (Fld.apart_of_page _ h)
  unfold obShown
  refine ⟨?_, ?_, ?_, fld_setFld_same _ _ _ _ (by decide)⟩
  · rw [apart _ _ _ _ (by decide), setBit, apart _ _ _ _ (by decide), apart _ _ _ _ (by decide)]
    exact fld_setFld_same _ _ _ _ (by decide)
  · rw [apart _ _ _ _ (by decide), setBit, apart _ _ _ _ (by decide)]
    exact fld_setFld_same _ _ _ _ (by decide)
  · rw [isSet, apart _ _ _ _ (by decide)]
    exact isSet_setBit_same _ _ _ _ (by decide) (by decide)

theorem leaves_obShown (s : State) (b : Nat) (r : ObRec) : Leaves ⟨[.regs], [wordSpan (b + ALC_COLD_PROF.off)]⟩ s (obShown s b r) :=
  (((leaves_setFld s b ALC_COLD_PROF _).trans (leaves_setFld _ b ALC_WARM_PROF _)).trans (leaves_setBit _ b ALC_WARM_EN _)).trans
    (leaves_setFld _ b ALC_US_KIND _)

theorem obRead_shows (s : State) (o : Origin) (p : Fin 32) (c : Fin 3) (h : addrReject s o (pgALC p c + ALC_OB_CMD.off) = none)
    (hmine : mayUse (Origin.slice o) (onuOwner s p (fld s (pgALC p c) ALC_OB_IDX)) = true)
    (hhere : (onu s p (fld s (pgALC p c) ALC_OB_IDX)).valid = false ∨ (onu s p (fld s (pgALC p c) ALC_OB_IDX)).ch = c.val) :
    Completes (.obRead o p c) s (fun t =>
      fld t (pgALC p c) ALC_COLD_PROF = (ob s p (fld s (pgALC p c) ALC_OB_IDX)).cold % 4 ∧
      fld t (pgALC p c) ALC_WARM_PROF = (ob s p (fld s (pgALC p c) ALC_OB_IDX)).warm % 4 ∧
      isSet t (pgALC p c) ALC_WARM_EN = (ob s p (fld s (pgALC p c) ALC_OB_IDX)).warmEn ∧
      fld t (pgALC p c) ALC_US_KIND = (ob s p (fld s (pgALC p c) ALC_OB_IDX)).usKind % 2 ∧
      Answered s t o 0 (pgALC p c + ALC_OB_CMD.off) ∧
      RegsOnly bookPages [pgALC p c + ALC_STAT.off, pgALC p c + ALC_COLD_PROF.off] s t ∧
      Only books s t) := by
  have shown := leaves_obShown (obClean s p c) (pgALC p c) (ob s p (fld s (pgALC p c) ALC_OB_IDX))
  have leaves : Leaves ⟨[.regs], [wordSpan (pgALC p c + ALC_STAT.off), wordSpan (pgALC p c + ALC_COLD_PROF.off)]⟩ s
      (obShown (obClean s p c) (pgALC p c) (ob s p (fld s (pgALC p c) ALC_OB_IDX))) :=
    ((leaves_obClean s p c).mono (by simp [Foot.Within, Covers])).andThen shown (by simp [Foot.Within, Covers])
  obtain ⟨hcold, hwarm, hen, hkind⟩ := obShown_shows (obClean s p c) (pgALC p c) (ob s p (fld s (pgALC p c) ALC_OB_IDX))
  refine completes_obCommand (l := [.regs]) (u := obShown (obClean s p c) (pgALC p c) (ob s p _)) (code := 0) rfl ⟨h, hmine, hhere⟩
    (by rw [ob_obClean]; rfl) leaves.only fun t answered told => ?_
  exact ⟨(told.port_fld _ _ (port_alc ..)).trans hcold, (told.port_fld _ _ (port_alc ..)).trans hwarm,
    (told.port_isSet _ _ (port_alc ..)).trans hen, (told.port_fld _ _ (port_alc ..)).trans hkind, answered,
    (leaves.regsOnly _ _ (by simp [wordSpan])).recorded told, leaves.onlyIn.trans told.only⟩

/-! ### OB_WRITE -/

/-- The burst settings that the window spells; US_KIND is the X channel's. -/
def obOfWindow (s : State) (p c : Nat) : ObRec :=
  ⟨fld s (pgALC p c) ALC_COLD_PROF, fld s (pgALC p c) ALC_WARM_PROF, isSet s (pgALC p c) ALC_WARM_EN,
    if c = 1 then fld s (pgALC p c) ALC_US_KIND else 0⟩

theorem obOfWindow_obClean (s : State) (p c : Nat) : obOfWindow (obClean s p c) p c = obOfWindow s p c := by
  have clean := leaves_obClean s p c
  rw [obOfWindow, clean.fld _ _ (off_alcWord p c (by decide)), clean.fld _ _ (off_alcWord p c (by decide)),
    clean.isSet _ _ (off_alcWord p c (by decide)), clean.fld _ _ (off_alcWord p c (by decide)), obOfWindow]

/-- Does R89 refuse the cold profile of burst settings? -/
def coldRefused (s : State) (p c i : Nat) (n : ObRec) : Bool :=
  (onu s p i).valid && (!profValid (profWords s p c n.cold) || profWarm (profWords s p c n.cold))

theorem coldRefused_obClean (s : State) (p c i : Nat) (n : ObRec) : coldRefused (obClean s p c) p c i n = coldRefused s p c i n := by
  have first := (pw_profWords_of_leaves (leaves_obClean s p c) (by decide) n.cold).1
  have valid : profValid (profWords (obClean s p c) p c n.cold) = profValid (profWords s p c n.cold) := congrArg (bitsOf · 5 1 == 1) first
  have warm : profWarm (profWords (obClean s p c) p c n.cold) = profWarm (profWords s p c n.cold) := congrArg (bitsOf · 4 1 == 1) first
  rw [coldRefused, valid, warm, onu, obClean_pon, coldRefused, onu]

/-- Burst settings taken, and the phase-memory entry of an ONU whose rate changes with them invalid (R89). -/
def obStored (s : State) (p c i : Nat) (n : ObRec) : State :=
  if (onu s p i).valid && profRate (profWords s p c (ob s p i).cold) != profRate (profWords s p c n.cold) then
    invalidatePhase (setOb s p i n) p c i
  else setOb s p i n

theorem obStored_leaves (s : State) (p i : Nat) (c : Fin 3) (n : ObRec) :
    Leaves ⟨[.ob, .phase], []⟩ s (obStored s p c i n) ∧
    ob (obStored s p c i n) p i = n ∧ TblOnly ObRec.init (512 * p + i) s.pon.ob (obStored s p c i n).pon.ob ∧
    TblOnly PhaseEntry.init (512 * (3 * p + c) + i) s.pon.phase (obStored s p c i n).pon.phase := by
  have stored := leaves_setOb s p i n
  have invalid := leaves_invalidatePhase (setOb s p i n) p c i
  unfold obStored
  split
  · refine ⟨(stored.mono (by simp [Foot.Within, Covers])).andThen invalid (by simp [Foot.Within, Covers]), ?_, ?_, ?_⟩
    · rw [ob, invalid.only .ob (by decide)]
      exact ob_setOb_same s p i n
    · rw [invalid.only .ob (by decide)]
      exact tblOnly_setOb s p i n
    · rw [invalidatePhase_eq]
      exact tblOnly_setPhaseMem (setOb s p i n) p c i _
  · exact ⟨stored.mono (by simp [Foot.Within, Covers]), ob_setOb_same s p i n, tblOnly_setOb s p i n, .of_eq rfl⟩

/-- What OB_WRITE answers. -/
def obWritten (s : State) (p c i : Nat) : State × Nat :=
  if coldRefused s p c i (obOfWindow s p c) then (s, 1) else (obStored s p c i (obOfWindow s p c), 0)

theorem obWrite_eq (o : Origin) (p : Fin 32) (c : Fin 3) (s : State) :
    exec (.obWrite o p c) s = .next (obCommand o p c (fun i s => obWritten s p c i) s) := rfl

theorem obWrite_stores (s : State) (o : Origin) (p : Fin 32) (c : Fin 3) (h : addrReject s o (pgALC p c + ALC_OB_CMD.off) = none)
    (hmine : mayUse (Origin.slice o) (onuOwner s p (fld s (pgALC p c) ALC_OB_IDX)) = true)
    (hhere : (onu s p (fld s (pgALC p c) ALC_OB_IDX)).valid = false ∨ (onu s p (fld s (pgALC p c) ALC_OB_IDX)).ch = c.val)
    (hcold : (onu s p (fld s (pgALC p c) ALC_OB_IDX)).valid = true → profValid (profWords s p c (fld s (pgALC p c) ALC_COLD_PROF)) = true ∧
      profWarm (profWords s p c (fld s (pgALC p c) ALC_COLD_PROF)) = false) :
    Completes (.obWrite o p c) s (fun t =>
      ob t p (fld s (pgALC p c) ALC_OB_IDX) = ⟨fld s (pgALC p c) ALC_COLD_PROF, fld s (pgALC p c) ALC_WARM_PROF,
        isSet s (pgALC p c) ALC_WARM_EN, if c.val = 1 then fld s (pgALC p c) ALC_US_KIND else 0⟩ ∧
      TblOnly ObRec.init (512 * p + (fld s (pgALC p c) ALC_OB_IDX)) s.pon.ob t.pon.ob ∧
      TblOnly PhaseEntry.init (512 * (3 * p + c) + (fld s (pgALC p c) ALC_OB_IDX)) s.pon.phase t.pon.phase ∧
      Answered s t o 0 (pgALC p c + ALC_OB_CMD.off) ∧
      Only (.ob :: .phase :: books) s t) := by
  have taken : coldRefused s p c (fld s (pgALC p c) ALC_OB_IDX) (obOfWindow s p c) = false := by
    rw [coldRefused, Bool.and_eq_false_imp]
    intro hv
    obtain ⟨hvalid, hwarm⟩ := hcold hv
    simp [obOfWindow, hvalid, hwarm]
  obtain ⟨stored, settings, others, phases⟩ := obStored_leaves (obClean s p c) p (fld s (pgALC p c) ALC_OB_IDX) c (obOfWindow s p c)
  have only : Only [.regs, .ob, .phase] s (obStored (obClean s p c) p c (fld s (pgALC p c) ALC_OB_IDX) (obOfWindow s p c)) :=
    (leaves_obClean s p c).onlyIn.trans stored.onlyIn
  refine completes_obCommand (code := 0) (obWrite_eq o p c s) ⟨h, hmine, hhere⟩ ?_ only fun t answered told => ?_
  · rw [obWritten, obOfWindow_obClean, coldRefused_obClean, if_neg (Bool.eq_false_iff.mp taken)]
  · have table := told.only .ob (by decide)
    refine ⟨?_, ?_, ?_, answered, only.into.trans told.only.into⟩
    · rw [ob, table]
      exact settings
    · rw [table, ← obClean_pon s p c]
      exact others
    · rw [told.only .phase (by decide), ← obClean_pon s p c]
      exact phases

theorem obWrite_refused (s : State) (o : Origin) (p : Fin 32) (c : Fin 3) (h : addrReject s o (pgALC p c + ALC_OB_CMD.off) = none)
    (hmine : mayUse (Origin.slice o) (onuOwner s p (fld s (pgALC p c) ALC_OB_IDX)) = true)
    (hhere : (onu s p (fld s (pgALC p c) ALC_OB_IDX)).valid = false ∨ (onu s p (fld s (pgALC p c) ALC_OB_IDX)).ch = c.val)
    (hvalid : (onu s p (fld s (pgALC p c) ALC_OB_IDX)).valid = true)
    (hcold : profValid (profWords s p c (fld s (pgALC p c) ALC_COLD_PROF)) = false ∨
      profWarm (profWords s p c (fld s (pgALC p c) ALC_COLD_PROF)) = true) :
    Completes (.obWrite o p c) s (fun t =>
      Answered s t o 1 (pgALC p c + ALC_OB_CMD.off) ∧
      Only books s t) := by
  have refused : coldRefused s p c (fld s (pgALC p c) ALC_OB_IDX) (obOfWindow s p c) = true := by
    rcases hcold with hc | hc <;> simp [coldRefused, obOfWindow, hvalid, hc]
  have only : Only [.regs] s (obClean s p c) := (leaves_obClean s p c).only
  refine completes_obCommand (code := 1) (obWrite_eq o p c s) ⟨h, hmine, hhere⟩ ?_ only fun t answered told => ⟨answered, only.into.trans told.only⟩
  rw [obWritten, obOfWindow_obClean, coldRefused_obClean, if_pos refused]

/-- Settles O22: each command of the two windows by the body that answers it; the status bits that it writes first touch nothing that the
checks of R89, R120 and R121 read. -/
theorem descriptorsAndBurstSettings : Obligations.DescriptorsAndBurstSettings := by
  unfold Obligations.DescriptorsAndBurstSettings
  exact ⟨adRead_shows, adWrite_stores, adWrite_refused, adClearGranted_clears, obRead_shows, obWrite_stores, obWrite_refused⟩

end Sys2Proof.Machine
end

section
/-! SUPPORT. Groups of bonded members: their page and their records (R137, R147). -/

namespace Sys2Proof.Machine

variable {F : Foot} {s t : State}

theorem port_bnd (p off : Nat) : 0x01000000 ≤ pgBND p + off := by simp only [pgBND, pgPON]; omega

theorem only_grp (s : State) (l : Tbl Grp) : Only [.grp] s { s with pon := { s.pon with grp := l } } := by
  intro p hp
  cases p
  case grp => simp at hp
  all_goals rfl

theorem leaves_setGrp (s : State) (p g : Nat) (r : Grp) : Leaves ⟨[.grp], []⟩ s (setGrp s p g r) :=
  .of_only (only_grp s _) (by decide) (by decide)

@[simp] theorem grp_setGrp_same (s : State) (p g : Nat) (r : Grp) : grp (setGrp s p g r) p g = r :=
  tget_tset_same Grp.init s.pon.grp (64 * p + g) r

theorem tblOnly_setGrp (s : State) (p g : Nat) (r : Grp) : TblOnly Grp.init (64 * p + g) s.pon.grp (setGrp s p g r).pon.grp :=
  fun _ hj => tget_tset_other _ _ _ _ _ hj

theorem Leaves.pon_grp (h : Leaves F s t) (hp : Part.grp ∉ F.parts) (p g : Nat) : grp t p g = grp s p g :=
  congrArg (tget Grp.init · (64 * p + g)) (h.only .grp hp)

end Sys2Proof.Machine
end

section
/-! PROOF. O24: the groups by their window (R137, R146, R147). -/

namespace Sys2Proof.Machine

/-! ### The status of the window -/

theorem leaves_grpStat (s : State) (p : Nat) (own rej : Bool) :
    Leaves ⟨[.regs], [wordSpan (pgBND p + BND_REJECT.off)]⟩ s (grpStat s p own rej) :=
  leaves_statusPair s (pgBND p) (f := BND_OWN_ERR) (g := BND_REJECT) own rej rfl

theorem isSet_reject_grpStat (s : State) (p : Nat) (own rej : Bool) : isSet (grpStat s p own rej) (pgBND p) BND_REJECT = rej :=
  isSet_setBit_same _ _ _ _ (by decide) rfl

/-! ### GRP_READ -/

/-- A group in the words of the window, the status bits 0. -/
def grpShown (s : State) (p : Nat) (r : Grp) : State :=
  setWords (setWords (grpStat s p false false) (pgBND p + 0x8C) r.words) (pgBND p + 0x100) r.cntWords

theorem only_grpShown (s : State) (p : Nat) (r : Grp) : Only [.regs] s (grpShown s p r) :=
  ((leaves_grpStat s p false false).only.trans (only_setWords _ _ _)).trans (only_setWords _ _ _)

theorem length_cntWords (r : Grp) : r.cntWords.length = 32 := rfl

theorem wordsAt_grpShown (s : State) (p : Nat) (r : Grp) :
    wordsAt (grpShown s p r) (pgBND p + 0x8C) 7 = r.words ∧ wordsAt (grpShown s p r) (pgBND p + 0x100) 32 = r.cntWords := by
  refine ⟨?_, wordsAt_setWords _ _ r.cntWords⟩
  refine (wordsAt_eq _ _ _ _ fun b _ hb => reg_setWords_below _ _ _ _ ?_).trans (wordsAt_setWords _ _ r.words)
  omega

theorem grpRead_shows (s : State) (o : Origin) (p : Fin 32) (h : addrReject s o (pgBND p + BND_GRP_CMD.off) = none)
    (hread : (if (grp s p (fld s (pgBND p) BND_GRP_IDX)).valid then
      mayUse (Origin.slice o) (grpOwner s p (grp s p (fld s (pgBND p) BND_GRP_IDX))) else Origin.slice o == portOwner s p) = true) :
    Completes (.grpRead o p) s (fun t =>
      wordsAt t (pgBND p + 0x8C) 7 = (grp s p (fld s (pgBND p) BND_GRP_IDX)).words ∧
      wordsAt t (pgBND p + 0x100) 32 = (grp s p (fld s (pgBND p) BND_GRP_IDX)).cntWords ∧
      Answered s t o 0 (pgBND p + BND_GRP_CMD.off) ∧
      Only books s t) := by
  have only := only_grpShown s p (grp s p (fld s (pgBND p) BND_GRP_IDX))
  obtain ⟨hwords, hcnts⟩ := wordsAt_grpShown s p (grp s p (fld s (pgBND p) BND_GRP_IDX))
  refine completes_window (u := grpShown s p _) (c := 0) rfl h (if_pos hread) only fun t answered told => ?_
  have kept (off n : Nat) : wordsAt t (pgBND p + off) n = wordsAt (grpShown s p _) (pgBND p + off) n :=
    wordsAt_eq _ _ _ _ fun b hb _ => told.port_reg ((port_bnd p off).trans hb)
  exact ⟨(kept _ _).trans hwords, (kept _ _).trans hcnts, answered, only.into.trans told.only⟩

/-! ### Commands that store a group -/

/-- A group taken, with both status bits 0. -/
def grpStored (s : State) (p g : Nat) (r : Grp) : State := grpStat (setGrp s p g r) p false false

theorem setGrp_setBit (s : State) (p g : Nat) (r : Grp) (b : Nat) (f : Fld) (v : Bool) :
    setGrp (setBit s b f v) p g r = setBit (setGrp s p g r) b f v := rfl

/-- The status and the groups stand apart. -/
theorem setGrp_grpStat (s : State) (p g : Nat) (r : Grp) : setGrp (grpStat s p false false) p g r = grpStored s p g r := by
  rw [grpStat, setGrp_setBit, setGrp_setBit, grpStored, grpStat]

/-- A command of the window that ends with a group taken. -/
theorem completes_grpStored {i : Instr} {s : State} {o : Origin} {p g : Nat} {r : Grp} {body : State → State × Nat}
    (hexec : exec i s = .next (command o (pgBND p + BND_GRP_CMD.off) (pgBND p + BND_GRP_IDX.off) body s))
    (h : addrReject s o (pgBND p + BND_GRP_CMD.off) = none) (hbody : body s = (grpStored s p g r, 0)) :
    Completes i s (fun t =>
      grp t p g = r ∧
      TblOnly Grp.init (64 * p + g) s.pon.grp t.pon.grp ∧
      Answered s t o 0 (pgBND p + BND_GRP_CMD.off) ∧
      RegsOnly bookPages [pgBND p + BND_REJECT.off] s t ∧
      Only (.grp :: books) s t) := by
  have stat : Leaves _ (setGrp s p g r) (grpStored s p g r) := leaves_grpStat _ p false false
  have leaves : Leaves ⟨[.regs, .grp], [wordSpan (pgBND p + BND_REJECT.off)]⟩ s (grpStored s p g r) :=
    ((leaves_setGrp s p g r).mono (by simp [Foot.Within, Covers])).andThen stat (by simp [Foot.Within, Covers])
  have only : Only [.regs, .grp] s (grpStored s p g r) := leaves.only
  have regs : RegsOnly [pgPMC] [pgBND p + BND_REJECT.off] s (grpStored s p g r) := leaves.regsOnly _ _ (by simp [wordSpan])
  refine completes_window hexec h hbody only fun t answered told => ?_
  have table : t.pon.grp = (setGrp s p g r).pon.grp := (told.only .grp (by decide)).trans (stat.only .grp (by simp))
  refine ⟨?_, ?_, answered, regs.recorded told, only.into.trans told.only.into⟩
  · rw [grp, table]
    exact grp_setGrp_same s p g r
  · rw [table]
    exact tblOnly_setGrp s p g r

/-- The group that the index selects. -/
abbrev selectedGrp (s : State) (p : Fin 32) : Grp := grp s p (fld s (pgBND p) BND_GRP_IDX)

theorem grpCounterClear_clears (s : State) (o : Origin) (p : Fin 32) (h : addrReject s o (pgBND p + BND_GRP_CMD.off) = none)
    (hmine : mayUse (Origin.slice o) (if (selectedGrp s p).valid then grpOwner s p (selectedGrp s p) else portOwner s p) = true) :
    Completes (.grpCounterClear o p) s (fun t =>
      grp t p (fld s (pgBND p) BND_GRP_IDX) = { selectedGrp s p with cnts := List.replicate 16 0 } ∧
      TblOnly Grp.init (64 * p + (fld s (pgBND p) BND_GRP_IDX)) s.pon.grp t.pon.grp ∧
      Answered s t o 0 (pgBND p + BND_GRP_CMD.off) ∧
      Only (.grp :: books) s t) := by
  obtain ⟨t, hrun, stored, others, answered, -, only⟩ := completes_grpStored (i := .grpCounterClear o p)
    (r := { selectedGrp s p with cnts := List.replicate 16 0 }) rfl h ((if_pos hmine).trans (congrArg (·, 0) (setGrp_grpStat ..)))
  exact ⟨t, hrun, stored, others, answered, only⟩

/-! ### GRP_WRITE -/

/-- The window's write of group n is the slice's: it may use the group there was and the records of the new one (R137, R147). -/
structure GrpWritable (s : State) (o : Origin) (p : Fin 32) (n : Grp) : Prop where
  reject : addrReject s o (pgBND p + BND_GRP_CMD.off) = none
  window : n = grpOfWindow s p (selectedGrp s p)
  mine : (selectedGrp s p).valid = true → mayUse (Origin.slice o) (grpOwner s p (selectedGrp s p)) = true
  mineX : mayUse (Origin.slice o) (onuOwner s p n.onuX) = true
  mineH : mayUse (Origin.slice o) (onuOwner s p n.onuH) = true

/-- The fields that a write with VALID 0 leaves for a group. -/
def Grp.fields (n : Grp) : List Nat := [n.onuX, n.onuH, n.xgemX, n.xgemH, n.wX, n.wH, n.fragMax, n.dsQ, n.usQ]

/-- A group that becomes VALID: DOWN, with nothing held. -/
def Grp.started (n : Grp) : Grp :=
  { n with state := gDown, dsSeq := 0, next := 0, maxSkew := 0, sX := 0, sH := 0, upX := 0, upH := 0, held := [], join := none,
           bad := false, freeing := none }

/-- What GRP_WRITE of group n over group r answers to a slice that may write it. -/
def grpWritten (s : State) (p g : Nat) (r n : Grp) : State × Nat :=
  if !n.valid then (grpStored s p g (if r.valid then { r with freeing := some n.fields } else n), 0)
  else if r.freeing.isSome then (grpReject s p, 8)
  else if r.valid then
    if grpFixedChanged r n then (grpReject s p, 8)
    else if grpRejected s p g n then (grpReject s p, 1)
    else (grpStored s p g { r with newW := some (n.wX, n.wH, n.fragMax) }, 0)
  else if grpRejected s p g n then (grpReject s p, 1)
  else (grpStored s p g n.started, 0)

/-- What GRP_WRITE answers. -/
def grpWriteAnswer (o : Origin) (p : Fin 32) (s : State) : State × Nat :=
  let r := selectedGrp s p
  let n := grpOfWindow s p r
  let v := Origin.slice o
  if !((!r.valid || mayUse v (grpOwner s p r)) && mayUse v (onuOwner s p n.onuX) && mayUse v (onuOwner s p n.onuH)) then (grpHide s p, 2)
  else grpWritten s p (fld s (pgBND p) BND_GRP_IDX) r n

theorem grpWrite_eq (o : Origin) (p : Fin 32) (s : State) :
    exec (.grpWrite o p) s = .next (command o (pgBND p + BND_GRP_CMD.off) (pgBND p + BND_GRP_IDX.off) (grpWriteAnswer o p) s) := rfl

section Write
variable {s : State} {o : Origin} {p : Fin 32} {n : Grp}

theorem GrpWritable.answer (h : GrpWritable s o p n) :
    grpWriteAnswer o p s = grpWritten s p (fld s (pgBND p) BND_GRP_IDX) (selectedGrp s p) n := by
  obtain ⟨-, rfl, mine, mineX, mineH⟩ := h
  refine if_neg ?_
  cases hv : (selectedGrp s p).valid
  · simp [mineX, mineH]
  · simp [mineX, mineH, mine hv]

/-- A write that takes group r. -/
theorem GrpWritable.stores {r : Grp} (h : GrpWritable s o p n)
    (hr : grpWritten s p (fld s (pgBND p) BND_GRP_IDX) (selectedGrp s p) n = (grpStored s p (fld s (pgBND p) BND_GRP_IDX) r, 0)) :
    Completes (.grpWrite o p) s (fun t =>
      grp t p (fld s (pgBND p) BND_GRP_IDX) = r ∧
      TblOnly Grp.init (64 * p + (fld s (pgBND p) BND_GRP_IDX)) s.pon.grp t.pon.grp ∧
      Answered s t o 0 (pgBND p + BND_GRP_CMD.off) ∧
      RegsOnly bookPages [pgBND p + BND_REJECT.off] s t ∧
      Only (.grp :: books) s t) := completes_grpStored (grpWrite_eq o p s) h.reject (h.answer.trans hr)

end Write

theorem grpWrite_starts (s : State) (o : Origin) (p : Fin 32) (n : Grp) (h : addrReject s o (pgBND p + BND_GRP_CMD.off) = none)
    (hn : n = grpOfWindow s p (selectedGrp s p)) (hold : (selectedGrp s p).valid = false) (hnew : n.valid = true)
    (hX : mayUse (Origin.slice o) (onuOwner s p n.onuX) = true) (hH : mayUse (Origin.slice o) (onuOwner s p n.onuH) = true)
    (hfree : (selectedGrp s p).freeing = none) (hrej : grpRejected s p (fld s (pgBND p) BND_GRP_IDX) n = false) :
    Completes (.grpWrite o p) s (fun t =>
      grp t p (fld s (pgBND p) BND_GRP_IDX) = { n with
        state := gDown, dsSeq := 0, next := 0, maxSkew := 0, sX := 0, sH := 0, upX := 0, upH := 0, held := [], join := none, bad := false } ∧
      TblOnly Grp.init (64 * p + (fld s (pgBND p) BND_GRP_IDX)) s.pon.grp t.pon.grp ∧
      Answered s t o 0 (pgBND p + BND_GRP_CMD.off) ∧
      RegsOnly bookPages [pgBND p + BND_REJECT.off] s t ∧
      Only (.grp :: books) s t) := by
  have writable : GrpWritable s o p n := ⟨h, hn, by simp [hold], hX, hH⟩
  have none : n.freeing = none := (congrArg Grp.freeing hn).trans hfree
  obtain ⟨t, hrun, stored, rest⟩ := writable.stores (r := n.started) (by simp [grpWritten, hold, hnew, hfree, hrej])
  exact ⟨t, hrun, by rw [stored, Grp.started, ← none], rest⟩

theorem grpWrite_weights (s : State) (o : Origin) (p : Fin 32) (n : Grp) (h : addrReject s o (pgBND p + BND_GRP_CMD.off) = none)
    (hn : n = grpOfWindow s p (selectedGrp s p)) (hold : (selectedGrp s p).valid = true) (hnew : n.valid = true)
    (hmine : mayUse (Origin.slice o) (grpOwner s p (selectedGrp s p)) = true)
    (hX : mayUse (Origin.slice o) (onuOwner s p n.onuX) = true) (hH : mayUse (Origin.slice o) (onuOwner s p n.onuH) = true)
    (hfree : (selectedGrp s p).freeing = none) (hfix : grpFixedChanged (selectedGrp s p) n = false)
    (hrej : grpRejected s p (fld s (pgBND p) BND_GRP_IDX) n = false) :
    Completes (.grpWrite o p) s (fun t =>
      grp t p (fld s (pgBND p) BND_GRP_IDX) = { selectedGrp s p with newW := some (n.wX, n.wH, n.fragMax) } ∧
      TblOnly Grp.init (64 * p + (fld s (pgBND p) BND_GRP_IDX)) s.pon.grp t.pon.grp ∧
      Answered s t o 0 (pgBND p + BND_GRP_CMD.off) ∧
      Only (.grp :: books) s t) := by
  have writable : GrpWritable s o p n := ⟨h, hn, fun _ => hmine, hX, hH⟩
  obtain ⟨t, hrun, stored, others, answered, -, only⟩ := writable.stores
    (r := { selectedGrp s p with newW := some (n.wX, n.wH, n.fragMax) }) (by simp [grpWritten, hold, hnew, hfree, hfix, hrej])
  exact ⟨t, hrun, stored, others, answered, only⟩

theorem grpWrite_frees (s : State) (o : Origin) (p : Fin 32) (n : Grp) (h : addrReject s o (pgBND p + BND_GRP_CMD.off) = none)
    (hn : n = grpOfWindow s p (selectedGrp s p)) (hold : (selectedGrp s p).valid = true) (hnew : n.valid = false)
    (hmine : mayUse (Origin.slice o) (grpOwner s p (selectedGrp s p)) = true)
    (hX : mayUse (Origin.slice o) (onuOwner s p n.onuX) = true) (hH : mayUse (Origin.slice o) (onuOwner s p n.onuH) = true) :
    Completes (.grpWrite o p) s (fun t =>
      grp t p (fld s (pgBND p) BND_GRP_IDX) = { selectedGrp s p with
        freeing := some [n.onuX, n.onuH, n.xgemX, n.xgemH, n.wX, n.wH, n.fragMax, n.dsQ, n.usQ] } ∧
      TblOnly Grp.init (64 * p + (fld s (pgBND p) BND_GRP_IDX)) s.pon.grp t.pon.grp ∧
      Answered s t o 0 (pgBND p + BND_GRP_CMD.off) ∧
      Only (.grp :: books) s t) := by
  have writable : GrpWritable s o p n := ⟨h, hn, fun _ => hmine, hX, hH⟩
  obtain ⟨t, hrun, stored, others, answered, -, only⟩ := writable.stores
    (r := { selectedGrp s p with freeing := some n.fields }) (by simp [grpWritten, hold, hnew])
  exact ⟨t, hrun, stored, others, answered, only⟩

theorem grpReject_shows (s : State) (p : Nat) :
    flagSet (grpReject s p) (pgBND p) BND_F_GRP_REJ = true ∧ isSet (grpReject s p) (pgBND p) BND_REJECT = true := by
  refine ⟨flagSet_flag _ _ _ (by decide) (by decide) (pmcWord_port (port_bnd ..)), ?_⟩
  rw [grpReject, isSet, fld_flag_beside _ _ _ _ _ (by decide) (.inl (by simp [BND_REJECT, BND_F_GRP_REJ]))
    (by simp [BND_REJECT, BND_F_GRP_REJ]) (pmcWord_port (port_bnd ..))]
  exact isSet_reject_grpStat s p false true

theorem grpWrite_refused (s : State) (o : Origin) (p : Fin 32) (n : Grp) (h : addrReject s o (pgBND p + BND_GRP_CMD.off) = none)
    (hn : n = grpOfWindow s p (selectedGrp s p)) (hold : (selectedGrp s p).valid = true) (hnew : n.valid = true)
    (hmine : mayUse (Origin.slice o) (grpOwner s p (selectedGrp s p)) = true)
    (hX : mayUse (Origin.slice o) (onuOwner s p n.onuX) = true) (hH : mayUse (Origin.slice o) (onuOwner s p n.onuH) = true)
    (hfree : (selectedGrp s p).freeing = none) (hfix : grpFixedChanged (selectedGrp s p) n = true) :
    Completes (.grpWrite o p) s (fun t =>
      flagSet t (pgBND p) BND_F_GRP_REJ = true ∧
      isSet t (pgBND p) BND_REJECT = true ∧
      Answered s t o 8 (pgBND p + BND_GRP_CMD.off) ∧
      Only books s t) := by
  have writable : GrpWritable s o p n := ⟨h, hn, fun _ => hmine, hX, hH⟩
  have refused : grpWritten s p (fld s (pgBND p) BND_GRP_IDX) (selectedGrp s p) n = (grpReject s p, 8) := by
    simp [grpWritten, hold, hnew, hfree, hfix]
  obtain ⟨hflag, hbit⟩ := grpReject_shows s p
  have only : Only [.regs, .pmc] s (grpReject s p) := (leaves_grpStat s p false true).onlyIn.trans (only_flag _ _ _)
  refine completes_window (grpWrite_eq o p s) h (writable.answer.trans refused) only fun t answered told => ?_
  exact ⟨(told.port_flagSet _ _ (port_bnd ..)).trans hflag, (told.port_isSet _ _ (port_bnd ..)).trans hbit, answered,
    only.into.trans told.only⟩

/-- Settles O24: a read by the words it shows, the writes by what the window's check answers, and the clear as one more store of a group. -/
theorem groupWindow : Obligations.GroupWindow := by
  unfold Obligations.GroupWindow
  exact ⟨grpRead_shows, grpWrite_starts, grpWrite_weights, grpWrite_refused, grpWrite_frees, grpCounterClear_clears⟩

end Sys2Proof.Machine
end

section
/-! SUPPORT. Allocations in two states that are alike to the pools: both are granted, with the same buffers, or neither (R199 to R202). -/

namespace Sys2Proof.Machine

/-- The registers that an allocation reads: of BPM, HBM and CXL, without the flags of BPM and their occurrences. -/
@[reducible] def poolRead (a : Nat) : Prop := pgBPM ≤ a ∧ (a < pgBPM + 0x70 ∨ pgBPM + 0x100 ≤ a)

/-- Two states that are alike to the pools. -/
structure PoolAlike (s t : State) : Prop where
  bufs : t.tm.buf = s.tm.buf
  waits : t.tm.wait = s.tm.wait
  free : t.freeCtr = s.freeCtr
  reg : ∀ a, poolRead a → reg t a = reg s a

/-- Two answers to a request: the same buffers in states that are alike to the pools, or none. -/
@[reducible] def SameGrant {α : Type} : Option (α × State) → Option (α × State) → Prop :=
  Option.Rel fun x y => y.1 = x.1 ∧ PoolAlike x.2 y.2

variable {s t u : State}

/-! ### Steps that the pools do not see -/

theorem PoolAlike.symm (h : PoolAlike s t) : PoolAlike t s := ⟨h.bufs.symm, h.waits.symm, h.free.symm, fun a ha => (h.reg a ha).symm⟩

theorem PoolAlike.trans (h1 : PoolAlike s t) (h2 : PoolAlike t u) : PoolAlike s u :=
  ⟨h2.bufs.trans h1.bufs, h2.waits.trans h1.waits, h2.free.trans h1.free, fun a ha => (h2.reg a ha).trans (h1.reg a ha)⟩

/-- A step that touches neither the buffers nor the waits, and draws no free value. -/
theorem PoolAlike.of_only {l : List Part} (h : Only l s t) (hr : ∀ a, poolRead a → Machine.reg t a = Machine.reg s a)
    (hb : Part.buf ∉ l := by decide) (hw : Part.wait ∉ l := by decide) (hf : Part.freeCtr ∉ l := by decide) : PoolAlike s t :=
  ⟨h .buf hb, h .wait hw, h .freeCtr hf, hr⟩

theorem pmcWord_of_poolRead {a : Nat} (h : poolRead a) : pmcWord a = false :=
  pmcWord_port (le_trans (by decide : 0x01000000 ≤ pgBPM) h.1)

theorem poolAlike_bump (s : State) (b i n : Nat) : PoolAlike s (bump s b i n) :=
  .of_only (only_bump s b i n) fun a ha => reg_bump s b i n a (pmcWord_of_poolRead ha)

/-- A flag of BPM. -/
theorem poolAlike_note (s : State) (f : Flag) (i : Nat) (hf : 0x70 ≤ f.off ∧ f.off < 0x100) (hc : 0x70 ≤ f.cntOff ∧ f.cntOff < 0x100) :
    PoolAlike s (note s pgBPM f i) := by
  have flagged : PoolAlike s (flag s pgBPM f) := .of_only (only_flag s pgBPM f) fun a ha =>
    reg_flag s pgBPM f a (by have := ha.2; omega) (by have := ha.2; omega) (pmcWord_of_poolRead ha)
  exact flagged.trans (poolAlike_bump _ _ _ _)

theorem PoolAlike.note (h : PoolAlike s t) (f : Flag) (i : Nat) (hf : 0x70 ≤ f.off ∧ f.off < 0x100 := by decide)
    (hc : 0x70 ≤ f.cntOff ∧ f.cntOff < 0x100 := by decide) : PoolAlike (note s pgBPM f i) (note t pgBPM f i) :=
  ((poolAlike_note s f i hf hc).symm.trans h).trans (poolAlike_note t f i hf hc)

theorem PoolAlike.drawFree (h : PoolAlike s t) : PoolAlike (drawFree s) (drawFree t) :=
  ⟨h.bufs, h.waits, congrArg (· + 1) h.free, h.reg⟩

theorem PoolAlike.setBuf (h : PoolAlike s t) (j : Nat) (b : Buf) : PoolAlike (setBuf s j b) (setBuf t j b) :=
  ⟨congrArg (tset Buf.init · j b) h.bufs, h.waits, h.free, h.reg⟩

theorem PoolAlike.newBuf (h : PoolAlike s t) (j tag : Nat) : PoolAlike (newBuf s j tag) (newBuf t j tag) :=
  ((poolAlike_bump _ _ _ _).symm.trans (h.setBuf j _)).trans (poolAlike_bump _ _ _ _)

/-! ### What an allocation reads -/

theorem PoolAlike.fld (h : PoolAlike s t) (b : Nat) (f : Fld) (ha : poolRead (b + f.off)) : fld t b f = fld s b f := by
  rw [Machine.fld, Machine.fld, h.reg _ ha]

theorem poolRead_cxl (x : Nat) {off : Nat} : poolRead (pgCXL x + off) := by simp only [poolRead, pgCXL, pgBPM]; omega

theorem PoolAlike.freeVal (h : PoolAlike s t) : freeVal t = freeVal s := by rw [Machine.freeVal, Machine.freeVal, h.free]

theorem PoolAlike.buf (h : PoolAlike s t) (j : Nat) : buf t j = buf s j := congrArg (tget Buf.init · j) h.bufs

theorem PoolAlike.waitQ (h : PoolAlike s t) (q : Nat) : waitQ t q = waitQ s q := congrArg (tget dnil · q) h.waits

theorem PoolAlike.expState (h : PoolAlike s t) (x : Nat) : expState t x = expState s x := h.fld _ _ (poolRead_cxl x)

theorem PoolAlike.expsUp (h : PoolAlike s t) : expsUp t = expsUp s := by simp only [Machine.expsUp, h.expState]

theorem PoolAlike.expGranules (h : PoolAlike s t) : expGranules t = expGranules s :=
  funext fun x => by simp only [Machine.expGranules, h.fld _ CXL_CAP_GIB (poolRead_cxl x)]

theorem PoolAlike.stacksUp (h : PoolAlike s t) : stacksUp t = stacksUp s := by
  simp only [Machine.stacksUp, h.fld pgHBM HBM_STACK_OK (by decide)]

theorem PoolAlike.replGranules (h : PoolAlike s t) : replGranules t = replGranules s := h.fld pgBPM BPM_REPL_GRANULES (by decide)

theorem PoolAlike.tierGranules (h : PoolAlike s t) (tier : Nat) : tierGranules t tier = tierGranules s tier := by
  unfold Machine.tierGranules
  rw [h.stacksUp, h.fld pgHBM HBM_BUF_GIB (by decide), h.expsUp, h.expGranules]

theorem PoolAlike.usedGranules (h : PoolAlike s t) (tier : Nat) : usedGranules t tier = usedGranules s tier := by
  simp only [Machine.usedGranules, h.bufs]

theorem PoolAlike.usedOn (h : PoolAlike s t) (x : Nat) : usedOn t x = usedOn s x := by simp only [Machine.usedOn, h.usedGranules]

theorem PoolAlike.freeGranules (h : PoolAlike s t) (tier : Nat) : freeGranules t tier = freeGranules s tier := by
  simp only [Machine.freeGranules, h.tierGranules, h.usedGranules, h.replGranules, h.expsUp, h.expGranules, h.usedOn]

theorem PoolAlike.drainReserve (h : PoolAlike s t) (tier : Nat) : drainReserve t tier = drainReserve s tier := by
  simp only [Machine.drainReserve, h.tierGranules, h.fld pgBPM BPM_DRAIN_SHIFT (by decide)]

theorem PoolAlike.freeSlots (h : PoolAlike s t) (pool tier : Nat) : freeSlots t pool tier = freeSlots s pool tier := by
  simp only [Machine.freeSlots, h.bufs, h.expState]

theorem PoolAlike.takeGranule (h : PoolAlike s t) (tier : Nat) : takeGranule t tier = takeGranule s tier := by
  simp only [Machine.takeGranule, h.usedGranules, h.expsUp, h.usedOn, h.expGranules, h.freeVal, h.tierGranules, h.replGranules]

theorem PoolAlike.promotes (h : PoolAlike s t) (r : Nat) : isSet t pgBPM (BPM_PROMOTE.at r) = isSet s pgBPM (BPM_PROMOTE.at r) := by
  have off : (BPM_PROMOTE.at r).off = 0x100 + r * 4 := rfl
  rw [isSet, isSet, h.fld pgBPM (BPM_PROMOTE.at r) (by simp only [poolRead, off]; omega)]

/-! ### Allocations -/

theorem PoolAlike.allocOne (h : PoolAlike s t) (r tag pool tier : Nat) :
    SameGrant (allocOne s r tag pool tier) (allocOne t r tag pool tier) := by
  have drawn := h.drawFree
  have reserved : PoolAlike (noteReserve (Machine.drawFree s)) (noteReserve (Machine.drawFree t)) :=
    drawn.note BPM_F_RESERVE_USED BPM_C_RESERVE_ALLOCS
  have granted {α : Type} (o : Option α) (j : α → Nat) {a b : State} (hab : PoolAlike a b) :
      SameGrant (o.map fun i => (j i, Machine.newBuf a (j i) tag)) (o.map fun i => (j i, Machine.newBuf b (j i) tag)) := by
    cases o with
    | none => exact .none
    | some i => exact .some ⟨rfl, hab.newBuf _ _⟩
  unfold Machine.allocOne
  simp only [h.bufs, h.stacksUp, h.replGranules, h.freeVal, h.freeSlots, h.freeGranules, h.drainReserve, h.takeGranule]
  generalize (if Machine.stacksUp s then Machine.replGranules s * 160 else 0) = n
  split
  · split
    · exact .none
    · exact granted _ (mkHandle 3 1) drawn
  · split
    · exact .some ⟨rfl, drawn.newBuf _ _⟩
    · split
      · exact .none
      · refine granted _ (fun g => mkHandle pool tier (g * poolPer pool)) ?_
        split
        · exact reserved
        · exact drawn

/-- A buffer of a larger pool, in which nobody waits (R200, R201). -/
def promotedGrant (s : State) (r tag tier q : Nat) : Option (Nat × State) :=
  if waitQ s q = [] then (allocOne s r tag q tier).map (fun x => (x.1, note x.2 pgBPM BPM_F_PROMOTED BPM_C_PROMOTED)) else none

theorem allocFit_eq (s : State) (r tag tier n : Nat) :
    allocFit s r tag tier n = (allocOne s r tag (poolFor r n) tier).or
      (if isSet s pgBPM (BPM_PROMOTE.at r) && poolFor r n < 2 then
        (promotedGrant s r tag tier (poolFor r n + 1)).or (if poolFor r n = 0 then promotedGrant s r tag tier 2 else none)
      else none) := by
  unfold allocFit promotedGrant
  dsimp only
  cases allocOne s r tag (poolFor r n) tier with
  | some x => rfl
  | none =>
    refine if_congr Iff.rfl ?_ rfl
    split
    · rename_i x hx
      rw [hx, Option.some_or]
    · rename_i hx
      rw [hx, Option.none_or]

theorem SameGrant.or {α : Type} {x y x' y' : Option (α × State)} (h : SameGrant x y) (h' : SameGrant x' y') :
    SameGrant (x.or x') (y.or y') := by
  cases h with
  | none => exact h'
  | some hx => exact .some hx

theorem SameGrant.ite {α : Type} {c : Prop} [Decidable c] {x y x' y' : Option (α × State)} (h : SameGrant x y) (h' : SameGrant x' y') :
    SameGrant (if c then x else x') (if c then y else y') := by
  split
  · exact h
  · exact h'

theorem PoolAlike.promotedGrant (h : PoolAlike s t) (r tag tier q : Nat) :
    SameGrant (promotedGrant s r tag tier q) (promotedGrant t r tag tier q) := by
  unfold Machine.promotedGrant
  rw [h.waitQ]
  refine .ite ?_ .none
  have one := h.allocOne r tag q tier
  generalize Machine.allocOne s r tag q tier = x, Machine.allocOne t r tag q tier = y at one
  cases one with
  | none => exact .none
  | some hx => exact .some ⟨hx.1, hx.2.note BPM_F_PROMOTED BPM_C_PROMOTED⟩

theorem PoolAlike.allocFit (h : PoolAlike s t) (r tag tier n : Nat) : SameGrant (allocFit s r tag tier n) (allocFit t r tag tier n) := by
  rw [allocFit_eq, allocFit_eq, h.promotes]
  exact (h.allocOne ..).or (.ite ((h.promotedGrant ..).or (.ite (h.promotedGrant ..) .none)) .none)

theorem PoolAlike.allocChain (h : PoolAlike s t) (r tag tier k n : Nat) :
    SameGrant (allocChain r tag tier k s n) (allocChain r tag tier k t n) := by
  induction k generalizing s t n with
  | zero => exact .none
  | succ k ih =>
    unfold Machine.allocChain
    dsimp only
    generalize (if r = 7 then 256 else 10240) = top
    have fit := h.allocFit r tag tier (min n top)
    generalize Machine.allocFit s r tag tier (min n top) = a, Machine.allocFit t r tag tier (min n top) = b at fit
    cases fit with
    | none => exact .none
    | @some x y hx =>
      obtain ⟨j, s1⟩ := x
      obtain ⟨j', t1⟩ := y
      obtain ⟨rfl, hst⟩ := hx
      dsimp only
      split
      · exact .some ⟨rfl, hst⟩
      · have rest := ih hst (n - top)
        generalize Machine.allocChain r tag tier k s1 (n - top) = a, Machine.allocChain r tag tier k t1 (n - top) = b at rest
        cases rest with
        | none => exact .none
        | some hz => exact .some ⟨congrArg (j' :: ·) hz.1, hz.2⟩

theorem PoolAlike.allocBytes (h : PoolAlike s t) (r tag tier n : Nat) :
    SameGrant (allocBytes s r tag tier n) (allocBytes t r tag tier n) := by
  unfold Machine.allocBytes
  have chain := h.allocChain r tag tier (n / 256 + 1) n
  generalize Machine.allocChain r tag tier (n / 256 + 1) s n = a, Machine.allocChain r tag tier (n / 256 + 1) t n = b at chain
  cases chain with
  | none => exact .none
  | @some x y hx =>
    obtain ⟨l, s1⟩ := x
    obtain ⟨l', t1⟩ := y
    obtain ⟨rfl, hst⟩ := hx
    cases l' with
    | nil => exact .none
    | cons j l => exact .some ⟨rfl, hst.buf j ▸ hst.setBuf j _⟩

theorem SameGrant.isSome {α : Type} {x y : Option (α × State)} (h : SameGrant x y) : y.isSome = x.isSome := by
  cases h <;> rfl

theorem PoolAlike.servable (h : PoolAlike s t) : servable t = servable s :=
  funext fun w => by simp only [Machine.servable, (h.allocBytes w.req 0 _ w.bytes).isSome]

theorem PoolAlike.askBytes (h : PoolAlike s t) (r tag tier n : Nat) :
    SameGrant (askBytes s r tag tier n) (askBytes t r tag tier n) := by
  unfold Machine.askBytes
  rw [h.waitQ, h.servable]
  split
  · exact .none
  · exact h.allocBytes r tag tier n

end Sys2Proof.Machine
end

section
/-! SUPPORT. Steps of one bonded group: its counters, the release of its fragments, and its gaps (R143 to R147). -/

namespace Sys2Proof.Machine

variable {F G : Foot} {p g : Nat} {s t u : State}

/-- A group without what its merge and its counters keep. -/
def Grp.besideMerge (r : Grp) : Grp := { r with next := 0, maxSkew := 0, held := [], join := none, bad := false, cnts := [] }

/-- A step of group g of port p: within its footprint no other group changes, and of the group only what its merge and its counters keep. -/
structure GroupStep (F : Foot) (p g : Nat) (s t : State) : Prop where
  leaves : Leaves F s t
  others : TblOnly Grp.init (64 * p + g) s.pon.grp t.pon.grp
  kept : (grp t p g).besideMerge = (grp s p g).besideMerge

theorem GroupStep.refl (F : Foot) (p g : Nat) (s : State) : GroupStep F p g s s := ⟨.refl F s, .of_eq rfl, rfl⟩

theorem GroupStep.trans (h1 : GroupStep F p g s t) (h2 : GroupStep F p g t u) : GroupStep F p g s u :=
  ⟨h1.leaves.trans h2.leaves, h1.others.trans h2.others, h2.kept.trans h1.kept⟩

theorem GroupStep.mono (h : GroupStep F p g s t) (hw : F.Within G) : GroupStep G p g s t := ⟨h.leaves.mono hw, h.others, h.kept⟩

/-- A step that leaves the groups. -/
theorem Leaves.groupStep (h : Leaves F s t) (hp : Part.grp ∉ F.parts) (p g : Nat) : GroupStep F p g s t :=
  ⟨h, .of_eq (h.only .grp hp), congrArg Grp.besideMerge (h.pon_grp hp p g)⟩

theorem GroupStep.set {r : Grp} (h : r.besideMerge = (grp s p g).besideMerge) : GroupStep ⟨[.grp], []⟩ p g s (setGrp s p g r) :=
  ⟨leaves_setGrp s p g r, tblOnly_setGrp s p g r, by rw [grp_setGrp_same, h]⟩

/-! ### Counters of a group (R147) -/

/-- What a counter of a group touches on its port's page. -/
def grpCntFoot (p j : Nat) : Foot := ⟨[.grp, .regs, .cnt, .pmc], [pmcSpan, wordSpan (cntAddr (pgBND p) j)]⟩

theorem grp_grpBump (s : State) (p g j n : Nat) : ∃ l, grp (grpBump s p g j n) p g = { grp s p g with cnts := l } := by
  unfold grpBump
  rw [(leaves_bump _ _ _ _).pon_grp (by simp)]
  exact ⟨_, grp_setGrp_same ..⟩

theorem grpBump_step (s : State) (p g j n : Nat) : GroupStep (grpCntFoot p j) p g s (grpBump s p g j n) := by
  have stored (l : List Nat) : GroupStep (grpCntFoot p j) p g s (setGrp s p g { grp s p g with cnts := l }) :=
    .mono (.set rfl) (by simp [Foot.Within, Covers, grpCntFoot])
  have counted (t : State) : GroupStep (grpCntFoot p j) p g t (bump t (pgBND p) j n) :=
    ((leaves_bump t (pgBND p) j n).groupStep (by simp) p g).mono (by simp [Foot.Within, Covers, grpCntFoot])
  exact (stored _).trans (counted _)

theorem cntAt_grpBump_same (s : State) (p g j n : Nat) :
    cntAt (grpBump s p g j n) (cntAddr (pgBND p) j) = min cntMax (cntAt s (cntAddr (pgBND p) j) + n) := cntAt_bump_same _ (pgBND p) j n

/-- What a counter of a group with its flag touches on its port's page. -/
def grpNoteFoot (p : Nat) (f : Flag) (j : Nat) : Foot :=
  ⟨[.grp, .regs, .cnt, .pmc], [pmcSpan, wordSpan (pgBND p + f.off), wordSpan (pgBND p + f.cntOff), wordSpan (cntAddr (pgBND p) j)]⟩

theorem grp_grpNote (s : State) (p g : Nat) (f : Flag) (j n : Nat) : ∃ l, grp (grpNote s p g f j n) p g = { grp s p g with cnts := l } := by
  obtain ⟨l, hl⟩ := grp_grpBump (flag s (pgBND p) f) p g j n
  exact ⟨l, by rw [grpNote, hl, (leaves_flag s _ f).pon_grp (by simp)]⟩

theorem grpNote_step (s : State) (p g : Nat) (f : Flag) (j n : Nat) : GroupStep (grpNoteFoot p f j) p g s (grpNote s p g f j n) :=
  .trans (((leaves_flag s (pgBND p) f).groupStep (by simp) p g).mono (by simp [Foot.Within, Covers, grpNoteFoot]))
    ((grpBump_step _ p g j n).mono (by simp [Foot.Within, Covers, grpNoteFoot, grpCntFoot]))

theorem cntAt_grpNote_same (s : State) (p g : Nat) (f : Flag) (j n : Nat) :
    cntAt (grpNote s p g f j n) (cntAddr (pgBND p) j) = min cntMax (cntAt s (cntAddr (pgBND p) j) + n) := by
  rw [grpNote, cntAt_grpBump_same, cntAt_flag]

theorem flagSet_grpNote (s : State) (p g : Nat) (f : Flag) (j n : Nat) (h : f.bit < 32) (ho : f.off ≠ f.cntOff) :
    flagSet (grpNote s p g f j n) (pgBND p) f = true := by
  refine Eq.trans ?_ (flagSet_flag s (pgBND p) f h ho (pmcWord_port (port_bnd ..)))
  rw [flagSet, isSet, fld, flagSet, isSet, fld, grpNote, grpBump, reg_bump _ _ _ _ _ (pmcWord_port (port_bnd ..)),
    (leaves_setGrp _ p g _).reg _ (by simp)]

/-! ### Fragments that leave the merge (R143, R145) -/

/-- What the merge touches: its groups and their counters, the channels' pages of its port, the buffers and the SDUs for the engines. -/
def mergeFoot (p : Nat) : Foot :=
  ⟨[.grp, .onuCnt, .upSdu, .buf, .regs, .cnt, .pmc],
    [pmcSpan, pageSpan pgBPM, (pgPON p, pgBND p), wordSpan (pgBND p + BND_F_SEQ_LOSS.off), wordSpan (pgBND p + BND_F_SEQ_LOSS.cntOff),
      wordSpan (cntAddr (pgBND p) BND_C_US_SDU), wordSpan (cntAddr (pgBND p) BND_C_SEQ_LOSS),
      wordSpan (cntAddr (pgBND p) BND_C_REASM_DISCARD)]⟩

theorem GroupStep.setMerged {r : Grp} (h : r.besideMerge = (grp s p g).besideMerge) : GroupStep (mergeFoot p) p g s (setGrp s p g r) :=
  .mono (.set h) (by simp [Foot.Within, Covers, mergeFoot])

theorem handUp_leaves (s : State) (src len : Nat) (bytes : List Byte) : Leaves ⟨[.upSdu], []⟩ s (handUp s src len bytes) := by
  refine .of_only (fun p hp => ?_) (by decide) (by decide)
  cases p
  case upSdu => simp at hp
  all_goals rfl

/-- A counter of an ONU, and with it the channel's. -/
theorem onuBump_leaves (s : State) (p i j n : Nat) (hj : j < 32) :
    Leaves ⟨[.onuCnt, .regs, .cnt, .pmc], [pmcSpan, (pgPON p, pgBND p)]⟩ s (onuBump s p i j n) := by
  have stored := (leaves_setOnuCnt s p i j (min cntMax (onuCnt s p i j + n))).mono
    (G := ⟨[.onuCnt, .regs, .cnt, .pmc], [pmcSpan, (pgPON p, pgBND p)]⟩) (by simp [Foot.Within, Covers])
  unfold onuBump
  dsimp only
  split
  · rename_i hc
    refine stored.andThen (leaves_bump _ _ j n) ?_
    have channel := hc.2
    simp only [Foot.Within, Covers, wordSpan, cntAddr, pgCH, pgBND, pgPON, List.mem_cons, List.not_mem_nil, or_false, forall_eq_or_imp,
      forall_eq, exists_eq_or_imp, exists_eq_left]
    refine ⟨by simp, .inl ⟨le_refl _, le_refl _⟩, .inr ?_⟩
    omega
  · exact stored

theorem discardUnit_step (s : State) (p g : Nat) : GroupStep (mergeFoot p) p g s (discardUnit s p g) :=
  (grpBump_step s p g BND_C_REASM_DISCARD 1).mono (by simp [Foot.Within, Covers, mergeFoot, grpCntFoot])

/-- A unit beyond SDU_MAX is counted on the H channel and for the ONU (R61). -/
theorem oversize_step (s : State) (p g i : Nat) :
    GroupStep (mergeFoot p) p g s (onuBump (flag s (pgCH p 2) CH_F_SDU_OVERSIZE) p i ONU_C_SDU_OVERSIZE 1) := by
  have span (off : Nat) (h : off < 0x1000) :
      ∃ q ∈ (mergeFoot p).spans, q.1 ≤ (wordSpan (pgCH p 2 + off)).1 ∧ (wordSpan (pgCH p 2 + off)).2 ≤ q.2 :=
    ⟨(pgPON p, pgBND p), by simp [mergeFoot], by simp only [wordSpan, pgCH]; omega, by simp only [wordSpan, pgCH, pgBND]; omega⟩
  have flagged := (leaves_flag s (pgCH p 2) CH_F_SDU_OVERSIZE).groupStep (by simp) p g
  have counted (t : State) := (onuBump_leaves t p i ONU_C_SDU_OVERSIZE 1 (by decide)).groupStep (by simp) p g
  refine (flagged.mono ⟨by simp [mergeFoot], fun r hr => ?_⟩).trans ((counted _).mono (by simp [Foot.Within, Covers, mergeFoot]))
  simp only [List.mem_cons, List.not_mem_nil, or_false] at hr
  rcases hr with rfl | rfl | rfl
  · exact ⟨pmcSpan, by simp [mergeFoot], le_refl _, le_refl _⟩
  · exact span _ (by decide)
  · exact span _ (by decide)

/-- The end of a unit, whole, too long or with a fragment lost (R145). -/
theorem endUnit_step (s : State) (p g : Nat) : GroupStep (mergeFoot p) p g s (endUnit s p g) := by
  have closed : GroupStep (mergeFoot p) p g s (setGrp s p g { grp s p g with join := none, bad := false }) := .setMerged rfl
  unfold endUnit
  dsimp only
  split
  · exact closed
  · split
    · exact closed.trans (discardUnit_step _ p g)
    · split
      · exact closed.trans (oversize_step _ p g _)
      · have counted := (grpBump_step (setGrp s p g { grp s p g with join := none, bad := false }) p g BND_C_US_SDU 1).mono (G := mergeFoot p)
          (by simp [Foot.Within, Covers, mergeFoot, grpCntFoot])
        have handed (t : State) (len : Nat) (bytes : List Byte) := (handUp_leaves t (512 * p + (grp s p g).onuH) len bytes).groupStep (by simp) p g
        exact (closed.trans counted).trans ((handed _ _ _).mono (by simp [Foot.Within, Covers, mergeFoot]))

theorem leaves_freeHeld (s : State) (p : Nat) (f : HeldFrag) : Leaves freeFoot s (freeHeld s p f) := by
  unfold freeHeld
  split
  · exact leaves_freeBuf s _ _ _
  · exact .refl _ s

theorem freeHeld_step (s : State) (p g : Nat) (f : HeldFrag) : GroupStep (mergeFoot p) p g s (freeHeld s p f) :=
  ((leaves_freeHeld s p f).groupStep (by decide) p g).mono (by simp [Foot.Within, Covers, mergeFoot, freeFoot])

theorem joinFrag_step (s : State) (p g : Nat) (f : HeldFrag) : GroupStep (mergeFoot p) p g s (joinFrag s p g f) := by
  have ended (t : State) (h : GroupStep (mergeFoot p) p g s t) : GroupStep (mergeFoot p) p g s (if f.last then endUnit t p g else t) := by
    split
    · exact h.trans (endUnit_step t p g)
    · exact h
  unfold joinFrag
  refine ended _ ?_
  dsimp only
  split
  · split
    · exact .setMerged rfl
    · refine .trans (.setMerged ?_) (discardUnit_step _ p g)
      rfl
  · split
    · exact .setMerged rfl
    · exact .setMerged rfl

theorem releaseRun_step (n : Nat) (s : State) (p g : Nat) : GroupStep (mergeFoot p) p g s (releaseRun n s p g) := by
  induction n generalizing s with
  | zero => exact .refl _ p g s
  | succ n ih =>
    unfold releaseRun
    dsimp only
    split
    · exact .refl _ p g s
    · refine .trans (.trans (.trans (.setMerged ?_) (freeHeld_step _ p g _)) (joinFrag_step _ p g _)) (ih _)
      rfl

/-! ### Gaps (R144, R146) -/

/-- The state in which a group's release goes on above a gap, q the number that NEXT moves to. -/
def gapPassed (s : State) (p g q : Nat) : State :=
  let r := grp s p g
  let n := seqAhead r.next q
  let s1 := setGrp s p g { r with next := q, bad := r.bad || (r.join.isSome && 0 < n) }
  if n = 0 then s1 else grpNote s1 p g BND_F_SEQ_LOSS BND_C_SEQ_LOSS n

theorem declareGap_none {s : State} {p g : Nat} (h : lowestHeld (grp s p g) = none) : declareGap s p g = s := by
  simp only [declareGap, h]

theorem declareGap_some {s : State} {p g q : Nat} (h : lowestHeld (grp s p g) = some q) :
    declareGap s p g = releaseRun (grp s p g).held.length (gapPassed s p g q) p g := by
  simp only [declareGap, h, gapPassed]

theorem gapPassed_step (s : State) (p g q : Nat) : GroupStep (mergeFoot p) p g s (gapPassed s p g q) := by
  unfold gapPassed
  dsimp only
  split
  · exact .setMerged rfl
  · refine .trans (.setMerged ?_) ((grpNote_step _ p g BND_F_SEQ_LOSS BND_C_SEQ_LOSS _).mono ?_)
    · rfl
    · simp [Foot.Within, Covers, mergeFoot, grpNoteFoot]

/-- Beyond the gap nothing is released yet: the held fragments and the unit being joined stand. -/
theorem grp_gapPassed (s : State) (p g q : Nat) :
    ∃ b l, grp (gapPassed s p g q) p g = { grp s p g with next := q, bad := b, cnts := l } := by
  unfold gapPassed
  dsimp only
  split
  · exact ⟨_, (grp s p g).cnts, grp_setGrp_same ..⟩
  · obtain ⟨l, hl⟩ := grp_grpNote (setGrp s p g { grp s p g with next := q, bad := _ }) p g BND_F_SEQ_LOSS BND_C_SEQ_LOSS
      (seqAhead (grp s p g).next q)
    exact ⟨_, l, by rw [hl, grp_setGrp_same]⟩

theorem declareGap_step (s : State) (p g : Nat) : GroupStep (mergeFoot p) p g s (declareGap s p g) := by
  cases h : lowestHeld (grp s p g) with
  | none =>
    rw [declareGap_none h]
    exact .refl _ p g s
  | some q =>
    rw [declareGap_some h]
    exact (gapPassed_step s p g q).trans (releaseRun_step _ _ p g)

theorem declareAll_step (n : Nat) (s : State) (p g : Nat) : GroupStep (mergeFoot p) p g s (declareAll n s p g) := by
  induction n generalizing s with
  | zero => exact .refl _ p g s
  | succ n ih =>
    unfold declareAll
    split
    · exact .refl _ p g s
    · exact (declareGap_step s p g).trans (ih _)

theorem flushGroup_step (s : State) (p g : Nat) : GroupStep (mergeFoot p) p g s (flushGroup s p g) := declareAll_step _ s p g

end Sys2Proof.Machine
end

section
/-! PROOF. O25: fragments that arrive (R138, R140, R143, R144). -/

namespace Sys2Proof.Machine

/-! ### Pages apart -/

/-- The figures of the pools stand on other pages than the groups of a port. -/
theorem off_pools_bnd (p : Fin 32) {off : Nat} (h : off < 0x1000) : Off poolsFoot.spans (pgBND p + off) := by
  simp only [Off, poolsFoot, List.mem_cons, List.not_mem_nil, or_false, forall_eq_or_imp, forall_eq, pmcSpan, pageSpan, pgBND, pgPON, pgPMC,
    pgTMQ, pgBPM, pgCXL]
  omega

theorem off_pools_bndCnt (p : Fin 32) {j : Nat} (h : j < 16) : Off poolsFoot.spans (cntAddr (pgBND p) j) := by
  rw [cntAddr, Nat.add_assoc]
  exact off_pools_bnd p (by omega)

/-- What counters and flags of a group touch on its port's page. -/
def bndFoot (p : Nat) : Foot := ⟨[.grp, .regs, .cnt, .pmc], [pmcSpan, (pgBND p + 0x70, pgBND p + 0x1000)]⟩

/-- The control words of the page lie below. -/
theorem off_bnd_control (p : Nat) : Off (bndFoot p).spans (pgBND p + BND_HOLD_KIB.off) := by
  simp only [Off, bndFoot, List.mem_cons, List.not_mem_nil, or_false, forall_eq_or_imp, forall_eq, pmcSpan, pgBND, pgPON, pgPMC, BND_HOLD_KIB]
  omega

theorem grpBump_onPage (s : State) (p g n : Nat) {j : Nat} (hj : j < 16) : GroupStep (bndFoot p) p g s (grpBump s p g j n) := by
  refine (grpBump_step s p g j n).mono ⟨by simp [grpCntFoot, bndFoot], ?_⟩
  simp only [Covers, grpCntFoot, bndFoot, wordSpan, cntAddr, List.mem_cons, List.not_mem_nil, or_false, forall_eq_or_imp, forall_eq,
    exists_eq_or_imp, exists_eq_left]
  omega

theorem grpNote_onPage (s : State) (p g n : Nat) {f : Flag} {j : Nat} (hf : 0x70 ≤ f.off ∧ f.off < 0x1000)
    (hc : 0x70 ≤ f.cntOff ∧ f.cntOff < 0x1000) (hj : j < 16) : GroupStep (bndFoot p) p g s (grpNote s p g f j n) := by
  refine (grpNote_step s p g f j n).mono ⟨by simp [grpNoteFoot, bndFoot], ?_⟩
  simp only [Covers, grpNoteFoot, bndFoot, wordSpan, cntAddr, List.mem_cons, List.not_mem_nil, or_false, forall_eq_or_imp, forall_eq,
    exists_eq_or_imp, exists_eq_left]
  omega

/-! ### The fragment that the channel handed over (R138) -/

/-- A fragment taken out of the queue. -/
def fragTaken (s : State) (b : BondIn) : State := { s with pon := { s.pon with bondIn := s.pon.bondIn.erase b } }

theorem leaves_fragTaken (s : State) (b : BondIn) : Leaves ⟨[.bondIn], []⟩ s (fragTaken s b) := by
  refine .of_only (fun p hp => ?_) (by decide) (by decide)
  cases p
  case bondIn => simp at hp
  all_goals rfl

/-- The header's sequence number is one of 24 bits. -/
theorem seq_of_handedOver {s : State} {p c n : Nat} {h : FragHdr} {l f : Nat} {b : BondIn} (hb : handedOver s p c n h l f = some b) :
    h.seq % seqMod = h.seq := by
  have found := List.find?_some hb
  simp only [Bool.and_eq_true, beq_iff_eq] at found
  rw [← found.2]
  exact Nat.mod_mod _ _

section Arrive
variable {s : State} {p : Fin 32} {c : Fin 3} {n : Nat} {h : FragHdr} {l f g : Nat} {b : BondIn}

theorem bondFragmentArrive_none (hb : handedOver s p c n h l f = none) : exec (.bondFragmentArrive p c n h l f) s = .next s := by
  show execBondFragmentArrive p c n h l f s = _
  unfold handedOver at hb
  simp only [execBondFragmentArrive, hb]

theorem bondFragmentArrive_unmerged (hb : handedOver s p c n h l f = some b)
    (hg : active s (pgBND p) BND_BND_EN = false ∨ groupOfXgem s p c n = none) :
    exec (.bondFragmentArrive p c n h l f) s = .next (fragTaken s b) := by
  have unowned : (if active s (pgBND p) BND_BND_EN then groupOfXgem s p c n else none) = none := by
    rcases hg with he | hx
    · simp [he]
    · simp [hx]
  show execBondFragmentArrive p c n h l f s = _
  unfold handedOver at hb
  simp only [execBondFragmentArrive, hb, unowned, fragTaken]

/-- A fragment of a group: the merge's answer, with the figures of the pools brought up to date. -/
theorem completes_merge {P : State → Prop} (hb : handedOver s p c n h l f = some b) (he : active s (pgBND p) BND_BND_EN = true)
    (hg : groupOfXgem s p c n = some g)
    (hP : ∀ t, Leaves poolsFoot (mergeFragment (fragTaken s b) p c g h l f (b.bytes.drop 8)) t → P t) :
    Completes (.bondFragmentArrive p c n h l f) s P := by
  refine ⟨settlePools s (mergeFragment (fragTaken s b) p c g h l f (b.bytes.drop 8)), ?_, hP _ (leaves_settlePools _ _)⟩
  show execBondFragmentArrive p c n h l f s = _
  unfold handedOver at hb
  simp only [execBondFragmentArrive, hb, he, if_true, hg, fragTaken]

end Arrive

theorem bondFragmentArrive_nothing (s : State) (p : Fin 32) (c : Fin 3) (n : Nat) (h : FragHdr) (l f : Nat)
    (hb : handedOver s p c n h l f = none) : Completes (.bondFragmentArrive p c n h l f) s (fun t => t = s) :=
  ⟨s, bondFragmentArrive_none hb, rfl⟩

theorem bondFragmentArrive_drops (s : State) (p : Fin 32) (c : Fin 3) (n : Nat) (h : FragHdr) (l f : Nat) (b : BondIn)
    (hb : handedOver s p c n h l f = some b) (hg : active s (pgBND p) BND_BND_EN = false ∨ groupOfXgem s p c n = none) :
    Completes (.bondFragmentArrive p c n h l f) s (fun t => t.pon.bondIn = s.pon.bondIn.erase b ∧ Only [.bondIn] s t) :=
  ⟨fragTaken s b, bondFragmentArrive_unmerged hb hg, rfl, (leaves_fragTaken s b).only⟩

/-! ### A bad header (R140) -/

theorem bondFragmentArrive_badHeader (s : State) (p : Fin 32) (c : Fin 3) (n : Nat) (h : FragHdr) (l f g : Nat) (b : BondIn)
    (hb : handedOver s p c n h l f = some b) (he : active s (pgBND p) BND_BND_EN = true) (hg : groupOfXgem s p c n = some g)
    (hr : fragRejected g c h = true) :
    Completes (.bondFragmentArrive p c n h l f) s (fun t =>
      (grp t p g).next = (grp s p g).next ∧
      (grp t p g).held = (grp s p g).held ∧
      flagSet t (pgBND p) BND_F_HDR_ERR = true ∧
      cntAt t (cntAddr (pgBND p) BND_C_HDR_ERR) = min cntMax (cntAt s (cntAddr (pgBND p) BND_C_HDR_ERR) + 1) ∧
      TblOnly Grp.init (64 * p + g) s.pon.grp t.pon.grp ∧
      Only [.grp, .bondIn, .regs, .cnt, .pmc] s t) := by
  refine completes_merge hb he hg fun t told => ?_
  rw [mergeFragment, if_pos hr] at told
  have taken := leaves_fragTaken s b
  have noted := grpNote_step (fragTaken s b) p g BND_F_HDR_ERR BND_C_HDR_ERR 1
  obtain ⟨cnts, hgrp⟩ := grp_grpNote (fragTaken s b) p g BND_F_HDR_ERR BND_C_HDR_ERR 1
  rw [taken.pon_grp (by decide)] at hgrp
  have record := (told.pon_grp (by decide) p g).trans hgrp
  refine ⟨by rw [record], by rw [record], ?_, ?_, ?_, ?_⟩
  · rw [told.flagSet _ _ (off_pools_bnd p (by decide))]
    exact flagSet_grpNote _ _ _ _ _ _ (by decide) (by decide)
  · rw [told.cnt _ (off_pools_bndCnt p (by decide)), cntAt_grpNote_same, taken.cnt _ (by simp)]
  · exact noted.others.trans (.of_eq (told.only .grp (by decide)))
  · exact (taken.onlyIn.trans (noted.leaves.onlyIn (by simp))).trans told.onlyIn

/-! ### A fragment that R140 lets through -/

/-- The counts of a fragment that passed. -/
def fragPassed (s : State) (p c g len : Nat) : State :=
  grpBump (grpBump s p g (if c = 1 then BND_C_US_FRAGS_X else BND_C_US_FRAGS_H) 1) p g BND_C_US_BYTES (len - 8)

/-- And DATUM_ERR, where its datum differs from its map frame's. -/
def fragCounted (s : State) (p c g : Nat) (h : FragHdr) (len mapFrame : Nat) : State :=
  if h.datum = mapFrame % 2 ^ 16 then fragPassed s p c g len else grpNote (fragPassed s p c g len) p g BND_F_DATUM_ERR BND_C_DATUM_ERR 1

/-- A fragment as the merge holds it. -/
def fragOf (h : FragHdr) (len mapFrame : Nat) (bytes : List Byte) : HeldFrag :=
  ⟨h.seq, h.datum, mapFrame, h.first, h.last, bytes, len - 8, none⟩

theorem fragPassed_step (s : State) (p c g len : Nat) : GroupStep (bndFoot p) p g s (fragPassed s p c g len) :=
  (grpBump_onPage s p g 1 (by split <;> decide)).trans (grpBump_onPage _ p g (len - 8) (j := BND_C_US_BYTES) (by decide))

theorem fragCounted_step (s : State) (p c g : Nat) (h : FragHdr) (len mapFrame : Nat) :
    GroupStep (bndFoot p) p g s (fragCounted s p c g h len mapFrame) := by
  unfold fragCounted
  split
  · exact fragPassed_step s p c g len
  · exact (fragPassed_step s p c g len).trans (grpNote_onPage _ p g 1 (by decide) (by decide) (by decide))

theorem grp_fragPassed (s : State) (p c g len : Nat) : ∃ l, grp (fragPassed s p c g len) p g = { grp s p g with cnts := l } := by
  obtain ⟨l1, arrived⟩ := grp_grpBump s p g (if c = 1 then BND_C_US_FRAGS_X else BND_C_US_FRAGS_H) 1
  obtain ⟨l2, counted⟩ := grp_grpBump (grpBump s p g (if c = 1 then BND_C_US_FRAGS_X else BND_C_US_FRAGS_H) 1) p g BND_C_US_BYTES (len - 8)
  exact ⟨l2, by rw [fragPassed, counted, arrived]⟩

theorem grp_fragCounted (s : State) (p c g : Nat) (h : FragHdr) (len mapFrame : Nat) :
    ∃ l, grp (fragCounted s p c g h len mapFrame) p g = { grp s p g with cnts := l } := by
  obtain ⟨l1, passed⟩ := grp_fragPassed s p c g len
  obtain ⟨l2, noted⟩ := grp_grpNote (fragPassed s p c g len) p g BND_F_DATUM_ERR BND_C_DATUM_ERR 1
  unfold fragCounted
  split
  · exact ⟨l1, passed⟩
  · exact ⟨l2, by rw [noted, passed]⟩

theorem mergeFragment_of_hold {s t : State} {p c g : Nat} {h : FragHdr} {len mapFrame : Nat} {bytes : List Byte}
    (hr : fragRejected g c h = false)
    (ht : holdFragment (fragCounted s p c g h len mapFrame) p g (fragOf h len mapFrame bytes) = some t) :
    mergeFragment s p c g h len mapFrame bytes = t := by
  rw [mergeFragment, if_neg (by simp [hr])]
  rw [fragOf, fragCounted, fragPassed] at ht
  dsimp only at ht ⊢
  rw [ht]

/-! ### Late or repeated (R143) -/

theorem holdFragment_late (s : State) (p g : Nat) (f : HeldFrag) (hd : 2 ^ 23 ≤ seqAhead (grp s p g).next f.seq) :
    holdFragment s p g f = some (grpNote s p g BND_F_DUP_LATE BND_C_DUP_LATE 1) := by
  unfold holdFragment
  dsimp only
  rw [if_neg (by omega), if_pos (.inl hd)]

theorem bondFragmentArrive_late (s : State) (p : Fin 32) (c : Fin 3) (n : Nat) (h : FragHdr) (l f g : Nat) (b : BondIn)
    (hb : handedOver s p c n h l f = some b) (he : active s (pgBND p) BND_BND_EN = true) (hg : groupOfXgem s p c n = some g)
    (hr : fragRejected g c h = false) (hd : 2 ^ 23 ≤ seqAhead (grp s p g).next (h.seq % seqMod)) :
    Completes (.bondFragmentArrive p c n h l f) s (fun t =>
      (grp t p g).held = (grp s p g).held ∧
      (grp t p g).next = (grp s p g).next ∧
      flagSet t (pgBND p) BND_F_DUP_LATE = true ∧
      Only [.grp, .bondIn, .regs, .cnt, .pmc] s t) := by
  rw [seq_of_handedOver hb] at hd
  refine completes_merge hb he hg fun t told => ?_
  have taken := leaves_fragTaken s b
  have counted := fragCounted_step (fragTaken s b) p c g h l f
  obtain ⟨l1, passed⟩ := grp_fragCounted (fragTaken s b) p c g h l f
  rw [taken.pon_grp (by decide)] at passed
  have late := holdFragment_late (fragCounted (fragTaken s b) p c g h l f) p g (fragOf h l f (b.bytes.drop 8))
    (by rw [passed]; exact hd)
  rw [mergeFragment_of_hold hr late] at told
  have noted := grpNote_step (fragCounted (fragTaken s b) p c g h l f) p g BND_F_DUP_LATE BND_C_DUP_LATE 1
  obtain ⟨l2, hgrp⟩ := grp_grpNote (fragCounted (fragTaken s b) p c g h l f) p g BND_F_DUP_LATE BND_C_DUP_LATE 1
  have record := (told.pon_grp (by decide) p g).trans hgrp
  refine ⟨by rw [record, passed], by rw [record, passed], ?_, ?_⟩
  · rw [told.flagSet _ _ (off_pools_bnd p (by decide))]
    exact flagSet_grpNote _ _ _ _ _ _ (by decide) (by decide)
  · exact ((taken.onlyIn.trans (counted.leaves.onlyIn (by simp))).trans (noted.leaves.onlyIn (by simp))).trans told.onlyIn

/-! ### Held above a gap (R143, R144) -/

/-- A group that holds one more fragment, in this buffer. -/
def Grp.holding (r : Grp) (f : HeldFrag) (j : Nat) : Grp := { r with held := r.held ++ [{ f with handle := some j }] }

theorem heldBytes_holding (r : Grp) (f : HeldFrag) (j : Nat) : heldBytes (r.holding f j) = heldBytes r + f.len := by
  simp [heldBytes, Grp.holding]

theorem seqs_holding (r : Grp) (f : HeldFrag) (j : Nat) : (r.holding f j).held.map (·.seq) = r.held.map (·.seq) ++ [f.seq] := by
  simp [Grp.holding]

theorem holdFragment_held {s v : State} {p g j : Nat} {f : HeldFrag} (hpos : 0 < seqAhead (grp s p g).next f.seq)
    (hd : seqAhead (grp s p g).next f.seq < 2 ^ 23) (hnew : (grp s p g).held.any (fun x => x.seq == f.seq) = false)
    (hask : askBytes s 4 (tagBonding p) 1 f.len = some (j, v))
    (hroom : heldBytes (grp s p g) + f.len < fld s (pgBND p) BND_HOLD_KIB * 1024) :
    holdFragment s p g f = some (setGrp v p g ((grp s p g).holding f j)) := by
  unfold holdFragment
  dsimp only
  rw [if_neg (by omega), if_neg (by rw [hnew]; simpa using hd), hask, Option.map_some]
  refine congrArg some (if_neg ?_)
  have full := heldBytes_holding (grp s p g) f j
  rw [Grp.holding] at full
  rw [grp_setGrp_same, full]
  omega

theorem poolAlike_fragCounted (s : State) (p : Fin 32) (c g : Nat) (h : FragHdr) (len mapFrame : Nat) (b : BondIn) :
    PoolAlike s (fragCounted (fragTaken s b) p c g h len mapFrame) := by
  have taken := leaves_fragTaken s b
  have counted := (fragCounted_step (fragTaken s b) p c g h len mapFrame).leaves
  refine PoolAlike.trans (t := fragTaken s b) (.of_only taken.only fun a _ => taken.reg a (by simp))
    (.of_only counted.only (fun a ha => counted.reg a ?_) (by simp [bndFoot]) (by simp [bndFoot]) (by simp [bndFoot]))
  have high := ha.1
  simp only [Off, bndFoot, List.mem_cons, List.not_mem_nil, or_false, forall_eq_or_imp, forall_eq, pmcSpan, pgBND, pgPON, pgPMC, pgBPM] at high ⊢
  omega

theorem bondFragmentArrive_holds (s : State) (p : Fin 32) (c : Fin 3) (n : Nat) (h : FragHdr) (l f g : Nat) (b : BondIn)
    (hb : handedOver s p c n h l f = some b) (he : active s (pgBND p) BND_BND_EN = true) (hg : groupOfXgem s p c n = some g)
    (hr : fragRejected g c h = false) (hpos : 0 < seqAhead (grp s p g).next (h.seq % seqMod))
    (hd : seqAhead (grp s p g).next (h.seq % seqMod) < 2 ^ 23)
    (hnew : (grp s p g).held.any (fun x => x.seq == h.seq % seqMod) = false)
    (hroom : heldBytes (grp s p g) + (l - 8) < fld s (pgBND p) BND_HOLD_KIB * 1024)
    (hask : (askBytes s 4 (tagBonding p) 1 (l - 8)).isSome = true) :
    Completes (.bondFragmentArrive p c n h l f) s (fun t =>
      (grp t p g).held.map (·.seq) = (grp s p g).held.map (·.seq) ++ [h.seq % seqMod] ∧
      (grp t p g).next = (grp s p g).next ∧
      (grp t p g).join = (grp s p g).join ∧
      heldBytes (grp t p g) = heldBytes (grp s p g) + (l - 8) ∧
      t.pon.bondIn = s.pon.bondIn.erase b ∧
      TblOnly Grp.init (64 * p + g) s.pon.grp t.pon.grp ∧
      Only [.grp, .bondIn, .buf, .freeCtr, .regs, .cnt, .pmc] s t) := by
  rw [seq_of_handedOver hb] at hpos hd hnew ⊢
  refine completes_merge hb he hg fun t told => ?_
  have taken := leaves_fragTaken s b
  have counted := fragCounted_step (fragTaken s b) p c g h l f
  have granted := ((poolAlike_fragCounted s p c g h l f b).askBytes 4 (tagBonding p) 1 (l - 8)).isSome.trans hask
  obtain ⟨l1, passed⟩ := grp_fragCounted (fragTaken s b) p c g h l f
  rw [taken.pon_grp (by decide)] at passed
  obtain ⟨⟨j, v⟩, hgrant⟩ := Option.isSome_iff_exists.mp granted
  have hold : fld (fragCounted (fragTaken s b) p c g h l f) (pgBND p) BND_HOLD_KIB = fld s (pgBND p) BND_HOLD_KIB := by
    rw [counted.leaves.fld _ _ (off_bnd_control p), taken.fld _ _ (by simp)]
  have held := holdFragment_held (f := fragOf h l f (b.bytes.drop 8)) (by rw [passed]; exact hpos) (by rw [passed]; exact hd)
    (by rw [passed]; exact hnew) hgrant (by rw [passed, hold]; exact hroom)
  rw [mergeFragment_of_hold hr held] at told
  have allocated := leaves_askBytes hgrant
  have stored := leaves_setGrp v p g ((grp (fragCounted (fragTaken s b) p c g h l f) p g).holding (fragOf h l f (b.bytes.drop 8)) j)
  have record := (told.pon_grp (by decide) p g).trans (grp_setGrp_same ..)
  rw [passed] at record
  refine ⟨?_, by rw [record]; rfl, by rw [record]; rfl, ?_, ?_, ?_, ?_⟩
  · rw [record, seqs_holding]
    rfl
  · rw [record, heldBytes_holding]
    rfl
  · rw [told.only .bondIn (by decide), stored.only .bondIn (by decide), allocated.only .bondIn (by decide),
      counted.leaves.only .bondIn (by simp [bndFoot])]
    rfl
  · exact ((counted.others.trans (.of_eq (allocated.only .grp (by decide)))).trans (tblOnly_setGrp v p g _)).trans
      (.of_eq (told.only .grp (by decide)))
  · exact (((taken.onlyIn.trans (counted.leaves.onlyIn (by simp))).trans allocated.onlyIn).trans stored.onlyIn).trans told.onlyIn

end Sys2Proof.Machine
end

section
/-! PROOF. O25: gaps declared lost, and the transitions of a group (R144, R146). -/

namespace Sys2Proof.Machine

/-! ### Gaps (R143 to R145) -/

theorem bondGapDeadline_early (s : State) (p : Fin 32) (g : Fin 64) (h : ∀ d ∈ gapDeadline s p (grp s p g), frame s < d) :
    Completes (.bondGapDeadline p g) s (fun t => t = s) := by
  refine ⟨s, ?_, rfl⟩
  show execBondGapDeadline p g s = _
  unfold execBondGapDeadline
  cases hd : gapDeadline s p (grp s p g) with
  | none => rfl
  | some d =>
    have later : ¬ d ≤ frame s := Nat.not_le.mpr (h d hd)
    simp only [if_neg later]

theorem bondGapDeadline_declares {s : State} {p : Fin 32} {g : Fin 64} {d : Nat} (hd : gapDeadline s p (grp s p g) = some d)
    (hdue : d ≤ frame s) : exec (.bondGapDeadline p g) s = .next (settlePools s (declareGap s p g)) := by
  show execBondGapDeadline p g s = _
  simp only [execBondGapDeadline, hd, if_pos hdue]

theorem lowestHeld_single {r : Grp} {f : HeldFrag} (h : r.held = [f]) : lowestHeld r = some f.seq := by
  simp [lowestHeld, h]

/-- The only held fragment, next in order, leaves the merge. -/
theorem releaseRun_single {s : State} {p g : Nat} {f : HeldFrag} (h : (grp s p g).held = [f]) (hnext : (grp s p g).next = f.seq) :
    releaseRun 1 s p g = joinFrag (freeHeld (setGrp s p g { grp s p g with held := [] }) p f) p g f := by
  simp [releaseRun, h, hnext]

/-- The first fragment of a unit that has more of them begins the unit. -/
theorem grp_joinFrag_first {s : State} {p g : Nat} {f : HeldFrag} (hfirst : f.first = true) (hlast : f.last = false)
    (hjoin : (grp s p g).join = none) :
    ∃ k, grp (joinFrag s p g f) p g =
      { grp s p g with next := (f.seq + 1) % seqMod, maxSkew := k, join := some (f.bytes, f.len), bad := false } := by
  simp only [joinFrag, hfirst, hlast, hjoin, if_true, Bool.false_eq_true, if_false]
  exact ⟨_, grp_setGrp_same ..⟩

/-- The only held fragment, the first of its unit and next in order, waits for the rest of the unit. -/
theorem grp_releaseRun_first {s : State} {p g : Nat} {f : HeldFrag} (h : (grp s p g).held = [f]) (hnext : (grp s p g).next = f.seq)
    (hfirst : f.first = true) (hlast : f.last = false) (hjoin : (grp s p g).join = none) :
    ∃ k, grp (releaseRun 1 s p g) p g =
      { grp s p g with next := (f.seq + 1) % seqMod, maxSkew := k, held := [], join := some (f.bytes, f.len), bad := false } := by
  have freed : grp (freeHeld (setGrp s p g { grp s p g with held := [] }) p f) p g = { grp s p g with held := [] } := by
    rw [(leaves_freeHeld _ p f).pon_grp (by decide), grp_setGrp_same]
  obtain ⟨k, joined⟩ := grp_joinFrag_first hfirst hlast (by rw [freed]; exact hjoin)
  exact ⟨k, by rw [releaseRun_single h hnext, joined, freed]⟩

theorem bondGapDeadline_releases (s : State) (p : Fin 32) (g : Fin 64) (f : HeldFrag) (d : Nat) (hheld : (grp s p g).held = [f])
    (hd : gapDeadline s p (grp s p g) = some d) (hdue : d ≤ frame s) (hlast : f.last = false) (hfirst : f.first = true)
    (hjoin : (grp s p g).join = none) :
    Completes (.bondGapDeadline p g) s (fun t =>
      (grp t p g).held = [] ∧
      (grp t p g).next = (f.seq + 1) % seqMod ∧
      (grp t p g).join = some (f.bytes, f.len) ∧
      TblOnly Grp.init (64 * p + g) s.pon.grp t.pon.grp ∧
      Only [.grp, .onuCnt, .upSdu, .buf, .regs, .cnt, .pmc] s t) := by
  refine ⟨_, bondGapDeadline_declares hd hdue, ?_⟩
  have step := declareGap_step s p g
  have told := leaves_settlePools s (declareGap s p g)
  have declared : declareGap s p g = releaseRun 1 (gapPassed s p g f.seq) p g := by
    rw [declareGap_some (lowestHeld_single hheld), hheld, List.length_singleton]
  obtain ⟨bad, cnts, passed⟩ := grp_gapPassed s p g f.seq
  obtain ⟨skew, released⟩ := grp_releaseRun_first (s := gapPassed s p g f.seq) (by rw [passed]; exact hheld) (by rw [passed]) hfirst hlast
    (by rw [passed]; exact hjoin)
  rw [← declared, ← told.pon_grp (by decide)] at released
  refine ⟨by rw [released], by rw [released], by rw [released], ?_, ?_⟩
  · exact step.others.trans (.of_eq (told.only .grp (by decide)))
  · exact (step.leaves.onlyIn (by simp)).trans told.onlyIn

/-! ### Frame boundaries (R146) -/

theorem memberFallback_eq (s : State) (p : Fin 32) (g : Fin 64) :
    exec (.memberFallback p g) s = .next (if atBoundary s then settlePools s (fallBack s p g) else s) := rfl

theorem groupDown_eq (s : State) (p : Fin 32) (g : Fin 64) :
    exec (.groupDown p g) s = .next (if atBoundary s then goDown s p g else s) := rfl

theorem memberRejoin_eq (s : State) (p : Fin 32) (g : Fin 64) :
    exec (.memberRejoin p g) s = .next (if atBoundary s then rejoin s p g else s) := rfl

theorem transitions_wait (s : State) (p : Fin 32) (g : Fin 64) (i : Instr)
    (hi : i = .memberFallback p g ∨ i = .groupDown p g ∨ i = .memberRejoin p g) (h : atBoundary s = false) :
    Completes i s (fun t => t = s) := by
  have off : ¬ atBoundary s = true := by simp [h]
  rcases hi with rfl | rfl | rfl
  · exact ⟨s, by rw [memberFallback_eq, if_neg off], rfl⟩
  · exact ⟨s, by rw [groupDown_eq, if_neg off], rfl⟩
  · exact ⟨s, by rw [memberRejoin_eq, if_neg off], rfl⟩

/-! ### GROUP_DOWN -/

/-- A group with both members down. -/
def Grp.downed (r : Grp) : Grp := { r with state := gDown, upX := 0, upH := 0 }

theorem groupDown_downs (s : State) (p : Fin 32) (g : Fin 64) (h : atBoundary s = true) (hv : (grp s p g).valid = true)
    (hs : ((grp s p g).state = gSingleX ∧ memberDown s p 1 (grp s p g).onuX = true) ∨
      ((grp s p g).state = gSingleH ∧ memberDown s p 2 (grp s p g).onuH = true)) :
    Completes (.groupDown p g) s (fun t =>
      grp t p g = { grp s p g with state := gDown, upX := 0, upH := 0 } ∧
      flagSet t (pgBND p) BND_F_GROUP_DOWN = true ∧
      TblOnly Grp.init (64 * p + g) s.pon.grp t.pon.grp ∧
      Only [.grp, .regs, .pmc] s t) := by
  have down : goDown s p g = flag (setGrp s p g (grp s p g).downed) (pgBND p) BND_F_GROUP_DOWN := if_pos ⟨hv, hs⟩
  have stored := leaves_setGrp s p g (grp s p g).downed
  have flagged := leaves_flag (setGrp s p g (grp s p g).downed) (pgBND p) BND_F_GROUP_DOWN
  refine ⟨_, by rw [groupDown_eq, if_pos h, down], ?_, ?_, ?_, ?_⟩
  · rw [flagged.pon_grp (by simp), grp_setGrp_same, Grp.downed]
  · exact flagSet_flag _ _ _ (by decide) (by decide) (pmcWord_port (port_bnd ..))
  · exact (tblOnly_setGrp s p g _).trans (.of_eq (flagged.only .grp (by simp)))
  · exact stored.onlyIn.trans (flagged.onlyIn (by simp))

/-! ### MEMBER_REJOIN -/

/-- A group whose two members are up, split from one counter. -/
def Grp.rejoined (r : Grp) : Grp :=
  let n := if r.state = gSingleX then r.sX else r.sH
  { r with state := gUp, sX := n, sH := n }

theorem rejoin_single {s : State} {p g : Nat} (hv : (grp s p g).valid = true)
    (hs : ((grp s p g).state = gSingleX ∧ fld s (pgBND p) BND_REJOIN_FRAMES ≤ (grp s p g).upH ∧ memberDown s p 2 (grp s p g).onuH = false) ∨
      ((grp s p g).state = gSingleH ∧ fld s (pgBND p) BND_REJOIN_FRAMES ≤ (grp s p g).upX ∧ memberDown s p 1 (grp s p g).onuX = false)) :
    rejoin s p g = grpNote (setGrp s p g (grp s p g).rejoined) p g BND_F_MEMBER_UP BND_C_REJOINS 1 := by
  unfold rejoin
  dsimp only
  rw [if_neg (by simp [hv])]
  rcases hs with ⟨hst, hup, hdown⟩ | ⟨hst, hup, hdown⟩
  · have returned : (grp s p g).rejoined = { grp s p g with state := gUp, sH := (grp s p g).sX } := by simp [Grp.rejoined, hst]
    rw [if_pos ⟨hst, by simp [hup, hdown]⟩, returned]
  · have returned : (grp s p g).rejoined = { grp s p g with state := gUp, sX := (grp s p g).sH } := by
      simp [Grp.rejoined, hst, gSingleX, gSingleH]
    rw [if_neg (by simp [hst, gSingleX, gSingleH]), if_pos ⟨hst, by simp [hup, hdown]⟩, returned]

theorem memberRejoin_rejoins (s : State) (p : Fin 32) (g : Fin 64) (h : atBoundary s = true) (hv : (grp s p g).valid = true)
    (hs : ((grp s p g).state = gSingleX ∧ fld s (pgBND p) BND_REJOIN_FRAMES ≤ (grp s p g).upH ∧ memberDown s p 2 (grp s p g).onuH = false) ∨
      ((grp s p g).state = gSingleH ∧ fld s (pgBND p) BND_REJOIN_FRAMES ≤ (grp s p g).upX ∧ memberDown s p 1 (grp s p g).onuX = false)) :
    Completes (.memberRejoin p g) s (fun t =>
      (grp t p g).state = gUp ∧
      (grp t p g).sX = (if (grp s p g).state = gSingleX then (grp s p g).sX else (grp s p g).sH) ∧
      (grp t p g).sH = (if (grp s p g).state = gSingleX then (grp s p g).sX else (grp s p g).sH) ∧
      flagSet t (pgBND p) BND_F_MEMBER_UP = true ∧
      cntAt t (cntAddr (pgBND p) BND_C_REJOINS) = min cntMax (cntAt s (cntAddr (pgBND p) BND_C_REJOINS) + 1) ∧
      TblOnly Grp.init (64 * p + g) s.pon.grp t.pon.grp ∧
      Only [.grp, .regs, .cnt, .pmc] s t) := by
  have stored := leaves_setGrp s p g (grp s p g).rejoined
  have noted := grpNote_step (setGrp s p g (grp s p g).rejoined) p g BND_F_MEMBER_UP BND_C_REJOINS 1
  obtain ⟨cnts, record⟩ := grp_grpNote (setGrp s p g (grp s p g).rejoined) p g BND_F_MEMBER_UP BND_C_REJOINS 1
  rw [grp_setGrp_same] at record
  refine ⟨_, by rw [memberRejoin_eq, if_pos h, rejoin_single hv hs], ?_, ?_, ?_, ?_, ?_, ?_, ?_⟩
  · rw [record]; rfl
  · rw [record]; rfl
  · rw [record]; rfl
  · exact flagSet_grpNote _ _ _ _ _ _ (by decide) (by decide)
  · rw [cntAt_grpNote_same, stored.cnt _ (by simp)]
  · exact (tblOnly_setGrp s p g _).trans noted.others
  · exact stored.onlyIn.trans (noted.leaves.onlyIn (by simp))

/-! ### MEMBER_FALLBACK -/

/-- A group left on one member, H when `x` is down. -/
def Grp.fallen (r : Grp) (x : Bool) : Grp := { r with state := if x then gSingleH else gSingleX, upX := 0, upH := 0 }

/-- An UP group that falls back, its gaps declared lost. -/
def fallenState (s : State) (p g : Nat) : State :=
  flushGroup (setGrp s p g ((grp s p g).fallen (memberDown s p 1 (grp s p g).onuX))) p g

theorem fallBack_up {s : State} {p g : Nat} (hv : (grp s p g).valid = true) (hst : (grp s p g).state = gUp)
    (hdown : memberDown s p 1 (grp s p g).onuX = true ∨ memberDown s p 2 (grp s p g).onuH = true) :
    fallBack s p g = postTo (grpNote (fallenState s p g) p g BND_F_MEMBER_DOWN BND_C_FALLBACKS 1) (pgBND p) (onuOwner s p (grp s p g).onuX)
      .memberDown [g, if memberDown s p 1 (grp s p g).onuX then 0 else 1] := if_pos ⟨hv, hst, hdown⟩

theorem fallenState_facts (s : State) (p g : Nat) :
    (grp (fallenState s p g) p g).state = (if memberDown s p 1 (grp s p g).onuX then gSingleH else gSingleX) ∧
    (grp (fallenState s p g) p g).valid = (grp s p g).valid ∧
    TblOnly Grp.init (64 * p + g) s.pon.grp (fallenState s p g).pon.grp ∧
    Leaves (mergeFoot p) s (fallenState s p g) := by
  have fallen := leaves_setGrp s p g ((grp s p g).fallen (memberDown s p 1 (grp s p g).onuX))
  have flushed := flushGroup_step (setGrp s p g ((grp s p g).fallen (memberDown s p 1 (grp s p g).onuX))) p g
  have kept := flushed.kept
  rw [grp_setGrp_same] at kept
  exact ⟨(congrArg Grp.state kept :), (congrArg Grp.valid kept :), (tblOnly_setGrp s p g _).trans flushed.others,
    (fallen.mono (by simp [Foot.Within, Covers, mergeFoot])).trans flushed.leaves⟩

/-- The count of fallbacks is none of the merge's. -/
theorem off_merge_fallbacks (p : Fin 32) : Off (mergeFoot p).spans (cntAddr (pgBND p) BND_C_FALLBACKS) := by
  simp only [Off, mergeFoot, List.mem_cons, List.not_mem_nil, or_false, forall_eq_or_imp, forall_eq, wordSpan, pmcSpan, pageSpan, pgBND, pgPON,
    pgPMC, pgBPM, cntAddr, BND_F_SEQ_LOSS, BND_C_US_SDU, BND_C_SEQ_LOSS, BND_C_REASM_DISCARD, BND_C_FALLBACKS]
  omega

/-- Beside its EVT_SEQ an event leaves the page that posts it. -/
theorem off_event_bnd (p off : Nat) (h : off ≠ ANY_EVT_SEQ.off) :
    Off (eventFoot.add (wordSpan (pgBND p + ANY_EVT_SEQ.off))).spans (pgBND p + off) := by
  simp only [Off, Foot.add, eventFoot, List.mem_cons, List.not_mem_nil, or_false, forall_eq_or_imp, forall_eq, wordSpan, pmcSpan, pageSpan, pgBND,
    pgPON, pgPMC, pgEVT]
  omega

theorem memberFallback_falls (s : State) (p : Fin 32) (g : Fin 64) (h : atBoundary s = true) (hv : (grp s p g).valid = true)
    (hst : (grp s p g).state = gUp)
    (hdown : memberDown s p 1 (grp s p g).onuX = true ∨ memberDown s p 2 (grp s p g).onuH = true) :
    Completes (.memberFallback p g) s (fun t =>
      (grp t p g).state = (if memberDown s p 1 (grp s p g).onuX then gSingleH else gSingleX) ∧
      (grp t p g).valid = true ∧
      flagSet t (pgBND p) BND_F_MEMBER_DOWN = true ∧
      cntAt t (cntAddr (pgBND p) BND_C_FALLBACKS) = min cntMax (cntAt s (cntAddr (pgBND p) BND_C_FALLBACKS) + 1) ∧
      TblOnly Grp.init (64 * p + g) s.pon.grp t.pon.grp ∧
      Only (.fifo :: [.grp, .onuCnt, .upSdu, .buf, .regs, .cnt, .pmc]) s t) := by
  obtain ⟨state, valid, others, flushed⟩ := fallenState_facts s p g
  have noted := grpNote_step (fallenState s p g) p g BND_F_MEMBER_DOWN BND_C_FALLBACKS 1
  obtain ⟨cnts, record⟩ := grp_grpNote (fallenState s p g) p g BND_F_MEMBER_DOWN BND_C_FALLBACKS 1
  have posted := leaves_postTo (grpNote (fallenState s p g) p g BND_F_MEMBER_DOWN BND_C_FALLBACKS 1) (pgBND p) (onuOwner s p (grp s p g).onuX)
    .memberDown [g, if memberDown s p 1 (grp s p g).onuX then 0 else 1]
  rw [← fallBack_up hv hst hdown] at posted
  have told := leaves_settlePools s (fallBack s p g)
  have final : grp (settlePools s (fallBack s p g)) p g = { grp (fallenState s p g) p g with cnts := cnts } := by
    rw [told.pon_grp (by decide), posted.pon_grp (by simp [Foot.add, eventFoot, alerts]), record]
  refine ⟨_, by rw [memberFallback_eq, if_pos h], ?_, ?_, ?_, ?_, ?_, ?_⟩
  · rw [final]; exact state
  · rw [final]; exact valid.trans hv
  · rw [told.flagSet _ _ (off_pools_bnd p (by decide)), posted.flagSet _ _ (off_event_bnd p _ (by decide))]
    exact flagSet_grpNote _ _ _ _ _ _ (by decide) (by decide)
  · rw [told.cnt _ (off_pools_bndCnt p (by decide)), posted.cnt _ (by rw [cntAddr, Nat.add_assoc]; exact off_event_bnd p _ (by decide)),
      cntAt_grpNote_same, flushed.cnt _ (off_merge_fallbacks p)]
  · have listed := (told.only .grp (by decide)).trans (posted.only .grp (by simp [Foot.add, eventFoot, alerts]))
    exact (others.trans noted.others).trans (.of_eq listed)
  · exact ((flushed.onlyIn.trans (noted.leaves.onlyIn (by simp))).trans (posted.onlyIn (by simp [eventFoot, alerts]))).trans told.onlyIn

/-- Settles O25: fragments by what the merge finds, deadlines by whether one is due, and the transitions by the frame boundary and by the
group's state. -/
theorem bondedMergeAndMembers : Obligations.BondedMergeAndMembers := by
  unfold Obligations.BondedMergeAndMembers
  exact ⟨bondFragmentArrive_nothing, bondFragmentArrive_drops, bondFragmentArrive_badHeader, bondFragmentArrive_holds, bondFragmentArrive_late,
    bondGapDeadline_early, bondGapDeadline_releases, transitions_wait, memberFallback_falls, groupDown_downs, memberRejoin_rejoins⟩

end Sys2Proof.Machine
end
